-- ==== Sys2Proof/Word.lean ====
section
/-! DEFINITION. The word types of the spec: the 32-bit register word (R5), the 72-bit native word
(00_scope.md, glossary) and the byte. -/

namespace Sys2Proof

/-- A BAR0 register word (R5). -/
abbrev Word := BitVec 32

/-- The native word of every memory, record, stamp and instruction: 72 bits. -/
abbrev Native := BitVec 72

/-- One byte. -/
abbrev Byte := BitVec 8

end Sys2Proof
end

