-- ==== Sys2Proof/Machine/Types.lean ====
section
/-! DEFINITION. The plain data the device is made of: what commands carry, and the parts of the state. -/

namespace Sys2Proof

/-- Group and engine numbers (R15). -/
abbrev GroupIx := Fin 32
abbrev EngineIx := Fin 32
/-- A channel position within its group (R15). -/
abbrev Pos := Fin 16
/-- A channel die. -/
abbrev DieIx := Fin 4

/-- What a fetch met (R19, R319): a parity failure, an uncorrectable word, or a word that SEC-DED has corrected, of the
I-store (0), the V-store (1) or the refill buffer (2). -/
inductive FetchError where
  | control | dispatch | istore | vstore | refill
  | corrected (m : Fin 3)
  deriving DecidableEq, Repr

/-- Where a microcode image comes from (R313, R315). -/
inductive ImageSource where
  | slot (n : Fin 2)
  | spi (words : List (BitVec 72))
  | host
  deriving DecidableEq, Repr

/-- A heartbeat of the T port (R379). -/
structure Heartbeat where
  seq : Nat
  role : BitVec 3
  mchk : Bool
  ochre : Bool
  therm : Bool
  parked : Bool
  /-- TIME of the lockstep CRC (R377) -/
  time : BitVec 56
  crc : BitVec 32
  deriving DecidableEq, Repr

/-- What the partner answers to an attach (R384). -/
structure PeerInfo where
  pair : Bool
  role : BitVec 3
  version : Word
  imageCrc : Word
  digest : BitVec 64
  member : Bool
  deriving DecidableEq, Repr

/-- A ring or a queue of ring 6 or 7 (R396). -/
inductive RingIx where
  | ring (r : Fin 6)
  | vecQueue (u : Fin 32)
  | waveQueue (u : Fin 32)
  deriving DecidableEq, Repr

/-- A host write that a member of a twin pair forwards (R375): of a register, or of a store word at its BAR2 offset. -/
inductive MirrorWrite where
  | reg (addr : BitVec 24) (v : Word)
  | mem (off : Nat) (w : Native)
  deriving DecidableEq, Repr

/-- What an attach presents to a member (R384): the write of TW_CMD with the partner's answer, the request that reaches
the partner, the contents of its I-stores, V-stores and waveform stores. -/
inductive AttachStep where
  | command (peer : PeerInfo)
  | request
  | stores (cells : List (Nat × Byte))
  deriving DecidableEq, Repr

/-- What internal deskew has measured on one channel (R84 to R86), by path: the edges seen, their rms spread in 1/16 tick
and the mean delay in ticks: from the edge that drives the reference tree to the compare logic, and around the loop of
driver and comparator. -/
structure DskMeas where
  edges : Nat
  spread : Nat
  arrival : Int
  loopEdges : Nat
  loopSpread : Nat
  loop : Int
  deriving DecidableEq, Repr

/-- A register access of `size` bytes (R5): what a read names, and what a write carries. -/
structure ReadAt where
  addr : BitVec 24
  size : Fin 9
  deriving DecidableEq, Repr

structure WriteData where
  size : Fin 5
  word : BitVec 32
  deriving DecidableEq, Repr

/-- A voltage at the comparators of a channel in 2^-17 mV, and the tick at which the return lane shows what they make of it
(R123). -/
structure PinLevel where
  volts : Int
  arrival : BitVec 66
  deriving DecidableEq, Repr

/-- What the check bits of a memory or NVS word tell at a read (R19, R428). -/
inductive EccResult where
  | good | corrected | uncorrectable
  deriving DecidableEq, Repr

/-- A player's sample memory is read: the group, and what the check bits tell (R19, R212). -/
structure WaveRead where
  group : GroupIx
  ecc : EccResult
  deriving DecidableEq, Repr

end Sys2Proof

namespace Sys2Proof.Machine

/-- A sparse register plane: address and word, addresses strictly rising; an unlisted register holds its word
at READY. -/
abbrev RegFile := List (Nat × Word)

/-- A packet: the header flit and its payload flits (R357). -/
structure Packet where
  header : Native
  payload : List Native
  deriving DecidableEq, Repr

/-- A TIME value: 56 bits (R3). -/
abbrev Time := BitVec 56

/-- A tick count: TIME and the 10-bit fine field read as one number (R3). -/
abbrev Tick := BitVec 66

/-- A PHASE value: cycle count and angle read as one number (R4, R56). -/
abbrev Phase := BitVec 64

/-- Chapter 02: the timebase discipline and the phase tracking behind the TP registers. -/
structure TpState where
  /-- TIME of the last TBREF edge while TBREF is present (R38) -/
  tbLast : Option Time
  /-- since when the frequency error has stayed within ±1 ppb (R37) -/
  tbGood : Option Time
  /-- last accepted levels of PH_A, PH_B, PH_P, PH_I (R39) -/
  inA : Bool
  inB : Bool
  inP : Bool
  inI : Bool
  /-- count position p (R41) -/
  pos : Nat
  /-- PHASE at the last accepted count or sample -/
  base : Phase
  /-- interpolation beyond `base`, in 1/16 angle unit, signed (R42, R43) -/
  off : Int
  /-- velocity in 1/16 angle unit per TCLK, signed -/
  vel : Int
  /-- TIME of the last count, or of the restart (R46) -/
  lastCount : Time
  /-- counts at one speed (R44): TIME of the first, intervals since, the least and the greatest interval in TCLK -/
  steady : Option (Time × Nat × Nat × Nat)
  /-- TIME of the last Cleif PHASE sample (R52) -/
  lastSample : Time
  /-- cycles in which each slot has fired since tracking restarted (R47) -/
  slotFired : Vector (List (BitVec 32)) 16
  /-- forward passages of the slot's angle that have not fired yet: their cycles, oldest first -/
  slotDue : Vector (List (BitVec 32)) 16
  /-- targets sampled at arming (R61) -/
  pcmpTgt : Vector Phase 8
  /-- TCLK of each arming (R57) -/
  pcmpAt : Vector Time 8
  /-- the latest STEP values with the TIME from which each is in force, the latest TIME first (R54) -/
  stepLog : List (Time × BitVec 16)
  /-- received STEP broadcasts whose TIME lies ahead, in the order of arrival (R55) -/
  stepPend : List (BitVec 16 × Time)
  deriving DecidableEq, Repr

/-- The three levels of a timing lane (R11). -/
inductive Lane where
  | low | mid | high
  deriving DecidableEq, Repr

/-- What the return lane of one channel did in the window T3 to T4 of one vector (R76, R78, R176): the levels at T3
and T4, whether it kept the level of T3 at every tick up to T4, whether it rose or fell in (T3, T4], VALID over the
window: 0 = never, 1 = not throughout, 2 = throughout, and self-check at T4 (R143). -/
structure LaneSummary where
  atT3 : Lane
  atT4 : Lane
  held : Bool
  rise : Bool
  fall : Bool
  valid : Fin 3
  masked : Bool
  deriving DecidableEq, Repr

/-- What one channel takes from the timing registers at the start of a vector, and keeps to its end (R71): pin code,
format, edges, and total drive and compare deskew. -/
structure ChanForm where
  code : Nat
  fmt : Nat
  t1 : Nat
  t2 : Nat
  t3 : Nat
  t4 : Nat
  dd : Nat
  dc : Nat
  deriving DecidableEq, Repr

/-- One vector whose period has begun in a group's generator (R68, R71). -/
structure VecRun where
  /-- generator start B -/
  b : Tick
  period : Nat
  word : Native
  /-- timing set whose values it runs with (R67) -/
  ts : Nat
  ctx : Nat
  /-- by position -/
  forms : List ChanForm
  /-- last drive data of the positions before it (R66) -/
  data : List Bool
  deriving DecidableEq, Repr

/-- One DAC of one channel (R96 to R98); its output code is LS_OUT_p_d. -/
structure Dac where
  /-- the target last acted on -/
  tgt : BitVec 16
  /-- the code that is its target until the first commit after a reset applies (R108, R416) -/
  boot : BitVec 16
  /-- TIME of the next slew step while a ramp runs -/
  slew : Option Time
  /-- start of a deglitch hold while it runs -/
  hold : Option Time
  deriving DecidableEq, Repr

/-- The measurement summary of a channel in the current interval (R118 to R120). -/
structure MeasSum where
  min : Int
  max : Int
  count : Nat
  anyCompl : Bool
  anyOvr : Bool
  deriving DecidableEq, Repr

/-- A change of what a return lane carries (R125, R128): the tick of its arrival at the compare logic, the level, VALID,
whether the channel is in self-check, and whether it is a transition that the TDC has yet to see (R149). -/
structure LaneEntry where
  at_ : Tick
  lane : Lane
  valid : Bool
  check : Bool
  edge : Bool
  deriving DecidableEq, Repr

/-- The comparator pair and majority filter of one channel (R123 to R134). -/
structure Comparator where
  hiOn : Bool
  loOn : Bool
  /-- history of comparator states since the last emptying, newest first, at most M entries -/
  hist : List Lane
  /-- filtered state; VALID is CP_STATUS -/
  filt : Lane
  /-- TIME of the last change of the TH or TL output code (R134) -/
  thrChange : Option Time
  /-- samples are taken for a self-check: the inputs are off the ball (R141) -/
  selfCheck : Bool
  /-- what the return lane has carried, newest first (R82, R125) -/
  log : List LaneEntry
  deriving DecidableEq, Repr

/-- A wait of a context (R277 to R280) or the hold of SWC (R281). -/
inductive WaitKind where
  /-- WAITPH angle-only: the angle (R58) -/
  | angle (a : BitVec 32)
  | phase (target : Phase)
  | time (target : Time)
  /-- WAITEV: MOD and the TCLK of the timeout, if any -/
  | event (mod : BitVec 8) (timeout : Option Time)
  | barrier (b : Nat)
  | swc (target : Nat)
  deriving DecidableEq, Repr

/-- A wait in progress; `released` holds the TCLK n of R232 once its epoch or condition has been reached. -/
structure Wait where
  kind : WaitKind
  /-- sampling TCLK of the wait's microword -/
  since : Time
  released : Option Time
  /-- the instruction and its microword, whose other fields act at the release (R303) -/
  instr : Native
  micro : BitVec 144
  /-- micro-address, VA, CNT, the PC of the instruction and its clamps so far, as the microword found them -/
  upc : Nat
  va : Nat
  cnt : Nat
  ipc : Nat
  clampEv : Bool
  deriving DecidableEq, Repr

/-- An action on a block outside the engine, made at the TCLK of R261 (R290 to R297). -/
inductive XReq where
  | wpc (op : Nat) (entry : Nat)
  | meas (mask : BitVec 16)
  | freq (stop : Bool)
  | snap
  | trig (soft : BitVec 4) (force : Bool)
  | msg (word : Native) (dest : BitVec 24)
  | armt (groups : BitVec 16) (dies : BitVec 4)
  deriving DecidableEq, Repr

/-- What YIELD, HALT and SWC do at the end of the turn (R244, R300). -/
inductive TurnEnd where
  | yield | halt
  | swc (c : Nat)
  deriving DecidableEq, Repr

/-- A vector that a microword has issued and whose period has not begun yet (R231). -/
structure Issued where
  word : Native
  /-- engine whose context issued it (the leader in a gang) and the context -/
  eng : Nat
  ctx : Nat
  /-- (TS + TSB) mod 32 of R225 and R222 -/
  ts : Nat
  /-- start tick after a hold (R232); `none`: the end of the previous period -/
  startAt : Option Tick
  /-- level-set select in force from this vector (R93, R94) -/
  lsel : Nat
  xreq : Option XReq
  turnEnd : Option TurnEnd
  /-- first vector of an incoming context (R187) -/
  switched : Bool
  /-- SUMR of the leader's vector (R179) -/
  sumr : Bool
  deriving DecidableEq, Repr

/-- One sequencer engine, beside its SQ registers. -/
structure Engine where
  /-- the running context's instruction is dispatched: the fields below are its own (R304, R305) -/
  dispatched : Bool
  instr : Native
  /-- micro-address of the next microword -/
  upc : Nat
  va : Nat
  cnt : Nat
  /-- a clamp event of the instruction in progress (R308) -/
  clampEv : Bool
  /-- the PC of the instruction in progress (R253) -/
  ipc : Nat
  /-- no microword has executed since the last dispatch, whose I-store read may yet prove bad (R305) -/
  fresh : Bool
  /-- first SCLK in which the next microword may execute (R305) -/
  nextAt : Time
  /-- generator start of the next slot (R232) -/
  slotB : Tick
  /-- the next slot follows a hold, so its vector names `slotB` as its start -/
  afterHold : Bool
  /-- YIELD, HALT or SWC has issued its vector and the turn ends at its boundary (R244) -/
  turnEnding : Bool
  /-- the running context has issued no vector in this turn (R187) -/
  incoming : Bool
  /-- TCLK of a host HALT of the running context, which stops at the next decision point (R227) -/
  halting : Option Time
  /-- each context's changes since it last became ELIGIBLE, newest first: the TCLK and the priority from there (R239) -/
  eligAt : Vector (List (Time × Nat)) 32
  waits : Vector (Option Wait) 32
  /-- message queue, head first (R247) -/
  msgs : List Native
  /-- refill buffer: vectors delivered and not issued, head first (R235) -/
  refill : List Native
  /-- targets held inside the timers (R248) -/
  timers : Vector Time 2
  /-- TRACE tag of the last microword that executed (R320) -/
  trace : Nat
  /-- TIME of the first arrival and of the last arrival at each barrier, of this engine (R250) -/
  arrived : Vector (Option Time) 8
  deriving DecidableEq, Repr

/-- A control-store entry: the 144-bit microword and the 8 parity bits (R298). -/
structure CsEntry where
  word : BitVec 144
  parity : BitVec 8
  deriving DecidableEq, Repr

/-- A dispatch entry and its parity bit (R299). -/
structure DispEntry where
  word : BitVec 16
  parity : Bool
  deriving DecidableEq, Repr

/-! ### Measurement windows, intervals, capture and triggers (chapters 06 and 07) -/

/-- A measurement window of a channel (R151, R152), with the settings it opened under (R153). -/
structure Win where
  start : Tick
  stop : Tick
  /-- 0 = EW, 1 = EC, 2 = FG, 3 = compare -/
  kind : Nat
  external : Bool
  /-- B + Z of the vector and its T3, or the window's start and 0 (R183) -/
  zero : Tick
  t3 : Nat
  /-- total compare deskew of its stops (R82, R71) -/
  dc : Nat
  /-- its start has come and it opened under the settings then in force (R153, R156) -/
  opened : Bool
  /-- interval it belongs to (R165) -/
  iv : Nat
  slope : Nat
  level : Nat
  limit : Nat
  /-- stamps stored, in time order: time and polarity -/
  stamps : List (Tick × Bool)
  refused : Bool
  closed : Bool
  /-- the context whose vector opened it, or that ran when an external window closed (R243) -/
  ctx : Option Nat
  /-- it opened before an engine reset (R228) -/
  dead : Bool
  deriving DecidableEq, Repr

/-- The calibration of one TDC (R148, R158); a table of `none` is the factory table. -/
structure Tdc where
  tabA : Option (List Nat)
  tabB : Option (List Nat)
  shiftA : Int
  shiftB : Int
  /-- the standby line has completed a pass since it became standby; its last pass failed -/
  passDone : Bool
  passFailed : Bool
  /-- arrival of the last converted stop (R150) -/
  lastStop : Option Tick
  /-- start of the last window (R156) -/
  lastWin : Option Tick
  /-- the last swap instant at which the channel swapped (R159) -/
  swapAt : Option Time
  /-- start of the standby line's pass, and log2 of its hits (R158) -/
  passAt : Time
  passN : Nat
  deriving DecidableEq, Repr

/-- Accumulators of one regression source (R167), its prescale count and whether an edge was lost (R168, R170). -/
structure FqAcc where
  n : Nat
  si : Int
  sii : Int
  st : Int
  sit : Int
  k : Nat
  loss : Bool
  deriving DecidableEq, Repr

/-- A gate of a regression unit (R169): its start, its end once it has ended, the accumulators of the 17 sources, their
divisors at the end, whether it ended early, GSEQ, and the sources whose result is due. -/
structure Gate where
  start : Time
  stop : Option Time
  acc : Vector FqAcc 17
  divs : List Nat
  abort : Bool
  gseq : Nat
  left : List Nat
  deriving DecidableEq, Repr

/-- One channel's part of a summary interval (R182, R183). -/
structure SumChan where
  fails : Nat
  first : Nat
  last : Nat
  /-- a vector carried a compare code -/
  compared : Bool
  flags : BitVec 11
  min : Int
  max : Int
  count : Nat
  deriving DecidableEq, Repr

/-- A summary interval of a group, open or awaiting its record set (R178 to R183). -/
structure Interval where
  id : Nat
  iseq : Nat
  vstart : Nat
  n : Nat
  /-- its last vector has begun, and the generator end of that vector -/
  full : Bool
  stop : Tick
  /-- it has ended: H1.TIME, STEP, the value of FC_SUM_CTL.EN, and the measurement summaries of the channels -/
  ended : Option (Time × Nat × Bool × List Native)
  chans : Vector SumChan 16
  logged : Nat
  events : Nat
  /-- a vector of the interval has failed (R184) -/
  failed : Bool
  deriving DecidableEq, Repr

/-- A vector whose outcome is awaited (R175). -/
structure VecOut where
  b : Tick
  period : Nat
  word : Native
  ts : Nat
  ctx : Nat
  vcnt : Nat
  iv : Nat
  offset : Nat
  switched : Bool
  /-- by position (R71) -/
  forms : List ChanForm
  /-- it was issued before an engine reset (R228) -/
  dead : Bool
  deriving DecidableEq, Repr

/-- A recorded vector (R187). -/
structure CapVec where
  /-- observations, F, CAPM, SW -/
  obs : BitVec 32
  fail : Bool
  mark : Bool
  switched : Bool
  b : Tick
  stop : Tick
  vcnt : Nat
  /-- the capture word before it was stored there -/
  under : Native
  deriving DecidableEq, Repr

/-- The capture of a group beside its registers (R188, R189). -/
structure Capture where
  tsrc : Nat
  post : Nat
  armAt : Time
  /-- vectors recorded since the arm, and the latest of them with their numbers, newest first -/
  n : Nat
  recent : List (Nat × CapVec)
  /-- the trigger vector's number and the word it begins -/
  trig : Option (Nat × Nat)
  /-- triggered with the trigger vector to come: the first vector recorded with B at or after this tick (R189) -/
  thr : Option Tick
  deriving DecidableEq, Repr

/-- What the trigger engines see of a vector (R194): end tick, B, observations, transitions, fails. -/
structure ObsRec where
  stop : Tick
  b : Tick
  obs : BitVec 32
  rise : BitVec 16
  fall : BitVec 16
  fails : BitVec 16
  deriving DecidableEq, Repr

/-- A trigger engine beside its registers (R196, R197). -/
structure TrigEngine where
  hits : Nat
  evals : Nat
  armAt : Time
  /-- fire instant and matches of stage 0 since, in HOLDOFF -/
  fireAt : Time
  held : Nat
  /-- external events not yet taken: 0 = TRIG_IN0, 1 = TRIG_IN1, 2 = AQ_SOFT, and the TCLK of each -/
  ext : List (Nat × Time)
  /-- evaluation instants not yet taken: the end tick, and TRGM of the vector -/
  due : List (Tick × Bool)
  deriving DecidableEq, Repr

def Tdc.reset : Tdc :=
  { tabA := none, tabB := none, shiftA := 0, shiftB := 0, passDone := false, passFailed := false, lastStop := none,
    lastWin := none, swapAt := none, passAt := 0, passN := 20 }

def FqAcc.empty : FqAcc := { n := 0, si := 0, sii := 0, st := 0, sit := 0, k := 0, loss := false }

def SumChan.empty : SumChan :=
  { fails := 0, first := 0, last := 0, compared := false, flags := 0, min := 0, max := 0, count := 0 }

def Interval.empty (id iseq : Nat) : Interval :=
  { id := id, iseq := iseq, vstart := 0, n := 0, full := false, stop := 0, ended := none,
    chans := Vector.replicate 16 .empty, logged := 0, events := 0, failed := false }

def Capture.reset : Capture := { tsrc := 5, post := 0, armAt := 0, n := 0, recent := [], trig := none, thr := none }

def TrigEngine.reset : TrigEngine :=
  { hits := 0, evals := 0, armAt := 0, fireAt := 0, held := 0, ext := [], due := [] }

/-- The waveform player of a group beside its registers (R207 to R216). -/
structure Player where
  /-- accumulator A, 48 bits -/
  acc : Nat
  /-- H (R208) -/
  high : Phase
  /-- PHASE was LOST since the last update (R208) -/
  jumped : Bool
  /-- a commit has set CLK to 1 and A is not yet recomputed (R208) -/
  recalc : Bool
  /-- sample ticks not yet taken: TCLK and number -/
  due : List (Time × Nat)
  /-- samples of the current segment issued -/
  pos : Nat
  /-- the segment as it stood at its first sample: START, length, STRM (R218) -/
  start : Nat
  len : Nat
  strm : Bool
  /-- UNDR as it stood at the last segment boundary (R218): SEG, RESUME -/
  uSeg : Nat
  resume : Nat
  /-- the underrun segment as it stood there: START, length; samples of it issued -/
  uStart : Nat
  uLen : Nat
  uPos : Nat
  /-- lane of the next stream sample in its word -/
  lane : Nat
  jent : Nat
  /-- edges of TRIG_IN0 and TRIG_IN1, and fires of TE0 to TE3, since the entry was entered (R204) -/
  trig : BitVec 2
  fires : BitVec 4
  lastIssue : Option Time
  /-- samples on their way to the die (R205): TIME and code, and the DAC and channels owned when each issued (R218) -/
  flight : List (Time × BitVec 16 × Nat × BitVec 16)
  /-- armed epoch: kind, target and TCLK of arming (R210) -/
  armed : Option (Nat × BitVec 64 × Time)
  /-- the history has wrapped (R216) -/
  wrapped : Bool
  deriving DecidableEq, Repr

def Player.reset : Player :=
  { acc := 0, high := 0, jumped := false, recalc := false, due := [], pos := 0, start := 0, len := 1, strm := false,
    uSeg := 0, resume := 1, uStart := 0, uLen := 1, uPos := 0, lane := 0, jent := 0, trig := 0, fires := 0,
    lastIssue := none, flight := [], armed := none, wrapped := false }

/-- One channel (groups of 16), beside its registers. -/
structure Chan where
  /-- outbound lane level at the end of the last transition formed (R11) -/
  lane : Lane
  /-- emission tick of the last lane transition formed (R75) -/
  lastEdge : Option Tick
  /-- last drive data (R66) -/
  lastData : Bool
  /-- lane transitions of the vector in progress: emission tick and new level (R73, R74, R81) -/
  edges : List (Tick × Lane)
  /-- the latest transitions by the tick at which they reach the reference plane, newest first (R81) -/
  sent : List (Tick × Lane)
  /-- measurement windows open, to come or not yet delivered, oldest first -/
  wins : List Win
  tdc : Tdc
  /-- the latest entries to PARK and exits from it, newest first -/
  parkLog : List (Time × Bool)
  dacs : Vector Dac 6
  /-- TIME of the last change of the DH, DL or VT output code (R107) -/
  lastOut : Option Time
  /-- range change running: its start, and the LS_DRV and LS_PMU words that follow (R109) -/
  rangePend : Option (Time × Word × Word)
  /-- TIME at which the last PARK cause ended, while the channel waits to leave PARK (R107) -/
  parkEnd : Option Time
  measPend : Bool
  /-- the running measurement met PARK or mode OFF (R117) -/
  measAbort : Bool
  measSum : MeasSum
  cmp : Comparator
  deriving DecidableEq, Repr

/-- Internal deskew in progress (R85): its start, MODE and LS as they stood there, the instant at which the drive-path
phase begins (with MODE = 0), and whether it has begun. -/
structure DskRun where
  start : Time
  comparePath : Bool
  ls : Nat
  driveAt : Time
  driving : Bool
  deriving DecidableEq, Repr

/-- TDR in progress (R87): its start, and CH, LS, POL and REPS as they stood there. -/
structure TdrRun where
  start : Time
  ch : Nat
  ls : Nat
  pol : Bool
  reps : Nat
  deriving DecidableEq, Repr

/-- A self-check run in progress (R141): STEPS and MASK as they stood at its start, the step it performs and the
start of that step. -/
structure ScRun where
  steps : Nat
  mask : Nat
  step : Nat
  at_ : Time
  /-- every step is done -/
  ended : Bool
  deriving DecidableEq, Repr

/-- One group of sixteen channels and its timing generator. -/
structure Group where
  chans : Vector Chan 16
  /-- vectors issued by the engine and not begun, oldest first -/
  issue : List Issued
  /-- the latest vectors begun, newest first; the first is in progress or the last to have been -/
  begun : List VecRun
  /-- end of its period, where the next vector begins unless a hold intervenes (R68, R232) -/
  nextB : Tick
  /-- a level-set select on its way to the die and the TIME at which it acts (R94) -/
  lselPend : List (Nat × Time)
  /-- commits of LS registers on their way to the die, oldest first: the TIME each acts, `none` while it waits for a
  boundary, and the LS registers as committed (R95) -/
  lsPend : List (Option Time × RegFile)
  /-- commits of CP registers on their way to the die, oldest first: the TIME each acts and the registers (R144) -/
  cpPend : List (Time × RegFile)
  /-- no commit has applied since the last reset of the group (R108, R416) -/
  preCommit : Bool
  /-- OCHRE exhaustion waits for the next boundary / parks the group (R246) -/
  ochreWait : Option (Option Time)
  ochrePark : Bool
  /-- DACs a waveform player owns and its sample: position, DAC, code (R96, R205) -/
  wpOwn : List (Nat × Nat × BitVec 16)
  /-- the channels are held OFF as on a SHADOW (R374); a takeover connects only the termination (R381) -/
  shadowHold : Bool
  termOnly : Bool
  /-- internal deskew and TDR in progress (R84, R87) -/
  dsk : Option DskRun
  tdr : Option TdrRun
  /-- measurement ADCs j = 0, 1 of the group (R115, R117): position served and start TIME -/
  adcBusy : Vector (Option (Nat × Time)) 2
  adcLast : Vector Nat 2
  /-- vectors whose outcome is awaited, oldest first -/
  outq : List VecOut
  /-- summary intervals, the open one first, then those awaiting their record sets, newest first (R178) -/
  ivs : List Interval
  cap : Capture
  wp : Player
  /-- generator start of the first vector of the latest interval (R56) -/
  sumB : Option Tick
  /-- trip latches whose targets' TRIP flag awaits the end of its interval: the TCLK and the positions (R182) -/
  trips : List (Time × BitVec 16)
  /-- the latest outcomes, newest first, as the trigger engines see them (R194) -/
  obs : List ObsRec
  /-- regression: the gates, newest first: the open one, and those with results due (R168 to R170) -/
  gates : List Gate
  /-- vectors that have counted in TD_CNT1.NOEN, newest first, by their B (R151) -/
  noen : List Tick
  /-- start TIME of the last self-check, and the run in progress (R141) -/
  scStart : Option Time
  sc : Option ScRun
  deriving DecidableEq, Repr

/-! ### Host interface (chapter 14) -/

/-- A block of a device-to-host ring, before its BSEQ is fixed (R397). -/
structure Block where
  unit : Nat
  gap : Bool
  drop : Nat
  aux : Nat
  /-- record words, first first, at most 452 -/
  words : List Native
  /-- records in it -/
  recs : Nat
  /-- TIME of the first record (R401) -/
  first : Time
  deriving DecidableEq, Repr

/-- One device-to-host ring beside its registers (R401, R402). -/
structure Ring where
  /-- open blocks: one, or one per group on ring 2 -/
  opened : List Block
  /-- closed blocks with their BSEQ, oldest first, at most 8 -/
  closed : List (Nat × Block)
  bseq : Nat
  /-- an episode of loss is in progress -/
  losing : Bool
  /-- records and words lost since the last block, by unit (0 but on ring 2) -/
  lost : List (Nat × Nat × Nat)
  deriving DecidableEq, Repr

/-- The endpoint beside the HI registers. -/
structure HiState where
  rings : Vector Ring 6
  /-- consecutive failures of the block at HEAD, of queues 6 and 7 (R407) -/
  vqFails : Vector Nat 32
  wqFails : Vector Nat 32
  /-- D3hot, and Bus Master Enable (R390) -/
  d3 : Bool
  bme : Bool
  /-- the endpoint is out of its own reset (R415, R420): PERST_N level, TIME of its last rise -/
  perstN : Bool
  perstRise : Time
  /-- BAR2 write hold and read latch: word offset and bytes (R394) -/
  holdAddr : Nat
  holdData : BitVec 64
  latchAddr : Nat
  latchByte : Byte
  /-- coherent-read latches: the registers latched, by address (R393) -/
  latch : RegFile
  /-- capture readout: next word address (R403) -/
  capNext : Nat
  capGroup : Nat
  /-- SPI transaction in progress: data bytes, and whether they are read (R413) -/
  spi : Option (Nat × Bool)
  /-- width and generation last trained (R405) -/
  lastLink : Option (Nat × Nat)
  /-- level of ALERT_N (R411) -/
  alertN : Bool
  deriving DecidableEq, Repr

def Ring.reset : Ring := { opened := [], closed := [], bseq := 0, losing := false, lost := [] }

def HiState.reset : HiState :=
  { rings := Vector.replicate 6 .reset, vqFails := Vector.replicate 32 0, wqFails := Vector.replicate 32 0,
    d3 := false, bme := false, perstN := true, perstRise := 0, holdAddr := 0, holdData := 0, latchAddr := 0,
    latchByte := 0, latch := [], capNext := 0, capGroup := 0, spi := none, lastLink := none, alertN := true }

/-! ### Snapshots and digest (chapter 12) -/

/-- One latched bank: what the items of R342 are read from. -/
structure Snap where
  time : Time
  src : Nat
  late : Bool
  seq : Nat
  /-- the registers as they read at the latch -/
  regs : RegFile
  /-- the plane whose digest DG_DIGEST held -/
  plane : RegFile
  deriving DecidableEq, Repr

structure SnState where
  banks : Vector (Option Snap) 4
  /-- requests on their way to a latch: the TCLK of the latch, its sources, LATE (R340, R343) -/
  reqs : List (Time × Nat × Bool)
  deriving DecidableEq, Repr

def SnState.reset : SnState := { banks := Vector.replicate 4 none, reqs := [] }

/-! ### Commit and digest (chapter 12) -/

/-- Who has requested a commit: this device's host, the partner's PREPARE (R335), the domain's (R336). -/
inductive CmOrigin where
  | host | twin | domain
  deriving DecidableEq, Repr

/-- A round of votes on a domain commit (R336). -/
structure Ballot where
  id : BitVec 16
  tv : Time
  /-- the root's member count at PREPARE -/
  members : Nat
  /-- this device's own vote: YES, or NO with its code -/
  own : Option (Bool × Nat)
  /-- votes held: YES, device, code, COUNT -/
  votes : List (Bool × Nat × Nat × Nat)
  deriving DecidableEq, Repr

/-- A commit or check in CHECKING, PENDING or VOTING: while it lasts the staged plane is locked (R327). -/
structure CmReq where
  check : Bool
  /-- 1 = CHECKING, 2 = PENDING, 3 = VOTING -/
  phase : Nat
  kind : Nat
  eng : Nat
  tgt : BitVec 64
  origin : CmOrigin
  id : BitVec 16
  /-- TCLK of the request -/
  at_ : Time
  /-- an ABORT waits for the end of the check (R328) -/
  abort : Bool
  /-- the device's own check has ended and passed -/
  own : Bool
  /-- the partner's vote: YES, its code, its staged digest (R335) -/
  partner : Option (Bool × Nat × BitVec 64)
  /-- TCLK from which the epoch is awaited -/
  sched : Time
  /-- Ta and Tv of a domain commit (R336) -/
  ta : Time
  tv : Time
  /-- APPLY has arrived (R337) -/
  go : Bool
  deriving DecidableEq, Repr

structure DgState where
  /-- the plane whose digest DG_DIGEST holds; an unlisted register is at its word at READY (R344, R346) -/
  plane : RegFile
  /-- the plane whose digest DG_SDIGEST holds, if one has been computed (R345) -/
  staged : Option RegFile
  /-- a report is owed; TIME of the last one (R347) -/
  owed : Bool
  reportAt : Time
  /-- root: the latest report of each device: device, class, digest, mismatch -/
  reports : List (Nat × Nat × BitVec 64 × Bool)
  deriving DecidableEq, Repr

def DgState.reset : DgState := { plane := [], staged := none, owed := false, reportAt := 0, reports := [] }

/-! ### Cleif and twin (chapter 13) -/

/-- One link port beside its registers (R352 to R360). -/
structure Port where
  /-- next SEQ this end uses, and the SEQ it expects -/
  seq : Nat
  expect : Nat
  /-- the last block received needs a re-send: NAK in outgoing blocks (R354) -/
  nak : Bool
  /-- unacknowledged DATA blocks, oldest first: SEQ, flits, the TIME each was last sent -/
  retry : List (Nat × BitVec 576 × Time)
  /-- SEQ of the next buffered block to re-send, while a re-send runs (R355) -/
  resend : Option Nat
  /-- failures since the last good block (R355) -/
  fails : Nat
  /-- packets waiting, head first (R360) -/
  queue : List Packet
  /-- start of the training or retraining attempt -/
  tryAt : Time
  /-- retraining keeps the sequence numbers; DOWN does not (R355) -/
  keep : Bool
  /-- TIME since which the port is not UP (R364) -/
  downAt : Time
  deriving DecidableEq, Repr

structure ClState where
  ports : Vector Port 4
  /-- routes learned: device and port (R363) -/
  routes : List (Nat × Nat)
  /-- parent: t1 and t4 of the exchange with the child on each port (R369) -/
  t1 : Vector (Option Tick) 4
  /-- child: t2 and t3 of the exchange in progress, and whether one of its blocks was re-sent -/
  t2 : Option Tick
  t3 : Option Tick
  /-- sums over the exchanges of the current mean, in 1/32 tick: count, offsets, delays -/
  taN : Nat
  taOfs : Int
  taDly : Int
  /-- the same for the delay to the child on each port: count and delays -/
  chDly : Vector (Nat × Int) 4
  /-- consecutive means within 1 tick (R368) -/
  taGood : Nat
  /-- the remote access in progress: TIME of its start, TAG (R366) -/
  rraAt : Time
  rraTag : Nat
  /-- TIME of the next exchange with the child on each port -/
  taNext : Vector Time 4
  /-- domain barriers (R251): reports counted at the root, this device's own report made, the release TIME -/
  barCount : Vector Nat 8
  barSelf : Vector Bool 8
  barRel : Vector (Option Time) 8
  /-- ID of the domain commit on which this device last voted NO (R337) -/
  votedNo : Option (BitVec 16)
  deriving DecidableEq, Repr

structure TwState where
  /-- TIME of the last valid heartbeat, if one arrived since attach (R379) -/
  lastHb : Option Time
  hbSeq : Nat
  /-- health bits of the last heartbeat sent: MCHK, OCHRE, THERM, PARKED -/
  hbHealth : BitVec 4
  /-- the member's own lockstep CRCs, newest first (R377) -/
  crcs : List (Time × BitVec 32)
  /-- the last record set of each engine with its interval's number, for the agreement check (R378) -/
  sets : Vector (Nat × List Native) 32
  /-- TIME of the detected failure whose takeover runs (R381) -/
  takeD : Option Time
  /-- Ts of a swap on its way, and whether this member becomes the SHADOW (R382) -/
  swapAt : Option (Time × Bool)
  /-- host writes on their way: TIME at which each acts (R375) -/
  mirror : List (Time × MirrorWrite)
  /-- refill blocks fetched and not yet acknowledged: wave, unit, words, INT of the descriptor (R376) -/
  refill : List (Bool × Nat × List Native × Bool)
  /-- start of an attach (R384) -/
  attachAt : Option Time
  /-- engines or gangs whose state is on its way to the joiner: leader, vector count and running context at the latch (R385) -/
  sentOut : List (Nat × Nat × Option Nat)
  /-- number of the first interval of each engine that starts after its transfer, from which sets are compared (R385) -/
  checkFrom : Vector (Option Nat) 32
  deriving DecidableEq, Repr

def Port.reset : Port :=
  { seq := 0, expect := 0, nak := false, retry := [], resend := none, fails := 0, queue := [],
    tryAt := 0, keep := false, downAt := 0 }

def ClState.reset : ClState :=
  { ports := Vector.replicate 4 .reset, routes := [], t1 := Vector.replicate 4 none, t2 := none, t3 := none,
    taN := 0, taOfs := 0, taDly := 0, chDly := Vector.replicate 4 (0, 0), taGood := 0, rraAt := 0, rraTag := 0,
    taNext := Vector.replicate 4 0, barCount := Vector.replicate 8 0, barSelf := Vector.replicate 8 false,
    barRel := Vector.replicate 8 none, votedNo := none }

def TwState.reset : TwState :=
  { lastHb := none, hbSeq := 0, hbHealth := 0, crcs := [], sets := Vector.replicate 32 (0, []), takeD := none, swapAt := none,
    mirror := [], refill := [], attachAt := none, sentOut := [], checkFrom := Vector.replicate 32 none }

/-! ### Reset, clocks, power, thermal, NVS and boundary scan (chapters 15 and 17) -/

/-- The instruction of the test access port (R457, R458). -/
inductive TapInstr where
  | idcode | bypass | sample | extest | highz | clamp | extestPulse | extestTrain
  deriving DecidableEq, Repr

/-- R457: instructions under which the covered outputs leave functional control. -/
def TapInstr.drives (i : TapInstr) : Bool :=
  match i with
  | .extest | .extestPulse | .extestTrain | .highz | .clamp => true
  | .idcode | .bypass | .sample => false

structure SysState where
  /-- E_k in 10^-12 A²·s (R425) -/
  bucket : Vector Nat 4
  /-- a warning has been raised and E has not fallen below 60 % since -/
  warned : Vector Bool 4
  /-- the last sample lay above 5.0 A -/
  burst : Vector Bool 4
  /-- PARK_N is high; CLR_N as each channel die has acted on it (R99, R140) -/
  parkN : Bool
  clrN : Vector Bool 4
  /-- a commit has applied since the last reset of the device (R106) -/
  committed : Bool
  /-- trip latches on the dies, by device number: source channel of the die, and whether the core die has recorded
  it (R136, R137) -/
  trip : Vector (Option (Nat × Bool)) 64
  /-- groups whose next sample tick is the first after the oscillator started (R132) -/
  smFresh : BitVec 32
  /-- SMCLK (R130): cycles since power-up, the TIME of the next while it runs, cycles left of a burst, the number of the
  cycle that is each group's next tick, and the groups whose tick has fallen and is not yet taken -/
  smCycle : Nat
  smNext : Option Time
  smLeft : Option Nat
  smTick : Vector Nat 32
  smDue : BitVec 32
  /-- the wake target has been reached with WPER = 0 (R131) -/
  smWtDone : Bool
  /-- TIME of the first unlock key (R430) -/
  nvKey : Option Time
  /-- TIME of the unlock or of the last NVS write -/
  nvLast : Time
  /-- queued NVS words, oldest first: word address and word -/
  nvQueue : List (Nat × Native)
  /-- the lifetime ledger in SRAM: offset and value, and its write sequence (R431) -/
  ledger : List (Nat × Nat)
  ledgerSeq : Nat
  ledgerAt : Time
  /-- words that SEC-DED has corrected, and words found uncorrectable (R19): memory number and count, rising. Memory
  32 k + u is that of unit u of kind k: 0 I-store, 1 V-store, 2 refill buffer, 3 waveform, 4 fail log, 5 stamp, 6
  capture -/
  sramCorr : List (Nat × Nat)
  sramUncorr : List (Nat × Nat)
  /-- the image a FINISH has formed, while its check runs (R315); the slot a VERIFY checks (R316) -/
  mcImage : Option (List Native)
  mcVerify : Option (Fin 2)
  /-- sources of MC_BOOT.ORDER that the boot loader has tried (R313) -/
  mcTry : Nat
  /-- registers whose Reset word the boot has read from an NVS that is not the factory's (R9, R429) -/
  boot : RegFile
  /-- the same for the tables of a TDC line, keyed 32 × group + 2 × position + line -/
  bootTdc : List (Nat × List Nat)
  /-- serial number of the NVS identity (R389, R411) -/
  serial : BitVec 64
  /-- CAL_EXT (R89): the external edge drives the tree, TIME of its last edge, tick of the next output edge -/
  calExt : Bool
  calLast : Time
  calNext : Option Tick
  /-- edges measured since MODE became IN, and the sum of their offsets -/
  calN : Nat
  calSum : Int
  /-- words of the NVS factory-calibration region that differ from the factory's, by word address, as the boot read them -/
  cal : List (Nat × Native)
  /-- current TAP instruction -/
  tap : TapInstr
  /-- the boundary-scan register's update stage, which drives the covered outputs under EXTEST and CLAMP (R457, R459) -/
  bsr : BitVec 89
  /-- manufacturer identity of the NVS identity region (R458) -/
  manuf : BitVec 11
  /-- level of the MIRROR ball, set by the board (R442) -/
  mirrorBall : Bool
  /-- level of MIRROR at the last release of POR or RST_N (R442) -/
  mirror : Bool
  /-- crossings one side of which has been reset without the notice to the other yet (R423), by XID -/
  xNotice : List Nat
  deriving DecidableEq, Repr

def SysState.reset : SysState :=
  { bucket := Vector.replicate 4 0, warned := Vector.replicate 4 false, burst := Vector.replicate 4 false,
    parkN := true, clrN := Vector.replicate 4 true, committed := false, trip := Vector.replicate 64 none,
    smFresh := 0xFFFFFFFF, smCycle := 0, smNext := some 3200, smLeft := none, smTick := Vector.replicate 32 1, smDue := 0,
    smWtDone := false, nvKey := none, nvLast := 0, nvQueue := [], ledger := [], ledgerSeq := 0, ledgerAt := 0, sramCorr := [], sramUncorr := [], mcImage := none, mcVerify := none,
    mcTry := 0, boot := [], bootTdc := [], serial := 0, calExt := false, calLast := 0, calNext := none,
    calN := 0, calSum := 0, cal := [], tap := .idcode, bsr := 0, manuf := 0,
    mirrorBall := false, mirror := false, xNotice := [] }

/-- The state of one engine at its transfer point (R385): the SQ, FC and WP registers transferred, by address, and what
stands behind them. -/
structure Transfer where
  regs : RegFile
  engine : Engine
  interval : Interval
  player : Player
  /-- TCLK of the latch -/
  at_ : Time
  /-- end of the last vector's period, where the hold began (R232) -/
  nextB : Tick
  /-- last drive data of the positions -/
  lastData : BitVec 16
  /-- the trigger engines that name the engine as REF, with their AQ_TEn_STAT -/
  trigs : List (Nat × TrigEngine × Word)
  deriving DecidableEq, Repr

/-- The transfer of an engine or gang to the joiner (R385): its transfer point on the ACTIVE member, its state at the joiner,
the word that the joiner has loaded it, and the ACTIVE member's word that the hold has lasted until then. -/
inductive TransferStep where
  | point
  | state (l : List (Nat × Transfer))
  | loaded
  | done
  deriving DecidableEq, Repr

/-- A message of the T port, or of a time exchange (R358 type LINK). -/
inductive LinkMsg where
  | ts1 (t1 : Tick)
  | ts2
  | ts3 (t1 t4 : Tick)
  | heartbeat (hb : Heartbeat)
  | parkcmd
  | swap (ts : Time)
  | detach
  | attach
  | prepare (id : BitVec 16) (check : Bool) (kind eng : Nat) (tgt digest : BitVec 64)
  | vote (id : BitVec 16) (yes : Bool) (code : Nat) (digest : BitVec 64)
  | apply (id : BitVec 16) (t : Time)
  | abort (id : BitVec 16)
  | agreement (eng : Nat) (crc : BitVec 32) (set : List Native)
  | write (w : Time) (x : MirrorWrite)
  | refill (wave : Bool) (unit : Nat) (words : List Native)
  /-- the state of an engine or gang at its transfer point (R385) -/
  | transfer (l : List (Nat × Transfer))
  /-- the joiner has loaded the state of engine or gang e; the transfer stands -/
  | loaded (e : Nat)
  | transferred (e : Nat)
  /-- the copy of the stores at an attach (R384) -/
  | stores (cells : List (Nat × Byte))
  deriving DecidableEq, Repr

/-- One thing the device sends or drives to the outside, newest first in `State.out`. -/
inductive Output where
  /-- the data of a BAR0 or BAR2 read -/
  | readData (w : BitVec 64)
  /-- an MSI-X message (R410) -/
  | msix (vector : Nat)
  /-- a write into host memory (R400) -/
  | dma (addr : BitVec 64) (bytes : List Byte)
  /-- a block on a link port (R353) -/
  | block (port : Nat) (blk : BitVec 640)
  /-- a LINK packet on a port -/
  | link (port : Nat) (m : LinkMsg)
  /-- the CAL_EXT output edge (R89): its tick -/
  | calExt (at_ : Tick)
  /-- SMBus data, byte or word (R411); `none`: a NAK of the address -/
  | smbus (v : Option (BitVec 16))
  /-- an SPI transaction: the bytes sent (R413) -/
  | spi (bytes : List Byte)
  /-- bits shifted out at TDO after a capture (R457) -/
  | tdo (w : BitVec 89)
  /-- the DMA request of a queue block (R406) -/
  | fetch (addr : BitVec 64)
  deriving DecidableEq, Repr


end Sys2Proof.Machine
end

