-- ==== Sys2Proof/Syntax.lean ====
section
/-! DEFINITION. The commands of the block: one constructor per row of spec/opcode_table.json, with the row's
operands; what the surroundings present to the device (levels, measured values, received packets, fetched
blocks) is an operand. -/

namespace Sys2Proof

/-- A command: a register access, a protocol operation, an instruction of an engine, or an event (opcode table). -/
inductive Instr where
  /-- A host or remote write to a BAR0 register that has no row of its own stores the value in the staged or live plane, after silent clamping (R325). -/
  | registerWrite (addr : BitVec 24) (v : WriteData)
  /-- A write of 1 to a W1C flag clears it unless hardware sets it in the same cycle, and an MSI-X message is resent if the cause remains (R6). -/
  | flagClearWrite (addr : BitVec 24) (v : Word)
  /-- A read of the first register of a wide group returns it and copies the other registers of the group into the shared latch (R393). -/
  | coherentRead (at_ : ReadAt)
  /-- A read of GL_CLAMP_COUNT returns the count and then clears it (R433). -/
  | clampCountRead
  /-- A read of TH_OCH_Bk returns PEAK and then sets PEAK to LEVEL (R434). -/
  | bucketRead (k : DieIx)
  /-- A read of TD_BT_DATA returns the addressed bin width and increments TD_BT_ADDR.BIN (R166). -/
  | binTableRead (g : GroupIx)
  /-- A read of SN_RDATA returns the addressed snapshot item and increments SN_RADDR.ITEM (R349). -/
  | snapshotItemRead
  /-- An access to MC_DISP_DATA reads a dispatch entry, or in HOSTLOAD writes it to every engine, and increments the index (R324). -/
  | dispatchDataAccess (w : Option Word)
  /-- A TBREF edge is measured against TIME and feeds the discipline loop (R38). -/
  | tbrefEdge (err : BitVec 32) (need : BitVec 32)
  /-- The discipline enters LOCKED after the frequency error has stayed within ±1 ppb for 10 consecutive seconds (R37). -/
  | disciplineLock
  /-- No TBREF edge for 1 µs sets TBREF_LOST and moves the discipline to HOLDOVER or FREE (R38). -/
  | tbrefLost
  /-- An accepted change of PH_A, PH_B or PH_P advances or reverses the count position and corrects the tracking loop (R40). -/
  | phaseCount (a : List Bool) (b : List Bool) (p : List Bool)
  /-- No count for STALL µs in LOCKED makes the state STALLED, sets the velocity to 0 and sets TP_FLAGS.STALL (R46). -/
  | phaseStall
  /-- A forward rising edge of PH_I computes the index error and either re-references the count position or enters LOST (R48). -/
  | phaseIndex (samples : List Bool)
  /-- A root with PH_TX broadcasts a PHASE sample down the tree every 2,048 TCLK (R52). -/
  | phaseSampleBroadcast
  /-- A device with SRC = CLEIF feeds a received PHASE sample to its loop using the sample's TIME (R52). -/
  | phaseSampleReceive (t : BitVec 56) (phase : BitVec 64) (vel : BitVec 32) (st : BitVec 3)
  /-- No PHASE sample for 64 sample periods makes a CLEIF-sourced device LOST (R52). -/
  | phaseSampleTimeout
  /-- A write of TP_STEP.STEP puts the step in force from the next TCLK and records its TIME, and a root with TX broadcasts it (R54). -/
  | stepWrite (v : Word)
  /-- A received STEP broadcast sets STEP at the root's write TIME, or at once if that TIME has passed (R55). -/
  | stepBroadcastReceive (step : BitVec 16) (t : BitVec 56)
  /-- A received STEP whose root write TIME lay ahead takes effect when TIME reaches it (R55). -/
  | stepBroadcastApply
  /-- A VEC, TIME, PHASE, SUMB or DOMAIN epoch is reached and every consumer waiting on it acts in that TCLK (R56). -/
  | epochReached (kind : BitVec 3) (e : EngineIx)
  /-- A write of TP_PCMPm_CTL with ARM = 1 samples the target, clears REACHED and arms the phase comparator (R61). -/
  | pcmpArm (m : Fin 8) (v : Word)
  /-- PHASE reaching an armed comparator's target raises the phase-slot cause, sets REACHED and clears ARM (R61). -/
  | pcmpReached (m : Fin 8)
  /-- A forward passage of an enabled slot angle, once per cycle, raises the phase-slot cause and records the cycle (R62). -/
  | phaseSlotFire (slot : Fin 16)
  /-- A vector period begins at the generator, applying any pending timing values and forming its edges and windows (R68). -/
  | vectorBoundary (g : GroupIx)
  /-- A write of TG_DSK_CTL.RUN starts internal deskew of the group, or is refused while a context runs (R84). -/
  | dskRun (g : GroupIx) (v : Word)
  /-- Internal deskew ends with DONE or ERROR, updates DC_INT and DD_INT of the passing channels and records the temperature (R86). -/
  | dskComplete (g : GroupIx) (res : List DskMeas) (temp : BitVec 16)
  /-- A write of TG_TDR_CTL with RUN = 1 starts a TDR run on one channel, or is refused (R87). -/
  | tdrRun (g : GroupIx) (v : Word)
  /-- A TDR run ends and reports the mean round trip, spread and valid count, or NO_REFL (R88). -/
  | tdrComplete (g : GroupIx) (n : Nat) (launches : List (List (BitVec 66))) (reflections : List (List (BitVec 66)))
  /-- In mode IN an edge at CAL_EXT drives the reference tree and updates TG_CAL_MEAS (R89). -/
  | calExtEdge (ofs : BitVec 24)
  /-- No CAL_EXT edge for 1 ms returns the reference tree to the internal edge (R89). -/
  | calExtTimeout
  /-- A write of TG_CAL_CTL.ARM in mode OUT arms the CAL_EXT output edge at the programmed TIME (R89). -/
  | calArm (v : Word)
  /-- The armed CAL_EXT edge is driven at its TIME and repeats every 2^(8 + RPT) TCLK when RPT is not 0 (R89). -/
  | calOutEdge
  /-- A level-set select change from SETLS or a context switch reaches the channel die 40 ns after its vector boundary (R94). -/
  | levelSelectChange (g : GroupIx)
  /-- Committed LS registers act at the channel die 40 ns after the first vector boundary at or after the apply (R95). -/
  | lsCommitEffect (g : GroupIx)
  /-- At its channel-die tick the slew limiter moves the output code toward the target by up to STEP (R97). -/
  | slewStep (g : GroupIx) (p : Pos) (d : Fin 6)
  /-- At the end of a 200 ns deglitch hold the output takes the target then in force (R98). -/
  | deglitchHoldEnd (g : GroupIx) (p : Pos) (d : Fin 6)
  /-- At the clear instant after CLR_N falls, every DAC of the die takes its clear code and comparator re-arm begins (R99). -/
  | clrNFall (k : DieIx)
  /-- At the release instant after CLR_N rises, DAC targets return to their normal codes and comparator re-arm ends (R99). -/
  | clrNRise (k : DieIx)
  /-- A write of LS_CLR_p_d changes the clear code, acting at once on the target while CLR_N is low (R100). -/
  | clearCodeWrite (g : GroupIx) (p : Pos) (d : Fin 6) (v : Word)
  /-- Once per millisecond a die measures VDRP and VDRN and flags a deviation above 5 % (R102). -/
  | railMeasure (k : DieIx) (vdrp : BitVec 16) (vdrn : BitVec 16)
  /-- A write of GL_PIN_ENABLE parks or releases every channel, and a write of 1 before the first commit is held (R106). -/
  | pinEnableWrite (v : Word)
  /-- A write of LS_PARK parks or releases channels within 100 ns (R106). -/
  | lsParkWrite (g : GroupIx) (v : Word)
  /-- Once the last park cause has ended and the levels have settled for 3 µs, the channel leaves PARK at its next boundary (R107). -/
  | parkExit (g : GroupIx) (p : Pos)
  /-- Exactly 2 µs after a range change the new range and mode take effect and the cause ends (R109). -/
  | rangeChangeEnd (g : GroupIx) (p : Pos)
  /-- A driver held at its current limit for more than 100 ns sets LS_ILIMMAP and LS_FLAGS.ILIM and counts (R110). -/
  | ilimEpisode (g : GroupIx) (p : Pos)
  /-- A write of LS_MREQ requests measurements on the selected channels, merging into pending ones (R116). -/
  | measRequestWrite (g : GroupIx) (v : Word)
  /-- Every AUTO × 100 µs of TIME a measurement request is made on the channel (R116). -/
  | measAutoRequest (g : GroupIx) (p : Pos)
  /-- An ADC takes the next pending request round-robin and begins settling (R117). -/
  | measStart (g : GroupIx) (j : Fin 2)
  /-- A measurement ends with its mean and status, replaces LS_MRES_p and is folded into the summary (R118). -/
  | measComplete (g : GroupIx) (j : Fin 2) (samples : List (BitVec 18)) (clamped : Bool)
  /-- A pin crossing a threshold with hysteresis changes the comparator state and the return lane (R123). -/
  | comparatorSwitch (g : GroupIx) (p : Pos) (v : PinLevel)
  /-- At each filter sample the majority filter updates the filtered state and VALID (R127). -/
  | filterSample (g : GroupIx) (p : Pos)
  /-- A group's sample tick falls every 2^DIV SMCLK cycles, and SAMPLED comparators take their decision (R130). -/
  | sampleTick (g : GroupIx) (volts : List Int)
  /-- A write of CP_SM_CTL RUN, BURST, PER or BLEN starts, stops or reconfigures the SMCLK oscillator (R131). -/
  | smCtlWrite (v : Word)
  /-- A write of CP_SM_CTL.WAKE is a wake that starts the oscillator or restarts a burst (R131). -/
  | smWakeWrite (v : Word)
  /-- TIME reaching the CP_SM_WT target is a wake when enabled, and the target advances by WPER ms (R131). -/
  | smWakeTime
  /-- After 2^BLEN SMCLK cycles of a burst the oscillator stops with RUN still 1 (R131). -/
  | smclkBurstEnd
  /-- BLANK µs after the last threshold change the window monitor is no longer blanked (R134). -/
  | blankEnd (g : GroupIx) (p : Pos)
  /-- Within 40 ns of a latch the core die records it, raises the trip cause and may request a snapshot (R137). -/
  | tripLatchRecord (k : DieIx) (t : Fin 16)
  /-- A write of CP_TGARM re-arms latched trip groups, or is refused while a source violates (R138). -/
  | tripRearmWrite (k : DieIx) (v : Word)
  /-- PARK_N falling parks every channel within 10 ns, sets CP_PFLAGS.PARKN and may raise the trip cause (R140). -/
  | parkNFall
  /-- PARK_N rising ends the PARK_N cause of PARK (R140). -/
  | parkNRise
  /-- A write of CP_SC_CTL.RUN starts a self-check run on the selected channels (R141). -/
  | selfCheckRun (g : GroupIx) (v : Word)
  /-- Every PER seconds after the previous start a self-check run starts again (R141). -/
  | selfCheckPeriodic (g : GroupIx)
  /-- A self-check run ends, records per-step results, flags fails and returns the inputs to the ball with a re-arm (R142). -/
  | selfCheckEnd (g : GroupIx) (res : List (List (Option (Bool × Bool))))
  /-- Committed CP registers act at the channel die 40 ns after the apply TCLK (R144). -/
  | cpCommitEffect (g : GroupIx)
  /-- A qualifying return-lane transition in an open window is converted to a stamp, or is lost to the dead time or stop limit (R150). -/
  | tdcStop (g : GroupIx) (p : Fin 17) (c : BitVec 56) (r : Fin 512) (l0 l1 : Machine.Lane)
  /-- A measurement window closes, and its last stamp carries OVF if a stop was refused (R153). -/
  | windowClose (g : GroupIx) (p : Pos)
  /-- Within 100 ns of a window closing its stamps reach stamp memory, the S1 logic and the regression (R155). -/
  | stampDelivery (g : GroupIx) (p : Pos)
  /-- A phase-slot firing or a REF TIME opens an external window, or refuses it under the spacing rule (R156). -/
  | xwinOpen (g : GroupIx)
  /-- A standby-line calibration pass completes with a new table and shift, or fails and restarts (R158). -/
  | calPassComplete (g : GroupIx) (p : Pos) (hits : List Nat) (refs : List (Fin 512))
  /-- At a swap instant each channel whose standby line has completed a pass swaps lines, unless FREEZE is set (R159). -/
  | tdcSwap (g : GroupIx)
  /-- A write of FQ_CTL.START opens a regression gate (R169). -/
  | gateStartWrite (g : GroupIx) (v : Word)
  /-- A write of FQ_CTL.STOP ends the open gate with ABORT (R169). -/
  | gateStopWrite (g : GroupIx) (v : Word)
  /-- A gate ends after FQ_GATE µs, and with REPEAT a new gate starts (R169). -/
  | gateEnd (g : GroupIx)
  /-- Within 10 µs of a gate's end each source computes its frequency and status, updates FQ_RES and may write an FR pair (R170). -/
  | freqResult (g : GroupIx) (src : Fin 17)
  /-- A vector's outcomes and observations reach the fail summary, fail log, capture memory and triggers within 30 ns of its end (R175). -/
  | vectorOutcome (g : GroupIx) (b : BitVec 66)
  /-- A host write of FC_LOG_PTR.RPTR with HOST = 0 advances the read pointer under the clamp rules (R186). -/
  | logRptrWrite (g : GroupIx) (v : Word)
  /-- A summary interval ends by count, by SUMR or early, and its interval number advances (R178). -/
  | summaryIntervalEnd (e : EngineIx)
  /-- Within 250 ns of an interval end the engine emits its 34-word record set and the measurement summary words (R180). -/
  | summarySetEmit (e : EngineIx)
  /-- A write of FC_CAP_ARM.ARM with EN = 1 arms the capture at word 0 (R188). -/
  | captureArm (g : GroupIx) (v : Word)
  /-- A write of FC_CAP_ARM.STOP ends the capture at once with DONE (R188). -/
  | captureStop (g : GroupIx) (v : Word)
  /-- A write of FC_CAP_ARM.FORCE triggers the armed capture at the next vector (R189). -/
  | captureForce (g : GroupIx) (v : Word)
  /-- After POST vectors from the trigger vector the capture reaches DONE (R188). -/
  | captureDone (g : GroupIx)
  /-- A host write of FC_EV_PTR.RPTR with DMA = 0 advances the stamp read pointer under the clamp rules (R191). -/
  | evRptrWrite (g : GroupIx) (v : Word)
  /-- At an evaluation instant an armed trigger engine tests its stage and advances, restarts or fires (R196). -/
  | triggerEvaluation (te : Fin 4)
  /-- A TRIG_OUT pulse ends 2^WID × 5 ns after its last fire (R198). -/
  | trigOutPulseEnd (k : Fin 2)
  /-- A write of AQ_TEn_ARM.ARM with EN = 1 arms the trigger engine at stage 0 (R197). -/
  | teArm (te : Fin 4) (v : Word)
  /-- A write of AQ_TEn_ARM.DISARM sets the trigger engine IDLE (R197). -/
  | teDisarm (te : Fin 4) (v : Word)
  /-- A write of AQ_SOFT bit n records an external event for trigger engine n (R195). -/
  | teSoft (v : Word)
  /-- A rising edge on TRIG_IN0 or TRIG_IN1 serves captures, trigger stages, player conditions and SMCLK wakes (R189). -/
  | trigInRise (k : Fin 2)
  /-- A wrap of the phase accumulator is a sample tick at which the player handles boundaries and issues its next sample (R212). -/
  | wpSampleTick (x : WaveRead)
  /-- The clamped sample becomes the owned DAC's target at the die 40 ns after its tick (R205). -/
  | wpSampleTarget (g : GroupIx)
  /-- A write of WP_CMD.START starts the player at ENTRY0 (R210). -/
  | wpStart (g : GroupIx) (v : Word)
  /-- A write of WP_CMD.STOP stops the player, ends ownership and disarms a pending epoch (R211). -/
  | wpStop (g : GroupIx) (v : Word)
  /-- A write of WP_CMD.JUMP requests a jump to JENT at the next evaluated boundary (R213). -/
  | wpJump (g : GroupIx) (v : Word)
  /-- A write of WP_SCTL.ARM arms a start epoch and sets the player ARMED (R210). -/
  | wpSctlArm (g : GroupIx) (v : Word)
  /-- NOP issues the vector at A and advances PC (R267). -/
  | nop (e : EngineIx)
  /-- VEC issues B + 1 consecutive V-store vectors from A (R268). -/
  | vec (e : EngineIx) (n : Nat)
  /-- RPT issues the V-store word at A B + 1 times (R269). -/
  | rpt (e : EngineIx) (n : Nat)
  /-- STREAM issues B + 1 vectors from the engine's stream, substituting underrun vectors when they are missing (R270). -/
  | stream (e : EngineIx) (n : Nat)
  /-- LOOP pushes a LOOP entry, sets Ld and issues its vector (R271). -/
  | loopOp (e : EngineIx)
  /-- ENDL issues its vector and either repeats the loop body or pops the loop (R272). -/
  | endl (e : EngineIx)
  /-- JMP issues its vector and sets PC to B (R273). -/
  | jmp (e : EngineIx)
  /-- JMPC issues its vector, tests its condition and branches, clearing the sticky flag with CLR (R274). -/
  | jmpc (e : EngineIx)
  /-- CALL pushes a return address, issues its vector and jumps to B (R275). -/
  | callOp (e : EngineIx)
  /-- RET issues its vector and pops a CALL entry into PC (R276). -/
  | ret (e : EngineIx)
  /-- WAITPH issues no vector and holds until its PHASE target is reached (R277). -/
  | waitph (e : EngineIx)
  /-- WAITT issues no vector and holds until TIME reaches its target (R278). -/
  | waitt (e : EngineIx)
  /-- WAITEV issues no vector and holds until its condition is true or its timeout passes (R279). -/
  | waitev (e : EngineIx)
  /-- A wait is released by its epoch or condition and the next vector begins at (n + 8) × 1,024 (R232). -/
  | waitRelease (e : EngineIx)
  /-- A WAITEV whose timeout expires releases without changing any flag (R279). -/
  | waitevTimeout (e : EngineIx)
  /-- SYNC records the engine's arrival at a barrier and holds (R280). -/
  | sync (e : EngineIx)
  /-- Four TCLK after the last arrival the barrier releases every participating engine on one tick (R250). -/
  | barrierRelease (b : Fin 8)
  /-- TMO µs after the first arrival without release every waiting engine is released with SYNCTO set (R252). -/
  | barrierTimeout (b : Fin 8)
  /-- SWC issues no vector and switches to the named context after a hold of 2,048 ticks (R281). -/
  | swc (e : EngineIx)
  /-- At the end of the SWC hold the named context runs (R244). -/
  | swcHoldEnd (e : EngineIx)
  /-- YIELD issues its vector and makes the context READY at that boundary (R282). -/
  | yield (e : EngineIx)
  /-- HALT issues its vector, makes the context IDLE and ends the open summary interval (R283). -/
  | halt (e : EngineIx)
  /-- LDQ issues its vector and loads a Q register with B (R284). -/
  | ldq (e : EngineIx)
  /-- ADDQ issues its vector and adds an operand to a Q register, setting Z, N and C (R285). -/
  | addq (e : EngineIx)
  /-- CMPQ issues its vector and sets the flags from Qr minus an operand (R286). -/
  | cmpq (e : EngineIx)
  /-- MOVQ issues its vector and copies a register or time source to a destination (R287). -/
  | movq (e : EngineIx)
  /-- SETTS sets the timing-set base and issues its vector with it (R288). -/
  | setts (e : EngineIx)
  /-- SETLS sets the level-set select at the start of its vector (R289). -/
  | setls (e : EngineIx)
  /-- WPC START starts the waveform player of the group or gang (R290). -/
  | wpcStart (e : EngineIx)
  /-- WPC STOP stops the waveform player of the group or gang (R290). -/
  | wpcStop (e : EngineIx)
  /-- WPC JUMP requests a player jump to the entry in C (R290). -/
  | wpcJump (e : EngineIx)
  /-- WPC STARTAT starts the player at the entry in C (R290). -/
  | wpcStartat (e : EngineIx)
  /-- MEAS issues its vector and requests measurements on the masked channels (R291). -/
  | measOp (e : EngineIx)
  /-- FREQ with MOD[0] = 0 starts a regression gate (R292). -/
  | freqStart (e : EngineIx)
  /-- FREQ with MOD[0] = 1 ends the open gate with ABORT (R292). -/
  | freqStop (e : EngineIx)
  /-- SUMB issues its vector with SUMR forced to 1 (R293). -/
  | sumb (e : EngineIx)
  /-- SNAP issues its vector and requests a LAKE snapshot (R294). -/
  | snapOp (e : EngineIx)
  /-- TRIG issues its vector and performs its SOFT, FORCE and MARK actions (R295). -/
  | trigOp (e : EngineIx)
  /-- MSG SEND issues its vector and sends three Q registers to the host ring, an engine or a remote engine (R296). -/
  | msgSend (e : EngineIx)
  /-- MSG RECV issues its vector and pops the head message into three Q registers (R296). -/
  | msgRecv (e : EngineIx)
  /-- ARMT issues its vector and re-arms the named trip groups on the named dies (R297). -/
  | armt (e : EngineIx)
  /-- An undefined opcode acts as NOP and is counted as a program clamp (R259). -/
  | undefinedOpcode (e : EngineIx)
  /-- SQ_CMD READY makes an IDLE context READY (R227). -/
  | sqCmdReady (e : EngineIx) (c : Fin 32)
  /-- SQ_CMD START makes a context ELIGIBLE at its BASE priority (R227). -/
  | sqCmdStart (e : EngineIx) (c : Fin 32)
  /-- SQ_CMD HALT makes a context IDLE, stopping a running one at its next decision point (R227). -/
  | sqCmdHalt (e : EngineIx) (c : Fin 32)
  /-- SQ_CMD ENGRESET performs an engine reset (R227). -/
  | sqCmdEngreset (e : EngineIx)
  /-- SQ_CMD STRMRESET empties the refill buffer and restarts refill (R227). -/
  | sqCmdStrmreset (e : EngineIx)
  /-- A write of SQ_DOORBELL.RING raises the DOORBELL cause (R248). -/
  | doorbell (e : EngineIx) (v : Word)
  /-- A write of SQ_TMRj_CTL.ARM samples the target and arms the timer (R248). -/
  | timerArm (e : EngineIx) (j : Fin 2) (v : Word)
  /-- TIME reaching a timer's target raises the TIMER cause and advances or disarms the timer (R248). -/
  | timerExpire (e : EngineIx) (j : Fin 2)
  /-- A write of SQ_MSGIN2 pushes the assembled word into the engine's message queue and raises LINKMSG (R247). -/
  | msginPush (e : EngineIx) (v : Word)
  /-- A fetched control-store or dispatch entry failing parity, or an uncorrectable SRAM fetch, triggers a machine check (R319). -/
  | controlStoreParityError (e : EngineIx) (kind : FetchError)
  /-- On its TIME schedule the scrubber reads a control-store or dispatch entry and repairs a parity failure from another engine (R321). -/
  | scrubRead (e : EngineIx)
  /-- A write of MC_INJ with ARM = 1 inverts a stored parity bit (R322). -/
  | parityInject (v : Word)
  /-- MC_CMD HOSTLOAD resets every engine and lets the host write the control store (R315). -/
  | hostload
  /-- In HOSTLOAD a write to the control store window is broadcast to every engine (R315). -/
  | controlStoreWindowWrite (off : BitVec 16) (w : Native)
  /-- MC_CMD FINISH checks the host-loaded image and sets the state to LOADED or NOIMAGE (R315). -/
  | finish
  /-- MC_CMD VERIFY checks an NVS microcode slot without loading it and updates its VALID bit (R316). -/
  | verify (slot : Fin 2)
  /-- A microcode image check completes and the image is written or rejected with MC_STAT.ERR (R312). -/
  | imageCheckComplete (src : ImageSource)
  /-- A reload finishes with LOADED, falls back to the other slot, or ends in NOIMAGE (R318). -/
  | reloadComplete
  /-- CM_CMD COMMIT locks and checks the staged plane for application at an epoch (R328). -/
  | commitOp (v : Word)
  /-- CM_CMD CHECK checks the staged plane and computes its digest without applying it (R328). -/
  | checkOp (v : Word)
  /-- CM_CMD ABORT ends a pending or checking commit, or on a voting root broadcasts ABORT (R328). -/
  | abortOp
  /-- CM_CMD DISCARD copies the live plane into the staged plane unless it is locked (R325). -/
  | discard
  /-- Within 20 µs the consistency checks and staged digest finish, giving REJECTED, PENDING, CHECKED or a vote (R330). -/
  | commitCheckComplete
  /-- At its epoch a pending commit copies the staged plane to the live plane in one TCLK and records CM_AT and DG_DIGEST (R331). -/
  | commitApply
  /-- A SHADOW receiving PREPARE over T locks and checks its plane against the ACTIVE digest and votes (R335). -/
  | twinPrepareReceive (id : BitVec 16) (chk : Bool) (kind : BitVec 3) (eng : EngineIx) (tgt : BitVec 64) (digest : BitVec 64)
  /-- The ACTIVE member receiving the SHADOW's vote completes CK38 and sends APPLY or rejects (R335). -/
  | twinVoteReceive (id : BitVec 16) (yes : Bool) (code : BitVec 6) (digest : BitVec 64)
  /-- A partner vote that does not arrive within 40 µs fails CK39 (R334). -/
  | twinVoteTimeout
  /-- A SHADOW receiving APPLY or ABORT applies at the epoch or ends the commit (R335). -/
  | twinApplyReceive (id : BitVec 16) (apply : Bool) (t : BitVec 56)
  /-- A device receiving PREPARE locks and checks its staged plane and votes up the tree (R336). -/
  | domainPrepareReceive (id : BitVec 16) (ta : BitVec 56) (tv : BitVec 56)
  /-- A received VOTE is combined and forwarded upward, and the root decides APPLY or ABORT (R336). -/
  | domainVoteReceive (id : BitVec 16) (yes : Bool) (dev : BitVec 10) (code : BitVec 6) (count : Nat)
  /-- At Tv a device forwards the votes it holds and the root aborts if YES does not cover every device (R336). -/
  | voteWindowExpire
  /-- A voting device receiving APPLY applies at Ta, or at once and late if Ta has passed (R337). -/
  | domainApplyReceive (id : BitVec 16)
  /-- A device receiving ABORT ends ABORTED with code 40 and unlocks (R337). -/
  | domainAbortReceive (id : BitVec 16) (dev : BitVec 10) (code : BitVec 6)
  /-- A voting device without APPLY or ABORT by Ta + GRACE becomes ORPHANED and does not apply (R339). -/
  | commitOrphan
  /-- A write of SN_CMD.SNAP requests a LAKE snapshot (R340). -/
  | snapshotHost
  /-- A write of SN_CMD.SCHED arms a local snapshot at SN_TT (R343). -/
  | snapshotSched
  /-- A write of SN_CMD.DOMSCHED on a root broadcasts a domain snapshot at SN_TT (R343). -/
  | snapshotDomsched
  /-- A received domain snapshot broadcast schedules a latch at its TIME, or requests on arrival with LATE (R343). -/
  | domainSnapReceive (t : BitVec 56)
  /-- One TCLK after a request every snapshot item latches into the next bank, or the request is refused (R340). -/
  | snapshotLatch
  /-- A write of SN_REL clears a bank's FULL bit (R341). -/
  | bankRelease (v : Word)
  /-- DG_CMD.SCALC computes the staged digest into DG_SDIGEST (R345). -/
  | scalc
  /-- DG_CMD.LEARN on a root sets each reported class reference from its lowest-numbered device (R347). -/
  | learn
  /-- Within 20 µs of a write to an included live field DG_DIGEST is recomputed and STALE clears (R346). -/
  | digestRecompute
  /-- A device reports its class, digest and mismatch up the tree after each change and every PER ms (R347). -/
  | digestReport
  /-- The root receiving a DIGEST report updates DG_DOMSTAT and may set DOM_MISMATCH (R347). -/
  | digestReportReceive (dev : BitVec 10) (cls : BitVec 8) (digest : BitVec 64) (mis : Bool)
  /-- A received class-reference broadcast updates the device's copy of DG_CREF and DG_CVALID (R347). -/
  | crefReceive (cls : BitVec 8) (valid : Bool) (digest : BitVec 64)
  /-- An enabled port seeing signal trains its lanes and comes UP at the widest locked width (R352). -/
  | portTrain (x : Fin 4) (lock : BitVec 4) (nbr : BitVec 10)
  /-- A training attempt not UP within 1 ms leaves the port DOWN and a new attempt follows (R352). -/
  | portTrainTimeout (x : Fin 4)
  /-- A port sends its next DATA or EMPTY block carrying its ACK and NAK (R354). -/
  | blockSend (x : Fin 4)
  /-- A received block is checked, delivered or discarded, its ACK and NAK are acted on and its packets are forwarded (R354). -/
  | blockReceive (x : Fin 4) (blk : BitVec 640)
  /-- 2 µs without ACK progress re-sends from the oldest unacknowledged block (R355). -/
  | resendTimeout (x : Fin 4)
  /-- A retraining not UP within 1 ms leaves the port DOWN and discards its retry buffer (R355). -/
  | retrainTimeout (x : Fin 4)
  /-- A device with JOIN that has become ALIGNED sends UP JOIN to the root (R362). -/
  | joinOp (depth : BitVec 4)
  /-- The root receiving JOIN replies JOINACK and adds the member, or JOINNAK with a reason (R362). -/
  | joinReceive (dev : BitVec 10) (depth : BitVec 4) (x : Fin 4)
  /-- A device receiving JOINACK becomes MEMBER, or on JOINNAK becomes REFUSED (R362). -/
  | joinReplyReceive (ok : Bool) (reason : BitVec 4)
  /-- CL_DOM_CMD REJOIN makes a REFUSED device try to join again (R362). -/
  | rejoin
  /-- CL_DOM_CMD DRESET on the root broadcasts an engine reset of every engine of every member (R371). -/
  | dreset
  /-- A received DRESET broadcast performs an engine reset of every engine (R359). -/
  | dresetReceive
  /-- A member whose port A has not been UP for LEAVE µs leaves the domain and broadcasts LEAVE (R364). -/
  | leaveTimeout
  /-- A member receiving LEAVE leaves in the same way and forwards it (R364). -/
  | leaveReceive
  /-- The root receiving PRUNE removes the device from CL_MEMw and sets MEMLOST (R364). -/
  | pruneReceive (dev : BitVec 10)
  /-- A received EPOCH broadcast schedules the domain barrier release at its TIME (R251). -/
  | domainEpochReceive (b : Fin 8) (t : BitVec 56)
  /-- A received barrier completion report is combined, and the root broadcasts the release when all devices are complete (R251). -/
  | barrierReportReceive (dev : BitVec 10) (b : Fin 8) (count : Nat)
  /-- A write of CL_RRA_CMD.GO sends a register access request to a device, or ends NOROUTE (R366). -/
  | rraGo (v : Word)
  /-- A target receiving RREQ performs the access as a host access and returns RRSP (R366). -/
  | rraRequestReceive (dev : BitVec 10) (write : Bool) (tag : BitVec 7) (addr : BitVec 24) (v : Word)
  /-- An arriving RRSP ends the request DONE with read data (R366). -/
  | rraResponse (tag : BitVec 7) (v : Word)
  /-- No response within TMO µs ends the request TIMEOUT (R366). -/
  | rraTimeout
  /-- An arriving MSG packet pushes its word into the addressed engine's message queue (R358). -/
  | msgPacketReceive (e : EngineIx) (w : Native)
  /-- Every 2^14 TCLK a parent sends TS1 to each child (R369). -/
  | timeExchangeStart (x : Fin 4) (t : BitVec 66)
  /-- A child stamps TS1's arrival and replies with TS2 (R369). -/
  | ts1Receive (t2 : BitVec 66) (t3 : BitVec 66)
  /-- A parent stamps TS2's arrival and sends TS3 with t1 and t4 (R369). -/
  | ts2Receive (x : Fin 4) (t : BitVec 66) (turn : Option (BitVec 66))
  /-- A child computes the offset and delay and averages them into the alignment loop (R369). -/
  | ts3Receive (t1 : BitVec 66) (t4 : BitVec 66) (resent : Bool)
  /-- A live write forwarded over T acts on both twin members at TCLK w + 3,200 (R375). -/
  | mirroredWriteApply (x : MirrorWrite) (w : BitVec 56)
  /-- A refill block fetched by the ACTIVE member is forwarded and delivered on both members when acknowledged (R376). -/
  | refillBlockForward (ring : Bool) (u : GroupIx) (words : List Native)
  /-- Every 1,600 TCLK, or at a health change, a member sends a heartbeat with its role, health and lockstep CRC (R379). -/
  | heartbeatSend
  /-- A received heartbeat is checked for lockstep and health, and failure may be detected (R379). -/
  | heartbeatReceive (hb : Heartbeat)
  /-- No valid heartbeat for 3.5 µs, or loss of the T port, is a detected failure or detaches the SHADOW (R379). -/
  | heartbeatLoss
  /-- At the first vector with B ≥ (D + 2) × 1,024, or at the fallback tick, a group's channels begin to follow the lane (R381). -/
  | groupTakeover (g : GroupIx)
  /-- At D + 160 TCLK channels not yet taken over connect their termination (R381). -/
  | takeoverTermConnect (g : GroupIx)
  /-- A received PARKCMD parks the member and makes it FAILED (R380). -/
  | parkcmdReceive
  /-- The partner's summary-set CRC or words are compared with this member's set and a disagreement is recorded (R378). -/
  | agreementReceive (e : EngineIx) (set : List Native)
  /-- TW_CMD SWAP on an ACTIVE member schedules a role exchange at Ts (R382). -/
  | swapOp (ts : Option (BitVec 56))
  /-- In each group, at the first vector at or after Ts, both members exchange roles at the same tick (R382). -/
  | swapExecute (g : GroupIx)
  /-- TW_CMD DETACH makes the SHADOW DETACHED and the ACTIVE member SINGLE (R383). -/
  | detach (received : Bool)
  /-- A write of TW_CTL.PAIR ends the twin cause or, on a paired member, acts as DETACH (R383). -/
  | pairWrite (v : Word)
  /-- TW_CMD ATTACH makes the writer ACTIVE and the partner JOINING and copies the stores, or is refused (R384). -/
  | attach (what : AttachStep)
  /-- A transfer not complete within TW_RJ_TMO ms fails the attach and detaches the partner (R384). -/
  | attachTimeout
  /-- At an engine's transfer point its state is latched and loaded into the joiner (R385). -/
  | engineTransfer (e : EngineIx) (step : Machine.TransferStep)
  /-- A Function Level Reset disables every ring and returns the HI block and MSI-X table to reset (R391). -/
  | functionLevelReset
  /-- PERST_N resets the PCIe endpoint, configuration space, HI block and MSI-X table only (R415). -/
  | perstN
  /-- Entry to D3hot or clearing Bus Master Enable stops DMA while tests continue (R390). -/
  | powerStateChange (d3 : Bool) (bme : Bool)
  /-- The PCIe link training at a new width or generation sets LINKCHG (R405). -/
  | linkChange (width : BitVec 4) (gen : BitVec 4)
  /-- A DMA read with no completion in 50 ms, or an error completion, fails its block and sets CPLTO (R392). -/
  | cplTimeout (w : Bool) (u : Fin 32)
  /-- A BAR2 write of bytes 0 to 7 of a word fills the write hold (R394). -/
  | bar2WriteLow (off : BitVec 27) (data : List (BitVec 8))
  /-- A BAR2 write of byte 8 writes the word whole from the hold, or sets HOLDMISS (R394). -/
  | bar2WriteHigh (off : BitVec 27) (b : BitVec 8)
  /-- A BAR2 read of bytes 0 to 7 returns them and loads the read latch with byte 8 (R394). -/
  | bar2ReadLow (off : BitVec 27) (n : Fin 9) (ecc : EccResult)
  /-- A BAR2 read of byte 8 returns the latch when it matches, or the stored byte (R394). -/
  | bar2ReadHigh (off : BitVec 27) (ecc : EccResult)
  /-- A write of TAIL posts buffers or filled blocks, clamped to the ring size (R399). -/
  | ringTailWrite (ring : RingIx) (v : Word)
  /-- A write of a ring CTL.EN stops the ring after its block in flight or resumes it at HEAD (R400). -/
  | ringEnable (ring : RingIx) (v : Word)
  /-- An open block closes FLUSH µs after its first record (R401). -/
  | ringFlushTimeout (r : Fin 6)
  /-- A write of HI_FLUSH closes the open blocks of the named rings (R401). -/
  | ringFlushWrite (v : Word)
  /-- A closed block is written to the next posted buffer, HEAD advances and is written back, and RDONE may be set (R400). -/
  | ringBlockWrite (r : Fin 6) (desc : BitVec 128)
  /-- A write of HI_CAPRD_CTL.GO starts reading capture words into ring 4 (R403). -/
  | captureReadoutGo (v : Word)
  /-- When the destination has room the device fetches and delivers the next refill block of a queue (R406). -/
  | queueBlockFetch (wave : Bool) (u : Fin 32) (desc : BitVec 128) (blk : List (BitVec 8))
  /-- SMBus commands 0x00 to 0x04 return a die temperature (R411). -/
  | smbTemp (k : Fin 5) (word : Bool)
  /-- SMBus command 0x08 returns the STATUS byte (R411). -/
  | smbStatus (word : Bool)
  /-- SMBus command 0x09 returns STATUS and releases ALERT_N (R411). -/
  | smbAlertclr (word : Bool)
  /-- SMBus command 0x10 returns the Vendor ID (R411). -/
  | smbVid (word : Bool)
  /-- SMBus command 0x11 returns the Device ID (R411). -/
  | smbDid (word : Bool)
  /-- SMBus command 0x12 returns the Subsystem Vendor ID (R411). -/
  | smbSvid (word : Bool)
  /-- SMBus command 0x13 returns the Subsystem ID (R411). -/
  | smbSsid (word : Bool)
  /-- SMBus command 0x14 returns the Revision ID (R411). -/
  | smbRevid (word : Bool)
  /-- SMBus commands 0x18 to 0x1B return a word of the serial number (R411). -/
  | smbSerial (k : Fin 4) (word : Bool)
  /-- An unlisted SMBus command returns 0xFF or 0xFFFF (R411). -/
  | smbUnlisted (cmd : BitVec 8) (word : Bool)
  /-- The SMBus Alert Response Address read releases ALERT_N (R411). -/
  | smbAlertResponse
  /-- A write of HI_SPI_CTL.GO starts one SPI transaction (R413). -/
  | spiGo (v : Word)
  /-- An SPI transaction ends, storing read bytes and clearing BUSY (R413). -/
  | spiDone (rd : List (BitVec 8))
  /-- A monitored rail below its threshold asserts POR and puts every channel at high impedance within 1 µs (R424). -/
  | por
  /-- RST_N low for at least 1 µs resets the whole device as POR does (R415). -/
  | rstN
  /-- POR release or the end of RST_N starts the boot through PLL, NVS, MC, BIST and FINAL to READY (R418). -/
  | boot (ok : List Bool)
  /-- A write of GL_RESET_GRP resets the named groups, or has no effect while locked or on a partial gang (R416). -/
  | groupReset (v : Word)
  /-- GL_RESET_DEV.TP resets phase tracking, comparators and slots (R415). -/
  | deviceResetTp
  /-- GL_RESET_DEV.AQ resets the trigger engines and ends any TRIG_OUT pulse (R415). -/
  | deviceResetAq
  /-- GL_RESET_DEV.SN resets the snapshot banks (R415). -/
  | deviceResetSn
  /-- REFCLK stopping puts the PLL into holdover and the discipline into HOLDOVER or FREE (R421). -/
  | refclkLoss
  /-- REFCLK returning relocks the PLL without a phase step and may return discipline to ACQUIRE (R421). -/
  | refclkReturn (tbref : Bool)
  /-- One side of a crossing entering reset makes the other discard its half and count the drop (R423). -/
  | crossingReset (xid : Fin 8) (n : Nat)
  /-- Every 1 µs a die measures its driver-rail current and updates the OCHRE bucket (R425). -/
  | ochreSample (k : DieIx) (ma : Nat)
  /-- A write of TH_CMD.OCLR clears exhaustion of a die at or below 50 %, or is refused (R425). -/
  | oclr (v : Word)
  /-- Every 100 µs each die measures its junction temperature and updates warning and trip (R426). -/
  | tempSample (k : Fin 5) (t : BitVec 16)
  /-- A write of TH_CMD.TCLR clears every thermal trip when every die reads below 140 °C (R426). -/
  | tclr
  /-- Writing 0x4E56 then 0x0A11 to NV_UNLOCK within 1 ms sets UNLOCKED (R430). -/
  | nvsUnlockWrite (v : Word)
  /-- 60 s without an NVS write returns UNLOCKED to 0 and clears WEN and FACT (R430). -/
  | nvsLockTimeout
  /-- A queued NVS word is written to MRAM, one per 1 µs (R430). -/
  | nvsWordWrite
  /-- Every 60 s the lifetime ledger is written to the older of its two NVS copies (R431). -/
  | ledgerWrite
  /-- POR, TRST_N low or five TCK edges with TMS high reset the TAP to IDCODE and return outputs to functional control (R457). -/
  | tapReset
  /-- EXTEST drives covered outputs from the boundary-scan register (R457). -/
  | extest (pins : BitVec 89) (load : BitVec 89)
  /-- IDCODE selects the 32-bit identification register (R458). -/
  | idcode
  /-- SAMPLE/PRELOAD samples the covered balls while operation continues (R457). -/
  | samplePreload (pins : BitVec 89) (load : BitVec 89)
  /-- HIGHZ puts covered outputs at high impedance and selects bypass (R457). -/
  | highz
  /-- CLAMP holds covered outputs from the boundary-scan register and selects bypass (R457). -/
  | clampTap
  /-- EXTEST_PULSE applies IEEE 1149.6 on serial lanes and EXTEST elsewhere (R457). -/
  | extestPulse (pins : BitVec 89) (load : BitVec 89)
  /-- EXTEST_TRAIN applies IEEE 1149.6 on serial lanes and EXTEST elsewhere (R457). -/
  | extestTrain (pins : BitVec 89) (load : BitVec 89)
  /-- BYPASS, and any undefined instruction, selects the 1-bit bypass register (R457). -/
  | bypass
  /-- The rise of PERST_N ends the PCIe-side reset: the crossing handshakes complete, and the endpoint answers configuration requests from 20 ms later (R420). -/
  | perstNRise
  /-- The PCIe link goes down, for example on REFCLK loss or under boundary scan: HI_LINK reads 0, DMA stops, and ring records are then lost and counted as when full (R24). -/
  | pcieLinkDown
  deriving DecidableEq, Repr

end Sys2Proof
end

