-- ==== Sys2Proof/WellFormed.lean ====
section
/-! DEFINITION. The bounds of a command's operands that its types do not say: list lengths, alignment and counts. -/

namespace Sys2Proof

/-- A command as its row presents it. Commands not listed carry operands that their types already bound. -/
def WellFormed (i : Instr) : Bool :=
  match i with
  -- R5: an access has at least one byte
  | .registerWrite _ v => decide (0 < v.size.val)
  | .coherentRead x => decide (0 < x.size.val)
  -- R6: flags lie in registers, at offsets aligned to 4 bytes
  | .flagClearWrite addr _ => decide (addr.toNat % 4 = 0)
  -- R86: one result for each channel of the group
  | .dskComplete _ res _ => decide (res.length = 16)
  -- R87: at most 2^12 repetitions
  | .tdrComplete _ n launches reflections => decide (n ≤ 4096 ∧ launches.length = n ∧ reflections.length = n)
  -- R115: at least one sample
  | .measComplete _ _ samples _ => decide (0 < samples.length)
  -- R130: one voltage for each channel
  | .sampleTick _ volts => decide (volts.length = 16)
  -- R141: one result list for each channel
  | .selfCheckEnd _ res => decide (res.length = 16)
  -- R158: one count for each bin, and 256 edges of the alignment reference
  | .calPassComplete _ _ hits refs => decide (hits.length = 512 ∧ refs.length = 256)
  -- R359: COUNT is an 11-bit field
  | .domainVoteReceive _ _ _ _ count => decide (count < 2048)
  | .barrierReportReceive _ _ count => decide (count < 2048)
  -- R397: at most 452 words in a block
  | .refillBlockForward _ _ words => decide (words.length ≤ 452)
  -- R180: a record set has 34 words
  | .agreementReceive _ set => decide (set.length = 34)
  -- R394: bytes 0 to 7 of one word, or byte 8
  | .bar2WriteLow off data => decide (0 < data.length ∧ off.toNat % 16 + data.length ≤ 8)
  | .bar2WriteHigh off _ => decide (off.toNat % 16 = 8)
  | .bar2ReadLow off n _ => decide (0 < n.val ∧ off.toNat % 16 + n.val ≤ 8)
  | .bar2ReadHigh off _ => decide (off.toNat % 16 = 8)
  -- R397: a block has 4,096 bytes
  | .queueBlockFetch _ _ _ blk => decide (blk.length = 4096)
  -- R413: at most 8 data bytes
  | .spiDone rd => decide (rd.length ≤ 8)
  -- R257: the instructions that issue vectors issue at least one
  | .vec _ n | .rpt _ n | .stream _ n => decide (0 < n)
  | _ => true

end Sys2Proof
end

