-- ==== Sys2Proof/Config.lean ====
section
/-! DEFINITION. What the spec leaves open. A constant here has no body: nothing can evaluate it or prove a value
of it. The machine applies `freeValue` to the counter `State.free`, a fresh argument each time (log entries name
each use). -/

namespace Sys2Proof

/-- A value the spec does not fix. -/
opaque Config.freeValue : Nat → BitVec 64

/-- R342: which of the values it lists an item 0x0025 to 0x0034 holds; the order is not stated. -/
opaque Config.snapOrder : Nat → Nat

/-- R377: the bytes of the vector counts and RUNNING context numbers of engines 0 to 31; their layout is not stated. -/
opaque Config.lockstepBytes : List (Nat × Option Nat) → List Byte

/-- R86: the least number of edges of an internal-deskew measurement; fewer are too few. -/
opaque Config.dskMinEdges : Nat

/-- R84, R89: delays in ticks that the factory-calibration region of the NVS holds: of the reference tree to the ball of a
channel, and from CAL_EXT to the tree. The region's layout is not stated: the argument holds its words that differ from
the factory's. -/
opaque Config.treeDelay : List (Nat × Native) → Nat → Int
opaque Config.calExtDelay : List (Nat × Native) → Int

/-- R158, R162: in the same region, REF_p of a channel and the factory shifts of its lines, in 1/64 tick. -/
opaque Config.refPosition : List (Nat × Native) → Nat → Int
opaque Config.factoryShift : List (Nat × Native) → Nat → Int

/-- R459: the level of a boundary-scan control cell at which its ball is driven. -/
opaque Config.scanDrive : Bool

end Sys2Proof
end

