-- ==== Sys2Proof/Machine/RegMap.lean ====
section
/-! DEFINITION. The BAR0 register map: every register of chapters 02 to 15, its address (R435, R436 and the
block chapters), the fields of its table with access code (R6), plane (R7) and stored-value rule (R326), and
its word at READY (R9). Names are the spec's; an index letter of the spec's name is an argument. -/

namespace Sys2Proof.Machine

/-- Access codes of R6. -/
inductive Access where
  | rw | ro | w1c | wo | rc
  deriving DecidableEq, Repr

/-- Plane codes of R7. -/
inductive Plane where
  | staged | live | none
  deriving DecidableEq, Repr

/-- What a write stores when the value lies outside a field's range (R326 and the field's own table). -/
inductive Clamp where
  | free
  | atMost (hi : Nat)
  | atLeast (lo : Nat)
  | between (lo hi : Nat)
  /-- a value above `max` stores `v` -/
  | above (max v : Nat)
  /-- the bits of `m` are stored as 1 -/
  | withBits (m : Nat)
  /-- a signed field -/
  | signedBetween (lo hi : Int)
  deriving DecidableEq, Repr

/-- One row of a field table. -/
structure FieldSpec where
  hi : Nat
  lo : Nat
  access : Access
  plane : Plane
  clamp : Clamp
  deriving DecidableEq, Repr

/-- One register: its BAR0 byte address and the word it holds at READY. -/
structure Reg where
  addr : Nat
  rst : Nat
  deriving DecidableEq, Repr

/-- One field of a register. -/
structure Fld where
  reg : Reg
  hi : Nat
  lo : Nat
  deriving DecidableEq, Repr

/-- R435: the base of group g's blocks. -/
def groupBase (g : Nat) : Nat := 0x100000 + g * 0x10000

/-- TP_TIME_LO, 02. -/
def TP_TIME_LO : Reg := ⟨0x010000, 0x00000000⟩
def TP_TIME_LO_TIME_LO : Fld := ⟨TP_TIME_LO, 31, 0⟩
/-- TP_TIME_HI, 02. -/
def TP_TIME_HI : Reg := ⟨0x010004, 0x00000000⟩
def TP_TIME_HI_TIME_HI : Fld := ⟨TP_TIME_HI, 23, 0⟩
/-- TP_TBREF_CTL, 02. -/
def TP_TBREF_CTL : Reg := ⟨0x010010, 0x00000002⟩
def TP_TBREF_CTL_BW : Fld := ⟨TP_TBREF_CTL, 2, 1⟩
def TP_TBREF_CTL_EN : Fld := ⟨TP_TBREF_CTL, 0, 0⟩
/-- TP_TBREF_ERR, 02. -/
def TP_TBREF_ERR : Reg := ⟨0x010018, 0x00000000⟩
def TP_TBREF_ERR_ERR : Fld := ⟨TP_TBREF_ERR, 31, 0⟩
/-- TP_TBREF_TRIM, 02. -/
def TP_TBREF_TRIM : Reg := ⟨0x01001C, 0x00000000⟩
def TP_TBREF_TRIM_TRIM : Fld := ⟨TP_TBREF_TRIM, 23, 0⟩
/-- TP_PH_CTL, 02. -/
def TP_PH_CTL : Reg := ⟨0x010020, 0x00000100⟩
def TP_PH_CTL_FILT : Fld := ⟨TP_PH_CTL, 9, 5⟩
def TP_PH_CTL_IDX_EN : Fld := ⟨TP_PH_CTL, 4, 4⟩
def TP_PH_CTL_INV : Fld := ⟨TP_PH_CTL, 3, 3⟩
def TP_PH_CTL_IOSTD : Fld := ⟨TP_PH_CTL, 2, 2⟩
def TP_PH_CTL_SRC : Fld := ⟨TP_PH_CTL, 1, 0⟩
/-- TP_PH_CPC, 02. -/
def TP_PH_CPC : Reg := ⟨0x010024, 0x00000001⟩
def TP_PH_CPC_CPC : Fld := ⟨TP_PH_CPC, 16, 0⟩
/-- TP_PH_IDXPOS, 02. -/
def TP_PH_IDXPOS : Reg := ⟨0x010028, 0x00000000⟩
def TP_PH_IDXPOS_IDXPOS : Fld := ⟨TP_PH_IDXPOS, 15, 0⟩
/-- TP_PH_LOOP, 02. -/
def TP_PH_LOOP : Reg := ⟨0x01002C, 0x03E80041⟩
def TP_PH_LOOP_STALL : Fld := ⟨TP_PH_LOOP, 27, 16⟩
def TP_PH_LOOP_IDXTOL : Fld := ⟨TP_PH_LOOP, 11, 4⟩
def TP_PH_LOOP_BW : Fld := ⟨TP_PH_LOOP, 1, 0⟩
/-- TP_PH_ANGLE, 02. -/
def TP_PH_ANGLE : Reg := ⟨0x010030, 0x00000000⟩
def TP_PH_ANGLE_ANGLE : Fld := ⟨TP_PH_ANGLE, 31, 0⟩
/-- TP_PH_CYCLE, 02. -/
def TP_PH_CYCLE : Reg := ⟨0x010034, 0x00000000⟩
def TP_PH_CYCLE_CYCLE : Fld := ⟨TP_PH_CYCLE, 31, 0⟩
/-- TP_PH_VEL, 02. -/
def TP_PH_VEL : Reg := ⟨0x010038, 0x00000000⟩
def TP_PH_VEL_VEL : Fld := ⟨TP_PH_VEL, 31, 0⟩
/-- TP_STATUS, 02. -/
def TP_STATUS : Reg := ⟨0x01003C, 0x00000000⟩
def TP_STATUS_TB_STATE : Fld := ⟨TP_STATUS, 5, 4⟩
def TP_STATUS_DIR : Fld := ⟨TP_STATUS, 3, 3⟩
def TP_STATUS_PH_STATE : Fld := ⟨TP_STATUS, 2, 0⟩
/-- TP_FLAGS, 02. -/
def TP_FLAGS : Reg := ⟨0x010040, 0x00000000⟩
def TP_FLAGS_EPOCH_LATE : Fld := ⟨TP_FLAGS, 5, 5⟩
def TP_FLAGS_TBREF_LOST : Fld := ⟨TP_FLAGS, 4, 4⟩
def TP_FLAGS_STALL : Fld := ⟨TP_FLAGS, 3, 3⟩
def TP_FLAGS_PH_LOST : Fld := ⟨TP_FLAGS, 2, 2⟩
def TP_FLAGS_INDEX_ERR : Fld := ⟨TP_FLAGS, 1, 1⟩
def TP_FLAGS_QUAD_ERR : Fld := ⟨TP_FLAGS, 0, 0⟩
/-- TP_CNT0, 02. -/
def TP_CNT0 : Reg := ⟨0x010044, 0x00000000⟩
def TP_CNT0_INDEX_ERR : Fld := ⟨TP_CNT0, 31, 16⟩
def TP_CNT0_QUAD_ERR : Fld := ⟨TP_CNT0, 15, 0⟩
/-- TP_CNT1, 02. -/
def TP_CNT1 : Reg := ⟨0x010048, 0x00000000⟩
def TP_CNT1_STALL : Fld := ⟨TP_CNT1, 31, 16⟩
def TP_CNT1_PH_LOST : Fld := ⟨TP_CNT1, 15, 0⟩
/-- TP_CNT2, 02. -/
def TP_CNT2 : Reg := ⟨0x01004C, 0x00000000⟩
def TP_CNT2_EPOCH_LATE : Fld := ⟨TP_CNT2, 31, 16⟩
def TP_CNT2_TBREF_LOST : Fld := ⟨TP_CNT2, 15, 0⟩
/-- TP_PH_IDXERR, 02. -/
def TP_PH_IDXERR : Reg := ⟨0x010050, 0x00000000⟩
def TP_PH_IDXERR_IDXERR : Fld := ⟨TP_PH_IDXERR, 15, 0⟩
/-- TP_STEP, 02. -/
def TP_STEP : Reg := ⟨0x010060, 0x00000000⟩
def TP_STEP_TX : Fld := ⟨TP_STEP, 16, 16⟩
def TP_STEP_STEP : Fld := ⟨TP_STEP, 15, 0⟩
/-- TP_STEP_TIME_LO, 02. -/
def TP_STEP_TIME_LO : Reg := ⟨0x010064, 0x00000000⟩
def TP_STEP_TIME_LO_T_LO : Fld := ⟨TP_STEP_TIME_LO, 31, 0⟩
/-- TP_STEP_TIME_HI, 02. -/
def TP_STEP_TIME_HI : Reg := ⟨0x010068, 0x00000000⟩
def TP_STEP_TIME_HI_T_HI : Fld := ⟨TP_STEP_TIME_HI, 23, 0⟩
/-- TP_DOM_CTL, 02. -/
def TP_DOM_CTL : Reg := ⟨0x010070, 0x00000000⟩
def TP_DOM_CTL_PH_TX : Fld := ⟨TP_DOM_CTL, 0, 0⟩
/-- TP_PCMPm_CYC, 02. -/
def TP_PCMP_CYC (m : Nat) : Reg := ⟨0x010100 + 0x10 * m, 0x00000000⟩
def TP_PCMP_CYC_CYC (m : Nat) : Fld := ⟨(TP_PCMP_CYC m), 31, 0⟩
/-- TP_PCMPm_ANG, 02. -/
def TP_PCMP_ANG (m : Nat) : Reg := ⟨0x010104 + 0x10 * m, 0x00000000⟩
def TP_PCMP_ANG_ANG (m : Nat) : Fld := ⟨(TP_PCMP_ANG m), 31, 0⟩
/-- TP_PCMPm_CTL, 02. -/
def TP_PCMP_CTL (m : Nat) : Reg := ⟨0x010108 + 0x10 * m, 0x00000000⟩
def TP_PCMP_CTL_REACHED (m : Nat) : Fld := ⟨(TP_PCMP_CTL m), 9, 9⟩
def TP_PCMP_CTL_PRIO (m : Nat) : Fld := ⟨(TP_PCMP_CTL m), 8, 6⟩
def TP_PCMP_CTL_CTX (m : Nat) : Fld := ⟨(TP_PCMP_CTL m), 5, 1⟩
def TP_PCMP_CTL_ARM (m : Nat) : Fld := ⟨(TP_PCMP_CTL m), 0, 0⟩
/-- TP_PCMPm_ENG, 02. -/
def TP_PCMP_ENG (m : Nat) : Reg := ⟨0x01010C + 0x10 * m, 0x00000000⟩
def TP_PCMP_ENG_ENG (m : Nat) : Fld := ⟨(TP_PCMP_ENG m), 31, 0⟩
/-- TP_SLOTs_ANG, 02. -/
def TP_SLOT_ANG (s : Nat) : Reg := ⟨0x010200 + 0x10 * s, 0x00000000⟩
def TP_SLOT_ANG_ANG (s : Nat) : Fld := ⟨(TP_SLOT_ANG s), 31, 0⟩
/-- TP_SLOTs_CTL, 02. -/
def TP_SLOT_CTL (s : Nat) : Reg := ⟨0x010204 + 0x10 * s, 0x00000000⟩
def TP_SLOT_CTL_PRIO (s : Nat) : Fld := ⟨(TP_SLOT_CTL s), 8, 6⟩
def TP_SLOT_CTL_CTX (s : Nat) : Fld := ⟨(TP_SLOT_CTL s), 5, 1⟩
def TP_SLOT_CTL_EN (s : Nat) : Fld := ⟨(TP_SLOT_CTL s), 0, 0⟩
/-- TP_SLOTs_ENG, 02. -/
def TP_SLOT_ENG (s : Nat) : Reg := ⟨0x010208 + 0x10 * s, 0x00000000⟩
def TP_SLOT_ENG_ENG (s : Nat) : Fld := ⟨(TP_SLOT_ENG s), 31, 0⟩
/-- TP_SLOTs_LAST, 02. -/
def TP_SLOT_LAST (s : Nat) : Reg := ⟨0x01020C + 0x10 * s, 0x00000000⟩
def TP_SLOT_LAST_LAST (s : Nat) : Fld := ⟨(TP_SLOT_LAST s), 31, 0⟩
/-- TG_TS_USE, 03. -/
def TG_TS_USE (g : Nat) : Reg := ⟨groupBase g + 0x0000, 0x00000001⟩
def TG_TS_USE_USE (g : Nat) : Fld := ⟨(TG_TS_USE g), 31, 0⟩
/-- TG_FLAGS, 03. -/
def TG_FLAGS (g : Nat) : Reg := ⟨groupBase g + 0x0008, 0x00000000⟩
def TG_FLAGS_NO_REFL (g : Nat) : Fld := ⟨(TG_FLAGS g), 4, 4⟩
def TG_FLAGS_DSK_ERR (g : Nat) : Fld := ⟨(TG_FLAGS g), 3, 3⟩
def TG_FLAGS_CROWD (g : Nat) : Fld := ⟨(TG_FLAGS g), 2, 2⟩
def TG_FLAGS_RSVD_CODE (g : Nat) : Fld := ⟨(TG_FLAGS g), 1, 1⟩
def TG_FLAGS_TS_UNUSED (g : Nat) : Fld := ⟨(TG_FLAGS g), 0, 0⟩
/-- TG_CNT0, 03. -/
def TG_CNT0 (g : Nat) : Reg := ⟨groupBase g + 0x000C, 0x00000000⟩
def TG_CNT0_RSVD_CODE (g : Nat) : Fld := ⟨(TG_CNT0 g), 31, 16⟩
def TG_CNT0_TS_UNUSED (g : Nat) : Fld := ⟨(TG_CNT0 g), 15, 0⟩
/-- TG_CNT1, 03. -/
def TG_CNT1 (g : Nat) : Reg := ⟨groupBase g + 0x0010, 0x00000000⟩
def TG_CNT1_DSK_ERR (g : Nat) : Fld := ⟨(TG_CNT1 g), 31, 16⟩
def TG_CNT1_CROWD (g : Nat) : Fld := ⟨(TG_CNT1 g), 15, 0⟩
/-- TG_CNT2, 03. -/
def TG_CNT2 (g : Nat) : Reg := ⟨groupBase g + 0x0014, 0x00000000⟩
def TG_CNT2_NO_REFL (g : Nat) : Fld := ⟨(TG_CNT2 g), 15, 0⟩
/-- TG_DSK_CTL, 03. -/
def TG_DSK_CTL (g : Nat) : Reg := ⟨groupBase g + 0x0020, 0x00000000⟩
def TG_DSK_CTL_LS (g : Nat) : Fld := ⟨(TG_DSK_CTL g), 4, 2⟩
def TG_DSK_CTL_MODE (g : Nat) : Fld := ⟨(TG_DSK_CTL g), 1, 1⟩
def TG_DSK_CTL_RUN (g : Nat) : Fld := ⟨(TG_DSK_CTL g), 0, 0⟩
/-- TG_DSK_STAT, 03. -/
def TG_DSK_STAT (g : Nat) : Reg := ⟨groupBase g + 0x0024, 0x00000000⟩
def TG_DSK_STAT_FAILMAP (g : Nat) : Fld := ⟨(TG_DSK_STAT g), 31, 16⟩
def TG_DSK_STAT_STATE (g : Nat) : Fld := ⟨(TG_DSK_STAT g), 2, 0⟩
/-- TG_DSK_TEMP, 03. -/
def TG_DSK_TEMP (g : Nat) : Reg := ⟨groupBase g + 0x0028, 0x000000FA⟩
def TG_DSK_TEMP_TEMP (g : Nat) : Fld := ⟨(TG_DSK_TEMP g), 15, 0⟩
/-- TG_TDR_CTL, 03. -/
def TG_TDR_CTL (g : Nat) : Reg := ⟨groupBase g + 0x0030, 0x000000A0⟩
def TG_TDR_CTL_RUN (g : Nat) : Fld := ⟨(TG_TDR_CTL g), 31, 31⟩
def TG_TDR_CTL_POL (g : Nat) : Fld := ⟨(TG_TDR_CTL g), 11, 11⟩
def TG_TDR_CTL_LS (g : Nat) : Fld := ⟨(TG_TDR_CTL g), 10, 8⟩
def TG_TDR_CTL_REPS (g : Nat) : Fld := ⟨(TG_TDR_CTL g), 7, 4⟩
def TG_TDR_CTL_CH (g : Nat) : Fld := ⟨(TG_TDR_CTL g), 3, 0⟩
/-- TG_TDR_STAT, 03. -/
def TG_TDR_STAT (g : Nat) : Reg := ⟨groupBase g + 0x0034, 0x00000000⟩
def TG_TDR_STAT_VALID (g : Nat) : Fld := ⟨(TG_TDR_STAT g), 28, 16⟩
def TG_TDR_STAT_STATE (g : Nat) : Fld := ⟨(TG_TDR_STAT g), 2, 0⟩
/-- TG_TDR_RES, 03. -/
def TG_TDR_RES (g : Nat) : Reg := ⟨groupBase g + 0x0038, 0x00000000⟩
def TG_TDR_RES_RT (g : Nat) : Fld := ⟨(TG_TDR_RES g), 27, 0⟩
/-- TG_TDR_SPREAD, 03. -/
def TG_TDR_SPREAD (g : Nat) : Reg := ⟨groupBase g + 0x003C, 0x00000000⟩
def TG_TDR_SPREAD_SPREAD (g : Nat) : Fld := ⟨(TG_TDR_SPREAD g), 15, 0⟩
/-- TG_CAL_CTL, 03. -/
def TG_CAL_CTL (g : Nat) : Reg := ⟨groupBase g + 0x0040, 0x00000000⟩
def TG_CAL_CTL_FINE (g : Nat) : Fld := ⟨(TG_CAL_CTL g), 25, 16⟩
def TG_CAL_CTL_RPT (g : Nat) : Fld := ⟨(TG_CAL_CTL g), 7, 4⟩
def TG_CAL_CTL_ARM (g : Nat) : Fld := ⟨(TG_CAL_CTL g), 3, 3⟩
def TG_CAL_CTL_MODE (g : Nat) : Fld := ⟨(TG_CAL_CTL g), 1, 0⟩
/-- TG_CAL_TLO, 03. -/
def TG_CAL_TLO (g : Nat) : Reg := ⟨groupBase g + 0x0044, 0x00000000⟩
def TG_CAL_TLO_T_LO (g : Nat) : Fld := ⟨(TG_CAL_TLO g), 31, 0⟩
/-- TG_CAL_THI, 03. -/
def TG_CAL_THI (g : Nat) : Reg := ⟨groupBase g + 0x0048, 0x00000000⟩
def TG_CAL_THI_T_HI (g : Nat) : Fld := ⟨(TG_CAL_THI g), 23, 0⟩
/-- TG_CAL_MEAS, 03. -/
def TG_CAL_MEAS (g : Nat) : Reg := ⟨groupBase g + 0x004C, 0x00000000⟩
def TG_CAL_MEAS_CNT (g : Nat) : Fld := ⟨(TG_CAL_MEAS g), 31, 24⟩
def TG_CAL_MEAS_OFS (g : Nat) : Fld := ⟨(TG_CAL_MEAS g), 23, 0⟩
/-- TG_TSn_PER, 03. -/
def TG_TS_PER (g n : Nat) : Reg := ⟨groupBase g + 0x0100 + 0x4 * n, 0x00010000⟩
def TG_TS_PER_PER (g n : Nat) : Fld := ⟨(TG_TS_PER g n), 31, 0⟩
/-- TG_DSKI_p, 03. -/
def TG_DSKI (g p : Nat) : Reg := ⟨groupBase g + 0x0200 + 0x4 * p, 0x00000000⟩
def TG_DSKI_DC_INT (g p : Nat) : Fld := ⟨(TG_DSKI g p), 31, 16⟩
def TG_DSKI_DD_INT (g p : Nat) : Fld := ⟨(TG_DSKI g p), 15, 0⟩
/-- TG_DSKB_p, 03. -/
def TG_DSKB (g p : Nat) : Reg := ⟨groupBase g + 0x0240 + 0x4 * p, 0x00000000⟩
def TG_DSKB_BOARD (g p : Nat) : Fld := ⟨(TG_DSKB g p), 15, 0⟩
/-- TG_T1, 03. -/
def TG_T1 (g n p : Nat) : Reg := ⟨groupBase g + 0x2000 + 0x100 * n + 0x10 * p, 0x00000000⟩
def TG_T1_FMT (g n p : Nat) : Fld := ⟨(TG_T1 g n p), 26, 24⟩
def TG_T1_T1 (g n p : Nat) : Fld := ⟨(TG_T1 g n p), 23, 0⟩
/-- TG_T2, 03. -/
def TG_T2 (g n p : Nat) : Reg := ⟨groupBase g + 0x2004 + 0x100 * n + 0x10 * p, 0x00000000⟩
def TG_T2_T2 (g n p : Nat) : Fld := ⟨(TG_T2 g n p), 23, 0⟩
/-- TG_T3, 03. -/
def TG_T3 (g n p : Nat) : Reg := ⟨groupBase g + 0x2008 + 0x100 * n + 0x10 * p, 0x00008000⟩
def TG_T3_T3 (g n p : Nat) : Fld := ⟨(TG_T3 g n p), 23, 0⟩
/-- TG_T4, 03. -/
def TG_T4 (g n p : Nat) : Reg := ⟨groupBase g + 0x200C + 0x100 * n + 0x10 * p, 0x00008000⟩
def TG_T4_T4 (g n p : Nat) : Fld := ⟨(TG_T4 g n p), 23, 0⟩
/-- LS_FLAGS, 04. -/
def LS_FLAGS (g : Nat) : Reg := ⟨groupBase g + 0x4000, 0x00000000⟩
def LS_FLAGS_RAIL (g : Nat) : Fld := ⟨(LS_FLAGS g), 5, 5⟩
def LS_FLAGS_MERGE (g : Nat) : Fld := ⟨(LS_FLAGS g), 4, 4⟩
def LS_FLAGS_ABORT (g : Nat) : Fld := ⟨(LS_FLAGS g), 3, 3⟩
def LS_FLAGS_OVR (g : Nat) : Fld := ⟨(LS_FLAGS g), 2, 2⟩
def LS_FLAGS_COMPL (g : Nat) : Fld := ⟨(LS_FLAGS g), 1, 1⟩
def LS_FLAGS_ILIM (g : Nat) : Fld := ⟨(LS_FLAGS g), 0, 0⟩
/-- LS_CNT0, 04. -/
def LS_CNT0 (g : Nat) : Reg := ⟨groupBase g + 0x4004, 0x00000000⟩
def LS_CNT0_COMPL (g : Nat) : Fld := ⟨(LS_CNT0 g), 31, 16⟩
def LS_CNT0_ILIM (g : Nat) : Fld := ⟨(LS_CNT0 g), 15, 0⟩
/-- LS_CNT1, 04. -/
def LS_CNT1 (g : Nat) : Reg := ⟨groupBase g + 0x4008, 0x00000000⟩
def LS_CNT1_ABORT (g : Nat) : Fld := ⟨(LS_CNT1 g), 31, 16⟩
def LS_CNT1_OVR (g : Nat) : Fld := ⟨(LS_CNT1 g), 15, 0⟩
/-- LS_CNT2, 04. -/
def LS_CNT2 (g : Nat) : Reg := ⟨groupBase g + 0x400C, 0x00000000⟩
def LS_CNT2_RAIL (g : Nat) : Fld := ⟨(LS_CNT2 g), 31, 16⟩
def LS_CNT2_MERGE (g : Nat) : Fld := ⟨(LS_CNT2 g), 15, 0⟩
/-- LS_PARK, 04. -/
def LS_PARK (g : Nat) : Reg := ⟨groupBase g + 0x4010, 0x00000000⟩
def LS_PARK_PARK (g : Nat) : Fld := ⟨(LS_PARK g), 15, 0⟩
/-- LS_PARKSTAT, 04. -/
def LS_PARKSTAT (g : Nat) : Reg := ⟨groupBase g + 0x4014, 0x0000FFFF⟩
def LS_PARKSTAT_RANGE (g : Nat) : Fld := ⟨(LS_PARKSTAT g), 31, 16⟩
def LS_PARKSTAT_PARKED (g : Nat) : Fld := ⟨(LS_PARKSTAT g), 15, 0⟩
/-- LS_SELSTAT, 04. -/
def LS_SELSTAT (g : Nat) : Reg := ⟨groupBase g + 0x4018, 0x00000000⟩
def LS_SELSTAT_SEL (g : Nat) : Fld := ⟨(LS_SELSTAT g), 2, 0⟩
/-- LS_ILIMMAP, 04. -/
def LS_ILIMMAP (g : Nat) : Reg := ⟨groupBase g + 0x401C, 0x00000000⟩
def LS_ILIMMAP_MAP (g : Nat) : Fld := ⟨(LS_ILIMMAP g), 15, 0⟩
/-- LS_MREQ, 04. -/
def LS_MREQ (g : Nat) : Reg := ⟨groupBase g + 0x4020, 0x00000000⟩
def LS_MREQ_REQ (g : Nat) : Fld := ⟨(LS_MREQ g), 15, 0⟩
/-- LS_RAIL, 04. -/
def LS_RAIL (g : Nat) : Reg := ⟨groupBase g + 0x4030, 0xFED40320⟩
def LS_RAIL_VDRN (g : Nat) : Fld := ⟨(LS_RAIL g), 31, 16⟩
def LS_RAIL_VDRP (g : Nat) : Fld := ⟨(LS_RAIL g), 15, 0⟩
/-- LS_RAILMEAS, 04. -/
def LS_RAILMEAS (g : Nat) : Reg := ⟨groupBase g + 0x4034, 0x00000000⟩
def LS_RAILMEAS_VDRN (g : Nat) : Fld := ⟨(LS_RAILMEAS g), 31, 16⟩
def LS_RAILMEAS_VDRP (g : Nat) : Fld := ⟨(LS_RAILMEAS g), 15, 0⟩
/-- LS_DRV_p, 04. -/
def LS_DRV (g p : Nat) : Reg := ⟨groupBase g + 0x4100 + 0x20 * p, 0x00000000⟩
def LS_DRV_ILIM (g p : Nat) : Fld := ⟨(LS_DRV g p), 2, 2⟩
def LS_DRV_TERM (g p : Nat) : Fld := ⟨(LS_DRV g p), 1, 0⟩
/-- LS_PMU_p, 04. -/
def LS_PMU (g p : Nat) : Reg := ⟨groupBase g + 0x4104 + 0x20 * p, 0x00000000⟩
def LS_PMU_RANGE (g p : Nat) : Fld := ⟨(LS_PMU g p), 4, 2⟩
def LS_PMU_MODE (g p : Nat) : Fld := ⟨(LS_PMU g p), 1, 0⟩
/-- LS_SLEW_p, 04. -/
def LS_SLEW (g p : Nat) : Reg := ⟨groupBase g + 0x4108 + 0x20 * p, 0x0001FFFF⟩
def LS_SLEW_RATE (g p : Nat) : Fld := ⟨(LS_SLEW g p), 31, 16⟩
def LS_SLEW_STEP (g p : Nat) : Fld := ⟨(LS_SLEW g p), 15, 0⟩
/-- LS_SLEWEN_p, 04. -/
def LS_SLEWEN (g p : Nat) : Reg := ⟨groupBase g + 0x410C + 0x20 * p, 0x00000000⟩
def LS_SLEWEN_EN (g p : Nat) : Fld := ⟨(LS_SLEWEN g p), 5, 0⟩
/-- LS_MEAS_p, 04. -/
def LS_MEAS (g p : Nat) : Reg := ⟨groupBase g + 0x4110 + 0x20 * p, 0x0000000A⟩
def LS_MEAS_AUTO (g p : Nat) : Fld := ⟨(LS_MEAS g p), 31, 16⟩
def LS_MEAS_SUM_EN (g p : Nat) : Fld := ⟨(LS_MEAS g p), 12, 12⟩
def LS_MEAS_AVG (g p : Nat) : Fld := ⟨(LS_MEAS g p), 11, 8⟩
def LS_MEAS_SETTLE (g p : Nat) : Fld := ⟨(LS_MEAS g p), 7, 0⟩
/-- LS_MRES_p, 04. -/
def LS_MRES (g p : Nat) : Reg := ⟨groupBase g + 0x4114 + 0x20 * p, 0x00000000⟩
def LS_MRES_SEQ (g p : Nat) : Fld := ⟨(LS_MRES g p), 31, 20⟩
def LS_MRES_STAT (g p : Nat) : Fld := ⟨(LS_MRES g p), 19, 18⟩
def LS_MRES_VALUE (g p : Nat) : Fld := ⟨(LS_MRES g p), 17, 0⟩
/-- LS_DH_p_s, 04. -/
def LS_DH (g p s : Nat) : Reg := ⟨groupBase g + 0x4800 + 0x100 * p + 0x20 * s, 0x00005555⟩
def LS_DH_CODE (g p s : Nat) : Fld := ⟨(LS_DH g p s), 15, 0⟩
/-- LS_DL_p_s, 04. -/
def LS_DL (g p s : Nat) : Reg := ⟨groupBase g + 0x4804 + 0x100 * p + 0x20 * s, 0x000038E4⟩
def LS_DL_CODE (g p s : Nat) : Fld := ⟨(LS_DL g p s), 15, 0⟩
/-- LS_TH_p_s, 04. -/
def LS_TH (g p s : Nat) : Reg := ⟨groupBase g + 0x4808 + 0x100 * p + 0x20 * s, 0x0000471C⟩
def LS_TH_CODE (g p s : Nat) : Fld := ⟨(LS_TH g p s), 15, 0⟩
/-- LS_TL_p_s, 04. -/
def LS_TL (g p s : Nat) : Reg := ⟨groupBase g + 0x480C + 0x100 * p + 0x20 * s, 0x0000471C⟩
def LS_TL_CODE (g p s : Nat) : Fld := ⟨(LS_TL g p s), 15, 0⟩
/-- LS_VT_p_s, 04. -/
def LS_VT (g p s : Nat) : Reg := ⟨groupBase g + 0x4810 + 0x100 * p + 0x20 * s, 0x000038E4⟩
def LS_VT_CODE (g p s : Nat) : Fld := ⟨(LS_VT g p s), 15, 0⟩
/-- LS_PF_p_s, 04. -/
def LS_PF (g p s : Nat) : Reg := ⟨groupBase g + 0x4814 + 0x100 * p + 0x20 * s, 0x000038E4⟩
def LS_PF_CODE (g p s : Nat) : Fld := ⟨(LS_PF g p s), 15, 0⟩
/-- LS_CLR_p_d, 04. -/
def LS_CLR (g p d : Nat) : Reg := ⟨groupBase g + 0x5800 + 0x20 * p + 0x4 * d, 0x000038E4⟩
def LS_CLR_CODE (g p d : Nat) : Fld := ⟨(LS_CLR g p d), 15, 0⟩
/-- LS_OUT_p_d, 04. -/
def LS_OUT (g p d : Nat) : Reg := ⟨groupBase g + 0x5A00 + 0x20 * p + 0x4 * d, 0x000038E4⟩
def LS_OUT_CODE (g p d : Nat) : Fld := ⟨(LS_OUT g p d), 15, 0⟩
/-- CP_FLAGS, 05. -/
def CP_FLAGS (g : Nat) : Reg := ⟨groupBase g + 0x6000, 0x00000000⟩
def CP_FLAGS_SC_FAIL (g : Nat) : Fld := ⟨(CP_FLAGS g), 1, 1⟩
def CP_FLAGS_UNDECIDED (g : Nat) : Fld := ⟨(CP_FLAGS g), 0, 0⟩
/-- CP_CNT0, 05. -/
def CP_CNT0 (g : Nat) : Reg := ⟨groupBase g + 0x6004, 0x00000000⟩
def CP_CNT0_SC_FAIL (g : Nat) : Fld := ⟨(CP_CNT0 g), 31, 16⟩
def CP_CNT0_UNDECIDED (g : Nat) : Fld := ⟨(CP_CNT0 g), 15, 0⟩
/-- CP_CNT1, 05. -/
def CP_CNT1 (g : Nat) : Reg := ⟨groupBase g + 0x6008, 0x00000000⟩
def CP_CNT1_SCMASK (g : Nat) : Fld := ⟨(CP_CNT1 g), 15, 0⟩
/-- CP_STATUS, 05. -/
def CP_STATUS (g : Nat) : Reg := ⟨groupBase g + 0x6010, 0x00000000⟩
def CP_STATUS_VIOL (g : Nat) : Fld := ⟨(CP_STATUS g), 31, 16⟩
def CP_STATUS_VALID (g : Nat) : Fld := ⟨(CP_STATUS g), 15, 0⟩
/-- CP_STATE, 05. -/
def CP_STATE (g : Nat) : Reg := ⟨groupBase g + 0x6014, 0x55555555⟩
def CP_STATE_STATE (g : Nat) : Fld := ⟨(CP_STATE g), 31, 0⟩
/-- CP_SMDIV, 05. -/
def CP_SMDIV (g : Nat) : Reg := ⟨groupBase g + 0x6018, 0x00000000⟩
def CP_SMDIV_DIV (g : Nat) : Fld := ⟨(CP_SMDIV g), 3, 0⟩
/-- CP_SC_CTL, 05. -/
def CP_SC_CTL (g : Nat) : Reg := ⟨groupBase g + 0x6020, 0x3F000000⟩
def CP_SC_CTL_RUN (g : Nat) : Fld := ⟨(CP_SC_CTL g), 31, 31⟩
def CP_SC_CTL_STEPS (g : Nat) : Fld := ⟨(CP_SC_CTL g), 29, 24⟩
def CP_SC_CTL_PER (g : Nat) : Fld := ⟨(CP_SC_CTL g), 23, 16⟩
def CP_SC_CTL_MASK (g : Nat) : Fld := ⟨(CP_SC_CTL g), 15, 0⟩
/-- CP_SC_STAT, 05. -/
def CP_SC_STAT (g : Nat) : Reg := ⟨groupBase g + 0x6024, 0x00000000⟩
def CP_SC_STAT_FAILMAP (g : Nat) : Fld := ⟨(CP_SC_STAT g), 31, 16⟩
def CP_SC_STAT_STATE (g : Nat) : Fld := ⟨(CP_SC_STAT g), 1, 0⟩
/-- CP_SC_RES_p, 05. -/
def CP_SC_RES (g p : Nat) : Reg := ⟨groupBase g + 0x6080 + 0x4 * p, 0x00FFFFFF⟩
def CP_SC_RES_RES (g p : Nat) : Fld := ⟨(CP_SC_RES g p), 23, 0⟩
/-- CP_CMP_p, 05. -/
def CP_CMP (g p : Nat) : Reg := ⟨groupBase g + 0x6100 + 0x10 * p, 0x00110000⟩
def CP_CMP_N (g p : Nat) : Fld := ⟨(CP_CMP g p), 23, 20⟩
def CP_CMP_M (g p : Nat) : Fld := ⟨(CP_CMP g p), 19, 16⟩
def CP_CMP_HYS (g p : Nat) : Fld := ⟨(CP_CMP g p), 13, 8⟩
def CP_CMP_MODE (g p : Nat) : Fld := ⟨(CP_CMP g p), 1, 0⟩
/-- CP_WIN_p, 05. -/
def CP_WIN (g p : Nat) : Reg := ⟨groupBase g + 0x6104 + 0x10 * p, 0x00000000⟩
def CP_WIN_BLANK (g p : Nat) : Fld := ⟨(CP_WIN g p), 7, 4⟩
def CP_WIN_TSRC (g p : Nat) : Fld := ⟨(CP_WIN g p), 3, 3⟩
def CP_WIN_VIOL (g p : Nat) : Fld := ⟨(CP_WIN g p), 2, 0⟩
/-- CP_TRIP_p, 05. -/
def CP_TRIP (g p : Nat) : Reg := ⟨groupBase g + 0x6108 + 0x10 * p, 0x00000000⟩
def CP_TRIP_TARGET (g p : Nat) : Fld := ⟨(CP_TRIP g p), 31, 16⟩
def CP_TRIP_SOURCE (g p : Nat) : Fld := ⟨(CP_TRIP g p), 15, 0⟩
/-- CP_SM_CTL, 05. -/
def CP_SM_CTL (g : Nat) : Reg := ⟨groupBase g + 0x6040, 0x000403E8⟩
def CP_SM_CTL_WAKE (g : Nat) : Fld := ⟨(CP_SM_CTL g), 31, 31⟩
def CP_SM_CTL_WSRC (g : Nat) : Fld := ⟨(CP_SM_CTL g), 27, 24⟩
def CP_SM_CTL_BLEN (g : Nat) : Fld := ⟨(CP_SM_CTL g), 23, 20⟩
def CP_SM_CTL_BURST (g : Nat) : Fld := ⟨(CP_SM_CTL g), 19, 19⟩
def CP_SM_CTL_RUN (g : Nat) : Fld := ⟨(CP_SM_CTL g), 18, 18⟩
def CP_SM_CTL_PER (g : Nat) : Fld := ⟨(CP_SM_CTL g), 13, 0⟩
/-- CP_SM_STAT, 05. -/
def CP_SM_STAT (g : Nat) : Reg := ⟨groupBase g + 0x6044, 0x00000001⟩
def CP_SM_STAT_WAKES (g : Nat) : Fld := ⟨(CP_SM_STAT g), 31, 16⟩
def CP_SM_STAT_RUNNING (g : Nat) : Fld := ⟨(CP_SM_STAT g), 0, 0⟩
/-- CP_SM_WT_LO, 05. -/
def CP_SM_WT_LO (g : Nat) : Reg := ⟨groupBase g + 0x6048, 0x00000000⟩
def CP_SM_WT_LO_T_LO (g : Nat) : Fld := ⟨(CP_SM_WT_LO g), 31, 0⟩
/-- CP_SM_WT_HI, 05. -/
def CP_SM_WT_HI (g : Nat) : Reg := ⟨groupBase g + 0x604C, 0x00000000⟩
def CP_SM_WT_HI_T_HI (g : Nat) : Fld := ⟨(CP_SM_WT_HI g), 23, 0⟩
/-- CP_SM_WPER, 05. -/
def CP_SM_WPER (g : Nat) : Reg := ⟨groupBase g + 0x6050, 0x00000000⟩
def CP_SM_WPER_WPER (g : Nat) : Fld := ⟨(CP_SM_WPER g), 15, 0⟩
/-- CP_PARKN_CTL, 05. -/
def CP_PARKN_CTL (g : Nat) : Reg := ⟨groupBase g + 0x6054, 0x00000000⟩
def CP_PARKN_CTL_PRIO (g : Nat) : Fld := ⟨(CP_PARKN_CTL g), 8, 6⟩
def CP_PARKN_CTL_CTX (g : Nat) : Fld := ⟨(CP_PARKN_CTL g), 5, 1⟩
def CP_PARKN_CTL_EN (g : Nat) : Fld := ⟨(CP_PARKN_CTL g), 0, 0⟩
/-- CP_PFLAGS, 05. -/
def CP_PFLAGS (g : Nat) : Reg := ⟨groupBase g + 0x6058, 0x00000000⟩
def CP_PFLAGS_PARKN (g : Nat) : Fld := ⟨(CP_PFLAGS g), 0, 0⟩
/-- CP_PCNT, 05. -/
def CP_PCNT (g : Nat) : Reg := ⟨groupBase g + 0x605C, 0x00000000⟩
def CP_PCNT_PARKN (g : Nat) : Fld := ⟨(CP_PCNT g), 15, 0⟩
/-- CP_TGEN, 05. -/
def CP_TGEN (g : Nat) : Reg := ⟨groupBase g + 0x6400, 0x00000000⟩
def CP_TGEN_EN (g : Nat) : Fld := ⟨(CP_TGEN g), 15, 0⟩
/-- CP_TGSTAT, 05. -/
def CP_TGSTAT (g : Nat) : Reg := ⟨groupBase g + 0x6404, 0x00000000⟩
def CP_TGSTAT_VIOL (g : Nat) : Fld := ⟨(CP_TGSTAT g), 31, 16⟩
def CP_TGSTAT_LATCHED (g : Nat) : Fld := ⟨(CP_TGSTAT g), 15, 0⟩
/-- CP_TGARM, 05. -/
def CP_TGARM (g : Nat) : Reg := ⟨groupBase g + 0x6408, 0x00000000⟩
def CP_TGARM_ARM (g : Nat) : Fld := ⟨(CP_TGARM g), 15, 0⟩
/-- CP_TFLAGS, 05. -/
def CP_TFLAGS (g : Nat) : Reg := ⟨groupBase g + 0x640C, 0x00000000⟩
def CP_TFLAGS_REARM_REFUSED (g : Nat) : Fld := ⟨(CP_TFLAGS g), 1, 1⟩
def CP_TFLAGS_TRIP (g : Nat) : Fld := ⟨(CP_TFLAGS g), 0, 0⟩
/-- CP_TCNT0, 05. -/
def CP_TCNT0 (g : Nat) : Reg := ⟨groupBase g + 0x6410, 0x00000000⟩
def CP_TCNT0_REARM_REFUSED (g : Nat) : Fld := ⟨(CP_TCNT0 g), 31, 16⟩
def CP_TCNT0_TRIP (g : Nat) : Fld := ⟨(CP_TCNT0 g), 15, 0⟩
/-- CP_TGCAUSE_t, 05. -/
def CP_TGCAUSE (g t : Nat) : Reg := ⟨groupBase g + 0x6440 + 0x4 * t, 0x00000000⟩
def CP_TGCAUSE_SNAP (g t : Nat) : Fld := ⟨(CP_TGCAUSE g t), 9, 9⟩
def CP_TGCAUSE_PRIO (g t : Nat) : Fld := ⟨(CP_TGCAUSE g t), 8, 6⟩
def CP_TGCAUSE_CTX (g t : Nat) : Fld := ⟨(CP_TGCAUSE g t), 5, 1⟩
def CP_TGCAUSE_CAUSE_EN (g t : Nat) : Fld := ⟨(CP_TGCAUSE g t), 0, 0⟩
/-- CP_TGREC_t_LO, 05. -/
def CP_TGREC_LO (g t : Nat) : Reg := ⟨groupBase g + 0x6480 + 0x8 * t, 0x00000000⟩
def CP_TGREC_LO_T_LO (g t : Nat) : Fld := ⟨(CP_TGREC_LO g t), 31, 0⟩
/-- CP_TGREC_t_HI, 05. -/
def CP_TGREC_HI (g t : Nat) : Reg := ⟨groupBase g + 0x6484 + 0x8 * t, 0x00000000⟩
def CP_TGREC_HI_SRC (g t : Nat) : Fld := ⟨(CP_TGREC_HI g t), 30, 24⟩
def CP_TGREC_HI_T_HI (g t : Nat) : Fld := ⟨(CP_TGREC_HI g t), 23, 0⟩
/-- TD_FLAGS, 06. -/
def TD_FLAGS (g : Nat) : Reg := ⟨groupBase g + 0x7000, 0x00000000⟩
def TD_FLAGS_NOEN (g : Nat) : Fld := ⟨(TD_FLAGS g), 5, 5⟩
def TD_FLAGS_WIN_SPACE (g : Nat) : Fld := ⟨(TD_FLAGS g), 4, 4⟩
def TD_FLAGS_EV_DROP (g : Nat) : Fld := ⟨(TD_FLAGS g), 3, 3⟩
def TD_FLAGS_STOP_LOST (g : Nat) : Fld := ⟨(TD_FLAGS g), 2, 2⟩
def TD_FLAGS_SWAP_SKIP (g : Nat) : Fld := ⟨(TD_FLAGS g), 1, 1⟩
def TD_FLAGS_CAL_ERR (g : Nat) : Fld := ⟨(TD_FLAGS g), 0, 0⟩
/-- TD_CNT0, 06. -/
def TD_CNT0 (g : Nat) : Reg := ⟨groupBase g + 0x7004, 0x00000000⟩
def TD_CNT0_SWAP_SKIP (g : Nat) : Fld := ⟨(TD_CNT0 g), 31, 16⟩
def TD_CNT0_CAL_ERR (g : Nat) : Fld := ⟨(TD_CNT0 g), 15, 0⟩
/-- TD_CNT1, 06. -/
def TD_CNT1 (g : Nat) : Reg := ⟨groupBase g + 0x7008, 0x00000000⟩
def TD_CNT1_WIN_SPACE (g : Nat) : Fld := ⟨(TD_CNT1 g), 31, 16⟩
def TD_CNT1_NOEN (g : Nat) : Fld := ⟨(TD_CNT1 g), 15, 0⟩
/-- TD_EVDROP, 06. -/
def TD_EVDROP (g : Nat) : Reg := ⟨groupBase g + 0x700C, 0x00000000⟩
def TD_EVDROP_DROP (g : Nat) : Fld := ⟨(TD_EVDROP g), 31, 0⟩
/-- TD_CAL_CTL, 06. -/
def TD_CAL_CTL (g : Nat) : Reg := ⟨groupBase g + 0x7010, 0x00010000⟩
def TD_CAL_CTL_FREEZE (g : Nat) : Fld := ⟨(TD_CAL_CTL g), 20, 20⟩
def TD_CAL_CTL_SWSH (g : Nat) : Fld := ⟨(TD_CAL_CTL g), 18, 16⟩
def TD_CAL_CTL_CALN (g : Nat) : Fld := ⟨(TD_CAL_CTL g), 2, 0⟩
/-- TD_CAL_STAT, 06. -/
def TD_CAL_STAT (g : Nat) : Reg := ⟨groupBase g + 0x7014, 0x00000000⟩
def TD_CAL_STAT_LIVEMAP (g : Nat) : Fld := ⟨(TD_CAL_STAT g), 31, 16⟩
def TD_CAL_STAT_ACTIVE (g : Nat) : Fld := ⟨(TD_CAL_STAT g), 15, 0⟩
/-- TD_SWAP_TLO, 06. -/
def TD_SWAP_TLO (g : Nat) : Reg := ⟨groupBase g + 0x7018, 0x00000000⟩
def TD_SWAP_TLO_T_LO (g : Nat) : Fld := ⟨(TD_SWAP_TLO g), 31, 0⟩
/-- TD_SWAP_THI, 06. -/
def TD_SWAP_THI (g : Nat) : Reg := ⟨groupBase g + 0x701C, 0x00000000⟩
def TD_SWAP_THI_T_HI (g : Nat) : Fld := ⟨(TD_SWAP_THI g), 23, 0⟩
/-- TD_SRC_RATE, 06. -/
def TD_SRC_RATE (g : Nat) : Reg := ⟨groupBase g + 0x7020, 0x00000000⟩
def TD_SRC_RATE_RATE (g : Nat) : Fld := ⟨(TD_SRC_RATE g), 31, 0⟩
/-- TD_BT_ADDR, 06. -/
def TD_BT_ADDR (g : Nat) : Reg := ⟨groupBase g + 0x7024, 0x00000000⟩
def TD_BT_ADDR_LINE (g : Nat) : Fld := ⟨(TD_BT_ADDR g), 14, 14⟩
def TD_BT_ADDR_POS (g : Nat) : Fld := ⟨(TD_BT_ADDR g), 13, 10⟩
def TD_BT_ADDR_BIN (g : Nat) : Fld := ⟨(TD_BT_ADDR g), 8, 0⟩
/-- TD_BT_DATA, 06. -/
def TD_BT_DATA (g : Nat) : Reg := ⟨groupBase g + 0x7028, 0x00000080⟩
def TD_BT_DATA_WIDTH (g : Nat) : Fld := ⟨(TD_BT_DATA g), 15, 0⟩
/-- TD_EV_CTL, 06. -/
def TD_EV_CTL (g : Nat) : Reg := ⟨groupBase g + 0x7030, 0x00400000⟩
def TD_EV_CTL_CAP (g : Nat) : Fld := ⟨(TD_EV_CTL g), 28, 16⟩
def TD_EV_CTL_PRIO (g : Nat) : Fld := ⟨(TD_EV_CTL g), 8, 6⟩
def TD_EV_CTL_CTX (g : Nat) : Fld := ⟨(TD_EV_CTL g), 5, 1⟩
def TD_EV_CTL_CAUSE_EN (g : Nat) : Fld := ⟨(TD_EV_CTL g), 0, 0⟩
/-- TD_XWIN_CTL, 06. -/
def TD_XWIN_CTL (g : Nat) : Reg := ⟨groupBase g + 0x7040, 0x00000000⟩
def TD_XWIN_CTL_MASK (g : Nat) : Fld := ⟨(TD_XWIN_CTL g), 31, 16⟩
def TD_XWIN_CTL_SLOT (g : Nat) : Fld := ⟨(TD_XWIN_CTL g), 15, 12⟩
def TD_XWIN_CTL_REFSH (g : Nat) : Fld := ⟨(TD_XWIN_CTL g), 11, 8⟩
def TD_XWIN_CTL_KIND (g : Nat) : Fld := ⟨(TD_XWIN_CTL g), 5, 4⟩
def TD_XWIN_CTL_SRC (g : Nat) : Fld := ⟨(TD_XWIN_CTL g), 1, 0⟩
/-- TD_XWIN_LEN, 06. -/
def TD_XWIN_LEN (g : Nat) : Reg := ⟨groupBase g + 0x7044, 0x00000400⟩
def TD_XWIN_LEN_LEN (g : Nat) : Fld := ⟨(TD_XWIN_LEN g), 23, 0⟩
/-- TD_CH_p, 06. -/
def TD_CH (g p : Nat) : Reg := ⟨groupBase g + 0x7100 + 0x4 * p, 0x00000028⟩
def TD_CH_CMPW (g p : Nat) : Fld := ⟨(TD_CH g p), 15, 15⟩
def TD_CH_LIMIT (g p : Nat) : Fld := ⟨(TD_CH g p), 11, 8⟩
def TD_CH_LEVEL (g p : Nat) : Fld := ⟨(TD_CH g p), 5, 4⟩
def TD_CH_SLOPE (g p : Nat) : Fld := ⟨(TD_CH g p), 3, 2⟩
def TD_CH_EN (g p : Nat) : Fld := ⟨(TD_CH g p), 0, 0⟩
/-- TD_LOST_p, 06. -/
def TD_LOST (g p : Nat) : Reg := ⟨groupBase g + 0x7140 + 0x4 * p, 0x00000000⟩
def TD_LOST_LOST (g p : Nat) : Fld := ⟨(TD_LOST g p), 31, 0⟩
/-- TD_ALIGN_p, 06. -/
def TD_ALIGN (g p : Nat) : Reg := ⟨groupBase g + 0x7180 + 0x4 * p, 0x00000000⟩
def TD_ALIGN_A (g p : Nat) : Fld := ⟨(TD_ALIGN g p), 31, 16⟩
def TD_ALIGN_DA (g p : Nat) : Fld := ⟨(TD_ALIGN g p), 15, 0⟩
/-- FQ_FLAGS, 06. -/
def FQ_FLAGS (g : Nat) : Reg := ⟨groupBase g + 0x8000, 0x00000000⟩
def FQ_FLAGS_ABORT (g : Nat) : Fld := ⟨(FQ_FLAGS g), 2, 2⟩
def FQ_FLAGS_FEW (g : Nat) : Fld := ⟨(FQ_FLAGS g), 1, 1⟩
def FQ_FLAGS_LOSS (g : Nat) : Fld := ⟨(FQ_FLAGS g), 0, 0⟩
/-- FQ_CNT0, 06. -/
def FQ_CNT0 (g : Nat) : Reg := ⟨groupBase g + 0x8004, 0x00000000⟩
def FQ_CNT0_FEW (g : Nat) : Fld := ⟨(FQ_CNT0 g), 31, 16⟩
def FQ_CNT0_LOSS (g : Nat) : Fld := ⟨(FQ_CNT0 g), 15, 0⟩
/-- FQ_CNT1, 06. -/
def FQ_CNT1 (g : Nat) : Reg := ⟨groupBase g + 0x8008, 0x00000000⟩
def FQ_CNT1_ABORT (g : Nat) : Fld := ⟨(FQ_CNT1 g), 15, 0⟩
/-- FQ_CTL, 06. -/
def FQ_CTL (g : Nat) : Reg := ⟨groupBase g + 0x800C, 0x00000000⟩
def FQ_CTL_START (g : Nat) : Fld := ⟨(FQ_CTL g), 31, 31⟩
def FQ_CTL_STOP (g : Nat) : Fld := ⟨(FQ_CTL g), 30, 30⟩
def FQ_CTL_REPEAT (g : Nat) : Fld := ⟨(FQ_CTL g), 0, 0⟩
/-- FQ_GATE, 06. -/
def FQ_GATE (g : Nat) : Reg := ⟨groupBase g + 0x8010, 0x000F4240⟩
def FQ_GATE_GATE (g : Nat) : Fld := ⟨(FQ_GATE g), 31, 0⟩
/-- FQ_STAT, 06. -/
def FQ_STAT (g : Nat) : Reg := ⟨groupBase g + 0x8014, 0x00000000⟩
def FQ_STAT_GSEQ (g : Nat) : Fld := ⟨(FQ_STAT g), 31, 16⟩
def FQ_STAT_OPEN (g : Nat) : Fld := ⟨(FQ_STAT g), 0, 0⟩
/-- FQ_GSTART_LO, 06. -/
def FQ_GSTART_LO (g : Nat) : Reg := ⟨groupBase g + 0x8018, 0x00000000⟩
def FQ_GSTART_LO_T_LO (g : Nat) : Fld := ⟨(FQ_GSTART_LO g), 31, 0⟩
/-- FQ_GSTART_HI, 06. -/
def FQ_GSTART_HI (g : Nat) : Reg := ⟨groupBase g + 0x801C, 0x00000000⟩
def FQ_GSTART_HI_T_HI (g : Nat) : Fld := ⟨(FQ_GSTART_HI g), 23, 0⟩
/-- FQ_AGE, 06. -/
def FQ_AGE (g : Nat) : Reg := ⟨groupBase g + 0x8020, 0x00000000⟩
def FQ_AGE_RING (g : Nat) : Fld := ⟨(FQ_AGE g), 31, 31⟩
def FQ_AGE_SEL (g : Nat) : Fld := ⟨(FQ_AGE g), 17, 16⟩
def FQ_AGE_PRESC (g : Nat) : Fld := ⟨(FQ_AGE g), 15, 0⟩
/-- FQ_CH_p, 06. -/
def FQ_CH (g p : Nat) : Reg := ⟨groupBase g + 0x8080 + 0x4 * p, 0x00000000⟩
def FQ_CH_RING (g p : Nat) : Fld := ⟨(FQ_CH g p), 31, 31⟩
def FQ_CH_PRESC (g p : Nat) : Fld := ⟨(FQ_CH g p), 15, 0⟩
/-- FQ_RF_LO_s, 06. -/
def FQ_RF_LO (g s : Nat) : Reg := ⟨groupBase g + 0x8100 + 0x10 * s, 0x00000000⟩
def FQ_RF_LO_F_LO (g s : Nat) : Fld := ⟨(FQ_RF_LO g s), 31, 0⟩
/-- FQ_RF_HI_s, 06. -/
def FQ_RF_HI (g s : Nat) : Reg := ⟨groupBase g + 0x8104 + 0x10 * s, 0x00000000⟩
def FQ_RF_HI_F_HI (g s : Nat) : Fld := ⟨(FQ_RF_HI g s), 31, 0⟩
/-- FQ_RN_s, 06. -/
def FQ_RN (g s : Nat) : Reg := ⟨groupBase g + 0x8108 + 0x10 * s, 0x00000000⟩
def FQ_RN_N (g s : Nat) : Fld := ⟨(FQ_RN g s), 31, 0⟩
/-- FQ_RSTAT_s, 06. -/
def FQ_RSTAT (g s : Nat) : Reg := ⟨groupBase g + 0x810C + 0x10 * s, 0x00000003⟩
def FQ_RSTAT_SEQ (g s : Nat) : Fld := ⟨(FQ_RSTAT g s), 7, 4⟩
def FQ_RSTAT_STAT (g s : Nat) : Fld := ⟨(FQ_RSTAT g s), 1, 0⟩
/-- FC_FLAGS, 07. -/
def FC_FLAGS (g : Nat) : Reg := ⟨groupBase g + 0x9000, 0x00000000⟩
def FC_FLAGS_CAPDONE (g : Nat) : Fld := ⟨(FC_FLAGS g), 5, 5⟩
def FC_FLAGS_CAPTRIG (g : Nat) : Fld := ⟨(FC_FLAGS g), 4, 4⟩
def FC_FLAGS_SUMDISC (g : Nat) : Fld := ⟨(FC_FLAGS g), 3, 3⟩
def FC_FLAGS_EVLOST (g : Nat) : Fld := ⟨(FC_FLAGS g), 2, 2⟩
def FC_FLAGS_LOGLOST (g : Nat) : Fld := ⟨(FC_FLAGS g), 1, 1⟩
def FC_FLAGS_LOGCAP (g : Nat) : Fld := ⟨(FC_FLAGS g), 0, 0⟩
/-- FC_CNT0, 07. -/
def FC_CNT0 (g : Nat) : Reg := ⟨groupBase g + 0x9004, 0x00000000⟩
def FC_CNT0_LOGLOST (g : Nat) : Fld := ⟨(FC_CNT0 g), 31, 16⟩
def FC_CNT0_EVLOST (g : Nat) : Fld := ⟨(FC_CNT0 g), 15, 0⟩
/-- FC_CNT1, 07. -/
def FC_CNT1 (g : Nat) : Reg := ⟨groupBase g + 0x9008, 0x00000000⟩
def FC_CNT1_SUMDISC (g : Nat) : Fld := ⟨(FC_CNT1 g), 15, 0⟩
/-- FC_CNT2, 07. -/
def FC_CNT2 (g : Nat) : Reg := ⟨groupBase g + 0x900C, 0x00000000⟩
def FC_CNT2_CAPDONE (g : Nat) : Fld := ⟨(FC_CNT2 g), 31, 16⟩
def FC_CNT2_CAPTRIG (g : Nat) : Fld := ⟨(FC_CNT2 g), 15, 0⟩
/-- FC_SUM_CTL, 07. -/
def FC_SUM_CTL (g : Nat) : Reg := ⟨groupBase g + 0x9010, 0x0000010C⟩
def FC_SUM_CTL_ALIGN (g : Nat) : Fld := ⟨(FC_SUM_CTL g), 9, 9⟩
def FC_SUM_CTL_EN (g : Nat) : Fld := ⟨(FC_SUM_CTL g), 8, 8⟩
def FC_SUM_CTL_K (g : Nat) : Fld := ⟨(FC_SUM_CTL g), 4, 0⟩
/-- FC_SUM_STAT, 07. -/
def FC_SUM_STAT (g : Nat) : Reg := ⟨groupBase g + 0x9014, 0x00000000⟩
def FC_SUM_STAT_ISEQ (g : Nat) : Fld := ⟨(FC_SUM_STAT g), 31, 26⟩
def FC_SUM_STAT_NCUR (g : Nat) : Fld := ⟨(FC_SUM_STAT g), 20, 0⟩
/-- FC_VCNT_LO, 07. -/
def FC_VCNT_LO (g : Nat) : Reg := ⟨groupBase g + 0x9018, 0x00000000⟩
def FC_VCNT_LO_V_LO (g : Nat) : Fld := ⟨(FC_VCNT_LO g), 31, 0⟩
/-- FC_VCNT_HI, 07. -/
def FC_VCNT_HI (g : Nat) : Reg := ⟨groupBase g + 0x901C, 0x00000000⟩
def FC_VCNT_HI_V_HI (g : Nat) : Fld := ⟨(FC_VCNT_HI g), 8, 0⟩
/-- FC_CAUSE, 07. -/
def FC_CAUSE (g : Nat) : Reg := ⟨groupBase g + 0x9020, 0x00000000⟩
def FC_CAUSE_MODE (g : Nat) : Fld := ⟨(FC_CAUSE g), 9, 9⟩
def FC_CAUSE_PRIO (g : Nat) : Fld := ⟨(FC_CAUSE g), 8, 6⟩
def FC_CAUSE_CTX (g : Nat) : Fld := ⟨(FC_CAUSE g), 5, 1⟩
def FC_CAUSE_EN (g : Nat) : Fld := ⟨(FC_CAUSE g), 0, 0⟩
/-- FC_LOG_CTL, 07. -/
def FC_LOG_CTL (g : Nat) : Reg := ⟨groupBase g + 0x9030, 0x00010010⟩
def FC_LOG_CTL_MODE (g : Nat) : Fld := ⟨(FC_LOG_CTL g), 17, 17⟩
def FC_LOG_CTL_HOST (g : Nat) : Fld := ⟨(FC_LOG_CTL g), 16, 16⟩
def FC_LOG_CTL_CAP (g : Nat) : Fld := ⟨(FC_LOG_CTL g), 11, 0⟩
/-- FC_LOG_PTR, 07. -/
def FC_LOG_PTR (g : Nat) : Reg := ⟨groupBase g + 0x9034, 0x00000000⟩
def FC_LOG_PTR_RPTR (g : Nat) : Fld := ⟨(FC_LOG_PTR g), 28, 16⟩
def FC_LOG_PTR_WPTR (g : Nat) : Fld := ⟨(FC_LOG_PTR g), 12, 0⟩
/-- FC_LOGDROP, 07. -/
def FC_LOGDROP (g : Nat) : Reg := ⟨groupBase g + 0x903C, 0x00000000⟩
def FC_LOGDROP_DROP (g : Nat) : Fld := ⟨(FC_LOGDROP g), 31, 0⟩
/-- FC_CAP_CFG, 07. -/
def FC_CAP_CFG (g : Nat) : Reg := ⟨groupBase g + 0x9040, 0x0000000A⟩
def FC_CAP_CFG_TSRC (g : Nat) : Fld := ⟨(FC_CAP_CFG g), 3, 1⟩
def FC_CAP_CFG_EN (g : Nat) : Fld := ⟨(FC_CAP_CFG g), 0, 0⟩
/-- FC_CAP_ARM, 07. -/
def FC_CAP_ARM (g : Nat) : Reg := ⟨groupBase g + 0x9044, 0x00000000⟩
def FC_CAP_ARM_STOP (g : Nat) : Fld := ⟨(FC_CAP_ARM g), 2, 2⟩
def FC_CAP_ARM_FORCE (g : Nat) : Fld := ⟨(FC_CAP_ARM g), 1, 1⟩
def FC_CAP_ARM_ARM (g : Nat) : Fld := ⟨(FC_CAP_ARM g), 0, 0⟩
/-- FC_CAP_POST, 07. -/
def FC_CAP_POST (g : Nat) : Reg := ⟨groupBase g + 0x9048, 0x00020000⟩
def FC_CAP_POST_POST (g : Nat) : Fld := ⟨(FC_CAP_POST g), 31, 0⟩
/-- FC_CAP_STAT, 07. -/
def FC_CAP_STAT (g : Nat) : Reg := ⟨groupBase g + 0x904C, 0x00000000⟩
def FC_CAP_STAT_STATE (g : Nat) : Fld := ⟨(FC_CAP_STAT g), 31, 30⟩
def FC_CAP_STAT_PRE (g : Nat) : Fld := ⟨(FC_CAP_STAT g), 18, 0⟩
/-- FC_CAP_CNT, 07. -/
def FC_CAP_CNT (g : Nat) : Reg := ⟨groupBase g + 0x9050, 0x00000000⟩
def FC_CAP_CNT_POSTN (g : Nat) : Fld := ⟨(FC_CAP_CNT g), 18, 0⟩
/-- FC_CAP_FIRST, 07. -/
def FC_CAP_FIRST (g : Nat) : Reg := ⟨groupBase g + 0x9054, 0x00000000⟩
def FC_CAP_FIRST_ADDR (g : Nat) : Fld := ⟨(FC_CAP_FIRST g), 16, 0⟩
/-- FC_CAP_TVC_LO, 07. -/
def FC_CAP_TVC_LO (g : Nat) : Reg := ⟨groupBase g + 0x9058, 0x00000000⟩
def FC_CAP_TVC_LO_V_LO (g : Nat) : Fld := ⟨(FC_CAP_TVC_LO g), 31, 0⟩
/-- FC_CAP_TVC_HI, 07. -/
def FC_CAP_TVC_HI (g : Nat) : Reg := ⟨groupBase g + 0x905C, 0x00000000⟩
def FC_CAP_TVC_HI_V_HI (g : Nat) : Fld := ⟨(FC_CAP_TVC_HI g), 8, 0⟩
/-- FC_CAP_TT_LO, 07. -/
def FC_CAP_TT_LO (g : Nat) : Reg := ⟨groupBase g + 0x9060, 0x00000000⟩
def FC_CAP_TT_LO_T_LO (g : Nat) : Fld := ⟨(FC_CAP_TT_LO g), 31, 0⟩
/-- FC_CAP_TT_HI, 07. -/
def FC_CAP_TT_HI (g : Nat) : Reg := ⟨groupBase g + 0x9064, 0x00000000⟩
def FC_CAP_TT_HI_T_HI (g : Nat) : Fld := ⟨(FC_CAP_TT_HI g), 23, 0⟩
/-- FC_EV_CTL, 07. -/
def FC_EV_CTL (g : Nat) : Reg := ⟨groupBase g + 0x9070, 0x00000001⟩
def FC_EV_CTL_MODE (g : Nat) : Fld := ⟨(FC_EV_CTL g), 1, 1⟩
def FC_EV_CTL_DMA (g : Nat) : Fld := ⟨(FC_EV_CTL g), 0, 0⟩
/-- FC_EV_PTR, 07. -/
def FC_EV_PTR (g : Nat) : Reg := ⟨groupBase g + 0x9074, 0x00000000⟩
def FC_EV_PTR_RPTR (g : Nat) : Fld := ⟨(FC_EV_PTR g), 29, 16⟩
def FC_EV_PTR_WPTR (g : Nat) : Fld := ⟨(FC_EV_PTR g), 13, 0⟩
/-- FC_S1REF_p, 07. -/
def FC_S1REF (g p : Nat) : Reg := ⟨groupBase g + 0x9100 + 0x4 * p, 0x00000000⟩
def FC_S1REF_REFEN (g p : Nat) : Fld := ⟨(FC_S1REF g p), 31, 31⟩
def FC_S1REF_REF (g p : Nat) : Fld := ⟨(FC_S1REF g p), 23, 0⟩
/-- AQ_FLAGS, 07. -/
def AQ_FLAGS : Reg := ⟨0x400000, 0x00000000⟩
def AQ_FLAGS_FIRE : Fld := ⟨AQ_FLAGS, 3, 0⟩
/-- AQ_TOUT_CTL, 07. -/
def AQ_TOUT_CTL : Reg := ⟨0x400010, 0x00000000⟩
def AQ_TOUT_CTL_WID1 : Fld := ⟨AQ_TOUT_CTL, 14, 11⟩
def AQ_TOUT_CTL_SRC1 : Fld := ⟨AQ_TOUT_CTL, 10, 8⟩
def AQ_TOUT_CTL_WID0 : Fld := ⟨AQ_TOUT_CTL, 6, 3⟩
def AQ_TOUT_CTL_SRC0 : Fld := ⟨AQ_TOUT_CTL, 2, 0⟩
/-- AQ_SOFT, 07. -/
def AQ_SOFT : Reg := ⟨0x400014, 0x00000000⟩
def AQ_SOFT_SOFT : Fld := ⟨AQ_SOFT, 3, 0⟩
/-- AQ_TEn_CTL, 07. -/
def AQ_TE_CTL (n : Nat) : Reg := ⟨0x400100 + 0x40 * n, 0x00000000⟩
def AQ_TE_CTL_HMODE (n : Nat) : Fld := ⟨(AQ_TE_CTL n), 9, 8⟩
def AQ_TE_CTL_AUTO (n : Nat) : Fld := ⟨(AQ_TE_CTL n), 7, 7⟩
def AQ_TE_CTL_REF (n : Nat) : Fld := ⟨(AQ_TE_CTL n), 6, 2⟩
def AQ_TE_CTL_EN (n : Nat) : Fld := ⟨(AQ_TE_CTL n), 0, 0⟩
/-- AQ_TEn_ARM, 07. -/
def AQ_TE_ARM (n : Nat) : Reg := ⟨0x400104 + 0x40 * n, 0x00000000⟩
def AQ_TE_ARM_DISARM (n : Nat) : Fld := ⟨(AQ_TE_ARM n), 1, 1⟩
def AQ_TE_ARM_ARM (n : Nat) : Fld := ⟨(AQ_TE_ARM n), 0, 0⟩
/-- AQ_TEn_HOLD, 07. -/
def AQ_TE_HOLD (n : Nat) : Reg := ⟨0x400108 + 0x40 * n, 0x00000000⟩
def AQ_TE_HOLD_HOLD (n : Nat) : Fld := ⟨(AQ_TE_HOLD n), 31, 0⟩
/-- AQ_TEn_OUT, 07. -/
def AQ_TE_OUT (n : Nat) : Reg := ⟨0x40010C + 0x40 * n, 0x00000000⟩
def AQ_TE_OUT_SNAP (n : Nat) : Fld := ⟨(AQ_TE_OUT n), 9, 9⟩
def AQ_TE_OUT_PRIO (n : Nat) : Fld := ⟨(AQ_TE_OUT n), 8, 6⟩
def AQ_TE_OUT_CTX (n : Nat) : Fld := ⟨(AQ_TE_OUT n), 5, 1⟩
def AQ_TE_OUT_CAUSE_EN (n : Nat) : Fld := ⟨(AQ_TE_OUT n), 0, 0⟩
/-- AQ_TEn_ENG, 07. -/
def AQ_TE_ENG (n : Nat) : Reg := ⟨0x400110 + 0x40 * n, 0x00000000⟩
def AQ_TE_ENG_ENG (n : Nat) : Fld := ⟨(AQ_TE_ENG n), 31, 0⟩
/-- AQ_TEn_STAT, 07. -/
def AQ_TE_STAT (n : Nat) : Reg := ⟨0x400114 + 0x40 * n, 0x00000000⟩
def AQ_TE_STAT_FIRES (n : Nat) : Fld := ⟨(AQ_TE_STAT n), 31, 16⟩
def AQ_TE_STAT_STAGE (n : Nat) : Fld := ⟨(AQ_TE_STAT n), 3, 2⟩
def AQ_TE_STAT_STATE (n : Nat) : Fld := ⟨(AQ_TE_STAT n), 1, 0⟩
/-- AQ_TEn_FT_LO, 07. -/
def AQ_TE_FT_LO (n : Nat) : Reg := ⟨0x400118 + 0x40 * n, 0x00000000⟩
def AQ_TE_FT_LO_T_LO (n : Nat) : Fld := ⟨(AQ_TE_FT_LO n), 31, 0⟩
/-- AQ_TEn_FT_HI, 07. -/
def AQ_TE_FT_HI (n : Nat) : Reg := ⟨0x40011C + 0x40 * n, 0x00000000⟩
def AQ_TE_FT_HI_T_HI (n : Nat) : Fld := ⟨(AQ_TE_FT_HI n), 23, 0⟩
/-- AQ_TEn_Sm_CTL, 07. -/
def AQ_TE_S_CTL (n m : Nat) : Reg := ⟨0x400200 + 0x80 * n + 0x20 * m, 0x00000000⟩
def AQ_TE_S_CTL_COUNT (n m : Nat) : Fld := ⟨(AQ_TE_S_CTL n m), 31, 16⟩
def AQ_TE_S_CTL_NST (n m : Nat) : Fld := ⟨(AQ_TE_S_CTL n m), 5, 4⟩
def AQ_TE_S_CTL_EXT (n m : Nat) : Fld := ⟨(AQ_TE_S_CTL n m), 3, 2⟩
def AQ_TE_S_CTL_MARK (n m : Nat) : Fld := ⟨(AQ_TE_S_CTL n m), 1, 1⟩
def AQ_TE_S_CTL_OP (n m : Nat) : Fld := ⟨(AQ_TE_S_CTL n m), 0, 0⟩
/-- AQ_TEn_Sm_WIN, 07. -/
def AQ_TE_S_WIN (n m : Nat) : Reg := ⟨0x400204 + 0x80 * n + 0x20 * m, 0x00000000⟩
def AQ_TE_S_WIN_WIN (n m : Nat) : Fld := ⟨(AQ_TE_S_WIN n m), 31, 0⟩
/-- AQ_TEn_Sm_PATw, 07. -/
def AQ_TE_S_PAT (n m w : Nat) : Reg := ⟨0x401000 + 0x400 * n + 0x100 * m + 0x4 * w, 0x00000000⟩
def AQ_TE_S_PAT_PAT (n m w : Nat) : Fld := ⟨(AQ_TE_S_PAT n m w), 31, 0⟩
/-- WP_FLAGS, 08. -/
def WP_FLAGS (g : Nat) : Reg := ⟨groupBase g + 0xA000, 0x00000000⟩
def WP_FLAGS_HOVF (g : Nat) : Fld := ⟨(WP_FLAGS g), 3, 3⟩
def WP_FLAGS_SKIP (g : Nat) : Fld := ⟨(WP_FLAGS g), 2, 2⟩
def WP_FLAGS_SCLAMP (g : Nat) : Fld := ⟨(WP_FLAGS g), 1, 1⟩
def WP_FLAGS_UNDR (g : Nat) : Fld := ⟨(WP_FLAGS g), 0, 0⟩
/-- WP_CNT0, 08. -/
def WP_CNT0 (g : Nat) : Reg := ⟨groupBase g + 0xA004, 0x00000000⟩
def WP_CNT0_SCLAMP (g : Nat) : Fld := ⟨(WP_CNT0 g), 31, 16⟩
def WP_CNT0_UNDR (g : Nat) : Fld := ⟨(WP_CNT0 g), 15, 0⟩
/-- WP_CNT1, 08. -/
def WP_CNT1 (g : Nat) : Reg := ⟨groupBase g + 0xA008, 0x00000000⟩
def WP_CNT1_HOVF (g : Nat) : Fld := ⟨(WP_CNT1 g), 15, 0⟩
/-- WP_SKIP, 08. -/
def WP_SKIP (g : Nat) : Reg := ⟨groupBase g + 0xA00C, 0x00000000⟩
def WP_SKIP_SKIP (g : Nat) : Fld := ⟨(WP_SKIP g), 31, 0⟩
/-- WP_USAMP, 08. -/
def WP_USAMP (g : Nat) : Reg := ⟨groupBase g + 0xA010, 0x00000000⟩
def WP_USAMP_USAMP (g : Nat) : Fld := ⟨(WP_USAMP g), 31, 0⟩
/-- WP_CTL, 08. -/
def WP_CTL (g : Nat) : Reg := ⟨groupBase g + 0xA014, 0x00000000⟩
def WP_CTL_TE (g : Nat) : Fld := ⟨(WP_CTL g), 27, 26⟩
def WP_CTL_CTX (g : Nat) : Fld := ⟨(WP_CTL g), 25, 21⟩
def WP_CTL_PRIO (g : Nat) : Fld := ⟨(WP_CTL g), 20, 18⟩
def WP_CTL_MCAUSE (g : Nat) : Fld := ⟨(WP_CTL g), 17, 17⟩
def WP_CTL_MSNAP (g : Nat) : Fld := ⟨(WP_CTL g), 16, 16⟩
def WP_CTL_ENTRY0 (g : Nat) : Fld := ⟨(WP_CTL g), 13, 8⟩
def WP_CTL_DAC (g : Nat) : Fld := ⟨(WP_CTL g), 4, 2⟩
def WP_CTL_CLK (g : Nat) : Fld := ⟨(WP_CTL g), 1, 1⟩
def WP_CTL_EN (g : Nat) : Fld := ⟨(WP_CTL g), 0, 0⟩
/-- WP_CHMASK, 08. -/
def WP_CHMASK (g : Nat) : Reg := ⟨groupBase g + 0xA018, 0x00000000⟩
def WP_CHMASK_MASK (g : Nat) : Fld := ⟨(WP_CHMASK g), 15, 0⟩
/-- WP_INC_LO, 08. -/
def WP_INC_LO (g : Nat) : Reg := ⟨groupBase g + 0xA01C, 0x00000000⟩
def WP_INC_LO_INC_LO (g : Nat) : Fld := ⟨(WP_INC_LO g), 31, 0⟩
/-- WP_INC_HI, 08. -/
def WP_INC_HI (g : Nat) : Reg := ⟨groupBase g + 0xA020, 0x00000000⟩
def WP_INC_HI_INC_HI (g : Nat) : Fld := ⟨(WP_INC_HI g), 15, 0⟩
/-- WP_PMUL, 08. -/
def WP_PMUL (g : Nat) : Reg := ⟨groupBase g + 0xA024, 0x00000001⟩
def WP_PMUL_PMUL (g : Nat) : Fld := ⟨(WP_PMUL g), 15, 0⟩
/-- WP_LIM, 08. -/
def WP_LIM (g : Nat) : Reg := ⟨groupBase g + 0xA028, 0xFFFF0000⟩
def WP_LIM_HI (g : Nat) : Fld := ⟨(WP_LIM g), 31, 16⟩
def WP_LIM_LO (g : Nat) : Fld := ⟨(WP_LIM g), 15, 0⟩
/-- WP_JSTEP, 08. -/
def WP_JSTEP (g : Nat) : Reg := ⟨groupBase g + 0xA02C, 0x00000000⟩
def WP_JSTEP_STEP (g : Nat) : Fld := ⟨(WP_JSTEP g), 15, 0⟩
/-- WP_UNDR, 08. -/
def WP_UNDR (g : Nat) : Reg := ⟨groupBase g + 0xA030, 0x00010000⟩
def WP_UNDR_RESUME (g : Nat) : Fld := ⟨(WP_UNDR g), 29, 16⟩
def WP_UNDR_SEG (g : Nat) : Fld := ⟨(WP_UNDR g), 7, 0⟩
/-- WP_STRM, 08. -/
def WP_STRM (g : Nat) : Reg := ⟨groupBase g + 0xA034, 0x00000000⟩
def WP_STRM_LEN (g : Nat) : Fld := ⟨(WP_STRM g), 30, 16⟩
def WP_STRM_BASE (g : Nat) : Fld := ⟨(WP_STRM g), 13, 0⟩
/-- WP_STRM_STAT, 08. -/
def WP_STRM_STAT (g : Nat) : Reg := ⟨groupBase g + 0xA038, 0x00000000⟩
def WP_STRM_STAT_FILL (g : Nat) : Fld := ⟨(WP_STRM_STAT g), 30, 16⟩
def WP_STRM_STAT_CONS (g : Nat) : Fld := ⟨(WP_STRM_STAT g), 13, 0⟩
/-- WP_CMD, 08. -/
def WP_CMD (g : Nat) : Reg := ⟨groupBase g + 0xA040, 0x00000000⟩
def WP_CMD_START (g : Nat) : Fld := ⟨(WP_CMD g), 31, 31⟩
def WP_CMD_STOP (g : Nat) : Fld := ⟨(WP_CMD g), 30, 30⟩
def WP_CMD_JUMP (g : Nat) : Fld := ⟨(WP_CMD g), 29, 29⟩
def WP_CMD_JENT (g : Nat) : Fld := ⟨(WP_CMD g), 5, 0⟩
/-- WP_SCTL, 08. -/
def WP_SCTL (g : Nat) : Reg := ⟨groupBase g + 0xA044, 0x00000000⟩
def WP_SCTL_ARM (g : Nat) : Fld := ⟨(WP_SCTL g), 31, 31⟩
def WP_SCTL_KIND (g : Nat) : Fld := ⟨(WP_SCTL g), 2, 0⟩
/-- WP_STGT0, 08. -/
def WP_STGT0 (g : Nat) : Reg := ⟨groupBase g + 0xA048, 0x00000000⟩
def WP_STGT0_TGT0 (g : Nat) : Fld := ⟨(WP_STGT0 g), 31, 0⟩
/-- WP_STGT1, 08. -/
def WP_STGT1 (g : Nat) : Reg := ⟨groupBase g + 0xA04C, 0x00000000⟩
def WP_STGT1_TGT1 (g : Nat) : Fld := ⟨(WP_STGT1 g), 31, 0⟩
/-- WP_STAT, 08. -/
def WP_STAT (g : Nat) : Reg := ⟨groupBase g + 0xA050, 0x00000000⟩
def WP_STAT_JPEND (g : Nat) : Fld := ⟨(WP_STAT g), 24, 24⟩
def WP_STAT_SEG (g : Nat) : Fld := ⟨(WP_STAT g), 23, 16⟩
def WP_STAT_ENTRY (g : Nat) : Fld := ⟨(WP_STAT g), 13, 8⟩
def WP_STAT_STATE (g : Nat) : Fld := ⟨(WP_STAT g), 1, 0⟩
/-- WP_REP, 08. -/
def WP_REP (g : Nat) : Reg := ⟨groupBase g + 0xA054, 0x00000000⟩
def WP_REP_REP (g : Nat) : Fld := ⟨(WP_REP g), 16, 0⟩
/-- WP_POS, 08. -/
def WP_POS (g : Nat) : Reg := ⟨groupBase g + 0xA058, 0x00000000⟩
def WP_POS_CODE (g : Nat) : Fld := ⟨(WP_POS g), 31, 16⟩
def WP_POS_ADDR (g : Nat) : Fld := ⟨(WP_POS g), 15, 0⟩
/-- WP_MARKT_LO, 08. -/
def WP_MARKT_LO (g : Nat) : Reg := ⟨groupBase g + 0xA060, 0x00000000⟩
def WP_MARKT_LO_T_LO (g : Nat) : Fld := ⟨(WP_MARKT_LO g), 31, 0⟩
/-- WP_MARKT_HI, 08. -/
def WP_MARKT_HI (g : Nat) : Reg := ⟨groupBase g + 0xA064, 0x00000000⟩
def WP_MARKT_HI_T_HI (g : Nat) : Fld := ⟨(WP_MARKT_HI g), 23, 0⟩
/-- WP_UHPTR, 08. -/
def WP_UHPTR (g : Nat) : Reg := ⟨groupBase g + 0xA068, 0x00000000⟩
def WP_UHPTR_NEXT (g : Nat) : Fld := ⟨(WP_UHPTR g), 3, 0⟩
/-- WP_UHi_SLO, 08. -/
def WP_UH_SLO (g i : Nat) : Reg := ⟨groupBase g + 0xA100 + 0x10 * i, 0x00000000⟩
def WP_UH_SLO_S_LO (g i : Nat) : Fld := ⟨(WP_UH_SLO g i), 31, 0⟩
/-- WP_UHi_SHI, 08. -/
def WP_UH_SHI (g i : Nat) : Reg := ⟨groupBase g + 0xA104 + 0x10 * i, 0x00000000⟩
def WP_UH_SHI_S_HI (g i : Nat) : Fld := ⟨(WP_UH_SHI g i), 23, 0⟩
/-- WP_UHi_ELO, 08. -/
def WP_UH_ELO (g i : Nat) : Reg := ⟨groupBase g + 0xA108 + 0x10 * i, 0x00000000⟩
def WP_UH_ELO_E_LO (g i : Nat) : Fld := ⟨(WP_UH_ELO g i), 31, 0⟩
/-- WP_UHi_EHI, 08. -/
def WP_UH_EHI (g i : Nat) : Reg := ⟨groupBase g + 0xA10C + 0x10 * i, 0x00000000⟩
def WP_UH_EHI_OPEN (g i : Nat) : Fld := ⟨(WP_UH_EHI g i), 31, 31⟩
def WP_UH_EHI_E_HI (g i : Nat) : Fld := ⟨(WP_UH_EHI g i), 23, 0⟩
/-- WP_SEQe_A, 08. -/
def WP_SEQ_A (g e : Nat) : Reg := ⟨groupBase g + 0xA400 + 0x8 * e, 0x01000000⟩
def WP_SEQ_A_END (g e : Nat) : Fld := ⟨(WP_SEQ_A g e), 24, 24⟩
def WP_SEQ_A_NEXT (g e : Nat) : Fld := ⟨(WP_SEQ_A g e), 23, 18⟩
def WP_SEQ_A_JNEXT (g e : Nat) : Fld := ⟨(WP_SEQ_A g e), 17, 12⟩
def WP_SEQ_A_JCOND (g e : Nat) : Fld := ⟨(WP_SEQ_A g e), 11, 8⟩
def WP_SEQ_A_SEG (g e : Nat) : Fld := ⟨(WP_SEQ_A g e), 7, 0⟩
/-- WP_SEQe_B, 08. -/
def WP_SEQ_B (g e : Nat) : Reg := ⟨groupBase g + 0xA404 + 0x8 * e, 0x00000000⟩
def WP_SEQ_B_INF (g e : Nat) : Fld := ⟨(WP_SEQ_B g e), 16, 16⟩
def WP_SEQ_B_LOOP (g e : Nat) : Fld := ⟨(WP_SEQ_B g e), 15, 0⟩
/-- WP_SEGs_A, 08. -/
def WP_SEG_A (g s : Nat) : Reg := ⟨groupBase g + 0xA800 + 0x8 * s, 0x00000000⟩
def WP_SEG_A_STRM (g s : Nat) : Fld := ⟨(WP_SEG_A g s), 16, 16⟩
def WP_SEG_A_START (g s : Nat) : Fld := ⟨(WP_SEG_A g s), 15, 0⟩
/-- WP_SEGs_B, 08. -/
def WP_SEG_B (g s : Nat) : Reg := ⟨groupBase g + 0xA804 + 0x8 * s, 0x00000000⟩
def WP_SEG_B_LEN (g s : Nat) : Fld := ⟨(WP_SEG_B g s), 15, 0⟩
/-- SQ_FLAGS, 09. -/
def SQ_FLAGS (g : Nat) : Reg := ⟨groupBase g + 0xB000, 0x00000000⟩
def SQ_FLAGS_SYNCTO (g : Nat) : Fld := ⟨(SQ_FLAGS g), 4, 4⟩
def SQ_FLAGS_MSGDROP (g : Nat) : Fld := ⟨(SQ_FLAGS g), 3, 3⟩
def SQ_FLAGS_UNDR (g : Nat) : Fld := ⟨(SQ_FLAGS g), 2, 2⟩
def SQ_FLAGS_CAUSEDROP (g : Nat) : Fld := ⟨(SQ_FLAGS g), 1, 1⟩
def SQ_FLAGS_CLAMP (g : Nat) : Fld := ⟨(SQ_FLAGS g), 0, 0⟩
/-- SQ_CLAMP_COUNT, 09. -/
def SQ_CLAMP_COUNT (g : Nat) : Reg := ⟨groupBase g + 0xB004, 0x00000000⟩
def SQ_CLAMP_COUNT_COUNT (g : Nat) : Fld := ⟨(SQ_CLAMP_COUNT g), 15, 0⟩
/-- SQ_CLAMP_LAST, 09. -/
def SQ_CLAMP_LAST (g : Nat) : Reg := ⟨groupBase g + 0xB008, 0x00000000⟩
def SQ_CLAMP_LAST_PC (g : Nat) : Fld := ⟨(SQ_CLAMP_LAST g), 13, 0⟩
/-- SQ_CNT0, 09. -/
def SQ_CNT0 (g : Nat) : Reg := ⟨groupBase g + 0xB00C, 0x00000000⟩
def SQ_CNT0_MSGDROP (g : Nat) : Fld := ⟨(SQ_CNT0 g), 31, 16⟩
def SQ_CNT0_CAUSEDROP (g : Nat) : Fld := ⟨(SQ_CNT0 g), 15, 0⟩
/-- SQ_CNT1, 09. -/
def SQ_CNT1 (g : Nat) : Reg := ⟨groupBase g + 0xB010, 0x00000000⟩
def SQ_CNT1_SYNCTO (g : Nat) : Fld := ⟨(SQ_CNT1 g), 31, 16⟩
def SQ_CNT1_UNDR (g : Nat) : Fld := ⟨(SQ_CNT1 g), 15, 0⟩
/-- SQ_UNDRCNT, 09. -/
def SQ_UNDRCNT (g : Nat) : Reg := ⟨groupBase g + 0xB014, 0x00000000⟩
def SQ_UNDRCNT_VEC (g : Nat) : Fld := ⟨(SQ_UNDRCNT g), 31, 0⟩
/-- SQ_GANG, 09. -/
def SQ_GANG (g : Nat) : Reg := ⟨groupBase g + 0xB020, 0x00000000⟩
def SQ_GANG_M (g : Nat) : Fld := ⟨(SQ_GANG g), 2, 0⟩
/-- SQ_CMD, 09. -/
def SQ_CMD (g : Nat) : Reg := ⟨groupBase g + 0xB024, 0x00000000⟩
def SQ_CMD_OP (g : Nat) : Fld := ⟨(SQ_CMD g), 31, 28⟩
def SQ_CMD_CTX (g : Nat) : Fld := ⟨(SQ_CMD g), 4, 0⟩
/-- SQ_DOORBELL, 09. -/
def SQ_DOORBELL (g : Nat) : Reg := ⟨groupBase g + 0xB028, 0x00000000⟩
def SQ_DOORBELL_PRIO (g : Nat) : Fld := ⟨(SQ_DOORBELL g), 8, 6⟩
def SQ_DOORBELL_CTX (g : Nat) : Fld := ⟨(SQ_DOORBELL g), 5, 1⟩
def SQ_DOORBELL_RING (g : Nat) : Fld := ⟨(SQ_DOORBELL g), 0, 0⟩
/-- SQ_HOSTF, 09. -/
def SQ_HOSTF (g : Nat) : Reg := ⟨groupBase g + 0xB02C, 0x00000000⟩
def SQ_HOSTF_HF (g : Nat) : Fld := ⟨(SQ_HOSTF g), 3, 0⟩
/-- SQ_STAT, 09. -/
def SQ_STAT (g : Nat) : Reg := ⟨groupBase g + 0xB030, 0x10000 * g⟩
def SQ_STAT_RUNCTX (g : Nat) : Fld := ⟨(SQ_STAT g), 31, 27⟩
def SQ_STAT_RUNPRIO (g : Nat) : Fld := ⟨(SQ_STAT g), 26, 24⟩
def SQ_STAT_ENG (g : Nat) : Fld := ⟨(SQ_STAT g), 23, 21⟩
def SQ_STAT_LEADER (g : Nat) : Fld := ⟨(SQ_STAT g), 20, 16⟩
/-- SQ_ELIG, 09. -/
def SQ_ELIG (g : Nat) : Reg := ⟨groupBase g + 0xB034, 0x00000000⟩
def SQ_ELIG_ELIG (g : Nat) : Fld := ⟨(SQ_ELIG g), 31, 0⟩
/-- SQ_RT_PHL, 09. -/
def SQ_RT_PHL (g : Nat) : Reg := ⟨groupBase g + 0xB040, 0x00000000⟩
def SQ_RT_PHL_PRIO (g : Nat) : Fld := ⟨(SQ_RT_PHL g), 8, 6⟩
def SQ_RT_PHL_CTX (g : Nat) : Fld := ⟨(SQ_RT_PHL g), 5, 1⟩
def SQ_RT_PHL_EN (g : Nat) : Fld := ⟨(SQ_RT_PHL g), 0, 0⟩
/-- SQ_RT_OCHRE, 09. -/
def SQ_RT_OCHRE (g : Nat) : Reg := ⟨groupBase g + 0xB044, 0x00000000⟩
def SQ_RT_OCHRE_PRIO (g : Nat) : Fld := ⟨(SQ_RT_OCHRE g), 8, 6⟩
def SQ_RT_OCHRE_CTX (g : Nat) : Fld := ⟨(SQ_RT_OCHRE g), 5, 1⟩
def SQ_RT_OCHRE_EN (g : Nat) : Fld := ⟨(SQ_RT_OCHRE g), 0, 0⟩
/-- SQ_RT_MSG, 09. -/
def SQ_RT_MSG (g : Nat) : Reg := ⟨groupBase g + 0xB048, 0x00000000⟩
def SQ_RT_MSG_PRIO (g : Nat) : Fld := ⟨(SQ_RT_MSG g), 8, 6⟩
def SQ_RT_MSG_CTX (g : Nat) : Fld := ⟨(SQ_RT_MSG g), 5, 1⟩
def SQ_RT_MSG_EN (g : Nat) : Fld := ⟨(SQ_RT_MSG g), 0, 0⟩
/-- SQ_TMRj_LO, 09. -/
def SQ_TMR_LO (g j : Nat) : Reg := ⟨groupBase g + 0xB060 + 0x10 * j, 0x00000000⟩
def SQ_TMR_LO_T_LO (g j : Nat) : Fld := ⟨(SQ_TMR_LO g j), 31, 0⟩
/-- SQ_TMRj_HI, 09. -/
def SQ_TMR_HI (g j : Nat) : Reg := ⟨groupBase g + 0xB064 + 0x10 * j, 0x00000000⟩
def SQ_TMR_HI_T_HI (g j : Nat) : Fld := ⟨(SQ_TMR_HI g j), 23, 0⟩
/-- SQ_TMRj_PER, 09. -/
def SQ_TMR_PER (g j : Nat) : Reg := ⟨groupBase g + 0xB068 + 0x10 * j, 0x00000000⟩
def SQ_TMR_PER_PER (g j : Nat) : Fld := ⟨(SQ_TMR_PER g j), 31, 0⟩
/-- SQ_TMRj_CTL, 09. -/
def SQ_TMR_CTL (g j : Nat) : Reg := ⟨groupBase g + 0xB06C + 0x10 * j, 0x00000000⟩
def SQ_TMR_CTL_ARM (g j : Nat) : Fld := ⟨(SQ_TMR_CTL g j), 31, 31⟩
def SQ_TMR_CTL_ARMED (g j : Nat) : Fld := ⟨(SQ_TMR_CTL g j), 30, 30⟩
def SQ_TMR_CTL_PRIO (g j : Nat) : Fld := ⟨(SQ_TMR_CTL g j), 8, 6⟩
def SQ_TMR_CTL_CTX (g j : Nat) : Fld := ⟨(SQ_TMR_CTL g j), 5, 1⟩
def SQ_TMR_CTL_EN (g j : Nat) : Fld := ⟨(SQ_TMR_CTL g j), 0, 0⟩
/-- SQ_STRM, 09. -/
def SQ_STRM (g : Nat) : Reg := ⟨groupBase g + 0xB080, 0x00010000⟩
def SQ_STRM_RESUME (g : Nat) : Fld := ⟨(SQ_STRM g), 20, 16⟩
def SQ_STRM_EN (g : Nat) : Fld := ⟨(SQ_STRM g), 0, 0⟩
/-- SQ_STRM_STAT, 09. -/
def SQ_STRM_STAT (g : Nat) : Reg := ⟨groupBase g + 0xB084, 0x00000000⟩
def SQ_STRM_STAT_FILL (g : Nat) : Fld := ⟨(SQ_STRM_STAT g), 29, 16⟩
/-- SQ_UH_SLO, 09. -/
def SQ_UH_SLO (g : Nat) : Reg := ⟨groupBase g + 0xB088, 0x00000000⟩
def SQ_UH_SLO_S_LO (g : Nat) : Fld := ⟨(SQ_UH_SLO g), 31, 0⟩
/-- SQ_UH_SHI, 09. -/
def SQ_UH_SHI (g : Nat) : Reg := ⟨groupBase g + 0xB08C, 0x00000000⟩
def SQ_UH_SHI_S_HI (g : Nat) : Fld := ⟨(SQ_UH_SHI g), 23, 0⟩
/-- SQ_UH_ELO, 09. -/
def SQ_UH_ELO (g : Nat) : Reg := ⟨groupBase g + 0xB090, 0x00000000⟩
def SQ_UH_ELO_E_LO (g : Nat) : Fld := ⟨(SQ_UH_ELO g), 31, 0⟩
/-- SQ_UH_EHI, 09. -/
def SQ_UH_EHI (g : Nat) : Reg := ⟨groupBase g + 0xB094, 0x00000000⟩
def SQ_UH_EHI_OPEN (g : Nat) : Fld := ⟨(SQ_UH_EHI g), 31, 31⟩
def SQ_UH_EHI_E_HI (g : Nat) : Fld := ⟨(SQ_UH_EHI g), 23, 0⟩
/-- SQ_MSGIN0, 09. -/
def SQ_MSGIN0 (g : Nat) : Reg := ⟨groupBase g + 0xB0A0, 0x00000000⟩
def SQ_MSGIN0_W0 (g : Nat) : Fld := ⟨(SQ_MSGIN0 g), 31, 0⟩
/-- SQ_MSGIN1, 09. -/
def SQ_MSGIN1 (g : Nat) : Reg := ⟨groupBase g + 0xB0A4, 0x00000000⟩
def SQ_MSGIN1_W1 (g : Nat) : Fld := ⟨(SQ_MSGIN1 g), 31, 0⟩
/-- SQ_MSGIN2, 09. -/
def SQ_MSGIN2 (g : Nat) : Reg := ⟨groupBase g + 0xB0A8, 0x00000000⟩
def SQ_MSGIN2_W2 (g : Nat) : Fld := ⟨(SQ_MSGIN2 g), 7, 0⟩
/-- SQ_MSGSTAT, 09. -/
def SQ_MSGSTAT (g : Nat) : Reg := ⟨groupBase g + 0xB0AC, 0x00000000⟩
def SQ_MSGSTAT_DEPTH (g : Nat) : Fld := ⟨(SQ_MSGSTAT g), 4, 0⟩
/-- SQ_TMRj_PERHI, 09. -/
def SQ_TMR_PERHI (g j : Nat) : Reg := ⟨groupBase g + 0xB0B0 + 0x4 * j, 0x00000000⟩
def SQ_TMR_PERHI_PERHI (g j : Nat) : Fld := ⟨(SQ_TMR_PERHI g j), 15, 0⟩
/-- SQ_BARb_MASK, 09. -/
def SQ_BAR_MASK (g b : Nat) : Reg := ⟨groupBase g + 0xB100 + 0x8 * b, 0x00000000⟩
def SQ_BAR_MASK_MASK (g b : Nat) : Fld := ⟨(SQ_BAR_MASK g b), 31, 0⟩
/-- SQ_BARb_CTL, 09. -/
def SQ_BAR_CTL (g b : Nat) : Reg := ⟨groupBase g + 0xB104 + 0x8 * b, 0x00000000⟩
def SQ_BAR_CTL_DOM (g b : Nat) : Fld := ⟨(SQ_BAR_CTL g b), 31, 31⟩
def SQ_BAR_CTL_TMO (g b : Nat) : Fld := ⟨(SQ_BAR_CTL g b), 15, 0⟩
/-- SQ_BARb_ARR, 09. -/
def SQ_BAR_ARR (g b : Nat) : Reg := ⟨groupBase g + 0xB140 + 0x4 * b, 0x00000000⟩
def SQ_BAR_ARR_ARR (g b : Nat) : Fld := ⟨(SQ_BAR_ARR g b), 31, 0⟩
/-- SQ_DOMSYNC, 09. -/
def SQ_DOMSYNC (g : Nat) : Reg := ⟨groupBase g + 0xB180, 0x00000032⟩
def SQ_DOMSYNC_LEAD (g : Nat) : Fld := ⟨(SQ_DOMSYNC g), 15, 0⟩
/-- SQ_CTXc_STAT, 09. -/
def SQ_CTX_STAT (g c : Nat) : Reg := ⟨groupBase g + 0xB400 + 0x60 * c, 0x00000000⟩
def SQ_CTX_STAT_STATE (g c : Nat) : Fld := ⟨(SQ_CTX_STAT g c), 31, 30⟩
def SQ_CTX_STAT_PRIO (g c : Nat) : Fld := ⟨(SQ_CTX_STAT g c), 29, 27⟩
def SQ_CTX_STAT_DEPTH (g c : Nat) : Fld := ⟨(SQ_CTX_STAT g c), 26, 24⟩
def SQ_CTX_STAT_CAUSE (g c : Nat) : Fld := ⟨(SQ_CTX_STAT g c), 22, 14⟩
def SQ_CTX_STAT_PC (g c : Nat) : Fld := ⟨(SQ_CTX_STAT g c), 13, 0⟩
/-- SQ_CTXc_CFG, 09. -/
def SQ_CTX_CFG (g c : Nat) : Reg := ⟨groupBase g + 0xB404 + 0x60 * c, 0x00000000⟩
def SQ_CTX_CFG_UVA (g c : Nat) : Fld := ⟨(SQ_CTX_CFG g c), 31, 16⟩
def SQ_CTX_CFG_TSB (g c : Nat) : Fld := ⟨(SQ_CTX_CFG g c), 15, 11⟩
def SQ_CTX_CFG_LSEL (g c : Nat) : Fld := ⟨(SQ_CTX_CFG g c), 10, 8⟩
def SQ_CTX_CFG_BASE (g c : Nat) : Fld := ⟨(SQ_CTX_CFG g c), 7, 5⟩
/-- SQ_CTXc_FLAGS, 09. -/
def SQ_CTX_FLAGS (g c : Nat) : Reg := ⟨groupBase g + 0xB408 + 0x60 * c, 0x00000000⟩
def SQ_CTX_FLAGS_SYNCTO (g c : Nat) : Fld := ⟨(SQ_CTX_FLAGS g c), 9, 9⟩
def SQ_CTX_FLAGS_PHR (g c : Nat) : Fld := ⟨(SQ_CTX_FLAGS g c), 8, 8⟩
def SQ_CTX_FLAGS_UNDR (g c : Nat) : Fld := ⟨(SQ_CTX_FLAGS g c), 7, 7⟩
def SQ_CTX_FLAGS_EVT (g c : Nat) : Fld := ⟨(SQ_CTX_FLAGS g c), 6, 6⟩
def SQ_CTX_FLAGS_FAIL (g c : Nat) : Fld := ⟨(SQ_CTX_FLAGS g c), 5, 5⟩
def SQ_CTX_FLAGS_CNZ (g c : Nat) : Fld := ⟨(SQ_CTX_FLAGS g c), 2, 0⟩
/-- SQ_CTXc_RES, 09. -/
def SQ_CTX_RES (g c : Nat) : Reg := ⟨groupBase g + 0xB40C + 0x60 * c, 0x00000000⟩
def SQ_CTX_RES_RES (g c : Nat) : Fld := ⟨(SQ_CTX_RES g c), 23, 0⟩
/-- SQ_CTXc_STK01, 09. -/
def SQ_CTX_STK01 (g c : Nat) : Reg := ⟨groupBase g + 0xB410 + 0x60 * c, 0x00000000⟩
def SQ_CTX_STK01_K1 (g c : Nat) : Fld := ⟨(SQ_CTX_STK01 g c), 31, 31⟩
def SQ_CTX_STK01_A1 (g c : Nat) : Fld := ⟨(SQ_CTX_STK01 g c), 29, 16⟩
def SQ_CTX_STK01_K0 (g c : Nat) : Fld := ⟨(SQ_CTX_STK01 g c), 15, 15⟩
def SQ_CTX_STK01_A0 (g c : Nat) : Fld := ⟨(SQ_CTX_STK01 g c), 13, 0⟩
/-- SQ_CTXc_STK23, 09. -/
def SQ_CTX_STK23 (g c : Nat) : Reg := ⟨groupBase g + 0xB414 + 0x60 * c, 0x00000000⟩
def SQ_CTX_STK23_K3 (g c : Nat) : Fld := ⟨(SQ_CTX_STK23 g c), 31, 31⟩
def SQ_CTX_STK23_A3 (g c : Nat) : Fld := ⟨(SQ_CTX_STK23 g c), 29, 16⟩
def SQ_CTX_STK23_K2 (g c : Nat) : Fld := ⟨(SQ_CTX_STK23 g c), 15, 15⟩
def SQ_CTX_STK23_A2 (g c : Nat) : Fld := ⟨(SQ_CTX_STK23 g c), 13, 0⟩
/-- SQ_CTXc_Li, 09. -/
def SQ_CTX_L (g c i : Nat) : Reg := ⟨groupBase g + 0xB418 + 0x60 * c + 0x4 * i, 0x00000000⟩
def SQ_CTX_L_L (g c i : Nat) : Fld := ⟨(SQ_CTX_L g c i), 23, 0⟩
/-- SQ_CTXc_Qi, 09. -/
def SQ_CTX_Q (g c i : Nat) : Reg := ⟨groupBase g + 0xB428 + 0x60 * c + 0x4 * i, 0x00000000⟩
def SQ_CTX_Q_Q (g c i : Nat) : Fld := ⟨(SQ_CTX_Q g c i), 23, 0⟩
/-- MC_VERSION, 11. -/
def MC_VERSION : Reg := ⟨0x070000, 0x01040000⟩
def MC_VERSION_MAJOR : Fld := ⟨MC_VERSION, 31, 24⟩
def MC_VERSION_MINOR : Fld := ⟨MC_VERSION, 23, 16⟩
def MC_VERSION_PATCH : Fld := ⟨MC_VERSION, 15, 0⟩
/-- MC_IMAGE_CRC, 11. -/
def MC_IMAGE_CRC : Reg := ⟨0x070004, 0x129E552B⟩
def MC_IMAGE_CRC_CRC : Fld := ⟨MC_IMAGE_CRC, 31, 0⟩
/-- MC_STAT, 11. -/
def MC_STAT : Reg := ⟨0x070008, 0x00000002⟩
def MC_STAT_ERR : Fld := ⟨MC_STAT, 11, 8⟩
def MC_STAT_SRC : Fld := ⟨MC_STAT, 5, 4⟩
def MC_STAT_STATE : Fld := ⟨MC_STAT, 2, 0⟩
/-- MC_BOOT, 11. -/
def MC_BOOT : Reg := ⟨0x07000C, 0x00000000⟩
def MC_BOOT_SLOT : Fld := ⟨MC_BOOT, 2, 2⟩
def MC_BOOT_ORDER : Fld := ⟨MC_BOOT, 1, 0⟩
/-- MC_CMD, 11. -/
def MC_CMD : Reg := ⟨0x070010, 0x00000000⟩
def MC_CMD_SLOT : Fld := ⟨MC_CMD, 8, 8⟩
def MC_CMD_OP : Fld := ⟨MC_CMD, 3, 0⟩
/-- MC_LDVER, 11. -/
def MC_LDVER : Reg := ⟨0x070014, 0x00000000⟩
def MC_LDVER_VER : Fld := ⟨MC_LDVER, 31, 0⟩
/-- MC_LDCRC, 11. -/
def MC_LDCRC : Reg := ⟨0x070018, 0x00000000⟩
def MC_LDCRC_CRC : Fld := ⟨MC_LDCRC, 31, 0⟩
/-- MC_LDNENT, 11. -/
def MC_LDNENT : Reg := ⟨0x07001C, 0x00000001⟩
def MC_LDNENT_NENT : Fld := ⟨MC_LDNENT, 11, 0⟩
/-- MC_SLOTn_VER, 11. -/
def MC_SLOT_VER (n : Nat) : Reg := ⟨0x070020 + 0x8 * n, 0x00000000⟩
def MC_SLOT_VER_VER (n : Nat) : Fld := ⟨(MC_SLOT_VER n), 31, 0⟩
/-- MC_SLOTn_CRC, 11. -/
def MC_SLOT_CRC (n : Nat) : Reg := ⟨0x070024 + 0x8 * n, 0x00000000⟩
def MC_SLOT_CRC_CRC (n : Nat) : Fld := ⟨(MC_SLOT_CRC n), 31, 0⟩
/-- MC_VSTAT, 11. -/
def MC_VSTAT : Reg := ⟨0x070030, 0x00000000⟩
def MC_VSTAT_BUSY : Fld := ⟨MC_VSTAT, 4, 4⟩
def MC_VSTAT_VALID : Fld := ⟨MC_VSTAT, 1, 0⟩
/-- MC_IMGSEL, 11. -/
def MC_IMGSEL : Reg := ⟨0x070034, 0x00000000⟩
def MC_IMGSEL_SLOT : Fld := ⟨MC_IMGSEL, 0, 0⟩
/-- MC_DISP_ADDR, 11. -/
def MC_DISP_ADDR : Reg := ⟨0x070040, 0x00000000⟩
def MC_DISP_ADDR_IDX : Fld := ⟨MC_DISP_ADDR, 7, 0⟩
/-- MC_DISP_DATA, 11. -/
def MC_DISP_DATA : Reg := ⟨0x070044, 0x00000000⟩
def MC_DISP_DATA_ENTRY : Fld := ⟨MC_DISP_DATA, 15, 0⟩
/-- MC_WIN, 11. -/
def MC_WIN : Reg := ⟨0x070048, 0x00000000⟩
def MC_WIN_ENG : Fld := ⟨MC_WIN, 4, 0⟩
/-- MC_MCHKMAP, 11. -/
def MC_MCHKMAP : Reg := ⟨0x070050, 0x00000000⟩
def MC_MCHKMAP_MAP : Fld := ⟨MC_MCHKMAP, 31, 0⟩
/-- MC_FLAGS, 11. -/
def MC_FLAGS : Reg := ⟨0x070054, 0x00000000⟩
def MC_FLAGS_LOADERR : Fld := ⟨MC_FLAGS, 5, 5⟩
def MC_FLAGS_SCRUBERR : Fld := ⟨MC_FLAGS, 4, 4⟩
def MC_FLAGS_SCRUBFIX : Fld := ⟨MC_FLAGS, 3, 3⟩
def MC_FLAGS_TRAP : Fld := ⟨MC_FLAGS, 2, 2⟩
def MC_FLAGS_SRAM : Fld := ⟨MC_FLAGS, 1, 1⟩
def MC_FLAGS_PARITY : Fld := ⟨MC_FLAGS, 0, 0⟩
/-- MC_CNT0, 11. -/
def MC_CNT0 : Reg := ⟨0x070058, 0x00000000⟩
def MC_CNT0_SRAM : Fld := ⟨MC_CNT0, 31, 16⟩
def MC_CNT0_PARITY : Fld := ⟨MC_CNT0, 15, 0⟩
/-- MC_CNT1, 11. -/
def MC_CNT1 : Reg := ⟨0x07005C, 0x00000000⟩
def MC_CNT1_LOADERR : Fld := ⟨MC_CNT1, 31, 16⟩
def MC_CNT1_TRAP : Fld := ⟨MC_CNT1, 15, 0⟩
/-- MC_CNT2, 11. -/
def MC_CNT2 : Reg := ⟨0x070060, 0x00000000⟩
def MC_CNT2_SCRUBERR : Fld := ⟨MC_CNT2, 31, 16⟩
def MC_CNT2_SCRUBFIX : Fld := ⟨MC_CNT2, 15, 0⟩
/-- MC_INJ, 11. -/
def MC_INJ : Reg := ⟨0x070064, 0x00000000⟩
def MC_INJ_ARM : Fld := ⟨MC_INJ, 31, 31⟩
def MC_INJ_ENTRY : Fld := ⟨MC_INJ, 26, 16⟩
def MC_INJ_SLICE : Fld := ⟨MC_INJ, 10, 8⟩
def MC_INJ_ENG : Fld := ⟨MC_INJ, 4, 0⟩
/-- MC_MCHKe, 11. -/
def MC_MCHK (e : Nat) : Reg := ⟨0x070100 + 0x4 * e, 0x00000000⟩
def MC_MCHK_CAUSE (e : Nat) : Fld := ⟨(MC_MCHK e), 27, 25⟩
def MC_MCHK_SLICES (e : Nat) : Fld := ⟨(MC_MCHK e), 24, 17⟩
def MC_MCHK_TRACE (e : Nat) : Fld := ⟨(MC_MCHK e), 16, 11⟩
def MC_MCHK_ENTRY (e : Nat) : Fld := ⟨(MC_MCHK e), 10, 0⟩
/-- CM_CMD, 12. -/
def CM_CMD : Reg := ⟨0x020000, 0x00000000⟩
def CM_CMD_OP : Fld := ⟨CM_CMD, 31, 28⟩
def CM_CMD_DOM : Fld := ⟨CM_CMD, 27, 27⟩
def CM_CMD_KIND : Fld := ⟨CM_CMD, 26, 24⟩
def CM_CMD_ENG : Fld := ⟨CM_CMD, 20, 16⟩
/-- CM_TGT0, 12. -/
def CM_TGT0 : Reg := ⟨0x020004, 0x00000000⟩
def CM_TGT0_TGT0 : Fld := ⟨CM_TGT0, 31, 0⟩
/-- CM_TGT1, 12. -/
def CM_TGT1 : Reg := ⟨0x020008, 0x00000000⟩
def CM_TGT1_TGT1 : Fld := ⟨CM_TGT1, 31, 0⟩
/-- CM_STATUS, 12. -/
def CM_STATUS : Reg := ⟨0x02000C, 0x00000000⟩
def CM_STATUS_DEV : Fld := ⟨CM_STATUS, 23, 14⟩
def CM_STATUS_CODE : Fld := ⟨CM_STATUS, 13, 8⟩
def CM_STATUS_REASON : Fld := ⟨CM_STATUS, 7, 4⟩
def CM_STATUS_STATE : Fld := ⟨CM_STATUS, 3, 0⟩
/-- CM_WHERE, 12. -/
def CM_WHERE : Reg := ⟨0x020010, 0x00000000⟩
def CM_WHERE_SUB : Fld := ⟨CM_WHERE, 15, 10⟩
def CM_WHERE_UNIT : Fld := ⟨CM_WHERE, 9, 0⟩
/-- CM_CKMAP_LO, 12. -/
def CM_CKMAP_LO : Reg := ⟨0x020014, 0x00000000⟩
def CM_CKMAP_LO_MAP : Fld := ⟨CM_CKMAP_LO, 31, 0⟩
/-- CM_CKMAP_HI, 12. -/
def CM_CKMAP_HI : Reg := ⟨0x020018, 0x00000000⟩
def CM_CKMAP_HI_MAP : Fld := ⟨CM_CKMAP_HI, 7, 0⟩
/-- CM_ID, 12. -/
def CM_ID : Reg := ⟨0x02001C, 0x00000000⟩
def CM_ID_ID : Fld := ⟨CM_ID, 15, 0⟩
/-- CM_AT_LO, 12. -/
def CM_AT_LO : Reg := ⟨0x020020, 0x00000000⟩
def CM_AT_LO_T_LO : Fld := ⟨CM_AT_LO, 31, 0⟩
/-- CM_AT_HI, 12. -/
def CM_AT_HI : Reg := ⟨0x020024, 0x00000000⟩
def CM_AT_HI_T_HI : Fld := ⟨CM_AT_HI, 23, 0⟩
/-- CM_FLAGS, 12. -/
def CM_FLAGS : Reg := ⟨0x020028, 0x00000000⟩
def CM_FLAGS_STRAY : Fld := ⟨CM_FLAGS, 7, 7⟩
def CM_FLAGS_WLOCK : Fld := ⟨CM_FLAGS, 6, 6⟩
def CM_FLAGS_ORPHAN : Fld := ⟨CM_FLAGS, 5, 5⟩
def CM_FLAGS_LATE : Fld := ⟨CM_FLAGS, 4, 4⟩
def CM_FLAGS_ABORTED : Fld := ⟨CM_FLAGS, 3, 3⟩
def CM_FLAGS_REFUSED : Fld := ⟨CM_FLAGS, 2, 2⟩
def CM_FLAGS_REJECTED : Fld := ⟨CM_FLAGS, 1, 1⟩
def CM_FLAGS_APPLIED : Fld := ⟨CM_FLAGS, 0, 0⟩
/-- CM_CNT0, 12. -/
def CM_CNT0 : Reg := ⟨0x02002C, 0x00000000⟩
def CM_CNT0_REJECTED : Fld := ⟨CM_CNT0, 31, 16⟩
def CM_CNT0_APPLIED : Fld := ⟨CM_CNT0, 15, 0⟩
/-- CM_CNT1, 12. -/
def CM_CNT1 : Reg := ⟨0x020030, 0x00000000⟩
def CM_CNT1_ABORTED : Fld := ⟨CM_CNT1, 31, 16⟩
def CM_CNT1_REFUSED : Fld := ⟨CM_CNT1, 15, 0⟩
/-- CM_CNT2, 12. -/
def CM_CNT2 : Reg := ⟨0x020034, 0x00000000⟩
def CM_CNT2_ORPHAN : Fld := ⟨CM_CNT2, 31, 16⟩
def CM_CNT2_LATE : Fld := ⟨CM_CNT2, 15, 0⟩
/-- CM_CNT3, 12. -/
def CM_CNT3 : Reg := ⟨0x020038, 0x00000000⟩
def CM_CNT3_STRAY : Fld := ⟨CM_CNT3, 31, 16⟩
def CM_CNT3_WLOCK : Fld := ⟨CM_CNT3, 15, 0⟩
/-- CM_DOM, 12. -/
def CM_DOM : Reg := ⟨0x020040, 0x03E801F4⟩
def CM_DOM_GRACE : Fld := ⟨CM_DOM, 31, 16⟩
def CM_DOM_VOTEWIN : Fld := ⟨CM_DOM, 15, 0⟩
/-- SN_CMD, 12. -/
def SN_CMD : Reg := ⟨0x024000, 0x00000000⟩
def SN_CMD_DOMSCHED : Fld := ⟨SN_CMD, 2, 2⟩
def SN_CMD_SCHED : Fld := ⟨SN_CMD, 1, 1⟩
def SN_CMD_SNAP : Fld := ⟨SN_CMD, 0, 0⟩
/-- SN_CTL, 12. -/
def SN_CTL : Reg := ⟨0x024004, 0x00000F00⟩
def SN_CTL_EN : Fld := ⟨SN_CTL, 11, 8⟩
def SN_CTL_MODE : Fld := ⟨SN_CTL, 0, 0⟩
/-- SN_TT_LO, 12. -/
def SN_TT_LO : Reg := ⟨0x024008, 0x00000000⟩
def SN_TT_LO_T_LO : Fld := ⟨SN_TT_LO, 31, 0⟩
/-- SN_TT_HI, 12. -/
def SN_TT_HI : Reg := ⟨0x02400C, 0x00000000⟩
def SN_TT_HI_T_HI : Fld := ⟨SN_TT_HI, 23, 0⟩
/-- SN_STAT, 12. -/
def SN_STAT : Reg := ⟨0x024010, 0x00000000⟩
def SN_STAT_SEQ : Fld := ⟨SN_STAT, 31, 16⟩
def SN_STAT_ARMED : Fld := ⟨SN_STAT, 6, 6⟩
def SN_STAT_NEXT : Fld := ⟨SN_STAT, 5, 4⟩
def SN_STAT_FULL : Fld := ⟨SN_STAT, 3, 0⟩
/-- SN_REL, 12. -/
def SN_REL : Reg := ⟨0x024014, 0x00000000⟩
def SN_REL_REL : Fld := ⟨SN_REL, 3, 0⟩
/-- SN_FLAGS, 12. -/
def SN_FLAGS : Reg := ⟨0x024018, 0x00000000⟩
def SN_FLAGS_LATE : Fld := ⟨SN_FLAGS, 1, 1⟩
def SN_FLAGS_REFUSED : Fld := ⟨SN_FLAGS, 0, 0⟩
/-- SN_CNT, 12. -/
def SN_CNT : Reg := ⟨0x02401C, 0x00000000⟩
def SN_CNT_LATE : Fld := ⟨SN_CNT, 31, 16⟩
def SN_CNT_REFUSED : Fld := ⟨SN_CNT, 15, 0⟩
/-- SN_RADDR, 12. -/
def SN_RADDR : Reg := ⟨0x024020, 0x00000000⟩
def SN_RADDR_BANK : Fld := ⟨SN_RADDR, 17, 16⟩
def SN_RADDR_ITEM : Fld := ⟨SN_RADDR, 15, 0⟩
/-- SN_RDATA, 12. -/
def SN_RDATA : Reg := ⟨0x024024, 0x00000000⟩
def SN_RDATA_DATA : Fld := ⟨SN_RDATA, 31, 0⟩
/-- DG_DIGEST_LO, 12. -/
def DG_DIGEST_LO : Reg := ⟨0x028000, 0x00000000⟩
def DG_DIGEST_LO_D_LO : Fld := ⟨DG_DIGEST_LO, 31, 0⟩
/-- DG_DIGEST_HI, 12. -/
def DG_DIGEST_HI : Reg := ⟨0x028004, 0x00000000⟩
def DG_DIGEST_HI_D_HI : Fld := ⟨DG_DIGEST_HI, 31, 0⟩
/-- DG_SDIGEST_LO, 12. -/
def DG_SDIGEST_LO : Reg := ⟨0x028008, 0x00000000⟩
def DG_SDIGEST_LO_D_LO : Fld := ⟨DG_SDIGEST_LO, 31, 0⟩
/-- DG_SDIGEST_HI, 12. -/
def DG_SDIGEST_HI : Reg := ⟨0x02800C, 0x00000000⟩
def DG_SDIGEST_HI_D_HI : Fld := ⟨DG_SDIGEST_HI, 31, 0⟩
/-- DG_CLASS, 12. -/
def DG_CLASS : Reg := ⟨0x028010, 0x00000000⟩
def DG_CLASS_CLASS : Fld := ⟨DG_CLASS, 7, 0⟩
/-- DG_CTL, 12. -/
def DG_CTL : Reg := ⟨0x028014, 0x000103E8⟩
def DG_CTL_CMPEN : Fld := ⟨DG_CTL, 16, 16⟩
def DG_CTL_PER : Fld := ⟨DG_CTL, 15, 0⟩
/-- DG_CMD, 12. -/
def DG_CMD : Reg := ⟨0x028018, 0x00000000⟩
def DG_CMD_LEARN : Fld := ⟨DG_CMD, 1, 1⟩
def DG_CMD_SCALC : Fld := ⟨DG_CMD, 0, 0⟩
/-- DG_STAT, 12. -/
def DG_STAT : Reg := ⟨0x02801C, 0x00000000⟩
def DG_STAT_STALE : Fld := ⟨DG_STAT, 2, 2⟩
def DG_STAT_REFV : Fld := ⟨DG_STAT, 1, 1⟩
def DG_STAT_DIGEST_MISMATCH : Fld := ⟨DG_STAT, 0, 0⟩
/-- DG_FLAGS, 12. -/
def DG_FLAGS : Reg := ⟨0x028020, 0x00000000⟩
def DG_FLAGS_DOM_MISMATCH : Fld := ⟨DG_FLAGS, 1, 1⟩
def DG_FLAGS_DIGEST_MISMATCH : Fld := ⟨DG_FLAGS, 0, 0⟩
/-- DG_CNT, 12. -/
def DG_CNT : Reg := ⟨0x028024, 0x00000000⟩
def DG_CNT_DOMMIS : Fld := ⟨DG_CNT, 31, 16⟩
def DG_CNT_MISMATCH : Fld := ⟨DG_CNT, 15, 0⟩
/-- DG_DOMSTAT, 12. -/
def DG_DOMSTAT : Reg := ⟨0x028028, 0x00000000⟩
def DG_DOMSTAT_FIRSTDEV : Fld := ⟨DG_DOMSTAT, 25, 16⟩
def DG_DOMSTAT_NMIS : Fld := ⟨DG_DOMSTAT, 10, 0⟩
/-- DG_CVALIDw, 12. -/
def DG_CVALID (w : Nat) : Reg := ⟨0x028200 + 0x4 * w, 0x00000000⟩
def DG_CVALID_VALID (w : Nat) : Fld := ⟨(DG_CVALID w), 31, 0⟩
/-- DG_CREFc_LO, 12. -/
def DG_CREF_LO (c : Nat) : Reg := ⟨0x028400 + 0x8 * c, 0x00000000⟩
def DG_CREF_LO_R_LO (c : Nat) : Fld := ⟨(DG_CREF_LO c), 31, 0⟩
/-- DG_CREFc_HI, 12. -/
def DG_CREF_HI (c : Nat) : Reg := ⟨0x028404 + 0x8 * c, 0x00000000⟩
def DG_CREF_HI_R_HI (c : Nat) : Fld := ⟨(DG_CREF_HI c), 31, 0⟩
/-- CL_DEVNUM, 13. -/
def CL_DEVNUM : Reg := ⟨0x030000, 0x00000000⟩
def CL_DEVNUM_ROOT : Fld := ⟨CL_DEVNUM, 31, 31⟩
def CL_DEVNUM_MEMBER : Fld := ⟨CL_DEVNUM, 30, 30⟩
def CL_DEVNUM_NUM : Fld := ⟨CL_DEVNUM, 9, 0⟩
/-- CL_DOM_CTL, 13. -/
def CL_DOM_CTL : Reg := ⟨0x030004, 0x000003E8⟩
def CL_DOM_CTL_ROOT : Fld := ⟨CL_DOM_CTL, 31, 31⟩
def CL_DOM_CTL_JOIN : Fld := ⟨CL_DOM_CTL, 30, 30⟩
def CL_DOM_CTL_LEAVE : Fld := ⟨CL_DOM_CTL, 15, 0⟩
/-- CL_DOM_STAT, 13. -/
def CL_DOM_STAT : Reg := ⟨0x030008, 0x00000000⟩
def CL_DOM_STAT_DEPTH : Fld := ⟨CL_DOM_STAT, 31, 28⟩
def CL_DOM_STAT_NMEM : Fld := ⟨CL_DOM_STAT, 26, 16⟩
def CL_DOM_STAT_STATE : Fld := ⟨CL_DOM_STAT, 2, 0⟩
/-- CL_DOM_CMD, 13. -/
def CL_DOM_CMD : Reg := ⟨0x03000C, 0x00000000⟩
def CL_DOM_CMD_OP : Fld := ⟨CL_DOM_CMD, 31, 28⟩
/-- CL_FLAGS, 13. -/
def CL_FLAGS : Reg := ⟨0x030010, 0x00000000⟩
def CL_FLAGS_RRA_TMO : Fld := ⟨CL_FLAGS, 6, 6⟩
def CL_FLAGS_TSTEP : Fld := ⟨CL_FLAGS, 5, 5⟩
def CL_FLAGS_FWDDROP : Fld := ⟨CL_FLAGS, 4, 4⟩
def CL_FLAGS_MEMLOST : Fld := ⟨CL_FLAGS, 3, 3⟩
def CL_FLAGS_DUPNUM : Fld := ⟨CL_FLAGS, 2, 2⟩
def CL_FLAGS_LEFT : Fld := ⟨CL_FLAGS, 1, 1⟩
def CL_FLAGS_JOINREF : Fld := ⟨CL_FLAGS, 0, 0⟩
/-- CL_CNT0, 13. -/
def CL_CNT0 : Reg := ⟨0x030014, 0x00000000⟩
def CL_CNT0_LEFT : Fld := ⟨CL_CNT0, 31, 16⟩
def CL_CNT0_JOINREF : Fld := ⟨CL_CNT0, 15, 0⟩
/-- CL_CNT1, 13. -/
def CL_CNT1 : Reg := ⟨0x030018, 0x00000000⟩
def CL_CNT1_MEMLOST : Fld := ⟨CL_CNT1, 31, 16⟩
def CL_CNT1_DUPNUM : Fld := ⟨CL_CNT1, 15, 0⟩
/-- CL_CNT2, 13. -/
def CL_CNT2 : Reg := ⟨0x03001C, 0x00000000⟩
def CL_CNT2_RRA_TMO : Fld := ⟨CL_CNT2, 31, 16⟩
def CL_CNT2_TSTEP : Fld := ⟨CL_CNT2, 15, 0⟩
/-- CL_TA_CTL, 13. -/
def CL_TA_CTL : Reg := ⟨0x030020, 0x00000006⟩
def CL_TA_CTL_AVG : Fld := ⟨CL_TA_CTL, 3, 0⟩
/-- CL_TA_STAT, 13. -/
def CL_TA_STAT : Reg := ⟨0x030024, 0x00000000⟩
def CL_TA_STAT_STATE : Fld := ⟨CL_TA_STAT, 2, 0⟩
/-- CL_TA_OFS, 13. -/
def CL_TA_OFS : Reg := ⟨0x030028, 0x00000000⟩
def CL_TA_OFS_OFS : Fld := ⟨CL_TA_OFS, 31, 0⟩
/-- CL_TA_TRIM, 13. -/
def CL_TA_TRIM : Reg := ⟨0x03002C, 0x00000000⟩
def CL_TA_TRIM_TRIM : Fld := ⟨CL_TA_TRIM, 23, 0⟩
/-- CL_TA_STEP, 13. -/
def CL_TA_STEP : Reg := ⟨0x030030, 0x00000000⟩
def CL_TA_STEP_STEP : Fld := ⟨CL_TA_STEP, 31, 0⟩
/-- CL_RRA_ADDR, 13. -/
def CL_RRA_ADDR : Reg := ⟨0x030040, 0x00000000⟩
def CL_RRA_ADDR_ADDR : Fld := ⟨CL_RRA_ADDR, 23, 0⟩
/-- CL_RRA_DATA, 13. -/
def CL_RRA_DATA : Reg := ⟨0x030044, 0x00000000⟩
def CL_RRA_DATA_DATA : Fld := ⟨CL_RRA_DATA, 31, 0⟩
/-- CL_RRA_CMD, 13. -/
def CL_RRA_CMD : Reg := ⟨0x030048, 0x00000064⟩
def CL_RRA_CMD_GO : Fld := ⟨CL_RRA_CMD, 31, 31⟩
def CL_RRA_CMD_WRITE : Fld := ⟨CL_RRA_CMD, 30, 30⟩
def CL_RRA_CMD_DEV : Fld := ⟨CL_RRA_CMD, 25, 16⟩
def CL_RRA_CMD_TMO : Fld := ⟨CL_RRA_CMD, 15, 0⟩
/-- CL_RRA_STAT, 13. -/
def CL_RRA_STAT : Reg := ⟨0x03004C, 0x00000000⟩
def CL_RRA_STAT_STATE : Fld := ⟨CL_RRA_STAT, 2, 0⟩
/-- CL_Px_CTL, 13. -/
def CL_P_CTL (x : Nat) : Reg := ⟨0x030100 + 0x20 * x, 0x00000001⟩
def CL_P_CTL_ASYM (x : Nat) : Fld := ⟨(CL_P_CTL x), 31, 16⟩
def CL_P_CTL_EN (x : Nat) : Fld := ⟨(CL_P_CTL x), 0, 0⟩
/-- CL_Px_STAT, 13. -/
def CL_P_STAT (x : Nat) : Reg := ⟨0x030104 + 0x20 * x, 0x00000000⟩
def CL_P_STAT_NBRV (x : Nat) : Fld := ⟨(CL_P_STAT x), 31, 31⟩
def CL_P_STAT_NBR (x : Nat) : Fld := ⟨(CL_P_STAT x), 25, 16⟩
def CL_P_STAT_WIDTH (x : Nat) : Fld := ⟨(CL_P_STAT x), 9, 8⟩
def CL_P_STAT_LOCK (x : Nat) : Fld := ⟨(CL_P_STAT x), 7, 4⟩
def CL_P_STAT_STATE (x : Nat) : Fld := ⟨(CL_P_STAT x), 2, 0⟩
/-- CL_Px_ERR, 13. -/
def CL_P_ERR (x : Nat) : Reg := ⟨0x030108 + 0x20 * x, 0x00000000⟩
def CL_P_ERR_CRCERR (x : Nat) : Fld := ⟨(CL_P_ERR x), 31, 16⟩
def CL_P_ERR_RESEND (x : Nat) : Fld := ⟨(CL_P_ERR x), 15, 0⟩
/-- CL_Px_TRAIN, 13. -/
def CL_P_TRAIN (x : Nat) : Reg := ⟨0x03010C + 0x20 * x, 0x00000000⟩
def CL_P_TRAIN_RETRAIN (x : Nat) : Fld := ⟨(CL_P_TRAIN x), 31, 16⟩
def CL_P_TRAIN_DOWN (x : Nat) : Fld := ⟨(CL_P_TRAIN x), 15, 0⟩
/-- CL_Px_DROP, 13. -/
def CL_P_DROP (x : Nat) : Reg := ⟨0x030110 + 0x20 * x, 0x00000000⟩
def CL_P_DROP_DROP (x : Nat) : Fld := ⟨(CL_P_DROP x), 31, 0⟩
/-- CL_Px_DLY, 13. -/
def CL_P_DLY (x : Nat) : Reg := ⟨0x030114 + 0x20 * x, 0x00000000⟩
def CL_P_DLY_DLY (x : Nat) : Fld := ⟨(CL_P_DLY x), 31, 0⟩
/-- CL_MEMw, 13. -/
def CL_MEM (w : Nat) : Reg := ⟨0x030200 + 0x4 * w, 0x00000000⟩
def CL_MEM_MEM (w : Nat) : Fld := ⟨(CL_MEM w), 31, 0⟩
/-- TW_CTL, 13. -/
def TW_CTL : Reg := ⟨0x038000, 0x00000000⟩
def TW_CTL_DISPOL : Fld := ⟨TW_CTL, 2, 2⟩
def TW_CTL_LOSPOL : Fld := ⟨TW_CTL, 1, 1⟩
def TW_CTL_PAIR : Fld := ⟨TW_CTL, 0, 0⟩
/-- TW_AGREE, 13. -/
def TW_AGREE : Reg := ⟨0x038004, 0x00100000⟩
def TW_AGREE_DEDGE : Fld := ⟨TW_AGREE, 31, 16⟩
def TW_AGREE_DFAIL : Fld := ⟨TW_AGREE, 15, 4⟩
def TW_AGREE_MODE : Fld := ⟨TW_AGREE, 0, 0⟩
/-- TW_CMD, 13. -/
def TW_CMD : Reg := ⟨0x038008, 0x00000000⟩
def TW_CMD_OP : Fld := ⟨TW_CMD, 31, 28⟩
/-- TW_STAT, 13. -/
def TW_STAT : Reg := ⟨0x03800C, 0x00000000⟩
def TW_STAT_RJREASON : Fld := ⟨TW_STAT, 31, 28⟩
def TW_STAT_PEER : Fld := ⟨TW_STAT, 26, 24⟩
def TW_STAT_HBOK : Fld := ⟨TW_STAT, 16, 16⟩
def TW_STAT_ROLE : Fld := ⟨TW_STAT, 2, 0⟩
/-- TW_FLAGS, 13. -/
def TW_FLAGS : Reg := ⟨0x038010, 0x00000000⟩
def TW_FLAGS_SHWR : Fld := ⟨TW_FLAGS, 5, 5⟩
def TW_FLAGS_RJFAIL : Fld := ⟨TW_FLAGS, 4, 4⟩
def TW_FLAGS_LOCKSTEP : Fld := ⟨TW_FLAGS, 3, 3⟩
def TW_FLAGS_DISAGREE : Fld := ⟨TW_FLAGS, 2, 2⟩
def TW_FLAGS_HBLOSS : Fld := ⟨TW_FLAGS, 1, 1⟩
def TW_FLAGS_TAKEOVER : Fld := ⟨TW_FLAGS, 0, 0⟩
/-- TW_CNT0, 13. -/
def TW_CNT0 : Reg := ⟨0x038014, 0x00000000⟩
def TW_CNT0_HBLOSS : Fld := ⟨TW_CNT0, 31, 16⟩
def TW_CNT0_TAKEOVER : Fld := ⟨TW_CNT0, 15, 0⟩
/-- TW_CNT1, 13. -/
def TW_CNT1 : Reg := ⟨0x038018, 0x00000000⟩
def TW_CNT1_LOCKSTEP : Fld := ⟨TW_CNT1, 31, 16⟩
def TW_CNT1_DISAGREE : Fld := ⟨TW_CNT1, 15, 0⟩
/-- TW_CNT2, 13. -/
def TW_CNT2 : Reg := ⟨0x03801C, 0x00000000⟩
def TW_CNT2_SHWR : Fld := ⟨TW_CNT2, 31, 16⟩
def TW_CNT2_RJFAIL : Fld := ⟨TW_CNT2, 15, 0⟩
/-- TW_TAKE_LO, 13. -/
def TW_TAKE_LO : Reg := ⟨0x038020, 0x00000000⟩
def TW_TAKE_LO_T_LO : Fld := ⟨TW_TAKE_LO, 31, 0⟩
/-- TW_TAKE_HI, 13. -/
def TW_TAKE_HI : Reg := ⟨0x038024, 0x00000000⟩
def TW_TAKE_HI_CAUSE : Fld := ⟨TW_TAKE_HI, 31, 28⟩
def TW_TAKE_HI_T_HI : Fld := ⟨TW_TAKE_HI, 23, 0⟩
/-- TW_DIS, 13. -/
def TW_DIS : Reg := ⟨0x038028, 0x00000000⟩
def TW_DIS_ENGINE : Fld := ⟨TW_DIS, 31, 27⟩
def TW_DIS_ISEQ : Fld := ⟨TW_DIS, 26, 21⟩
def TW_DIS_CHMAP : Fld := ⟨TW_DIS, 15, 0⟩
/-- TW_RJ_STAT, 13. -/
def TW_RJ_STAT : Reg := ⟨0x03802C, 0x00000000⟩
def TW_RJ_STAT_PEND : Fld := ⟨TW_RJ_STAT, 31, 0⟩
/-- TW_RJ_TMO, 13. -/
def TW_RJ_TMO : Reg := ⟨0x038030, 0x000003E8⟩
def TW_RJ_TMO_TMO : Fld := ⟨TW_RJ_TMO, 15, 0⟩
/-- HI_ID, 14. -/
def HI_ID : Reg := ⟨0x040000, 0x75120000⟩
def HI_ID_DEVID : Fld := ⟨HI_ID, 31, 16⟩
def HI_ID_VENDOR : Fld := ⟨HI_ID, 15, 0⟩
/-- HI_SUBID, 14. -/
def HI_SUBID : Reg := ⟨0x040004, 0x00000000⟩
def HI_SUBID_SUBSYS : Fld := ⟨HI_SUBID, 31, 16⟩
def HI_SUBID_SUBVEN : Fld := ⟨HI_SUBID, 15, 0⟩
/-- HI_LINK, 14. -/
def HI_LINK : Reg := ⟨0x040008, 0x00000000⟩
def HI_LINK_WIDTH : Fld := ⟨HI_LINK, 7, 4⟩
def HI_LINK_GEN : Fld := ⟨HI_LINK, 3, 0⟩
/-- HI_FLAGS, 14. -/
def HI_FLAGS : Reg := ⟨0x04000C, 0x00000000⟩
def HI_FLAGS_RFERR : Fld := ⟨HI_FLAGS, 5, 5⟩
def HI_FLAGS_RFCRC : Fld := ⟨HI_FLAGS, 4, 4⟩
def HI_FLAGS_HOLDMISS : Fld := ⟨HI_FLAGS, 3, 3⟩
def HI_FLAGS_RDROP : Fld := ⟨HI_FLAGS, 2, 2⟩
def HI_FLAGS_LINKCHG : Fld := ⟨HI_FLAGS, 1, 1⟩
def HI_FLAGS_CPLTO : Fld := ⟨HI_FLAGS, 0, 0⟩
/-- HI_CNT0, 14. -/
def HI_CNT0 : Reg := ⟨0x040010, 0x00000000⟩
def HI_CNT0_RFCRC : Fld := ⟨HI_CNT0, 31, 16⟩
def HI_CNT0_RFERR : Fld := ⟨HI_CNT0, 15, 0⟩
/-- HI_CNT1, 14. -/
def HI_CNT1 : Reg := ⟨0x040014, 0x00000000⟩
def HI_CNT1_LINKCHG : Fld := ⟨HI_CNT1, 31, 16⟩
def HI_CNT1_HOLDMISS : Fld := ⟨HI_CNT1, 15, 0⟩
/-- HI_CNT2, 14. -/
def HI_CNT2 : Reg := ⟨0x040018, 0x00000000⟩
def HI_CNT2_CPLTO : Fld := ⟨HI_CNT2, 31, 16⟩
def HI_CNT2_RDROP : Fld := ⟨HI_CNT2, 15, 0⟩
/-- HI_CAUSE, 14. -/
def HI_CAUSE : Reg := ⟨0x040020, 0x00000000⟩
def HI_CAUSE_CAUSE : Fld := ⟨HI_CAUSE, 31, 0⟩
/-- HI_IMASK, 14. -/
def HI_IMASK : Reg := ⟨0x040024, 0x00000000⟩
def HI_IMASK_MASK : Fld := ⟨HI_IMASK, 31, 0⟩
/-- HI_RDONE, 14. -/
def HI_RDONE : Reg := ⟨0x040028, 0x00000000⟩
def HI_RDONE_DONE : Fld := ⟨HI_RDONE, 7, 0⟩
/-- HI_FLUSH, 14. -/
def HI_FLUSH : Reg := ⟨0x04002C, 0x00000000⟩
def HI_FLUSH_FLUSH : Fld := ⟨HI_FLUSH, 5, 0⟩
/-- HI_IMAPk, 14. -/
def HI_IMAP (k : Nat) : Reg := ⟨0x040030 + 0x4 * k, 0x03020100 + 0x04040404 * k⟩
def HI_IMAP_V0 (k : Nat) : Fld := ⟨(HI_IMAP k), 5, 0⟩
def HI_IMAP_V1 (k : Nat) : Fld := ⟨(HI_IMAP k), 13, 8⟩
def HI_IMAP_V2 (k : Nat) : Fld := ⟨(HI_IMAP k), 21, 16⟩
def HI_IMAP_V3 (k : Nat) : Fld := ⟨(HI_IMAP k), 29, 24⟩
/-- HI_CAPRD_CTL, 14. -/
def HI_CAPRD_CTL : Reg := ⟨0x040050, 0x00000000⟩
def HI_CAPRD_CTL_GO : Fld := ⟨HI_CAPRD_CTL, 31, 31⟩
def HI_CAPRD_CTL_GROUP : Fld := ⟨HI_CAPRD_CTL, 21, 17⟩
def HI_CAPRD_CTL_START : Fld := ⟨HI_CAPRD_CTL, 16, 0⟩
/-- HI_CAPRD_CNT, 14. -/
def HI_CAPRD_CNT : Reg := ⟨0x040054, 0x00000001⟩
def HI_CAPRD_CNT_COUNT : Fld := ⟨HI_CAPRD_CNT, 17, 0⟩
/-- HI_CAPRD_STAT, 14. -/
def HI_CAPRD_STAT : Reg := ⟨0x040058, 0x00000000⟩
def HI_CAPRD_STAT_STATE : Fld := ⟨HI_CAPRD_STAT, 31, 30⟩
def HI_CAPRD_STAT_LEFT : Fld := ⟨HI_CAPRD_STAT, 17, 0⟩
/-- HI_SPI_CTL, 14. -/
def HI_SPI_CTL : Reg := ⟨0x040060, 0x00000000⟩
def HI_SPI_CTL_GO : Fld := ⟨HI_SPI_CTL, 31, 31⟩
def HI_SPI_CTL_BUSY : Fld := ⟨HI_SPI_CTL, 30, 30⟩
def HI_SPI_CTL_NDATA : Fld := ⟨HI_SPI_CTL, 27, 24⟩
def HI_SPI_CTL_ADDREN : Fld := ⟨HI_SPI_CTL, 9, 9⟩
def HI_SPI_CTL_READ : Fld := ⟨HI_SPI_CTL, 8, 8⟩
def HI_SPI_CTL_CMD : Fld := ⟨HI_SPI_CTL, 7, 0⟩
/-- HI_SPI_ADDR, 14. -/
def HI_SPI_ADDR : Reg := ⟨0x040064, 0x00000000⟩
def HI_SPI_ADDR_ADDR : Fld := ⟨HI_SPI_ADDR, 23, 0⟩
/-- HI_SPI_D0, 14. -/
def HI_SPI_D0 : Reg := ⟨0x040068, 0x00000000⟩
def HI_SPI_D0_D0 : Fld := ⟨HI_SPI_D0, 31, 0⟩
/-- HI_SPI_D1, 14. -/
def HI_SPI_D1 : Reg := ⟨0x04006C, 0x00000000⟩
def HI_SPI_D1_D1 : Fld := ⟨HI_SPI_D1, 31, 0⟩
/-- HI_SMB, 14. -/
def HI_SMB : Reg := ⟨0x040070, 0x00000000⟩
def HI_SMB_ADDR : Fld := ⟨HI_SMB, 6, 0⟩
/-- HI_GCAUSE_s, 14. -/
def HI_GCAUSE (s : Nat) : Reg := ⟨0x040080 + 0x4 * s, 0x00000000⟩
def HI_GCAUSE_GRP (s : Nat) : Fld := ⟨(HI_GCAUSE s), 31, 0⟩
/-- BASE_LO, 14. -/
def HI_RING_BASE_LO (r : Nat) : Reg := ⟨0x040100 + 0x20 * r, 0x00000000⟩
def HI_RING_BASE_LO_ADDR (r : Nat) : Fld := ⟨(HI_RING_BASE_LO r), 31, 4⟩
/-- BASE_LO, 14. -/
def HI_QV_BASE_LO (u : Nat) : Reg := ⟨0x041000 + 0x20 * u, 0x00000000⟩
def HI_QV_BASE_LO_ADDR (u : Nat) : Fld := ⟨(HI_QV_BASE_LO u), 31, 4⟩
/-- BASE_LO, 14. -/
def HI_QW_BASE_LO (u : Nat) : Reg := ⟨0x041400 + 0x20 * u, 0x00000000⟩
def HI_QW_BASE_LO_ADDR (u : Nat) : Fld := ⟨(HI_QW_BASE_LO u), 31, 4⟩
/-- BASE_HI, 14. -/
def HI_RING_BASE_HI (r : Nat) : Reg := ⟨0x040104 + 0x20 * r, 0x00000000⟩
def HI_RING_BASE_HI_ADDR (r : Nat) : Fld := ⟨(HI_RING_BASE_HI r), 31, 0⟩
/-- BASE_HI, 14. -/
def HI_QV_BASE_HI (u : Nat) : Reg := ⟨0x041004 + 0x20 * u, 0x00000000⟩
def HI_QV_BASE_HI_ADDR (u : Nat) : Fld := ⟨(HI_QV_BASE_HI u), 31, 0⟩
/-- BASE_HI, 14. -/
def HI_QW_BASE_HI (u : Nat) : Reg := ⟨0x041404 + 0x20 * u, 0x00000000⟩
def HI_QW_BASE_HI_ADDR (u : Nat) : Fld := ⟨(HI_QW_BASE_HI u), 31, 0⟩
/-- CTL, 14. -/
def HI_RING_CTL (r : Nat) : Reg := ⟨0x040108 + 0x20 * r, 0x03E80040⟩
def HI_RING_CTL_FLUSH (r : Nat) : Fld := ⟨(HI_RING_CTL r), 31, 16⟩
def HI_RING_CTL_SIZE (r : Nat) : Fld := ⟨(HI_RING_CTL r), 8, 4⟩
def HI_RING_CTL_IALL (r : Nat) : Fld := ⟨(HI_RING_CTL r), 2, 2⟩
def HI_RING_CTL_WBEN (r : Nat) : Fld := ⟨(HI_RING_CTL r), 1, 1⟩
def HI_RING_CTL_EN (r : Nat) : Fld := ⟨(HI_RING_CTL r), 0, 0⟩
/-- CTL, 14. -/
def HI_QV_CTL (u : Nat) : Reg := ⟨0x041008 + 0x20 * u, 0x00004040⟩
def HI_QV_CTL_RETRY (u : Nat) : Fld := ⟨(HI_QV_CTL u), 15, 12⟩
def HI_QV_CTL_SIZE (u : Nat) : Fld := ⟨(HI_QV_CTL u), 8, 4⟩
def HI_QV_CTL_IALL (u : Nat) : Fld := ⟨(HI_QV_CTL u), 2, 2⟩
def HI_QV_CTL_WBEN (u : Nat) : Fld := ⟨(HI_QV_CTL u), 1, 1⟩
def HI_QV_CTL_EN (u : Nat) : Fld := ⟨(HI_QV_CTL u), 0, 0⟩
/-- CTL, 14. -/
def HI_QW_CTL (u : Nat) : Reg := ⟨0x041408 + 0x20 * u, 0x00004040⟩
def HI_QW_CTL_RETRY (u : Nat) : Fld := ⟨(HI_QW_CTL u), 15, 12⟩
def HI_QW_CTL_SIZE (u : Nat) : Fld := ⟨(HI_QW_CTL u), 8, 4⟩
def HI_QW_CTL_IALL (u : Nat) : Fld := ⟨(HI_QW_CTL u), 2, 2⟩
def HI_QW_CTL_WBEN (u : Nat) : Fld := ⟨(HI_QW_CTL u), 1, 1⟩
def HI_QW_CTL_EN (u : Nat) : Fld := ⟨(HI_QW_CTL u), 0, 0⟩
/-- HEAD, 14. -/
def HI_RING_HEAD (r : Nat) : Reg := ⟨0x04010C + 0x20 * r, 0x00000000⟩
def HI_RING_HEAD_HEAD (r : Nat) : Fld := ⟨(HI_RING_HEAD r), 31, 0⟩
/-- HEAD, 14. -/
def HI_QV_HEAD (u : Nat) : Reg := ⟨0x04100C + 0x20 * u, 0x00000000⟩
def HI_QV_HEAD_HEAD (u : Nat) : Fld := ⟨(HI_QV_HEAD u), 31, 0⟩
/-- HEAD, 14. -/
def HI_QW_HEAD (u : Nat) : Reg := ⟨0x04140C + 0x20 * u, 0x00000000⟩
def HI_QW_HEAD_HEAD (u : Nat) : Fld := ⟨(HI_QW_HEAD u), 31, 0⟩
/-- TAIL, 14. -/
def HI_RING_TAIL (r : Nat) : Reg := ⟨0x040110 + 0x20 * r, 0x00000000⟩
def HI_RING_TAIL_TAIL (r : Nat) : Fld := ⟨(HI_RING_TAIL r), 31, 0⟩
/-- TAIL, 14. -/
def HI_QV_TAIL (u : Nat) : Reg := ⟨0x041010 + 0x20 * u, 0x00000000⟩
def HI_QV_TAIL_TAIL (u : Nat) : Fld := ⟨(HI_QV_TAIL u), 31, 0⟩
/-- TAIL, 14. -/
def HI_QW_TAIL (u : Nat) : Reg := ⟨0x041410 + 0x20 * u, 0x00000000⟩
def HI_QW_TAIL_TAIL (u : Nat) : Fld := ⟨(HI_QW_TAIL u), 31, 0⟩
/-- WB_LO, 14. -/
def HI_RING_WB_LO (r : Nat) : Reg := ⟨0x040114 + 0x20 * r, 0x00000000⟩
def HI_RING_WB_LO_ADDR (r : Nat) : Fld := ⟨(HI_RING_WB_LO r), 31, 3⟩
/-- WB_LO, 14. -/
def HI_QV_WB_LO (u : Nat) : Reg := ⟨0x041014 + 0x20 * u, 0x00000000⟩
def HI_QV_WB_LO_ADDR (u : Nat) : Fld := ⟨(HI_QV_WB_LO u), 31, 3⟩
/-- WB_LO, 14. -/
def HI_QW_WB_LO (u : Nat) : Reg := ⟨0x041414 + 0x20 * u, 0x00000000⟩
def HI_QW_WB_LO_ADDR (u : Nat) : Fld := ⟨(HI_QW_WB_LO u), 31, 3⟩
/-- WB_HI, 14. -/
def HI_RING_WB_HI (r : Nat) : Reg := ⟨0x040118 + 0x20 * r, 0x00000000⟩
def HI_RING_WB_HI_ADDR (r : Nat) : Fld := ⟨(HI_RING_WB_HI r), 31, 0⟩
/-- WB_HI, 14. -/
def HI_QV_WB_HI (u : Nat) : Reg := ⟨0x041018 + 0x20 * u, 0x00000000⟩
def HI_QV_WB_HI_ADDR (u : Nat) : Fld := ⟨(HI_QV_WB_HI u), 31, 0⟩
/-- WB_HI, 14. -/
def HI_QW_WB_HI (u : Nat) : Reg := ⟨0x041418 + 0x20 * u, 0x00000000⟩
def HI_QW_WB_HI_ADDR (u : Nat) : Fld := ⟨(HI_QW_WB_HI u), 31, 0⟩
/-- DROP (rings 0–5), 14. -/
def HI_RING_DROP (r : Nat) : Reg := ⟨0x04011C + 0x20 * r, 0x00000000⟩
def HI_RING_DROP_DROP (r : Nat) : Fld := ⟨(HI_RING_DROP r), 31, 0⟩
/-- QSTAT (queues), 14. -/
def HI_QV_QSTAT (u : Nat) : Reg := ⟨0x04101C + 0x20 * u, 0x00000000⟩
def HI_QV_QSTAT_STATE (u : Nat) : Fld := ⟨(HI_QV_QSTAT u), 31, 30⟩
def HI_QV_QSTAT_CRCFAIL (u : Nat) : Fld := ⟨(HI_QV_QSTAT u), 15, 0⟩
/-- QSTAT (queues), 14. -/
def HI_QW_QSTAT (u : Nat) : Reg := ⟨0x04141C + 0x20 * u, 0x00000000⟩
def HI_QW_QSTAT_STATE (u : Nat) : Fld := ⟨(HI_QW_QSTAT u), 31, 30⟩
def HI_QW_QSTAT_CRCFAIL (u : Nat) : Fld := ⟨(HI_QW_QSTAT u), 15, 0⟩
/-- GL_ID, 15. -/
def GL_ID : Reg := ⟨0x000000, 0xB0007512⟩
def GL_ID_REV : Fld := ⟨GL_ID, 31, 24⟩
def GL_ID_PART : Fld := ⟨GL_ID, 15, 0⟩
/-- GL_STATUS, 15. -/
def GL_STATUS : Reg := ⟨0x000004, 0x000000A1⟩
def GL_STATUS_BOOT : Fld := ⟨GL_STATUS, 7, 5⟩
def GL_STATUS_CALDEF : Fld := ⟨GL_STATUS, 2, 2⟩
def GL_STATUS_BISTFAIL : Fld := ⟨GL_STATUS, 1, 1⟩
def GL_STATUS_READY : Fld := ⟨GL_STATUS, 0, 0⟩
/-- GL_PIN_ENABLE, 15. -/
def GL_PIN_ENABLE : Reg := ⟨0x000008, 0x00000000⟩
def GL_PIN_ENABLE_HELD : Fld := ⟨GL_PIN_ENABLE, 1, 1⟩
def GL_PIN_ENABLE_EN : Fld := ⟨GL_PIN_ENABLE, 0, 0⟩
/-- GL_CLAMP_COUNT, 15. -/
def GL_CLAMP_COUNT : Reg := ⟨0x000010, 0x00000000⟩
def GL_CLAMP_COUNT_COUNT : Fld := ⟨GL_CLAMP_COUNT, 15, 0⟩
/-- GL_CLAMP_LAST, 15. -/
def GL_CLAMP_LAST : Reg := ⟨0x000014, 0x00000000⟩
def GL_CLAMP_LAST_ADDR : Fld := ⟨GL_CLAMP_LAST, 23, 0⟩
/-- GL_RESET_GRP, 15. -/
def GL_RESET_GRP : Reg := ⟨0x000020, 0x00000000⟩
def GL_RESET_GRP_GRP : Fld := ⟨GL_RESET_GRP, 31, 0⟩
/-- GL_RESET_DEV, 15. -/
def GL_RESET_DEV : Reg := ⟨0x000024, 0x00000000⟩
def GL_RESET_DEV_SN : Fld := ⟨GL_RESET_DEV, 2, 2⟩
def GL_RESET_DEV_AQ : Fld := ⟨GL_RESET_DEV, 1, 1⟩
def GL_RESET_DEV_TP : Fld := ⟨GL_RESET_DEV, 0, 0⟩
/-- GL_FLAGS, 15. -/
def GL_FLAGS : Reg := ⟨0x000030, 0x00000000⟩
def GL_FLAGS_BISTFAIL : Fld := ⟨GL_FLAGS, 2, 2⟩
def GL_FLAGS_RSTGANG : Fld := ⟨GL_FLAGS, 1, 1⟩
def GL_FLAGS_RSTBUSY : Fld := ⟨GL_FLAGS, 0, 0⟩
/-- GL_CNT0, 15. -/
def GL_CNT0 : Reg := ⟨0x000034, 0x00000000⟩
def GL_CNT0_RSTGANG : Fld := ⟨GL_CNT0, 31, 16⟩
def GL_CNT0_RSTBUSY : Fld := ⟨GL_CNT0, 15, 0⟩
/-- GL_BIST_ENG, 15. -/
def GL_BIST_ENG : Reg := ⟨0x000038, 0x00000000⟩
def GL_BIST_ENG_MAP : Fld := ⟨GL_BIST_ENG, 31, 0⟩
/-- GL_BIST_GRP, 15. -/
def GL_BIST_GRP : Reg := ⟨0x00003C, 0x00000000⟩
def GL_BIST_GRP_MAP : Fld := ⟨GL_BIST_GRP, 31, 0⟩
/-- CK_STAT, 15. -/
def CK_STAT : Reg := ⟨0x060000, 0x00000003⟩
def CK_STAT_HOLDOVER : Fld := ⟨CK_STAT, 2, 2⟩
def CK_STAT_REFOK : Fld := ⟨CK_STAT, 1, 1⟩
def CK_STAT_LOCK : Fld := ⟨CK_STAT, 0, 0⟩
/-- CK_RSTCAUSE, 15. -/
def CK_RSTCAUSE : Reg := ⟨0x060004, 0x00000000⟩
def CK_RSTCAUSE_FLR : Fld := ⟨CK_RSTCAUSE, 3, 3⟩
def CK_RSTCAUSE_PERST : Fld := ⟨CK_RSTCAUSE, 2, 2⟩
def CK_RSTCAUSE_RSTN : Fld := ⟨CK_RSTCAUSE, 1, 1⟩
def CK_RSTCAUSE_POR : Fld := ⟨CK_RSTCAUSE, 0, 0⟩
/-- CK_FLAGS, 15. -/
def CK_FLAGS : Reg := ⟨0x060008, 0x00000000⟩
def CK_FLAGS_XSAT : Fld := ⟨CK_FLAGS, 2, 2⟩
def CK_FLAGS_XRESET : Fld := ⟨CK_FLAGS, 1, 1⟩
def CK_FLAGS_REFLOSS : Fld := ⟨CK_FLAGS, 0, 0⟩
/-- CK_CNT0, 15. -/
def CK_CNT0 : Reg := ⟨0x06000C, 0x00000000⟩
def CK_CNT0_XRESET : Fld := ⟨CK_CNT0, 31, 16⟩
def CK_CNT0_REFLOSS : Fld := ⟨CK_CNT0, 15, 0⟩
/-- CK_XRESET_DROP, 15. -/
def CK_XRESET_DROP : Reg := ⟨0x060010, 0x00000000⟩
def CK_XRESET_DROP_DROP : Fld := ⟨CK_XRESET_DROP, 31, 0⟩
/-- CK_XRESET_LAST, 15. -/
def CK_XRESET_LAST : Reg := ⟨0x060014, 0x00000000⟩
def CK_XRESET_LAST_XID : Fld := ⟨CK_XRESET_LAST, 2, 0⟩
/-- CK_CNT1, 15. -/
def CK_CNT1 : Reg := ⟨0x060018, 0x00000000⟩
def CK_CNT1_XSAT : Fld := ⟨CK_CNT1, 15, 0⟩
/-- TH_TEMPk, 15. -/
def TH_TEMP (k : Nat) : Reg := ⟨0x061000 + 0x4 * k, 0x00008000⟩
def TH_TEMP_TEMP (k : Nat) : Fld := ⟨(TH_TEMP k), 15, 0⟩
/-- TH_STAT, 15. -/
def TH_STAT : Reg := ⟨0x061020, 0x00000000⟩
def TH_STAT_OEXH : Fld := ⟨TH_STAT, 17, 14⟩
def TH_STAT_OWARN : Fld := ⟨TH_STAT, 13, 10⟩
def TH_STAT_TRIP : Fld := ⟨TH_STAT, 9, 5⟩
def TH_STAT_WARN : Fld := ⟨TH_STAT, 4, 0⟩
/-- TH_FLAGS, 15. -/
def TH_FLAGS : Reg := ⟨0x061024, 0x00000000⟩
def TH_FLAGS_OCLRREF : Fld := ⟨TH_FLAGS, 5, 5⟩
def TH_FLAGS_OVERBURST : Fld := ⟨TH_FLAGS, 4, 4⟩
def TH_FLAGS_OEXH : Fld := ⟨TH_FLAGS, 3, 3⟩
def TH_FLAGS_OWARN : Fld := ⟨TH_FLAGS, 2, 2⟩
def TH_FLAGS_TTRIP : Fld := ⟨TH_FLAGS, 1, 1⟩
def TH_FLAGS_TWARN : Fld := ⟨TH_FLAGS, 0, 0⟩
/-- TH_CNT0, 15. -/
def TH_CNT0 : Reg := ⟨0x061028, 0x00000000⟩
def TH_CNT0_TTRIP : Fld := ⟨TH_CNT0, 31, 16⟩
def TH_CNT0_TWARN : Fld := ⟨TH_CNT0, 15, 0⟩
/-- TH_CNT1, 15. -/
def TH_CNT1 : Reg := ⟨0x06102C, 0x00000000⟩
def TH_CNT1_OEXH : Fld := ⟨TH_CNT1, 31, 16⟩
def TH_CNT1_OWARN : Fld := ⟨TH_CNT1, 15, 0⟩
/-- TH_CNT2, 15. -/
def TH_CNT2 : Reg := ⟨0x061030, 0x00000000⟩
def TH_CNT2_OCLRREF : Fld := ⟨TH_CNT2, 31, 16⟩
def TH_CNT2_OVERBURST : Fld := ⟨TH_CNT2, 15, 0⟩
/-- TH_CMD, 15. -/
def TH_CMD : Reg := ⟨0x061034, 0x00000000⟩
def TH_CMD_TCLR : Fld := ⟨TH_CMD, 4, 4⟩
def TH_CMD_OCLR : Fld := ⟨TH_CMD, 3, 0⟩
/-- TH_OCH_CTL, 15. -/
def TH_OCH_CTL : Reg := ⟨0x061038, 0x00000000⟩
def TH_OCH_CTL_AUTO : Fld := ⟨TH_OCH_CTL, 0, 0⟩
/-- TH_OCH_Ik, 15. -/
def TH_OCH_I (k : Nat) : Reg := ⟨0x061040 + 0x8 * k, 0x00000000⟩
def TH_OCH_I_I (k : Nat) : Fld := ⟨(TH_OCH_I k), 15, 0⟩
/-- TH_OCH_Bk, 15. -/
def TH_OCH_B (k : Nat) : Reg := ⟨0x061044 + 0x8 * k, 0x00000000⟩
def TH_OCH_B_PEAK (k : Nat) : Fld := ⟨(TH_OCH_B k), 31, 16⟩
def TH_OCH_B_LEVEL (k : Nat) : Fld := ⟨(TH_OCH_B k), 15, 0⟩
/-- NV_CTL, 15. -/
def NV_CTL : Reg := ⟨0x062000, 0x00000000⟩
def NV_CTL_FACT : Fld := ⟨NV_CTL, 1, 1⟩
def NV_CTL_WEN : Fld := ⟨NV_CTL, 0, 0⟩
/-- NV_UNLOCK, 15. -/
def NV_UNLOCK : Reg := ⟨0x062004, 0x00000000⟩
def NV_UNLOCK_KEY : Fld := ⟨NV_UNLOCK, 15, 0⟩
/-- NV_STAT, 15. -/
def NV_STAT : Reg := ⟨0x062008, 0x00000000⟩
def NV_STAT_UNLOCKED : Fld := ⟨NV_STAT, 8, 8⟩
def NV_STAT_QDEPTH : Fld := ⟨NV_STAT, 7, 1⟩
def NV_STAT_BUSY : Fld := ⟨NV_STAT, 0, 0⟩
/-- NV_FLAGS, 15. -/
def NV_FLAGS : Reg := ⟨0x06200C, 0x00000000⟩
def NV_FLAGS_WDROP : Fld := ⟨NV_FLAGS, 3, 3⟩
def NV_FLAGS_WPROT : Fld := ⟨NV_FLAGS, 2, 2⟩
def NV_FLAGS_UNCORR : Fld := ⟨NV_FLAGS, 1, 1⟩
def NV_FLAGS_CORR : Fld := ⟨NV_FLAGS, 0, 0⟩
/-- NV_CNT0, 15. -/
def NV_CNT0 : Reg := ⟨0x062010, 0x00000000⟩
def NV_CNT0_UNCORR : Fld := ⟨NV_CNT0, 31, 16⟩
def NV_CNT0_CORR : Fld := ⟨NV_CNT0, 15, 0⟩
/-- NV_CNT1, 15. -/
def NV_CNT1 : Reg := ⟨0x062014, 0x00000000⟩
def NV_CNT1_WDROP : Fld := ⟨NV_CNT1, 31, 16⟩
def NV_CNT1_WPROT : Fld := ⟨NV_CNT1, 15, 0⟩
/-- NV_LASTERR, 15. -/
def NV_LASTERR : Reg := ⟨0x062018, 0x00000000⟩
def NV_LASTERR_ADDR : Fld := ⟨NV_LASTERR, 17, 0⟩
/-- MSIX_ADDR_LO, 16. -/
def MSIX_ADDR_LO (k : Nat) : Reg := ⟨0x050000 + 0x10 * k, 0x00000000⟩
def MSIX_ADDR_LO_ADDR (k : Nat) : Fld := ⟨(MSIX_ADDR_LO k), 31, 0⟩
/-- MSIX_ADDR_HI, 16. -/
def MSIX_ADDR_HI (k : Nat) : Reg := ⟨0x050004 + 0x10 * k, 0x00000000⟩
def MSIX_ADDR_HI_ADDR (k : Nat) : Fld := ⟨(MSIX_ADDR_HI k), 31, 0⟩
/-- MSIX_DATA, 16. -/
def MSIX_DATA (k : Nat) : Reg := ⟨0x050008 + 0x10 * k, 0x00000000⟩
def MSIX_DATA_DATA (k : Nat) : Fld := ⟨(MSIX_DATA k), 31, 0⟩
/-- MSIX_VCTL, 16. -/
def MSIX_VCTL (k : Nat) : Reg := ⟨0x05000C + 0x10 * k, 0x00000001⟩
def MSIX_VCTL_MASK (k : Nat) : Fld := ⟨(MSIX_VCTL k), 0, 0⟩
/-- MSIX_PBA, 16. -/
def MSIX_PBA (w : Nat) : Reg := ⟨0x050800 + 0x4 * w, 0x00000000⟩
def MSIX_PBA_PEND (w : Nat) : Fld := ⟨(MSIX_PBA w), 31, 0⟩

/-- The registers by name, for the host-access dispatch. -/
inductive RegName where
  | TP_TIME_LO | TP_TIME_HI | TP_TBREF_CTL | TP_TBREF_ERR | TP_TBREF_TRIM | TP_PH_CTL
  | TP_PH_CPC | TP_PH_IDXPOS | TP_PH_LOOP | TP_PH_ANGLE | TP_PH_CYCLE | TP_PH_VEL
  | TP_STATUS | TP_FLAGS | TP_CNT0 | TP_CNT1 | TP_CNT2 | TP_PH_IDXERR
  | TP_STEP | TP_STEP_TIME_LO | TP_STEP_TIME_HI | TP_DOM_CTL | TP_PCMP_CYC | TP_PCMP_ANG
  | TP_PCMP_CTL | TP_PCMP_ENG | TP_SLOT_ANG | TP_SLOT_CTL | TP_SLOT_ENG | TP_SLOT_LAST
  | TG_TS_USE | TG_FLAGS | TG_CNT0 | TG_CNT1 | TG_CNT2 | TG_DSK_CTL
  | TG_DSK_STAT | TG_DSK_TEMP | TG_TDR_CTL | TG_TDR_STAT | TG_TDR_RES | TG_TDR_SPREAD
  | TG_CAL_CTL | TG_CAL_TLO | TG_CAL_THI | TG_CAL_MEAS | TG_TS_PER | TG_DSKI
  | TG_DSKB | TG_T1 | TG_T2 | TG_T3 | TG_T4 | LS_FLAGS
  | LS_CNT0 | LS_CNT1 | LS_CNT2 | LS_PARK | LS_PARKSTAT | LS_SELSTAT
  | LS_ILIMMAP | LS_MREQ | LS_RAIL | LS_RAILMEAS | LS_DRV | LS_PMU
  | LS_SLEW | LS_SLEWEN | LS_MEAS | LS_MRES | LS_DH | LS_DL
  | LS_TH | LS_TL | LS_VT | LS_PF | LS_CLR | LS_OUT
  | CP_FLAGS | CP_CNT0 | CP_CNT1 | CP_STATUS | CP_STATE | CP_SMDIV
  | CP_SC_CTL | CP_SC_STAT | CP_SC_RES | CP_CMP | CP_WIN | CP_TRIP
  | CP_SM_CTL | CP_SM_STAT | CP_SM_WT_LO | CP_SM_WT_HI | CP_SM_WPER | CP_PARKN_CTL
  | CP_PFLAGS | CP_PCNT | CP_TGEN | CP_TGSTAT | CP_TGARM | CP_TFLAGS
  | CP_TCNT0 | CP_TGCAUSE | CP_TGREC_LO | CP_TGREC_HI | TD_FLAGS | TD_CNT0
  | TD_CNT1 | TD_EVDROP | TD_CAL_CTL | TD_CAL_STAT | TD_SWAP_TLO | TD_SWAP_THI
  | TD_SRC_RATE | TD_BT_ADDR | TD_BT_DATA | TD_EV_CTL | TD_XWIN_CTL | TD_XWIN_LEN
  | TD_CH | TD_LOST | TD_ALIGN | FQ_FLAGS | FQ_CNT0 | FQ_CNT1
  | FQ_CTL | FQ_GATE | FQ_STAT | FQ_GSTART_LO | FQ_GSTART_HI | FQ_AGE
  | FQ_CH | FQ_RF_LO | FQ_RF_HI | FQ_RN | FQ_RSTAT | FC_FLAGS
  | FC_CNT0 | FC_CNT1 | FC_CNT2 | FC_SUM_CTL | FC_SUM_STAT | FC_VCNT_LO
  | FC_VCNT_HI | FC_CAUSE | FC_LOG_CTL | FC_LOG_PTR | FC_LOGDROP | FC_CAP_CFG
  | FC_CAP_ARM | FC_CAP_POST | FC_CAP_STAT | FC_CAP_CNT | FC_CAP_FIRST | FC_CAP_TVC_LO
  | FC_CAP_TVC_HI | FC_CAP_TT_LO | FC_CAP_TT_HI | FC_EV_CTL | FC_EV_PTR | FC_S1REF
  | AQ_FLAGS | AQ_TOUT_CTL | AQ_SOFT | AQ_TE_CTL | AQ_TE_ARM | AQ_TE_HOLD
  | AQ_TE_OUT | AQ_TE_ENG | AQ_TE_STAT | AQ_TE_FT_LO | AQ_TE_FT_HI | AQ_TE_S_CTL
  | AQ_TE_S_WIN | AQ_TE_S_PAT | WP_FLAGS | WP_CNT0 | WP_CNT1 | WP_SKIP
  | WP_USAMP | WP_CTL | WP_CHMASK | WP_INC_LO | WP_INC_HI | WP_PMUL
  | WP_LIM | WP_JSTEP | WP_UNDR | WP_STRM | WP_STRM_STAT | WP_CMD
  | WP_SCTL | WP_STGT0 | WP_STGT1 | WP_STAT | WP_REP | WP_POS
  | WP_MARKT_LO | WP_MARKT_HI | WP_UHPTR | WP_UH_SLO | WP_UH_SHI | WP_UH_ELO
  | WP_UH_EHI | WP_SEQ_A | WP_SEQ_B | WP_SEG_A | WP_SEG_B | SQ_FLAGS
  | SQ_CLAMP_COUNT | SQ_CLAMP_LAST | SQ_CNT0 | SQ_CNT1 | SQ_UNDRCNT | SQ_GANG
  | SQ_CMD | SQ_DOORBELL | SQ_HOSTF | SQ_STAT | SQ_ELIG | SQ_RT_PHL
  | SQ_RT_OCHRE | SQ_RT_MSG | SQ_TMR_LO | SQ_TMR_HI | SQ_TMR_PER | SQ_TMR_CTL
  | SQ_STRM | SQ_STRM_STAT | SQ_UH_SLO | SQ_UH_SHI | SQ_UH_ELO | SQ_UH_EHI
  | SQ_MSGIN0 | SQ_MSGIN1 | SQ_MSGIN2 | SQ_MSGSTAT | SQ_TMR_PERHI | SQ_BAR_MASK
  | SQ_BAR_CTL | SQ_BAR_ARR | SQ_DOMSYNC | SQ_CTX_STAT | SQ_CTX_CFG | SQ_CTX_FLAGS
  | SQ_CTX_RES | SQ_CTX_STK01 | SQ_CTX_STK23 | SQ_CTX_L | SQ_CTX_Q | MC_VERSION
  | MC_IMAGE_CRC | MC_STAT | MC_BOOT | MC_CMD | MC_LDVER | MC_LDCRC
  | MC_LDNENT | MC_SLOT_VER | MC_SLOT_CRC | MC_VSTAT | MC_IMGSEL | MC_DISP_ADDR
  | MC_DISP_DATA | MC_WIN | MC_MCHKMAP | MC_FLAGS | MC_CNT0 | MC_CNT1
  | MC_CNT2 | MC_INJ | MC_MCHK | CM_CMD | CM_TGT0 | CM_TGT1
  | CM_STATUS | CM_WHERE | CM_CKMAP_LO | CM_CKMAP_HI | CM_ID | CM_AT_LO
  | CM_AT_HI | CM_FLAGS | CM_CNT0 | CM_CNT1 | CM_CNT2 | CM_CNT3
  | CM_DOM | SN_CMD | SN_CTL | SN_TT_LO | SN_TT_HI | SN_STAT
  | SN_REL | SN_FLAGS | SN_CNT | SN_RADDR | SN_RDATA | DG_DIGEST_LO
  | DG_DIGEST_HI | DG_SDIGEST_LO | DG_SDIGEST_HI | DG_CLASS | DG_CTL | DG_CMD
  | DG_STAT | DG_FLAGS | DG_CNT | DG_DOMSTAT | DG_CVALID | DG_CREF_LO
  | DG_CREF_HI | CL_DEVNUM | CL_DOM_CTL | CL_DOM_STAT | CL_DOM_CMD | CL_FLAGS
  | CL_CNT0 | CL_CNT1 | CL_CNT2 | CL_TA_CTL | CL_TA_STAT | CL_TA_OFS
  | CL_TA_TRIM | CL_TA_STEP | CL_RRA_ADDR | CL_RRA_DATA | CL_RRA_CMD | CL_RRA_STAT
  | CL_P_CTL | CL_P_STAT | CL_P_ERR | CL_P_TRAIN | CL_P_DROP | CL_P_DLY
  | CL_MEM | TW_CTL | TW_AGREE | TW_CMD | TW_STAT | TW_FLAGS
  | TW_CNT0 | TW_CNT1 | TW_CNT2 | TW_TAKE_LO | TW_TAKE_HI | TW_DIS
  | TW_RJ_STAT | TW_RJ_TMO | HI_ID | HI_SUBID | HI_LINK | HI_FLAGS
  | HI_CNT0 | HI_CNT1 | HI_CNT2 | HI_CAUSE | HI_IMASK | HI_RDONE
  | HI_FLUSH | HI_IMAP | HI_CAPRD_CTL | HI_CAPRD_CNT | HI_CAPRD_STAT | HI_SPI_CTL
  | HI_SPI_ADDR | HI_SPI_D0 | HI_SPI_D1 | HI_SMB | HI_GCAUSE | HI_RING_BASE_LO
  | HI_QV_BASE_LO | HI_QW_BASE_LO | HI_RING_BASE_HI | HI_QV_BASE_HI | HI_QW_BASE_HI | HI_RING_CTL
  | HI_QV_CTL | HI_QW_CTL | HI_RING_HEAD | HI_QV_HEAD | HI_QW_HEAD | HI_RING_TAIL
  | HI_QV_TAIL | HI_QW_TAIL | HI_RING_WB_LO | HI_QV_WB_LO | HI_QW_WB_LO | HI_RING_WB_HI
  | HI_QV_WB_HI | HI_QW_WB_HI | HI_RING_DROP | HI_QV_QSTAT | HI_QW_QSTAT | GL_ID
  | GL_STATUS | GL_PIN_ENABLE | GL_CLAMP_COUNT | GL_CLAMP_LAST | GL_RESET_GRP | GL_RESET_DEV
  | GL_FLAGS | GL_CNT0 | GL_BIST_ENG | GL_BIST_GRP | CK_STAT | CK_RSTCAUSE
  | CK_FLAGS | CK_CNT0 | CK_XRESET_DROP | CK_XRESET_LAST | CK_CNT1 | TH_TEMP
  | TH_STAT | TH_FLAGS | TH_CNT0 | TH_CNT1 | TH_CNT2 | TH_CMD
  | TH_OCH_CTL | TH_OCH_I | TH_OCH_B | NV_CTL | NV_UNLOCK | NV_STAT
  | NV_FLAGS | NV_CNT0 | NV_CNT1 | NV_LASTERR | MSIX_ADDR_LO | MSIX_ADDR_HI
  | MSIX_DATA | MSIX_VCTL | MSIX_PBA
  deriving DecidableEq, Repr

/-- The field table of a register. In stages 1 to 3 AQ_TEn_Sm_CTL has no NST field (chapter 07). -/
def RegName.fields (r : RegName) (ix : List Nat) : List FieldSpec :=
  match r with
  | .TP_TIME_LO => [⟨31, 0, .ro, .none, .free⟩]
  | .TP_TIME_HI => [⟨23, 0, .ro, .none, .free⟩]
  | .TP_TBREF_CTL => [⟨2, 1, .rw, .live, .free⟩, ⟨0, 0, .rw, .live, .free⟩]
  | .TP_TBREF_ERR => [⟨31, 0, .ro, .none, .free⟩]
  | .TP_TBREF_TRIM => [⟨23, 0, .ro, .none, .free⟩]
  | .TP_PH_CTL => [⟨9, 5, .rw, .staged, .free⟩, ⟨4, 4, .rw, .staged, .free⟩, ⟨3, 3, .rw, .staged, .free⟩, ⟨2, 2, .rw, .staged, .free⟩, ⟨1, 0, .rw, .staged, .free⟩]
  | .TP_PH_CPC => [⟨16, 0, .rw, .staged, .between 1 65536⟩]
  | .TP_PH_IDXPOS => [⟨15, 0, .rw, .staged, .free⟩]
  | .TP_PH_LOOP => [⟨27, 16, .rw, .staged, .atLeast 1⟩, ⟨11, 4, .rw, .staged, .free⟩, ⟨1, 0, .rw, .staged, .free⟩]
  | .TP_PH_ANGLE => [⟨31, 0, .ro, .none, .free⟩]
  | .TP_PH_CYCLE => [⟨31, 0, .ro, .none, .free⟩]
  | .TP_PH_VEL => [⟨31, 0, .ro, .none, .free⟩]
  | .TP_STATUS => [⟨5, 4, .ro, .none, .free⟩, ⟨3, 3, .ro, .none, .free⟩, ⟨2, 0, .ro, .none, .free⟩]
  | .TP_FLAGS => [⟨5, 5, .w1c, .none, .free⟩, ⟨4, 4, .w1c, .none, .free⟩, ⟨3, 3, .w1c, .none, .free⟩, ⟨2, 2, .w1c, .none, .free⟩, ⟨1, 1, .w1c, .none, .free⟩, ⟨0, 0, .w1c, .none, .free⟩]
  | .TP_CNT0 => [⟨31, 16, .ro, .none, .free⟩, ⟨15, 0, .ro, .none, .free⟩]
  | .TP_CNT1 => [⟨31, 16, .ro, .none, .free⟩, ⟨15, 0, .ro, .none, .free⟩]
  | .TP_CNT2 => [⟨31, 16, .ro, .none, .free⟩, ⟨15, 0, .ro, .none, .free⟩]
  | .TP_PH_IDXERR => [⟨15, 0, .ro, .none, .free⟩]
  | .TP_STEP => [⟨16, 16, .rw, .live, .free⟩, ⟨15, 0, .rw, .live, .free⟩]
  | .TP_STEP_TIME_LO => [⟨31, 0, .ro, .none, .free⟩]
  | .TP_STEP_TIME_HI => [⟨23, 0, .ro, .none, .free⟩]
  | .TP_DOM_CTL => [⟨0, 0, .rw, .staged, .free⟩]
  | .TP_PCMP_CYC => [⟨31, 0, .rw, .live, .free⟩]
  | .TP_PCMP_ANG => [⟨31, 0, .rw, .live, .free⟩]
  | .TP_PCMP_CTL => [⟨9, 9, .ro, .none, .free⟩, ⟨8, 6, .rw, .live, .free⟩, ⟨5, 1, .rw, .live, .free⟩, ⟨0, 0, .rw, .live, .free⟩]
  | .TP_PCMP_ENG => [⟨31, 0, .rw, .live, .free⟩]
  | .TP_SLOT_ANG => [⟨31, 0, .rw, .staged, .free⟩]
  | .TP_SLOT_CTL => [⟨8, 6, .rw, .staged, .free⟩, ⟨5, 1, .rw, .staged, .free⟩, ⟨0, 0, .rw, .staged, .free⟩]
  | .TP_SLOT_ENG => [⟨31, 0, .rw, .staged, .free⟩]
  | .TP_SLOT_LAST => [⟨31, 0, .ro, .none, .free⟩]
  | .TG_TS_USE => [⟨31, 0, .rw, .staged, .withBits 1⟩]
  | .TG_FLAGS => [⟨4, 4, .w1c, .none, .free⟩, ⟨3, 3, .w1c, .none, .free⟩, ⟨2, 2, .w1c, .none, .free⟩, ⟨1, 1, .w1c, .none, .free⟩, ⟨0, 0, .w1c, .none, .free⟩]
  | .TG_CNT0 => [⟨31, 16, .ro, .none, .free⟩, ⟨15, 0, .ro, .none, .free⟩]
  | .TG_CNT1 => [⟨31, 16, .ro, .none, .free⟩, ⟨15, 0, .ro, .none, .free⟩]
  | .TG_CNT2 => [⟨15, 0, .ro, .none, .free⟩]
  | .TG_DSK_CTL => [⟨4, 2, .rw, .live, .free⟩, ⟨1, 1, .rw, .live, .free⟩, ⟨0, 0, .wo, .live, .free⟩]
  | .TG_DSK_STAT => [⟨31, 16, .ro, .none, .free⟩, ⟨2, 0, .ro, .none, .free⟩]
  | .TG_DSK_TEMP => [⟨15, 0, .ro, .none, .free⟩]
  | .TG_TDR_CTL => [⟨31, 31, .wo, .live, .free⟩, ⟨11, 11, .rw, .live, .free⟩, ⟨10, 8, .rw, .live, .free⟩, ⟨7, 4, .rw, .live, .atMost 12⟩, ⟨3, 0, .rw, .live, .free⟩]
  | .TG_TDR_STAT => [⟨28, 16, .ro, .none, .free⟩, ⟨2, 0, .ro, .none, .free⟩]
  | .TG_TDR_RES => [⟨27, 0, .ro, .none, .free⟩]
  | .TG_TDR_SPREAD => [⟨15, 0, .ro, .none, .free⟩]
  | .TG_CAL_CTL => [⟨25, 16, .rw, .live, .free⟩, ⟨7, 4, .rw, .live, .free⟩, ⟨3, 3, .wo, .live, .free⟩, ⟨1, 0, .rw, .live, .free⟩]
  | .TG_CAL_TLO => [⟨31, 0, .rw, .live, .free⟩]
  | .TG_CAL_THI => [⟨23, 0, .rw, .live, .free⟩]
  | .TG_CAL_MEAS => [⟨31, 24, .ro, .none, .free⟩, ⟨23, 0, .ro, .none, .free⟩]
  | .TG_TS_PER => [⟨31, 0, .rw, .staged, .atLeast 2048⟩]
  | .TG_DSKI => [⟨31, 16, .ro, .none, .free⟩, ⟨15, 0, .ro, .none, .free⟩]
  | .TG_DSKB => [⟨15, 0, .rw, .staged, .free⟩]
  | .TG_T1 => [⟨26, 24, .rw, .staged, .above 4 0⟩, ⟨23, 0, .rw, .staged, .free⟩]
  | .TG_T2 => [⟨23, 0, .rw, .staged, .free⟩]
  | .TG_T3 => [⟨23, 0, .rw, .staged, .free⟩]
  | .TG_T4 => [⟨23, 0, .rw, .staged, .free⟩]
  | .LS_FLAGS => [⟨5, 5, .w1c, .none, .free⟩, ⟨4, 4, .w1c, .none, .free⟩, ⟨3, 3, .w1c, .none, .free⟩, ⟨2, 2, .w1c, .none, .free⟩, ⟨1, 1, .w1c, .none, .free⟩, ⟨0, 0, .w1c, .none, .free⟩]
  | .LS_CNT0 => [⟨31, 16, .ro, .none, .free⟩, ⟨15, 0, .ro, .none, .free⟩]
  | .LS_CNT1 => [⟨31, 16, .ro, .none, .free⟩, ⟨15, 0, .ro, .none, .free⟩]
  | .LS_CNT2 => [⟨31, 16, .ro, .none, .free⟩, ⟨15, 0, .ro, .none, .free⟩]
  | .LS_PARK => [⟨15, 0, .rw, .live, .free⟩]
  | .LS_PARKSTAT => [⟨31, 16, .ro, .none, .free⟩, ⟨15, 0, .ro, .none, .free⟩]
  | .LS_SELSTAT => [⟨2, 0, .ro, .none, .free⟩]
  | .LS_ILIMMAP => [⟨15, 0, .w1c, .none, .free⟩]
  | .LS_MREQ => [⟨15, 0, .wo, .live, .free⟩]
  | .LS_RAIL => [⟨31, 16, .rw, .staged, .signedBetween (-300) 0⟩, ⟨15, 0, .rw, .staged, .between 300 800⟩]
  | .LS_RAILMEAS => [⟨31, 16, .ro, .none, .free⟩, ⟨15, 0, .ro, .none, .free⟩]
  | .LS_DRV => [⟨2, 2, .rw, .staged, .free⟩, ⟨1, 0, .rw, .staged, .free⟩]
  | .LS_PMU => [⟨4, 2, .rw, .staged, .above 4 4⟩, ⟨1, 0, .rw, .staged, .free⟩]
  | .LS_SLEW => [⟨31, 16, .rw, .staged, .atLeast 1⟩, ⟨15, 0, .rw, .staged, .atLeast 1⟩]
  | .LS_SLEWEN => [⟨5, 0, .rw, .staged, .free⟩]
  | .LS_MEAS => [⟨31, 16, .rw, .staged, .free⟩, ⟨12, 12, .rw, .staged, .free⟩, ⟨11, 8, .rw, .staged, .atMost 12⟩, ⟨7, 0, .rw, .staged, .free⟩]
  | .LS_MRES => [⟨31, 20, .ro, .none, .free⟩, ⟨19, 18, .ro, .none, .free⟩, ⟨17, 0, .ro, .none, .free⟩]
  | .LS_DH => [⟨15, 0, .rw, .staged, .free⟩]
  | .LS_DL => [⟨15, 0, .rw, .staged, .free⟩]
  | .LS_TH => [⟨15, 0, .rw, .staged, .free⟩]
  | .LS_TL => [⟨15, 0, .rw, .staged, .free⟩]
  | .LS_VT => [⟨15, 0, .rw, .staged, .free⟩]
  | .LS_PF => [⟨15, 0, .rw, .staged, .free⟩]
  | .LS_CLR => [⟨15, 0, .rw, .live, .free⟩]
  | .LS_OUT => [⟨15, 0, .ro, .none, .free⟩]
  | .CP_FLAGS => [⟨1, 1, .w1c, .none, .free⟩, ⟨0, 0, .w1c, .none, .free⟩]
  | .CP_CNT0 => [⟨31, 16, .ro, .none, .free⟩, ⟨15, 0, .ro, .none, .free⟩]
  | .CP_CNT1 => [⟨15, 0, .ro, .none, .free⟩]
  | .CP_STATUS => [⟨31, 16, .ro, .none, .free⟩, ⟨15, 0, .ro, .none, .free⟩]
  | .CP_STATE => [⟨31, 0, .ro, .none, .free⟩]
  | .CP_SMDIV => [⟨3, 0, .rw, .live, .free⟩]
  | .CP_SC_CTL => [⟨31, 31, .wo, .live, .free⟩, ⟨29, 24, .rw, .live, .free⟩, ⟨23, 16, .rw, .live, .free⟩, ⟨15, 0, .rw, .live, .free⟩]
  | .CP_SC_STAT => [⟨31, 16, .ro, .none, .free⟩, ⟨1, 0, .ro, .none, .free⟩]
  | .CP_SC_RES => [⟨23, 0, .ro, .none, .free⟩]
  | .CP_CMP => [⟨23, 20, .rw, .staged, .atLeast 1⟩, ⟨19, 16, .rw, .staged, .atLeast 1⟩, ⟨13, 8, .rw, .staged, .atMost 50⟩, ⟨1, 0, .rw, .staged, .free⟩]
  | .CP_WIN => [⟨7, 4, .rw, .staged, .free⟩, ⟨3, 3, .rw, .staged, .free⟩, ⟨2, 0, .rw, .staged, .free⟩]
  | .CP_TRIP => [⟨31, 16, .rw, .staged, .free⟩, ⟨15, 0, .rw, .staged, .free⟩]
  | .CP_SM_CTL => [⟨31, 31, .wo, .live, .free⟩, ⟨27, 24, .rw, .live, .free⟩, ⟨23, 20, .rw, .live, .free⟩, ⟨19, 19, .rw, .live, .free⟩, ⟨18, 18, .rw, .live, .free⟩, ⟨13, 0, .rw, .live, .between 1 10000⟩]
  | .CP_SM_STAT => [⟨31, 16, .ro, .none, .free⟩, ⟨0, 0, .ro, .none, .free⟩]
  | .CP_SM_WT_LO => [⟨31, 0, .rw, .live, .free⟩]
  | .CP_SM_WT_HI => [⟨23, 0, .rw, .live, .free⟩]
  | .CP_SM_WPER => [⟨15, 0, .rw, .live, .free⟩]
  | .CP_PARKN_CTL => [⟨8, 6, .rw, .live, .free⟩, ⟨5, 1, .rw, .live, .free⟩, ⟨0, 0, .rw, .live, .free⟩]
  | .CP_PFLAGS => [⟨0, 0, .w1c, .none, .free⟩]
  | .CP_PCNT => [⟨15, 0, .ro, .none, .free⟩]
  | .CP_TGEN => [⟨15, 0, .rw, .staged, .free⟩]
  | .CP_TGSTAT => [⟨31, 16, .ro, .none, .free⟩, ⟨15, 0, .ro, .none, .free⟩]
  | .CP_TGARM => [⟨15, 0, .wo, .live, .free⟩]
  | .CP_TFLAGS => [⟨1, 1, .w1c, .none, .free⟩, ⟨0, 0, .w1c, .none, .free⟩]
  | .CP_TCNT0 => [⟨31, 16, .ro, .none, .free⟩, ⟨15, 0, .ro, .none, .free⟩]
  | .CP_TGCAUSE => [⟨9, 9, .rw, .staged, .free⟩, ⟨8, 6, .rw, .staged, .free⟩, ⟨5, 1, .rw, .staged, .free⟩, ⟨0, 0, .rw, .staged, .free⟩]
  | .CP_TGREC_LO => [⟨31, 0, .ro, .none, .free⟩]
  | .CP_TGREC_HI => [⟨30, 24, .ro, .none, .free⟩, ⟨23, 0, .ro, .none, .free⟩]
  | .TD_FLAGS => [⟨5, 5, .w1c, .none, .free⟩, ⟨4, 4, .w1c, .none, .free⟩, ⟨3, 3, .w1c, .none, .free⟩, ⟨2, 2, .w1c, .none, .free⟩, ⟨1, 1, .w1c, .none, .free⟩, ⟨0, 0, .w1c, .none, .free⟩]
  | .TD_CNT0 => [⟨31, 16, .ro, .none, .free⟩, ⟨15, 0, .ro, .none, .free⟩]
  | .TD_CNT1 => [⟨31, 16, .ro, .none, .free⟩, ⟨15, 0, .ro, .none, .free⟩]
  | .TD_EVDROP => [⟨31, 0, .ro, .none, .free⟩]
  | .TD_CAL_CTL => [⟨20, 20, .rw, .live, .free⟩, ⟨18, 16, .rw, .live, .atMost 4⟩, ⟨2, 0, .rw, .live, .atMost 4⟩]
  | .TD_CAL_STAT => [⟨31, 16, .ro, .none, .free⟩, ⟨15, 0, .ro, .none, .free⟩]
  | .TD_SWAP_TLO => [⟨31, 0, .ro, .none, .free⟩]
  | .TD_SWAP_THI => [⟨23, 0, .ro, .none, .free⟩]
  | .TD_SRC_RATE => [⟨31, 0, .ro, .none, .free⟩]
  | .TD_BT_ADDR => [⟨14, 14, .rw, .live, .free⟩, ⟨13, 10, .rw, .live, .free⟩, ⟨8, 0, .rw, .live, .free⟩]
  | .TD_BT_DATA => [⟨15, 0, .ro, .none, .free⟩]
  | .TD_EV_CTL => [⟨28, 16, .rw, .staged, .free⟩, ⟨8, 6, .rw, .staged, .free⟩, ⟨5, 1, .rw, .staged, .free⟩, ⟨0, 0, .rw, .staged, .free⟩]
  | .TD_XWIN_CTL => [⟨31, 16, .rw, .staged, .free⟩, ⟨15, 12, .rw, .staged, .free⟩, ⟨11, 8, .rw, .staged, .free⟩, ⟨5, 4, .rw, .staged, .free⟩, ⟨1, 0, .rw, .staged, .free⟩]
  | .TD_XWIN_LEN => [⟨23, 0, .rw, .staged, .atLeast 1⟩]
  | .TD_CH => [⟨15, 15, .rw, .staged, .free⟩, ⟨11, 8, .rw, .staged, .free⟩, ⟨5, 4, .rw, .staged, .free⟩, ⟨3, 2, .rw, .staged, .free⟩, ⟨0, 0, .rw, .staged, .free⟩]
  | .TD_LOST => [⟨31, 0, .ro, .none, .free⟩]
  | .TD_ALIGN => [⟨31, 16, .ro, .none, .free⟩, ⟨15, 0, .ro, .none, .free⟩]
  | .FQ_FLAGS => [⟨2, 2, .w1c, .none, .free⟩, ⟨1, 1, .w1c, .none, .free⟩, ⟨0, 0, .w1c, .none, .free⟩]
  | .FQ_CNT0 => [⟨31, 16, .ro, .none, .free⟩, ⟨15, 0, .ro, .none, .free⟩]
  | .FQ_CNT1 => [⟨15, 0, .ro, .none, .free⟩]
  | .FQ_CTL => [⟨31, 31, .wo, .live, .free⟩, ⟨30, 30, .wo, .live, .free⟩, ⟨0, 0, .rw, .live, .free⟩]
  | .FQ_GATE => [⟨31, 0, .rw, .staged, .between 1 4000000000⟩]
  | .FQ_STAT => [⟨31, 16, .ro, .none, .free⟩, ⟨0, 0, .ro, .none, .free⟩]
  | .FQ_GSTART_LO => [⟨31, 0, .ro, .none, .free⟩]
  | .FQ_GSTART_HI => [⟨23, 0, .ro, .none, .free⟩]
  | .FQ_AGE => [⟨31, 31, .rw, .staged, .free⟩, ⟨17, 16, .rw, .staged, .free⟩, ⟨15, 0, .rw, .staged, .free⟩]
  | .FQ_CH => [⟨31, 31, .rw, .staged, .free⟩, ⟨15, 0, .rw, .staged, .free⟩]
  | .FQ_RF_LO => [⟨31, 0, .ro, .none, .free⟩]
  | .FQ_RF_HI => [⟨31, 0, .ro, .none, .free⟩]
  | .FQ_RN => [⟨31, 0, .ro, .none, .free⟩]
  | .FQ_RSTAT => [⟨7, 4, .ro, .none, .free⟩, ⟨1, 0, .ro, .none, .free⟩]
  | .FC_FLAGS => [⟨5, 5, .w1c, .none, .free⟩, ⟨4, 4, .w1c, .none, .free⟩, ⟨3, 3, .w1c, .none, .free⟩, ⟨2, 2, .w1c, .none, .free⟩, ⟨1, 1, .w1c, .none, .free⟩, ⟨0, 0, .w1c, .none, .free⟩]
  | .FC_CNT0 => [⟨31, 16, .ro, .none, .free⟩, ⟨15, 0, .ro, .none, .free⟩]
  | .FC_CNT1 => [⟨15, 0, .ro, .none, .free⟩]
  | .FC_CNT2 => [⟨31, 16, .ro, .none, .free⟩, ⟨15, 0, .ro, .none, .free⟩]
  | .FC_SUM_CTL => [⟨9, 9, .rw, .staged, .free⟩, ⟨8, 8, .rw, .staged, .free⟩, ⟨4, 0, .rw, .staged, .between 12 20⟩]
  | .FC_SUM_STAT => [⟨31, 26, .ro, .none, .free⟩, ⟨20, 0, .ro, .none, .free⟩]
  | .FC_VCNT_LO => [⟨31, 0, .ro, .none, .free⟩]
  | .FC_VCNT_HI => [⟨8, 0, .ro, .none, .free⟩]
  | .FC_CAUSE => [⟨9, 9, .rw, .staged, .free⟩, ⟨8, 6, .rw, .staged, .free⟩, ⟨5, 1, .rw, .staged, .free⟩, ⟨0, 0, .rw, .staged, .free⟩]
  | .FC_LOG_CTL => [⟨17, 17, .rw, .staged, .free⟩, ⟨16, 16, .rw, .staged, .free⟩, ⟨11, 0, .rw, .staged, .atMost 2048⟩]
  | .FC_LOG_PTR => [⟨28, 16, .rw, .live, .free⟩, ⟨12, 0, .ro, .none, .free⟩]
  | .FC_LOGDROP => [⟨31, 0, .ro, .none, .free⟩]
  | .FC_CAP_CFG => [⟨3, 1, .rw, .staged, .free⟩, ⟨0, 0, .rw, .staged, .free⟩]
  | .FC_CAP_ARM => [⟨2, 2, .wo, .live, .free⟩, ⟨1, 1, .wo, .live, .free⟩, ⟨0, 0, .wo, .live, .free⟩]
  | .FC_CAP_POST => [⟨31, 0, .rw, .staged, .atMost 262144⟩]
  | .FC_CAP_STAT => [⟨31, 30, .ro, .none, .free⟩, ⟨18, 0, .ro, .none, .free⟩]
  | .FC_CAP_CNT => [⟨18, 0, .ro, .none, .free⟩]
  | .FC_CAP_FIRST => [⟨16, 0, .ro, .none, .free⟩]
  | .FC_CAP_TVC_LO => [⟨31, 0, .ro, .none, .free⟩]
  | .FC_CAP_TVC_HI => [⟨8, 0, .ro, .none, .free⟩]
  | .FC_CAP_TT_LO => [⟨31, 0, .ro, .none, .free⟩]
  | .FC_CAP_TT_HI => [⟨23, 0, .ro, .none, .free⟩]
  | .FC_EV_CTL => [⟨1, 1, .rw, .staged, .free⟩, ⟨0, 0, .rw, .staged, .free⟩]
  | .FC_EV_PTR => [⟨29, 16, .rw, .live, .free⟩, ⟨13, 0, .ro, .none, .free⟩]
  | .FC_S1REF => [⟨31, 31, .rw, .staged, .free⟩, ⟨23, 0, .rw, .staged, .free⟩]
  | .AQ_FLAGS => [⟨3, 0, .w1c, .none, .free⟩]
  | .AQ_TOUT_CTL => [⟨14, 11, .rw, .staged, .free⟩, ⟨10, 8, .rw, .staged, .free⟩, ⟨6, 3, .rw, .staged, .free⟩, ⟨2, 0, .rw, .staged, .free⟩]
  | .AQ_SOFT => [⟨3, 0, .wo, .live, .free⟩]
  | .AQ_TE_CTL => [⟨9, 8, .rw, .staged, .free⟩, ⟨7, 7, .rw, .staged, .free⟩, ⟨6, 2, .rw, .staged, .free⟩, ⟨0, 0, .rw, .staged, .free⟩]
  | .AQ_TE_ARM => [⟨1, 1, .wo, .live, .free⟩, ⟨0, 0, .wo, .live, .free⟩]
  | .AQ_TE_HOLD => [⟨31, 0, .rw, .staged, .free⟩]
  | .AQ_TE_OUT => [⟨9, 9, .rw, .staged, .free⟩, ⟨8, 6, .rw, .staged, .free⟩, ⟨5, 1, .rw, .staged, .free⟩, ⟨0, 0, .rw, .staged, .free⟩]
  | .AQ_TE_ENG => [⟨31, 0, .rw, .staged, .free⟩]
  | .AQ_TE_STAT => [⟨31, 16, .ro, .none, .free⟩, ⟨3, 2, .ro, .none, .free⟩, ⟨1, 0, .ro, .none, .free⟩]
  | .AQ_TE_FT_LO => [⟨31, 0, .ro, .none, .free⟩]
  | .AQ_TE_FT_HI => [⟨23, 0, .ro, .none, .free⟩]
  | .AQ_TE_S_CTL => if ix.getD 1 0 = 0 then [⟨31, 16, .rw, .staged, .free⟩, ⟨5, 4, .rw, .staged, .free⟩, ⟨3, 2, .rw, .staged, .free⟩, ⟨1, 1, .rw, .staged, .free⟩, ⟨0, 0, .rw, .staged, .free⟩] else [⟨31, 16, .rw, .staged, .free⟩, ⟨3, 2, .rw, .staged, .free⟩, ⟨1, 1, .rw, .staged, .free⟩, ⟨0, 0, .rw, .staged, .free⟩]
  | .AQ_TE_S_WIN => [⟨31, 0, .rw, .staged, .free⟩]
  | .AQ_TE_S_PAT => [⟨31, 0, .rw, .staged, .free⟩]
  | .WP_FLAGS => [⟨3, 3, .w1c, .none, .free⟩, ⟨2, 2, .w1c, .none, .free⟩, ⟨1, 1, .w1c, .none, .free⟩, ⟨0, 0, .w1c, .none, .free⟩]
  | .WP_CNT0 => [⟨31, 16, .ro, .none, .free⟩, ⟨15, 0, .ro, .none, .free⟩]
  | .WP_CNT1 => [⟨15, 0, .ro, .none, .free⟩]
  | .WP_SKIP => [⟨31, 0, .ro, .none, .free⟩]
  | .WP_USAMP => [⟨31, 0, .ro, .none, .free⟩]
  | .WP_CTL => [⟨27, 26, .rw, .staged, .free⟩, ⟨25, 21, .rw, .staged, .free⟩, ⟨20, 18, .rw, .staged, .free⟩, ⟨17, 17, .rw, .staged, .free⟩, ⟨16, 16, .rw, .staged, .free⟩, ⟨13, 8, .rw, .staged, .free⟩, ⟨4, 2, .rw, .staged, .atMost 5⟩, ⟨1, 1, .rw, .staged, .free⟩, ⟨0, 0, .rw, .staged, .free⟩]
  | .WP_CHMASK => [⟨15, 0, .rw, .staged, .free⟩]
  | .WP_INC_LO => [⟨31, 0, .rw, .staged, .free⟩]
  | .WP_INC_HI => [⟨15, 0, .rw, .staged, .free⟩]
  | .WP_PMUL => [⟨15, 0, .rw, .staged, .atLeast 1⟩]
  | .WP_LIM => [⟨31, 16, .rw, .staged, .free⟩, ⟨15, 0, .rw, .staged, .free⟩]
  | .WP_JSTEP => [⟨15, 0, .rw, .staged, .free⟩]
  | .WP_UNDR => [⟨29, 16, .rw, .staged, .atLeast 1⟩, ⟨7, 0, .rw, .staged, .free⟩]
  | .WP_STRM => [⟨30, 16, .rw, .staged, .atMost 16384⟩, ⟨13, 0, .rw, .staged, .free⟩]
  | .WP_STRM_STAT => [⟨30, 16, .ro, .none, .free⟩, ⟨13, 0, .ro, .none, .free⟩]
  | .WP_CMD => [⟨31, 31, .wo, .live, .free⟩, ⟨30, 30, .wo, .live, .free⟩, ⟨29, 29, .wo, .live, .free⟩, ⟨5, 0, .wo, .live, .free⟩]
  | .WP_SCTL => [⟨31, 31, .wo, .live, .free⟩, ⟨2, 0, .rw, .live, .free⟩]
  | .WP_STGT0 => [⟨31, 0, .rw, .live, .free⟩]
  | .WP_STGT1 => [⟨31, 0, .rw, .live, .free⟩]
  | .WP_STAT => [⟨24, 24, .ro, .none, .free⟩, ⟨23, 16, .ro, .none, .free⟩, ⟨13, 8, .ro, .none, .free⟩, ⟨1, 0, .ro, .none, .free⟩]
  | .WP_REP => [⟨16, 0, .ro, .none, .free⟩]
  | .WP_POS => [⟨31, 16, .ro, .none, .free⟩, ⟨15, 0, .ro, .none, .free⟩]
  | .WP_MARKT_LO => [⟨31, 0, .ro, .none, .free⟩]
  | .WP_MARKT_HI => [⟨23, 0, .ro, .none, .free⟩]
  | .WP_UHPTR => [⟨3, 0, .ro, .none, .free⟩]
  | .WP_UH_SLO => [⟨31, 0, .ro, .none, .free⟩]
  | .WP_UH_SHI => [⟨23, 0, .ro, .none, .free⟩]
  | .WP_UH_ELO => [⟨31, 0, .ro, .none, .free⟩]
  | .WP_UH_EHI => [⟨31, 31, .ro, .none, .free⟩, ⟨23, 0, .ro, .none, .free⟩]
  | .WP_SEQ_A => [⟨24, 24, .rw, .staged, .free⟩, ⟨23, 18, .rw, .staged, .free⟩, ⟨17, 12, .rw, .staged, .free⟩, ⟨11, 8, .rw, .staged, .free⟩, ⟨7, 0, .rw, .staged, .free⟩]
  | .WP_SEQ_B => [⟨16, 16, .rw, .staged, .free⟩, ⟨15, 0, .rw, .staged, .free⟩]
  | .WP_SEG_A => [⟨16, 16, .rw, .staged, .free⟩, ⟨15, 0, .rw, .staged, .free⟩]
  | .WP_SEG_B => [⟨15, 0, .rw, .staged, .free⟩]
  | .SQ_FLAGS => [⟨4, 4, .w1c, .none, .free⟩, ⟨3, 3, .w1c, .none, .free⟩, ⟨2, 2, .w1c, .none, .free⟩, ⟨1, 1, .w1c, .none, .free⟩, ⟨0, 0, .w1c, .none, .free⟩]
  | .SQ_CLAMP_COUNT => [⟨15, 0, .ro, .none, .free⟩]
  | .SQ_CLAMP_LAST => [⟨13, 0, .ro, .none, .free⟩]
  | .SQ_CNT0 => [⟨31, 16, .ro, .none, .free⟩, ⟨15, 0, .ro, .none, .free⟩]
  | .SQ_CNT1 => [⟨31, 16, .ro, .none, .free⟩, ⟨15, 0, .ro, .none, .free⟩]
  | .SQ_UNDRCNT => [⟨31, 0, .ro, .none, .free⟩]
  | .SQ_GANG => [⟨2, 0, .rw, .staged, .atMost 5⟩]
  | .SQ_CMD => [⟨31, 28, .wo, .live, .free⟩, ⟨4, 0, .wo, .live, .free⟩]
  | .SQ_DOORBELL => [⟨8, 6, .wo, .live, .free⟩, ⟨5, 1, .wo, .live, .free⟩, ⟨0, 0, .wo, .live, .free⟩]
  | .SQ_HOSTF => [⟨3, 0, .rw, .live, .free⟩]
  | .SQ_STAT => [⟨31, 27, .ro, .none, .free⟩, ⟨26, 24, .ro, .none, .free⟩, ⟨23, 21, .ro, .none, .free⟩, ⟨20, 16, .ro, .none, .free⟩]
  | .SQ_ELIG => [⟨31, 0, .ro, .none, .free⟩]
  | .SQ_RT_PHL => [⟨8, 6, .rw, .staged, .free⟩, ⟨5, 1, .rw, .staged, .free⟩, ⟨0, 0, .rw, .staged, .free⟩]
  | .SQ_RT_OCHRE => [⟨8, 6, .rw, .staged, .free⟩, ⟨5, 1, .rw, .staged, .free⟩, ⟨0, 0, .rw, .staged, .free⟩]
  | .SQ_RT_MSG => [⟨8, 6, .rw, .staged, .free⟩, ⟨5, 1, .rw, .staged, .free⟩, ⟨0, 0, .rw, .staged, .free⟩]
  | .SQ_TMR_LO => [⟨31, 0, .rw, .live, .free⟩]
  | .SQ_TMR_HI => [⟨23, 0, .rw, .live, .free⟩]
  | .SQ_TMR_PER => [⟨31, 0, .rw, .live, .free⟩]
  | .SQ_TMR_CTL => [⟨31, 31, .wo, .live, .free⟩, ⟨30, 30, .ro, .none, .free⟩, ⟨8, 6, .rw, .live, .free⟩, ⟨5, 1, .rw, .live, .free⟩, ⟨0, 0, .rw, .live, .free⟩]
  | .SQ_STRM => [⟨20, 16, .rw, .staged, .between 1 16⟩, ⟨0, 0, .rw, .staged, .free⟩]
  | .SQ_STRM_STAT => [⟨29, 16, .ro, .none, .free⟩]
  | .SQ_UH_SLO => [⟨31, 0, .ro, .none, .free⟩]
  | .SQ_UH_SHI => [⟨23, 0, .ro, .none, .free⟩]
  | .SQ_UH_ELO => [⟨31, 0, .ro, .none, .free⟩]
  | .SQ_UH_EHI => [⟨31, 31, .ro, .none, .free⟩, ⟨23, 0, .ro, .none, .free⟩]
  | .SQ_MSGIN0 => [⟨31, 0, .wo, .live, .free⟩]
  | .SQ_MSGIN1 => [⟨31, 0, .wo, .live, .free⟩]
  | .SQ_MSGIN2 => [⟨7, 0, .wo, .live, .free⟩]
  | .SQ_MSGSTAT => [⟨4, 0, .ro, .none, .free⟩]
  | .SQ_TMR_PERHI => [⟨15, 0, .rw, .live, .free⟩]
  | .SQ_BAR_MASK => [⟨31, 0, .rw, .staged, .free⟩]
  | .SQ_BAR_CTL => [⟨31, 31, .rw, .staged, .free⟩, ⟨15, 0, .rw, .staged, .free⟩]
  | .SQ_BAR_ARR => [⟨31, 0, .ro, .none, .free⟩]
  | .SQ_DOMSYNC => [⟨15, 0, .rw, .staged, .free⟩]
  | .SQ_CTX_STAT => [⟨31, 30, .ro, .none, .free⟩, ⟨29, 27, .ro, .none, .free⟩, ⟨26, 24, .ro, .none, .free⟩, ⟨22, 14, .w1c, .none, .free⟩, ⟨13, 0, .rw, .live, .free⟩]
  | .SQ_CTX_CFG => [⟨31, 16, .rw, .live, .free⟩, ⟨15, 11, .rw, .live, .free⟩, ⟨10, 8, .rw, .live, .free⟩, ⟨7, 5, .rw, .live, .free⟩]
  | .SQ_CTX_FLAGS => [⟨9, 9, .w1c, .none, .free⟩, ⟨8, 8, .w1c, .none, .free⟩, ⟨7, 7, .w1c, .none, .free⟩, ⟨6, 6, .w1c, .none, .free⟩, ⟨5, 5, .w1c, .none, .free⟩, ⟨2, 0, .rw, .live, .free⟩]
  | .SQ_CTX_RES => [⟨23, 0, .ro, .none, .free⟩]
  | .SQ_CTX_STK01 => [⟨31, 31, .ro, .none, .free⟩, ⟨29, 16, .ro, .none, .free⟩, ⟨15, 15, .ro, .none, .free⟩, ⟨13, 0, .ro, .none, .free⟩]
  | .SQ_CTX_STK23 => [⟨31, 31, .ro, .none, .free⟩, ⟨29, 16, .ro, .none, .free⟩, ⟨15, 15, .ro, .none, .free⟩, ⟨13, 0, .ro, .none, .free⟩]
  | .SQ_CTX_L => [⟨23, 0, .rw, .live, .free⟩]
  | .SQ_CTX_Q => [⟨23, 0, .rw, .live, .free⟩]
  | .MC_VERSION => [⟨31, 24, .ro, .none, .free⟩, ⟨23, 16, .ro, .none, .free⟩, ⟨15, 0, .ro, .none, .free⟩]
  | .MC_IMAGE_CRC => [⟨31, 0, .ro, .none, .free⟩]
  | .MC_STAT => [⟨11, 8, .ro, .none, .free⟩, ⟨5, 4, .ro, .none, .free⟩, ⟨2, 0, .ro, .none, .free⟩]
  | .MC_BOOT => [⟨2, 2, .ro, .none, .free⟩, ⟨1, 0, .ro, .none, .free⟩]
  | .MC_CMD => [⟨8, 8, .wo, .live, .free⟩, ⟨3, 0, .wo, .live, .free⟩]
  | .MC_LDVER => [⟨31, 0, .rw, .live, .free⟩]
  | .MC_LDCRC => [⟨31, 0, .rw, .live, .free⟩]
  | .MC_LDNENT => [⟨11, 0, .rw, .live, .between 1 2048⟩]
  | .MC_SLOT_VER => [⟨31, 0, .ro, .none, .free⟩]
  | .MC_SLOT_CRC => [⟨31, 0, .ro, .none, .free⟩]
  | .MC_VSTAT => [⟨4, 4, .ro, .none, .free⟩, ⟨1, 0, .ro, .none, .free⟩]
  | .MC_IMGSEL => [⟨0, 0, .rw, .staged, .free⟩]
  | .MC_DISP_ADDR => [⟨7, 0, .rw, .live, .free⟩]
  | .MC_DISP_DATA => [⟨15, 0, .rw, .live, .free⟩]
  | .MC_WIN => [⟨4, 0, .rw, .live, .free⟩]
  | .MC_MCHKMAP => [⟨31, 0, .ro, .none, .free⟩]
  | .MC_FLAGS => [⟨5, 5, .w1c, .none, .free⟩, ⟨4, 4, .w1c, .none, .free⟩, ⟨3, 3, .w1c, .none, .free⟩, ⟨2, 2, .w1c, .none, .free⟩, ⟨1, 1, .w1c, .none, .free⟩, ⟨0, 0, .w1c, .none, .free⟩]
  | .MC_CNT0 => [⟨31, 16, .ro, .none, .free⟩, ⟨15, 0, .ro, .none, .free⟩]
  | .MC_CNT1 => [⟨31, 16, .ro, .none, .free⟩, ⟨15, 0, .ro, .none, .free⟩]
  | .MC_CNT2 => [⟨31, 16, .ro, .none, .free⟩, ⟨15, 0, .ro, .none, .free⟩]
  | .MC_INJ => [⟨31, 31, .wo, .live, .free⟩, ⟨26, 16, .wo, .live, .free⟩, ⟨10, 8, .wo, .live, .free⟩, ⟨4, 0, .wo, .live, .free⟩]
  | .MC_MCHK => [⟨27, 25, .ro, .none, .free⟩, ⟨24, 17, .ro, .none, .free⟩, ⟨16, 11, .ro, .none, .free⟩, ⟨10, 0, .ro, .none, .free⟩]
  | .CM_CMD => [⟨31, 28, .wo, .live, .free⟩, ⟨27, 27, .wo, .live, .free⟩, ⟨26, 24, .wo, .live, .free⟩, ⟨20, 16, .wo, .live, .free⟩]
  | .CM_TGT0 => [⟨31, 0, .rw, .live, .free⟩]
  | .CM_TGT1 => [⟨31, 0, .rw, .live, .free⟩]
  | .CM_STATUS => [⟨23, 14, .ro, .none, .free⟩, ⟨13, 8, .ro, .none, .free⟩, ⟨7, 4, .ro, .none, .free⟩, ⟨3, 0, .ro, .none, .free⟩]
  | .CM_WHERE => [⟨15, 10, .ro, .none, .free⟩, ⟨9, 0, .ro, .none, .free⟩]
  | .CM_CKMAP_LO => [⟨31, 0, .ro, .none, .free⟩]
  | .CM_CKMAP_HI => [⟨7, 0, .ro, .none, .free⟩]
  | .CM_ID => [⟨15, 0, .ro, .none, .free⟩]
  | .CM_AT_LO => [⟨31, 0, .ro, .none, .free⟩]
  | .CM_AT_HI => [⟨23, 0, .ro, .none, .free⟩]
  | .CM_FLAGS => [⟨7, 7, .w1c, .none, .free⟩, ⟨6, 6, .w1c, .none, .free⟩, ⟨5, 5, .w1c, .none, .free⟩, ⟨4, 4, .w1c, .none, .free⟩, ⟨3, 3, .w1c, .none, .free⟩, ⟨2, 2, .w1c, .none, .free⟩, ⟨1, 1, .w1c, .none, .free⟩, ⟨0, 0, .w1c, .none, .free⟩]
  | .CM_CNT0 => [⟨31, 16, .ro, .none, .free⟩, ⟨15, 0, .ro, .none, .free⟩]
  | .CM_CNT1 => [⟨31, 16, .ro, .none, .free⟩, ⟨15, 0, .ro, .none, .free⟩]
  | .CM_CNT2 => [⟨31, 16, .ro, .none, .free⟩, ⟨15, 0, .ro, .none, .free⟩]
  | .CM_CNT3 => [⟨31, 16, .ro, .none, .free⟩, ⟨15, 0, .ro, .none, .free⟩]
  | .CM_DOM => [⟨31, 16, .rw, .live, .atLeast 1⟩, ⟨15, 0, .rw, .live, .atLeast 1⟩]
  | .SN_CMD => [⟨2, 2, .wo, .live, .free⟩, ⟨1, 1, .wo, .live, .free⟩, ⟨0, 0, .wo, .live, .free⟩]
  | .SN_CTL => [⟨11, 8, .rw, .live, .free⟩, ⟨0, 0, .rw, .live, .free⟩]
  | .SN_TT_LO => [⟨31, 0, .rw, .live, .free⟩]
  | .SN_TT_HI => [⟨23, 0, .rw, .live, .free⟩]
  | .SN_STAT => [⟨31, 16, .ro, .none, .free⟩, ⟨6, 6, .ro, .none, .free⟩, ⟨5, 4, .ro, .none, .free⟩, ⟨3, 0, .ro, .none, .free⟩]
  | .SN_REL => [⟨3, 0, .wo, .live, .free⟩]
  | .SN_FLAGS => [⟨1, 1, .w1c, .none, .free⟩, ⟨0, 0, .w1c, .none, .free⟩]
  | .SN_CNT => [⟨31, 16, .ro, .none, .free⟩, ⟨15, 0, .ro, .none, .free⟩]
  | .SN_RADDR => [⟨17, 16, .rw, .live, .free⟩, ⟨15, 0, .rw, .live, .free⟩]
  | .SN_RDATA => [⟨31, 0, .ro, .none, .free⟩]
  | .DG_DIGEST_LO => [⟨31, 0, .ro, .none, .free⟩]
  | .DG_DIGEST_HI => [⟨31, 0, .ro, .none, .free⟩]
  | .DG_SDIGEST_LO => [⟨31, 0, .ro, .none, .free⟩]
  | .DG_SDIGEST_HI => [⟨31, 0, .ro, .none, .free⟩]
  | .DG_CLASS => [⟨7, 0, .rw, .live, .free⟩]
  | .DG_CTL => [⟨16, 16, .rw, .live, .free⟩, ⟨15, 0, .rw, .live, .atLeast 1⟩]
  | .DG_CMD => [⟨1, 1, .wo, .live, .free⟩, ⟨0, 0, .wo, .live, .free⟩]
  | .DG_STAT => [⟨2, 2, .ro, .none, .free⟩, ⟨1, 1, .ro, .none, .free⟩, ⟨0, 0, .ro, .none, .free⟩]
  | .DG_FLAGS => [⟨1, 1, .w1c, .none, .free⟩, ⟨0, 0, .w1c, .none, .free⟩]
  | .DG_CNT => [⟨31, 16, .ro, .none, .free⟩, ⟨15, 0, .ro, .none, .free⟩]
  | .DG_DOMSTAT => [⟨25, 16, .ro, .none, .free⟩, ⟨10, 0, .ro, .none, .free⟩]
  | .DG_CVALID => [⟨31, 0, .rw, .live, .free⟩]
  | .DG_CREF_LO => [⟨31, 0, .rw, .live, .free⟩]
  | .DG_CREF_HI => [⟨31, 0, .rw, .live, .free⟩]
  | .CL_DEVNUM => [⟨31, 31, .ro, .none, .free⟩, ⟨30, 30, .ro, .none, .free⟩, ⟨9, 0, .rw, .live, .free⟩]
  | .CL_DOM_CTL => [⟨31, 31, .rw, .live, .free⟩, ⟨30, 30, .rw, .live, .free⟩, ⟨15, 0, .rw, .live, .atLeast 1⟩]
  | .CL_DOM_STAT => [⟨31, 28, .ro, .none, .free⟩, ⟨26, 16, .ro, .none, .free⟩, ⟨2, 0, .ro, .none, .free⟩]
  | .CL_DOM_CMD => [⟨31, 28, .wo, .live, .free⟩]
  | .CL_FLAGS => [⟨6, 6, .w1c, .none, .free⟩, ⟨5, 5, .w1c, .none, .free⟩, ⟨4, 4, .w1c, .none, .free⟩, ⟨3, 3, .w1c, .none, .free⟩, ⟨2, 2, .w1c, .none, .free⟩, ⟨1, 1, .w1c, .none, .free⟩, ⟨0, 0, .w1c, .none, .free⟩]
  | .CL_CNT0 => [⟨31, 16, .ro, .none, .free⟩, ⟨15, 0, .ro, .none, .free⟩]
  | .CL_CNT1 => [⟨31, 16, .ro, .none, .free⟩, ⟨15, 0, .ro, .none, .free⟩]
  | .CL_CNT2 => [⟨31, 16, .ro, .none, .free⟩, ⟨15, 0, .ro, .none, .free⟩]
  | .CL_TA_CTL => [⟨3, 0, .rw, .live, .atMost 8⟩]
  | .CL_TA_STAT => [⟨2, 0, .ro, .none, .free⟩]
  | .CL_TA_OFS => [⟨31, 0, .ro, .none, .free⟩]
  | .CL_TA_TRIM => [⟨23, 0, .ro, .none, .free⟩]
  | .CL_TA_STEP => [⟨31, 0, .ro, .none, .free⟩]
  | .CL_RRA_ADDR => [⟨23, 0, .rw, .live, .free⟩]
  | .CL_RRA_DATA => [⟨31, 0, .rw, .live, .free⟩]
  | .CL_RRA_CMD => [⟨31, 31, .wo, .live, .free⟩, ⟨30, 30, .rw, .live, .free⟩, ⟨25, 16, .rw, .live, .free⟩, ⟨15, 0, .rw, .live, .atLeast 1⟩]
  | .CL_RRA_STAT => [⟨2, 0, .ro, .none, .free⟩]
  | .CL_P_CTL => [⟨31, 16, .rw, .live, .free⟩, ⟨0, 0, .rw, .live, .free⟩]
  | .CL_P_STAT => [⟨31, 31, .ro, .none, .free⟩, ⟨25, 16, .ro, .none, .free⟩, ⟨9, 8, .ro, .none, .free⟩, ⟨7, 4, .ro, .none, .free⟩, ⟨2, 0, .ro, .none, .free⟩]
  | .CL_P_ERR => [⟨31, 16, .ro, .none, .free⟩, ⟨15, 0, .ro, .none, .free⟩]
  | .CL_P_TRAIN => [⟨31, 16, .ro, .none, .free⟩, ⟨15, 0, .ro, .none, .free⟩]
  | .CL_P_DROP => [⟨31, 0, .ro, .none, .free⟩]
  | .CL_P_DLY => [⟨31, 0, .ro, .none, .free⟩]
  | .CL_MEM => [⟨31, 0, .ro, .none, .free⟩]
  | .TW_CTL => [⟨2, 2, .rw, .live, .free⟩, ⟨1, 1, .rw, .live, .free⟩, ⟨0, 0, .rw, .live, .free⟩]
  | .TW_AGREE => [⟨31, 16, .rw, .staged, .free⟩, ⟨15, 4, .rw, .staged, .free⟩, ⟨0, 0, .rw, .staged, .free⟩]
  | .TW_CMD => [⟨31, 28, .wo, .live, .free⟩]
  | .TW_STAT => [⟨31, 28, .ro, .none, .free⟩, ⟨26, 24, .ro, .none, .free⟩, ⟨16, 16, .ro, .none, .free⟩, ⟨2, 0, .ro, .none, .free⟩]
  | .TW_FLAGS => [⟨5, 5, .w1c, .none, .free⟩, ⟨4, 4, .w1c, .none, .free⟩, ⟨3, 3, .w1c, .none, .free⟩, ⟨2, 2, .w1c, .none, .free⟩, ⟨1, 1, .w1c, .none, .free⟩, ⟨0, 0, .w1c, .none, .free⟩]
  | .TW_CNT0 => [⟨31, 16, .ro, .none, .free⟩, ⟨15, 0, .ro, .none, .free⟩]
  | .TW_CNT1 => [⟨31, 16, .ro, .none, .free⟩, ⟨15, 0, .ro, .none, .free⟩]
  | .TW_CNT2 => [⟨31, 16, .ro, .none, .free⟩, ⟨15, 0, .ro, .none, .free⟩]
  | .TW_TAKE_LO => [⟨31, 0, .ro, .none, .free⟩]
  | .TW_TAKE_HI => [⟨31, 28, .ro, .none, .free⟩, ⟨23, 0, .ro, .none, .free⟩]
  | .TW_DIS => [⟨31, 27, .ro, .none, .free⟩, ⟨26, 21, .ro, .none, .free⟩, ⟨15, 0, .ro, .none, .free⟩]
  | .TW_RJ_STAT => [⟨31, 0, .ro, .none, .free⟩]
  | .TW_RJ_TMO => [⟨15, 0, .rw, .live, .atLeast 1⟩]
  | .HI_ID => [⟨31, 16, .ro, .none, .free⟩, ⟨15, 0, .ro, .none, .free⟩]
  | .HI_SUBID => [⟨31, 16, .ro, .none, .free⟩, ⟨15, 0, .ro, .none, .free⟩]
  | .HI_LINK => [⟨7, 4, .ro, .none, .free⟩, ⟨3, 0, .ro, .none, .free⟩]
  | .HI_FLAGS => [⟨5, 5, .w1c, .none, .free⟩, ⟨4, 4, .w1c, .none, .free⟩, ⟨3, 3, .w1c, .none, .free⟩, ⟨2, 2, .w1c, .none, .free⟩, ⟨1, 1, .w1c, .none, .free⟩, ⟨0, 0, .w1c, .none, .free⟩]
  | .HI_CNT0 => [⟨31, 16, .ro, .none, .free⟩, ⟨15, 0, .ro, .none, .free⟩]
  | .HI_CNT1 => [⟨31, 16, .ro, .none, .free⟩, ⟨15, 0, .ro, .none, .free⟩]
  | .HI_CNT2 => [⟨31, 16, .ro, .none, .free⟩, ⟨15, 0, .ro, .none, .free⟩]
  | .HI_CAUSE => [⟨31, 0, .ro, .none, .free⟩]
  | .HI_IMASK => [⟨31, 0, .rw, .live, .free⟩]
  | .HI_RDONE => [⟨7, 0, .w1c, .none, .free⟩]
  | .HI_FLUSH => [⟨5, 0, .wo, .live, .free⟩]
  | .HI_IMAP => [⟨5, 0, .rw, .live, .free⟩, ⟨13, 8, .rw, .live, .free⟩, ⟨21, 16, .rw, .live, .free⟩, ⟨29, 24, .rw, .live, .free⟩]
  | .HI_CAPRD_CTL => [⟨31, 31, .wo, .live, .free⟩, ⟨21, 17, .rw, .live, .free⟩, ⟨16, 0, .rw, .live, .free⟩]
  | .HI_CAPRD_CNT => [⟨17, 0, .rw, .live, .between 1 131072⟩]
  | .HI_CAPRD_STAT => [⟨31, 30, .ro, .none, .free⟩, ⟨17, 0, .ro, .none, .free⟩]
  | .HI_SPI_CTL => [⟨31, 31, .wo, .live, .free⟩, ⟨30, 30, .ro, .none, .free⟩, ⟨27, 24, .rw, .live, .atMost 8⟩, ⟨9, 9, .rw, .live, .free⟩, ⟨8, 8, .rw, .live, .free⟩, ⟨7, 0, .rw, .live, .free⟩]
  | .HI_SPI_ADDR => [⟨23, 0, .rw, .live, .free⟩]
  | .HI_SPI_D0 => [⟨31, 0, .rw, .live, .free⟩]
  | .HI_SPI_D1 => [⟨31, 0, .rw, .live, .free⟩]
  | .HI_SMB => [⟨6, 0, .rw, .live, .free⟩]
  | .HI_GCAUSE => [⟨31, 0, .ro, .none, .free⟩]
  | .HI_RING_BASE_LO => [⟨31, 4, .rw, .live, .free⟩]
  | .HI_QV_BASE_LO => [⟨31, 4, .rw, .live, .free⟩]
  | .HI_QW_BASE_LO => [⟨31, 4, .rw, .live, .free⟩]
  | .HI_RING_BASE_HI => [⟨31, 0, .rw, .live, .free⟩]
  | .HI_QV_BASE_HI => [⟨31, 0, .rw, .live, .free⟩]
  | .HI_QW_BASE_HI => [⟨31, 0, .rw, .live, .free⟩]
  | .HI_RING_CTL => [⟨31, 16, .rw, .live, .atLeast 1⟩, ⟨8, 4, .rw, .live, .between 4 16⟩, ⟨2, 2, .rw, .live, .free⟩, ⟨1, 1, .rw, .live, .free⟩, ⟨0, 0, .rw, .live, .free⟩]
  | .HI_QV_CTL => [⟨15, 12, .rw, .live, .free⟩, ⟨8, 4, .rw, .live, .between 4 16⟩, ⟨2, 2, .rw, .live, .free⟩, ⟨1, 1, .rw, .live, .free⟩, ⟨0, 0, .rw, .live, .free⟩]
  | .HI_QW_CTL => [⟨15, 12, .rw, .live, .free⟩, ⟨8, 4, .rw, .live, .between 4 16⟩, ⟨2, 2, .rw, .live, .free⟩, ⟨1, 1, .rw, .live, .free⟩, ⟨0, 0, .rw, .live, .free⟩]
  | .HI_RING_HEAD => [⟨31, 0, .ro, .none, .free⟩]
  | .HI_QV_HEAD => [⟨31, 0, .ro, .none, .free⟩]
  | .HI_QW_HEAD => [⟨31, 0, .ro, .none, .free⟩]
  | .HI_RING_TAIL => [⟨31, 0, .rw, .live, .free⟩]
  | .HI_QV_TAIL => [⟨31, 0, .rw, .live, .free⟩]
  | .HI_QW_TAIL => [⟨31, 0, .rw, .live, .free⟩]
  | .HI_RING_WB_LO => [⟨31, 3, .rw, .live, .free⟩]
  | .HI_QV_WB_LO => [⟨31, 3, .rw, .live, .free⟩]
  | .HI_QW_WB_LO => [⟨31, 3, .rw, .live, .free⟩]
  | .HI_RING_WB_HI => [⟨31, 0, .rw, .live, .free⟩]
  | .HI_QV_WB_HI => [⟨31, 0, .rw, .live, .free⟩]
  | .HI_QW_WB_HI => [⟨31, 0, .rw, .live, .free⟩]
  | .HI_RING_DROP => [⟨31, 0, .ro, .none, .free⟩]
  | .HI_QV_QSTAT => [⟨31, 30, .ro, .none, .free⟩, ⟨15, 0, .ro, .none, .free⟩]
  | .HI_QW_QSTAT => [⟨31, 30, .ro, .none, .free⟩, ⟨15, 0, .ro, .none, .free⟩]
  | .GL_ID => [⟨31, 24, .ro, .none, .free⟩, ⟨15, 0, .ro, .none, .free⟩]
  | .GL_STATUS => [⟨7, 5, .ro, .none, .free⟩, ⟨2, 2, .ro, .none, .free⟩, ⟨1, 1, .ro, .none, .free⟩, ⟨0, 0, .ro, .none, .free⟩]
  | .GL_PIN_ENABLE => [⟨1, 1, .ro, .none, .free⟩, ⟨0, 0, .rw, .live, .free⟩]
  | .GL_CLAMP_COUNT => [⟨15, 0, .rc, .none, .free⟩]
  | .GL_CLAMP_LAST => [⟨23, 0, .ro, .none, .free⟩]
  | .GL_RESET_GRP => [⟨31, 0, .wo, .live, .free⟩]
  | .GL_RESET_DEV => [⟨2, 2, .wo, .live, .free⟩, ⟨1, 1, .wo, .live, .free⟩, ⟨0, 0, .wo, .live, .free⟩]
  | .GL_FLAGS => [⟨2, 2, .w1c, .none, .free⟩, ⟨1, 1, .w1c, .none, .free⟩, ⟨0, 0, .w1c, .none, .free⟩]
  | .GL_CNT0 => [⟨31, 16, .ro, .none, .free⟩, ⟨15, 0, .ro, .none, .free⟩]
  | .GL_BIST_ENG => [⟨31, 0, .ro, .none, .free⟩]
  | .GL_BIST_GRP => [⟨31, 0, .ro, .none, .free⟩]
  | .CK_STAT => [⟨2, 2, .ro, .none, .free⟩, ⟨1, 1, .ro, .none, .free⟩, ⟨0, 0, .ro, .none, .free⟩]
  | .CK_RSTCAUSE => [⟨3, 3, .w1c, .none, .free⟩, ⟨2, 2, .w1c, .none, .free⟩, ⟨1, 1, .w1c, .none, .free⟩, ⟨0, 0, .w1c, .none, .free⟩]
  | .CK_FLAGS => [⟨2, 2, .w1c, .none, .free⟩, ⟨1, 1, .w1c, .none, .free⟩, ⟨0, 0, .w1c, .none, .free⟩]
  | .CK_CNT0 => [⟨31, 16, .ro, .none, .free⟩, ⟨15, 0, .ro, .none, .free⟩]
  | .CK_XRESET_DROP => [⟨31, 0, .ro, .none, .free⟩]
  | .CK_XRESET_LAST => [⟨2, 0, .ro, .none, .free⟩]
  | .CK_CNT1 => [⟨15, 0, .ro, .none, .free⟩]
  | .TH_TEMP => [⟨15, 0, .ro, .none, .free⟩]
  | .TH_STAT => [⟨17, 14, .ro, .none, .free⟩, ⟨13, 10, .ro, .none, .free⟩, ⟨9, 5, .ro, .none, .free⟩, ⟨4, 0, .ro, .none, .free⟩]
  | .TH_FLAGS => [⟨5, 5, .w1c, .none, .free⟩, ⟨4, 4, .w1c, .none, .free⟩, ⟨3, 3, .w1c, .none, .free⟩, ⟨2, 2, .w1c, .none, .free⟩, ⟨1, 1, .w1c, .none, .free⟩, ⟨0, 0, .w1c, .none, .free⟩]
  | .TH_CNT0 => [⟨31, 16, .ro, .none, .free⟩, ⟨15, 0, .ro, .none, .free⟩]
  | .TH_CNT1 => [⟨31, 16, .ro, .none, .free⟩, ⟨15, 0, .ro, .none, .free⟩]
  | .TH_CNT2 => [⟨31, 16, .ro, .none, .free⟩, ⟨15, 0, .ro, .none, .free⟩]
  | .TH_CMD => [⟨4, 4, .wo, .live, .free⟩, ⟨3, 0, .wo, .live, .free⟩]
  | .TH_OCH_CTL => [⟨0, 0, .rw, .live, .free⟩]
  | .TH_OCH_I => [⟨15, 0, .ro, .none, .free⟩]
  | .TH_OCH_B => [⟨31, 16, .rc, .none, .free⟩, ⟨15, 0, .ro, .none, .free⟩]
  | .NV_CTL => [⟨1, 1, .rw, .live, .free⟩, ⟨0, 0, .rw, .live, .free⟩]
  | .NV_UNLOCK => [⟨15, 0, .wo, .live, .free⟩]
  | .NV_STAT => [⟨8, 8, .ro, .none, .free⟩, ⟨7, 1, .ro, .none, .free⟩, ⟨0, 0, .ro, .none, .free⟩]
  | .NV_FLAGS => [⟨3, 3, .w1c, .none, .free⟩, ⟨2, 2, .w1c, .none, .free⟩, ⟨1, 1, .w1c, .none, .free⟩, ⟨0, 0, .w1c, .none, .free⟩]
  | .NV_CNT0 => [⟨31, 16, .ro, .none, .free⟩, ⟨15, 0, .ro, .none, .free⟩]
  | .NV_CNT1 => [⟨31, 16, .ro, .none, .free⟩, ⟨15, 0, .ro, .none, .free⟩]
  | .NV_LASTERR => [⟨17, 0, .ro, .none, .free⟩]
  | .MSIX_ADDR_LO => [⟨31, 0, .rw, .none, .free⟩]
  | .MSIX_ADDR_HI => [⟨31, 0, .rw, .none, .free⟩]
  | .MSIX_DATA => [⟨31, 0, .rw, .none, .free⟩]
  | .MSIX_VCTL => [⟨0, 0, .rw, .none, .free⟩]
  | .MSIX_PBA => [⟨31, 0, .ro, .none, .free⟩]

/-- The register behind a name and its indices. -/
def RegName.reg (r : RegName) (ix : List Nat) : Reg :=
  let a := ix.getD 0 0
  let b := ix.getD 1 0
  let c := ix.getD 2 0
  match r with
  | .TP_TIME_LO => Machine.TP_TIME_LO
  | .TP_TIME_HI => Machine.TP_TIME_HI
  | .TP_TBREF_CTL => Machine.TP_TBREF_CTL
  | .TP_TBREF_ERR => Machine.TP_TBREF_ERR
  | .TP_TBREF_TRIM => Machine.TP_TBREF_TRIM
  | .TP_PH_CTL => Machine.TP_PH_CTL
  | .TP_PH_CPC => Machine.TP_PH_CPC
  | .TP_PH_IDXPOS => Machine.TP_PH_IDXPOS
  | .TP_PH_LOOP => Machine.TP_PH_LOOP
  | .TP_PH_ANGLE => Machine.TP_PH_ANGLE
  | .TP_PH_CYCLE => Machine.TP_PH_CYCLE
  | .TP_PH_VEL => Machine.TP_PH_VEL
  | .TP_STATUS => Machine.TP_STATUS
  | .TP_FLAGS => Machine.TP_FLAGS
  | .TP_CNT0 => Machine.TP_CNT0
  | .TP_CNT1 => Machine.TP_CNT1
  | .TP_CNT2 => Machine.TP_CNT2
  | .TP_PH_IDXERR => Machine.TP_PH_IDXERR
  | .TP_STEP => Machine.TP_STEP
  | .TP_STEP_TIME_LO => Machine.TP_STEP_TIME_LO
  | .TP_STEP_TIME_HI => Machine.TP_STEP_TIME_HI
  | .TP_DOM_CTL => Machine.TP_DOM_CTL
  | .TP_PCMP_CYC => Machine.TP_PCMP_CYC a
  | .TP_PCMP_ANG => Machine.TP_PCMP_ANG a
  | .TP_PCMP_CTL => Machine.TP_PCMP_CTL a
  | .TP_PCMP_ENG => Machine.TP_PCMP_ENG a
  | .TP_SLOT_ANG => Machine.TP_SLOT_ANG a
  | .TP_SLOT_CTL => Machine.TP_SLOT_CTL a
  | .TP_SLOT_ENG => Machine.TP_SLOT_ENG a
  | .TP_SLOT_LAST => Machine.TP_SLOT_LAST a
  | .TG_TS_USE => Machine.TG_TS_USE a
  | .TG_FLAGS => Machine.TG_FLAGS a
  | .TG_CNT0 => Machine.TG_CNT0 a
  | .TG_CNT1 => Machine.TG_CNT1 a
  | .TG_CNT2 => Machine.TG_CNT2 a
  | .TG_DSK_CTL => Machine.TG_DSK_CTL a
  | .TG_DSK_STAT => Machine.TG_DSK_STAT a
  | .TG_DSK_TEMP => Machine.TG_DSK_TEMP a
  | .TG_TDR_CTL => Machine.TG_TDR_CTL a
  | .TG_TDR_STAT => Machine.TG_TDR_STAT a
  | .TG_TDR_RES => Machine.TG_TDR_RES a
  | .TG_TDR_SPREAD => Machine.TG_TDR_SPREAD a
  | .TG_CAL_CTL => Machine.TG_CAL_CTL a
  | .TG_CAL_TLO => Machine.TG_CAL_TLO a
  | .TG_CAL_THI => Machine.TG_CAL_THI a
  | .TG_CAL_MEAS => Machine.TG_CAL_MEAS a
  | .TG_TS_PER => Machine.TG_TS_PER a b
  | .TG_DSKI => Machine.TG_DSKI a b
  | .TG_DSKB => Machine.TG_DSKB a b
  | .TG_T1 => Machine.TG_T1 a b c
  | .TG_T2 => Machine.TG_T2 a b c
  | .TG_T3 => Machine.TG_T3 a b c
  | .TG_T4 => Machine.TG_T4 a b c
  | .LS_FLAGS => Machine.LS_FLAGS a
  | .LS_CNT0 => Machine.LS_CNT0 a
  | .LS_CNT1 => Machine.LS_CNT1 a
  | .LS_CNT2 => Machine.LS_CNT2 a
  | .LS_PARK => Machine.LS_PARK a
  | .LS_PARKSTAT => Machine.LS_PARKSTAT a
  | .LS_SELSTAT => Machine.LS_SELSTAT a
  | .LS_ILIMMAP => Machine.LS_ILIMMAP a
  | .LS_MREQ => Machine.LS_MREQ a
  | .LS_RAIL => Machine.LS_RAIL a
  | .LS_RAILMEAS => Machine.LS_RAILMEAS a
  | .LS_DRV => Machine.LS_DRV a b
  | .LS_PMU => Machine.LS_PMU a b
  | .LS_SLEW => Machine.LS_SLEW a b
  | .LS_SLEWEN => Machine.LS_SLEWEN a b
  | .LS_MEAS => Machine.LS_MEAS a b
  | .LS_MRES => Machine.LS_MRES a b
  | .LS_DH => Machine.LS_DH a b c
  | .LS_DL => Machine.LS_DL a b c
  | .LS_TH => Machine.LS_TH a b c
  | .LS_TL => Machine.LS_TL a b c
  | .LS_VT => Machine.LS_VT a b c
  | .LS_PF => Machine.LS_PF a b c
  | .LS_CLR => Machine.LS_CLR a b c
  | .LS_OUT => Machine.LS_OUT a b c
  | .CP_FLAGS => Machine.CP_FLAGS a
  | .CP_CNT0 => Machine.CP_CNT0 a
  | .CP_CNT1 => Machine.CP_CNT1 a
  | .CP_STATUS => Machine.CP_STATUS a
  | .CP_STATE => Machine.CP_STATE a
  | .CP_SMDIV => Machine.CP_SMDIV a
  | .CP_SC_CTL => Machine.CP_SC_CTL a
  | .CP_SC_STAT => Machine.CP_SC_STAT a
  | .CP_SC_RES => Machine.CP_SC_RES a b
  | .CP_CMP => Machine.CP_CMP a b
  | .CP_WIN => Machine.CP_WIN a b
  | .CP_TRIP => Machine.CP_TRIP a b
  | .CP_SM_CTL => Machine.CP_SM_CTL a
  | .CP_SM_STAT => Machine.CP_SM_STAT a
  | .CP_SM_WT_LO => Machine.CP_SM_WT_LO a
  | .CP_SM_WT_HI => Machine.CP_SM_WT_HI a
  | .CP_SM_WPER => Machine.CP_SM_WPER a
  | .CP_PARKN_CTL => Machine.CP_PARKN_CTL a
  | .CP_PFLAGS => Machine.CP_PFLAGS a
  | .CP_PCNT => Machine.CP_PCNT a
  | .CP_TGEN => Machine.CP_TGEN a
  | .CP_TGSTAT => Machine.CP_TGSTAT a
  | .CP_TGARM => Machine.CP_TGARM a
  | .CP_TFLAGS => Machine.CP_TFLAGS a
  | .CP_TCNT0 => Machine.CP_TCNT0 a
  | .CP_TGCAUSE => Machine.CP_TGCAUSE a b
  | .CP_TGREC_LO => Machine.CP_TGREC_LO a b
  | .CP_TGREC_HI => Machine.CP_TGREC_HI a b
  | .TD_FLAGS => Machine.TD_FLAGS a
  | .TD_CNT0 => Machine.TD_CNT0 a
  | .TD_CNT1 => Machine.TD_CNT1 a
  | .TD_EVDROP => Machine.TD_EVDROP a
  | .TD_CAL_CTL => Machine.TD_CAL_CTL a
  | .TD_CAL_STAT => Machine.TD_CAL_STAT a
  | .TD_SWAP_TLO => Machine.TD_SWAP_TLO a
  | .TD_SWAP_THI => Machine.TD_SWAP_THI a
  | .TD_SRC_RATE => Machine.TD_SRC_RATE a
  | .TD_BT_ADDR => Machine.TD_BT_ADDR a
  | .TD_BT_DATA => Machine.TD_BT_DATA a
  | .TD_EV_CTL => Machine.TD_EV_CTL a
  | .TD_XWIN_CTL => Machine.TD_XWIN_CTL a
  | .TD_XWIN_LEN => Machine.TD_XWIN_LEN a
  | .TD_CH => Machine.TD_CH a b
  | .TD_LOST => Machine.TD_LOST a b
  | .TD_ALIGN => Machine.TD_ALIGN a b
  | .FQ_FLAGS => Machine.FQ_FLAGS a
  | .FQ_CNT0 => Machine.FQ_CNT0 a
  | .FQ_CNT1 => Machine.FQ_CNT1 a
  | .FQ_CTL => Machine.FQ_CTL a
  | .FQ_GATE => Machine.FQ_GATE a
  | .FQ_STAT => Machine.FQ_STAT a
  | .FQ_GSTART_LO => Machine.FQ_GSTART_LO a
  | .FQ_GSTART_HI => Machine.FQ_GSTART_HI a
  | .FQ_AGE => Machine.FQ_AGE a
  | .FQ_CH => Machine.FQ_CH a b
  | .FQ_RF_LO => Machine.FQ_RF_LO a b
  | .FQ_RF_HI => Machine.FQ_RF_HI a b
  | .FQ_RN => Machine.FQ_RN a b
  | .FQ_RSTAT => Machine.FQ_RSTAT a b
  | .FC_FLAGS => Machine.FC_FLAGS a
  | .FC_CNT0 => Machine.FC_CNT0 a
  | .FC_CNT1 => Machine.FC_CNT1 a
  | .FC_CNT2 => Machine.FC_CNT2 a
  | .FC_SUM_CTL => Machine.FC_SUM_CTL a
  | .FC_SUM_STAT => Machine.FC_SUM_STAT a
  | .FC_VCNT_LO => Machine.FC_VCNT_LO a
  | .FC_VCNT_HI => Machine.FC_VCNT_HI a
  | .FC_CAUSE => Machine.FC_CAUSE a
  | .FC_LOG_CTL => Machine.FC_LOG_CTL a
  | .FC_LOG_PTR => Machine.FC_LOG_PTR a
  | .FC_LOGDROP => Machine.FC_LOGDROP a
  | .FC_CAP_CFG => Machine.FC_CAP_CFG a
  | .FC_CAP_ARM => Machine.FC_CAP_ARM a
  | .FC_CAP_POST => Machine.FC_CAP_POST a
  | .FC_CAP_STAT => Machine.FC_CAP_STAT a
  | .FC_CAP_CNT => Machine.FC_CAP_CNT a
  | .FC_CAP_FIRST => Machine.FC_CAP_FIRST a
  | .FC_CAP_TVC_LO => Machine.FC_CAP_TVC_LO a
  | .FC_CAP_TVC_HI => Machine.FC_CAP_TVC_HI a
  | .FC_CAP_TT_LO => Machine.FC_CAP_TT_LO a
  | .FC_CAP_TT_HI => Machine.FC_CAP_TT_HI a
  | .FC_EV_CTL => Machine.FC_EV_CTL a
  | .FC_EV_PTR => Machine.FC_EV_PTR a
  | .FC_S1REF => Machine.FC_S1REF a b
  | .AQ_FLAGS => Machine.AQ_FLAGS
  | .AQ_TOUT_CTL => Machine.AQ_TOUT_CTL
  | .AQ_SOFT => Machine.AQ_SOFT
  | .AQ_TE_CTL => Machine.AQ_TE_CTL a
  | .AQ_TE_ARM => Machine.AQ_TE_ARM a
  | .AQ_TE_HOLD => Machine.AQ_TE_HOLD a
  | .AQ_TE_OUT => Machine.AQ_TE_OUT a
  | .AQ_TE_ENG => Machine.AQ_TE_ENG a
  | .AQ_TE_STAT => Machine.AQ_TE_STAT a
  | .AQ_TE_FT_LO => Machine.AQ_TE_FT_LO a
  | .AQ_TE_FT_HI => Machine.AQ_TE_FT_HI a
  | .AQ_TE_S_CTL => Machine.AQ_TE_S_CTL a b
  | .AQ_TE_S_WIN => Machine.AQ_TE_S_WIN a b
  | .AQ_TE_S_PAT => Machine.AQ_TE_S_PAT a b c
  | .WP_FLAGS => Machine.WP_FLAGS a
  | .WP_CNT0 => Machine.WP_CNT0 a
  | .WP_CNT1 => Machine.WP_CNT1 a
  | .WP_SKIP => Machine.WP_SKIP a
  | .WP_USAMP => Machine.WP_USAMP a
  | .WP_CTL => Machine.WP_CTL a
  | .WP_CHMASK => Machine.WP_CHMASK a
  | .WP_INC_LO => Machine.WP_INC_LO a
  | .WP_INC_HI => Machine.WP_INC_HI a
  | .WP_PMUL => Machine.WP_PMUL a
  | .WP_LIM => Machine.WP_LIM a
  | .WP_JSTEP => Machine.WP_JSTEP a
  | .WP_UNDR => Machine.WP_UNDR a
  | .WP_STRM => Machine.WP_STRM a
  | .WP_STRM_STAT => Machine.WP_STRM_STAT a
  | .WP_CMD => Machine.WP_CMD a
  | .WP_SCTL => Machine.WP_SCTL a
  | .WP_STGT0 => Machine.WP_STGT0 a
  | .WP_STGT1 => Machine.WP_STGT1 a
  | .WP_STAT => Machine.WP_STAT a
  | .WP_REP => Machine.WP_REP a
  | .WP_POS => Machine.WP_POS a
  | .WP_MARKT_LO => Machine.WP_MARKT_LO a
  | .WP_MARKT_HI => Machine.WP_MARKT_HI a
  | .WP_UHPTR => Machine.WP_UHPTR a
  | .WP_UH_SLO => Machine.WP_UH_SLO a b
  | .WP_UH_SHI => Machine.WP_UH_SHI a b
  | .WP_UH_ELO => Machine.WP_UH_ELO a b
  | .WP_UH_EHI => Machine.WP_UH_EHI a b
  | .WP_SEQ_A => Machine.WP_SEQ_A a b
  | .WP_SEQ_B => Machine.WP_SEQ_B a b
  | .WP_SEG_A => Machine.WP_SEG_A a b
  | .WP_SEG_B => Machine.WP_SEG_B a b
  | .SQ_FLAGS => Machine.SQ_FLAGS a
  | .SQ_CLAMP_COUNT => Machine.SQ_CLAMP_COUNT a
  | .SQ_CLAMP_LAST => Machine.SQ_CLAMP_LAST a
  | .SQ_CNT0 => Machine.SQ_CNT0 a
  | .SQ_CNT1 => Machine.SQ_CNT1 a
  | .SQ_UNDRCNT => Machine.SQ_UNDRCNT a
  | .SQ_GANG => Machine.SQ_GANG a
  | .SQ_CMD => Machine.SQ_CMD a
  | .SQ_DOORBELL => Machine.SQ_DOORBELL a
  | .SQ_HOSTF => Machine.SQ_HOSTF a
  | .SQ_STAT => Machine.SQ_STAT a
  | .SQ_ELIG => Machine.SQ_ELIG a
  | .SQ_RT_PHL => Machine.SQ_RT_PHL a
  | .SQ_RT_OCHRE => Machine.SQ_RT_OCHRE a
  | .SQ_RT_MSG => Machine.SQ_RT_MSG a
  | .SQ_TMR_LO => Machine.SQ_TMR_LO a b
  | .SQ_TMR_HI => Machine.SQ_TMR_HI a b
  | .SQ_TMR_PER => Machine.SQ_TMR_PER a b
  | .SQ_TMR_CTL => Machine.SQ_TMR_CTL a b
  | .SQ_STRM => Machine.SQ_STRM a
  | .SQ_STRM_STAT => Machine.SQ_STRM_STAT a
  | .SQ_UH_SLO => Machine.SQ_UH_SLO a
  | .SQ_UH_SHI => Machine.SQ_UH_SHI a
  | .SQ_UH_ELO => Machine.SQ_UH_ELO a
  | .SQ_UH_EHI => Machine.SQ_UH_EHI a
  | .SQ_MSGIN0 => Machine.SQ_MSGIN0 a
  | .SQ_MSGIN1 => Machine.SQ_MSGIN1 a
  | .SQ_MSGIN2 => Machine.SQ_MSGIN2 a
  | .SQ_MSGSTAT => Machine.SQ_MSGSTAT a
  | .SQ_TMR_PERHI => Machine.SQ_TMR_PERHI a b
  | .SQ_BAR_MASK => Machine.SQ_BAR_MASK a b
  | .SQ_BAR_CTL => Machine.SQ_BAR_CTL a b
  | .SQ_BAR_ARR => Machine.SQ_BAR_ARR a b
  | .SQ_DOMSYNC => Machine.SQ_DOMSYNC a
  | .SQ_CTX_STAT => Machine.SQ_CTX_STAT a b
  | .SQ_CTX_CFG => Machine.SQ_CTX_CFG a b
  | .SQ_CTX_FLAGS => Machine.SQ_CTX_FLAGS a b
  | .SQ_CTX_RES => Machine.SQ_CTX_RES a b
  | .SQ_CTX_STK01 => Machine.SQ_CTX_STK01 a b
  | .SQ_CTX_STK23 => Machine.SQ_CTX_STK23 a b
  | .SQ_CTX_L => Machine.SQ_CTX_L a b c
  | .SQ_CTX_Q => Machine.SQ_CTX_Q a b c
  | .MC_VERSION => Machine.MC_VERSION
  | .MC_IMAGE_CRC => Machine.MC_IMAGE_CRC
  | .MC_STAT => Machine.MC_STAT
  | .MC_BOOT => Machine.MC_BOOT
  | .MC_CMD => Machine.MC_CMD
  | .MC_LDVER => Machine.MC_LDVER
  | .MC_LDCRC => Machine.MC_LDCRC
  | .MC_LDNENT => Machine.MC_LDNENT
  | .MC_SLOT_VER => Machine.MC_SLOT_VER a
  | .MC_SLOT_CRC => Machine.MC_SLOT_CRC a
  | .MC_VSTAT => Machine.MC_VSTAT
  | .MC_IMGSEL => Machine.MC_IMGSEL
  | .MC_DISP_ADDR => Machine.MC_DISP_ADDR
  | .MC_DISP_DATA => Machine.MC_DISP_DATA
  | .MC_WIN => Machine.MC_WIN
  | .MC_MCHKMAP => Machine.MC_MCHKMAP
  | .MC_FLAGS => Machine.MC_FLAGS
  | .MC_CNT0 => Machine.MC_CNT0
  | .MC_CNT1 => Machine.MC_CNT1
  | .MC_CNT2 => Machine.MC_CNT2
  | .MC_INJ => Machine.MC_INJ
  | .MC_MCHK => Machine.MC_MCHK a
  | .CM_CMD => Machine.CM_CMD
  | .CM_TGT0 => Machine.CM_TGT0
  | .CM_TGT1 => Machine.CM_TGT1
  | .CM_STATUS => Machine.CM_STATUS
  | .CM_WHERE => Machine.CM_WHERE
  | .CM_CKMAP_LO => Machine.CM_CKMAP_LO
  | .CM_CKMAP_HI => Machine.CM_CKMAP_HI
  | .CM_ID => Machine.CM_ID
  | .CM_AT_LO => Machine.CM_AT_LO
  | .CM_AT_HI => Machine.CM_AT_HI
  | .CM_FLAGS => Machine.CM_FLAGS
  | .CM_CNT0 => Machine.CM_CNT0
  | .CM_CNT1 => Machine.CM_CNT1
  | .CM_CNT2 => Machine.CM_CNT2
  | .CM_CNT3 => Machine.CM_CNT3
  | .CM_DOM => Machine.CM_DOM
  | .SN_CMD => Machine.SN_CMD
  | .SN_CTL => Machine.SN_CTL
  | .SN_TT_LO => Machine.SN_TT_LO
  | .SN_TT_HI => Machine.SN_TT_HI
  | .SN_STAT => Machine.SN_STAT
  | .SN_REL => Machine.SN_REL
  | .SN_FLAGS => Machine.SN_FLAGS
  | .SN_CNT => Machine.SN_CNT
  | .SN_RADDR => Machine.SN_RADDR
  | .SN_RDATA => Machine.SN_RDATA
  | .DG_DIGEST_LO => Machine.DG_DIGEST_LO
  | .DG_DIGEST_HI => Machine.DG_DIGEST_HI
  | .DG_SDIGEST_LO => Machine.DG_SDIGEST_LO
  | .DG_SDIGEST_HI => Machine.DG_SDIGEST_HI
  | .DG_CLASS => Machine.DG_CLASS
  | .DG_CTL => Machine.DG_CTL
  | .DG_CMD => Machine.DG_CMD
  | .DG_STAT => Machine.DG_STAT
  | .DG_FLAGS => Machine.DG_FLAGS
  | .DG_CNT => Machine.DG_CNT
  | .DG_DOMSTAT => Machine.DG_DOMSTAT
  | .DG_CVALID => Machine.DG_CVALID a
  | .DG_CREF_LO => Machine.DG_CREF_LO a
  | .DG_CREF_HI => Machine.DG_CREF_HI a
  | .CL_DEVNUM => Machine.CL_DEVNUM
  | .CL_DOM_CTL => Machine.CL_DOM_CTL
  | .CL_DOM_STAT => Machine.CL_DOM_STAT
  | .CL_DOM_CMD => Machine.CL_DOM_CMD
  | .CL_FLAGS => Machine.CL_FLAGS
  | .CL_CNT0 => Machine.CL_CNT0
  | .CL_CNT1 => Machine.CL_CNT1
  | .CL_CNT2 => Machine.CL_CNT2
  | .CL_TA_CTL => Machine.CL_TA_CTL
  | .CL_TA_STAT => Machine.CL_TA_STAT
  | .CL_TA_OFS => Machine.CL_TA_OFS
  | .CL_TA_TRIM => Machine.CL_TA_TRIM
  | .CL_TA_STEP => Machine.CL_TA_STEP
  | .CL_RRA_ADDR => Machine.CL_RRA_ADDR
  | .CL_RRA_DATA => Machine.CL_RRA_DATA
  | .CL_RRA_CMD => Machine.CL_RRA_CMD
  | .CL_RRA_STAT => Machine.CL_RRA_STAT
  | .CL_P_CTL => Machine.CL_P_CTL a
  | .CL_P_STAT => Machine.CL_P_STAT a
  | .CL_P_ERR => Machine.CL_P_ERR a
  | .CL_P_TRAIN => Machine.CL_P_TRAIN a
  | .CL_P_DROP => Machine.CL_P_DROP a
  | .CL_P_DLY => Machine.CL_P_DLY a
  | .CL_MEM => Machine.CL_MEM a
  | .TW_CTL => Machine.TW_CTL
  | .TW_AGREE => Machine.TW_AGREE
  | .TW_CMD => Machine.TW_CMD
  | .TW_STAT => Machine.TW_STAT
  | .TW_FLAGS => Machine.TW_FLAGS
  | .TW_CNT0 => Machine.TW_CNT0
  | .TW_CNT1 => Machine.TW_CNT1
  | .TW_CNT2 => Machine.TW_CNT2
  | .TW_TAKE_LO => Machine.TW_TAKE_LO
  | .TW_TAKE_HI => Machine.TW_TAKE_HI
  | .TW_DIS => Machine.TW_DIS
  | .TW_RJ_STAT => Machine.TW_RJ_STAT
  | .TW_RJ_TMO => Machine.TW_RJ_TMO
  | .HI_ID => Machine.HI_ID
  | .HI_SUBID => Machine.HI_SUBID
  | .HI_LINK => Machine.HI_LINK
  | .HI_FLAGS => Machine.HI_FLAGS
  | .HI_CNT0 => Machine.HI_CNT0
  | .HI_CNT1 => Machine.HI_CNT1
  | .HI_CNT2 => Machine.HI_CNT2
  | .HI_CAUSE => Machine.HI_CAUSE
  | .HI_IMASK => Machine.HI_IMASK
  | .HI_RDONE => Machine.HI_RDONE
  | .HI_FLUSH => Machine.HI_FLUSH
  | .HI_IMAP => Machine.HI_IMAP a
  | .HI_CAPRD_CTL => Machine.HI_CAPRD_CTL
  | .HI_CAPRD_CNT => Machine.HI_CAPRD_CNT
  | .HI_CAPRD_STAT => Machine.HI_CAPRD_STAT
  | .HI_SPI_CTL => Machine.HI_SPI_CTL
  | .HI_SPI_ADDR => Machine.HI_SPI_ADDR
  | .HI_SPI_D0 => Machine.HI_SPI_D0
  | .HI_SPI_D1 => Machine.HI_SPI_D1
  | .HI_SMB => Machine.HI_SMB
  | .HI_GCAUSE => Machine.HI_GCAUSE a
  | .HI_RING_BASE_LO => Machine.HI_RING_BASE_LO a
  | .HI_QV_BASE_LO => Machine.HI_QV_BASE_LO a
  | .HI_QW_BASE_LO => Machine.HI_QW_BASE_LO a
  | .HI_RING_BASE_HI => Machine.HI_RING_BASE_HI a
  | .HI_QV_BASE_HI => Machine.HI_QV_BASE_HI a
  | .HI_QW_BASE_HI => Machine.HI_QW_BASE_HI a
  | .HI_RING_CTL => Machine.HI_RING_CTL a
  | .HI_QV_CTL => Machine.HI_QV_CTL a
  | .HI_QW_CTL => Machine.HI_QW_CTL a
  | .HI_RING_HEAD => Machine.HI_RING_HEAD a
  | .HI_QV_HEAD => Machine.HI_QV_HEAD a
  | .HI_QW_HEAD => Machine.HI_QW_HEAD a
  | .HI_RING_TAIL => Machine.HI_RING_TAIL a
  | .HI_QV_TAIL => Machine.HI_QV_TAIL a
  | .HI_QW_TAIL => Machine.HI_QW_TAIL a
  | .HI_RING_WB_LO => Machine.HI_RING_WB_LO a
  | .HI_QV_WB_LO => Machine.HI_QV_WB_LO a
  | .HI_QW_WB_LO => Machine.HI_QW_WB_LO a
  | .HI_RING_WB_HI => Machine.HI_RING_WB_HI a
  | .HI_QV_WB_HI => Machine.HI_QV_WB_HI a
  | .HI_QW_WB_HI => Machine.HI_QW_WB_HI a
  | .HI_RING_DROP => Machine.HI_RING_DROP a
  | .HI_QV_QSTAT => Machine.HI_QV_QSTAT a
  | .HI_QW_QSTAT => Machine.HI_QW_QSTAT a
  | .GL_ID => Machine.GL_ID
  | .GL_STATUS => Machine.GL_STATUS
  | .GL_PIN_ENABLE => Machine.GL_PIN_ENABLE
  | .GL_CLAMP_COUNT => Machine.GL_CLAMP_COUNT
  | .GL_CLAMP_LAST => Machine.GL_CLAMP_LAST
  | .GL_RESET_GRP => Machine.GL_RESET_GRP
  | .GL_RESET_DEV => Machine.GL_RESET_DEV
  | .GL_FLAGS => Machine.GL_FLAGS
  | .GL_CNT0 => Machine.GL_CNT0
  | .GL_BIST_ENG => Machine.GL_BIST_ENG
  | .GL_BIST_GRP => Machine.GL_BIST_GRP
  | .CK_STAT => Machine.CK_STAT
  | .CK_RSTCAUSE => Machine.CK_RSTCAUSE
  | .CK_FLAGS => Machine.CK_FLAGS
  | .CK_CNT0 => Machine.CK_CNT0
  | .CK_XRESET_DROP => Machine.CK_XRESET_DROP
  | .CK_XRESET_LAST => Machine.CK_XRESET_LAST
  | .CK_CNT1 => Machine.CK_CNT1
  | .TH_TEMP => Machine.TH_TEMP a
  | .TH_STAT => Machine.TH_STAT
  | .TH_FLAGS => Machine.TH_FLAGS
  | .TH_CNT0 => Machine.TH_CNT0
  | .TH_CNT1 => Machine.TH_CNT1
  | .TH_CNT2 => Machine.TH_CNT2
  | .TH_CMD => Machine.TH_CMD
  | .TH_OCH_CTL => Machine.TH_OCH_CTL
  | .TH_OCH_I => Machine.TH_OCH_I a
  | .TH_OCH_B => Machine.TH_OCH_B a
  | .NV_CTL => Machine.NV_CTL
  | .NV_UNLOCK => Machine.NV_UNLOCK
  | .NV_STAT => Machine.NV_STAT
  | .NV_FLAGS => Machine.NV_FLAGS
  | .NV_CNT0 => Machine.NV_CNT0
  | .NV_CNT1 => Machine.NV_CNT1
  | .NV_LASTERR => Machine.NV_LASTERR
  | .MSIX_ADDR_LO => Machine.MSIX_ADDR_LO a
  | .MSIX_ADDR_HI => Machine.MSIX_ADDR_HI a
  | .MSIX_DATA => Machine.MSIX_DATA a
  | .MSIX_VCTL => Machine.MSIX_VCTL a
  | .MSIX_PBA => Machine.MSIX_PBA a

/-- A row of the address index: the address at all indices 0, and the (stride, count) of each index. -/
structure RegRow where
  name : RegName
  base : Nat
  dims : List (Nat × Nat)
  deriving DecidableEq, Repr

def regRowsTP : List RegRow := [
  ⟨.TP_TIME_LO, 0x010000, []⟩,
  ⟨.TP_TIME_HI, 0x010004, []⟩,
  ⟨.TP_TBREF_CTL, 0x010010, []⟩,
  ⟨.TP_TBREF_ERR, 0x010018, []⟩,
  ⟨.TP_TBREF_TRIM, 0x01001C, []⟩,
  ⟨.TP_PH_CTL, 0x010020, []⟩,
  ⟨.TP_PH_CPC, 0x010024, []⟩,
  ⟨.TP_PH_IDXPOS, 0x010028, []⟩,
  ⟨.TP_PH_LOOP, 0x01002C, []⟩,
  ⟨.TP_PH_ANGLE, 0x010030, []⟩,
  ⟨.TP_PH_CYCLE, 0x010034, []⟩,
  ⟨.TP_PH_VEL, 0x010038, []⟩,
  ⟨.TP_STATUS, 0x01003C, []⟩,
  ⟨.TP_FLAGS, 0x010040, []⟩,
  ⟨.TP_CNT0, 0x010044, []⟩,
  ⟨.TP_CNT1, 0x010048, []⟩,
  ⟨.TP_CNT2, 0x01004C, []⟩,
  ⟨.TP_PH_IDXERR, 0x010050, []⟩,
  ⟨.TP_STEP, 0x010060, []⟩,
  ⟨.TP_STEP_TIME_LO, 0x010064, []⟩,
  ⟨.TP_STEP_TIME_HI, 0x010068, []⟩,
  ⟨.TP_DOM_CTL, 0x010070, []⟩,
  ⟨.TP_PCMP_CYC, 0x010100, [(0x10, 8)]⟩,
  ⟨.TP_PCMP_ANG, 0x010104, [(0x10, 8)]⟩,
  ⟨.TP_PCMP_CTL, 0x010108, [(0x10, 8)]⟩,
  ⟨.TP_PCMP_ENG, 0x01010C, [(0x10, 8)]⟩,
  ⟨.TP_SLOT_ANG, 0x010200, [(0x10, 16)]⟩,
  ⟨.TP_SLOT_CTL, 0x010204, [(0x10, 16)]⟩,
  ⟨.TP_SLOT_ENG, 0x010208, [(0x10, 16)]⟩,
  ⟨.TP_SLOT_LAST, 0x01020C, [(0x10, 16)]⟩]
def regRowsTG : List RegRow := [
  ⟨.TG_TS_USE, 0x100000, [(0x10000, 32)]⟩,
  ⟨.TG_FLAGS, 0x100008, [(0x10000, 32)]⟩,
  ⟨.TG_CNT0, 0x10000C, [(0x10000, 32)]⟩,
  ⟨.TG_CNT1, 0x100010, [(0x10000, 32)]⟩,
  ⟨.TG_CNT2, 0x100014, [(0x10000, 32)]⟩,
  ⟨.TG_DSK_CTL, 0x100020, [(0x10000, 32)]⟩,
  ⟨.TG_DSK_STAT, 0x100024, [(0x10000, 32)]⟩,
  ⟨.TG_DSK_TEMP, 0x100028, [(0x10000, 32)]⟩,
  ⟨.TG_TDR_CTL, 0x100030, [(0x10000, 32)]⟩,
  ⟨.TG_TDR_STAT, 0x100034, [(0x10000, 32)]⟩,
  ⟨.TG_TDR_RES, 0x100038, [(0x10000, 32)]⟩,
  ⟨.TG_TDR_SPREAD, 0x10003C, [(0x10000, 32)]⟩,
  ⟨.TG_CAL_CTL, 0x100040, [(0x10000, 32)]⟩,
  ⟨.TG_CAL_TLO, 0x100044, [(0x10000, 32)]⟩,
  ⟨.TG_CAL_THI, 0x100048, [(0x10000, 32)]⟩,
  ⟨.TG_CAL_MEAS, 0x10004C, [(0x10000, 32)]⟩,
  ⟨.TG_TS_PER, 0x100100, [(0x10000, 32), (0x4, 32)]⟩,
  ⟨.TG_DSKI, 0x100200, [(0x10000, 32), (0x4, 16)]⟩,
  ⟨.TG_DSKB, 0x100240, [(0x10000, 32), (0x4, 16)]⟩,
  ⟨.TG_T1, 0x102000, [(0x10000, 32), (0x100, 32), (0x10, 16)]⟩,
  ⟨.TG_T2, 0x102004, [(0x10000, 32), (0x100, 32), (0x10, 16)]⟩,
  ⟨.TG_T3, 0x102008, [(0x10000, 32), (0x100, 32), (0x10, 16)]⟩,
  ⟨.TG_T4, 0x10200C, [(0x10000, 32), (0x100, 32), (0x10, 16)]⟩]
def regRowsLS : List RegRow := [
  ⟨.LS_FLAGS, 0x104000, [(0x10000, 32)]⟩,
  ⟨.LS_CNT0, 0x104004, [(0x10000, 32)]⟩,
  ⟨.LS_CNT1, 0x104008, [(0x10000, 32)]⟩,
  ⟨.LS_CNT2, 0x10400C, [(0x10000, 32)]⟩,
  ⟨.LS_PARK, 0x104010, [(0x10000, 32)]⟩,
  ⟨.LS_PARKSTAT, 0x104014, [(0x10000, 32)]⟩,
  ⟨.LS_SELSTAT, 0x104018, [(0x10000, 32)]⟩,
  ⟨.LS_ILIMMAP, 0x10401C, [(0x10000, 32)]⟩,
  ⟨.LS_MREQ, 0x104020, [(0x10000, 32)]⟩,
  ⟨.LS_RAIL, 0x104030, [(0x10000, 32)]⟩,
  ⟨.LS_RAILMEAS, 0x104034, [(0x10000, 32)]⟩,
  ⟨.LS_DRV, 0x104100, [(0x10000, 32), (0x20, 16)]⟩,
  ⟨.LS_PMU, 0x104104, [(0x10000, 32), (0x20, 16)]⟩,
  ⟨.LS_SLEW, 0x104108, [(0x10000, 32), (0x20, 16)]⟩,
  ⟨.LS_SLEWEN, 0x10410C, [(0x10000, 32), (0x20, 16)]⟩,
  ⟨.LS_MEAS, 0x104110, [(0x10000, 32), (0x20, 16)]⟩,
  ⟨.LS_MRES, 0x104114, [(0x10000, 32), (0x20, 16)]⟩,
  ⟨.LS_DH, 0x104800, [(0x10000, 32), (0x100, 16), (0x20, 8)]⟩,
  ⟨.LS_DL, 0x104804, [(0x10000, 32), (0x100, 16), (0x20, 8)]⟩,
  ⟨.LS_TH, 0x104808, [(0x10000, 32), (0x100, 16), (0x20, 8)]⟩,
  ⟨.LS_TL, 0x10480C, [(0x10000, 32), (0x100, 16), (0x20, 8)]⟩,
  ⟨.LS_VT, 0x104810, [(0x10000, 32), (0x100, 16), (0x20, 8)]⟩,
  ⟨.LS_PF, 0x104814, [(0x10000, 32), (0x100, 16), (0x20, 8)]⟩,
  ⟨.LS_CLR, 0x105800, [(0x10000, 32), (0x20, 16), (0x4, 6)]⟩,
  ⟨.LS_OUT, 0x105A00, [(0x10000, 32), (0x20, 16), (0x4, 6)]⟩]
def regRowsCP : List RegRow := [
  ⟨.CP_FLAGS, 0x106000, [(0x10000, 32)]⟩,
  ⟨.CP_CNT0, 0x106004, [(0x10000, 32)]⟩,
  ⟨.CP_CNT1, 0x106008, [(0x10000, 32)]⟩,
  ⟨.CP_STATUS, 0x106010, [(0x10000, 32)]⟩,
  ⟨.CP_STATE, 0x106014, [(0x10000, 32)]⟩,
  ⟨.CP_SMDIV, 0x106018, [(0x10000, 32)]⟩,
  ⟨.CP_SC_CTL, 0x106020, [(0x10000, 32)]⟩,
  ⟨.CP_SC_STAT, 0x106024, [(0x10000, 32)]⟩,
  ⟨.CP_SC_RES, 0x106080, [(0x10000, 32), (0x4, 16)]⟩,
  ⟨.CP_CMP, 0x106100, [(0x10000, 32), (0x10, 16)]⟩,
  ⟨.CP_WIN, 0x106104, [(0x10000, 32), (0x10, 16)]⟩,
  ⟨.CP_TRIP, 0x106108, [(0x10000, 32), (0x10, 16)]⟩,
  ⟨.CP_SM_CTL, 0x106040, [(0x10000, 32)]⟩,
  ⟨.CP_SM_STAT, 0x106044, [(0x10000, 32)]⟩,
  ⟨.CP_SM_WT_LO, 0x106048, [(0x10000, 32)]⟩,
  ⟨.CP_SM_WT_HI, 0x10604C, [(0x10000, 32)]⟩,
  ⟨.CP_SM_WPER, 0x106050, [(0x10000, 32)]⟩,
  ⟨.CP_PARKN_CTL, 0x106054, [(0x10000, 32)]⟩,
  ⟨.CP_PFLAGS, 0x106058, [(0x10000, 32)]⟩,
  ⟨.CP_PCNT, 0x10605C, [(0x10000, 32)]⟩,
  ⟨.CP_TGEN, 0x106400, [(0x10000, 32)]⟩,
  ⟨.CP_TGSTAT, 0x106404, [(0x10000, 32)]⟩,
  ⟨.CP_TGARM, 0x106408, [(0x10000, 32)]⟩,
  ⟨.CP_TFLAGS, 0x10640C, [(0x10000, 32)]⟩,
  ⟨.CP_TCNT0, 0x106410, [(0x10000, 32)]⟩,
  ⟨.CP_TGCAUSE, 0x106440, [(0x10000, 32), (0x4, 16)]⟩,
  ⟨.CP_TGREC_LO, 0x106480, [(0x10000, 32), (0x8, 16)]⟩,
  ⟨.CP_TGREC_HI, 0x106484, [(0x10000, 32), (0x8, 16)]⟩]
def regRowsTD : List RegRow := [
  ⟨.TD_FLAGS, 0x107000, [(0x10000, 32)]⟩,
  ⟨.TD_CNT0, 0x107004, [(0x10000, 32)]⟩,
  ⟨.TD_CNT1, 0x107008, [(0x10000, 32)]⟩,
  ⟨.TD_EVDROP, 0x10700C, [(0x10000, 32)]⟩,
  ⟨.TD_CAL_CTL, 0x107010, [(0x10000, 32)]⟩,
  ⟨.TD_CAL_STAT, 0x107014, [(0x10000, 32)]⟩,
  ⟨.TD_SWAP_TLO, 0x107018, [(0x10000, 32)]⟩,
  ⟨.TD_SWAP_THI, 0x10701C, [(0x10000, 32)]⟩,
  ⟨.TD_SRC_RATE, 0x107020, [(0x10000, 32)]⟩,
  ⟨.TD_BT_ADDR, 0x107024, [(0x10000, 32)]⟩,
  ⟨.TD_BT_DATA, 0x107028, [(0x10000, 32)]⟩,
  ⟨.TD_EV_CTL, 0x107030, [(0x10000, 32)]⟩,
  ⟨.TD_XWIN_CTL, 0x107040, [(0x10000, 32)]⟩,
  ⟨.TD_XWIN_LEN, 0x107044, [(0x10000, 32)]⟩,
  ⟨.TD_CH, 0x107100, [(0x10000, 32), (0x4, 16)]⟩,
  ⟨.TD_LOST, 0x107140, [(0x10000, 32), (0x4, 16)]⟩,
  ⟨.TD_ALIGN, 0x107180, [(0x10000, 32), (0x4, 16)]⟩]
def regRowsFQ : List RegRow := [
  ⟨.FQ_FLAGS, 0x108000, [(0x10000, 32)]⟩,
  ⟨.FQ_CNT0, 0x108004, [(0x10000, 32)]⟩,
  ⟨.FQ_CNT1, 0x108008, [(0x10000, 32)]⟩,
  ⟨.FQ_CTL, 0x10800C, [(0x10000, 32)]⟩,
  ⟨.FQ_GATE, 0x108010, [(0x10000, 32)]⟩,
  ⟨.FQ_STAT, 0x108014, [(0x10000, 32)]⟩,
  ⟨.FQ_GSTART_LO, 0x108018, [(0x10000, 32)]⟩,
  ⟨.FQ_GSTART_HI, 0x10801C, [(0x10000, 32)]⟩,
  ⟨.FQ_AGE, 0x108020, [(0x10000, 32)]⟩,
  ⟨.FQ_CH, 0x108080, [(0x10000, 32), (0x4, 16)]⟩,
  ⟨.FQ_RF_LO, 0x108100, [(0x10000, 32), (0x10, 17)]⟩,
  ⟨.FQ_RF_HI, 0x108104, [(0x10000, 32), (0x10, 17)]⟩,
  ⟨.FQ_RN, 0x108108, [(0x10000, 32), (0x10, 17)]⟩,
  ⟨.FQ_RSTAT, 0x10810C, [(0x10000, 32), (0x10, 17)]⟩]
def regRowsFC : List RegRow := [
  ⟨.FC_FLAGS, 0x109000, [(0x10000, 32)]⟩,
  ⟨.FC_CNT0, 0x109004, [(0x10000, 32)]⟩,
  ⟨.FC_CNT1, 0x109008, [(0x10000, 32)]⟩,
  ⟨.FC_CNT2, 0x10900C, [(0x10000, 32)]⟩,
  ⟨.FC_SUM_CTL, 0x109010, [(0x10000, 32)]⟩,
  ⟨.FC_SUM_STAT, 0x109014, [(0x10000, 32)]⟩,
  ⟨.FC_VCNT_LO, 0x109018, [(0x10000, 32)]⟩,
  ⟨.FC_VCNT_HI, 0x10901C, [(0x10000, 32)]⟩,
  ⟨.FC_CAUSE, 0x109020, [(0x10000, 32)]⟩,
  ⟨.FC_LOG_CTL, 0x109030, [(0x10000, 32)]⟩,
  ⟨.FC_LOG_PTR, 0x109034, [(0x10000, 32)]⟩,
  ⟨.FC_LOGDROP, 0x10903C, [(0x10000, 32)]⟩,
  ⟨.FC_CAP_CFG, 0x109040, [(0x10000, 32)]⟩,
  ⟨.FC_CAP_ARM, 0x109044, [(0x10000, 32)]⟩,
  ⟨.FC_CAP_POST, 0x109048, [(0x10000, 32)]⟩,
  ⟨.FC_CAP_STAT, 0x10904C, [(0x10000, 32)]⟩,
  ⟨.FC_CAP_CNT, 0x109050, [(0x10000, 32)]⟩,
  ⟨.FC_CAP_FIRST, 0x109054, [(0x10000, 32)]⟩,
  ⟨.FC_CAP_TVC_LO, 0x109058, [(0x10000, 32)]⟩,
  ⟨.FC_CAP_TVC_HI, 0x10905C, [(0x10000, 32)]⟩,
  ⟨.FC_CAP_TT_LO, 0x109060, [(0x10000, 32)]⟩,
  ⟨.FC_CAP_TT_HI, 0x109064, [(0x10000, 32)]⟩,
  ⟨.FC_EV_CTL, 0x109070, [(0x10000, 32)]⟩,
  ⟨.FC_EV_PTR, 0x109074, [(0x10000, 32)]⟩,
  ⟨.FC_S1REF, 0x109100, [(0x10000, 32), (0x4, 16)]⟩]
def regRowsAQ : List RegRow := [
  ⟨.AQ_FLAGS, 0x400000, []⟩,
  ⟨.AQ_TOUT_CTL, 0x400010, []⟩,
  ⟨.AQ_SOFT, 0x400014, []⟩,
  ⟨.AQ_TE_CTL, 0x400100, [(0x40, 4)]⟩,
  ⟨.AQ_TE_ARM, 0x400104, [(0x40, 4)]⟩,
  ⟨.AQ_TE_HOLD, 0x400108, [(0x40, 4)]⟩,
  ⟨.AQ_TE_OUT, 0x40010C, [(0x40, 4)]⟩,
  ⟨.AQ_TE_ENG, 0x400110, [(0x40, 4)]⟩,
  ⟨.AQ_TE_STAT, 0x400114, [(0x40, 4)]⟩,
  ⟨.AQ_TE_FT_LO, 0x400118, [(0x40, 4)]⟩,
  ⟨.AQ_TE_FT_HI, 0x40011C, [(0x40, 4)]⟩,
  ⟨.AQ_TE_S_CTL, 0x400200, [(0x80, 4), (0x20, 4)]⟩,
  ⟨.AQ_TE_S_WIN, 0x400204, [(0x80, 4), (0x20, 4)]⟩,
  ⟨.AQ_TE_S_PAT, 0x401000, [(0x400, 4), (0x100, 4), (0x4, 64)]⟩]
def regRowsWPA : List RegRow := [
  ⟨.WP_FLAGS, 0x10A000, [(0x10000, 32)]⟩,
  ⟨.WP_CNT0, 0x10A004, [(0x10000, 32)]⟩,
  ⟨.WP_CNT1, 0x10A008, [(0x10000, 32)]⟩,
  ⟨.WP_SKIP, 0x10A00C, [(0x10000, 32)]⟩,
  ⟨.WP_USAMP, 0x10A010, [(0x10000, 32)]⟩,
  ⟨.WP_CTL, 0x10A014, [(0x10000, 32)]⟩,
  ⟨.WP_CHMASK, 0x10A018, [(0x10000, 32)]⟩,
  ⟨.WP_INC_LO, 0x10A01C, [(0x10000, 32)]⟩,
  ⟨.WP_INC_HI, 0x10A020, [(0x10000, 32)]⟩,
  ⟨.WP_PMUL, 0x10A024, [(0x10000, 32)]⟩,
  ⟨.WP_LIM, 0x10A028, [(0x10000, 32)]⟩,
  ⟨.WP_JSTEP, 0x10A02C, [(0x10000, 32)]⟩,
  ⟨.WP_UNDR, 0x10A030, [(0x10000, 32)]⟩,
  ⟨.WP_STRM, 0x10A034, [(0x10000, 32)]⟩,
  ⟨.WP_STRM_STAT, 0x10A038, [(0x10000, 32)]⟩,
  ⟨.WP_CMD, 0x10A040, [(0x10000, 32)]⟩,
  ⟨.WP_SCTL, 0x10A044, [(0x10000, 32)]⟩,
  ⟨.WP_STGT0, 0x10A048, [(0x10000, 32)]⟩,
  ⟨.WP_STGT1, 0x10A04C, [(0x10000, 32)]⟩,
  ⟨.WP_STAT, 0x10A050, [(0x10000, 32)]⟩,
  ⟨.WP_REP, 0x10A054, [(0x10000, 32)]⟩,
  ⟨.WP_POS, 0x10A058, [(0x10000, 32)]⟩,
  ⟨.WP_MARKT_LO, 0x10A060, [(0x10000, 32)]⟩,
  ⟨.WP_MARKT_HI, 0x10A064, [(0x10000, 32)]⟩,
  ⟨.WP_UHPTR, 0x10A068, [(0x10000, 32)]⟩,
  ⟨.WP_UH_SLO, 0x10A100, [(0x10000, 32), (0x10, 16)]⟩,
  ⟨.WP_UH_SHI, 0x10A104, [(0x10000, 32), (0x10, 16)]⟩,
  ⟨.WP_UH_ELO, 0x10A108, [(0x10000, 32), (0x10, 16)]⟩,
  ⟨.WP_UH_EHI, 0x10A10C, [(0x10000, 32), (0x10, 16)]⟩,
  ⟨.WP_SEQ_A, 0x10A400, [(0x10000, 32), (0x8, 64)]⟩]
def regRowsWPB : List RegRow := [
  ⟨.WP_SEQ_B, 0x10A404, [(0x10000, 32), (0x8, 64)]⟩,
  ⟨.WP_SEG_A, 0x10A800, [(0x10000, 32), (0x8, 256)]⟩,
  ⟨.WP_SEG_B, 0x10A804, [(0x10000, 32), (0x8, 256)]⟩]
def regRowsSQA : List RegRow := [
  ⟨.SQ_FLAGS, 0x10B000, [(0x10000, 32)]⟩,
  ⟨.SQ_CLAMP_COUNT, 0x10B004, [(0x10000, 32)]⟩,
  ⟨.SQ_CLAMP_LAST, 0x10B008, [(0x10000, 32)]⟩,
  ⟨.SQ_CNT0, 0x10B00C, [(0x10000, 32)]⟩,
  ⟨.SQ_CNT1, 0x10B010, [(0x10000, 32)]⟩,
  ⟨.SQ_UNDRCNT, 0x10B014, [(0x10000, 32)]⟩,
  ⟨.SQ_GANG, 0x10B020, [(0x10000, 32)]⟩,
  ⟨.SQ_CMD, 0x10B024, [(0x10000, 32)]⟩,
  ⟨.SQ_DOORBELL, 0x10B028, [(0x10000, 32)]⟩,
  ⟨.SQ_HOSTF, 0x10B02C, [(0x10000, 32)]⟩,
  ⟨.SQ_STAT, 0x10B030, [(0x10000, 32)]⟩,
  ⟨.SQ_ELIG, 0x10B034, [(0x10000, 32)]⟩,
  ⟨.SQ_RT_PHL, 0x10B040, [(0x10000, 32)]⟩,
  ⟨.SQ_RT_OCHRE, 0x10B044, [(0x10000, 32)]⟩,
  ⟨.SQ_RT_MSG, 0x10B048, [(0x10000, 32)]⟩,
  ⟨.SQ_TMR_LO, 0x10B060, [(0x10000, 32), (0x10, 2)]⟩,
  ⟨.SQ_TMR_HI, 0x10B064, [(0x10000, 32), (0x10, 2)]⟩,
  ⟨.SQ_TMR_PER, 0x10B068, [(0x10000, 32), (0x10, 2)]⟩,
  ⟨.SQ_TMR_CTL, 0x10B06C, [(0x10000, 32), (0x10, 2)]⟩,
  ⟨.SQ_STRM, 0x10B080, [(0x10000, 32)]⟩,
  ⟨.SQ_STRM_STAT, 0x10B084, [(0x10000, 32)]⟩,
  ⟨.SQ_UH_SLO, 0x10B088, [(0x10000, 32)]⟩,
  ⟨.SQ_UH_SHI, 0x10B08C, [(0x10000, 32)]⟩,
  ⟨.SQ_UH_ELO, 0x10B090, [(0x10000, 32)]⟩,
  ⟨.SQ_UH_EHI, 0x10B094, [(0x10000, 32)]⟩,
  ⟨.SQ_MSGIN0, 0x10B0A0, [(0x10000, 32)]⟩,
  ⟨.SQ_MSGIN1, 0x10B0A4, [(0x10000, 32)]⟩,
  ⟨.SQ_MSGIN2, 0x10B0A8, [(0x10000, 32)]⟩,
  ⟨.SQ_MSGSTAT, 0x10B0AC, [(0x10000, 32)]⟩,
  ⟨.SQ_TMR_PERHI, 0x10B0B0, [(0x10000, 32), (0x4, 2)]⟩]
def regRowsSQB : List RegRow := [
  ⟨.SQ_BAR_MASK, 0x10B100, [(0x10000, 32), (0x8, 8)]⟩,
  ⟨.SQ_BAR_CTL, 0x10B104, [(0x10000, 32), (0x8, 8)]⟩,
  ⟨.SQ_BAR_ARR, 0x10B140, [(0x10000, 32), (0x4, 8)]⟩,
  ⟨.SQ_DOMSYNC, 0x10B180, [(0x10000, 32)]⟩,
  ⟨.SQ_CTX_STAT, 0x10B400, [(0x10000, 32), (0x60, 32)]⟩,
  ⟨.SQ_CTX_CFG, 0x10B404, [(0x10000, 32), (0x60, 32)]⟩,
  ⟨.SQ_CTX_FLAGS, 0x10B408, [(0x10000, 32), (0x60, 32)]⟩,
  ⟨.SQ_CTX_RES, 0x10B40C, [(0x10000, 32), (0x60, 32)]⟩,
  ⟨.SQ_CTX_STK01, 0x10B410, [(0x10000, 32), (0x60, 32)]⟩,
  ⟨.SQ_CTX_STK23, 0x10B414, [(0x10000, 32), (0x60, 32)]⟩,
  ⟨.SQ_CTX_L, 0x10B418, [(0x10000, 32), (0x60, 32), (0x4, 4)]⟩,
  ⟨.SQ_CTX_Q, 0x10B428, [(0x10000, 32), (0x60, 32), (0x4, 8)]⟩]
def regRowsMC : List RegRow := [
  ⟨.MC_VERSION, 0x070000, []⟩,
  ⟨.MC_IMAGE_CRC, 0x070004, []⟩,
  ⟨.MC_STAT, 0x070008, []⟩,
  ⟨.MC_BOOT, 0x07000C, []⟩,
  ⟨.MC_CMD, 0x070010, []⟩,
  ⟨.MC_LDVER, 0x070014, []⟩,
  ⟨.MC_LDCRC, 0x070018, []⟩,
  ⟨.MC_LDNENT, 0x07001C, []⟩,
  ⟨.MC_SLOT_VER, 0x070020, [(0x8, 2)]⟩,
  ⟨.MC_SLOT_CRC, 0x070024, [(0x8, 2)]⟩,
  ⟨.MC_VSTAT, 0x070030, []⟩,
  ⟨.MC_IMGSEL, 0x070034, []⟩,
  ⟨.MC_DISP_ADDR, 0x070040, []⟩,
  ⟨.MC_DISP_DATA, 0x070044, []⟩,
  ⟨.MC_WIN, 0x070048, []⟩,
  ⟨.MC_MCHKMAP, 0x070050, []⟩,
  ⟨.MC_FLAGS, 0x070054, []⟩,
  ⟨.MC_CNT0, 0x070058, []⟩,
  ⟨.MC_CNT1, 0x07005C, []⟩,
  ⟨.MC_CNT2, 0x070060, []⟩,
  ⟨.MC_INJ, 0x070064, []⟩,
  ⟨.MC_MCHK, 0x070100, [(0x4, 32)]⟩]
def regRowsCM : List RegRow := [
  ⟨.CM_CMD, 0x020000, []⟩,
  ⟨.CM_TGT0, 0x020004, []⟩,
  ⟨.CM_TGT1, 0x020008, []⟩,
  ⟨.CM_STATUS, 0x02000C, []⟩,
  ⟨.CM_WHERE, 0x020010, []⟩,
  ⟨.CM_CKMAP_LO, 0x020014, []⟩,
  ⟨.CM_CKMAP_HI, 0x020018, []⟩,
  ⟨.CM_ID, 0x02001C, []⟩,
  ⟨.CM_AT_LO, 0x020020, []⟩,
  ⟨.CM_AT_HI, 0x020024, []⟩,
  ⟨.CM_FLAGS, 0x020028, []⟩,
  ⟨.CM_CNT0, 0x02002C, []⟩,
  ⟨.CM_CNT1, 0x020030, []⟩,
  ⟨.CM_CNT2, 0x020034, []⟩,
  ⟨.CM_CNT3, 0x020038, []⟩,
  ⟨.CM_DOM, 0x020040, []⟩]
def regRowsSN : List RegRow := [
  ⟨.SN_CMD, 0x024000, []⟩,
  ⟨.SN_CTL, 0x024004, []⟩,
  ⟨.SN_TT_LO, 0x024008, []⟩,
  ⟨.SN_TT_HI, 0x02400C, []⟩,
  ⟨.SN_STAT, 0x024010, []⟩,
  ⟨.SN_REL, 0x024014, []⟩,
  ⟨.SN_FLAGS, 0x024018, []⟩,
  ⟨.SN_CNT, 0x02401C, []⟩,
  ⟨.SN_RADDR, 0x024020, []⟩,
  ⟨.SN_RDATA, 0x024024, []⟩]
def regRowsDG : List RegRow := [
  ⟨.DG_DIGEST_LO, 0x028000, []⟩,
  ⟨.DG_DIGEST_HI, 0x028004, []⟩,
  ⟨.DG_SDIGEST_LO, 0x028008, []⟩,
  ⟨.DG_SDIGEST_HI, 0x02800C, []⟩,
  ⟨.DG_CLASS, 0x028010, []⟩,
  ⟨.DG_CTL, 0x028014, []⟩,
  ⟨.DG_CMD, 0x028018, []⟩,
  ⟨.DG_STAT, 0x02801C, []⟩,
  ⟨.DG_FLAGS, 0x028020, []⟩,
  ⟨.DG_CNT, 0x028024, []⟩,
  ⟨.DG_DOMSTAT, 0x028028, []⟩,
  ⟨.DG_CVALID, 0x028200, [(0x4, 8)]⟩,
  ⟨.DG_CREF_LO, 0x028400, [(0x8, 256)]⟩,
  ⟨.DG_CREF_HI, 0x028404, [(0x8, 256)]⟩]
def regRowsCL : List RegRow := [
  ⟨.CL_DEVNUM, 0x030000, []⟩,
  ⟨.CL_DOM_CTL, 0x030004, []⟩,
  ⟨.CL_DOM_STAT, 0x030008, []⟩,
  ⟨.CL_DOM_CMD, 0x03000C, []⟩,
  ⟨.CL_FLAGS, 0x030010, []⟩,
  ⟨.CL_CNT0, 0x030014, []⟩,
  ⟨.CL_CNT1, 0x030018, []⟩,
  ⟨.CL_CNT2, 0x03001C, []⟩,
  ⟨.CL_TA_CTL, 0x030020, []⟩,
  ⟨.CL_TA_STAT, 0x030024, []⟩,
  ⟨.CL_TA_OFS, 0x030028, []⟩,
  ⟨.CL_TA_TRIM, 0x03002C, []⟩,
  ⟨.CL_TA_STEP, 0x030030, []⟩,
  ⟨.CL_RRA_ADDR, 0x030040, []⟩,
  ⟨.CL_RRA_DATA, 0x030044, []⟩,
  ⟨.CL_RRA_CMD, 0x030048, []⟩,
  ⟨.CL_RRA_STAT, 0x03004C, []⟩,
  ⟨.CL_P_CTL, 0x030100, [(0x20, 4)]⟩,
  ⟨.CL_P_STAT, 0x030104, [(0x20, 4)]⟩,
  ⟨.CL_P_ERR, 0x030108, [(0x20, 4)]⟩,
  ⟨.CL_P_TRAIN, 0x03010C, [(0x20, 4)]⟩,
  ⟨.CL_P_DROP, 0x030110, [(0x20, 4)]⟩,
  ⟨.CL_P_DLY, 0x030114, [(0x20, 4)]⟩,
  ⟨.CL_MEM, 0x030200, [(0x4, 32)]⟩]
def regRowsTW : List RegRow := [
  ⟨.TW_CTL, 0x038000, []⟩,
  ⟨.TW_AGREE, 0x038004, []⟩,
  ⟨.TW_CMD, 0x038008, []⟩,
  ⟨.TW_STAT, 0x03800C, []⟩,
  ⟨.TW_FLAGS, 0x038010, []⟩,
  ⟨.TW_CNT0, 0x038014, []⟩,
  ⟨.TW_CNT1, 0x038018, []⟩,
  ⟨.TW_CNT2, 0x03801C, []⟩,
  ⟨.TW_TAKE_LO, 0x038020, []⟩,
  ⟨.TW_TAKE_HI, 0x038024, []⟩,
  ⟨.TW_DIS, 0x038028, []⟩,
  ⟨.TW_RJ_STAT, 0x03802C, []⟩,
  ⟨.TW_RJ_TMO, 0x038030, []⟩]
def regRowsHIA : List RegRow := [
  ⟨.HI_ID, 0x040000, []⟩,
  ⟨.HI_SUBID, 0x040004, []⟩,
  ⟨.HI_LINK, 0x040008, []⟩,
  ⟨.HI_FLAGS, 0x04000C, []⟩,
  ⟨.HI_CNT0, 0x040010, []⟩,
  ⟨.HI_CNT1, 0x040014, []⟩,
  ⟨.HI_CNT2, 0x040018, []⟩,
  ⟨.HI_CAUSE, 0x040020, []⟩,
  ⟨.HI_IMASK, 0x040024, []⟩,
  ⟨.HI_RDONE, 0x040028, []⟩,
  ⟨.HI_FLUSH, 0x04002C, []⟩,
  ⟨.HI_IMAP, 0x040030, [(0x4, 8)]⟩,
  ⟨.HI_CAPRD_CTL, 0x040050, []⟩,
  ⟨.HI_CAPRD_CNT, 0x040054, []⟩,
  ⟨.HI_CAPRD_STAT, 0x040058, []⟩,
  ⟨.HI_SPI_CTL, 0x040060, []⟩,
  ⟨.HI_SPI_ADDR, 0x040064, []⟩,
  ⟨.HI_SPI_D0, 0x040068, []⟩,
  ⟨.HI_SPI_D1, 0x04006C, []⟩,
  ⟨.HI_SMB, 0x040070, []⟩,
  ⟨.HI_GCAUSE, 0x040080, [(0x4, 9)]⟩,
  ⟨.HI_RING_BASE_LO, 0x040100, [(0x20, 6)]⟩,
  ⟨.HI_QV_BASE_LO, 0x041000, [(0x20, 32)]⟩,
  ⟨.HI_QW_BASE_LO, 0x041400, [(0x20, 32)]⟩,
  ⟨.HI_RING_BASE_HI, 0x040104, [(0x20, 6)]⟩,
  ⟨.HI_QV_BASE_HI, 0x041004, [(0x20, 32)]⟩,
  ⟨.HI_QW_BASE_HI, 0x041404, [(0x20, 32)]⟩,
  ⟨.HI_RING_CTL, 0x040108, [(0x20, 6)]⟩,
  ⟨.HI_QV_CTL, 0x041008, [(0x20, 32)]⟩,
  ⟨.HI_QW_CTL, 0x041408, [(0x20, 32)]⟩]
def regRowsHIB : List RegRow := [
  ⟨.HI_RING_HEAD, 0x04010C, [(0x20, 6)]⟩,
  ⟨.HI_QV_HEAD, 0x04100C, [(0x20, 32)]⟩,
  ⟨.HI_QW_HEAD, 0x04140C, [(0x20, 32)]⟩,
  ⟨.HI_RING_TAIL, 0x040110, [(0x20, 6)]⟩,
  ⟨.HI_QV_TAIL, 0x041010, [(0x20, 32)]⟩,
  ⟨.HI_QW_TAIL, 0x041410, [(0x20, 32)]⟩,
  ⟨.HI_RING_WB_LO, 0x040114, [(0x20, 6)]⟩,
  ⟨.HI_QV_WB_LO, 0x041014, [(0x20, 32)]⟩,
  ⟨.HI_QW_WB_LO, 0x041414, [(0x20, 32)]⟩,
  ⟨.HI_RING_WB_HI, 0x040118, [(0x20, 6)]⟩,
  ⟨.HI_QV_WB_HI, 0x041018, [(0x20, 32)]⟩,
  ⟨.HI_QW_WB_HI, 0x041418, [(0x20, 32)]⟩,
  ⟨.HI_RING_DROP, 0x04011C, [(0x20, 6)]⟩,
  ⟨.HI_QV_QSTAT, 0x04101C, [(0x20, 32)]⟩,
  ⟨.HI_QW_QSTAT, 0x04141C, [(0x20, 32)]⟩]
def regRowsGL : List RegRow := [
  ⟨.GL_ID, 0x000000, []⟩,
  ⟨.GL_STATUS, 0x000004, []⟩,
  ⟨.GL_PIN_ENABLE, 0x000008, []⟩,
  ⟨.GL_CLAMP_COUNT, 0x000010, []⟩,
  ⟨.GL_CLAMP_LAST, 0x000014, []⟩,
  ⟨.GL_RESET_GRP, 0x000020, []⟩,
  ⟨.GL_RESET_DEV, 0x000024, []⟩,
  ⟨.GL_FLAGS, 0x000030, []⟩,
  ⟨.GL_CNT0, 0x000034, []⟩,
  ⟨.GL_BIST_ENG, 0x000038, []⟩,
  ⟨.GL_BIST_GRP, 0x00003C, []⟩]
def regRowsCK : List RegRow := [
  ⟨.CK_STAT, 0x060000, []⟩,
  ⟨.CK_RSTCAUSE, 0x060004, []⟩,
  ⟨.CK_FLAGS, 0x060008, []⟩,
  ⟨.CK_CNT0, 0x06000C, []⟩,
  ⟨.CK_XRESET_DROP, 0x060010, []⟩,
  ⟨.CK_XRESET_LAST, 0x060014, []⟩,
  ⟨.CK_CNT1, 0x060018, []⟩]
def regRowsTH : List RegRow := [
  ⟨.TH_TEMP, 0x061000, [(0x4, 5)]⟩,
  ⟨.TH_STAT, 0x061020, []⟩,
  ⟨.TH_FLAGS, 0x061024, []⟩,
  ⟨.TH_CNT0, 0x061028, []⟩,
  ⟨.TH_CNT1, 0x06102C, []⟩,
  ⟨.TH_CNT2, 0x061030, []⟩,
  ⟨.TH_CMD, 0x061034, []⟩,
  ⟨.TH_OCH_CTL, 0x061038, []⟩,
  ⟨.TH_OCH_I, 0x061040, [(0x8, 4)]⟩,
  ⟨.TH_OCH_B, 0x061044, [(0x8, 4)]⟩]
def regRowsNV : List RegRow := [
  ⟨.NV_CTL, 0x062000, []⟩,
  ⟨.NV_UNLOCK, 0x062004, []⟩,
  ⟨.NV_STAT, 0x062008, []⟩,
  ⟨.NV_FLAGS, 0x06200C, []⟩,
  ⟨.NV_CNT0, 0x062010, []⟩,
  ⟨.NV_CNT1, 0x062014, []⟩,
  ⟨.NV_LASTERR, 0x062018, []⟩]
def regRowsMSIX : List RegRow := [
  ⟨.MSIX_ADDR_LO, 0x050000, [(0x10, 64)]⟩,
  ⟨.MSIX_ADDR_HI, 0x050004, [(0x10, 64)]⟩,
  ⟨.MSIX_DATA, 0x050008, [(0x10, 64)]⟩,
  ⟨.MSIX_VCTL, 0x05000C, [(0x10, 64)]⟩,
  ⟨.MSIX_PBA, 0x050800, [(0x4, 2)]⟩]

/-- R435: the rows of the block that owns an address; a group's blocks by sub-offset. -/
def regRowsAt (addr : Nat) : List RegRow :=
  if 0x000000 ≤ addr ∧ addr ≤ 0x00FFFF then regRowsGL else
  if 0x010000 ≤ addr ∧ addr ≤ 0x01FFFF then regRowsTP else
  if 0x020000 ≤ addr ∧ addr ≤ 0x023FFF then regRowsCM else
  if 0x024000 ≤ addr ∧ addr ≤ 0x027FFF then regRowsSN else
  if 0x028000 ≤ addr ∧ addr ≤ 0x02FFFF then regRowsDG else
  if 0x030000 ≤ addr ∧ addr ≤ 0x037FFF then regRowsCL else
  if 0x038000 ≤ addr ∧ addr ≤ 0x03FFFF then regRowsTW else
  if 0x040000 ≤ addr ∧ addr ≤ 0x04FFFF then regRowsHIA ++ regRowsHIB else
  if 0x050000 ≤ addr ∧ addr ≤ 0x05FFFF then regRowsMSIX else
  if 0x060000 ≤ addr ∧ addr ≤ 0x060FFF then regRowsCK else
  if 0x061000 ≤ addr ∧ addr ≤ 0x061FFF then regRowsTH else
  if 0x062000 ≤ addr ∧ addr ≤ 0x06FFFF then regRowsNV else
  if 0x070000 ≤ addr ∧ addr ≤ 0x07FFFF then regRowsMC else
  if 0x400000 ≤ addr ∧ addr ≤ 0x40FFFF then regRowsAQ else
  if 0x100000 ≤ addr ∧ addr ≤ 0x2FFFFF then
    let o := addr % 0x10000
    if o < 0x4000 then regRowsTG else
    if o < 0x6000 then regRowsLS else
    if o < 0x7000 then regRowsCP else
    if o < 0x8000 then regRowsTD else
    if o < 0x9000 then regRowsFQ else
    if o < 0xA000 then regRowsFC else
    if o < 0xB000 then regRowsWPA ++ regRowsWPB else
    if o < 0xC000 then regRowsSQA ++ regRowsSQB else
    []
  else []

/-- The indices at which a register with these (stride, count) pairs lies at offset `off`, if any. The strides
of a row fall from left to right, and each index times its stride stays below the stride before it. -/
def indicesAt : Nat → List (Nat × Nat) → Option (List Nat)
  | off, [] => if off = 0 then some [] else none
  | off, (stride, count) :: rest =>
    let i := off / stride
    if i < count then (indicesAt (off % stride) rest).map (i :: ·) else none

/-- Registers that exist only in the group blocks named (chapter 16: G00, or the die's first group). -/
def RegName.present (r : RegName) (ix : List Nat) : Bool :=
  match r with
  | .TG_CAL_CTL | .TG_CAL_TLO | .TG_CAL_THI | .TG_CAL_MEAS | .CP_SM_CTL | .CP_SM_STAT | .CP_SM_WT_LO | .CP_SM_WT_HI | .CP_SM_WPER | .CP_PARKN_CTL | .CP_PFLAGS | .CP_PCNT | .SQ_BAR_MASK | .SQ_BAR_CTL | .SQ_BAR_ARR | .SQ_DOMSYNC => ix.getD 0 0 == 0
  | .LS_RAIL | .LS_RAILMEAS | .CP_TGEN | .CP_TGSTAT | .CP_TGARM | .CP_TFLAGS | .CP_TCNT0 | .CP_TGCAUSE | .CP_TGREC_LO | .CP_TGREC_HI => ix.getD 0 0 % 8 == 0
  | _ => true

/-- The register at a BAR0 byte address, with its indices; `none` for an unassigned address (R435, R8). -/
def regAt (addr : Nat) : Option (RegName × List Nat) :=
  (regRowsAt addr).findSome? fun row =>
    if row.base ≤ addr then
      match indicesAt (addr - row.base) row.dims with
      | some ix => if row.name.present ix then some (row.name, ix) else none
      | none => none
    else none

end Sys2Proof.Machine
end

