-- ==== Sys2Proof/Machine/State.lean ====
section
/-! DEFINITION. The state of the device as plain data: the register planes, the memory, the state behind each
block that no register shows, the outputs, and the queue of waiting commands; and the state at READY. -/

namespace Sys2Proof.Machine


/-- What stops the block: no rule of the spec stops it, so nothing raises a fault (safe). -/
inductive Fault where
  /-- an access to state that does not exist; raised nowhere (safe) -/
  | noSuchState
  deriving DecidableEq, Repr

/-- Why a command has no meaning. -/
inductive Refusal where
  /-- the arm of `exec` holds no meaning yet (safe) -/
  | notModelled (mnemonic : String)
  deriving DecidableEq, Repr

structure State where
  /-- TIME of the current TCLK (R3, R33) -/
  time : Time
  /-- the live plane and every status, flag and counter register -/
  live : RegFile
  /-- the staged plane: a listed register holds its staged word, an unlisted one equals the live plane (R325) -/
  staged : RegFile
  /-- the LS and CP registers as they act at the channel dies; an unlisted one equals its word at READY -/
  die : RegFile
  /-- every BAR2 memory by byte offset (R438) -/
  mem : List Host.Cell
  tp : TpState
  groups : Vector Group 32
  engines : Vector Engine 32
  hi : HiState
  sn : SnState
  /-- the commit or check in progress (R327) -/
  cm : Option CmReq
  /-- the vote of this device is not sent, or not decided on the root -/
  ballot : Option Ballot
  dg : DgState
  cl : ClState
  tw : TwState
  sys : SysState
  trigs : Vector TrigEngine 4
  /-- pulses of each TRIG_OUT ball at hand or to come: the TIME each rises and the TIME it ends (R198) -/
  trigOut : Vector (List (Time × Time)) 2
  /-- TIME of the last firing of each phase slot (R156) -/
  slotAt : Vector (Option Time) 16
  /-- the image last loaded: control-store words and dispatch words (R312) -/
  imgEntries : List (BitVec 144)
  imgDisp : List (BitVec 16)
  /-- entries of engine e that differ from the image, keyed 2048 × e + entry and 256 × e + opcode -/
  cs : List (Nat × CsEntry)
  disp : List (Nat × DispEntry)
  /-- W1C bits that hardware has set in this TCLK: register address and bit (R6, R264) -/
  raised : List (Nat × Nat)
  out : List Output
  /-- argument of the next free value (the model's own field) -/
  free : Nat
  pending : List Instr
  deriving DecidableEq, Repr

def TpState.reset : TpState :=
  { tbLast := none, tbGood := none, inA := false, inB := false, inP := false, inI := false, pos := 0, base := 0,
    off := 0, vel := 0, lastCount := 0, steady := none, lastSample := 0, slotFired := Vector.replicate 16 [],
    slotDue := Vector.replicate 16 [], pcmpTgt := Vector.replicate 8 0, pcmpAt := Vector.replicate 8 0, stepLog := [],
    stepPend := [] }

def Comparator.reset : Comparator :=
  { hiOn := false, loOn := false, hist := [], filt := .mid, thrChange := none, selfCheck := false, log := [] }

def Dac.reset : Dac := { tgt := 0x38E4, boot := 0x38E4, slew := none, hold := none }

def MeasSum.empty : MeasSum := { min := 0, max := 0, count := 0, anyCompl := false, anyOvr := false }

def Chan.reset : Chan :=
  { lane := .mid, lastEdge := none, lastData := false, edges := [], sent := [], wins := [], tdc := .reset, parkLog := [], dacs := Vector.replicate 6 .reset,
    lastOut := none, rangePend := none, parkEnd := none, measPend := false, measAbort := false, measSum := .empty, cmp := .reset }

def Group.reset : Group :=
  { chans := Vector.replicate 16 .reset, issue := [], begun := [], nextB := 0, lselPend := [], lsPend := [],
    cpPend := [], preCommit := true, ochreWait := none, ochrePark := false, wpOwn := [],
    shadowHold := false, termOnly := false,
    dsk := none, tdr := none, adcBusy := Vector.replicate 2 none, adcLast := Vector.replicate 2 0,
    outq := [], ivs := [.empty 0 0], cap := .reset, obs := [], wp := .reset, sumB := none, trips := [], gates := [], noen := [],
    scStart := none, sc := none }

def Engine.reset : Engine :=
  { dispatched := false, instr := 0, upc := 0, va := 0, cnt := 0, clampEv := false, ipc := 0, fresh := false, nextAt := 0,
    slotB := 0, afterHold := true, turnEnding := false, incoming := false, halting := none, eligAt := Vector.replicate 32 [], waits := Vector.replicate 32 none,
    msgs := [], refill := [], timers := Vector.replicate 2 0, trace := 0, arrived := Vector.replicate 8 none }

/-! The image of R309, version 1.4.0: fields by the bit positions of R300. -/

/-- The microword of an undefined opcode: ISSUE, CLAMPEV, PCOP 1, NAM DISPATCH. -/
def vendorUndefined : BitVec 144 := BitVec.ofNat 144 (1 <<< 11 ||| 1 <<< 18 ||| 1 <<< 28 ||| 1 <<< 44)

/-- A routine with NAM = DISPATCH, ISSUE = 1, the PCOP given and further fields (position, value). -/
def vendorIssue (pcop : Nat) (fields : List (Nat × Nat)) : BitVec 144 :=
  BitVec.ofNat 144 (fields.foldl (fun w f => w ||| f.2 <<< f.1) (1 <<< 11 ||| 1 <<< 18 ||| pcop <<< 28))

/-- A REPEAT routine on LAST: ISSUE, CNTDEC, PCOP 1 and further fields. -/
def vendorRepeat (fields : List (Nat × Nat)) : BitVec 144 :=
  BitVec.ofNat 144
    (fields.foldl (fun w f => w ||| f.2 <<< f.1)
      (3 <<< 11 ||| 1 <<< 15 ||| 1 <<< 18 ||| 1 <<< 22 ||| 1 <<< 28))

/-- A HOLD routine: NAM = DISPATCH, PCOP 1, no vector. -/
def vendorHold (hold : Nat) (fields : List (Nat × Nat)) : BitVec 144 :=
  BitVec.ofNat 144 (fields.foldl (fun w f => w ||| f.2 <<< f.1) (1 <<< 11 ||| hold <<< 25 ||| 1 <<< 28))

/-- The defined opcodes with their load mode (R304) and routine (R309). -/
def vendorRoutine (op : Nat) : Option (Nat × BitVec 144) :=
  match op with
  | 0x00 => some (0, vendorIssue 1 [])
  | 0x01 => some (2, vendorRepeat [(21, 1)])
  | 0x02 => some (1, vendorRepeat [])
  | 0x03 => some (3, vendorRepeat [(19, 1)])
  | 0x08 => some (0, vendorIssue 1 [(36, 2)])
  | 0x09 => some (0, vendorIssue 3 [(36, 4)])
  | 0x0A => some (0, vendorIssue 2 [])
  | 0x0B => some (0, vendorIssue 4 [(40, 1)])
  | 0x0C => some (0, vendorIssue 2 [(36, 1)])
  | 0x0D => some (0, vendorIssue 3 [(36, 3)])
  | 0x10 => some (0, vendorHold 1 [])
  | 0x11 => some (0, vendorHold 2 [])
  | 0x12 => some (0, vendorHold 3 [(40, 1)])
  | 0x13 => some (0, vendorHold 4 [])
  | 0x18 => some (0, vendorHold 5 [(41, 3)])
  | 0x19 => some (0, vendorIssue 1 [(41, 1)])
  | 0x1A => some (0, vendorIssue 1 [(41, 2)])
  | 0x20 => some (0, vendorIssue 1 [(54, 1), (61, 1), (39, 1)])
  | 0x21 => some (0, vendorIssue 1 [(54, 2), (59, 2), (61, 1), (39, 1)])
  | 0x22 => some (0, vendorIssue 1 [(54, 3), (59, 2), (39, 1)])
  | 0x23 => some (0, vendorIssue 1 [(54, 4), (57, 1), (61, 2), (39, 1)])
  | 0x28 => some (0, vendorIssue 1 [(41, 4)])
  | 0x29 => some (0, vendorIssue 1 [(41, 5)])
  | 0x2A => some (0, vendorIssue 1 [(72, 1)])
  | 0x30 => some (0, vendorIssue 1 [(72, 2)])
  | 0x31 => some (0, vendorIssue 1 [(72, 3)])
  | 0x32 => some (0, vendorIssue 1 [(23, 1)])
  | 0x33 => some (0, vendorIssue 1 [(72, 4)])
  | 0x34 => some (0, vendorIssue 1 [(23, 3), (72, 5)])
  | 0x35 => some (0, vendorIssue 1 [(72, 6)])
  | 0x36 => some (0, vendorIssue 1 [(72, 7)])
  | _ => none

/-- The 64 entries of the image (R309). -/
def vendorEntries : List (BitVec 144) :=
  (List.range 64).map fun op => ((vendorRoutine op).map (·.2)).getD vendorUndefined

/-- The 256 dispatch entries: LDM at [12:11], MADDR at [10:0] (R299, R309). -/
def vendorDispatch : List (BitVec 16) :=
  (List.range 256).map fun op =>
    BitVec.ofNat 16 (match vendorRoutine op with
      | some (ldm, _) => ldm * 2048 + op
      | none => 0x3F)

/-- The machine at READY (R9, R418): every register at its Reset word, every memory at its default, the image of
R309 loaded; TIME is 0 (a log entry says why). -/
def State.reset : State :=
  { time := 0, live := [], staged := [], die := [], mem := [], tp := .reset,
    groups := Vector.replicate 32 .reset, engines := Vector.replicate 32 .reset, hi := .reset, sn := .reset, cm := none, ballot := none, dg := .reset, cl := .reset, tw := .reset, sys := .reset, trigs := Vector.replicate 4 .reset, trigOut := Vector.replicate 2 [],
    slotAt := Vector.replicate 16 none,
    imgEntries := vendorEntries, imgDisp := vendorDispatch, cs := [], disp := [], raised := [], out := [], free := 0,
    pending := [] }

end Sys2Proof.Machine
end

