-- ==== Sys2Proof/Machine/Regs.lean ====
section
/-! DEFINITION. Reading and writing registers and memory: the named accessors every meaning uses. -/

namespace Sys2Proof.Machine

/-! ### The sparse register plane -/

/-- The word listed at an address. -/
def RegFile.find (f : RegFile) (a : Nat) : Option Word := (f.find? (·.1 == a)).map (·.2)

/-- The plane without an address. -/
def RegFile.drop (f : RegFile) (a : Nat) : RegFile := f.filter (·.1 != a)

/-- The plane with a word at an address, in rising order. -/
def RegFile.put (f : RegFile) (a : Nat) (w : Word) : RegFile :=
  f.filter (·.1 < a) ++ (a, w) :: f.filter (a < ·.1)

/-- The canonical form of a plane: addresses strictly rising. -/
abbrev RegFile.rising (f : RegFile) : Prop := f.Pairwise fun x y => x.1 < y.1

/-- The word of a register: listed, or its word at READY (R9). -/
def RegFile.word (f : RegFile) (r : Reg) : Word := (f.find r.addr).getD (BitVec.ofNat 32 r.rst)

/-- Store a register word; the word at READY is not listed. -/
def RegFile.setWord (f : RegFile) (r : Reg) (w : Word) : RegFile :=
  if w = BitVec.ofNat 32 r.rst then f.drop r.addr else f.put r.addr w

/-- Bits hi to lo of a word as a number (R2). -/
def fieldOf (w : Word) (hi lo : Nat) : Nat := w.toNat / 2 ^ lo % 2 ^ (hi + 1 - lo)

/-- A word with bits hi to lo replaced by v (taken modulo the field's range). -/
def withField (w : Word) (hi lo : Nat) (v : Nat) : Word :=
  BitVec.ofNat 32
    (w.toNat / 2 ^ (hi + 1) * 2 ^ (hi + 1) + v % 2 ^ (hi + 1 - lo) * 2 ^ lo + w.toNat % 2 ^ lo)

/-- A field lies in a register word. -/
abbrev Fld.inWord (x : Fld) : Prop := x.lo ≤ x.hi ∧ x.hi < 32

/-- Two fields share no bit: different registers, or different bits of one. -/
abbrev Fld.apart (x y : Fld) : Prop := x.reg.addr ≠ y.reg.addr ∨ x.reg = y.reg ∧ (x.hi < y.lo ∨ y.hi < x.lo)

def RegFile.get (f : RegFile) (x : Fld) : Nat := fieldOf (f.word x.reg) x.hi x.lo

def RegFile.set (f : RegFile) (x : Fld) (v : Nat) : RegFile :=
  f.setWord x.reg (withField (f.word x.reg) x.hi x.lo v)

/-- The plane with every listed register of [a, b) removed. -/
def RegFile.clearRange (f : RegFile) (a b : Nat) : RegFile := f.filter fun c => c.1 < a || b ≤ c.1

/-- The listed registers of [a, b). -/
def RegFile.slice (f : RegFile) (a b : Nat) : RegFile := f.filter fun c => a ≤ c.1 && c.1 < b

/-- The plane with [a, b) taken from another plane. -/
def RegFile.copyRange (f from_ : RegFile) (a b : Nat) : RegFile :=
  (from_.slice a b).foldl (fun f c => f.put c.1 c.2) (f.clearRange a b)

/-! ### Registers of the state -/

/-- A live field, status, flag or counter. -/
def State.get (s : State) (x : Fld) : Nat := s.live.get x

/-- Store a live field. -/
def State.set (s : State) (x : Fld) (v : Nat) : State := { s with live := s.live.set x v }

def State.word (s : State) (r : Reg) : Word := s.live.word r

def State.setWord (s : State) (r : Reg) (w : Word) : State := { s with live := s.live.setWord r w }

/-- A one-bit field read as a truth value. -/
def State.on (s : State) (x : Fld) : Bool := s.get x != 0

/-- A signed live field (R2). -/
def State.getInt (s : State) (x : Fld) : Int :=
  let n := x.hi + 1 - x.lo
  if s.get x < 2 ^ (n - 1) then (s.get x : Int) else (s.get x : Int) - 2 ^ n

/-- Store a signed number into a field, two's complement (R2). -/
def State.setInt (s : State) (x : Fld) (v : Int) : State :=
  s.set x (v % (2 ^ (x.hi + 1 - x.lo) : Int)).toNat

/-- The staged word of a register: listed, or equal to the live plane (R325). -/
def State.stagedWord (s : State) (r : Reg) : Word := (s.staged.find r.addr).getD (s.live.word r)

def State.stagedGet (s : State) (x : Fld) : Nat := fieldOf (s.stagedWord x.reg) x.hi x.lo

/-- Store a staged register word; one equal to the live word is not listed. -/
def State.setStagedWord (s : State) (r : Reg) (w : Word) : State :=
  { s with staged := if w = s.live.word r then s.staged.drop r.addr else s.staged.put r.addr w }

/-- An LS or CP field as it acts at the channel die (R95, R144). -/
def State.dieGet (s : State) (x : Fld) : Nat := s.die.get x

def State.dieSet (s : State) (x : Fld) (v : Nat) : State := { s with die := s.die.set x v }

/-- Add n to a counter that stops at its field's maximum. -/
def State.count (s : State) (x : Fld) (n : Nat) : State :=
  s.set x (min (s.get x + n) (2 ^ (x.hi + 1 - x.lo) - 1))

/-- Add 1 to a counter that wraps. -/
def State.incr (s : State) (x : Fld) : State := s.set x (s.get x + 1)

/-- Bit i of a field. -/
def State.bit (s : State) (x : Fld) (i : Nat) : Bool := (s.get x).testBit i

/-- Number with bit i set or cleared. -/
def putBit (n i : Nat) (b : Bool) : Nat :=
  if b then n ||| 1 <<< i else if n.testBit i then n - 2 ^ i else n

/-- Set or clear bit i of a field. -/
def State.setBit (s : State) (x : Fld) (i : Nat) (b : Bool) : State := s.set x (putBit (s.get x) i b)

/-- R6: hardware has set bit i of the register at address a in this TCLK, so no clear of this TCLK clears it. -/
def State.note (s : State) (a i : Nat) : State := { s with raised := (a, i) :: s.raised }

/-- Hardware sets a one-bit flag. -/
def State.raise (s : State) (x : Fld) : State := (s.set x 1).note x.reg.addr x.lo

/-- Hardware sets bit i of a field of flags. -/
def State.raiseBit (s : State) (x : Fld) (i : Nat) : State := (s.setBit x i true).note x.reg.addr (x.lo + i)

/-- Set a flag and add 1 to its companion counter. -/
def State.flag (s : State) (fl cnt : Fld) : State := (s.raise fl).count cnt 1

/-- The bits of a register that hardware has set in this TCLK. -/
def State.raisedBits (s : State) (r : Reg) : Word :=
  s.raised.foldl (fun w x => if x.1 = r.addr then w ||| BitVec.ofNat 32 (1 <<< x.2) else w) 0

/-- The bit numbers below n set in m, rising. -/
def bitsOf (m n : Nat) : List Nat := (List.range n).filter fun i => m.testBit i

/-- Store a 56-bit TIME in a LO, HI pair of fields. -/
def State.setTime (s : State) (lo hi : Fld) (t : Time) : State :=
  (s.set lo (t.toNat % 2 ^ 32)).set hi (t.toNat / 2 ^ 32)

/-- The 56-bit TIME of a LO, HI pair of fields. -/
def State.getTime (s : State) (lo hi : Fld) : Time := BitVec.ofNat 56 (s.get hi * 2 ^ 32 + s.get lo)

/-- Apply f for each number of a list, in order. -/
def State.forEach (s : State) (l : List Nat) (f : State → Nat → State) : State := l.foldl f s

/-! ### Groups, channels and engines -/

def State.group (s : State) (g : Nat) : Group := if h : g < 32 then s.groups[g] else .reset

def State.setGroup (s : State) (g : Nat) (x : Group) : State :=
  if h : g < 32 then { s with groups := s.groups.set g x } else s

def State.chan (s : State) (g p : Nat) : Chan :=
  if h : p < 16 then (s.group g).chans[p] else .reset

def State.setChan (s : State) (g p : Nat) (x : Chan) : State :=
  if h : p < 16 then s.setGroup g { s.group g with chans := (s.group g).chans.set p x } else s

def State.engine (s : State) (e : Nat) : Engine := if h : e < 32 then s.engines[e] else .reset

def State.setEngine (s : State) (e : Nat) (x : Engine) : State :=
  if h : e < 32 then { s with engines := s.engines.set e x } else s

/-- The entry of a vector at a number, or a given value outside its range. -/
def vget {α : Type} {n : Nat} (v : Vector α n) (i : Nat) (d : α) : α := if h : i < n then v[i] else d

/-- The vector with an entry replaced, unchanged outside its range. -/
def vset {α : Type} {n : Nat} (v : Vector α n) (i : Nat) (x : α) : Vector α n := if h : i < n then v.set i x else v

/-- The vector in progress, or the last to have begun. -/
def Group.cur (x : Group) : Option VecRun := x.begun.head?

/-! ### Time -/

/-- R34: a TIME target counts as reached. -/
def reached (now target : Time) : Bool := (now - target).toNat < 2 ^ 55

/-- TCLK passed since t, modulo 2^56. -/
def State.since (s : State) (t : Time) : Nat := (s.time - t).toNat

/-- The TIME n TCLK after t. -/
def later (t : Time) (n : Nat) : Time := t + BitVec.ofNat 56 n

/-- One microsecond in TCLK. -/
def usTclk (n : Nat) : Nat := 1600 * n

/-- The TCLK that contains a tick (R3). -/
def tclkOf (b : Tick) : Time := BitVec.ofNat 56 (b.toNat / 1024)

/-- Tick t has come at `now`, modulo 2^66 (R34). -/
def tickReached (now t : Tick) : Bool := (now - t).toNat < 2 ^ 65

/-- The first tick of a TCLK (R3). -/
def tickOf (t : Time) : Tick := BitVec.ofNat 66 (t.toNat * 1024)

/-- The channel-die ticks of R461 fall where TIME mod 64 is one of these. -/
def dieTickOffsets : List Nat := [0, 12, 25, 38, 51]

/-- The number of channel-die ticks at or before TIME t, from TIME 0. -/
def dieTicksUpTo (t : Nat) : Nat := t / 64 * 5 + (dieTickOffsets.filter (· ≤ t % 64)).length

/-- The TIME of channel-die tick number i (R461). -/
def dieTickTime (i : Nat) : Nat := i / 5 * 64 + dieTickOffsets.getD (i % 5) 0

/-- The n-th channel-die tick after TIME t (R97, R461). -/
def nthDieTick (t : Time) (n : Nat) : Time := BitVec.ofNat 56 (dieTickTime (dieTicksUpTo t.toNat + n - 1))

/-! ### Free values -/

/-- A fresh value that the spec does not fix. -/
def State.fresh (s : State) : BitVec 64 := Config.freeValue s.free

/-- The next free value becomes another one. -/
def State.burn (s : State) : State := { s with free := s.free + 1 }

/-- Put something on the outputs. -/
def State.emit (s : State) (o : Output) : State := { s with out := o :: s.out }

/-! ### The memories behind BAR2 (R438): one byte list -/

def memVStore : Nat := 0x0000000
def memIStore : Nat := 0x2000000
def memWave : Nat := 0x2800000
def memFailLog : Nat := 0x3000000
def memStamp : Nat := 0x3200000
def memNvs : Nat := 0x3700000
def memCapture : Nat := 0x4000000

/-- Offset of word w of unit u of a region (R394, R438). -/
def memAddr (base stride u w : Nat) : Nat := base + u * stride + 16 * w

/-- The words of the image of R310 as the factory stores them in NVS slot 0. -/
def vendorImageWord (i : Nat) : Native :=
  if i = 0 then 0x5C01040000000000C2#72
  else if i = 1 then 0x01040000129E552B00#72
  else if i < 66 then
    let d := fun j => (vendorDispatch.getD (4 * (i - 2) + j) 0).toNat
    BitVec.ofNat 72 (d 0 + d 1 * 2 ^ 16 + d 2 * 2 ^ 32 + d 3 * 2 ^ 48)
  else if i < 194 then
    let e := (vendorEntries.getD ((i - 66) / 2) 0).toNat
    BitVec.ofNat 72 (if i % 2 = 0 then e else e / 2 ^ 72)
  else 0

/-- The word an unwritten NVS word reads as: in the TDC region four bins of a uniform table (log entry 12), in slot 0
the image from the factory (log entry 3). -/
def nvsDefault (w : Nat) : Native :=
  if 0x2000 ≤ w ∧ w < 0x22000 then 0x0080008000800080
  else if 0x3C000 ≤ w ∧ w < 0x3E000 then vendorImageWord (w - 0x3C000) else 0

/-- What a byte of memory that nothing has written reads as. -/
def memDefault (a : Nat) : Byte :=
  if memNvs ≤ a ∧ a < memNvs + 16 * 262144 then
    if a % 16 < 9 then BitVec.ofNat 8 ((nvsDefault ((a - memNvs) / 16)).toNat / 2 ^ (8 * (a % 16))) else 0
  else 0

/-- Read one byte. -/
def Memory.read (m : List Host.Cell) (a : Nat) : Byte := ((m.find? (·.1 == a)).map (·.2)).getD (memDefault a)

/-- Write one byte, keeping the canonical form. -/
def Memory.write (m : List Host.Cell) (a : Nat) (b : Byte) : List Host.Cell :=
  if b = memDefault a then m.filter (·.1 != a)
  else m.filter (·.1 < a) ++ (a, b) :: m.filter (a < ·.1)

/-- The canonical form: addresses strictly rising, no entry at its default. -/
abbrev Memory.wf (m : List Host.Cell) : Prop :=
  m.Pairwise (fun x y => x.1 < y.1) ∧ ∀ c ∈ m, c.2 ≠ memDefault c.1

/-- The native word at an offset: byte j holds bits [8j+7:8j] (R394). -/
def State.memWord (s : State) (a : Nat) : Native :=
  BitVec.ofNat 72 ((List.range 9).foldr (fun j n => n * 256 + (Memory.read s.mem (a + j)).toNat) 0)

/-- Store a native word whole. -/
def State.setMemWord (s : State) (a : Nat) (w : Native) : State :=
  { s with mem := (List.range 9).foldl (fun m j => Memory.write m (a + j) (BitVec.ofNat 8 (w.toNat / 2 ^ (8 * j)))) s.mem }

/-- V-store word w of engine e (R229). -/
def State.vStore (s : State) (e w : Nat) : Native := s.memWord (memAddr memVStore 0x100000 e w)

/-- I-store word w of engine e (R229). -/
def State.iStore (s : State) (e w : Nat) : Native := s.memWord (memAddr memIStore 0x40000 e w)

/-- Add 1 to the count of a memory, the list rising. -/
def countAt (l : List (Nat × Nat)) (m : Nat) : List (Nat × Nat) :=
  l.filter (fun x => decide (x.1 < m)) ++ (m, ((l.find? (·.1 == m)).map (·.2)).getD 0 + 1) :: l.filter (fun x => decide (m < x.1))

/-- R19: what the check bits of an SRAM word tell at a read, counted for the memory. -/
def State.sramRead (s : State) (m : Nat) (ecc : EccResult) : State :=
  match ecc with
  | .good => s
  | .corrected => { s with sys := { s.sys with sramCorr := countAt s.sys.sramCorr m } }
  | .uncorrectable => { s with sys := { s.sys with sramUncorr := countAt s.sys.sramUncorr m } }

/-- Bits hi to lo of a native word as a number. -/
def nbits (w : Native) (hi lo : Nat) : Nat := w.toNat / 2 ^ lo % 2 ^ (hi + 1 - lo)

/-- Put a bit of a native word at 1. -/
def nset (w : Native) (i : Nat) : Native := w ||| BitVec.ofNat 72 (1 <<< i)

end Sys2Proof.Machine
end

