-- ==== Sys2Proof/Machine/Operands.lean ====
section
/-! DEFINITION. Operand fields of the Quesel instruction word (R257), the vector word (R64) and the microword
(R300), and the operand forms of the instructions. -/

namespace Sys2Proof.Machine

/-! ### Instruction word (R257) -/

def opOf (i : Native) : Nat := nbits i 71 64
def modOf (i : Native) : Nat := nbits i 63 56
def aOf (i : Native) : Nat := nbits i 55 32
def bOf (i : Native) : Nat := nbits i 31 8
def cOf (i : Native) : Nat := nbits i 7 0

/-- R253: a V-store address above 0xFFFF is taken as 0xFFFF. -/
def clampVaddr (a : Nat) : Nat := min a 0xFFFF

/-- R253: an I-store target above 16,383 is taken as 16,383. -/
def clampTarget (b : Nat) : Nat := min b 16383

/-- Condition code of JMPC and WAITEV (R263). -/
def condOf (i : Native) : Nat := nbits i 60 56

/-- CLR modifier (R263). -/
def clrOf (i : Native) : Bool := nbits i 63 63 != 0

/-- WAITPH: the angle of the ANGLE form and of the offset of the REL form (R277). -/
def waitAngle (i : Native) : Nat := aOf i * 256 + cOf i

/-- WAITPH REL: the 64-bit offset from PHASE at w. -/
def waitPhaseOffset (i : Native) : Nat := bOf i * 2 ^ 32 + waitAngle i

/-- WAITT REL: the 48-bit delay (R278). -/
def waitDelay (i : Native) : Nat := bOf i * 2 ^ 24 + aOf i

/-! ### Vector word (R64) -/

def pinCode (v : Native) (p : Nat) : Nat := nbits v (4 * p + 3) (4 * p)
def tsOf (v : Native) : Nat := nbits v 68 64
def capmOf (v : Native) : Bool := nbits v 69 69 != 0
def sumrOf (v : Native) : Bool := nbits v 70 70 != 0
def trgmOf (v : Native) : Bool := nbits v 71 71 != 0

/-! ### Microword (R300) -/

def mwBits (w : BitVec 144) (hi lo : Nat) : Nat := w.toNat / 2 ^ lo % 2 ^ (hi + 1 - lo)

/-- The microword's fields. -/
structure Micro where
  na : Nat
  nam : Nat
  tsel : Nat
  issue : Bool
  vsrc : Nat
  vainc : Bool
  cntdec : Bool
  vforce : Nat
  hold : Nat
  pcop : Nat
  stkop : Nat
  flagw : Bool
  clrt : Bool
  ctxop : Nat
  clampev : Bool
  trap : Bool
  trace : Nat
  aluf : Nat
  asel : Nat
  bsel : Nat
  dsel : Nat
  xreq : Nat
  imm : Nat
  deriving DecidableEq, Repr

/-- R300: values listed as "act as 0" read as 0. -/
def Micro.of (w : BitVec 144) : Micro :=
  let f := mwBits w
  let upTo := fun (v max : Nat) => if v ≤ max then v else 0
  { na := f 10 0, nam := if f 14 11 ≤ 3 then f 14 11 else 0, tsel := f 17 15, issue := f 18 18 != 0,
    vsrc := upTo (f 20 19) 1, vainc := f 21 21 != 0, cntdec := f 22 22 != 0, vforce := f 24 23,
    hold := upTo (f 27 25) 5, pcop := upTo (f 30 28) 4, stkop := upTo (f 38 36) 4, flagw := f 39 39 != 0,
    clrt := f 40 40 != 0, ctxop := upTo (f 43 41) 5, clampev := f 44 44 != 0, trap := f 45 45 != 0,
    trace := f 53 48, aluf := upTo (f 56 54) 4, asel := f 58 57, bsel := f 60 59, dsel := upTo (f 62 61) 2,
    xreq := upTo (f 75 72) 7, imm := f 107 90 }

/-! ### Parity (R298, R299) -/

/-- Odd-parity bit of an n-bit number: the number and its parity bit hold an odd number of ones. -/
def oddParity (v n : Nat) : Bool := (bitsOf v n).length % 2 == 0

/-- The parity byte of a microword: bit k covers slice k. -/
def parityOf (w : BitVec 144) : BitVec 8 :=
  BitVec.ofNat 8 ((List.range 8).foldl
    (fun n k => if oddParity (mwBits w (18 * k + 17) (18 * k)) 18 then n + 2 ^ k else n) 0)

/-- A stored entry with the parity the device generates. -/
def CsEntry.make (w : BitVec 144) : CsEntry := { word := w, parity := parityOf w }

/-- The slices of an entry that fail the parity check. -/
def CsEntry.badSlices (e : CsEntry) : BitVec 8 := e.parity ^^^ parityOf e.word

def DispEntry.make (w : BitVec 16) : DispEntry := { word := w, parity := oddParity w.toNat 16 }

def DispEntry.bad (d : DispEntry) : Bool := d.parity != oddParity d.word.toNat 16

/-- R299: load mode and first micro-address. -/
def DispEntry.ldm (d : DispEntry) : Nat := d.word.toNat / 2048 % 4
def DispEntry.maddr (d : DispEntry) : Nat := d.word.toNat % 2048

/-- R312: the word that fills entries NENT to 2,047: TRAP = 1 and all else 0. -/
def trapWord : BitVec 144 := BitVec.ofNat 144 (1 <<< 45)

/-- The control-store entry of an engine. -/
def State.csEntry (s : State) (e i : Nat) : CsEntry :=
  ((s.cs.find? (·.1 == 2048 * e + i)).map (·.2)).getD (CsEntry.make (s.imgEntries.getD i trapWord))

/-- Store a control-store entry. -/
def State.setCsEntry (s : State) (e i : Nat) (x : CsEntry) : State :=
  let k := 2048 * e + i
  { s with cs := s.cs.filter (·.1 < k) ++ (k, x) :: s.cs.filter (k < ·.1) }

/-- The dispatch entry of an engine. -/
def State.dispEntry (s : State) (e op : Nat) : DispEntry :=
  ((s.disp.find? (·.1 == 256 * e + op)).map (·.2)).getD (DispEntry.make (s.imgDisp.getD op 0))

def State.setDispEntry (s : State) (e op : Nat) (x : DispEntry) : State :=
  let k := 256 * e + op
  { s with disp := s.disp.filter (·.1 < k) ++ (k, x) :: s.disp.filter (k < ·.1) }

end Sys2Proof.Machine
end

