-- ==== Sys2Proof/Machine/Flags.lean ====
section
/-! DEFINITION. The 24-bit arithmetic of the Q registers with the flags Z, N and C (R265), and the conditions
of JMPC and WAITEV over the flags a context holds (R263). -/

namespace Sys2Proof.Machine

/-- A result of the ALU: the value, and C. -/
structure AluResult where
  x : Nat
  c : Bool
  deriving DecidableEq, Repr

/-- R300: ALUF 1 = b, 2 = a + b, 3 = a − b, 4 = a, modulo 2^24; C by R265. -/
def alu (f a b : Nat) : AluResult :=
  match f with
  | 1 => { x := b % 2 ^ 24, c := false }
  | 2 => { x := (a + b) % 2 ^ 24, c := decide (2 ^ 24 ≤ a + b) }
  | 3 => { x := (a + 2 ^ 24 - b) % 2 ^ 24, c := decide (a < b) }
  | 4 => { x := a % 2 ^ 24, c := false }
  | _ => { x := 0, c := false }

/-- The flags C, N, Z as they stand in SQ_CTXc_FLAGS [2:0]. -/
def AluResult.cnz (r : AluResult) : Nat :=
  (if r.c then 4 else 0) + (if r.x.testBit 23 then 2 else 0) + (if r.x = 0 then 1 else 0)

/-- What a condition code reads (R263): the context's flags, and the live conditions of R249. -/
structure CondInput where
  fail : Bool
  evt : Bool
  phr : Bool
  undr : Bool
  syncto : Bool
  z : Bool
  n : Bool
  c : Bool
  trip : Bool
  ochre : Bool
  linkmsg : Bool
  hf : Nat
  deriving DecidableEq, Repr

/-- R263. -/
def condHolds (code : Nat) (i : CondInput) : Bool :=
  match code with
  | 0 => true
  | 1 => i.fail
  | 2 => !i.fail
  | 3 => i.trip
  | 4 => !i.trip
  | 5 => i.evt
  | 6 => !i.evt
  | 7 => i.phr
  | 8 => !i.phr
  | 9 => i.z
  | 10 => !i.z
  | 11 => i.n
  | 12 => !i.n && !i.z
  | 13 => i.c
  | 14 => !i.c
  | 15 => i.undr
  | 16 => !i.undr
  | 17 => i.ochre
  | 18 => !i.ochre
  | 19 => i.linkmsg
  | 20 => !i.linkmsg
  | 21 => i.hf.testBit 0
  | 22 => i.hf.testBit 1
  | 23 => i.hf.testBit 2
  | 24 => i.hf.testBit 3
  | 25 => i.syncto
  | 26 => !i.syncto
  | _ => false

/-- R264: the sticky flag a code reads, by its bit in SQ_CTXc_FLAGS. -/
def stickyBit (code : Nat) : Option Nat :=
  match code with
  | 1 | 2 => some 5
  | 5 | 6 => some 6
  | 15 | 16 => some 7
  | 7 | 8 => some 8
  | 25 | 26 => some 9
  | _ => none

end Sys2Proof.Machine
end

