-- ==== Sys2Proof/Machine/Ops.lean ====
section
/-! DEFINITION. Operations shared by the families: gangs, context state, the delivery of causes, PARK. -/

namespace Sys2Proof.Machine

/-! ### Gangs (R16, R221) -/

/-- The leader of the gang that contains engine e: the lowest of the aligned block of 2^M engines. -/
def State.leader (s : State) (e : Nat) : Nat := e / 2 ^ s.get (SQ_GANG_M e) * 2 ^ s.get (SQ_GANG_M e)

/-- The members of the gang that contains engine e, rising. -/
def State.members (s : State) (e : Nat) : List Nat :=
  (List.range (2 ^ s.get (SQ_GANG_M e))).map (s.leader e + ·)

def State.isLeader (s : State) (e : Nat) : Bool := s.leader e == e

/-- The engines that run contexts: every leader, an engine alone being its own. -/
def State.leaders (s : State) : List Nat := (List.range 32).filter s.isLeader

/-- The leaders of the engines in a mask, without repeats (R63, R223). -/
def State.leadersOf (s : State) (mask : Nat) : List Nat :=
  (List.range 32).filter fun l => s.isLeader l && (s.members l).any mask.testBit

/-! ### Context states (R226) -/

inductive CtxState where
  | idle | ready | eligible | running
  deriving DecidableEq, Repr

def CtxState.code : CtxState → Nat
  | .idle => 0 | .ready => 1 | .eligible => 2 | .running => 3

def State.ctxState (s : State) (e c : Nat) : CtxState :=
  match s.get (SQ_CTX_STAT_STATE e c) with
  | 0 => .idle | 1 => .ready | 2 => .eligible | _ => .running

def State.ctxPrio (s : State) (e c : Nat) : Nat := s.get (SQ_CTX_STAT_PRIO e c)

/-- R239: a change of context c among the ELIGIBLE ones, made in this TCLK. -/
def State.noteElig (s : State) (e c : Nat) (l : List (Time × Nat)) : State :=
  s.setEngine e { s.engine e with eligAt := vset (s.engine e).eligAt c l }

/-- Put a context into a state; SQ_ELIG and the TCLK of becoming ELIGIBLE follow (R239). -/
def State.setCtx (s : State) (e c : Nat) (x : CtxState) (prio : Nat) : State :=
  let was := s.ctxState e c
  let s := (s.set (SQ_CTX_STAT_STATE e c) x.code).set (SQ_CTX_STAT_PRIO e c) prio
  let s := s.setBit (SQ_ELIG_ELIG e) c (x == .eligible)
  if x == .eligible && was != .eligible then s.noteElig e c [(s.time, prio)] else s

/-- SQ_STAT.ENG values. -/
def engIdle : Nat := 0
def engIssue : Nat := 1
def engHold : Nat := 2
def engUnderrun : Nat := 3
def engMchk : Nat := 4

def State.inMchk (s : State) (e : Nat) : Bool := s.bit MC_MCHKMAP_MAP e

/-- The RUNNING context of an engine, if any (SQ_STAT.RUNCTX is valid when ENG is 1, 2 or 3). -/
def State.running (s : State) (e : Nat) : Option Nat :=
  let g := s.get (SQ_STAT_ENG e)
  if 1 ≤ g ∧ g ≤ 3 then some (s.get (SQ_STAT_RUNCTX e)) else none

def State.setPrio (s : State) (e c p : Nat) : State :=
  let s1 := s.set (SQ_CTX_STAT_PRIO e c) p
  if s.running e = some c then s1.set (SQ_STAT_RUNPRIO e) p
  else if s.ctxState e c == .eligible && p != s.ctxPrio e c then
    s1.noteElig e c ((s.time, p) :: vget (s.engine e).eligAt c [])
  else s1

/-! ### Causes (R237, R238) -/

/-- The kinds of cause, by their bit in the cause record (R237). -/
inductive CauseKind where
  | phase | timer | trip | fail | event | ochre | doorbell | linkmsg | swc
  deriving DecidableEq, Repr

def CauseKind.bit : CauseKind → Nat
  | .phase => 0 | .timer => 1 | .trip => 2 | .fail => 3 | .event => 4 | .ochre => 5 | .doorbell => 6
  | .linkmsg => 7 | .swc => 8

/-- A cause that is dropped and counted. -/
def State.dropCause (s : State) (e : Nat) : State := s.flag (SQ_FLAGS_CAUSEDROP e) (SQ_CNT0_CAUSEDROP e)

/-- R238 and R223: a cause for context c of engine e at priority p. A PHASE cause also sets PHR (R249). -/
def State.cause (s : State) (e c p : Nat) (k : CauseKind) : State :=
  let e := s.leader e
  let st := s.ctxState e c
  if s.inMchk e || st == .idle then s.dropCause e
  else
    let s := s.raiseBit (SQ_CTX_STAT_CAUSE e c) k.bit
    let s := if k == .phase then s.raise (SQ_CTX_FLAGS_PHR e c) else s
    match st with
    | .ready => s.setCtx e c .eligible p
    | _ => s.setPrio e c (max (s.ctxPrio e c) p)

/-- A cause for the same context number on every engine of a mask (R61, R62, R198). -/
def State.causeMask (s : State) (mask c p : Nat) (k : CauseKind) : State :=
  s.forEach (s.leadersOf mask) fun s e => s.cause e c p k

/-- A cause routed by an EN, CTX, PRIO register of an engine (R237, R246, R247). -/
def State.causeRouted (s : State) (en ctx prio : Fld) (e : Nat) (k : CauseKind) : State :=
  if s.on en then s.cause e (s.get ctx) (s.get prio) k else s

/-- Entry to LOST delivers the event cause to every engine by SQ_RT_PHL (R51, R237). -/
def State.causePhaseLoss (s : State) : State :=
  s.forEach (List.range 32) fun s e => s.causeRouted (SQ_RT_PHL_EN e) (SQ_RT_PHL_CTX e) (SQ_RT_PHL_PRIO e) e .event

/-! ### Vector issue -/

/-- R462: TIME lies within the vector period that the group's generator runs. -/
def State.issuing (s : State) (g : Nat) : Bool :=
  match (s.group g).cur with
  | some v => reached s.time (tclkOf v.b) && !reached s.time (tclkOf (v.b + BitVec.ofNat 66 v.period))
  | none => false

/-! ### Summary intervals (R178, R182) -/

/-- The interval of a group with a number is changed. -/
def State.mapIv (s : State) (g id : Nat) (f : Interval → Interval) : State :=
  s.setGroup g { s.group g with ivs := (s.group g).ivs.map fun iv => if iv.id = id then f iv else iv }

/-- The part of one channel in it. -/
def State.mapSum (s : State) (g p id : Nat) (f : SumChan → SumChan) : State :=
  s.mapIv g id fun iv => { iv with chans := vset iv.chans p (f (vget iv.chans p .empty)) }

/-- R182: a flag of S0. -/
def State.sumFlag (s : State) (g p id bit : Nat) : State :=
  s.mapSum g p id fun c => { c with flags := c.flags ||| BitVec.ofNat 11 (1 <<< bit) }

/-! ### CRC-32C (R310, R353, R397) -/

/-- One bit of the reflected CRC-32C register. -/
def crcBit (c : BitVec 32) : BitVec 32 := if c.getLsbD 0 then (c >>> 1) ^^^ 0x82F63B78 else c >>> 1

def crcByte (c : BitVec 32) (b : Byte) : BitVec 32 := (List.range 8).foldl (fun c _ => crcBit c) (c ^^^ b.setWidth 32)

/-- CRC-32C with initial value all ones and final inversion. -/
def crc32c (l : List Byte) : BitVec 32 := ~~~(l.foldl crcByte 0xFFFFFFFF)

/-- The n low bytes of a number, lowest first. -/
def bytesOf (v n : Nat) : List Byte := (List.range n).map fun i => BitVec.ofNat 8 (v / 2 ^ (8 * i))

/-- Native words as bytes, nine each. -/
def wordBytes (l : List Native) : List Byte := l.flatMap fun w => bytesOf w.toNat 9

/-! ### Values the spec bounds but does not fix -/

/-- A quotient in the unit of its register: exact, or one of the two neighbours where the spec states no rounding. -/
def State.quotient (s : State) (num : Int) (den : Nat) : State × Int :=
  if num % (den : Int) = 0 then (s, num / (den : Int))
  else (s.burn, num / (den : Int) + (if s.fresh.getLsbD 0 then 1 else 0))

/-- A free value in [lo, hi]. -/
def State.within (s : State) (lo hi : Int) : State × Int :=
  (s.burn, if lo ≤ hi then lo + (s.fresh.toNat : Int) % (hi - lo + 1) else lo)

/-! ### Clamped register writes (R326) -/

/-- R326: a write that clamps is counted, with its plain address. -/
def State.clampNote (s : State) (addr : Nat) : State :=
  (s.count GL_CLAMP_COUNT_COUNT 1).set GL_CLAMP_LAST_ADDR addr

/-- Store a value with its bounds applied, noting a clamp. -/
def State.setClamped (s : State) (x : Fld) (v lo hi : Nat) : State :=
  let s1 := s.set x (max lo (min hi v))
  if v < lo ∨ hi < v then s1.clampNote x.reg.addr else s1

/-! ### Snapshot requests (R340) -/

/-- Add a request to those that latch in the same TCLK. -/
def addReq (l : List (Time × Nat × Bool)) (t : Time) (src : Nat) (late : Bool) : List (Time × Nat × Bool) :=
  if l.any (·.1 == t) then l.map fun r => if r.1 == t then (r.1, r.2.1 ||| 1 <<< src, r.2.2 || late) else r
  else l ++ [(t, 1 <<< src, late)]

/-- R340: the sources with an enable: SNAPI, MCHK, OCHRE and DOMAIN. -/
def State.snapEnabled (s : State) (src : Nat) : Bool :=
  match src with
  | 1 => s.bit SN_CTL_EN 0
  | 4 => s.bit SN_CTL_EN 1
  | 5 => s.bit SN_CTL_EN 2
  | 7 => s.bit SN_CTL_EN 3
  | _ => true

/-- R340: a request of source `src` reaches the SN block in TCLK t and latches in t + 1. -/
def State.snapRequestAt (s : State) (t : Time) (src : Nat) (late : Bool := false) : State :=
  if s.snapEnabled src then { s with sn := { s.sn with reqs := addReq s.sn.reqs (later t 1) src late } } else s

def State.snapRequest (s : State) (src : Nat) : State := s.snapRequestAt s.time src

/-! ### Records of the device-to-host rings (R401, R402) -/

/-- Bound of a block in record words (R397). -/
def blockWords : Nat := 452

/-- R401: a ring's open block of a unit closes; a block with no record stays. -/
def Ring.close (r : Ring) (unit : Nat) : Ring :=
  match r.opened.find? (·.unit == unit) with
  | none => r
  | some b =>
    if b.words.isEmpty then r
    else { r with opened := r.opened.filter (·.unit != unit), closed := r.closed ++ [(r.bseq, b)],
                  bseq := (r.bseq + 1) % 2 ^ 32 }

/-- Whether a record of n words finds room now: it fits the open block, or that block can close. -/
def Ring.room (r : Ring) (unit n : Nat) : Bool :=
  match r.opened.find? (·.unit == unit) with
  | none => true
  | some b => decide (b.words.length + n ≤ blockWords) || decide (r.closed.length < 8)

/-- Losses noted for a unit since its last block. -/
def Ring.lostOf (r : Ring) (unit : Nat) : Nat × Nat := ((r.lost.find? (·.1 == unit)).map (·.2)).getD (0, 0)

/-- A record enters the open block, a new block opening with the gap marker of earlier losses (R402). -/
def Ring.add (r : Ring) (unit : Nat) (ws : List Native) (now : Time) (aux : Option Nat) : Ring :=
  let r := match r.opened.find? (·.unit == unit) with
    | some b => if b.words.length + ws.length ≤ blockWords then r else r.close unit
    | none => r
  match r.opened.find? (·.unit == unit) with
  | some b =>
    { r with losing := false,
             opened := r.opened.map fun x => if x.unit == unit then { b with words := b.words ++ ws, recs := b.recs + 1 } else x }
  | none =>
    let l := r.lostOf unit
    { r with losing := false, lost := r.lost.filter (·.1 != unit),
             opened := r.opened ++ [{ unit := unit, gap := decide (0 < l.1), drop := min l.1 (2 ^ 32 - 1),
                                      aux := aux.getD (min l.2 (2 ^ 32 - 1)), words := ws, recs := 1, first := now }] }

/-- Note lost records and words of a unit. -/
def Ring.lose (r : Ring) (unit n words : Nat) : Ring :=
  let l := r.lostOf unit
  { r with lost := r.lost.filter (·.1 != unit) ++ [(unit, l.1 + n, l.2 + words)] }

def State.ring (s : State) (r : Nat) : Ring := vget s.hi.rings r .reset

def State.setRing (s : State) (r : Nat) (x : Ring) : State :=
  { s with hi := { s.hi with rings := vset s.hi.rings r x } }

/-- A lost record is counted; an episode sets RDROP once (R402). -/
def State.ringLose (s : State) (r unit n words : Nat) : State :=
  let x := s.ring r
  let s := (s.setRing r { x.lose unit n words with losing := true }).count (HI_RING_DROP_DROP r) n
  if x.losing then s else s.flag HI_FLAGS_RDROP HI_CNT2_RDROP

/-- R401, R402: a record of rings 0, 3 and 5 enters the ring or is lost whole. -/
def State.ringRecord (s : State) (r : Nat) (ws : List Native) : State :=
  if s.on (HI_RING_CTL_EN r) && (s.ring r).room 0 ws.length then s.setRing r ((s.ring r).add 0 ws s.time none)
  else s.ringLose r 0 1 ws.length

/-! ### Packets (R357 to R363) -/

def Packet.type (p : Packet) : Nat := nbits p.header 71 68
def Packet.dst (p : Packet) : Nat := nbits p.header 67 58
def Packet.src (p : Packet) : Nat := nbits p.header 57 48
def Packet.nf (p : Packet) : Nat := nbits p.header 47 45
def Packet.sub (p : Packet) : Nat := nbits p.header 44 40
def Packet.arg (p : Packet) : Nat := nbits p.header 39 0

/-- Build a packet (R357). -/
def Packet.make (type dst src sub arg : Nat) (payload : List Native) : Packet :=
  { header := BitVec.ofNat 72 (type * 2 ^ 68 + dst % 1024 * 2 ^ 58 + src % 1024 * 2 ^ 48
                               + payload.length * 2 ^ 45 + sub * 2 ^ 40 + arg % 2 ^ 40),
    payload := payload }

/-- Flits of a packet. -/
def Packet.flits (p : Packet) : Nat := 1 + p.payload.length

/-- R360: the kinds that may use the 128 reserved flits. -/
def Packet.reserved (p : Packet) : Bool :=
  (p.type == 3 && decide (p.sub ≤ 4)) || (p.type == 4 && decide (p.sub ≤ 2))

def State.port (s : State) (x : Nat) : Port := vget s.cl.ports x .reset

def State.setPort (s : State) (x : Nat) (p : Port) : State :=
  { s with cl := { s.cl with ports := vset s.cl.ports x p } }

def State.portUp (s : State) (x : Nat) : Bool := s.get (CL_P_STAT_STATE x) == 2

/-- R360: flits in a queue. -/
def flitsIn (l : List Packet) : Nat := (l.map Packet.flits).foldl (· + ·) 0

/-- R360: a packet enters a port's forwarding queue, or is dropped whole. -/
def State.sendPacket (s : State) (x : Nat) (p : Packet) : State :=
  let q := (s.port x).queue
  let room := if p.reserved then decide (flitsIn q + p.flits ≤ 512)
    else decide (flitsIn q + p.flits ≤ 512) && decide (flitsIn (q.filter (!·.reserved)) + p.flits ≤ 384)
  if room then s.setPort x { s.port x with queue := q ++ [p] }
  else (s.count (CL_P_DROP_DROP x) 1).raise CL_FLAGS_FWDDROP

/-- R361: the device's own number. -/
def State.devNum (s : State) : Nat := if s.on CL_DOM_CTL_ROOT then 0 else s.get CL_DEVNUM_NUM

def State.isRoot (s : State) : Bool := s.on CL_DOM_CTL_ROOT

/-- R387 STATE: 3 = MEMBER, 4 = ROOT. -/
def State.isMember (s : State) : Bool := s.on CL_DEVNUM_MEMBER

/-- R357: a broadcast goes down the tree, on ports B and C. -/
def State.broadcast (s : State) (sub arg : Nat) (payload : List Native) : State :=
  let p := Packet.make 3 0 s.devNum sub arg payload
  (s.sendPacket 1 p).sendPacket 2 p

/-- R357: a report toward the root, on port A. -/
def State.sendUp (s : State) (sub arg : Nat) (payload : List Native) : State :=
  s.sendPacket 0 (Packet.make 4 0 s.devNum sub arg payload)

/-- R363: the port of device d; `none` where the root holds no route. -/
def State.routeTo (s : State) (d : Nat) : Option Nat :=
  match s.cl.routes.find? (·.1 == d) with
  | some r => some r.2
  | none => if s.isRoot then none else some 0

/-- R363: send a packet toward its destination, a device other than this one. -/
def State.routePacket (s : State) (p : Packet) : State :=
  match s.routeTo p.dst with
  | some x => s.sendPacket x p
  | none => (s.count (CL_P_DROP_DROP 0) 1).raise CL_FLAGS_FWDDROP

/-- A TIME as a payload flit (R359). -/
def timeFlit (t : Time) : Native := BitVec.ofNat 72 t.toNat

/-! ### Twin roles and mirrored writes (R373 to R375) -/

def roleNone : Nat := 0
def roleActive : Nat := 1
def roleShadow : Nat := 2
def roleSingle : Nat := 3
def roleJoining : Nat := 4
def roleDetached : Nat := 5
def roleFailed : Nat := 6

def State.role (s : State) : Nat := s.get TW_STAT_ROLE

/-- R373: one of a pair of ACTIVE and SHADOW: no attach runs. -/
def State.inPair (s : State) : Bool := (s.role == roleActive && s.tw.attachAt.isNone) || s.role == roleShadow

/-- R373: the twin cause of PARK. -/
def State.twinPark (s : State) : Bool := s.on TW_CTL_PAIR && [0, 4, 5, 6].contains s.role

/-- Send a LINK message on a port. -/
def State.sendLink (s : State) (x : Nat) (m : LinkMsg) : State := s.emit (.link x m)

/-- R420: the device is READY; before it, host accesses outside the GL block have no effect. -/
def State.ready (s : State) : Bool := s.on GL_STATUS_READY

/-- R346: a live field that is an input of the digest has been written. -/
def State.dgStale (s : State) : State := s.set DG_STAT_STALE 1

/-- R375: a live host write to the TP, TG, LS, CP, TD, FQ, FC, AQ, WP and SQ blocks. On an ACTIVE member it is
forwarded and acts at w + 3,200; on a SHADOW it has no effect; otherwise it acts at once. -/
def State.mirrored (s : State) (addr : Nat) (v : Word) (act : State → State) : State :=
  if !s.ready && decide (0x10000 ≤ addr) then s
  else if s.role = roleActive then
    let x : MirrorWrite := .reg (BitVec.ofNat 24 addr) v
    ({ s with tw := { s.tw with mirror := s.tw.mirror ++ [(later s.time 3200, x)] } }).sendLink 3 (.write s.time x)
  else if s.role = roleShadow then s.flag TW_FLAGS_SHWR TW_CNT2_SHWR
  else act s

/-! ### Interrupts and ALERT_N (R408 to R411) -/

/-- Flag registers of a group source hold a flag in group g. -/
def State.groupFlags (s : State) (b g : Nat) : Bool :=
  let nz := fun r => s.word r != 0
  match b with
  | 10 => nz (TG_FLAGS g)
  | 11 => nz (LS_FLAGS g)
  | 12 => nz (CP_FLAGS g) || (g % 8 == 0 && nz (CP_TFLAGS g)) || (g == 0 && nz (CP_PFLAGS 0))
  | 13 => nz (TD_FLAGS g)
  | 14 => nz (FQ_FLAGS g)
  | 15 => nz (FC_FLAGS g)
  | 17 => nz (WP_FLAGS g)
  | 18 => nz (SQ_FLAGS g)
  | _ => false

/-- R408: bit b of HI_CAUSE. -/
def State.causeBit (s : State) (b : Nat) : Bool :=
  let nz := fun r => s.word r != 0
  if b < 8 then s.bit HI_RDONE_DONE b
  else match b with
    | 8 => nz GL_FLAGS
    | 9 => nz TP_FLAGS
    | 16 => nz AQ_FLAGS
    | 19 => nz MC_FLAGS
    | 20 => nz CM_FLAGS
    | 21 => nz SN_FLAGS
    | 22 => nz DG_FLAGS
    | 23 => nz CL_FLAGS
    | 24 => nz TW_FLAGS
    | 25 => nz HI_FLAGS
    | 26 => nz CK_FLAGS
    | 27 => nz TH_FLAGS
    | 28 => nz NV_FLAGS
    | _ => (List.range 32).any (s.groupFlags b)

/-- R410: HI_IMAP.Vb. -/
def State.imapV (s : State) (b : Nat) : Nat :=
  s.get (match b % 4 with
    | 0 => HI_IMAP_V0 (b / 4) | 1 => HI_IMAP_V1 (b / 4) | 2 => HI_IMAP_V2 (b / 4) | _ => HI_IMAP_V3 (b / 4))

/-- Send a vector, or set its PBA bit while it is masked. -/
def State.sendVector (s : State) (v : Nat) : State :=
  if s.on (MSIX_VCTL_MASK v) then s.setBit (MSIX_PBA_PEND (v / 32)) (v % 32) true else s.emit (.msix v)

/-- R410: one message for each vector of a list of causes. -/
def State.signal (s : State) (causes : List Nat) : State := s.forEach ((causes.map s.imapV).eraseDups) State.sendVector

/-- R411: STATUS. -/
def State.smbStatus (s : State) : Nat :=
  (if s.on GL_STATUS_READY then 1 else 0) + (if s.on MC_MCHKMAP_MAP then 2 else 0)
    + (if s.on TH_STAT_WARN then 4 else 0) + (if s.on TH_STAT_TRIP then 8 else 0) + (if s.on TH_STAT_OEXH then 16 else 0)

/-- R411: ALERT_N goes low when one of bits 1 to 4 rises. -/
def alertRises (s t : State) : Bool := (bitsOf (t.smbStatus / 2) 4).any fun i => !(s.smbStatus / 2).testBit i

/-- R410: the causes of `t` enabled there that were not set in `s`. -/
def risen (s t : State) : List Nat :=
  (bitsOf (t.get HI_IMASK_MASK) 29).filter fun b => t.causeBit b && !s.causeBit b

/-- The outputs that follow a change of flags: MSI-X messages and ALERT_N. -/
def settle (s t : State) : State :=
  let t := t.signal (risen s t)
  if alertRises s t then { t with hi := { t.hi with alertN := false } } else t

/-- Every meaning ends in a next state with its interrupts raised. -/
def done (s t : State) : Host.Outcome State Fault Refusal := .next (settle s t)

/-- A host access: before READY it has no effect (R420). -/
def hostDone (s t : State) : Host.Outcome State Fault Refusal := done s (if s.ready then t else s)

/-- A meaning whose condition does not hold leaves the state as it is. -/
def doneIf (c : Bool) (s t : State) : Host.Outcome State Fault Refusal := done s (if c then t else s)

/-- R423: one side of crossing xid enters reset; the other has yet to learn of it. -/
def State.crossingEnters (s : State) (xid : Nat) : State :=
  { s with sys := { s.sys with xNotice := s.sys.xNotice.filter (· != xid) ++ [xid] } }

end Sys2Proof.Machine
end

