-- ==== Sys2Proof/Machine/Timing.lean ====
section
/-! DEFINITION. Chapter 03: how a vector forms edges and windows, and the CAL_EXT ball. -/

namespace Sys2Proof.Machine

/-- R81: the reference-plane offset. -/
def zOffset : Nat := 51200

/-- Level of driven data. -/
def laneOf (d : Bool) : Lane := if d then .high else .low

/-- R65: the code drives; its data follows from the last drive data. -/
def driveData (code : Nat) (last : Bool) : Option Bool :=
  match code with
  | 0 => some false
  | 1 => some true
  | 8 => some (!last)
  | _ => none

/-- R65: the codes that are off at T1. DK (6) changes nothing. -/
def offCode (code : Nat) : Bool := (driveData code false).isNone && code != 6

/-- R65: the codes with a compare outcome, with a measurement window, and the reserved ones. -/
def compareCode (code : Nat) : Bool := [2, 3, 4, 7].contains code
def stampCode (code : Nat) : Bool := [9, 10, 11].contains code
def reservedCode (code : Nat) : Bool := decide (12 ≤ code)

/-- Drive formats (R73). -/
def fmtNrz : Nat := 0
def fmtRz : Nat := 1
def fmtR1 : Nat := 2
def fmtSbc : Nat := 3
def fmtDnrz : Nat := 4

/-- R73, R74: the levels that a code and format ask for, with their edge times from the vector start. -/
def wanted (code fmt t1 t2 : Nat) (lane : Lane) (last : Bool) : List (Nat × Lane) :=
  match driveData code last with
  | some d =>
    if fmt = fmtRz then (t1, laneOf d) :: (if d then [(t2, .low)] else [])
    else if fmt = fmtR1 then (t1, laneOf d) :: (if d then [] else [(t2, .high)])
    else if fmt = fmtSbc then [(0, laneOf !d), (t1, laneOf d), (t2, laneOf !d)]
    else if fmt = fmtDnrz then (if lane = .mid then [(t1, laneOf d)] else [(if d then t1 else t2, laneOf d)])
    else [(t1, laneOf d)]
  | none => if code = 6 then [] else [(t1, .mid)]

/-- The transitions among the wanted levels: a level already held needs none. -/
def transitions (lane : Lane) : List (Nat × Lane) → List (Nat × Lane)
  | [] => []
  | (t, l) :: rest => if l = lane then transitions lane rest else (t, l) :: transitions l rest

/-- R75: emission ticks, the first placed 1,024 ticks after the last transition when it would come closer, modulo 2^66
(R34). -/
def emission (base : Int) (lastEdge : Option Tick) (l : List (Nat × Lane)) : List (Tick × Lane) × Bool :=
  match l with
  | [] => ([], false)
  | (t, x) :: rest =>
    let at_ : Tick := BitVec.ofInt 66 (base + t)
    let tail := rest.map fun e => (BitVec.ofInt 66 (base + e.1), e.2)
    match lastEdge with
    | some p =>
      if tickReached at_ (p + 1024) then ((at_, x) :: tail, false) else ((p + 1024, x) :: tail, true)
    | none => ((at_, x) :: tail, false)

/-- R441, R442: the number that the ball of channel n has with MIRROR = 0: the factory data in the NVS is stored by physical
die and ball. -/
def State.physChan (s : State) (n : Nat) : Nat :=
  if s.sys.mirror then [0, 3, 2, 1].getD (n / 128) 0 * 128 + n % 128 / 32 * 32 + (31 - n % 32) else n

/-- R441: row and column of channel n with MIRROR = 0. -/
def chanBall (n : Nat) : Nat × Nat :=
  let i := n % 32
  let j := n % 128 / 32
  match n / 128 with
  | 0 => (2 * j + 1, 11 + i)
  | 1 => (11 + i, 52 - 2 * j)
  | 2 => (52 - 2 * j, 42 - i)
  | _ => (42 - i, 2 * j + 1)

/-- R442: the ball at which channel n is, by the MIRROR level last sampled. -/
def State.ball (s : State) (n : Nat) : Nat × Nat := if s.sys.mirror then ((chanBall n).1, 53 - (chanBall n).2) else chanBall n

/-- R80: total drive and compare deskew of a channel. -/
def State.deskewDrive (s : State) (g p : Nat) : Nat := s.get (TG_DSKI_DD_INT g p) + s.get (TG_DSKB_BOARD g p)
def State.deskewCompare (s : State) (g p : Nat) : Nat := s.get (TG_DSKI_DC_INT g p) + s.get (TG_DSKB_BOARD g p)

/-- R67: the timing set a vector runs with. -/
def State.tsInUse (s : State) (g ts : Nat) : Nat := if s.bit (TG_TS_USE_USE g) ts then ts else 0

/-- R68: the period a timing set gives now. -/
def State.tsPeriod (s : State) (g ts : Nat) : Nat := s.get (TG_TS_PER_PER g (s.tsInUse g ts))

/-- R71: what a channel takes from the timing registers for a vector of timing set ts. -/
def State.chanForm (s : State) (g ts : Nat) (word : Native) (p : Nat) : ChanForm :=
  { code := pinCode word p, fmt := s.get (TG_T1_FMT g ts p), t1 := s.get (TG_T1_T1 g ts p), t2 := s.get (TG_T2_T2 g ts p),
    t3 := s.get (TG_T3_T3 g ts p), t4 := s.get (TG_T4_T4 g ts p), dd := s.deskewDrive g p, dc := s.deskewCompare g p }

def ChanForm.none : ChanForm := { code := 5, fmt := 0, t1 := 0, t2 := 0, t3 := 0, t4 := 0, dd := 0, dc := 0 }

/-- The form of position p in a list by position. -/
def formOf (l : List ChanForm) (p : Nat) : ChanForm := l.getD p .none

/-- One channel's part of a vector that begins at generator tick B (R65, R73 to R75, R81). The Bool: a transition was moved. -/
def Chan.form (c : Chan) (b : Tick) (f : ChanForm) : Chan × Bool :=
  let l := transitions c.lane (wanted f.code f.fmt f.t1 f.t2 c.lane c.lastData)
  let (edges, crowd) := emission ((b.toNat : Int) + zOffset - f.dd) c.lastEdge l
  ({ c with
    lane := (edges.getLast?.map (·.2)).getD c.lane
    lastEdge := (edges.getLast?.map (fun e => some e.1)).getD c.lastEdge
    lastData := (driveData f.code c.lastData).getD c.lastData
    edges := edges
    sent := ((edges.map fun e => (e.1 + BitVec.ofNat 66 f.dd, e.2)).reverse ++ c.sent).take 128 }, crowd)

/-- R75: the channel's transitions of the vector, a moved one counted. -/
def State.formChannel (s : State) (g p : Nat) (b : Tick) (f : ChanForm) : State :=
  let r := (s.chan g p).form b f
  let s := s.setChan g p r.1
  if r.2 then s.flag (TG_FLAGS_CROWD g) (TG_CNT1_CROWD g) else s

/-- R105: from TIME t on the channel is as though its driver had been off at the end of the vector before: the vectors
that reach the reference plane from there on form its transitions anew. -/
def State.reform (s : State) (g p : Nat) (t : Time) : State :=
  let vs := ((s.group g).begun.filter fun v => reached (tclkOf (v.b + BitVec.ofNat 66 zOffset)) t).reverse
  let c := s.chan g p
  let data := match vs with
    | v :: _ => v.data.getD p false
    | [] => c.lastData
  s.setChan g p (vs.foldl (fun c v => (c.form v.b (formOf v.forms p)).1)
    { c with lane := .mid, lastEdge := none, lastData := data, edges := [], sent := [] })

/-- The level of a channel's lane at the reference plane now (R11, R81). -/
def State.pinLane (s : State) (g p : Nat) : Lane :=
  (((s.chan g p).sent.find? fun e => tickReached (tickOf s.time + 1023) e.1).map (·.2)).getD .mid

/-- R65, R67, R68, R71: the vector of `i` begins at B in group g's generator with the values now live. -/
def State.formVector (s : State) (g : Nat) (i : Issued) (b : Tick) : State :=
  let ts := s.tsInUse g i.ts
  let period := s.tsPeriod g i.ts
  let s := if ts = i.ts then s else s.flag (TG_FLAGS_TS_UNUSED g) (TG_CNT0_TS_UNUSED g)
  let s := if (List.range 16).any fun p => reservedCode (pinCode i.word p) then
      s.flag (TG_FLAGS_RSVD_CODE g) (TG_CNT0_RSVD_CODE g) else s
  let v : VecRun :=
    { b := b, period := period, word := i.word, ts := ts, ctx := i.ctx
      forms := (List.range 16).map (s.chanForm g ts i.word)
      data := (List.range 16).map fun p => (s.chan g p).lastData }
  let s := s.setGroup g { s.group g with
    begun := (v :: (s.group g).begun).take 64
    nextB := b + BitVec.ofNat 66 period }
  s.forEach (List.range 16) fun s p => s.formChannel g p b (formOf v.forms p)

/-! ### CAL_EXT (R89) -/

/-- R89: one edge of mode IN: the mean of the offsets measured since MODE became IN. -/
def State.calEdge (s : State) (ofs : Int) : State :=
  let s := { s with sys := { s.sys with calExt := true, calLast := s.time, calN := s.sys.calN + 1, calSum := s.sys.calSum + ofs } }
  let r := s.quotient s.sys.calSum s.sys.calN
  (r.1.setInt (TG_CAL_MEAS_OFS 0) r.2).incr (TG_CAL_MEAS_CNT 0)

/-- CAL_EXT_EDGE (R89): in mode IN an edge drives the tree; `ofs` is the offset measured with it, in 1/16 tick. -/
def execCalExtEdge (ofs : BitVec 24) (s : State) : Host.Outcome State Fault Refusal :=
  doneIf (s.get (TG_CAL_CTL_MODE 0) == 1) s (s.calEdge ofs.toInt)

/-- CAL_EXT_TIMEOUT (R89): 1 ms without an edge. -/
def execCalExtTimeout (s : State) : Host.Outcome State Fault Refusal :=
  doneIf (s.sys.calExt && decide (usTclk 1000 ≤ s.since s.sys.calLast)) s
    { s with sys := { s.sys with calExt := false } }

/-- R89: a write of TG_CAL_CTL. A target already passed emits at the next TCLK. A write without ARM leaves an armed edge
armed while MODE is OUT, and cancels it in another mode (log entry 140). -/
def State.writeCal (s : State) (v : Word) : State :=
  let mode := fieldOf v 1 0
  let fresh := mode == 1 && s.get (TG_CAL_CTL_MODE 0) != 1
  let s := ((s.set (TG_CAL_CTL_FINE 0) (fieldOf v 25 16)).set (TG_CAL_CTL_RPT 0) (fieldOf v 7 4)).set (TG_CAL_CTL_MODE 0) mode
  let t := s.getTime (TG_CAL_TLO_T_LO 0) (TG_CAL_THI_T_HI 0)
  let next := if mode ≠ 2 then none
    else if fieldOf v 3 3 = 1 then
      some (tickOf (if reached s.time t then later s.time 1 else t) + BitVec.ofNat 66 (fieldOf v 25 16))
    else s.sys.calNext
  { s with sys := { s.sys with calNext := next, calExt := s.sys.calExt && mode == 1
                               calN := if fresh then 0 else s.sys.calN, calSum := if fresh then 0 else s.sys.calSum } }

/-- CAL_ARM (R89). -/
def execCalArm (v : Word) (s : State) : Host.Outcome State Fault Refusal := hostDone s (s.writeCal v)

/-- CAL_OUT_EDGE (R89): the armed edge, repeated every 2^(8 + RPT) TCLK when RPT is not 0. -/
def execCalOutEdge (s : State) : Host.Outcome State Fault Refusal :=
  done s (match s.sys.calNext with
    | some t =>
      if reached s.time (tclkOf t) then
        let r := s.get (TG_CAL_CTL_RPT 0)
        { s.emit (.calExt t) with sys := { s.sys with
            calNext := if r = 0 then none else some (t + BitVec.ofNat 66 (1024 * 2 ^ (8 + r))) } }
      else s
    | none => s)

end Sys2Proof.Machine
end

