-- ==== Sys2Proof/Machine/Park.lean ====
section
/-! DEFINITION. Chapters 04 and 05: pin states, the causes of PARK, the window monitor and the trip network. -/

namespace Sys2Proof.Machine

/-- CLR_N is low for the die of a group. -/
def State.clrLow (s : State) (g : Nat) : Bool := !vget s.sys.clrN (g / 8) true

/-- Pin states (R103). -/
inductive PinState where
  | park | off | on | pmu
  deriving DecidableEq, Repr

/-- The trip groups latched on a die. -/
def State.latched (s : State) (k : Nat) : List Nat := (List.range 16).filter fun t => (vget s.sys.trip (16 * k + t) none).isSome

/-- R106, R136: a latched trip group parks the channels that name it as target. -/
def State.tripParked (s : State) (g p : Nat) : Bool :=
  (s.latched (g / 8)).any fun t => (s.dieGet (CP_TRIP_TARGET g p)).testBit t

/-- R426: a core-die trip parks every group, a channel-die trip its own. -/
def State.thermalParked (s : State) (g : Nat) : Bool :=
  s.bit TH_STAT_TRIP 0 || s.bit TH_STAT_TRIP (g / 8 + 1)

/-- R106, R373: some cause of PARK holds for a channel. -/
def State.parkCause (s : State) (g p : Nat) : Bool :=
  let x := s.group g
  x.preCommit || !s.on GL_PIN_ENABLE_EN || !s.sys.parkN || s.tripParked g p || s.bit (LS_PARK_PARK g) p
    || s.bit (LS_PARKSTAT_RANGE g) p || x.ochrePark || s.thermalParked g || s.inMchk g
    || (match x.dsk with
        | some d => !d.driving
        | none => false)
    || (match x.tdr with
        | some r => r.ch != p
        | none => false)
    || s.twinPark

def State.parked (s : State) (g p : Nat) : Bool := s.bit (LS_PARKSTAT_PARKED g) p

/-- R85, R87: the level set that internal deskew's drive-path phase, or TDR of this channel, takes for DAC d. -/
def State.testSet (s : State) (g p d : Nat) : Option Nat :=
  match (s.group g).tdr with
  | some r => if r.ch = p ∧ d < 4 then some r.ls else none
  | none => match (s.group g).dsk with
    | some k => if k.driving ∧ d < 2 then some k.ls else none
    | none => none

/-- R85, R87: the level that the driver of the channel is at in the drive-path phase, whose edges alternate every 1 µs
(the first to DH: log entry 141), or in TDR, whose step lasts 0.5 µs of each 1 µs. -/
def State.testLane (s : State) (g p : Nat) : Option Lane :=
  match (s.group g).tdr with
  | some r => if r.ch = p then some (laneOf (decide (s.since r.start % usTclk 1 < 800) != r.pol)) else none
  | none => match (s.group g).dsk with
    | some k => if k.driving then some (laneOf (min (s.since k.driveAt / usTclk 1) 8191 % 2 == 0)) else none
    | none => none

/-- R103, R374: the state of a pin. -/
def State.pinState (s : State) (g p : Nat) : PinState :=
  if s.parked g p then .park
  else if (s.testLane g p).isSome then .on
  else if (s.group g).shadowHold then .off
  else if s.dieGet (LS_PMU_MODE g p) != 0 then .pmu
  else if s.pinLane g p = .mid then .off else .on

/-- What a channel presents in state OFF (R104). -/
inductive OffLoad where
  | nothing | term | clamp
  deriving DecidableEq, Repr

/-- R104, R374, R381: TERM, which a channel held as on a SHADOW connects only once a takeover says so. -/
def State.offLoad (s : State) (g p : Nat) : OffLoad :=
  if (s.group g).shadowHold && !(s.group g).termOnly then .nothing
  else match s.dieGet (LS_DRV_TERM g p) with
    | 1 => .term
    | 2 => .clamp
    | _ => .nothing

/-- The ADC that serves a channel (R115). -/
def adcOf (p : Nat) : Nat := p / 8

/-- A measurement of the channel runs. -/
def State.measuring (s : State) (g p : Nat) : Bool :=
  match vget (s.group g).adcBusy (adcOf p) none with
  | some (q, _) => q == p
  | none => false

/-- A channel enters PARK when a cause begins, and notes the end of the last one (R106, R107). -/
def State.parkUpdate (s : State) (g p : Nat) : State :=
  let c := s.chan g p
  if s.parkCause g p then
    let c := { c with parkEnd := none, measAbort := c.measAbort || s.measuring g p }
    if s.parked g p then s.setChan g p c
    else (s.setChan g p { c with parkLog := ((s.time, true) :: c.parkLog).take 8 }).setBit (LS_PARKSTAT_PARKED g) p true
  else if s.parked g p && c.parkEnd.isNone then s.setChan g p { c with parkEnd := some s.time }
  else s

def State.parkGroup (s : State) (g : Nat) : State := s.forEach (List.range 16) fun s p => s.parkUpdate g p
def State.parkAll (s : State) : State := s.forEach (List.range 32) State.parkGroup

/-- R374, R381: every channel is held OFF as on a SHADOW, or follows its lane. -/
def State.holdAll (s : State) (on : Bool) : State :=
  s.forEach (List.range 32) fun s g => s.setGroup g { s.group g with shadowHold := on, termOnly := false }

/-- R373: a member takes a role in which the twin cause of PARK holds. -/
def State.twinStop (s : State) (role : Nat) : State :=
  (({ s with tw := { s.tw with takeD := none, swapAt := none, attachAt := none } }.set TW_STAT_ROLE role).parkAll).holdAll false

/-! ### Comparator state (R123, R125) -/

def modeSampled : Nat := 1
def modeOff : Nat := 2

def State.cmpMode (s : State) (g p : Nat) : Nat := s.dieGet (CP_CMP_MODE g p)

def State.setCmp (s : State) (g p : Nat) (x : Comparator) : State := s.setChan g p { s.chan g p with cmp := x }

/-- R123: the comparator state. -/
def Comparator.state (c : Comparator) : Lane := if c.hiOn then .high else if c.loOn then .low else .mid

def Lane.code : Lane → Nat
  | .low => 0 | .mid => 1 | .high => 2

/-! ### Window monitor and trip groups (R133 to R139) -/

def State.cmpValid (s : State) (g p : Nat) : Bool := s.bit (CP_STATUS_VALID g) p

/-- R134: the monitor is blanked. -/
def State.blanked (s : State) (g p : Nat) : Bool :=
  match (s.chan g p).cmp.thrChange with
  | some t => decide (s.since t < usTclk (s.dieGet (CP_WIN_BLANK g p)))
  | none => false

/-- R133: the monitored state. -/
def State.monitored (s : State) (g p : Nat) : Lane :=
  let c := (s.chan g p).cmp
  if s.cmpMode g p = modeSampled ∨ s.dieGet (CP_WIN_TSRC g p) = 1 then c.filt else c.state

/-- R133, R125, R143: the channel asserts a violation. -/
def State.violates (s : State) (g p : Nat) : Bool :=
  s.cmpValid g p && s.cmpMode g p != modeOff && !(s.chan g p).cmp.selfCheck && !s.blanked g p
    && (s.dieGet (CP_WIN_VIOL g p)).testBit (s.monitored g p).code

/-- The channels of a die that are sources of trip group t, as group and position, by rising channel number. -/
def State.sources (s : State) (k t : Nat) : List (Nat × Nat) :=
  ((List.range 128).map fun c => (8 * k + c / 16, c % 16)).filter fun x => (s.dieGet (CP_TRIP_SOURCE x.1 x.2)).testBit t

/-- A source of trip group t that violates now: its channel number on the die. -/
def State.violSource (s : State) (k t : Nat) : Option Nat :=
  ((s.sources k t).find? fun x => s.violates x.1 x.2).map fun x => (x.1 % 8) * 16 + x.2

def State.setTrip (s : State) (n : Nat) (x : Option (Nat × Bool)) : State :=
  { s with sys := { s.sys with trip := vset s.sys.trip n x } }

def State.parkDie (s : State) (k : Nat) : State := s.forEach (List.range 8) fun s i => s.parkGroup (8 * k + i)

/-- R136: enabled trip groups of a die that are not latched latch while a source violates; CP_TGSTAT.VIOL follows. -/
def State.tripNetwork (s : State) (k : Nat) : State :=
  let s := s.forEach (List.range 16) fun s t =>
    let v := s.violSource k t
    let s := s.setBit (CP_TGSTAT_VIOL (8 * k)) t v.isSome
    match v with
    | some src =>
      if (s.dieGet (CP_TGEN_EN (8 * k))).testBit t && (vget s.sys.trip (16 * k + t) none).isNone then
        s.setTrip (16 * k + t) (some (src, false))
      else s
    | none => s
  s.parkDie k

/-- The violation of a channel follows its conditions. -/
def State.violUpdate (s : State) (g p : Nat) : State :=
  let v := s.violates g p
  if s.bit (CP_STATUS_VIOL g) p = v then s else (s.setBit (CP_STATUS_VIOL g) p v).tripNetwork (g / 8)

end Sys2Proof.Machine
end

