-- ==== Sys2Proof/Machine/Levels.lean ====
section
/-! DEFINITION. Chapter 04: DAC targets and outputs, PARK, range changes, the per-pin measurement unit. -/

namespace Sys2Proof.Machine

/-! ### DACs (R92 to R100) -/

/-- The code register of DAC d in level set l (R92). -/
def levelCode (g p l : Nat) (d : Nat) : Fld :=
  match d with
  | 0 => LS_DH_CODE g p l | 1 => LS_DL_CODE g p l | 2 => LS_TH_CODE g p l | 3 => LS_TL_CODE g p l
  | 4 => LS_VT_CODE g p l | _ => LS_PF_CODE g p l

def State.dac (s : State) (g p d : Nat) : Dac := vget (s.chan g p).dacs d .reset

def State.setDac (s : State) (g p d : Nat) (x : Dac) : State :=
  let c := s.chan g p
  s.setChan g p { c with dacs := vset c.dacs d x }

def State.outCode (s : State) (g p d : Nat) : Nat := s.get (LS_OUT_CODE g p d)

/-- R96, R100, R108: the target code. Before the first commit the clear codes taken at the reset stay; internal deskew and
TDR take codes of their own level set (R85, R87). -/
def State.targetCode (s : State) (g p d : Nat) : Nat :=
  if s.clrLow g then s.get (LS_CLR_CODE g p d)
  else if (s.group g).preCommit then (s.dac g p d).boot.toNat
  else match s.testSet g p d with
  | some l => s.dieGet (levelCode g p l d)
  | none => match (s.group g).wpOwn.find? fun o => o.1 == p && o.2.1 == d with
    | some o => o.2.2.toNat
    | none => s.dieGet (levelCode g p (s.get (LS_SELSTAT_SEL g)) d)

/-- The output code of a DAC changes: what depends on when it last did (R107), and the blanking of the window monitor,
which a change of TH or TL begins (R134). -/
def State.setOut (s : State) (g p d code : Nat) : State :=
  if s.outCode g p d = code then s
  else
    let s := s.set (LS_OUT_CODE g p d) code
    let c := s.chan g p
    let c := if d = 0 ∨ d = 1 ∨ d = 4 then { c with lastOut := some s.time } else c
    let s := s.setChan g p c
    if d = 2 ∨ d = 3 then (s.setCmp g p { c.cmp with thrChange := some s.time }).violUpdate g p else s

def State.slewOn (s : State) (g p d : Nat) : Bool := (s.dieGet (LS_SLEWEN_EN g p)).testBit d

/-- R97, R98: the output sets out toward the target in force. -/
def State.follow (s : State) (g p d : Nat) : State :=
  let t := s.targetCode g p d
  let x := s.dac g p d
  let out := s.outCode g p d
  if s.slewOn g p d then
    s.setDac g p d { x with tgt := BitVec.ofNat 16 t, slew := if out = t then none else some (nthDieTick s.time 1), hold := none }
  else
    let y : Dac := { x with tgt := BitVec.ofNat 16 t, slew := none }
    match x.hold with
    | some _ => s.setDac g p d y
    | none =>
      if out / 4096 = t / 4096 then (s.setDac g p d y).setOut g p d t
      else s.setDac g p d { y with hold := some s.time }

/-- The target may have changed: when it has, the output follows it. -/
def State.retarget (s : State) (g p d : Nat) : State :=
  if s.targetCode g p d = (s.dac g p d).tgt.toNat then s else s.follow g p d

/-- Every DAC of a channel, and of a group. -/
def State.retargetChan (s : State) (g p : Nat) : State := s.forEach (List.range 6) fun s d => s.retarget g p d
def State.retargetGroup (s : State) (g : Nat) : State := s.forEach (List.range 16) fun s p => s.retargetChan g p

/-- R97: one step of the slew limiter at its tick. -/
def State.slew (s : State) (g p d : Nat) (at_ : Time) : State :=
  let t := (s.dac g p d).tgt.toNat
  let out := s.outCode g p d
  let step := s.dieGet (LS_SLEW_STEP g p)
  let out' := if out < t then out + min step (t - out) else out - min step (out - t)
  let s := s.setOut g p d out'
  s.setDac g p d { s.dac g p d with
    slew := if out' = t then none else some (nthDieTick at_ (s.dieGet (LS_SLEW_RATE g p))) }

/-- SLEW_STEP (R97, R461). -/
def execSlewStep (g : GroupIx) (p : Pos) (d : Fin 6) (s : State) : Host.Outcome State Fault Refusal :=
  done s (match (s.dac g p d).slew with
    | some t => if reached s.time t then s.slew g p d t else s
    | none => s)

/-- The deglitch hold, which R121 puts at 190 ns to 210 ns: its least length in TCLK. -/
def holdTclk : Nat := 304

/-- DEGLITCH_HOLD_END (R98): the output takes the target then in force. -/
def execDeglitchHoldEnd (g : GroupIx) (p : Pos) (d : Fin 6) (s : State) : Host.Outcome State Fault Refusal :=
  done s (match (s.dac g p d).hold with
    | some t =>
      if holdTclk ≤ s.since t then
        (s.setDac g p d { s.dac g p d with hold := none }).setOut g p d (s.targetCode g p d)
      else s
    | none => s)

/-! ### PARK (R103 to R109) -/

/-- R462: TIME t lies within a vector period of the group. -/
def State.issuingAt (s : State) (g : Nat) (t : Time) : Bool :=
  (s.group g).begun.any fun v => reached t (tclkOf v.b) && !reached t (tclkOf (v.b + BitVec.ofNat 66 v.period))

/-- R107: the point from which the channel may leave PARK: the last cause has ended, DH, DL and VT stand at their
targets, and 3 µs have passed since the last of them changed. -/
def State.exitPoint (s : State) (g p : Nat) : Option Time :=
  if s.parked g p && !s.parkCause g p && [0, 1, 4].all fun d => s.outCode g p d == s.targetCode g p d then
    match (s.chan g p).parkEnd with
    | some e =>
      match (s.chan g p).lastOut with
      | some o => let o := later o (usTclk 3); some (if reached e o then e else o)
      | none => some e
    | none => none
  else none

/-- R107, R463: the TIME at which the channel leaves PARK, once it has come: the first B + Z at or after its point, or at
once where its engine was not issuing vectors at that point. -/
def State.exitAt (s : State) (g p : Nat) : Option Time :=
  match s.exitPoint g p with
  | some r =>
    let t := if s.issuingAt g r then
        ((s.group g).begun.reverse.map fun v => tclkOf (v.b + BitVec.ofNat 66 zOffset)).find? fun t => reached t r
      else some r
    match t with
    | some t => if reached s.time t then some (if s.issuingAt g r then t else s.time) else none
    | none => none
  | none => none

def State.mayExit (s : State) (g p : Nat) : Bool := (s.exitAt g p).isSome

/-- R463: the channel was in PARK at TIME t. -/
def State.parkedAtTime (s : State) (g p : Nat) (t : Time) : Bool :=
  let l := (s.chan g p).parkLog
  match l.find? fun x => reached t x.1 with
  | some x => x.2
  | none => match l.getLast? with
    | some x => !x.2
    | none => s.parked g p

/-- R105: the channel leaves PARK at TIME t, as though its driver had been off at the end of the vector before. -/
def State.leavePark (s : State) (g p : Nat) (t : Time) : State :=
  let s := s.setBit (LS_PARKSTAT_PARKED g) p false
  let c := s.chan g p
  (s.setChan g p { c with parkEnd := none, parkLog := ((t, false) :: c.parkLog).take 8 }).reform g p t

/-- PARK_EXIT (R107, R105). -/
def execParkExit (g : GroupIx) (p : Pos) (s : State) : Host.Outcome State Fault Refusal :=
  done s (match s.exitAt g p with
    | some t => s.leavePark g p t
    | none => s)

/-- R106, R108: a write of GL_PIN_ENABLE; a 1 before the first commit is held. -/
def State.writePinEnable (s : State) (v : Word) : State :=
  let en := fieldOf v 0 0
  ((s.set GL_PIN_ENABLE_HELD (if en = 1 ∧ !s.sys.committed then 1 else 0)).set GL_PIN_ENABLE_EN en).parkAll

/-- PIN_ENABLE_WRITE (R106, R108). -/
def execPinEnableWrite (v : Word) (s : State) : Host.Outcome State Fault Refusal := done s (s.writePinEnable v)

/-- R106: a write of LS_PARK. -/
def State.writeLsPark (s : State) (g : Nat) (v : Word) : State := (s.set (LS_PARK_PARK g) (fieldOf v 15 0)).parkGroup g

/-- R100: a write of LS_CLR_p_d. -/
def State.writeClr (s : State) (g p d : Nat) (v : Word) : State :=
  ((s.set (LS_CLR_CODE g p d) (fieldOf v 15 0)).retarget g p d).dgStale

/-- LS_PARK_WRITE (R106): a live host write. -/
def execLsParkWrite (g : GroupIx) (v : Word) (s : State) : Host.Outcome State Fault Refusal :=
  done s (s.mirrored (LS_PARK g).addr v fun s => s.writeLsPark g v)

/-- CLEAR_CODE_WRITE (R100). -/
def execClearCodeWrite (g : GroupIx) (p : Pos) (d : Fin 6) (v : Word) (s : State) : Host.Outcome State Fault Refusal :=
  done s (s.mirrored (LS_CLR g p d).addr v fun s => s.writeClr g p d v)

/-! ### Selects and commits at the die (R94, R95, R109) -/

/-- 40 ns in TCLK (R12). -/
def dieDelay : Nat := 64

/-- R109: the bits of LS_DRV and LS_PMU whose change is a range change. -/
def rangeBits (drv pmu : Word) : Nat × Nat × Nat := (fieldOf drv 2 2, fieldOf pmu 1 0, fieldOf pmu 4 2)

/-- R109: the committed LS_DRV and LS_PMU words of a channel reach the die, `oldDrv` and `oldPmu` being the words
there before. TERM acts at once; the other fields that differ begin a range change, or restart one. -/
def State.rangeArrives (s : State) (g p : Nat) (drv pmu oldDrv oldPmu : Word) : State :=
  let c := s.chan g p
  let last := match c.rangePend with
    | some (_, d, m) => rangeBits d m
    | none => rangeBits oldDrv oldPmu
  let keep := withField drv 2 2 (fieldOf oldDrv 2 2)
  let s := { s with die := (s.die.setWord (LS_DRV g p) keep).setWord (LS_PMU g p) oldPmu }
  if rangeBits drv pmu = last then s.setChan g p { c with rangePend := c.rangePend.map fun x => (x.1, drv, pmu) }
  else ((s.setChan g p { c with rangePend := some (s.time, drv, pmu) }).setBit (LS_PARKSTAT_RANGE g) p true).parkUpdate g p

/-- The LS registers of a group in a plane. -/
def lsRange (g : Nat) : Nat × Nat := (groupBase g + 0x4000, groupBase g + 0x6000)

/-- R95: the LS registers of group g as committed act at the die. -/
def State.lsLoad (s : State) (g : Nat) (regs : RegFile) : State :=
  let old := s.die
  let s := { s with die := s.die.copyRange regs (lsRange g).1 (lsRange g).2 }
  s.forEach (List.range 16) fun s p =>
    s.rangeArrives g p (regs.word (LS_DRV g p)) (regs.word (LS_PMU g p)) (old.word (LS_DRV g p)) (old.word (LS_PMU g p))

/-- R95: the select change and the commits that reach the die of group g at TIME t act together: each DAC's target is
then the one that all of them give. -/
def State.dieArrives (s : State) (g : Nat) (t : Time) : State :=
  let x := s.group g
  let sel := x.lselPend.head?.filter fun c => c.2 == t
  let coms := x.lsPend.takeWhile fun c => c.1 == some t
  let slew := (List.range 16).map fun p => s.dieGet (LS_SLEWEN_EN g p)
  let s := s.setGroup g { x with lselPend := if sel.isSome then x.lselPend.tail else x.lselPend
                                 lsPend := x.lsPend.drop coms.length }
  let s := match sel with
    | some c => s.set (LS_SELSTAT_SEL g) c.1
    | none => s
  let s := coms.foldl (fun s c => s.lsLoad g c.2) s
  s.forEach (List.range 16) fun s p => s.forEach (List.range 6) fun s d =>
    if (slew.getD p 0).testBit d = s.slewOn g p d then s.retarget g p d else s.follow g p d

/-- LEVEL_SELECT_CHANGE (R94, R95): the select reaches the die and the targets follow. -/
def execLevelSelectChange (g : GroupIx) (s : State) : Host.Outcome State Fault Refusal :=
  done s (match (s.group g).lselPend with
    | (_, t) :: _ => if reached s.time t then s.dieArrives g t else s
    | [] => s)

/-- LS_COMMIT_EFFECT (R95): the oldest commit on its way. -/
def execLsCommitEffect (g : GroupIx) (s : State) : Host.Outcome State Fault Refusal :=
  done s (match (s.group g).lsPend with
    | (some t, _) :: _ => if reached s.time t then s.dieArrives g t else s
    | _ => s)

/-- RANGE_CHANGE_END (R109, R120): 2 µs after the last range change. -/
def execRangeChangeEnd (g : GroupIx) (p : Pos) (s : State) : Host.Outcome State Fault Refusal :=
  done s (match (s.chan g p).rangePend with
    | some (t, drv, pmu) =>
      if usTclk 2 ≤ s.since t then
        let s := { s with die := (s.die.setWord (LS_DRV g p) drv).setWord (LS_PMU g p) pmu }
        let s := s.setChan g p { s.chan g p with rangePend := none, measSum := .empty }
        (s.setBit (LS_PARKSTAT_RANGE g) p false).parkUpdate g p
      else s
    | none => s)

/-- RAIL_MEASURE (R102): in units of 10 mV, VDRN signed. -/
def execRailMeasure (k : DieIx) (vdrp vdrn : BitVec 16) (s : State) : Host.Outcome State Fault Refusal :=
  let g := 8 * k.val
  let s1 := (s.set (LS_RAILMEAS_VDRP g) vdrp.toNat).set (LS_RAILMEAS_VDRN g) vdrn.toNat
  let off := fun (m d : Int) => decide (d.natAbs < 20 * (m - d).natAbs)
  let declP : Int := (BitVec.ofNat 16 (s.dieGet (LS_RAIL_VDRP g))).toInt
  let declN : Int := (BitVec.ofNat 16 (s.dieGet (LS_RAIL_VDRN g))).toInt
  done s (if off vdrp.toInt declP || off vdrn.toInt declN then s1.flag (LS_FLAGS_RAIL g) (LS_CNT2_RAIL g) else s1)

/-- R110, R104: the driver drives, or in state OFF terminates or clamps. -/
def State.driverWorks (s : State) (g p : Nat) : Bool :=
  s.pinState g p == .on || (s.pinState g p == .off && s.offLoad g p != .nothing)

/-- ILIM_EPISODE (R110): a driver that drives, terminates or clamps has stood at its limit for 100 ns. -/
def execIlimEpisode (g : GroupIx) (p : Pos) (s : State) : Host.Outcome State Fault Refusal :=
  doneIf (s.driverWorks g p) s
    ((s.raiseBit (LS_ILIMMAP_MAP g) p).flag (LS_FLAGS_ILIM g) (LS_CNT0_ILIM g))

/-! ### Measurement (R115 to R120) -/

def statOk : Nat := 0
def statCompl : Nat := 1
def statOvr : Nat := 2
def statAbort : Nat := 3

/-- R118: a result replaces LS_MRES_p and is folded unless aborted. -/
def State.measResult (s : State) (g p : Nat) (value : Int) (stat : Nat) : State :=
  let s := (s.setInt (LS_MRES_VALUE g p) value).set (LS_MRES_STAT g p) stat
  let s := s.incr (LS_MRES_SEQ g p)
  let s := if stat = statAbort then s.flag (LS_FLAGS_ABORT g) (LS_CNT1_ABORT g)
    else if stat = statOvr then s.flag (LS_FLAGS_OVR g) (LS_CNT1_OVR g)
    else if stat = statCompl then s.flag (LS_FLAGS_COMPL g) (LS_CNT0_COMPL g) else s
  if stat = statAbort then s
  else
    let c := s.chan g p
    let m := c.measSum
    s.setChan g p { c with measSum := {
      min := if m.count = 0 then value else min m.min value
      max := if m.count = 0 then value else max m.max value
      count := min (m.count + 1) 1023
      anyCompl := m.anyCompl || stat == statCompl
      anyOvr := m.anyOvr || stat == statOvr } }

/-- R116: a request of a channel. -/
def State.measRequest (s : State) (g p : Nat) : State :=
  if s.dieGet (LS_PMU_MODE g p) = 0 then s.measResult g p 0 statAbort
  else if (s.chan g p).measPend || s.measuring g p then s.flag (LS_FLAGS_MERGE g) (LS_CNT2_MERGE g)
  else s.setChan g p { s.chan g p with measPend := true }

/-- Requests for the positions of a mask. -/
def State.measMask (s : State) (g mask : Nat) : State :=
  s.forEach (bitsOf mask 16) fun s p => s.measRequest g p

/-- MEAS_REQUEST_WRITE (R116): a live host write. -/
def execMeasRequestWrite (g : GroupIx) (v : Word) (s : State) : Host.Outcome State Fault Refusal :=
  done s (s.mirrored (LS_MREQ g).addr v fun s => s.measMask g (fieldOf v 15 0))

/-- MEAS_AUTO_REQUEST (R116): every AUTO × 100 µs of TIME. -/
def execMeasAutoRequest (g : GroupIx) (p : Pos) (s : State) : Host.Outcome State Fault Refusal :=
  let auto := s.dieGet (LS_MEAS_AUTO g p)
  doneIf (decide (0 < auto ∧ s.time.toNat % (auto * usTclk 100) = 0)) s (s.measRequest g p)

/-- R117: the next pending position of ADC j, after the one it served last. -/
def State.nextMeas (s : State) (g j : Nat) : Option Nat :=
  let last := vget (s.group g).adcLast j 0
  ((List.range 8).map fun i => 8 * j + (last + 1 + i) % 8).find? fun p => (s.chan g p).measPend

/-- R117: ADC j takes a position. -/
def State.measTake (s : State) (g j p : Nat) : State :=
  let s := s.setChan g p { s.chan g p with measPend := false, measAbort := s.parked g p || (s.group g).shadowHold }
  s.setGroup g { s.group g with adcBusy := vset (s.group g).adcBusy j (some (p, s.time))
                                adcLast := vset (s.group g).adcLast j (p % 8) }

/-- MEAS_START (R117). -/
def execMeasStart (g : GroupIx) (j : Fin 2) (s : State) : Host.Outcome State Fault Refusal :=
  done s (if (vget (s.group g).adcBusy j none).isSome then s
    else match s.nextMeas g j with
      | some p => s.measTake g j p
      | none => s)

/-- R117: the mean rounded to nearest, ties away from zero. -/
def roundedMean (sum : Int) (n : Nat) : Int :=
  let q := (2 * sum.natAbs + n) / (2 * n)
  if sum < 0 then -(q : Int) else q

/-- The result of a measurement from its samples (R115, R117). -/
def measValue (samples : List (BitVec 18)) (clamped abort : Bool) : Int × Nat :=
  let sum := (samples.map BitVec.toInt).foldl (· + ·) 0
  if abort then (0, statAbort)
  else
    let v := roundedMean sum samples.length
    if samples.any fun x => x == 0x1FFFF || x == 0x20000 then (v, statOvr)
    else if clamped then (v, statCompl) else (v, statOk)

/-- MEAS_COMPLETE (R117): after SETTLE µs and 2^AVG samples, of which the PMU was at its clamp during some. -/
def execMeasComplete (g : GroupIx) (j : Fin 2) (samples : List (BitVec 18)) (clamped : Bool) (s : State) :
    Host.Outcome State Fault Refusal :=
  done s (match vget (s.group g).adcBusy j none with
    | some (p, t) =>
      let n := 2 ^ s.dieGet (LS_MEAS_AVG g p)
      if samples.length = n ∧ usTclk (s.dieGet (LS_MEAS_SETTLE g p) + n) ≤ s.since t then
        let s1 := s.setGroup g { s.group g with adcBusy := vset (s.group g).adcBusy j none }
        let r := measValue samples clamped ((s.chan g p).measAbort || s.dieGet (LS_PMU_MODE g p) == 0)
        s1.measResult g p r.1 r.2
      else s
    | none => s)

end Sys2Proof.Machine
end

