-- ==== Sys2Proof/Machine/Comparators.lean ====
section
/-! DEFINITION. Chapter 05: comparators, the majority filter, SMCLK, window monitors, trip groups, PARK_N, CLR_N
and self-check. -/

namespace Sys2Proof.Machine

/-- R125: CONT, and the value 3. -/
def State.cmpCont (s : State) (g p : Nat) : Bool := s.cmpMode g p == 0 || s.cmpMode g p == 3

/-- Voltages in units of 2^-17 mV: the output of a DAC code (R92). -/
def codeVolts (code : Nat) : Int := 18000 * (code : Int) - 262144000

/-- The programmed hysteresis h/2 in the same unit (R123). -/
def State.halfHys (s : State) (g p : Nat) : Int := 65536 * (s.dieGet (CP_CMP_HYS g p) : Int)

/-- R123: both comparators against the input. -/
def Comparator.switch (c : Comparator) (th tl h v : Int) : Comparator :=
  { c with hiOn := if th + h < v then true else if v < th - h then false else c.hiOn
           loOn := if v < tl - h then true else if tl + h < v then false else c.loOn }

/-- The comparators of a channel see an input. -/
def State.cmpSwitch (s : State) (g p : Nat) (v : Int) : State :=
  s.setCmp g p ((s.chan g p).cmp.switch (codeVolts (s.outCode g p 2)) (codeVolts (s.outCode g p 3)) (s.halfHys g p) v)

/-- CP_STATE of a channel: the filtered state, M while VALID is 0 (R128). -/
def State.showState (s : State) (g p : Nat) : State :=
  let v := if s.cmpValid g p then (s.chan g p).cmp.filt.code else 1
  s.set ⟨CP_STATE g, 2 * p + 1, 2 * p⟩ v

/-- R125, R126, R128: what the return lane carries. -/
def State.laneNow (s : State) (g p : Nat) : Lane :=
  if !s.cmpValid g p || s.cmpMode g p == modeOff then .mid
  else if s.cmpMode g p = modeSampled then (s.chan g p).cmp.filt else (s.chan g p).cmp.state

/-- The return lane follows the comparators; what changes arrives at the compare logic at a tick, in order. Only a change
of level between VALID levels is a transition (R77, R149). -/
def State.laneUpdate (s : State) (g p : Nat) (t : Tick) : State :=
  let c := (s.chan g p).cmp
  let last : LaneEntry := c.log.headD { at_ := t, lane := .mid, valid := false, check := false, edge := false }
  let l := s.laneNow g p
  let v := s.cmpValid g p
  if l = last.lane ∧ v = last.valid ∧ c.selfCheck = last.check then s
  else s.setCmp g p { c with log :=
    { at_ := if tickReached t last.at_ then t else last.at_, lane := l, valid := v, check := c.selfCheck
      edge := last.valid && v && !last.check && !c.selfCheck && l != last.lane } :: c.log }

/-- R124: a comparator re-arm, before the trip network follows. -/
def State.rearmOnly (s : State) (g p : Nat) : State :=
  let c := (s.chan g p).cmp
  let s := s.setCmp g p { c with hiOn := false, loOn := false, hist := [], filt := .mid }
  ((s.setBit (CP_STATUS_VALID g) p false).showState g p).laneUpdate g p (tickOf s.time)

/-- R124: a comparator re-arm. -/
def State.rearm (s : State) (g p : Nat) : State := (s.rearmOnly g p).violUpdate g p

def State.rearmGroup (s : State) (g : Nat) : State := s.forEach (List.range 16) fun s p => s.rearm g p

/-! ### Filter (R127, R128) -/

def countState (l : List Lane) (x : Lane) : Nat := (l.filter (· == x)).length

/-- The state that at least n samples of a history hold. -/
def agreed (l : List Lane) (n : Nat) : Option Lane := [Lane.low, .mid, .high].find? fun x => decide (n ≤ countState l x)

/-- R127, R128: one filter sample. -/
def State.filterStep (s : State) (g p : Nat) : State :=
  let c := (s.chan g p).cmp
  let hist := (c.state :: c.hist).take (s.dieGet (CP_CMP_M g p))
  let c := { c with hist := hist }
  match agreed hist (s.dieGet (CP_CMP_N g p)) with
  | some x =>
    let s := s.setCmp g p { c with filt := x }
    (((s.setBit (CP_STATUS_VALID g) p true).showState g p).laneUpdate g p (tickOf s.time)).violUpdate g p
  | none =>
    let s := s.setCmp g p c
    if hist.length = s.dieGet (CP_CMP_M g p) then s.flag (CP_FLAGS_UNDECIDED g) (CP_CNT0_UNDECIDED g) else s

/-- The tie level of a step, in units of 2^-17 mV (R141). -/
def State.tieVolts (s : State) (g p step : Nat) : Int :=
  match step with
  | 0 => codeVolts (s.outCode g p 4)
  | 1 | 4 => codeVolts (s.outCode g p 0)
  | 2 | 5 => codeVolts (s.outCode g p 1)
  | _ => 0

/-- R141: a comparator pair with both outputs inverted. -/
def Comparator.invert (c : Comparator) : Comparator := { c with hiOn := !c.hiOn, loOn := !c.loOn }

/-- R141: in self-check the comparators see the tie of the step, with their inputs swapped in steps 4 and 5. -/
def State.tieSwitch (s : State) (g p : Nat) : State :=
  match (s.group g).sc with
  | some r =>
    if (s.chan g p).cmp.selfCheck then
      let see := fun (c : Comparator) =>
        c.switch (codeVolts (s.outCode g p 2)) (codeVolts (s.outCode g p 3)) (s.halfHys g p) (s.tieVolts g p r.step)
      let c := (s.chan g p).cmp
      s.setCmp g p (if 4 ≤ r.step then (see c.invert).invert else see c)
    else s
  | none => s

/-- R85: the compare-path phase of internal deskew, in which the comparators are off the ball. -/
def State.dskCompare (s : State) (g : Nat) : Bool := match (s.group g).dsk with
  | some d => !d.driving
  | none => false

/-- R99, R125, R141, R85: the comparators of the channel are powered and not held: mode OFF powers them only for a
self-check. -/
def State.cmpLive (s : State) (g p : Nat) : Bool :=
  (s.cmpMode g p != modeOff || (s.chan g p).cmp.selfCheck) && !s.clrLow g && !s.dskCompare g

/-- The comparators are at the ball. -/
def State.cmpAtBall (s : State) (g p : Nat) : Bool := s.cmpLive g p && !(s.chan g p).cmp.selfCheck

/-- COMPARATOR_SWITCH (R123): a CONT channel's input stands at a voltage after it or a threshold has moved; what the
return lane then carries arrives at the compare logic at the tick of its arrival. -/
def execComparatorSwitch (g : GroupIx) (p : Pos) (v : PinLevel) (s : State) : Host.Outcome State Fault Refusal :=
  doneIf (s.cmpAtBall g p && s.cmpCont g p) s (((s.cmpSwitch g p v.volts).laneUpdate g p v.arrival).violUpdate g p)

/-- FILTER_SAMPLE (R127, R461): a CONT channel, or one in self-check, at a channel-die tick. -/
def execFilterSample (g : GroupIx) (p : Pos) (s : State) : Host.Outcome State Fault Refusal :=
  doneIf (s.cmpLive g p && (s.cmpCont g p || (s.chan g p).cmp.selfCheck) && dieTickOffsets.contains (s.time.toNat % 64)) s
    ((s.tieSwitch g p).filterStep g p)

/-- R126, R132: a sample tick of a SAMPLED channel. -/
def State.sampledTick (s : State) (g p : Nat) (fresh : Bool) (v : Int) : State :=
  if s.cmpMode g p = modeSampled ∧ s.cmpAtBall g p then
    let c := (s.chan g p).cmp
    let s := if fresh then s.setCmp g p { c with hist := [] } else s
    (s.cmpSwitch g p v).filterStep g p
  else s

def smRunning : Fld := CP_SM_STAT_RUNNING 0

/-- SAMPLE_TICK (R130): the group's tick, which SMCLK has reached, with the input of each channel. -/
def execSampleTick (g : GroupIx) (volts : List Int) (s : State) : Host.Outcome State Fault Refusal :=
  let fresh := s.sys.smFresh.getLsbD g
  let s1 := { s with sys := { s.sys with smFresh := BitVec.ofNat 32 (putBit s.sys.smFresh.toNat g false)
                                         smDue := BitVec.ofNat 32 (putBit s.sys.smDue.toNat g false) } }
  doneIf (s.sys.smDue.getLsbD g) s (s1.forEach (List.range 16) fun s p => s.sampledTick g p fresh (volts.getD p 0))

/-! ### SMCLK (R130, R131) -/

/-- R130: the length of an SMCLK cycle in TCLK: within 2 % of 10 MHz / PER. -/
def State.smPeriod (s : State) : State × Nat :=
  let n := 160 * s.get (CP_SM_CTL_PER 0)
  let r := s.within ((n * 100 + 101) / 102 : Nat) (n * 100 / 98 : Nat)
  (r.1, r.2.toNat)

/-- R131: cycles of a burst. -/
def State.smBurst (s : State) : Nat := 2 ^ s.get (CP_SM_CTL_BLEN 0)

/-- R131: the oscillator starts, its first cycle within 2 µs: every divider restarts and that cycle is a tick of every
group. -/
def State.smStart (s : State) : State :=
  let r := s.within 1 3200
  let s := r.1
  { s.set smRunning 1 with sys := { s.sys with
      smFresh := 0xFFFFFFFF, smNext := some (later s.time r.2.toNat), smTick := Vector.replicate 32 (s.sys.smCycle + 1)
      smLeft := if s.on (CP_SM_CTL_BURST 0) then some s.smBurst else none } }

/-- The oscillator stops. -/
def State.smStop (s : State) : State := { s.set smRunning 0 with sys := { s.sys with smNext := none, smLeft := none } }

def State.smSetLeft (s : State) (n : Option Nat) : State := { s with sys := { s.sys with smLeft := n } }

/-- R130: an SMCLK cycle begins: the groups whose tick it is, each with its next tick by DIV. -/
def State.smTurn (s : State) (t : Time) : State :=
  let n := s.sys.smCycle + 1
  let hit := fun (g : Nat) => vget s.sys.smTick g 0 == n
  let r := s.smPeriod
  let s := r.1
  { s with sys := { s.sys with
      smCycle := n
      smNext := some (later t r.2)
      smLeft := s.sys.smLeft.map (· - 1)
      smDue := s.sys.smDue ||| BitVec.ofNat 32 ((List.range 32).foldl (fun m g => if hit g then m + 2 ^ g else m) 0)
      smTick := Vector.ofFn fun g : Fin 32 => if hit g then n + 2 ^ s.get (CP_SMDIV_DIV g) else vget s.sys.smTick g 0 } }

/-- R131: what SMCLK does in this TCLK; a burst ends with its last cycle. -/
def State.smTclk (s : State) : State :=
  match s.sys.smNext with
  | some t =>
    if reached s.time t then (if s.sys.smLeft = some 0 then s.smStop else s.smTurn t) else s
  | none => s

/-- R131: a wake, acted on while RUN is 1. -/
def State.smWake (s : State) : State :=
  if !s.on (CP_SM_CTL_RUN 0) then s
  else if !s.on smRunning then s.smStart.count (CP_SM_STAT_WAKES 0) 1
  else if s.on (CP_SM_CTL_BURST 0) then (s.smSetLeft (some s.smBurst)).count (CP_SM_STAT_WAKES 0) 1
  else s

/-- R131: a write of CP_SM_CTL; WAKE acts after the other fields. -/
def State.writeSmCtl (s : State) (v : Word) : State :=
  let was := s.on (CP_SM_CTL_RUN 0)
  let wasBurst := s.on (CP_SM_CTL_BURST 0)
  let s := ((s.set (CP_SM_CTL_WSRC 0) (fieldOf v 27 24)).set (CP_SM_CTL_BLEN 0) (fieldOf v 23 20)).setClamped
    (CP_SM_CTL_PER 0) (fieldOf v 13 0) 1 10000
  let s := (s.set (CP_SM_CTL_BURST 0) (fieldOf v 19 19)).set (CP_SM_CTL_RUN 0) (fieldOf v 18 18)
  let s := if !s.on (CP_SM_CTL_RUN 0) then (if was then s.smStop.crossingEnters 5 else s.smStop)
    else if !s.on (CP_SM_CTL_BURST 0) then (if s.on smRunning then s.smSetLeft none else s.smStart)
    else if !was then s.smStop
    else if s.on smRunning && !wasBurst then s.smSetLeft (some s.smBurst) else s
  (if fieldOf v 31 31 = 1 then s.smWake else s).dgStale

/-- SM_CTL_WRITE (R131): a live host write. -/
def execSmCtlWrite (v : Word) (s : State) : Host.Outcome State Fault Refusal :=
  done s (s.mirrored (CP_SM_CTL 0).addr v fun s => s.writeSmCtl v)

/-- SM_WAKE_WRITE (R131): a write of CP_SM_CTL with WAKE = 1. -/
def execSmWakeWrite (v : Word) (s : State) : Host.Outcome State Fault Refusal :=
  doneIf (fieldOf v 31 31 == 1) s (s.mirrored (CP_SM_CTL 0).addr v fun s => s.writeSmCtl v)

/-- R131: TIME reaches the wake target. -/
def State.smTime (s : State) : State :=
  let t := s.getTime (CP_SM_WT_LO_T_LO 0) (CP_SM_WT_HI_T_HI 0)
  let per := s.get (CP_SM_WPER_WPER 0)
  if !reached s.time t || s.sys.smWtDone then s
  else
    let s := if per = 0 then { s with sys := { s.sys with smWtDone := true } }
      else s.setTime (CP_SM_WT_LO_T_LO 0) (CP_SM_WT_HI_T_HI 0) (later t (usTclk 1000 * per))
    if s.bit (CP_SM_CTL_WSRC 0) 0 then s.smWake else s

/-- SM_WAKE_TIME (R131). -/
def execSmWakeTime (s : State) : Host.Outcome State Fault Refusal := done s s.smTime

/-- SMCLK_BURST_END (R131): the burst has run its 2^BLEN cycles. -/
def execSmclkBurstEnd (s : State) : Host.Outcome State Fault Refusal :=
  doneIf (s.on smRunning && s.sys.smLeft == some 0) s s.smStop

/-- BLANK_END (R134): BLANK µs after the last change of a threshold code. -/
def execBlankEnd (g : GroupIx) (p : Pos) (s : State) : Host.Outcome State Fault Refusal :=
  doneIf (!s.blanked g p) s (s.violUpdate g p)

/-! ### Trip records and re-arm (R137, R138) -/

/-- The groups of a die that hold a target of trip group t, as an engine mask. -/
def State.targetGroups (s : State) (k t : Nat) : Nat :=
  ((List.range 8).filter fun i => (List.range 16).any fun p => (s.dieGet (CP_TRIP_TARGET (8 * k + i) p)).testBit t).foldl
    (fun m i => m ||| 1 <<< (8 * k + i)) 0

/-- The positions of group g that are targets of trip group t. -/
def State.targets (s : State) (g t : Nat) : BitVec 16 :=
  BitVec.ofNat 16 ((List.range 16).foldl (fun m p => if (s.dieGet (CP_TRIP_TARGET g p)).testBit t then m + 2 ^ p else m) 0)

/-- R182: the TRIP flag of the targets is owed to the interval whose span holds this TCLK. -/
def State.tripSpan (s : State) (k t : Nat) : State :=
  s.forEach (List.range 8) fun s i =>
    let g := 8 * k + i
    if s.targets g t = 0 then s
    else s.setGroup g { s.group g with trips := (s.group g).trips ++ [(s.time, s.targets g t)] }

/-- R137: the core die learns of a latch whose source is channel `src` of the die. -/
def State.tripRecord (s : State) (k t src : Nat) : State :=
  let g := 8 * k
  let s := s.setTrip (16 * k + t) (some (src, true))
  let s := (s.setBit (CP_TGSTAT_LATCHED g) t true).flag (CP_TFLAGS_TRIP g) (CP_TCNT0_TRIP g)
  let s := (s.setTime (CP_TGREC_LO_T_LO g t) (CP_TGREC_HI_T_HI g t) s.time).set (CP_TGREC_HI_SRC g t) src
  let s := if s.dieGet (CP_TGCAUSE_CAUSE_EN g t) = 1 then
      s.causeMask (s.targetGroups k t) (s.dieGet (CP_TGCAUSE_CTX g t)) (s.dieGet (CP_TGCAUSE_PRIO g t)) .trip else s
  let s := if s.dieGet (CP_TGCAUSE_SNAP g t) = 1 then s.snapRequest 3 else s
  let s := s.tripSpan k t
  if s.bit (CP_SM_CTL_WSRC 0) 3 then s.smWake else s

/-- TRIP_LATCH_RECORD (R137). -/
def execTripLatchRecord (k : DieIx) (t : Fin 16) (s : State) : Host.Outcome State Fault Refusal :=
  done s (match vget s.sys.trip (16 * k.val + t.val) none with
    | some (src, false) => s.tripRecord k t src
    | _ => s)

/-- R138: the re-arm of the trip groups of a mask on a die. -/
def State.tripRearm (s : State) (k mask : Nat) : State :=
  let s := s.forEach (bitsOf mask 16) fun s t =>
    if (vget s.sys.trip (16 * k + t) none).isNone then s
    else if (s.violSource k t).isSome then s.flag (CP_TFLAGS_REARM_REFUSED (8 * k)) (CP_TCNT0_REARM_REFUSED (8 * k))
    else (s.setTrip (16 * k + t) none).setBit (CP_TGSTAT_LATCHED (8 * k)) t false
  s.parkDie k

/-- TRIP_REARM_WRITE (R138): a live host write. -/
def execTripRearmWrite (k : DieIx) (v : Word) (s : State) : Host.Outcome State Fault Refusal :=
  done s (s.mirrored (CP_TGARM (8 * k.val)).addr v fun s => s.tripRearm k (fieldOf v 15 0))

/-! ### PARK_N and CLR_N (R99, R140) -/

/-- R140: the engines on which PARK_N raises its cause. -/
def State.busyLeaders (s : State) : List Nat :=
  s.leaders.filter fun e => (List.range 32).any fun c => s.ctxState e c != .idle

/-- PARK_N_FALL (R140). -/
def execParkNFall (s : State) : Host.Outcome State Fault Refusal :=
  let s1 := ({ s with sys := { s.sys with parkN := false } }.flag (CP_PFLAGS_PARKN 0) (CP_PCNT_PARKN 0)).parkAll
  doneIf s.sys.parkN s
    (if s.on (CP_PARKN_CTL_EN 0) then
      s1.forEach s1.busyLeaders fun s e => s.cause e (s.get (CP_PARKN_CTL_CTX 0)) (s.get (CP_PARKN_CTL_PRIO 0)) .trip
    else s1)

/-- PARK_N_RISE (R140). -/
def execParkNRise (s : State) : Host.Outcome State Fault Refusal :=
  doneIf (!s.sys.parkN) s ({ s with sys := { s.sys with parkN := true } }).parkAll

/-- The channels of a die, by group and position. -/
def dieChannels (k : Nat) : List (Nat × Nat) := (List.range 128).map fun c => (8 * k + c / 16, c % 16)

/-- R99: at the clear instant a DAC takes its clear code at once. -/
def State.clearDac (s : State) (g p d : Nat) : State :=
  let c := s.get (LS_CLR_CODE g p d)
  (s.setDac g p d { s.dac g p d with tgt := BitVec.ofNat 16 c, slew := none, hold := none }).setOut g p d c

def setClrN (s : State) (k : Nat) (b : Bool) : State := { s with sys := { s.sys with clrN := vset s.sys.clrN k b } }

/-- CLR_N_FALL (R99): the clear instant of die k. -/
def execClrNFall (k : DieIx) (s : State) : Host.Outcome State Fault Refusal :=
  doneIf (vget s.sys.clrN k true) s
    ((dieChannels k).foldl (fun s x =>
      (s.forEach (List.range 6) fun s d => s.clearDac x.1 x.2 d).rearm x.1 x.2) (setClrN s k false))

/-- CLR_N_RISE (R99): the release instant of die k. -/
def execClrNRise (k : DieIx) (s : State) : Host.Outcome State Fault Refusal :=
  doneIf (!vget s.sys.clrN k true) s
    ((dieChannels k).foldl (fun s x => s.forEach (List.range 6) fun s d => s.follow x.1 x.2 d) (setClrN s k true))

/-! ### Self-check (R141 to R143) -/

def scRunning : Nat := 1

/-- The first enabled step from n on. -/
def scStep (steps n : Nat) : Option Nat := (bitsOf steps 6).find? (n ≤ ·)

/-- R141: a step begins: the inputs are tied and the comparators re-armed. -/
def State.scBegin (s : State) (g : Nat) (r : ScRun) : State :=
  (s.setGroup g { s.group g with sc := some r }).forEach (bitsOf r.mask 16) fun s p => (s.rearm g p).tieSwitch g p

/-- R141: a run starts on the channels of MASK. -/
def State.scStart (s : State) (g : Nat) : State :=
  if s.get (CP_SC_STAT_STATE g) = scRunning then s
  else
    let steps := s.get (CP_SC_CTL_STEPS g)
    let mask := s.get (CP_SC_CTL_MASK g)
    let s := (s.setGroup g { s.group g with scStart := some s.time }).set (CP_SC_STAT_STATE g) scRunning
    let s := s.forEach (bitsOf mask 16) fun s p => s.setCmp g p { (s.chan g p).cmp with selfCheck := true }
    s.scBegin g { steps := steps, mask := mask, step := (scStep steps 0).getD 0, at_ := s.time
                  ended := (scStep steps 0).isNone || mask == 0 }

/-- R141: a step ends 2 µs after its start, once every channel of the run is VALID or 16 samples more have passed. -/
def State.scStepOver (s : State) (g : Nat) (r : ScRun) : Bool :=
  let t := later r.at_ (usTclk 2)
  reached s.time t && ((bitsOf r.mask 16).all (s.cmpValid g) || decide (16 ≤ dieTicksUpTo s.time.toNat - dieTicksUpTo t.toNat))

/-- R141: the run goes on to its next step, or has performed its last. -/
def State.scTclk (s : State) (g : Nat) : State :=
  match (s.group g).sc with
  | some r =>
    if r.ended || !s.scStepOver g r then s
    else match scStep r.steps (r.step + 1) with
      | some n => s.scBegin g { r with step := n, at_ := s.time }
      | none => s.setGroup g { s.group g with sc := some { r with ended := true } }
  | none => s

/-- R141: a write of CP_SC_CTL. -/
def State.writeScCtl (s : State) (g : Nat) (v : Word) : State :=
  let s := ((s.set (CP_SC_CTL_STEPS g) (fieldOf v 29 24)).set (CP_SC_CTL_PER g) (fieldOf v 23 16)).set
    (CP_SC_CTL_MASK g) (fieldOf v 15 0)
  if fieldOf v 31 31 = 1 then s.scStart g else s

/-- SELF_CHECK_RUN (R141): a live host write of CP_SC_CTL. -/
def execSelfCheckRun (g : GroupIx) (v : Word) (s : State) : Host.Outcome State Fault Refusal :=
  done s (s.mirrored (CP_SC_CTL g).addr v fun s => s.writeScCtl g v)

/-- SELF_CHECK_PERIODIC (R141): PER seconds after the previous start. -/
def execSelfCheckPeriodic (g : GroupIx) (s : State) : Host.Outcome State Fault Refusal :=
  let per := s.get (CP_SC_CTL_PER g)
  doneIf (match (s.group g).scStart with
    | some t => decide (0 < per ∧ per * 1600000000 ≤ s.since t)
    | none => false) s (s.scStart g)

/-- R141, R142: the 2-bit result of one comparator of a step: 0 pass, 1 fail, 2 skip. VALID that stayed 0 is a fail. -/
def scCode (tie thr h : Int) (expect : Bool) (got : Option Bool) : Nat :=
  match got with
  | none => 1
  | some b => if (tie - thr).natAbs ≤ (6553600 + h).natAbs then 2 else if b = expect then 0 else 1

/-- The result of a channel: its conditions observed in each step of `steps`, `none` where VALID stayed 0. -/
def State.scResult (s : State) (g p steps : Nat) (obs : List (Option (Bool × Bool))) : Nat :=
  let h := s.halfHys g p
  let th := codeVolts (s.outCode g p 2)
  let tl := codeVolts (s.outCode g p 3)
  (List.range 6).foldl (fun r v =>
    if steps.testBit v then
      let x := s.tieVolts g p v
      let inv := decide (4 ≤ v)
      let o := obs.getD v none
      let hi := scCode x th h ((decide (th + h < x)) != inv) (o.map (·.1))
      let lo := scCode x tl h ((decide (x < tl - h)) != inv) (o.map (·.2))
      r + (hi + 4 * lo) * 16 ^ v
    else r + 15 * 16 ^ v) 0

/-- Some comparator of a result failed. -/
def scFailed (r : Nat) : Bool := (List.range 12).any fun i => r / 4 ^ i % 4 == 1

/-- R142: the run ends. -/
def State.scEnd (s : State) (g : Nat) (res : List (List (Option (Bool × Bool)))) : State :=
  let r := (s.group g).sc.getD { steps := 0, mask := 0, step := 0, at_ := 0, ended := true }
  let sel := bitsOf r.mask 16
  let rs := sel.map fun p => (p, s.scResult g p r.steps (res.getD p []))
  let s := s.set (CP_SC_STAT_FAILMAP g) 0
  let s := rs.foldl (fun s x =>
    let s := s.set (CP_SC_RES_RES g x.1) x.2
    if scFailed x.2 then s.setBit (CP_SC_STAT_FAILMAP g) x.1 true else s) s
  let s := if rs.any fun x => scFailed x.2 then s.flag (CP_FLAGS_SC_FAIL g) (CP_CNT0_SC_FAIL g) else s
  let s := s.forEach sel fun s p => (s.setCmp g p { (s.chan g p).cmp with selfCheck := false }).rearm g p
  (s.setGroup g { s.group g with sc := none }).set (CP_SC_STAT_STATE g) 2

/-- SELF_CHECK_END (R142): every step is done; what the comparators showed, by channel and step. -/
def execSelfCheckEnd (g : GroupIx) (res : List (List (Option (Bool × Bool)))) (s : State) :
    Host.Outcome State Fault Refusal :=
  doneIf (match (s.group g).sc with
    | some r => r.ended
    | none => false) s (s.scEnd g res)

/-! ### Configuration timing (R144) -/

/-- R124, R144: the CP registers of group g as committed act at the die. The comparators are re-armed, the latches of
disabled trip groups clear, and then the trip network sees the new state as one. -/
def State.cpArrives (s : State) (g : Nat) (regs : RegFile) : State :=
  let old := s.die
  let a := groupBase g + 0x6000
  let s := { s with die := s.die.copyRange regs a (a + 0x1000) }
  let s := s.forEach (List.range 16) fun s p => if old.word (CP_CMP g p) = s.die.word (CP_CMP g p) then s else s.rearmOnly g p
  let s := if g % 8 = 0 then
      s.forEach (List.range 16) fun s t =>
        if (s.dieGet (CP_TGEN_EN g)).testBit t then s
        else (s.setTrip (2 * g + t) none).setBit (CP_TGSTAT_LATCHED g) t false
    else s
  let s := s.forEach (List.range 16) fun s p => s.setBit (CP_STATUS_VIOL g) p (s.violates g p)
  s.tripNetwork (g / 8)

/-- CP_COMMIT_EFFECT (R144): the oldest commit on its way. -/
def execCpCommitEffect (g : GroupIx) (s : State) : Host.Outcome State Fault Refusal :=
  done s (match (s.group g).cpPend with
    | (t, regs) :: rest =>
      if reached s.time t then (s.setGroup g { s.group g with cpPend := rest }).cpArrives g regs else s
    | [] => s)

end Sys2Proof.Machine
end

