-- ==== Sys2Proof/Machine/TimePhase.lean ====
section
/-! DEFINITION. Chapter 02: the timebase discipline, the stress phase, STRESS_STEP, phase comparators and phase
slots. -/

namespace Sys2Proof.Machine

/-! ### Timebase discipline (R36 to R38) -/

def tbFree : Nat := 0
def tbAcquire : Nat := 1
def tbLocked : Nat := 2
def tbHoldover : Nat := 3

/-- R38: TBREF trims the PLL unless the device is a domain member other than the root. -/
def State.tbTrims (s : State) : Bool := s.isRoot || !s.isMember

/-- R38: limit of the trim, in 0.1 ppb. -/
def trimLimit : Int := 5000000

/-- The trim after an edge that needs the trim `need`: held at the limit beyond the range, else what the loop
gives, which the spec does not fix (R38). -/
def State.trimTo (s : State) (need : Int) : State :=
  if !s.tbTrims then s
  else if trimLimit < need then s.setInt TP_TBREF_TRIM_TRIM trimLimit
  else if need < -trimLimit then s.setInt TP_TBREF_TRIM_TRIM (-trimLimit)
  else
    let (s, v) := s.within (-trimLimit) trimLimit
    s.setInt TP_TBREF_TRIM_TRIM v

/-- R37, R38: the discipline at a TBREF edge whose period gives the error `err` (0.1 ppb) and needs the trim `need`. -/
def State.tbEdge (s : State) (err need : Int) : State :=
  let within := decide (-trimLimit ≤ need ∧ need ≤ trimLimit)
  let good := decide (-10 ≤ err ∧ err ≤ 10) && within
  let st := s.get TP_STATUS_TB_STATE
  let next := if st = tbFree ∨ st = tbHoldover then tbAcquire
    else if st = tbLocked ∧ !good then tbAcquire else st
  let s := { s with tp := { s.tp with tbLast := some s.time,
                                      tbGood := if good then some (s.tp.tbGood.getD s.time) else none } }
  ((s.set TP_STATUS_TB_STATE next).setInt TP_TBREF_ERR_ERR err).trimTo need

/-- TBREF_EDGE (R38): measured while TP_TBREF_CTL.EN is 1. While REFCLK is lost the discipline, its trim and its error
stay as they are (R421). -/
def execTbrefEdge (err need : BitVec 32) (s : State) : Host.Outcome State Fault Refusal :=
  doneIf (s.on TP_TBREF_CTL_EN && !s.on CK_STAT_HOLDOVER) s (s.tbEdge err.toInt need.toInt)

/-- DISCIPLINE_LOCK (R37): ten seconds within ±1 ppb. -/
def execDisciplineLock (s : State) : Host.Outcome State Fault Refusal :=
  doneIf (s.get TP_STATUS_TB_STATE == tbAcquire &&
      match s.tp.tbGood with
      | some t => decide (16000000000 ≤ s.since t)
      | none => false) s
    (s.set TP_STATUS_TB_STATE tbLocked)

/-- R38: TBREF is lost: the state falls back and the error reads 0. -/
def State.tbLose (s : State) : State :=
  let st := s.get TP_STATUS_TB_STATE
  let s := { s with tp := { s.tp with tbLast := none, tbGood := none } }
  let s := s.set TP_TBREF_ERR_ERR 0
  if st = tbLocked then s.set TP_STATUS_TB_STATE tbHoldover
  else if st = tbAcquire then (s.set TP_STATUS_TB_STATE tbFree).set TP_TBREF_TRIM_TRIM 0
  else s

/-- TBREF_LOST (R38): 1 µs without an edge. -/
def execTbrefLost (s : State) : Host.Outcome State Fault Refusal :=
  doneIf (s.on TP_TBREF_CTL_EN &&
      match s.tp.tbLast with
      | some t => decide (usTclk 1 ≤ s.since t)
      | none => false) s
    (s.tbLose.flag TP_FLAGS_TBREF_LOST TP_CNT2_TBREF_LOST)

/-- A write that ends EN returns the discipline to FREE with a trim of 0 (R37). -/
def State.tbOff (s : State) : State :=
  let s := { s with tp := { s.tp with tbLast := none, tbGood := none } }
  ((s.set TP_STATUS_TB_STATE tbFree).set TP_TBREF_TRIM_TRIM 0).set TP_TBREF_ERR_ERR 0

/-! ### PHASE (R39 to R53) -/

def phOff : Nat := 0
def phAcquire : Nat := 1
def phLocked : Nat := 2
def phStalled : Nat := 3
def phLost : Nat := 4

def srcQuad : Nat := 1
def srcPulse : Nat := 2
def srcCleif : Nat := 3

def State.phState (s : State) : Nat := s.get TP_STATUS_PH_STATE
def State.phLockedB (s : State) : Bool := s.phState == phLocked

/-- R41: the angle of a count position. -/
def posAngle (cpc p : Nat) : Nat := p * 2 ^ 32 / cpc

/-- PHASE as reported: the last count and the interpolation (R42, R43). -/
def TpState.phase (t : TpState) : Phase := t.base + BitVec.ofInt 64 (t.off / 16)

def State.phase (s : State) : Phase := s.tp.phase

/-- R56: PHASE has reached a target. -/
def phaseReached (now target : Phase) : Bool := (now - target).toNat < 2 ^ 63

/-- R47, R58: PHASE moving forward from `a` to `b` passes through an angle: the cycles in which it does, in order. -/
def passages (a b : Phase) (angle : Nat) : List (BitVec 32) :=
  let d := (b - a).toNat
  let k0 := (angle + 2 ^ 32 - a.toNat % 2 ^ 32) % 2 ^ 32
  let k := if k0 = 0 then 2 ^ 32 else k0
  if 2 ^ 63 ≤ d ∨ d < k then []
  else (List.range ((d - k) / 2 ^ 32 + 1)).map fun i => BitVec.ofNat 32 ((a.toNat + k) / 2 ^ 32 + i)

/-- R62: the slots whose angle a forward motion passes, LOCKED and once for each cycle, are due. -/
def State.slotsPassed (s : State) (a b : Phase) : State :=
  s.forEach (List.range 16) fun s i =>
    if s.on (TP_SLOT_CTL_EN i) then
      let due := vget s.tp.slotDue i []
      let new := (passages a b (s.get (TP_SLOT_ANG_ANG i))).filter fun c =>
        !(vget s.tp.slotFired i []).contains c && !due.contains c
      { s with tp := { s.tp with slotDue := vset s.tp.slotDue i (due ++ new) } }
    else s

/-- R58: an angle-only wait whose angle is passed after the wait began is released in this TCLK. -/
def Engine.anglePassed (e : Engine) (a b : Phase) (now : Time) : Engine :=
  { e with waits := e.waits.map fun w =>
      match w with
      | some x => match x.kind, x.released with
        | .angle ang, none => if !(passages a b ang.toNat).isEmpty && x.since != now then some { x with released := some now } else w
        | _, _ => w
      | none => none }

/-- PHASE has moved continuously from `a` to its present value. -/
def State.phaseMoved (s : State) (a : Phase) : State :=
  if !s.phLockedB then s
  else
    let b := s.phase
    let s := s.slotsPassed a b
    { s with engines := s.engines.map fun e => e.anglePassed a b s.time }

/-- One count step at a position, in 1/16 angle unit. -/
def spanOf (cpc p : Nat) (reverse : Bool) : Int :=
  let here : Int := posAngle cpc p
  let next : Int := if p + 1 = cpc then 4294967296 else posAngle cpc (p + 1)
  let prev : Int := if p = 0 then (posAngle cpc (cpc - 1) : Int) - 4294967296 else posAngle cpc (p - 1)
  if reverse then 16 * (prev - here) else 16 * (next - here)

def State.cpc (s : State) : Nat := s.get TP_PH_CPC_CPC

/-- R48: IDXPOS applied modulo CPC. -/
def State.idxPos (s : State) : Nat := s.get TP_PH_IDXPOS_IDXPOS % s.cpc

/-- f_n in Hz (R44). -/
def State.phFn (s : State) : Nat := 10 ^ (s.get TP_PH_LOOP_BW + 1)

/-- R44: the loop has settled at a constant speed: for 8 / f_n the counts have come at equal intervals, to the TCLK, and
at 64 f_n or more; the intervals and the TCLK that they took. -/
def State.settled (s : State) : Option (Nat × Nat) :=
  match s.tp.steady with
  | some (t0, n, _, hi) =>
    if 0 < n ∧ 12800000000 ≤ s.phFn * s.since t0 ∧ 64 * s.phFn * hi ≤ 1600000000 then
      some (n, (s.tp.lastCount - t0).toNat)
    else none
  | none => none

/-- R42 to R44: what the interpolation may be in this TCLK: within one count step (R43), and once settled within 1/16
step of the angle at the balls, whose edges the input latency of 3 + FILT TCLK delays; the instant of an edge is known to
the TCLK only. The loop law is not stated otherwise. -/
def State.offRange (s : State) : Int × Int :=
  let span := spanOf s.cpc s.tp.pos (s.on TP_STATUS_DIR)
  let lo := min 0 span
  let hi := max 0 span
  match s.settled with
  | some (n, t) =>
    let at_ : Int := span * n * ((s.since s.tp.lastCount + 3 + s.get TP_PH_CTL_FILT : Nat) : Int) / (t : Int)
    let slack : Int := (span.natAbs / 16 + span.natAbs * n / t + 32 : Nat)
    (max lo (min hi (at_ - slack)), min hi (max lo (at_ + slack)))
  | none => (lo, hi)

/-- R43: the interpolation and velocity that the loop gives at a count. -/
def State.loopCorrect (s : State) : State :=
  let r := s.offRange
  let (s, off) := s.within r.1 r.2
  let (s, vel) := s.within (-2147483648) 2147483647
  { s with tp := { s.tp with off := off, vel := vel } }

/-- R44: a count at TIME `now` extends the stretch of constant speed, or begins one. -/
def TpState.steadyAt (t : TpState) (now : Time) : Time × Nat × Nat × Nat :=
  let d := (now - t.lastCount).toNat
  match t.steady with
  | some (t0, n, lo, hi) =>
    if n = 0 then (t0, 1, d, d)
    else if max hi d ≤ min lo d + 1 then (t0, n + 1, min lo d, max hi d)
    else (now, 0, 0, 0)
  | none => (now, 0, 0, 0)

/-- R41: one count, forward or reverse. PHASE holds in LOST (R49); a count ends STALLED from velocity 0 (R46). -/
def State.phCount (s : State) (reverse : Bool) : State :=
  let cpc := s.cpc
  let p := s.tp.pos
  let a := s.phase
  let cyc := s.tp.base.toNat / 2 ^ 32
  let (p', cyc') :=
    if reverse then (if p = 0 then (cpc - 1, cyc + 2 ^ 32 - 1) else (p - 1, cyc))
    else (if p + 1 ≥ cpc then (0, cyc + 1) else (p + 1, cyc))
  let turned := s.on TP_STATUS_DIR != reverse
  let s := s.set TP_STATUS_DIR (if reverse then 1 else 0)
  let st := s.phState
  if st = phOff then s
  else
    let steady := if turned || st == phStalled || st == phLost then (s.time, 0, 0, 0) else s.tp.steadyAt s.time
    let s := { s with tp := { s.tp with pos := p', lastCount := s.time, steady := some steady } }
    if st = phLost then s
    else
      let s := { s with tp := { s.tp with base := BitVec.ofNat 64 (cyc' * 2 ^ 32 + posAngle cpc p'), off := 0 } }
      let s := if st = phStalled then { s.set TP_STATUS_PH_STATE phLocked with tp := { s.tp with vel := 0 } }
        else s.loopCorrect
      s.phaseMoved a

/-- R40: the direction of an accepted quadrature change, A leading B being forward; `none`: both changed. -/
def quadReverse (a0 b0 a1 b1 : Bool) : Option Bool :=
  if a0 != a1 && b0 != b1 then none
  else if a0 != a1 then some (a1 == b1)
  else some (a1 != b1)

/-- The accepted levels of the count inputs change (R39, R40). -/
def State.phaseLevels (s : State) (a b p : Bool) : State :=
  let t := s.tp
  let src := s.get TP_PH_CTL_SRC
  let s1 := { s with tp := { t with inA := a, inB := b, inP := p } }
  if src = srcQuad then
    if a == t.inA && b == t.inB then s1
    else match quadReverse t.inA t.inB a b with
      | none => s1.flag TP_FLAGS_QUAD_ERR TP_CNT0_QUAD_ERR
      | some rev => s1.phCount (rev != s.on TP_PH_CTL_INV)
  else if src = srcPulse ∧ p ∧ !t.inP then s1.phCount false
  else s1

/-- R39: the accepted level of an input, from the samples of its ball at this TCLK and the TCLKs before it, newest first.
The synchroniser and the acceptance take three TCLK, so the newest three do not count yet (3 + FILT from the edge); the
level is accepted once the input has held it for FILT TCLK. -/
def accepted (filt : Nat) (old : Bool) (samples : List Bool) : Bool :=
  match samples.drop 3 with
  | [] => old
  | x :: rest => if decide (filt ≤ rest.length) && (rest.take filt).all (· == x) then x else old

/-- R39, R40: the accepted levels after the samples of the three count inputs. -/
def State.phaseSamples (s : State) (a b p : List Bool) : State :=
  let f := s.get TP_PH_CTL_FILT
  s.phaseLevels (accepted f s.tp.inA a) (accepted f s.tp.inB b) (accepted f s.tp.inP p)

/-- PHASE_COUNT (R40): the samples of the balls PH_A, PH_B and PH_P, newest first. -/
def execPhaseCount (a b p : List Bool) (s : State) : Host.Outcome State Fault Refusal := done s (s.phaseSamples a b p)

/-- PHASE_STALL (R46). A device that takes its PHASE from Cleif has no counts to miss: it does not stall by itself (log
entry 125, DESIGN CHOICE). -/
def execPhaseStall (s : State) : Host.Outcome State Fault Refusal :=
  doneIf (s.phLockedB && s.get TP_PH_CTL_SRC != srcCleif &&
      decide (usTclk (s.get TP_PH_LOOP_STALL) ≤ s.since s.tp.lastCount)) s
    (({ s with tp := { s.tp with vel := 0 } }.set TP_STATUS_PH_STATE phStalled).flag TP_FLAGS_STALL TP_CNT1_STALL)

/-- R51: entry to LOST; the waveform players note the jump that ends it (R208). -/
def State.enterLost (s : State) : State :=
  let s := { s with groups := s.groups.map fun (x : Group) => { x with wp := { x.wp with jumped := true } } }
  ((s.set TP_STATUS_PH_STATE phLost).flag TP_FLAGS_PH_LOST TP_CNT1_PH_LOST).causePhaseLoss

/-- R48: e, the signed difference of least magnitude modulo CPC; the sign of a tie is left open. -/
def State.indexError (s : State) : State × Int :=
  let cpc := s.cpc
  let d := (s.tp.pos + cpc - s.idxPos) % cpc
  if 2 * d = cpc then (s.burn, if s.fresh.getLsbD 0 then (d : Int) else -(d : Int))
  else (s, if 2 * d < cpc then (d : Int) else (d : Int) - cpc)

/-- PHASE jumps to a cycle at the angle of IDXPOS. -/
def State.phaseJump (s : State) (cyc : Nat) : State :=
  { s with tp := { s.tp with pos := s.idxPos, base := BitVec.ofNat 64 (cyc * 2 ^ 32 + posAngle s.cpc s.idxPos), off := 0 } }

/-- R48, R50, R51: a forward index. In ACQUIRE and LOST it references PHASE whatever the error, and sets no INDEX_ERR; in
LOCKED the cycle kept is that of the count position; the jump from LOST releases no angle-only wait (log entries 126 to
128, DESIGN CHOICE). -/
def State.forwardIndex (s : State) : State :=
  let st := s.phState
  let a := s.phase
  let (s, e) := s.indexError
  let s := s.setInt TP_PH_IDXERR_IDXERR (max (-32767) (min 32767 e))
  if st = phAcquire then ((s.phaseJump 0).set TP_STATUS_PH_STATE phLocked)
  else if st = phLost then
    (s.phaseJump (s.tp.base.toNat / 2 ^ 32 + 1)).set TP_STATUS_PH_STATE phLocked
  else if e.natAbs ≤ s.get TP_PH_LOOP_IDXTOL then
    let cyc := s.tp.base.toNat / 2 ^ 32
    let s := { s with tp := { s.tp with pos := s.idxPos, off := 0,
                                        base := BitVec.ofNat 64 (cyc * 2 ^ 32 + posAngle s.cpc s.idxPos) } }
    s.phaseMoved a
  else (s.flag TP_FLAGS_INDEX_ERR TP_CNT0_INDEX_ERR).enterLost

/-- PHASE_INDEX (R48): the samples of the ball PH_I, newest first (R39). -/
def execPhaseIndex (samples : List Bool) (s : State) : Host.Outcome State Fault Refusal :=
  let level := accepted (s.get TP_PH_CTL_FILT) s.tp.inI samples
  let rise := level && !s.tp.inI
  let s1 := { s with tp := { s.tp with inI := level } }
  let src := s.get TP_PH_CTL_SRC
  done s (if rise && s.on TP_PH_CTL_IDX_EN && (src == srcQuad || src == srcPulse) && !s.on TP_STATUS_DIR
    then s1.forwardIndex else s1)

/-- R50: tracking restarts. PH_I serves the encoder sources only, so with SRC = CLEIF the state is LOCKED at once (log entry
129, DEDUCED). -/
def State.retrack (s : State) : State :=
  let src := s.get TP_PH_CTL_SRC
  let st := if src = 0 then phOff
    else if src != srcCleif && s.on TP_PH_CTL_IDX_EN then phAcquire else phLocked
  let s := s.set TP_STATUS_PH_STATE st
  { s with tp := { s.tp with pos := 0, base := 0, off := 0, vel := 0, lastCount := s.time, steady := none, lastSample := s.time,
                             slotFired := Vector.replicate 16 [], slotDue := Vector.replicate 16 [] } }

/-- One TCLK of the tracking loop: the angle advances by the velocity, within the bounds of R43 and R44 for a counted
source (R46), freely for the Cleif source (R52). -/
def State.phaseTclk (s : State) : State :=
  let st := s.phState
  if (st = phLocked ∨ st = phAcquire) ∧ s.tp.vel ≠ 0 then
    let a := s.phase
    let off := s.tp.off + s.tp.vel
    let off := if s.get TP_PH_CTL_SRC = srcCleif then off
      else max s.offRange.1 (min s.offRange.2 off)
    ({ s with tp := { s.tp with off := off } }).phaseMoved a
  else s

/-- PHASE_SAMPLE_BROADCAST (R52): on a root with PH_TX, every 2,048 TCLK. -/
def execPhaseSampleBroadcast (s : State) : Host.Outcome State Fault Refusal :=
  doneIf (s.isRoot && s.on TP_DOM_CTL_PH_TX && s.get TP_PH_CTL_SRC != srcCleif &&
      decide (2048 ≤ s.since s.tp.lastSample)) s
    ({ s with tp := { s.tp with lastSample := s.time } }.broadcast 5 0
      [timeFlit s.time, BitVec.ofNat 72 s.phase.toNat,
       BitVec.ofNat 72 (s.phState * 2 ^ 32 + (BitVec.ofInt 32 s.tp.vel).toNat)])

/-- R52: a received sample, taken at its own TIME. A sample that moves a tracked PHASE counts as continuous motion (log
entry 130, DESIGN CHOICE). States 5 to 7 are never reported (R49): such a sample has no effect (log entry 131, DESIGN
CHOICE). -/
def State.phaseSample (s : State) (t : Time) (phase : Phase) (vel : Int) (st : Nat) : State :=
  let a := s.phase
  let was := s.phState
  if phLost < st then s
  else
  let now := { s with tp := { s.tp with base := phase, off := vel * (s.since t : Int), vel := vel,
                                        lastSample := s.time, lastCount := s.time } }
  if st = phLost then (if was = phLost then s else s.enterLost)
  else
    let s := now.set TP_STATUS_PH_STATE st
    if was = phLost then s else s.phaseMoved a

/-- R52: a device with SRC = CLEIF follows a received sample. -/
def State.phaseReceived (s : State) (t : Time) (phase : Phase) (vel : BitVec 32) (st : BitVec 3) : State :=
  if s.get TP_PH_CTL_SRC = srcCleif then s.phaseSample t phase vel.toInt st.toNat else s

/-- PHASE_SAMPLE_RECEIVE (R52). -/
def execPhaseSampleReceive (t : Time) (phase : Phase) (vel : BitVec 32) (st : BitVec 3) (s : State) :
    Host.Outcome State Fault Refusal := done s (s.phaseReceived t phase vel st)

/-- PHASE_SAMPLE_TIMEOUT (R52): 64 sample periods without a sample. -/
def execPhaseSampleTimeout (s : State) : Host.Outcome State Fault Refusal :=
  doneIf (s.get TP_PH_CTL_SRC == srcCleif && s.phState != phLost &&
      decide (64 * 2048 ≤ s.since s.tp.lastSample)) s s.enterLost

/-! ### STRESS_STEP (R54, R55) -/

/-- R54: the STEP in force at TIME t. -/
def State.stepAt (s : State) (t : Time) : Nat :=
  match s.tp.stepLog.find? (fun x => reached t x.1) with
  | some x => x.2.toNat
  | none => (s.tp.stepLog.getLast?.map (·.2.toNat)).getD (s.get TP_STEP_STEP)

/-- R54: the STEP in force in this TCLK. -/
def State.stepInForce (s : State) : Nat := s.stepAt s.time

/-- R54, R55: a STEP is in force from TIME `at_`, with the write TIME stored in TP_STEP_TIME. A local write due after
`at_` stays the register's value. The 64 latest are kept. -/
def State.putStep (s : State) (step : Nat) (at_ wrote : Time) : State :=
  let l := if s.tp.stepLog.isEmpty then [(at_, BitVec.ofNat 16 s.stepInForce)] else s.tp.stepLog
  let after := l.filter fun x => !reached at_ x.1
  let before := l.filter fun x => reached at_ x.1
  let s := { s with tp := { s.tp with stepLog := (after ++ (at_, BitVec.ofNat 16 step) :: before).take 64 } }
  if after.isEmpty then (s.set TP_STEP_STEP step).setTime TP_STEP_TIME_LO_T_LO TP_STEP_TIME_HI_T_HI wrote else s

/-- R54, R55: a write of TP_STEP. -/
def State.writeStep (s : State) (v : Word) : State :=
  let t := later s.time 1
  let s := (s.putStep (fieldOf v 15 0) t t).set TP_STEP_TX (fieldOf v 16 16)
  if s.isRoot && s.on TP_STEP_TX then s.broadcast 6 (fieldOf v 15 0) [timeFlit t] else s

/-- STEP_WRITE (R54): a live host write, forwarded in a twin pair (R375). -/
def execStepWrite (v : Word) (s : State) : Host.Outcome State Fault Refusal :=
  done s (s.mirrored TP_STEP.addr v fun s => s.writeStep v)

/-- R55: a received STEP acts at the root's write TIME, or at once if it has passed. -/
def State.stepReceived (s : State) (step : BitVec 16) (t : Time) : State :=
  if reached s.time t then s.putStep step.toNat s.time t
  else { s with tp := { s.tp with stepPend := s.tp.stepPend ++ [(step, t)] } }

/-- STEP_BROADCAST_RECEIVE (R55). -/
def execStepBroadcastReceive (step : BitVec 16) (t : Time) (s : State) : Host.Outcome State Fault Refusal :=
  done s (s.stepReceived step t)

/-- R55: the received STEPs whose TIME has come are in force from it. -/
def State.stepsDue (s : State) : State :=
  let due := s.tp.stepPend.filter fun x => reached s.time x.2
  let s := { s with tp := { s.tp with stepPend := s.tp.stepPend.filter fun x => !reached s.time x.2 } }
  due.foldl (fun s x => s.putStep x.1.toNat x.2 x.2) s

/-- STEP_BROADCAST_APPLY (R55). -/
def execStepBroadcastApply (s : State) : Host.Outcome State Fault Refusal := done s s.stepsDue

/-! ### Phase comparators and slots (R61, R62) -/

/-- R61: a write of TP_PCMPm_CTL. -/
def State.pcmpWrite (s : State) (m : Nat) (v : Word) : State :=
  let arm := fieldOf v 0 0
  let s := ((s.set (TP_PCMP_CTL_PRIO m) (fieldOf v 8 6)).set (TP_PCMP_CTL_CTX m) (fieldOf v 5 1)).set (TP_PCMP_CTL_ARM m) arm
  if arm = 1 then
    let tgt : Phase := BitVec.ofNat 64 (s.get (TP_PCMP_CYC_CYC m) * 2 ^ 32 + s.get (TP_PCMP_ANG_ANG m))
    let s := s.set (TP_PCMP_CTL_REACHED m) 0
    { s with tp := { s.tp with pcmpTgt := vset s.tp.pcmpTgt m tgt, pcmpAt := vset s.tp.pcmpAt m s.time } }
  else s

/-- PCMP_ARM (R61): a live host write, forwarded in a twin pair. -/
def execPcmpArm (m : Fin 8) (v : Word) (s : State) : Host.Outcome State Fault Refusal :=
  done s (s.mirrored (TP_PCMP_CTL m).addr v fun s => s.pcmpWrite m v)

/-- R61, R57: an armed comparator's target is reached in the LOCKED state, not before the TCLK after arming. -/
def State.pcmpDue (s : State) (m : Nat) : Bool :=
  s.on (TP_PCMP_CTL_ARM m) && s.phLockedB && phaseReached s.phase (vget s.tp.pcmpTgt m 0)
    && s.time != vget s.tp.pcmpAt m 0

/-- R61: the comparator raises its causes, sets REACHED and clears ARM. -/
def State.pcmpFire (s : State) (m : Nat) : State :=
  let s := s.causeMask (s.get (TP_PCMP_ENG_ENG m)) (s.get (TP_PCMP_CTL_CTX m)) (s.get (TP_PCMP_CTL_PRIO m)) .phase
  (s.set (TP_PCMP_CTL_REACHED m) 1).set (TP_PCMP_CTL_ARM m) 0

/-- PCMP_REACHED (R61). -/
def execPcmpReached (m : Fin 8) (s : State) : Host.Outcome State Fault Refusal :=
  doneIf (s.pcmpDue m) s (s.pcmpFire m)

/-- R62: a slot that fires in cycle c. -/
def State.slotFire (s : State) (i : Nat) (c : BitVec 32) : State :=
  let s := { s with tp := { s.tp with slotDue := vset s.tp.slotDue i ((vget s.tp.slotDue i []).filter (· != c)),
                                      slotFired := vset s.tp.slotFired i (c :: vget s.tp.slotFired i []) },
                     slotAt := vset s.slotAt i (some s.time) }
  let s := s.set (TP_SLOT_LAST_LAST i) c.toNat
  s.causeMask (s.get (TP_SLOT_ENG_ENG i)) (s.get (TP_SLOT_CTL_CTX i)) (s.get (TP_SLOT_CTL_PRIO i)) .phase

/-- PHASE_SLOT_FIRE (R62): a due passage of an enabled slot, in LOCKED. -/
def execPhaseSlotFire (slot : Fin 16) (s : State) : Host.Outcome State Fault Refusal :=
  done s (match vget s.tp.slotDue slot [] with
    | c :: _ => if s.on (TP_SLOT_CTL_EN slot) && s.phLockedB then s.slotFire slot c else s
    | [] => s)

end Sys2Proof.Machine
end

