-- ==== Sys2Proof/Machine/HostIf.lean ====
section
/-! DEFINITION. Chapter 14: the device-to-host rings, their pointers and enables, capture readout, Function Level
Reset and link events, SMBus and SPI. -/

namespace Sys2Proof.Machine

/-! ### Registers of rings and queues -/

/-- Registers of a ring or queue, by their role (R414). -/
def ringCtl : RingIx → Reg
  | .ring r => HI_RING_CTL r | .vecQueue u => HI_QV_CTL u | .waveQueue u => HI_QW_CTL u
def ringEn : RingIx → Fld
  | .ring r => HI_RING_CTL_EN r | .vecQueue u => HI_QV_CTL_EN u | .waveQueue u => HI_QW_CTL_EN u
def ringWben : RingIx → Fld
  | .ring r => HI_RING_CTL_WBEN r | .vecQueue u => HI_QV_CTL_WBEN u | .waveQueue u => HI_QW_CTL_WBEN u
def ringIall : RingIx → Fld
  | .ring r => HI_RING_CTL_IALL r | .vecQueue u => HI_QV_CTL_IALL u | .waveQueue u => HI_QW_CTL_IALL u
def ringSize : RingIx → Fld
  | .ring r => HI_RING_CTL_SIZE r | .vecQueue u => HI_QV_CTL_SIZE u | .waveQueue u => HI_QW_CTL_SIZE u
def ringHead : RingIx → Fld
  | .ring r => HI_RING_HEAD_HEAD r | .vecQueue u => HI_QV_HEAD_HEAD u | .waveQueue u => HI_QW_HEAD_HEAD u
def ringTail : RingIx → Fld
  | .ring r => HI_RING_TAIL_TAIL r | .vecQueue u => HI_QV_TAIL_TAIL u | .waveQueue u => HI_QW_TAIL_TAIL u
def ringWb : RingIx → Fld × Fld
  | .ring r => (HI_RING_WB_LO_ADDR r, HI_RING_WB_HI_ADDR r)
  | .vecQueue u => (HI_QV_WB_LO_ADDR u, HI_QV_WB_HI_ADDR u)
  | .waveQueue u => (HI_QW_WB_LO_ADDR u, HI_QW_WB_HI_ADDR u)
def queueState : RingIx → Option Fld
  | .ring _ => none | .vecQueue u => some (HI_QV_QSTAT_STATE u) | .waveQueue u => some (HI_QW_QSTAT_STATE u)

/-- Ring number (R396). -/
def ringNumber : RingIx → Nat
  | .ring r => r | .vecQueue _ => 6 | .waveQueue _ => 7

/-- R390, R24: the device may use DMA. -/
def State.dmaOk (s : State) : Bool := s.hi.bme && !s.hi.d3 && s.hi.perstN && s.on HI_LINK_WIDTH

/-- R399: TAIL − HEAD. -/
def State.posted (s : State) (x : RingIx) : Nat := (s.get (ringTail x) + 2 ^ 32 - s.get (ringHead x)) % 2 ^ 32

/-! ### Fail-log and stamp memories (R186, R191)

`ev` = false: the fail-log memory of engine g; true: the stamp memory of group g. -/

def logWptr (ev : Bool) (g : Nat) : Fld := if ev then FC_EV_PTR_WPTR g else FC_LOG_PTR_WPTR g
def logRptr (ev : Bool) (g : Nat) : Fld := if ev then FC_EV_PTR_RPTR g else FC_LOG_PTR_RPTR g

/-- Words of the memory; the pointers count modulo twice as many. -/
def logSize (ev : Bool) : Nat := if ev then 8192 else 4096

def logAddr (ev : Bool) (g w : Nat) : Nat :=
  if ev then memAddr memStamp 0x20000 g (w % 8192) else memAddr memFailLog 0x10000 g (w % 4096)

/-- Unread words. -/
def State.unread (s : State) (ev : Bool) (g : Nat) : Nat :=
  (s.get (logWptr ev g) + 2 * logSize ev - s.get (logRptr ev g)) % (2 * logSize ev)

/-- The device reads the memory into ring 1 or 2. -/
def State.logDrains (s : State) (ev : Bool) (g : Nat) : Bool := s.on (if ev then FC_EV_CTL_DMA g else FC_LOG_CTL_HOST g)

/-- The word at WPTR is written and WPTR advances. -/
def State.logPut (s : State) (ev : Bool) (g : Nat) (w : Native) : State :=
  (s.setMemWord (logAddr ev g (s.get (logWptr ev g))) w).incr (logWptr ev g)

/-- A record or stamp that met a full memory (R186, R191, R402). -/
def State.logLost (s : State) (ev : Bool) (g : Nat) : State :=
  let s := if ev then s.flag (FC_FLAGS_EVLOST g) (FC_CNT0_EVLOST g) else s.flag (FC_FLAGS_LOGLOST g) (FC_CNT0_LOGLOST g)
  if s.logDrains ev g then (if ev then s.ringLose 2 g 1 1 else s.ringLose 1 0 1 1) else s

/-- R186, R191: a record is written, under MODE when the memory is full. -/
def State.logWrite (s : State) (ev : Bool) (g : Nat) (w : Native) : State :=
  if s.unread ev g < logSize ev then s.logPut ev g w
  else
    let s := s.logLost ev g
    if s.on (if ev then FC_EV_CTL_MODE g else FC_LOG_CTL_MODE g) then s
    else (s.incr (logRptr ev g)).logPut ev g w

/-- R186, R402: the device reader moves up to n unread words into its ring while there is space. -/
def State.logDrain (s : State) (ev : Bool) (g : Nat) : Nat → State
  | 0 => s
  | n + 1 =>
    let r := if ev then 2 else 1
    let unit := if ev then g else 0
    if s.logDrains ev g && s.on (HI_RING_CTL_EN r) && decide (0 < s.unread ev g) && (s.ring r).room unit 1 then
      let w := s.memWord (logAddr ev g (s.get (logRptr ev g)))
      ((s.setRing r ((s.ring r).add unit [w] s.time none)).incr (logRptr ev g)).logDrain ev g n
    else s

/-- Both readers, engines and groups in rising order. -/
def State.drainLogs (s : State) : State :=
  s.forEach (List.range 32) fun s g => (s.logDrain false g 4096).logDrain true g 8192

/-- R186, R191: a host write of RPTR with HOST or DMA = 0. -/
def State.writeRptr (s : State) (ev : Bool) (g r : Nat) : State :=
  let w := s.get (logWptr ev g)
  let n := logSize ev
  let d := (w + 2 * n - r) % (2 * n)
  if s.logDrains ev g then s
  else if d ≤ n then s.set (logRptr ev g) r
  else
    let s := s.set (logRptr ev g) (if d ≤ n + n / 2 then (w + n) % (2 * n) else w)
    s.clampNote (logRptr ev g).reg.addr

/-- LOG_RPTR_WRITE (R186). -/
def execLogRptrWrite (g : GroupIx) (v : Word) (s : State) : Host.Outcome State Fault Refusal :=
  hostDone s (s.writeRptr false g (fieldOf v 28 16))

/-- EV_RPTR_WRITE (R191). -/
def execEvRptrWrite (g : GroupIx) (v : Word) (s : State) : Host.Outcome State Fault Refusal :=
  hostDone s (s.writeRptr true g (fieldOf v 29 16))

/-! ### Blocks (R397) -/

/-- Header of a block as a 192-bit number. -/
def Block.header (b : Block) (ring bseq : Nat) : Nat :=
  0xE7 + ring * 2 ^ 8 + (if b.gap then 2 ^ 11 else 0) + b.unit * 2 ^ 16 + b.words.length * 2 ^ 32
    + bseq * 2 ^ 64 + (if b.gap then b.drop else 0) * 2 ^ 96 + b.aux * 2 ^ 128

/-- The 4,096 bytes of a block. -/
def Block.bytes (b : Block) (ring bseq : Nat) : List Byte :=
  let body := bytesOf (b.header ring bseq) 24 ++ wordBytes b.words
  let body := body ++ List.replicate (4092 - body.length) 0
  body ++ bytesOf (crc32c body).toNat 4

/-- R399: the buffer address and INT of a descriptor. -/
def descAddr (d : BitVec 128) : BitVec 64 := BitVec.ofNat 64 (d.toNat % 2 ^ 64 / 4096 * 4096)
def descInt (d : BitVec 128) : Bool := d.getLsbD 64

/-- R400, R409: a descriptor completes: HEAD advances, is written back, and the ring is signalled. -/
def State.completeDesc (s : State) (x : RingIx) (int : Bool) : State :=
  let s := s.set (ringHead x) (s.get (ringHead x) + 1)
  let wb := ringWb x
  let s := if s.on (ringWben x) then
      s.emit (.dma (BitVec.ofNat 64 (s.get wb.2 * 2 ^ 32 + s.get wb.1 * 8)) (bytesOf (s.get (ringHead x)) 4))
    else s
  if int || s.on (ringIall x) then s.raiseBit HI_RDONE_DONE (ringNumber x) else s

/-- R403: the next block of the capture readout. -/
def State.captureBlock (s : State) : Block :=
  let n := min blockWords (s.get HI_CAPRD_STAT_LEFT)
  { unit := s.hi.capGroup, gap := false, drop := 0, aux := s.hi.capNext,
    words := (List.range n).map fun i => s.memWord (memAddr memCapture 0x200000 s.hi.capGroup ((s.hi.capNext + i) % 131072)),
    recs := n, first := s.time }

/-- A block of ring r goes to the next posted buffer (R400). -/
def State.writeBlock (s : State) (r : Fin 6) (bseq : Nat) (b : Block) (desc : BitVec 128) : State :=
  (s.emit (.dma (descAddr desc) (b.bytes r bseq))).completeDesc (.ring r) (descInt desc)

/-- R400, R403: with a closed block, EN = 1 and a posted buffer whose descriptor is `desc`. -/
def State.ringWrite (s : State) (r : Fin 6) (desc : BitVec 128) : State :=
  if !(s.dmaOk && s.on (ringEn (.ring r)) && decide (0 < s.posted (.ring r))) then s
  else if r.val = 4 then
    if s.get HI_CAPRD_STAT_STATE = 1 then
      let b := s.captureBlock
      let q := s.ring 4
      let s := s.setRing 4 { q with bseq := (q.bseq + 1) % 2 ^ 32 }
      let s := s.writeBlock r q.bseq b desc
      let left := s.get HI_CAPRD_STAT_LEFT - b.words.length
      let s := (s.set HI_CAPRD_STAT_LEFT left).set HI_CAPRD_STAT_STATE (if left = 0 then 2 else 1)
      { s with hi := { s.hi with capNext := (s.hi.capNext + b.words.length) % 131072 } }
    else s
  else match (s.ring r).closed with
    | (n, b) :: rest => (s.setRing r { s.ring r with closed := rest }).writeBlock r n b desc
    | [] => s

/-- RING_BLOCK_WRITE (R400): the readers of rings 1 and 2 then find space (R402). -/
def execRingBlockWrite (r : Fin 6) (desc : BitVec 128) (s : State) : Host.Outcome State Fault Refusal :=
  done s (s.ringWrite r desc).drainLogs

/-- R401: the open blocks of a ring whose condition holds close, as far as the queue of 8 has room. -/
def State.closeOpen (s : State) (r : Nat) (p : Block → Bool) : State :=
  s.setRing r ((s.ring r).opened.foldl
    (fun q b => if p b && decide (q.closed.length < 8) then q.close b.unit else q) (s.ring r))

/-- R401: FLUSH µs after its first record an open block closes. -/
def State.flushTimeout (s : State) (r : Nat) : State :=
  s.closeOpen r fun b => decide (usTclk (s.get (HI_RING_CTL_FLUSH r)) ≤ s.since b.first)

/-- RING_FLUSH_TIMEOUT (R401). -/
def execRingFlushTimeout (r : Fin 6) (s : State) : Host.Outcome State Fault Refusal := done s (s.flushTimeout r)

/-- R401: a write of HI_FLUSH. -/
def State.flushRings (s : State) (v : Word) : State :=
  s.forEach (bitsOf (fieldOf v 5 0) 6) fun s r => s.closeOpen r fun _ => true

/-- RING_FLUSH_WRITE (R401): each ring whose bit is 1. -/
def execRingFlushWrite (v : Word) (s : State) : Host.Outcome State Fault Refusal :=
  hostDone s (s.flushRings v)

/-- R399: a write of TAIL, clamped to HEAD and HEAD + 2^SIZE. -/
def State.writeTail (s : State) (x : RingIx) (v : Word) : State :=
  let head := s.get (ringHead x)
  let d := (v.toNat + 2 ^ 32 - head) % 2 ^ 32
  let size := 2 ^ s.get (ringSize x)
  if 2 ^ 31 ≤ d then (s.set (ringTail x) head).clampNote (ringTail x).reg.addr
  else if size < d then (s.set (ringTail x) (head + size)).clampNote (ringTail x).reg.addr
  else s.set (ringTail x) v.toNat

/-- RING_TAIL_WRITE (R399). -/
def execRingTailWrite (ring : RingIx) (v : Word) (s : State) : Host.Outcome State Fault Refusal :=
  hostDone s (s.writeTail ring v)

/-- R400, R407, R414: a write of CTL. SIZE changes only while EN is 0; EN of a queue enters RUN or IDLE, leaving
ERROR. -/
def State.writeRingCtl (s : State) (x : RingIx) (v : Word) : State :=
  let size := fieldOf v 8 4
  let s := if s.on (ringEn x) then s else s.setClamped (ringSize x) size 4 16
  let was := s.on (ringEn x)
  let s := ((s.set (ringIall x) (fieldOf v 2 2)).set (ringWben x) (fieldOf v 1 1)).set (ringEn x) (fieldOf v 0 0)
  let on := s.on (ringEn x)
  match x with
  | .ring r => s.setClamped (HI_RING_CTL_FLUSH r) (fieldOf v 31 16) 1 65535
  | .vecQueue u =>
    let s := s.set (HI_QV_CTL_RETRY u) (fieldOf v 15 12)
    let s := if on != was then s.set (HI_QV_QSTAT_STATE u) (if on then 1 else 0) else s
    if on && !was then { s with hi := { s.hi with vqFails := vset s.hi.vqFails u 0 } } else s
  | .waveQueue u =>
    let s := s.set (HI_QW_CTL_RETRY u) (fieldOf v 15 12)
    let s := if on != was then s.set (HI_QW_QSTAT_STATE u) (if on then 1 else 0) else s
    if on && !was then { s with hi := { s.hi with wqFails := vset s.hi.wqFails u 0 } } else s

/-- RING_ENABLE (R400). -/
def execRingEnable (ring : RingIx) (v : Word) (s : State) : Host.Outcome State Fault Refusal :=
  hostDone s (s.writeRingCtl ring v).drainLogs

/-- R403: a write of HI_CAPRD_CTL. -/
def State.writeCaprd (s : State) (v : Word) : State :=
  let s := (s.set HI_CAPRD_CTL_GROUP (fieldOf v 21 17)).set HI_CAPRD_CTL_START (fieldOf v 16 0)
  if fieldOf v 31 31 = 1 ∧ s.get HI_CAPRD_STAT_STATE ≠ 1 then
    let s := (s.set HI_CAPRD_STAT_STATE 1).set HI_CAPRD_STAT_LEFT (s.get HI_CAPRD_CNT_COUNT)
    { s with hi := { s.hi with capGroup := s.get HI_CAPRD_CTL_GROUP, capNext := s.get HI_CAPRD_CTL_START } }
  else s

/-- CAPTURE_READOUT_GO (R403). -/
def execCaptureReadoutGo (v : Word) (s : State) : Host.Outcome State Fault Refusal := hostDone s (s.writeCaprd v)

/-! ### Resets of the endpoint (R391, R415) -/

/-- Records of the staged blocks of a ring: blocks closed and open. -/
def Ring.staged (r : Ring) : List Block := r.closed.map (·.2) ++ r.opened

/-- R391: the staged blocks are discarded and their records counted as dropped in the gap marker. -/
def Ring.flr (r : Ring) : Ring :=
  { opened := [], closed := [], bseq := 0, losing := false,
    lost := r.staged.foldl (fun l b =>
      let o := ((l.find? (·.1 == b.unit)).map (·.2)).getD (0, 0)
      l.filter (·.1 != b.unit) ++ [(b.unit, o.1 + b.recs, o.2 + b.words.length)]) r.lost }

/-- R415, R9: registers of [a, b) return to their Reset words, in both planes. -/
def State.restore (s : State) (a b : Nat) : State :=
  { s with live := s.sys.boot.foldl (fun f c => if a ≤ c.1 ∧ c.1 < b then f.put c.1 c.2 else f) (s.live.clearRange a b),
           staged := s.staged.clearRange a b }

/-- R391: the HI block and the MSI-X table return to their reset state. -/
def State.hiReset (s : State) : State :=
  let link := s.word HI_LINK
  let hi := { s.hi with rings := s.hi.rings.map Ring.flr, vqFails := Vector.replicate 32 0,
                        wqFails := Vector.replicate 32 0, capNext := 0, capGroup := 0, spi := none }
  ({ s with hi := hi }.restore 0x040000 0x060000).setWord HI_LINK link

/-- R423: n discarded events of a crossing are counted. -/
def State.crossingDrop (s : State) (xid n : Nat) : State :=
  (((s.count CK_XRESET_DROP_DROP n).flag CK_FLAGS_XRESET CK_CNT0_XRESET)).set CK_XRESET_LAST_XID xid

/-- FUNCTION_LEVEL_RESET (R391). -/
def execFunctionLevelReset (s : State) : Host.Outcome State Fault Refusal :=
  done s ((s.hiReset.raise CK_RSTCAUSE_FLR).crossingEnters 0)

/-- PERST_N (R415): the endpoint, its configuration space, the HI block and the MSI-X table. -/
def execPerstN (s : State) : Host.Outcome State Fault Refusal :=
  let s1 := (s.hiReset.set HI_LINK_WIDTH 0).set HI_LINK_GEN 0
  done s (({ s1 with hi := { s1.hi with perstN := false, bme := false, d3 := false } }.raise CK_RSTCAUSE_PERST).crossingEnters 0)

/-- PERST_N_RISE (R420): the endpoint answers configuration requests from 20 ms later. -/
def execPerstNRise (s : State) : Host.Outcome State Fault Refusal :=
  done s { s with hi := { s.hi with perstN := true, perstRise := s.time } }

/-- POWER_STATE_CHANGE (R390): D3hot and Bus Master Enable; only DMA follows them. -/
def execPowerStateChange (d3 bme : Bool) (s : State) : Host.Outcome State Fault Refusal :=
  done s { s with hi := { s.hi with d3 := d3, bme := bme } }

/-- LINK_CHANGE (R405): the link has trained, which it cannot under a boundary-scan instruction that drives it (R460). -/
def execLinkChange (width gen : BitVec 4) (s : State) : Host.Outcome State Fault Refusal :=
  let s1 := (s.set HI_LINK_WIDTH width.toNat).set HI_LINK_GEN gen.toNat
  let s1 := { s1 with hi := { s1.hi with lastLink := some (width.toNat, gen.toNat) } }
  doneIf (!s.sys.tap.drives) s (match s.hi.lastLink with
    | some l => if l = (width.toNat, gen.toNat) then s1 else s1.flag HI_FLAGS_LINKCHG HI_CNT1_LINKCHG
    | none => s1)

/-- PCIE_LINK_DOWN (R24): the link reads as down and DMA stops. -/
def execPcieLinkDown (s : State) : Host.Outcome State Fault Refusal :=
  done s ((s.set HI_LINK_WIDTH 0).set HI_LINK_GEN 0)

/-! ### Failed blocks of the host-to-device queues (R392, R407) -/

/-- R407: a fetch of the block at HEAD of a queue fails. -/
def State.blockFails (s : State) (wave : Bool) (u : Nat) : State :=
  let st := if wave then HI_QW_QSTAT_STATE u else HI_QV_QSTAT_STATE u
  let cf := if wave then HI_QW_QSTAT_CRCFAIL u else HI_QV_QSTAT_CRCFAIL u
  let retry := s.get (if wave then HI_QW_CTL_RETRY u else HI_QV_CTL_RETRY u)
  let n := (if wave then vget s.hi.wqFails u 0 else vget s.hi.vqFails u 0) + 1
  let s := { s with hi := if wave then { s.hi with wqFails := vset s.hi.wqFails u n }
                          else { s.hi with vqFails := vset s.hi.vqFails u n } }
  let s := (s.flag HI_FLAGS_RFCRC HI_CNT0_RFCRC).count cf 1
  if retry + 1 ≤ n then (s.set st 2).flag HI_FLAGS_RFERR HI_CNT0_RFERR else s

/-- CPL_TIMEOUT (R392): the read of a queue's block fails. -/
def execCplTimeout (w : Bool) (u : Fin 32) (s : State) : Host.Outcome State Fault Refusal :=
  doneIf (s.get (if w then HI_QW_QSTAT_STATE u else HI_QV_QSTAT_STATE u) == 1 &&
      decide (0 < s.posted (if w then .waveQueue u else .vecQueue u))) s
    ((s.flag HI_FLAGS_CPLTO HI_CNT2_CPLTO).blockFails w u)

/-! ### SMBus (R411) -/

/-- R411: the target answers from the end of boot step NVS. -/
def State.smbReady (s : State) : Bool := decide (2 ≤ s.get GL_STATUS_BOOT)

/-- A read-byte or read-word of a value; a NAK of the address before the target answers. -/
def State.smbRead (s : State) (word : Bool) (v : Nat) : State :=
  s.emit (.smbus (if s.smbReady then some (BitVec.ofNat 16 (if word then v else v % 256)) else none))

/-- SMB_TEMP. -/
def execSmbTemp (k : Fin 5) (word : Bool) (s : State) : Host.Outcome State Fault Refusal :=
  done s (s.smbRead word (s.get (TH_TEMP_TEMP k)))
/-- SMB_STATUS. -/
def execSmbStatus (word : Bool) (s : State) : Host.Outcome State Fault Refusal := done s (s.smbRead word s.smbStatus)
/-- Release ALERT_N, when the target answers. -/
def State.alertRelease (s : State) : State :=
  if s.smbReady then { s with hi := { s.hi with alertN := true } } else s
/-- SMB_ALERTCLR. -/
def execSmbAlertclr (word : Bool) (s : State) : Host.Outcome State Fault Refusal :=
  done s ((s.smbRead word s.smbStatus).alertRelease)
/-- SMB_VID. -/
def execSmbVid (word : Bool) (s : State) : Host.Outcome State Fault Refusal := done s (s.smbRead word (s.get HI_ID_VENDOR))
/-- SMB_DID. -/
def execSmbDid (word : Bool) (s : State) : Host.Outcome State Fault Refusal := done s (s.smbRead word (s.get HI_ID_DEVID))
/-- SMB_SVID. -/
def execSmbSvid (word : Bool) (s : State) : Host.Outcome State Fault Refusal :=
  done s (s.smbRead word (s.get HI_SUBID_SUBVEN))
/-- SMB_SSID. -/
def execSmbSsid (word : Bool) (s : State) : Host.Outcome State Fault Refusal :=
  done s (s.smbRead word (s.get HI_SUBID_SUBSYS))
/-- SMB_REVID. -/
def execSmbRevid (word : Bool) (s : State) : Host.Outcome State Fault Refusal := done s (s.smbRead word 0xB0)
/-- SMB_SERIAL: word i of the serial number of the NVS identity. -/
def execSmbSerial (i : Fin 4) (word : Bool) (s : State) : Host.Outcome State Fault Refusal :=
  done s (s.smbRead word (s.sys.serial.toNat / 2 ^ (16 * i.val) % 65536))
/-- SMB_UNLISTED. -/
def execSmbUnlisted (cmd : BitVec 8) (word : Bool) (s : State) : Host.Outcome State Fault Refusal :=
  let listed := decide (cmd.toNat ≤ 4) || [0x08, 0x09, 0x10, 0x11, 0x12, 0x13, 0x14].contains cmd.toNat
    || decide (0x18 ≤ cmd.toNat ∧ cmd.toNat ≤ 0x1B)
  doneIf (!listed) s (s.smbRead word 0xFFFF)
/-- SMB_ALERT_RESPONSE: a target that holds ALERT_N low answers with its address and releases it. -/
def execSmbAlertResponse (s : State) : Host.Outcome State Fault Refusal :=
  doneIf (!s.hi.alertN) s ((s.smbRead false (2 * s.get HI_SMB_ADDR)).alertRelease)

/-! ### SPI (R413) -/

/-- Byte k of the SPI data registers. -/
def State.spiByte (s : State) (k : Nat) : Byte :=
  BitVec.ofNat 8 ((if k < 4 then s.get HI_SPI_D0_D0 else s.get HI_SPI_D1_D1) / 2 ^ (8 * (k % 4)))

def State.setSpiByte (s : State) (k : Nat) (b : Byte) : State :=
  let x := if k < 4 then HI_SPI_D0 else HI_SPI_D1
  s.set ⟨x, 8 * (k % 4) + 7, 8 * (k % 4)⟩ b.toNat

/-- R413: a write of HI_SPI_CTL. -/
def State.writeSpiCtl (s : State) (v : Word) : State :=
  let s := s.setClamped HI_SPI_CTL_NDATA (fieldOf v 27 24) 0 8
  let s := ((s.set HI_SPI_CTL_ADDREN (fieldOf v 9 9)).set HI_SPI_CTL_READ (fieldOf v 8 8)).set HI_SPI_CTL_CMD (fieldOf v 7 0)
  if fieldOf v 31 31 = 1 ∧ !s.on HI_SPI_CTL_BUSY ∧ s.get MC_STAT_STATE ≠ 1 then
    let n := s.get HI_SPI_CTL_NDATA
    let rd := s.on HI_SPI_CTL_READ
    let a := s.get HI_SPI_ADDR_ADDR
    let sent := [BitVec.ofNat 8 (s.get HI_SPI_CTL_CMD)]
      ++ (if s.on HI_SPI_CTL_ADDREN then [BitVec.ofNat 8 (a / 65536), BitVec.ofNat 8 (a / 256), BitVec.ofNat 8 a] else [])
      ++ (if rd then [] else (List.range n).map s.spiByte)
    { (s.set HI_SPI_CTL_BUSY 1).emit (.spi sent) with hi := { s.hi with spi := some (n, rd) } }
  else s

/-- SPI_GO (R413). -/
def execSpiGo (v : Word) (s : State) : Host.Outcome State Fault Refusal := hostDone s (s.writeSpiCtl v)

/-- SPI_DONE (R413): the transaction ends; read bytes are stored. -/
def execSpiDone (rd : List (BitVec 8)) (s : State) : Host.Outcome State Fault Refusal :=
  done s (match s.hi.spi with
    | some (n, read) =>
      let s := if read then s.forEach (List.range n) fun s k => s.setSpiByte k (rd.getD k 0xFF) else s
      { s.set HI_SPI_CTL_BUSY 0 with hi := { s.hi with spi := none } }
    | none => s)

end Sys2Proof.Machine
end

