-- ==== Sys2Proof/Machine/Deskew.lean ====
section
/-! DEFINITION. Chapter 03: internal deskew and board deskew by TDR. -/

namespace Sys2Proof.Machine

def dskRunning : Nat := 1
def dskDone : Nat := 2
def dskRefused : Nat := 3
def dskError : Nat := 4

/-- R84: a context of the group's engine, or of its gang, is running. -/
def State.engineBusy (s : State) (g : Nat) : Bool := (s.members g).any fun e => (s.running e).isSome

/-- R84, R85: internal deskew starts. With MODE = 0 the drive-path phase begins at an instant that leaves its 8,192 edges
inside the 20 ms of R84; the spec does not fix it. -/
def State.dskStart (s : State) (g : Nat) (comparePath : Bool) (ls : Nat) : State :=
  let r := s.within 1 (usTclk 11808)
  let s := r.1.set (TG_DSK_STAT_STATE g) dskRunning
  let d : DskRun := { start := s.time, comparePath := comparePath, ls := ls, driveAt := later s.time r.2.toNat, driving := false }
  ((s.setGroup g { s.group g with dsk := some d }).rearmGroup g).parkGroup g

/-- R84, R374: a write of TG_DSK_CTL. A refused RUN changes no other register, and one while a run is in progress has no
effect. -/
def State.writeDsk (s : State) (g : Nat) (v : Word) : State :=
  let mode := fieldOf v 1 1 == 1
  let store := (s.set (TG_DSK_CTL_LS g) (fieldOf v 4 2)).set (TG_DSK_CTL_MODE g) (fieldOf v 1 1)
  if fieldOf v 0 0 = 0 then store
  else if s.engineBusy g || (s.role == roleShadow && !mode) then s.set (TG_DSK_STAT_STATE g) dskRefused
  else if s.get (TG_DSK_STAT_STATE g) = dskRunning then s
  else store.dskStart g mode (fieldOf v 4 2)

/-- DSK_RUN (R84). -/
def execDskRun (g : GroupIx) (v : Word) (s : State) : Host.Outcome State Fault Refusal := hostDone s (s.writeDsk g v)

/-- R85: the drive-path phase begins: the comparators return to the ball, and the drivers take DL and DH of LS on the
channels that no other cause holds in PARK. -/
def State.dskDrive (s : State) (g : Nat) (d : DskRun) : State :=
  let s := ((s.setGroup g { s.group g with dsk := some { d with driving := true } }).rearmGroup g).retargetGroup g
  s.forEach (List.range 16) fun s p => if s.parked g p && !s.parkCause g p then s.leavePark g p s.time else s

/-- R85: the instant of the drive-path phase has come. -/
def State.dskTclk (s : State) (g : Nat) : State :=
  match (s.group g).dsk with
  | some d => if !d.comparePath && !d.driving && reached s.time d.driveAt then s.dskDrive g d else s
  | none => s

/-- R72, R86: the results of a channel keep the deskew range. -/
def State.dskFits (s : State) (g p : Nat) (dc dd : Int) : Bool :=
  let b : Int := s.get (TG_DSKB_BOARD g p)
  decide (0 ≤ dc ∧ dc + b ≤ 40960 ∧ 0 ≤ dd ∧ dd + b ≤ 40960)

/-- R84, R89: DC_INT from the measured arrival: less the delay of the reference tree to the ball, and in mode IN less that
from CAL_EXT to the tree, which then carries the external edge. -/
def State.dskCompareDelay (s : State) (g p : Nat) (m : DskMeas) : Int :=
  m.arrival - Config.treeDelay s.sys.cal (s.physChan (16 * g + p)) - (if s.sys.calExt then Config.calExtDelay s.sys.cal else 0)

/-- R86: a path was measured: enough edges, and a spread of at most 8 ticks rms. -/
def dskSeen (edges spread : Nat) : Bool := decide (Config.dskMinEdges ≤ edges ∧ spread ≤ 128)

/-- R86: DC_INT and DD_INT of a channel whose measurement passed; with MODE = 1, DD_INT keeps its value. -/
def State.dskResult (s : State) (g p : Nat) (comparePath : Bool) (m : DskMeas) : Option (Nat × Nat) :=
  let dc := s.dskCompareDelay g p m
  let dd : Int := if comparePath then s.get (TG_DSKI_DD_INT g p) else m.loop - dc
  if dskSeen m.edges m.spread && (comparePath || dskSeen m.loopEdges m.loopSpread) && s.dskFits g p dc dd then
    some (dc.toNat, dd.toNat)
  else none

/-- R86: the run ends. -/
def State.dskEnd (s : State) (g : Nat) (d : DskRun) (res : List DskMeas) (temp : Nat) : State :=
  let s := s.forEach (List.range 16) fun s p =>
    match (res[p]?).bind (s.dskResult g p d.comparePath) with
    | some (dc, dd) =>
      ((s.set (TG_DSKI_DC_INT g p) dc).set (TG_DSKI_DD_INT g p) dd).setBit (TG_DSK_STAT_FAILMAP g) p false
    | none => s.setBit (TG_DSK_STAT_FAILMAP g) p true
  let s := s.set (TG_DSK_TEMP_TEMP g) temp
  let s := if s.get (TG_DSK_STAT_FAILMAP g) = 0 then s.set (TG_DSK_STAT_STATE g) dskDone
    else (s.set (TG_DSK_STAT_STATE g) dskError).flag (TG_FLAGS_DSK_ERR g) (TG_CNT1_DSK_ERR g)
  let s := s.setGroup g { s.group g with dsk := none }
  ((if d.comparePath then s.rearmGroup g else s).retargetGroup g).parkGroup g

/-- R85: with MODE = 0 the 8,192 edges of the drive-path phase have been launched. -/
def State.dskOver (s : State) (d : DskRun) : Bool :=
  d.comparePath || (d.driving && decide (usTclk 8191 ≤ s.since d.driveAt))

/-- DSK_COMPLETE (R86): what each channel's TDC measured, by position. -/
def execDskComplete (g : GroupIx) (res : List DskMeas) (temp : BitVec 16) (s : State) : Host.Outcome State Fault Refusal :=
  done s (match (s.group g).dsk with
    | some d => if s.dskOver d then s.dskEnd g d res temp.toNat else s
    | none => s)

/-- R87: a write of TG_TDR_CTL, under the refusal and no-effect rules of R84. A run of TDR and one of internal deskew do
not exclude each other (log entry 142). -/
def State.writeTdr (s : State) (g : Nat) (v : Word) : State :=
  let store := ((s.set (TG_TDR_CTL_POL g) (fieldOf v 11 11)).set (TG_TDR_CTL_LS g) (fieldOf v 10 8)).setClamped
    (TG_TDR_CTL_REPS g) (fieldOf v 7 4) 0 12
  let store := store.set (TG_TDR_CTL_CH g) (fieldOf v 3 0)
  if fieldOf v 31 31 = 0 then store
  else if s.engineBusy g || s.role == roleShadow then s.set (TG_TDR_STAT_STATE g) dskRefused
  else if s.get (TG_TDR_STAT_STATE g) = dskRunning then s
  else
    let s := store.set (TG_TDR_STAT_STATE g) dskRunning
    let r : TdrRun := { start := s.time, ch := fieldOf v 3 0, ls := fieldOf v 10 8, pol := fieldOf v 11 11 == 1
                        reps := s.get (TG_TDR_CTL_REPS g) }
    ((s.setGroup g { s.group g with tdr := some r }).retargetChan g r.ch).parkGroup g

/-- TDR_RUN (R87). -/
def execTdrRun (g : GroupIx) (v : Word) (s : State) : Host.Outcome State Fault Refusal := hostDone s (s.writeTdr g v)

/-- R88: the round trip of a repetition that is valid, from its launch and its reflection stamps. -/
def tdrTrip (r : List (BitVec 66) × List (BitVec 66)) : Option Nat :=
  match r with
  | ([a], [b]) => if (b - a).toNat ≤ 65535 then some (b - a).toNat else none
  | _ => none

/-- The greatest number whose square is at most x, below 2^32. -/
def isqrt (x : Nat) : Nat :=
  (List.range 32).foldl (fun r i => let c := r + 2 ^ (31 - i); if c * c ≤ x then c else r) 0

/-- R88: the mean in 1/16 tick; where it is not whole the spec states no rounding. -/
def State.tdrMean (s : State) (l : List Nat) : State × Nat :=
  let r := s.quotient (16 * (l.foldl (· + ·) 0 : Nat)) l.length
  (r.1, r.2.toNat)

/-- R88: the rms spread about the mean in 1/16 tick, saturating; where it is not whole the spec states no rounding. -/
def State.tdrSpread (s : State) (l : List Nat) : State × Nat :=
  let n := l.length
  let sum := l.foldl (· + ·) 0
  let v := 256 * (n * (l.map fun x => x * x).foldl (· + ·) 0 - sum * sum)
  let q := isqrt (v / (n * n))
  if q * q * (n * n) = v then (s, min q 65535)
  else (s.burn, min (q + (if s.fresh.getLsbD 0 then 1 else 0)) 65535)

/-- R88: the run ends, with the stamps of its repetitions. A run with no valid repetition leaves TG_TDR_SPREAD as it is (log
entry 143). -/
def State.tdrEnd (s : State) (g : Nat) (r : TdrRun) (reps : List (List (BitVec 66) × List (BitVec 66))) : State :=
  let l := reps.filterMap tdrTrip
  let s := s.set (TG_TDR_STAT_VALID g) l.length
  let s := if l.isEmpty then
      (((s.set (TG_TDR_STAT_STATE g) dskError).set (TG_TDR_RES_RT g) 0).flag (TG_FLAGS_NO_REFL g) (TG_CNT2_NO_REFL g))
    else
      let m := s.tdrMean l
      let d := m.1.tdrSpread l
      ((d.1.set (TG_TDR_STAT_STATE g) dskDone).set (TG_TDR_RES_RT g) m.2).set (TG_TDR_SPREAD_SPREAD g) d.2
  ((s.setGroup g { s.group g with tdr := none }).retargetChan g r.ch).parkGroup g

/-- R88: n repetitions, with the launch and the reflection stamps that each yielded. -/
def tdrReps (n : Nat) (launches reflections : List (List (BitVec 66))) : List (List (BitVec 66) × List (BitVec 66)) :=
  (List.range n).map fun k => (launches.getD k [], reflections.getD k [])

/-- TDR_COMPLETE (R88): 2^REPS repetitions, one every 1 µs. -/
def execTdrComplete (g : GroupIx) (n : Nat) (launches reflections : List (List (BitVec 66))) (s : State) :
    Host.Outcome State Fault Refusal :=
  done s (match (s.group g).tdr with
    | some r =>
      if n = 2 ^ r.reps ∧ usTclk (2 ^ r.reps) ≤ s.since r.start then s.tdrEnd g r (tdrReps n launches reflections) else s
    | none => s)

end Sys2Proof.Machine
end

