-- ==== Sys2Proof/Machine/Tdc.lean ====
section
/-! DEFINITION. Chapter 06: time-to-digital conversion, measurement windows, background calibration and frequency
regression. -/

namespace Sys2Proof.Machine

/-! ### Conversion (R147, R148) -/

def State.tdc (s : State) (g p : Nat) : Tdc := (s.chan g p).tdc
def State.setTdc (s : State) (g p : Nat) (x : Tdc) : State := s.setChan g p { s.chan g p with tdc := x }

/-- Width of a bin; the factory table is uniform. -/
def binWidth (t : Option (List Nat)) (r : Nat) : Nat :=
  match t with
  | some l => l.getD r 0
  | none => 128

/-- C_r (R148). -/
def binStart (t : Option (List Nat)) (r : Nat) : Nat := ((List.range r).map (binWidth t)).foldl (· + ·) 0

def State.lineB (s : State) (g p : Nat) : Bool := s.bit (TD_CAL_STAT_ACTIVE g) p

/-- R159: the swap instants of a group. -/
def State.swapInstant (s : State) (g : Nat) (t : Time) : Bool :=
  decide (t.toNat % 2 ^ (30 + s.get (TD_CAL_CTL_SWSH g)) = 0) && !s.on (TD_CAL_CTL_FREEZE g)

/-- R159: the line that converts a stop of TCLK c: the one before a swap at s for c < s, and the one after it from s on,
whether the swap of that TCLK has been taken or not. -/
def State.lineAt (s : State) (g p : Nat) (c : Time) : Bool :=
  let t := s.tdc g p
  let old := match t.swapAt with
    | some w => !reached c w
    | none => false
  let new := c == s.time && s.swapInstant g c && t.passDone && t.swapAt != some c
  s.lineB g p != (old || new)

/-- Table and shift of the line that converts a stop of TCLK c. -/
def State.lineOf (s : State) (g p : Nat) (c : Time) : Option (List Nat) × Int :=
  let t := s.tdc g p
  if s.lineAt g p c then (t.tabB, t.shiftB) else (t.tabA, t.shiftA)

/-- R148: position, then time to the nearest tick, a half rounding up, before Dc is subtracted. -/
def convertTick (t : Option (List Nat)) (a : Int) (c : Time) (r : Nat) : Tick :=
  let p : Int := 65536 * (c.toNat : Int) + binStart t r + (binWidth t r / 2 : Nat) + a
  BitVec.ofInt 66 ((p + 32) / 64)

/-! ### Qualifying transitions (R149) -/

/-- Levels 0 = L, 1 = M, 2 = H. -/
def risingEdge (l0 l1 : Nat) : Bool := decide (l0 < l1)

def qualifies (slope level l0 l1 : Nat) : Bool :=
  l0 != l1 && (if slope = 0 then risingEdge l0 l1 else if slope = 1 then !risingEdge l0 l1 else true)
    && (if level = 0 then l0 == 2 || l1 == 2 else if level = 1 then l0 == 0 || l1 == 0 else true)

/-! ### Windows (R151 to R156) -/

def winEw : Nat := 0
def winEc : Nat := 1
def winFg : Nat := 2
def winCmp : Nat := 3

/-- P_min of R156: the shortest period among the timing sets in use. -/
def State.minPeriod (s : State) (g : Nat) : Nat :=
  ((List.range 32).filter fun n => s.tsInUse g n == n).foldl (fun m n => min m (s.get (TG_TS_PER_PER g n))) (2 ^ 32)

/-- The settings of TD_CH_p now live. -/
def State.winSettings (s : State) (g p : Nat) (w : Win) : Win :=
  { w with slope := s.get (TD_CH_SLOPE g p), level := s.get (TD_CH_LEVEL g p), limit := s.get (TD_CH_LIMIT g p) + 1 }

def Win.make (start stop zero : Tick) (t3 dc kind iv : Nat) (external : Bool) (ctx : Option Nat) : Win :=
  { start := start, stop := stop, kind := kind, external := external, zero := zero, t3 := t3, dc := dc, opened := false, iv := iv,
    slope := 0, level := 0, limit := 1, stamps := [], refused := false, closed := false, ctx := ctx, dead := false }

/-- R151: a vector that needs a window on a channel with EN = 0 counts once. -/
def State.noteNoen (s : State) (g : Nat) (b : Tick) : State :=
  if (s.group g).noen.contains b then s
  else (s.setGroup g { s.group g with noen := (b :: (s.group g).noen).take 64 }).flag (TD_FLAGS_NOEN g) (TD_CNT1_NOEN g)

/-- R156: on a channel of MASK the start of a window lies too close after that of the one before. -/
def State.winClose (s : State) (g p : Nat) (w : Win) : Bool :=
  s.bit (TD_XWIN_CTL_MASK g) p && match (s.tdc g p).lastWin with
    | some t => !tickReached w.start (t + BitVec.ofNat 66 (s.minPeriod g))
    | none => false

/-- R151, R153, R156: window i of a channel opens at its start under the settings then in force, or is not opened. -/
def State.startWin (s : State) (g p i : Nat) (w : Win) : State :=
  let c := s.chan g p
  let drop := s.setChan g p { c with wins := c.wins.eraseIdx i }
  if !s.on (TD_CH_EN g p) then
    (if w.kind = winCmp ∨ w.external then drop else drop.noteNoen g (w.zero - BitVec.ofNat 66 zOffset))
  else if w.kind = winCmp ∧ !s.on (TD_CH_CMPW g p) then drop
  else if s.winClose g p w then drop.flag (TD_FLAGS_WIN_SPACE g) (TD_CNT1_WIN_SPACE g)
  else
    s.setChan g p { c with wins := c.wins.set i { s.winSettings g p w with opened := true }
                           tdc := { c.tdc with lastWin := some w.start } }

/-- The first window of a channel that is still to open and whose start lies in a TCLK up to t. -/
def dueWin (l : List Win) (t : Time) : Option Nat := l.findIdx? fun w => !w.opened && reached t (tclkOf w.start)

/-- The windows of a channel whose start has come by TCLK t open, in order; at most n of them. -/
def State.openWins (s : State) (g p : Nat) (t : Time) : Nat → State
  | 0 => s
  | n + 1 => match dueWin (s.chan g p).wins t with
    | some i => match (s.chan g p).wins[i]? with
      | some w => (s.startWin g p i w).openWins g p t n
      | none => s
    | none => s

/-- Every window of a channel whose start has come by TCLK t has opened. -/
def State.openDue (s : State) (g p : Nat) (t : Time) : State := s.openWins g p t (s.chan g p).wins.length

/-- R153: the windows that started in the TCLK before have opened, on every channel of a group; what acts in a TCLK acts on
the windows that start in it. -/
def State.winTclk (s : State) (g : Nat) : State :=
  if (s.group g).chans.toList.any fun c => (dueWin c.wins (s.time - 1)).isSome then
    s.forEach (List.range 16) fun s p => s.openDue g p (s.time - 1)
  else s

/-- Window kind of a pin code (R151). -/
def codeKind (code : Nat) : Option Nat :=
  if code = 9 then some winEw else if code = 10 then some winEc else if code = 11 then some winFg
  else if compareCode code then some winCmp else none

/-- R151, R152: the windows to come of a vector of context `ctx` that begins at B in interval `iv`. -/
def State.vectorWindows (s : State) (g iv ctx : Nat) (b : Tick) (forms : List ChanForm) : State :=
  s.forEach (List.range 16) fun s p =>
    let f := formOf forms p
    match codeKind f.code with
    | some k =>
      let z := b + BitVec.ofNat 66 zOffset
      let c := s.chan g p
      s.setChan g p { c with wins := c.wins ++
        [Win.make (z + BitVec.ofNat 66 f.t3) (z + BitVec.ofNat 66 f.t4) z f.t3 f.dc k iv false (some ctx)] }
    | none => s

/-- The number of the open interval of a group. -/
def State.openIv (s : State) (g : Nat) : Nat := ((s.group g).ivs.head?.map (·.id)).getD 0

/-- R71, R86: the total compare deskew of a channel in force: that of the vector in progress, or the live one before any
vector. -/
def State.deskewIn (s : State) (g p : Nat) : Nat :=
  match (s.group g).cur with
  | some v => (formOf v.forms p).dc
  | none => s.deskewCompare g p

/-- R156: external windows open on the channels of MASK. -/
def State.externalWindows (s : State) (g : Nat) : State :=
  let t := tickOf s.time
  let kind := s.get (TD_XWIN_CTL_KIND g)
  let kind := if kind = 3 then winEw else kind
  s.forEach (bitsOf (s.get (TD_XWIN_CTL_MASK g)) 16) fun s p =>
    let s := s.openDue g p (s.time - 1)
    let c := s.chan g p
    let w := Win.make t (t + BitVec.ofNat 66 (s.get (TD_XWIN_LEN_LEN g) - 1)) t 0 (s.deskewIn g p) kind (s.openIv g) true none
    (s.setChan g p { c with wins := c.wins ++ [w] }).startWin g p c.wins.length w

/-- R156: the source of external windows fires in this TCLK. -/
def State.xwinDue (s : State) (g : Nat) : Bool :=
  match s.get (TD_XWIN_CTL_SRC g) with
  | 1 => vget s.slotAt (s.get (TD_XWIN_CTL_SLOT g)) none == some s.time
  | 2 => s.time.toNat % 2 ^ (10 + s.get (TD_XWIN_CTL_REFSH g)) == 0
  | _ => false

/-- XWIN_OPEN (R156). -/
def execXwinOpen (g : GroupIx) (s : State) : Host.Outcome State Fault Refusal := doneIf (s.xwinDue g) s (s.externalWindows g)

/-! ### Regression accumulators (R167, R168) -/

/-- The open gate of a group. -/
def State.gate (s : State) (g : Nat) : Option Gate := (s.group g).gates.find? (·.stop.isNone)

/-- R169: T lies in a gate: at or after its start and before its end. -/
def Gate.holds (x : Gate) (t : Tick) : Bool :=
  tickReached t (tickOf x.start) && (match x.stop with
    | some e => !tickReached t (tickOf e)
    | none => true)

/-- The number, in the list of gates, of the one that a time T belongs to. -/
def State.gateOf (s : State) (g : Nat) (t : Tick) : Option Nat := (s.group g).gates.findIdx? (·.holds t)

/-- The accumulators of a source in gate i are changed. -/
def State.mapAcc (s : State) (g i src : Nat) (f : FqAcc → FqAcc) : State :=
  s.setGroup g { s.group g with gates := (s.group g).gates.modify i fun x =>
    { x with acc := vset x.acc src (f (vget x.acc src .empty)) } }

/-- A sample (i, t) enters the accumulators. -/
def FqAcc.add (a : FqAcc) (i : Nat) (t : Int) : FqAcc :=
  { a with n := a.n + 1, si := a.si + i, sii := a.sii + i * i, st := a.st + t, sit := a.sit + i * t }

/-- Divisor of a source (R168, R170): its prescaler, times the fixed divider of the aging oscillator. -/
def State.fqPresc (s : State) (g src : Nat) : Nat := if src = 16 then s.get (FQ_AGE_PRESC g) + 1 else s.get (FQ_CH_PRESC g src) + 1
def State.fqDivisor (s : State) (g src : Nat) : Nat :=
  if src = 16 then (if s.get (FQ_AGE_SEL g) = 2 then 4096 else 256) * s.fqPresc g 16 else s.fqPresc g src

/-- R168: a qualifying transition at time t is counted in the gate it belongs to: that gate and the index of a prescaled
edge. -/
def State.prescale (s : State) (g src : Nat) (t : Tick) : State × Option (Nat × Nat) :=
  match s.gateOf g t with
  | none => (s, none)
  | some i =>
    let k := ((((s.group g).gates[i]?).map fun x => (vget x.acc src .empty).k).getD 0) + 1
    let d := s.fqPresc g src
    (s.mapAcc g i src fun a => { a with k := k }, if k % d = 0 then some (i, k / d) else none)

/-- R168: a converted prescaled edge enters the accumulators of its gate, t counted from the gate's start. -/
def State.fqSample (s : State) (g src i k : Nat) (t : Tick) : State :=
  match (s.group g).gates[i]? with
  | some x => s.mapAcc g i src fun a => a.add k (t - tickOf x.start).toInt
  | none => s

/-! ### Stops (R149 to R154) -/

/-- A lost stop (R150, R153); in an FG window a prescaled edge of gate `i`. -/
def State.stopLost (s : State) (g p : Nat) (w : Win) (edge : Option (Nat × Nat)) : State :=
  let s := (s.count (TD_LOST_LOST g p) 1).raise (TD_FLAGS_STOP_LOST g)
  let s := match w.kind == winFg, edge with
    | true, some (i, _) => s.mapAcc g i p fun a => { a with loss := true }
    | _, _ => s
  if w.dead then s else s.sumFlag g p w.iv 6

/-- Stamps of a channel in its FIFO (R155). -/
def fifoCount (l : List Win) : Nat := (l.map (·.stamps.length)).foldl (· + ·) 0

/-- Replace a window of a channel. -/
def State.putWin (s : State) (g p : Nat) (i : Nat) (w : Win) : State :=
  let c := s.chan g p
  s.setChan g p { c with wins := c.wins.set i w }

/-- The window of a channel that contains an arrival, less the window's own deskew; the oldest of several. -/
def winIndex (l : List Win) (time : Win → Tick) : Option Nat :=
  l.findIdx? fun w => w.opened && !w.closed && decide ((time w - w.start).toNat ≤ (w.stop - w.start).toNat)

/-- R150, R153, R168: a stop at time T (arrival `raw`) in window i. -/
def State.stopInWindow (s : State) (g p i : Nat) (w : Win) (raw t : Tick) (pol : Bool) (edge : Option (Nat × Nat)) : State :=
  if w.kind = winFg ∧ edge.isNone then s
  else
    let dead := match (s.tdc g p).lastStop with
      | some l => !tickReached raw (l + 1024)
      | none => false
    if dead then s.stopLost g p w edge
    else if w.limit ≤ w.stamps.length ∨ 64 ≤ fifoCount (s.chan g p).wins then
      (s.putWin g p i { w with refused := true }).stopLost g p w edge
    else
      let s := s.putWin g p i { w with stamps := w.stamps ++ [(t, pol)] }
      let s := s.setTdc g p { s.tdc g p with lastStop := some raw }
      match w.kind == winFg, edge with
      | true, some (n, k) => s.fqSample g p n k t
      | _, _ => s

/-- A return-lane transition from level l0 to l1 in TCLK c with raw code r. -/
def State.tdcStop (s : State) (g p : Nat) (c : Time) (r l0 l1 : Nat) : State :=
  let sampled := s.cmpMode g p == modeSampled
  let (tab, a) := s.lineOf g p c
  let raw := if sampled then tickOf c else convertTick tab a c r
  let less := fun (d : Nat) => if sampled then raw else raw - BitVec.ofNat 66 d
  let s := s.openDue g p s.time
  let i := winIndex (s.chan g p).wins fun w => less w.dc
  let w := i.bind fun i => (s.chan g p).wins[i]?
  let w0 := w.getD (s.winSettings g p (Win.make 0 0 0 0 (s.deskewIn g p) winCmp 0 false none))
  let t := less w0.dc
  if !qualifies w0.slope w0.level l0 l1 then s
  else
    let (s, edge) := s.prescale g p t
    match i, w with
    | some i, some w => s.stopInWindow g p i w raw t (risingEdge l0 l1) edge
    | _, _ => s

/-- The oldest transition from l0 to l1 that the return lane has carried in TCLK c and that the TDC has not seen: its number
in the log (R149). -/
def laneStop (l : List LaneEntry) (c : Time) (l0 l1 : Lane) : Option Nat :=
  (List.range l.length).reverse.find? fun i => match l[i]?, l[i + 1]? with
    | some e, some d => e.edge && tclkOf e.at_ == c && d.lane == l0 && e.lane == l1
    | _, _ => false

/-- The TDC has seen entry i of the log. -/
def State.laneSeenBy (s : State) (g p i : Nat) : State :=
  let c := (s.chan g p).cmp
  s.setCmp g p { c with log := c.log.modify i fun e => { e with edge := false } }

/-- R172: an edge of the aging oscillator, quantised to one FCLK on a channel die. -/
def State.agingStop (s : State) (g : Nat) (c : Time) (r : Nat) : State :=
  let sel := s.get (FQ_AGE_SEL g)
  let t := tickOf c + BitVec.ofNat 66 (2 * r)
  let t := if sel = 2 then BitVec.ofNat 66 (t.toNat / 4096 * 4096) else t
  let ready := match (s.gateOf g t).bind fun i => (s.group g).gates[i]? with
    | some x => [1, 3, 5, 7, 2].contains (g % 8) || decide (usTclk 100 ≤ (c - x.start).toNat)
    | none => false
  if (sel == 1 || sel == 2) && ready then
    let (s, edge) := s.prescale g 16 t
    match edge with
    | some (i, k) => s.fqSample g 16 i k t
    | none => s
  else s

/-- R169: the divisors of the sources as the gate ends. -/
def State.fqDivisors (s : State) (g : Nat) : List Nat := (List.range 17).map (s.fqDivisor g)

/-- R169: a gate starts in TCLK t. -/
def State.gateStartAt (s : State) (g : Nat) (t : Time) : State :=
  if (s.gate g).isSome then s
  else
    let s := (s.set (FQ_STAT_OPEN g) 1).incr (FQ_STAT_GSEQ g)
    let x : Gate := { start := t, stop := none, acc := Vector.replicate 17 .empty, divs := [], abort := false
                      gseq := s.get (FQ_STAT_GSEQ g), left := [] }
    (s.setGroup g { s.group g with gates := x :: (s.group g).gates }).setTime (FQ_GSTART_LO_T_LO g) (FQ_GSTART_HI_T_HI g) t

/-- R169: the open gate ends in TCLK t; with REPEAT the next one starts there. -/
def State.gateStopAt (s : State) (g : Nat) (abort : Bool) (t : Time) : State :=
  if (s.gate g).isNone then s
  else
    let s := (s.setGroup g { s.group g with gates := (s.group g).gates.map fun x =>
      if x.stop.isNone then { x with stop := some t, divs := s.fqDivisors g, abort := abort, left := List.range 17 } else x }).set
        (FQ_STAT_OPEN g) 0
    if s.on (FQ_CTL_REPEAT g) then s.gateStartAt g t else s

/-- R169: an open gate whose FQ_GATE µs have passed ends at exactly that TCLK; at most n gates in a row. -/
def State.gateDue (s : State) (g : Nat) : Nat → State
  | 0 => s
  | n + 1 => match s.gate g with
    | some x =>
      let e := later x.start (usTclk (s.get (FQ_GATE_GATE g)))
      if reached s.time e then (s.gateStopAt g false e).gateDue g n else s
    | none => s

/-- The gates of a group stand as this TCLK finds them: a gate lasts at least 1 µs. -/
def State.gateNow (s : State) (g : Nat) : State := match s.gate g with
  | some x => s.gateDue g (s.since x.start / 1600 + 1)
  | none => s

/-- R169: a gate starts now. -/
def State.gateStart (s : State) (g : Nat) : State := (s.gateNow g).gateStartAt g s.time

/-- R169: the open gate ends now. -/
def State.gateStop (s : State) (g : Nat) (abort : Bool) : State := (s.gateNow g).gateStopAt g abort s.time

/-- TDC_STOP (R150): a transition of the return lane from l0 to l1 in TCLK c stops the TDC at raw code r; position
16 is the aging oscillator of the group, of which a rise counts. What the lane carries while VALID is 0 or in self-check is no transition (R143, R149). -/
def execTdcStop (g : GroupIx) (p : Fin 17) (c : Time) (r : Fin 512) (l0 l1 : Lane) (s : State) :
    Host.Outcome State Fault Refusal :=
  if p.val = 16 then doneIf (l0 != .high && l1 == .high) s ((s.gateNow g).agingStop g c r)
  else done s (match laneStop (s.chan g p).cmp.log c l0 l1 with
    | some i => ((s.laneSeenBy g p i).gateNow g).tdcStop g p c r l0.code l1.code
    | none => s)

/-- R82, R153: the TCLK in which a window has closed at the compare logic. -/
def Win.closeAt (w : Win) : Time := tclkOf (w.stop + BitVec.ofNat 66 w.dc + 1024)

/-- R153, R243: a window closes. One with no stop produces nothing. -/
def State.closeWin (s : State) (g p i : Nat) (w : Win) : State :=
  if w.stamps.isEmpty then s.setChan g p { s.chan g p with wins := (s.chan g p).wins.eraseIdx i }
  else s.putWin g p i { w with closed := true, ctx := if w.external then s.running (s.leader g) else w.ctx }

/-- WINDOW_CLOSE (R153): the oldest window of the channel whose last tick has passed. -/
def execWindowClose (g : GroupIx) (p : Pos) (s : State) : Host.Outcome State Fault Refusal :=
  let s1 := s.openDue g p s.time
  let l := (s1.chan g p).wins
  done s (match l.findIdx? fun w => w.opened && !w.closed && reached s.time w.closeAt with
    | some i => match l[i]? with
      | some w => s1.closeWin g p i w
      | none => s
    | none => s)

/-! ### Background calibration (R157 to R162) -/

/-- R158: the widths of a pass. -/
def passTable (hits : List Nat) : List Nat :=
  let n := hits.foldl (· + ·) 0
  let cum := fun r => (hits.take r).foldl (· + ·) 0
  (List.range 512).map fun r => 65536 * cum (r + 1) / n - 65536 * cum r / n

/-- R158: the hit counts are those of a pass, and lie within the bounds. -/
def passCounts (n : Nat) (hits : List Nat) : Bool := hits.length == 512 && hits.foldl (· + ·) 0 == n
def passGood (n : Nat) (hits : List Nat) : Bool := hits.all fun h => decide (n ≤ 4096 * h ∧ 128 * h ≤ n)

/-- R158: m, the mean position of the reference edges with a table and A = 0, in 1/64 tick; the spec states no rounding. -/
def State.refMean (s : State) (tab : List Nat) (refs : List (Fin 512)) : State × Int :=
  s.quotient ((refs.map fun r => binStart (some tab) r + binWidth (some tab) r / 2).foldl (· + ·) 0 : Nat) refs.length

/-- R158: the end of a pass on the standby line; the next begins. -/
def State.passEnd (s : State) (g p : Nat) (hits : List Nat) (refs : List (Fin 512)) : State :=
  let t := { s.tdc g p with passAt := s.time, passN := 20 + s.get (TD_CAL_CTL_CALN g) }
  if passGood (2 ^ (s.tdc g p).passN) hits then
    let tab := passTable hits
    let m := s.refMean tab refs
    let a := Config.refPosition s.sys.cal (s.physChan (16 * g + p)) - m.2
    let t := { t with passDone := true, passFailed := false }
    m.1.setTdc g p (if s.lineB g p then { t with tabA := some tab, shiftA := a } else { t with tabB := some tab, shiftB := a })
  else (s.setTdc g p { t with passFailed := true }).flag (TD_FLAGS_CAL_ERR g) (TD_CNT0_CAL_ERR g)

/-- R158, R173: the hits of the pass are counted, at no more than 5 MHz. -/
def State.passOver (s : State) (g p : Nat) (hits : List Nat) : Bool :=
  let t := s.tdc g p
  passCounts (2 ^ t.passN) hits && decide (usTclk (2 ^ t.passN) ≤ 5 * s.since t.passAt)

/-- CAL_PASS_COMPLETE (R158): the hit counts, and the raw codes of 256 edges of the alignment reference. -/
def execCalPassComplete (g : GroupIx) (p : Pos) (hits : List Nat) (refs : List (Fin 512)) (s : State) :
    Host.Outcome State Fault Refusal :=
  doneIf (s.passOver g p hits && refs.length == 256) s (s.passEnd g p hits refs)

/-- R157, R166: every 2^30 TCLK the hits of the calibration source are counted anew: 3 MHz to 5 MHz. -/
def State.srcTclk (s : State) : State :=
  if s.time.toNat % 2 ^ 30 = 0 then
    s.forEach (List.range 32) fun s g =>
      let r := s.within 3000000 5000000
      r.1.set (TD_SRC_RATE_RATE g) r.2.toNat
  else s

/-- R159: one channel at a swap instant. -/
def State.swapLine (s : State) (g p : Nat) : State :=
  let t := s.tdc g p
  if t.passDone then
    let old := if s.lineB g p then t.shiftB else t.shiftA
    let new := if s.lineB g p then t.shiftA else t.shiftB
    let t := { t with passDone := false, passFailed := false, passAt := s.time, passN := 20 + s.get (TD_CAL_CTL_CALN g) }
    let s := s.setTdc g p { t with swapAt := some s.time }
    let s := (s.setBit (TD_CAL_STAT_ACTIVE g) p (!s.lineB g p)).setBit (TD_CAL_STAT_LIVEMAP g) p true
    ((s.setInt (TD_ALIGN_A g p) new).setInt (TD_ALIGN_DA g p) (new - old)).setTime (TD_SWAP_TLO_T_LO g) (TD_SWAP_THI_T_HI g) s.time
  else if t.passFailed then s.flag (TD_FLAGS_SWAP_SKIP g) (TD_CNT0_SWAP_SKIP g)
  else s

/-- TDC_SWAP (R159): at a swap instant, unless FREEZE is set (R161). -/
def execTdcSwap (g : GroupIx) (s : State) : Host.Outcome State Fault Refusal :=
  doneIf (s.swapInstant g s.time) s
    (s.forEach (List.range 16) fun s p => s.swapLine g p)

/-! ### Gates (R169 to R171) -/

/-- GATE_START_WRITE (R169): a live write of FQ_CTL. STOP in the same write acts first. -/
def State.writeFqCtl (s : State) (g : Nat) (v : Word) : State :=
  let s := s.set (FQ_CTL_REPEAT g) (fieldOf v 0 0)
  let s := if fieldOf v 30 30 = 1 then s.gateStop g true else s
  if fieldOf v 31 31 = 1 then s.gateStart g else s

/-- GATE_START_WRITE (R169). -/
def execGateStartWrite (g : GroupIx) (v : Word) (s : State) : Host.Outcome State Fault Refusal :=
  doneIf (fieldOf v 31 31 == 1) s (s.mirrored (FQ_CTL g).addr v fun s => s.writeFqCtl g v)

/-- GATE_STOP_WRITE (R169). -/
def execGateStopWrite (g : GroupIx) (v : Word) (s : State) : Host.Outcome State Fault Refusal :=
  doneIf (fieldOf v 30 30 == 1) s (s.mirrored (FQ_CTL g).addr v fun s => s.writeFqCtl g v)

/-- GATE_END (R169): FQ_GATE µs after the start. -/
def execGateEnd (g : GroupIx) (s : State) : Host.Outcome State Fault Refusal := done s (s.gateNow g)

/-- R170: FREQ in units of 2^-24 Hz, half up; `none` where the slope is not positive. -/
def fqFreq (a : FqAcc) (d : Nat) : Option Nat :=
  let den : Int := a.n * a.sii - a.si * a.si
  let num : Int := a.n * a.sit - a.si * a.st
  if 0 < num ∧ 0 < den then
    let x : Int := (d : Int) * 1638400000000 * den * 2 ^ 24
    some ((2 * x + num) / (2 * num)).toNat
  else none

def fqStatus (a : FqAcc) (abort : Bool) : Nat := if a.n < 3 then 3 else if abort then 2 else if a.loss then 1 else 0

/-- R171: the FR0, FR1 pair. -/
def frPair (g src stat : Nat) (t : Time) (gseq freq : Nat) : List Native :=
  [BitVec.ofNat 72 (3 * 2 ^ 68 + g * 2 ^ 63 + (if src = 16 then 2 ^ 58 else src * 2 ^ 59) + stat * 2 ^ 56 + t.toNat),
   BitVec.ofNat 72 (4 * 2 ^ 68 + gseq % 16 * 2 ^ 64 + freq % 2 ^ 64)]

/-- R170, R171: the result of a source of a gate that ended, with its divisor. -/
def State.fqResult (s : State) (g src : Nat) (d : Gate) (a : FqAcc) (div : Nat) : State :=
  let stat := fqStatus a d.abort
  let (s, freq) := if stat = 3 then (s, 0) else match fqFreq a div with
    | some f => (s, f)
    | none => (s.burn, s.fresh.toNat)
  let s := (s.set (FQ_RF_LO_F_LO g src) (freq % 2 ^ 32)).set (FQ_RF_HI_F_HI g src) (freq / 2 ^ 32)
  let s := ((s.set (FQ_RN_N g src) (min a.n (2 ^ 32 - 1))).set (FQ_RSTAT_SEQ g src) d.gseq).set (FQ_RSTAT_STAT g src) stat
  let s := match stat with
    | 3 => s.flag (FQ_FLAGS_FEW g) (FQ_CNT0_FEW g)
    | 2 => s.flag (FQ_FLAGS_ABORT g) (FQ_CNT1_ABORT g)
    | 1 => s.flag (FQ_FLAGS_LOSS g) (FQ_CNT0_LOSS g)
    | _ => s
  let ring := if src = 16 then s.on (FQ_AGE_RING g) else s.on (FQ_CH_RING g src)
  if ring then s.ringRecord 3 (frPair g src stat (d.stop.getD 0) d.gseq freq) else s

/-- The number of the oldest ended gate whose result of a source is due. -/
def State.fqDue (s : State) (g src : Nat) : Option Nat :=
  let l := (s.group g).gates
  (List.range l.length).reverse.find? fun i => match l[i]? with
    | some x => x.left.contains src
    | none => false

/-- FREQ_RESULT (R170): within 10 µs of the end of a gate, the result of a source, the oldest gate first. -/
def execFreqResult (g : GroupIx) (src : Fin 17) (s : State) : Host.Outcome State Fault Refusal :=
  let s1 := s.gateNow g
  done s (match s1.fqDue g src with
    | some i => match (s1.group g).gates[i]? with
      | some d =>
        let rest := (s1.group g).gates.modify i fun x => { x with left := x.left.filter (· != src.val) }
        let s2 := s1.setGroup g { s1.group g with gates := rest.filter fun x => x.stop.isNone || !x.left.isEmpty }
        s2.fqResult g src d (vget d.acc src .empty) (d.divs.getD src 1)
      | none => s
    | none => s)

end Sys2Proof.Machine
end

