-- ==== Sys2Proof/Machine/Capture.lean ====
section
/-! DEFINITION. Chapter 07: compare outcomes, summary intervals, fail log, capture memory, stamps and trigger
engines. -/

namespace Sys2Proof.Machine

/-! ### Intervals (R177 to R179) -/

/-- R177: the vector count of an engine. -/
def State.vcnt (s : State) (e : Nat) : Nat := s.get (FC_VCNT_HI_V_HI e) * 2 ^ 32 + s.get (FC_VCNT_LO_V_LO e)

def State.setVcnt (s : State) (e n : Nat) : State :=
  (s.set (FC_VCNT_LO_V_LO e) (n % 2 ^ 32)).set (FC_VCNT_HI_V_HI e) (n / 2 ^ 32)

/-- The open interval. -/
def Group.iv (x : Group) : Interval := x.ivs.headD (.empty 0 0)

/-- FC_SUM_STAT follows the open interval. -/
def State.showIv (s : State) (g : Nat) : State :=
  let iv := (s.group g).iv
  (s.set (FC_SUM_STAT_ISEQ g) iv.iseq).set (FC_SUM_STAT_NCUR g) iv.n

/-- The interval after one that has had its last vector. -/
def State.openNext (s : State) (g : Nat) : State :=
  let iv := (s.group g).iv
  if iv.full then
    (s.setGroup g { s.group g with ivs := .empty (iv.id + 1) (iv.iseq + 1) :: (s.group g).ivs }).showIv g
  else s

/-- R178: the n-th vector of an interval ends it, under the leader's K and ALIGN and the SUMR bit. -/
def State.endsInterval (s : State) (g n : Nat) (sumr : Bool) : Bool :=
  let l := s.leader g
  let k := 2 ^ s.get (FC_SUM_CTL_K l)
  if s.on (FC_SUM_CTL_ALIGN l) then (sumr && decide (k ≤ n)) || decide (2 ^ 20 ≤ n) else decide (k ≤ n)

/-- R182: the TRIP flags of the latches up to the end of an interval enter it. -/
def State.takeTrips (s : State) (g : Nat) (iv : Interval) : State :=
  let now := (s.group g).trips.filter fun x => reached (tclkOf iv.stop) x.1
  let s := now.foldl (init := s) fun s x => s.forEach (bitsOf x.2.toNat 16) fun s p => s.sumFlag g p iv.id 4
  s.setGroup g { s.group g with trips := (s.group g).trips.filter fun x => !reached (tclkOf iv.stop) x.1 }

/-- R179: an engine reset discards the open interval; the interval number returns to 0. -/
def State.discardInterval (s : State) (g : Nat) : State :=
  let s := ((s.group g).ivs.reverse.filter fun i => i.full && i.ended.isNone).foldl (init := s) fun s i => s.takeTrips g i
  let x := s.group g
  let iv := x.iv
  let old := x.ivs.filter fun i => i.full
  let s := s.setGroup g { x with ivs := .empty (iv.id + 1) 0 :: old, trips := [] }
  let s := if iv.full || iv.n == 0 then s else s.flag (FC_FLAGS_SUMDISC g) (FC_CNT1_SUMDISC g)
  s.showIv g

/-- R228: outcomes and stamps of vectors issued before an engine reset; their stamps count against the event cap of
the first interval after it. External windows are no vector's. -/
def State.killOutcomes (s : State) (g : Nat) : State :=
  let id := (s.group g).iv.id
  let x := s.group g
  s.setGroup g { x with
    outq := x.outq.map fun v => { v with dead := true }
    chans := x.chans.map fun c => { c with wins := c.wins.map fun w =>
      if w.external then w else { w with dead := true, iv := id } } }

/-- R68, R151, R177, R178: the vector of `i` begins at B in group g. -/
def State.beginVector (s : State) (g : Nat) (i : Issued) (b : Tick) : State :=
  let s := (s.formVector g i b).openNext g
  let iv := (s.group g).iv
  let ts := s.tsInUse g i.ts
  let period := (((s.group g).cur.map (·.period))).getD 0
  let forms := (((s.group g).cur.map (·.forms))).getD []
  let v : VecOut :=
    { b := b, period := period, word := i.word, ts := ts, ctx := i.ctx, vcnt := s.vcnt g, iv := iv.id, offset := iv.n,
      switched := i.switched, forms := forms, dead := false }
  let full := s.endsInterval g (iv.n + 1) i.sumr
  let iv' := { iv with n := iv.n + 1, vstart := if iv.n = 0 then v.vcnt else iv.vstart, full := full,
                       stop := b + BitVec.ofNat 66 period }
  let x := s.group g
  let s := s.setGroup g { x with outq := x.outq ++ [v], ivs := iv' :: x.ivs.tail,
                                 sumB := if iv.n = 0 then some b else x.sumB }
  ((s.vectorWindows g iv.id i.ctx b forms).setVcnt g ((v.vcnt + 1) % 2 ^ 41)).showIv g

/-- R119: a measurement summary word. -/
def State.measWord (s : State) (g p iseq : Nat) : Native :=
  let m := (s.chan g p).measSum
  let bits := fun (x : Int) => (BitVec.ofInt 18 x).toNat
  BitVec.ofNat 72 (2 * 2 ^ 68 + g * 2 ^ 63 + p * 2 ^ 59 + s.dieGet (LS_PMU_MODE g p) * 2 ^ 57
    + s.dieGet (LS_PMU_RANGE g p) * 2 ^ 54 + (if m.count = 0 then 0 else bits m.min) * 2 ^ 36
    + (if m.count = 0 then 0 else bits m.max) * 2 ^ 18 + min m.count 1023 * 2 ^ 8
    + (if m.anyCompl then 2 ^ 7 else 0) + (if m.anyOvr then 2 ^ 6 else 0) + iseq % 64)

/-- R119: every measurement summary of a group starts again. -/
def State.clearMeas (s : State) (g : Nat) : State :=
  s.forEach (List.range 16) fun s p => s.setChan g p { s.chan g p with measSum := .empty }

/-- R178, R180: the interval with a number has ended: STEP is the one in force at H1.TIME (R181). -/
def State.endInterval (s : State) (e : Nat) (iv : Interval) : State :=
  let s := s.takeTrips e iv
  let words := ((List.range 16).filter fun p => s.dieGet (LS_MEAS_SUM_EN e p) != 0).map fun p => s.measWord e p iv.iseq
  ((s.mapIv e iv.id fun i => { i with ended := some (tclkOf iv.stop, s.stepAt (tclkOf iv.stop), s.on (FC_SUM_CTL_EN e), words) }).clearMeas e).openNext e

/-- The oldest interval that has had its last vector and has not ended. -/
def Group.ending (x : Group) : Option Interval := x.ivs.reverse.find? fun iv => iv.full && iv.ended.isNone

/-- R180: the intervals whose end lies before this TCLK end under the EN that was in force. -/
def State.endPast (s : State) (g : Nat) : State :=
  s.forEach (List.range (s.group g).ivs.length) fun s _ => match (s.group g).ending with
    | some iv => if reached (s.time - 1) (tclkOf iv.stop) then s.endInterval g iv else s
    | none => s

/-- R179: the open interval ends after the last vector issued, if it holds one; in a hold that end lies behind. -/
def State.endEarly (s : State) (g : Nat) : State :=
  let x := s.group g
  match x.ivs with
  | iv :: rest => if iv.full || iv.n == 0 then s
      else (s.setGroup g { x with ivs := { iv with full := true, stop := x.nextB } :: rest }).endPast g
  | [] => s

/-- SUMMARY_INTERVAL_END (R178): TIME has reached the TCLK of the generator end of the interval's last vector. -/
def execSummaryIntervalEnd (e : EngineIx) (s : State) : Host.Outcome State Fault Refusal :=
  done s (match (s.group e).ending with
    | some iv => if reached s.time (tclkOf iv.stop) then s.endInterval e iv else s
    | none => s)

/-! ### Record sets (R180 to R183) -/

def sumS0 (c : SumChan) : Native :=
  BitVec.ofNat 72 (c.fails * 2 ^ 51 + c.first * 2 ^ 31 + c.last * 2 ^ 11 + (c.flags.toNat ||| (if c.compared then 0 else 1)))

def sumS1 (c : SumChan) : Native :=
  let bits := fun (x : Int) => if c.count = 0 then 0 else (BitVec.ofInt 24 x).toNat
  BitVec.ofNat 72 (bits c.min * 2 ^ 48 + bits c.max * 2 ^ 24 + min c.count (2 ^ 24 - 1))

/-- R180 to R183: the 34 words. -/
def recordSet (e : Nat) (iv : Interval) (t : Time) (step : Nat) : List Native :=
  BitVec.ofNat 72 (e * 2 ^ 67 + iv.iseq % 64 * 2 ^ 61 + (iv.n - 1) * 2 ^ 41 + iv.vstart)
    :: BitVec.ofNat 72 (t.toNat * 2 ^ 16 + step)
    :: iv.chans.toList.flatMap fun c => [sumS0 c, sumS1 c]

/-- R180: every outcome and window of the interval has been taken. -/
def Group.settled (x : Group) (id : Nat) : Bool :=
  (x.outq.all fun v => v.dead || v.iv != id) && x.chans.toList.all fun c => c.wins.all fun w => w.dead || w.iv != id

/-- R378: the partner in lockstep compares the set of this interval. -/
def State.agrees (s : State) (e id : Nat) : Bool :=
  s.inPair && match vget s.tw.checkFrom e none with
    | some k => decide (k ≤ id)
    | none => false

/-- R378: a member sends the CRC of its set. -/
def State.sendAgreement (s : State) (e id : Nat) (set : List Native) : State :=
  if s.agrees e id then s.sendLink 3 (.agreement e (crc32c (wordBytes set)) []) else s

/-- R180, R119: the record set and the measurement summary words leave. -/
def State.emitSet (s : State) (e : Nat) (iv : Interval) (t : Time) (step : Nat) (en : Bool) (meas : List Native) : State :=
  let set := recordSet e iv t step
  let s := s.setGroup e { s.group e with ivs := (s.group e).ivs.filter fun i => i.id != iv.id }
  let s := ({ s with tw := { s.tw with sets := vset s.tw.sets e (iv.id, set) } }).sendAgreement e iv.id set
  let s := if en then s.ringRecord 0 set else s
  meas.foldl (fun s w => s.ringRecord 3 [w]) s

/-- SUMMARY_SET_EMIT (R180): the oldest ended interval. -/
def execSummarySetEmit (e : EngineIx) (s : State) : Host.Outcome State Fault Refusal :=
  done s (match (s.group e).ivs.getLast? with
    | some iv => match iv.ended with
      | some (t, step, en, meas) => if (s.group e).settled iv.id then s.emitSet e iv t step en meas else s
      | none => s
    | none => s)

/-! ### Outcomes and observations (R175, R176) -/

/-- The entry of a lane's log in force at a tick: M with VALID 0 before the first. -/
def laneAt (l : List LaneEntry) (t : Tick) : LaneEntry :=
  (l.find? fun e => tickReached t e.at_).getD { at_ := t, lane := .mid, valid := false, check := false, edge := false }

/-- The entries later than a, up to and including b, in time order. -/
def laneIn (l : List LaneEntry) (a b : Tick) : List LaneEntry :=
  (l.filter fun e => !tickReached a e.at_ && tickReached b e.at_).reverse

/-- An excursion of 500 ps, in ticks (R76). -/
def shortTicks : Nat := 820

/-- R76: how a lane has left level x: the tick of the excursion in progress, whether one has lasted 500 ps or longer,
whether a shorter one has ended. -/
def excursions (x : Lane) (l : List LaneEntry) : Option Tick × Bool × Bool :=
  l.foldl (fun r e => match r.1 with
    | none => if e.lane = x then r else (some e.at_, r.2)
    | some t => if e.lane = x then
        (none, r.2.1 || decide (shortTicks ≤ (e.at_ - t).toNat), r.2.2 || decide ((e.at_ - t).toNat < shortTicks))
      else r) (none, false, false)

/-- R76, R78, R176: the lane over a window from tick a to tick b, a < b; `coin` decides what a short excursion does. -/
def laneWindow (l : List LaneEntry) (a b : Tick) (coin : Bool) : LaneSummary :=
  let first := laneAt l a
  let inside := laneIn l a b
  let r := excursions first.lane inside
  let steps := (first :: inside).zip inside
  let moves := steps.filter fun x => x.1.valid && x.2.valid && !x.1.check && !x.2.check && x.1.lane != x.2.lane
  let all := first :: inside
  { atT3 := first.lane, atT4 := (laneAt l b).lane, held := r.1.isNone && !r.2.1 && (!r.2.2 || coin)
    rise := moves.any fun x => decide (x.1.lane.code < x.2.lane.code)
    fall := moves.any fun x => decide (x.2.lane.code < x.1.lane.code)
    valid := if all.all (·.valid) then 2 else if all.any (·.valid) then 1 else 0
    masked := (laneAt l b).check }

/-- The placement accuracy of T3, ±15 ps, in ticks (R76, R90). -/
def placeTicks : Nat := 25

/-- R76: the lane at one tick; a change within the placement accuracy may show either of its levels. -/
def lanePoint (l : List LaneEntry) (a : Tick) (pick : Nat) : LaneSummary :=
  let near := laneAt l (a - BitVec.ofNat 66 placeTicks)
    :: laneIn l (a - BitVec.ofNat 66 placeTicks) (a + BitVec.ofNat 66 placeTicks)
  let e := near.getD (pick % near.length) (laneAt l a)
  { atT3 := e.lane, atT4 := e.lane, held := true, rise := false, fall := false, valid := if e.valid then 2 else 0
    masked := (laneAt l a).check }

/-- T3 and T4 of a channel fall on one tick. -/
def ChanForm.point (f : ChanForm) : Bool := f.t3 == f.t4

/-- R82: what the return lane of a channel did in the window of a vector, at B + Z + Dc + T3 to B + Z + Dc + T4. -/
def State.laneSummary (s : State) (g : Nat) (v : VecOut) (p : Nat) : LaneSummary :=
  let f := formOf v.forms p
  let l := (s.chan g p).cmp.log
  let at_ := fun (t : Nat) => v.b + BitVec.ofNat 66 (zOffset + f.dc + t)
  let x := (Config.freeValue (s.free + p)).toNat
  if f.point then lanePoint l (at_ f.t3) x else laneWindow l (at_ f.t3) (at_ f.t4) (x % 2 == 1)

/-- R77: a lane whose VALID was 0 throughout stands at M. -/
def laneSeen (l : LaneSummary) : LaneSummary :=
  if l.valid = 0 then { l with atT3 := .mid, atT4 := .mid, held := true, rise := false, fall := false } else l

/-- R65, R76 to R79: the outcome of a pin code; `point`: T3 = T4. -/
def passes (code : Nat) (l : LaneSummary) (point : Bool) : Bool :=
  let l := laneSeen l
  let at_ := fun (x : Lane) => l.atT3 == x && (point || l.held)
  match code with
  | 2 => at_ .low
  | 3 => at_ .high
  | 4 => at_ .mid
  | 7 => !point && (l.rise || l.fall)
  | _ => true

/-- R176. -/
def observation (l : LaneSummary) (point : Bool) : Nat :=
  let l := laneSeen l
  if point then l.atT3.code else if l.rise || l.fall then 3 else l.atT4.code

/-- A bit map over the positions. -/
def mapPos (f : Nat → Bool) : BitVec 16 :=
  BitVec.ofNat 16 ((List.range 16).foldl (fun m p => if f p then m + 2 ^ p else m) 0)

/-- What an absent lane summary stands for: M throughout. -/
def laneQuiet : LaneSummary :=
  { atT3 := .mid, atT4 := .mid, held := true, rise := false, fall := false, valid := 0, masked := false }

/-- The reference-plane end of a vector (R81). -/
def VecOut.endTick (v : VecOut) : Tick := v.b + BitVec.ofNat 66 (zOffset + v.period)

/-- R175 to R177: what the trigger engines see of a vector. Compares on a channel in self-check pass (R143). -/
def VecOut.observe (v : VecOut) (lanes : List LaneSummary) : ObsRec :=
  let lane := fun p => lanes.getD p laneQuiet
  let point := fun p => (formOf v.forms p).point
  { stop := v.endTick
    b := v.b
    obs := BitVec.ofNat 32 ((List.range 16).foldl (fun m p => m + observation (lane p) (point p) * 4 ^ p) 0)
    rise := mapPos fun p => !point p && (laneSeen (lane p)).rise
    fall := mapPos fun p => !point p && (laneSeen (lane p)).fall
    fails := mapPos fun p => !passes (pinCode v.word p) (lane p) (point p) && !(lane p).masked }

/-- R143: a channel was in self-check while the vector was at the reference plane. -/
def State.checkedIn (s : State) (g p : Nat) (v : VecOut) : Bool :=
  let l := (s.chan g p).cmp.log
  let a := v.b + BitVec.ofNat 66 zOffset
  (laneAt l a).check || (laneIn l a v.endTick).any (·.check)

/-- R182: a vector enters the interval's summary of one channel. -/
def State.sumVector (s : State) (g p : Nat) (v : VecOut) (l : LaneSummary) (failed : Bool) : State :=
  let cmp := compareCode (pinCode v.word p)
  let bit := fun (b : Bool) (i : Nat) => if b then BitVec.ofNat 11 (1 <<< i) else 0
  let flags := bit (cmp && l.valid != 2) 1
    ||| bit (s.parkedAtTime g p (tclkOf (v.b + BitVec.ofNat 66 zOffset))) 2 ||| bit (s.checkedIn g p v) 3
  s.mapSum g p v.iv fun c => { c with
    compared := c.compared || cmp
    flags := c.flags ||| flags
    fails := if failed then c.fails + 1 else c.fails
    first := if failed && c.fails == 0 then v.offset else c.first
    last := if failed then v.offset else c.last }

/-- R185: the fail-log record. -/
def failRecord (e : Nat) (v : VecOut) (fails : BitVec 16) : Native :=
  BitVec.ofNat 72 (e * 2 ^ 67 + v.ctx * 2 ^ 62 + v.vcnt * 2 ^ 21 + v.ts * 2 ^ 16 + fails.toNat)

/-- R186: the fail log. -/
def State.logFail (s : State) (g : Nat) (v : VecOut) (fails : BitVec 16) : State :=
  let logged := (((s.group g).ivs.find? fun i => i.id == v.iv).map (·.logged)).getD 0
  if logged < s.get (FC_LOG_CTL_CAP g) then
    ((s.mapIv g v.iv fun i => { i with logged := i.logged + 1 }).logWrite false g (failRecord g v fails)).logDrain false g 4096
  else
    let s := (s.count (FC_LOGDROP_DROP g) 1).raise (FC_FLAGS_LOGCAP g)
    s.forEach (bitsOf fails.toNat 16) fun s p => s.sumFlag g p v.iv 8

/-- R184, R243: the fail flag and the fail cause. -/
def State.failCause (s : State) (g : Nat) (v : VecOut) : State :=
  let l := s.leader g
  let before := (((s.group g).ivs.find? fun i => i.id == v.iv).map (·.failed)).getD false
  let s := (s.raise (SQ_CTX_FLAGS_FAIL l v.ctx)).mapIv g v.iv fun i => { i with failed := true }
  if s.on (FC_CAUSE_MODE g) || !before then s.causeRouted (FC_CAUSE_EN g) (FC_CAUSE_CTX g) (FC_CAUSE_PRIO g) l .fail else s

/-! ### Capture memory (R187 to R190) -/

def capIdle : Nat := 0
def capArmed : Nat := 1
def capTriggered : Nat := 2
def capDone : Nat := 3

/-- Words of a bank (R188). -/
def capWords : Nat := 131072

def State.setCap (s : State) (g : Nat) (c : Capture) : State := s.setGroup g { s.group g with cap := c }

/-- The word and half of the n-th recorded vector (R188). -/
def Capture.place (c : Capture) (n : Nat) : Nat × Bool :=
  match c.trig with
  | some (k, w) => if n < k then (n / 2, n % 2 == 1) else (w + (n - k) / 2, (n - k) % 2 == 1)
  | none => (n / 2, n % 2 == 1)

/-- R187: the word with a vector stored in its first or second half. -/
def capWord (old : Native) (v : CapVec) (second trg : Bool) : Native :=
  let b := fun (x : Bool) (i : Nat) => if x then 2 ^ i else 0
  if second then
    BitVec.ofNat 72 (old.toNat + v.obs.toNat * 2 ^ 32 + b v.fail 65 + b v.mark 67 + b v.switched 70 + 2 ^ 71)
  else BitVec.ofNat 72 (v.obs.toNat + b v.fail 64 + b v.mark 66 + b trg 68 + b v.switched 69)

/-- The BAR2 offset of word w of a bank. -/
def capAddr (g w : Nat) : Nat := memAddr memCapture 0x200000 g (w % capWords)

/-- The n-th recorded vector goes to its place. -/
def State.storeCap (s : State) (g n : Nat) (v : CapVec) : State :=
  let c := (s.group g).cap
  let a := capAddr g (c.place n).1
  s.setMemWord a (capWord (s.memWord a) v (c.place n).2 ((c.trig.map (·.1)) == some n))

/-- R188: a trigger. -/
def State.capFire (s : State) (g : Nat) : State :=
  (s.set (FC_CAP_STAT_STATE g) capTriggered).flag (FC_FLAGS_CAPTRIG g) (FC_CNT2_CAPTRIG g)

/-- R188: a trigger whose vector is the first recorded with B at or after a tick. -/
def State.capAwait (s : State) (g : Nat) (t : Tick) : State :=
  (s.setCap g { (s.group g).cap with thr := some t }).capFire g

/-- R188, R189: vector k, one of the latest recorded, is the trigger vector. It begins a word, and the later vectors
follow it; the words they had overwritten are restored first. -/
def State.capTrigger (s : State) (g k : Nat) : State :=
  let c := (s.group g).cap
  let moved := c.recent.filter fun r => k ≤ r.1
  let s := moved.foldl (fun s r => s.setMemWord (capAddr g (c.place r.1).1) r.2.under) s
  let s := s.setCap g { c with trig := some (k, (k + 1) / 2), n := min c.n (k + c.post), thr := none }
  let s := (moved.reverse.filter fun r => r.1 < k + c.post).foldl (fun s r => s.storeCap g r.1 r.2) s
  let s := match moved.find? fun r => r.1 == k with
    | some (_, v) => ((s.set (FC_CAP_TVC_LO_V_LO g) (v.vcnt % 2 ^ 32)).set (FC_CAP_TVC_HI_V_HI g) (v.vcnt / 2 ^ 32)).setTime
        (FC_CAP_TT_LO_T_LO g) (FC_CAP_TT_HI_T_HI g) (tclkOf v.b)
    | none => s
  if s.get (FC_CAP_STAT_STATE g) = capArmed then s.capFire g else s

/-- R188: the capture records this vector. -/
def State.recording (s : State) (g : Nat) (b : Tick) : Bool :=
  let c := (s.group g).cap
  let st := s.get (FC_CAP_STAT_STATE g)
  (st == capArmed || (st == capTriggered && match c.trig with
    | some (k, _) => decide (c.n < k + c.post)
    | none => true)) && reached (tclkOf b) (later c.armAt 1)

/-- R187 to R189: a vector's observations enter the capture; one that a trigger awaits, or a mark under TSRC = MARK,
makes it the trigger vector. -/
def State.capture (s : State) (g : Nat) (v : CapVec) (trgm : Bool) : State :=
  if !s.recording g v.b then s
  else
    let c := (s.group g).cap
    let n := c.n
    let v := { v with under := s.memWord (capAddr g (c.place n).1) }
    let s := (s.setCap g { c with n := n + 1, recent := ((n, v) :: c.recent).take 64 }).storeCap g n v
    let hit := (match c.thr with
        | some t => c.trig.isNone && tickReached v.b t
        | none => false) || (s.get (FC_CAP_STAT_STATE g) == capArmed && c.tsrc == 4 && trgm)
    if hit then s.capTrigger g n else s

/-- R188: vectors that fit in w words before the trigger, of k recorded: the last word holds one when k is odd. -/
def preFit (k w : Nat) : Nat := if (k + 1) / 2 ≤ w then k else if w = 0 then 0 else 2 * w - k % 2

/-- R190: the capture reaches DONE. -/
def State.capEnd (s : State) (g : Nat) : State :=
  let c := (s.group g).cap
  let (pre, postn, first) := match c.trig with
    | some (k, w) =>
      let postn := c.n - k
      let room := capWords - (postn + 1) / 2
      (preFit k room, postn, (w - min w room) % capWords)
    | none =>
      let words := (c.n + 1) / 2
      (preFit c.n capWords, 0, (words - min words capWords) % capWords)
  let s := ((s.set (FC_CAP_STAT_PRE g) pre).set (FC_CAP_CNT_POSTN g) postn).set (FC_CAP_FIRST_ADDR g) first
  ((s.setCap g { c with thr := none }).set (FC_CAP_STAT_STATE g) capDone).flag (FC_FLAGS_CAPDONE g) (FC_CNT2_CAPDONE g)

/-- R188, R189: a write of FC_CAP_ARM. STOP wins; ARM acts before FORCE. -/
def State.writeCapArm (s : State) (g : Nat) (v : Word) : State :=
  let st := s.get (FC_CAP_STAT_STATE g)
  if fieldOf v 2 2 = 1 then (if st = capArmed ∨ st = capTriggered then s.capEnd g else s)
  else
    let s := if fieldOf v 0 0 = 1 ∧ s.on (FC_CAP_CFG_EN g) then
        (s.setCap g { Capture.reset with tsrc := s.get (FC_CAP_CFG_TSRC g), post := s.get (FC_CAP_POST_POST g),
                                         armAt := s.time }).set (FC_CAP_STAT_STATE g) capArmed
      else s
    if fieldOf v 1 1 = 1 ∧ s.get (FC_CAP_STAT_STATE g) = capArmed then
      s.capAwait g (tickOf (later s.time 1))
    else s

/-- CAPTURE_ARM (R188): a live host write. -/
def execCaptureArm (g : GroupIx) (v : Word) (s : State) : Host.Outcome State Fault Refusal :=
  done s (s.mirrored (FC_CAP_ARM g).addr v fun s => s.writeCapArm g v)

/-- CAPTURE_STOP (R188): a live host write. -/
def execCaptureStop (g : GroupIx) (v : Word) (s : State) : Host.Outcome State Fault Refusal :=
  doneIf (fieldOf v 2 2 == 1) s (s.mirrored (FC_CAP_ARM g).addr v fun s => s.writeCapArm g v)

/-- CAPTURE_FORCE (R189): a live host write. -/
def execCaptureForce (g : GroupIx) (v : Word) (s : State) : Host.Outcome State Fault Refusal :=
  doneIf (fieldOf v 1 1 == 1) s (s.mirrored (FC_CAP_ARM g).addr v fun s => s.writeCapArm g v)

/-- CAPTURE_DONE (R188): POST vectors from the trigger vector are stored. -/
def execCaptureDone (g : GroupIx) (s : State) : Host.Outcome State Fault Refusal :=
  done s (match (s.group g).cap.trig with
    | some (k, _) =>
      if s.get (FC_CAP_STAT_STATE g) = capTriggered ∧ k + (s.group g).cap.post ≤ (s.group g).cap.n then s.capEnd g else s
    | none => s)

/-! ### VECTOR_OUTCOME (R175) -/

/-- The evaluation instants of the trigger engines whose reference is group g (R194). -/
def State.pushInstant (s : State) (g : Nat) (stop : Tick) (trgm : Bool) : State :=
  s.forEach (List.range 4) fun s n =>
    if s.get (AQ_TE_CTL_REF n) = g then
      let t := vget s.trigs n .reset
      { s with trigs := vset s.trigs n { t with due := t.due ++ [(stop, trgm)] } }
    else s

/-- What a lane's log holds from tick b on, and from before the oldest transition that the TDC has not seen. -/
def pruneLog (l : List LaneEntry) (b : Tick) : List LaneEntry :=
  let old := (l.findIdx? fun e => tickReached b e.at_).getD l.length
  let unseen := (List.range l.length).foldl (fun m i => if (l[i]?.map (·.edge)).getD false then i + 1 else m) 0
  l.take (max old unseen + 1)

/-- The logs of a group's lanes are kept from a tick on. -/
def State.pruneLanes (s : State) (g : Nat) (b : Tick) : State :=
  s.forEach (List.range 16) fun s p => s.setCmp g p { (s.chan g p).cmp with log := pruneLog (s.chan g p).cmp.log b }

/-- R175 to R187: the outcomes and observations of a vector reach the sinks; those of a vector issued before an engine
reset reach only the capture and the trigger engines (R228). -/
def State.outcome (s : State) (g : Nat) (v : VecOut) : State :=
  let lanes := (List.range 16).map (s.laneSummary g v)
  let o := v.observe lanes
  let failed := o.fails != 0
  let s := { s with free := s.free + 16 }
  let s := s.setGroup g { s.group g with outq := (s.group g).outq.tail, obs := (o :: (s.group g).obs).take 64 }
  let s := if (List.range 16).any fun p => s.checkedIn g p v then s.count (CP_CNT1_SCMASK g) 1 else s
  let s := if v.dead then s
    else
      let s := s.forEach (List.range 16) fun s p => s.sumVector g p v (lanes.getD p laneQuiet) (o.fails.getLsbD p)
      if failed then (s.logFail g v o.fails).failCause g v else s
  let s := s.capture g { obs := o.obs, fail := failed, mark := capmOf v.word, switched := v.switched, b := v.b,
                         stop := o.stop, vcnt := v.vcnt, under := 0 } (trgmOf v.word)
  (s.pushInstant g o.stop (trgmOf v.word)).pruneLanes g v.b

/-- R82: how long after B + Z the period and every compare window of a vector have ended at the compare logic. -/
def VecOut.extent (v : VecOut) : Nat :=
  v.forms.foldl (fun m f => max m (f.dc + f.t4 + 1024)) v.period

/-- VECTOR_OUTCOME (R175): the oldest vector, begun at b, once its reference-plane end and its compare windows have passed. -/
def execVectorOutcome (g : GroupIx) (b : Tick) (s : State) : Host.Outcome State Fault Refusal :=
  done s (match (s.group g).outq with
    | v :: _ => if v.b = b ∧ reached s.time (tclkOf (v.b + BitVec.ofNat 66 (zOffset + v.extent))) then s.outcome g v else s
    | [] => s)

/-! ### Stamps (R154, R155, R163, R165, R183) -/

/-- R154: the stamp word. -/
def stampWord (p : Nat) (t : Tick) (pol ovf : Bool) : Native :=
  BitVec.ofNat 72 ((if ovf then 2 ^ 71 else 0) + p * 2 ^ 67 + (if pol then 2 ^ 66 else 0) + t.toNat)

/-- R163, R243: an intermittency event. -/
def State.eventStamp (s : State) (g p : Nat) (w : Win) : State :=
  let l := s.leader g
  let s := match w.ctx with
    | some c => s.raise (SQ_CTX_FLAGS_EVT l c)
    | none => s
  (s.sumFlag g p w.iv 5).causeRouted (TD_EV_CTL_CAUSE_EN g) (TD_EV_CTL_CTX g) (TD_EV_CTL_PRIO g) l .event

/-- R165, R228: the interval whose event cap a window's stamps count against: its own, or the open one once that has been
discarded. -/
def Group.capIv (x : Group) (w : Win) : Interval := (x.ivs.find? fun i => i.id == w.iv).getD x.iv

/-- R165, R191: a stamp of an EW or EC window against the event cap. -/
def State.stampStore (s : State) (g p : Nat) (w : Win) (word : Native) : State :=
  let iv := (s.group g).capIv w
  if iv.events < s.get (TD_EV_CTL_CAP g) then
    ((s.mapIv g iv.id fun i => { i with events := i.events + 1 }).logWrite true g word).logDrain true g 8192
  else
    let s := (s.count (TD_EVDROP_DROP g) 1).raise (TD_FLAGS_EV_DROP g)
    if w.dead then s else s.sumFlag g p w.iv 7

/-- R183: a stamp in the S1 summary. -/
def sumStamp (c : SumChan) (o : Int) : SumChan :=
  let x := max (-8388608) (min 8388607 o)
  { c with
    min := if c.count = 0 then x else if x < c.min then x else c.min
    max := if c.count = 0 then x else if c.max < x then x else c.max
    count := c.count + 1
    flags := c.flags ||| (if x = o then 0 else 0x200) ||| (if 2 ^ 24 ≤ c.count + 1 then 0x400 else 0) }

/-- R183: the edge offset of a stamp. -/
def State.edgeOffset (s : State) (g p : Nat) (w : Win) (t : Tick) : Int :=
  let r := if s.on (FC_S1REF_REFEN g p) then s.get (FC_S1REF_REF g p) else w.t3
  (t - w.zero).toInt - (r : Int)

/-- One stamp of a closed window reaches its destinations (R151). -/
def State.deliverStamp (s : State) (g p : Nat) (w : Win) (t : Tick) (pol ovf : Bool) : State :=
  let s := if w.kind = winEw ∧ !w.dead then s.eventStamp g p w else s
  let s := if w.kind = winEw ∨ w.kind = winEc then s.stampStore g p w (stampWord p t pol ovf) else s
  if w.kind = winFg ∨ w.dead then s else s.mapSum g p w.iv fun c => sumStamp c (s.edgeOffset g p w t)

/-- R155: the stamps of a window leave the FIFO in time order; the last carries OVF if a stop was refused (R153). -/
def State.deliver (s : State) (g p : Nat) (w : Win) : State :=
  let n := w.stamps.length
  s.forEach (List.range n) fun s i =>
    match w.stamps[i]? with
    | some (t, pol) => s.deliverStamp g p w t pol (w.refused && i + 1 == n)
    | none => s

/-- R155: a window with stamps that leave the FIFO: it has closed, or its close has come. -/
def State.winDone (s : State) (w : Win) : Bool :=
  w.opened && !w.stamps.isEmpty && (w.closed || reached s.time w.closeAt)

/-- R155: the order in which the windows of a group's channels have closed: by the TCLK of the close, then by position. -/
def State.firstClosed (s : State) (g : Nat) : Option (Nat × Nat × Win) :=
  let all := (List.range 16).flatMap fun p =>
    ((s.chan g p).wins.zipIdx.filter fun x => s.winDone x.1).map fun x => (p, x.2, x.1)
  all.foldl (fun m x => match m with
    | none => some x
    | some y => if reached x.2.2.closeAt y.2.2.closeAt then some y else some x) none

/-- STAMP_DELIVERY (R155): the stamps of a channel's closed window, once its turn has come in the group. -/
def execStampDelivery (g : GroupIx) (p : Pos) (s : State) : Host.Outcome State Fault Refusal :=
  done s (match s.firstClosed g with
    | some (q, i, w) =>
      if q = p.val ∧ w.closed then
        (s.setChan g p { s.chan g p with wins := (s.chan g p).wins.eraseIdx i }).deliver g p w
      else s
    | none => s)

/-! ### Trigger engines (R194 to R198) -/

def teIdle : Nat := 0
def teArmed : Nat := 1
def teHoldoff : Nat := 2

def State.te (s : State) (n : Nat) : TrigEngine := vget s.trigs n .reset
def State.setTe (s : State) (n : Nat) (x : TrigEngine) : State := { s with trigs := vset s.trigs n x }

/-- R194: what channel group g contributes at instant E to an engine armed at `arm`. -/
def Group.obsAt (x : Group) (e arm : Time) : Option ObsRec :=
  match x.obs.find? fun o => reached e (tclkOf o.stop) with
  | some o => if reached (tclkOf o.b) arm then some o else none
  | none => none

/-- R195: one code against what channel position p contributes. -/
def codeMatches (code p : Nat) (o : Option ObsRec) : Bool :=
  match o with
  | none => false
  | some o =>
    let ob := o.obs.toNat / 4 ^ p % 4
    match code with
    | 1 => ob == 0
    | 2 => ob == 2
    | 3 => ob == 1
    | 4 => o.rise.getLsbD p
    | 5 => o.fall.getLsbD p
    | 6 => o.rise.getLsbD p || o.fall.getLsbD p
    | 7 => o.fails.getLsbD p
    | _ => false

/-- R195: the code of a channel in stage m, 0 where it is X. -/
def State.patCode (s : State) (n m c : Nat) : Nat :=
  let x := s.get (AQ_TE_S_PAT_PAT n m (c / 8)) / 16 ^ (c % 8) % 16
  if 8 ≤ x then 0 else x

/-- R195: stage m matches at instant E; `mark` is TRGM of the reference vector. -/
def State.stageMatches (s : State) (n m : Nat) (e : Time) (mark : Bool) : Bool :=
  let t := s.te n
  let l := (List.range 512).filter fun c => s.patCode n m c != 0
  let hit := fun c => codeMatches (s.patCode n m c) (c % 16) ((s.group (c / 16)).obsAt e t.armAt)
  let ext := s.get (AQ_TE_S_CTL_EXT n m)
  (if s.on (AQ_TE_S_CTL_OP n m) then l.any hit else l.all hit)
    && (!s.on (AQ_TE_S_CTL_MARK n m) || mark) && (ext == 0 || t.ext.any fun x => x.1 == ext - 1 && reached e x.2)

/-- R189: the fire of engine n at E triggers an armed capture. -/
def State.teCapture (s : State) (n : Nat) (e : Time) : State :=
  s.forEach (List.range 32) fun s g =>
    let c := (s.group g).cap
    if s.get (FC_CAP_STAT_STATE g) = capArmed ∧ c.tsrc = n then
      match c.recent.find? fun r => reached e (tclkOf r.2.stop) with
      | some r => s.capTrigger g r.1
      | none => match c.recent.getLast? with
        | some r => s.capTrigger g r.1
        | none => s.capAwait g (tickOf (later c.armAt 1))
    else s

/-- R198: a pulse from TIME `up` to TIME `down` joins the ball's pulses; one that is high as it rises is extended. -/
def addPulse (l : List (Time × Time)) (up down : Time) : List (Time × Time) :=
  match l.getLast? with
  | some (u, d) => if reached d up then l.dropLast ++ [(u, if reached down d then down else d)] else l ++ [(up, down)]
  | none => [(up, down)]

/-- R198: the level of a TRIG_OUT ball. -/
def State.trigLevel (s : State) (j : Nat) : Bool :=
  (vget s.trigOut j []).any fun x => reached s.time x.1 && !reached s.time x.2

/-- R198: TRIG_OUTj follows a fire of its engine: it rises 48 TCLK after it. -/
def State.tePulse (s : State) (n : Nat) (e : Time) : State :=
  let one := fun (s : State) (j : Nat) (src wid : Fld) =>
    if s.get src = n + 1 then
      let l := addPulse (vget s.trigOut j []) (later e 48) (later e (48 + 8 * 2 ^ s.get wid))
      { s with trigOut := vset s.trigOut j l }
    else s
  one (one s 0 AQ_TOUT_CTL_SRC0 AQ_TOUT_CTL_WID0) 1 AQ_TOUT_CTL_SRC1 AQ_TOUT_CTL_WID1

/-- R196 to R198: engine n fires at E. -/
def State.teFire (s : State) (n : Nat) (e : Time) : State :=
  let s := s.setTime (AQ_TE_FT_LO_T_LO n) (AQ_TE_FT_HI_T_HI n) e
  let s := (s.raiseBit AQ_FLAGS_FIRE n).count (AQ_TE_STAT_FIRES n) 1
  let s := (s.set (AQ_TE_STAT_STATE n) (if s.on (AQ_TE_CTL_AUTO n) then teHoldoff else teIdle)).set (AQ_TE_STAT_STAGE n) 0
  let s := s.setTe n { s.te n with hits := 0, evals := 0, fireAt := e, held := 0 }
  let s := { s with groups := s.groups.map fun (x : Group) => { x with wp := { x.wp with fires := x.wp.fires ||| BitVec.ofNat 4 (1 <<< n) } } }
  let s := s.teCapture n e
  let s := if s.on (AQ_TE_OUT_SNAP n) then s.snapRequest 2 else s
  let s := if s.on (AQ_TE_OUT_CAUSE_EN n) then
      s.causeMask (s.get (AQ_TE_ENG_ENG n)) (s.get (AQ_TE_OUT_CTX n)) (s.get (AQ_TE_OUT_PRIO n)) .event else s
  s.tePulse n e

/-- R196: one step of an armed engine. -/
def State.teStep (s : State) (n : Nat) (e : Time) (mark : Bool) : State :=
  let m := s.get (AQ_TE_STAT_STAGE n)
  let t := s.te n
  let hits := if s.stageMatches n m e mark then t.hits + 1 else t.hits
  let evals := t.evals + 1
  let win := s.get (AQ_TE_S_WIN_WIN n m)
  if hits = s.get (AQ_TE_S_CTL_COUNT n m) + 1 then
    if m = s.get (AQ_TE_S_CTL_NST n 0) then s.teFire n e
    else (s.set (AQ_TE_STAT_STAGE n) (m + 1)).setTe n { t with hits := 0, evals := 0 }
  else if 0 < m ∧ win ≠ 0 ∧ evals = win then (s.set (AQ_TE_STAT_STAGE n) 0).setTe n { t with hits := 0, evals := 0 }
  else s.setTe n { t with hits := hits, evals := evals }

/-- R197: the engine leaves HOLDOFF at this instant. -/
def State.teReturns (s : State) (n : Nat) (e : Time) : Bool :=
  let t := s.te n
  let hold := s.get (AQ_TE_HOLD_HOLD n)
  match s.get (AQ_TE_CTL_HMODE n) with
  | 1 => decide (hold ≤ 1024 * (e - t.fireAt).toNat)
  | 2 => decide (hold ≤ t.held)
  | _ => true

/-- Engine n is armed at stage 0 at TIME t. -/
def State.teArmAt (s : State) (n : Nat) (t : Time) : State :=
  ((s.set (AQ_TE_STAT_STATE n) teArmed).set (AQ_TE_STAT_STAGE n) 0).setTe n { s.te n with hits := 0, evals := 0, armAt := t }

/-- R196, R197: engine n at an evaluation instant; one from before its arm does not step it. -/
def State.teEvaluate (s : State) (n : Nat) (e : Time) (mark : Bool) : State :=
  let st := s.get (AQ_TE_STAT_STATE n)
  let s := if !reached e (s.te n).armAt then s else if st = teArmed then s.teStep n e mark
    else if st = teHoldoff then
      (if s.teReturns n e then (s.teArmAt n e).teStep n e mark
       else if s.stageMatches n 0 e mark then s.setTe n { s.te n with held := (s.te n).held + 1 } else s)
    else s
  s.setTe n { s.te n with ext := (s.te n).ext.filter fun x => !reached e x.2 }

/-- R194: the outcome of a vector that ended at or before E is still awaited. -/
def State.outcomeAwaited (s : State) (e : Time) : Bool :=
  s.groups.toList.any fun (x : Group) => x.outq.any fun v => reached e (tclkOf v.endTick)

/-- TRIGGER_EVALUATION (R194): the oldest evaluation instant of the engine, once the outcomes of every group up to it
have been formed. -/
def execTriggerEvaluation (te : Fin 4) (s : State) : Host.Outcome State Fault Refusal :=
  done s (match (s.te te).due with
    | (stop, mark) :: rest => if s.outcomeAwaited (tclkOf stop) then s else (s.setTe te { s.te te with due := rest }).teEvaluate te (tclkOf stop) mark
    | [] => s)

/-- TRIG_OUT_PULSE_END (R198): the pulses of a ball that have ended. -/
def execTrigOutPulseEnd (k : Fin 2) (s : State) : Host.Outcome State Fault Refusal :=
  done s { s with trigOut := vset s.trigOut k ((vget s.trigOut k []).filter fun x => !reached s.time x.2) }

/-- R197: a write of AQ_TEn_ARM; DISARM wins. -/
def State.writeTeArm (s : State) (n : Nat) (v : Word) : State :=
  if fieldOf v 1 1 = 1 then (s.set (AQ_TE_STAT_STATE n) teIdle).set (AQ_TE_STAT_STAGE n) 0
  else if fieldOf v 0 0 = 1 ∧ s.on (AQ_TE_CTL_EN n) then s.teArmAt n s.time
  else s

/-- TE_ARM (R197): a live host write. -/
def execTeArm (te : Fin 4) (v : Word) (s : State) : Host.Outcome State Fault Refusal :=
  done s (s.mirrored (AQ_TE_ARM te).addr v fun s => s.writeTeArm te v)

/-- TE_DISARM (R197): a live host write with DISARM = 1. -/
def execTeDisarm (te : Fin 4) (v : Word) (s : State) : Host.Outcome State Fault Refusal :=
  doneIf (fieldOf v 1 1 == 1) s (s.mirrored (AQ_TE_ARM te).addr v fun s => s.writeTeArm te v)

/-- R195: an external event of engine n. -/
def State.teExternal (s : State) (n i : Nat) : State :=
  s.setTe n { s.te n with ext := (s.te n).ext ++ [(i, s.time)] }

/-- TE_SOFT (R195): a live host write of AQ_SOFT. -/
def execTeSoft (v : Word) (s : State) : Host.Outcome State Fault Refusal :=
  done s (s.mirrored AQ_SOFT.addr v fun s => s.forEach (bitsOf (fieldOf v 3 0) 4) fun s n => s.teExternal n 2)

/-- R197: a commit that changes a staged register of engine n; REF may be another engine from here on (R194). -/
def State.teCommit (s : State) (n : Nat) : State :=
  let s := s.teArmAt n s.time
  let s := s.setTe n { s.te n with due := [] }
  if s.on (AQ_TE_CTL_EN n) then s else s.set (AQ_TE_STAT_STATE n) teIdle

/-- R189: a rising edge of TRIG_INk serves the captures whose TSRC names it: the trigger vector begins more than 10 ns
after the edge. -/
def State.trigInCapture (s : State) (k : Nat) : State :=
  s.forEach (List.range 32) fun s g =>
    let c := (s.group g).cap
    if s.get (FC_CAP_STAT_STATE g) = capArmed ∧ c.tsrc = 6 + k then
      s.capAwait g (tickOf (later s.time 16) + 1)
    else s

end Sys2Proof.Machine
end

