-- ==== Sys2Proof/Machine/Waveform.lean ====
section
/-! DEFINITION. Chapter 08: the waveform players. -/

namespace Sys2Proof.Machine

def wpIdle : Nat := 0
def wpArmed : Nat := 1
def wpPlaying : Nat := 2
def wpUnderrun : Nat := 3

def State.wp (s : State) (g : Nat) : Player := (s.group g).wp
def State.setWp (s : State) (g : Nat) (x : Player) : State := s.setGroup g { s.group g with wp := x }
def State.wpState (s : State) (g : Nat) : Nat := s.get (WP_STAT_STATE g)

/-- The player is PLAYING or UNDERRUN. -/
def State.wpRuns (s : State) (g : Nat) : Bool := s.wpState g == wpPlaying || s.wpState g == wpUnderrun

/-! ### Segments and entries (R203, R204) -/

/-- A segment as the tables now give it: START, length, STRM. -/
def State.wpSegment (s : State) (g n : Nat) : Nat × Nat × Bool :=
  (s.get (WP_SEG_A_START g n), s.get (WP_SEG_B_LEN g n) + 1, s.on (WP_SEG_A_STRM g n))

/-- R218: a segment boundary: WP_UNDR and the segment it names act from here. -/
def State.wpLoadUnder (s : State) (g : Nat) : State :=
  let n := s.get (WP_UNDR_SEG g)
  let (a, l, _) := s.wpSegment g n
  s.setWp g { s.wp g with uSeg := n, resume := s.get (WP_UNDR_RESUME g), uStart := a, uLen := l }

/-- A segment starts: its table entry and UNDR act from here (R218). -/
def State.wpLoadSeg (s : State) (g : Nat) : State :=
  let n := s.get (WP_SEQ_A_SEG g (s.get (WP_STAT_ENTRY g)))
  let (a, l, m) := s.wpSegment g n
  let s := s.wpLoadUnder g
  (s.setWp g { s.wp g with pos := 0, start := a, len := l, strm := m }).set (WP_STAT_SEG g) n

/-- R212: an entry is entered. -/
def State.wpEnter (s : State) (g e : Nat) : State :=
  let s := ((s.set (WP_STAT_ENTRY g) e).set (WP_REP_REP g) 0).setWp g { s.wp g with trig := 0, fires := 0 }
  s.wpLoadSeg g

/-- R204: the jump condition of an entry. -/
def State.wpCond (s : State) (g e : Nat) : Bool :=
  match s.get (WP_SEQ_A_JCOND g e) with
  | 1 => s.stepInForce == s.get (WP_JSTEP_STEP g)
  | 2 => s.stepInForce != s.get (WP_JSTEP_STEP g)
  | 3 => (s.wp g).trig.getLsbD 0
  | 4 => (s.wp g).trig.getLsbD 1
  | 5 => (s.wp g).fires.getLsbD (s.get (WP_CTL_TE g))
  | _ => false

/-! ### Ownership (R205) -/

/-- Ownership ends: the owned DACs return to the level set in force. -/
def State.wpRelease (s : State) (g : Nat) : State :=
  (s.setGroup g { s.group g with wpOwn := [], wp := { s.wp g with flight := [] } }).retargetGroup g

/-- The DACs that WP_CTL and WP_CHMASK give the player: one not owned before holds its level-set code until the next
sample reaches it (R206, R218). -/
def State.wpOwned (s : State) (g : Nat) : List (Nat × Nat × BitVec 16) :=
  let d := s.get (WP_CTL_DAC g)
  (bitsOf (s.get (WP_CHMASK_MASK g)) 16).map fun p =>
    match (s.group g).wpOwn.find? fun o => o.1 == p && o.2.1 == d with
    | some o => o
    | none => (p, d, BitVec.ofNat 16 (s.dieGet (levelCode g p (s.get (LS_SELSTAT_SEL g)) d)))

/-- R205, R218: ownership begins, or a commit changes DAC or CHMASK: what is no longer owned returns to its level-set
code. -/
def State.wpReown (s : State) (g : Nat) : State :=
  (s.setGroup g { s.group g with wpOwn := s.wpOwned g }).retargetGroup g

/-- R206, R97: a sample reaches an owned DAC: the slew limiter's schedule restarts even where the code is the same. -/
def State.wpFollow (s : State) (g p d : Nat) : State :=
  if s.clrLow g || (s.testSet g p d).isSome then s.retarget g p d else s.follow g p d

/-- R205: a clamped code reaches the dies: it is the target of every DAC owned since it issued. -/
def State.wpTarget (s : State) (g : Nat) (code : BitVec 16) (d : Nat) (mask : BitVec 16) : State :=
  let hit := fun (o : Nat × Nat × BitVec 16) => o.2.1 == d && mask.getLsbD o.1
  let own := (s.group g).wpOwn.map fun o => if hit o then (o.1, o.2.1, code) else o
  ((own.filter hit).map (·.1)).foldl (init := s.setGroup g { s.group g with wpOwn := own }) fun s p => s.wpFollow g p d

/-! ### Underrun history (R216) -/

/-- The underrun begins at tick t: the next entry opens. -/
def State.wpHistOpen (s : State) (g : Nat) (t : Time) : State :=
  let i := s.get (WP_UHPTR_NEXT g)
  let s := if (s.wp g).wrapped then s.flag (WP_FLAGS_HOVF g) (WP_CNT1_HOVF g) else s
  let s := s.setTime (WP_UH_SLO_S_LO g i) (WP_UH_SHI_S_HI g i) t
  let s := (s.setTime (WP_UH_ELO_E_LO g i) (WP_UH_EHI_E_HI g i) 0).set (WP_UH_EHI_OPEN g i) 1
  (s.setWp g { s.wp g with wrapped := (s.wp g).wrapped || i == 15 }).set (WP_UHPTR_NEXT g) ((i + 1) % 16)

/-- The underrun is over: its entry closes with the TIME given. -/
def State.wpHistClose (s : State) (g : Nat) (t : Time) : State :=
  let i := (s.get (WP_UHPTR_NEXT g) + 15) % 16
  (s.setTime (WP_UH_ELO_E_LO g i) (WP_UH_EHI_E_HI g i) t).set (WP_UH_EHI_OPEN g i) 0

/-! ### Start, stop and jump (R210 to R213) -/

/-- R211: the player stops. The end time of an underrun cut short has no first sample after it: it is left open. -/
def State.wpHalt (s : State) (g : Nat) : State :=
  let s := if s.wpState g = wpUnderrun then (s.wpHistClose g (s.fresh.setWidth 56)).burn else s
  let s := ((s.set (WP_STAT_STATE g) wpIdle).set (WP_STAT_JPEND g) 0).setWp g { s.wp g with armed := none, due := [] }
  s.wpRelease g

/-- R210: the player starts at entry e; ownership begins (R205). -/
def State.wpBegin (s : State) (g e : Nat) : State :=
  if !s.on (WP_CTL_EN g) || s.wpRuns g then s
  else
    let s := (s.set (WP_STAT_STATE g) wpPlaying).set (WP_STAT_JPEND g) 0
    ((s.setWp g { s.wp g with armed := none, due := [], high := s.phase }).wpEnter g e).wpReown g

/-- R213: a jump is requested. -/
def State.wpRequest (s : State) (g e : Nat) : State :=
  if s.wpRuns g then (s.set (WP_STAT_JPEND g) 1).setWp g { s.wp g with jent := e } else s

/-! ### Samples (R202, R205, R209, R212 to R216) -/

/-- R215: the next stream sample's address; a word is consumed with its fourth sample. -/
def State.wpStream (s : State) (g : Nat) : State × Nat :=
  let x := s.wp g
  let cons := s.get (WP_STRM_STAT_CONS g)
  let base := s.get (WP_STRM_BASE g)
  let addr := 4 * cons + x.lane
  if x.lane < 3 then (s.setWp g { x with lane := x.lane + 1 }, addr)
  else
    let next := if cons + 1 = base + s.get (WP_STRM_LEN g) then base else cons + 1
    (((s.setWp g { x with lane := 0 }).set (WP_STRM_STAT_CONS g) next).set (WP_STRM_STAT_FILL g)
      (s.get (WP_STRM_STAT_FILL g) - 1), addr)

/-- One sample of the underrun segment (R216). -/
def State.wpSubstitute (s : State) (g : Nat) : State × Nat :=
  let x := s.wp g
  ((s.setWp g { x with uPos := x.uPos + 1 }).count (WP_USAMP_USAMP g) 1, (x.uStart + x.uPos) % 65536)

/-- R216: the underrun begins at tick t. -/
def State.wpUnder (s : State) (g : Nat) (t : Time) : State × Nat :=
  let x := s.wp g
  let s := (s.flag (WP_FLAGS_UNDR g) (WP_CNT0_UNDR g)).set (WP_STAT_STATE g) wpUnderrun
  let s := (s.wpHistOpen g t).set (WP_STAT_SEG g) x.uSeg
  (s.setWp g { s.wp g with uPos := 0 }).wpSubstitute g

/-- The sample `pos` of the current segment (R203, R216). -/
def State.wpTake (s : State) (g : Nat) (t : Time) : State × Nat :=
  let x := s.wp g
  if x.strm then
    if s.get (WP_STRM_STAT_FILL g) = 0 then s.wpUnder g t
    else
      let (s, a) := s.wpStream g
      (s.setWp g { s.wp g with pos := x.pos + 1 }, a)
  else (s.setWp g { x with pos := x.pos + 1 }, (x.start + x.pos) % 65536)

/-- R212: the boundary of the current segment; `none`: the player stops at END. -/
def State.wpBoundary (s : State) (g : Nat) : Option State :=
  let e := s.get (WP_STAT_ENTRY g)
  let rep := s.get (WP_REP_REP g) + 1
  if s.on (WP_STAT_JPEND g) then some ((s.set (WP_STAT_JPEND g) 0).wpEnter g (s.wp g).jent)
  else if s.wpCond g e then some (s.wpEnter g (s.get (WP_SEQ_A_JNEXT g e)))
  else if !s.on (WP_SEQ_B_INF g e) && rep == s.get (WP_SEQ_B_LOOP g e) + 1 then
    if s.on (WP_SEQ_A_END g e) then none else some (s.wpEnter g (s.get (WP_SEQ_A_NEXT g e)))
  else some ((s.set (WP_REP_REP g) rep).wpLoadSeg g)

/-- Leaving the underrun at tick t (R216). -/
def State.wpResume (s : State) (g : Nat) (t : Time) : State :=
  let n := s.get (WP_SEQ_A_SEG g (s.get (WP_STAT_ENTRY g)))
  ((s.wpHistClose g t).set (WP_STAT_STATE g) wpPlaying).set (WP_STAT_SEG g) n

/-- R212, R216: the player moves to its next due sample; `none` where it stops, the last repetition counted. -/
def State.wpNext (s : State) (g : Nat) (t : Time) : State × Option Nat :=
  let x := s.wp g
  if s.wpState g = wpUnderrun then
    if x.uPos = x.uLen then
      let s := s.wpLoadUnder g
      let x := s.wp g
      if s.on (WP_STAT_JPEND g) then
        let (s, a) := (((s.wpResume g t).set (WP_STAT_JPEND g) 0).wpEnter g x.jent).wpTake g t
        (s, some a)
      else if x.resume ≤ s.get (WP_STRM_STAT_FILL g) then
        let (s, a) := (s.wpResume g t).wpTake g t
        (s, some a)
      else
        let (s, a) := ((s.setWp g { x with uPos := 0 }).set (WP_STAT_SEG g) x.uSeg).wpSubstitute g
        (s, some a)
    else
      let (s, a) := s.wpSubstitute g
      (s, some a)
  else if x.pos = x.len then
    match s.wpBoundary g with
    | some s =>
      let (s, a) := s.wpTake g t
      (s, some a)
    | none => ((s.set (WP_REP_REP g) (s.get (WP_REP_REP g) + 1)).wpHalt g, none)
  else
    let (s, a) := s.wpTake g t
    (s, some a)

/-- R202: the 18 bits of a sample. -/
def State.wpWord (s : State) (g addr : Nat) : Nat :=
  nbits (s.memWord (memAddr memWave 0x40000 g (addr / 4))) (18 * (addr % 4) + 17) (18 * (addr % 4))

/-- R214: the marks of a sample. -/
def State.wpMarks (s : State) (g x : Nat) (t : Time) : State :=
  let s := if x.testBit 16 then
      let s := s.setTime (WP_MARKT_LO_T_LO g) (WP_MARKT_HI_T_HI g) t
      s.causeRouted (WP_CTL_MCAUSE g) (WP_CTL_CTX g) (WP_CTL_PRIO g) g .event
    else s
  if x.testBit 17 && s.on (WP_CTL_MSNAP g) then s.snapRequestAt t 6 else s

/-- R205: a sample issues: its clamped code is on its way to the die. -/
def State.wpIssue (s : State) (g addr code : Nat) (t : Time) : State :=
  let c := max (s.get (WP_LIM_LO g)) (min (s.get (WP_LIM_HI g)) code)
  let s := if c = code then s else s.flag (WP_FLAGS_SCLAMP g) (WP_CNT0_SCLAMP g)
  let s := (s.set (WP_POS_CODE g) c).set (WP_POS_ADDR g) addr
  let mask := BitVec.ofNat 16 (s.get (WP_CHMASK_MASK g))
  s.setWp g { s.wp g with
    lastIssue := some t
    flight := (s.wp g).flight ++ [(later t 64, BitVec.ofNat 16 c, s.get (WP_CTL_DAC g), mask)] }

/-- The number of a group's waveform store among the memories of R19. -/
def waveMem (g : Nat) : Nat := 96 + g

/-- R209: one due sample at tick t; `last` of those due in this TCLK, and 500 ns after the last issued, it issues. A word
whose fetch is uncorrectable leaves the previous sample standing (R19). -/
def State.wpSample (s : State) (g : Nat) (t : Time) (last : Bool) (ecc : EccResult) : State :=
  if !s.wpRuns g then s
  else
    match s.wpNext g t with
    | (s, none) => s
    | (s, some addr) =>
      let s := s.sramRead (waveMem g) ecc
      if ecc = .uncorrectable then s
      else
        let x := s.wpWord g addr
        let s := s.wpMarks g x t
        let free := match (s.wp g).lastIssue with
          | some l => decide (800 ≤ (t - l).toNat)
          | none => true
        if last && free then s.wpIssue g addr (x % 65536) t
        else (s.count (WP_SKIP_SKIP g) 1).raise (WP_FLAGS_SKIP g)

/-- R212: the n sample ticks of TCLK t; `ecc` is what the fetch of the last of them met. -/
def State.wpTicks (s : State) (g : Nat) (t : Time) (ecc : EccResult) : Nat → State
  | 0 => s
  | n + 1 => (s.wpSample g t (n == 0) (if n = 0 then ecc else .good)).wpTicks g t ecc n

/-- What acts in TCLK t, taken in a later one. -/
def State.asOf (s : State) (t : Time) (f : State → State) : State := { f { s with time := t } with time := s.time }

/-- R213: the oldest sample ticks not yet taken act, once their TCLK has passed: what arrives in it counts as arriving
before. -/
def State.wpTick (s : State) (g : Nat) (ecc : EccResult) : State :=
  match (s.wp g).due with
  | (t, n) :: rest =>
    if reached s.time (later t 1) then (s.setWp g { s.wp g with due := rest }).asOf t fun s => s.wpTicks g t ecc n else s
  | [] => s

/-- The ticks of the TCLKs before this one have acted. -/
def State.wpCatch (s : State) (g : Nat) : State :=
  (List.range (s.wp g).due.length).foldl (fun s _ => s.wpTick g .good) s

/-- WP_SAMPLE_TICK (R212): the sample ticks of the oldest update not yet taken. -/
def execWpSampleTick (x : WaveRead) (s : State) : Host.Outcome State Fault Refusal := done s (s.wpTick x.group x.ecc)

/-! ### Host commands and epochs (R210, R211, R213) -/

/-- R210, R211: a write of WP_CMD. STOP wins; START with JUMP starts at JENT. -/
def State.writeWpCmd (s : State) (g : Nat) (v : Word) : State :=
  let start := fieldOf v 31 31 == 1
  let jump := fieldOf v 29 29 == 1
  let jent := fieldOf v 5 0
  let s := s.wpCatch g
  if fieldOf v 30 30 = 1 then s.wpHalt g
  else if start && !s.wpRuns g then s.wpBegin g (if jump then jent else s.get (WP_CTL_ENTRY0 g))
  else if jump then s.wpRequest g jent
  else s

/-- WP_START (R210): a live host write of WP_CMD with START = 1. -/
def execWpStart (g : GroupIx) (v : Word) (s : State) : Host.Outcome State Fault Refusal :=
  doneIf (fieldOf v 31 31 == 1) s (s.mirrored (WP_CMD g).addr v fun s => s.writeWpCmd g v)

/-- WP_STOP (R211): a live host write of WP_CMD with STOP = 1. -/
def execWpStop (g : GroupIx) (v : Word) (s : State) : Host.Outcome State Fault Refusal :=
  doneIf (fieldOf v 30 30 == 1) s (s.mirrored (WP_CMD g).addr v fun s => s.writeWpCmd g v)

/-- WP_JUMP (R213): a live host write of WP_CMD with JUMP = 1. -/
def execWpJump (g : GroupIx) (v : Word) (s : State) : Host.Outcome State Fault Refusal :=
  doneIf (fieldOf v 29 29 == 1) s (s.mirrored (WP_CMD g).addr v fun s => s.writeWpCmd g v)

/-- The target of an epoch kind in WP_STGT0 and WP_STGT1 (R210). -/
def State.wpEpochTarget (s : State) (g : Nat) : BitVec 64 :=
  let lo := s.get (WP_STGT0_TGT0 g)
  let hi := s.get (WP_STGT1_TGT1 g)
  if s.get (WP_SCTL_KIND g) = 2 then BitVec.ofNat 64 (hi * 2 ^ 32 + lo) else BitVec.ofNat 64 (hi % 2 ^ 24 * 2 ^ 32 + lo)

/-- R210: a write of WP_SCTL. A player that runs is not armed. -/
def State.writeWpSctl (s : State) (g : Nat) (v : Word) : State :=
  let s := s.set (WP_SCTL_KIND g) (fieldOf v 2 0)
  if fieldOf v 31 31 = 1 ∧ !s.wpRuns g then
    (s.set (WP_STAT_STATE g) wpArmed).setWp g { s.wp g with armed := some (s.get (WP_SCTL_KIND g), s.wpEpochTarget g, s.time) }
  else s

/-- WP_SCTL_ARM (R210): a live host write. -/
def execWpSctlArm (g : GroupIx) (v : Word) (s : State) : Host.Outcome State Fault Refusal :=
  done s (s.mirrored (WP_SCTL g).addr v fun s => s.writeWpSctl g v)

/-- R210: the armed epoch is reached. -/
def State.wpEpoch (s : State) (g : Nat) : State :=
  ((s.set (WP_STAT_STATE g) wpIdle).setWp g { s.wp g with armed := none }).wpBegin g (s.get (WP_CTL_ENTRY0 g))

/-- WP_SAMPLE_TARGET (R205): 40 ns after its tick. -/
def execWpSampleTarget (g : GroupIx) (s : State) : Host.Outcome State Fault Refusal :=
  done s (match (s.wp g).flight with
    | (t, code, d, mask) :: rest =>
      if reached s.time t then (s.setWp g { s.wp g with flight := rest }).wpTarget g code d mask else s
    | [] => s)

/-! ### The phase accumulator (R207, R208) -/

def wpAccMod : Nat := 2 ^ 48

/-- R208: A at an angle. -/
def wpAccAt (angle pmul : Nat) : Nat := angle * pmul * 2 ^ 16 % wpAccMod

/-- R208: ticks of PHASE rising by d from an angle. -/
def wpPhaseTicks (angle d pmul : Nat) : Nat := (angle + d) * pmul / 2 ^ 32 - angle * pmul / 2 ^ 32

/-- The ticks of this TCLK wait for the player, if it runs. -/
def State.wpDue (s : State) (g n : Nat) : State :=
  if 0 < n ∧ s.wpRuns g then s.setWp g { s.wp g with due := (s.wp g).due ++ [(s.time, n)] } else s

/-- R208: an update in the LOCKED state. -/
def State.wpUpdatePhase (s : State) (g : Nat) (useIt : Bool) : State :=
  let x := s.wp g
  let now := s.phase
  let d := (now - x.high).toNat
  let angle := now.toNat % 2 ^ 32
  let pmul := s.get (WP_PMUL_PMUL g)
  let rose := decide (0 < d ∧ d < 2 ^ 63)
  let rise := if x.jumped then d % 2 ^ 32 else d
  let x' := { x with high := if rose then now else x.high, jumped := false,
                     recalc := if useIt then false else x.recalc,
                     acc := if useIt && (rose || x.recalc) then wpAccAt angle pmul else x.acc }
  let s := s.setWp g x'
  if useIt && rose then s.wpDue g (wpPhaseTicks ((now.toNat + 2 ^ 64 - rise) % 2 ^ 32) rise pmul) else s

/-- R207: an update every 16 TCLK. -/
def State.wpUpdate (s : State) (g : Nat) : State :=
  let byPhase := s.on (WP_CTL_CLK g)
  let s := if s.phLockedB then s.wpUpdatePhase g byPhase else s
  if byPhase then s
  else
    let x := s.wp g
    let a := x.acc + (s.get (WP_INC_HI_INC_HI g) * 2 ^ 32 + s.get (WP_INC_LO_INC_LO g))
    (s.setWp g { x with acc := a % wpAccMod }).wpDue g (a / wpAccMod)

/-- The players at this TCLK. -/
def State.wpTclk (s : State) : State :=
  if s.time.toNat % 16 = 0 then s.forEach (List.range 32) State.wpUpdate else s

/-! ### Refill (R215) -/

/-- Words of the region that are free. -/
def State.wpRoom (s : State) (g : Nat) : Nat := s.get (WP_STRM_LEN g) - s.get (WP_STRM_STAT_FILL g)

/-- R215: one word delivered to the stream region. -/
def State.wpDeliver (s : State) (g : Nat) (w : Native) : State :=
  let base := s.get (WP_STRM_BASE g)
  let len := s.get (WP_STRM_LEN g)
  let fill := s.get (WP_STRM_STAT_FILL g)
  if fill < len then
    let i := base + (s.get (WP_STRM_STAT_CONS g) - base + fill) % len
    (s.setMemWord (memAddr memWave 0x40000 g i) w).set (WP_STRM_STAT_FILL g) (fill + 1)
  else s

/-! ### Commits, triggers (R204, R218) -/

/-- R218: WP_STRM has changed. -/
def State.wpStrmCommit (s : State) (g : Nat) : State :=
  ((s.set (WP_STRM_STAT_FILL g) 0).set (WP_STRM_STAT_CONS g) (s.get (WP_STRM_BASE g))).setWp g { s.wp g with lane := 0 }

/-- R204: an edge of TRIG_INk reaches every player. -/
def State.wpTrig (s : State) (k : Nat) : State :=
  s.forEach (List.range 32) fun s g =>
    let s := s.wpCatch g
    s.setWp g { s.wp g with trig := (s.wp g).trig ||| BitVec.ofNat 2 (1 <<< k) }

/-- TRIG_IN_RISE (R189, R195, R204, R131): a rising edge serves captures, trigger stages, player conditions and SMCLK
wakes. -/
def execTrigInRise (k : Fin 2) (s : State) : Host.Outcome State Fault Refusal :=
  let s1 := (s.trigInCapture k).wpTrig k
  let s1 := s1.forEach (List.range 4) fun s n => s.teExternal n k
  done s (if s1.bit (CP_SM_CTL_WSRC 0) (k.val + 1) then s1.smWake else s1)

end Sys2Proof.Machine
end

