-- ==== Sys2Proof/Machine/Checks.lean ====
section
/-! DEFINITION. The consistency checks CK01 to CK37 of R334 over the staged plane. Each answers its failures in
ascending order: unit and sub-index. -/

namespace Sys2Proof.Machine

/-- A failure: unit and sub-index (R334). -/
abbrev CkFail := Nat × Nat

/-- The staged value as a number, a field read as signed. -/
def State.stagedInt (s : State) (x : Fld) : Int :=
  let n := x.hi + 1 - x.lo
  let v := s.stagedGet x
  if v < 2 ^ (n - 1) then (v : Int) else (v : Int) - 2 ^ n

def State.stagedOn (s : State) (x : Fld) : Bool := s.stagedGet x != 0

/-- The sub-indices below n that fail, for one unit. -/
def failSubs (unit n : Nat) (bad : Nat → Bool) : List CkFail := ((List.range n).filter bad).map fun k => (unit, k)

/-- The units below n that fail, with sub-index 0. -/
def failUnits (n : Nat) (bad : Nat → Bool) : List CkFail := ((List.range n).filter bad).map fun u => (u, 0)

/-- A check over the 512 channels, by group and position. -/
def failChans (bad : Nat → Nat → Bool) : List CkFail := failUnits 512 fun c => bad (c / 16) (c % 16)

/-- A check over the channels and n sub-indices. -/
def failChanSubs (n : Nat) (bad : Nat → Nat → Nat → Bool) : List CkFail :=
  (List.range 512).flatMap fun c => failSubs c n (bad (c / 16) (c % 16))

/-! ### Gangs and microcode (CK01 to CK03) -/

def State.stagedM (s : State) (e : Nat) : Nat := s.stagedGet (SQ_GANG_M e)

/-- The block of 2^M engines that contains e in the staged plane. -/
def State.stagedBlock (s : State) (e : Nat) : List Nat :=
  let n := 2 ^ s.stagedM e
  (List.range n).map (e / n * n + ·)

def State.stagedLeader (s : State) (e : Nat) : Nat := e / 2 ^ s.stagedM e * 2 ^ s.stagedM e

/-- CK01 (R221). -/
def State.ck01 (s : State) : List CkFail :=
  failUnits 32 fun e => (s.stagedBlock e).any fun m => s.stagedM m != s.stagedM e

/-- CK02 (R222). -/
def State.ck02 (s : State) : List CkFail :=
  ((List.range 32).filter fun l => s.stagedLeader l == l).flatMap fun l =>
    let ms := s.stagedBlock l
    let use := s.stagedGet (TG_TS_USE_USE l)
    if ms.any fun m => s.stagedGet (TG_TS_USE_USE m) != use then [(l, 63)]
    else ((bitsOf use 32).find? fun n =>
        ms.any fun m => s.stagedGet (TG_TS_PER_PER m n) != s.stagedGet (TG_TS_PER_PER l n)).toList.map fun n => (l, n)

/-- CK03 (R317). -/
def State.ck03 (s : State) : List CkFail :=
  let n := s.stagedGet MC_IMGSEL_SLOT
  if n ≠ s.get MC_IMGSEL_SLOT ∧ !s.bit MC_VSTAT_VALID n then [(0, n)] else []

/-! ### Timing (CK04 to CK10; R72) -/

/-- The edges of one timing set of a channel in the staged plane. -/
structure Edges where
  p : Nat
  fmt : Nat
  t1 : Nat
  t2 : Nat
  t3 : Nat
  t4 : Nat
  deriving DecidableEq, Repr

def State.edgesOf (s : State) (g p n : Nat) : Edges :=
  { p := s.stagedGet (TG_TS_PER_PER g n), fmt := s.stagedGet (TG_T1_FMT g n p), t1 := s.stagedGet (TG_T1_T1 g n p),
    t2 := s.stagedGet (TG_T2_T2 g n p), t3 := s.stagedGet (TG_T3_T3 g n p), t4 := s.stagedGet (TG_T4_T4 g n p) }

/-- The rules of R72 on one timing set. -/
def Edges.outside (e : Edges) : Bool := decide (e.p ≤ e.t1) || decide (e.p ≤ e.t2) || decide (e.p ≤ e.t3) || decide (e.p ≤ e.t4)
def Edges.disordered (e : Edges) : Bool := decide (e.t4 < e.t3)
def Edges.rzClose (e : Edges) : Bool := (e.fmt == fmtRz || e.fmt == fmtR1) && decide (e.t2 < e.t1 + 1024)
def Edges.sbcClose (e : Edges) : Bool :=
  e.fmt == fmtSbc && (decide (e.t1 < 1024) || decide (e.t2 < e.t1 + 1024) || decide (e.p < e.t2 + 1024))
def Edges.dnrzClose (e : Edges) : Bool :=
  e.fmt == fmtDnrz && e.t1 != e.t2 && decide (e.t1 < e.t2 + 1024) && decide (e.t2 < e.t1 + 1024)

/-- R72: tail and head of a channel in one timing set. -/
def Edges.tail (e : Edges) : Int :=
  let last := if e.fmt = fmtNrz then e.t1 else if e.fmt = fmtDnrz then max e.t1 e.t2 else e.t2
  (e.p : Int) - last
def Edges.head (e : Edges) : Int := if e.fmt = fmtSbc then 0 else if e.fmt = fmtDnrz then min e.t1 e.t2 else e.t1

/-- The least of some numbers; `none` of none. -/
def leastOf (l : List Int) : Option Int := l.foldl (fun m x => match m with
  | some y => some (min y x)
  | none => some x) none

/-- A rule of R72 over the sets in use. -/
def State.ckEdges (s : State) (bad : Edges → Bool) : List CkFail :=
  failChanSubs 32 fun g p n => (s.stagedGet (TG_TS_USE_USE g)).testBit n && bad (s.edgesOf g p n)

/-- CK09. -/
def State.ck09 (s : State) : List CkFail :=
  failChans fun g p =>
    let es := (bitsOf (s.stagedGet (TG_TS_USE_USE g)) 32).map (s.edgesOf g p)
    match leastOf (es.map Edges.tail), leastOf (es.map Edges.head) with
    | some t, some h => decide (t + h < 1024)
    | _, _ => false

/-- CK10. -/
def State.ck10 (s : State) : List CkFail :=
  failChans fun g p =>
    let b := s.stagedGet (TG_DSKB_BOARD g p)
    decide (40960 < s.get (TG_DSKI_DD_INT g p) + b) || decide (40960 < s.get (TG_DSKI_DC_INT g p) + b)

/-! ### Levels (CK11 to CK15; R101) -/

/-- The limits that the rails of a channel's die set, in units of 2^-17 mV: VDRN + 1.0 V and VDRP − 1.0 V. -/
def State.railLow (s : State) (g : Nat) : Int := 131072 * (10 * s.stagedInt (LS_RAIL_VDRN (g / 8 * 8)) + 1000)
def State.railHigh (s : State) (g : Nat) : Int := 131072 * (10 * (s.stagedGet (LS_RAIL_VDRP (g / 8 * 8)) : Int) - 1000)

/-- A code lies outside them. -/
def State.offRails (s : State) (g code : Nat) : Bool :=
  decide (codeVolts code < s.railLow g) || decide (s.railHigh g < codeVolts code)

/-- LS_PMU_p.MODE = FVMI (R111). -/
def State.stagedFvmi (s : State) (g p : Nat) : Bool := s.stagedGet (LS_PMU_MODE g p) == 1

/-- CK11 to CK15. -/
def State.ck11 (s : State) : List CkFail :=
  failChanSubs 8 fun g p l => decide (s.stagedGet (LS_DH_CODE g p l) < s.stagedGet (LS_DL_CODE g p l) + 729)
def State.ck12 (s : State) : List CkFail :=
  failChanSubs 8 fun g p l => decide (s.stagedGet (LS_TH_CODE g p l) < s.stagedGet (LS_TL_CODE g p l))
def State.ck13 (s : State) : List CkFail :=
  failChanSubs 8 fun g p l =>
    decide (s.railHigh g < codeVolts (s.stagedGet (LS_DH_CODE g p l))) || decide (codeVolts (s.stagedGet (LS_DL_CODE g p l)) < s.railLow g)
def State.ck14 (s : State) : List CkFail := failChanSubs 8 fun g p l => s.offRails g (s.stagedGet (LS_VT_CODE g p l))
def State.ck15 (s : State) : List CkFail :=
  failChanSubs 8 fun g p l => s.stagedFvmi g p && s.offRails g (s.stagedGet (LS_PF_CODE g p l))

/-! ### Comparators and trips (CK16 to CK22) -/

/-- CP_CMP_p.MODE = OFF. -/
def State.stagedCmpOff (s : State) (g p : Nat) : Bool := s.stagedGet (CP_CMP_MODE g p) == 2

def State.ck16 (s : State) : List CkFail :=
  failChans fun g p =>
    let n := s.stagedGet (CP_CMP_N g p)
    let m := s.stagedGet (CP_CMP_M g p)
    decide (m < n) || decide (n ≤ m / 2)
def State.ck17 (s : State) : List CkFail := failChans fun g p => s.stagedGet (CP_WIN_VIOL g p) == 7

/-- CK18 (R135). -/
def State.ck18 (s : State) : List CkFail :=
  failChanSubs 16 fun g p t =>
    ((s.stagedGet (CP_TRIP_SOURCE g p)).testBit t || (s.stagedGet (CP_TRIP_TARGET g p)).testBit t)
      && !(s.stagedGet (CP_TGEN_EN (g / 8 * 8))).testBit t

/-- An enabled trip group of die k that no channel names in a field. -/
def State.tripUnnamed (s : State) (x : Nat → Nat → Fld) : List CkFail :=
  (List.range 4).flatMap fun k => failSubs k 16 fun t =>
    (s.stagedGet (CP_TGEN_EN (8 * k))).testBit t &&
      !((List.range 128).any fun i => (s.stagedGet (x (8 * k + i / 16) (i % 16))).testBit t)

def State.ck19 (s : State) : List CkFail := s.tripUnnamed CP_TRIP_SOURCE
def State.ck20 (s : State) : List CkFail := s.tripUnnamed CP_TRIP_TARGET

/-- CK21: the sub-index is the lowest trip group that names the channel as its source. -/
def State.ck21 (s : State) : List CkFail :=
  (List.range 512).flatMap fun c =>
    if s.stagedCmpOff (c / 16) (c % 16) then
      ((bitsOf (s.stagedGet (CP_TRIP_SOURCE (c / 16) (c % 16))) 16).take 1).map fun t => (c, t)
    else []
def State.ck22 (s : State) : List CkFail := failChans fun g p => s.stagedOn (TD_CH_EN g p) && s.stagedCmpOff g p

/-! ### Waveform players (CK23 to CK28; R217) -/

def State.stagedWpEn (s : State) (g : Nat) : Bool := s.stagedOn (WP_CTL_EN g)
def State.stagedWpOwns (s : State) (g p : Nat) : Bool := (s.stagedGet (WP_CHMASK_MASK g)).testBit p

def State.ck23 (s : State) : List CkFail :=
  failUnits 32 fun g => s.stagedWpEn g && decide (s.stagedGet (WP_LIM_HI g) < s.stagedGet (WP_LIM_LO g))

/-- CK24, over the DACs of R92: 0 = DH, 1 = DL, 2 = TH, 3 = TL, 4 = VT, 5 = PF. -/
def State.ck24 (s : State) : List CkFail :=
  failUnits 32 fun g =>
    let d := s.stagedGet (WP_CTL_DAC g)
    let rails := d == 0 || d == 1 || d == 4 || (d == 5 && (List.range 16).any fun p => s.stagedWpOwns g p && s.stagedFvmi g p)
    s.stagedWpEn g && rails &&
      (decide (codeVolts (s.stagedGet (WP_LIM_LO g)) < s.railLow g) || decide (s.railHigh g < codeVolts (s.stagedGet (WP_LIM_HI g))))

/-- A rule of R217 on the level sets of owned channels. -/
def State.ckOwned (s : State) (bad : Nat → Nat → Nat → Nat → Bool) : List CkFail :=
  failChanSubs 8 fun g p l => s.stagedWpEn g && s.stagedWpOwns g p && bad (s.stagedGet (WP_CTL_DAC g)) g p l

def State.ck25 (s : State) : List CkFail :=
  s.ckOwned fun d g p l => match d with
    | 0 => decide (s.stagedGet (WP_LIM_LO g) < s.stagedGet (LS_DL_CODE g p l) + 729)
    | 1 => decide (s.stagedGet (LS_DH_CODE g p l) < s.stagedGet (WP_LIM_HI g) + 729)
    | _ => false
def State.ck26 (s : State) : List CkFail :=
  s.ckOwned fun d g p l => match d with
    | 2 => decide (s.stagedGet (WP_LIM_LO g) < s.stagedGet (LS_TL_CODE g p l))
    | 3 => decide (s.stagedGet (LS_TH_CODE g p l) < s.stagedGet (WP_LIM_HI g))
    | _ => false

/-- Samples [a, a + n) of the store, modulo 65,536, meet samples [b, b + m). -/
def samplesMeet (a n b m : Nat) : Bool := decide (a < b + m ∧ b < a + n) || decide (b + 65536 < a + n ∧ 0 < m)

/-- The segments that entries name in the staged plane. -/
def State.stagedSegs (s : State) (g : Nat) : List Nat := (List.range 64).map fun e => s.stagedGet (WP_SEQ_A_SEG g e)

/-- CK27: the stream region. -/
def State.ck27 (s : State) : List CkFail :=
  failUnits 32 fun g =>
    let strm := fun n => s.stagedOn (WP_SEG_A_STRM g n)
    let segs := s.stagedSegs g
    let base := s.stagedGet (WP_STRM_BASE g)
    let len := s.stagedGet (WP_STRM_LEN g)
    let u := s.stagedGet (WP_UNDR_SEG g)
    s.stagedWpEn g && segs.any strm &&
      (len == 0 || decide (16384 < base + len) || strm u ||
        (u :: segs).any fun n => !strm n &&
          samplesMeet (s.stagedGet (WP_SEG_A_START g n)) (s.stagedGet (WP_SEG_B_LEN g n) + 1) (4 * base) (4 * len))

def State.ck28 (s : State) : List CkFail :=
  failUnits 32 fun g => s.stagedWpEn g && s.stagedOn (WP_CTL_CLK g) && s.stagedGet TP_PH_CTL_SRC == 0

/-! ### Windows, capture and stamps (CK29 to CK33) -/

/-- R156: the shortest period among the sets in use. -/
def State.stagedPmin (s : State) (g : Nat) : Option Int :=
  leastOf ((bitsOf (s.stagedGet (TG_TS_USE_USE g)) 32).map fun n => (s.stagedGet (TG_TS_PER_PER g n) : Int))

def State.ck29 (s : State) : List CkFail :=
  failUnits 32 fun g =>
    let src := s.stagedGet (TD_XWIN_CTL_SRC g)
    (src == 1 || src == 2) && s.stagedOn (TD_XWIN_CTL_MASK g) && (match s.stagedPmin g with
      | some m => decide (m < (s.stagedGet (TD_XWIN_LEN_LEN g) : Int))
      | none => false)
def State.ck30 (s : State) : List CkFail :=
  failUnits 32 fun g => s.stagedGet (TD_XWIN_CTL_SRC g) == 1 && s.stagedOn (TD_XWIN_CTL_MASK g)
    && !s.stagedOn (TP_SLOT_CTL_EN (s.stagedGet (TD_XWIN_CTL_SLOT g)))
def State.ck31 (s : State) : List CkFail :=
  failUnits 32 fun g =>
    let t := s.stagedGet (FC_CAP_CFG_TSRC g)
    s.stagedOn (FC_CAP_CFG_EN g) && decide (t < 4) && !s.stagedOn (AQ_TE_CTL_EN t)
def State.ck32 (s : State) : List CkFail :=
  failUnits 32 fun g => s.stagedOn (FC_EV_CTL_DMA g) && decide (4096 < s.stagedGet (TD_EV_CTL_CAP g))

/-- The shortest period among TS0 to TS31 of a group, which gives f_vec (R22 to R28). -/
def State.shortest (s : State) (g : Nat) : Nat :=
  (List.range 32).foldl (fun m n => min m (s.stagedGet (TG_TS_PER_PER g n))) (2 ^ 32)

/-- Numbers of a list added up. -/
def sumOf (l : List Nat) : Nat := l.foldl (· + ·) 0

/-- CK33 (R28): the stop limits of the stamping channels; f_vec is 1.6384 × 10^12 over the shortest period. -/
def State.ck33 (s : State) : List CkFail :=
  failUnits 32 fun g =>
    let limits := sumOf ((List.range 16).map fun p => if s.stagedOn (TD_CH_EN g p) then s.stagedGet (TD_CH_LIMIT g p) + 1 else 0)
    decide (400000000 * s.shortest g < limits * 1638400000000)

/-! ### Streams (CK34, CK35; R22, R23) -/

/-- Words per interval that the streams of engine and group g carry, and whether one of its streams is enabled. -/
def State.streamWords (s : State) (g : Nat) : Nat × Bool :=
  let sum := s.stagedOn (FC_SUM_CTL_EN g)
  let meas := ((List.range 16).filter fun p => s.stagedOn (LS_MEAS_SUM_EN g p)).length
  let log := s.stagedOn (FC_LOG_CTL_HOST g)
  let ev := s.stagedOn (FC_EV_CTL_DMA g)
  ((if sum then 34 else 0) + meas + (if log then s.stagedGet (FC_LOG_CTL_CAP g) else 0) + (if ev then s.stagedGet (TD_EV_CTL_CAP g) else 0),
    sum || decide (0 < meas) || log || ev)

/-- Sources of a group whose regression results go to the ring (R171). R23 counts channels in regression; that source 16, the
aging oscillator, counts among them is the model's choice (log entry 138). -/
def State.freqSources (s : State) (g : Nat) : Nat :=
  ((List.range 16).filter fun p => s.stagedOn (FQ_CH_RING g p)).length + (if s.stagedOn (FQ_AGE_RING g) then 1 else 0)

/-- A sum of fractions. -/
def addFrac (a b : Nat × Nat) : Nat × Nat := (a.1 * b.2 + b.1 * a.2, a.2 * b.2)

/-- R23: bytes per second of the enabled streams, as a fraction. A member of a gang counts at the leader's K. -/
def State.streamLoad (s : State) : Nat × Nat :=
  (List.range 32).foldl (fun a g =>
    let a := addFrac a ((s.streamWords g).1 * 9 * 1638400000000, s.shortest g * 2 ^ s.stagedGet (FC_SUM_CTL_K (s.stagedLeader g)))
    addFrac a (18 * s.freqSources g * 1000000, s.stagedGet (FQ_GATE_GATE g))) (0, 1)

/-- CK34. -/
def State.ck34 (s : State) : List CkFail :=
  if !s.on HI_LINK_WIDTH ∧ (List.range 32).any (fun g => (s.streamWords g).2 || decide (0 < s.freqSources g)) then [(0, 0)] else []

/-- CK35: the budget of R22 is 1.4 GB/s × w × 2^(g − 4), for a link that is up (DEDUCED). -/
def State.ck35 (s : State) : List CkFail :=
  let load := s.streamLoad
  if s.on HI_LINK_WIDTH ∧ 1400000000 * s.get HI_LINK_WIDTH * 2 ^ s.get HI_LINK_GEN * load.2 < 16 * load.1 then [(0, 0)] else []

/-! ### Domain (CK36, CK37) -/

def State.ck36 (s : State) : List CkFail :=
  if s.stagedGet TP_PH_CTL_SRC = srcCleif ∧ (s.isRoot || !s.isMember) then [(0, 0)] else []
def State.ck37 (s : State) : List CkFail :=
  if s.isMember then [] else failSubs 0 8 fun b => s.stagedOn (SQ_BAR_CTL_DOM 0 b) && s.stagedOn (SQ_BAR_MASK_MASK 0 b)

/-- R334: the failures of a check of the staged plane, by its number. -/
def State.ckFails (s : State) (code : Nat) : List CkFail :=
  match code with
  | 1 => s.ck01 | 2 => s.ck02 | 3 => s.ck03
  | 4 => s.ckEdges Edges.outside | 5 => s.ckEdges Edges.disordered | 6 => s.ckEdges Edges.rzClose
  | 7 => s.ckEdges Edges.sbcClose | 8 => s.ckEdges Edges.dnrzClose
  | 9 => s.ck09 | 10 => s.ck10 | 11 => s.ck11 | 12 => s.ck12 | 13 => s.ck13 | 14 => s.ck14 | 15 => s.ck15
  | 16 => s.ck16 | 17 => s.ck17 | 18 => s.ck18 | 19 => s.ck19 | 20 => s.ck20 | 21 => s.ck21 | 22 => s.ck22
  | 23 => s.ck23 | 24 => s.ck24 | 25 => s.ck25 | 26 => s.ck26 | 27 => s.ck27 | 28 => s.ck28
  | 29 => s.ck29 | 30 => s.ck30 | 31 => s.ck31 | 32 => s.ck32 | 33 => s.ck33
  | 34 => s.ck34 | 35 => s.ck35 | 36 => s.ck36 | 37 => s.ck37
  | _ => []

/-- R330: every failing code, in ascending order, with its first failure. -/
def State.ckAll (s : State) : List (Nat × CkFail) :=
  ((List.range 37).map (· + 1)).filterMap fun k => ((s.ckFails k).head?).map fun f => (k, f)

end Sys2Proof.Machine
end

