-- ==== Sys2Proof/Machine/Engine.lean ====
section
/-! DEFINITION. Chapters 09 and 11: how an engine decides, dispatches, executes microwords and issues vectors; engine
reset, machine check and waits. -/

namespace Sys2Proof.Machine

/-! ### Contexts (R224) -/

def State.ctxPc (s : State) (l c : Nat) : Nat := s.get (SQ_CTX_STAT_PC l c)
def State.ctxRes (s : State) (l c : Nat) : Nat := s.get (SQ_CTX_RES_RES l c)
def State.ctxQ (s : State) (l c r : Nat) : Nat := s.get (SQ_CTX_Q_Q l c (r % 8))
def State.ctxWait (s : State) (l c : Nat) : Option Wait := vget (s.engine l).waits c none

def State.setWait (s : State) (l c : Nat) (w : Option Wait) : State :=
  s.setEngine l { s.engine l with waits := vset (s.engine l).waits c w }

/-- Stack entry i: kind (1 = LOOP) and address. -/
def stackKind (l c i : Nat) : Fld :=
  match i with
  | 0 => SQ_CTX_STK01_K0 l c | 1 => SQ_CTX_STK01_K1 l c | 2 => SQ_CTX_STK23_K2 l c | _ => SQ_CTX_STK23_K3 l c
def stackAddr (l c i : Nat) : Fld :=
  match i with
  | 0 => SQ_CTX_STK01_A0 l c | 1 => SQ_CTX_STK01_A1 l c | 2 => SQ_CTX_STK23_A2 l c | _ => SQ_CTX_STK23_A3 l c

/-- No context of the engine runs. -/
def State.engGoIdle (s : State) (l : Nat) : State :=
  ((s.set (SQ_STAT_ENG l) engIdle).set (SQ_STAT_RUNPRIO l) 0).setEngine l
    { s.engine l with dispatched := false, turnEnding := false, halting := none }

/-! ### Machine check (R245, R319, R320, R380) -/

/-- R380: a member of a pair parks itself and becomes FAILED. -/
def State.selfPark (s : State) : State :=
  if s.role = roleActive ∨ s.role = roleShadow then s.twinStop roleFailed else s

/-- Causes of MC_MCHKe. -/
def mchkParity : Nat := 1
def mchkIstore : Nat := 2
def mchkVstore : Nat := 3
def mchkRefill : Nat := 4
def mchkTrap : Nat := 5
def mchkDispatch : Nat := 6

/-- R320: the flag and counter of a cause. -/
def State.mchkCount (s : State) (cause : Nat) : State :=
  if cause = mchkTrap then s.flag MC_FLAGS_TRAP MC_CNT1_TRAP
  else if cause = mchkParity ∨ cause = mchkDispatch then s.flag MC_FLAGS_PARITY MC_CNT0_PARITY
  else s.flag MC_FLAGS_SRAM MC_CNT0_SRAM

/-- R245, R319: one engine of the gang stops; its group parks. -/
def State.stopEngine (s : State) (m : Nat) : State :=
  let s := (s.setBit MC_MCHKMAP_MAP m true).set (SQ_STAT_ENG m) engMchk
  let s := s.setGroup m { s.group m with issue := [] }
  (s.endEarly m).parkGroup m

/-- R245: a machine check of the engine or gang led by l. -/
def State.machineCheck (s : State) (l cause slices entry : Nat) : State :=
  let s := (((s.set (MC_MCHK_CAUSE l) cause).set (MC_MCHK_SLICES l) slices).set (MC_MCHK_TRACE l) (s.engine l).trace).set
    (MC_MCHK_ENTRY l) entry
  let s := (s.mchkCount cause).forEach (s.members l) State.stopEngine
  (s.snapRequest 4).selfPark

/-! ### Engine reset (R228, R321) -/

/-- R321: the first copy of a control-store entry that passes parity among the engines after e. -/
def State.goodEntry (s : State) (e i : Nat) : Option CsEntry :=
  (((List.range 31).map fun k => s.csEntry ((e + 1 + k) % 32) i).find? fun x => x.badSlices == 0)

def State.goodDisp (s : State) (e op : Nat) : Option DispEntry :=
  (((List.range 31).map fun k => s.dispEntry ((e + 1 + k) % 32) op).find? fun x => !x.bad)

/-- R321: repair of a control-store entry that fails parity; counted either way. -/
def State.scrubEntry (s : State) (e i : Nat) : State :=
  if (s.csEntry e i).badSlices = 0 then s
  else match s.goodEntry e i with
    | some x => (s.setCsEntry e i x).flag MC_FLAGS_SCRUBFIX MC_CNT2_SCRUBFIX
    | none => s.flag MC_FLAGS_SCRUBERR MC_CNT2_SCRUBERR

def State.scrubDisp (s : State) (e op : Nat) : State :=
  if !(s.dispEntry e op).bad then s
  else match s.goodDisp e op with
    | some x => (s.setDispEntry e op x).flag MC_FLAGS_SCRUBFIX MC_CNT2_SCRUBFIX
    | none => s.flag MC_FLAGS_SCRUBERR MC_CNT2_SCRUBERR

/-- R321: the recorded entry of a parity machine check of leader l is repaired, if a good copy exists. -/
def State.mchkRepair (s : State) (l : Nat) : State :=
  let entry := s.get (MC_MCHK_ENTRY l)
  if !s.inMchk l then s
  else if s.get (MC_MCHK_CAUSE l) = mchkParity then s.scrubEntry l entry
  else if s.get (MC_MCHK_CAUSE l) = mchkDispatch then s.scrubDisp l entry
  else s

/-- The recorded entry still fails: the engine stays in machine check. -/
def State.mchkStays (s : State) (l : Nat) : Bool :=
  let entry := s.get (MC_MCHK_ENTRY l)
  s.inMchk l &&
    ((s.get (MC_MCHK_CAUSE l) == mchkParity && (s.csEntry l entry).badSlices != 0)
      || (s.get (MC_MCHK_CAUSE l) == mchkDispatch && (s.dispEntry l entry).bad))

/-- R236: an underrun episode cut short has no stream vector after it: its end is left open. -/
def State.closeUnderrun (s : State) (m : Nat) : State :=
  if s.on (SQ_UH_EHI_OPEN m) then
    ((s.setTime (SQ_UH_ELO_E_LO m) (SQ_UH_EHI_E_HI m) (s.fresh.setWidth 56)).set (SQ_UH_EHI_OPEN m) 0).burn
  else s

/-- R228: a channel's lane goes to the middle level at generator tick E, after the transitions formed so far (R75). -/
def Chan.release (c : Chan) (e : Tick) (dd : Nat) : Chan :=
  let edges := (emission ((e.toNat : Int) + zOffset - dd) c.lastEdge (transitions c.lane [(0, .mid)])).1
  { c with
    lane := .mid
    lastData := false
    lastEdge := (edges.getLast?.map (fun x => some x.1)).getD c.lastEdge
    edges := c.edges ++ edges
    sent := ((edges.map fun x => (x.1 + BitVec.ofNat 66 dd, x.2)).reverse ++ c.sent).take 128 }

/-- R228: the lanes of a group go to the middle level at the end of the vector in progress, or now where none is. -/
def State.releaseLanes (s : State) (g : Nat) : State :=
  match (if s.issuing g then (s.group g).cur else none) with
  | some v => s.forEach (List.range 16) fun s p =>
      s.setChan g p ((s.chan g p).release (v.b + BitVec.ofNat 66 v.period) (formOf v.forms p).dd)
  | none => s.forEach (List.range 16) fun s p => s.setChan g p ((s.chan g p).release (tickOf s.time) (s.deskewDrive g p))

/-- R228: one engine of the gang is reset. -/
def State.resetEngine (s : State) (keepMchk : Bool) (m : Nat) : State :=
  let a := groupBase m + 0xB400
  let s := ({ s with live := s.live.clearRange a (a + 0xC00) }).closeUnderrun m
  let s := (((s.set (SQ_ELIG_ELIG m) 0).set (SQ_STRM_STAT_FILL m) 0).set (SQ_MSGSTAT_DEPTH m) 0).set (SQ_STAT_RUNPRIO m) 0
  let s := (s.set (SQ_STAT_RUNCTX m) 0).set (SQ_STAT_ENG m) (if keepMchk then engMchk else engIdle)
  let s := if keepMchk then s else s.setBit MC_MCHKMAP_MAP m false
  let s := s.setEngine m { Engine.reset with timers := (s.engine m).timers, trace := (s.engine m).trace }
  let s := s.forEach (List.range 8) fun s b => s.setBit (SQ_BAR_ARR_ARR 0 b) m false
  let s := (s.setGroup m { s.group m with issue := [] }).releaseLanes m
  (((s.setVcnt m 0).discardInterval m).killOutcomes m).parkGroup m

/-- R228: an engine reset of the engine or gang that contains e. -/
def State.engineReset (s : State) (e : Nat) : State :=
  let l := s.leader e
  let s := s.mchkRepair l
  let keep := s.mchkStays l
  s.forEach (s.members l) fun s m => s.resetEngine keep m

/-- An engine reset of every engine. -/
def State.resetAllEngines (s : State) : State := s.forEach s.leaders State.engineReset

/-! ### Requests outside the engine (R261, R290 to R297) -/

/-- R247: a word arrives at an engine's message queue. -/
def State.pushMsg (s : State) (e : Nat) (w : Native) : State :=
  let q := (s.engine e).msgs
  if 16 ≤ q.length then s.flag (SQ_FLAGS_MSGDROP e) (SQ_CNT0_MSGDROP e)
  else
    let s := (s.setEngine e { s.engine e with msgs := q ++ [w] }).set (SQ_MSGSTAT_DEPTH e) (q.length + 1)
    s.causeRouted (SQ_RT_MSG_EN e) (SQ_RT_MSG_CTX e) (SQ_RT_MSG_PRIO e) e .linkmsg

/-- R404: the pair of words of a message to the host. -/
def msgPair (e c : Nat) (t : Time) (w : Native) : List Native :=
  [BitVec.ofNat 72 (e * 2 ^ 67 + c * 2 ^ 62 + t.toNat), w]

/-- R296: a message leaves at TCLK t. -/
def State.sendMsg (s : State) (e c : Nat) (t : Time) (w : Native) (dest : Nat) : State :=
  match dest / 2 ^ 22 with
  | 1 => s.pushMsg (dest % 32) w
  | 2 =>
    let dev := dest / 2 ^ 8 % 1024
    if dev = s.devNum then s.pushMsg (dest % 32) w
    else s.routePacket (Packet.make 5 dev s.devNum 0 (dest % 32) [w])
  | _ => s.ringRecord 5 (msgPair e c t w)

/-- The word of WP_CMD that a WPC operation acts as (R290). -/
def wpcWord (op entry : Nat) : Word :=
  BitVec.ofNat 32 (match op with
    | 0 => 2 ^ 31 | 1 => 2 ^ 30 | 2 => 2 ^ 29 + entry | _ => 2 ^ 31 + 2 ^ 29 + entry)

/-- R297: the dies an ARMT names: those of C, or those that carry a group of the gang. -/
def State.armtDies (s : State) (l : Nat) (dies : BitVec 4) : List Nat :=
  if dies = 0 then (List.range 4).filter fun k => (s.members l).any fun m => m / 8 == k else bitsOf dies.toNat 4

/-- R261: the request of a vector that begins at B in group g, made for every member group of a gang. What names its
object itself and would act twice on it (SNAP, SOFT, ARMT) is made once, with the leader's. -/
def State.request (s : State) (g : Nat) (i : Issued) (b : Tick) (r : XReq) : State :=
  let lead := g == i.eng
  let t := tclkOf b
  match r with
  | .wpc op entry => s.writeWpCmd g (wpcWord op entry)
  | .meas mask => s.measMask g mask.toNat
  | .freq stop => if stop then s.gateStop g true else s.gateStart g
  | .snap => if lead then s.snapRequestAt (later t 1) 1 else s
  | .trig soft force =>
    let s := if lead then s.forEach (bitsOf soft.toNat 4) fun s n => s.teExternal n 2 else s
    if force ∧ s.get (FC_CAP_STAT_STATE g) = capArmed then s.capAwait g b else s
  | .msg w dest => s.sendMsg g i.ctx t w dest.toNat
  | .armt groups dies => if lead then s.forEach (s.armtDies i.eng dies) fun s k => s.tripRearm k groups.toNat else s

/-- R290 to R297: the request that an instruction's operands describe. -/
def State.requestOf (s : State) (l c : Nat) (xreq : Nat) (i : Native) : Option XReq :=
  let q := fun k => s.ctxQ l c (cOf i + k)
  match xreq with
  | 1 => some (.wpc (modOf i % 4) (cOf i % 64))
  | 2 => some (.meas (BitVec.ofNat 16 (bOf i)))
  | 3 => some (.freq (modOf i % 2 == 1))
  | 4 => some .snap
  | 5 => some (.trig (BitVec.ofNat 4 (cOf i)) (cOf i / 16 % 2 == 1))
  | 6 => if modOf i % 2 = 0 then
      some (.msg (BitVec.ofNat 72 (q 0 + q 1 * 2 ^ 24 + q 2 * 2 ^ 48)) (BitVec.ofNat 24 (bOf i))) else none
  | 7 => some (.armt (BitVec.ofNat 16 (bOf i)) (BitVec.ofNat 4 (cOf i)))
  | _ => none

/-- R296: MSG RECV pops the head word into Q(r), Q(r + 1) and Q(r + 2). -/
def State.recvMsg (s : State) (l c : Nat) (i : Native) : State :=
  match (s.engine l).msgs with
  | w :: rest =>
    let s := (s.setEngine l { s.engine l with msgs := rest }).set (SQ_MSGSTAT_DEPTH l) rest.length
    let put := fun (s : State) (k : Nat) => s.set (SQ_CTX_Q_Q l c ((cOf i + k) % 8)) (nbits w (24 * k + 23) (24 * k))
    put (put (put s 0) 1) 2
  | [] => s

/-! ### Slots and decisions (R231, R232, R239) -/

/-- The end of the last period of the vectors issued to the group: a hold begins there (R232). -/
def State.periodEnd (s : State) (l : Nat) : Tick :=
  (s.group l).issue.foldl (fun b i => i.startAt.getD b + BitVec.ofNat 66 (s.tsPeriod l i.ts)) (s.group l).nextB

/-- The generator start of the engine's next slot: after a hold as R232 gives it, else the end of the last period. -/
def State.nextSlot (s : State) (l : Nat) : Tick :=
  if (s.engine l).afterHold then (s.engine l).slotB else s.periodEnd l

/-- R231: the sampling TCLK of the microword that issues the vector beginning at B. -/
def sampleAt (b : Tick) : Time :=
  let t := tclkOf b
  if t.toNat % 2 = 0 then t - 6 else t - 5

/-- The later of two TCLKs. -/
def laterOf (a b : Time) : Time := if reached a b then a else b

/-- R231, R305: the TCLK at which a microword that fills the next slot executes. -/
def State.slotTime (s : State) (l : Nat) : Time := laterOf (sampleAt (s.nextSlot l)) (s.engine l).nextAt

/-- R305: the TCLK at which a microword executes: one that issues or holds waits for its slot. -/
def State.microTime (s : State) (l : Nat) (m : Micro) : Time :=
  if m.issue || m.hold != 0 then s.slotTime l else (s.engine l).nextAt

/-- A hold ends with the vector that starts at B (R232). -/
def State.holdTo (s : State) (l : Nat) (b : Tick) : State :=
  s.setEngine l { s.engine l with slotB := b, afterHold := true, nextAt := sampleAt b }

/-- R239: the priority of context c among the ELIGIBLE ones that counts at TCLK w, by the changes made in TCLK w − 4 and
before. A context that is no longer ELIGIBLE does not count (log entry 153). -/
def State.effPrio (s : State) (l : Nat) (w : Time) (c : Nat) : Option Nat :=
  if s.bit (SQ_ELIG_ELIG l) c then
    ((vget (s.engine l).eligAt c []).find? fun e => reached w (later e.1 4)).map (·.2)
  else none

/-- R239: the best ELIGIBLE context of those above a priority at TCLK w: the highest priority, the lowest number. -/
def State.bestAt (s : State) (l : Nat) (w : Time) (p : Option Nat) : Option Nat :=
  ((bitsOf (s.get (SQ_ELIG_ELIG l)) 32).foldl (fun b c => match s.effPrio l w c with
    | none => b
    | some q =>
      if p.any (fun r => decide (q ≤ r)) || b.any (fun d : Nat × Nat => decide (q ≤ d.2)) then b else some (c, q)) none).map (·.1)

/-- The latest, or the earliest, of some TCLKs. -/
def lastOf (l : List Time) : Option Time :=
  l.foldl (fun x t => match x with
    | some u => if reached t u then some t else some u
    | none => some t) none
def earliestOf (l : List Time) : Option Time :=
  l.foldl (fun x t => match x with
    | some u => if reached u t then some t else some u
    | none => some t) none

/-- The first TCLK in which a context became ELIGIBLE above a priority. -/
def State.firstRise (s : State) (l : Nat) (p : Option Nat) : Option Time :=
  earliestOf ((bitsOf (s.get (SQ_ELIG_ELIG l)) 32).flatMap fun c =>
    ((vget (s.engine l).eligAt c []).filter fun e => !p.any fun r => decide (e.2 ≤ r)).map (·.1))

/-- R319: the word that a fetch made now reads. One in the SCLK of the scrubber's read of its entry is repaired first
(R321). -/
def State.scrubSclk (s : State) (at_ : Nat) : Bool :=
  s.get MC_STAT_STATE == 2 && s.time.toNat % 2 ^ 28 / 2 * 2 == at_
def State.fetchEntry (s : State) (l i : Nat) : State :=
  if s.scrubSclk (i * 2 ^ 17) && (s.goodEntry l i).isSome then s.scrubEntry l i else s
def State.fetchDisp (s : State) (l op : Nat) : State :=
  if s.scrubSclk (2 ^ 16) && s.time.toNat / 2 ^ 28 % 256 == op && (s.goodDisp l op).isSome then s.scrubDisp l op else s

/-- R304, R305: the instruction at the PC of context c is read and its routine entered. -/
def State.dispatch (s : State) (l c : Nat) : State :=
  let i := s.iStore l (s.ctxPc l c)
  let s := s.fetchDisp l (opOf i)
  let d := s.dispEntry l (opOf i)
  if d.bad then s.machineCheck l mchkDispatch 0 (opOf i)
  else
    let res := s.ctxRes l c
    let resume := decide (res ≠ 0) && d.ldm != 0
    let a := clampVaddr (aOf i)
    let va := if resume && d.ldm == 2 then a + bOf i + 1 - res else a
    let cnt := if d.ldm = 0 then 1 else if resume then res else bOf i + 1
    s.setEngine l { s.engine l with dispatched := true, instr := i, upc := d.maddr, va := va, cnt := cnt, clampEv := false,
                                    ipc := s.ctxPc l c, fresh := true }

/-- A program clamp is recorded with the PC of its instruction (R253). -/
def State.programClamp (s : State) (l pc : Nat) : State :=
  ((s.count (SQ_CLAMP_COUNT_COUNT l) 1).raise (SQ_FLAGS_CLAMP l)).set (SQ_CLAMP_LAST_PC l) pc

/-- R306, R308: an instruction that loses its slot after a final execution has had its last microword: its clamps count. -/
def State.cutClamp (s : State) (l c : Nat) : State :=
  if (s.engine l).dispatched && (s.engine l).clampEv && s.ctxRes l c == 0 then
    (s.programClamp l (s.engine l).ipc).setEngine l { s.engine l with clampEv := false }
  else s

/-- R239: context c starts to run by a decision taken at TCLK w, at the priority it holds; a running context becomes
ELIGIBLE at its own. -/
def State.switchTo (s : State) (l c : Nat) (w : Time) : State :=
  let s := match s.running l with
    | some o =>
      let p := s.get (SQ_STAT_RUNPRIO l)
      ((s.cutClamp l o).setCtx l o .eligible p).noteElig l o [(w, p)]
    | none => s
  let p := s.ctxPrio l c
  let s := ((s.setCtx l c .running p).set (SQ_STAT_RUNCTX l) c).set (SQ_STAT_RUNPRIO l) p
  let s := s.setEngine l { s.engine l with dispatched := false, incoming := true, turnEnding := false, halting := none }
  if (s.ctxWait l c).isSome then s.set (SQ_STAT_ENG l) engHold
  else (s.set (SQ_STAT_ENG l) engIssue).dispatch l c

/-- R227: the running context that the host has halted becomes IDLE. -/
def State.haltNow (s : State) (l c : Nat) : State :=
  ((((s.cutClamp l c).engGoIdle l).setCtx l c .idle (s.ctxPrio l c)).setWait l c none)

/-- R314, R16: the engine runs contexts now. -/
def State.mayRun (s : State) (l : Nat) : Bool :=
  s.isLeader l && !s.inMchk l && s.get MC_STAT_STATE == 2 && !(s.engine l).turnEnding

/-- R232: the start of the first vector after a hold that begins in TCLK h and that a change made in TCLK n ends. Where
(n + 12) × 1,024 lies before the hold, the decision of its first TCLK is followed at the same distance (log entry 152). -/
def holdStart (h n : Time) : Tick := tickOf (if reached (later n 12) h then later n 12 else later h 8)

/-- R232, R239: the best context at TCLK d of a hold runs, by a change made in TCLK n. -/
def State.holdRun (s : State) (l : Nat) (d n : Time) (p : Option Nat) : Option State :=
  if reached s.time d then
    (s.bestAt l d p).map fun c => (s.holdTo l (holdStart (tclkOf (s.periodEnd l)) n)).switchTo l c d
  else none

/-- R239: the decision in a hold with a running context, at a TCLK not after `bound` where there is one. Every TCLK of a
hold is a decision point: a halted context stops, or a context of a higher priority takes its place. -/
def State.holdDecide (s : State) (l c : Nat) (bound : Option Time) : Option State :=
  let h := tclkOf (s.periodEnd l)
  let p := some (s.get (SQ_STAT_RUNPRIO l))
  let within_ := fun d => reached s.time d && !bound.any fun w => !reached w d
  match (s.engine l).halting with
  | some t =>
    if within_ (laterOf t h) then
      let s := s.haltNow l c
      let s := s.setEngine l { s.engine l with afterHold := true }
      some ((s.holdRun l (laterOf t h) t none).getD s)
    else none
  | none => (s.firstRise l p).bind fun n =>
    let d := laterOf (later n 4) h
    if within_ d then s.holdRun l d n p else none

/-- R239: the decision at the microword that issues in the next slot. -/
def State.slotDecide (s : State) (l c : Nat) : State :=
  let x := s.engine l
  let w := s.slotTime l
  let m := Micro.of (s.csEntry l x.upc).word
  if x.dispatched && m.issue && m.hold == 0 && reached s.time w then
    if x.halting.any fun t => reached w t then
      let s := s.haltNow l c
      match s.bestAt l w none with
      | some d => s.switchTo l d w
      | none => s
    else match s.bestAt l w (some (s.get (SQ_STAT_RUNPRIO l))) with
      | some d => s.switchTo l d w
      | none => s
  else s

/-- R239: the decision of an engine whose decision point has come. The slot after a YIELD or HALT needs no hold (R240); a
HOLD 5 ends before its first TCLK could serve (R231, R232). -/
def State.takeDecision (s : State) (l : Nat) : State :=
  if !s.mayRun l then s
  else match s.running l with
    | none =>
      if s.get (SQ_ELIG_ELIG l) = 0 then s
      else
        let w := sampleAt (s.periodEnd l)
        if !(s.engine l).afterHold && !reached s.time w then s
        else match (if (s.engine l).afterHold then none else s.bestAt l w none) with
          | some c => s.switchTo l c w
          | none => ((s.firstRise l none).bind fun n =>
              s.holdRun l (laterOf (later n 4) (tclkOf (s.periodEnd l))) n none).getD s
    | some c => match s.ctxWait l c with
      | some { kind := .swc _, .. } => s
      | some _ => (s.holdDecide l c none).getD s
      | none =>
        ((if (s.engine l).afterHold then s.holdDecide l c (some (s.slotTime l)) else none).getD (s.slotDecide l c))

/-- After its decision the engine stands at a microword whose TCLK has come. -/
def State.atMicro (s : State) (l : Nat) : Bool :=
  s.mayRun l && (s.engine l).dispatched && reached s.time (s.microTime l (Micro.of (s.csEntry l (s.engine l).upc).word)) &&
    match s.running l with
    | some c => (s.ctxWait l c).isNone
    | none => false

/-! ### The fields of a microword (R300 to R308) -/

/-- R249: what the condition codes read. -/
def State.condInput (s : State) (l c : Nat) : CondInput :=
  let cnz := s.get (SQ_CTX_FLAGS_CNZ l c)
  let k := l / 8
  { fail := s.on (SQ_CTX_FLAGS_FAIL l c), evt := s.on (SQ_CTX_FLAGS_EVT l c), phr := s.on (SQ_CTX_FLAGS_PHR l c)
    undr := s.on (SQ_CTX_FLAGS_UNDR l c), syncto := s.on (SQ_CTX_FLAGS_SYNCTO l c)
    z := cnz.testBit 0, n := cnz.testBit 1, c := cnz.testBit 2
    trip := (s.members l).any fun m => (List.range 16).any fun t => s.bit (CP_TGSTAT_LATCHED (m / 8 * 8)) t &&
      (List.range 16).any fun p => (s.dieGet (CP_TRIP_TARGET m p)).testBit t
    ochre := s.bit TH_STAT_OWARN k || s.bit TH_STAT_OEXH k
    linkmsg := !(s.engine l).msgs.isEmpty
    hf := s.get (SQ_HOSTF_HF l) }

/-- R263: the condition of an instruction. -/
def State.condTrue (s : State) (l c : Nat) (i : Native) : Bool := condHolds (condOf i) (s.condInput l c)

/-- R6, R264: a sticky flag is cleared, unless hardware has set it in this TCLK. -/
def State.lower (s : State) (x : Fld) : State := if s.raised.contains (x.reg.addr, x.lo) then s else s.set x 0

/-- R264: the CLR modifier. -/
def State.clearTested (s : State) (l c : Nat) (i : Native) : State :=
  if !clrOf i then s
  else match condOf i with
    | 1 | 2 => s.lower (SQ_CTX_FLAGS_FAIL l c)
    | 5 | 6 => s.lower (SQ_CTX_FLAGS_EVT l c)
    | 7 | 8 => s.lower (SQ_CTX_FLAGS_PHR l c)
    | 15 | 16 => s.lower (SQ_CTX_FLAGS_UNDR l c)
    | 25 | 26 => s.lower (SQ_CTX_FLAGS_SYNCTO l c)
    | _ => s

/-- PC + 1 modulo 16,384. -/
def pcNext (pc : Nat) : Nat := (pc + 1) % 16384

/-- What the stack unit proposes: the state, the PC, whether that is PC + 1, and whether it clamps. -/
structure StackResult where
  state : State
  pc : Nat
  next : Bool
  clamp : Bool

/-- The stack unit (R271, R272, R275, R276, R253). -/
def State.stackUnit (s : State) (l c : Nat) (op : Nat) (i : Native) : StackResult :=
  let pc := pcNext (s.ctxPc l c)
  let d := s.get (SQ_CTX_STAT_DEPTH l c)
  let push := fun (kind : Nat) =>
    ((s.set (stackKind l c d) kind).set (stackAddr l c d) pc).set (SQ_CTX_STAT_DEPTH l c) (d + 1)
  let pop := s.set (SQ_CTX_STAT_DEPTH l c) (d - 1)
  let back := s.get (stackAddr l c (d - 1))
  match op with
  | 1 => if d < 4 then ⟨push 0, pc, true, false⟩ else ⟨s, pc, true, true⟩
  | 2 => if d < 4 then ⟨(push 1).set (SQ_CTX_L_L l c d) (bOf i), pc, true, false⟩ else ⟨s, pc, true, true⟩
  | 3 => if 0 < d ∧ s.get (stackKind l c (d - 1)) = 0 then ⟨pop, back, false, false⟩ else ⟨s, pc, true, true⟩
  | 4 =>
    if 0 < d ∧ s.get (stackKind l c (d - 1)) = 1 then
      let n := s.get (SQ_CTX_L_L l c (d - 1))
      if n ≠ 0 then ⟨s.set (SQ_CTX_L_L l c (d - 1)) (n - 1), back, false, false⟩ else ⟨pop, pc, true, false⟩
    else ⟨s, pc, true, true⟩
  | _ => ⟨s, pc, true, false⟩

/-- R300 PCOP: the new PC and whether it clamps or wraps. -/
def pcUnit (pcop pc prop : Nat) (next test : Bool) (i : Native) : Nat × Bool :=
  let inc := (pcNext pc, pc == 16383)
  let tgt := (clampTarget (bOf i), decide (16383 < bOf i))
  match pcop with
  | 1 => inc
  | 2 => tgt
  | 3 => (prop, next && pc == 16383)
  | 4 => if test then tgt else inc
  | _ => (pc, false)

/-- R287: a MOVQ source; `vc` is the count of the instruction's own vector, `w` its sampling TCLK. -/
def State.moveSource (s : State) (l c k vc : Nat) (w : Time) : Nat :=
  if k < 8 then s.ctxQ l c k
  else if k < 12 then s.get (SQ_CTX_L_L l c (k - 8))
  else match k with
    | 12 => s.phase.toNat % 2 ^ 32 / 2 ^ 8
    | 13 => w.toNat % 2 ^ 24
    | 14 => vc % 2 ^ 24
    | _ => s.phase.toNat / 2 ^ 32 % 2 ^ 24

/-- R300: the ALU's operands and destination. -/
def State.aluUnit (s : State) (l c : Nat) (m : Micro) (i : Native) (vc : Nat) (w : Time) : State :=
  if m.aluf = 0 then s
  else
    let a := match m.asel with
      | 0 => s.ctxQ l c (cOf i)
      | 1 => s.moveSource l c (cOf i / 16) vc w
      | _ => 0
    let q := s.ctxQ l c (cOf i / 16)
    let b := match m.bsel with
      | 0 => bOf i
      | 1 => q
      | 2 => if modOf i % 2 = 0 then bOf i else q
      | _ => m.imm
    let r := alu m.aluf a b
    let d := cOf i % 16
    let s := match m.dsel with
      | 1 => s.set (SQ_CTX_Q_Q l c (cOf i % 8)) r.x
      | 2 => if d < 8 then s.set (SQ_CTX_Q_Q l c d) r.x else if d < 12 then s.set (SQ_CTX_L_L l c (d - 8)) r.x else s
      | _ => s
    if m.flagw then s.set (SQ_CTX_FLAGS_CNZ l c) r.cnz else s

/-- The fields that act at the final execution of a microword (R303): stack, PC, ALU, flags. The Bool is a clamp. -/
def State.finalFields (s : State) (l c : Nat) (m : Micro) (i : Native) (test clr : Bool) (vc : Nat) (w : Time) : State × Bool :=
  let pc := s.ctxPc l c
  let s := s.aluUnit l c m i vc w
  let r := s.stackUnit l c m.stkop i
  let (pc', k2) := pcUnit m.pcop pc r.pc r.next test i
  let s := r.state
  let s := s.set (SQ_CTX_STAT_PC l c) pc'
  let s := if m.clrt && clr then s.clearTested l c i else s
  (s, r.clamp || k2)

/-- CTXOP 4 and 5 (R288, R289, R307): they act before the instruction's own vector. -/
def State.settings (s : State) (l c : Nat) (m : Micro) (i : Native) : State × Bool :=
  match m.ctxop with
  | 4 => (s.set (SQ_CTX_CFG_TSB l c) (min (cOf i) 31), decide (31 < cOf i))
  | 5 => (s.set (SQ_CTX_CFG_LSEL l c) (min (cOf i) 7), decide (7 < cOf i))
  | _ => (s, false)

/-! ### Issue (R225, R235, R236, R300) -/

/-- VFORCE. -/
def forced (m : Micro) (i w : Native) : Native :=
  match m.vforce with
  | 1 => nset w 70
  | 2 => nset w 71
  | 3 => if (cOf i).testBit 5 then nset w 71 else w
  | _ => w

/-- R235, R236: the slot carries an underrun vector. -/
def State.underrun (s : State) (l : Nat) : Bool :=
  !s.on (SQ_STRM_EN l) ||
    (if s.on (SQ_UH_EHI_OPEN l) then
      (s.members l).any fun m => decide ((s.engine m).refill.length < 512 * s.get (SQ_STRM_RESUME l))
    else (s.members l).any fun m => (s.engine m).refill.isEmpty)

/-- R236: an underrun vector that starts at B. -/
def State.noteUnderrun (s : State) (l c : Nat) (b : Tick) : State :=
  let s := (s.count (SQ_UNDRCNT_VEC l) 1).set (SQ_STAT_ENG l) engUnderrun
  if s.on (SQ_UH_EHI_OPEN l) then s
  else
    let s := (s.flag (SQ_FLAGS_UNDR l) (SQ_CNT1_UNDR l)).raise (SQ_CTX_FLAGS_UNDR l c)
    ((s.setTime (SQ_UH_SLO_S_LO l) (SQ_UH_SHI_S_HI l) (tclkOf b)).setTime (SQ_UH_ELO_E_LO l) (SQ_UH_EHI_E_HI l) 0).set
      (SQ_UH_EHI_OPEN l) 1

/-- R236: a stream vector that starts at B. -/
def State.noteStream (s : State) (l : Nat) (b : Tick) : State :=
  let s := s.set (SQ_STAT_ENG l) engIssue
  if s.on (SQ_UH_EHI_OPEN l) then
    (s.setTime (SQ_UH_ELO_E_LO l) (SQ_UH_EHI_E_HI l) (tclkOf b)).set (SQ_UH_EHI_OPEN l) 0
  else s

/-- The head of an engine's stream leaves the refill buffer. -/
def State.popStream (s : State) (m : Nat) : State :=
  let r := (s.engine m).refill.tail
  (s.setEngine m { s.engine m with refill := r }).set (SQ_STRM_STAT_FILL m) r.length

/-- The word that member m issues: from its stream, or from its own V-store (R16, R236). -/
def State.vectorWord (s : State) (m va : Nat) (stream : Bool) : Native :=
  if stream then (s.engine m).refill.headD 0 else s.vStore m va

/-- R230, R261: the microword of context c issues one vector to every group of the gang. -/
def State.issueVector (s : State) (l c : Nat) (m : Micro) (i : Native) (va : Nat) (xreq : Option XReq)
    (turn : Option TurnEnd) : State :=
  let x := s.engine l
  let b := s.nextSlot l
  let under := m.vsrc == 1 && s.underrun l
  let stream := m.vsrc == 1 && !under
  let va := if under then s.get (SQ_CTX_CFG_UVA l c) else va
  let words := (s.members l).map fun g => (g, forced m i (s.vectorWord g va stream))
  let lead := (words.headD (l, 0)).2
  let item : Native → Issued := fun w =>
    { word := w, eng := l, ctx := c, ts := (tsOf lead + s.get (SQ_CTX_CFG_TSB l c)) % 32,
      startAt := if x.afterHold then some b else none, lsel := s.get (SQ_CTX_CFG_LSEL l c), xreq := xreq, turnEnd := turn,
      switched := x.incoming, sumr := sumrOf lead }
  let s := words.foldl (fun s w => s.setGroup w.1 { s.group w.1 with issue := (s.group w.1).issue ++ [item w.2] }) s
  let s := if stream then s.forEach (s.members l) State.popStream else s
  let s := if under then s.noteUnderrun l c b else if stream then s.noteStream l b else s.set (SQ_STAT_ENG l) engIssue
  s.setEngine l { s.engine l with afterHold := false, incoming := false }

/-! ### Microwords -/

/-- One execution of a microword: its instruction, and the registers as it finds them. -/
structure Exec where
  instr : Native
  upc : Nat
  va : Nat
  cnt : Nat
  /-- the PC of the instruction and its clamps so far -/
  ipc : Nat
  clampEv : Bool
  /-- the TCLK that MOVQ reads (R287) -/
  w : Time
  /-- the completion of a HOLD microword at its release (R303) -/
  held : Bool
  /-- its context runs, so that it may issue and go on -/
  runs : Bool
  /-- the CLR modifier acts (R264) -/
  clr : Bool

/-- The execution that the engine stands at. -/
def Engine.exec (x : Engine) (w : Time) : Exec :=
  { instr := x.instr, upc := x.upc, va := x.va, cnt := x.cnt, ipc := x.ipc, clampEv := x.clampEv, w := w, held := false,
    runs := true, clr := true }

/-- The execution that a wait completes in TCLK n. -/
def Wait.exec (x : Wait) (n : Time) (runs clr : Bool) : Exec :=
  { instr := x.instr, upc := x.upc, va := x.va, cnt := x.cnt, ipc := x.ipc, clampEv := x.clampEv, w := n, held := true,
    runs := runs, clr := clr }

/-- R302: the test. -/
def State.microTest (s : State) (l c : Nat) (m : Micro) (i : Native) (last : Bool) : Bool :=
  match m.tsel with
  | 0 => s.condTrue l c i
  | 1 => last
  | 2 => true
  | _ => false

/-- R301, R308: where the engine goes on after a final execution. The Bool: the instruction has more microwords. At its
end its clamps count once, and the next instruction is dispatched. -/
def State.goOn (s : State) (l c : Nat) (m : Micro) (x : Exec) (test clamp : Bool) : State × Bool :=
  let at_ := fun (u : Nat) => (s.setEngine l { s.engine l with upc := u, clampEv := clamp }, true)
  match m.nam with
  | 0 => at_ m.na
  | 2 => at_ (if test then m.na else (x.upc + 1) % 2048)
  | n =>
    if n = 3 ∧ !test then at_ x.upc
    else ((if clamp then s.programClamp l x.ipc else s).dispatch l c, false)

/-- R244: SWC at TCLK w. The context becomes READY and context d runs; `none` where the turn does not end: d is the
running context itself, or IDLE. -/
def State.swcTurn (s : State) (l c d : Nat) (w : Time) : State × Bool :=
  let record := fun (s : State) => s.raiseBit (SQ_CTX_STAT_CAUSE l d) CauseKind.swc.bit
  if d = c then (record s, false)
  else match s.ctxState l d with
    | .idle => (s.dropCause l, false)
    | st =>
      let p := s.get (SQ_STAT_RUNPRIO l)
      let q := if st == .eligible then max p (s.ctxPrio l d) else p
      let halted := (s.engine l).halting.isSome
      let s := ((record (s.cutClamp l c)).engGoIdle l).setCtx l c (if halted then .idle else .ready) (s.ctxPrio l c)
      ((s.setPrio l d q).switchTo l d w, true)

/-- R244, R239: YIELD or HALT ends the turn of context c at TCLK w, and a decision follows at once. -/
def State.turnOver (s : State) (l c : Nat) (x : CtxState) (w : Time) : State :=
  let x := if (s.engine l).halting.isSome then .idle else x
  let s := (s.engGoIdle l).setCtx l c x (s.ctxPrio l c)
  match s.bestAt l w none with
  | some d => s.switchTo l d w
  | none => s

/-- The turn of context c ends as its vector or its microword asks. -/
def State.endTurn (s : State) (l c : Nat) (t : TurnEnd) (w : Time) : State :=
  match t with
  | .yield => s.turnOver l c .ready w
  | .halt => s.turnOver l c .idle w
  | .swc d => ((s.setEngine l { s.engine l with turnEnding := false }).swcTurn l c d w).1

/-- CTXOP 1 to 3. -/
def turnOf (m : Micro) (i : Native) : Option TurnEnd :=
  match m.ctxop with
  | 1 => some .yield
  | 2 => some .halt
  | 3 => some (.swc (cOf i % 32))
  | _ => none

/-- A final execution has acted. YIELD and HALT end the turn, at the boundary of the vector where there is one; SWC goes
on at the next address unless another context takes the turn. -/
def State.afterFinal (s : State) (l c : Nat) (m : Micro) (x : Exec) (test clamp : Bool) : State × Bool :=
  match turnOf m x.instr with
  | none => s.goOn l c m x test clamp
  | some (.swc d) =>
    if m.issue then
      let r := s.goOn l c m x test clamp
      (r.1.setEngine l { r.1.engine l with turnEnding := true }, false)
    else
      let r := (s.setEngine l { s.engine l with clampEv := clamp }).swcTurn l c d x.w
      if r.2 then (r.1, false) else r.1.goOn l c m x test clamp
  | some t =>
    let s := if clamp then s.programClamp l x.ipc else s
    if m.issue then (s.setEngine l { s.engine l with dispatched := false, turnEnding := true }, false)
    else ((if t = .halt then s.forEach (s.members l) State.endEarly else s).endTurn l c t x.w, false)

/-- An execution of a microword (R300 to R308): of one without HOLD, or the completion of one with HOLD. The Bool: the
instruction has more microwords. For a context that does not run, nothing issues, nothing is requested and no turn ends
(log entry 151). -/
def State.execute (s : State) (l c : Nat) (m : Micro) (x : Exec) : State × Bool :=
  let i := x.instr
  let vc := s.vcnt l + (s.group l).issue.length
  let issue := m.issue && x.runs
  let counts := !(m.vsrc == 1 && s.underrun l && s.on (SQ_STRM_EN l))
  let full := m.vainc && x.va == 0xFFFF
  let last := (x.cnt == 1 && counts) || full
  let test := s.microTest l c m i last
  let final := x.held || !(m.nam == 3 && !test)
  let clampA := issue && m.vsrc == 0 && decide (0xFFFF < aOf i)
  let (s, k0) := if final then s.settings l c m i else (s, false)
  let recv := final && x.runs && m.xreq == 6 && modOf i % 2 == 1
  let s := if issue then
      s.issueVector l c m i x.va (if final then s.requestOf l c m.xreq i else none) (if final then turnOf m i else none)
    else s
  let s := if recv then s.recvMsg l c i else s
  let cnt := if m.cntdec && counts then x.cnt - 1 else x.cnt
  let va := if m.vainc then (x.va + 1) % 65536 else x.va
  let clamp := x.clampEv || k0 || clampA || (final && m.clampev)
  let s := if x.runs then s.setEngine l { s.engine l with cnt := cnt, va := va, clampEv := clamp } else s
  if !final then (s.set (SQ_CTX_RES_RES l c) cnt, true)
  else
    let (s, k) := s.finalFields l c m i test x.clr vc x.w
    let s := s.set (SQ_CTX_RES_RES l c) 0
    let clamp := clamp || k || (m.tsel == 1 && full && decide (1 < x.cnt))
    if x.runs then s.afterFinal l c m x test clamp
    else (if clamp then s.programClamp l x.ipc else s, false)

/-- A microword without HOLD, at its slot or its SCLK. -/
def State.runMicro (s : State) (l c : Nat) (m : Micro) : State × Bool :=
  let x := s.engine l
  let w := s.microTime l m
  (s.setEngine l { x with trace := m.trace, nextAt := later w 2, fresh := false }).execute l c m (x.exec w)

/-- The kind of wait that a HOLD microword starts at sampling TCLK w (R277 to R281). -/
def State.holdKind (s : State) (l c : Nat) (hold : Nat) (i : Native) (w : Time) : WaitKind :=
  match hold with
  | 1 => if modOf i % 4 = 1 then .phase (s.phase + BitVec.ofNat 64 (waitPhaseOffset i)) else .angle (BitVec.ofNat 32 (waitAngle i))
  | 2 =>
    if modOf i % 4 = 1 then
      let q := fun k => s.ctxQ l c (cOf i + k)
      .time (BitVec.ofNat 56 (q 0 + q 1 * 2 ^ 24 + q 2 % 2 ^ 8 * 2 ^ 48))
    else .time (later w (waitDelay i))
  | 3 => .event (BitVec.ofNat 8 (modOf i)) (if bOf i = 0 then none else some (later w (usTclk (bOf i))))
  | 4 => .barrier (cOf i % 8)
  | _ => .swc (cOf i % 32)

/-- R250: the participants of barrier b. -/
def State.barrierSet (s : State) (b : Nat) : List Nat := s.leadersOf (s.get (SQ_BAR_MASK_MASK 0 b))

/-- Every participant has arrived at barrier b. -/
def State.barrierFull (s : State) (b : Nat) : Bool := (s.barrierSet b).all fun e => s.bit (SQ_BAR_ARR_ARR 0 b) e

/-- R251: COUNT at the root reaches the devices of the domain: the release is broadcast and scheduled here. -/
def State.barrierRoot (s : State) (b : Nat) : State :=
  if s.isRoot && decide (s.get CL_DOM_STAT_NMEM ≤ vget s.cl.barCount b 0) then
    let t := later s.time (usTclk (s.get (SQ_DOMSYNC_LEAD 0)))
    let s := s.broadcast 0 b [timeFlit t]
    { s with cl := { s.cl with barCount := vset s.cl.barCount b 0, barRel := vset s.cl.barRel b (some t) } }
  else s

/-- R251, R371: n devices of the domain have completed barrier b. The root counts them; another device holds the
count until its own completion, and forwards a later one as it comes. -/
def State.barrierReport (s : State) (b n : Nat) : State :=
  let held := { s with cl := { s.cl with barCount := vset s.cl.barCount b (vget s.cl.barCount b 0 + n) } }
  if s.isRoot then held.barrierRoot b
  else if vget s.cl.barSelf b false then s.sendUp 2 b [BitVec.ofNat 72 n]
  else held

/-- R251: this device reports a domain barrier complete, once a round; with no participant at once. COUNT is 1 + the sum
of the COUNTs it holds. -/
def State.barrierSelf (s : State) (b : Nat) : State :=
  if s.on (SQ_BAR_CTL_DOM 0 b) && (s.isRoot || s.isMember) && s.barrierFull b && !vget s.cl.barSelf b false then
    let n := vget s.cl.barCount b 0
    ({ s with cl := { s.cl with barSelf := vset s.cl.barSelf b true, barCount := vset s.cl.barCount b 0 } }).barrierReport b (n + 1)
  else s

/-- R250: the arrival of engine l at barrier b at TCLK a. An engine outside the mask is released at a + 4. -/
def State.arrive (s : State) (l c b : Nat) (a : Time) : State :=
  if (s.barrierSet b).contains l then
    let s := s.setBit (SQ_BAR_ARR_ARR 0 b) l true
    let s := s.setEngine l { s.engine l with arrived := vset (s.engine l).arrived b (some a) }
    s.barrierSelf b
  else match s.ctxWait l c with
    | some x => s.setWait l c (some { x with released := some (later a 4) })
    | none => s

/-- A microword with HOLD starts its hold (R303, R306). -/
def State.startHold (s : State) (l c : Nat) (word : BitVec 144) (m : Micro) : State :=
  let x := s.engine l
  let b := s.nextSlot l
  let w := s.slotTime l
  let kind := s.holdKind l c m.hold x.instr w
  let s := s.setWait l c (some { kind := kind, since := w, released := none, instr := x.instr, micro := word, upc := x.upc,
                                 va := x.va, cnt := x.cnt, ipc := x.ipc, clampEv := x.clampEv })
  let s := (s.setEngine l { s.engine l with trace := m.trace, dispatched := false, fresh := false }).set
    (SQ_STAT_ENG l) engHold
  match kind with
  | .barrier n => s.arrive l c n w
  | .swc _ => s.holdTo l (b + 2048)
  | _ => s

/-- One microword of the running context (R305, R319). The Bool: the instruction has more microwords. -/
def State.micro (s : State) (l : Nat) : State × Bool :=
  match s.running l with
  | none => (s, false)
  | some c =>
    let x := s.engine l
    let s := s.fetchEntry l x.upc
    let e := s.csEntry l x.upc
    if e.badSlices ≠ 0 then (s.machineCheck l mchkParity e.badSlices.toNat x.upc, false)
    else
      let m := Micro.of e.word
      if m.trap then (s.machineCheck l mchkTrap 0 x.upc, false)
      else if m.hold ≠ 0 then (s.startHold l c e.word m, false)
      else s.runMicro l c m

/-- Up to n microwords of the instruction in progress, each at its slot. -/
def State.runMicros (s : State) (l : Nat) : Nat → State
  | 0 => s
  | n + 1 =>
    let (s1, more) := s.micro l
    if more && n != 0 then
      let s2 := s1.takeDecision l
      if s2.atMicro l && s2.running l == s1.running l then s2.runMicros l n else s2
    else s1

/-- The instruction of the running context. -/
def State.currentInstr (s : State) (l : Nat) : Option Native :=
  (s.running l).map fun c => if (s.engine l).dispatched then (s.engine l).instr else s.iStore l (s.ctxPc l c)

/-- An instruction row: the decision of R239 is taken, and where the context that then runs stands at an instruction of
the row's kind, up to n of its microwords execute. Otherwise nothing happens. -/
def State.runRow (s : State) (l n : Nat) (p : Native → Bool) : State :=
  let s1 := s.takeDecision l
  if s1.atMicro l && p (s1.engine l).instr then s1.runMicros l n else s

/-! ### Releases (R232, R242, R244, R277 to R281) -/

/-- R303, R306: the wait of context c is released in TCLK n: the other fields of its microword act. A running context's
next vector begins at (n + 8) × 1,024, after a HOLD 5 at the end of its hold. -/
def State.releaseWait (s : State) (l c : Nat) (n : Time) (clr : Bool) : State :=
  match s.ctxWait l c with
  | none => s
  | some x =>
    let s := s.setWait l c none
    let m := Micro.of x.micro
    if s.running l = some c then
      let s := match x.kind with
        | .swc _ => s
        | _ => s.holdTo l (tickOf (later n 8))
      let s := (s.setEngine l { s.engine l with dispatched := true, instr := x.instr, ipc := x.ipc, fresh := false }).set
        (SQ_STAT_ENG l) engIssue
      (s.execute l c m (x.exec n true clr)).1
    else (s.execute l c m (x.exec n false clr)).1

/-- The TCLK in which a wait is released, if it is by now (R57, R279). -/
def State.waitOver (s : State) (l c : Nat) : Option Time :=
  match s.ctxWait l c with
  | none => none
  | some x =>
    let from_ := later x.since 1
    match x.released with
    | some n => if reached s.time n then some n else none
    | none => match x.kind with
      | .phase t => if s.phLockedB && phaseReached s.phase t && reached s.time from_ then some s.time else none
      | .time t =>
        let n := if reached t from_ then t else from_
        if reached s.time n then some n else none
      | .event _ _ => if reached s.time from_ && s.condTrue l c x.instr then some s.time else none
      | _ => none

/-- R244: the hold of a HOLD 5 microword ends at the sampling TCLK of the slot after it. -/
def State.swcEnd (s : State) (l : Nat) : State :=
  match s.running l with
  | some c => match s.ctxWait l c with
    | some { kind := .swc _, .. } =>
      if s.mayRun l && reached s.time (s.slotTime l) then s.releaseWait l c (s.slotTime l) true else s
    | _ => s
  | none => s

/-! ### VECTOR_BOUNDARY (R68, R94, R95, R244, R261) -/

/-- R93, R94: the select a vector brings reaches the die 40 ns after its boundary. -/
def State.selectAt (s : State) (g lsel : Nat) (b : Tick) : State :=
  let x := s.group g
  let last := (x.lselPend.getLast?.map (·.1)).getD (s.get (LS_SELSTAT_SEL g))
  if last = lsel then s else s.setGroup g { x with lselPend := x.lselPend ++ [(lsel, later (tclkOf b) dieDelay)] }

/-- R95: LS registers committed earlier, which await a boundary, act 40 ns after this one. -/
def State.commitAt (s : State) (g : Nat) (b : Tick) : State :=
  s.setGroup g { s.group g with lsPend := (s.group g).lsPend.map fun c => (c.1.or (some (later (tclkOf b) dieDelay)), c.2) }

/-- The next vector of group g begins at B. -/
def State.boundary (s : State) (g : Nat) (i : Issued) (b : Tick) : State :=
  let s := s.setGroup g { s.group g with issue := (s.group g).issue.tail }
  let s := ((s.selectAt g i.lsel b).commitAt g b).beginVector g i b
  let s := match i.xreq with
    | some r => s.request g i b r
    | none => s
  match i.turnEnd with
  | some t =>
    let s := if t = .halt then s.endEarly g else s
    if g = i.eng && (s.engine g).turnEnding && s.running g == some i.ctx then s.endTurn g i.ctx t (tclkOf b) else s
  | none => s

end Sys2Proof.Machine
end

