-- ==== Sys2Proof/Machine/Quesel.lean ====
section
/-! DEFINITION. Chapters 09 and 10: the instruction rows of Quesel, the releases of waits and barriers, the SQ commands,
timers, doorbells and message words. -/

namespace Sys2Proof.Machine

/-! ### Instruction rows (R258, R259) -/

/-- The opcodes that R258 defines. -/
def definedOps : List Nat :=
  [0x00, 0x01, 0x02, 0x03, 0x08, 0x09, 0x0A, 0x0B, 0x0C, 0x0D, 0x10, 0x11, 0x12, 0x13, 0x18, 0x19, 0x1A, 0x20, 0x21, 0x22,
   0x23, 0x28, 0x29, 0x2A, 0x30, 0x31, 0x32, 0x33, 0x34, 0x35, 0x36]

/-- No instruction has more microwords than B + 1 and the longest microprogram of this bound. -/
def rowFuel : Nat := 2048

/-- A row whose opcode is `op`. -/
def State.row (s : State) (e op : Nat) : State := s.runRow e rowFuel fun i => opOf i == op

/-- A row whose opcode is `op` and whose low bits of MOD, k of them, are `m`. -/
def State.rowMod (s : State) (e op k m : Nat) : State := s.runRow e rowFuel fun i => opOf i == op && modOf i % k == m

/-- NOP (R267). -/
def execNop (e : EngineIx) (s : State) : Host.Outcome State Fault Refusal := done s (s.row e 0x00)
/-- VEC (R268): up to n of its slots. -/
def execVec (e : EngineIx) (n : Nat) (s : State) : Host.Outcome State Fault Refusal :=
  done s (s.runRow e n fun i => opOf i == 0x01)
/-- RPT (R269): up to n of its slots. -/
def execRpt (e : EngineIx) (n : Nat) (s : State) : Host.Outcome State Fault Refusal :=
  done s (s.runRow e n fun i => opOf i == 0x02)
/-- STREAM (R270): up to n of its slots. -/
def execStream (e : EngineIx) (n : Nat) (s : State) : Host.Outcome State Fault Refusal :=
  done s (s.runRow e n fun i => opOf i == 0x03)
/-- LOOP (R271). -/
def execLoopOp (e : EngineIx) (s : State) : Host.Outcome State Fault Refusal := done s (s.row e 0x08)
/-- ENDL (R272). -/
def execEndl (e : EngineIx) (s : State) : Host.Outcome State Fault Refusal := done s (s.row e 0x09)
/-- JMP (R273). -/
def execJmp (e : EngineIx) (s : State) : Host.Outcome State Fault Refusal := done s (s.row e 0x0A)
/-- JMPC (R274). -/
def execJmpc (e : EngineIx) (s : State) : Host.Outcome State Fault Refusal := done s (s.row e 0x0B)
/-- CALL (R275). -/
def execCallOp (e : EngineIx) (s : State) : Host.Outcome State Fault Refusal := done s (s.row e 0x0C)
/-- RET (R276). -/
def execRet (e : EngineIx) (s : State) : Host.Outcome State Fault Refusal := done s (s.row e 0x0D)
/-- WAITPH (R277). -/
def execWaitph (e : EngineIx) (s : State) : Host.Outcome State Fault Refusal := done s (s.row e 0x10)
/-- WAITT (R278). -/
def execWaitt (e : EngineIx) (s : State) : Host.Outcome State Fault Refusal := done s (s.row e 0x11)
/-- WAITEV (R279). -/
def execWaitev (e : EngineIx) (s : State) : Host.Outcome State Fault Refusal := done s (s.row e 0x12)
/-- SYNC (R280). -/
def execSync (e : EngineIx) (s : State) : Host.Outcome State Fault Refusal := done s (s.row e 0x13)
/-- SWC (R281). -/
def execSwc (e : EngineIx) (s : State) : Host.Outcome State Fault Refusal := done s (s.row e 0x18)
/-- YIELD (R282). -/
def execYield (e : EngineIx) (s : State) : Host.Outcome State Fault Refusal := done s (s.row e 0x19)
/-- HALT (R283). -/
def execHalt (e : EngineIx) (s : State) : Host.Outcome State Fault Refusal := done s (s.row e 0x1A)
/-- LDQ (R284). -/
def execLdq (e : EngineIx) (s : State) : Host.Outcome State Fault Refusal := done s (s.row e 0x20)
/-- ADDQ (R285). -/
def execAddq (e : EngineIx) (s : State) : Host.Outcome State Fault Refusal := done s (s.row e 0x21)
/-- CMPQ (R286). -/
def execCmpq (e : EngineIx) (s : State) : Host.Outcome State Fault Refusal := done s (s.row e 0x22)
/-- MOVQ (R287). -/
def execMovq (e : EngineIx) (s : State) : Host.Outcome State Fault Refusal := done s (s.row e 0x23)
/-- SETTS (R288). -/
def execSetts (e : EngineIx) (s : State) : Host.Outcome State Fault Refusal := done s (s.row e 0x28)
/-- SETLS (R289). -/
def execSetls (e : EngineIx) (s : State) : Host.Outcome State Fault Refusal := done s (s.row e 0x29)
/-- WPC START (R290). -/
def execWpcStart (e : EngineIx) (s : State) : Host.Outcome State Fault Refusal := done s (s.rowMod e 0x2A 4 0)
/-- WPC STOP (R290). -/
def execWpcStop (e : EngineIx) (s : State) : Host.Outcome State Fault Refusal := done s (s.rowMod e 0x2A 4 1)
/-- WPC JUMP (R290). -/
def execWpcJump (e : EngineIx) (s : State) : Host.Outcome State Fault Refusal := done s (s.rowMod e 0x2A 4 2)
/-- WPC STARTAT (R290). -/
def execWpcStartat (e : EngineIx) (s : State) : Host.Outcome State Fault Refusal := done s (s.rowMod e 0x2A 4 3)
/-- MEAS (R291). -/
def execMeasOp (e : EngineIx) (s : State) : Host.Outcome State Fault Refusal := done s (s.row e 0x30)
/-- FREQ with MOD[0] = 0 (R292). -/
def execFreqStart (e : EngineIx) (s : State) : Host.Outcome State Fault Refusal := done s (s.rowMod e 0x31 2 0)
/-- FREQ with MOD[0] = 1 (R292). -/
def execFreqStop (e : EngineIx) (s : State) : Host.Outcome State Fault Refusal := done s (s.rowMod e 0x31 2 1)
/-- SUMB (R293). -/
def execSumb (e : EngineIx) (s : State) : Host.Outcome State Fault Refusal := done s (s.row e 0x32)
/-- SNAP (R294). -/
def execSnapOp (e : EngineIx) (s : State) : Host.Outcome State Fault Refusal := done s (s.row e 0x33)
/-- TRIG (R295). -/
def execTrigOp (e : EngineIx) (s : State) : Host.Outcome State Fault Refusal := done s (s.row e 0x34)
/-- MSG SEND (R296). -/
def execMsgSend (e : EngineIx) (s : State) : Host.Outcome State Fault Refusal := done s (s.rowMod e 0x35 2 0)
/-- MSG RECV (R296). -/
def execMsgRecv (e : EngineIx) (s : State) : Host.Outcome State Fault Refusal := done s (s.rowMod e 0x35 2 1)
/-- ARMT (R297). -/
def execArmt (e : EngineIx) (s : State) : Host.Outcome State Fault Refusal := done s (s.row e 0x36)
/-- UNDEFINED_OPCODE (R259). -/
def execUndefinedOpcode (e : EngineIx) (s : State) : Host.Outcome State Fault Refusal :=
  done s (s.runRow e rowFuel fun i => !definedOps.contains (opOf i))

/-! ### Releases (R232, R250 to R252, R279, R281) -/

/-- R232: each context of the engine whose wait is over continues. -/
def State.releaseOver (s : State) (l : Nat) : State :=
  s.forEach (List.range 32) fun s c => match s.waitOver l c with
    | some n => s.releaseWait l c n true
    | none => s

/-- WAIT_RELEASE (R232). -/
def execWaitRelease (e : EngineIx) (s : State) : Host.Outcome State Fault Refusal :=
  doneIf (s.isLeader e && !s.inMchk e) s (s.releaseOver e)

/-- R279: the timeout of a WAITEV has passed and its condition has not released it. -/
def State.timedOut (s : State) (l c : Nat) : Option Time :=
  match s.ctxWait l c with
  | some { kind := .event _ (some t), .. } => if reached s.time t && (s.waitOver l c).isNone then some t else none
  | _ => none

/-- WAITEV_TIMEOUT (R279). -/
def execWaitevTimeout (e : EngineIx) (s : State) : Host.Outcome State Fault Refusal :=
  doneIf (s.isLeader e && !s.inMchk e) s (s.forEach (List.range 32) fun s c => match s.timedOut e c with
    | some n => s.releaseWait e c n false
    | none => s)

/-- SWC_HOLD_END (R244): at the sampling TCLK of the slot after the hold. -/
def execSwcHoldEnd (e : EngineIx) (s : State) : Host.Outcome State Fault Refusal :=
  done s (s.swcEnd e)

/-- The engines whose context c waits on barrier b, with the context. An engine in machine check keeps its contexts as they
stood (R245). -/
def State.barrierWaits (s : State) (b : Nat) : List (Nat × Nat) :=
  (s.leaders.filter fun l => !s.inMchk l).flatMap fun l => ((List.range 32).filter fun c => match s.ctxWait l c with
    | some { kind := .barrier k, released := none, .. } => k == b
    | _ => false).map fun c => (l, c)

/-- Every arrival at barrier b is withdrawn (R250). -/
def State.withdraw (s : State) (b : Nat) : State :=
  s.leaders.foldl (fun s l => s.setEngine l { s.engine l with arrived := vset (s.engine l).arrived b none })
    (s.set (SQ_BAR_ARR_ARR 0 b) 0)

/-- R250: barrier b releases at TCLK r. -/
def State.releaseBarrier (s : State) (b : Nat) (r : Time) : State :=
  (s.barrierWaits b).foldl (fun s x => s.releaseWait x.1 x.2 r true) (s.withdraw b)

/-- The TCLKs of the arrivals at barrier b. -/
def State.arrivals (s : State) (b : Nat) : List Time :=
  s.leaders.filterMap fun l => vget (s.engine l).arrived b none

/-- R250, R251: the TCLK of the release, once it has come. -/
def State.barrierDue (s : State) (b : Nat) : Option Time :=
  let t := if s.on (SQ_BAR_CTL_DOM 0 b) then vget s.cl.barRel b none
    else if s.barrierFull b && !(s.barrierSet b).isEmpty then (lastOf (s.arrivals b)).map fun a => later a 4 else none
  t.filter fun r => reached s.time r

/-- R250, R251: a barrier whose TCLK has come releases. After a domain release the next round of reports begins. -/
def State.barrierNow (s : State) (b : Nat) : State :=
  match s.barrierDue b with
  | none => s
  | some r =>
    let s := s.releaseBarrier b r
    if s.on (SQ_BAR_CTL_DOM 0 b) then
      ({ s with cl := { s.cl with barRel := vset s.cl.barRel b none, barSelf := vset s.cl.barSelf b false } }).barrierSelf b
    else s

/-- BARRIER_RELEASE (R250, R251). -/
def execBarrierRelease (b : Fin 8) (s : State) : Host.Outcome State Fault Refusal := done s (s.barrierNow b)

/-- R252: TMO µs have passed since the first arrival. -/
def State.barrierLate (s : State) (b : Nat) : Bool :=
  let tmo := s.get (SQ_BAR_CTL_TMO 0 b)
  decide (0 < tmo) && match earliestOf (s.arrivals b) with
    | some t => reached s.time (later t (usTclk tmo))
    | none => false

/-- BARRIER_TIMEOUT (R252). -/
def execBarrierTimeout (b : Fin 8) (s : State) : Host.Outcome State Fault Refusal :=
  doneIf (s.barrierLate b) s ((s.barrierWaits b).foldl (fun s x =>
    ((s.raise (SQ_CTX_FLAGS_SYNCTO x.1 x.2)).flag (SQ_FLAGS_SYNCTO x.1) (SQ_CNT1_SYNCTO x.1)).releaseWait x.1 x.2 s.time true)
    (s.withdraw b))

/-! ### SQ_CMD (R227) -/

/-- R227: HALT; a RUNNING context stops at the next decision point. -/
def State.haltCtx (s : State) (e c : Nat) : State :=
  if s.ctxState e c == .running then
    (s.setEngine e { s.engine e with halting := some ((s.engine e).halting.getD s.time) }).takeDecision e
  else (s.setCtx e c .idle (s.ctxPrio e c)).setWait e c none

/-- R227: START at priority BASE. -/
def State.startCtx (s : State) (e c : Nat) : State :=
  let base := s.get (SQ_CTX_CFG_BASE e c)
  match s.ctxState e c with
  | .idle | .ready => s.setCtx e c .eligible base
  | .eligible => s.setPrio e c (max (s.ctxPrio e c) base)
  | .running => s

/-- R227: the command of a write of SQ_CMD; contexts change only while the image is LOADED (R314). -/
def State.sqCmd (s : State) (e op c : Nat) : State :=
  let loaded := s.get MC_STAT_STATE == 2 && !s.inMchk e
  match op with
  | 1 => if loaded && s.ctxState e c == .idle then s.setCtx e c .ready (s.ctxPrio e c) else s
  | 2 => if loaded then s.startCtx e c else s
  | 3 => if loaded then s.haltCtx e c else s
  | 4 => s.engineReset e
  | 5 => if s.get MC_STAT_STATE == 2 then (s.setEngine e { s.engine e with refill := [] }).set (SQ_STRM_STAT_FILL e) 0 else s
  | _ => s

/-- A live host write of SQ_CMD. -/
def State.sqCmdWrite (s : State) (e op c : Nat) : State :=
  s.mirrored (SQ_CMD e).addr (BitVec.ofNat 32 (op * 2 ^ 28 + c)) fun s => s.sqCmd e op c

/-- SQ_CMD_READY (R227). -/
def execSqCmdReady (e : EngineIx) (c : Fin 32) (s : State) : Host.Outcome State Fault Refusal := done s (s.sqCmdWrite e 1 c)
/-- SQ_CMD_START (R227). -/
def execSqCmdStart (e : EngineIx) (c : Fin 32) (s : State) : Host.Outcome State Fault Refusal := done s (s.sqCmdWrite e 2 c)
/-- SQ_CMD_HALT (R227). -/
def execSqCmdHalt (e : EngineIx) (c : Fin 32) (s : State) : Host.Outcome State Fault Refusal := done s (s.sqCmdWrite e 3 c)
/-- SQ_CMD_ENGRESET (R227, R228). -/
def execSqCmdEngreset (e : EngineIx) (s : State) : Host.Outcome State Fault Refusal := done s (s.sqCmdWrite e 4 0)
/-- SQ_CMD_STRMRESET (R227). -/
def execSqCmdStrmreset (e : EngineIx) (s : State) : Host.Outcome State Fault Refusal := done s (s.sqCmdWrite e 5 0)

/-! ### Doorbell, timers, messages (R247, R248) -/

/-- R248: a write of SQ_DOORBELL. -/
def State.ringDoorbell (s : State) (e : Nat) (v : Word) : State :=
  if fieldOf v 0 0 = 1 then s.cause e (fieldOf v 5 1) (fieldOf v 8 6) .doorbell else s

/-- DOORBELL (R248). -/
def execDoorbell (e : EngineIx) (v : Word) (s : State) : Host.Outcome State Fault Refusal :=
  done s (s.mirrored (SQ_DOORBELL e).addr v fun s => s.ringDoorbell e v)

/-- R248: a write of SQ_TMRj_CTL. -/
def State.writeTimer (s : State) (e j : Nat) (v : Word) : State :=
  let s := ((s.set (SQ_TMR_CTL_PRIO e j) (fieldOf v 8 6)).set (SQ_TMR_CTL_CTX e j) (fieldOf v 5 1)).set (SQ_TMR_CTL_EN e j) (fieldOf v 0 0)
  if fieldOf v 31 31 = 1 then
    (s.set (SQ_TMR_CTL_ARMED e j) 1).setEngine e
      { s.engine e with timers := vset (s.engine e).timers j (s.getTime (SQ_TMR_LO_T_LO e j) (SQ_TMR_HI_T_HI e j)) }
  else s

/-- TIMER_ARM (R248). -/
def execTimerArm (e : EngineIx) (j : Fin 2) (v : Word) (s : State) : Host.Outcome State Fault Refusal :=
  done s (s.mirrored (SQ_TMR_CTL e j).addr v fun s => s.writeTimer e j v)

/-- R248: the period in TCLK. -/
def State.timerPeriod (s : State) (e j : Nat) : Nat :=
  s.get (SQ_TMR_PERHI_PERHI e j) * 2 ^ 32 + s.get (SQ_TMR_PER_PER e j)

/-- R248: the armed timer has reached its target: the cause, and the next target or the disarm. -/
def State.timerFires (s : State) (e j : Nat) : State :=
  let p := s.timerPeriod e j
  let s1 := s.causeRouted (SQ_TMR_CTL_EN e j) (SQ_TMR_CTL_CTX e j) (SQ_TMR_CTL_PRIO e j) e .timer
  if p = 0 then s1.set (SQ_TMR_CTL_ARMED e j) 0
  else s1.setEngine e
    { s1.engine e with timers := vset (s1.engine e).timers j (later (vget (s.engine e).timers j 0) p) }

/-- TIMER_EXPIRE (R248). -/
def execTimerExpire (e : EngineIx) (j : Fin 2) (s : State) : Host.Outcome State Fault Refusal :=
  doneIf (s.on (SQ_TMR_CTL_ARMED e j) && reached s.time (vget (s.engine e).timers j 0)) s (s.timerFires e j)

/-- R247: a write of SQ_MSGIN2 pushes the assembled word. -/
def State.writeMsgin2 (s : State) (e : Nat) (v : Word) : State :=
  let s := s.set (SQ_MSGIN2_W2 e) (fieldOf v 7 0)
  s.pushMsg e (BitVec.ofNat 72 (fieldOf v 7 0 * 2 ^ 64 + s.get (SQ_MSGIN1_W1 e) * 2 ^ 32 + s.get (SQ_MSGIN0_W0 e)))

/-- MSGIN_PUSH (R247). -/
def execMsginPush (e : EngineIx) (v : Word) (s : State) : Host.Outcome State Fault Refusal :=
  done s (s.mirrored (SQ_MSGIN2 e).addr v fun s => s.writeMsgin2 e v)

end Sys2Proof.Machine
end

