-- ==== Sys2Proof/Machine/Microcode.lean ====
section
/-! DEFINITION. Chapter 11: images and their checks, host load, window, dispatch table, scrubber and injection. -/

namespace Sys2Proof.Machine

/-! ### States of the control store (R314) -/

def mcNoImage : Nat := 0
def mcLoading : Nat := 1
def mcLoaded : Nat := 2
def mcHostload : Nat := 3
def mcReload : Nat := 4

def State.mcState (s : State) : Nat := s.get MC_STAT_STATE

/-! ### Images (R310 to R312) -/

/-- Errors of a load (R312). -/
def imgFormat : Nat := 1
def imgLength : Nat := 2
def imgDispatch : Nat := 3
def imgCrc : Nat := 4
def imgNoSrc : Nat := 5

def imgNent (l : List Native) : Nat := nbits (l.headD 0) 55 44
def imgVersion (l : List Native) : Nat := nbits (l.getD 1 0) 71 40
def imgCrcField (l : List Native) : Nat := nbits (l.getD 1 0) 39 8

/-- The dispatch entries of an image (R310). -/
def imgDispatchOf (l : List Native) : List (BitVec 16) :=
  (List.range 256).map fun op => BitVec.ofNat 16 (nbits (l.getD (2 + op / 4) 0) (16 * (op % 4) + 15) (16 * (op % 4)))

/-- The microwords of an image (R310). -/
def imgEntriesOf (l : List Native) : List (BitVec 144) :=
  (List.range (imgNent l)).map fun i =>
    BitVec.ofNat 144 ((l.getD (66 + 2 * i) 0).toNat + (l.getD (67 + 2 * i) 0).toNat * 2 ^ 72)

/-- R311: the CRC of an image of LEN words, the CRC field taken as 0. -/
def imgCrcOf (l : List Native) : Nat :=
  let clear := fun (w : Native) => BitVec.ofNat 72 (w.toNat / 2 ^ 40 * 2 ^ 40 + w.toNat % 2 ^ 8)
  (crc32c (wordBytes ((l.take 1) ++ ((l.drop 1).take 1).map clear ++ l.drop 2))).toNat

/-- R312: the check of what a source delivers; 0: it passes. Of several errors the first in the order of the table is
recorded. -/
def imgCheck (l : List Native) : Nat :=
  let h := l.headD 0
  let n := imgNent l
  if l.isEmpty then imgNoSrc
  else if nbits h 71 64 ≠ 0x5C ∨ nbits h 63 56 ≠ 1 ∨ n = 0 ∨ 2048 < n then imgFormat
  else if nbits h 31 0 ≠ 66 + 2 * n ∨ l.length < 66 + 2 * n then imgLength
  else
    let image := l.take (66 + 2 * n)
    if (imgDispatchOf image).any fun d => decide (n ≤ d.toNat % 2048) then imgDispatch
    else if imgCrcOf image ≠ imgCrcField image then imgCrc
    else 0

/-- R312: a passed load. -/
def State.writeImage (s : State) (l : List Native) (src : Nat) : State :=
  let s := { s with imgEntries := imgEntriesOf l, imgDisp := imgDispatchOf l, cs := [], disp := [] }
  let s := ((s.set ⟨MC_VERSION, 31, 0⟩ (imgVersion l)).set MC_IMAGE_CRC_CRC (imgCrcField l)).set MC_STAT_SRC src
  s.resetAllEngines

/-- R312: a load from a source whose number is `src`, checked, then written or rejected. The Bool: it passed. -/
def State.loadImage (s : State) (l : List Native) (src : Nat) : State × Bool :=
  let e := imgCheck l
  if e = 0 then (s.writeImage l src, true) else (s.set MC_STAT_ERR e, false)

/-- The words of NVS slot n (R313). -/
def State.slotWords (s : State) (n : Nat) : List Native :=
  let at_ := fun i => s.memWord (memAddr memNvs 0 0 (0x3C000 + n * 0x2000 + i))
  let nent := nbits (at_ 0) 55 44
  (List.range (66 + 2 * min nent 2048)).map at_

/-- R313, R316: a check of slot n without loading it. -/
def State.checkSlot (s : State) (n : Nat) : State :=
  let l := s.slotWords n
  ((s.setBit MC_VSTAT_VALID n (imgCheck l == 0)).set (MC_SLOT_VER_VER n) (imgVersion l)).set (MC_SLOT_CRC_CRC n) (imgCrcField l)

/-! ### MC_CMD (R315, R316) -/

/-- HOSTLOAD (R315). -/
def State.mcHostloadCmd (s : State) : State :=
  if s.mcState = mcLoading ∨ s.mcState = mcReload then s
  else
    let s := s.resetAllEngines.set MC_STAT_STATE mcHostload
    { s with sys := { s.sys with mcImage := none } }

/-- R315: the image of R310 as the store, the table and the three registers hold it. -/
def State.hostImage (s : State) : List Native :=
  let n := s.get MC_LDNENT_NENT
  let d := fun i => (s.dispEntry 0 i).word.toNat
  let h0 := 0x5C * 2 ^ 64 + 2 ^ 56 + n * 2 ^ 44 + (66 + 2 * n)
  let h1 := s.get MC_LDVER_VER * 2 ^ 40 + s.get MC_LDCRC_CRC * 2 ^ 8
  [BitVec.ofNat 72 h0, BitVec.ofNat 72 h1]
    ++ (List.range 64).map (fun w => BitVec.ofNat 72 (d (4 * w) + d (4 * w + 1) * 2 ^ 16 + d (4 * w + 2) * 2 ^ 32 + d (4 * w + 3) * 2 ^ 48))
    ++ (List.range n).flatMap fun i =>
      let w := (s.csEntry 0 i).word.toNat
      [BitVec.ofNat 72 w, BitVec.ofNat 72 (w / 2 ^ 72)]

/-- FINISH (R315): the image is formed; its check ends with IMAGE_CHECK_COMPLETE. -/
def State.mcFinish (s : State) : State :=
  if s.mcState = mcHostload then { s with sys := { s.sys with mcImage := some s.hostImage } } else s

/-- VERIFY (R316): the check of a slot begins. -/
def State.mcVerifyCmd (s : State) (n : Fin 2) : State :=
  if s.on MC_VSTAT_BUSY then s else { s.set MC_VSTAT_BUSY 1 with sys := { s.sys with mcVerify := some n } }

/-- R324: a write of MC_CMD. -/
def State.writeMcCmd (s : State) (v : Word) : State :=
  match fieldOf v 3 0 with
  | 1 => s.mcHostloadCmd
  | 2 => s.mcFinish
  | 3 => s.mcVerifyCmd (Fin.ofNat 2 (fieldOf v 8 8))
  | _ => s

/-- HOSTLOAD (R315). -/
def execHostload (s : State) : Host.Outcome State Fault Refusal := hostDone s s.mcHostloadCmd
/-- FINISH (R315). -/
def execFinish (s : State) : Host.Outcome State Fault Refusal := hostDone s s.mcFinish
/-- VERIFY (R316). -/
def execVerify (slot : Fin 2) (s : State) : Host.Outcome State Fault Refusal := hostDone s (s.mcVerifyCmd slot)

/-- R315: the end of a FINISH. -/
def State.finishDone (s : State) (l : List Native) : State :=
  let s := { s with sys := { s.sys with mcImage := none } }
  match s.loadImage l 3 with
  | (s, true) => s.set MC_STAT_STATE mcLoaded
  | (s, false) => s.set MC_STAT_STATE mcNoImage

/-- R316: the end of a VERIFY. -/
def State.verifyDone (s : State) (n : Nat) : State :=
  ({ s with sys := { s.sys with mcVerify := none } }.set MC_VSTAT_BUSY 0).checkSlot n

/-! ### The boot loader (R313) -/

/-- R313: the sources that MC_BOOT names, in order: an NVS slot, or the SPI flash. -/
def State.bootSources (s : State) : List (Option Nat) :=
  let n := s.get MC_BOOT_SLOT
  match s.get MC_BOOT_ORDER with
  | 1 => [none, some n, some (1 - n)]
  | 2 => []
  | _ => [some n, some (1 - n)]

/-- R313: both slots are checked before the first source is tried. -/
def State.bootSlotsChecked (s : State) : State := if s.sys.mcTry = 0 then (s.checkSlot 0).checkSlot 1 else s

/-- R313: the loader tries its next source; one that passes is loaded, and is the slot that MC_IMGSEL names. -/
def State.bootTry (s : State) (src : Option Nat) (l : List Native) : State :=
  let s := s.bootSlotsChecked
  let s := { s with sys := { s.sys with mcTry := s.sys.mcTry + 1 } }
  match s.loadImage l (src.getD 2) with
  | (s, true) => (s.set MC_STAT_STATE mcLoaded).set MC_IMGSEL_SLOT (src.getD (s.get MC_BOOT_SLOT))
  | (s, false) => s

/-- R313: the rest of the sources, an SPI flash that has not answered being absent. -/
def State.bootRest (s : State) : State :=
  (s.bootSources.drop s.sys.mcTry).foldl (fun s src =>
    if s.mcState = mcLoading then s.bootTry src (match src with
      | some n => s.slotWords n
      | none => [])
    else s) s.bootSlotsChecked

/-- R313, R314, R418: step MC. A boot that loads no image reads 0 as its version and its CRC. -/
def State.bootMc (s : State) : State :=
  let s := s.bootRest
  if s.mcState = mcLoading then
    (((s.set MC_STAT_STATE mcNoImage).set ⟨MC_VERSION, 31, 0⟩ 0).set MC_IMAGE_CRC_CRC 0).set MC_IMGSEL_SLOT (s.get MC_BOOT_SLOT)
  else s

/-- R313: the boot loader's next source is the one presented. -/
def State.bootNext (s : State) (src : Option Nat) : Bool :=
  s.mcState == mcLoading && s.get GL_STATUS_BOOT == 2 && (s.bootSources.drop s.sys.mcTry).head? == some src

/-- R412: a flash whose H0 is all ones counts as absent. -/
def spiImage (l : List Native) : List Native := if l.headD 0 = BitVec.allOnes 72 then [] else l

/-- The end of an image check (R312): of a VERIFY by its slot, of a FINISH, or of the boot loader's next source in
LOADING. -/
def State.imageChecked (s : State) (src : ImageSource) : State :=
  match src with
  | .slot n =>
    if s.sys.mcVerify = some n then s.verifyDone n
    else if s.bootNext (some n.val) then s.bootTry (some n.val) (s.slotWords n.val) else s
  | .spi l => if s.bootNext none then s.bootTry none (spiImage l) else s
  | .host => match s.sys.mcImage with
    | some l => if s.mcState = mcHostload then s.finishDone l else s
    | none => s

/-- IMAGE_CHECK_COMPLETE (R312). -/
def execImageCheckComplete (src : ImageSource) (s : State) : Host.Outcome State Fault Refusal := done s (s.imageChecked src)

/-! ### Windows (R315) -/

/-- R315: a word written to the control store window reaches every engine, with new parity. -/
def State.writeStoreWindow (s : State) (off : Nat) (w : Native) : State :=
  if s.mcState ≠ mcHostload then s
  else
    let i := off / 32 % 2048
    s.forEach (List.range 32) fun s e =>
      let old := (s.csEntry e i).word.toNat
      let new := if off / 16 % 2 = 0 then old / 2 ^ 72 * 2 ^ 72 + w.toNat else w.toNat * 2 ^ 72 + old % 2 ^ 72
      s.setCsEntry e i (CsEntry.make (BitVec.ofNat 144 new))

/-- R315: a read of the window returns entry e of engine MC_WIN.ENG. -/
def State.readStoreWindow (s : State) (off : Nat) : Native :=
  let w := (s.csEntry (s.get MC_WIN_ENG) (off / 32 % 2048)).word.toNat
  BitVec.ofNat 72 (if off / 16 % 2 = 0 then w else w / 2 ^ 72)

/-- CONTROL_STORE_WINDOW_WRITE (R315). -/
def execControlStoreWindowWrite (off : BitVec 16) (w : Native) (s : State) : Host.Outcome State Fault Refusal :=
  hostDone s (s.writeStoreWindow off.toNat w)

/-- R324: each MC_DISP_DATA access increments IDX. -/
def State.dispStep (s : State) : State := s.set MC_DISP_ADDR_IDX (s.get MC_DISP_ADDR_IDX + 1)

/-- R315, R324: a write of MC_DISP_DATA. -/
def State.writeDispData (s : State) (v : Word) : State :=
  let i := s.get MC_DISP_ADDR_IDX
  let s1 := if s.mcState = mcHostload then
      s.forEach (List.range 32) fun s e => s.setDispEntry e i (DispEntry.make (BitVec.ofNat 16 (fieldOf v 15 0)))
    else s
  s1.dispStep

/-- R324: what a read of MC_DISP_DATA returns. -/
def State.dispData (s : State) : Word :=
  BitVec.ofNat 32 (s.dispEntry (s.get MC_WIN_ENG) (s.get MC_DISP_ADDR_IDX)).word.toNat

/-- DISPATCH_DATA_ACCESS (R324): a write of a word, or a read. -/
def execDispatchDataAccess (w : Option Word) (s : State) : Host.Outcome State Fault Refusal :=
  hostDone s (match w with
    | some v => s.writeDispData v
    | none => (s.emit (.readData (s.dispData.setWidth 64))).dispStep)

/-! ### Errors of a fetch (R19, R319) -/

/-- R19: an uncorrectable word of a memory of kind k is counted and checks the engine. -/
def State.sramError (s : State) (l k cause : Nat) : State :=
  let s := s.sramRead (32 * k + l) .uncorrectable
  s.machineCheck l cause 0 (s.engine l).upc

/-- R319: the fetches of an engine: the microword it stands at, its dispatch, its instruction, its vector. A parity error
acts where the entry fails its check. An I-store error acts in the SCLK of the dispatch that reads it (R305), so before
the instruction's first microword; a V-store or refill error where the slot reads that memory. -/
def State.fetchError (s : State) (l : Nat) (k : FetchError) : State :=
  let s1 := s.takeDecision l
  let x := s1.engine l
  let e := s1.csEntry l x.upc
  let m := Micro.of e.word
  match k with
  | .control => if s1.atMicro l && e.badSlices != 0 then (s1.micro l).1 else s
  | .dispatch => if s1.inMchk l then s1 else s
  | .istore => if s1.mayRun l && x.dispatched && x.fresh then s1.sramError l 0 mchkIstore else s
  | .vstore => if s1.atMicro l && m.issue && (m.vsrc == 0 || s1.underrun l) then s1.sramError l 1 mchkVstore else s
  | .refill => if s1.atMicro l && m.issue && m.vsrc == 1 && !s1.underrun l then s1.sramError l 2 mchkRefill else s
  | .corrected k => s.sramRead (32 * k.val + l) .corrected

/-- CONTROL_STORE_PARITY_ERROR (R319). -/
def execControlStoreParityError (e : EngineIx) (kind : FetchError) (s : State) : Host.Outcome State Fault Refusal :=
  done s (s.fetchError e kind)

/-- R321: the scrubber of an engine in this TCLK. -/
def State.scrub (s : State) (e : Nat) : State :=
  let x := s.time.toNat % 2 ^ 28
  if s.mcState ≠ mcLoaded then s
  else if x % 2 ^ 17 = 0 then s.scrubEntry e (x / 2 ^ 17)
  else if x = 2 ^ 16 then s.scrubDisp e (s.time.toNat / 2 ^ 28 % 256)
  else s

/-- SCRUB_READ (R321). -/
def execScrubRead (e : EngineIx) (s : State) : Host.Outcome State Fault Refusal := done s (s.scrub e)

/-- R322: a write of MC_INJ. -/
def State.inject (s : State) (v : Word) : State :=
  if fieldOf v 31 31 = 1 then
    let e := fieldOf v 4 0
    let i := fieldOf v 26 16
    let x := s.csEntry e i
    s.setCsEntry e i { x with parity := x.parity ^^^ BitVec.ofNat 8 (2 ^ fieldOf v 10 8) }
  else s

/-- PARITY_INJECT (R322). -/
def execParityInject (v : Word) (s : State) : Host.Outcome State Fault Refusal := hostDone s (s.inject v)

end Sys2Proof.Machine
end

