-- ==== Sys2Proof/Machine/Digest.lean ====
section
/-! DEFINITION. The planes of R325 and the configuration digest (R344 to R347). -/

namespace Sys2Proof.Machine

/-! ### Planes (R325, R331) -/

/-- A live word with its S fields taken from a staged word. -/
def mergeStaged (fs : List FieldSpec) (live staged : Word) : Word :=
  fs.foldl (fun w f => if f.plane = .staged then withField w f.hi f.lo (fieldOf staged f.hi f.lo) else w) live

/-- A register whose live word an apply changes: name, indices, the live word and the word it takes. -/
structure PlaneChange where
  name : RegName
  ix : List Nat
  old : Word
  new : Word
  deriving DecidableEq, Repr

def PlaneChange.reg (c : PlaneChange) : Reg := c.name.reg c.ix

/-- A field differs between the two words. -/
def PlaneChange.touches (c : PlaneChange) (x : Fld) : Bool :=
  c.reg.addr == x.reg.addr && fieldOf c.old x.hi x.lo != fieldOf c.new x.hi x.lo

/-- What the staged plane would change in the live plane. -/
def State.planeChanges (s : State) : List PlaneChange :=
  s.staged.filterMap fun e => match regAt e.1 with
    | some (n, ix) =>
      let old := s.live.word (n.reg ix)
      let new := mergeStaged (n.fields ix) old e.2
      if new = old then none else some { name := n, ix := ix, old := old, new := new }
    | none => none

/-- R345: the plane whose digest is the staged digest. -/
def State.stagedPlane (s : State) : RegFile :=
  let f := s.planeChanges.foldl (fun f c => f.setWord c.reg c.new) s.live
  let n := s.stagedGet MC_IMGSEL_SLOT
  if n = s.get MC_IMGSEL_SLOT then f
  else (f.setWord MC_VERSION (s.word (MC_SLOT_VER n))).setWord MC_IMAGE_CRC (s.word (MC_SLOT_CRC n))

/-! ### The digest (R344) -/

/-- One bit of the CRC-64, most significant first. -/
def crc64Bit (c : BitVec 64) : BitVec 64 := if c.getLsbD 63 then (c <<< 1) ^^^ 0x42F0E1EBA9EA3693 else c <<< 1

def crc64Byte (c : BitVec 64) (b : Byte) : BitVec 64 :=
  (List.range 8).foldl (fun c _ => crc64Bit c) (c ^^^ (b.setWidth 64 <<< 56))

/-- A 32-bit word, bits [31:24] first. -/
def crc64Word (c : BitVec 64) (w : Word) : BitVec 64 :=
  [24, 16, 8, 0].foldl (fun c i => crc64Byte c (BitVec.ofNat 8 (w.toNat / 2 ^ i))) c

/-- R344: the live fields that are inputs of the digest. -/
def digestLive (n : RegName) (f : FieldSpec) : Bool :=
  match n with
  | .LS_CLR => f.hi == 15
  | .CP_SMDIV => f.hi == 3
  | .CP_SM_CTL =>
    [(CP_SM_CTL_WSRC 0).hi, (CP_SM_CTL_BLEN 0).hi, (CP_SM_CTL_BURST 0).hi, (CP_SM_CTL_PER 0).hi].contains f.hi
  | .TP_TBREF_CTL => true
  | .TD_CAL_CTL => true
  | _ => false

/-- The fields of a register that are inputs of the digest. -/
def digestFields (n : RegName) (ix : List Nat) : List FieldSpec :=
  (n.fields ix).filter fun f => f.plane == .staged || (f.plane == .live && digestLive n f)

/-- R344: one included register; `none` for an address that is not one. -/
def RegFile.digestWord (p : RegFile) (addr : Nat) : Option Word :=
  match regAt addr with
  | none => none
  | some (n, ix) =>
    match digestFields n ix with
    | [] => none
    | fs => some (fs.foldl (fun w f => withField w f.hi f.lo (fieldOf (p.word (n.reg ix)) f.hi f.lo)) 0)

/-- The CRC of the n registers from a word address, in ascending order. -/
def RegFile.digestFrom (p : RegFile) (c : BitVec 64) (a : Nat) : Nat → BitVec 64
  | 0 => c
  | n + 1 =>
    let c := match p.digestWord (4 * a) with
      | some w => crc64Word c w
      | none => c
    p.digestFrom c (a + 1) n

/-- R344: the digest of a plane. -/
def RegFile.digest (p : RegFile) : BitVec 64 :=
  crc64Word (crc64Word (p.digestFrom 0 0 0x104000) (p.word MC_VERSION)) (p.word MC_IMAGE_CRC)

/-- DG_DIGEST. -/
def State.digest (s : State) : BitVec 64 := s.dg.plane.digest

/-- DG_SDIGEST. -/
def State.sdigest (s : State) : BitVec 64 := match s.dg.staged with
  | some p => p.digest
  | none => 0

/-! ### Comparison and reports (R347) -/

def State.creference (s : State) (c : Nat) : BitVec 64 :=
  BitVec.ofNat 64 (s.get (DG_CREF_HI_R_HI c) * 2 ^ 32 + s.get (DG_CREF_LO_R_LO c))

def State.crefValid (s : State) (c : Nat) : Bool := s.bit (DG_CVALID_VALID (c / 32)) (c % 32)

/-- R347: the comparison, made at every change of the digest, the class, a reference or CMPEN. -/
def State.dgCompare (s : State) : State :=
  let c := s.get DG_CLASS_CLASS
  let v := s.crefValid c
  let mis := s.on DG_CTL_CMPEN && v && s.digest != s.creference c
  let was := s.on DG_STAT_DIGEST_MISMATCH
  let s := (s.set DG_STAT_REFV (if v then 1 else 0)).set DG_STAT_DIGEST_MISMATCH (if mis then 1 else 0)
  if mis && !was then s.flag DG_FLAGS_DIGEST_MISMATCH DG_CNT_MISMATCH else s

/-- DG_DIGEST takes the digest of a plane; after a change a report is owed. -/
def State.setDigest (s : State) (p : RegFile) : State :=
  { s with dg := { s.dg with plane := p, owed := s.dg.owed || p.digest != s.digest } }.dgCompare

/-- DIGEST_RECOMPUTE (R346). -/
def execDigestRecompute (s : State) : Host.Outcome State Fault Refusal :=
  doneIf (s.on DG_STAT_STALE) s ((s.set DG_STAT_STALE 0).setDigest s.live)

/-- R345: DG_CMD.SCALC. -/
def State.scalc (s : State) : State :=
  if s.cm.isSome then s else { s with dg := { s.dg with staged := some s.stagedPlane } }

/-- SCALC (R345). -/
def execScalc (s : State) : Host.Outcome State Fault Refusal := hostDone s s.scalc

/-- R347: the root counts the devices whose latest report is a mismatch. -/
def State.dgTally (s : State) : State :=
  let ds := (s.dg.reports.filter fun r => r.2.2.2).map (·.1)
  let was := s.get DG_DOMSTAT_NMIS
  let low := ds.foldl (fun m d => match m with
    | some x => some (min x d)
    | none => some d) (none : Option Nat)
  let s := (s.set DG_DOMSTAT_NMIS ds.length).set DG_DOMSTAT_FIRSTDEV (low.getD 0)
  if was = 0 ∧ ds ≠ [] then s.flag DG_FLAGS_DOM_MISMATCH DG_CNT_DOMMIS else s

/-- R347: a report reaches the root. -/
def State.dgReported (s : State) (dev cls : Nat) (d : BitVec 64) (mis : Bool) : State :=
  let below := s.dg.reports.filter fun (r : Nat × Nat × BitVec 64 × Bool) => decide (r.1 < dev)
  let above := s.dg.reports.filter fun (r : Nat × Nat × BitVec 64 × Bool) => decide (dev < r.1)
  ({ s with dg := { s.dg with reports := below ++ (dev, cls, d, mis) :: above } }).dgTally

/-- R347: this device reports. -/
def State.dgReport (s : State) : State :=
  let s := { s with dg := { s.dg with owed := false, reportAt := s.time } }
  let c := s.get DG_CLASS_CLASS
  let mis := s.on DG_STAT_DIGEST_MISMATCH
  if s.isRoot then s.dgReported 0 c s.digest mis
  else s.sendUp 1 (c + (if mis then 256 else 0)) [s.digest.setWidth 72]

/-- DIGEST_REPORT (R347): after a change of DG_DIGEST, and every PER ms. -/
def execDigestReport (s : State) : Host.Outcome State Fault Refusal :=
  doneIf ((s.isRoot || s.isMember) && (s.dg.owed || decide (usTclk (1000 * s.get DG_CTL_PER) ≤ s.since s.dg.reportAt))) s s.dgReport

/-- DIGEST_REPORT_RECEIVE (R347), on the root. -/
def execDigestReportReceive (dev : BitVec 10) (cls : BitVec 8) (digest : BitVec 64) (mis : Bool) (s : State) :
    Host.Outcome State Fault Refusal :=
  doneIf s.isRoot s (s.dgReported dev.toNat cls.toNat digest mis)

/-- The reference of a class and its valid bit. -/
def State.putCref (s : State) (c : Nat) (valid : Bool) (d : BitVec 64) : State :=
  ((s.set (DG_CREF_LO_R_LO c) (d.toNat % 2 ^ 32)).set (DG_CREF_HI_R_HI c) (d.toNat / 2 ^ 32)).setBit
    (DG_CVALID_VALID (c / 32)) (c % 32) valid

/-- R347: the root broadcasts a reference. -/
def State.sendCref (s : State) (c : Nat) : State :=
  if s.isRoot then
    s.broadcast 7 (c + (if s.crefValid c then 256 else 0)) [(s.creference c).setWidth 72]
  else s

/-- CREF_RECEIVE (R347): a member's copy. -/
def State.crefReceived (s : State) (c : Nat) (valid : Bool) (d : BitVec 64) : State :=
  if s.isMember && !s.isRoot then (s.putCref c valid d).dgCompare else s

/-- CREF_RECEIVE (R347). -/
def execCrefReceive (cls : BitVec 8) (valid : Bool) (digest : BitVec 64) (s : State) : Host.Outcome State Fault Refusal :=
  done s (s.crefReceived cls.toNat valid digest)

/-- R347: every class reported takes the digest of the lowest-numbered device that reports it. -/
def State.learn (s : State) : State :=
  if s.isRoot then
    (((s.dg.reports.map fun r => r.2.1).eraseDups).foldl (fun s c =>
      match s.dg.reports.find? fun r => r.2.1 == c with
      | some r => (s.putCref c true r.2.2.1).sendCref c
      | none => s) s).dgCompare
  else s

/-- LEARN (R347). -/
def execLearn (s : State) : Host.Outcome State Fault Refusal := hostDone s s.learn

/-- R347, R350: a write of a reference word; host writes to a member's copy have no effect. -/
def State.writeCref (s : State) (c : Nat) (hi : Bool) (v : Word) : State :=
  if s.isMember && !s.isRoot then s
  else
    let s := if hi then (s.set (DG_CREF_HI_R_HI c) v.toNat).setBit (DG_CVALID_VALID (c / 32)) (c % 32) true
      else s.set (DG_CREF_LO_R_LO c) v.toNat
    (s.sendCref c).dgCompare

/-- R347, R350: a write of valid bits; the root broadcasts the classes it changes. -/
def State.writeCvalid (s : State) (w : Nat) (v : Word) : State :=
  if s.isMember && !s.isRoot then s
  else
    let was := s.get (DG_CVALID_VALID w)
    let s := s.set (DG_CVALID_VALID w) v.toNat
    (s.forEach ((List.range 32).filter fun i => was.testBit i != v.getLsbD i) fun s i => s.sendCref (32 * w + i)).dgCompare

/-! ### Reload (R317, R318) -/

/-- R317, R318: the end of a reload, from the slot named or else from the other; the digest follows. -/
def State.reloadDone (s : State) : State :=
  let n := s.get MC_IMGSEL_SLOT
  match s.loadImage (s.slotWords n) n with
  | (s, true) => (s.set MC_STAT_STATE mcLoaded).setDigest (s.set MC_STAT_STATE mcLoaded).live
  | (s, false) =>
    let staged := s.stagedWord MC_IMGSEL
    let s := ((s.flag MC_FLAGS_LOADERR MC_CNT1_LOADERR).set MC_IMGSEL_SLOT (1 - n)).setStagedWord MC_IMGSEL staged
    match s.loadImage (s.slotWords (1 - n)) (1 - n) with
    | (s, true) => (s.set MC_STAT_STATE mcLoaded).setDigest (s.set MC_STAT_STATE mcLoaded).live
    | (s, false) => (s.set MC_STAT_STATE mcNoImage).dgStale

/-- RELOAD_COMPLETE (R317, R318). -/
def execReloadComplete (s : State) : Host.Outcome State Fault Refusal := doneIf (s.mcState == mcReload) s s.reloadDone

end Sys2Proof.Machine
end

