-- ==== Sys2Proof/Machine/Snapshot.lean ====
section
/-! DEFINITION. Chapter 12: LAKE snapshots: requests, latches, banks and their items (R340 to R343). -/

namespace Sys2Proof.Machine

/-! ### Requests -/

/-- A write of SN_CMD.SNAP (R340). -/
def State.snapHost (s : State) : State := s.snapRequest 0

/-- SNAPSHOT_HOST (R340). -/
def execSnapshotHost (s : State) : Host.Outcome State Fault Refusal := hostDone s s.snapHost

/-- A request of the domain or of SN_CMD.SCHED for TIME t: it latches in the TCLK that TIME reaches t (R60, R343). -/
def State.snapAt (s : State) (t : Time) (src : Nat) : State :=
  if s.snapEnabled src then { s with sn := { s.sn with reqs := addReq s.sn.reqs t src false } } else s

/-- Source 8 leaves a list of requests; one that it alone has made ends. -/
def dropTimeReq (l : List (Time × Nat × Bool)) : List (Time × Nat × Bool) :=
  (l.map fun r => if r.2.1.testBit 8 then (r.1, r.2.1 - 2 ^ 8, r.2.2) else r).filter (·.2.1 != 0)

/-- A write of SN_CMD.SCHED (R343, R57): one local snapshot is armed, the new one in place of an older; a target
already reached counts from the next TCLK. -/
def State.snapSched (s : State) : State :=
  let t := s.getTime SN_TT_LO_T_LO SN_TT_HI_T_HI
  let t := if reached s.time t then later s.time 1 else t
  ({ s with sn := { s.sn with reqs := addReq (dropTimeReq s.sn.reqs) t 8 false } }).set SN_STAT_ARMED 1

/-- SNAPSHOT_SCHED (R343). -/
def execSnapshotSched (s : State) : Host.Outcome State Fault Refusal := hostDone s s.snapSched

/-- R343: a domain snapshot at TIME t; late when t has passed on arrival (R59). -/
def State.domainSnap (s : State) (t : Time) : State :=
  if reached s.time t && s.time != t then
    (s.snapRequestAt s.time 7 true).flag TP_FLAGS_EPOCH_LATE TP_CNT2_EPOCH_LATE
  else s.snapAt t 7

/-- A write of SN_CMD.DOMSCHED (R343): on a root only; the root takes its own broadcast. -/
def State.snapDomSched (s : State) : State :=
  if s.isRoot then
    let t := s.getTime SN_TT_LO_T_LO SN_TT_HI_T_HI
    (s.broadcast 4 0 [timeFlit t]).domainSnap t
  else s

/-- SNAPSHOT_DOMSCHED (R343). -/
def execSnapshotDomsched (s : State) : Host.Outcome State Fault Refusal := hostDone s s.snapDomSched

/-- R343: the broadcast reaches a member. -/
def State.snapReceived (s : State) (t : Time) : State := if s.isMember && !s.isRoot then s.domainSnap t else s

/-- DOMAIN_SNAP_RECEIVE (R343). -/
def execDomainSnapReceive (t : Time) (s : State) : Host.Outcome State Fault Refusal :=
  done s (s.snapReceived t)

/-! ### The latch (R340, R341) -/

/-- The requests whose TCLK has come, the earliest first. -/
def State.snapDue (s : State) : Option (Time × Nat × Bool) :=
  (s.sn.reqs.filter fun r => reached s.time r.1).foldl (fun m r => match m with
    | none => some r
    | some x => if reached r.1 x.1 then some x else some r) none

/-- The registers of the items as they read in this TCLK; STEP is that in force at the trigger, at TIME t (R54). -/
def State.snapRegs (s : State) (t : Time) : RegFile :=
  let p := s.phase
  let live := s.live.setWord TP_STEP (withField (s.word TP_STEP) TP_STEP_STEP.hi TP_STEP_STEP.lo (s.stepAt t))
  ((live.setWord TP_PH_ANGLE (BitVec.ofNat 32 p.toNat)).setWord TP_PH_CYCLE (BitVec.ofNat 32 (p.toNat / 2 ^ 32))).setWord
    TP_PH_VEL (if s.phState = phStalled then 0 else BitVec.ofInt 32 s.tp.vel)

/-- R341: the bank of the next latch; `none` where every bank is FULL and MODE = STOP. -/
def State.snapBank (s : State) : Option Nat :=
  if s.on SN_CTL_MODE then (List.range 4).find? fun b => !s.bit SN_STAT_FULL b
  else some (s.get SN_STAT_NEXT)

/-- R340, R54: the TCLK of the trigger of a latch: that before it, but for a scheduled one. -/
def triggerOf (r : Time × Nat × Bool) : Time := if r.2.1 % 128 = 0 ∧ !r.2.2 then r.1 else r.1 - 1

/-- R340, R341: one latch of every item, or a refusal. -/
def State.snapLatch (s : State) (r : Time × Nat × Bool) : State :=
  let s := { s with sn := { s.sn with reqs := s.sn.reqs.filter (·.1 != r.1) } }
  let s := if r.2.1.testBit 8 then s.set SN_STAT_ARMED 0 else s
  match s.snapBank with
  | none => s.flag SN_FLAGS_REFUSED SN_CNT_REFUSED
  | some b =>
    let seq := s.get SN_STAT_SEQ + 1
    let snap : Snap := { time := r.1, src := r.2.1, late := r.2.2, seq := seq % 2 ^ 16, regs := s.snapRegs (triggerOf r), plane := s.dg.plane }
    let s := { s with sn := { s.sn with banks := vset s.sn.banks b (some snap) } }
    let s := ((s.set SN_STAT_SEQ seq).setBit SN_STAT_FULL b true).set SN_STAT_NEXT (b + 1)
    if r.2.2 then s.flag SN_FLAGS_LATE SN_CNT_LATE else s

/-- R332, R343: the latch due in this TCLK. -/
def State.snapNow (s : State) : State := match s.snapDue with
  | some r => s.snapLatch r
  | none => s

/-- SNAPSHOT_LATCH (R340). -/
def execSnapshotLatch (s : State) : Host.Outcome State Fault Refusal :=
  done s s.snapNow

/-- R341: a write of SN_REL. -/
def State.snapRelease (s : State) (v : Word) : State :=
  s.forEach (bitsOf (fieldOf v 3 0) 4) fun s b => s.setBit SN_STAT_FULL b false

/-- BANK_RELEASE (R341). -/
def execBankRelease (v : Word) (s : State) : Host.Outcome State Fault Refusal := hostDone s (s.snapRelease v)

/-! ### Items (R342) -/

/-- R342: the registers that items 0x0025 to 0x0034 report; which item reports which is not stated. -/
def snapUnits : List Reg :=
  (List.range 4).flatMap (fun k => [TH_OCH_B k, TH_OCH_I k]) ++ (List.range 4).map CL_P_STAT ++ [TW_STAT]

/-- Items 0x0100 + 24 g + i. -/
def snapGroupReg (g i : Nat) : Option Reg :=
  ([some (SQ_STAT g), some (SQ_ELIG g), some (FC_VCNT_LO g), some (FC_VCNT_HI g), some (FC_SUM_STAT g), some (CP_STATUS g),
    some (CP_STATE g), if g % 8 = 0 then some (CP_TGSTAT g) else none, some (LS_PARKSTAT g), some (LS_SELSTAT g),
    some (LS_ILIMMAP g), some (TD_CAL_STAT g), some (TD_EVDROP g), some (FQ_STAT g), some (WP_STAT g), some (WP_POS g),
    some (FC_CAP_STAT g), some (FC_LOG_PTR g), some (FC_EV_PTR g), some (FC_LOGDROP g), some (SQ_STRM_STAT g),
    some (SQ_UNDRCNT g), some (SQ_CLAMP_COUNT g), some (MC_MCHK g)] : List (Option Reg)).getD i none

/-- Items 0x8000 + 32 x + i: the state of device context x. -/
def snapCtxReg (e c i : Nat) : Option Reg :=
  match i with
  | 0 => some (SQ_CTX_STAT e c) | 1 => some (SQ_CTX_CFG e c) | 2 => some (SQ_CTX_FLAGS e c) | 3 => some (SQ_CTX_RES e c)
  | 4 => some (SQ_CTX_STK01 e c) | 5 => some (SQ_CTX_STK23 e c)
  | _ => if i < 10 then some (SQ_CTX_L e c (i - 6)) else if i < 18 then some (SQ_CTX_Q e c (i - 10)) else none

/-- The register an item reports, where it is one. -/
def snapReg (i : Nat) : Option Reg :=
  if i = 6 then some GL_CLAMP_COUNT
  else if i = 7 then some MC_MCHKMAP
  else if 0x10 ≤ i ∧ i ≤ 0x16 then
    [TP_PH_ANGLE, TP_PH_CYCLE, TP_PH_VEL, TP_STATUS, TP_STEP, TP_STEP_TIME_LO, TP_STEP_TIME_HI][i - 0x10]?
  else if 0x20 ≤ i ∧ i < 0x25 then some (TH_TEMP (i - 0x20))
  else if 0x25 ≤ i ∧ i ≤ 0x34 then snapUnits[Config.snapOrder i]?
  else if 0x100 ≤ i ∧ i < 0x400 then snapGroupReg ((i - 0x100) / 24) ((i - 0x100) % 24)
  else if 0x400 ≤ i ∧ i < 0x404 then some (AQ_TE_STAT (i - 0x400))
  else if i = 0x404 then some AQ_FLAGS
  else if 0x1000 ≤ i ∧ i < 0x1000 + 6 * 512 then
    let c := (i - 0x1000) / 6
    some (LS_OUT (c / 16) (c % 16) ((i - 0x1000) % 6))
  else if 0x8000 ≤ i ∧ i < 0x10000 then
    let x := (i - 0x8000) / 32
    snapCtxReg (x / 32) (x % 32) ((i - 0x8000) % 32)
  else none

/-- R342: item i of a latch. -/
def Snap.item (b : Snap) (i : Nat) : Word :=
  match i with
  | 0 => BitVec.ofNat 32 b.time.toNat
  | 1 => BitVec.ofNat 32 (b.time.toNat / 2 ^ 32)
  | 2 => BitVec.ofNat 32 (b.src + if b.late then 2 ^ 31 else 0)
  | 3 => BitVec.ofNat 32 b.seq
  | 4 => b.plane.digest.setWidth 32
  | 5 => (b.plane.digest >>> 32).setWidth 32
  | _ => match snapReg i with
    | some r => b.regs.word r
    | none => 0

/-- SN_RDATA (R349). -/
def State.snapData (s : State) : Word :=
  match vget s.sn.banks (s.get SN_RADDR_BANK) none with
  | some b => b.item (s.get SN_RADDR_ITEM)
  | none => 0

/-- SNAPSHOT_ITEM_READ (R349): ITEM advances. -/
def execSnapshotItemRead (s : State) : Host.Outcome State Fault Refusal :=
  hostDone s ((s.emit (.readData (s.snapData.setWidth 64))).incr SN_RADDR_ITEM)

end Sys2Proof.Machine
end

