-- ==== Sys2Proof/Machine/Commit.lean ====
section
/-! DEFINITION. Chapter 12: MORDANT commits: requests, checks, twin and domain agreement, the apply. -/

namespace Sys2Proof.Machine

/-! ### Status (R333) -/

def cmIdle : Nat := 0
def cmChecking : Nat := 1
def cmPending : Nat := 2
def cmVoting : Nat := 3
def cmApplied : Nat := 4
def cmRejected : Nat := 5
def cmAborted : Nat := 6
def cmRefused : Nat := 7
def cmOrphaned : Nat := 8
def cmChecked : Nat := 9

/-- R348: this device's domain number, 0 when standalone. -/
def State.ownDev (s : State) : Nat := if s.isRoot || s.isMember then s.devNum else 0

/-- R348: STATE, with CODE, DEV and SUB; DEV is this device's number but for CK40. -/
def State.cmStatus (s : State) (st code dev : Nat) : State :=
  ((s.set CM_STATUS_STATE st).set CM_STATUS_CODE code).set CM_STATUS_DEV (if code = 40 then dev else s.ownDev)

/-- The failing codes and the first failure (R330). -/
def State.cmWhere (s : State) (codes : List Nat) (w : CkFail) : State :=
  let map := codes.foldl (fun m k => m ||| 1 <<< (k - 1)) 0
  (((s.set CM_CKMAP_LO_MAP (map % 2 ^ 32)).set CM_CKMAP_HI_MAP (map / 2 ^ 32)).set CM_WHERE_UNIT w.1).set CM_WHERE_SUB w.2

def State.cmDone (s : State) : State := { s with cm := none }

/-- R330: the request ends REJECTED with its failures. -/
def State.cmReject (s : State) (fails : List (Nat × CkFail)) : State :=
  let first := fails.headD (39, 0, 0)
  ((s.cmDone.cmWhere (fails.map (·.1)) first.2).cmStatus cmRejected first.1 0).flag CM_FLAGS_REJECTED CM_CNT0_REJECTED

/-- The request ends ABORTED. -/
def State.cmAbort (s : State) : State := (s.cmDone.cmStatus cmAborted 0 0).flag CM_FLAGS_ABORTED CM_CNT1_ABORTED

/-- R337: the request ends ABORTED by the domain. -/
def State.cmAbort40 (s : State) (dev code : Nat) : State :=
  ((s.cmDone.cmWhere [40] (0, code)).cmStatus cmAborted 40 dev).flag CM_FLAGS_ABORTED CM_CNT1_ABORTED

/-- R339: an APPLY or ABORT with no commit to act on. -/
def State.cmStray (s : State) : State := s.flag CM_FLAGS_STRAY CM_CNT3_STRAY

/-- R329: a refused request. -/
def State.cmRefuse (s : State) (reason : Nat) : State :=
  ((s.set CM_STATUS_STATE cmRefused).set CM_STATUS_REASON reason).flag CM_FLAGS_REFUSED CM_CNT1_REFUSED

/-- R329: the staged plane is locked or an image is being loaded. -/
def State.cmBusy (s : State) : Bool :=
  s.cm.isSome || s.mcState == mcLoading || s.mcState == mcHostload || s.mcState == mcReload

/-! ### Domain votes (R336, R337) -/

/-- The connected downstream ports. -/
def State.downPorts (s : State) : Nat := ([1, 2].filter s.portUp).length

def voteArg (id : BitVec 16) (yes : Bool) (dev code : Nat) : Nat :=
  id.toNat + (if yes then 2 ^ 16 else 0) + dev * 2 ^ 17 + code * 2 ^ 27

/-- The NO of the lowest device number among those held. -/
def lowestNo (l : List (Bool × Nat × Nat × Nat)) : Option (Nat × Nat) :=
  l.foldl (fun m v => if v.1 then m else match m with
    | some x => if v.2.1 < x.1 then some (v.2.1, v.2.2.1) else some x
    | none => some (v.2.1, v.2.2.1)) none

/-- R336: the root ends the commit with ABORT. -/
def State.domainAbort (s : State) (b : Ballot) (dev code : Nat) : State :=
  let s := ({ s with ballot := none }).broadcast 3 (b.id.toNat + dev * 2 ^ 16 + code * 2 ^ 26) []
  match s.cm with
  | some r => if r.origin = .domain ∧ r.id = b.id then s.cmAbort40 dev code else s
  | none => s

/-- R336: the root ends the vote with APPLY. -/
def State.domainApply (s : State) (b : Ballot) : State :=
  let s := ({ s with ballot := none }).broadcast 2 b.id.toNat []
  match s.cm with
  | some r => if r.origin = .domain ∧ r.id = b.id then { s with cm := some { r with go := true } } else s
  | none => s

/-- All votes of a ballot, this device's own with COUNT = 1. -/
def State.allVotes (s : State) (b : Ballot) : List (Bool × Nat × Nat × Nat) :=
  (match b.own with
    | some (y, c) => [(y, s.devNum, c, 1)]
    | none => []) ++ b.votes

/-- R336: the ballot is forwarded, or decided on the root, once it is complete, at the first NO on the root, or at Tv with what is held.
The device that failed to vote by Tv is not named by the spec where it cannot be told: a free value. -/
def State.tally (s : State) : State :=
  match s.ballot with
  | none => s
  | some b =>
    let vs := s.allVotes b
    let full := b.own.isSome && decide (s.downPorts ≤ b.votes.length)
    let late := reached s.time b.tv
    let count := vs.foldl (fun n v => n + v.2.2.2) 0
    if s.isRoot then
      match lowestNo vs with
      | some (dev, code) => s.domainAbort b dev code
      | none =>
        if b.own.isSome && count == b.members then s.domainApply b
        else if late then (s.burn).domainAbort b (s.fresh.toNat % 1024) 0
        else s
    else if full || (late && !vs.isEmpty) then
      let s := { s with ballot := none }
      match lowestNo vs with
      | some (dev, code) => s.sendUp 0 (voteArg b.id false dev code) [BitVec.ofNat 72 count]
      | none => s.sendUp 0 (voteArg b.id true s.devNum 0) [BitVec.ofNat 72 count]
    else if late then { s with ballot := none }
    else s

/-- R337: the commit on which this device votes NO is noted, so that its ABORT records nothing further. -/
def State.noteVote (s : State) (id : BitVec 16) (yes : Bool) : State :=
  { s with cl := { s.cl with votedNo := if yes then none else some id } }

/-- This device's own vote on a domain commit. -/
def State.ownVote (s : State) (id : BitVec 16) (yes : Bool) (code : Nat) : State :=
  let s := s.noteVote id yes
  match s.ballot with
  | some b => if b.id = id then ({ s with ballot := some { b with own := some (yes, code) } }).tally else s
  | none => s

/-! ### Epochs of commits (R56, R57, R331) -/

/-- The head of an engine's issued vectors, once TIME has reached the TCLK of its start. -/
def State.nextDue (s : State) (g : Nat) : Option Tick :=
  match (s.group g).issue with
  | i :: _ =>
    let b := i.startAt.getD (s.group g).nextB
    if reached s.time (tclkOf b) then some b else none
  | [] => none

/-- The next vector of a group begins a summary interval. -/
def State.nextOpens (s : State) (g : Nat) : Bool :=
  match (s.group g).ivs with
  | iv :: _ => iv.full || iv.n == 0
  | [] => true

/-- TCLK n lies after `sched`. -/
def after (n sched : Time) : Bool := reached n (later sched 1)

/-- R331: the TCLK at which a pending commit applies, once it has come. -/
def State.commitDue (s : State) : Option Time :=
  match s.cm with
  | none => none
  | some r =>
    if r.phase = cmVoting then
      if r.go && r.origin == .domain && reached s.time r.ta then some r.ta else none
    else if r.phase ≠ cmPending then none
    else
      let first := later r.sched 1
      match r.kind with
      | 1 | 4 =>
        let t : Time := r.tgt.setWidth 56
        let a := if reached t first then t else first
        if reached s.time a then some a else none
      | 2 => if s.phLockedB && phaseReached s.phase r.tgt && reached s.time first then some s.time else none
      | 3 =>
        let l := s.leader r.eng
        match s.nextDue l with
        | some b => if s.nextOpens l && after (tclkOf b) r.sched then some (tclkOf b) else none
        | none => none
      | _ => match s.nextDue (s.leader r.eng) with
        | some b => if after (tclkOf b) r.sched then some (tclkOf b) else none
        | none => none

/-- R331: a TIME or PHASE epoch is reached as its check completes. -/
def State.epochLate (s : State) (kind : Nat) (tgt : BitVec 64) : Bool :=
  match kind with
  | 1 | 4 => reached s.time (tgt.setWidth 56)
  | 2 => s.phLockedB && phaseReached s.phase tgt
  | _ => false

/-! ### The apply (R331) -/

/-- What ends under the old values: sample ticks (R213) and intervals (R180) of the TCLKs before, regression gates (R169),
intervals (R179), engines of gangs that change and a microcode that changes (R221, R317). -/
def State.applyBefore (s : State) (cs : List PlaneChange) : State :=
  let gates := (List.range 32).filter fun g => cs.any fun c =>
    let a := c.reg.addr - groupBase g
    decide (groupBase g ≤ c.reg.addr) && (decide (0x8000 ≤ a ∧ a < 0x9000) || (c.name == .TD_CH && c.ix.head? == some g))
  let s := s.forEach (List.range 32) fun s g => (s.wpCatch g).endPast g
  let s := s.forEach gates fun s g => s.gateStop g true
  let s := if cs.any fun c => c.name == .MC_IMGSEL then s.resetAllEngines.set MC_STAT_STATE mcReload
    else s.forEach ((((List.range 32).filter fun e => cs.any fun c => c.touches (SQ_GANG_M e)).map s.leader).eraseDups) State.engineReset
  s.forEach s.leaders fun s l =>
    if cs.any fun c => c.touches (FC_SUM_CTL_K l) || c.touches (FC_SUM_CTL_ALIGN l) then s.forEach (s.members l) State.endEarly else s

/-- R218, R211: the waveform player of group g. -/
def State.applyWp (s : State) (cs : List PlaneChange) (g : Nat) : State :=
  let hit := fun x => cs.any fun c => c.touches x
  let s := if hit (WP_CTL_EN g) && !s.on (WP_CTL_EN g) then s.wpHalt g else s
  let s := if s.wpRuns g && (hit (WP_CTL_DAC g) || hit (WP_CHMASK_MASK g)) then s.wpReown g else s
  let s := if hit (WP_CTL_CLK g) && s.on (WP_CTL_CLK g) then s.setWp g { s.wp g with recalc := true } else s
  if cs.any fun c => c.name == .WP_STRM && c.ix.head? == some g then s.wpStrmCommit g else s

/-- The blocks of group g act on their new values: R95, R144, R218. The LS and CP registers as now live are on their way to
the die. -/
def State.applyGroup (s : State) (cs : List PlaneChange) (a : Time) (g : Nat) : State :=
  let hit := fun lo hi => cs.any fun c => decide (groupBase g + lo ≤ c.reg.addr ∧ c.reg.addr < groupBase g + hi)
  let s := if hit 0x4000 0x6000 then
      s.setGroup g { s.group g with lsPend := (s.group g).lsPend ++
        [(if s.issuing g then none else some (later a dieDelay), s.live.slice (groupBase g + 0x4000) (groupBase g + 0x6000))] }
    else s
  let s := if hit 0x6000 0x7000 then
      s.setGroup g { s.group g with cpPend := (s.group g).cpPend ++
        [(later a dieDelay, s.live.slice (groupBase g + 0x6000) (groupBase g + 0x7000))] }
    else s
  s.applyWp cs g

/-- R106, R108: the boot cause of PARK ends; a held GL_PIN_ENABLE acts. -/
def State.applyBoot (s : State) : State :=
  let s := { s with sys := { s.sys with committed := true } }
  let s := s.set GL_PIN_ENABLE_HELD 0
  let s := s.forEach (List.range 32) fun s g =>
    if (s.group g).preCommit then (s.setGroup g { s.group g with preCommit := false }).retargetGroup g else s
  s.parkAll

/-- Registers of AQ that belong to trigger engine n. -/
def teRegister (c : PlaneChange) (n : Nat) : Bool :=
  [RegName.AQ_TE_CTL, .AQ_TE_HOLD, .AQ_TE_OUT, .AQ_TE_ENG, .AQ_TE_S_CTL, .AQ_TE_S_WIN, .AQ_TE_S_PAT].contains c.name
    && c.ix.head? == some n

/-- R331: the staged plane becomes live in TCLK a and each block acts. -/
def State.applyPlane (s : State) (a : Time) : State :=
  let cs := s.planeChanges
  let s := s.applyBefore cs
  let s := { s with live := cs.foldl (fun f (c : PlaneChange) => f.setWord c.reg c.new) s.live, staged := [] }
  let tp := cs.any fun c => c.touches TP_PH_CTL_SRC || c.touches TP_PH_CTL_IDX_EN || c.name == .TP_PH_CPC || c.name == .TP_PH_IDXPOS
  let s := if tp then s.retrack else s
  let s := s.forEach (List.range 32) fun s g => s.applyGroup cs a g
  let s := s.forEach (List.range 32) fun s e => s.set (SQ_STAT_LEADER e) (s.leader e)
  let s := s.forEach ((List.range 4).filter fun n => cs.any fun c => teRegister c n) State.teCommit
  let s := s.forEach (List.range 8) State.barrierSelf
  s.applyBoot.drainLogs

/-- R331, R337: the commit applies in TCLK a; `late` on an APPLY that has passed its Ta. A latch of that TCLK records the
state before it (R332). -/
def State.applyCommit (s : State) (a : Time) (late : Bool) : State :=
  let s := (s.snapNow.cmDone.applyPlane a).setTime CM_AT_LO_T_LO CM_AT_HI_T_HI a
  let s := if late then (s.flag CM_FLAGS_LATE CM_CNT2_LATE).flag TP_FLAGS_EPOCH_LATE TP_CNT2_EPOCH_LATE else s
  ((s.cmStatus cmApplied 0 0).flag CM_FLAGS_APPLIED CM_CNT0_APPLIED).setDigest (s.dg.staged.getD [])

/-- A pending commit applies if its TCLK has come. -/
def State.commitNow (s : State) : State :=
  match s.commitDue with
  | some a => s.applyCommit a false
  | none => s

/-- COMMIT_APPLY (R331). -/
def execCommitApply (s : State) : Host.Outcome State Fault Refusal := done s s.commitNow

/-- R246, R463: a group that waits to park at OCHRE exhaustion does so at B + Z of this vector. -/
def State.ochBoundary (s : State) (g : Nat) (b : Tick) : State :=
  if (s.group g).ochreWait = some none then
    s.setGroup g { s.group g with ochreWait := some (some (tclkOf (b + BitVec.ofNat 66 zOffset))) }
  else s

/-- R210: the epoch that the player of group g awaits has been reached. -/
def State.wpArmedDue (s : State) (g : Nat) : Bool :=
  match (s.wp g).armed with
  | none => false
  | some (kind, tgt, at_) =>
    let first := later at_ 1
    match kind with
    | 1 | 4 =>
      let t : Time := tgt.setWidth 56
      reached s.time (if reached t first then t else first)
    | 2 => s.phLockedB && phaseReached s.phase tgt && reached s.time first
    | 3 => match s.nextDue g with
      | some b => s.nextOpens g && after (tclkOf b) at_
      | none => false
    | _ => match s.nextDue g with
      | some b => after (tclkOf b) at_
      | none => false

/-- R210: an armed player whose epoch has been reached starts. -/
def State.wpArmedNow (s : State) (g : Nat) : State := if s.wpArmedDue g then s.wpEpoch g else s

/-- R71: a commit that applies in the TCLK of a boundary at B, or before it, applies first. -/
def State.commitBy (s : State) (b : Tick) : State :=
  match s.commitDue with
  | some a => if reached (tclkOf b) a then s.applyCommit a false else s
  | none => s

/-- VECTOR_BOUNDARY (R68, R71): the oldest vector issued to the group, once TIME has reached the TCLK that contains its
start; a commit whose epoch that TCLK is, or an earlier one, applies first. -/
def execVectorBoundary (g : GroupIx) (s : State) : Host.Outcome State Fault Refusal :=
  done s (match s.nextDue g with
    | some b =>
      let s := (s.commitBy b).wpArmedNow g
      match (s.group g).issue with
      | i :: _ => (s.boundary g i b).ochBoundary g b
      | [] => s
    | none => s)

/-! ### Requests (R328, R329) -/

/-- The target registers as the epoch kind reads them (R328). -/
def State.cmTarget (s : State) (kind : Nat) : BitVec 64 :=
  match kind with
  | 1 | 4 => (s.getTime CM_TGT0_TGT0 ⟨CM_TGT1, 23, 0⟩).setWidth 64
  | 2 => BitVec.ofNat 64 (s.get CM_TGT1_TGT1 * 2 ^ 32 + s.get CM_TGT0_TGT0)
  | _ => 0

/-- The request is under way: CHECKING, the staged plane locked. -/
def State.cmStart (s : State) (r : CmReq) : State :=
  let s := ({ s with cm := some r }.set CM_ID_ID r.id.toNat).set CM_STATUS_REASON 0
  (s.cmWhere [] (0, 0)).cmStatus cmChecking 0 0

/-- R329: the case that refuses a request, the lowest of those that hold. -/
def State.cmReason (s : State) (check dom : Bool) (kind : Nat) (tgt : BitVec 64) : Nat :=
  let lead := 1600 * (s.get CM_DOM_VOTEWIN + 100)
  if s.cmBusy then 1
  else if (kind == 4 && !dom) || (dom && !s.isRoot) then 2
  else if s.role = roleShadow then 3
  else if dom && !check && !reached (tgt.setWidth 56) (later s.time lead) then 4
  else 0

/-- R328, R336: a COMMIT or CHECK. -/
def State.cmRequest (s : State) (check : Bool) (v : Word) : State :=
  let dom := fieldOf v 27 27 == 1
  let kind := fieldOf v 26 24
  let tgt := s.cmTarget (if dom then 4 else kind)
  match s.cmReason check dom kind tgt with
  | 0 =>
    let id := BitVec.ofNat 16 (s.get CM_ID_ID + 1)
    let tv := later s.time (usTclk (s.get CM_DOM_VOTEWIN))
    let ta : Time := tgt.setWidth 56
    let domain := dom && !check
    let s := s.cmStart { check := check, phase := cmChecking, kind := if domain then 4 else kind, eng := fieldOf v 20 16, tgt := tgt,
                         origin := if domain then .domain else .host, id := id, at_ := s.time, abort := false, own := false,
                         partner := none, sched := s.time, ta := ta, tv := tv, go := false }
    if domain then
      let b : Ballot := { id := id, tv := tv, members := s.get CL_DOM_STAT_NMEM, own := none, votes := [] }
      ({ s with ballot := some b }).broadcast 1 0 [BitVec.ofNat 72 (id.toNat * 2 ^ 56 + ta.toNat), timeFlit tv]
    else s
  | reason => s.cmRefuse reason

/-- R328: a commit in CHECKING whose own check is complete ends ABORTED; its partner and its domain are told. -/
def State.cmAbortChecked (s : State) (r : CmReq) : State :=
  let s := (if s.inPair ∧ s.role = roleActive ∧ r.own then s.sendLink 3 (.abort r.id) else s).cmAbort
  match s.ballot with
  | some b => if s.isRoot ∧ r.origin = .domain then s.domainAbort b 0 0 else s
  | none => s

/-- R328: ABORT. In the TCLK of the apply it has no effect (R332). -/
def State.cmAbortCmd (s : State) : State :=
  match s.cm with
  | none => s
  | some r =>
    if s.commitDue.isSome then s
    else if r.phase = cmChecking then
      if r.own then s.cmAbortChecked r else { s with cm := some { r with abort := true } }
    else if r.phase = cmPending ∧ r.origin = .host then
      (if s.inPair ∧ s.role = roleActive then s.sendLink 3 (.abort r.id) else s).cmAbort
    else if r.phase = cmVoting ∧ r.origin = .domain ∧ s.isRoot then
      match s.ballot with
      | some b => s.domainAbort b 0 0
      | none => (s.broadcast 3 r.id.toNat []).cmAbort40 0 0
    else s

/-- R328: a write of CM_CMD. -/
def State.writeCmCmd (s : State) (v : Word) : State :=
  match fieldOf v 31 28 with
  | 1 => s.cmRequest false v
  | 2 => s.cmRequest true v
  | 3 => s.cmAbortCmd
  | 4 => if s.cm.isSome then s else { s with staged := [] }
  | _ => s

/-- COMMIT (R328): the word written to CM_CMD, taken with OP = 1. -/
def execCommitOp (v : Word) (s : State) : Host.Outcome State Fault Refusal := hostDone s (s.cmRequest false v)
/-- CHECK (R328): with OP = 2. -/
def execCheckOp (v : Word) (s : State) : Host.Outcome State Fault Refusal := hostDone s (s.cmRequest true v)
/-- ABORT (R328). -/
def execAbortOp (s : State) : Host.Outcome State Fault Refusal := hostDone s s.cmAbortCmd
/-- DISCARD (R325): no effect while locked. -/
def execDiscard (s : State) : Host.Outcome State Fault Refusal :=
  hostDone s (if s.cm.isSome then s else { s with staged := [] })

/-! ### Check and agreement (R330, R335) -/

/-- The request has failed: REJECTED, with a NO to whoever awaits its vote. -/
def State.cmFail (s : State) (r : CmReq) (fails : List (Nat × CkFail)) : State :=
  let code := (fails.headD (39, 0, 0)).1
  let s := s.cmReject fails
  let s := if s.role = roleShadow ∧ r.partner.isSome then s.sendLink 3 (.vote r.id false code s.sdigest)
    else if s.inPair ∧ s.role = roleActive ∧ r.own then s.sendLink 3 (.abort r.id) else s
  if r.origin = .domain then s.ownVote r.id false code else s

/-- The request has passed its own check and its partner's. -/
def State.cmPass (s : State) (r : CmReq) : State :=
  let s := if s.role = roleShadow ∧ r.partner.isSome then s.sendLink 3 (.vote r.id true 0 s.sdigest) else s
  if r.check then s.cmDone.cmStatus cmChecked 0 0
  else
    let wait := fun (s : State) (p : Nat) (ta : Time) =>
      ({ s with cm := some { r with phase := p, sched := s.time, ta := ta } }).cmStatus p 0 0
    match r.origin with
    | .host =>
      let s := if s.inPair ∧ s.role = roleActive then s.sendLink 3 (.apply r.id s.time) else s
      let s := if s.epochLate r.kind r.tgt then s.raise CM_FLAGS_LATE else s
      wait s cmPending r.ta
    | .twin => wait s cmVoting (if r.kind = 1 ∨ r.kind = 4 then r.tgt.setWidth 56 else s.time)
    | .domain => (wait s cmVoting r.ta).ownVote r.id true 0

/-- R335: with the own check passed, the partner's vote decides in a pair. -/
def State.cmAgree (s : State) (r : CmReq) : State :=
  if !s.inPair then s.cmPass r
  else match r.partner with
    | none => { s with cm := some r }
    | some (yes, _, d) =>
      let f38 := if d = s.sdigest then [] else [(38, (0, 0))]
      let f39 := if yes then [] else [(39, (0, 0))]
      match f38 ++ f39 with
      | [] => s.cmPass r
      | fs => s.cmFail r fs

/-- R330: the checks and the staged digest of the request finish. -/
def State.cmChecked (s : State) : State :=
  match s.cm with
  | none => s
  | some r =>
    if r.own || r.phase != cmChecking then s
    else
      let s := { s with dg := { s.dg with staged := some s.stagedPlane } }
      let fails := s.ckAll ++ (if s.role = roleShadow then match r.partner with
        | some (_, _, d) => if d = s.sdigest then [] else [(38, (0, 0))]
        | none => [] else [])
      if r.abort then s.cmAbortChecked r
      else match fails with
        | [] =>
          let r := { r with own := true }
          let s := if s.inPair ∧ s.role = roleActive then s.sendLink 3 (.prepare r.id r.check r.kind r.eng r.tgt s.sdigest) else s
          s.cmAgree r
        | fs => s.cmFail r fs

/-- COMMIT_CHECK_COMPLETE (R330). -/
def execCommitCheckComplete (s : State) : Host.Outcome State Fault Refusal := done s s.cmChecked

/-- R335: PREPARE reaches the SHADOW. In a domain commit it stands for the ACTIVE member's vote. -/
def State.twinPrepare (s : State) (id : BitVec 16) (chk : Bool) (kind eng : Nat) (tgt digest : BitVec 64) : State :=
  if s.role ≠ roleShadow then s
  else match s.cm with
    | some r =>
      if r.origin = .domain ∧ r.phase = cmChecking then
        let r := { r with partner := some (true, 0, digest) }
        if r.own then s.cmAgree r else { s with cm := some r }
      else s.sendLink 3 (.vote id false 0 s.sdigest)
    | none =>
      if s.cmBusy then s.sendLink 3 (.vote id false 0 s.sdigest)
      else s.cmStart { check := chk, phase := cmChecking, kind := kind, eng := eng, tgt := tgt, origin := .twin, id := id, at_ := s.time,
                       abort := false, own := false, partner := some (true, 0, digest), sched := s.time, ta := 0, tv := 0, go := false }

/-- TWIN_PREPARE_RECEIVE (R335). -/
def execTwinPrepareReceive (id : BitVec 16) (chk : Bool) (kind : BitVec 3) (eng : EngineIx) (tgt digest : BitVec 64) (s : State) :
    Host.Outcome State Fault Refusal :=
  done s (s.twinPrepare id chk kind.toNat eng tgt digest)

/-- R335: the partner's vote. -/
def State.twinVote (s : State) (id : BitVec 16) (yes : Bool) (code : Nat) (digest : BitVec 64) : State :=
  match s.cm with
  | some r =>
    if s.role = roleActive ∧ r.id = id ∧ r.phase = cmChecking ∧ r.own then
      s.cmAgree { r with partner := some (yes, code, digest) }
    else s
  | none => s

/-- TWIN_VOTE_RECEIVE (R335). -/
def execTwinVoteReceive (id : BitVec 16) (yes : Bool) (code : BitVec 6) (digest : BitVec 64) (s : State) :
    Host.Outcome State Fault Refusal :=
  done s (s.twinVote id yes code.toNat digest)

/-- R334: no vote of the partner within 40 µs of the request. -/
def State.twinVoteLate (s : State) : State :=
  match s.cm with
  | some r =>
    if r.phase == cmChecking && r.own && r.partner.isNone && reached s.time (later r.at_ (usTclk 40)) then
      s.cmFail r [(39, (0, 0))]
    else s
  | none => s

/-- TWIN_VOTE_TIMEOUT (R334). -/
def execTwinVoteTimeout (s : State) : Host.Outcome State Fault Refusal := done s s.twinVoteLate

/-- R335: APPLY or ABORT reaches the SHADOW; both members await the epoch from the same TCLK. -/
def State.twinApply (s : State) (id : BitVec 16) (apply : Bool) (t : Time) : State :=
  match s.cm with
  | some r =>
    if r.origin = .twin ∧ r.id = id ∧ apply ∧ r.phase = cmVoting then
      let s := if s.epochLate r.kind r.tgt then s.raise CM_FLAGS_LATE else s
      ({ s with cm := some { r with phase := cmPending, sched := t } }).cmStatus cmPending 0 0
    else if r.origin = .twin ∧ r.id = id ∧ !apply then s.cmAbort
    else s.cmStray
  | none => s.cmStray

/-- TWIN_APPLY_RECEIVE (R335). -/
def execTwinApplyReceive (id : BitVec 16) (apply : Bool) (t : Time) (s : State) : Host.Outcome State Fault Refusal :=
  done s (s.twinApply id apply t)

/-! ### Domain commits (R336 to R339) -/

/-- R336: PREPARE reaches a member. A busy device votes NO with SUB 63. -/
def State.domainPrepare (s : State) (id : BitVec 16) (ta tv : Time) : State :=
  if s.isRoot || !s.isMember then s
  else
    let b : Ballot := { id := id, tv := tv, members := 0, own := none, votes := [] }
    if s.cmBusy then { s with ballot := some b }.ownVote id false 63
    else
      let s := s.cmStart { check := false, phase := cmChecking, kind := 4, eng := 0, tgt := ta.setWidth 64, origin := .domain, id := id,
                           at_ := s.time, abort := false, own := false, partner := none, sched := s.time, ta := ta, tv := tv, go := false }
      { s with ballot := some b }

/-- DOMAIN_PREPARE_RECEIVE (R336). -/
def execDomainPrepareReceive (id : BitVec 16) (ta tv : Time) (s : State) : Host.Outcome State Fault Refusal :=
  done s (s.domainPrepare id ta tv)

/-- R336: a vote arrives from downstream. -/
def State.domainVote (s : State) (id : BitVec 16) (yes : Bool) (dev code count : Nat) : State :=
  match s.ballot with
  | some b => if b.id = id then ({ s with ballot := some { b with votes := b.votes ++ [(yes, dev, code, count)] } }).tally else s
  | none => s

/-- DOMAIN_VOTE_RECEIVE (R336, R371). -/
def execDomainVoteReceive (id : BitVec 16) (yes : Bool) (dev : BitVec 10) (code : BitVec 6) (count : Nat) (s : State) :
    Host.Outcome State Fault Refusal :=
  done s (s.domainVote id yes dev.toNat code.toNat count)

/-- VOTE_WINDOW_EXPIRE (R336): TIME has reached Tv. -/
def execVoteWindowExpire (s : State) : Host.Outcome State Fault Refusal :=
  done s (match s.ballot with
    | some b => if reached s.time b.tv then s.tally else s
    | none => s)

/-- R337: APPLY reaches a voting device: at Ta, or on arrival when Ta has passed; in the TCLK of Ta it is not late (log entry
139). -/
def State.domainApplied (s : State) (id : BitVec 16) : State :=
  match s.cm with
  | some r =>
    if r.origin = .domain ∧ r.id = id ∧ r.phase = cmVoting then
      if reached s.time r.ta ∧ s.time ≠ r.ta then s.applyCommit s.time true else { s with cm := some { r with go := true } }
    else s.cmStray
  | none => s.cmStray

/-- DOMAIN_APPLY_RECEIVE (R337). -/
def execDomainApplyReceive (id : BitVec 16) (s : State) : Host.Outcome State Fault Refusal := done s (s.domainApplied id)

/-- R337: ABORT reaches a device. One that voted NO records nothing further. -/
def State.domainAborted (s : State) (id : BitVec 16) (dev code : Nat) : State :=
  match s.cm with
  | some r =>
    if r.origin = .domain ∧ r.id = id ∧ r.phase = cmVoting then s.cmAbort40 dev code
    else if s.cl.votedNo = some id then s
    else s.cmStray
  | none => if s.cl.votedNo = some id then s else s.cmStray

/-- DOMAIN_ABORT_RECEIVE (R337, R339). -/
def execDomainAbortReceive (id : BitVec 16) (dev : BitVec 10) (code : BitVec 6) (s : State) : Host.Outcome State Fault Refusal :=
  done s (s.domainAborted id dev.toNat code.toNat)

/-- R339: neither APPLY nor ABORT has come by Ta + GRACE. -/
def State.orphan (s : State) : State :=
  match s.cm with
  | some r =>
    if r.phase == cmVoting && !r.go && reached s.time (later r.ta (usTclk (s.get CM_DOM_GRACE))) then
      (s.cmDone.cmStatus cmOrphaned 0 0).flag CM_FLAGS_ORPHAN CM_CNT2_ORPHAN
    else s
  | none => s

/-- COMMIT_ORPHAN (R339). -/
def execCommitOrphan (s : State) : Host.Outcome State Fault Refusal := done s s.orphan

end Sys2Proof.Machine
end

