-- ==== Sys2Proof/Machine/TimeStep.lean ====
section
/-! DEFINITION. The step of TIME under domain alignment (R368, R461): the generators, the grid of the channel dies and every
interval under way go on from the new TIME; targets, stamps and recorded TIMEs stand. -/

namespace Sys2Proof.Machine

/-- A mark from which an interval runs moves with TIME, by d TCLK. -/
def moved (d : Time) (t : Option Time) : Option Time := t.map (· + d)

/-- A generator tick moves by d TCLK. -/
def movedTick (d : Time) (b : Tick) : Tick := b + (d.setWidth 66) * 1024

/-- R461: a slew step falls on the same number of die ticks after the step of TIME as it was to fall before it. -/
def movedSlew (now d t : Time) : Time := nthDieTick (now + d) (dieTicksUpTo t.toNat - dieTicksUpTo now.toNat)

def Dac.move (x : Dac) (now d : Time) : Dac := { x with slew := x.slew.map (movedSlew now d), hold := moved d x.hold }

def VecRun.move (v : VecRun) (d : Time) : VecRun := { v with b := movedTick d v.b }

def Win.move (w : Win) (d : Time) : Win :=
  { w with start := movedTick d w.start, stop := movedTick d w.stop, zero := movedTick d w.zero }

/-- Ticks in a list of pairs. -/
def movedEdges (d : Time) (l : List (Tick × Lane)) : List (Tick × Lane) := l.map fun e => (movedTick d e.1, e.2)

def Chan.move (c : Chan) (now d : Time) : Chan :=
  { c with
    lastEdge := c.lastEdge.map (movedTick d), edges := movedEdges d c.edges, sent := movedEdges d c.sent
    wins := c.wins.map (·.move d)
    tdc := { c.tdc with lastStop := c.tdc.lastStop.map (movedTick d), lastWin := c.tdc.lastWin.map (movedTick d),
                        passAt := c.tdc.passAt + d }
    parkLog := c.parkLog.map fun e => (e.1 + d, e.2)
    dacs := c.dacs.map (·.move now d)
    lastOut := moved d c.lastOut, rangePend := c.rangePend.map fun r => (r.1 + d, r.2), parkEnd := moved d c.parkEnd
    cmp := { c.cmp with thrChange := moved d c.cmp.thrChange,
                        log := c.cmp.log.map fun e => { e with at_ := movedTick d e.at_ } } }

def Interval.move (x : Interval) (d : Time) : Interval := { x with stop := movedTick d x.stop }

def Group.move (x : Group) (now d : Time) : Group :=
  { x with
    chans := x.chans.map (·.move now d)
    issue := x.issue.map fun i => { i with startAt := i.startAt.map (movedTick d) }
    begun := x.begun.map (·.move d), nextB := movedTick d x.nextB
    lselPend := x.lselPend.map fun r => (r.1, r.2 + d), lsPend := x.lsPend.map fun r => (moved d r.1, r.2)
    cpPend := x.cpPend.map fun r => (r.1 + d, r.2), ochreWait := x.ochreWait.map (moved d)
    dsk := x.dsk.map fun k => { k with start := k.start + d, driveAt := k.driveAt + d }
    tdr := x.tdr.map fun r => { r with start := r.start + d }
    adcBusy := x.adcBusy.map fun a => a.map fun q => (q.1, q.2 + d)
    outq := x.outq.map fun v => { v with b := movedTick d v.b }
    ivs := x.ivs.map (·.move d)
    cap := { x.cap with thr := x.cap.thr.map (movedTick d) }
    wp := { x.wp with due := x.wp.due.map fun r => (r.1 + d, r.2), lastIssue := moved d x.wp.lastIssue,
                      flight := x.wp.flight.map fun r => (r.1 + d, r.2) }
    sumB := x.sumB.map (movedTick d), trips := x.trips.map fun r => (r.1 + d, r.2)
    obs := x.obs.map fun o => { o with stop := movedTick d o.stop, b := movedTick d o.b }
    gates := x.gates.map fun r => { r with start := r.start + d }
    noen := x.noen.map (movedTick d), scStart := moved d x.scStart
    sc := x.sc.map fun r => { r with at_ := r.at_ + d } }

/-- The timeout of WAITEV is an interval; the targets of the other waits are TIMEs (R277 to R280). -/
def WaitKind.move (d : Time) : WaitKind → WaitKind
  | .event m t => .event m (moved d t)
  | .angle a => .angle a
  | .phase p => .phase p
  | .time t => .time t
  | .barrier b => .barrier b
  | .swc c => .swc c

def Engine.move (x : Engine) (d : Time) : Engine :=
  { x with
    nextAt := x.nextAt + d, slotB := movedTick d x.slotB, halting := moved d x.halting
    eligAt := x.eligAt.map fun l => l.map fun r => (r.1 + d, r.2)
    waits := x.waits.map fun w => w.map fun w =>
      { w with kind := w.kind.move d, since := w.since + d, released := moved d w.released }
    arrived := x.arrived.map (moved d) }

/-- R368: TIME steps by d TCLK. -/
def State.stepTime (s : State) (d : Time) : State :=
  { s with
    time := s.time + d
    groups := s.groups.map (·.move s.time d), engines := s.engines.map (·.move d)
    tp := { s.tp with tbLast := moved d s.tp.tbLast, tbGood := moved d s.tp.tbGood, lastCount := s.tp.lastCount + d,
                      steady := s.tp.steady.map fun r => (r.1 + d, r.2), lastSample := s.tp.lastSample + d }
    hi := { s.hi with perstRise := s.hi.perstRise + d }
    cl := { s.cl with ports := s.cl.ports.map fun p =>
                        { p with retry := p.retry.map fun r => (r.1, r.2.1, r.2.2 + d), tryAt := p.tryAt + d, downAt := p.downAt + d },
                      rraAt := s.cl.rraAt + d, taNext := s.cl.taNext.map (· + d) }
    tw := { s.tw with lastHb := moved d s.tw.lastHb, attachAt := moved d s.tw.attachAt }
    sys := { s.sys with smNext := moved d s.sys.smNext, nvKey := moved d s.sys.nvKey, nvLast := s.sys.nvLast + d,
                        ledgerAt := s.sys.ledgerAt + d, calLast := s.sys.calLast + d }
    dg := { s.dg with reportAt := s.dg.reportAt + d }
    trigOut := s.trigOut.map fun l => l.map fun r => (r.1 + d, r.2 + d) }

end Sys2Proof.Machine
end

