-- ==== Sys2Proof/Machine/Cleif.lean ====
section
/-! DEFINITION. Chapter 13: Cleif: ports, blocks and re-sends, domain membership, remote access at the requester, the
alignment of TIME. Packets that reach this device are consumed in Delivery. -/

namespace Sys2Proof.Machine

/-! ### Ports (R352, R355, R387) -/

def portDown : Nat := 0
def portTraining : Nat := 1
def portUpState : Nat := 2
def portRetrain : Nat := 3
def portDisabled : Nat := 4

def State.portState (s : State) (x : Nat) : Nat := s.get (CL_P_STAT_STATE x)

/-- One millisecond in TCLK. -/
def msTclk (n : Nat) : Nat := usTclk (1000 * n)

/-- The packets in a run of flits (R357). -/
def packetsOf : Nat → List Native → List Packet
  | 0, _ => []
  | _, [] => []
  | n + 1, h :: rest =>
    let p : Packet := { header := h, payload := rest.take (nbits h 47 45) }
    if p.type = 0 then packetsOf n rest else p :: packetsOf n (rest.drop (nbits h 47 45))

/-- The eight flits of a block (R353). -/
def flitsOf (b : BitVec 576) : List Native := (List.range 8).map fun j => BitVec.ofNat 72 (b.toNat / 2 ^ (72 * j))

def blockPackets (b : BitVec 576) : List Packet := packetsOf 8 (flitsOf b)

/-! ### Members (R361 to R364) -/

def domNone : Nat := 0
def domAligning : Nat := 1
def domJoining : Nat := 2
def domMember : Nat := 3
def domRoot : Nat := 4
def domRefused : Nat := 5
def domLeft : Nat := 6

def State.domState (s : State) : Nat := s.get CL_DOM_STAT_STATE

/-- R387: bit d of CL_MEMw. -/
def State.memberBit (s : State) (d : Nat) : Bool := s.bit (CL_MEM_MEM (d / 32)) (d % 32)

/-- R362, R364: the root's member list and count. -/
def State.putMember (s : State) (d : Nat) (is : Bool) : State :=
  if s.memberBit d = is then s
  else
    (s.setBit (CL_MEM_MEM (d / 32)) (d % 32) is).set CL_DOM_STAT_NMEM
      (if is then s.get CL_DOM_STAT_NMEM + 1 else s.get CL_DOM_STAT_NMEM - 1)

/-- R364: PRUNE reaches the root. -/
def State.pruned (s : State) (d : Nat) : State :=
  if s.memberBit d then (s.putMember d false).flag CL_FLAGS_MEMLOST CL_CNT1_MEMLOST else s

/-- PRUNE_RECEIVE (R364). -/
def execPruneReceive (dev : BitVec 10) (s : State) : Host.Outcome State Fault Refusal := doneIf s.isRoot s (s.pruned dev.toNat)

/-- R363, R364: the routes through a port end; each device behind it is pruned. -/
def State.dropRoutes (s : State) (x : Nat) : State :=
  let ds := (s.cl.routes.filter fun r => r.2 == x).map (·.1)
  let s := { s with cl := { s.cl with routes := s.cl.routes.filter fun r => r.2 != x } }
  if s.isRoot then s.forEach ds State.pruned
  else if s.isMember then s.forEach ds fun s d => s.sendUp 4 d []
  else s

/-- The states of R368. -/
def taFree : Nat := 0
def taStep : Nat := 1
def taTrack : Nat := 2
def taAligned : Nat := 3
def taHoldover : Nat := 4

def State.taState (s : State) : Nat := s.get CL_TA_STAT_STATE

/-- The sums of the mean in progress start again. -/
def State.taRestart (s : State) : State :=
  { s with cl := { s.cl with taN := 0, taOfs := 0, taDly := 0, taGood := 0, t2 := none, t3 := none } }

/-- R382: the T port leaves UP before Ts: a swap is cancelled. -/
def State.swapCancel (s : State) (x : Nat) : State :=
  match s.tw.swapAt with
  | some (ts, _) => if x = 3 ∧ !reached s.time ts then { s with tw := { s.tw with swapAt := none } } else s
  | none => s

/-- R352, R355, R364: a port leaves UP or its training fails: its retry buffer is discarded and counted, both ends
start from SEQ 0, its routes are cleared. -/
def State.portGoesDown (s : State) (x st : Nat) : State :=
  let p := s.port x
  let lost := ((p.retry.flatMap fun r => blockPackets r.2.1)).length
  let was := s.portState x
  let p := { p with seq := 0, expect := 0, nak := false, retry := [], resend := none, fails := 0, keep := false,
                    downAt := if was = portUpState then s.time else p.downAt }
  let s := (((s.setPort x p).count (CL_P_DROP_DROP x) lost).set (CL_P_STAT_STATE x) st).set (CL_P_STAT_LOCK x) 0
  let s := ((s.set (CL_P_STAT_WIDTH x) 0).set (CL_P_STAT_NBRV x) 0).swapCancel x
  let s := if x = 0 ∧ s.taState = taAligned then s.set CL_TA_STAT_STATE taHoldover else s
  let s := if was = portUpState ∨ was = portRetrain then s.crossingEnters (x + 1) else s
  if x = 1 ∨ x = 2 then s.dropRoutes x else s

/-- R352: the width field of the widest width whose lanes have locked. -/
def widthOf (x : Nat) (lock : BitVec 4) : Nat :=
  if x ≠ 3 ∧ lock = 15 then 3
  else if lock.getLsbD 0 && lock.getLsbD 1 then 2
  else if lock.getLsbD 0 then 1
  else 0

/-- R355: a re-send of the buffered blocks from a sequence number. -/
def State.resendFrom (s : State) (x seq : Nat) : State :=
  if (s.port x).retry.isEmpty then s
  else (s.setPort x { s.port x with resend := some seq }).count (CL_P_ERR_RESEND x) 1

/-- SEQ of the oldest unacknowledged block. -/
def Port.oldest (p : Port) : Nat := match p.retry with
  | r :: _ => r.1
  | [] => p.seq

/-- R362: a device with JOIN aligns while port A is UP; after a new UP of port A a refused one tries again. -/
def State.tryJoin (s : State) : State :=
  if s.on CL_DOM_CTL_JOIN && !s.isRoot && s.portUp 0 && [domNone, domRefused, domLeft].contains s.domState then
    let s := if s.domState = domLeft then s.taRestart.set CL_TA_STAT_STATE taFree else s
    s.set CL_DOM_STAT_STATE domAligning
  else s

/-- R352: the port comes UP. After a retraining the numbers go on and nothing is lost (R355). -/
def State.portComesUp (s : State) (x w nbr : Nat) : State :=
  let keep := (s.port x).keep
  let s := s.setPort x { s.port x with keep := false, fails := 0 }
  let s := (((s.set (CL_P_STAT_STATE x) portUpState).set (CL_P_STAT_WIDTH x) w).set (CL_P_STAT_NBRV x) 1).set (CL_P_STAT_NBR x) nbr
  let s := if keep then s.resendFrom x (s.port x).oldest else s
  if x = 0 then
    let s := if s.taState = taHoldover then s.taRestart.set CL_TA_STAT_STATE (if s.isMember then taTrack else taFree) else s
    s.tryJoin
  else s

/-- R361: the root holds its port A DOWN. R460: boundary scan takes the transmitters. -/
def State.mayTrain (s : State) (x : Nat) : Bool := s.on (CL_P_CTL_EN x) && !(x == 0 && s.isRoot) && !s.sys.tap.drives

/-- The lanes of a port (R351). -/
def lanesOf (x : Nat) : Nat := if x = 3 then 2 else 4

/-- PORT_TRAIN (R352): an enabled port that sees signal; `lock` are the lanes that have locked. -/
def execPortTrain (x : Fin 4) (lock : BitVec 4) (nbr : BitVec 10) (s : State) : Host.Outcome State Fault Refusal :=
  doneIf (s.mayTrain x && [portDown, portTraining, portRetrain].contains (s.portState x)) s
    (let s := if s.portState x = portDown then
        (s.setPort x { s.port x with tryAt := s.time }).set (CL_P_STAT_STATE x) portTraining
      else s
    let s := s.set (CL_P_STAT_LOCK x) (lock.toNat % 2 ^ lanesOf x)
    if widthOf x lock = 0 then s else s.portComesUp x (widthOf x lock) nbr.toNat)

/-- The attempt has lasted 1 ms. -/
def State.tryOver (s : State) (x : Nat) : Bool := reached s.time (later (s.port x).tryAt (msTclk 1))

/-- PORT_TRAIN_TIMEOUT (R352). -/
def execPortTrainTimeout (x : Fin 4) (s : State) : Host.Outcome State Fault Refusal :=
  doneIf (s.portState x == portTraining && s.tryOver x) s
    (((s.setPort x { s.port x with tryAt := s.time }).set (CL_P_STAT_STATE x) portDown).set (CL_P_STAT_LOCK x) 0)

/-- RETRAIN_TIMEOUT (R355). -/
def execRetrainTimeout (x : Fin 4) (s : State) : Host.Outcome State Fault Refusal :=
  doneIf (s.portState x == portRetrain && s.tryOver x) s
    ((s.portGoesDown x portDown).count (CL_P_TRAIN_DOWN x) 1)

/-- R352: a write of CL_Px_CTL. -/
def State.writePortCtl (s : State) (x : Nat) (v : Word) : State :=
  let s := s.set (CL_P_CTL_ASYM x) (fieldOf v 31 16)
  let en := fieldOf v 0 0
  if en = 0 then (s.portGoesDown x portDisabled).set (CL_P_CTL_EN x) 0
  else
    let s := s.set (CL_P_CTL_EN x) 1
    if s.portState x = portDisabled then s.set (CL_P_STAT_STATE x) portDown else s

/-! ### Blocks (R353 to R355) -/

/-- R353: a block from its flits, SEQ, KIND, ACK and NAK. -/
def blockOf (flits : BitVec 576) (seq kind ack : Nat) (nak : Bool) : BitVec 640 :=
  let n := flits.toNat + seq * 2 ^ 576 + kind * 2 ^ 590 + ack * 2 ^ 592 + (if nak then 2 ^ 606 else 0)
  BitVec.ofNat 640 (n + (crc32c (bytesOf n 76)).toNat * 2 ^ 608)

/-- Bits hi to lo of a block. -/
def blockBits (b : BitVec 640) (hi lo : Nat) : Nat := b.toNat / 2 ^ lo % 2 ^ (hi + 1 - lo)

def blockGood (b : BitVec 640) : Bool :=
  decide ((crc32c (bytesOf (b.toNat % 2 ^ 608) 76)).toNat = blockBits b 639 608)

/-- Packets from the head of a queue that fit in eight flits, and the rest (R357). -/
def packBlock : List Packet → Nat → List Packet × List Packet
  | [], _ => ([], [])
  | p :: ps, room =>
    if p.flits ≤ room then
      let r := packBlock ps (room - p.flits)
      (p :: r.1, r.2)
    else ([], p :: ps)

/-- The flits of packets, padded with NULL. -/
def flitWord (l : List Packet) : BitVec 576 :=
  BitVec.ofNat 576 ((l.flatMap fun p => p.header :: p.payload).foldr (fun w n => n * 2 ^ 72 + w.toNat) 0)

/-- The next sequence number (R353). -/
def nextSeq (n : Nat) : Nat := (n + 1) % 16384

/-- R354: ACK is the SEQ of the last DATA block received in order. -/
def Port.ack (p : Port) : Nat := (p.expect + 16383) % 16384

/-- R354, R355: the next block of a port: a re-send, a DATA block, or EMPTY. -/
def State.blockSend (s : State) (x : Nat) : State :=
  let p := s.port x
  let out := fun (s : State) (f : BitVec 576) (seq kind : Nat) => s.emit (.block x (blockOf f seq kind p.ack p.nak))
  match p.resend.bind fun q => p.retry.find? fun r => r.1 == q with
  | some r =>
    let n := nextSeq r.1
    let more := p.retry.any fun q => q.1 == n
    let retry := p.retry.map fun q => if q.1 == r.1 then (q.1, q.2.1, s.time) else q
    out (s.setPort x { p with resend := if more then some n else none, retry := retry }) r.2.1 r.1 0
  | none =>
    match packBlock p.queue 8 with
    | (l, rest) =>
      if l.isEmpty || decide (64 ≤ p.retry.length) then out (s.setPort x { p with resend := none }) 0 p.seq 1
      else
        let f := flitWord l
        out (s.setPort x { p with resend := none, queue := rest, seq := nextSeq p.seq, retry := p.retry ++ [(p.seq, f, s.time)] }) f p.seq 0

/-- BLOCK_SEND (R354). -/
def execBlockSend (x : Fin 4) (s : State) : Host.Outcome State Fault Refusal := doneIf (s.portUp x) s (s.blockSend x)

/-- R355: a port retrains, keeping its numbers. -/
def State.portRetrains (s : State) (x : Nat) : State :=
  (((s.setPort x { s.port x with fails := 0, keep := true, tryAt := s.time, downAt := s.time, resend := none }).set
    (CL_P_STAT_STATE x) portRetrain).count (CL_P_TRAIN_RETRAIN x) 1).swapCancel x

/-- R355: a failure; at the sixteenth in a row the port retrains. -/
def State.linkFailure (s : State) (x : Nat) : State :=
  let n := (s.port x).fails + 1
  if n < 16 then s.setPort x { s.port x with fails := n } else s.portRetrains x

/-- RESEND_TIMEOUT (R355). -/
def execResendTimeout (x : Fin 4) (s : State) : Host.Outcome State Fault Refusal :=
  done s (match (s.port x).retry with
    | r :: _ =>
      if s.portUp x && reached s.time (later r.2.2 (usTclk 2)) then
        (((s.setPort x { s.port x with retry := (r.1, r.2.1, s.time) :: (s.port x).retry.tail }).resendFrom x r.1)).linkFailure x
      else s
    | [] => s)

/-- R354, R355: the ACK and NAK of a good block. -/
def State.blockAck (s : State) (x ack : Nat) (nak : Bool) : State :=
  let covered := fun (q : Nat) => decide ((ack + 16384 - q) % 16384 < 8192)
  let s := s.setPort x { s.port x with retry := (s.port x).retry.filter fun r => !covered r.1,
                                       resend := (s.port x).resend.map fun q => if covered q then nextSeq ack else q }
  if nak && !(s.port x).retry.isEmpty then (s.resendFrom x (nextSeq ack)).linkFailure x else s

/-- R354: what a received block does to the port; the packets it delivers. -/
def State.blockArrives (s : State) (x : Nat) (b : BitVec 640) : State × List Packet :=
  if !blockGood b then
    (((s.setPort x { s.port x with nak := true }).count (CL_P_ERR_CRCERR x) 1).linkFailure x, [])
  else
    let s := s.setPort x { s.port x with fails := 0 }
    let s := s.blockAck x (blockBits b 605 592) (blockBits b 606 606 == 1)
    let ahead := (blockBits b 589 576 + 16384 - (s.port x).expect) % 16384
    if blockBits b 591 590 ≠ 0 then (s, [])
    else if ahead = 0 then
      (s.setPort x { s.port x with expect := nextSeq (s.port x).expect, nak := false }, blockPackets (BitVec.ofNat 576 b.toNat))
    else if ahead < 8192 then (s.setPort x { s.port x with nak := true }, [])
    else (s, [])

/-! ### Joining and leaving (R362 to R364) -/

/-- JOIN (R362): a device whose alignment is ALIGNED asks the root; `depth` is its distance from the root. -/
def execJoinOp (depth : BitVec 4) (s : State) : Host.Outcome State Fault Refusal :=
  doneIf (s.on CL_DOM_CTL_JOIN && s.domState == domAligning && s.taState == taAligned && s.portUp 0) s
    (((s.set CL_DOM_STAT_STATE domJoining).set CL_DOM_STAT_DEPTH depth.toNat).sendUp 3 depth.toNat [])

/-- R362: the reason against a member, the lowest; 0 for none. -/
def State.joinReason (s : State) (d depth : Nat) : Nat :=
  if s.memberBit d then 1 else if 1024 ≤ s.get CL_DOM_STAT_NMEM then 2 else if 10 < depth then 3 else 0

/-- R362: JOIN reaches the root. -/
def State.joinReceived (s : State) (d depth : Nat) : State :=
  match s.joinReason d depth with
  | 0 => (s.putMember d true).routePacket (Packet.make 6 d 0 0 0 [])
  | r =>
    let s := if r = 1 then s.flag CL_FLAGS_DUPNUM CL_CNT1_DUPNUM else s
    s.routePacket (Packet.make 6 d 0 1 r [])

/-- R363: a route is learned from an UP packet. -/
def State.learnRoute (s : State) (d x : Nat) : State :=
  if x = 1 ∨ x = 2 then
    let below := s.cl.routes.filter fun (r : Nat × Nat) => decide (r.1 < d)
    let above := s.cl.routes.filter fun (r : Nat × Nat) => decide (d < r.1)
    { s with cl := { s.cl with routes := below ++ (d, x) :: above } }
  else s

/-- JOIN_RECEIVE (R362): on the root, from port x. -/
def execJoinReceive (dev : BitVec 10) (depth : BitVec 4) (x : Fin 4) (s : State) : Host.Outcome State Fault Refusal :=
  doneIf s.isRoot s ((s.learnRoute dev.toNat x).joinReceived dev.toNat depth.toNat)

/-- R362: JOINACK or JOINNAK reaches a joining device. -/
def State.joinReplied (s : State) (ok : Bool) : State :=
  if s.domState ≠ domJoining then s
  else if ok then
    let s := (s.set CL_DOM_STAT_STATE domMember).set CL_DEVNUM_MEMBER 1
    ({ s with dg := { s.dg with owed := true } }).forEach (List.range 8) State.barrierSelf
  else (s.set CL_DOM_STAT_STATE domRefused).flag CL_FLAGS_JOINREF CL_CNT0_JOINREF

/-- JOIN_REPLY_RECEIVE (R362). -/
def execJoinReplyReceive (ok : Bool) (_reason : BitVec 4) (s : State) : Host.Outcome State Fault Refusal :=
  done s (s.joinReplied ok)

/-- R362: CL_DOM_CMD.REJOIN. -/
def State.rejoin (s : State) : State := if s.domState = domRefused then s.tryJoin else s

/-- REJOIN (R362). -/
def execRejoin (s : State) : Host.Outcome State Fault Refusal := hostDone s s.rejoin

/-- R371: CL_DOM_CMD.DRESET, on the root only. -/
def State.dreset (s : State) : State := if s.isRoot then (s.broadcast 8 0 []).resetAllEngines else s

/-- DRESET (R371). -/
def execDreset (s : State) : Host.Outcome State Fault Refusal := hostDone s s.dreset

/-- R359: DRESET reaches a member. -/
def State.dresetReceived (s : State) : State := if s.isMember && !s.isRoot then s.resetAllEngines else s

/-- DRESET_RECEIVE (R359). -/
def execDresetReceive (s : State) : Host.Outcome State Fault Refusal := done s s.dresetReceived

/-- A write of CL_DOM_CMD. -/
def State.writeDomCmd (s : State) (v : Word) : State :=
  match fieldOf v 31 28 with
  | 1 => s.dreset
  | 2 => s.rejoin
  | _ => s

/-- R364: a member leaves the domain. -/
def State.leave (s : State) : State :=
  if s.isMember && !s.isRoot then
    let s := ((s.set CL_DOM_STAT_STATE domLeft).set CL_DEVNUM_MEMBER 0).flag CL_FLAGS_LEFT CL_CNT0_LEFT
    (s.set CL_TA_STAT_STATE taHoldover).broadcast 9 0 []
  else s

/-- LEAVE_TIMEOUT (R364). -/
def execLeaveTimeout (s : State) : Host.Outcome State Fault Refusal :=
  doneIf (!s.portUp 0 && decide (usTclk (s.get CL_DOM_CTL_LEAVE) ≤ s.since (s.port 0).downAt)) s s.leave

/-- LEAVE_RECEIVE (R364). -/
def execLeaveReceive (s : State) : Host.Outcome State Fault Refusal := done s s.leave

/-- R361, R387: a write of CL_DOM_CTL. -/
def State.writeDomCtl (s : State) (v : Word) : State :=
  let was := s.isRoot
  let root := fieldOf v 31 31
  let join := fieldOf v 30 30
  let s := ((s.setClamped CL_DOM_CTL_LEAVE (fieldOf v 15 0) 1 65535).set CL_DOM_CTL_ROOT root).set CL_DOM_CTL_JOIN join
  if root = 1 ∧ !was then
    let s := s.portGoesDown 0 (if s.on (CL_P_CTL_EN 0) then portDown else portDisabled)
    (((s.set CL_DOM_STAT_STATE domRoot).set CL_DOM_STAT_DEPTH 0).set CL_DEVNUM_MEMBER 1).putMember 0 true
  else if root = 0 ∧ was then
    let s := (s.forEach (List.range 32) fun s w => s.set (CL_MEM_MEM w) 0).set CL_DOM_STAT_NMEM 0
    ((s.set CL_DOM_STAT_STATE domNone).set CL_DEVNUM_MEMBER 0).tryJoin
  else if join = 0 ∧ [domAligning, domJoining, domRefused].contains s.domState then
    (s.set CL_DOM_STAT_STATE domNone).set CL_TA_STAT_STATE taFree
  else s.tryJoin

/-- R361: a write of CL_DEVNUM, without effect on a member. -/
def State.writeDevnum (s : State) (v : Word) : State := if s.isMember then s else s.set CL_DEVNUM_NUM (fieldOf v 9 0)

/-! ### Remote access at the requester (R366) -/

def rraIdle : Nat := 0
def rraBusy : Nat := 1
def rraDone : Nat := 2
def rraTimeout : Nat := 3
def rraNoRoute : Nat := 4

/-- The fields of CL_RRA_CMD that a write holds. -/
def State.rraFields (s : State) (v : Word) : State :=
  ((s.set CL_RRA_CMD_WRITE (fieldOf v 30 30)).set CL_RRA_CMD_DEV (fieldOf v 25 16)).setClamped CL_RRA_CMD_TMO (fieldOf v 15 0) 1 65535

/-- R366: the request leaves for another device, or ends NOROUTE. -/
def State.rraSend (s : State) : State :=
  if !s.isRoot && !s.isMember then s.set CL_RRA_STAT_STATE rraNoRoute
  else
    let tag := (s.cl.rraTag + 1) % 128
    let w := s.get CL_RRA_CMD_WRITE
    let s := ({ s with cl := { s.cl with rraTag := tag, rraAt := s.time } }).set CL_RRA_STAT_STATE rraBusy
    s.routePacket (Packet.make 1 (s.get CL_RRA_CMD_DEV) s.devNum 0 (w * 2 ^ 39 + tag * 2 ^ 32 + s.get CL_RRA_ADDR_ADDR)
      (if w = 1 then [BitVec.ofNat 72 (s.get CL_RRA_DATA_DATA)] else []))

/-- R366: a response; one that is not awaited is discarded. -/
def State.rraResponse (s : State) (tag : Nat) (v : Word) : State :=
  if s.get CL_RRA_STAT_STATE = rraBusy ∧ tag = s.cl.rraTag then
    let s := if s.on CL_RRA_CMD_WRITE then s else s.set CL_RRA_DATA_DATA v.toNat
    s.set CL_RRA_STAT_STATE rraDone
  else s

/-- RRA_RESPONSE (R366). -/
def execRraResponse (tag : BitVec 7) (v : Word) (s : State) : Host.Outcome State Fault Refusal :=
  done s (s.rraResponse tag.toNat v)

/-- RRA_TIMEOUT (R366). -/
def execRraTimeout (s : State) : Host.Outcome State Fault Refusal :=
  doneIf (s.get CL_RRA_STAT_STATE == rraBusy && decide (usTclk (s.get CL_RRA_CMD_TMO) ≤ s.since s.cl.rraAt)) s
    ((s.set CL_RRA_STAT_STATE rraTimeout).flag CL_FLAGS_RRA_TMO CL_CNT2_RRA_TMO)

/-! ### Messages and barriers (R247, R251) -/

/-- MSG_PACKET_RECEIVE (R247, R358). -/
def execMsgPacketReceive (e : EngineIx) (w : Native) (s : State) : Host.Outcome State Fault Refusal := done s (s.pushMsg e w)

/-- R251: EPOCH: the release of a domain barrier at TIME t, or on arrival when t has passed (R59); one that arrives in the TCLK
of its TIME is not late (log entry 139). -/
def State.domainEpoch (s : State) (b : Nat) (t : Time) : State :=
  if s.isRoot || !s.isMember then s
  else
    let late := reached s.time t && s.time != t
    let s := if late then s.flag TP_FLAGS_EPOCH_LATE TP_CNT2_EPOCH_LATE else s
    { s with cl := { s.cl with barRel := vset s.cl.barRel b (some (if late then s.time else t)) } }

/-- DOMAIN_EPOCH_RECEIVE (R251). -/
def execDomainEpochReceive (b : Fin 8) (t : Time) (s : State) : Host.Outcome State Fault Refusal := done s (s.domainEpoch b t)

/-- BARRIER_REPORT_RECEIVE (R251): from a device downstream. -/
def execBarrierReportReceive (_dev : BitVec 10) (b : Fin 8) (count : Nat) (s : State) : Host.Outcome State Fault Refusal :=
  doneIf (s.isRoot || s.isMember) s (s.barrierReport b count)

/-! ### Time exchange (R367 to R369) -/

/-- TIME_EXCHANGE_START (R369): every 2^14 TCLK a parent sends TS1 to the child on port x, stamped t on departure. -/
def execTimeExchangeStart (x : Fin 4) (t : Tick) (s : State) : Host.Outcome State Fault Refusal :=
  doneIf ((x == 1 || x == 2) && (s.isRoot || s.isMember) && s.portUp x && reached s.time (vget s.cl.taNext x 0)) s
    (({ s with cl := { s.cl with t1 := vset s.cl.t1 x (some t), taNext := vset s.cl.taNext x (later s.time (2 ^ 14)) } }).sendLink x
      (.ts1 t))

/-- R362, R364: this device follows its parent's TIME. -/
def State.taFollows (s : State) : Bool := !s.isRoot && s.on CL_DOM_CTL_JOIN && s.domState != domLeft && s.portUp 0

/-- R362, R364: only a root or a member sends TS1, so at its arrival a device that has left aligns to its parent again. -/
def State.taHears (s : State) : State := if s.domState = domLeft then s.tryJoin else s

/-- TS1_RECEIVE (R369): stamped t2 on arrival; TS2 leaves at t3. -/
def execTs1Receive (t2 t3 : Tick) (s : State) : Host.Outcome State Fault Refusal :=
  let s' := s.taHears
  if s'.taFollows then done s (({ s' with cl := { s'.cl with t2 := some t2, t3 := some t3 } }).sendLink 0 .ts2) else .next s

/-- A mean of 2^AVG sums in 1/32 tick, in 1/16 tick; a quotient is not rounded in a stated way. -/
def State.taMean (s : State) (sum : Int) : State × Int := s.quotient sum (2 * 2 ^ s.get CL_TA_CTL_AVG)

/-- TS2_RECEIVE (R369): stamped t4 on arrival; `turn` = t3 - t2 at the child, from which the parent knows the delay, and
`none` where a block was re-sent, which makes the exchange void. -/
def execTs2Receive (x : Fin 4) (t : Tick) (turn : Option Tick) (s : State) : Host.Outcome State Fault Refusal :=
  done s (match vget s.cl.t1 x none with
    | none => s
    | some t1 =>
      let s := ({ s with cl := { s.cl with t1 := vset s.cl.t1 x none } }).sendLink x (.ts3 t1 t)
      match turn with
      | none => s
      | some turn =>
        let acc := vget s.cl.chDly x (0, 0)
        let sum := acc.2 + 16 * (t - t1 - turn).toInt
        if acc.1 + 1 < 2 ^ s.get CL_TA_CTL_AVG then { s with cl := { s.cl with chDly := vset s.cl.chDly x (acc.1 + 1, sum) } }
        else
          match s.taMean sum with
          | (s, d) => ({ s with cl := { s.cl with chDly := vset s.cl.chDly x (0, 0) } }).set (CL_P_DLY_DLY x) (min d.toNat (2 ^ 32 - 1)))

/-- Bounds of a signed 32-bit field. -/
def sat32 (v : Int) : Int := max (-(2 ^ 31)) (min (2 ^ 31 - 1) v)

/-- round(sum / den), a tie to either side. -/
def State.roundHalf (s : State) (sum : Int) (den : Nat) : State × Int :=
  if 2 * sum % (2 * (den : Int)) = (den : Int) then (s.burn, sum / (den : Int) + (if s.fresh.getLsbD 0 then 1 else 0))
  else (s, (2 * sum + den) / (2 * (den : Int)))

/-- R368: the first mean steps TIME once. -/
def State.taStepTime (s : State) (sum : Int) : State :=
  match s.roundHalf sum (32 * 1024 * 2 ^ s.get CL_TA_CTL_AVG) with
  | (s, r) =>
    (((s.stepTime (BitVec.ofInt 56 (-r))).setInt CL_TA_STEP_STEP (sat32 (-r))).flag CL_FLAGS_TSTEP
      CL_CNT2_TSTEP).set CL_TA_STAT_STATE taStep

/-- R368: a later mean trims; the loop law is not stated. -/
def State.taTrim (s : State) (good : Bool) : State :=
  let n := if good then s.cl.taGood + 1 else 0
  match s.within (-trimLimit) trimLimit with
  | (s, t) =>
    (({ s with cl := { s.cl with taGood := n } }).setInt CL_TA_TRIM_TRIM t).set CL_TA_STAT_STATE (if 16 ≤ n then taAligned else taTrack)

/-- R368, R369: one mean of the alignment, from sums in 1/32 tick. -/
def State.taMeanDone (s : State) (ofs dly : Int) : State :=
  let s := { s with cl := { s.cl with taN := 0, taOfs := 0, taDly := 0 } }
  match s.taMean ofs with
  | (s, m) => match s.taMean dly with
    | (s, d) =>
      let s := (s.setInt CL_TA_OFS_OFS (sat32 m)).set (CL_P_DLY_DLY 0) (min d.toNat (2 ^ 32 - 1))
      if s.taState = taFree then s.taStepTime ofs else s.taTrim (decide (ofs.natAbs ≤ 32 * 2 ^ s.get CL_TA_CTL_AVG))

/-- TS3_RECEIVE (R369): the offset and delay of one exchange, void where a block was re-sent. -/
def execTs3Receive (t1 t4 : Tick) (resent : Bool) (s : State) : Host.Outcome State Fault Refusal :=
  done s (match s.cl.t2, s.cl.t3 with
    | some t2, some t3 =>
      let s := { s with cl := { s.cl with t2 := none, t3 := none } }
      if resent then s
      else
        let a := (t2 - t1).toInt
        let b := (t4 - t3).toInt
        let ofs := s.cl.taOfs + 16 * (a - b) - s.getInt (CL_P_CTL_ASYM 0)
        let dly := s.cl.taDly + 16 * (a + b)
        if s.cl.taN + 1 < 2 ^ s.get CL_TA_CTL_AVG then
          { s with cl := { s.cl with taN := s.cl.taN + 1, taOfs := ofs, taDly := dly } }
        else s.taMeanDone ofs dly
    | _, _ => s)

end Sys2Proof.Machine
end

