-- ==== Sys2Proof/Machine/Twin.lean ====
section
/-! DEFINITION. Chapter 13: twin pairs: refill mirroring, lockstep, agreement, heartbeat, takeover, swap, detach, attach. -/

namespace Sys2Proof.Machine

/-! ### Refill (R376) -/

/-- Words of a refill block reach an engine's buffer or a player's region. -/
def State.refillDeliver (s : State) (wave : Bool) (u : Nat) (words : List Native) : State :=
  if wave then words.foldl (fun s w => s.wpDeliver u w) s
  else
    let r := (s.engine u).refill ++ words
    (s.setEngine u { s.engine u with refill := r }).set (SQ_STRM_STAT_FILL u) r.length

/-- The queue of ring 6 or 7 that serves unit u. -/
def queueOf (wave : Bool) (u : Nat) : RingIx := if wave then .waveQueue (Fin.ofNat 32 u) else .vecQueue (Fin.ofNat 32 u)

/-- R406: a block is delivered, and HEAD advances. -/
def State.queueDelivers (s : State) (wave : Bool) (u : Nat) (words : List Native) (int : Bool) : State :=
  (s.refillDeliver wave u words).completeDesc (queueOf wave u) int

/-- Blocks that await the partner's acknowledgement are delivered once the member is SINGLE. -/
def State.refillAlone (s : State) : State :=
  s.tw.refill.foldl (fun s r => s.queueDelivers r.1 r.2.1 r.2.2.1 r.2.2.2) { s with tw := { s.tw with refill := [] } }

/-- REFILL_BLOCK_FORWARD (R376): the partner acknowledges the oldest block of the queue, or its block arrives here; at a joiner
for an engine that has been transferred. -/
def execRefillBlockForward (ring : Bool) (u : GroupIx) (words : List Native) (s : State) : Host.Outcome State Fault Refusal :=
  done s (if s.role = roleShadow ∨ s.role = roleJoining then s.refillDeliver ring u words
    else match s.tw.refill.find? fun r => r.1 == ring && r.2.1 == u.val with
      | some r => ({ s with tw := { s.tw with refill := s.tw.refill.erase r } }).queueDelivers ring u r.2.2.1 r.2.2.2
      | none => s)

/-! ### Roles (R373, R374, R383) -/

/-- ACTIVE or SHADOW: the roles that watch their partner. -/
def State.watches (s : State) : Bool := s.role == roleActive || s.role == roleShadow

def State.setRole (s : State) (r : Nat) : State := s.set TW_STAT_ROLE r

/-- R383, R379: an ACTIVE and SHADOW pair ends, or an attach: the SHADOW or joiner is DETACHED, the ACTIVE member SINGLE. -/
def State.twinDetach (s : State) : State :=
  if s.role = roleShadow ∨ s.role = roleJoining then s.twinStop roleDetached
  else if s.role = roleActive then
    (({ s with tw := { s.tw with swapAt := none, attachAt := none } }).setRole roleSingle).refillAlone
  else s

/-- TW_CMD DETACH (R383), on either member of an ACTIVE and SHADOW pair. -/
def State.detachCmd (s : State) : State := if s.inPair then (s.sendLink 3 .detach).twinDetach else s

/-- DETACH (R383): the write of TW_CMD, or its message from the partner. -/
def execDetach (received : Bool) (s : State) : Host.Outcome State Fault Refusal :=
  done s (if received then s.twinDetach else if s.ready then s.detachCmd else s)

/-- R378: the policy of a lost lockstep or of a disagreement. -/
def State.dispol (s : State) : State := if s.on TW_CTL_DISPOL then s.detachCmd else s

/-- R373, R383: a write of TW_CTL. -/
def State.writeTwCtl (s : State) (v : Word) : State :=
  let s := (s.set TW_CTL_DISPOL (fieldOf v 2 2)).set TW_CTL_LOSPOL (fieldOf v 1 1)
  let pair := fieldOf v 0 0
  if s.role = roleJoining then s
  else
    let s := if pair = 0 ∧ s.watches then (s.sendLink 3 .detach).twinDetach else s
    (s.set TW_CTL_PAIR pair).parkAll

/-- PAIR_WRITE (R383). -/
def execPairWrite (v : Word) (s : State) : Host.Outcome State Fault Refusal := hostDone s (s.writeTwCtl v)

/-! ### Lockstep and heartbeat (R377, R379, R380) -/

/-- R377: what the lockstep CRC covers: vector count and RUNNING context of each engine. -/
def State.lockstepData (s : State) : List (Nat × Option Nat) := (List.range 32).map fun e => (s.vcnt e, s.running e)

def State.lockstepCrc (s : State) : BitVec 32 := crc32c (Config.lockstepBytes s.lockstepData)

/-- R379: the health bits MCHK, OCHRE, THERM, PARKED. -/
def State.health (s : State) : BitVec 4 :=
  BitVec.ofNat 4 ((if s.on MC_MCHKMAP_MAP then 1 else 0) + (if s.on TH_STAT_OEXH then 2 else 0)
    + (if s.on TH_STAT_TRIP then 4 else 0) + (if s.twinPark then 8 else 0))

/-- R377, R379: a heartbeat; at a multiple of 1,600 TCLK with a new CRC. -/
def State.heartbeat (s : State) (onGrid : Bool) : State :=
  let s := if onGrid then { s with tw := { s.tw with crcs := ((s.time, s.lockstepCrc) :: s.tw.crcs).take 8 } } else s
  let h := s.health
  let x := s.tw.crcs.headD (0, 0)
  let hb : Heartbeat := { seq := s.tw.hbSeq, role := BitVec.ofNat 3 s.role, mchk := h.getLsbD 0, ochre := h.getLsbD 1,
                          therm := h.getLsbD 2, parked := h.getLsbD 3, time := x.1, crc := x.2 }
  ({ s with tw := { s.tw with hbSeq := s.tw.hbSeq + 1, hbHealth := h } }).sendLink 3 (.heartbeat hb)

/-- HEARTBEAT_SEND (R379). -/
def execHeartbeatSend (s : State) : Host.Outcome State Fault Refusal :=
  let onGrid := decide (s.time.toNat % 1600 = 0)
  doneIf (s.on TW_CTL_PAIR && s.portUp 3 && (onGrid || s.health != s.tw.hbHealth)) s (s.heartbeat onGrid)

/-- TW_TAKE: D and the cause (R381). -/
def State.twTake (s : State) (d : Time) (cause : Nat) : State :=
  (s.setTime TW_TAKE_LO_T_LO TW_TAKE_HI_T_HI d).set TW_TAKE_HI_CAUSE cause

/-- R379 to R381: the partner's failure is detected at D: PARKCMD is sent, and this member is SINGLE. -/
def State.partnerFailed (s : State) (d : Time) (cause : Nat) : State :=
  let shadow := s.role = roleShadow
  let s := (s.sendLink 3 .parkcmd).twTake d cause
  let s := (({ s with tw := { s.tw with swapAt := none, attachAt := none } }).setRole roleSingle).refillAlone
  if shadow then ({ s with tw := { s.tw with takeD := some d } }).flag TW_FLAGS_TAKEOVER TW_CNT0_TAKEOVER else s

def takeHbloss : Nat := 0
def takeMchk : Nat := 1
def takeOchre : Nat := 2
def takeTherm : Nat := 3
def takeSwap : Nat := 4
def takeLinkloss : Nat := 5

/-- R377: the CRC of the same TIME differs. -/
def State.lockstepLost (s : State) (hb : Heartbeat) : Bool :=
  s.inPair && s.tw.crcs.any fun x => x.1 == hb.time && x.2 != hb.crc

/-- R377, R379: a valid heartbeat arrives. -/
def State.heartbeatArrives (s : State) (hb : Heartbeat) : State :=
  let s := ({ s with tw := { s.tw with lastHb := some s.time } }.set TW_STAT_HBOK 1).set TW_STAT_PEER hb.role.toNat
  let s := if s.lockstepLost hb then (s.flag TW_FLAGS_LOCKSTEP TW_CNT1_LOCKSTEP).dispol else s
  if !s.watches then s
  else if hb.mchk then s.partnerFailed s.time takeMchk
  else if hb.ochre then s.partnerFailed s.time takeOchre
  else if hb.therm then s.partnerFailed s.time takeTherm
  else s

/-- HEARTBEAT_RECEIVE (R379). -/
def execHeartbeatReceive (hb : Heartbeat) (s : State) : Host.Outcome State Fault Refusal := doneIf (s.on TW_CTL_PAIR) s (s.heartbeatArrives hb)

/-- No valid heartbeat for 3.5 µs. -/
def State.heartbeatLate (s : State) : Bool := match s.tw.lastHb with
  | some t => decide (5600 ≤ s.since t)
  | none => true

/-- R379: D of a lost heartbeat. -/
def State.hbLossAt (s : State) : Time := match s.tw.lastHb with
  | some t => later t 5600
  | none => s.time

/-- R379: the loss of the heartbeat, with the T port UP or not. -/
def State.heartbeatLost (s : State) : State :=
  let s := s.set TW_STAT_HBOK 0
  if !s.watches then s
  else if s.portUp 3 then (s.flag TW_FLAGS_HBLOSS TW_CNT0_HBLOSS).partnerFailed s.hbLossAt takeHbloss
  else if s.role = roleActive ∨ s.on TW_CTL_LOSPOL then s.partnerFailed s.hbLossAt takeLinkloss
  else s.twinDetach

/-- HEARTBEAT_LOSS (R379). -/
def execHeartbeatLoss (s : State) : Host.Outcome State Fault Refusal := doneIf s.heartbeatLate s s.heartbeatLost

/-- PARKCMD_RECEIVE (R380). -/
def execParkcmdReceive (s : State) : Host.Outcome State Fault Refusal := done s s.selfPark

/-! ### Takeover (R381) -/

/-- A vector that begins at or after a TCLK has reached the reference plane at B + Z. -/
def State.vectorFrom (s : State) (g : Nat) (t : Time) : Bool :=
  (s.group g).begun.any fun v => tickReached v.b (tickOf t) && reached s.time (tclkOf (v.b + BitVec.ofNat 66 zOffset))

/-- R381: group g takes over. -/
def State.takeoverDue (s : State) (g : Nat) : Bool :=
  match s.tw.takeD with
  | some d => (s.group g).shadowHold && (s.vectorFrom g (later d 2) || reached s.time (later d 6400))
  | none => false

def State.groupTakeover (s : State) (g : Nat) : State := s.setGroup g { s.group g with shadowHold := false, termOnly := false }

/-- GROUP_TAKEOVER (R381). -/
def execGroupTakeover (g : GroupIx) (s : State) : Host.Outcome State Fault Refusal := doneIf (s.takeoverDue g) s (s.groupTakeover g)

/-- TAKEOVER_TERM_CONNECT (R381): at D + 160. -/
def execTakeoverTermConnect (g : GroupIx) (s : State) : Host.Outcome State Fault Refusal :=
  done s (match s.tw.takeD with
    | some d =>
      if (s.group g).shadowHold && reached s.time (later d 160) then s.setGroup g { s.group g with termOnly := true } else s
    | none => s)

/-! ### Agreement (R378) -/

/-- Distance of two numbers. -/
def apart (a b : Int) : Nat := (a - b).natAbs

def signed24 (n : Nat) : Int := (BitVec.ofNat 24 n).toInt

/-- R378, GUARDED: one channel's words within the tolerances. -/
def State.channelAgrees (s : State) (a b : List Native) (p : Nat) : Bool :=
  let df := s.get TW_AGREE_DFAIL
  let de := s.get TW_AGREE_DEDGE
  let f := fun (l : List Native) (i hi lo : Nat) => nbits (l.getD (2 + 2 * p + i) 0) hi lo
  decide (apart (f a 0 71 51) (f b 0 71 51) ≤ df) && decide (apart (f a 1 23 0) (f b 1 23 0) ≤ df)
    && decide (apart (signed24 (f a 1 71 48)) (signed24 (f b 1 71 48)) ≤ de)
    && decide (apart (signed24 (f a 1 47 24)) (signed24 (f b 1 47 24)) ≤ de)

/-- R378: the positions that fail the comparison; `none` where the sets agree. -/
def State.disagreement (s : State) (a b : List Native) : Option Nat :=
  if crc32c (wordBytes a) = crc32c (wordBytes b) then none
  else if !s.on TW_AGREE_MODE then some 0xFFFF
  else
    let bad := (List.range 16).foldl (fun m p => if s.channelAgrees a b p then m else m ||| 1 <<< p) 0
    if bad = 0 ∧ a.take 2 = b.take 2 then none else some bad

/-- R378: the partner's set of an engine against this member's; with GUARDED and unequal CRCs this member's words leave too. -/
def State.agreement (s : State) (e : Nat) (set : List Native) : State :=
  let own := vget s.tw.sets e (0, [])
  if own.2.isEmpty || !s.agrees e own.1 then s
  else
    let crc := crc32c (wordBytes own.2)
    let s := if s.on TW_AGREE_MODE && crc != crc32c (wordBytes set) then s.sendLink 3 (.agreement e crc own.2) else s
    match s.disagreement own.2 set with
    | none => s
    | some map =>
      let s := s.flag TW_FLAGS_DISAGREE TW_CNT1_DISAGREE
      (((s.set TW_DIS_ENGINE e).set TW_DIS_ISEQ (nbits (own.2.headD 0) 66 61)).set TW_DIS_CHMAP map).dispol

/-- AGREEMENT_RECEIVE (R378). -/
def execAgreementReceive (e : EngineIx) (set : List Native) (s : State) : Host.Outcome State Fault Refusal := done s (s.agreement e set)

/-! ### Swap (R382) -/

/-- TW_CMD SWAP: on an ACTIVE member with a SHADOW partner. -/
def State.swapCmd (s : State) : State :=
  if s.role = roleActive ∧ s.inPair ∧ s.portUp 3 then
    let ts := later s.time 32000
    ({ s with tw := { s.tw with swapAt := some (ts, true) } }).sendLink 3 (.swap ts)
  else s

/-- SWAP reaches the SHADOW. -/
def State.swapReceived (s : State) (ts : Time) : State :=
  if s.role = roleShadow then { s with tw := { s.tw with swapAt := some (ts, false) } } else s

/-- SWAP (R382): the write of TW_CMD, or its message with Ts. -/
def execSwapOp (ts : Option Time) (s : State) : Host.Outcome State Fault Refusal :=
  done s (match ts with
    | none => if s.ready then s.swapCmd else s
    | some t => s.swapReceived t)

/-- R382: group g exchanges; the role is the new one from the first group that does. -/
def State.swapGroup (s : State) (g : Nat) (ts : Time) (toShadow : Bool) : State :=
  let s := s.setGroup g { s.group g with shadowHold := toShadow, termOnly := false }
  let new := if toShadow then roleShadow else roleActive
  let s := if s.role = new then s else
    let s := s.setRole new
    if toShadow then s else s.twTake ts takeSwap
  if (List.range 32).all fun g => (s.group g).shadowHold == toShadow then { s with tw := { s.tw with swapAt := none } } else s

/-- SWAP_EXECUTE (R382): at the first vector with B at or after Ts, in the tick B + Z. -/
def execSwapExecute (g : GroupIx) (s : State) : Host.Outcome State Fault Refusal :=
  done s (match s.tw.swapAt with
    | some (ts, toShadow) =>
      if (s.group g).shadowHold != toShadow && s.vectorFrom g ts then s.swapGroup g ts toShadow else s
    | none => s)

/-! ### Attach (R384, R385) -/

/-- R384: the reason that refuses an attach, the lowest; 0 for none. -/
def State.attachReason (s : State) (peer : PeerInfo) : Nat :=
  if !s.portUp 3 then 1
  else if !peer.pair || !([roleNone, roleDetached, roleFailed].contains peer.role.toNat) then 2
  else if peer.version ≠ s.word MC_VERSION ∨ peer.imageCrc ≠ s.word MC_IMAGE_CRC then 3
  else if peer.digest ≠ s.digest then 4
  else if !s.isMember || !peer.member then 5
  else if s.role ≠ roleNone ∧ s.role ≠ roleSingle then 6
  else 0

/-- The bytes of the I-stores, V-stores and waveform stores lie below the fail log (R438). -/
def storeCells (m : List Host.Cell) : List Host.Cell := m.filter fun c => c.1 < memFailLog

/-- TW_CMD ATTACH on the member that is to drive. -/
def State.attachCmd (s : State) (peer : PeerInfo) : State :=
  match s.attachReason peer with
  | 0 =>
    let s := ((s.set TW_STAT_RJREASON 0).set TW_RJ_STAT_PEND 0xFFFFFFFF).setRole roleActive
    let s := { s with tw := { s.tw with attachAt := some s.time, lastHb := some s.time, sentOut := [], checkFrom := Vector.replicate 32 none } }
    ((s.sendLink 3 .attach).sendLink 3 (.stores (storeCells s.mem))).parkAll
  | r => (s.set TW_STAT_RJREASON r).flag TW_FLAGS_RJFAIL TW_CNT2_RJFAIL

/-- The attach reaches the partner. -/
def State.attachRequested (s : State) : State :=
  if s.on TW_CTL_PAIR ∧ [roleNone, roleDetached, roleFailed].contains s.role then
    let s := { s with tw := { s.tw with attachAt := some s.time, lastHb := some s.time, checkFrom := Vector.replicate 32 none } }
    ((s.set TW_RJ_STAT_PEND 0xFFFFFFFF).setRole roleJoining).parkAll
  else s

/-- The copy of the stores reaches the joiner. -/
def State.attachStores (s : State) (cells : List (Nat × Byte)) : State :=
  if s.role = roleJoining then
    { s with mem := cells.foldl (fun m c => if c.1 < memFailLog then Memory.write m c.1 c.2 else m)
               (s.mem.filter fun c => decide (memFailLog ≤ c.1)) }
  else s

/-- ATTACH (R384). -/
def execAttach (what : AttachStep) (s : State) : Host.Outcome State Fault Refusal :=
  done s (match what with
    | .command peer => if s.ready then s.attachCmd peer else s
    | .request => s.attachRequested
    | .stores cells => s.attachStores cells)

/-- ATTACH_TIMEOUT (R384). -/
def execAttachTimeout (s : State) : Host.Outcome State Fault Refusal :=
  done s (match s.tw.attachAt with
    | some t =>
      if usTclk (1000 * s.get TW_RJ_TMO_TMO) ≤ s.since t then
        if s.role = roleJoining then s.twinStop roleDetached
        else (s.twinDetach.set TW_STAT_RJREASON 7).flag TW_FLAGS_RJFAIL TW_CNT2_RJFAIL
      else s
    | none => s)

/-- R385: the registers of engine e that are transferred. -/
def transferRegs (e : Nat) : List Reg :=
  [SQ_STAT e, SQ_ELIG e, SQ_STRM_STAT e, SQ_MSGSTAT e, FC_VCNT_LO e, FC_VCNT_HI e, FC_SUM_STAT e, WP_STAT e, WP_REP e, WP_POS e,
    WP_STRM_STAT e]
    ++ (List.range 2).flatMap (fun j => [SQ_TMR_LO e j, SQ_TMR_HI e j, SQ_TMR_PER e j, SQ_TMR_PERHI e j, SQ_TMR_CTL e j])
    ++ (List.range 32).flatMap (fun c => [SQ_CTX_STAT e c, SQ_CTX_CFG e c, SQ_CTX_FLAGS e c, SQ_CTX_RES e c, SQ_CTX_STK01 e c,
        SQ_CTX_STK23 e c] ++ (List.range 4).map (SQ_CTX_L e c) ++ (List.range 8).map (SQ_CTX_Q e c))

/-- The open interval of a group. -/
def Group.openIv (x : Group) : Interval := x.ivs.headD (.empty 0 0)

/-- The trigger engines that name engine e as REF. -/
def State.teOf (s : State) (e : Nat) : List Nat := (List.range 4).filter fun n => s.get (AQ_TE_CTL_REF n) == e

/-- R385: what the ACTIVE member latches of engine e. -/
def State.transferOf (s : State) (e : Nat) : Transfer :=
  { regs := (transferRegs e).foldl (fun f r => f.setWord r (s.word r)) [], engine := s.engine e, interval := (s.group e).openIv,
    player := s.wp e, at_ := s.time, nextB := (s.group e).nextB,
    lastData := BitVec.ofNat 16 ((List.range 16).foldl (fun n p => if (s.chan e p).lastData then n ||| 1 <<< p else n) 0),
    trigs := (s.teOf e).map fun n => (n, s.te n, s.word (AQ_TE_STAT n)) }

/-- R385: agreement begins with the first interval that starts after the transfer. -/
def State.checkAfter (s : State) (e : Nat) : State :=
  let iv := (s.group e).openIv
  { s with tw := { s.tw with checkFrom := vset s.tw.checkFrom e (some (if iv.n = 0 then iv.id else iv.id + 1)) } }

/-- R385: engine e is transferred; with the last one the pair stands. -/
def State.transferred (s : State) (e : Nat) : State :=
  let s := s.setBit TW_RJ_STAT_PEND e false
  if s.on TW_RJ_STAT_PEND then s
  else
    let s := { s with tw := { s.tw with attachAt := none } }
    if s.role = roleJoining then ((s.setRole roleShadow).holdAll true).parkAll else s

/-- R385: a transfer point of engine or gang l: no context RUNNING, or a hold after the end of a summary interval. -/
def State.transferPoint (s : State) (l : Nat) : Bool :=
  match s.running l with
  | none => true
  | some c => (s.ctxWait l c).isSome && s.nextOpens l && (s.group l).issue.isEmpty

/-- The player of the joiner goes through n sample ticks without issuing (R385, R209). -/
def State.wpSkip (s : State) (g : Nat) : Nat → State
  | 0 => s
  | n + 1 => if s.wpRuns g then ((s.wpNext g s.time).1).wpSkip g n else s

/-- R385: the player advances through the sample ticks since the latch. -/
def State.wpCatchUp (s : State) (g : Nat) (since : Time) : State :=
  let n := s.time.toNat / 16 - since.toNat / 16
  if s.on (WP_CTL_CLK g) then
    let s := if s.phLockedB then s.wpUpdatePhase g true else s
    let k := ((s.wp g).due.map (·.2)).foldl (· + ·) 0
    (s.setWp g { s.wp g with due := [] }).wpSkip g k
  else
    let a := (s.wp g).acc + n * (s.get (WP_INC_HI_INC_HI g) * 2 ^ 32 + s.get (WP_INC_LO_INC_LO g))
    let k := ((s.wp g).due.map (·.2)).foldl (· + ·) 0
    (s.setWp g { s.wp g with acc := a % wpAccMod, due := [] }).wpSkip g (k + a / wpAccMod)

/-- R385: the joiner loads the state of engine e. -/
def State.loadTransfer (s : State) (e : Nat) (t : Transfer) : State :=
  let s := (transferRegs e).foldl (fun s r => s.setWord r (t.regs.word r)) s
  let s := s.setEngine e t.engine
  let x := s.group e
  let s := s.setGroup e { x with ivs := t.interval :: x.ivs.tail, nextB := t.nextB }
  let s := s.forEach (List.range 16) fun s p => s.setChan e p { s.chan e p with lastData := t.lastData.getLsbD p }
  let s := t.trigs.foldl (fun s (r : Nat × TrigEngine × Word) => (s.setTe r.1 r.2.1).setWord (AQ_TE_STAT r.1) r.2.2) s
  let s := s.forEach (List.range 8) fun s b => s.setBit (SQ_BAR_ARR_ARR 0 b) e (vget t.engine.arrived b none).isSome
  (s.setWp e t.player).wpCatchUp e t.at_

/-- R385: the ACTIVE member latches and sends the state of engine or gang e at a transfer point. -/
def State.transferOut (s : State) (e : Nat) : State :=
  if s.bit TW_RJ_STAT_PEND e ∧ s.isLeader e ∧ s.transferPoint e ∧ !s.tw.sentOut.any (fun x => x.1 == e) then
    let s := s.sendLink 3 (.transfer ((s.members e).map fun m => (m, s.transferOf m)))
    { s with tw := { s.tw with sentOut := (e, s.vcnt e, s.running e) :: s.tw.sentOut } }
  else s

/-- R385: the joiner has loaded it. A hold that has ended before abandons the transfer, which waits for the next transfer
point. -/
def State.transferLoaded (s : State) (e : Nat) : State :=
  match s.tw.sentOut.find? fun x => x.1 == e with
  | some x =>
    let s := { s with tw := { s.tw with sentOut := s.tw.sentOut.filter fun y => y.1 != e } }
    if s.transferPoint e ∧ s.vcnt e = x.2.1 ∧ s.running e = x.2.2 then
      (s.sendLink 3 (.transferred e)).forEach (s.members e) fun s m => (s.checkAfter m).transferred m
    else s
  | none => s

/-- R385: the state reaches the joiner, which loads it and says so. -/
def State.transferIn (s : State) (e : Nat) (l : List (Nat × Transfer)) : State :=
  (l.foldl (fun s x => if x.1 < 32 then (s.loadTransfer x.1 x.2).checkAfter x.1 else s) s).sendLink 3 (.loaded e)

/-- ENGINE_TRANSFER (R385). -/
def execEngineTransfer (e : EngineIx) (step : TransferStep) (s : State) : Host.Outcome State Fault Refusal :=
  done s (match step with
    | .point => if s.role = roleActive ∧ s.tw.attachAt.isSome then s.transferOut e else s
    | .loaded => if s.role = roleActive ∧ s.tw.attachAt.isSome then s.transferLoaded e else s
    | .state l => if s.role = roleJoining then s.transferIn e l else s
    | .done => if s.role = roleJoining then s.forEach (s.members e) State.transferred else s)

/-- The partner's answer where no row brings it: a free value in each part. -/
def State.freePeer (s : State) : PeerInfo :=
  let x := s.fresh
  { pair := x.getLsbD 0, role := BitVec.ofNat 3 (x.toNat / 2), version := if x.getLsbD 4 then s.word MC_VERSION else ~~~(s.word MC_VERSION),
    imageCrc := s.word MC_IMAGE_CRC, digest := if x.getLsbD 5 then s.digest else ~~~s.digest, member := x.getLsbD 6 }

/-- A write of TW_CMD other than the row ATTACH. -/
def State.writeTwCmd (s : State) (v : Word) : State :=
  match fieldOf v 31 28 with
  | 1 => s.burn.attachCmd s.freePeer
  | 2 => s.detachCmd
  | 3 => s.swapCmd
  | _ => s

end Sys2Proof.Machine
end

