-- ==== Sys2Proof/Machine/ResetPower.lean ====
section
/-! DEFINITION. Chapter 15: resets, boot, clocks, the OCHRE governor, thermal, the non-volatile store and the ledger. -/

namespace Sys2Proof.Machine

/-! ### Boot (R415, R418 to R420) -/

/-- Word w of the NVS. -/
def nvsAddr (w : Nat) : Nat := memAddr memNvs 0 0 w

def State.nvsWord (s : State) (w : Nat) : Native := s.memWord (nvsAddr w)

/-- Some word of [a, b) of the NVS differs from the factory's. -/
def State.nvsTouched (s : State) (a b : Nat) : Bool := s.mem.any fun c => decide (nvsAddr a ≤ c.1 ∧ c.1 < nvsAddr b)

/-- A count of the ledger (R431). -/
def State.ledgerGet (s : State) (o : Nat) : Nat := ((s.sys.ledger.find? (·.1 == o)).map (·.2)).getD 0

def State.ledgerSet (s : State) (o v : Nat) : State :=
  let l := s.sys.ledger
  let below := l.filter fun (c : Nat × Nat) => decide (c.1 < o)
  let above := l.filter fun (c : Nat × Nat) => decide (o < c.1)
  { s with sys := { s.sys with ledger := below ++ (o, v) :: above } }

def State.ledgerAdd (s : State) (o n : Nat) : State := s.ledgerSet o (s.ledgerGet o + n)

/-- POR and RST_N (R415, R418): what the NVS holds stays; the boot begins. The outputs, the queue and the free values are
the model's. `cause` is 0 for POR and 1 for RST_N; MIRROR is sampled (R442). SMCLK does not
run before READY. -/
def State.powerUp (s : State) (cause : Nat) : State :=
  let sys := { State.reset.sys with
    serial := s.sys.serial, manuf := s.sys.manuf, parkN := s.sys.parkN, clrN := s.sys.clrN,
    tap := (if cause = 0 then .idcode else s.sys.tap), bsr := (if cause = 0 then 0 else s.sys.bsr), 
    mirrorBall := s.sys.mirrorBall, mirror := s.sys.mirrorBall }
  let t := { State.reset with mem := s.mem.filter (fun c => decide (memNvs ≤ c.1 ∧ c.1 < nvsAddr 262144)), out := s.out, free := s.free,
                              pending := s.pending, sys := sys, imgEntries := [], imgDisp := [],
                              hi := { HiState.reset with perstN := s.hi.perstN, perstRise := s.hi.perstRise } }
  let t := (((t.set GL_STATUS_BOOT 0).set GL_STATUS_READY 0).set CK_STAT_LOCK 0).smStop
  (t.set MC_STAT_STATE mcLoading).raise (if cause = 0 then CK_RSTCAUSE_POR else CK_RSTCAUSE_RSTN)

/-- POR (R415, R424, R442). -/
def execPor (s : State) : Host.Outcome State Fault Refusal := .next (s.powerUp 0)

/-- RST_N (R415, R442): held low for at least 1 µs. -/
def execRstN (s : State) : Host.Outcome State Fault Refusal := .next (s.powerUp 1)

/-- A field that the boot reads from a changed NVS region whose layout is not stated: a free value. -/
def State.bootFree (s : State) (x : Fld) : State :=
  let s := s.set x (s.fresh.toNat % 2 ^ (x.hi + 1 - x.lo)) |>.burn
  { s with sys := { s.sys with boot := s.sys.boot.put x.reg.addr (s.word x.reg) } }

def State.bootFreeAll (s : State) (l : List Fld) : State := l.foldl State.bootFree s

/-- R429: the configuration defaults: MC_BOOT, CL_DEVNUM, HI_SMB and the clear codes. -/
def State.bootConfig (s : State) : State :=
  if s.nvsTouched 0x100 0x1000 then
    s.bootFreeAll ([MC_BOOT_SLOT, MC_BOOT_ORDER, CL_DEVNUM_NUM, HI_SMB_ADDR]
      ++ (List.range 32).flatMap fun g => (List.range 16).flatMap fun p => (List.range 6).map (LS_CLR_CODE g p))
  else s

/-- R429: the factory calibration: internal deskew. -/
def State.bootDeskew (s : State) : State :=
  if s.nvsTouched 0x1000 0x2000 then
    s.bootFreeAll ((List.range 32).flatMap fun g => (List.range 16).flatMap fun p => [TG_DSKI_DD_INT g p, TG_DSKI_DC_INT g p])
  else s

/-- R429: the factory table of a TDC line, four widths per word, by channel, line and bin. -/
def State.nvsTable (s : State) (k : Nat) : List Nat :=
  (List.range 512).map fun b =>
    let i := 512 * k + b
    nbits (s.nvsWord (0x2000 + i / 4)) (16 * (i % 4) + 15) (16 * (i % 4))

def State.bootTables (s : State) : State :=
  let l := (List.range 1024).filterMap fun k =>
    if s.nvsTouched (0x2000 + 128 * k) (0x2000 + 128 * (k + 1)) then some (k, s.nvsTable k) else none
  { s with sys := { s.sys with bootTdc := l } }

/-- R429: the words of the factory-calibration region that differ from the factory's. -/
def State.bootCal (s : State) : State :=
  let ws := (s.mem.filter fun c => decide (nvsAddr 0x1000 ≤ c.1 ∧ c.1 < nvsAddr 0x2000)).map fun c => (c.1 - nvsAddr 0) / 16
  { s with sys := { s.sys with cal := ws.eraseDups.map fun w => (w, s.nvsWord w) } }

/-- The calibration of a TDC as the boot leaves it (R162): the tables and shifts of the channel's ball (R442). The factory's
own shifts are 0 (log entry 12). -/
def State.factoryTdc (s : State) (g p : Nat) : Tdc :=
  let n := 2 * s.physChan (16 * g + p)
  let t := fun k => (s.sys.bootTdc.find? (·.1 == k)).map (·.2)
  let a := fun k => if s.sys.cal = [] then 0 else Config.factoryShift s.sys.cal k
  { Tdc.reset with tabA := t n, tabB := t (n + 1), shiftA := a n, shiftB := a (n + 1), passAt := s.time }

/-- R162: a TDC in its boot state, TD_ALIGN.A the shift of line A. -/
def State.bootChanTdc (s : State) (g p : Nat) : State :=
  let t := s.factoryTdc g p
  (s.setTdc g p t).setInt (TD_ALIGN_A g p) t.shiftA

/-- Base words of the ledger copies (R431). -/
def ledgerCopy (b : Bool) : Nat := if b then 0x23000 else 0x22000

/-- R431: the sequence of a copy, where its CRC passes. -/
def State.copySeq (s : State) (b : Bool) : Option Nat :=
  let a := ledgerCopy b
  let x := s.nvsWord (a + 0xFFF)
  let crc := crc32c (wordBytes ((List.range 0xFFF).map fun i => s.nvsWord (a + i)))
  if nbits x 31 0 = crc.toNat then some (nbits x 71 40) else none

/-- Offsets of the ledger (R431). -/
def ledgerOffsets : List Nat :=
  [0, 1, 2, 3, 4] ++ (List.range 5).map (8 + ·) ++ (List.range 5).flatMap (fun d => (List.range 21).map fun b => 0x10 + 32 * d + b)
    ++ (List.range 5).map (0x100 + ·)

/-- R431: the loader takes the copy whose CRC passes and whose sequence is the higher. -/
def State.bootLedger (s : State) : State :=
  let pick := match s.copySeq false, s.copySeq true with
    | some a, some b => some (decide (a < b), max a b)
    | some a, none => some (false, a)
    | none, some b => some (true, b)
    | none, none => none
  match pick with
  | none => s
  | some (b, seq) =>
    let l := (ledgerOffsets.map fun o => (o, nbits (s.nvsWord (ledgerCopy b + o)) 63 0)).filter fun (c : Nat × Nat) => c.2 != 0
    { s with sys := { s.sys with ledger := l, ledgerSeq := seq } }

/-- R108, R416: the target of a DAC is its clear code until a commit applies. -/
def State.clearTarget (s : State) (g p d : Nat) : State :=
  let code : BitVec 16 := BitVec.ofNat 16 (s.get (LS_CLR_CODE g p d))
  (s.setDac g p d { s.dac g p d with tgt := code, boot := code }).follow g p d

/-- R420, R428: word k of the identity and then of the factory-calibration region. -/
def bootWord (k : Nat) : Nat := if k < 0x100 then k else 0x1000 + (k - 0x100)

/-- R420, R428: the loader finds a word uncorrectable and replaces it by its nominal value. -/
def State.bootNominal (s : State) (k : Nat) : State :=
  ((s.set GL_STATUS_CALDEF 1).flag NV_FLAGS_UNCORR NV_CNT0_UNCORR).set NV_LASTERR_ADDR (bootWord k)

/-- R108, R418: step NVS: the DAC outputs move to the clear codes; deskew, tables and defaults are loaded. `ok`: the words of
`bootWord` that are not uncorrectable. -/
def State.bootNvs (s : State) (ok : List Bool) : State :=
  let por := s.on CK_RSTCAUSE_POR
  let s := s.bootConfig.bootDeskew.bootTables.bootCal.bootLedger
  let s := s.ledgerAdd (if por then 1 else 2) 1
  let s := s.forEach (List.range 32) fun s g => s.forEach (List.range 16) fun s p =>
    (s.bootChanTdc g p).forEach (List.range 6) fun s d => s.clearTarget g p d
  s.forEach ((List.range 0x1100).filter fun k => !ok.getD k true) State.bootNominal

/-- R419: memory k of engine e, in the order I-store, V-store, refill buffer, control store, dispatch table. -/
def State.bistEngine (s : State) (e k : Nat) : State :=
  let cause := [mchkIstore, mchkVstore, mchkRefill, mchkParity, mchkDispatch].getD k mchkIstore
  (s.setBit GL_BIST_ENG_MAP e true).machineCheck e cause 0 0

/-- R419: the memory tests: five for each engine, then four (capture, stamp, waveform, fail log) for each group. -/
def State.bootBist (s : State) (ok : List Bool) : State :=
  let s := s.forEach (List.range 32) fun s e => s.forEach (List.range 5) fun s k =>
    if ok.getD (5 * e + k) true then s else s.bistEngine e k
  let s := s.forEach (List.range 32) fun s g => if (List.range 4).all fun k => ok.getD (160 + 4 * g + k) true then s
    else s.setBit GL_BIST_GRP_MAP g true
  if ok.all id then s else (s.set GL_STATUS_BISTFAIL 1).raise GL_FLAGS_BISTFAIL

/-- R418, R162, R124, R131: step FINAL. Calibration passes begin, every comparator is re-armed, and SMCLK runs by the
Reset word of CP_SM_CTL. -/
def State.bootFinal (s : State) : State :=
  let s := s.forEach (List.range 32) fun s g => s.forEach (List.range 16) fun s p =>
    s.setTdc g p { s.tdc g p with passAt := s.time }
  let s := s.forEach (List.range 32) State.rearmGroup
  let s := if s.on (CP_SM_CTL_RUN 0) && !s.on (CP_SM_CTL_BURST 0) then s.smStart else s
  (s.set GL_STATUS_BOOT 5).set GL_STATUS_READY 1

/-- BOOT (R418): the step in progress completes; `ok` are the results of its tests. -/
def execBoot (ok : List Bool) (s : State) : Host.Outcome State Fault Refusal :=
  let go := fun (s : State) (n : Nat) => s.set GL_STATUS_BOOT n
  done s (match s.get GL_STATUS_BOOT with
    | 0 => go ({ s with time := 0 }.set CK_STAT_LOCK 1) 1
    | 1 => go (s.bootNvs ok) 2
    | 2 => go s.bootMc 3
    | 3 => go (s.bootBist ok) 4
    | 4 => s.bootFinal.setDigest s.live
    | _ => s)

/-! ### Group and block resets (R415 to R417) -/

/-- R416: registers in a group's blocks that serve more than the group, and LS_OUT, which is not forced: sub-offsets. -/
def groupKept (o : Nat) : Bool :=
  decide (0x40 ≤ o ∧ o < 0x50) || decide (0x4030 ≤ o ∧ o < 0x4038) || decide (0x5A00 ≤ o ∧ o < 0x5C00)
    || decide (0x6040 ≤ o ∧ o < 0x6060) || decide (0x6400 ≤ o ∧ o < 0x6600) || decide (0xB100 ≤ o ∧ o < 0xB200)

/-- A plane with the registers of group g's blocks at their Reset words. -/
def groupPlane (f boot : RegFile) (g : Nat) : RegFile :=
  let inG := fun (c : Nat × Word) => decide (groupBase g ≤ c.1 ∧ c.1 < groupBase g + 0xC000) && !groupKept (c.1 - groupBase g)
  (boot.filter inG).foldl (fun f c => f.put c.1 c.2) (f.filter fun c => !inG c)

/-- R416: one channel of a group that is reset. Its lane's transitions are those that the engine reset has left (R228). -/
def State.resetChan (s : State) (g p : Nat) : State :=
  let c := s.chan g p
  (s.setChan g p { Chan.reset with
    dacs := c.dacs, lastOut := c.lastOut, cmp := { c.cmp with selfCheck := false }, parkLog := c.parkLog
    lane := c.lane, lastEdge := c.lastEdge, edges := c.edges, sent := c.sent }).bootChanTdc g p

/-- R416, R144: a reset keeps what is on its way to the registers that serve more than the group. -/
def Group.keptPend (x : Group) (g : Nat) (now : Time) : Group :=
  let kept := fun (f : RegFile) => f.filter fun c => groupKept (c.1 - groupBase g)
  if g % 8 = 0 then
    { x with lsPend := x.lsPend.map fun c => (c.1.or (some (later now dieDelay)), kept c.2)
             cpPend := x.cpPend.map fun c => (c.1, kept c.2) }
  else { x with lsPend := [], cpPend := [] }

/-- R416: the registers and the state behind them of group g, after its engine reset and re-arm. -/
def State.resetGroupState (s : State) (g : Nat) : State :=
  let eng := s.get (SQ_STAT_ENG g)
  let s := { s with live := groupPlane s.live s.sys.boot g, staged := s.staged.filter fun c =>
                      !(decide (groupBase g ≤ c.1 ∧ c.1 < groupBase g + 0xC000) && !groupKept (c.1 - groupBase g)),
                    die := groupPlane s.die [] g }
  let s := if s.inMchk g then s.set (SQ_STAT_ENG g) eng else s
  let x := s.group g
  let s := s.setEngine g Engine.reset
  let y := x.keptPend g s.time
  let s := s.setGroup g { Group.reset with
    chans := x.chans, begun := x.begun, nextB := x.nextB, preCommit := true, outq := x.outq, obs := x.obs
    lsPend := y.lsPend, cpPend := y.cpPend
    ochreWait := x.ochreWait, ochrePark := x.ochrePark, shadowHold := x.shadowHold, termOnly := x.termOnly }
  s.forEach (List.range 16) fun s p => (s.resetChan g p).forEach (List.range 6) fun s d => s.clearTarget g p d

/-- R416: group g of a reset. -/
def State.resetOneGroup (s : State) (g : Nat) : State :=
  ((s.setGroup g { s.group g with preCommit := true }).parkGroup g).rearmGroup g |>.resetGroupState g

/-- R416: GL_RESET_GRP acts. -/
def State.resetGroups (s : State) (mask : Nat) : State :=
  if s.cm.isSome then s.flag GL_FLAGS_RSTBUSY GL_CNT0_RSTBUSY
  else
    let gs := bitsOf mask 32
    if gs.any fun g => !(s.members g).all mask.testBit then s.flag GL_FLAGS_RSTGANG GL_CNT0_RSTGANG
    else if gs.isEmpty then s
    else
      let s := s.forEach ((gs.map s.leader).eraseDups) State.engineReset
      ((s.forEach gs State.resetOneGroup).forEach gs State.parkGroup).dgStale

/-- R416, R417: a write of GL_RESET_GRP. -/
def State.writeResetGrp (s : State) (v : Word) : State := s.mirrored GL_RESET_GRP.addr v fun s => s.resetGroups v.toNat

/-- GROUP_RESET (R416). -/
def execGroupReset (v : Word) (s : State) : Host.Outcome State Fault Refusal := done s (s.writeResetGrp v)

/-- R416: a reset of a device block, refused while the staged plane is locked. -/
def State.blockReset (s : State) (f : State → State) : State :=
  if s.cm.isSome then s.flag GL_FLAGS_RSTBUSY GL_CNT0_RSTBUSY else f s

/-- R415: phase tracking, comparators and slots. -/
def State.resetTp (s : State) : State :=
  let old := s.tp
  let s := (s.restore 0x010020 0x01003C).restore 0x010050 0x010060 |>.restore 0x010100 0x010300
  let s := (s.set TP_STATUS_PH_STATE 0).set TP_STATUS_DIR 0
  let s := { s with tp := { TpState.reset with tbLast := old.tbLast, tbGood := old.tbGood, inA := old.inA, inB := old.inB,
                                               inP := old.inP, inI := old.inI, stepLog := old.stepLog,
                                               stepPend := old.stepPend },
                    slotAt := Vector.replicate 16 none }
  s.dgStale

/-- DEVICE_RESET_TP (R415). -/
def execDeviceResetTp (s : State) : Host.Outcome State Fault Refusal := done s (s.blockReset State.resetTp)

/-- R415: the trigger engines, and any pulse in progress. -/
def State.resetAq (s : State) : State :=
  ({ s with trigs := Vector.replicate 4 .reset, trigOut := Vector.replicate 2 [] }.restore 0x400000 0x410000).dgStale

/-- DEVICE_RESET_AQ (R415). -/
def execDeviceResetAq (s : State) : Host.Outcome State Fault Refusal := done s (s.blockReset State.resetAq)

/-- R415: the snapshot banks. -/
def State.resetSn (s : State) : State := { s with sn := .reset }.restore 0x024000 0x028000

/-- DEVICE_RESET_SN (R415). -/
def execDeviceResetSn (s : State) : Host.Outcome State Fault Refusal := done s (s.blockReset State.resetSn)

/-- A write of GL_RESET_DEV. -/
def State.writeResetDev (s : State) (v : Word) : State :=
  s.blockReset fun s =>
    let s := if v.getLsbD 0 then s.resetTp else s
    let s := if v.getLsbD 1 then s.resetAq else s
    if v.getLsbD 2 then s.resetSn else s

/-! ### Clocks and crossings (R421 to R423) -/

/-- REFCLK_LOSS (R421): the discipline acts as for a loss of TBREF, its error held. -/
def execRefclkLoss (s : State) : Host.Outcome State Fault Refusal :=
  doneIf (!s.on CK_STAT_HOLDOVER) s
    (let err := s.get TP_TBREF_ERR_ERR
    let s := s.tbLose.set TP_TBREF_ERR_ERR err
    (((s.set CK_STAT_HOLDOVER 1).set CK_STAT_REFOK 0).set CK_STAT_LOCK 0).flag CK_FLAGS_REFLOSS CK_CNT0_REFLOSS)

/-- REFCLK_RETURN (R421): `tbref`: TBREF is present. -/
def execRefclkReturn (tbref : Bool) (s : State) : Host.Outcome State Fault Refusal :=
  doneIf (s.on CK_STAT_HOLDOVER) s
    (let st := s.get TP_STATUS_TB_STATE
    let s := ((s.set CK_STAT_HOLDOVER 0).set CK_STAT_REFOK 1).set CK_STAT_LOCK 1
    if s.on TP_TBREF_CTL_EN && tbref then
      let s := if st = tbFree then s.set TP_TBREF_TRIM_TRIM 0 else s
      { s with tp := { s.tp with tbLast := some s.time, tbGood := none } }.set TP_STATUS_TB_STATE tbAcquire
    else s)

/-- R423: the side of crossing xid that resets is still out. -/
def State.crossingOut (s : State) (xid : Nat) : Bool :=
  match xid with
  | 0 => !s.hi.perstN
  | 1 | 2 | 3 | 4 => s.portState (xid - 1) == portDown || s.portState (xid - 1) == portDisabled
  | 5 => !s.on (CP_SM_CTL_RUN 0)
  | _ => false

/-- CROSSING_RESET (R423): the surviving side of a crossing learns of the reset and discards n events, values or words;
after that, until the other side returns, it discards what it sends. -/
def execCrossingReset (xid : Fin 8) (n : Nat) (s : State) : Host.Outcome State Fault Refusal :=
  done s (if s.sys.xNotice.contains xid.val then
      { s with sys := { s.sys with xNotice := s.sys.xNotice.filter (· != xid.val) } }.crossingDrop xid n
    else if s.crossingOut xid then s.count CK_XRESET_DROP_DROP n
    else s)

/-! ### OCHRE governor (R425, R246), in 10^-12 A²·s -/

def ochMax : Nat := 4700000000000
def ochWarn : Nat := 3760000000000
def ochLow : Nat := 2820000000000
def ochHalf : Nat := 2350000000000

/-- The bucket after a sample of I in mA. -/
def ochNext (e ma : Nat) : Nat := min ochMax (e + ma * ma - 2250000)

/-- TH_OCH_Bk.LEVEL, in units of 4.7 / 65,536 A²·s to the nearest: 3.76 reads 52,429 (R425's example). -/
def ochLevel (e : Nat) : Nat := min 65535 ((2 * 65536 * e + ochMax) / (2 * ochMax))

/-- The groups of a die. -/
def dieGroups (k : Nat) : List Nat := (List.range 8).map (8 * k + ·)

/-- R246: the OCHRE cause on every engine of a die. -/
def State.ochCause (s : State) (k : Nat) : State :=
  s.forEach (dieGroups k) fun s e => s.causeRouted (SQ_RT_OCHRE_EN e) (SQ_RT_OCHRE_CTX e) (SQ_RT_OCHRE_PRIO e) e .ochre

/-- A group parks under OCHRE. -/
def State.ochPark (s : State) (g : Nat) : State :=
  (s.setGroup g { s.group g with ochreWait := none, ochrePark := true }).parkGroup g

/-- R246: at exhaustion a group that issues vectors parks at its next boundary, another at once. -/
def State.ochExhaustGroup (s : State) (g : Nat) (now : Bool) : State :=
  if (s.group g).ochrePark then s
  else if now || !s.issuing g then s.ochPark g
  else s.setGroup g { s.group g with ochreWait := some none }

/-- R425: exhaustion of die k. -/
def State.ochExhaust (s : State) (k : Nat) (now : Bool) : State :=
  let s := (s.setBit TH_STAT_OEXH k true).flag TH_FLAGS_OEXH TH_CNT1_OEXH
  let s := s.forEach (dieGroups k) fun s g => s.ochExhaustGroup g now
  (((s.ochCause k).snapRequest 5).ledgerAdd 4 1).selfPark

/-- R425: exhaustion of die k clears. -/
def State.ochClear (s : State) (k : Nat) : State :=
  (s.setBit TH_STAT_OEXH k false).forEach (dieGroups k) fun s g =>
    (s.setGroup g { s.group g with ochreWait := none, ochrePark := false }).parkGroup g

/-- R425: the bucket of die k takes a level. -/
def State.ochPut (s : State) (k e : Nat) : State :=
  let s := { s with sys := { s.sys with bucket := vset s.sys.bucket k e,
                                        warned := if e < ochLow then vset s.sys.warned k false else s.sys.warned } }
  let s := (s.set (TH_OCH_B_LEVEL k) (ochLevel e)).set (TH_OCH_B_PEAK k) (max (s.get (TH_OCH_B_PEAK k)) (ochLevel e))
  s.setBit TH_STAT_OWARN k (decide (ochWarn ≤ e))

/-- R425: the warning of die k, where E has risen through 80 %. -/
def State.ochWarnRise (s : State) (k old e : Nat) : State :=
  if old < ochWarn ∧ ochWarn ≤ e ∧ !vget s.sys.warned k false then
    (({ s with sys := { s.sys with warned := vset s.sys.warned k true } }).flag TH_FLAGS_OWARN TH_CNT1_OWARN).ochCause k
  else s

/-- R425: one sample of die k. -/
def State.ochSample (s : State) (k ma : Nat) : State :=
  let old := vget s.sys.bucket k 0
  let twice := vget s.sys.burst k false && decide (5000 < ma)
  let e := if twice then ochMax else ochNext old ma
  let s := ({ s with sys := { s.sys with burst := vset s.sys.burst k (decide (5000 < ma)) } }).set (TH_OCH_I_I k) (min ma 65535)
  let s := (s.ochPut k e).ochWarnRise k old e
  if twice then (s.flag TH_FLAGS_OVERBURST TH_CNT2_OVERBURST).ochExhaust k true
  else if old < ochMax ∧ e = ochMax then s.ochExhaust k false
  else if s.on TH_OCH_CTL_AUTO && s.bit TH_STAT_OEXH k && decide (e ≤ ochHalf) then s.ochClear k
  else s

/-- OCHRE_SAMPLE (R425): every 1 µs the die presents its driver-rail current in mA. -/
def execOchreSample (k : DieIx) (ma : Nat) (s : State) : Host.Outcome State Fault Refusal := done s (s.ochSample k ma)

/-- R425: a write of TH_CMD.OCLR. -/
def State.oclr (s : State) (v : Word) : State :=
  if s.on TH_OCH_CTL_AUTO then s
  else s.forEach (bitsOf (fieldOf v 3 0) 4) fun s k =>
    if vget s.sys.bucket k 0 ≤ ochHalf then s.ochClear k else s.flag TH_FLAGS_OCLRREF TH_CNT2_OCLRREF

/-- OCLR (R425). -/
def execOclr (v : Word) (s : State) : Host.Outcome State Fault Refusal := hostDone s (s.oclr v)

/-! ### Thermal (R426, R431) -/

/-- The die's last temperature in 0.1 °C. -/
def State.tempOf (s : State) (k : Nat) : Int := s.getInt (TH_TEMP_TEMP k)

/-- R431: seconds at 145 °C and above, in samples of 100 µs, and the highest temperature. -/
def State.ledgerTemp (s : State) (k : Nat) (t : Int) : State :=
  let s := if 1450 ≤ t then
      let n := s.ledgerGet (0x2000 + k) + 1
      if n = 10000 then (s.ledgerSet (0x2000 + k) 0).ledgerAdd (8 + k) 1 else s.ledgerSet (0x2000 + k) n
    else s
  let seen := s.sys.ledger.any fun c => c.1 == 0x100 + k
  let top := (BitVec.ofNat 64 (s.ledgerGet (0x100 + k))).toInt
  if !seen || decide (top < t) then s.ledgerSet (0x100 + k) (BitVec.ofInt 64 t).toNat else s

/-- R426: the warning bit of die k. -/
def State.thermWarn (s : State) (k : Nat) (t : Int) : State :=
  if 1450 ≤ t ∧ !s.bit TH_STAT_WARN k then (s.setBit TH_STAT_WARN k true).flag TH_FLAGS_TWARN TH_CNT0_TWARN
  else if t < 1400 then s.setBit TH_STAT_WARN k false
  else s

/-- R426: the trip of die k. -/
def State.thermTrip (s : State) (k : Nat) (t : Int) : State :=
  if 1500 ≤ t ∧ !s.bit TH_STAT_TRIP k then
    let s := (s.setBit TH_STAT_TRIP k true).flag TH_FLAGS_TTRIP TH_CNT0_TTRIP
    (((s.parkAll).snapRequest 4).ledgerAdd 3 1).selfPark
  else s

/-- R426: one sample of die k. -/
def State.tempSample (s : State) (k : Nat) (t : BitVec 16) : State :=
  (((s.set (TH_TEMP_TEMP k) t.toNat).ledgerTemp k t.toInt).thermWarn k t.toInt).thermTrip k t.toInt

/-- TEMP_SAMPLE (R426): every 100 µs, in 0.1 °C. -/
def execTempSample (k : Fin 5) (t : BitVec 16) (s : State) : Host.Outcome State Fault Refusal := done s (s.tempSample k t)

/-- R426: a write of TH_CMD.TCLR. -/
def State.tclr (s : State) : State :=
  if (List.range 5).all fun k => decide (s.tempOf k < 1400) then (s.set TH_STAT_TRIP 0).parkAll else s

/-- TCLR (R426). -/
def execTclr (s : State) : Host.Outcome State Fault Refusal := hostDone s s.tclr

/-- R427: MCHK_N is low. -/
def State.mchkLow (s : State) : Bool := s.on MC_MCHKMAP_MAP || s.on TH_STAT_TRIP

/-! ### Non-volatile store (R428 to R430) -/

/-- R430: the unlock keys. -/
def State.nvUnlock (s : State) (v : Word) : State :=
  let key := fieldOf v 15 0
  if key = 0x4E56 then { s with sys := { s.sys with nvKey := some s.time } }
  else
    let s1 := { s with sys := { s.sys with nvKey := none } }
    match s.sys.nvKey with
    | some t =>
      if key = 0x0A11 ∧ s.since t ≤ msTclk 1 then
        { s1 with sys := { s1.sys with nvLast := s.time } }.set NV_STAT_UNLOCKED 1
      else s1
    | none => s1

/-- NVS_UNLOCK_WRITE (R430). -/
def execNvsUnlockWrite (v : Word) (s : State) : Host.Outcome State Fault Refusal := hostDone s (s.nvUnlock v)

/-- R430: the store is locked. -/
def State.nvLock (s : State) : State := ((s.set NV_STAT_UNLOCKED 0).set NV_CTL_WEN 0).set NV_CTL_FACT 0

/-- R430: a write of NV_CTL. -/
def State.writeNvCtl (s : State) (v : Word) : State :=
  if !s.on NV_STAT_UNLOCKED then s
  else if fieldOf v 0 0 = 0 then s.nvLock
  else (s.set NV_CTL_WEN 1).set NV_CTL_FACT (fieldOf v 1 1)

/-- NVS_LOCK_TIMEOUT (R430): 60 s without a write. -/
def execNvsLockTimeout (s : State) : Host.Outcome State Fault Refusal :=
  doneIf (s.on NV_STAT_UNLOCKED && decide (usTclk 60000000 ≤ s.since s.sys.nvLast)) s s.nvLock

/-- R429: the region of NVS word w allows a host write. -/
def State.nvAllowed (s : State) (w : Nat) : Bool :=
  let wen := s.on NV_CTL_WEN
  if w < 0x100 then false
  else if w < 0x1000 then wen
  else if w < 0x22000 then wen && s.on NV_CTL_FACT
  else if w < 0x24000 then false
  else wen

/-- The depth of the queue is shown. -/
def State.nvQueueIs (s : State) (q : List (Nat × Native)) : State :=
  ({ s with sys := { s.sys with nvQueue := q } }.set NV_STAT_QDEPTH q.length).set NV_STAT_BUSY (if q.isEmpty then 0 else 1)

/-- R316: a write to a slot's words clears its VALID bit, as it is taken and as it reaches the NVS. -/
def State.slotWritten (s : State) (w : Nat) : State :=
  if 0x3C000 ≤ w then s.setBit MC_VSTAT_VALID ((w - 0x3C000) / 0x2000) false else s

/-- R430, R316: a host write of NVS word w. -/
def State.nvWrite (s : State) (w : Nat) (v : Native) : State :=
  if !s.nvAllowed w then s.flag NV_FLAGS_WPROT NV_CNT1_WPROT
  else if 64 ≤ s.sys.nvQueue.length then s.flag NV_FLAGS_WDROP NV_CNT1_WDROP
  else
    let s := { s with sys := { s.sys with nvLast := s.time } }.nvQueueIs (s.sys.nvQueue ++ [(w, v)])
    s.slotWritten w

/-- NVS_WORD_WRITE (R430): the oldest queued word is written. -/
def execNvsWordWrite (s : State) : Host.Outcome State Fault Refusal :=
  done s (match s.sys.nvQueue with
    | (w, v) :: rest => ((s.setMemWord (nvsAddr w) v).nvQueueIs rest).slotWritten w
    | [] => s)

/-! ### Lifetime ledger (R431) -/

/-- R431: the bin of a temperature in 0.1 °C. -/
def tempBin (t : Int) : Nat :=
  if t < -400 then 0
  else if t < 1200 then 1 + ((t + 400) / 100).toNat
  else if t ≤ 1250 then 17
  else if t < 1400 then 18
  else if t < 1500 then 19
  else 20

/-- R431: one minute more. -/
def State.ledgerMinute (s : State) : State :=
  (s.ledgerAdd 0 1).forEach (List.range 5) fun s d => s.ledgerAdd (0x10 + 32 * d + tempBin (s.tempOf d)) 1

/-- R431: the counts are written to the older copy. -/
def State.ledgerWrite (s : State) : State :=
  let a := ledgerCopy (match s.copySeq false, s.copySeq true with
    | some x, some y => decide (y < x)
    | some _, none => true
    | _, _ => false)
  let seq := (s.sys.ledgerSeq + 1) % 2 ^ 32
  let s := { s with sys := { s.sys with ledgerSeq := seq, ledgerAt := s.time } }
  let s := ledgerOffsets.foldl (fun (s : State) o => s.setMemWord (nvsAddr (a + o)) (BitVec.ofNat 72 (s.ledgerGet o % 2 ^ 64))) s
  let crc := crc32c (wordBytes ((List.range 0xFFF).map fun i => s.nvsWord (a + i)))
  s.setMemWord (nvsAddr (a + 0xFFF)) (BitVec.ofNat 72 (seq * 2 ^ 40 + crc.toNat))

/-- LEDGER_WRITE (R431): every 60 s. -/
def execLedgerWrite (s : State) : Host.Outcome State Fault Refusal :=
  doneIf (decide (usTclk 60000000 ≤ s.since s.sys.ledgerAt)) s s.ledgerMinute.ledgerWrite

end Sys2Proof.Machine
end

