-- ==== Sys2Proof/Machine/BoundaryScan.lean ====
section
/-! DEFINITION. Chapter 17: the test access port and its boundary scan (R457 to R460). -/

namespace Sys2Proof.Machine

/-- R460: the links whose transmitters leave functional control. -/
def State.scanLinks (s : State) : State :=
  let s := (s.set HI_LINK_WIDTH 0).set HI_LINK_GEN 0
  s.forEach ((List.range 4).filter s.portUp) State.portRetrains

/-- Update-IR loads an instruction. -/
def State.tapLoad (s : State) (i : TapInstr) : State :=
  let s := { s with sys := { s.sys with tap := i } }
  if i.drives then s.scanLinks else s

/-- R457: the covered balls are captured and shifted out while a new register content is shifted in. -/
def State.scanData (s : State) (pins load : BitVec 89) : State :=
  { s with sys := { s.sys with bsr := load } }.emit (.tdo pins)

/-- R460: what drives the covered outputs in place of the function: the register; `none` inside for high impedance. -/
def State.scanOutputs (s : State) : Option (Option (BitVec 89)) :=
  if !s.sys.tap.drives then none else if s.sys.tap = .highz then some none else some (some s.sys.bsr)

/-! ### The cells of the boundary-scan register (R445, R459) -/

inductive ScanCell where
  | input | data | control
  deriving DecidableEq, Repr

/-- The balls in columns `col`, `col + 2` and so on of a row that serial receive pairs start at. -/
def rxPairs (row col n : Nat) : List (Nat × Nat × List ScanCell) := (List.range n).map fun i => (row, col + 2 * i, [.input])

/-- The same for serial transmit pairs. -/
def txPairs (row col n : Nat) : List (Nat × Nat × List ScanCell) := (List.range n).map fun i => (row, col + 2 * i, [.data, .control])

/-- A ball whose cells are given. -/
def lowBalls (row : Nat) (l : List (Nat × List ScanCell)) : List (Nat × Nat × List ScanCell) := l.map fun b => (row, b.1, b.2)

/-- R445, R459: the covered balls, or the first of a pair, by ascending row and column, with their cells. -/
def scanBalls : List (Nat × Nat × List ScanCell) :=
  List.flatten [rxPairs 2 2 4, rxPairs 2 43 4, txPairs 4 43 4, txPairs 5 2 4, rxPairs 7 43 4,
    lowBalls 8 [(2, [.input]), (5, [.input])], txPairs 9 43 4,
    lowBalls 44 [(2, [.input]), (5, [.input]), (8, [.input])], rxPairs 44 43 4,
    lowBalls 46 [(2, [.input]), (5, [.input]), (8, [.input])], txPairs 46 43 4,
    lowBalls 48 [(2, [.data, .control]), (5, [.data, .control]), (8, [.input]), (10, [.input, .data, .control])],
    rxPairs 49 43 2,
    lowBalls 50 [(1, [.input]), (2, [.input]), (3, [.input]), (4, [.data, .control]), (5, [.data, .control]),
      (6, [.input, .control]), (7, [.input, .control]), (8, [.input])],
    txPairs 51 43 2,
    lowBalls 52 [(1, [.data, .control]), (2, [.data, .control]), (3, [.data, .control]), (4, [.input])]]

/-- R459: the cells, cell 0 nearest TDO. -/
def scanCells : List (Nat × Nat × ScanCell) := scanBalls.flatMap fun b => b.2.2.map fun k => (b.1, b.2.1, k)

/-- The bit of a cell in a content of the register. -/
def scanBit (v : BitVec 89) (row col : Nat) (k : ScanCell) : Bool := v.getLsbD (scanCells.idxOf (row, col, k))

/-- R460: a covered output ball: what its function drives, or the register; `none` is high impedance. Which level of a
control cell drives is not stated. -/
def State.outputBall (s : State) (row col : Nat) (function : Option Bool) : Option Bool :=
  match s.scanOutputs with
  | none => function
  | some none => none
  | some (some v) => if scanBit v row col .control = Config.scanDrive then some (scanBit v row col .data) else none

/-- R427, R445, R460: MCHK_N, an open drain. -/
def State.mchkBall (s : State) : Option Bool := s.outputBall 50 4 (if s.mchkLow then some false else none)

/-- R411, R445, R460: ALERT_N, an open drain. -/
def State.alertBall (s : State) : Option Bool := s.outputBall 50 5 (if s.hi.alertN then none else some false)

/-- R198, R445, R460: TRIG_OUTj. -/
def State.trigBall (s : State) (j : Nat) : Option Bool := s.outputBall 48 (2 + 3 * j) (some (s.trigLevel j))

/-- R458: the identification word; MANUF once the loader has read the identity region. -/
def State.idcode (s : State) : BitVec 32 :=
  BitVec.ofNat 32 (1 * 2 ^ 28 + 0x7512 * 2 ^ 12 + (if 2 ≤ s.get GL_STATUS_BOOT then s.sys.manuf.toNat else 0) * 2 + 1)

/-- TAP_RESET (R457). -/
def execTapReset (s : State) : Host.Outcome State Fault Refusal := done s (s.tapLoad .idcode)
/-- EXTEST (R457, R460). -/
def execExtest (pins load : BitVec 89) (s : State) : Host.Outcome State Fault Refusal := done s ((s.tapLoad .extest).scanData pins load)
/-- IDCODE (R458). -/
def execIdcode (s : State) : Host.Outcome State Fault Refusal := done s ((s.tapLoad .idcode).emit (.tdo (s.idcode.setWidth 89)))
/-- SAMPLE/PRELOAD (R457). -/
def execSamplePreload (pins load : BitVec 89) (s : State) : Host.Outcome State Fault Refusal :=
  done s ((s.tapLoad .sample).scanData pins load)
/-- HIGHZ (R457, R460). -/
def execHighz (s : State) : Host.Outcome State Fault Refusal := done s (s.tapLoad .highz)
/-- CLAMP (R457, R460). -/
def execClampTap (s : State) : Host.Outcome State Fault Refusal := done s (s.tapLoad .clamp)
/-- EXTEST_PULSE (R457, R460). -/
def execExtestPulse (pins load : BitVec 89) (s : State) : Host.Outcome State Fault Refusal :=
  done s ((s.tapLoad .extestPulse).scanData pins load)
/-- EXTEST_TRAIN (R457, R460). -/
def execExtestTrain (pins load : BitVec 89) (s : State) : Host.Outcome State Fault Refusal :=
  done s ((s.tapLoad .extestTrain).scanData pins load)
/-- BYPASS (R457). -/
def execBypass (s : State) : Host.Outcome State Fault Refusal := done s (s.tapLoad .bypass)

end Sys2Proof.Machine
end

