-- ==== Sys2Proof/Machine/HostAccess.lean ====
section
/-! DEFINITION. Host and remote access: BAR0 writes with their clamps (R5 to R8, R325 to R327), reads with their
latches (R393), BAR2 (R394, R395), writes mirrored in a twin pair (R375) and the fetch of refill blocks (R406). -/

namespace Sys2Proof.Machine

/-! ### What a field stores (R326) -/

/-- A number of n bits read as signed (R2). -/
def signedOf (n v : Nat) : Int := if v < 2 ^ (n - 1) then (v : Int) else (v : Int) - 2 ^ n

/-- The value stored for a written value v of an n-bit field. -/
def Clamp.apply (c : Clamp) (n v : Nat) : Nat :=
  match c with
  | .free => v
  | .atMost hi => min v hi
  | .atLeast lo => max v lo
  | .between lo hi => max lo (min hi v)
  | .above m x => if m < v then x else v
  | .withBits m => v ||| m
  | .signedBetween lo hi => (max lo (min hi (signedOf n v)) % (2 ^ n : Int)).toNat

/-- The value that a write of word v stores in a field. -/
def FieldSpec.stored (f : FieldSpec) (v : Word) : Nat := f.clamp.apply (f.hi + 1 - f.lo) (fieldOf v f.hi f.lo)

/-- The fields of a word written into another; whether one of them clamps. -/
def storeFields (fs : List FieldSpec) (v w : Word) : Word × Bool :=
  fs.foldl (fun r f => (withField r.1 f.hi f.lo (f.stored v), r.2 || f.stored v != fieldOf v f.hi f.lo)) (w, false)

/-- The fields of a register that meet a condition. -/
def RegName.sel (n : RegName) (ix : List Nat) (p : FieldSpec → Bool) : List FieldSpec := (n.fields ix).filter p

def FieldSpec.isStaged (f : FieldSpec) : Bool := f.plane == .staged && f.access == .rw
def FieldSpec.isLive (f : FieldSpec) : Bool := f.plane != .staged && f.access == .rw
def FieldSpec.isFlag (f : FieldSpec) : Bool := f.access == .w1c
/-- Fields whose writes R375 forwards: of plane L, or WO. -/
def FieldSpec.isActive (f : FieldSpec) : Bool := f.plane == .live || f.access == .wo

/-! ### Plain registers -/

/-- R207: the largest WP_INC, and its bound on the combined value when either half has been written. The Bool: it clamps. -/
def incMax : Nat := 5629499534213
def State.incClamp (s : State) (n : RegName) (ix : List Nat) : State × Bool :=
  let g := ix.getD 0 0
  if (n == .WP_INC_LO || n == .WP_INC_HI) &&
      decide (incMax < s.stagedGet (WP_INC_HI_INC_HI g) * 2 ^ 32 + s.stagedGet (WP_INC_LO_INC_LO g)) then
    ((s.setStagedWord (WP_INC_LO g) (BitVec.ofNat 32 incMax)).setStagedWord (WP_INC_HI g) (BitVec.ofNat 32 (incMax / 2 ^ 32)), true)
  else (s, false)

/-- R325 to R327: a write of the S fields of a register. -/
def State.writeStaged (s : State) (n : RegName) (ix : List Nat) (v : Word) : State :=
  let r := n.reg ix
  match n.sel ix FieldSpec.isStaged with
  | [] => s
  | fs =>
    if s.cm.isSome then s.flag CM_FLAGS_WLOCK CM_CNT3_WLOCK
    else
      let x := storeFields fs v (s.stagedWord r)
      let y := (s.setStagedWord r x.1).incClamp n ix
      if x.2 || y.2 then y.1.clampNote r.addr else y.1

/-- R6: the flags written 1 are cleared. -/
def clearFlags (fs : List FieldSpec) (v w : Word) : Word :=
  fs.foldl (fun w f => withField w f.hi f.lo (fieldOf (w &&& ~~~v) f.hi f.lo)) w

/-- R6: a write of v clears the flags of a register, but those that hardware has set in this TCLK. -/
def State.clearWord (s : State) (n : RegName) (ix : List Nat) (v w : Word) : Word :=
  clearFlags (n.sel ix FieldSpec.isFlag) (v &&& ~~~s.raisedBits (n.reg ix)) w

/-- A write of the live fields and flags of a register. -/
def State.writeLive (s : State) (n : RegName) (ix : List Nat) (v : Word) : State :=
  let r := n.reg ix
  let x := storeFields (n.sel ix FieldSpec.isLive) v (s.word r)
  let s := s.setWord r (s.clearWord n ix v x.1)
  if x.2 then s.clampNote r.addr else s

/-- A write of a register that has no action of its own. -/
def State.writePlain (s : State) (n : RegName) (ix : List Nat) (v : Word) : State := (s.writeStaged n ix v).writeLive n ix v

/-- R37: a write of TP_TBREF_CTL; ending EN ends the discipline. -/
def State.writeTbref (s : State) (v : Word) : State :=
  let t := (s.writePlain .TP_TBREF_CTL [] v).dgStale
  if s.on TP_TBREF_CTL_EN && !t.on TP_TBREF_CTL_EN then t.tbOff else t

/-- R410: a message due while masked is sent on unmask. -/
def State.writeVctl (s : State) (k : Nat) (v : Word) : State :=
  let s := s.writePlain .MSIX_VCTL [k] v
  if !s.on (MSIX_VCTL_MASK k) && s.bit (MSIX_PBA_PEND (k / 32)) (k % 32) then
    (s.setBit (MSIX_PBA_PEND (k / 32)) (k % 32) false).emit (.msix k)
  else s

/-- The actions of SN_CMD (R340, R343). -/
def State.writeSnCmd (s : State) (v : Word) : State :=
  let s := if v.getLsbD 0 then s.snapHost else s
  let s := if v.getLsbD 1 then s.snapSched else s
  if v.getLsbD 2 then s.snapDomSched else s

/-- The actions of DG_CMD (R345, R347). -/
def State.writeDgCmd (s : State) (v : Word) : State :=
  let s := if v.getLsbD 0 then s.scalc else s
  if v.getLsbD 1 then s.learn else s

/-- The actions of TH_CMD (R425, R426). -/
def State.writeThCmd (s : State) (v : Word) : State :=
  let s := s.oclr v
  if v.getLsbD 4 then s.tclr else s

/-- R227, R249: a write of a context's state registers. W1C bits clear in any state; the rest changes only while the
context is IDLE. -/
def State.writeCtx (s : State) (n : RegName) (ix : List Nat) (v : Word) : State :=
  if s.ctxState (ix.getD 0 0) (ix.getD 1 0) == .idle then s.writePlain n ix v
  else s.setWord (n.reg ix) (s.clearWord n ix v (s.word (n.reg ix)))

/-! ### One register write, with its action -/

/-- What a host write does to the device when it acts. CL_RRA_CMD is written by `hostWrite`. -/
def State.localWrite (s : State) (n : RegName) (ix : List Nat) (v : Word) : State :=
  let i := ix.getD 0 0
  let j := ix.getD 1 0
  match n with
  | .GL_PIN_ENABLE => s.writePinEnable v
  | .GL_RESET_GRP => s.resetGroups v.toNat
  | .GL_RESET_DEV => s.writeResetDev v
  | .TP_TBREF_CTL => s.writeTbref v
  | .TP_STEP => s.writeStep v
  | .TP_PCMP_CTL => s.pcmpWrite i v
  | .TG_DSK_CTL => s.writeDsk i v
  | .TG_TDR_CTL => s.writeTdr i v
  | .TG_CAL_CTL => s.writeCal v
  | .LS_PARK => s.writeLsPark i v
  | .LS_MREQ => s.measMask i (fieldOf v 15 0)
  | .LS_CLR => s.writeClr i j (ix.getD 2 0) v
  | .CP_SC_CTL => s.writeScCtl i v
  | .CP_SMDIV => (s.writePlain n ix v).dgStale
  | .CP_SM_CTL => s.writeSmCtl v
  | .CP_SM_WT_LO | .CP_SM_WT_HI =>
    let s := s.writePlain n ix v
    { s with sys := { s.sys with smWtDone := false } }
  | .CP_TGARM => s.tripRearm (i / 8) (fieldOf v 15 0)
  | .TD_CAL_CTL => (s.writePlain n ix v).dgStale
  | .FQ_CTL => s.writeFqCtl i v
  | .FC_LOG_PTR => s.writeRptr false i (fieldOf v 28 16)
  | .FC_EV_PTR => s.writeRptr true i (fieldOf v 29 16)
  | .FC_CAP_ARM => s.writeCapArm i v
  | .AQ_SOFT => s.forEach (bitsOf (fieldOf v 3 0) 4) fun s n => s.teExternal n 2
  | .AQ_TE_ARM => s.writeTeArm i v
  | .WP_CMD => s.writeWpCmd i v
  | .WP_SCTL => s.writeWpSctl i v
  | .SQ_CMD => s.sqCmd i (fieldOf v 31 28) (fieldOf v 4 0)
  | .SQ_DOORBELL => s.ringDoorbell i v
  | .SQ_TMR_CTL => s.writeTimer i j v
  | .SQ_MSGIN0 => s.set (SQ_MSGIN0_W0 i) v.toNat
  | .SQ_MSGIN1 => s.set (SQ_MSGIN1_W1 i) v.toNat
  | .SQ_MSGIN2 => s.writeMsgin2 i v
  | .SQ_CTX_STAT | .SQ_CTX_CFG | .SQ_CTX_FLAGS | .SQ_CTX_L | .SQ_CTX_Q => s.writeCtx n ix v
  | .MC_CMD => s.writeMcCmd v
  | .MC_DISP_DATA => s.writeDispData v
  | .MC_INJ => s.inject v
  | .CM_CMD => s.writeCmCmd v
  | .SN_CMD => s.writeSnCmd v
  | .SN_REL => s.snapRelease v
  | .DG_CMD => s.writeDgCmd v
  | .DG_CLASS | .DG_CTL => (s.writePlain n ix v).dgCompare
  | .DG_CVALID => s.writeCvalid i v
  | .DG_CREF_LO => s.writeCref i false v
  | .DG_CREF_HI => s.writeCref i true v
  | .CL_DEVNUM => s.writeDevnum v
  | .CL_DOM_CTL => s.writeDomCtl v
  | .CL_DOM_CMD => s.writeDomCmd v
  | .CL_P_CTL => s.writePortCtl i v
  | .TW_CTL => s.writeTwCtl v
  | .TW_CMD => s.writeTwCmd v
  | .HI_FLUSH => s.flushRings v
  | .HI_CAPRD_CTL => s.writeCaprd v
  | .HI_SPI_CTL => s.writeSpiCtl v
  | .HI_RING_CTL => (s.writeRingCtl (.ring (Fin.ofNat 6 i)) v).drainLogs
  | .HI_QV_CTL => s.writeRingCtl (.vecQueue (Fin.ofNat 32 i)) v
  | .HI_QW_CTL => s.writeRingCtl (.waveQueue (Fin.ofNat 32 i)) v
  | .HI_RING_TAIL => s.writeTail (.ring (Fin.ofNat 6 i)) v
  | .HI_QV_TAIL => s.writeTail (.vecQueue (Fin.ofNat 32 i)) v
  | .HI_QW_TAIL => s.writeTail (.waveQueue (Fin.ofNat 32 i)) v
  | .MSIX_VCTL => s.writeVctl i v
  | .TH_CMD => s.writeThCmd v
  | .NV_CTL => s.writeNvCtl v
  | .NV_UNLOCK => s.nvUnlock v
  | _ => s.writePlain n ix v

/-- R375: the registers whose writes a member of a pair forwards. -/
def RegName.forwarded (n : RegName) (ix : List Nat) : Bool :=
  let a := (n.reg ix).addr
  let block := decide (0x10000 ≤ a ∧ a < 0x20000) || decide (0x100000 ≤ a)
  let excepted := [RegName.TP_TBREF_CTL, .TG_DSK_CTL, .TG_TDR_CTL, .TG_CAL_CTL, .TG_CAL_TLO, .TG_CAL_THI, .FC_LOG_PTR, .FC_EV_PTR].contains n
  n == .GL_RESET_GRP || (block && !excepted && (n.fields ix).any FieldSpec.isActive)

/-- R410: the causes that a W1C register belongs to. -/
def RegName.causes (n : RegName) : List Nat :=
  match n with
  | .HI_RDONE => List.range 8
  | .GL_FLAGS => [8]
  | .TP_FLAGS => [9]
  | .TG_FLAGS => [10]
  | .LS_FLAGS => [11]
  | .CP_FLAGS | .CP_PFLAGS | .CP_TFLAGS => [12]
  | .TD_FLAGS => [13]
  | .FQ_FLAGS => [14]
  | .FC_FLAGS => [15]
  | .AQ_FLAGS => [16]
  | .WP_FLAGS => [17]
  | .SQ_FLAGS => [18]
  | .MC_FLAGS => [19]
  | .CM_FLAGS => [20]
  | .SN_FLAGS => [21]
  | .DG_FLAGS => [22]
  | .CL_FLAGS => [23]
  | .TW_FLAGS => [24]
  | .HI_FLAGS => [25]
  | .CK_FLAGS => [26]
  | .TH_FLAGS => [27]
  | .NV_FLAGS => [28]
  | _ => []

/-- R410: a W1C write that leaves an enabled cause at 1 sends its message again. -/
def State.resignal (s : State) (n : RegName) : State :=
  s.signal (n.causes.filter fun b => s.bit HI_IMASK_MASK b && s.causeBit b)

/-- A write at an aligned BAR0 address, plain or mirror (R325, R437), by a host or over Cleif. -/
def State.regWrite (s : State) (a : Nat) (v : Word) : State :=
  if 0x800000 ≤ a then
    match regAt (a - 0x800000) with
    | some (n, ix) => s.writeStaged n ix v
    | none => s
  else
    match regAt a with
    | none => s
    | some (n, ix) =>
      let t := if n.forwarded ix then s.mirrored a v fun s => s.localWrite n ix v else s.localWrite n ix v
      t.resignal n

/-! ### Reads -/

/-- R393: the registers that a read of the first register of a group latches. -/
def RegName.latches (n : RegName) : List RegName :=
  match n with
  | .TP_TIME_LO => [.TP_TIME_HI]
  | .TP_PH_ANGLE => [.TP_PH_CYCLE, .TP_PH_VEL]
  | .TP_STEP_TIME_LO => [.TP_STEP_TIME_HI]
  | .CP_TGREC_LO => [.CP_TGREC_HI]
  | .TD_SWAP_TLO => [.TD_SWAP_THI]
  | .FQ_GSTART_LO => [.FQ_GSTART_HI]
  | .FQ_RF_LO => [.FQ_RF_HI, .FQ_RN, .FQ_RSTAT]
  | .FC_VCNT_LO => [.FC_VCNT_HI]
  | .FC_CAP_TVC_LO => [.FC_CAP_TVC_HI]
  | .FC_CAP_TT_LO => [.FC_CAP_TT_HI]
  | .AQ_TE_FT_LO => [.AQ_TE_FT_HI]
  | .WP_MARKT_LO => [.WP_MARKT_HI]
  | .WP_UH_SLO => [.WP_UH_SHI, .WP_UH_ELO, .WP_UH_EHI]
  | .SQ_UH_SLO => [.SQ_UH_SHI, .SQ_UH_ELO, .SQ_UH_EHI]
  | .CM_AT_LO => [.CM_AT_HI]
  | .DG_DIGEST_LO => [.DG_DIGEST_HI]
  | .DG_SDIGEST_LO => [.DG_SDIGEST_HI]
  | .DG_CREF_LO => [.DG_CREF_HI]
  | .TW_TAKE_LO => [.TW_TAKE_HI]
  | _ => []

/-- The registers that read as latched. -/
def latchedRegs : List RegName :=
  [.TP_TIME_HI, .TP_PH_CYCLE, .TP_PH_VEL, .TP_STEP_TIME_HI, .CP_TGREC_HI, .TD_SWAP_THI, .FQ_GSTART_HI, .FQ_RF_HI, .FQ_RN,
   .FQ_RSTAT, .FC_VCNT_HI, .FC_CAP_TVC_HI, .FC_CAP_TT_HI, .AQ_TE_FT_HI, .WP_MARKT_HI, .WP_UH_SHI, .WP_UH_ELO, .WP_UH_EHI,
   .SQ_UH_SHI, .SQ_UH_ELO, .SQ_UH_EHI, .CM_AT_HI, .DG_DIGEST_HI, .DG_SDIGEST_HI, .DG_CREF_HI, .TW_TAKE_HI]

/-- A word of bits by their number. -/
def bitWord (n : Nat) (p : Nat → Bool) : Word :=
  BitVec.ofNat 32 ((List.range n).foldl (fun w b => if p b then w + 2 ^ b else w) 0)

/-- The readable fields of a stored word: WO and reserved bits read 0 (R6, R8). -/
def readable (fs : List FieldSpec) (w : Word) : Word :=
  fs.foldl (fun r f => if f.access = .wo then r else withField r f.hi f.lo (fieldOf w f.hi f.lo)) 0

/-- TD_BT_DATA (R166). -/
def State.binData (s : State) (g : Nat) : Word :=
  let t := s.tdc g (s.get (TD_BT_ADDR_POS g))
  BitVec.ofNat 32 (binWidth (if s.on (TD_BT_ADDR_LINE g) then t.tabB else t.tabA) (s.get (TD_BT_ADDR_BIN g)))

/-- What a register holds in this TCLK, before any latch. -/
def State.regView (s : State) (n : RegName) (ix : List Nat) : Word :=
  let i := ix.getD 0 0
  let p := s.phase
  match n with
  | .TP_TIME_LO => BitVec.ofNat 32 (s.time.toNat / 8 * 8)
  | .TP_TIME_HI => BitVec.ofNat 32 (s.time.toNat / 2 ^ 32)
  | .TP_PH_ANGLE => BitVec.ofNat 32 p.toNat
  | .TP_PH_CYCLE => BitVec.ofNat 32 (p.toNat / 2 ^ 32)
  | .TP_PH_VEL => if s.phState = phStalled then 0 else BitVec.ofInt 32 s.tp.vel
  | .TD_BT_DATA => s.binData i
  | .MC_DISP_DATA => s.dispData
  | .SN_RDATA => s.snapData
  | .DG_DIGEST_LO => s.digest.setWidth 32
  | .DG_DIGEST_HI => (s.digest >>> 32).setWidth 32
  | .DG_SDIGEST_LO => s.sdigest.setWidth 32
  | .DG_SDIGEST_HI => (s.sdigest >>> 32).setWidth 32
  | .CL_DEVNUM =>
    let w := withField (s.word CL_DEVNUM) CL_DEVNUM_ROOT.hi CL_DEVNUM_ROOT.lo (if s.isRoot then 1 else 0)
    if s.isRoot then withField w CL_DEVNUM_NUM.hi CL_DEVNUM_NUM.lo 0 else w
  | .CM_STATUS =>
    let w := s.word CM_STATUS
    if s.get CM_STATUS_CODE = 40 then w else withField w CM_STATUS_DEV.hi CM_STATUS_DEV.lo s.ownDev
  | .HI_CAUSE => bitWord 29 s.causeBit
  | .HI_GCAUSE => bitWord 32 (s.groupFlags (10 + i))
  | _ => readable (n.fields ix) (s.word (n.reg ix))

/-- What a read changes: latches, read-clear fields and addresses that advance. -/
def State.readEffect (s : State) (n : RegName) (ix : List Nat) : State :=
  let i := ix.getD 0 0
  let s := { s with hi := { s.hi with latch := n.latches.foldl (fun f m => f.setWord (m.reg ix) (s.regView m ix)) s.hi.latch } }
  match n with
  | .SN_RDATA => s.incr SN_RADDR_ITEM
  | .MC_DISP_DATA => s.dispStep
  | .TD_BT_DATA => s.incr (TD_BT_ADDR_BIN i)
  | .GL_CLAMP_COUNT => s.set GL_CLAMP_COUNT_COUNT 0
  | .TH_OCH_B => s.set (TH_OCH_B_PEAK i) (s.get (TH_OCH_B_LEVEL i))
  | _ => s

/-- A read of the register at a BAR0 address, plain or mirror, with the state after it (R393, R437, R420). -/
def State.hostRead (s : State) (addr : Nat) : State × Word :=
  let a := addr / 4 * 4
  if !s.ready && decide (0x10000 ≤ a) then (s, 0)
  else if 0x800000 ≤ a then
    match regAt (a - 0x800000) with
    | some (n, ix) => (s, readable (n.sel ix FieldSpec.isStaged) (s.stagedWord (n.reg ix)))
    | none => (s, 0)
  else
    match regAt a with
    | none => (s, 0)
    | some (n, ix) =>
      (s.readEffect n ix, if latchedRegs.contains n then s.hi.latch.word (n.reg ix) else s.regView n ix)

/-- R5: a read of n bytes returns the addressed bytes; each register that it touches is read, the lowest first. -/
def State.hostReadBytes (s : State) (addr n : Nat) : State × Nat :=
  let a := addr / 4
  let regs := (addr + n - 1) / 4 + 1 - a
  let r := (List.range regs).foldl (fun (x : State × Nat) i =>
    let y := x.1.hostRead (4 * (a + i))
    (y.1, x.2 + y.2.toNat * 2 ^ (32 * i))) (s, 0)
  (r.1, r.2 / 2 ^ (8 * (addr % 4)) % 2 ^ (8 * n))

/-- A host read of n bytes: the data go out. -/
def State.readOut (s : State) (addr n : Nat) : State :=
  if n = 0 then s
  else
    let r := s.hostReadBytes addr n
    r.1.emit (.readData (BitVec.ofNat 64 r.2))

/-! ### Remote access at the requester (R366) -/

/-- R366: a request to the device's own number acts locally. -/
def State.rraLocal (s : State) : State :=
  let a := s.get CL_RRA_ADDR_ADDR
  let s := s.set CL_RRA_STAT_STATE rraBusy
  if s.on CL_RRA_CMD_WRITE then
    let s := if a % 4 = 0 ∧ (s.ready ∨ a < 0x10000) then s.regWrite a (s.word CL_RRA_DATA) else s
    s.set CL_RRA_STAT_STATE rraDone
  else
    let r := s.hostReadBytes a 4
    (r.1.set CL_RRA_DATA_DATA r.2).set CL_RRA_STAT_STATE rraDone

/-- A write of CL_RRA_CMD. -/
def State.writeRra (s : State) (v : Word) : State :=
  if fieldOf v 31 31 = 1 ∧ s.get CL_RRA_STAT_STATE = rraBusy then s
  else
    let s := s.rraFields v
    if fieldOf v 31 31 = 0 then s
    else if s.get CL_RRA_CMD_DEV = s.devNum then s.rraLocal
    else s.rraSend

/-- A write by a host or over Cleif. One that is not aligned has no effect (R5). -/
def State.hostWrite (s : State) (a : Nat) (v : Word) : State :=
  if a % 4 ≠ 0 ∨ (!s.ready ∧ 0x10000 ≤ a) then s
  else if a = CL_RRA_CMD.addr then s.writeRra v
  else s.regWrite a v

/-! ### The rows of BAR0 -/

/-- REGISTER_WRITE (R325): a write of `size` bytes. One of fewer than four has no effect (R5). -/
def execRegisterWrite (addr : BitVec 24) (v : WriteData) (s : State) : Host.Outcome State Fault Refusal :=
  doneIf (v.size.val == 4) s (s.hostWrite addr.toNat v.word)

/-- FLAG_CLEAR_WRITE (R6, R410): a write of a register that holds W1C flags. -/
def execFlagClearWrite (addr : BitVec 24) (v : Word) (s : State) : Host.Outcome State Fault Refusal :=
  doneIf (match regAt addr.toNat with
    | some (n, ix) => (n.fields ix).any FieldSpec.isFlag
    | none => false) s (s.hostWrite addr.toNat v)

/-- COHERENT_READ (R393): a read of `size` bytes of any register; a first register of a group latches the others. -/
def execCoherentRead (at_ : ReadAt) (s : State) : Host.Outcome State Fault Refusal :=
  done s (s.readOut at_.addr.toNat at_.size)

/-- CLAMP_COUNT_READ (R433). -/
def execClampCountRead (s : State) : Host.Outcome State Fault Refusal := done s (s.readOut GL_CLAMP_COUNT.addr 4)

/-- BUCKET_READ (R434). -/
def execBucketRead (k : DieIx) (s : State) : Host.Outcome State Fault Refusal := done s (s.readOut (TH_OCH_B k).addr 4)

/-- BIN_TABLE_READ (R166). -/
def execBinTableRead (g : GroupIx) (s : State) : Host.Outcome State Fault Refusal := done s (s.readOut (TD_BT_DATA g).addr 4)

/-- RRA_GO (R366): a write of CL_RRA_CMD. -/
def execRraGo (v : Word) (s : State) : Host.Outcome State Fault Refusal := done s (s.hostWrite CL_RRA_CMD.addr v)

/-! ### BAR2 (R394, R395, R438) -/

inductive Bar2Region where
  | store | records | control | nvs | none
  deriving DecidableEq, Repr

/-- The region of a BAR2 offset: `store` takes writes at once, `records` has none. -/
def bar2Region (off : Nat) : Bar2Region :=
  if off < memFailLog then .store
  else if off < 0x3600000 then .records
  else if off < 0x3610000 then .control
  else if memNvs ≤ off ∧ off < nvsAddr 262144 then .nvs
  else if memCapture ≤ off then .records
  else .none

/-- The word stored at a 16-byte-aligned offset. -/
def State.bar2Word (s : State) (a : Nat) : Native :=
  match bar2Region a with
  | .control => s.readStoreWindow (a - 0x3600000)
  | .none => 0
  | _ => s.memWord a

/-- R375: a write to a store; forwarded by an ACTIVE member, without effect on a SHADOW. -/
def State.storeWrite (s : State) (a : Nat) (w : Native) : State :=
  if s.role = roleActive then
    let x : MirrorWrite := .mem a w
    ({ s with tw := { s.tw with mirror := s.tw.mirror ++ [(later s.time 3200, x)] } }).sendLink 3 (.write s.time x)
  else if s.role = roleShadow then s.flag TW_FLAGS_SHWR TW_CNT2_SHWR
  else s.setMemWord a w

/-- A word written whole. -/
def State.bar2Store (s : State) (a : Nat) (w : Native) : State :=
  match bar2Region a with
  | .store => s.storeWrite a w
  | .control => s.writeStoreWindow (a - 0x3600000) w
  | .nvs => s.nvWrite ((a - memNvs) / 16) w
  | _ => s

/-- Bytes 0 to 7 of a word with some of them replaced from byte k on. -/
def replaceBytes (d : BitVec 64) (k : Nat) (bs : List Byte) : BitVec 64 :=
  BitVec.ofNat 64 ((List.range 8).foldl (fun n i =>
    let b := if k ≤ i then (bs[i - k]?).getD (BitVec.ofNat 8 (d.toNat / 2 ^ (8 * i))) else BitVec.ofNat 8 (d.toNat / 2 ^ (8 * i))
    n + b.toNat * 2 ^ (8 * i)) 0)

/-- A BAR2 access acts: the device is READY and the offset lies in a region. -/
def State.bar2Open (s : State) (off : Nat) : Bool := s.ready && bar2Region off != .none

/-- R394: bytes below 8 fill the hold. -/
def State.bar2WriteLow (s : State) (off : Nat) (data : List Byte) : State :=
  let a := off / 16 * 16
  let d := if s.hi.holdAddr = a then s.hi.holdData else (s.bar2Word a).setWidth 64
  { s with hi := { s.hi with holdAddr := a, holdData := replaceBytes d (off % 16) data } }

/-- BAR2_WRITE_LOW (R394). -/
def execBar2WriteLow (off : BitVec 27) (data : List (BitVec 8)) (s : State) : Host.Outcome State Fault Refusal :=
  doneIf (s.bar2Open off.toNat && decide (off.toNat % 16 < 8) && !data.isEmpty) s (s.bar2WriteLow off.toNat data)

/-- R394: byte 8 writes the word whole. -/
def State.bar2WriteHigh (s : State) (off : Nat) (b : Byte) : State :=
  let a := off / 16 * 16
  if s.hi.holdAddr = a then s.bar2Store a (b ++ s.hi.holdData)
  else (s.bar2Store a (b ++ (s.bar2Word a).setWidth 64)).flag HI_FLAGS_HOLDMISS HI_CNT1_HOLDMISS

/-- BAR2_WRITE_HIGH (R394). -/
def execBar2WriteHigh (off : BitVec 27) (b : BitVec 8) (s : State) : Host.Outcome State Fault Refusal :=
  doneIf (s.bar2Open off.toNat && decide (off.toNat % 16 = 8)) s (s.bar2WriteHigh off.toNat b)

/-- R19: the memory that holds a BAR2 offset, by its number. -/
def sramAt (a : Nat) : Option Nat :=
  if a < memIStore then some (32 + a / 0x100000)
  else if a < memWave then some ((a - memIStore) / 0x40000)
  else if a < memFailLog then some (96 + (a - memWave) / 0x40000 % 32)
  else if a < memStamp then some (128 + (a - memFailLog) / 0x10000 % 32)
  else if a < 0x3600000 then some (160 + (a - memStamp) / 0x20000 % 32)
  else if memCapture ≤ a then some (192 + (a - memCapture) / 0x200000 % 32)
  else none

/-- R19, R428: what the check bits of a word tell at a host read. The word is delivered as stored. -/
def State.nvsRead (s : State) (a : Nat) (ecc : EccResult) : State :=
  if bar2Region a ≠ .nvs then
    match sramAt a with
    | some m => s.sramRead m ecc
    | none => s
  else match ecc with
    | .good => s
    | .corrected => s.flag NV_FLAGS_CORR NV_CNT0_CORR
    | .uncorrectable => (s.flag NV_FLAGS_UNCORR NV_CNT0_UNCORR).set NV_LASTERR_ADDR ((a - memNvs) / 16)

/-- R394: a read of n bytes below byte 8 loads the latch. -/
def State.bar2ReadLow (s : State) (off n : Nat) (ecc : EccResult) : State :=
  let a := off / 16 * 16
  let w := s.bar2Word a
  let k := off % 16
  let v := w.toNat % 2 ^ 64 / 2 ^ (8 * k) % 2 ^ (8 * n)
  let s := { s with hi := { s.hi with latchAddr := a, latchByte := (w >>> 64).setWidth 8 } }
  (s.nvsRead a ecc).emit (.readData (BitVec.ofNat 64 v))

/-- BAR2_READ_LOW (R394); outside the regions the read returns 0 (R395). -/
def execBar2ReadLow (off : BitVec 27) (n : Fin 9) (ecc : EccResult) (s : State) : Host.Outcome State Fault Refusal :=
  done s (if s.bar2Open off.toNat && decide (off.toNat % 16 < 8 ∧ 0 < n.val) then s.bar2ReadLow off.toNat n ecc
    else s.emit (.readData 0))

/-- R394: a read of byte 8. -/
def State.bar2ReadHigh (s : State) (off : Nat) (ecc : EccResult) : State :=
  let a := off / 16 * 16
  if s.hi.latchAddr = a then s.emit (.readData (s.hi.latchByte.setWidth 64))
  else (s.nvsRead a ecc).emit (.readData ((s.bar2Word a >>> 64).setWidth 64))

/-- BAR2_READ_HIGH (R394); bytes 9 to 15 read 0. -/
def execBar2ReadHigh (off : BitVec 27) (ecc : EccResult) (s : State) : Host.Outcome State Fault Refusal :=
  done s (if s.bar2Open off.toNat && decide (off.toNat % 16 = 8) then s.bar2ReadHigh off.toNat ecc else s.emit (.readData 0))

/-! ### Mirrored writes (R375) -/

/-- A forwarded write acts on this member. -/
def State.mirrorActs (s : State) (x : MirrorWrite) : State :=
  match x with
  | .mem a w => s.setMemWord a w
  | .reg addr v => match regAt addr.toNat with
    | some (n, ix) => s.localWrite n ix v
    | none => s

/-- MIRRORED_WRITE_APPLY (R375): at TCLK w + 3,200, on the member that forwarded it and on the other. -/
def execMirroredWriteApply (x : MirrorWrite) (w : BitVec 56) (s : State) : Host.Outcome State Fault Refusal :=
  let t := later w 3200
  done s (if !reached s.time t then s
    else if s.role = roleShadow ∨ s.role = roleJoining then s.mirrorActs x
    else match s.tw.mirror.find? fun m => m.1 == t && m.2 == x with
      | some m => { s with tw := { s.tw with mirror := s.tw.mirror.erase m } }.mirrorActs x
      | none => s)

/-! ### Refill blocks (R406, R407) -/

/-- Bits hi to lo of a block's header (R397). -/
def ringBits (blk : List Byte) (hi lo : Nat) : Nat :=
  (List.range 24).foldl (fun n i => n + (blk.getD i 0).toNat * 2 ^ (8 * i)) 0 / 2 ^ lo % 2 ^ (hi + 1 - lo)

/-- NW. -/
def ringBlockNw (blk : List Byte) : Nat := ringBits blk 40 32

/-- R407: the block passes. -/
def ringBlockPasses (wave : Bool) (u : Nat) (blk : List Byte) : Bool :=
  decide (blk.length = 4096) && ringBits blk 7 0 == 0xE7 && ringBits blk 10 8 == (if wave then 7 else 6)
    && ringBits blk 20 16 == u && decide (ringBlockNw blk ≤ 452)
    && (crc32c (blk.take 4092)).toNat == (List.range 4).foldl (fun n i => n + (blk.getD (4092 + i) 0).toNat * 2 ^ (8 * i)) 0

/-- R397: record word k. -/
def ringBlockWord (blk : List Byte) (k : Nat) : Native :=
  BitVec.ofNat 72 ((List.range 9).foldl (fun n j => n + (blk.getD (24 + 9 * k + j) 0).toNat * 2 ^ (8 * j)) 0)

/-- R406: the queue may fetch; R235: that of an engine only with SQ_STRM.EN. In a pair the SHADOW fetches nothing, and one
block awaits the partner (R376). -/
def State.mayFetch (s : State) (wave : Bool) (u : Nat) : Bool :=
  let x := queueOf wave u
  s.ready && s.dmaOk && s.on (ringEn x) && (queueState x).all (fun f => s.get f == 1) && decide (0 < s.posted x)
    && (wave || s.on (SQ_STRM_EN u)) && s.role != roleShadow && !s.tw.refill.any fun r => r.1 == wave && r.2.1 == u

/-- R406: room for n words at the destination. -/
def State.refillRoom (s : State) (wave : Bool) (u n : Nat) : Bool :=
  decide (n ≤ if wave then s.wpRoom u else 8192 - (s.engine u).refill.length)

/-- R406, R407, R376: the block of descriptor HEAD has been read. -/
def State.blockFetched (s : State) (wave : Bool) (u : Nat) (desc : BitVec 128) (blk : List Byte) : State :=
  let s := s.emit (.fetch (descAddr desc))
  if !ringBlockPasses wave u blk then s.blockFails wave u
  else
    let words := (List.range (ringBlockNw blk)).map (ringBlockWord blk)
    let s := { s with hi := if wave then { s.hi with wqFails := vset s.hi.wqFails u 0 } else { s.hi with vqFails := vset s.hi.vqFails u 0 } }
    if s.role = roleActive then
      ({ s with tw := { s.tw with refill := s.tw.refill ++ [(wave, u, words, descInt desc)] } }).sendLink 3 (.refill wave u words)
    else s.queueDelivers wave u words (descInt desc)

/-- QUEUE_BLOCK_FETCH (R406): `blk` is the block as host memory holds it. -/
def execQueueBlockFetch (wave : Bool) (u : Fin 32) (desc : BitVec 128) (blk : List (BitVec 8)) (s : State) :
    Host.Outcome State Fault Refusal :=
  doneIf (s.mayFetch wave u && (!ringBlockPasses wave u blk || s.refillRoom wave u (ringBlockNw blk))) s (s.blockFetched wave u desc blk)

end Sys2Proof.Machine
end

