-- ==== Sys2Proof/Machine/Delivery.lean ====
section
/-! DEFINITION. Chapter 13: what the packets of a received block do (R357 to R363), and remote access at the target
(R366). -/

namespace Sys2Proof.Machine

/-- Bits hi to lo of ARG. -/
def Packet.argBits (p : Packet) (hi lo : Nat) : Nat := nbits p.header hi lo

/-- Payload flit i; 0 where the packet has none. -/
def Packet.pay (p : Packet) (i : Nat) : Native := p.payload.getD i 0

/-- A TIME in payload bits [55:0] (R359). -/
def Packet.payTime (p : Packet) (i : Nat) : Time := (p.pay i).setWidth 56

/-! ### Remote access at the target (R366) -/

/-- R366: the access acts as a host access would, and its response returns. -/
def State.rraServe (s : State) (dev : Nat) (write : Bool) (tag addr : Nat) (v : Word) : State :=
  let r := if write then (s.hostWrite addr v, 0) else s.hostReadBytes addr 4
  r.1.routePacket (Packet.make 2 dev s.devNum 0 (tag * 2 ^ 32 + r.2) [])

/-- RRA_REQUEST_RECEIVE (R366). -/
def execRraRequestReceive (dev : BitVec 10) (write : Bool) (tag : BitVec 7) (addr : BitVec 24) (v : Word) (s : State) :
    Host.Outcome State Fault Refusal :=
  done s (s.rraServe dev.toNat write tag.toNat addr.toNat v)

/-! ### Broadcasts and reports (R359) -/

/-- A broadcast reaches a member. -/
def State.bcastConsumed (s : State) (p : Packet) : State :=
  let id : BitVec 16 := BitVec.ofNat 16 p.arg
  match p.sub with
  | 0 => s.domainEpoch (p.argBits 2 0) (p.payTime 0)
  | 1 => s.domainPrepare (BitVec.ofNat 16 (nbits (p.pay 0) 71 56)) (p.payTime 0) (p.payTime 1)
  | 2 => s.domainApplied id
  | 3 => s.domainAborted id (p.argBits 25 16) (p.argBits 31 26)
  | 4 => s.snapReceived (p.payTime 0)
  | 5 => s.phaseReceived (p.payTime 0) ((p.pay 1).setWidth 64) ((p.pay 2).setWidth 32) (BitVec.ofNat 3 (nbits (p.pay 2) 34 32))
  | 6 => s.stepReceived id (p.payTime 0)
  | 7 => s.crefReceived (p.argBits 7 0) (p.argBits 8 8 == 1) ((p.pay 0).setWidth 64)
  | 8 => s.dresetReceived
  | 9 => s.leave
  | _ => s

/-- R359, R364: a broadcast comes down on port A, and goes on to B and C; LEAVE is sent anew. -/
def State.bcastArrives (s : State) (x : Nat) (p : Packet) : State :=
  if x ≠ 0 ∨ !s.isMember ∨ s.isRoot ∨ 9 < p.sub then s
  else
    let s := if p.sub = 9 then s else (s.sendPacket 1 p).sendPacket 2 p
    s.bcastConsumed p

/-- R359: a report comes up on port B or C. Votes and barrier counts are combined here; the others go on to the root. -/
def State.upArrives (s : State) (x : Nat) (p : Packet) : State :=
  if (x ≠ 1 ∧ x ≠ 2) ∨ (!s.isMember ∧ !s.isRoot) ∨ 4 < p.sub then s
  else
    let s := s.learnRoute p.src x
    match p.sub with
    | 0 => s.domainVote (BitVec.ofNat 16 p.arg) (p.argBits 16 16 == 1) (p.argBits 26 17)
        (p.argBits 32 27) (nbits (p.pay 0) 10 0)
    | 2 => s.barrierReport (p.argBits 2 0) (nbits (p.pay 0) 10 0)
    | k =>
      if !s.isRoot then s.sendPacket 0 p
      else match k with
        | 1 => s.dgReported p.src (p.argBits 7 0) ((p.pay 0).setWidth 64) (p.argBits 8 8 == 1)
        | 3 => s.joinReceived p.src (p.argBits 3 0)
        | _ => s.pruned (p.argBits 9 0)

/-- R358: a packet for this device. -/
def State.unicastConsumed (s : State) (p : Packet) : State :=
  match p.type with
  | 1 => s.rraServe p.src (p.argBits 39 39 == 1) (p.argBits 38 32) (p.argBits 23 0) ((p.pay 0).setWidth 32)
  | 2 => s.rraResponse (p.argBits 38 32) (BitVec.ofNat 32 (p.argBits 31 0))
  | 5 => s.pushMsg (p.argBits 4 0) (p.pay 0)
  | _ => if p.sub = 0 then s.joinReplied true else if p.sub = 1 then s.joinReplied false else s

/-- R358, R363: a packet delivered on port x. LINK packets come as commands of their own. -/
def State.packetArrives (s : State) (x : Nat) (p : Packet) : State :=
  match p.type with
  | 3 => s.bcastArrives x p
  | 4 => s.upArrives x p
  | 1 | 2 | 5 | 6 => if x = 3 then s else if p.dst = s.devNum then s.unicastConsumed p else s.routePacket p
  | _ => s

/-- BLOCK_RECEIVE (R354). -/
def execBlockReceive (x : Fin 4) (blk : BitVec 640) (s : State) : Host.Outcome State Fault Refusal :=
  doneIf (s.portUp x) s (let r := s.blockArrives x blk
    r.2.foldl (fun s p => s.packetArrives x p) r.1)

end Sys2Proof.Machine
end

