-- ==== Sys2Proof/Machine/Epochs.lean ====
section
/-! DEFINITION. Epochs reached (R56 to R60), and what passes with every TCLK. -/

namespace Sys2Proof.Machine

/-- R56: two encodings name one kind; 5 to 7 are taken as VEC. -/
def epochKind (k : Nat) : Nat := if k ≤ 4 then k else 0

/-- The waits of a context that an epoch of a kind ends (R277, R278). -/
def WaitKind.epoch (w : WaitKind) : Option Nat :=
  match w with
  | .angle _ | .phase _ => some 2
  | .time _ => some 1
  | _ => none

/-- R60, R232: the contexts of engine l whose wait for an epoch of kind k is over. -/
def State.epochWaits (s : State) (k l : Nat) : State :=
  if !s.isLeader l || s.inMchk l then s
  else s.forEach (List.range 32) fun s c => match s.ctxWait l c, s.waitOver l c with
    | some w, some n => if w.kind.epoch = some k then s.releaseWait l c n true else s
    | _, _ => s

/-- The commit in progress awaits this epoch. -/
def State.commitAwaits (s : State) (k e : Nat) : Bool := match s.cm with
  | some r => epochKind r.kind == k && (k == 1 || k == 2 || k == 4 || s.leader r.eng == s.leader e)
  | none => false

/-- The player of group g awaits this epoch. -/
def State.wpAwaits (s : State) (k e g : Nat) : Bool := match (s.wp g).armed with
  | some (kind, _, _) => epochKind kind == k && (k == 1 || k == 2 || k == 4 || g == e)
  | none => false

/-- R60: every consumer that awaits the epoch acts; a LAKE latch records the state before an apply (R332). -/
def State.epochNow (s : State) (k e : Nat) : State :=
  let s := if k = 1 ∨ k = 4 then s.snapNow else s
  let s := if s.commitAwaits k e then s.commitNow else s
  let s := s.forEach (List.range 32) fun s g => if s.wpAwaits k e g then s.wpArmedNow g else s
  let s := if k = 4 then s.forEach (List.range 8) State.barrierNow else s
  s.forEach (List.range 32) fun s l => s.epochWaits k l

/-- EPOCH_REACHED (R56): an epoch of a kind, and for VEC and SUMB its engine. -/
def execEpochReached (kind : BitVec 3) (e : EngineIx) (s : State) : Host.Outcome State Fault Refusal :=
  done s (s.epochNow (epochKind kind.toNat) e)

/-! ### One TCLK -/

/-- R246: a group that waits to park under OCHRE does so at B + Z, or once it no longer issues vectors. -/
def State.ochDue (s : State) (g : Nat) : State :=
  match (s.group g).ochreWait with
  | some (some t) => if reached s.time t then s.ochPark g else s
  | some none => if s.issuing g then s else s.ochPark g
  | none => s

/-- What a group does by the clock: its deskew and self-check phases, the windows that start, the park that waits. -/
def State.groupTclk (s : State) (g : Nat) : State := (((s.dskTclk g).scTclk g).winTclk g).ochDue g

/-- What the passing of one TCLK does: TIME advances by 1 from the lock of the PLL on (R33), PHASE by its velocity (R42), the
waveform players' accumulators every 16 TCLK (R207), SMCLK by its period (R130); the source rates are counted anew (R157),
and each engine takes the decision whose point has come (R239). -/
def State.tclk (s : State) : State :=
  if s.get GL_STATUS_BOOT = 0 then { s with raised := [] }
  else
    let s := { s with time := s.time + 1, raised := [] }
    let s := s.phaseTclk.wpTclk.smTclk.srcTclk.forEach (List.range 32) State.groupTclk
    s.forEach s.leaders State.takeDecision

end Sys2Proof.Machine
end

