-- ==== Sys2Proof/Machine/Dispatch.lean ====
section
/-! DEFINITION. The dispatch: one arm per command, each one call of its meaning. -/

namespace Sys2Proof.Machine

/-- The effect of a command on everything but the queue. -/
def exec (i : Instr) (s : State) : Host.Outcome State Fault Refusal :=
  match i with
  | .registerWrite addr v => Sys2Proof.Machine.execRegisterWrite addr v s
  | .flagClearWrite addr v => Sys2Proof.Machine.execFlagClearWrite addr v s
  | .coherentRead at_ => Sys2Proof.Machine.execCoherentRead at_ s
  | .clampCountRead => Sys2Proof.Machine.execClampCountRead s
  | .bucketRead k => Sys2Proof.Machine.execBucketRead k s
  | .binTableRead g => Sys2Proof.Machine.execBinTableRead g s
  | .snapshotItemRead => Sys2Proof.Machine.execSnapshotItemRead s
  | .dispatchDataAccess w => Sys2Proof.Machine.execDispatchDataAccess w s
  | .tbrefEdge err need => Sys2Proof.Machine.execTbrefEdge err need s
  | .disciplineLock => Sys2Proof.Machine.execDisciplineLock s
  | .tbrefLost => Sys2Proof.Machine.execTbrefLost s
  | .phaseCount a b p => Sys2Proof.Machine.execPhaseCount a b p s
  | .phaseStall => Sys2Proof.Machine.execPhaseStall s
  | .phaseIndex samples => Sys2Proof.Machine.execPhaseIndex samples s
  | .phaseSampleBroadcast => Sys2Proof.Machine.execPhaseSampleBroadcast s
  | .phaseSampleReceive t phase vel st => Sys2Proof.Machine.execPhaseSampleReceive t phase vel st s
  | .phaseSampleTimeout => Sys2Proof.Machine.execPhaseSampleTimeout s
  | .stepWrite v => Sys2Proof.Machine.execStepWrite v s
  | .stepBroadcastReceive step t => Sys2Proof.Machine.execStepBroadcastReceive step t s
  | .stepBroadcastApply => Sys2Proof.Machine.execStepBroadcastApply s
  | .epochReached kind e => Sys2Proof.Machine.execEpochReached kind e s
  | .pcmpArm m v => Sys2Proof.Machine.execPcmpArm m v s
  | .pcmpReached m => Sys2Proof.Machine.execPcmpReached m s
  | .phaseSlotFire slot => Sys2Proof.Machine.execPhaseSlotFire slot s
  | .vectorBoundary g => Sys2Proof.Machine.execVectorBoundary g s
  | .dskRun g v => Sys2Proof.Machine.execDskRun g v s
  | .dskComplete g res temp => Sys2Proof.Machine.execDskComplete g res temp s
  | .tdrRun g v => Sys2Proof.Machine.execTdrRun g v s
  | .tdrComplete g n launches reflections => Sys2Proof.Machine.execTdrComplete g n launches reflections s
  | .calExtEdge ofs => Sys2Proof.Machine.execCalExtEdge ofs s
  | .calExtTimeout => Sys2Proof.Machine.execCalExtTimeout s
  | .calArm v => Sys2Proof.Machine.execCalArm v s
  | .calOutEdge => Sys2Proof.Machine.execCalOutEdge s
  | .levelSelectChange g => Sys2Proof.Machine.execLevelSelectChange g s
  | .lsCommitEffect g => Sys2Proof.Machine.execLsCommitEffect g s
  | .slewStep g p d => Sys2Proof.Machine.execSlewStep g p d s
  | .deglitchHoldEnd g p d => Sys2Proof.Machine.execDeglitchHoldEnd g p d s
  | .clrNFall k => Sys2Proof.Machine.execClrNFall k s
  | .clrNRise k => Sys2Proof.Machine.execClrNRise k s
  | .clearCodeWrite g p d v => Sys2Proof.Machine.execClearCodeWrite g p d v s
  | .railMeasure k vdrp vdrn => Sys2Proof.Machine.execRailMeasure k vdrp vdrn s
  | .pinEnableWrite v => Sys2Proof.Machine.execPinEnableWrite v s
  | .lsParkWrite g v => Sys2Proof.Machine.execLsParkWrite g v s
  | .parkExit g p => Sys2Proof.Machine.execParkExit g p s
  | .rangeChangeEnd g p => Sys2Proof.Machine.execRangeChangeEnd g p s
  | .ilimEpisode g p => Sys2Proof.Machine.execIlimEpisode g p s
  | .measRequestWrite g v => Sys2Proof.Machine.execMeasRequestWrite g v s
  | .measAutoRequest g p => Sys2Proof.Machine.execMeasAutoRequest g p s
  | .measStart g j => Sys2Proof.Machine.execMeasStart g j s
  | .measComplete g j samples clamped => Sys2Proof.Machine.execMeasComplete g j samples clamped s
  | .comparatorSwitch g p v => Sys2Proof.Machine.execComparatorSwitch g p v s
  | .filterSample g p => Sys2Proof.Machine.execFilterSample g p s
  | .sampleTick g volts => Sys2Proof.Machine.execSampleTick g volts s
  | .smCtlWrite v => Sys2Proof.Machine.execSmCtlWrite v s
  | .smWakeWrite v => Sys2Proof.Machine.execSmWakeWrite v s
  | .smWakeTime => Sys2Proof.Machine.execSmWakeTime s
  | .smclkBurstEnd => Sys2Proof.Machine.execSmclkBurstEnd s
  | .blankEnd g p => Sys2Proof.Machine.execBlankEnd g p s
  | .tripLatchRecord k t => Sys2Proof.Machine.execTripLatchRecord k t s
  | .tripRearmWrite k v => Sys2Proof.Machine.execTripRearmWrite k v s
  | .parkNFall => Sys2Proof.Machine.execParkNFall s
  | .parkNRise => Sys2Proof.Machine.execParkNRise s
  | .selfCheckRun g v => Sys2Proof.Machine.execSelfCheckRun g v s
  | .selfCheckPeriodic g => Sys2Proof.Machine.execSelfCheckPeriodic g s
  | .selfCheckEnd g res => Sys2Proof.Machine.execSelfCheckEnd g res s
  | .cpCommitEffect g => Sys2Proof.Machine.execCpCommitEffect g s
  | .tdcStop g p c r l0 l1 => Sys2Proof.Machine.execTdcStop g p c r l0 l1 s
  | .windowClose g p => Sys2Proof.Machine.execWindowClose g p s
  | .stampDelivery g p => Sys2Proof.Machine.execStampDelivery g p s
  | .xwinOpen g => Sys2Proof.Machine.execXwinOpen g s
  | .calPassComplete g p hits refs => Sys2Proof.Machine.execCalPassComplete g p hits refs s
  | .tdcSwap g => Sys2Proof.Machine.execTdcSwap g s
  | .gateStartWrite g v => Sys2Proof.Machine.execGateStartWrite g v s
  | .gateStopWrite g v => Sys2Proof.Machine.execGateStopWrite g v s
  | .gateEnd g => Sys2Proof.Machine.execGateEnd g s
  | .freqResult g src => Sys2Proof.Machine.execFreqResult g src s
  | .vectorOutcome g b => Sys2Proof.Machine.execVectorOutcome g b s
  | .logRptrWrite g v => Sys2Proof.Machine.execLogRptrWrite g v s
  | .summaryIntervalEnd e => Sys2Proof.Machine.execSummaryIntervalEnd e s
  | .summarySetEmit e => Sys2Proof.Machine.execSummarySetEmit e s
  | .captureArm g v => Sys2Proof.Machine.execCaptureArm g v s
  | .captureStop g v => Sys2Proof.Machine.execCaptureStop g v s
  | .captureForce g v => Sys2Proof.Machine.execCaptureForce g v s
  | .captureDone g => Sys2Proof.Machine.execCaptureDone g s
  | .evRptrWrite g v => Sys2Proof.Machine.execEvRptrWrite g v s
  | .triggerEvaluation te => Sys2Proof.Machine.execTriggerEvaluation te s
  | .trigOutPulseEnd k => Sys2Proof.Machine.execTrigOutPulseEnd k s
  | .teArm te v => Sys2Proof.Machine.execTeArm te v s
  | .teDisarm te v => Sys2Proof.Machine.execTeDisarm te v s
  | .teSoft v => Sys2Proof.Machine.execTeSoft v s
  | .trigInRise k => Sys2Proof.Machine.execTrigInRise k s
  | .wpSampleTick x => Sys2Proof.Machine.execWpSampleTick x s
  | .wpSampleTarget g => Sys2Proof.Machine.execWpSampleTarget g s
  | .wpStart g v => Sys2Proof.Machine.execWpStart g v s
  | .wpStop g v => Sys2Proof.Machine.execWpStop g v s
  | .wpJump g v => Sys2Proof.Machine.execWpJump g v s
  | .wpSctlArm g v => Sys2Proof.Machine.execWpSctlArm g v s
  | .nop e => Sys2Proof.Machine.execNop e s
  | .vec e n => Sys2Proof.Machine.execVec e n s
  | .rpt e n => Sys2Proof.Machine.execRpt e n s
  | .stream e n => Sys2Proof.Machine.execStream e n s
  | .loopOp e => Sys2Proof.Machine.execLoopOp e s
  | .endl e => Sys2Proof.Machine.execEndl e s
  | .jmp e => Sys2Proof.Machine.execJmp e s
  | .jmpc e => Sys2Proof.Machine.execJmpc e s
  | .callOp e => Sys2Proof.Machine.execCallOp e s
  | .ret e => Sys2Proof.Machine.execRet e s
  | .waitph e => Sys2Proof.Machine.execWaitph e s
  | .waitt e => Sys2Proof.Machine.execWaitt e s
  | .waitev e => Sys2Proof.Machine.execWaitev e s
  | .waitRelease e => Sys2Proof.Machine.execWaitRelease e s
  | .waitevTimeout e => Sys2Proof.Machine.execWaitevTimeout e s
  | .sync e => Sys2Proof.Machine.execSync e s
  | .barrierRelease b => Sys2Proof.Machine.execBarrierRelease b s
  | .barrierTimeout b => Sys2Proof.Machine.execBarrierTimeout b s
  | .swc e => Sys2Proof.Machine.execSwc e s
  | .swcHoldEnd e => Sys2Proof.Machine.execSwcHoldEnd e s
  | .yield e => Sys2Proof.Machine.execYield e s
  | .halt e => Sys2Proof.Machine.execHalt e s
  | .ldq e => Sys2Proof.Machine.execLdq e s
  | .addq e => Sys2Proof.Machine.execAddq e s
  | .cmpq e => Sys2Proof.Machine.execCmpq e s
  | .movq e => Sys2Proof.Machine.execMovq e s
  | .setts e => Sys2Proof.Machine.execSetts e s
  | .setls e => Sys2Proof.Machine.execSetls e s
  | .wpcStart e => Sys2Proof.Machine.execWpcStart e s
  | .wpcStop e => Sys2Proof.Machine.execWpcStop e s
  | .wpcJump e => Sys2Proof.Machine.execWpcJump e s
  | .wpcStartat e => Sys2Proof.Machine.execWpcStartat e s
  | .measOp e => Sys2Proof.Machine.execMeasOp e s
  | .freqStart e => Sys2Proof.Machine.execFreqStart e s
  | .freqStop e => Sys2Proof.Machine.execFreqStop e s
  | .sumb e => Sys2Proof.Machine.execSumb e s
  | .snapOp e => Sys2Proof.Machine.execSnapOp e s
  | .trigOp e => Sys2Proof.Machine.execTrigOp e s
  | .msgSend e => Sys2Proof.Machine.execMsgSend e s
  | .msgRecv e => Sys2Proof.Machine.execMsgRecv e s
  | .armt e => Sys2Proof.Machine.execArmt e s
  | .undefinedOpcode e => Sys2Proof.Machine.execUndefinedOpcode e s
  | .sqCmdReady e c => Sys2Proof.Machine.execSqCmdReady e c s
  | .sqCmdStart e c => Sys2Proof.Machine.execSqCmdStart e c s
  | .sqCmdHalt e c => Sys2Proof.Machine.execSqCmdHalt e c s
  | .sqCmdEngreset e => Sys2Proof.Machine.execSqCmdEngreset e s
  | .sqCmdStrmreset e => Sys2Proof.Machine.execSqCmdStrmreset e s
  | .doorbell e v => Sys2Proof.Machine.execDoorbell e v s
  | .timerArm e j v => Sys2Proof.Machine.execTimerArm e j v s
  | .timerExpire e j => Sys2Proof.Machine.execTimerExpire e j s
  | .msginPush e v => Sys2Proof.Machine.execMsginPush e v s
  | .controlStoreParityError e kind => Sys2Proof.Machine.execControlStoreParityError e kind s
  | .scrubRead e => Sys2Proof.Machine.execScrubRead e s
  | .parityInject v => Sys2Proof.Machine.execParityInject v s
  | .hostload => Sys2Proof.Machine.execHostload s
  | .controlStoreWindowWrite off w => Sys2Proof.Machine.execControlStoreWindowWrite off w s
  | .finish => Sys2Proof.Machine.execFinish s
  | .verify slot => Sys2Proof.Machine.execVerify slot s
  | .imageCheckComplete src => Sys2Proof.Machine.execImageCheckComplete src s
  | .reloadComplete => Sys2Proof.Machine.execReloadComplete s
  | .commitOp v => Sys2Proof.Machine.execCommitOp v s
  | .checkOp v => Sys2Proof.Machine.execCheckOp v s
  | .abortOp => Sys2Proof.Machine.execAbortOp s
  | .discard => Sys2Proof.Machine.execDiscard s
  | .commitCheckComplete => Sys2Proof.Machine.execCommitCheckComplete s
  | .commitApply => Sys2Proof.Machine.execCommitApply s
  | .twinPrepareReceive id chk kind eng tgt digest => Sys2Proof.Machine.execTwinPrepareReceive id chk kind eng tgt digest s
  | .twinVoteReceive id yes code digest => Sys2Proof.Machine.execTwinVoteReceive id yes code digest s
  | .twinVoteTimeout => Sys2Proof.Machine.execTwinVoteTimeout s
  | .twinApplyReceive id apply t => Sys2Proof.Machine.execTwinApplyReceive id apply t s
  | .domainPrepareReceive id ta tv => Sys2Proof.Machine.execDomainPrepareReceive id ta tv s
  | .domainVoteReceive id yes dev code count => Sys2Proof.Machine.execDomainVoteReceive id yes dev code count s
  | .voteWindowExpire => Sys2Proof.Machine.execVoteWindowExpire s
  | .domainApplyReceive id => Sys2Proof.Machine.execDomainApplyReceive id s
  | .domainAbortReceive id dev code => Sys2Proof.Machine.execDomainAbortReceive id dev code s
  | .commitOrphan => Sys2Proof.Machine.execCommitOrphan s
  | .snapshotHost => Sys2Proof.Machine.execSnapshotHost s
  | .snapshotSched => Sys2Proof.Machine.execSnapshotSched s
  | .snapshotDomsched => Sys2Proof.Machine.execSnapshotDomsched s
  | .domainSnapReceive t => Sys2Proof.Machine.execDomainSnapReceive t s
  | .snapshotLatch => Sys2Proof.Machine.execSnapshotLatch s
  | .bankRelease v => Sys2Proof.Machine.execBankRelease v s
  | .scalc => Sys2Proof.Machine.execScalc s
  | .learn => Sys2Proof.Machine.execLearn s
  | .digestRecompute => Sys2Proof.Machine.execDigestRecompute s
  | .digestReport => Sys2Proof.Machine.execDigestReport s
  | .digestReportReceive dev cls digest mis => Sys2Proof.Machine.execDigestReportReceive dev cls digest mis s
  | .crefReceive cls valid digest => Sys2Proof.Machine.execCrefReceive cls valid digest s
  | .portTrain x lock nbr => Sys2Proof.Machine.execPortTrain x lock nbr s
  | .portTrainTimeout x => Sys2Proof.Machine.execPortTrainTimeout x s
  | .blockSend x => Sys2Proof.Machine.execBlockSend x s
  | .blockReceive x blk => Sys2Proof.Machine.execBlockReceive x blk s
  | .resendTimeout x => Sys2Proof.Machine.execResendTimeout x s
  | .retrainTimeout x => Sys2Proof.Machine.execRetrainTimeout x s
  | .joinOp depth => Sys2Proof.Machine.execJoinOp depth s
  | .joinReceive dev depth x => Sys2Proof.Machine.execJoinReceive dev depth x s
  | .joinReplyReceive ok reason => Sys2Proof.Machine.execJoinReplyReceive ok reason s
  | .rejoin => Sys2Proof.Machine.execRejoin s
  | .dreset => Sys2Proof.Machine.execDreset s
  | .dresetReceive => Sys2Proof.Machine.execDresetReceive s
  | .leaveTimeout => Sys2Proof.Machine.execLeaveTimeout s
  | .leaveReceive => Sys2Proof.Machine.execLeaveReceive s
  | .pruneReceive dev => Sys2Proof.Machine.execPruneReceive dev s
  | .domainEpochReceive b t => Sys2Proof.Machine.execDomainEpochReceive b t s
  | .barrierReportReceive dev b count => Sys2Proof.Machine.execBarrierReportReceive dev b count s
  | .rraGo v => Sys2Proof.Machine.execRraGo v s
  | .rraRequestReceive dev write tag addr v => Sys2Proof.Machine.execRraRequestReceive dev write tag addr v s
  | .rraResponse tag v => Sys2Proof.Machine.execRraResponse tag v s
  | .rraTimeout => Sys2Proof.Machine.execRraTimeout s
  | .msgPacketReceive e w => Sys2Proof.Machine.execMsgPacketReceive e w s
  | .timeExchangeStart x t => Sys2Proof.Machine.execTimeExchangeStart x t s
  | .ts1Receive t2 t3 => Sys2Proof.Machine.execTs1Receive t2 t3 s
  | .ts2Receive x t turn => Sys2Proof.Machine.execTs2Receive x t turn s
  | .ts3Receive t1 t4 resent => Sys2Proof.Machine.execTs3Receive t1 t4 resent s
  | .mirroredWriteApply x w => Sys2Proof.Machine.execMirroredWriteApply x w s
  | .refillBlockForward ring u words => Sys2Proof.Machine.execRefillBlockForward ring u words s
  | .heartbeatSend => Sys2Proof.Machine.execHeartbeatSend s
  | .heartbeatReceive hb => Sys2Proof.Machine.execHeartbeatReceive hb s
  | .heartbeatLoss => Sys2Proof.Machine.execHeartbeatLoss s
  | .groupTakeover g => Sys2Proof.Machine.execGroupTakeover g s
  | .takeoverTermConnect g => Sys2Proof.Machine.execTakeoverTermConnect g s
  | .parkcmdReceive => Sys2Proof.Machine.execParkcmdReceive s
  | .agreementReceive e set => Sys2Proof.Machine.execAgreementReceive e set s
  | .swapOp ts => Sys2Proof.Machine.execSwapOp ts s
  | .swapExecute g => Sys2Proof.Machine.execSwapExecute g s
  | .detach received => Sys2Proof.Machine.execDetach received s
  | .pairWrite v => Sys2Proof.Machine.execPairWrite v s
  | .attach what => Sys2Proof.Machine.execAttach what s
  | .attachTimeout => Sys2Proof.Machine.execAttachTimeout s
  | .engineTransfer e step => Sys2Proof.Machine.execEngineTransfer e step s
  | .functionLevelReset => Sys2Proof.Machine.execFunctionLevelReset s
  | .perstN => Sys2Proof.Machine.execPerstN s
  | .powerStateChange d3 bme => Sys2Proof.Machine.execPowerStateChange d3 bme s
  | .linkChange width gen => Sys2Proof.Machine.execLinkChange width gen s
  | .cplTimeout w u => Sys2Proof.Machine.execCplTimeout w u s
  | .bar2WriteLow off data => Sys2Proof.Machine.execBar2WriteLow off data s
  | .bar2WriteHigh off b => Sys2Proof.Machine.execBar2WriteHigh off b s
  | .bar2ReadLow off n ecc => Sys2Proof.Machine.execBar2ReadLow off n ecc s
  | .bar2ReadHigh off ecc => Sys2Proof.Machine.execBar2ReadHigh off ecc s
  | .ringTailWrite ring v => Sys2Proof.Machine.execRingTailWrite ring v s
  | .ringEnable ring v => Sys2Proof.Machine.execRingEnable ring v s
  | .ringFlushTimeout r => Sys2Proof.Machine.execRingFlushTimeout r s
  | .ringFlushWrite v => Sys2Proof.Machine.execRingFlushWrite v s
  | .ringBlockWrite r desc => Sys2Proof.Machine.execRingBlockWrite r desc s
  | .captureReadoutGo v => Sys2Proof.Machine.execCaptureReadoutGo v s
  | .queueBlockFetch wave u desc blk => Sys2Proof.Machine.execQueueBlockFetch wave u desc blk s
  | .smbTemp k word => Sys2Proof.Machine.execSmbTemp k word s
  | .smbStatus word => Sys2Proof.Machine.execSmbStatus word s
  | .smbAlertclr word => Sys2Proof.Machine.execSmbAlertclr word s
  | .smbVid word => Sys2Proof.Machine.execSmbVid word s
  | .smbDid word => Sys2Proof.Machine.execSmbDid word s
  | .smbSvid word => Sys2Proof.Machine.execSmbSvid word s
  | .smbSsid word => Sys2Proof.Machine.execSmbSsid word s
  | .smbRevid word => Sys2Proof.Machine.execSmbRevid word s
  | .smbSerial k word => Sys2Proof.Machine.execSmbSerial k word s
  | .smbUnlisted cmd word => Sys2Proof.Machine.execSmbUnlisted cmd word s
  | .smbAlertResponse => Sys2Proof.Machine.execSmbAlertResponse s
  | .spiGo v => Sys2Proof.Machine.execSpiGo v s
  | .spiDone rd => Sys2Proof.Machine.execSpiDone rd s
  | .por => Sys2Proof.Machine.execPor s
  | .rstN => Sys2Proof.Machine.execRstN s
  | .boot ok => Sys2Proof.Machine.execBoot ok s
  | .groupReset v => Sys2Proof.Machine.execGroupReset v s
  | .deviceResetTp => Sys2Proof.Machine.execDeviceResetTp s
  | .deviceResetAq => Sys2Proof.Machine.execDeviceResetAq s
  | .deviceResetSn => Sys2Proof.Machine.execDeviceResetSn s
  | .refclkLoss => Sys2Proof.Machine.execRefclkLoss s
  | .refclkReturn tbref => Sys2Proof.Machine.execRefclkReturn tbref s
  | .crossingReset xid n => Sys2Proof.Machine.execCrossingReset xid n s
  | .ochreSample k ma => Sys2Proof.Machine.execOchreSample k ma s
  | .oclr v => Sys2Proof.Machine.execOclr v s
  | .tempSample k t => Sys2Proof.Machine.execTempSample k t s
  | .tclr => Sys2Proof.Machine.execTclr s
  | .nvsUnlockWrite v => Sys2Proof.Machine.execNvsUnlockWrite v s
  | .nvsLockTimeout => Sys2Proof.Machine.execNvsLockTimeout s
  | .nvsWordWrite => Sys2Proof.Machine.execNvsWordWrite s
  | .ledgerWrite => Sys2Proof.Machine.execLedgerWrite s
  | .tapReset => Sys2Proof.Machine.execTapReset s
  | .extest pins load => Sys2Proof.Machine.execExtest pins load s
  | .idcode => Sys2Proof.Machine.execIdcode s
  | .samplePreload pins load => Sys2Proof.Machine.execSamplePreload pins load s
  | .highz => Sys2Proof.Machine.execHighz s
  | .clampTap => Sys2Proof.Machine.execClampTap s
  | .extestPulse pins load => Sys2Proof.Machine.execExtestPulse pins load s
  | .extestTrain pins load => Sys2Proof.Machine.execExtestTrain pins load s
  | .bypass => Sys2Proof.Machine.execBypass s
  | .perstNRise => Sys2Proof.Machine.execPerstNRise s
  | .pcieLinkDown => Sys2Proof.Machine.execPcieLinkDown s

end Sys2Proof.Machine
end

