-- ==== Sys2Proof/Safety.lean ====
section
/-! DEFINITION. What counts as a sound state, in the terms the statements use. -/

namespace Sys2Proof.Machine

/-- The memory keeps its canonical form (R438; the form is the model's). -/
abbrev State.memOk (s : State) : Prop := Memory.wf s.mem

/-- The boot keeps only the words of R429 among the words that registers return to. -/
def State.bootOk (s : State) : Prop :=
  ∀ c ∈ s.sys.boot, c.1 ∈ [MC_BOOT.addr, CL_DEVNUM.addr, HI_SMB.addr] ∨ ∃ g p : Nat, g < 32 ∧ p < 16 ∧
    (c.1 = (TG_DSKI g p).addr ∨ ∃ d < 6, c.1 = (LS_CLR_CODE g p d).reg.addr)

/-- The register planes list their addresses once each, rising (R325; the form is the model's). -/
def State.planesOk (s : State) : Prop := s.live.rising ∧ s.staged.rising ∧ s.die.rising ∧ s.sys.boot.rising

/-! ### Frames -/

/-- The parts of the state other than the live registers. -/
inductive Part where
  | time | staged | die | mem | tp | groups | engines | hi | sn | cm | ballot | dg | cl | tw | sys | trigs | trigOut
  | slotAt | image | store | free | pending
  deriving DecidableEq, Repr

/-- A part is the same in two states. The level of ALERT_N, which any command may lower (R411), is set apart, as is the note
of the W1C bits that hardware has set in this TCLK (R6), which lasts no longer. -/
def State.samePart (s t : State) (p : Part) : Prop :=
  match p with
  | .time => t.time = s.time
  | .staged => t.staged = s.staged
  | .die => t.die = s.die
  | .mem => t.mem = s.mem
  | .tp => t.tp = s.tp
  | .groups => t.groups = s.groups
  | .engines => t.engines = s.engines
  | .hi => { t.hi with alertN := s.hi.alertN } = s.hi
  | .sn => t.sn = s.sn
  | .cm => t.cm = s.cm
  | .ballot => t.ballot = s.ballot
  | .dg => t.dg = s.dg
  | .cl => t.cl = s.cl
  | .tw => t.tw = s.tw
  | .sys => t.sys = s.sys
  | .trigs => t.trigs = s.trigs
  | .trigOut => t.trigOut = s.trigOut
  | .slotAt => t.slotAt = s.slotAt
  | .image => t.imgEntries = s.imgEntries ∧ t.imgDisp = s.imgDisp
  | .store => t.cs = s.cs ∧ t.disp = s.disp
  | .free => t.free = s.free
  | .pending => t.pending = s.pending

/-- The register is no word of the MSI-X PBA, where any command may leave a message pending (R410). -/
abbrev Reg.notPba (r : Reg) : Prop := r.addr < 0x50800 ∨ 0x50808 ≤ r.addr

/-- From `s` to `t` nothing has changed but the listed parts, fields that share a bit with a field of `w`, the
outputs, ALERT_N and the pending bits of MSI-X. -/
structure Frame (s t : State) (ps : List Part) (w : Fld → Prop) : Prop where
  part : ∀ p, p ∉ ps → s.samePart t p
  reg : ∀ x : Fld, x.reg.notPba → (∀ y, w y → y.apart x) → t.get x = s.get x

/-- The fields of the registers of any group at sub-offsets from `lo` up to `hi` (R435). -/
def groupRegs (lo hi : Nat) (y : Fld) : Prop := ∃ g, groupBase g + lo ≤ y.reg.addr ∧ y.reg.addr < groupBase g + hi

/-- The fields of the SQ registers, where causes and the scheduler act (R256, R238). -/
def causeField (y : Fld) : Prop := groupRegs 0xB000 0xC000 y

/-- The registers of a range of addresses. -/
def regsIn (lo hi : Nat) (y : Fld) : Prop := lo ≤ y.reg.addr ∧ y.reg.addr < hi

/-- What a violation on a channel of group g may change: its flag, the trip status of its die and PARK there. -/
def violField (g : Nat) (y : Fld) : Prop :=
  y = CP_STATUS_VIOL g ∨ y = CP_TGSTAT_VIOL (8 * (g / 8)) ∨ ∃ i < 8, y = LS_PARKSTAT_PARKED (8 * (g / 8) + i)

/-- What the output codes of group g may change: they, and by a threshold code the violations (R134). -/
def outField (g : Nat) (y : Fld) : Prop := (∃ p d, y = LS_OUT_CODE g p d) ∨ violField g y

/-- From `s` to `t` the device has sent `o`, beside interrupts. -/
def Sends (s t : State) (o : Output) : Prop := ∃ pre, t.out = pre ++ o :: s.out ∧ ∀ x ∈ pre, ∃ v, x = .msix v

/-- R325: the registers whose write only stores fields: no act of the device goes with it, and no bound across registers. -/
def RegName.plain (n : RegName) : Bool :=
  !([RegName.GL_PIN_ENABLE, .GL_RESET_GRP, .GL_RESET_DEV, .TP_TBREF_CTL, .TP_STEP, .TP_PCMP_CTL, .TG_DSK_CTL, .TG_TDR_CTL,
    .TG_CAL_CTL, .LS_PARK, .LS_MREQ, .LS_CLR, .CP_SC_CTL, .CP_SMDIV, .CP_SM_CTL, .CP_SM_WT_LO, .CP_SM_WT_HI, .CP_TGARM,
    .TD_CAL_CTL, .FQ_CTL, .FC_LOG_PTR, .FC_EV_PTR, .FC_CAP_ARM, .AQ_SOFT, .AQ_TE_ARM, .WP_CMD, .WP_SCTL, .WP_INC_LO,
    .WP_INC_HI, .SQ_CMD, .SQ_DOORBELL, .SQ_TMR_CTL, .SQ_MSGIN0, .SQ_MSGIN1, .SQ_MSGIN2, .SQ_CTX_STAT, .SQ_CTX_CFG,
    .SQ_CTX_FLAGS, .SQ_CTX_L, .SQ_CTX_Q, .MC_CMD, .MC_DISP_DATA, .MC_INJ, .CM_CMD, .SN_CMD, .SN_REL, .DG_CMD, .DG_CLASS,
    .DG_CTL, .DG_CVALID, .DG_CREF_LO, .DG_CREF_HI, .CL_DEVNUM, .CL_DOM_CTL, .CL_DOM_CMD, .CL_P_CTL, .CL_RRA_CMD, .TW_CTL,
    .TW_CMD, .HI_FLUSH, .HI_CAPRD_CTL, .HI_SPI_CTL, .HI_RING_CTL, .HI_QV_CTL, .HI_QW_CTL, .HI_RING_TAIL, .HI_QV_TAIL,
    .HI_QW_TAIL, .MSIX_VCTL, .TH_CMD, .NV_CTL, .NV_UNLOCK] : List RegName).contains n

/-- The registers that read as they are stored, and whose read does nothing else. -/
def RegName.readsPlain (n : RegName) : Bool :=
  !((latchedRegs ++ [RegName.TP_TIME_LO, .TP_PH_ANGLE, .TD_BT_DATA, .MC_DISP_DATA, .SN_RDATA, .DG_DIGEST_LO, .DG_SDIGEST_LO,
    .CL_DEVNUM, .CM_STATUS, .HI_CAUSE, .HI_GCAUSE, .GL_CLAMP_COUNT, .TH_OCH_B]).contains n) && n.latches.isEmpty

/-- A field of a register's table. -/
def RegName.fld (n : RegName) (ix : List Nat) (f : FieldSpec) : Fld := ⟨n.reg ix, f.hi, f.lo⟩

/-- A live host write acts at once: the device is READY and neither ACTIVE nor SHADOW of a pair (R375, R420). -/
def State.actsNow (s : State) : Prop := s.ready ∧ s.role ≠ roleActive ∧ s.role ≠ roleShadow

/-! ### An instruction at its slot -/

/-- Engine l runs context c, which has the slot of its next vector: its TCLK has come and no decision takes it away, the vendor's
image (R309) is loaded and passes parity, and the instruction i at its PC is dispatched (R239, R304, R305). -/
structure State.Stands (s : State) (l c : Nat) (i : Native) : Prop where
  engine : l < 32
  ctx : c < 32
  gang : s.get (SQ_GANG_M l) ≤ 5
  mayRun : s.mayRun l
  runs : s.running l = some c
  noWait : s.ctxWait l c = none
  slot : reached s.time (s.slotTime l)
  alone : s.takeDecision l = s
  image : ∀ op < 256, s.dispEntry l op = DispEntry.make (vendorDispatch.getD op 0)
  store : ∀ k < 64, s.csEntry l k = CsEntry.make (vendorEntries.getD k 0)
  instr : s.iStore l (s.ctxPc l c) = i
  dispatched : (s.engine l).dispatched ∧ s.dispatch l c = s.setEngine l { s.engine l with fresh := true }

/-- Every member of the gang led by l has one more vector to issue, which context c issued: its word, the settings of
the context (R225, R289), the request and the end of the turn that go with it. Nothing else of a group, and nothing of
another engine, has changed; `q` is the engine's message queue afterwards. -/
structure Issues (s t : State) (l c : Nat) (word : Nat → Native) (x : Option XReq) (turn : Option TurnEnd)
    (q : List Native) : Prop where
  member : ∀ g ∈ s.members l, ∃ v : Issued, t.group g = { s.group g with issue := (s.group g).issue ++ [v] } ∧
    v.word = word g ∧ v.eng = l ∧ v.ctx = c ∧ v.xreq = x ∧ v.turnEnd = turn ∧ v.sumr = sumrOf (word l) ∧
    v.lsel = t.get (SQ_CTX_CFG_LSEL l c) ∧ v.ts = (tsOf (word l) + t.get (SQ_CTX_CFG_TSB l c)) % 32
  other : ∀ g < 32, g ∉ s.members l → t.group g = s.group g
  engines : ∀ m < 32, m ≠ l → t.engine m = s.engine m
  queues : (t.engine l).msgs = q ∧ (t.engine l).refill = (s.engine l).refill ∧ (t.engine l).timers = (s.engine l).timers ∧
    (t.engine l).waits = (s.engine l).waits ∧ (t.engine l).arrived = (s.engine l).arrived

/-- The vector at A, forced or not (R261). -/
def State.wordAt (s : State) (i : Native) (force : Native → Native) (g : Nat) : Native :=
  force (s.vStore g (clampVaddr (aOf i)))

/-- The instruction of context c has executed: its PC is `pc`, RES is 0, it counts as a program clamp or not (R253,
R308), and unless the turn ends the instruction at the new PC is dispatched (R305). Beyond that only `w` may change. -/
structure Completes (s t : State) (l c pc : Nat) (turn : Option TurnEnd) (clamp : Bool) (w : List Fld) : Prop where
  place : t.ctxPc l c = pc
  res : t.get (SQ_CTX_RES_RES l c) = 0
  eng : t.get (SQ_STAT_ENG l) = engIssue
  count : t.get (SQ_CLAMP_COUNT_COUNT l) = if clamp then min (s.get (SQ_CLAMP_COUNT_COUNT l) + 1) 65535
    else s.get (SQ_CLAMP_COUNT_COUNT l)
  flag : t.get (SQ_FLAGS_CLAMP l) = if clamp then 1 else s.get (SQ_FLAGS_CLAMP l)
  last : t.get (SQ_CLAMP_LAST_PC l) = if clamp then s.ctxPc l c else s.get (SQ_CLAMP_LAST_PC l)
  next : turn = none → (t.engine l).dispatched ∧ (t.engine l).instr = s.iStore l pc
  ends : turn ≠ none → (t.engine l).turnEnding
  frame : Frame s t [.groups, .engines] (· ∈ [SQ_CTX_STAT_PC l c, SQ_CTX_RES_RES l c, SQ_STAT_ENG l,
    SQ_CLAMP_COUNT_COUNT l, SQ_FLAGS_CLAMP l, SQ_CLAMP_LAST_PC l] ++ w)

/-- The single-vector instruction i of context c has issued the vector at A and executed; `clamp` is a clamp beside
that of A. -/
def Executes (s t : State) (l c : Nat) (i : Native) (pc : Nat) (clamp : Bool) (w : List Fld) (x : Option XReq := none)
    (turn : Option TurnEnd := none) (force : Native → Native := id) : Prop :=
  Issues s t l c (s.wordAt i force) x turn (s.engine l).msgs ∧
  Completes s t l c pc turn (decide (0xFFFF < aOf i) || clamp) w

/-- It ends by advancing the PC. -/
def Advances (s t : State) (l c : Nat) (i : Native) (w : List Fld) (x : Option XReq := none)
    (turn : Option TurnEnd := none) (force : Native → Native := id) (clamp : Bool := false) : Prop :=
  Executes s t l c i (pcNext (s.ctxPc l c)) (s.ctxPc l c == 16383 || clamp) w x turn force

/-- A wait of context c has begun (R277 to R281): nothing issues, the PC stays, and the engine holds. -/
structure Holds (s t : State) (l c : Nat) (i : Native) (kind : WaitKind) (w : Fld → Prop) : Prop where
  wait : ∃ x, t.ctxWait l c = some x ∧ x.kind = kind ∧ x.instr = i ∧ x.since = s.slotTime l
  place : t.ctxPc l c = s.ctxPc l c
  eng : t.get (SQ_STAT_ENG l) = engHold
  groups : t.groups = s.groups
  frame : Frame s t [.engines] (fun y => y = SQ_STAT_ENG l ∨ w y)

/-! ### Outcomes -/

/-- A step runs: it neither faults nor is refused. -/
def Runs (o : Host.Outcome State Fault Refusal) : Prop := ∃ t, o = .next t

/-- A step runs to a state that holds something. -/
def RunsTo (o : Host.Outcome State Fault Refusal) (p : State → Prop) : Prop := ∃ t, o = .next t ∧ p t

end Sys2Proof.Machine
end

