-- ==== Sys2Proof/Certificates/Slice0/Obligations.lean ====
section
/-! DEFINITION. The statements for the provers: what the commands do, rule by rule, each with its frame. -/

section Statements

open Sys2Proof Sys2Proof.Machine

/-! ### The queue, the idle tick and the whole machine -/

/-- A step on a state with a command at the front of its queue is exec of that command on the state with the queue's
rest. -/
def Obligations.StepRunsFront : Prop :=
  ∀ (c : Instr) (rest : List Instr) (s : State), step { s with pending := c :: rest } = exec c { s with pending := rest }

/-! ### Chapter 02: time and stress phase -/

/-- R37, R38: an edge of TBREF is measured while EN is 1. The frequency error goes to TP_TBREF_ERR, a discipline in
FREE or HOLDOVER begins to ACQUIRE, LOCKED falls back to ACQUIRE beyond ±1 ppb, and the trim stays within its limit,
or untouched on a domain member other than the root; a needed trim beyond the limit ends LOCKED and the wait for it. Ten
seconds within ±1 ppb lock. 1 µs without an edge sets
TBREF_LOST with its counter and goes from LOCKED to HOLDOVER with the trim kept, from ACQUIRE to FREE with trim 0. -/
def Obligations.TimebaseDiscipline : Prop :=
  (∀ (s : State) (err need : BitVec 32), s.on TP_TBREF_CTL_EN → s.on CK_STAT_HOLDOVER = false →
    RunsTo (exec (.tbrefEdge err need) s) fun t =>
    t.tp.tbLast = some s.time ∧ t.getInt TP_TBREF_ERR_ERR = err.toInt ∧
    (s.get TP_STATUS_TB_STATE = tbFree ∨ s.get TP_STATUS_TB_STATE = tbHoldover → t.get TP_STATUS_TB_STATE = tbAcquire) ∧
    (s.get TP_STATUS_TB_STATE = tbLocked → 10 < err.toInt → t.get TP_STATUS_TB_STATE = tbAcquire) ∧
    (trimLimit < need.toInt → t.tp.tbGood = none ∧
      (s.get TP_STATUS_TB_STATE = tbLocked → t.get TP_STATUS_TB_STATE = tbAcquire)) ∧
    (s.isMember → s.isRoot = false → t.get TP_TBREF_TRIM_TRIM = s.get TP_TBREF_TRIM_TRIM) ∧
    (s.isRoot → trimLimit < need.toInt → t.getInt TP_TBREF_TRIM_TRIM = trimLimit) ∧
    (s.isRoot → -trimLimit ≤ t.getInt TP_TBREF_TRIM_TRIM ∧ t.getInt TP_TBREF_TRIM_TRIM ≤ trimLimit) ∧
    Frame s t [.tp, .free] (· ∈ [TP_STATUS_TB_STATE, TP_TBREF_ERR_ERR, TP_TBREF_TRIM_TRIM])) ∧
  (∀ (s : State) (since : Time), s.get TP_STATUS_TB_STATE = tbAcquire → s.tp.tbGood = some since →
    16000000000 ≤ s.since since → RunsTo (exec .disciplineLock s) fun t =>
    t.get TP_STATUS_TB_STATE = tbLocked ∧ Frame s t [] (· ∈ [TP_STATUS_TB_STATE])) ∧
  (∀ (s : State) (last : Time), s.on TP_TBREF_CTL_EN → s.tp.tbLast = some last → 1600 ≤ s.since last →
    RunsTo (exec .tbrefLost s) fun t =>
    t.get TP_FLAGS_TBREF_LOST = 1 ∧ t.get TP_CNT2_TBREF_LOST = min (s.get TP_CNT2_TBREF_LOST + 1) 65535 ∧
    (s.get TP_STATUS_TB_STATE = tbLocked →
      t.get TP_STATUS_TB_STATE = tbHoldover ∧ t.get TP_TBREF_TRIM_TRIM = s.get TP_TBREF_TRIM_TRIM) ∧
    (s.get TP_STATUS_TB_STATE = tbAcquire → t.get TP_STATUS_TB_STATE = tbFree ∧ t.get TP_TBREF_TRIM_TRIM = 0) ∧
    Frame s t [.tp] (· ∈ [TP_STATUS_TB_STATE, TP_TBREF_ERR_ERR, TP_TBREF_TRIM_TRIM, TP_FLAGS_TBREF_LOST,
      TP_CNT2_TBREF_LOST]))

/-- R39 to R41: an input is accepted once it has held a level for FILT TCLK, three TCLK later. In LOCKED with quadrature
input, PH_A rising while PH_B is low is one forward count: p goes up by 1, and from CPC − 1 to 0 with the cycle count up by
1; PHASE then starts from the angle floor(p × 2^32 / CPC) and DIR is 0. With INV the same change counts in reverse, and from
0 goes to CPC − 1. A sample in which both inputs changed counts nothing and sets QUAD_ERR. A pulse train counts forward at a
rising edge of PH_P. A count in LOST moves the position and leaves PHASE where it is (R49). -/
def Obligations.PhaseCounts : Prop :=
  (∀ (f : Nat) (old x : Bool) (n r : List Bool), n.length = 3 → accepted f old (n ++ List.replicate (f + 1) x ++ r) = x) ∧
  (∀ (f : Nat) (old x : Bool) (n l r : List Bool), n.length = 3 → l.length = f → (!x) ∈ l →
    accepted f old (n ++ x :: l ++ r) = old) ∧
  (∀ (s : State) (a b p : List Bool), s.get TP_PH_CTL_SRC = srcQuad → s.phState = phLocked → s.on TP_PH_CTL_INV = false →
    s.tp.inA = false → accepted (s.get TP_PH_CTL_FILT) false a → s.tp.inB = false →
    accepted (s.get TP_PH_CTL_FILT) false b = false → s.tp.pos < s.cpc → RunsTo (exec (.phaseCount a b p) s) fun t =>
      t.tp.pos = (if s.tp.pos + 1 = s.cpc then 0 else s.tp.pos + 1) ∧
      t.tp.base.toNat % 2 ^ 32 = t.tp.pos * 2 ^ 32 / s.cpc ∧
      t.tp.base.toNat / 2 ^ 32 = (s.tp.base.toNat / 2 ^ 32 + if s.tp.pos + 1 = s.cpc then 1 else 0) % 2 ^ 32 ∧
      t.get TP_STATUS_DIR = 0 ∧ t.get TP_STATUS_PH_STATE = phLocked ∧ t.tp.lastCount = s.time ∧
      Frame s t [.tp, .engines, .free] (· ∈ [TP_STATUS_DIR])) ∧
  (∀ (s : State) (a b p : List Bool), s.get TP_PH_CTL_SRC = srcQuad → s.phState = phLocked → s.on TP_PH_CTL_INV →
    s.tp.inA = false → accepted (s.get TP_PH_CTL_FILT) false a → s.tp.inB = false →
    accepted (s.get TP_PH_CTL_FILT) false b = false → s.tp.pos < s.cpc → RunsTo (exec (.phaseCount a b p) s) fun t =>
      t.tp.pos = (if s.tp.pos = 0 then s.cpc - 1 else s.tp.pos - 1) ∧ t.get TP_STATUS_DIR = 1) ∧
  (∀ (s : State) (a b p : List Bool), s.get TP_PH_CTL_SRC = srcQuad →
    accepted (s.get TP_PH_CTL_FILT) s.tp.inA a ≠ s.tp.inA → accepted (s.get TP_PH_CTL_FILT) s.tp.inB b ≠ s.tp.inB →
    RunsTo (exec (.phaseCount a b p) s) fun t =>
      t.tp.pos = s.tp.pos ∧ t.tp.base = s.tp.base ∧ t.get TP_FLAGS_QUAD_ERR = 1 ∧
      t.get TP_CNT0_QUAD_ERR = min (s.get TP_CNT0_QUAD_ERR + 1) 65535 ∧
      Frame s t [.tp] (· ∈ [TP_FLAGS_QUAD_ERR, TP_CNT0_QUAD_ERR])) ∧
  (∀ (s : State) (a b p : List Bool), s.get TP_PH_CTL_SRC = srcPulse → s.phState = phLocked → s.tp.inP = false →
    accepted (s.get TP_PH_CTL_FILT) false p → s.tp.pos < s.cpc → RunsTo (exec (.phaseCount a b p) s) fun t =>
      t.tp.pos = (if s.tp.pos + 1 = s.cpc then 0 else s.tp.pos + 1) ∧ t.get TP_STATUS_DIR = 0) ∧
  (∀ (s : State) (a b p : List Bool), s.get TP_PH_CTL_SRC = srcPulse → s.phState = phLost → s.tp.inP = false →
    accepted (s.get TP_PH_CTL_FILT) false p → s.tp.pos < s.cpc → RunsTo (exec (.phaseCount a b p) s) fun t =>
      t.tp.pos = (if s.tp.pos + 1 = s.cpc then 0 else s.tp.pos + 1) ∧ t.phase = s.phase ∧ t.tp.lastCount = s.time ∧
      Frame s t [.tp] (· ∈ [TP_STATUS_DIR]))

/-- R46, R48, R50, R51: STALL µs without a count in LOCKED give STALLED with velocity 0 and the STALL flag. A forward
rising edge of PH_I sets the position to IDXPOS: from ACQUIRE with cycle 0, from LOST with the held cycle + 1, in
LOCKED within IDXTOL with the cycle unchanged; a larger error sets INDEX_ERR and PH_LOST and enters LOST. -/
def Obligations.PhaseStallAndIndex : Prop :=
  (∀ s : State, s.phState = phLocked → s.get TP_PH_CTL_SRC ≠ srcCleif →
    usTclk (s.get TP_PH_LOOP_STALL) ≤ s.since s.tp.lastCount → RunsTo (exec .phaseStall s) fun t =>
      t.get TP_STATUS_PH_STATE = phStalled ∧ t.tp.vel = 0 ∧ t.tp.base = s.tp.base ∧ t.get TP_FLAGS_STALL = 1 ∧
      t.get TP_CNT1_STALL = min (s.get TP_CNT1_STALL + 1) 65535 ∧
      Frame s t [.tp] (· ∈ [TP_STATUS_PH_STATE, TP_FLAGS_STALL, TP_CNT1_STALL])) ∧
  (∀ (s : State) (l : List Bool), s.get TP_PH_CTL_SRC = srcQuad → s.on TP_PH_CTL_IDX_EN → s.on TP_STATUS_DIR = false →
    s.tp.inI = false → accepted (s.get TP_PH_CTL_FILT) false l → 0 < s.cpc →
    (s.phState = phAcquire → RunsTo (exec (.phaseIndex l) s) fun t =>
      t.get TP_STATUS_PH_STATE = phLocked ∧ t.tp.pos = s.get TP_PH_IDXPOS_IDXPOS % s.cpc ∧
      t.tp.base.toNat = t.tp.pos * 2 ^ 32 / s.cpc ∧
      Frame s t [.tp, .free] (· ∈ [TP_STATUS_PH_STATE, TP_PH_IDXERR_IDXERR])) ∧
    (s.phState = phLost → RunsTo (exec (.phaseIndex l) s) fun t =>
      t.get TP_STATUS_PH_STATE = phLocked ∧ t.tp.pos = s.get TP_PH_IDXPOS_IDXPOS % s.cpc ∧
      t.tp.base.toNat / 2 ^ 32 = (s.tp.base.toNat / 2 ^ 32 + 1) % 2 ^ 32) ∧
    (s.phState = phLocked → s.tp.pos = s.get TP_PH_IDXPOS_IDXPOS % s.cpc → RunsTo (exec (.phaseIndex l) s) fun t =>
      t.get TP_PH_IDXERR_IDXERR = 0 ∧ t.get TP_STATUS_PH_STATE = phLocked ∧ t.tp.pos = s.tp.pos ∧
      t.tp.base.toNat / 2 ^ 32 = s.tp.base.toNat / 2 ^ 32) ∧
    (s.phState = phLocked → s.get TP_PH_IDXPOS_IDXPOS = 0 → 2 * s.tp.pos < s.cpc → s.get TP_PH_LOOP_IDXTOL < s.tp.pos →
      RunsTo (exec (.phaseIndex l) s) fun t =>
      t.get TP_PH_IDXERR_IDXERR = min s.tp.pos 32767 ∧ t.get TP_STATUS_PH_STATE = phLost ∧
      t.get TP_FLAGS_INDEX_ERR = 1 ∧ t.get TP_FLAGS_PH_LOST = 1 ∧ t.tp.base = s.tp.base))

/-- R52, R54, R55: a root with PH_TX sends a PHASE sample down ports B and C 2,048 TCLK after the last; a device with
SRC = CLEIF takes a sample's cycle, angle and velocity, and is LOST after 64 sample periods without one. A write of
TP_STEP puts STEP in force from the next TCLK and stores that TIME; a received STEP acts at its TIME, at once if that
has passed (a local write due later stays the register's value), and otherwise waits for it. -/
def Obligations.PhaseSamplesAndStep : Prop :=
  (∀ s : State, s.isRoot → s.on TP_DOM_CTL_PH_TX → s.get TP_PH_CTL_SRC ≠ srcCleif → 2048 ≤ s.since s.tp.lastSample →
    (s.port 1).queue = [] → RunsTo (exec .phaseSampleBroadcast s) fun t =>
      t.tp.lastSample = s.time ∧
      (∃ p, (t.port 1).queue = [p] ∧ p.type = 3 ∧ p.sub = 5 ∧
        p.payload.take 2 = [BitVec.ofNat 72 s.time.toNat, BitVec.ofNat 72 s.phase.toNat]) ∧
      Frame s t [.tp, .cl] (fun y => y = CL_FLAGS_FWDDROP ∨ ∃ x, y = CL_P_DROP_DROP x)) ∧
  (∀ (s : State) (time : BitVec 56) (phase : BitVec 64) (vel : BitVec 32), s.get TP_PH_CTL_SRC = srcCleif →
    s.phState ≠ phLost → RunsTo (exec (.phaseSampleReceive time phase vel 2) s) fun t =>
      t.tp.base = phase ∧ t.tp.vel = vel.toInt ∧ t.tp.off = vel.toInt * (s.since time : Int) ∧
      t.get TP_STATUS_PH_STATE = phLocked ∧ Frame s t [.tp, .engines] (· ∈ [TP_STATUS_PH_STATE])) ∧
  (∀ s : State, s.get TP_PH_CTL_SRC = srcCleif → s.phState ≠ phLost → 131072 ≤ s.since s.tp.lastSample →
    RunsTo (exec .phaseSampleTimeout s) fun t =>
      t.get TP_STATUS_PH_STATE = phLost ∧ t.get TP_FLAGS_PH_LOST = 1 ∧ t.tp = s.tp) ∧
  (∀ (s : State) (v : Word), s.actsNow → s.isRoot = false → (∀ x ∈ s.tp.stepLog, reached (s.time + 1) x.1) →
    s.tp.stepLog = [] ∨ (s.tp.stepLog.take 63).any (fun x => reached s.time x.1) → RunsTo (exec (.stepWrite v) s) fun t =>
      t.get TP_STEP_STEP = v.toNat % 65536 ∧ t.stepInForce = s.stepInForce ∧ t.stepAt (s.time + 1) = v.toNat % 65536 ∧
      t.getTime TP_STEP_TIME_LO_T_LO TP_STEP_TIME_HI_T_HI = s.time + 1 ∧
      Frame s t [.tp] (· ∈ [TP_STEP_STEP, TP_STEP_TX, TP_STEP_TIME_LO_T_LO, TP_STEP_TIME_HI_T_HI])) ∧
  (∀ (s : State) (step : BitVec 16) (at_ : BitVec 56), RunsTo (exec (.stepBroadcastReceive step at_) s) fun t =>
      (reached s.time at_ → (∀ x ∈ s.tp.stepLog, reached s.time x.1) →
        t.get TP_STEP_STEP = step.toNat ∧ t.stepInForce = step.toNat) ∧
      (reached s.time at_ → (∃ x ∈ s.tp.stepLog, reached s.time x.1 = false) → t.get TP_STEP_STEP = s.get TP_STEP_STEP) ∧
      (reached s.time at_ = false → t.get TP_STEP_STEP = s.get TP_STEP_STEP ∧
        t.tp = { s.tp with stepPend := s.tp.stepPend ++ [(step, at_)] }) ∧
      Frame s t [.tp] (· ∈ [TP_STEP_STEP, TP_STEP_TIME_LO_T_LO, TP_STEP_TIME_HI_T_HI])) ∧
  (∀ (s : State) (step : BitVec 16) (at_ : BitVec 56) (rest : List (BitVec 16 × Time)), s.tp.stepPend = (step, at_) :: rest →
    reached s.time at_ → (∀ x ∈ rest, reached s.time x.2 = false) → (∀ x ∈ s.tp.stepLog, reached at_ x.1) →
    RunsTo (exec .stepBroadcastApply s) fun t =>
      t.get TP_STEP_STEP = step.toNat ∧ t.tp.stepPend = rest ∧ t.stepAt at_ = step.toNat ∧
      t.getTime TP_STEP_TIME_LO_T_LO TP_STEP_TIME_HI_T_HI = at_ ∧
      Frame s t [.tp] (· ∈ [TP_STEP_STEP, TP_STEP_TIME_LO_T_LO, TP_STEP_TIME_HI_T_HI]))

/-- R61, R62: a write of TP_PCMPm_CTL with ARM = 1 samples the target cycle and angle, clears REACHED and arms; in
LOCKED, at or past the target, the armed comparator sets REACHED, clears ARM and raises the phase-slot cause. A due
passage of an enabled slot records its cycle and raises the cause in the SQ registers of the engines it names. -/
def Obligations.PhaseComparatorsAndSlots : Prop :=
  (∀ (s : State) (m : Fin 8) (v : Word), s.actsNow → v.getLsbD 0 → RunsTo (exec (.pcmpArm m v) s) fun t =>
      t.get (TP_PCMP_CTL_ARM m) = 1 ∧ t.get (TP_PCMP_CTL_REACHED m) = 0 ∧ t.get (TP_PCMP_CTL_CTX m) = v.toNat / 2 % 32 ∧
      t.get (TP_PCMP_CTL_PRIO m) = v.toNat / 64 % 8 ∧
      vget t.tp.pcmpTgt m 0 = BitVec.ofNat 64 (s.get (TP_PCMP_CYC_CYC m) * 2 ^ 32 + s.get (TP_PCMP_ANG_ANG m)) ∧
      vget t.tp.pcmpAt m 0 = s.time ∧
      Frame s t [.tp] (· ∈ [TP_PCMP_CTL_ARM m, TP_PCMP_CTL_REACHED m, TP_PCMP_CTL_CTX m, TP_PCMP_CTL_PRIO m])) ∧
  (∀ (s : State) (m : Fin 8), s.on (TP_PCMP_CTL_ARM m) → s.phState = phLocked →
    phaseReached s.phase (vget s.tp.pcmpTgt m 0) → s.time ≠ vget s.tp.pcmpAt m 0 → RunsTo (exec (.pcmpReached m) s) fun t =>
      t.get (TP_PCMP_CTL_REACHED m) = 1 ∧ t.get (TP_PCMP_CTL_ARM m) = 0 ∧
      Frame s t [.engines] (fun y => y = TP_PCMP_CTL_REACHED m ∨ y = TP_PCMP_CTL_ARM m ∨ causeField y)) ∧
  (∀ (s : State) (i : Fin 16) (c : BitVec 32) (l : List (BitVec 32)), vget s.tp.slotDue i [] = c :: l → s.on (TP_SLOT_CTL_EN i) →
    s.phState = phLocked → RunsTo (exec (.phaseSlotFire i) s) fun t =>
      t.get (TP_SLOT_LAST_LAST i) = c.toNat ∧ vget t.tp.slotDue i [] = l.filter (· != c) ∧
      c ∈ vget t.tp.slotFired i [] ∧ vget t.slotAt i none = some s.time ∧
      Frame s t [.tp, .slotAt, .engines] (fun y => y = TP_SLOT_LAST_LAST i ∨ causeField y))
/-! ### Chapter 03: deskew, TDR and CAL_EXT -/

/-- R84 to R88: a write of RUN to TG_DSK_CTL on an idle engine starts the deskew with its MODE and LS and parks the group;
while a context runs, or with MODE = 0 on a SHADOW, it is REFUSED and changes nothing else; while a run is in progress it has
no effect. At the end the passing channels take DC_INT and DD_INT; a failing channel shows in FAILMAP with STATE = ERROR
and the DSK_ERR flag. A TDR run parks the other channels and ends with the mean of its valid repetitions, to less than one
unit, and their spread, or with NO_REFL when none was valid. -/
def Obligations.DeskewRuns : Prop :=
  (∀ (s : State) (g : GroupIx) (v : Word), s.ready → v.getLsbD 0 → s.engineBusy g = false →
    s.role ≠ roleShadow ∨ v.getLsbD 1 → s.get (TG_DSK_STAT_STATE g) ≠ dskRunning → RunsTo (exec (.dskRun g v) s) fun t =>
      t.get (TG_DSK_STAT_STATE g) = dskRunning ∧
      (∃ d, (t.group g).dsk = some d ∧ d.start = s.time ∧ d.comparePath = v.getLsbD 1 ∧ d.ls = v.toNat / 4 % 8 ∧
        d.driving = false) ∧
      (∀ p, p < 16 → t.parked g p) ∧
      t.get (TG_DSK_CTL_MODE g) = v.toNat / 2 % 2 ∧ t.get (TG_DSK_CTL_LS g) = v.toNat / 4 % 8 ∧
      Frame s t [.groups, .sys, .free] (fun y => y.reg = TG_DSK_CTL g ∨ y = TG_DSK_STAT_STATE g ∨ groupRegs 0x4000 0x7000 y)) ∧
  (∀ (s : State) (g : GroupIx) (v : Word), s.ready → v.getLsbD 0 →
    s.engineBusy g ∨ s.role = roleShadow ∧ v.getLsbD 1 = false →
    RunsTo (exec (.dskRun g v) s) fun t => t.get (TG_DSK_STAT_STATE g) = dskRefused ∧
      Frame s t [] (· ∈ [TG_DSK_STAT_STATE g])) ∧
  (∀ (s : State) (g : GroupIx) (v : Word), s.ready → v.getLsbD 0 → s.engineBusy g = false →
    s.role ≠ roleShadow ∨ v.getLsbD 1 → s.get (TG_DSK_STAT_STATE g) = dskRunning →
    RunsTo (exec (.dskRun g v) s) fun t => Frame s t [] (fun _ => False)) ∧
  (∀ (s : State) (g : GroupIx) (d : DskRun) (res : List DskMeas) (dc dd : Nat → Nat) (temp : BitVec 16),
    (s.group g).dsk = some d → s.dskOver d →
    (∀ p, p < 16 → (res[p]?).bind (s.dskResult g p d.comparePath) = some (dc p, dd p)) →
    RunsTo (exec (.dskComplete g res temp) s) fun t =>
      (∀ p, p < 16 → t.get (TG_DSKI_DC_INT g p) = dc p ∧ t.get (TG_DSKI_DD_INT g p) = dd p) ∧
      t.get (TG_DSK_STAT_FAILMAP g) = 0 ∧ t.get (TG_DSK_STAT_STATE g) = dskDone ∧
      t.get (TG_DSK_TEMP_TEMP g) = temp.toNat ∧ (t.group g).dsk = none ∧
      Frame s t [.groups, .sys] (fun y => (∃ p, y = TG_DSKI_DC_INT g p ∨ y = TG_DSKI_DD_INT g p) ∨ y.reg = TG_DSK_STAT g ∨
        y = TG_DSK_TEMP_TEMP g ∨ groupRegs 0x4000 0x7000 y)) ∧
  (∀ (s : State) (g : GroupIx) (d : DskRun) (res : List DskMeas) (temp : BitVec 16) (p : Nat), (s.group g).dsk = some d →
    s.dskOver d → p < 16 → (res[p]?).bind (s.dskResult g p d.comparePath) = none →
    RunsTo (exec (.dskComplete g res temp) s) fun t =>
      t.bit (TG_DSK_STAT_FAILMAP g) p ∧ t.get (TG_DSK_STAT_STATE g) = dskError ∧
      t.get (TG_DSKI_DC_INT g p) = s.get (TG_DSKI_DC_INT g p) ∧ t.get (TG_DSKI_DD_INT g p) = s.get (TG_DSKI_DD_INT g p) ∧
      t.get (TG_FLAGS_DSK_ERR g) = 1 ∧
      t.get (TG_CNT1_DSK_ERR g) = min (s.get (TG_CNT1_DSK_ERR g) + 1) 65535 ∧ (t.group g).dsk = none) ∧
  (∀ (s : State) (g : GroupIx) (v : Word), s.ready → v.getLsbD 31 →
    (s.engineBusy g = false → s.role ≠ roleShadow → s.get (TG_TDR_STAT_STATE g) ≠ dskRunning →
      RunsTo (exec (.tdrRun g v) s) fun t =>
        t.get (TG_TDR_STAT_STATE g) = dskRunning ∧
        (∃ r, (t.group g).tdr = some r ∧ r.start = s.time ∧ r.ch = v.toNat % 16 ∧ r.ls = v.toNat / 256 % 8 ∧
          r.pol = v.getLsbD 11 ∧ r.reps = min 12 (v.toNat / 16 % 16)) ∧
        t.get (TG_TDR_CTL_REPS g) = min 12 (v.toNat / 16 % 16) ∧ (∀ p, p < 16 → p ≠ v.toNat % 16 → t.parked g p) ∧
        Frame s t [.groups, .sys] (fun y => y.reg = TG_TDR_CTL g ∨ y = TG_TDR_STAT_STATE g ∨ outField g y
          ∨ y.reg = GL_CLAMP_COUNT ∨ y.reg = GL_CLAMP_LAST)) ∧
    (s.engineBusy g ∨ s.role = roleShadow → RunsTo (exec (.tdrRun g v) s) fun t =>
        t.get (TG_TDR_STAT_STATE g) = dskRefused ∧ Frame s t [] (· ∈ [TG_TDR_STAT_STATE g]))) ∧
  (∀ (s : State) (g : GroupIx) (r : TdrRun) (reps : List (List (BitVec 66) × List (BitVec 66))), (s.group g).tdr = some r →
    r.reps ≤ 12 → reps.length = 2 ^ r.reps → usTclk (2 ^ r.reps) ≤ s.since r.start →
    (∀ l, reps.filterMap tdrTrip = l → l ≠ [] → RunsTo (exec (.tdrComplete g reps.length (reps.map (·.1)) (reps.map (·.2))) s) fun t =>
        t.get (TG_TDR_STAT_STATE g) = dskDone ∧ t.get (TG_TDR_STAT_VALID g) = l.length ∧
        ((t.get (TG_TDR_RES_RT g) * l.length : Int) - 16 * (l.foldl (· + ·) 0 : Nat)).natAbs < l.length ∧
        (∀ x, (∀ y ∈ l, y = x) → t.get (TG_TDR_RES_RT g) = 16 * x ∧ t.get (TG_TDR_SPREAD_SPREAD g) = 0) ∧
        (t.group g).tdr = none ∧
        Frame s t [.groups, .sys, .free] (fun y => y.reg = TG_TDR_STAT g ∨ y = TG_TDR_RES_RT g ∨
          y = TG_TDR_SPREAD_SPREAD g ∨ outField g y)) ∧
    (reps.filterMap tdrTrip = [] → RunsTo (exec (.tdrComplete g reps.length (reps.map (·.1)) (reps.map (·.2))) s) fun t =>
        t.get (TG_TDR_STAT_STATE g) = dskError ∧ t.get (TG_TDR_STAT_VALID g) = 0 ∧ t.get (TG_TDR_RES_RT g) = 0 ∧
        t.get (TG_FLAGS_NO_REFL g) = 1 ∧ t.get (TG_CNT2_NO_REFL g) = min (s.get (TG_CNT2_NO_REFL g) + 1) 65535 ∧
        (t.group g).tdr = none))

/-- R89: in mode IN an edge of CAL_EXT is counted modulo 256 and OFS becomes the mean of the offsets measured since MODE
became IN, to less than one unit; 1 ms without one returns the tree to the internal edge. In mode OUT a write of ARM arms
the edge at the programmed TIME, or at the next TCLK when that has passed, and FINE ticks later; the edge is driven then,
and repeats every 2^(8 + RPT) TCLK unless RPT is 0. -/
def Obligations.CalExt : Prop :=
  (∀ (s : State) (ofs : BitVec 24), s.get (TG_CAL_CTL_MODE 0) = 1 →
    (s.sys.calSum + ofs.toInt).natAbs ≤ 8388606 * (s.sys.calN + 1) → RunsTo (exec (.calExtEdge ofs) s) fun t =>
      (t.getInt (TG_CAL_MEAS_OFS 0) * (s.sys.calN + 1 : Nat) - (s.sys.calSum + ofs.toInt)).natAbs < s.sys.calN + 1 ∧
      t.get (TG_CAL_MEAS_CNT 0) = (s.get (TG_CAL_MEAS_CNT 0) + 1) % 256 ∧
      t.sys = { s.sys with calExt := true, calLast := s.time, calN := s.sys.calN + 1, calSum := s.sys.calSum + ofs.toInt } ∧
      Frame s t [.sys, .free] (· ∈ [TG_CAL_MEAS_OFS 0, TG_CAL_MEAS_CNT 0])) ∧
  (∀ s : State, s.sys.calExt → 1600000 ≤ s.since s.sys.calLast → RunsTo (exec .calExtTimeout s) fun t =>
      t.sys = { s.sys with calExt := false } ∧ Frame s t [.sys] (fun _ => False)) ∧
  (∀ (s : State) (v : Word), s.ready → v.toNat % 4 = 2 → v.getLsbD 3 → RunsTo (exec (.calArm v) s) fun t =>
      t.get (TG_CAL_CTL_MODE 0) = 2 ∧ t.get (TG_CAL_CTL_RPT 0) = v.toNat / 16 % 16 ∧
      t.get (TG_CAL_CTL_FINE 0) = v.toNat / 65536 % 1024 ∧
      t.sys.calNext = some (tickOf (if reached s.time (s.getTime (TG_CAL_TLO_T_LO 0) (TG_CAL_THI_T_HI 0)) then s.time + 1
        else s.getTime (TG_CAL_TLO_T_LO 0) (TG_CAL_THI_T_HI 0)) + BitVec.ofNat 66 (v.toNat / 65536 % 1024)) ∧
      Frame s t [.sys] (· ∈ [TG_CAL_CTL_MODE 0, TG_CAL_CTL_RPT 0, TG_CAL_CTL_FINE 0])) ∧
  (∀ (s : State) (at_ : Tick), s.sys.calNext = some at_ → reached s.time (tclkOf at_) → RunsTo (exec .calOutEdge s) fun t =>
      Sends s t (.calExt at_) ∧
      t.sys.calNext = (if s.get (TG_CAL_CTL_RPT 0) = 0 then none
        else some (at_ + BitVec.ofNat 66 (1024 * 2 ^ (8 + s.get (TG_CAL_CTL_RPT 0))))) ∧
      Frame s t [.sys] (fun _ => False))

/-! ### Chapter 04: levels, PARK and measurement -/

/-- R94, R95, R97, R98: a pending level-set select reaches the die at its TCLK and shows in LS_SELSTAT; committed LS
registers act at the die; each DAC then has the target that they give; a slew step moves the output code by at most STEP
toward the target, and the output that has arrived stops; at the end of a deglitch hold the output takes the target. -/
def Obligations.DacOutputs : Prop :=
  (∀ (s : State) (g : GroupIx) (sel : Nat) (at_ : Time) (rest : List (Nat × Time)),
    (s.group g).lselPend = (sel, at_) :: rest → reached s.time at_ → sel < 8 →
    (s.group g).lsPend.head?.map (·.1) ≠ some (some at_) → RunsTo (exec (.levelSelectChange g) s) fun t =>
      t.get (LS_SELSTAT_SEL g) = sel ∧ (t.group g).lselPend = rest ∧
      (∀ p d, p < 16 → d < 6 → (t.dac g p d).tgt.toNat = t.targetCode g p d) ∧
      Frame s t [.groups, .sys] (fun y => y = LS_SELSTAT_SEL g ∨ outField g y)) ∧
  (∀ (s : State) (g : GroupIx) (at_ : Time) (regs : RegFile) (rest : List (Option Time × RegFile)),
    (s.group g).lsPend = (some at_, regs) :: rest → reached s.time at_ → regs.rising →
    rest.head?.map (·.1) ≠ some (some at_) → (s.group g).lselPend.head?.map (·.2) ≠ some at_ →
    RunsTo (exec (.lsCommitEffect g) s) fun t =>
      (t.group g).lsPend = rest ∧
      (∀ p l d, p < 16 → l < 8 → d < 6 → t.dieGet (levelCode g p l d) = regs.get (levelCode g p l d)) ∧
      (∀ p d, p < 16 → d < 6 → (t.dac g p d).tgt.toNat = t.targetCode g p d) ∧
      Frame s t [.groups, .die, .sys] (fun y => y.reg = LS_PARKSTAT g ∨ outField g y)) ∧
  (∀ (s : State) (g : GroupIx) (p : Pos) (d : Fin 6) (at_ : Time), (s.dac g p d).slew = some at_ → reached s.time at_ →
    s.outCode g p d < (s.dac g p d).tgt.toNat → RunsTo (exec (.slewStep g p d) s) fun t =>
      t.outCode g p d = min (s.outCode g p d + s.dieGet (LS_SLEW_STEP g p)) (s.dac g p d).tgt.toNat ∧
      ((t.dac g p d).slew = none ↔ t.outCode g p d = (s.dac g p d).tgt.toNat) ∧
      Frame s t [.groups, .sys] (fun y => y = LS_OUT_CODE g p d ∨ violField g y)) ∧
  (∀ (s : State) (g : GroupIx) (p : Pos) (d : Fin 6) (at_ : Time), (s.dac g p d).slew = some at_ → reached s.time at_ →
    (s.dac g p d).tgt.toNat < s.outCode g p d → RunsTo (exec (.slewStep g p d) s) fun t =>
      t.outCode g p d = max (s.outCode g p d - s.dieGet (LS_SLEW_STEP g p)) (s.dac g p d).tgt.toNat) ∧
  (∀ (s : State) (g : GroupIx) (p : Pos) (d : Fin 6) (at_ : Time), (s.dac g p d).hold = some at_ →
    holdTclk ≤ s.since at_ → RunsTo (exec (.deglitchHoldEnd g p d) s) fun t =>
      t.outCode g p d = s.targetCode g p d ∧ (t.dac g p d).hold = none ∧
      Frame s t [.groups, .sys] (fun y => y = LS_OUT_CODE g p d ∨ violField g y))

/-- R99, R100, R102: at the clear instant every DAC output of the die stands at its clear code, with VALID 0 on every
comparator; at the release instant CLR_N is released and each DAC has the target then in force. A write of LS_CLR stores the
clear code, which is the DAC's target if CLR_N is low. A rail more than 5 % from its declared value sets LS_FLAGS.RAIL with
its counter, and another changes neither. -/
def Obligations.ClearAndRails : Prop :=
  (∀ (s : State) (k : DieIx), vget s.sys.clrN k.val true = true → RunsTo (exec (.clrNFall k) s) fun t =>
      vget t.sys.clrN k.val true = false ∧
      (∀ i p d, i < 8 → p < 16 → d < 6 → t.outCode (8 * k.val + i) p d = s.get (LS_CLR_CODE (8 * k.val + i) p d)) ∧
      (∀ i p, i < 8 → p < 16 → t.cmpValid (8 * k.val + i) p = false) ∧
      Frame s t [.groups, .sys] (groupRegs 0x4000 0x7000)) ∧
  (∀ (s : State) (k : DieIx), vget s.sys.clrN k.val true = false → RunsTo (exec (.clrNRise k) s) fun t =>
      vget t.sys.clrN k.val true = true ∧
      (∀ i p d, i < 8 → p < 16 → d < 6 → (t.dac (8 * k.val + i) p d).tgt.toNat = t.targetCode (8 * k.val + i) p d) ∧
      Frame s t [.groups, .sys] (fun y => ∃ g, outField g y)) ∧
  (∀ (s : State) (g : GroupIx) (p : Pos) (d : Fin 6) (v : Word), s.actsNow →
    RunsTo (exec (.clearCodeWrite g p d v) s) fun t =>
      t.get (LS_CLR_CODE g p d) = v.toNat % 65536 ∧ t.get DG_STAT_STALE = 1 ∧
      (s.clrLow g → (t.dac g p d).tgt.toNat = v.toNat % 65536) ∧
      Frame s t [.groups, .sys] (fun y => y = LS_CLR_CODE g p d ∨ y = LS_OUT_CODE g p d ∨ violField g y ∨ y = DG_STAT_STALE)) ∧
  (∀ (s : State) (k : DieIx) (vdrp vdrn : BitVec 16) (p n : Int),
    p = (BitVec.ofNat 16 (s.dieGet (LS_RAIL_VDRP (8 * k.val)))).toInt →
    n = (BitVec.ofNat 16 (s.dieGet (LS_RAIL_VDRN (8 * k.val)))).toInt → RunsTo (exec (.railMeasure k vdrp vdrn) s) fun t =>
      t.get (LS_RAILMEAS_VDRP (8 * k.val)) = vdrp.toNat ∧ t.get (LS_RAILMEAS_VDRN (8 * k.val)) = vdrn.toNat ∧
      (5 * p.natAbs < 100 * (vdrp.toInt - p).natAbs ∨ 5 * n.natAbs < 100 * (vdrn.toInt - n).natAbs →
        t.get (LS_FLAGS_RAIL (8 * k.val)) = 1 ∧
        t.get (LS_CNT2_RAIL (8 * k.val)) = min (s.get (LS_CNT2_RAIL (8 * k.val)) + 1) 65535) ∧
      (100 * (vdrp.toInt - p).natAbs ≤ 5 * p.natAbs → 100 * (vdrn.toInt - n).natAbs ≤ 5 * n.natAbs →
        t.get (LS_FLAGS_RAIL (8 * k.val)) = s.get (LS_FLAGS_RAIL (8 * k.val)) ∧
        t.get (LS_CNT2_RAIL (8 * k.val)) = s.get (LS_CNT2_RAIL (8 * k.val))) ∧
      Frame s t [] (· ∈ [LS_RAILMEAS_VDRP (8 * k.val), LS_RAILMEAS_VDRN (8 * k.val), LS_FLAGS_RAIL (8 * k.val), LS_CNT2_RAIL (8 * k.val)]))

/-- R105 to R110, R140: a write of 0 to GL_PIN_ENABLE parks every channel, and a 1 before the first commit is held. A
write of LS_PARK parks the channels it names. A channel leaves PARK once it may, its lane at M but for the vectors that
begin from there on. 2 µs after a range change its words act at the die and the RANGE cause ends. A driver that drives,
terminates or clamps at its limit sets its bit of LS_ILIMMAP and the ILIM flag; one that does neither has no limit. PARK_N
falling parks every channel and sets PARKN; its rise ends that cause. -/
def Obligations.Park : Prop :=
  (∀ (s : State) (v : Word), v.getLsbD 0 = false → RunsTo (exec (.pinEnableWrite v) s) fun t =>
      t.get GL_PIN_ENABLE_EN = 0 ∧ (∀ g p, g < 32 → p < 16 → t.parked g p) ∧
      Frame s t [.groups] (fun y => y.reg = GL_PIN_ENABLE ∨ ∃ g, y.reg = LS_PARKSTAT g)) ∧
  (∀ (s : State) (v : Word), v.getLsbD 0 → RunsTo (exec (.pinEnableWrite v) s) fun t =>
      t.get GL_PIN_ENABLE_EN = 1 ∧ t.get GL_PIN_ENABLE_HELD = (if s.sys.committed then 0 else 1)) ∧
  (∀ (s : State) (g : GroupIx) (v : Word), s.actsNow → RunsTo (exec (.lsParkWrite g v) s) fun t =>
      t.get (LS_PARK_PARK g) = v.toNat % 65536 ∧ (∀ p, p < 16 → v.getLsbD p → t.parked g p) ∧
      Frame s t [.groups] (fun y => y = LS_PARK_PARK g ∨ y.reg = LS_PARKSTAT g)) ∧
  (∀ (s : State) (g : GroupIx) (p : Pos) (at_ : Time), s.exitAt g p = some at_ → RunsTo (exec (.parkExit g p) s) fun t =>
      t.parked g p = false ∧ (t.chan g p).parkEnd = none ∧ (t.chan g p).parkLog.head? = some (at_, false) ∧
      ((∀ v ∈ (s.group g).begun, reached (tclkOf (v.b + BitVec.ofNat 66 zOffset)) at_ = false) → (t.chan g p).lane = .mid) ∧
      (∀ q, q < 16 → q ≠ p → t.parked g q = s.parked g q ∧ t.chan g q = s.chan g q) ∧
      Frame s t [.groups] (· ∈ [LS_PARKSTAT_PARKED g])) ∧
  (∀ (s : State) (g : GroupIx) (p : Pos) (at_ : Time) (drv pmu : Word), (s.chan g p).rangePend = some (at_, drv, pmu) →
    3200 ≤ s.since at_ → RunsTo (exec (.rangeChangeEnd g p) s) fun t =>
      t.die.word (LS_DRV g p) = drv ∧ t.die.word (LS_PMU g p) = pmu ∧ (t.chan g p).rangePend = none ∧
      t.bit (LS_PARKSTAT_RANGE g) p = false ∧
      Frame s t [.groups, .die] (fun y => y.reg = LS_PARKSTAT g)) ∧
  (∀ (s : State) (g : GroupIx) (p : Pos),
    s.pinState g p = .on ∨ s.pinState g p = .off ∧ s.offLoad g p ≠ .nothing → RunsTo (exec (.ilimEpisode g p) s) fun t =>
      t.bit (LS_ILIMMAP_MAP g) p ∧ t.get (LS_FLAGS_ILIM g) = 1 ∧
      t.get (LS_CNT0_ILIM g) = min (s.get (LS_CNT0_ILIM g) + 1) 65535 ∧
      Frame s t [] (· ∈ [LS_ILIMMAP_MAP g, LS_FLAGS_ILIM g, LS_CNT0_ILIM g])) ∧
  (∀ (s : State) (g : GroupIx) (p : Pos),
    s.pinState g p ≠ .on → s.pinState g p ≠ .off ∨ s.offLoad g p = .nothing → RunsTo (exec (.ilimEpisode g p) s) fun t =>
      Frame s t [] (fun _ => False)) ∧
  (∀ s : State, s.sys.parkN → RunsTo (exec .parkNFall s) fun t =>
      t.sys.parkN = false ∧ (∀ g p, g < 32 → p < 16 → t.parked g p) ∧ t.get (CP_PFLAGS_PARKN 0) = 1 ∧
      Frame s t [.groups, .sys, .engines] (fun y => y = CP_PFLAGS_PARKN 0 ∨ y = CP_PCNT_PARKN 0 ∨
        (∃ g, y.reg = LS_PARKSTAT g) ∨ causeField y)) ∧
  (∀ s : State, s.sys.parkN = false → RunsTo (exec .parkNRise s) fun t =>
      t.sys.parkN ∧ Frame s t [.groups, .sys] (fun y => ∃ g, y.reg = LS_PARKSTAT g))

/-- R116 to R118: a request of a channel whose PMU is off reports ABORT at once; with the PMU on and nothing pending it
waits. An idle ADC takes the next pending position after the one it served last. A measurement ends with the rounded
mean of its samples, status OK, one more in SEQ, and is folded into the summary. -/
def Obligations.Measurements : Prop :=
  (∀ (s : State) (g : GroupIx) (p : Pos), s.actsNow → s.dieGet (LS_PMU_MODE g p) = 0 →
    RunsTo (exec (.measRequestWrite g (BitVec.ofNat 32 (2 ^ p.val))) s) fun t =>
      t.get (LS_MRES_STAT g p) = statAbort ∧ t.get (LS_FLAGS_ABORT g) = 1 ∧
      t.get (LS_CNT1_ABORT g) = min (s.get (LS_CNT1_ABORT g) + 1) 65535 ∧
      Frame s t [] (fun y => y.reg = LS_MRES g p ∨ y = LS_FLAGS_ABORT g ∨ y = LS_CNT1_ABORT g)) ∧
  (∀ (s : State) (g : GroupIx) (p : Pos), s.actsNow → s.dieGet (LS_PMU_MODE g p) ≠ 0 → (s.chan g p).measPend = false →
    s.measuring g p = false → RunsTo (exec (.measRequestWrite g (BitVec.ofNat 32 (2 ^ p.val))) s) fun t =>
      (t.chan g p).measPend ∧ Frame s t [.groups] (fun _ => False)) ∧
  (∀ (s : State) (g : GroupIx) (p : Pos), 0 < s.dieGet (LS_MEAS_AUTO g p) →
    s.time.toNat % (s.dieGet (LS_MEAS_AUTO g p) * 160000) = 0 → s.dieGet (LS_PMU_MODE g p) ≠ 0 →
    (s.chan g p).measPend = false → s.measuring g p = false → RunsTo (exec (.measAutoRequest g p) s) fun t =>
      (t.chan g p).measPend ∧ Frame s t [.groups] (fun _ => False)) ∧
  (∀ (s : State) (g : GroupIx) (j : Fin 2) (p : Nat), vget (s.group g).adcBusy j none = none →
    s.nextMeas g j = some p → RunsTo (exec (.measStart g j) s) fun t =>
      vget (t.group g).adcBusy j none = some (p, s.time) ∧ (t.chan g p).measPend = false ∧
      Frame s t [.groups] (fun _ => False)) ∧
  (∀ (s : State) (g : GroupIx) (j : Fin 2) (p : Fin 16) (at_ : Time) (x : BitVec 18),
    vget (s.group g).adcBusy j none = some (p.val, at_) → s.dieGet (LS_MEAS_AVG g p) = 0 →
    1600 * (s.dieGet (LS_MEAS_SETTLE g p) + 1) ≤ s.since at_ → (s.chan g p).measAbort = false →
    s.dieGet (LS_PMU_MODE g p) ≠ 0 → x ≠ 0x1FFFF → x ≠ 0x20000 → RunsTo (exec (.measComplete g j [x] false) s) fun t =>
      t.getInt (LS_MRES_VALUE g p) = x.toInt ∧ t.get (LS_MRES_STAT g p) = statOk ∧
      t.get (LS_MRES_SEQ g p) = (s.get (LS_MRES_SEQ g p) + 1) % 4096 ∧
      (t.chan g p).measSum.count = min ((s.chan g p).measSum.count + 1) 1023 ∧
      vget (t.group g).adcBusy j none = none ∧ Frame s t [.groups] (fun y => y.reg = LS_MRES g p))

/-! ### Chapter 05: comparators, trip groups and self-check -/

/-- R123, R126 to R128, R130, R144: the comparators of a CONT channel at its ball switch at its thresholds with hysteresis,
and a filter sample at a channel-die tick puts the state that N of the last M samples hold into CP_STATE with VALID, or, where
M samples hold none, counts UNDECIDED. A sample tick that has fallen to a group is taken once, and samples its SAMPLED
channels. After the blanking time, the violation follows its conditions. Committed CP registers act at the die. -/
def Obligations.ComparatorsFollowThePin : Prop :=
  (∀ (s : State) (g : GroupIx) (p : Pos) (v : Int) (arrival : BitVec 66), s.cmpAtBall g p → s.cmpCont g p →
    RunsTo (exec (.comparatorSwitch g p ⟨v, arrival⟩) s) fun t =>
      (codeVolts (s.outCode g p 2) + s.halfHys g p < v → (t.chan g p).cmp.hiOn) ∧
      (v < codeVolts (s.outCode g p 3) - s.halfHys g p → (t.chan g p).cmp.loOn) ∧
      (v < codeVolts (s.outCode g p 2) - s.halfHys g p → (t.chan g p).cmp.hiOn = false) ∧
      (codeVolts (s.outCode g p 3) + s.halfHys g p < v → (t.chan g p).cmp.loOn = false) ∧
      Frame s t [.groups, .sys] (violField g)) ∧
  (∀ (s : State) (g : GroupIx) (p : Pos) (hist : List Lane), s.cmpAtBall g p → s.cmpCont g p →
    dieTickOffsets.contains (s.time.toNat % 64) →
    hist = ((s.chan g p).cmp.state :: (s.chan g p).cmp.hist).take (s.dieGet (CP_CMP_M g p)) →
    (∀ x, agreed hist (s.dieGet (CP_CMP_N g p)) = some x → RunsTo (exec (.filterSample g p) s) fun t =>
        t.cmpValid g p ∧ (t.chan g p).cmp.filt = x ∧ (t.chan g p).cmp.hist = hist ∧
        fieldOf (t.word (CP_STATE g)) (2 * p.val + 1) (2 * p.val) = x.code ∧
        Frame s t [.groups, .sys] (fun y => y = CP_STATUS_VALID g ∨ y.reg = CP_STATE g ∨ violField g y)) ∧
    (agreed hist (s.dieGet (CP_CMP_N g p)) = none → hist.length = s.dieGet (CP_CMP_M g p) →
      RunsTo (exec (.filterSample g p) s) fun t =>
        t.cmpValid g p = s.cmpValid g p ∧ (t.chan g p).cmp.filt = (s.chan g p).cmp.filt ∧ (t.chan g p).cmp.hist = hist ∧
        t.get (CP_FLAGS_UNDECIDED g) = 1 ∧
        t.get (CP_CNT0_UNDECIDED g) = min (s.get (CP_CNT0_UNDECIDED g) + 1) 65535 ∧
        Frame s t [.groups] (· ∈ [CP_FLAGS_UNDECIDED g, CP_CNT0_UNDECIDED g]))) ∧
  (∀ (s : State) (g : GroupIx) (volts : List Int), s.sys.smDue.getLsbD g → RunsTo (exec (.sampleTick g volts) s) fun t =>
      t.sys.smFresh.getLsbD g = false ∧ t.sys.smDue.getLsbD g = false ∧
      (∀ p, p < 16 → s.cmpMode g p = modeSampled → s.cmpAtBall g p → s.dieGet (CP_CMP_M g p) = 1 →
        s.dieGet (CP_CMP_N g p) = 1 → t.cmpValid g p ∧
        (codeVolts (s.outCode g p 2) + s.halfHys g p < volts.getD p 0 → (t.chan g p).cmp.filt = .high)) ∧
      Frame s t [.groups, .sys] (groupRegs 0x4000 0x7000)) ∧
  (∀ (s : State) (g : GroupIx) (p : Pos), s.blanked g p = false → RunsTo (exec (.blankEnd g p) s) fun t =>
      t.bit (CP_STATUS_VIOL g) p = s.violates g p ∧ Frame s t [.groups, .sys] (violField g)) ∧
  (∀ (s : State) (g : GroupIx) (at_ : Time) (regs : RegFile) (rest : List (Time × RegFile)),
    (s.group g).cpPend = (at_, regs) :: rest → reached s.time at_ → regs.rising → RunsTo (exec (.cpCommitEffect g) s) fun t =>
      (t.group g).cpPend = rest ∧
      (∀ p, p < 16 → t.die.word (CP_CMP g p) = regs.word (CP_CMP g p) ∧ t.die.word (CP_TRIP g p) = regs.word (CP_TRIP g p)) ∧
      Frame s t [.groups, .sys, .die] (groupRegs 0x4000 0x7000))

/-- R131: with RUN and without BURST a write of CP_SM_CTL runs the oscillator, and a write with RUN = 0 stops it; PER is
clamped to 1 to 10,000. A WAKE while RUN is 1 starts a stopped oscillator for 2^BLEN cycles of a burst and counts. TIME
reaching the target of CP_SM_WT advances it by WPER ms. A burst ends after its last cycle with the oscillator stopped and RUN
still 1. -/
def Obligations.SampleClock : Prop :=
  (∀ (s : State) (v : Word), s.actsNow → v.getLsbD 18 → v.getLsbD 19 = false → v.getLsbD 31 = false →
    RunsTo (exec (.smCtlWrite v) s) fun t =>
      t.on smRunning ∧ t.on (CP_SM_CTL_RUN 0) ∧ t.get (CP_SM_CTL_PER 0) = max 1 (min 10000 (v.toNat % 16384)) ∧
      t.get (CP_SM_CTL_WSRC 0) = v.toNat / 2 ^ 24 % 16 ∧ t.sys.smLeft = none ∧ t.get DG_STAT_STALE = 1 ∧
      Frame s t [.sys, .free] (fun y => y.reg = CP_SM_CTL 0 ∨ y.reg = CP_SM_STAT 0 ∨ y = DG_STAT_STALE ∨
        y.reg = GL_CLAMP_COUNT ∨ y.reg = GL_CLAMP_LAST)) ∧
  (∀ (s : State) (v : Word), s.actsNow → v.getLsbD 18 = false → RunsTo (exec (.smCtlWrite v) s) fun t =>
      t.on smRunning = false ∧ t.on (CP_SM_CTL_RUN 0) = false ∧ t.sys.smNext = none) ∧
  (∀ (s : State) (v : Word), s.actsNow → v.getLsbD 31 → v.getLsbD 18 → v.getLsbD 19 →
    s.on smRunning = false → RunsTo (exec (.smWakeWrite v) s) fun t =>
      t.on smRunning ∧ t.on (CP_SM_CTL_BURST 0) ∧ t.sys.smFresh = 0xFFFFFFFF ∧
      t.sys.smLeft = some (2 ^ (v.toNat / 2 ^ 20 % 16)) ∧
      t.get (CP_SM_STAT_WAKES 0) = min (s.get (CP_SM_STAT_WAKES 0) + 1) 65535) ∧
  (∀ s : State, reached s.time (s.getTime (CP_SM_WT_LO_T_LO 0) (CP_SM_WT_HI_T_HI 0)) → s.sys.smWtDone = false →
    0 < s.get (CP_SM_WPER_WPER 0) → RunsTo (exec .smWakeTime s) fun t =>
      t.getTime (CP_SM_WT_LO_T_LO 0) (CP_SM_WT_HI_T_HI 0) =
        s.getTime (CP_SM_WT_LO_T_LO 0) (CP_SM_WT_HI_T_HI 0) + BitVec.ofNat 56 (1600000 * s.get (CP_SM_WPER_WPER 0)) ∧
      Frame s t [.sys, .free] (fun y => y.reg = CP_SM_WT_LO 0 ∨ y.reg = CP_SM_WT_HI 0 ∨ y.reg = CP_SM_STAT 0)) ∧
  (∀ s : State, s.on smRunning → s.sys.smLeft = some 0 → RunsTo (exec .smclkBurstEnd s) fun t =>
      t.on smRunning = false ∧ t.get (CP_SM_CTL_RUN 0) = s.get (CP_SM_CTL_RUN 0) ∧
      t.sys = { s.sys with smNext := none, smLeft := none } ∧ Frame s t [.sys] (· ∈ [smRunning]))

/-- R137, R138, R141, R142: a latch the core die has not recorded sets its bit of CP_TGSTAT, the TRIP flag and counter,
and stores TIME and its source. A re-arm clears a latch whose sources do not violate and is refused, with
REARM_REFUSED, while one violates. A self-check run starts on the channels of MASK, periodically every PER seconds,
and once every step is done it ends with STATE = 2 and the results, FAILMAP naming the channels with a fail, and SC_FAIL
where there is one. -/
def Obligations.TripAndSelfCheck : Prop :=
  (∀ (s : State) (k : DieIx) (n : Fin 16) (src : Nat), vget s.sys.trip (16 * k.val + n.val) none = some (src, false) → src < 128 →
    RunsTo (exec (.tripLatchRecord k n) s) fun t =>
      t.bit (CP_TGSTAT_LATCHED (8 * k.val)) n.val ∧ t.get (CP_TFLAGS_TRIP (8 * k.val)) = 1 ∧
      t.get (CP_TCNT0_TRIP (8 * k.val)) = min (s.get (CP_TCNT0_TRIP (8 * k.val)) + 1) 65535 ∧
      t.getTime (CP_TGREC_LO_T_LO (8 * k.val) n.val) (CP_TGREC_HI_T_HI (8 * k.val) n.val) = s.time ∧
      t.get (CP_TGREC_HI_SRC (8 * k.val) n.val) = src ∧ vget t.sys.trip (16 * k.val + n.val) none = some (src, true) ∧
      t.mem = s.mem ∧ t.staged = s.staged ∧ t.die = s.die) ∧
  (∀ (s : State) (k : DieIx) (n : Fin 16), s.actsNow → (vget s.sys.trip (16 * k.val + n.val) none).isSome →
    s.violSource k.val n.val = none → RunsTo (exec (.tripRearmWrite k (BitVec.ofNat 32 (2 ^ n.val))) s) fun t =>
      vget t.sys.trip (16 * k.val + n.val) none = none ∧ t.bit (CP_TGSTAT_LATCHED (8 * k.val)) n.val = false ∧
      Frame s t [.groups, .sys] (groupRegs 0x4000 0x7000)) ∧
  (∀ (s : State) (k : DieIx) (n : Fin 16), s.actsNow → (vget s.sys.trip (16 * k.val + n.val) none).isSome →
    (s.violSource k.val n.val).isSome → RunsTo (exec (.tripRearmWrite k (BitVec.ofNat 32 (2 ^ n.val))) s) fun t =>
      t.sys.trip = s.sys.trip ∧ t.get (CP_TFLAGS_REARM_REFUSED (8 * k.val)) = 1 ∧
      t.get (CP_TCNT0_REARM_REFUSED (8 * k.val)) = min (s.get (CP_TCNT0_REARM_REFUSED (8 * k.val)) + 1) 65535) ∧
  (∀ (s : State) (g : GroupIx) (v : Word), s.actsNow → v.getLsbD 31 → s.get (CP_SC_STAT_STATE g) ≠ scRunning →
    RunsTo (exec (.selfCheckRun g v) s) fun t =>
      t.get (CP_SC_STAT_STATE g) = scRunning ∧ (t.group g).scStart = some s.time ∧
      t.get (CP_SC_CTL_MASK g) = v.toNat % 65536 ∧ (∀ p, p < 16 → v.getLsbD p → (t.chan g p).cmp.selfCheck) ∧
      Frame s t [.groups, .sys] (groupRegs 0x4000 0x7000)) ∧
  (∀ (s : State) (g : GroupIx) (start : Time), s.get (CP_SC_STAT_STATE g) ≠ scRunning → 0 < s.get (CP_SC_CTL_PER g) →
    (s.group g).scStart = some start → s.get (CP_SC_CTL_PER g) * 1600000000 ≤ s.since start →
    RunsTo (exec (.selfCheckPeriodic g) s) fun t =>
      t.get (CP_SC_STAT_STATE g) = scRunning ∧ (t.group g).scStart = some s.time) ∧
  (∀ (s : State) (g : GroupIx) (r : ScRun) (res : List (List (Option (Bool × Bool)))), (s.group g).sc = some r → r.ended →
    RunsTo (exec (.selfCheckEnd g res) s) fun t =>
      t.get (CP_SC_STAT_STATE g) = 2 ∧ (t.group g).sc = none ∧
      (∀ p, p < 16 → r.mask.testBit p → (t.chan g p).cmp.selfCheck = false ∧ t.cmpValid g p = false ∧
        t.get (CP_SC_RES_RES g p) = s.scResult g p r.steps (res.getD p [])) ∧
      (∀ p, p < 16 → t.bit (CP_SC_STAT_FAILMAP g) p = (r.mask.testBit p && scFailed (s.scResult g p r.steps (res.getD p [])))) ∧
      (t.get (CP_SC_STAT_FAILMAP g) ≠ 0 → t.get (CP_FLAGS_SC_FAIL g) = 1 ∧
        t.get (CP_CNT0_SC_FAIL g) = min (s.get (CP_CNT0_SC_FAIL g) + 1) 65535) ∧
      Frame s t [.groups, .sys] (groupRegs 0x4000 0x7000))

/-! ### Chapter 06: stamps, calibration and frequency -/

/-- R148, R149, R151, R172: with the factory tables and no correction, a rising transition of the return lane to H in an
open EW window is a stamp at 1,024 × c + 2 × r + 1 ticks less the compare deskew of the window (the uniform factory
table is log entry 12), and the TDC sees the transition once. On a SAMPLED channel, whose stops are the first tick of
TCLK c, one less than one FCLK after the last stop is lost, with LOST counted and STOP_LOST set. In a TCLK without a
transition, and of an aging oscillator that is not selected, nothing is stamped. -/
def Obligations.TdcStops : Prop :=
  (∀ (s : State) (g : GroupIx) (p : Pos) (c : BitVec 56) (r : Fin 512) (w : Win) (i : Nat) (l0 : Lane),
    laneStop (s.chan g p).cmp.log c l0 .high = some i → l0 ≠ .high →
    s.cmpMode g p ≠ modeSampled → (s.tdc g p).tabA = none → (s.tdc g p).shiftA = 0 → s.lineB g p = false →
    (s.tdc g p).swapAt = none → (s.tdc g p).passDone = false → (s.tdc g p).lastStop = none →
    (s.chan g p).wins = [w] → w.opened → w.closed = false → w.kind = winEw → w.slope = 0 → w.level = 0 → w.stamps = [] →
    0 < w.limit → (s.group g).gates = [] →
    (BitVec.ofNat 66 (1024 * c.toNat + 2 * r.val + 1) - BitVec.ofNat 66 w.dc - w.start).toNat
      ≤ (w.stop - w.start).toNat →
    RunsTo (exec (.tdcStop g p.castSucc c r l0 .high) s) fun t =>
      (t.chan g p).wins = [{ w with stamps :=
        [(BitVec.ofNat 66 (1024 * c.toNat + 2 * r.val + 1) - BitVec.ofNat 66 w.dc, true)] }] ∧
      (t.tdc g p).lastStop = some (BitVec.ofNat 66 (1024 * c.toNat + 2 * r.val + 1)) ∧
      ((t.chan g p).cmp.log[i]?.map (·.edge)) = some false ∧
      Frame s t [.groups] (fun _ => False)) ∧
  (∀ (s : State) (g : GroupIx) (p : Pos) (c : BitVec 56) (r : Fin 512) (w : Win) (i : Nat) (l0 : Lane) (last : Tick),
    laneStop (s.chan g p).cmp.log c l0 .high = some i → l0 ≠ .high →
    s.cmpMode g p = modeSampled → (s.tdc g p).lastStop = some last → tickReached (tickOf c) (last + 1024) = false →
    (s.chan g p).wins = [w] → w.opened → w.closed = false → w.kind = winEw → w.slope = 0 → w.level = 0 →
    (s.group g).gates = [] → (tickOf c - w.start).toNat ≤ (w.stop - w.start).toNat →
    RunsTo (exec (.tdcStop g p.castSucc c r l0 .high) s) fun t =>
      (t.chan g p).wins = [w] ∧ (t.tdc g p).lastStop = some last ∧ t.get (TD_FLAGS_STOP_LOST g) = 1 ∧
      t.get (TD_LOST_LOST g p) = min (s.get (TD_LOST_LOST g p) + 1) (2 ^ 32 - 1) ∧
      Frame s t [.groups] (· ∈ [TD_FLAGS_STOP_LOST g, TD_LOST_LOST g p])) ∧
  (∀ (s : State) (g : GroupIx) (p : Pos) (c : BitVec 56) (r : Fin 512) (l0 l1 : Lane), laneStop (s.chan g p).cmp.log c l0 l1 = none →
    RunsTo (exec (.tdcStop g p.castSucc c r l0 l1) s) fun t => Frame s t [] (fun _ => False)) ∧
  (∀ (s : State) (g : GroupIx) (c : BitVec 56) (r : Fin 512) (l0 l1 : Lane), s.get (FQ_AGE_SEL g) = 0 → s.gate g = none →
    RunsTo (exec (.tdcStop g 16 c r l0 l1) s) fun t => Frame s t [] (fun _ => False))

/-- R151, R153, R155, R156, R163: an open window closes one FCLK and its deskew after its last tick; one without a stamp
is gone, one with stamps awaits their delivery. The stamps of the window that closed first in the group, and no others,
leave, and an EW stamp of a living window sets EVT of the window's context. With SRC = REF TIME an external window of
LEN ticks opens at each multiple of 2^(10 + REFSH) TCLK on the enabled channels of MASK; one less than P_min after the
window before is not opened and sets WIN_SPACE. -/
def Obligations.Windows : Prop :=
  (∀ (s : State) (g : GroupIx) (p : Pos) (w : Win) (rest : List Win), (s.chan g p).wins = w :: rest → w.opened →
    w.closed = false → dueWin rest s.time = none → reached s.time (tclkOf (w.stop + BitVec.ofNat 66 w.dc + 1024)) →
    RunsTo (exec (.windowClose g p) s) fun t =>
      (t.chan g p).wins = (if w.stamps = [] then rest
        else { w with closed := true, ctx := if w.external then s.running (s.leader g) else w.ctx } :: rest) ∧
      Frame s t [.groups] (fun _ => False)) ∧
  (∀ (s : State) (g : GroupIx) (p : Pos) (w : Win) (i : Nat) (x : Tick × Bool) (c : Fin 32),
    s.firstClosed g = some (p.val, i, w) → w.closed → w.kind = winEw → w.dead = false → w.stamps = [x] →
    w.ctx = some c.val → RunsTo (exec (.stampDelivery g p) s) fun t =>
      (t.chan g p).wins = (s.chan g p).wins.eraseIdx i ∧ t.get (SQ_CTX_FLAGS_EVT (s.leader g) c.val) = 1 ∧
      t.time = s.time ∧ t.staged = s.staged ∧ t.die = s.die) ∧
  (∀ (s : State) (g : GroupIx) (p : Pos) (q i : Nat) (w : Win), s.firstClosed g = some (q, i, w) → q ≠ p.val →
    RunsTo (exec (.stampDelivery g p) s) fun t => Frame s t [] (fun _ => False)) ∧
  (∀ (s : State) (g : GroupIx) (p : Pos), s.get (TD_XWIN_CTL_SRC g) = 2 →
    s.time.toNat % 2 ^ (10 + s.get (TD_XWIN_CTL_REFSH g)) = 0 → s.bit (TD_XWIN_CTL_MASK g) p →
    (∀ q, q < 16 → dueWin (s.chan g q).wins (s.time - 1) = none) → s.on (TD_CH_EN g p) →
    RunsTo (exec (.xwinOpen g) s) fun t =>
      (∀ l, (s.tdc g p).lastWin = some l → tickReached (tickOf s.time) (l + BitVec.ofNat 66 (s.minPeriod g)) = false →
        (t.chan g p).wins = (s.chan g p).wins ∧ t.get (TD_FLAGS_WIN_SPACE g) = 1) ∧
      ((∀ l, (s.tdc g p).lastWin = some l → tickReached (tickOf s.time) (l + BitVec.ofNat 66 (s.minPeriod g))) →
        ∃ w, (t.chan g p).wins = (s.chan g p).wins ++ [w] ∧ w.start = tickOf s.time ∧ w.external ∧ w.opened ∧
          w.stop = tickOf s.time + BitVec.ofNat 66 (s.get (TD_XWIN_LEN_LEN g) - 1)) ∧
      Frame s t [.groups] (· ∈ [TD_FLAGS_WIN_SPACE g, TD_CNT1_WIN_SPACE g]))

/-- R158, R159: a pass of at least the duration of its hits at 5 MHz, whose counts lie within the bounds, gives the standby
line its table, and as shift the difference of the reference position (log entry 12) and the mean position of the 256
reference edges, which the spec does not round; one outside them sets CAL_ERR. At a swap instant without FREEZE a
channel whose standby line has passed swaps lines, TD_SWAP holds the TIME and TD_ALIGN the new shift; a channel whose
last pass failed keeps its line and sets SWAP_SKIP. -/
def Obligations.TdcCalibration : Prop :=
  (∀ (s : State) (g : GroupIx) (p : Pos) (hits : List Nat) (refs : List (Fin 512)),
    passCounts (2 ^ (s.tdc g p).passN) hits → passGood (2 ^ (s.tdc g p).passN) hits → refs.length = 256 →
    usTclk (2 ^ (s.tdc g p).passN) ≤ 5 * s.since (s.tdc g p).passAt → s.lineB g p = false →
    RunsTo (exec (.calPassComplete g p hits refs) s) fun t =>
      (t.tdc g p).passDone ∧ (t.tdc g p).tabB = some (passTable hits) ∧ (t.tdc g p).passAt = s.time ∧
      (∃ m : Int, (t.tdc g p).shiftB = Config.refPosition s.sys.cal (s.physChan (16 * g + p)) - m ∧
        256 * m - ((refs.map fun r => binStart (some (passTable hits)) r + binWidth (some (passTable hits)) r / 2).sum : Nat)
          < 256 ∧
        ((refs.map fun r => binStart (some (passTable hits)) r + binWidth (some (passTable hits)) r / 2).sum : Nat) - 256 * m
          < 256) ∧
      (t.tdc g p).tabA = (s.tdc g p).tabA ∧ (t.tdc g p).shiftA = (s.tdc g p).shiftA ∧
      Frame s t [.groups, .free] (fun _ => False)) ∧
  (∀ (s : State) (g : GroupIx) (p : Pos) (hits : List Nat) (refs : List (Fin 512)),
    passCounts (2 ^ (s.tdc g p).passN) hits → passGood (2 ^ (s.tdc g p).passN) hits = false → refs.length = 256 →
    usTclk (2 ^ (s.tdc g p).passN) ≤ 5 * s.since (s.tdc g p).passAt →
    RunsTo (exec (.calPassComplete g p hits refs) s) fun t =>
      (t.tdc g p).passFailed ∧ (t.tdc g p).tabA = (s.tdc g p).tabA ∧ (t.tdc g p).tabB = (s.tdc g p).tabB ∧
      t.get (TD_FLAGS_CAL_ERR g) = 1 ∧ t.get (TD_CNT0_CAL_ERR g) = min (s.get (TD_CNT0_CAL_ERR g) + 1) 65535 ∧
      Frame s t [.groups] (· ∈ [TD_FLAGS_CAL_ERR g, TD_CNT0_CAL_ERR g])) ∧
  (∀ (s : State) (g : GroupIx) (p : Pos), s.time.toNat % 2 ^ (30 + s.get (TD_CAL_CTL_SWSH g)) = 0 →
    s.on (TD_CAL_CTL_FREEZE g) = false → RunsTo (exec (.tdcSwap g) s) fun t =>
      ((s.tdc g p).passDone →
        t.lineB g p = !s.lineB g p ∧ t.bit (TD_CAL_STAT_LIVEMAP g) p ∧ (t.tdc g p).passDone = false ∧
        (t.get (TD_ALIGN_A g p) : Int) = (if s.lineB g p then (s.tdc g p).shiftA else (s.tdc g p).shiftB) % 2 ^ 16 ∧
        t.getTime (TD_SWAP_TLO_T_LO g) (TD_SWAP_THI_T_HI g) = s.time) ∧
      ((s.tdc g p).passDone = false → (s.tdc g p).passFailed →
        t.lineB g p = s.lineB g p ∧ t.get (TD_FLAGS_SWAP_SKIP g) = 1) ∧
      Frame s t [.groups] (fun y => y.reg = TD_CAL_STAT g ∨ (∃ q, y.reg = TD_ALIGN g q) ∨ y.reg = TD_SWAP_TLO g ∨
        y.reg = TD_SWAP_THI g ∨ y = TD_FLAGS_SWAP_SKIP g ∨ y = TD_CNT0_SWAP_SKIP g))

/-- R169, R170: START opens a gate at this TCLK with GSEQ up by 1 modulo 65,536; STOP ends it with ABORT; FQ_GATE µs
after its start it ends of itself, and with REPEAT the next one opens at its end. The results of an ended gate are read
oldest gate first. A source with fewer than three samples reports FEW and frequency 0; otherwise STAT tells an early end
before a loss, and FQ_RF holds the slope's frequency, D × FCLK × 2^24 over the slope, to the nearest unit of 2^-24 Hz. -/
def Obligations.FrequencyGates : Prop :=
  (∀ (s : State) (g : GroupIx) (v : Word), s.actsNow → v.getLsbD 31 → v.getLsbD 30 = false → s.gate g = none →
    RunsTo (exec (.gateStartWrite g v) s) fun t =>
      (∃ x, t.gate g = some x ∧ x.start = s.time ∧ x.gseq = (s.get (FQ_STAT_GSEQ g) + 1) % 65536 ∧
        x.acc = Vector.replicate 17 .empty) ∧ t.get (FQ_STAT_OPEN g) = 1 ∧
      t.get (FQ_STAT_GSEQ g) = (s.get (FQ_STAT_GSEQ g) + 1) % 65536 ∧ t.get (FQ_CTL_REPEAT g) = v.toNat % 2 ∧
      t.getTime (FQ_GSTART_LO_T_LO g) (FQ_GSTART_HI_T_HI g) = s.time ∧
      Frame s t [.groups] (fun y => y.reg = FQ_STAT g ∨ y.reg = FQ_GSTART_LO g ∨ y.reg = FQ_GSTART_HI g
        ∨ y = FQ_CTL_REPEAT g)) ∧
  (∀ (s : State) (g : GroupIx) (v : Word) (x : Gate), s.actsNow → v.getLsbD 30 → v.getLsbD 31 = false →
    s.gate g = some x → reached s.time (later x.start (usTclk (s.get (FQ_GATE_GATE g)))) = false →
    RunsTo (exec (.gateStopWrite g v) s) fun t =>
      ((t.gate g).map (·.start)) = (if v.getLsbD 0 then some s.time else none) ∧
      t.get (FQ_STAT_OPEN g) = v.toNat % 2 ∧
      (∃ d ∈ (t.group g).gates, d.abort ∧ d.stop = some s.time ∧ d.start = x.start ∧ d.gseq = x.gseq ∧ d.acc = x.acc) ∧
      Frame s t [.groups] (fun y => y.reg = FQ_STAT g ∨ y.reg = FQ_GSTART_LO g ∨ y.reg = FQ_GSTART_HI g
        ∨ y = FQ_CTL_REPEAT g)) ∧
  (∀ (s : State) (g : GroupIx) (x : Gate), s.gate g = some x →
    reached s.time (later x.start (usTclk (s.get (FQ_GATE_GATE g)))) →
    s.since (later x.start (usTclk (s.get (FQ_GATE_GATE g)))) < usTclk (s.get (FQ_GATE_GATE g)) →
    RunsTo (exec (.gateEnd g) s) fun t =>
      ((t.gate g).map (·.start)) =
        (if s.on (FQ_CTL_REPEAT g) then some (later x.start (usTclk (s.get (FQ_GATE_GATE g)))) else none) ∧
      (∃ d ∈ (t.group g).gates, d.abort = false ∧ d.stop = some (later x.start (usTclk (s.get (FQ_GATE_GATE g)))) ∧
        d.start = x.start ∧ d.gseq = x.gseq ∧ d.acc = x.acc) ∧
      Frame s t [.groups] (fun y => y.reg = FQ_STAT g ∨ y.reg = FQ_GSTART_LO g ∨ y.reg = FQ_GSTART_HI g)) ∧
  (∀ (s : State) (g : GroupIx) (src : Fin 17) (i : Nat) (d : Gate), s.gateNow g = s → s.fqDue g src = some i →
    (s.group g).gates[i]? = some d → (vget d.acc src .empty).n < 3 → RunsTo (exec (.freqResult g src) s) fun t =>
      t.get (FQ_RSTAT_STAT g src) = 3 ∧ t.get (FQ_RF_LO_F_LO g src) = 0 ∧ t.get (FQ_RF_HI_F_HI g src) = 0 ∧
      t.get (FQ_RN_N g src) = (vget d.acc src .empty).n ∧ t.get (FQ_RSTAT_SEQ g src) = d.gseq % 16 ∧
      t.get (FQ_FLAGS_FEW g) = 1 ∧ t.get (FQ_CNT0_FEW g) = min (s.get (FQ_CNT0_FEW g) + 1) 65535 ∧
      Frame s t [.groups, .hi] (fun y => y.reg = FQ_RF_LO g src ∨ y.reg = FQ_RF_HI g src ∨ y.reg = FQ_RN g src ∨
        y.reg = FQ_RSTAT g src ∨ y = FQ_FLAGS_FEW g ∨ y = FQ_CNT0_FEW g ∨ y = HI_FLAGS_RDROP ∨ y = HI_CNT2_RDROP ∨
        y = HI_RING_DROP_DROP 3)) ∧
  (∀ (s : State) (g : GroupIx) (src : Fin 17) (i f : Nat) (d : Gate) (a : FqAcc), s.gateNow g = s → s.fqDue g src = some i →
    (s.group g).gates[i]? = some d → vget d.acc src .empty = a → 3 ≤ a.n → 0 < a.n * a.sit - a.si * a.st →
    0 < a.n * a.sii - a.si * a.si →
    2 * (a.n * a.sit - a.si * a.st) * f ≤ 2 * (d.divs.getD src.val 1 : Int) * 1638400000000 * (a.n * a.sii - a.si * a.si) * 2 ^ 24
      + (a.n * a.sit - a.si * a.st) →
    2 * (d.divs.getD src.val 1 : Int) * 1638400000000 * (a.n * a.sii - a.si * a.si) * 2 ^ 24 + (a.n * a.sit - a.si * a.st)
      < 2 * (a.n * a.sit - a.si * a.st) * (f + 1) → f < 2 ^ 64 →
    RunsTo (exec (.freqResult g src) s) fun t =>
      t.get (FQ_RF_HI_F_HI g src) * 2 ^ 32 + t.get (FQ_RF_LO_F_LO g src) = f ∧
      t.get (FQ_RSTAT_STAT g src) = (if d.abort then 2 else if a.loss then 1 else 0) ∧
      t.get (FQ_RSTAT_SEQ g src) = d.gseq % 16 ∧ t.get (FQ_RN_N g src) = min a.n (2 ^ 32 - 1) ∧
      (d.abort → t.get (FQ_FLAGS_ABORT g) = 1) ∧ (d.abort = false → a.loss → t.get (FQ_FLAGS_LOSS g) = 1) ∧
      Frame s t [.groups, .hi] (fun y => y.reg = FQ_RF_LO g src ∨ y.reg = FQ_RF_HI g src ∨ y.reg = FQ_RN g src ∨
        y.reg = FQ_RSTAT g src ∨ y.reg = FQ_FLAGS g ∨ y.reg = FQ_CNT0 g ∨ y.reg = FQ_CNT1 g ∨ y = HI_FLAGS_RDROP ∨
        y = HI_CNT2_RDROP ∨ y = HI_RING_DROP_DROP 3))

/-! ### Chapter 07: outcomes, summaries, capture and triggers -/

/-- R82, R175, R176: a vector whose reference-plane end and compare windows have passed leaves the queue of outcomes and
its observation reaches the triggers, formed from what each return lane carried between T3 and T4; a failing vector sets
the fail flag of its context. A lane with no change after T3 holds its level throughout. An observation is the level at
T4 without a transition and CHG with one, the level at T3 where T3 = T4, and M for a lane that was never VALID; L, H and M
compares fail on a transition, T fails without one. -/
def Obligations.VectorOutcomes : Prop :=
  (∀ (s : State) (g : GroupIx) (v : VecOut) (rest : List VecOut), (s.group g).outq = v :: rest →
    reached s.time (tclkOf (v.b + BitVec.ofNat 66 (51200 + v.extent))) → RunsTo (exec (.vectorOutcome g v.b) s) fun t =>
      (t.group g).outq = rest ∧ (t.group g).obs.head? = some (v.observe ((List.range 16).map (s.laneSummary g v))) ∧
      (v.dead = false → v.ctx < 32 → (v.observe ((List.range 16).map (s.laneSummary g v))).fails ≠ 0 →
        t.get (SQ_CTX_FLAGS_FAIL (s.leader g) v.ctx) = 1) ∧
      t.time = s.time ∧ t.staged = s.staged ∧ t.die = s.die) ∧
  (∀ (l : List LaneEntry) (a b : Tick) (coin : Bool), laneIn l a b = [] →
      laneWindow l a b coin = ⟨(laneAt l a).lane, (laneAt l b).lane, true, false, false,
        if (laneAt l a).valid then 2 else 0, (laneAt l b).check⟩) ∧
  (∀ l : LaneSummary, l.valid = 0 → observation l false = 1 ∧ passes 4 l false = true ∧ passes 2 l false = false ∧
      passes 3 l false = false ∧ passes 7 l false = false) ∧
  (∀ l : LaneSummary, l.valid ≠ 0 → observation l true = l.atT3.code ∧
      observation l false = (if l.rise || l.fall then 3 else l.atT4.code) ∧
      passes 2 l false = (l.atT3 == .low && l.held) ∧ passes 3 l false = (l.atT3 == .high && l.held) ∧
      passes 4 l false = (l.atT3 == .mid && l.held) ∧ passes 7 l false = (l.rise || l.fall) ∧ passes 7 l true = false)

/-- R178, R180, R119: an interval ends at the generator end of its last vector, with H1.TIME that TCLK and the STEP in
force then; the measurement summaries start again and the next interval opens with the next number. Its record set of 34
words leaves once every outcome and window of it is taken. -/
def Obligations.SummaryIntervals : Prop :=
  (∀ (s : State) (e : EngineIx) (iv : Interval) (rest : List Interval), (s.group e).ivs = iv :: rest → iv.full →
    iv.ended = none → (∀ i ∈ rest, i.ended.isSome ∧ i.id ≠ iv.id) → reached s.time (tclkOf iv.stop) → RunsTo (exec (.summaryIntervalEnd e) s) fun t =>
      (t.group e).iv = .empty (iv.id + 1) (iv.iseq + 1) ∧
      (∃ i ∈ (t.group e).ivs, i.id = iv.id ∧
        ∃ words, i.ended = some (tclkOf iv.stop, s.stepAt (tclkOf iv.stop), s.on (FC_SUM_CTL_EN e), words)) ∧
      (∀ p, p < 16 → (t.chan e p).measSum = .empty) ∧
      Frame s t [.groups] (fun y => y.reg = FC_SUM_STAT e)) ∧
  (∀ (s : State) (e : EngineIx) (iv : Interval) (at_ : Time) (step : Nat) (en : Bool) (meas : List Native),
    (s.group e).ivs.getLast? = some iv → iv.ended = some (at_, step, en, meas) → (s.group e).settled iv.id →
    RunsTo (exec (.summarySetEmit e) s) fun t =>
      (t.group e).ivs = (s.group e).ivs.filter (fun i => i.id != iv.id) ∧
      vget t.tw.sets e (0, []) = (iv.id, recordSet e iv at_ step) ∧ (recordSet e iv at_ step).length = 34 ∧
      Frame s t [.groups, .tw, .hi] (fun y => y = HI_FLAGS_RDROP ∨ y = HI_CNT2_RDROP ∨ ∃ r, y = HI_RING_DROP_DROP r))

/-- R186, R188, R189, R191: a write of ARM with EN = 1 arms the capture with its TSRC and POST; FORCE triggers an
armed one at once, the first vector after this TCLK being the trigger vector; STOP, or POST vectors from the trigger vector, end it with DONE and CAPDONE. A
host write of RPTR within the unread words sets it while the device does not read the memory. -/
def Obligations.CaptureAndPointers : Prop :=
  (∀ (s : State) (g : GroupIx), s.actsNow → s.on (FC_CAP_CFG_EN g) → RunsTo (exec (.captureArm g 1) s) fun t =>
      t.get (FC_CAP_STAT_STATE g) = capArmed ∧ (t.group g).cap.tsrc = s.get (FC_CAP_CFG_TSRC g) ∧
      (t.group g).cap.post = s.get (FC_CAP_POST_POST g) ∧ (t.group g).cap.armAt = s.time ∧ (t.group g).cap.n = 0 ∧
      (t.group g).cap.trig = none ∧ Frame s t [.groups] (· ∈ [FC_CAP_STAT_STATE g])) ∧
  (∀ (s : State) (g : GroupIx), s.actsNow → s.get (FC_CAP_STAT_STATE g) = capArmed →
    RunsTo (exec (.captureForce g 2) s) fun t =>
      (t.group g).cap.thr = some (tickOf (s.time + 1)) ∧ t.get (FC_CAP_STAT_STATE g) = capTriggered ∧
      t.get (FC_FLAGS_CAPTRIG g) = 1 ∧ t.get (FC_CNT2_CAPTRIG g) = min (s.get (FC_CNT2_CAPTRIG g) + 1) 65535 ∧
      Frame s t [.groups] (· ∈ [FC_CAP_STAT_STATE g, FC_FLAGS_CAPTRIG g, FC_CNT2_CAPTRIG g])) ∧
  (∀ (s : State) (g : GroupIx) (v : Word), s.actsNow → v.getLsbD 2 →
    s.get (FC_CAP_STAT_STATE g) = capArmed ∨ s.get (FC_CAP_STAT_STATE g) = capTriggered →
    RunsTo (exec (.captureStop g v) s) fun t =>
      t.get (FC_CAP_STAT_STATE g) = capDone ∧ t.get (FC_FLAGS_CAPDONE g) = 1 ∧
      t.get (FC_CNT2_CAPDONE g) = min (s.get (FC_CNT2_CAPDONE g) + 1) 65535 ∧
      Frame s t [.groups] (fun y => y.reg = FC_CAP_STAT g ∨ y = FC_CAP_CNT_POSTN g ∨ y = FC_CAP_FIRST_ADDR g
        ∨ y = FC_FLAGS_CAPDONE g ∨ y = FC_CNT2_CAPDONE g)) ∧
  (∀ (s : State) (g : GroupIx) (k w : Nat), (s.group g).cap.trig = some (k, w) →
    s.get (FC_CAP_STAT_STATE g) = capTriggered → (s.group g).cap.n = k + (s.group g).cap.post →
    (s.group g).cap.post ≤ 262144 → RunsTo (exec (.captureDone g) s) fun t =>
      t.get (FC_CAP_STAT_STATE g) = capDone ∧ t.get (FC_CAP_CNT_POSTN g) = (s.group g).cap.post ∧
      t.get (FC_FLAGS_CAPDONE g) = 1 ∧ t.mem = s.mem) ∧
  (∀ (s : State) (g : GroupIx) (v : Word), s.ready → s.on (FC_LOG_CTL_HOST g) = false →
    (s.get (FC_LOG_PTR_WPTR g) + 8192 - v.toNat / 65536 % 8192) % 8192 ≤ 4096 → RunsTo (exec (.logRptrWrite g v) s) fun t =>
      t.get (FC_LOG_PTR_RPTR g) = v.toNat / 65536 % 8192 ∧ Frame s t [] (· ∈ [FC_LOG_PTR_RPTR g])) ∧
  (∀ (s : State) (g : GroupIx) (v : Word), s.ready → s.on (FC_EV_CTL_DMA g) = false →
    (s.get (FC_EV_PTR_WPTR g) + 16384 - v.toNat / 65536 % 16384) % 16384 ≤ 8192 → RunsTo (exec (.evRptrWrite g v) s) fun t =>
      t.get (FC_EV_PTR_RPTR g) = v.toNat / 65536 % 16384 ∧ Frame s t [] (· ∈ [FC_EV_PTR_RPTR g]))

/-- R194 to R198, R204: a write of ARM with EN = 1 arms a trigger engine at stage 0 and DISARM makes it IDLE, winning
over ARM. AQ_SOFT and TRIG_IN record their events in every engine, TRIG_IN in every player too, and it triggers the armed
captures whose TSRC names it. A one-stage engine whose stage matches at an instant up to which every outcome is formed
fires: FIRES is counted, FT holds the instant, the FIRE bit is set, the engine is IDLE, or in HOLDOFF with AUTO, and
the TRIG_OUT ball that names it is to rise 48 TCLK later. A TRIG_OUT pulse ends at its TIME. -/
def Obligations.TriggerEngines : Prop :=
  (∀ (s : State) (n : Fin 4) (v : Word), s.actsNow → v.getLsbD 0 → v.getLsbD 1 = false → s.on (AQ_TE_CTL_EN n) →
    RunsTo (exec (.teArm n v) s) fun t =>
      t.get (AQ_TE_STAT_STATE n) = teArmed ∧ t.get (AQ_TE_STAT_STAGE n) = 0 ∧ (t.te n).hits = 0 ∧ (t.te n).armAt = s.time ∧
      Frame s t [.trigs] (· ∈ [AQ_TE_STAT_STATE n, AQ_TE_STAT_STAGE n])) ∧
  (∀ (s : State) (n : Fin 4) (v : Word), s.actsNow → v.getLsbD 1 → RunsTo (exec (.teDisarm n v) s) fun t =>
      t.get (AQ_TE_STAT_STATE n) = teIdle ∧ t.get (AQ_TE_STAT_STAGE n) = 0 ∧
      Frame s t [] (· ∈ [AQ_TE_STAT_STATE n, AQ_TE_STAT_STAGE n])) ∧
  (∀ (s : State) (v : Word), s.actsNow → RunsTo (exec (.teSoft v) s) fun t =>
      (∀ n, n < 4 → (t.te n).ext = if v.getLsbD n then (s.te n).ext ++ [(2, s.time)] else (s.te n).ext) ∧
      Frame s t [.trigs] (fun _ => False)) ∧
  (∀ (s : State) (k : Fin 2), (∀ g, g < 32 → (s.wp g).due = []) → RunsTo (exec (.trigInRise k) s) fun t =>
      (∀ n, n < 4 → (t.te n).ext = (s.te n).ext ++ [(k.val, s.time)]) ∧ (∀ g, g < 32 → (t.wp g).trig.getLsbD k) ∧
      (∀ g, g < 32 → s.get (FC_CAP_STAT_STATE g) = capArmed → (s.group g).cap.tsrc = 6 + k.val →
        (t.group g).cap.thr = some (tickOf (s.time + 16) + 1) ∧ t.get (FC_CAP_STAT_STATE g) = capTriggered) ∧
      Frame s t [.trigs, .groups, .sys] (fun y => y.reg = CP_SM_STAT 0 ∨ ∃ g, y = FC_CAP_STAT_STATE g ∨
        y = FC_FLAGS_CAPTRIG g ∨ y = FC_CNT2_CAPTRIG g)) ∧
  (∀ (s : State) (n : Fin 4) (stop : Tick) (mark : Bool) (rest : List (Tick × Bool)), (s.te n).due = (stop, mark) :: rest →
    s.outcomeAwaited (tclkOf stop) = false → s.get (AQ_TE_STAT_STATE n) = teIdle →
    RunsTo (exec (.triggerEvaluation n) s) fun t =>
      (t.te n).due = rest ∧ (t.te n).ext = (s.te n).ext.filter (fun x => !reached (tclkOf stop) x.2) ∧
      Frame s t [.trigs] (fun _ => False)) ∧
  (∀ (s : State) (n : Fin 4) (stop : Tick) (mark : Bool) (rest : List (Tick × Bool)), (s.te n).due = (stop, mark) :: rest →
    s.outcomeAwaited (tclkOf stop) = false → reached (tclkOf stop) (s.te n).armAt →
    s.get (AQ_TE_STAT_STATE n) = teArmed → s.get (AQ_TE_STAT_STAGE n) = 0 → s.get (AQ_TE_S_CTL_NST n 0) = 0 →
    s.get (AQ_TE_S_CTL_COUNT n 0) = 0 → (s.te n).hits = 0 → s.stageMatches n 0 (tclkOf stop) mark →
    RunsTo (exec (.triggerEvaluation n) s) fun t =>
      t.get (AQ_TE_STAT_STATE n) = (if s.on (AQ_TE_CTL_AUTO n) then teHoldoff else teIdle) ∧ t.bit AQ_FLAGS_FIRE n ∧
      t.get (AQ_TE_STAT_FIRES n) = min (s.get (AQ_TE_STAT_FIRES n) + 1) 65535 ∧
      t.getTime (AQ_TE_FT_LO_T_LO n) (AQ_TE_FT_HI_T_HI n) = tclkOf stop ∧
      (s.get AQ_TOUT_CTL_SRC0 = n.val + 1 → vget s.trigOut 0 [] = [] →
        vget t.trigOut 0 [] = [(tclkOf stop + 48, later (tclkOf stop) (48 + 8 * 2 ^ s.get AQ_TOUT_CTL_WID0))])) ∧
  (∀ (s : State) (k : Fin 2), RunsTo (exec (.trigOutPulseEnd k) s) fun t =>
      (∀ x, x ∈ vget t.trigOut k [] ↔ x ∈ vget s.trigOut k [] ∧ reached s.time x.2 = false) ∧
      t.trigLevel k = s.trigLevel k ∧ Frame s t [.trigOut] (fun _ => False))

/-! ### Chapter 08: waveform playback -/

/-- R205, R209 to R213, R218: with no sample tick waiting, START with EN = 1 on a player that is not running plays from
ENTRY0, or from JENT with JUMP, and ownership of the DACs of CHMASK begins; STOP makes it IDLE, ends ownership and disarms;
JUMP on a running player is pending with its entry; ARM on one not running makes it ARMED with its epoch. Once its TCLK
has passed, a due sample tick takes the next sample, clamped to LIM, on its way to the die; one whose fetch is
uncorrectable leaves the previous sample. A sample that reaches the die becomes the target of the DACs owned since it issued. -/
def Obligations.WaveformPlayer : Prop :=
  (∀ (s : State) (g : GroupIx) (v : Word), s.actsNow → v.getLsbD 31 → v.getLsbD 30 = false →
    s.on (WP_CTL_EN g) → s.wpRuns g = false → (s.wp g).due = [] → RunsTo (exec (.wpStart g v) s) fun t =>
      t.wpState g = wpPlaying ∧
      t.get (WP_STAT_ENTRY g) = (if v.getLsbD 29 then v.toNat % 64 else s.get (WP_CTL_ENTRY0 g)) ∧
      t.get (WP_REP_REP g) = 0 ∧ (t.wp g).pos = 0 ∧ (t.wp g).armed = none ∧
      (∀ p, p < 16 → s.bit (WP_CHMASK_MASK g) p → ∃ o ∈ (t.group g).wpOwn, o.1 = p ∧ o.2.1 = s.get (WP_CTL_DAC g)) ∧
      Frame s t [.groups, .sys] (fun y => y.reg = WP_STAT g ∨ y = WP_REP_REP g ∨ outField g y)) ∧
  (∀ (s : State) (g : GroupIx) (v : Word), s.actsNow → v.getLsbD 30 → s.wpState g = wpPlaying → (s.wp g).due = [] →
    RunsTo (exec (.wpStop g v) s) fun t =>
      t.wpState g = wpIdle ∧ t.get (WP_STAT_JPEND g) = 0 ∧ (t.group g).wpOwn = [] ∧ (t.wp g).armed = none ∧
      (t.wp g).flight = [] ∧
      Frame s t [.groups, .sys] (fun y => y.reg = WP_STAT g ∨ outField g y)) ∧
  (∀ (s : State) (g : GroupIx) (v : Word), s.actsNow → v.getLsbD 29 → v.getLsbD 30 = false → s.wpRuns g →
    (s.wp g).due = [] → RunsTo (exec (.wpJump g v) s) fun t =>
      t.get (WP_STAT_JPEND g) = 1 ∧ (t.wp g).jent = v.toNat % 64 ∧ t.wpState g = s.wpState g ∧
      Frame s t [.groups] (· ∈ [WP_STAT_JPEND g])) ∧
  (∀ (s : State) (g : GroupIx) (v : Word), s.actsNow → v.getLsbD 31 → s.wpRuns g = false →
    RunsTo (exec (.wpSctlArm g v) s) fun t =>
      t.wpState g = wpArmed ∧ t.get (WP_SCTL_KIND g) = v.toNat % 8 ∧
      ((t.wp g).armed.map fun a => (a.1, a.2.2)) = some (v.toNat % 8, s.time) ∧
      Frame s t [.groups] (· ∈ [WP_STAT_STATE g, WP_SCTL_KIND g])) ∧
  (∀ (s : State) (g : GroupIx) (ecc : EccResult) (at_ : Time) (n : Nat) (rest : List (Time × Nat)),
    (s.wp g).due = (at_, n) :: rest → reached s.time (at_ + 1) → s.wpRuns g = false →
    RunsTo (exec (.wpSampleTick ⟨g, ecc⟩) s) fun t => (t.wp g).due = rest ∧ Frame s t [.groups] (fun _ => False)) ∧
  (∀ (s : State) (g : GroupIx) (ecc : EccResult) (at_ : Time) (rest : List (Time × Nat)), (s.wp g).due = (at_, 1) :: rest →
    reached s.time (at_ + 1) → s.wpState g = wpPlaying → (s.wp g).strm = false → (s.wp g).pos < (s.wp g).len →
    (s.wp g).lastIssue = none → s.get (WP_LIM_LO g) ≤ s.get (WP_LIM_HI g) → s.get (WP_LIM_HI g) < 65536 →
    RunsTo (exec (.wpSampleTick ⟨g, ecc⟩) s) fun t =>
      (t.wp g).pos = (s.wp g).pos + 1 ∧ (t.wp g).due = rest ∧ t.time = s.time ∧
      (ecc ≠ .uncorrectable → t.get (WP_POS_ADDR g) = ((s.wp g).start + (s.wp g).pos) % 65536 ∧
        t.get (WP_POS_CODE g) = max (s.get (WP_LIM_LO g)) (min (s.get (WP_LIM_HI g))
          (s.wpWord g (((s.wp g).start + (s.wp g).pos) % 65536) % 65536)) ∧ (t.wp g).lastIssue = some at_ ∧
        ∃ x, (t.wp g).flight = (s.wp g).flight ++ [x] ∧ x.1 = at_ + 64 ∧ x.2.1.toNat = t.get (WP_POS_CODE g)) ∧
      (ecc = .uncorrectable → t.get (WP_POS_CODE g) = s.get (WP_POS_CODE g) ∧ (t.wp g).flight = (s.wp g).flight)) ∧
  (∀ (s : State) (g : GroupIx) (at_ : Time) (code mask : BitVec 16) (d : Nat)
    (rest : List (Time × BitVec 16 × Nat × BitVec 16)),
    (s.wp g).flight = (at_, code, d, mask) :: rest → reached s.time at_ → RunsTo (exec (.wpSampleTarget g) s) fun t =>
      (t.wp g).flight = rest ∧
      (t.group g).wpOwn = (s.group g).wpOwn.map (fun o => if o.2.1 = d ∧ mask.getLsbD o.1 then (o.1, d, code) else o) ∧
      Frame s t [.groups, .sys] (outField g))
/-! ### Chapters 09 and 10: Quesel -/

/-- R259, R267, R271 to R276, R253: NOP and an undefined opcode advance the PC, the latter as a counted clamp. JMP sets
the PC to B, at most 16,383, and JMPC does where its condition holds; with CLR it clears the flag it tests, unless
hardware has set it in this TCLK (R264). CALL pushes PC + 1 and jumps, or only jumps at
depth 4; LOOP pushes PC + 1 and sets Ld = B, or does neither at depth 4; RET pops a CALL entry; ENDL goes back while Ld is not 0 and else pops its
entry; without such an entry RET and ENDL advance as clamps. Each issues the vector at A and changes nothing else. -/
def Obligations.QueselControlFlow : Prop :=
  ∀ (s : State) (e : EngineIx) (c : Fin 32) (i : Native), s.Stands e c i →
    (opOf i = 0x00 → RunsTo (exec (.nop e) s) fun t => Advances s t e c i []) ∧
    (opOf i ∉ definedOps → RunsTo (exec (.undefinedOpcode e) s) fun t => Advances s t e c i [] (clamp := true)) ∧
    (opOf i = 0x0A → RunsTo (exec (.jmp e) s) fun t =>
      Executes s t e c i (min (bOf i) 16383) (decide (16383 < bOf i)) []) ∧
    (opOf i = 0x0B → clrOf i = false → s.condTrue e c i → RunsTo (exec (.jmpc e) s) fun t =>
      Executes s t e c i (min (bOf i) 16383) (decide (16383 < bOf i)) []) ∧
    (opOf i = 0x0B → clrOf i = false → s.condTrue e c i = false → RunsTo (exec (.jmpc e) s) fun t => Advances s t e c i []) ∧
    (opOf i = 0x0B → clrOf i → condOf i = 2 → s.on (SQ_CTX_FLAGS_FAIL e c) → RunsTo (exec (.jmpc e) s) fun t =>
      Advances s t e c i [SQ_CTX_FLAGS_FAIL e c] ∧
      t.get (SQ_CTX_FLAGS_FAIL e c) = (if s.raised.contains ((SQ_CTX_FLAGS_FAIL e c).reg.addr, (SQ_CTX_FLAGS_FAIL e c).lo)
        then 1 else 0)) ∧
    (opOf i = 0x0C → s.get (SQ_CTX_STAT_DEPTH e c) < 4 → RunsTo (exec (.callOp e) s) fun t =>
      let d := s.get (SQ_CTX_STAT_DEPTH e c)
      Executes s t e c i (min (bOf i) 16383) (decide (16383 < bOf i))
        [stackKind e c d, stackAddr e c d, SQ_CTX_STAT_DEPTH e c] ∧
      t.get (SQ_CTX_STAT_DEPTH e c) = d + 1 ∧ t.get (stackKind e c d) = 0 ∧ t.get (stackAddr e c d) = pcNext (s.ctxPc e c)) ∧
    (opOf i = 0x0C → s.get (SQ_CTX_STAT_DEPTH e c) = 4 → RunsTo (exec (.callOp e) s) fun t =>
      Executes s t e c i (min (bOf i) 16383) true []) ∧
    (opOf i = 0x08 → s.get (SQ_CTX_STAT_DEPTH e c) < 4 → RunsTo (exec (.loopOp e) s) fun t =>
      let d := s.get (SQ_CTX_STAT_DEPTH e c)
      Advances s t e c i [stackKind e c d, stackAddr e c d, SQ_CTX_STAT_DEPTH e c, SQ_CTX_L_L e c d] ∧
      t.get (SQ_CTX_STAT_DEPTH e c) = d + 1 ∧ t.get (stackKind e c d) = 1 ∧
      t.get (stackAddr e c d) = pcNext (s.ctxPc e c) ∧ t.get (SQ_CTX_L_L e c d) = bOf i) ∧
    (opOf i = 0x08 → s.get (SQ_CTX_STAT_DEPTH e c) = 4 → RunsTo (exec (.loopOp e) s) fun t =>
      Advances s t e c i [] (clamp := true)) ∧
    (∀ d < 4, opOf i = 0x0D → s.get (SQ_CTX_STAT_DEPTH e c) = d + 1 → s.get (stackKind e c d) = 0 →
      RunsTo (exec (.ret e) s) fun t =>
        Executes s t e c i (s.get (stackAddr e c d)) false [SQ_CTX_STAT_DEPTH e c] ∧ t.get (SQ_CTX_STAT_DEPTH e c) = d) ∧
    (opOf i = 0x0D → s.get (SQ_CTX_STAT_DEPTH e c) = 0 → RunsTo (exec (.ret e) s) fun t =>
      Advances s t e c i [] (clamp := true)) ∧
    (∀ d < 4, opOf i = 0x09 → s.get (SQ_CTX_STAT_DEPTH e c) = d + 1 → s.get (stackKind e c d) = 1 →
      s.get (SQ_CTX_L_L e c d) ≠ 0 → RunsTo (exec (.endl e) s) fun t =>
        Executes s t e c i (s.get (stackAddr e c d)) false [SQ_CTX_L_L e c d] ∧
        t.get (SQ_CTX_L_L e c d) = s.get (SQ_CTX_L_L e c d) - 1) ∧
    (∀ d < 4, opOf i = 0x09 → s.get (SQ_CTX_STAT_DEPTH e c) = d + 1 → s.get (stackKind e c d) = 1 →
      s.get (SQ_CTX_L_L e c d) = 0 → RunsTo (exec (.endl e) s) fun t =>
        Advances s t e c i [SQ_CTX_STAT_DEPTH e c] ∧ t.get (SQ_CTX_STAT_DEPTH e c) = d) ∧
    (opOf i = 0x09 → s.get (SQ_CTX_STAT_DEPTH e c) = 0 → RunsTo (exec (.endl e) s) fun t =>
      Advances s t e c i [] (clamp := true))

/-- R268 to R270, R235, R236, R242, R304: one slot of VEC or RPT with more to come issues the vector and leaves the PC,
with the vectors still to issue in RES; the last one advances the PC, and VEC ends as a clamp after 0xFFFF. STREAM
issues the head of each member's refill buffer, or with SQ_STRM.EN = 0 the underrun vector at UVA, which then counts,
sets UNDR and opens an episode. -/
def Obligations.QueselVectors : Prop :=
  ∀ (s : State) (e : EngineIx) (c : Fin 32) (i : Native), s.Stands e c i →
    (opOf i = 0x01 → s.get (SQ_CTX_RES_RES e c) = 0 → 0 < bOf i → aOf i < 0xFFFF → RunsTo (exec (.vec e 1) s) fun t =>
      Issues s t e c (s.wordAt i id) none none (s.engine e).msgs ∧ t.ctxPc e c = s.ctxPc e c ∧
      t.get (SQ_CTX_RES_RES e c) = bOf i ∧ (t.engine e).va = aOf i + 1 ∧
      Frame s t [.groups, .engines] (· ∈ [SQ_CTX_RES_RES e c, SQ_STAT_ENG e])) ∧
    (opOf i = 0x01 → s.get (SQ_CTX_RES_RES e c) = 0 → bOf i = 0 → RunsTo (exec (.vec e 1) s) fun t =>
      Advances s t e c i []) ∧
    (opOf i = 0x01 → s.get (SQ_CTX_RES_RES e c) = 0 → 0 < bOf i → 0xFFFF ≤ aOf i → RunsTo (exec (.vec e 1) s) fun t =>
      Advances s t e c i [] (clamp := true)) ∧
    (∀ r, opOf i = 0x01 → s.get (SQ_CTX_RES_RES e c) = r → 1 < r → r ≤ bOf i → aOf i + bOf i + 1 - r < 0xFFFF →
      RunsTo (exec (.vec e 1) s) fun t =>
        Issues s t e c (fun g => s.vStore g (aOf i + bOf i + 1 - r)) none none (s.engine e).msgs ∧
        t.ctxPc e c = s.ctxPc e c ∧ t.get (SQ_CTX_RES_RES e c) = r - 1) ∧
    (opOf i = 0x02 → s.get (SQ_CTX_RES_RES e c) = 0 → 0 < bOf i → RunsTo (exec (.rpt e 1) s) fun t =>
      Issues s t e c (s.wordAt i id) none none (s.engine e).msgs ∧ t.ctxPc e c = s.ctxPc e c ∧
      t.get (SQ_CTX_RES_RES e c) = bOf i ∧ (t.engine e).va = (s.engine e).va ∧
      Frame s t [.groups, .engines] (· ∈ [SQ_CTX_RES_RES e c, SQ_STAT_ENG e])) ∧
    (opOf i = 0x02 → s.get (SQ_CTX_RES_RES e c) = 1 → RunsTo (exec (.rpt e 1) s) fun t => Advances s t e c i []) ∧
    (opOf i = 0x03 → s.get (SQ_CTX_RES_RES e c) = 0 → 0 < bOf i → s.on (SQ_STRM_EN e) → s.on (SQ_UH_EHI_OPEN e) = false →
      (∀ g ∈ s.members e, (s.engine g).refill ≠ []) → RunsTo (exec (.stream e 1) s) fun t =>
        (∀ g ∈ s.members e, ∃ v : Issued, t.group g = { s.group g with issue := (s.group g).issue ++ [v] } ∧
          v.word = (s.engine g).refill.headD 0 ∧ v.ctx = c ∧ (t.engine g).refill = (s.engine g).refill.tail) ∧
        t.ctxPc e c = s.ctxPc e c ∧ t.get (SQ_CTX_RES_RES e c) = bOf i ∧
        Frame s t [.groups, .engines] (fun y => y = SQ_CTX_RES_RES e c ∨ y = SQ_STAT_ENG e ∨ ∃ g, y = SQ_STRM_STAT_FILL g)) ∧
    (opOf i = 0x03 → s.get (SQ_CTX_RES_RES e c) = 0 → 0 < bOf i → s.on (SQ_STRM_EN e) = false →
      s.on (SQ_UH_EHI_OPEN e) = false → RunsTo (exec (.stream e 1) s) fun t =>
        Issues s t e c (fun g => s.vStore g (s.get (SQ_CTX_CFG_UVA e c))) none none (s.engine e).msgs ∧
        t.get (SQ_CTX_RES_RES e c) = bOf i ∧ t.get (SQ_CTX_FLAGS_UNDR e c) = 1 ∧ t.get (SQ_FLAGS_UNDR e) = 1 ∧
        t.get (SQ_UNDRCNT_VEC e) = min (s.get (SQ_UNDRCNT_VEC e) + 1) (2 ^ 32 - 1) ∧ t.get (SQ_UH_EHI_OPEN e) = 1 ∧
        t.getTime (SQ_UH_SLO_S_LO e) (SQ_UH_SHI_S_HI e) = tclkOf (s.nextSlot e))

/-- R265, R284 to R287: LDQ loads B; ADDQ adds B or a register modulo 2^24; CMPQ forms the difference and stores nothing;
MOVQ copies a Q or L register, or TIME [23:0] at its sampling TCLK, to a Q or L register, or to none. Z, N and C follow
the result. Each issues the vector at A, advances the PC and changes nothing else. -/
def Obligations.QueselArithmetic : Prop :=
  ∀ (s : State) (e : EngineIx) (c : Fin 32) (i : Native), s.Stands e c i →
    let r := cOf i % 8
    let q := s.get (SQ_CTX_Q_Q e c r)
    let x := if modOf i % 2 = 0 then bOf i else s.get (SQ_CTX_Q_Q e c (cOf i / 16 % 8))
    let flags := fun (t : State) (x : Nat) (n : Bool) => t.get (SQ_CTX_FLAGS_CNZ e c) = (if n then 4 else 0) + (if 2 ^ 23 ≤ x then 2 else 0) + (if x = 0 then 1 else 0)
    (opOf i = 0x20 → RunsTo (exec (.ldq e) s) fun t =>
      Advances s t e c i [SQ_CTX_Q_Q e c r, SQ_CTX_FLAGS_CNZ e c] ∧ t.get (SQ_CTX_Q_Q e c r) = bOf i ∧
      flags t (bOf i) false) ∧
    (opOf i = 0x21 → RunsTo (exec (.addq e) s) fun t =>
      Advances s t e c i [SQ_CTX_Q_Q e c r, SQ_CTX_FLAGS_CNZ e c] ∧ t.get (SQ_CTX_Q_Q e c r) = (q + x) % 2 ^ 24 ∧
      flags t ((q + x) % 2 ^ 24) (decide (2 ^ 24 ≤ q + x))) ∧
    (opOf i = 0x22 → RunsTo (exec (.cmpq e) s) fun t =>
      Advances s t e c i [SQ_CTX_FLAGS_CNZ e c] ∧ flags t ((q + 2 ^ 24 - x) % 2 ^ 24) (decide (q < x))) ∧
    (∀ (k d : Fin 8), opOf i = 0x23 → cOf i = 16 * k.val + d.val → RunsTo (exec (.movq e) s) fun t =>
      Advances s t e c i [SQ_CTX_Q_Q e c d.val, SQ_CTX_FLAGS_CNZ e c] ∧
      t.get (SQ_CTX_Q_Q e c d.val) = s.get (SQ_CTX_Q_Q e c k.val) ∧ flags t (s.get (SQ_CTX_Q_Q e c k.val)) false) ∧
    (∀ (k d : Fin 4), opOf i = 0x23 → cOf i = 16 * (8 + k.val) + (8 + d.val) → RunsTo (exec (.movq e) s) fun t =>
      Advances s t e c i [SQ_CTX_L_L e c d.val, SQ_CTX_FLAGS_CNZ e c] ∧
      t.get (SQ_CTX_L_L e c d.val) = s.get (SQ_CTX_L_L e c k.val) ∧ flags t (s.get (SQ_CTX_L_L e c k.val)) false) ∧
    (opOf i = 0x23 → cOf i = 0xDF → RunsTo (exec (.movq e) s) fun t =>
      Advances s t e c i [SQ_CTX_FLAGS_CNZ e c] ∧ flags t ((s.slotTime e).toNat % 2 ^ 24) false)

/-- R261, R282, R283, R288 to R297: each of these issues the vector at A and advances the PC. SETTS and SETLS set TSB
and LSEL, a larger C being clamped, from this vector on; SUMB sets SUMR in its word, and TRIG with MARK sets TRGM; YIELD
and HALT end the turn with their vector; the others carry their request to the vector's start, with the operands of the
instruction. MSG RECV pops the head of the message queue into three registers. -/
def Obligations.QueselActions : Prop :=
  ∀ (s : State) (e : EngineIx) (c : Fin 32) (i : Native), s.Stands e c i →
    let q := fun k => s.get (SQ_CTX_Q_Q e c ((cOf i + k) % 8))
    (opOf i = 0x28 → RunsTo (exec (.setts e) s) fun t =>
      Advances s t e c i [SQ_CTX_CFG_TSB e c] (clamp := decide (31 < cOf i)) ∧
      t.get (SQ_CTX_CFG_TSB e c) = min (cOf i) 31) ∧
    (opOf i = 0x29 → RunsTo (exec (.setls e) s) fun t =>
      Advances s t e c i [SQ_CTX_CFG_LSEL e c] (clamp := decide (7 < cOf i)) ∧
      t.get (SQ_CTX_CFG_LSEL e c) = min (cOf i) 7) ∧
    (opOf i = 0x32 → RunsTo (exec (.sumb e) s) fun t => Advances s t e c i [] (force := fun w => nset w 70)) ∧
    (opOf i = 0x19 → RunsTo (exec (.yield e) s) fun t => Advances s t e c i [] (turn := some .yield)) ∧
    (opOf i = 0x1A → RunsTo (exec (.halt e) s) fun t => Advances s t e c i [] (turn := some .halt)) ∧
    (opOf i = 0x2A → modOf i % 4 = 0 → RunsTo (exec (.wpcStart e) s) fun t =>
      Advances s t e c i [] (x := some (.wpc 0 (cOf i % 64)))) ∧
    (opOf i = 0x2A → modOf i % 4 = 1 → RunsTo (exec (.wpcStop e) s) fun t =>
      Advances s t e c i [] (x := some (.wpc 1 (cOf i % 64)))) ∧
    (opOf i = 0x2A → modOf i % 4 = 2 → RunsTo (exec (.wpcJump e) s) fun t =>
      Advances s t e c i [] (x := some (.wpc 2 (cOf i % 64)))) ∧
    (opOf i = 0x2A → modOf i % 4 = 3 → RunsTo (exec (.wpcStartat e) s) fun t =>
      Advances s t e c i [] (x := some (.wpc 3 (cOf i % 64)))) ∧
    (opOf i = 0x30 → RunsTo (exec (.measOp e) s) fun t =>
      Advances s t e c i [] (x := some (.meas (BitVec.ofNat 16 (bOf i))))) ∧
    (opOf i = 0x31 → modOf i % 2 = 0 → RunsTo (exec (.freqStart e) s) fun t =>
      Advances s t e c i [] (x := some (.freq false))) ∧
    (opOf i = 0x31 → modOf i % 2 = 1 → RunsTo (exec (.freqStop e) s) fun t =>
      Advances s t e c i [] (x := some (.freq true))) ∧
    (opOf i = 0x33 → RunsTo (exec (.snapOp e) s) fun t => Advances s t e c i [] (x := some .snap)) ∧
    (opOf i = 0x34 → RunsTo (exec (.trigOp e) s) fun t =>
      Advances s t e c i [] (x := some (.trig (BitVec.ofNat 4 (cOf i)) ((cOf i).testBit 4)))
        (force := fun w => if (cOf i).testBit 5 then nset w 71 else w)) ∧
    (opOf i = 0x35 → modOf i % 2 = 0 → RunsTo (exec (.msgSend e) s) fun t =>
      Advances s t e c i []
        (x := some (.msg (BitVec.ofNat 72 (q 0 + q 1 * 2 ^ 24 + q 2 * 2 ^ 48)) (BitVec.ofNat 24 (bOf i))))) ∧
    (∀ w rest, opOf i = 0x35 → modOf i % 2 = 1 → (s.engine e).msgs = w :: rest → rest.length < 32 →
      RunsTo (exec (.msgRecv e) s) fun t =>
        let r := fun k => SQ_CTX_Q_Q e c ((cOf i + k) % 8)
        Issues s t e c (s.wordAt i id) none none rest ∧
        Completes s t e c (pcNext (s.ctxPc e c)) none (decide (0xFFFF < aOf i) || s.ctxPc e c == 16383)
          [r 0, r 1, r 2, SQ_MSGSTAT_DEPTH e] ∧
        t.get (r 0) = nbits w 23 0 ∧ t.get (r 1) = nbits w 47 24 ∧ t.get (r 2) = nbits w 71 48 ∧
        t.get (SQ_MSGSTAT_DEPTH e) = rest.length) ∧
    (opOf i = 0x35 → modOf i % 2 = 1 → (s.engine e).msgs = [] → RunsTo (exec (.msgRecv e) s) fun t =>
      Advances s t e c i []) ∧
    (opOf i = 0x36 → RunsTo (exec (.armt e) s) fun t =>
      Advances s t e c i [] (x := some (.armt (BitVec.ofNat 16 (bOf i)) (BitVec.ofNat 4 (cOf i)))))

/-- R57, R277 to R281, R303, R306: a wait issues nothing, keeps its PC and holds the engine: WAITPH for an angle or for
PHASE + an offset, WAITT for w + a delay or the TIME in three registers, WAITEV for its condition with a timeout of B µs,
SYNC for barrier C with the arrival recorded, SWC for 2,048 ticks. At its release the PC advances, the engine's next
vector begins at (n + 8) × 1,024 and the next instruction is dispatched; SWC makes the named context RUNNING with cause
SWC and the outgoing one READY. -/
def Obligations.QueselWaits : Prop :=
  (∀ (s : State) (e : EngineIx) (c : Fin 32) (i : Native), s.Stands e c i →
    let w := s.slotTime e
    let q := fun k => s.get (SQ_CTX_Q_Q e c ((cOf i + k) % 8))
    (opOf i = 0x10 → modOf i % 4 ≠ 1 → RunsTo (exec (.waitph e) s) fun t =>
      Holds s t e c i (.angle (BitVec.ofNat 32 (aOf i * 256 + cOf i))) (fun _ => False)) ∧
    (opOf i = 0x10 → modOf i % 4 = 1 → RunsTo (exec (.waitph e) s) fun t =>
      Holds s t e c i (.phase (s.phase + BitVec.ofNat 64 (bOf i * 2 ^ 32 + aOf i * 256 + cOf i))) (fun _ => False)) ∧
    (opOf i = 0x11 → modOf i % 4 ≠ 1 → RunsTo (exec (.waitt e) s) fun t =>
      Holds s t e c i (.time (later w (bOf i * 2 ^ 24 + aOf i))) (fun _ => False)) ∧
    (opOf i = 0x11 → modOf i % 4 = 1 → RunsTo (exec (.waitt e) s) fun t =>
      Holds s t e c i (.time (BitVec.ofNat 56 (q 0 + q 1 * 2 ^ 24 + q 2 % 2 ^ 8 * 2 ^ 48))) (fun _ => False)) ∧
    (opOf i = 0x12 → RunsTo (exec (.waitev e) s) fun t =>
      Holds s t e c i (.event (BitVec.ofNat 8 (modOf i)) (if bOf i = 0 then none else some (later w (1600 * bOf i))))
        (fun _ => False)) ∧
    (∀ b : Fin 8, opOf i = 0x13 → cOf i % 8 = b → s.bit (SQ_BAR_MASK_MASK 0 b) e → s.on (SQ_BAR_CTL_DOM 0 b) = false →
      RunsTo (exec (.sync e) s) fun t =>
        Holds s t e c i (.barrier b) (fun y => y = SQ_BAR_ARR_ARR 0 b) ∧ t.bit (SQ_BAR_ARR_ARR 0 b) e ∧
        vget (t.engine e).arrived b none = some w) ∧
    (opOf i = 0x18 → RunsTo (exec (.swc e) s) fun t =>
      Holds s t e c i (.swc (cOf i % 32)) (fun _ => False) ∧ t.nextSlot e = s.nextSlot e + 2048)) ∧
  (∀ (s : State) (e : EngineIx) (c : Fin 32) (x : Wait) (n : Time), s.isLeader e → s.inMchk e = false →
    (∀ op < 256, (s.dispEntry e op).bad = false) → s.running e = some c.val → s.ctxWait e c = some x → x.kind = .time n →
    x.released = none → x.micro = vendorHold 2 [] → reached n (later x.since 1) → reached s.time n →
    (∀ d < 32, d ≠ c.val → s.ctxWait e d = none) → RunsTo (exec (.waitRelease e) s) fun t =>
      t.ctxPc e c = pcNext (s.ctxPc e c) ∧ t.ctxWait e c = none ∧ t.get (SQ_STAT_ENG e) = engIssue ∧
      t.nextSlot e = tickOf (later n 8) ∧ (t.engine e).dispatched ∧ (t.engine e).instr = s.iStore e (t.ctxPc e c) ∧
      Frame s t [.engines] (· ∈ [SQ_CTX_STAT_PC e c, SQ_CTX_RES_RES e c, SQ_STAT_ENG e, SQ_CLAMP_COUNT_COUNT e, SQ_FLAGS_CLAMP e,
        SQ_CLAMP_LAST_PC e])) ∧
  (∀ (s : State) (e : EngineIx) (c : Fin 32) (x : Wait) (n : Time) (m : BitVec 8), s.isLeader e → s.inMchk e = false →
    (∀ op < 256, (s.dispEntry e op).bad = false) → s.running e = some c.val → s.ctxWait e c = some x →
    x.kind = .event m (some n) → x.released = none → x.micro = vendorHold 3 [(40, 1)] → s.condTrue e c x.instr = false →
    reached s.time n → (∀ d < 32, d ≠ c.val → s.ctxWait e d = none) → RunsTo (exec (.waitevTimeout e) s) fun t =>
      t.ctxPc e c = pcNext (s.ctxPc e c) ∧ t.ctxWait e c = none ∧ t.nextSlot e = tickOf (later n 8) ∧
      Frame s t [.engines] (· ∈ [SQ_CTX_STAT_PC e c, SQ_CTX_RES_RES e c, SQ_STAT_ENG e, SQ_CLAMP_COUNT_COUNT e,
        SQ_FLAGS_CLAMP e, SQ_CLAMP_LAST_PC e])) ∧
  (∀ (s : State) (e : EngineIx) (c d : Fin 32) (x : Wait), s.mayRun e → (∀ op < 256, (s.dispEntry e op).bad = false) →
    reached s.time (s.slotTime e) → s.running e = some c.val → s.ctxWait e c = some x → x.kind = .swc d →
    cOf x.instr % 32 = d.val → (s.engine e).halting = none → x.micro = vendorHold 5 [(41, 3)] → d ≠ c → s.ctxState e d = .ready → s.ctxWait e d = none →
    RunsTo (exec (.swcHoldEnd e) s) fun t =>
      t.ctxState e c = .ready ∧ t.ctxState e d = .running ∧ t.get (SQ_STAT_RUNCTX e) = d.val ∧
      t.get (SQ_STAT_RUNPRIO e) = s.get (SQ_STAT_RUNPRIO e) ∧ (t.get (SQ_CTX_STAT_CAUSE e d)).testBit 8 ∧
      t.ctxPc e c = pcNext (s.ctxPc e c) ∧ t.get (SQ_STAT_ENG e) = engIssue ∧
      (t.engine e).instr = s.iStore e (s.ctxPc e d) ∧
      Frame s t [.engines] (fun y => y.reg = SQ_CTX_STAT e c ∨ y.reg = SQ_CTX_STAT e d ∨ y.reg = SQ_STAT e ∨
        y = SQ_CTX_RES_RES e c ∨ y = SQ_ELIG_ELIG e ∨ y = SQ_CLAMP_COUNT_COUNT e ∨ y = SQ_FLAGS_CLAMP e ∨ y = SQ_CLAMP_LAST_PC e))

/-- R250, R252, R280: once every participant has arrived, a local barrier releases 4 TCLK after the last arrival: every
context that waits on it continues and the arrivals are withdrawn. TMO µs after the first arrival the arrivals are
withdrawn too, and each waiting context continues with SYNCTO set and counted. -/
def Obligations.Barriers : Prop :=
  (∀ (s : State) (b : Fin 8) (a : Time), s.on (SQ_BAR_CTL_DOM 0 b) = false → s.barrierFull b → s.barrierSet b ≠ [] →
    lastOf (s.arrivals b) = some a → reached s.time (later a 4) → (∀ l < 32, ∀ op < 256, (s.dispEntry l op).bad = false) →
    (∀ x ∈ s.barrierWaits b, (s.ctxWait x.1 x.2).map (·.micro) = some (vendorHold 4 [])) →
    RunsTo (exec (.barrierRelease b) s) fun t =>
      t.get (SQ_BAR_ARR_ARR 0 b) = 0 ∧ t.arrivals b = [] ∧
      (∀ x ∈ s.barrierWaits b, t.ctxWait x.1 x.2 = none ∧ t.ctxPc x.1 x.2 = pcNext (s.ctxPc x.1 x.2)) ∧
      (∀ x ∈ s.barrierWaits b, s.running x.1 = some x.2 → t.nextSlot x.1 = tickOf (later a 12)) ∧
      Frame s t [.engines] (fun y => y = SQ_BAR_ARR_ARR 0 b ∨ ∃ l, (∃ c, y = SQ_CTX_STAT_PC l c ∨ y = SQ_CTX_RES_RES l c) ∨
        y = SQ_STAT_ENG l ∨ y = SQ_CLAMP_COUNT_COUNT l ∨ y = SQ_FLAGS_CLAMP l ∨ y = SQ_CLAMP_LAST_PC l)) ∧
  (∀ (s : State) (b : Fin 8) (a : Time), earliestOf (s.arrivals b) = some a → 0 < s.get (SQ_BAR_CTL_TMO 0 b) →
    reached s.time (later a (1600 * s.get (SQ_BAR_CTL_TMO 0 b))) → (∀ l < 32, ∀ op < 256, (s.dispEntry l op).bad = false) →
    (∀ x ∈ s.barrierWaits b, (s.ctxWait x.1 x.2).map (·.micro) = some (vendorHold 4 [])) →
    RunsTo (exec (.barrierTimeout b) s) fun t =>
      t.get (SQ_BAR_ARR_ARR 0 b) = 0 ∧ t.arrivals b = [] ∧
      (∀ x ∈ s.barrierWaits b, t.ctxWait x.1 x.2 = none ∧ t.ctxPc x.1 x.2 = pcNext (s.ctxPc x.1 x.2) ∧
        t.get (SQ_CTX_FLAGS_SYNCTO x.1 x.2) = 1 ∧ t.get (SQ_FLAGS_SYNCTO x.1) = 1) ∧
      Frame s t [.engines] (fun y => y = SQ_BAR_ARR_ARR 0 b ∨ ∃ l, (∃ c, y = SQ_CTX_STAT_PC l c ∨
        y = SQ_CTX_RES_RES l c ∨ y = SQ_CTX_FLAGS_SYNCTO l c) ∨ y = SQ_STAT_ENG l ∨ y = SQ_CLAMP_COUNT_COUNT l ∨ y = SQ_FLAGS_CLAMP l ∨
        y = SQ_CLAMP_LAST_PC l ∨ y = SQ_FLAGS_SYNCTO l ∨ y = SQ_CNT1_SYNCTO l))

/-- R227, R228, R314: while an image is LOADED, READY takes an IDLE context to READY, START an IDLE or READY one to
ELIGIBLE at its BASE, an ELIGIBLE one keeping the higher of its priority and BASE. HALT makes a context that does not run
IDLE at once; a RUNNING one stops at the next decision point: at once in a hold, else not before the next slot. Engine reset leaves every context IDLE with PC 0, empties the
queues, returns the vector count to 0 and withdraws the arrivals; stream reset empties the refill buffer. -/
def Obligations.EngineCommands : Prop :=
  (∀ (s : State) (e : EngineIx) (c : Fin 32), s.actsNow → s.get MC_STAT_STATE = 2 → s.inMchk e = false →
    (s.ctxState e c = .idle → RunsTo (exec (.sqCmdReady e c) s) fun t =>
      t.ctxState e c = .ready ∧ Frame s t [] (· ∈ [SQ_CTX_STAT_STATE e c, SQ_ELIG_ELIG e])) ∧
    (s.ctxState e c ≠ .idle → RunsTo (exec (.sqCmdReady e c) s) fun t => Frame s t [] (fun _ => False)) ∧
    (s.ctxState e c = .idle ∨ s.ctxState e c = .ready → RunsTo (exec (.sqCmdStart e c) s) fun t =>
      t.ctxState e c = .eligible ∧ t.ctxPrio e c = s.get (SQ_CTX_CFG_BASE e c) ∧ t.bit (SQ_ELIG_ELIG e) c ∧
      vget (t.engine e).eligAt c [] = [(s.time, s.get (SQ_CTX_CFG_BASE e c))] ∧
      Frame s t [.engines] (· ∈ [SQ_CTX_STAT_STATE e c, SQ_CTX_STAT_PRIO e c, SQ_ELIG_ELIG e])) ∧
    (s.ctxState e c = .eligible → s.running e ≠ some c.val → RunsTo (exec (.sqCmdStart e c) s) fun t =>
      t.ctxState e c = .eligible ∧ t.ctxPrio e c = max (s.ctxPrio e c) (s.get (SQ_CTX_CFG_BASE e c)) ∧
      Frame s t [.engines] (· ∈ [SQ_CTX_STAT_PRIO e c])) ∧
    (s.ctxState e c ≠ .running → RunsTo (exec (.sqCmdHalt e c) s) fun t =>
      t.ctxState e c = .idle ∧ t.ctxWait e c = none ∧
      Frame s t [.engines] (· ∈ [SQ_CTX_STAT_STATE e c, SQ_ELIG_ELIG e])) ∧
    (s.ctxState e c = .running → s.running e = some c.val → (s.engine e).halting = none → s.ctxWait e c = none →
      (s.engine e).afterHold = false → reached s.time (s.slotTime e) = false → RunsTo (exec (.sqCmdHalt e c) s) fun t =>
      t.ctxState e c = .running ∧ (t.engine e).halting = some s.time ∧ Frame s t [.engines] (fun _ => False)) ∧
    (∀ x, s.ctxState e c = .running → s.running e = some c.val → (s.engine e).halting = none → s.ctxWait e c = some x →
      (∀ d, x.kind ≠ .swc d) → s.mayRun e → s.get (SQ_ELIG_ELIG e) = 0 → (s.engine e).dispatched = false →
      reached s.time (tclkOf (s.periodEnd e)) → RunsTo (exec (.sqCmdHalt e c) s) fun t =>
      t.ctxState e c = .idle ∧ t.ctxWait e c = none ∧ t.get (SQ_STAT_ENG e) = engIdle ∧ t.ctxPc e c = s.ctxPc e c ∧
      Frame s t [.engines] (· ∈ [SQ_CTX_STAT_STATE e c, SQ_ELIG_ELIG e, SQ_STAT_ENG e, SQ_STAT_RUNPRIO e]))) ∧
  (∀ (s : State) (e : EngineIx), s.actsNow → s.get (SQ_GANG_M e) = 0 → s.inMchk e = false →
    RunsTo (exec (.sqCmdEngreset e) s) fun t =>
      (∀ c < 32, t.ctxState e c = .idle ∧ t.ctxPc e c = 0 ∧ t.ctxRes e c = 0) ∧ t.get (SQ_STAT_ENG e) = engIdle ∧
      t.get (SQ_ELIG_ELIG e) = 0 ∧ t.get (SQ_MSGSTAT_DEPTH e) = 0 ∧ t.vcnt e = 0 ∧ (t.group e).issue = [] ∧
      (t.group e).iv.n = 0 ∧ (t.group e).iv.iseq = 0 ∧
      t.engine e = { Engine.reset with timers := (s.engine e).timers, trace := (s.engine e).trace } ∧
      (∀ b < 8, t.bit (SQ_BAR_ARR_ARR 0 b) e = false) ∧ (∀ m < 32, m ≠ e.val → t.engine m = s.engine m) ∧
      (∀ m < 32, m ≠ e.val → t.group m = s.group m) ∧
      Frame s t [.engines, .groups, .free] (fun y =>
        (groupBase e ≤ y.reg.addr ∧ y.reg.addr < groupBase e + 0x10000) ∨ ∃ b, y = SQ_BAR_ARR_ARR 0 b)) ∧
  (∀ (s : State) (e : EngineIx), s.actsNow → s.get MC_STAT_STATE = 2 → RunsTo (exec (.sqCmdStrmreset e) s) fun t =>
      (t.engine e).refill = [] ∧ t.get (SQ_STRM_STAT_FILL e) = 0 ∧ t.groups = s.groups ∧
      Frame s t [.engines] (· ∈ [SQ_STRM_STAT_FILL e]))

/-- R238, R247, R248: a doorbell makes a READY context ELIGIBLE at its PRIO and records the cause; for an IDLE one the
cause is dropped and counted. Arming copies a timer's target; at the target a one-shot timer disarms, and a periodic one
moves its target on by its period. A write of SQ_MSGIN2 pushes the assembled word, or is dropped and counted at 16. -/
def Obligations.CausesTimersAndMessages : Prop :=
  (∀ (s : State) (e : EngineIx) (v : Word) (c : Fin 32), s.actsNow → v.getLsbD 0 → v.toNat / 2 % 32 = c → s.isLeader e →
    s.inMchk e = false →
    (s.ctxState e c = .ready → RunsTo (exec (.doorbell e v) s) fun t =>
      t.ctxState e c = .eligible ∧ t.ctxPrio e c = v.toNat / 64 % 8 ∧ t.bit (SQ_ELIG_ELIG e) c ∧
      (t.get (SQ_CTX_STAT_CAUSE e c)).testBit 6 ∧
      vget (t.engine e).eligAt c [] = [(s.time, v.toNat / 64 % 8)] ∧
      Frame s t [.engines] (· ∈ [SQ_CTX_STAT_STATE e c, SQ_CTX_STAT_PRIO e c, SQ_CTX_STAT_CAUSE e c, SQ_ELIG_ELIG e])) ∧
    (s.ctxState e c = .eligible → s.running e = none → RunsTo (exec (.doorbell e v) s) fun t =>
      t.ctxState e c = .eligible ∧ t.ctxPrio e c = max (s.ctxPrio e c) (v.toNat / 64 % 8) ∧
      (s.ctxPrio e c < v.toNat / 64 % 8 → (vget (t.engine e).eligAt c []).head? = some (s.time, v.toNat / 64 % 8)) ∧
      Frame s t [.engines] (· ∈ [SQ_CTX_STAT_PRIO e c, SQ_CTX_STAT_CAUSE e c])) ∧
    (s.ctxState e c = .idle → RunsTo (exec (.doorbell e v) s) fun t =>
      t.get (SQ_FLAGS_CAUSEDROP e) = 1 ∧ t.get (SQ_CNT0_CAUSEDROP e) = min (s.get (SQ_CNT0_CAUSEDROP e) + 1) 65535 ∧
      Frame s t [] (· ∈ [SQ_FLAGS_CAUSEDROP e, SQ_CNT0_CAUSEDROP e]))) ∧
  (∀ (s : State) (e : EngineIx) (j : Fin 2) (v : Word), s.actsNow → v.getLsbD 31 → RunsTo (exec (.timerArm e j v) s) fun t =>
      t.get (SQ_TMR_CTL_ARMED e j) = 1 ∧ t.get (SQ_TMR_CTL_EN e j) = v.toNat % 2 ∧
      t.get (SQ_TMR_CTL_CTX e j) = v.toNat / 2 % 32 ∧ t.get (SQ_TMR_CTL_PRIO e j) = v.toNat / 64 % 8 ∧
      vget (t.engine e).timers j 0 = s.getTime (SQ_TMR_LO_T_LO e j) (SQ_TMR_HI_T_HI e j) ∧
      Frame s t [.engines] (fun y => y.reg = SQ_TMR_CTL e j)) ∧
  (∀ (s : State) (e : EngineIx) (j : Fin 2), s.on (SQ_TMR_CTL_ARMED e j) → reached s.time (vget (s.engine e).timers j 0) →
    (s.timerPeriod e j = 0 → RunsTo (exec (.timerExpire e j) s) fun t =>
      t.get (SQ_TMR_CTL_ARMED e j) = 0 ∧
      Frame s t [.engines] (fun y => y = SQ_TMR_CTL_ARMED e j ∨ causeField y)) ∧
    (0 < s.timerPeriod e j → s.on (SQ_TMR_CTL_EN e j) = false → RunsTo (exec (.timerExpire e j) s) fun t =>
      vget (t.engine e).timers j 0 = later (vget (s.engine e).timers j 0) (s.timerPeriod e j) ∧
      Frame s t [.engines] (fun _ => False))) ∧
  (∀ (s : State) (e : EngineIx) (v : Word), s.actsNow → s.on (SQ_RT_MSG_EN e) = false →
    ((s.engine e).msgs.length < 16 → RunsTo (exec (.msginPush e v) s) fun t =>
      (t.engine e).msgs = (s.engine e).msgs ++
        [BitVec.ofNat 72 (v.toNat % 256 * 2 ^ 64 + s.get (SQ_MSGIN1_W1 e) * 2 ^ 32 + s.get (SQ_MSGIN0_W0 e))] ∧
      t.get (SQ_MSGSTAT_DEPTH e) = (s.engine e).msgs.length + 1 ∧
      Frame s t [.engines] (· ∈ [SQ_MSGIN2_W2 e, SQ_MSGSTAT_DEPTH e])) ∧
    (16 ≤ (s.engine e).msgs.length → RunsTo (exec (.msginPush e v) s) fun t =>
      t.get (SQ_FLAGS_MSGDROP e) = 1 ∧ t.engines = s.engines ∧
      Frame s t [] (· ∈ [SQ_MSGIN2_W2 e, SQ_FLAGS_MSGDROP e, SQ_CNT0_MSGDROP e])))

/-- R56, R67, R68, R177, R231, R232: at the start of an issued vector the group runs it with the period of its timing
set, or of TS0 where that set is not in use, the next one follows at the end of that period, and the vector count goes
up by 1. An epoch reached releases the contexts that wait for one of its kind. -/
def Obligations.VectorBoundariesAndEpochs : Prop :=
  (∀ (s : State) (g : GroupIx) (i : Issued) (rest : List Issued) (b : Tick), (s.group g).issue = i :: rest →
    i.startAt.getD (s.group g).nextB = b → reached s.time (tclkOf b) → i.xreq = none → i.turnEnd = none → s.cm = none →
    (s.wp g).armed = none → RunsTo (exec (.vectorBoundary g) s) fun t =>
      (t.group g).issue = rest ∧ (t.group g).nextB = b + BitVec.ofNat 66 (s.tsPeriod g i.ts) ∧
      (∃ v, (t.group g).cur = some v ∧ v.b = b ∧ v.period = s.tsPeriod g i.ts ∧ v.word = i.word ∧
        v.ts = s.tsInUse g i.ts ∧ v.ctx = i.ctx ∧ v.forms = (List.range 16).map (s.chanForm g (s.tsInUse g i.ts) i.word)) ∧
      t.vcnt g = (s.vcnt g + 1) % 2 ^ 41 ∧
      (∀ m < 32, m ≠ g.val → t.group m = s.group m) ∧
      Frame s t [.groups] (fun y => y.reg = TG_FLAGS g ∨ y.reg = TG_CNT0 g ∨ y.reg = TG_CNT1 g ∨ y.reg = TD_FLAGS g ∨
        y.reg = TD_CNT1 g ∨ y.reg = FC_VCNT_LO g ∨ y.reg = FC_VCNT_HI g ∨ y.reg = FC_SUM_STAT g)) ∧
  (∀ (s : State) (f e : EngineIx) (c : Fin 32) (x : Wait) (n : Time), s.cm = none → s.snapDue = none →
    (∀ g < 32, (s.wp g).armed = none) → s.isLeader e → s.inMchk e = false →
    (∀ op < 256, (s.dispEntry e op).bad = false) → s.running e = some c.val → s.ctxWait e c = some x → x.kind = .time n →
    x.released = none → x.micro = vendorHold 2 [] → reached n (later x.since 1) → reached s.time n →
    (∀ l < 32, ∀ d < 32, (l, d) ≠ (e.val, c.val) → s.ctxWait l d = none) → RunsTo (exec (.epochReached 1 f) s) fun t =>
      t.ctxPc e c = pcNext (s.ctxPc e c) ∧ t.ctxWait e c = none ∧ t.nextSlot e = tickOf (later n 8) ∧
      Frame s t [.engines] (· ∈ [SQ_CTX_STAT_PC e c, SQ_CTX_RES_RES e c, SQ_STAT_ENG e, SQ_CLAMP_COUNT_COUNT e, SQ_FLAGS_CLAMP e,
        SQ_CLAMP_LAST_PC e]))

/-! ### Chapter 11: microcode -/

/-- R312, R315 to R318, R324: HOSTLOAD resets every engine and opens the store to writes. In HOSTLOAD a window word reaches
the entry of every engine and a dispatch word the entry at IDX, which each access advances; the word read is that of
engine MC_WIN.ENG. FINISH forms the image; the end of its check loads it with SRC = HOST, or leaves NOIMAGE and the
error. VERIFY checks a slot; a reload takes the named slot, or else the other with LOADERR. -/
def Obligations.ControlStoreLoads : Prop :=
  (∀ s : State, s.ready → s.mcState ≠ mcLoading → s.mcState ≠ mcReload → (∀ e < 32, s.get (SQ_GANG_M e) = 0) →
    RunsTo (exec .hostload s) fun t =>
      t.mcState = mcHostload ∧ (∀ e < 32, ∀ c < 32, t.ctxState e c = .idle) ∧
      Frame s t [.engines, .groups, .store, .free, .sys] (fun y => regsIn 0x70000 0x71000 y ∨ regsIn 0x100000 0x300000 y)) ∧
  (∀ (s : State) (off : BitVec 16) (w : Native), s.ready → s.mcState = mcHostload → off.toNat / 16 % 2 = 0 →
    RunsTo (exec (.controlStoreWindowWrite off w) s) fun t =>
      (∀ e < 32, t.csEntry e (off.toNat / 32) =
        CsEntry.make (BitVec.ofNat 144 ((s.csEntry e (off.toNat / 32)).word.toNat / 2 ^ 72 * 2 ^ 72 + w.toNat))) ∧
      (∀ e < 32, ∀ i < 2048, i ≠ off.toNat / 32 → t.csEntry e i = s.csEntry e i) ∧ t.disp = s.disp ∧
      Frame s t [.store] (fun _ => False)) ∧
  (∀ (s : State) (off : BitVec 16) (w : Native), s.ready → s.mcState ≠ mcHostload →
    RunsTo (exec (.controlStoreWindowWrite off w) s) fun t => Frame s t [] (fun _ => False)) ∧
  (∀ (s : State) (v : Word), s.ready → s.mcState = mcHostload → RunsTo (exec (.dispatchDataAccess (some v)) s) fun t =>
      (∀ e < 32, t.dispEntry e (s.get MC_DISP_ADDR_IDX) = DispEntry.make (v.setWidth 16)) ∧
      t.get MC_DISP_ADDR_IDX = (s.get MC_DISP_ADDR_IDX + 1) % 256 ∧ t.cs = s.cs ∧
      Frame s t [.store] (· ∈ [MC_DISP_ADDR_IDX])) ∧
  (∀ s : State, s.ready → RunsTo (exec (.dispatchDataAccess none) s) fun t =>
      Sends s t (.readData ((s.dispEntry (s.get MC_WIN_ENG) (s.get MC_DISP_ADDR_IDX)).word.setWidth 64)) ∧
      t.get MC_DISP_ADDR_IDX = (s.get MC_DISP_ADDR_IDX + 1) % 256 ∧ Frame s t [] (· ∈ [MC_DISP_ADDR_IDX])) ∧
  (∀ s : State, s.ready → s.mcState = mcHostload → RunsTo (exec .finish s) fun t =>
      t.sys.mcImage = some s.hostImage ∧ t.mcState = mcHostload ∧ Frame s t [.sys] (fun _ => False)) ∧
  (∀ (s : State) (l : List Native), s.mcState = mcHostload → s.sys.mcImage = some l →
    RunsTo (exec (.imageCheckComplete .host) s) fun t =>
      t.sys.mcImage = none ∧ t.mem = s.mem ∧ t.time = s.time ∧ t.staged = s.staged ∧
      (imgCheck l = 0 → t.mcState = mcLoaded ∧ t.get MC_STAT_SRC = 3 ∧ t.imgEntries = imgEntriesOf l ∧
        t.imgDisp = imgDispatchOf l ∧ t.cs = [] ∧ t.disp = [] ∧ t.get MC_IMAGE_CRC_CRC = imgCrcField l) ∧
      (imgCheck l ≠ 0 → t.mcState = mcNoImage ∧ t.get MC_STAT_ERR = imgCheck l % 16 ∧
        Frame s t [.sys] (· ∈ [MC_STAT_STATE, MC_STAT_ERR]))) ∧
  (∀ (s : State) (n : Fin 2), s.ready → s.on MC_VSTAT_BUSY = false → RunsTo (exec (.verify n) s) fun t =>
      t.get MC_VSTAT_BUSY = 1 ∧ t.sys.mcVerify = some n ∧ Frame s t [.sys] (· ∈ [MC_VSTAT_BUSY])) ∧
  (∀ (s : State) (n : Fin 2), s.sys.mcVerify = some n → RunsTo (exec (.imageCheckComplete (.slot n)) s) fun t =>
      t.get MC_VSTAT_BUSY = 0 ∧ t.bit MC_VSTAT_VALID n = (imgCheck (s.slotWords n) == 0) ∧
      t.get (MC_SLOT_VER_VER n) = imgVersion (s.slotWords n) ∧ t.get (MC_SLOT_CRC_CRC n) = imgCrcField (s.slotWords n) ∧
      Frame s t [.sys] (· ∈ [MC_VSTAT_BUSY, MC_VSTAT_VALID, MC_SLOT_VER_VER n, MC_SLOT_CRC_CRC n])) ∧
  (∀ (s : State) (n : Fin 2), s.mcState = mcReload → s.get MC_IMGSEL_SLOT = n → RunsTo (exec .reloadComplete s) fun t =>
      (imgCheck (s.slotWords n) = 0 → t.mcState = mcLoaded ∧ t.get MC_STAT_SRC = n ∧
        t.imgEntries = imgEntriesOf (s.slotWords n) ∧ (t.digest ≠ s.digest → t.dg.owed)) ∧
      (imgCheck (s.slotWords n) ≠ 0 → t.get MC_FLAGS_LOADERR = 1 ∧ t.get MC_IMGSEL_SLOT = 1 - n.val ∧
        t.mcState = (if imgCheck (s.slotWords (1 - n.val)) = 0 then mcLoaded else mcNoImage)))

/-- R319 to R322: MC_INJ with ARM inverts one stored parity bit. The fetch of an entry that fails is a machine check of
the engine or gang with cause PARITY, the failing slices and the micro-address, and discards what it had still to issue.
The scrubber, at the TCLK of an entry, copies the first good copy over one that fails, or counts that there is none. -/
def Obligations.ParityAndScrub : Prop :=
  (∀ (s : State) (v : Word), s.ready → v.getLsbD 31 → RunsTo (exec (.parityInject v) s) fun t =>
      let e := v.toNat % 32
      let i := v.toNat / 2 ^ 16 % 2048
      t.csEntry e i = { s.csEntry e i with
        parity := (s.csEntry e i).parity ^^^ BitVec.ofNat 8 (2 ^ (v.toNat / 2 ^ 8 % 8)) } ∧
      (∀ f < 32, ∀ j < 2048, (f, j) ≠ (e, i) → t.csEntry f j = s.csEntry f j) ∧ t.disp = s.disp ∧
      Frame s t [.store] (fun _ => False)) ∧
  (∀ (s : State) (e : EngineIx), s.takeDecision e = s → s.atMicro e → s.get (SQ_GANG_M e) ≤ 5 → s.role = roleNone →
    (s.engine e).upc < 2048 → s.scrubSclk ((s.engine e).upc * 2 ^ 17) = false → (s.csEntry e (s.engine e).upc).badSlices ≠ 0 →
    RunsTo (exec (.controlStoreParityError e .control) s) fun t =>
      (∀ m ∈ s.members e, t.inMchk m ∧ t.get (SQ_STAT_ENG m) = engMchk ∧ (t.group m).issue = []) ∧
      t.get (MC_MCHK_CAUSE e) = mchkParity ∧ t.get (MC_MCHK_SLICES e) = (s.csEntry e (s.engine e).upc).badSlices.toNat ∧
      t.get (MC_MCHK_ENTRY e) = (s.engine e).upc ∧ t.get (MC_MCHK_TRACE e) = (s.engine e).trace % 64 ∧
      t.get MC_FLAGS_PARITY = 1 ∧ t.get MC_CNT0_PARITY = min (s.get MC_CNT0_PARITY + 1) 65535 ∧
      (s.bit SN_CTL_EN 1 → ∃ r ∈ t.sn.reqs, r.1 = s.time + 1 ∧ r.2.1.testBit 4) ∧
      Frame s t [.groups, .sn] (fun y => y.reg = MC_MCHK e ∨ y = MC_MCHKMAP_MAP ∨ y = MC_FLAGS_PARITY ∨ y = MC_CNT0_PARITY ∨
        ∃ m, y = SQ_STAT_ENG m ∨ y = LS_PARKSTAT_PARKED m ∨ y.reg = FC_SUM_STAT m)) ∧
  (∀ (s : State) (e : EngineIx) (i : Fin 2048) (x : CsEntry), s.mcState = mcLoaded →
    s.time.toNat % 2 ^ 28 = i * 2 ^ 17 → (s.csEntry e i).badSlices ≠ 0 → s.goodEntry e i = some x →
    RunsTo (exec (.scrubRead e) s) fun t =>
      t.csEntry e i = x ∧ t.get MC_FLAGS_SCRUBFIX = 1 ∧ t.get MC_CNT2_SCRUBFIX = min (s.get MC_CNT2_SCRUBFIX + 1) 65535 ∧
      (∀ f < 32, ∀ j < 2048, (f, j) ≠ (e.val, i.val) → t.csEntry f j = s.csEntry f j) ∧
      Frame s t [.store] (· ∈ [MC_FLAGS_SCRUBFIX, MC_CNT2_SCRUBFIX])) ∧
  (∀ (s : State) (e : EngineIx) (i : Fin 2048), s.mcState = mcLoaded →
    s.time.toNat % 2 ^ 28 = i * 2 ^ 17 → (s.csEntry e i).badSlices ≠ 0 → s.goodEntry e i = none →
    RunsTo (exec (.scrubRead e) s) fun t =>
      t.get MC_FLAGS_SCRUBERR = 1 ∧ t.get MC_CNT2_SCRUBERR = min (s.get MC_CNT2_SCRUBERR + 1) 65535 ∧
      Frame s t [] (· ∈ [MC_FLAGS_SCRUBERR, MC_CNT2_SCRUBERR])) ∧
  (∀ (s : State) (e : EngineIx) (i : Fin 2048), s.time.toNat % 2 ^ 28 = i * 2 ^ 17 → (s.csEntry e i).badSlices = 0 →
    RunsTo (exec (.scrubRead e) s) fun t => Frame s t [] (fun _ => False))

/-! ### Chapter 12: commits, snapshots and the digest -/

/-- R325, R328 to R331: a COMMIT or CHECK takes the next ID and the state CHECKING, and with a commit in progress or an
image being written is REFUSED with REASON 1. A passed check leaves it PENDING, or CHECKED; a failed one ends REJECTED
with the first code and its place, the staged plane kept. ABORT ends a PENDING commit; DISCARD empties the staged plane,
unless it is locked. When the epoch comes the staged values are live, the staged plane is empty and CM_AT holds its TIME. -/
def Obligations.Commits : Prop :=
  (∀ (s : State) (v : Word) (chk : Bool), s.ready → s.cmBusy = false → s.role ≠ roleShadow → v.getLsbD 27 = false →
    v.toNat / 2 ^ 24 % 8 ≠ 4 → RunsTo (exec (if chk then .checkOp v else .commitOp v) s) fun t =>
      (∃ r, t.cm = some r ∧ r.check = chk ∧ r.phase = cmChecking ∧ r.kind = v.toNat / 2 ^ 24 % 8 ∧
        r.eng = v.toNat / 2 ^ 16 % 32 ∧ r.tgt = s.cmTarget (v.toNat / 2 ^ 24 % 8) ∧ r.origin = .host ∧
        r.id.toNat = (s.get CM_ID_ID + 1) % 65536 ∧ r.own = false ∧ r.abort = false ∧ r.at_ = s.time) ∧
      t.get CM_STATUS_STATE = cmChecking ∧ t.get CM_ID_ID = (s.get CM_ID_ID + 1) % 65536 ∧
      t.get CM_STATUS_CODE = 0 ∧ t.get CM_STATUS_REASON = 0 ∧ t.get CM_CKMAP_LO_MAP = 0 ∧ t.get CM_CKMAP_HI_MAP = 0 ∧
      Frame s t [.cm] (fun y => y.reg = CM_STATUS ∨ y.reg = CM_WHERE ∨ y.reg = CM_CKMAP_LO ∨ y.reg = CM_CKMAP_HI ∨
        y.reg = CM_ID)) ∧
  (∀ (s : State) (v : Word) (chk : Bool), s.ready → s.cmBusy →
    RunsTo (exec (if chk then .checkOp v else .commitOp v) s) fun t =>
      t.get CM_STATUS_STATE = cmRefused ∧ t.get CM_STATUS_REASON = 1 ∧ t.get CM_FLAGS_REFUSED = 1 ∧
      t.get CM_CNT1_REFUSED = min (s.get CM_CNT1_REFUSED + 1) 65535 ∧
      Frame s t [] (· ∈ [CM_STATUS_STATE, CM_STATUS_REASON, CM_FLAGS_REFUSED, CM_CNT1_REFUSED])) ∧
  (∀ (s : State) (r : CmReq), s.cm = some r → r.own = false → r.phase = cmChecking → r.abort = false → r.origin = .host →
    s.role = roleNone → s.ckAll = [] → RunsTo (exec .commitCheckComplete s) fun t =>
      t.dg.staged = some s.stagedPlane ∧
      (r.check → t.cm = none ∧ t.get CM_STATUS_STATE = cmChecked ∧
        Frame s t [.cm, .dg] (· ∈ [CM_STATUS_STATE, CM_STATUS_CODE, CM_STATUS_DEV])) ∧
      (r.check = false → t.cm = some { r with own := true, phase := cmPending, sched := s.time } ∧
        t.get CM_STATUS_STATE = cmPending ∧ (s.epochLate r.kind r.tgt → t.get CM_FLAGS_LATE = 1) ∧
        Frame s t [.cm, .dg] (· ∈ [CM_STATUS_STATE, CM_STATUS_CODE, CM_STATUS_DEV, CM_FLAGS_LATE]))) ∧
  (∀ (s : State) (r : CmReq) (k u w : Nat) (rest : List (Nat × CkFail)), s.cm = some r → r.own = false →
    r.phase = cmChecking → r.abort = false → r.origin = .host → s.role = roleNone → s.ckAll = (k, (u, w)) :: rest →
    RunsTo (exec .commitCheckComplete s) fun t =>
      t.cm = none ∧ t.get CM_STATUS_STATE = cmRejected ∧ t.get CM_STATUS_CODE = k % 64 ∧ t.get CM_WHERE_UNIT = u % 1024 ∧
      t.get CM_WHERE_SUB = w % 64 ∧ t.get CM_FLAGS_REJECTED = 1 ∧
      Frame s t [.cm, .dg] (fun y => y.reg = CM_STATUS ∨ y.reg = CM_WHERE ∨ y.reg = CM_CKMAP_LO ∨ y.reg = CM_CKMAP_HI ∨
        y = CM_FLAGS_REJECTED ∨ y = CM_CNT0_REJECTED)) ∧
  (∀ (s : State) (r : CmReq), s.ready → s.cm = some r → r.phase = cmPending → r.origin = .host → s.commitDue = none →
    s.role = roleNone → RunsTo (exec .abortOp s) fun t =>
      t.cm = none ∧ t.get CM_STATUS_STATE = cmAborted ∧ t.get CM_FLAGS_ABORTED = 1 ∧
      Frame s t [.cm] (· ∈ [CM_STATUS_STATE, CM_STATUS_CODE, CM_STATUS_DEV, CM_FLAGS_ABORTED, CM_CNT1_ABORTED])) ∧
  (∀ s : State, s.ready → s.cm = none → RunsTo (exec .discard s) fun t =>
      t.staged = [] ∧ Frame s t [.staged] (fun _ => False)) ∧
  (∀ s : State, s.cm ≠ none → RunsTo (exec .discard s) fun t => Frame s t [] (fun _ => False)) ∧
  (∀ (s : State) (a : Time), s.commitDue = some a → s.staged.rising → RunsTo (exec .commitApply s) fun t =>
      t.cm = none ∧ t.staged = [] ∧ t.get CM_STATUS_STATE = cmApplied ∧ t.getTime CM_AT_LO_T_LO CM_AT_HI_T_HI = a ∧
      t.get CM_FLAGS_APPLIED = 1 ∧ t.get CM_CNT0_APPLIED = min (s.get CM_CNT0_APPLIED + 1) 65535 ∧
      t.dg.plane = s.dg.staged.getD [] ∧ t.time = s.time ∧
      ∀ g < 32, ∀ n < 32, t.get (TG_TS_PER_PER g n) = s.stagedGet (TG_TS_PER_PER g n)) ∧
  (∀ s : State, s.commitDue = none → RunsTo (exec .commitApply s) fun t => Frame s t [] (fun _ => False))

/-- R334 to R339: PREPARE begins the check on the SHADOW; with its YES and an equal staged digest the ACTIVE member
sends APPLY and both await the epoch; a NO, or no vote within 40 µs, is REJECTED with CK39. A domain PREPARE begins the
check on a member, which votes NO when busy; the root applies once YES votes cover the members, and a NO, or Tv, aborts
with CK40. An APPLY makes a voting device apply at Ta, or at once with LATE after Ta; ABORT ends it; a device left
without either by Ta + GRACE is ORPHANED; one without a commit counts a STRAY. -/
def Obligations.CommitAgreement : Prop :=
  (∀ (s : State) (id : BitVec 16) (chk : Bool) (kind : BitVec 3) (eng : EngineIx) (tgt d : BitVec 64),
    s.role = roleShadow → s.cmBusy = false → RunsTo (exec (.twinPrepareReceive id chk kind eng tgt d) s) fun t =>
      (∃ r, t.cm = some r ∧ r.check = chk ∧ r.phase = cmChecking ∧ r.kind = kind.toNat ∧ r.eng = eng ∧ r.tgt = tgt ∧
        r.origin = .twin ∧ r.id = id ∧ r.partner = some (true, 0, d)) ∧ t.get CM_STATUS_STATE = cmChecking ∧
      t.get CM_ID_ID = id.toNat ∧
      Frame s t [.cm] (fun y => y.reg = CM_STATUS ∨ y.reg = CM_WHERE ∨ y.reg = CM_CKMAP_LO ∨ y.reg = CM_CKMAP_HI ∨
        y.reg = CM_ID)) ∧
  (∀ (s : State) (r : CmReq) (code : BitVec 6), s.role = roleActive → s.tw.attachAt = none → s.cm = some r →
    r.phase = cmChecking → r.own → r.origin = .host → r.check = false →
    (RunsTo (exec (.twinVoteReceive r.id true code s.sdigest) s) fun t =>
      t.cm = some { r with partner := some (true, code.toNat, s.sdigest), phase := cmPending, sched := s.time } ∧
      t.get CM_STATUS_STATE = cmPending ∧ Sends s t (.link 3 (.apply r.id s.time)) ∧
      Frame s t [.cm] (· ∈ [CM_STATUS_STATE, CM_STATUS_CODE, CM_STATUS_DEV, CM_FLAGS_LATE])) ∧
    (RunsTo (exec (.twinVoteReceive r.id false code s.sdigest) s) fun t =>
      t.cm = none ∧ t.get CM_STATUS_STATE = cmRejected ∧ t.get CM_STATUS_CODE = 39 ∧ Sends s t (.link 3 (.abort r.id))) ∧
    (r.partner = none → reached s.time (later r.at_ 64000) → RunsTo (exec .twinVoteTimeout s) fun t =>
      t.cm = none ∧ t.get CM_STATUS_STATE = cmRejected ∧ t.get CM_STATUS_CODE = 39 ∧ t.get CM_FLAGS_REJECTED = 1 ∧
      Sends s t (.link 3 (.abort r.id)) ∧
      Frame s t [.cm] (fun y => y.reg = CM_STATUS ∨ y.reg = CM_WHERE ∨ y.reg = CM_CKMAP_LO ∨ y.reg = CM_CKMAP_HI ∨
        y = CM_FLAGS_REJECTED ∨ y = CM_CNT0_REJECTED))) ∧
  (∀ (s : State) (r : CmReq) (t0 : Time), s.cm = some r → r.origin = .twin → r.phase = cmVoting →
    (RunsTo (exec (.twinApplyReceive r.id true t0) s) fun t =>
      t.cm = some { r with phase := cmPending, sched := t0 } ∧ t.get CM_STATUS_STATE = cmPending ∧
      Frame s t [.cm] (· ∈ [CM_STATUS_STATE, CM_STATUS_CODE, CM_STATUS_DEV, CM_FLAGS_LATE])) ∧
    (RunsTo (exec (.twinApplyReceive r.id false t0) s) fun t =>
      t.cm = none ∧ t.get CM_STATUS_STATE = cmAborted ∧ t.get CM_FLAGS_ABORTED = 1)) ∧
  (∀ (s : State) (id : BitVec 16) (ta tv : Time), s.isMember → s.isRoot = false → s.cmBusy = false →
    RunsTo (exec (.domainPrepareReceive id ta tv) s) fun t =>
      (∃ r, t.cm = some r ∧ r.check = false ∧ r.phase = cmChecking ∧ r.origin = .domain ∧ r.id = id ∧ r.ta = ta ∧
        r.tv = tv) ∧ t.ballot = some { id := id, tv := tv, members := 0, own := none, votes := [] } ∧
      t.get CM_STATUS_STATE = cmChecking ∧
      Frame s t [.cm, .ballot] (fun y => y.reg = CM_STATUS ∨ y.reg = CM_WHERE ∨ y.reg = CM_CKMAP_LO ∨
        y.reg = CM_CKMAP_HI ∨ y.reg = CM_ID)) ∧
  (∀ (s : State) (id : BitVec 16) (ta tv : Time), s.isMember → s.isRoot = false → s.cmBusy → s.downPorts = 0 →
    (s.port 0).queue = [] → RunsTo (exec (.domainPrepareReceive id ta tv) s) fun t =>
      t.ballot = none ∧ t.cm = s.cm ∧
      (t.port 0).queue = [Packet.make 4 0 s.devNum 0 (id.toNat + s.devNum * 2 ^ 17 + 63 * 2 ^ 27) [1]] ∧
      t.cl.votedNo = some id ∧ Frame s t [.ballot, .cl] (fun _ => False)) ∧
  (∀ (s : State) (id : BitVec 16) (dev : BitVec 10) (code : BitVec 6), s.cm = none → s.cl.votedNo = some id →
    RunsTo (exec (.domainAbortReceive id dev code) s) fun t => Frame s t [] (fun _ => False)) ∧
  (∀ (s : State) (b : Ballot) (r : CmReq) (dev : BitVec 10) (code : BitVec 6) (n : Nat), s.isRoot → s.ballot = some b →
    s.cm = some r → r.origin = .domain → r.id = b.id → b.own = some (true, 0) → b.votes = [] → (s.port 1).queue = [] →
    (b.members = n + 1 → RunsTo (exec (.domainVoteReceive b.id true dev code n) s) fun t =>
      t.ballot = none ∧ t.cm = some { r with go := true } ∧ (t.port 1).queue = [Packet.make 3 0 0 2 b.id.toNat []] ∧
      Frame s t [.ballot, .cm, .cl] (fun y => y = CL_FLAGS_FWDDROP ∨ ∃ x, y = CL_P_DROP_DROP x)) ∧
    (RunsTo (exec (.domainVoteReceive b.id false dev code n) s) fun t =>
      t.ballot = none ∧ t.cm = none ∧ t.get CM_STATUS_STATE = cmAborted ∧ t.get CM_STATUS_CODE = 40 ∧
      t.get CM_STATUS_DEV = dev.toNat ∧ t.get CM_WHERE_SUB = code.toNat ∧ t.get CM_FLAGS_ABORTED = 1) ∧
    (b.members ≠ 1 → reached s.time b.tv → RunsTo (exec .voteWindowExpire s) fun t =>
      t.ballot = none ∧ t.cm = none ∧ t.get CM_STATUS_STATE = cmAborted ∧ t.get CM_STATUS_CODE = 40 ∧
      t.get CM_WHERE_SUB = 0 ∧
      Frame s t [.ballot, .cm, .cl, .free] (fun y => y = CL_FLAGS_FWDDROP ∨ (∃ x, y = CL_P_DROP_DROP x) ∨
        y.reg = CM_STATUS ∨ y.reg = CM_WHERE ∨ y.reg = CM_CKMAP_LO ∨ y.reg = CM_CKMAP_HI ∨ y = CM_FLAGS_ABORTED ∨
        y = CM_CNT1_ABORTED))) ∧
  (∀ (s : State) (r : CmReq), s.cm = some r → r.origin = .domain → r.phase = cmVoting →
    (reached s.time r.ta = false ∨ s.time = r.ta → RunsTo (exec (.domainApplyReceive r.id) s) fun t =>
      t.cm = some { r with go := true } ∧ Frame s t [.cm] (fun _ => False)) ∧
    (reached s.time r.ta → s.time ≠ r.ta → RunsTo (exec (.domainApplyReceive r.id) s) fun t =>
      t.cm = none ∧ t.staged = [] ∧ t.get CM_STATUS_STATE = cmApplied ∧ t.get CM_FLAGS_LATE = 1 ∧
      t.getTime CM_AT_LO_T_LO CM_AT_HI_T_HI = s.time) ∧
    (∀ (dev : BitVec 10) (code : BitVec 6), RunsTo (exec (.domainAbortReceive r.id dev code) s) fun t =>
      t.cm = none ∧ t.get CM_STATUS_STATE = cmAborted ∧ t.get CM_STATUS_CODE = 40 ∧ t.get CM_STATUS_DEV = dev.toNat ∧
      t.get CM_WHERE_SUB = code.toNat ∧ t.staged = s.staged) ∧
    (r.go = false → reached s.time (later r.ta (1600 * s.get CM_DOM_GRACE)) → RunsTo (exec .commitOrphan s) fun t =>
      t.cm = none ∧ t.get CM_STATUS_STATE = cmOrphaned ∧ t.get CM_FLAGS_ORPHAN = 1 ∧
      Frame s t [.cm] (· ∈ [CM_STATUS_STATE, CM_STATUS_CODE, CM_STATUS_DEV, CM_FLAGS_ORPHAN, CM_CNT2_ORPHAN]))) ∧
  (∀ (s : State) (id : BitVec 16), s.cm = none → RunsTo (exec (.domainApplyReceive id) s) fun t =>
      t.get CM_FLAGS_STRAY = 1 ∧ t.get CM_CNT3_STRAY = min (s.get CM_CNT3_STRAY + 1) 65535 ∧
      Frame s t [] (· ∈ [CM_FLAGS_STRAY, CM_CNT3_STRAY]))

/-- R340, R341, R343, R349: a request of the host latches in the next TCLK, one by SCHED or the domain in the TCLK that
TIME reaches its target, the root broadcasting the latter, and one that has passed on arrival is late, which
EPOCH_LATE counts whether or not EN lets it latch. A latch fills the bank
NEXT with TIME, its sources, the next SEQ, the STEP in force at the trigger (R54) and the registers as they read; with MODE = STOP and every bank FULL it is
REFUSED. SN_REL frees banks; a read of SN_RDATA returns the item and ITEM advances. -/
def Obligations.Snapshots : Prop :=
  (∀ s : State, s.ready → s.sn.reqs = [] → RunsTo (exec .snapshotHost s) fun t =>
      t.sn.reqs = [(s.time + 1, 1, false)] ∧ Frame s t [.sn] (fun _ => False)) ∧
  (∀ s : State, s.ready → s.sn.reqs = [] → reached s.time (s.getTime SN_TT_LO_T_LO SN_TT_HI_T_HI) = false →
    RunsTo (exec .snapshotSched s) fun t =>
      t.sn.reqs = [(s.getTime SN_TT_LO_T_LO SN_TT_HI_T_HI, 256, false)] ∧ t.get SN_STAT_ARMED = 1 ∧
      Frame s t [.sn] (· ∈ [SN_STAT_ARMED])) ∧
  (∀ s : State, s.ready → s.isRoot → s.bit SN_CTL_EN 3 → s.sn.reqs = [] → (s.port 1).queue = [] →
    reached s.time (s.getTime SN_TT_LO_T_LO SN_TT_HI_T_HI) = false → RunsTo (exec .snapshotDomsched s) fun t =>
      t.sn.reqs = [(s.getTime SN_TT_LO_T_LO SN_TT_HI_T_HI, 128, false)] ∧
      (t.port 1).queue = [Packet.make 3 0 0 4 0 [(s.getTime SN_TT_LO_T_LO SN_TT_HI_T_HI).setWidth 72]] ∧
      Frame s t [.sn, .cl] (fun y => y = CL_FLAGS_FWDDROP ∨ ∃ x, y = CL_P_DROP_DROP x)) ∧
  (∀ (s : State) (a : Time), s.isMember → s.isRoot = false → s.bit SN_CTL_EN 3 → s.sn.reqs = [] →
    (reached s.time a = false ∨ s.time = a → RunsTo (exec (.domainSnapReceive a) s) fun t =>
      t.sn.reqs = [(a, 128, false)] ∧ Frame s t [.sn] (fun _ => False)) ∧
    (reached s.time a → s.time ≠ a → RunsTo (exec (.domainSnapReceive a) s) fun t =>
      t.sn.reqs = [(s.time + 1, 128, true)] ∧ t.get TP_FLAGS_EPOCH_LATE = 1 ∧
      Frame s t [.sn] (· ∈ [TP_FLAGS_EPOCH_LATE, TP_CNT2_EPOCH_LATE]))) ∧
  (∀ (s : State) (a : Time), s.isMember → s.isRoot = false → s.bit SN_CTL_EN 3 = false → reached s.time a → s.time ≠ a →
    RunsTo (exec (.domainSnapReceive a) s) fun t =>
      t.sn = s.sn ∧ t.get TP_FLAGS_EPOCH_LATE = 1 ∧ Frame s t [] (· ∈ [TP_FLAGS_EPOCH_LATE, TP_CNT2_EPOCH_LATE])) ∧
  (∀ (s : State) (a : Time) (src : Nat), s.sn.reqs = [(a, src, false)] → reached s.time a → s.on SN_CTL_MODE = false →
    src.testBit 8 = false → RunsTo (exec .snapshotLatch s) fun t =>
      (∃ b, vget t.sn.banks (s.get SN_STAT_NEXT) none = some b ∧ b.time = a ∧ b.src = src ∧ b.late = false ∧
        b.seq = (s.get SN_STAT_SEQ + 1) % 65536 ∧ b.plane = s.dg.plane ∧
        b.regs.get TP_STEP_STEP = s.stepAt (if src % 128 = 0 then a else a - 1) % 65536 ∧
        ∀ r : Reg, r.addr ∉ [TP_PH_ANGLE.addr, TP_PH_CYCLE.addr, TP_PH_VEL.addr, TP_STEP.addr] →
          b.regs.word r = s.word r) ∧
      t.sn.reqs = [] ∧ t.bit SN_STAT_FULL (s.get SN_STAT_NEXT) ∧ t.get SN_STAT_NEXT = (s.get SN_STAT_NEXT + 1) % 4 ∧
      t.get SN_STAT_SEQ = (s.get SN_STAT_SEQ + 1) % 65536 ∧ Frame s t [.sn] (fun y => y.reg = SN_STAT)) ∧
  (∀ (s : State) (r : Time × Nat × Bool), s.sn.reqs = [r] → reached s.time r.1 → s.on SN_CTL_MODE →
    s.get SN_STAT_FULL = 15 → RunsTo (exec .snapshotLatch s) fun t =>
      t.sn.banks = s.sn.banks ∧ t.sn.reqs = [] ∧ t.get SN_FLAGS_REFUSED = 1 ∧
      t.get SN_CNT_REFUSED = min (s.get SN_CNT_REFUSED + 1) 65535 ∧
      Frame s t [.sn] (· ∈ [SN_STAT_ARMED, SN_FLAGS_REFUSED, SN_CNT_REFUSED])) ∧
  (∀ (s : State) (v : Word), s.ready → RunsTo (exec (.bankRelease v) s) fun t =>
      (∀ b < 4, t.bit SN_STAT_FULL b = (s.bit SN_STAT_FULL b && !v.getLsbD b)) ∧ Frame s t [] (· ∈ [SN_STAT_FULL])) ∧
  (∀ (s : State) (b : Snap), s.ready → vget s.sn.banks (s.get SN_RADDR_BANK) none = some b →
    RunsTo (exec .snapshotItemRead s) fun t =>
      Sends s t (.readData ((b.item (s.get SN_RADDR_ITEM)).setWidth 64)) ∧
      t.get SN_RADDR_ITEM = (s.get SN_RADDR_ITEM + 1) % 65536 ∧ Frame s t [] (· ∈ [SN_RADDR_ITEM]))

/-- R344 to R347: SCALC takes the digest of the staged plane when no commit runs; a STALE digest becomes that of the live
plane, compared with the reference of the class when CMPEN and valid, and after a change a report is owed, which a member sends to the
root. The root keeps each device's latest report and counts the mismatches; LEARN takes the lowest device's digest as the
reference of its class; a member stores the reference it receives. -/
def Obligations.Digests : Prop :=
  (∀ s : State, s.ready → s.cm = none → RunsTo (exec .scalc s) fun t =>
      t.dg = { s.dg with staged := some s.stagedPlane } ∧ Frame s t [.dg] (fun _ => False)) ∧
  (∀ s : State, s.on DG_STAT_STALE → RunsTo (exec .digestRecompute s) fun t =>
      t.get DG_STAT_STALE = 0 ∧ (s.live.digest ≠ s.digest → t.dg.owed) ∧ t.dg.plane = s.live ∧
      (t.on DG_STAT_DIGEST_MISMATCH = (s.on DG_CTL_CMPEN && s.crefValid (s.get DG_CLASS_CLASS) &&
        t.digest != s.creference (s.get DG_CLASS_CLASS))) ∧
      (s.on DG_STAT_DIGEST_MISMATCH = false → t.on DG_STAT_DIGEST_MISMATCH → t.get DG_FLAGS_DIGEST_MISMATCH = 1) ∧
      Frame s t [.dg] (fun y => y.reg = DG_STAT ∨ y = DG_FLAGS_DIGEST_MISMATCH ∨ y = DG_CNT_MISMATCH)) ∧
  (∀ s : State, s.isMember → s.isRoot = false → s.dg.owed → (s.port 0).queue = [] → RunsTo (exec .digestReport s) fun t =>
      t.dg.owed = false ∧ t.dg.reportAt = s.time ∧
      (t.port 0).queue = [Packet.make 4 0 s.devNum 1
        (s.get DG_CLASS_CLASS + if s.on DG_STAT_DIGEST_MISMATCH then 256 else 0) [s.digest.setWidth 72]] ∧
      Frame s t [.dg, .cl] (fun _ => False)) ∧
  (∀ (s : State) (dev : BitVec 10) (cls : BitVec 8) (d : BitVec 64), s.isRoot → s.dg.reports = [] →
    s.get DG_DOMSTAT_NMIS = 0 → RunsTo (exec (.digestReportReceive dev cls d true) s) fun t =>
      t.dg.reports = [(dev.toNat, cls.toNat, d, true)] ∧ t.get DG_DOMSTAT_NMIS = 1 ∧
      t.get DG_DOMSTAT_FIRSTDEV = dev.toNat ∧ t.get DG_FLAGS_DOM_MISMATCH = 1 ∧
      Frame s t [.dg] (· ∈ [DG_DOMSTAT_NMIS, DG_DOMSTAT_FIRSTDEV, DG_FLAGS_DOM_MISMATCH, DG_CNT_DOMMIS])) ∧
  (∀ (s : State) (dev cls : Nat) (d : BitVec 64) (mis : Bool), s.ready → s.isRoot → cls < 256 →
    s.dg.reports = [(dev, cls, d, mis)] → RunsTo (exec .learn s) fun t =>
      t.creference cls = d ∧ t.crefValid cls ∧ t.dg = s.dg ∧
      Frame s t [.cl] (fun y => y.reg = DG_CREF_LO cls ∨ y.reg = DG_CREF_HI cls ∨ y.reg = DG_CVALID (cls / 32) ∨
        y.reg = DG_STAT ∨ y = DG_FLAGS_DIGEST_MISMATCH ∨ y = DG_CNT_MISMATCH ∨ y = CL_FLAGS_FWDDROP ∨
        ∃ x, y = CL_P_DROP_DROP x)) ∧
  (∀ (s : State) (cls : BitVec 8) (valid : Bool) (d : BitVec 64), s.isMember → s.isRoot = false →
    RunsTo (exec (.crefReceive cls valid d) s) fun t =>
      t.creference cls.toNat = d ∧ t.crefValid cls.toNat = valid ∧
      Frame s t [] (fun y => y.reg = DG_CREF_LO cls.toNat ∨ y.reg = DG_CREF_HI cls.toNat ∨
        y = DG_CVALID_VALID (cls.toNat / 32) ∨ y.reg = DG_STAT ∨ y = DG_FLAGS_DIGEST_MISMATCH ∨ y = DG_CNT_MISMATCH)) ∧
  (∀ (s : State) (cls : BitVec 8) (valid : Bool) (d : BitVec 64), s.isMember = false →
    RunsTo (exec (.crefReceive cls valid d) s) fun t => Frame s t [] (fun _ => False))

/-! ### Chapter 13: Cleif and twin pairs -/

/-- R352 to R355, R357: an enabled port that sees signal trains, and comes UP once lanes have locked; an attempt of 1 ms
ends DOWN, and one that retrained then starts again from SEQ 0 with its retry buffer discarded. A packet that waits alone
leaves in a DATA block with the next SEQ, kept until an ACK covers it, and an idle port sends EMPTY. A block that fails its
CRC, or comes early, asks for a re-send; 2 µs without an acknowledgement re-send too, and the sixteenth failure in a row of
that kind retrains. -/
def Obligations.LinkPorts : Prop :=
  (∀ (s : State) (x : Fin 4) (nbr : BitVec 10), s.mayTrain x → s.portState x = portDown →
    RunsTo (exec (.portTrain x 0 nbr) s) fun t =>
      t.portState x = portTraining ∧ (t.port x).tryAt = s.time ∧ t.get (CL_P_STAT_LOCK x) = 0 ∧
      Frame s t [.cl] (fun y => y.reg = CL_P_STAT x)) ∧
  (∀ (s : State) (x : Fin 4) (lock : BitVec 4) (nbr : BitVec 10), s.mayTrain x → s.portState x = portTraining →
    (x = 0 → s.on CL_DOM_CTL_JOIN = false ∧ s.taState ≠ taHoldover) → widthOf x lock ≠ 0 → (s.port x).keep = false → RunsTo (exec (.portTrain x lock nbr) s) fun t =>
      t.portState x = portUpState ∧ t.get (CL_P_STAT_WIDTH x) = widthOf x lock ∧ t.get (CL_P_STAT_NBR x) = nbr.toNat ∧
      t.get (CL_P_STAT_LOCK x) = lock.toNat % 2 ^ lanesOf x ∧ Frame s t [.cl] (fun y => y.reg = CL_P_STAT x)) ∧
  (∀ (s : State) (x : Fin 4), s.portState x = portTraining → reached s.time (later (s.port x).tryAt 1600000) →
    RunsTo (exec (.portTrainTimeout x) s) fun t =>
      t.portState x = portDown ∧ t.get (CL_P_STAT_LOCK x) = 0 ∧ (t.port x).tryAt = s.time ∧
      Frame s t [.cl] (fun y => y.reg = CL_P_STAT x)) ∧
  (∀ (s : State) (x : Fin 4), s.portState x = portRetrain → reached s.time (later (s.port x).tryAt 1600000) →
    RunsTo (exec (.retrainTimeout x) s) fun t =>
      t.portState x = portDown ∧ (t.port x).seq = 0 ∧ (t.port x).expect = 0 ∧ (t.port x).retry = [] ∧
      (t.port x).queue = (s.port x).queue ∧
      t.get (CL_P_TRAIN_DOWN x) = min (s.get (CL_P_TRAIN_DOWN x) + 1) 65535 ∧
      (x = 3 → Frame s t [.cl, .tw, .sys] (fun y => y.reg = CL_P_STAT 3 ∨ y = CL_P_TRAIN_DOWN 3 ∨ y = CL_P_DROP_DROP 3))) ∧
  (∀ (s : State) (x : Fin 4) (p : Packet), s.portUp x → (s.port x).resend = none → (s.port x).queue = [p] → p.flits ≤ 8 →
    (s.port x).retry.length < 64 → RunsTo (exec (.blockSend x) s) fun t =>
      Sends s t (.block x (blockOf (flitWord [p]) (s.port x).seq 0 (s.port x).ack (s.port x).nak)) ∧
      t.port x = { s.port x with queue := [], seq := nextSeq (s.port x).seq, retry := (t.port x).retry } ∧
      (t.port x).retry = (s.port x).retry ++ [((s.port x).seq, flitWord [p], s.time)] ∧ Frame s t [.cl] (fun _ => False)) ∧
  (∀ (s : State) (x : Fin 4), s.portUp x → (s.port x).resend = none → (s.port x).queue = [] →
    RunsTo (exec (.blockSend x) s) fun t =>
      Sends s t (.block x (blockOf 0 (s.port x).seq 1 (s.port x).ack (s.port x).nak)) ∧ t.port x = s.port x ∧
      Frame s t [.cl] (fun _ => False)) ∧
  (∀ (s : State) (x : Fin 4) (b : BitVec 640), s.portUp x →
    (blockGood b = false → (s.port x).fails < 15 → RunsTo (exec (.blockReceive x b) s) fun t =>
      t.port x = { s.port x with nak := true, fails := (s.port x).fails + 1 } ∧
      t.get (CL_P_ERR_CRCERR x) = min (s.get (CL_P_ERR_CRCERR x) + 1) 65535 ∧
      Frame s t [.cl] (· ∈ [CL_P_ERR_CRCERR x])) ∧
    (blockGood b → (s.port x).retry = [] → (s.port x).resend = none → blockBits b 591 590 = 0 →
      blockBits b 589 576 = (s.port x).expect → blockPackets (BitVec.ofNat 576 b.toNat) = [] →
      RunsTo (exec (.blockReceive x b) s) fun t =>
        t.port x = { s.port x with expect := nextSeq (s.port x).expect, nak := false, fails := 0 } ∧
        Frame s t [.cl] (fun _ => False)) ∧
    (blockGood b → (s.port x).retry = [] → (s.port x).resend = none → blockBits b 591 590 = 0 →
      0 < (blockBits b 589 576 + 16384 - (s.port x).expect) % 16384 →
      (blockBits b 589 576 + 16384 - (s.port x).expect) % 16384 < 8192 → RunsTo (exec (.blockReceive x b) s) fun t =>
        t.port x = { s.port x with nak := true, fails := 0 } ∧ Frame s t [.cl] (fun _ => False)) ∧
    (blockGood b → (s.port x).resend = none → blockBits b 591 590 = 1 → blockBits b 606 606 = 0 →
      RunsTo (exec (.blockReceive x b) s) fun t =>
        (t.port x).retry = (s.port x).retry.filter (fun r => 8192 ≤ (blockBits b 605 592 + 16384 - r.1) % 16384) ∧
        (t.port x).fails = 0 ∧ Frame s t [.cl] (fun _ => False))) ∧
  (∀ (s : State) (x : Fin 4) (r : Nat × BitVec 576 × Time) (rest : List (Nat × BitVec 576 × Time)), s.portUp x →
    (s.port x).retry = r :: rest → reached s.time (later r.2.2 3200) →
    ((s.port x).fails < 15 → RunsTo (exec (.resendTimeout x) s) fun t =>
      (t.port x).resend = some r.1 ∧ (t.port x).fails = (s.port x).fails + 1 ∧
      (t.port x).retry = (r.1, r.2.1, s.time) :: rest ∧
      t.get (CL_P_ERR_RESEND x) = min (s.get (CL_P_ERR_RESEND x) + 1) 65535 ∧ Frame s t [.cl] (· ∈ [CL_P_ERR_RESEND x])) ∧
    ((s.port x).fails = 15 → RunsTo (exec (.resendTimeout x) s) fun t =>
      t.portState x = portRetrain ∧ (t.port x).seq = (s.port x).seq ∧ (t.port x).keep ∧
      t.get (CL_P_TRAIN_RETRAIN x) = min (s.get (CL_P_TRAIN_RETRAIN x) + 1) 65535))

/-- R359, R361 to R364, R371: an ALIGNED device asks to JOIN over port A; the root answers, adds the member with its
route, or refuses a number twice. The reply makes it MEMBER or REFUSED, and REJOIN tries again. A member whose port A
stays down for LEAVE µs, or that receives LEAVE, is LEFT and broadcasts LEAVE; a PRUNE takes a device off the root's
list with MEMLOST. DRESET on the root resets every engine and goes down the tree; members do the same. -/
def Obligations.DomainMembership : Prop :=
  (∀ (s : State) (depth : BitVec 4), s.on CL_DOM_CTL_JOIN → s.domState = domAligning → s.taState = taAligned → s.portUp 0 →
    (s.port 0).queue = [] → RunsTo (exec (.joinOp depth) s) fun t =>
      t.domState = domJoining ∧ t.get CL_DOM_STAT_DEPTH = depth.toNat ∧
      (t.port 0).queue = [Packet.make 4 0 s.devNum 3 depth.toNat []] ∧
      Frame s t [.cl] (· ∈ [CL_DOM_STAT_STATE, CL_DOM_STAT_DEPTH])) ∧
  (∀ (s : State) (dev : BitVec 10) (depth : BitVec 4) (x : Fin 4), s.isRoot → x = 1 ∨ x = 2 → (s.port x).queue = [] →
    (s.memberBit dev.toNat = false → s.get CL_DOM_STAT_NMEM < 1024 → depth.toNat ≤ 10 →
      RunsTo (exec (.joinReceive dev depth x) s) fun t =>
        t.memberBit dev.toNat ∧ t.get CL_DOM_STAT_NMEM = s.get CL_DOM_STAT_NMEM + 1 ∧ (dev.toNat, x.val) ∈ t.cl.routes ∧
        (t.port x).queue = [Packet.make 6 dev.toNat 0 0 0 []] ∧
        Frame s t [.cl] (· ∈ [CL_MEM_MEM (dev.toNat / 32), CL_DOM_STAT_NMEM])) ∧
    (s.memberBit dev.toNat → RunsTo (exec (.joinReceive dev depth x) s) fun t =>
        t.get CL_FLAGS_DUPNUM = 1 ∧ t.memberBit dev.toNat ∧
        (t.port x).queue = [Packet.make 6 dev.toNat 0 1 1 []] ∧
        Frame s t [.cl] (· ∈ [CL_FLAGS_DUPNUM, CL_CNT1_DUPNUM]))) ∧
  (∀ (s : State) (reason : BitVec 4), s.domState = domJoining → (∀ b < 8, s.on (SQ_BAR_CTL_DOM 0 b) = false) →
    (RunsTo (exec (.joinReplyReceive true reason) s) fun t =>
      t.domState = domMember ∧ t.get CL_DEVNUM_MEMBER = 1 ∧ t.dg.owed ∧
      Frame s t [.dg] (· ∈ [CL_DOM_STAT_STATE, CL_DEVNUM_MEMBER])) ∧
    (RunsTo (exec (.joinReplyReceive false reason) s) fun t =>
      t.domState = domRefused ∧ t.get CL_FLAGS_JOINREF = 1 ∧
      t.get CL_CNT0_JOINREF = min (s.get CL_CNT0_JOINREF + 1) 65535 ∧
      Frame s t [] (· ∈ [CL_DOM_STAT_STATE, CL_FLAGS_JOINREF, CL_CNT0_JOINREF]))) ∧
  (∀ s : State, s.ready → s.domState = domRefused → s.on CL_DOM_CTL_JOIN → s.isRoot = false → s.portUp 0 →
    RunsTo (exec .rejoin s) fun t => t.domState = domAligning ∧ Frame s t [] (· ∈ [CL_DOM_STAT_STATE])) ∧
  (∀ s : State, s.isMember → s.isRoot = false → (s.port 1).queue = [] →
    (s.portUp 0 = false → 1600 * s.get CL_DOM_CTL_LEAVE ≤ s.since (s.port 0).downAt →
      RunsTo (exec .leaveTimeout s) fun t =>
        t.domState = domLeft ∧ t.isMember = false ∧ t.taState = taHoldover ∧ t.get CL_FLAGS_LEFT = 1 ∧
        (t.port 1).queue = [Packet.make 3 0 s.devNum 9 0 []]) ∧
    (RunsTo (exec .leaveReceive s) fun t =>
        t.domState = domLeft ∧ t.isMember = false ∧ t.taState = taHoldover ∧ t.get CL_FLAGS_LEFT = 1 ∧
        (t.port 1).queue = [Packet.make 3 0 s.devNum 9 0 []] ∧
        Frame s t [.cl] (fun y => y ∈ [CL_DOM_STAT_STATE, CL_DEVNUM_MEMBER, CL_FLAGS_LEFT, CL_CNT0_LEFT, CL_TA_STAT_STATE,
          CL_FLAGS_FWDDROP] ∨ ∃ x, y = CL_P_DROP_DROP x))) ∧
  (∀ (s : State) (dev : BitVec 10), s.isRoot → s.memberBit dev.toNat → 0 < s.get CL_DOM_STAT_NMEM →
    RunsTo (exec (.pruneReceive dev) s) fun t =>
      t.memberBit dev.toNat = false ∧ t.get CL_DOM_STAT_NMEM = s.get CL_DOM_STAT_NMEM - 1 ∧ t.get CL_FLAGS_MEMLOST = 1 ∧
      Frame s t [] (· ∈ [CL_MEM_MEM (dev.toNat / 32), CL_DOM_STAT_NMEM, CL_FLAGS_MEMLOST, CL_CNT1_MEMLOST])) ∧
  (∀ s : State, (∀ e < 32, s.get (SQ_GANG_M e) = 0) →
    (s.ready → s.isRoot → (s.port 1).queue = [] → RunsTo (exec .dreset s) fun t =>
      (∀ e < 32, ∀ c < 32, t.ctxState e c = .idle) ∧ (t.port 1).queue = [Packet.make 3 0 0 8 0 []]) ∧
    (s.isMember → s.isRoot = false → RunsTo (exec .dresetReceive s) fun t =>
      (∀ e < 32, ∀ c < 32, t.ctxState e c = .idle) ∧
      Frame s t [.engines, .groups, .store, .free] (fun y => regsIn 0x70000 0x71000 y ∨ regsIn 0x100000 0x300000 y)))

/-- R247, R251, R358, R366 to R369, R371: a remote access leaves with a new TAG and is BUSY until its response, which
stores the data, or until TMO µs; the target answers a read with the register's value. A message enters the engine's
queue. The root releases a domain barrier LEAD µs after COUNT covers the members; a member releases at the TIME it
receives, at once when late, and in the TCLK of that TIME it is not late (log entry 139). TS1, TS2 and TS3 carry the stamps of one exchange; a first mean steps TIME by the offset
in whole TCLK, once, with TSTEP. -/
def Obligations.DomainTraffic : Prop :=
  (∀ (s : State) (v : Word) (x : Fin 4), s.ready → v.getLsbD 31 → v.getLsbD 30 = false → v.toNat % 65536 ≠ 0 →
    s.get CL_RRA_STAT_STATE ≠ rraBusy → s.isMember → v.toNat / 2 ^ 16 % 1024 ≠ s.devNum →
    s.routeTo (v.toNat / 2 ^ 16 % 1024) = some x.val → (s.port x).queue = [] → RunsTo (exec (.rraGo v) s) fun t =>
      t.get CL_RRA_STAT_STATE = rraBusy ∧ t.cl.rraTag = (s.cl.rraTag + 1) % 128 ∧ t.cl.rraAt = s.time ∧
      t.get CL_RRA_CMD_TMO = v.toNat % 65536 ∧
      (t.port x).queue = [Packet.make 1 (v.toNat / 2 ^ 16 % 1024) s.devNum 0
        ((s.cl.rraTag + 1) % 128 * 2 ^ 32 + s.get CL_RRA_ADDR_ADDR) []] ∧
      Frame s t [.cl] (fun y => y.reg = CL_RRA_CMD ∨ y = CL_RRA_STAT_STATE)) ∧
  (∀ (s : State) (dev : BitVec 10) (tag : BitVec 7) (x : Fin 4), s.ready → s.routeTo dev.toNat = some x.val →
    (s.port x).queue = [] → RunsTo (exec (.rraRequestReceive dev false tag 0x070004 0) s) fun t =>
      (t.port x).queue = [Packet.make 2 dev.toNat s.devNum 0 (tag.toNat * 2 ^ 32 + s.get MC_IMAGE_CRC_CRC) []] ∧
      Frame s t [.cl, .hi] (fun _ => False)) ∧
  (∀ (s : State) (v : Word), s.get CL_RRA_STAT_STATE = rraBusy → s.cl.rraTag < 128 → s.on CL_RRA_CMD_WRITE = false →
    RunsTo (exec (.rraResponse (BitVec.ofNat 7 s.cl.rraTag) v) s) fun t =>
      t.get CL_RRA_STAT_STATE = rraDone ∧ t.get CL_RRA_DATA_DATA = v.toNat ∧
      Frame s t [] (· ∈ [CL_RRA_STAT_STATE, CL_RRA_DATA_DATA])) ∧
  (∀ s : State, s.get CL_RRA_STAT_STATE = rraBusy → 1600 * s.get CL_RRA_CMD_TMO ≤ s.since s.cl.rraAt →
    RunsTo (exec .rraTimeout s) fun t =>
      t.get CL_RRA_STAT_STATE = rraTimeout ∧ t.get CL_FLAGS_RRA_TMO = 1 ∧
      Frame s t [] (· ∈ [CL_RRA_STAT_STATE, CL_FLAGS_RRA_TMO, CL_CNT2_RRA_TMO])) ∧
  (∀ (s : State) (e : EngineIx) (w : Native), (s.engine e).msgs.length < 16 → s.on (SQ_RT_MSG_EN e) = false →
    RunsTo (exec (.msgPacketReceive e w) s) fun t =>
      (t.engine e).msgs = (s.engine e).msgs ++ [w] ∧ t.get (SQ_MSGSTAT_DEPTH e) = (s.engine e).msgs.length + 1 ∧
      Frame s t [.engines] (· ∈ [SQ_MSGSTAT_DEPTH e])) ∧
  (∀ (s : State) (b : Fin 8) (a : Time), s.isMember → s.isRoot = false → RunsTo (exec (.domainEpochReceive b a) s) fun t =>
      vget t.cl.barRel b none = some (if reached s.time a then s.time else a) ∧
      (reached s.time a → s.time ≠ a → t.get TP_FLAGS_EPOCH_LATE = 1) ∧
      (reached s.time a = false ∨ s.time = a → t.get TP_FLAGS_EPOCH_LATE = s.get TP_FLAGS_EPOCH_LATE) ∧
      Frame s t [.cl] (· ∈ [TP_FLAGS_EPOCH_LATE, TP_CNT2_EPOCH_LATE])) ∧
  (∀ (s : State) (dev : BitVec 10) (b : Fin 8) (n : Nat), s.isRoot →
    (vget s.cl.barCount b 0 + n < s.get CL_DOM_STAT_NMEM → RunsTo (exec (.barrierReportReceive dev b n) s) fun t =>
      vget t.cl.barCount b 0 = vget s.cl.barCount b 0 + n ∧ t.cl.barRel = s.cl.barRel ∧ Frame s t [.cl] (fun _ => False)) ∧
    (s.get CL_DOM_STAT_NMEM ≤ vget s.cl.barCount b 0 + n → (s.port 1).queue = [] →
      RunsTo (exec (.barrierReportReceive dev b n) s) fun t =>
        let r := later s.time (1600 * s.get (SQ_DOMSYNC_LEAD 0))
        vget t.cl.barRel b none = some r ∧ vget t.cl.barCount b 0 = 0 ∧
        (t.port 1).queue = [Packet.make 3 0 0 0 b [r.setWidth 72]])) ∧
  (∀ (s : State) (t0 : Tick), s.isRoot → s.portUp 1 → reached s.time (vget s.cl.taNext 1 0) →
    RunsTo (exec (.timeExchangeStart 1 t0) s) fun t =>
      Sends s t (.link 1 (.ts1 t0)) ∧ vget t.cl.t1 1 none = some t0 ∧ vget t.cl.taNext 1 0 = later s.time 16384 ∧
      Frame s t [.cl] (fun _ => False)) ∧
  (∀ (s : State) (t2 t3 : Tick), s.taFollows → RunsTo (exec (.ts1Receive t2 t3) s) fun t =>
      Sends s t (.link 0 .ts2) ∧ t.cl.t2 = some t2 ∧ t.cl.t3 = some t3 ∧ Frame s t [.cl] (fun _ => False)) ∧
  (∀ (s : State) (x : Fin 4) (t1 t4 turn : Tick), vget s.cl.t1 x none = some t1 → vget s.cl.chDly x (0, 0) = (0, 0) →
    (RunsTo (exec (.ts2Receive x t4 none) s) fun t =>
      Sends s t (.link x (.ts3 t1 t4)) ∧ t.cl.chDly = s.cl.chDly ∧ vget t.cl.t1 x none = none ∧
      Frame s t [.cl] (fun _ => False)) ∧
    (0 < s.get CL_TA_CTL_AVG → RunsTo (exec (.ts2Receive x t4 (some turn)) s) fun t =>
      Sends s t (.link x (.ts3 t1 t4)) ∧ vget t.cl.chDly x (0, 0) = (1, 16 * (t4 - t1 - turn).toInt) ∧
      vget t.cl.t1 x none = none ∧ Frame s t [.cl] (fun _ => False))) ∧
  (∀ (s : State) (t1 t2 t3 t4 : Tick) (k : BitVec 40), s.cl.t2 = some t2 → s.cl.t3 = some t3 → s.cl.taN = 0 →
    s.cl.taOfs = 0 → s.cl.taDly = 0 → s.getInt (CL_P_CTL_ASYM 0) = 0 →
    (RunsTo (exec (.ts3Receive t1 t4 true) s) fun t =>
      t.cl.t2 = none ∧ t.cl.t3 = none ∧ t.cl.taN = 0 ∧ Frame s t [.cl] (fun _ => False)) ∧
    (0 < s.get CL_TA_CTL_AVG → RunsTo (exec (.ts3Receive t1 t4 false) s) fun t =>
      t.cl.taN = 1 ∧ t.cl.taOfs = 16 * ((t2 - t1).toInt - (t4 - t3).toInt) ∧
      t.cl.taDly = 16 * ((t2 - t1).toInt + (t4 - t3).toInt) ∧ Frame s t [.cl] (fun _ => False)) ∧
    (s.get CL_TA_CTL_AVG = 0 → s.taState = taFree → (t2 - t1).toInt - (t4 - t3).toInt = 2048 * (k.toNat : Int) →
      RunsTo (exec (.ts3Receive t1 t4 false) s) fun t =>
        t.time = s.time - BitVec.ofNat 56 k.toNat ∧ t.taState = taStep ∧ t.get CL_FLAGS_TSTEP = 1 ∧ t.cl.taN = 0 ∧
        Frame s t [.time, .groups, .engines, .tp, .hi, .cl, .tw, .sys, .dg, .trigOut, .free] (· ∈ [CL_TA_OFS_OFS, CL_TA_STEP_STEP, CL_P_DLY_DLY 0, CL_FLAGS_TSTEP,
          CL_CNT2_TSTEP, CL_TA_STAT_STATE])))

/-- R373 to R376, R382 to R385: a forwarded write acts at w + 3,200, and not before. A refill block that a SHADOW receives
enters its buffer. A write of TW_CTL sets PAIR and the policies. A detach makes the SHADOW DETACHED and the ACTIVE member
SINGLE; a SWAP takes effect at Ts, 20 µs on, group by group. An attach makes the partner JOINING, refuses with its reason,
ends after its timeout, and copies the stores and then the engines. At a transfer point the ACTIVE member sends the engine's
state; the joiner loads it and says so; where no vector has begun since, the engine is transferred, and else the transfer is
abandoned. The joiner is the SHADOW once all are transferred. -/
def Obligations.TwinRoles : Prop :=
  (∀ (s : State) (a : Nat) (w : Native) (w0 : Time), s.role = roleShadow →
    (reached s.time (later w0 3200) → RunsTo (exec (.mirroredWriteApply (.mem a w) w0) s) fun t =>
      t.memWord a = w ∧ (∀ b, b < a ∨ a + 9 ≤ b → Memory.read t.mem b = Memory.read s.mem b) ∧
      Frame s t [.mem] (fun _ => False)) ∧
    (reached s.time (later w0 3200) = false → RunsTo (exec (.mirroredWriteApply (.mem a w) w0) s) fun t =>
      Frame s t [] (fun _ => False))) ∧
  (∀ (s : State) (a : Nat) (w : Native) (w0 : Time), s.role = roleActive → s.tw.mirror = [(later w0 3200, .mem a w)] →
    reached s.time (later w0 3200) → RunsTo (exec (.mirroredWriteApply (.mem a w) w0) s) fun t =>
      t.memWord a = w ∧ t.tw.mirror = [] ∧ Frame s t [.mem, .tw] (fun _ => False)) ∧
  (∀ (s : State) (u : GroupIx) (ws : List Native), s.role = roleShadow → (s.engine u).refill.length + ws.length ≤ 8192 →
    RunsTo (exec (.refillBlockForward false u ws) s) fun t =>
      (t.engine u).refill = (s.engine u).refill ++ ws ∧
      t.get (SQ_STRM_STAT_FILL u) = (s.engine u).refill.length + ws.length ∧
      Frame s t [.engines] (· ∈ [SQ_STRM_STAT_FILL u])) ∧
  (∀ (s : State) (v : Word), s.ready → s.role = roleNone → RunsTo (exec (.pairWrite v) s) fun t =>
      t.get TW_CTL_PAIR = v.toNat % 2 ∧ t.get TW_CTL_LOSPOL = v.toNat / 2 % 2 ∧ t.get TW_CTL_DISPOL = v.toNat / 4 % 2 ∧
      t.role = roleNone ∧ Frame s t [.groups] (fun y => y.reg = TW_CTL ∨ ∃ g, y = LS_PARKSTAT_PARKED g)) ∧
  (∀ s : State, (s.role = roleShadow → RunsTo (exec (.detach true) s) fun t => t.role = roleDetached ∧
      (∀ g < 32, (t.group g).shadowHold = false) ∧
      Frame s t [.tw, .groups] (fun y => y = TW_STAT_ROLE ∨ ∃ g, y = LS_PARKSTAT_PARKED g)) ∧
    (s.role = roleActive → s.tw.refill = [] → RunsTo (exec (.detach true) s) fun t =>
      t.role = roleSingle ∧ t.tw.swapAt = none ∧ t.tw.attachAt = none ∧ Frame s t [.tw] (· ∈ [TW_STAT_ROLE])) ∧
    (s.ready → s.role = roleShadow → RunsTo (exec (.detach false) s) fun t =>
      t.role = roleDetached ∧ Sends s t (.link 3 .detach))) ∧
  (∀ s : State, s.ready → s.role = roleActive → s.tw.attachAt = none → s.portUp 3 → RunsTo (exec (.swapOp none) s) fun t =>
      t.tw.swapAt = some (later s.time 32000, true) ∧ Sends s t (.link 3 (.swap (later s.time 32000))) ∧
      Frame s t [.tw] (fun _ => False)) ∧
  (∀ (s : State) (ts : Time), s.role = roleShadow → RunsTo (exec (.swapOp (some ts)) s) fun t =>
      t.tw.swapAt = some (ts, false) ∧ Frame s t [.tw] (fun _ => False)) ∧
  (∀ (s : State) (g : GroupIx) (ts : Time), s.tw.swapAt = some (ts, false) → s.role = roleShadow → (s.group g).shadowHold →
    s.vectorFrom g ts → RunsTo (exec (.swapExecute g) s) fun t =>
      (t.group g).shadowHold = false ∧ t.role = roleActive ∧ t.getTime TW_TAKE_LO_T_LO TW_TAKE_HI_T_HI = ts ∧
      t.get TW_TAKE_HI_CAUSE = takeSwap ∧ Frame s t [.groups, .tw] (· ∈ [TW_STAT_ROLE, TW_TAKE_LO_T_LO, TW_TAKE_HI_T_HI,
        TW_TAKE_HI_CAUSE])) ∧
  (∀ (s : State) (peer : PeerInfo), s.ready → s.portUp 3 = false → RunsTo (exec (.attach (.command peer)) s) fun t =>
      t.get TW_STAT_RJREASON = 1 ∧ t.get TW_FLAGS_RJFAIL = 1 ∧ t.role = s.role ∧
      Frame s t [] (· ∈ [TW_STAT_RJREASON, TW_FLAGS_RJFAIL, TW_CNT2_RJFAIL])) ∧
  (∀ (s : State) (peer : PeerInfo), s.ready → s.attachReason peer = 0 → RunsTo (exec (.attach (.command peer)) s) fun t =>
      t.role = roleActive ∧ t.get TW_STAT_RJREASON = 0 ∧ t.get TW_RJ_STAT_PEND = 2 ^ 32 - 1 ∧ t.tw.attachAt = some s.time ∧
      (∃ pre, t.out = pre ++ .link 3 (.stores (storeCells s.mem)) :: .link 3 .attach :: s.out ∧ ∀ x ∈ pre, ∃ v, x = .msix v) ∧
      Frame s t [.tw, .groups] (fun y => y = TW_STAT_ROLE ∨ y = TW_STAT_RJREASON ∨ y = TW_RJ_STAT_PEND ∨
        ∃ g, y = LS_PARKSTAT_PARKED g)) ∧
  (∀ s : State, s.on TW_CTL_PAIR → s.role = roleNone → RunsTo (exec (.attach .request) s) fun t =>
      t.role = roleJoining ∧ t.get TW_RJ_STAT_PEND = 2 ^ 32 - 1 ∧ t.tw.attachAt = some s.time ∧
      Frame s t [.tw, .groups] (fun y => y = TW_STAT_ROLE ∨ y = TW_RJ_STAT_PEND ∨ ∃ g, y = LS_PARKSTAT_PARKED g)) ∧
  (∀ (s : State) (a : Nat) (v : Byte), s.role = roleJoining → a < memFailLog →
    RunsTo (exec (.attach (.stores [(a, v)])) s) fun t =>
      Memory.read t.mem a = v ∧ (∀ b < memFailLog, b ≠ a → Memory.read t.mem b = memDefault b) ∧
      (∀ b, memFailLog ≤ b → Memory.read t.mem b = Memory.read s.mem b) ∧ Frame s t [.mem] (fun _ => False)) ∧
  (∀ (s : State) (t0 : Time), s.tw.attachAt = some t0 → 1600000 * s.get TW_RJ_TMO_TMO ≤ s.since t0 →
    (s.role = roleJoining → RunsTo (exec .attachTimeout s) fun t => t.role = roleDetached ∧ t.tw.attachAt = none) ∧
    (s.role = roleActive → s.tw.refill = [] → RunsTo (exec .attachTimeout s) fun t =>
      t.role = roleSingle ∧ t.get TW_STAT_RJREASON = 7 ∧ t.get TW_FLAGS_RJFAIL = 1 ∧ t.tw.attachAt = none)) ∧
  (∀ (s : State) (e : EngineIx), s.role = roleActive → s.tw.attachAt.isSome → s.bit TW_RJ_STAT_PEND e →
    s.get (SQ_GANG_M e) = 0 → s.running e = none →
    (s.tw.sentOut = [] → RunsTo (exec (.engineTransfer e .point) s) fun t =>
      Sends s t (.link 3 (.transfer [(e.val, s.transferOf e)])) ∧ t.tw.sentOut = [(e.val, s.vcnt e, none)] ∧
      t.role = roleActive ∧ Frame s t [.tw] (fun _ => False)) ∧
    (s.tw.sentOut = [(e.val, s.vcnt e, none)] → RunsTo (exec (.engineTransfer e .loaded) s) fun t =>
      Sends s t (.link 3 (.transferred e.val)) ∧ t.tw.sentOut = [] ∧ t.bit TW_RJ_STAT_PEND e = false ∧
      t.role = roleActive ∧ (t.on TW_RJ_STAT_PEND = false → t.tw.attachAt = none) ∧
      Frame s t [.tw] (· ∈ [TW_RJ_STAT_PEND])) ∧
    (∀ n, s.tw.sentOut = [(e.val, n, none)] → n ≠ s.vcnt e → RunsTo (exec (.engineTransfer e .loaded) s) fun t =>
      t.tw.sentOut = [] ∧ t.tw.attachAt = s.tw.attachAt ∧ Frame s t [.tw] (fun _ => False))) ∧
  (∀ (s : State) (e : EngineIx) (x : Transfer), s.role = roleJoining →
    (x.regs.get (WP_STAT_STATE e) = 0 → RunsTo (exec (.engineTransfer e (.state [(e.val, x)])) s) fun t =>
      t.engine e = x.engine ∧ Sends s t (.link 3 (.loaded e.val)) ∧ t.role = roleJoining ∧
      t.get TW_RJ_STAT_PEND = s.get TW_RJ_STAT_PEND ∧ t.mem = s.mem ∧ t.staged = s.staged ∧ t.time = s.time) ∧
    (s.get (SQ_GANG_M e) = 0 → s.get TW_RJ_STAT_PEND = 2 ^ e.val → RunsTo (exec (.engineTransfer e .done) s) fun t =>
      t.get TW_RJ_STAT_PEND = 0 ∧ t.role = roleShadow ∧ t.tw.attachAt = none ∧ (∀ g < 32, (t.group g).shadowHold) ∧
      Frame s t [.tw, .groups] (fun y => y = TW_STAT_ROLE ∨ y = TW_RJ_STAT_PEND ∨ ∃ g, y = LS_PARKSTAT_PARKED g)))

/-- R377 to R381: a heartbeat leaves at each multiple of 1,600 TCLK with a new lockstep CRC. One that shows a failed partner
(here: MCHK), or 3.5 µs without one, makes a SHADOW SINGLE with a takeover from D, PARKCMD sent; with the T port down a
SHADOW is DETACHED unless LOSPOL. Each group then drives, terminations first at D + 160. PARKCMD makes an ACTIVE member FAILED. A differing
CRC is counted, and STRICT agreement flags sets that differ. -/
def Obligations.TwinWatch : Prop :=
  (∀ s : State, s.on TW_CTL_PAIR → s.portUp 3 → s.time.toNat % 1600 = 0 → RunsTo (exec .heartbeatSend s) fun t =>
      t.tw.crcs = ((s.time, s.lockstepCrc) :: s.tw.crcs).take 8 ∧ t.tw.hbSeq = s.tw.hbSeq + 1 ∧
      (∃ hb, Sends s t (.link 3 (.heartbeat hb)) ∧ hb.seq = s.tw.hbSeq ∧ hb.role = BitVec.ofNat 3 s.role ∧
        hb.time = s.time ∧ hb.crc = s.lockstepCrc ∧ hb.mchk = s.on MC_MCHKMAP_MAP) ∧ Frame s t [.tw] (fun _ => False)) ∧
  (∀ (s : State) (hb : Heartbeat), s.on TW_CTL_PAIR → s.lockstepLost hb = false →
    (s.role = roleShadow → hb.mchk → s.tw.refill = [] → RunsTo (exec (.heartbeatReceive hb) s) fun t =>
      t.role = roleSingle ∧ t.tw.takeD = some s.time ∧ t.get TW_FLAGS_TAKEOVER = 1 ∧ t.get TW_TAKE_HI_CAUSE = takeMchk ∧
      t.getTime TW_TAKE_LO_T_LO TW_TAKE_HI_T_HI = s.time ∧ Sends s t (.link 3 .parkcmd) ∧
      Frame s t [.tw] (fun y => y.reg = TW_STAT ∨ y.reg = TW_TAKE_LO ∨ y.reg = TW_TAKE_HI ∨ y = TW_FLAGS_TAKEOVER ∨
        y = TW_CNT0_TAKEOVER)) ∧
    (hb.mchk = false → hb.ochre = false → hb.therm = false → RunsTo (exec (.heartbeatReceive hb) s) fun t =>
      t.tw.lastHb = some s.time ∧ t.get TW_STAT_HBOK = 1 ∧ t.get TW_STAT_PEER = hb.role.toNat ∧ t.role = s.role ∧
      Frame s t [.tw] (· ∈ [TW_STAT_HBOK, TW_STAT_PEER]))) ∧
  (∀ (s : State) (hb : Heartbeat), s.on TW_CTL_PAIR → s.lockstepLost hb → s.on TW_CTL_DISPOL = false → hb.mchk = false →
    hb.ochre = false → hb.therm = false → RunsTo (exec (.heartbeatReceive hb) s) fun t =>
      t.get TW_FLAGS_LOCKSTEP = 1 ∧ t.get TW_CNT1_LOCKSTEP = min (s.get TW_CNT1_LOCKSTEP + 1) 65535 ∧ t.role = s.role) ∧
  (∀ (s : State) (h : Time), s.tw.lastHb = some h → 5600 ≤ s.since h → s.role = roleShadow →
    (s.portUp 3 → s.tw.refill = [] → RunsTo (exec .heartbeatLoss s) fun t =>
      t.role = roleSingle ∧ t.tw.takeD = some (later h 5600) ∧ t.get TW_FLAGS_HBLOSS = 1 ∧ t.get TW_STAT_HBOK = 0 ∧
      t.get TW_TAKE_HI_CAUSE = takeHbloss ∧ Sends s t (.link 3 .parkcmd)) ∧
    (s.portUp 3 = false → s.on TW_CTL_LOSPOL = false → RunsTo (exec .heartbeatLoss s) fun t =>
      t.role = roleDetached ∧ t.get TW_STAT_HBOK = 0 ∧ t.get TW_FLAGS_HBLOSS = s.get TW_FLAGS_HBLOSS ∧
      ∀ g < 32, (t.group g).shadowHold = false) ∧
    (s.portUp 3 = false → s.on TW_CTL_LOSPOL → s.tw.refill = [] → RunsTo (exec .heartbeatLoss s) fun t =>
      t.role = roleSingle ∧ t.tw.takeD = some (later h 5600) ∧ t.get TW_TAKE_HI_CAUSE = takeLinkloss ∧
      Sends s t (.link 3 .parkcmd))) ∧
  (∀ (s : State) (g : GroupIx), s.takeoverDue g → RunsTo (exec (.groupTakeover g) s) fun t =>
      (t.group g).shadowHold = false ∧ (t.group g).termOnly = false ∧ Frame s t [.groups] (fun _ => False)) ∧
  (∀ (s : State) (g : GroupIx) (d : Time), s.tw.takeD = some d → (s.group g).shadowHold → reached s.time (later d 160) →
    RunsTo (exec (.takeoverTermConnect g) s) fun t =>
      (t.group g).termOnly ∧ (t.group g).shadowHold ∧ Frame s t [.groups] (fun _ => False)) ∧
  (∀ s : State, s.role = roleActive → RunsTo (exec .parkcmdReceive s) fun t =>
      t.role = roleFailed ∧ Frame s t [.tw, .groups] (fun y => y = TW_STAT_ROLE ∨ ∃ g, y = LS_PARKSTAT_PARKED g)) ∧
  (∀ (s : State) (e : EngineIx) (set own : List Native) (k n : Nat), s.role = roleActive → s.tw.attachAt = none →
    vget s.tw.checkFrom e none = some k → vget s.tw.sets e (0, []) = (n, own) → own ≠ [] → k ≤ n → s.on TW_CTL_DISPOL = false →
    (crc32c (wordBytes own) ≠ crc32c (wordBytes set) → s.on TW_AGREE_MODE = false →
      RunsTo (exec (.agreementReceive e set) s) fun t =>
        t.get TW_FLAGS_DISAGREE = 1 ∧ t.get TW_DIS_ENGINE = e.val ∧ t.get TW_DIS_CHMAP = 0xFFFF ∧
        Frame s t [] (fun y => y = TW_FLAGS_DISAGREE ∨ y = TW_CNT1_DISAGREE ∨ y.reg = TW_DIS)) ∧
    (crc32c (wordBytes own) = crc32c (wordBytes set) → RunsTo (exec (.agreementReceive e set) s) fun t =>
        Frame s t [] (fun _ => False)))

/-! ### Chapter 14: the host interface -/

/-- R5, R6, R325 to R327, R393, R410, R437: a write of 32 bits to a register with no action of its own stores its fields,
clamped and noted where a bound acts; staged fields in the staged plane, or with WLOCK while it is locked. A write that is
narrower, not aligned, before READY or to no register has no effect. Writing 1 to a flag clears it, but for one that
hardware has set in the same TCLK (log entry 133), and a cause that stays set is signalled again. A read of a register that
reads as stored returns its fields, WO and unused bits as 0, and of fewer bytes those bytes; one in the mirror returns the
staged fields. TP_TIME_LO latches TP_TIME_HI. Reading COUNT and PEAK clears them, and reading a bin advances BIN. -/
def Obligations.RegisterAccess : Prop :=
  (∀ (s : State) (a : BitVec 24) (n : RegName) (ix : List Nat) (v : Word), s.ready → regAt a.toNat = some (n, ix) →
    a.toNat % 4 = 0 → n.plain → (n.forwarded ix → s.role ≠ roleActive ∧ s.role ≠ roleShadow) →
    RunsTo (exec (.registerWrite a ⟨4, v⟩) s) fun t =>
      (∀ f ∈ n.fields ix, f.isLive → t.get (n.fld ix f) = f.stored v) ∧
      (∀ f ∈ n.fields ix, f.isStaged →
        t.stagedGet (n.fld ix f) = if s.cm.isSome then s.stagedGet (n.fld ix f) else f.stored v) ∧
      (∀ f ∈ n.fields ix, f.isFlag → ∀ i, f.lo ≤ i → i ≤ f.hi → t.on ⟨n.reg ix, i, i⟩ =
        (s.on ⟨n.reg ix, i, i⟩ && (!v.getLsbD i || (s.raisedBits (n.reg ix)).getLsbD i))) ∧
      (∀ f ∈ n.fields ix, f.access = .ro → (n.reg ix).notPba → t.get (n.fld ix f) = s.get (n.fld ix f)) ∧
      ((∃ f ∈ n.fields ix, (f.isLive ∨ f.isStaged ∧ s.cm = none) ∧ f.stored v ≠ fieldOf v f.hi f.lo) →
        t.get GL_CLAMP_COUNT_COUNT = min (s.get GL_CLAMP_COUNT_COUNT + 1) 65535 ∧
        t.get GL_CLAMP_LAST_ADDR = (n.reg ix).addr) ∧
      (s.cm ≠ none → (∃ f ∈ n.fields ix, f.isStaged) →
        t.get CM_FLAGS_WLOCK = 1 ∧ t.get CM_CNT3_WLOCK = min (s.get CM_CNT3_WLOCK + 1) 65535) ∧
      (∀ b, b ≠ (n.reg ix).addr → t.staged.find b = s.staged.find b) ∧
      Frame s t [.staged] (fun y => y.reg = n.reg ix ∨ y ∈ [GL_CLAMP_COUNT_COUNT, GL_CLAMP_LAST_ADDR, CM_FLAGS_WLOCK,
        CM_CNT3_WLOCK])) ∧
  (∀ (s : State) (a : BitVec 24) (n : Fin 5) (v : Word), n.val ≠ 4 ∨ a.toNat % 4 ≠ 0 ∨ s.ready = false ∧ 0x10000 ≤ a.toNat ∨
    a.toNat < 0x800000 ∧ regAt a.toNat = none → RunsTo (exec (.registerWrite a ⟨n, v⟩) s) fun t =>
      t.out = s.out ∧ Frame s t [] (fun _ => False)) ∧
  (∀ (s : State) (a : BitVec 24) (n : RegName) (ix : List Nat) (v : Word), s.ready → regAt a.toNat = some (n, ix) →
    a.toNat % 4 = 0 → (n.fields ix).any FieldSpec.isFlag → (n.forwarded ix → s.role ≠ roleActive ∧ s.role ≠ roleShadow) →
    RunsTo (exec (.flagClearWrite a v) s) fun t =>
      (∀ f ∈ n.fields ix, f.isFlag → ∀ i, f.lo ≤ i → i ≤ f.hi → t.on ⟨n.reg ix, i, i⟩ =
        (s.on ⟨n.reg ix, i, i⟩ && (!v.getLsbD i || (s.raisedBits (n.reg ix)).getLsbD i))) ∧
      (∀ b ∈ n.causes, s.bit HI_IMASK_MASK b → t.causeBit b → s.on (MSIX_VCTL_MASK (s.imapV b)) = false →
        ∃ pre, t.out = pre ++ s.out ∧ .msix (s.imapV b) ∈ pre) ∧
      Frame s t [] (fun y => y.reg = n.reg ix ∨ y ∈ [GL_CLAMP_COUNT_COUNT, GL_CLAMP_LAST_ADDR])) ∧
  (∀ (s : State) (a : BitVec 24) (n : RegName) (ix : List Nat), s.ready → regAt a.toNat = some (n, ix) → a.toNat % 4 = 0 →
    (n.readsPlain → RunsTo (exec (.coherentRead ⟨a, 4⟩) s) fun t => ∃ w : Word, Sends s t (.readData (w.setWidth 64)) ∧
      (∀ f ∈ n.fields ix, fieldOf w f.hi f.lo = if f.access = .wo then 0 else s.get (n.fld ix f)) ∧
      (∀ i < 32, (∀ f ∈ n.fields ix, i < f.lo ∨ f.hi < i) → w.getLsbD i = false) ∧ Frame s t [] (fun _ => False)) ∧
    (RunsTo (exec (.coherentRead ⟨BitVec.ofNat 24 (0x800000 + a.toNat), 4⟩) s) fun t => ∃ w : Word,
      Sends s t (.readData (w.setWidth 64)) ∧
      (∀ f ∈ n.fields ix, fieldOf w f.hi f.lo = if f.isStaged then s.stagedGet (n.fld ix f) else 0) ∧
      (∀ i < 32, (∀ f ∈ n.fields ix, i < f.lo ∨ f.hi < i) → w.getLsbD i = false) ∧ Frame s t [] (fun _ => False))) ∧
  (∀ (s : State) (k n : Nat), s.ready → 0 < n → k + n ≤ 4 →
    RunsTo (exec (.coherentRead ⟨BitVec.ofNat 24 (HI_IMASK.addr + k), Fin.ofNat 9 n⟩) s) fun t =>
      Sends s t (.readData (BitVec.ofNat 64 (s.get HI_IMASK_MASK / 2 ^ (8 * k) % 2 ^ (8 * n)))) ∧
      Frame s t [] (fun _ => False)) ∧
  (∀ (s : State) (a : BitVec 24), a.toNat % 4 = 0 → regAt a.toNat = none ∧ a.toNat < 0x800000 ∨ s.ready = false ∧ 0x10000 ≤ a.toNat →
    RunsTo (exec (.coherentRead ⟨a, 4⟩) s) fun t => Sends s t (.readData 0) ∧ Frame s t [] (fun _ => False)) ∧
  (∀ s : State, s.ready →
    (RunsTo (exec (.coherentRead ⟨BitVec.ofNat 24 TP_TIME_LO.addr, 4⟩) s) fun t =>
      Sends s t (.readData (BitVec.ofNat 64 (s.time.toNat / 8 * 8 % 2 ^ 32))) ∧
      t.hi.latch.word TP_TIME_HI = BitVec.ofNat 32 (s.time.toNat / 2 ^ 32) ∧ Frame s t [.hi] (fun _ => False)) ∧
    (RunsTo (exec (.coherentRead ⟨BitVec.ofNat 24 TP_TIME_HI.addr, 4⟩) s) fun t =>
      Sends s t (.readData ((s.hi.latch.word TP_TIME_HI).setWidth 64)) ∧ Frame s t [] (fun _ => False))) ∧
  (∀ s : State, RunsTo (exec .clampCountRead s) fun t =>
      Sends s t (.readData (BitVec.ofNat 64 (s.get GL_CLAMP_COUNT_COUNT))) ∧ t.get GL_CLAMP_COUNT_COUNT = 0 ∧
      Frame s t [] (· ∈ [GL_CLAMP_COUNT_COUNT])) ∧
  (∀ (s : State) (k : DieIx), s.ready → RunsTo (exec (.bucketRead k) s) fun t =>
      Sends s t (.readData (BitVec.ofNat 64 (s.get (TH_OCH_B_PEAK k) * 65536 + s.get (TH_OCH_B_LEVEL k)))) ∧
      t.get (TH_OCH_B_PEAK k) = s.get (TH_OCH_B_LEVEL k) ∧ Frame s t [] (· ∈ [TH_OCH_B_PEAK k])) ∧
  (∀ (s : State) (g : GroupIx), s.ready → RunsTo (exec (.binTableRead g) s) fun t =>
      Sends s t (.readData ((s.binData g).setWidth 64)) ∧
      t.get (TD_BT_ADDR_BIN g) = (s.get (TD_BT_ADDR_BIN g) + 1) % 512 ∧ Frame s t [] (· ∈ [TD_BT_ADDR_BIN g]))

/-- R19, R394, R395, R428: bytes 0 to 7 of a word fill the hold, loaded from the word when it held another, and leave memory
alone. Byte 8 writes a word of a store whole, from the hold or, with HOLDMISS, from the stored bytes; records take no write. A
read of bytes 0 to 7 loads the read latch with byte 8, which a read of byte 8 returns at its address; elsewhere it
returns the stored byte. Outside the regions a read returns 0. An uncorrectable NVS word is recorded. -/
def Obligations.MemoryWindow : Prop :=
  (∀ (s : State) (off : BitVec 27) (data : List (BitVec 8)), s.ready → bar2Region off.toNat ≠ .none → data ≠ [] →
    off.toNat % 16 + data.length ≤ 8 → RunsTo (exec (.bar2WriteLow off data) s) fun t =>
      t.hi.holdAddr = off.toNat / 16 * 16 ∧
      (∀ i < 8, t.hi.holdData.extractLsb' (8 * i) 8 =
        if off.toNat % 16 ≤ i ∧ i < off.toNat % 16 + data.length then data.getD (i - off.toNat % 16) 0
        else if s.hi.holdAddr = off.toNat / 16 * 16 then s.hi.holdData.extractLsb' (8 * i) 8
        else (s.bar2Word (off.toNat / 16 * 16)).extractLsb' (8 * i) 8) ∧
      { t.hi with holdAddr := s.hi.holdAddr, holdData := s.hi.holdData } = s.hi ∧ Frame s t [.hi] (fun _ => False)) ∧
  (∀ (s : State) (off : BitVec 27) (b : BitVec 8), s.actsNow → bar2Region off.toNat = .store → off.toNat % 16 = 8 →
    (s.hi.holdAddr = off.toNat - 8 → RunsTo (exec (.bar2WriteHigh off b) s) fun t =>
      t.memWord (off.toNat - 8) = b ++ s.hi.holdData ∧
      (∀ c, c < off.toNat - 8 ∨ off.toNat < c → Memory.read t.mem c = Memory.read s.mem c) ∧
      Frame s t [.mem] (fun _ => False)) ∧
    (s.hi.holdAddr ≠ off.toNat - 8 → RunsTo (exec (.bar2WriteHigh off b) s) fun t =>
      t.memWord (off.toNat - 8) = b ++ (s.memWord (off.toNat - 8)).setWidth 64 ∧
      (∀ c, c < off.toNat - 8 ∨ off.toNat < c → Memory.read t.mem c = Memory.read s.mem c) ∧
      t.get HI_FLAGS_HOLDMISS = 1 ∧ t.get HI_CNT1_HOLDMISS = min (s.get HI_CNT1_HOLDMISS + 1) 65535 ∧
      Frame s t [.mem] (· ∈ [HI_FLAGS_HOLDMISS, HI_CNT1_HOLDMISS]))) ∧
  (∀ (s : State) (off : BitVec 27) (b : BitVec 8), s.ready → bar2Region off.toNat = .records → off.toNat % 16 = 8 →
    RunsTo (exec (.bar2WriteHigh off b) s) fun t => Frame s t [] (· ∈ [HI_FLAGS_HOLDMISS, HI_CNT1_HOLDMISS])) ∧
  (∀ (s : State) (off : BitVec 27) (n : Fin 9), s.ready → bar2Region off.toNat ≠ .none → 0 < n.val →
    off.toNat % 16 + n.val ≤ 8 → ∀ ecc, RunsTo (exec (.bar2ReadLow off n ecc) s) fun t =>
      Sends s t (.readData (BitVec.ofNat 64
        ((s.bar2Word (off.toNat / 16 * 16)).toNat / 2 ^ (8 * (off.toNat % 16)) % 2 ^ (8 * n.val)))) ∧
      t.hi.latchAddr = off.toNat / 16 * 16 ∧
      t.hi.latchByte = (s.bar2Word (off.toNat / 16 * 16)).extractLsb' 64 8 ∧
      (ecc = .good → { t.hi with latchAddr := s.hi.latchAddr, latchByte := s.hi.latchByte } = s.hi ∧
        Frame s t [.hi] (fun _ => False)) ∧
      (bar2Region off.toNat = .nvs → ecc = .corrected →
        t.get NV_FLAGS_CORR = 1 ∧ t.get NV_CNT0_CORR = min (s.get NV_CNT0_CORR + 1) 65535 ∧
        Frame s t [.hi] (· ∈ [NV_FLAGS_CORR, NV_CNT0_CORR]))) ∧
  (∀ (s : State) (off : BitVec 27), s.ready → bar2Region off.toNat ≠ .none → off.toNat % 16 = 8 →
    RunsTo (exec (.bar2ReadHigh off .good) s) fun t =>
      Sends s t (.readData (if s.hi.latchAddr = off.toNat - 8 then s.hi.latchByte.setWidth 64
        else ((s.bar2Word (off.toNat - 8)).extractLsb' 64 8).setWidth 64)) ∧ Frame s t [] (fun _ => False)) ∧
  (∀ (s : State) (off : BitVec 27) (n : Fin 9) (ecc : EccResult), s.ready = false ∨ bar2Region off.toNat = .none →
    (RunsTo (exec (.bar2ReadLow off n ecc) s) fun t => Sends s t (.readData 0) ∧ Frame s t [] (fun _ => False)) ∧
    (RunsTo (exec (.bar2ReadHigh off ecc) s) fun t => Sends s t (.readData 0) ∧ Frame s t [] (fun _ => False))) ∧
  (∀ (s : State) (off : BitVec 27), s.ready → bar2Region off.toNat = .nvs → off.toNat % 16 = 8 →
    s.hi.latchAddr ≠ off.toNat - 8 → RunsTo (exec (.bar2ReadHigh off .uncorrectable) s) fun t =>
      Sends s t (.readData (((s.memWord (off.toNat - 8)).extractLsb' 64 8).setWidth 64)) ∧
      t.get NV_FLAGS_UNCORR = 1 ∧ t.get NV_CNT0_UNCORR = min (s.get NV_CNT0_UNCORR + 1) 65535 ∧
      t.get NV_LASTERR_ADDR = (off.toNat - memNvs) / 16 ∧
      Frame s t [] (· ∈ [NV_FLAGS_UNCORR, NV_CNT0_UNCORR, NV_LASTERR_ADDR]))

/-- R399 to R403, R409, R414: TAIL keeps within HEAD and HEAD + 2^SIZE. CTL takes EN, WBEN, IALL and FLUSH, and SIZE
while EN was 0; EN of a queue enters RUN or IDLE and forgets its failures. A ring's only open block closes FLUSH µs after its
first record and on a write of HI_FLUSH, with the next BSEQ. A closed block goes to the next posted buffer, HEAD
advances, is written back with WBEN = 1, and the ring is signalled with INT or IALL. GO starts a capture readout, whose
blocks of up to 452 words end in DONE; a GO while BUSY has no effect. -/
def Obligations.Rings : Prop :=
  (∀ (s : State) (x : RingIx) (v : Word), s.ready →
    ((v.toNat + 2 ^ 32 - s.get (ringHead x)) % 2 ^ 32 < 2 ^ 31 →
      (v.toNat + 2 ^ 32 - s.get (ringHead x)) % 2 ^ 32 ≤ 2 ^ s.get (ringSize x) →
      RunsTo (exec (.ringTailWrite x v) s) fun t => t.get (ringTail x) = v.toNat ∧ Frame s t [] (· ∈ [ringTail x])) ∧
    ((v.toNat + 2 ^ 32 - s.get (ringHead x)) % 2 ^ 32 < 2 ^ 31 →
      2 ^ s.get (ringSize x) < (v.toNat + 2 ^ 32 - s.get (ringHead x)) % 2 ^ 32 →
      RunsTo (exec (.ringTailWrite x v) s) fun t =>
        t.get (ringTail x) = (s.get (ringHead x) + 2 ^ s.get (ringSize x)) % 2 ^ 32 ∧
        t.get GL_CLAMP_COUNT_COUNT = min (s.get GL_CLAMP_COUNT_COUNT + 1) 65535 ∧
        t.get GL_CLAMP_LAST_ADDR = (ringTail x).reg.addr ∧
        Frame s t [] (· ∈ [ringTail x, GL_CLAMP_COUNT_COUNT, GL_CLAMP_LAST_ADDR])) ∧
    (2 ^ 31 ≤ (v.toNat + 2 ^ 32 - s.get (ringHead x)) % 2 ^ 32 → RunsTo (exec (.ringTailWrite x v) s) fun t =>
        t.get (ringTail x) = s.get (ringHead x) ∧
        t.get GL_CLAMP_COUNT_COUNT = min (s.get GL_CLAMP_COUNT_COUNT + 1) 65535 ∧
        t.get GL_CLAMP_LAST_ADDR = (ringTail x).reg.addr ∧
        Frame s t [] (· ∈ [ringTail x, GL_CLAMP_COUNT_COUNT, GL_CLAMP_LAST_ADDR]))) ∧
  (∀ (s : State) (x : RingIx) (v : Word), s.ready → 4 ≤ fieldOf v 8 4 → fieldOf v 8 4 ≤ 16 → fieldOf v 31 16 ≠ 0 →
    (∀ g < 32, s.on (FC_LOG_CTL_HOST g) = false ∧ s.on (FC_EV_CTL_DMA g) = false) →
    RunsTo (exec (.ringEnable x v) s) fun t =>
      t.on (ringEn x) = v.getLsbD 0 ∧ t.on (ringWben x) = v.getLsbD 1 ∧ t.on (ringIall x) = v.getLsbD 2 ∧
      t.get (ringSize x) = (if s.on (ringEn x) then s.get (ringSize x) else fieldOf v 8 4) ∧
      (∀ r, x = .ring r → t.get (HI_RING_CTL_FLUSH r) = fieldOf v 31 16) ∧
      (∀ u, x = .vecQueue u → t.get (HI_QV_CTL_RETRY u) = fieldOf v 15 12) ∧
      (∀ u, x = .waveQueue u → t.get (HI_QW_CTL_RETRY u) = fieldOf v 15 12) ∧
      (∀ u, x = .vecQueue u → s.on (ringEn x) ≠ v.getLsbD 0 →
        t.get (HI_QV_QSTAT_STATE u) = (if v.getLsbD 0 then 1 else 0) ∧ (v.getLsbD 0 → vget t.hi.vqFails u 0 = 0)) ∧
      (∀ u, x = .waveQueue u → s.on (ringEn x) ≠ v.getLsbD 0 →
        t.get (HI_QW_QSTAT_STATE u) = (if v.getLsbD 0 then 1 else 0) ∧ (v.getLsbD 0 → vget t.hi.wqFails u 0 = 0)) ∧
      { t.hi with vqFails := s.hi.vqFails, wqFails := s.hi.wqFails } = s.hi ∧
      Frame s t [.hi] (fun y => y.reg = ringCtl x ∨ ∃ f, queueState x = some f ∧ y = f)) ∧
  (∀ (s : State) (r : Fin 6) (b : Block), (s.ring r).opened = [b] → b.words ≠ [] → (s.ring r).closed.length < 8 →
    (usTclk (s.get (HI_RING_CTL_FLUSH r)) ≤ s.since b.first → RunsTo (exec (.ringFlushTimeout r) s) fun t =>
      t.ring r = { s.ring r with opened := [], closed := (s.ring r).closed ++ [((s.ring r).bseq, b)], bseq := ((s.ring r).bseq + 1) % 2 ^ 32 } ∧
      (∀ q, q ≠ r.val → t.ring q = s.ring q) ∧ Frame s t [.hi] (fun _ => False)) ∧
    (s.since b.first < usTclk (s.get (HI_RING_CTL_FLUSH r)) → RunsTo (exec (.ringFlushTimeout r) s) fun t =>
      (∀ q, t.ring q = s.ring q) ∧ Frame s t [.hi] (fun _ => False)) ∧
    (∀ v : Word, s.ready → fieldOf v 5 0 = 2 ^ r.val → RunsTo (exec (.ringFlushWrite v) s) fun t =>
      t.ring r = { s.ring r with opened := [], closed := (s.ring r).closed ++ [((s.ring r).bseq, b)], bseq := ((s.ring r).bseq + 1) % 2 ^ 32 } ∧
      (∀ q, q ≠ r.val → t.ring q = s.ring q) ∧ Frame s t [.hi] (fun _ => False))) ∧
  (∀ (s : State) (r : Fin 6) (n : Nat) (b : Block) (rest : List (Nat × Block)) (d : BitVec 128), s.dmaOk →
    s.on (HI_RING_CTL_EN r) → 0 < s.posted (.ring r) → r.val ≠ 4 → (s.ring r).closed = (n, b) :: rest →
    (∀ g < 32, s.on (FC_LOG_CTL_HOST g) = false ∧ s.on (FC_EV_CTL_DMA g) = false) →
    RunsTo (exec (.ringBlockWrite r d) s) fun t =>
      t.ring r = { s.ring r with closed := rest } ∧ (∀ q, q ≠ r.val → t.ring q = s.ring q) ∧
      t.get (HI_RING_HEAD_HEAD r) = (s.get (HI_RING_HEAD_HEAD r) + 1) % 2 ^ 32 ∧
      t.bit HI_RDONE_DONE r = (s.bit HI_RDONE_DONE r || descInt d || s.on (HI_RING_CTL_IALL r)) ∧
      (s.on (HI_RING_CTL_WBEN r) = false → Sends s t (.dma (descAddr d) (b.bytes r n))) ∧
      (s.on (HI_RING_CTL_WBEN r) → ∃ pre, t.out = pre ++
        .dma (BitVec.ofNat 64 (s.get (HI_RING_WB_HI_ADDR r) * 2 ^ 32 + s.get (HI_RING_WB_LO_ADDR r) * 8))
          (bytesOf ((s.get (HI_RING_HEAD_HEAD r) + 1) % 2 ^ 32) 4) :: .dma (descAddr d) (b.bytes r n) :: s.out) ∧
      Frame s t [.hi] (· ∈ [HI_RING_HEAD_HEAD r, HI_RDONE_DONE])) ∧
  (∀ (s : State) (d : BitVec 128), s.dmaOk → s.on (HI_RING_CTL_EN 4) → 0 < s.posted (.ring 4) →
    s.get HI_CAPRD_STAT_STATE = 1 → s.on (HI_RING_CTL_WBEN 4) = false →
    (∀ g < 32, s.on (FC_LOG_CTL_HOST g) = false ∧ s.on (FC_EV_CTL_DMA g) = false) →
    RunsTo (exec (.ringBlockWrite 4 d) s) fun t =>
      Sends s t (.dma (descAddr d) (s.captureBlock.bytes 4 (s.ring 4).bseq)) ∧
      t.get HI_CAPRD_STAT_LEFT = s.get HI_CAPRD_STAT_LEFT - min 452 (s.get HI_CAPRD_STAT_LEFT) ∧
      t.get HI_CAPRD_STAT_STATE = (if s.get HI_CAPRD_STAT_LEFT ≤ 452 then 2 else 1) ∧
      t.hi.capNext = (s.hi.capNext + min 452 (s.get HI_CAPRD_STAT_LEFT)) % 131072 ∧
      t.get (HI_RING_HEAD_HEAD 4) = (s.get (HI_RING_HEAD_HEAD 4) + 1) % 2 ^ 32 ∧
      Frame s t [.hi] (fun y => y ∈ [HI_RING_HEAD_HEAD 4, HI_RDONE_DONE] ∨ y.reg = HI_CAPRD_STAT)) ∧
  (∀ (s : State) (r : Fin 6) (d : BitVec 128), s.dmaOk = false →
    (∀ g < 32, s.on (FC_LOG_CTL_HOST g) = false ∧ s.on (FC_EV_CTL_DMA g) = false) →
    RunsTo (exec (.ringBlockWrite r d) s) fun t => t.out = s.out ∧ Frame s t [] (fun _ => False)) ∧
  (∀ (s : State) (v : Word), s.ready → v.getLsbD 31 →
    (s.get HI_CAPRD_STAT_STATE ≠ 1 → RunsTo (exec (.captureReadoutGo v) s) fun t =>
      t.get HI_CAPRD_STAT_STATE = 1 ∧ t.get HI_CAPRD_STAT_LEFT = s.get HI_CAPRD_CNT_COUNT ∧
      t.hi.capGroup = fieldOf v 21 17 ∧ t.hi.capNext = fieldOf v 16 0 ∧ (∀ r, t.ring r = s.ring r) ∧
      Frame s t [.hi] (fun y => y.reg = HI_CAPRD_CTL ∨ y.reg = HI_CAPRD_STAT)) ∧
    (s.get HI_CAPRD_STAT_STATE = 1 → RunsTo (exec (.captureReadoutGo v) s) fun t =>
      Frame s t [] (fun y => y.reg = HI_CAPRD_CTL)))

/-- R24, R390 to R392, R405 to R407, R415, R420: a fetched block with room is delivered and HEAD advances; one that fails,
or gets no completion, counts and is fetched again, and after RETRY + 1 failures the queue is in ERROR. FLR and PERST_N
return the HI block and MSI-X table to reset and leave time, tests and pins alone, PERST_N taking the link; its rise,
the power state, Bus Master Enable and, where no boundary-scan instruction drives it (R460), the link are noted, a change of
a trained link with LINKCHG. -/
def Obligations.QueuesAndEndpoint : Prop :=
  (∀ (s : State) (u : Fin 32) (d : BitVec 128) (blk : List (BitVec 8)), s.mayFetch false u → s.role ≠ roleActive →
    ringBlockPasses false u blk → ringBlockNw blk + (s.engine u).refill.length ≤ 8192 → s.on (HI_QV_CTL_WBEN u) = false →
    RunsTo (exec (.queueBlockFetch false u d blk) s) fun t =>
      (t.engine u).refill = (s.engine u).refill ++ (List.range (ringBlockNw blk)).map (ringBlockWord blk) ∧
      t.get (SQ_STRM_STAT_FILL u) = (s.engine u).refill.length + ringBlockNw blk ∧
      t.get (HI_QV_HEAD_HEAD u) = (s.get (HI_QV_HEAD_HEAD u) + 1) % 2 ^ 32 ∧ vget t.hi.vqFails u 0 = 0 ∧
      t.bit HI_RDONE_DONE 6 = (s.bit HI_RDONE_DONE 6 || descInt d || s.on (HI_QV_CTL_IALL u)) ∧
      Sends s t (.fetch (descAddr d)) ∧ (∀ e < 32, e ≠ u.val → t.engine e = s.engine e) ∧
      Frame s t [.engines, .hi] (· ∈ [SQ_STRM_STAT_FILL u, HI_QV_HEAD_HEAD u, HI_RDONE_DONE])) ∧
  (∀ (s : State) (u : Fin 32) (d : BitVec 128) (blk : List (BitVec 8)), s.mayFetch true u →
    ringBlockPasses true u blk = false → vget s.hi.wqFails u 0 < s.get (HI_QW_CTL_RETRY u) →
    RunsTo (exec (.queueBlockFetch true u d blk) s) fun t =>
      vget t.hi.wqFails u 0 = vget s.hi.wqFails u 0 + 1 ∧ t.get HI_FLAGS_RFCRC = 1 ∧
      t.get HI_CNT0_RFCRC = min (s.get HI_CNT0_RFCRC + 1) 65535 ∧
      t.get (HI_QW_QSTAT_CRCFAIL u) = min (s.get (HI_QW_QSTAT_CRCFAIL u) + 1) 65535 ∧ Sends s t (.fetch (descAddr d)) ∧
      Frame s t [.hi] (· ∈ [HI_FLAGS_RFCRC, HI_CNT0_RFCRC, HI_QW_QSTAT_CRCFAIL u])) ∧
  (∀ (s : State) (u : Fin 32), s.get (HI_QV_QSTAT_STATE u) = 1 → 0 < s.posted (.vecQueue u) →
    vget s.hi.vqFails u 0 = s.get (HI_QV_CTL_RETRY u) →
    RunsTo (exec (.cplTimeout false u) s) fun t =>
      t.get HI_FLAGS_CPLTO = 1 ∧ t.get HI_CNT2_CPLTO = min (s.get HI_CNT2_CPLTO + 1) 65535 ∧
      t.get HI_FLAGS_RFCRC = 1 ∧ t.get (HI_QV_QSTAT_STATE u) = 2 ∧ t.get HI_FLAGS_RFERR = 1 ∧
      t.get HI_CNT0_RFERR = min (s.get HI_CNT0_RFERR + 1) 65535 ∧
      Frame s t [.hi] (· ∈ [HI_FLAGS_CPLTO, HI_CNT2_CPLTO, HI_FLAGS_RFCRC, HI_CNT0_RFCRC, HI_QV_QSTAT_CRCFAIL u,
        HI_QV_QSTAT_STATE u, HI_FLAGS_RFERR, HI_CNT0_RFERR])) ∧
  (∀ s : State, s.bootOk → RunsTo (exec .functionLevelReset s) fun t =>
      (∀ x, t.on (ringEn x) = false ∧ t.get (ringHead x) = 0 ∧ t.get (ringTail x) = 0) ∧
      (∀ r < 6, (t.ring r).opened = [] ∧ (t.ring r).closed = []) ∧ t.word HI_LINK = s.word HI_LINK ∧
      t.get CK_RSTCAUSE_FLR = 1 ∧ t.hi.bme = s.hi.bme ∧
      0 ∈ t.sys.xNotice ∧ Frame s t [.hi, .staged, .sys] (fun y => regsIn 0x040000 0x060000 y ∨ y = CK_RSTCAUSE_FLR)) ∧
  (∀ s : State, s.bootOk → RunsTo (exec .perstN s) fun t =>
      (∀ x, t.on (ringEn x) = false ∧ t.get (ringHead x) = 0 ∧ t.get (ringTail x) = 0) ∧ t.get HI_LINK_WIDTH = 0 ∧
      t.hi.perstN = false ∧ t.hi.bme = false ∧ t.dmaOk = false ∧ t.get CK_RSTCAUSE_PERST = 1 ∧
      0 ∈ t.sys.xNotice ∧ Frame s t [.hi, .staged, .sys] (fun y => regsIn 0x040000 0x060000 y ∨ y = CK_RSTCAUSE_PERST)) ∧
  (∀ s : State, RunsTo (exec .perstNRise s) fun t =>
      t.hi = { s.hi with perstN := true, perstRise := s.time } ∧ Frame s t [.hi] (fun _ => False)) ∧
  (∀ (s : State) (d3 bme : Bool), RunsTo (exec (.powerStateChange d3 bme) s) fun t =>
      t.hi = { s.hi with d3 := d3, bme := bme } ∧ (d3 ∨ bme = false → t.dmaOk = false) ∧
      Frame s t [.hi] (fun _ => False)) ∧
  (∀ (s : State) (width gen : BitVec 4), s.sys.tap.drives = false → RunsTo (exec (.linkChange width gen) s) fun t =>
      t.get HI_LINK_WIDTH = width.toNat ∧ t.get HI_LINK_GEN = gen.toNat ∧ t.hi.lastLink = some (width.toNat, gen.toNat) ∧
      (∀ l, s.hi.lastLink = some l → l ≠ (width.toNat, gen.toNat) →
        t.get HI_FLAGS_LINKCHG = 1 ∧ t.get HI_CNT1_LINKCHG = min (s.get HI_CNT1_LINKCHG + 1) 65535) ∧
      (∀ l, s.hi.lastLink = some l → l = (width.toNat, gen.toNat) → t.get HI_FLAGS_LINKCHG = s.get HI_FLAGS_LINKCHG) ∧
      Frame s t [.hi] (· ∈ [HI_LINK_WIDTH, HI_LINK_GEN, HI_FLAGS_LINKCHG, HI_CNT1_LINKCHG])) ∧
  (∀ s : State, RunsTo (exec .pcieLinkDown s) fun t =>
      t.get HI_LINK_WIDTH = 0 ∧ t.get HI_LINK_GEN = 0 ∧ t.dmaOk = false ∧
      Frame s t [] (· ∈ [HI_LINK_WIDTH, HI_LINK_GEN]))

/-! ### Chapter 15: resets, clocks, power and thermal -/

/-- R9, R131, R313, R314, R415, R418 to R420, R442: POR and RST_N return every register, plane and volatile memory to reset,
park every channel, sample MIRROR and keep the NVS; the boot begins and RSTCAUSE says which. The steps lock the PLL with
TIME 0, move the DAC targets to the clear codes, an uncorrectable word setting CALDEF, load the microcode from the sources
of MC_BOOT or read 0 as its version and CRC, and test the memories, a failing one marking its engine, in machine check, or
its group; the last re-arms the comparators, starts SMCLK and makes the device READY with its digest. -/
def Obligations.PowerOnBoot : Prop :=
  (∀ s : State, (RunsTo (exec .por s) fun t => t.get CK_RSTCAUSE_POR = 1 ∧ t.get CK_RSTCAUSE_RSTN = 0) ∧
    (RunsTo (exec .rstN s) fun t => t.get CK_RSTCAUSE_POR = 0 ∧ t.get CK_RSTCAUSE_RSTN = 1) ∧
    ∀ c ∈ [Instr.por, Instr.rstN], RunsTo (exec c s) fun t =>
      t.sys.mirror = s.sys.mirrorBall ∧ t.sys.mirrorBall = s.sys.mirrorBall ∧ t.on smRunning = false ∧ t.time = 0 ∧
      t.staged = [] ∧ t.die = [] ∧ t.cm = none ∧ t.ready = false ∧ t.get GL_STATUS_BOOT = 0 ∧
      t.get MC_STAT_STATE = mcLoading ∧ t.engines = State.reset.engines ∧ t.sn = State.reset.sn ∧
      (∀ g < 32, (t.group g).preCommit) ∧ t.sys.serial = s.sys.serial ∧ t.pending = s.pending ∧ t.out = s.out ∧
      (∀ r : Reg, r.addr ∉ [GL_STATUS.addr, CK_STAT.addr, CK_RSTCAUSE.addr, MC_STAT.addr, (CP_SM_STAT 0).addr] →
        t.word r = BitVec.ofNat 32 r.rst) ∧
      (∀ a, Memory.read t.mem a =
        if memNvs ≤ a ∧ a < nvsAddr 262144 then Memory.read s.mem a else memDefault a)) ∧
  (∀ (s : State) (ok : List Bool), s.get GL_STATUS_BOOT = 0 → RunsTo (exec (.boot ok) s) fun t =>
      t.time = 0 ∧ t.get CK_STAT_LOCK = 1 ∧ t.get GL_STATUS_BOOT = 1 ∧
      Frame s t [.time] (· ∈ [CK_STAT_LOCK, GL_STATUS_BOOT])) ∧
  (∀ (s : State) (ok : List Bool), s.get GL_STATUS_BOOT = 1 → (∀ g < 32, (s.group g).preCommit) →
    (∀ c ∈ s.mem, c.1 < memNvs ∨ nvsAddr 262144 ≤ c.1) → RunsTo (exec (.boot ok) s) fun t =>
      t.get GL_STATUS_BOOT = 2 ∧
      (∀ g p d, g < 32 → p < 16 → d < 6 → (t.dac g p d).tgt.toNat = s.get (LS_CLR_CODE g p d)) ∧
      (∀ g p, g < 32 → p < 16 → t.get (TD_ALIGN_A g p) = 0) ∧
      ((∃ k < 0x1100, ok.getD k true = false) → t.get GL_STATUS_CALDEF = 1 ∧ t.get NV_FLAGS_UNCORR = 1) ∧
      ((∀ k < 0x1100, ok.getD k true) → t.get GL_STATUS_CALDEF = s.get GL_STATUS_CALDEF ∧
        t.get NV_FLAGS_UNCORR = s.get NV_FLAGS_UNCORR) ∧
      Frame s t [.groups, .sys] (fun y => y ∈ [GL_STATUS_BOOT, GL_STATUS_CALDEF, NV_FLAGS_UNCORR, NV_CNT0_UNCORR,
        NV_LASTERR_ADDR] ∨ ∃ g, outField g y ∨ ∃ p, y = TD_ALIGN_A g p)) ∧
  (∀ (s : State) (ok : List Bool), s.get GL_STATUS_BOOT = 2 → s.get MC_STAT_STATE ≠ mcLoading →
    RunsTo (exec (.boot ok) s) fun t =>
      t.get GL_STATUS_BOOT = 3 ∧ t.get MC_STAT_STATE = s.get MC_STAT_STATE ∧ t.imgEntries = s.imgEntries) ∧
  (∀ (s : State) (ok : List Bool) (n : Fin 2), s.get GL_STATUS_BOOT = 2 → s.mcState = mcLoading → s.sys.mcTry = 0 →
    s.get MC_BOOT_SLOT = n →
    (s.get MC_BOOT_ORDER = 0 → imgCheck (s.slotWords n) = 0 → RunsTo (exec (.boot ok) s) fun t =>
      t.get GL_STATUS_BOOT = 3 ∧ t.mcState = mcLoaded ∧ t.get MC_STAT_SRC = n ∧ t.get MC_IMGSEL_SLOT = n ∧
      t.imgEntries = imgEntriesOf (s.slotWords n) ∧ t.get MC_IMAGE_CRC_CRC = imgCrcField (s.slotWords n)) ∧
    (s.get MC_BOOT_ORDER = 0 → s.sys.mcVerify = none → imgCheck (s.slotWords n) = 0 →
      RunsTo (exec (.imageCheckComplete (.slot n)) s) fun t =>
        t.get GL_STATUS_BOOT = 2 ∧ t.mcState = mcLoaded ∧ t.get MC_STAT_SRC = n ∧ t.get MC_IMGSEL_SLOT = n ∧
        t.imgEntries = imgEntriesOf (s.slotWords n)) ∧
    (s.get MC_BOOT_ORDER = 2 → RunsTo (exec (.boot ok) s) fun t =>
      t.get GL_STATUS_BOOT = 3 ∧ t.mcState = mcNoImage ∧ t.word MC_VERSION = 0 ∧ t.get MC_IMAGE_CRC_CRC = 0 ∧
      t.get MC_IMGSEL_SLOT = n ∧ t.imgEntries = s.imgEntries)) ∧
  (∀ (s : State) (ok : List Bool), s.get GL_STATUS_BOOT = 3 →
    (ok.all id → RunsTo (exec (.boot ok) s) fun t =>
      t.get GL_STATUS_BOOT = 4 ∧ Frame s t [] (· ∈ [GL_STATUS_BOOT])) ∧
    ((∀ e < 32, s.get (SQ_GANG_M e) = 0) → ok.all id = false → RunsTo (exec (.boot ok) s) fun t =>
      t.get GL_STATUS_BOOT = 4 ∧ t.get GL_STATUS_BISTFAIL = 1 ∧ t.get GL_FLAGS_BISTFAIL = 1 ∧
      (∀ e k, e < 32 → k < 5 → ok.getD (5 * e + k) true = false → t.bit GL_BIST_ENG_MAP e ∧ t.inMchk e) ∧
      (∀ g k, g < 32 → k < 4 → ok.getD (160 + 4 * g + k) true = false → t.bit GL_BIST_GRP_MAP g))) ∧
  (∀ (s : State) (ok : List Bool), s.get GL_STATUS_BOOT = 4 → RunsTo (exec (.boot ok) s) fun t =>
      t.ready ∧ t.get GL_STATUS_BOOT = 5 ∧ t.dg.plane = s.live ∧
      (∀ g p, g < 32 → p < 16 → t.bit (CP_STATUS_VALID g) p = false) ∧
      (s.on (CP_SM_CTL_RUN 0) → s.on (CP_SM_CTL_BURST 0) = false → t.on smRunning) ∧
      Frame s t [.dg, .groups, .sys, .free] (fun y => y ∈ [GL_STATUS_BOOT, GL_STATUS_READY, DG_FLAGS_DIGEST_MISMATCH,
        DG_CNT_MISMATCH, smRunning] ∨ y.reg = DG_STAT ∨ ∃ g, y.reg = CP_STATUS g ∨ y.reg = CP_STATE g ∨ violField g y))

/-- R37, R38, R371, R415, R416, R421, R423: a reset write while a commit runs only counts RSTBUSY, and a mask that splits
a gang RSTGANG. The reset of a group returns its registers to their Reset words and parks its channels until a commit;
memory, time and the sinks stay. The TP, AQ and SN resets return their registers and state. Loss of REFCLK is holdover,
which the discipline takes as a loss of TBREF with its error held; the return ends it. A side of a crossing that has reset
is noted by the other, which counts what it discards; while that side is out, what it discards more only adds up. -/
def Obligations.ScopedResets : Prop :=
  (∀ (s : State) (v : Word), s.cm ≠ none →
    (s.role ≠ roleActive → s.role ≠ roleShadow → RunsTo (exec (.groupReset v) s) fun t =>
      t.get GL_FLAGS_RSTBUSY = 1 ∧ t.get GL_CNT0_RSTBUSY = min (s.get GL_CNT0_RSTBUSY + 1) 65535 ∧
      Frame s t [] (· ∈ [GL_FLAGS_RSTBUSY, GL_CNT0_RSTBUSY])) ∧
    ∀ c ∈ [Instr.deviceResetTp, .deviceResetAq, .deviceResetSn], RunsTo (exec c s) fun t =>
      t.get GL_FLAGS_RSTBUSY = 1 ∧ t.get GL_CNT0_RSTBUSY = min (s.get GL_CNT0_RSTBUSY + 1) 65535 ∧
      Frame s t [] (· ∈ [GL_FLAGS_RSTBUSY, GL_CNT0_RSTBUSY])) ∧
  (∀ (s : State) (g : Fin 32) (v : Word), s.role ≠ roleActive → s.role ≠ roleShadow → s.cm = none → v.getLsbD g →
    (∃ m ∈ s.members g, v.getLsbD m = false) → RunsTo (exec (.groupReset v) s) fun t =>
      t.get GL_FLAGS_RSTGANG = 1 ∧ t.get GL_CNT0_RSTGANG = min (s.get GL_CNT0_RSTGANG + 1) 65535 ∧
      Frame s t [] (· ∈ [GL_FLAGS_RSTGANG, GL_CNT0_RSTGANG])) ∧
  (∀ (s : State) (g : Fin 32), s.role ≠ roleActive → s.role ≠ roleShadow → s.cm = none → s.get (SQ_GANG_M g) = 0 →
    s.planesOk → s.bootOk → RunsTo (exec (.groupReset (BitVec.ofNat 32 (2 ^ g.val))) s) fun t =>
      (∀ r : Reg, groupBase g ≤ r.addr → r.addr < groupBase g + 0xC000 → groupKept (r.addr - groupBase g) = false →
        r.addr ≠ (LS_PARKSTAT g).addr → r.addr ≠ (SQ_STAT g).addr → (∀ p < 16, r.addr ≠ (TD_ALIGN g p).addr) →
        t.word r = s.sys.boot.word r) ∧ (s.sys.cal = [] → ∀ p < 16, t.get (TD_ALIGN_A g p) = 0) ∧
      (t.group g).preCommit ∧ (∀ p < 16, t.parked g p) ∧ t.engine g = Engine.reset ∧
      (∀ c < 32, t.ctxState g c = .idle) ∧ t.get DG_STAT_STALE = 1 ∧
      Frame s t [.staged, .die, .groups, .engines, .store, .free, .sys] (fun y =>
        regsIn 0x70000 0x71000 y ∨ regsIn 0x100000 0x300000 y ∨ y = DG_STAT_STALE)) ∧
  (∀ s : State, s.cm = none → s.bootOk →
    (RunsTo (exec .deviceResetTp s) fun t =>
      t.phState = 0 ∧ t.get TP_STATUS_DIR = 0 ∧ (∀ i < 16, vget t.slotAt i none = none) ∧
      (∀ r : Reg, 0x010100 ≤ r.addr → r.addr < 0x010300 → t.word r = BitVec.ofNat 32 r.rst) ∧
      t.get DG_STAT_STALE = 1 ∧
      Frame s t [.tp, .slotAt, .staged] (fun y => regsIn 0x010020 0x01003C y ∨ regsIn 0x010050 0x010060 y ∨
        regsIn 0x010100 0x010300 y ∨ y ∈ [TP_STATUS_PH_STATE, TP_STATUS_DIR, DG_STAT_STALE])) ∧
    (RunsTo (exec .deviceResetAq s) fun t =>
      t.trigs = Vector.replicate 4 .reset ∧ t.trigOut = Vector.replicate 2 [] ∧
      (∀ r : Reg, 0x400000 ≤ r.addr → r.addr < 0x410000 → t.word r = BitVec.ofNat 32 r.rst) ∧
      t.get DG_STAT_STALE = 1 ∧
      Frame s t [.trigs, .trigOut, .staged] (fun y => regsIn 0x400000 0x410000 y ∨ y = DG_STAT_STALE)) ∧
    (RunsTo (exec .deviceResetSn s) fun t =>
      t.sn = .reset ∧ (∀ r : Reg, 0x024000 ≤ r.addr → r.addr < 0x028000 → t.word r = BitVec.ofNat 32 r.rst) ∧
      Frame s t [.sn, .staged] (fun y => regsIn 0x024000 0x028000 y))) ∧
  (∀ s : State, s.on CK_STAT_HOLDOVER = false → RunsTo (exec .refclkLoss s) fun t =>
      t.get CK_STAT_HOLDOVER = 1 ∧ t.get CK_FLAGS_REFLOSS = 1 ∧
      t.get CK_CNT0_REFLOSS = min (s.get CK_CNT0_REFLOSS + 1) 65535 ∧
      t.get TP_STATUS_TB_STATE = (if s.get TP_STATUS_TB_STATE = tbLocked then tbHoldover
        else if s.get TP_STATUS_TB_STATE = tbAcquire then tbFree else s.get TP_STATUS_TB_STATE) ∧
      (s.get TP_STATUS_TB_STATE = tbLocked → t.get TP_TBREF_TRIM_TRIM = s.get TP_TBREF_TRIM_TRIM) ∧
      Frame s t [.tp] (· ∈ [CK_STAT_HOLDOVER, CK_STAT_REFOK, CK_STAT_LOCK, CK_FLAGS_REFLOSS, CK_CNT0_REFLOSS,
        TP_STATUS_TB_STATE, TP_TBREF_TRIM_TRIM])) ∧
  (∀ (s : State) (tbref : Bool), s.on CK_STAT_HOLDOVER → RunsTo (exec (.refclkReturn tbref) s) fun t =>
      t.get CK_STAT_HOLDOVER = 0 ∧
      (s.on TP_TBREF_CTL_EN → tbref → t.get TP_STATUS_TB_STATE = tbAcquire ∧ t.get TP_TBREF_TRIM_TRIM =
        if s.get TP_STATUS_TB_STATE = tbFree then 0 else s.get TP_TBREF_TRIM_TRIM) ∧
      (s.on TP_TBREF_CTL_EN = false ∨ tbref = false → t.tp = s.tp ∧
        t.get TP_STATUS_TB_STATE = s.get TP_STATUS_TB_STATE) ∧
      Frame s t [.tp] (· ∈ [CK_STAT_HOLDOVER, CK_STAT_REFOK, CK_STAT_LOCK, TP_STATUS_TB_STATE, TP_TBREF_TRIM_TRIM])) ∧
  (∀ (s : State) (xid : Fin 8) (n : Nat),
    (xid.val ∈ s.sys.xNotice → RunsTo (exec (.crossingReset xid n) s) fun t =>
      t.get CK_XRESET_DROP_DROP = min (s.get CK_XRESET_DROP_DROP + n) (2 ^ 32 - 1) ∧ t.get CK_FLAGS_XRESET = 1 ∧
      t.get CK_CNT0_XRESET = min (s.get CK_CNT0_XRESET + 1) 65535 ∧ t.get CK_XRESET_LAST_XID = xid.val ∧
      xid.val ∉ t.sys.xNotice ∧
      Frame s t [.sys] (· ∈ [CK_XRESET_DROP_DROP, CK_FLAGS_XRESET, CK_CNT0_XRESET, CK_XRESET_LAST_XID])) ∧
    (xid.val ∉ s.sys.xNotice → s.crossingOut xid → RunsTo (exec (.crossingReset xid n) s) fun t =>
      t.get CK_XRESET_DROP_DROP = min (s.get CK_XRESET_DROP_DROP + n) (2 ^ 32 - 1) ∧
      Frame s t [] (· ∈ [CK_XRESET_DROP_DROP])) ∧
    (xid.val ∉ s.sys.xNotice → s.crossingOut xid = false → RunsTo (exec (.crossingReset xid n) s) fun t =>
      Frame s t [] (fun _ => False)))

/-- R246, R425 to R427, R430, R431: each sample moves a die's bucket, in 10^-12 A²·s from 0 to 4.7·10^12; a rise through
80 % warns, the top exhausts the die and parks its idle groups, two samples above 5 A at once all of it; it clears at half
under AUTO, or by OCLR, which is refused above. A temperature sets and clears WARN at 145.0 and 140.0 °C and trips at
150.0 °C, parking its groups and driving MCHK_N low; TCLR ends it below 140.0 °C. The keys unlock the store, 60 s without a
write lock it, allowed writes queue and are written one by one; the ledger goes to the older copy with its CRC. -/
def Obligations.GovernorsAndStore : Prop :=
  (∀ (s : State) (k : DieIx) (ma e : Nat), ma ≤ 5000 ∨ vget s.sys.burst k false = false →
    e = min ochMax (vget s.sys.bucket k 0 + ma * ma - 2250000) →
    (e < ochMax → e < ochWarn ∨ ochWarn ≤ vget s.sys.bucket k 0 → ¬(s.on TH_OCH_CTL_AUTO ∧ e ≤ ochHalf) →
      RunsTo (exec (.ochreSample k ma) s) fun t =>
        vget t.sys.bucket k 0 = e ∧ t.get (TH_OCH_B_LEVEL k) = ochLevel e ∧
        t.get (TH_OCH_B_PEAK k) = max (s.get (TH_OCH_B_PEAK k)) (ochLevel e) ∧ t.get (TH_OCH_I_I k) = min ma 65535 ∧
        t.bit TH_STAT_OWARN k = decide (ochWarn ≤ e) ∧
        Frame s t [.sys] (· ∈ [TH_OCH_B_LEVEL k, TH_OCH_B_PEAK k, TH_OCH_I_I k, TH_STAT_OWARN])) ∧
    (vget s.sys.bucket k 0 < ochWarn → ochWarn ≤ e → e < ochMax → vget s.sys.warned k false = false →
      RunsTo (exec (.ochreSample k ma) s) fun t =>
        vget t.sys.bucket k 0 = e ∧ t.get TH_FLAGS_OWARN = 1 ∧ t.get TH_CNT1_OWARN = min (s.get TH_CNT1_OWARN + 1) 65535 ∧
        vget t.sys.warned k false = true ∧
        Frame s t [.sys, .engines] (fun y => y ∈ [TH_OCH_B_LEVEL k, TH_OCH_B_PEAK k, TH_OCH_I_I k, TH_STAT_OWARN,
          TH_FLAGS_OWARN, TH_CNT1_OWARN] ∨ causeField y)) ∧
    (vget s.sys.bucket k 0 < ochMax → e = ochMax → RunsTo (exec (.ochreSample k ma) s) fun t =>
        t.bit TH_STAT_OEXH k ∧ t.get TH_FLAGS_OEXH = 1 ∧
        ∀ g p, g / 8 = k.val → p < 16 → s.issuing g = false → (s.group g).ochrePark = false → t.parked g p) ∧
    (s.on TH_OCH_CTL_AUTO → s.bit TH_STAT_OEXH k → e ≤ ochHalf → RunsTo (exec (.ochreSample k ma) s) fun t =>
        t.bit TH_STAT_OEXH k = false ∧ (∀ g, g / 8 = k.val → (t.group g).ochrePark = false) ∧
        Frame s t [.sys, .groups] (fun y => y ∈ [TH_OCH_B_LEVEL k, TH_OCH_B_PEAK k, TH_OCH_I_I k, TH_STAT_OWARN,
          TH_STAT_OEXH] ∨ ∃ g, y.reg = LS_PARKSTAT g))) ∧
  (∀ (s : State) (k : DieIx) (ma : Nat), 5000 < ma → vget s.sys.burst k false = true →
    (∀ g, g / 8 = k.val → (s.group g).ochrePark = false) → RunsTo (exec (.ochreSample k ma) s) fun t =>
      vget t.sys.bucket k 0 = ochMax ∧ t.get TH_FLAGS_OVERBURST = 1 ∧
      t.get TH_CNT2_OVERBURST = min (s.get TH_CNT2_OVERBURST + 1) 65535 ∧ t.bit TH_STAT_OEXH k ∧
      ∀ g p, g / 8 = k.val → p < 16 → t.parked g p) ∧
  (∀ (s : State) (k : DieIx) (v : Word), s.ready → s.on TH_OCH_CTL_AUTO = false → v.toNat % 16 = 2 ^ k.val →
    (vget s.sys.bucket k 0 ≤ ochHalf → RunsTo (exec (.oclr v) s) fun t =>
      t.bit TH_STAT_OEXH k = false ∧ (∀ g, g / 8 = k.val → (t.group g).ochrePark = false) ∧
      Frame s t [.groups] (fun y => y = TH_STAT_OEXH ∨ ∃ g, y.reg = LS_PARKSTAT g)) ∧
    (ochHalf < vget s.sys.bucket k 0 → RunsTo (exec (.oclr v) s) fun t =>
      t.get TH_FLAGS_OCLRREF = 1 ∧ t.get TH_CNT2_OCLRREF = min (s.get TH_CNT2_OCLRREF + 1) 65535 ∧
      Frame s t [] (· ∈ [TH_FLAGS_OCLRREF, TH_CNT2_OCLRREF]))) ∧
  (∀ (s : State) (k : Fin 5) (x : BitVec 16),
    (x.toInt < 1400 → RunsTo (exec (.tempSample k x) s) fun t =>
      t.get (TH_TEMP_TEMP k) = x.toNat ∧ t.bit TH_STAT_WARN k = false ∧
      Frame s t [.sys] (· ∈ [TH_TEMP_TEMP k, TH_STAT_WARN])) ∧
    (1400 ≤ x.toInt → x.toInt < 1450 → RunsTo (exec (.tempSample k x) s) fun t =>
      t.get (TH_TEMP_TEMP k) = x.toNat ∧ Frame s t [.sys] (· ∈ [TH_TEMP_TEMP k])) ∧
    (1450 ≤ x.toInt → x.toInt < 1500 → s.bit TH_STAT_WARN k = false → RunsTo (exec (.tempSample k x) s) fun t =>
      t.get (TH_TEMP_TEMP k) = x.toNat ∧ t.bit TH_STAT_WARN k ∧ t.get TH_FLAGS_TWARN = 1 ∧
      t.get TH_CNT0_TWARN = min (s.get TH_CNT0_TWARN + 1) 65535 ∧
      Frame s t [.sys] (· ∈ [TH_TEMP_TEMP k, TH_STAT_WARN, TH_FLAGS_TWARN, TH_CNT0_TWARN])) ∧
    (1500 ≤ x.toInt → s.bit TH_STAT_TRIP k = false → s.role ≠ roleActive → s.role ≠ roleShadow →
      RunsTo (exec (.tempSample k x) s) fun t =>
        t.bit TH_STAT_TRIP k ∧ t.get TH_FLAGS_TTRIP = 1 ∧ t.get TH_CNT0_TTRIP = min (s.get TH_CNT0_TTRIP + 1) 65535 ∧
        t.mchkLow ∧ (∀ g p, g < 32 → p < 16 → k.val = 0 ∨ k.val = g / 8 + 1 → t.parked g p) ∧
        Frame s t [.sys, .groups, .sn] (fun y => y ∈ [TH_TEMP_TEMP k, TH_STAT_WARN, TH_STAT_TRIP, TH_FLAGS_TWARN,
          TH_FLAGS_TTRIP, TH_CNT0_TWARN, TH_CNT0_TTRIP] ∨ ∃ g, y.reg = LS_PARKSTAT g))) ∧
  (∀ s : State, s.ready →
    ((∀ k < 5, s.tempOf k < 1400) → RunsTo (exec .tclr s) fun t =>
      t.get TH_STAT_TRIP = 0 ∧ Frame s t [.groups] (fun y => y = TH_STAT_TRIP ∨ ∃ g, y.reg = LS_PARKSTAT g)) ∧
    ((∃ k < 5, 1400 ≤ s.tempOf k) → RunsTo (exec .tclr s) fun t => Frame s t [] (fun _ => False))) ∧
  (∀ (s : State) (v : Word), s.ready →
    (v.toNat % 65536 = 0x4E56 → RunsTo (exec (.nvsUnlockWrite v) s) fun t =>
      t.sys = { s.sys with nvKey := some s.time } ∧ Frame s t [.sys] (fun _ => False)) ∧
    (∀ a, s.sys.nvKey = some a → v.toNat % 65536 = 0x0A11 → s.since a ≤ 1600000 → RunsTo (exec (.nvsUnlockWrite v) s) fun t =>
      t.get NV_STAT_UNLOCKED = 1 ∧ t.sys = { s.sys with nvKey := none, nvLast := s.time } ∧
      Frame s t [.sys] (· ∈ [NV_STAT_UNLOCKED])) ∧
    (∀ a, s.sys.nvKey = some a → 1600000 < s.since a → v.toNat % 65536 ≠ 0x4E56 →
      RunsTo (exec (.nvsUnlockWrite v) s) fun t =>
        t.sys = { s.sys with nvKey := none } ∧ Frame s t [.sys] (fun _ => False))) ∧
  (∀ s : State, s.on NV_STAT_UNLOCKED → usTclk 60000000 ≤ s.since s.sys.nvLast → RunsTo (exec .nvsLockTimeout s) fun t =>
      t.get NV_STAT_UNLOCKED = 0 ∧ t.get NV_CTL_WEN = 0 ∧ t.get NV_CTL_FACT = 0 ∧
      Frame s t [] (· ∈ [NV_STAT_UNLOCKED, NV_CTL_WEN, NV_CTL_FACT])) ∧
  (∀ (s : State) (off : BitVec 27) (b : BitVec 8) (w : Nat), s.ready → w < 262144 → off.toNat = nvsAddr w + 8 →
    s.hi.holdAddr = nvsAddr w →
    (s.nvAllowed w = false → RunsTo (exec (.bar2WriteHigh off b) s) fun t =>
      t.get NV_FLAGS_WPROT = 1 ∧ t.get NV_CNT1_WPROT = min (s.get NV_CNT1_WPROT + 1) 65535 ∧
      Frame s t [] (· ∈ [NV_FLAGS_WPROT, NV_CNT1_WPROT])) ∧
    (s.nvAllowed w → s.sys.nvQueue.length < 64 → RunsTo (exec (.bar2WriteHigh off b) s) fun t =>
      t.sys = { s.sys with nvLast := s.time, nvQueue := s.sys.nvQueue ++ [(w, b ++ s.hi.holdData)] } ∧
      t.get NV_STAT_QDEPTH = s.sys.nvQueue.length + 1 ∧ t.get NV_STAT_BUSY = 1 ∧
      (0x3C000 ≤ w → t.bit MC_VSTAT_VALID ((w - 0x3C000) / 0x2000) = false) ∧
      Frame s t [.sys] (· ∈ [NV_STAT_QDEPTH, NV_STAT_BUSY, MC_VSTAT_VALID])) ∧
    (s.nvAllowed w → 64 ≤ s.sys.nvQueue.length → RunsTo (exec (.bar2WriteHigh off b) s) fun t =>
      t.get NV_FLAGS_WDROP = 1 ∧ t.get NV_CNT1_WDROP = min (s.get NV_CNT1_WDROP + 1) 65535 ∧
      Frame s t [] (· ∈ [NV_FLAGS_WDROP, NV_CNT1_WDROP]))) ∧
  (∀ (s : State) (w : Nat) (v : Native) (rest : List (Nat × Native)), s.sys.nvQueue = (w, v) :: rest → rest.length < 64 →
    RunsTo (exec .nvsWordWrite s) fun t =>
      t.nvsWord w = v ∧ (∀ c, c < nvsAddr w ∨ nvsAddr w + 9 ≤ c → Memory.read t.mem c = Memory.read s.mem c) ∧
      t.sys = { s.sys with nvQueue := rest } ∧ t.get NV_STAT_QDEPTH = rest.length ∧
      (0x3C000 ≤ w → t.bit MC_VSTAT_VALID ((w - 0x3C000) / 0x2000) = false) ∧
      Frame s t [.mem, .sys] (· ∈ [NV_STAT_QDEPTH, NV_STAT_BUSY, MC_VSTAT_VALID])) ∧
  (∀ s : State, usTclk 60000000 ≤ s.since s.sys.ledgerAt → RunsTo (exec .ledgerWrite s) fun t =>
      (∃ b, (∀ x y, s.copySeq false = some x → s.copySeq true = some y → b = decide (y < x)) ∧
        t.copySeq b = some ((s.sys.ledgerSeq + 1) % 2 ^ 32) ∧
        nbits (t.nvsWord (ledgerCopy b)) 63 0 = (s.ledgerGet 0 + 1) % 2 ^ 64 ∧
        ∀ c, c < nvsAddr (ledgerCopy b) ∨ nvsAddr (ledgerCopy b + 0x1000) ≤ c → Memory.read t.mem c = Memory.read s.mem c) ∧
      t.sys.ledgerAt = s.time ∧ Frame s t [.mem, .sys] (fun _ => False))

/-! ### Chapters 14 and 17: SMBus, SPI and the test access port -/

/-- R411, R413: from the end of boot step NVS the SMBus target answers with the value of a command, its low byte to a
read-byte, 0xFF or 0xFFFF to an unlisted one; before, with a NAK. ALERTCLR and the Alert Response Address release
ALERT_N. An SPI GO sends the command, address and data bytes and is BUSY until the transaction ends, which stores the
bytes read; a GO while BUSY sends nothing. R457 to R460: each TAP instruction is selected; EXTEST, its two forms and
SAMPLE/PRELOAD shift the pins out and the register in, and IDCODE the identification. EXTEST, HIGHZ and CLAMP take the
covered outputs from function, to the register's cells (which level of a control cell drives is free, log entry 156) or to
high impedance: the PCIe link is down and the ports that were UP retrain; memory, time, engines and groups go on. -/
def Obligations.BoardPorts : Prop :=
  (∀ (s : State) (w : Bool), 2 ≤ s.get GL_STATUS_BOOT →
    (∀ k : Fin 5, RunsTo (exec (.smbTemp k w) s) fun t =>
      Sends s t (.smbus (some (BitVec.ofNat 16 (if w then s.get (TH_TEMP_TEMP k) else s.get (TH_TEMP_TEMP k) % 256)))) ∧
      Frame s t [] (fun _ => False)) ∧
    (RunsTo (exec (.smbStatus w) s) fun t =>
      Sends s t (.smbus (some (BitVec.ofNat 16 s.smbStatus))) ∧ Frame s t [] (fun _ => False)) ∧
    (RunsTo (exec (.smbAlertclr w) s) fun t =>
      Sends s t (.smbus (some (BitVec.ofNat 16 s.smbStatus))) ∧ t.hi.alertN ∧ Frame s t [] (fun _ => False)) ∧
    (RunsTo (exec (.smbVid w) s) fun t =>
      Sends s t (.smbus (some (BitVec.ofNat 16 (if w then s.get HI_ID_VENDOR else s.get HI_ID_VENDOR % 256)))) ∧
      Frame s t [] (fun _ => False)) ∧
    (RunsTo (exec (.smbDid w) s) fun t =>
      Sends s t (.smbus (some (BitVec.ofNat 16 (if w then s.get HI_ID_DEVID else s.get HI_ID_DEVID % 256)))) ∧
      Frame s t [] (fun _ => False)) ∧
    (RunsTo (exec (.smbSvid w) s) fun t =>
      Sends s t (.smbus (some (BitVec.ofNat 16 (if w then s.get HI_SUBID_SUBVEN else s.get HI_SUBID_SUBVEN % 256)))) ∧
      Frame s t [] (fun _ => False)) ∧
    (RunsTo (exec (.smbSsid w) s) fun t =>
      Sends s t (.smbus (some (BitVec.ofNat 16 (if w then s.get HI_SUBID_SUBSYS else s.get HI_SUBID_SUBSYS % 256)))) ∧
      Frame s t [] (fun _ => False)) ∧
    (RunsTo (exec (.smbRevid w) s) fun t => Sends s t (.smbus (some 0xB0)) ∧ Frame s t [] (fun _ => False)) ∧
    (∀ k : Fin 4, RunsTo (exec (.smbSerial k w) s) fun t =>
      Sends s t (.smbus (some (if w then s.sys.serial.extractLsb' (16 * k.val) 16
        else (s.sys.serial.extractLsb' (16 * k.val) 8).setWidth 16))) ∧ Frame s t [] (fun _ => False)) ∧
    (∀ c : BitVec 8, ¬(c.toNat ≤ 4 ∨ c.toNat ∈ [8, 9, 0x10, 0x11, 0x12, 0x13, 0x14] ∨ 0x18 ≤ c.toNat ∧ c.toNat ≤ 0x1B) →
      RunsTo (exec (.smbUnlisted c w) s) fun t =>
        Sends s t (.smbus (some (if w then 0xFFFF else 0xFF))) ∧ Frame s t [] (fun _ => False)) ∧
    (s.hi.alertN = false → RunsTo (exec .smbAlertResponse s) fun t =>
      Sends s t (.smbus (some (BitVec.ofNat 16 (2 * s.get HI_SMB_ADDR)))) ∧ t.hi.alertN ∧
      Frame s t [] (fun _ => False))) ∧
  (∀ (s : State) (k : Fin 5) (w : Bool), s.get GL_STATUS_BOOT < 2 → RunsTo (exec (.smbTemp k w) s) fun t =>
      Sends s t (.smbus none) ∧ Frame s t [] (fun _ => False)) ∧
  (∀ (s : State) (v : Word), s.ready → v.getLsbD 31 → fieldOf v 27 24 ≤ 8 → s.get MC_STAT_STATE ≠ 1 →
    (s.on HI_SPI_CTL_BUSY = false → RunsTo (exec (.spiGo v) s) fun t =>
      t.get HI_SPI_CTL_BUSY = 1 ∧ t.hi.spi = some (fieldOf v 27 24, v.getLsbD 8) ∧
      { t.hi with spi := s.hi.spi } = s.hi ∧
      Sends s t (.spi ([v.setWidth 8] ++
        (if v.getLsbD 9 then [BitVec.ofNat 8 (s.get HI_SPI_ADDR_ADDR / 65536), BitVec.ofNat 8 (s.get HI_SPI_ADDR_ADDR / 256),
          BitVec.ofNat 8 (s.get HI_SPI_ADDR_ADDR)] else []) ++
        (if v.getLsbD 8 then [] else (List.range (fieldOf v 27 24)).map s.spiByte))) ∧
      Frame s t [.hi] (fun y => y.reg = HI_SPI_CTL)) ∧
    (s.on HI_SPI_CTL_BUSY → RunsTo (exec (.spiGo v) s) fun t =>
      t.out = s.out ∧ Frame s t [] (· ∈ [HI_SPI_CTL_NDATA, HI_SPI_CTL_ADDREN, HI_SPI_CTL_READ, HI_SPI_CTL_CMD]))) ∧
  (∀ (s : State) (rd : List (BitVec 8)) (n : Nat), s.hi.spi = some (n, true) → n ≤ 8 → rd.length = n →
    RunsTo (exec (.spiDone rd) s) fun t =>
      t.get HI_SPI_CTL_BUSY = 0 ∧ t.hi = { s.hi with spi := none } ∧ (∀ k < n, t.spiByte k = rd.getD k 0) ∧
      Frame s t [.hi] (fun y => y = HI_SPI_CTL_BUSY ∨ y.reg = HI_SPI_D0 ∨ y.reg = HI_SPI_D1)) ∧
  (∀ s : State,
    (RunsTo (exec .tapReset s) fun t =>
      t.sys = { s.sys with tap := .idcode } ∧ t.scanOutputs = none ∧ Frame s t [.sys] (fun _ => False)) ∧
    (RunsTo (exec .bypass s) fun t =>
      t.sys = { s.sys with tap := .bypass } ∧ t.scanOutputs = none ∧ Frame s t [.sys] (fun _ => False)) ∧
    (2 ≤ s.get GL_STATUS_BOOT → RunsTo (exec .idcode s) fun t =>
      t.sys = { s.sys with tap := .idcode } ∧ Sends s t (.tdo (BitVec.ofNat 89 (0x17512001 + 2 * s.sys.manuf.toNat))) ∧
      Frame s t [.sys] (fun _ => False)) ∧
    (s.get GL_STATUS_BOOT < 2 → RunsTo (exec .idcode s) fun t => Sends s t (.tdo 0x17512001))) ∧
  (∀ (s : State) (pins load : BitVec 89), RunsTo (exec (.samplePreload pins load) s) fun t =>
      t.sys = { s.sys with tap := .sample, bsr := load } ∧ Sends s t (.tdo pins) ∧ t.scanOutputs = none ∧
      Frame s t [.sys] (fun _ => False)) ∧
  (∀ (s : State) (pins load : BitVec 89), ∀ c ∈ [Instr.extest pins load, .extestPulse pins load, .extestTrain pins load],
    RunsTo (exec c s) fun t =>
      t.sys.bsr = load ∧ t.sys.tap.drives ∧ Sends s t (.tdo pins) ∧ t.scanOutputs = some (some load) ∧
      (∀ row col f, t.outputBall row col f = if scanBit load row col .control = Config.scanDrive then
        some (scanBit load row col .data) else none) ∧
      t.get HI_LINK_WIDTH = 0 ∧ (∀ x < 4, s.portUp x → t.portState x = portRetrain) ∧
      Frame s t [.sys, .cl, .tw] (fun y => y.reg = HI_LINK ∨ ∃ x, y.reg = CL_P_STAT x ∨ y = CL_P_TRAIN_RETRAIN x)) ∧
  (∀ s : State,
    (RunsTo (exec .highz s) fun t =>
      t.sys = { s.sys with tap := .highz } ∧ t.scanOutputs = some none ∧ (∀ row col f, t.outputBall row col f = none) ∧
      t.get HI_LINK_WIDTH = 0 ∧
      (∀ x < 4, s.portUp x → t.portState x = portRetrain) ∧
      Frame s t [.sys, .cl, .tw] (fun y => y.reg = HI_LINK ∨ ∃ x, y.reg = CL_P_STAT x ∨ y = CL_P_TRAIN_RETRAIN x)) ∧
    (RunsTo (exec .clampTap s) fun t =>
      t.sys = { s.sys with tap := .clamp } ∧ t.scanOutputs = some (some s.sys.bsr) ∧ t.get HI_LINK_WIDTH = 0 ∧
      (∀ x < 4, s.portUp x → t.portState x = portRetrain) ∧
      Frame s t [.sys, .cl, .tw] (fun y => y.reg = HI_LINK ∨ ∃ x, y.reg = CL_P_STAT x ∨ y = CL_P_TRAIN_RETRAIN x)))

/-! ### The whole machine -/

/-- R393: a read of the first register of a group returns it and copies the others into the latch; a later read of one of
them returns the latch and leaves it. A read over Cleif uses the same latch. -/
def Obligations.CoherentReads : Prop :=
  ∀ (s : State) (a : BitVec 24) (n : RegName) (ix : List Nat), s.ready → a.toNat < 0x800000 → a.toNat % 4 = 0 →
    regAt a.toNat = some (n, ix) →
    (n.latches ≠ [] →
      (RunsTo (exec (.coherentRead ⟨a, 4⟩) s) fun t =>
        Sends s t (.readData ((s.regView n ix).setWidth 64)) ∧
        ∀ m ∈ n.latches, t.hi.latch.word (m.reg ix) = s.regView m ix) ∧
      (∀ (dev : BitVec 10) (tag : BitVec 7) (v : Word), RunsTo (exec (.rraRequestReceive dev false tag a v) s) fun t =>
        ∀ m ∈ n.latches, t.hi.latch.word (m.reg ix) = s.regView m ix)) ∧
    (n ∈ latchedRegs →
      (RunsTo (exec (.coherentRead ⟨a, 4⟩) s) fun t =>
        Sends s t (.readData ((s.hi.latch.word (n.reg ix)).setWidth 64)) ∧ t.hi.latch = s.hi.latch) ∧
      (∀ (dev : BitVec 10) (tag : BitVec 7) (v : Word) (x : Fin 4), s.routeTo dev.toNat = some x.val →
        (s.port x).queue = [] → RunsTo (exec (.rraRequestReceive dev false tag a v) s) fun t =>
          t.hi.latch = s.hi.latch ∧ (t.port x).queue =
            [Packet.make 2 dev.toNat s.devNum 0 (tag.toNat * 2 ^ 32 + (s.hi.latch.word (n.reg ix)).toNat) []]))

/-- R409: the completion of a descriptor of ring r, or of a queue of ring r, sets bit r of HI_RDONE if its INT is 1 or the
ring's IALL is 1, and advances HEAD. -/
def Obligations.DescriptorCompletes : Prop :=
  ∀ (s : State) (x : RingIx) (int : Bool),
    (s.completeDesc x int).bit HI_RDONE_DONE (ringNumber x) =
      (s.bit HI_RDONE_DONE (ringNumber x) || int || s.on (ringIall x)) ∧
    (∀ b < 8, b ≠ ringNumber x → (s.completeDesc x int).bit HI_RDONE_DONE b = s.bit HI_RDONE_DONE b) ∧
    (s.completeDesc x int).get (ringHead x) = (s.get (ringHead x) + 1) % 2 ^ 32 ∧
    Frame s (s.completeDesc x int) [] (· ∈ [ringHead x, HI_RDONE_DONE])

/-- R410, R411: what follows a change of the flags. A vector of an enabled cause that rose gets one message, or its PBA bit
while it is masked; no other vector does. ALERT_N falls when one of bits 1 to 4 of STATUS rises. Unmasking a vector whose
PBA bit is 1 sends its message. -/
def Obligations.Interrupts : Prop :=
  (∀ (s t : State) (v : Nat), v < 64 →
    ((∃ b < 29, t.bit HI_IMASK_MASK b ∧ t.causeBit b ∧ s.causeBit b = false ∧ t.imapV b = v) →
      (t.on (MSIX_VCTL_MASK v) = false → (settle s t).out.count (.msix v) = t.out.count (.msix v) + 1 ∧
        (settle s t).bit (MSIX_PBA_PEND (v / 32)) (v % 32) = t.bit (MSIX_PBA_PEND (v / 32)) (v % 32)) ∧
      (t.on (MSIX_VCTL_MASK v) → (settle s t).out.count (.msix v) = t.out.count (.msix v) ∧
        (settle s t).bit (MSIX_PBA_PEND (v / 32)) (v % 32))) ∧
    ((∀ b < 29, t.bit HI_IMASK_MASK b → t.causeBit b → t.imapV b = v → s.causeBit b) →
      (settle s t).out.count (.msix v) = t.out.count (.msix v) ∧
      (settle s t).bit (MSIX_PBA_PEND (v / 32)) (v % 32) = t.bit (MSIX_PBA_PEND (v / 32)) (v % 32))) ∧
  (∀ s t : State, (settle s t).hi.alertN =
    (t.hi.alertN && !([1, 2, 3, 4].any fun i => t.smbStatus.testBit i && !s.smbStatus.testBit i))) ∧
  (∀ (s : State) (k : Fin 64) (v : Word), s.ready → v.getLsbD 0 = false →
    s.bit (MSIX_PBA_PEND (k.val / 32)) (k.val % 32) →
    RunsTo (exec (.registerWrite (BitVec.ofNat 24 (MSIX_VCTL k).addr) ⟨4, v⟩) s) fun t =>
      t.on (MSIX_VCTL_MASK k) = false ∧ t.bit (MSIX_PBA_PEND (k.val / 32)) (k.val % 32) = false ∧
      t.out = .msix k.val :: s.out ∧ Frame s t [] (· ∈ [MSIX_VCTL_MASK k]))

/-- R374, R375, R417: on the ACTIVE member a write of a register that is forwarded, or of a store, changes nothing yet: it
goes over T and is due at w + 3,200; on the SHADOW it only counts SHWR. -/
def Obligations.MirroredWrites : Prop :=
  (∀ (s : State) (a : BitVec 24) (v : Word) (n : RegName) (ix : List Nat), s.ready → a.toNat < 0x800000 →
    a.toNat % 4 = 0 → a.toNat ≠ CL_RRA_CMD.addr → regAt a.toNat = some (n, ix) → n.forwarded ix →
    (s.role = roleActive → RunsTo (exec (.registerWrite a ⟨4, v⟩) s) fun t =>
      t.tw = { s.tw with mirror := s.tw.mirror ++ [(later s.time 3200, .reg a v)] } ∧
      Sends s t (.link 3 (.write s.time (.reg a v))) ∧ Frame s t [.tw] (fun _ => False)) ∧
    (s.role = roleShadow → RunsTo (exec (.registerWrite a ⟨4, v⟩) s) fun t =>
      t.get TW_FLAGS_SHWR = 1 ∧ t.get TW_CNT2_SHWR = min (s.get TW_CNT2_SHWR + 1) 65535 ∧
      Frame s t [] (· ∈ [TW_FLAGS_SHWR, TW_CNT2_SHWR]))) ∧
  (∀ (s : State) (off : BitVec 27) (b : BitVec 8), s.ready → bar2Region off.toNat = .store → off.toNat % 16 = 8 →
    s.hi.holdAddr = off.toNat - 8 →
    (s.role = roleActive → RunsTo (exec (.bar2WriteHigh off b) s) fun t =>
      t.tw = { s.tw with mirror := s.tw.mirror ++ [(later s.time 3200, .mem (off.toNat - 8) (b ++ s.hi.holdData))] } ∧
      Sends s t (.link 3 (.write s.time (.mem (off.toNat - 8) (b ++ s.hi.holdData)))) ∧
      Frame s t [.tw] (fun _ => False)) ∧
    (s.role = roleShadow → RunsTo (exec (.bar2WriteHigh off b) s) fun t =>
      t.get TW_FLAGS_SHWR = 1 ∧ t.get TW_CNT2_SHWR = min (s.get TW_CNT2_SHWR + 1) 65535 ∧
      Frame s t [] (· ∈ [TW_FLAGS_SHWR, TW_CNT2_SHWR])))

/-- Every command answers a next state and leaves the commands behind it; none stops the block. While none waits, a step
lets one TCLK pass (R33; that it does so is the model's choice, log entry 2): once the PLL has locked TIME is incremented by
1 modulo 2^56, and no memory byte, no staged register and no commit changes. -/
def Obligations.EveryStepRuns : Prop :=
  (∀ (c : Instr) (s : State), RunsTo (exec c s) fun t => t.pending = s.pending) ∧
  (∀ s : State, s.pending = [] → RunsTo (step s) fun t =>
    t.time = (if s.get GL_STATUS_BOOT = 0 then s.time else s.time + 1) ∧ t.mem = s.mem ∧ t.staged = s.staged ∧ t.die = s.die ∧ t.cm = s.cm ∧ t.pending = [])

/-- R9, R33, R106, R418: the state at READY: every register at its Reset word in both planes, TIME 0 (the model's, log
entry 1), the channels in PARK, nothing waiting or running; and the forms that every step keeps. -/
def Obligations.ResetState : Prop :=
  State.reset.ready ∧ State.reset.get GL_STATUS_BOOT = 5 ∧ State.reset.time = 0 ∧
  (∀ r : Reg, State.reset.word r = BitVec.ofNat 32 r.rst ∧ State.reset.stagedWord r = BitVec.ofNat 32 r.rst) ∧
  (∀ g p, g < 32 → p < 16 → State.reset.parked g p) ∧ (∀ e c, e < 32 → c < 32 → State.reset.ctxState e c = .idle) ∧
  (∀ a, Memory.read State.reset.mem a = memDefault a) ∧ State.reset.cm = none ∧ State.reset.pending = [] ∧
  State.reset.memOk ∧ State.reset.planesOk ∧ State.reset.bootOk

/-- Every step keeps the memory in its canonical form (the model's, log entry 3): equal memories are equal data. -/
def Obligations.MemoryStaysCanonical : Prop := ∀ s : State, s.memOk → RunsTo (step s) State.memOk

/-- Every step keeps the register planes listed by rising addresses (the model's form, log entry 4), and the words kept by
the boot those of R429. -/
def Obligations.PlanesStayRising : Prop :=
  ∀ s : State, s.planesOk → s.bootOk → RunsTo (step s) fun t => t.planesOk ∧ t.bootOk

end Statements
end

