-- ==== Sys2Proof/Laws/Reg.lean ====
section
/-! SUPPORT. Reading after writing a field, a register word and a register plane; the planes' canonical form. -/

namespace Sys2Proof.Machine

/-! ### Fields of a word (R2) -/

theorem fieldOf_lt (w : Word) (hi lo : Nat) : fieldOf w hi lo < 2 ^ (hi + 1 - lo) := Nat.mod_lt _ (Nat.two_pow_pos _)

/-- The three parts of a rewritten word do not overlap. -/
theorem withField_toNat (w : Word) (hi lo v : Nat) (h : lo ≤ hi) (h32 : hi < 32) :
    (withField w hi lo v).toNat =
      w.toNat / 2 ^ (hi + 1) * 2 ^ (hi + 1) + v % 2 ^ (hi + 1 - lo) * 2 ^ lo + w.toNat % 2 ^ lo := by
  have e : (2 : Nat) ^ (hi + 1) = 2 ^ (hi + 1 - lo) * 2 ^ lo := by rw [← pow_add]; congr 1; omega
  have a : v % 2 ^ (hi + 1 - lo) + 1 ≤ 2 ^ (hi + 1 - lo) := Nat.mod_lt _ (Nat.two_pow_pos _)
  have b : w.toNat % 2 ^ lo < 2 ^ lo := Nat.mod_lt _ (Nat.two_pow_pos _)
  have c := Nat.mul_le_mul_right (2 ^ lo) a
  have d : v % 2 ^ (hi + 1 - lo) * 2 ^ lo + w.toNat % 2 ^ lo < 2 ^ (hi + 1) := by rw [e]; linarith [Nat.add_mul (v % 2 ^ (hi + 1 - lo)) 1 (2 ^ lo)]
  have f : (2 : Nat) ^ 32 = 2 ^ (31 - hi) * 2 ^ (hi + 1) := by rw [← pow_add]; congr 1; omega
  have g : w.toNat / 2 ^ (hi + 1) + 1 ≤ 2 ^ (31 - hi) := by
    have := w.isLt
    rw [f] at this
    exact Nat.div_lt_of_lt_mul (by rwa [Nat.mul_comm])
  have k := Nat.mul_le_mul_right (2 ^ (hi + 1)) g
  simp only [withField, BitVec.toNat_ofNat]
  apply Nat.mod_eq_of_lt
  rw [f]
  linarith [Nat.add_mul (w.toNat / 2 ^ (hi + 1)) 1 (2 ^ (hi + 1))]

/-- A field reads as written, modulo its range. -/
theorem fieldOf_withField (w : Word) (hi lo v : Nat) (h : lo ≤ hi) (h32 : hi < 32) :
    fieldOf (withField w hi lo v) hi lo = v % 2 ^ (hi + 1 - lo) := by
  have e : (2 : Nat) ^ (hi + 1) = 2 ^ lo * 2 ^ (hi + 1 - lo) := by rw [← pow_add]; congr 1; omega
  have b : w.toNat % 2 ^ lo < 2 ^ lo := Nat.mod_lt _ (Nat.two_pow_pos _)
  rw [fieldOf, withField_toNat w hi lo v h h32]
  have s : w.toNat / 2 ^ (hi + 1) * 2 ^ (hi + 1) + v % 2 ^ (hi + 1 - lo) * 2 ^ lo + w.toNat % 2 ^ lo
      = w.toNat % 2 ^ lo + 2 ^ lo * (v % 2 ^ (hi + 1 - lo) + 2 ^ (hi + 1 - lo) * (w.toNat / 2 ^ (hi + 1))) := by
    rw [e]; ring
  rw [s, Nat.add_mul_div_left _ _ (Nat.two_pow_pos lo), Nat.div_eq_of_lt b, Nat.zero_add, Nat.add_mul_mod_self_left,
    Nat.mod_mod]

/-- A field below bit n is a field of the number modulo 2^n. -/
theorem field_mod (x hi lo n : Nat) (h : hi < n) :
    x % 2 ^ n / 2 ^ lo % 2 ^ (hi + 1 - lo) = x / 2 ^ lo % 2 ^ (hi + 1 - lo) := by
  rcases Nat.lt_or_ge hi lo with g | g
  · have z : hi + 1 - lo = 0 := by omega
    rw [z, pow_zero, Nat.mod_one, Nat.mod_one]
  · have e : (2 : Nat) ^ n = 2 ^ lo * 2 ^ (n - lo) := by rw [← pow_add]; congr 1; omega
    rw [e, Nat.mod_mul_right_div_self, Nat.mod_mod_of_dvd _ (pow_dvd_pow 2 (by omega))]

/-- A field at or above bit n is a field of the number divided by 2^n. -/
theorem field_div (x hi lo n : Nat) (h : n ≤ lo) :
    x / 2 ^ n / 2 ^ (lo - n) % 2 ^ (hi + 1 - lo) = x / 2 ^ lo % 2 ^ (hi + 1 - lo) := by
  rw [Nat.div_div_eq_div_mul, ← pow_add, Nat.add_sub_cancel' h]

/-- A field that shares no bit with the written one keeps its value. -/
theorem fieldOf_withField_apart (w : Word) (hi lo v hi' lo' : Nat) (h : lo ≤ hi) (h32 : hi < 32)
    (a : hi' < lo ∨ hi < lo') : fieldOf (withField w hi lo v) hi' lo' = fieldOf w hi' lo' := by
  have e : (2 : Nat) ^ (hi + 1) = 2 ^ lo * 2 ^ (hi + 1 - lo) := by rw [← pow_add]; congr 1; omega
  have b : w.toNat % 2 ^ lo < 2 ^ lo := Nat.mod_lt _ (Nat.two_pow_pos _)
  have c : v % 2 ^ (hi + 1 - lo) < 2 ^ (hi + 1 - lo) := Nat.mod_lt _ (Nat.two_pow_pos _)
  simp only [fieldOf]
  rcases a with a | a
  · rw [← field_mod _ _ _ lo a, ← field_mod w.toNat _ _ lo a]
    congr 2
    rw [withField_toNat w hi lo v h h32, e,
      show ∀ p q r k m : Nat, p * (m * k) + q * m + r = r + m * (p * k + q) by intros; ring,
      Nat.add_mul_mod_self_left, Nat.mod_mod]
  · rw [← field_div _ _ _ (hi + 1) a, ← field_div w.toNat _ _ (hi + 1) a]
    congr 2
    rw [withField_toNat w hi lo v h h32,
      show ∀ p q r k m : Nat, p * k + q * m + r = q * m + r + k * p by intros; ring,
      Nat.add_mul_div_left _ _ (Nat.two_pow_pos _), Nat.div_eq_of_lt, Nat.zero_add]
    have d := Nat.mul_le_mul_right (2 ^ lo) c
    rw [e]
    linarith [Nat.add_mul (v % 2 ^ (hi + 1 - lo)) 1 (2 ^ lo), Nat.mul_comm (2 ^ lo) (2 ^ (hi + 1 - lo))]

/-! ### A register plane -/


theorem RegFile.find_drop_self (f : RegFile) (a : Nat) : (f.drop a).find a = none := by
  simp [RegFile.find, RegFile.drop, List.find?_filter]

theorem RegFile.find_drop_ne (f : RegFile) (a b : Nat) (h : b ≠ a) : (f.drop a).find b = f.find b := by
  simp only [RegFile.find, RegFile.drop, List.find?_filter]
  congr 2
  funext x
  by_cases e : x.1 = b <;> simp [e, h]

theorem RegFile.find_put_self (f : RegFile) (a : Nat) (w : Word) : (f.put a w).find a = some w := by
  have n : (f.filter (·.1 < a)).find? (·.1 == a) = none := by
    simp only [List.find?_eq_none, List.mem_filter, decide_eq_true_eq, beq_iff_eq]
    omega
  simp [RegFile.find, RegFile.put, List.find?_append, n]

theorem RegFile.find_put_ne (f : RegFile) (a b : Nat) (w : Word) (h : b ≠ a) : (f.put a w).find b = f.find b := by
  have k : ∀ p : Nat × Word → Bool, (∀ x, x.1 = b → p x = true) →
      (f.filter p).find? (·.1 == b) = f.find? (·.1 == b) := by
    intro p hp
    rw [List.find?_filter]
    congr 1
    funext x
    by_cases e : x.1 = b
    · simp [e, hp x e]
    · simp [e]
  have z : ∀ p : Nat × Word → Bool, (∀ x, x.1 = b → p x = false) → (f.filter p).find? (·.1 == b) = none := by
    intro p hp
    simp only [List.find?_eq_none, List.mem_filter, beq_iff_eq]
    rintro x ⟨_, hx⟩ e
    simp [hp x e] at hx
  have a' : (a == b) = false := by simpa using Ne.symm h
  simp only [RegFile.find, RegFile.put, List.find?_append, List.find?_cons, a']
  rcases Nat.lt_or_gt_of_ne h with g | g
  · rw [k _ (by simp; omega), z _ (by simp; omega)]
    simp
  · rw [z _ (by simp; omega), k _ (by simp; omega)]
    simp

/-- A register reads as written. -/
theorem RegFile.word_setWord (f : RegFile) (r : Reg) (w : Word) : (f.setWord r w).word r = w := by
  unfold RegFile.setWord RegFile.word
  split
  · next h => rw [find_drop_self, h]; rfl
  · rw [find_put_self]; rfl

/-- Another register is unchanged. -/
theorem RegFile.word_setWord_ne (f : RegFile) (r q : Reg) (w : Word) (h : r.addr ≠ q.addr) :
    (f.setWord r w).word q = f.word q := by
  unfold RegFile.setWord RegFile.word
  split
  · rw [find_drop_ne _ _ _ h.symm]
  · rw [find_put_ne _ _ _ _ h.symm]

theorem RegFile.find_setWord_ne (f : RegFile) (r : Reg) (b : Nat) (w : Word) (h : b ≠ r.addr) :
    (f.setWord r w).find b = f.find b := by
  unfold RegFile.setWord
  split
  · rw [find_drop_ne _ _ _ h]
  · rw [find_put_ne _ _ _ _ h]

/-- A field reads as written, modulo its range. -/
theorem RegFile.get_set (f : RegFile) (x : Fld) (v : Nat) (h : x.inWord) :
    (f.set x v).get x = v % 2 ^ (x.hi + 1 - x.lo) := by
  rw [RegFile.get, RegFile.set, word_setWord, fieldOf_withField _ _ _ _ h.1 h.2]

/-- A field apart from the written one is unchanged. -/
theorem RegFile.get_set_apart (f : RegFile) (x y : Fld) (v : Nat) (h : x.inWord) (a : x.apart y) :
    (f.set x v).get y = f.get y := by
  unfold RegFile.get RegFile.set
  rcases a with a | ⟨e, a⟩
  · rw [word_setWord_ne _ _ _ _ a]
  · rw [e, word_setWord, fieldOf_withField_apart _ _ _ _ _ _ h.1 h.2 (by omega)]

/-! ### The planes keep their form -/

theorem RegFile.drop_rising (f : RegFile) (a : Nat) (h : f.rising) : (f.drop a).rising := h.filter _

theorem RegFile.put_rising (f : RegFile) (a : Nat) (w : Word) (h : f.rising) : (f.put a w).rising := by
  unfold RegFile.rising RegFile.put
  rw [List.pairwise_append, List.pairwise_cons]
  refine ⟨h.filter _, ⟨?_, h.filter _⟩, ?_⟩
  · intro x hx
    simp at hx
    exact hx.2
  · intro x hx y hy
    simp at hx hy
    rcases hy with rfl | hy
    · exact hx.2
    · exact hx.2.trans hy.2

theorem RegFile.setWord_rising (f : RegFile) (r : Reg) (w : Word) (h : f.rising) : (f.setWord r w).rising := by
  unfold RegFile.setWord
  split
  · exact drop_rising _ _ h
  · exact put_rising _ _ _ h

theorem RegFile.set_rising (f : RegFile) (x : Fld) (v : Nat) (h : f.rising) : (f.set x v).rising := setWord_rising _ _ _ h

theorem RegFile.clearRange_rising (f : RegFile) (a b : Nat) (h : f.rising) : (f.clearRange a b).rising := h.filter _

/-- Whatever the other plane is. -/
theorem RegFile.copyRange_rising (f g : RegFile) (a b : Nat) (h : f.rising) : (f.copyRange g a b).rising := by
  have put : ∀ (l : RegFile) (f : RegFile), f.rising → (l.foldl (fun f c => f.put c.1 c.2) f).rising := by
    intro l
    induction l with
    | nil => exact fun _ h => h
    | cons c l ih => exact fun f h => ih _ (put_rising _ _ _ h)
  exact put _ _ (clearRange_rising _ _ _ h)

end Sys2Proof.Machine
end

