-- ==== Sys2Proof/Laws/State.lean ====
section
/-! SUPPORT. What each named update of State leaves as it was: one lemma per field and update. -/

namespace Sys2Proof.Machine

@[simp] theorem State.set_time (s : State) (x : Fld) (v : Nat) : (s.set x v).time = s.time := by rfl
@[simp] theorem State.set_staged (s : State) (x : Fld) (v : Nat) : (s.set x v).staged = s.staged := by rfl
@[simp] theorem State.set_die (s : State) (x : Fld) (v : Nat) : (s.set x v).die = s.die := by rfl
@[simp] theorem State.set_mem (s : State) (x : Fld) (v : Nat) : (s.set x v).mem = s.mem := by rfl
@[simp] theorem State.set_tp (s : State) (x : Fld) (v : Nat) : (s.set x v).tp = s.tp := by rfl
@[simp] theorem State.set_groups (s : State) (x : Fld) (v : Nat) : (s.set x v).groups = s.groups := by rfl
@[simp] theorem State.set_engines (s : State) (x : Fld) (v : Nat) : (s.set x v).engines = s.engines := by rfl
@[simp] theorem State.set_hi (s : State) (x : Fld) (v : Nat) : (s.set x v).hi = s.hi := by rfl
@[simp] theorem State.set_sn (s : State) (x : Fld) (v : Nat) : (s.set x v).sn = s.sn := by rfl
@[simp] theorem State.set_cm (s : State) (x : Fld) (v : Nat) : (s.set x v).cm = s.cm := by rfl
@[simp] theorem State.set_ballot (s : State) (x : Fld) (v : Nat) : (s.set x v).ballot = s.ballot := by rfl
@[simp] theorem State.set_dg (s : State) (x : Fld) (v : Nat) : (s.set x v).dg = s.dg := by rfl
@[simp] theorem State.set_cl (s : State) (x : Fld) (v : Nat) : (s.set x v).cl = s.cl := by rfl
@[simp] theorem State.set_tw (s : State) (x : Fld) (v : Nat) : (s.set x v).tw = s.tw := by rfl
@[simp] theorem State.set_sys (s : State) (x : Fld) (v : Nat) : (s.set x v).sys = s.sys := by rfl
@[simp] theorem State.set_trigs (s : State) (x : Fld) (v : Nat) : (s.set x v).trigs = s.trigs := by rfl
@[simp] theorem State.set_trigOut (s : State) (x : Fld) (v : Nat) : (s.set x v).trigOut = s.trigOut := by rfl
@[simp] theorem State.set_slotAt (s : State) (x : Fld) (v : Nat) : (s.set x v).slotAt = s.slotAt := by rfl
@[simp] theorem State.set_imgEntries (s : State) (x : Fld) (v : Nat) : (s.set x v).imgEntries = s.imgEntries := by rfl
@[simp] theorem State.set_imgDisp (s : State) (x : Fld) (v : Nat) : (s.set x v).imgDisp = s.imgDisp := by rfl
@[simp] theorem State.set_cs (s : State) (x : Fld) (v : Nat) : (s.set x v).cs = s.cs := by rfl
@[simp] theorem State.set_disp (s : State) (x : Fld) (v : Nat) : (s.set x v).disp = s.disp := by rfl
@[simp] theorem State.set_raised (s : State) (x : Fld) (v : Nat) : (s.set x v).raised = s.raised := by rfl
@[simp] theorem State.set_out (s : State) (x : Fld) (v : Nat) : (s.set x v).out = s.out := by rfl
@[simp] theorem State.set_free (s : State) (x : Fld) (v : Nat) : (s.set x v).free = s.free := by rfl
@[simp] theorem State.set_pending (s : State) (x : Fld) (v : Nat) : (s.set x v).pending = s.pending := by rfl

@[simp] theorem State.setWord_time (s : State) (r : Reg) (w : Word) : (s.setWord r w).time = s.time := by rfl
@[simp] theorem State.setWord_staged (s : State) (r : Reg) (w : Word) : (s.setWord r w).staged = s.staged := by rfl
@[simp] theorem State.setWord_die (s : State) (r : Reg) (w : Word) : (s.setWord r w).die = s.die := by rfl
@[simp] theorem State.setWord_mem (s : State) (r : Reg) (w : Word) : (s.setWord r w).mem = s.mem := by rfl
@[simp] theorem State.setWord_tp (s : State) (r : Reg) (w : Word) : (s.setWord r w).tp = s.tp := by rfl
@[simp] theorem State.setWord_groups (s : State) (r : Reg) (w : Word) : (s.setWord r w).groups = s.groups := by rfl
@[simp] theorem State.setWord_engines (s : State) (r : Reg) (w : Word) : (s.setWord r w).engines = s.engines := by rfl
@[simp] theorem State.setWord_hi (s : State) (r : Reg) (w : Word) : (s.setWord r w).hi = s.hi := by rfl
@[simp] theorem State.setWord_sn (s : State) (r : Reg) (w : Word) : (s.setWord r w).sn = s.sn := by rfl
@[simp] theorem State.setWord_cm (s : State) (r : Reg) (w : Word) : (s.setWord r w).cm = s.cm := by rfl
@[simp] theorem State.setWord_ballot (s : State) (r : Reg) (w : Word) : (s.setWord r w).ballot = s.ballot := by rfl
@[simp] theorem State.setWord_dg (s : State) (r : Reg) (w : Word) : (s.setWord r w).dg = s.dg := by rfl
@[simp] theorem State.setWord_cl (s : State) (r : Reg) (w : Word) : (s.setWord r w).cl = s.cl := by rfl
@[simp] theorem State.setWord_tw (s : State) (r : Reg) (w : Word) : (s.setWord r w).tw = s.tw := by rfl
@[simp] theorem State.setWord_sys (s : State) (r : Reg) (w : Word) : (s.setWord r w).sys = s.sys := by rfl
@[simp] theorem State.setWord_trigs (s : State) (r : Reg) (w : Word) : (s.setWord r w).trigs = s.trigs := by rfl
@[simp] theorem State.setWord_trigOut (s : State) (r : Reg) (w : Word) : (s.setWord r w).trigOut = s.trigOut := by rfl
@[simp] theorem State.setWord_slotAt (s : State) (r : Reg) (w : Word) : (s.setWord r w).slotAt = s.slotAt := by rfl
@[simp] theorem State.setWord_imgEntries (s : State) (r : Reg) (w : Word) : (s.setWord r w).imgEntries = s.imgEntries := by rfl
@[simp] theorem State.setWord_imgDisp (s : State) (r : Reg) (w : Word) : (s.setWord r w).imgDisp = s.imgDisp := by rfl
@[simp] theorem State.setWord_cs (s : State) (r : Reg) (w : Word) : (s.setWord r w).cs = s.cs := by rfl
@[simp] theorem State.setWord_disp (s : State) (r : Reg) (w : Word) : (s.setWord r w).disp = s.disp := by rfl
@[simp] theorem State.setWord_raised (s : State) (r : Reg) (w : Word) : (s.setWord r w).raised = s.raised := by rfl
@[simp] theorem State.setWord_out (s : State) (r : Reg) (w : Word) : (s.setWord r w).out = s.out := by rfl
@[simp] theorem State.setWord_free (s : State) (r : Reg) (w : Word) : (s.setWord r w).free = s.free := by rfl
@[simp] theorem State.setWord_pending (s : State) (r : Reg) (w : Word) : (s.setWord r w).pending = s.pending := by rfl

@[simp] theorem State.setInt_time (s : State) (x : Fld) (v : Int) : (s.setInt x v).time = s.time := State.set_time ..
@[simp] theorem State.setInt_staged (s : State) (x : Fld) (v : Int) : (s.setInt x v).staged = s.staged := State.set_staged ..
@[simp] theorem State.setInt_die (s : State) (x : Fld) (v : Int) : (s.setInt x v).die = s.die := State.set_die ..
@[simp] theorem State.setInt_mem (s : State) (x : Fld) (v : Int) : (s.setInt x v).mem = s.mem := State.set_mem ..
@[simp] theorem State.setInt_tp (s : State) (x : Fld) (v : Int) : (s.setInt x v).tp = s.tp := State.set_tp ..
@[simp] theorem State.setInt_groups (s : State) (x : Fld) (v : Int) : (s.setInt x v).groups = s.groups := State.set_groups ..
@[simp] theorem State.setInt_engines (s : State) (x : Fld) (v : Int) : (s.setInt x v).engines = s.engines := State.set_engines ..
@[simp] theorem State.setInt_hi (s : State) (x : Fld) (v : Int) : (s.setInt x v).hi = s.hi := State.set_hi ..
@[simp] theorem State.setInt_sn (s : State) (x : Fld) (v : Int) : (s.setInt x v).sn = s.sn := State.set_sn ..
@[simp] theorem State.setInt_cm (s : State) (x : Fld) (v : Int) : (s.setInt x v).cm = s.cm := State.set_cm ..
@[simp] theorem State.setInt_ballot (s : State) (x : Fld) (v : Int) : (s.setInt x v).ballot = s.ballot := State.set_ballot ..
@[simp] theorem State.setInt_dg (s : State) (x : Fld) (v : Int) : (s.setInt x v).dg = s.dg := State.set_dg ..
@[simp] theorem State.setInt_cl (s : State) (x : Fld) (v : Int) : (s.setInt x v).cl = s.cl := State.set_cl ..
@[simp] theorem State.setInt_tw (s : State) (x : Fld) (v : Int) : (s.setInt x v).tw = s.tw := State.set_tw ..
@[simp] theorem State.setInt_sys (s : State) (x : Fld) (v : Int) : (s.setInt x v).sys = s.sys := State.set_sys ..
@[simp] theorem State.setInt_trigs (s : State) (x : Fld) (v : Int) : (s.setInt x v).trigs = s.trigs := State.set_trigs ..
@[simp] theorem State.setInt_trigOut (s : State) (x : Fld) (v : Int) : (s.setInt x v).trigOut = s.trigOut := State.set_trigOut ..
@[simp] theorem State.setInt_slotAt (s : State) (x : Fld) (v : Int) : (s.setInt x v).slotAt = s.slotAt := State.set_slotAt ..
@[simp] theorem State.setInt_imgEntries (s : State) (x : Fld) (v : Int) : (s.setInt x v).imgEntries = s.imgEntries := State.set_imgEntries ..
@[simp] theorem State.setInt_imgDisp (s : State) (x : Fld) (v : Int) : (s.setInt x v).imgDisp = s.imgDisp := State.set_imgDisp ..
@[simp] theorem State.setInt_cs (s : State) (x : Fld) (v : Int) : (s.setInt x v).cs = s.cs := State.set_cs ..
@[simp] theorem State.setInt_disp (s : State) (x : Fld) (v : Int) : (s.setInt x v).disp = s.disp := State.set_disp ..
@[simp] theorem State.setInt_raised (s : State) (x : Fld) (v : Int) : (s.setInt x v).raised = s.raised := State.set_raised ..
@[simp] theorem State.setInt_out (s : State) (x : Fld) (v : Int) : (s.setInt x v).out = s.out := State.set_out ..
@[simp] theorem State.setInt_free (s : State) (x : Fld) (v : Int) : (s.setInt x v).free = s.free := State.set_free ..
@[simp] theorem State.setInt_pending (s : State) (x : Fld) (v : Int) : (s.setInt x v).pending = s.pending := State.set_pending ..

@[simp] theorem State.count_time (s : State) (x : Fld) (n : Nat) : (s.count x n).time = s.time := State.set_time ..
@[simp] theorem State.count_staged (s : State) (x : Fld) (n : Nat) : (s.count x n).staged = s.staged := State.set_staged ..
@[simp] theorem State.count_die (s : State) (x : Fld) (n : Nat) : (s.count x n).die = s.die := State.set_die ..
@[simp] theorem State.count_mem (s : State) (x : Fld) (n : Nat) : (s.count x n).mem = s.mem := State.set_mem ..
@[simp] theorem State.count_tp (s : State) (x : Fld) (n : Nat) : (s.count x n).tp = s.tp := State.set_tp ..
@[simp] theorem State.count_groups (s : State) (x : Fld) (n : Nat) : (s.count x n).groups = s.groups := State.set_groups ..
@[simp] theorem State.count_engines (s : State) (x : Fld) (n : Nat) : (s.count x n).engines = s.engines := State.set_engines ..
@[simp] theorem State.count_hi (s : State) (x : Fld) (n : Nat) : (s.count x n).hi = s.hi := State.set_hi ..
@[simp] theorem State.count_sn (s : State) (x : Fld) (n : Nat) : (s.count x n).sn = s.sn := State.set_sn ..
@[simp] theorem State.count_cm (s : State) (x : Fld) (n : Nat) : (s.count x n).cm = s.cm := State.set_cm ..
@[simp] theorem State.count_ballot (s : State) (x : Fld) (n : Nat) : (s.count x n).ballot = s.ballot := State.set_ballot ..
@[simp] theorem State.count_dg (s : State) (x : Fld) (n : Nat) : (s.count x n).dg = s.dg := State.set_dg ..
@[simp] theorem State.count_cl (s : State) (x : Fld) (n : Nat) : (s.count x n).cl = s.cl := State.set_cl ..
@[simp] theorem State.count_tw (s : State) (x : Fld) (n : Nat) : (s.count x n).tw = s.tw := State.set_tw ..
@[simp] theorem State.count_sys (s : State) (x : Fld) (n : Nat) : (s.count x n).sys = s.sys := State.set_sys ..
@[simp] theorem State.count_trigs (s : State) (x : Fld) (n : Nat) : (s.count x n).trigs = s.trigs := State.set_trigs ..
@[simp] theorem State.count_trigOut (s : State) (x : Fld) (n : Nat) : (s.count x n).trigOut = s.trigOut := State.set_trigOut ..
@[simp] theorem State.count_slotAt (s : State) (x : Fld) (n : Nat) : (s.count x n).slotAt = s.slotAt := State.set_slotAt ..
@[simp] theorem State.count_imgEntries (s : State) (x : Fld) (n : Nat) : (s.count x n).imgEntries = s.imgEntries := State.set_imgEntries ..
@[simp] theorem State.count_imgDisp (s : State) (x : Fld) (n : Nat) : (s.count x n).imgDisp = s.imgDisp := State.set_imgDisp ..
@[simp] theorem State.count_cs (s : State) (x : Fld) (n : Nat) : (s.count x n).cs = s.cs := State.set_cs ..
@[simp] theorem State.count_disp (s : State) (x : Fld) (n : Nat) : (s.count x n).disp = s.disp := State.set_disp ..
@[simp] theorem State.count_raised (s : State) (x : Fld) (n : Nat) : (s.count x n).raised = s.raised := State.set_raised ..
@[simp] theorem State.count_out (s : State) (x : Fld) (n : Nat) : (s.count x n).out = s.out := State.set_out ..
@[simp] theorem State.count_free (s : State) (x : Fld) (n : Nat) : (s.count x n).free = s.free := State.set_free ..
@[simp] theorem State.count_pending (s : State) (x : Fld) (n : Nat) : (s.count x n).pending = s.pending := State.set_pending ..

@[simp] theorem State.incr_time (s : State) (x : Fld) : (s.incr x).time = s.time := State.set_time ..
@[simp] theorem State.incr_staged (s : State) (x : Fld) : (s.incr x).staged = s.staged := State.set_staged ..
@[simp] theorem State.incr_die (s : State) (x : Fld) : (s.incr x).die = s.die := State.set_die ..
@[simp] theorem State.incr_mem (s : State) (x : Fld) : (s.incr x).mem = s.mem := State.set_mem ..
@[simp] theorem State.incr_tp (s : State) (x : Fld) : (s.incr x).tp = s.tp := State.set_tp ..
@[simp] theorem State.incr_groups (s : State) (x : Fld) : (s.incr x).groups = s.groups := State.set_groups ..
@[simp] theorem State.incr_engines (s : State) (x : Fld) : (s.incr x).engines = s.engines := State.set_engines ..
@[simp] theorem State.incr_hi (s : State) (x : Fld) : (s.incr x).hi = s.hi := State.set_hi ..
@[simp] theorem State.incr_sn (s : State) (x : Fld) : (s.incr x).sn = s.sn := State.set_sn ..
@[simp] theorem State.incr_cm (s : State) (x : Fld) : (s.incr x).cm = s.cm := State.set_cm ..
@[simp] theorem State.incr_ballot (s : State) (x : Fld) : (s.incr x).ballot = s.ballot := State.set_ballot ..
@[simp] theorem State.incr_dg (s : State) (x : Fld) : (s.incr x).dg = s.dg := State.set_dg ..
@[simp] theorem State.incr_cl (s : State) (x : Fld) : (s.incr x).cl = s.cl := State.set_cl ..
@[simp] theorem State.incr_tw (s : State) (x : Fld) : (s.incr x).tw = s.tw := State.set_tw ..
@[simp] theorem State.incr_sys (s : State) (x : Fld) : (s.incr x).sys = s.sys := State.set_sys ..
@[simp] theorem State.incr_trigs (s : State) (x : Fld) : (s.incr x).trigs = s.trigs := State.set_trigs ..
@[simp] theorem State.incr_trigOut (s : State) (x : Fld) : (s.incr x).trigOut = s.trigOut := State.set_trigOut ..
@[simp] theorem State.incr_slotAt (s : State) (x : Fld) : (s.incr x).slotAt = s.slotAt := State.set_slotAt ..
@[simp] theorem State.incr_imgEntries (s : State) (x : Fld) : (s.incr x).imgEntries = s.imgEntries := State.set_imgEntries ..
@[simp] theorem State.incr_imgDisp (s : State) (x : Fld) : (s.incr x).imgDisp = s.imgDisp := State.set_imgDisp ..
@[simp] theorem State.incr_cs (s : State) (x : Fld) : (s.incr x).cs = s.cs := State.set_cs ..
@[simp] theorem State.incr_disp (s : State) (x : Fld) : (s.incr x).disp = s.disp := State.set_disp ..
@[simp] theorem State.incr_raised (s : State) (x : Fld) : (s.incr x).raised = s.raised := State.set_raised ..
@[simp] theorem State.incr_out (s : State) (x : Fld) : (s.incr x).out = s.out := State.set_out ..
@[simp] theorem State.incr_free (s : State) (x : Fld) : (s.incr x).free = s.free := State.set_free ..
@[simp] theorem State.incr_pending (s : State) (x : Fld) : (s.incr x).pending = s.pending := State.set_pending ..

@[simp] theorem State.note_time (s : State) (a i : Nat) : (s.note a i).time = s.time := by rfl
@[simp] theorem State.note_live (s : State) (a i : Nat) : (s.note a i).live = s.live := by rfl
@[simp] theorem State.note_staged (s : State) (a i : Nat) : (s.note a i).staged = s.staged := by rfl
@[simp] theorem State.note_die (s : State) (a i : Nat) : (s.note a i).die = s.die := by rfl
@[simp] theorem State.note_mem (s : State) (a i : Nat) : (s.note a i).mem = s.mem := by rfl
@[simp] theorem State.note_tp (s : State) (a i : Nat) : (s.note a i).tp = s.tp := by rfl
@[simp] theorem State.note_groups (s : State) (a i : Nat) : (s.note a i).groups = s.groups := by rfl
@[simp] theorem State.note_engines (s : State) (a i : Nat) : (s.note a i).engines = s.engines := by rfl
@[simp] theorem State.note_hi (s : State) (a i : Nat) : (s.note a i).hi = s.hi := by rfl
@[simp] theorem State.note_sn (s : State) (a i : Nat) : (s.note a i).sn = s.sn := by rfl
@[simp] theorem State.note_cm (s : State) (a i : Nat) : (s.note a i).cm = s.cm := by rfl
@[simp] theorem State.note_ballot (s : State) (a i : Nat) : (s.note a i).ballot = s.ballot := by rfl
@[simp] theorem State.note_dg (s : State) (a i : Nat) : (s.note a i).dg = s.dg := by rfl
@[simp] theorem State.note_cl (s : State) (a i : Nat) : (s.note a i).cl = s.cl := by rfl
@[simp] theorem State.note_tw (s : State) (a i : Nat) : (s.note a i).tw = s.tw := by rfl
@[simp] theorem State.note_sys (s : State) (a i : Nat) : (s.note a i).sys = s.sys := by rfl
@[simp] theorem State.note_trigs (s : State) (a i : Nat) : (s.note a i).trigs = s.trigs := by rfl
@[simp] theorem State.note_trigOut (s : State) (a i : Nat) : (s.note a i).trigOut = s.trigOut := by rfl
@[simp] theorem State.note_slotAt (s : State) (a i : Nat) : (s.note a i).slotAt = s.slotAt := by rfl
@[simp] theorem State.note_imgEntries (s : State) (a i : Nat) : (s.note a i).imgEntries = s.imgEntries := by rfl
@[simp] theorem State.note_imgDisp (s : State) (a i : Nat) : (s.note a i).imgDisp = s.imgDisp := by rfl
@[simp] theorem State.note_cs (s : State) (a i : Nat) : (s.note a i).cs = s.cs := by rfl
@[simp] theorem State.note_disp (s : State) (a i : Nat) : (s.note a i).disp = s.disp := by rfl
@[simp] theorem State.note_out (s : State) (a i : Nat) : (s.note a i).out = s.out := by rfl
@[simp] theorem State.note_free (s : State) (a i : Nat) : (s.note a i).free = s.free := by rfl
@[simp] theorem State.note_pending (s : State) (a i : Nat) : (s.note a i).pending = s.pending := by rfl

@[simp] theorem State.raise_time (s : State) (x : Fld) : (s.raise x).time = s.time := (State.note_time ..).trans (State.set_time ..)
@[simp] theorem State.raise_staged (s : State) (x : Fld) : (s.raise x).staged = s.staged := (State.note_staged ..).trans (State.set_staged ..)
@[simp] theorem State.raise_die (s : State) (x : Fld) : (s.raise x).die = s.die := (State.note_die ..).trans (State.set_die ..)
@[simp] theorem State.raise_mem (s : State) (x : Fld) : (s.raise x).mem = s.mem := (State.note_mem ..).trans (State.set_mem ..)
@[simp] theorem State.raise_tp (s : State) (x : Fld) : (s.raise x).tp = s.tp := (State.note_tp ..).trans (State.set_tp ..)
@[simp] theorem State.raise_groups (s : State) (x : Fld) : (s.raise x).groups = s.groups := (State.note_groups ..).trans (State.set_groups ..)
@[simp] theorem State.raise_engines (s : State) (x : Fld) : (s.raise x).engines = s.engines := (State.note_engines ..).trans (State.set_engines ..)
@[simp] theorem State.raise_hi (s : State) (x : Fld) : (s.raise x).hi = s.hi := (State.note_hi ..).trans (State.set_hi ..)
@[simp] theorem State.raise_sn (s : State) (x : Fld) : (s.raise x).sn = s.sn := (State.note_sn ..).trans (State.set_sn ..)
@[simp] theorem State.raise_cm (s : State) (x : Fld) : (s.raise x).cm = s.cm := (State.note_cm ..).trans (State.set_cm ..)
@[simp] theorem State.raise_ballot (s : State) (x : Fld) : (s.raise x).ballot = s.ballot := (State.note_ballot ..).trans (State.set_ballot ..)
@[simp] theorem State.raise_dg (s : State) (x : Fld) : (s.raise x).dg = s.dg := (State.note_dg ..).trans (State.set_dg ..)
@[simp] theorem State.raise_cl (s : State) (x : Fld) : (s.raise x).cl = s.cl := (State.note_cl ..).trans (State.set_cl ..)
@[simp] theorem State.raise_tw (s : State) (x : Fld) : (s.raise x).tw = s.tw := (State.note_tw ..).trans (State.set_tw ..)
@[simp] theorem State.raise_sys (s : State) (x : Fld) : (s.raise x).sys = s.sys := (State.note_sys ..).trans (State.set_sys ..)
@[simp] theorem State.raise_trigs (s : State) (x : Fld) : (s.raise x).trigs = s.trigs := (State.note_trigs ..).trans (State.set_trigs ..)
@[simp] theorem State.raise_trigOut (s : State) (x : Fld) : (s.raise x).trigOut = s.trigOut := (State.note_trigOut ..).trans (State.set_trigOut ..)
@[simp] theorem State.raise_slotAt (s : State) (x : Fld) : (s.raise x).slotAt = s.slotAt := (State.note_slotAt ..).trans (State.set_slotAt ..)
@[simp] theorem State.raise_imgEntries (s : State) (x : Fld) : (s.raise x).imgEntries = s.imgEntries := (State.note_imgEntries ..).trans (State.set_imgEntries ..)
@[simp] theorem State.raise_imgDisp (s : State) (x : Fld) : (s.raise x).imgDisp = s.imgDisp := (State.note_imgDisp ..).trans (State.set_imgDisp ..)
@[simp] theorem State.raise_cs (s : State) (x : Fld) : (s.raise x).cs = s.cs := (State.note_cs ..).trans (State.set_cs ..)
@[simp] theorem State.raise_disp (s : State) (x : Fld) : (s.raise x).disp = s.disp := (State.note_disp ..).trans (State.set_disp ..)
@[simp] theorem State.raise_out (s : State) (x : Fld) : (s.raise x).out = s.out := (State.note_out ..).trans (State.set_out ..)
@[simp] theorem State.raise_free (s : State) (x : Fld) : (s.raise x).free = s.free := (State.note_free ..).trans (State.set_free ..)
@[simp] theorem State.raise_pending (s : State) (x : Fld) : (s.raise x).pending = s.pending := (State.note_pending ..).trans (State.set_pending ..)

@[simp] theorem State.flag_time (s : State) (f c : Fld) : (s.flag f c).time = s.time := (State.count_time ..).trans (State.raise_time ..)
@[simp] theorem State.flag_staged (s : State) (f c : Fld) : (s.flag f c).staged = s.staged := (State.count_staged ..).trans (State.raise_staged ..)
@[simp] theorem State.flag_die (s : State) (f c : Fld) : (s.flag f c).die = s.die := (State.count_die ..).trans (State.raise_die ..)
@[simp] theorem State.flag_mem (s : State) (f c : Fld) : (s.flag f c).mem = s.mem := (State.count_mem ..).trans (State.raise_mem ..)
@[simp] theorem State.flag_tp (s : State) (f c : Fld) : (s.flag f c).tp = s.tp := (State.count_tp ..).trans (State.raise_tp ..)
@[simp] theorem State.flag_groups (s : State) (f c : Fld) : (s.flag f c).groups = s.groups := (State.count_groups ..).trans (State.raise_groups ..)
@[simp] theorem State.flag_engines (s : State) (f c : Fld) : (s.flag f c).engines = s.engines := (State.count_engines ..).trans (State.raise_engines ..)
@[simp] theorem State.flag_hi (s : State) (f c : Fld) : (s.flag f c).hi = s.hi := (State.count_hi ..).trans (State.raise_hi ..)
@[simp] theorem State.flag_sn (s : State) (f c : Fld) : (s.flag f c).sn = s.sn := (State.count_sn ..).trans (State.raise_sn ..)
@[simp] theorem State.flag_cm (s : State) (f c : Fld) : (s.flag f c).cm = s.cm := (State.count_cm ..).trans (State.raise_cm ..)
@[simp] theorem State.flag_ballot (s : State) (f c : Fld) : (s.flag f c).ballot = s.ballot := (State.count_ballot ..).trans (State.raise_ballot ..)
@[simp] theorem State.flag_dg (s : State) (f c : Fld) : (s.flag f c).dg = s.dg := (State.count_dg ..).trans (State.raise_dg ..)
@[simp] theorem State.flag_cl (s : State) (f c : Fld) : (s.flag f c).cl = s.cl := (State.count_cl ..).trans (State.raise_cl ..)
@[simp] theorem State.flag_tw (s : State) (f c : Fld) : (s.flag f c).tw = s.tw := (State.count_tw ..).trans (State.raise_tw ..)
@[simp] theorem State.flag_sys (s : State) (f c : Fld) : (s.flag f c).sys = s.sys := (State.count_sys ..).trans (State.raise_sys ..)
@[simp] theorem State.flag_trigs (s : State) (f c : Fld) : (s.flag f c).trigs = s.trigs := (State.count_trigs ..).trans (State.raise_trigs ..)
@[simp] theorem State.flag_trigOut (s : State) (f c : Fld) : (s.flag f c).trigOut = s.trigOut := (State.count_trigOut ..).trans (State.raise_trigOut ..)
@[simp] theorem State.flag_slotAt (s : State) (f c : Fld) : (s.flag f c).slotAt = s.slotAt := (State.count_slotAt ..).trans (State.raise_slotAt ..)
@[simp] theorem State.flag_imgEntries (s : State) (f c : Fld) : (s.flag f c).imgEntries = s.imgEntries := (State.count_imgEntries ..).trans (State.raise_imgEntries ..)
@[simp] theorem State.flag_imgDisp (s : State) (f c : Fld) : (s.flag f c).imgDisp = s.imgDisp := (State.count_imgDisp ..).trans (State.raise_imgDisp ..)
@[simp] theorem State.flag_cs (s : State) (f c : Fld) : (s.flag f c).cs = s.cs := (State.count_cs ..).trans (State.raise_cs ..)
@[simp] theorem State.flag_disp (s : State) (f c : Fld) : (s.flag f c).disp = s.disp := (State.count_disp ..).trans (State.raise_disp ..)
@[simp] theorem State.flag_out (s : State) (f c : Fld) : (s.flag f c).out = s.out := (State.count_out ..).trans (State.raise_out ..)
@[simp] theorem State.flag_free (s : State) (f c : Fld) : (s.flag f c).free = s.free := (State.count_free ..).trans (State.raise_free ..)
@[simp] theorem State.flag_pending (s : State) (f c : Fld) : (s.flag f c).pending = s.pending := (State.count_pending ..).trans (State.raise_pending ..)

@[simp] theorem State.setBit_time (s : State) (x : Fld) (i : Nat) (b : Bool) : (s.setBit x i b).time = s.time := State.set_time ..
@[simp] theorem State.setBit_staged (s : State) (x : Fld) (i : Nat) (b : Bool) : (s.setBit x i b).staged = s.staged := State.set_staged ..
@[simp] theorem State.setBit_die (s : State) (x : Fld) (i : Nat) (b : Bool) : (s.setBit x i b).die = s.die := State.set_die ..
@[simp] theorem State.setBit_mem (s : State) (x : Fld) (i : Nat) (b : Bool) : (s.setBit x i b).mem = s.mem := State.set_mem ..
@[simp] theorem State.setBit_tp (s : State) (x : Fld) (i : Nat) (b : Bool) : (s.setBit x i b).tp = s.tp := State.set_tp ..
@[simp] theorem State.setBit_groups (s : State) (x : Fld) (i : Nat) (b : Bool) : (s.setBit x i b).groups = s.groups := State.set_groups ..
@[simp] theorem State.setBit_engines (s : State) (x : Fld) (i : Nat) (b : Bool) : (s.setBit x i b).engines = s.engines := State.set_engines ..
@[simp] theorem State.setBit_hi (s : State) (x : Fld) (i : Nat) (b : Bool) : (s.setBit x i b).hi = s.hi := State.set_hi ..
@[simp] theorem State.setBit_sn (s : State) (x : Fld) (i : Nat) (b : Bool) : (s.setBit x i b).sn = s.sn := State.set_sn ..
@[simp] theorem State.setBit_cm (s : State) (x : Fld) (i : Nat) (b : Bool) : (s.setBit x i b).cm = s.cm := State.set_cm ..
@[simp] theorem State.setBit_ballot (s : State) (x : Fld) (i : Nat) (b : Bool) : (s.setBit x i b).ballot = s.ballot := State.set_ballot ..
@[simp] theorem State.setBit_dg (s : State) (x : Fld) (i : Nat) (b : Bool) : (s.setBit x i b).dg = s.dg := State.set_dg ..
@[simp] theorem State.setBit_cl (s : State) (x : Fld) (i : Nat) (b : Bool) : (s.setBit x i b).cl = s.cl := State.set_cl ..
@[simp] theorem State.setBit_tw (s : State) (x : Fld) (i : Nat) (b : Bool) : (s.setBit x i b).tw = s.tw := State.set_tw ..
@[simp] theorem State.setBit_sys (s : State) (x : Fld) (i : Nat) (b : Bool) : (s.setBit x i b).sys = s.sys := State.set_sys ..
@[simp] theorem State.setBit_trigs (s : State) (x : Fld) (i : Nat) (b : Bool) : (s.setBit x i b).trigs = s.trigs := State.set_trigs ..
@[simp] theorem State.setBit_trigOut (s : State) (x : Fld) (i : Nat) (b : Bool) : (s.setBit x i b).trigOut = s.trigOut := State.set_trigOut ..
@[simp] theorem State.setBit_slotAt (s : State) (x : Fld) (i : Nat) (b : Bool) : (s.setBit x i b).slotAt = s.slotAt := State.set_slotAt ..
@[simp] theorem State.setBit_imgEntries (s : State) (x : Fld) (i : Nat) (b : Bool) : (s.setBit x i b).imgEntries = s.imgEntries := State.set_imgEntries ..
@[simp] theorem State.setBit_imgDisp (s : State) (x : Fld) (i : Nat) (b : Bool) : (s.setBit x i b).imgDisp = s.imgDisp := State.set_imgDisp ..
@[simp] theorem State.setBit_cs (s : State) (x : Fld) (i : Nat) (b : Bool) : (s.setBit x i b).cs = s.cs := State.set_cs ..
@[simp] theorem State.setBit_disp (s : State) (x : Fld) (i : Nat) (b : Bool) : (s.setBit x i b).disp = s.disp := State.set_disp ..
@[simp] theorem State.setBit_raised (s : State) (x : Fld) (i : Nat) (b : Bool) : (s.setBit x i b).raised = s.raised := State.set_raised ..
@[simp] theorem State.setBit_out (s : State) (x : Fld) (i : Nat) (b : Bool) : (s.setBit x i b).out = s.out := State.set_out ..
@[simp] theorem State.setBit_free (s : State) (x : Fld) (i : Nat) (b : Bool) : (s.setBit x i b).free = s.free := State.set_free ..
@[simp] theorem State.setBit_pending (s : State) (x : Fld) (i : Nat) (b : Bool) : (s.setBit x i b).pending = s.pending := State.set_pending ..

@[simp] theorem State.raiseBit_time (s : State) (x : Fld) (i : Nat) : (s.raiseBit x i).time = s.time := (State.note_time ..).trans (State.setBit_time ..)
@[simp] theorem State.raiseBit_staged (s : State) (x : Fld) (i : Nat) : (s.raiseBit x i).staged = s.staged := (State.note_staged ..).trans (State.setBit_staged ..)
@[simp] theorem State.raiseBit_die (s : State) (x : Fld) (i : Nat) : (s.raiseBit x i).die = s.die := (State.note_die ..).trans (State.setBit_die ..)
@[simp] theorem State.raiseBit_mem (s : State) (x : Fld) (i : Nat) : (s.raiseBit x i).mem = s.mem := (State.note_mem ..).trans (State.setBit_mem ..)
@[simp] theorem State.raiseBit_tp (s : State) (x : Fld) (i : Nat) : (s.raiseBit x i).tp = s.tp := (State.note_tp ..).trans (State.setBit_tp ..)
@[simp] theorem State.raiseBit_groups (s : State) (x : Fld) (i : Nat) : (s.raiseBit x i).groups = s.groups := (State.note_groups ..).trans (State.setBit_groups ..)
@[simp] theorem State.raiseBit_engines (s : State) (x : Fld) (i : Nat) : (s.raiseBit x i).engines = s.engines := (State.note_engines ..).trans (State.setBit_engines ..)
@[simp] theorem State.raiseBit_hi (s : State) (x : Fld) (i : Nat) : (s.raiseBit x i).hi = s.hi := (State.note_hi ..).trans (State.setBit_hi ..)
@[simp] theorem State.raiseBit_sn (s : State) (x : Fld) (i : Nat) : (s.raiseBit x i).sn = s.sn := (State.note_sn ..).trans (State.setBit_sn ..)
@[simp] theorem State.raiseBit_cm (s : State) (x : Fld) (i : Nat) : (s.raiseBit x i).cm = s.cm := (State.note_cm ..).trans (State.setBit_cm ..)
@[simp] theorem State.raiseBit_ballot (s : State) (x : Fld) (i : Nat) : (s.raiseBit x i).ballot = s.ballot := (State.note_ballot ..).trans (State.setBit_ballot ..)
@[simp] theorem State.raiseBit_dg (s : State) (x : Fld) (i : Nat) : (s.raiseBit x i).dg = s.dg := (State.note_dg ..).trans (State.setBit_dg ..)
@[simp] theorem State.raiseBit_cl (s : State) (x : Fld) (i : Nat) : (s.raiseBit x i).cl = s.cl := (State.note_cl ..).trans (State.setBit_cl ..)
@[simp] theorem State.raiseBit_tw (s : State) (x : Fld) (i : Nat) : (s.raiseBit x i).tw = s.tw := (State.note_tw ..).trans (State.setBit_tw ..)
@[simp] theorem State.raiseBit_sys (s : State) (x : Fld) (i : Nat) : (s.raiseBit x i).sys = s.sys := (State.note_sys ..).trans (State.setBit_sys ..)
@[simp] theorem State.raiseBit_trigs (s : State) (x : Fld) (i : Nat) : (s.raiseBit x i).trigs = s.trigs := (State.note_trigs ..).trans (State.setBit_trigs ..)
@[simp] theorem State.raiseBit_trigOut (s : State) (x : Fld) (i : Nat) : (s.raiseBit x i).trigOut = s.trigOut := (State.note_trigOut ..).trans (State.setBit_trigOut ..)
@[simp] theorem State.raiseBit_slotAt (s : State) (x : Fld) (i : Nat) : (s.raiseBit x i).slotAt = s.slotAt := (State.note_slotAt ..).trans (State.setBit_slotAt ..)
@[simp] theorem State.raiseBit_imgEntries (s : State) (x : Fld) (i : Nat) : (s.raiseBit x i).imgEntries = s.imgEntries := (State.note_imgEntries ..).trans (State.setBit_imgEntries ..)
@[simp] theorem State.raiseBit_imgDisp (s : State) (x : Fld) (i : Nat) : (s.raiseBit x i).imgDisp = s.imgDisp := (State.note_imgDisp ..).trans (State.setBit_imgDisp ..)
@[simp] theorem State.raiseBit_cs (s : State) (x : Fld) (i : Nat) : (s.raiseBit x i).cs = s.cs := (State.note_cs ..).trans (State.setBit_cs ..)
@[simp] theorem State.raiseBit_disp (s : State) (x : Fld) (i : Nat) : (s.raiseBit x i).disp = s.disp := (State.note_disp ..).trans (State.setBit_disp ..)
@[simp] theorem State.raiseBit_out (s : State) (x : Fld) (i : Nat) : (s.raiseBit x i).out = s.out := (State.note_out ..).trans (State.setBit_out ..)
@[simp] theorem State.raiseBit_free (s : State) (x : Fld) (i : Nat) : (s.raiseBit x i).free = s.free := (State.note_free ..).trans (State.setBit_free ..)
@[simp] theorem State.raiseBit_pending (s : State) (x : Fld) (i : Nat) : (s.raiseBit x i).pending = s.pending := (State.note_pending ..).trans (State.setBit_pending ..)

@[simp] theorem State.setTime_time (s : State) (l h : Fld) (t : Time) : (s.setTime l h t).time = s.time := (State.set_time ..).trans (State.set_time ..)
@[simp] theorem State.setTime_staged (s : State) (l h : Fld) (t : Time) : (s.setTime l h t).staged = s.staged := (State.set_staged ..).trans (State.set_staged ..)
@[simp] theorem State.setTime_die (s : State) (l h : Fld) (t : Time) : (s.setTime l h t).die = s.die := (State.set_die ..).trans (State.set_die ..)
@[simp] theorem State.setTime_mem (s : State) (l h : Fld) (t : Time) : (s.setTime l h t).mem = s.mem := (State.set_mem ..).trans (State.set_mem ..)
@[simp] theorem State.setTime_tp (s : State) (l h : Fld) (t : Time) : (s.setTime l h t).tp = s.tp := (State.set_tp ..).trans (State.set_tp ..)
@[simp] theorem State.setTime_groups (s : State) (l h : Fld) (t : Time) : (s.setTime l h t).groups = s.groups := (State.set_groups ..).trans (State.set_groups ..)
@[simp] theorem State.setTime_engines (s : State) (l h : Fld) (t : Time) : (s.setTime l h t).engines = s.engines := (State.set_engines ..).trans (State.set_engines ..)
@[simp] theorem State.setTime_hi (s : State) (l h : Fld) (t : Time) : (s.setTime l h t).hi = s.hi := (State.set_hi ..).trans (State.set_hi ..)
@[simp] theorem State.setTime_sn (s : State) (l h : Fld) (t : Time) : (s.setTime l h t).sn = s.sn := (State.set_sn ..).trans (State.set_sn ..)
@[simp] theorem State.setTime_cm (s : State) (l h : Fld) (t : Time) : (s.setTime l h t).cm = s.cm := (State.set_cm ..).trans (State.set_cm ..)
@[simp] theorem State.setTime_ballot (s : State) (l h : Fld) (t : Time) : (s.setTime l h t).ballot = s.ballot := (State.set_ballot ..).trans (State.set_ballot ..)
@[simp] theorem State.setTime_dg (s : State) (l h : Fld) (t : Time) : (s.setTime l h t).dg = s.dg := (State.set_dg ..).trans (State.set_dg ..)
@[simp] theorem State.setTime_cl (s : State) (l h : Fld) (t : Time) : (s.setTime l h t).cl = s.cl := (State.set_cl ..).trans (State.set_cl ..)
@[simp] theorem State.setTime_tw (s : State) (l h : Fld) (t : Time) : (s.setTime l h t).tw = s.tw := (State.set_tw ..).trans (State.set_tw ..)
@[simp] theorem State.setTime_sys (s : State) (l h : Fld) (t : Time) : (s.setTime l h t).sys = s.sys := (State.set_sys ..).trans (State.set_sys ..)
@[simp] theorem State.setTime_trigs (s : State) (l h : Fld) (t : Time) : (s.setTime l h t).trigs = s.trigs := (State.set_trigs ..).trans (State.set_trigs ..)
@[simp] theorem State.setTime_trigOut (s : State) (l h : Fld) (t : Time) : (s.setTime l h t).trigOut = s.trigOut := (State.set_trigOut ..).trans (State.set_trigOut ..)
@[simp] theorem State.setTime_slotAt (s : State) (l h : Fld) (t : Time) : (s.setTime l h t).slotAt = s.slotAt := (State.set_slotAt ..).trans (State.set_slotAt ..)
@[simp] theorem State.setTime_imgEntries (s : State) (l h : Fld) (t : Time) : (s.setTime l h t).imgEntries = s.imgEntries := (State.set_imgEntries ..).trans (State.set_imgEntries ..)
@[simp] theorem State.setTime_imgDisp (s : State) (l h : Fld) (t : Time) : (s.setTime l h t).imgDisp = s.imgDisp := (State.set_imgDisp ..).trans (State.set_imgDisp ..)
@[simp] theorem State.setTime_cs (s : State) (l h : Fld) (t : Time) : (s.setTime l h t).cs = s.cs := (State.set_cs ..).trans (State.set_cs ..)
@[simp] theorem State.setTime_disp (s : State) (l h : Fld) (t : Time) : (s.setTime l h t).disp = s.disp := (State.set_disp ..).trans (State.set_disp ..)
@[simp] theorem State.setTime_raised (s : State) (l h : Fld) (t : Time) : (s.setTime l h t).raised = s.raised := (State.set_raised ..).trans (State.set_raised ..)
@[simp] theorem State.setTime_out (s : State) (l h : Fld) (t : Time) : (s.setTime l h t).out = s.out := (State.set_out ..).trans (State.set_out ..)
@[simp] theorem State.setTime_free (s : State) (l h : Fld) (t : Time) : (s.setTime l h t).free = s.free := (State.set_free ..).trans (State.set_free ..)
@[simp] theorem State.setTime_pending (s : State) (l h : Fld) (t : Time) : (s.setTime l h t).pending = s.pending := (State.set_pending ..).trans (State.set_pending ..)

@[simp] theorem State.setStagedWord_time (s : State) (r : Reg) (w : Word) : (s.setStagedWord r w).time = s.time := by rfl
@[simp] theorem State.setStagedWord_live (s : State) (r : Reg) (w : Word) : (s.setStagedWord r w).live = s.live := by rfl
@[simp] theorem State.setStagedWord_die (s : State) (r : Reg) (w : Word) : (s.setStagedWord r w).die = s.die := by rfl
@[simp] theorem State.setStagedWord_mem (s : State) (r : Reg) (w : Word) : (s.setStagedWord r w).mem = s.mem := by rfl
@[simp] theorem State.setStagedWord_tp (s : State) (r : Reg) (w : Word) : (s.setStagedWord r w).tp = s.tp := by rfl
@[simp] theorem State.setStagedWord_groups (s : State) (r : Reg) (w : Word) : (s.setStagedWord r w).groups = s.groups := by rfl
@[simp] theorem State.setStagedWord_engines (s : State) (r : Reg) (w : Word) : (s.setStagedWord r w).engines = s.engines := by rfl
@[simp] theorem State.setStagedWord_hi (s : State) (r : Reg) (w : Word) : (s.setStagedWord r w).hi = s.hi := by rfl
@[simp] theorem State.setStagedWord_sn (s : State) (r : Reg) (w : Word) : (s.setStagedWord r w).sn = s.sn := by rfl
@[simp] theorem State.setStagedWord_cm (s : State) (r : Reg) (w : Word) : (s.setStagedWord r w).cm = s.cm := by rfl
@[simp] theorem State.setStagedWord_ballot (s : State) (r : Reg) (w : Word) : (s.setStagedWord r w).ballot = s.ballot := by rfl
@[simp] theorem State.setStagedWord_dg (s : State) (r : Reg) (w : Word) : (s.setStagedWord r w).dg = s.dg := by rfl
@[simp] theorem State.setStagedWord_cl (s : State) (r : Reg) (w : Word) : (s.setStagedWord r w).cl = s.cl := by rfl
@[simp] theorem State.setStagedWord_tw (s : State) (r : Reg) (w : Word) : (s.setStagedWord r w).tw = s.tw := by rfl
@[simp] theorem State.setStagedWord_sys (s : State) (r : Reg) (w : Word) : (s.setStagedWord r w).sys = s.sys := by rfl
@[simp] theorem State.setStagedWord_trigs (s : State) (r : Reg) (w : Word) : (s.setStagedWord r w).trigs = s.trigs := by rfl
@[simp] theorem State.setStagedWord_trigOut (s : State) (r : Reg) (w : Word) : (s.setStagedWord r w).trigOut = s.trigOut := by rfl
@[simp] theorem State.setStagedWord_slotAt (s : State) (r : Reg) (w : Word) : (s.setStagedWord r w).slotAt = s.slotAt := by rfl
@[simp] theorem State.setStagedWord_imgEntries (s : State) (r : Reg) (w : Word) : (s.setStagedWord r w).imgEntries = s.imgEntries := by rfl
@[simp] theorem State.setStagedWord_imgDisp (s : State) (r : Reg) (w : Word) : (s.setStagedWord r w).imgDisp = s.imgDisp := by rfl
@[simp] theorem State.setStagedWord_cs (s : State) (r : Reg) (w : Word) : (s.setStagedWord r w).cs = s.cs := by rfl
@[simp] theorem State.setStagedWord_disp (s : State) (r : Reg) (w : Word) : (s.setStagedWord r w).disp = s.disp := by rfl
@[simp] theorem State.setStagedWord_raised (s : State) (r : Reg) (w : Word) : (s.setStagedWord r w).raised = s.raised := by rfl
@[simp] theorem State.setStagedWord_out (s : State) (r : Reg) (w : Word) : (s.setStagedWord r w).out = s.out := by rfl
@[simp] theorem State.setStagedWord_free (s : State) (r : Reg) (w : Word) : (s.setStagedWord r w).free = s.free := by rfl
@[simp] theorem State.setStagedWord_pending (s : State) (r : Reg) (w : Word) : (s.setStagedWord r w).pending = s.pending := by rfl

@[simp] theorem State.dieSet_time (s : State) (x : Fld) (v : Nat) : (s.dieSet x v).time = s.time := by rfl
@[simp] theorem State.dieSet_live (s : State) (x : Fld) (v : Nat) : (s.dieSet x v).live = s.live := by rfl
@[simp] theorem State.dieSet_staged (s : State) (x : Fld) (v : Nat) : (s.dieSet x v).staged = s.staged := by rfl
@[simp] theorem State.dieSet_mem (s : State) (x : Fld) (v : Nat) : (s.dieSet x v).mem = s.mem := by rfl
@[simp] theorem State.dieSet_tp (s : State) (x : Fld) (v : Nat) : (s.dieSet x v).tp = s.tp := by rfl
@[simp] theorem State.dieSet_groups (s : State) (x : Fld) (v : Nat) : (s.dieSet x v).groups = s.groups := by rfl
@[simp] theorem State.dieSet_engines (s : State) (x : Fld) (v : Nat) : (s.dieSet x v).engines = s.engines := by rfl
@[simp] theorem State.dieSet_hi (s : State) (x : Fld) (v : Nat) : (s.dieSet x v).hi = s.hi := by rfl
@[simp] theorem State.dieSet_sn (s : State) (x : Fld) (v : Nat) : (s.dieSet x v).sn = s.sn := by rfl
@[simp] theorem State.dieSet_cm (s : State) (x : Fld) (v : Nat) : (s.dieSet x v).cm = s.cm := by rfl
@[simp] theorem State.dieSet_ballot (s : State) (x : Fld) (v : Nat) : (s.dieSet x v).ballot = s.ballot := by rfl
@[simp] theorem State.dieSet_dg (s : State) (x : Fld) (v : Nat) : (s.dieSet x v).dg = s.dg := by rfl
@[simp] theorem State.dieSet_cl (s : State) (x : Fld) (v : Nat) : (s.dieSet x v).cl = s.cl := by rfl
@[simp] theorem State.dieSet_tw (s : State) (x : Fld) (v : Nat) : (s.dieSet x v).tw = s.tw := by rfl
@[simp] theorem State.dieSet_sys (s : State) (x : Fld) (v : Nat) : (s.dieSet x v).sys = s.sys := by rfl
@[simp] theorem State.dieSet_trigs (s : State) (x : Fld) (v : Nat) : (s.dieSet x v).trigs = s.trigs := by rfl
@[simp] theorem State.dieSet_trigOut (s : State) (x : Fld) (v : Nat) : (s.dieSet x v).trigOut = s.trigOut := by rfl
@[simp] theorem State.dieSet_slotAt (s : State) (x : Fld) (v : Nat) : (s.dieSet x v).slotAt = s.slotAt := by rfl
@[simp] theorem State.dieSet_imgEntries (s : State) (x : Fld) (v : Nat) : (s.dieSet x v).imgEntries = s.imgEntries := by rfl
@[simp] theorem State.dieSet_imgDisp (s : State) (x : Fld) (v : Nat) : (s.dieSet x v).imgDisp = s.imgDisp := by rfl
@[simp] theorem State.dieSet_cs (s : State) (x : Fld) (v : Nat) : (s.dieSet x v).cs = s.cs := by rfl
@[simp] theorem State.dieSet_disp (s : State) (x : Fld) (v : Nat) : (s.dieSet x v).disp = s.disp := by rfl
@[simp] theorem State.dieSet_raised (s : State) (x : Fld) (v : Nat) : (s.dieSet x v).raised = s.raised := by rfl
@[simp] theorem State.dieSet_out (s : State) (x : Fld) (v : Nat) : (s.dieSet x v).out = s.out := by rfl
@[simp] theorem State.dieSet_free (s : State) (x : Fld) (v : Nat) : (s.dieSet x v).free = s.free := by rfl
@[simp] theorem State.dieSet_pending (s : State) (x : Fld) (v : Nat) : (s.dieSet x v).pending = s.pending := by rfl

@[simp] theorem State.setGroup_time (s : State) (g : Nat) (x : Group) : (s.setGroup g x).time = s.time := by unfold State.setGroup; split <;> rfl
@[simp] theorem State.setGroup_live (s : State) (g : Nat) (x : Group) : (s.setGroup g x).live = s.live := by unfold State.setGroup; split <;> rfl
@[simp] theorem State.setGroup_staged (s : State) (g : Nat) (x : Group) : (s.setGroup g x).staged = s.staged := by unfold State.setGroup; split <;> rfl
@[simp] theorem State.setGroup_die (s : State) (g : Nat) (x : Group) : (s.setGroup g x).die = s.die := by unfold State.setGroup; split <;> rfl
@[simp] theorem State.setGroup_mem (s : State) (g : Nat) (x : Group) : (s.setGroup g x).mem = s.mem := by unfold State.setGroup; split <;> rfl
@[simp] theorem State.setGroup_tp (s : State) (g : Nat) (x : Group) : (s.setGroup g x).tp = s.tp := by unfold State.setGroup; split <;> rfl
@[simp] theorem State.setGroup_engines (s : State) (g : Nat) (x : Group) : (s.setGroup g x).engines = s.engines := by unfold State.setGroup; split <;> rfl
@[simp] theorem State.setGroup_hi (s : State) (g : Nat) (x : Group) : (s.setGroup g x).hi = s.hi := by unfold State.setGroup; split <;> rfl
@[simp] theorem State.setGroup_sn (s : State) (g : Nat) (x : Group) : (s.setGroup g x).sn = s.sn := by unfold State.setGroup; split <;> rfl
@[simp] theorem State.setGroup_cm (s : State) (g : Nat) (x : Group) : (s.setGroup g x).cm = s.cm := by unfold State.setGroup; split <;> rfl
@[simp] theorem State.setGroup_ballot (s : State) (g : Nat) (x : Group) : (s.setGroup g x).ballot = s.ballot := by unfold State.setGroup; split <;> rfl
@[simp] theorem State.setGroup_dg (s : State) (g : Nat) (x : Group) : (s.setGroup g x).dg = s.dg := by unfold State.setGroup; split <;> rfl
@[simp] theorem State.setGroup_cl (s : State) (g : Nat) (x : Group) : (s.setGroup g x).cl = s.cl := by unfold State.setGroup; split <;> rfl
@[simp] theorem State.setGroup_tw (s : State) (g : Nat) (x : Group) : (s.setGroup g x).tw = s.tw := by unfold State.setGroup; split <;> rfl
@[simp] theorem State.setGroup_sys (s : State) (g : Nat) (x : Group) : (s.setGroup g x).sys = s.sys := by unfold State.setGroup; split <;> rfl
@[simp] theorem State.setGroup_trigs (s : State) (g : Nat) (x : Group) : (s.setGroup g x).trigs = s.trigs := by unfold State.setGroup; split <;> rfl
@[simp] theorem State.setGroup_trigOut (s : State) (g : Nat) (x : Group) : (s.setGroup g x).trigOut = s.trigOut := by unfold State.setGroup; split <;> rfl
@[simp] theorem State.setGroup_slotAt (s : State) (g : Nat) (x : Group) : (s.setGroup g x).slotAt = s.slotAt := by unfold State.setGroup; split <;> rfl
@[simp] theorem State.setGroup_imgEntries (s : State) (g : Nat) (x : Group) : (s.setGroup g x).imgEntries = s.imgEntries := by unfold State.setGroup; split <;> rfl
@[simp] theorem State.setGroup_imgDisp (s : State) (g : Nat) (x : Group) : (s.setGroup g x).imgDisp = s.imgDisp := by unfold State.setGroup; split <;> rfl
@[simp] theorem State.setGroup_cs (s : State) (g : Nat) (x : Group) : (s.setGroup g x).cs = s.cs := by unfold State.setGroup; split <;> rfl
@[simp] theorem State.setGroup_disp (s : State) (g : Nat) (x : Group) : (s.setGroup g x).disp = s.disp := by unfold State.setGroup; split <;> rfl
@[simp] theorem State.setGroup_raised (s : State) (g : Nat) (x : Group) : (s.setGroup g x).raised = s.raised := by unfold State.setGroup; split <;> rfl
@[simp] theorem State.setGroup_out (s : State) (g : Nat) (x : Group) : (s.setGroup g x).out = s.out := by unfold State.setGroup; split <;> rfl
@[simp] theorem State.setGroup_free (s : State) (g : Nat) (x : Group) : (s.setGroup g x).free = s.free := by unfold State.setGroup; split <;> rfl
@[simp] theorem State.setGroup_pending (s : State) (g : Nat) (x : Group) : (s.setGroup g x).pending = s.pending := by unfold State.setGroup; split <;> rfl

@[simp] theorem State.setChan_time (s : State) (g p : Nat) (x : Chan) : (s.setChan g p x).time = s.time := by unfold State.setChan; split; exacts [State.setGroup_time .., rfl]
@[simp] theorem State.setChan_live (s : State) (g p : Nat) (x : Chan) : (s.setChan g p x).live = s.live := by unfold State.setChan; split; exacts [State.setGroup_live .., rfl]
@[simp] theorem State.setChan_staged (s : State) (g p : Nat) (x : Chan) : (s.setChan g p x).staged = s.staged := by unfold State.setChan; split; exacts [State.setGroup_staged .., rfl]
@[simp] theorem State.setChan_die (s : State) (g p : Nat) (x : Chan) : (s.setChan g p x).die = s.die := by unfold State.setChan; split; exacts [State.setGroup_die .., rfl]
@[simp] theorem State.setChan_mem (s : State) (g p : Nat) (x : Chan) : (s.setChan g p x).mem = s.mem := by unfold State.setChan; split; exacts [State.setGroup_mem .., rfl]
@[simp] theorem State.setChan_tp (s : State) (g p : Nat) (x : Chan) : (s.setChan g p x).tp = s.tp := by unfold State.setChan; split; exacts [State.setGroup_tp .., rfl]
@[simp] theorem State.setChan_engines (s : State) (g p : Nat) (x : Chan) : (s.setChan g p x).engines = s.engines := by unfold State.setChan; split; exacts [State.setGroup_engines .., rfl]
@[simp] theorem State.setChan_hi (s : State) (g p : Nat) (x : Chan) : (s.setChan g p x).hi = s.hi := by unfold State.setChan; split; exacts [State.setGroup_hi .., rfl]
@[simp] theorem State.setChan_sn (s : State) (g p : Nat) (x : Chan) : (s.setChan g p x).sn = s.sn := by unfold State.setChan; split; exacts [State.setGroup_sn .., rfl]
@[simp] theorem State.setChan_cm (s : State) (g p : Nat) (x : Chan) : (s.setChan g p x).cm = s.cm := by unfold State.setChan; split; exacts [State.setGroup_cm .., rfl]
@[simp] theorem State.setChan_ballot (s : State) (g p : Nat) (x : Chan) : (s.setChan g p x).ballot = s.ballot := by unfold State.setChan; split; exacts [State.setGroup_ballot .., rfl]
@[simp] theorem State.setChan_dg (s : State) (g p : Nat) (x : Chan) : (s.setChan g p x).dg = s.dg := by unfold State.setChan; split; exacts [State.setGroup_dg .., rfl]
@[simp] theorem State.setChan_cl (s : State) (g p : Nat) (x : Chan) : (s.setChan g p x).cl = s.cl := by unfold State.setChan; split; exacts [State.setGroup_cl .., rfl]
@[simp] theorem State.setChan_tw (s : State) (g p : Nat) (x : Chan) : (s.setChan g p x).tw = s.tw := by unfold State.setChan; split; exacts [State.setGroup_tw .., rfl]
@[simp] theorem State.setChan_sys (s : State) (g p : Nat) (x : Chan) : (s.setChan g p x).sys = s.sys := by unfold State.setChan; split; exacts [State.setGroup_sys .., rfl]
@[simp] theorem State.setChan_trigs (s : State) (g p : Nat) (x : Chan) : (s.setChan g p x).trigs = s.trigs := by unfold State.setChan; split; exacts [State.setGroup_trigs .., rfl]
@[simp] theorem State.setChan_trigOut (s : State) (g p : Nat) (x : Chan) : (s.setChan g p x).trigOut = s.trigOut := by unfold State.setChan; split; exacts [State.setGroup_trigOut .., rfl]
@[simp] theorem State.setChan_slotAt (s : State) (g p : Nat) (x : Chan) : (s.setChan g p x).slotAt = s.slotAt := by unfold State.setChan; split; exacts [State.setGroup_slotAt .., rfl]
@[simp] theorem State.setChan_imgEntries (s : State) (g p : Nat) (x : Chan) : (s.setChan g p x).imgEntries = s.imgEntries := by unfold State.setChan; split; exacts [State.setGroup_imgEntries .., rfl]
@[simp] theorem State.setChan_imgDisp (s : State) (g p : Nat) (x : Chan) : (s.setChan g p x).imgDisp = s.imgDisp := by unfold State.setChan; split; exacts [State.setGroup_imgDisp .., rfl]
@[simp] theorem State.setChan_cs (s : State) (g p : Nat) (x : Chan) : (s.setChan g p x).cs = s.cs := by unfold State.setChan; split; exacts [State.setGroup_cs .., rfl]
@[simp] theorem State.setChan_disp (s : State) (g p : Nat) (x : Chan) : (s.setChan g p x).disp = s.disp := by unfold State.setChan; split; exacts [State.setGroup_disp .., rfl]
@[simp] theorem State.setChan_raised (s : State) (g p : Nat) (x : Chan) : (s.setChan g p x).raised = s.raised := by unfold State.setChan; split; exacts [State.setGroup_raised .., rfl]
@[simp] theorem State.setChan_out (s : State) (g p : Nat) (x : Chan) : (s.setChan g p x).out = s.out := by unfold State.setChan; split; exacts [State.setGroup_out .., rfl]
@[simp] theorem State.setChan_free (s : State) (g p : Nat) (x : Chan) : (s.setChan g p x).free = s.free := by unfold State.setChan; split; exacts [State.setGroup_free .., rfl]
@[simp] theorem State.setChan_pending (s : State) (g p : Nat) (x : Chan) : (s.setChan g p x).pending = s.pending := by unfold State.setChan; split; exacts [State.setGroup_pending .., rfl]

@[simp] theorem State.setEngine_time (s : State) (e : Nat) (x : Engine) : (s.setEngine e x).time = s.time := by unfold State.setEngine; split <;> rfl
@[simp] theorem State.setEngine_live (s : State) (e : Nat) (x : Engine) : (s.setEngine e x).live = s.live := by unfold State.setEngine; split <;> rfl
@[simp] theorem State.setEngine_staged (s : State) (e : Nat) (x : Engine) : (s.setEngine e x).staged = s.staged := by unfold State.setEngine; split <;> rfl
@[simp] theorem State.setEngine_die (s : State) (e : Nat) (x : Engine) : (s.setEngine e x).die = s.die := by unfold State.setEngine; split <;> rfl
@[simp] theorem State.setEngine_mem (s : State) (e : Nat) (x : Engine) : (s.setEngine e x).mem = s.mem := by unfold State.setEngine; split <;> rfl
@[simp] theorem State.setEngine_tp (s : State) (e : Nat) (x : Engine) : (s.setEngine e x).tp = s.tp := by unfold State.setEngine; split <;> rfl
@[simp] theorem State.setEngine_groups (s : State) (e : Nat) (x : Engine) : (s.setEngine e x).groups = s.groups := by unfold State.setEngine; split <;> rfl
@[simp] theorem State.setEngine_hi (s : State) (e : Nat) (x : Engine) : (s.setEngine e x).hi = s.hi := by unfold State.setEngine; split <;> rfl
@[simp] theorem State.setEngine_sn (s : State) (e : Nat) (x : Engine) : (s.setEngine e x).sn = s.sn := by unfold State.setEngine; split <;> rfl
@[simp] theorem State.setEngine_cm (s : State) (e : Nat) (x : Engine) : (s.setEngine e x).cm = s.cm := by unfold State.setEngine; split <;> rfl
@[simp] theorem State.setEngine_ballot (s : State) (e : Nat) (x : Engine) : (s.setEngine e x).ballot = s.ballot := by unfold State.setEngine; split <;> rfl
@[simp] theorem State.setEngine_dg (s : State) (e : Nat) (x : Engine) : (s.setEngine e x).dg = s.dg := by unfold State.setEngine; split <;> rfl
@[simp] theorem State.setEngine_cl (s : State) (e : Nat) (x : Engine) : (s.setEngine e x).cl = s.cl := by unfold State.setEngine; split <;> rfl
@[simp] theorem State.setEngine_tw (s : State) (e : Nat) (x : Engine) : (s.setEngine e x).tw = s.tw := by unfold State.setEngine; split <;> rfl
@[simp] theorem State.setEngine_sys (s : State) (e : Nat) (x : Engine) : (s.setEngine e x).sys = s.sys := by unfold State.setEngine; split <;> rfl
@[simp] theorem State.setEngine_trigs (s : State) (e : Nat) (x : Engine) : (s.setEngine e x).trigs = s.trigs := by unfold State.setEngine; split <;> rfl
@[simp] theorem State.setEngine_trigOut (s : State) (e : Nat) (x : Engine) : (s.setEngine e x).trigOut = s.trigOut := by unfold State.setEngine; split <;> rfl
@[simp] theorem State.setEngine_slotAt (s : State) (e : Nat) (x : Engine) : (s.setEngine e x).slotAt = s.slotAt := by unfold State.setEngine; split <;> rfl
@[simp] theorem State.setEngine_imgEntries (s : State) (e : Nat) (x : Engine) : (s.setEngine e x).imgEntries = s.imgEntries := by unfold State.setEngine; split <;> rfl
@[simp] theorem State.setEngine_imgDisp (s : State) (e : Nat) (x : Engine) : (s.setEngine e x).imgDisp = s.imgDisp := by unfold State.setEngine; split <;> rfl
@[simp] theorem State.setEngine_cs (s : State) (e : Nat) (x : Engine) : (s.setEngine e x).cs = s.cs := by unfold State.setEngine; split <;> rfl
@[simp] theorem State.setEngine_disp (s : State) (e : Nat) (x : Engine) : (s.setEngine e x).disp = s.disp := by unfold State.setEngine; split <;> rfl
@[simp] theorem State.setEngine_raised (s : State) (e : Nat) (x : Engine) : (s.setEngine e x).raised = s.raised := by unfold State.setEngine; split <;> rfl
@[simp] theorem State.setEngine_out (s : State) (e : Nat) (x : Engine) : (s.setEngine e x).out = s.out := by unfold State.setEngine; split <;> rfl
@[simp] theorem State.setEngine_free (s : State) (e : Nat) (x : Engine) : (s.setEngine e x).free = s.free := by unfold State.setEngine; split <;> rfl
@[simp] theorem State.setEngine_pending (s : State) (e : Nat) (x : Engine) : (s.setEngine e x).pending = s.pending := by unfold State.setEngine; split <;> rfl

@[simp] theorem State.burn_time (s : State) : (s.burn).time = s.time := by rfl
@[simp] theorem State.burn_live (s : State) : (s.burn).live = s.live := by rfl
@[simp] theorem State.burn_staged (s : State) : (s.burn).staged = s.staged := by rfl
@[simp] theorem State.burn_die (s : State) : (s.burn).die = s.die := by rfl
@[simp] theorem State.burn_mem (s : State) : (s.burn).mem = s.mem := by rfl
@[simp] theorem State.burn_tp (s : State) : (s.burn).tp = s.tp := by rfl
@[simp] theorem State.burn_groups (s : State) : (s.burn).groups = s.groups := by rfl
@[simp] theorem State.burn_engines (s : State) : (s.burn).engines = s.engines := by rfl
@[simp] theorem State.burn_hi (s : State) : (s.burn).hi = s.hi := by rfl
@[simp] theorem State.burn_sn (s : State) : (s.burn).sn = s.sn := by rfl
@[simp] theorem State.burn_cm (s : State) : (s.burn).cm = s.cm := by rfl
@[simp] theorem State.burn_ballot (s : State) : (s.burn).ballot = s.ballot := by rfl
@[simp] theorem State.burn_dg (s : State) : (s.burn).dg = s.dg := by rfl
@[simp] theorem State.burn_cl (s : State) : (s.burn).cl = s.cl := by rfl
@[simp] theorem State.burn_tw (s : State) : (s.burn).tw = s.tw := by rfl
@[simp] theorem State.burn_sys (s : State) : (s.burn).sys = s.sys := by rfl
@[simp] theorem State.burn_trigs (s : State) : (s.burn).trigs = s.trigs := by rfl
@[simp] theorem State.burn_trigOut (s : State) : (s.burn).trigOut = s.trigOut := by rfl
@[simp] theorem State.burn_slotAt (s : State) : (s.burn).slotAt = s.slotAt := by rfl
@[simp] theorem State.burn_imgEntries (s : State) : (s.burn).imgEntries = s.imgEntries := by rfl
@[simp] theorem State.burn_imgDisp (s : State) : (s.burn).imgDisp = s.imgDisp := by rfl
@[simp] theorem State.burn_cs (s : State) : (s.burn).cs = s.cs := by rfl
@[simp] theorem State.burn_disp (s : State) : (s.burn).disp = s.disp := by rfl
@[simp] theorem State.burn_raised (s : State) : (s.burn).raised = s.raised := by rfl
@[simp] theorem State.burn_out (s : State) : (s.burn).out = s.out := by rfl
@[simp] theorem State.burn_pending (s : State) : (s.burn).pending = s.pending := by rfl

@[simp] theorem State.emit_time (s : State) (o : Output) : (s.emit o).time = s.time := by rfl
@[simp] theorem State.emit_live (s : State) (o : Output) : (s.emit o).live = s.live := by rfl
@[simp] theorem State.emit_staged (s : State) (o : Output) : (s.emit o).staged = s.staged := by rfl
@[simp] theorem State.emit_die (s : State) (o : Output) : (s.emit o).die = s.die := by rfl
@[simp] theorem State.emit_mem (s : State) (o : Output) : (s.emit o).mem = s.mem := by rfl
@[simp] theorem State.emit_tp (s : State) (o : Output) : (s.emit o).tp = s.tp := by rfl
@[simp] theorem State.emit_groups (s : State) (o : Output) : (s.emit o).groups = s.groups := by rfl
@[simp] theorem State.emit_engines (s : State) (o : Output) : (s.emit o).engines = s.engines := by rfl
@[simp] theorem State.emit_hi (s : State) (o : Output) : (s.emit o).hi = s.hi := by rfl
@[simp] theorem State.emit_sn (s : State) (o : Output) : (s.emit o).sn = s.sn := by rfl
@[simp] theorem State.emit_cm (s : State) (o : Output) : (s.emit o).cm = s.cm := by rfl
@[simp] theorem State.emit_ballot (s : State) (o : Output) : (s.emit o).ballot = s.ballot := by rfl
@[simp] theorem State.emit_dg (s : State) (o : Output) : (s.emit o).dg = s.dg := by rfl
@[simp] theorem State.emit_cl (s : State) (o : Output) : (s.emit o).cl = s.cl := by rfl
@[simp] theorem State.emit_tw (s : State) (o : Output) : (s.emit o).tw = s.tw := by rfl
@[simp] theorem State.emit_sys (s : State) (o : Output) : (s.emit o).sys = s.sys := by rfl
@[simp] theorem State.emit_trigs (s : State) (o : Output) : (s.emit o).trigs = s.trigs := by rfl
@[simp] theorem State.emit_trigOut (s : State) (o : Output) : (s.emit o).trigOut = s.trigOut := by rfl
@[simp] theorem State.emit_slotAt (s : State) (o : Output) : (s.emit o).slotAt = s.slotAt := by rfl
@[simp] theorem State.emit_imgEntries (s : State) (o : Output) : (s.emit o).imgEntries = s.imgEntries := by rfl
@[simp] theorem State.emit_imgDisp (s : State) (o : Output) : (s.emit o).imgDisp = s.imgDisp := by rfl
@[simp] theorem State.emit_cs (s : State) (o : Output) : (s.emit o).cs = s.cs := by rfl
@[simp] theorem State.emit_disp (s : State) (o : Output) : (s.emit o).disp = s.disp := by rfl
@[simp] theorem State.emit_raised (s : State) (o : Output) : (s.emit o).raised = s.raised := by rfl
@[simp] theorem State.emit_free (s : State) (o : Output) : (s.emit o).free = s.free := by rfl
@[simp] theorem State.emit_pending (s : State) (o : Output) : (s.emit o).pending = s.pending := by rfl

@[simp] theorem State.setMemWord_time (s : State) (a : Nat) (w : Native) : (s.setMemWord a w).time = s.time := by rfl
@[simp] theorem State.setMemWord_live (s : State) (a : Nat) (w : Native) : (s.setMemWord a w).live = s.live := by rfl
@[simp] theorem State.setMemWord_staged (s : State) (a : Nat) (w : Native) : (s.setMemWord a w).staged = s.staged := by rfl
@[simp] theorem State.setMemWord_die (s : State) (a : Nat) (w : Native) : (s.setMemWord a w).die = s.die := by rfl
@[simp] theorem State.setMemWord_tp (s : State) (a : Nat) (w : Native) : (s.setMemWord a w).tp = s.tp := by rfl
@[simp] theorem State.setMemWord_groups (s : State) (a : Nat) (w : Native) : (s.setMemWord a w).groups = s.groups := by rfl
@[simp] theorem State.setMemWord_engines (s : State) (a : Nat) (w : Native) : (s.setMemWord a w).engines = s.engines := by rfl
@[simp] theorem State.setMemWord_hi (s : State) (a : Nat) (w : Native) : (s.setMemWord a w).hi = s.hi := by rfl
@[simp] theorem State.setMemWord_sn (s : State) (a : Nat) (w : Native) : (s.setMemWord a w).sn = s.sn := by rfl
@[simp] theorem State.setMemWord_cm (s : State) (a : Nat) (w : Native) : (s.setMemWord a w).cm = s.cm := by rfl
@[simp] theorem State.setMemWord_ballot (s : State) (a : Nat) (w : Native) : (s.setMemWord a w).ballot = s.ballot := by rfl
@[simp] theorem State.setMemWord_dg (s : State) (a : Nat) (w : Native) : (s.setMemWord a w).dg = s.dg := by rfl
@[simp] theorem State.setMemWord_cl (s : State) (a : Nat) (w : Native) : (s.setMemWord a w).cl = s.cl := by rfl
@[simp] theorem State.setMemWord_tw (s : State) (a : Nat) (w : Native) : (s.setMemWord a w).tw = s.tw := by rfl
@[simp] theorem State.setMemWord_sys (s : State) (a : Nat) (w : Native) : (s.setMemWord a w).sys = s.sys := by rfl
@[simp] theorem State.setMemWord_trigs (s : State) (a : Nat) (w : Native) : (s.setMemWord a w).trigs = s.trigs := by rfl
@[simp] theorem State.setMemWord_trigOut (s : State) (a : Nat) (w : Native) : (s.setMemWord a w).trigOut = s.trigOut := by rfl
@[simp] theorem State.setMemWord_slotAt (s : State) (a : Nat) (w : Native) : (s.setMemWord a w).slotAt = s.slotAt := by rfl
@[simp] theorem State.setMemWord_imgEntries (s : State) (a : Nat) (w : Native) : (s.setMemWord a w).imgEntries = s.imgEntries := by rfl
@[simp] theorem State.setMemWord_imgDisp (s : State) (a : Nat) (w : Native) : (s.setMemWord a w).imgDisp = s.imgDisp := by rfl
@[simp] theorem State.setMemWord_cs (s : State) (a : Nat) (w : Native) : (s.setMemWord a w).cs = s.cs := by rfl
@[simp] theorem State.setMemWord_disp (s : State) (a : Nat) (w : Native) : (s.setMemWord a w).disp = s.disp := by rfl
@[simp] theorem State.setMemWord_raised (s : State) (a : Nat) (w : Native) : (s.setMemWord a w).raised = s.raised := by rfl
@[simp] theorem State.setMemWord_out (s : State) (a : Nat) (w : Native) : (s.setMemWord a w).out = s.out := by rfl
@[simp] theorem State.setMemWord_free (s : State) (a : Nat) (w : Native) : (s.setMemWord a w).free = s.free := by rfl
@[simp] theorem State.setMemWord_pending (s : State) (a : Nat) (w : Native) : (s.setMemWord a w).pending = s.pending := by rfl

end Sys2Proof.Machine
end

