-- ==== Sys2Proof/Laws/Get.lean ====
section
/-! SUPPORT. Reading a register, a group or an engine after an update. -/

namespace Sys2Proof.Machine

/-! ### Registers -/

theorem State.get_eq (s : State) (x : Fld) : s.get x = fieldOf (s.live.word x.reg) x.hi x.lo := rfl

theorem State.get_lt (s : State) (x : Fld) : s.get x < 2 ^ (x.hi + 1 - x.lo) := fieldOf_lt ..

/-- A field reads as written, modulo its range. -/
theorem State.get_set (s : State) (x : Fld) (v : Nat) (h : x.inWord) : (s.set x v).get x = v % 2 ^ (x.hi + 1 - x.lo) :=
  RegFile.get_set _ _ _ h

/-- A field apart from the written one is unchanged. -/
theorem State.get_set_apart (s : State) (x y : Fld) (v : Nat) (h : x.inWord) (a : x.apart y) :
    (s.set x v).get y = s.get y := RegFile.get_set_apart _ _ _ _ h a

theorem State.word_set_ne (s : State) (x : Fld) (v : Nat) (r : Reg) (h : x.reg.addr ≠ r.addr) :
    (s.set x v).word r = s.word r := RegFile.word_setWord_ne _ _ _ _ h

theorem State.word_setWord (s : State) (r : Reg) (w : Word) : (s.setWord r w).word r = w := RegFile.word_setWord ..

theorem State.word_setWord_ne (s : State) (r q : Reg) (w : Word) (h : r.addr ≠ q.addr) :
    (s.setWord r w).word q = s.word q := RegFile.word_setWord_ne _ _ _ _ h

/-- What is read depends on the live plane only. -/
theorem State.get_congr {s t : State} (h : t.live = s.live) (x : Fld) : t.get x = s.get x := by rw [get_eq, get_eq, h]

theorem State.word_congr {s t : State} (h : t.live = s.live) (r : Reg) : t.word r = s.word r := by
  rw [State.word, State.word, h]

@[simp] theorem State.get_setGroup (s : State) (g : Nat) (x : Group) (f : Fld) : (s.setGroup g x).get f = s.get f :=
  get_congr (by simp) f
@[simp] theorem State.get_setChan (s : State) (g p : Nat) (x : Chan) (f : Fld) : (s.setChan g p x).get f = s.get f :=
  get_congr (by simp) f
@[simp] theorem State.get_setEngine (s : State) (e : Nat) (x : Engine) (f : Fld) : (s.setEngine e x).get f = s.get f :=
  get_congr (by simp) f
@[simp] theorem State.get_emit (s : State) (o : Output) (f : Fld) : (s.emit o).get f = s.get f := get_congr (by simp) f
@[simp] theorem State.get_burn (s : State) (f : Fld) : s.burn.get f = s.get f := get_congr (by simp) f
@[simp] theorem State.get_setMemWord (s : State) (a : Nat) (w : Native) (f : Fld) : (s.setMemWord a w).get f = s.get f :=
  get_congr (by simp) f
@[simp] theorem State.get_dieSet (s : State) (x : Fld) (v : Nat) (f : Fld) : (s.dieSet x v).get f = s.get f :=
  get_congr (by simp) f
@[simp] theorem State.word_setGroup (s : State) (g : Nat) (x : Group) (r : Reg) : (s.setGroup g x).word r = s.word r :=
  word_congr (by simp) r
@[simp] theorem State.word_setEngine (s : State) (e : Nat) (x : Engine) (r : Reg) : (s.setEngine e x).word r = s.word r :=
  word_congr (by simp) r
@[simp] theorem State.word_emit (s : State) (o : Output) (r : Reg) : (s.emit o).word r = s.word r := word_congr (by simp) r

/-- A counter stops at its field's maximum. -/
theorem State.get_count (s : State) (x : Fld) (n : Nat) (h : x.inWord) :
    (s.count x n).get x = min (s.get x + n) (2 ^ (x.hi + 1 - x.lo) - 1) := by
  rw [count, get_set _ _ _ h, Nat.mod_eq_of_lt]
  have := Nat.two_pow_pos (x.hi + 1 - x.lo)
  omega

theorem State.get_count_apart (s : State) (x y : Fld) (n : Nat) (h : x.inWord) (a : x.apart y) :
    (s.count x n).get y = s.get y := get_set_apart _ _ _ _ h a

/-- A flag that hardware sets reads as one set; the note of it is no register (R6). -/
theorem State.get_raise (s : State) (f y : Fld) : (s.raise f).get y = (s.set f 1).get y := rfl
theorem State.get_raiseBit (s : State) (f y : Fld) (i : Nat) : (s.raiseBit f i).get y = (s.setBit f i true).get y := rfl
@[simp] theorem State.get_note (s : State) (a i : Nat) (y : Fld) : (s.note a i).get y = s.get y := rfl

/-- A flag reads 1 once set. -/
theorem State.get_flag (s : State) (f c : Fld) (h : f.inWord) (k : c.inWord) (a : c.apart f) (one : f.hi = f.lo) :
    (s.flag f c).get f = 1 := by
  rw [flag, get_count_apart _ _ _ _ k a, get_raise, get_set _ _ _ h, one]
  simp

theorem State.get_flag_apart (s : State) (f c y : Fld) (h : f.inWord) (k : c.inWord) (a : f.apart y) (b : c.apart y) :
    (s.flag f c).get y = s.get y := by rw [flag, get_count_apart _ _ _ _ k b, get_raise, get_set_apart _ _ _ _ h a]

/-- The companion counter of a flag goes up by 1, up to its maximum. -/
theorem State.get_flag_count (s : State) (f c : Fld) (h : f.inWord) (k : c.inWord) (a : f.apart c) :
    (s.flag f c).get c = min (s.get c + 1) (2 ^ (c.hi + 1 - c.lo) - 1) := by
  rw [flag, get_count _ _ _ k, get_raise, get_set_apart _ _ _ _ h a]

/-! ### Groups, channels and engines -/

theorem State.group_setGroup (s : State) (g : Nat) (x : Group) (h : g < 32) : (s.setGroup g x).group g = x := by
  simp [State.group, State.setGroup, h]

theorem State.group_setGroup_ne (s : State) (g k : Nat) (x : Group) (h : g ≠ k) : (s.setGroup g x).group k = s.group k := by
  by_cases a : g < 32 <;> by_cases b : k < 32 <;> simp [State.group, State.setGroup, a, b, h]

theorem State.engine_setEngine (s : State) (e : Nat) (x : Engine) (h : e < 32) : (s.setEngine e x).engine e = x := by
  simp [State.engine, State.setEngine, h]

theorem State.engine_setEngine_ne (s : State) (e k : Nat) (x : Engine) (h : e ≠ k) :
    (s.setEngine e x).engine k = s.engine k := by
  by_cases a : e < 32 <;> by_cases b : k < 32 <;> simp [State.engine, State.setEngine, a, b, h]

theorem State.group_congr {s t : State} (h : t.groups = s.groups) (g : Nat) : t.group g = s.group g := by
  unfold State.group; rw [h]

theorem State.engine_congr {s t : State} (h : t.engines = s.engines) (e : Nat) : t.engine e = s.engine e := by
  unfold State.engine; rw [h]

theorem vget_vset {α : Type} {n : Nat} (v : Vector α n) (i : Nat) (x d : α) (h : i < n) : vget (vset v i x) i d = x := by
  simp [vget, vset, h]

theorem vget_vset_ne {α : Type} {n : Nat} (v : Vector α n) (i k : Nat) (x d : α) (h : i ≠ k) :
    vget (vset v i x) k d = vget v k d := by
  by_cases a : i < n <;> by_cases b : k < n <;> simp [vget, vset, a, b, h]

/-! ### Repeated operations -/

/-- What each operation of a repetition keeps, the repetition keeps. -/
theorem State.forEach_keeps {α : Type} (P : State → α) (f : State → Nat → State) (h : ∀ s i, P (f s i) = P s)
    (s : State) (l : List Nat) : P (s.forEach l f) = P s := by
  unfold State.forEach
  induction l generalizing s with
  | nil => rfl
  | cons i l ih => rw [List.foldl_cons, ih, h]

/-- What holds and is kept by each operation of a repetition holds after it. -/
theorem State.forEach_holds (P : State → Prop) (f : State → Nat → State) (h : ∀ s i, P s → P (f s i))
    (s : State) (l : List Nat) (hs : P s) : P (s.forEach l f) := by
  unfold State.forEach
  induction l generalizing s with
  | nil => exact hs
  | cons i l ih => exact ih _ (h _ _ hs)

end Sys2Proof.Machine
end

