-- ==== Sys2Proof/Laws/Settle.lean ====
section
/-! SUPPORT. What `settle` adds to a meaning: MSI-X messages, their pending bits and ALERT_N, and nothing else. -/

namespace Sys2Proof.Machine

theorem State.imapV_lt (s : State) (b : Nat) : s.imapV b < 64 := by
  unfold State.imapV
  split <;> exact State.get_lt ..

theorem State.word_sendVector (s : State) (v : Nat) (r : Reg) (hv : v < 64) (h : r.notPba) :
    (s.sendVector v).word r = s.word r := by
  unfold State.sendVector
  split
  · refine State.word_set_ne _ _ _ _ ?_
    simp only [MSIX_PBA_PEND, MSIX_PBA]
    omega
  · simp

theorem State.word_signal (s : State) (l : List Nat) (r : Reg) (h : r.notPba) : (s.signal l).word r = s.word r := by
  unfold State.signal State.forEach
  have k : ∀ v ∈ ((l.map s.imapV).eraseDups), v < 64 := by
    intro v hv
    obtain ⟨b, -, rfl⟩ := List.mem_map.1 (List.mem_eraseDups.1 hv)
    exact s.imapV_lt b
  generalize (l.map s.imapV).eraseDups = m at k
  induction m generalizing s with
  | nil => rfl
  | cons v m ih =>
    rw [List.foldl_cons, ih _ (fun x hx => k x (List.mem_cons_of_mem _ hx))]
    exact State.word_sendVector _ _ _ (k v List.mem_cons_self) h

/-- Every register outside the PBA is as the meaning leaves it. -/
theorem word_settle (s t : State) (r : Reg) (h : r.notPba) : (settle s t).word r = t.word r := by
  unfold settle
  simp only
  split <;> exact State.word_signal _ _ _ h

theorem get_settle (s t : State) (x : Fld) (h : x.reg.notPba) : (settle s t).get x = t.get x := by
  have := word_settle s t x.reg h
  simp only [State.word] at this
  rw [State.get_eq, State.get_eq, this]

theorem on_settle (s t : State) (x : Fld) (h : x.reg.notPba) : (settle s t).on x = t.on x := by
  rw [State.on, State.on, get_settle _ _ _ h]

theorem State.sendVector_time (s : State) (v : Nat) : (s.sendVector v).time = s.time := by unfold State.sendVector; split <;> simp
theorem State.sendVector_staged (s : State) (v : Nat) : (s.sendVector v).staged = s.staged := by unfold State.sendVector; split <;> simp
theorem State.sendVector_die (s : State) (v : Nat) : (s.sendVector v).die = s.die := by unfold State.sendVector; split <;> simp
theorem State.sendVector_mem (s : State) (v : Nat) : (s.sendVector v).mem = s.mem := by unfold State.sendVector; split <;> simp
theorem State.sendVector_tp (s : State) (v : Nat) : (s.sendVector v).tp = s.tp := by unfold State.sendVector; split <;> simp
theorem State.sendVector_groups (s : State) (v : Nat) : (s.sendVector v).groups = s.groups := by unfold State.sendVector; split <;> simp
theorem State.sendVector_engines (s : State) (v : Nat) : (s.sendVector v).engines = s.engines := by unfold State.sendVector; split <;> simp
theorem State.sendVector_sn (s : State) (v : Nat) : (s.sendVector v).sn = s.sn := by unfold State.sendVector; split <;> simp
theorem State.sendVector_cm (s : State) (v : Nat) : (s.sendVector v).cm = s.cm := by unfold State.sendVector; split <;> simp
theorem State.sendVector_ballot (s : State) (v : Nat) : (s.sendVector v).ballot = s.ballot := by unfold State.sendVector; split <;> simp
theorem State.sendVector_dg (s : State) (v : Nat) : (s.sendVector v).dg = s.dg := by unfold State.sendVector; split <;> simp
theorem State.sendVector_cl (s : State) (v : Nat) : (s.sendVector v).cl = s.cl := by unfold State.sendVector; split <;> simp
theorem State.sendVector_tw (s : State) (v : Nat) : (s.sendVector v).tw = s.tw := by unfold State.sendVector; split <;> simp
theorem State.sendVector_sys (s : State) (v : Nat) : (s.sendVector v).sys = s.sys := by unfold State.sendVector; split <;> simp
theorem State.sendVector_trigs (s : State) (v : Nat) : (s.sendVector v).trigs = s.trigs := by unfold State.sendVector; split <;> simp
theorem State.sendVector_trigOut (s : State) (v : Nat) : (s.sendVector v).trigOut = s.trigOut := by unfold State.sendVector; split <;> simp
theorem State.sendVector_slotAt (s : State) (v : Nat) : (s.sendVector v).slotAt = s.slotAt := by unfold State.sendVector; split <;> simp
theorem State.sendVector_imgEntries (s : State) (v : Nat) : (s.sendVector v).imgEntries = s.imgEntries := by unfold State.sendVector; split <;> simp
theorem State.sendVector_imgDisp (s : State) (v : Nat) : (s.sendVector v).imgDisp = s.imgDisp := by unfold State.sendVector; split <;> simp
theorem State.sendVector_cs (s : State) (v : Nat) : (s.sendVector v).cs = s.cs := by unfold State.sendVector; split <;> simp
theorem State.sendVector_disp (s : State) (v : Nat) : (s.sendVector v).disp = s.disp := by unfold State.sendVector; split <;> simp
theorem State.sendVector_free (s : State) (v : Nat) : (s.sendVector v).free = s.free := by unfold State.sendVector; split <;> simp
theorem State.sendVector_pending (s : State) (v : Nat) : (s.sendVector v).pending = s.pending := by unfold State.sendVector; split <;> simp
theorem State.sendVector_hi (s : State) (v : Nat) : (s.sendVector v).hi = s.hi := by unfold State.sendVector; split <;> simp

@[simp] theorem settle_time (s t : State) : (settle s t).time = t.time := by
  have h := State.forEach_keeps State.time _ State.sendVector_time t ((risen s t).map t.imapV).eraseDups
  unfold settle State.signal
  simp only
  split <;> exact h
@[simp] theorem settle_staged (s t : State) : (settle s t).staged = t.staged := by
  have h := State.forEach_keeps State.staged _ State.sendVector_staged t ((risen s t).map t.imapV).eraseDups
  unfold settle State.signal
  simp only
  split <;> exact h
@[simp] theorem settle_die (s t : State) : (settle s t).die = t.die := by
  have h := State.forEach_keeps State.die _ State.sendVector_die t ((risen s t).map t.imapV).eraseDups
  unfold settle State.signal
  simp only
  split <;> exact h
@[simp] theorem settle_mem (s t : State) : (settle s t).mem = t.mem := by
  have h := State.forEach_keeps State.mem _ State.sendVector_mem t ((risen s t).map t.imapV).eraseDups
  unfold settle State.signal
  simp only
  split <;> exact h
@[simp] theorem settle_tp (s t : State) : (settle s t).tp = t.tp := by
  have h := State.forEach_keeps State.tp _ State.sendVector_tp t ((risen s t).map t.imapV).eraseDups
  unfold settle State.signal
  simp only
  split <;> exact h
@[simp] theorem settle_groups (s t : State) : (settle s t).groups = t.groups := by
  have h := State.forEach_keeps State.groups _ State.sendVector_groups t ((risen s t).map t.imapV).eraseDups
  unfold settle State.signal
  simp only
  split <;> exact h
@[simp] theorem settle_engines (s t : State) : (settle s t).engines = t.engines := by
  have h := State.forEach_keeps State.engines _ State.sendVector_engines t ((risen s t).map t.imapV).eraseDups
  unfold settle State.signal
  simp only
  split <;> exact h
@[simp] theorem settle_sn (s t : State) : (settle s t).sn = t.sn := by
  have h := State.forEach_keeps State.sn _ State.sendVector_sn t ((risen s t).map t.imapV).eraseDups
  unfold settle State.signal
  simp only
  split <;> exact h
@[simp] theorem settle_cm (s t : State) : (settle s t).cm = t.cm := by
  have h := State.forEach_keeps State.cm _ State.sendVector_cm t ((risen s t).map t.imapV).eraseDups
  unfold settle State.signal
  simp only
  split <;> exact h
@[simp] theorem settle_ballot (s t : State) : (settle s t).ballot = t.ballot := by
  have h := State.forEach_keeps State.ballot _ State.sendVector_ballot t ((risen s t).map t.imapV).eraseDups
  unfold settle State.signal
  simp only
  split <;> exact h
@[simp] theorem settle_dg (s t : State) : (settle s t).dg = t.dg := by
  have h := State.forEach_keeps State.dg _ State.sendVector_dg t ((risen s t).map t.imapV).eraseDups
  unfold settle State.signal
  simp only
  split <;> exact h
@[simp] theorem settle_cl (s t : State) : (settle s t).cl = t.cl := by
  have h := State.forEach_keeps State.cl _ State.sendVector_cl t ((risen s t).map t.imapV).eraseDups
  unfold settle State.signal
  simp only
  split <;> exact h
@[simp] theorem settle_tw (s t : State) : (settle s t).tw = t.tw := by
  have h := State.forEach_keeps State.tw _ State.sendVector_tw t ((risen s t).map t.imapV).eraseDups
  unfold settle State.signal
  simp only
  split <;> exact h
@[simp] theorem settle_sys (s t : State) : (settle s t).sys = t.sys := by
  have h := State.forEach_keeps State.sys _ State.sendVector_sys t ((risen s t).map t.imapV).eraseDups
  unfold settle State.signal
  simp only
  split <;> exact h
@[simp] theorem settle_trigs (s t : State) : (settle s t).trigs = t.trigs := by
  have h := State.forEach_keeps State.trigs _ State.sendVector_trigs t ((risen s t).map t.imapV).eraseDups
  unfold settle State.signal
  simp only
  split <;> exact h
@[simp] theorem settle_trigOut (s t : State) : (settle s t).trigOut = t.trigOut := by
  have h := State.forEach_keeps State.trigOut _ State.sendVector_trigOut t ((risen s t).map t.imapV).eraseDups
  unfold settle State.signal
  simp only
  split <;> exact h
@[simp] theorem settle_slotAt (s t : State) : (settle s t).slotAt = t.slotAt := by
  have h := State.forEach_keeps State.slotAt _ State.sendVector_slotAt t ((risen s t).map t.imapV).eraseDups
  unfold settle State.signal
  simp only
  split <;> exact h
@[simp] theorem settle_imgEntries (s t : State) : (settle s t).imgEntries = t.imgEntries := by
  have h := State.forEach_keeps State.imgEntries _ State.sendVector_imgEntries t ((risen s t).map t.imapV).eraseDups
  unfold settle State.signal
  simp only
  split <;> exact h
@[simp] theorem settle_imgDisp (s t : State) : (settle s t).imgDisp = t.imgDisp := by
  have h := State.forEach_keeps State.imgDisp _ State.sendVector_imgDisp t ((risen s t).map t.imapV).eraseDups
  unfold settle State.signal
  simp only
  split <;> exact h
@[simp] theorem settle_cs (s t : State) : (settle s t).cs = t.cs := by
  have h := State.forEach_keeps State.cs _ State.sendVector_cs t ((risen s t).map t.imapV).eraseDups
  unfold settle State.signal
  simp only
  split <;> exact h
@[simp] theorem settle_disp (s t : State) : (settle s t).disp = t.disp := by
  have h := State.forEach_keeps State.disp _ State.sendVector_disp t ((risen s t).map t.imapV).eraseDups
  unfold settle State.signal
  simp only
  split <;> exact h
@[simp] theorem settle_free (s t : State) : (settle s t).free = t.free := by
  have h := State.forEach_keeps State.free _ State.sendVector_free t ((risen s t).map t.imapV).eraseDups
  unfold settle State.signal
  simp only
  split <;> exact h
@[simp] theorem settle_pending (s t : State) : (settle s t).pending = t.pending := by
  have h := State.forEach_keeps State.pending _ State.sendVector_pending t ((risen s t).map t.imapV).eraseDups
  unfold settle State.signal
  simp only
  split <;> exact h

/-- The HI block keeps everything but ALERT_N. -/
theorem settle_hi (s t : State) : { (settle s t).hi with alertN := t.hi.alertN } = t.hi := by
  have h := State.forEach_keeps State.hi _ State.sendVector_hi t ((risen s t).map t.imapV).eraseDups
  unfold settle State.signal
  simp only
  split <;> simp [h]

@[simp] theorem ring_settle (s t : State) (r : Nat) : (settle s t).ring r = t.ring r := by
  have h := congrArg HiState.rings (settle_hi s t)
  unfold State.ring
  simp only at h
  rw [h]

@[simp] theorem group_settle (s t : State) (g : Nat) : (settle s t).group g = t.group g := State.group_congr (by simp) g
@[simp] theorem engine_settle (s t : State) (e : Nat) : (settle s t).engine e = t.engine e := State.engine_congr (by simp) e

/-! ### Outcomes -/

theorem runsTo_done (s t : State) (p : State → Prop) (h : p (settle s t)) : RunsTo (done s t) p := ⟨_, rfl, h⟩

theorem runsTo_doneIf (c : Bool) (s t : State) (p : State → Prop) (hc : c = true) (h : p (settle s t)) :
    RunsTo (doneIf c s t) p := ⟨_, rfl, by rw [hc]; exact h⟩

theorem runsTo_hostDone (s t : State) (p : State → Prop) (hr : s.ready = true) (h : p (settle s t)) :
    RunsTo (hostDone s t) p := ⟨_, rfl, by rw [hr]; exact h⟩

end Sys2Proof.Machine
end

