-- ==== Sys2Proof/Laws/Frame.lean ====
section
/-! SUPPORT. Frames: how they compose, and the frame of each named update. -/

namespace Sys2Proof.Machine

theorem State.samePart_refl (s : State) (p : Part) : s.samePart s p := by cases p <;> simp [State.samePart]

theorem State.samePart_trans {s t u : State} {p : Part} (h : s.samePart t p) (k : t.samePart u p) : s.samePart u p := by
  cases p <;> simp only [State.samePart] at *
  case hi => rw [← h, ← k]
  case image => exact ⟨k.1.trans h.1, k.2.trans h.2⟩
  case store => exact ⟨k.1.trans h.1, k.2.trans h.2⟩
  all_goals exact k.trans h

theorem Frame.refl (s : State) (ps : List Part) (w : Fld → Prop) : Frame s s ps w :=
  ⟨fun p _ => s.samePart_refl p, fun _ _ _ => rfl⟩

theorem Frame.trans {s t u : State} {ps : List Part} {w : Fld → Prop} (h : Frame s t ps w) (k : Frame t u ps w) :
    Frame s u ps w :=
  ⟨fun p hp => State.samePart_trans (h.part p hp) (k.part p hp),
   fun x hx hw => (k.reg x hx hw).trans (h.reg x hx hw)⟩

/-- A wider frame allows more. -/
theorem Frame.mono {s t : State} {ps qs : List Part} {w v : Fld → Prop} (h : Frame s t ps w) (hp : ps ⊆ qs)
    (hw : ∀ x, w x → v x) : Frame s t qs v :=
  ⟨fun p hq => h.part p fun m => hq (hp m), fun x hx hv => h.reg x hx fun y hy => hv y (hw y hy)⟩

/-- Only live registers changed, and only in one field. -/
theorem Frame.set (s : State) (ps : List Part) (w : Fld → Prop) (x : Fld) (v : Nat) (h : x.inWord) (hw : w x) :
    Frame s (s.set x v) ps w :=
  ⟨fun p _ => by cases p <;> simp [State.samePart], fun _ _ a => State.get_set_apart _ _ _ _ h (a x hw)⟩

theorem Frame.setInt (s : State) (ps : List Part) (w : Fld → Prop) (x : Fld) (v : Int) (h : x.inWord) (hw : w x) :
    Frame s (s.setInt x v) ps w := Frame.set _ _ _ _ _ h hw

theorem Frame.setBit (s : State) (ps : List Part) (w : Fld → Prop) (x : Fld) (i : Nat) (b : Bool) (h : x.inWord)
    (hw : w x) : Frame s (s.setBit x i b) ps w := Frame.set _ _ _ _ _ h hw

theorem Frame.count (s : State) (ps : List Part) (w : Fld → Prop) (x : Fld) (n : Nat) (h : x.inWord) (hw : w x) :
    Frame s (s.count x n) ps w := Frame.set _ _ _ _ _ h hw

theorem Frame.incr (s : State) (ps : List Part) (w : Fld → Prop) (x : Fld) (h : x.inWord) (hw : w x) :
    Frame s (s.incr x) ps w := Frame.set _ _ _ _ _ h hw

/-- The note of a flag that hardware sets is no part of a frame. -/
theorem Frame.note (s : State) (ps : List Part) (w : Fld → Prop) (a i : Nat) : Frame s (s.note a i) ps w :=
  ⟨fun p _ => by cases p <;> simp [State.samePart], fun _ _ _ => rfl⟩

theorem Frame.raise (s : State) (ps : List Part) (w : Fld → Prop) (f : Fld) (h : f.inWord) (hf : w f) :
    Frame s (s.raise f) ps w := (Frame.set s ps w f 1 h hf).trans (Frame.note ..)

theorem Frame.raiseBit (s : State) (ps : List Part) (w : Fld → Prop) (f : Fld) (i : Nat) (h : f.inWord) (hf : w f) :
    Frame s (s.raiseBit f i) ps w := (Frame.setBit s ps w f i true h hf).trans (Frame.note ..)

theorem Frame.flag (s : State) (ps : List Part) (w : Fld → Prop) (f c : Fld) (h : f.inWord) (k : c.inWord) (hf : w f)
    (hc : w c) : Frame s (s.flag f c) ps w := (Frame.raise s ps w f h hf).trans (Frame.count _ ps w c 1 k hc)

theorem Frame.setTime (s : State) (ps : List Part) (w : Fld → Prop) (l h : Fld) (t : Time) (a : l.inWord) (b : h.inWord)
    (hl : w l) (hh : w h) : Frame s (s.setTime l h t) ps w :=
  (Frame.set s ps w l _ a hl).trans (Frame.set _ ps w h _ b hh)

/-- Nothing but the listed parts changed, the live registers being the same. -/
theorem Frame.parts {s t : State} {ps : List Part} (w : Fld → Prop) (hp : ∀ p, p ∉ ps → s.samePart t p)
    (hl : t.live = s.live) : Frame s t ps w := ⟨hp, fun x _ _ => State.get_congr hl x⟩

theorem Frame.setGroup (s : State) (ps : List Part) (w : Fld → Prop) (g : Nat) (x : Group) (h : Part.groups ∈ ps) :
    Frame s (s.setGroup g x) ps w :=
  Frame.parts w (fun p hp => by cases p <;> first | exact absurd h hp | simp [State.samePart]) (by simp)

theorem Frame.setChan (s : State) (ps : List Part) (w : Fld → Prop) (g p : Nat) (x : Chan) (h : Part.groups ∈ ps) :
    Frame s (s.setChan g p x) ps w :=
  Frame.parts w (fun p hp => by cases p <;> first | exact absurd h hp | simp [State.samePart]) (by simp)

theorem Frame.setEngine (s : State) (ps : List Part) (w : Fld → Prop) (e : Nat) (x : Engine) (h : Part.engines ∈ ps) :
    Frame s (s.setEngine e x) ps w :=
  Frame.parts w (fun p hp => by cases p <;> first | exact absurd h hp | simp [State.samePart]) (by simp)

theorem Frame.emit (s : State) (ps : List Part) (w : Fld → Prop) (o : Output) : Frame s (s.emit o) ps w :=
  Frame.parts w (fun p _ => by cases p <;> simp [State.samePart]) (by simp)

theorem Frame.burn (s : State) (ps : List Part) (w : Fld → Prop) (h : Part.free ∈ ps) : Frame s s.burn ps w :=
  Frame.parts w (fun p hp => by cases p <;> first | exact absurd h hp | simp [State.samePart]) (by simp)

theorem Frame.setMemWord (s : State) (ps : List Part) (w : Fld → Prop) (a : Nat) (v : Native) (h : Part.mem ∈ ps) :
    Frame s (s.setMemWord a v) ps w :=
  Frame.parts w (fun p hp => by cases p <;> first | exact absurd h hp | simp [State.samePart]) (by simp)

theorem Frame.dieSet (s : State) (ps : List Part) (w : Fld → Prop) (x : Fld) (v : Nat) (h : Part.die ∈ ps) :
    Frame s (s.dieSet x v) ps w :=
  Frame.parts w (fun p hp => by cases p <;> first | exact absurd h hp | simp [State.samePart]) (by simp)

theorem Frame.setStagedWord (s : State) (ps : List Part) (w : Fld → Prop) (r : Reg) (v : Word) (h : Part.staged ∈ ps) :
    Frame s (s.setStagedWord r v) ps w :=
  Frame.parts w (fun p hp => by cases p <;> first | exact absurd h hp | simp [State.samePart]) (by simp)

/-- A repetition has the frame of its operation. -/
theorem Frame.forEach (s : State) (ps : List Part) (w : Fld → Prop) (l : List Nat) (f : State → Nat → State)
    (h : ∀ s i, i ∈ l → Frame s (f s i) ps w) : Frame s (s.forEach l f) ps w := by
  unfold State.forEach
  induction l generalizing s with
  | nil => exact Frame.refl ..
  | cons i l ih =>
    exact (h s i List.mem_cons_self).trans (ih _ fun s j hj => h s j (List.mem_cons_of_mem _ hj))

/-- The signals that follow a meaning change nothing that a frame speaks of. -/
theorem Frame.settle (s t : State) (ps : List Part) (w : Fld → Prop) : Frame t (settle s t) ps w := by
  refine ⟨fun p _ => ?_, fun x hx _ => get_settle _ _ _ hx⟩
  cases p <;> simp [State.samePart, settle_hi]

end Sys2Proof.Machine
end

