-- ==== Sys2Proof/Laws/Memory.lean ====
section
/-! SUPPORT. The memories behind BAR2: a read after a write, and the canonical form that every write keeps. -/

namespace Sys2Proof.Machine

/-- A byte reads as written. -/
theorem Memory.read_write (m : List Host.Cell) (a : Nat) (b : Byte) : Memory.read (Memory.write m a b) a = b := by
  unfold Memory.read Memory.write
  split
  · next h => simp [List.find?_filter, h, List.find?_eq_none.2]
  · have n : (m.filter (·.1 < a)).find? (·.1 == a) = none := by
      simp only [List.find?_eq_none, List.mem_filter, decide_eq_true_eq, beq_iff_eq]
      omega
    simp [List.find?_append, n]

/-- Every other byte reads as before. -/
theorem Memory.read_write_ne (m : List Host.Cell) (a c : Nat) (b : Byte) (h : c ≠ a) :
    Memory.read (Memory.write m a b) c = Memory.read m c := by
  have k : ∀ p : Host.Cell → Bool, (∀ x, x.1 = c → p x = true) → (m.filter p).find? (·.1 == c) = m.find? (·.1 == c) := by
    intro p hp
    rw [List.find?_filter]
    congr 1
    funext x
    by_cases e : x.1 = c
    · simp [e, hp x e]
    · simp [e]
  have z : ∀ p : Host.Cell → Bool, (∀ x, x.1 = c → p x = false) → (m.filter p).find? (·.1 == c) = none := by
    intro p hp
    simp only [List.find?_eq_none, List.mem_filter, beq_iff_eq]
    rintro x ⟨_, hx⟩ e
    simp [hp x e] at hx
  unfold Memory.read Memory.write
  split
  · rw [k _ (by simp; omega)]
  · have a' : (a == c) = false := by simpa using Ne.symm h
    simp only [List.find?_append, List.find?_cons, a']
    rcases Nat.lt_or_gt_of_ne h with g | g
    · rw [k _ (by simp; omega), z _ (by simp; omega)]
      simp
    · rw [z _ (by simp; omega), k _ (by simp; omega)]
      simp

/-- A write keeps the canonical form. -/
theorem Memory.write_wf (m : List Host.Cell) (a : Nat) (b : Byte) (h : Memory.wf m) : Memory.wf (Memory.write m a b) := by
  obtain ⟨h1, h2⟩ := h
  unfold Memory.wf Memory.write
  split
  · exact ⟨h1.filter _, fun c hc => h2 c (List.mem_filter.1 hc).1⟩
  · next hb =>
    refine ⟨?_, ?_⟩
    · rw [List.pairwise_append, List.pairwise_cons]
      refine ⟨h1.filter _, ⟨?_, h1.filter _⟩, ?_⟩
      · intro x hx
        simp at hx
        exact hx.2
      · intro x hx y hy
        simp at hx hy
        rcases hy with rfl | hy
        · exact hx.2
        · exact hx.2.trans hy.2
    · intro c hc
      simp only [List.mem_append, List.mem_cons, List.mem_filter] at hc
      rcases hc with hc | rfl | hc
      · exact h2 c hc.1
      · exact hb
      · exact h2 c hc.1

/-- The memory of a stored native word. -/
theorem State.setMemWord_mem (s : State) (a : Nat) (w : Native) :
    (s.setMemWord a w).mem = (List.range 9).foldl
      (fun m j => Memory.write m (a + j) (BitVec.ofNat 8 (w.toNat / 2 ^ (8 * j)))) s.mem := rfl

/-- Storing a native word keeps the canonical form. -/
theorem State.setMemWord_wf (s : State) (a : Nat) (w : Native) (h : Memory.wf s.mem) : Memory.wf (s.setMemWord a w).mem := by
  rw [setMemWord_mem]
  generalize List.range 9 = l
  generalize s.mem = m at h
  induction l generalizing m with
  | nil => exact h
  | cons j l ih => exact ih _ (Memory.write_wf _ _ _ h)

/-- Storing a native word leaves every byte outside its nine. -/
theorem State.read_setMemWord_out (s : State) (a : Nat) (w : Native) (c : Nat) (h : c < a ∨ a + 9 ≤ c) :
    Memory.read (s.setMemWord a w).mem c = Memory.read s.mem c := by
  rw [setMemWord_mem]
  have k : ∀ (l : List Nat) (m : List Host.Cell), (∀ j ∈ l, j < 9) →
      Memory.read (l.foldl (fun m j => Memory.write m (a + j) (BitVec.ofNat 8 (w.toNat / 2 ^ (8 * j)))) m) c = Memory.read m c := by
    intro l
    induction l with
    | nil => intro m _; rfl
    | cons j l ih =>
      intro m hl
      rw [List.foldl_cons, ih _ fun i hi => hl i (List.mem_cons_of_mem _ hi),
        Memory.read_write_ne _ _ _ _ (by have := hl j List.mem_cons_self; omega)]
  exact k _ _ fun j hj => List.mem_range.1 hj

end Sys2Proof.Machine
end

