-- ==== Sys2Proof/Laws/Ops.lean ====
section
/-! SUPPORT. What each shared operation can do: its frame, and the forms of the state that it keeps. -/

namespace Sys2Proof.Machine

/-- A field whose bounds are numerals lies in its word. -/
theorem Fld.inWord_of (x : Fld) (h : (decide (x.lo ≤ x.hi) && decide (x.hi < 32)) = true) : x.inWord := by
  simpa using h

/-! ### Frames -/

theorem Frame.setHi (s : State) (ps : List Part) (w : Fld → Prop) (x : HiState) (h : Part.hi ∈ ps) :
    Frame s { s with hi := x } ps w :=
  Frame.parts w (fun p hp => by cases p <;> first | exact absurd h hp | simp [State.samePart]) rfl

theorem Frame.setCl (s : State) (ps : List Part) (w : Fld → Prop) (x : ClState) (h : Part.cl ∈ ps) :
    Frame s { s with cl := x } ps w :=
  Frame.parts w (fun p hp => by cases p <;> first | exact absurd h hp | simp [State.samePart]) rfl

theorem Frame.setSn (s : State) (ps : List Part) (w : Fld → Prop) (x : SnState) (h : Part.sn ∈ ps) :
    Frame s { s with sn := x } ps w :=
  Frame.parts w (fun p hp => by cases p <;> first | exact absurd h hp | simp [State.samePart]) rfl

theorem Frame.setTw (s : State) (ps : List Part) (w : Fld → Prop) (x : TwState) (h : Part.tw ∈ ps) :
    Frame s { s with tw := x } ps w :=
  Frame.parts w (fun p hp => by cases p <;> first | exact absurd h hp | simp [State.samePart]) rfl

theorem Frame.setSys (s : State) (ps : List Part) (w : Fld → Prop) (x : SysState) (h : Part.sys ∈ ps) :
    Frame s { s with sys := x } ps w :=
  Frame.parts w (fun p hp => by cases p <;> first | exact absurd h hp | simp [State.samePart]) rfl

theorem Frame.setTp (s : State) (ps : List Part) (w : Fld → Prop) (x : TpState) (h : Part.tp ∈ ps) :
    Frame s { s with tp := x } ps w :=
  Frame.parts w (fun p hp => by cases p <;> first | exact absurd h hp | simp [State.samePart]) rfl

theorem Frame.setDg (s : State) (ps : List Part) (w : Fld → Prop) (x : DgState) (h : Part.dg ∈ ps) :
    Frame s { s with dg := x } ps w :=
  Frame.parts w (fun p hp => by cases p <;> first | exact absurd h hp | simp [State.samePart]) rfl

theorem Frame.setCm (s : State) (ps : List Part) (w : Fld → Prop) (x : Option CmReq) (h : Part.cm ∈ ps) :
    Frame s { s with cm := x } ps w :=
  Frame.parts w (fun p hp => by cases p <;> first | exact absurd h hp | simp [State.samePart]) rfl

/-- A choice has the frame of both branches. -/
theorem Frame.ite (s t u : State) (c : Bool) (ps : List Part) (w : Fld → Prop) (h : Frame s t ps w) (k : Frame s u ps w) :
    Frame s (if c then t else u) ps w := by cases c <;> assumption

/-- The fields of SQ_CTXc_STAT and SQ_ELIG. -/
def ctxField (e c : Nat) (y : Fld) : Prop := y.reg = SQ_CTX_STAT e c ∨ y = SQ_ELIG_ELIG e

/-- `setCtx` writes the state and priority of one context, SQ_ELIG, and the TCLK of becoming ELIGIBLE. -/
theorem Frame.setCtx (s : State) (ps : List Part) (w : Fld → Prop) (e c : Nat) (x : CtxState) (p : Nat)
    (h : Part.engines ∈ ps) (hw : ∀ y, ctxField e c y → w y) : Frame s (s.setCtx e c x p) ps w := by
  unfold State.setCtx
  simp only
  have a : Frame s (((s.set (SQ_CTX_STAT_STATE e c) x.code).set (SQ_CTX_STAT_PRIO e c) p).setBit (SQ_ELIG_ELIG e) c (x == .eligible)) ps w :=
    ((Frame.set s ps w _ _ (Fld.inWord_of _ rfl) (hw _ (.inl rfl))).trans
      (Frame.set _ ps w _ _ (Fld.inWord_of _ rfl) (hw _ (.inl rfl)))).trans
      (Frame.setBit _ ps w _ _ _ (Fld.inWord_of _ rfl) (hw _ (.inr rfl)))
  split
  · exact a.trans (Frame.setEngine _ ps w _ _ h)
  · exact a

/-- `setPrio` writes the priority of one context, RUNPRIO when it runs, and notes a change among the ELIGIBLE ones. -/
theorem Frame.setPrio (s : State) (ps : List Part) (w : Fld → Prop) (e c p : Nat) (h : w (SQ_CTX_STAT_PRIO e c))
    (k : w (SQ_STAT_RUNPRIO e)) (m : Part.engines ∈ ps) : Frame s (s.setPrio e c p) ps w := by
  have a : Frame s (s.set (SQ_CTX_STAT_PRIO e c) p) ps w := Frame.set s ps w _ _ (Fld.inWord_of _ rfl) h
  unfold State.setPrio
  simp only
  split
  · exact a.trans (Frame.set _ ps w _ _ (Fld.inWord_of _ rfl) k)
  · exact Frame.ite s _ _ _ ps w (a.trans (Frame.setEngine _ ps w _ _ m)) a

/-- A dropped cause sets CAUSEDROP and counts. -/
theorem Frame.dropCause (s : State) (ps : List Part) (w : Fld → Prop) (e : Nat) (h : w (SQ_FLAGS_CAUSEDROP e))
    (k : w (SQ_CNT0_CAUSEDROP e)) : Frame s (s.dropCause e) ps w :=
  Frame.flag s ps w _ _ (Fld.inWord_of _ rfl) (Fld.inWord_of _ rfl) h k

/-- The fields that a cause for context c may write: those of the leader's context, and its drop flag. -/
def causeOf (l c : Nat) (y : Fld) : Prop :=
  ctxField l c y ∨ y = SQ_CTX_FLAGS_PHR l c ∨ y = SQ_STAT_RUNPRIO l ∨ y = SQ_FLAGS_CAUSEDROP l ∨ y = SQ_CNT0_CAUSEDROP l

/-- R238: a cause changes one context of the leader, or is dropped and counted. -/
theorem Frame.cause (s : State) (ps : List Part) (w : Fld → Prop) (e c p : Nat) (k : CauseKind) (h : Part.engines ∈ ps)
    (hw : ∀ y, causeOf (s.leader e) c y → w y) : Frame s (s.cause e c p k) ps w := by
  unfold State.cause
  simp only
  split
  · exact Frame.dropCause s ps w _ (hw _ (by simp [causeOf])) (hw _ (by simp [causeOf]))
  · have a : Frame s (s.raiseBit (SQ_CTX_STAT_CAUSE (s.leader e) c) k.bit) ps w :=
      Frame.raiseBit s ps w _ _ (Fld.inWord_of _ rfl) (hw _ (.inl (.inl rfl)))
    generalize s.raiseBit (SQ_CTX_STAT_CAUSE (s.leader e) c) k.bit = u at a
    have b : Frame s (if k == .phase then u.raise (SQ_CTX_FLAGS_PHR (s.leader e) c) else u) ps w :=
      Frame.ite s _ _ _ ps w
        (a.trans (Frame.raise _ ps w _ (Fld.inWord_of _ rfl) (hw _ (by simp [causeOf])))) a
    refine b.trans ?_
    generalize (if k == .phase then u.raise (SQ_CTX_FLAGS_PHR (s.leader e) c) else u) = v
    split
    · exact Frame.setCtx _ ps w _ _ _ _ h fun y hy => hw y (.inl hy)
    · exact Frame.setPrio _ ps w _ _ _ (hw _ (.inl (.inl rfl))) (hw _ (by simp [causeOf])) h

/-- Snapshot requests change nothing but the SN block. -/
theorem Frame.snapRequestAt (s : State) (ps : List Part) (w : Fld → Prop) (t : Time) (src : Nat) (late : Bool)
    (h : Part.sn ∈ ps) : Frame s (s.snapRequestAt t src late) ps w := by
  unfold State.snapRequestAt
  split
  · exact Frame.setSn _ ps w _ h
  · exact Frame.refl ..

theorem Frame.snapRequest (s : State) (ps : List Part) (w : Fld → Prop) (src : Nat) (h : Part.sn ∈ ps) :
    Frame s (s.snapRequest src) ps w := Frame.snapRequestAt s ps w _ _ _ h

/-- A lost record counts at the ring; an episode sets RDROP. -/
theorem Frame.ringLose (s : State) (ps : List Part) (w : Fld → Prop) (r unit n words : Nat) (h : Part.hi ∈ ps)
    (hd : w (HI_RING_DROP_DROP r)) (hf : w HI_FLAGS_RDROP) (hc : w HI_CNT2_RDROP) :
    Frame s (s.ringLose r unit n words) ps w := by
  unfold State.ringLose
  simp only
  have a : Frame s ((s.setRing r { (s.ring r).lose unit n words with losing := true }).count (HI_RING_DROP_DROP r) n) ps w :=
    (Frame.setHi s ps w _ h).trans (Frame.count _ ps w _ _ (Fld.inWord_of _ rfl) hd)
  split
  · exact a
  · exact a.trans (Frame.flag _ ps w _ _ (Fld.inWord_of _ rfl) (Fld.inWord_of _ rfl) hf hc)

/-- A record enters its ring or is lost. -/
theorem Frame.ringRecord (s : State) (ps : List Part) (w : Fld → Prop) (r : Nat) (ws : List Native) (h : Part.hi ∈ ps)
    (hd : w (HI_RING_DROP_DROP r)) (hf : w HI_FLAGS_RDROP) (hc : w HI_CNT2_RDROP) :
    Frame s (s.ringRecord r ws) ps w := by
  unfold State.ringRecord
  split
  · exact Frame.setHi s ps w _ h
  · exact Frame.ringLose s ps w _ _ _ _ h hd hf hc

/-- A packet enters a queue, or is dropped and counted. -/
theorem Frame.sendPacket (s : State) (ps : List Part) (w : Fld → Prop) (x : Nat) (p : Packet) (h : Part.cl ∈ ps)
    (hd : w (CL_P_DROP_DROP x)) (hf : w CL_FLAGS_FWDDROP) : Frame s (s.sendPacket x p) ps w := by
  unfold State.sendPacket
  simp only
  generalize (if p.reserved = true then _ else _ : Bool) = room
  cases room
  · exact (Frame.count s ps w _ _ (Fld.inWord_of _ rfl) hd).trans (Frame.raise _ ps w _ (Fld.inWord_of _ rfl) hf)
  · exact Frame.setCl s ps w _ h

theorem Frame.broadcast (s : State) (ps : List Part) (w : Fld → Prop) (sub arg : Nat) (l : List Native)
    (h : Part.cl ∈ ps) (hd : ∀ x, w (CL_P_DROP_DROP x)) (hf : w CL_FLAGS_FWDDROP) :
    Frame s (s.broadcast sub arg l) ps w :=
  (Frame.sendPacket s ps w _ _ h (hd 1) hf).trans (Frame.sendPacket _ ps w _ _ h (hd 2) hf)

theorem Frame.sendUp (s : State) (ps : List Part) (w : Fld → Prop) (sub arg : Nat) (l : List Native)
    (h : Part.cl ∈ ps) (hd : w (CL_P_DROP_DROP 0)) (hf : w CL_FLAGS_FWDDROP) : Frame s (s.sendUp sub arg l) ps w :=
  Frame.sendPacket s ps w _ _ h hd hf

theorem Frame.clampNote (s : State) (ps : List Part) (w : Fld → Prop) (a : Nat) (h : w GL_CLAMP_COUNT_COUNT)
    (k : w GL_CLAMP_LAST_ADDR) : Frame s (s.clampNote a) ps w :=
  (Frame.count s ps w _ _ (Fld.inWord_of _ rfl) h).trans (Frame.set _ ps w _ _ (Fld.inWord_of _ rfl) k)

/-- A host write that a pair forwards: it acts at once, or waits in the pair, or counts SHWR. -/
theorem Frame.mirrored (s : State) (ps : List Part) (w : Fld → Prop) (a : Nat) (v : Word) (act : State → State)
    (h : Part.tw ∈ ps) (hf : w TW_FLAGS_SHWR) (hc : w TW_CNT2_SHWR) (k : Frame s (act s) ps w) :
    Frame s (s.mirrored a v act) ps w := by
  unfold State.mirrored
  split
  · exact Frame.refl ..
  · split
    · exact (Frame.setTw s ps w _ h).trans (Frame.emit _ ps w _)
    · split
      · exact Frame.flag s ps w _ _ (Fld.inWord_of _ rfl) (Fld.inWord_of _ rfl) hf hc
      · exact k

/-- A write that acts at once is the action itself. -/
theorem State.mirrored_actsNow (s : State) (a : Nat) (v : Word) (act : State → State) (h : s.actsNow) :
    s.mirrored a v act = act s := by
  obtain ⟨r, m, n⟩ := h
  simp [State.mirrored, r, m, n]

/-! ### Forms of the state -/

theorem State.planesOk_set (s : State) (x : Fld) (v : Nat) (h : s.planesOk) : (s.set x v).planesOk :=
  ⟨RegFile.set_rising _ _ _ h.1, h.2⟩

theorem State.planesOk_setWord (s : State) (r : Reg) (v : Word) (h : s.planesOk) : (s.setWord r v).planesOk :=
  ⟨RegFile.setWord_rising _ _ _ h.1, h.2⟩

theorem State.planesOk_setStagedWord (s : State) (r : Reg) (v : Word) (h : s.planesOk) : (s.setStagedWord r v).planesOk := by
  refine ⟨h.1, ?_, h.2.2⟩
  simp only [State.setStagedWord]
  split
  · exact RegFile.drop_rising _ _ h.2.1
  · exact RegFile.put_rising _ _ _ h.2.1

theorem State.planesOk_dieSet (s : State) (x : Fld) (v : Nat) (h : s.planesOk) : (s.dieSet x v).planesOk :=
  ⟨h.1, h.2.1, RegFile.set_rising _ _ _ h.2.2.1, h.2.2.2⟩

/-- What no plane depends on keeps the form. -/
theorem State.planesOk_congr {s t : State} (a : t.live = s.live) (b : t.staged = s.staged) (c : t.die = s.die)
    (d : t.sys.boot = s.sys.boot) (h : s.planesOk) : t.planesOk := by
  unfold State.planesOk at *
  rw [a, b, c, d]
  exact h

theorem State.planesOk_note (s : State) (a i : Nat) (h : s.planesOk) : (s.note a i).planesOk :=
  State.planesOk_congr (State.note_live ..) (State.note_staged ..) (State.note_die ..) (by rw [State.note_sys]) h

theorem State.planesOk_raise (s : State) (f : Fld) (h : s.planesOk) : (s.raise f).planesOk :=
  State.planesOk_note _ _ _ (State.planesOk_set _ _ _ h)

theorem State.planesOk_flag (s : State) (f c : Fld) (h : s.planesOk) : (s.flag f c).planesOk :=
  State.planesOk_set _ _ _ (State.planesOk_raise _ _ h)

theorem State.planesOk_sendVector (s : State) (v : Nat) (h : s.planesOk) : (s.sendVector v).planesOk := by
  unfold State.sendVector
  split
  · exact State.planesOk_set _ _ _ h
  · exact h

theorem planesOk_settle (s t : State) (h : t.planesOk) : (settle s t).planesOk := by
  have k := State.forEach_holds State.planesOk _ State.planesOk_sendVector t ((risen s t).map t.imapV).eraseDups h
  unfold settle State.signal
  simp only
  split <;> exact k

theorem memOk_settle (s t : State) (h : t.memOk) : (settle s t).memOk := by
  simpa [State.memOk] using h

theorem State.memOk_setMemWord (s : State) (a : Nat) (w : Native) (h : s.memOk) : (s.setMemWord a w).memOk :=
  State.setMemWord_wf _ _ _ h

/-- The NVS that a power-up keeps is canonical. -/
theorem Memory.wf_filter (m : List Host.Cell) (p : Host.Cell → Bool) (h : Memory.wf m) : Memory.wf (m.filter p) :=
  ⟨h.1.filter _, fun c hc => h.2 c (List.mem_filter.1 hc).1⟩

end Sys2Proof.Machine
end

