-- ==== Sys2Proof/Laws/Levels.lean ====
section
/-! SUPPORT. Frames of the operations over causes, PARK, DAC outputs and rings. -/

namespace Sys2Proof.Machine

/-- R237: a cause by an EN, CTX, PRIO register. -/
theorem Frame.causeRouted (s : State) (ps : List Part) (w : Fld → Prop) (en ctx prio : Fld) (e : Nat) (k : CauseKind)
    (h : Part.engines ∈ ps) (hw : ∀ y, causeOf (s.leader e) (s.get ctx) y → w y) :
    Frame s (s.causeRouted en ctx prio e k) ps w := by
  unfold State.causeRouted
  split
  · exact Frame.cause s ps w _ _ _ _ h hw
  · exact Frame.refl ..

/-- R61: a cause for context c on the engines of a mask. -/
theorem Frame.causeMask (s : State) (ps : List Part) (w : Fld → Prop) (mask c p : Nat) (k : CauseKind)
    (h : Part.engines ∈ ps) (hw : ∀ l y, causeOf l c y → w y) : Frame s (s.causeMask mask c p k) ps w :=
  Frame.forEach s ps w _ _ fun t e _ => Frame.cause t ps w e c p k h fun y hy => hw _ y hy

/-- R106: PARK of one channel. -/
theorem Frame.parkUpdate (s : State) (ps : List Part) (w : Fld → Prop) (g p : Nat) (h : Part.groups ∈ ps)
    (hw : w (LS_PARKSTAT_PARKED g)) : Frame s (s.parkUpdate g p) ps w := by
  unfold State.parkUpdate
  simp only
  split
  · split
    · exact Frame.setChan s ps w _ _ _ h
    · exact (Frame.setChan s ps w _ _ _ h).trans (Frame.setBit _ ps w _ _ _ (Fld.inWord_of _ rfl) hw)
  · split
    · exact Frame.setChan s ps w _ _ _ h
    · exact Frame.refl ..

theorem Frame.parkGroup (s : State) (ps : List Part) (w : Fld → Prop) (g : Nat) (h : Part.groups ∈ ps)
    (hw : w (LS_PARKSTAT_PARKED g)) : Frame s (s.parkGroup g) ps w :=
  Frame.forEach s ps w _ _ fun t p _ => Frame.parkUpdate t ps w g p h hw

theorem Frame.parkAll (s : State) (ps : List Part) (w : Fld → Prop) (h : Part.groups ∈ ps)
    (hw : ∀ g < 32, w (LS_PARKSTAT_PARKED g)) : Frame s s.parkAll ps w :=
  Frame.forEach s ps w _ _ fun t g hg => Frame.parkGroup t ps w g h (hw g (List.mem_range.1 hg))

theorem Frame.setDac (s : State) (ps : List Part) (w : Fld → Prop) (g p d : Nat) (x : Dac) (h : Part.groups ∈ ps) :
    Frame s (s.setDac g p d x) ps w := Frame.setChan s ps w _ _ _ h

theorem Frame.setTrip (s : State) (ps : List Part) (w : Fld → Prop) (n : Nat) (x : Option (Nat × Bool)) (h : Part.sys ∈ ps) :
    Frame s (s.setTrip n x) ps w :=
  Frame.parts w (fun p hp => by cases p <;> first | exact absurd h hp | simp [State.samePart, State.setTrip]) rfl

/-- R136: the trip groups of a die. -/
theorem Frame.tripNetwork (s : State) (ps : List Part) (w : Fld → Prop) (k : Nat) (h : Part.groups ∈ ps) (hs : Part.sys ∈ ps)
    (hv : w (CP_TGSTAT_VIOL (8 * k))) (hw : ∀ i < 8, w (LS_PARKSTAT_PARKED (8 * k + i))) : Frame s (s.tripNetwork k) ps w := by
  unfold State.tripNetwork State.parkDie
  refine (Frame.forEach s ps w _ _ fun t n _ => ?_).trans
    (Frame.forEach _ ps w _ _ fun t i hi => Frame.parkGroup t ps w _ h (hw i (List.mem_range.1 hi)))
  have a := Frame.setBit t ps w (CP_TGSTAT_VIOL (8 * k)) n (t.violSource k n).isSome (Fld.inWord_of _ rfl) hv
  simp only
  split
  · split
    · exact a.trans (Frame.setTrip _ ps w _ _ hs)
    · exact a
  · exact a

theorem Frame.violUpdate (s : State) (ps : List Part) (w : Fld → Prop) (g p : Nat) (h : Part.groups ∈ ps) (hs : Part.sys ∈ ps)
    (hv : ∀ y, violField g y → w y) : Frame s (s.violUpdate g p) ps w := by
  unfold State.violUpdate
  simp only
  split
  · exact Frame.refl ..
  · exact (Frame.setBit s ps w _ _ _ (Fld.inWord_of _ rfl) (hv _ (.inl rfl))).trans
      (Frame.tripNetwork _ ps w _ h hs (hv _ (.inr (.inl rfl))) fun i hi => hv _ (.inr (.inr ⟨i, hi, rfl⟩)))

/-- R96, R134: the output code of one DAC changes; that of TH or TL blanks the monitor. -/
theorem Frame.setOut (s : State) (ps : List Part) (w : Fld → Prop) (g p d code : Nat) (h : Part.groups ∈ ps)
    (hw : w (LS_OUT_CODE g p d)) (hv : d = 2 ∨ d = 3 → Part.sys ∈ ps ∧ ∀ y, violField g y → w y) :
    Frame s (s.setOut g p d code) ps w := by
  unfold State.setOut
  split
  · exact Frame.refl ..
  · have a := (Frame.set s ps w (LS_OUT_CODE g p d) code (Fld.inWord_of _ rfl) hw)
    simp only
    split
    · rename_i k
      exact ((a.trans (Frame.setChan _ ps w _ _ _ h)).trans (Frame.setChan _ ps w _ _ _ h)).trans
        (Frame.violUpdate _ ps w _ _ h (hv k).1 (hv k).2)
    · exact a.trans (Frame.setChan _ ps w _ _ _ h)

theorem Frame.follow (s : State) (ps : List Part) (w : Fld → Prop) (g p d : Nat) (h : Part.groups ∈ ps)
    (hw : w (LS_OUT_CODE g p d)) (hv : d = 2 ∨ d = 3 → Part.sys ∈ ps ∧ ∀ y, violField g y → w y) :
    Frame s (s.follow g p d) ps w := by
  unfold State.follow
  simp only
  split
  · exact Frame.setDac s ps w _ _ _ _ h
  · split
    · exact Frame.setDac s ps w _ _ _ _ h
    · split
      · exact (Frame.setDac s ps w _ _ _ _ h).trans (Frame.setOut _ ps w _ _ _ _ h hw hv)
      · exact Frame.setDac s ps w _ _ _ _ h

theorem Frame.retarget (s : State) (ps : List Part) (w : Fld → Prop) (g p d : Nat) (h : Part.groups ∈ ps)
    (hw : w (LS_OUT_CODE g p d)) (hv : d = 2 ∨ d = 3 → Part.sys ∈ ps ∧ ∀ y, violField g y → w y) :
    Frame s (s.retarget g p d) ps w := by
  unfold State.retarget
  split
  · exact Frame.refl ..
  · exact Frame.follow s ps w g p d h hw hv

/-- R400, R409: a descriptor completes. -/
theorem Frame.completeDesc (s : State) (ps : List Part) (w : Fld → Prop) (x : RingIx) (int : Bool)
    (hw : w (ringHead x)) (hd : w HI_RDONE_DONE) : Frame s (s.completeDesc x int) ps w := by
  unfold State.completeDesc
  simp only
  have a : Frame s (s.set (ringHead x) (s.get (ringHead x) + 1)) ps w :=
    Frame.set s ps w _ _ (by cases x <;> exact Fld.inWord_of _ rfl) hw
  generalize s.set (ringHead x) (s.get (ringHead x) + 1) = t at a
  split <;> split
  · exact (a.trans (Frame.emit t ps w _)).trans (Frame.raiseBit _ ps w _ _ (Fld.inWord_of _ rfl) hd)
  · exact a.trans (Frame.emit t ps w _)
  · exact a.trans (Frame.raiseBit _ ps w _ _ (Fld.inWord_of _ rfl) hd)
  · exact a

end Sys2Proof.Machine
end

