-- ==== Sys2Proof/Tests/Slice0.lean ====
section
/-! SUPPORT. The model's own tests: an ill-formed command for each check of WellFormed, values the manual works out,
and a witness for the hypotheses of each clause of the statements (witness_<statement>). -/

namespace Sys2Proof.Tests

open Sys2Proof.Machine

set_option Elab.async false

/-! ### One ill-formed command for each check -/

theorem test_wf_register_write_empty : WellFormed (.registerWrite 0x010004 ⟨0, 5⟩) = false := by decide
theorem test_wf_read_empty : WellFormed (.coherentRead ⟨0x010004, 0⟩) = false := by decide
theorem test_wf_flag_clear_unaligned : WellFormed (.flagClearWrite 0x010001 0) = false := by decide
theorem test_wf_register_write : WellFormed (.registerWrite 0x010010 ⟨4, 3⟩) = true := by decide
theorem test_wf_dsk_results : WellFormed (.dskComplete 0 [⟨8192, 0, 40, 8192, 0, 80⟩] 0) = false := by decide
theorem test_wf_tdr_repetitions : WellFormed (.tdrComplete 0 4097 (List.replicate 4097 []) (List.replicate 4097 [])) = false := by decide +kernel
theorem test_wf_meas_samples : WellFormed (.measComplete 0 0 [] false) = false := by decide
theorem test_wf_sample_volts : WellFormed (.sampleTick 0 [0]) = false := by decide
theorem test_wf_self_check_results : WellFormed (.selfCheckEnd 0 []) = false := by decide
theorem test_wf_cal_pass_bins : WellFormed (.calPassComplete 0 0 [1] [0]) = false := by decide
theorem test_wf_vote_count : WellFormed (.domainVoteReceive 0 true 0 0 2048) = false := by decide
theorem test_wf_report_count : WellFormed (.barrierReportReceive 0 0 2048) = false := by decide
theorem test_wf_refill_words : WellFormed (.refillBlockForward false 0 (List.replicate 453 0)) = false := by decide +kernel
theorem test_wf_agreement_set : WellFormed (.agreementReceive 0 []) = false := by decide
theorem test_wf_bar2_low_empty : WellFormed (.bar2WriteLow 0 []) = false := by decide
theorem test_wf_bar2_low_across : WellFormed (.bar2WriteLow 7 [0, 0]) = false := by decide
theorem test_wf_bar2_high_place : WellFormed (.bar2WriteHigh 7 0) = false := by decide
theorem test_wf_bar2_read_low_empty : WellFormed (.bar2ReadLow 0 0 .good) = false := by decide
theorem test_wf_bar2_read_high_place : WellFormed (.bar2ReadHigh 9 .good) = false := by decide
theorem test_wf_block_bytes : WellFormed (.queueBlockFetch false 0 0 []) = false := by decide
theorem test_wf_spi_bytes : WellFormed (.spiDone (List.replicate 9 0)) = false := by decide
theorem test_wf_vec_none : WellFormed (.vec 0 0) = false := by decide
theorem test_wf_rpt_none : WellFormed (.rpt 0 0) = false := by decide
theorem test_wf_stream_none : WellFormed (.stream 0 0) = false := by decide

/-! ### Worked values of the manual -/

/-- R425: a bucket of 3.76 A²·s reads 52,429. -/
theorem test_och_level : ochLevel 3760000000000 = 52429 := by decide

/-- R461: the channel-die ticks of the first and the second 64 TCLK. -/
theorem test_die_ticks : (List.range 6).map dieTickTime = [0, 12, 25, 38, 51, 64] := by decide

/-- R148: the bins of the factory table are 128 wide, and bin 511 ends at 65,536. -/
theorem test_factory_bins : binStart none 511 + binWidth none 511 = 65536 := by decide +kernel

/-- R34: a target half the range ahead is not reached, and one just behind is. -/
theorem test_reached : reached 5 4 = true ∧ reached 4 5 = false ∧ reached 0 0xFFFFFFFFFFFFFF = true := by decide

/-! ### States for the witnesses -/

abbrev R : State := State.reset
def lv (l : List (Fld × Nat)) (s : State := R) : State := l.foldl (fun s x => s.set x.1 x.2) s
def dv (l : List (Fld × Nat)) (s : State := R) : State := { s with die := l.foldl (fun s x => s.set x.1 x.2) s.die }
def tpv (f : TpState → TpState) (s : State) : State := { s with tp := f s.tp }
def gr (g : Nat) (f : Group → Group) (s : State) : State := s.setGroup g (f (s.group g))
def ch (g p : Nat) (f : Chan → Chan) (s : State) : State := s.setChan g p (f (s.chan g p))
def cmpv (g p : Nat) (f : Comparator → Comparator) (s : State) : State := ch g p (fun c => { c with cmp := f c.cmp }) s
def tdcv (g p : Nat) (f : Tdc → Tdc) (s : State) : State := ch g p (fun c => { c with tdc := f c.tdc }) s
def dacv (g p d : Nat) (f : Dac → Dac) (s : State) : State := ch g p (fun c => { c with dacs := vset c.dacs d (f (vget c.dacs d .reset)) }) s
def wpv (g : Nat) (f : Player → Player) (s : State) : State := gr g (fun c => { c with wp := f c.wp }) s
def capv (g : Nat) (f : Capture → Capture) (s : State) : State := gr g (fun c => { c with cap := f c.cap }) s
def en (e : Nat) (f : Engine → Engine) (s : State) : State := s.setEngine e (f (s.engine e))
def sy (f : SysState → SysState) (s : State) : State := { s with sys := f s.sys }
def clv (f : ClState → ClState) (s : State) : State := { s with cl := f s.cl }
def twv (f : TwState → TwState) (s : State) : State := { s with tw := f s.tw }
def hiv (f : HiState → HiState) (s : State) : State := { s with hi := f s.hi }
def dgv (f : DgState → DgState) (s : State) : State := { s with dg := f s.dg }
def tev (n : Nat) (f : TrigEngine → TrigEngine) (s : State) : State := { s with trigs := vset s.trigs n (f (vget s.trigs n .reset)) }
def now (t : Nat) (s : State) : State := { s with time := BitVec.ofNat 56 t }
def win0 : Win := { start := 0, stop := 9999, kind := 0, external := false, zero := 0, t3 := 0, dc := 0, opened := true, iv := 0, slope := 0, level := 0, limit := 4, stamps := [], refused := false, closed := false, ctx := none, dead := false }
def vo0 : VecOut := { b := 0, period := 1024, word := 0, ts := 0, ctx := 0, vcnt := 0, iv := 0, offset := 0, switched := false, forms := [], dead := false }
def goodRes : List DskMeas := (List.range 16).map fun p =>
  ⟨Config.dskMinEdges, 0, Config.treeDelay [] (R.physChan p) + 40, Config.dskMinEdges, 0, 120⟩
def ins (op md a b c : Nat) : Native := BitVec.ofNat 72 (op * 2 ^ 64 + md * 2 ^ 56 + a * 2 ^ 32 + b * 2 ^ 8 + c)
def istoreWord (l pc : Nat) (i : Native) (s : State) : State := s.setMemWord (memAddr memIStore 0x40000 l pc) i
def vstoreWord (l a : Nat) (w : Native) (s : State) : State := s.setMemWord (memAddr memVStore 0x100000 l a) w
/-- Engine l runs context c at pc, where i stands, dispatched, at its slot. -/
def stand (l c pc : Nat) (i : Native) (fs : List (Fld × Nat) := []) : State :=
  let s := now 1000 (istoreWord l pc i (lv ([(MC_STAT_STATE, 2), (SQ_STAT_ENG l, engIssue), (SQ_STAT_RUNCTX l, c), (SQ_STAT_RUNPRIO l, 4),
    (SQ_CTX_STAT_STATE l c, 3), (SQ_CTX_STAT_PC l c, pc)] ++ fs)))
  let d := DispEntry.make (vendorDispatch.getD (opOf i) 0)
  let res := s.ctxRes l c
  en l ({ · with
    dispatched := true, instr := i, upc := d.maddr
    va := if res ≠ 0 ∧ d.ldm = 2 then clampVaddr (aOf i) + bOf i + 1 - res else clampVaddr (aOf i)
    cnt := if d.ldm = 0 then 1 else if res ≠ 0 then res else bOf i + 1
    ipc := pc }) s
def hold0 (k : WaitKind) (m : BitVec 144) (i : Native) : Wait := { kind := k, since := 10, released := none, instr := i, micro := m, upc := 0, va := 0, cnt := 1, ipc := 3, clampEv := false }
def wt (l c : Nat) (x : Wait) (s : State) : State := s.setWait l c (some x)
def iss0 : Issued := { word := 0, eng := 5, ctx := 3, ts := 0, startAt := none, lsel := 0, xreq := none, turnEnd := none, switched := false, sumr := false }
def cm0 : CmReq := { check := false, phase := cmChecking, kind := 0, eng := 0, tgt := 0, origin := .host, id := 7, at_ := 0, abort := false, own := false, partner := none, sched := 0, ta := 500, tv := 400, go := false }
def cmv (r : CmReq) (s : State) : State := { s with cm := some r }
def bal0 : Ballot := { id := 7, tv := 400, members := 2, own := some (true, 0), votes := [] }
def balv (b : Ballot) (s : State) : State := { s with ballot := some b }
def bad0 (l i : Nat) (s : State) : State := s.setCsEntry l i { s.csEntry l i with parity := (s.csEntry l i).parity ^^^ 5 }
def snv (f : SnState → SnState) (s : State) : State := { s with sn := f s.sn }
def snap0 : Snap := { time := 5, src := 1, late := false, seq := 3, regs := [], plane := [] }
def peer0 : PeerInfo := { pair := true, role := 0, version := R.word MC_VERSION, imageCrc := R.word MC_IMAGE_CRC, digest := R.digest, member := true }
def hb0 : Heartbeat := { seq := 3, role := 1, mchk := false, ochre := false, therm := false, parked := false, time := 5, crc := 9 }

/-- The vendor's image is loaded and no entry differs from it. -/
def vendor (s : State) : Prop := s.disp = [] ∧ s.imgDisp = vendorDispatch ∧ s.cs = [] ∧ s.imgEntries = vendorEntries

theorem vendor_lv (l : List (Fld × Nat)) {s : State} (h : vendor s) : vendor (lv l s) := by
  induction l generalizing s with
  | nil => exact h
  | cons x l ih => exact ih (s := s.set x.1 x.2) h

theorem vendor_en (e : Nat) (f : Engine → Engine) {s : State} (h : vendor s) : vendor (en e f s) := by
  unfold en State.setEngine vendor
  split <;> exact h

theorem vendor_now (t : Nat) {s : State} (h : vendor s) : vendor (now t s) := h

theorem vendor_istoreWord (l pc : Nat) (i : Native) {s : State} (h : vendor s) : vendor (istoreWord l pc i s) := h

theorem vendor_stand (l c pc : Nat) (i : Native) (fs : List (Fld × Nat)) : vendor (stand l c pc i fs) :=
  vendor_en _ _ (vendor_now _ (vendor_istoreWord _ _ _ (vendor_lv _ ⟨rfl, rfl, rfl, rfl⟩)))

theorem setEngine_self (s : State) (l : Nat) : s.setEngine l (s.engine l) = s := by
  unfold State.setEngine State.engine
  split <;> simp

/-- Where nothing is ELIGIBLE and no HALT waits, the slot has no decision to take. -/
theorem no_decision {s : State} {l c : Nat} (h : s.mayRun l ∧ s.running l = some c ∧ s.ctxWait l c = none ∧
    s.get (SQ_ELIG_ELIG l) = 0 ∧ (s.engine l).halting = none) : s.takeDecision l = s := by
  obtain ⟨h4, h5, h6, h8, hh⟩ := h
  have b0 : bitsOf 0 32 = [] := by decide
  have hb : ∀ w p, s.bestAt l w p = none := fun w p => by simp [State.bestAt, h8, b0]
  have hr : ∀ p, s.firstRise l p = none := fun p => by simp [State.firstRise, h8, b0, earliestOf]
  have hd' : ∀ b, s.holdDecide l c b = none := fun b => by simp [State.holdDecide, hh, hr]
  unfold State.takeDecision
  simp [h4, h5, h6, hd', State.slotDecide, hh, hb]

/-- Results of internal deskew of group 0 with enough edges and the delays 40 and 80. -/
theorem goodRes_good {s : State} (hc : s.sys.cal = []) (he : s.sys.calExt = false) (hm : s.physChan = R.physChan)
    (hb : ∀ p < 16, s.get (TG_DSKB_BOARD 0 p) = 0) (p : Nat) (h : p < 16) :
    (goodRes[p]?).bind (s.dskResult 0 p false) = some (40, 80) := by
  simp [goodRes, h, State.dskResult, dskSeen, State.dskFits, State.dskCompareDelay, hc, he, hm, hb p h]

theorem stands_of {s : State} {l c : Nat} {i : Native} (hv : vendor s) (h : (l < 32 ∧ c < 32) ∧ s.get (SQ_GANG_M l) ≤ 5 ∧ s.mayRun l ∧ s.running l = some c ∧
      s.ctxWait l c = none ∧ reached s.time (s.slotTime l) ∧ s.get (SQ_ELIG_ELIG l) = 0 ∧ (s.engine l).halting = none ∧
      s.iStore l (s.ctxPc l c) = i ∧ (s.dispEntry l (opOf i)).bad = false ∧ s.scrubSclk (2 ^ 16) = false)
    (hx : s.engine l = let d := s.dispEntry l (opOf i)
      { s.engine l with
        dispatched := true, instr := i, upc := d.maddr, clampEv := false, ipc := s.ctxPc l c
        va := if s.ctxRes l c ≠ 0 ∧ d.ldm = 2 then clampVaddr (aOf i) + bOf i + 1 - s.ctxRes l c else clampVaddr (aOf i)
        cnt := if d.ldm = 0 then 1 else if s.ctxRes l c ≠ 0 then s.ctxRes l c else bOf i + 1 }) : s.Stands l c i := by
  obtain ⟨hd, hi, hc, he⟩ := hv
  obtain ⟨⟨h1, h2⟩, h3, h4, h5, h6, h7, h8, hh, h9, h10, hs⟩ := h
  refine ⟨h1, h2, h3, h4, h5, h6, h7, ?_, fun op hop => ?_, fun k hk => ?_, h9, ⟨by rw [hx], ?_⟩⟩
  · exact no_decision ⟨h4, h5, h6, h8, hh⟩
  · unfold State.dispEntry
    simp [hd, hi]
  · unfold State.csEntry
    have hl : vendorEntries.length = 64 := by decide +kernel
    simp [hc, he, List.getD, hk, hl]
  · have hf : s.fetchDisp l (opOf i) = s := by simp only [State.fetchDisp, hs]; simp
    unfold State.dispatch
    simp only [h9, hf]
    rw [if_neg (by simp [h10])]
    conv_rhs => rw [hx]
    clear hx
    by_cases hr : s.ctxRes l c = 0 <;> by_cases hm : (s.dispEntry l (opOf i)).ldm = 2 <;>
      by_cases hz : (s.dispEntry l (opOf i)).ldm = 0 <;> simp [hr, hm, hz]
theorem vendor_wt (l c : Nat) (x : Wait) {s : State} (h : vendor s) : vendor (wt l c x s) := by
  unfold wt State.setWait
  unfold State.setEngine vendor
  split <;> exact h

theorem vendor_good {s : State} (h : vendor s) : ∀ l < 32, ∀ op < 256, (s.dispEntry l op).bad = false := by
  obtain ⟨hd, hi, -, -⟩ := h
  intro l _ op ho
  have key : ∀ op < 256, (DispEntry.make (vendorDispatch.getD op 0)).bad = false := by decide +kernel
  have e : s.dispEntry l op = DispEntry.make (vendorDispatch.getD op 0) := by
    unfold State.dispEntry
    simp [hd, hi]
  rw [e]
  exact key op ho

/-! The CRCs are evaluated with each value of the register known before the next byte. -/

def crcGo : List Byte → BitVec 32 → BitVec 32
  | [], c => c
  | b :: l, c => if c = 0 then crcGo l (crcByte 0 b) else crcGo l (crcByte c b)

theorem crcGo_eq (l : List Byte) (c : BitVec 32) : l.foldl crcByte c = crcGo l c := by
  induction l generalizing c with
  | nil => rfl
  | cons b l ih =>
    unfold crcGo
    split
    · rename_i h
      subst h
      exact ih _
    · exact ih _

theorem crc32c_eq (l : List Byte) : crc32c l = ~~~crcGo l 0xFFFFFFFF := by
  rw [← crcGo_eq]
  rfl

/-- A block of which the CRC does not match. -/
theorem badBlock_bad : blockGood 1 = false := by
  unfold blockGood
  rw [crc32c_eq]
  decide +kernel

/-- The facts of three blocks without packets: SEQ, the block's type, ACK. -/
theorem blockOf_good : ∀ x ∈ [(16383, 0, 5), (0, 0, 5), (0, 1, 5)],
    let b := blockOf 0 x.1 x.2.1 x.2.2 false
    blockGood b ∧ blockBits b 591 590 = x.2.1 ∧ blockBits b 589 576 = x.1 ∧ blockBits b 606 606 = 0 ∧
      blockPackets (BitVec.ofNat 576 b.toNat) = [] := by
  unfold blockGood blockOf
  simp only [crc32c_eq]
  decide +kernel

/-- A vector block for queue 31 with two words. -/
def queueBlock : List Byte := Block.bytes ⟨31, false, 0, 0, [7, 0x123456789ABCDEF012], 1, 5⟩ 6 0

theorem queueBlock_passes : ringBlockPasses false 31 queueBlock = true := by
  unfold ringBlockPasses queueBlock Block.bytes
  simp only [crc32c_eq]
  decide +kernel

theorem zeros_fail : ringBlockPasses true 31 (List.replicate 4096 0) = false := by
  unfold ringBlockPasses
  simp only [crc32c_eq]
  decide +kernel

/-- R314: the manufacturer's image of slot 0 passes. -/
theorem test_slot_image : imgCheck (R.slotWords 0) = 0 := by
  unfold imgCheck imgCrcOf
  simp only [crc32c_eq]
  decide +kernel

theorem lv_slotWords (l : List (Fld × Nat)) (s : State) (n : Nat) : (lv l s).slotWords n = s.slotWords n := by
  induction l generalizing s with
  | nil => rfl
  | cons x l ih => exact ih (s.set x.1 x.2)

/-- R441, R442: the manual's example: CH091 is at 05/38, and at 05/15 with MIRROR = 1. -/
theorem test_ball_example : chanBall 91 = (5, 38) ∧ State.ball { R with sys := { R.sys with mirror := true } } 91 = (5, 15) := by decide

/-- R442: by the map of the boot loader a channel takes the factory data of the ball at which it is. -/
theorem test_ball_map : (List.range 512).all fun n =>
    let s := { R with sys := { R.sys with mirror := true } }
    chanBall (s.physChan n) == s.ball n := by decide +kernel

theorem all_mem {α : Type} {P : α → Prop} [DecidablePred P] (l : List α) (h : l.all (fun x => decide (P x)) = true) :
    ∀ x ∈ l, P x := fun x hx => of_decide_eq_true (List.all_eq_true.mp h x hx)
/-- The checks from CK02 on are left as they stand: only CK01 is evaluated. -/
def otherFails (s : State) : List (Nat × CkFail) :=
  ((List.range 36).map (· + 2)).filterMap fun k => ((s.ckFails k).head?).map fun f => (k, f)

theorem ck_first (s : State) (f : CkFail) (h : (s.ckFails 1).head? = some f) : s.ckAll = (1, f) :: otherFails s := by
  have e : (List.range 37).map (· + 1) = 1 :: (List.range 36).map (· + 2) := by decide
  unfold State.ckAll otherFails
  rw [e, List.filterMap_cons, h]
  rfl

/-- A member with its T port up, before an attach. -/
def attachable : State := R |> lv [(CL_P_STAT_STATE 3, portUpState), (TW_CTL_PAIR, 1), (CL_DEVNUM_MEMBER, 1)] |> now 5

theorem attachable_ok : attachable.attachReason { peer0 with digest := attachable.digest } = 0 := by
  have h1 : attachable.portUp 3 = true := by decide +kernel
  have h2 : attachable.isMember = true := by decide +kernel
  have h3 : attachable.role = roleNone := by decide +kernel
  have h4 : attachable.word MC_VERSION = R.word MC_VERSION := by decide +kernel
  have h5 : attachable.word MC_IMAGE_CRC = R.word MC_IMAGE_CRC := by decide +kernel
  unfold State.attachReason
  simp [h1, h2, h3, h4, h5, peer0, roleNone, roleDetached, roleFailed]

theorem no_ochre (g : Nat) : (R.group g).ochrePark = false := by
  unfold State.group
  split
  · exact (by decide +kernel : ∀ g : Fin 32, (R.groups[g.val]'g.isLt).ochrePark = false) ⟨g, ‹_›⟩
  · rfl


/-! ### Witnesses: a state and operands that meet the hypotheses of each clause of a statement -/

theorem witness_TimebaseDiscipline :
      (∃ (s : State), s.on TP_TBREF_CTL_EN ∧ s.on CK_STAT_HOLDOVER = false) ∧
      (∃ (s : State) (since : Time), s.get TP_STATUS_TB_STATE = tbAcquire ∧ s.tp.tbGood = some since ∧ 16000000000 ≤ s.since since) ∧
      (∃ (s : State) (last : Time), s.on TP_TBREF_CTL_EN ∧ s.tp.tbLast = some last ∧ 1600 ≤ s.since last) :=
    ⟨⟨R |> lv [(TP_TBREF_CTL_EN,1),(TP_STATUS_TB_STATE,tbLocked),(CL_DOM_CTL_ROOT,1)] |> now 77, by decide +kernel⟩,
      ⟨R |> lv [(TP_STATUS_TB_STATE,tbAcquire)] |> tpv ({· with tbGood := some 5}) |> now 16000000010, 5, by decide +kernel⟩,
      ⟨R |> lv [(TP_TBREF_CTL_EN,1),(TP_STATUS_TB_STATE,tbLocked)] |> tpv ({· with tbLast := some 5}) |> now 1606, 5, by decide +kernel⟩⟩

theorem witness_PhaseCounts :
      (∃ (n : List Bool), n.length = 3) ∧
      (∃ (f : Nat) (x : Bool) (n l : List Bool), n.length = 3 ∧ l.length = f ∧ (!x) ∈ l) ∧
      (∃ (s : State) (a b : List Bool), s.get TP_PH_CTL_SRC = srcQuad ∧ s.phState = phLocked ∧ s.on TP_PH_CTL_INV = false ∧ s.tp.inA = false ∧ accepted (s.get TP_PH_CTL_FILT) false a ∧ s.tp.inB = false ∧ accepted (s.get TP_PH_CTL_FILT) false b = false ∧ s.tp.pos < s.cpc) ∧
      (∃ (s : State) (a b : List Bool), s.get TP_PH_CTL_SRC = srcQuad ∧ s.phState = phLocked ∧ s.on TP_PH_CTL_INV ∧ s.tp.inA = false ∧ accepted (s.get TP_PH_CTL_FILT) false a ∧ s.tp.inB = false ∧ accepted (s.get TP_PH_CTL_FILT) false b = false ∧ s.tp.pos < s.cpc) ∧
      (∃ (s : State) (a b : List Bool), s.get TP_PH_CTL_SRC = srcQuad ∧ accepted (s.get TP_PH_CTL_FILT) s.tp.inA a ≠ s.tp.inA ∧ accepted (s.get TP_PH_CTL_FILT) s.tp.inB b ≠ s.tp.inB) ∧
      (∃ (s : State) (p : List Bool), s.get TP_PH_CTL_SRC = srcPulse ∧ s.phState = phLocked ∧ s.tp.inP = false ∧ accepted (s.get TP_PH_CTL_FILT) false p ∧ s.tp.pos < s.cpc) ∧
      (∃ (s : State) (p : List Bool), s.get TP_PH_CTL_SRC = srcPulse ∧ s.phState = phLost ∧ s.tp.inP = false ∧ accepted (s.get TP_PH_CTL_FILT) false p ∧ s.tp.pos < s.cpc) :=
    ⟨⟨[false,true,false], by decide +kernel⟩,
      ⟨3, true, [false,true,false], [true,false,true], by decide +kernel⟩,
      ⟨R |> lv [(TP_PH_CTL_SRC,srcQuad),(TP_PH_CPC_CPC,7),(TP_STATUS_PH_STATE, phLocked)] |> tpv ({· with pos := 6, base := 0xFFFFFFFF00000000}), List.replicate 40 true, [], by decide +kernel⟩,
      ⟨R |> lv [(TP_PH_CTL_SRC,srcQuad),(TP_PH_CTL_INV,1),(TP_PH_CPC_CPC,7),(TP_STATUS_PH_STATE, phLocked)], List.replicate 40 true, [], by decide +kernel⟩,
      ⟨R |> lv [(TP_PH_CTL_SRC,srcQuad),(TP_STATUS_PH_STATE, phLocked)], List.replicate 40 true, List.replicate 40 true, by decide +kernel⟩,
      ⟨R |> lv [(TP_PH_CTL_SRC,srcPulse),(TP_PH_CPC_CPC,7),(TP_STATUS_PH_STATE, phLocked)], List.replicate 40 true, by decide +kernel⟩,
      ⟨R |> lv [(TP_PH_CTL_SRC,srcPulse),(TP_PH_CPC_CPC,7),(TP_STATUS_PH_STATE,phLost)], List.replicate 40 true, by decide +kernel⟩⟩

theorem witness_PhaseStallAndIndex :
      (∃ (s : State), s.phState = phLocked ∧ s.get TP_PH_CTL_SRC ≠ srcCleif ∧ usTclk (s.get TP_PH_LOOP_STALL) ≤ s.since s.tp.lastCount) ∧
      (∃ (s : State) (l : List Bool), s.get TP_PH_CTL_SRC = srcQuad ∧ s.on TP_PH_CTL_IDX_EN ∧ s.on TP_STATUS_DIR = false ∧ s.tp.inI = false ∧ accepted (s.get TP_PH_CTL_FILT) false l ∧ 0 < s.cpc ∧ s.phState = phAcquire) ∧
      (∃ (s : State) (l : List Bool), s.get TP_PH_CTL_SRC = srcQuad ∧ s.on TP_PH_CTL_IDX_EN ∧ s.on TP_STATUS_DIR = false ∧ s.tp.inI = false ∧ accepted (s.get TP_PH_CTL_FILT) false l ∧ 0 < s.cpc ∧ s.phState = phLost) ∧
      (∃ (s : State) (l : List Bool), s.get TP_PH_CTL_SRC = srcQuad ∧ s.on TP_PH_CTL_IDX_EN ∧ s.on TP_STATUS_DIR = false ∧ s.tp.inI = false ∧ accepted (s.get TP_PH_CTL_FILT) false l ∧ 0 < s.cpc ∧ s.phState = phLocked ∧ s.tp.pos = s.get TP_PH_IDXPOS_IDXPOS % s.cpc) ∧
      (∃ (s : State) (l : List Bool), s.get TP_PH_CTL_SRC = srcQuad ∧ s.on TP_PH_CTL_IDX_EN ∧ s.on TP_STATUS_DIR = false ∧ s.tp.inI = false ∧ accepted (s.get TP_PH_CTL_FILT) false l ∧ 0 < s.cpc ∧ s.phState = phLocked ∧ s.get TP_PH_IDXPOS_IDXPOS = 0 ∧ 2 * s.tp.pos < s.cpc ∧ s.get TP_PH_LOOP_IDXTOL < s.tp.pos) :=
    ⟨⟨R |> lv [(TP_PH_LOOP_STALL,2),(TP_STATUS_PH_STATE, phLocked)] |> tpv ({· with vel := 3}) |> now 3200, by decide +kernel⟩,
      ⟨R |> lv [(TP_PH_CTL_SRC,srcQuad),(TP_PH_CTL_IDX_EN,1),(TP_PH_CPC_CPC,7),(TP_PH_IDXPOS_IDXPOS,9),(TP_PH_LOOP_IDXTOL,1),(TP_STATUS_PH_STATE,phAcquire)] |> tpv ({· with pos := 3, base := 0xFFFFFFFF60000000}), List.replicate 40 true, by decide +kernel⟩,
      ⟨R |> lv [(TP_PH_CTL_SRC,srcQuad),(TP_PH_CTL_IDX_EN,1),(TP_PH_CPC_CPC,7),(TP_PH_IDXPOS_IDXPOS,9),(TP_PH_LOOP_IDXTOL,1),(TP_STATUS_PH_STATE,phLost)] |> tpv ({· with pos := 3, base := 0xFFFFFFFF60000000}), List.replicate 40 true, by decide +kernel⟩,
      ⟨R |> lv [(TP_PH_CTL_SRC,srcQuad),(TP_PH_CTL_IDX_EN,1),(TP_PH_CPC_CPC,7),(TP_PH_IDXPOS_IDXPOS,10),(TP_PH_LOOP_IDXTOL,1),(TP_STATUS_PH_STATE,phLocked)] |> tpv ({· with pos := 3, base := 0xFFFFFFFF60000000}), List.replicate 40 true, by decide +kernel⟩,
      ⟨R |> lv [(TP_PH_CTL_SRC,srcQuad),(TP_PH_CTL_IDX_EN,1),(TP_PH_CPC_CPC,7),(TP_PH_IDXPOS_IDXPOS,0),(TP_PH_LOOP_IDXTOL,1),(TP_STATUS_PH_STATE,phLocked)] |> tpv ({· with pos := 3, base := 0xFFFFFFFF60000000}), List.replicate 40 true, by decide +kernel⟩⟩

theorem witness_PhaseSamplesAndStep :
      (∃ (s : State), s.isRoot ∧ s.on TP_DOM_CTL_PH_TX ∧ s.get TP_PH_CTL_SRC ≠ srcCleif ∧ 2048 ≤ s.since s.tp.lastSample ∧ (s.port 1).queue = []) ∧
      (∃ (s : State), s.get TP_PH_CTL_SRC = srcCleif ∧ s.phState ≠ phLost) ∧
      (∃ (s : State), s.get TP_PH_CTL_SRC = srcCleif ∧ s.phState ≠ phLost ∧ 131072 ≤ s.since s.tp.lastSample) ∧
      (∃ (s : State), s.actsNow ∧ s.isRoot = false ∧ (∀ x ∈ s.tp.stepLog, reached (s.time + 1) x.1) ∧ (s.tp.stepLog = [] ∨ (s.tp.stepLog.take 63).any (fun x => reached s.time x.1))) ∧
      (∃ (s : State) (step : BitVec 16) (at_ : BitVec 56) (rest : List (BitVec 16 × Time)), s.tp.stepPend = (step, at_) :: rest ∧ reached s.time at_ ∧ (∀ x ∈ rest, reached s.time x.2 = false) ∧ (∀ x ∈ s.tp.stepLog, reached at_ x.1)) :=
    ⟨⟨R |> lv [(CL_DOM_CTL_ROOT,1),(TP_DOM_CTL_PH_TX,1)] |> now 2048, by decide +kernel⟩,
      ⟨R |> lv [(TP_PH_CTL_SRC,srcCleif),(TP_STATUS_PH_STATE,phStalled)] |> now 90, by decide +kernel⟩,
      ⟨R |> lv [(TP_PH_CTL_SRC,srcCleif),(TP_STATUS_PH_STATE, phLocked)] |> now 131072, by decide +kernel⟩,
      ⟨R |> now 99, ⟨by unfold State.actsNow; decide +kernel, by decide +kernel, all_mem _ (by decide +kernel), by decide +kernel⟩⟩,
      ⟨R |> tpv ({· with stepPend := [(9, 5),(8,70)]}) |> now 6, 9, 5, [(8,70)], ⟨by decide +kernel, by decide +kernel, all_mem _ (by decide +kernel), all_mem _ (by decide +kernel)⟩⟩⟩

theorem witness_PhaseComparatorsAndSlots :
      (∃ (s : State) (v : Word), s.actsNow ∧ v.getLsbD 0) ∧
      (∃ (s : State) (m : Fin 8), s.on (TP_PCMP_CTL_ARM m) ∧ s.phState = phLocked ∧ phaseReached s.phase (vget s.tp.pcmpTgt m 0) ∧ s.time ≠ vget s.tp.pcmpAt m 0) ∧
      (∃ (s : State) (i : Fin 16) (c : BitVec 32) (l : List (BitVec 32)), vget s.tp.slotDue i [] = c :: l ∧ s.on (TP_SLOT_CTL_EN i) ∧ s.phState = phLocked) :=
    ⟨⟨R |> lv [(TP_PCMP_CYC_CYC 7,5),(TP_PCMP_ANG_ANG 7,9)] |> now 6, 0x3C3, ⟨by unfold State.actsNow; decide +kernel, by decide +kernel⟩⟩,
      ⟨R |> lv [(TP_PCMP_CTL_ARM 7,1),(TP_STATUS_PH_STATE, phLocked)] |> tpv ({· with base := 9}) |> now 6, 7, by decide +kernel⟩,
      ⟨R |> lv [(TP_SLOT_CTL_EN 15,1),(TP_STATUS_PH_STATE, phLocked)] |> tpv (fun x => { x with slotDue := vset x.slotDue 15 [4,5]}) |> now 6, 15, 4, [5], by decide +kernel⟩⟩

theorem witness_DeskewRuns :
      (∃ (s : State) (g : GroupIx) (v : Word), s.ready ∧ v.getLsbD 0 ∧ s.engineBusy g = false ∧ (s.role ≠ roleShadow ∨ v.getLsbD 1) ∧ s.get (TG_DSK_STAT_STATE g) ≠ dskRunning) ∧
      (∃ (s : State) (g : GroupIx) (v : Word), s.ready ∧ v.getLsbD 0 ∧ (s.engineBusy g ∨ s.role = roleShadow ∧ v.getLsbD 1 = false)) ∧
      (∃ (s : State) (g : GroupIx) (v : Word), s.ready ∧ v.getLsbD 0 ∧ s.engineBusy g = false ∧ (s.role ≠ roleShadow ∨ v.getLsbD 1) ∧ s.get (TG_DSK_STAT_STATE g) = dskRunning) ∧
      (∃ (s : State) (g : GroupIx) (d : DskRun) (res : List DskMeas) (dc dd : Nat → Nat), (s.group g).dsk = some d ∧ s.dskOver d ∧ (∀ p, p < 16 → (res[p]?).bind (s.dskResult g p d.comparePath) = some (dc p, dd p))) ∧
      (∃ (s : State) (g : GroupIx) (d : DskRun) (res : List DskMeas) (p : Nat), (s.group g).dsk = some d ∧ s.dskOver d ∧ p < 16 ∧ (res[p]?).bind (s.dskResult g p d.comparePath) = none) ∧
      (∃ (s : State) (g : GroupIx) (v : Word), s.ready ∧ v.getLsbD 31 ∧ s.engineBusy g = false ∧ s.role ≠ roleShadow ∧ s.get (TG_TDR_STAT_STATE g) ≠ dskRunning) ∧
      (∃ (s : State) (g : GroupIx) (v : Word), s.ready ∧ v.getLsbD 31 ∧ (s.engineBusy g ∨ s.role = roleShadow)) ∧
      (∃ (s : State) (g : GroupIx) (r : TdrRun) (reps : List (List (BitVec 66) × List (BitVec 66))) (l : List Nat), (s.group g).tdr = some r ∧ r.reps ≤ 12 ∧ reps.length = 2 ^ r.reps ∧ usTclk (2 ^ r.reps) ≤ s.since r.start ∧ reps.filterMap tdrTrip = l ∧ l ≠ []) ∧
      (∃ (s : State) (g : GroupIx) (r : TdrRun) (reps : List (List (BitVec 66) × List (BitVec 66))), (s.group g).tdr = some r ∧ r.reps ≤ 12 ∧ reps.length = 2 ^ r.reps ∧ usTclk (2 ^ r.reps) ≤ s.since r.start ∧ reps.filterMap tdrTrip = []) :=
    ⟨⟨R , 31, 0xF, by decide +kernel⟩,
      ⟨R |> lv [(SQ_STAT_ENG 0,1)], 0, 1, by decide +kernel⟩,
      ⟨R |> lv [(TG_DSK_STAT_STATE 0,dskRunning)], 0, 1, by decide +kernel⟩,
      ⟨R |> lv [(TG_DSK_STAT_STATE 0,dskRunning)] |> gr 0 ({· with dsk := some (⟨5,false,3,9,true⟩ : DskRun)}) |> now 100000000, 0, (⟨5,false,3,9,true⟩ : DskRun), goodRes, fun _ => 40, fun _ => 80, ⟨by decide +kernel, by decide +kernel, goodRes_good (by decide +kernel) (by decide +kernel) rfl (by decide +kernel)⟩⟩,
      ⟨R |> gr 0 ({· with dsk := some (⟨5,false,3,9,true⟩ : DskRun)}) |> now 100000000, 0, (⟨5,false,3,9,true⟩ : DskRun), [], 15, by decide +kernel⟩,
      ⟨R , 0, 0x80000025, by decide +kernel⟩,
      ⟨R |> lv [(SQ_STAT_ENG 0,1)], 0, 0x80000025, by decide +kernel⟩,
      ⟨R |> gr 0 ({· with tdr := some (⟨0,3,0,true,1⟩ : TdrRun)}) |> now 3200, 0, (⟨0,3,0,true,1⟩ : TdrRun), [([5],[505]),([7],[509])], [500,502], by decide +kernel⟩,
      ⟨R |> gr 0 ({· with tdr := some (⟨0,3,0,true,1⟩ : TdrRun)}) |> now 3200, 0, (⟨0,3,0,true,1⟩ : TdrRun), [([5],[]),([7,8],[509])], by decide +kernel⟩⟩

theorem witness_CalExt :
      (∃ (s : State) (ofs : BitVec 24), s.get (TG_CAL_CTL_MODE 0) = 1 ∧ (s.sys.calSum + ofs.toInt).natAbs ≤ 8388606 * (s.sys.calN + 1)) ∧
      (∃ (s : State), s.sys.calExt ∧ 1600000 ≤ s.since s.sys.calLast) ∧
      (∃ (s : State) (v : Word), s.ready ∧ v.toNat % 4 = 2 ∧ v.getLsbD 3) ∧
      (∃ (s : State) (at_ : Tick), s.sys.calNext = some at_ ∧ reached s.time (tclkOf at_)) :=
    ⟨⟨R |> lv [(TG_CAL_CTL_MODE 0,1),(TG_CAL_MEAS_CNT 0,255)], 0x123456, by decide +kernel⟩,
      ⟨R |> sy ({· with calExt := true}) |> now 1600000, by decide +kernel⟩,
      ⟨R |> lv [(TG_CAL_TLO_T_LO 0,50)], 0x02AA003A, by decide +kernel⟩,
      ⟨R |> lv [(TG_CAL_CTL_RPT 0,3)] |> sy ({· with calNext := some 5120}) |> now 6, 5120, by decide +kernel⟩⟩

theorem witness_DacOutputs :
      (∃ (s : State) (g : GroupIx) (sel : Nat) (at_ : Time) (rest : List (Nat × Time)), (s.group g).lselPend = (sel, at_) :: rest ∧ reached s.time at_ ∧ sel < 8 ∧ (s.group g).lsPend.head?.map (·.1) ≠ some (some at_)) ∧
      (∃ (s : State) (g : GroupIx) (at_ : Time) (regs : RegFile) (rest : List (Option Time × RegFile)), (s.group g).lsPend = (some at_, regs) :: rest ∧ reached s.time at_ ∧ regs.rising ∧ rest.head?.map (·.1) ≠ some (some at_) ∧ (s.group g).lselPend.head?.map (·.2) ≠ some at_) ∧
      (∃ (s : State) (g : GroupIx) (p : Pos) (d : Fin 6) (at_ : Time), (s.dac g p d).slew = some at_ ∧ reached s.time at_ ∧ s.outCode g p d < (s.dac g p d).tgt.toNat) ∧
      (∃ (s : State) (g : GroupIx) (p : Pos) (d : Fin 6) (at_ : Time), (s.dac g p d).slew = some at_ ∧ reached s.time at_ ∧ (s.dac g p d).tgt.toNat < s.outCode g p d) ∧
      (∃ (s : State) (g : GroupIx) (p : Pos) (d : Fin 6) (at_ : Time), (s.dac g p d).hold = some at_ ∧ holdTclk ≤ s.since at_) :=
    ⟨⟨R |> gr 0 ({· with lselPend := [(7,5)]}) |> now 5, 0, 7, 5, [], by decide +kernel⟩,
      ⟨R |> gr 0 ({· with lsPend := [(some 5, [((LS_DH_CODE 0 15 7).reg.addr, 77)])]}) |> now 5, 0, 5, [((LS_DH_CODE 0 15 7).reg.addr, 77)], [], by decide +kernel⟩,
      ⟨R |> dv [(LS_SLEW_STEP 0 0,7)] |> dacv 0 0 0 ({· with tgt := 0x9000, slew := some 5}) |> now 5, 0, 0, 0, 5, by decide +kernel⟩,
      ⟨R |> dv [(LS_SLEW_STEP 0 0,7)] |> dacv 0 0 0 ({· with tgt := 0x1000, slew := some 5}) |> now 5, 0, 0, 0, 5, by decide +kernel⟩,
      ⟨R |> dacv 0 0 0 ({· with hold := some 5}) |> now 309, 0, 0, 0, 5, by decide +kernel⟩⟩

theorem witness_ClearAndRails :
      (∃ (s : State) (k : DieIx), vget s.sys.clrN k.val true = true) ∧
      (∃ (s : State) (k : DieIx), vget s.sys.clrN k.val true = false) ∧
      (∃ (s : State), s.actsNow) ∧
      (∃ (s : State) (k : DieIx) (p n : Int), p = (BitVec.ofNat 16 (s.dieGet (LS_RAIL_VDRP (8 * k.val)))).toInt ∧ n = (BitVec.ofNat 16 (s.dieGet (LS_RAIL_VDRN (8 * k.val)))).toInt) :=
    ⟨⟨R, 0, by decide +kernel⟩,
      ⟨R |> sy (fun x => { x with clrN := vset x.clrN 0 false }), 0, by decide +kernel⟩,
      ⟨R , by unfold State.actsNow; decide +kernel⟩,
      ⟨R |> dv [(LS_RAIL_VDRP 0,500)], 0, 500, (BitVec.ofNat 16 (R.dieGet (LS_RAIL_VDRN 0))).toInt, by decide +kernel⟩⟩

theorem witness_Park :
      (∃ (v : Word), v.getLsbD 0 = false) ∧
      (∃ (v : Word), v.getLsbD 0) ∧
      (∃ (s : State), s.actsNow) ∧
      (∃ (s : State) (g : GroupIx) (p : Pos) (at_ : Time), s.exitAt g p = some at_) ∧
      (∃ (s : State) (g : GroupIx) (p : Pos) (at_ : Time) (drv pmu : Word), (s.chan g p).rangePend = some (at_, drv, pmu) ∧ 3200 ≤ s.since at_) ∧
      (∃ (s : State) (g : GroupIx) (p : Pos), (s.pinState g p = .on ∨ s.pinState g p = .off ∧ s.offLoad g p ≠ .nothing)) ∧
      (∃ (s : State) (g : GroupIx) (p : Pos), s.pinState g p ≠ .on ∧ (s.pinState g p ≠ .off ∨ s.offLoad g p = .nothing)) ∧
      (∃ (s : State), s.sys.parkN) ∧
      (∃ (s : State), s.sys.parkN = false) :=
    ⟨⟨2, by decide +kernel⟩,
      ⟨1, by decide +kernel⟩,
      ⟨R , by unfold State.actsNow; decide +kernel⟩,
      ⟨R |> lv ((LS_PARKSTAT_PARKED 0,0xFFFF) :: (GL_PIN_ENABLE_EN,1) :: [0,1,4].map fun d => (LS_OUT_CODE 0 0 d, R.dieGet (levelCode 0 0 (R.get (LS_SELSTAT_SEL 0)) d))) |> gr 0 ({· with preCommit := false}) |> ch 0 0 ({· with parkEnd := some 0}) |> now 100000, 0, 0, 100000, by decide +kernel⟩,
      ⟨R |> ch 0 0 ({· with rangePend := some (5, 7, 9)}) |> now 4000, 0, 0, 5, 7, 9, by decide +kernel⟩,
      ⟨R |> lv [(LS_PARKSTAT_PARKED 0,0)] |> dv [(LS_DRV_TERM 0 0,1)], 0, 0, by decide +kernel⟩,
      ⟨R, 0, 0, by decide +kernel⟩,
      ⟨R, by decide +kernel⟩,
      ⟨R |> sy ({· with parkN := false}), by decide +kernel⟩⟩

theorem witness_Measurements :
      (∃ (s : State) (g : GroupIx) (p : Pos), s.actsNow ∧ s.dieGet (LS_PMU_MODE g p) = 0) ∧
      (∃ (s : State) (g : GroupIx) (p : Pos), s.actsNow ∧ s.dieGet (LS_PMU_MODE g p) ≠ 0 ∧ (s.chan g p).measPend = false ∧ s.measuring g p = false) ∧
      (∃ (s : State) (g : GroupIx) (p : Pos), 0 < s.dieGet (LS_MEAS_AUTO g p) ∧ s.time.toNat % (s.dieGet (LS_MEAS_AUTO g p) * 160000) = 0 ∧ s.dieGet (LS_PMU_MODE g p) ≠ 0 ∧ (s.chan g p).measPend = false ∧ s.measuring g p = false) ∧
      (∃ (s : State) (g : GroupIx) (j : Fin 2) (p : Nat), vget (s.group g).adcBusy j none = none ∧ s.nextMeas g j = some p) ∧
      (∃ (s : State) (g : GroupIx) (j : Fin 2) (p : Fin 16) (at_ : Time) (x : BitVec 18), vget (s.group g).adcBusy j none = some (p.val, at_) ∧ s.dieGet (LS_MEAS_AVG g p) = 0 ∧ 1600 * (s.dieGet (LS_MEAS_SETTLE g p) + 1) ≤ s.since at_ ∧ (s.chan g p).measAbort = false ∧ s.dieGet (LS_PMU_MODE g p) ≠ 0 ∧ x ≠ 0x1FFFF ∧ x ≠ 0x20000) :=
    ⟨⟨R , 0, 15, ⟨by unfold State.actsNow; decide +kernel, by decide +kernel⟩⟩,
      ⟨R |> dv [(LS_PMU_MODE 0 15,1)], 0, 15, ⟨by unfold State.actsNow; decide +kernel, by decide +kernel⟩⟩,
      ⟨R |> dv [(LS_PMU_MODE 0 0,1),(LS_MEAS_AUTO 0 0,2)] |> now 320000, 0, 0, by decide +kernel⟩,
      ⟨R |> ch 0 9 ({· with measPend := true}), 0, 1, 9, by decide +kernel⟩,
      ⟨R |> dv [(LS_PMU_MODE 0 9,1)] |> gr 0 (fun x => { x with adcBusy := vset x.adcBusy 1 (some (9, 5)) }) |> now 100000, 0, 1, 9, 5, 0x20001, by decide +kernel⟩⟩

theorem witness_ComparatorsFollowThePin :
      (∃ (s : State) (g : GroupIx) (p : Pos), s.cmpAtBall g p ∧ s.cmpCont g p) ∧
      (∃ (s : State) (g : GroupIx) (p : Pos) (hist : List Lane) (x : Lane), s.cmpAtBall g p ∧ s.cmpCont g p ∧ dieTickOffsets.contains (s.time.toNat % 64) ∧ hist = ((s.chan g p).cmp.state :: (s.chan g p).cmp.hist).take (s.dieGet (CP_CMP_M g p)) ∧ agreed hist (s.dieGet (CP_CMP_N g p)) = some x) ∧
      (∃ (s : State) (g : GroupIx) (p : Pos) (hist : List Lane), s.cmpAtBall g p ∧ s.cmpCont g p ∧ dieTickOffsets.contains (s.time.toNat % 64) ∧ hist = ((s.chan g p).cmp.state :: (s.chan g p).cmp.hist).take (s.dieGet (CP_CMP_M g p)) ∧ agreed hist (s.dieGet (CP_CMP_N g p)) = none ∧ hist.length = s.dieGet (CP_CMP_M g p)) ∧
      (∃ (s : State) (g : GroupIx), s.sys.smDue.getLsbD g) ∧
      (∃ (s : State) (g : GroupIx) (p : Pos), s.blanked g p = false) ∧
      (∃ (s : State) (g : GroupIx) (at_ : Time) (regs : RegFile) (rest : List (Time × RegFile)), (s.group g).cpPend = (at_, regs) :: rest ∧ reached s.time at_ ∧ regs.rising) :=
    ⟨⟨R , 0, 0, by decide +kernel⟩,
      ⟨R |> dv [(CP_CMP_M 0 0,1),(CP_CMP_N 0 0,1)] |> cmpv 0 0 ({· with hiOn := true}) |> now 12, 0, 0, [.high], .high, by decide +kernel⟩,
      ⟨R |> dv [(CP_CMP_M 0 0,2),(CP_CMP_N 0 0,2)] |> cmpv 0 0 ({· with hiOn := true, hist := [.low]}) |> now 12, 0, 0, [.high,.low], by decide +kernel⟩,
      ⟨R |> lv [(smRunning,1)] |> sy ({· with smDue := 0x80000000}), 31, by decide +kernel⟩,
      ⟨R |> now 1000000, 0, 0, by decide +kernel⟩,
      ⟨R |> gr 31 ({· with cpPend := [(5,[((CP_CMP_M 31 15).reg.addr, 5)])]}) |> now 5, 31, 5, [((CP_CMP_M 31 15).reg.addr, 5)], [], by decide +kernel⟩⟩

theorem witness_SampleClock :
      (∃ (s : State) (v : Word), s.actsNow ∧ v.getLsbD 18 ∧ v.getLsbD 19 = false ∧ v.getLsbD 31 = false) ∧
      (∃ (s : State) (v : Word), s.actsNow ∧ v.getLsbD 18 = false) ∧
      (∃ (s : State) (v : Word), s.actsNow ∧ v.getLsbD 31 ∧ v.getLsbD 18 ∧ v.getLsbD 19 ∧ s.on smRunning = false) ∧
      (∃ (s : State), reached s.time (s.getTime (CP_SM_WT_LO_T_LO 0) (CP_SM_WT_HI_T_HI 0)) ∧ s.sys.smWtDone = false ∧ 0 < s.get (CP_SM_WPER_WPER 0)) ∧
      (∃ (s : State), s.on smRunning ∧ s.sys.smLeft = some 0) :=
    ⟨⟨R , 0x0D043FFF, ⟨by unfold State.actsNow; decide +kernel, by decide +kernel⟩⟩,
      ⟨R , 0, ⟨by unfold State.actsNow; decide +kernel, by decide +kernel⟩⟩,
      ⟨R |> lv [(smRunning,0)], 0x800C0001, ⟨by unfold State.actsNow; decide +kernel, by decide +kernel⟩⟩,
      ⟨R |> lv [(CP_SM_WT_LO_T_LO 0,5),(CP_SM_WPER_WPER 0,65535)] |> now 5, by decide +kernel⟩,
      ⟨R |> lv [(smRunning,1),(CP_SM_CTL_BURST 0,1),(CP_SM_CTL_RUN 0,1)] |> sy ({· with smLeft := some 0}), by decide +kernel⟩⟩

theorem witness_TripAndSelfCheck :
      (∃ (s : State) (k : DieIx) (n : Fin 16) (src : Nat), vget s.sys.trip (16 * k.val + n.val) none = some (src, false) ∧ src < 128) ∧
      (∃ (s : State) (k : DieIx) (n : Fin 16), s.actsNow ∧ (vget s.sys.trip (16 * k.val + n.val) none).isSome ∧ s.violSource k.val n.val = none) ∧
      (∃ (s : State) (k : DieIx) (n : Fin 16), s.actsNow ∧ (vget s.sys.trip (16 * k.val + n.val) none).isSome ∧ (s.violSource k.val n.val).isSome) ∧
      (∃ (s : State) (g : GroupIx) (v : Word), s.actsNow ∧ v.getLsbD 31 ∧ s.get (CP_SC_STAT_STATE g) ≠ scRunning) ∧
      (∃ (s : State) (g : GroupIx) (start : Time), s.get (CP_SC_STAT_STATE g) ≠ scRunning ∧ 0 < s.get (CP_SC_CTL_PER g) ∧ (s.group g).scStart = some start ∧ s.get (CP_SC_CTL_PER g) * 1600000000 ≤ s.since start) ∧
      (∃ (s : State) (g : GroupIx) (r : ScRun), (s.group g).sc = some r ∧ r.ended) :=
    ⟨⟨R |> sy (fun x => { x with trip := vset x.trip 63 (some (127, false)) }) |> now 44, 3, 15, 127, by decide +kernel⟩,
      ⟨R |> lv [(CP_TGSTAT_LATCHED 24,0x8000)] |> sy (fun x => { x with trip := vset x.trip 63 (some (127, true)) }) |> now 44, 3, 15, ⟨by unfold State.actsNow; decide +kernel, by decide +kernel⟩⟩,
      ⟨R |> dv [(CP_TRIP_SOURCE 24 0,0x8000),(CP_WIN_VIOL 24 0,7)] |> lv [(CP_STATUS_VALID 24,1),(CP_STATUS_VIOL 24,1),(CP_TGSTAT_LATCHED 24,0x8000)] |> sy (fun x => { x with trip := vset x.trip 63 (some (127, true)) }) |> now 44, 3, 15, ⟨by unfold State.actsNow; decide +kernel, by decide +kernel⟩⟩,
      ⟨R , 0, 0x80008001, ⟨by unfold State.actsNow; decide +kernel, by decide +kernel⟩⟩,
      ⟨R |> lv [(CP_SC_CTL_PER 0,2)] |> gr 0 ({· with scStart := some 5}) |> now 3200000010, 0, 5, by decide +kernel⟩,
      ⟨R |> lv [(CP_SC_STAT_STATE 0,scRunning)] |> gr 0 ({· with sc := some (⟨6,0xFFFF,6,5,true⟩ : ScRun)}) |> cmpv 0 3 ({· with selfCheck := true}), 0, (⟨6,0xFFFF,6,5,true⟩ : ScRun), by decide +kernel⟩⟩

theorem witness_TdcStops :
      (∃ (s : State) (g : GroupIx) (p : Pos) (c : BitVec 56) (r : Fin 512) (w : Win) (i : Nat) (l0 : Lane), laneStop (s.chan g p).cmp.log c l0 .high = some i ∧ l0 ≠ .high ∧ s.cmpMode g p ≠ modeSampled ∧ (s.tdc g p).tabA = none ∧ (s.tdc g p).shiftA = 0 ∧ s.lineB g p = false ∧ (s.tdc g p).swapAt = none ∧ (s.tdc g p).passDone = false ∧ (s.tdc g p).lastStop = none ∧ (s.chan g p).wins = [w] ∧ w.opened ∧ w.closed = false ∧ w.kind = winEw ∧ w.slope = 0 ∧ w.level = 0 ∧ w.stamps = [] ∧ 0 < w.limit ∧ (s.group g).gates = [] ∧ (BitVec.ofNat 66 (1024 * c.toNat + 2 * r.val + 1) - BitVec.ofNat 66 w.dc - w.start).toNat ≤ (w.stop - w.start).toNat) ∧
      (∃ (s : State) (g : GroupIx) (p : Pos) (c : BitVec 56) (w : Win) (i : Nat) (l0 : Lane) (last : Tick), laneStop (s.chan g p).cmp.log c l0 .high = some i ∧ l0 ≠ .high ∧ s.cmpMode g p = modeSampled ∧ (s.tdc g p).lastStop = some last ∧ tickReached (tickOf c) (last + 1024) = false ∧ (s.chan g p).wins = [w] ∧ w.opened ∧ w.closed = false ∧ w.kind = winEw ∧ w.slope = 0 ∧ w.level = 0 ∧ (s.group g).gates = [] ∧ (tickOf c - w.start).toNat ≤ (w.stop - w.start).toNat) ∧
      (∃ (s : State) (g : GroupIx) (p : Pos) (c : BitVec 56) (l0 l1 : Lane), laneStop (s.chan g p).cmp.log c l0 l1 = none) ∧
      (∃ (s : State) (g : GroupIx), s.get (FQ_AGE_SEL g) = 0 ∧ s.gate g = none) :=
    ⟨⟨R |> lv [(CP_STATUS_VALID 0,1)] |> cmpv 0 0 ({· with log := [⟨5120,.high,true,false,true⟩,⟨0,.mid,true,false,false⟩]}) |> ch 0 0 ({· with wins := [win0]}), 0, 0, 5, 511, win0, 0, .mid, by decide +kernel⟩,
      ⟨R |> lv [(CP_STATUS_VALID 0,1)] |> dv [(CP_CMP_MODE 0 0,modeSampled)] |> tdcv 0 0 ({· with lastStop := some 5000}) |> cmpv 0 0 ({· with log := [⟨5120,.high,true,false,true⟩,⟨0,.mid,true,false,false⟩]}) |> ch 0 0 ({· with wins := [win0]}), 0, 0, 5, win0, 0, .mid, 5000, by decide +kernel⟩,
      ⟨R , 0, 0, 5, .mid, .mid, by decide +kernel⟩,
      ⟨R |> lv [(FQ_AGE_SEL 0,0)], 0, by decide +kernel⟩⟩

theorem witness_Windows :
      (∃ (s : State) (g : GroupIx) (p : Pos) (w : Win) (rest : List Win), (s.chan g p).wins = w :: rest ∧ w.opened ∧ w.closed = false ∧ dueWin rest s.time = none ∧ reached s.time (tclkOf (w.stop + BitVec.ofNat 66 w.dc + 1024))) ∧
      (∃ (s : State) (g : GroupIx) (p : Pos) (w : Win) (i : Nat) (x : Tick × Bool) (c : Fin 32), s.firstClosed g = some (p.val, i, w) ∧ w.closed ∧ w.kind = winEw ∧ w.dead = false ∧ w.stamps = [x] ∧ w.ctx = some c.val) ∧
      (∃ (s : State) (g : GroupIx) (p : Pos) (q i : Nat) (w : Win), s.firstClosed g = some (q, i, w) ∧ q ≠ p.val) ∧
      (∃ (s : State) (g : GroupIx) (p : Pos), s.get (TD_XWIN_CTL_SRC g) = 2 ∧ s.time.toNat % 2 ^ (10 + s.get (TD_XWIN_CTL_REFSH g)) = 0 ∧ s.bit (TD_XWIN_CTL_MASK g) p ∧ (∀ q, q < 16 → dueWin (s.chan g q).wins (s.time - 1) = none) ∧ s.on (TD_CH_EN g p)) :=
    ⟨⟨R |> now 100 |> ch 0 0 ({· with wins := [win0, win0]}), 0, 0, win0, [win0], by decide +kernel⟩,
      ⟨R |> ch 0 0 ({· with wins := [{win0 with closed := true, stamps := [(5,true)], ctx := some 31}]}) |> now 90000, 0, 0, {win0 with closed := true, stamps := [(5,true)], ctx := some 31}, 0, (5,true), 31, by decide +kernel⟩,
      ⟨R |> ch 0 0 ({· with wins := [{win0 with closed := true, stamps := [(5,true)], ctx := some 31}]}) |> now 90000, 0, 3, 0, 0, {win0 with closed := true, stamps := [(5,true)], ctx := some 31}, by decide +kernel⟩,
      ⟨R |> lv [(TD_XWIN_CTL_SRC 0,2),(TD_XWIN_CTL_MASK 0,0x8000),(TD_CH_EN 0 15,1),(TD_XWIN_LEN_LEN 0,1000)] |> now 1024, 0, 15, by decide +kernel⟩⟩

theorem witness_TdcCalibration :
      (∃ (s : State) (g : GroupIx) (p : Pos) (hits : List Nat) (refs : List (Fin 512)), passCounts (2 ^ (s.tdc g p).passN) hits ∧ passGood (2 ^ (s.tdc g p).passN) hits ∧ refs.length = 256 ∧ usTclk (2 ^ (s.tdc g p).passN) ≤ 5 * s.since (s.tdc g p).passAt ∧ s.lineB g p = false) ∧
      (∃ (s : State) (g : GroupIx) (p : Pos) (hits : List Nat) (refs : List (Fin 512)), passCounts (2 ^ (s.tdc g p).passN) hits ∧ passGood (2 ^ (s.tdc g p).passN) hits = false ∧ refs.length = 256 ∧ usTclk (2 ^ (s.tdc g p).passN) ≤ 5 * s.since (s.tdc g p).passAt) ∧
      (∃ (s : State) (g : GroupIx), s.time.toNat % 2 ^ (30 + s.get (TD_CAL_CTL_SWSH g)) = 0 ∧ s.on (TD_CAL_CTL_FREEZE g) = false) :=
    ⟨⟨R |> now (2^30), 0, 15, List.replicate 512 2048, List.replicate 256 0, by decide +kernel⟩,
      ⟨R |> now (2^30), 0, 0, 1048576 :: List.replicate 511 0, List.replicate 256 0, by decide +kernel⟩,
      ⟨R |> lv [(TD_CAL_CTL_SWSH 0,0)] |> tdcv 0 0 ({· with passDone := true}) |> now (2^30), 0, by decide +kernel⟩⟩

theorem witness_FrequencyGates :
      (∃ (s : State) (g : GroupIx) (v : Word), s.actsNow ∧ v.getLsbD 31 ∧ v.getLsbD 30 = false ∧ s.gate g = none) ∧
      (∃ (s : State) (g : GroupIx) (v : Word) (x : Gate), s.actsNow ∧ v.getLsbD 30 ∧ v.getLsbD 31 = false ∧ s.gate g = some x ∧ reached s.time (later x.start (usTclk (s.get (FQ_GATE_GATE g)))) = false) ∧
      (∃ (s : State) (g : GroupIx) (x : Gate), s.gate g = some x ∧ reached s.time (later x.start (usTclk (s.get (FQ_GATE_GATE g)))) ∧ s.since (later x.start (usTclk (s.get (FQ_GATE_GATE g)))) < usTclk (s.get (FQ_GATE_GATE g))) ∧
      (∃ (s : State) (g : GroupIx) (src : Fin 17) (i : Nat) (d : Gate), s.gateNow g = s ∧ s.fqDue g src = some i ∧ (s.group g).gates[i]? = some d ∧ (vget d.acc src .empty).n < 3) ∧
      (∃ (s : State) (g : GroupIx) (src : Fin 17) (i f : Nat) (d : Gate) (a : FqAcc), s.gateNow g = s ∧ s.fqDue g src = some i ∧ (s.group g).gates[i]? = some d ∧ vget d.acc src .empty = a ∧ 3 ≤ a.n ∧ 0 < a.n * a.sit - a.si * a.st ∧ 0 < a.n * a.sii - a.si * a.si ∧ 2 * (a.n * a.sit - a.si * a.st) * f ≤ 2 * (d.divs.getD src.val 1 : Int) * 1638400000000 * (a.n * a.sii - a.si * a.si) * 2 ^ 24 + (a.n * a.sit - a.si * a.st) ∧ 2 * (d.divs.getD src.val 1 : Int) * 1638400000000 * (a.n * a.sii - a.si * a.si) * 2 ^ 24 + (a.n * a.sit - a.si * a.st) < 2 * (a.n * a.sit - a.si * a.st) * (f + 1) ∧ f < 2 ^ 64) :=
    ⟨⟨R |> lv [(FQ_STAT_GSEQ 0,65535)] |> now 8, 0, 0x80000001, ⟨by unfold State.actsNow; decide +kernel, by decide +kernel⟩⟩,
      ⟨R |> gr 0 ({· with gates := [(⟨5,none,Vector.replicate 17 .empty,[],false,0,[]⟩ : Gate)]}) |> now 8, 0, 0x40000000, (⟨5,none,Vector.replicate 17 .empty,[],false,0,[]⟩ : Gate), ⟨by unfold State.actsNow; decide +kernel, by decide +kernel⟩⟩,
      ⟨R |> lv [(FQ_GATE_GATE 0,2),(FQ_CTL_REPEAT 0,1)] |> gr 0 ({· with gates := [(⟨5,none,Vector.replicate 17 .empty,[],false,0,[]⟩ : Gate)]}) |> now 3206, 0, (⟨5,none,Vector.replicate 17 .empty,[],false,0,[]⟩ : Gate), by decide +kernel⟩,
      ⟨R |> gr 0 ({· with gates := [(⟨5,some 99,Vector.replicate 17 .empty,List.replicate 17 1,false,9,[0,1]⟩ : Gate)]}), 0, 0, 0, (⟨5,some 99,Vector.replicate 17 .empty,List.replicate 17 1,false,9,[0,1]⟩ : Gate), by decide +kernel⟩,
      ⟨R |> gr 0 ({· with gates := [(⟨5,some 99,Vector.replicate 17 (⟨4,6,14,6000,14000,0,false⟩ : FqAcc),List.replicate 17 1,false,9,[0,1]⟩ : Gate)]}), 0, 0, 0, (fqFreq (⟨4,6,14,6000,14000,0,false⟩ : FqAcc) 1).getD 0, (⟨5,some 99,Vector.replicate 17 (⟨4,6,14,6000,14000,0,false⟩ : FqAcc),List.replicate 17 1,false,9,[0,1]⟩ : Gate), (⟨4,6,14,6000,14000,0,false⟩ : FqAcc), by decide +kernel⟩⟩

theorem witness_VectorOutcomes :
      (∃ (s : State) (g : GroupIx) (v : VecOut) (rest : List VecOut), (s.group g).outq = v :: rest ∧ reached s.time (tclkOf (v.b + BitVec.ofNat 66 (51200 + v.extent)))) ∧
      (∃ (l : List LaneEntry) (a b : Tick), laneIn l a b = []) ∧
      (∃ (l : LaneSummary), l.valid = 0) ∧
      (∃ (l : LaneSummary), l.valid ≠ 0) :=
    ⟨⟨R |> gr 0 ({· with outq := [vo0]}) |> now 60, 0, vo0, [], by decide +kernel⟩,
      ⟨[], 0, 0, by decide +kernel⟩,
      ⟨⟨.high,.low,false,true,false,0,false⟩, by decide +kernel⟩,
      ⟨⟨.high,.low,false,true,false,2,true⟩, by decide +kernel⟩⟩

theorem witness_SummaryIntervals :
      (∃ (s : State) (e : EngineIx) (iv : Interval) (rest : List Interval), (s.group e).ivs = iv :: rest ∧ iv.full ∧ iv.ended = none ∧ (∀ i ∈ rest, i.ended.isSome ∧ i.id ≠ iv.id) ∧ reached s.time (tclkOf iv.stop)) ∧
      (∃ (s : State) (e : EngineIx) (iv : Interval) (at_ : Time) (step : Nat) (en : Bool) (meas : List Native), (s.group e).ivs.getLast? = some iv ∧ iv.ended = some (at_, step, en, meas) ∧ (s.group e).settled iv.id) :=
    ⟨⟨R |> gr 0 ({· with ivs := [{Interval.empty 3 4 with full := true, stop := 5000}]}) |> now 9, 0, {Interval.empty 3 4 with full := true, stop := 5000}, [], ⟨by decide +kernel, by decide +kernel, by decide +kernel, all_mem _ (by decide +kernel), by decide +kernel⟩⟩,
      ⟨R |> gr 0 ({· with ivs := [.empty 4 5, {Interval.empty 3 4 with full := true, stop := 5000, ended := some (4,7,true,[])}]}) |> now 9, 0, {Interval.empty 3 4 with full := true, stop := 5000, ended := some (4,7,true,[])}, 4, 7, true, [], by decide +kernel⟩⟩

theorem witness_CaptureAndPointers :
      (∃ (s : State) (g : GroupIx), s.actsNow ∧ s.on (FC_CAP_CFG_EN g)) ∧
      (∃ (s : State) (g : GroupIx), s.actsNow ∧ s.get (FC_CAP_STAT_STATE g) = capArmed) ∧
      (∃ (s : State) (g : GroupIx) (v : Word), s.actsNow ∧ v.getLsbD 2 ∧ (s.get (FC_CAP_STAT_STATE g) = capArmed ∨ s.get (FC_CAP_STAT_STATE g) = capTriggered)) ∧
      (∃ (s : State) (g : GroupIx) (k w : Nat), (s.group g).cap.trig = some (k, w) ∧ s.get (FC_CAP_STAT_STATE g) = capTriggered ∧ (s.group g).cap.n = k + (s.group g).cap.post ∧ (s.group g).cap.post ≤ 262144) ∧
      (∃ (s : State) (g : GroupIx) (v : Word), s.ready ∧ s.on (FC_LOG_CTL_HOST g) = false ∧ (s.get (FC_LOG_PTR_WPTR g) + 8192 - v.toNat / 65536 % 8192) % 8192 ≤ 4096) ∧
      (∃ (s : State) (g : GroupIx) (v : Word), s.ready ∧ s.on (FC_EV_CTL_DMA g) = false ∧ (s.get (FC_EV_PTR_WPTR g) + 16384 - v.toNat / 65536 % 16384) % 16384 ≤ 8192) :=
    ⟨⟨R |> lv [(FC_CAP_CFG_EN 0,1),(FC_CAP_CFG_TSRC 0,6),(FC_CAP_POST_POST 0,77)] |> now 5, 0, ⟨by unfold State.actsNow; decide +kernel, by decide +kernel⟩⟩,
      ⟨R |> lv [(FC_CAP_STAT_STATE 0,capArmed)], 0, ⟨by unfold State.actsNow; decide +kernel, by decide +kernel⟩⟩,
      ⟨R |> lv [(FC_CAP_STAT_STATE 0,capTriggered)], 0, 6, ⟨by unfold State.actsNow; decide +kernel, by decide +kernel⟩⟩,
      ⟨R |> lv [(FC_CAP_STAT_STATE 0,capTriggered)] |> capv 0 ({· with trig := some (3,0), n := 5, post := 2}), 0, 3, 0, by decide +kernel⟩,
      ⟨R |> lv [(FC_LOG_CTL_HOST 0,0),(FC_LOG_PTR_WPTR 0,5)], 0, 0x00040000, by decide +kernel⟩,
      ⟨R |> lv [(FC_EV_CTL_DMA 0,0),(FC_EV_PTR_WPTR 0,5)], 0, 0x00050000, by decide +kernel⟩⟩

theorem witness_TriggerEngines :
      (∃ (s : State) (n : Fin 4) (v : Word), s.actsNow ∧ v.getLsbD 0 ∧ v.getLsbD 1 = false ∧ s.on (AQ_TE_CTL_EN n)) ∧
      (∃ (s : State) (v : Word), s.actsNow ∧ v.getLsbD 1) ∧
      (∃ (s : State), s.actsNow) ∧
      (∃ (s : State), (∀ g, g < 32 → (s.wp g).due = [])) ∧
      (∃ (s : State) (n : Fin 4) (stop : Tick) (mark : Bool) (rest : List (Tick × Bool)), (s.te n).due = (stop, mark) :: rest ∧ s.outcomeAwaited (tclkOf stop) = false ∧ s.get (AQ_TE_STAT_STATE n) = teIdle) ∧
      (∃ (s : State) (n : Fin 4) (stop : Tick) (mark : Bool) (rest : List (Tick × Bool)), (s.te n).due = (stop, mark) :: rest ∧ s.outcomeAwaited (tclkOf stop) = false ∧ reached (tclkOf stop) (s.te n).armAt ∧ s.get (AQ_TE_STAT_STATE n) = teArmed ∧ s.get (AQ_TE_STAT_STAGE n) = 0 ∧ s.get (AQ_TE_S_CTL_NST n 0) = 0 ∧ s.get (AQ_TE_S_CTL_COUNT n 0) = 0 ∧ (s.te n).hits = 0 ∧ s.stageMatches n 0 (tclkOf stop) mark) :=
    ⟨⟨R |> lv [(AQ_TE_CTL_EN 3,1)] |> now 5, 3, 1, ⟨by unfold State.actsNow; decide +kernel, by decide +kernel⟩⟩,
      ⟨R |> lv [(AQ_TE_STAT_STATE 0,teArmed)], 3, ⟨by unfold State.actsNow; decide +kernel, by decide +kernel⟩⟩,
      ⟨R , by unfold State.actsNow; decide +kernel⟩,
      ⟨R |> lv [(FC_CAP_STAT_STATE 31,capArmed)] |> capv 31 ({· with tsrc := 7}), by decide +kernel⟩,
      ⟨R |> tev 0 ({· with due := [(5000,true)]}), 0, 5000, true, [], by decide +kernel⟩,
      ⟨R |> lv [(AQ_TE_STAT_STATE 0,teArmed),(AQ_TE_S_CTL_MARK 0 0,1)] |> tev 0 ({· with due := [(5000,true)]}), 0, 5000, true, [], by decide +kernel⟩⟩

theorem witness_WaveformPlayer :
      (∃ (s : State) (g : GroupIx) (v : Word), s.actsNow ∧ v.getLsbD 31 ∧ v.getLsbD 30 = false ∧ s.on (WP_CTL_EN g) ∧ s.wpRuns g = false ∧ (s.wp g).due = []) ∧
      (∃ (s : State) (g : GroupIx) (v : Word), s.actsNow ∧ v.getLsbD 30 ∧ s.wpState g = wpPlaying ∧ (s.wp g).due = []) ∧
      (∃ (s : State) (g : GroupIx) (v : Word), s.actsNow ∧ v.getLsbD 29 ∧ v.getLsbD 30 = false ∧ s.wpRuns g ∧ (s.wp g).due = []) ∧
      (∃ (s : State) (g : GroupIx) (v : Word), s.actsNow ∧ v.getLsbD 31 ∧ s.wpRuns g = false) ∧
      (∃ (s : State) (g : GroupIx) (at_ : Time) (n : Nat) (rest : List (Time × Nat)), (s.wp g).due = (at_, n) :: rest ∧ reached s.time (at_ + 1) ∧ s.wpRuns g = false) ∧
      (∃ (s : State) (g : GroupIx) (at_ : Time) (rest : List (Time × Nat)), (s.wp g).due = (at_, 1) :: rest ∧ reached s.time (at_ + 1) ∧ s.wpState g = wpPlaying ∧ (s.wp g).strm = false ∧ (s.wp g).pos < (s.wp g).len ∧ (s.wp g).lastIssue = none ∧ s.get (WP_LIM_LO g) ≤ s.get (WP_LIM_HI g) ∧ s.get (WP_LIM_HI g) < 65536) ∧
      (∃ (s : State) (g : GroupIx) (at_ : Time) (code mask : BitVec 16) (d : Nat) (rest : List (Time × BitVec 16 × Nat × BitVec 16)), (s.wp g).flight = (at_, code, d, mask) :: rest ∧ reached s.time at_) :=
    ⟨⟨R |> lv [(WP_CTL_EN 0,1),(WP_CTL_ENTRY0 0,63)] |> now 7, 0, 0x80000000, ⟨by unfold State.actsNow; decide +kernel, by decide +kernel⟩⟩,
      ⟨R |> lv [(WP_STAT_STATE 0,wpPlaying)], 0, 0x40000000, ⟨by unfold State.actsNow; decide +kernel, by decide +kernel⟩⟩,
      ⟨R |> lv [(WP_STAT_STATE 0,wpPlaying)], 0, 0x2000003F, ⟨by unfold State.actsNow; decide +kernel, by decide +kernel⟩⟩,
      ⟨R , 0, 0x80000003, ⟨by unfold State.actsNow; decide +kernel, by decide +kernel⟩⟩,
      ⟨R |> wpv 0 ({· with due := [(5,1)]}) |> now 6, 0, 5, 1, [], by decide +kernel⟩,
      ⟨R |> lv [(WP_STAT_STATE 0,wpPlaying),(WP_LIM_LO 0,100),(WP_LIM_HI 0,200)] |> wpv 0 ({· with due := [(5,1),(6,1)], len := 3, start := 65535}) |> now 6, 0, 5, [(6,1)], by decide +kernel⟩,
      ⟨R |> lv [(WP_CHMASK_MASK 0,0x8001)] |> wpv 0 ({· with flight := [(5,77,0,0x8001)]}) |> now 6, 0, 5, 77, 0x8001, 0, [], by decide +kernel⟩⟩

theorem witness_QueselControlFlow :
      (∃ (s : State) (e : EngineIx) (c : Fin 32) (i : Native), s.Stands e c i ∧ opOf i = 0x00) ∧
      (∃ (s : State) (e : EngineIx) (c : Fin 32) (i : Native), s.Stands e c i ∧ opOf i ∉ definedOps) ∧
      (∃ (s : State) (e : EngineIx) (c : Fin 32) (i : Native), s.Stands e c i ∧ opOf i = 0x0A) ∧
      (∃ (s : State) (e : EngineIx) (c : Fin 32) (i : Native), s.Stands e c i ∧ opOf i = 0x0B ∧ clrOf i = false ∧ s.condTrue e c i) ∧
      (∃ (s : State) (e : EngineIx) (c : Fin 32) (i : Native), s.Stands e c i ∧ opOf i = 0x0B ∧ clrOf i = false ∧ s.condTrue e c i = false) ∧
      (∃ (s : State) (e : EngineIx) (c : Fin 32) (i : Native), s.Stands e c i ∧ opOf i = 0x0B ∧ clrOf i ∧ condOf i = 2 ∧ s.on (SQ_CTX_FLAGS_FAIL e c)) ∧
      (∃ (s : State) (e : EngineIx) (c : Fin 32) (i : Native), s.Stands e c i ∧ opOf i = 0x0C ∧ s.get (SQ_CTX_STAT_DEPTH e c) < 4) ∧
      (∃ (s : State) (e : EngineIx) (c : Fin 32) (i : Native), s.Stands e c i ∧ opOf i = 0x0C ∧ s.get (SQ_CTX_STAT_DEPTH e c) = 4) ∧
      (∃ (s : State) (e : EngineIx) (c : Fin 32) (i : Native), s.Stands e c i ∧ opOf i = 0x08 ∧ s.get (SQ_CTX_STAT_DEPTH e c) < 4) ∧
      (∃ (s : State) (e : EngineIx) (c : Fin 32) (i : Native), s.Stands e c i ∧ opOf i = 0x08 ∧ s.get (SQ_CTX_STAT_DEPTH e c) = 4) ∧
      (∃ (s : State) (e : EngineIx) (c : Fin 32) (i : Native) (d : Nat), s.Stands e c i ∧ d < 4 ∧ opOf i = 0x0D ∧ s.get (SQ_CTX_STAT_DEPTH e c) = d + 1 ∧ s.get (stackKind e c d) = 0) ∧
      (∃ (s : State) (e : EngineIx) (c : Fin 32) (i : Native), s.Stands e c i ∧ opOf i = 0x0D ∧ s.get (SQ_CTX_STAT_DEPTH e c) = 0) ∧
      (∃ (s : State) (e : EngineIx) (c : Fin 32) (i : Native) (d : Nat), s.Stands e c i ∧ d < 4 ∧ opOf i = 0x09 ∧ s.get (SQ_CTX_STAT_DEPTH e c) = d + 1 ∧ s.get (stackKind e c d) = 1 ∧ s.get (SQ_CTX_L_L e c d) ≠ 0) ∧
      (∃ (s : State) (e : EngineIx) (c : Fin 32) (i : Native) (d : Nat), s.Stands e c i ∧ d < 4 ∧ opOf i = 0x09 ∧ s.get (SQ_CTX_STAT_DEPTH e c) = d + 1 ∧ s.get (stackKind e c d) = 1 ∧ s.get (SQ_CTX_L_L e c d) = 0) ∧
      (∃ (s : State) (e : EngineIx) (c : Fin 32) (i : Native), s.Stands e c i ∧ opOf i = 0x09 ∧ s.get (SQ_CTX_STAT_DEPTH e c) = 0) :=
    ⟨⟨stand 5 31 16383 (ins 0x0 0 77 0 0) [] , 5, 31, (ins 0x0 0 77 0 0), ⟨stands_of (vendor_stand ..) (by decide +kernel) (by decide +kernel), by decide +kernel⟩⟩,
      ⟨stand 5 31 3 (ins 0xEE 0 16777215 0 0) [] , 5, 31, (ins 0xEE 0 16777215 0 0), ⟨stands_of (vendor_stand ..) (by decide +kernel) (by decide +kernel), by decide +kernel⟩⟩,
      ⟨stand 5 31 3 (ins 0xA 0 77 16384 0) [] , 5, 31, (ins 0xA 0 77 16384 0), ⟨stands_of (vendor_stand ..) (by decide +kernel) (by decide +kernel), by decide +kernel⟩⟩,
      ⟨stand 5 31 3 (ins 0xB 0 77 16383 0) [] , 5, 31, (ins 0xB 0 77 16383 0), ⟨stands_of (vendor_stand ..) (by decide +kernel) (by decide +kernel), by decide +kernel⟩⟩,
      ⟨stand 5 31 3 (ins 0xB 1 77 5 0) [] , 5, 31, (ins 0xB 1 77 5 0), ⟨stands_of (vendor_stand ..) (by decide +kernel) (by decide +kernel), by decide +kernel⟩⟩,
      ⟨stand 5 31 3 (ins 0xB 130 77 0 0) [(SQ_CTX_FLAGS_FAIL 5 31,1)] , 5, 31, (ins 0xB 130 77 0 0), ⟨stands_of (vendor_stand ..) (by decide +kernel) (by decide +kernel), by decide +kernel⟩⟩,
      ⟨stand 5 31 3 (ins 0xC 0 77 9 0) [(SQ_CTX_STAT_DEPTH 5 31,3)] , 5, 31, (ins 0xC 0 77 9 0), ⟨stands_of (vendor_stand ..) (by decide +kernel) (by decide +kernel), by decide +kernel⟩⟩,
      ⟨stand 5 31 3 (ins 0xC 0 77 9 0) [(SQ_CTX_STAT_DEPTH 5 31,4)] , 5, 31, (ins 0xC 0 77 9 0), ⟨stands_of (vendor_stand ..) (by decide +kernel) (by decide +kernel), by decide +kernel⟩⟩,
      ⟨stand 5 31 16383 (ins 0x8 0 77 9 0) [(SQ_CTX_STAT_DEPTH 5 31,3)] , 5, 31, (ins 0x8 0 77 9 0), ⟨stands_of (vendor_stand ..) (by decide +kernel) (by decide +kernel), by decide +kernel⟩⟩,
      ⟨stand 5 31 3 (ins 0x8 0 77 9 0) [(SQ_CTX_STAT_DEPTH 5 31,4)] , 5, 31, (ins 0x8 0 77 9 0), ⟨stands_of (vendor_stand ..) (by decide +kernel) (by decide +kernel), by decide +kernel⟩⟩,
      ⟨stand 5 31 3 (ins 0xD 0 77 0 0) [(SQ_CTX_STAT_DEPTH 5 31,4),(stackAddr 5 31 3,88)] , 5, 31, (ins 0xD 0 77 0 0), 3, ⟨stands_of (vendor_stand ..) (by decide +kernel) (by decide +kernel), by decide +kernel⟩⟩,
      ⟨stand 5 31 3 (ins 0xD 0 77 0 0) [(SQ_CTX_STAT_DEPTH 5 31,0)] , 5, 31, (ins 0xD 0 77 0 0), ⟨stands_of (vendor_stand ..) (by decide +kernel) (by decide +kernel), by decide +kernel⟩⟩,
      ⟨stand 5 31 3 (ins 0x9 0 77 0 0) [(SQ_CTX_STAT_DEPTH 5 31,1),(stackKind 5 31 0,1),(stackAddr 5 31 0,88),(SQ_CTX_L_L 5 31 0,1)] , 5, 31, (ins 0x9 0 77 0 0), 0, ⟨stands_of (vendor_stand ..) (by decide +kernel) (by decide +kernel), by decide +kernel⟩⟩,
      ⟨stand 5 31 3 (ins 0x9 0 77 0 0) [(SQ_CTX_STAT_DEPTH 5 31,4),(stackKind 5 31 3,1),(stackAddr 5 31 3,88)] , 5, 31, (ins 0x9 0 77 0 0), 3, ⟨stands_of (vendor_stand ..) (by decide +kernel) (by decide +kernel), by decide +kernel⟩⟩,
      ⟨stand 5 31 3 (ins 0x9 0 77 0 0) [] , 5, 31, (ins 0x9 0 77 0 0), ⟨stands_of (vendor_stand ..) (by decide +kernel) (by decide +kernel), by decide +kernel⟩⟩⟩

theorem witness_QueselVectors :
      (∃ (s : State) (e : EngineIx) (c : Fin 32) (i : Native), s.Stands e c i ∧ opOf i = 0x01 ∧ s.get (SQ_CTX_RES_RES e c) = 0 ∧ 0 < bOf i ∧ aOf i < 0xFFFF) ∧
      (∃ (s : State) (e : EngineIx) (c : Fin 32) (i : Native), s.Stands e c i ∧ opOf i = 0x01 ∧ s.get (SQ_CTX_RES_RES e c) = 0 ∧ bOf i = 0) ∧
      (∃ (s : State) (e : EngineIx) (c : Fin 32) (i : Native), s.Stands e c i ∧ opOf i = 0x01 ∧ s.get (SQ_CTX_RES_RES e c) = 0 ∧ 0 < bOf i ∧ 0xFFFF ≤ aOf i) ∧
      (∃ (s : State) (e : EngineIx) (c : Fin 32) (i : Native) (r : Nat), s.Stands e c i ∧ opOf i = 0x01 ∧ s.get (SQ_CTX_RES_RES e c) = r ∧ 1 < r ∧ r ≤ bOf i ∧ aOf i + bOf i + 1 - r < 0xFFFF) ∧
      (∃ (s : State) (e : EngineIx) (c : Fin 32) (i : Native), s.Stands e c i ∧ opOf i = 0x02 ∧ s.get (SQ_CTX_RES_RES e c) = 0 ∧ 0 < bOf i) ∧
      (∃ (s : State) (e : EngineIx) (c : Fin 32) (i : Native), s.Stands e c i ∧ opOf i = 0x02 ∧ s.get (SQ_CTX_RES_RES e c) = 1) ∧
      (∃ (s : State) (e : EngineIx) (c : Fin 32) (i : Native), s.Stands e c i ∧ opOf i = 0x03 ∧ s.get (SQ_CTX_RES_RES e c) = 0 ∧ 0 < bOf i ∧ s.on (SQ_STRM_EN e) ∧ s.on (SQ_UH_EHI_OPEN e) = false ∧ (∀ g ∈ s.members e, (s.engine g).refill ≠ [])) ∧
      (∃ (s : State) (e : EngineIx) (c : Fin 32) (i : Native), s.Stands e c i ∧ opOf i = 0x03 ∧ s.get (SQ_CTX_RES_RES e c) = 0 ∧ 0 < bOf i ∧ s.on (SQ_STRM_EN e) = false ∧ s.on (SQ_UH_EHI_OPEN e) = false) :=
    ⟨⟨stand 5 31 3 (ins 0x1 0 65534 1 0) [] , 5, 31, (ins 0x1 0 65534 1 0), ⟨stands_of (vendor_stand ..) (by decide +kernel) (by decide +kernel), by decide +kernel⟩⟩,
      ⟨stand 5 31 16383 (ins 0x1 0 77 0 0) [] , 5, 31, (ins 0x1 0 77 0 0), ⟨stands_of (vendor_stand ..) (by decide +kernel) (by decide +kernel), by decide +kernel⟩⟩,
      ⟨stand 5 31 3 (ins 0x1 0 65535 3 0) [] , 5, 31, (ins 0x1 0 65535 3 0), ⟨stands_of (vendor_stand ..) (by decide +kernel) (by decide +kernel), by decide +kernel⟩⟩,
      ⟨stand 5 31 3 (ins 0x1 0 10 9 0) [(SQ_CTX_RES_RES 5 31,9)] , 5, 31, (ins 0x1 0 10 9 0), 9, ⟨stands_of (vendor_stand ..) (by decide +kernel) (by decide +kernel), by decide +kernel⟩⟩,
      ⟨stand 5 31 3 (ins 0x2 0 77 16777215 0) [] , 5, 31, (ins 0x2 0 77 16777215 0), ⟨stands_of (vendor_stand ..) (by decide +kernel) (by decide +kernel), by decide +kernel⟩⟩,
      ⟨stand 5 31 3 (ins 0x2 0 77 4 0) [(SQ_CTX_RES_RES 5 31,1)] , 5, 31, (ins 0x2 0 77 4 0), ⟨stands_of (vendor_stand ..) (by decide +kernel) (by decide +kernel), by decide +kernel⟩⟩,
      ⟨stand 5 31 3 (ins 0x3 0 77 4 0) [(SQ_STRM_EN 5,1),(SQ_STRM_STAT_FILL 5,1)] |> en 5 ({· with refill := [77#72]}), 5, 31, (ins 0x3 0 77 4 0), ⟨stands_of (vendor_en _ _ (vendor_stand ..)) (by decide +kernel) (by decide +kernel), by decide +kernel, by decide +kernel, by decide +kernel, by decide +kernel, by decide +kernel, all_mem _ (by decide +kernel)⟩⟩,
      ⟨stand 5 31 3 (ins 0x3 0 77 4 0) [(SQ_STRM_EN 5,0),(SQ_CTX_CFG_UVA 5 31,9)] , 5, 31, (ins 0x3 0 77 4 0), ⟨stands_of (vendor_stand ..) (by decide +kernel) (by decide +kernel), by decide +kernel⟩⟩⟩

theorem witness_QueselArithmetic :
      (∃ (s : State) (e : EngineIx) (c : Fin 32) (i : Native), s.Stands e c i ∧ opOf i = 0x20) ∧
      (∃ (s : State) (e : EngineIx) (c : Fin 32) (i : Native), s.Stands e c i ∧ opOf i = 0x21) ∧
      (∃ (s : State) (e : EngineIx) (c : Fin 32) (i : Native), s.Stands e c i ∧ opOf i = 0x22) ∧
      (∃ (s : State) (e : EngineIx) (c : Fin 32) (i : Native) (k d : Fin 8), s.Stands e c i ∧ opOf i = 0x23 ∧ cOf i = 16 * k.val + d.val) ∧
      (∃ (s : State) (e : EngineIx) (c : Fin 32) (i : Native) (k d : Fin 4), s.Stands e c i ∧ opOf i = 0x23 ∧ cOf i = 16 * (8 + k.val) + (8 + d.val)) ∧
      (∃ (s : State) (e : EngineIx) (c : Fin 32) (i : Native), s.Stands e c i ∧ opOf i = 0x23 ∧ cOf i = 0xDF) :=
    ⟨⟨stand 5 31 3 (ins 0x20 0 77 8388608 7) [] , 5, 31, (ins 0x20 0 77 8388608 7), ⟨stands_of (vendor_stand ..) (by decide +kernel) (by decide +kernel), by decide +kernel⟩⟩,
      ⟨stand 5 31 3 (ins 0x21 0 77 3 7) [(SQ_CTX_Q_Q 5 31 7,16777213)] , 5, 31, (ins 0x21 0 77 3 7), ⟨stands_of (vendor_stand ..) (by decide +kernel) (by decide +kernel), by decide +kernel⟩⟩,
      ⟨stand 5 31 3 (ins 0x22 1 77 0 23) [(SQ_CTX_Q_Q 5 31 7,3),(SQ_CTX_Q_Q 5 31 1,4)] , 5, 31, (ins 0x22 1 77 0 23), ⟨stands_of (vendor_stand ..) (by decide +kernel) (by decide +kernel), by decide +kernel⟩⟩,
      ⟨stand 5 31 3 (ins 0x23 0 77 0 112) [(SQ_CTX_Q_Q 5 31 7,8463173)] , 5, 31, (ins 0x23 0 77 0 112), 7, 0, ⟨stands_of (vendor_stand ..) (by decide +kernel) (by decide +kernel), by decide +kernel⟩⟩,
      ⟨stand 5 31 3 (ins 0x23 0 77 0 139) [(SQ_CTX_L_L 5 31 0,0x812345)] , 5, 31, (ins 0x23 0 77 0 139), 0, 3, ⟨stands_of (vendor_stand ..) (by decide +kernel) (by decide +kernel), by decide +kernel⟩⟩,
      ⟨stand 5 31 3 (ins 0x23 0 77 0 223) [] , 5, 31, (ins 0x23 0 77 0 223), ⟨stands_of (vendor_stand ..) (by decide +kernel) (by decide +kernel), by decide +kernel⟩⟩⟩

theorem witness_QueselActions :
      (∃ (s : State) (e : EngineIx) (c : Fin 32) (i : Native), s.Stands e c i ∧ opOf i = 0x28) ∧
      (∃ (s : State) (e : EngineIx) (c : Fin 32) (i : Native), s.Stands e c i ∧ opOf i = 0x29) ∧
      (∃ (s : State) (e : EngineIx) (c : Fin 32) (i : Native), s.Stands e c i ∧ opOf i = 0x32) ∧
      (∃ (s : State) (e : EngineIx) (c : Fin 32) (i : Native), s.Stands e c i ∧ opOf i = 0x19) ∧
      (∃ (s : State) (e : EngineIx) (c : Fin 32) (i : Native), s.Stands e c i ∧ opOf i = 0x1A) ∧
      (∃ (s : State) (e : EngineIx) (c : Fin 32) (i : Native), s.Stands e c i ∧ opOf i = 0x2A ∧ modOf i % 4 = 0) ∧
      (∃ (s : State) (e : EngineIx) (c : Fin 32) (i : Native), s.Stands e c i ∧ opOf i = 0x2A ∧ modOf i % 4 = 1) ∧
      (∃ (s : State) (e : EngineIx) (c : Fin 32) (i : Native), s.Stands e c i ∧ opOf i = 0x2A ∧ modOf i % 4 = 2) ∧
      (∃ (s : State) (e : EngineIx) (c : Fin 32) (i : Native), s.Stands e c i ∧ opOf i = 0x2A ∧ modOf i % 4 = 3) ∧
      (∃ (s : State) (e : EngineIx) (c : Fin 32) (i : Native), s.Stands e c i ∧ opOf i = 0x30) ∧
      (∃ (s : State) (e : EngineIx) (c : Fin 32) (i : Native), s.Stands e c i ∧ opOf i = 0x31 ∧ modOf i % 2 = 0) ∧
      (∃ (s : State) (e : EngineIx) (c : Fin 32) (i : Native), s.Stands e c i ∧ opOf i = 0x31 ∧ modOf i % 2 = 1) ∧
      (∃ (s : State) (e : EngineIx) (c : Fin 32) (i : Native), s.Stands e c i ∧ opOf i = 0x33) ∧
      (∃ (s : State) (e : EngineIx) (c : Fin 32) (i : Native), s.Stands e c i ∧ opOf i = 0x34) ∧
      (∃ (s : State) (e : EngineIx) (c : Fin 32) (i : Native), s.Stands e c i ∧ opOf i = 0x35 ∧ modOf i % 2 = 0) ∧
      (∃ (s : State) (e : EngineIx) (c : Fin 32) (i w : Native) (rest : List Native), s.Stands e c i ∧ opOf i = 0x35 ∧ modOf i % 2 = 1 ∧ (s.engine e).msgs = w :: rest ∧ rest.length < 32) ∧
      (∃ (s : State) (e : EngineIx) (c : Fin 32) (i : Native), s.Stands e c i ∧ opOf i = 0x35 ∧ modOf i % 2 = 1 ∧ (s.engine e).msgs = []) ∧
      (∃ (s : State) (e : EngineIx) (c : Fin 32) (i : Native), s.Stands e c i ∧ opOf i = 0x36) :=
    ⟨⟨stand 5 31 3 (ins 0x28 0 16777215 0 32) [] , 5, 31, (ins 0x28 0 16777215 0 32), ⟨stands_of (vendor_stand ..) (by decide +kernel) (by decide +kernel), by decide +kernel⟩⟩,
      ⟨stand 5 31 3 (ins 0x29 0 77 0 7) [] , 5, 31, (ins 0x29 0 77 0 7), ⟨stands_of (vendor_stand ..) (by decide +kernel) (by decide +kernel), by decide +kernel⟩⟩,
      ⟨stand 5 31 3 (ins 0x32 0 77 0 0) [] , 5, 31, (ins 0x32 0 77 0 0), ⟨stands_of (vendor_stand ..) (by decide +kernel) (by decide +kernel), by decide +kernel⟩⟩,
      ⟨stand 5 31 3 (ins 0x19 0 77 0 0) [] , 5, 31, (ins 0x19 0 77 0 0), ⟨stands_of (vendor_stand ..) (by decide +kernel) (by decide +kernel), by decide +kernel⟩⟩,
      ⟨stand 5 31 16383 (ins 0x1A 0 77 0 0) [] , 5, 31, (ins 0x1A 0 77 0 0), ⟨stands_of (vendor_stand ..) (by decide +kernel) (by decide +kernel), by decide +kernel⟩⟩,
      ⟨stand 5 31 3 (ins 0x2A 0 77 0 255) [] , 5, 31, (ins 0x2A 0 77 0 255), ⟨stands_of (vendor_stand ..) (by decide +kernel) (by decide +kernel), by decide +kernel⟩⟩,
      ⟨stand 5 31 3 (ins 0x2A 1 77 0 0) [] , 5, 31, (ins 0x2A 1 77 0 0), ⟨stands_of (vendor_stand ..) (by decide +kernel) (by decide +kernel), by decide +kernel⟩⟩,
      ⟨stand 5 31 3 (ins 0x2A 2 77 0 0) [] , 5, 31, (ins 0x2A 2 77 0 0), ⟨stands_of (vendor_stand ..) (by decide +kernel) (by decide +kernel), by decide +kernel⟩⟩,
      ⟨stand 5 31 3 (ins 0x2A 255 77 0 0) [] , 5, 31, (ins 0x2A 255 77 0 0), ⟨stands_of (vendor_stand ..) (by decide +kernel) (by decide +kernel), by decide +kernel⟩⟩,
      ⟨stand 5 31 3 (ins 0x30 0 77 74565 0) [] , 5, 31, (ins 0x30 0 77 74565 0), ⟨stands_of (vendor_stand ..) (by decide +kernel) (by decide +kernel), by decide +kernel⟩⟩,
      ⟨stand 5 31 3 (ins 0x31 2 77 0 0) [] , 5, 31, (ins 0x31 2 77 0 0), ⟨stands_of (vendor_stand ..) (by decide +kernel) (by decide +kernel), by decide +kernel⟩⟩,
      ⟨stand 5 31 3 (ins 0x31 3 77 0 0) [] , 5, 31, (ins 0x31 3 77 0 0), ⟨stands_of (vendor_stand ..) (by decide +kernel) (by decide +kernel), by decide +kernel⟩⟩,
      ⟨stand 5 31 3 (ins 0x33 0 77 0 0) [] , 5, 31, (ins 0x33 0 77 0 0), ⟨stands_of (vendor_stand ..) (by decide +kernel) (by decide +kernel), by decide +kernel⟩⟩,
      ⟨stand 5 31 3 (ins 0x34 0 77 0 53) [] , 5, 31, (ins 0x34 0 77 0 53), ⟨stands_of (vendor_stand ..) (by decide +kernel) (by decide +kernel), by decide +kernel⟩⟩,
      ⟨stand 5 31 3 (ins 0x35 0 77 16777215 7) [(SQ_CTX_Q_Q 5 31 7,3),(SQ_CTX_Q_Q 5 31 0,4),(SQ_CTX_Q_Q 5 31 1,16777215)] , 5, 31, (ins 0x35 0 77 16777215 7), ⟨stands_of (vendor_stand ..) (by decide +kernel) (by decide +kernel), by decide +kernel⟩⟩,
      ⟨stand 5 31 3 (ins 0x35 1 77 0 6) [] |> en 5 ({· with msgs := [0x123456789ABCDEF012#72, 5#72]}), 5, 31, (ins 0x35 1 77 0 6), 0x123456789ABCDEF012#72, [5#72], ⟨stands_of (vendor_en _ _ (vendor_stand ..)) (by decide +kernel) (by decide +kernel), by decide +kernel⟩⟩,
      ⟨stand 5 31 3 (ins 0x35 1 77 0 0) [] , 5, 31, (ins 0x35 1 77 0 0), ⟨stands_of (vendor_stand ..) (by decide +kernel) (by decide +kernel), by decide +kernel⟩⟩,
      ⟨stand 5 31 3 (ins 0x36 0 77 74565 255) [] , 5, 31, (ins 0x36 0 77 74565 255), ⟨stands_of (vendor_stand ..) (by decide +kernel) (by decide +kernel), by decide +kernel⟩⟩⟩

theorem witness_QueselWaits :
      (∃ (s : State) (e : EngineIx) (c : Fin 32) (i : Native), s.Stands e c i ∧ opOf i = 0x10 ∧ modOf i % 4 ≠ 1) ∧
      (∃ (s : State) (e : EngineIx) (c : Fin 32) (i : Native), s.Stands e c i ∧ opOf i = 0x10 ∧ modOf i % 4 = 1) ∧
      (∃ (s : State) (e : EngineIx) (c : Fin 32) (i : Native), s.Stands e c i ∧ opOf i = 0x11 ∧ modOf i % 4 ≠ 1) ∧
      (∃ (s : State) (e : EngineIx) (c : Fin 32) (i : Native), s.Stands e c i ∧ opOf i = 0x11 ∧ modOf i % 4 = 1) ∧
      (∃ (s : State) (e : EngineIx) (c : Fin 32) (i : Native), s.Stands e c i ∧ opOf i = 0x12) ∧
      (∃ (s : State) (e : EngineIx) (c : Fin 32) (i : Native) (b : Fin 8), s.Stands e c i ∧ opOf i = 0x13 ∧ cOf i % 8 = b ∧ s.bit (SQ_BAR_MASK_MASK 0 b) e ∧ s.on (SQ_BAR_CTL_DOM 0 b) = false) ∧
      (∃ (s : State) (e : EngineIx) (c : Fin 32) (i : Native), s.Stands e c i ∧ opOf i = 0x18) ∧
      (∃ (s : State) (e : EngineIx) (c : Fin 32) (x : Wait) (n : Time), s.isLeader e ∧ s.inMchk e = false ∧ (∀ op < 256, (s.dispEntry e op).bad = false) ∧ s.running e = some c.val ∧ s.ctxWait e c = some x ∧ x.kind = .time n ∧ x.released = none ∧ x.micro = vendorHold 2 [] ∧ reached n (later x.since 1) ∧ reached s.time n ∧ (∀ d < 32, d ≠ c.val → s.ctxWait e d = none)) ∧
      (∃ (s : State) (e : EngineIx) (c : Fin 32) (x : Wait) (n : Time) (m : BitVec 8), s.isLeader e ∧ s.inMchk e = false ∧ (∀ op < 256, (s.dispEntry e op).bad = false) ∧ s.running e = some c.val ∧ s.ctxWait e c = some x ∧ x.kind = .event m (some n) ∧ x.released = none ∧ x.micro = vendorHold 3 [(40, 1)] ∧ s.condTrue e c x.instr = false ∧ reached s.time n ∧ (∀ d < 32, d ≠ c.val → s.ctxWait e d = none)) ∧
      (∃ (s : State) (e : EngineIx) (c d : Fin 32) (x : Wait), s.mayRun e ∧ (∀ op < 256, (s.dispEntry e op).bad = false) ∧ reached s.time (s.slotTime e) ∧ s.running e = some c.val ∧ s.ctxWait e c = some x ∧ x.kind = .swc d ∧ cOf x.instr % 32 = d.val ∧ (s.engine e).halting = none ∧ x.micro = vendorHold 5 [(41, 3)] ∧ d ≠ c ∧ s.ctxState e d = .ready ∧ s.ctxWait e d = none) :=
    ⟨⟨stand 5 31 3 (ins 0x10 3 16777215 0 255) [] , 5, 31, (ins 0x10 3 16777215 0 255), ⟨stands_of (vendor_stand ..) (by decide +kernel) (by decide +kernel), by decide +kernel⟩⟩,
      ⟨stand 5 31 3 (ins 0x10 1 77 3 9) [] , 5, 31, (ins 0x10 1 77 3 9), ⟨stands_of (vendor_stand ..) (by decide +kernel) (by decide +kernel), by decide +kernel⟩⟩,
      ⟨stand 5 31 3 (ins 0x11 0 9 16777215 0) [] , 5, 31, (ins 0x11 0 9 16777215 0), ⟨stands_of (vendor_stand ..) (by decide +kernel) (by decide +kernel), by decide +kernel⟩⟩,
      ⟨stand 5 31 3 (ins 0x11 1 77 0 6) [(SQ_CTX_Q_Q 5 31 6,3),(SQ_CTX_Q_Q 5 31 0,16777215)] , 5, 31, (ins 0x11 1 77 0 6), ⟨stands_of (vendor_stand ..) (by decide +kernel) (by decide +kernel), by decide +kernel⟩⟩,
      ⟨stand 5 31 3 (ins 0x12 4 77 7 0) [] , 5, 31, (ins 0x12 4 77 7 0), ⟨stands_of (vendor_stand ..) (by decide +kernel) (by decide +kernel), by decide +kernel⟩⟩,
      ⟨stand 5 31 3 (ins 0x13 0 77 0 7) [(SQ_BAR_MASK_MASK 0 7,0x21),(SQ_BAR_CTL_DOM 0 7,0)] , 5, 31, (ins 0x13 0 77 0 7), 7, ⟨stands_of (vendor_stand ..) (by decide +kernel) (by decide +kernel), by decide +kernel⟩⟩,
      ⟨stand 5 31 3 (ins 0x18 0 77 0 255) [] , 5, 31, (ins 0x18 0 77 0 255), ⟨stands_of (vendor_stand ..) (by decide +kernel) (by decide +kernel), by decide +kernel⟩⟩,
      ⟨stand 5 31 3 (ins 0x11 0 0 0 0) [] |> wt 5 31 (hold0 (.time 500) (vendorHold 2 []) (ins 0x11 0 0 0 0)) |> lv [(SQ_STAT_ENG 5, engHold)] , 5, 31, (hold0 (.time 500) (vendorHold 2 []) (ins 0x11 0 0 0 0)), 500, by decide +kernel⟩,
      ⟨stand 5 31 3 (ins 0x12 1 0 0 0) [] |> wt 5 31 (hold0 (.event 1 (some 500)) (vendorHold 3 [(40,1)]) (ins 0x12 1 0 0 0)) |> lv [(SQ_STAT_ENG 5, engHold)] , 5, 31, (hold0 (.event 1 (some 500)) (vendorHold 3 [(40,1)]) (ins 0x12 1 0 0 0)), 500, 1, by decide +kernel⟩,
      ⟨stand 5 31 3 (ins 0x18 0 0 0 30) [(SQ_CTX_STAT_STATE 5 30,1)] |> wt 5 31 (hold0 (.swc 30) (vendorHold 5 [(41,3)]) (ins 0x18 0 0 0 30)) |> lv [(SQ_STAT_ENG 5, engHold)] , 5, 31, 30, (hold0 (.swc 30) (vendorHold 5 [(41,3)]) (ins 0x18 0 0 0 30)), by decide +kernel⟩⟩

theorem witness_Barriers :
      (∃ (s : State) (b : Fin 8) (a : Time), s.on (SQ_BAR_CTL_DOM 0 b) = false ∧ s.barrierFull b ∧ s.barrierSet b ≠ [] ∧ lastOf (s.arrivals b) = some a ∧ reached s.time (later a 4) ∧ (∀ l < 32, ∀ op < 256, (s.dispEntry l op).bad = false) ∧ (∀ x ∈ s.barrierWaits b, (s.ctxWait x.1 x.2).map (·.micro) = some (vendorHold 4 []))) ∧
      (∃ (s : State) (b : Fin 8) (a : Time), earliestOf (s.arrivals b) = some a ∧ 0 < s.get (SQ_BAR_CTL_TMO 0 b) ∧ reached s.time (later a (1600 * s.get (SQ_BAR_CTL_TMO 0 b))) ∧ (∀ l < 32, ∀ op < 256, (s.dispEntry l op).bad = false) ∧ (∀ x ∈ s.barrierWaits b, (s.ctxWait x.1 x.2).map (·.micro) = some (vendorHold 4 []))) :=
    ⟨⟨stand 5 31 3 (ins 0x13 0 0 0 0) [(SQ_BAR_MASK_MASK 0 7,0x20),(SQ_BAR_ARR_ARR 0 7,0x20),(SQ_BAR_CTL_DOM 0 7,0)] |> wt 5 31 (hold0 (.barrier 7) (vendorHold 4 []) (ins 0x13 0 0 0 0)) |> lv [(SQ_STAT_ENG 5, engHold)] |> en 5 (fun x => {x with arrived := vset x.arrived 7 (some 500)}), 7, 500, ⟨by decide +kernel, by decide +kernel, by decide +kernel, by decide +kernel, by decide +kernel, vendor_good (vendor_en _ _ (vendor_lv _ (vendor_wt _ _ _ (vendor_stand ..)))), all_mem _ (by decide +kernel)⟩⟩,
      ⟨stand 5 31 3 (ins 0x13 0 0 0 0) [(SQ_BAR_MASK_MASK 0 7,0x21),(SQ_BAR_CTL_TMO 0 7,1),(SQ_BAR_ARR_ARR 0 7,0x20),(SQ_BAR_CTL_DOM 0 7,0)] |> wt 5 31 (hold0 (.barrier 7) (vendorHold 4 []) (ins 0x13 0 0 0 0)) |> lv [(SQ_STAT_ENG 5, engHold)] |> en 5 (fun x => {x with arrived := vset x.arrived 7 (some 500)}) |> now 2100, 7, 500, ⟨by decide +kernel, by decide +kernel, by decide +kernel, vendor_good (vendor_now _ (vendor_en _ _ (vendor_lv _ (vendor_wt _ _ _ (vendor_stand ..))))), all_mem _ (by decide +kernel)⟩⟩⟩

theorem witness_EngineCommands :
      (∃ (s : State) (e : EngineIx) (c : Fin 32), s.actsNow ∧ s.get MC_STAT_STATE = 2 ∧ s.inMchk e = false ∧ s.ctxState e c = .idle) ∧
      (∃ (s : State) (e : EngineIx) (c : Fin 32), s.actsNow ∧ s.get MC_STAT_STATE = 2 ∧ s.inMchk e = false ∧ s.ctxState e c ≠ .idle) ∧
      (∃ (s : State) (e : EngineIx) (c : Fin 32), s.actsNow ∧ s.get MC_STAT_STATE = 2 ∧ s.inMchk e = false ∧ (s.ctxState e c = .idle ∨ s.ctxState e c = .ready)) ∧
      (∃ (s : State) (e : EngineIx) (c : Fin 32), s.actsNow ∧ s.get MC_STAT_STATE = 2 ∧ s.inMchk e = false ∧ s.ctxState e c = .eligible ∧ s.running e ≠ some c.val) ∧
      (∃ (s : State) (e : EngineIx) (c : Fin 32), s.actsNow ∧ s.get MC_STAT_STATE = 2 ∧ s.inMchk e = false ∧ s.ctxState e c ≠ .running) ∧
      (∃ (s : State) (e : EngineIx) (c : Fin 32), s.actsNow ∧ s.get MC_STAT_STATE = 2 ∧ s.inMchk e = false ∧ s.ctxState e c = .running ∧ s.running e = some c.val ∧ (s.engine e).halting = none ∧ s.ctxWait e c = none ∧ (s.engine e).afterHold = false ∧ reached s.time (s.slotTime e) = false) ∧
      (∃ (s : State) (e : EngineIx) (c : Fin 32) (x : Wait), s.actsNow ∧ s.get MC_STAT_STATE = 2 ∧ s.inMchk e = false ∧ s.ctxState e c = .running ∧ s.running e = some c.val ∧ (s.engine e).halting = none ∧ s.ctxWait e c = some x ∧ (∀ d, x.kind ≠ .swc d) ∧ s.mayRun e ∧ s.get (SQ_ELIG_ELIG e) = 0 ∧ (s.engine e).dispatched = false ∧ reached s.time (tclkOf (s.periodEnd e))) ∧
      (∃ (s : State) (e : EngineIx), s.actsNow ∧ s.get (SQ_GANG_M e) = 0 ∧ s.inMchk e = false) ∧
      (∃ (s : State), s.actsNow ∧ s.get MC_STAT_STATE = 2) :=
    ⟨⟨R |> lv [(MC_STAT_STATE,2)], 31, 31, ⟨by unfold State.actsNow; decide +kernel, by decide +kernel⟩⟩,
      ⟨R |> lv [(MC_STAT_STATE,2),(SQ_CTX_STAT_STATE 31 31,2)], 31, 31, ⟨by unfold State.actsNow; decide +kernel, by decide +kernel⟩⟩,
      ⟨R |> lv [(MC_STAT_STATE,2),(SQ_CTX_CFG_BASE 31 31,7)] |> now 9, 31, 31, ⟨by unfold State.actsNow; decide +kernel, by decide +kernel⟩⟩,
      ⟨R |> lv [(MC_STAT_STATE,2),(SQ_CTX_STAT_STATE 31 31,2),(SQ_CTX_CFG_BASE 31 31,7)] |> now 9, 31, 31, ⟨by unfold State.actsNow; decide +kernel, by decide +kernel⟩⟩,
      ⟨R |> lv [(MC_STAT_STATE,2),(SQ_CTX_STAT_STATE 31 31,2)], 31, 31, ⟨by unfold State.actsNow; decide +kernel, by decide +kernel⟩⟩,
      ⟨stand 5 31 3 0 |> en 5 ({· with afterHold := false}) |> gr 5 ({· with nextB := 5000000}), 5, 31, ⟨by unfold State.actsNow; decide +kernel, by decide +kernel⟩⟩,
      ⟨stand 5 31 3 0 |> wt 5 31 (hold0 (.time 5000) (vendorHold 2 []) (ins 0x11 0 0 0 0)) |> lv [(SQ_STAT_ENG 5, engHold)] |> en 5 ({· with dispatched := false}), 5, 31, (hold0 (.time 5000) (vendorHold 2 []) (ins 0x11 0 0 0 0)), ⟨by unfold State.actsNow; decide +kernel, by decide +kernel, by decide +kernel, by decide +kernel, by decide +kernel, by decide +kernel, by decide +kernel, (fun _ h => nomatch h), by decide +kernel⟩⟩,
      ⟨stand 5 31 3 0 [(SQ_BAR_ARR_ARR 0 7,0x21)] |> gr 5 ({· with issue := [], ivs := [{Interval.empty 3 4 with n := 5}]}), 5, ⟨by unfold State.actsNow; decide +kernel, by decide +kernel⟩⟩,
      ⟨R |> lv [(MC_STAT_STATE,2),(SQ_STRM_STAT_FILL 31,1)] |> en 31 ({· with refill := [5#72]}), ⟨by unfold State.actsNow; decide +kernel, by decide +kernel⟩⟩⟩

theorem witness_CausesTimersAndMessages :
      (∃ (s : State) (e : EngineIx) (v : Word) (c : Fin 32), s.actsNow ∧ v.getLsbD 0 ∧ v.toNat / 2 % 32 = c ∧ s.isLeader e ∧ s.inMchk e = false ∧ s.ctxState e c = .ready) ∧
      (∃ (s : State) (e : EngineIx) (v : Word) (c : Fin 32), s.actsNow ∧ v.getLsbD 0 ∧ v.toNat / 2 % 32 = c ∧ s.isLeader e ∧ s.inMchk e = false ∧ s.ctxState e c = .eligible ∧ s.running e = none) ∧
      (∃ (s : State) (e : EngineIx) (v : Word) (c : Fin 32), s.actsNow ∧ v.getLsbD 0 ∧ v.toNat / 2 % 32 = c ∧ s.isLeader e ∧ s.inMchk e = false ∧ s.ctxState e c = .idle) ∧
      (∃ (s : State) (v : Word), s.actsNow ∧ v.getLsbD 31) ∧
      (∃ (s : State) (e : EngineIx) (j : Fin 2), s.on (SQ_TMR_CTL_ARMED e j) ∧ reached s.time (vget (s.engine e).timers j 0) ∧ s.timerPeriod e j = 0) ∧
      (∃ (s : State) (e : EngineIx) (j : Fin 2), s.on (SQ_TMR_CTL_ARMED e j) ∧ reached s.time (vget (s.engine e).timers j 0) ∧ 0 < s.timerPeriod e j ∧ s.on (SQ_TMR_CTL_EN e j) = false) ∧
      (∃ (s : State) (e : EngineIx), s.actsNow ∧ s.on (SQ_RT_MSG_EN e) = false ∧ (s.engine e).msgs.length < 16) ∧
      (∃ (s : State) (e : EngineIx), s.actsNow ∧ s.on (SQ_RT_MSG_EN e) = false ∧ 16 ≤ (s.engine e).msgs.length) :=
    ⟨⟨R |> lv [(SQ_CTX_STAT_STATE 31 31,1)] |> now 8, 31, 0xFF, 31, ⟨by unfold State.actsNow; decide +kernel, by decide +kernel⟩⟩,
      ⟨R |> lv [(SQ_CTX_STAT_STATE 31 31,2),(SQ_CTX_STAT_PRIO 31 31,2)] |> now 8, 31, 0xFF, 31, ⟨by unfold State.actsNow; decide +kernel, by decide +kernel⟩⟩,
      ⟨R , 31, 0xFF, 31, ⟨by unfold State.actsNow; decide +kernel, by decide +kernel⟩⟩,
      ⟨R |> lv [(SQ_TMR_LO_T_LO 31 1,5),(SQ_TMR_HI_T_HI 31 1,6)], 0x800000FF, ⟨by unfold State.actsNow; decide +kernel, by decide +kernel⟩⟩,
      ⟨R |> lv [(SQ_TMR_CTL_ARMED 31 1,1),(SQ_TMR_CTL_EN 31 1,1),(SQ_CTX_STAT_STATE 31 0,1)] |> now 8, 31, 1, by decide +kernel⟩,
      ⟨R |> lv [(SQ_TMR_CTL_ARMED 31 1,1),(SQ_TMR_PERHI_PERHI 31 1,1)] |> now 8, 31, 1, by decide +kernel⟩,
      ⟨R |> lv [(SQ_MSGIN0_W0 31,5),(SQ_MSGIN1_W1 31,6)], 31, ⟨by unfold State.actsNow; decide +kernel, by decide +kernel⟩⟩,
      ⟨R |> en 31 ({· with msgs := List.replicate 16 1#72}), 31, ⟨by unfold State.actsNow; decide +kernel, by decide +kernel⟩⟩⟩

theorem witness_VectorBoundariesAndEpochs :
      (∃ (s : State) (g : GroupIx) (i : Issued) (rest : List Issued) (b : Tick), (s.group g).issue = i :: rest ∧ i.startAt.getD (s.group g).nextB = b ∧ reached s.time (tclkOf b) ∧ i.xreq = none ∧ i.turnEnd = none ∧ s.cm = none ∧ (s.wp g).armed = none) ∧
      (∃ (s : State) (e : EngineIx) (c : Fin 32) (x : Wait) (n : Time), s.cm = none ∧ s.snapDue = none ∧ (∀ g < 32, (s.wp g).armed = none) ∧ s.isLeader e ∧ s.inMchk e = false ∧ (∀ op < 256, (s.dispEntry e op).bad = false) ∧ s.running e = some c.val ∧ s.ctxWait e c = some x ∧ x.kind = .time n ∧ x.released = none ∧ x.micro = vendorHold 2 [] ∧ reached n (later x.since 1) ∧ reached s.time n ∧ (∀ l < 32, ∀ d < 32, (l, d) ≠ (e.val, c.val) → s.ctxWait l d = none)) :=
    ⟨⟨R |> gr 5 ({· with issue := [iss0,iss0], nextB := 5000}) |> now 8, 5, iss0, [iss0], 5000, by decide +kernel⟩,
      ⟨stand 5 31 3 (ins 0x11 0 0 0 0) [] |> wt 5 31 (hold0 (.time 500) (vendorHold 2 []) (ins 0x11 0 0 0 0)) |> lv [(SQ_STAT_ENG 5, engHold)] , 5, 31, (hold0 (.time 500) (vendorHold 2 []) (ins 0x11 0 0 0 0)), 500, by decide +kernel⟩⟩

theorem witness_ControlStoreLoads :
      (∃ (s : State), s.ready ∧ s.mcState ≠ mcLoading ∧ s.mcState ≠ mcReload ∧ (∀ e < 32, s.get (SQ_GANG_M e) = 0)) ∧
      (∃ (s : State) (off : BitVec 16), s.ready ∧ s.mcState = mcHostload ∧ off.toNat / 16 % 2 = 0) ∧
      (∃ (s : State), s.ready ∧ s.mcState ≠ mcHostload) ∧
      (∃ (s : State), s.ready ∧ s.mcState = mcHostload) ∧
      (∃ (s : State), s.ready) ∧
      (∃ (s : State), s.ready ∧ s.mcState = mcHostload) ∧
      (∃ (s : State) (l : List Native), s.mcState = mcHostload ∧ s.sys.mcImage = some l) ∧
      (∃ (s : State), s.ready ∧ s.on MC_VSTAT_BUSY = false) ∧
      (∃ (s : State) (n : Fin 2), s.sys.mcVerify = some n) ∧
      (∃ (s : State) (n : Fin 2), s.mcState = mcReload ∧ s.get MC_IMGSEL_SLOT = n) :=
    ⟨⟨R |> lv [(MC_STAT_STATE,mcLoaded)], by decide +kernel⟩,
      ⟨R |> lv [(MC_STAT_STATE,mcHostload)], 0xFFE0, by decide +kernel⟩,
      ⟨R , by decide +kernel⟩,
      ⟨R |> lv [(MC_STAT_STATE,mcHostload),(MC_DISP_ADDR_IDX,255)], by decide +kernel⟩,
      ⟨R |> lv [(MC_DISP_ADDR_IDX,255)], by decide +kernel⟩,
      ⟨R |> lv [(MC_STAT_STATE,mcHostload)], by decide +kernel⟩,
      ⟨R |> lv [(MC_STAT_STATE,mcHostload)] |> sy ({· with mcImage := some (R.hostImage)}), R.hostImage, by decide +kernel⟩,
      ⟨R, by decide +kernel⟩,
      ⟨R |> sy ({· with mcVerify := some 1}), 1, by decide +kernel⟩,
      ⟨R |> lv [(MC_STAT_STATE,mcReload),(MC_IMGSEL_SLOT,0)], 0, by decide +kernel⟩⟩

theorem witness_ParityAndScrub :
      (∃ (s : State) (v : Word), s.ready ∧ v.getLsbD 31) ∧
      (∃ (s : State) (e : EngineIx), s.takeDecision e = s ∧ s.atMicro e ∧ s.get (SQ_GANG_M e) ≤ 5 ∧ s.role = roleNone ∧ (s.engine e).upc < 2048 ∧ s.scrubSclk ((s.engine e).upc * 2 ^ 17) = false ∧ (s.csEntry e (s.engine e).upc).badSlices ≠ 0) ∧
      (∃ (s : State) (e : EngineIx) (i : Fin 2048) (x : CsEntry), s.mcState = mcLoaded ∧ s.time.toNat % 2 ^ 28 = i * 2 ^ 17 ∧ (s.csEntry e i).badSlices ≠ 0 ∧ s.goodEntry e i = some x) ∧
      (∃ (s : State) (e : EngineIx) (i : Fin 2048), s.mcState = mcLoaded ∧ s.time.toNat % 2 ^ 28 = i * 2 ^ 17 ∧ (s.csEntry e i).badSlices ≠ 0 ∧ s.goodEntry e i = none) ∧
      (∃ (s : State) (e : EngineIx) (i : Fin 2048), s.time.toNat % 2 ^ 28 = i * 2 ^ 17 ∧ (s.csEntry e i).badSlices = 0) :=
    ⟨⟨R , 0x87FF071F, by decide +kernel⟩,
      ⟨(stand 5 31 3 0 [(SN_CTL_EN,15)] |> fun s => bad0 5 (s.engine 5).upc s), 5, ⟨no_decision (c := 31) (by decide +kernel), by decide +kernel⟩⟩,
      ⟨R |> lv [(MC_STAT_STATE,mcLoaded)] |> bad0 31 2047 |> now (2047*2^17), 31, 2047, R.csEntry 0 2047, by decide +kernel⟩,
      ⟨(R |> lv [(MC_STAT_STATE,mcLoaded)] |> (fun s => (List.range 32).foldl (fun s l => bad0 l 2047 s) s) |> now (2047*2^17)), 31, 2047, by decide +kernel⟩,
      ⟨R, 0, 0, by decide +kernel⟩⟩

theorem witness_Commits :
      (∃ (s : State) (v : Word), s.ready ∧ s.cmBusy = false ∧ s.role ≠ roleShadow ∧ v.getLsbD 27 = false ∧ v.toNat / 2 ^ 24 % 8 ≠ 4) ∧
      (∃ (s : State), s.ready ∧ s.cmBusy) ∧
      (∃ (s : State) (r : CmReq), s.cm = some r ∧ r.own = false ∧ r.phase = cmChecking ∧ r.abort = false ∧ r.origin = .host ∧ s.role = roleNone ∧ s.ckAll = []) ∧
      (∃ (s : State) (r : CmReq) (k u w : Nat) (rest : List (Nat × CkFail)), s.cm = some r ∧ r.own = false ∧ r.phase = cmChecking ∧ r.abort = false ∧ r.origin = .host ∧ s.role = roleNone ∧ s.ckAll = (k, (u, w)) :: rest) ∧
      (∃ (s : State) (r : CmReq), s.ready ∧ s.cm = some r ∧ r.phase = cmPending ∧ r.origin = .host ∧ s.commitDue = none ∧ s.role = roleNone) ∧
      (∃ (s : State), s.ready ∧ s.cm = none) ∧
      (∃ (s : State), s.cm ≠ none) ∧
      (∃ (s : State) (a : Time), s.commitDue = some a ∧ s.staged.rising) ∧
      (∃ (s : State), s.commitDue = none) :=
    ⟨⟨R |> lv [(CM_ID_ID,65535)] |> now 5, 0x011F0000, by decide +kernel⟩,
      ⟨R |> cmv cm0, by decide +kernel⟩,
      ⟨R |> lv [(HI_LINK_WIDTH,8),(HI_LINK_GEN,4)] |> cmv {cm0 with kind := 1, tgt := 3} |> now 5, {cm0 with kind := 1, tgt := 3}, by decide +kernel⟩,
      ⟨(R |> lv [(SQ_GANG_M 31,3)] |> cmv cm0), cm0, 1, 31, 0, otherFails (R |> lv [(SQ_GANG_M 31,3)] |> cmv cm0), ⟨by decide +kernel, by decide +kernel, by decide +kernel, by decide +kernel, by decide +kernel, by decide +kernel, ck_first _ _ (by decide +kernel)⟩⟩,
      ⟨R |> cmv {cm0 with own := true, phase := cmPending, kind := 1, tgt := 500}, {cm0 with own := true, phase := cmPending, kind := 1, tgt := 500}, by decide +kernel⟩,
      ⟨(R |> (fun s => s.setStagedWord (TG_TS_PER 0 0) 5)), by decide +kernel⟩,
      ⟨R |> cmv cm0, by decide +kernel⟩,
      ⟨(R |> cmv {cm0 with own := true, phase := cmPending, kind := 1, tgt := 500} |> (fun s => s.setStagedWord (TG_TS_PER 31 31) 5000) |> now 507), 500, by decide +kernel⟩,
      ⟨R, by decide +kernel⟩⟩

theorem witness_CommitAgreement :
      (∃ (s : State), s.role = roleShadow ∧ s.cmBusy = false) ∧
      (∃ (s : State) (r : CmReq), s.role = roleActive ∧ s.tw.attachAt = none ∧ s.cm = some r ∧ r.phase = cmChecking ∧ r.own ∧ r.origin = .host ∧ r.check = false) ∧
      (∃ (s : State) (r : CmReq), s.role = roleActive ∧ s.tw.attachAt = none ∧ s.cm = some r ∧ r.phase = cmChecking ∧ r.own ∧ r.origin = .host ∧ r.check = false) ∧
      (∃ (s : State) (r : CmReq), s.role = roleActive ∧ s.tw.attachAt = none ∧ s.cm = some r ∧ r.phase = cmChecking ∧ r.own ∧ r.origin = .host ∧ r.check = false ∧ r.partner = none ∧ reached s.time (later r.at_ 64000)) ∧
      (∃ (s : State) (r : CmReq), s.cm = some r ∧ r.origin = .twin ∧ r.phase = cmVoting) ∧
      (∃ (s : State) (r : CmReq), s.cm = some r ∧ r.origin = .twin ∧ r.phase = cmVoting) ∧
      (∃ (s : State), s.isMember ∧ s.isRoot = false ∧ s.cmBusy = false) ∧
      (∃ (s : State), s.isMember ∧ s.isRoot = false ∧ s.cmBusy ∧ s.downPorts = 0 ∧ (s.port 0).queue = []) ∧
      (∃ (s : State) (id : BitVec 16), s.cm = none ∧ s.cl.votedNo = some id) ∧
      (∃ (s : State) (b : Ballot) (r : CmReq) (n : Nat), s.isRoot ∧ s.ballot = some b ∧ s.cm = some r ∧ r.origin = .domain ∧ r.id = b.id ∧ b.own = some (true, 0) ∧ b.votes = [] ∧ (s.port 1).queue = [] ∧ b.members = n + 1) ∧
      (∃ (s : State) (b : Ballot) (r : CmReq), s.isRoot ∧ s.ballot = some b ∧ s.cm = some r ∧ r.origin = .domain ∧ r.id = b.id ∧ b.own = some (true, 0) ∧ b.votes = [] ∧ (s.port 1).queue = []) ∧
      (∃ (s : State) (b : Ballot) (r : CmReq), s.isRoot ∧ s.ballot = some b ∧ s.cm = some r ∧ r.origin = .domain ∧ r.id = b.id ∧ b.own = some (true, 0) ∧ b.votes = [] ∧ (s.port 1).queue = [] ∧ b.members ≠ 1 ∧ reached s.time b.tv) ∧
      (∃ (s : State) (r : CmReq), s.cm = some r ∧ r.origin = .domain ∧ r.phase = cmVoting ∧ (reached s.time r.ta = false ∨ s.time = r.ta)) ∧
      (∃ (s : State) (r : CmReq), s.cm = some r ∧ r.origin = .domain ∧ r.phase = cmVoting ∧ reached s.time r.ta ∧ s.time ≠ r.ta) ∧
      (∃ (s : State) (r : CmReq), s.cm = some r ∧ r.origin = .domain ∧ r.phase = cmVoting) ∧
      (∃ (s : State) (r : CmReq), s.cm = some r ∧ r.origin = .domain ∧ r.phase = cmVoting ∧ r.go = false ∧ reached s.time (later r.ta (1600 * s.get CM_DOM_GRACE))) ∧
      (∃ (s : State), s.cm = none) :=
    ⟨⟨R |> lv [(TW_STAT_ROLE,roleShadow)], by decide +kernel⟩,
      ⟨R |> lv [(TW_STAT_ROLE,roleActive)] |> cmv {cm0 with own := true} |> now 5, {cm0 with own := true}, by decide +kernel⟩,
      ⟨R |> lv [(TW_STAT_ROLE,roleActive)] |> cmv {cm0 with own := true}, {cm0 with own := true}, by decide +kernel⟩,
      ⟨R |> lv [(TW_STAT_ROLE,roleActive)] |> cmv {cm0 with own := true} |> now 64000, {cm0 with own := true}, by decide +kernel⟩,
      ⟨R |> lv [(TW_STAT_ROLE,roleShadow)] |> cmv {cm0 with own := true, origin := .twin, phase := cmVoting}, {cm0 with own := true, origin := .twin, phase := cmVoting}, by decide +kernel⟩,
      ⟨R |> lv [(TW_STAT_ROLE,roleShadow)] |> cmv {cm0 with own := true, origin := .twin, phase := cmVoting}, {cm0 with own := true, origin := .twin, phase := cmVoting}, by decide +kernel⟩,
      ⟨R |> lv [(CL_DEVNUM_MEMBER,1)], by decide +kernel⟩,
      ⟨R |> lv [(CL_DEVNUM_MEMBER,1)] |> cmv cm0, by decide +kernel⟩,
      ⟨R |> clv ({· with votedNo := some 9}), 9, by decide +kernel⟩,
      ⟨R |> lv [(CL_DOM_CTL_ROOT,1)] |> cmv {cm0 with own := true, origin := .domain, phase := cmVoting} |> balv bal0 |> now 5, bal0, {cm0 with own := true, origin := .domain, phase := cmVoting}, 1, by decide +kernel⟩,
      ⟨R |> lv [(CL_DOM_CTL_ROOT,1)] |> cmv {cm0 with own := true, origin := .domain, phase := cmVoting} |> balv bal0 |> now 5, bal0, {cm0 with own := true, origin := .domain, phase := cmVoting}, by decide +kernel⟩,
      ⟨R |> lv [(CL_DOM_CTL_ROOT,1)] |> cmv {cm0 with own := true, origin := .domain, phase := cmVoting} |> balv bal0 |> now 401, bal0, {cm0 with own := true, origin := .domain, phase := cmVoting}, by decide +kernel⟩,
      ⟨R |> lv [(CL_DEVNUM_MEMBER,1)] |> cmv {cm0 with own := true, origin := .domain, phase := cmVoting} |> now 5, {cm0 with own := true, origin := .domain, phase := cmVoting}, by decide +kernel⟩,
      ⟨(R |> lv [(CL_DEVNUM_MEMBER,1)] |> cmv {cm0 with own := true, origin := .domain, phase := cmVoting} |> now 501 |> (fun s => s.setStagedWord (TG_TS_PER 31 31) 5000)), {cm0 with own := true, origin := .domain, phase := cmVoting}, by decide +kernel⟩,
      ⟨R |> lv [(CL_DEVNUM_MEMBER,1)] |> cmv {cm0 with own := true, origin := .domain, phase := cmVoting}, {cm0 with own := true, origin := .domain, phase := cmVoting}, by decide +kernel⟩,
      ⟨R |> lv [(CL_DEVNUM_MEMBER,1),(CM_DOM_GRACE,2)] |> cmv {cm0 with own := true, origin := .domain, phase := cmVoting} |> now 3700, {cm0 with own := true, origin := .domain, phase := cmVoting}, by decide +kernel⟩,
      ⟨R , by decide +kernel⟩⟩

theorem witness_Snapshots :
      (∃ (s : State), s.ready ∧ s.sn.reqs = []) ∧
      (∃ (s : State), s.ready ∧ s.sn.reqs = [] ∧ reached s.time (s.getTime SN_TT_LO_T_LO SN_TT_HI_T_HI) = false) ∧
      (∃ (s : State), s.ready ∧ s.isRoot ∧ s.bit SN_CTL_EN 3 ∧ s.sn.reqs = [] ∧ (s.port 1).queue = [] ∧ reached s.time (s.getTime SN_TT_LO_T_LO SN_TT_HI_T_HI) = false) ∧
      (∃ (s : State) (a : Time), s.isMember ∧ s.isRoot = false ∧ s.bit SN_CTL_EN 3 ∧ s.sn.reqs = [] ∧ (reached s.time a = false ∨ s.time = a)) ∧
      (∃ (s : State) (a : Time), s.isMember ∧ s.isRoot = false ∧ s.bit SN_CTL_EN 3 ∧ s.sn.reqs = [] ∧ reached s.time a ∧ s.time ≠ a) ∧
      (∃ (s : State) (a : Time), s.isMember ∧ s.isRoot = false ∧ s.bit SN_CTL_EN 3 = false ∧ reached s.time a ∧ s.time ≠ a) ∧
      (∃ (s : State) (a : Time) (src : Nat), s.sn.reqs = [(a, src, false)] ∧ reached s.time a ∧ s.on SN_CTL_MODE = false ∧ src.testBit 8 = false) ∧
      (∃ (s : State) (r : Time × Nat × Bool), s.sn.reqs = [r] ∧ reached s.time r.1 ∧ s.on SN_CTL_MODE ∧ s.get SN_STAT_FULL = 15) ∧
      (∃ (s : State), s.ready) ∧
      (∃ (s : State) (b : Snap), s.ready ∧ vget s.sn.banks (s.get SN_RADDR_BANK) none = some b) :=
    ⟨⟨R |> now 5, by decide +kernel⟩,
      ⟨R |> lv [(SN_TT_LO_T_LO,500)] |> now 5, by decide +kernel⟩,
      ⟨R |> lv [(SN_TT_LO_T_LO,500),(SN_CTL_EN,15),(CL_DOM_CTL_ROOT,1)] |> now 5, by decide +kernel⟩,
      ⟨R |> lv [(SN_CTL_EN,15),(CL_DEVNUM_MEMBER,1)] |> now 5, 6, by decide +kernel⟩,
      ⟨R |> lv [(SN_CTL_EN,15),(CL_DEVNUM_MEMBER,1)] |> now 5, 4, by decide +kernel⟩,
      ⟨R |> lv [(SN_CTL_EN,7),(CL_DEVNUM_MEMBER,1)] |> now 5, 3, by decide +kernel⟩,
      ⟨R |> lv [(SN_CTL_MODE,0),(SN_STAT_NEXT,3),(SN_STAT_SEQ,65535)] |> snv ({· with reqs := [(5,1,false)]}) |> now 7, 5, 1, by decide +kernel⟩,
      ⟨R |> lv [(SN_CTL_MODE,1),(SN_STAT_FULL,15)] |> snv ({· with reqs := [(5,1,false)]}) |> now 7, (5,1,false), by decide +kernel⟩,
      ⟨R |> lv [(SN_STAT_FULL,15)], by decide +kernel⟩,
      ⟨R |> lv [(SN_RADDR_BANK,3),(SN_RADDR_ITEM,65535)] |> snv (fun x => {x with banks := vset x.banks 3 (some snap0)}), snap0, by decide +kernel⟩⟩

theorem witness_Digests :
      (∃ (s : State), s.ready ∧ s.cm = none) ∧
      (∃ (s : State), s.on DG_STAT_STALE) ∧
      (∃ (s : State), s.isMember ∧ s.isRoot = false ∧ s.dg.owed ∧ (s.port 0).queue = []) ∧
      (∃ (s : State), s.isRoot ∧ s.dg.reports = [] ∧ s.get DG_DOMSTAT_NMIS = 0) ∧
      (∃ (s : State) (dev cls : Nat) (d : BitVec 64) (mis : Bool), s.ready ∧ s.isRoot ∧ cls < 256 ∧ s.dg.reports = [(dev, cls, d, mis)]) ∧
      (∃ (s : State), s.isMember ∧ s.isRoot = false) ∧
      (∃ (s : State), s.isMember = false) :=
    ⟨⟨R, by decide +kernel⟩,
      ⟨R |> lv [(DG_STAT_STALE,1),(DG_CTL_CMPEN,1),(DG_CVALID_VALID 0,1)], by decide +kernel⟩,
      ⟨R |> lv [(CL_DEVNUM_MEMBER,1)] |> dgv ({· with owed := true}) |> now 5, by decide +kernel⟩,
      ⟨R |> lv [(CL_DOM_CTL_ROOT,1)], by decide +kernel⟩,
      ⟨R |> lv [(CL_DOM_CTL_ROOT,1)] |> dgv ({· with reports := [(1023,255,5,true)]}), 1023, 255, 5, true, by decide +kernel⟩,
      ⟨R |> lv [(CL_DEVNUM_MEMBER,1)], by decide +kernel⟩,
      ⟨R , by decide +kernel⟩⟩

theorem witness_LinkPorts :
      (∃ (s : State) (x : Fin 4), s.mayTrain x ∧ s.portState x = portDown) ∧
      (∃ (s : State) (x : Fin 4) (lock : BitVec 4), s.mayTrain x ∧ s.portState x = portTraining ∧ (x = 0 → s.on CL_DOM_CTL_JOIN = false ∧ s.taState ≠ taHoldover) ∧ widthOf x lock ≠ 0 ∧ (s.port x).keep = false) ∧
      (∃ (s : State) (x : Fin 4), s.portState x = portTraining ∧ reached s.time (later (s.port x).tryAt 1600000)) ∧
      (∃ (s : State) (x : Fin 4), s.portState x = portRetrain ∧ reached s.time (later (s.port x).tryAt 1600000)) ∧
      (∃ (s : State) (x : Fin 4) (p : Packet), s.portUp x ∧ (s.port x).resend = none ∧ (s.port x).queue = [p] ∧ p.flits ≤ 8 ∧ (s.port x).retry.length < 64) ∧
      (∃ (s : State) (x : Fin 4), s.portUp x ∧ (s.port x).resend = none ∧ (s.port x).queue = []) ∧
      (∃ (s : State) (x : Fin 4) (b : BitVec 640), s.portUp x ∧ blockGood b = false ∧ (s.port x).fails < 15) ∧
      (∃ (s : State) (x : Fin 4) (b : BitVec 640), s.portUp x ∧ blockGood b ∧ (s.port x).retry = [] ∧ (s.port x).resend = none ∧ blockBits b 591 590 = 0 ∧ blockBits b 589 576 = (s.port x).expect ∧ blockPackets (BitVec.ofNat 576 b.toNat) = []) ∧
      (∃ (s : State) (x : Fin 4) (b : BitVec 640), s.portUp x ∧ blockGood b ∧ (s.port x).retry = [] ∧ (s.port x).resend = none ∧ blockBits b 591 590 = 0 ∧ 0 < (blockBits b 589 576 + 16384 - (s.port x).expect) % 16384 ∧ (blockBits b 589 576 + 16384 - (s.port x).expect) % 16384 < 8192) ∧
      (∃ (s : State) (x : Fin 4) (b : BitVec 640), s.portUp x ∧ blockGood b ∧ (s.port x).resend = none ∧ blockBits b 591 590 = 1 ∧ blockBits b 606 606 = 0) ∧
      (∃ (s : State) (x : Fin 4) (r : Nat × BitVec 576 × Time) (rest : List (Nat × BitVec 576 × Time)), s.portUp x ∧ (s.port x).retry = r :: rest ∧ reached s.time (later r.2.2 3200) ∧ (s.port x).fails < 15) ∧
      (∃ (s : State) (x : Fin 4) (r : Nat × BitVec 576 × Time) (rest : List (Nat × BitVec 576 × Time)), s.portUp x ∧ (s.port x).retry = r :: rest ∧ reached s.time (later r.2.2 3200) ∧ (s.port x).fails = 15) :=
    ⟨⟨R |> lv [(CL_P_CTL_EN 3,1)] |> now 5, 3, by decide +kernel⟩,
      ⟨R |> lv [(CL_P_CTL_EN 3,1),(CL_P_STAT_STATE 3,portTraining)], 3, 15, by decide +kernel⟩,
      ⟨R |> lv [(CL_P_STAT_STATE 3,portTraining)] |> now 1600000, 3, by decide +kernel⟩,
      ⟨R |> lv [(CL_P_STAT_STATE 3,portRetrain)] |> clv (fun x => {x with ports := vset x.ports 3 {vget x.ports 3 .reset with seq := 5, expect := 7, retry := [(4,0,0)], keep := true}}) |> now 1600000, 3, by decide +kernel⟩,
      ⟨R |> lv [(CL_P_STAT_STATE 1,portUpState)] |> clv (fun x => {x with ports := vset x.ports 1 {vget x.ports 1 .reset with seq := 16383, queue := [(Packet.make 4 0 5 3 9 [])]}}), 1, (Packet.make 4 0 5 3 9 []), by decide +kernel⟩,
      ⟨R |> lv [(CL_P_STAT_STATE 1,portUpState)], 1, by decide +kernel⟩,
      ⟨R |> lv [(CL_P_STAT_STATE 1,portUpState)] |> now 1, 1, 1, ⟨by decide +kernel, badBlock_bad, by decide +kernel⟩⟩,
      ⟨R |> lv [(CL_P_STAT_STATE 1,portUpState)] |> clv (fun x => {x with ports := vset x.ports 1 {vget x.ports 1 .reset with expect := 16383, nak := true, fails := 3}}), 1, blockOf 0 16383 0 5 false, ⟨by decide +kernel, (blockOf_good _ (by decide : (16383, 0, 5) ∈ _)).1, by decide +kernel, by decide +kernel, (blockOf_good _ (by decide : (16383, 0, 5) ∈ _)).2.1, (blockOf_good _ (by decide : (16383, 0, 5) ∈ _)).2.2.1.trans (by decide +kernel), (blockOf_good _ (by decide : (16383, 0, 5) ∈ _)).2.2.2.2⟩⟩,
      ⟨R |> lv [(CL_P_STAT_STATE 1,portUpState)] |> clv (fun x => {x with ports := vset x.ports 1 {vget x.ports 1 .reset with expect := 16383, fails := 3}}), 1, blockOf 0 0 0 5 false, ⟨by decide +kernel, (blockOf_good _ (by decide : (0, 0, 5) ∈ _)).1, by decide +kernel, by decide +kernel, (blockOf_good _ (by decide : (0, 0, 5) ∈ _)).2.1, by rw [(blockOf_good _ (by decide : (0, 0, 5) ∈ _)).2.2.1]; decide +kernel, by rw [(blockOf_good _ (by decide : (0, 0, 5) ∈ _)).2.2.1]; decide +kernel⟩⟩,
      ⟨R |> lv [(CL_P_STAT_STATE 1,portUpState)] |> clv (fun x => {x with ports := vset x.ports 1 {vget x.ports 1 .reset with retry := [(4,7,0),(5,8,0)]}}), 1, blockOf 0 0 1 5 false, ⟨by decide +kernel, (blockOf_good _ (by decide : (0, 1, 5) ∈ _)).1, by decide +kernel, (blockOf_good _ (by decide : (0, 1, 5) ∈ _)).2.1, (blockOf_good _ (by decide : (0, 1, 5) ∈ _)).2.2.2.1⟩⟩,
      ⟨R |> lv [(CL_P_STAT_STATE 1,portUpState)] |> clv (fun x => {x with ports := vset x.ports 1 {vget x.ports 1 .reset with fails := 14, retry := [(4,7,0),(5,8,0)]}}) |> now 3200, 1, (4,7,0), [(5,8,0)], by decide +kernel⟩,
      ⟨R |> lv [(CL_P_STAT_STATE 1,portUpState)] |> clv (fun x => {x with ports := vset x.ports 1 {vget x.ports 1 .reset with fails := 15, retry := [(4,7,0),(5,8,0)]}}) |> now 3200, 1, (4,7,0), [(5,8,0)], by decide +kernel⟩⟩

theorem witness_DomainMembership :
      (∃ (s : State), s.on CL_DOM_CTL_JOIN ∧ s.domState = domAligning ∧ s.taState = taAligned ∧ s.portUp 0 ∧ (s.port 0).queue = []) ∧
      (∃ (s : State) (dev : BitVec 10) (depth : BitVec 4) (x : Fin 4), s.isRoot ∧ (x = 1 ∨ x = 2) ∧ (s.port x).queue = [] ∧ s.memberBit dev.toNat = false ∧ s.get CL_DOM_STAT_NMEM < 1024 ∧ depth.toNat ≤ 10) ∧
      (∃ (s : State) (dev : BitVec 10) (x : Fin 4), s.isRoot ∧ (x = 1 ∨ x = 2) ∧ (s.port x).queue = [] ∧ s.memberBit dev.toNat) ∧
      (∃ (s : State), s.domState = domJoining ∧ (∀ b < 8, s.on (SQ_BAR_CTL_DOM 0 b) = false)) ∧
      (∃ (s : State), s.domState = domJoining ∧ (∀ b < 8, s.on (SQ_BAR_CTL_DOM 0 b) = false)) ∧
      (∃ (s : State), s.ready ∧ s.domState = domRefused ∧ s.on CL_DOM_CTL_JOIN ∧ s.isRoot = false ∧ s.portUp 0) ∧
      (∃ (s : State), s.isMember ∧ s.isRoot = false ∧ (s.port 1).queue = [] ∧ s.portUp 0 = false ∧ 1600 * s.get CL_DOM_CTL_LEAVE ≤ s.since (s.port 0).downAt) ∧
      (∃ (s : State), s.isMember ∧ s.isRoot = false ∧ (s.port 1).queue = []) ∧
      (∃ (s : State) (dev : BitVec 10), s.isRoot ∧ s.memberBit dev.toNat ∧ 0 < s.get CL_DOM_STAT_NMEM) ∧
      (∃ (s : State), (∀ e < 32, s.get (SQ_GANG_M e) = 0) ∧ s.ready ∧ s.isRoot ∧ (s.port 1).queue = []) ∧
      (∃ (s : State), (∀ e < 32, s.get (SQ_GANG_M e) = 0) ∧ s.isMember ∧ s.isRoot = false) :=
    ⟨⟨R |> lv [(CL_DOM_CTL_JOIN,1),(CL_DOM_STAT_STATE,domAligning),(CL_TA_STAT_STATE,taAligned),(CL_P_STAT_STATE 0,portUpState)], by decide +kernel⟩,
      ⟨R |> lv [(CL_DOM_CTL_ROOT,1)], 1023, 10, 2, by decide +kernel⟩,
      ⟨R |> lv [(CL_DOM_CTL_ROOT,1),(CL_MEM_MEM 31,0x80000000)], 1023, 1, by decide +kernel⟩,
      ⟨R |> lv [(CL_DOM_STAT_STATE,domJoining)], by decide +kernel⟩,
      ⟨R |> lv [(CL_DOM_STAT_STATE,domJoining)], by decide +kernel⟩,
      ⟨R |> lv [(CL_DOM_STAT_STATE,domRefused),(CL_DOM_CTL_JOIN,1),(CL_P_STAT_STATE 0,portUpState)], by decide +kernel⟩,
      ⟨R |> lv [(CL_DEVNUM_MEMBER,1),(CL_DOM_CTL_LEAVE,2)] |> now 3200, by decide +kernel⟩,
      ⟨R |> lv [(CL_DEVNUM_MEMBER,1)], by decide +kernel⟩,
      ⟨R |> lv [(CL_DOM_CTL_ROOT,1),(CL_MEM_MEM 31,0x80000000),(CL_DOM_STAT_NMEM,1024)], 1023, by decide +kernel⟩,
      ⟨R |> lv [(CL_DOM_CTL_ROOT,1)], by decide +kernel⟩,
      ⟨R |> lv [(CL_DEVNUM_MEMBER,1)], by decide +kernel⟩⟩

theorem witness_DomainTraffic :
      (∃ (s : State) (v : Word) (x : Fin 4), s.ready ∧ v.getLsbD 31 ∧ v.getLsbD 30 = false ∧ v.toNat % 65536 ≠ 0 ∧ s.get CL_RRA_STAT_STATE ≠ rraBusy ∧ s.isMember ∧ v.toNat / 2 ^ 16 % 1024 ≠ s.devNum ∧ s.routeTo (v.toNat / 2 ^ 16 % 1024) = some x.val ∧ (s.port x).queue = []) ∧
      (∃ (s : State) (dev : BitVec 10) (x : Fin 4), s.ready ∧ s.routeTo dev.toNat = some x.val ∧ (s.port x).queue = []) ∧
      (∃ (s : State), s.get CL_RRA_STAT_STATE = rraBusy ∧ s.cl.rraTag < 128 ∧ s.on CL_RRA_CMD_WRITE = false) ∧
      (∃ (s : State), s.get CL_RRA_STAT_STATE = rraBusy ∧ 1600 * s.get CL_RRA_CMD_TMO ≤ s.since s.cl.rraAt) ∧
      (∃ (s : State) (e : EngineIx), (s.engine e).msgs.length < 16 ∧ s.on (SQ_RT_MSG_EN e) = false) ∧
      (∃ (s : State), s.isMember ∧ s.isRoot = false) ∧
      (∃ (s : State) (b : Fin 8) (n : Nat), s.isRoot ∧ vget s.cl.barCount b 0 + n < s.get CL_DOM_STAT_NMEM) ∧
      (∃ (s : State) (b : Fin 8) (n : Nat), s.isRoot ∧ s.get CL_DOM_STAT_NMEM ≤ vget s.cl.barCount b 0 + n ∧ (s.port 1).queue = []) ∧
      (∃ (s : State), s.isRoot ∧ s.portUp 1 ∧ reached s.time (vget s.cl.taNext 1 0)) ∧
      (∃ (s : State), s.taFollows) ∧
      (∃ (s : State) (x : Fin 4) (t1 : Tick), vget s.cl.t1 x none = some t1 ∧ vget s.cl.chDly x (0, 0) = (0, 0)) ∧
      (∃ (s : State) (x : Fin 4) (t1 : Tick), vget s.cl.t1 x none = some t1 ∧ vget s.cl.chDly x (0, 0) = (0, 0) ∧ 0 < s.get CL_TA_CTL_AVG) ∧
      (∃ (s : State) (t2 t3 : Tick), s.cl.t2 = some t2 ∧ s.cl.t3 = some t3 ∧ s.cl.taN = 0 ∧ s.cl.taOfs = 0 ∧ s.cl.taDly = 0 ∧ s.getInt (CL_P_CTL_ASYM 0) = 0) ∧
      (∃ (s : State) (t2 t3 : Tick), s.cl.t2 = some t2 ∧ s.cl.t3 = some t3 ∧ s.cl.taN = 0 ∧ s.cl.taOfs = 0 ∧ s.cl.taDly = 0 ∧ s.getInt (CL_P_CTL_ASYM 0) = 0 ∧ 0 < s.get CL_TA_CTL_AVG) ∧
      (∃ (s : State) (t1 t2 t3 t4 : Tick) (k : BitVec 40), s.cl.t2 = some t2 ∧ s.cl.t3 = some t3 ∧ s.cl.taN = 0 ∧ s.cl.taOfs = 0 ∧ s.cl.taDly = 0 ∧ s.getInt (CL_P_CTL_ASYM 0) = 0 ∧ s.get CL_TA_CTL_AVG = 0 ∧ s.taState = taFree ∧ (t2 - t1).toInt - (t4 - t3).toInt = 2048 * (k.toNat : Int)) :=
    ⟨⟨R |> lv [(CL_DOM_CTL_ROOT,1),(CL_DEVNUM_MEMBER,1)] |> clv ({· with routes := [(1023,1)]}) |> clv ({· with rraTag := 127}) |> now 5, 0x83FF0005, 1, by decide +kernel⟩,
      ⟨R |> lv [(MC_IMAGE_CRC_CRC,0x12345678)] |> clv ({· with routes := [(1023,1)]}), 1023, 1, by decide +kernel⟩,
      ⟨R |> lv [(CL_RRA_STAT_STATE,rraBusy)] |> clv ({· with rraTag := 127}), by decide +kernel⟩,
      ⟨R |> lv [(CL_RRA_STAT_STATE,rraBusy),(CL_RRA_CMD_TMO,2)] |> now 3200, by decide +kernel⟩,
      ⟨R , 31, by decide +kernel⟩,
      ⟨R |> lv [(CL_DEVNUM_MEMBER,1)] |> now 5, by decide +kernel⟩,
      ⟨R |> lv [(CL_DOM_CTL_ROOT,1),(CL_DOM_STAT_NMEM,3)], 7, 2, by decide +kernel⟩,
      ⟨R |> lv [(CL_DOM_CTL_ROOT,1),(CL_DOM_STAT_NMEM,3)], 7, 3, by decide +kernel⟩,
      ⟨R |> lv [(CL_DOM_CTL_ROOT,1),(CL_P_STAT_STATE 1,portUpState)] |> now 7, by decide +kernel⟩,
      ⟨R |> lv [(CL_DOM_CTL_JOIN,1),(CL_P_STAT_STATE 0,portUpState)], by decide +kernel⟩,
      ⟨R |> lv [(CL_TA_CTL_AVG,1)] |> clv (fun x => {x with t1 := vset x.t1 2 (some 500)}), 2, 500, by decide +kernel⟩,
      ⟨R |> lv [(CL_TA_CTL_AVG,1)] |> clv (fun x => {x with t1 := vset x.t1 2 (some 500)}), 2, 500, by decide +kernel⟩,
      ⟨R |> clv ({· with t2 := some 600, t3 := some 700}), 600, 700, by decide +kernel⟩,
      ⟨R |> lv [(CL_TA_CTL_AVG,1)] |> clv ({· with t2 := some 600, t3 := some 700}), 600, 700, by decide +kernel⟩,
      ⟨R |> lv [(CL_TA_CTL_AVG,0)] |> clv ({· with t2 := some 4000, t3 := some 5000}) |> now 99, 500, 4000, 5000, 6452, 1, by decide +kernel⟩⟩

theorem witness_TwinRoles :
      (∃ (s : State) (w0 : Time), s.role = roleShadow ∧ reached s.time (later w0 3200)) ∧
      (∃ (s : State) (w0 : Time), s.role = roleShadow ∧ reached s.time (later w0 3200) = false) ∧
      (∃ (s : State) (a : Nat) (w : Native) (w0 : Time), s.role = roleActive ∧ s.tw.mirror = [(later w0 3200, .mem a w)] ∧ reached s.time (later w0 3200)) ∧
      (∃ (s : State) (u : GroupIx) (ws : List Native), s.role = roleShadow ∧ (s.engine u).refill.length + ws.length ≤ 8192) ∧
      (∃ (s : State), s.ready ∧ s.role = roleNone) ∧
      (∃ (s : State), s.role = roleShadow) ∧
      (∃ (s : State), s.role = roleActive ∧ s.tw.refill = []) ∧
      (∃ (s : State), s.ready ∧ s.role = roleShadow) ∧
      (∃ (s : State), s.ready ∧ s.role = roleActive ∧ s.tw.attachAt = none ∧ s.portUp 3) ∧
      (∃ (s : State), s.role = roleShadow) ∧
      (∃ (s : State) (g : GroupIx) (ts : Time), s.tw.swapAt = some (ts, false) ∧ s.role = roleShadow ∧ (s.group g).shadowHold ∧ s.vectorFrom g ts) ∧
      (∃ (s : State), s.ready ∧ s.portUp 3 = false) ∧
      (∃ (s : State) (peer : PeerInfo), s.ready ∧ s.attachReason peer = 0) ∧
      (∃ (s : State), s.on TW_CTL_PAIR ∧ s.role = roleNone) ∧
      (∃ (s : State) (a : Nat), s.role = roleJoining ∧ a < memFailLog) ∧
      (∃ (s : State) (t0 : Time), s.tw.attachAt = some t0 ∧ 1600000 * s.get TW_RJ_TMO_TMO ≤ s.since t0 ∧ s.role = roleJoining) ∧
      (∃ (s : State) (t0 : Time), s.tw.attachAt = some t0 ∧ 1600000 * s.get TW_RJ_TMO_TMO ≤ s.since t0 ∧ s.role = roleActive ∧ s.tw.refill = []) ∧
      (∃ (s : State) (e : EngineIx), s.role = roleActive ∧ s.tw.attachAt.isSome ∧ s.bit TW_RJ_STAT_PEND e ∧ s.get (SQ_GANG_M e) = 0 ∧ s.running e = none ∧ s.tw.sentOut = []) ∧
      (∃ (s : State) (e : EngineIx), s.role = roleActive ∧ s.tw.attachAt.isSome ∧ s.bit TW_RJ_STAT_PEND e ∧ s.get (SQ_GANG_M e) = 0 ∧ s.running e = none ∧ s.tw.sentOut = [(e.val, s.vcnt e, none)]) ∧
      (∃ (s : State) (e : EngineIx) (n : Nat), s.role = roleActive ∧ s.tw.attachAt.isSome ∧ s.bit TW_RJ_STAT_PEND e ∧ s.get (SQ_GANG_M e) = 0 ∧ s.running e = none ∧ s.tw.sentOut = [(e.val, n, none)] ∧ n ≠ s.vcnt e) ∧
      (∃ (s : State) (e : EngineIx) (x : Transfer), s.role = roleJoining ∧ x.regs.get (WP_STAT_STATE e) = 0) ∧
      (∃ (s : State) (e : EngineIx), s.role = roleJoining ∧ s.get (SQ_GANG_M e) = 0 ∧ s.get TW_RJ_STAT_PEND = 2 ^ e.val) :=
    ⟨⟨R |> lv [(TW_STAT_ROLE,roleShadow)] |> now 3300, 5, by decide +kernel⟩,
      ⟨R |> lv [(TW_STAT_ROLE,roleShadow)] |> now 3204, 5, by decide +kernel⟩,
      ⟨R |> lv [(TW_STAT_ROLE,roleActive)] |> now 3300 |> twv ({· with mirror := [(later 5 3200, .mem 48 7)]}), 48, 7, 5, by decide +kernel⟩,
      ⟨R |> lv [(TW_STAT_ROLE,roleShadow)], 31, [1,2], by decide +kernel⟩,
      ⟨R , by decide +kernel⟩,
      ⟨R |> lv [(TW_STAT_ROLE,roleShadow)], by decide +kernel⟩,
      ⟨R |> lv [(TW_STAT_ROLE,roleActive)], by decide +kernel⟩,
      ⟨R |> lv [(TW_STAT_ROLE,roleShadow)], by decide +kernel⟩,
      ⟨R |> lv [(TW_STAT_ROLE,roleActive),(CL_P_STAT_STATE 3,portUpState)] |> now 5, by decide +kernel⟩,
      ⟨R |> lv [(TW_STAT_ROLE,roleShadow)] |> now 5, by decide +kernel⟩,
      ⟨R |> lv [(TW_STAT_ROLE,roleShadow)] |> twv ({· with swapAt := some (5,false)}) |> gr 31 ({· with shadowHold := true, begun := [{b := 6000, period := 1024, word := 0, ts := 0, ctx := 0, forms := [], data := []}]}) |> now 5000, 31, 5, by decide +kernel⟩,
      ⟨R , by decide +kernel⟩,
      ⟨attachable, { peer0 with digest := attachable.digest }, ⟨by decide +kernel, attachable_ok⟩⟩,
      ⟨R |> lv [(TW_CTL_PAIR,1)] |> now 5, by decide +kernel⟩,
      ⟨R |> lv [(TW_STAT_ROLE,roleJoining)], 0x20A0000, by decide +kernel⟩,
      ⟨R |> lv [(TW_STAT_ROLE,roleJoining),(TW_RJ_TMO_TMO,2)] |> twv ({· with attachAt := some 5}) |> now 3200009, 5, by decide +kernel⟩,
      ⟨R |> lv [(TW_STAT_ROLE,roleActive),(TW_RJ_TMO_TMO,2)] |> twv ({· with attachAt := some 5}) |> now 3200009, 5, by decide +kernel⟩,
      ⟨R |> lv [(TW_STAT_ROLE,roleActive),(TW_RJ_STAT_PEND,0x80000000)] |> twv ({· with attachAt := some 5}), 31, by decide +kernel⟩,
      ⟨R |> lv [(TW_STAT_ROLE,roleActive),(TW_RJ_STAT_PEND,0x80000000)] |> twv ({· with attachAt := some 5}) |> twv ({· with sentOut := [(31,0,none)]}), 31, by decide +kernel⟩,
      ⟨R |> lv [(TW_STAT_ROLE,roleActive),(TW_RJ_STAT_PEND,0x80000000)] |> twv ({· with attachAt := some 5}) |> twv ({· with sentOut := [(31,7,none)]}), 31, 7, by decide +kernel⟩,
      ⟨R |> lv [(TW_STAT_ROLE,roleJoining),(TW_RJ_STAT_PEND,0x80000000)] |> twv ({· with attachAt := some 5}), 31, R.transferOf 31, by decide +kernel⟩,
      ⟨R |> lv [(TW_STAT_ROLE,roleJoining),(TW_RJ_STAT_PEND,0x80000000)] |> twv ({· with attachAt := some 5}), 31, by decide +kernel⟩⟩

theorem witness_TwinWatch :
      (∃ (s : State), s.on TW_CTL_PAIR ∧ s.portUp 3 ∧ s.time.toNat % 1600 = 0) ∧
      (∃ (s : State) (hb : Heartbeat), s.on TW_CTL_PAIR ∧ s.lockstepLost hb = false ∧ s.role = roleShadow ∧ hb.mchk ∧ s.tw.refill = []) ∧
      (∃ (s : State) (hb : Heartbeat), s.on TW_CTL_PAIR ∧ s.lockstepLost hb = false ∧ hb.mchk = false ∧ hb.ochre = false ∧ hb.therm = false) ∧
      (∃ (s : State) (hb : Heartbeat), s.on TW_CTL_PAIR ∧ s.lockstepLost hb ∧ s.on TW_CTL_DISPOL = false ∧ hb.mchk = false ∧ hb.ochre = false ∧ hb.therm = false) ∧
      (∃ (s : State) (h : Time), s.tw.lastHb = some h ∧ 5600 ≤ s.since h ∧ s.role = roleShadow ∧ s.portUp 3 ∧ s.tw.refill = []) ∧
      (∃ (s : State) (h : Time), s.tw.lastHb = some h ∧ 5600 ≤ s.since h ∧ s.role = roleShadow ∧ s.portUp 3 = false ∧ s.on TW_CTL_LOSPOL = false) ∧
      (∃ (s : State) (h : Time), s.tw.lastHb = some h ∧ 5600 ≤ s.since h ∧ s.role = roleShadow ∧ s.portUp 3 = false ∧ s.on TW_CTL_LOSPOL ∧ s.tw.refill = []) ∧
      (∃ (s : State) (g : GroupIx), s.takeoverDue g) ∧
      (∃ (s : State) (g : GroupIx) (d : Time), s.tw.takeD = some d ∧ (s.group g).shadowHold ∧ reached s.time (later d 160)) ∧
      (∃ (s : State), s.role = roleActive) ∧
      (∃ (s : State) (e : EngineIx) (set own : List Native) (k n : Nat), s.role = roleActive ∧ s.tw.attachAt = none ∧ vget s.tw.checkFrom e none = some k ∧ vget s.tw.sets e (0, []) = (n, own) ∧ own ≠ [] ∧ k ≤ n ∧ s.on TW_CTL_DISPOL = false ∧ crc32c (wordBytes own) ≠ crc32c (wordBytes set) ∧ s.on TW_AGREE_MODE = false) ∧
      (∃ (s : State) (e : EngineIx) (set own : List Native) (k n : Nat), s.role = roleActive ∧ s.tw.attachAt = none ∧ vget s.tw.checkFrom e none = some k ∧ vget s.tw.sets e (0, []) = (n, own) ∧ own ≠ [] ∧ k ≤ n ∧ s.on TW_CTL_DISPOL = false ∧ crc32c (wordBytes own) = crc32c (wordBytes set)) :=
    ⟨⟨R |> lv [(TW_CTL_PAIR,1),(TW_STAT_ROLE,roleActive),(CL_P_STAT_STATE 3,portUpState)] |> now 3200, by decide +kernel⟩,
      ⟨R |> lv [(TW_CTL_PAIR,1),(TW_STAT_ROLE,roleShadow)] |> now 9, {hb0 with mchk := true}, by decide +kernel⟩,
      ⟨R |> lv [(TW_CTL_PAIR,1),(TW_STAT_ROLE,roleShadow)] |> now 9, hb0, by decide +kernel⟩,
      ⟨R |> lv [(TW_CTL_PAIR,1),(TW_STAT_ROLE,roleShadow)] |> twv ({· with crcs := [(5,8)]}) |> now 9, hb0, by decide +kernel⟩,
      ⟨R |> lv [(TW_STAT_ROLE,roleShadow),(CL_P_STAT_STATE 3,portUpState)] |> twv ({· with lastHb := some 5}) |> now 5605, 5, by decide +kernel⟩,
      ⟨R |> lv [(TW_STAT_ROLE,roleShadow)] |> twv ({· with lastHb := some 5}) |> now 5605, 5, by decide +kernel⟩,
      ⟨R |> lv [(TW_STAT_ROLE,roleShadow),(TW_CTL_LOSPOL,1)] |> twv ({· with lastHb := some 5}) |> now 5605, 5, by decide +kernel⟩,
      ⟨R |> twv ({· with takeD := some 5}) |> gr 31 ({· with shadowHold := true, termOnly := true}) |> now 6405, 31, by decide +kernel⟩,
      ⟨R |> twv ({· with takeD := some 5}) |> gr 31 ({· with shadowHold := true}) |> now 165, 31, 5, by decide +kernel⟩,
      ⟨R |> lv [(TW_STAT_ROLE,roleActive),(TW_CTL_PAIR,1)], by decide +kernel⟩,
      ⟨R |> lv [(TW_STAT_ROLE,roleActive)] |> twv (fun x => {x with checkFrom := vset x.checkFrom 31 (some 3), sets := vset x.sets 31 (4,[7])}), 31, [8], [7], 3, 4, by decide +kernel⟩,
      ⟨R |> lv [(TW_STAT_ROLE,roleActive)] |> twv (fun x => {x with checkFrom := vset x.checkFrom 31 (some 3), sets := vset x.sets 31 (4,[7])}), 31, [7], [7], 3, 4, by decide +kernel⟩⟩

theorem witness_RegisterAccess :
      (∃ (s : State) (a : BitVec 24) (n : RegName) (ix : List Nat), s.ready ∧ regAt a.toNat = some (n, ix) ∧ a.toNat % 4 = 0 ∧ n.plain ∧ (n.forwarded ix → s.role ≠ roleActive ∧ s.role ≠ roleShadow)) ∧
      (∃ (s : State) (a : BitVec 24) (n : Fin 5), (n.val ≠ 4 ∨ a.toNat % 4 ≠ 0 ∨ s.ready = false ∧ 0x10000 ≤ a.toNat ∨ a.toNat < 0x800000 ∧ regAt a.toNat = none)) ∧
      (∃ (s : State) (a : BitVec 24) (n : RegName) (ix : List Nat), s.ready ∧ regAt a.toNat = some (n, ix) ∧ a.toNat % 4 = 0 ∧ (n.fields ix).any FieldSpec.isFlag ∧ (n.forwarded ix → s.role ≠ roleActive ∧ s.role ≠ roleShadow)) ∧
      (∃ (s : State) (a : BitVec 24) (n : RegName) (ix : List Nat), s.ready ∧ regAt a.toNat = some (n, ix) ∧ a.toNat % 4 = 0 ∧ n.readsPlain) ∧
      (∃ (s : State) (a : BitVec 24) (n : RegName) (ix : List Nat), s.ready ∧ regAt a.toNat = some (n, ix) ∧ a.toNat % 4 = 0) ∧
      (∃ (s : State) (k n : Nat), s.ready ∧ 0 < n ∧ k + n ≤ 4) ∧
      (∃ (s : State) (a : BitVec 24), a.toNat % 4 = 0 ∧ (regAt a.toNat = none ∧ a.toNat < 0x800000 ∨ s.ready = false ∧ 0x10000 ≤ a.toNat)) ∧
      (∃ (s : State), s.ready) ∧
      (∃ (s : State), s.ready) ∧
      (∃ (s : State), s.ready) ∧
      (∃ (s : State), s.ready) :=
    ⟨⟨R , BitVec.ofNat 24 (HI_IMASK).addr, .HI_IMASK, [], by decide +kernel⟩,
      ⟨R , BitVec.ofNat 24 HI_IMASK.addr, 3, by decide +kernel⟩,
      ⟨R |> lv [(⟨CM_FLAGS,7,0⟩,255),(HI_IMASK_MASK,0x100000),(MSIX_VCTL_MASK (R.imapV 20),0)], BitVec.ofNat 24 (CM_FLAGS).addr, .CM_FLAGS, [], by decide +kernel⟩,
      ⟨R |> lv [(HI_IMASK_MASK,0x100000)], BitVec.ofNat 24 (HI_IMASK).addr, .HI_IMASK, [], by decide +kernel⟩,
      ⟨(R |> (fun s : State => s.setStagedWord (TG_TS_PER 31 31) 5000)), BitVec.ofNat 24 (TG_TS_PER 31 31).addr, .TG_TS_PER, [31,31], by decide +kernel⟩,
      ⟨R |> lv [(HI_IMASK_MASK,0x123456)], 1, 2, by decide +kernel⟩,
      ⟨R , 0x7FFFFC, by decide +kernel⟩,
      ⟨R |> now 0x123456789ABCDE, by decide +kernel⟩,
      ⟨R |> hiv ({· with latch := [(TP_TIME_HI.addr,77)]}), by decide +kernel⟩,
      ⟨R |> lv [(TH_OCH_B_PEAK 3,9),(TH_OCH_B_LEVEL 3,7)], by decide +kernel⟩,
      ⟨R |> lv [(TD_BT_ADDR_BIN 31,511)], by decide +kernel⟩⟩

theorem witness_MemoryWindow :
      (∃ (s : State) (off : BitVec 27) (data : List (BitVec 8)), s.ready ∧ bar2Region off.toNat ≠ .none ∧ data ≠ [] ∧ off.toNat % 16 + data.length ≤ 8) ∧
      (∃ (s : State) (off : BitVec 27), s.actsNow ∧ bar2Region off.toNat = .store ∧ off.toNat % 16 = 8 ∧ s.hi.holdAddr = off.toNat - 8) ∧
      (∃ (s : State) (off : BitVec 27), s.actsNow ∧ bar2Region off.toNat = .store ∧ off.toNat % 16 = 8 ∧ s.hi.holdAddr ≠ off.toNat - 8) ∧
      (∃ (s : State) (off : BitVec 27), s.ready ∧ bar2Region off.toNat = .records ∧ off.toNat % 16 = 8) ∧
      (∃ (s : State) (off : BitVec 27) (n : Fin 9), s.ready ∧ bar2Region off.toNat ≠ .none ∧ 0 < n.val ∧ off.toNat % 16 + n.val ≤ 8) ∧
      (∃ (s : State) (off : BitVec 27), s.ready ∧ bar2Region off.toNat ≠ .none ∧ off.toNat % 16 = 8) ∧
      (∃ (s : State) (off : BitVec 27), (s.ready = false ∨ bar2Region off.toNat = .none)) ∧
      (∃ (s : State) (off : BitVec 27), (s.ready = false ∨ bar2Region off.toNat = .none)) ∧
      (∃ (s : State) (off : BitVec 27), s.ready ∧ bar2Region off.toNat = .nvs ∧ off.toNat % 16 = 8 ∧ s.hi.latchAddr ≠ off.toNat - 8) :=
    ⟨⟨R |> vstoreWord 0 1 0x123456789ABCDEF012, 0x12, [1,2,3], by decide +kernel⟩,
      ⟨R |> hiv ({· with holdAddr := 0x10, holdData := 0x1122334455667788}), 0x18, ⟨by unfold State.actsNow; decide +kernel, by decide +kernel⟩⟩,
      ⟨R |> vstoreWord 0 1 0x123456789ABCDEF012, 0x18, ⟨by unfold State.actsNow; decide +kernel, by decide +kernel⟩⟩,
      ⟨R , 0x3000008, by decide +kernel⟩,
      ⟨R |> vstoreWord 0 1 0x123456789ABCDEF012, 0x12, 6, by decide +kernel⟩,
      ⟨R |> vstoreWord 0 1 0x123456789ABCDEF012, 0x18, by decide +kernel⟩,
      ⟨R , 0x3610000, by decide +kernel⟩,
      ⟨R |> lv [(GL_STATUS_READY,0)], 8, by decide +kernel⟩,
      ⟨R , 0x3700028, by decide +kernel⟩⟩

theorem witness_Rings :
      (∃ (s : State) (x : RingIx) (v : Word), s.ready ∧ (v.toNat + 2 ^ 32 - s.get (ringHead x)) % 2 ^ 32 < 2 ^ 31 ∧ (v.toNat + 2 ^ 32 - s.get (ringHead x)) % 2 ^ 32 ≤ 2 ^ s.get (ringSize x)) ∧
      (∃ (s : State) (x : RingIx) (v : Word), s.ready ∧ (v.toNat + 2 ^ 32 - s.get (ringHead x)) % 2 ^ 32 < 2 ^ 31 ∧ 2 ^ s.get (ringSize x) < (v.toNat + 2 ^ 32 - s.get (ringHead x)) % 2 ^ 32) ∧
      (∃ (s : State) (x : RingIx) (v : Word), s.ready ∧ 2 ^ 31 ≤ (v.toNat + 2 ^ 32 - s.get (ringHead x)) % 2 ^ 32) ∧
      (∃ (s : State) (v : Word), s.ready ∧ 4 ≤ fieldOf v 8 4 ∧ fieldOf v 8 4 ≤ 16 ∧ fieldOf v 31 16 ≠ 0 ∧ (∀ g < 32, s.on (FC_LOG_CTL_HOST g) = false ∧ s.on (FC_EV_CTL_DMA g) = false)) ∧
      (∃ (s : State) (r : Fin 6) (b : Block), (s.ring r).opened = [b] ∧ b.words ≠ [] ∧ (s.ring r).closed.length < 8 ∧ usTclk (s.get (HI_RING_CTL_FLUSH r)) ≤ s.since b.first) ∧
      (∃ (s : State) (r : Fin 6) (b : Block), (s.ring r).opened = [b] ∧ b.words ≠ [] ∧ (s.ring r).closed.length < 8 ∧ s.since b.first < usTclk (s.get (HI_RING_CTL_FLUSH r))) ∧
      (∃ (s : State) (r : Fin 6) (b : Block) (v : Word), (s.ring r).opened = [b] ∧ b.words ≠ [] ∧ (s.ring r).closed.length < 8 ∧ s.ready ∧ fieldOf v 5 0 = 2 ^ r.val) ∧
      (∃ (s : State) (r : Fin 6) (n : Nat) (b : Block) (rest : List (Nat × Block)), s.dmaOk ∧ s.on (HI_RING_CTL_EN r) ∧ 0 < s.posted (.ring r) ∧ r.val ≠ 4 ∧ (s.ring r).closed = (n, b) :: rest ∧ (∀ g < 32, s.on (FC_LOG_CTL_HOST g) = false ∧ s.on (FC_EV_CTL_DMA g) = false)) ∧
      (∃ (s : State), s.dmaOk ∧ s.on (HI_RING_CTL_EN 4) ∧ 0 < s.posted (.ring 4) ∧ s.get HI_CAPRD_STAT_STATE = 1 ∧ s.on (HI_RING_CTL_WBEN 4) = false ∧ (∀ g < 32, s.on (FC_LOG_CTL_HOST g) = false ∧ s.on (FC_EV_CTL_DMA g) = false)) ∧
      (∃ (s : State), s.dmaOk = false ∧ (∀ g < 32, s.on (FC_LOG_CTL_HOST g) = false ∧ s.on (FC_EV_CTL_DMA g) = false)) ∧
      (∃ (s : State) (v : Word), s.ready ∧ v.getLsbD 31 ∧ s.get HI_CAPRD_STAT_STATE ≠ 1) ∧
      (∃ (s : State) (v : Word), s.ready ∧ v.getLsbD 31 ∧ s.get HI_CAPRD_STAT_STATE = 1) :=
    ⟨⟨R |> lv [(ringSize (.ring 5),4),(ringHead (.ring 5),0xFFFFFFF8)], .ring 5, 8, by decide +kernel⟩,
      ⟨R |> lv [(ringSize (.vecQueue 31),4),(ringHead (.vecQueue 31),0xFFFFFFF8)], .vecQueue 31, 9, by decide +kernel⟩,
      ⟨R |> lv [(ringHead (.waveQueue 31),7)], .waveQueue 31, 6, by decide +kernel⟩,
      ⟨(R |> (fun s : State => s.forEach (List.range 32) fun s g => (s.set (FC_LOG_CTL_HOST g) 0).set (FC_EV_CTL_DMA g) 0)), 0x000A0107, by decide +kernel⟩,
      ⟨R |> lv [(HI_RING_CTL_FLUSH 5,2)] |> hiv (fun x => {x with rings := vset x.rings 5 {vget x.rings 5 .reset with opened := [(⟨0,false,0,0,[1,2],1,5⟩ : Block)], bseq := 0xFFFFFFFF}}) |> now 3205, 5, (⟨0,false,0,0,[1,2],1,5⟩ : Block), by decide +kernel⟩,
      ⟨R |> lv [(HI_RING_CTL_FLUSH 5,2)] |> hiv (fun x => {x with rings := vset x.rings 5 {vget x.rings 5 .reset with opened := [(⟨0,false,0,0,[1,2],1,5⟩ : Block)]}}) |> now 3204, 5, (⟨0,false,0,0,[1,2],1,5⟩ : Block), by decide +kernel⟩,
      ⟨R |> hiv (fun x => {x with rings := vset x.rings 5 {vget x.rings 5 .reset with opened := [(⟨0,false,0,0,[1,2],1,5⟩ : Block)]}}), 5, (⟨0,false,0,0,[1,2],1,5⟩ : Block), 0x20, by decide +kernel⟩,
      ⟨(R |> (fun s : State => s.forEach (List.range 32) fun s g => (s.set (FC_LOG_CTL_HOST g) 0).set (FC_EV_CTL_DMA g) 0) |> lv [(HI_LINK_WIDTH,8)] |> hiv ({· with bme := true}) |> lv [(HI_RING_CTL_EN 5,1),(ringTail (.ring 5),1)] |> hiv (fun x => {x with rings := vset x.rings 5 {vget x.rings 5 .reset with closed := [(3,(⟨0,false,0,0,[1,2],1,5⟩ : Block))]}})), 5, 3, (⟨0,false,0,0,[1,2],1,5⟩ : Block), [], by decide +kernel⟩,
      ⟨(R |> (fun s : State => s.forEach (List.range 32) fun s g => (s.set (FC_LOG_CTL_HOST g) 0).set (FC_EV_CTL_DMA g) 0) |> lv [(HI_LINK_WIDTH,8)] |> hiv ({· with bme := true}) |> lv [(HI_RING_CTL_EN 4,1),(ringTail (.ring 4),1),(HI_CAPRD_STAT_STATE,1),(HI_CAPRD_STAT_LEFT,500)]), by decide +kernel⟩,
      ⟨(R |> (fun s : State => s.forEach (List.range 32) fun s g => (s.set (FC_LOG_CTL_HOST g) 0).set (FC_EV_CTL_DMA g) 0)), by decide +kernel⟩,
      ⟨R |> lv [(HI_CAPRD_CNT_COUNT,99)], 0x803FFFFF, by decide +kernel⟩,
      ⟨R |> lv [(HI_CAPRD_STAT_STATE,1)], 0x803FFFFF, by decide +kernel⟩⟩

theorem witness_QueuesAndEndpoint :
      (∃ (s : State) (u : Fin 32) (blk : List (BitVec 8)), s.mayFetch false u ∧ s.role ≠ roleActive ∧ ringBlockPasses false u blk ∧ ringBlockNw blk + (s.engine u).refill.length ≤ 8192 ∧ s.on (HI_QV_CTL_WBEN u) = false) ∧
      (∃ (s : State) (u : Fin 32) (blk : List (BitVec 8)), s.mayFetch true u ∧ ringBlockPasses true u blk = false ∧ vget s.hi.wqFails u 0 < s.get (HI_QW_CTL_RETRY u)) ∧
      (∃ (s : State) (u : Fin 32), s.get (HI_QV_QSTAT_STATE u) = 1 ∧ 0 < s.posted (.vecQueue u) ∧ vget s.hi.vqFails u 0 = s.get (HI_QV_CTL_RETRY u)) ∧
      (∃ (s : State), s.bootOk) ∧
      (∃ (s : State), s.bootOk) ∧
      (∃ (s : State), s.sys.tap.drives = false) :=
    ⟨⟨R |> lv [(HI_LINK_WIDTH,8)] |> hiv ({· with bme := true}) |> lv [(HI_QV_CTL_EN 31,1),(HI_QV_QSTAT_STATE 31,1),(HI_QV_TAIL_TAIL 31,1)] |> lv [(SQ_STRM_EN 31,1)], 31, queueBlock, ⟨by decide +kernel, by decide +kernel, queueBlock_passes, by decide +kernel, by decide +kernel⟩⟩,
      ⟨R |> lv [(HI_LINK_WIDTH,8)] |> hiv ({· with bme := true}) |> lv [(HI_QW_CTL_EN 31,1),(HI_QW_QSTAT_STATE 31,1),(HI_QW_TAIL_TAIL 31,1),(HI_QW_CTL_RETRY 31,1)], 31, List.replicate 4096 0, ⟨by decide +kernel, zeros_fail, by decide +kernel⟩⟩,
      ⟨R |> lv [(HI_QV_QSTAT_STATE 31,1),(HI_QV_CTL_RETRY 31,2)] |> hiv (fun x => {x with vqFails := vset x.vqFails 31 2}) |> lv [(HI_QV_TAIL_TAIL 31,1)], 31, by decide +kernel⟩,
      ⟨R |> lv [(HI_LINK_WIDTH,8)] |> hiv ({· with bme := true}) |> lv [(HI_QV_CTL_EN 31,1),(HI_QV_QSTAT_STATE 31,1),(HI_QV_TAIL_TAIL 31,1)], fun _ h => nomatch h⟩,
      ⟨R |> lv [(HI_LINK_WIDTH,8)] |> hiv ({· with bme := true}) |> lv [(HI_QV_CTL_EN 31,1),(HI_QV_QSTAT_STATE 31,1),(HI_QV_TAIL_TAIL 31,1)], fun _ h => nomatch h⟩,
      ⟨R |> hiv ({· with lastLink := some (8,4)}), by decide +kernel⟩⟩

theorem witness_PowerOnBoot :
      (∃ (c : Instr), c ∈ [Instr.por, Instr.rstN]) ∧
      (∃ (s : State), s.get GL_STATUS_BOOT = 0) ∧
      (∃ (s : State), s.get GL_STATUS_BOOT = 1 ∧ (∀ g < 32, (s.group g).preCommit) ∧ (∀ c ∈ s.mem, c.1 < memNvs ∨ nvsAddr 262144 ≤ c.1)) ∧
      (∃ (s : State), s.get GL_STATUS_BOOT = 2 ∧ s.get MC_STAT_STATE ≠ mcLoading) ∧
      (∃ (s : State) (n : Fin 2), s.get GL_STATUS_BOOT = 2 ∧ s.mcState = mcLoading ∧ s.sys.mcTry = 0 ∧ s.get MC_BOOT_SLOT = n ∧ s.get MC_BOOT_ORDER = 0 ∧ imgCheck (s.slotWords n) = 0) ∧
      (∃ (s : State) (n : Fin 2), s.get GL_STATUS_BOOT = 2 ∧ s.mcState = mcLoading ∧ s.sys.mcTry = 0 ∧ s.get MC_BOOT_SLOT = n ∧ s.get MC_BOOT_ORDER = 0 ∧ s.sys.mcVerify = none ∧ imgCheck (s.slotWords n) = 0) ∧
      (∃ (s : State) (n : Fin 2), s.get GL_STATUS_BOOT = 2 ∧ s.mcState = mcLoading ∧ s.sys.mcTry = 0 ∧ s.get MC_BOOT_SLOT = n ∧ s.get MC_BOOT_ORDER = 2) ∧
      (∃ (s : State) (ok : List Bool), s.get GL_STATUS_BOOT = 3 ∧ ok.all id) ∧
      (∃ (s : State) (ok : List Bool), s.get GL_STATUS_BOOT = 3 ∧ (∀ e < 32, s.get (SQ_GANG_M e) = 0) ∧ ok.all id = false) ∧
      (∃ (s : State), s.get GL_STATUS_BOOT = 4) :=
    ⟨⟨.rstN, by decide +kernel⟩,
      ⟨R |> lv [(GL_STATUS_BOOT,0),(GL_STATUS_READY,0)], by decide +kernel⟩,
      ⟨R |> lv [(GL_STATUS_BOOT,1),(GL_STATUS_READY,0)], ⟨by decide +kernel, by decide +kernel, all_mem _ (by decide +kernel)⟩⟩,
      ⟨R |> lv [(GL_STATUS_BOOT,2),(GL_STATUS_READY,0),(MC_STAT_STATE,2)], by decide +kernel⟩,
      ⟨R |> lv [(GL_STATUS_BOOT,2),(GL_STATUS_READY,0),(MC_STAT_STATE,mcLoading)], 0, ⟨by decide +kernel, by decide +kernel, by decide +kernel, by decide +kernel, by decide +kernel, (congrArg imgCheck (lv_slotWords ..)).trans test_slot_image⟩⟩,
      ⟨R |> lv [(GL_STATUS_BOOT,2),(GL_STATUS_READY,0),(MC_STAT_STATE,mcLoading)], 0, ⟨by decide +kernel, by decide +kernel, by decide +kernel, by decide +kernel, by decide +kernel, by decide +kernel, (congrArg imgCheck (lv_slotWords ..)).trans test_slot_image⟩⟩,
      ⟨R |> lv [(GL_STATUS_BOOT,2),(GL_STATUS_READY,0),(MC_STAT_STATE,mcLoading),(MC_BOOT_ORDER,2),(MC_BOOT_SLOT,1)], 1, by decide +kernel⟩,
      ⟨R |> lv [(GL_STATUS_BOOT,3),(GL_STATUS_READY,0)], [true], by decide +kernel⟩,
      ⟨R |> lv [(GL_STATUS_BOOT,3),(GL_STATUS_READY,0)], (List.range 300).map fun i => i % 77 != 5, by decide +kernel⟩,
      ⟨R |> lv [(GL_STATUS_BOOT,4),(GL_STATUS_READY,0)], by decide +kernel⟩⟩

theorem witness_ScopedResets :
      (∃ (s : State), s.cm ≠ none ∧ s.role ≠ roleActive ∧ s.role ≠ roleShadow) ∧
      (∃ (s : State) (c : Instr), s.cm ≠ none ∧ c ∈ [Instr.deviceResetTp, .deviceResetAq, .deviceResetSn]) ∧
      (∃ (s : State) (g : Fin 32) (v : Word), s.role ≠ roleActive ∧ s.role ≠ roleShadow ∧ s.cm = none ∧ v.getLsbD g ∧ (∃ m ∈ s.members g, v.getLsbD m = false)) ∧
      (∃ (s : State) (g : Fin 32), s.role ≠ roleActive ∧ s.role ≠ roleShadow ∧ s.cm = none ∧ s.get (SQ_GANG_M g) = 0 ∧ s.planesOk ∧ s.bootOk) ∧
      (∃ (s : State), s.cm = none ∧ s.bootOk) ∧
      (∃ (s : State), s.cm = none ∧ s.bootOk) ∧
      (∃ (s : State), s.cm = none ∧ s.bootOk) ∧
      (∃ (s : State), s.on CK_STAT_HOLDOVER = false) ∧
      (∃ (s : State), s.on CK_STAT_HOLDOVER) ∧
      (∃ (s : State) (xid : Fin 8), xid.val ∈ s.sys.xNotice) ∧
      (∃ (s : State) (xid : Fin 8), xid.val ∉ s.sys.xNotice ∧ s.crossingOut xid) ∧
      (∃ (s : State) (xid : Fin 8), xid.val ∉ s.sys.xNotice ∧ s.crossingOut xid = false) :=
    ⟨⟨R |> cmv cm0, by decide +kernel⟩,
      ⟨R |> cmv cm0, .deviceResetAq, by decide +kernel⟩,
      ⟨R |> lv [(SQ_GANG_M 2,1),(SQ_GANG_M 3,1)], 2, 4, by decide +kernel⟩,
      ⟨R |> lv [(TG_TS_PER_PER 31 31,5000),(SQ_STAT_RUNCTX 31,5),(DG_STAT_STALE,0)], 31, ⟨by decide +kernel, by decide +kernel, by decide +kernel, by decide +kernel, by unfold State.planesOk; decide +kernel, fun _ h => nomatch h⟩⟩,
      ⟨R |> lv [(TP_PCMP_CYC_CYC 7,5),(TP_STATUS_PH_STATE,2)], ⟨by decide +kernel, fun _ h => nomatch h⟩⟩,
      ⟨R |> lv [(AQ_TE_CTL_EN 3,1)], ⟨by decide +kernel, fun _ h => nomatch h⟩⟩,
      ⟨R |> lv [(SN_CTL_EN,3)], ⟨by decide +kernel, fun _ h => nomatch h⟩⟩,
      ⟨R |> lv [(TP_STATUS_TB_STATE,tbLocked),(TP_TBREF_TRIM_TRIM,9),(TP_TBREF_CTL_EN,1)] |> tpv ({· with tbLast := some 5}), by decide +kernel⟩,
      ⟨R |> lv [(CK_STAT_HOLDOVER,1),(TP_STATUS_TB_STATE,tbHoldover),(TP_TBREF_CTL_EN,1),(TP_TBREF_TRIM_TRIM,9)], by decide +kernel⟩,
      ⟨R |> sy ({· with xNotice := [5]}), 5, by decide +kernel⟩,
      ⟨R |> lv [(CP_SM_CTL_RUN 0,0)], 5, by decide +kernel⟩,
      ⟨R , 6, by decide +kernel⟩⟩

theorem witness_GovernorsAndStore :
      (∃ (s : State) (k : DieIx) (ma e : Nat), (ma ≤ 5000 ∨ vget s.sys.burst k false = false) ∧ e = min ochMax (vget s.sys.bucket k 0 + ma * ma - 2250000) ∧ e < ochMax ∧ (e < ochWarn ∨ ochWarn ≤ vget s.sys.bucket k 0) ∧ ¬(s.on TH_OCH_CTL_AUTO ∧ e ≤ ochHalf)) ∧
      (∃ (s : State) (k : DieIx) (ma e : Nat), (ma ≤ 5000 ∨ vget s.sys.burst k false = false) ∧ e = min ochMax (vget s.sys.bucket k 0 + ma * ma - 2250000) ∧ vget s.sys.bucket k 0 < ochWarn ∧ ochWarn ≤ e ∧ e < ochMax ∧ vget s.sys.warned k false = false) ∧
      (∃ (s : State) (k : DieIx) (ma e : Nat), (ma ≤ 5000 ∨ vget s.sys.burst k false = false) ∧ e = min ochMax (vget s.sys.bucket k 0 + ma * ma - 2250000) ∧ vget s.sys.bucket k 0 < ochMax ∧ e = ochMax) ∧
      (∃ (s : State) (k : DieIx) (ma e : Nat), (ma ≤ 5000 ∨ vget s.sys.burst k false = false) ∧ e = min ochMax (vget s.sys.bucket k 0 + ma * ma - 2250000) ∧ s.on TH_OCH_CTL_AUTO ∧ s.bit TH_STAT_OEXH k ∧ e ≤ ochHalf) ∧
      (∃ (s : State) (k : DieIx) (ma : Nat), 5000 < ma ∧ vget s.sys.burst k false = true ∧ (∀ g, g / 8 = k.val → (s.group g).ochrePark = false)) ∧
      (∃ (s : State) (k : DieIx) (v : Word), s.ready ∧ s.on TH_OCH_CTL_AUTO = false ∧ v.toNat % 16 = 2 ^ k.val ∧ vget s.sys.bucket k 0 ≤ ochHalf) ∧
      (∃ (s : State) (k : DieIx) (v : Word), s.ready ∧ s.on TH_OCH_CTL_AUTO = false ∧ v.toNat % 16 = 2 ^ k.val ∧ ochHalf < vget s.sys.bucket k 0) ∧
      (∃ (x : BitVec 16), x.toInt < 1400) ∧
      (∃ (x : BitVec 16), 1400 ≤ x.toInt ∧ x.toInt < 1450) ∧
      (∃ (s : State) (k : Fin 5) (x : BitVec 16), 1450 ≤ x.toInt ∧ x.toInt < 1500 ∧ s.bit TH_STAT_WARN k = false) ∧
      (∃ (s : State) (k : Fin 5) (x : BitVec 16), 1500 ≤ x.toInt ∧ s.bit TH_STAT_TRIP k = false ∧ s.role ≠ roleActive ∧ s.role ≠ roleShadow) ∧
      (∃ (s : State), s.ready ∧ (∀ k < 5, s.tempOf k < 1400)) ∧
      (∃ (s : State), s.ready ∧ (∃ k < 5, 1400 ≤ s.tempOf k)) ∧
      (∃ (s : State) (v : Word), s.ready ∧ v.toNat % 65536 = 0x4E56) ∧
      (∃ (s : State) (v : Word) (a : Time), s.ready ∧ s.sys.nvKey = some a ∧ v.toNat % 65536 = 0x0A11 ∧ s.since a ≤ 1600000) ∧
      (∃ (s : State) (v : Word) (a : Time), s.ready ∧ s.sys.nvKey = some a ∧ 1600000 < s.since a ∧ v.toNat % 65536 ≠ 0x4E56) ∧
      (∃ (s : State), s.on NV_STAT_UNLOCKED ∧ usTclk 60000000 ≤ s.since s.sys.nvLast) ∧
      (∃ (s : State) (off : BitVec 27) (w : Nat), s.ready ∧ w < 262144 ∧ off.toNat = nvsAddr w + 8 ∧ s.hi.holdAddr = nvsAddr w ∧ s.nvAllowed w = false) ∧
      (∃ (s : State) (off : BitVec 27) (w : Nat), s.ready ∧ w < 262144 ∧ off.toNat = nvsAddr w + 8 ∧ s.hi.holdAddr = nvsAddr w ∧ s.nvAllowed w ∧ s.sys.nvQueue.length < 64) ∧
      (∃ (s : State) (off : BitVec 27) (w : Nat), s.ready ∧ w < 262144 ∧ off.toNat = nvsAddr w + 8 ∧ s.hi.holdAddr = nvsAddr w ∧ s.nvAllowed w ∧ 64 ≤ s.sys.nvQueue.length) ∧
      (∃ (s : State) (w : Nat) (v : Native) (rest : List (Nat × Native)), s.sys.nvQueue = (w, v) :: rest ∧ rest.length < 64) ∧
      (∃ (s : State), usTclk 60000000 ≤ s.since s.sys.ledgerAt) :=
    ⟨⟨R |> sy (fun x => {x with bucket := vset x.bucket 3 (1000)}), 3, 2000, 1000+4000000-2250000, by decide +kernel⟩,
      ⟨R |> sy (fun x => {x with bucket := vset x.bucket 3 (ochWarn - 1)}), 3, 2000, ochWarn - 1 +4000000-2250000, by decide +kernel⟩,
      ⟨R |> sy (fun x => {x with bucket := vset x.bucket 3 (ochMax - 1)}), 3, 2000, ochMax, by decide +kernel⟩,
      ⟨R |> lv [(TH_OCH_CTL_AUTO,1),(TH_STAT_OEXH,15)] |> sy (fun x => {x with bucket := vset x.bucket 3 (ochHalf)}), 3, 0, ochHalf-2250000, by decide +kernel⟩,
      ⟨R |> sy (fun x => {x with burst := vset x.burst 3 true}), 3, 5001, ⟨by decide +kernel, by decide +kernel, fun g _ => no_ochre g⟩⟩,
      ⟨R |> lv [(TH_OCH_CTL_AUTO,0),(TH_STAT_OEXH,15)] |> sy (fun x => {x with bucket := vset x.bucket 3 (ochHalf)}), 3, 8, by decide +kernel⟩,
      ⟨R |> lv [(TH_OCH_CTL_AUTO,0),(TH_STAT_OEXH,15)] |> sy (fun x => {x with bucket := vset x.bucket 3 (ochHalf + 1)}), 3, 8, by decide +kernel⟩,
      ⟨0xFF00, by decide +kernel⟩,
      ⟨1400, by decide +kernel⟩,
      ⟨R , 4, 1450, by decide +kernel⟩,
      ⟨R , 4, 1500, by decide +kernel⟩,
      ⟨R |> lv [(TH_STAT_TRIP,31),(TH_TEMP_TEMP 0,1399)], by decide +kernel⟩,
      ⟨R |> lv [(TH_STAT_TRIP,31),(TH_TEMP_TEMP 4,1400)], by decide +kernel⟩,
      ⟨R |> now 5, 0x4E56, by decide +kernel⟩,
      ⟨R |> sy ({· with nvKey := some 5}) |> now 1600005, 0x0A11, 5, by decide +kernel⟩,
      ⟨R |> sy ({· with nvKey := some 5}) |> now 1600006, 0x0A11, 5, by decide +kernel⟩,
      ⟨R |> lv [(NV_STAT_UNLOCKED,1),(NV_CTL_WEN,1)] |> now 96000000000, by decide +kernel⟩,
      ⟨R |> hiv ({· with holdAddr := nvsAddr 0x3C000}), BitVec.ofNat 27 (nvsAddr 0x3C000 + 8), 0x3C000, by decide +kernel⟩,
      ⟨R |> lv [(NV_STAT_UNLOCKED,1),(NV_CTL_WEN,1)] |> hiv ({· with holdAddr := nvsAddr 0x3E000}), BitVec.ofNat 27 (nvsAddr 0x3E000 + 8), 0x3E000, by decide +kernel⟩,
      ⟨R |> lv [(NV_STAT_UNLOCKED,1),(NV_CTL_WEN,1)] |> sy ({· with nvQueue := List.replicate 64 (0,0)}) |> hiv ({· with holdAddr := nvsAddr 0x3E000}), BitVec.ofNat 27 (nvsAddr 0x3E000 + 8), 0x3E000, by decide +kernel⟩,
      ⟨R |> sy ({· with nvQueue := [(262143,9),(3,4)]}), 262143, 9, [(3,4)], by decide +kernel⟩,
      ⟨R |> now 96000000000, by decide +kernel⟩⟩

theorem witness_BoardPorts :
      (∃ (s : State), 2 ≤ s.get GL_STATUS_BOOT) ∧
      (∃ (s : State), 2 ≤ s.get GL_STATUS_BOOT) ∧
      (∃ (s : State), 2 ≤ s.get GL_STATUS_BOOT) ∧
      (∃ (s : State), 2 ≤ s.get GL_STATUS_BOOT) ∧
      (∃ (s : State), 2 ≤ s.get GL_STATUS_BOOT) ∧
      (∃ (s : State), 2 ≤ s.get GL_STATUS_BOOT) ∧
      (∃ (s : State), 2 ≤ s.get GL_STATUS_BOOT) ∧
      (∃ (s : State), 2 ≤ s.get GL_STATUS_BOOT) ∧
      (∃ (s : State), 2 ≤ s.get GL_STATUS_BOOT) ∧
      (∃ (s : State) (c : BitVec 8), 2 ≤ s.get GL_STATUS_BOOT ∧ (¬(c.toNat ≤ 4 ∨ c.toNat ∈ [8, 9, 0x10, 0x11, 0x12, 0x13, 0x14] ∨ 0x18 ≤ c.toNat ∧ c.toNat ≤ 0x1B))) ∧
      (∃ (s : State), 2 ≤ s.get GL_STATUS_BOOT ∧ s.hi.alertN = false) ∧
      (∃ (s : State), s.get GL_STATUS_BOOT < 2) ∧
      (∃ (s : State) (v : Word), s.ready ∧ v.getLsbD 31 ∧ fieldOf v 27 24 ≤ 8 ∧ s.get MC_STAT_STATE ≠ 1 ∧ s.on HI_SPI_CTL_BUSY = false) ∧
      (∃ (s : State) (v : Word), s.ready ∧ v.getLsbD 31 ∧ fieldOf v 27 24 ≤ 8 ∧ s.get MC_STAT_STATE ≠ 1 ∧ s.on HI_SPI_CTL_BUSY) ∧
      (∃ (s : State) (rd : List (BitVec 8)) (n : Nat), s.hi.spi = some (n, true) ∧ n ≤ 8 ∧ rd.length = n) ∧
      (∃ (s : State), 2 ≤ s.get GL_STATUS_BOOT) ∧
      (∃ (s : State), s.get GL_STATUS_BOOT < 2) ∧
      (∃ (pins load : BitVec 89) (c : Instr), c ∈ [Instr.extest pins load, .extestPulse pins load, .extestTrain pins load]) :=
    ⟨⟨R |> lv [(TH_TEMP_TEMP 4,0x1234)], by decide +kernel⟩,
      ⟨R, by decide +kernel⟩,
      ⟨R, by decide +kernel⟩,
      ⟨R, by decide +kernel⟩,
      ⟨R, by decide +kernel⟩,
      ⟨R, by decide +kernel⟩,
      ⟨R, by decide +kernel⟩,
      ⟨R, by decide +kernel⟩,
      ⟨R |> sy ({· with serial := 0x123456789ABCDEF0}), by decide +kernel⟩,
      ⟨R , 0x1C, by decide +kernel⟩,
      ⟨R |> hiv ({· with alertN := false}), by decide +kernel⟩,
      ⟨R |> lv [(GL_STATUS_BOOT,1)], by decide +kernel⟩,
      ⟨R , 0x8800029F, by decide +kernel⟩,
      ⟨R |> lv [(HI_SPI_CTL_BUSY,1)], 0x8800029F, by decide +kernel⟩,
      ⟨R |> hiv ({· with spi := some (8,true)}), [1,2,3,4,5,6,7,8], 8, by decide +kernel⟩,
      ⟨R |> sy ({· with manuf := 0x7FF}), by decide +kernel⟩,
      ⟨R |> lv [(GL_STATUS_BOOT,1)], by decide +kernel⟩,
      ⟨5, 7, .extestPulse 5 7, by decide +kernel⟩⟩

theorem witness_CoherentReads :
      (∃ (s : State) (a : BitVec 24) (n : RegName) (ix : List Nat), s.ready ∧ a.toNat < 0x800000 ∧ a.toNat % 4 = 0 ∧ regAt a.toNat = some (n, ix) ∧ n.latches ≠ []) ∧
      (∃ (s : State) (a : BitVec 24) (n : RegName) (ix : List Nat), s.ready ∧ a.toNat < 0x800000 ∧ a.toNat % 4 = 0 ∧ regAt a.toNat = some (n, ix) ∧ n.latches ≠ []) ∧
      (∃ (s : State) (a : BitVec 24) (n : RegName) (ix : List Nat), s.ready ∧ a.toNat < 0x800000 ∧ a.toNat % 4 = 0 ∧ regAt a.toNat = some (n, ix) ∧ n ∈ latchedRegs) ∧
      (∃ (s : State) (a : BitVec 24) (n : RegName) (ix : List Nat) (dev : BitVec 10) (x : Fin 4), s.ready ∧ a.toNat < 0x800000 ∧ a.toNat % 4 = 0 ∧ regAt a.toNat = some (n, ix) ∧ n ∈ latchedRegs ∧ s.routeTo dev.toNat = some x.val ∧ (s.port x).queue = []) :=
    ⟨⟨R |> now 0x123456789ABC, BitVec.ofNat 24 TP_TIME_LO.addr, .TP_TIME_LO, [], by decide +kernel⟩,
      ⟨R |> now 0x123456789ABC, BitVec.ofNat 24 TP_TIME_LO.addr, .TP_TIME_LO, [], by decide +kernel⟩,
      ⟨R |> hiv ({· with latch := [(TP_TIME_HI.addr,77)]}), BitVec.ofNat 24 TP_TIME_HI.addr, .TP_TIME_HI, [], by decide +kernel⟩,
      ⟨R |> hiv ({· with latch := [(TP_TIME_HI.addr,77)]}) |> clv ({· with routes := [(9,2)]}), BitVec.ofNat 24 TP_TIME_HI.addr, .TP_TIME_HI, [], 9, 2, by decide +kernel⟩⟩

theorem witness_Interrupts :
      (∃ (v : Nat), v < 64) ∧
      (∃ (s : State) (k : Fin 64) (v : Word), s.ready ∧ v.getLsbD 0 = false ∧ s.bit (MSIX_PBA_PEND (k.val / 32)) (k.val % 32)) :=
    ⟨⟨R.imapV 20, by decide +kernel⟩,
      ⟨R |> lv [(MSIX_PBA_PEND 1,0x80000000),(MSIX_VCTL_MASK 63,1)], 63, 0, by decide +kernel⟩⟩

theorem witness_MirroredWrites :
      (∃ (s : State) (a : BitVec 24) (n : RegName) (ix : List Nat), s.ready ∧ a.toNat < 0x800000 ∧ a.toNat % 4 = 0 ∧ a.toNat ≠ CL_RRA_CMD.addr ∧ regAt a.toNat = some (n, ix) ∧ n.forwarded ix ∧ s.role = roleActive) ∧
      (∃ (s : State) (a : BitVec 24) (n : RegName) (ix : List Nat), s.ready ∧ a.toNat < 0x800000 ∧ a.toNat % 4 = 0 ∧ a.toNat ≠ CL_RRA_CMD.addr ∧ regAt a.toNat = some (n, ix) ∧ n.forwarded ix ∧ s.role = roleShadow) ∧
      (∃ (s : State) (off : BitVec 27), s.ready ∧ bar2Region off.toNat = .store ∧ off.toNat % 16 = 8 ∧ s.hi.holdAddr = off.toNat - 8 ∧ s.role = roleActive) ∧
      (∃ (s : State) (off : BitVec 27), s.ready ∧ bar2Region off.toNat = .store ∧ off.toNat % 16 = 8 ∧ s.hi.holdAddr = off.toNat - 8 ∧ s.role = roleShadow) :=
    ⟨⟨R |> lv [(TW_STAT_ROLE,roleActive)]|> now 9, BitVec.ofNat 24 (LS_PARK 31).addr, .LS_PARK, [31], by decide +kernel⟩,
      ⟨R |> lv [(TW_STAT_ROLE,roleShadow)], BitVec.ofNat 24 (LS_PARK 31).addr, .LS_PARK, [31], by decide +kernel⟩,
      ⟨R |> lv [(TW_STAT_ROLE,roleActive)] |> hiv ({· with holdAddr := 0x10}), 0x18, by decide +kernel⟩,
      ⟨R |> lv [(TW_STAT_ROLE,roleShadow)] |> hiv ({· with holdAddr := 0x10}), 0x18, by decide +kernel⟩⟩

theorem witness_EveryStepRuns :
      (∃ (s : State), s.pending = []) :=
    ⟨R |> lv [], by decide +kernel⟩

theorem witness_MemoryStaysCanonical :
      (∃ (s : State), s.memOk) :=
    ⟨R, by decide +kernel⟩

theorem witness_PlanesStayRising :
      (∃ (s : State), s.planesOk ∧ s.bootOk) :=
    ⟨R, ⟨by unfold State.planesOk; decide +kernel, fun _ h => nomatch h⟩⟩

end Sys2Proof.Tests
end

section
/-! The completion of a ring descriptor (R400, R409): bits of a flag register, and what the live plane holds after it. -/

namespace Sys2Proof.Machine

theorem State.bit_congr {s t : State} (h : t.live = s.live) (x : Fld) (b : Nat) : t.bit x b = s.bit x b := by
  rw [State.bit, State.bit, State.get_congr h]

/-- A bit set in a field of flags: that bit reads 1 and the others read as before. -/
theorem State.bit_raiseBit (s : State) (x : Fld) (i b : Nat) (h : x.inWord) (hb : b < x.hi + 1 - x.lo) :
    (s.raiseBit x i).bit x b = (s.bit x b || decide (i = b)) := by
  rw [State.bit, State.get_raiseBit, State.setBit, State.get_set _ _ _ h, Nat.testBit_mod_two_pow]
  simp [putBit, State.bit, hb, Nat.one_shiftLeft, Nat.testBit_two_pow]

theorem State.bit_set_apart (s : State) (x y : Fld) (v b : Nat) (h : x.inWord) (a : x.apart y) :
    (s.set x v).bit y b = s.bit y b := by
  rw [State.bit, State.bit, State.get_set_apart _ _ _ _ h a]

theorem State.on_set_apart (s : State) (x y : Fld) (v : Nat) (h : x.inWord) (a : x.apart y) :
    (s.set x v).on y = s.on y := by
  rw [State.on, State.on, State.get_set_apart _ _ _ _ h a]

theorem ringHead_inWord (x : RingIx) : (ringHead x).inWord := by cases x <;> exact Fld.inWord_of _ rfl

/-- HEAD fills its register. -/
theorem ringHead_width (x : RingIx) : (ringHead x).hi + 1 - (ringHead x).lo = 32 := by cases x <;> rfl

theorem ringHead_apart_ringIall (x : RingIx) : (ringHead x).apart (ringIall x) := by
  left
  cases x <;> simp only [ringHead, ringIall, HI_RING_HEAD_HEAD, HI_RING_CTL_IALL, HI_QV_HEAD_HEAD, HI_QV_CTL_IALL,
    HI_QW_HEAD_HEAD, HI_QW_CTL_IALL, HI_RING_HEAD, HI_RING_CTL, HI_QV_HEAD, HI_QV_CTL, HI_QW_HEAD, HI_QW_CTL] <;> omega

theorem ringHead_apart_done (x : RingIx) : (ringHead x).apart HI_RDONE_DONE := by
  left
  cases x <;> simp only [ringHead, HI_RING_HEAD_HEAD, HI_QV_HEAD_HEAD, HI_QW_HEAD_HEAD, HI_RING_HEAD, HI_QV_HEAD,
    HI_QW_HEAD, HI_RDONE_DONE, HI_RDONE] <;> omega

theorem ringNumber_lt (x : RingIx) : ringNumber x < 8 := by
  cases x <;> simp only [ringNumber] <;> omega

/-- The state with HEAD of a ring or queue one further. -/
def State.headAdvanced (s : State) (x : RingIx) : State := s.set (ringHead x) (s.get (ringHead x) + 1)

/-- R400, R409: the registers after the completion of a descriptor; the write-back of HEAD changes none. -/
theorem State.completeDesc_live (s : State) (x : RingIx) (int : Bool) :
    (s.completeDesc x int).live = if int || s.on (ringIall x)
      then ((s.headAdvanced x).raiseBit HI_RDONE_DONE (ringNumber x)).live else (s.headAdvanced x).live := by
  have iall : (s.headAdvanced x).on (ringIall x) = s.on (ringIall x) :=
    State.on_set_apart _ _ _ _ (ringHead_inWord x) (ringHead_apart_ringIall x)
  rw [← iall, State.completeDesc, ← State.headAdvanced]
  generalize s.headAdvanced x = t
  have emitted : ∀ o, (if int || (t.emit o).on (ringIall x) then (t.emit o).raiseBit HI_RDONE_DONE (ringNumber x)
      else t.emit o).live = if int || t.on (ringIall x) then (t.raiseBit HI_RDONE_DONE (ringNumber x)).live
      else t.live := fun o => apply_ite State.live ..
  split
  · exact emitted _
  · exact apply_ite State.live ..

theorem State.bit_completeDesc (s : State) (x : RingIx) (int : Bool) (b : Nat) (hb : b < 8) :
    (s.completeDesc x int).bit HI_RDONE_DONE b =
      (s.bit HI_RDONE_DONE b || (int || s.on (ringIall x)) && decide (ringNumber x = b)) := by
  have head : (s.headAdvanced x).bit HI_RDONE_DONE b = s.bit HI_RDONE_DONE b :=
    State.bit_set_apart _ _ _ _ _ (ringHead_inWord x) (ringHead_apart_done x)
  have live := s.completeDesc_live x int
  cases h : int || s.on (ringIall x) <;> simp only [h, if_true, Bool.false_eq_true, if_false] at live
  · rw [State.bit_congr live, head, Bool.false_and, Bool.or_false]
  · rw [State.bit_congr live, State.bit_raiseBit _ _ _ _ (Fld.inWord_of _ rfl) hb, head, Bool.true_and]

theorem State.get_ringHead_completeDesc (s : State) (x : RingIx) (int : Bool) :
    (s.completeDesc x int).get (ringHead x) = (s.get (ringHead x) + 1) % 2 ^ 32 := by
  have head : (s.headAdvanced x).get (ringHead x) = (s.get (ringHead x) + 1) % 2 ^ 32 := by
    rw [State.headAdvanced, State.get_set _ _ _ (ringHead_inWord x), ringHead_width]
  have live := s.completeDesc_live x int
  split at live
  · have apart : HI_RDONE_DONE.apart (ringHead x) := (ringHead_apart_done x).imp Ne.symm fun h => ⟨h.1.symm, h.2.symm⟩
    rw [State.get_congr live, State.get_raiseBit, State.setBit, State.get_set_apart _ _ _ _ (Fld.inWord_of _ rfl) apart,
      head]
  · rw [State.get_congr live, head]

/-- Settles O54: after the advance of HEAD the only other register that a completion changes is HI_RDONE, at the bit of
the ring's number. -/
theorem descriptorCompletes : Obligations.DescriptorCompletes := by
  intro s x int
  refine ⟨?_, ?_, s.get_ringHead_completeDesc x int, ?_⟩
  · simp [s.bit_completeDesc x int _ (ringNumber_lt x), Bool.or_assoc]
  · intro b hb other
    simp [s.bit_completeDesc x int b hb, other.symm]
  · exact Frame.completeDesc s _ _ x int (by simp) (by simp)

end Sys2Proof.Machine
end

section
/-! The coherent-read latch (R393): what a read latches, what it returns, and the response over Cleif (R366). -/

namespace Sys2Proof.Machine

/-! ### The latch -/

/-- Registers written into a plane at one value each leave every other register as it was. -/
theorem RegFile.word_foldl_setWord_ne (l : List RegName) (ix : List Nat) (v : RegName → Word) (f : RegFile) (r : Reg)
    (h : ∀ m ∈ l, (m.reg ix).addr ≠ r.addr) :
    (l.foldl (fun f m => f.setWord (m.reg ix) (v m)) f).word r = f.word r := by
  induction l generalizing f with
  | nil => rfl
  | cons k l ih =>
    rw [List.foldl_cons, ih _ fun m hm => h m (List.mem_cons_of_mem _ hm),
      RegFile.word_setWord_ne _ _ _ _ (h k List.mem_cons_self)]

/-- Registers at different addresses written into a plane each read as written. -/
theorem RegFile.word_foldl_setWord (l : List RegName) (ix : List Nat) (v : RegName → Word) (f : RegFile)
    (h : l.Pairwise fun x y => (x.reg ix).addr ≠ (y.reg ix).addr) (m : RegName) (hm : m ∈ l) :
    (l.foldl (fun f m => f.setWord (m.reg ix) (v m)) f).word (m.reg ix) = v m := by
  induction l generalizing f with
  | nil => simp at hm
  | cons k l ih =>
    rw [List.pairwise_cons] at h
    rw [List.foldl_cons]
    rcases List.mem_cons.1 hm with rfl | hm
    · rw [RegFile.word_foldl_setWord_ne _ _ _ _ _ fun y hy => (h.1 y hy).symm, RegFile.word_setWord]
    · exact ih _ h.2 hm

/-- Registers of one block at different offsets lie at different addresses. -/
theorem addr_ne_of_offsets (l : List RegName) (ix offsets : List Nat) (base step : Nat) (hd : offsets.Nodup)
    (h : l.map (fun m => (m.reg ix).addr) = offsets.map fun o => base + o + step) :
    l.Pairwise fun x y => (x.reg ix).addr ≠ (y.reg ix).addr := by
  have distinct : (l.map fun m => (m.reg ix).addr).Nodup := by
    rw [h]
    exact hd.map fun x y e => by simpa using e
  exact List.pairwise_map.1 distinct

/-- The registers that one read latches lie at different addresses. -/
theorem RegName.latches_addr_ne (n : RegName) (ix : List Nat) :
    n.latches.Pairwise fun x y => (x.reg ix).addr ≠ (y.reg ix).addr := by
  unfold RegName.latches
  split
  case h_2 => exact addr_ne_of_offsets _ ix [0x010034, 0x010038] 0 0 (by decide) rfl
  case h_7 =>
    exact addr_ne_of_offsets _ ix [0x8104, 0x8108, 0x810C] (groupBase (ix.getD 0 0)) (0x10 * ix.getD 1 0) (by decide) rfl
  case h_13 =>
    exact addr_ne_of_offsets _ ix [0xA104, 0xA108, 0xA10C] (groupBase (ix.getD 0 0)) (0x10 * ix.getD 1 0) (by decide) rfl
  case h_14 => exact addr_ne_of_offsets _ ix [0xB08C, 0xB090, 0xB094] (groupBase (ix.getD 0 0)) 0 (by decide) rfl
  case h_20 => exact List.Pairwise.nil
  all_goals exact List.pairwise_singleton ..

/-- A register that reads as latched latches nothing. -/
theorem latches_eq_nil_of_mem_latchedRegs (n : RegName) (h : n ∈ latchedRegs) : n.latches = [] := by
  revert n
  decide

/-! ### What a read does -/

/-- The latch after a read, whatever else the read does. -/
theorem State.readEffect_latch (s : State) (n : RegName) (ix : List Nat) : (s.readEffect n ix).hi.latch =
    n.latches.foldl (fun f m => f.setWord (m.reg ix) (s.regView m ix)) s.hi.latch := by
  unfold State.readEffect
  generalize n.latches.foldl (fun f m => f.setWord (m.reg ix) (s.regView m ix)) s.hi.latch = latch
  dsimp only
  split <;> rfl

/-- A read by itself sends nothing. -/
theorem State.readEffect_out (s : State) (n : RegName) (ix : List Nat) : (s.readEffect n ix).out = s.out := by
  unfold State.readEffect
  generalize n.latches.foldl (fun f m => f.setWord (m.reg ix) (s.regView m ix)) s.hi.latch = latch
  dsimp only
  split <;> simp [State.dispStep]

/-- Each register of the group reads as it was at the read of the first. -/
theorem State.word_readEffect_latch (s : State) (n m : RegName) (ix : List Nat) (h : m ∈ n.latches) :
    (s.readEffect n ix).hi.latch.word (m.reg ix) = s.regView m ix := by
  rw [s.readEffect_latch, RegFile.word_foldl_setWord _ _ (s.regView · ix) _ (n.latches_addr_ne ix) m h]

/-- The read of a register that reads as latched changes nothing. -/
theorem State.readEffect_of_mem_latchedRegs (s : State) (n : RegName) (ix : List Nat) (h : n ∈ latchedRegs) :
    s.readEffect n ix = s := by
  simp only [latchedRegs, List.mem_cons, List.not_mem_nil, or_false] at h
  rcases h with rfl | rfl | rfl | rfl | rfl | rfl | rfl | rfl | rfl | rfl | rfl | rfl | rfl | rfl | rfl | rfl | rfl | rfl |
    rfl | rfl | rfl | rfl | rfl | rfl | rfl | rfl <;> rfl

/-- The word that a read of a register of BAR0 returns. -/
def State.readWord (s : State) (n : RegName) (ix : List Nat) : Word :=
  if latchedRegs.contains n then s.hi.latch.word (n.reg ix) else s.regView n ix

theorem State.readWord_of_mem_latchedRegs (s : State) (n : RegName) (ix : List Nat) (h : n ∈ latchedRegs) :
    s.readWord n ix = s.hi.latch.word (n.reg ix) := by
  rw [State.readWord, if_pos (List.contains_iff_mem.2 h)]

/-- The first register of a group reads as it stands. -/
theorem State.readWord_of_latches_ne_nil (s : State) (n : RegName) (ix : List Nat) (h : n.latches ≠ []) :
    s.readWord n ix = s.regView n ix := by
  rw [State.readWord, if_neg]
  exact fun c => h (latches_eq_nil_of_mem_latchedRegs n (List.contains_iff_mem.1 c))

section Read
variable {s : State} {a : Nat} {n : RegName} {ix : List Nat} (hr : s.ready) (ha : a < 0x800000) (h4 : a % 4 = 0)
  (hn : regAt a = some (n, ix))
include hr ha h4 hn

/-- A read at the aligned address of a register is a read of the register. -/
theorem State.hostRead_reg : s.hostRead a = (s.readEffect n ix, s.readWord n ix) := by
  have aligned : a / 4 * 4 = a := Nat.div_mul_cancel (Nat.dvd_of_mod_eq_zero h4)
  simp [State.hostRead, aligned, hr, hn, Nat.not_le.2 ha, State.readWord]

/-- A read of four bytes at it is one read of the whole register. -/
theorem State.hostReadBytes_reg : s.hostReadBytes a 4 = (s.readEffect n ix, (s.readWord n ix).toNat) := by
  have one : (a + 4 - 1) / 4 + 1 - a / 4 = 1 := by omega
  have base : 4 * (a / 4 + 0) = a := by omega
  simp only [State.hostReadBytes, one, List.range_one, List.foldl_cons, List.foldl_nil, base,
    State.hostRead_reg hr ha h4 hn, h4]
  simp [Nat.mod_eq_of_lt (s.readWord n ix).isLt]

theorem State.readOut_reg :
    s.readOut a 4 = (s.readEffect n ix).emit (.readData ((s.readWord n ix).setWidth 64)) := by
  simp only [State.readOut, State.hostReadBytes_reg hr ha h4 hn]
  simp [BitVec.ofNat_toNat]

/-- R366: the access over Cleif reads the register, and its word returns in a packet of type 2. -/
theorem State.rraServe_read (dev tag : Nat) (v : Word) : s.rraServe dev false tag a v =
    (s.readEffect n ix).routePacket
      (Packet.make 2 dev s.devNum 0 (tag * 2 ^ 32 + (s.readWord n ix).toNat) []) := by
  simp only [State.rraServe, State.hostReadBytes_reg hr ha h4 hn]
  rfl

end Read

/-! ### Outputs and the latch after the signals of a command -/

/-- The signals of a command put messages before what it sent. -/
theorem settle_out (s t : State) : ∃ pre, (settle s t).out = pre ++ t.out ∧ ∀ x ∈ pre, ∃ v, x = .msix v := by
  have sent : ∀ (u : State) (v : Nat), (∃ pre, u.out = pre ++ t.out ∧ ∀ x ∈ pre, ∃ v, x = .msix v) →
      ∃ pre, (u.sendVector v).out = pre ++ t.out ∧ ∀ x ∈ pre, ∃ v, x = .msix v := by
    rintro u v ⟨pre, hu, hp⟩
    unfold State.sendVector
    split
    · exact ⟨pre, by simpa using hu, hp⟩
    · exact ⟨.msix v :: pre, by simp [State.emit, hu], List.forall_mem_cons.2 ⟨⟨v, rfl⟩, hp⟩⟩
  have h := State.forEach_holds _ State.sendVector sent t ((risen s t).map t.imapV).eraseDups ⟨[], rfl, by simp⟩
  unfold settle State.signal
  simp only
  split <;> exact h

/-- What the meaning of a command sends, the command sends. -/
theorem sends_settle_emit (s t u : State) (o : Output) (h : t.out = s.out) : Sends s (settle u (t.emit o)) o := by
  obtain ⟨pre, hp, hm⟩ := settle_out u (t.emit o)
  exact ⟨pre, by simpa [State.emit, h] using hp, hm⟩

@[simp] theorem settle_latch (s t : State) : (settle s t).hi.latch = t.hi.latch := by
  have h := congrArg HiState.latch (settle_hi s t)
  exact h

@[simp] theorem port_settle (s t : State) (x : Nat) : (settle s t).port x = t.port x := by
  unfold State.port
  rw [settle_cl]

/-! ### The response packet -/

@[simp] theorem State.routePacket_hi (s : State) (p : Packet) : (s.routePacket p).hi = s.hi := by
  unfold State.routePacket State.sendPacket
  split
  · simp only
    generalize (if p.reserved then _ else _ : Bool) = room
    cases room <;> simp [State.setPort]
  · simp

/-- The destination that a packet is made with (R357). -/
theorem Packet.dst_make (type dst src sub arg : Nat) (hsub : sub < 32) (hd : dst < 1024) :
    (Packet.make type dst src sub arg []).dst = dst := by
  simp only [Packet.dst, Packet.make, nbits, BitVec.toNat_ofNat, List.length_nil]
  omega

/-- A packet of the answer type, without payload, is one flit and uses no reserved room (R360). -/
theorem Packet.reserved_make_response (dst src arg : Nat) : (Packet.make 2 dst src 0 arg []).reserved = false := by
  have type : (Packet.make 2 dst src 0 arg []).type = 2 := by
    simp only [Packet.type, Packet.make, nbits, BitVec.toNat_ofNat, List.length_nil]
    omega
  simp [Packet.reserved, type]

theorem State.port_setPort (s : State) (x : Nat) (p : Port) (h : x < 4) : (s.setPort x p).port x = p :=
  vget_vset _ _ _ _ h

/-- An answer that meets an empty queue waits in it alone. -/
theorem State.queue_sendPacket_response (s : State) (x dst src arg : Nat) (hx : x < 4) (empty : (s.port x).queue = []) :
    ((s.sendPacket x (Packet.make 2 dst src 0 arg [])).port x).queue = [Packet.make 2 dst src 0 arg []] := by
  have one : flitsIn [] + (Packet.make 2 dst src 0 arg []).flits = 1 := rfl
  rw [State.sendPacket]
  simp only [empty, Packet.reserved_make_response, List.filter_nil, List.nil_append, one]
  rw [if_pos (by simp), State.port_setPort _ _ _ hx]

/-! ### The two commands -/

theorem exec_coherentRead_word (a : BitVec 24) (s : State) :
    exec (.coherentRead ⟨a, 4⟩) s = done s (s.readOut a.toNat 4) := by rfl

theorem exec_rraRequestReceive_read (dev : BitVec 10) (tag : BitVec 7) (a : BitVec 24) (v : Word) (s : State) :
    exec (.rraRequestReceive dev false tag a v) s = done s (s.rraServe dev.toNat false tag.toNat a.toNat v) := by rfl

/-- Settles O53: a read is its effect and its word (`hostReadBytes_reg`), by a host as over Cleif, and neither the
outgoing packet nor the signals touch the latch. -/
theorem coherentReads : Obligations.CoherentReads := by
  intro s a n ix hr ha h4 hn
  refine ⟨fun first => ⟨?_, fun dev tag v => ?_⟩, fun latched => ⟨?_, fun dev tag v x hroute empty => ?_⟩⟩
  · rw [exec_coherentRead_word, State.readOut_reg hr ha h4 hn, s.readWord_of_latches_ne_nil n ix first]
    refine runsTo_done _ _ _ ⟨sends_settle_emit _ _ _ _ (s.readEffect_out n ix), fun m hm => ?_⟩
    rw [settle_latch]
    exact s.word_readEffect_latch n m ix hm
  · rw [exec_rraRequestReceive_read, State.rraServe_read hr ha h4 hn]
    refine runsTo_done _ _ _ fun m hm => ?_
    rw [settle_latch, State.routePacket_hi, s.word_readEffect_latch n m ix hm]
  · rw [exec_coherentRead_word, State.readOut_reg hr ha h4 hn, s.readEffect_of_mem_latchedRegs n ix latched,
      s.readWord_of_mem_latchedRegs n ix latched]
    exact runsTo_done _ _ _ ⟨sends_settle_emit _ _ _ _ rfl, settle_latch ..⟩
  · rw [exec_rraRequestReceive_read, State.rraServe_read hr ha h4 hn, s.readEffect_of_mem_latchedRegs n ix latched,
      s.readWord_of_mem_latchedRegs n ix latched]
    refine runsTo_done _ _ _ ⟨?_, ?_⟩
    · rw [settle_latch, State.routePacket_hi]
    · rw [port_settle, State.routePacket, Packet.dst_make _ _ _ _ _ (by omega) dev.isLt, hroute]
      exact s.queue_sendPacket_response x _ _ _ x.isLt empty

end Sys2Proof.Machine
end

section
/-! The forms that every step keeps: what the queue, the memory, the register planes and the words kept by the boot are after
each operation of the model, up to every command. -/

namespace Sys2Proof.Machine

/-- From `s` to `t` the queue is the same, and the memory, the register planes and the words kept by the boot are in their
forms if they were. -/
structure Keeps (s t : State) : Prop where
  pending : t.pending = s.pending
  mem : s.memOk → t.memOk
  planes : s.planesOk → t.planesOk
  boot : s.bootOk → t.bootOk

section
variable {s t u : State}

theorem Keeps.refl (s : State) : Keeps s s := ⟨rfl, id, id, id⟩

theorem Keeps.trans (h : Keeps s t) (k : Keeps t u) : Keeps s u :=
  ⟨k.pending.trans h.pending, k.mem ∘ h.mem, k.planes ∘ h.planes, k.boot ∘ h.boot⟩

/-- An update of what the forms do not speak of. -/
theorem Keeps.same (h : Keeps s t) (pending : u.pending = t.pending) (mem : u.mem = t.mem) (live : u.live = t.live)
    (staged : u.staged = t.staged) (die : u.die = t.die) (boot : u.sys.boot = t.sys.boot) : Keeps s u := by
  refine h.trans ⟨pending, fun k => ?_, fun k => State.planesOk_congr live staged die boot k, fun k => ?_⟩
  · rwa [State.memOk, mem]
  · rwa [State.bootOk, boot]

/-- An update of the live plane. -/
theorem Keeps.ofLive (h : Keeps s t) {f : RegFile} (k : t.live.rising → f.rising) : Keeps s { t with live := f } :=
  h.trans ⟨rfl, id, fun p => ⟨k p.1, p.2⟩, id⟩

theorem Keeps.ofStaged (h : Keeps s t) {f : RegFile} (k : t.staged.rising → f.rising) : Keeps s { t with staged := f } :=
  h.trans ⟨rfl, id, fun p => ⟨p.1, k p.2.1, p.2.2⟩, id⟩

theorem Keeps.ofDie (h : Keeps s t) {f : RegFile} (k : t.die.rising → f.rising) : Keeps s { t with die := f } :=
  h.trans ⟨rfl, id, fun p => ⟨p.1, p.2.1, k p.2.2.1, p.2.2.2⟩, id⟩

theorem Keeps.ofMem (h : Keeps s t) {m : List Host.Cell} (k : Memory.wf t.mem → Memory.wf m) : Keeps s { t with mem := m } :=
  h.trans ⟨rfl, k, id, id⟩

theorem Keeps.ite {c : Prop} [Decidable c] (h : Keeps s t) (k : Keeps s u) : Keeps s (if c then t else u) := by
  split <;> assumption

theorem Keeps.dite {c : Prop} [Decidable c] {f : c → State} {g : ¬c → State} (h : ∀ x, Keeps s (f x))
    (k : ∀ x, Keeps s (g x)) : Keeps s (if x : c then f x else g x) := by
  split
  · exact h _
  · exact k _

theorem Keeps.ite_fst {α : Type} {c : Prop} [Decidable c] {x y : State × α} (h : Keeps s x.1) (k : Keeps s y.1) :
    Keeps s (if c then x else y).1 := by
  split <;> assumption

theorem Keeps.foldl {α : Type} (h : Keeps s t) {l : List α} {f : State → α → State}
    (k : ∀ u x, Keeps s u → Keeps s (f u x)) : Keeps s (l.foldl f t) := by
  induction l generalizing t with
  | nil => exact h
  | cons x l ih => exact ih (k _ _ h)

theorem Keeps.forEach (h : Keeps s t) {l : List Nat} {f : State → Nat → State}
    (k : ∀ u i, Keeps s u → Keeps s (f u i)) : Keeps s (t.forEach l f) := h.foldl k

theorem Keeps.set (h : Keeps s t) {x : Fld} {v : Nat} : Keeps s (t.set x v) := h.ofLive (RegFile.set_rising _ _ _)

theorem Keeps.setWord (h : Keeps s t) {r : Reg} {w : Word} : Keeps s (t.setWord r w) :=
  h.ofLive (RegFile.setWord_rising _ _ _)

theorem Keeps.setStagedWord (h : Keeps s t) {r : Reg} {w : Word} : Keeps s (t.setStagedWord r w) :=
  h.trans ⟨rfl, id, State.planesOk_setStagedWord _ _ _, id⟩

theorem Keeps.dieSet (h : Keeps s t) {x : Fld} {v : Nat} : Keeps s (t.dieSet x v) := h.ofDie (RegFile.set_rising _ _ _)

theorem Keeps.setMemWord (h : Keeps s t) {a : Nat} {w : Native} : Keeps s (t.setMemWord a w) :=
  h.ofMem (State.setMemWord_wf _ _ _)

theorem Keeps.settle {r : State} (h : Keeps s t) : Keeps s (settle r t) :=
  h.trans ⟨settle_pending _ _, memOk_settle _ _, planesOk_settle _ _, fun k => by rwa [State.bootOk, settle_sys]⟩

/-! ### Outcomes -/

theorem Keeps.next (h : Keeps s t) : RunsTo (.next t) (Keeps s) := ⟨_, rfl, h⟩

theorem Keeps.ite_out {c : Prop} [Decidable c] {x y : Host.Outcome State Fault Refusal} {p : State → Prop} (h : RunsTo x p)
    (k : RunsTo y p) : RunsTo (if c then x else y) p := by
  split <;> assumption

theorem Keeps.done {r : State} (h : Keeps s t) : RunsTo (done r t) (Keeps s) := ⟨_, rfl, h.settle⟩

theorem Keeps.doneIf {c : Bool} (h : Keeps s t) : RunsTo (doneIf c s t) (Keeps s) := (Keeps.ite h (.refl s)).done

theorem Keeps.hostDone (h : Keeps s t) : RunsTo (hostDone s t) (Keeps s) := (Keeps.ite h (.refl s)).done

/-! ### What a TCLK leaves -/

/-- From `s` to `t` TIME, the queue, the memory, the staged registers, what the dies hold, the commit and the words kept by the
boot are the same, and the live registers are in their form if they were. -/
structure Stays (s t : State) : Prop where
  time : t.time = s.time
  pending : t.pending = s.pending
  mem : t.mem = s.mem
  staged : t.staged = s.staged
  die : t.die = s.die
  cm : t.cm = s.cm
  boot : t.sys.boot = s.sys.boot
  live : s.live.rising → t.live.rising

theorem Stays.refl (s : State) : Stays s s := ⟨rfl, rfl, rfl, rfl, rfl, rfl, rfl, id⟩

theorem Stays.trans (h : Stays s t) (k : Stays t u) : Stays s u :=
  ⟨k.time.trans h.time, k.pending.trans h.pending, k.mem.trans h.mem, k.staged.trans h.staged, k.die.trans h.die,
    k.cm.trans h.cm, k.boot.trans h.boot, k.live ∘ h.live⟩

theorem Stays.keeps (h : Stays s t) : Keeps s t := by
  refine ⟨h.pending, fun k => ?_, fun k => ?_, fun k => ?_⟩
  · rwa [State.memOk, h.mem]
  · exact ⟨h.live k.1, h.staged ▸ k.2.1, h.die ▸ k.2.2.1, h.boot ▸ k.2.2.2⟩
  · rwa [State.bootOk, h.boot]

/-- An update of what the forms do not speak of. -/
theorem Stays.same (h : Stays s t) (time : u.time = t.time) (pending : u.pending = t.pending)
    (mem : u.mem = t.mem) (staged : u.staged = t.staged) (die : u.die = t.die)
    (cm : u.cm = t.cm) (boot : u.sys.boot = t.sys.boot) (live : u.live = t.live) :
    Stays s u :=
  h.trans ⟨time, pending, mem, staged, die, cm, boot, fun k => live ▸ k⟩

theorem Stays.ite {c : Prop} [Decidable c] (h : Stays s t) (k : Stays s u) : Stays s (if c then t else u) := by
  split <;> assumption

theorem Stays.dite {c : Prop} [Decidable c] {f : c → State} {g : ¬c → State} (h : ∀ x, Stays s (f x))
    (k : ∀ x, Stays s (g x)) : Stays s (if x : c then f x else g x) := by
  split
  · exact h _
  · exact k _

theorem Stays.foldl {α : Type} (h : Stays s t) {l : List α} {f : State → α → State}
    (k : ∀ u x, Stays s u → Stays s (f u x)) : Stays s (l.foldl f t) := by
  induction l generalizing t with
  | nil => exact h
  | cons x l ih => exact ih (k _ _ h)

theorem Stays.forEach (h : Stays s t) {l : List Nat} {f : State → Nat → State}
    (k : ∀ u i, Stays s u → Stays s (f u i)) : Stays s (t.forEach l f) := h.foldl k

theorem Stays.set (h : Stays s t) {x : Fld} {v : Nat} : Stays s (t.set x v) :=
  h.trans ⟨rfl, rfl, rfl, rfl, rfl, rfl, rfl, RegFile.set_rising _ _ _⟩

theorem Stays.withRaised (h : Stays s t) {x : List (Nat × Nat)} :
    Stays s { t with raised := x } := h.same rfl rfl rfl rfl rfl rfl rfl rfl

theorem Stays.withGroups (h : Stays s t) {x : Vector Group 32} :
    Stays s { t with groups := x } := h.same rfl rfl rfl rfl rfl rfl rfl rfl

theorem Stays.withEngines (h : Stays s t) {x : Vector Engine 32} :
    Stays s { t with engines := x } := h.same rfl rfl rfl rfl rfl rfl rfl rfl

theorem Stays.withFree (h : Stays s t) {x : Nat} :
    Stays s { t with free := x } := h.same rfl rfl rfl rfl rfl rfl rfl rfl

theorem Stays.withSys (h : Stays s t) {x : SysState} (e : x.boot = t.sys.boot) :
    Stays s { t with sys := x } := h.same rfl rfl rfl rfl rfl rfl e rfl

theorem Stays.withDisp (h : Stays s t) {x : List (Nat × DispEntry)} :
    Stays s { t with disp := x } := h.same rfl rfl rfl rfl rfl rfl rfl rfl

theorem Stays.withSn (h : Stays s t) {x : SnState} :
    Stays s { t with sn := x } := h.same rfl rfl rfl rfl rfl rfl rfl rfl

theorem Stays.withTw (h : Stays s t) {x : TwState} :
    Stays s { t with tw := x } := h.same rfl rfl rfl rfl rfl rfl rfl rfl

theorem Stays.withTp (h : Stays s t) {x : TpState} :
    Stays s { t with tp := x } := h.same rfl rfl rfl rfl rfl rfl rfl rfl

theorem Stays.count (h : Stays s t) {x : Fld} {n : Nat} : Stays s (t.count x n) := h.set

theorem Stays.setBit (h : Stays s t) {x : Fld} {i : Nat} {b : Bool} : Stays s (t.setBit x i b) := h.set

theorem Stays.note (h : Stays s t) {a i : Nat} : Stays s (t.note a i) := h.withRaised

theorem Stays.raise (h : Stays s t) {x : Fld} : Stays s (t.raise x) := h.set.note

theorem Stays.flag (h : Stays s t) {fl cnt : Fld} : Stays s (t.flag fl cnt) := h.raise.count

theorem Stays.setGroup (h : Stays s t) {g : Nat} {x : Group} : Stays s (t.setGroup g x) :=
  Stays.dite (fun _ => h.withGroups) (fun _ => h)

theorem Stays.setChan (h : Stays s t) {g p : Nat} {x : Chan} : Stays s (t.setChan g p x) :=
  Stays.dite (fun _ => h.setGroup) (fun _ => h)

theorem Stays.setEngine (h : Stays s t) {e : Nat} {x : Engine} : Stays s (t.setEngine e x) :=
  Stays.dite (fun _ => h.withEngines) (fun _ => h)

theorem Stays.burn (h : Stays s t) : Stays s t.burn := h.withFree

theorem Stays.setDispEntry (h : Stays s t) {e op : Nat} {x : DispEntry} : Stays s (t.setDispEntry e op x) :=
  h.withDisp

theorem Stays.noteElig (h : Stays s t) {e c : Nat} {l : List (Time × Nat)} : Stays s (t.noteElig e c l) := h.setEngine

theorem Stays.setCtx (h : Stays s t) {e c : Nat} {x : CtxState} {prio : Nat} : Stays s (t.setCtx e c x prio) :=
  Stays.ite h.set.set.setBit.noteElig h.set.set.setBit

theorem Stays.mapIv (h : Stays s t) {g id : Nat} {f : Interval → Interval} : Stays s (t.mapIv g id f) := h.setGroup

theorem Stays.mapSum (h : Stays s t) {g p id : Nat} {f : SumChan → SumChan} : Stays s (t.mapSum g p id f) := h.mapIv

theorem Stays.sumFlag (h : Stays s t) {g p id bit : Nat} : Stays s (t.sumFlag g p id bit) := h.mapSum

theorem Stays.within (h : Stays s t) {lo hi : Int} : Stays s (t.within lo hi).1 := h.burn

theorem Stays.snapRequestAt (h : Stays s t) {t0 : Time} {src : Nat} {late : optParam Bool false} :
    Stays s (t.snapRequestAt t0 src late) :=
  Stays.ite h.withSn h

theorem Stays.snapRequest (h : Stays s t) {src : Nat} : Stays s (t.snapRequest src) := h.snapRequestAt

theorem Stays.reform (h : Stays s t) {g p : Nat} {t0 : Time} : Stays s (t.reform g p t0) := h.setChan

theorem Stays.parkUpdate (h : Stays s t) {g p : Nat} : Stays s (t.parkUpdate g p) :=
  Stays.ite (Stays.ite h.setChan h.setChan.setBit) (Stays.ite h.setChan h)

theorem Stays.parkGroup (h : Stays s t) {g : Nat} : Stays s (t.parkGroup g) := h.forEach (fun _ _ h => h.parkUpdate)

theorem Stays.parkAll (h : Stays s t) : Stays s t.parkAll := h.forEach (fun _ _ h => h.parkGroup)

theorem Stays.holdAll (h : Stays s t) {on : Bool} : Stays s (t.holdAll on) := h.forEach (fun _ _ h => h.setGroup)

theorem Stays.twinStop (h : Stays s t) {role : Nat} : Stays s (t.twinStop role) := h.withTw.set.parkAll.holdAll

theorem Stays.setCmp (h : Stays s t) {g p : Nat} {x : Comparator} : Stays s (t.setCmp g p x) := h.setChan

theorem Stays.setTrip (h : Stays s t) {n : Nat} {x : Option (Nat × Bool)} : Stays s (t.setTrip n x) :=
  Stays.withSys h (by rfl)

theorem Stays.parkDie (h : Stays s t) {k : Nat} : Stays s (t.parkDie k) := h.forEach (fun _ _ h => h.parkGroup)

theorem Stays.tripNetwork (h : Stays s t) {k : Nat} : Stays s (t.tripNetwork k) := by
  refine Stays.parkDie (h.forEach fun u n h => ?_)
  dsimp only
  split
  · exact .ite h.setBit.setTrip h.setBit
  · exact h.setBit

theorem Stays.violUpdate (h : Stays s t) {g p : Nat} : Stays s (t.violUpdate g p) := Stays.ite h h.setBit.tripNetwork

theorem Stays.setDac (h : Stays s t) {g p d : Nat} {x : Dac} : Stays s (t.setDac g p d x) := h.setChan

theorem Stays.setOut (h : Stays s t) {g p d code : Nat} : Stays s (t.setOut g p d code) :=
  Stays.ite h (Stays.ite h.set.setChan.setCmp.violUpdate h.set.setChan)

theorem Stays.follow (h : Stays s t) {g p d : Nat} : Stays s (t.follow g p d) := by
  unfold State.follow
  exact Stays.ite h.setDac (by split; exacts [h.setDac, (Stays.ite h.setDac.setOut h.setDac)])

theorem Stays.retarget (h : Stays s t) {g p d : Nat} : Stays s (t.retarget g p d) := Stays.ite h h.follow

theorem Stays.retargetChan (h : Stays s t) {g p : Nat} : Stays s (t.retargetChan g p) :=
  h.forEach (fun _ _ h => h.retarget)

theorem Stays.retargetGroup (h : Stays s t) {g : Nat} : Stays s (t.retargetGroup g) :=
  h.forEach (fun _ _ h => h.retargetChan)

theorem Stays.leavePark (h : Stays s t) {g p : Nat} {t0 : Time} : Stays s (t.leavePark g p t0) :=
  h.setBit.setChan.reform

theorem Stays.showState (h : Stays s t) {g p : Nat} : Stays s (t.showState g p) := h.set

theorem Stays.laneUpdate (h : Stays s t) {g p : Nat} {t0 : Tick} : Stays s (t.laneUpdate g p t0) :=
  Stays.ite h h.setCmp

theorem Stays.rearmOnly (h : Stays s t) {g p : Nat} : Stays s (t.rearmOnly g p) :=
  h.setCmp.setBit.showState.laneUpdate

theorem Stays.rearm (h : Stays s t) {g p : Nat} : Stays s (t.rearm g p) := h.rearmOnly.violUpdate

theorem Stays.rearmGroup (h : Stays s t) {g : Nat} : Stays s (t.rearmGroup g) := h.forEach (fun _ _ h => h.rearm)

theorem Stays.tieSwitch (h : Stays s t) {g p : Nat} : Stays s (t.tieSwitch g p) := by
  unfold State.tieSwitch
  split; exacts [(Stays.ite h.setCmp h), h]

theorem Stays.smPeriod (h : Stays s t) : Stays s t.smPeriod.1 :=
  h.within (lo := ((160 * t.get (CP_SM_CTL_PER 0) * 100 + 101) / 102 : Nat))
    (hi := (160 * t.get (CP_SM_CTL_PER 0) * 100 / 98 : Nat))

theorem Stays.smStop (h : Stays s t) : Stays s t.smStop := Stays.withSys h.set (by rfl)

theorem Stays.smTurn (h : Stays s t) {t0 : Time} : Stays s (t.smTurn t0) := Stays.withSys h.smPeriod (by rfl)

theorem Stays.smTclk (h : Stays s t) : Stays s t.smTclk := by
  unfold State.smTclk
  split
  · exact Stays.ite (Stays.ite h.smStop h.smTurn) h
  · exact h

theorem Stays.scBegin (h : Stays s t) {g : Nat} {r : ScRun} : Stays s (t.scBegin g r) :=
  h.setGroup.forEach (fun _ _ h => h.rearm.tieSwitch)

theorem Stays.scTclk (h : Stays s t) {g : Nat} : Stays s (t.scTclk g) := by
  unfold State.scTclk
  split
  · exact Stays.ite h (by split; exacts [h.scBegin, h.setGroup])
  · exact h

theorem Stays.slotsPassed (h : Stays s t) {a b : Phase} : Stays s (t.slotsPassed a b) :=
  h.forEach (fun _ _ h => (Stays.ite h.withTp h))

theorem Stays.phaseMoved (h : Stays s t) {a : Phase} : Stays s (t.phaseMoved a) :=
  Stays.ite h h.slotsPassed.withEngines

theorem Stays.phaseTclk (h : Stays s t) : Stays s t.phaseTclk := Stays.ite h.withTp.phaseMoved h

theorem Stays.dskDrive (h : Stays s t) {g : Nat} {d : DskRun} : Stays s (t.dskDrive g d) :=
  h.setGroup.rearmGroup.retargetGroup.forEach (fun _ _ h => (Stays.ite h.leavePark h))

theorem Stays.dskTclk (h : Stays s t) {g : Nat} : Stays s (t.dskTclk g) := by
  unfold State.dskTclk
  split; exacts [(Stays.ite h.dskDrive h), h]

theorem Stays.noteNoen (h : Stays s t) {g : Nat} {b : Tick} : Stays s (t.noteNoen g b) := Stays.ite h h.setGroup.flag

theorem Stays.startWin (h : Stays s t) {g p i : Nat} {w : Win} : Stays s (t.startWin g p i w) :=
  Stays.ite (Stays.ite h.setChan h.setChan.noteNoen) (Stays.ite h.setChan (Stays.ite h.setChan.flag h.setChan))

theorem Stays.openWins (h : Stays s t) {g p : Nat} {now : Time} {n : Nat} : Stays s (t.openWins g p now n) := by
  induction n generalizing t with
  | zero => exact h
  | succ n ih =>
    unfold State.openWins
    split
    · split
      · exact ih h.startWin
      · exact h
    · exact h

theorem Stays.openDue (h : Stays s t) {g p : Nat} {t0 : Time} : Stays s (t.openDue g p t0) := h.openWins

theorem Stays.winTclk (h : Stays s t) {g : Nat} : Stays s (t.winTclk g) :=
  Stays.ite (h.forEach (fun _ _ h => h.openDue)) h

theorem Stays.srcTclk (h : Stays s t) : Stays s t.srcTclk := Stays.ite (h.forEach (fun _ _ h => h.within.set)) h

theorem Stays.showIv (h : Stays s t) {g : Nat} : Stays s (t.showIv g) := h.set.set

theorem Stays.openNext (h : Stays s t) {g : Nat} : Stays s (t.openNext g) := Stays.ite h.setGroup.showIv h

theorem Stays.takeTrips (h : Stays s t) {g : Nat} {iv : Interval} : Stays s (t.takeTrips g iv) :=
  Stays.setGroup (h.foldl (fun _ _ h => (h.forEach (fun _ _ h => h.sumFlag))))

theorem Stays.clearMeas (h : Stays s t) {g : Nat} : Stays s (t.clearMeas g) := h.forEach (fun _ _ h => h.setChan)

theorem Stays.endInterval (h : Stays s t) {e : Nat} {iv : Interval} : Stays s (t.endInterval e iv) :=
  h.takeTrips.mapIv.clearMeas.openNext

theorem Stays.endPast (h : Stays s t) {g : Nat} : Stays s (t.endPast g) := by
  unfold State.endPast
  exact h.forEach (fun _ _ h => (by split; exacts [(Stays.ite h.endInterval h), h]))

theorem Stays.endEarly (h : Stays s t) {g : Nat} : Stays s (t.endEarly g) := by
  unfold State.endEarly
  dsimp only
  split
  · exact .ite h h.setGroup.endPast
  · exact h

theorem Stays.setWp (h : Stays s t) {g : Nat} {x : Player} : Stays s (t.setWp g x) := h.setGroup

theorem Stays.wpDue (h : Stays s t) {g n : Nat} : Stays s (t.wpDue g n) := Stays.ite h.setWp h

theorem Stays.wpUpdatePhase (h : Stays s t) {g : Nat} {useIt : Bool} : Stays s (t.wpUpdatePhase g useIt) :=
  Stays.ite h.setWp.wpDue h.setWp

theorem Stays.wpUpdate (h : Stays s t) {g : Nat} : Stays s (t.wpUpdate g) :=
  Stays.ite (Stays.ite h.wpUpdatePhase h) (Stays.wpDue (Stays.setWp (Stays.ite h.wpUpdatePhase h)))

theorem Stays.wpTclk (h : Stays s t) : Stays s t.wpTclk := Stays.ite (h.forEach (fun _ _ h => h.wpUpdate)) h

theorem Stays.setWait (h : Stays s t) {l c : Nat} {w : Option Wait} : Stays s (t.setWait l c w) := h.setEngine

theorem Stays.engGoIdle (h : Stays s t) {l : Nat} : Stays s (t.engGoIdle l) := h.set.set.setEngine

theorem Stays.selfPark (h : Stays s t) : Stays s t.selfPark := Stays.ite h.twinStop h

theorem Stays.mchkCount (h : Stays s t) {cause : Nat} : Stays s (t.mchkCount cause) :=
  Stays.ite h.flag (Stays.ite h.flag h.flag)

theorem Stays.stopEngine (h : Stays s t) {m : Nat} : Stays s (t.stopEngine m) :=
  h.setBit.set.setGroup.endEarly.parkGroup

theorem Stays.machineCheck (h : Stays s t) {l cause slices entry : Nat} :
    Stays s (t.machineCheck l cause slices entry) :=
  Stays.selfPark (Stays.snapRequest (h.set.set.set.set.mchkCount.forEach (fun _ _ h => h.stopEngine)))

theorem Stays.scrubDisp (h : Stays s t) {e op : Nat} : Stays s (t.scrubDisp e op) := by
  unfold State.scrubDisp
  exact Stays.ite h (by split; exacts [h.setDispEntry.flag, h.flag])

theorem Stays.holdTo (h : Stays s t) {l : Nat} {b : Tick} : Stays s (t.holdTo l b) := h.setEngine

theorem Stays.fetchDisp (h : Stays s t) {l op : Nat} : Stays s (t.fetchDisp l op) := Stays.ite h.scrubDisp h

theorem Stays.dispatch (h : Stays s t) {l c : Nat} : Stays s (t.dispatch l c) :=
  Stays.ite h.fetchDisp.machineCheck h.fetchDisp.setEngine

theorem Stays.programClamp (h : Stays s t) {l pc : Nat} : Stays s (t.programClamp l pc) := h.count.raise.set

theorem Stays.cutClamp (h : Stays s t) {l c : Nat} : Stays s (t.cutClamp l c) := Stays.ite h.programClamp.setEngine h

theorem Stays.switchTo (h : Stays s t) {l c : Nat} {w : Time} : Stays s (t.switchTo l c w) := by
  unfold State.switchTo
  extract_lets _ left _ entered _ taken
  have stopped : Stays s left := by
    unfold left
    split
    · exact h.cutClamp.setCtx.noteElig
    · exact h
  have ready : Stays s taken := stopped.setCtx.set.set.setEngine
  exact .ite ready.set ready.set.dispatch

theorem Stays.haltNow (h : Stays s t) {l c : Nat} : Stays s (t.haltNow l c) := h.cutClamp.engGoIdle.setCtx.setWait

theorem Stays.holdRun (h : Stays s t) {l : Nat} {d n : Time} {p : Option Nat} (e : t.holdRun l d n p = some u) :
    Stays s u := by
  simp only [State.holdRun, Option.ite_none_right_eq_some, Option.map_eq_some_iff] at e
  obtain ⟨-, c, -, rfl⟩ := e
  exact h.holdTo.switchTo

/-- What a choice that may be missing leaves. -/
theorem Stays.getD (h : Stays s t) {o : Option State} (k : ∀ u, o = some u → Stays s u) : Stays s (o.getD t) := by
  cases o with
  | none => exact h
  | some u => exact k u rfl

theorem Stays.holdDecide (h : Stays s t) {l c : Nat} {bound : Option Time} (e : t.holdDecide l c bound = some u) :
    Stays s u := by
  unfold State.holdDecide at e
  dsimp only at e
  split at e
  · simp only [Option.ite_none_right_eq_some, Option.some.injEq] at e
    obtain ⟨-, rfl⟩ := e
    exact h.haltNow.setEngine.getD fun _ e => h.haltNow.setEngine.holdRun e
  · simp only [Option.bind_eq_some_iff, Option.ite_none_right_eq_some] at e
    obtain ⟨n, -, -, e⟩ := e
    exact h.holdRun e

theorem Stays.slotDecide (h : Stays s t) {l c : Nat} : Stays s (t.slotDecide l c) := by
  unfold State.slotDecide
  dsimp only
  refine .ite (.ite ?_ ?_) h <;> split
  · exact h.haltNow.switchTo
  · exact h.haltNow
  · exact h.switchTo
  · exact h

theorem Stays.takeDecision (h : Stays s t) {l : Nat} : Stays s (t.takeDecision l) := by
  refine .ite h ?_
  split
  · refine .ite h (.ite h ?_)
    split
    · exact h.switchTo
    · refine h.getD fun u e => ?_
      obtain ⟨n, -, e⟩ := Option.bind_eq_some_iff.1 e
      exact h.holdRun e
  · split
    · exact h
    · exact h.getD fun _ e => h.holdDecide e
    · refine h.slotDecide.getD fun u e => ?_
      rw [Option.ite_none_right_eq_some] at e
      exact h.holdDecide e.2

theorem Stays.ochPark (h : Stays s t) {g : Nat} : Stays s (t.ochPark g) := h.setGroup.parkGroup

theorem Stays.ochDue (h : Stays s t) {g : Nat} : Stays s (t.ochDue g) := by
  unfold State.ochDue
  split
  · exact Stays.ite h.ochPark h
  · exact Stays.ite h h.ochPark
  · exact h

theorem Stays.groupTclk (h : Stays s t) {g : Nat} : Stays s (t.groupTclk g) := h.dskTclk.scTclk.winTclk.ochDue

/-- What a TCLK does, past the count of TIME. -/
theorem State.stays_tclk (s : State) (b : s.get GL_STATUS_BOOT ≠ 0) :
    Stays { s with time := s.time + 1, raised := [] } s.tclk := by
  rw [State.tclk, if_neg b]
  exact (Stays.refl _).phaseTclk.wpTclk.smTclk.srcTclk.forEach (fun _ _ h => h.groupTclk) |>.forEach fun _ _ h => h.takeDecision

/-! ### Parts that the forms do not speak of -/

theorem Keeps.withGroups (h : Keeps s t) {x : Vector Group 32} :
    Keeps s { t with groups := x } := h.same rfl rfl rfl rfl rfl rfl

theorem Keeps.withFree (h : Keeps s t) {x : Nat} :
    Keeps s { t with free := x } := h.same rfl rfl rfl rfl rfl rfl

theorem Keeps.withOut (h : Keeps s t) {x : List Output} :
    Keeps s { t with out := x } := h.same rfl rfl rfl rfl rfl rfl

theorem Keeps.withSys (h : Keeps s t) {x : SysState} (e : x.boot = t.sys.boot) :
    Keeps s { t with sys := x } := h.same rfl rfl rfl rfl rfl e

theorem Keeps.withCs (h : Keeps s t) {x : List (Nat × CsEntry)} :
    Keeps s { t with cs := x } := h.same rfl rfl rfl rfl rfl rfl

theorem Keeps.withSn (h : Keeps s t) {x : SnState} :
    Keeps s { t with sn := x } := h.same rfl rfl rfl rfl rfl rfl

theorem Keeps.withHi (h : Keeps s t) {x : HiState} :
    Keeps s { t with hi := x } := h.same rfl rfl rfl rfl rfl rfl

theorem Keeps.withCl (h : Keeps s t) {x : ClState} :
    Keeps s { t with cl := x } := h.same rfl rfl rfl rfl rfl rfl

theorem Keeps.withTw (h : Keeps s t) {x : TwState} :
    Keeps s { t with tw := x } := h.same rfl rfl rfl rfl rfl rfl

theorem Keeps.withTp (h : Keeps s t) {x : TpState} :
    Keeps s { t with tp := x } := h.same rfl rfl rfl rfl rfl rfl

theorem Keeps.withTpSlotAt (h : Keeps s t) {x : TpState} {x1 : Vector (Option Time) 16} :
    Keeps s { t with tp := x, slotAt := x1 } := h.same rfl rfl rfl rfl rfl rfl

theorem Keeps.withTrigs (h : Keeps s t) {x : Vector TrigEngine 4} :
    Keeps s { t with trigs := x } := h.same rfl rfl rfl rfl rfl rfl

theorem Keeps.withTrigOut (h : Keeps s t) {x : Vector (List (Time × Time)) 2} :
    Keeps s { t with trigOut := x } := h.same rfl rfl rfl rfl rfl rfl

theorem Keeps.withImgEntriesImgDispCsDisp (h : Keeps s t) {x : List (BitVec 144)} {x1 : List (BitVec 16)}
    {x2 : List (Nat × CsEntry)} {x3 : List (Nat × DispEntry)} :
    Keeps s { t with imgEntries := x, imgDisp := x1, cs := x2, disp := x3 } := h.same rfl rfl rfl rfl rfl rfl

theorem Keeps.withDg (h : Keeps s t) {x : DgState} :
    Keeps s { t with dg := x } := h.same rfl rfl rfl rfl rfl rfl

theorem Keeps.withCm (h : Keeps s t) {x : Option CmReq} :
    Keeps s { t with cm := x } := h.same rfl rfl rfl rfl rfl rfl

theorem Keeps.withBallot (h : Keeps s t) {x : Option Ballot} :
    Keeps s { t with ballot := x } := h.same rfl rfl rfl rfl rfl rfl

theorem Keeps.withTpGroupsEnginesHiDgClTwSysTrigOutTime (h : Keeps s t) {x : TpState} {x1 : Vector Group 32}
    {x2 : Vector Engine 32} {x3 : HiState} {x4 : DgState} {x5 : ClState} {x6 : TwState}
    {x7 : SysState} {x8 : Vector (List (Time × Time)) 2} {x9 : Time} (e : x7.boot = t.sys.boot) :
    Keeps s { t with
      tp := x, groups := x1, engines := x2, hi := x3, dg := x4,
      cl := x5, tw := x6, sys := x7, trigOut := x8, time := x9 } := h.same rfl rfl rfl rfl rfl e

theorem Keeps.withTime (h : Keeps s t) {x : Time} :
    Keeps s { t with time := x } := h.same rfl rfl rfl rfl rfl rfl

theorem Keeps.withTrigsTrigOut (h : Keeps s t) {x : Vector TrigEngine 4} {x1 : Vector (List (Time × Time)) 2} :
    Keeps s { t with trigs := x, trigOut := x1 } := h.same rfl rfl rfl rfl rfl rfl

theorem Keeps.withRaisedTime (h : Keeps s t) {x : List (Nat × Nat)} {x1 : Time} :
    Keeps s { t with raised := x, time := x1 } := h.same rfl rfl rfl rfl rfl rfl

/-! ### The operations, in the order of the model -/

theorem Keeps.setInt (h : Keeps s t) {x : Fld} {v : Int} : Keeps s (t.setInt x v) := h.set

theorem Keeps.count (h : Keeps s t) {x : Fld} {n : Nat} : Keeps s (t.count x n) := h.trans (Stays.refl t).count.keeps

theorem Keeps.incr (h : Keeps s t) {x : Fld} : Keeps s (t.incr x) := h.set

theorem Keeps.setBit (h : Keeps s t) {x : Fld} {i : Nat} {b : Bool} : Keeps s (t.setBit x i b) :=
  h.trans (Stays.refl t).setBit.keeps

theorem Keeps.note (h : Keeps s t) {a i : Nat} : Keeps s (t.note a i) := h.trans (Stays.refl t).note.keeps

theorem Keeps.raise (h : Keeps s t) {x : Fld} : Keeps s (t.raise x) := h.trans (Stays.refl t).raise.keeps

theorem Keeps.raiseBit (h : Keeps s t) {x : Fld} {i : Nat} : Keeps s (t.raiseBit x i) := h.setBit.note

theorem Keeps.flag (h : Keeps s t) {fl cnt : Fld} : Keeps s (t.flag fl cnt) := h.trans (Stays.refl t).flag.keeps

theorem Keeps.setTime (h : Keeps s t) {lo hi : Fld} {t0 : Time} : Keeps s (t.setTime lo hi t0) := h.set.set

theorem Keeps.setGroup (h : Keeps s t) {g : Nat} {x : Group} : Keeps s (t.setGroup g x) :=
  h.trans (Stays.refl t).setGroup.keeps

theorem Keeps.setChan (h : Keeps s t) {g p : Nat} {x : Chan} : Keeps s (t.setChan g p x) :=
  h.trans (Stays.refl t).setChan.keeps

theorem Keeps.setEngine (h : Keeps s t) {e : Nat} {x : Engine} : Keeps s (t.setEngine e x) :=
  h.trans (Stays.refl t).setEngine.keeps

theorem Keeps.burn (h : Keeps s t) : Keeps s t.burn := h.trans (Stays.refl t).burn.keeps

theorem Keeps.emit (h : Keeps s t) {o : Output} : Keeps s (t.emit o) := h.withOut

theorem Keeps.sramRead (h : Keeps s t) {m : Nat} {ecc : EccResult} : Keeps s (t.sramRead m ecc) := by
  unfold State.sramRead
  split
  · exact h
  · exact Keeps.withSys h (by rfl)
  · exact Keeps.withSys h (by rfl)

theorem Keeps.setCsEntry (h : Keeps s t) {e i : Nat} {x : CsEntry} : Keeps s (t.setCsEntry e i x) := h.withCs

theorem Keeps.setDispEntry (h : Keeps s t) {e op : Nat} {x : DispEntry} : Keeps s (t.setDispEntry e op x) :=
  h.trans (Stays.refl t).setDispEntry.keeps

theorem Keeps.noteElig (h : Keeps s t) {e c : Nat} {l : List (Time × Nat)} : Keeps s (t.noteElig e c l) :=
  h.trans (Stays.refl t).noteElig.keeps

theorem Keeps.setCtx (h : Keeps s t) {e c : Nat} {x : CtxState} {prio : Nat} : Keeps s (t.setCtx e c x prio) :=
  h.trans (Stays.refl t).setCtx.keeps

theorem Keeps.setPrio (h : Keeps s t) {e c p : Nat} : Keeps s (t.setPrio e c p) :=
  Keeps.ite h.set.set (Keeps.ite h.set.noteElig h.set)

theorem Keeps.dropCause (h : Keeps s t) {e : Nat} : Keeps s (t.dropCause e) := h.flag

theorem Keeps.cause (h : Keeps s t) {e c p : Nat} {k : CauseKind} : Keeps s (t.cause e c p k) := by
  have noted := h.raiseBit (x := SQ_CTX_STAT_CAUSE (t.leader e) c) (i := k.bit)
  have flagged := Keeps.ite (c := (k == .phase) = true) (noted.raise (x := SQ_CTX_FLAGS_PHR (t.leader e) c)) noted
  refine .ite h.dropCause ?_
  split
  · exact flagged.setCtx
  · exact flagged.setPrio

theorem Keeps.causeMask (h : Keeps s t) {mask c p : Nat} {k : CauseKind} : Keeps s (t.causeMask mask c p k) :=
  h.forEach (fun _ _ h => h.cause)

theorem Keeps.causeRouted (h : Keeps s t) {en ctx prio : Fld} {e : Nat} {k : CauseKind} :
    Keeps s (t.causeRouted en ctx prio e k) :=
  Keeps.ite h.cause h

theorem Keeps.causePhaseLoss (h : Keeps s t) : Keeps s t.causePhaseLoss := h.forEach (fun _ _ h => h.causeRouted)

theorem Keeps.mapIv (h : Keeps s t) {g id : Nat} {f : Interval → Interval} : Keeps s (t.mapIv g id f) :=
  h.trans (Stays.refl t).mapIv.keeps

theorem Keeps.mapSum (h : Keeps s t) {g p id : Nat} {f : SumChan → SumChan} : Keeps s (t.mapSum g p id f) :=
  h.trans (Stays.refl t).mapSum.keeps

theorem Keeps.sumFlag (h : Keeps s t) {g p id bit : Nat} : Keeps s (t.sumFlag g p id bit) :=
  h.trans (Stays.refl t).sumFlag.keeps

theorem Keeps.quotient (h : Keeps s t) {num : Int} {den : Nat} : Keeps s (t.quotient num den).1 :=
  Keeps.ite_fst h h.burn

theorem Keeps.within (h : Keeps s t) {lo hi : Int} : Keeps s (t.within lo hi).1 := h.trans (Stays.refl t).within.keeps

theorem Keeps.clampNote (h : Keeps s t) {addr : Nat} : Keeps s (t.clampNote addr) := h.count.set

theorem Keeps.setClamped (h : Keeps s t) {x : Fld} {v lo hi : Nat} : Keeps s (t.setClamped x v lo hi) :=
  Keeps.ite h.set.clampNote h.set

theorem Keeps.snapRequestAt (h : Keeps s t) {t0 : Time} {src : Nat} {late : optParam Bool false} :
    Keeps s (t.snapRequestAt t0 src late) := h.trans (Stays.refl t).snapRequestAt.keeps

theorem Keeps.snapRequest (h : Keeps s t) {src : Nat} : Keeps s (t.snapRequest src) :=
  h.trans (Stays.refl t).snapRequest.keeps

theorem Keeps.setRing (h : Keeps s t) {r : Nat} {x : Ring} : Keeps s (t.setRing r x) := h.withHi

theorem Keeps.ringLose (h : Keeps s t) {r unit n words : Nat} : Keeps s (t.ringLose r unit n words) :=
  Keeps.ite h.setRing.count h.setRing.count.flag

theorem Keeps.ringRecord (h : Keeps s t) {r : Nat} {ws : List Native} : Keeps s (t.ringRecord r ws) :=
  Keeps.ite h.setRing h.ringLose

theorem Keeps.setPort (h : Keeps s t) {x : Nat} {p : Port} : Keeps s (t.setPort x p) := h.withCl

theorem Keeps.sendPacket (h : Keeps s t) {x : Nat} {p : Packet} : Keeps s (t.sendPacket x p) :=
  Keeps.ite h.setPort h.count.raise

theorem Keeps.broadcast (h : Keeps s t) {sub arg : Nat} {payload : List Native} :
    Keeps s (t.broadcast sub arg payload) :=
  h.sendPacket.sendPacket

theorem Keeps.sendUp (h : Keeps s t) {sub arg : Nat} {payload : List Native} : Keeps s (t.sendUp sub arg payload) :=
  h.sendPacket

theorem Keeps.routePacket (h : Keeps s t) {p : Packet} : Keeps s (t.routePacket p) := by
  unfold State.routePacket
  split; exacts [h.sendPacket, h.count.raise]

theorem Keeps.sendLink (h : Keeps s t) {x : Nat} {m : LinkMsg} : Keeps s (t.sendLink x m) := h.emit

theorem Keeps.dgStale (h : Keeps s t) : Keeps s t.dgStale := h.set

theorem Keeps.mirrored (h : Keeps s t) {addr : Nat} {v : Word} {act : State → State}
    (k : ∀ u, Keeps s u → Keeps s (act u)) : Keeps s (t.mirrored addr v act) :=
  .ite h (.ite h.withTw.sendLink (.ite h.flag (k t h)))

theorem Keeps.sendVector (h : Keeps s t) {v : Nat} : Keeps s (t.sendVector v) := Keeps.ite h.setBit h.emit

theorem Keeps.signal (h : Keeps s t) {causes : List Nat} : Keeps s (t.signal causes) :=
  h.forEach (fun _ _ h => h.sendVector)

theorem Keeps.crossingEnters (h : Keeps s t) {xid : Nat} : Keeps s (t.crossingEnters xid) := Keeps.withSys h (by rfl)

theorem Keeps.formChannel (h : Keeps s t) {g p : Nat} {b : Tick} {f : ChanForm} : Keeps s (t.formChannel g p b f) :=
  Keeps.ite h.setChan.flag h.setChan

theorem Keeps.formVector (h : Keeps s t) {g : Nat} {i : Issued} {b : Tick} : Keeps s (t.formVector g i b) :=
  Keeps.forEach (Keeps.setGroup (Keeps.ite (Keeps.flag (Keeps.ite h h.flag)) (Keeps.ite h h.flag))) (fun _ _ h =>
    h.formChannel)

theorem Keeps.calEdge (h : Keeps s t) {ofs : Int} : Keeps s (t.calEdge ofs) :=
  Keeps.incr (Keeps.setInt (Keeps.quotient (Keeps.withSys h (by rfl))))

theorem Keeps.execCalExtEdge {ofs : BitVec 24} : RunsTo (execCalExtEdge ofs s) (Keeps s) :=
  Keeps.doneIf (Keeps.refl s).calEdge

theorem Keeps.execCalExtTimeout : RunsTo (execCalExtTimeout s) (Keeps s) :=
  Keeps.doneIf (Keeps.withSys (Keeps.refl s) (by rfl))

theorem Keeps.writeCal (h : Keeps s t) {v : Word} : Keeps s (t.writeCal v) := Keeps.withSys h.set.set.set (by rfl)

theorem Keeps.execCalArm {v : Word} : RunsTo (execCalArm v s) (Keeps s) := Keeps.hostDone (Keeps.refl s).writeCal

theorem Keeps.execCalOutEdge : RunsTo (execCalOutEdge s) (Keeps s) := by
  unfold Machine.execCalOutEdge
  exact Keeps.done (by split; exacts [(Keeps.ite (Keeps.withSys (Keeps.refl s).emit (by rfl)) (Keeps.refl s)),
    (Keeps.refl s)])

theorem Keeps.parkUpdate (h : Keeps s t) {g p : Nat} : Keeps s (t.parkUpdate g p) :=
  h.trans (Stays.refl t).parkUpdate.keeps

theorem Keeps.parkGroup (h : Keeps s t) {g : Nat} : Keeps s (t.parkGroup g) := h.trans (Stays.refl t).parkGroup.keeps

theorem Keeps.parkAll (h : Keeps s t) : Keeps s t.parkAll := h.trans (Stays.refl t).parkAll.keeps

theorem Keeps.holdAll (h : Keeps s t) {on : Bool} : Keeps s (t.holdAll on) := h.trans (Stays.refl t).holdAll.keeps

theorem Keeps.twinStop (h : Keeps s t) {role : Nat} : Keeps s (t.twinStop role) := h.trans (Stays.refl t).twinStop.keeps

theorem Keeps.setCmp (h : Keeps s t) {g p : Nat} {x : Comparator} : Keeps s (t.setCmp g p x) :=
  h.trans (Stays.refl t).setCmp.keeps

theorem Keeps.setTrip (h : Keeps s t) {n : Nat} {x : Option (Nat × Bool)} : Keeps s (t.setTrip n x) :=
  h.trans (Stays.refl t).setTrip.keeps

theorem Keeps.parkDie (h : Keeps s t) {k : Nat} : Keeps s (t.parkDie k) := h.trans (Stays.refl t).parkDie.keeps

theorem Keeps.tripNetwork (h : Keeps s t) {k : Nat} : Keeps s (t.tripNetwork k) :=
  h.trans (Stays.refl t).tripNetwork.keeps

theorem Keeps.violUpdate (h : Keeps s t) {g p : Nat} : Keeps s (t.violUpdate g p) :=
  h.trans (Stays.refl t).violUpdate.keeps

theorem Keeps.setDac (h : Keeps s t) {g p d : Nat} {x : Dac} : Keeps s (t.setDac g p d x) :=
  h.trans (Stays.refl t).setDac.keeps

theorem Keeps.setOut (h : Keeps s t) {g p d code : Nat} : Keeps s (t.setOut g p d code) :=
  h.trans (Stays.refl t).setOut.keeps

theorem Keeps.follow (h : Keeps s t) {g p d : Nat} : Keeps s (t.follow g p d) := h.trans (Stays.refl t).follow.keeps

theorem Keeps.retarget (h : Keeps s t) {g p d : Nat} : Keeps s (t.retarget g p d) :=
  h.trans (Stays.refl t).retarget.keeps

theorem Keeps.retargetChan (h : Keeps s t) {g p : Nat} : Keeps s (t.retargetChan g p) :=
  h.trans (Stays.refl t).retargetChan.keeps

theorem Keeps.retargetGroup (h : Keeps s t) {g : Nat} : Keeps s (t.retargetGroup g) :=
  h.trans (Stays.refl t).retargetGroup.keeps

theorem Keeps.slew (h : Keeps s t) {g p d : Nat} {at_ : Time} : Keeps s (t.slew g p d at_) := h.setOut.setDac

theorem Keeps.execSlewStep {g : GroupIx} {p : Pos} {d : Fin 6} : RunsTo (execSlewStep g p d s) (Keeps s) := by
  unfold Machine.execSlewStep
  exact Keeps.done (by split; exacts [(Keeps.ite (Keeps.refl s).slew (Keeps.refl s)), (Keeps.refl s)])

theorem Keeps.execDeglitchHoldEnd {g : GroupIx} {p : Pos} {d : Fin 6} : RunsTo (execDeglitchHoldEnd g p d s) (Keeps s) := by
  unfold Machine.execDeglitchHoldEnd
  exact Keeps.done (by split; exacts [(Keeps.ite (Keeps.setOut (Keeps.refl s).setDac) (Keeps.refl s)), (Keeps.refl
    s)])

theorem Keeps.leavePark (h : Keeps s t) {g p : Nat} {t0 : Time} : Keeps s (t.leavePark g p t0) :=
  h.trans (Stays.refl t).leavePark.keeps

theorem Keeps.execParkExit {g : GroupIx} {p : Pos} : RunsTo (execParkExit g p s) (Keeps s) := by
  unfold Machine.execParkExit
  exact Keeps.done (by split; exacts [(Keeps.refl s).leavePark, (Keeps.refl s)])

theorem Keeps.writePinEnable (h : Keeps s t) {v : Word} : Keeps s (t.writePinEnable v) := h.set.set.parkAll

theorem Keeps.execPinEnableWrite {v : Word} : RunsTo (execPinEnableWrite v s) (Keeps s) :=
  Keeps.done (Keeps.refl s).writePinEnable

theorem Keeps.writeLsPark (h : Keeps s t) {g : Nat} {v : Word} : Keeps s (t.writeLsPark g v) := h.set.parkGroup

theorem Keeps.writeClr (h : Keeps s t) {g p d : Nat} {v : Word} : Keeps s (t.writeClr g p d v) :=
  h.set.retarget.dgStale

theorem Keeps.execLsParkWrite {g : GroupIx} {v : Word} : RunsTo (execLsParkWrite g v s) (Keeps s) :=
  Keeps.done ((Keeps.refl s).mirrored (fun _ h => h.writeLsPark))

theorem Keeps.execClearCodeWrite {g : GroupIx} {p : Pos} {d : Fin 6} {v : Word} :
    RunsTo (execClearCodeWrite g p d v s) (Keeps s) :=
  Keeps.done ((Keeps.refl s).mirrored (fun _ h => h.writeClr))

theorem Keeps.dieSetWord (h : Keeps s t) {r q : Reg} {v w : Word} :
    Keeps s { t with die := (t.die.setWord r v).setWord q w } :=
  h.ofDie fun k => RegFile.setWord_rising _ _ _ (RegFile.setWord_rising _ _ _ k)

theorem Keeps.rangeArrives (h : Keeps s t) {g p : Nat} {drv pmu oldDrv oldPmu : Word} :
    Keeps s (t.rangeArrives g p drv pmu oldDrv oldPmu) :=
  .ite h.dieSetWord.setChan h.dieSetWord.setChan.setBit.parkUpdate

theorem Keeps.dieCopyRange (h : Keeps s t) {f : RegFile} {a b : Nat} :
    Keeps s { t with die := t.die.copyRange f a b } := h.ofDie (RegFile.copyRange_rising _ _ _ _)

theorem Keeps.lsLoad (h : Keeps s t) {g : Nat} {regs : RegFile} : Keeps s (t.lsLoad g regs) :=
  h.dieCopyRange.forEach fun _ _ h => h.rangeArrives

theorem Keeps.dieArrives (h : Keeps s t) {g : Nat} {t0 : Time} : Keeps s (t.dieArrives g t0) := by
  unfold State.dieArrives
  exact Keeps.forEach (Keeps.foldl (by split; exacts [h.setGroup.set, h.setGroup]) (fun _ _ h => h.lsLoad)) (fun _ _ h
    => (h.forEach (fun _ _ h => (Keeps.ite h.retarget h.follow))))

theorem Keeps.execLevelSelectChange {g : GroupIx} : RunsTo (execLevelSelectChange g s) (Keeps s) := by
  unfold Machine.execLevelSelectChange
  exact Keeps.done (by split; exacts [(Keeps.ite (Keeps.refl s).dieArrives (Keeps.refl s)), (Keeps.refl s)])

theorem Keeps.execLsCommitEffect {g : GroupIx} : RunsTo (execLsCommitEffect g s) (Keeps s) := by
  unfold Machine.execLsCommitEffect
  exact Keeps.done (by split; exacts [(Keeps.ite (Keeps.refl s).dieArrives (Keeps.refl s)), (Keeps.refl s)])

theorem Keeps.execRangeChangeEnd {g : GroupIx} {p : Pos} : RunsTo (execRangeChangeEnd g p s) (Keeps s) := by
  have h := Keeps.refl s
  refine Keeps.done ?_
  split
  · exact .ite h.dieSetWord.setChan.setBit.parkUpdate h
  · exact h

theorem Keeps.execRailMeasure {k : DieIx} {vdrp vdrn : BitVec 16} : RunsTo (execRailMeasure k vdrp vdrn s) (Keeps s) :=
  Keeps.done (Keeps.ite (Keeps.flag (Keeps.set (Keeps.refl s).set)) (Keeps.set (Keeps.refl s).set))

theorem Keeps.execIlimEpisode {g : GroupIx} {p : Pos} : RunsTo (execIlimEpisode g p s) (Keeps s) :=
  Keeps.doneIf (Keeps.flag (Keeps.refl s).raiseBit)

theorem Keeps.measResult (h : Keeps s t) {g p : Nat} {value : Int} {stat : Nat} :
    Keeps s (t.measResult g p value stat) := by
  refine Keeps.ite ?same (Keeps.setChan ?same)
  exact Keeps.ite h.setInt.set.incr.flag (Keeps.ite h.setInt.set.incr.flag (Keeps.ite h.setInt.set.incr.flag
    h.setInt.set.incr))

theorem Keeps.measRequest (h : Keeps s t) {g p : Nat} : Keeps s (t.measRequest g p) :=
  Keeps.ite h.measResult (Keeps.ite h.flag h.setChan)

theorem Keeps.measMask (h : Keeps s t) {g mask : Nat} : Keeps s (t.measMask g mask) :=
  h.forEach (fun _ _ h => h.measRequest)

theorem Keeps.execMeasRequestWrite {g : GroupIx} {v : Word} : RunsTo (execMeasRequestWrite g v s) (Keeps s) :=
  Keeps.done ((Keeps.refl s).mirrored (fun _ h => h.measMask))

theorem Keeps.execMeasAutoRequest {g : GroupIx} {p : Pos} : RunsTo (execMeasAutoRequest g p s) (Keeps s) :=
  Keeps.doneIf (Keeps.refl s).measRequest

theorem Keeps.measTake (h : Keeps s t) {g j p : Nat} : Keeps s (t.measTake g j p) := h.setChan.setGroup

theorem Keeps.execMeasStart {g : GroupIx} {j : Fin 2} : RunsTo (execMeasStart g j s) (Keeps s) := by
  unfold Machine.execMeasStart
  exact Keeps.done (Keeps.ite (Keeps.refl s) (by split; exacts [(Keeps.refl s).measTake, (Keeps.refl s)]))

theorem Keeps.execMeasComplete {g : GroupIx} {j : Fin 2} {samples : List (BitVec 18)} {clamped : Bool} :
    RunsTo (execMeasComplete g j samples clamped s) (Keeps s) := by
  unfold Machine.execMeasComplete
  exact Keeps.done (by split; exacts [(Keeps.ite (Keeps.measResult (Keeps.refl s).setGroup) (Keeps.refl s)),
    (Keeps.refl s)])

theorem Keeps.cmpSwitch (h : Keeps s t) {g p : Nat} {v : Int} : Keeps s (t.cmpSwitch g p v) := h.setCmp

theorem Keeps.showState (h : Keeps s t) {g p : Nat} : Keeps s (t.showState g p) :=
  h.trans (Stays.refl t).showState.keeps

theorem Keeps.laneUpdate (h : Keeps s t) {g p : Nat} {t0 : Tick} : Keeps s (t.laneUpdate g p t0) :=
  h.trans (Stays.refl t).laneUpdate.keeps

theorem Keeps.rearmOnly (h : Keeps s t) {g p : Nat} : Keeps s (t.rearmOnly g p) :=
  h.trans (Stays.refl t).rearmOnly.keeps

theorem Keeps.rearm (h : Keeps s t) {g p : Nat} : Keeps s (t.rearm g p) := h.trans (Stays.refl t).rearm.keeps

theorem Keeps.rearmGroup (h : Keeps s t) {g : Nat} : Keeps s (t.rearmGroup g) := h.trans (Stays.refl t).rearmGroup.keeps

theorem Keeps.filterStep (h : Keeps s t) {g p : Nat} : Keeps s (t.filterStep g p) := by
  unfold State.filterStep
  dsimp only
  split
  · exact h.setCmp.setBit.showState.laneUpdate.violUpdate
  · exact .ite h.setCmp.flag h.setCmp

theorem Keeps.tieSwitch (h : Keeps s t) {g p : Nat} : Keeps s (t.tieSwitch g p) :=
  h.trans (Stays.refl t).tieSwitch.keeps

theorem Keeps.execComparatorSwitch {g : GroupIx} {p : Pos} {v : PinLevel} :
    RunsTo (execComparatorSwitch g p v s) (Keeps s) :=
  Keeps.doneIf (Keeps.violUpdate (Keeps.laneUpdate (Keeps.refl s).cmpSwitch))

theorem Keeps.execFilterSample {g : GroupIx} {p : Pos} : RunsTo (execFilterSample g p s) (Keeps s) :=
  Keeps.doneIf (Keeps.filterStep (Keeps.refl s).tieSwitch)

theorem Keeps.sampledTick (h : Keeps s t) {g p : Nat} {fresh : Bool} {v : Int} : Keeps s (t.sampledTick g p fresh v) :=
  Keeps.ite (Keeps.filterStep (Keeps.cmpSwitch (Keeps.ite h.setCmp h))) h

theorem Keeps.execSampleTick {g : GroupIx} {volts : List Int} : RunsTo (execSampleTick g volts s) (Keeps s) :=
  Keeps.doneIf (Keeps.forEach (Keeps.withSys (Keeps.refl s) (by rfl)) (fun _ _ h => h.sampledTick))

theorem Keeps.smStart (h : Keeps s t) : Keeps s t.smStart := Keeps.withSys h.within.set (by rfl)

theorem Keeps.smStop (h : Keeps s t) : Keeps s t.smStop := h.trans (Stays.refl t).smStop.keeps

theorem Keeps.smSetLeft (h : Keeps s t) {n : Option Nat} : Keeps s (t.smSetLeft n) := Keeps.withSys h (by rfl)

theorem Keeps.smWake (h : Keeps s t) : Keeps s t.smWake :=
  Keeps.ite h (Keeps.ite h.smStart.count (Keeps.ite h.smSetLeft.count h))

theorem Keeps.writeSmCtl (h : Keeps s t) {v : Word} : Keeps s (t.writeSmCtl v) := by
  refine Keeps.dgStale (Keeps.ite (Keeps.smWake ?same) ?same)
  exact Keeps.ite (Keeps.ite h.set.set.setClamped.set.set.smStop.crossingEnters h.set.set.setClamped.set.set.smStop)
    (Keeps.ite (Keeps.ite h.set.set.setClamped.set.set.smSetLeft h.set.set.setClamped.set.set.smStart) (Keeps.ite
    h.set.set.setClamped.set.set.smStop (Keeps.ite h.set.set.setClamped.set.set.smSetLeft
    h.set.set.setClamped.set.set)))

theorem Keeps.execSmCtlWrite {v : Word} : RunsTo (execSmCtlWrite v s) (Keeps s) :=
  Keeps.done ((Keeps.refl s).mirrored (fun _ h => h.writeSmCtl))

theorem Keeps.execSmWakeWrite {v : Word} : RunsTo (execSmWakeWrite v s) (Keeps s) :=
  Keeps.doneIf ((Keeps.refl s).mirrored (fun _ h => h.writeSmCtl))

theorem Keeps.smTime (h : Keeps s t) : Keeps s t.smTime := by
  refine Keeps.ite h (Keeps.ite (Keeps.smWake ?same) ?same)
  exact Keeps.ite (Keeps.withSys h (by rfl)) h.setTime

theorem Keeps.execSmWakeTime : RunsTo (execSmWakeTime s) (Keeps s) := Keeps.done (Keeps.refl s).smTime

theorem Keeps.execSmclkBurstEnd : RunsTo (execSmclkBurstEnd s) (Keeps s) := Keeps.doneIf (Keeps.refl s).smStop

theorem Keeps.execBlankEnd {g : GroupIx} {p : Pos} : RunsTo (execBlankEnd g p s) (Keeps s) :=
  Keeps.doneIf (Keeps.refl s).violUpdate

theorem Keeps.tripSpan (h : Keeps s t) {k t0 : Nat} : Keeps s (t.tripSpan k t0) :=
  h.forEach (fun _ _ h => (Keeps.ite h h.setGroup))

theorem Keeps.tripRecord (h : Keeps s t) {k n src : Nat} : Keeps s (t.tripRecord k n src) := by
  unfold State.tripRecord
  extract_lets g latched flagged stored caused shot spanned
  have k : Keeps s stored := by
    have kept : Keeps s flagged := h.setTrip.setBit.flag
    exact kept.setTime.set
  have kept : Keeps s shot := .ite (.snapRequest (.ite k.causeMask k)) (.ite k.causeMask k)
  exact .ite kept.tripSpan.smWake kept.tripSpan

theorem Keeps.execTripLatchRecord {k : DieIx} {t0 : Fin 16} : RunsTo (execTripLatchRecord k t0 s) (Keeps s) := by
  unfold Machine.execTripLatchRecord
  exact Keeps.done (by split; exacts [(Keeps.refl s).tripRecord, (Keeps.refl s)])

theorem Keeps.tripRearm (h : Keeps s t) {k mask : Nat} : Keeps s (t.tripRearm k mask) :=
  Keeps.parkDie (h.forEach (fun _ _ h => (Keeps.ite h (Keeps.ite h.flag h.setTrip.setBit))))

theorem Keeps.execTripRearmWrite {k : DieIx} {v : Word} : RunsTo (execTripRearmWrite k v s) (Keeps s) :=
  Keeps.done ((Keeps.refl s).mirrored (fun _ h => h.tripRearm))

theorem Keeps.execParkNFall : RunsTo (execParkNFall s) (Keeps s) := by
  refine Keeps.doneIf (Keeps.ite (Keeps.forEach ?same (fun _ _ h => h.cause)) ?same)
  exact Keeps.parkAll (Keeps.flag (Keeps.withSys (Keeps.refl s) (by rfl)))

theorem Keeps.execParkNRise : RunsTo (execParkNRise s) (Keeps s) :=
  Keeps.doneIf (Keeps.parkAll (Keeps.withSys (Keeps.refl s) (by rfl)))

theorem Keeps.clearDac (h : Keeps s t) {g p d : Nat} : Keeps s (t.clearDac g p d) := h.setDac.setOut

theorem Keeps.setClrN (h : Keeps s t) {k : Nat} {b : Bool} : Keeps s (setClrN t k b) := Keeps.withSys h (by rfl)

theorem Keeps.execClrNFall {k : DieIx} : RunsTo (execClrNFall k s) (Keeps s) :=
  Keeps.doneIf (Keeps.foldl (Keeps.refl s).setClrN (fun _ _ h => (Keeps.rearm (h.forEach (fun _ _ h => h.clearDac)))))

theorem Keeps.execClrNRise {k : DieIx} : RunsTo (execClrNRise k s) (Keeps s) :=
  Keeps.doneIf (Keeps.foldl (Keeps.refl s).setClrN (fun _ _ h => (h.forEach (fun _ _ h => h.follow))))

theorem Keeps.scBegin (h : Keeps s t) {g : Nat} {r : ScRun} : Keeps s (t.scBegin g r) :=
  h.trans (Stays.refl t).scBegin.keeps

theorem Keeps.scStart (h : Keeps s t) {g : Nat} : Keeps s (t.scStart g) :=
  Keeps.ite h (Keeps.scBegin (h.setGroup.set.forEach (fun _ _ h => h.setCmp)))

theorem Keeps.writeScCtl (h : Keeps s t) {g : Nat} {v : Word} : Keeps s (t.writeScCtl g v) :=
  Keeps.ite h.set.set.set.scStart h.set.set.set

theorem Keeps.execSelfCheckRun {g : GroupIx} {v : Word} : RunsTo (execSelfCheckRun g v s) (Keeps s) :=
  Keeps.done ((Keeps.refl s).mirrored (fun _ h => h.writeScCtl))

theorem Keeps.execSelfCheckPeriodic {g : GroupIx} : RunsTo (execSelfCheckPeriodic g s) (Keeps s) :=
  Keeps.doneIf (Keeps.refl s).scStart

theorem Keeps.scEnd (h : Keeps s t) {g : Nat} {res : List (List (Option (Bool × Bool)))} : Keeps s (t.scEnd g res) := by
  refine Keeps.set (Keeps.setGroup (Keeps.forEach (Keeps.ite (Keeps.flag ?same) ?same) (fun _ _ h => h.setCmp.rearm)))
  exact h.set.foldl (fun _ _ h => (Keeps.ite h.set.setBit h.set))

theorem Keeps.execSelfCheckEnd {g : GroupIx} {res : List (List (Option (Bool × Bool)))} :
    RunsTo (execSelfCheckEnd g res s) (Keeps s) :=
  Keeps.doneIf (Keeps.refl s).scEnd

theorem Keeps.cpArrives (h : Keeps s t) {g : Nat} {regs : RegFile} : Keeps s (t.cpArrives g regs) := by
  have rearmed := (h.dieCopyRange (f := regs) (a := groupBase g + 0x6000) (b := groupBase g + 0x6000 + 0x1000)).forEach
    (l := List.range 16) (f := fun s p => if t.die.word (CP_CMP g p) = s.die.word (CP_CMP g p) then s else s.rearmOnly g p)
    fun _ _ h => .ite h h.rearmOnly
  exact ((Keeps.ite (rearmed.forEach fun _ _ h => .ite h h.setTrip.setBit) rearmed).forEach
    fun _ _ h => h.setBit).tripNetwork

theorem Keeps.execCpCommitEffect {g : GroupIx} : RunsTo (execCpCommitEffect g s) (Keeps s) := by
  unfold Machine.execCpCommitEffect
  exact Keeps.done (by split; exacts [(Keeps.ite (Keeps.cpArrives (Keeps.refl s).setGroup) (Keeps.refl s)),
    (Keeps.refl s)])

theorem Keeps.trimTo (h : Keeps s t) {need : Int} : Keeps s (t.trimTo need) :=
  .ite h (.ite h.setInt (.ite h.setInt (h.within (lo := -trimLimit) (hi := trimLimit)).setInt))

theorem Keeps.tbEdge (h : Keeps s t) {err need : Int} : Keeps s (t.tbEdge err need) := h.withTp.set.setInt.trimTo

theorem Keeps.execTbrefEdge {err need : BitVec 32} : RunsTo (execTbrefEdge err need s) (Keeps s) :=
  Keeps.doneIf (Keeps.refl s).tbEdge

theorem Keeps.execDisciplineLock : RunsTo (execDisciplineLock s) (Keeps s) := Keeps.doneIf (Keeps.refl s).set

theorem Keeps.tbLose (h : Keeps s t) : Keeps s t.tbLose :=
  Keeps.ite h.withTp.set.set (Keeps.ite h.withTp.set.set.set h.withTp.set)

theorem Keeps.execTbrefLost : RunsTo (execTbrefLost s) (Keeps s) := Keeps.doneIf (Keeps.flag (Keeps.refl s).tbLose)

theorem Keeps.tbOff (h : Keeps s t) : Keeps s t.tbOff := h.withTp.set.set.set

theorem Keeps.phaseMoved (h : Keeps s t) {a : Phase} : Keeps s (t.phaseMoved a) :=
  h.trans (Stays.refl t).phaseMoved.keeps

theorem Keeps.loopCorrect (h : Keeps s t) : Keeps s t.loopCorrect :=
  (h.within (lo := t.offRange.1) (hi := t.offRange.2)).within (lo := -2147483648) (hi := 2147483647) |>.withTp

theorem Keeps.phCount (h : Keeps s t) {reverse : Bool} : Keeps s (t.phCount reverse) :=
  Keeps.ite h.set (Keeps.ite h.set.withTp (Keeps.phaseMoved (Keeps.ite h.set.withTp.withTp.set.withTp
    h.set.withTp.withTp.loopCorrect)))

theorem Keeps.phaseLevels (h : Keeps s t) {a b p : Bool} : Keeps s (t.phaseLevels a b p) := by
  unfold State.phaseLevels
  exact Keeps.ite (Keeps.ite h.withTp (by split; exacts [h.withTp.flag, h.withTp.phCount])) (Keeps.ite
    h.withTp.phCount h.withTp)

theorem Keeps.phaseSamples (h : Keeps s t) {a b p : List Bool} : Keeps s (t.phaseSamples a b p) := h.phaseLevels

theorem Keeps.execPhaseCount {a b p : List Bool} : RunsTo (execPhaseCount a b p s) (Keeps s) :=
  Keeps.done (Keeps.refl s).phaseSamples

theorem Keeps.execPhaseStall : RunsTo (execPhaseStall s) (Keeps s) :=
  Keeps.doneIf (Keeps.flag (Keeps.set (Keeps.refl s).withTp))

theorem Keeps.enterLost (h : Keeps s t) : Keeps s t.enterLost := h.withGroups.set.flag.causePhaseLoss

theorem Keeps.indexError (h : Keeps s t) : Keeps s t.indexError.1 := Keeps.ite_fst h.burn h

theorem Keeps.phaseJump (h : Keeps s t) {cyc : Nat} : Keeps s (t.phaseJump cyc) := h.withTp

theorem Keeps.forwardIndex (h : Keeps s t) : Keeps s t.forwardIndex :=
  Keeps.ite h.indexError.setInt.phaseJump.set (Keeps.ite h.indexError.setInt.phaseJump.set (Keeps.ite
    h.indexError.setInt.withTp.phaseMoved h.indexError.setInt.flag.enterLost))

theorem Keeps.execPhaseIndex {samples : List Bool} : RunsTo (execPhaseIndex samples s) (Keeps s) :=
  Keeps.done (Keeps.ite (Keeps.forwardIndex (Keeps.refl s).withTp) (Keeps.refl s).withTp)

theorem Keeps.retrack (h : Keeps s t) : Keeps s t.retrack := h.set.withTp

theorem Keeps.execPhaseSampleBroadcast : RunsTo (execPhaseSampleBroadcast s) (Keeps s) :=
  Keeps.doneIf (Keeps.broadcast (Keeps.refl s).withTp)

theorem Keeps.phaseSample (h : Keeps s t) {t0 : Time} {phase : Phase} {vel : Int} {st : Nat} :
    Keeps s (t.phaseSample t0 phase vel st) :=
  Keeps.ite h (Keeps.ite (Keeps.ite h h.enterLost) (Keeps.ite h.withTp.set h.withTp.set.phaseMoved))

theorem Keeps.phaseReceived (h : Keeps s t) {t0 : Time} {phase : Phase} {vel : BitVec 32} {st : BitVec 3} :
    Keeps s (t.phaseReceived t0 phase vel st) :=
  Keeps.ite h.phaseSample h

theorem Keeps.execPhaseSampleReceive {t0 : Time} {phase : Phase} {vel : BitVec 32} {st : BitVec 3} :
    RunsTo (execPhaseSampleReceive t0 phase vel st s) (Keeps s) :=
  Keeps.done (Keeps.refl s).phaseReceived

theorem Keeps.execPhaseSampleTimeout : RunsTo (execPhaseSampleTimeout s) (Keeps s) :=
  Keeps.doneIf (Keeps.refl s).enterLost

theorem Keeps.putStep (h : Keeps s t) {step : Nat} {at_ wrote : Time} : Keeps s (t.putStep step at_ wrote) :=
  Keeps.ite h.withTp.set.setTime h.withTp

theorem Keeps.writeStep (h : Keeps s t) {v : Word} : Keeps s (t.writeStep v) :=
  Keeps.ite h.putStep.set.broadcast h.putStep.set

theorem Keeps.execStepWrite {v : Word} : RunsTo (execStepWrite v s) (Keeps s) :=
  Keeps.done ((Keeps.refl s).mirrored (fun _ h => h.writeStep))

theorem Keeps.stepReceived (h : Keeps s t) {step : BitVec 16} {t0 : Time} : Keeps s (t.stepReceived step t0) :=
  Keeps.ite h.putStep h.withTp

theorem Keeps.execStepBroadcastReceive {step : BitVec 16} {t0 : Time} :
    RunsTo (execStepBroadcastReceive step t0 s) (Keeps s) :=
  Keeps.done (Keeps.refl s).stepReceived

theorem Keeps.stepsDue (h : Keeps s t) : Keeps s t.stepsDue := h.withTp.foldl (fun _ _ h => h.putStep)

theorem Keeps.execStepBroadcastApply : RunsTo (execStepBroadcastApply s) (Keeps s) :=
  Keeps.done (Keeps.refl s).stepsDue

theorem Keeps.pcmpWrite (h : Keeps s t) {m : Nat} {v : Word} : Keeps s (t.pcmpWrite m v) :=
  Keeps.ite h.set.set.set.set.withTp h.set.set.set

theorem Keeps.execPcmpArm {m : Fin 8} {v : Word} : RunsTo (execPcmpArm m v s) (Keeps s) :=
  Keeps.done ((Keeps.refl s).mirrored (fun _ h => h.pcmpWrite))

theorem Keeps.pcmpFire (h : Keeps s t) {m : Nat} : Keeps s (t.pcmpFire m) := h.causeMask.set.set

theorem Keeps.execPcmpReached {m : Fin 8} : RunsTo (execPcmpReached m s) (Keeps s) :=
  Keeps.doneIf (Keeps.refl s).pcmpFire

theorem Keeps.slotFire (h : Keeps s t) {i : Nat} {c : BitVec 32} : Keeps s (t.slotFire i c) :=
  h.withTpSlotAt.set.causeMask

theorem Keeps.execPhaseSlotFire {slot : Fin 16} : RunsTo (execPhaseSlotFire slot s) (Keeps s) := by
  unfold Machine.execPhaseSlotFire
  exact Keeps.done (by split; exacts [(Keeps.ite (Keeps.refl s).slotFire (Keeps.refl s)), (Keeps.refl s)])

theorem Keeps.logPut (h : Keeps s t) {ev : Bool} {g : Nat} {w : Native} : Keeps s (t.logPut ev g w) :=
  h.setMemWord.incr

theorem Keeps.logLost (h : Keeps s t) {ev : Bool} {g : Nat} : Keeps s (t.logLost ev g) :=
  Keeps.ite (Keeps.ite (Keeps.ringLose (Keeps.ite h.flag h.flag)) (Keeps.ringLose (Keeps.ite h.flag h.flag)))
    (Keeps.ite h.flag h.flag)

theorem Keeps.logWrite (h : Keeps s t) {ev : Bool} {g : Nat} {w : Native} : Keeps s (t.logWrite ev g w) :=
  Keeps.ite h.logPut (Keeps.ite h.logLost h.logLost.incr.logPut)

theorem Keeps.logDrain (h : Keeps s t) {ev : Bool} {g n : Nat} : Keeps s (t.logDrain ev g n) := by
  induction n generalizing t with
  | zero => exact h
  | succ n ih => exact .ite (ih h.setRing.incr) h

theorem Keeps.drainLogs (h : Keeps s t) : Keeps s t.drainLogs := h.forEach (fun _ _ h => h.logDrain.logDrain)

theorem Keeps.writeRptr (h : Keeps s t) {ev : Bool} {g r : Nat} : Keeps s (t.writeRptr ev g r) :=
  Keeps.ite h (Keeps.ite h.set h.set.clampNote)

theorem Keeps.execLogRptrWrite {g : GroupIx} {v : Word} : RunsTo (execLogRptrWrite g v s) (Keeps s) :=
  Keeps.hostDone (Keeps.refl s).writeRptr

theorem Keeps.execEvRptrWrite {g : GroupIx} {v : Word} : RunsTo (execEvRptrWrite g v s) (Keeps s) :=
  Keeps.hostDone (Keeps.refl s).writeRptr

theorem Keeps.completeDesc (h : Keeps s t) {x : RingIx} {int : Bool} : Keeps s (t.completeDesc x int) :=
  Keeps.ite (Keeps.raiseBit (Keeps.ite h.set.emit h.set)) (Keeps.ite h.set.emit h.set)

theorem Keeps.writeBlock (h : Keeps s t) {r : Fin 6} {bseq : Nat} {b : Block} {desc : BitVec 128} :
    Keeps s (t.writeBlock r bseq b desc) :=
  h.emit.completeDesc

theorem Keeps.ringWrite (h : Keeps s t) {r : Fin 6} {desc : BitVec 128} : Keeps s (t.ringWrite r desc) := by
  unfold State.ringWrite
  exact Keeps.ite h (Keeps.ite (Keeps.ite h.setRing.writeBlock.set.set.withHi h) (by split; exacts
    [h.setRing.writeBlock, h]))

theorem Keeps.execRingBlockWrite {r : Fin 6} {desc : BitVec 128} : RunsTo (execRingBlockWrite r desc s) (Keeps s) :=
  Keeps.done (Keeps.drainLogs (Keeps.refl s).ringWrite)

theorem Keeps.closeOpen (h : Keeps s t) {r : Nat} {p : Block → Bool} : Keeps s (t.closeOpen r p) := h.setRing

theorem Keeps.flushTimeout (h : Keeps s t) {r : Nat} : Keeps s (t.flushTimeout r) := h.closeOpen

theorem Keeps.execRingFlushTimeout {r : Fin 6} : RunsTo (execRingFlushTimeout r s) (Keeps s) :=
  Keeps.done (Keeps.refl s).flushTimeout

theorem Keeps.flushRings (h : Keeps s t) {v : Word} : Keeps s (t.flushRings v) := h.forEach (fun _ _ h => h.closeOpen)

theorem Keeps.execRingFlushWrite {v : Word} : RunsTo (execRingFlushWrite v s) (Keeps s) :=
  Keeps.hostDone (Keeps.refl s).flushRings

theorem Keeps.writeTail (h : Keeps s t) {x : RingIx} {v : Word} : Keeps s (t.writeTail x v) :=
  Keeps.ite h.set.clampNote (Keeps.ite h.set.clampNote h.set)

theorem Keeps.execRingTailWrite {ring : RingIx} {v : Word} : RunsTo (execRingTailWrite ring v s) (Keeps s) :=
  Keeps.hostDone (Keeps.refl s).writeTail

theorem Keeps.writeRingCtl (h : Keeps s t) {x : RingIx} {v : Word} : Keeps s (t.writeRingCtl x v) := by
  have sized := Keeps.ite (c := t.on (ringEn x) = true) h 
    (h.setClamped (x := ringSize x) (v := fieldOf v 8 4) (lo := 4) (hi := 16))
  have stored := sized.set (x := ringIall x) (v := fieldOf v 2 2) |>.set (x := ringWben x) (v := fieldOf v 1 1)
    |>.set (x := ringEn x) (v := fieldOf v 0 0)
  unfold State.writeRingCtl
  dsimp only
  split
  · exact stored.setClamped
  · exact .ite (.withHi (.ite stored.set.set stored.set)) (.ite stored.set.set stored.set)
  · exact .ite (.withHi (.ite stored.set.set stored.set)) (.ite stored.set.set stored.set)

theorem Keeps.execRingEnable {ring : RingIx} {v : Word} : RunsTo (execRingEnable ring v s) (Keeps s) :=
  Keeps.hostDone (Keeps.drainLogs (Keeps.refl s).writeRingCtl)

theorem Keeps.writeCaprd (h : Keeps s t) {v : Word} : Keeps s (t.writeCaprd v) :=
  Keeps.ite h.set.set.set.set.withHi h.set.set

theorem Keeps.execCaptureReadoutGo {v : Word} : RunsTo (execCaptureReadoutGo v s) (Keeps s) :=
  Keeps.hostDone (Keeps.refl s).writeCaprd

/-- Words put into a plane one by one. -/
theorem RegFile.foldl_put_rising (l f : RegFile) (h : f.rising) : (l.foldl (fun f c => f.put c.1 c.2) f).rising :=
  List.foldlRecOn l _ h fun _ k _ _ => RegFile.put_rising _ _ _ k

theorem Keeps.restore (h : Keeps s t) {a b : Nat} : Keeps s (t.restore a b) := by
  refine (h.ofLive (f := t.sys.boot.foldl (fun f c => if a ≤ c.1 ∧ c.1 < b then f.put c.1 c.2 else f)
    (t.live.clearRange a b)) fun k => ?_).ofStaged (RegFile.clearRange_rising _ _ _)
  refine List.foldlRecOn _ _ (RegFile.clearRange_rising _ _ _ k) fun f k c _ => ?_
  split
  · exact RegFile.put_rising _ _ _ k
  · exact k

theorem Keeps.hiReset (h : Keeps s t) : Keeps s t.hiReset := h.withHi.restore.setWord

theorem Keeps.crossingDrop (h : Keeps s t) {xid n : Nat} : Keeps s (t.crossingDrop xid n) := h.count.flag.set

theorem Keeps.execFunctionLevelReset : RunsTo (execFunctionLevelReset s) (Keeps s) :=
  Keeps.done (Keeps.crossingEnters (Keeps.raise (Keeps.refl s).hiReset))

theorem Keeps.execPerstN : RunsTo (execPerstN s) (Keeps s) :=
  Keeps.done (Keeps.crossingEnters (Keeps.raise (Keeps.withHi (Keeps.set (Keeps.set (Keeps.refl s).hiReset)))))

theorem Keeps.execPerstNRise : RunsTo (execPerstNRise s) (Keeps s) := Keeps.done (Keeps.refl s).withHi

theorem Keeps.execPowerStateChange {d3 bme : Bool} : RunsTo (execPowerStateChange d3 bme s) (Keeps s) :=
  Keeps.done (Keeps.refl s).withHi

theorem Keeps.execLinkChange {width gen : BitVec 4} : RunsTo (execLinkChange width gen s) (Keeps s) := by
  unfold Machine.execLinkChange
  exact Keeps.doneIf (by split; exacts [(Keeps.ite (Keeps.withHi (Keeps.set (Keeps.refl s).set)) (Keeps.flag
    (Keeps.withHi (Keeps.set (Keeps.refl s).set)))), (Keeps.withHi (Keeps.set (Keeps.refl s).set))])

theorem Keeps.execPcieLinkDown : RunsTo (execPcieLinkDown s) (Keeps s) := Keeps.done (Keeps.set (Keeps.refl s).set)

theorem Keeps.blockFails (h : Keeps s t) {wave : Bool} {u0 : Nat} : Keeps s (t.blockFails wave u0) :=
  Keeps.ite h.withHi.flag.count.set.flag h.withHi.flag.count

theorem Keeps.execCplTimeout {w : Bool} {u0 : Fin 32} : RunsTo (execCplTimeout w u0 s) (Keeps s) :=
  Keeps.doneIf (Keeps.blockFails (Keeps.refl s).flag)

theorem Keeps.smbRead (h : Keeps s t) {word : Bool} {v : Nat} : Keeps s (t.smbRead word v) := h.emit

theorem Keeps.execSmbTemp {k : Fin 5} {word : Bool} : RunsTo (execSmbTemp k word s) (Keeps s) :=
  Keeps.done (Keeps.refl s).smbRead

theorem Keeps.execSmbStatus {word : Bool} : RunsTo (execSmbStatus word s) (Keeps s) :=
  Keeps.done (Keeps.refl s).smbRead

theorem Keeps.alertRelease (h : Keeps s t) : Keeps s t.alertRelease := Keeps.ite h.withHi h

theorem Keeps.execSmbAlertclr {word : Bool} : RunsTo (execSmbAlertclr word s) (Keeps s) :=
  Keeps.done (Keeps.alertRelease (Keeps.refl s).smbRead)

theorem Keeps.execSmbVid {word : Bool} : RunsTo (execSmbVid word s) (Keeps s) := Keeps.done (Keeps.refl s).smbRead

theorem Keeps.execSmbDid {word : Bool} : RunsTo (execSmbDid word s) (Keeps s) := Keeps.done (Keeps.refl s).smbRead

theorem Keeps.execSmbSvid {word : Bool} : RunsTo (execSmbSvid word s) (Keeps s) := Keeps.done (Keeps.refl s).smbRead

theorem Keeps.execSmbSsid {word : Bool} : RunsTo (execSmbSsid word s) (Keeps s) := Keeps.done (Keeps.refl s).smbRead

theorem Keeps.execSmbRevid {word : Bool} : RunsTo (execSmbRevid word s) (Keeps s) := Keeps.done (Keeps.refl s).smbRead

theorem Keeps.execSmbSerial {i : Fin 4} {word : Bool} : RunsTo (execSmbSerial i word s) (Keeps s) :=
  Keeps.done (Keeps.refl s).smbRead

theorem Keeps.execSmbUnlisted {cmd : BitVec 8} {word : Bool} : RunsTo (execSmbUnlisted cmd word s) (Keeps s) :=
  Keeps.doneIf (Keeps.refl s).smbRead

theorem Keeps.execSmbAlertResponse : RunsTo (execSmbAlertResponse s) (Keeps s) :=
  Keeps.doneIf (Keeps.alertRelease (Keeps.refl s).smbRead)

theorem Keeps.setSpiByte (h : Keeps s t) {k : Nat} {b : Byte} : Keeps s (t.setSpiByte k b) := h.set

theorem Keeps.writeSpiCtl (h : Keeps s t) {v : Word} : Keeps s (t.writeSpiCtl v) :=
  Keeps.ite h.setClamped.set.set.set.set.emit.withHi h.setClamped.set.set.set

theorem Keeps.execSpiGo {v : Word} : RunsTo (execSpiGo v s) (Keeps s) := Keeps.hostDone (Keeps.refl s).writeSpiCtl

theorem Keeps.execSpiDone {rd : List (BitVec 8)} : RunsTo (execSpiDone rd s) (Keeps s) := by
  unfold Machine.execSpiDone
  exact Keeps.done (by split; exacts [(Keeps.withHi (Keeps.set (Keeps.ite ((Keeps.refl s).forEach (fun _ _ h =>
    h.setSpiByte)) (Keeps.refl s)))), (Keeps.refl s)])

theorem Keeps.dskStart (h : Keeps s t) {g : Nat} {comparePath : Bool} {ls : Nat} :
    Keeps s (t.dskStart g comparePath ls) :=
  h.within.set.setGroup.rearmGroup.parkGroup

theorem Keeps.writeDsk (h : Keeps s t) {g : Nat} {v : Word} : Keeps s (t.writeDsk g v) :=
  Keeps.ite h.set.set (Keeps.ite h.set (Keeps.ite h h.set.set.dskStart))

theorem Keeps.execDskRun {g : GroupIx} {v : Word} : RunsTo (execDskRun g v s) (Keeps s) :=
  Keeps.hostDone (Keeps.refl s).writeDsk

theorem Keeps.dskEnd (h : Keeps s t) {g : Nat} {d : DskRun} {res : List DskMeas} {temp : Nat} :
    Keeps s (t.dskEnd g d res temp) := by
  unfold State.dskEnd
  refine .parkGroup (.retargetGroup (.ite (.rearmGroup (.setGroup ?ended)) (.setGroup ?ended)))
  refine .ite (.set (.set ?stored)) (.flag (.set (.set ?stored)))
  refine h.forEach fun u p h => ?_
  split
  · exact h.set.set.setBit
  · exact h.setBit

theorem Keeps.execDskComplete {g : GroupIx} {res : List DskMeas} {temp : BitVec 16} :
    RunsTo (execDskComplete g res temp s) (Keeps s) := by
  unfold Machine.execDskComplete
  exact Keeps.done (by split; exacts [(Keeps.ite (Keeps.refl s).dskEnd (Keeps.refl s)), (Keeps.refl s)])

theorem Keeps.writeTdr (h : Keeps s t) {g : Nat} {v : Word} : Keeps s (t.writeTdr g v) :=
  Keeps.ite h.set.set.setClamped.set (Keeps.ite h.set (Keeps.ite h
    h.set.set.setClamped.set.set.setGroup.retargetChan.parkGroup))

theorem Keeps.execTdrRun {g : GroupIx} {v : Word} : RunsTo (execTdrRun g v s) (Keeps s) :=
  Keeps.hostDone (Keeps.refl s).writeTdr

theorem Keeps.tdrMean (h : Keeps s t) {l : List Nat} : Keeps s (t.tdrMean l).1 := h.quotient

theorem Keeps.tdrSpread (h : Keeps s t) {l : List Nat} : Keeps s (t.tdrSpread l).1 := Keeps.ite_fst h h.burn

theorem Keeps.tdrEnd (h : Keeps s t) {g : Nat} {r : TdrRun} {reps : List (List (BitVec 66) × List (BitVec 66))} :
    Keeps s (t.tdrEnd g r reps) :=
  Keeps.parkGroup (Keeps.retargetChan (Keeps.setGroup (Keeps.ite h.set.set.set.flag
    h.set.tdrMean.tdrSpread.set.set.set)))

theorem Keeps.execTdrComplete {g : GroupIx} {n : Nat} {launches reflections : List (List (BitVec 66))} :
    RunsTo (execTdrComplete g n launches reflections s) (Keeps s) := by
  unfold Machine.execTdrComplete
  exact Keeps.done (by split; exacts [(Keeps.ite (Keeps.refl s).tdrEnd (Keeps.refl s)), (Keeps.refl s)])

theorem Keeps.setTdc (h : Keeps s t) {g p : Nat} {x : Tdc} : Keeps s (t.setTdc g p x) := h.setChan

theorem Keeps.startWin (h : Keeps s t) {g p i : Nat} {w : Win} : Keeps s (t.startWin g p i w) :=
  h.trans (Stays.refl t).startWin.keeps

theorem Keeps.openDue (h : Keeps s t) {g p : Nat} {t0 : Time} : Keeps s (t.openDue g p t0) :=
  h.trans (Stays.refl t).openDue.keeps

theorem Keeps.vectorWindows (h : Keeps s t) {g iv ctx : Nat} {b : Tick} {forms : List ChanForm} :
    Keeps s (t.vectorWindows g iv ctx b forms) := by
  refine h.forEach fun u p h => ?_
  dsimp only
  split
  · exact h.setChan
  · exact h

theorem Keeps.externalWindows (h : Keeps s t) {g : Nat} : Keeps s (t.externalWindows g) :=
  h.forEach (fun _ _ h => h.openDue.setChan.startWin)

theorem Keeps.execXwinOpen {g : GroupIx} : RunsTo (execXwinOpen g s) (Keeps s) :=
  Keeps.doneIf (Keeps.refl s).externalWindows

theorem Keeps.mapAcc (h : Keeps s t) {g i src : Nat} {f : FqAcc → FqAcc} : Keeps s (t.mapAcc g i src f) := h.setGroup

theorem Keeps.prescale (h : Keeps s t) {g src : Nat} {t0 : Tick} : Keeps s (t.prescale g src t0).1 := by
  unfold State.prescale
  split
  · exact h
  · dsimp only
    exact h.mapAcc

theorem Keeps.fqSample (h : Keeps s t) {g src i k : Nat} {t0 : Tick} : Keeps s (t.fqSample g src i k t0) := by
  unfold State.fqSample
  split; exacts [h.mapAcc, h]

theorem Keeps.stopLost (h : Keeps s t) {g p : Nat} {w : Win} {edge : Option (Nat × Nat)} :
    Keeps s (t.stopLost g p w edge) := by
  unfold State.stopLost
  exact Keeps.ite (by split; exacts [h.count.raise.mapAcc, h.count.raise]) (Keeps.sumFlag (by split; exacts
    [h.count.raise.mapAcc, h.count.raise]))

theorem Keeps.putWin (h : Keeps s t) {g p i : Nat} {w : Win} : Keeps s (t.putWin g p i w) := h.setChan

theorem Keeps.stopInWindow (h : Keeps s t) {g p i : Nat} {w : Win} {raw t0 : Tick} {pol : Bool} {edge : Option (Nat ×
  Nat)} :
    Keeps s (t.stopInWindow g p i w raw t0 pol edge) := by
  unfold State.stopInWindow
  exact Keeps.ite h (Keeps.ite h.stopLost (Keeps.ite h.putWin.stopLost (by split; exacts [h.putWin.setTdc.fqSample,
    h.putWin.setTdc])))

theorem Keeps.tdcStop (h : Keeps s t) {g p : Nat} {c : Time} {r l0 l1 : Nat} : Keeps s (t.tdcStop g p c r l0 l1) := by
  refine .ite h.openDue ?_
  dsimp only
  split
  · exact h.openDue.prescale.stopInWindow
  · exact h.openDue.prescale

theorem Keeps.laneSeenBy (h : Keeps s t) {g p i : Nat} : Keeps s (t.laneSeenBy g p i) := h.setCmp

theorem Keeps.agingStop (h : Keeps s t) {g : Nat} {c : Time} {r : Nat} : Keeps s (t.agingStop g c r) := by
  refine .ite ?_ h
  dsimp only
  generalize (if t.get (FQ_AGE_SEL g) = 2 then _ else _ : Tick) = tick
  split
  · exact h.prescale.fqSample
  · exact h.prescale

theorem Keeps.gateStartAt (h : Keeps s t) {g : Nat} {t0 : Time} : Keeps s (t.gateStartAt g t0) :=
  Keeps.ite h h.set.incr.setGroup.setTime

theorem Keeps.gateStopAt (h : Keeps s t) {g : Nat} {abort : Bool} {t0 : Time} : Keeps s (t.gateStopAt g abort t0) :=
  Keeps.ite h (Keeps.ite h.setGroup.set.gateStartAt h.setGroup.set)

theorem Keeps.gateDue (h : Keeps s t) {g n : Nat} : Keeps s (t.gateDue g n) := by
  induction n generalizing t with
  | zero => exact h
  | succ n ih =>
    unfold State.gateDue
    split
    · exact .ite (ih h.gateStopAt) h
    · exact h

theorem Keeps.gateNow (h : Keeps s t) {g : Nat} : Keeps s (t.gateNow g) := by
  unfold State.gateNow
  split; exacts [h.gateDue, h]

theorem Keeps.gateStart (h : Keeps s t) {g : Nat} : Keeps s (t.gateStart g) := h.gateNow.gateStartAt

theorem Keeps.gateStop (h : Keeps s t) {g : Nat} {abort : Bool} : Keeps s (t.gateStop g abort) := h.gateNow.gateStopAt

theorem Keeps.execTdcStop {g : GroupIx} {p : Fin 17} {c : Time} {r : Fin 512} {l0 l1 : Lane} :
    RunsTo (execTdcStop g p c r l0 l1 s) (Keeps s) := by
  have h := Keeps.refl s
  unfold Machine.execTdcStop
  split
  · exact h.gateNow.agingStop.doneIf
  · refine Keeps.done ?_
    split
    · exact h.laneSeenBy.gateNow.tdcStop
    · exact h

theorem Keeps.closeWin (h : Keeps s t) {g p i : Nat} {w : Win} : Keeps s (t.closeWin g p i w) :=
  Keeps.ite h.setChan h.putWin

theorem Keeps.execWindowClose {g : GroupIx} {p : Pos} : RunsTo (execWindowClose g p s) (Keeps s) := by
  unfold Machine.execWindowClose
  exact Keeps.done (by split; exacts [(by split; exacts [(Keeps.closeWin (Keeps.refl s).openDue), (Keeps.refl s)]),
    (Keeps.refl s)])

theorem Keeps.refMean (h : Keeps s t) {tab : List Nat} {refs : List (Fin 512)} : Keeps s (t.refMean tab refs).1 :=
  h.quotient

theorem Keeps.passEnd (h : Keeps s t) {g p : Nat} {hits : List Nat} {refs : List (Fin 512)} :
    Keeps s (t.passEnd g p hits refs) :=
  Keeps.ite h.refMean.setTdc h.setTdc.flag

theorem Keeps.execCalPassComplete {g : GroupIx} {p : Pos} {hits : List Nat} {refs : List (Fin 512)} :
    RunsTo (execCalPassComplete g p hits refs s) (Keeps s) :=
  Keeps.doneIf (Keeps.refl s).passEnd

theorem Keeps.swapLine (h : Keeps s t) {g p : Nat} : Keeps s (t.swapLine g p) :=
  Keeps.ite h.setTdc.setBit.setBit.setInt.setInt.setTime (Keeps.ite h.flag h)

theorem Keeps.execTdcSwap {g : GroupIx} : RunsTo (execTdcSwap g s) (Keeps s) :=
  Keeps.doneIf ((Keeps.refl s).forEach (fun _ _ h => h.swapLine))

theorem Keeps.writeFqCtl (h : Keeps s t) {g : Nat} {v : Word} : Keeps s (t.writeFqCtl g v) :=
  Keeps.ite (Keeps.gateStart (Keeps.ite h.set.gateStop h.set)) (Keeps.ite h.set.gateStop h.set)

theorem Keeps.execGateStartWrite {g : GroupIx} {v : Word} : RunsTo (execGateStartWrite g v s) (Keeps s) :=
  Keeps.doneIf ((Keeps.refl s).mirrored (fun _ h => h.writeFqCtl))

theorem Keeps.execGateStopWrite {g : GroupIx} {v : Word} : RunsTo (execGateStopWrite g v s) (Keeps s) :=
  Keeps.doneIf ((Keeps.refl s).mirrored (fun _ h => h.writeFqCtl))

theorem Keeps.execGateEnd {g : GroupIx} : RunsTo (execGateEnd g s) (Keeps s) := Keeps.done (Keeps.refl s).gateNow

/-- The frequency of a gate's samples: where it is free, a fresh value. -/
theorem Keeps.freqOf (h : Keeps s t) {c : Prop} [Decidable c] {r : Option Nat} :
    Keeps s (if c then (t, 0) else match r with | some f => (t, f) | none => (t.burn, t.fresh.toNat)).1 := by
  refine .ite_fst h ?_
  cases r
  · exact h.burn
  · exact h

theorem Keeps.fqResult (h : Keeps s t) {g src : Nat} {d : Gate} {a : FqAcc} {div : Nat} :
    Keeps s (t.fqResult g src d a div) := by
  have free := h.freqOf (c := fqStatus a d.abort = 3) (r := fqFreq a div)
  unfold State.fqResult
  dsimp only
  generalize (if fqStatus a d.abort = 3 then _ else _ : State × Nat) = q at free ⊢
  refine .ite (.ringRecord ?flagged) ?flagged
  split
  · exact free.set.set.set.set.set.flag
  · exact free.set.set.set.set.set.flag
  · exact free.set.set.set.set.set.flag
  · exact free.set.set.set.set.set

theorem Keeps.execFreqResult {g : GroupIx} {src : Fin 17} : RunsTo (execFreqResult g src s) (Keeps s) := by
  unfold Machine.execFreqResult
  exact Keeps.done (by split; exacts [(by split; exacts [(Keeps.fqResult (Keeps.setGroup (Keeps.refl s).gateNow)),
    (Keeps.refl s)]), (Keeps.refl s)])

theorem Keeps.setVcnt (h : Keeps s t) {e n : Nat} : Keeps s (t.setVcnt e n) := h.set.set

theorem Keeps.showIv (h : Keeps s t) {g : Nat} : Keeps s (t.showIv g) := h.trans (Stays.refl t).showIv.keeps

theorem Keeps.openNext (h : Keeps s t) {g : Nat} : Keeps s (t.openNext g) := h.trans (Stays.refl t).openNext.keeps

theorem Keeps.takeTrips (h : Keeps s t) {g : Nat} {iv : Interval} : Keeps s (t.takeTrips g iv) :=
  h.trans (Stays.refl t).takeTrips.keeps

theorem Keeps.discardInterval (h : Keeps s t) {g : Nat} : Keeps s (t.discardInterval g) := by
  refine Keeps.showIv (Keeps.ite ?same (Keeps.flag ?same))
  exact Keeps.setGroup (h.foldl (fun _ _ h => h.takeTrips))

theorem Keeps.killOutcomes (h : Keeps s t) {g : Nat} : Keeps s (t.killOutcomes g) := h.setGroup

theorem Keeps.beginVector (h : Keeps s t) {g : Nat} {i : Issued} {b : Tick} : Keeps s (t.beginVector g i b) :=
  h.formVector.openNext.setGroup.vectorWindows.setVcnt.showIv

theorem Keeps.endInterval (h : Keeps s t) {e : Nat} {iv : Interval} : Keeps s (t.endInterval e iv) :=
  h.trans (Stays.refl t).endInterval.keeps

theorem Keeps.endPast (h : Keeps s t) {g : Nat} : Keeps s (t.endPast g) := h.trans (Stays.refl t).endPast.keeps

theorem Keeps.endEarly (h : Keeps s t) {g : Nat} : Keeps s (t.endEarly g) := h.trans (Stays.refl t).endEarly.keeps

theorem Keeps.execSummaryIntervalEnd {e : EngineIx} : RunsTo (execSummaryIntervalEnd e s) (Keeps s) := by
  unfold Machine.execSummaryIntervalEnd
  exact Keeps.done (by split; exacts [(Keeps.ite (Keeps.refl s).endInterval (Keeps.refl s)), (Keeps.refl s)])

theorem Keeps.sendAgreement (h : Keeps s t) {e id : Nat} {set : List Native} : Keeps s (t.sendAgreement e id set) :=
  Keeps.ite h.sendLink h

theorem Keeps.emitSet (h : Keeps s t) {e : Nat} {iv : Interval} {t0 : Time} {step : Nat} {en : Bool} {meas : List
  Native} :
    Keeps s (t.emitSet e iv t0 step en meas) :=
  Keeps.foldl (Keeps.ite h.setGroup.withTw.sendAgreement.ringRecord h.setGroup.withTw.sendAgreement) (fun _ _ h =>
    h.ringRecord)

theorem Keeps.execSummarySetEmit {e : EngineIx} : RunsTo (execSummarySetEmit e s) (Keeps s) := by
  unfold Machine.execSummarySetEmit
  exact Keeps.done (by split; exacts [(by split; exacts [(Keeps.ite (Keeps.refl s).emitSet (Keeps.refl s)),
    (Keeps.refl s)]), (Keeps.refl s)])

theorem Keeps.sumVector (h : Keeps s t) {g p : Nat} {v : VecOut} {l : LaneSummary} {failed : Bool} :
    Keeps s (t.sumVector g p v l failed) := by
  unfold State.sumVector
  exact h.mapSum

theorem Keeps.logFail (h : Keeps s t) {g : Nat} {v : VecOut} {fails : BitVec 16} : Keeps s (t.logFail g v fails) :=
  Keeps.ite h.mapIv.logWrite.logDrain (h.count.raise.forEach (fun _ _ h => h.sumFlag))

theorem Keeps.failCause (h : Keeps s t) {g : Nat} {v : VecOut} : Keeps s (t.failCause g v) :=
  Keeps.ite h.raise.mapIv.causeRouted h.raise.mapIv

theorem Keeps.setCap (h : Keeps s t) {g : Nat} {c : Capture} : Keeps s (t.setCap g c) := h.setGroup

theorem Keeps.storeCap (h : Keeps s t) {g n : Nat} {v : CapVec} : Keeps s (t.storeCap g n v) := h.setMemWord

theorem Keeps.capFire (h : Keeps s t) {g : Nat} : Keeps s (t.capFire g) := h.set.flag

theorem Keeps.capAwait (h : Keeps s t) {g : Nat} {t0 : Tick} : Keeps s (t.capAwait g t0) := h.setCap.capFire

theorem Keeps.capTrigger (h : Keeps s t) {g k : Nat} : Keeps s (t.capTrigger g k) := by
  unfold State.capTrigger
  exact Keeps.ite (Keeps.capFire (by split; exacts [(Keeps.setTime (Keeps.set (Keeps.set (Keeps.foldl (Keeps.setCap
    (h.foldl (fun _ _ h => h.setMemWord))) (fun _ _ h => h.storeCap))))), (Keeps.foldl (Keeps.setCap (h.foldl (fun _ _
    h => h.setMemWord))) (fun _ _ h => h.storeCap))])) (by split; exacts [(Keeps.setTime (Keeps.set (Keeps.set
    (Keeps.foldl (Keeps.setCap (h.foldl (fun _ _ h => h.setMemWord))) (fun _ _ h => h.storeCap))))), (Keeps.foldl
    (Keeps.setCap (h.foldl (fun _ _ h => h.setMemWord))) (fun _ _ h => h.storeCap))])

theorem Keeps.capture (h : Keeps s t) {g : Nat} {v : CapVec} {trgm : Bool} : Keeps s (t.capture g v trgm) :=
  Keeps.ite h (Keeps.ite h.setCap.storeCap.capTrigger h.setCap.storeCap)

theorem Keeps.capEnd (h : Keeps s t) {g : Nat} : Keeps s (t.capEnd g) := h.set.set.set.setCap.set.flag

theorem Keeps.writeCapArm (h : Keeps s t) {g : Nat} {v : Word} : Keeps s (t.writeCapArm g v) :=
  Keeps.ite (Keeps.ite h.capEnd h) (Keeps.ite (Keeps.capAwait (Keeps.ite h.setCap.set h)) (Keeps.ite h.setCap.set h))

theorem Keeps.execCaptureArm {g : GroupIx} {v : Word} : RunsTo (execCaptureArm g v s) (Keeps s) :=
  Keeps.done ((Keeps.refl s).mirrored (fun _ h => h.writeCapArm))

theorem Keeps.execCaptureStop {g : GroupIx} {v : Word} : RunsTo (execCaptureStop g v s) (Keeps s) :=
  Keeps.doneIf ((Keeps.refl s).mirrored (fun _ h => h.writeCapArm))

theorem Keeps.execCaptureForce {g : GroupIx} {v : Word} : RunsTo (execCaptureForce g v s) (Keeps s) :=
  Keeps.doneIf ((Keeps.refl s).mirrored (fun _ h => h.writeCapArm))

theorem Keeps.execCaptureDone {g : GroupIx} : RunsTo (execCaptureDone g s) (Keeps s) := by
  unfold Machine.execCaptureDone
  exact Keeps.done (by split; exacts [(Keeps.ite (Keeps.refl s).capEnd (Keeps.refl s)), (Keeps.refl s)])

theorem Keeps.pushInstant (h : Keeps s t) {g : Nat} {stop : Tick} {trgm : Bool} : Keeps s (t.pushInstant g stop trgm) :=
  h.forEach (fun _ _ h => (Keeps.ite h.withTrigs h))

theorem Keeps.pruneLanes (h : Keeps s t) {g : Nat} {b : Tick} : Keeps s (t.pruneLanes g b) :=
  h.forEach (fun _ _ h => h.setCmp)

theorem Keeps.outcome (h : Keeps s t) {g : Nat} {v : VecOut} : Keeps s (t.outcome g v) := by
  refine Keeps.pruneLanes (Keeps.pushInstant (Keeps.capture (Keeps.ite (Keeps.ite h.withFree.setGroup.count
    h.withFree.setGroup) (Keeps.ite (Keeps.failCause (Keeps.logFail ?same)) ?same))))
  exact Keeps.forEach (Keeps.ite h.withFree.setGroup.count h.withFree.setGroup) (fun _ _ h => h.sumVector)

theorem Keeps.execVectorOutcome {g : GroupIx} {b : Tick} : RunsTo (execVectorOutcome g b s) (Keeps s) := by
  unfold Machine.execVectorOutcome
  exact Keeps.done (by split; exacts [(Keeps.ite (Keeps.refl s).outcome (Keeps.refl s)), (Keeps.refl s)])

theorem Keeps.eventStamp (h : Keeps s t) {g p : Nat} {w : Win} : Keeps s (t.eventStamp g p w) := by
  unfold State.eventStamp
  exact Keeps.causeRouted (Keeps.sumFlag (by split; exacts [h.raise, h]))

theorem Keeps.stampStore (h : Keeps s t) {g p : Nat} {w : Win} {word : Native} : Keeps s (t.stampStore g p w word) :=
  Keeps.ite h.mapIv.logWrite.logDrain (Keeps.ite h.count.raise h.count.raise.sumFlag)

theorem Keeps.deliverStamp (h : Keeps s t) {g p : Nat} {w : Win} {t0 : Tick} {pol ovf : Bool} :
    Keeps s (t.deliverStamp g p w t0 pol ovf) := by
  refine Keeps.ite ?same (Keeps.mapSum ?same)
  exact Keeps.ite (Keeps.stampStore (Keeps.ite h.eventStamp h)) (Keeps.ite h.eventStamp h)

theorem Keeps.deliver (h : Keeps s t) {g p : Nat} {w : Win} : Keeps s (t.deliver g p w) := by
  unfold State.deliver
  exact h.forEach (fun _ _ h => (by split; exacts [h.deliverStamp, h]))

theorem Keeps.execStampDelivery {g : GroupIx} {p : Pos} : RunsTo (execStampDelivery g p s) (Keeps s) := by
  unfold Machine.execStampDelivery
  exact Keeps.done (by split; exacts [(Keeps.ite (Keeps.deliver (Keeps.refl s).setChan) (Keeps.refl s)), (Keeps.refl
    s)])

theorem Keeps.setTe (h : Keeps s t) {n : Nat} {x : TrigEngine} : Keeps s (t.setTe n x) := h.withTrigs

theorem Keeps.teCapture (h : Keeps s t) {n : Nat} {e : Time} : Keeps s (t.teCapture n e) := by
  unfold State.teCapture
  exact h.forEach (fun _ _ h => (Keeps.ite (by split; exacts [h.capTrigger, (by split; exacts [h.capTrigger,
    h.capAwait])]) h))

theorem Keeps.tePulse (h : Keeps s t) {n : Nat} {e : Time} : Keeps s (t.tePulse n e) :=
  Keeps.ite (Keeps.withTrigOut (Keeps.ite h.withTrigOut h)) (Keeps.ite h.withTrigOut h)

theorem Keeps.teFire (h : Keeps s t) {n : Nat} {e : Time} : Keeps s (t.teFire n e) := by
  refine Keeps.tePulse (Keeps.ite (Keeps.causeMask ?same) ?same)
  exact Keeps.ite h.setTime.raiseBit.count.set.set.setTe.withGroups.teCapture.snapRequest
    h.setTime.raiseBit.count.set.set.setTe.withGroups.teCapture

theorem Keeps.teStep (h : Keeps s t) {n : Nat} {e : Time} {mark : Bool} : Keeps s (t.teStep n e mark) :=
  Keeps.ite (Keeps.ite h.teFire h.set.setTe) (Keeps.ite h.set.setTe h.setTe)

theorem Keeps.teArmAt (h : Keeps s t) {n : Nat} {t0 : Time} : Keeps s (t.teArmAt n t0) := h.set.set.setTe

theorem Keeps.teEvaluate (h : Keeps s t) {n : Nat} {e : Time} {mark : Bool} : Keeps s (t.teEvaluate n e mark) :=
  Keeps.setTe (Keeps.ite h (Keeps.ite h.teStep (Keeps.ite (Keeps.ite h.teArmAt.teStep (Keeps.ite h.setTe h)) h)))

theorem Keeps.execTriggerEvaluation {te : Fin 4} : RunsTo (execTriggerEvaluation te s) (Keeps s) := by
  unfold Machine.execTriggerEvaluation
  exact Keeps.done (by split; exacts [(Keeps.ite (Keeps.refl s) (Keeps.teEvaluate (Keeps.refl s).setTe)), (Keeps.refl
    s)])

theorem Keeps.execTrigOutPulseEnd {k : Fin 2} : RunsTo (execTrigOutPulseEnd k s) (Keeps s) :=
  Keeps.done (Keeps.refl s).withTrigOut

theorem Keeps.writeTeArm (h : Keeps s t) {n : Nat} {v : Word} : Keeps s (t.writeTeArm n v) :=
  Keeps.ite h.set.set (Keeps.ite h.teArmAt h)

theorem Keeps.execTeArm {te : Fin 4} {v : Word} : RunsTo (execTeArm te v s) (Keeps s) :=
  Keeps.done ((Keeps.refl s).mirrored (fun _ h => h.writeTeArm))

theorem Keeps.execTeDisarm {te : Fin 4} {v : Word} : RunsTo (execTeDisarm te v s) (Keeps s) :=
  Keeps.doneIf ((Keeps.refl s).mirrored (fun _ h => h.writeTeArm))

theorem Keeps.teExternal (h : Keeps s t) {n i : Nat} : Keeps s (t.teExternal n i) := h.setTe

theorem Keeps.execTeSoft {v : Word} : RunsTo (execTeSoft v s) (Keeps s) :=
  Keeps.done ((Keeps.refl s).mirrored (fun _ h => (h.forEach (fun _ _ h => h.teExternal))))

theorem Keeps.teCommit (h : Keeps s t) {n : Nat} : Keeps s (t.teCommit n) :=
  Keeps.ite h.teArmAt.setTe h.teArmAt.setTe.set

theorem Keeps.trigInCapture (h : Keeps s t) {k : Nat} : Keeps s (t.trigInCapture k) :=
  h.forEach (fun _ _ h => (Keeps.ite h.capAwait h))

theorem Keeps.setWp (h : Keeps s t) {g : Nat} {x : Player} : Keeps s (t.setWp g x) := h.trans (Stays.refl t).setWp.keeps

theorem Keeps.wpLoadUnder (h : Keeps s t) {g : Nat} : Keeps s (t.wpLoadUnder g) := h.setWp

theorem Keeps.wpLoadSeg (h : Keeps s t) {g : Nat} : Keeps s (t.wpLoadSeg g) := h.wpLoadUnder.setWp.set

theorem Keeps.wpEnter (h : Keeps s t) {g e : Nat} : Keeps s (t.wpEnter g e) := h.set.set.setWp.wpLoadSeg

theorem Keeps.wpRelease (h : Keeps s t) {g : Nat} : Keeps s (t.wpRelease g) := h.setGroup.retargetGroup

theorem Keeps.wpReown (h : Keeps s t) {g : Nat} : Keeps s (t.wpReown g) := h.setGroup.retargetGroup

theorem Keeps.wpFollow (h : Keeps s t) {g p d : Nat} : Keeps s (t.wpFollow g p d) := Keeps.ite h.retarget h.follow

theorem Keeps.wpTarget (h : Keeps s t) {g : Nat} {code : BitVec 16} {d : Nat} {mask : BitVec 16} :
    Keeps s (t.wpTarget g code d mask) :=
  h.setGroup.foldl (fun _ _ h => h.wpFollow)

theorem Keeps.wpHistOpen (h : Keeps s t) {g : Nat} {t0 : Time} : Keeps s (t.wpHistOpen g t0) :=
  Keeps.set (Keeps.setWp (Keeps.set (Keeps.setTime (Keeps.setTime (Keeps.ite h.flag h)))))

theorem Keeps.wpHistClose (h : Keeps s t) {g : Nat} {t0 : Time} : Keeps s (t.wpHistClose g t0) := h.setTime.set

theorem Keeps.wpHalt (h : Keeps s t) {g : Nat} : Keeps s (t.wpHalt g) :=
  Keeps.wpRelease (Keeps.setWp (Keeps.set (Keeps.set (Keeps.ite h.wpHistClose.burn h))))

theorem Keeps.wpBegin (h : Keeps s t) {g e : Nat} : Keeps s (t.wpBegin g e) :=
  Keeps.ite h h.set.set.setWp.wpEnter.wpReown

theorem Keeps.wpRequest (h : Keeps s t) {g e : Nat} : Keeps s (t.wpRequest g e) := Keeps.ite h.set.setWp h

theorem Keeps.wpStream (h : Keeps s t) {g : Nat} : Keeps s (t.wpStream g).1 := Keeps.ite_fst h.setWp h.setWp.set.set

theorem Keeps.wpSubstitute (h : Keeps s t) {g : Nat} : Keeps s (t.wpSubstitute g).1 := h.setWp.count

theorem Keeps.wpUnder (h : Keeps s t) {g : Nat} {t0 : Time} : Keeps s (t.wpUnder g t0).1 :=
  h.flag.set.wpHistOpen.set.setWp.wpSubstitute

theorem Keeps.wpTake (h : Keeps s t) {g : Nat} {t0 : Time} : Keeps s (t.wpTake g t0).1 :=
  Keeps.ite_fst (Keeps.ite_fst h.wpUnder h.wpStream.setWp) h.setWp

theorem Keeps.wpBoundary (h : Keeps s t) {g : Nat} (e : t.wpBoundary g = some u) : Keeps s u := by
  unfold State.wpBoundary at e
  dsimp only at e
  split at e
  · exact Option.some.inj e ▸ h.set.wpEnter
  · split at e
    · exact Option.some.inj e ▸ h.wpEnter
    · split at e
      · rw [Option.ite_none_left_eq_some] at e
        exact Option.some.inj e.2 ▸ h.wpEnter
      · exact Option.some.inj e ▸ h.set.wpLoadSeg

theorem Keeps.wpResume (h : Keeps s t) {g : Nat} {t0 : Time} : Keeps s (t.wpResume g t0) := h.wpHistClose.set.set

theorem Keeps.wpNext (h : Keeps s t) {g : Nat} {now : Time} : Keeps s (t.wpNext g now).1 := by
  unfold State.wpNext
  dsimp only
  split
  · split
    · exact .ite_fst h.wpLoadUnder.wpResume.set.wpEnter.wpTake
        (.ite_fst h.wpLoadUnder.wpResume.wpTake h.wpLoadUnder.setWp.set.wpSubstitute)
    · exact h.wpSubstitute
  · split
    · split
      · next e => exact (h.wpBoundary e).wpTake
      · exact h.set.wpHalt
    · exact h.wpTake

theorem Keeps.wpMarks (h : Keeps s t) {g x : Nat} {t0 : Time} : Keeps s (t.wpMarks g x t0) :=
  Keeps.ite (Keeps.snapRequestAt (Keeps.ite h.setTime.causeRouted h)) (Keeps.ite h.setTime.causeRouted h)

theorem Keeps.wpIssue (h : Keeps s t) {g addr code : Nat} {t0 : Time} : Keeps s (t.wpIssue g addr code t0) :=
  Keeps.setWp (Keeps.set (Keeps.set (Keeps.ite h h.flag)))

theorem Keeps.wpSample (h : Keeps s t) {g : Nat} {now : Time} {last : Bool} {ecc : EccResult} :
    Keeps s (t.wpSample g now last ecc) := by
  have next : ∀ u a, t.wpNext g now = (u, a) → Keeps s u := fun u a e => by simpa [e] using h.wpNext (g := g) (now := now)
  refine .ite h ?_
  split
  · next u e => exact next _ _ e
  · next u a e =>
    have k := (next _ _ e).sramRead (m := waveMem g) (ecc := ecc)
    exact .ite k (.ite k.wpMarks.wpIssue k.wpMarks.count.raise)

theorem Keeps.wpTicks (h : Keeps s t) {g : Nat} {now : Time} {ecc : EccResult} {n : Nat} :
    Keeps s (t.wpTicks g now ecc n) := by
  induction n generalizing t with
  | zero => exact h
  | succ n ih => exact ih h.wpSample

theorem Keeps.asOf (h : Keeps s t) {now : Time} {f : State → State} (k : ∀ u, Keeps s u → Keeps s (f u)) :
    Keeps s (t.asOf now f) := (k _ h.withTime).withTime

theorem Keeps.wpTick (h : Keeps s t) {g : Nat} {ecc : EccResult} : Keeps s (t.wpTick g ecc) := by
  unfold State.wpTick
  split
  · exact Keeps.ite (h.setWp.asOf (fun _ h => h.wpTicks)) h
  · exact h

theorem Keeps.wpCatch (h : Keeps s t) {g : Nat} : Keeps s (t.wpCatch g) := h.foldl (fun _ _ h => h.wpTick)

theorem Keeps.execWpSampleTick {x : WaveRead} : RunsTo (execWpSampleTick x s) (Keeps s) :=
  Keeps.done (Keeps.refl s).wpTick

theorem Keeps.writeWpCmd (h : Keeps s t) {g : Nat} {v : Word} : Keeps s (t.writeWpCmd g v) :=
  Keeps.ite h.wpCatch.wpHalt (Keeps.ite h.wpCatch.wpBegin (Keeps.ite h.wpCatch.wpRequest h.wpCatch))

theorem Keeps.execWpStart {g : GroupIx} {v : Word} : RunsTo (execWpStart g v s) (Keeps s) :=
  Keeps.doneIf ((Keeps.refl s).mirrored (fun _ h => h.writeWpCmd))

theorem Keeps.execWpStop {g : GroupIx} {v : Word} : RunsTo (execWpStop g v s) (Keeps s) :=
  Keeps.doneIf ((Keeps.refl s).mirrored (fun _ h => h.writeWpCmd))

theorem Keeps.execWpJump {g : GroupIx} {v : Word} : RunsTo (execWpJump g v s) (Keeps s) :=
  Keeps.doneIf ((Keeps.refl s).mirrored (fun _ h => h.writeWpCmd))

theorem Keeps.writeWpSctl (h : Keeps s t) {g : Nat} {v : Word} : Keeps s (t.writeWpSctl g v) :=
  Keeps.ite h.set.set.setWp h.set

theorem Keeps.execWpSctlArm {g : GroupIx} {v : Word} : RunsTo (execWpSctlArm g v s) (Keeps s) :=
  Keeps.done ((Keeps.refl s).mirrored (fun _ h => h.writeWpSctl))

theorem Keeps.wpEpoch (h : Keeps s t) {g : Nat} : Keeps s (t.wpEpoch g) := h.set.setWp.wpBegin

theorem Keeps.execWpSampleTarget {g : GroupIx} : RunsTo (execWpSampleTarget g s) (Keeps s) := by
  unfold Machine.execWpSampleTarget
  exact Keeps.done (by split; exacts [(Keeps.ite (Keeps.wpTarget (Keeps.refl s).setWp) (Keeps.refl s)), (Keeps.refl
    s)])

theorem Keeps.wpUpdatePhase (h : Keeps s t) {g : Nat} {useIt : Bool} : Keeps s (t.wpUpdatePhase g useIt) :=
  h.trans (Stays.refl t).wpUpdatePhase.keeps

theorem Keeps.wpDeliver (h : Keeps s t) {g : Nat} {w : Native} : Keeps s (t.wpDeliver g w) :=
  Keeps.ite h.setMemWord.set h

theorem Keeps.wpStrmCommit (h : Keeps s t) {g : Nat} : Keeps s (t.wpStrmCommit g) := h.set.set.setWp

theorem Keeps.wpTrig (h : Keeps s t) {k : Nat} : Keeps s (t.wpTrig k) := h.forEach (fun _ _ h => h.wpCatch.setWp)

theorem Keeps.execTrigInRise {k : Fin 2} : RunsTo (execTrigInRise k s) (Keeps s) := by
  refine Keeps.done (Keeps.ite (Keeps.smWake ?same) ?same)
  exact Keeps.forEach (Keeps.wpTrig (Keeps.refl s).trigInCapture) (fun _ _ h => h.teExternal)

theorem Keeps.setWait (h : Keeps s t) {l c : Nat} {w : Option Wait} : Keeps s (t.setWait l c w) :=
  h.trans (Stays.refl t).setWait.keeps

theorem Keeps.engGoIdle (h : Keeps s t) {l : Nat} : Keeps s (t.engGoIdle l) := h.trans (Stays.refl t).engGoIdle.keeps

theorem Keeps.selfPark (h : Keeps s t) : Keeps s t.selfPark := h.trans (Stays.refl t).selfPark.keeps

theorem Keeps.machineCheck (h : Keeps s t) {l cause slices entry : Nat} :
    Keeps s (t.machineCheck l cause slices entry) := h.trans (Stays.refl t).machineCheck.keeps

theorem Keeps.scrubEntry (h : Keeps s t) {e i : Nat} : Keeps s (t.scrubEntry e i) := by
  unfold State.scrubEntry
  exact Keeps.ite h (by split; exacts [h.setCsEntry.flag, h.flag])

theorem Keeps.scrubDisp (h : Keeps s t) {e op : Nat} : Keeps s (t.scrubDisp e op) :=
  h.trans (Stays.refl t).scrubDisp.keeps

theorem Keeps.mchkRepair (h : Keeps s t) {l : Nat} : Keeps s (t.mchkRepair l) :=
  Keeps.ite h (Keeps.ite h.scrubEntry (Keeps.ite h.scrubDisp h))

theorem Keeps.closeUnderrun (h : Keeps s t) {m : Nat} : Keeps s (t.closeUnderrun m) := Keeps.ite h.setTime.set.burn h

theorem Keeps.releaseLanes (h : Keeps s t) {g : Nat} : Keeps s (t.releaseLanes g) := by
  unfold State.releaseLanes
  split <;> exact (h.forEach (fun _ _ h => h.setChan))

theorem Keeps.resetEngine (h : Keeps s t) {keepMchk : Bool} {m : Nat} : Keeps s (t.resetEngine keepMchk m) := by
  have idle := (h.ofLive (RegFile.clearRange_rising _ (groupBase m + 0xB400) (groupBase m + 0xB400 + 0xC00))).closeUnderrun
    (m := m) |>.set (x := SQ_ELIG_ELIG m) (v := 0) |>.set (x := SQ_STRM_STAT_FILL m) (v := 0)
    |>.set (x := SQ_MSGSTAT_DEPTH m) (v := 0) |>.set (x := SQ_STAT_RUNPRIO m) (v := 0) |>.set (x := SQ_STAT_RUNCTX m) (v := 0)
    |>.set (x := SQ_STAT_ENG m) (v := if keepMchk then engMchk else engIdle)
  exact ((((Keeps.setGroup ((Keeps.setEngine (Keeps.ite idle idle.setBit)).forEach fun _ _ h => h.setBit)).releaseLanes
    ).setVcnt.discardInterval).killOutcomes).parkGroup

theorem Keeps.engineReset (h : Keeps s t) {e : Nat} : Keeps s (t.engineReset e) :=
  h.mchkRepair.forEach (fun _ _ h => h.resetEngine)

theorem Keeps.resetAllEngines (h : Keeps s t) : Keeps s t.resetAllEngines := h.forEach (fun _ _ h => h.engineReset)

theorem Keeps.pushMsg (h : Keeps s t) {e : Nat} {w : Native} : Keeps s (t.pushMsg e w) :=
  Keeps.ite h.flag h.setEngine.set.causeRouted

theorem Keeps.sendMsg (h : Keeps s t) {e c : Nat} {t0 : Time} {w : Native} {dest : Nat} :
    Keeps s (t.sendMsg e c t0 w dest) := by
  unfold State.sendMsg
  split
  · exact h.pushMsg
  · exact Keeps.ite h.pushMsg h.routePacket
  · exact h.ringRecord

theorem Keeps.request (h : Keeps s t) {g : Nat} {i : Issued} {b : Tick} {r : XReq} : Keeps s (t.request g i b r) := by
  unfold State.request
  split
  · exact h.writeWpCmd
  · exact h.measMask
  · exact Keeps.ite h.gateStop h.gateStart
  · exact Keeps.ite h.snapRequestAt h
  · refine Keeps.ite (Keeps.capAwait ?same) ?same
    exact Keeps.ite (h.forEach (fun _ _ h => h.teExternal)) h
  · exact h.sendMsg
  · exact Keeps.ite (h.forEach (fun _ _ h => h.tripRearm)) h

theorem Keeps.recvMsg (h : Keeps s t) {l c : Nat} {i : Native} : Keeps s (t.recvMsg l c i) := by
  unfold State.recvMsg
  split; exacts [h.setEngine.set.set.set.set, h]

theorem Keeps.holdTo (h : Keeps s t) {l : Nat} {b : Tick} : Keeps s (t.holdTo l b) :=
  h.trans (Stays.refl t).holdTo.keeps

theorem Keeps.fetchEntry (h : Keeps s t) {l i : Nat} : Keeps s (t.fetchEntry l i) := Keeps.ite h.scrubEntry h

theorem Keeps.dispatch (h : Keeps s t) {l c : Nat} : Keeps s (t.dispatch l c) := h.trans (Stays.refl t).dispatch.keeps

theorem Keeps.programClamp (h : Keeps s t) {l pc : Nat} : Keeps s (t.programClamp l pc) :=
  h.trans (Stays.refl t).programClamp.keeps

theorem Keeps.cutClamp (h : Keeps s t) {l c : Nat} : Keeps s (t.cutClamp l c) := h.trans (Stays.refl t).cutClamp.keeps

theorem Keeps.switchTo (h : Keeps s t) {l c : Nat} {w : Time} : Keeps s (t.switchTo l c w) :=
  h.trans (Stays.refl t).switchTo.keeps

theorem Keeps.takeDecision (h : Keeps s t) {l : Nat} : Keeps s (t.takeDecision l) :=
  h.trans (Stays.refl t).takeDecision.keeps

theorem Keeps.lower (h : Keeps s t) {x : Fld} : Keeps s (t.lower x) := Keeps.ite h h.set

theorem Keeps.clearTested (h : Keeps s t) {l c : Nat} {i : Native} : Keeps s (t.clearTested l c i) := by
  unfold State.clearTested
  exact Keeps.ite h (by split; exacts [h.lower, h.lower, h.lower, h.lower, h.lower, h.lower, h.lower, h.lower,
    h.lower, h.lower, h])

/-- A choice between two results of the stack unit. -/
theorem Keeps.ite_state {c : Prop} [Decidable c] {x y : StackResult} (h : Keeps s x.state) (k : Keeps s y.state) :
    Keeps s (if c then x else y).state := by
  split <;> assumption

theorem Keeps.stackUnit (h : Keeps s t) {l c op : Nat} {i : Native} : Keeps s (t.stackUnit l c op i).state := by
  unfold State.stackUnit
  dsimp only
  split
  · exact .ite_state h.set.set.set h
  · exact .ite_state h.set.set.set.set h
  · exact .ite_state h.set h
  · exact .ite_state (.ite_state h.set h.set) h
  · exact h

theorem Keeps.aluUnit (h : Keeps s t) {l c : Nat} {m : Micro} {i : Native} {vc : Nat} {w : Time} :
    Keeps s (t.aluUnit l c m i vc w) := by
  unfold State.aluUnit
  exact Keeps.ite h (Keeps.ite (Keeps.set (by split; exacts [h.set, (Keeps.ite h.set (Keeps.ite h.set h)), h])) (by
    split; exacts [h.set, (Keeps.ite h.set (Keeps.ite h.set h)), h]))

theorem Keeps.finalFields (h : Keeps s t) {l c : Nat} {m : Micro} {i : Native} {test clr : Bool} {vc : Nat} {w : Time} :
    Keeps s (t.finalFields l c m i test clr vc w).1 :=
  .ite h.aluUnit.stackUnit.set.clearTested h.aluUnit.stackUnit.set

theorem Keeps.settings (h : Keeps s t) {l c : Nat} {m : Micro} {i : Native} : Keeps s (t.settings l c m i).1 := by
  unfold State.settings
  split; exacts [h.set, h.set, h]

theorem Keeps.noteUnderrun (h : Keeps s t) {l c : Nat} {b : Tick} : Keeps s (t.noteUnderrun l c b) :=
  Keeps.ite h.count.set h.count.set.flag.raise.setTime.setTime.set

theorem Keeps.noteStream (h : Keeps s t) {l : Nat} {b : Tick} : Keeps s (t.noteStream l b) :=
  Keeps.ite h.set.setTime.set h.set

theorem Keeps.popStream (h : Keeps s t) {m : Nat} : Keeps s (t.popStream m) := h.setEngine.set

theorem Keeps.issueVector (h : Keeps s t) {l c : Nat} {m : Micro} {i : Native} {va : Nat} {xreq : Option XReq} {turn :
  Option TurnEnd} :
    Keeps s (t.issueVector l c m i va xreq turn) := by
  refine Keeps.setEngine (Keeps.ite (Keeps.noteUnderrun ?same) (Keeps.ite (Keeps.noteStream ?same) (Keeps.set ?same)))
  exact Keeps.ite (Keeps.forEach (h.foldl (fun _ _ h => h.setGroup)) (fun _ _ h => h.popStream)) (h.foldl (fun _ _ h
    => h.setGroup))

theorem Keeps.goOn (h : Keeps s t) {l c : Nat} {m : Micro} {x : Exec} {test clamp : Bool} :
    Keeps s (t.goOn l c m x test clamp).1 := by
  unfold State.goOn
  split
  · exact h.setEngine
  · exact h.setEngine
  · exact Keeps.ite_fst h.setEngine (Keeps.dispatch (Keeps.ite h.programClamp h))

theorem Keeps.swcTurn (h : Keeps s t) {l c d : Nat} {w : Time} : Keeps s (t.swcTurn l c d w).1 := by
  unfold State.swcTurn
  exact Keeps.ite_fst h.raiseBit (by split; exacts [h.dropCause,
    h.cutClamp.raiseBit.engGoIdle.setCtx.setPrio.switchTo])

theorem Keeps.turnOver (h : Keeps s t) {l c : Nat} {x : CtxState} {w : Time} : Keeps s (t.turnOver l c x w) := by
  unfold State.turnOver
  dsimp only
  generalize (if (t.engine l).halting.isSome = true then _ else _ : CtxState) = y
  split
  · exact h.engGoIdle.setCtx.switchTo
  · exact h.engGoIdle.setCtx

theorem Keeps.endTurn (h : Keeps s t) {l c : Nat} {t0 : TurnEnd} {w : Time} : Keeps s (t.endTurn l c t0 w) := by
  unfold State.endTurn
  split; exacts [h.turnOver, h.turnOver, h.setEngine.swcTurn]

theorem Keeps.afterFinal (h : Keeps s t) {l c : Nat} {m : Micro} {x : Exec} {test clamp : Bool} :
    Keeps s (t.afterFinal l c m x test clamp).1 := by
  unfold State.afterFinal
  split
  · exact h.goOn
  · exact Keeps.ite_fst h.goOn.setEngine (Keeps.ite_fst h.setEngine.swcTurn h.setEngine.swcTurn.goOn)
  · exact Keeps.ite_fst (Keeps.setEngine (Keeps.ite h.programClamp h)) (Keeps.endTurn (Keeps.ite (Keeps.forEach
      (Keeps.ite h.programClamp h) (fun _ _ h => h.endEarly)) (Keeps.ite h.programClamp h)))

theorem Keeps.execute (h : Keeps s t) {l c : Nat} {m : Micro} {x : Exec} : Keeps s (t.execute l c m x).1 := by
  unfold State.execute
  extract_lets i _ _ _ _ _ _ final
  have chosen : Keeps s (if final = true then t.settings l c m i else (t, false)).1 := .ite_fst h.settings h
  generalize (if final = true then _ else _ : State × Bool) = q at chosen ⊢
  obtain ⟨v, k⟩ := q
  dsimp -zeta only
  extract_lets issued received _ _ stored
  have issuedKept : Keeps s issued := .ite chosen.issueVector chosen
  have receivedKept : Keeps s received := .ite issuedKept.recvMsg issuedKept
  have storedKept : Keeps s stored := .ite receivedKept.setEngine receivedKept
  exact .ite_fst storedKept.set (.ite_fst storedKept.finalFields.set.afterFinal
    (.ite storedKept.finalFields.set.programClamp storedKept.finalFields.set))

theorem Keeps.runMicro (h : Keeps s t) {l c : Nat} {m : Micro} : Keeps s (t.runMicro l c m).1 := h.setEngine.execute

theorem Keeps.barrierRoot (h : Keeps s t) {b : Nat} : Keeps s (t.barrierRoot b) := Keeps.ite h.broadcast.withCl h

theorem Keeps.barrierReport (h : Keeps s t) {b n : Nat} : Keeps s (t.barrierReport b n) :=
  Keeps.ite h.withCl.barrierRoot (Keeps.ite h.sendUp h.withCl)

theorem Keeps.barrierSelf (h : Keeps s t) {b : Nat} : Keeps s (t.barrierSelf b) := Keeps.ite h.withCl.barrierReport h

theorem Keeps.arrive (h : Keeps s t) {l c b : Nat} {a : Time} : Keeps s (t.arrive l c b a) := by
  unfold State.arrive
  exact Keeps.ite h.setBit.setEngine.barrierSelf (by split; exacts [h.setWait, h])

theorem Keeps.startHold (h : Keeps s t) {l c : Nat} {word : BitVec 144} {m : Micro} : Keeps s (t.startHold l c word m) := by
  unfold State.startHold
  dsimp only
  split
  · exact h.setWait.setEngine.set.arrive
  · exact h.setWait.setEngine.set.holdTo
  · exact h.setWait.setEngine.set

theorem Keeps.micro (h : Keeps s t) {l : Nat} : Keeps s (t.micro l).1 := by
  unfold State.micro
  split
  · exact h
  · exact Keeps.ite_fst h.fetchEntry.machineCheck (Keeps.ite_fst h.fetchEntry.machineCheck (Keeps.ite_fst
      h.fetchEntry.startHold h.fetchEntry.runMicro))

theorem Keeps.runMicros (h : Keeps s t) {l n : Nat} : Keeps s (t.runMicros l n) := by
  induction n generalizing t with
  | zero => exact h
  | succ n ih => exact .ite (.ite (ih h.micro.takeDecision) h.micro.takeDecision) h.micro

theorem Keeps.runRow (h : Keeps s t) {l n : Nat} {p : Native → Bool} : Keeps s (t.runRow l n p) :=
  Keeps.ite h.takeDecision.runMicros h

theorem Keeps.releaseWait (h : Keeps s t) {l c : Nat} {n : Time} {clr : Bool} : Keeps s (t.releaseWait l c n clr) := by
  unfold State.releaseWait
  split
  · exact h
  · exact Keeps.ite (Keeps.execute (Keeps.set (Keeps.setEngine (by split; exacts [h.setWait, h.setWait.holdTo]))))
      h.setWait.execute

theorem Keeps.swcEnd (h : Keeps s t) {l : Nat} : Keeps s (t.swcEnd l) := by
  unfold State.swcEnd
  split
  · exact by split; exacts [(Keeps.ite h.releaseWait h), h]
  · exact h

theorem Keeps.selectAt (h : Keeps s t) {g lsel : Nat} {b : Tick} : Keeps s (t.selectAt g lsel b) :=
  Keeps.ite h h.setGroup

theorem Keeps.commitAt (h : Keeps s t) {g : Nat} {b : Tick} : Keeps s (t.commitAt g b) := h.setGroup

/-- The request of a vector that begins. -/
theorem Keeps.requested (h : Keeps s t) {r : Option XReq} {g : Nat} {i : Issued} {b : Tick} :
    Keeps s (match r with | some r => t.request g i b r | none => t) := by
  split
  · exact h.request
  · exact h

theorem Keeps.boundary (h : Keeps s t) {g : Nat} {i : Issued} {b : Tick} : Keeps s (t.boundary g i b) := by
  have begun := (h.setGroup (g := g) (x := { t.group g with issue := (t.group g).issue.tail })).selectAt (g := g)
    (lsel := i.lsel) (b := b) |>.commitAt (g := g) (b := b) |>.beginVector (g := g) (i := i) (b := b)
    |>.requested (r := i.xreq) (g := g) (i := i) (b := b)
  unfold State.boundary
  dsimp only
  split
  · exact .ite (.endTurn (.ite begun.endEarly begun)) (.ite begun.endEarly begun)
  · exact begun

theorem Keeps.row (h : Keeps s t) {e op : Nat} : Keeps s (t.row e op) := h.runRow

theorem Keeps.rowMod (h : Keeps s t) {e op k m : Nat} : Keeps s (t.rowMod e op k m) := h.runRow

theorem Keeps.execNop {e : EngineIx} : RunsTo (execNop e s) (Keeps s) := Keeps.done (Keeps.refl s).row

theorem Keeps.execVec {e : EngineIx} {n : Nat} : RunsTo (execVec e n s) (Keeps s) := Keeps.done (Keeps.refl s).runRow

theorem Keeps.execRpt {e : EngineIx} {n : Nat} : RunsTo (execRpt e n s) (Keeps s) := Keeps.done (Keeps.refl s).runRow

theorem Keeps.execStream {e : EngineIx} {n : Nat} : RunsTo (execStream e n s) (Keeps s) :=
  Keeps.done (Keeps.refl s).runRow

theorem Keeps.execLoopOp {e : EngineIx} : RunsTo (execLoopOp e s) (Keeps s) := Keeps.done (Keeps.refl s).row

theorem Keeps.execEndl {e : EngineIx} : RunsTo (execEndl e s) (Keeps s) := Keeps.done (Keeps.refl s).row

theorem Keeps.execJmp {e : EngineIx} : RunsTo (execJmp e s) (Keeps s) := Keeps.done (Keeps.refl s).row

theorem Keeps.execJmpc {e : EngineIx} : RunsTo (execJmpc e s) (Keeps s) := Keeps.done (Keeps.refl s).row

theorem Keeps.execCallOp {e : EngineIx} : RunsTo (execCallOp e s) (Keeps s) := Keeps.done (Keeps.refl s).row

theorem Keeps.execRet {e : EngineIx} : RunsTo (execRet e s) (Keeps s) := Keeps.done (Keeps.refl s).row

theorem Keeps.execWaitph {e : EngineIx} : RunsTo (execWaitph e s) (Keeps s) := Keeps.done (Keeps.refl s).row

theorem Keeps.execWaitt {e : EngineIx} : RunsTo (execWaitt e s) (Keeps s) := Keeps.done (Keeps.refl s).row

theorem Keeps.execWaitev {e : EngineIx} : RunsTo (execWaitev e s) (Keeps s) := Keeps.done (Keeps.refl s).row

theorem Keeps.execSync {e : EngineIx} : RunsTo (execSync e s) (Keeps s) := Keeps.done (Keeps.refl s).row

theorem Keeps.execSwc {e : EngineIx} : RunsTo (execSwc e s) (Keeps s) := Keeps.done (Keeps.refl s).row

theorem Keeps.execYield {e : EngineIx} : RunsTo (execYield e s) (Keeps s) := Keeps.done (Keeps.refl s).row

theorem Keeps.execHalt {e : EngineIx} : RunsTo (execHalt e s) (Keeps s) := Keeps.done (Keeps.refl s).row

theorem Keeps.execLdq {e : EngineIx} : RunsTo (execLdq e s) (Keeps s) := Keeps.done (Keeps.refl s).row

theorem Keeps.execAddq {e : EngineIx} : RunsTo (execAddq e s) (Keeps s) := Keeps.done (Keeps.refl s).row

theorem Keeps.execCmpq {e : EngineIx} : RunsTo (execCmpq e s) (Keeps s) := Keeps.done (Keeps.refl s).row

theorem Keeps.execMovq {e : EngineIx} : RunsTo (execMovq e s) (Keeps s) := Keeps.done (Keeps.refl s).row

theorem Keeps.execSetts {e : EngineIx} : RunsTo (execSetts e s) (Keeps s) := Keeps.done (Keeps.refl s).row

theorem Keeps.execSetls {e : EngineIx} : RunsTo (execSetls e s) (Keeps s) := Keeps.done (Keeps.refl s).row

theorem Keeps.execWpcStart {e : EngineIx} : RunsTo (execWpcStart e s) (Keeps s) := Keeps.done (Keeps.refl s).rowMod

theorem Keeps.execWpcStop {e : EngineIx} : RunsTo (execWpcStop e s) (Keeps s) := Keeps.done (Keeps.refl s).rowMod

theorem Keeps.execWpcJump {e : EngineIx} : RunsTo (execWpcJump e s) (Keeps s) := Keeps.done (Keeps.refl s).rowMod

theorem Keeps.execWpcStartat {e : EngineIx} : RunsTo (execWpcStartat e s) (Keeps s) :=
  Keeps.done (Keeps.refl s).rowMod

theorem Keeps.execMeasOp {e : EngineIx} : RunsTo (execMeasOp e s) (Keeps s) := Keeps.done (Keeps.refl s).row

theorem Keeps.execFreqStart {e : EngineIx} : RunsTo (execFreqStart e s) (Keeps s) := Keeps.done (Keeps.refl s).rowMod

theorem Keeps.execFreqStop {e : EngineIx} : RunsTo (execFreqStop e s) (Keeps s) := Keeps.done (Keeps.refl s).rowMod

theorem Keeps.execSumb {e : EngineIx} : RunsTo (execSumb e s) (Keeps s) := Keeps.done (Keeps.refl s).row

theorem Keeps.execSnapOp {e : EngineIx} : RunsTo (execSnapOp e s) (Keeps s) := Keeps.done (Keeps.refl s).row

theorem Keeps.execTrigOp {e : EngineIx} : RunsTo (execTrigOp e s) (Keeps s) := Keeps.done (Keeps.refl s).row

theorem Keeps.execMsgSend {e : EngineIx} : RunsTo (execMsgSend e s) (Keeps s) := Keeps.done (Keeps.refl s).rowMod

theorem Keeps.execMsgRecv {e : EngineIx} : RunsTo (execMsgRecv e s) (Keeps s) := Keeps.done (Keeps.refl s).rowMod

theorem Keeps.execArmt {e : EngineIx} : RunsTo (execArmt e s) (Keeps s) := Keeps.done (Keeps.refl s).row

theorem Keeps.execUndefinedOpcode {e : EngineIx} : RunsTo (execUndefinedOpcode e s) (Keeps s) :=
  Keeps.done (Keeps.refl s).runRow

theorem Keeps.releaseOver (h : Keeps s t) {l : Nat} : Keeps s (t.releaseOver l) := by
  unfold State.releaseOver
  exact h.forEach (fun _ _ h => (by split; exacts [h.releaseWait, h]))

theorem Keeps.execWaitRelease {e : EngineIx} : RunsTo (execWaitRelease e s) (Keeps s) :=
  Keeps.doneIf (Keeps.refl s).releaseOver

theorem Keeps.execWaitevTimeout {e : EngineIx} : RunsTo (execWaitevTimeout e s) (Keeps s) := by
  unfold Machine.execWaitevTimeout
  exact Keeps.doneIf ((Keeps.refl s).forEach (fun _ _ h => (by split; exacts [h.releaseWait, h])))

theorem Keeps.execSwcHoldEnd {e : EngineIx} : RunsTo (execSwcHoldEnd e s) (Keeps s) :=
  Keeps.done (Keeps.refl s).swcEnd

theorem Keeps.withdraw (h : Keeps s t) {b : Nat} : Keeps s (t.withdraw b) := h.set.foldl (fun _ _ h => h.setEngine)

theorem Keeps.releaseBarrier (h : Keeps s t) {b : Nat} {r : Time} : Keeps s (t.releaseBarrier b r) :=
  h.withdraw.foldl (fun _ _ h => h.releaseWait)

theorem Keeps.barrierNow (h : Keeps s t) {b : Nat} : Keeps s (t.barrierNow b) := by
  unfold State.barrierNow
  split
  · exact h
  · exact Keeps.ite h.releaseBarrier.withCl.barrierSelf h.releaseBarrier

theorem Keeps.execBarrierRelease {b : Fin 8} : RunsTo (execBarrierRelease b s) (Keeps s) :=
  Keeps.done (Keeps.refl s).barrierNow

theorem Keeps.execBarrierTimeout {b : Fin 8} : RunsTo (execBarrierTimeout b s) (Keeps s) :=
  Keeps.doneIf (Keeps.foldl (Keeps.refl s).withdraw (fun _ _ h => h.raise.flag.releaseWait))

theorem Keeps.haltCtx (h : Keeps s t) {e c : Nat} : Keeps s (t.haltCtx e c) :=
  Keeps.ite h.setEngine.takeDecision h.setCtx.setWait

theorem Keeps.startCtx (h : Keeps s t) {e c : Nat} : Keeps s (t.startCtx e c) := by
  unfold State.startCtx
  split; exacts [h.setCtx, h.setCtx, h.setPrio, h]

theorem Keeps.sqCmd (h : Keeps s t) {e op c : Nat} : Keeps s (t.sqCmd e op c) := by
  unfold State.sqCmd
  split
  · exact Keeps.ite h.setCtx h
  · exact Keeps.ite h.startCtx h
  · exact Keeps.ite h.haltCtx h
  · exact h.engineReset
  · exact Keeps.ite h.setEngine.set h
  · exact h

theorem Keeps.sqCmdWrite (h : Keeps s t) {e op c : Nat} : Keeps s (t.sqCmdWrite e op c) :=
  h.mirrored (fun _ h => h.sqCmd)

theorem Keeps.execSqCmdReady {e : EngineIx} {c : Fin 32} : RunsTo (execSqCmdReady e c s) (Keeps s) :=
  Keeps.done (Keeps.refl s).sqCmdWrite

theorem Keeps.execSqCmdStart {e : EngineIx} {c : Fin 32} : RunsTo (execSqCmdStart e c s) (Keeps s) :=
  Keeps.done (Keeps.refl s).sqCmdWrite

theorem Keeps.execSqCmdHalt {e : EngineIx} {c : Fin 32} : RunsTo (execSqCmdHalt e c s) (Keeps s) :=
  Keeps.done (Keeps.refl s).sqCmdWrite

theorem Keeps.execSqCmdEngreset {e : EngineIx} : RunsTo (execSqCmdEngreset e s) (Keeps s) :=
  Keeps.done (Keeps.refl s).sqCmdWrite

theorem Keeps.execSqCmdStrmreset {e : EngineIx} : RunsTo (execSqCmdStrmreset e s) (Keeps s) :=
  Keeps.done (Keeps.refl s).sqCmdWrite

theorem Keeps.ringDoorbell (h : Keeps s t) {e : Nat} {v : Word} : Keeps s (t.ringDoorbell e v) := Keeps.ite h.cause h

theorem Keeps.execDoorbell {e : EngineIx} {v : Word} : RunsTo (execDoorbell e v s) (Keeps s) :=
  Keeps.done ((Keeps.refl s).mirrored (fun _ h => h.ringDoorbell))

theorem Keeps.writeTimer (h : Keeps s t) {e j : Nat} {v : Word} : Keeps s (t.writeTimer e j v) :=
  Keeps.ite h.set.set.set.set.setEngine h.set.set.set

theorem Keeps.execTimerArm {e : EngineIx} {j : Fin 2} {v : Word} : RunsTo (execTimerArm e j v s) (Keeps s) :=
  Keeps.done ((Keeps.refl s).mirrored (fun _ h => h.writeTimer))

theorem Keeps.timerFires (h : Keeps s t) {e j : Nat} : Keeps s (t.timerFires e j) :=
  Keeps.ite h.causeRouted.set h.causeRouted.setEngine

theorem Keeps.execTimerExpire {e : EngineIx} {j : Fin 2} : RunsTo (execTimerExpire e j s) (Keeps s) :=
  Keeps.doneIf (Keeps.refl s).timerFires

theorem Keeps.writeMsgin2 (h : Keeps s t) {e : Nat} {v : Word} : Keeps s (t.writeMsgin2 e v) := h.set.pushMsg

theorem Keeps.execMsginPush {e : EngineIx} {v : Word} : RunsTo (execMsginPush e v s) (Keeps s) :=
  Keeps.done ((Keeps.refl s).mirrored (fun _ h => h.writeMsgin2))

theorem Keeps.writeImage (h : Keeps s t) {l : List Native} {src : Nat} : Keeps s (t.writeImage l src) :=
  h.withImgEntriesImgDispCsDisp.set.set.set.resetAllEngines

theorem Keeps.loadImage (h : Keeps s t) {l : List Native} {src : Nat} : Keeps s (t.loadImage l src).1 :=
  Keeps.ite_fst h.writeImage h.set

theorem Keeps.checkSlot (h : Keeps s t) {n : Nat} : Keeps s (t.checkSlot n) := h.setBit.set.set

theorem Keeps.mcHostloadCmd (h : Keeps s t) : Keeps s t.mcHostloadCmd :=
  Keeps.ite h (Keeps.withSys h.resetAllEngines.set (by rfl))

theorem Keeps.mcFinish (h : Keeps s t) : Keeps s t.mcFinish := Keeps.ite (Keeps.withSys h (by rfl)) h

theorem Keeps.mcVerifyCmd (h : Keeps s t) {n : Fin 2} : Keeps s (t.mcVerifyCmd n) :=
  Keeps.ite h (Keeps.withSys h.set (by rfl))

theorem Keeps.writeMcCmd (h : Keeps s t) {v : Word} : Keeps s (t.writeMcCmd v) := by
  unfold State.writeMcCmd
  split
  · exact h.mcHostloadCmd
  · exact h.mcFinish
  · exact h.mcVerifyCmd
  · exact h

theorem Keeps.execHostload : RunsTo (execHostload s) (Keeps s) := Keeps.hostDone (Keeps.refl s).mcHostloadCmd

theorem Keeps.execFinish : RunsTo (execFinish s) (Keeps s) := Keeps.hostDone (Keeps.refl s).mcFinish

theorem Keeps.execVerify {slot : Fin 2} : RunsTo (execVerify slot s) (Keeps s) :=
  Keeps.hostDone (Keeps.refl s).mcVerifyCmd

theorem Keeps.finishDone (h : Keeps s t) {l : List Native} : Keeps s (t.finishDone l) := by
  have loaded : Keeps s (State.loadImage { t with sys := { t.sys with mcImage := none } } l 3).1 :=
    (Keeps.withSys h (by rfl)).loadImage
  unfold State.finishDone
  dsimp only
  split
  · next u e => exact Keeps.set (by simpa [e] using loaded)
  · next u e => exact Keeps.set (by simpa [e] using loaded)

theorem Keeps.verifyDone (h : Keeps s t) {n : Nat} : Keeps s (t.verifyDone n) :=
  Keeps.checkSlot (Keeps.set (Keeps.withSys h (by rfl)))

theorem Keeps.bootSlotsChecked (h : Keeps s t) : Keeps s t.bootSlotsChecked := Keeps.ite h.checkSlot.checkSlot h

theorem Keeps.bootTry (h : Keeps s t) {src : Option Nat} {l : List Native} : Keeps s (t.bootTry src l) := by
  have loaded : Keeps s (State.loadImage { t.bootSlotsChecked with
      sys := { t.bootSlotsChecked.sys with mcTry := t.bootSlotsChecked.sys.mcTry + 1 } } l (src.getD 2)).1 :=
    (Keeps.withSys h.bootSlotsChecked (by rfl)).loadImage
  unfold State.bootTry
  dsimp only
  split
  · next u e => exact (Keeps.set (by simpa [e] using loaded)).set
  · next u e => simpa [e] using loaded

theorem Keeps.bootRest (h : Keeps s t) : Keeps s t.bootRest :=
  h.bootSlotsChecked.foldl (fun _ _ h => (Keeps.ite h.bootTry h))

theorem Keeps.bootMc (h : Keeps s t) : Keeps s t.bootMc := Keeps.ite h.bootRest.set.set.set.set h.bootRest

theorem Keeps.imageChecked (h : Keeps s t) {src : ImageSource} : Keeps s (t.imageChecked src) := by
  unfold State.imageChecked
  split
  · exact Keeps.ite h.verifyDone (Keeps.ite h.bootTry h)
  · exact Keeps.ite h.bootTry h
  · exact by split; exacts [(Keeps.ite h.finishDone h), h]

theorem Keeps.execImageCheckComplete {src : ImageSource} : RunsTo (execImageCheckComplete src s) (Keeps s) :=
  Keeps.done (Keeps.refl s).imageChecked

theorem Keeps.writeStoreWindow (h : Keeps s t) {off : Nat} {w : Native} : Keeps s (t.writeStoreWindow off w) :=
  Keeps.ite h (h.forEach (fun _ _ h => h.setCsEntry))

theorem Keeps.execControlStoreWindowWrite {off : BitVec 16} {w : Native} :
    RunsTo (execControlStoreWindowWrite off w s) (Keeps s) :=
  Keeps.hostDone (Keeps.refl s).writeStoreWindow

theorem Keeps.dispStep (h : Keeps s t) : Keeps s t.dispStep := h.set

theorem Keeps.writeDispData (h : Keeps s t) {v : Word} : Keeps s (t.writeDispData v) :=
  Keeps.dispStep (Keeps.ite (h.forEach (fun _ _ h => h.setDispEntry)) h)

theorem Keeps.execDispatchDataAccess {w : Option Word} : RunsTo (execDispatchDataAccess w s) (Keeps s) := by
  unfold Machine.execDispatchDataAccess
  exact Keeps.hostDone (by split; exacts [(Keeps.refl s).writeDispData, (Keeps.dispStep (Keeps.refl s).emit)])

theorem Keeps.sramError (h : Keeps s t) {l k cause : Nat} : Keeps s (t.sramError l k cause) := h.sramRead.machineCheck

theorem Keeps.fetchError (h : Keeps s t) {l : Nat} {k : FetchError} : Keeps s (t.fetchError l k) := by
  unfold State.fetchError
  split
  · exact Keeps.ite h.takeDecision.micro h
  · exact Keeps.ite h.takeDecision h
  · exact Keeps.ite h.takeDecision.sramError h
  · exact Keeps.ite h.takeDecision.sramError h
  · exact Keeps.ite h.takeDecision.sramError h
  · exact h.sramRead

theorem Keeps.execControlStoreParityError {e : EngineIx} {kind : FetchError} :
    RunsTo (execControlStoreParityError e kind s) (Keeps s) :=
  Keeps.done (Keeps.refl s).fetchError

theorem Keeps.scrub (h : Keeps s t) {e : Nat} : Keeps s (t.scrub e) :=
  Keeps.ite h (Keeps.ite h.scrubEntry (Keeps.ite h.scrubDisp h))

theorem Keeps.execScrubRead {e : EngineIx} : RunsTo (execScrubRead e s) (Keeps s) := Keeps.done (Keeps.refl s).scrub

theorem Keeps.inject (h : Keeps s t) {v : Word} : Keeps s (t.inject v) := Keeps.ite h.setCsEntry h

theorem Keeps.execParityInject {v : Word} : RunsTo (execParityInject v s) (Keeps s) :=
  Keeps.hostDone (Keeps.refl s).inject

theorem Keeps.dgCompare (h : Keeps s t) : Keeps s t.dgCompare := Keeps.ite h.set.set.flag h.set.set

theorem Keeps.setDigest (h : Keeps s t) {p : RegFile} : Keeps s (t.setDigest p) := h.withDg.dgCompare

theorem Keeps.execDigestRecompute : RunsTo (execDigestRecompute s) (Keeps s) :=
  Keeps.doneIf (Keeps.setDigest (Keeps.refl s).set)

theorem Keeps.scalc (h : Keeps s t) : Keeps s t.scalc := Keeps.ite h h.withDg

theorem Keeps.execScalc : RunsTo (execScalc s) (Keeps s) := Keeps.hostDone (Keeps.refl s).scalc

theorem Keeps.dgTally (h : Keeps s t) : Keeps s t.dgTally := Keeps.ite h.set.set.flag h.set.set

theorem Keeps.dgReported (h : Keeps s t) {dev cls : Nat} {d : BitVec 64} {mis : Bool} :
    Keeps s (t.dgReported dev cls d mis) :=
  h.withDg.dgTally

theorem Keeps.dgReport (h : Keeps s t) : Keeps s t.dgReport := Keeps.ite h.withDg.dgReported h.withDg.sendUp

theorem Keeps.execDigestReport : RunsTo (execDigestReport s) (Keeps s) := Keeps.doneIf (Keeps.refl s).dgReport

theorem Keeps.execDigestReportReceive {dev : BitVec 10} {cls : BitVec 8} {digest : BitVec 64} {mis : Bool} :
    RunsTo (execDigestReportReceive dev cls digest mis s) (Keeps s) :=
  Keeps.doneIf (Keeps.refl s).dgReported

theorem Keeps.putCref (h : Keeps s t) {c : Nat} {valid : Bool} {d : BitVec 64} : Keeps s (t.putCref c valid d) :=
  h.set.set.setBit

theorem Keeps.sendCref (h : Keeps s t) {c : Nat} : Keeps s (t.sendCref c) := Keeps.ite h.broadcast h

theorem Keeps.crefReceived (h : Keeps s t) {c : Nat} {valid : Bool} {d : BitVec 64} :
    Keeps s (t.crefReceived c valid d) :=
  Keeps.ite h.putCref.dgCompare h

theorem Keeps.execCrefReceive {cls : BitVec 8} {valid : Bool} {digest : BitVec 64} :
    RunsTo (execCrefReceive cls valid digest s) (Keeps s) :=
  Keeps.done (Keeps.refl s).crefReceived

theorem Keeps.learn (h : Keeps s t) : Keeps s t.learn := by
  unfold State.learn
  exact Keeps.ite (Keeps.dgCompare (h.foldl (fun _ _ h => (by split; exacts [h.putCref.sendCref, h])))) h

theorem Keeps.execLearn : RunsTo (execLearn s) (Keeps s) := Keeps.hostDone (Keeps.refl s).learn

theorem Keeps.writeCref (h : Keeps s t) {c : Nat} {hi : Bool} {v : Word} : Keeps s (t.writeCref c hi v) :=
  Keeps.ite h (Keeps.dgCompare (Keeps.sendCref (Keeps.ite h.set.setBit h.set)))

theorem Keeps.writeCvalid (h : Keeps s t) {w : Nat} {v : Word} : Keeps s (t.writeCvalid w v) :=
  Keeps.ite h (Keeps.dgCompare (h.set.forEach (fun _ _ h => h.sendCref)))

theorem Keeps.reloadDone (h : Keeps s t) : Keeps s t.reloadDone := by
  have loaded := h.loadImage (l := t.slotWords (t.get MC_IMGSEL_SLOT)) (src := t.get MC_IMGSEL_SLOT)
  unfold State.reloadDone
  dsimp only
  split
  · next u e => exact (Keeps.set (by simpa [e] using loaded)).setDigest
  · next u e =>
    rw [e] at loaded
    have other := (loaded.flag (fl := MC_FLAGS_LOADERR) (cnt := MC_CNT1_LOADERR)).set (x := MC_IMGSEL_SLOT)
      (v := 1 - t.get MC_IMGSEL_SLOT) |>.setStagedWord (r := MC_IMGSEL) (w := u.stagedWord MC_IMGSEL)
    generalize ((u.flag MC_FLAGS_LOADERR MC_CNT1_LOADERR).set MC_IMGSEL_SLOT (1 - t.get MC_IMGSEL_SLOT)).setStagedWord
      MC_IMGSEL (u.stagedWord MC_IMGSEL) = v at other
    have again := other.loadImage (l := v.slotWords (1 - t.get MC_IMGSEL_SLOT)) (src := 1 - t.get MC_IMGSEL_SLOT)
    split
    · next w e => exact (Keeps.set (by simpa [e] using again)).setDigest
    · next w e => exact Keeps.dgStale (Keeps.set (by simpa [e] using again))

theorem Keeps.execReloadComplete : RunsTo (execReloadComplete s) (Keeps s) := Keeps.doneIf (Keeps.refl s).reloadDone

theorem Keeps.snapHost (h : Keeps s t) : Keeps s t.snapHost := h.snapRequest

theorem Keeps.execSnapshotHost : RunsTo (execSnapshotHost s) (Keeps s) := Keeps.hostDone (Keeps.refl s).snapHost

theorem Keeps.snapAt (h : Keeps s t) {t0 : Time} {src : Nat} : Keeps s (t.snapAt t0 src) := Keeps.ite h.withSn h

theorem Keeps.snapSched (h : Keeps s t) : Keeps s t.snapSched := h.withSn.set

theorem Keeps.execSnapshotSched : RunsTo (execSnapshotSched s) (Keeps s) := Keeps.hostDone (Keeps.refl s).snapSched

theorem Keeps.domainSnap (h : Keeps s t) {t0 : Time} : Keeps s (t.domainSnap t0) :=
  Keeps.ite h.snapRequestAt.flag h.snapAt

theorem Keeps.snapDomSched (h : Keeps s t) : Keeps s t.snapDomSched := Keeps.ite h.broadcast.domainSnap h

theorem Keeps.execSnapshotDomsched : RunsTo (execSnapshotDomsched s) (Keeps s) :=
  Keeps.hostDone (Keeps.refl s).snapDomSched

theorem Keeps.snapReceived (h : Keeps s t) {t0 : Time} : Keeps s (t.snapReceived t0) := Keeps.ite h.domainSnap h

theorem Keeps.execDomainSnapReceive {t0 : Time} : RunsTo (execDomainSnapReceive t0 s) (Keeps s) :=
  Keeps.done (Keeps.refl s).snapReceived

theorem Keeps.snapLatch (h : Keeps s t) {r : Time × Nat × Bool} : Keeps s (t.snapLatch r) := by
  have taken := h.withSn (x := { t.sn with reqs := t.sn.reqs.filter (·.1 != r.1) })
  have unarmed := Keeps.ite (c := r.2.1.testBit 8 = true) (taken.set (x := SN_STAT_ARMED) (v := 0)) taken
  unfold State.snapLatch
  dsimp only
  split
  · exact unarmed.flag
  · exact .ite unarmed.withSn.set.setBit.set.flag unarmed.withSn.set.setBit.set

theorem Keeps.snapNow (h : Keeps s t) : Keeps s t.snapNow := by
  unfold State.snapNow
  split; exacts [h.snapLatch, h]

theorem Keeps.execSnapshotLatch : RunsTo (execSnapshotLatch s) (Keeps s) := Keeps.done (Keeps.refl s).snapNow

theorem Keeps.snapRelease (h : Keeps s t) {v : Word} : Keeps s (t.snapRelease v) := h.forEach (fun _ _ h => h.setBit)

theorem Keeps.execBankRelease {v : Word} : RunsTo (execBankRelease v s) (Keeps s) :=
  Keeps.hostDone (Keeps.refl s).snapRelease

theorem Keeps.execSnapshotItemRead : RunsTo (execSnapshotItemRead s) (Keeps s) :=
  Keeps.hostDone (Keeps.incr (Keeps.refl s).emit)

theorem Keeps.cmStatus (h : Keeps s t) {st code dev : Nat} : Keeps s (t.cmStatus st code dev) := h.set.set.set

theorem Keeps.cmWhere (h : Keeps s t) {codes : List Nat} {w : CkFail} : Keeps s (t.cmWhere codes w) :=
  h.set.set.set.set

theorem Keeps.cmDone (h : Keeps s t) : Keeps s t.cmDone := h.withCm

theorem Keeps.cmReject (h : Keeps s t) {fails : List (Nat × CkFail)} : Keeps s (t.cmReject fails) :=
  h.cmDone.cmWhere.cmStatus.flag

theorem Keeps.cmAbort (h : Keeps s t) : Keeps s t.cmAbort := h.cmDone.cmStatus.flag

theorem Keeps.cmAbort40 (h : Keeps s t) {dev code : Nat} : Keeps s (t.cmAbort40 dev code) :=
  h.cmDone.cmWhere.cmStatus.flag

theorem Keeps.cmStray (h : Keeps s t) : Keeps s t.cmStray := h.flag

theorem Keeps.cmRefuse (h : Keeps s t) {reason : Nat} : Keeps s (t.cmRefuse reason) := h.set.set.flag

/-- A property of a function, which `delta` unfolds without its arguments: given them, the kernel would compute the packet
that the function sends. -/
def OfBody {β : Type} (p : β → Prop) (f : β) : Prop := p f

theorem Keeps.domainAbort (h : Keeps s t) {b : Ballot} {dev code : Nat} : Keeps s (t.domainAbort b dev code) := by
  suffices all : OfBody (fun f => ∀ t b dev code, Keeps s t → Keeps s (f t b dev code)) State.domainAbort from all _ _ _ _ h
  delta State.domainAbort
  unfold OfBody
  beta_reduce
  intro t b dev code h
  extract_lets sent
  have k : Keeps s sent := h.withBallot.broadcast
  clear_value sent
  split
  · exact .ite k.cmAbort40 k
  · exact k

theorem Keeps.domainApply (h : Keeps s t) {b : Ballot} : Keeps s (t.domainApply b) := by
  suffices all : OfBody (fun f => ∀ t b, Keeps s t → Keeps s (f t b)) State.domainApply from all _ _ h
  delta State.domainApply
  unfold OfBody
  beta_reduce
  intro t b h
  extract_lets sent
  have k : Keeps s sent := h.withBallot.broadcast
  clear_value sent
  split
  · exact .ite k.withCm k
  · exact k

theorem Keeps.tally (h : Keeps s t) : Keeps s t.tally := by
  unfold State.tally
  split
  · exact h
  · exact Keeps.ite (by split; exacts [h.domainAbort, (Keeps.ite h.domainApply (Keeps.ite h.burn.domainAbort h))])
      (Keeps.ite (by split <;> exact h.withBallot.sendUp) (Keeps.ite h.withBallot h))

theorem Keeps.noteVote (h : Keeps s t) {id : BitVec 16} {yes : Bool} : Keeps s (t.noteVote id yes) := h.withCl

theorem Keeps.ownVote (h : Keeps s t) {id : BitVec 16} {yes : Bool} {code : Nat} : Keeps s (t.ownVote id yes code) := by
  unfold State.ownVote
  extract_lets noted
  have k : Keeps s noted := h.noteVote
  split
  · exact .ite k.withBallot.tally k
  · exact k

theorem Keeps.applyBefore (h : Keeps s t) {cs : List PlaneChange} : Keeps s (t.applyBefore cs) := by
  refine Keeps.forEach (Keeps.ite (Keeps.set (Keeps.resetAllEngines ?same)) (Keeps.forEach ?same (fun _ _ h =>
    h.engineReset))) (fun _ _ h => (Keeps.ite (h.forEach (fun _ _ h => h.endEarly)) h))
  exact Keeps.forEach (h.forEach (fun _ _ h => h.wpCatch.endPast)) (fun _ _ h => h.gateStop)

theorem Keeps.applyWp (h : Keeps s t) {cs : List PlaneChange} {g : Nat} : Keeps s (t.applyWp cs g) := by
  unfold State.applyWp
  extract_lets _ halted reowned _ clocked
  have halted : Keeps s halted := .ite h.wpHalt h
  have reowned : Keeps s reowned := .ite halted.wpReown halted
  have clocked : Keeps s clocked := .ite reowned.setWp reowned
  exact .ite clocked.wpStrmCommit clocked

theorem Keeps.applyGroup (h : Keeps s t) {cs : List PlaneChange} {a : Time} {g : Nat} : Keeps s (t.applyGroup cs a g) :=
  Keeps.applyWp (Keeps.ite (Keeps.setGroup (Keeps.ite h.setGroup h)) (Keeps.ite h.setGroup h))

theorem Keeps.applyBoot (h : Keeps s t) : Keeps s t.applyBoot :=
  Keeps.parkAll (Keeps.forEach (Keeps.set (Keeps.withSys h (by rfl))) (fun _ _ h => (Keeps.ite
    h.setGroup.retargetGroup h)))

theorem Keeps.applyPlane (h : Keeps s t) {a : Time} : Keeps s (t.applyPlane a) := by
  have stored := h.applyBefore (cs := t.planeChanges) |>.ofLive
    (f := t.planeChanges.foldl (fun f (c : PlaneChange) => f.setWord c.reg c.new) (t.applyBefore t.planeChanges).live)
    (fun k => List.foldlRecOn _ _ k fun _ k _ _ => RegFile.setWord_rising _ _ _ k)
    |>.ofStaged (f := []) fun _ => List.Pairwise.nil
  exact ((((((Keeps.ite stored.retrack stored).forEach fun _ _ h => h.applyGroup).forEach fun _ _ h => h.set).forEach
    fun _ _ h => h.teCommit).forEach fun _ _ h => h.barrierSelf).applyBoot).drainLogs

theorem Keeps.applyCommit (h : Keeps s t) {a : Time} {late : Bool} : Keeps s (t.applyCommit a late) :=
  Keeps.setDigest (Keeps.flag (Keeps.cmStatus (Keeps.ite h.snapNow.cmDone.applyPlane.setTime.flag.flag
    h.snapNow.cmDone.applyPlane.setTime)))

theorem Keeps.commitNow (h : Keeps s t) : Keeps s t.commitNow := by
  unfold State.commitNow
  split; exacts [h.applyCommit, h]

theorem Keeps.execCommitApply : RunsTo (execCommitApply s) (Keeps s) := Keeps.done (Keeps.refl s).commitNow

theorem Keeps.ochBoundary (h : Keeps s t) {g : Nat} {b : Tick} : Keeps s (t.ochBoundary g b) := Keeps.ite h.setGroup h

theorem Keeps.wpArmedNow (h : Keeps s t) {g : Nat} : Keeps s (t.wpArmedNow g) := Keeps.ite h.wpEpoch h

theorem Keeps.commitBy (h : Keeps s t) {b : Tick} : Keeps s (t.commitBy b) := by
  unfold State.commitBy
  split; exacts [(Keeps.ite h.applyCommit h), h]

theorem Keeps.execVectorBoundary {g : GroupIx} : RunsTo (execVectorBoundary g s) (Keeps s) := by
  refine Keeps.done ?_
  split
  · next b _ =>
    have armed := ((Keeps.refl s).commitBy (b := b)).wpArmedNow (g := g)
    generalize (s.commitBy b).wpArmedNow g = t at armed ⊢
    dsimp only
    split
    · exact armed.boundary.ochBoundary
    · exact armed
  · exact .refl s

theorem Keeps.cmStart (h : Keeps s t) {r : CmReq} : Keeps s (t.cmStart r) := h.withCm.set.set.cmWhere.cmStatus

theorem Keeps.cmRequest (h : Keeps s t) {check : Bool} {v : Word} : Keeps s (t.cmRequest check v) := by
  unfold State.cmRequest
  extract_lets
  split
  · exact .ite h.cmStart.withBallot.broadcast h.cmStart
  · exact h.cmRefuse

theorem Keeps.cmAbortChecked (h : Keeps s t) {r : CmReq} : Keeps s (t.cmAbortChecked r) := by
  unfold State.cmAbortChecked
  extract_lets aborted
  have k : Keeps s aborted := .cmAbort (.ite h.sendLink h)
  split
  · exact .ite k.domainAbort k
  · exact k

theorem Keeps.cmAbortCmd (h : Keeps s t) : Keeps s t.cmAbortCmd := by
  unfold State.cmAbortCmd
  split
  · exact h
  · exact Keeps.ite h (Keeps.ite (Keeps.ite h.cmAbortChecked h.withCm) (Keeps.ite (Keeps.cmAbort (Keeps.ite h.sendLink
      h)) (Keeps.ite (by split; exacts [h.domainAbort, h.broadcast.cmAbort40]) h)))

theorem Keeps.discardStaged (h : Keeps s t) : Keeps s { t with staged := [] } := h.ofStaged fun _ => List.Pairwise.nil

theorem Keeps.writeCmCmd (h : Keeps s t) {v : Word} : Keeps s (t.writeCmCmd v) := by
  unfold State.writeCmCmd
  split
  · exact h.cmRequest
  · exact h.cmRequest
  · exact h.cmAbortCmd
  · exact .ite h h.discardStaged
  · exact h

theorem Keeps.execCommitOp {v : Word} : RunsTo (execCommitOp v s) (Keeps s) := Keeps.hostDone (Keeps.refl s).cmRequest

theorem Keeps.execCheckOp {v : Word} : RunsTo (execCheckOp v s) (Keeps s) := Keeps.hostDone (Keeps.refl s).cmRequest

theorem Keeps.execAbortOp : RunsTo (execAbortOp s) (Keeps s) := Keeps.hostDone (Keeps.refl s).cmAbortCmd

theorem Keeps.execDiscard : RunsTo (execDiscard s) (Keeps s) :=
  have h := Keeps.refl s
  (Keeps.ite h h.discardStaged).hostDone

theorem Keeps.cmFail (h : Keeps s t) {r : CmReq} {fails : List (Nat × CkFail)} : Keeps s (t.cmFail r fails) := by
  refine Keeps.ite (Keeps.ownVote ?same) ?same
  exact Keeps.ite h.cmReject.sendLink (Keeps.ite h.cmReject.sendLink h.cmReject)

theorem Keeps.cmPass (h : Keeps s t) {r : CmReq} : Keeps s (t.cmPass r) := by
  unfold State.cmPass
  exact Keeps.ite (Keeps.cmStatus (Keeps.cmDone (Keeps.ite h.sendLink h))) (by split; exacts [(Keeps.cmStatus
    (Keeps.withCm (Keeps.ite (Keeps.raise (Keeps.ite (Keeps.sendLink (Keeps.ite h.sendLink h)) (Keeps.ite h.sendLink
    h))) (Keeps.ite (Keeps.sendLink (Keeps.ite h.sendLink h)) (Keeps.ite h.sendLink h))))), (Keeps.cmStatus
    (Keeps.withCm (Keeps.ite h.sendLink h))), (Keeps.ownVote (Keeps.cmStatus (Keeps.withCm (Keeps.ite h.sendLink
    h))))])

theorem Keeps.cmAgree (h : Keeps s t) {r : CmReq} : Keeps s (t.cmAgree r) := by
  refine .ite h.cmPass ?_
  split
  · exact h.withCm
  · extract_lets
    split
    · exact h.cmPass
    · exact h.cmFail

theorem Keeps.cmChecked (h : Keeps s t) : Keeps s t.cmChecked := by
  unfold State.cmChecked
  split
  · exact h
  · exact Keeps.ite h (Keeps.ite h.withDg.cmAbortChecked (by split; exacts [(Keeps.cmAgree (Keeps.ite
      h.withDg.sendLink h.withDg)), h.withDg.cmFail]))

theorem Keeps.execCommitCheckComplete : RunsTo (execCommitCheckComplete s) (Keeps s) :=
  Keeps.done (Keeps.refl s).cmChecked

theorem Keeps.twinPrepare (h : Keeps s t) {id : BitVec 16} {chk : Bool} {kind eng : Nat} {tgt digest : BitVec 64} :
    Keeps s (t.twinPrepare id chk kind eng tgt digest) := by
  unfold State.twinPrepare
  exact Keeps.ite h (by split; exacts [(Keeps.ite (Keeps.ite h.cmAgree h.withCm) h.sendLink), (Keeps.ite h.sendLink
    h.cmStart)])

theorem Keeps.execTwinPrepareReceive {id : BitVec 16} {chk : Bool} {kind : BitVec 3} {eng : EngineIx} {tgt digest :
  BitVec 64} :
    RunsTo (execTwinPrepareReceive id chk kind eng tgt digest s) (Keeps s) :=
  Keeps.done (Keeps.refl s).twinPrepare

theorem Keeps.twinVote (h : Keeps s t) {id : BitVec 16} {yes : Bool} {code : Nat} {digest : BitVec 64} :
    Keeps s (t.twinVote id yes code digest) := by
  unfold State.twinVote
  split; exacts [(Keeps.ite h.cmAgree h), h]

theorem Keeps.execTwinVoteReceive {id : BitVec 16} {yes : Bool} {code : BitVec 6} {digest : BitVec 64} :
    RunsTo (execTwinVoteReceive id yes code digest s) (Keeps s) :=
  Keeps.done (Keeps.refl s).twinVote

theorem Keeps.twinVoteLate (h : Keeps s t) : Keeps s t.twinVoteLate := by
  unfold State.twinVoteLate
  split; exacts [(Keeps.ite h.cmFail h), h]

theorem Keeps.execTwinVoteTimeout : RunsTo (execTwinVoteTimeout s) (Keeps s) := Keeps.done (Keeps.refl s).twinVoteLate

theorem Keeps.twinApply (h : Keeps s t) {id : BitVec 16} {apply : Bool} {t0 : Time} :
    Keeps s (t.twinApply id apply t0) := by
  unfold State.twinApply
  split
  · exact Keeps.ite (Keeps.cmStatus (Keeps.withCm (Keeps.ite h.raise h))) (Keeps.ite h.cmAbort h.cmStray)
  · exact h.cmStray

theorem Keeps.execTwinApplyReceive {id : BitVec 16} {apply : Bool} {t0 : Time} :
    RunsTo (execTwinApplyReceive id apply t0 s) (Keeps s) :=
  Keeps.done (Keeps.refl s).twinApply

theorem Keeps.domainPrepare (h : Keeps s t) {id : BitVec 16} {ta tv : Time} : Keeps s (t.domainPrepare id ta tv) :=
  Keeps.ite h (Keeps.ite h.withBallot.ownVote h.cmStart.withBallot)

theorem Keeps.execDomainPrepareReceive {id : BitVec 16} {ta tv : Time} :
    RunsTo (execDomainPrepareReceive id ta tv s) (Keeps s) :=
  Keeps.done (Keeps.refl s).domainPrepare

theorem Keeps.domainVote (h : Keeps s t) {id : BitVec 16} {yes : Bool} {dev code count : Nat} :
    Keeps s (t.domainVote id yes dev code count) := by
  unfold State.domainVote
  split; exacts [(Keeps.ite h.withBallot.tally h), h]

theorem Keeps.execDomainVoteReceive {id : BitVec 16} {yes : Bool} {dev : BitVec 10} {code : BitVec 6} {count : Nat} :
    RunsTo (execDomainVoteReceive id yes dev code count s) (Keeps s) :=
  Keeps.done (Keeps.refl s).domainVote

theorem Keeps.execVoteWindowExpire : RunsTo (execVoteWindowExpire s) (Keeps s) := by
  unfold Machine.execVoteWindowExpire
  exact Keeps.done (by split; exacts [(Keeps.ite (Keeps.refl s).tally (Keeps.refl s)), (Keeps.refl s)])

theorem Keeps.domainApplied (h : Keeps s t) {id : BitVec 16} : Keeps s (t.domainApplied id) := by
  unfold State.domainApplied
  split
  · exact Keeps.ite (Keeps.ite h.applyCommit h.withCm) h.cmStray
  · exact h.cmStray

theorem Keeps.execDomainApplyReceive {id : BitVec 16} : RunsTo (execDomainApplyReceive id s) (Keeps s) :=
  Keeps.done (Keeps.refl s).domainApplied

theorem Keeps.domainAborted (h : Keeps s t) {id : BitVec 16} {dev code : Nat} : Keeps s (t.domainAborted id dev code) := by
  unfold State.domainAborted
  split
  · exact Keeps.ite h.cmAbort40 (Keeps.ite h h.cmStray)
  · exact Keeps.ite h h.cmStray

theorem Keeps.execDomainAbortReceive {id : BitVec 16} {dev : BitVec 10} {code : BitVec 6} :
    RunsTo (execDomainAbortReceive id dev code s) (Keeps s) :=
  Keeps.done (Keeps.refl s).domainAborted

theorem Keeps.orphan (h : Keeps s t) : Keeps s t.orphan := by
  unfold State.orphan
  split; exacts [(Keeps.ite h.cmDone.cmStatus.flag h), h]

theorem Keeps.execCommitOrphan : RunsTo (execCommitOrphan s) (Keeps s) := Keeps.done (Keeps.refl s).orphan

theorem Keeps.stepTime (h : Keeps s t) {d : Time} : Keeps s (t.stepTime d) :=
  Keeps.withTpGroupsEnginesHiDgClTwSysTrigOutTime h (by rfl)

theorem Keeps.putMember (h : Keeps s t) {d : Nat} {is : Bool} : Keeps s (t.putMember d is) := Keeps.ite h h.setBit.set

theorem Keeps.pruned (h : Keeps s t) {d : Nat} : Keeps s (t.pruned d) := Keeps.ite h.putMember.flag h

theorem Keeps.execPruneReceive {dev : BitVec 10} : RunsTo (execPruneReceive dev s) (Keeps s) :=
  Keeps.doneIf (Keeps.refl s).pruned

theorem Keeps.dropRoutes (h : Keeps s t) {x : Nat} : Keeps s (t.dropRoutes x) :=
  Keeps.ite (h.withCl.forEach (fun _ _ h => h.pruned)) (Keeps.ite (h.withCl.forEach (fun _ _ h => h.sendUp)) h.withCl)

theorem Keeps.taRestart (h : Keeps s t) : Keeps s t.taRestart := h.withCl

theorem Keeps.swapCancel (h : Keeps s t) {x : Nat} : Keeps s (t.swapCancel x) := by
  unfold State.swapCancel
  split; exacts [(Keeps.ite h.withTw h), h]

theorem Keeps.portGoesDown (h : Keeps s t) {x st : Nat} : Keeps s (t.portGoesDown x st) := by
  unfold State.portGoesDown
  extract_lets _ _ _ _ counted down held entered
  have down : Keeps s down := h.setPort.count.set.set.set.set.swapCancel
  have held : Keeps s held := .ite down.set down
  have entered : Keeps s entered := .ite held.crossingEnters held
  exact .ite entered.dropRoutes entered

theorem Keeps.resendFrom (h : Keeps s t) {x seq : Nat} : Keeps s (t.resendFrom x seq) := Keeps.ite h h.setPort.count

theorem Keeps.tryJoin (h : Keeps s t) : Keeps s t.tryJoin := Keeps.ite (Keeps.set (Keeps.ite h.taRestart.set h)) h

theorem Keeps.portComesUp (h : Keeps s t) {x w nbr : Nat} : Keeps s (t.portComesUp x w nbr) := by
  refine Keeps.ite (Keeps.tryJoin (Keeps.ite (Keeps.set (Keeps.taRestart ?same)) ?same)) ?same
  exact Keeps.ite h.setPort.set.set.set.set.resendFrom h.setPort.set.set.set.set

theorem Keeps.execPortTrain {x : Fin 4} {lock : BitVec 4} {nbr : BitVec 10} :
    RunsTo (execPortTrain x lock nbr s) (Keeps s) := by
  refine Keeps.doneIf (Keeps.ite ?same (Keeps.portComesUp ?same))
  exact Keeps.set (Keeps.ite (Keeps.set (Keeps.refl s).setPort) (Keeps.refl s))

theorem Keeps.execPortTrainTimeout {x : Fin 4} : RunsTo (execPortTrainTimeout x s) (Keeps s) :=
  Keeps.doneIf (Keeps.set (Keeps.set (Keeps.refl s).setPort))

theorem Keeps.execRetrainTimeout {x : Fin 4} : RunsTo (execRetrainTimeout x s) (Keeps s) :=
  Keeps.doneIf (Keeps.count (Keeps.refl s).portGoesDown)

theorem Keeps.writePortCtl (h : Keeps s t) {x : Nat} {v : Word} : Keeps s (t.writePortCtl x v) :=
  Keeps.ite h.set.portGoesDown.set (Keeps.ite h.set.set.set h.set.set)

theorem Keeps.blockSend (h : Keeps s t) {x : Nat} : Keeps s (t.blockSend x) := by
  unfold State.blockSend
  extract_lets
  split
  · exact h.setPort.emit
  · split
    exact .ite h.setPort.emit h.setPort.emit

theorem Keeps.execBlockSend {x : Fin 4} : RunsTo (execBlockSend x s) (Keeps s) :=
  Keeps.doneIf (Keeps.refl s).blockSend

theorem Keeps.portRetrains (h : Keeps s t) {x : Nat} : Keeps s (t.portRetrains x) := h.setPort.set.count.swapCancel

theorem Keeps.linkFailure (h : Keeps s t) {x : Nat} : Keeps s (t.linkFailure x) := Keeps.ite h.setPort h.portRetrains

theorem Keeps.execResendTimeout {x : Fin 4} : RunsTo (execResendTimeout x s) (Keeps s) := by
  unfold Machine.execResendTimeout
  exact Keeps.done (by split; exacts [(Keeps.ite (Keeps.linkFailure (Keeps.resendFrom (Keeps.refl s).setPort))
    (Keeps.refl s)), (Keeps.refl s)])

theorem Keeps.blockAck (h : Keeps s t) {x ack : Nat} {nak : Bool} : Keeps s (t.blockAck x ack nak) :=
  Keeps.ite h.setPort.resendFrom.linkFailure h.setPort

theorem Keeps.blockArrives (h : Keeps s t) {x : Nat} {b : BitVec 640} : Keeps s (t.blockArrives x b).1 :=
  Keeps.ite_fst h.setPort.count.linkFailure (Keeps.ite_fst h.setPort.blockAck (Keeps.ite_fst
    h.setPort.blockAck.setPort (Keeps.ite_fst h.setPort.blockAck.setPort h.setPort.blockAck)))

theorem Keeps.execJoinOp {depth : BitVec 4} : RunsTo (execJoinOp depth s) (Keeps s) :=
  Keeps.doneIf (Keeps.sendUp (Keeps.set (Keeps.refl s).set))

theorem Keeps.joinReceived (h : Keeps s t) {d depth : Nat} : Keeps s (t.joinReceived d depth) := by
  unfold State.joinReceived
  split
  · exact h.putMember.routePacket
  · exact Keeps.routePacket (Keeps.ite h.flag h)

theorem Keeps.learnRoute (h : Keeps s t) {d x : Nat} : Keeps s (t.learnRoute d x) := Keeps.ite h.withCl h

theorem Keeps.execJoinReceive {dev : BitVec 10} {depth : BitVec 4} {x : Fin 4} :
    RunsTo (execJoinReceive dev depth x s) (Keeps s) :=
  Keeps.doneIf (Keeps.joinReceived (Keeps.refl s).learnRoute)

theorem Keeps.joinReplied (h : Keeps s t) {ok : Bool} : Keeps s (t.joinReplied ok) :=
  Keeps.ite h (Keeps.ite (h.set.set.withDg.forEach (fun _ _ h => h.barrierSelf)) h.set.flag)

theorem Keeps.execJoinReplyReceive {ok : Bool} {_reason : BitVec 4} :
    RunsTo (execJoinReplyReceive ok _reason s) (Keeps s) :=
  Keeps.done (Keeps.refl s).joinReplied

theorem Keeps.rejoin (h : Keeps s t) : Keeps s t.rejoin := Keeps.ite h.tryJoin h

theorem Keeps.execRejoin : RunsTo (execRejoin s) (Keeps s) := Keeps.hostDone (Keeps.refl s).rejoin

theorem Keeps.dreset (h : Keeps s t) : Keeps s t.dreset := Keeps.ite h.broadcast.resetAllEngines h

theorem Keeps.execDreset : RunsTo (execDreset s) (Keeps s) := Keeps.hostDone (Keeps.refl s).dreset

theorem Keeps.dresetReceived (h : Keeps s t) : Keeps s t.dresetReceived := Keeps.ite h.resetAllEngines h

theorem Keeps.execDresetReceive : RunsTo (execDresetReceive s) (Keeps s) := Keeps.done (Keeps.refl s).dresetReceived

theorem Keeps.writeDomCmd (h : Keeps s t) {v : Word} : Keeps s (t.writeDomCmd v) := by
  unfold State.writeDomCmd
  split; exacts [h.dreset, h.rejoin, h]

theorem Keeps.leave (h : Keeps s t) : Keeps s t.leave := Keeps.ite h.set.set.flag.set.broadcast h

theorem Keeps.execLeaveTimeout : RunsTo (execLeaveTimeout s) (Keeps s) := Keeps.doneIf (Keeps.refl s).leave

theorem Keeps.execLeaveReceive : RunsTo (execLeaveReceive s) (Keeps s) := Keeps.done (Keeps.refl s).leave

theorem Keeps.writeDomCtl (h : Keeps s t) {v : Word} : Keeps s (t.writeDomCtl v) :=
  Keeps.ite h.setClamped.set.set.portGoesDown.set.set.set.putMember (Keeps.ite (Keeps.tryJoin (Keeps.set (Keeps.set
    (Keeps.set (h.setClamped.set.set.forEach (fun _ _ h => h.set)))))) (Keeps.ite h.setClamped.set.set.set.set
    h.setClamped.set.set.tryJoin))

theorem Keeps.writeDevnum (h : Keeps s t) {v : Word} : Keeps s (t.writeDevnum v) := Keeps.ite h h.set

theorem Keeps.rraFields (h : Keeps s t) {v : Word} : Keeps s (t.rraFields v) := h.set.set.setClamped

theorem Keeps.rraSend (h : Keeps s t) : Keeps s t.rraSend := Keeps.ite h.set h.withCl.set.routePacket

theorem Keeps.rraResponse (h : Keeps s t) {tag : Nat} {v : Word} : Keeps s (t.rraResponse tag v) :=
  Keeps.ite (Keeps.set (Keeps.ite h h.set)) h

theorem Keeps.execRraResponse {tag : BitVec 7} {v : Word} : RunsTo (execRraResponse tag v s) (Keeps s) :=
  Keeps.done (Keeps.refl s).rraResponse

theorem Keeps.execRraTimeout : RunsTo (execRraTimeout s) (Keeps s) := Keeps.doneIf (Keeps.flag (Keeps.refl s).set)

theorem Keeps.execMsgPacketReceive {e : EngineIx} {w : Native} : RunsTo (execMsgPacketReceive e w s) (Keeps s) :=
  Keeps.done (Keeps.refl s).pushMsg

theorem Keeps.domainEpoch (h : Keeps s t) {b : Nat} {t0 : Time} : Keeps s (t.domainEpoch b t0) :=
  Keeps.ite h (Keeps.withCl (Keeps.ite h.flag h))

theorem Keeps.execDomainEpochReceive {b : Fin 8} {t0 : Time} : RunsTo (execDomainEpochReceive b t0 s) (Keeps s) :=
  Keeps.done (Keeps.refl s).domainEpoch

theorem Keeps.execBarrierReportReceive {_dev : BitVec 10} {b : Fin 8} {count : Nat} :
    RunsTo (execBarrierReportReceive _dev b count s) (Keeps s) :=
  Keeps.doneIf (Keeps.refl s).barrierReport

theorem Keeps.execTimeExchangeStart {x : Fin 4} {t0 : Tick} : RunsTo (execTimeExchangeStart x t0 s) (Keeps s) :=
  Keeps.doneIf (Keeps.sendLink (Keeps.refl s).withCl)

theorem Keeps.taHears (h : Keeps s t) : Keeps s t.taHears := Keeps.ite h.tryJoin h

theorem Keeps.execTs1Receive {t2 t3 : Tick} : RunsTo (execTs1Receive t2 t3 s) (Keeps s) := by
  have h := Keeps.refl s
  unfold Machine.execTs1Receive
  dsimp only
  split
  · exact Keeps.done (Keeps.withCl h.taHears).sendLink
  · exact h.next

theorem Keeps.taMean (h : Keeps s t) {sum : Int} : Keeps s (t.taMean sum).1 := h.quotient

theorem Keeps.execTs2Receive {x : Fin 4} {t0 : Tick} {turn : Option Tick} :
    RunsTo (execTs2Receive x t0 turn s) (Keeps s) := by
  unfold Machine.execTs2Receive
  exact Keeps.done (by split; exacts [(Keeps.refl s), (by split; exacts [(Keeps.sendLink (Keeps.refl s).withCl),
    (Keeps.ite (Keeps.withCl (Keeps.sendLink (Keeps.refl s).withCl)) (Keeps.set (Keeps.withCl (Keeps.taMean
    (Keeps.sendLink (Keeps.refl s).withCl)))))])])

theorem Keeps.roundHalf (h : Keeps s t) {sum : Int} {den : Nat} : Keeps s (t.roundHalf sum den).1 :=
  Keeps.ite_fst h.burn h

theorem Keeps.taStepTime (h : Keeps s t) {sum : Int} : Keeps s (t.taStepTime sum) :=
  h.roundHalf.stepTime.setInt.flag.set

theorem Keeps.taTrim (h : Keeps s t) {good : Bool} : Keeps s (t.taTrim good) :=
  (h.within (lo := -trimLimit) (hi := trimLimit)).withCl.setInt.set

theorem Keeps.taMeanDone (h : Keeps s t) {ofs dly : Int} : Keeps s (t.taMeanDone ofs dly) :=
  Keeps.ite h.withCl.taMean.taMean.setInt.set.taStepTime h.withCl.taMean.taMean.setInt.set.taTrim

theorem Keeps.execTs3Receive {t1 t4 : Tick} {resent : Bool} : RunsTo (execTs3Receive t1 t4 resent s) (Keeps s) := by
  unfold Machine.execTs3Receive
  exact Keeps.done (by split; exacts [(Keeps.ite (Keeps.refl s).withCl (Keeps.ite (Keeps.withCl (Keeps.refl s).withCl)
    (Keeps.taMeanDone (Keeps.refl s).withCl))), (Keeps.refl s)])

theorem Keeps.refillDeliver (h : Keeps s t) {wave : Bool} {u0 : Nat} {words : List Native} :
    Keeps s (t.refillDeliver wave u0 words) :=
  Keeps.ite (h.foldl (fun _ _ h => h.wpDeliver)) h.setEngine.set

theorem Keeps.queueDelivers (h : Keeps s t) {wave : Bool} {u0 : Nat} {words : List Native} {int : Bool} :
    Keeps s (t.queueDelivers wave u0 words int) :=
  h.refillDeliver.completeDesc

theorem Keeps.refillAlone (h : Keeps s t) : Keeps s t.refillAlone := h.withTw.foldl (fun _ _ h => h.queueDelivers)

theorem Keeps.execRefillBlockForward {ring : Bool} {u0 : GroupIx} {words : List Native} :
    RunsTo (execRefillBlockForward ring u0 words s) (Keeps s) := by
  unfold Machine.execRefillBlockForward
  exact Keeps.done (Keeps.ite (Keeps.refl s).refillDeliver (by split; exacts [(Keeps.queueDelivers (Keeps.refl
    s).withTw), (Keeps.refl s)]))

theorem Keeps.setRole (h : Keeps s t) {r : Nat} : Keeps s (t.setRole r) := h.set

theorem Keeps.twinDetach (h : Keeps s t) : Keeps s t.twinDetach :=
  Keeps.ite h.twinStop (Keeps.ite h.withTw.setRole.refillAlone h)

theorem Keeps.detachCmd (h : Keeps s t) : Keeps s t.detachCmd := Keeps.ite h.sendLink.twinDetach h

theorem Keeps.execDetach {received : Bool} : RunsTo (execDetach received s) (Keeps s) :=
  Keeps.done (Keeps.ite (Keeps.refl s).twinDetach (Keeps.ite (Keeps.refl s).detachCmd (Keeps.refl s)))

theorem Keeps.dispol (h : Keeps s t) : Keeps s t.dispol := Keeps.ite h.detachCmd h

theorem Keeps.writeTwCtl (h : Keeps s t) {v : Word} : Keeps s (t.writeTwCtl v) :=
  Keeps.ite h.set.set (Keeps.parkAll (Keeps.set (Keeps.ite h.set.set.sendLink.twinDetach h.set.set)))

theorem Keeps.execPairWrite {v : Word} : RunsTo (execPairWrite v s) (Keeps s) :=
  Keeps.hostDone (Keeps.refl s).writeTwCtl

theorem Keeps.heartbeat (h : Keeps s t) {onGrid : Bool} : Keeps s (t.heartbeat onGrid) :=
  Keeps.sendLink (Keeps.withTw (Keeps.ite h.withTw h))

theorem Keeps.execHeartbeatSend : RunsTo (execHeartbeatSend s) (Keeps s) := Keeps.doneIf (Keeps.refl s).heartbeat

theorem Keeps.twTake (h : Keeps s t) {d : Time} {cause : Nat} : Keeps s (t.twTake d cause) := h.setTime.set

theorem Keeps.partnerFailed (h : Keeps s t) {d : Time} {cause : Nat} : Keeps s (t.partnerFailed d cause) :=
  Keeps.ite h.sendLink.twTake.withTw.setRole.refillAlone.withTw.flag h.sendLink.twTake.withTw.setRole.refillAlone

theorem Keeps.heartbeatArrives (h : Keeps s t) {hb : Heartbeat} : Keeps s (t.heartbeatArrives hb) := by
  unfold State.heartbeatArrives
  extract_lets _ heard compared
  have heard : Keeps s heard := h.withTw.set.set
  have compared : Keeps s compared := .ite heard.flag.dispol heard
  exact .ite compared (.ite compared.partnerFailed (.ite compared.partnerFailed (.ite compared.partnerFailed compared)))

theorem Keeps.execHeartbeatReceive {hb : Heartbeat} : RunsTo (execHeartbeatReceive hb s) (Keeps s) :=
  Keeps.doneIf (Keeps.refl s).heartbeatArrives

theorem Keeps.heartbeatLost (h : Keeps s t) : Keeps s t.heartbeatLost :=
  Keeps.ite h.set (Keeps.ite h.set.flag.partnerFailed (Keeps.ite h.set.partnerFailed h.set.twinDetach))

theorem Keeps.execHeartbeatLoss : RunsTo (execHeartbeatLoss s) (Keeps s) := Keeps.doneIf (Keeps.refl s).heartbeatLost

theorem Keeps.execParkcmdReceive : RunsTo (execParkcmdReceive s) (Keeps s) := Keeps.done (Keeps.refl s).selfPark

theorem Keeps.groupTakeover (h : Keeps s t) {g : Nat} : Keeps s (t.groupTakeover g) := h.setGroup

theorem Keeps.execGroupTakeover {g : GroupIx} : RunsTo (execGroupTakeover g s) (Keeps s) :=
  Keeps.doneIf (Keeps.refl s).groupTakeover

theorem Keeps.execTakeoverTermConnect {g : GroupIx} : RunsTo (execTakeoverTermConnect g s) (Keeps s) := by
  unfold Machine.execTakeoverTermConnect
  exact Keeps.done (by split; exacts [(Keeps.ite (Keeps.refl s).setGroup (Keeps.refl s)), (Keeps.refl s)])

theorem Keeps.agreement (h : Keeps s t) {e : Nat} {set : List Native} : Keeps s (t.agreement e set) := by
  unfold State.agreement
  extract_lets own crc sent
  have k : Keeps s sent := .ite h.sendLink h
  refine .ite h ?_
  split
  · exact k
  · exact k.flag.set.set.set.dispol

theorem Keeps.execAgreementReceive {e : EngineIx} {set : List Native} :
    RunsTo (execAgreementReceive e set s) (Keeps s) :=
  Keeps.done (Keeps.refl s).agreement

theorem Keeps.swapCmd (h : Keeps s t) : Keeps s t.swapCmd := Keeps.ite h.withTw.sendLink h

theorem Keeps.swapReceived (h : Keeps s t) {ts : Time} : Keeps s (t.swapReceived ts) := Keeps.ite h.withTw h

theorem Keeps.execSwapOp {ts : Option Time} : RunsTo (execSwapOp ts s) (Keeps s) := by
  unfold Machine.execSwapOp
  exact Keeps.done (by split; exacts [(Keeps.ite (Keeps.refl s).swapCmd (Keeps.refl s)), (Keeps.refl s).swapReceived])

theorem Keeps.swapGroup (h : Keeps s t) {g : Nat} {ts : Time} {toShadow : Bool} : Keeps s (t.swapGroup g ts toShadow) := by
  refine Keeps.ite (Keeps.withTw ?same) ?same
  exact Keeps.ite h.setGroup (Keeps.ite h.setGroup.setRole h.setGroup.setRole.twTake)

theorem Keeps.execSwapExecute {g : GroupIx} : RunsTo (execSwapExecute g s) (Keeps s) := by
  unfold Machine.execSwapExecute
  exact Keeps.done (by split; exacts [(Keeps.ite (Keeps.refl s).swapGroup (Keeps.refl s)), (Keeps.refl s)])

theorem Keeps.attachCmd (h : Keeps s t) {peer : PeerInfo} : Keeps s (t.attachCmd peer) := by
  unfold State.attachCmd
  split
  · exact h.set.set.setRole.withTw.sendLink.sendLink.parkAll
  · exact h.set.flag

theorem Keeps.attachRequested (h : Keeps s t) : Keeps s t.attachRequested := Keeps.ite h.withTw.set.setRole.parkAll h

theorem Keeps.attachStores (h : Keeps s t) {cells : List (Nat × Byte)} : Keeps s (t.attachStores cells) := by
  refine .ite (h.ofMem fun k => List.foldlRecOn _ _ (Memory.wf_filter _ _ k) fun m k c _ => ?_) h
  split
  · exact Memory.write_wf _ _ _ k
  · exact k

theorem Keeps.execAttach {what : AttachStep} : RunsTo (execAttach what s) (Keeps s) := by
  unfold Machine.execAttach
  exact Keeps.done (by split; exacts [(Keeps.ite (Keeps.refl s).attachCmd (Keeps.refl s)), (Keeps.refl
    s).attachRequested, (Keeps.refl s).attachStores])

theorem Keeps.execAttachTimeout : RunsTo (execAttachTimeout s) (Keeps s) := by
  unfold Machine.execAttachTimeout
  exact Keeps.done (by split; exacts [(Keeps.ite (Keeps.ite (Keeps.refl s).twinStop (Keeps.flag (Keeps.set (Keeps.refl
    s).twinDetach))) (Keeps.refl s)), (Keeps.refl s)])

theorem Keeps.checkAfter (h : Keeps s t) {e : Nat} : Keeps s (t.checkAfter e) := h.withTw

theorem Keeps.transferred (h : Keeps s t) {e : Nat} : Keeps s (t.transferred e) :=
  Keeps.ite h.setBit (Keeps.ite h.setBit.withTw.setRole.holdAll.parkAll h.setBit.withTw)

theorem Keeps.wpSkip (h : Keeps s t) {g n : Nat} : Keeps s (t.wpSkip g n) := by
  induction n generalizing t with
  | zero => exact h
  | succ n ih => exact .ite (ih h.wpNext) h

theorem Keeps.wpCatchUp (h : Keeps s t) {g : Nat} {since : Time} : Keeps s (t.wpCatchUp g since) :=
  Keeps.ite (Keeps.wpSkip (Keeps.setWp (Keeps.ite h.wpUpdatePhase h))) h.setWp.wpSkip

theorem Keeps.loadTransfer (h : Keeps s t) {e : Nat} {t0 : Transfer} : Keeps s (t.loadTransfer e t0) :=
  Keeps.wpCatchUp (Keeps.setWp (Keeps.forEach (Keeps.foldl (Keeps.forEach (Keeps.setGroup (Keeps.setEngine (h.foldl
    (fun _ _ h => h.setWord)))) (fun _ _ h => h.setChan)) (fun _ _ h => h.setTe.setWord)) (fun _ _ h => h.setBit)))

theorem Keeps.transferOut (h : Keeps s t) {e : Nat} : Keeps s (t.transferOut e) := Keeps.ite h.sendLink.withTw h

theorem Keeps.transferLoaded (h : Keeps s t) {e : Nat} : Keeps s (t.transferLoaded e) := by
  unfold State.transferLoaded
  split
  · exact Keeps.ite (h.withTw.sendLink.forEach (fun _ _ h => h.checkAfter.transferred)) h.withTw
  · exact h

theorem Keeps.transferIn (h : Keeps s t) {e : Nat} {l : List (Nat × Transfer)} : Keeps s (t.transferIn e l) :=
  Keeps.sendLink (h.foldl (fun _ _ h => (Keeps.ite h.loadTransfer.checkAfter h)))

theorem Keeps.execEngineTransfer {e : EngineIx} {step : TransferStep} : RunsTo (execEngineTransfer e step s) (Keeps s) := by
  unfold Machine.execEngineTransfer
  exact Keeps.done (by split; exacts [(Keeps.ite (Keeps.refl s).transferOut (Keeps.refl s)), (Keeps.ite (Keeps.refl
    s).transferLoaded (Keeps.refl s)), (Keeps.ite (Keeps.refl s).transferIn (Keeps.refl s)), (Keeps.ite ((Keeps.refl
    s).forEach (fun _ _ h => h.transferred)) (Keeps.refl s))])

theorem Keeps.writeTwCmd (h : Keeps s t) {v : Word} : Keeps s (t.writeTwCmd v) := by
  unfold State.writeTwCmd
  split; exacts [h.burn.attachCmd, h.detachCmd, h.swapCmd, h]

theorem Keeps.ledgerSet (h : Keeps s t) {o v : Nat} : Keeps s (t.ledgerSet o v) := Keeps.withSys h (by rfl)

theorem Keeps.ledgerAdd (h : Keeps s t) {o n : Nat} : Keeps s (t.ledgerAdd o n) := h.ledgerSet

/-- The memory, the planes and the queue that a power-up leaves, before its own writes. -/
theorem Keeps.poweredUp (h : Keeps s t) {p : Host.Cell → Bool} (pending : u.pending = t.pending)
    (mem : u.mem = t.mem.filter p) (live : u.live = []) (staged : u.staged = []) (die : u.die = [])
    (boot : u.sys.boot = []) : Keeps s u := by
  refine h.trans ⟨pending, fun k => ?_, fun _ => ?_, fun _ => ?_⟩
  · rw [State.memOk, mem]
    exact Memory.wf_filter _ _ k
  · rw [State.planesOk, live, staged, die, boot]
    exact ⟨.nil, .nil, .nil, .nil⟩
  · rw [State.bootOk, boot]
    exact fun _ h => nomatch h

theorem Keeps.powerUp (h : Keeps s t) {cause : Nat} : Keeps s (t.powerUp cause) := by
  unfold State.powerUp
  extract_lets _ _ _ _ powered stopped
  have powered : Keeps s powered := h.poweredUp rfl rfl rfl rfl rfl rfl
  exact powered.set.set.set.smStop.set.raise

theorem Keeps.execPor : RunsTo (execPor s) (Keeps s) := Keeps.next (Keeps.refl s).powerUp

theorem Keeps.execRstN : RunsTo (execRstN s) (Keeps s) := Keeps.next (Keeps.refl s).powerUp

/-- R429: a register whose word the boot reads from the NVS. -/
def bootAddr (a : Nat) : Prop :=
  a ∈ [MC_BOOT.addr, CL_DEVNUM.addr, HI_SMB.addr] ∨ ∃ g p : Nat, g < 32 ∧ p < 16 ∧
    (a = (TG_DSKI g p).addr ∨ ∃ d < 6, a = (LS_CLR_CODE g p d).reg.addr)

theorem RegFile.mem_put {f : RegFile} {a : Nat} {w : Word} {c : Nat × Word} (h : c ∈ f.put a w) : c ∈ f ∨ c = (a, w) := by
  simp only [RegFile.put, List.mem_append, List.mem_cons, List.mem_filter] at h
  tauto

theorem Keeps.bootFree (h : Keeps s t) {x : Fld} (k : bootAddr x.reg.addr) : Keeps s (t.bootFree x) := by
  have stored := h.set (x := x) (v := t.fresh.toNat % 2 ^ (x.hi + 1 - x.lo)) |>.burn
  refine stored.trans ⟨rfl, id, fun ⟨hl, hs, hd, hb⟩ => ⟨hl, hs, hd, RegFile.put_rising _ _ _ hb⟩, fun b c hc => ?_⟩
  rcases RegFile.mem_put hc with hc | rfl
  · exact b c hc
  · exact k

theorem Keeps.bootFreeAll (h : Keeps s t) {l : List Fld} (k : ∀ x ∈ l, bootAddr x.reg.addr) : Keeps s (t.bootFreeAll l) :=
  List.foldlRecOn (motive := Keeps s) l State.bootFree h fun _ h _ hx => h.bootFree (k _ hx)

theorem Keeps.bootConfig (h : Keeps s t) : Keeps s t.bootConfig := by
  refine .ite (h.bootFreeAll fun x hx => ?_) h
  simp only [List.mem_append, List.mem_cons, List.not_mem_nil, or_false, List.mem_flatMap, List.mem_map, List.mem_range] at hx
  rcases hx with (rfl | rfl | rfl | rfl) | ⟨g, hg, p, hp, d, hd, rfl⟩
  · exact .inl (by simp [MC_BOOT_SLOT])
  · exact .inl (by simp [MC_BOOT_ORDER])
  · exact .inl (by simp [CL_DEVNUM_NUM])
  · exact .inl (by simp [HI_SMB_ADDR])
  · exact .inr ⟨g, p, hg, hp, .inr ⟨d, hd, rfl⟩⟩

theorem Keeps.bootDeskew (h : Keeps s t) : Keeps s t.bootDeskew := by
  refine .ite (h.bootFreeAll fun x hx => ?_) h
  simp only [List.mem_cons, List.not_mem_nil, or_false, List.mem_flatMap, List.mem_range] at hx
  obtain ⟨g, hg, p, hp, rfl | rfl⟩ := hx <;> exact .inr ⟨g, p, hg, hp, .inl rfl⟩

theorem Keeps.bootTables (h : Keeps s t) : Keeps s t.bootTables := Keeps.withSys h (by rfl)

theorem Keeps.bootCal (h : Keeps s t) : Keeps s t.bootCal := Keeps.withSys h (by rfl)

theorem Keeps.bootChanTdc (h : Keeps s t) {g p : Nat} : Keeps s (t.bootChanTdc g p) := h.setTdc.setInt

theorem Keeps.bootLedger (h : Keeps s t) : Keeps s t.bootLedger := by
  unfold State.bootLedger
  extract_lets pick
  generalize pick = o
  split
  · exact h
  · exact .withSys h (by rfl)

theorem Keeps.clearTarget (h : Keeps s t) {g p d : Nat} : Keeps s (t.clearTarget g p d) := h.setDac.follow

theorem Keeps.bootNominal (h : Keeps s t) {k : Nat} : Keeps s (t.bootNominal k) := h.set.flag.set

theorem Keeps.bootNvs (h : Keeps s t) {ok : List Bool} : Keeps s (t.bootNvs ok) :=
  Keeps.forEach (h.bootConfig.bootDeskew.bootTables.bootCal.bootLedger.ledgerAdd.forEach (fun _ _ h => (h.forEach (fun
    _ _ h => (h.bootChanTdc.forEach (fun _ _ h => h.clearTarget)))))) (fun _ _ h => h.bootNominal)

theorem Keeps.bistEngine (h : Keeps s t) {e k : Nat} : Keeps s (t.bistEngine e k) := h.setBit.machineCheck

theorem Keeps.bootBist (h : Keeps s t) {ok : List Bool} : Keeps s (t.bootBist ok) := by
  refine Keeps.ite ?same (Keeps.raise (Keeps.set ?same))
  exact Keeps.forEach (h.forEach (fun _ _ h => (h.forEach (fun _ _ h => (Keeps.ite h h.bistEngine))))) (fun _ _ h =>
    (Keeps.ite h h.setBit))

theorem Keeps.bootFinal (h : Keeps s t) : Keeps s t.bootFinal := by
  refine Keeps.set (Keeps.set (Keeps.ite (Keeps.smStart ?same) ?same))
  exact Keeps.forEach (h.forEach (fun _ _ h => (h.forEach (fun _ _ h => h.setTdc)))) (fun _ _ h => h.rearmGroup)

theorem Keeps.execBoot {ok : List Bool} : RunsTo (execBoot ok s) (Keeps s) := by
  unfold Machine.execBoot
  exact Keeps.done (by split; exacts [(Keeps.set (Keeps.set (Keeps.refl s).withTime)), (Keeps.set (Keeps.refl
    s).bootNvs), (Keeps.set (Keeps.refl s).bootMc), (Keeps.set (Keeps.refl s).bootBist), (Keeps.setDigest (Keeps.refl
    s).bootFinal), (Keeps.refl s)])

theorem Keeps.resetChan (h : Keeps s t) {g p : Nat} : Keeps s (t.resetChan g p) := h.setChan.bootChanTdc

theorem groupPlane_rising (f boot : RegFile) (g : Nat) (h : f.rising) : (groupPlane f boot g).rising :=
  RegFile.foldl_put_rising _ _ (h.filter _)

theorem Keeps.resetGroupState (h : Keeps s t) {g : Nat} : Keeps s (t.resetGroupState g) := by
  have planes := h.ofLive (groupPlane_rising _ t.sys.boot g) |>.ofStaged (f := t.staged.filter fun c =>
    !(decide (groupBase g ≤ c.1 ∧ c.1 < groupBase g + 0xC000) && !groupKept (c.1 - groupBase g))) (fun k => k.filter _)
    |>.ofDie (groupPlane_rising _ [] g)
  exact (Keeps.ite planes.set planes).setEngine.setGroup.forEach fun _ _ h => h.resetChan.forEach fun _ _ h => h.clearTarget

theorem Keeps.resetOneGroup (h : Keeps s t) {g : Nat} : Keeps s (t.resetOneGroup g) :=
  h.setGroup.parkGroup.rearmGroup.resetGroupState

theorem Keeps.resetGroups (h : Keeps s t) {mask : Nat} : Keeps s (t.resetGroups mask) :=
  Keeps.ite h.flag (Keeps.ite h.flag (Keeps.ite h (Keeps.dgStale (Keeps.forEach (Keeps.forEach (h.forEach (fun _ _ h
    => h.engineReset)) (fun _ _ h => h.resetOneGroup)) (fun _ _ h => h.parkGroup)))))

theorem Keeps.writeResetGrp (h : Keeps s t) {v : Word} : Keeps s (t.writeResetGrp v) :=
  h.mirrored (fun _ h => h.resetGroups)

theorem Keeps.execGroupReset {v : Word} : RunsTo (execGroupReset v s) (Keeps s) :=
  Keeps.done (Keeps.refl s).writeResetGrp

theorem Keeps.blockReset (h : Keeps s t) {f : State → State} (k : ∀ u, Keeps s u → Keeps s (f u)) :
    Keeps s (t.blockReset f) := .ite h.flag (k t h)

theorem Keeps.resetTp (h : Keeps s t) : Keeps s t.resetTp := h.restore.restore.restore.set.set.withTpSlotAt.dgStale

theorem Keeps.execDeviceResetTp : RunsTo (execDeviceResetTp s) (Keeps s) :=
  Keeps.done ((Keeps.refl s).blockReset (fun _ h => h.resetTp))

theorem Keeps.resetAq (h : Keeps s t) : Keeps s t.resetAq := h.withTrigsTrigOut.restore.dgStale

theorem Keeps.execDeviceResetAq : RunsTo (execDeviceResetAq s) (Keeps s) :=
  Keeps.done ((Keeps.refl s).blockReset (fun _ h => h.resetAq))

theorem Keeps.resetSn (h : Keeps s t) : Keeps s t.resetSn := h.withSn.restore

theorem Keeps.execDeviceResetSn : RunsTo (execDeviceResetSn s) (Keeps s) :=
  Keeps.done ((Keeps.refl s).blockReset (fun _ h => h.resetSn))

theorem Keeps.writeResetDev (h : Keeps s t) {v : Word} : Keeps s (t.writeResetDev v) :=
  h.blockReset (fun _ h => (Keeps.ite (Keeps.resetSn (Keeps.ite (Keeps.resetAq (Keeps.ite h.resetTp h)) (Keeps.ite
    h.resetTp h))) (Keeps.ite (Keeps.resetAq (Keeps.ite h.resetTp h)) (Keeps.ite h.resetTp h))))

theorem Keeps.execRefclkLoss : RunsTo (execRefclkLoss s) (Keeps s) :=
  Keeps.doneIf (Keeps.flag (Keeps.set (Keeps.set (Keeps.set (Keeps.set (Keeps.refl s).tbLose)))))

theorem Keeps.execRefclkReturn {tbref : Bool} : RunsTo (execRefclkReturn tbref s) (Keeps s) :=
  Keeps.doneIf (Keeps.ite (Keeps.set (Keeps.withTp (Keeps.ite (Keeps.set (Keeps.set (Keeps.set (Keeps.refl s).set)))
    (Keeps.set (Keeps.set (Keeps.refl s).set))))) (Keeps.set (Keeps.set (Keeps.refl s).set)))

theorem Keeps.execCrossingReset {xid : Fin 8} {n : Nat} : RunsTo (execCrossingReset xid n s) (Keeps s) :=
  Keeps.done (Keeps.ite (Keeps.crossingDrop (Keeps.withSys (Keeps.refl s) (by rfl))) (Keeps.ite (Keeps.refl s).count
    (Keeps.refl s)))

theorem Keeps.ochCause (h : Keeps s t) {k : Nat} : Keeps s (t.ochCause k) := h.forEach (fun _ _ h => h.causeRouted)

theorem Keeps.ochPark (h : Keeps s t) {g : Nat} : Keeps s (t.ochPark g) := h.trans (Stays.refl t).ochPark.keeps

theorem Keeps.ochExhaustGroup (h : Keeps s t) {g : Nat} {now : Bool} : Keeps s (t.ochExhaustGroup g now) :=
  Keeps.ite h (Keeps.ite h.ochPark h.setGroup)

theorem Keeps.ochExhaust (h : Keeps s t) {k : Nat} {now : Bool} : Keeps s (t.ochExhaust k now) :=
  Keeps.selfPark (Keeps.ledgerAdd (Keeps.snapRequest (Keeps.ochCause (h.setBit.flag.forEach (fun _ _ h =>
    h.ochExhaustGroup)))))

theorem Keeps.ochClear (h : Keeps s t) {k : Nat} : Keeps s (t.ochClear k) :=
  h.setBit.forEach (fun _ _ h => h.setGroup.parkGroup)

theorem Keeps.ochPut (h : Keeps s t) {k e : Nat} : Keeps s (t.ochPut k e) :=
  Keeps.setBit (Keeps.set (Keeps.set (Keeps.withSys h (by rfl))))

theorem Keeps.ochWarnRise (h : Keeps s t) {k old e : Nat} : Keeps s (t.ochWarnRise k old e) :=
  Keeps.ite (Keeps.ochCause (Keeps.flag (Keeps.withSys h (by rfl)))) h

theorem Keeps.ochSample (h : Keeps s t) {k ma : Nat} : Keeps s (t.ochSample k ma) := by
  refine Keeps.ite (Keeps.ochExhaust (Keeps.flag ?same)) (Keeps.ite (Keeps.ochExhaust ?same) (Keeps.ite
    (Keeps.ochClear ?same) ?same))
  exact Keeps.ochWarnRise (Keeps.ochPut (Keeps.set (Keeps.withSys h (by rfl))))

theorem Keeps.execOchreSample {k : DieIx} {ma : Nat} : RunsTo (execOchreSample k ma s) (Keeps s) :=
  Keeps.done (Keeps.refl s).ochSample

theorem Keeps.oclr (h : Keeps s t) {v : Word} : Keeps s (t.oclr v) :=
  Keeps.ite h (h.forEach (fun _ _ h => (Keeps.ite h.ochClear h.flag)))

theorem Keeps.execOclr {v : Word} : RunsTo (execOclr v s) (Keeps s) := Keeps.hostDone (Keeps.refl s).oclr

theorem Keeps.ledgerTemp (h : Keeps s t) {k : Nat} {t0 : Int} : Keeps s (t.ledgerTemp k t0) := by
  refine Keeps.ite (Keeps.ledgerSet ?same) ?same
  exact Keeps.ite (Keeps.ite h.ledgerSet.ledgerAdd h.ledgerSet) h

theorem Keeps.thermWarn (h : Keeps s t) {k : Nat} {t0 : Int} : Keeps s (t.thermWarn k t0) :=
  Keeps.ite h.setBit.flag (Keeps.ite h.setBit h)

theorem Keeps.thermTrip (h : Keeps s t) {k : Nat} {t0 : Int} : Keeps s (t.thermTrip k t0) :=
  Keeps.ite h.setBit.flag.parkAll.snapRequest.ledgerAdd.selfPark h

theorem Keeps.tempSample (h : Keeps s t) {k : Nat} {t0 : BitVec 16} : Keeps s (t.tempSample k t0) :=
  h.set.ledgerTemp.thermWarn.thermTrip

theorem Keeps.execTempSample {k : Fin 5} {t0 : BitVec 16} : RunsTo (execTempSample k t0 s) (Keeps s) :=
  Keeps.done (Keeps.refl s).tempSample

theorem Keeps.tclr (h : Keeps s t) : Keeps s t.tclr := Keeps.ite h.set.parkAll h

theorem Keeps.execTclr : RunsTo (execTclr s) (Keeps s) := Keeps.hostDone (Keeps.refl s).tclr

theorem Keeps.nvUnlock (h : Keeps s t) {v : Word} : Keeps s (t.nvUnlock v) := by
  unfold State.nvUnlock
  exact Keeps.ite (Keeps.withSys h (by rfl)) (by split; exacts [(Keeps.ite (Keeps.set (Keeps.withSys (Keeps.withSys h
    (by rfl)) (by rfl))) (Keeps.withSys h (by rfl))), (Keeps.withSys h (by rfl))])

theorem Keeps.execNvsUnlockWrite {v : Word} : RunsTo (execNvsUnlockWrite v s) (Keeps s) :=
  Keeps.hostDone (Keeps.refl s).nvUnlock

theorem Keeps.nvLock (h : Keeps s t) : Keeps s t.nvLock := h.set.set.set

theorem Keeps.writeNvCtl (h : Keeps s t) {v : Word} : Keeps s (t.writeNvCtl v) :=
  Keeps.ite h (Keeps.ite h.nvLock h.set.set)

theorem Keeps.execNvsLockTimeout : RunsTo (execNvsLockTimeout s) (Keeps s) := Keeps.doneIf (Keeps.refl s).nvLock

theorem Keeps.nvQueueIs (h : Keeps s t) {q : List (Nat × Native)} : Keeps s (t.nvQueueIs q) :=
  Keeps.set (Keeps.set (Keeps.withSys h (by rfl)))

theorem Keeps.slotWritten (h : Keeps s t) {w : Nat} : Keeps s (t.slotWritten w) := Keeps.ite h.setBit h

theorem Keeps.nvWrite (h : Keeps s t) {w : Nat} {v : Native} : Keeps s (t.nvWrite w v) :=
  Keeps.ite h.flag (Keeps.ite h.flag (Keeps.slotWritten (Keeps.nvQueueIs (Keeps.withSys h (by rfl)))))

theorem Keeps.execNvsWordWrite : RunsTo (execNvsWordWrite s) (Keeps s) := by
  unfold Machine.execNvsWordWrite
  exact Keeps.done (by split; exacts [(Keeps.slotWritten (Keeps.nvQueueIs (Keeps.refl s).setMemWord)), (Keeps.refl
    s)])

theorem Keeps.ledgerMinute (h : Keeps s t) : Keeps s t.ledgerMinute := h.ledgerAdd.forEach (fun _ _ h => h.ledgerAdd)

theorem Keeps.ledgerWrite (h : Keeps s t) : Keeps s t.ledgerWrite :=
  Keeps.setMemWord (Keeps.foldl (Keeps.withSys h (by rfl)) (fun _ _ h => h.setMemWord))

theorem Keeps.execLedgerWrite : RunsTo (execLedgerWrite s) (Keeps s) :=
  Keeps.doneIf (Keeps.ledgerWrite (Keeps.refl s).ledgerMinute)

theorem Keeps.scanLinks (h : Keeps s t) : Keeps s t.scanLinks := h.set.set.forEach (fun _ _ h => h.portRetrains)

theorem Keeps.tapLoad (h : Keeps s t) {i : TapInstr} : Keeps s (t.tapLoad i) :=
  Keeps.ite (Keeps.scanLinks (Keeps.withSys h (by rfl))) (Keeps.withSys h (by rfl))

theorem Keeps.scanData (h : Keeps s t) {pins load : BitVec 89} : Keeps s (t.scanData pins load) :=
  Keeps.emit (Keeps.withSys h (by rfl))

theorem Keeps.execTapReset : RunsTo (execTapReset s) (Keeps s) := Keeps.done (Keeps.refl s).tapLoad

theorem Keeps.execExtest {pins load : BitVec 89} : RunsTo (execExtest pins load s) (Keeps s) :=
  Keeps.done (Keeps.scanData (Keeps.refl s).tapLoad)

theorem Keeps.execIdcode : RunsTo (execIdcode s) (Keeps s) := Keeps.done (Keeps.emit (Keeps.refl s).tapLoad)

theorem Keeps.execSamplePreload {pins load : BitVec 89} : RunsTo (execSamplePreload pins load s) (Keeps s) :=
  Keeps.done (Keeps.scanData (Keeps.refl s).tapLoad)

theorem Keeps.execHighz : RunsTo (execHighz s) (Keeps s) := Keeps.done (Keeps.refl s).tapLoad

theorem Keeps.execClampTap : RunsTo (execClampTap s) (Keeps s) := Keeps.done (Keeps.refl s).tapLoad

theorem Keeps.execExtestPulse {pins load : BitVec 89} : RunsTo (execExtestPulse pins load s) (Keeps s) :=
  Keeps.done (Keeps.scanData (Keeps.refl s).tapLoad)

theorem Keeps.execExtestTrain {pins load : BitVec 89} : RunsTo (execExtestTrain pins load s) (Keeps s) :=
  Keeps.done (Keeps.scanData (Keeps.refl s).tapLoad)

theorem Keeps.execBypass : RunsTo (execBypass s) (Keeps s) := Keeps.done (Keeps.refl s).tapLoad

theorem Keeps.incClamp (h : Keeps s t) {n : RegName} {ix : List Nat} : Keeps s (t.incClamp n ix).1 :=
  Keeps.ite_fst h.setStagedWord.setStagedWord h

theorem Keeps.writeStaged (h : Keeps s t) {n : RegName} {ix : List Nat} {v : Word} : Keeps s (t.writeStaged n ix v) := by
  unfold State.writeStaged
  split
  · exact h
  · exact Keeps.ite h.flag (Keeps.ite h.setStagedWord.incClamp.clampNote h.setStagedWord.incClamp)

theorem Keeps.writeLive (h : Keeps s t) {n : RegName} {ix : List Nat} {v : Word} : Keeps s (t.writeLive n ix v) :=
  Keeps.ite h.setWord.clampNote h.setWord

theorem Keeps.writePlain (h : Keeps s t) {n : RegName} {ix : List Nat} {v : Word} : Keeps s (t.writePlain n ix v) :=
  h.writeStaged.writeLive

theorem Keeps.writeTbref (h : Keeps s t) {v : Word} : Keeps s (t.writeTbref v) :=
  Keeps.ite h.writePlain.dgStale.tbOff h.writePlain.dgStale

theorem Keeps.writeVctl (h : Keeps s t) {k : Nat} {v : Word} : Keeps s (t.writeVctl k v) :=
  Keeps.ite h.writePlain.setBit.emit h.writePlain

theorem Keeps.writeSnCmd (h : Keeps s t) {v : Word} : Keeps s (t.writeSnCmd v) := by
  refine Keeps.ite (Keeps.snapDomSched ?same) ?same
  exact Keeps.ite (Keeps.snapSched (Keeps.ite h.snapHost h)) (Keeps.ite h.snapHost h)

theorem Keeps.writeDgCmd (h : Keeps s t) {v : Word} : Keeps s (t.writeDgCmd v) :=
  Keeps.ite (Keeps.learn (Keeps.ite h.scalc h)) (Keeps.ite h.scalc h)

theorem Keeps.writeThCmd (h : Keeps s t) {v : Word} : Keeps s (t.writeThCmd v) := Keeps.ite h.oclr.tclr h.oclr

theorem Keeps.writeCtx (h : Keeps s t) {n : RegName} {ix : List Nat} {v : Word} : Keeps s (t.writeCtx n ix v) :=
  Keeps.ite h.writePlain h.setWord

theorem Keeps.localWrite (h : Keeps s t) {n : RegName} {ix : List Nat} {v : Word} : Keeps s (t.localWrite n ix v) := by
  unfold State.localWrite
  split
  exacts [h.writePinEnable, h.resetGroups, h.writeResetDev, h.writeTbref, h.writeStep, h.pcmpWrite, h.writeDsk,
    h.writeTdr, h.writeCal, h.writeLsPark, h.measMask, h.writeClr, h.writeScCtl, h.writePlain.dgStale, h.writeSmCtl,
    (Keeps.withSys h.writePlain (by rfl)), (Keeps.withSys h.writePlain (by rfl)), h.tripRearm, h.writePlain.dgStale,
    h.writeFqCtl, h.writeRptr, h.writeRptr, h.writeCapArm, h.forEach (fun _ _ h => h.teExternal), h.writeTeArm,
    h.writeWpCmd, h.writeWpSctl, h.sqCmd, h.ringDoorbell, h.writeTimer, h.set, h.set, h.writeMsgin2, h.writeCtx,
    h.writeCtx, h.writeCtx, h.writeCtx, h.writeCtx, h.writeMcCmd, h.writeDispData, h.inject, h.writeCmCmd,
    h.writeSnCmd, h.snapRelease, h.writeDgCmd, h.writePlain.dgCompare, h.writePlain.dgCompare, h.writeCvalid,
    h.writeCref, h.writeCref, h.writeDevnum, h.writeDomCtl, h.writeDomCmd, h.writePortCtl, h.writeTwCtl, h.writeTwCmd,
    h.flushRings, h.writeCaprd, h.writeSpiCtl, h.writeRingCtl.drainLogs, h.writeRingCtl, h.writeRingCtl, h.writeTail,
    h.writeTail, h.writeTail, h.writeVctl, h.writeThCmd, h.writeNvCtl, h.nvUnlock, h.writePlain]

theorem Keeps.resignal (h : Keeps s t) {n : RegName} : Keeps s (t.resignal n) := h.signal

theorem Keeps.regWrite (h : Keeps s t) {a : Nat} {v : Word} : Keeps s (t.regWrite a v) := by
  unfold State.regWrite
  exact Keeps.ite (by split; exacts [h.writeStaged, h]) (by split; exacts [h, (Keeps.resignal (Keeps.ite (h.mirrored
    (fun _ h => h.localWrite)) h.localWrite))])

theorem Keeps.readEffect (h : Keeps s t) {n : RegName} {ix : List Nat} : Keeps s (t.readEffect n ix) := by
  unfold State.readEffect
  split
  · exact h.withHi.incr
  · exact h.withHi.dispStep
  · exact h.withHi.incr
  · exact h.withHi.set
  · exact h.withHi.set
  · exact h.withHi

theorem Keeps.hostRead (h : Keeps s t) {addr : Nat} : Keeps s (t.hostRead addr).1 := by
  unfold State.hostRead
  exact Keeps.ite_fst h (Keeps.ite_fst (by split <;> exact h) (by split; exacts [h, h.readEffect]))

theorem Keeps.hostReadBytes (h : Keeps s t) {addr n : Nat} : Keeps s (t.hostReadBytes addr n).1 :=
  List.foldlRecOn (motive := fun x : State × Nat => Keeps s x.1) _ _ h fun _ h _ _ => h.hostRead

theorem Keeps.readOut (h : Keeps s t) {addr n : Nat} : Keeps s (t.readOut addr n) := Keeps.ite h h.hostReadBytes.emit

theorem Keeps.rraLocal (h : Keeps s t) : Keeps s t.rraLocal :=
  Keeps.ite (Keeps.set (Keeps.ite h.set.regWrite h.set)) h.set.hostReadBytes.set.set

theorem Keeps.writeRra (h : Keeps s t) {v : Word} : Keeps s (t.writeRra v) :=
  Keeps.ite h (Keeps.ite h.rraFields (Keeps.ite h.rraFields.rraLocal h.rraFields.rraSend))

theorem Keeps.hostWrite (h : Keeps s t) {a : Nat} {v : Word} : Keeps s (t.hostWrite a v) :=
  Keeps.ite h (Keeps.ite h.writeRra h.regWrite)

theorem Keeps.execRegisterWrite {addr : BitVec 24} {v : WriteData} : RunsTo (execRegisterWrite addr v s) (Keeps s) :=
  Keeps.doneIf (Keeps.refl s).hostWrite

theorem Keeps.execFlagClearWrite {addr : BitVec 24} {v : Word} : RunsTo (execFlagClearWrite addr v s) (Keeps s) :=
  Keeps.doneIf (Keeps.refl s).hostWrite

theorem Keeps.execCoherentRead {at_ : ReadAt} : RunsTo (execCoherentRead at_ s) (Keeps s) :=
  Keeps.done (Keeps.refl s).readOut

theorem Keeps.execClampCountRead : RunsTo (execClampCountRead s) (Keeps s) := Keeps.done (Keeps.refl s).readOut

theorem Keeps.execBucketRead {k : DieIx} : RunsTo (execBucketRead k s) (Keeps s) := Keeps.done (Keeps.refl s).readOut

theorem Keeps.execBinTableRead {g : GroupIx} : RunsTo (execBinTableRead g s) (Keeps s) :=
  Keeps.done (Keeps.refl s).readOut

theorem Keeps.execRraGo {v : Word} : RunsTo (execRraGo v s) (Keeps s) := Keeps.done (Keeps.refl s).hostWrite

theorem Keeps.storeWrite (h : Keeps s t) {a : Nat} {w : Native} : Keeps s (t.storeWrite a w) :=
  Keeps.ite h.withTw.sendLink (Keeps.ite h.flag h.setMemWord)

theorem Keeps.bar2Store (h : Keeps s t) {a : Nat} {w : Native} : Keeps s (t.bar2Store a w) := by
  unfold State.bar2Store
  split
  · exact h.storeWrite
  · exact h.writeStoreWindow
  · exact h.nvWrite
  · exact h

theorem Keeps.bar2WriteLow (h : Keeps s t) {off : Nat} {data : List Byte} : Keeps s (t.bar2WriteLow off data) :=
  h.withHi

theorem Keeps.execBar2WriteLow {off : BitVec 27} {data : List (BitVec 8)} :
    RunsTo (execBar2WriteLow off data s) (Keeps s) :=
  Keeps.doneIf (Keeps.refl s).bar2WriteLow

theorem Keeps.bar2WriteHigh (h : Keeps s t) {off : Nat} {b : Byte} : Keeps s (t.bar2WriteHigh off b) :=
  Keeps.ite h.bar2Store h.bar2Store.flag

theorem Keeps.execBar2WriteHigh {off : BitVec 27} {b : BitVec 8} : RunsTo (execBar2WriteHigh off b s) (Keeps s) :=
  Keeps.doneIf (Keeps.refl s).bar2WriteHigh

theorem Keeps.nvsRead (h : Keeps s t) {a : Nat} {ecc : EccResult} : Keeps s (t.nvsRead a ecc) := by
  unfold State.nvsRead
  exact Keeps.ite (by split; exacts [h.sramRead, h]) (by split; exacts [h, h.flag, h.flag.set])

theorem Keeps.bar2ReadLow (h : Keeps s t) {off n : Nat} {ecc : EccResult} : Keeps s (t.bar2ReadLow off n ecc) :=
  h.withHi.nvsRead.emit

theorem Keeps.execBar2ReadLow {off : BitVec 27} {n : Fin 9} {ecc : EccResult} :
    RunsTo (execBar2ReadLow off n ecc s) (Keeps s) :=
  Keeps.done (Keeps.ite (Keeps.refl s).bar2ReadLow (Keeps.refl s).emit)

theorem Keeps.bar2ReadHigh (h : Keeps s t) {off : Nat} {ecc : EccResult} : Keeps s (t.bar2ReadHigh off ecc) :=
  Keeps.ite h.emit h.nvsRead.emit

theorem Keeps.execBar2ReadHigh {off : BitVec 27} {ecc : EccResult} : RunsTo (execBar2ReadHigh off ecc s) (Keeps s) :=
  Keeps.done (Keeps.ite (Keeps.refl s).bar2ReadHigh (Keeps.refl s).emit)

theorem Keeps.mirrorActs (h : Keeps s t) {x : MirrorWrite} : Keeps s (t.mirrorActs x) := by
  unfold State.mirrorActs
  split
  · exact h.setMemWord
  · exact by split; exacts [h.localWrite, h]

theorem Keeps.execMirroredWriteApply {x : MirrorWrite} {w : BitVec 56} :
    RunsTo (execMirroredWriteApply x w s) (Keeps s) := by
  unfold Machine.execMirroredWriteApply
  exact Keeps.done (Keeps.ite (Keeps.refl s) (Keeps.ite (Keeps.refl s).mirrorActs (by split; exacts [(Keeps.mirrorActs
    (Keeps.refl s).withTw), (Keeps.refl s)])))

theorem Keeps.blockFetched (h : Keeps s t) {wave : Bool} {u0 : Nat} {desc : BitVec 128} {blk : List Byte} :
    Keeps s (t.blockFetched wave u0 desc blk) :=
  Keeps.ite h.emit.blockFails (Keeps.ite h.emit.withHi.withTw.sendLink h.emit.withHi.queueDelivers)

theorem Keeps.execQueueBlockFetch {wave : Bool} {u0 : Fin 32} {desc : BitVec 128} {blk : List (BitVec 8)} :
    RunsTo (execQueueBlockFetch wave u0 desc blk s) (Keeps s) :=
  Keeps.doneIf (Keeps.refl s).blockFetched

theorem Keeps.rraServe (h : Keeps s t) {dev : Nat} {write : Bool} {tag addr : Nat} {v : Word} :
    Keeps s (t.rraServe dev write tag addr v) :=
  Keeps.routePacket (Keeps.ite_fst h.hostWrite h.hostReadBytes)

theorem Keeps.execRraRequestReceive {dev : BitVec 10} {write : Bool} {tag : BitVec 7} {addr : BitVec 24} {v : Word} :
    RunsTo (execRraRequestReceive dev write tag addr v s) (Keeps s) :=
  Keeps.done (Keeps.refl s).rraServe

theorem Keeps.bcastConsumed (h : Keeps s t) {p : Packet} : Keeps s (t.bcastConsumed p) := by
  unfold State.bcastConsumed
  split
  · exact h.domainEpoch
  · exact h.domainPrepare
  · exact h.domainApplied
  · exact h.domainAborted
  · exact h.snapReceived
  · exact h.phaseReceived
  · exact h.stepReceived
  · exact h.crefReceived
  · exact h.dresetReceived
  · exact h.leave
  · exact h

theorem Keeps.bcastArrives (h : Keeps s t) {x : Nat} {p : Packet} : Keeps s (t.bcastArrives x p) :=
  Keeps.ite h (Keeps.bcastConsumed (Keeps.ite h h.sendPacket.sendPacket))

theorem Keeps.upArrives (h : Keeps s t) {x : Nat} {p : Packet} : Keeps s (t.upArrives x p) := by
  unfold State.upArrives
  exact Keeps.ite h (by split; exacts [h.learnRoute.domainVote, h.learnRoute.barrierReport, (Keeps.ite
    h.learnRoute.sendPacket (by split; exacts [h.learnRoute.dgReported, h.learnRoute.joinReceived,
    h.learnRoute.pruned]))])

theorem Keeps.unicastConsumed (h : Keeps s t) {p : Packet} : Keeps s (t.unicastConsumed p) := by
  unfold State.unicastConsumed
  split
  · exact h.rraServe
  · exact h.rraResponse
  · exact h.pushMsg
  · exact Keeps.ite h.joinReplied (Keeps.ite h.joinReplied h)

theorem Keeps.packetArrives (h : Keeps s t) {x : Nat} {p : Packet} : Keeps s (t.packetArrives x p) := by
  unfold State.packetArrives
  split
  · exact h.bcastArrives
  · exact h.upArrives
  · exact Keeps.ite h (Keeps.ite h.unicastConsumed h.routePacket)
  · exact Keeps.ite h (Keeps.ite h.unicastConsumed h.routePacket)
  · exact Keeps.ite h (Keeps.ite h.unicastConsumed h.routePacket)
  · exact Keeps.ite h (Keeps.ite h.unicastConsumed h.routePacket)
  · exact h

theorem Keeps.execBlockReceive {x : Fin 4} {blk : BitVec 640} : RunsTo (execBlockReceive x blk s) (Keeps s) :=
  Keeps.doneIf (Keeps.foldl (Keeps.refl s).blockArrives (fun _ _ h => h.packetArrives))

theorem Keeps.epochWaits (h : Keeps s t) {k l : Nat} : Keeps s (t.epochWaits k l) := by
  unfold State.epochWaits
  exact Keeps.ite h (h.forEach (fun _ _ h => (by split; exacts [(Keeps.ite h.releaseWait h), h])))

theorem Keeps.epochNow (h : Keeps s t) {k e : Nat} : Keeps s (t.epochNow k e) := by
  refine Keeps.forEach (Keeps.ite (Keeps.forEach ?same (fun _ _ h => h.barrierNow)) ?same) (fun _ _ h => h.epochWaits)
  exact Keeps.forEach (Keeps.ite (Keeps.commitNow (Keeps.ite h.snapNow h)) (Keeps.ite h.snapNow h)) (fun _ _ h =>
    (Keeps.ite h.wpArmedNow h))

theorem Keeps.execEpochReached {kind : BitVec 3} {e : EngineIx} : RunsTo (execEpochReached kind e s) (Keeps s) :=
  Keeps.done (Keeps.refl s).epochNow

theorem Keeps.tclk (h : Keeps s t) : Keeps s t.tclk := by
  by_cases b : t.get GL_STATUS_BOOT = 0
  · exact h.trans (by rw [State.tclk, if_pos b]; exact (Stays.refl t).withRaised.keeps)
  · exact h.withRaisedTime.trans (t.stays_tclk b).keeps

end

/-! ### The step -/

/-- Every command keeps the forms and leaves the queue behind it. -/
theorem Keeps.exec (c : Instr) (s : State) : RunsTo (exec c s) (Keeps s) := by
  cases c
  exacts [Keeps.execRegisterWrite, Keeps.execFlagClearWrite, Keeps.execCoherentRead, Keeps.execClampCountRead,
    Keeps.execBucketRead, Keeps.execBinTableRead, Keeps.execSnapshotItemRead, Keeps.execDispatchDataAccess,
    Keeps.execTbrefEdge, Keeps.execDisciplineLock, Keeps.execTbrefLost, Keeps.execPhaseCount, Keeps.execPhaseStall,
    Keeps.execPhaseIndex, Keeps.execPhaseSampleBroadcast, Keeps.execPhaseSampleReceive, Keeps.execPhaseSampleTimeout,
    Keeps.execStepWrite, Keeps.execStepBroadcastReceive, Keeps.execStepBroadcastApply, Keeps.execEpochReached,
    Keeps.execPcmpArm, Keeps.execPcmpReached, Keeps.execPhaseSlotFire, Keeps.execVectorBoundary, Keeps.execDskRun,
    Keeps.execDskComplete, Keeps.execTdrRun, Keeps.execTdrComplete, Keeps.execCalExtEdge, Keeps.execCalExtTimeout,
    Keeps.execCalArm, Keeps.execCalOutEdge, Keeps.execLevelSelectChange, Keeps.execLsCommitEffect, Keeps.execSlewStep,
    Keeps.execDeglitchHoldEnd, Keeps.execClrNFall, Keeps.execClrNRise, Keeps.execClearCodeWrite,
    Keeps.execRailMeasure, Keeps.execPinEnableWrite, Keeps.execLsParkWrite, Keeps.execParkExit,
    Keeps.execRangeChangeEnd, Keeps.execIlimEpisode, Keeps.execMeasRequestWrite, Keeps.execMeasAutoRequest,
    Keeps.execMeasStart, Keeps.execMeasComplete, Keeps.execComparatorSwitch, Keeps.execFilterSample,
    Keeps.execSampleTick, Keeps.execSmCtlWrite, Keeps.execSmWakeWrite, Keeps.execSmWakeTime, Keeps.execSmclkBurstEnd,
    Keeps.execBlankEnd, Keeps.execTripLatchRecord, Keeps.execTripRearmWrite, Keeps.execParkNFall, Keeps.execParkNRise,
    Keeps.execSelfCheckRun, Keeps.execSelfCheckPeriodic, Keeps.execSelfCheckEnd, Keeps.execCpCommitEffect,
    Keeps.execTdcStop, Keeps.execWindowClose, Keeps.execStampDelivery, Keeps.execXwinOpen, Keeps.execCalPassComplete,
    Keeps.execTdcSwap, Keeps.execGateStartWrite, Keeps.execGateStopWrite, Keeps.execGateEnd, Keeps.execFreqResult,
    Keeps.execVectorOutcome, Keeps.execLogRptrWrite, Keeps.execSummaryIntervalEnd, Keeps.execSummarySetEmit,
    Keeps.execCaptureArm, Keeps.execCaptureStop, Keeps.execCaptureForce, Keeps.execCaptureDone, Keeps.execEvRptrWrite,
    Keeps.execTriggerEvaluation, Keeps.execTrigOutPulseEnd, Keeps.execTeArm, Keeps.execTeDisarm, Keeps.execTeSoft,
    Keeps.execTrigInRise, Keeps.execWpSampleTick, Keeps.execWpSampleTarget, Keeps.execWpStart, Keeps.execWpStop,
    Keeps.execWpJump, Keeps.execWpSctlArm, Keeps.execNop, Keeps.execVec, Keeps.execRpt, Keeps.execStream,
    Keeps.execLoopOp, Keeps.execEndl, Keeps.execJmp, Keeps.execJmpc, Keeps.execCallOp, Keeps.execRet,
    Keeps.execWaitph, Keeps.execWaitt, Keeps.execWaitev, Keeps.execWaitRelease, Keeps.execWaitevTimeout,
    Keeps.execSync, Keeps.execBarrierRelease, Keeps.execBarrierTimeout, Keeps.execSwc, Keeps.execSwcHoldEnd,
    Keeps.execYield, Keeps.execHalt, Keeps.execLdq, Keeps.execAddq, Keeps.execCmpq, Keeps.execMovq, Keeps.execSetts,
    Keeps.execSetls, Keeps.execWpcStart, Keeps.execWpcStop, Keeps.execWpcJump, Keeps.execWpcStartat, Keeps.execMeasOp,
    Keeps.execFreqStart, Keeps.execFreqStop, Keeps.execSumb, Keeps.execSnapOp, Keeps.execTrigOp, Keeps.execMsgSend,
    Keeps.execMsgRecv, Keeps.execArmt, Keeps.execUndefinedOpcode, Keeps.execSqCmdReady, Keeps.execSqCmdStart,
    Keeps.execSqCmdHalt, Keeps.execSqCmdEngreset, Keeps.execSqCmdStrmreset, Keeps.execDoorbell, Keeps.execTimerArm,
    Keeps.execTimerExpire, Keeps.execMsginPush, Keeps.execControlStoreParityError, Keeps.execScrubRead,
    Keeps.execParityInject, Keeps.execHostload, Keeps.execControlStoreWindowWrite, Keeps.execFinish, Keeps.execVerify,
    Keeps.execImageCheckComplete, Keeps.execReloadComplete, Keeps.execCommitOp, Keeps.execCheckOp, Keeps.execAbortOp,
    Keeps.execDiscard, Keeps.execCommitCheckComplete, Keeps.execCommitApply, Keeps.execTwinPrepareReceive,
    Keeps.execTwinVoteReceive, Keeps.execTwinVoteTimeout, Keeps.execTwinApplyReceive, Keeps.execDomainPrepareReceive,
    Keeps.execDomainVoteReceive, Keeps.execVoteWindowExpire, Keeps.execDomainApplyReceive,
    Keeps.execDomainAbortReceive, Keeps.execCommitOrphan, Keeps.execSnapshotHost, Keeps.execSnapshotSched,
    Keeps.execSnapshotDomsched, Keeps.execDomainSnapReceive, Keeps.execSnapshotLatch, Keeps.execBankRelease,
    Keeps.execScalc, Keeps.execLearn, Keeps.execDigestRecompute, Keeps.execDigestReport,
    Keeps.execDigestReportReceive, Keeps.execCrefReceive, Keeps.execPortTrain, Keeps.execPortTrainTimeout,
    Keeps.execBlockSend, Keeps.execBlockReceive, Keeps.execResendTimeout, Keeps.execRetrainTimeout, Keeps.execJoinOp,
    Keeps.execJoinReceive, Keeps.execJoinReplyReceive (_reason := 0), Keeps.execRejoin, Keeps.execDreset,
    Keeps.execDresetReceive,
    Keeps.execLeaveTimeout, Keeps.execLeaveReceive, Keeps.execPruneReceive, Keeps.execDomainEpochReceive,
    Keeps.execBarrierReportReceive (_dev := 0), Keeps.execRraGo, Keeps.execRraRequestReceive, Keeps.execRraResponse,
    Keeps.execRraTimeout, Keeps.execMsgPacketReceive, Keeps.execTimeExchangeStart, Keeps.execTs1Receive,
    Keeps.execTs2Receive, Keeps.execTs3Receive, Keeps.execMirroredWriteApply, Keeps.execRefillBlockForward,
    Keeps.execHeartbeatSend, Keeps.execHeartbeatReceive, Keeps.execHeartbeatLoss, Keeps.execGroupTakeover,
    Keeps.execTakeoverTermConnect, Keeps.execParkcmdReceive, Keeps.execAgreementReceive, Keeps.execSwapOp,
    Keeps.execSwapExecute, Keeps.execDetach, Keeps.execPairWrite, Keeps.execAttach, Keeps.execAttachTimeout,
    Keeps.execEngineTransfer, Keeps.execFunctionLevelReset, Keeps.execPerstN, Keeps.execPowerStateChange,
    Keeps.execLinkChange, Keeps.execCplTimeout, Keeps.execBar2WriteLow, Keeps.execBar2WriteHigh,
    Keeps.execBar2ReadLow, Keeps.execBar2ReadHigh, Keeps.execRingTailWrite, Keeps.execRingEnable,
    Keeps.execRingFlushTimeout, Keeps.execRingFlushWrite, Keeps.execRingBlockWrite, Keeps.execCaptureReadoutGo,
    Keeps.execQueueBlockFetch, Keeps.execSmbTemp, Keeps.execSmbStatus, Keeps.execSmbAlertclr, Keeps.execSmbVid,
    Keeps.execSmbDid, Keeps.execSmbSvid, Keeps.execSmbSsid, Keeps.execSmbRevid, Keeps.execSmbSerial,
    Keeps.execSmbUnlisted, Keeps.execSmbAlertResponse, Keeps.execSpiGo, Keeps.execSpiDone, Keeps.execPor,
    Keeps.execRstN, Keeps.execBoot, Keeps.execGroupReset, Keeps.execDeviceResetTp, Keeps.execDeviceResetAq,
    Keeps.execDeviceResetSn, Keeps.execRefclkLoss, Keeps.execRefclkReturn, Keeps.execCrossingReset,
    Keeps.execOchreSample, Keeps.execOclr, Keeps.execTempSample, Keeps.execTclr, Keeps.execNvsUnlockWrite,
    Keeps.execNvsLockTimeout, Keeps.execNvsWordWrite, Keeps.execLedgerWrite, Keeps.execTapReset, Keeps.execExtest,
    Keeps.execIdcode, Keeps.execSamplePreload, Keeps.execHighz, Keeps.execClampTap, Keeps.execExtestPulse,
    Keeps.execExtestTrain, Keeps.execBypass, Keeps.execPerstNRise, Keeps.execPcieLinkDown]

/-- The idle step keeps the forms. -/
theorem Keeps.idle (s : State) : RunsTo (Machine.done s s.tclk) (Keeps s) := (Keeps.refl s).tclk.done

theorem RunsTo.mono {o : Host.Outcome State Fault Refusal} {p q : State → Prop} (h : RunsTo o p) (k : ∀ t, p t → q t) :
    RunsTo o q := by
  obtain ⟨t, e, ht⟩ := h
  exact ⟨t, e, k t ht⟩

/-- A step keeps the forms: the command at the front acts on the state with the rest of the queue. -/
theorem step_keeps (s : State) : ∃ q, RunsTo (step s) (Keeps { s with pending := q }) := by
  unfold step
  split
  · next c rest e => exact ⟨rest, Keeps.exec c _⟩
  · next e => exact ⟨[], by rw [← e]; exact Keeps.idle s⟩

/-- Settles O1: this is how `step` is defined. -/
theorem stepRunsFront : Obligations.StepRunsFront := fun _ _ _ => rfl

/-- Settles O57: every command runs (`Keeps.exec`), and what an idle TCLK does after the count of TIME leaves it. -/
theorem everyStepRuns : Obligations.EveryStepRuns := by
  refine ⟨fun c s => (Keeps.exec c s).mono fun _ k => k.pending, fun s e => ⟨settle s s.tclk, ?_, ?_⟩⟩
  · rw [step, e]
    rfl
  · beta_reduce
    rw [settle_time, settle_mem, settle_staged, settle_die, settle_cm, settle_pending]
    by_cases b : s.get GL_STATUS_BOOT = 0
    · rw [State.tclk, if_pos b, if_pos b]
      exact ⟨rfl, rfl, rfl, rfl, rfl, e⟩
    · have k := s.stays_tclk b
      rw [if_neg b]
      exact ⟨k.time, k.mem, k.staged, k.die, k.cm, k.pending.trans e⟩

theorem State.get_reset (x : Fld) : State.reset.get x = fieldOf (BitVec.ofNat 32 x.reg.rst) x.hi x.lo := rfl

theorem State.parked_reset (g : Nat) {p : Nat} (h : p < 16) : State.reset.parked g p := by
  have all : ∀ i < 16, (fieldOf (BitVec.ofNat 32 0xFFFF) 15 0).testBit i := by decide
  exact all p h

/-- Settles O58: every word is its Reset word, for the planes hold none. -/
theorem resetState : Obligations.ResetState := by
  refine ⟨rfl, rfl, rfl, fun r => ⟨rfl, rfl⟩, fun g p _ hp => State.parked_reset g hp, fun e c _ _ => ?_,
    fun _ => rfl, rfl, rfl, ⟨.nil, fun _ h => nomatch h⟩, ⟨.nil, .nil, .nil, .nil⟩, fun _ h => nomatch h⟩
  have idle : State.reset.get (SQ_CTX_STAT_STATE e c) = 0 := (by decide : fieldOf (BitVec.ofNat 32 0) 31 30 = 0)
  rw [State.ctxState, idle]
  rfl

/-- Settles O59: every command keeps the memory in its form (`Keeps.exec`). -/
theorem memoryStaysCanonical : Obligations.MemoryStaysCanonical := by
  intro s h
  obtain ⟨q, k⟩ := step_keeps s
  exact k.mono fun t k => k.mem h

/-- Settles O60: every command keeps the planes rising, and boots only the registers of R429 (`Keeps.bootFree`). -/
theorem planesStayRising : Obligations.PlanesStayRising := by
  intro s h b
  obtain ⟨q, k⟩ := step_keeps s
  exact k.mono fun t k => ⟨k.planes h, k.boot b⟩

end Sys2Proof.Machine
end

section
/-! Interrupts and ALERT_N (R410, R411): the messages that a command sends for the causes that rose, and the host write that
unmasks a vector. -/

namespace Sys2Proof.Machine

/-! ### Bits of a field -/

theorem testBit_putBit (n i j : Nat) (b : Bool) : (putBit n i b).testBit j = if i = j then b else n.testBit j := by
  unfold putBit
  cases b
  · by_cases hi : n.testBit i
    · have split : n - 2 ^ i = 2 ^ (i + 1) * (n / 2 ^ (i + 1)) + n % 2 ^ i := by
        have parts := Nat.div_add_mod n (2 ^ (i + 1))
        rw [Nat.mod_pow_succ, of_decide_eq_true ((Nat.testBit_eq_decide_div_mod_eq ..).symm.trans hi)] at parts
        omega
      have low : n % 2 ^ i < 2 ^ (i + 1) := (Nat.mod_lt _ (Nat.two_pow_pos i)).trans (Nat.pow_lt_pow_succ (by decide))
      simp only [Bool.false_eq_true, if_false, hi, if_true]
      rw [split, Nat.testBit_two_pow_mul_add _ low, Nat.testBit_mod_two_pow, Nat.testBit_div_two_pow]
      rcases Nat.lt_trichotomy j i with h | rfl | h
      · simp [h, Nat.lt_succ_of_lt h, h.ne']
      · simp
      · rw [if_neg (by omega), if_neg (by omega), Nat.sub_add_cancel (by omega)]
    · simp only [Bool.false_eq_true, if_false, hi]
      split
      · next e => rw [← e]; exact eq_false_of_ne_true hi
      · rfl
  · simp only [if_true, Nat.testBit_or, Nat.one_shiftLeft, Nat.testBit_two_pow]
    split <;> simp_all

/-- A bit written in a field: it reads as written, and the others read as before. -/
theorem State.bit_setBit (s : State) (x : Fld) (i j : Nat) (b : Bool) (h : x.inWord) (hj : j < x.hi + 1 - x.lo) :
    (s.setBit x i b).bit x j = if i = j then b else s.bit x j := by
  rw [State.bit, State.setBit, State.get_set _ _ _ h, Nat.testBit_mod_two_pow, testBit_putBit]
  simp [hj, State.bit]

theorem State.bit_setBit_apart (s : State) (x y : Fld) (i j : Nat) (b : Bool) (h : x.inWord) (a : x.apart y) :
    (s.setBit x i b).bit y j = s.bit y j := State.bit_set_apart _ _ _ _ _ h a

/-! ### Messages of MSI-X -/

/-- The bit of the PBA of a vector. -/
def State.pends (s : State) (v : Nat) : Bool := s.bit (MSIX_PBA_PEND (v / 32)) (v % 32)

/-- The words of the PBA are apart from the masks of the vectors. -/
theorem pba_apart_mask (w v : Nat) (h : v < 64) : (MSIX_PBA_PEND w).apart (MSIX_VCTL_MASK v) := by
  left
  simp only [MSIX_PBA_PEND, MSIX_PBA, MSIX_VCTL_MASK, MSIX_VCTL]
  omega

theorem State.pends_setBit (s : State) (v w : Nat) (b : Bool) :
    (s.setBit (MSIX_PBA_PEND (w / 32)) (w % 32) b).pends v = if w = v then b else s.pends v := by
  unfold State.pends
  by_cases e : w / 32 = v / 32
  · have inPba : v % 32 < 31 + 1 - 0 := Nat.mod_lt v (by decide)
    rw [e, State.bit_setBit s (MSIX_PBA_PEND (v / 32)) _ _ _ (Fld.inWord_of _ rfl) inPba]
    exact if_congr (by omega) rfl rfl
  · have a : (MSIX_PBA_PEND (w / 32)).apart (MSIX_PBA_PEND (v / 32)) := by
      left
      simp only [MSIX_PBA_PEND, MSIX_PBA]
      omega
    rw [State.bit_setBit_apart _ _ _ _ _ _ (Fld.inWord_of _ rfl) a, if_neg (by omega)]

theorem State.pends_emit (s : State) (o : Output) (v : Nat) : (s.emit o).pends v = s.pends v := rfl

theorem State.sendVector_of_masked (s : State) (v : Nat) (h : s.on (MSIX_VCTL_MASK v)) :
    s.sendVector v = s.setBit (MSIX_PBA_PEND (v / 32)) (v % 32) true := if_pos h

theorem State.sendVector_of_not_masked (s : State) (v : Nat) (h : s.on (MSIX_VCTL_MASK v) = false) :
    s.sendVector v = s.emit (.msix v) := if_neg (by simp [h])

theorem State.on_mask_sendVector (s : State) (v w : Nat) (h : v < 64) :
    (s.sendVector w).on (MSIX_VCTL_MASK v) = s.on (MSIX_VCTL_MASK v) := by
  unfold State.sendVector
  split
  · exact State.on_set_apart _ _ _ _ (Fld.inWord_of _ rfl) (pba_apart_mask _ v h)
  · rfl

/-- A vector that is signalled leaves the others. -/
theorem State.sendVector_ne (s : State) {v w : Nat} (h : w ≠ v) :
    (s.sendVector w).out.count (.msix v) = s.out.count (.msix v) ∧ (s.sendVector w).pends v = s.pends v := by
  unfold State.sendVector
  split
  · rw [State.setBit_out, State.pends_setBit, if_neg h]
    exact ⟨rfl, rfl⟩
  · refine ⟨List.count_cons_of_ne ?_, rfl⟩
    simpa using h

/-- Vectors that are signalled leave the others. -/
theorem State.forEach_sendVector_of_not_mem (s : State) {v : Nat} (l : List Nat) (h : v ∉ l) :
    (s.forEach l State.sendVector).out.count (.msix v) = s.out.count (.msix v) ∧
      (s.forEach l State.sendVector).pends v = s.pends v := by
  induction l generalizing s with
  | nil => exact ⟨rfl, rfl⟩
  | cons w l ih =>
    rw [List.mem_cons, not_or] at h
    have first := s.sendVector_ne (Ne.symm h.1)
    have rest := ih (s.sendVector w) h.2
    exact ⟨rest.1.trans first.1, rest.2.trans first.2⟩

/-- A masked vector that is signalled is pending. -/
theorem State.forEach_sendVector_of_masked (s : State) {v : Nat} (hv : v < 64) (m : s.on (MSIX_VCTL_MASK v)) (l : List Nat)
    (h : v ∈ l) (d : l.Nodup) : (s.forEach l State.sendVector).out.count (.msix v) = s.out.count (.msix v) ∧
      (s.forEach l State.sendVector).pends v := by
  induction l generalizing s with
  | nil => nomatch h
  | cons w l ih =>
    rw [List.nodup_cons] at d
    by_cases e : w = v
    · subst e
      have rest := (s.sendVector w).forEach_sendVector_of_not_mem l d.1
      rw [s.sendVector_of_masked w m, State.setBit_out, State.pends_setBit, if_pos rfl] at rest
      rw [← s.sendVector_of_masked w m] at rest
      exact rest
    · have first := s.sendVector_ne e
      have rest := ih (s.sendVector w) (by rwa [s.on_mask_sendVector v w hv]) ((List.mem_cons.1 h).resolve_left (Ne.symm e)) d.2
      exact ⟨rest.1.trans first.1, rest.2⟩

/-- A vector that is signalled and not masked is sent. -/
theorem State.forEach_sendVector_of_not_masked (s : State) {v : Nat} (hv : v < 64) (m : s.on (MSIX_VCTL_MASK v) = false)
    (l : List Nat) (h : v ∈ l) (d : l.Nodup) :
    (s.forEach l State.sendVector).out.count (.msix v) = s.out.count (.msix v) + 1 ∧
      (s.forEach l State.sendVector).pends v = s.pends v := by
  induction l generalizing s with
  | nil => nomatch h
  | cons w l ih =>
    rw [List.nodup_cons] at d
    by_cases e : w = v
    · subst e
      have rest := (s.sendVector w).forEach_sendVector_of_not_mem l d.1
      have sent := s.sendVector_of_not_masked w m
      refine ⟨rest.1.trans ?_, rest.2.trans ?_⟩
      · rw [sent]
        exact List.count_cons_self
      · rw [sent]
        rfl
    · have first := s.sendVector_ne e
      have rest := ih (s.sendVector w) (by rwa [s.on_mask_sendVector v w hv]) ((List.mem_cons.1 h).resolve_left (Ne.symm e)) d.2
      exact ⟨rest.1.trans (by rw [first.1]), rest.2.trans first.2⟩

theorem nodup_eraseDups (l : List Nat) : l.eraseDups.Nodup := by
  induction h : l.length using Nat.strong_induction_on generalizing l with
  | _ n ih =>
    cases l with
    | nil => simp
    | cons a l =>
      subst h
      rw [List.eraseDups_cons, List.nodup_cons]
      refine ⟨by simp, ih _ (Nat.lt_succ_of_le (List.length_filter_le _ l)) _ rfl⟩

/-- The vectors of the causes that a command makes rise. -/
def risenVectors (s t : State) : List Nat := ((risen s t).map t.imapV).eraseDups

theorem mem_risenVectors (s t : State) (v : Nat) : v ∈ risenVectors s t ↔
    ∃ b < 29, t.bit HI_IMASK_MASK b ∧ t.causeBit b ∧ s.causeBit b = false ∧ t.imapV b = v := by
  simp only [risenVectors, List.mem_eraseDups, List.mem_map, risen, bitsOf, List.mem_filter, List.mem_range, State.bit,
    Bool.and_eq_true, Bool.not_eq_true', and_assoc]

theorem settle_out_eq (s t : State) : (settle s t).out = (t.forEach (risenVectors s t) State.sendVector).out := by
  unfold settle State.signal
  dsimp only
  split <;> rfl

theorem pends_settle (s t : State) (v : Nat) :
    (settle s t).pends v = (t.forEach (risenVectors s t) State.sendVector).pends v := by
  unfold settle State.signal
  dsimp only
  split <;> rfl

/-- A command that makes no enabled cause rise sends no message. -/
theorem settle_out_of_quiet (s t : State) (h : ∀ b, t.causeBit b → s.causeBit b) : (settle s t).out = t.out := by
  have none : risenVectors s t = [] := List.eq_nil_iff_forall_not_mem.2 fun v hv => by
    obtain ⟨b, -, -, now, before, -⟩ := (mem_risenVectors s t v).1 hv
    simp [h b now] at before
  rw [settle_out_eq, none]
  rfl

theorem pends_settle_of_quiet (s t : State) (v : Nat) (h : ∀ b, t.causeBit b → s.causeBit b) :
    (settle s t).pends v = t.pends v := by
  have none : risenVectors s t = [] := List.eq_nil_iff_forall_not_mem.2 fun v hv => by
    obtain ⟨b, -, -, now, before, -⟩ := (mem_risenVectors s t v).1 hv
    simp [h b now] at before
  rw [pends_settle, none]
  rfl

/-! ### ALERT_N -/

theorem State.on_signal (s : State) (l : List Nat) (x : Fld) (h : x.reg.notPba) : (s.signal l).on x = s.on x := by
  have word := s.word_signal l x.reg h
  rw [State.on, State.on, State.get_eq, State.get_eq, ← State.word, ← State.word, word]

theorem State.smbStatus_signal (s : State) (l : List Nat) : (s.signal l).smbStatus = s.smbStatus := by
  unfold State.smbStatus
  rw [s.on_signal l GL_STATUS_READY (by decide), s.on_signal l MC_MCHKMAP_MAP (by decide),
    s.on_signal l TH_STAT_WARN (by decide), s.on_signal l TH_STAT_TRIP (by decide), s.on_signal l TH_STAT_OEXH (by decide)]

theorem State.alertN_signal (s : State) (l : List Nat) : (s.signal l).hi.alertN = s.hi.alertN :=
  congrArg HiState.alertN (State.forEach_keeps State.hi _ State.sendVector_hi s _)

/-- R411: bits 1 to 4 of STATUS. -/
theorem alertRises_eq (s t : State) :
    alertRises s t = [1, 2, 3, 4].any fun i => t.smbStatus.testBit i && !s.smbStatus.testBit i := by
  simp only [alertRises, bitsOf, List.any_filter, Nat.testBit_div_two]
  rfl

theorem alertN_settle (s t : State) : (settle s t).hi.alertN =
    (t.hi.alertN && !([1, 2, 3, 4].any fun i => t.smbStatus.testBit i && !s.smbStatus.testBit i)) := by
  have rises : alertRises s (t.signal (risen s t)) = alertRises s t := by
    rw [alertRises, alertRises, State.smbStatus_signal]
  unfold settle
  dsimp only
  rw [rises, ← alertRises_eq]
  split
  · next h => rw [h]; simp
  · next h => rw [State.alertN_signal, eq_false_of_ne_true h]; simp

/-! ### A host write of a register -/

theorem exec_registerWrite (a : BitVec 24) (v : Word) (s : State) :
    exec (.registerWrite a ⟨4, v⟩) s = done s (s.hostWrite a.toNat v) := rfl

theorem State.hostWrite_reg {s : State} {a : Nat} {n : RegName} {ix : List Nat} (v : Word) (hr : s.ready) (ha : a < 0x800000)
    (h4 : a % 4 = 0) (rra : a ≠ CL_RRA_CMD.addr) (hn : regAt a = some (n, ix)) :
    s.hostWrite a v = (if n.forwarded ix then s.mirrored a v fun s => s.localWrite n ix v
      else s.localWrite n ix v).resignal n := by
  simp [State.hostWrite, State.regWrite, hr, h4, rra, hn, Nat.not_le.2 ha]

theorem State.resignal_of_causes (s : State) (n : RegName) (h : n.causes = []) : s.resignal n = s := by
  rw [State.resignal, h]
  rfl

/-! ### Unmasking a vector -/

theorem regAt_vctl (k : Fin 64) : regAt (MSIX_VCTL k).addr = some (.MSIX_VCTL, [k.val]) := by
  revert k
  decide +kernel

theorem State.writePlain_vctl (s : State) (k : Nat) (v : Word) :
    s.writePlain .MSIX_VCTL [k] v = s.set (MSIX_VCTL_MASK k) (fieldOf v 0 0) := by
  have staged : RegName.MSIX_VCTL.sel [k] FieldSpec.isStaged = [] := rfl
  have flags : RegName.MSIX_VCTL.sel [k] FieldSpec.isFlag = [] := rfl
  have live : RegName.MSIX_VCTL.sel [k] FieldSpec.isLive = [⟨0, 0, .rw, .none, .free⟩] := rfl
  have free : (⟨0, 0, .rw, .none, .free⟩ : FieldSpec).stored v = fieldOf v 0 0 := rfl
  rw [State.writePlain, State.writeStaged, staged, State.writeLive, State.clearWord, flags, live]
  simp only [storeFields, clearFlags, List.foldl_cons, List.foldl_nil, free, bne_self_eq_false, Bool.or_false,
    Bool.false_eq_true, if_false]
  rfl

theorem fieldOf_bit_zero {v : Word} (h : v.getLsbD 0 = false) : fieldOf v 0 0 = 0 := by
  have even : v.toNat % 2 ≠ 1 := by simpa [BitVec.getLsbD, Nat.testBit_zero] using h
  simp only [fieldOf]
  omega

/-- The state after the write that unmasks a vector, as the interrupts find it. -/
def State.unmasked (s : State) (k : Nat) : State :=
  ((s.set (MSIX_VCTL_MASK k) 0).setBit (MSIX_PBA_PEND (k / 32)) (k % 32) false).emit (.msix k)

theorem State.on_mask_set_zero (s : State) (k : Nat) : (s.set (MSIX_VCTL_MASK k) 0).on (MSIX_VCTL_MASK k) = false := by
  rw [State.on, State.get_set _ _ _ (Fld.inWord_of _ rfl), Nat.zero_mod]
  rfl

theorem mask_apart_pba (k w : Nat) (h : k < 64) : (MSIX_VCTL_MASK k).apart (MSIX_PBA_PEND w) :=
  .inl ((pba_apart_mask w k h).resolve_right fun h => absurd (congrArg Reg.addr h.1) (by
    simp only [MSIX_PBA_PEND, MSIX_PBA, MSIX_VCTL_MASK, MSIX_VCTL]; omega)).symm

theorem mask_notPba (k : Fin 64) : (MSIX_VCTL_MASK k).reg.notPba := by
  left
  simp only [MSIX_VCTL_MASK, MSIX_VCTL]
  omega

theorem State.on_mask_unmasked (s : State) (k : Fin 64) : (s.unmasked k).on (MSIX_VCTL_MASK k) = false := by
  have mask := (s.set (MSIX_VCTL_MASK k) 0).on_set_apart (MSIX_PBA_PEND (k / 32)) (MSIX_VCTL_MASK k)
    (putBit ((s.set (MSIX_VCTL_MASK k) 0).get (MSIX_PBA_PEND (k / 32))) (k % 32) false) (Fld.inWord_of _ rfl)
    (pba_apart_mask _ k k.isLt)
  exact mask.trans (s.on_mask_set_zero k)

theorem State.writeVctl_of_pends (s : State) (k : Fin 64) (v : Word) (h : v.getLsbD 0 = false) (p : s.pends k) :
    s.writeVctl k v = s.unmasked k := by
  have due : (s.set (MSIX_VCTL_MASK k) 0).bit (MSIX_PBA_PEND (k / 32)) (k % 32) = true :=
    (State.bit_set_apart _ _ _ _ _ (Fld.inWord_of _ rfl) (mask_apart_pba k _ k.isLt)).trans p
  rw [State.writeVctl, State.writePlain_vctl, fieldOf_bit_zero h]
  simp only [State.on_mask_set_zero, due]
  rfl

theorem forwarded_vctl (k : Fin 64) : RegName.MSIX_VCTL.forwarded [k.val] = false := by
  revert k
  decide

theorem exec_unmask (s : State) (k : Fin 64) (v : Word) (hr : s.ready) (h : v.getLsbD 0 = false) (p : s.pends k) :
    exec (.registerWrite (BitVec.ofNat 24 (MSIX_VCTL k).addr) ⟨4, v⟩) s = done s (s.unmasked k) := by
  have place : (BitVec.ofNat 24 (MSIX_VCTL k).addr).toNat = (MSIX_VCTL k).addr := by
    simp only [BitVec.toNat_ofNat, MSIX_VCTL]
    omega
  have low : (MSIX_VCTL k).addr < 0x60000 := by simp only [MSIX_VCTL]; omega
  have aligned : (MSIX_VCTL k).addr % 4 = 0 := by simp only [MSIX_VCTL]; omega
  have rra : (MSIX_VCTL k).addr ≠ CL_RRA_CMD.addr := by simp only [MSIX_VCTL, CL_RRA_CMD]; omega
  rw [exec_registerWrite, place, State.hostWrite_reg v hr (low.trans (by decide)) aligned rra (regAt_vctl k),
    forwarded_vctl, if_neg Bool.false_ne_true, State.resignal_of_causes _ _ rfl]
  exact congrArg _ (s.writeVctl_of_pends k v h p)

/-- The register lies outside the block of MSI-X. -/
abbrev Reg.notMsix (r : Reg) : Prop := r.addr < 0x50000 ∨ 0x60000 ≤ r.addr

theorem State.groupFlags_congr {s t : State} (h : ∀ r : Reg, r.notMsix → t.word r = s.word r) (b g : Nat) :
    t.groupFlags b g = s.groupFlags b g := by
  have group (r : Reg) (hr : groupBase g ≤ r.addr) : t.word r = s.word r := h r (.inr (by simp only [groupBase] at hr; omega))
  unfold State.groupFlags
  dsimp only
  split
  · rw [group (TG_FLAGS g) (Nat.le_add_right ..)]
  · rw [group (LS_FLAGS g) (Nat.le_add_right ..)]
  · rw [group (CP_FLAGS g) (Nat.le_add_right ..), group (CP_TFLAGS g) (Nat.le_add_right ..),
      h (CP_PFLAGS 0) (by decide)]
  · rw [group (TD_FLAGS g) (Nat.le_add_right ..)]
  · rw [group (FQ_FLAGS g) (Nat.le_add_right ..)]
  · rw [group (FC_FLAGS g) (Nat.le_add_right ..)]
  · rw [group (WP_FLAGS g) (Nat.le_add_right ..)]
  · rw [group (SQ_FLAGS g) (Nat.le_add_right ..)]
  · rfl

/-- The causes are formed from registers outside the block of MSI-X. -/
theorem State.causeBit_congr {s t : State} (h : ∀ r : Reg, r.notMsix → t.word r = s.word r) (b : Nat) :
    t.causeBit b = s.causeBit b := by
  have done : t.get HI_RDONE_DONE = s.get HI_RDONE_DONE := by
    rw [State.get_eq, State.get_eq, ← State.word, ← State.word, h _ (by decide)]
  unfold State.causeBit
  simp only [State.bit, done]
  split
  · rfl
  · split
    case h_14 => rw [funext (State.groupFlags_congr h b)]
    all_goals rw [h _ (by decide)]

theorem State.word_unmasked (s : State) (k : Fin 64) (r : Reg) (h : r.notMsix) : (s.unmasked k).word r = s.word r := by
  rw [State.unmasked, State.word_emit, State.setBit, State.word_set_ne, State.word_set_ne]
  · simp only [MSIX_VCTL_MASK, MSIX_VCTL]; omega
  · simp only [MSIX_PBA_PEND, MSIX_PBA]; omega

theorem State.frame_unmasked (s : State) (k : Fin 64) : Frame s (s.unmasked k) [] (· ∈ [MSIX_VCTL_MASK k]) := by
  refine (Frame.set s _ _ (MSIX_VCTL_MASK k) 0 (Fld.inWord_of _ rfl) (by simp)).trans (.trans ⟨fun p _ => ?_, fun x hx _ => ?_⟩
    (Frame.emit ..))
  · exact (Frame.setBit _ [] (fun _ => True) _ _ _ (Fld.inWord_of _ rfl) trivial).part p (List.not_mem_nil)
  · refine State.get_set_apart _ _ _ _ (Fld.inWord_of _ rfl) (.inl ?_)
    simp only [MSIX_PBA_PEND, MSIX_PBA]
    omega

/-- Settles O55: one message for each vector of a cause that rose (`mem_risenVectors`), ALERT_N by bits 1 to 4 of STATUS, and the
message of a pending vector at its unmasking. -/
theorem interrupts : Obligations.Interrupts := by
  refine ⟨fun s t v hv => ⟨fun rose => ⟨fun m => ?_, fun m => ?_⟩, fun quiet => ?_⟩, alertN_settle, fun s k v hr h p => ?_⟩
  · rw [settle_out_eq]
    have sent := t.forEach_sendVector_of_not_masked hv m _ ((mem_risenVectors s t v).2 rose) (nodup_eraseDups _)
    exact ⟨sent.1, (pends_settle s t v).trans sent.2⟩
  · rw [settle_out_eq]
    have sent := t.forEach_sendVector_of_masked hv m _ ((mem_risenVectors s t v).2 rose) (nodup_eraseDups _)
    exact ⟨sent.1, (pends_settle s t v).trans sent.2⟩
  · rw [settle_out_eq]
    have none := t.forEach_sendVector_of_not_mem (v := v) (risenVectors s t) fun risen => by
      obtain ⟨b, hb, mask, now, before, e⟩ := (mem_risenVectors s t v).1 risen
      simp [quiet b hb mask now e] at before
    exact ⟨none.1, (pends_settle s t v).trans none.2⟩
  · have quiet (b : Nat) : (s.unmasked k).causeBit b → s.causeBit b := by
      rw [State.causeBit_congr (s.word_unmasked k)]
      exact id
    rw [exec_unmask s k v hr h p]
    refine runsTo_done _ _ _ ?_
    refine ⟨?_, ?_, ?_, ?_⟩
    · exact (on_settle _ _ _ (mask_notPba k)).trans (s.on_mask_unmasked k)
    · refine (pends_settle_of_quiet s _ k quiet).trans ?_
      rw [State.unmasked, State.pends_emit, State.pends_setBit, if_pos rfl]
    · rw [settle_out_of_quiet s _ quiet]
      simp [State.unmasked, State.emit]
    · exact (s.frame_unmasked k).trans (Frame.settle ..)

end Sys2Proof.Machine
end

section
/-! Host writes on a member of a pair (R374, R375): what an ACTIVE member sends over T and what a SHADOW counts. -/

namespace Sys2Proof.Machine

/-! ### Messages sent again -/

/-- Messages before what has been sent. -/
def OnlyMessages (s t : State) : Prop := ∃ pre, t.out = pre ++ s.out ∧ ∀ x ∈ pre, ∃ v, x = .msix v

theorem OnlyMessages.sendVector {s t : State} (h : OnlyMessages s t) (v : Nat) : OnlyMessages s (t.sendVector v) := by
  obtain ⟨pre, ht, hp⟩ := h
  unfold State.sendVector
  split
  · exact ⟨pre, by rw [State.setBit_out, ht], hp⟩
  · exact ⟨.msix v :: pre, by simp [State.emit, ht], List.forall_mem_cons.2 ⟨⟨v, rfl⟩, hp⟩⟩

theorem onlyMessages_resignal (s : State) (n : RegName) : OnlyMessages s (s.resignal n) :=
  State.forEach_holds _ State.sendVector (fun _ v h => h.sendVector v) s _ ⟨[], rfl, by simp⟩

/-- What a write of a register sends, its command sends, whatever is signalled after it. -/
theorem sends_settle_resignal (s t u : State) (n : RegName) (o : Output) (h : t.out = s.out) :
    Sends s (settle u ((t.emit o).resignal n)) o := by
  obtain ⟨pre, hp, hm⟩ := settle_out u ((t.emit o).resignal n)
  obtain ⟨before, hb, hk⟩ := onlyMessages_resignal (t.emit o) n
  refine ⟨pre ++ before, ?_, fun x hx => ?_⟩
  · rw [hp, hb]
    simp [State.emit, h]
  · rcases List.mem_append.1 hx with hx | hx
    exacts [hm x hx, hk x hx]

theorem State.resignal_tw (s : State) (n : RegName) : (s.resignal n).tw = s.tw :=
  State.forEach_keeps State.tw _ State.sendVector_tw s _

/-- What signals a vector changes nothing that a frame speaks of. -/
theorem Frame.sendVector (s : State) (ps : List Part) (w : Fld → Prop) {v : Nat} (hv : v < 64) :
    Frame s (s.sendVector v) ps w := by
  refine ⟨fun p hp => ?_, fun x hx _ => ?_⟩
  · unfold State.sendVector
    split
    · exact (Frame.setBit s ps (fun _ => True) _ _ _ (Fld.inWord_of _ rfl) trivial).part p hp
    · exact (Frame.emit s ps w _).part p hp
  · have word := s.word_sendVector v x.reg hv hx
    rw [State.get_eq, State.get_eq, ← State.word, ← State.word, word]

theorem Frame.resignal (s : State) (n : RegName) (ps : List Part) (w : Fld → Prop) : Frame s (s.resignal n) ps w := by
  refine Frame.forEach s ps w _ _ fun t v hv => Frame.sendVector t ps w ?_
  obtain ⟨b, -, rfl⟩ := List.mem_map.1 (List.mem_eraseDups.1 hv)
  exact s.imapV_lt b

theorem State.get_resignal (s : State) (n : RegName) (x : Fld) (h : x.reg.notPba) : (s.resignal n).get x = s.get x :=
  (Frame.resignal s n [] (fun _ => False)).reg x h fun _ => False.elim

/-! ### The writes that a pair forwards -/

/-- R375: the ACTIVE member sends a write over T, to act 3,200 TCLK later. -/
def State.sentOver (s : State) (x : MirrorWrite) : State :=
  ({ s with tw := { s.tw with mirror := s.tw.mirror ++ [(later s.time 3200, x)] } }).sendLink 3 (.write s.time x)

theorem Frame.sentOver (s : State) (x : MirrorWrite) : Frame s (s.sentOver x) [.tw] (fun _ => False) :=
  (Frame.setTw s _ _ _ (by simp)).trans (Frame.emit ..)

/-- R374: a SHADOW counts the write. -/
def State.shadowed (s : State) : State := s.flag TW_FLAGS_SHWR TW_CNT2_SHWR

theorem Frame.shadowed (s : State) : Frame s s.shadowed [] (· ∈ [TW_FLAGS_SHWR, TW_CNT2_SHWR]) :=
  Frame.flag s _ _ _ _ (Fld.inWord_of _ rfl) (Fld.inWord_of _ rfl) (by simp) (by simp)

theorem State.get_shadowed_flag (s : State) : s.shadowed.get TW_FLAGS_SHWR = 1 :=
  s.get_flag _ _ (Fld.inWord_of _ rfl) (Fld.inWord_of _ rfl) (.inl (by decide)) rfl

theorem State.get_shadowed_count (s : State) : s.shadowed.get TW_CNT2_SHWR = min (s.get TW_CNT2_SHWR + 1) 65535 :=
  s.get_flag_count _ _ (Fld.inWord_of _ rfl) (Fld.inWord_of _ rfl) (.inl (by decide))

theorem State.mirrored_active (s : State) (a : BitVec 24) (v : Word) (act : State → State) (hr : s.ready)
    (role : s.role = roleActive) : s.mirrored a.toNat v act = s.sentOver (.reg a v) := by
  simp [State.mirrored, hr, role, State.sentOver]

theorem State.mirrored_shadow (s : State) (a : Nat) (v : Word) (act : State → State) (hr : s.ready)
    (role : s.role = roleShadow) : s.mirrored a v act = s.shadowed := by
  simp [State.mirrored, hr, role, State.shadowed, roleShadow, roleActive]

theorem exec_registerWrite_forwarded {s : State} {a : BitVec 24} {n : RegName} {ix : List Nat} (v : Word) (hr : s.ready)
    (ha : a.toNat < 0x800000) (h4 : a.toNat % 4 = 0) (rra : a.toNat ≠ CL_RRA_CMD.addr) (hn : regAt a.toNat = some (n, ix))
    (hf : n.forwarded ix) : exec (.registerWrite a ⟨4, v⟩) s =
      done s ((s.mirrored a.toNat v fun s => s.localWrite n ix v).resignal n) := by
  rw [exec_registerWrite, State.hostWrite_reg v hr ha h4 rra hn, if_pos hf]

/-- A write of byte 8 that meets the hold of a store. -/
theorem exec_bar2WriteHigh_store {s : State} {off : BitVec 27} (b : BitVec 8) (hr : s.ready)
    (region : bar2Region off.toNat = .store) (h8 : off.toNat % 16 = 8) (hold : s.hi.holdAddr = off.toNat - 8) :
    exec (.bar2WriteHigh off b) s = done s (s.storeWrite (off.toNat - 8) (b ++ s.hi.holdData)) := by
  have base : off.toNat / 16 * 16 = off.toNat - 8 := by omega
  have low : off.toNat < memFailLog := by
    by_contra h
    simp only [bar2Region, if_neg h] at region
    split_ifs at region
  have store : bar2Region (off.toNat - 8) = .store := if_pos (by omega)
  have open_ : s.bar2Open off.toNat = true := by simp [State.bar2Open, hr, region]
  change doneIf _ s (s.bar2WriteHigh off.toNat b) = _
  simp [doneIf, open_, h8, State.bar2WriteHigh, base, hold, State.bar2Store, store]

/-- Settles O56: the ACTIVE member sends the write over T, a SHADOW counts it; the messages of a flag that stays set go with it. -/
theorem mirroredWrites : Obligations.MirroredWrites := by
  refine ⟨fun s a v n ix hr ha h4 rra hn hf => ⟨fun role => ?_, fun role => ?_⟩,
    fun s off b hr region h8 hold => ⟨fun role => ?_, fun role => ?_⟩⟩
  · rw [exec_registerWrite_forwarded v hr ha h4 rra hn hf, s.mirrored_active a v _ hr role]
    refine runsTo_done _ _ _ ⟨?_, sends_settle_resignal _ _ _ _ _ rfl,
      (Frame.sentOver ..).trans ((Frame.resignal ..).trans (Frame.settle ..))⟩
    rw [settle_tw, State.resignal_tw]
    rfl
  · rw [exec_registerWrite_forwarded v hr ha h4 rra hn hf, s.mirrored_shadow _ v _ hr role]
    refine runsTo_done _ _ _ ⟨?_, ?_, (Frame.shadowed s).trans ((Frame.resignal ..).trans (Frame.settle ..))⟩
    · rw [get_settle _ _ _ (by decide), State.get_resignal _ _ _ (by decide), s.get_shadowed_flag]
    · rw [get_settle _ _ _ (by decide), State.get_resignal _ _ _ (by decide), s.get_shadowed_count]
  · have sent : s.storeWrite (off.toNat - 8) (b ++ s.hi.holdData) = s.sentOver (.mem (off.toNat - 8) (b ++ s.hi.holdData)) :=
      if_pos role
    rw [exec_bar2WriteHigh_store b hr region h8 hold, sent]
    exact runsTo_done _ _ _ ⟨by rw [settle_tw]; rfl, sends_settle_emit _ _ _ _ rfl, (Frame.sentOver ..).trans (Frame.settle ..)⟩
  · have counted : s.storeWrite (off.toNat - 8) (b ++ s.hi.holdData) = s.shadowed := by
      rw [State.storeWrite, role]
      rfl
    rw [exec_bar2WriteHigh_store b hr region h8 hold, counted]
    refine runsTo_done _ _ _ ⟨?_, ?_, (Frame.shadowed s).trans (Frame.settle ..)⟩
    · rw [get_settle _ _ _ (by decide), s.get_shadowed_flag]
    · rw [get_settle _ _ _ (by decide), s.get_shadowed_count]

end Sys2Proof.Machine
end

section
/-! The discipline of TIME by TBREF (R37, R38): signed fields, the trim, an edge, and the loss. -/

namespace Sys2Proof.Machine

/-! ### Signed fields -/

theorem State.get_setInt (s : State) (x : Fld) (v : Int) (h : x.inWord) :
    (s.setInt x v).get x = (v % (2 ^ (x.hi + 1 - x.lo) : Int)).toNat := by
  have pos : (0 : Int) < 2 ^ (x.hi + 1 - x.lo) := by positivity
  have small : (v % (2 ^ (x.hi + 1 - x.lo) : Int)).toNat < 2 ^ (x.hi + 1 - x.lo) := by
    zify
    rw [Int.toNat_of_nonneg (Int.emod_nonneg _ pos.ne')]
    exact Int.emod_lt_of_pos _ pos
  rw [State.setInt, State.get_set _ _ _ h, Nat.mod_eq_of_lt small]

/-- A signed field reads as the number written, within its width. -/
theorem State.getInt_setInt (s : State) (x : Fld) (v : Int) (h : x.inWord) (lo : -2 ^ (x.hi - x.lo) ≤ v)
    (hi : v < 2 ^ (x.hi - x.lo)) : (s.setInt x v).getInt x = v := by
  have width : x.hi + 1 - x.lo = x.hi - x.lo + 1 := by omega
  simp only [State.getInt, State.get_setInt s x v h, width, Nat.add_sub_cancel]
  generalize x.hi - x.lo = n at *
  have pos : (0 : Int) < 2 ^ n := by positivity
  rw [pow_succ]
  rcases le_or_gt 0 v with k | k
  · have e : v % (2 ^ n * 2) = v := Int.emod_eq_of_lt k (by omega)
    rw [e, if_pos (by zify; omega)]
    omega
  · have e : v % (2 ^ n * 2) = v + 2 ^ n * 2 := by
      rw [← Int.add_emod_right]
      exact Int.emod_eq_of_lt (by omega) (by omega)
    rw [e, if_neg (by zify; omega)]
    omega

theorem State.get_setInt_apart (s : State) (x y : Fld) (v : Int) (h : x.inWord) (a : x.apart y) :
    (s.setInt x v).get y = s.get y := State.get_set_apart _ _ _ _ h a

theorem State.getInt_congr {s t : State} {x : Fld} (h : t.get x = s.get x) : t.getInt x = s.getInt x := by
  rw [State.getInt, State.getInt, h]

theorem getInt_settle (s t : State) (x : Fld) (h : x.reg.notPba) : (settle s t).getInt x = t.getInt x :=
  State.getInt_congr (get_settle s t x h)

/-! ### The trim -/

theorem State.get_trimTo_apart (s : State) (need : Int) (y : Fld) (a : TP_TBREF_TRIM_TRIM.apart y) :
    (s.trimTo need).get y = s.get y := by
  have field (t : State) (v : Int) : (t.setInt TP_TBREF_TRIM_TRIM v).get y = t.get y :=
    t.get_setInt_apart _ _ _ (Fld.inWord_of _ rfl) a
  unfold State.trimTo
  split_ifs
  exacts [rfl, field .., field .., field ..]

theorem State.tp_trimTo (s : State) (need : Int) : (s.trimTo need).tp = s.tp := by
  unfold State.trimTo
  split_ifs
  exacts [rfl, State.set_tp .., State.set_tp .., State.set_tp ..]

theorem Frame.trimTo (s : State) (need : Int) (ps : List Part) (w : Fld → Prop) (h : Part.free ∈ ps)
    (hw : w TP_TBREF_TRIM_TRIM) : Frame s (s.trimTo need) ps w := by
  have field (t : State) (v : Int) : Frame t (t.setInt TP_TBREF_TRIM_TRIM v) ps w :=
    .setInt t ps w _ v (Fld.inWord_of _ rfl) hw
  unfold State.trimTo
  split_ifs
  exacts [.refl .., field .., field .., (Frame.burn s ps w h).trans (field ..)]

theorem State.getInt_setInt_trim (s : State) {v : Int} (lo : -trimLimit ≤ v) (hi : v ≤ trimLimit) :
    (s.setInt TP_TBREF_TRIM_TRIM v).getInt TP_TBREF_TRIM_TRIM = v := by
  simp only [trimLimit] at lo hi
  refine State.getInt_setInt _ _ _ (Fld.inWord_of _ rfl) ?_ ?_ <;> simp only [TP_TBREF_TRIM_TRIM] <;> omega

theorem State.within_bounds (s : State) {lo hi : Int} (h : lo ≤ hi) : lo ≤ (s.within lo hi).2 ∧ (s.within lo hi).2 ≤ hi := by
  have width : 0 < hi - lo + 1 := by omega
  have small := Int.emod_lt_of_pos (s.fresh.toNat : Int) width
  have nonneg := Int.emod_nonneg (s.fresh.toNat : Int) width.ne'
  simp only [State.within, if_pos h]
  omega

/-- R37: the trim of a root or of a device on its own keeps within its limit. -/
theorem State.trimTo_bounds (s : State) (need : Int) (h : s.tbTrims) :
    -trimLimit ≤ (s.trimTo need).getInt TP_TBREF_TRIM_TRIM ∧ (s.trimTo need).getInt TP_TBREF_TRIM_TRIM ≤ trimLimit := by
  have range : -trimLimit ≤ trimLimit := by decide
  simp only [State.trimTo, h, Bool.not_true, Bool.false_eq_true, if_false]
  split_ifs
  · rw [State.getInt_setInt_trim _ range le_rfl]
    exact ⟨range, le_rfl⟩
  · rw [State.getInt_setInt_trim _ le_rfl range]
    exact ⟨le_rfl, range⟩
  · obtain ⟨lo, hi⟩ := s.within_bounds range
    rw [State.getInt_setInt_trim _ lo hi]
    exact ⟨lo, hi⟩

theorem State.trimTo_above (s : State) {need : Int} (h : s.tbTrims) (above : trimLimit < need) :
    (s.trimTo need).getInt TP_TBREF_TRIM_TRIM = trimLimit := by
  simp only [State.trimTo, h, Bool.not_true, Bool.false_eq_true, if_false, if_pos above]
  exact State.getInt_setInt_trim _ (by decide) le_rfl

theorem State.trimTo_of_not_trims (s : State) (need : Int) (h : s.tbTrims = false) : s.trimTo need = s := by
  simp [State.trimTo, h]

/-! ### An edge of TBREF -/

/-- R37: the error lies within ±1 ppb and the needed trim within the limit. -/
def edgeGood (err need : Int) : Bool := decide (-10 ≤ err ∧ err ≤ 10) && decide (-trimLimit ≤ need ∧ need ≤ trimLimit)

theorem edgeGood_of_err {err need : Int} (h : 10 < err) : edgeGood err need = false := by
  simp only [edgeGood, Bool.and_eq_false_imp, decide_eq_true_eq, decide_eq_false_iff_not]
  omega

theorem edgeGood_of_need {err need : Int} (h : trimLimit < need) : edgeGood err need = false := by
  simp only [edgeGood, Bool.and_eq_false_imp, decide_eq_true_eq, decide_eq_false_iff_not]
  omega

/-- R37: the state of the discipline after an edge. -/
def State.edgeNext (s : State) (err need : Int) : Nat :=
  if s.get TP_STATUS_TB_STATE = tbFree ∨ s.get TP_STATUS_TB_STATE = tbHoldover then tbAcquire
  else if s.get TP_STATUS_TB_STATE = tbLocked ∧ !edgeGood err need then tbAcquire else s.get TP_STATUS_TB_STATE

/-- The state that the trim finds at an edge. -/
def State.edged (s : State) (err need : Int) : State :=
  (({ s with tp := { s.tp with tbLast := some s.time,
                               tbGood := if edgeGood err need then some (s.tp.tbGood.getD s.time) else none } } : State).set
    TP_STATUS_TB_STATE (s.edgeNext err need)).setInt TP_TBREF_ERR_ERR err

theorem State.tbEdge_eq (s : State) (err need : Int) : s.tbEdge err need = (s.edged err need).trimTo need := rfl

theorem State.edgeNext_acquire (s : State) {err need : Int} (locked : s.get TP_STATUS_TB_STATE = tbLocked)
    (h : edgeGood err need = false) : s.edgeNext err need = tbAcquire := by
  simp [State.edgeNext, locked, h, tbLocked, tbFree, tbHoldover]

theorem State.edgeNext_lt (s : State) (err need : Int) : s.edgeNext err need < 4 := by
  have small : s.get TP_STATUS_TB_STATE < 4 := s.get_lt TP_STATUS_TB_STATE
  unfold State.edgeNext
  split_ifs
  exacts [by decide, by decide, small]

theorem State.get_tbState_edged (s : State) (err need : Int) :
    (s.edged err need).get TP_STATUS_TB_STATE = s.edgeNext err need := by
  rw [State.edged, State.get_setInt_apart _ _ _ _ (Fld.inWord_of _ rfl) (by decide),
    State.get_set _ _ _ (Fld.inWord_of _ rfl)]
  exact Nat.mod_eq_of_lt (s.edgeNext_lt err need)

theorem State.getInt_err_edged (s : State) (err : BitVec 32) (need : Int) :
    (s.edged err.toInt need).getInt TP_TBREF_ERR_ERR = err.toInt :=
  State.getInt_setInt _ _ _ (Fld.inWord_of _ rfl) (BitVec.le_toInt err) (BitVec.toInt_lt (x := err))

theorem Frame.edged (s : State) (err need : Int) :
    Frame s (s.edged err need) [.tp, .free] (· ∈ [TP_STATUS_TB_STATE, TP_TBREF_ERR_ERR, TP_TBREF_TRIM_TRIM]) :=
  ((Frame.setTp s _ _ _ (by simp)).trans (Frame.set _ _ _ _ _ (Fld.inWord_of _ rfl) (by simp))).trans
    (Frame.setInt _ _ _ _ _ (Fld.inWord_of _ rfl) (by simp))

theorem State.isRoot_edged (s : State) (err need : Int) : (s.edged err need).isRoot = s.isRoot := by
  rw [State.isRoot, State.isRoot, State.on, State.on,
    (Frame.edged s err need).reg CL_DOM_CTL_ROOT (by decide) (by decide)]

theorem State.isMember_edged (s : State) (err need : Int) : (s.edged err need).isMember = s.isMember := by
  rw [State.isMember, State.isMember, State.on, State.on,
    (Frame.edged s err need).reg CL_DEVNUM_MEMBER (by decide) (by decide)]

theorem State.tbTrims_edged_of_root (s : State) (err need : Int) (h : s.isRoot) : (s.edged err need).tbTrims := by
  rw [State.tbTrims, s.isRoot_edged, h, Bool.true_or]

/-! ### The loss of TBREF -/

/-- What the loss of TBREF leaves of the state of the discipline. -/
theorem State.tbLose_locked (s : State) (h : s.get TP_STATUS_TB_STATE = tbLocked) :
    s.tbLose.get TP_STATUS_TB_STATE = tbHoldover ∧ s.tbLose.get TP_TBREF_TRIM_TRIM = s.get TP_TBREF_TRIM_TRIM := by
  simp only [State.tbLose, h, if_true]
  constructor
  · exact State.get_set _ _ _ (Fld.inWord_of _ rfl)
  · rw [State.get_set_apart _ _ _ _ (Fld.inWord_of _ rfl) (by decide),
      State.get_set_apart _ _ _ _ (Fld.inWord_of _ rfl) (by decide)]
    rfl

theorem State.tbLose_acquire (s : State) (h : s.get TP_STATUS_TB_STATE = tbAcquire) :
    s.tbLose.get TP_STATUS_TB_STATE = tbFree ∧ s.tbLose.get TP_TBREF_TRIM_TRIM = 0 := by
  simp only [State.tbLose, h, if_true, if_neg (by decide : tbAcquire ≠ tbLocked)]
  constructor
  · rw [State.get_set_apart _ _ _ _ (Fld.inWord_of _ rfl) (by decide)]
    exact State.get_set _ _ _ (Fld.inWord_of _ rfl)
  · exact State.get_set _ _ _ (Fld.inWord_of _ rfl)

theorem Frame.tbLose (s : State) (ps : List Part) (w : Fld → Prop) (h : Part.tp ∈ ps) (he : w TP_TBREF_ERR_ERR)
    (hs : w TP_STATUS_TB_STATE) (ht : w TP_TBREF_TRIM_TRIM) : Frame s s.tbLose ps w := by
  have field (t : State) (x : Fld) (v : Nat) (hx : x.inWord) (hw : w x) : Frame t (t.set x v) ps w := .set t ps w x v hx hw
  have error := (Frame.setTp s ps w { s.tp with tbLast := none, tbGood := none } h).trans
    (field _ TP_TBREF_ERR_ERR 0 (Fld.inWord_of _ rfl) he)
  unfold State.tbLose
  dsimp only
  split_ifs
  · exact error.trans (field _ _ _ (Fld.inWord_of _ rfl) hs)
  · exact (error.trans (field _ _ _ (Fld.inWord_of _ rfl) hs)).trans (field _ _ _ (Fld.inWord_of _ rfl) ht)
  · exact error

/-- Settles O2: the state after an edge (`State.edged`), the trim within its limit (`State.trimTo_bounds`), the lock, and what a
loss leaves of each state of the discipline. -/
theorem timebaseDiscipline : Obligations.TimebaseDiscipline := by
  refine ⟨fun s err need en held => ?_, fun s since acquire good long => ?_, fun s last en edge long => ?_⟩
  · have acts : (s.on TP_TBREF_CTL_EN && !s.on CK_STAT_HOLDOVER) = true := by rw [en, held]; rfl
    have state : ((s.edged err.toInt need.toInt).trimTo need.toInt).get TP_STATUS_TB_STATE = s.edgeNext err.toInt need.toInt := by
      rw [State.get_trimTo_apart _ _ _ (by decide), State.get_tbState_edged]
    have good : ((s.edged err.toInt need.toInt).trimTo need.toInt).tp.tbGood =
        if edgeGood err.toInt need.toInt then some (s.tp.tbGood.getD s.time) else none := by rw [State.tp_trimTo]; rfl
    refine runsTo_doneIf _ _ _ _ acts ?_
    rw [State.tbEdge_eq]
    refine ⟨?_, ?_, fun free => ?_, fun locked off => ?_, fun above => ⟨?_, fun locked => ?_⟩, fun member root => ?_,
      fun root above => ?_, fun root => ?_, ?_⟩
    · rw [settle_tp, State.tp_trimTo]
      rfl
    · rw [getInt_settle _ _ _ (by decide), State.getInt_congr (State.get_trimTo_apart _ _ _ (by decide)),
        State.getInt_err_edged]
    · rw [get_settle _ _ _ (by decide), state]
      exact if_pos free
    · rw [get_settle _ _ _ (by decide), state, s.edgeNext_acquire locked (edgeGood_of_err off)]
    · rw [settle_tp, good, edgeGood_of_need above]
      rfl
    · rw [get_settle _ _ _ (by decide), state, s.edgeNext_acquire locked (edgeGood_of_need above)]
    · have kept : (s.edged err.toInt need.toInt).tbTrims = false := by
        rw [State.tbTrims, State.isRoot_edged, State.isMember_edged, root, member]
        rfl
      rw [get_settle _ _ _ (by decide), State.trimTo_of_not_trims _ _ kept]
      exact (State.get_setInt_apart _ _ _ _ (Fld.inWord_of _ rfl) (by decide)).trans
        (State.get_set_apart _ _ _ _ (Fld.inWord_of _ rfl) (by decide))
    · rw [getInt_settle _ _ _ (by decide), State.trimTo_above _ (s.tbTrims_edged_of_root _ _ root) above]
    · rw [getInt_settle _ _ _ (by decide)]
      exact State.trimTo_bounds _ _ (s.tbTrims_edged_of_root _ _ root)
    · exact ((Frame.edged ..).trans (Frame.trimTo _ _ _ _ (by simp) (by simp))).trans (Frame.settle ..)
  · have acts : (s.get TP_STATUS_TB_STATE == tbAcquire &&
        match s.tp.tbGood with | some t => decide (16000000000 ≤ s.since t) | none => false) = true := by
      rw [acquire, good]
      simpa using long
    refine runsTo_doneIf _ _ _ _ acts ⟨?_, ?_⟩
    · rw [get_settle _ _ _ (by decide), State.get_set _ _ _ (Fld.inWord_of _ rfl)]
      rfl
    · exact (Frame.set s _ _ _ _ (Fld.inWord_of _ rfl) (by simp)).trans (Frame.settle ..)
  · have acts : (s.on TP_TBREF_CTL_EN &&
        match s.tp.tbLast with | some t => decide (usTclk 1 ≤ s.since t) | none => false) = true := by
      rw [en, edge]
      simpa [usTclk] using long
    have other (x : Fld) (a : TP_FLAGS_TBREF_LOST.apart x) (b : TP_CNT2_TBREF_LOST.apart x) (h : x.reg.notPba) :
        (settle s (s.tbLose.flag TP_FLAGS_TBREF_LOST TP_CNT2_TBREF_LOST)).get x = s.tbLose.get x := by
      rw [get_settle _ _ _ h, State.get_flag_apart _ _ _ _ (Fld.inWord_of _ rfl) (Fld.inWord_of _ rfl) a b]
    have count : s.tbLose.get TP_CNT2_TBREF_LOST = s.get TP_CNT2_TBREF_LOST :=
      (Frame.tbLose s [.tp] (· ∈ [TP_STATUS_TB_STATE, TP_TBREF_ERR_ERR, TP_TBREF_TRIM_TRIM]) (by simp) (by simp) (by simp)
        (by simp)).reg _ (by decide) (by decide)
    refine runsTo_doneIf _ _ _ _ acts ⟨?_, ?_, fun locked => ?_, fun acquire => ?_, ?_⟩
    · rw [get_settle _ _ _ (by decide), State.get_flag _ _ _ (Fld.inWord_of _ rfl) (Fld.inWord_of _ rfl) (by decide) rfl]
    · rw [get_settle _ _ _ (by decide), State.get_flag_count _ _ _ (Fld.inWord_of _ rfl) (Fld.inWord_of _ rfl) (by decide),
        count]
      rfl
    · rw [other _ (by decide) (by decide) (by decide), other _ (by decide) (by decide) (by decide)]
      exact s.tbLose_locked locked
    · rw [other _ (by decide) (by decide) (by decide), other _ (by decide) (by decide) (by decide)]
      exact s.tbLose_acquire acquire
    · exact ((Frame.tbLose s _ _ (by simp) (by simp) (by simp) (by simp)).trans
        (Frame.flag _ _ _ _ _ (Fld.inWord_of _ rfl) (Fld.inWord_of _ rfl) (by simp) (by simp))).trans (Frame.settle ..)

end Sys2Proof.Machine
end

section
/-! Counts of the phase inputs (R39 to R41, R49): accepted levels, the place after a count, and what moves with PHASE. -/

namespace Sys2Proof.Machine

/-! ### Accepted levels -/

/-- R39: an input that has held a level for FILT TCLK, three TCLK ago, is accepted at it. -/
theorem accepted_of_held (f : Nat) (old x : Bool) (n r : List Bool) (h : n.length = 3) :
    accepted f old (n ++ List.replicate (f + 1) x ++ r) = x := by
  have rest : (n ++ List.replicate (f + 1) x ++ r).drop 3 = x :: (List.replicate f x ++ r) := by
    rw [List.append_assoc, List.drop_append_of_le_length (by omega), List.drop_of_length_le (by omega)]
    rfl
  simp only [accepted, rest]
  simp

theorem accepted_of_not_held (f : Nat) (old x : Bool) (n l r : List Bool) (h : n.length = 3) (hl : l.length = f)
    (m : (!x) ∈ l) : accepted f old (n ++ x :: l ++ r) = old := by
  have rest : (n ++ x :: l ++ r).drop 3 = x :: (l ++ r) := by
    rw [List.append_assoc, List.drop_append_of_le_length (by omega), List.drop_of_length_le (by omega)]
    rfl
  have changed : l.all (· == x) = false := by
    rw [List.all_eq_false]
    exact ⟨!x, m, by simp⟩
  simp only [accepted, rest]
  rw [← hl, List.take_left, changed]
  simp

/-! ### What moves with PHASE -/

theorem Frame.setEngines (s : State) (ps : List Part) (w : Fld → Prop) (x : Vector Engine 32) (h : Part.engines ∈ ps) :
    Frame s { s with engines := x } ps w := by
  refine Frame.parts w (fun p hp => ?_) rfl
  cases p
  case engines => exact absurd h hp
  case image | store => exact ⟨rfl, rfl⟩
  all_goals rfl

/-- What follows a motion of PHASE changes nothing of its own state but the slots that are due. -/
theorem State.tp_phaseMoved (s : State) (a : Phase) : ∃ due, (s.phaseMoved a).tp = { s.tp with slotDue := due } := by
  have slots : ∀ t : State, (∃ due, t.tp = { s.tp with slotDue := due }) →
      ∃ due, (t.slotsPassed a s.phase).tp = { s.tp with slotDue := due } :=
    fun t => State.forEach_holds (fun t => ∃ due, t.tp = { s.tp with slotDue := due }) _ (fun u i h => by
      obtain ⟨due, e⟩ := h
      dsimp only
      split
      · exact ⟨_, by rw [e]⟩
      · exact ⟨due, e⟩) t _
  unfold State.phaseMoved
  split
  · exact ⟨s.tp.slotDue, rfl⟩
  · exact slots s ⟨s.tp.slotDue, rfl⟩

theorem Frame.phaseMoved (s : State) (a : Phase) (ps : List Part) (w : Fld → Prop) (h : Part.tp ∈ ps)
    (he : Part.engines ∈ ps) : Frame s (s.phaseMoved a) ps w := by
  have slots (b : Phase) : Frame s (s.slotsPassed a b) ps w := by
    refine Frame.forEach s ps w _ _ fun t i _ => ?_
    split
    · exact .setTp t ps w _ h
    · exact .refl ..
  unfold State.phaseMoved
  split
  · exact .refl ..
  · exact (slots s.phase).trans (.setEngines _ ps w _ he)

theorem State.tp_loopCorrect (s : State) : ∃ off vel, s.loopCorrect.tp = { s.tp with off := off, vel := vel } :=
  ⟨_, _, rfl⟩

theorem Frame.loopCorrect (s : State) (ps : List Part) (w : Fld → Prop) (h : Part.tp ∈ ps) (hf : Part.free ∈ ps) :
    Frame s s.loopCorrect ps w :=
  ((Frame.burn s ps w hf).trans (Frame.burn _ ps w hf)).trans (Frame.setTp _ ps w _ h)

/-! ### A count -/

/-- R41: the position after a count at position p of CPC. -/
def countedPos (reverse : Bool) (cpc p : Nat) : Nat :=
  if reverse then if p = 0 then cpc - 1 else p - 1 else if p + 1 ≥ cpc then 0 else p + 1

/-- R41: the cycle after a count, before it wraps. -/
def countedCycle (reverse : Bool) (cpc p cyc : Nat) : Nat :=
  if reverse then if p = 0 then cyc + 2 ^ 32 - 1 else cyc else if p + 1 ≥ cpc then cyc + 1 else cyc

theorem countedPos_forward (cpc p : Nat) (h : p < cpc) : countedPos false cpc p = if p + 1 = cpc then 0 else p + 1 := by
  simp only [countedPos, Bool.false_eq_true, if_false]
  exact if_congr (by omega) rfl rfl

theorem countedPos_lt (reverse : Bool) (cpc p : Nat) (h : p < cpc) : countedPos reverse cpc p < cpc := by
  unfold countedPos
  split_ifs <;> omega

/-- The state after a count, before PHASE moves: with its direction and its place. -/
def State.counted (s : State) (reverse : Bool) (steady : Time × Nat × Nat × Nat) : State :=
  { s.set TP_STATUS_DIR (if reverse then 1 else 0) with
    tp := { s.tp with pos := countedPos reverse s.cpc s.tp.pos, lastCount := s.time, steady := some steady } }

/-- The state after a count in LOCKED, before the loop's correction: PHASE starts from the angle of the position. -/
def State.rebased (s : State) (reverse : Bool) (steady : Time × Nat × Nat × Nat) : State :=
  { s.counted reverse steady with
    tp := { (s.counted reverse steady).tp with
      base := BitVec.ofNat 64 (countedCycle reverse s.cpc s.tp.pos (s.tp.base.toNat / 2 ^ 32) * 2 ^ 32 +
        posAngle s.cpc (countedPos reverse s.cpc s.tp.pos)), off := 0 } }

theorem State.phState_set_dir (s : State) (v : Nat) : (s.set TP_STATUS_DIR v).phState = s.phState :=
  State.get_set_apart _ _ _ _ (Fld.inWord_of _ rfl) (by decide)

theorem State.counted_place (reverse : Bool) (cpc p cyc : Nat) :
    (if reverse then (if p = 0 then (cpc - 1, cyc + 2 ^ 32 - 1) else (p - 1, cyc))
      else (if p + 1 ≥ cpc then (0, cyc + 1) else (p + 1, cyc))) = (countedPos reverse cpc p, countedCycle reverse cpc p cyc) := by
  unfold countedPos countedCycle
  split_ifs <;> rfl

theorem State.phCount_lost (s : State) (reverse : Bool) (h : s.phState = phLost) :
    s.phCount reverse = s.counted reverse (s.time, 0, 0, 0) := by
  unfold State.phCount
  dsimp only
  rw [State.counted_place]
  dsimp only
  rw [State.phState_set_dir, h, if_neg (by decide), if_pos rfl]
  simp [State.counted, phLost, phStalled]

theorem State.phCount_locked (s : State) (reverse : Bool) (h : s.phState = phLocked) :
    ∃ steady, s.phCount reverse = (s.rebased reverse steady).loopCorrect.phaseMoved s.phase := by
  unfold State.phCount
  dsimp only
  rw [State.counted_place]
  dsimp only
  rw [State.phState_set_dir, h, if_neg (by decide), if_neg (by decide), if_neg (by decide)]
  exact ⟨_, rfl⟩

theorem posAngle_lt (cpc p : Nat) (h : p < cpc) : posAngle cpc p < 2 ^ 32 := by
  exact Nat.div_lt_of_lt_mul (Nat.mul_lt_mul_of_pos_right h (Nat.two_pow_pos 32))

/-- A phase formed of a cycle and an angle. -/
theorem phase_parts (cyc angle : Nat) (h : angle < 2 ^ 32) : (BitVec.ofNat 64 (cyc * 2 ^ 32 + angle)).toNat % 2 ^ 32 = angle ∧
    (BitVec.ofNat 64 (cyc * 2 ^ 32 + angle)).toNat / 2 ^ 32 = cyc % 2 ^ 32 := by
  rw [BitVec.toNat_ofNat]
  omega

section Locked
variable {s : State} {reverse : Bool} (locked : s.phState = phLocked)
include locked

/-- What a count in LOCKED leaves of the state of PHASE. -/
theorem State.tp_phCount_locked : (s.phCount reverse).tp.pos = countedPos reverse s.cpc s.tp.pos ∧
    (s.phCount reverse).tp.base = BitVec.ofNat 64 (countedCycle reverse s.cpc s.tp.pos (s.tp.base.toNat / 2 ^ 32) * 2 ^ 32 +
      posAngle s.cpc (countedPos reverse s.cpc s.tp.pos)) ∧ (s.phCount reverse).tp.lastCount = s.time := by
  obtain ⟨steady, e⟩ := s.phCount_locked reverse locked
  obtain ⟨due, moved⟩ := (s.rebased reverse steady).loopCorrect.tp_phaseMoved s.phase
  obtain ⟨off, vel, corrected⟩ := (s.rebased reverse steady).tp_loopCorrect
  rw [e, moved, corrected]
  exact ⟨rfl, rfl, rfl⟩

theorem State.get_phCount_locked (x : Fld) (h : x.reg.notPba) :
    (s.phCount reverse).get x = (s.set TP_STATUS_DIR (if reverse then 1 else 0)).get x := by
  obtain ⟨steady, e⟩ := s.phCount_locked reverse locked
  rw [e, (Frame.phaseMoved _ s.phase [.tp, .engines] (fun _ => False) (by simp) (by simp)).reg x h fun _ => False.elim,
    (Frame.loopCorrect _ [.tp, .free] (fun _ => False) (by simp) (by simp)).reg x h fun _ => False.elim]
  rfl

theorem Frame.phCount_locked : Frame s (s.phCount reverse) [.tp, .engines, .free] (· ∈ [TP_STATUS_DIR]) := by
  obtain ⟨steady, e⟩ := s.phCount_locked reverse locked
  rw [e]
  refine .trans ?_ ((Frame.loopCorrect _ _ _ (by simp) (by simp)).trans (Frame.phaseMoved _ _ _ _ (by simp) (by simp)))
  exact ((Frame.set s _ _ TP_STATUS_DIR _ (Fld.inWord_of _ rfl) (by simp)).trans (Frame.setTp _ _ _ _ (by simp))).trans
    (Frame.setTp _ _ _ _ (by simp))

theorem State.get_dir_phCount_locked :
    (s.phCount reverse).get TP_STATUS_DIR = if reverse then 1 else 0 := by
  rw [State.get_phCount_locked locked _ (by decide), State.get_set _ _ _ (Fld.inWord_of _ rfl)]
  cases reverse <;> rfl

theorem State.get_phState_phCount_locked : (s.phCount reverse).get TP_STATUS_PH_STATE = phLocked := by
  rw [State.get_phCount_locked locked _ (by decide)]
  exact (s.phState_set_dir _).trans locked

end Locked

/-! ### The accepted levels of the count inputs -/

/-- The state with new accepted levels of the count inputs. -/
def State.withLevels (s : State) (a b p : Bool) : State := { s with tp := { s.tp with inA := a, inB := b, inP := p } }

theorem Frame.withLevels (s : State) (a b p : Bool) (ps : List Part) (w : Fld → Prop) (h : Part.tp ∈ ps) :
    Frame s (s.withLevels a b p) ps w := .setTp s ps w _ h

/-- R40: A rising while B is low is a count, forward unless INV. -/
theorem State.phaseLevels_quad (s : State) (p : Bool) (src : s.get TP_PH_CTL_SRC = srcQuad) (ha : s.tp.inA = false)
    (hb : s.tp.inB = false) : s.phaseLevels true false p = (s.withLevels true false p).phCount (s.on TP_PH_CTL_INV) := by
  simp [State.phaseLevels, src, ha, hb, quadReverse, State.withLevels]

theorem State.phaseLevels_pulse (s : State) (a b : Bool) (src : s.get TP_PH_CTL_SRC = srcPulse) (hp : s.tp.inP = false) :
    s.phaseLevels a b true = (s.withLevels a b true).phCount false := by
  simp [State.phaseLevels, src, hp, srcPulse, srcQuad, State.withLevels]

theorem State.phaseLevels_both (s : State) (a b p : Bool) (src : s.get TP_PH_CTL_SRC = srcQuad) (ha : a ≠ s.tp.inA)
    (hb : b ≠ s.tp.inB) : s.phaseLevels a b p = (s.withLevels a b p).flag TP_FLAGS_QUAD_ERR TP_CNT0_QUAD_ERR := by
  simp [State.phaseLevels, src, ha, quadReverse, ha.symm, hb.symm, State.withLevels]

theorem exec_phaseCount (a b p : List Bool) (s : State) : exec (.phaseCount a b p) s = done s (s.phaseLevels
    (accepted (s.get TP_PH_CTL_FILT) s.tp.inA a) (accepted (s.get TP_PH_CTL_FILT) s.tp.inB b)
    (accepted (s.get TP_PH_CTL_FILT) s.tp.inP p)) := rfl

/-- Settles O3: the place after a count (`countedPos`, `countedCycle`), and PHASE, which starts from it in LOCKED and stands in
LOST. -/
theorem phaseCounts : Obligations.PhaseCounts := by
  refine ⟨accepted_of_held, accepted_of_not_held, fun s a b p src locked inv ha rise hb low place => ?_,
    fun s a b p src locked inv ha rise hb low place => ?_, fun s a b p src ha hb => ?_,
    fun s a b p src locked hp rise place => ?_, fun s a b p src lost hp rise place => ?_⟩
  · rw [exec_phaseCount, ha, hb, rise, low, s.phaseLevels_quad _ src ha hb, inv]
    generalize accepted _ _ p = q
    have kept : (s.withLevels true false q).phState = phLocked := locked
    obtain ⟨pos, base, last⟩ := State.tp_phCount_locked (reverse := false) kept
    have next := countedPos_forward s.cpc s.tp.pos place
    have parts := phase_parts (countedCycle false s.cpc s.tp.pos (s.tp.base.toNat / 2 ^ 32)) _
      (posAngle_lt _ _ (countedPos_lt false s.cpc s.tp.pos place))
    refine runsTo_done _ _ _ ⟨?_, ?_, ?_, ?_, ?_, ?_, ?_⟩
    · rw [settle_tp, pos]
      exact next
    · rw [settle_tp, pos, base]
      exact parts.1
    · rw [settle_tp, base]
      refine parts.2.trans ?_
      simp only [countedCycle, Bool.false_eq_true, if_false]
      split_ifs <;> omega
    · rw [get_settle _ _ _ (by decide), State.get_dir_phCount_locked kept]
      rfl
    · rw [get_settle _ _ _ (by decide), State.get_phState_phCount_locked kept]
    · rw [settle_tp, last]
      rfl
    · exact ((Frame.withLevels s _ _ _ _ _ (by simp)).trans (Frame.phCount_locked kept)).trans (Frame.settle ..)
  · rw [exec_phaseCount, ha, hb, rise, low, s.phaseLevels_quad _ src ha hb, inv]
    generalize accepted _ _ p = q
    have kept : (s.withLevels true false q).phState = phLocked := locked
    refine runsTo_done _ _ _ ⟨?_, ?_⟩
    · rw [settle_tp, (State.tp_phCount_locked kept).1]
      rfl
    · rw [get_settle _ _ _ (by decide), State.get_dir_phCount_locked kept]
      rfl
  · rw [exec_phaseCount, s.phaseLevels_both _ _ _ src ha hb]
    refine runsTo_done _ _ _ ⟨?_, ?_, ?_, ?_, ?_⟩
    · rw [settle_tp, State.flag_tp]
      rfl
    · rw [settle_tp, State.flag_tp]
      rfl
    · rw [get_settle _ _ _ (by decide), State.get_flag _ _ _ (Fld.inWord_of _ rfl) (Fld.inWord_of _ rfl) (by decide) rfl]
    · rw [get_settle _ _ _ (by decide), State.get_flag_count _ _ _ (Fld.inWord_of _ rfl) (Fld.inWord_of _ rfl) (by decide)]
      rfl
    · exact ((Frame.withLevels s _ _ _ _ _ (by simp)).trans (Frame.flag _ _ _ _ _ (Fld.inWord_of _ rfl)
        (Fld.inWord_of _ rfl) (by simp) (by simp))).trans (Frame.settle ..)
  · rw [exec_phaseCount, hp, rise, s.phaseLevels_pulse _ _ src hp]
    generalize accepted _ _ a = x, accepted _ _ b = y
    have kept : (s.withLevels x y true).phState = phLocked := locked
    refine runsTo_done _ _ _ ⟨?_, ?_⟩
    · rw [settle_tp, (State.tp_phCount_locked kept).1]
      exact countedPos_forward s.cpc s.tp.pos place
    · rw [get_settle _ _ _ (by decide), State.get_dir_phCount_locked kept]
      rfl
  · rw [exec_phaseCount, hp, rise, s.phaseLevels_pulse _ _ src hp]
    generalize accepted _ _ a = x, accepted _ _ b = y
    have kept : (s.withLevels x y true).phState = phLost := lost
    rw [State.phCount_lost _ _ kept]
    refine runsTo_done _ _ _ ⟨?_, ?_, ?_, ?_⟩
    · rw [settle_tp]
      exact countedPos_forward s.cpc s.tp.pos place
    · rw [State.phase, settle_tp]
      rfl
    · rw [settle_tp]
      rfl
    · exact (((Frame.withLevels s _ _ _ _ _ (by simp)).trans (Frame.set _ _ _ TP_STATUS_DIR _ (Fld.inWord_of _ rfl)
        (by simp))).trans (Frame.setTp _ _ _ _ (by simp))).trans (Frame.settle ..)

end Sys2Proof.Machine
end

section
/-! A stall of the phase inputs and the index (R46, R48, R50, R51), and the causes of a loss of PHASE (R62). -/

namespace Sys2Proof.Machine

/-- The fields that a cause writes are those of the SQ registers (R256). -/
theorem causeField_of {l c : Nat} {y : Fld} (hc : c < 32) (h : causeOf l c y) : causeField y := by
  have inBlock (o : Nat) (e : y.reg.addr = groupBase l + o) (lo : 0xB000 ≤ o) (hi : o < 0xC000) : causeField y :=
    ⟨l, by omega⟩
  rcases h with (h | rfl) | rfl | rfl | rfl | rfl
  · exact inBlock (0xB400 + 0x60 * c) (by rw [h, SQ_CTX_STAT, Nat.add_assoc]) (by omega) (by omega)
  · exact inBlock _ rfl (by decide) (by decide)
  · exact inBlock (0xB408 + 0x60 * c) (Nat.add_assoc ..) (by omega) (by omega)
  · exact inBlock _ rfl (by decide) (by decide)
  · exact inBlock _ rfl (by decide) (by decide)
  · exact inBlock _ rfl (by decide) (by decide)

theorem causeField_apart {x y : Fld} (h : causeField x) (hy : y.reg.addr < 0x100000) : x.apart y := by
  obtain ⟨g, lo, -⟩ := h
  exact .inl (by simp only [groupBase] at lo; omega)

/-- R62: the causes of a loss of PHASE. -/
theorem Frame.causePhaseLoss (s : State) (ps : List Part) (w : Fld → Prop) (h : Part.engines ∈ ps)
    (hw : ∀ y, causeField y → w y) : Frame s s.causePhaseLoss ps w :=
  Frame.forEach s ps w _ _ fun t e _ => Frame.causeRouted t ps w _ _ _ _ _ h fun y hy =>
    hw y (causeField_of (t.get_lt (SQ_RT_PHL_CTX e)) hy)

theorem State.get_causePhaseLoss (s : State) (x : Fld) (h : x.reg.addr < 0x100000) (hp : x.reg.notPba) :
    s.causePhaseLoss.get x = s.get x :=
  (Frame.causePhaseLoss s [.engines] causeField (by simp) fun _ h => h).reg x hp fun _ hy => causeField_apart hy h

theorem State.tp_causePhaseLoss (s : State) : s.causePhaseLoss.tp = s.tp :=
  (Frame.causePhaseLoss s [.engines] causeField (by simp) fun _ h => h).part .tp (by simp)

/-- R51: the entry to LOST. -/
theorem State.tp_enterLost (s : State) : s.enterLost.tp = s.tp := by
  rw [State.enterLost, State.tp_causePhaseLoss, State.flag_tp, State.set_tp]

theorem State.get_enterLost (s : State) (x : Fld) (h : x.reg.addr < 0x100000) (hp : x.reg.notPba)
    (hs : TP_STATUS_PH_STATE.apart x) (hf : TP_FLAGS_PH_LOST.apart x) (hc : TP_CNT1_PH_LOST.apart x) :
    s.enterLost.get x = s.get x := by
  rw [State.enterLost, State.get_causePhaseLoss _ _ h hp,
    State.get_flag_apart _ _ _ _ (Fld.inWord_of _ rfl) (Fld.inWord_of _ rfl) hf hc,
    State.get_set_apart _ _ _ _ (Fld.inWord_of _ rfl) hs]
  rfl

theorem State.get_phState_enterLost (s : State) : s.enterLost.get TP_STATUS_PH_STATE = phLost := by
  rw [State.enterLost, State.get_causePhaseLoss _ _ (by decide) (by decide),
    State.get_flag_apart _ _ _ _ (Fld.inWord_of _ rfl) (Fld.inWord_of _ rfl) (by decide) (by decide),
    State.get_set _ _ _ (Fld.inWord_of _ rfl)]
  rfl

theorem State.get_phLost_enterLost (s : State) : s.enterLost.get TP_FLAGS_PH_LOST = 1 := by
  rw [State.enterLost, State.get_causePhaseLoss _ _ (by decide) (by decide),
    State.get_flag _ _ _ (Fld.inWord_of _ rfl) (Fld.inWord_of _ rfl) (by decide) rfl]

/-! ### The error of an index -/

theorem Frame.indexError (s : State) (ps : List Part) (w : Fld → Prop) (h : Part.free ∈ ps) : Frame s s.indexError.1 ps w := by
  unfold State.indexError
  dsimp only
  split
  · exact .burn s ps w h
  · exact .refl ..

theorem State.indexError_forward (s : State) {e : Nat} (place : (s.tp.pos + s.cpc - s.idxPos) % s.cpc = e)
    (low : 2 * e < s.cpc) : s.indexError = (s, (e : Int)) := by
  simp only [State.indexError, place]
  rw [if_neg low.ne, if_pos low]

theorem State.tp_indexError (s : State) : s.indexError.1.tp = s.tp :=
  (Frame.indexError s [.free] (fun _ => False) (by simp)).part .tp (by simp)

/-- The state with the error of an index noted in IDXERR. -/
def State.indexed (s : State) : State :=
  s.indexError.1.setInt TP_PH_IDXERR_IDXERR (max (-32767) (min 32767 s.indexError.2))

theorem Frame.indexed (s : State) (ps : List Part) (w : Fld → Prop) (h : Part.free ∈ ps) (hw : w TP_PH_IDXERR_IDXERR) :
    Frame s s.indexed ps w := (Frame.indexError s ps w h).trans (Frame.setInt _ ps w _ _ (Fld.inWord_of _ rfl) hw)

theorem State.tp_indexed (s : State) : s.indexed.tp = s.tp := by
  rw [State.indexed, State.setInt_tp, State.tp_indexError]

theorem State.get_indexed (s : State) (x : Fld) (h : x.reg.notPba) (a : TP_PH_IDXERR_IDXERR.apart x) :
    s.indexed.get x = s.get x :=
  (Frame.indexed s [.free] (· = TP_PH_IDXERR_IDXERR) (by simp) rfl).reg x h fun _ hy => hy ▸ a

theorem State.cpc_indexed (s : State) : s.indexed.cpc = s.cpc := s.get_indexed _ (by decide) (by decide)

theorem State.idxPos_indexed (s : State) : s.indexed.idxPos = s.idxPos := by
  rw [State.idxPos, State.cpc_indexed, s.get_indexed _ (by decide) (by decide), ← State.idxPos]

/-- R48: IDXERR after an index less than half a turn past its place. -/
theorem State.get_idxErr_indexed (s : State) {e : Nat} (place : (s.tp.pos + s.cpc - s.idxPos) % s.cpc = e)
    (low : 2 * e < s.cpc) : s.indexed.get TP_PH_IDXERR_IDXERR = min e 32767 := by
  have range : max (-32767) (min 32767 (e : Int)) = ((min e 32767 : Nat) : Int) := by omega
  have small : ((min e 32767 : Nat) : Int) % 2 ^ 16 = (min e 32767 : Nat) := Int.emod_eq_of_lt (by omega) (by omega)
  rw [State.indexed, s.indexError_forward place low, State.get_setInt _ _ _ (Fld.inWord_of _ rfl), range]
  exact (congrArg Int.toNat small).trans (Int.toNat_natCast _)

theorem State.get_jumped (s : State) (cyc : Nat) :
    ((s.indexed.phaseJump cyc).set TP_STATUS_PH_STATE phLocked).get TP_STATUS_PH_STATE = phLocked :=
  State.get_set _ _ _ (Fld.inWord_of _ rfl)

/-! ### A forward index, by the state of PHASE -/

theorem State.forwardIndex_acquire (s : State) (h : s.phState = phAcquire) :
    s.forwardIndex = (s.indexed.phaseJump 0).set TP_STATUS_PH_STATE phLocked := by
  unfold State.forwardIndex
  dsimp only
  rw [h, if_pos rfl]
  rfl

theorem State.forwardIndex_lost (s : State) (h : s.phState = phLost) :
    s.forwardIndex = (s.indexed.phaseJump (s.indexed.tp.base.toNat / 2 ^ 32 + 1)).set TP_STATUS_PH_STATE phLocked := by
  unfold State.forwardIndex
  dsimp only
  rw [h, if_neg (by decide), if_pos rfl]
  rfl

theorem State.forwardIndex_locked (s : State) (h : s.phState = phLocked) : s.forwardIndex =
    if s.indexError.2.natAbs ≤ s.indexed.get TP_PH_LOOP_IDXTOL
    then (s.indexed.phaseJump (s.indexed.tp.base.toNat / 2 ^ 32)).phaseMoved s.phase
    else (s.indexed.flag TP_FLAGS_INDEX_ERR TP_CNT0_INDEX_ERR).enterLost := by
  unfold State.forwardIndex
  dsimp only
  rw [h, if_neg (by decide), if_neg (by decide)]
  rfl

/-- The state with PH_I accepted high. -/
def State.indexHigh (s : State) : State := { s with tp := { s.tp with inI := true } }

theorem exec_phaseIndex {s : State} {l : List Bool} (src : s.get TP_PH_CTL_SRC = srcQuad) (en : s.on TP_PH_CTL_IDX_EN)
    (forward : s.on TP_STATUS_DIR = false) (low : s.tp.inI = false) (rise : accepted (s.get TP_PH_CTL_FILT) false l) :
    exec (.phaseIndex l) s = done s s.indexHigh.forwardIndex := by
  change execPhaseIndex l s = _
  simp [execPhaseIndex, src, en, forward, low, rise, State.indexHigh]

theorem idxPos_lt {s : State} (h : 0 < s.cpc) : s.idxPos < s.cpc := Nat.mod_lt _ h

/-- Settles O4: the stall, and what an index makes of PHASE in each of its states (`State.forwardIndex_acquire` and the lemmas
after it). -/
theorem phaseStallAndIndex : Obligations.PhaseStallAndIndex := by
  refine ⟨fun s locked src long => ?_, fun s l src en forward low rise cpc =>
    ⟨fun acquire => ?_, fun lost => ?_, fun locked place => ?_, fun locked zero half beyond => ?_⟩⟩
  · have acts : (s.phLockedB && s.get TP_PH_CTL_SRC != srcCleif &&
        decide (usTclk (s.get TP_PH_LOOP_STALL) ≤ s.since s.tp.lastCount)) = true := by
      simp [State.phLockedB, locked, src, long]
    refine runsTo_doneIf _ _ _ _ acts ⟨?_, ?_, ?_, ?_, ?_, ?_⟩
    · rw [get_settle _ _ _ (by decide),
        State.get_flag_apart _ _ _ _ (Fld.inWord_of _ rfl) (Fld.inWord_of _ rfl) (by decide) (by decide),
        State.get_set _ _ _ (Fld.inWord_of _ rfl)]
      rfl
    · rw [settle_tp, State.flag_tp, State.set_tp]
    · rw [settle_tp, State.flag_tp, State.set_tp]
    · rw [get_settle _ _ _ (by decide), State.get_flag _ _ _ (Fld.inWord_of _ rfl) (Fld.inWord_of _ rfl) (by decide) rfl]
    · rw [get_settle _ _ _ (by decide), State.get_flag_count _ _ _ (Fld.inWord_of _ rfl) (Fld.inWord_of _ rfl) (by decide),
        State.get_set_apart _ _ _ _ (Fld.inWord_of _ rfl) (by decide)]
      rfl
    · exact (((Frame.setTp s _ _ _ (by simp)).trans (Frame.set _ _ _ _ _ (Fld.inWord_of _ rfl) (by simp))).trans
        (Frame.flag _ _ _ _ _ (Fld.inWord_of _ rfl) (Fld.inWord_of _ rfl) (by simp) (by simp))).trans (Frame.settle ..)
  · rw [exec_phaseIndex src en forward low rise, s.indexHigh.forwardIndex_acquire acquire]
    have angle := posAngle_lt s.cpc s.idxPos (idxPos_lt cpc)
    have pos : (s.indexHigh.indexed.phaseJump 0).tp.pos = s.idxPos := s.indexHigh.idxPos_indexed
    have base : (s.indexHigh.indexed.phaseJump 0).tp.base = BitVec.ofNat 64 (0 * 2 ^ 32 + posAngle s.cpc s.idxPos) := by
      rw [State.phaseJump, State.cpc_indexed, State.idxPos_indexed]
      rfl
    refine runsTo_done _ _ _ ⟨?_, ?_, ?_, ?_⟩
    · rw [get_settle _ _ _ (by decide), State.get_jumped]
    · rw [settle_tp, State.set_tp, pos]
      rfl
    · rw [settle_tp, State.set_tp, pos, base, BitVec.toNat_ofNat]
      refine (Nat.mod_eq_of_lt (by omega)).trans ?_
      rw [Nat.zero_mul, Nat.zero_add]
      rfl
    · exact ((((Frame.setTp s _ _ _ (by simp)).trans (Frame.indexed _ _ _ (by simp) (by simp))).trans
        (Frame.setTp _ _ _ _ (by simp))).trans (Frame.set _ _ _ _ _ (Fld.inWord_of _ rfl) (by simp))).trans (Frame.settle ..)
  · rw [exec_phaseIndex src en forward low rise, s.indexHigh.forwardIndex_lost lost, State.tp_indexed]
    have angle := posAngle_lt s.cpc s.idxPos (idxPos_lt cpc)
    refine runsTo_done _ _ _ ⟨?_, ?_, ?_⟩
    · rw [get_settle _ _ _ (by decide), State.get_jumped]
    · rw [settle_tp, State.set_tp]
      exact s.indexHigh.idxPos_indexed
    · rw [settle_tp, State.set_tp, State.phaseJump, State.cpc_indexed, State.idxPos_indexed]
      exact (phase_parts (s.tp.base.toNat / 2 ^ 32 + 1) _ angle).2
  · have still : (s.indexHigh.tp.pos + s.indexHigh.cpc - s.indexHigh.idxPos) % s.indexHigh.cpc = 0 := by
      change (s.tp.pos + s.cpc - s.idxPos) % s.cpc = 0
      rw [place, ← State.idxPos, Nat.add_sub_cancel_left, Nat.mod_self]
    have half : 2 * 0 < s.indexHigh.cpc := cpc
    have within : s.indexHigh.indexError.2.natAbs ≤ s.indexHigh.indexed.get TP_PH_LOOP_IDXTOL := by
      rw [s.indexHigh.indexError_forward still half]
      exact Nat.zero_le _
    have angle := posAngle_lt s.cpc s.idxPos (idxPos_lt cpc)
    rw [exec_phaseIndex src en forward low rise, s.indexHigh.forwardIndex_locked locked, if_pos within,
      State.tp_indexed]
    generalize jump : s.indexHigh.indexed.phaseJump (s.indexHigh.tp.base.toNat / 2 ^ 32) = u
    have jumped (x : Fld) (h : x.reg.notPba) : (u.phaseMoved s.indexHigh.phase).get x = s.indexHigh.indexed.get x := by
      rw [(Frame.phaseMoved u _ [.tp, .engines] (fun _ => False) (by simp) (by simp)).reg x h fun _ => False.elim, ← jump]
      rfl
    obtain ⟨due, moved⟩ := u.tp_phaseMoved s.indexHigh.phase
    refine runsTo_done _ _ _ ⟨?_, ?_, ?_, ?_⟩
    · rw [get_settle _ _ _ (by decide), jumped _ (by decide), State.get_idxErr_indexed _ still half]
      rfl
    · rw [get_settle _ _ _ (by decide), jumped _ (by decide), State.get_indexed _ _ (by decide) (by decide)]
      exact locked
    · rw [settle_tp, moved, ← jump]
      exact s.indexHigh.idxPos_indexed.trans place.symm
    · rw [settle_tp, moved, ← jump, State.phaseJump, State.cpc_indexed, State.idxPos_indexed]
      exact (phase_parts (s.tp.base.toNat / 2 ^ 32) _ angle).2.trans (Nat.mod_eq_of_lt (by
        have := s.tp.base.isLt
        change s.tp.base.toNat / 2 ^ 32 < 2 ^ 32
        omega))
  · have first : s.idxPos = 0 := by rw [State.idxPos, zero, Nat.zero_mod]
    have late : (s.indexHigh.tp.pos + s.indexHigh.cpc - s.indexHigh.idxPos) % s.indexHigh.cpc = s.tp.pos := by
      change (s.tp.pos + s.cpc - s.idxPos) % s.cpc = s.tp.pos
      rw [first, Nat.sub_zero, Nat.add_mod_right, Nat.mod_eq_of_lt (by omega)]
    have far : ¬s.indexHigh.indexError.2.natAbs ≤ s.indexHigh.indexed.get TP_PH_LOOP_IDXTOL := by
      rw [s.indexHigh.indexError_forward late half, State.get_indexed _ _ (by decide) (by decide), Int.natAbs_natCast]
      exact Nat.not_le.2 beyond
    have kept (x : Fld) (h : x.reg.addr < 0x100000) (hp : x.reg.notPba) (hs : TP_STATUS_PH_STATE.apart x)
        (hf : TP_FLAGS_PH_LOST.apart x) (hc : TP_CNT1_PH_LOST.apart x) :
        (settle s (s.indexHigh.indexed.flag TP_FLAGS_INDEX_ERR TP_CNT0_INDEX_ERR).enterLost).get x =
          (s.indexHigh.indexed.flag TP_FLAGS_INDEX_ERR TP_CNT0_INDEX_ERR).get x := by
      rw [get_settle _ _ _ hp, State.get_enterLost _ _ h hp hs hf hc]
    rw [exec_phaseIndex src en forward low rise, s.indexHigh.forwardIndex_locked locked, if_neg far]
    refine runsTo_done _ _ _ ⟨?_, ?_, ?_, ?_, ?_⟩
    · rw [kept _ (by decide) (by decide) (by decide) (by decide) (by decide),
        State.get_flag_apart _ _ _ _ (Fld.inWord_of _ rfl) (Fld.inWord_of _ rfl) (by decide) (by decide),
        State.get_idxErr_indexed _ late half]
    · rw [get_settle _ _ _ (by decide), State.get_phState_enterLost]
    · rw [kept _ (by decide) (by decide) (by decide) (by decide) (by decide),
        State.get_flag _ _ _ (Fld.inWord_of _ rfl) (Fld.inWord_of _ rfl) (by decide) rfl]
    · rw [get_settle _ _ _ (by decide), State.get_phLost_enterLost]
    · rw [settle_tp, State.tp_enterLost, State.flag_tp, State.tp_indexed]
      rfl

end Sys2Proof.Machine
end

section
/-! Packets of the link (R357, R360): the fields of a header, and the queue that a packet waits in. -/

namespace Sys2Proof.Machine

section Fields
variable (type dst src sub arg : Nat) (payload : List Native)

theorem Packet.type_make (ht : type < 16) (hs : sub < 32) (hl : payload.length < 8) :
    (Packet.make type dst src sub arg payload).type = type := by
  simp only [Packet.type, Packet.make, nbits, BitVec.toNat_ofNat]
  omega

theorem Packet.sub_make (hs : sub < 32) : (Packet.make type dst src sub arg payload).sub = sub := by
  simp only [Packet.sub, Packet.make, nbits, BitVec.toNat_ofNat]
  omega

theorem Packet.arg_make : (Packet.make type dst src sub arg payload).arg = arg % 2 ^ 40 := by
  simp only [Packet.arg, Packet.make, nbits, BitVec.toNat_ofNat]
  omega

theorem Packet.dst_make_payload (hs : sub < 32) (hl : payload.length < 8) :
    (Packet.make type dst src sub arg payload).dst = dst % 1024 := by
  simp only [Packet.dst, Packet.make, nbits, BitVec.toNat_ofNat]
  omega

theorem Packet.src_make (hs : sub < 32) (hl : payload.length < 8) :
    (Packet.make type dst src sub arg payload).src = src % 1024 := by
  simp only [Packet.src, Packet.make, nbits, BitVec.toNat_ofNat]
  omega

theorem Packet.payload_make : (Packet.make type dst src sub arg payload).payload = payload := rfl

theorem Packet.flits_make : (Packet.make type dst src sub arg payload).flits = 1 + payload.length := rfl

end Fields

/-! ### The queue of a port -/

theorem State.port_setPort_ne (s : State) {x y : Nat} (p : Port) (h : x ≠ y) : (s.setPort x p).port y = s.port y :=
  vget_vset_ne _ _ _ _ _ h

/-- A packet waits at one port. -/
theorem State.port_sendPacket_ne (s : State) {x y : Nat} (p : Packet) (h : x ≠ y) :
    (s.sendPacket x p).port y = s.port y := by
  unfold State.sendPacket
  dsimp only
  generalize (if p.reserved then _ else _ : Bool) = room
  cases room
  · simp [State.port]
  · exact s.port_setPort_ne _ h

/-- A packet that meets an empty queue waits in it alone. -/
theorem State.port_sendPacket (s : State) {x : Nat} {p : Packet} (hx : x < 4) (empty : (s.port x).queue = [])
    (small : p.flits ≤ 384) : (s.sendPacket x p).port x = { s.port x with queue := [p] } := by
  have none : flitsIn [] + p.flits = p.flits := Nat.zero_add _
  have room : (if p.reserved then decide (p.flits ≤ 512) else decide (p.flits ≤ 512) && decide (p.flits ≤ 384)) = true := by
    split <;> simp [small, small.trans]
  rw [State.sendPacket]
  simp only [empty, List.filter_nil, List.nil_append, none]
  rw [if_pos room, State.port_setPort _ _ _ hx]

theorem State.tp_sendPacket (s : State) (x : Nat) (p : Packet) : (s.sendPacket x p).tp = s.tp :=
  (Frame.sendPacket s [.cl] (fun _ => True) x p (by simp) trivial trivial).part .tp (by simp)

/-- R357: the packet that a broadcast sends down ports B and C. -/
def State.broadcastPacket (s : State) (sub arg : Nat) (l : List Native) : Packet := Packet.make 3 0 s.devNum sub arg l

theorem State.broadcast_eq (s : State) (sub arg : Nat) (l : List Native) : s.broadcast sub arg l =
    (s.sendPacket 1 (s.broadcastPacket sub arg l)).sendPacket 2 (s.broadcastPacket sub arg l) := rfl

theorem State.port_broadcast (s : State) (sub arg : Nat) (l : List Native) (empty : (s.port 1).queue = [])
    (small : l.length < 8) :
    ((s.broadcast sub arg l).port 1).queue = [s.broadcastPacket sub arg l] := by
  have flits : (s.broadcastPacket sub arg l).flits ≤ 384 := by
    rw [State.broadcastPacket, Packet.flits_make]
    omega
  rw [State.broadcast_eq, State.port_sendPacket_ne _ _ (by decide), s.port_sendPacket (by decide) empty flits]

theorem State.tp_broadcast (s : State) (sub arg : Nat) (l : List Native) : (s.broadcast sub arg l).tp = s.tp := by
  rw [State.broadcast_eq, State.tp_sendPacket, State.tp_sendPacket]

end Sys2Proof.Machine
end

section
/-! PHASE samples and the STEP in force (R52, R54, R55). -/

namespace Sys2Proof.Machine

theorem doneIf_pos {c : Bool} (h : c = true) (s t : State) : doneIf c s t = done s t := by
  rw [h]
  rfl

/-! ### Instants -/

theorem reached_self (t : Time) : reached t t = true := by simp [reached]

theorem reached_later_one (t : Time) : reached t (later t 1) = false := by
  have back : t - (t + BitVec.ofNat 56 1) = -BitVec.ofNat 56 1 := by rw [sub_add_cancel_left]
  rw [reached, later, back]
  decide

/-- A TIME kept in two registers reads as written. -/
theorem State.getTime_setTime (s : State) (l h : Fld) (t : Time) (hl : l.inWord) (hh : h.inWord) (a : h.apart l)
    (low : l.hi + 1 - l.lo = 32) (high : h.hi + 1 - h.lo = 24) : (s.setTime l h t).getTime l h = t := by
  have bound := t.isLt
  have loRead : (s.setTime l h t).get l = t.toNat % 2 ^ 32 := by
    rw [State.setTime, State.get_set_apart _ _ _ _ hh a, State.get_set _ _ _ hl, low, Nat.mod_mod]
  have hiRead : (s.setTime l h t).get h = t.toNat / 2 ^ 32 := by
    rw [State.setTime, State.get_set _ _ _ hh, high]
    omega
  rw [State.getTime, loRead, hiRead]
  refine BitVec.eq_of_toNat_eq ?_
  rw [BitVec.toNat_ofNat]
  omega

theorem State.getTime_congr {s t : State} {l h : Fld} (hl : t.get l = s.get l) (hh : t.get h = s.get h) :
    t.getTime l h = s.getTime l h := by
  rw [State.getTime, State.getTime, hl, hh]

theorem getTime_settle (s t : State) (l h : Fld) (hl : l.reg.notPba) (hh : h.reg.notPba) :
    (settle s t).getTime l h = t.getTime l h := State.getTime_congr (get_settle s t l hl) (get_settle s t h hh)

theorem State.since_congr {s t : State} (h : t.time = s.time) (x : Time) : t.since x = s.since x := by
  rw [State.since, State.since, h]

/-! ### The STEP in force -/

theorem State.stepAt_congr {s t : State} (h : t.tp.stepLog = s.tp.stepLog) (g : t.get TP_STEP_STEP = s.get TP_STEP_STEP)
    (x : Time) : t.stepAt x = s.stepAt x := by
  rw [State.stepAt, State.stepAt, h, g]

theorem stepAt_settle (s t : State) (x : Time) : (settle s t).stepAt x = t.stepAt x :=
  State.stepAt_congr (by rw [settle_tp]) (get_settle s t _ (by decide)) x

theorem stepInForce_settle (s t : State) : (settle s t).stepInForce = t.stepInForce := by
  rw [State.stepInForce, State.stepInForce, stepAt_settle, settle_time]

/-- R54: the STEPs and their instants that a new one joins. -/
def State.stepBase (s : State) (at_ : Time) : List (Time × BitVec 16) :=
  if s.tp.stepLog.isEmpty then [(at_, BitVec.ofNat 16 s.stepInForce)] else s.tp.stepLog

/-- The state after a STEP that none known comes after. -/
def State.stepPut (s : State) (step : Nat) (at_ wrote : Time) : State :=
  (({ s with tp := { s.tp with stepLog := ((at_, BitVec.ofNat 16 step) :: s.stepBase at_).take 64 } } : State).set
    TP_STEP_STEP step).setTime TP_STEP_TIME_LO_T_LO TP_STEP_TIME_HI_T_HI wrote

theorem State.stepBase_reached {s : State} {at_ : Time} (h : ∀ x ∈ s.tp.stepLog, reached at_ x.1) :
    ∀ x ∈ s.stepBase at_, reached at_ x.1 := by
  unfold State.stepBase
  split
  · simpa using reached_self at_
  · exact h

theorem State.putStep_last {s : State} {at_ : Time} (step : Nat) (wrote : Time) (h : ∀ x ∈ s.tp.stepLog, reached at_ x.1) :
    s.putStep step at_ wrote = s.stepPut step at_ wrote := by
  have base := State.stepBase_reached h
  have after : (s.stepBase at_).filter (fun x => !reached at_ x.1) = [] := by simpa using base
  have before : (s.stepBase at_).filter (fun x => reached at_ x.1) = s.stepBase at_ := List.filter_eq_self.2 base
  unfold State.putStep
  rw [← State.stepBase]
  simp only [after, before]
  rfl

/-- R55: a STEP before one that is known leaves the register. -/
theorem State.putStep_early {s : State} {at_ : Time} (step : Nat) (wrote : Time)
    (h : ∃ x ∈ s.tp.stepLog, reached at_ x.1 = false) :
    ∃ log, s.putStep step at_ wrote = { s with tp := { s.tp with stepLog := log } } := by
  obtain ⟨x, hx, late⟩ := h
  have base : s.stepBase at_ = s.tp.stepLog := if_neg (by simp [List.ne_nil_of_mem hx])
  have after : ((s.stepBase at_).filter fun x => !reached at_ x.1).isEmpty = false := by
    rw [List.isEmpty_eq_false_iff]
    exact List.ne_nil_of_mem (List.mem_filter.2 ⟨base ▸ hx, by simp [late]⟩)
  unfold State.putStep
  rw [← State.stepBase]
  simp only [after]
  exact ⟨_, rfl⟩

theorem State.tp_stepPut (s : State) (step : Nat) (at_ wrote : Time) : (s.stepPut step at_ wrote).tp =
    { s.tp with stepLog := ((at_, BitVec.ofNat 16 step) :: s.stepBase at_).take 64 } := by
  rw [State.stepPut, State.setTime_tp, State.set_tp]

theorem State.get_step_stepPut (s : State) (step : Nat) (at_ wrote : Time) :
    (s.stepPut step at_ wrote).get TP_STEP_STEP = step % 65536 := by
  rw [State.stepPut, State.setTime, State.get_set_apart _ _ _ _ (Fld.inWord_of _ rfl) (by decide),
    State.get_set_apart _ _ _ _ (Fld.inWord_of _ rfl) (by decide), State.get_set _ _ _ (Fld.inWord_of _ rfl)]
  rfl

theorem State.getTime_stepPut (s : State) (step : Nat) (at_ wrote : Time) :
    (s.stepPut step at_ wrote).getTime TP_STEP_TIME_LO_T_LO TP_STEP_TIME_HI_T_HI = wrote :=
  State.getTime_setTime _ _ _ _ (Fld.inWord_of _ rfl) (Fld.inWord_of _ rfl) (by decide) rfl rfl

/-- From its instant the new STEP is in force. -/
theorem State.stepAt_of_log {s : State} {step : Nat} {at_ : Time} {l : List (Time × BitVec 16)} {x : Time}
    (log : s.tp.stepLog = ((at_, BitVec.ofNat 16 step) :: l).take 64) (h : reached x at_) : s.stepAt x = step % 65536 := by
  rw [State.stepAt, log, List.take_succ_cons]
  simp only [List.find?_cons, h]
  exact BitVec.toNat_ofNat ..

theorem State.stepInForce_lt (s : State) : s.stepInForce < 65536 := by
  have last : ∀ o : Option (Time × BitVec 16), (o.map (·.2.toNat)).getD (s.get TP_STEP_STEP) < 65536
    | none => s.get_lt TP_STEP_STEP
    | some x => x.2.isLt
  unfold State.stepInForce State.stepAt
  split
  · next x _ => exact x.2.isLt
  · exact last _

/-- A STEP of the next TCLK leaves the STEP in force, if it is known or the list of STEPs keeps it. -/
theorem State.stepInForce_of_log {s t : State} {step : Nat} (time : t.time = s.time)
    (log : t.tp.stepLog = ((later s.time 1, BitVec.ofNat 16 step) :: s.stepBase (later s.time 1)).take 64)
    (known : s.tp.stepLog = [] ∨ (s.tp.stepLog.take 63).any (fun x => reached s.time x.1)) :
    t.stepInForce = s.stepInForce := by
  have ahead := reached_later_one s.time
  rw [State.stepInForce, State.stepAt, log, time, List.take_succ_cons]
  simp only [List.find?_cons, ahead]
  rcases known with none | some
  · have base : s.stepBase (later s.time 1) = [(later s.time 1, BitVec.ofNat 16 s.stepInForce)] := if_pos (by rw [none]; rfl)
    rw [base]
    simp [ahead, Nat.mod_eq_of_lt s.stepInForce_lt]
  · obtain ⟨x, hx, hr⟩ := List.any_eq_true.1 some
    have base : s.stepBase (later s.time 1) = s.tp.stepLog :=
      if_neg (by simp [List.ne_nil_of_mem (List.mem_of_mem_take hx)])
    have found : ((s.tp.stepLog.take 63).find? fun x => reached s.time x.1).isSome := List.find?_isSome.2 ⟨x, hx, hr⟩
    obtain ⟨y, hy⟩ := Option.isSome_iff_exists.1 found
    have whole : s.tp.stepLog.find? (fun x => reached s.time x.1) = Option.some y := by
      rw [← List.take_append_drop 63 s.tp.stepLog, List.find?_append, hy]
      rfl
    simp only [base, hy]
    rw [State.stepInForce, State.stepAt, whole]

theorem Frame.stepPut (s : State) (step : Nat) (at_ wrote : Time) (ps : List Part) (w : Fld → Prop) (h : Part.tp ∈ ps)
    (hs : w TP_STEP_STEP) (hl : w TP_STEP_TIME_LO_T_LO) (hh : w TP_STEP_TIME_HI_T_HI) :
    Frame s (s.stepPut step at_ wrote) ps w :=
  ((Frame.setTp s ps w _ h).trans (Frame.set _ ps w _ _ (Fld.inWord_of _ rfl) hs)).trans
    (Frame.setTime _ ps w _ _ _ (Fld.inWord_of _ rfl) (Fld.inWord_of _ rfl) hl hh)

theorem fieldOf_low_half (v : Word) : fieldOf v 15 0 = v.toNat % 65536 := by
  rw [fieldOf, Nat.pow_zero, Nat.div_one]
  rfl

/-- The state after a write of TP_STEP on a device that is not the root. -/
def State.stepWritten (s : State) (v : Word) : State :=
  (s.stepPut (fieldOf v 15 0) (later s.time 1) (later s.time 1)).set TP_STEP_TX (fieldOf v 16 16)

theorem State.writeStep_of_not_root {s : State} (v : Word) (root : s.isRoot = false)
    (known : ∀ x ∈ s.tp.stepLog, reached (later s.time 1) x.1) : s.writeStep v = s.stepWritten v := by
  have stays : (s.stepWritten v).isRoot = false := by
    rw [State.isRoot, State.stepWritten, State.on_set_apart _ _ _ _ (Fld.inWord_of _ rfl) (by decide), State.on,
      (Frame.stepPut s _ _ _ [.tp] (· ∈ [TP_STEP_STEP, TP_STEP_TIME_LO_T_LO, TP_STEP_TIME_HI_T_HI]) (by simp) (by simp)
        (by simp) (by simp)).reg CL_DOM_CTL_ROOT (by decide) (by decide)]
    exact root
  unfold State.writeStep
  dsimp only
  rw [State.putStep_last _ _ known, ← State.stepWritten, stays]
  rfl

/-! ### A PHASE sample -/

theorem exec_phaseSampleReceive {s : State} (time : BitVec 56) (phase : BitVec 64) (vel : BitVec 32)
    (src : s.get TP_PH_CTL_SRC = srcCleif) (track : s.phState ≠ phLost) : ∃ u : State,
    exec (.phaseSampleReceive time phase vel 2) s = done s ((u.set TP_STATUS_PH_STATE phLocked).phaseMoved s.phase) ∧
      u = { s with tp := { s.tp with base := phase, off := vel.toInt * (s.since time : Int), vel := vel.toInt,
                                     lastSample := s.time, lastCount := s.time } } := by
  refine ⟨_, ?_, rfl⟩
  change done s (s.phaseReceived time phase vel 2) = _
  rw [State.phaseReceived, if_pos src, State.phaseSample, if_neg (by decide), if_neg (by decide), if_neg track]
  rfl

/-- R52: the payload of a PHASE sample. -/
def State.sampleFlits (s : State) : List Native := [timeFlit s.time, BitVec.ofNat 72 s.phase.toNat,
  BitVec.ofNat 72 (s.phState * 2 ^ 32 + (BitVec.ofInt 32 s.tp.vel).toNat)]

theorem State.sampleFlits_short (s : State) : s.sampleFlits.length < 8 := (by decide : 3 < 8)

/-- The state that a PHASE sample leaves from. -/
def State.sampled (s : State) : State := { s with tp := { s.tp with lastSample := s.time } }

theorem exec_phaseSampleBroadcast {s : State} (root : s.isRoot) (tx : s.on TP_DOM_CTL_PH_TX)
    (src : s.get TP_PH_CTL_SRC ≠ srcCleif) (due : 2048 ≤ s.since s.tp.lastSample) :
    exec .phaseSampleBroadcast s = done s (s.sampled.broadcast 5 0 s.sampleFlits) := by
  have acts : (s.isRoot && s.on TP_DOM_CTL_PH_TX && s.get TP_PH_CTL_SRC != srcCleif &&
      decide (2048 ≤ s.since s.tp.lastSample)) = true := by simp [root, tx, src, due]
  exact doneIf_pos acts ..

theorem State.phaseSampleBroadcast_runs {s : State} (root : s.isRoot) (tx : s.on TP_DOM_CTL_PH_TX)
    (src : s.get TP_PH_CTL_SRC ≠ srcCleif) (due : 2048 ≤ s.since s.tp.lastSample) (empty : (s.port 1).queue = []) :
    RunsTo (exec .phaseSampleBroadcast s) fun t => t.tp.lastSample = s.time ∧
      (∃ p, (t.port 1).queue = [p] ∧ p.type = 3 ∧ p.sub = 5 ∧
        p.payload.take 2 = [BitVec.ofNat 72 s.time.toNat, BitVec.ofNat 72 s.phase.toNat]) ∧
      Frame s t [.tp, .cl] (fun y => y = CL_FLAGS_FWDDROP ∨ ∃ x, y = CL_P_DROP_DROP x) := by
  have sent := s.sampled.port_broadcast 5 0 s.sampleFlits empty s.sampleFlits_short
  have left : Frame s s.sampled [.tp, .cl] (fun y => y = CL_FLAGS_FWDDROP ∨ ∃ x, y = CL_P_DROP_DROP x) :=
    Frame.setTp s _ _ _ (by simp)
  rw [exec_phaseSampleBroadcast root tx src due]
  refine runsTo_done _ _ _ ⟨?_, ⟨s.sampled.broadcastPacket 5 0 s.sampleFlits, ?_,
    Packet.type_make _ _ _ _ _ _ (by decide) (by decide) s.sampleFlits_short, Packet.sub_make _ _ _ _ _ _ (by decide), rfl⟩, ?_⟩
  · rw [settle_tp, State.tp_broadcast]
    rfl
  · rw [port_settle, sent]
  · exact (left.trans (Frame.broadcast _ _ _ _ _ _ (by simp) (fun x => .inr ⟨x, rfl⟩) (.inl rfl))).trans (Frame.settle ..)

theorem State.phaseSampleReceive_runs {s : State} (time : BitVec 56) (phase : BitVec 64) (vel : BitVec 32)
    (src : s.get TP_PH_CTL_SRC = srcCleif) (track : s.phState ≠ phLost) :
    RunsTo (exec (.phaseSampleReceive time phase vel 2) s) fun t => t.tp.base = phase ∧ t.tp.vel = vel.toInt ∧
      t.tp.off = vel.toInt * (s.since time : Int) ∧ t.get TP_STATUS_PH_STATE = phLocked ∧
      Frame s t [.tp, .engines] (· ∈ [TP_STATUS_PH_STATE]) := by
  obtain ⟨u, e, hu⟩ := exec_phaseSampleReceive time phase vel src track
  have taken : Frame s u [.tp, .engines] (· ∈ [TP_STATUS_PH_STATE]) := by
    rw [hu]
    exact Frame.setTp s _ _ _ (by simp)
  obtain ⟨slots, moved⟩ := (u.set TP_STATUS_PH_STATE phLocked).tp_phaseMoved s.phase
  rw [State.set_tp] at moved
  have base : u.tp.base = phase := by rw [hu]
  have speed : u.tp.vel = vel.toInt := by rw [hu]
  have off : u.tp.off = vel.toInt * (s.since time : Int) := by rw [hu]
  rw [e]
  refine runsTo_done _ _ _ ⟨?_, ?_, ?_, ?_, ?_⟩
  · rw [settle_tp, moved, ← base]
  · rw [settle_tp, moved, ← speed]
  · rw [settle_tp, moved, ← off]
  · rw [get_settle _ _ _ (by decide), (Frame.phaseMoved _ _ [.tp, .engines] (fun _ => False) (by simp) (by simp)).reg _
      (by decide) fun _ => False.elim, State.get_set _ _ _ (Fld.inWord_of _ rfl)]
    rfl
  · exact ((taken.trans (Frame.set _ _ _ _ _ (Fld.inWord_of _ rfl) (by simp))).trans
      (Frame.phaseMoved _ _ _ _ (by simp) (by simp))).trans (Frame.settle ..)

theorem State.phaseSampleTimeout_runs {s : State} (src : s.get TP_PH_CTL_SRC = srcCleif) (track : s.phState ≠ phLost)
    (due : 131072 ≤ s.since s.tp.lastSample) : RunsTo (exec .phaseSampleTimeout s) fun t =>
      t.get TP_STATUS_PH_STATE = phLost ∧ t.get TP_FLAGS_PH_LOST = 1 ∧ t.tp = s.tp := by
  have acts : (s.get TP_PH_CTL_SRC == srcCleif && s.phState != phLost &&
      decide (64 * 2048 ≤ s.since s.tp.lastSample)) = true := by simp [src, track, due]
  refine runsTo_doneIf _ _ _ _ acts ⟨?_, ?_, ?_⟩
  · rw [get_settle _ _ _ (by decide), State.get_phState_enterLost]
  · rw [get_settle _ _ _ (by decide), State.get_phLost_enterLost]
  · rw [settle_tp, State.tp_enterLost]

/-! ### What becomes of a STEP -/

theorem exec_stepWrite (s : State) (v : Word) (now : s.actsNow) (root : s.isRoot = false)
    (known : ∀ x ∈ s.tp.stepLog, reached (later s.time 1) x.1) : exec (.stepWrite v) s = done s (s.stepWritten v) := by
  change done s (s.mirrored TP_STEP.addr v fun s => s.writeStep v) = _
  rw [State.mirrored_actsNow _ _ _ _ now, State.writeStep_of_not_root v root known]

theorem Frame.stepWritten (s : State) (v : Word) :
    Frame s (s.stepWritten v) [.tp] (· ∈ [TP_STEP_STEP, TP_STEP_TX, TP_STEP_TIME_LO_T_LO, TP_STEP_TIME_HI_T_HI]) :=
  (Frame.stepPut s _ _ _ _ _ (by simp) (by simp) (by simp) (by simp)).trans
    (Frame.set _ _ _ _ _ (Fld.inWord_of _ rfl) (by simp))

theorem State.stepWrite_runs (s : State) (v : Word) (now : s.actsNow) (root : s.isRoot = false)
    (known : ∀ x ∈ s.tp.stepLog, reached (later s.time 1) x.1)
    (short : s.tp.stepLog = [] ∨ (s.tp.stepLog.take 63).any (fun x => reached s.time x.1)) :
    RunsTo (exec (.stepWrite v) s) fun t => t.get TP_STEP_STEP = v.toNat % 65536 ∧ t.stepInForce = s.stepInForce ∧
      t.stepAt (later s.time 1) = v.toNat % 65536 ∧
      t.getTime TP_STEP_TIME_LO_T_LO TP_STEP_TIME_HI_T_HI = later s.time 1 ∧
      Frame s t [.tp] (· ∈ [TP_STEP_STEP, TP_STEP_TX, TP_STEP_TIME_LO_T_LO, TP_STEP_TIME_HI_T_HI]) := by
  have log : (settle s (s.stepWritten v)).tp.stepLog =
      ((later s.time 1, BitVec.ofNat 16 (fieldOf v 15 0)) :: s.stepBase (later s.time 1)).take 64 := by
    rw [settle_tp, State.stepWritten, State.set_tp, State.tp_stepPut]
  have time : (settle s (s.stepWritten v)).time = s.time :=
    (settle_time ..).trans ((Frame.stepWritten s v).part .time (by simp))
  have field (x : Fld) (h : x.reg.notPba) (a : TP_STEP_TX.apart x) : (settle s (s.stepWritten v)).get x =
      (s.stepPut (fieldOf v 15 0) (later s.time 1) (later s.time 1)).get x := by
    rw [get_settle _ _ _ h, State.stepWritten, State.get_set_apart _ _ _ _ (Fld.inWord_of _ rfl) a]
  rw [exec_stepWrite s v now root known]
  refine runsTo_done _ _ _ ⟨?_, State.stepInForce_of_log time log short, ?_, ?_, ?_⟩
  · rw [field _ (by decide) (by decide), State.get_step_stepPut, fieldOf_low_half, Nat.mod_mod]
  · rw [State.stepAt_of_log log (reached_self _), fieldOf_low_half, Nat.mod_mod]
  · rw [State.getTime_congr (field _ (by decide) (by decide)) (field _ (by decide) (by decide)), State.getTime_stepPut]
  · exact (Frame.stepWritten s v).trans (Frame.settle ..)

theorem Frame.stepReceived (s : State) (step : BitVec 16) (at_ : Time) :
    Frame s (s.stepReceived step at_) [.tp] (· ∈ [TP_STEP_STEP, TP_STEP_TIME_LO_T_LO, TP_STEP_TIME_HI_T_HI]) := by
  unfold State.stepReceived
  split
  · by_cases known : ∀ x ∈ s.tp.stepLog, reached s.time x.1
    · rw [State.putStep_last _ _ known]
      exact Frame.stepPut s _ _ _ _ _ (by simp) (by simp) (by simp) (by simp)
    · obtain ⟨log, e⟩ := State.putStep_early step.toNat at_ (at_ := s.time) (by simpa using known)
      rw [e]
      exact Frame.setTp s _ _ _ (by simp)
  · exact Frame.setTp s _ _ _ (by simp)

theorem State.stepReceived_last {s : State} (step : BitVec 16) {at_ : Time} (come : reached s.time at_)
    (known : ∀ x ∈ s.tp.stepLog, reached s.time x.1) :
    (s.stepReceived step at_).get TP_STEP_STEP = step.toNat ∧ (s.stepReceived step at_).stepAt s.time = step.toNat := by
  have small : step.toNat % 65536 = step.toNat := Nat.mod_eq_of_lt step.isLt
  have log : (s.stepPut step.toNat s.time at_).tp.stepLog =
      ((s.time, BitVec.ofNat 16 step.toNat) :: s.stepBase s.time).take 64 := by rw [State.tp_stepPut]
  rw [State.stepReceived, if_pos come, State.putStep_last _ _ known, State.get_step_stepPut,
    State.stepAt_of_log log (reached_self _)]
  exact ⟨small, small⟩

theorem State.stepReceive_runs (s : State) (step : BitVec 16) (at_ : BitVec 56) :
    RunsTo (exec (.stepBroadcastReceive step at_) s) fun t =>
      (reached s.time at_ → (∀ x ∈ s.tp.stepLog, reached s.time x.1) →
        t.get TP_STEP_STEP = step.toNat ∧ t.stepInForce = step.toNat) ∧
      (reached s.time at_ → (∃ x ∈ s.tp.stepLog, reached s.time x.1 = false) → t.get TP_STEP_STEP = s.get TP_STEP_STEP) ∧
      (reached s.time at_ = false → t.get TP_STEP_STEP = s.get TP_STEP_STEP ∧
        t.tp = { s.tp with stepPend := s.tp.stepPend ++ [(step, at_)] }) ∧
      Frame s t [.tp] (· ∈ [TP_STEP_STEP, TP_STEP_TIME_LO_T_LO, TP_STEP_TIME_HI_T_HI]) := by
  have step_ : exec (.stepBroadcastReceive step at_) s = done s (s.stepReceived step at_) := rfl
  rw [step_]
  refine runsTo_done _ _ _ ⟨fun come known => ?_, fun come early => ?_, fun ahead => ?_,
    (Frame.stepReceived ..).trans (Frame.settle ..)⟩
  · rw [get_settle _ _ _ (by decide), stepInForce_settle, State.stepInForce,
      show (s.stepReceived step at_).time = s.time from (Frame.stepReceived ..).part .time (by simp)]
    exact State.stepReceived_last step come known
  · obtain ⟨log, e⟩ := State.putStep_early step.toNat at_ early
    rw [get_settle _ _ _ (by decide), State.stepReceived, if_pos come, e]
    rfl
  · have waits : s.stepReceived step at_ = { s with tp := { s.tp with stepPend := s.tp.stepPend ++ [(step, at_)] } } :=
      if_neg (by simp [ahead])
    rw [get_settle _ _ _ (by decide), settle_tp, waits]
    exact ⟨rfl, rfl⟩

theorem State.stepsDue_one {s : State} {step : BitVec 16} {at_ : BitVec 56} {rest : List (BitVec 16 × Time)}
    (pend : s.tp.stepPend = (step, at_) :: rest) (due : reached s.time at_) (ahead : ∀ x ∈ rest, reached s.time x.2 = false)
    (known : ∀ x ∈ s.tp.stepLog, reached at_ x.1) :
    s.stepsDue = ({ s with tp := { s.tp with stepPend := rest } } : State).stepPut step.toNat at_ at_ := by
  have none : rest.filter (fun x => reached s.time x.2) = [] := by simpa using ahead
  have all : rest.filter (fun x => !reached s.time x.2) = rest := by simpa using ahead
  have first : s.tp.stepPend.filter (fun x => reached s.time x.2) = [(step, at_)] := by simp [pend, due, none]
  have others : s.tp.stepPend.filter (fun x => !reached s.time x.2) = rest := by simp [pend, due, all]
  rw [State.stepsDue, first, others]
  exact State.putStep_last _ _ known

theorem State.stepApply_runs {s : State} {step : BitVec 16} {at_ : BitVec 56} {rest : List (BitVec 16 × Time)}
    (pend : s.tp.stepPend = (step, at_) :: rest) (due : reached s.time at_) (ahead : ∀ x ∈ rest, reached s.time x.2 = false)
    (known : ∀ x ∈ s.tp.stepLog, reached at_ x.1) : RunsTo (exec .stepBroadcastApply s) fun t =>
      t.get TP_STEP_STEP = step.toNat ∧ t.tp.stepPend = rest ∧ t.stepAt at_ = step.toNat ∧
      t.getTime TP_STEP_TIME_LO_T_LO TP_STEP_TIME_HI_T_HI = at_ ∧
      Frame s t [.tp] (· ∈ [TP_STEP_STEP, TP_STEP_TIME_LO_T_LO, TP_STEP_TIME_HI_T_HI]) := by
  have small : step.toNat % 65536 = step.toNat := Nat.mod_eq_of_lt step.isLt
  have taken : exec .stepBroadcastApply s = done s s.stepsDue := rfl
  rw [taken, State.stepsDue_one pend due ahead known]
  generalize hu : ({ s with tp := { s.tp with stepPend := rest } } : State) = u
  have left : Frame s u [.tp] (· ∈ [TP_STEP_STEP, TP_STEP_TIME_LO_T_LO, TP_STEP_TIME_HI_T_HI]) := by
    rw [← hu]
    exact Frame.setTp s _ _ _ (by simp)
  have log : (u.stepPut step.toNat at_ at_).tp.stepLog = ((at_, BitVec.ofNat 16 step.toNat) :: u.stepBase at_).take 64 := by
    rw [State.tp_stepPut]
  refine runsTo_done _ _ _ ⟨?_, ?_, ?_, ?_, ?_⟩
  · rw [get_settle _ _ _ (by decide), State.get_step_stepPut, small]
  · rw [settle_tp, State.tp_stepPut, ← hu]
  · rw [stepAt_settle, State.stepAt_of_log log (reached_self _), small]
  · rw [getTime_settle _ _ _ _ (by decide) (by decide), State.getTime_stepPut]
  · exact (left.trans (Frame.stepPut _ _ _ _ _ _ (by simp) (by simp) (by simp) (by simp))).trans (Frame.settle ..)

/-- Settles O5: a sample sent and taken, and the STEP put in force at its TIME (`State.putStep_last`, `State.putStep_early`). -/
theorem phaseSamplesAndStep : Obligations.PhaseSamplesAndStep :=
  ⟨fun _ root tx src due empty => State.phaseSampleBroadcast_runs root tx src due empty,
    fun _ time phase vel src track => State.phaseSampleReceive_runs time phase vel src track,
    fun _ src track due => State.phaseSampleTimeout_runs src track due,
    fun s v now root known short => s.stepWrite_runs v now root known short,
    fun s step at_ => s.stepReceive_runs step at_,
    fun _ _ _ _ pend due ahead known => State.stepApply_runs pend due ahead known⟩

end Sys2Proof.Machine
end

section
/-! Phase comparators and slots (R61, R62). -/

namespace Sys2Proof.Machine

/-- Fields of one register that share no bit. -/
theorem Fld.apart_of (x y : Fld) (r : x.reg = y.reg) (h : (decide (x.hi < y.lo) || decide (y.hi < x.lo)) = true) :
    x.apart y := .inr ⟨r, by simpa using h⟩

theorem State.get_withTp (s : State) (x : TpState) (y : Fld) : ({ s with tp := x } : State).get y = s.get y := rfl

/-! ### Arming a comparator -/

/-- The state with the fields of TP_PCMPm_CTL that a write of ARM = 1 stores. -/
def State.pcmpStored (s : State) (m : Nat) (v : Word) : State :=
  (((s.set (TP_PCMP_CTL_PRIO m) (fieldOf v 8 6)).set (TP_PCMP_CTL_CTX m) (fieldOf v 5 1)).set (TP_PCMP_CTL_ARM m) 1).set
    (TP_PCMP_CTL_REACHED m) 0

/-- The state after a comparator is armed. -/
def State.pcmpArmed (s : State) (m : Nat) (v : Word) : State :=
  { s.pcmpStored m v with tp := { s.tp with
    pcmpTgt := vset s.tp.pcmpTgt m (BitVec.ofNat 64 (s.get (TP_PCMP_CYC_CYC m) * 2 ^ 32 + s.get (TP_PCMP_ANG_ANG m))),
    pcmpAt := vset s.tp.pcmpAt m s.time } }

theorem State.get_pcmpStored_ne (s : State) (m : Nat) (v : Word) (x : Fld) (h : (TP_PCMP_CTL m).addr ≠ x.reg.addr) :
    (s.pcmpStored m v).get x = s.get x := by
  rw [State.pcmpStored, State.get_set_apart _ _ _ _ (Fld.inWord_of _ rfl) (.inl h),
    State.get_set_apart _ _ _ _ (Fld.inWord_of _ rfl) (.inl h), State.get_set_apart _ _ _ _ (Fld.inWord_of _ rfl) (.inl h),
    State.get_set_apart _ _ _ _ (Fld.inWord_of _ rfl) (.inl h)]

theorem fieldOf_bit_one {v : Word} (h : v.getLsbD 0) : fieldOf v 0 0 = 1 := by
  have odd : v.toNat % 2 = 1 := by simpa [BitVec.getLsbD, Nat.testBit_zero] using h
  simp only [fieldOf]
  omega

theorem State.pcmpWrite_arm (s : State) (m : Nat) (v : Word) (h : v.getLsbD 0) : s.pcmpWrite m v = s.pcmpArmed m v := by
  have stored (x : Fld) (ne : (TP_PCMP_CTL m).addr ≠ x.reg.addr) : (((s.set (TP_PCMP_CTL_PRIO m) (fieldOf v 8 6)).set
      (TP_PCMP_CTL_CTX m) (fieldOf v 5 1)).set (TP_PCMP_CTL_ARM m) 1).get x = s.get x := by
    rw [State.get_set_apart _ _ _ _ (Fld.inWord_of _ rfl) (.inl ne),
      State.get_set_apart _ _ _ _ (Fld.inWord_of _ rfl) (.inl ne), State.get_set_apart _ _ _ _ (Fld.inWord_of _ rfl) (.inl ne)]
  have cycle := stored (TP_PCMP_CYC_CYC m) (by simp only [TP_PCMP_CYC_CYC, TP_PCMP_CYC, TP_PCMP_CTL]; omega)
  have angle := stored (TP_PCMP_ANG_ANG m) (by simp only [TP_PCMP_ANG_ANG, TP_PCMP_ANG, TP_PCMP_CTL]; omega)
  unfold State.pcmpWrite
  dsimp only
  rw [fieldOf_bit_one h, if_pos rfl, cycle, angle]
  rfl

theorem Frame.pcmpArmed (s : State) (m : Nat) (v : Word) : Frame s (s.pcmpArmed m v) [.tp]
    (· ∈ [TP_PCMP_CTL_ARM m, TP_PCMP_CTL_REACHED m, TP_PCMP_CTL_CTX m, TP_PCMP_CTL_PRIO m]) :=
  ((((Frame.set s _ _ _ _ (Fld.inWord_of _ rfl) (by simp)).trans (Frame.set _ _ _ _ _ (Fld.inWord_of _ rfl) (by simp))).trans
    (Frame.set _ _ _ _ _ (Fld.inWord_of _ rfl) (by simp))).trans (Frame.set _ _ _ _ _ (Fld.inWord_of _ rfl) (by simp))).trans
    (Frame.setTp _ _ _ _ (by simp))

/-- The fields of TP_PCMPm_CTL once armed. -/
theorem State.get_pcmpArmed (s : State) (m : Nat) (v : Word) : (s.pcmpArmed m v).get (TP_PCMP_CTL_ARM m) = 1 ∧
    (s.pcmpArmed m v).get (TP_PCMP_CTL_REACHED m) = 0 ∧ (s.pcmpArmed m v).get (TP_PCMP_CTL_CTX m) = v.toNat / 2 % 32 ∧
    (s.pcmpArmed m v).get (TP_PCMP_CTL_PRIO m) = v.toNat / 64 % 8 := by
  have live (x : Fld) : (s.pcmpArmed m v).get x = (s.pcmpStored m v).get x :=
    (s.pcmpStored m v).get_withTp _ x
  simp only [live, State.pcmpStored]
  refine ⟨?_, ?_, ?_, ?_⟩
  · rw [State.get_set_apart _ _ _ _ (Fld.inWord_of _ rfl) (Fld.apart_of _ _ (by rfl) (by rfl)),
      State.get_set _ _ _ (Fld.inWord_of _ rfl)]
    rfl
  · rw [State.get_set _ _ _ (Fld.inWord_of _ rfl), Nat.zero_mod]
  · rw [State.get_set_apart _ _ _ _ (Fld.inWord_of _ rfl) (Fld.apart_of _ _ (by rfl) (by rfl)),
      State.get_set_apart _ _ _ _ (Fld.inWord_of _ rfl) (Fld.apart_of _ _ (by rfl) (by rfl)),
      State.get_set _ _ _ (Fld.inWord_of _ rfl)]
    exact Nat.mod_mod ..
  · rw [State.get_set_apart _ _ _ _ (Fld.inWord_of _ rfl) (Fld.apart_of _ _ (by rfl) (by rfl)),
      State.get_set_apart _ _ _ _ (Fld.inWord_of _ rfl) (Fld.apart_of _ _ (by rfl) (by rfl)),
      State.get_set_apart _ _ _ _ (Fld.inWord_of _ rfl) (Fld.apart_of _ _ (by rfl) (by rfl)),
      State.get_set _ _ _ (Fld.inWord_of _ rfl)]
    exact Nat.mod_mod ..

theorem pcmpCtl_notPba (m : Fin 8) : (TP_PCMP_CTL m).notPba := .inl (by simp only [TP_PCMP_CTL]; omega)

theorem pcmpCtl_low (m : Fin 8) : (TP_PCMP_CTL m).addr < 0x100000 := by simp only [TP_PCMP_CTL]; omega

theorem slotLast_low (i : Fin 16) : (TP_SLOT_LAST i).addr < 0x20000 := by simp only [TP_SLOT_LAST]; omega

theorem State.pcmpArm_runs (s : State) (m : Fin 8) (v : Word) (now : s.actsNow) (h : v.getLsbD 0) :
    RunsTo (exec (.pcmpArm m v) s) fun t =>
      t.get (TP_PCMP_CTL_ARM m) = 1 ∧ t.get (TP_PCMP_CTL_REACHED m) = 0 ∧ t.get (TP_PCMP_CTL_CTX m) = v.toNat / 2 % 32 ∧
      t.get (TP_PCMP_CTL_PRIO m) = v.toNat / 64 % 8 ∧
      vget t.tp.pcmpTgt m 0 = BitVec.ofNat 64 (s.get (TP_PCMP_CYC_CYC m) * 2 ^ 32 + s.get (TP_PCMP_ANG_ANG m)) ∧
      vget t.tp.pcmpAt m 0 = s.time ∧
      Frame s t [.tp] (· ∈ [TP_PCMP_CTL_ARM m, TP_PCMP_CTL_REACHED m, TP_PCMP_CTL_CTX m, TP_PCMP_CTL_PRIO m]) := by
  have armed : exec (.pcmpArm m v) s = done s (s.pcmpArmed m v) := by
    change done s (s.mirrored (TP_PCMP_CTL m).addr v fun s => s.pcmpWrite m v) = _
    rw [State.mirrored_actsNow _ _ _ _ now, State.pcmpWrite_arm _ _ _ h]
  obtain ⟨arm, reached_, ctx, prio⟩ := s.get_pcmpArmed m v
  have kept (x : Fld) (hx : x.reg = TP_PCMP_CTL m) : (settle s (s.pcmpArmed m v)).get x = (s.pcmpArmed m v).get x :=
    get_settle _ _ _ (by rw [hx]; exact pcmpCtl_notPba m)
  rw [armed]
  refine runsTo_done _ _ _ ⟨?_, ?_, ?_, ?_, ?_, ?_, (Frame.pcmpArmed s m v).trans (Frame.settle ..)⟩
  · rw [kept _ rfl, arm]
  · rw [kept _ rfl, reached_]
  · rw [kept _ rfl, ctx]
  · rw [kept _ rfl, prio]
  · rw [settle_tp]
    exact vget_vset _ _ _ _ m.isLt
  · rw [settle_tp]
    exact vget_vset _ _ _ _ m.isLt

/-! ### A comparator at its target and a slot passed -/

theorem exec_pcmpReached (s : State) (m : Fin 8) (arm : s.on (TP_PCMP_CTL_ARM m)) (locked : s.phState = phLocked)
    (at_ : phaseReached s.phase (vget s.tp.pcmpTgt m 0)) (later_ : s.time ≠ vget s.tp.pcmpAt m 0) :
    exec (.pcmpReached m) s = done s (s.pcmpFire m) := by
  have due : s.pcmpDue m = true := by
    rw [State.pcmpDue, State.phLockedB, arm, locked, at_, bne_iff_ne.2 later_]
    rfl
  exact doneIf_pos due ..

theorem State.pcmpReached_runs (s : State) (m : Fin 8) (arm : s.on (TP_PCMP_CTL_ARM m)) (locked : s.phState = phLocked)
    (at_ : phaseReached s.phase (vget s.tp.pcmpTgt m 0)) (later_ : s.time ≠ vget s.tp.pcmpAt m 0) :
    RunsTo (exec (.pcmpReached m) s) fun t =>
      t.get (TP_PCMP_CTL_REACHED m) = 1 ∧ t.get (TP_PCMP_CTL_ARM m) = 0 ∧
      Frame s t [.engines] (fun y => y = TP_PCMP_CTL_REACHED m ∨ y = TP_PCMP_CTL_ARM m ∨ causeField y) := by
  have notPba := pcmpCtl_notPba m
  rw [exec_pcmpReached s m arm locked at_ later_]
  refine runsTo_done _ _ _ ⟨?_, ?_, ?_⟩
  · rw [get_settle _ _ _ notPba, State.pcmpFire,
      State.get_set_apart _ _ _ _ (Fld.inWord_of _ rfl) (Fld.apart_of _ _ (by rfl) (by rfl)),
      State.get_set _ _ _ (Fld.inWord_of _ rfl)]
    rfl
  · rw [get_settle _ _ _ notPba, State.pcmpFire, State.get_set _ _ _ (Fld.inWord_of _ rfl), Nat.zero_mod]
  · have causes := Frame.causeMask s [.engines]
      (fun y => y = TP_PCMP_CTL_REACHED m ∨ y = TP_PCMP_CTL_ARM m ∨ causeField y) (s.get (TP_PCMP_ENG_ENG m))
      (s.get (TP_PCMP_CTL_CTX m)) (s.get (TP_PCMP_CTL_PRIO m)) .phase (by simp)
      fun _ _ hy => .inr (.inr (causeField_of (s.get_lt (TP_PCMP_CTL_CTX m)) hy))
    exact ((causes.trans (Frame.set _ _ _ _ _ (Fld.inWord_of _ rfl) (.inl rfl))).trans
      (Frame.set _ _ _ _ _ (Fld.inWord_of _ rfl) (.inr (.inl rfl)))).trans (Frame.settle ..)

/-- The state of a slot that fires in cycle c, before its causes. -/
def State.slotPassed (s : State) (i : Nat) (c : BitVec 32) : State :=
  ({ s with tp := { s.tp with slotDue := vset s.tp.slotDue i ((vget s.tp.slotDue i []).filter (· != c)),
                              slotFired := vset s.tp.slotFired i (c :: vget s.tp.slotFired i []) },
            slotAt := vset s.slotAt i (some s.time) } : State).set (TP_SLOT_LAST_LAST i) c.toNat

theorem Frame.slotPassed (s : State) (i : Nat) (c : BitVec 32) (w : Fld → Prop) (hw : w (TP_SLOT_LAST_LAST i)) :
    Frame s (s.slotPassed i c) [.tp, .slotAt, .engines] w := by
  refine .trans ?_ (Frame.set _ _ w _ _ (Fld.inWord_of _ rfl) hw)
  refine Frame.parts w (fun p hp => ?_) rfl
  cases p
  case tp | slotAt => simp at hp
  case image | store => exact ⟨rfl, rfl⟩
  all_goals rfl

theorem State.phaseSlotFire_runs (s : State) (i : Fin 16) (c : BitVec 32) (l : List (BitVec 32))
    (due : vget s.tp.slotDue i [] = c :: l) (en : s.on (TP_SLOT_CTL_EN i)) (locked : s.phState = phLocked) :
    RunsTo (exec (.phaseSlotFire i) s) fun t =>
      t.get (TP_SLOT_LAST_LAST i) = c.toNat ∧ vget t.tp.slotDue i [] = l.filter (· != c) ∧
      c ∈ vget t.tp.slotFired i [] ∧ vget t.slotAt i none = some s.time ∧
      Frame s t [.tp, .slotAt, .engines] (fun y => y = TP_SLOT_LAST_LAST i ∨ causeField y) := by
  have fires : exec (.phaseSlotFire i) s = done s (s.slotFire i c) := by
    change done s _ = _
    simp [due, en, State.phLockedB, locked]
  generalize hu : s.slotPassed i c = u
  have fire : s.slotFire i c =
      u.causeMask (u.get (TP_SLOT_ENG_ENG i)) (u.get (TP_SLOT_CTL_CTX i)) (u.get (TP_SLOT_CTL_PRIO i)) .phase := by
    rw [← hu]
    rfl
  have causes : Frame u (s.slotFire i c) [.engines] causeField := by
    rw [fire]
    exact Frame.causeMask u _ _ _ _ _ _ (by simp) fun _ _ hy => causeField_of (u.get_lt (TP_SLOT_CTL_CTX i)) hy
  have passed := Frame.slotPassed s i c (fun y => y = TP_SLOT_LAST_LAST i ∨ causeField y) (.inl rfl)
  have low := slotLast_low i
  have tp : (settle s (s.slotFire i c)).tp = u.tp := (settle_tp ..).trans (causes.part .tp (by simp))
  have slotAt : (settle s (s.slotFire i c)).slotAt = u.slotAt := (settle_slotAt ..).trans (causes.part .slotAt (by simp))
  rw [fires]
  refine runsTo_done _ _ _ ⟨?_, ?_, ?_, ?_, ?_⟩
  · rw [get_settle _ _ _ (.inl (low.trans (by decide))), causes.reg _ (.inl (low.trans (by decide)))
      fun y hy => causeField_apart hy (low.trans (by decide)), ← hu, State.slotPassed,
      State.get_set _ _ _ (Fld.inWord_of _ rfl)]
    exact Nat.mod_eq_of_lt c.isLt
  · rw [tp, ← hu]
    refine (vget_vset _ _ _ _ i.isLt).trans ?_
    simp [due]
  · rw [tp, ← hu]
    have fired : vget (s.slotPassed i c).tp.slotFired i [] = c :: vget s.tp.slotFired i [] := vget_vset _ _ _ _ i.isLt
    rw [fired]
    exact List.mem_cons_self
  · rw [slotAt, ← hu]
    exact vget_vset _ _ _ _ i.isLt
  · exact ((hu ▸ passed).trans (causes.mono (by simp) fun _ h => .inr h)).trans (Frame.settle ..)

/-- Settles O6. -/
theorem phaseComparatorsAndSlots : Obligations.PhaseComparatorsAndSlots :=
  ⟨fun s m v now arm => s.pcmpArm_runs m v now arm,
    fun s m arm locked at_ later_ => s.pcmpReached_runs m arm locked at_ later_,
    fun s i c l due en locked => s.phaseSlotFire_runs i c l due en locked⟩

end Sys2Proof.Machine
end

section
/-! The CAL_EXT edges (R89). -/

namespace Sys2Proof.Machine

/-! ### A rounded quotient -/

theorem State.quotient_near (s : State) (num : Int) {den : Nat} (pos : 0 < den) :
    ((s.quotient num den).2 * (den : Int) - num).natAbs < den := by
  have split := Int.emod_add_mul_ediv num den
  have small := Int.emod_lt_of_pos num (Int.natCast_pos.2 pos)
  have nonneg := Int.emod_nonneg num (Int.natCast_pos.2 pos).ne'
  rw [Int.mul_comm] at split
  unfold State.quotient
  split
  · dsimp only
    omega
  · dsimp only
    rw [Int.add_mul]
    split <;> omega

/-- A quotient of a bounded sum keeps the bound. -/
theorem State.quotient_bound (s : State) (num : Int) {den b : Nat} (pos : 0 < den) (h : num.natAbs ≤ b * den) :
    (s.quotient num den).2.natAbs ≤ b + 1 := by
  have near := s.quotient_near num pos
  have wide : ((s.quotient num den).2 * (den : Int)).natAbs < (b + 2) * den := by
    rw [Nat.add_mul]
    omega
  rw [Int.natAbs_mul, Int.natAbs_natCast] at wide
  exact Nat.le_of_lt_succ (Nat.lt_of_mul_lt_mul_right wide)

theorem Frame.quotient (s : State) (ps : List Part) (w : Fld → Prop) (num : Int) (den : Nat) (h : Part.free ∈ ps) :
    Frame s (s.quotient num den).1 ps w := by
  unfold State.quotient
  split
  · exact Frame.refl ..
  · exact Frame.burn _ _ _ h

/-! ### CAL_EXT in mode IN -/

/-- The state after an edge is counted, before its mean. -/
def State.calCounted (s : State) (ofs : Int) : State :=
  { s with sys := { s.sys with calExt := true, calLast := s.time, calN := s.sys.calN + 1, calSum := s.sys.calSum + ofs } }

theorem State.calEdge_eq (s : State) (ofs : Int) : s.calEdge ofs =
    ((((s.calCounted ofs).quotient (s.sys.calSum + ofs) (s.sys.calN + 1)).1.setInt (TG_CAL_MEAS_OFS 0)
      ((s.calCounted ofs).quotient (s.sys.calSum + ofs) (s.sys.calN + 1)).2).incr (TG_CAL_MEAS_CNT 0)) := rfl

theorem State.calExtEdge_runs {s : State} (ofs : BitVec 24) (mode : s.get (TG_CAL_CTL_MODE 0) = 1)
    (bound : (s.sys.calSum + ofs.toInt).natAbs ≤ 8388606 * (s.sys.calN + 1)) : RunsTo (exec (.calExtEdge ofs) s) fun t =>
      (t.getInt (TG_CAL_MEAS_OFS 0) * (s.sys.calN + 1 : Nat) - (s.sys.calSum + ofs.toInt)).natAbs < s.sys.calN + 1 ∧
      t.get (TG_CAL_MEAS_CNT 0) = (s.get (TG_CAL_MEAS_CNT 0) + 1) % 256 ∧
      t.sys = { s.sys with calExt := true, calLast := s.time, calN := s.sys.calN + 1, calSum := s.sys.calSum + ofs.toInt } ∧
      Frame s t [.sys, .free] (· ∈ [TG_CAL_MEAS_OFS 0, TG_CAL_MEAS_CNT 0]) := by
  have pos : 0 < s.sys.calN + 1 := Nat.succ_pos _
  have near := (s.calCounted ofs.toInt).quotient_near (s.sys.calSum + ofs.toInt) pos
  have size := (s.calCounted ofs.toInt).quotient_bound _ pos bound
  have taken := Frame.quotient (s.calCounted ofs.toInt) [.free] (fun _ => False) (s.sys.calSum + ofs.toInt)
    (s.sys.calN + 1) (by simp)
  have started : Frame s (s.calCounted ofs.toInt) [.sys, .free] (· ∈ [TG_CAL_MEAS_OFS 0, TG_CAL_MEAS_CNT 0]) :=
    Frame.setSys s _ _ _ (by simp)
  have all := started.trans (Frame.quotient _ _ _ (s.sys.calSum + ofs.toInt) (s.sys.calN + 1) (by simp))
  refine runsTo_doneIf _ _ _ _ (by simp [mode]) ?_
  rw [State.calEdge_eq]
  revert near size taken all
  generalize State.quotient _ _ _ = r
  intro near size taken all
  have sys : r.1.sys = (s.calCounted ofs.toInt).sys := taken.part .sys (by simp)
  refine ⟨?_, ?_, ?_, ?_⟩
  · rw [getInt_settle _ _ _ (by decide), State.incr,
      State.getInt_congr (State.get_set_apart _ _ _ _ (Fld.inWord_of _ rfl) (by decide)),
      State.getInt_setInt _ _ _ (Fld.inWord_of _ rfl) (by simp only [TG_CAL_MEAS_OFS]; omega)
        (by simp only [TG_CAL_MEAS_OFS]; omega)]
    exact near
  · rw [get_settle _ _ _ (by decide), State.incr, State.get_set _ _ _ (Fld.inWord_of _ rfl),
      State.get_setInt_apart _ _ _ _ (Fld.inWord_of _ rfl) (by decide), taken.reg _ (by decide) (fun _ => False.elim)]
    rfl
  · rw [settle_sys, State.incr_sys, State.setInt_sys, sys]
    rfl
  · exact ((all.trans (Frame.setInt _ _ _ _ _ (Fld.inWord_of _ rfl) (by simp))).trans
      (Frame.incr _ _ _ _ (Fld.inWord_of _ rfl) (by simp))).trans (Frame.settle ..)

theorem State.calExtTimeout_runs {s : State} (ext : s.sys.calExt) (due : 1600000 ≤ s.since s.sys.calLast) :
    RunsTo (exec .calExtTimeout s) fun t =>
      t.sys = { s.sys with calExt := false } ∧ Frame s t [.sys] (fun _ => False) := by
  have acts : (s.sys.calExt && decide (1600 * 1000 ≤ s.since s.sys.calLast)) = true := by simp [ext, due]
  refine runsTo_doneIf _ _ _ _ acts ⟨by rw [settle_sys], ?_⟩
  exact (Frame.setSys s _ _ _ (by simp)).trans (Frame.settle ..)

/-! ### CAL_EXT in mode OUT -/

theorem State.get_withSys (s : State) (x : SysState) (y : Fld) : ({ s with sys := x } : State).get y = s.get y := rfl

/-- The state after TG_CAL_CTL has stored its fields. -/
def State.calStored (s : State) (v : Word) : State :=
  ((s.set (TG_CAL_CTL_FINE 0) (fieldOf v 25 16)).set (TG_CAL_CTL_RPT 0) (fieldOf v 7 4)).set (TG_CAL_CTL_MODE 0) (fieldOf v 1 0)

theorem State.get_calStored_ne (s : State) (v : Word) (x : Fld) (h : (TG_CAL_CTL 0).addr ≠ x.reg.addr) :
    (s.calStored v).get x = s.get x := by
  rw [State.calStored, State.get_set_apart _ _ _ _ (Fld.inWord_of _ rfl) (.inl h),
    State.get_set_apart _ _ _ _ (Fld.inWord_of _ rfl) (.inl h), State.get_set_apart _ _ _ _ (Fld.inWord_of _ rfl) (.inl h)]

theorem Frame.calStored (s : State) (v : Word) :
    Frame s (s.calStored v) [.sys] (· ∈ [TG_CAL_CTL_MODE 0, TG_CAL_CTL_RPT 0, TG_CAL_CTL_FINE 0]) :=
  ((Frame.set s _ _ _ _ (Fld.inWord_of _ rfl) (by simp)).trans (Frame.set _ _ _ _ _ (Fld.inWord_of _ rfl) (by simp))).trans
    (Frame.set _ _ _ _ _ (Fld.inWord_of _ rfl) (by simp))

/-- The TIME of the armed edge. -/
def State.calTime (s : State) : Time := s.getTime (TG_CAL_TLO_T_LO 0) (TG_CAL_THI_T_HI 0)

/-- What a write that arms the output edge leaves. -/
theorem State.writeCal_arm {s : State} {v : Word} (out : fieldOf v 1 0 = 2) (arm : fieldOf v 3 3 = 1) : ∃ sys,
    s.writeCal v = { s.calStored v with sys := sys } ∧ sys.calNext =
      some (tickOf (if reached s.time s.calTime then s.time + 1 else s.calTime) + BitVec.ofNat 66 (fieldOf v 25 16)) := by
  unfold State.writeCal
  extract_lets mode fresh u at_ next
  have stored : u = s.calStored v := rfl
  have target : at_ = s.calTime := State.getTime_congr (s.get_calStored_ne v _ (by decide)) (s.get_calStored_ne v _ (by decide))
  have time : u.time = s.time := by rw [stored, State.calStored, State.set_time, State.set_time, State.set_time]
  have armed : next = some (tickOf (if reached u.time at_ then later u.time 1 else at_) + BitVec.ofNat 66 (fieldOf v 25 16)) :=
    (if_neg (not_not.2 out)).trans (if_pos arm)
  clear_value u at_ next
  rw [time, target] at armed
  subst stored
  exact ⟨_, rfl, armed⟩

/-- A bit of a written word that is 1. -/
theorem fieldOf_of_bit {v : Word} {i : Nat} (h : v.getLsbD i) : fieldOf v i i = 1 := by
  have bit : v.toNat / 2 ^ i % 2 = 1 := by
    rw [BitVec.getLsbD, Nat.testBit_eq_decide_div_mod_eq] at h
    exact of_decide_eq_true h
  rw [fieldOf, Nat.add_sub_cancel_left]
  exact bit

theorem State.calArm_runs {s : State} {v : Word} (ready : s.ready) (mode : v.toNat % 4 = 2) (arm : v.getLsbD 3) :
    RunsTo (exec (.calArm v) s) fun t =>
      t.get (TG_CAL_CTL_MODE 0) = 2 ∧ t.get (TG_CAL_CTL_RPT 0) = v.toNat / 16 % 16 ∧
      t.get (TG_CAL_CTL_FINE 0) = v.toNat / 65536 % 1024 ∧
      t.sys.calNext = some (tickOf (if reached s.time (s.getTime (TG_CAL_TLO_T_LO 0) (TG_CAL_THI_T_HI 0)) then s.time + 1
        else s.getTime (TG_CAL_TLO_T_LO 0) (TG_CAL_THI_T_HI 0)) + BitVec.ofNat 66 (v.toNat / 65536 % 1024)) ∧
      Frame s t [.sys] (· ∈ [TG_CAL_CTL_MODE 0, TG_CAL_CTL_RPT 0, TG_CAL_CTL_FINE 0]) := by
  have out : fieldOf v 1 0 = 2 := by simpa [fieldOf] using mode
  obtain ⟨sys, e, next⟩ := s.writeCal_arm out (fieldOf_of_bit arm)
  refine runsTo_hostDone _ _ _ ready ?_
  rw [e]
  have field (x : Fld) (h : x.reg.notPba) : (settle s { s.calStored v with sys := sys }).get x = (s.calStored v).get x :=
    (get_settle _ _ _ h).trans (State.get_withSys _ _ _)
  refine ⟨?_, ?_, ?_, ?_, ?_⟩
  · rw [field _ (by decide), State.calStored, State.get_set _ _ _ (Fld.inWord_of _ rfl), out]
    rfl
  · rw [field _ (by decide), State.calStored, State.get_set_apart _ _ _ _ (Fld.inWord_of _ rfl) (by decide),
      State.get_set _ _ _ (Fld.inWord_of _ rfl)]
    exact Nat.mod_mod _ 16
  · rw [field _ (by decide), State.calStored, State.get_set_apart _ _ _ _ (Fld.inWord_of _ rfl) (by decide),
      State.get_set_apart _ _ _ _ (Fld.inWord_of _ rfl) (by decide), State.get_set _ _ _ (Fld.inWord_of _ rfl)]
    exact Nat.mod_mod _ 1024
  · rw [settle_sys]
    exact next
  · exact ((Frame.calStored s v).trans (Frame.setSys _ _ _ sys (by simp))).trans (Frame.settle ..)

/-- The edge after the one at `at_`. -/
def State.calRepeat (s : State) (at_ : Tick) : Option Tick :=
  if s.get (TG_CAL_CTL_RPT 0) = 0 then none else some (at_ + BitVec.ofNat 66 (1024 * 2 ^ (8 + s.get (TG_CAL_CTL_RPT 0))))

theorem exec_calOutEdge {s : State} {at_ : Tick} (next : s.sys.calNext = some at_) (due : reached s.time (tclkOf at_)) :
    exec .calOutEdge s =
      done s (({ s with sys := { s.sys with calNext := s.calRepeat at_ } } : State).emit (.calExt at_)) := by
  change execCalOutEdge s = _
  unfold execCalOutEdge
  simp only [next, due, if_true]
  rfl

theorem State.calOutEdge_runs {s : State} {at_ : Tick} (next : s.sys.calNext = some at_) (due : reached s.time (tclkOf at_)) :
    RunsTo (exec .calOutEdge s) fun t => Sends s t (.calExt at_) ∧
      t.sys.calNext = (if s.get (TG_CAL_CTL_RPT 0) = 0 then none
        else some (at_ + BitVec.ofNat 66 (1024 * 2 ^ (8 + s.get (TG_CAL_CTL_RPT 0))))) ∧
      Frame s t [.sys] (fun _ => False) := by
  rw [exec_calOutEdge next due]
  refine runsTo_done _ _ _ ⟨sends_settle_emit _ _ _ _ rfl, ?_, ?_⟩
  · rw [settle_sys]
    rfl
  · exact ((Frame.setSys s _ _ _ (by simp)).trans (Frame.emit ..)).trans (Frame.settle ..)

/-- Settles O8: the mean of the edges (`State.quotient_near`), and the armed edge with its repetition. -/
theorem calExt : Obligations.CalExt :=
  ⟨fun _ ofs mode bound => State.calExtEdge_runs ofs mode bound, fun _ ext due => State.calExtTimeout_runs ext due,
    fun _ _ ready mode arm => State.calArm_runs ready mode arm, fun _ _ next due => State.calOutEdge_runs next due⟩

end Sys2Proof.Machine
end

section
/-! The sample oscillator (R131). -/

namespace Sys2Proof.Machine

/-! ### What the parts of a write do -/

theorem State.on_of_get {s : State} {x : Fld} {v : Nat} (h : s.get x = v) : s.on x = (v != 0) := by rw [State.on, h]

theorem State.on_congr {s t : State} {x : Fld} (h : t.get x = s.get x) : t.on x = s.on x := by rw [State.on, State.on, h]

theorem State.get_setClamped (s : State) (x : Fld) (v lo hi : Nat) (h : x.inWord) (c : GL_CLAMP_COUNT_COUNT.apart x)
    (l : GL_CLAMP_LAST_ADDR.apart x) : (s.setClamped x v lo hi).get x = max lo (min hi v) % 2 ^ (x.hi + 1 - x.lo) := by
  unfold State.setClamped
  dsimp only
  split
  · rw [State.clampNote, State.get_set_apart _ _ _ _ (Fld.inWord_of _ rfl) l,
      State.count, State.get_set_apart _ _ _ _ (Fld.inWord_of _ rfl) c, State.get_set _ _ _ h]
  · rw [State.get_set _ _ _ h]

theorem Frame.setClamped (s : State) (ps : List Part) (w : Fld → Prop) (x : Fld) (v lo hi : Nat) (h : x.inWord) (k : w x)
    (c : w GL_CLAMP_COUNT_COUNT) (l : w GL_CLAMP_LAST_ADDR) : Frame s (s.setClamped x v lo hi) ps w := by
  have stored := Frame.set s ps w x (max lo (min hi v)) h k
  unfold State.setClamped
  dsimp only
  split
  · exact stored.trans (Frame.clampNote _ _ _ _ c l)
  · exact stored

theorem Frame.dgStale (s : State) (ps : List Part) (w : Fld → Prop) (h : w DG_STAT_STALE) : Frame s s.dgStale ps w :=
  Frame.set _ _ _ _ _ (Fld.inWord_of _ rfl) h

theorem Frame.within (s : State) (ps : List Part) (w : Fld → Prop) (lo hi : Int) (h : Part.free ∈ ps) :
    Frame s (s.within lo hi).1 ps w := Frame.burn _ _ _ h

/-! ### The oscillator -/

/-- The oscillator's outcome of a start. -/
theorem State.smStart_eq (s : State) : ∃ next, s.smStart = { (s.within 1 3200).1.set smRunning 1 with sys := { s.sys with
    smFresh := 0xFFFFFFFF, smNext := next, smTick := Vector.replicate 32 (s.sys.smCycle + 1)
    smLeft := if s.on (CP_SM_CTL_BURST 0) then some s.smBurst else none } } := ⟨_, rfl⟩

theorem Frame.smStart (s : State) (ps : List Part) (w : Fld → Prop) (hs : Part.sys ∈ ps) (hf : Part.free ∈ ps)
    (h : w smRunning) : Frame s s.smStart ps w :=
  ((Frame.within s ps w 1 3200 hf).trans (Frame.set _ _ _ _ _ (Fld.inWord_of _ rfl) h)).trans (Frame.setSys _ _ _ _ hs)

theorem Frame.smStop (s : State) (ps : List Part) (w : Fld → Prop) (hs : Part.sys ∈ ps) (h : w smRunning) :
    Frame s s.smStop ps w :=
  (Frame.set _ _ _ _ _ (Fld.inWord_of _ rfl) h).trans (Frame.setSys _ _ _ _ hs)

theorem State.on_smStart (s : State) : s.smStart.on smRunning = true := by
  obtain ⟨next, e⟩ := s.smStart_eq
  rw [e, State.on, State.get_withSys, State.get_set _ _ _ (Fld.inWord_of _ rfl)]
  decide

theorem State.sys_smStop (s : State) : s.smStop.sys = { s.sys with smNext := none, smLeft := none } := rfl

theorem State.on_smStop (s : State) : s.smStop.on smRunning = false := by
  rw [State.smStop, State.on, State.get_withSys, State.get_set _ _ _ (Fld.inWord_of _ rfl)]
  decide

theorem State.smLeft_smStart (s : State) :
    s.smStart.sys.smLeft = if s.on (CP_SM_CTL_BURST 0) then some s.smBurst else none := rfl

theorem Frame.smWake (s : State) (ps : List Part) (w : Fld → Prop) (hs : Part.sys ∈ ps) (hf : Part.free ∈ ps)
    (h : w smRunning) (k : w (CP_SM_STAT_WAKES 0)) : Frame s s.smWake ps w := by
  unfold State.smWake
  split
  · exact Frame.refl ..
  split
  · exact (Frame.smStart s ps w hs hf h).trans (Frame.count _ _ _ _ _ (Fld.inWord_of _ rfl) k)
  split
  · exact (Frame.setSys s ps w _ hs).trans (Frame.count _ _ _ _ _ (Fld.inWord_of _ rfl) k)
  · exact Frame.refl ..

theorem State.smWake_of_stopped {s : State} (h : s.on (CP_SM_CTL_RUN 0) = false) : s.smWake = s := by
  rw [State.smWake, h]
  rfl

theorem State.smWake_of_run {s : State} (h : s.on (CP_SM_CTL_RUN 0) = true) (r : s.on smRunning = false) :
    s.smWake = s.smStart.count (CP_SM_STAT_WAKES 0) 1 := by
  rw [State.smWake, h, r]
  rfl

/-! ### The fields of CP_SM_CTL -/

/-- The state after CP_SM_CTL has stored its fields, before the oscillator follows. -/
def State.smStored (s : State) (v : Word) : State :=
  (((((s.set (CP_SM_CTL_WSRC 0) (fieldOf v 27 24)).set (CP_SM_CTL_BLEN 0) (fieldOf v 23 20)).setClamped
    (CP_SM_CTL_PER 0) (fieldOf v 13 0) 1 10000).set (CP_SM_CTL_BURST 0) (fieldOf v 19 19)).set (CP_SM_CTL_RUN 0) (fieldOf v 18 18))

/-- What the oscillator does after a write, before a wake. -/
def State.smFollow (s : State) (was wasBurst : Bool) : State :=
  if !s.on (CP_SM_CTL_RUN 0) then (if was then s.smStop.crossingEnters 5 else s.smStop)
    else if !s.on (CP_SM_CTL_BURST 0) then (if s.on smRunning then s.smSetLeft none else s.smStart)
    else if !was then s.smStop
    else if s.on smRunning && !wasBurst then s.smSetLeft (some s.smBurst) else s

theorem State.writeSmCtl_eq (s : State) (v : Word) : s.writeSmCtl v =
    (if fieldOf v 31 31 = 1 then ((s.smStored v).smFollow (s.on (CP_SM_CTL_RUN 0)) (s.on (CP_SM_CTL_BURST 0))).smWake
      else (s.smStored v).smFollow (s.on (CP_SM_CTL_RUN 0)) (s.on (CP_SM_CTL_BURST 0))).dgStale := rfl

/-- What a write of CP_SM_CTL may change beside the oscillator. -/
abbrev smField (y : Fld) : Prop := y.reg = CP_SM_CTL 0 ∨ y.reg = CP_SM_STAT 0 ∨ y = DG_STAT_STALE ∨
  y.reg = GL_CLAMP_COUNT ∨ y.reg = GL_CLAMP_LAST

theorem Frame.smStored (s : State) (v : Word) (ps : List Part) : Frame s (s.smStored v) ps
    (fun y => y.reg = CP_SM_CTL 0 ∨ y.reg = GL_CLAMP_COUNT ∨ y.reg = GL_CLAMP_LAST) :=
  ((((Frame.set s _ _ _ _ (Fld.inWord_of _ rfl) (.inl rfl)).trans (Frame.set _ _ _ _ _ (Fld.inWord_of _ rfl) (.inl rfl))).trans
    (Frame.setClamped _ _ _ _ _ _ _ (Fld.inWord_of _ rfl) (.inl rfl) (.inr (.inl rfl)) (.inr (.inr rfl)))).trans
    (Frame.set _ _ _ _ _ (Fld.inWord_of _ rfl) (.inl rfl))).trans (Frame.set _ _ _ _ _ (Fld.inWord_of _ rfl) (.inl rfl))

theorem State.get_run_smStored (s : State) (v : Word) : (s.smStored v).get (CP_SM_CTL_RUN 0) = fieldOf v 18 18 := by
  rw [State.smStored, State.get_set _ _ _ (Fld.inWord_of _ rfl)]
  exact Nat.mod_eq_of_lt (fieldOf_lt ..)

theorem State.get_burst_smStored (s : State) (v : Word) : (s.smStored v).get (CP_SM_CTL_BURST 0) = fieldOf v 19 19 := by
  rw [State.smStored, State.get_set_apart _ _ _ _ (Fld.inWord_of _ rfl) (by decide), State.get_set _ _ _ (Fld.inWord_of _ rfl)]
  exact Nat.mod_eq_of_lt (fieldOf_lt ..)

theorem State.get_per_smStored (s : State) (v : Word) :
    (s.smStored v).get (CP_SM_CTL_PER 0) = max 1 (min 10000 (v.toNat % 16384)) := by
  have low : fieldOf v 13 0 = v.toNat % 16384 := by simp [fieldOf]
  rw [State.smStored, State.get_set_apart _ _ _ _ (Fld.inWord_of _ rfl) (by decide),
    State.get_set_apart _ _ _ _ (Fld.inWord_of _ rfl) (by decide),
    State.get_setClamped _ _ _ _ _ (Fld.inWord_of _ rfl) (by decide) (by decide), low]
  simp only [CP_SM_CTL_PER]
  omega

/-- The clamp of PER leaves the fields beside it. -/
theorem State.get_clampedPer (s : State) (n : Nat) (x : Fld) (h : x.reg.notPba) (a : (CP_SM_CTL_PER 0).apart x)
    (c : GL_CLAMP_COUNT_COUNT.apart x) (l : GL_CLAMP_LAST_ADDR.apart x) :
    (s.setClamped (CP_SM_CTL_PER 0) n 1 10000).get x = s.get x :=
  (Frame.setClamped s [] (· ∈ [CP_SM_CTL_PER 0, GL_CLAMP_COUNT_COUNT, GL_CLAMP_LAST_ADDR]) _ n 1 10000 (Fld.inWord_of _ rfl)
    (by simp) (by simp) (by simp)).reg x h (by simp [a, c, l])

theorem State.get_wsrc_smStored (s : State) (v : Word) : (s.smStored v).get (CP_SM_CTL_WSRC 0) = v.toNat / 2 ^ 24 % 16 := by
  rw [State.smStored, State.get_set_apart _ _ _ _ (Fld.inWord_of _ rfl) (by decide),
    State.get_set_apart _ _ _ _ (Fld.inWord_of _ rfl) (by decide),
    State.get_clampedPer _ _ _ (by decide) (by decide) (by decide) (by decide),
    State.get_set_apart _ _ _ _ (Fld.inWord_of _ rfl) (by decide), State.get_set _ _ _ (Fld.inWord_of _ rfl)]
  exact Nat.mod_mod _ 16

theorem State.get_blen_smStored (s : State) (v : Word) : (s.smStored v).get (CP_SM_CTL_BLEN 0) = v.toNat / 2 ^ 20 % 16 := by
  rw [State.smStored, State.get_set_apart _ _ _ _ (Fld.inWord_of _ rfl) (by decide),
    State.get_set_apart _ _ _ _ (Fld.inWord_of _ rfl) (by decide),
    State.get_clampedPer _ _ _ (by decide) (by decide) (by decide) (by decide), State.get_set _ _ _ (Fld.inWord_of _ rfl)]
  exact Nat.mod_mod _ 16

theorem State.get_stat_smStored (s : State) (v : Word) (x : Fld) (h : x.reg = CP_SM_STAT 0) : (s.smStored v).get x = s.get x :=
  (Frame.smStored s v []).reg x (by rw [h]; decide) (by rintro y (e | e | e) <;> exact .inl (by rw [e, h]; decide))

theorem State.sys_smStored (s : State) (v : Word) : (s.smStored v).sys = s.sys := (Frame.smStored s v []).part .sys (by simp)

theorem exec_smCtlWrite {s : State} (v : Word) (now : s.actsNow) : exec (.smCtlWrite v) s = done s (s.writeSmCtl v) := by
  change done s (s.mirrored (CP_SM_CTL 0).addr v fun s => s.writeSmCtl v) = _
  rw [State.mirrored_actsNow _ _ _ _ now]

/-- Without BURST the oscillator runs on. -/
theorem State.smFollow_run {s : State} (was wasBurst : Bool) (run : s.on (CP_SM_CTL_RUN 0) = true)
    (burst : s.on (CP_SM_CTL_BURST 0) = false) : (s.smFollow was wasBurst).on smRunning ∧
      (s.smFollow was wasBurst).sys.smLeft = none ∧ Frame s (s.smFollow was wasBurst) [.sys, .free] (· = smRunning) := by
  rw [State.smFollow, run, burst]
  by_cases running : s.on smRunning
  · simp only [running]
    exact ⟨running, rfl, Frame.setSys s _ _ _ (by simp)⟩
  · simp only [running]
    refine ⟨s.on_smStart, ?_, Frame.smStart s _ _ (by simp) (by simp) rfl⟩
    exact s.smLeft_smStart.trans (by rw [burst]; rfl)

theorem smField_of_ctl {s t : State} {ps : List Part}
    (h : Frame s t ps (fun y => y.reg = CP_SM_CTL 0 ∨ y.reg = GL_CLAMP_COUNT ∨ y.reg = GL_CLAMP_LAST)) : Frame s t ps smField :=
  h.mono (fun _ => id) fun y hy => by
    rcases hy with e | e | e
    · exact .inl e
    · exact .inr (.inr (.inr (.inl e)))
    · exact .inr (.inr (.inr (.inr e)))

/-- A bit of a written word that is 0. -/
theorem fieldOf_of_not_bit {v : Word} {i : Nat} (h : v.getLsbD i = false) : fieldOf v i i = 0 := by
  have bit : ¬ v.toNat / 2 ^ i % 2 = 1 := by
    rw [BitVec.getLsbD, Nat.testBit_eq_decide_div_mod_eq] at h
    exact of_decide_eq_false h
  rw [fieldOf, Nat.add_sub_cancel_left]
  omega

theorem State.on_dgStale (s : State) (x : Fld) (a : DG_STAT_STALE.apart x) : s.dgStale.on x = s.on x :=
  State.on_set_apart _ _ _ _ (Fld.inWord_of _ rfl) a

theorem State.smRun_runs {s : State} {v : Word} (now : s.actsNow) (run : v.getLsbD 18) (burst : v.getLsbD 19 = false)
    (wake : v.getLsbD 31 = false) : RunsTo (exec (.smCtlWrite v) s) fun t =>
      t.on smRunning ∧ t.on (CP_SM_CTL_RUN 0) ∧ t.get (CP_SM_CTL_PER 0) = max 1 (min 10000 (v.toNat % 16384)) ∧
      t.get (CP_SM_CTL_WSRC 0) = v.toNat / 2 ^ 24 % 16 ∧ t.sys.smLeft = none ∧ t.get DG_STAT_STALE = 1 ∧
      Frame s t [.sys, .free] smField := by
  have stored := smField_of_ctl (Frame.smStored s v [.sys, .free])
  have runs : (s.smStored v).on (CP_SM_CTL_RUN 0) = true :=
    State.on_of_get ((s.get_run_smStored v).trans (fieldOf_of_bit run))
  have single : (s.smStored v).on (CP_SM_CTL_BURST 0) = false :=
    State.on_of_get ((s.get_burst_smStored v).trans (fieldOf_of_not_bit burst))
  obtain ⟨on, left, moved⟩ := State.smFollow_run (s.on (CP_SM_CTL_RUN 0)) (s.on (CP_SM_CTL_BURST 0)) runs single
  rw [exec_smCtlWrite v now, State.writeSmCtl_eq, if_neg (by rw [fieldOf_of_not_bit wake]; decide)]
  generalize (s.smStored v).smFollow (s.on (CP_SM_CTL_RUN 0)) (s.on (CP_SM_CTL_BURST 0)) = u at on left moved
  have field (x : Fld) (h : x.reg.notPba) (a : DG_STAT_STALE.apart x) (r : smRunning.apart x) :
      (settle s u.dgStale).get x = (s.smStored v).get x := by
    rw [get_settle _ _ _ h, State.dgStale, State.get_set_apart _ _ _ _ (Fld.inWord_of _ rfl) a,
      moved.reg x h fun y e => e ▸ r]
  refine runsTo_done _ _ _ ⟨?_, ?_, ?_, ?_, ?_, ?_, ?_⟩
  · rw [on_settle _ _ _ (by decide), State.on_dgStale _ _ (by decide)]
    exact on
  · rw [State.on_congr (field _ (by decide) (by decide) (by decide))]
    exact runs
  · rw [field _ (by decide) (by decide) (by decide), State.get_per_smStored]
  · rw [field _ (by decide) (by decide) (by decide), State.get_wsrc_smStored]
  · rw [settle_sys, State.dgStale, State.set_sys]
    exact left
  · rw [get_settle _ _ _ (by decide), State.dgStale, State.get_set _ _ _ (Fld.inWord_of _ rfl)]
    rfl
  · exact ((stored.trans (moved.mono (fun _ => id) fun y e => .inr (.inl (e ▸ rfl)))).trans
      (Frame.dgStale _ _ _ (.inr (.inr (.inl rfl))))).trans (Frame.settle ..)

theorem State.smFollow_stop {s : State} (was wasBurst : Bool) (run : s.on (CP_SM_CTL_RUN 0) = false) :
    (s.smFollow was wasBurst).on smRunning = false ∧ (s.smFollow was wasBurst).sys.smNext = none ∧
      Frame s (s.smFollow was wasBurst) [.sys] (· = smRunning) := by
  have stop := Frame.smStop s [.sys] (· = smRunning) (by simp) rfl
  rw [State.smFollow, run]
  cases was
  · exact ⟨s.on_smStop, rfl, stop⟩
  · refine ⟨?_, rfl, stop.trans (Frame.setSys _ _ _ _ (by simp))⟩
    exact (State.on_congr (State.get_withSys ..)).trans s.on_smStop

theorem State.smStop_runs {s : State} {v : Word} (now : s.actsNow) (run : v.getLsbD 18 = false) :
    RunsTo (exec (.smCtlWrite v) s) fun t =>
      t.on smRunning = false ∧ t.on (CP_SM_CTL_RUN 0) = false ∧ t.sys.smNext = none := by
  have rests : (s.smStored v).on (CP_SM_CTL_RUN 0) = false :=
    State.on_of_get ((s.get_run_smStored v).trans (fieldOf_of_not_bit run))
  obtain ⟨off, next, moved⟩ := State.smFollow_stop (s.on (CP_SM_CTL_RUN 0)) (s.on (CP_SM_CTL_BURST 0)) rests
  rw [exec_smCtlWrite v now, State.writeSmCtl_eq]
  generalize (s.smStored v).smFollow (s.on (CP_SM_CTL_RUN 0)) (s.on (CP_SM_CTL_BURST 0)) = u at off next moved
  have stays : u.on (CP_SM_CTL_RUN 0) = false :=
    (State.on_congr (moved.reg _ (by decide) fun y e => e ▸ (by decide))).trans rests
  rw [State.smWake_of_stopped stays, ite_self]
  refine runsTo_done _ _ _ ⟨?_, ?_, ?_⟩
  · rw [on_settle _ _ _ (by decide), State.on_dgStale _ _ (by decide)]
    exact off
  · rw [on_settle _ _ _ (by decide), State.on_dgStale _ _ (by decide)]
    exact stays
  · rw [settle_sys, State.dgStale, State.set_sys]
    exact next

theorem exec_smWakeWrite {s : State} {v : Word} (now : s.actsNow) (wake : v.getLsbD 31) :
    exec (.smWakeWrite v) s = done s (s.writeSmCtl v) := by
  change doneIf (fieldOf v 31 31 == 1) s (s.mirrored (CP_SM_CTL 0).addr v fun s => s.writeSmCtl v) = _
  rw [State.mirrored_actsNow _ _ _ _ now]
  exact doneIf_pos (by rw [fieldOf_of_bit wake]; rfl) ..

/-- With BURST a stopped oscillator stays stopped. -/
theorem State.smFollow_burst {s : State} (was wasBurst : Bool) (run : s.on (CP_SM_CTL_RUN 0) = true)
    (burst : s.on (CP_SM_CTL_BURST 0) = true) (off : s.on smRunning = false) :
    (s.smFollow was wasBurst).on smRunning = false ∧ Frame s (s.smFollow was wasBurst) [.sys] (· = smRunning) := by
  rw [State.smFollow, run, burst, off]
  cases was
  · exact ⟨s.on_smStop, Frame.smStop s _ _ (by simp) rfl⟩
  · exact ⟨off, Frame.refl ..⟩

theorem State.smWakeWrite_runs {s : State} {v : Word} (now : s.actsNow) (wake : v.getLsbD 31) (run : v.getLsbD 18)
    (burst : v.getLsbD 19) (off : s.on smRunning = false) : RunsTo (exec (.smWakeWrite v) s) fun t =>
      t.on smRunning ∧ t.on (CP_SM_CTL_BURST 0) ∧ t.sys.smFresh = 0xFFFFFFFF ∧
      t.sys.smLeft = some (2 ^ (v.toNat / 2 ^ 20 % 16)) ∧
      t.get (CP_SM_STAT_WAKES 0) = min (s.get (CP_SM_STAT_WAKES 0) + 1) 65535 := by
  have runs : (s.smStored v).on (CP_SM_CTL_RUN 0) = true :=
    State.on_of_get ((s.get_run_smStored v).trans (fieldOf_of_bit run))
  have bursts : (s.smStored v).on (CP_SM_CTL_BURST 0) = true :=
    State.on_of_get ((s.get_burst_smStored v).trans (fieldOf_of_bit burst))
  have still : (s.smStored v).on smRunning = false := (State.on_congr (s.get_stat_smStored v _ rfl)).trans off
  obtain ⟨stopped, moved⟩ := State.smFollow_burst (s.on (CP_SM_CTL_RUN 0)) (s.on (CP_SM_CTL_BURST 0)) runs bursts still
  rw [exec_smWakeWrite now wake, State.writeSmCtl_eq, if_pos (fieldOf_of_bit wake)]
  generalize (s.smStored v).smFollow (s.on (CP_SM_CTL_RUN 0)) (s.on (CP_SM_CTL_BURST 0)) = u at stopped moved
  have field (x : Fld) (h : x.reg.notPba) (r : smRunning.apart x) : u.get x = (s.smStored v).get x :=
    moved.reg x h fun y e => e ▸ r
  have burstOn : u.on (CP_SM_CTL_BURST 0) = true := (State.on_congr (field _ (by decide) (by decide))).trans bursts
  have runOn : u.on (CP_SM_CTL_RUN 0) = true := (State.on_congr (field _ (by decide) (by decide))).trans runs
  have started := Frame.smStart u [.sys, .free] (· = smRunning) (by simp) (by simp) rfl
  have later (x : Fld) (h : x.reg.notPba) (r : smRunning.apart x) : u.smStart.get x = u.get x :=
    started.reg x h fun y e => e ▸ r
  rw [State.smWake_of_run runOn stopped]
  refine runsTo_done _ _ _ ⟨?_, ?_, ?_, ?_, ?_⟩
  · rw [on_settle _ _ _ (by decide), State.on_dgStale _ _ (by decide), State.count,
      State.on_set_apart _ _ _ _ (Fld.inWord_of _ rfl) (by decide)]
    exact u.on_smStart
  · rw [on_settle _ _ _ (by decide), State.on_dgStale _ _ (by decide), State.count,
      State.on_set_apart _ _ _ _ (Fld.inWord_of _ rfl) (by decide), State.on_congr (later _ (by decide) (by decide))]
    exact burstOn
  · rw [settle_sys, State.dgStale, State.set_sys, State.count_sys]
    rfl
  · rw [settle_sys, State.dgStale, State.set_sys, State.count_sys, State.smLeft_smStart, if_pos burstOn, State.smBurst,
      field _ (by decide) (by decide), State.get_blen_smStored]
  · rw [get_settle _ _ _ (by decide), State.dgStale, State.get_set_apart _ _ _ _ (Fld.inWord_of _ rfl) (by decide),
      State.get_count _ _ _ (Fld.inWord_of _ rfl), later _ (by decide) (by decide), field _ (by decide) (by decide),
      State.get_stat_smStored _ _ _ rfl]
    rfl

/-! ### The wake target and the end of a burst -/

/-- The state after the wake target has moved on. -/
def State.smMoved (s : State) : State := s.setTime (CP_SM_WT_LO_T_LO 0) (CP_SM_WT_HI_T_HI 0)
  (later (s.getTime (CP_SM_WT_LO_T_LO 0) (CP_SM_WT_HI_T_HI 0)) (usTclk 1000 * s.get (CP_SM_WPER_WPER 0)))

theorem State.smTime_due {s : State} (due : reached s.time (s.getTime (CP_SM_WT_LO_T_LO 0) (CP_SM_WT_HI_T_HI 0)))
    (open_ : s.sys.smWtDone = false) (per : 0 < s.get (CP_SM_WPER_WPER 0)) :
    s.smTime = if s.smMoved.bit (CP_SM_CTL_WSRC 0) 0 then s.smMoved.smWake else s.smMoved := by
  have come : (!reached s.time (s.getTime (CP_SM_WT_LO_T_LO 0) (CP_SM_WT_HI_T_HI 0)) || s.sys.smWtDone) = false := by
    simp [due, open_]
  unfold State.smTime
  dsimp only
  rw [come, if_neg Bool.false_ne_true, if_neg (Nat.pos_iff_ne_zero.1 per), ← State.smMoved]

theorem State.smWakeTime_runs {s : State}
    (due : reached s.time (s.getTime (CP_SM_WT_LO_T_LO 0) (CP_SM_WT_HI_T_HI 0))) (open_ : s.sys.smWtDone = false)
    (per : 0 < s.get (CP_SM_WPER_WPER 0)) : RunsTo (exec .smWakeTime s) fun t =>
      t.getTime (CP_SM_WT_LO_T_LO 0) (CP_SM_WT_HI_T_HI 0) =
        s.getTime (CP_SM_WT_LO_T_LO 0) (CP_SM_WT_HI_T_HI 0) + BitVec.ofNat 56 (1600000 * s.get (CP_SM_WPER_WPER 0)) ∧
      Frame s t [.sys, .free] (fun y => y.reg = CP_SM_WT_LO 0 ∨ y.reg = CP_SM_WT_HI 0 ∨ y.reg = CP_SM_STAT 0) := by
  have target : s.smMoved.getTime (CP_SM_WT_LO_T_LO 0) (CP_SM_WT_HI_T_HI 0) =
      later (s.getTime (CP_SM_WT_LO_T_LO 0) (CP_SM_WT_HI_T_HI 0)) (usTclk 1000 * s.get (CP_SM_WPER_WPER 0)) :=
    State.getTime_setTime _ _ _ _ (Fld.inWord_of _ rfl) (Fld.inWord_of _ rfl) (by decide) rfl rfl
  have moved : Frame s s.smMoved [.sys, .free]
      (fun y => y.reg = CP_SM_WT_LO 0 ∨ y.reg = CP_SM_WT_HI 0 ∨ y.reg = CP_SM_STAT 0) :=
    Frame.setTime _ _ _ _ _ _ (Fld.inWord_of _ rfl) (Fld.inWord_of _ rfl) (.inl rfl) (.inr (.inl rfl))
  have woken : Frame s.smMoved s.smTime [.sys, .free] (· ∈ [smRunning, CP_SM_STAT_WAKES 0]) := by
    rw [State.smTime_due due open_ per]
    exact Frame.ite _ _ _ _ _ _ (Frame.smWake _ _ _ (by simp) (by simp) (by simp) (by simp)) (Frame.refl ..)
  have keeps (x : Fld) (h : x.reg.notPba) (a : (CP_SM_STAT 0).addr ≠ x.reg.addr) : (settle s s.smTime).get x = s.smMoved.get x :=
    (get_settle _ _ _ h).trans (woken.reg x h (by simpa using ⟨.inl a, .inl a⟩))
  refine runsTo_done _ _ _ ⟨?_, (moved.trans (woken.mono (fun _ => id) ?_)).trans (Frame.settle ..)⟩
  · rw [State.getTime_congr (keeps _ (by decide) (by decide)) (keeps _ (by decide) (by decide)), target]
    rfl
  · simp only [List.mem_cons, List.not_mem_nil, or_false]
    rintro y (e | e) <;> exact .inr (.inr (e ▸ rfl))

theorem State.smclkBurstEnd_runs {s : State} (run : s.on smRunning) (last : s.sys.smLeft = some 0) :
    RunsTo (exec .smclkBurstEnd s) fun t =>
      t.on smRunning = false ∧ t.get (CP_SM_CTL_RUN 0) = s.get (CP_SM_CTL_RUN 0) ∧
      t.sys = { s.sys with smNext := none, smLeft := none } ∧ Frame s t [.sys] (· ∈ [smRunning]) := by
  have stop := Frame.smStop s [.sys] (· ∈ [smRunning]) (by simp) (by simp)
  refine runsTo_doneIf _ _ _ _ (by simp [run, last]) ⟨?_, ?_, ?_, stop.trans (Frame.settle ..)⟩
  · rw [on_settle _ _ _ (by decide), State.on_smStop]
  · rw [get_settle _ _ _ (by decide), stop.reg _ (by decide) (by simp; decide)]
  · rw [settle_sys, State.sys_smStop]

/-- Settles O14: the fields stored (`State.smStored`), what the oscillator then does (`State.smFollow`), wakes and ends. -/
theorem sampleClock : Obligations.SampleClock :=
  ⟨fun _ _ now run burst wake => State.smRun_runs now run burst wake, fun _ _ now run => State.smStop_runs now run,
    fun _ _ now wake run burst off => State.smWakeWrite_runs now wake run burst off,
    fun _ due open_ per => State.smWakeTime_runs due open_ per, fun _ run last => State.smclkBurstEnd_runs run last⟩

end Sys2Proof.Machine
end

section
/-! Channels, what the violations leave of the DACs, targets and output codes (R92 to R100). -/

namespace Sys2Proof.Machine

/-! ### Repeated operations that establish something -/

/-- What each step of a run establishes for its item, and no step destroys, holds of every item at the end. -/
theorem foldl_establishes {α β : Type} (f : β → α → β) (I : β → Prop) (P : α → β → Prop) (l : List α)
    (keep : ∀ b, I b → ∀ a ∈ l, I (f b a)) (get : ∀ b, I b → ∀ a ∈ l, P a (f b a))
    (hold : ∀ b, I b → ∀ a ∈ l, ∀ c ∈ l, P c b → P c (f b a)) (b : β) (start : I b) :
    I (l.foldl f b) ∧ ∀ a ∈ l, P a (l.foldl f b) := by
  have tail : ∀ m : List α, (∀ a ∈ m, a ∈ l) → ∀ b, I b → ∀ c ∈ l, P c b → P c (m.foldl f b) := by
    intro m
    induction m with
    | nil => exact fun _ _ _ _ _ h => h
    | cons a m ih =>
      exact fun sub b hb c hc h => ih (fun x hx => sub x (List.mem_cons_of_mem _ hx)) _
        (keep b hb a (sub a List.mem_cons_self)) c hc (hold b hb a (sub a List.mem_cons_self) c hc h)
  have all : ∀ m : List α, (∀ a ∈ m, a ∈ l) → ∀ b, I b → I (m.foldl f b) ∧ ∀ a ∈ m, P a (m.foldl f b) := by
    intro m
    induction m with
    | nil => exact fun _ _ hb => ⟨hb, fun _ h => nomatch h⟩
    | cons a m ih =>
      intro sub b hb
      have here := sub a List.mem_cons_self
      have rest := fun x hx => sub x (List.mem_cons_of_mem a hx)
      obtain ⟨inv, done⟩ := ih rest _ (keep b hb a here)
      refine ⟨inv, fun c hc => ?_⟩
      rcases List.mem_cons.1 hc with rfl | hc
      · exact tail m rest _ (keep b hb c here) c here (get b hb c here)
      · exact done c hc
  exact all l (fun _ => id) b start

/-! ### Channels -/

theorem State.chan_eq (s : State) (g p : Nat) : s.chan g p = vget (s.group g).chans p .reset := rfl

theorem State.setChan_eq (s : State) (g : Nat) {p : Nat} (x : Chan) (h : p < 16) :
    s.setChan g p x = s.setGroup g { s.group g with chans := vset (s.group g).chans p x } := by
  rw [State.setChan, dif_pos h, vset, dif_pos h]

theorem State.chan_setChan (s : State) {g p : Nat} (x : Chan) (hg : g < 32) (hp : p < 16) : (s.setChan g p x).chan g p = x := by
  rw [State.chan_eq, State.setChan_eq s g x hp, State.group_setGroup _ _ _ hg]
  exact vget_vset _ _ _ _ hp

theorem State.chan_setChan_ne (s : State) {g p k q : Nat} (x : Chan) (h : ¬(g = k ∧ p = q)) :
    (s.setChan g p x).chan k q = s.chan k q := by
  by_cases hp : p < 16
  · by_cases hg : g = k
    · subst hg
      have hq : p ≠ q := fun e => h ⟨rfl, e⟩
      by_cases small : g < 32
      · rw [State.chan_eq, State.chan_eq, State.setChan_eq s g x hp, State.group_setGroup _ _ _ small]
        exact vget_vset_ne _ _ _ _ _ hq
      · rw [State.setChan_eq s g x hp, State.setGroup, dif_neg small]
    · rw [State.chan_eq, State.chan_eq, State.setChan_eq s g x hp, State.group_setGroup_ne _ _ _ _ hg]
  · rw [State.setChan, dif_neg hp]

theorem State.chan_set (s : State) (x : Fld) (v g p : Nat) : (s.set x v).chan g p = s.chan g p := rfl

/-- Beside its channels the groups are the same. -/
def SameRest (s t : State) : Prop := ∀ k, { t.group k with chans := (s.group k).chans } = s.group k

theorem SameRest.refl (s : State) : SameRest s s := fun _ => rfl

theorem SameRest.of_groups {s t : State} (h : t.groups = s.groups) : SameRest s t := fun k => by
  rw [State.group_congr h k]

theorem SameRest.trans {s t u : State} (h : SameRest s t) (k : SameRest t u) : SameRest s u := fun g => by
  have a := h g
  have b := k g
  rw [← b] at a
  exact a

/-- A field of the groups beside the channels. -/
theorem SameRest.field {s t : State} {α : Type} (h : SameRest s t) (f : Group → α) (hf : ∀ x c, f { x with chans := c } = f x)
    (k : Nat) : f (t.group k) = f (s.group k) := (hf (t.group k) (s.group k).chans).symm.trans (congrArg f (h k))

theorem SameRest.setChan (s : State) (g p : Nat) (x : Chan) : SameRest s (s.setChan g p x) := fun k => by
  unfold State.setChan
  split
  · by_cases e : g = k
    · subst e
      by_cases small : g < 32
      · rw [State.group_setGroup _ _ _ small]
      · simp [State.setGroup, small]
    · rw [State.group_setGroup_ne _ _ _ _ e]
  · rfl

/-! ### What the violations and PARK leave of the DACs -/

/-- The DACs and what gives their targets beside the registers are the same. -/
structure SameDacs (s t : State) : Prop where
  rest : SameRest s t
  dacs : ∀ g p, (t.chan g p).dacs = (s.chan g p).dacs
  clear : t.sys.clrN = s.sys.clrN

theorem SameDacs.refl (s : State) : SameDacs s s := ⟨.refl s, fun _ _ => rfl, rfl⟩

theorem SameDacs.trans {s t u : State} (h : SameDacs s t) (k : SameDacs t u) : SameDacs s u :=
  ⟨h.rest.trans k.rest, fun g p => (k.dacs g p).trans (h.dacs g p), k.clear.trans h.clear⟩

theorem State.chan_congr {s t : State} (h : t.groups = s.groups) (g p : Nat) : t.chan g p = s.chan g p := by
  unfold State.chan
  rw [State.group_congr h]

theorem SameDacs.of_groups {s t : State} (h : t.groups = s.groups) (c : t.sys.clrN = s.sys.clrN) : SameDacs s t :=
  ⟨.of_groups h, fun g p => by rw [State.chan_congr h], c⟩

theorem SameDacs.set (s : State) (x : Fld) (v : Nat) : SameDacs s (s.set x v) := .of_groups rfl rfl

theorem SameDacs.setChan (s : State) (g p : Nat) (x : Chan) (h : x.dacs = (s.chan g p).dacs) : SameDacs s (s.setChan g p x) := by
  refine ⟨.setChan s g p x, fun k q => ?_, by rw [State.setChan_sys]⟩
  by_cases here : g = k ∧ p = q
  · obtain ⟨rfl, rfl⟩ := here
    by_cases hp : p < 16
    · by_cases hg : g < 32
      · rw [State.chan_setChan s x hg hp, h]
      · simp [State.setChan, State.setGroup, hp, hg]
    · rw [State.setChan, dif_neg hp]
  · rw [State.chan_setChan_ne s x here]

theorem SameDacs.forEach (s : State) (l : List Nat) (f : State → Nat → State) (h : ∀ t i, SameDacs t (f t i)) :
    SameDacs s (s.forEach l f) :=
  State.forEach_holds (SameDacs s) f (fun t i k => k.trans (h t i)) s l (.refl s)

theorem SameDacs.parkUpdate (s : State) (g p : Nat) : SameDacs s (s.parkUpdate g p) := by
  unfold State.parkUpdate
  dsimp only
  split
  · split
    · exact .setChan s g p _ (by rfl)
    · exact (SameDacs.setChan s g p _ (by rfl)).trans (.set ..)
  · split
    · exact .setChan s g p _ (by rfl)
    · exact .refl s

theorem SameDacs.parkGroup (s : State) (g : Nat) : SameDacs s (s.parkGroup g) := .forEach _ _ _ fun t p => .parkUpdate t g p

theorem SameDacs.setTrip (s : State) (n : Nat) (x : Option (Nat × Bool)) : SameDacs s (s.setTrip n x) := .of_groups rfl rfl

theorem SameDacs.tripNetwork (s : State) (k : Nat) : SameDacs s (s.tripNetwork k) := by
  unfold State.tripNetwork State.parkDie
  refine (SameDacs.forEach s _ _ fun t n => ?_).trans (.forEach _ _ _ fun t i => .parkGroup t _)
  have shown : SameDacs t (t.setBit (CP_TGSTAT_VIOL (8 * k)) n (t.violSource k n).isSome) := .set ..
  dsimp only
  generalize t.setBit (CP_TGSTAT_VIOL (8 * k)) n (t.violSource k n).isSome = u at shown
  split
  · split
    · exact shown.trans (.setTrip ..)
    · exact shown
  · exact shown

theorem SameDacs.violUpdate (s : State) (g p : Nat) : SameDacs s (s.violUpdate g p) := by
  unfold State.violUpdate
  dsimp only
  split
  · exact .refl s
  · exact (SameDacs.set s _ _).trans (.tripNetwork ..)

theorem SameDacs.setCmp (s : State) (g p : Nat) (x : Comparator) : SameDacs s (s.setCmp g p x) := .setChan s g p _ (by rfl)

theorem SameDacs.noteOut (s : State) (g p d : Nat) :
    SameDacs s (s.setChan g p (if d = 0 ∨ d = 1 ∨ d = 4 then { s.chan g p with lastOut := some s.time } else s.chan g p)) :=
  .setChan s g p _ (by split <;> rfl)

theorem SameDacs.setOut (s : State) (g p d code : Nat) : SameDacs s (s.setOut g p d code) := by
  unfold State.setOut
  split
  · exact .refl s
  extract_lets u c e v
  have noted : SameDacs s v := (SameDacs.set s (LS_OUT_CODE g p d) code).trans (.noteOut u g p d)
  clear_value v
  split
  · exact (noted.trans (.setCmp ..)).trans (.violUpdate ..)
  · exact noted

/-! ### The target of a DAC -/

theorem State.dieGet_lt (s : State) (x : Fld) : s.dieGet x < 2 ^ (x.hi + 1 - x.lo) := fieldOf_lt ..

theorem levelCode_half (g p l d : Nat) : (levelCode g p l d).hi = 15 ∧ (levelCode g p l d).lo = 0 := by
  unfold levelCode
  split <;> exact ⟨rfl, rfl⟩

theorem State.dieGet_levelCode_lt (s : State) (g p l d : Nat) : s.dieGet (levelCode g p l d) < 65536 := by
  obtain ⟨hi, lo⟩ := levelCode_half g p l d
  have small := s.dieGet_lt (levelCode g p l d)
  rw [hi, lo] at small
  exact small

theorem State.targetCode_lt (s : State) (g p d : Nat) : s.targetCode g p d < 65536 := by
  unfold State.targetCode
  split
  · exact s.get_lt (LS_CLR_CODE g p d)
  split
  · exact (s.dac g p d).boot.isLt
  split
  · exact s.dieGet_levelCode_lt ..
  split
  · next o _ => exact o.2.2.isLt
  · exact s.dieGet_levelCode_lt ..

/-- What gives the targets of the DACs is the same. -/
structure SameTargets (s t : State) : Prop where
  rest : SameRest s t
  boot : ∀ g p d, (t.dac g p d).boot = (s.dac g p d).boot
  clear : t.sys.clrN = s.sys.clrN
  die : t.die = s.die
  code : ∀ g p d, g < 32 → p < 16 → d < 6 → t.get (LS_CLR_CODE g p d) = s.get (LS_CLR_CODE g p d)
  sel : ∀ g < 32, t.get (LS_SELSTAT_SEL g) = s.get (LS_SELSTAT_SEL g)

theorem SameTargets.refl (s : State) : SameTargets s s :=
  ⟨.refl s, fun _ _ _ => rfl, rfl, rfl, fun _ _ _ _ _ _ => rfl, fun _ _ => rfl⟩

theorem SameTargets.trans {s t u : State} (h : SameTargets s t) (k : SameTargets t u) : SameTargets s u :=
  ⟨h.rest.trans k.rest, fun g p d => (k.boot g p d).trans (h.boot g p d), k.clear.trans h.clear, k.die.trans h.die,
    fun g p d hg hp hd => (k.code g p d hg hp hd).trans (h.code g p d hg hp hd), fun g hg => (k.sel g hg).trans (h.sel g hg)⟩

theorem SameTargets.targetCode {s t : State} (h : SameTargets s t) {g p d : Nat} (hg : g < 32) (hp : p < 16) (hd : d < 6) :
    t.targetCode g p d = s.targetCode g p d := by
  have clr : t.clrLow g = s.clrLow g := by rw [State.clrLow, State.clrLow, h.clear]
  have pre : (t.group g).preCommit = (s.group g).preCommit :=
    h.rest.field Group.preCommit (fun _ _ => rfl) g
  have own : (t.group g).wpOwn = (s.group g).wpOwn := h.rest.field Group.wpOwn (fun _ _ => rfl) g
  have test : t.testSet g p d = s.testSet g p d := by
    rw [State.testSet, State.testSet, show (t.group g).tdr = (s.group g).tdr from h.rest.field Group.tdr (fun _ _ => rfl) g,
      show (t.group g).dsk = (s.group g).dsk from h.rest.field Group.dsk (fun _ _ => rfl) g]
  have level (l : Nat) : t.dieGet (levelCode g p l d) = s.dieGet (levelCode g p l d) := by
    rw [State.dieGet, State.dieGet, h.die]
  simp only [State.targetCode, clr, pre, own, test, level, h.code g p d hg hp hd, h.sel g hg, h.boot]

theorem State.dac_eq (s : State) (g p d : Nat) : s.dac g p d = vget (s.chan g p).dacs d .reset := rfl

theorem SameDacs.dac {s t : State} (h : SameDacs s t) (g p d : Nat) : t.dac g p d = s.dac g p d := by
  rw [State.dac_eq, State.dac_eq, h.dacs]

/-- The registers that give targets are none of those that an output or a violation of group g changes. -/
theorem violField_apart {g k : Nat} {y : Fld} (h : violField g y) :
    (∀ p d, p < 16 → d < 6 → y.apart (LS_CLR_CODE k p d)) ∧ y.apart (LS_SELSTAT_SEL k) := by
  rcases h with e | e | ⟨i, hi, e⟩ <;> subst e
  · exact ⟨fun p d hp hd => .inl (by simp only [CP_STATUS_VIOL, CP_STATUS, LS_CLR_CODE, LS_CLR, groupBase]; omega),
      .inl (by simp only [CP_STATUS_VIOL, CP_STATUS, LS_SELSTAT_SEL, LS_SELSTAT, groupBase]; omega)⟩
  · exact ⟨fun p d hp hd => .inl (by simp only [CP_TGSTAT_VIOL, CP_TGSTAT, LS_CLR_CODE, LS_CLR, groupBase]; omega),
      .inl (by simp only [CP_TGSTAT_VIOL, CP_TGSTAT, LS_SELSTAT_SEL, LS_SELSTAT, groupBase]; omega)⟩
  · exact ⟨fun p d hp hd => .inl (by simp only [LS_PARKSTAT_PARKED, LS_PARKSTAT, LS_CLR_CODE, LS_CLR, groupBase]; omega),
      .inl (by simp only [LS_PARKSTAT_PARKED, LS_PARKSTAT, LS_SELSTAT_SEL, LS_SELSTAT, groupBase]; omega)⟩

/-- The fields that a change of one output code may change. -/
def outputField (g p d : Nat) (y : Fld) : Prop := y = LS_OUT_CODE g p d ∨ violField g y

theorem outputField_apart {g p d k : Nat} (hp : p < 16) (hd : d < 6) {y : Fld}
    (h : outputField g p d y) : (∀ q e, q < 16 → e < 6 → y.apart (LS_CLR_CODE k q e)) ∧ y.apart (LS_SELSTAT_SEL k) := by
  rcases h with e | h
  · subst e
    exact ⟨fun q e hq he => .inl (by simp only [LS_OUT_CODE, LS_OUT, LS_CLR_CODE, LS_CLR, groupBase]; omega),
      .inl (by simp only [LS_OUT_CODE, LS_OUT, LS_SELSTAT_SEL, LS_SELSTAT, groupBase]; omega)⟩
  · exact violField_apart h

theorem Reg.notPba_group {g a : Nat} (hg : g < 32) (r : Reg) (h : r.addr = groupBase g + a) : r.notPba :=
  .inr (by rw [h, groupBase]; omega)

/-- A change of outputs keeps the targets where it keeps their boot codes. -/
theorem SameTargets.of_frame {s t : State} {g p d : Nat} (f : Frame s t [.groups, .sys] (outputField g p d)) (rest : SameRest s t)
    (boot : ∀ g p d, (t.dac g p d).boot = (s.dac g p d).boot) (clear : t.sys.clrN = s.sys.clrN) (hp : p < 16)
    (hd : d < 6) : SameTargets s t :=
  ⟨rest, boot, clear, f.part .die (by simp),
    fun k q e hk hq he => f.reg _ (.inr (by simp only [LS_CLR_CODE, LS_CLR, groupBase]; omega))
      fun y hy => (outputField_apart hp hd hy).1 q e hq he,
    fun k hk => f.reg _ (.inr (by simp only [LS_SELSTAT_SEL, LS_SELSTAT, groupBase]; omega))
      fun y hy => (outputField_apart hp hd hy).2⟩

theorem Frame.setOutput (s : State) (g p d code : Nat) : Frame s (s.setOut g p d code) [.groups, .sys] (outputField g p d) :=
  Frame.setOut s _ _ g p d code (by simp) (.inl rfl) fun _ => ⟨by simp, fun _ h => .inr h⟩

theorem SameTargets.setOut (s : State) {g p d : Nat} (code : Nat) (hp : p < 16) (hd : d < 6) :
    SameTargets s (s.setOut g p d code) :=
  have kept := SameDacs.setOut s g p d code
  .of_frame (Frame.setOutput s g p d code) kept.rest (fun g p d => by rw [kept.dac]) kept.clear hp hd

/-! ### Setting a DAC -/

theorem State.dac_setDac (s : State) {g p d : Nat} (x : Dac) (hg : g < 32) (hp : p < 16) (hd : d < 6) :
    (s.setDac g p d x).dac g p d = x := by
  rw [State.dac_eq, State.setDac, State.chan_setChan _ _ hg hp]
  exact vget_vset _ _ _ _ hd

theorem State.dac_setDac_ne (s : State) {g p d k q e : Nat} (x : Dac) (h : ¬(g = k ∧ p = q ∧ d = e)) :
    (s.setDac g p d x).dac k q e = s.dac k q e := by
  rw [State.dac_eq, State.setDac]
  by_cases here : g = k ∧ p = q
  · obtain ⟨rfl, rfl⟩ := here
    have other : d ≠ e := fun e => h ⟨rfl, rfl, e⟩
    by_cases hp : p < 16
    · by_cases hg : g < 32
      · rw [State.chan_setChan _ _ hg hp]
        exact vget_vset_ne _ _ _ _ _ other
      · rw [State.setChan_eq _ _ _ hp, State.setGroup, dif_neg hg]
        rfl
    · rw [State.setChan, dif_neg hp]
      rfl
  · rw [State.chan_setChan_ne _ _ here]
    rfl

theorem SameTargets.setDac (s : State) {g p d : Nat} (x : Dac) (boot : x.boot = (s.dac g p d).boot) (hg : g < 32) (hp : p < 16)
    (hd : d < 6) : SameTargets s (s.setDac g p d x) := by
  refine .of_frame (g := g) (p := p) (d := d) (Frame.setDac s _ _ g p d x (by simp)) (.setChan s g p _) (fun k q e => ?_)
    (by rw [State.setDac, State.setChan_sys]) hp hd
  by_cases here : g = k ∧ p = q ∧ d = e
  · obtain ⟨rfl, rfl, rfl⟩ := here
    rw [State.dac_setDac s x hg hp hd, boot]
  · rw [State.dac_setDac_ne s x here]

/-! ### The output follows -/

/-- What `follow` does: a DAC with the target in force, and perhaps the output code. -/
theorem State.follow_form (s : State) (g p d : Nat) : ∃ x : Dac, x.tgt = BitVec.ofNat 16 (s.targetCode g p d) ∧
    x.boot = (s.dac g p d).boot ∧
    (s.follow g p d = s.setDac g p d x ∨ s.follow g p d = (s.setDac g p d x).setOut g p d (s.targetCode g p d)) := by
  unfold State.follow
  dsimp only
  split
  · exact ⟨_, by rfl, by rfl, .inl rfl⟩
  split
  · exact ⟨_, by rfl, by rfl, .inl rfl⟩
  split
  · exact ⟨_, by rfl, by rfl, .inr rfl⟩
  · exact ⟨_, by rfl, by rfl, .inl rfl⟩

theorem Frame.followOut (s : State) (g p d : Nat) : Frame s (s.follow g p d) [.groups, .sys] (outputField g p d) :=
  Frame.follow s _ _ g p d (by simp) (.inl rfl) fun _ => ⟨by simp, fun _ h => .inr h⟩

theorem State.follow_sets (s : State) {g p d : Nat} (hg : g < 32) (hp : p < 16) (hd : d < 6) :
    SameTargets s (s.follow g p d) ∧ ((s.follow g p d).dac g p d).tgt.toNat = s.targetCode g p d ∧
      ∀ k q e, ¬(g = k ∧ p = q ∧ d = e) → (s.follow g p d).dac k q e = s.dac k q e := by
  obtain ⟨x, tgt, boot, form⟩ := s.follow_form g p d
  have taken : x.tgt.toNat = s.targetCode g p d := by
    rw [tgt, BitVec.toNat_ofNat]
    exact Nat.mod_eq_of_lt (s.targetCode_lt g p d)
  have first := SameTargets.setDac s x boot hg hp hd
  rcases form with e | e
  · rw [e]
    exact ⟨first, by rw [State.dac_setDac s x hg hp hd, taken], fun k q e h => s.dac_setDac_ne x h⟩
  · have kept := SameDacs.setOut (s.setDac g p d x) g p d (s.targetCode g p d)
    rw [e]
    exact ⟨first.trans (.setOut _ _ hp hd), by rw [kept.dac, State.dac_setDac s x hg hp hd, taken],
      fun k q e h => by rw [kept.dac, State.dac_setDac_ne s x h]⟩

theorem State.retarget_sets (s : State) {g p d : Nat} (hg : g < 32) (hp : p < 16) (hd : d < 6) :
    SameTargets s (s.retarget g p d) ∧ ((s.retarget g p d).dac g p d).tgt.toNat = s.targetCode g p d ∧
      ∀ k q e, ¬(g = k ∧ p = q ∧ d = e) → (s.retarget g p d).dac k q e = s.dac k q e := by
  unfold State.retarget
  split
  · next h => exact ⟨.refl s, h.symm, fun _ _ _ _ => rfl⟩
  · exact s.follow_sets hg hp hd

/-! ### Output codes -/

theorem violField_apart_out {g k q e : Nat} (hq : q < 16) (he : e < 6) {y : Fld} (h : violField g y) :
    y.apart (LS_OUT_CODE k q e) := by
  rcases h with f | f | ⟨i, hi, f⟩ <;> subst f
  · exact .inl (by simp only [CP_STATUS_VIOL, CP_STATUS, LS_OUT_CODE, LS_OUT, groupBase]; omega)
  · exact .inl (by simp only [CP_TGSTAT_VIOL, CP_TGSTAT, LS_OUT_CODE, LS_OUT, groupBase]; omega)
  · exact .inl (by simp only [LS_PARKSTAT_PARKED, LS_PARKSTAT, LS_OUT_CODE, LS_OUT, groupBase]; omega)

theorem State.notPba_out (g p d : Nat) : (LS_OUT_CODE g p d).reg.notPba :=
  .inr (by simp only [LS_OUT_CODE, LS_OUT, groupBase]; omega)

/-- Beside the violations a change of an output code only sets it. -/
theorem State.get_setOut (s : State) (g p d code : Nat) (x : Fld) (h : x.reg.notPba) (a : ∀ y, violField g y → y.apart x) :
    (s.setOut g p d code).get x = if s.outCode g p d = code then s.get x else (s.set (LS_OUT_CODE g p d) code).get x := by
  unfold State.setOut
  split
  · rfl
  extract_lets u c e v
  have kept : v.get x = u.get x := State.get_setChan ..
  clear_value v
  split
  · exact ((Frame.violUpdate (v.setCmp g p _) [.groups, .sys] (violField g) g p (by simp) (by simp) (fun _ => id)).reg x h
      a).trans ((State.get_setChan ..).trans kept)
  · exact kept

theorem State.outCode_setOut (s : State) {g p d code : Nat} (hp : p < 16) (hd : d < 6) (small : code < 65536) :
    (s.setOut g p d code).outCode g p d = code := by
  rw [State.outCode, s.get_setOut g p d code _ (State.notPba_out ..) fun y => violField_apart_out hp hd]
  split
  · assumption
  · rw [State.get_set _ _ _ (Fld.inWord_of _ rfl)]
    exact Nat.mod_eq_of_lt small

theorem State.outCode_setOut_ne (s : State) {g p d k q e : Nat} (code : Nat) (hp : p < 16) (hd : d < 6) (hq : q < 16)
    (he : e < 6) (h : ¬(g = k ∧ p = q ∧ d = e)) : (s.setOut g p d code).outCode k q e = s.outCode k q e := by
  rw [State.outCode, s.get_setOut g p d code _ (State.notPba_out ..) fun y => violField_apart_out hq he]
  have other : (LS_OUT_CODE g p d).apart (LS_OUT_CODE k q e) :=
    .inl (by simp only [LS_OUT_CODE, LS_OUT, groupBase]; omega)
  rw [State.get_set_apart _ _ _ _ (Fld.inWord_of _ rfl) other, ite_self]
  rfl

theorem State.outCode_setDac (s : State) (g p d : Nat) (x : Dac) (k q e : Nat) :
    (s.setDac g p d x).outCode k q e = s.outCode k q e := State.get_setChan ..

end Sys2Proof.Machine
end

section
/-! The clear and release instants, clear codes and rails (R99, R100, R102). -/

namespace Sys2Proof.Machine

/-! ### A comparator re-arm -/

/-- What a re-arm of a comparator may change. -/
def rearmField (g p : Nat) (y : Fld) : Prop := y = CP_STATUS_VALID g ∨ y = ⟨CP_STATE g, 2 * p + 1, 2 * p⟩ ∨ violField g y

theorem Frame.setCmp (s : State) (ps : List Part) (w : Fld → Prop) (g p : Nat) (x : Comparator) (h : Part.groups ∈ ps) :
    Frame s (s.setCmp g p x) ps w := Frame.setChan s ps w _ _ _ h

theorem Frame.laneUpdate (s : State) (ps : List Part) (w : Fld → Prop) (g p : Nat) (t : Tick) (h : Part.groups ∈ ps) :
    Frame s (s.laneUpdate g p t) ps w := by
  unfold State.laneUpdate
  dsimp only
  split
  · exact Frame.refl ..
  · exact Frame.setCmp _ _ _ _ _ _ h

theorem State.inWord_state {p : Nat} (g : Nat) (h : p < 16) : Fld.inWord ⟨CP_STATE g, 2 * p + 1, 2 * p⟩ := by
  constructor <;> dsimp only <;> omega

theorem Frame.showState (s : State) (ps : List Part) (w : Fld → Prop) (g p : Nat) (hp : p < 16)
    (h : w ⟨CP_STATE g, 2 * p + 1, 2 * p⟩) : Frame s (s.showState g p) ps w :=
  Frame.set _ _ _ _ _ (State.inWord_state g hp) h

theorem Frame.rearmOnly (s : State) (g p : Nat) (hp : p < 16) : Frame s (s.rearmOnly g p) [.groups] (rearmField g p) :=
  (((Frame.setCmp s _ _ _ _ _ (by simp)).trans (Frame.setBit _ _ _ _ _ _ (Fld.inWord_of _ rfl) (.inl rfl))).trans
    (Frame.showState _ _ _ _ _ hp (.inr (.inl rfl)))).trans (Frame.laneUpdate _ _ _ _ _ _ (by simp))

theorem Frame.rearm (s : State) (g p : Nat) (hp : p < 16) : Frame s (s.rearm g p) [.groups, .sys] (rearmField g p) :=
  ((Frame.rearmOnly s g p hp).mono (by simp) (fun _ => id)).trans
    (Frame.violUpdate _ _ _ _ _ (by simp) (by simp) fun _ h => .inr (.inr h))

theorem SameDacs.laneUpdate (s : State) (g p : Nat) (t : Tick) : SameDacs s (s.laneUpdate g p t) := by
  unfold State.laneUpdate
  dsimp only
  split
  · exact .refl s
  · exact .setCmp ..

theorem SameDacs.rearm (s : State) (g p : Nat) : SameDacs s (s.rearm g p) :=
  ((((SameDacs.setCmp s g p _).trans (.set ..)).trans (.set ..)).trans (.laneUpdate ..)).trans (.violUpdate ..)

theorem rearmField_apart_out {g p k q e : Nat} (hq : q < 16) (he : e < 6) {y : Fld} (h : rearmField g p y) :
    y.apart (LS_OUT_CODE k q e) := by
  rcases h with f | f | h
  · subst f
    exact .inl (by simp only [CP_STATUS_VALID, CP_STATUS, LS_OUT_CODE, LS_OUT, groupBase]; omega)
  · subst f
    exact .inl (by simp only [CP_STATE, LS_OUT_CODE, LS_OUT, groupBase]; omega)
  · exact violField_apart_out hq he h

theorem rearmField_apart_clr {g p k q e : Nat} (hq : q < 16) (he : e < 6) {y : Fld} (h : rearmField g p y) :
    y.apart (LS_CLR_CODE k q e) := by
  rcases h with f | f | h
  · subst f
    exact .inl (by simp only [CP_STATUS_VALID, CP_STATUS, LS_CLR_CODE, LS_CLR, groupBase]; omega)
  · subst f
    exact .inl (by simp only [CP_STATE, LS_CLR_CODE, LS_CLR, groupBase]; omega)
  · exact (violField_apart h).1 q e hq he

theorem violField_apart_valid {g k : Nat} {y : Fld} (h : violField g y) : y.apart (CP_STATUS_VALID k) := by
  rcases h with f | f | ⟨i, hi, f⟩ <;> subst f
  · by_cases e : g = k
    · subst e
      exact Fld.apart_of _ _ (by rfl) (by rfl)
    · exact .inl (by simp only [CP_STATUS_VIOL, CP_STATUS_VALID, CP_STATUS, groupBase]; omega)
  · exact .inl (by simp only [CP_TGSTAT_VIOL, CP_TGSTAT, CP_STATUS_VALID, CP_STATUS, groupBase]; omega)
  · exact .inl (by simp only [LS_PARKSTAT_PARKED, LS_PARKSTAT, CP_STATUS_VALID, CP_STATUS, groupBase]; omega)

theorem State.notPba_valid (g : Nat) : (CP_STATUS_VALID g).reg.notPba :=
  .inr (by simp only [CP_STATUS_VALID, CP_STATUS, groupBase]; omega)

theorem State.bit_of_get {s t : State} {x : Fld} (h : t.get x = s.get x) (i : Nat) : t.bit x i = s.bit x i := by
  rw [State.bit, State.bit, h]

/-- What follows the VALID bit in a re-arm leaves it. -/
theorem State.get_valid_shown (s : State) (g p k : Nat) (t : Tick) (hp : p < 16) :
    (((s.showState g p).laneUpdate g p t).violUpdate g p).get (CP_STATUS_VALID k) = s.get (CP_STATUS_VALID k) := by
  have shown := ((Frame.showState s [.groups, .sys] (fun y => y = ⟨CP_STATE g, 2 * p + 1, 2 * p⟩ ∨ violField g y) g p hp
    (.inl rfl)).trans (Frame.laneUpdate _ _ _ g p t (by simp))).trans
    (Frame.violUpdate _ _ _ g p (by simp) (by simp) fun _ h => .inr h)
  refine shown.reg _ (State.notPba_valid k) fun y hy => ?_
  rcases hy with f | h
  · subst f
    exact .inl (by simp only [CP_STATE, CP_STATUS_VALID, CP_STATUS, groupBase]; omega)
  · exact violField_apart_valid h

/-- A re-arm clears VALID of its channel alone. -/
theorem State.cmpValid_rearm (s : State) (g p k : Nat) {q : Nat} (hp : p < 16) (hq : q < 16) :
    (s.rearm g p).cmpValid k q = if g = k ∧ p = q then false else s.cmpValid k q := by
  rw [State.cmpValid, State.rearm, State.rearmOnly, State.bit_of_get (State.get_valid_shown _ g p k _ hp)]
  have before (c : Comparator) : (s.setCmp g p c).bit (CP_STATUS_VALID k) q = s.cmpValid k q :=
    State.bit_of_get (State.get_setChan ..) q
  by_cases e : g = k
  · subst e
    rw [State.bit_setBit _ _ _ _ _ (Fld.inWord_of _ rfl) hq]
    simp only [true_and, before]
  · have other : (CP_STATUS_VALID g).apart (CP_STATUS_VALID k) :=
      .inl (by simp only [CP_STATUS_VALID, CP_STATUS, groupBase]; omega)
    rw [State.bit_setBit_apart _ _ _ _ _ _ (Fld.inWord_of _ rfl) other, if_neg (fun h => e h.1), before]

/-! ### The clear instant -/

/-- A clear of the outputs of one channel. -/
def State.clearChan (s : State) (g p : Nat) : State := (s.forEach (List.range 6) fun s d => s.clearDac g p d).rearm g p

theorem Frame.clearDac (s : State) (g p d : Nat) : Frame s (s.clearDac g p d) [.groups, .sys] (outputField g p d) :=
  (Frame.setDac s _ _ _ _ _ _ (by simp)).trans (Frame.setOutput ..)

theorem State.outCode_clearDac (s : State) {g p d : Nat} (hp : p < 16) (hd : d < 6) :
    (s.clearDac g p d).outCode g p d = s.get (LS_CLR_CODE g p d) :=
  State.outCode_setOut _ hp hd (s.get_lt (LS_CLR_CODE g p d))

theorem State.outCode_clearDac_ne (s : State) {g p d k q e : Nat} (hp : p < 16) (hd : d < 6) (hq : q < 16) (he : e < 6)
    (h : ¬(g = k ∧ p = q ∧ d = e)) : (s.clearDac g p d).outCode k q e = s.outCode k q e :=
  (State.outCode_setOut_ne _ _ hp hd hq he h).trans (State.outCode_setDac ..)

theorem State.clrN_clearDac (s : State) (g p d : Nat) : (s.clearDac g p d).sys.clrN = s.sys.clrN :=
  (SameDacs.setOut ..).clear.trans (by rw [State.setDac, State.setChan_sys])

/-- The clear codes and CLR_N, which the clear instant reads, are the same. -/
structure SameClear (s t : State) : Prop where
  code : ∀ g p d, g < 32 → p < 16 → d < 6 → t.get (LS_CLR_CODE g p d) = s.get (LS_CLR_CODE g p d)
  clrN : t.sys.clrN = s.sys.clrN
  frame : Frame s t [.groups, .sys] (groupRegs 0x4000 0x7000)

theorem SameClear.trans {s t u : State} (h : SameClear s t) (k : SameClear t u) : SameClear s u :=
  ⟨fun g p d hg hp hd => (k.code g p d hg hp hd).trans (h.code g p d hg hp hd), k.clrN.trans h.clrN, h.frame.trans k.frame⟩

theorem groupRegs_viol {g : Nat} {y : Fld} (h : violField g y) : groupRegs 0x4000 0x7000 y := by
  rcases h with f | f | ⟨i, hi, f⟩ <;> subst f
  · exact ⟨g, by simp only [CP_STATUS_VIOL, CP_STATUS]; omega⟩
  · exact ⟨8 * (g / 8), by simp only [CP_TGSTAT_VIOL, CP_TGSTAT]; omega⟩
  · exact ⟨8 * (g / 8) + i, by simp only [LS_PARKSTAT_PARKED, LS_PARKSTAT]; omega⟩

theorem groupRegs_output {g p d : Nat} (hp : p < 16) (hd : d < 6) {y : Fld} (h : outputField g p d y) :
    groupRegs 0x4000 0x7000 y := by
  rcases h with f | h
  · subst f
    exact ⟨g, by simp only [LS_OUT_CODE, LS_OUT]; omega⟩
  · exact groupRegs_viol h

theorem groupRegs_rearm {g p : Nat} {y : Fld} (h : rearmField g p y) : groupRegs 0x4000 0x7000 y := by
  rcases h with f | f | h
  · subst f
    exact ⟨g, by simp only [CP_STATUS_VALID, CP_STATUS]; omega⟩
  · subst f
    exact ⟨g, by simp only [CP_STATE]; omega⟩
  · exact groupRegs_viol h

theorem SameClear.clearDac (s : State) {g p d : Nat} (hp : p < 16) (hd : d < 6) : SameClear s (s.clearDac g p d) :=
  ⟨fun k q e hk hq he => (Frame.clearDac s g p d).reg _ (.inr (by simp only [LS_CLR_CODE, LS_CLR, groupBase]; omega))
      fun y hy => (outputField_apart hp hd hy).1 q e hq he,
    s.clrN_clearDac g p d, (Frame.clearDac s g p d).mono (fun _ => id) fun y => groupRegs_output hp hd⟩

theorem SameClear.rearm (s : State) {g p : Nat} (hp : p < 16) : SameClear s (s.rearm g p) :=
  ⟨fun k q e hk hq he => (Frame.rearm s g p hp).reg _ (.inr (by simp only [LS_CLR_CODE, LS_CLR, groupBase]; omega))
      fun y hy => rearmField_apart_clr hq he hy,
    (SameDacs.rearm s g p).clear, (Frame.rearm s g p hp).mono (fun _ => id) fun y => groupRegs_rearm⟩

/-- Beside channel p of group g the outputs and VALID are the same. -/
def OthersStand (s t : State) (g p : Nat) : Prop :=
  ∀ k q, q < 16 → ¬(g = k ∧ p = q) → (∀ e < 6, t.outCode k q e = s.outCode k q e) ∧ t.cmpValid k q = s.cmpValid k q

theorem OthersStand.trans {s t u : State} {g p : Nat} (h : OthersStand s t g p) (k : OthersStand t u g p) : OthersStand s u g p :=
  fun g' q hq ne => ⟨fun e he => ((k g' q hq ne).1 e he).trans ((h g' q hq ne).1 e he), (k g' q hq ne).2.trans (h g' q hq ne).2⟩

theorem outputField_apart_valid {g p d k : Nat} (hp : p < 16) (hd : d < 6) {y : Fld} (h : outputField g p d y) :
    y.apart (CP_STATUS_VALID k) := by
  rcases h with f | h
  · subst f
    exact .inl (by simp only [LS_OUT_CODE, LS_OUT, CP_STATUS_VALID, CP_STATUS, groupBase]; omega)
  · exact violField_apart_valid h

theorem OthersStand.clearDac (s : State) {g p d : Nat} (hp : p < 16) (hd : d < 6) : OthersStand s (s.clearDac g p d) g p :=
  fun k q hq h => ⟨fun _ he => s.outCode_clearDac_ne hp hd hq he fun x => h ⟨x.1, x.2.1⟩,
    State.bit_of_get ((Frame.clearDac s g p d).reg _ (State.notPba_valid k) fun _ => outputField_apart_valid hp hd) q⟩

theorem State.outCode_rearm (s : State) {g p k q e : Nat} (hp : p < 16) (hq : q < 16) (he : e < 6) :
    (s.rearm g p).outCode k q e = s.outCode k q e :=
  (Frame.rearm s g p hp).reg _ (State.notPba_out ..) fun _ => rearmField_apart_out hq he

theorem OthersStand.rearm (s : State) {g p : Nat} (hp : p < 16) : OthersStand s (s.rearm g p) g p :=
  fun k q hq h => ⟨fun e he => s.outCode_rearm hp hq he, by rw [s.cmpValid_rearm g p k hp hq, if_neg h]⟩

theorem SameClear.refl (s : State) : SameClear s s := ⟨fun _ _ _ _ _ _ => rfl, rfl, Frame.refl ..⟩

/-- The DACs of a channel one after another. -/
theorem State.clearDacs_set (s : State) {g p : Nat} (hg : g < 32) (hp : p < 16) :
    (SameClear s (s.forEach (List.range 6) fun s d => s.clearDac g p d) ∧
      OthersStand s (s.forEach (List.range 6) fun s d => s.clearDac g p d) g p) ∧
      ∀ d ∈ List.range 6, (s.forEach (List.range 6) fun s d => s.clearDac g p d).outCode g p d = s.get (LS_CLR_CODE g p d) := by
  refine foldl_establishes (fun t d => State.clearDac t g p d) (fun t => SameClear s t ∧ OthersStand s t g p)
    (fun d t => t.outCode g p d = s.get (LS_CLR_CODE g p d)) (List.range 6) ?_ ?_ ?_ s
    ⟨.refl s, fun _ _ _ _ => ⟨fun _ _ => rfl, rfl⟩⟩
  · intro t ht d hd
    have small := List.mem_range.1 hd
    exact ⟨ht.1.trans (.clearDac t hp small), ht.2.trans (.clearDac t hp small)⟩
  · intro t ht d hd
    have small := List.mem_range.1 hd
    exact (t.outCode_clearDac hp small).trans (ht.1.code g p d hg hp small)
  · intro t ht d hd e he h
    have small := List.mem_range.1 hd
    by_cases same : d = e
    · subst same
      exact (t.outCode_clearDac hp small).trans (ht.1.code g p d hg hp small)
    · exact (t.outCode_clearDac_ne hp small hp (List.mem_range.1 he) fun x => same x.2.2).trans h

/-- The clear of a channel: its outputs stand at the clear codes and VALID is 0; other channels keep theirs. -/
theorem State.clearChan_sets (s : State) {g p : Nat} (hg : g < 32) (hp : p < 16) :
    (SameClear s (s.clearChan g p) ∧ OthersStand s (s.clearChan g p) g p) ∧
    (∀ d < 6, (s.clearChan g p).outCode g p d = s.get (LS_CLR_CODE g p d)) ∧ (s.clearChan g p).cmpValid g p = false := by
  obtain ⟨⟨same, others⟩, codes⟩ := s.clearDacs_set hg hp
  refine ⟨⟨same.trans (.rearm _ hp), others.trans (.rearm _ hp)⟩, fun d hd => ?_, ?_⟩
  · rw [State.clearChan, State.outCode_rearm _ hp hp hd, codes d (List.mem_range.2 hd)]
  · rw [State.clearChan, State.cmpValid_rearm _ g p g hp hp, if_pos ⟨rfl, rfl⟩]

/-- What the clear instant establishes for a channel. -/
def ClearedChan (s : State) (x : Nat × Nat) (t : State) : Prop :=
  (∀ d < 6, t.outCode x.1 x.2 d = s.get (LS_CLR_CODE x.1 x.2 d)) ∧ t.cmpValid x.1 x.2 = false

theorem mem_dieChannels {k g p : Nat} : (g, p) ∈ dieChannels k ↔ ∃ i < 8, g = 8 * k + i ∧ p < 16 := by
  unfold dieChannels
  simp only [List.mem_map, List.mem_range, Prod.mk.injEq]
  constructor
  · rintro ⟨c, hc, rfl, rfl⟩
    exact ⟨c / 16, by omega, rfl, by omega⟩
  · rintro ⟨i, hi, rfl, hp⟩
    exact ⟨16 * i + p, by omega, by omega, by omega⟩

theorem State.clearDie_sets (s : State) {k : Nat} (hk : k < 4) :
    SameClear s ((dieChannels k).foldl (fun t x => State.clearChan t x.1 x.2) s) ∧
      ∀ x ∈ dieChannels k, ClearedChan s x ((dieChannels k).foldl (fun t x => State.clearChan t x.1 x.2) s) := by
  have bound (x : Nat × Nat) (hx : x ∈ dieChannels k) : x.1 < 32 ∧ x.2 < 16 := by
    obtain ⟨i, hi, e, hp⟩ := mem_dieChannels.1 hx
    exact ⟨by omega, hp⟩
  have sets (t : State) (ht : SameClear s t) (x : Nat × Nat) (hx : x ∈ dieChannels k) : ClearedChan s x (t.clearChan x.1 x.2) := by
    obtain ⟨hg, hp⟩ := bound x hx
    obtain ⟨-, codes, valid⟩ := t.clearChan_sets hg hp
    exact ⟨fun d hd => (codes d hd).trans (ht.code _ _ _ hg hp hd), valid⟩
  refine foldl_establishes _ (SameClear s) (ClearedChan s) _ ?_ sets ?_ s (.refl s)
  · intro t ht x hx
    obtain ⟨hg, hp⟩ := bound x hx
    exact ht.trans (t.clearChan_sets hg hp).1.1
  · intro t ht x hx y hy h
    by_cases e : x.1 = y.1 ∧ x.2 = y.2
    · rw [Prod.ext e.1.symm e.2.symm]
      exact sets t ht x hx
    · obtain ⟨hg, hp⟩ := bound x hx
      obtain ⟨codes, valid⟩ := (t.clearChan_sets hg hp).1.2 y.1 y.2 (bound y hy).2 e
      exact ⟨fun d hd => (codes d hd).trans (h.1 d hd), valid.trans h.2⟩

theorem Frame.setClrN (s : State) (k : Nat) (b : Bool) (ps : List Part) (w : Fld → Prop) (h : Part.sys ∈ ps) :
    Frame s (Machine.setClrN s k b) ps w := Frame.setSys s _ _ _ h

theorem State.clrNFall_runs {s : State} (k : DieIx) (high : vget s.sys.clrN k.val true = true) :
    RunsTo (exec (.clrNFall k) s) fun t => vget t.sys.clrN k.val true = false ∧
      (∀ i p d, i < 8 → p < 16 → d < 6 → t.outCode (8 * k.val + i) p d = s.get (LS_CLR_CODE (8 * k.val + i) p d)) ∧
      (∀ i p, i < 8 → p < 16 → t.cmpValid (8 * k.val + i) p = false) ∧
      Frame s t [.groups, .sys] (groupRegs 0x4000 0x7000) := by
  obtain ⟨same, cleared⟩ := (setClrN s k false).clearDie_sets k.isLt
  have mine (i p : Nat) (hi : i < 8) (hp : p < 16) := cleared (8 * k.val + i, p) (mem_dieChannels.2 ⟨i, hi, rfl, hp⟩)
  refine runsTo_doneIf _ _ _ _ high ⟨?_, fun i p d hi hp hd => ?_, fun i p hi hp => ?_, ?_⟩
  · rw [settle_sys]
    exact (congrArg (vget · k.val true) same.clrN).trans (vget_vset _ _ _ _ k.isLt)
  · exact (get_settle _ _ _ (State.notPba_out ..)).trans ((mine i p hi hp).1 d hd)
  · exact (State.bit_of_get (get_settle _ _ _ (State.notPba_valid _)) p).trans (mine i p hi hp).2
  · exact ((Frame.setClrN s k false _ _ (by simp)).trans same.frame).trans (Frame.settle ..)

/-! ### Targets taken one after another -/

/-- From s to t the DAC takes the target in force, and nothing that gives targets changes. -/
def TakesTarget (s t : State) (g p d : Nat) : Prop :=
  SameTargets s t ∧ (t.dac g p d).tgt.toNat = s.targetCode g p d ∧ ∀ k q e, ¬(g = k ∧ p = q ∧ d = e) → t.dac k q e = s.dac k q e

/-- So do all DACs of a channel. -/
def ChanTakes (s t : State) (g p : Nat) : Prop :=
  SameTargets s t ∧ (∀ d < 6, (t.dac g p d).tgt.toNat = s.targetCode g p d) ∧
    ∀ k q e, ¬(g = k ∧ p = q) → t.dac k q e = s.dac k q e

theorem ChanTakes.forEach (f : State → Nat → State) (s : State) {g p : Nat} (hg : g < 32) (hp : p < 16)
    (h : ∀ t, ∀ d < 6, TakesTarget t (f t d) g p d) : ChanTakes s (s.forEach (List.range 6) f) g p := by
  obtain ⟨⟨same, others⟩, taken⟩ := foldl_establishes f
    (fun t => SameTargets s t ∧ ∀ k q e, ¬(g = k ∧ p = q) → t.dac k q e = s.dac k q e)
    (fun d t => (t.dac g p d).tgt.toNat = s.targetCode g p d) (List.range 6)
    (fun t ht d hd =>
      have sets := h t d (List.mem_range.1 hd)
      ⟨ht.1.trans sets.1, fun k q e ne => (sets.2.2 k q e fun x => ne ⟨x.1, x.2.1⟩).trans (ht.2 k q e ne)⟩)
    (fun t ht d hd => (h t d (List.mem_range.1 hd)).2.1.trans (ht.1.targetCode hg hp (List.mem_range.1 hd)))
    (fun t ht d hd e he k => by
      by_cases same : d = e
      · subst same
        exact (h t d (List.mem_range.1 hd)).2.1.trans (ht.1.targetCode hg hp (List.mem_range.1 hd))
      · rw [(h t d (List.mem_range.1 hd)).2.2 g p e fun x => same x.2.2]
        exact k) s ⟨.refl s, fun _ _ _ _ => rfl⟩
  exact ⟨same, fun d hd => taken d (List.mem_range.2 hd), others⟩

theorem ChanTakes.foldl {ι : Type} (f : State → ι → State) (at_ : ι → Nat × Nat) (l : List ι) (s : State)
    (bound : ∀ i ∈ l, (at_ i).1 < 32 ∧ (at_ i).2 < 16) (h : ∀ t, ∀ i ∈ l, ChanTakes t (f t i) (at_ i).1 (at_ i).2) :
    SameTargets s (l.foldl f s) ∧ ∀ i ∈ l, ∀ d < 6,
      ((l.foldl f s).dac (at_ i).1 (at_ i).2 d).tgt.toNat = s.targetCode (at_ i).1 (at_ i).2 d := by
  have takes (t : State) (ht : SameTargets s t) (i : ι) (hi : i ∈ l) (d : Nat) (hd : d < 6) :=
    ((h t i hi).2.1 d hd).trans (ht.targetCode (bound i hi).1 (bound i hi).2 hd)
  refine foldl_establishes f (SameTargets s)
    (fun i t => ∀ d < 6, (t.dac (at_ i).1 (at_ i).2 d).tgt.toNat = s.targetCode (at_ i).1 (at_ i).2 d) l (fun t ht i hi => ht.trans (h t i hi).1) takes (fun t ht i hi j hj k d hd => ?_)
    s (.refl s)
  by_cases same : at_ i = at_ j
  · rw [← same]
    exact takes t ht i hi d hd
  · rw [(h t i hi).2.2 _ _ d fun x => same (Prod.ext x.1 x.2)]
    exact k d hd

theorem State.follow_takes (s : State) {g p d : Nat} (hg : g < 32) (hp : p < 16) (hd : d < 6) :
    TakesTarget s (s.follow g p d) g p d := s.follow_sets hg hp hd

theorem State.retarget_takes (s : State) {g p d : Nat} (hg : g < 32) (hp : p < 16) (hd : d < 6) :
    TakesTarget s (s.retarget g p d) g p d := s.retarget_sets hg hp hd

/-- The outputs of a channel set out toward their targets. -/
def State.followChan (s : State) (g p : Nat) : State := s.forEach (List.range 6) fun s d => s.follow g p d

theorem ChanTakes.followChan (s : State) {g p : Nat} (hg : g < 32) (hp : p < 16) : ChanTakes s (s.followChan g p) g p :=
  ChanTakes.forEach _ s hg hp fun t _ hd => t.follow_takes hg hp hd

/-! ### The release instant -/

theorem bound_dieChannels {k : Nat} (hk : k < 4) (x : Nat × Nat) (hx : x ∈ dieChannels k) : x.1 < 32 ∧ x.2 < 16 := by
  obtain ⟨i, hi, e, hp⟩ := mem_dieChannels.1 hx
  exact ⟨by omega, hp⟩

theorem outField_of_output {g p d : Nat} {y : Fld} (h : outputField g p d y) : outField g y :=
  h.imp (fun e => ⟨p, d, e⟩) id

theorem Frame.followDie (s : State) (l : List (Nat × Nat)) :
    Frame s (l.foldl (fun s x => s.followChan x.1 x.2) s) [.groups, .sys]
      (fun y => ∃ g, outField g y) := by
  induction l generalizing s with
  | nil => exact Frame.refl ..
  | cons x l ih => exact (Frame.forEach s _ _ _ _ fun t d _ => (Frame.followOut t x.1 x.2 d).mono (fun _ => id)
      fun _ h => ⟨x.1, outField_of_output h⟩).trans (ih _)

theorem dac_settle (s t : State) (g p d : Nat) : (settle s t).dac g p d = t.dac g p d := by
  rw [State.dac_eq, State.dac_eq, State.chan_congr (settle_groups ..)]

theorem State.notPba_clr (g p d : Nat) : (LS_CLR_CODE g p d).reg.notPba :=
  .inr (by simp only [LS_CLR_CODE, LS_CLR, groupBase]; omega)

theorem State.notPba_sel (g : Nat) : (LS_SELSTAT_SEL g).reg.notPba :=
  .inr (by simp only [LS_SELSTAT_SEL, LS_SELSTAT, groupBase]; omega)

theorem SameTargets.settle (s t : State) : SameTargets t (settle s t) :=
  ⟨.of_groups (settle_groups ..), fun g p d => by rw [dac_settle], by rw [settle_sys], settle_die ..,
    fun g p d _ _ _ => get_settle _ _ _ (State.notPba_clr g p d), fun g _ => get_settle _ _ _ (State.notPba_sel g)⟩

theorem exec_clrNRise {s : State} {k : DieIx} (low : vget s.sys.clrN k.val true = false) : exec (.clrNRise k) s =
    done s ((dieChannels k).foldl (fun s x => s.followChan x.1 x.2) (setClrN s k true)) := by
  have acts : (!vget s.sys.clrN k.val true) = true := by rw [low]; rfl
  exact doneIf_pos acts ..

theorem State.clrNRise_runs {s : State} (k : DieIx) (low : vget s.sys.clrN k.val true = false) :
    RunsTo (exec (.clrNRise k) s) fun t => vget t.sys.clrN k.val true = true ∧
      (∀ i p d, i < 8 → p < 16 → d < 6 → (t.dac (8 * k.val + i) p d).tgt.toNat = t.targetCode (8 * k.val + i) p d) ∧
      Frame s t [.groups, .sys] (fun y => ∃ g, outField g y) := by
  have bound := bound_dieChannels k.isLt
  have chan (t : State) (x : Nat × Nat) (hx : x ∈ dieChannels k) : ChanTakes t (t.followChan x.1 x.2) x.1 x.2 :=
    ChanTakes.followChan t (bound x hx).1 (bound x hx).2
  obtain ⟨same, taken⟩ := ChanTakes.foldl (ι := Nat × Nat) (fun s x => s.followChan x.1 x.2) (fun x => x) (dieChannels k)
    (setClrN s k true) bound chan
  rw [exec_clrNRise low]
  refine runsTo_done _ _ _ ⟨?_, ?_, ?_⟩
  · rw [settle_sys]
    exact (congrArg (vget · k.val true) same.clear).trans (vget_vset _ _ _ _ k.isLt)
  · intro i p d hi hp hd
    have hg : 8 * k.val + i < 32 := by omega
    rw [dac_settle, (same.trans (.settle s _)).targetCode hg hp hd]
    exact taken (8 * k.val + i, p) (mem_dieChannels.2 ⟨i, hi, rfl, hp⟩) d hd
  · exact ((Frame.setClrN s k true _ _ (by simp)).trans (Frame.followDie ..)).trans (Frame.settle ..)

/-! ### Clear codes and rails -/

theorem exec_clearCodeWrite {s : State} (g : GroupIx) (p : Pos) (d : Fin 6) (v : Word) (now : s.actsNow) :
    exec (.clearCodeWrite g p d v) s = done s (((s.set (LS_CLR_CODE g p d) (fieldOf v 15 0)).retarget g p d).dgStale) := by
  change done s (s.mirrored (LS_CLR g p d).addr v fun s => s.writeClr g p d v) = _
  rw [State.mirrored_actsNow _ _ _ _ now]
  rfl

theorem State.clearCodeWrite_runs {s : State} (g : GroupIx) (p : Pos) (d : Fin 6) (v : Word) (now : s.actsNow) :
    RunsTo (exec (.clearCodeWrite g p d v) s) fun t =>
      t.get (LS_CLR_CODE g p d) = v.toNat % 65536 ∧ t.get DG_STAT_STALE = 1 ∧
      (s.clrLow g → (t.dac g p d).tgt.toNat = v.toNat % 65536) ∧
      Frame s t [.groups, .sys] (fun y => y = LS_CLR_CODE g p d ∨ y = LS_OUT_CODE g p d ∨ violField g y ∨ y = DG_STAT_STALE) := by
  have stored : (s.set (LS_CLR_CODE g p d) (fieldOf v 15 0)).get (LS_CLR_CODE g p d) = v.toNat % 65536 := by
    rw [State.get_set _ _ _ (Fld.inWord_of _ rfl), fieldOf_low_half]
    exact Nat.mod_mod _ _
  have wrote : Frame s (s.set (LS_CLR_CODE g p d) (fieldOf v 15 0)) [.groups, .sys]
      (fun y => y = LS_CLR_CODE g p d ∨ y = LS_OUT_CODE g p d ∨ violField g y ∨ y = DG_STAT_STALE) :=
    Frame.set _ _ _ _ _ (Fld.inWord_of _ rfl) (.inl rfl)
  have low : (s.set (LS_CLR_CODE g p d) (fieldOf v 15 0)).clrLow g = s.clrLow g := rfl
  rw [exec_clearCodeWrite g p d v now]
  generalize s.set (LS_CLR_CODE g p d) (fieldOf v 15 0) = u at stored wrote low
  obtain ⟨same, taken, -⟩ := u.retarget_sets g.isLt p.isLt d.isLt
  refine runsTo_done _ _ _ ⟨?_, ?_, fun h => ?_, ((wrote.trans (Frame.retarget _ _ _ _ _ _ (by simp) (.inr (.inl rfl))
    fun _ => ⟨by simp, fun _ h => .inr (.inr (.inl h))⟩)).trans (Frame.dgStale _ _ _ (.inr (.inr (.inr rfl))))).trans
    (Frame.settle ..)⟩
  · have other : DG_STAT_STALE.apart (LS_CLR_CODE g p d) := .inl (by simp only [DG_STAT_STALE, DG_STAT, LS_CLR_CODE, LS_CLR, groupBase]; omega)
    rw [get_settle _ _ _ (State.notPba_clr ..), State.dgStale, State.get_set_apart _ _ _ _ (Fld.inWord_of _ rfl) other,
      same.code _ _ _ g.isLt p.isLt d.isLt, stored]
  · rw [get_settle _ _ _ (by decide), State.dgStale, State.get_set _ _ _ (Fld.inWord_of _ rfl)]
    rfl
  · rw [dac_settle]
    refine taken.trans ?_
    rw [State.targetCode, if_pos (low.trans h), stored]

/-- The state with the measured rails stored. -/
def State.railTaken (s : State) (k : DieIx) (vdrp vdrn : BitVec 16) : State :=
  (s.set (LS_RAILMEAS_VDRP (8 * k.val)) vdrp.toNat).set (LS_RAILMEAS_VDRN (8 * k.val)) vdrn.toNat

theorem exec_railMeasure (s : State) (k : DieIx) (vdrp vdrn : BitVec 16) {p n : Int}
    (hp : p = (BitVec.ofNat 16 (s.dieGet (LS_RAIL_VDRP (8 * k.val)))).toInt)
    (hn : n = (BitVec.ofNat 16 (s.dieGet (LS_RAIL_VDRN (8 * k.val)))).toInt) : exec (.railMeasure k vdrp vdrn) s =
      done s (if 5 * p.natAbs < 100 * (vdrp.toInt - p).natAbs ∨ 5 * n.natAbs < 100 * (vdrn.toInt - n).natAbs then
        (s.railTaken k vdrp vdrn).flag (LS_FLAGS_RAIL (8 * k.val)) (LS_CNT2_RAIL (8 * k.val))
        else s.railTaken k vdrp vdrn) := by
  change execRailMeasure k vdrp vdrn s = _
  unfold execRailMeasure
  dsimp only
  rw [← hp, ← hn]
  congr 1
  refine if_congr ?_ rfl rfl
  simp only [Bool.or_eq_true, decide_eq_true_eq]
  omega

theorem State.railMeasure_runs (s : State) (k : DieIx) (vdrp vdrn : BitVec 16) {p n : Int}
    (hp : p = (BitVec.ofNat 16 (s.dieGet (LS_RAIL_VDRP (8 * k.val)))).toInt)
    (hn : n = (BitVec.ofNat 16 (s.dieGet (LS_RAIL_VDRN (8 * k.val)))).toInt) : RunsTo (exec (.railMeasure k vdrp vdrn) s) fun t =>
      t.get (LS_RAILMEAS_VDRP (8 * k.val)) = vdrp.toNat ∧ t.get (LS_RAILMEAS_VDRN (8 * k.val)) = vdrn.toNat ∧
      (5 * p.natAbs < 100 * (vdrp.toInt - p).natAbs ∨ 5 * n.natAbs < 100 * (vdrn.toInt - n).natAbs →
        t.get (LS_FLAGS_RAIL (8 * k.val)) = 1 ∧
        t.get (LS_CNT2_RAIL (8 * k.val)) = min (s.get (LS_CNT2_RAIL (8 * k.val)) + 1) 65535) ∧
      (100 * (vdrp.toInt - p).natAbs ≤ 5 * p.natAbs → 100 * (vdrn.toInt - n).natAbs ≤ 5 * n.natAbs →
        t.get (LS_FLAGS_RAIL (8 * k.val)) = s.get (LS_FLAGS_RAIL (8 * k.val)) ∧
        t.get (LS_CNT2_RAIL (8 * k.val)) = s.get (LS_CNT2_RAIL (8 * k.val))) ∧
      Frame s t [] (· ∈ [LS_RAILMEAS_VDRP (8 * k.val), LS_RAILMEAS_VDRN (8 * k.val), LS_FLAGS_RAIL (8 * k.val), LS_CNT2_RAIL (8 * k.val)]) := by
  have other (x y : Reg) (d : x.addr ≠ y.addr) (f g : Fld) (hf : f.reg = x) (hg : g.reg = y) : f.apart g :=
    .inl (by rw [hf, hg]; exact d)
  have measFlags : (LS_RAILMEAS (8 * k.val)).addr ≠ (LS_FLAGS (8 * k.val)).addr := by simp only [LS_RAILMEAS, LS_FLAGS]; omega
  have measCount : (LS_RAILMEAS (8 * k.val)).addr ≠ (LS_CNT2 (8 * k.val)).addr := by simp only [LS_RAILMEAS, LS_CNT2]; omega
  have flagsCount : (LS_FLAGS (8 * k.val)).addr ≠ (LS_CNT2 (8 * k.val)).addr := by simp only [LS_FLAGS, LS_CNT2]; omega
  have pba (x : Fld) (a : Nat) (h : x.reg.addr = groupBase (8 * k.val) + a) : x.reg.notPba := .inr (by rw [h, groupBase]; omega)
  have half : (LS_RAILMEAS_VDRN (8 * k.val)).apart (LS_RAILMEAS_VDRP (8 * k.val)) := Fld.apart_of _ _ (by rfl) (by rfl)
  have u_p : (s.railTaken k vdrp vdrn).get (LS_RAILMEAS_VDRP (8 * k.val)) = vdrp.toNat := by
    rw [State.railTaken, State.get_set_apart _ _ _ _ (Fld.inWord_of _ rfl) half, State.get_set _ _ _ (Fld.inWord_of _ rfl)]
    exact Nat.mod_eq_of_lt vdrp.isLt
  have u_n : (s.railTaken k vdrp vdrn).get (LS_RAILMEAS_VDRN (8 * k.val)) = vdrn.toNat := by
    rw [State.railTaken, State.get_set _ _ _ (Fld.inWord_of _ rfl)]
    exact Nat.mod_eq_of_lt vdrn.isLt
  have u_kept (y : Fld) (h : (LS_RAILMEAS (8 * k.val)).addr ≠ y.reg.addr) : (s.railTaken k vdrp vdrn).get y = s.get y := by
    rw [State.railTaken, State.get_set_apart _ _ _ _ (Fld.inWord_of _ rfl) (.inl h),
      State.get_set_apart _ _ _ _ (Fld.inWord_of _ rfl) (.inl h)]
  have frame : Frame s (s.railTaken k vdrp vdrn) [] (· ∈ [LS_RAILMEAS_VDRP (8 * k.val), LS_RAILMEAS_VDRN (8 * k.val),
      LS_FLAGS_RAIL (8 * k.val), LS_CNT2_RAIL (8 * k.val)]) :=
    (Frame.set _ _ _ _ _ (Fld.inWord_of _ rfl) (by simp)).trans (Frame.set _ _ _ _ _ (Fld.inWord_of _ rfl) (by simp))
  rw [exec_railMeasure s k vdrp vdrn hp hn]
  generalize s.railTaken k vdrp vdrn = u at u_p u_n u_kept frame
  split
  · next off =>
    refine runsTo_done _ _ _ ⟨?_, ?_, fun _ => ⟨?_, ?_⟩, fun a b => by omega, (frame.trans (Frame.flag _ _ _ _ _
      (Fld.inWord_of _ rfl) (Fld.inWord_of _ rfl) (by simp) (by simp))).trans (Frame.settle ..)⟩
    · rw [get_settle _ _ _ (pba _ _ rfl), State.get_flag_apart _ _ _ _ (Fld.inWord_of _ rfl) (Fld.inWord_of _ rfl)
        (other _ _ measFlags.symm _ _ rfl rfl) (other _ _ measCount.symm _ _ rfl rfl), u_p]
    · rw [get_settle _ _ _ (pba _ _ rfl), State.get_flag_apart _ _ _ _ (Fld.inWord_of _ rfl) (Fld.inWord_of _ rfl)
        (other _ _ measFlags.symm _ _ rfl rfl) (other _ _ measCount.symm _ _ rfl rfl), u_n]
    · rw [get_settle _ _ _ (pba _ _ rfl), State.get_flag _ _ _ (Fld.inWord_of _ rfl) (Fld.inWord_of _ rfl)
        (other _ _ flagsCount.symm _ _ rfl rfl) rfl]
    · rw [get_settle _ _ _ (pba _ _ rfl), State.get_flag_count _ _ _ (Fld.inWord_of _ rfl) (Fld.inWord_of _ rfl)
        (other _ _ flagsCount _ _ rfl rfl), u_kept _ measCount]
      rfl
  · next near =>
    exact runsTo_done _ _ _ ⟨(get_settle _ _ _ (pba _ _ rfl)).trans u_p, (get_settle _ _ _ (pba _ _ rfl)).trans u_n,
      fun h => absurd h near, fun _ _ => ⟨(get_settle _ _ _ (pba _ _ rfl)).trans (u_kept _ measFlags),
        (get_settle _ _ _ (pba _ _ rfl)).trans (u_kept _ measCount)⟩, frame.trans (Frame.settle ..)⟩

/-- Settles O10: the outputs at the clear instant (`State.clearDie_sets`), the targets at the release (`ChanTakes.foldl`),
clear codes and rails. -/
theorem clearAndRails : Obligations.ClearAndRails :=
  ⟨fun _ k high => State.clrNFall_runs k high, fun _ k low => State.clrNRise_runs k low,
    fun _ g p d v now => State.clearCodeWrite_runs g p d v now,
    fun s k vdrp vdrn _ _ hp hn => s.railMeasure_runs k vdrp vdrn hp hn⟩

end Sys2Proof.Machine
end

section
/-! DAC outputs: selects, commits, slew steps and deglitch holds (R94 to R98). -/

namespace Sys2Proof.Machine

/-! ### Copying a range of a plane -/

theorem RegFile.find_none_of_above {f : RegFile} {a : Nat} (h : ∀ c ∈ f, a < c.1) : f.find a = none := by
  rw [RegFile.find, List.find?_eq_none.2]
  · rfl
  · intro c hc
    have above := h c hc
    simp only [beq_iff_eq]
    omega

theorem RegFile.find_cons (c : Nat × Word) (f : RegFile) (a : Nat) :
    RegFile.find (c :: f) a = if c.1 = a then some c.2 else f.find a := by
  by_cases e : c.1 = a <;> simp [RegFile.find, e]

theorem RegFile.find_foldl_put (l f : RegFile) (a : Nat) (h : l.rising) :
    (l.foldl (fun f c => f.put c.1 c.2) f).find a = (l.find a).or (f.find a) := by
  induction l generalizing f with
  | nil => rfl
  | cons c l ih =>
    obtain ⟨first, rest⟩ := List.pairwise_cons.1 h
    rw [List.foldl_cons, ih _ rest, RegFile.find_cons]
    split
    · next e =>
      subst e
      rw [RegFile.find_none_of_above first, RegFile.find_put_self]
      rfl
    · next e => rw [RegFile.find_put_ne _ _ _ _ (Ne.symm e)]

theorem RegFile.find_filter_of (f : RegFile) (q : Nat → Bool) (a : Nat) (h : q a = true) :
    RegFile.find (f.filter fun c => q c.1) a = f.find a := by
  simp only [RegFile.find, List.find?_filter]
  congr 2
  funext x
  by_cases e : x.1 = a <;> simp [e, h]

theorem RegFile.find_filter_none (f : RegFile) (q : Nat → Bool) (a : Nat) (h : q a = false) :
    RegFile.find (f.filter fun c => q c.1) a = none := by
  rw [RegFile.find, List.find?_eq_none.2]
  · rfl
  · intro x hx e
    have kept := (List.mem_filter.1 hx).2
    rw [beq_iff_eq.1 e, h] at kept
    exact Bool.false_ne_true kept

/-- A copied range reads as in the plane it comes from. -/
theorem RegFile.word_copyRange (f g : RegFile) {a b : Nat} (r : Reg) (h : g.rising) (lo : a ≤ r.addr) (hi : r.addr < b) :
    (f.copyRange g a b).word r = g.word r := by
  have inside : (g.slice a b).find r.addr = g.find r.addr :=
    RegFile.find_filter_of g (fun c => a ≤ c && c < b) _ (by simp [lo, hi])
  have empty : (f.clearRange a b).find r.addr = none :=
    RegFile.find_filter_none f (fun c => c < a || b ≤ c) _ (by simp [lo, hi])
  rw [RegFile.word, RegFile.copyRange, RegFile.find_foldl_put (g.slice a b) _ _ (h.filter _), inside, empty, Option.or_none,
    RegFile.word]

/-! ### What reaches the die together -/

/-- The level codes of a group in two planes. -/
def SameLevels (f h : RegFile) (g : Nat) : Prop :=
  ∀ p l d, p < 16 → l < 8 → d < 6 → f.get (levelCode g p l d) = h.get (levelCode g p l d)

theorem levelCode_range {g p l d : Nat} (hp : p < 16) (hl : l < 8) (hd : d < 6) : ∃ a, (levelCode g p l d).reg.addr =
    groupBase g + a ∧ 0x4800 ≤ a ∧ a < 0x5800 := by
  have cases : d = 0 ∨ d = 1 ∨ d = 2 ∨ d = 3 ∨ d = 4 ∨ d = 5 := by omega
  rcases cases with rfl | rfl | rfl | rfl | rfl | rfl
  · exact ⟨0x4800 + 0x100 * p + 0x20 * l, by simp only [levelCode, LS_DH_CODE, LS_DH]; omega, by omega, by omega⟩
  · exact ⟨0x4804 + 0x100 * p + 0x20 * l, by simp only [levelCode, LS_DL_CODE, LS_DL]; omega, by omega, by omega⟩
  · exact ⟨0x4808 + 0x100 * p + 0x20 * l, by simp only [levelCode, LS_TH_CODE, LS_TH]; omega, by omega, by omega⟩
  · exact ⟨0x480C + 0x100 * p + 0x20 * l, by simp only [levelCode, LS_TL_CODE, LS_TL]; omega, by omega, by omega⟩
  · exact ⟨0x4810 + 0x100 * p + 0x20 * l, by simp only [levelCode, LS_VT_CODE, LS_VT]; omega, by omega, by omega⟩
  · exact ⟨0x4814 + 0x100 * p + 0x20 * l, by simp only [levelCode, LS_PF_CODE, LS_PF]; omega, by omega, by omega⟩

theorem SameLevels.of_word {f h : RegFile} {g : Nat}
    (same : ∀ r : Reg, (∃ a, r.addr = groupBase g + a ∧ 0x4800 ≤ a ∧ a < 0x5800) → f.word r = h.word r) : SameLevels f h g :=
  fun p l d hp hl hd => by rw [RegFile.get, RegFile.get, same _ (levelCode_range hp hl hd)]

theorem State.die_parkUpdate (s : State) (g p : Nat) : (s.parkUpdate g p).die = s.die :=
  (Frame.parkUpdate s [.groups] (fun y => y = LS_PARKSTAT_PARKED g) g p (by simp) rfl).part .die (by simp)

/-- The committed LS_DRV and LS_PMU words leave the level codes. -/
theorem SameLevels.rangeArrives (s : State) {g p : Nat} (drv pmu oldDrv oldPmu : Word) (hp : p < 16) :
    SameLevels (s.rangeArrives g p drv pmu oldDrv oldPmu).die s.die g := by
  have arrived : SameLevels ((s.die.setWord (LS_DRV g p) (withField drv 2 2 (fieldOf oldDrv 2 2))).setWord (LS_PMU g p) oldPmu)
      s.die g := .of_word fun r ⟨a, e, lo, hi⟩ => by
    rw [RegFile.word_setWord_ne _ _ _ _ (by simp only [LS_PMU]; omega), RegFile.word_setWord_ne _ _ _ _ (by simp only [LS_DRV]; omega)]
  unfold State.rangeArrives
  extract_lets c last keep u
  have die : u.die = (s.die.setWord (LS_DRV g p) (withField drv 2 2 (fieldOf oldDrv 2 2))).setWord (LS_PMU g p) oldPmu := rfl
  clear_value u
  split
  · rw [State.setChan_die, die]
    exact arrived
  · rw [State.die_parkUpdate, State.setBit, State.set_die, State.setChan_die, die]
    exact arrived

theorem SameRest.set (s : State) (x : Fld) (v : Nat) : SameRest s (s.set x v) := .of_groups rfl

theorem SameRest.parkUpdate (s : State) (g p : Nat) : SameRest s (s.parkUpdate g p) := (SameDacs.parkUpdate s g p).rest

theorem SameRest.rangeArrives (s : State) (g p : Nat) (drv pmu oldDrv oldPmu : Word) :
    SameRest s (s.rangeArrives g p drv pmu oldDrv oldPmu) := by
  unfold State.rangeArrives
  extract_lets c last keep u
  have same : SameRest s u := .of_groups rfl
  clear_value u
  split
  · exact same.trans (.setChan u g p _)
  · exact ((same.trans (.setChan u g p _)).trans (.set _ _ _)).trans (.parkUpdate _ g p)

theorem Frame.withDie (s : State) (ps : List Part) (w : Fld → Prop) (x : RegFile) (h : Part.die ∈ ps) :
    Frame s { s with die := x } ps w :=
  Frame.parts w (fun p hp => by cases p <;> simp_all [State.samePart]) rfl

theorem Frame.rangeArrives (s : State) (g p : Nat) (drv pmu oldDrv oldPmu : Word) :
    Frame s (s.rangeArrives g p drv pmu oldDrv oldPmu) [.groups, .die] (fun y => y.reg = LS_PARKSTAT g) := by
  unfold State.rangeArrives
  extract_lets c last keep u
  have same : Frame s u [.groups, .die] (fun y => y.reg = LS_PARKSTAT g) := Frame.withDie _ _ _ _ (by simp)
  clear_value u
  split
  · exact same.trans (Frame.setChan _ _ _ _ _ _ (by simp))
  · exact ((same.trans (Frame.setChan _ _ _ _ _ _ (by simp))).trans (Frame.setBit _ _ _ _ _ _ (Fld.inWord_of _ rfl) rfl)).trans
      (Frame.parkUpdate _ _ _ _ _ (by simp) rfl)

/-- What the commit leaves of the channels and planes: it loads the LS registers and nothing else of the group changes. -/
theorem State.lsLoad_sets (s : State) {g : Nat} (regs : RegFile) (h : regs.rising) : SameRest s (s.lsLoad g regs) ∧
    SameLevels (s.lsLoad g regs).die regs g ∧ Frame s (s.lsLoad g regs) [.groups, .die] (fun y => y.reg = LS_PARKSTAT g) := by
  have copied : SameLevels (s.die.copyRange regs (lsRange g).1 (lsRange g).2) regs g := .of_word fun r ⟨a, e, lo, hi⟩ =>
    RegFile.word_copyRange _ _ r h (by simp only [lsRange]; omega) (by simp only [lsRange]; omega)
  unfold State.lsLoad
  extract_lets old u
  have rest : SameRest s u := .of_groups rfl
  have levels : SameLevels u.die regs g := copied
  have frame : Frame s u [.groups, .die] (fun y => y.reg = LS_PARKSTAT g) := Frame.withDie _ _ _ _ (by simp)
  clear_value u
  obtain ⟨all, -⟩ := foldl_establishes
    (fun s p => State.rangeArrives s g p (regs.word (LS_DRV g p)) (regs.word (LS_PMU g p)) (old.word (LS_DRV g p)) (old.word (LS_PMU g p)))
    (fun t => SameRest s t ∧ SameLevels t.die regs g ∧ Frame s t [.groups, .die] (fun y => y.reg = LS_PARKSTAT g)) (fun _ _ => True)
    (List.range 16)
    (fun t ⟨ht, hl, hf⟩ p hp => ⟨ht.trans (.rangeArrives t g p _ _ _ _), fun q l d hq hl' hd =>
      (SameLevels.rangeArrives t _ _ _ _ (List.mem_range.1 hp) q l d hq hl' hd).trans (hl q l d hq hl' hd),
      hf.trans (Frame.rangeArrives ..)⟩)
    (fun _ _ _ _ => trivial) (fun _ _ _ _ _ _ _ => trivial) u ⟨rest, levels, frame⟩
  exact all

/-- The state after a select and commits have left their queues. -/
def State.dieTaken (s : State) (g : Nat) (sel : List (Nat × Time)) (com : List (Option Time × RegFile)) : State :=
  s.setGroup g { s.group g with lselPend := sel, lsPend := com }

/-- The DACs of a group under the slew limiter, by channel. -/
def State.slewMasks (s : State) (g : Nat) : List Nat := (List.range 16).map fun p => s.dieGet (LS_SLEWEN_EN g p)

/-- The targets of a group after an arrival, `slew` being the DACs under the slew limiter before it. -/
def State.dieTargets (s : State) (g : Nat) (slew : List Nat) : State :=
  s.forEach (List.range 16) fun s p => s.forEach (List.range 6) fun s d =>
    if (slew.getD p 0).testBit d = s.slewOn g p d then s.retarget g p d else s.follow g p d

theorem State.dieTargets_take (s : State) {g : Nat} (slew : List Nat) (hg : g < 32) : SameTargets s (s.dieTargets g slew) ∧
    ∀ p d, p < 16 → d < 6 → ((s.dieTargets g slew).dac g p d).tgt.toNat = s.targetCode g p d := by
  have one (t : State) (p d : Nat) (hp : p < 16) (hd : d < 6) :
      TakesTarget t (if (slew.getD p 0).testBit d = t.slewOn g p d then t.retarget g p d else t.follow g p d) g p d := by
    split
    · exact t.retarget_takes hg hp hd
    · exact t.follow_takes hg hp hd
  obtain ⟨same, taken⟩ := ChanTakes.foldl (ι := Nat) (fun s p => s.forEach (List.range 6) fun s d =>
    if (slew.getD p 0).testBit d = s.slewOn g p d then s.retarget g p d else s.follow g p d) (fun p => (g, p)) (List.range 16) s
    (fun p hp => ⟨hg, List.mem_range.1 hp⟩)
    (fun t p hp => ChanTakes.forEach _ t hg (List.mem_range.1 hp) fun u d hd => one u p d (List.mem_range.1 hp) hd)
  exact ⟨same, fun p d hp hd => taken p (List.mem_range.2 hp) d hd⟩

theorem Frame.dieTargets (s : State) (g : Nat) (slew : List Nat) :
    Frame s (s.dieTargets g slew) [.groups, .sys] (outField g) := by
  refine Frame.forEach _ _ _ _ _ fun t p _ => Frame.forEach _ _ _ _ _ fun u d _ => ?_
  have output : ∀ y, outputField g p d y → outField g y := fun _ => outField_of_output
  split
  · exact Frame.retarget _ _ _ _ _ _ (by simp) (output _ (.inl rfl)) fun _ => ⟨by simp, fun _ h => .inr h⟩
  · exact (Frame.followOut ..).mono (fun _ => id) output

theorem SameTargets.of_die {s t : State} (h : SameTargets s t) {g p d : Nat} (hg : g < 32) (hp : p < 16) (hd : d < 6) {n : Nat}
    (k : n = s.targetCode g p d) : n = t.targetCode g p d := k.trans (h.targetCode hg hp hd).symm

/-! ### A select alone -/

theorem State.dieArrives_select {s : State} {g : Nat} {sel : Nat} {at_ : Time} {rest : List (Nat × Time)}
    (pend : (s.group g).lselPend = (sel, at_) :: rest) (alone : (s.group g).lsPend.head?.map (·.1) ≠ some (some at_)) :
    s.dieArrives g at_ =
      ((s.dieTaken g rest (s.group g).lsPend).set (LS_SELSTAT_SEL g) sel).dieTargets g (s.slewMasks g) := by
  have none : (s.group g).lsPend.takeWhile (fun c => c.1 == some at_) = [] := by
    cases e : (s.group g).lsPend with
    | nil => rfl
    | cons c l =>
      rw [e] at alone
      refine List.takeWhile_cons_of_neg ?_
      simpa using alone
  have first : (s.group g).lselPend.head?.filter (fun c => c.2 == at_) = some (sel, at_) := by
    rw [pend]
    simp
  unfold State.dieArrives
  dsimp only
  rw [none, first, pend]
  rfl

theorem SameRest.dieTargets {s : State} {g : Nat} (slew : List Nat) (hg : g < 32) : SameRest s (s.dieTargets g slew) :=
  (s.dieTargets_take slew hg).1.rest

theorem State.levelSelect_runs {s : State} (g : GroupIx) {sel : Nat} {at_ : Time} {rest : List (Nat × Time)}
    (pend : (s.group g).lselPend = (sel, at_) :: rest) (due : reached s.time at_) (small : sel < 8)
    (alone : (s.group g).lsPend.head?.map (·.1) ≠ some (some at_)) : RunsTo (exec (.levelSelectChange g) s) fun t =>
      t.get (LS_SELSTAT_SEL g) = sel ∧ (t.group g).lselPend = rest ∧
      (∀ p d, p < 16 → d < 6 → (t.dac g p d).tgt.toNat = t.targetCode g p d) ∧
      Frame s t [.groups, .sys] (fun y => y = LS_SELSTAT_SEL g ∨ outField g y) := by
  have acts : exec (.levelSelectChange g) s = done s (s.dieArrives g at_) := by
    change done s (match (s.group g).lselPend with
      | (_, t) :: _ => if reached s.time t then s.dieArrives g t else s
      | [] => s) = _
    simp only [pend, due, if_true]
  have shown : ((s.dieTaken g rest (s.group g).lsPend).set (LS_SELSTAT_SEL g) sel).get (LS_SELSTAT_SEL g) = sel := by
    rw [State.get_set _ _ _ (Fld.inWord_of _ rfl)]
    exact Nat.mod_eq_of_lt small
  have queue : ((s.dieTaken g rest (s.group g).lsPend).set (LS_SELSTAT_SEL g) sel).group g =
      { s.group g with lselPend := rest } := State.group_setGroup _ _ _ g.isLt
  have frame : Frame s ((s.dieTaken g rest (s.group g).lsPend).set (LS_SELSTAT_SEL g) sel) [.groups, .sys]
      (fun y => y = LS_SELSTAT_SEL g ∨ outField g y) :=
    (Frame.setGroup s _ _ _ _ (by simp)).trans (Frame.set _ _ _ _ _ (Fld.inWord_of _ rfl) (.inl rfl))
  rw [acts, State.dieArrives_select pend alone]
  generalize (s.dieTaken g rest (s.group g).lsPend).set (LS_SELSTAT_SEL g) sel = u at shown queue frame
  obtain ⟨same, taken⟩ := u.dieTargets_take (s.slewMasks g) g.isLt
  refine runsTo_done _ _ _ ⟨?_, ?_, fun p d hp hd => ?_, (frame.trans ((Frame.dieTargets u g _).mono (fun _ => id)
    fun _ => .inr)).trans (Frame.settle ..)⟩
  · rw [get_settle _ _ _ (State.notPba_sel g), same.sel g g.isLt, shown]
  · rw [group_settle, same.rest.field Group.lselPend (fun _ _ => rfl) g, queue]
  · rw [dac_settle]
    exact (same.trans (.settle s _)).of_die g.isLt hp hd (taken p d hp hd)

/-! ### A commit alone -/

theorem State.dieArrives_commit {s : State} {g : Nat} {at_ : Time} {regs : RegFile} {rest : List (Option Time × RegFile)}
    (pend : (s.group g).lsPend = (some at_, regs) :: rest) (last : rest.head?.map (·.1) ≠ some (some at_))
    (alone : (s.group g).lselPend.head?.map (·.2) ≠ some at_) :
    s.dieArrives g at_ = ((s.dieTaken g (s.group g).lselPend rest).lsLoad g regs).dieTargets g (s.slewMasks g) := by
  have others : rest.takeWhile (fun c => c.1 == some at_) = [] := by
    cases e : rest with
    | nil => rfl
    | cons c l =>
      rw [e] at last
      refine List.takeWhile_cons_of_neg ?_
      simpa using last
  have one : (s.group g).lsPend.takeWhile (fun c => c.1 == some at_) = [(some at_, regs)] := by
    rw [pend, List.takeWhile_cons_of_pos (by simp), others]
  have none : (s.group g).lselPend.head?.filter (fun c => c.2 == at_) = none := by
    cases e : (s.group g).lselPend with
    | nil => rfl
    | cons c l =>
      rw [e] at alone
      simpa [Option.filter] using alone
  unfold State.dieArrives
  dsimp only
  rw [one, none, pend]
  rfl

theorem State.lsCommit_runs {s : State} (g : GroupIx) {at_ : Time} {regs : RegFile} {rest : List (Option Time × RegFile)}
    (pend : (s.group g).lsPend = (some at_, regs) :: rest) (due : reached s.time at_) (rising : regs.rising)
    (last : rest.head?.map (·.1) ≠ some (some at_)) (alone : (s.group g).lselPend.head?.map (·.2) ≠ some at_) :
    RunsTo (exec (.lsCommitEffect g) s) fun t => (t.group g).lsPend = rest ∧
      (∀ p l d, p < 16 → l < 8 → d < 6 → t.dieGet (levelCode g p l d) = regs.get (levelCode g p l d)) ∧
      (∀ p d, p < 16 → d < 6 → (t.dac g p d).tgt.toNat = t.targetCode g p d) ∧
      Frame s t [.groups, .die, .sys] (fun y => y.reg = LS_PARKSTAT g ∨ outField g y) := by
  have acts : exec (.lsCommitEffect g) s = done s (s.dieArrives g at_) := by
    change done s (match (s.group g).lsPend with
      | (some t, _) :: _ => if reached s.time t then s.dieArrives g t else s
      | _ => s) = _
    simp only [pend, due, if_true]
  have queue : ((s.dieTaken g (s.group g).lselPend rest).group g).lsPend = rest :=
    congrArg Group.lsPend (State.group_setGroup _ _ _ g.isLt)
  have left : Frame s (s.dieTaken g (s.group g).lselPend rest) [.groups, .die, .sys]
      (fun y => y.reg = LS_PARKSTAT g ∨ outField g y) := Frame.setGroup s _ _ _ _ (by simp)
  obtain ⟨rest', levels, loaded⟩ := (s.dieTaken g (s.group g).lselPend rest).lsLoad_sets regs rising (g := g)
  have frame := left.trans (loaded.mono (by simp) fun _ => Or.inl)
  have queue' := (rest'.field Group.lsPend (fun _ _ => rfl) g).trans queue
  rw [acts, State.dieArrives_commit pend last alone]
  generalize (s.dieTaken g (s.group g).lselPend rest).lsLoad g regs = u at levels frame queue'
  obtain ⟨same, taken⟩ := u.dieTargets_take (s.slewMasks g) g.isLt
  refine runsTo_done _ _ _ ⟨?_, fun p l d hp hl hd => ?_, fun p d hp hd => ?_, (frame.trans ((Frame.dieTargets u g _).mono
    (by simp) fun _ => .inr)).trans (Frame.settle ..)⟩
  · rw [group_settle, same.rest.field Group.lsPend (fun _ _ => rfl) g, queue']
  · rw [State.dieGet, settle_die, same.die]
    exact levels p l d hp hl hd
  · rw [dac_settle]
    exact (same.trans (.settle s _)).of_die g.isLt hp hd (taken p d hp hd)

/-! ### Slew steps and the end of a hold -/

theorem outCode_settle (s t : State) (g p d : Nat) : (settle s t).outCode g p d = t.outCode g p d :=
  get_settle _ _ _ (State.notPba_out g p d)

theorem exec_slewStep {s : State} {g : GroupIx} {p : Pos} {d : Fin 6} {at_ : Time} (slew : (s.dac g p d).slew = some at_)
    (due : reached s.time at_) : exec (.slewStep g p d) s = done s (s.slew g p d at_) := by
  change done s (match (s.dac g p d).slew with
    | some t => if reached s.time t then s.slew g p d t else s
    | none => s) = _
  simp only [slew, due, if_true]

/-- The output code after a slew step. -/
def State.slewCode (s : State) (g p d : Nat) : Nat :=
  if s.outCode g p d < (s.dac g p d).tgt.toNat then
    s.outCode g p d + min (s.dieGet (LS_SLEW_STEP g p)) ((s.dac g p d).tgt.toNat - s.outCode g p d)
  else s.outCode g p d - min (s.dieGet (LS_SLEW_STEP g p)) (s.outCode g p d - (s.dac g p d).tgt.toNat)

theorem State.slewCode_lt (s : State) (g p d : Nat) : s.slewCode g p d < 65536 := by
  have out : s.outCode g p d < 65536 := s.get_lt (LS_OUT_CODE g p d)
  have tgt := (s.dac g p d).tgt.isLt
  unfold State.slewCode
  split <;> omega

theorem State.slew_sets (s : State) {g p d : Nat} (at_ : Time) (hg : g < 32) (hp : p < 16) (hd : d < 6) :
    (s.slew g p d at_).outCode g p d = s.slewCode g p d ∧
      (((s.slew g p d at_).dac g p d).slew = none ↔ s.slewCode g p d = (s.dac g p d).tgt.toNat) ∧
      Frame s (s.slew g p d at_) [.groups, .sys] (outputField g p d) := by
  refine ⟨?_, ?_, (Frame.setOutput ..).trans (Frame.setDac _ _ _ _ _ _ _ (by simp))⟩
  · exact (State.outCode_setDac ..).trans (s.outCode_setOut hp hd (s.slewCode_lt g p d))
  · rw [State.slew, ← State.slewCode, State.dac_setDac _ _ hg hp hd]
    dsimp only
    split
    · next h => exact ⟨fun _ => h, fun _ => rfl⟩
    · next h => exact ⟨(nomatch ·), fun e => absurd e h⟩

theorem State.slewUp_runs {s : State} (g : GroupIx) (p : Pos) (d : Fin 6) {at_ : Time} (slew : (s.dac g p d).slew = some at_)
    (due : reached s.time at_) (up : s.outCode g p d < (s.dac g p d).tgt.toNat) : RunsTo (exec (.slewStep g p d) s) fun t =>
      t.outCode g p d = min (s.outCode g p d + s.dieGet (LS_SLEW_STEP g p)) (s.dac g p d).tgt.toNat ∧
      ((t.dac g p d).slew = none ↔ t.outCode g p d = (s.dac g p d).tgt.toNat) ∧
      Frame s t [.groups, .sys] (fun y => y = LS_OUT_CODE g p d ∨ violField g y) := by
  obtain ⟨out, arrived, frame⟩ := s.slew_sets at_ g.isLt p.isLt d.isLt
  have code : s.slewCode g p d = min (s.outCode g p d + s.dieGet (LS_SLEW_STEP g p)) (s.dac g p d).tgt.toNat := by
    rw [State.slewCode, if_pos up]
    omega
  rw [exec_slewStep slew due]
  refine runsTo_done _ _ _ ⟨?_, ?_, frame.trans (Frame.settle ..)⟩
  · rw [outCode_settle, out, code]
  · rw [outCode_settle, dac_settle, out]
    exact arrived

theorem State.slewDown_runs {s : State} (g : GroupIx) (p : Pos) (d : Fin 6) {at_ : Time} (slew : (s.dac g p d).slew = some at_)
    (due : reached s.time at_) (down : (s.dac g p d).tgt.toNat < s.outCode g p d) : RunsTo (exec (.slewStep g p d) s) fun t =>
      t.outCode g p d = max (s.outCode g p d - s.dieGet (LS_SLEW_STEP g p)) (s.dac g p d).tgt.toNat := by
  obtain ⟨out, -, -⟩ := s.slew_sets at_ g.isLt p.isLt d.isLt
  rw [exec_slewStep slew due]
  refine runsTo_done _ _ _ ?_
  rw [outCode_settle, out, State.slewCode, if_neg (by omega)]
  omega

/-- The DAC whose hold has ended. -/
def State.holdDone (s : State) (g p d : Nat) : State := s.setDac g p d { s.dac g p d with hold := none }

theorem exec_deglitchHoldEnd {s : State} {g : GroupIx} {p : Pos} {d : Fin 6} {at_ : Time} (hold : (s.dac g p d).hold = some at_)
    (due : holdTclk ≤ s.since at_) :
    exec (.deglitchHoldEnd g p d) s = done s ((s.holdDone g p d).setOut g p d (s.targetCode g p d)) := by
  change done s (match (s.dac g p d).hold with
    | some t => if holdTclk ≤ s.since t then
        (s.setDac g p d { s.dac g p d with hold := none }).setOut g p d (s.targetCode g p d) else s
    | none => s) = _
  simp only [hold, due, if_true]
  rfl

theorem State.deglitch_runs {s : State} (g : GroupIx) (p : Pos) (d : Fin 6) {at_ : Time} (hold : (s.dac g p d).hold = some at_)
    (due : holdTclk ≤ s.since at_) : RunsTo (exec (.deglitchHoldEnd g p d) s) fun t =>
      t.outCode g p d = s.targetCode g p d ∧ (t.dac g p d).hold = none ∧
      Frame s t [.groups, .sys] (fun y => y = LS_OUT_CODE g p d ∨ violField g y) := by
  rw [exec_deglitchHoldEnd hold due]
  refine runsTo_done _ _ _ ⟨?_, ?_, ((Frame.setDac _ _ _ _ _ _ _ (by simp)).trans (Frame.setOutput ..)).trans (Frame.settle ..)⟩
  · rw [outCode_settle, State.outCode_setOut _ p.isLt d.isLt (s.targetCode_lt g p d)]
  · rw [dac_settle, (SameDacs.setOut ..).dac, State.holdDone, State.dac_setDac _ _ g.isLt p.isLt d.isLt]

/-- Settles O9: a select and a commit at the die with the targets they give (`State.dieTargets_take`), steps and holds. -/
theorem dacOutputs : Obligations.DacOutputs :=
  ⟨fun _ g _ _ _ pend due small alone => State.levelSelect_runs g pend due small alone,
    fun _ g _ _ _ pend due rising last alone => State.lsCommit_runs g pend due rising last alone,
    fun _ g p d _ slew due up => State.slewUp_runs g p d slew due up,
    fun _ g p d _ slew due down => State.slewDown_runs g p d slew due down,
    fun _ g p d _ hold due => State.deglitch_runs g p d hold due⟩

end Sys2Proof.Machine
end

section
/-! PARK: what begins it, what ends it, range changes and limits (R105 to R110, R140). -/

namespace Sys2Proof.Machine

/-! ### PARK as it begins -/

theorem State.notPba_parkstat (g : Nat) (x : Fld) (h : x.reg = LS_PARKSTAT g) : x.reg.notPba :=
  .inr (by rw [h]; simp only [LS_PARKSTAT, groupBase]; omega)

theorem LS_PARKSTAT_apart {g k : Nat} (h : g ≠ k) : (LS_PARKSTAT_PARKED g).apart (LS_PARKSTAT_PARKED k) :=
  .inl (by simp only [LS_PARKSTAT_PARKED, LS_PARKSTAT, groupBase]; omega)

/-- The bits of PARKED after one of them is set. -/
theorem State.parked_setBit (s : State) (g p : Nat) (b : Bool) (k : Nat) {q : Nat} (hq : q < 16) :
    (s.setBit (LS_PARKSTAT_PARKED g) p b).parked k q = if g = k ∧ p = q then b else s.parked k q := by
  rw [State.parked]
  by_cases e : g = k
  · subst e
    rw [State.bit_setBit _ _ _ _ _ (Fld.inWord_of _ rfl) hq]
    simp only [true_and]
    rfl
  · rw [State.bit_setBit_apart _ _ _ _ _ _ (Fld.inWord_of _ rfl) (LS_PARKSTAT_apart e), if_neg fun h => e h.1]
    rfl

theorem State.parked_setChan (s : State) (g p : Nat) (x : Chan) (k q : Nat) : (s.setChan g p x).parked k q = s.parked k q :=
  State.bit_of_get (State.get_setChan ..) q

/-- A channel with a cause is in PARK afterwards. -/
theorem State.parked_parkUpdate {s : State} {g p : Nat} (hp : p < 16) (h : s.parkCause g p) : (s.parkUpdate g p).parked g p := by
  unfold State.parkUpdate
  dsimp only
  rw [if_pos h]
  split
  · next here => rw [State.parked_setChan]; exact here
  · rw [State.parked_setBit _ _ _ _ _ hp, if_pos ⟨rfl, rfl⟩]

/-- The update takes no channel out of PARK. -/
theorem State.parked_parkUpdate_of (s : State) (g p : Nat) {k q : Nat} (hq : q < 16) (h : s.parked k q) :
    (s.parkUpdate g p).parked k q := by
  unfold State.parkUpdate
  dsimp only
  split
  · split
    · rw [State.parked_setChan]; exact h
    · rw [State.parked_setBit _ _ _ _ _ hq, State.parked_setChan]
      split
      · rfl
      · exact h
  · split
    · rw [State.parked_setChan]; exact h
    · exact h

/-- The fields of PARK that an update of the groups changes. -/
def parkField (y : Fld) : Prop := ∃ g < 32, y = LS_PARKSTAT_PARKED g

theorem Frame.parkUpdateOf (s : State) {g : Nat} (p : Nat) (hg : g < 32) : Frame s (s.parkUpdate g p) [.groups] parkField :=
  Frame.parkUpdate s _ _ g p (by simp) ⟨g, hg, rfl⟩

/-- The channels of a group for which a cause holds throughout are in PARK after the update of the group. -/
theorem State.parked_parkGroup {s : State} {g : Nat} (hg : g < 32) (C : Nat → Prop)
    (cause : ∀ t, Frame s t [.groups] parkField → ∀ p < 16, C p → t.parkCause g p) :
    ∀ p < 16, C p → (s.parkGroup g).parked g p := by
  intro p hp hc
  exact (foldl_establishes (fun t p => State.parkUpdate t g p) (fun t => Frame s t [.groups] parkField)
    (fun p t => C p → t.parked g p) (List.range 16) (fun t ht p _ => ht.trans (Frame.parkUpdateOf t p hg))
    (fun t ht p hp hc => State.parked_parkUpdate (List.mem_range.1 hp) (cause t ht p (List.mem_range.1 hp) hc))
    (fun t _ p _ q hq h hc => t.parked_parkUpdate_of g p (List.mem_range.1 hq) (h hc)) s (Frame.refl ..)).2 p
    (List.mem_range.2 hp) hc

theorem State.parked_parkGroup_of (s : State) (g : Nat) {k q : Nat} (hq : q < 16) (h : s.parked k q) :
    (s.parkGroup g).parked k q :=
  State.forEach_holds (fun t => t.parked k q = true) _ (fun t p ht => t.parked_parkUpdate_of g p hq ht) s _ h

/-- A cause that holds for every channel throughout parks them all. -/
theorem State.parked_parkAll {s : State} (cause : ∀ t, Frame s t [.groups] parkField → ∀ g < 32, ∀ p < 16, t.parkCause g p) :
    ∀ g < 32, ∀ p < 16, s.parkAll.parked g p := by
  have group (t : State) {g : Nat} (hg : g < 32) : Frame t (t.parkGroup g) [.groups] parkField :=
    Frame.parkGroup t _ _ g (by simp) ⟨g, hg, rfl⟩
  intro g hg
  exact (foldl_establishes State.parkGroup (fun t => Frame s t [.groups] parkField) (fun g t => ∀ p < 16, t.parked g p)
    (List.range 32) (fun t ht g hg => ht.trans (group t (List.mem_range.1 hg)))
    (fun t ht g hg p hp => State.parked_parkGroup (List.mem_range.1 hg) (fun _ => True)
      (fun u hu q hq _ => cause u (ht.trans hu) g (List.mem_range.1 hg) q hq) p hp trivial)
    (fun t _ g _ k _ h p hp => t.parked_parkGroup_of g hp (h p hp)) s (Frame.refl ..)).2 g (List.mem_range.2 hg)

theorem parked_settle (s t : State) (g p : Nat) : (settle s t).parked g p = t.parked g p :=
  State.bit_of_get (get_settle _ _ _ (State.notPba_parkstat g _ rfl)) p

theorem parkField_apart {x : Fld} (h : ∀ g < 32, (LS_PARKSTAT g).addr ≠ x.reg.addr) : ∀ y, parkField y → y.apart x := by
  rintro y ⟨g, hg, rfl⟩
  exact .inl (h g hg)

/-! ### The host's causes -/

theorem State.parkCause_of_enable {s : State} (g p : Nat) (h : s.on GL_PIN_ENABLE_EN = false) : s.parkCause g p := by
  simp [State.parkCause, h]

theorem State.parkCause_of_parkN {s : State} (g p : Nat) (h : s.sys.parkN = false) : s.parkCause g p := by
  simp [State.parkCause, h]

theorem State.parkCause_of_host {s : State} {g p : Nat} (h : s.bit (LS_PARK_PARK g) p) : s.parkCause g p := by
  simp [State.parkCause, h]

/-- The state with the fields of GL_PIN_ENABLE stored. -/
def State.enableStored (s : State) (v : Word) : State :=
  (s.set GL_PIN_ENABLE_HELD (if fieldOf v 0 0 = 1 ∧ !s.sys.committed then 1 else 0)).set GL_PIN_ENABLE_EN (fieldOf v 0 0)

theorem exec_pinEnableWrite (s : State) (v : Word) : exec (.pinEnableWrite v) s = done s (s.enableStored v).parkAll := rfl

theorem State.get_en_enableStored (s : State) (v : Word) : (s.enableStored v).get GL_PIN_ENABLE_EN = fieldOf v 0 0 := by
  rw [State.enableStored, State.get_set _ _ _ (Fld.inWord_of _ rfl)]
  exact Nat.mod_eq_of_lt (fieldOf_lt ..)

theorem parkstat_apart_enable (g : Nat) : (LS_PARKSTAT g).addr ≠ GL_PIN_ENABLE.addr := by
  simp only [LS_PARKSTAT, GL_PIN_ENABLE, groupBase]
  omega

theorem Frame.parkAllOf (s : State) : Frame s s.parkAll [.groups] parkField :=
  Frame.parkAll s _ _ (by simp) fun g hg => ⟨g, hg, rfl⟩

theorem State.pinDisable_runs (s : State) {v : Word} (off : v.getLsbD 0 = false) : RunsTo (exec (.pinEnableWrite v) s) fun t =>
      t.get GL_PIN_ENABLE_EN = 0 ∧ (∀ g p, g < 32 → p < 16 → t.parked g p) ∧
      Frame s t [.groups] (fun y => y.reg = GL_PIN_ENABLE ∨ ∃ g, y.reg = LS_PARKSTAT g) := by
  have stored : (s.enableStored v).get GL_PIN_ENABLE_EN = 0 := (s.get_en_enableStored v).trans (fieldOf_of_not_bit off)
  have wrote : Frame s (s.enableStored v) [.groups] (fun y => y.reg = GL_PIN_ENABLE ∨ ∃ g, y.reg = LS_PARKSTAT g) :=
    (Frame.set _ _ _ _ _ (Fld.inWord_of _ rfl) (.inl rfl)).trans (Frame.set _ _ _ _ _ (Fld.inWord_of _ rfl) (.inl rfl))
  have kept (t : State) (h : Frame (s.enableStored v) t [.groups] parkField) : t.get GL_PIN_ENABLE_EN = 0 :=
    (h.reg _ (by decide) (parkField_apart fun g _ => parkstat_apart_enable g)).trans stored
  rw [exec_pinEnableWrite]
  refine runsTo_done _ _ _ ⟨?_, fun g p hg hp => ?_, ?_⟩
  · rw [get_settle _ _ _ (by decide)]
    exact kept _ (Frame.parkAllOf _)
  · rw [parked_settle]
    exact State.parked_parkAll (fun t ht g _ p _ => t.parkCause_of_enable g p (State.on_of_get (kept t ht))) g hg p hp
  · exact (wrote.trans ((Frame.parkAllOf _).mono (fun _ => id) fun y ⟨g, _, e⟩ => .inr ⟨g, e ▸ rfl⟩)).trans (Frame.settle ..)

theorem State.pinEnable_runs (s : State) {v : Word} (on : v.getLsbD 0) : RunsTo (exec (.pinEnableWrite v) s) fun t =>
      t.get GL_PIN_ENABLE_EN = 1 ∧ t.get GL_PIN_ENABLE_HELD = (if s.sys.committed then 0 else 1) := by
  have kept (x : Fld) (h : x.reg = GL_PIN_ENABLE) : (settle s (s.enableStored v).parkAll).get x = (s.enableStored v).get x :=
    (get_settle _ _ _ (h ▸ by decide)).trans
      ((Frame.parkAllOf _).reg x (h ▸ by decide) (parkField_apart fun g _ => h ▸ parkstat_apart_enable g))
  have held : (s.enableStored v).get GL_PIN_ENABLE_HELD = if s.sys.committed then 0 else 1 := by
    rw [State.enableStored, State.get_set_apart _ _ _ _ (Fld.inWord_of _ rfl) (by decide), State.get_set _ _ _ (Fld.inWord_of _ rfl),
      fieldOf_of_bit on]
    cases s.sys.committed <;> rfl
  rw [exec_pinEnableWrite]
  exact runsTo_done _ _ _ ⟨(kept _ rfl).trans ((s.get_en_enableStored v).trans (fieldOf_of_bit on)), (kept _ rfl).trans held⟩

theorem exec_lsParkWrite {s : State} (g : GroupIx) (v : Word) (now : s.actsNow) :
    exec (.lsParkWrite g v) s = done s ((s.set (LS_PARK_PARK g) (fieldOf v 15 0)).parkGroup g) := by
  change done s (s.mirrored (LS_PARK g).addr v fun s => s.writeLsPark g v) = _
  rw [State.mirrored_actsNow _ _ _ _ now]
  rfl

theorem State.lsParkWrite_runs {s : State} (g : GroupIx) (v : Word) (now : s.actsNow) : RunsTo (exec (.lsParkWrite g v) s) fun t =>
      t.get (LS_PARK_PARK g) = v.toNat % 65536 ∧ (∀ p, p < 16 → v.getLsbD p → t.parked g p) ∧
      Frame s t [.groups] (fun y => y = LS_PARK_PARK g ∨ y.reg = LS_PARKSTAT g) := by
  have stored : (s.set (LS_PARK_PARK g) (fieldOf v 15 0)).get (LS_PARK_PARK g) = v.toNat % 65536 := by
    rw [State.get_set _ _ _ (Fld.inWord_of _ rfl), fieldOf_low_half]
    exact Nat.mod_mod _ _
  have wrote : Frame s (s.set (LS_PARK_PARK g) (fieldOf v 15 0)) [.groups] (fun y => y = LS_PARK_PARK g ∨ y.reg = LS_PARKSTAT g) :=
    Frame.set _ _ _ _ _ (Fld.inWord_of _ rfl) (.inl rfl)
  have pba : (LS_PARK_PARK g).reg.notPba := .inr (by simp only [LS_PARK_PARK, LS_PARK, groupBase]; omega)
  have other : ∀ y, parkField y → y.apart (LS_PARK_PARK g) := parkField_apart fun k _ => by
    simp only [LS_PARKSTAT, LS_PARK_PARK, LS_PARK, groupBase]
    omega
  rw [exec_lsParkWrite g v now]
  generalize s.set (LS_PARK_PARK g) (fieldOf v 15 0) = u at stored wrote
  have kept (t : State) (h : Frame u t [.groups] parkField) : t.get (LS_PARK_PARK g) = v.toNat % 65536 :=
    (h.reg _ pba other).trans stored
  refine runsTo_done _ _ _ ⟨?_, fun p hp hv => ?_, (wrote.trans (Frame.parkGroup _ _ _ _ (by simp) (.inr rfl))).trans
    (Frame.settle ..)⟩
  · rw [get_settle _ _ _ pba]
    exact kept _ (Frame.parkGroup _ _ _ _ (by simp) ⟨g, g.isLt, rfl⟩)
  · rw [parked_settle]
    refine State.parked_parkGroup g.isLt (fun p => v.getLsbD p = true) (fun t ht q hq h => State.parkCause_of_host ?_) p hp hv
    rw [State.bit, kept t ht, show (65536 : Nat) = 2 ^ 16 from rfl, Nat.testBit_mod_two_pow]
    simpa [hq, BitVec.getLsbD] using h

/-! ### A channel leaves PARK -/

theorem Chan.form_park (c : Chan) (b : Tick) (f : ChanForm) :
    (c.form b f).1.parkEnd = c.parkEnd ∧ (c.form b f).1.parkLog = c.parkLog := ⟨rfl, rfl⟩

theorem Chan.forms_park (l : List VecRun) (form : VecRun → ChanForm) (c : Chan) :
    (l.foldl (fun c v => (c.form v.b (form v)).1) c).parkEnd = c.parkEnd ∧
      (l.foldl (fun c v => (c.form v.b (form v)).1) c).parkLog = c.parkLog := by
  induction l generalizing c with
  | nil => exact ⟨rfl, rfl⟩
  | cons v l ih =>
    rw [List.foldl_cons]
    exact ⟨(ih _).1.trans (c.form_park v.b (form v)).1, (ih _).2.trans (c.form_park v.b (form v)).2⟩

/-- What `reform` makes of a channel. -/
theorem State.reform_form (s : State) (g p : Nat) (t : Time) : ∃ c : Chan, s.reform g p t = s.setChan g p c ∧
    c.parkEnd = (s.chan g p).parkEnd ∧ c.parkLog = (s.chan g p).parkLog ∧
    ((∀ v ∈ (s.group g).begun, reached (tclkOf (v.b + BitVec.ofNat 66 zOffset)) t = false) → c.lane = .mid) := by
  unfold State.reform
  extract_lets vs c data
  refine ⟨_, rfl, ?_, ?_, fun h => ?_⟩
  · rw [(Chan.forms_park vs (fun v => formOf v.forms p) _).1]
  · rw [(Chan.forms_park vs (fun v => formOf v.forms p) _).2]
  · have none : vs = [] := List.reverse_eq_nil_iff.2 (by simpa using h)
    rw [none]
    rfl

/-- The channel out of PARK, before its lane is formed anew. -/
def State.unparked (s : State) (g p : Nat) (t : Time) : State :=
  (s.setBit (LS_PARKSTAT_PARKED g) p false).setChan g p
    { s.chan g p with parkEnd := none, parkLog := ((t, false) :: (s.chan g p).parkLog).take 8 }

theorem State.leavePark_eq (s : State) (g p : Nat) (t : Time) : s.leavePark g p t = (s.unparked g p t).reform g p t := rfl

theorem State.group_unparked_begun (s : State) (g p : Nat) (t : Time) :
    ((s.unparked g p t).group g).begun = (s.group g).begun :=
  (SameRest.setChan (s.setBit (LS_PARKSTAT_PARKED g) p false) g p _).field Group.begun (fun _ _ => rfl) g

theorem exec_parkExit {s : State} {g : GroupIx} {p : Pos} {at_ : Time} (h : s.exitAt g p = some at_) :
    exec (.parkExit g p) s = done s (s.leavePark g p at_) := by
  change done s (match s.exitAt g p with
    | some t => s.leavePark g p t
    | none => s) = _
  simp only [h]

theorem chan_settle (s t : State) (g p : Nat) : (settle s t).chan g p = t.chan g p := State.chan_congr (settle_groups ..) g p

theorem State.parkExit_runs {s : State} (g : GroupIx) (p : Pos) {at_ : Time} (h : s.exitAt g p = some at_) :
    RunsTo (exec (.parkExit g p) s) fun t =>
      t.parked g p = false ∧ (t.chan g p).parkEnd = none ∧ (t.chan g p).parkLog.head? = some (at_, false) ∧
      ((∀ v ∈ (s.group g).begun, reached (tclkOf (v.b + BitVec.ofNat 66 zOffset)) at_ = false) → (t.chan g p).lane = .mid) ∧
      (∀ q, q < 16 → q ≠ p → t.parked g q = s.parked g q ∧ t.chan g q = s.chan g q) ∧
      Frame s t [.groups] (· ∈ [LS_PARKSTAT_PARKED g]) := by
  obtain ⟨c, e, parkEnd, parkLog, lane⟩ := (s.unparked g p at_).reform_form g p at_
  have fresh : (s.unparked g p at_).chan g p =
      { s.chan g p with parkEnd := none, parkLog := ((at_, false) :: (s.chan g p).parkLog).take 8 } :=
    State.chan_setChan _ _ g.isLt p.isLt
  have here (q : Nat) (hq : q < 16) : ((s.unparked g p at_).setChan g p c).parked g q =
      if g.val = g.val ∧ p.val = q then false else s.parked g q := by
    rw [State.parked_setChan, State.unparked, State.parked_setChan, State.parked_setBit _ _ _ _ _ hq]
  have mine : ((s.unparked g p at_).setChan g p c).chan g p = c := State.chan_setChan _ _ g.isLt p.isLt
  rw [exec_parkExit h, State.leavePark_eq, e]
  refine runsTo_done _ _ _ ⟨?_, ?_, ?_, fun none => ?_, fun q _ ne => ⟨?_, ?_⟩, ?_⟩
  · rw [parked_settle, here p p.isLt, if_pos ⟨rfl, rfl⟩]
  · rw [chan_settle, mine, parkEnd, fresh]
  · rw [chan_settle, mine, parkLog, fresh]
    rfl
  · rw [chan_settle, mine]
    exact lane (by rw [State.group_unparked_begun]; exact none)
  · rw [parked_settle, here q q.isLt, if_neg fun x => Fin.val_ne_of_ne ne x.2.symm]
  · have other : ¬(g.val = g.val ∧ p.val = q.val) := fun x => Fin.val_ne_of_ne ne x.2.symm
    rw [chan_settle, State.chan_setChan_ne _ _ other, State.unparked, State.chan_setChan_ne _ _ other]
    rfl
  · exact (((Frame.setBit _ _ _ _ _ _ (Fld.inWord_of _ rfl) (by simp)).trans (Frame.setChan _ _ _ _ _ _ (by simp))).trans
      (Frame.setChan _ _ _ _ _ _ (by simp))).trans (Frame.settle ..)

/-! ### The end of a range change -/

/-- The state with the words of a range change at the die. -/
def State.rangeWords (s : State) (g p : Nat) (drv pmu : Word) : State :=
  { s with die := (s.die.setWord (LS_DRV g p) drv).setWord (LS_PMU g p) pmu }

/-- The state at the end of a range change, before PARK follows. -/
def State.rangeEnded (s : State) (g p : Nat) (drv pmu : Word) : State :=
  ((s.rangeWords g p drv pmu).setChan g p
    { (s.rangeWords g p drv pmu).chan g p with rangePend := none, measSum := .empty }).setBit (LS_PARKSTAT_RANGE g) p false

theorem exec_rangeChangeEnd {s : State} {g : GroupIx} {p : Pos} {at_ : Time} {drv pmu : Word}
    (pend : (s.chan g p).rangePend = some (at_, drv, pmu)) (due : 3200 ≤ s.since at_) :
    exec (.rangeChangeEnd g p) s = done s ((s.rangeEnded g p drv pmu).parkUpdate g p) := by
  have late : usTclk 2 ≤ s.since at_ := due
  change execRangeChangeEnd g p s = _
  unfold execRangeChangeEnd
  simp only [pend, late, if_true]
  rfl

theorem State.rangePend_parkUpdate (s : State) {g p : Nat} (hg : g < 32) (hp : p < 16) :
    ((s.parkUpdate g p).chan g p).rangePend = (s.chan g p).rangePend := by
  unfold State.parkUpdate
  dsimp only
  split
  · split
    · rw [State.chan_setChan _ _ hg hp]
    · rw [State.setBit, State.chan_set, State.chan_setChan _ _ hg hp]
  · split
    · rw [State.chan_setChan _ _ hg hp]
    · rfl

theorem State.rangeChangeEnd_runs {s : State} (g : GroupIx) (p : Pos) {at_ : Time} {drv pmu : Word}
    (pend : (s.chan g p).rangePend = some (at_, drv, pmu)) (due : 3200 ≤ s.since at_) :
    RunsTo (exec (.rangeChangeEnd g p) s) fun t =>
      t.die.word (LS_DRV g p) = drv ∧ t.die.word (LS_PMU g p) = pmu ∧ (t.chan g p).rangePend = none ∧
      t.bit (LS_PARKSTAT_RANGE g) p = false ∧ Frame s t [.groups, .die] (fun y => y.reg = LS_PARKSTAT g) := by
  have die : (s.rangeEnded g p drv pmu).die = (s.die.setWord (LS_DRV g p) drv).setWord (LS_PMU g p) pmu := by
    rw [State.rangeEnded, State.setBit, State.set_die, State.setChan_die, State.rangeWords]
  have other : (LS_PMU g p).addr ≠ (LS_DRV g p).addr := by simp only [LS_PMU, LS_DRV]; omega
  have chan : ((s.rangeEnded g p drv pmu).chan g p).rangePend = none := by
    rw [State.rangeEnded, State.setBit, State.chan_set, State.chan_setChan _ _ g.isLt p.isLt]
  have range : (s.rangeEnded g p drv pmu).bit (LS_PARKSTAT_RANGE g) p = false := by
    rw [State.rangeEnded, State.bit_setBit _ _ _ _ _ (Fld.inWord_of _ rfl) p.isLt, if_pos rfl]
  have ended : Frame s (s.rangeEnded g p drv pmu) [.groups, .die] (fun y => y.reg = LS_PARKSTAT g) :=
    ((Frame.withDie s _ _ _ (by simp)).trans (Frame.setChan _ _ _ _ _ _ (by simp))).trans
      (Frame.setBit _ _ _ _ _ _ (Fld.inWord_of _ rfl) rfl)
  rw [exec_rangeChangeEnd pend due]
  generalize s.rangeEnded g p drv pmu = u at die chan range ended
  have kept : (u.parkUpdate g p).get (LS_PARKSTAT_RANGE g) = u.get (LS_PARKSTAT_RANGE g) :=
    (Frame.parkUpdate u [.groups] (· = LS_PARKSTAT_PARKED g) g p (by simp) rfl).reg _ (State.notPba_parkstat g _ rfl)
      fun y e => e ▸ Fld.apart_of _ _ (by rfl) (by rfl)
  refine runsTo_done _ _ _ ⟨?_, ?_, ?_, ?_, (ended.trans (Frame.parkUpdate _ _ _ _ _ (by simp) rfl)).trans (Frame.settle ..)⟩
  · rw [settle_die, State.die_parkUpdate, die, RegFile.word_setWord_ne _ _ _ _ other, RegFile.word_setWord]
  · rw [settle_die, State.die_parkUpdate, die, RegFile.word_setWord]
  · rw [chan_settle, u.rangePend_parkUpdate g.isLt p.isLt, chan]
  · rw [State.bit_of_get ((get_settle _ _ _ (State.notPba_parkstat g _ rfl)).trans kept), range]

/-! ### Limits of a driver -/

theorem State.ilimWorks_runs {s : State} (g : GroupIx) (p : Pos)
    (works : s.pinState g p = .on ∨ s.pinState g p = .off ∧ s.offLoad g p ≠ .nothing) :
    RunsTo (exec (.ilimEpisode g p) s) fun t => t.bit (LS_ILIMMAP_MAP g) p ∧ t.get (LS_FLAGS_ILIM g) = 1 ∧
      t.get (LS_CNT0_ILIM g) = min (s.get (LS_CNT0_ILIM g) + 1) 65535 ∧
      Frame s t [] (· ∈ [LS_ILIMMAP_MAP g, LS_FLAGS_ILIM g, LS_CNT0_ILIM g]) := by
  have acts : s.driverWorks g p = true := by
    rcases works with on | ⟨off, load⟩
    · simp [State.driverWorks, on]
    · simp [State.driverWorks, off, load]
  have mapFlags : (LS_FLAGS_ILIM g).apart (LS_ILIMMAP_MAP g) :=
    .inl (by simp only [LS_FLAGS_ILIM, LS_FLAGS, LS_ILIMMAP_MAP, LS_ILIMMAP]; omega)
  have mapCount : (LS_CNT0_ILIM g).apart (LS_ILIMMAP_MAP g) :=
    .inl (by simp only [LS_CNT0_ILIM, LS_CNT0, LS_ILIMMAP_MAP, LS_ILIMMAP]; omega)
  have countFlags : (LS_CNT0_ILIM g).apart (LS_FLAGS_ILIM g) :=
    .inl (by simp only [LS_CNT0_ILIM, LS_CNT0, LS_FLAGS_ILIM, LS_FLAGS]; omega)
  have pba (x : Fld) (a : Nat) (h : x.reg.addr = groupBase g + a) : x.reg.notPba := .inr (by rw [h, groupBase]; omega)
  refine runsTo_doneIf _ _ _ _ acts ⟨?_, ?_, ?_, ?_⟩
  · rw [State.bit_of_get (get_settle _ _ _ (pba _ _ rfl)), State.bit_of_get (State.get_flag_apart _ _ _ _ (Fld.inWord_of _ rfl)
      (Fld.inWord_of _ rfl) mapFlags mapCount), State.bit_of_get (State.get_raiseBit ..),
      State.bit_setBit _ _ _ _ _ (Fld.inWord_of _ rfl) p.isLt, if_pos rfl]
  · rw [get_settle _ _ _ (pba _ _ rfl), State.get_flag _ _ _ (Fld.inWord_of _ rfl) (Fld.inWord_of _ rfl) countFlags rfl]
  · rw [get_settle _ _ _ (pba _ _ rfl), State.get_flag_count _ _ _ (Fld.inWord_of _ rfl) (Fld.inWord_of _ rfl)
      (.inl (countFlags.resolve_right fun h => absurd (congrArg Reg.addr h.1) (by simp only [LS_CNT0_ILIM, LS_CNT0, LS_FLAGS_ILIM, LS_FLAGS]; omega)).symm),
      State.get_raiseBit, State.setBit, State.get_set_apart _ _ _ _ (Fld.inWord_of _ rfl)
      (.inl (by simp only [LS_CNT0_ILIM, LS_CNT0, LS_ILIMMAP_MAP, LS_ILIMMAP]; omega))]
    rfl
  · exact ((Frame.raiseBit _ _ _ _ _ (Fld.inWord_of _ rfl) (by simp)).trans (Frame.flag _ _ _ _ _ (Fld.inWord_of _ rfl)
      (Fld.inWord_of _ rfl) (by simp) (by simp))).trans (Frame.settle ..)

theorem State.ilimRests_runs {s : State} (g : GroupIx) (p : Pos) (on : s.pinState g p ≠ .on)
    (off : s.pinState g p ≠ .off ∨ s.offLoad g p = .nothing) :
    RunsTo (exec (.ilimEpisode g p) s) fun t => Frame s t [] (fun _ => False) := by
  have rests : s.driverWorks g p = false := by
    rcases off with off | load
    · simp [State.driverWorks, on, off]
    · simp [State.driverWorks, on, load]
  have idle : exec (.ilimEpisode g p) s = done s s := by
    change doneIf (s.driverWorks g p) s _ = _
    rw [rests]
    rfl
  rw [idle]
  exact runsTo_done _ _ _ (Frame.settle ..)

/-! ### PARK_N -/

/-- The state with PARK_N fallen, noted and the channels parked. -/
def State.parkNFallen (s : State) : State :=
  ({ s with sys := { s.sys with parkN := false } }.flag (CP_PFLAGS_PARKN 0) (CP_PCNT_PARKN 0)).parkAll

/-- R140: the causes that the fall raises. -/
def State.parkNCauses (s u : State) : State :=
  if s.on (CP_PARKN_CTL_EN 0) then
    u.forEach u.busyLeaders fun t e => t.cause e (t.get (CP_PARKN_CTL_CTX 0)) (t.get (CP_PARKN_CTL_PRIO 0)) .trip
  else u

theorem exec_parkNFall {s : State} (high : s.sys.parkN) : exec .parkNFall s = done s (s.parkNCauses s.parkNFallen) :=
  doneIf_pos high ..

theorem Frame.parkNCauses (s u : State) : Frame u (s.parkNCauses u) [.engines] causeField :=
  Frame.ite _ _ _ _ _ _ (Frame.forEach _ _ _ _ _ fun t e _ => Frame.cause t _ _ _ _ _ _ (by simp)
    fun _ hy => causeField_of (t.get_lt (CP_PARKN_CTL_CTX 0)) hy) (Frame.refl ..)

theorem causeField_apart_parkstat {y : Fld} (h : causeField y) (g : Nat) (x : Fld) (e : x.reg = LS_PARKSTAT g) : y.apart x := by
  obtain ⟨k, lo, hi⟩ := h
  exact .inl (by rw [e]; simp only [groupBase, LS_PARKSTAT] at lo hi ⊢; omega)

theorem State.parkNFall_runs {s : State} (high : s.sys.parkN) : RunsTo (exec .parkNFall s) fun t =>
      t.sys.parkN = false ∧ (∀ g p, g < 32 → p < 16 → t.parked g p) ∧ t.get (CP_PFLAGS_PARKN 0) = 1 ∧
      Frame s t [.groups, .sys, .engines] (fun y => y = CP_PFLAGS_PARKN 0 ∨ y = CP_PCNT_PARKN 0 ∨
        (∃ g, y.reg = LS_PARKSTAT g) ∨ causeField y) := by
  have fallen : Frame s (({ s with sys := { s.sys with parkN := false } } : State).flag (CP_PFLAGS_PARKN 0) (CP_PCNT_PARKN 0))
      [.groups, .sys, .engines] (fun y => y = CP_PFLAGS_PARKN 0 ∨ y = CP_PCNT_PARKN 0 ∨
        (∃ g, y.reg = LS_PARKSTAT g) ∨ causeField y) :=
    (Frame.setSys s _ _ _ (by simp)).trans (Frame.flag _ _ _ _ _ (Fld.inWord_of _ rfl) (Fld.inWord_of _ rfl) (.inl rfl)
      (.inr (.inl rfl)))
  have low : (({ s with sys := { s.sys with parkN := false } } : State).flag (CP_PFLAGS_PARKN 0) (CP_PCNT_PARKN 0)).sys.parkN =
      false := by rw [State.flag_sys]
  have noted : (({ s with sys := { s.sys with parkN := false } } : State).flag (CP_PFLAGS_PARKN 0) (CP_PCNT_PARKN 0)).get
      (CP_PFLAGS_PARKN 0) = 1 :=
    State.get_flag _ _ _ (Fld.inWord_of _ rfl) (Fld.inWord_of _ rfl) (by decide) rfl
  rw [exec_parkNFall high, State.parkNFallen]
  generalize ({ s with sys := { s.sys with parkN := false } } : State).flag (CP_PFLAGS_PARKN 0) (CP_PCNT_PARKN 0) = u
    at fallen low noted
  have parks := Frame.parkAllOf u
  have causes := Frame.parkNCauses s u.parkAll
  have kept (t : State) (h : Frame u t [.groups] parkField) : t.sys.parkN = false :=
    (congrArg SysState.parkN (h.part .sys (by simp))).trans low
  refine runsTo_done _ _ _ ⟨?_, fun g p hg hp => ?_, ?_, ?_⟩
  · rw [settle_sys, show (s.parkNCauses u.parkAll).sys = u.parkAll.sys from causes.part .sys (by simp)]
    exact kept _ parks
  · rw [parked_settle, State.parked, State.bit_of_get (causes.reg _ (State.notPba_parkstat g _ rfl)
      fun y hy => causeField_apart_parkstat hy g _ rfl)]
    exact State.parked_parkAll (fun t ht g _ p _ => t.parkCause_of_parkN g p (kept t ht)) g hg p hp
  · rw [get_settle _ _ _ (by decide), causes.reg _ (by decide) fun y hy => ?_, parks.reg _ (by decide) ?_, noted]
    · exact parkField_apart fun g _ => by simp only [LS_PARKSTAT, CP_PFLAGS_PARKN, CP_PFLAGS, groupBase]; omega
    · obtain ⟨k, lo, hi⟩ := hy
      exact .inl (by simp only [groupBase, CP_PFLAGS_PARKN, CP_PFLAGS] at lo hi ⊢; omega)
  · exact ((fallen.trans (parks.mono (by simp) fun y ⟨g, _, e⟩ => .inr (.inr (.inl ⟨g, e ▸ rfl⟩)))).trans
      (causes.mono (by simp) fun y hy => .inr (.inr (.inr hy)))).trans (Frame.settle ..)

theorem State.parkNRise_runs {s : State} (low : s.sys.parkN = false) : RunsTo (exec .parkNRise s) fun t =>
      t.sys.parkN ∧ Frame s t [.groups, .sys] (fun y => ∃ g, y.reg = LS_PARKSTAT g) := by
  have acts : (!s.sys.parkN) = true := by rw [low]; rfl
  have parks := Frame.parkAllOf ({ s with sys := { s.sys with parkN := true } } : State)
  refine runsTo_doneIf _ _ _ _ acts ⟨?_, ?_⟩
  · rw [settle_sys, show _ = _ from parks.part .sys (by simp)]
  · exact ((Frame.setSys s _ _ _ (by simp)).trans (parks.mono (by simp) fun y ⟨g, _, e⟩ => ⟨g, e ▸ rfl⟩)).trans (Frame.settle ..)

/-- Settles O11: channels park while a cause holds (`State.parked_parkAll`), leave PARK (`State.reform_form`), range changes
end, and limits are noted. -/
theorem park : Obligations.Park :=
  ⟨fun s _ off => s.pinDisable_runs off, fun s _ on => s.pinEnable_runs on, fun _ g v now => State.lsParkWrite_runs g v now,
    fun _ g p _ h => State.parkExit_runs g p h, fun _ g p _ _ _ pend due => State.rangeChangeEnd_runs g p pend due,
    fun _ g p works => State.ilimWorks_runs g p works, fun _ g p on off => State.ilimRests_runs g p on off,
    fun _ high => State.parkNFall_runs high, fun _ low => State.parkNRise_runs low⟩

end Sys2Proof.Machine
end

section
/-! Requests, starts and results of measurements (R115 to R118). -/

namespace Sys2Proof.Machine

/-! ### A mask of one position -/

theorem fieldOf_onePos (p : Pos) : fieldOf (BitVec.ofNat 32 (2 ^ p.val)) 15 0 = 2 ^ p.val := by
  revert p
  decide

theorem bitsOf_onePos (p : Pos) : bitsOf (2 ^ p.val) 16 = [p.val] := by
  revert p
  decide

theorem exec_measRequestWrite {s : State} (g : GroupIx) (p : Pos) (now : s.actsNow) :
    exec (.measRequestWrite g (BitVec.ofNat 32 (2 ^ p.val))) s = done s (s.measRequest g p) := by
  change done s (s.mirrored (LS_MREQ g).addr _ fun s => s.measMask g (fieldOf (BitVec.ofNat 32 (2 ^ p.val)) 15 0)) = _
  rw [State.mirrored_actsNow _ _ _ _ now, fieldOf_onePos, State.measMask, bitsOf_onePos]
  rfl

/-! ### Results -/

/-- The state with a result in LS_MRES_p. -/
def State.measShown (s : State) (g p : Nat) (value : Int) (stat : Nat) : State :=
  ((s.setInt (LS_MRES_VALUE g p) value).set (LS_MRES_STAT g p) stat).incr (LS_MRES_SEQ g p)

theorem State.get_measShown (s : State) (g p : Nat) {value : Int} {stat : Nat} (small : stat < 4) (lo : -131072 ≤ value)
    (hi : value < 131072) : (s.measShown g p value stat).getInt (LS_MRES_VALUE g p) = value ∧
      (s.measShown g p value stat).get (LS_MRES_STAT g p) = stat ∧
      (s.measShown g p value stat).get (LS_MRES_SEQ g p) = (s.get (LS_MRES_SEQ g p) + 1) % 4096 := by
  have statSeq : (LS_MRES_SEQ g p).apart (LS_MRES_STAT g p) := Fld.apart_of _ _ (by rfl) (by rfl)
  have valSeq : (LS_MRES_SEQ g p).apart (LS_MRES_VALUE g p) := Fld.apart_of _ _ (by rfl) (by rfl)
  have valStat : (LS_MRES_STAT g p).apart (LS_MRES_VALUE g p) := Fld.apart_of _ _ (by rfl) (by rfl)
  have seqStat : (LS_MRES_STAT g p).apart (LS_MRES_SEQ g p) := Fld.apart_of _ _ (by rfl) (by rfl)
  have seqVal : (LS_MRES_VALUE g p).apart (LS_MRES_SEQ g p) := Fld.apart_of _ _ (by rfl) (by rfl)
  refine ⟨?_, ?_, ?_⟩
  · rw [State.measShown, State.incr, State.getInt_congr ((State.get_set_apart _ _ _ _ (Fld.inWord_of _ rfl) valSeq).trans
      (State.get_set_apart _ _ _ _ (Fld.inWord_of _ rfl) valStat))]
    exact State.getInt_setInt _ _ _ (Fld.inWord_of _ rfl) lo hi
  · rw [State.measShown, State.incr, State.get_set_apart _ _ _ _ (Fld.inWord_of _ rfl) statSeq,
      State.get_set _ _ _ (Fld.inWord_of _ rfl)]
    exact Nat.mod_eq_of_lt small
  · rw [State.measShown, State.incr, State.get_set _ _ _ (Fld.inWord_of _ rfl),
      State.get_set_apart _ _ _ _ (Fld.inWord_of _ rfl) seqStat, State.get_setInt_apart _ _ _ _ (Fld.inWord_of _ rfl) seqVal]
    rfl

theorem Frame.measShown (s : State) (g p : Nat) (value : Int) (stat : Nat) (ps : List Part) (w : Fld → Prop)
    (h : ∀ y, y.reg = LS_MRES g p → w y) : Frame s (s.measShown g p value stat) ps w :=
  ((Frame.setInt _ _ _ _ _ (Fld.inWord_of _ rfl) (h _ rfl)).trans (Frame.set _ _ _ _ _ (Fld.inWord_of _ rfl) (h _ rfl))).trans
    (Frame.incr _ _ _ _ (Fld.inWord_of _ rfl) (h _ rfl))

theorem State.measResult_abort (s : State) (g p : Nat) :
    s.measResult g p 0 statAbort = (s.measShown g p 0 statAbort).flag (LS_FLAGS_ABORT g) (LS_CNT1_ABORT g) := rfl

theorem mres_apart {g p : Nat} {x y : Fld} (hx : x.reg = LS_MRES g p)
    (hy : y.reg.addr = groupBase g + 0x4000 ∨ y.reg.addr = groupBase g + 0x4008) : y.apart x ∧ x.apart y := by
  have other : y.reg.addr ≠ x.reg.addr := by
    rw [hx]
    simp only [LS_MRES]
    omega
  exact ⟨.inl other, .inl other.symm⟩

theorem State.measAbort_runs {s : State} (g : GroupIx) (p : Pos) (now : s.actsNow) (off : s.dieGet (LS_PMU_MODE g p) = 0) :
    RunsTo (exec (.measRequestWrite g (BitVec.ofNat 32 (2 ^ p.val))) s) fun t =>
      t.get (LS_MRES_STAT g p) = statAbort ∧ t.get (LS_FLAGS_ABORT g) = 1 ∧
      t.get (LS_CNT1_ABORT g) = min (s.get (LS_CNT1_ABORT g) + 1) 65535 ∧
      Frame s t [] (fun y => y.reg = LS_MRES g p ∨ y = LS_FLAGS_ABORT g ∨ y = LS_CNT1_ABORT g) := by
  have pba (x : Fld) (a : Nat) (h : x.reg.addr = groupBase g + a) : x.reg.notPba := .inr (by rw [h, groupBase]; omega)
  have pbaStat : (LS_MRES_STAT g p).reg.notPba := .inr (by simp only [LS_MRES_STAT, LS_MRES, groupBase]; omega)
  have countFlags : (LS_CNT1_ABORT g).reg.addr ≠ (LS_FLAGS_ABORT g).reg.addr := by
    simp only [LS_CNT1_ABORT, LS_CNT1, LS_FLAGS_ABORT, LS_FLAGS]
    omega
  have flags := mres_apart (g := g) (p := p) (x := LS_MRES_STAT g p) (y := LS_FLAGS_ABORT g) rfl (.inl rfl)
  have count := mres_apart (g := g) (p := p) (x := LS_MRES_STAT g p) (y := LS_CNT1_ABORT g) rfl (.inr rfl)
  have shown := Frame.measShown s g p 0 statAbort [] (fun y => y.reg = LS_MRES g p) fun _ => id
  rw [exec_measRequestWrite g p now, State.measRequest, if_pos off, State.measResult_abort]
  refine runsTo_done _ _ _ ⟨?_, ?_, ?_, ?_⟩
  · rw [get_settle _ _ _ pbaStat, State.get_flag_apart _ _ _ _ (Fld.inWord_of _ rfl) (Fld.inWord_of _ rfl) flags.1 count.1,
      (s.get_measShown g p (by decide) (by decide) (by decide)).2.1]
  · rw [get_settle _ _ _ (pba _ _ rfl), State.get_flag _ _ _ (Fld.inWord_of _ rfl) (Fld.inWord_of _ rfl) (.inl countFlags) rfl]
  · rw [get_settle _ _ _ (pba _ _ rfl), State.get_flag_count _ _ _ (Fld.inWord_of _ rfl) (Fld.inWord_of _ rfl)
      (.inl countFlags.symm), shown.reg _ (pba _ _ rfl) fun y e => (mres_apart e (.inr rfl)).2]
    rfl
  · exact ((shown.mono (fun _ => id) fun _ => .inl).trans (Frame.flag _ _ _ _ _ (Fld.inWord_of _ rfl) (Fld.inWord_of _ rfl)
      (.inr (.inl rfl)) (.inr (.inr rfl)))).trans (Frame.settle ..)

/-! ### Requests and starts -/

theorem State.measRequest_waits {s : State} (g : GroupIx) (p : Pos) (on : s.dieGet (LS_PMU_MODE g p) ≠ 0)
    (free : (s.chan g p).measPend = false) (idle : s.measuring g p = false) (P : State → Prop)
    (h : ∀ t, (t.chan g p).measPend = true ∧ Frame s t [.groups] (fun _ => False) → P t) :
    RunsTo (done s (s.measRequest g p)) P := by
  have waits : s.measRequest g p = s.setChan g p { s.chan g p with measPend := true } := by
    rw [State.measRequest, if_neg on, free, idle]
    rfl
  rw [waits]
  refine runsTo_done _ _ _ (h _ ⟨?_, (Frame.setChan s _ _ _ _ _ (by simp)).trans (Frame.settle ..)⟩)
  rw [chan_settle, State.chan_setChan _ _ g.isLt p.isLt]

theorem State.measAuto_runs {s : State} (g : GroupIx) (p : Pos) (auto : 0 < s.dieGet (LS_MEAS_AUTO g p))
    (due : s.time.toNat % (s.dieGet (LS_MEAS_AUTO g p) * 160000) = 0) (on : s.dieGet (LS_PMU_MODE g p) ≠ 0)
    (free : (s.chan g p).measPend = false) (idle : s.measuring g p = false) : RunsTo (exec (.measAutoRequest g p) s) fun t =>
      (t.chan g p).measPend ∧ Frame s t [.groups] (fun _ => False) := by
  have acts : decide (0 < s.dieGet (LS_MEAS_AUTO g p) ∧ s.time.toNat % (s.dieGet (LS_MEAS_AUTO g p) * usTclk 100) = 0) = true :=
    decide_eq_true ⟨auto, due⟩
  have runs : exec (.measAutoRequest g p) s = done s (s.measRequest g p) := doneIf_pos acts ..
  rw [runs]
  exact State.measRequest_waits g p on free idle _ fun _ => id

theorem State.nextMeas_lt {s : State} {g : Nat} {j : Fin 2} {p : Nat} (h : s.nextMeas g j = some p) : p < 16 := by
  obtain ⟨i, -, rfl⟩ := List.mem_map.1 (List.mem_of_find?_eq_some h)
  omega

theorem State.measStart_runs {s : State} (g : GroupIx) (j : Fin 2) {p : Nat} (idle : vget (s.group g).adcBusy j none = none)
    (next : s.nextMeas g j = some p) : RunsTo (exec (.measStart g j) s) fun t =>
      vget (t.group g).adcBusy j none = some (p, s.time) ∧ (t.chan g p).measPend = false ∧
      Frame s t [.groups] (fun _ => False) := by
  have runs : exec (.measStart g j) s = done s (s.measTake g j p) := by
    change execMeasStart g j s = _
    unfold execMeasStart
    simp only [idle, next]
    rfl
  have taken : (s.measTake g j p).chan g p =
      { s.chan g p with measPend := false, measAbort := s.parked g p || (s.group g).shadowHold } := by
    rw [State.measTake, State.chan_eq, State.group_setGroup _ _ _ g.isLt]
    exact State.chan_setChan _ _ g.isLt (State.nextMeas_lt next)
  have busy : vget ((s.measTake g j p).group g).adcBusy j none = some (p, s.time) := by
    rw [State.measTake, State.group_setGroup _ _ _ g.isLt, vget_vset _ _ _ _ j.isLt, State.setChan_time]
  rw [runs]
  refine runsTo_done _ _ _ ⟨?_, ?_, ?_⟩
  · rw [group_settle, busy]
  · rw [chan_settle, taken]
  · exact ((Frame.setChan s _ _ _ _ _ (by simp)).trans (Frame.setGroup _ _ _ _ _ (by simp))).trans (Frame.settle ..)

/-! ### The end of a measurement -/

theorem roundedMean_one (v : Int) : roundedMean v 1 = v := by
  have half : (2 * v.natAbs + 1) / (2 * 1) = v.natAbs := by omega
  unfold roundedMean
  simp only [half]
  split <;> omega

theorem measValue_one {x : BitVec 18} (hi : x ≠ 0x1FFFF) (lo : x ≠ 0x20000) : measValue [x] false false = (x.toInt, statOk) := by
  have clean : ([x].any fun x => x == 0x1FFFF || x == 0x20000) = false := by
    simp only [List.any_cons, List.any_nil, Bool.or_false, beq_eq_false_iff_ne.2 hi, beq_eq_false_iff_ne.2 lo]
  have sum : ([x].map BitVec.toInt).foldl (· + ·) 0 = x.toInt := Int.zero_add _
  unfold measValue
  simp only [clean, sum]
  exact congrArg (·, statOk) (roundedMean_one x.toInt)

/-- The state with the ADC free again. -/
def State.measFreed (s : State) (g j : Nat) : State :=
  s.setGroup g { s.group g with adcBusy := vset (s.group g).adcBusy j none }

/-- The summary of a channel after a result without a mark. -/
def foldMeas (m : MeasSum) (value : Int) : MeasSum :=
  { min := if m.count = 0 then value else min m.min value, max := if m.count = 0 then value else max m.max value
    count := min (m.count + 1) 1023, anyCompl := m.anyCompl || false, anyOvr := m.anyOvr || false }

theorem State.measResult_ok (s : State) (g p : Nat) (value : Int) : s.measResult g p value statOk =
    (s.measShown g p value statOk).setChan g p { (s.measShown g p value statOk).chan g p with
      measSum := foldMeas ((s.measShown g p value statOk).chan g p).measSum value } := rfl

theorem exec_measComplete {s : State} {g : GroupIx} {j : Fin 2} {p : Fin 16} {at_ : Time} {x : BitVec 18}
    (busy : vget (s.group g).adcBusy j none = some (p.val, at_)) (one : s.dieGet (LS_MEAS_AVG g p) = 0)
    (due : 1600 * (s.dieGet (LS_MEAS_SETTLE g p) + 1) ≤ s.since at_) (abort : (s.chan g p).measAbort = false)
    (on : s.dieGet (LS_PMU_MODE g p) ≠ 0) (hi : x ≠ 0x1FFFF) (lo : x ≠ 0x20000) :
    exec (.measComplete g j [x] false) s = done s ((s.measFreed g j).measResult g p x.toInt statOk) := by
  have off : (s.dieGet (LS_PMU_MODE g p) == 0) = false := by simpa using on
  have due' : usTclk (s.dieGet (LS_MEAS_SETTLE g p) + 2 ^ 0) ≤ s.since at_ := due
  change execMeasComplete g j [x] false s = _
  unfold execMeasComplete
  simp only [busy, one, abort, off, Bool.or_false, measValue_one hi lo]
  rw [if_pos ⟨rfl, due'⟩]
  rfl

theorem State.measComplete_runs {s : State} (g : GroupIx) (j : Fin 2) (p : Fin 16) {at_ : Time} {x : BitVec 18}
    (busy : vget (s.group g).adcBusy j none = some (p.val, at_)) (one : s.dieGet (LS_MEAS_AVG g p) = 0)
    (due : 1600 * (s.dieGet (LS_MEAS_SETTLE g p) + 1) ≤ s.since at_) (abort : (s.chan g p).measAbort = false)
    (on : s.dieGet (LS_PMU_MODE g p) ≠ 0) (hi : x ≠ 0x1FFFF) (lo : x ≠ 0x20000) :
    RunsTo (exec (.measComplete g j [x] false) s) fun t =>
      t.getInt (LS_MRES_VALUE g p) = x.toInt ∧ t.get (LS_MRES_STAT g p) = statOk ∧
      t.get (LS_MRES_SEQ g p) = (s.get (LS_MRES_SEQ g p) + 1) % 4096 ∧
      (t.chan g p).measSum.count = min ((s.chan g p).measSum.count + 1) 1023 ∧
      vget (t.group g).adcBusy j none = none ∧ Frame s t [.groups] (fun y => y.reg = LS_MRES g p) := by
  have pba (f : Fld) (h : f.reg = LS_MRES g p) : f.reg.notPba := .inr (by rw [h]; simp only [LS_MRES, groupBase]; omega)
  have low : -131072 ≤ x.toInt := x.le_toInt
  have high : x.toInt < 131072 := x.toInt_lt
  have freed : Frame s (s.measFreed g j) [.groups] (fun y => y.reg = LS_MRES g p) := Frame.setGroup s _ _ _ _ (by simp)
  have group : (s.measFreed g j).group g = { s.group g with adcBusy := vset (s.group g).adcBusy j none } :=
    State.group_setGroup _ _ _ g.isLt
  have chan : (s.measFreed g j).chan g p = s.chan g p := by rw [State.chan_eq, group]; rfl
  have seq : (s.measFreed g j).get (LS_MRES_SEQ g p) = s.get (LS_MRES_SEQ g p) := State.get_setGroup ..
  rw [exec_measComplete busy one due abort on hi lo, State.measResult_ok]
  generalize s.measFreed g j = u at freed group chan seq
  obtain ⟨value, stat, count⟩ := u.get_measShown g p (stat := statOk) (by decide) low high
  have shown := Frame.measShown u g p x.toInt statOk [] (fun y => y.reg = LS_MRES g p) fun _ => id
  have groups : (u.measShown g p x.toInt statOk).groups = u.groups := shown.part .groups (by simp)
  generalize u.measShown g p x.toInt statOk = v at value stat count shown groups
  have same : v.chan g p = s.chan g p := (State.chan_congr groups g p).trans chan
  have free : (v.group g).adcBusy = vset (s.group g).adcBusy j none := by rw [State.group_congr groups, group]
  refine runsTo_done _ _ _ ⟨?_, ?_, ?_, ?_, ?_, ?_⟩
  · rw [getInt_settle _ _ _ (pba _ rfl), State.getInt_congr (State.get_setChan ..), value]
  · rw [get_settle _ _ _ (pba _ rfl), State.get_setChan, stat]
  · rw [get_settle _ _ _ (pba _ rfl), State.get_setChan, count, seq]
  · rw [chan_settle, State.chan_setChan _ _ g.isLt p.isLt, same]
    rfl
  · rw [group_settle, (SameRest.setChan v g p _).field Group.adcBusy (fun _ _ => rfl) g, free, vget_vset _ _ _ _ j.isLt]
  · exact ((freed.trans (shown.mono (by simp) fun _ => id)).trans (Frame.setChan _ _ _ _ _ _ (by simp))).trans (Frame.settle ..)

/-- Settles O12: what a request does (`State.measRequest_waits`), what an ADC takes and what a measurement leaves. -/
theorem measurements : Obligations.Measurements :=
  ⟨fun _ g p now off => State.measAbort_runs g p now off,
    fun _ g p now on free idle => by
      rw [exec_measRequestWrite g p now]
      exact State.measRequest_waits g p on free idle _ fun _ => id,
    fun _ g p auto due on free idle => State.measAuto_runs g p auto due on free idle,
    fun _ g j _ idle next => State.measStart_runs g j idle next,
    fun _ g j p _ _ busy one due abort on hi lo => State.measComplete_runs g j p busy one due abort on hi lo⟩

end Sys2Proof.Machine
end

section
/-! Comparators, filter, sample ticks and CP commits (R123 to R130, R144). -/

namespace Sys2Proof.Machine

/-! ### What a violation leaves of the channels -/

/-- Only PARK's own notes of the channels, and the trip latches, may have changed. -/
structure OnlyPark (s t : State) : Prop where
  rest : SameRest s t
  chan : ∀ g p, ∃ e a l, t.chan g p = { s.chan g p with parkEnd := e, measAbort := a, parkLog := l }
  sys : ∃ x, t.sys = { s.sys with trip := x }

theorem OnlyPark.refl (s : State) : OnlyPark s s := ⟨.refl s, fun _ _ => ⟨_, _, _, rfl⟩, ⟨_, rfl⟩⟩

theorem OnlyPark.trans {s t u : State} (h : OnlyPark s t) (k : OnlyPark t u) : OnlyPark s u := by
  refine ⟨h.rest.trans k.rest, fun g p => ?_, ?_⟩
  · obtain ⟨_, _, _, e⟩ := h.chan g p
    obtain ⟨a, b, c, f⟩ := k.chan g p
    exact ⟨a, b, c, f.trans (by rw [e])⟩
  · obtain ⟨_, e⟩ := h.sys
    obtain ⟨x, f⟩ := k.sys
    exact ⟨x, f.trans (by rw [e])⟩

theorem OnlyPark.set (s : State) (x : Fld) (v : Nat) : OnlyPark s (s.set x v) := ⟨.set _ _ _, fun _ _ => ⟨_, _, _, rfl⟩, ⟨_, rfl⟩⟩

theorem OnlyPark.setTrip (s : State) (n : Nat) (x : Option (Nat × Bool)) : OnlyPark s (s.setTrip n x) :=
  ⟨.of_groups rfl, fun _ _ => ⟨_, _, _, rfl⟩, ⟨_, rfl⟩⟩

theorem OnlyPark.setChan (s : State) (g p : Nat) {x : Chan}
    (h : ∃ e a l, x = { s.chan g p with parkEnd := e, measAbort := a, parkLog := l }) : OnlyPark s (s.setChan g p x) := by
  refine ⟨.setChan s g p x, fun k q => ?_, ⟨s.sys.trip, by rw [State.setChan_sys]⟩⟩
  by_cases here : g = k ∧ p = q
  · obtain ⟨rfl, rfl⟩ := here
    by_cases hp : p < 16
    · by_cases hg : g < 32
      · rw [State.chan_setChan s x hg hp]
        exact h
      · exact ⟨_, _, _, by rw [State.setChan_eq s g x hp, State.setGroup, dif_neg hg]⟩
    · exact ⟨_, _, _, by rw [State.setChan, dif_neg hp]⟩
  · exact ⟨_, _, _, by rw [State.chan_setChan_ne s x here]⟩

theorem OnlyPark.forEach (s : State) (l : List Nat) (f : State → Nat → State) (h : ∀ t i, OnlyPark t (f t i)) :
    OnlyPark s (s.forEach l f) :=
  State.forEach_holds (OnlyPark s) f (fun t i k => k.trans (h t i)) s l (.refl s)

theorem OnlyPark.parkUpdate (s : State) (g p : Nat) : OnlyPark s (s.parkUpdate g p) := by
  unfold State.parkUpdate
  dsimp only
  split
  · split
    · exact .setChan s g p ⟨_, _, _, rfl⟩
    · exact (OnlyPark.setChan s g p ⟨_, _, _, rfl⟩).trans (.set ..)
  · split
    · exact .setChan s g p ⟨_, _, _, rfl⟩
    · exact .refl s

theorem OnlyPark.parkGroup (s : State) (g : Nat) : OnlyPark s (s.parkGroup g) := .forEach _ _ _ fun t p => .parkUpdate t g p

theorem OnlyPark.tripNetwork (s : State) (k : Nat) : OnlyPark s (s.tripNetwork k) := by
  unfold State.tripNetwork State.parkDie
  refine (OnlyPark.forEach s _ _ fun t n => ?_).trans (.forEach _ _ _ fun t i => .parkGroup t _)
  have shown : OnlyPark t (t.setBit (CP_TGSTAT_VIOL (8 * k)) n (t.violSource k n).isSome) := .set ..
  dsimp only
  generalize t.setBit (CP_TGSTAT_VIOL (8 * k)) n (t.violSource k n).isSome = u at shown
  split
  · split
    · exact shown.trans (.setTrip ..)
    · exact shown
  · exact shown

theorem OnlyPark.violUpdate (s : State) (g p : Nat) : OnlyPark s (s.violUpdate g p) := by
  unfold State.violUpdate
  dsimp only
  split
  · exact .refl s
  · exact (OnlyPark.set s _ _).trans (.tripNetwork ..)

theorem OnlyPark.cmp {s t : State} (h : OnlyPark s t) (g p : Nat) : (t.chan g p).cmp = (s.chan g p).cmp := by
  obtain ⟨_, _, _, e⟩ := h.chan g p
  rw [e]

/-! ### The lane of a channel -/

/-- The update of the lane adds to its log alone. -/
theorem State.laneUpdate_form (s : State) (g p : Nat) (t : Tick) :
    ∃ l, s.laneUpdate g p t = s.setCmp g p { (s.chan g p).cmp with log := l } ∨ s.laneUpdate g p t = s := by
  unfold State.laneUpdate
  dsimp only
  split
  · exact ⟨[], .inr rfl⟩
  · exact ⟨_, .inl rfl⟩

theorem State.cmp_setCmp (s : State) {g p : Nat} (x : Comparator) (hg : g < 32) (hp : p < 16) :
    ((s.setCmp g p x).chan g p).cmp = x := by
  rw [State.setCmp, State.chan_setChan _ _ hg hp]

theorem State.chan_setCmp_ne (s : State) {g p k q : Nat} (x : Comparator) (h : ¬(g = k ∧ p = q)) :
    (s.setCmp g p x).chan k q = s.chan k q := s.chan_setChan_ne _ h

theorem State.cmp_laneUpdate (s : State) {g p : Nat} (t : Tick) (hg : g < 32) (hp : p < 16) :
    ∃ l, ((s.laneUpdate g p t).chan g p).cmp = { (s.chan g p).cmp with log := l } := by
  obtain ⟨l, e | e⟩ := s.laneUpdate_form g p t
  · exact ⟨l, by rw [e, s.cmp_setCmp _ hg hp]⟩
  · exact ⟨_, by rw [e]⟩

theorem State.chan_laneUpdate_ne (s : State) {g p k q : Nat} (t : Tick) (h : ¬(g = k ∧ p = q)) :
    (s.laneUpdate g p t).chan k q = s.chan k q := by
  obtain ⟨l, e | e⟩ := s.laneUpdate_form g p t
  · rw [e, s.chan_setCmp_ne _ h]
  · rw [e]

/-! ### A switch of the comparators -/

theorem exec_comparatorSwitch {s : State} {g : GroupIx} {p : Pos} (v : PinLevel) (ball : s.cmpAtBall g p) (cont : s.cmpCont g p) :
    exec (.comparatorSwitch g p v) s = done s (((s.cmpSwitch g p v.volts).laneUpdate g p v.arrival).violUpdate g p) := by
  have acts : (s.cmpAtBall g p && s.cmpCont g p) = true := by rw [ball, cont]; rfl
  exact doneIf_pos acts ..

/-- The comparators after a switch, in a channel whose lane and violation follow. -/
theorem State.switched_sets (s : State) {g p : Nat} (v : Int) (t : Tick) (hg : g < 32) (hp : p < 16) :
    ((((s.cmpSwitch g p v).laneUpdate g p t).violUpdate g p).chan g p).cmp.hiOn =
      ((s.chan g p).cmp.switch (codeVolts (s.outCode g p 2)) (codeVolts (s.outCode g p 3)) (s.halfHys g p) v).hiOn ∧
    ((((s.cmpSwitch g p v).laneUpdate g p t).violUpdate g p).chan g p).cmp.loOn =
      ((s.chan g p).cmp.switch (codeVolts (s.outCode g p 2)) (codeVolts (s.outCode g p 3)) (s.halfHys g p) v).loOn := by
  obtain ⟨l, e⟩ := (s.cmpSwitch g p v).cmp_laneUpdate t hg hp
  rw [(OnlyPark.violUpdate ..).cmp, e, State.cmpSwitch, s.cmp_setCmp _ hg hp]
  exact ⟨rfl, rfl⟩

theorem State.comparatorSwitch_runs {s : State} (g : GroupIx) (p : Pos) (v : Int) (arrival : BitVec 66) (ball : s.cmpAtBall g p)
    (cont : s.cmpCont g p) : RunsTo (exec (.comparatorSwitch g p ⟨v, arrival⟩) s) fun t =>
      (codeVolts (s.outCode g p 2) + s.halfHys g p < v → (t.chan g p).cmp.hiOn) ∧
      (v < codeVolts (s.outCode g p 3) - s.halfHys g p → (t.chan g p).cmp.loOn) ∧
      (v < codeVolts (s.outCode g p 2) - s.halfHys g p → (t.chan g p).cmp.hiOn = false) ∧
      (codeVolts (s.outCode g p 3) + s.halfHys g p < v → (t.chan g p).cmp.loOn = false) ∧
      Frame s t [.groups, .sys] (violField g) := by
  obtain ⟨hi, lo⟩ := s.switched_sets v arrival g.isLt p.isLt
  have wide : 0 ≤ s.halfHys g p := by unfold State.halfHys; positivity
  rw [exec_comparatorSwitch _ ball cont]
  refine runsTo_done _ _ _ ⟨fun h => ?_, fun h => ?_, fun h => ?_, fun h => ?_, ((Frame.setCmp s _ _ _ _ _ (by simp)).trans
    ((Frame.laneUpdate _ _ _ _ _ _ (by simp)).trans (Frame.violUpdate _ _ _ _ _ (by simp) (by simp) fun _ => id))).trans
    (Frame.settle ..)⟩
  · rw [chan_settle, hi]
    exact if_pos h
  · rw [chan_settle, lo]
    exact if_pos h
  · rw [chan_settle, hi]
    exact (if_neg (by omega)).trans (if_pos h)
  · rw [chan_settle, lo]
    exact (if_neg (by omega)).trans (if_pos h)

/-! ### A filter sample -/

/-- The samples that the filter looks at. -/
def State.filterHist (s : State) (g p : Nat) : List Lane :=
  ((s.chan g p).cmp.state :: (s.chan g p).cmp.hist).take (s.dieGet (CP_CMP_M g p))

/-- The channel with its filtered state, before it shows. -/
def State.filtered (s : State) (g p : Nat) (x : Lane) : State :=
  (s.setCmp g p { (s.chan g p).cmp with hist := s.filterHist g p, filt := x }).setBit (CP_STATUS_VALID g) p true

theorem State.filterStep_agreed {s : State} {g p : Nat} {x : Lane}
    (h : agreed (s.filterHist g p) (s.dieGet (CP_CMP_N g p)) = some x) : s.filterStep g p =
      (((s.filtered g p x).showState g p).laneUpdate g p (tickOf (s.filtered g p x).time)).violUpdate g p := by
  unfold State.filterHist at h
  unfold State.filterStep
  dsimp only
  rw [h]
  rfl

theorem State.cmpValid_filtered (s : State) (g p : Nat) (x : Lane) (k : Nat) {q : Nat} (hq : q < 16) :
    (s.filtered g p x).cmpValid k q = if g = k ∧ p = q then true else s.cmpValid k q := by
  have before (c : Comparator) : (s.setCmp g p c).bit (CP_STATUS_VALID k) q = s.cmpValid k q :=
    State.bit_of_get (State.get_setChan ..) q
  rw [State.cmpValid, State.filtered]
  by_cases e : g = k
  · subst e
    rw [State.bit_setBit _ _ _ _ _ (Fld.inWord_of _ rfl) hq, before]
    simp only [true_and]
  · have other : (CP_STATUS_VALID g).apart (CP_STATUS_VALID k) :=
      .inl (by simp only [CP_STATUS_VALID, CP_STATUS, groupBase]; omega)
    rw [State.bit_setBit_apart _ _ _ _ _ _ (Fld.inWord_of _ rfl) other, before, if_neg fun h => e h.1]

theorem State.cmp_filtered (s : State) {g p : Nat} (x : Lane) (hg : g < 32) (hp : p < 16) :
    ((s.filtered g p x).chan g p).cmp = { (s.chan g p).cmp with hist := s.filterHist g p, filt := x } := by
  rw [State.filtered, State.setBit, State.chan_set, s.cmp_setCmp _ hg hp]

theorem Lane.code_lt (x : Lane) : x.code < 4 := by cases x <;> decide

/-- The field of a channel in CP_STATE. -/
def stateField (g p : Nat) : Fld := ⟨CP_STATE g, 2 * p + 1, 2 * p⟩

theorem notPba_state (g p : Nat) : (stateField g p).reg.notPba := .inr (by simp only [stateField, CP_STATE, groupBase]; omega)

theorem State.get_state_showState (s : State) {g p : Nat} (hp : p < 16) (valid : s.cmpValid g p = true) :
    (s.showState g p).get (stateField g p) = (s.chan g p).cmp.filt.code := by
  have small := (s.chan g p).cmp.filt.code_lt
  rw [State.showState, valid, stateField, State.get_set _ _ _ (State.inWord_state g hp), if_pos rfl]
  have width : 2 * p + 1 + 1 - 2 * p = 2 := by omega
  rw [width]
  omega

theorem violField_apart_state {g k p : Nat} {y : Fld} (h : violField g y) : y.apart (stateField k p) := by
  rcases h with f | f | ⟨i, hi, f⟩ <;> subst f
  · exact .inl (by simp only [CP_STATUS_VIOL, CP_STATUS, stateField, CP_STATE, groupBase]; omega)
  · exact .inl (by simp only [CP_TGSTAT_VIOL, CP_TGSTAT, stateField, CP_STATE, groupBase]; omega)
  · exact .inl (by simp only [LS_PARKSTAT_PARKED, LS_PARKSTAT, stateField, CP_STATE, groupBase]; omega)

theorem Frame.filtered (s : State) (g p : Nat) (x : Lane) (ps : List Part) (w : Fld → Prop) (h : Part.groups ∈ ps)
    (hw : w (CP_STATUS_VALID g)) : Frame s (s.filtered g p x) ps w :=
  (Frame.setCmp s _ _ _ _ _ h).trans (Frame.setBit _ _ _ _ _ _ (Fld.inWord_of _ rfl) hw)

theorem Frame.filterAgreed {s : State} {g p : Nat} {x : Lane} (hp : p < 16)
    (h : agreed (s.filterHist g p) (s.dieGet (CP_CMP_N g p)) = some x) :
    Frame s (s.filterStep g p) [.groups, .sys] (rearmField g p) := by
  rw [State.filterStep_agreed h]
  exact (((Frame.filtered s g p x _ _ (by simp) (.inl rfl)).trans (Frame.showState _ _ _ _ _ hp (.inr (.inl rfl)))).trans
    (Frame.laneUpdate _ _ _ _ _ _ (by simp))).trans (Frame.violUpdate _ _ _ _ _ (by simp) (by simp) fun _ h => .inr (.inr h))

/-- The comparator of the channel, and the others, after the filtered state has shown. -/
theorem State.filterStep_sets {s : State} {g p : Nat} {x : Lane} (hg : g < 32) (hp : p < 16)
    (h : agreed (s.filterHist g p) (s.dieGet (CP_CMP_N g p)) = some x) :
    (∃ l, ((s.filterStep g p).chan g p).cmp = { (s.chan g p).cmp with hist := s.filterHist g p, filt := x, log := l }) ∧
    (∀ k q, q < 16 → (s.filterStep g p).cmpValid k q = if g = k ∧ p = q then true else s.cmpValid k q) ∧
    (s.filterStep g p).get (stateField g p) = x.code := by
  rw [State.filterStep_agreed h]
  refine ⟨?_, fun k q hq => ?_, ?_⟩
  · obtain ⟨l, e⟩ := ((s.filtered g p x).showState g p).cmp_laneUpdate (tickOf (s.filtered g p x).time) hg hp
    refine ⟨l, ?_⟩
    rw [(OnlyPark.violUpdate ..).cmp, e, State.showState, State.chan_set, s.cmp_filtered x hg hp]
  · rw [State.cmpValid, State.bit_of_get (State.get_valid_shown _ g p k _ hp)]
    exact s.cmpValid_filtered g p x k hq
  · have valid : (s.filtered g p x).cmpValid g p = true := by rw [s.cmpValid_filtered g p x g hp, if_pos ⟨rfl, rfl⟩]
    have kept := ((Frame.laneUpdate ((s.filtered g p x).showState g p) [.groups, .sys] (violField g) g p
      (tickOf (s.filtered g p x).time) (by simp)).trans (Frame.violUpdate _ _ _ g p (by simp) (by simp) fun _ => id)).reg
      (stateField g p) (notPba_state g p) fun y => violField_apart_state
    rw [kept, State.get_state_showState _ hp valid, s.cmp_filtered x hg hp]

theorem State.filterStep_undecided {s : State} {g p : Nat} (h : agreed (s.filterHist g p) (s.dieGet (CP_CMP_N g p)) = none)
    (full : (s.filterHist g p).length = s.dieGet (CP_CMP_M g p)) : s.filterStep g p =
      (s.setCmp g p { (s.chan g p).cmp with hist := s.filterHist g p }).flag (CP_FLAGS_UNDECIDED g) (CP_CNT0_UNDECIDED g) := by
  unfold State.filterHist at h full
  unfold State.filterStep
  dsimp only
  rw [h]
  refine if_pos (full.trans ?_)
  rw [State.dieGet, State.dieGet, State.setCmp, State.setChan_die]

theorem State.tieSwitch_of_ball {s : State} {g p : Nat} (ball : s.cmpAtBall g p) : s.tieSwitch g p = s := by
  have off : (s.chan g p).cmp.selfCheck = false := by
    unfold State.cmpAtBall at ball
    simpa using (Bool.and_eq_true_iff.1 ball).2
  unfold State.tieSwitch
  split
  · rw [off]
    rfl
  · rfl

theorem exec_filterSample {s : State} {g : GroupIx} {p : Pos} (ball : s.cmpAtBall g p) (cont : s.cmpCont g p)
    (tick : dieTickOffsets.contains (s.time.toNat % 64)) : exec (.filterSample g p) s = done s (s.filterStep g p) := by
  have live : s.cmpLive g p = true := by
    unfold State.cmpAtBall at ball
    exact (Bool.and_eq_true_iff.1 ball).1
  have acts : (s.cmpLive g p && (s.cmpCont g p || (s.chan g p).cmp.selfCheck) &&
      dieTickOffsets.contains (s.time.toNat % 64)) = true := by rw [live, cont, tick]; rfl
  have runs : exec (.filterSample g p) s = done s ((s.tieSwitch g p).filterStep g p) := doneIf_pos acts ..
  rw [runs, State.tieSwitch_of_ball ball]

theorem cmpValid_settle (s t : State) (g p : Nat) : (settle s t).cmpValid g p = t.cmpValid g p :=
  State.bit_of_get (get_settle _ _ _ (State.notPba_valid g)) p

theorem State.filterAgreed_runs {s : State} (g : GroupIx) (p : Pos) (ball : s.cmpAtBall g p) (cont : s.cmpCont g p)
    (tick : dieTickOffsets.contains (s.time.toNat % 64)) {x : Lane}
    (h : agreed (s.filterHist g p) (s.dieGet (CP_CMP_N g p)) = some x) : RunsTo (exec (.filterSample g p) s) fun t =>
      t.cmpValid g p ∧ (t.chan g p).cmp.filt = x ∧ (t.chan g p).cmp.hist = s.filterHist g p ∧
      fieldOf (t.word (CP_STATE g)) (2 * p.val + 1) (2 * p.val) = x.code ∧
      Frame s t [.groups, .sys] (fun y => y = CP_STATUS_VALID g ∨ y.reg = CP_STATE g ∨ violField g y) := by
  obtain ⟨⟨l, cmp⟩, valid, state⟩ := State.filterStep_sets g.isLt p.isLt h
  rw [exec_filterSample ball cont tick]
  refine runsTo_done _ _ _ ⟨?_, ?_, ?_, ?_, ((Frame.filterAgreed p.isLt h).mono (fun _ => id)
    fun y hy => hy.imp_right (Or.imp_left fun e => e ▸ rfl)).trans (Frame.settle ..)⟩
  · rw [cmpValid_settle, valid g p p.isLt, if_pos ⟨rfl, rfl⟩]
  · rw [chan_settle, cmp]
  · rw [chan_settle, cmp]
  · exact (get_settle _ _ (stateField g p) (notPba_state g p)).trans state

theorem State.filterUndecided_runs {s : State} (g : GroupIx) (p : Pos) (ball : s.cmpAtBall g p) (cont : s.cmpCont g p)
    (tick : dieTickOffsets.contains (s.time.toNat % 64)) (h : agreed (s.filterHist g p) (s.dieGet (CP_CMP_N g p)) = none)
    (full : (s.filterHist g p).length = s.dieGet (CP_CMP_M g p)) : RunsTo (exec (.filterSample g p) s) fun t =>
      t.cmpValid g p = s.cmpValid g p ∧ (t.chan g p).cmp.filt = (s.chan g p).cmp.filt ∧ (t.chan g p).cmp.hist = s.filterHist g p ∧
      t.get (CP_FLAGS_UNDECIDED g) = 1 ∧ t.get (CP_CNT0_UNDECIDED g) = min (s.get (CP_CNT0_UNDECIDED g) + 1) 65535 ∧
      Frame s t [.groups] (· ∈ [CP_FLAGS_UNDECIDED g, CP_CNT0_UNDECIDED g]) := by
  have pba (x : Fld) (a : Nat) (h : x.reg.addr = groupBase g + a) : x.reg.notPba := .inr (by rw [h, groupBase]; omega)
  have countFlags : (CP_CNT0_UNDECIDED g).reg.addr ≠ (CP_FLAGS_UNDECIDED g).reg.addr := by
    simp only [CP_CNT0_UNDECIDED, CP_CNT0, CP_FLAGS_UNDECIDED, CP_FLAGS]
    omega
  have frame : Frame s ((s.setCmp g p { (s.chan g p).cmp with hist := s.filterHist g p }).flag (CP_FLAGS_UNDECIDED g)
      (CP_CNT0_UNDECIDED g)) [.groups] (· ∈ [CP_FLAGS_UNDECIDED g, CP_CNT0_UNDECIDED g]) :=
    (Frame.setCmp s _ _ _ _ _ (by simp)).trans (Frame.flag _ _ _ _ _ (Fld.inWord_of _ rfl) (Fld.inWord_of _ rfl) (by simp) (by simp))
  have cmp : (((s.setCmp g p { (s.chan g p).cmp with hist := s.filterHist g p }).flag (CP_FLAGS_UNDECIDED g)
      (CP_CNT0_UNDECIDED g)).chan g p).cmp = { (s.chan g p).cmp with hist := s.filterHist g p } := by
    rw [State.chan_congr (State.flag_groups ..), s.cmp_setCmp _ g.isLt p.isLt]
  rw [exec_filterSample ball cont tick, State.filterStep_undecided h full]
  refine runsTo_done _ _ _ ⟨?_, ?_, ?_, ?_, ?_, frame.trans (Frame.settle ..)⟩
  · rw [cmpValid_settle]
    refine State.bit_of_get (frame.reg _ (State.notPba_valid g) ?_) p
    simp only [List.mem_cons, List.not_mem_nil, or_false]
    rintro y (e | e) <;> subst e
    · exact .inl (by simp only [CP_FLAGS_UNDECIDED, CP_FLAGS, CP_STATUS_VALID, CP_STATUS]; omega)
    · exact .inl (by simp only [CP_CNT0_UNDECIDED, CP_CNT0, CP_STATUS_VALID, CP_STATUS]; omega)
  · rw [chan_settle, cmp]
  · rw [chan_settle, cmp]
  · rw [get_settle _ _ _ (pba _ _ rfl), State.get_flag _ _ _ (Fld.inWord_of _ rfl) (Fld.inWord_of _ rfl) (.inl countFlags) rfl]
  · rw [get_settle _ _ _ (pba _ _ rfl), State.get_flag_count _ _ _ (Fld.inWord_of _ rfl) (Fld.inWord_of _ rfl)
      (.inl countFlags.symm), State.setCmp, State.get_setChan]
    rfl

/-! ### A sample tick -/

/-- What a sample of the comparators reads, and the PARK notes, apart: the rest that a tick looks at is the same. -/
structure SameSampling (s t : State) (g : Nat) : Prop where
  rest : SameRest s t
  check : ∀ p, (t.chan g p).cmp.selfCheck = (s.chan g p).cmp.selfCheck
  sys : ∃ x, t.sys = { s.sys with trip := x }
  die : t.die = s.die
  out : ∀ p d, p < 16 → d < 6 → t.outCode g p d = s.outCode g p d

theorem SameSampling.refl (s : State) (g : Nat) : SameSampling s s g :=
  ⟨.refl s, fun _ => rfl, ⟨_, rfl⟩, rfl, fun _ _ _ _ => rfl⟩

theorem SameSampling.trans {s t u : State} {g : Nat} (h : SameSampling s t g) (k : SameSampling t u g) : SameSampling s u g := by
  refine ⟨h.rest.trans k.rest, fun p => (k.check p).trans (h.check p), ?_, k.die.trans h.die,
    fun p d hp hd => (k.out p d hp hd).trans (h.out p d hp hd)⟩
  obtain ⟨_, e⟩ := h.sys
  obtain ⟨x, f⟩ := k.sys
  exact ⟨x, f.trans (by rw [e])⟩

theorem SameSampling.cmpMode {s t : State} {g : Nat} (h : SameSampling s t g) (p : Nat) : t.cmpMode g p = s.cmpMode g p := by
  rw [State.cmpMode, State.cmpMode, State.dieGet, State.dieGet, h.die]

theorem SameSampling.cmpAtBall {s t : State} {g : Nat} (h : SameSampling s t g) (p : Nat) : t.cmpAtBall g p = s.cmpAtBall g p := by
  obtain ⟨x, e⟩ := h.sys
  have clr : t.clrLow g = s.clrLow g := by rw [State.clrLow, State.clrLow, e]
  have dsk : t.dskCompare g = s.dskCompare g := by
    rw [State.dskCompare, State.dskCompare, h.rest.field Group.dsk (fun _ _ => rfl) g]
  rw [State.cmpAtBall, State.cmpAtBall, State.cmpLive, State.cmpLive, h.cmpMode, h.check, clr, dsk]

theorem SameSampling.halfHys {s t : State} {g : Nat} (h : SameSampling s t g) (p : Nat) : t.halfHys g p = s.halfHys g p := by
  rw [State.halfHys, State.halfHys, State.dieGet, State.dieGet, h.die]

theorem SameSampling.of_frame {s t : State} {g p : Nat} (rest : SameRest s t)
    (check : ∀ p, (t.chan g p).cmp.selfCheck = (s.chan g p).cmp.selfCheck) (sys : ∃ x, t.sys = { s.sys with trip := x })
    (f : Frame s t [.groups, .sys] (fun y => rearmField g p y ∨ y = CP_FLAGS_UNDECIDED g ∨ y = CP_CNT0_UNDECIDED g)) :
    SameSampling s t g :=
  ⟨rest, check, sys, f.part .die (by simp), fun q d hq hd => f.reg _ (State.notPba_out ..) fun y hy => by
    rcases hy with h | h | h
    · exact rearmField_apart_out hq hd h
    · subst h
      exact .inl (by simp only [CP_FLAGS_UNDECIDED, CP_FLAGS, LS_OUT_CODE, LS_OUT]; omega)
    · subst h
      exact .inl (by simp only [CP_CNT0_UNDECIDED, CP_CNT0, LS_OUT_CODE, LS_OUT]; omega)⟩

/-- What a sample tick of a channel does to it and leaves of the others. -/
structure TickedChan (s t : State) (g p : Nat) : Prop where
  same : SameSampling s t g
  frame : Frame s t [.groups, .sys] (fun y => rearmField g p y ∨ y = CP_FLAGS_UNDECIDED g ∨ y = CP_CNT0_UNDECIDED g)
  filt : ∀ q, p ≠ q → (t.chan g q).cmp = (s.chan g q).cmp
  valid : ∀ q, q < 16 → p ≠ q → t.cmpValid g q = s.cmpValid g q

theorem TickedChan.refl (s : State) (g p : Nat) : TickedChan s s g p :=
  ⟨.refl s g, Frame.refl .., fun _ _ => rfl, fun _ _ _ => rfl⟩

theorem TickedChan.trans {s t u : State} {g p : Nat} (h : TickedChan s t g p) (k : TickedChan t u g p) : TickedChan s u g p :=
  ⟨h.same.trans k.same, h.frame.trans k.frame, fun q ne => (k.filt q ne).trans (h.filt q ne),
    fun q hq ne => (k.valid q hq ne).trans (h.valid q hq ne)⟩

/-- A new state of the comparators that leaves self-check alone. -/
theorem TickedChan.setCmp (s : State) {g p : Nat} {c : Comparator} (hg : g < 32) (hp : p < 16)
    (check : c.selfCheck = (s.chan g p).cmp.selfCheck) : TickedChan s (s.setCmp g p c) g p := by
  refine ⟨.of_frame (p := p) (.setChan s g p _) (fun q => ?_) ⟨s.sys.trip, by rw [State.setCmp, State.setChan_sys]⟩
    (Frame.setCmp s _ _ _ _ _ (by simp)), Frame.setCmp s _ _ _ _ _ (by simp), fun q ne => ?_,
    fun q _ _ => State.bit_of_get (State.get_setChan ..) q⟩
  · by_cases e : p = q
    · subst e
      rw [s.cmp_setCmp c hg hp, check]
    · rw [s.chan_setCmp_ne c fun h => e h.2]
  · rw [s.chan_setCmp_ne c fun h => ne h.2]

theorem TickedChan.flag (s : State) (g p : Nat) : TickedChan s (s.flag (CP_FLAGS_UNDECIDED g) (CP_CNT0_UNDECIDED g)) g p := by
  have frame : Frame s (s.flag (CP_FLAGS_UNDECIDED g) (CP_CNT0_UNDECIDED g)) [.groups, .sys]
      (fun y => y = CP_FLAGS_UNDECIDED g ∨ y = CP_CNT0_UNDECIDED g) :=
    Frame.flag _ _ _ _ _ (Fld.inWord_of _ rfl) (Fld.inWord_of _ rfl) (.inl rfl) (.inr rfl)
  have same (q : Nat) : (s.flag (CP_FLAGS_UNDECIDED g) (CP_CNT0_UNDECIDED g)).chan g q = s.chan g q :=
    State.chan_congr (State.flag_groups ..) g q
  refine ⟨.of_frame (p := p) (.of_groups (State.flag_groups ..)) (fun q => by rw [same]) ⟨s.sys.trip, by rw [State.flag_sys]⟩
    (frame.mono (fun _ => id) fun _ => Or.inr), frame.mono (fun _ => id) fun _ => Or.inr, fun q _ => by rw [same],
    fun q _ _ => State.bit_of_get (frame.reg _ (State.notPba_valid g) fun y hy => ?_) q⟩
  rcases hy with e | e <;> subst e
  · exact .inl (by simp only [CP_FLAGS_UNDECIDED, CP_FLAGS, CP_STATUS_VALID, CP_STATUS]; omega)
  · exact .inl (by simp only [CP_CNT0_UNDECIDED, CP_CNT0, CP_STATUS_VALID, CP_STATUS]; omega)

theorem State.filterStep_none {s : State} {g p : Nat} (h : agreed (s.filterHist g p) (s.dieGet (CP_CMP_N g p)) = none) :
    s.filterStep g p = (s.setCmp g p { (s.chan g p).cmp with hist := s.filterHist g p }).flag (CP_FLAGS_UNDECIDED g)
        (CP_CNT0_UNDECIDED g) ∨
      s.filterStep g p = s.setCmp g p { (s.chan g p).cmp with hist := s.filterHist g p } := by
  unfold State.filterHist at h
  unfold State.filterStep
  dsimp only
  rw [h]
  dsimp only
  split
  · exact .inl rfl
  · exact .inr rfl

theorem TickedChan.filterStep (s : State) {g p : Nat} (hg : g < 32) (hp : p < 16) : TickedChan s (s.filterStep g p) g p := by
  cases h : agreed (s.filterHist g p) (s.dieGet (CP_CMP_N g p)) with
  | some x =>
    obtain ⟨⟨l, cmp⟩, valid, -⟩ := State.filterStep_sets hg hp h
    have frame := (Frame.filterAgreed hp h).mono (fun _ => id) fun y (hy : rearmField g p y) =>
      (.inl hy : rearmField g p y ∨ y = CP_FLAGS_UNDECIDED g ∨ y = CP_CNT0_UNDECIDED g)
    rw [State.filterStep_agreed h] at frame cmp valid ⊢
    have others (q : Nat) (ne : p ≠ q) : (((((s.filtered g p x).showState g p).laneUpdate g p
        (tickOf (s.filtered g p x).time)).violUpdate g p).chan g q).cmp = (s.chan g q).cmp := by
      rw [(OnlyPark.violUpdate ..).cmp, State.chan_laneUpdate_ne _ _ fun h => ne h.2, State.showState, State.chan_set,
        State.filtered, State.setBit, State.chan_set, s.chan_setCmp_ne _ fun h => ne h.2]
    have rest : SameRest s ((((s.filtered g p x).showState g p).laneUpdate g p (tickOf (s.filtered g p x).time)).violUpdate g p) := by
      have lane : SameRest ((s.filtered g p x).showState g p)
          (((s.filtered g p x).showState g p).laneUpdate g p (tickOf (s.filtered g p x).time)) := (SameDacs.laneUpdate ..).rest
      exact ((((SameRest.setChan s g p _).trans (.set _ _ _)).trans (.set _ _ _)).trans lane).trans (OnlyPark.violUpdate ..).rest
    have sys : ∃ x', ((((s.filtered g p x).showState g p).laneUpdate g p (tickOf (s.filtered g p x).time)).violUpdate g p).sys =
        { s.sys with trip := x' } := by
      obtain ⟨x', e⟩ := (OnlyPark.violUpdate (((s.filtered g p x).showState g p).laneUpdate g p
        (tickOf (s.filtered g p x).time)) g p).sys
      have before : (((s.filtered g p x).showState g p).laneUpdate g p (tickOf (s.filtered g p x).time)).sys = s.sys :=
        ((Frame.laneUpdate _ [.groups] (fun _ => False) g p _ (by simp)).part .sys (by simp)).trans
          ((State.set_sys ..).trans ((State.set_sys ..).trans (State.setChan_sys ..)))
      exact ⟨x', e.trans (by rw [before])⟩
    refine ⟨.of_frame rest (fun q => ?_) sys frame, frame, others, fun q hq ne => (valid g q hq).trans (if_neg fun h => ne h.2)⟩
    by_cases e : p = q
    · subst e
      rw [cmp]
    · rw [others q e]
  | none =>
    have taken := TickedChan.setCmp s (c := { (s.chan g p).cmp with hist := s.filterHist g p }) hg hp rfl
    rcases State.filterStep_none h with e | e
    · rw [e]
      exact taken.trans (.flag ..)
    · rw [e]
      exact taken

theorem TickedChan.cmpSwitch (s : State) {g p : Nat} (v : Int) (hg : g < 32) (hp : p < 16) : TickedChan s (s.cmpSwitch g p v) g p :=
  .setCmp s hg hp rfl

/-- The comparators of a channel at a sample tick, its history emptied at the first. -/
def State.sampleSeen (s : State) (g p : Nat) (fresh : Bool) (v : Int) : State :=
  (if fresh then s.setCmp g p { (s.chan g p).cmp with hist := [] } else s).cmpSwitch g p v

theorem State.sampledTick_eq (s : State) (g p : Nat) (fresh : Bool) (v : Int) : s.sampledTick g p fresh v =
    if s.cmpMode g p = modeSampled ∧ s.cmpAtBall g p then (s.sampleSeen g p fresh v).filterStep g p else s := rfl

theorem TickedChan.sampleSeen (s : State) {g p : Nat} (fresh : Bool) (v : Int) (hg : g < 32) (hp : p < 16) :
    TickedChan s (s.sampleSeen g p fresh v) g p := by
  unfold State.sampleSeen
  split
  · exact (TickedChan.setCmp s hg hp (by rfl)).trans (.cmpSwitch _ v hg hp)
  · exact .cmpSwitch s v hg hp

theorem TickedChan.sampledTick (s : State) {g p : Nat} (fresh : Bool) (v : Int) (hg : g < 32) (hp : p < 16) :
    TickedChan s (s.sampledTick g p fresh v) g p := by
  rw [State.sampledTick_eq]
  split
  · exact (TickedChan.sampleSeen s fresh v hg hp).trans (.filterStep _ hg hp)
  · exact .refl ..

theorem State.hiOn_sampleSeen (s : State) {g p : Nat} (fresh : Bool) {v : Int} (hg : g < 32) (hp : p < 16)
    (h : codeVolts (s.outCode g p 2) + s.halfHys g p < v) : ((s.sampleSeen g p fresh v).chan g p).cmp.hiOn = true := by
  unfold State.sampleSeen
  split
  · have same := (TickedChan.setCmp s (c := { (s.chan g p).cmp with hist := [] }) hg hp rfl).same
    rw [State.cmpSwitch, State.cmp_setCmp _ _ hg hp, same.out p 2 hp (by decide), same.halfHys]
    exact if_pos h
  · rw [State.cmpSwitch, State.cmp_setCmp _ _ hg hp]
    exact if_pos h

theorem agreed_one (x : Lane) : agreed [x] 1 = some x := by cases x <;> decide

/-- With M = N = 1 a sample tick shows the state of the comparators at once. -/
theorem State.sampledTick_one {s : State} {g p : Nat} (fresh : Bool) (v : Int) (hg : g < 32) (hp : p < 16)
    (mode : s.cmpMode g p = modeSampled) (ball : s.cmpAtBall g p) (m : s.dieGet (CP_CMP_M g p) = 1)
    (n : s.dieGet (CP_CMP_N g p) = 1) : (s.sampledTick g p fresh v).cmpValid g p ∧
      (codeVolts (s.outCode g p 2) + s.halfHys g p < v → ((s.sampledTick g p fresh v).chan g p).cmp.filt = .high) := by
  have die := (TickedChan.sampleSeen s fresh v hg hp).same.die
  have hi := s.hiOn_sampleSeen fresh (v := v) hg hp
  rw [State.sampledTick_eq, if_pos ⟨mode, ball⟩]
  generalize s.sampleSeen g p fresh v = u at die hi
  have hist : u.filterHist g p = [(u.chan g p).cmp.state] := by
    rw [State.filterHist, show u.dieGet (CP_CMP_M g p) = 1 by rw [State.dieGet, die]; exact m]
    rfl
  have now : agreed (u.filterHist g p) (u.dieGet (CP_CMP_N g p)) = some (u.chan g p).cmp.state := by
    rw [hist, show u.dieGet (CP_CMP_N g p) = 1 by rw [State.dieGet, die]; exact n, agreed_one]
  obtain ⟨⟨l, cmp⟩, valid, -⟩ := State.filterStep_sets hg hp now
  refine ⟨by rw [valid g p hp, if_pos ⟨rfl, rfl⟩], fun h => ?_⟩
  rw [cmp]
  exact if_pos (hi h)

/-- The state with the tick of a group taken. -/
def State.tickTaken (s : State) (g : Nat) : State :=
  { s with sys := { s.sys with smFresh := BitVec.ofNat 32 (putBit s.sys.smFresh.toNat g false)
                               smDue := BitVec.ofNat 32 (putBit s.sys.smDue.toNat g false) } }

theorem exec_sampleTick {s : State} {g : GroupIx} (volts : List Int) (due : s.sys.smDue.getLsbD g) :
    exec (.sampleTick g volts) s = done s ((s.tickTaken g).forEach (List.range 16) fun t p =>
      t.sampledTick g p (s.sys.smFresh.getLsbD g) (volts.getD p 0)) := doneIf_pos due ..

theorem getLsbD_putBit_clear (x : BitVec 32) (i : Nat) : (BitVec.ofNat 32 (putBit x.toNat i false)).getLsbD i = false := by
  rw [BitVec.getLsbD_ofNat, testBit_putBit, if_pos rfl, Bool.and_false]

/-- The channels of a group one after another at a sample tick. -/
theorem State.sampleTick_sets (s : State) {g : Nat} (fresh : Bool) (volts : List Int) (hg : g < 32) :
    (SameSampling s (s.forEach (List.range 16) fun t p => t.sampledTick g p fresh (volts.getD p 0)) g ∧
      Frame s (s.forEach (List.range 16) fun t p => t.sampledTick g p fresh (volts.getD p 0)) [.groups, .sys]
        (groupRegs 0x4000 0x7000)) ∧
    ∀ p ∈ List.range 16, s.cmpMode g p = modeSampled → s.cmpAtBall g p → s.dieGet (CP_CMP_M g p) = 1 →
      s.dieGet (CP_CMP_N g p) = 1 →
      (s.forEach (List.range 16) fun t p => t.sampledTick g p fresh (volts.getD p 0)).cmpValid g p ∧
      (codeVolts (s.outCode g p 2) + s.halfHys g p < volts.getD p 0 →
        ((s.forEach (List.range 16) fun t p => t.sampledTick g p fresh (volts.getD p 0)).chan g p).cmp.filt = .high) := by
  have fields (p : Nat) (y : Fld) (h : rearmField g p y ∨ y = CP_FLAGS_UNDECIDED g ∨ y = CP_CNT0_UNDECIDED g) :
      groupRegs 0x4000 0x7000 y := by
    rcases h with h | h | h
    · exact groupRegs_rearm h
    · subst h
      exact ⟨g, by simp only [CP_FLAGS_UNDECIDED, CP_FLAGS]; omega⟩
    · subst h
      exact ⟨g, by simp only [CP_CNT0_UNDECIDED, CP_CNT0]; omega⟩
  have tick (t : State) (p : Nat) (hp : p < 16) := TickedChan.sampledTick t fresh (volts.getD p 0) hg hp
  have shows (t : State) (ht : SameSampling s t g) (p : Nat) (hp : p < 16) (mode : s.cmpMode g p = modeSampled)
      (ball : s.cmpAtBall g p) (m : s.dieGet (CP_CMP_M g p) = 1) (n : s.dieGet (CP_CMP_N g p) = 1) :=
    State.sampledTick_one (s := t) fresh (volts.getD p 0) hg hp ((ht.cmpMode p).trans mode) (by rw [ht.cmpAtBall]; exact ball)
      (by rw [State.dieGet, ht.die]; exact m) (by rw [State.dieGet, ht.die]; exact n)
  refine foldl_establishes _ (fun t => SameSampling s t g ∧ Frame s t [.groups, .sys] (groupRegs 0x4000 0x7000))
    (fun p t => s.cmpMode g p = modeSampled → s.cmpAtBall g p → s.dieGet (CP_CMP_M g p) = 1 → s.dieGet (CP_CMP_N g p) = 1 →
      t.cmpValid g p ∧ (codeVolts (s.outCode g p 2) + s.halfHys g p < volts.getD p 0 → (t.chan g p).cmp.filt = .high))
    (List.range 16) ?_ ?_ ?_ s ⟨.refl s g, Frame.refl ..⟩
  · intro t ht p hp
    have step := tick t p (List.mem_range.1 hp)
    exact ⟨ht.1.trans step.same, ht.2.trans (step.frame.mono (fun _ => id) (fields p))⟩
  · intro t ht p hp mode ball m n
    have shown := shows t ht.1 p (List.mem_range.1 hp) mode ball m n
    rw [ht.1.out p 2 (List.mem_range.1 hp) (by decide), ht.1.halfHys] at shown
    exact shown
  · intro t ht p hp q hq h mode ball m n
    by_cases e : p = q
    · subst e
      have shown := shows t ht.1 p (List.mem_range.1 hp) mode ball m n
      rw [ht.1.out p 2 (List.mem_range.1 hp) (by decide), ht.1.halfHys] at shown
      exact shown
    · have step := tick t p (List.mem_range.1 hp)
      obtain ⟨valid, filt⟩ := h mode ball m n
      exact ⟨(step.valid q (List.mem_range.1 hq) e).trans valid, fun x => by rw [step.filt q e]; exact filt x⟩

theorem State.sampleTick_runs {s : State} (g : GroupIx) (volts : List Int) (due : s.sys.smDue.getLsbD g) :
    RunsTo (exec (.sampleTick g volts) s) fun t =>
      t.sys.smFresh.getLsbD g = false ∧ t.sys.smDue.getLsbD g = false ∧
      (∀ p, p < 16 → s.cmpMode g p = modeSampled → s.cmpAtBall g p → s.dieGet (CP_CMP_M g p) = 1 →
        s.dieGet (CP_CMP_N g p) = 1 → t.cmpValid g p ∧
        (codeVolts (s.outCode g p 2) + s.halfHys g p < volts.getD p 0 → (t.chan g p).cmp.filt = .high)) ∧
      Frame s t [.groups, .sys] (groupRegs 0x4000 0x7000) := by
  obtain ⟨⟨same, frame⟩, shown⟩ := (s.tickTaken g).sampleTick_sets (s.sys.smFresh.getLsbD g) volts g.isLt
  obtain ⟨x, sys⟩ := same.sys
  rw [exec_sampleTick volts due]
  refine runsTo_done _ _ _ ⟨?_, ?_, fun p hp mode ball m n => ?_, ((Frame.setSys s _ _ _ (by simp)).trans frame).trans
    (Frame.settle ..)⟩
  · rw [settle_sys, sys]
    exact getLsbD_putBit_clear ..
  · rw [settle_sys, sys]
    exact getLsbD_putBit_clear ..
  · rw [cmpValid_settle, chan_settle]
    exact shown p (List.mem_range.2 hp) mode ball m n

/-! ### Blanking and commits -/

/-- The trip network leaves the violations. -/
theorem State.get_viol_tripNetwork (s : State) (k g : Nat) : (s.tripNetwork k).get (CP_STATUS_VIOL g) = s.get (CP_STATUS_VIOL g) := by
  have frame := Frame.tripNetwork s [.groups, .sys] (fun y => y = CP_TGSTAT_VIOL (8 * k) ∨ ∃ i < 8, y = LS_PARKSTAT_PARKED (8 * k + i))
    k (by simp) (by simp) (.inl rfl) fun i hi => .inr ⟨i, hi, rfl⟩
  refine frame.reg _ (.inr (by simp only [CP_STATUS_VIOL, CP_STATUS, groupBase]; omega)) fun y hy => ?_
  rcases hy with e | ⟨i, hi, e⟩ <;> subst e
  · exact .inl (by simp only [CP_TGSTAT_VIOL, CP_TGSTAT, CP_STATUS_VIOL, CP_STATUS, groupBase]; omega)
  · exact .inl (by simp only [LS_PARKSTAT_PARKED, LS_PARKSTAT, CP_STATUS_VIOL, CP_STATUS, groupBase]; omega)

theorem State.bit_violUpdate (s : State) (g : Nat) {p : Nat} (hp : p < 16) :
    (s.violUpdate g p).bit (CP_STATUS_VIOL g) p = s.violates g p := by
  unfold State.violUpdate
  dsimp only
  split
  · assumption
  · rw [State.bit_of_get (State.get_viol_tripNetwork ..), State.bit_setBit _ _ _ _ _ (Fld.inWord_of _ rfl) hp, if_pos rfl]

theorem State.blankEnd_runs {s : State} (g : GroupIx) (p : Pos) (passed : s.blanked g p = false) :
    RunsTo (exec (.blankEnd g p) s) fun t =>
      t.bit (CP_STATUS_VIOL g) p = s.violates g p ∧ Frame s t [.groups, .sys] (violField g) := by
  have acts : (!s.blanked g p) = true := by rw [passed]; rfl
  have runs : exec (.blankEnd g p) s = done s (s.violUpdate g p) := doneIf_pos acts ..
  rw [runs]
  refine runsTo_done _ _ _ ⟨?_, (Frame.violUpdate _ _ _ _ _ (by simp) (by simp) fun _ => id).trans (Frame.settle ..)⟩
  rw [State.bit_of_get (get_settle _ _ _ (.inr (by simp only [CP_STATUS_VIOL, CP_STATUS, groupBase]; omega))),
    s.bit_violUpdate g p.isLt]

/-- What the registers of a commit leave of the group's queue and die. -/
structure CommitKept (s t : State) : Prop where
  rest : SameRest s t
  die : t.die = s.die
  frame : Frame s t [.groups, .sys] (groupRegs 0x4000 0x7000)

theorem CommitKept.refl (s : State) : CommitKept s s := ⟨.refl s, rfl, Frame.refl ..⟩

theorem CommitKept.trans {s t u : State} (h : CommitKept s t) (k : CommitKept t u) : CommitKept s u :=
  ⟨h.rest.trans k.rest, k.die.trans h.die, h.frame.trans k.frame⟩

theorem CommitKept.forEach (s : State) (l : List Nat) (f : State → Nat → State) (h : ∀ t, ∀ i ∈ l, CommitKept t (f t i)) :
    CommitKept s (s.forEach l f) :=
  (foldl_establishes f (CommitKept s) (fun _ _ => True) l (fun t ht i hi => ht.trans (h t i hi)) (fun _ _ _ _ => trivial)
    (fun _ _ _ _ _ _ _ => trivial) s (.refl s)).1

theorem CommitKept.of_park {s t : State} (h : OnlyPark s t) (f : Frame s t [.groups, .sys] (groupRegs 0x4000 0x7000)) :
    CommitKept s t := ⟨h.rest, f.part .die (by simp), f⟩

theorem CommitKept.setBit (s : State) (x : Fld) (i : Nat) (b : Bool) (h : x.inWord) (hx : groupRegs 0x4000 0x7000 x) :
    CommitKept s (s.setBit x i b) := .of_park (.set ..) (Frame.setBit _ _ _ _ _ _ h hx)

theorem CommitKept.rearmOnly (s : State) {g p : Nat} (hp : p < 16) : CommitKept s (s.rearmOnly g p) := by
  have rest : SameRest s (s.rearmOnly g p) :=
    (((SameRest.setChan s g p _).trans (.set _ _ _)).trans (.set _ _ _)).trans (SameDacs.laneUpdate ..).rest
  have frame := Frame.rearmOnly s g p hp
  exact ⟨rest, frame.part .die (by simp), frame.mono (by simp) fun _ => groupRegs_rearm⟩

theorem CommitKept.tripNetwork (s : State) (k : Nat) : CommitKept s (s.tripNetwork k) :=
  .of_park (.tripNetwork s k) (Frame.tripNetwork s _ _ k (by simp) (by simp) ⟨8 * k, by simp only [CP_TGSTAT_VIOL, CP_TGSTAT]; omega⟩
    fun i _ => ⟨8 * k + i, by simp only [LS_PARKSTAT_PARKED, LS_PARKSTAT]; omega⟩)

/-- The CP registers of a group at the die. -/
def State.cpLoaded (s : State) (g : Nat) (regs : RegFile) : State :=
  { s with die := s.die.copyRange regs (groupBase g + 0x6000) (groupBase g + 0x6000 + 0x1000) }

theorem CommitKept.cpArrives (s : State) {g : Nat} (regs : RegFile) : CommitKept (s.cpLoaded g regs) (s.cpArrives g regs) := by
  unfold State.cpArrives
  extract_lets old a u v w x
  have load : CommitKept u v := .forEach _ _ _ fun t p hp => by
    split
    · exact .refl t
    · exact .rearmOnly t (List.mem_range.1 hp)
  have latches : CommitKept v w := by
    refine if h : g % 8 = 0 then ?_ else ?_
    · have e : w = v.forEach (List.range 16) fun s t => if (s.dieGet (CP_TGEN_EN g)).testBit t then s
        else (s.setTrip (2 * g + t) none).setBit (CP_TGSTAT_LATCHED g) t false := if_pos h
      rw [e]
      refine .forEach _ _ _ fun t n _ => ?_
      split
      · exact .refl t
      · exact (CommitKept.of_park (.setTrip ..) (Frame.setTrip _ _ _ _ _ (by simp))).trans
          (.setBit _ _ _ _ (Fld.inWord_of _ rfl) ⟨g, by simp only [CP_TGSTAT_LATCHED, CP_TGSTAT]; omega⟩)
    · have e : w = v := if_neg h
      rw [e]
      exact .refl v
  have shown : CommitKept w x := .forEach _ _ _ fun t p _ =>
    .setBit _ _ _ _ (Fld.inWord_of _ rfl) ⟨g, by simp only [CP_STATUS_VIOL, CP_STATUS]; omega⟩
  have start : u = s.cpLoaded g regs := rfl
  rw [← start]
  exact ((load.trans latches).trans shown).trans (.tripNetwork ..)

theorem State.cpCommit_runs {s : State} (g : GroupIx) {at_ : Time} {regs : RegFile} {rest : List (Time × RegFile)}
    (pend : (s.group g).cpPend = (at_, regs) :: rest) (due : reached s.time at_) (rising : regs.rising) :
    RunsTo (exec (.cpCommitEffect g) s) fun t => (t.group g).cpPend = rest ∧
      (∀ p, p < 16 → t.die.word (CP_CMP g p) = regs.word (CP_CMP g p) ∧ t.die.word (CP_TRIP g p) = regs.word (CP_TRIP g p)) ∧
      Frame s t [.groups, .sys, .die] (groupRegs 0x4000 0x7000) := by
  have runs : exec (.cpCommitEffect g) s = done s ((s.setGroup g { s.group g with cpPend := rest }).cpArrives g regs) := by
    change execCpCommitEffect g s = _
    unfold execCpCommitEffect
    simp only [pend, due, if_true]
  have queue : ((s.setGroup g { s.group g with cpPend := rest }).group g).cpPend = rest :=
    congrArg Group.cpPend (State.group_setGroup _ _ _ g.isLt)
  have left : Frame s (s.setGroup g { s.group g with cpPend := rest }) [.groups, .sys, .die] (groupRegs 0x4000 0x7000) :=
    Frame.setGroup s _ _ _ _ (by simp)
  rw [runs]
  generalize s.setGroup g { s.group g with cpPend := rest } = u at queue left
  have kept := CommitKept.cpArrives u regs (g := g)
  have loaded : Frame u (u.cpLoaded g regs) [.groups, .sys, .die] (groupRegs 0x4000 0x7000) := Frame.withDie _ _ _ _ (by simp)
  have word (r : Reg) (a : Nat) (h : r.addr = groupBase g + 0x6000 + a) (small : a < 0x1000) :
      (settle s (u.cpArrives g regs)).die.word r = regs.word r := by
    rw [settle_die, kept.die]
    exact RegFile.word_copyRange _ _ _ rising (by omega) (by omega)
  refine runsTo_done _ _ _ ⟨?_, fun p hp => ⟨?_, ?_⟩, ((left.trans loaded).trans (kept.frame.mono (by simp) fun _ => id)).trans
    (Frame.settle ..)⟩
  · rw [group_settle, kept.rest.field Group.cpPend (fun _ _ => rfl) g]
    exact queue
  · exact word _ (0x100 + 0x10 * p) (by simp only [CP_CMP]; omega) (by omega)
  · exact word _ (0x108 + 0x10 * p) (by simp only [CP_TRIP]; omega) (by omega)

/-- Settles O13: switches, filter samples (`State.filterStep_sets`), sample ticks (`State.sampleTick_sets`), blanking, commits. -/
theorem comparatorsFollowThePin : Obligations.ComparatorsFollowThePin :=
  ⟨fun _ g p v arrival ball cont => State.comparatorSwitch_runs g p v arrival ball cont,
    fun _ g p _ ball cont tick hist => hist ▸
      ⟨fun _ h => State.filterAgreed_runs g p ball cont tick h, fun h full => State.filterUndecided_runs g p ball cont tick h full⟩,
    fun _ g volts due => State.sampleTick_runs g volts due, fun _ g p passed => State.blankEnd_runs g p passed,
    fun _ g _ _ _ pend due rising => State.cpCommit_runs g pend due rising⟩

end Sys2Proof.Machine
end

section
/-! Trip latches, re-arms and self-checks (R136 to R143). -/

namespace Sys2Proof.Machine

/-! ### Records of trips -/

/-- The state with a latch recorded in the registers. -/
def State.tripNoted (s : State) (k t src : Nat) : State :=
  (((((s.setTrip (16 * k + t) (some (src, true))).setBit (CP_TGSTAT_LATCHED (8 * k)) t true).flag (CP_TFLAGS_TRIP (8 * k))
    (CP_TCNT0_TRIP (8 * k))).setTime (CP_TGREC_LO_T_LO (8 * k) t) (CP_TGREC_HI_T_HI (8 * k) t) s.time).set
    (CP_TGREC_HI_SRC (8 * k) t) src)

/-- What follows a record: the cause, the snapshot request, the summary and the wake. -/
def State.tripFollow (s : State) (k t : Nat) : State :=
  let s := if s.dieGet (CP_TGCAUSE_CAUSE_EN (8 * k) t) = 1 then
    s.causeMask (s.targetGroups k t) (s.dieGet (CP_TGCAUSE_CTX (8 * k) t)) (s.dieGet (CP_TGCAUSE_PRIO (8 * k) t)) .trip else s
  let s := if s.dieGet (CP_TGCAUSE_SNAP (8 * k) t) = 1 then s.snapRequest 3 else s
  let s := s.tripSpan k t
  if s.bit (CP_SM_CTL_WSRC 0) 3 then s.smWake else s

/-- The fields of the SQ block and of the oscillator's state. -/
def followField (y : Fld) : Prop := causeField y ∨ y.reg = CP_SM_STAT 0

theorem Frame.tripSpan (s : State) (k t : Nat) (ps : List Part) (w : Fld → Prop) (h : Part.groups ∈ ps) :
    Frame s (s.tripSpan k t) ps w := by
  refine Frame.forEach _ _ _ _ _ fun u i _ => ?_
  dsimp only
  split
  · exact Frame.refl ..
  · exact Frame.setGroup _ _ _ _ _ h

theorem State.trip_smWake (s : State) : s.smWake.sys.trip = s.sys.trip := by
  have start : s.smStart.sys.trip = s.sys.trip := rfl
  unfold State.smWake
  split
  · rfl
  split
  · rw [State.count_sys, start]
  split
  · rw [State.count_sys]
    rfl
  · rfl

/-- What follows a record leaves the latches, memory, planes and the registers outside SQ and the oscillator. -/
theorem State.tripFollow_keeps (s : State) (k t : Nat) : (s.tripFollow k t).sys.trip = s.sys.trip ∧
    Frame s (s.tripFollow k t) [.engines, .sn, .groups, .sys, .free] followField := by
  unfold State.tripFollow
  extract_lets u v w
  have cause : Frame s u [.engines] causeField := by
    by_cases h : s.dieGet (CP_TGCAUSE_CAUSE_EN (8 * k) t) = 1
    · rw [show u = _ from if_pos h]
      exact Frame.causeMask _ _ _ _ _ _ _ (by simp) fun _ _ hy => causeField_of (s.dieGet_lt (CP_TGCAUSE_CTX (8 * k) t)) hy
    · rw [show u = _ from if_neg h]
      exact Frame.refl ..
  have snap : Frame u v [.sn] (fun _ => False) := by
    by_cases h : u.dieGet (CP_TGCAUSE_SNAP (8 * k) t) = 1
    · rw [show v = _ from if_pos h]
      exact Frame.snapRequest _ _ _ _ (by simp)
    · rw [show v = _ from if_neg h]
      exact Frame.refl ..
  have span : Frame v w [.groups] (fun _ => False) := Frame.tripSpan _ _ _ _ _ (by simp)
  have sys : w.sys = s.sys := (span.part .sys (by simp)).trans ((snap.part .sys (by simp)).trans (cause.part .sys (by simp)))
  have before : Frame s w [.engines, .sn, .groups, .sys, .free] followField :=
    ((cause.mono (by simp) fun _ => .inl).trans (snap.mono (by simp) fun _ => False.elim)).trans
      (span.mono (by simp) fun _ => False.elim)
  clear_value w
  split
  · exact ⟨w.trip_smWake.trans (by rw [sys]), before.trans (Frame.smWake _ _ _ (by simp) (by simp) (.inr rfl) (.inr rfl))⟩
  · exact ⟨by rw [sys], before⟩

theorem followField_apart {x y : Fld} {k a : Nat} (h : followField y) (hx : x.reg.addr = groupBase (8 * k) + a)
    (lo : 0x6400 ≤ a) (hi : a < 0x6500) : y.apart x := by
  rcases h with ⟨g, lo', hi'⟩ | e
  · exact .inl (by simp only [groupBase] at lo' hi' hx; omega)
  · exact .inl (by rw [e, hx]; simp only [CP_SM_STAT, groupBase]; omega)

theorem exec_tripLatchRecord {s : State} {k : DieIx} {n : Fin 16} {src : Nat}
    (h : vget s.sys.trip (16 * k.val + n.val) none = some (src, false)) :
    exec (.tripLatchRecord k n) s = done s ((s.tripNoted k n src).tripFollow k n) := by
  change execTripLatchRecord k n s = _
  unfold execTripLatchRecord
  rw [h]
  rfl

theorem State.tripRecord_runs {s : State} (k : DieIx) (n : Fin 16) {src : Nat}
    (h : vget s.sys.trip (16 * k.val + n.val) none = some (src, false)) (small : src < 128) :
    RunsTo (exec (.tripLatchRecord k n) s) fun t =>
      t.bit (CP_TGSTAT_LATCHED (8 * k.val)) n.val ∧ t.get (CP_TFLAGS_TRIP (8 * k.val)) = 1 ∧
      t.get (CP_TCNT0_TRIP (8 * k.val)) = min (s.get (CP_TCNT0_TRIP (8 * k.val)) + 1) 65535 ∧
      t.getTime (CP_TGREC_LO_T_LO (8 * k.val) n.val) (CP_TGREC_HI_T_HI (8 * k.val) n.val) = s.time ∧
      t.get (CP_TGREC_HI_SRC (8 * k.val) n.val) = src ∧ vget t.sys.trip (16 * k.val + n.val) none = some (src, true) ∧
      t.mem = s.mem ∧ t.staged = s.staged ∧ t.die = s.die := by
  have other {x y : Fld} {a b : Nat} (hx : x.reg.addr = groupBase (8 * k.val) + a) (hy : y.reg.addr = groupBase (8 * k.val) + b)
      (ne : a ≠ b) : x.apart y := .inl (by rw [hx, hy]; omega)
  have recLo : (CP_TGREC_LO_T_LO (8 * k.val) n.val).reg.addr = groupBase (8 * k.val) + (0x6480 + 8 * n.val) := by
    simp only [CP_TGREC_LO_T_LO, CP_TGREC_LO]; omega
  have recHi : (CP_TGREC_HI_T_HI (8 * k.val) n.val).reg.addr = groupBase (8 * k.val) + (0x6484 + 8 * n.val) := by
    simp only [CP_TGREC_HI_T_HI, CP_TGREC_HI]; omega
  have recSrc : (CP_TGREC_HI_SRC (8 * k.val) n.val).reg.addr = groupBase (8 * k.val) + (0x6484 + 8 * n.val) := recHi
  have srcTime : (CP_TGREC_HI_SRC (8 * k.val) n.val).apart (CP_TGREC_HI_T_HI (8 * k.val) n.val) := Fld.apart_of _ _ (by rfl) (by rfl)
  obtain ⟨trip, follows⟩ := (s.tripNoted k n src).tripFollow_keeps k n
  have kept (x : Fld) (a : Nat) (hx : x.reg.addr = groupBase (8 * k.val) + a) (lo : 0x6400 ≤ a) (hi : a < 0x6500) :
      (settle s ((s.tripNoted k n src).tripFollow k n)).get x = (s.tripNoted k n src).get x := by
    have pba : x.reg.notPba := .inr (by rw [hx, groupBase]; omega)
    rw [get_settle _ _ _ pba, follows.reg x pba fun y hy => followField_apart hy hx lo hi]
  -- the records come after the flags
  have early (x : Fld) (a : Nat) (hx : x.reg.addr = groupBase (8 * k.val) + a) (lo : 0x6400 ≤ a) (hi : a < 0x6480) :
      (settle s ((s.tripNoted k n src).tripFollow k n)).get x =
        (((s.setTrip (16 * k.val + n.val) (some (src, true))).setBit (CP_TGSTAT_LATCHED (8 * k.val)) n.val true).flag
          (CP_TFLAGS_TRIP (8 * k.val)) (CP_TCNT0_TRIP (8 * k.val))).get x := by
    rw [kept x a hx lo (by omega), State.tripNoted, State.get_set_apart _ _ _ _ (Fld.inWord_of _ rfl) (other recSrc hx (by omega)),
      State.setTime, State.get_set_apart _ _ _ _ (Fld.inWord_of _ rfl) (other recHi hx (by omega)),
      State.get_set_apart _ _ _ _ (Fld.inWord_of _ rfl) (other recLo hx (by omega))]
  rw [exec_tripLatchRecord h]
  refine runsTo_done _ _ _ ⟨?_, ?_, ?_, ?_, ?_, ?_, ?_, ?_, ?_⟩
  · rw [State.bit_of_get (early _ 0x6404 rfl (by decide) (by decide)), State.bit_of_get (State.get_flag_apart _ _ _ _
      (Fld.inWord_of _ rfl) (Fld.inWord_of _ rfl) (other (a := 0x640C) (b := 0x6404) rfl rfl (by decide))
      (other (a := 0x6410) (b := 0x6404) rfl rfl (by decide))), State.bit_setBit _ _ _ _ _ (Fld.inWord_of _ rfl) n.isLt, if_pos rfl]
  · rw [early _ 0x640C rfl (by decide) (by decide), State.get_flag _ _ _ (Fld.inWord_of _ rfl) (Fld.inWord_of _ rfl)
      (other (a := 0x6410) (b := 0x640C) rfl rfl (by decide)) rfl]
  · rw [early _ 0x6410 rfl (by decide) (by decide), State.get_flag_count _ _ _ (Fld.inWord_of _ rfl) (Fld.inWord_of _ rfl)
      (other (a := 0x640C) (b := 0x6410) rfl rfl (by decide)), State.setBit, State.get_set_apart _ _ _ _ (Fld.inWord_of _ rfl)
      (other (a := 0x6404) (b := 0x6410) rfl rfl (by decide))]
    rfl
  · rw [State.getTime_congr (kept _ _ recLo (by omega) (by omega)) (kept _ _ recHi (by omega) (by omega)), State.tripNoted,
      State.getTime_congr (State.get_set_apart _ _ _ _ (Fld.inWord_of _ rfl) (other recSrc recLo (by omega)))
        (State.get_set_apart _ _ _ _ (Fld.inWord_of _ rfl) srcTime),
      State.getTime_setTime _ _ _ _ (Fld.inWord_of _ rfl) (Fld.inWord_of _ rfl) (other recHi recLo (by omega)) rfl rfl]
  · rw [kept _ _ recSrc (by omega) (by omega), State.tripNoted, State.get_set _ _ _ (Fld.inWord_of _ rfl)]
    exact Nat.mod_eq_of_lt small
  · rw [settle_sys, trip, State.tripNoted, State.set_sys, State.setTime_sys, State.flag_sys, State.setBit, State.set_sys]
    exact vget_vset _ _ _ _ (by omega)
  · rw [settle_mem, show _ = _ from follows.part .mem (by simp), State.tripNoted, State.set_mem, State.setTime_mem, State.flag_mem]
    rfl
  · rw [settle_staged, show _ = _ from follows.part .staged (by simp), State.tripNoted, State.set_staged, State.setTime_staged,
      State.flag_staged]
    rfl
  · rw [settle_die, show _ = _ from follows.part .die (by simp), State.tripNoted, State.set_die, State.setTime_die, State.flag_die]
    rfl

/-! ### Re-arms -/

/-- R138: the re-arm of one trip group. -/
def State.rearmTrip (s : State) (k t : Nat) : State :=
  if (vget s.sys.trip (16 * k + t) none).isNone then s
  else if (s.violSource k t).isSome then s.flag (CP_TFLAGS_REARM_REFUSED (8 * k)) (CP_TCNT0_REARM_REFUSED (8 * k))
  else (s.setTrip (16 * k + t) none).setBit (CP_TGSTAT_LATCHED (8 * k)) t false

theorem exec_tripRearmWrite {s : State} (k : DieIx) (n : Fin 16) (now : s.actsNow) :
    exec (.tripRearmWrite k (BitVec.ofNat 32 (2 ^ n.val))) s = done s ((s.rearmTrip k n).parkDie k) := by
  change done s (s.mirrored (CP_TGARM (8 * k.val)).addr _ fun s => s.tripRearm k (fieldOf (BitVec.ofNat 32 (2 ^ n.val)) 15 0)) = _
  rw [State.mirrored_actsNow _ _ _ _ now, fieldOf_onePos, State.tripRearm, bitsOf_onePos]
  rfl

/-- The fields of PARK of a die. -/
def parkDieField (k : Nat) (y : Fld) : Prop := ∃ i < 8, y = LS_PARKSTAT_PARKED (8 * k + i)

theorem Frame.parkDie (s : State) (k : Nat) : Frame s (s.parkDie k) [.groups] (parkDieField k) :=
  Frame.forEach _ _ _ _ _ fun t i hi => Frame.parkGroup t _ _ _ (by simp) ⟨i, List.mem_range.1 hi, rfl⟩

theorem parkDieField_apart {k a : Nat} {x y : Fld} (h : parkDieField k y) (hx : x.reg.addr = groupBase (8 * k) + a) (lo : 0x6000 ≤ a)
    (hi : a < 0x7000) : y.apart x := by
  obtain ⟨i, hi, rfl⟩ := h
  exact .inl (by rw [hx]; simp only [LS_PARKSTAT_PARKED, LS_PARKSTAT, groupBase]; omega)

theorem groupRegs_parkDie {k : Nat} {y : Fld} (h : parkDieField k y) : groupRegs 0x4000 0x7000 y := by
  obtain ⟨i, hi, rfl⟩ := h
  exact ⟨8 * k + i, by simp only [LS_PARKSTAT_PARKED, LS_PARKSTAT]; omega⟩

/-- The registers of a die after its channels have parked. -/
theorem State.get_parked_settled (s t : State) {k a : Nat} {x : Fld} (hx : x.reg.addr = groupBase (8 * k) + a) (lo : 0x6000 ≤ a)
    (hi : a < 0x7000) : (settle s (t.parkDie k)).get x = t.get x := by
  have pba : x.reg.notPba := .inr (by rw [hx, groupBase]; omega)
  rw [get_settle _ _ _ pba, (Frame.parkDie t k).reg x pba fun y hy => parkDieField_apart hy hx lo hi]

theorem State.sys_parkDie (s : State) (k : Nat) : (s.parkDie k).sys = s.sys := (Frame.parkDie s k).part .sys (by simp)

theorem State.rearmTrip_runs {s : State} (k : DieIx) (n : Fin 16) (now : s.actsNow)
    (latched : (vget s.sys.trip (16 * k.val + n.val) none).isSome) (quiet : s.violSource k.val n.val = none) :
    RunsTo (exec (.tripRearmWrite k (BitVec.ofNat 32 (2 ^ n.val))) s) fun t =>
      vget t.sys.trip (16 * k.val + n.val) none = none ∧ t.bit (CP_TGSTAT_LATCHED (8 * k.val)) n.val = false ∧
      Frame s t [.groups, .sys] (groupRegs 0x4000 0x7000) := by
  have clears : s.rearmTrip k n = (s.setTrip (16 * k.val + n.val) none).setBit (CP_TGSTAT_LATCHED (8 * k.val)) n.val false := by
    rw [State.rearmTrip, if_neg (by rw [Option.isNone_iff_eq_none]; exact Option.isSome_iff_ne_none.1 latched),
      if_neg (by rw [quiet]; exact Bool.false_ne_true)]
  rw [exec_tripRearmWrite k n now, clears]
  refine runsTo_done _ _ _ ⟨?_, ?_, ?_⟩
  · rw [settle_sys, State.sys_parkDie, State.setBit, State.set_sys]
    exact vget_vset _ _ _ _ (by omega)
  · rw [State.bit_of_get (State.get_parked_settled (a := 0x6404) _ _ rfl (by decide) (by decide)),
      State.bit_setBit _ _ _ _ _ (Fld.inWord_of _ rfl) n.isLt, if_pos rfl]
  · exact (((Frame.setTrip _ _ _ _ _ (by simp)).trans (Frame.setBit _ _ _ _ _ _ (Fld.inWord_of _ rfl)
      ⟨8 * k.val, by simp only [CP_TGSTAT_LATCHED, CP_TGSTAT]; omega⟩)).trans ((Frame.parkDie ..).mono (by simp)
      fun _ => groupRegs_parkDie)).trans (Frame.settle ..)

theorem State.rearmRefused_runs {s : State} (k : DieIx) (n : Fin 16) (now : s.actsNow)
    (latched : (vget s.sys.trip (16 * k.val + n.val) none).isSome) (viol : (s.violSource k.val n.val).isSome) :
    RunsTo (exec (.tripRearmWrite k (BitVec.ofNat 32 (2 ^ n.val))) s) fun t =>
      t.sys.trip = s.sys.trip ∧ t.get (CP_TFLAGS_REARM_REFUSED (8 * k.val)) = 1 ∧
      t.get (CP_TCNT0_REARM_REFUSED (8 * k.val)) = min (s.get (CP_TCNT0_REARM_REFUSED (8 * k.val)) + 1) 65535 := by
  have refused : s.rearmTrip k n = s.flag (CP_TFLAGS_REARM_REFUSED (8 * k.val)) (CP_TCNT0_REARM_REFUSED (8 * k.val)) := by
    rw [State.rearmTrip, if_neg (by rw [Option.isNone_iff_eq_none]; exact Option.isSome_iff_ne_none.1 latched), if_pos viol]
  have countFlags : (CP_TCNT0_REARM_REFUSED (8 * k.val)).reg.addr ≠ (CP_TFLAGS_REARM_REFUSED (8 * k.val)).reg.addr := by
    simp only [CP_TCNT0_REARM_REFUSED, CP_TCNT0, CP_TFLAGS_REARM_REFUSED, CP_TFLAGS]
    omega
  rw [exec_tripRearmWrite k n now, refused]
  refine runsTo_done _ _ _ ⟨?_, ?_, ?_⟩
  · rw [settle_sys, State.sys_parkDie, State.flag_sys]
  · rw [State.get_parked_settled (a := 0x640C) _ _ rfl (by decide) (by decide),
      State.get_flag _ _ _ (Fld.inWord_of _ rfl) (Fld.inWord_of _ rfl) (.inl countFlags) rfl]
  · rw [State.get_parked_settled (a := 0x6410) _ _ rfl (by decide) (by decide),
      State.get_flag_count _ _ _ (Fld.inWord_of _ rfl) (Fld.inWord_of _ rfl) (.inl countFlags.symm)]
    rfl

/-! ### A self-check begins -/

/-- Self-check of every channel is as it was. -/
def SameCheck (s t : State) : Prop := ∀ k q, (t.chan k q).cmp.selfCheck = (s.chan k q).cmp.selfCheck

theorem SameCheck.refl (s : State) : SameCheck s s := fun _ _ => rfl

theorem SameCheck.trans {s t u : State} (h : SameCheck s t) (k : SameCheck t u) : SameCheck s u :=
  fun g q => (k g q).trans (h g q)

theorem SameCheck.of_park {s t : State} (h : OnlyPark s t) : SameCheck s t := fun g q => by rw [h.cmp]

theorem State.setCmp_out (s : State) {g p : Nat} (c : Comparator) (h : ¬(g < 32 ∧ p < 16)) : s.setCmp g p c = s := by
  unfold State.setCmp
  by_cases hp : p < 16
  · have hg : ¬g < 32 := fun hg => h ⟨hg, hp⟩
    rw [State.setChan_eq _ _ _ hp, State.setGroup, dif_neg hg]
  · rw [State.setChan, dif_neg hp]

theorem SameCheck.setCmp (s : State) (g p : Nat) (c : Comparator) (h : c.selfCheck = (s.chan g p).cmp.selfCheck) :
    SameCheck s (s.setCmp g p c) := fun k q => by
  by_cases real : g < 32 ∧ p < 16
  · by_cases here : g = k ∧ p = q
    · obtain ⟨rfl, rfl⟩ := here
      rw [s.cmp_setCmp c real.1 real.2, h]
    · rw [s.chan_setCmp_ne c here]
  · rw [s.setCmp_out c real]

theorem SameCheck.set (s : State) (x : Fld) (v : Nat) : SameCheck s (s.set x v) := .of_park (.set ..)

theorem SameCheck.laneUpdate (s : State) (g p : Nat) (t : Tick) : SameCheck s (s.laneUpdate g p t) := by
  obtain ⟨l, e | e⟩ := s.laneUpdate_form g p t
  · rw [e]
    exact .setCmp s g p _ rfl
  · rw [e]
    exact .refl s

theorem SameCheck.rearm (s : State) (g p : Nat) : SameCheck s (s.rearm g p) :=
  ((((SameCheck.setCmp s g p _ (by rfl)).trans (.set _ _ _)).trans (.set _ _ _)).trans (.laneUpdate _ g p _)).trans
    (.of_park (.violUpdate ..))

/-- The tie sets the comparators of its channel alone. -/
theorem State.tieSwitch_form (s : State) (g p : Nat) :
    ∃ c, c.selfCheck = (s.chan g p).cmp.selfCheck ∧ (s.tieSwitch g p = s.setCmp g p c ∨ s.tieSwitch g p = s) := by
  unfold State.tieSwitch
  split
  · split
    · refine ⟨_, ?_, .inl rfl⟩
      split <;> rfl
    · exact ⟨_, rfl, .inr rfl⟩
  · exact ⟨_, rfl, .inr rfl⟩

/-- A channel of a run after the re-arm and the tie of a step. -/
def State.stepChan (s : State) (g p : Nat) : State := (s.rearm g p).tieSwitch g p

theorem State.stepChan_keeps (s : State) {g p : Nat} (hp : p < 16) : SameCheck s (s.stepChan g p) ∧ SameRest s (s.stepChan g p) ∧
    Frame s (s.stepChan g p) [.groups, .sys] (rearmField g p) := by
  obtain ⟨c, same, e | e⟩ := (s.rearm g p).tieSwitch_form g p
  · rw [State.stepChan, e]
    exact ⟨(SameCheck.rearm s g p).trans (.setCmp _ _ _ _ same), (SameDacs.rearm s g p).rest.trans (.setChan _ g p _),
      (Frame.rearm s g p hp).trans (Frame.setCmp _ _ _ _ _ _ (by simp))⟩
  · rw [State.stepChan, e]
    exact ⟨.rearm s g p, (SameDacs.rearm s g p).rest, Frame.rearm s g p hp⟩

theorem mem_bitsOf {m n i : Nat} : i ∈ bitsOf m n ↔ i < n ∧ m.testBit i = true := by
  rw [bitsOf, List.mem_filter, List.mem_range]

/-- What a run of channel steps may change. -/
def checkField (g : Nat) (y : Fld) : Prop := ∃ p < 16, rearmField g p y

theorem State.stepChans_keep (s : State) (g m : Nat) : SameCheck s (s.forEach (bitsOf m 16) fun s p => s.stepChan g p) ∧
    SameRest s (s.forEach (bitsOf m 16) fun s p => s.stepChan g p) ∧
    Frame s (s.forEach (bitsOf m 16) fun s p => s.stepChan g p) [.groups, .sys] (checkField g) :=
  (foldl_establishes (fun t p => State.stepChan t g p)
    (fun t => SameCheck s t ∧ SameRest s t ∧ Frame s t [.groups, .sys] (checkField g)) (fun _ _ => True) (bitsOf m 16)
    (fun t ⟨ha, hb, hc⟩ p hp =>
      have step := t.stepChan_keeps (g := g) (mem_bitsOf.1 hp).1
      ⟨ha.trans step.1, hb.trans step.2.1, hc.trans (step.2.2.mono (fun _ => id) fun _ h => ⟨p, (mem_bitsOf.1 hp).1, h⟩)⟩)
    (fun _ _ _ _ => trivial) (fun _ _ _ _ _ _ _ => trivial) s ⟨.refl s, .refl s, Frame.refl ..⟩).1

/-- The channels of a mask enter self-check. -/
def State.checkOn (s : State) (g m : Nat) : State :=
  s.forEach (bitsOf m 16) fun s p => s.setCmp g p { (s.chan g p).cmp with selfCheck := true }

theorem State.checkOn_sets (s : State) {g : Nat} (m : Nat) (hg : g < 32) : (SameRest s (s.checkOn g m) ∧
    Frame s (s.checkOn g m) [.groups] (fun _ => False)) ∧ ∀ p ∈ bitsOf m 16, ((s.checkOn g m).chan g p).cmp.selfCheck = true :=
  foldl_establishes (fun s p => State.setCmp s g p { (s.chan g p).cmp with selfCheck := true })
    (fun t => SameRest s t ∧ Frame s t [.groups] (fun _ => False)) (fun p t => (t.chan g p).cmp.selfCheck = true) (bitsOf m 16)
    (fun t ht p _ => ⟨ht.1.trans (.setChan t g p _), ht.2.trans (Frame.setCmp _ _ _ _ _ _ (by simp))⟩)
    (fun t _ p hp => by rw [t.cmp_setCmp _ hg (mem_bitsOf.1 hp).1])
    (fun t _ p hp q _ h => by
      by_cases e : p = q
      · subst e
        rw [t.cmp_setCmp _ hg (mem_bitsOf.1 hp).1]
      · rw [t.chan_setCmp_ne _ fun x => e x.2]
        exact h) s ⟨.refl s, Frame.refl ..⟩

/-- The state with a run of the self-check begun, before its channels take part. -/
def State.checkBegun (s : State) (g : Nat) : State :=
  (s.setGroup g { s.group g with scStart := some s.time }).set (CP_SC_STAT_STATE g) scRunning

/-- The first step of a run. -/
def State.firstRun (s : State) (steps mask : Nat) : ScRun :=
  { steps := steps, mask := mask, step := (scStep steps 0).getD 0, at_ := s.time
    ended := (scStep steps 0).isNone || mask == 0 }

theorem State.scStart_eq {s : State} {g : Nat} (idle : s.get (CP_SC_STAT_STATE g) ≠ scRunning) : ∃ u r,
    u = (s.checkBegun g).checkOn g (s.get (CP_SC_CTL_MASK g)) ∧ r.mask = s.get (CP_SC_CTL_MASK g) ∧
    s.scStart g = (u.setGroup g { u.group g with sc := some r }).forEach (bitsOf r.mask 16) fun s p => s.stepChan g p := by
  refine ⟨_, ((s.checkBegun g).checkOn g (s.get (CP_SC_CTL_MASK g))).firstRun (s.get (CP_SC_CTL_STEPS g)) (s.get (CP_SC_CTL_MASK g)),
    rfl, rfl, ?_⟩
  rw [State.scStart, if_neg idle]
  rfl

theorem checkField_apart {g k a : Nat} {x y : Fld} (h : checkField g y) (hx : x.reg.addr = groupBase k + a) (off : 0x6018 ≤ a ∧ a < 0x6400 ∨
    0x6000 ≤ a ∧ a < 0x6008) : y.apart x := by
  obtain ⟨p, hp, e | e | e | e | ⟨i, hi, e⟩⟩ := h <;> subst e <;> refine .inl ?_ <;> rw [hx]
  · simp only [CP_STATUS_VALID, CP_STATUS, groupBase]; omega
  · simp only [CP_STATE, groupBase]; omega
  · simp only [CP_STATUS_VIOL, CP_STATUS, groupBase]; omega
  · simp only [CP_TGSTAT_VIOL, CP_TGSTAT, groupBase]; omega
  · simp only [LS_PARKSTAT_PARKED, LS_PARKSTAT, groupBase]; omega

theorem groupRegs_check {g : Nat} {y : Fld} (h : checkField g y) : groupRegs 0x4000 0x7000 y := by
  obtain ⟨p, -, h⟩ := h
  exact groupRegs_rearm h

/-- What the start of a run establishes. -/
theorem State.scStart_sets {s : State} {g : Nat} (hg : g < 32) (idle : s.get (CP_SC_STAT_STATE g) ≠ scRunning) :
    (s.scStart g).get (CP_SC_STAT_STATE g) = scRunning ∧ ((s.scStart g).group g).scStart = some s.time ∧
    (s.scStart g).get (CP_SC_CTL_MASK g) = s.get (CP_SC_CTL_MASK g) ∧
    (∀ p ∈ bitsOf (s.get (CP_SC_CTL_MASK g)) 16, ((s.scStart g).chan g p).cmp.selfCheck = true) ∧
    Frame s (s.scStart g) [.groups, .sys] (groupRegs 0x4000 0x7000) := by
  have stat : groupRegs 0x4000 0x7000 (CP_SC_STAT_STATE g) := ⟨g, by simp only [CP_SC_STAT_STATE, CP_SC_STAT]; omega⟩
  have begun : Frame s (s.checkBegun g) [.groups, .sys] (groupRegs 0x4000 0x7000) :=
    (Frame.setGroup s _ _ _ _ (by simp)).trans (Frame.set _ _ _ _ _ (Fld.inWord_of _ rfl) stat)
  have started : ((s.checkBegun g).group g).scStart = some s.time := congrArg Group.scStart (State.group_setGroup _ _ _ hg)
  have state : (s.checkBegun g).get (CP_SC_STAT_STATE g) = scRunning := by
    rw [State.checkBegun, State.get_set _ _ _ (Fld.inWord_of _ rfl)]
    rfl
  have statCtl : (CP_SC_STAT_STATE g).apart (CP_SC_CTL_MASK g) :=
    .inl (by simp only [CP_SC_STAT_STATE, CP_SC_STAT, CP_SC_CTL_MASK, CP_SC_CTL]; omega)
  have mask : (s.checkBegun g).get (CP_SC_CTL_MASK g) = s.get (CP_SC_CTL_MASK g) := by
    rw [State.checkBegun, State.get_set_apart _ _ _ _ (Fld.inWord_of _ rfl) statCtl, State.get_setGroup]
  obtain ⟨⟨rest, quiet⟩, checked⟩ := (s.checkBegun g).checkOn_sets (s.get (CP_SC_CTL_MASK g)) hg
  obtain ⟨u, r, hu, hr, e⟩ := State.scStart_eq idle
  rw [e, hr]
  rw [← hu] at rest quiet checked
  have taken : (u.setGroup g { u.group g with sc := some r }).group g = { u.group g with sc := some r } :=
    State.group_setGroup _ _ _ hg
  have chan (p : Nat) : (u.setGroup g { u.group g with sc := some r }).chan g p = u.chan g p := by
    rw [State.chan_eq, taken]
    rfl
  have held : Frame u (u.setGroup g { u.group g with sc := some r }) [.groups] (fun _ => False) :=
    Frame.setGroup u _ _ _ _ (by simp)
  generalize u.setGroup g { u.group g with sc := some r } = v at taken chan held
  obtain ⟨same, rest', frame⟩ := v.stepChans_keep g (s.get (CP_SC_CTL_MASK g))
  have kept (x : Fld) (a : Nat) (hx : x.reg.addr = groupBase g + a) (off : 0x6018 ≤ a ∧ a < 0x6400) :
      (v.forEach (bitsOf (s.get (CP_SC_CTL_MASK g)) 16) fun s p => s.stepChan g p).get x = (s.checkBegun g).get x := by
    have pba : x.reg.notPba := .inr (by rw [hx, groupBase]; omega)
    rw [frame.reg x pba fun y hy => checkField_apart hy hx (.inl off), held.reg x pba fun _ => False.elim,
      quiet.reg x pba fun _ => False.elim]
  refine ⟨?_, ?_, ?_, fun p hp => ?_, ?_⟩
  · rw [kept _ 0x6024 rfl (by decide), state]
  · rw [rest'.field Group.scStart (fun _ _ => rfl) g, taken]
    exact (rest.field Group.scStart (fun _ _ => rfl) g).trans started
  · rw [kept _ 0x6020 rfl (by decide), mask]
  · rw [same, chan]
    exact checked p hp
  · exact ((begun.trans (quiet.mono (by simp) fun _ => False.elim)).trans (held.mono (by simp) fun _ => False.elim)).trans
      (frame.mono (fun _ => id) fun _ => groupRegs_check)

theorem getLsbD_of_half {v : Word} {p : Nat} (hp : p < 16) (h : v.getLsbD p) : p ∈ bitsOf (v.toNat % 65536) 16 := by
  rw [mem_bitsOf]
  refine ⟨hp, ?_⟩
  rw [show (65536 : Nat) = 2 ^ 16 from rfl, Nat.testBit_mod_two_pow, decide_eq_true hp]
  exact h

/-- The bounds of a run as a write of CP_SC_CTL leaves them. -/
def State.scBounds (s : State) (g : Nat) (v : Word) : State :=
  ((s.set (CP_SC_CTL_STEPS g) (fieldOf v 29 24)).set (CP_SC_CTL_PER g) (fieldOf v 23 16)).set (CP_SC_CTL_MASK g) (fieldOf v 15 0)

theorem State.writeScCtl_of_run {s : State} (g : Nat) {v : Word} (run : v.getLsbD 31) :
    s.writeScCtl g v = (s.scBounds g v).scStart g := if_pos (fieldOf_of_bit run)

theorem State.scBounds_sets (s : State) (g : Nat) (v : Word) : (s.scBounds g v).get (CP_SC_CTL_MASK g) = v.toNat % 65536 ∧
    (s.scBounds g v).get (CP_SC_STAT_STATE g) = s.get (CP_SC_STAT_STATE g) ∧ (s.scBounds g v).time = s.time ∧
    Frame s (s.scBounds g v) [.groups, .sys] (groupRegs 0x4000 0x7000) := by
  have ctl {y : Fld} (hy : y.reg = CP_SC_CTL g) : groupRegs 0x4000 0x7000 y := ⟨g, by rw [hy]; simp only [CP_SC_CTL]; omega⟩
  have frame : Frame s (s.scBounds g v) [.groups, .sys] (groupRegs 0x4000 0x7000) :=
    ((Frame.set s _ _ _ _ (Fld.inWord_of _ rfl) (ctl rfl)).trans (Frame.set _ _ _ _ _ (Fld.inWord_of _ rfl) (ctl rfl))).trans
      (Frame.set _ _ _ _ _ (Fld.inWord_of _ rfl) (ctl rfl))
  have away {y : Fld} (hy : y.reg = CP_SC_CTL g) : y.apart (CP_SC_STAT_STATE g) :=
    .inl (by rw [hy]; simp only [CP_SC_STAT_STATE, CP_SC_STAT, CP_SC_CTL]; omega)
  refine ⟨?_, ?_, ?_, frame⟩
  · rw [State.scBounds, State.get_set _ _ _ (Fld.inWord_of _ rfl), fieldOf_low_half]
    exact Nat.mod_mod _ _
  · rw [State.scBounds, State.get_set_apart _ _ _ _ (Fld.inWord_of _ rfl) (away rfl),
      State.get_set_apart _ _ _ _ (Fld.inWord_of _ rfl) (away rfl), State.get_set_apart _ _ _ _ (Fld.inWord_of _ rfl) (away rfl)]
  · exact frame.part .time (by simp)

theorem exec_selfCheckRun {s : State} (g : GroupIx) (v : Word) (now : s.actsNow) :
    exec (.selfCheckRun g v) s = done s (s.writeScCtl g v) :=
  congrArg (done s) (State.mirrored_actsNow _ _ _ _ now)

theorem State.selfCheckRun_runs {s : State} (g : GroupIx) {v : Word} (now : s.actsNow) (run : v.getLsbD 31)
    (idle : s.get (CP_SC_STAT_STATE g) ≠ scRunning) : RunsTo (exec (.selfCheckRun g v) s) fun t =>
      t.get (CP_SC_STAT_STATE g) = scRunning ∧ (t.group g).scStart = some s.time ∧
      t.get (CP_SC_CTL_MASK g) = v.toNat % 65536 ∧ (∀ p, p < 16 → v.getLsbD p → (t.chan g p).cmp.selfCheck) ∧
      Frame s t [.groups, .sys] (groupRegs 0x4000 0x7000) := by
  obtain ⟨mask, state, time, bounds⟩ := s.scBounds_sets g v
  obtain ⟨running, started, kept, checked, frame⟩ := State.scStart_sets (s := s.scBounds g v) g.isLt (by rwa [state])
  rw [exec_selfCheckRun g v now, State.writeScCtl_of_run g run]
  generalize (s.scBounds g v).scStart g = u at *
  rw [mask] at kept checked
  have pba (x : Fld) (a : Nat) (hx : x.reg.addr = groupBase g + a) : x.reg.notPba := .inr (by rw [hx, groupBase]; omega)
  refine runsTo_done _ _ _ ⟨?_, ?_, ?_, fun p hp h => ?_, (bounds.trans frame).trans (Frame.settle ..)⟩
  · rw [get_settle _ _ _ (pba _ 0x6024 rfl), running]
  · rw [group_settle, started, time]
  · rw [get_settle _ _ _ (pba _ 0x6020 rfl), kept]
  · rw [chan_settle]
    exact checked p (getLsbD_of_half hp h)

theorem exec_selfCheckPeriodic {s : State} (g : GroupIx) {start : Time} (on : 0 < s.get (CP_SC_CTL_PER g))
    (began : (s.group g).scStart = some start) (due : s.get (CP_SC_CTL_PER g) * 1600000000 ≤ s.since start) :
    exec (.selfCheckPeriodic g) s = done s (s.scStart g) := by
  have acts : (match (s.group g).scStart with
      | some t => decide (0 < s.get (CP_SC_CTL_PER g) ∧ s.get (CP_SC_CTL_PER g) * 1600000000 ≤ s.since t)
      | none => false) = true := by
    rw [began]
    exact decide_eq_true ⟨on, due⟩
  exact doneIf_pos acts ..

theorem State.selfCheckPeriodic_runs {s : State} (g : GroupIx) {start : Time} (idle : s.get (CP_SC_STAT_STATE g) ≠ scRunning)
    (on : 0 < s.get (CP_SC_CTL_PER g)) (began : (s.group g).scStart = some start)
    (due : s.get (CP_SC_CTL_PER g) * 1600000000 ≤ s.since start) : RunsTo (exec (.selfCheckPeriodic g) s) fun t =>
      t.get (CP_SC_STAT_STATE g) = scRunning ∧ (t.group g).scStart = some s.time := by
  obtain ⟨running, started, -⟩ := State.scStart_sets g.isLt idle
  rw [exec_selfCheckPeriodic g on began due]
  generalize s.scStart g = u at *
  refine runsTo_done _ _ _ ⟨?_, ?_⟩
  · rw [get_settle _ _ _ (.inr (by simp only [CP_SC_STAT_STATE, CP_SC_STAT, groupBase]; omega)), running]
  · rw [group_settle, started]

/-! ### A self-check ends -/

/-- A fold whose every step adds less than a digit of base 16 at its place stays below the digits' power. -/
theorem foldl_digits_lt {f : Nat → Nat → Nat} (digit : ∀ r i, f r i ≤ r + 15 * 16 ^ i) (n : Nat) :
    (List.range n).foldl f 0 < 16 ^ n := by
  induction n with
  | zero => exact Nat.one_pos
  | succ n ih =>
    rw [List.range_succ, List.foldl_append]
    have last := digit ((List.range n).foldl f 0) n
    rw [List.foldl_cons, List.foldl_nil, Nat.pow_succ]
    omega

theorem scCode_le (x t h : Int) (e : Bool) (o : Option Bool) : scCode x t h e o ≤ 2 := by
  unfold scCode
  split
  · decide
  · split
    · decide
    · split <;> decide

theorem State.scResult_lt (s : State) (g p steps : Nat) (obs : List (Option (Bool × Bool))) : s.scResult g p steps obs < 2 ^ 24 := by
  unfold State.scResult
  refine foldl_digits_lt (fun r i => ?_) 6
  split
  · refine Nat.add_le_add_left (Nat.mul_le_mul_right _ ?_) r
    refine (Nat.add_le_add (scCode_le ..) (Nat.mul_le_mul_left 4 (scCode_le ..))).trans (by decide)
  · exact Nat.le_refl _

/-- The results of the channels of a run. -/
def State.scResults (s : State) (g : Nat) (r : ScRun) (res : List (List (Option (Bool × Bool)))) : List (Nat × Nat) :=
  (bitsOf r.mask 16).map fun p => (p, s.scResult g p r.steps (res.getD p []))

/-- One result into its register and, where it fails, FAILMAP. -/
def State.scStore (s : State) (g : Nat) (x : Nat × Nat) : State :=
  if scFailed x.2 then (s.set (CP_SC_RES_RES g x.1) x.2).setBit (CP_SC_STAT_FAILMAP g) x.1 true
  else s.set (CP_SC_RES_RES g x.1) x.2

/-- The results of a run stored. -/
def State.scStored (s : State) (g : Nat) (r : ScRun) (res : List (List (Option (Bool × Bool)))) : State :=
  (s.scResults g r res).foldl (fun t x => t.scStore g x) (s.set (CP_SC_STAT_FAILMAP g) 0)

/-- SC_FAIL where a channel of the run has a fail. -/
def State.scFlagged (s u : State) (g : Nat) (r : ScRun) (res : List (List (Option (Bool × Bool)))) : State :=
  if (s.scResults g r res).any fun x => scFailed x.2 then u.flag (CP_FLAGS_SC_FAIL g) (CP_CNT0_SC_FAIL g) else u

/-- The channels of a mask leave self-check. -/
def State.checkOff (s : State) (g m : Nat) : State :=
  s.forEach (bitsOf m 16) fun s p => (s.setCmp g p { (s.chan g p).cmp with selfCheck := false }).rearm g p

theorem State.scEnd_eq {s : State} {g : Nat} {r : ScRun} (res : List (List (Option (Bool × Bool)))) (run : (s.group g).sc = some r) :
    ∃ u, u = (s.scFlagged (s.scStored g r res) g r res).checkOff g r.mask ∧
      s.scEnd g res = (u.setGroup g { u.group g with sc := none }).set (CP_SC_STAT_STATE g) 2 := by
  refine ⟨_, rfl, ?_⟩
  rw [State.scEnd, run]
  rfl

/-- What storing the results changes. -/
def resultField (g : Nat) (y : Fld) : Prop := y = CP_SC_STAT_FAILMAP g ∨ ∃ p < 16, y = CP_SC_RES_RES g p

theorem Frame.scStore (s : State) (g : Nat) {x : Nat × Nat} (hp : x.1 < 16) : Frame s (s.scStore g x) [.groups] (resultField g) := by
  have first : Frame s (s.set (CP_SC_RES_RES g x.1) x.2) [.groups] (resultField g) :=
    Frame.set s _ _ _ _ (Fld.inWord_of _ rfl) (.inr ⟨_, hp, rfl⟩)
  unfold State.scStore
  split
  · exact first.trans (Frame.setBit _ _ _ _ _ _ (Fld.inWord_of _ rfl) (.inl rfl))
  · exact first

theorem SameRest.scStore (s : State) (g : Nat) (x : Nat × Nat) : SameRest s (s.scStore g x) := by
  unfold State.scStore
  split
  · exact (SameRest.set _ _ _).trans (.set _ _ _)
  · exact .set _ _ _

theorem Fld.apart_symm {x y : Fld} (h : x.apart y) : y.apart x :=
  h.imp Ne.symm fun ⟨e, o⟩ => ⟨e.symm, o.symm⟩

theorem failmap_apart_res (g k p : Nat) (hp : p < 16) : (CP_SC_STAT_FAILMAP g).apart (CP_SC_RES_RES k p) :=
  .inl (by simp only [CP_SC_STAT_FAILMAP, CP_SC_STAT, CP_SC_RES_RES, CP_SC_RES, groupBase]; omega)

theorem State.get_res_scStore (s : State) (g : Nat) {x : Nat × Nat} {p : Nat} (hx : x.2 < 2 ^ 24) (hp : p < 16) :
    (s.scStore g x).get (CP_SC_RES_RES g p) = if x.1 = p then x.2 else s.get (CP_SC_RES_RES g p) := by
  have first : (s.set (CP_SC_RES_RES g x.1) x.2).get (CP_SC_RES_RES g p) = if x.1 = p then x.2 else s.get (CP_SC_RES_RES g p) := by
    split
    · next e =>
      rw [e, State.get_set _ _ _ (Fld.inWord_of _ rfl)]
      exact Nat.mod_eq_of_lt hx
    · next e =>
      exact State.get_set_apart _ _ _ _ (Fld.inWord_of _ rfl) (.inl (by simp only [CP_SC_RES_RES, CP_SC_RES]; omega))
  rw [← first, State.scStore]
  split
  · exact State.get_set_apart _ _ _ _ (Fld.inWord_of _ rfl) (failmap_apart_res g g p hp)
  · rfl

theorem State.bit_failmap_scStore (s : State) (g : Nat) {x : Nat × Nat} (hx : x.1 < 16) {p : Nat} (hp : p < 16) :
    (s.scStore g x).bit (CP_SC_STAT_FAILMAP g) p = (decide (x.1 = p) && scFailed x.2 || s.bit (CP_SC_STAT_FAILMAP g) p) := by
  have first : (s.set (CP_SC_RES_RES g x.1) x.2).bit (CP_SC_STAT_FAILMAP g) p = s.bit (CP_SC_STAT_FAILMAP g) p :=
    State.bit_set_apart _ _ _ _ _ (Fld.inWord_of _ rfl) (Fld.apart_symm (failmap_apart_res g g _ hx))
  unfold State.scStore
  split
  · next failed =>
    rw [State.bit_setBit _ _ _ _ _ (Fld.inWord_of _ rfl) hp, first, failed]
    by_cases e : x.1 = p
    · rw [if_pos e, decide_eq_true e]
      rfl
    · rw [if_neg e, decide_eq_false e]
      rfl
  · next passed =>
    rw [first, Bool.eq_false_iff.2 passed, Bool.and_false, Bool.false_or]

theorem State.mem_scResults {s : State} {g : Nat} {r : ScRun} {res : List (List (Option (Bool × Bool)))} {x : Nat × Nat} :
    x ∈ s.scResults g r res ↔ (x.1 < 16 ∧ r.mask.testBit x.1 = true) ∧ x.2 = s.scResult g x.1 r.steps (res.getD x.1 []) := by
  rw [State.scResults, List.mem_map]
  constructor
  · rintro ⟨p, hp, rfl⟩
    exact ⟨mem_bitsOf.1 hp, rfl⟩
  · rintro ⟨hp, e⟩
    exact ⟨x.1, mem_bitsOf.2 hp, Prod.ext rfl e.symm⟩

/-- A channel of a run with a fail. -/
def State.scFails (s : State) (g : Nat) (r : ScRun) (res : List (List (Option (Bool × Bool)))) (p : Nat) : Bool :=
  r.mask.testBit p && scFailed (s.scResult g p r.steps (res.getD p []))

theorem State.scStored_sets (s : State) (g : Nat) (r : ScRun) (res : List (List (Option (Bool × Bool)))) :
    SameRest s (s.scStored g r res) ∧ Frame s (s.scStored g r res) [.groups] (resultField g) ∧
    (∀ p, p < 16 → (s.scStored g r res).bit (CP_SC_STAT_FAILMAP g) p = s.scFails g r res p) ∧
    ∀ p, p < 16 → r.mask.testBit p = true →
      (s.scStored g r res).get (CP_SC_RES_RES g p) = s.scResult g p r.steps (res.getD p []) := by
  have cleared (p : Nat) : (s.set (CP_SC_STAT_FAILMAP g) 0).bit (CP_SC_STAT_FAILMAP g) p = false := by
    rw [State.bit, State.get_set _ _ _ (Fld.inWord_of _ rfl), Nat.zero_mod, Nat.zero_testBit]
  obtain ⟨⟨rest, frame, only⟩, each⟩ := foldl_establishes (fun t x => State.scStore t g x)
    (fun t => SameRest s t ∧ Frame s t [.groups] (resultField g) ∧
      ∀ p, p < 16 → t.bit (CP_SC_STAT_FAILMAP g) p = true → s.scFails g r res p = true)
    (fun x t => t.get (CP_SC_RES_RES g x.1) = x.2 ∧ (scFailed x.2 = true → t.bit (CP_SC_STAT_FAILMAP g) x.1 = true))
    (s.scResults g r res)
    (fun t ⟨rest, frame, only⟩ x hx => by
      obtain ⟨⟨hp, hm⟩, e⟩ := State.mem_scResults.1 hx
      refine ⟨rest.trans (SameRest.scStore t g x), frame.trans (Frame.scStore t g hp), fun p hp' h => ?_⟩
      rw [t.bit_failmap_scStore g hp hp', Bool.or_eq_true, Bool.and_eq_true] at h
      rcases h with ⟨here, failed⟩ | h
      · rw [State.scFails, ← of_decide_eq_true here, hm, ← e, failed]
        rfl
      · exact only p hp' h)
    (fun t _ x hx => by
      obtain ⟨⟨hp, -⟩, e⟩ := State.mem_scResults.1 hx
      refine ⟨?_, fun failed => ?_⟩
      · rw [t.get_res_scStore g (e ▸ s.scResult_lt ..) hp, if_pos rfl]
      · rw [t.bit_failmap_scStore g hp hp, failed, decide_eq_true rfl]
        rfl)
    (fun t _ x hx y hy ⟨value, bit⟩ => by
      obtain ⟨⟨hx1, -⟩, ex⟩ := State.mem_scResults.1 hx
      obtain ⟨⟨hy1, -⟩, ey⟩ := State.mem_scResults.1 hy
      refine ⟨?_, fun failed => ?_⟩
      · rw [t.get_res_scStore g (ex ▸ s.scResult_lt ..) hy1]
        split
        · next same => rw [ex, ey, same]
        · exact value
      · rw [t.bit_failmap_scStore g hx1 hy1, bit failed, Bool.or_true])
    (s.set (CP_SC_STAT_FAILMAP g) 0)
    ⟨.set s _ _, Frame.set s _ _ _ _ (Fld.inWord_of _ rfl) (.inl rfl), fun p _ h => by rw [cleared p] at h; exact nomatch h⟩
  refine ⟨rest, frame, fun p hp => ?_, fun p hp hm => ?_⟩
  · rw [Bool.eq_iff_iff]
    refine ⟨only p hp, fun h => ?_⟩
    obtain ⟨hm, failed⟩ := Bool.and_eq_true_iff.1 h
    exact (each (p, _) (State.mem_scResults.2 ⟨⟨hp, hm⟩, rfl⟩)).2 failed
  · exact (each (p, _) (State.mem_scResults.2 ⟨⟨hp, hm⟩, rfl⟩)).1

theorem State.scFails_any {s : State} {g : Nat} {r : ScRun} {res : List (List (Option (Bool × Bool)))} {p : Nat} (hp : p < 16)
    (h : s.scFails g r res p = true) : ((s.scResults g r res).any fun x => scFailed x.2) = true := by
  obtain ⟨hm, failed⟩ := Bool.and_eq_true_iff.1 h
  exact List.any_eq_true.2 ⟨(p, _), State.mem_scResults.2 ⟨⟨hp, hm⟩, rfl⟩, failed⟩

theorem State.scFlagged_sets (s u : State) (g : Nat) (r : ScRun) (res : List (List (Option (Bool × Bool)))) :
    SameRest u (s.scFlagged u g r res) ∧ Frame u (s.scFlagged u g r res) [.groups] (fun y => y = CP_FLAGS_SC_FAIL g ∨ y = CP_CNT0_SC_FAIL g) ∧
    (∀ p, p < 16 → s.scFails g r res p = true → (s.scFlagged u g r res).get (CP_FLAGS_SC_FAIL g) = 1 ∧
      (s.scFlagged u g r res).get (CP_CNT0_SC_FAIL g) = min (u.get (CP_CNT0_SC_FAIL g) + 1) 65535) := by
  have split : (CP_CNT0_SC_FAIL g).apart (CP_FLAGS_SC_FAIL g) :=
    .inl (by simp only [CP_FLAGS_SC_FAIL, CP_FLAGS, CP_CNT0_SC_FAIL, CP_CNT0]; omega)
  refine ⟨?_, ?_, fun p hp failed => ?_⟩
  · unfold State.scFlagged
    split
    · exact .of_groups (by rw [State.flag_groups])
    · exact .refl u
  · unfold State.scFlagged
    split
    · exact Frame.flag _ _ _ _ _ (Fld.inWord_of _ rfl) (Fld.inWord_of _ rfl) (.inl rfl) (.inr rfl)
    · exact Frame.refl ..
  · rw [State.scFlagged, if_pos (State.scFails_any hp failed),
      State.get_flag _ _ _ (Fld.inWord_of _ rfl) (Fld.inWord_of _ rfl) split rfl,
      State.get_flag_count _ _ _ (Fld.inWord_of _ rfl) (Fld.inWord_of _ rfl) (Fld.apart_symm split)]
    exact ⟨rfl, rfl⟩

theorem State.checkOff_sets (s : State) {g : Nat} (m : Nat) (hg : g < 32) : (SameRest s (s.checkOff g m) ∧
    Frame s (s.checkOff g m) [.groups, .sys] (checkField g)) ∧ ∀ p ∈ bitsOf m 16,
    ((s.checkOff g m).chan g p).cmp.selfCheck = false ∧ (s.checkOff g m).cmpValid g p = false :=
  foldl_establishes (fun s p => (State.setCmp s g p { (s.chan g p).cmp with selfCheck := false }).rearm g p)
    (fun t => SameRest s t ∧ Frame s t [.groups, .sys] (checkField g))
    (fun p t => (t.chan g p).cmp.selfCheck = false ∧ t.cmpValid g p = false) (bitsOf m 16)
    (fun t ht p hp => ⟨(ht.1.trans (.setChan t g p _)).trans (SameDacs.rearm _ g p).rest,
      (ht.2.trans (Frame.setCmp _ _ _ _ _ _ (by simp))).trans
        ((Frame.rearm _ g p (mem_bitsOf.1 hp).1).mono (fun _ => id) fun _ h => ⟨p, (mem_bitsOf.1 hp).1, h⟩)⟩)
    (fun t _ p hp => by
      have real := (mem_bitsOf.1 hp).1
      rw [SameCheck.rearm, t.cmp_setCmp _ hg real, State.cmpValid_rearm _ _ _ _ real real, if_pos ⟨rfl, rfl⟩]
      exact ⟨rfl, rfl⟩)
    (fun t _ p hp q hq ⟨off, valid⟩ => by
      have real := (mem_bitsOf.1 hp).1
      rw [SameCheck.rearm, State.cmpValid_rearm _ _ _ _ real (mem_bitsOf.1 hq).1]
      by_cases e : p = q
      · subst e
        rw [t.cmp_setCmp _ hg real, if_pos ⟨rfl, rfl⟩]
        exact ⟨rfl, rfl⟩
      · rw [t.chan_setCmp_ne _ fun x => e x.2, if_neg fun x => e x.2]
        exact ⟨off, (State.bit_of_get (State.get_setChan ..) q).trans valid⟩) s ⟨.refl s, Frame.refl ..⟩

theorem State.selfCheckEnd_runs {s : State} (g : GroupIx) {r : ScRun} (res : List (List (Option (Bool × Bool))))
    (run : (s.group g).sc = some r) (ended : r.ended) : RunsTo (exec (.selfCheckEnd g res) s) fun t =>
      t.get (CP_SC_STAT_STATE g) = 2 ∧ (t.group g).sc = none ∧
      (∀ p, p < 16 → r.mask.testBit p → (t.chan g p).cmp.selfCheck = false ∧ t.cmpValid g p = false ∧
        t.get (CP_SC_RES_RES g p) = s.scResult g p r.steps (res.getD p [])) ∧
      (∀ p, p < 16 → t.bit (CP_SC_STAT_FAILMAP g) p = (r.mask.testBit p && scFailed (s.scResult g p r.steps (res.getD p [])))) ∧
      (t.get (CP_SC_STAT_FAILMAP g) ≠ 0 → t.get (CP_FLAGS_SC_FAIL g) = 1 ∧
        t.get (CP_CNT0_SC_FAIL g) = min (s.get (CP_CNT0_SC_FAIL g) + 1) 65535) ∧
      Frame s t [.groups, .sys] (groupRegs 0x4000 0x7000) := by
  have acts : (match (s.group g).sc with
      | some r => r.ended
      | none => false) = true := by
    rw [run]
    exact ended
  obtain ⟨rest1, frame1, failmap, results⟩ := s.scStored_sets g r res
  obtain ⟨rest2, frame2, flagged⟩ := s.scFlagged_sets (s.scStored g r res) g r res
  obtain ⟨⟨rest3, frame3⟩, off⟩ := (s.scFlagged (s.scStored g r res) g r res).checkOff_sets r.mask g.isLt
  obtain ⟨u, hu, e⟩ := State.scEnd_eq res run
  have ran : exec (.selfCheckEnd g res) s = done s (s.scEnd g res) := doneIf_pos acts ..
  rw [ran, e]
  rw [← hu] at rest3 frame3 off
  generalize s.scStored g r res = a at rest1 frame1 failmap results rest2 frame2 flagged frame3
  generalize s.scFlagged a g r res = b at rest2 frame2 flagged frame3
  have stat (x : Fld) (h : x = CP_SC_STAT_FAILMAP g ∨ x.reg.addr ≠ (CP_SC_STAT g).addr) : (CP_SC_STAT_STATE g).apart x := by
    rcases h with e | h
    · subst e
      exact Fld.apart_of _ _ rfl rfl
    · exact .inl h.symm
  have last (x : Fld) (k : Nat) (hx : x.reg.addr = groupBase g + k) (in_ : 0x6018 ≤ k ∧ k < 0x6400 ∨ 0x6000 ≤ k ∧ k < 0x6008)
      (h : x = CP_SC_STAT_FAILMAP g ∨ x.reg.addr ≠ (CP_SC_STAT g).addr) :
      (settle s ((u.setGroup g { u.group g with sc := none }).set (CP_SC_STAT_STATE g) 2)).get x = b.get x := by
    have pba : x.reg.notPba := .inr (by rw [hx, groupBase]; omega)
    rw [get_settle _ _ _ pba, State.get_set_apart _ _ _ _ (Fld.inWord_of _ rfl) (stat x h), State.get_setGroup]
    exact frame3.reg x pba fun y hy => checkField_apart hy hx in_
  have unflagged (x : Fld) (k : Nat) (hx : x.reg.addr = groupBase g + k) (in_ : 0x6018 ≤ k ∧ k < 0x6400) : b.get x = a.get x := by
    refine frame2.reg x (.inr (by rw [hx, groupBase]; omega)) fun y hy => .inl ?_
    rw [hx]
    rcases hy with h | h <;> subst h
    · simp only [CP_FLAGS_SC_FAIL, CP_FLAGS]; omega
    · simp only [CP_CNT0_SC_FAIL, CP_CNT0]; omega
  have shown : (settle s ((u.setGroup g { u.group g with sc := none }).set (CP_SC_STAT_STATE g) 2)).get (CP_SC_STAT_FAILMAP g) =
      a.get (CP_SC_STAT_FAILMAP g) :=
    (last _ 0x6024 rfl (by decide) (.inl rfl)).trans (unflagged _ 0x6024 rfl (by decide))
  refine runsTo_done _ _ _ ⟨?_, ?_, fun p hp hm => ?_, fun p hp => ?_, fun nonzero => ?_, ?_⟩
  · rw [get_settle _ _ _ (.inr (by simp only [CP_SC_STAT_STATE, CP_SC_STAT, groupBase]; omega)),
      State.get_set _ _ _ (Fld.inWord_of _ rfl)]
    rfl
  · rw [group_settle]
    exact congrArg Group.sc (State.group_setGroup _ _ _ g.isLt)
  · obtain ⟨free, valid⟩ := off p (mem_bitsOf.2 ⟨hp, hm⟩)
    refine ⟨?_, ?_, ?_⟩
    · rw [chan_settle, State.chan_set, State.chan_eq, State.group_setGroup _ _ _ g.isLt]
      exact free
    · rw [cmpValid_settle, State.cmpValid]
      refine (State.bit_set_apart _ _ _ _ _ (Fld.inWord_of _ rfl) (.inl ?_)).trans
        ((State.bit_of_get (State.get_setGroup ..) p).trans valid)
      simp only [CP_SC_STAT_STATE, CP_SC_STAT, CP_STATUS_VALID, CP_STATUS]
      omega
    · rw [last (CP_SC_RES_RES g p) (0x6080 + 4 * p) (Nat.add_assoc ..) (.inl (by omega))
          (.inr (by simp only [CP_SC_RES_RES, CP_SC_RES, CP_SC_STAT]; omega)),
        unflagged (CP_SC_RES_RES g p) (0x6080 + 4 * p) (Nat.add_assoc ..) (by omega), results p hp hm]
  · exact (State.bit_of_get shown p).trans (failmap p hp)
  · rw [shown] at nonzero
    obtain ⟨p, hp⟩ := Nat.exists_testBit_of_ne_zero nonzero
    have small : p < 16 := by
      by_contra big
      rw [Nat.testBit_lt_two_pow ((a.get_lt _).trans_le (Nat.pow_le_pow_right (by decide) (Nat.le_of_not_lt big)))] at hp
      exact nomatch hp
    obtain ⟨flag, count⟩ := flagged p small ((failmap p small).symm.trans hp)
    rw [last _ 0x6000 rfl (by decide) (.inr (by simp only [CP_FLAGS_SC_FAIL, CP_FLAGS, CP_SC_STAT]; omega)),
      last _ 0x6004 rfl (by decide) (.inr (by simp only [CP_CNT0_SC_FAIL, CP_CNT0, CP_SC_STAT]; omega)), flag, count]
    refine ⟨rfl, ?_⟩
    rw [frame1.reg (CP_CNT0_SC_FAIL g) (.inr (by simp only [CP_CNT0_SC_FAIL, CP_CNT0, groupBase]; omega)) fun y hy => .inl ?_]
    rcases hy with h | ⟨q, hq, h⟩ <;> subst h
    · simp only [CP_SC_STAT_FAILMAP, CP_SC_STAT, CP_CNT0_SC_FAIL, CP_CNT0]; omega
    · simp only [CP_SC_RES_RES, CP_SC_RES, CP_CNT0_SC_FAIL, CP_CNT0]; omega
  · have stored {y : Fld} (h : resultField g y) : groupRegs 0x4000 0x7000 y := by
      rcases h with h | ⟨q, hq, h⟩ <;> subst h
      · exact ⟨g, by simp only [CP_SC_STAT_FAILMAP, CP_SC_STAT]; omega⟩
      · exact ⟨g, by simp only [CP_SC_RES_RES, CP_SC_RES]; omega⟩
    have flags {y : Fld} (h : y = CP_FLAGS_SC_FAIL g ∨ y = CP_CNT0_SC_FAIL g) : groupRegs 0x4000 0x7000 y := by
      rcases h with h | h <;> subst h
      · exact ⟨g, by simp only [CP_FLAGS_SC_FAIL, CP_FLAGS]; omega⟩
      · exact ⟨g, by simp only [CP_CNT0_SC_FAIL, CP_CNT0]; omega⟩
    exact ((((frame1.mono (by simp) fun _ => stored).trans (frame2.mono (by simp) fun _ => flags)).trans
      (frame3.mono (fun _ => id) fun _ => groupRegs_check)).trans (Frame.setGroup _ _ _ _ _ (by simp))).trans
      ((Frame.set _ _ _ _ _ (Fld.inWord_of _ rfl) ⟨g, by simp only [CP_SC_STAT_STATE, CP_SC_STAT]; omega⟩).trans (Frame.settle ..))

/-- Settles O15: a latch is recorded once, a re-arm clears it or is refused, and a self-check begins, repeats and ends
with the results and FAILMAP of its channels. -/
theorem tripAndSelfCheck : Obligations.TripAndSelfCheck := by
  unfold Obligations.TripAndSelfCheck
  exact ⟨fun _ k n _ => State.tripRecord_runs k n, fun _ k n => State.rearmTrip_runs k n, fun _ k n => State.rearmRefused_runs k n,
    fun _ g _ => State.selfCheckRun_runs g, fun _ g _ => State.selfCheckPeriodic_runs g,
    fun _ g _ res => State.selfCheckEnd_runs g res⟩

end Sys2Proof.Machine
end

section
/-! Deskew and TDR runs (R84 to R88). -/

namespace Sys2Proof.Machine

/-! ### Walks over the channels of a group -/

/-- A walk over channels: beside them the groups are the same, and of the registers only those of w may differ. -/
structure Walk (w : Fld → Prop) (s t : State) : Prop where
  rest : SameRest s t
  frame : Frame s t [.groups, .sys] w

theorem Walk.refl (w : Fld → Prop) (s : State) : Walk w s s := ⟨.refl s, Frame.refl ..⟩

theorem Walk.trans {w : Fld → Prop} {s t u : State} (h : Walk w s t) (k : Walk w t u) : Walk w s u :=
  ⟨h.rest.trans k.rest, h.frame.trans k.frame⟩

theorem Walk.mono {w v : Fld → Prop} {s t : State} (h : Walk w s t) (k : ∀ y, w y → v y) : Walk v s t :=
  ⟨h.rest, h.frame.mono (fun _ => id) k⟩

theorem Walk.forEach (w : Fld → Prop) (s : State) (n : Nat) (f : State → Nat → State) (h : ∀ t i, i < n → Walk w t (f t i)) :
    Walk w s (s.forEach (List.range n) f) :=
  (foldl_establishes f (Walk w s) (fun _ _ => True) (List.range n) (fun t k i hi => k.trans (h t i (List.mem_range.1 hi)))
    (fun _ _ _ _ => trivial) (fun _ _ _ _ _ _ _ => trivial) s (.refl w s)).1

/-- The outputs of a group and its violations. -/
def levelField (g : Nat) (y : Fld) : Prop := (∃ p < 16, ∃ d < 6, y = LS_OUT_CODE g p d) ∨ violField g y

theorem SameRest.follow (s : State) (g p d : Nat) : SameRest s (s.follow g p d) := by
  obtain ⟨x, -, -, e | e⟩ := s.follow_form g p d
  · rw [e]
    exact .setChan s g p _
  · rw [e]
    exact (SameRest.setChan s g p _).trans (SameDacs.setOut _ g p d _).rest

theorem Walk.retargetChan (s : State) (g : Nat) {p : Nat} (hp : p < 16) : Walk (levelField g) s (s.retargetChan g p) :=
  .forEach _ _ _ _ fun t d hd => by
    unfold State.retarget
    split
    · exact .refl ..
    · exact ⟨.follow t g p d, (Frame.followOut t g p d).mono (fun _ => id) fun _ h =>
        h.imp (fun e => ⟨p, hp, d, hd, e⟩) id⟩

theorem Walk.retargetGroup (s : State) (g : Nat) : Walk (levelField g) s (s.retargetGroup g) :=
  .forEach _ _ _ _ fun t _ hp => .retargetChan t g hp

theorem Walk.rearmGroup (s : State) (g : Nat) : Walk (checkField g) s (s.rearmGroup g) :=
  .forEach _ _ _ _ fun t p hp => ⟨(SameDacs.rearm t g p).rest, (Frame.rearm t g p hp).mono (fun _ => id) fun _ h => ⟨p, hp, h⟩⟩

theorem violField_parked (g : Nat) : violField g (LS_PARKSTAT_PARKED g) :=
  .inr (.inr ⟨g % 8, Nat.mod_lt _ (by decide), by rw [Nat.div_add_mod]⟩)

theorem Walk.parkGroup (s : State) (g : Nat) : Walk (violField g) s (s.parkGroup g) :=
  ⟨(SameDacs.parkGroup s g).rest, Frame.parkGroup s _ _ g (by simp) (violField_parked g)⟩

/-- The update of PARK at the end of a walk parks the channels for which a cause holds as long as the group's record does. -/
theorem State.parked_of_record {s : State} {g : Nat} (C : Nat → Prop)
    (cause : ∀ t, SameRest s t → ∀ p < 16, C p → t.parkCause g p) : ∀ p < 16, C p → (s.parkGroup g).parked g p := by
  intro p hp hc
  exact (foldl_establishes (fun t p => State.parkUpdate t g p) (SameRest s)
    (fun p t => C p → t.parked g p) (List.range 16) (fun t ht p _ => ht.trans (SameRest.parkUpdate t g p))
    (fun t ht p hp hc => State.parked_parkUpdate (List.mem_range.1 hp) (cause t ht p (List.mem_range.1 hp) hc))
    (fun t _ p _ q hq h hc => t.parked_parkUpdate_of g p (List.mem_range.1 hq) (h hc)) s (.refl s)).2 p
    (List.mem_range.2 hp) hc

/-- What the walks of deskew and TDR may change. -/
def deskewField (g : Nat) (y : Fld) : Prop := levelField g y ∨ checkField g y

theorem deskewField_viol {g : Nat} {y : Fld} (h : violField g y) : deskewField g y := .inl (.inr h)

theorem groupRegs_deskew {g : Nat} {y : Fld} (h : deskewField g y) : groupRegs 0x4000 0x7000 y := by
  rcases h with (⟨p, hp, d, hd, rfl⟩ | h) | h
  · exact groupRegs_output hp hd (.inl rfl)
  · exact groupRegs_viol h
  · exact groupRegs_check h

/-- The TG registers are none of those. -/
theorem deskewField_apart {g k a : Nat} {x y : Fld} (h : deskewField g y) (hx : x.reg.addr = groupBase k + a) (small : a < 0x4000) :
    y.apart x := by
  obtain ⟨j, lo, hi⟩ := groupRegs_deskew h
  refine .inl ?_
  rw [hx]
  unfold groupBase at *
  omega

theorem Walk.get {g k a : Nat} {s t : State} (h : Walk (deskewField g) s t) {x : Fld} (hx : x.reg.addr = groupBase k + a)
    (small : a < 0x4000) : t.get x = s.get x :=
  h.frame.reg x (.inr (by rw [hx, groupBase]; omega)) fun _ hy => deskewField_apart hy hx small

/-! ### Internal deskew begins -/

theorem State.parkCause_of_dsk {s : State} (g p : Nat) {d : DskRun} (h : (s.group g).dsk = some d) (off : d.driving = false) :
    s.parkCause g p := by
  simp [State.parkCause, h, off]

theorem State.parkCause_of_tdr {s : State} (g : Nat) {p : Nat} {r : TdrRun} (h : (s.group g).tdr = some r) (other : p ≠ r.ch) :
    s.parkCause g p := by
  simp [State.parkCause, h, other.symm]

/-- The fields of TG_DSK_CTL stored. -/
def State.dskStored (s : State) (g : Nat) (v : Word) : State :=
  (s.set (TG_DSK_CTL_LS g) (fieldOf v 4 2)).set (TG_DSK_CTL_MODE g) (fieldOf v 1 1)

theorem State.writeDsk_of_run {s : State} {g : Nat} {v : Word} (run : v.getLsbD 0) :
    s.writeDsk g v = if s.engineBusy g || (s.role == roleShadow && !(fieldOf v 1 1 == 1)) then s.set (TG_DSK_STAT_STATE g) dskRefused
      else if s.get (TG_DSK_STAT_STATE g) = dskRunning then s
      else (s.dskStored g v).dskStart g (fieldOf v 1 1 == 1) (fieldOf v 4 2) := by
  unfold State.writeDsk
  dsimp only
  rw [if_neg (by rw [fieldOf_of_bit run]; decide)]
  rfl

theorem fieldOf_bit_eq (v : Word) (i : Nat) : (fieldOf v i i == 1) = v.getLsbD i := by
  cases h : v.getLsbD i with
  | true => rw [fieldOf_of_bit h]; rfl
  | false => rw [fieldOf_of_not_bit h]; rfl

theorem dsk_accepted {s : State} {g : Nat} {v : Word} (idle : s.engineBusy g = false) (may : s.role ≠ roleShadow ∨ v.getLsbD 1) :
    (s.engineBusy g || (s.role == roleShadow && !(fieldOf v 1 1 == 1))) = false := by
  rw [idle, Bool.false_or, fieldOf_bit_eq]
  rcases may with h | h
  · rw [beq_eq_false_iff_ne.2 h, Bool.false_and]
  · rw [h, Bool.not_true, Bool.and_false]

theorem dsk_refused {s : State} {g : Nat} {v : Word} (no : s.engineBusy g ∨ s.role = roleShadow ∧ v.getLsbD 1 = false) :
    (s.engineBusy g || (s.role == roleShadow && !(fieldOf v 1 1 == 1))) = true := by
  rw [fieldOf_bit_eq]
  rcases no with h | ⟨h, m⟩
  · rw [h, Bool.true_or]
  · rw [h, m, Bool.not_false, Bool.and_true, beq_self_eq_true, Bool.or_true]

theorem hostDone_ready {s : State} (t : State) (ready : s.ready) : hostDone s t = done s t := doneIf_pos ready s t

theorem exec_dskRun {s : State} (g : GroupIx) (v : Word) (ready : s.ready) : exec (.dskRun g v) s = done s (s.writeDsk g v) :=
  hostDone_ready _ ready

theorem TG_DSK_notPba {g a : Nat} {r : Reg} (h : r.addr = groupBase g + a) : r.notPba := .inr (by rw [h, groupBase]; omega)

/-- What the start of a run writes to TG. -/
def dskField (g : Nat) (y : Fld) : Prop := y.reg = TG_DSK_CTL g ∨ y = TG_DSK_STAT_STATE g

/-- The run that a start begins. -/
def State.dskFirst (s : State) (comparePath : Bool) (ls : Nat) : DskRun :=
  { start := s.time, comparePath := comparePath, ls := ls
    driveAt := later s.time (s.within 1 (usTclk 11808)).2.toNat, driving := false }

/-- The state with the run begun, before its channels take part. -/
def State.dskBegun (s : State) (g : Nat) (d : DskRun) : State :=
  ((s.within 1 (usTclk 11808)).1.set (TG_DSK_STAT_STATE g) dskRunning).setGroup g
    { ((s.within 1 (usTclk 11808)).1.set (TG_DSK_STAT_STATE g) dskRunning).group g with dsk := some d }

theorem State.dskStart_eq (s : State) (g : Nat) (c : Bool) (ls : Nat) :
    s.dskStart g c ls = ((s.dskBegun g (s.dskFirst c ls)).rearmGroup g).parkGroup g := rfl

theorem State.dskStart_sets (s : State) {g : Nat} (c : Bool) (ls : Nat) (hg : g < 32) :
    (s.dskStart g c ls).get (TG_DSK_STAT_STATE g) = dskRunning ∧ ((s.dskStart g c ls).group g).dsk = some (s.dskFirst c ls) ∧
    (∀ p < 16, (s.dskStart g c ls).parked g p) ∧
    (s.dskStart g c ls).get (TG_DSK_CTL_MODE g) = s.get (TG_DSK_CTL_MODE g) ∧
    (s.dskStart g c ls).get (TG_DSK_CTL_LS g) = s.get (TG_DSK_CTL_LS g) ∧
    Frame s (s.dskStart g c ls) [.groups, .sys, .free] (fun y => y = TG_DSK_STAT_STATE g ∨ groupRegs 0x4000 0x7000 y) := by
  have begun : Frame s (s.dskBegun g (s.dskFirst c ls)) [.groups, .sys, .free] (· ∈ [TG_DSK_STAT_STATE g]) :=
    ((Frame.within s _ _ _ _ (by simp)).trans (Frame.set _ _ _ _ _ (Fld.inWord_of _ rfl) (by simp))).trans
      (Frame.setGroup _ _ _ _ _ (by simp))
  have state : (s.dskBegun g (s.dskFirst c ls)).get (TG_DSK_STAT_STATE g) = dskRunning := by
    rw [State.dskBegun, State.get_setGroup, State.get_set _ _ _ (Fld.inWord_of _ rfl)]
    rfl
  have record : ((s.dskBegun g (s.dskFirst c ls)).group g).dsk = some (s.dskFirst c ls) :=
    congrArg Group.dsk (State.group_setGroup _ _ _ hg)
  rw [State.dskStart_eq]
  generalize s.dskBegun g (s.dskFirst c ls) = u at begun state record
  have rearmed : Walk (deskewField g) u (u.rearmGroup g) := (Walk.rearmGroup u g).mono fun _ => .inr
  have walk := rearmed.trans ((Walk.parkGroup (u.rearmGroup g) g).mono fun _ => deskewField_viol)
  have ctl (x : Fld) (h : x.reg = TG_DSK_CTL g) : (((u.rearmGroup g).parkGroup g)).get x = s.get x := by
    rw [walk.get (k := g) (a := 0x20) (by rw [h]; rfl) (by decide)]
    refine begun.reg x (TG_DSK_notPba (a := 0x20) (by rw [h]; rfl)) fun y hy => .inl ?_
    rw [List.mem_singleton.1 hy, h]
    simp only [TG_DSK_STAT_STATE, TG_DSK_STAT, TG_DSK_CTL]
    omega
  refine ⟨?_, ?_, fun p hp => ?_, ctl _ rfl, ctl _ rfl, ?_⟩
  · rw [walk.get (k := g) (a := 0x24) rfl (by decide), state]
  · rw [walk.rest.field Group.dsk (fun _ _ => rfl) g, record]
  · refine State.parked_of_record (fun _ => True) (fun t ht q _ _ => State.parkCause_of_dsk g q (d := s.dskFirst c ls) ?_ rfl) p hp trivial
    rw [ht.field Group.dsk (fun _ _ => rfl) g, rearmed.rest.field Group.dsk (fun _ _ => rfl) g, record]
  · exact (begun.mono (fun _ => id) fun _ h => .inl (List.mem_singleton.1 h)).trans (walk.frame.mono (by simp) fun _ h => .inr (groupRegs_deskew h))

theorem State.dskRun_runs {s : State} (g : GroupIx) {v : Word} (ready : s.ready) (run : v.getLsbD 0) (idle : s.engineBusy g = false)
    (may : s.role ≠ roleShadow ∨ v.getLsbD 1) (stopped : s.get (TG_DSK_STAT_STATE g) ≠ dskRunning) :
    RunsTo (exec (.dskRun g v) s) fun t =>
      t.get (TG_DSK_STAT_STATE g) = dskRunning ∧
      (∃ d, (t.group g).dsk = some d ∧ d.start = s.time ∧ d.comparePath = v.getLsbD 1 ∧ d.ls = v.toNat / 4 % 8 ∧
        d.driving = false) ∧
      (∀ p, p < 16 → t.parked g p) ∧
      t.get (TG_DSK_CTL_MODE g) = v.toNat / 2 % 2 ∧ t.get (TG_DSK_CTL_LS g) = v.toNat / 4 % 8 ∧
      Frame s t [.groups, .sys, .free] (fun y => y.reg = TG_DSK_CTL g ∨ y = TG_DSK_STAT_STATE g ∨ groupRegs 0x4000 0x7000 y) := by
  have stored : Frame s (s.dskStored g v) [.groups, .sys, .free]
      (fun y => y.reg = TG_DSK_CTL g ∨ y = TG_DSK_STAT_STATE g ∨ groupRegs 0x4000 0x7000 y) :=
    (Frame.set s _ _ _ _ (Fld.inWord_of _ rfl) (.inl rfl)).trans (Frame.set _ _ _ _ _ (Fld.inWord_of _ rfl) (.inl rfl))
  have mode : (s.dskStored g v).get (TG_DSK_CTL_MODE g) = v.toNat / 2 % 2 := by
    rw [State.dskStored, State.get_set _ _ _ (Fld.inWord_of _ rfl)]
    exact Nat.mod_mod _ 2
  have ls : (s.dskStored g v).get (TG_DSK_CTL_LS g) = v.toNat / 4 % 8 := by
    rw [State.dskStored, State.get_set_apart _ _ (TG_DSK_CTL_LS g) _ (Fld.inWord_of _ rfl) (Fld.apart_of (TG_DSK_CTL_MODE g) _ rfl rfl),
      State.get_set _ _ _ (Fld.inWord_of _ rfl)]
    exact Nat.mod_mod _ 8
  have time : (s.dskStored g v).time = s.time := stored.part .time (by simp)
  have started := (s.dskStored g v).dskStart_sets (fieldOf v 1 1 == 1) (fieldOf v 4 2) g.isLt
  rw [exec_dskRun g v ready, State.writeDsk_of_run run, if_neg (by rw [dsk_accepted idle may]; decide), if_neg stopped]
  obtain ⟨state, record, parked, mode', ls', frame⟩ := started
  generalize (s.dskStored g v).dskStart g (fieldOf v 1 1 == 1) (fieldOf v 4 2) = u at *
  refine runsTo_done _ _ _ ⟨?_, ⟨(s.dskStored g v).dskFirst (fieldOf v 1 1 == 1) (fieldOf v 4 2), ?_, time,
    fieldOf_bit_eq v 1, rfl, rfl⟩, fun p hp => ?_, ?_, ?_, ?_⟩
  · rw [get_settle _ _ _ (TG_DSK_notPba (a := 0x24) rfl), state]
  · rw [group_settle, record]
  · rw [parked_settle]
    exact parked p hp
  · rw [get_settle _ _ _ (TG_DSK_notPba (a := 0x20) rfl), mode', mode]
  · rw [get_settle _ _ _ (TG_DSK_notPba (a := 0x20) rfl), ls', ls]
  · exact (stored.trans (frame.mono (fun _ => id) fun _ => .inr)).trans (Frame.settle ..)

theorem State.dskRefused_runs {s : State} (g : GroupIx) {v : Word} (ready : s.ready) (run : v.getLsbD 0)
    (no : s.engineBusy g ∨ s.role = roleShadow ∧ v.getLsbD 1 = false) :
    RunsTo (exec (.dskRun g v) s) fun t => t.get (TG_DSK_STAT_STATE g) = dskRefused ∧
      Frame s t [] (· ∈ [TG_DSK_STAT_STATE g]) := by
  rw [exec_dskRun g v ready, State.writeDsk_of_run run, if_pos (dsk_refused no)]
  refine runsTo_done _ _ _ ⟨?_, (Frame.set _ _ _ _ _ (Fld.inWord_of _ rfl) (by simp)).trans (Frame.settle ..)⟩
  rw [get_settle _ _ _ (TG_DSK_notPba (a := 0x24) rfl), State.get_set _ _ _ (Fld.inWord_of _ rfl)]
  rfl

theorem State.dskBusy_runs {s : State} (g : GroupIx) {v : Word} (ready : s.ready) (run : v.getLsbD 0) (idle : s.engineBusy g = false)
    (may : s.role ≠ roleShadow ∨ v.getLsbD 1) (going : s.get (TG_DSK_STAT_STATE g) = dskRunning) :
    RunsTo (exec (.dskRun g v) s) fun t => Frame s t [] (fun _ => False) := by
  rw [exec_dskRun g v ready, State.writeDsk_of_run run, if_neg (by rw [dsk_accepted idle may]; decide), if_pos going]
  exact runsTo_done _ _ _ (Frame.settle ..)

/-! ### Internal deskew ends -/

/-- The results of a channel stored, or its bit of FAILMAP set. -/
def State.dskStore (s : State) (g p : Nat) (r : Option (Nat × Nat)) : State :=
  match r with
  | some x => ((s.set (TG_DSKI_DC_INT g p) x.1).set (TG_DSKI_DD_INT g p) x.2).setBit (TG_DSK_STAT_FAILMAP g) p false
  | none => s.setBit (TG_DSK_STAT_FAILMAP g) p true

/-- What storing the results of the first channels changes. -/
def dskiField (g : Nat) (y : Fld) : Prop := (∃ p < 16, y = TG_DSKI_DC_INT g p ∨ y = TG_DSKI_DD_INT g p) ∨ y = TG_DSK_STAT_FAILMAP g

theorem Frame.dskStore (s : State) (g : Nat) {p : Nat} (hp : p < 16) (r : Option (Nat × Nat)) :
    Frame s (s.dskStore g p r) [] (dskiField g) := by
  cases r with
  | none => exact Frame.setBit _ _ _ _ _ _ (Fld.inWord_of _ rfl) (.inr rfl)
  | some x =>
    exact ((Frame.set _ _ _ _ _ (Fld.inWord_of _ rfl) (.inl ⟨p, hp, .inl rfl⟩)).trans
      (Frame.set _ _ _ _ _ (Fld.inWord_of _ rfl) (.inl ⟨p, hp, .inr rfl⟩))).trans
      (Frame.setBit _ _ _ _ _ _ (Fld.inWord_of _ rfl) (.inr rfl))

theorem failmap_apart_dski (g p : Nat) {x : Fld} (h : x.reg = TG_DSKI g p) : (TG_DSK_STAT_FAILMAP g).apart x :=
  .inl (by rw [h]; simp only [TG_DSK_STAT_FAILMAP, TG_DSK_STAT, TG_DSKI]; omega)

theorem dski_apart (g : Nat) {p q : Nat} (h : p ≠ q) {x y : Fld} (hx : x.reg = TG_DSKI g p) (hy : y.reg = TG_DSKI g q) : x.apart y :=
  .inl (by rw [hx, hy]; simp only [TG_DSKI]; omega)

theorem State.bit_failmap_dskStore (s : State) (g p : Nat) (r : Option (Nat × Nat)) {q : Nat} (hq : q < 16) :
    (s.dskStore g p r).bit (TG_DSK_STAT_FAILMAP g) q = if p = q then r.isNone else s.bit (TG_DSK_STAT_FAILMAP g) q := by
  cases r with
  | none =>
    rw [State.dskStore, State.bit_setBit _ _ _ _ _ (Fld.inWord_of _ rfl) hq]
    rfl
  | some x =>
    rw [State.dskStore, State.bit_setBit _ _ _ _ _ (Fld.inWord_of _ rfl) hq,
      State.bit_set_apart _ _ _ _ _ (Fld.inWord_of _ rfl) (Fld.apart_symm (failmap_apart_dski g p rfl)),
      State.bit_set_apart _ _ _ _ _ (Fld.inWord_of _ rfl) (Fld.apart_symm (failmap_apart_dski g p rfl))]
    rfl

theorem State.get_dski_dskStore_ne (s : State) (g : Nat) {p q : Nat} (h : p ≠ q) (r : Option (Nat × Nat)) (x : Fld)
    (hx : x.reg = TG_DSKI g q) : (s.dskStore g p r).get x = s.get x := by
  cases r with
  | none => exact State.get_set_apart _ _ _ _ (Fld.inWord_of _ rfl) (failmap_apart_dski g q hx)
  | some y =>
    rw [State.dskStore, State.setBit, State.get_set_apart _ _ _ _ (Fld.inWord_of _ rfl) (failmap_apart_dski g q hx),
      State.get_set_apart _ _ _ _ (Fld.inWord_of _ rfl) (dski_apart g h rfl hx),
      State.get_set_apart _ _ _ _ (Fld.inWord_of _ rfl) (dski_apart g h rfl hx)]

theorem State.get_dski_dskStore_some (s : State) (g p : Nat) {x : Nat × Nat} (h : x.1 < 65536 ∧ x.2 < 65536) :
    (s.dskStore g p (some x)).get (TG_DSKI_DC_INT g p) = x.1 ∧ (s.dskStore g p (some x)).get (TG_DSKI_DD_INT g p) = x.2 := by
  rw [State.dskStore, State.setBit, State.get_set_apart _ _ _ _ (Fld.inWord_of _ rfl) (failmap_apart_dski g p rfl),
    State.get_set_apart _ _ _ _ (Fld.inWord_of _ rfl) (failmap_apart_dski g p rfl),
    State.get_set_apart _ _ (TG_DSKI_DC_INT g p) _ (Fld.inWord_of _ rfl) (Fld.apart_of (TG_DSKI_DD_INT g p) _ rfl rfl),
    State.get_set _ _ _ (Fld.inWord_of _ rfl), State.get_set _ _ _ (Fld.inWord_of _ rfl)]
  exact ⟨Nat.mod_eq_of_lt h.1, Nat.mod_eq_of_lt h.2⟩

theorem State.get_dski_dskStore_none (s : State) (g p q : Nat) (x : Fld) (hx : x.reg = TG_DSKI g q) :
    (s.dskStore g p none).get x = s.get x := State.get_set_apart _ _ _ _ (Fld.inWord_of _ rfl) (failmap_apart_dski g q hx)

/-- A result reads nothing that the results of the other channels change. -/
theorem State.dskResult_congr {s t : State} {g p : Nat} (c : Bool) (m : DskMeas) (sys : t.sys = s.sys)
    (dd : t.get (TG_DSKI_DD_INT g p) = s.get (TG_DSKI_DD_INT g p)) (board : t.get (TG_DSKB_BOARD g p) = s.get (TG_DSKB_BOARD g p)) :
    t.dskResult g p c m = s.dskResult g p c m := by
  have delay : t.dskCompareDelay g p m = s.dskCompareDelay g p m := by
    simp only [State.dskCompareDelay, State.physChan, sys]
  have fits (a b : Int) : t.dskFits g p a b = s.dskFits g p a b := by
    rw [State.dskFits, State.dskFits, board]
  simp only [State.dskResult, delay, fits, dd]

theorem State.dskResult_small {s : State} {g p : Nat} {c : Bool} {m : DskMeas} {x : Nat × Nat} (h : s.dskResult g p c m = some x) :
    x.1 < 65536 ∧ x.2 < 65536 := by
  unfold State.dskResult at h
  extract_lets dc dd at h
  clear_value dc dd
  split at h
  · next ok =>
    rw [Bool.and_eq_true, State.dskFits] at ok
    have fits := of_decide_eq_true ok.2
    obtain rfl := Option.some.inj h
    dsimp only
    omega
  · exact nomatch h

/-- The result of a channel of a run. -/
def State.dskOf (s : State) (g : Nat) (d : DskRun) (res : List DskMeas) (p : Nat) : Option (Nat × Nat) :=
  (res[p]?).bind (s.dskResult g p d.comparePath)

theorem State.dskOf_small {s : State} {g p : Nat} {d : DskRun} {res : List DskMeas} {x : Nat × Nat} (h : s.dskOf g d res p = some x) :
    x.1 < 65536 ∧ x.2 < 65536 := by
  obtain ⟨m, -, hm⟩ := Option.bind_eq_some_iff.1 h
  exact State.dskResult_small hm

/-- The results of all channels stored. -/
def State.dskStoreAll (s : State) (g : Nat) (d : DskRun) (res : List DskMeas) : State :=
  s.forEach (List.range 16) fun s p => s.dskStore g p (s.dskOf g d res p)

/-- What the results are once those of the first n channels are stored. -/
structure DskStored (s t : State) (g : Nat) (d : DskRun) (res : List DskMeas) (n : Nat) : Prop where
  frame : Frame s t [] (dskiField g)
  fails : ∀ p < 16, p < n → t.bit (TG_DSK_STAT_FAILMAP g) p = (s.dskOf g d res p).isNone
  pass : ∀ p < n, ∀ x, s.dskOf g d res p = some x → t.get (TG_DSKI_DC_INT g p) = x.1 ∧ t.get (TG_DSKI_DD_INT g p) = x.2
  kept : ∀ p x, x.reg = TG_DSKI g p → n ≤ p ∨ s.dskOf g d res p = none → t.get x = s.get x

theorem DskStored.step {s t : State} {g n : Nat} {d : DskRun} {res : List DskMeas} (h : DskStored s t g d res n) (hn : n < 16) :
    DskStored s (t.dskStore g n (t.dskOf g d res n)) g d res (n + 1) := by
  have board : t.get (TG_DSKB_BOARD g n) = s.get (TG_DSKB_BOARD g n) := by
    refine h.frame.reg _ (TG_DSK_notPba (a := 0x240 + 4 * n) (Nat.add_assoc ..)) fun y hy => .inl ?_
    rcases hy with ⟨p, hp, e | e⟩ | e <;> subst e
    · simp only [TG_DSKI_DC_INT, TG_DSKI, TG_DSKB_BOARD, TG_DSKB]; omega
    · simp only [TG_DSKI_DD_INT, TG_DSKI, TG_DSKB_BOARD, TG_DSKB]; omega
    · simp only [TG_DSK_STAT_FAILMAP, TG_DSK_STAT, TG_DSKB_BOARD, TG_DSKB]; omega
  have same : t.dskOf g d res n = s.dskOf g d res n := by
    have each : t.dskResult g n d.comparePath = s.dskResult g n d.comparePath := funext fun m =>
      State.dskResult_congr _ m (h.frame.part .sys (by simp)) (h.kept n _ rfl (.inl (Nat.le_refl n))) board
    rw [State.dskOf, State.dskOf, each]
  rw [same]
  refine ⟨h.frame.trans (Frame.dskStore t g hn _), fun p hp lt => ?_, fun p lt x hx => ?_, fun p x hx free => ?_⟩
  · rw [t.bit_failmap_dskStore g n _ hp]
    split
    · next e => rw [e]
    · next e => exact h.fails p hp (by omega)
  · by_cases e : n = p
    · subst e
      rw [hx]
      exact t.get_dski_dskStore_some g n (State.dskOf_small hx)
    · rw [t.get_dski_dskStore_ne g e _ _ rfl, t.get_dski_dskStore_ne g e _ _ rfl]
      exact h.pass p (by omega) x hx
  · by_cases e : n = p
    · subst e
      have failed : s.dskOf g d res n = none := free.resolve_left (by omega)
      rw [failed, t.get_dski_dskStore_none g n n x hx]
      exact h.kept n x hx (.inr failed)
    · rw [t.get_dski_dskStore_ne g e _ _ hx]
      exact h.kept p x hx (free.imp_left (by omega))

theorem State.dskStoreAll_sets (s : State) (g : Nat) (d : DskRun) (res : List DskMeas) :
    DskStored s (s.dskStoreAll g d res) g d res 16 := by
  have upto : ∀ n ≤ 16, DskStored s (s.forEach (List.range n) fun s p => s.dskStore g p (s.dskOf g d res p)) g d res n := by
    intro n
    induction n with
    | zero =>
      exact fun _ => ⟨Frame.refl .., fun _ _ h => absurd h (Nat.not_lt_zero _), fun _ h => absurd h (Nat.not_lt_zero _),
        fun _ _ _ _ => rfl⟩
    | succ n ih =>
      intro le
      rw [List.range_succ, State.forEach, List.foldl_append]
      exact (ih (by omega)).step le
  exact upto 16 (Nat.le_refl _)

/-- The state of TG_DSK_STAT and its flag once the results are stored. -/
def State.dskJudged (s : State) (g : Nat) : State :=
  if s.get (TG_DSK_STAT_FAILMAP g) = 0 then s.set (TG_DSK_STAT_STATE g) dskDone
  else (s.set (TG_DSK_STAT_STATE g) dskError).flag (TG_FLAGS_DSK_ERR g) (TG_CNT1_DSK_ERR g)

/-- The walk that ends a run. -/
def State.dskLeave (s : State) (g : Nat) (d : DskRun) : State :=
  ((if d.comparePath then s.rearmGroup g else s).retargetGroup g).parkGroup g

theorem Walk.dskLeave (s : State) (g : Nat) (d : DskRun) : Walk (deskewField g) s (s.dskLeave g d) := by
  have rearmed : Walk (deskewField g) s (if d.comparePath then s.rearmGroup g else s) := by
    split
    · exact (Walk.rearmGroup s g).mono fun _ => .inr
    · exact .refl ..
  exact (rearmed.trans ((Walk.retargetGroup _ g).mono fun _ => .inl)).trans ((Walk.parkGroup _ g).mono fun _ => deskewField_viol)

/-- The end of a run once its results are stored. -/
def State.dskFinish (s : State) (g : Nat) (d : DskRun) (temp : Nat) : State :=
  (((s.set (TG_DSK_TEMP_TEMP g) temp).dskJudged g).setGroup g
    { ((s.set (TG_DSK_TEMP_TEMP g) temp).dskJudged g).group g with dsk := none }).dskLeave g d

theorem State.dskEnd_eq (s : State) (g : Nat) (d : DskRun) (res : List DskMeas) (temp : Nat) :
    s.dskEnd g d res temp = (s.dskStoreAll g d res).dskFinish g d temp := by
  refine congrArg (fun r => State.dskFinish r g d temp) (congrArg (s.forEach (List.range 16)) (funext fun t => funext fun p => ?_))
  rw [State.dskOf]
  cases (res[p]?).bind (t.dskResult g p d.comparePath) with
  | none => rfl
  | some x => rfl

/-- A field that is not 0 has a bit. -/
theorem State.exists_bit {s : State} {x : Fld} (h : s.get x ≠ 0) : ∃ p < x.hi + 1 - x.lo, s.bit x p = true := by
  obtain ⟨p, hp⟩ := Nat.exists_testBit_of_ne_zero h
  refine ⟨p, ?_, hp⟩
  by_contra big
  rw [Nat.testBit_lt_two_pow ((s.get_lt _).trans_le (Nat.pow_le_pow_right (by decide) (Nat.le_of_not_lt big)))] at hp
  exact nomatch hp

theorem Walk.dskFinish (s : State) (g : Nat) (d : DskRun) (temp : Nat) :
    Frame ((s.set (TG_DSK_TEMP_TEMP g) temp).dskJudged g) (s.dskFinish g d temp) [.groups, .sys] (groupRegs 0x4000 0x7000) ∧
    (∀ x a, x.reg.addr = groupBase g + a → a < 0x4000 →
      (s.dskFinish g d temp).get x = ((s.set (TG_DSK_TEMP_TEMP g) temp).dskJudged g).get x) ∧
    (g < 32 → ((s.dskFinish g d temp).group g).dsk = none) := by
  have walk := Walk.dskLeave (((s.set (TG_DSK_TEMP_TEMP g) temp).dskJudged g).setGroup g
    { ((s.set (TG_DSK_TEMP_TEMP g) temp).dskJudged g).group g with dsk := none }) g d
  refine ⟨(Frame.setGroup _ _ _ _ _ (by simp)).trans (walk.frame.mono (fun _ => id) fun _ => groupRegs_deskew),
    fun x a hx small => ?_, fun hg => ?_⟩
  · exact (walk.get hx small).trans (State.get_setGroup ..)
  · exact (walk.rest.field Group.dsk (fun _ _ => rfl) g).trans (congrArg Group.dsk (State.group_setGroup _ _ _ hg))

theorem exec_dskComplete {s : State} (g : GroupIx) {d : DskRun} (res : List DskMeas) (temp : BitVec 16) (run : (s.group g).dsk = some d)
    (over_ : s.dskOver d) : exec (.dskComplete g res temp) s = done s ((s.dskStoreAll g d res).dskFinish g d temp.toNat) := by
  rw [← State.dskEnd_eq]
  change execDskComplete g res temp s = _
  unfold execDskComplete
  rw [run]
  exact congrArg (done s) (if_pos over_)

theorem TG_DSK_STAT_apart (g : Nat) : (TG_DSK_STAT_STATE g).apart (TG_DSK_STAT_FAILMAP g) := Fld.apart_of _ _ rfl rfl

theorem TG_DSK_TEMP_apart {g a : Nat} {x : Fld} (hx : x.reg.addr = groupBase g + a) (h : a ≠ 0x28) : (TG_DSK_TEMP_TEMP g).apart x :=
  .inl (by rw [hx]; simp only [TG_DSK_TEMP_TEMP, TG_DSK_TEMP]; omega)

theorem State.dskPassed_runs {s : State} (g : GroupIx) {d : DskRun} {res : List DskMeas} {dc dd : Nat → Nat} (temp : BitVec 16)
    (run : (s.group g).dsk = some d) (over_ : s.dskOver d)
    (pass : ∀ p, p < 16 → (res[p]?).bind (s.dskResult g p d.comparePath) = some (dc p, dd p)) :
    RunsTo (exec (.dskComplete g res temp) s) fun t =>
      (∀ p, p < 16 → t.get (TG_DSKI_DC_INT g p) = dc p ∧ t.get (TG_DSKI_DD_INT g p) = dd p) ∧
      t.get (TG_DSK_STAT_FAILMAP g) = 0 ∧ t.get (TG_DSK_STAT_STATE g) = dskDone ∧
      t.get (TG_DSK_TEMP_TEMP g) = temp.toNat ∧ (t.group g).dsk = none ∧
      Frame s t [.groups, .sys] (fun y => (∃ p, y = TG_DSKI_DC_INT g p ∨ y = TG_DSKI_DD_INT g p) ∨ y.reg = TG_DSK_STAT g ∨
        y = TG_DSK_TEMP_TEMP g ∨ groupRegs 0x4000 0x7000 y) := by
  obtain ⟨frame, fails, results, -⟩ := s.dskStoreAll_sets g d res
  obtain ⟨left_, gets, record⟩ := Walk.dskFinish (s.dskStoreAll g d res) g d temp.toNat
  rw [exec_dskComplete g res temp run over_]
  generalize s.dskStoreAll g d res = u at *
  have tempSet : (u.set (TG_DSK_TEMP_TEMP g) temp.toNat).get (TG_DSK_STAT_FAILMAP g) = u.get (TG_DSK_STAT_FAILMAP g) :=
    State.get_set_apart _ _ _ _ (Fld.inWord_of _ rfl) (TG_DSK_TEMP_apart (a := 0x24) rfl (by decide))
  have none_ : u.get (TG_DSK_STAT_FAILMAP g) = 0 := by
    by_contra h
    obtain ⟨p, hp, set⟩ := State.exists_bit h
    rw [fails p hp hp, State.dskOf, pass p hp] at set
    exact nomatch set
  have judged : (u.set (TG_DSK_TEMP_TEMP g) temp.toNat).dskJudged g =
      (u.set (TG_DSK_TEMP_TEMP g) temp.toNat).set (TG_DSK_STAT_STATE g) dskDone := if_pos (tempSet.trans none_)
  rw [judged] at left_ gets
  have stat {x : Fld} {a : Nat} (hx : x.reg.addr = groupBase g + a) (h : a ≠ 0x24) : (TG_DSK_STAT_STATE g).apart x :=
    .inl (by rw [hx]; simp only [TG_DSK_STAT_STATE, TG_DSK_STAT]; omega)
  have dski (p : Nat) (hp : p < 16) (x : Fld) (h : x.reg = TG_DSKI g p) : (u.dskFinish g d temp.toNat).get x = u.get x := by
    have addr : x.reg.addr = groupBase g + (0x200 + 4 * p) := by rw [h]; exact Nat.add_assoc ..
    rw [gets x _ addr (by omega), State.get_set_apart _ _ _ _ (Fld.inWord_of _ rfl) (stat addr (by omega)),
      State.get_set_apart _ _ _ _ (Fld.inWord_of _ rfl) (TG_DSK_TEMP_apart addr (by omega))]
  have notPba (p : Nat) (x : Fld) (h : x.reg = TG_DSKI g p) : x.reg.notPba :=
    TG_DSK_notPba (a := 0x200 + 4 * p) (by rw [h]; exact Nat.add_assoc ..)
  refine runsTo_done _ _ _ ⟨fun p hp => ?_, ?_, ?_, ?_, ?_, ?_⟩
  · rw [get_settle _ _ _ (notPba p _ rfl), get_settle _ _ _ (notPba p _ rfl), dski p hp _ rfl, dski p hp _ rfl]
    exact results p hp _ (pass p hp)
  · rw [get_settle _ _ _ (TG_DSK_notPba (a := 0x24) rfl), gets _ 0x24 rfl (by decide),
      State.get_set_apart _ _ _ _ (Fld.inWord_of _ rfl) (TG_DSK_STAT_apart g), tempSet, none_]
  · rw [get_settle _ _ _ (TG_DSK_notPba (a := 0x24) rfl), gets _ 0x24 rfl (by decide), State.get_set _ _ _ (Fld.inWord_of _ rfl)]
    rfl
  · rw [get_settle _ _ _ (TG_DSK_notPba (a := 0x28) rfl), gets _ 0x28 rfl (by decide),
      State.get_set_apart _ _ _ _ (Fld.inWord_of _ rfl) (stat (a := 0x28) rfl (by decide)), State.get_set _ _ _ (Fld.inWord_of _ rfl)]
    exact Nat.mod_eq_of_lt temp.isLt
  · rw [group_settle, record g.isLt]
  · refine (((frame.mono (by simp) fun y hy => ?_).trans (Frame.set _ _ _ _ _ (Fld.inWord_of _ rfl) (.inr (.inr (.inl rfl))))).trans
      (Frame.set _ _ _ _ _ (Fld.inWord_of _ rfl) (.inr (.inl rfl)))).trans
      ((left_.mono (fun _ => id) fun _ h => .inr (.inr (.inr h))).trans (Frame.settle ..))
    rcases hy with ⟨p, -, h⟩ | h
    · exact .inl ⟨p, h⟩
    · exact .inr (.inl (by rw [h]; rfl))

theorem State.dskFailed_runs {s : State} (g : GroupIx) {d : DskRun} {res : List DskMeas} (temp : BitVec 16) {p : Nat}
    (run : (s.group g).dsk = some d) (over_ : s.dskOver d) (hp : p < 16)
    (fail : (res[p]?).bind (s.dskResult g p d.comparePath) = none) :
    RunsTo (exec (.dskComplete g res temp) s) fun t =>
      t.bit (TG_DSK_STAT_FAILMAP g) p ∧ t.get (TG_DSK_STAT_STATE g) = dskError ∧
      t.get (TG_DSKI_DC_INT g p) = s.get (TG_DSKI_DC_INT g p) ∧ t.get (TG_DSKI_DD_INT g p) = s.get (TG_DSKI_DD_INT g p) ∧
      t.get (TG_FLAGS_DSK_ERR g) = 1 ∧
      t.get (TG_CNT1_DSK_ERR g) = min (s.get (TG_CNT1_DSK_ERR g) + 1) 65535 ∧ (t.group g).dsk = none := by
  obtain ⟨frame, fails, -, kept⟩ := s.dskStoreAll_sets g d res
  obtain ⟨-, gets, record⟩ := Walk.dskFinish (s.dskStoreAll g d res) g d temp.toNat
  rw [exec_dskComplete g res temp run over_]
  generalize s.dskStoreAll g d res = u at *
  have tempSet {x : Fld} {a : Nat} (hx : x.reg.addr = groupBase g + a) (h : a ≠ 0x28) :
      (u.set (TG_DSK_TEMP_TEMP g) temp.toNat).get x = u.get x :=
    State.get_set_apart _ _ _ _ (Fld.inWord_of _ rfl) (TG_DSK_TEMP_apart hx h)
  have bit : u.bit (TG_DSK_STAT_FAILMAP g) p = true := by
    rw [fails p hp hp, State.dskOf, fail]
    rfl
  have some_ : u.get (TG_DSK_STAT_FAILMAP g) ≠ 0 := fun h => by
    rw [State.bit, h, Nat.zero_testBit] at bit
    exact nomatch bit
  have judged : (u.set (TG_DSK_TEMP_TEMP g) temp.toNat).dskJudged g = ((u.set (TG_DSK_TEMP_TEMP g) temp.toNat).set (TG_DSK_STAT_STATE g)
      dskError).flag (TG_FLAGS_DSK_ERR g) (TG_CNT1_DSK_ERR g) :=
    if_neg (by rw [tempSet (a := 0x24) rfl (by decide)]; exact some_)
  rw [judged] at gets
  have flagApart {x : Fld} {a : Nat} (hx : x.reg.addr = groupBase g + a) (h : a ≠ 8 ∧ a ≠ 0x10) :
      (TG_FLAGS_DSK_ERR g).apart x ∧ (TG_CNT1_DSK_ERR g).apart x :=
    ⟨.inl (by rw [hx]; simp only [TG_FLAGS_DSK_ERR, TG_FLAGS]; omega), .inl (by rw [hx]; simp only [TG_CNT1_DSK_ERR, TG_CNT1]; omega)⟩
  have stat {x : Fld} {a : Nat} (hx : x.reg.addr = groupBase g + a) (h : a ≠ 0x24) : (TG_DSK_STAT_STATE g).apart x :=
    .inl (by rw [hx]; simp only [TG_DSK_STAT_STATE, TG_DSK_STAT]; omega)
  have split : (TG_CNT1_DSK_ERR g).apart (TG_FLAGS_DSK_ERR g) :=
    .inl (by simp only [TG_FLAGS_DSK_ERR, TG_FLAGS, TG_CNT1_DSK_ERR, TG_CNT1]; omega)
  have dski (x : Fld) (h : x.reg = TG_DSKI g p) : (u.dskFinish g d temp.toNat).get x = s.get x := by
    have addr : x.reg.addr = groupBase g + (0x200 + 4 * p) := by rw [h]; exact Nat.add_assoc ..
    obtain ⟨a, b⟩ := flagApart addr (by omega)
    rw [gets x _ addr (by omega), State.get_flag_apart _ _ _ _ (Fld.inWord_of _ rfl) (Fld.inWord_of _ rfl) a b,
      State.get_set_apart _ _ _ _ (Fld.inWord_of _ rfl) (stat addr (by omega)), tempSet addr (by omega), kept p x h (.inr fail)]
  have notPba (x : Fld) (h : x.reg = TG_DSKI g p) : x.reg.notPba :=
    TG_DSK_notPba (a := 0x200 + 4 * p) (by rw [h]; exact Nat.add_assoc ..)
  obtain ⟨away, away'⟩ := flagApart (x := TG_DSK_STAT_FAILMAP g) (a := 0x24) rfl (by decide)
  obtain ⟨off, off'⟩ := flagApart (x := TG_DSK_STAT_STATE g) (a := 0x24) rfl (by decide)
  refine runsTo_done _ _ _ ⟨?_, ?_, ?_, ?_, ?_, ?_, ?_⟩
  · rw [State.bit, get_settle _ _ _ (TG_DSK_notPba (a := 0x24) rfl), gets _ 0x24 rfl (by decide),
      State.get_flag_apart _ _ _ _ (Fld.inWord_of _ rfl) (Fld.inWord_of _ rfl) away away',
      State.get_set_apart _ _ _ _ (Fld.inWord_of _ rfl) (TG_DSK_STAT_apart g), tempSet (a := 0x24) rfl (by decide)]
    exact bit
  · rw [get_settle _ _ _ (TG_DSK_notPba (a := 0x24) rfl), gets _ 0x24 rfl (by decide),
      State.get_flag_apart _ _ _ _ (Fld.inWord_of _ rfl) (Fld.inWord_of _ rfl) off off', State.get_set _ _ _ (Fld.inWord_of _ rfl)]
    rfl
  · rw [get_settle _ _ _ (notPba _ rfl), dski _ rfl]
  · rw [get_settle _ _ _ (notPba _ rfl), dski _ rfl]
  · rw [get_settle _ _ _ (TG_DSK_notPba (a := 8) rfl), gets _ 8 rfl (by decide),
      State.get_flag _ _ _ (Fld.inWord_of _ rfl) (Fld.inWord_of _ rfl) split rfl]
  · rw [get_settle _ _ _ (TG_DSK_notPba (a := 0x10) rfl), gets _ 0x10 rfl (by decide),
      State.get_flag_count _ _ _ (Fld.inWord_of _ rfl) (Fld.inWord_of _ rfl) (Fld.apart_symm split),
      State.get_set_apart _ _ _ _ (Fld.inWord_of _ rfl) (stat (a := 0x10) rfl (by decide)), tempSet (a := 0x10) rfl (by decide),
      frame.reg (TG_CNT1_DSK_ERR g) (TG_DSK_notPba (a := 0x10) rfl) fun y hy => .inl ?_]
    · rfl
    · rcases hy with ⟨q, hq, e | e⟩ | e <;> subst e
      · simp only [TG_DSKI_DC_INT, TG_DSKI, TG_CNT1_DSK_ERR, TG_CNT1]; omega
      · simp only [TG_DSKI_DD_INT, TG_DSKI, TG_CNT1_DSK_ERR, TG_CNT1]; omega
      · simp only [TG_DSK_STAT_FAILMAP, TG_DSK_STAT, TG_CNT1_DSK_ERR, TG_CNT1]; omega
  · rw [group_settle, record g.isLt]

/-! ### TDR begins -/

/-- The fields of TG_TDR_CTL stored. -/
def State.tdrStored (s : State) (g : Nat) (v : Word) : State :=
  (((s.set (TG_TDR_CTL_POL g) (fieldOf v 11 11)).set (TG_TDR_CTL_LS g) (fieldOf v 10 8)).setClamped
    (TG_TDR_CTL_REPS g) (fieldOf v 7 4) 0 12).set (TG_TDR_CTL_CH g) (fieldOf v 3 0)

/-- The state with a run begun, before its channel and the others take part. -/
def State.tdrBegun (s : State) (g : Nat) (r : TdrRun) : State :=
  (s.set (TG_TDR_STAT_STATE g) dskRunning).setGroup g { (s.set (TG_TDR_STAT_STATE g) dskRunning).group g with tdr := some r }

/-- The run that a write begins. -/
def State.tdrFirst (s : State) (g : Nat) (v : Word) : TdrRun :=
  { start := s.time, ch := fieldOf v 3 0, ls := fieldOf v 10 8, pol := fieldOf v 11 11 == 1, reps := s.get (TG_TDR_CTL_REPS g) }

theorem State.writeTdr_of_run {s : State} {g : Nat} {v : Word} (run : v.getLsbD 31) :
    s.writeTdr g v = if s.engineBusy g || s.role == roleShadow then s.set (TG_TDR_STAT_STATE g) dskRefused
      else if s.get (TG_TDR_STAT_STATE g) = dskRunning then s
      else (((s.tdrStored g v).tdrBegun g (((s.tdrStored g v).set (TG_TDR_STAT_STATE g) dskRunning).tdrFirst g v)).retargetChan g
        (fieldOf v 3 0)).parkGroup g := by
  unfold State.writeTdr
  dsimp only
  rw [if_neg (by rw [fieldOf_of_bit run]; decide)]
  rfl

theorem exec_tdrRun {s : State} (g : GroupIx) (v : Word) (ready : s.ready) : exec (.tdrRun g v) s = done s (s.writeTdr g v) :=
  hostDone_ready _ ready

/-- The walk over the channel of a run, whatever its number. -/
theorem Walk.tdr (s : State) (g p : Nat) : Walk (outField g) s ((s.retargetChan g p).parkGroup g) := by
  refine (Walk.forEach _ _ _ _ fun t d _ => ?_).trans ((Walk.parkGroup _ g).mono fun _ => .inr)
  unfold State.retarget
  split
  · exact .refl ..
  · exact ⟨.follow t g p d, (Frame.followOut t g p d).mono (fun _ => id) fun _ h => h.imp (fun e => ⟨p, d, e⟩) id⟩

/-- It leaves the TG registers of its group. -/
theorem Walk.tdr_get {g : Nat} {s t : State} (h : Walk (outField g) s t) {x : Fld} {a : Nat} (hx : x.reg.addr = groupBase g + a)
    (small : a < 0x4000) : t.get x = s.get x := by
  refine h.frame.reg x (TG_DSK_notPba hx) fun y hy => ?_
  rcases hy with ⟨p, d, rfl⟩ | hy
  · exact .inl (by rw [hx]; simp only [LS_OUT_CODE, LS_OUT]; omega)
  · exact deskewField_apart (deskewField_viol hy) hx small

/-- What the start of TDR writes. -/
def tdrField (g : Nat) (y : Fld) : Prop :=
  y.reg = TG_TDR_CTL g ∨ y = TG_TDR_STAT_STATE g ∨ outField g y ∨ y.reg = GL_CLAMP_COUNT ∨ y.reg = GL_CLAMP_LAST

theorem State.tdrStored_sets (s : State) (g : Nat) (v : Word) : (s.tdrStored g v).get (TG_TDR_CTL_REPS g) = min 12 (v.toNat / 16 % 16) ∧
    (s.tdrStored g v).time = s.time ∧ Frame s (s.tdrStored g v) [.groups, .sys] (tdrField g) := by
  have frame : Frame s (s.tdrStored g v) [.groups, .sys] (tdrField g) :=
    (((Frame.set s _ _ _ _ (Fld.inWord_of _ rfl) (.inl rfl)).trans (Frame.set _ _ _ _ _ (Fld.inWord_of _ rfl) (.inl rfl))).trans
      (Frame.setClamped _ _ _ _ _ _ _ (Fld.inWord_of _ rfl) (.inl rfl) (.inr (.inr (.inr (.inl rfl))))
        (.inr (.inr (.inr (.inr rfl)))))).trans (Frame.set _ _ _ _ _ (Fld.inWord_of _ rfl) (.inl rfl))
  refine ⟨?_, frame.part .time (by simp), frame⟩
  have clamp {x : Fld} (h : x.reg.addr < 0x100000) : x.apart (TG_TDR_CTL_REPS g) :=
    .inl (by simp only [TG_TDR_CTL_REPS, TG_TDR_CTL, groupBase]; omega)
  rw [State.tdrStored, State.get_set_apart _ _ (TG_TDR_CTL_REPS g) _ (Fld.inWord_of _ rfl) (Fld.apart_of (TG_TDR_CTL_CH g) _ rfl rfl),
    State.get_setClamped _ _ _ _ _ (Fld.inWord_of _ rfl) (clamp (by decide)) (clamp (by decide)), Nat.zero_max]
  exact Nat.mod_eq_of_lt (Nat.lt_of_le_of_lt (Nat.min_le_left _ _) (by decide : 12 < 2 ^ 4))

theorem State.tdrRun_runs {s : State} (g : GroupIx) {v : Word} (ready : s.ready) (run : v.getLsbD 31) (idle : s.engineBusy g = false)
    (may : s.role ≠ roleShadow) (stopped : s.get (TG_TDR_STAT_STATE g) ≠ dskRunning) :
    RunsTo (exec (.tdrRun g v) s) fun t =>
        t.get (TG_TDR_STAT_STATE g) = dskRunning ∧
        (∃ r, (t.group g).tdr = some r ∧ r.start = s.time ∧ r.ch = v.toNat % 16 ∧ r.ls = v.toNat / 256 % 8 ∧
          r.pol = v.getLsbD 11 ∧ r.reps = min 12 (v.toNat / 16 % 16)) ∧
        t.get (TG_TDR_CTL_REPS g) = min 12 (v.toNat / 16 % 16) ∧ (∀ p, p < 16 → p ≠ v.toNat % 16 → t.parked g p) ∧
        Frame s t [.groups, .sys] (fun y => y.reg = TG_TDR_CTL g ∨ y = TG_TDR_STAT_STATE g ∨ outField g y
          ∨ y.reg = GL_CLAMP_COUNT ∨ y.reg = GL_CLAMP_LAST) := by
  obtain ⟨reps, time, stored⟩ := s.tdrStored_sets g v
  have ch : fieldOf v 3 0 = v.toNat % 16 := by
    rw [fieldOf, Nat.pow_zero, Nat.div_one]
    rfl
  have channel : fieldOf v 3 0 < 16 := fieldOf_lt v 3 0
  have no : (s.engineBusy g || s.role == roleShadow) = false := by
    rw [idle, beq_eq_false_iff_ne.2 may]
    rfl
  rw [exec_tdrRun g v ready, State.writeTdr_of_run run, if_neg (by rw [no]; decide), if_neg stopped]
  generalize s.tdrStored g v = u at *
  have kept : (u.set (TG_TDR_STAT_STATE g) dskRunning).get (TG_TDR_CTL_REPS g) = u.get (TG_TDR_CTL_REPS g) :=
    State.get_set_apart _ _ _ _ (Fld.inWord_of _ rfl) (.inl (by simp only [TG_TDR_STAT_STATE, TG_TDR_STAT, TG_TDR_CTL_REPS, TG_TDR_CTL]; omega))
  have first : ((u.set (TG_TDR_STAT_STATE g) dskRunning).tdrFirst g v).reps = min 12 (v.toNat / 16 % 16) := kept.trans reps
  have start : ((u.set (TG_TDR_STAT_STATE g) dskRunning).tdrFirst g v).start = s.time := time
  have whose : ((u.set (TG_TDR_STAT_STATE g) dskRunning).tdrFirst g v).ch = fieldOf v 3 0 := rfl
  have level : ((u.set (TG_TDR_STAT_STATE g) dskRunning).tdrFirst g v).ls = v.toNat / 256 % 8 := rfl
  have polarity : ((u.set (TG_TDR_STAT_STATE g) dskRunning).tdrFirst g v).pol = v.getLsbD 11 := fieldOf_bit_eq v 11
  generalize (u.set (TG_TDR_STAT_STATE g) dskRunning).tdrFirst g v = r at *
  have begun : Frame u (u.tdrBegun g r) [.groups, .sys] (tdrField g) :=
    (Frame.set u _ _ _ _ (Fld.inWord_of _ rfl) (.inr (.inl rfl))).trans (Frame.setGroup _ _ _ _ _ (by simp))
  have state : (u.tdrBegun g r).get (TG_TDR_STAT_STATE g) = dskRunning := by
    rw [State.tdrBegun, State.get_setGroup, State.get_set _ _ _ (Fld.inWord_of _ rfl)]
    rfl
  have held : (u.tdrBegun g r).get (TG_TDR_CTL_REPS g) = min 12 (v.toNat / 16 % 16) := by
    rw [State.tdrBegun, State.get_setGroup, kept, reps]
  have record : ((u.tdrBegun g r).group g).tdr = some r := congrArg Group.tdr (State.group_setGroup _ _ _ g.isLt)
  generalize u.tdrBegun g r = w at begun state held record
  have walk := Walk.tdr w g (fieldOf v 3 0)
  have gets (x : Fld) (a : Nat) (hx : x.reg.addr = groupBase g + a) (small : a < 0x4000) :
      ((w.retargetChan g (fieldOf v 3 0)).parkGroup g).get x = w.get x :=
    walk.tdr_get hx small
  refine runsTo_done _ _ _ ⟨?_, ⟨r, ?_, start, whose.trans ch, level, polarity, first⟩, ?_, fun p hp other => ?_, ?_⟩
  · rw [get_settle _ _ _ (TG_DSK_notPba (a := 0x34) rfl), gets _ 0x34 rfl (by decide), state]
  · rw [group_settle, walk.rest.field Group.tdr (fun _ _ => rfl) g, record]
  · rw [get_settle _ _ _ (TG_DSK_notPba (a := 0x30) rfl), gets _ 0x30 rfl (by decide), held]
  · rw [parked_settle]
    refine State.parked_of_record (fun q => q ≠ r.ch) (fun t ht q _ hq => State.parkCause_of_tdr g ?_ hq) p hp (by rwa [whose, ch])
    rw [ht.field Group.tdr (fun _ _ => rfl) g, (Walk.retargetChan w g channel).rest.field Group.tdr (fun _ _ => rfl) g, record]
  · exact ((stored.trans begun).trans (walk.frame.mono (fun _ => id) fun _ h => .inr (.inr (.inl h)))).trans
      (Frame.settle ..)

theorem State.tdrRefused_runs {s : State} (g : GroupIx) {v : Word} (ready : s.ready) (run : v.getLsbD 31)
    (no : s.engineBusy g ∨ s.role = roleShadow) : RunsTo (exec (.tdrRun g v) s) fun t =>
        t.get (TG_TDR_STAT_STATE g) = dskRefused ∧ Frame s t [] (· ∈ [TG_TDR_STAT_STATE g]) := by
  have refused : (s.engineBusy g || s.role == roleShadow) = true := by
    rw [Bool.or_eq_true, beq_iff_eq]
    exact no
  rw [exec_tdrRun g v ready, State.writeTdr_of_run run, if_pos refused]
  refine runsTo_done _ _ _ ⟨?_, (Frame.set _ _ _ _ _ (Fld.inWord_of _ rfl) (by simp)).trans (Frame.settle ..)⟩
  rw [get_settle _ _ _ (TG_DSK_notPba (a := 0x34) rfl), State.get_set _ _ _ (Fld.inWord_of _ rfl)]
  rfl

/-! ### TDR ends -/

theorem tdrReps_eq (reps : List (List (BitVec 66) × List (BitVec 66))) :
    tdrReps reps.length (reps.map (·.1)) (reps.map (·.2)) = reps := by
  refine List.ext_getElem ?_ fun i h _ => ?_
  · rw [tdrReps, List.length_map, List.length_range]
  · simp [tdrReps, List.getD_eq_getElem?_getD, List.getElem?_map, List.getElem?_eq_getElem (show i < reps.length by simpa [tdrReps] using h)]

theorem tdrTrip_le {r : List (BitVec 66) × List (BitVec 66)} {x : Nat} (h : tdrTrip r = some x) : x ≤ 65535 := by
  unfold tdrTrip at h
  split at h
  · split at h
    · next le => exact Option.some.inj h ▸ le
    · exact nomatch h
  · exact nomatch h

theorem foldl_add_eq_sum (l : List Nat) : l.foldl (· + ·) 0 = l.sum := List.sum_eq_foldl.symm

/-- The mean of round trips that fit is a value of TG_TDR_RES. -/
theorem State.tdrMean_near (s : State) {l : List Nat} (some_ : l ≠ []) (small : ∀ x ∈ l, x ≤ 65535) :
    (((s.tdrMean l).2 * l.length : Int) - 16 * (l.foldl (· + ·) 0 : Nat)).natAbs < l.length ∧ (s.tdrMean l).2 < 2 ^ 28 := by
  have pos : 0 < l.length := List.length_pos_of_ne_nil some_
  have near := s.quotient_near (16 * (l.foldl (· + ·) 0 : Nat)) pos
  have total : l.foldl (· + ·) 0 ≤ l.length * 65535 := by
    rw [foldl_add_eq_sum]
    exact List.sum_le_card_nsmul l 65535 small
  unfold State.tdrMean
  dsimp only
  generalize (s.quotient (16 * (l.foldl (· + ·) 0 : Nat)) l.length).2 = q at near
  generalize l.foldl (· + ·) 0 = sum at near total ⊢
  have nonneg : 0 ≤ q := by
    by_contra neg
    have low : q * (l.length : Int) ≤ -1 * (l.length : Int) :=
      Int.mul_le_mul_of_nonneg_right (by omega) (by omega)
    omega
  obtain ⟨m, rfl⟩ := Int.eq_ofNat_of_zero_le nonneg
  refine ⟨near, ?_⟩
  by_contra big
  have high : 2 ^ 28 * l.length ≤ m * l.length := Nat.mul_le_mul_right _ (Nat.le_of_not_lt big)
  have cast : ((m : Int) * (l.length : Int)) = ((m * l.length : Nat) : Int) := (Int.natCast_mul m l.length).symm
  rw [cast] at near
  omega

/-- A mean that is near 16 × a whole round trip is that. -/
theorem mean_unique {m n sum x : Nat} (h : ((m * n : Int) - 16 * (sum : Nat)).natAbs < n) (e : sum = n * x) : m = 16 * x := by
  subst e
  have factor : ((m : Int) * (n : Int) - 16 * ((n * x : Nat) : Int)) = (m - 16 * x : Int) * n := by
    push_cast
    ring
  rw [factor, Int.natAbs_mul, Int.natAbs_natCast] at h
  have none_ : ((m : Int) - 16 * x).natAbs = 0 := by
    by_contra nonzero
    have : 1 * n ≤ ((m : Int) - 16 * x).natAbs * n := Nat.mul_le_mul_right n (Nat.one_le_iff_ne_zero.2 nonzero)
    omega
  omega

theorem foldl_add_replicate (n x : Nat) : (List.replicate n x).foldl (· + ·) 0 = n * x := by
  rw [foldl_add_eq_sum, List.sum_replicate, smul_eq_mul]

theorem isqrt_zero : isqrt 0 = 0 := by
  refine List.foldl_fixed' (fun i => if_neg (Nat.not_le.2 ?_)) (List.range 32)
  rw [Nat.zero_add]
  exact Nat.mul_pos (Nat.two_pow_pos _) (Nat.two_pow_pos _)

/-- Equal round trips have no spread. -/
theorem State.tdrSpread_replicate (s : State) (n x : Nat) : s.tdrSpread (List.replicate n x) = (s, 0) := by
  have none_ : n * (n * (x * x)) - n * x * (n * x) = 0 := by
    rw [show n * (n * (x * x)) = n * x * (n * x) by ring, Nat.sub_self]
  unfold State.tdrSpread
  extract_lets m sum v q
  have zero : v = 0 := by
    rw [show v = 256 * (m * ((List.replicate n x).map fun x => x * x).foldl (· + ·) 0 - sum * sum) from rfl,
      show m = n from List.length_replicate, show sum = n * x from foldl_add_replicate n x, List.map_replicate, foldl_add_replicate,
      none_]
  have root : q = 0 := by
    rw [show q = isqrt (v / (m * m)) from rfl, zero, Nat.zero_div, isqrt_zero]
  clear_value v q
  subst zero root
  rw [if_pos (by rw [Nat.zero_mul]), Nat.zero_min]

theorem State.tdrSpread_state (s : State) (l : List Nat) : (s.tdrSpread l).1 = s ∨ (s.tdrSpread l).1 = s.burn := by
  unfold State.tdrSpread
  extract_lets n sum v q
  clear_value v q
  split
  · exact .inl rfl
  · exact .inr rfl

theorem State.tdrSpread_le (s : State) (l : List Nat) : (s.tdrSpread l).2 ≤ 65535 := by
  unfold State.tdrSpread
  extract_lets n sum v q
  clear_value v q
  split
  · exact Nat.min_le_right _ _
  · exact Nat.min_le_right _ _

theorem Frame.tdrSpread (s : State) (l : List Nat) (ps : List Part) (w : Fld → Prop) (h : Part.free ∈ ps) :
    Frame s (s.tdrSpread l).1 ps w := by
  rcases s.tdrSpread_state l with e | e
  · rw [e]
    exact Frame.refl ..
  · rw [e]
    exact Frame.burn _ _ _ h

/-- The results of a run with valid repetitions stored. -/
def State.tdrValid (s : State) (g : Nat) (l : List Nat) : State :=
  (((((s.set (TG_TDR_STAT_VALID g) l.length).tdrMean l).1.tdrSpread l).1.set (TG_TDR_STAT_STATE g) dskDone).set (TG_TDR_RES_RT g)
    ((s.set (TG_TDR_STAT_VALID g) l.length).tdrMean l).2).set (TG_TDR_SPREAD_SPREAD g)
    (((s.set (TG_TDR_STAT_VALID g) l.length).tdrMean l).1.tdrSpread l).2

/-- The results of a run without one. -/
def State.tdrNone (s : State) (g : Nat) : State :=
  (((s.set (TG_TDR_STAT_VALID g) 0).set (TG_TDR_STAT_STATE g) dskError).set (TG_TDR_RES_RT g) 0).flag (TG_FLAGS_NO_REFL g)
    (TG_CNT2_NO_REFL g)

/-- The run is over and the channels return. -/
def State.tdrFinish (s : State) (g ch : Nat) : State :=
  ((s.setGroup g { s.group g with tdr := none }).retargetChan g ch).parkGroup g

theorem State.tdrEnd_eq (s : State) (g : Nat) (r : TdrRun) (reps : List (List (BitVec 66) × List (BitVec 66))) :
    s.tdrEnd g r reps = (if reps.filterMap tdrTrip = [] then s.tdrNone g else s.tdrValid g (reps.filterMap tdrTrip)).tdrFinish g r.ch := by
  refine congrArg (fun u => State.tdrFinish u g r.ch) ?_
  cases reps.filterMap tdrTrip with
  | nil =>
    rw [List.isEmpty_nil, if_pos rfl, if_pos rfl, State.tdrNone]
    rfl
  | cons x l =>
    rw [List.isEmpty_cons, if_neg (by decide), if_neg (List.cons_ne_nil x l), State.tdrValid]

theorem exec_tdrComplete {s : State} (g : GroupIx) {r : TdrRun} {reps : List (List (BitVec 66) × List (BitVec 66))}
    (run : (s.group g).tdr = some r) (count : reps.length = 2 ^ r.reps) (due : usTclk (2 ^ r.reps) ≤ s.since r.start) :
    exec (.tdrComplete g reps.length (reps.map (·.1)) (reps.map (·.2))) s = done s (s.tdrEnd g r reps) := by
  change execTdrComplete g _ _ _ s = _
  unfold execTdrComplete
  rw [run, tdrReps_eq]
  exact congrArg (done s) (if_pos ⟨count, due⟩)

theorem State.tdrFinish_sets (s : State) {g : Nat} (ch : Nat) (hg : g < 32) :
    Frame s (s.tdrFinish g ch) [.groups, .sys] (outField g) ∧
    (∀ x a, x.reg.addr = groupBase g + a → a < 0x4000 → (s.tdrFinish g ch).get x = s.get x) ∧
    ((s.tdrFinish g ch).group g).tdr = none := by
  have walk := Walk.tdr (s.setGroup g { s.group g with tdr := none }) g ch
  refine ⟨(Frame.setGroup _ _ _ _ _ (by simp)).trans walk.frame, fun x a hx small => ?_, ?_⟩
  · exact (walk.tdr_get hx small).trans (State.get_setGroup ..)
  · exact (walk.rest.field Group.tdr (fun _ _ => rfl) g).trans (congrArg Group.tdr (State.group_setGroup _ _ _ hg))

/-- What a run that ends with results writes. -/
def tdrEndField (g : Nat) (y : Fld) : Prop :=
  y.reg = TG_TDR_STAT g ∨ y = TG_TDR_RES_RT g ∨ y = TG_TDR_SPREAD_SPREAD g ∨ outField g y

theorem State.tdrValid_sets (s : State) (g : Nat) {l : List Nat} (some_ : l ≠ []) (small : ∀ x ∈ l, x ≤ 65535) (count : l.length ≤ 4096) :
    (s.tdrValid g l).get (TG_TDR_STAT_STATE g) = dskDone ∧ (s.tdrValid g l).get (TG_TDR_STAT_VALID g) = l.length ∧
    (((s.tdrValid g l).get (TG_TDR_RES_RT g) * l.length : Int) - 16 * (l.foldl (· + ·) 0 : Nat)).natAbs < l.length ∧
    (∀ x, (∀ y ∈ l, y = x) → (s.tdrValid g l).get (TG_TDR_RES_RT g) = 16 * x ∧ (s.tdrValid g l).get (TG_TDR_SPREAD_SPREAD g) = 0) ∧
    Frame s (s.tdrValid g l) [.groups, .sys, .free] (tdrEndField g) := by
  have resStat {x : Fld} (h : x.reg = TG_TDR_STAT g) : (TG_TDR_RES_RT g).apart x ∧ (TG_TDR_SPREAD_SPREAD g).apart x :=
    ⟨.inl (by rw [h]; simp only [TG_TDR_STAT, TG_TDR_RES_RT, TG_TDR_RES]; omega),
      .inl (by rw [h]; simp only [TG_TDR_STAT, TG_TDR_SPREAD_SPREAD, TG_TDR_SPREAD]; omega)⟩
  have spreadRes : (TG_TDR_SPREAD_SPREAD g).apart (TG_TDR_RES_RT g) :=
    .inl (by simp only [TG_TDR_RES_RT, TG_TDR_RES, TG_TDR_SPREAD_SPREAD, TG_TDR_SPREAD]; omega)
  have first : Frame s (s.set (TG_TDR_STAT_VALID g) l.length) [.groups, .sys, .free] (tdrEndField g) :=
    Frame.set _ _ _ _ _ (Fld.inWord_of _ rfl) (.inl rfl)
  have valid : (s.set (TG_TDR_STAT_VALID g) l.length).get (TG_TDR_STAT_VALID g) = l.length := by
    rw [State.get_set _ _ _ (Fld.inWord_of _ rfl)]
    exact Nat.mod_eq_of_lt (by simp only [TG_TDR_STAT_VALID]; omega)
  unfold State.tdrValid
  generalize s.set (TG_TDR_STAT_VALID g) l.length = u at first valid
  obtain ⟨near, fits⟩ := u.tdrMean_near some_ small
  have equal (x : Nat) (same : ∀ y ∈ l, y = x) : (u.tdrMean l).2 = 16 * x ∧ ((u.tdrMean l).1.tdrSpread l).2 = 0 := by
    have e : l = List.replicate l.length x := List.eq_replicate_of_mem same
    refine ⟨mean_unique near ?_, ?_⟩
    · conv_lhs => rw [e]
      exact foldl_add_replicate ..
    · rw [e, State.tdrSpread_replicate]
  have mean : Frame u (u.tdrMean l).1 [.groups, .sys, .free] (tdrEndField g) := Frame.quotient u _ _ _ _ (by simp)
  have spread := Frame.tdrSpread (u.tdrMean l).1 l [.groups, .sys, .free] (tdrEndField g) (by simp)
  have taken := (Frame.quotient u [.free] (fun _ => False) _ _ (by simp)).trans
    (Frame.tdrSpread (u.tdrMean l).1 l [.free] (fun _ => False) (by simp))
  have bound := (u.tdrMean l).1.tdrSpread_le l
  generalize (u.tdrMean l).2 = m at *
  generalize (u.tdrMean l).1.tdrSpread l = d at *
  have res : (((d.1.set (TG_TDR_STAT_STATE g) dskDone).set (TG_TDR_RES_RT g) m).set (TG_TDR_SPREAD_SPREAD g) d.2).get (TG_TDR_RES_RT g) = m := by
    rw [State.get_set_apart _ _ _ _ (Fld.inWord_of _ rfl) spreadRes, State.get_set _ _ _ (Fld.inWord_of _ rfl)]
    exact Nat.mod_eq_of_lt fits
  refine ⟨?_, ?_, ?_, fun x same => ⟨?_, ?_⟩, ?_⟩
  · rw [State.get_set_apart _ _ _ _ (Fld.inWord_of _ rfl) (resStat rfl).2, State.get_set_apart _ _ _ _ (Fld.inWord_of _ rfl) (resStat rfl).1,
      State.get_set _ _ _ (Fld.inWord_of _ rfl)]
    rfl
  · rw [State.get_set_apart _ _ _ _ (Fld.inWord_of _ rfl) (resStat rfl).2, State.get_set_apart _ _ _ _ (Fld.inWord_of _ rfl) (resStat rfl).1,
      State.get_set_apart _ _ (TG_TDR_STAT_VALID g) _ (Fld.inWord_of _ rfl) (Fld.apart_of (TG_TDR_STAT_STATE g) _ rfl rfl),
      taken.reg _ (TG_DSK_notPba (a := 0x34) rfl) (fun _ => False.elim), valid]
  · rw [res]
    exact near
  · rw [res]
    exact (equal x same).1
  · rw [State.get_set _ _ _ (Fld.inWord_of _ rfl), (equal x same).2, Nat.zero_mod]
  · exact (((first.trans mean).trans spread).trans ((Frame.set _ _ _ _ _ (Fld.inWord_of _ rfl) (.inl rfl)).trans
      (Frame.set _ _ _ _ _ (Fld.inWord_of _ rfl) (.inr (.inl rfl))))).trans
      (Frame.set _ _ _ _ _ (Fld.inWord_of _ rfl) (.inr (.inr (.inl rfl))))

theorem State.tdrNone_sets (s : State) (g : Nat) :
    (s.tdrNone g).get (TG_TDR_STAT_STATE g) = dskError ∧ (s.tdrNone g).get (TG_TDR_STAT_VALID g) = 0 ∧
    (s.tdrNone g).get (TG_TDR_RES_RT g) = 0 ∧ (s.tdrNone g).get (TG_FLAGS_NO_REFL g) = 1 ∧
    (s.tdrNone g).get (TG_CNT2_NO_REFL g) = min (s.get (TG_CNT2_NO_REFL g) + 1) 65535 := by
  have flags {x : Fld} {a : Nat} (hx : x.reg.addr = groupBase g + a) (h : a ≠ 8 ∧ a ≠ 0x14) :
      (TG_FLAGS_NO_REFL g).apart x ∧ (TG_CNT2_NO_REFL g).apart x :=
    ⟨.inl (by rw [hx]; simp only [TG_FLAGS_NO_REFL, TG_FLAGS]; omega), .inl (by rw [hx]; simp only [TG_CNT2_NO_REFL, TG_CNT2]; omega)⟩
  have res {x : Fld} {a : Nat} (hx : x.reg.addr = groupBase g + a) (h : a ≠ 0x38) : (TG_TDR_RES_RT g).apart x :=
    .inl (by rw [hx]; simp only [TG_TDR_RES_RT, TG_TDR_RES]; omega)
  have stat {x y : Fld} {a : Nat} (hy : y.reg = TG_TDR_STAT g) (hx : x.reg.addr = groupBase g + a) (h : a ≠ 0x34) : y.apart x :=
    .inl (by rw [hx, hy]; simp only [TG_TDR_STAT]; omega)
  have split : (TG_CNT2_NO_REFL g).apart (TG_FLAGS_NO_REFL g) :=
    .inl (by simp only [TG_FLAGS_NO_REFL, TG_FLAGS, TG_CNT2_NO_REFL, TG_CNT2]; omega)
  have kept (x : Fld) {a : Nat} (hx : x.reg.addr = groupBase g + a) (h : a ≠ 8 ∧ a ≠ 0x14) :
      (s.tdrNone g).get x = (((s.set (TG_TDR_STAT_VALID g) 0).set (TG_TDR_STAT_STATE g) dskError).set (TG_TDR_RES_RT g) 0).get x := by
    obtain ⟨a, b⟩ := flags hx h
    rw [State.tdrNone, State.get_flag_apart _ _ _ _ (Fld.inWord_of _ rfl) (Fld.inWord_of _ rfl) a b]
  refine ⟨?_, ?_, ?_, ?_, ?_⟩
  · rw [kept _ (a := 0x34) rfl (by decide), State.get_set_apart _ _ _ _ (Fld.inWord_of _ rfl) (res (a := 0x34) rfl (by decide)),
      State.get_set _ _ _ (Fld.inWord_of _ rfl)]
    rfl
  · rw [kept _ (a := 0x34) rfl (by decide), State.get_set_apart _ _ _ _ (Fld.inWord_of _ rfl) (res (a := 0x34) rfl (by decide)),
      State.get_set_apart _ _ (TG_TDR_STAT_VALID g) _ (Fld.inWord_of _ rfl) (Fld.apart_of (TG_TDR_STAT_STATE g) _ rfl rfl),
      State.get_set _ _ _ (Fld.inWord_of _ rfl), Nat.zero_mod]
  · rw [kept _ (a := 0x38) rfl (by decide), State.get_set _ _ _ (Fld.inWord_of _ rfl), Nat.zero_mod]
  · rw [State.tdrNone, State.get_flag _ _ _ (Fld.inWord_of _ rfl) (Fld.inWord_of _ rfl) split rfl]
  · rw [State.tdrNone, State.get_flag_count _ _ _ (Fld.inWord_of _ rfl) (Fld.inWord_of _ rfl) (Fld.apart_symm split),
      State.get_set_apart _ _ _ _ (Fld.inWord_of _ rfl) (res (a := 0x14) rfl (by decide)),
      State.get_set_apart _ _ _ _ (Fld.inWord_of _ rfl) (stat rfl (a := 0x14) rfl (by decide)),
      State.get_set_apart _ _ _ _ (Fld.inWord_of _ rfl) (stat rfl (a := 0x14) rfl (by decide))]
    rfl

theorem State.tdrValid_runs {s : State} (g : GroupIx) {r : TdrRun} {reps : List (List (BitVec 66) × List (BitVec 66))}
    (run : (s.group g).tdr = some r) (few : r.reps ≤ 12) (count : reps.length = 2 ^ r.reps)
    (due : usTclk (2 ^ r.reps) ≤ s.since r.start) {l : List Nat} (whole : reps.filterMap tdrTrip = l) (some_ : l ≠ []) :
    RunsTo (exec (.tdrComplete g reps.length (reps.map (·.1)) (reps.map (·.2))) s) fun t =>
        t.get (TG_TDR_STAT_STATE g) = dskDone ∧ t.get (TG_TDR_STAT_VALID g) = l.length ∧
        ((t.get (TG_TDR_RES_RT g) * l.length : Int) - 16 * (l.foldl (· + ·) 0 : Nat)).natAbs < l.length ∧
        (∀ x, (∀ y ∈ l, y = x) → t.get (TG_TDR_RES_RT g) = 16 * x ∧ t.get (TG_TDR_SPREAD_SPREAD g) = 0) ∧
        (t.group g).tdr = none ∧
        Frame s t [.groups, .sys, .free] (fun y => y.reg = TG_TDR_STAT g ∨ y = TG_TDR_RES_RT g ∨
          y = TG_TDR_SPREAD_SPREAD g ∨ outField g y) := by
  have small : ∀ x ∈ l, x ≤ 65535 := by
    intro x hx
    rw [← whole] at hx
    obtain ⟨m, -, hm⟩ := List.mem_filterMap.1 hx
    exact tdrTrip_le hm
  have length : l.length ≤ 4096 := by
    rw [← whole]
    exact ((List.length_filterMap_le _ _).trans_eq count).trans (Nat.pow_le_pow_right (by decide) few)
  obtain ⟨state, valid, near, equal, frame⟩ := s.tdrValid_sets g some_ small length
  rw [exec_tdrComplete g run count due, State.tdrEnd_eq, whole, if_neg some_]
  generalize s.tdrValid g l = u at *
  obtain ⟨left_, gets, record⟩ := u.tdrFinish_sets r.ch g.isLt
  generalize u.tdrFinish g r.ch = w at *
  have shown (x : Fld) (a : Nat) (hx : x.reg.addr = groupBase g + a) (low : a < 0x4000) : (settle s w).get x = u.get x := by
    rw [get_settle _ _ _ (TG_DSK_notPba hx), gets x a hx low]
  refine runsTo_done _ _ _ ⟨?_, ?_, ?_, ?_, ?_, ?_⟩
  · rw [shown _ 0x34 rfl (by decide), state]
  · rw [shown _ 0x34 rfl (by decide), valid]
  · rw [shown _ 0x38 rfl (by decide)]
    exact near
  · rw [shown _ 0x38 rfl (by decide), shown _ 0x3C rfl (by decide)]
    exact equal
  · rw [group_settle, record]
  · exact (frame.trans (left_.mono (by simp) fun _ h => .inr (.inr (.inr h)))).trans (Frame.settle ..)

theorem State.tdrNone_runs {s : State} (g : GroupIx) {r : TdrRun} {reps : List (List (BitVec 66) × List (BitVec 66))}
    (run : (s.group g).tdr = some r) (count : reps.length = 2 ^ r.reps) (due : usTclk (2 ^ r.reps) ≤ s.since r.start)
    (empty : reps.filterMap tdrTrip = []) :
    RunsTo (exec (.tdrComplete g reps.length (reps.map (·.1)) (reps.map (·.2))) s) fun t =>
        t.get (TG_TDR_STAT_STATE g) = dskError ∧ t.get (TG_TDR_STAT_VALID g) = 0 ∧ t.get (TG_TDR_RES_RT g) = 0 ∧
        t.get (TG_FLAGS_NO_REFL g) = 1 ∧ t.get (TG_CNT2_NO_REFL g) = min (s.get (TG_CNT2_NO_REFL g) + 1) 65535 ∧
        (t.group g).tdr = none := by
  obtain ⟨state, valid, res, flag, count_⟩ := s.tdrNone_sets g
  rw [exec_tdrComplete g run count due, State.tdrEnd_eq, if_pos empty]
  generalize s.tdrNone g = u at *
  obtain ⟨-, gets, record⟩ := u.tdrFinish_sets r.ch g.isLt
  generalize u.tdrFinish g r.ch = w at *
  have shown (x : Fld) (a : Nat) (hx : x.reg.addr = groupBase g + a) (low : a < 0x4000) : (settle s w).get x = u.get x := by
    rw [get_settle _ _ _ (TG_DSK_notPba hx), gets x a hx low]
  refine runsTo_done _ _ _ ⟨?_, ?_, ?_, ?_, ?_, ?_⟩
  · rw [shown _ 0x34 rfl (by decide), state]
  · rw [shown _ 0x34 rfl (by decide), valid]
  · rw [shown _ 0x38 rfl (by decide), res]
  · rw [shown _ 8 rfl (by decide), flag]
  · rw [shown _ 0x14 rfl (by decide), count_]
  · rw [group_settle, record]

/-- Settles O7: a run begins, is refused or goes on, and ends with the results of its channels (`DskStored`), or with the
mean of the round trips (`State.tdrMean_near`). -/
theorem deskewRuns : Obligations.DeskewRuns := by
  unfold Obligations.DeskewRuns
  exact ⟨fun _ g _ => State.dskRun_runs g, fun _ g _ => State.dskRefused_runs g, fun _ g _ => State.dskBusy_runs g,
    fun _ g _ _ _ _ temp => State.dskPassed_runs g temp, fun _ g _ _ temp _ => State.dskFailed_runs g temp,
    fun _ g _ ready run => ⟨State.tdrRun_runs g ready run, State.tdrRefused_runs g ready run⟩,
    fun _ g _ _ run few count due => ⟨fun _ => State.tdrValid_runs g run few count due, State.tdrNone_runs g run count due⟩⟩

end Sys2Proof.Machine
end

section
/-! Stops of the TDC become stamps or are lost (R148 to R151, R172). -/

namespace Sys2Proof.Machine

/-! ### The windows and the TDC of a channel -/

theorem dueWin_nil (t : Time) : dueWin [] t = none := rfl

theorem dueWin_cons {w : Win} {l : List Win} {t : Time} (opened : w.opened) (rest : dueWin l t = none) : dueWin (w :: l) t = none := by
  unfold dueWin at *
  rw [List.findIdx?_cons, opened, rest]
  rfl

/-- Where no window is due nothing opens. -/
theorem State.openDue_of_none {s : State} {g p : Nat} {t : Time} (h : dueWin (s.chan g p).wins t = none) : s.openDue g p t = s := by
  unfold State.openDue
  generalize hn : (s.chan g p).wins.length = n
  cases n with
  | zero => rfl
  | succ n => rw [State.openWins, h]

theorem State.tdc_setTdc (s : State) {g p : Nat} (x : Tdc) (hg : g < 32) (hp : p < 16) : (s.setTdc g p x).tdc g p = x := by
  rw [State.tdc, State.setTdc, State.chan_setChan s _ hg hp]

theorem State.wins_setTdc (s : State) {g p : Nat} (x : Tdc) (hg : g < 32) (hp : p < 16) :
    ((s.setTdc g p x).chan g p).wins = (s.chan g p).wins := by
  rw [State.setTdc, State.chan_setChan s _ hg hp]

theorem State.wins_putWin (s : State) {g p : Nat} (i : Nat) (w : Win) (hg : g < 32) (hp : p < 16) :
    ((s.putWin g p i w).chan g p).wins = (s.chan g p).wins.set i w := by
  rw [State.putWin, State.chan_setChan s _ hg hp]

theorem State.tdc_putWin (s : State) {g p : Nat} (i : Nat) (w : Win) (hg : g < 32) (hp : p < 16) :
    (s.putWin g p i w).tdc g p = s.tdc g p := by
  rw [State.tdc, State.putWin, State.chan_setChan s _ hg hp]
  rfl

theorem Frame.setTdc (s : State) (w : Fld → Prop) (g p : Nat) (x : Tdc) : Frame s (s.setTdc g p x) [.groups] w :=
  Frame.setChan s _ _ _ _ _ (by simp)

theorem Frame.putWin (s : State) (w : Fld → Prop) (g p i : Nat) (x : Win) : Frame s (s.putWin g p i x) [.groups] w :=
  Frame.setChan s _ _ _ _ _ (by simp)

theorem tdc_settle (s t : State) (g p : Nat) : (settle s t).tdc g p = t.tdc g p := by rw [State.tdc, State.tdc, chan_settle]

/-! ### What the TDC has seen -/

/-- What noting a transition leaves. -/
structure SeenOnly (s t : State) (g p i : Nat) : Prop where
  wins : (t.chan g p).wins = (s.chan g p).wins
  tdc : t.tdc g p = s.tdc g p
  log : (t.chan g p).cmp.log = (s.chan g p).cmp.log.modify i fun e => { e with edge := false }
  gates : (t.group g).gates = (s.group g).gates
  frame : Frame s t [.groups] (fun _ => False)

theorem State.laneSeenBy_sets (s : State) {g p : Nat} (i : Nat) (hg : g < 32) (hp : p < 16) : SeenOnly s (s.laneSeenBy g p i) g p i := by
  have same : SameRest s (s.laneSeenBy g p i) := SameRest.setChan s g p _
  refine ⟨?_, ?_, ?_, same.field Group.gates (fun _ _ => rfl) g, Frame.setCmp s _ _ _ _ _ (by simp)⟩
  · rw [State.laneSeenBy, State.setCmp, State.chan_setChan s _ hg hp]
  · rw [State.tdc, State.laneSeenBy, State.setCmp, State.chan_setChan s _ hg hp]
    rfl
  · rw [State.laneSeenBy, State.cmp_setCmp s _ hg hp]

theorem State.gateNow_of_none {s : State} {g : Nat} (h : (s.group g).gates = []) : s.gateNow g = s := by
  rw [State.gateNow, State.gate, h]
  rfl

theorem State.prescale_of_none {s : State} {g : Nat} (src : Nat) (t : Tick) (h : (s.group g).gates = []) :
    s.prescale g src t = (s, none) := by
  rw [State.prescale, State.gateOf, h]
  rfl

theorem exec_tdcStop {s : State} (g : GroupIx) (p : Pos) (c : BitVec 56) (r : Fin 512) {l0 l1 : Lane} {i : Nat}
    (stop : laneStop (s.chan g p).cmp.log c l0 l1 = some i) :
    exec (.tdcStop g p.castSucc c r l0 l1) s = done s (((s.laneSeenBy g p i).gateNow g).tdcStop g p c r l0.code l1.code) := by
  have real : ¬p.castSucc.val = 16 := Nat.ne_of_lt p.isLt
  change execTdcStop g p.castSucc c r l0 l1 s = _
  unfold execTdcStop
  rw [if_neg real, Fin.val_castSucc, stop]

/-- With the factory tables and no correction a stop lies in the middle of its bin. -/
theorem convertTick_factory (c : Time) (r : Nat) : convertTick none 0 c r = BitVec.ofNat 66 (1024 * c.toNat + 2 * r + 1) := by
  have bins : binStart none r = 128 * r := by
    have widths : (List.range r).map (binWidth none) = List.replicate r 128 := by
      rw [show binWidth none = fun _ => 128 from rfl, List.map_const', List.length_range]
    rw [binStart, widths, foldl_add_replicate, Nat.mul_comm]
  have middle : (65536 * (c.toNat : Int) + (128 * r : Nat) + (128 / 2 : Nat) + 0 + 32) / 64 = (1024 * c.toNat + 2 * r + 1 : Nat) := by omega
  rw [convertTick, bins]
  rw [show binWidth none r = 128 from rfl, middle]
  rfl

theorem qualifies_rise {l0 : Lane} (h : l0 ≠ .high) : qualifies 0 0 l0.code Lane.high.code = true ∧
    risingEdge l0.code Lane.high.code = true := by
  cases l0 with
  | low => decide
  | mid => decide
  | high => exact absurd rfl h

theorem winIndex_single {w : Win} {time : Win → Tick} (opened : w.opened) (living : w.closed = false)
    (inside : (time w - w.start).toNat ≤ (w.stop - w.start).toNat) : winIndex [w] time = some 0 := by
  rw [winIndex, List.findIdx?_cons, opened, living, decide_eq_true inside]
  rfl

theorem State.lineOf_factory {s : State} {g p : Nat} (c : Time) (tab : (s.tdc g p).tabA = none) (shift : (s.tdc g p).shiftA = 0)
    (line : s.lineB g p = false) (swap : (s.tdc g p).swapAt = none) (pass : (s.tdc g p).passDone = false) :
    s.lineOf g p c = (none, 0) := by
  have lineA : s.lineAt g p c = false := by
    rw [State.lineAt, swap, pass, line, Bool.and_false, Bool.false_and]
    rfl
  rw [State.lineOf, lineA, tab, shift]
  rfl

/-- The arrival of a stop, and its time less a window's deskew. -/
def State.stopRaw (s : State) (g p : Nat) (c : Time) (r : Nat) : Tick :=
  if s.cmpMode g p == modeSampled then tickOf c else convertTick (s.lineOf g p c).1 (s.lineOf g p c).2 c r

def State.stopTime (s : State) (g p : Nat) (c : Time) (r d : Nat) : Tick :=
  if s.cmpMode g p == modeSampled then s.stopRaw g p c r else s.stopRaw g p c r - BitVec.ofNat 66 d

/-- An open EW window of a rising slope to H. -/
structure RiseWindow (w : Win) : Prop where
  opened : w.opened
  living : w.closed = false
  kind : w.kind = winEw
  slope : w.slope = 0
  level : w.level = 0

/-- A rising transition to H within a channel's only window is a stop in it. -/
theorem State.tdcStop_rise {s : State} {g p : Nat} (c : Time) (r : Nat) {l0 : Lane} {w : Win} (rise : l0 ≠ .high)
    (wins : (s.chan g p).wins = [w]) (ok : RiseWindow w) (gates : (s.group g).gates = [])
    (inside : (s.stopTime g p c r w.dc - w.start).toNat ≤ (w.stop - w.start).toNat) :
    s.tdcStop g p c r l0.code Lane.high.code = s.stopInWindow g p 0 w (s.stopRaw g p c r) (s.stopTime g p c r w.dc) true none := by
  have open_ : s.openDue g p s.time = s := State.openDue_of_none (by rw [wins]; exact dueWin_cons ok.opened (dueWin_nil _))
  obtain ⟨counts, up⟩ := qualifies_rise rise
  have index : winIndex [w] (fun w => s.stopTime g p c r w.dc) = some 0 := winIndex_single ok.opened ok.living inside
  unfold State.tdcStop
  extract_lets sampled u
  split
  next tab a line =>
    extract_lets raw less i v w0 t
    have arrives : raw = s.stopRaw g p c r := by
      rw [State.stopRaw, line]
    have lessens : less = fun d => s.stopTime g p c r d := by
      funext d
      rw [show less d = if sampled then raw else raw - BitVec.ofNat 66 d from rfl, arrives]
      rfl
    have whole : i = some 0 := by
      rw [← index, ← wins, show i = winIndex (u.chan g p).wins fun w => less w.dc from rfl, lessens, show u = s from open_]
    have first : v = some w := by
      rw [show v = i.bind fun i => (u.chan g p).wins[i]? from rfl, whole, show u = s from open_, wins]
      rfl
    have which : w0 = w := by
      rw [show w0 = v.getD _ from rfl, first]
      rfl
    have at_ : t = s.stopTime g p c r w.dc := by
      rw [show t = less w0.dc from rfl, which, lessens]
    have same : u = s := open_
    clear_value t w0 v i u less raw
    subst whole first which at_ same arrives
    rw [ok.slope, ok.level, counts, up]
    rw [State.prescale_of_none _ _ gates]
    rfl

theorem SeenOnly.rise {s u : State} {g p i : Nat} (seen : SeenOnly s u g p i) (c : Time) (r d : Nat) :
    u.stopRaw g p c r = (if s.cmpMode g p == modeSampled then tickOf c else convertTick (u.lineOf g p c).1 (u.lineOf g p c).2 c r) ∧
    u.stopTime g p c r d = (if s.cmpMode g p == modeSampled then u.stopRaw g p c r else u.stopRaw g p c r - BitVec.ofNat 66 d) := by
  have mode : u.cmpMode g p = s.cmpMode g p := by
    rw [State.cmpMode, State.cmpMode, State.dieGet, State.dieGet, seen.frame.part .die (by simp)]
  rw [State.stopTime, State.stopRaw, mode]
  exact ⟨rfl, rfl⟩

/-! ### A stop becomes a stamp -/

theorem State.tdcStamp_runs {s : State} (g : GroupIx) (p : Pos) (c : BitVec 56) (r : Fin 512) {w : Win} {i : Nat} {l0 : Lane}
    (stop : laneStop (s.chan g p).cmp.log c l0 .high = some i) (rise : l0 ≠ .high) (mode : s.cmpMode g p ≠ modeSampled)
    (tab : (s.tdc g p).tabA = none) (shift : (s.tdc g p).shiftA = 0) (line : s.lineB g p = false) (swap : (s.tdc g p).swapAt = none)
    (pass : (s.tdc g p).passDone = false) (alone : (s.tdc g p).lastStop = none) (wins : (s.chan g p).wins = [w])
    (ok : RiseWindow w) (stamps : w.stamps = []) (limit : 0 < w.limit) (gates : (s.group g).gates = [])
    (inside : (BitVec.ofNat 66 (1024 * c.toNat + 2 * r.val + 1) - BitVec.ofNat 66 w.dc - w.start).toNat ≤ (w.stop - w.start).toNat) :
    RunsTo (exec (.tdcStop g p.castSucc c r l0 .high) s) fun t =>
      (t.chan g p).wins = [{ w with stamps :=
        [(BitVec.ofNat 66 (1024 * c.toNat + 2 * r.val + 1) - BitVec.ofNat 66 w.dc, true)] }] ∧
      (t.tdc g p).lastStop = some (BitVec.ofNat 66 (1024 * c.toNat + 2 * r.val + 1)) ∧
      ((t.chan g p).cmp.log[i]?.map (·.edge)) = some false ∧
      Frame s t [.groups] (fun _ => False) := by
  have within_ : i < (s.chan g p).cmp.log.length := by
    have found := List.mem_of_find?_eq_some stop
    exact List.mem_range.1 (List.mem_reverse.1 found)
  have seen := s.laneSeenBy_sets i g.isLt p.isLt
  rw [exec_tdcStop g p c r stop]
  generalize s.laneSeenBy g p i = u at seen
  obtain ⟨atRaw, atTime⟩ := seen.rise c r w.dc
  obtain ⟨sameWins, sameTdc, log, sameGates, frame⟩ := seen
  have lineA : u.lineB g p = false := by
    rw [State.lineB, State.bit_of_get (frame.reg (TD_CAL_STAT_ACTIVE g) (.inr (by simp only [TD_CAL_STAT_ACTIVE, TD_CAL_STAT, groupBase]; omega))
      fun _ => False.elim) p]
    exact line
  have conversion : u.lineOf g p c = (none, 0) :=
    State.lineOf_factory c (sameTdc ▸ tab) (sameTdc ▸ shift) lineA (sameTdc ▸ swap) (sameTdc ▸ pass)
  have cont : (s.cmpMode g p == modeSampled) = false := beq_eq_false_iff_ne.2 mode
  rw [cont, if_neg (by decide), conversion, convertTick_factory] at atRaw
  rw [cont, if_neg (by decide), atRaw] at atTime
  rw [State.gateNow_of_none (sameGates.trans gates), State.tdcStop_rise c r rise (sameWins.trans wins) ok (sameGates.trans gates)
    (by rw [atTime]; exact inside), atRaw, atTime]
  generalize BitVec.ofNat 66 (1024 * c.toNat + 2 * r.val + 1) = raw at *
  have stored : u.stopInWindow g p 0 w raw (raw - BitVec.ofNat 66 w.dc) true none =
      (u.putWin g p 0 { w with stamps := [(raw - BitVec.ofNat 66 w.dc, true)] }).setTdc g p
        { (u.putWin g p 0 { w with stamps := [(raw - BitVec.ofNat 66 w.dc, true)] }).tdc g p with lastStop := some raw } := by
    have kind : ¬(w.kind = winFg ∧ (none : Option (Nat × Nat)).isNone) := fun h => absurd (ok.kind.symm.trans h.1) (by decide)
    have room : ¬(w.limit ≤ w.stamps.length ∨ 64 ≤ fifoCount (u.chan g p).wins) := by
      rw [sameWins, wins, stamps, fifoCount, List.map_cons, stamps]
      exact fun h => h.elim (fun h => absurd limit (Nat.not_lt.2 h)) (fun h => absurd h (by decide))
    unfold State.stopInWindow
    rw [if_neg kind, sameTdc, alone]
    dsimp only
    rw [if_neg (by decide), if_neg room, stamps, ok.kind]
    rfl
  rw [stored]
  generalize hw : u.putWin g p 0 { w with stamps := [(raw - BitVec.ofNat 66 w.dc, true)] } = v
  have put : (v.chan g p).wins = [{ w with stamps := [(raw - BitVec.ofNat 66 w.dc, true)] }] := by
    rw [← hw, State.wins_putWin u _ _ g.isLt p.isLt, sameWins, wins]
    rfl
  have kept : (v.chan g p).cmp.log = (u.chan g p).cmp.log := by
    rw [← hw, State.putWin, State.chan_setChan u _ g.isLt p.isLt]
  have moved : Frame u v [.groups] (fun _ => False) := hw ▸ Frame.putWin ..
  refine runsTo_done _ _ _ ⟨?_, ?_, ?_, ((frame.trans moved).trans (Frame.setTdc ..)).trans (Frame.settle ..)⟩
  · rw [chan_settle, State.wins_setTdc v _ g.isLt p.isLt, put]
  · rw [tdc_settle, State.tdc_setTdc v _ g.isLt p.isLt]
  · rw [chan_settle, State.setTdc, State.chan_setChan v _ g.isLt p.isLt]
    dsimp only
    rw [kept, log, List.getElem?_modify_eq, List.getElem?_eq_getElem within_]
    rfl

/-! ### A stop is lost -/

theorem State.mapSum_sets (s : State) (g p id : Nat) (f : SumChan → SumChan) :
    Frame s (s.mapSum g p id f) [.groups] (fun _ => False) ∧ ∀ k q, (s.mapSum g p id f).chan k q = s.chan k q := by
  refine ⟨Frame.setGroup _ _ _ _ _ (by simp), fun k q => ?_⟩
  rw [State.chan_eq, State.chan_eq]
  by_cases e : g = k
  · subst e
    by_cases hg : g < 32
    · rw [State.mapSum, State.mapIv, State.group_setGroup _ _ _ hg]
    · rw [State.mapSum, State.mapIv, State.setGroup, dif_neg hg]
  · rw [State.mapSum, State.mapIv, State.group_setGroup_ne _ _ _ _ e]

theorem State.tdcLost_runs {s : State} (g : GroupIx) (p : Pos) (c : BitVec 56) (r : Fin 512) {w : Win} {i : Nat} {l0 : Lane} {last : Tick}
    (stop : laneStop (s.chan g p).cmp.log c l0 .high = some i) (rise : l0 ≠ .high) (mode : s.cmpMode g p = modeSampled)
    (before : (s.tdc g p).lastStop = some last) (soon : tickReached (tickOf c) (last + 1024) = false)
    (wins : (s.chan g p).wins = [w]) (ok : RiseWindow w) (gates : (s.group g).gates = [])
    (inside : (tickOf c - w.start).toNat ≤ (w.stop - w.start).toNat) :
    RunsTo (exec (.tdcStop g p.castSucc c r l0 .high) s) fun t =>
      (t.chan g p).wins = [w] ∧ (t.tdc g p).lastStop = some last ∧ t.get (TD_FLAGS_STOP_LOST g) = 1 ∧
      t.get (TD_LOST_LOST g p) = min (s.get (TD_LOST_LOST g p) + 1) (2 ^ 32 - 1) ∧
      Frame s t [.groups] (· ∈ [TD_FLAGS_STOP_LOST g, TD_LOST_LOST g p]) := by
  have seen := s.laneSeenBy_sets i g.isLt p.isLt
  rw [exec_tdcStop g p c r stop]
  generalize s.laneSeenBy g p i = u at seen
  obtain ⟨atRaw, atTime⟩ := seen.rise c r w.dc
  obtain ⟨sameWins, sameTdc, -, sameGates, frame⟩ := seen
  rw [mode, beq_self_eq_true, if_pos rfl] at atRaw atTime
  rw [atRaw] at atTime
  rw [State.gateNow_of_none (sameGates.trans gates), State.tdcStop_rise c r rise (sameWins.trans wins) ok (sameGates.trans gates)
    (by rw [atTime]; exact inside), atRaw, atTime]
  have counted : u.stopInWindow g p 0 w (tickOf c) (tickOf c) true none = if w.dead then (u.count (TD_LOST_LOST g p) 1).raise (TD_FLAGS_STOP_LOST g)
      else ((u.count (TD_LOST_LOST g p) 1).raise (TD_FLAGS_STOP_LOST g)).sumFlag g p w.iv 6 := by
    have kind : ¬(w.kind = winFg ∧ (none : Option (Nat × Nat)).isNone) := fun h => absurd (ok.kind.symm.trans h.1) (by decide)
    unfold State.stopInWindow
    rw [if_neg kind, sameTdc, before]
    dsimp only
    rw [soon, if_pos (by decide)]
    unfold State.stopLost
    rw [ok.kind]
    rfl
  have lost : (TD_LOST_LOST g p).apart (TD_FLAGS_STOP_LOST g) :=
    .inl (by simp only [TD_LOST_LOST, TD_LOST, TD_FLAGS_STOP_LOST, TD_FLAGS]; omega)
  have lostPba : (TD_LOST_LOST g p).reg.notPba := .inr (by simp only [TD_LOST_LOST, TD_LOST, groupBase]; omega)
  have raised : Frame u ((u.count (TD_LOST_LOST g p) 1).raise (TD_FLAGS_STOP_LOST g)) [.groups] (· ∈ [TD_FLAGS_STOP_LOST g, TD_LOST_LOST g p]) :=
    (Frame.count _ _ _ _ 1 (Fld.inWord_of _ rfl) (by simp)).trans (Frame.raise _ _ _ _ (Fld.inWord_of _ rfl) (by simp))
  have flagged : ((u.count (TD_LOST_LOST g p) 1).raise (TD_FLAGS_STOP_LOST g)).get (TD_FLAGS_STOP_LOST g) = 1 := by
    rw [State.get_raise, State.get_set _ _ _ (Fld.inWord_of _ rfl)]
    rfl
  have more : ((u.count (TD_LOST_LOST g p) 1).raise (TD_FLAGS_STOP_LOST g)).get (TD_LOST_LOST g p) =
      min (s.get (TD_LOST_LOST g p) + 1) (2 ^ 32 - 1) := by
    rw [State.get_raise, State.get_set_apart _ _ _ _ (Fld.inWord_of _ rfl) (Fld.apart_symm lost), State.get_count _ _ _ (Fld.inWord_of _ rfl),
      frame.reg _ lostPba fun _ => False.elim]
    rfl
  have chans (k q : Nat) : ((u.count (TD_LOST_LOST g p) 1).raise (TD_FLAGS_STOP_LOST g)).chan k q = u.chan k q :=
    State.chan_congr (by rw [State.raise_groups, State.count_groups]) k q
  rw [counted]
  generalize (u.count (TD_LOST_LOST g p) 1).raise (TD_FLAGS_STOP_LOST g) = v at *
  obtain ⟨x, hx, quiet, same⟩ : ∃ x, (if w.dead then v else v.sumFlag g p w.iv 6) = x ∧ Frame v x [.groups] (fun _ => False) ∧
      ∀ k q, x.chan k q = v.chan k q := by
    refine ⟨_, rfl, ?_⟩
    split
    · exact ⟨Frame.refl .., fun _ _ => rfl⟩
    · exact v.mapSum_sets g p w.iv _
  rw [hx]
  have here : x.chan g p = u.chan g p := (same g p).trans (chans g p)
  refine runsTo_done _ _ _ ⟨?_, ?_, ?_, ?_, ?_⟩
  · rw [chan_settle, here, sameWins, wins]
  · rw [tdc_settle, State.tdc, here]
    exact (congrArg Tdc.lastStop sameTdc).trans before
  · rw [get_settle _ _ _ (.inr (by simp only [TD_FLAGS_STOP_LOST, TD_FLAGS, groupBase]; omega)),
      quiet.reg _ (.inr (by simp only [TD_FLAGS_STOP_LOST, TD_FLAGS, groupBase]; omega)) fun _ => False.elim, flagged]
  · rw [get_settle _ _ _ lostPba, quiet.reg _ lostPba fun _ => False.elim, more]
  · exact (((frame.mono (fun _ => id) fun _ => False.elim).trans raised).trans (quiet.mono (fun _ => id) fun _ => False.elim)).trans
      (Frame.settle ..)

/-! ### No stop -/

theorem State.tdcQuiet_runs {s : State} (g : GroupIx) (p : Pos) (c : BitVec 56) (r : Fin 512) {l0 l1 : Lane}
    (quiet : laneStop (s.chan g p).cmp.log c l0 l1 = none) :
    RunsTo (exec (.tdcStop g p.castSucc c r l0 l1) s) fun t => Frame s t [] (fun _ => False) := by
  have real : ¬p.castSucc.val = 16 := Nat.ne_of_lt p.isLt
  have ran : exec (.tdcStop g p.castSucc c r l0 l1) s = done s s := by
    change execTdcStop g p.castSucc c r l0 l1 s = _
    unfold execTdcStop
    rw [if_neg real, Fin.val_castSucc, quiet]
  rw [ran]
  exact runsTo_done _ _ _ (Frame.settle ..)

theorem State.agingQuiet_runs {s : State} (g : GroupIx) (c : BitVec 56) (r : Fin 512) (l0 l1 : Lane) (sel : s.get (FQ_AGE_SEL g) = 0)
    (gate : s.gate g = none) : RunsTo (exec (.tdcStop g 16 c r l0 l1) s) fun t => Frame s t [] (fun _ => False) := by
  have still : s.gateNow g = s := by rw [State.gateNow, gate]
  have aging : s.agingStop g c r = s := by
    rw [State.agingStop, sel]
    rfl
  have ran : exec (.tdcStop g 16 c r l0 l1) s = done s s := by
    change doneIf _ s ((s.gateNow g).agingStop g c r) = _
    rw [still, aging, doneIf, ite_self]
  rw [ran]
  exact runsTo_done _ _ _ (Frame.settle ..)

/-- Settles O16: a stop in its window is a stamp (`State.tdcStop_rise`, `convertTick_factory`), one too soon is lost, and
without a transition nothing is stamped. -/
theorem tdcStops : Obligations.TdcStops := by
  unfold Obligations.TdcStops
  exact ⟨fun _ g p c r _ _ _ stop rise mode tab shift line swap pass alone wins opened living kind slope level stamps limit gates =>
      State.tdcStamp_runs g p c r stop rise mode tab shift line swap pass alone wins ⟨opened, living, kind, slope, level⟩ stamps limit gates,
    fun _ g p c r _ _ _ _ stop rise mode before soon wins opened living kind slope level =>
      State.tdcLost_runs g p c r stop rise mode before soon wins ⟨opened, living, kind, slope, level⟩,
    fun _ g p c r _ _ => State.tdcQuiet_runs g p c r, fun _ g c r l0 l1 => State.agingQuiet_runs g c r l0 l1⟩

end Sys2Proof.Machine
end

section
/-! Windows close, deliver and open (R151 to R156, R163). -/

namespace Sys2Proof.Machine

/-! ### A window closes -/

theorem exec_windowClose {s : State} (g : GroupIx) (p : Pos) {w : Win} {rest : List Win} (wins : (s.chan g p).wins = w :: rest)
    (opened : w.opened) (living : w.closed = false) (none_ : dueWin rest s.time = none) (due : reached s.time w.closeAt) :
    exec (.windowClose g p) s = done s (s.closeWin g p 0 w) := by
  have still : s.openDue g p s.time = s := State.openDue_of_none (by rw [wins]; exact dueWin_cons opened none_)
  change execWindowClose g p s = _
  unfold execWindowClose
  rw [still]
  dsimp only
  rw [wins, List.findIdx?_cons, opened, living, due]
  rfl

theorem State.windowClose_runs {s : State} (g : GroupIx) (p : Pos) {w : Win} {rest : List Win} (wins : (s.chan g p).wins = w :: rest)
    (opened : w.opened) (living : w.closed = false) (none_ : dueWin rest s.time = none)
    (due : reached s.time (tclkOf (w.stop + BitVec.ofNat 66 w.dc + 1024))) :
    RunsTo (exec (.windowClose g p) s) fun t =>
      (t.chan g p).wins = (if w.stamps = [] then rest
        else { w with closed := true, ctx := if w.external then s.running (s.leader g) else w.ctx } :: rest) ∧
      Frame s t [.groups] (fun _ => False) := by
  rw [exec_windowClose g p wins opened living none_ due]
  refine runsTo_done _ _ _ ⟨?_, ?_⟩
  · rw [chan_settle]
    unfold State.closeWin
    cases hs : w.stamps with
    | nil =>
      rw [List.isEmpty_nil, if_pos rfl, if_pos rfl, State.chan_setChan s _ g.isLt p.isLt, wins]
      rfl
    | cons x l =>
      rw [List.isEmpty_cons, if_neg (by decide), if_neg (List.cons_ne_nil x l), State.wins_putWin s _ _ g.isLt p.isLt, wins,
        List.set_cons_zero]
  · refine (?_ : Frame s (s.closeWin g p 0 w) [.groups] fun _ => False).trans (Frame.settle ..)
    unfold State.closeWin
    split
    · exact Frame.setChan s _ _ _ _ _ (by simp)
    · exact Frame.putWin ..

/-! ### Logs -/

/-- The registers of a group's logs, and the counts of lost ring records. -/
def logField (y : Fld) : Prop := groupRegs 0x9000 0xA000 y ∨ y.reg.addr < 0x100000

theorem logField_ptr (ev : Bool) (g : Nat) : logField (logWptr ev g) ∧ logField (logRptr ev g) := by
  cases ev with
  | false => exact ⟨.inl ⟨g, by simp [logWptr, FC_LOG_PTR_WPTR, FC_LOG_PTR]⟩, .inl ⟨g, by simp [logRptr, FC_LOG_PTR_RPTR, FC_LOG_PTR]⟩⟩
  | true => exact ⟨.inl ⟨g, by simp [logWptr, FC_EV_PTR_WPTR, FC_EV_PTR]⟩, .inl ⟨g, by simp [logRptr, FC_EV_PTR_RPTR, FC_EV_PTR]⟩⟩

theorem inWord_logPtr (ev : Bool) (g : Nat) : (logWptr ev g).inWord ∧ (logRptr ev g).inWord := by
  cases ev with
  | false => exact ⟨Fld.inWord_of (FC_LOG_PTR_WPTR g) rfl, Fld.inWord_of (FC_LOG_PTR_RPTR g) rfl⟩
  | true => exact ⟨Fld.inWord_of (FC_EV_PTR_WPTR g) rfl, Fld.inWord_of (FC_EV_PTR_RPTR g) rfl⟩

theorem logField_fc {g : Nat} {y : Fld} (a : Nat) (h : y.reg.addr = groupBase g + a) (lo : 0x9000 ≤ a) (hi : a < 0xA000) : logField y :=
  .inl ⟨g, by rw [h]; omega⟩

theorem Frame.logPut (s : State) (ev : Bool) (g : Nat) (w : Native) : Frame s (s.logPut ev g w) [.mem, .hi] logField :=
  (Frame.setMemWord s _ _ _ _ (by simp)).trans (Frame.incr _ _ _ _ (inWord_logPtr ev g).1 (logField_ptr ev g).1)

theorem Frame.ringLoseLog (s : State) {r : Nat} (hr : r < 6) (unit n words : Nat) :
    Frame s (s.ringLose r unit n words) [.mem, .hi] logField :=
  Frame.ringLose s _ _ r unit n words (by simp) (.inr (by simp only [HI_RING_DROP_DROP, HI_RING_DROP]; omega))
    (.inr (by decide)) (.inr (by decide))

theorem Frame.logLost (s : State) (ev : Bool) (g : Nat) : Frame s (s.logLost ev g) [.mem, .hi] logField := by
  unfold State.logLost
  dsimp only
  cases ev with
  | false =>
    have flagged : Frame s (s.flag (FC_FLAGS_LOGLOST g) (FC_CNT0_LOGLOST g)) [.mem, .hi] logField :=
      Frame.flag s _ _ _ _ (Fld.inWord_of _ rfl) (Fld.inWord_of _ rfl) (logField_fc 0x9000 rfl (by decide) (by decide))
        (logField_fc 0x9004 rfl (by decide) (by decide))
    exact flagged.trans (Frame.ite _ _ _ _ _ _ (Frame.ringLoseLog _ (by decide) 0 1 1) (Frame.refl ..))
  | true =>
    have flagged : Frame s (s.flag (FC_FLAGS_EVLOST g) (FC_CNT0_EVLOST g)) [.mem, .hi] logField :=
      Frame.flag s _ _ _ _ (Fld.inWord_of _ rfl) (Fld.inWord_of _ rfl) (logField_fc 0x9000 rfl (by decide) (by decide))
        (logField_fc 0x9004 rfl (by decide) (by decide))
    exact flagged.trans (Frame.ite _ _ _ _ _ _ (Frame.ringLoseLog _ (by decide) g 1 1) (Frame.refl ..))

theorem Frame.logWrite (s : State) (ev : Bool) (g : Nat) (w : Native) : Frame s (s.logWrite ev g w) [.mem, .hi] logField := by
  unfold State.logWrite
  dsimp only
  split
  · exact Frame.logPut ..
  · exact (Frame.logLost s ev g).trans (Frame.ite _ _ _ _ _ _ (Frame.refl ..)
      ((Frame.incr _ _ _ _ (inWord_logPtr ev g).2 (logField_ptr ev g).2).trans (Frame.logPut ..)))

theorem Frame.logDrain (s : State) (ev : Bool) (g n : Nat) : Frame s (s.logDrain ev g n) [.mem, .hi] logField := by
  induction n generalizing s with
  | zero => exact Frame.refl ..
  | succ n ih =>
    unfold State.logDrain
    extract_lets r unit w
    split
    · exact ((Frame.setHi s _ _ _ (by simp)).trans (Frame.incr _ _ _ _ (inWord_logPtr ev g).2 (logField_ptr ev g).2)).trans (ih _)
    · exact Frame.refl ..

/-! ### The stamps of a window are delivered -/

/-- What a delivery leaves: the channels, and the register x. -/
structure Delivers (x : Fld) (s t : State) : Prop where
  chans : ∀ k q, t.chan k q = s.chan k q
  frame : Frame s t [.groups, .engines, .mem, .hi] (fun y => y.apart x)

theorem Delivers.refl (x : Fld) (s : State) : Delivers x s s := ⟨fun _ _ => rfl, Frame.refl ..⟩

theorem Delivers.trans {x : Fld} {s t u : State} (h : Delivers x s t) (k : Delivers x t u) : Delivers x s u :=
  ⟨fun a b => (k.chans a b).trans (h.chans a b), h.frame.trans k.frame⟩

theorem Delivers.mapSum (x : Fld) (s : State) (g p id : Nat) (f : SumChan → SumChan) : Delivers x s (s.mapSum g p id f) :=
  have sets := s.mapSum_sets g p id f
  ⟨sets.2, sets.1.mono (by simp) fun _ => False.elim⟩

theorem State.mapIv_chan (s : State) (g id : Nat) (f : Interval → Interval) (k q : Nat) : (s.mapIv g id f).chan k q = s.chan k q := by
  rw [State.chan_eq, State.chan_eq]
  by_cases e : g = k
  · subst e
    by_cases hg : g < 32
    · rw [State.mapIv, State.group_setGroup _ _ _ hg]
    · rw [State.mapIv, State.setGroup, dif_neg hg]
  · rw [State.mapIv, State.group_setGroup_ne _ _ _ _ e]

theorem State.leader_le (s : State) (e : Nat) : s.leader e ≤ e := Nat.div_mul_le_self e _

theorem causeOf_apart_evt {l c m d : Nat} (hc : c < 32) (hd : d < 32) {y : Fld} (h : causeOf m d y) : y.apart (SQ_CTX_FLAGS_EVT l c) := by
  rcases h with (e | e) | e | e | e | e
  · exact .inl (by rw [e]; simp only [SQ_CTX_STAT, SQ_CTX_FLAGS_EVT, SQ_CTX_FLAGS, groupBase]; omega)
  · subst e
    exact .inl (by simp only [SQ_ELIG_ELIG, SQ_ELIG, SQ_CTX_FLAGS_EVT, SQ_CTX_FLAGS, groupBase]; omega)
  · subst e
    by_cases same : m = l ∧ d = c
    · obtain ⟨rfl, rfl⟩ := same
      exact Fld.apart_of _ _ rfl rfl
    · exact .inl (by simp only [SQ_CTX_FLAGS_PHR, SQ_CTX_FLAGS_EVT, SQ_CTX_FLAGS, groupBase]; omega)
  · subst e
    exact .inl (by simp only [SQ_STAT_RUNPRIO, SQ_STAT, SQ_CTX_FLAGS_EVT, SQ_CTX_FLAGS, groupBase]; omega)
  · subst e
    exact .inl (by simp only [SQ_FLAGS_CAUSEDROP, SQ_FLAGS, SQ_CTX_FLAGS_EVT, SQ_CTX_FLAGS, groupBase]; omega)
  · subst e
    exact .inl (by simp only [SQ_CNT0_CAUSEDROP, SQ_CNT0, SQ_CTX_FLAGS_EVT, SQ_CTX_FLAGS, groupBase]; omega)

theorem logField_apart_evt {l c : Nat} (hc : c < 32) {y : Fld} (h : logField y) : y.apart (SQ_CTX_FLAGS_EVT l c) := by
  have addr : (SQ_CTX_FLAGS_EVT l c).reg.addr = groupBase l + 0xB408 + 0x60 * c := rfl
  refine .inl ?_
  rw [addr]
  unfold groupBase
  rcases h with ⟨g, lo, hi⟩ | h
  · unfold groupBase at lo hi
    rcases Nat.lt_trichotomy g l with below | rfl | above
    · omega
    · omega
    · omega
  · omega

theorem Delivers.stampStore {l c : Nat} (s : State) (g p : Nat) (w : Win) (word : Native) (hc : c < 32) :
    Delivers (SQ_CTX_FLAGS_EVT l c) s (s.stampStore g p w word) := by
  have dropped : Delivers (SQ_CTX_FLAGS_EVT l c) s ((s.count (TD_EVDROP_DROP g) 1).raise (TD_FLAGS_EV_DROP g)) := by
    have count : (TD_EVDROP_DROP g).apart (SQ_CTX_FLAGS_EVT l c) :=
      .inl (by simp only [TD_EVDROP_DROP, TD_EVDROP, SQ_CTX_FLAGS_EVT, SQ_CTX_FLAGS, groupBase]; omega)
    have flag : (TD_FLAGS_EV_DROP g).apart (SQ_CTX_FLAGS_EVT l c) :=
      .inl (by simp only [TD_FLAGS_EV_DROP, TD_FLAGS, SQ_CTX_FLAGS_EVT, SQ_CTX_FLAGS, groupBase]; omega)
    exact ⟨State.chan_congr (by rw [State.raise_groups, State.count_groups]),
      (Frame.count _ _ _ (TD_EVDROP_DROP g) 1 (Fld.inWord_of _ rfl) count).trans
        (Frame.raise _ _ _ (TD_FLAGS_EV_DROP g) (Fld.inWord_of _ rfl) flag)⟩
  unfold State.stampStore
  extract_lets iv u
  split
  · have counted : Frame s (s.mapIv g iv.id fun i => { i with events := i.events + 1 }) [.groups, .engines, .mem, .hi]
        (fun y => y.apart (SQ_CTX_FLAGS_EVT l c)) := Frame.setGroup _ _ _ _ _ (by simp)
    have logged := (Frame.logWrite (s.mapIv g iv.id fun i => { i with events := i.events + 1 }) true g word).trans
      (Frame.logDrain _ true g 8192)
    refine ⟨fun k q => ?_, counted.trans (logged.mono (by simp) fun _ => logField_apart_evt hc)⟩
    rw [State.chan_congr (logged.part .groups (by simp)), State.mapIv_chan]
  · split
    · exact dropped
    · exact dropped.trans (.mapSum ..)

/-- The flag of the context and its cause. -/
theorem State.eventStamp_sets (s : State) (g p : Nat) {w : Win} {c : Nat} (ctx : w.ctx = some c) (hc : c < 32) :
    (s.eventStamp g p w).get (SQ_CTX_FLAGS_EVT (s.leader g) c) = 1 ∧ (∀ k q, (s.eventStamp g p w).chan k q = s.chan k q) ∧
    ∃ u, Frame s u [] (fun y => y = SQ_CTX_FLAGS_EVT (s.leader g) c) ∧ Delivers (SQ_CTX_FLAGS_EVT (s.leader g) c) u (s.eventStamp g p w) := by
  have raised : Frame s (s.raise (SQ_CTX_FLAGS_EVT (s.leader g) c)) [] (· ∈ [SQ_CTX_FLAGS_EVT (s.leader g) c]) :=
    Frame.raise _ _ _ _ (Fld.inWord_of _ rfl) (by simp)
  have set : (s.raise (SQ_CTX_FLAGS_EVT (s.leader g) c)).get (SQ_CTX_FLAGS_EVT (s.leader g) c) = 1 := by
    rw [State.get_raise, State.get_set _ _ _ (Fld.inWord_of _ rfl)]
    rfl
  have whole : s.eventStamp g p w = ((s.raise (SQ_CTX_FLAGS_EVT (s.leader g) c)).sumFlag g p w.iv 5).causeRouted
      (TD_EV_CTL_CAUSE_EN g) (TD_EV_CTL_CTX g) (TD_EV_CTL_PRIO g) (s.leader g) .event := by
    unfold State.eventStamp
    dsimp only
    rw [ctx]
  rw [whole]
  have chans : ∀ k q, (s.raise (SQ_CTX_FLAGS_EVT (s.leader g) c)).chan k q = s.chan k q := State.chan_congr (State.raise_groups ..)
  generalize s.raise (SQ_CTX_FLAGS_EVT (s.leader g) c) = u at raised set chans
  have summed : Delivers (SQ_CTX_FLAGS_EVT (s.leader g) c) u (u.sumFlag g p w.iv 5) := .mapSum ..
  have caused : Frame (u.sumFlag g p w.iv 5) ((u.sumFlag g p w.iv 5).causeRouted (TD_EV_CTL_CAUSE_EN g) (TD_EV_CTL_CTX g)
      (TD_EV_CTL_PRIO g) (s.leader g) .event) [.engines] (fun y => y.apart (SQ_CTX_FLAGS_EVT (s.leader g) c)) :=
    Frame.causeRouted _ _ _ _ _ _ _ _ (by simp) fun _ => causeOf_apart_evt hc (State.get_lt _ (TD_EV_CTL_CTX g))
  have both : Delivers (SQ_CTX_FLAGS_EVT (s.leader g) c) u _ :=
    summed.trans ⟨State.chan_congr (caused.part .groups (by simp)), caused.mono (by simp) fun _ => id⟩
  refine ⟨?_, fun k q => (both.chans k q).trans (chans k q), u, raised.mono (fun _ => id) fun _ => List.mem_singleton.1, both⟩
  rw [both.frame.reg _ (.inr (by simp only [SQ_CTX_FLAGS_EVT, SQ_CTX_FLAGS, groupBase]; omega)) fun _ => id, set]

/-- The stamp of a living EW window is an event, enters the stamp memory and the summary. -/
theorem State.deliver_event (s : State) (g p : Nat) {w : Win} {x : Tick × Bool} (kind : w.kind = winEw) (dead : w.dead = false)
    (stamps : w.stamps = [x]) : ∃ word f, s.deliver g p w = ((s.eventStamp g p w).stampStore g p w word).mapSum g p w.iv f := by
  have ew : w.kind = winEw ∧ (!w.dead) = true := ⟨kind, by rw [dead]; rfl⟩
  have some_ : ¬(w.kind = winFg ∨ w.dead = true) := by
    rw [kind, dead]
    decide
  refine ⟨stampWord p x.1 x.2 (w.refused && 0 + 1 == [x].length), fun c => sumStamp c (((s.eventStamp g p w).stampStore g p w
    (stampWord p x.1 x.2 (w.refused && 0 + 1 == [x].length))).edgeOffset g p w x.1), ?_⟩
  unfold State.deliver
  rw [stamps]
  change s.deliverStamp g p w x.1 x.2 _ = _
  unfold State.deliverStamp
  dsimp only
  rw [if_pos ew, if_neg some_, if_pos (.inl kind)]

theorem State.stampDelivery_runs {s : State} (g : GroupIx) (p : Pos) {w : Win} {i : Nat} {x : Tick × Bool} {c : Fin 32}
    (first : s.firstClosed g = some (p.val, i, w)) (closed : w.closed) (kind : w.kind = winEw) (dead : w.dead = false)
    (stamps : w.stamps = [x]) (ctx : w.ctx = some c.val) : RunsTo (exec (.stampDelivery g p) s) fun t =>
      (t.chan g p).wins = (s.chan g p).wins.eraseIdx i ∧ t.get (SQ_CTX_FLAGS_EVT (s.leader g) c.val) = 1 ∧
      t.time = s.time ∧ t.staged = s.staged ∧ t.die = s.die := by
  have ran : exec (.stampDelivery g p) s =
      done s ((s.setChan g p { s.chan g p with wins := (s.chan g p).wins.eraseIdx i }).deliver g p w) := by
    change execStampDelivery g p s = _
    unfold execStampDelivery
    rw [first]
    exact congrArg (done s) (if_pos ⟨rfl, closed⟩)
  have leader : (s.setChan g p { s.chan g p with wins := (s.chan g p).wins.eraseIdx i }).leader g = s.leader g := by
    rw [State.leader, State.leader, State.get_setChan]
  have left_ : ((s.setChan g p { s.chan g p with wins := (s.chan g p).wins.eraseIdx i }).chan g p).wins = (s.chan g p).wins.eraseIdx i := by
    rw [State.chan_setChan s _ g.isLt p.isLt]
  have moved : Frame s (s.setChan g p { s.chan g p with wins := (s.chan g p).wins.eraseIdx i }) [.groups, .engines, .mem, .hi]
      (fun _ => True) := Frame.setChan _ _ _ _ _ _ (by simp)
  rw [ran]
  generalize s.setChan g p { s.chan g p with wins := (s.chan g p).wins.eraseIdx i } = u at leader left_ moved
  obtain ⟨word, f, whole⟩ := u.deliver_event g p kind dead stamps
  obtain ⟨set, chans, v, raised, caused⟩ := u.eventStamp_sets g p ctx c.isLt
  have rest : Delivers (SQ_CTX_FLAGS_EVT (u.leader g) c) (u.eventStamp g p w) _ :=
    (Delivers.stampStore (u.eventStamp g p w) g p w word c.isLt).trans (.mapSum _ _ g p w.iv f)
  rw [← whole] at rest
  have all : Frame s (settle s (u.deliver g p w)) [.groups, .engines, .mem, .hi] (fun _ => True) :=
    (((moved.trans (raised.mono (by simp) fun _ _ => trivial)).trans (caused.frame.mono (fun _ => id) fun _ _ => trivial)).trans
      (rest.frame.mono (fun _ => id) fun _ _ => trivial)).trans (Frame.settle ..)
  refine runsTo_done _ _ _ ⟨?_, ?_, all.part .time (by simp), all.part .staged (by simp), all.part .die (by simp)⟩
  · rw [chan_settle, rest.chans, chans, left_]
  · have pba : (SQ_CTX_FLAGS_EVT (u.leader g) c).reg.notPba :=
      .inr (by simp only [SQ_CTX_FLAGS_EVT, SQ_CTX_FLAGS, groupBase]; omega)
    rw [← leader, get_settle _ _ _ pba, rest.frame.reg _ pba fun _ => id, set]

theorem State.stampWaits_runs {s : State} (g : GroupIx) (p : Pos) {q i : Nat} {w : Win} (first : s.firstClosed g = some (q, i, w))
    (other : q ≠ p.val) : RunsTo (exec (.stampDelivery g p) s) fun t => Frame s t [] (fun _ => False) := by
  have ran : exec (.stampDelivery g p) s = done s s := by
    change execStampDelivery g p s = _
    unfold execStampDelivery
    rw [first]
    exact congrArg (done s) (if_neg fun h => other h.1)
  rw [ran]
  exact runsTo_done _ _ _ (Frame.settle ..)

/-! ### External windows -/

/-- A fold over different items, each of which finds its own condition as it was and leaves those of the others. -/
theorem foldl_each {α β : Type} (f : β → α → β) (I : β → Prop) (P Q : α → β → Prop) (l : List α) (distinct : l.Nodup)
    (step : ∀ b, I b → ∀ a ∈ l, P a b → I (f b a) ∧ Q a (f b a))
    (apart : ∀ b, I b → ∀ a ∈ l, P a b → ∀ c ∈ l, a ≠ c → (P c b → P c (f b a)) ∧ (Q c b → Q c (f b a)))
    (b : β) (start : I b) (all : ∀ a ∈ l, P a b) : I (l.foldl f b) ∧ ∀ a ∈ l, Q a (l.foldl f b) := by
  have general : ∀ m : List α, m.Nodup → (∀ a ∈ m, a ∈ l) → ∀ b, I b → (∀ a ∈ m, P a b) →
      I (m.foldl f b) ∧ (∀ a ∈ m, Q a (m.foldl f b)) ∧ ∀ c ∈ l, c ∉ m → Q c b → Q c (m.foldl f b) := by
    intro m
    induction m with
    | nil => exact fun _ _ b hb _ => ⟨hb, fun _ h => (nomatch h), fun _ _ _ h => h⟩
    | cons a m ih =>
      intro nodup sub b hb hp
      obtain ⟨fresh, nodup⟩ := List.nodup_cons.1 nodup
      have ha := sub a List.mem_cons_self
      have pa := hp a List.mem_cons_self
      obtain ⟨inv, done_⟩ := step b hb a ha pa
      obtain ⟨inv', each, others⟩ := ih nodup (fun c hc => sub c (List.mem_cons_of_mem a hc)) (f b a) inv fun c hc =>
        (apart b hb a ha pa c (sub c (List.mem_cons_of_mem a hc)) fun e => fresh (e ▸ hc)).1 (hp c (List.mem_cons_of_mem a hc))
      refine ⟨inv', fun c hc => ?_, fun c hc out hq => ?_⟩
      · rcases List.mem_cons.1 hc with rfl | hc
        · exact others c ha fresh done_
        · exact each c hc
      · obtain ⟨ne, out⟩ := not_or.1 (fun h => out (List.mem_cons.2 h))
        exact others c hc out ((apart b hb a ha pa c hc (Ne.symm ne)).2 hq)
  exact ⟨(general l distinct (fun _ h => h) b start all).1, (general l distinct (fun _ h => h) b start all).2.1⟩

theorem nodup_bitsOf (m n : Nat) : (bitsOf m n).Nodup := List.nodup_range.filter _

/-- An external window that opens now. -/
def State.externalWin (s : State) (g p : Nat) (t : Tick) (kind : Nat) : Win :=
  Win.make t (t + BitVec.ofNat 66 (s.get (TD_XWIN_LEN_LEN g) - 1)) t 0 (s.deskewIn g p) kind (s.openIv g) true none

/-- The external window of one channel. -/
def State.externalStep (s : State) (g : Nat) (t : Tick) (kind p : Nat) : State :=
  ((s.openDue g p (s.time - 1)).setChan g p { (s.openDue g p (s.time - 1)).chan g p with
    wins := ((s.openDue g p (s.time - 1)).chan g p).wins ++ [(s.openDue g p (s.time - 1)).externalWin g p t kind] }).startWin g p
      ((s.openDue g p (s.time - 1)).chan g p).wins.length ((s.openDue g p (s.time - 1)).externalWin g p t kind)

theorem State.externalWindows_eq (s : State) (g : Nat) : ∃ kind, kind ≠ winCmp ∧
    s.externalWindows g = s.forEach (bitsOf (s.get (TD_XWIN_CTL_MASK g)) 16) fun u p => u.externalStep g (tickOf s.time) kind p := by
  refine ⟨if s.get (TD_XWIN_CTL_KIND g) = 3 then winEw else s.get (TD_XWIN_CTL_KIND g), ?_, rfl⟩
  split
  · decide
  · next h => exact h

theorem State.winClose_congr {s t : State} {g p : Nat} (w : Win) (last : (t.tdc g p).lastWin = (s.tdc g p).lastWin)
    (mask : t.get (TD_XWIN_CTL_MASK g) = s.get (TD_XWIN_CTL_MASK g)) (period : t.minPeriod g = s.minPeriod g) :
    t.winClose g p w = s.winClose g p w := by
  rw [State.winClose, State.winClose, State.bit_of_get mask, last, period]

theorem State.minPeriod_congr {s t : State} {g : Nat} (use : t.get (TG_TS_USE_USE g) = s.get (TG_TS_USE_USE g))
    (per : ∀ n < 32, t.get (TG_TS_PER_PER g n) = s.get (TG_TS_PER_PER g n)) : t.minPeriod g = s.minPeriod g := by
  simp only [State.minPeriod, State.tsInUse, State.bit_of_get use]
  exact List.foldl_ext _ _ _ fun m n hn => by rw [per n (List.mem_range.1 (List.mem_of_mem_filter hn))]

/-- The fields that mark a window too close. -/
def spaceField (g : Nat) (y : Fld) : Prop := y ∈ [TD_FLAGS_WIN_SPACE g, TD_CNT1_WIN_SPACE g]

theorem spaceField_apart {g a : Nat} {x y : Fld} (h : spaceField g y) (hx : x.reg.addr = groupBase g + a) (other : a ≠ 0x7000 ∧ a ≠ 0x7008) :
    y.apart x := by
  refine .inl ?_
  rw [hx]
  rcases List.mem_pair.1 h with e | e <;> subst e
  · simp only [TD_FLAGS_WIN_SPACE, TD_FLAGS]; omega
  · simp only [TD_CNT1_WIN_SPACE, TD_CNT1]; omega

theorem Frame.space {g a : Nat} {s t : State} (h : Frame s t [.groups] (spaceField g)) {x : Fld} (hx : x.reg.addr = groupBase g + a)
    (other : a ≠ 0x7000 ∧ a ≠ 0x7008) : t.get x = s.get x :=
  h.reg x (TG_DSK_notPba hx) fun _ hy => spaceField_apart hy hx other

theorem Frame.space_period {g : Nat} {s t : State} (h : Frame s t [.groups] (spaceField g)) : t.minPeriod g = s.minPeriod g :=
  State.minPeriod_congr (h.space (a := 0) rfl (by decide)) fun n hn => h.space (a := 0x100 + 4 * n) (Nat.add_assoc ..) (by omega)

/-- What opening, or dropping, the external window of a channel does. -/
structure ExternalDone (s t : State) (g p : Nat) (w : Win) : Prop where
  others : ∀ k q, ¬(g = k ∧ p = q) → t.chan k q = s.chan k q
  frame : Frame s t [.groups] (spaceField g)
  raised : s.get (TD_FLAGS_WIN_SPACE g) = 1 → t.get (TD_FLAGS_WIN_SPACE g) = 1
  close : s.on (TD_CH_EN g p) → s.winClose g p w → (t.chan g p).wins = (s.chan g p).wins ∧ t.get (TD_FLAGS_WIN_SPACE g) = 1
  opens : s.on (TD_CH_EN g p) → s.winClose g p w = false →
    (t.chan g p).wins = (s.chan g p).wins ++ [{ s.winSettings g p w with opened := true }]

theorem State.startWin_sets (s : State) {g p i : Nat} {w : Win} (hg : g < 32) (hp : p < 16) (kind : w.kind ≠ winCmp)
    (external : w.external) : (∀ k q, ¬(g = k ∧ p = q) → (s.startWin g p i w).chan k q = s.chan k q) ∧
    Frame s (s.startWin g p i w) [.groups] (spaceField g) ∧
    (s.get (TD_FLAGS_WIN_SPACE g) = 1 → (s.startWin g p i w).get (TD_FLAGS_WIN_SPACE g) = 1) ∧
    (s.on (TD_CH_EN g p) → s.winClose g p w → ((s.startWin g p i w).chan g p).wins = (s.chan g p).wins.eraseIdx i ∧
      (s.startWin g p i w).get (TD_FLAGS_WIN_SPACE g) = 1) ∧
    (s.on (TD_CH_EN g p) → s.winClose g p w = false →
      ((s.startWin g p i w).chan g p).wins = (s.chan g p).wins.set i { s.winSettings g p w with opened := true }) := by
  have split_ : (TD_CNT1_WIN_SPACE g).apart (TD_FLAGS_WIN_SPACE g) :=
    .inl (by simp only [TD_CNT1_WIN_SPACE, TD_CNT1, TD_FLAGS_WIN_SPACE, TD_FLAGS]; omega)
  unfold State.startWin
  extract_lets c drop
  have moved : Frame s drop [.groups] (spaceField g) := Frame.setChan _ _ _ _ _ _ (by simp)
  have gone : (drop.chan g p).wins = (s.chan g p).wins.eraseIdx i := by rw [State.chan_setChan s _ hg hp]
  have others (k q : Nat) (h : ¬(g = k ∧ p = q)) : drop.chan k q = s.chan k q := State.chan_setChan_ne s _ h
  have same : drop.get (TD_FLAGS_WIN_SPACE g) = s.get (TD_FLAGS_WIN_SPACE g) := State.get_setChan ..
  clear_value drop
  cases en : s.on (TD_CH_EN g p) with
  | false =>
    rw [Bool.not_false, if_pos rfl, if_pos (.inr external)]
    exact ⟨others, moved, fun h => same.trans h, (nomatch ·), (nomatch ·)⟩
  | true =>
    rw [Bool.not_true, if_neg (by decide), if_neg fun h => kind h.1]
    cases close : s.winClose g p w with
    | true =>
      rw [if_pos rfl]
      have flagged : (drop.flag (TD_FLAGS_WIN_SPACE g) (TD_CNT1_WIN_SPACE g)).get (TD_FLAGS_WIN_SPACE g) = 1 :=
        State.get_flag _ _ _ (Fld.inWord_of _ rfl) (Fld.inWord_of _ rfl) split_ rfl
      have chans := State.chan_congr (State.flag_groups drop (TD_FLAGS_WIN_SPACE g) (TD_CNT1_WIN_SPACE g))
      refine ⟨fun k q h => (chans k q).trans (others k q h), moved.trans (Frame.flag _ _ _ _ _ (Fld.inWord_of _ rfl)
        (Fld.inWord_of _ rfl) (by simp [spaceField]) (by simp [spaceField])), fun _ => flagged, fun _ _ => ⟨?_, flagged⟩, fun _ => (nomatch ·)⟩
      rw [chans, gone]
    | false =>
      rw [if_neg (by decide)]
      refine ⟨fun k q h => State.chan_setChan_ne s _ h, Frame.setChan _ _ _ _ _ _ (by simp), fun h => (State.get_setChan ..).trans h,
        fun _ => (nomatch ·), fun _ _ => ?_⟩
      rw [State.chan_setChan s _ hg hp]

theorem eraseIdx_length_append {α : Type} (l : List α) (a : α) : (l ++ [a]).eraseIdx l.length = l := by
  rw [List.eraseIdx_append_of_length_le (Nat.le_refl _), Nat.sub_self]
  exact List.append_nil l

theorem State.externalStep_sets (s : State) {g p kind : Nat} (t : Tick) (hg : g < 32) (hp : p < 16) (kindOk : kind ≠ winCmp)
    (none_ : dueWin (s.chan g p).wins (s.time - 1) = none) : ExternalDone s (s.externalStep g t kind p) g p (s.externalWin g p t kind) := by
  rw [State.externalStep, State.openDue_of_none none_]
  generalize hw : s.externalWin g p t kind = w
  have kind' : w.kind ≠ winCmp := by
    rw [← hw]
    exact kindOk
  have external : w.external := by
    rw [← hw]
    rfl
  have put : (s.setChan g p { s.chan g p with wins := (s.chan g p).wins ++ [w] }).chan g p =
      { s.chan g p with wins := (s.chan g p).wins ++ [w] } := State.chan_setChan s _ hg hp
  have others (k q : Nat) (h : ¬(g = k ∧ p = q)) :
      (s.setChan g p { s.chan g p with wins := (s.chan g p).wins ++ [w] }).chan k q = s.chan k q := State.chan_setChan_ne s _ h
  have gets (x : Fld) : (s.setChan g p { s.chan g p with wins := (s.chan g p).wins ++ [w] }).get x = s.get x := State.get_setChan ..
  have moved : Frame s (s.setChan g p { s.chan g p with wins := (s.chan g p).wins ++ [w] }) [.groups] (spaceField g) :=
    Frame.setChan _ _ _ _ _ _ (by simp)
  generalize s.setChan g p { s.chan g p with wins := (s.chan g p).wins ++ [w] } = u at *
  obtain ⟨apart, frame, raised, close, opens⟩ := u.startWin_sets (i := (s.chan g p).wins.length) hg hp kind' external
  have en : u.on (TD_CH_EN g p) = s.on (TD_CH_EN g p) := State.on_of_get (gets _)
  have near : u.winClose g p w = s.winClose g p w :=
    State.winClose_congr w (by rw [State.tdc, put]; rfl) (gets _) (State.minPeriod_congr (gets _) fun _ _ => gets _)
  have settings : u.winSettings g p w = s.winSettings g p w := by simp only [State.winSettings, gets]
  refine ⟨fun k q h => (apart k q h).trans (others k q h), moved.trans frame, fun h => raised ((gets _).trans h), fun on c => ?_, fun on c => ?_⟩
  · obtain ⟨wins, flag⟩ := close (en.trans on) (near.trans c)
    refine ⟨?_, flag⟩
    rw [wins, put]
    exact eraseIdx_length_append ..
  · rw [opens (en.trans on) (near.trans c), put, settings]
    dsimp only
    rw [List.set_append_right _ _ (Nat.le_refl _), Nat.sub_self]
    rfl

theorem exec_xwinOpen {s : State} (g : GroupIx) (src : s.get (TD_XWIN_CTL_SRC g) = 2)
    (due : s.time.toNat % 2 ^ (10 + s.get (TD_XWIN_CTL_REFSH g)) = 0) : exec (.xwinOpen g) s = done s (s.externalWindows g) := by
  have fires : s.xwinDue g = true := by
    rw [State.xwinDue, src]
    exact beq_iff_eq.2 due
  exact doneIf_pos fires ..

/-- What the external windows of a group establish on a channel of MASK. -/
def ExternalSet (s t : State) (g p : Nat) : Prop :=
  (s.on (TD_CH_EN g p) → ∀ l, (s.tdc g p).lastWin = some l → tickReached (tickOf s.time) (l + BitVec.ofNat 66 (s.minPeriod g)) = false →
    (t.chan g p).wins = (s.chan g p).wins ∧ t.get (TD_FLAGS_WIN_SPACE g) = 1) ∧
  (s.on (TD_CH_EN g p) → (∀ l, (s.tdc g p).lastWin = some l → tickReached (tickOf s.time) (l + BitVec.ofNat 66 (s.minPeriod g))) →
    ∃ w, (t.chan g p).wins = (s.chan g p).wins ++ [w] ∧ w.start = tickOf s.time ∧ w.external ∧ w.opened ∧
      w.stop = tickOf s.time + BitVec.ofNat 66 (s.get (TD_XWIN_LEN_LEN g) - 1))

theorem ExternalDone.sets {s u t : State} {g p kind : Nat} (done_ : ExternalDone u t g p (u.externalWin g p (tickOf s.time) kind))
    (hp : p < 16) (mask : s.bit (TD_XWIN_CTL_MASK g) p) (frame : Frame s u [.groups] (spaceField g))
    (same : u.chan g p = s.chan g p) : ExternalSet s t g p := by
  have en : u.on (TD_CH_EN g p) = s.on (TD_CH_EN g p) := State.on_of_get (frame.space (a := 0x7100 + 4 * p) (Nat.add_assoc ..) (by omega))
  have len : u.get (TD_XWIN_LEN_LEN g) = s.get (TD_XWIN_LEN_LEN g) := frame.space (a := 0x7044) rfl (by decide)
  have tdc : u.tdc g p = s.tdc g p := congrArg Chan.tdc same
  have near : u.winClose g p (u.externalWin g p (tickOf s.time) kind) = match (s.tdc g p).lastWin with
      | some l => !tickReached (tickOf s.time) (l + BitVec.ofNat 66 (s.minPeriod g))
      | none => false := by
    rw [State.winClose, State.bit_of_get (frame.space (x := TD_XWIN_CTL_MASK g) (a := 0x7040) rfl (by decide)), mask, tdc, Bool.true_and,
      frame.space_period]
    rfl
  refine ⟨fun on l last soon => ?_, fun on far => ?_⟩
  · rw [last] at near
    dsimp only at near
    rw [soon] at near
    rw [← same]
    exact done_.close (en.trans on) near
  · have opens : u.winClose g p (u.externalWin g p (tickOf s.time) kind) = false := by
      rw [near]
      split
      · next l last => rw [far l last]; rfl
      · rfl
    refine ⟨_, same ▸ done_.opens (en.trans on) opens, rfl, rfl, rfl, ?_⟩
    rw [← len]
    rfl

theorem State.externalWindows_sets {s : State} {g : Nat} (hg : g < 32)
    (none_ : ∀ q, q < 16 → dueWin (s.chan g q).wins (s.time - 1) = none) :
    Frame s (s.externalWindows g) [.groups] (spaceField g) ∧
    ∀ p ∈ bitsOf (s.get (TD_XWIN_CTL_MASK g)) 16, ExternalSet s (s.externalWindows g) g p := by
  obtain ⟨kind, kindOk, whole⟩ := s.externalWindows_eq g
  rw [whole]
  refine foldl_each (fun u p => State.externalStep u g (tickOf s.time) kind p) (fun u => Frame s u [.groups] (spaceField g))
    (fun p u => u.chan g p = s.chan g p) (fun p u => ExternalSet s u g p) _ (nodup_bitsOf _ _) (fun u hu p hp same => ?_)
    (fun u hu p hp same q _ ne => ?_) s (Frame.refl ..) fun _ _ => rfl
  · obtain ⟨real, mask⟩ := mem_bitsOf.1 hp
    have step := u.externalStep_sets (tickOf s.time) hg real kindOk (by rw [same, hu.part .time (by simp)]; exact none_ p real)
    exact ⟨hu.trans step.frame, step.sets real mask hu same⟩
  · obtain ⟨real, -⟩ := mem_bitsOf.1 hp
    have step := u.externalStep_sets (tickOf s.time) hg real kindOk (by rw [same, hu.part .time (by simp)]; exact none_ p real)
    have kept := step.others g q fun h => ne h.2
    refine ⟨fun h => kept.trans h, fun ⟨close, opens⟩ => ⟨fun on l last soon => ?_, fun on far => ?_⟩⟩
    · obtain ⟨wins, flag⟩ := close on l last soon
      exact ⟨(congrArg Chan.wins kept).trans wins, step.raised flag⟩
    · obtain ⟨w, wins, rest⟩ := opens on far
      exact ⟨w, (congrArg Chan.wins kept).trans wins, rest⟩

theorem State.xwinOpen_runs {s : State} (g : GroupIx) (p : Pos) (src : s.get (TD_XWIN_CTL_SRC g) = 2)
    (due : s.time.toNat % 2 ^ (10 + s.get (TD_XWIN_CTL_REFSH g)) = 0) (mask : s.bit (TD_XWIN_CTL_MASK g) p)
    (none_ : ∀ q, q < 16 → dueWin (s.chan g q).wins (s.time - 1) = none) (on : s.on (TD_CH_EN g p)) :
    RunsTo (exec (.xwinOpen g) s) fun t =>
      (∀ l, (s.tdc g p).lastWin = some l → tickReached (tickOf s.time) (l + BitVec.ofNat 66 (s.minPeriod g)) = false →
        (t.chan g p).wins = (s.chan g p).wins ∧ t.get (TD_FLAGS_WIN_SPACE g) = 1) ∧
      ((∀ l, (s.tdc g p).lastWin = some l → tickReached (tickOf s.time) (l + BitVec.ofNat 66 (s.minPeriod g))) →
        ∃ w, (t.chan g p).wins = (s.chan g p).wins ++ [w] ∧ w.start = tickOf s.time ∧ w.external ∧ w.opened ∧
          w.stop = tickOf s.time + BitVec.ofNat 66 (s.get (TD_XWIN_LEN_LEN g) - 1)) ∧
      Frame s t [.groups] (· ∈ [TD_FLAGS_WIN_SPACE g, TD_CNT1_WIN_SPACE g]) := by
  obtain ⟨frame, each⟩ := State.externalWindows_sets g.isLt none_
  obtain ⟨close, opens⟩ := each p (mem_bitsOf.2 ⟨p.isLt, mask⟩)
  rw [exec_xwinOpen g src due]
  refine runsTo_done _ _ _ ⟨fun l last soon => ?_, fun far => ?_, frame.trans (Frame.settle ..)⟩
  · rw [chan_settle, get_settle _ _ _ (TG_DSK_notPba (a := 0x7000) rfl)]
    exact close on l last soon
  · rw [chan_settle]
    exact opens on far

/-- Settles O17: windows close, the stamps of the one that closed first are delivered, and external windows open or are
dropped. -/
theorem windows : Obligations.Windows := by
  unfold Obligations.Windows
  exact ⟨fun _ g p _ _ => State.windowClose_runs g p, fun _ g p _ _ _ _ => State.stampDelivery_runs g p,
    fun _ g p _ _ _ => State.stampWaits_runs g p, fun _ g p => State.xwinOpen_runs g p⟩

end Sys2Proof.Machine
end

section
/-! Calibration passes and swaps (R158, R159). -/

namespace Sys2Proof.Machine

/-! ### A calibration pass ends -/

theorem exec_calPassComplete {s : State} (g : GroupIx) (p : Pos) {hits : List Nat} {refs : List (Fin 512)}
    (counts : passCounts (2 ^ (s.tdc g p).passN) hits) (edges : refs.length = 256)
    (due : usTclk (2 ^ (s.tdc g p).passN) ≤ 5 * s.since (s.tdc g p).passAt) :
    exec (.calPassComplete g p hits refs) s = done s (s.passEnd g p hits refs) := by
  have acts : (s.passOver g p hits && refs.length == 256) = true := by
    rw [State.passOver, counts, edges, decide_eq_true due]
    rfl
  exact doneIf_pos acts ..

/-- The mean position of 256 reference edges, to less than one unit. -/
theorem State.refMean_near (s : State) (tab : List Nat) {refs : List (Fin 512)} (edges : refs.length = 256) :
    256 * (s.refMean tab refs).2 - ((refs.map fun r => binStart (some tab) r + binWidth (some tab) r / 2).sum : Nat) < 256 ∧
    ((refs.map fun r => binStart (some tab) r + binWidth (some tab) r / 2).sum : Nat) - 256 * (s.refMean tab refs).2 < 256 := by
  rw [State.refMean, foldl_add_eq_sum, edges]
  generalize (List.sum _ : Nat) = total
  have near := s.quotient_near total (show 0 < 256 by decide)
  omega

/-- What a pass leaves of its times. -/
def State.passBase (s : State) (g p : Nat) : Tdc := { s.tdc g p with passAt := s.time, passN := 20 + s.get (TD_CAL_CTL_CALN g) }

theorem State.calPassed_runs {s : State} (g : GroupIx) (p : Pos) {hits : List Nat} {refs : List (Fin 512)}
    (counts : passCounts (2 ^ (s.tdc g p).passN) hits) (good : passGood (2 ^ (s.tdc g p).passN) hits) (edges : refs.length = 256)
    (due : usTclk (2 ^ (s.tdc g p).passN) ≤ 5 * s.since (s.tdc g p).passAt) (line : s.lineB g p = false) :
    RunsTo (exec (.calPassComplete g p hits refs) s) fun t =>
      (t.tdc g p).passDone ∧ (t.tdc g p).tabB = some (passTable hits) ∧ (t.tdc g p).passAt = s.time ∧
      (∃ m : Int, (t.tdc g p).shiftB = Config.refPosition s.sys.cal (s.physChan (16 * g + p)) - m ∧
        256 * m - ((refs.map fun r => binStart (some (passTable hits)) r + binWidth (some (passTable hits)) r / 2).sum : Nat)
          < 256 ∧
        ((refs.map fun r => binStart (some (passTable hits)) r + binWidth (some (passTable hits)) r / 2).sum : Nat) - 256 * m
          < 256) ∧
      (t.tdc g p).tabA = (s.tdc g p).tabA ∧ (t.tdc g p).shiftA = (s.tdc g p).shiftA ∧
      Frame s t [.groups, .free] (fun _ => False) := by
  have ended : s.passEnd g p hits refs = (s.refMean (passTable hits) refs).1.setTdc g p { s.passBase g p with
      passDone := true, passFailed := false, tabB := some (passTable hits)
      shiftB := Config.refPosition s.sys.cal (s.physChan (16 * g + p)) - (s.refMean (passTable hits) refs).2 } := by
    unfold State.passEnd
    dsimp only
    rw [if_pos good, line]
    rfl
  have taken : Frame s (s.refMean (passTable hits) refs).1 [.groups, .free] (fun _ => False) := Frame.quotient s _ _ _ _ (by simp)
  have near := s.refMean_near (passTable hits) edges
  rw [exec_calPassComplete g p counts edges due, ended]
  generalize s.refMean (passTable hits) refs = m at taken near
  refine runsTo_done _ _ _ ?_
  rw [tdc_settle, State.tdc_setTdc _ _ g.isLt p.isLt]
  exact ⟨rfl, rfl, rfl, ⟨m.2, rfl, near⟩, rfl, rfl,
    (taken.trans ((Frame.setTdc _ _ g p _).mono (by simp) fun _ => id)).trans (Frame.settle ..)⟩

theorem State.calFailed_runs {s : State} (g : GroupIx) (p : Pos) {hits : List Nat} {refs : List (Fin 512)}
    (counts : passCounts (2 ^ (s.tdc g p).passN) hits) (bad : passGood (2 ^ (s.tdc g p).passN) hits = false)
    (edges : refs.length = 256) (due : usTclk (2 ^ (s.tdc g p).passN) ≤ 5 * s.since (s.tdc g p).passAt) :
    RunsTo (exec (.calPassComplete g p hits refs) s) fun t =>
      (t.tdc g p).passFailed ∧ (t.tdc g p).tabA = (s.tdc g p).tabA ∧ (t.tdc g p).tabB = (s.tdc g p).tabB ∧
      t.get (TD_FLAGS_CAL_ERR g) = 1 ∧ t.get (TD_CNT0_CAL_ERR g) = min (s.get (TD_CNT0_CAL_ERR g) + 1) 65535 ∧
      Frame s t [.groups] (· ∈ [TD_FLAGS_CAL_ERR g, TD_CNT0_CAL_ERR g]) := by
  have ended : s.passEnd g p hits refs =
      (s.setTdc g p { s.passBase g p with passFailed := true }).flag (TD_FLAGS_CAL_ERR g) (TD_CNT0_CAL_ERR g) := by
    unfold State.passEnd
    dsimp only
    rw [if_neg (by rw [bad]; decide)]
    rfl
  have split_ : (TD_CNT0_CAL_ERR g).apart (TD_FLAGS_CAL_ERR g) :=
    .inl (by simp only [TD_CNT0_CAL_ERR, TD_CNT0, TD_FLAGS_CAL_ERR, TD_FLAGS]; omega)
  have set : (s.setTdc g p { s.passBase g p with passFailed := true }).tdc g p = { s.passBase g p with passFailed := true } :=
    State.tdc_setTdc s _ g.isLt p.isLt
  have moved : Frame s (s.setTdc g p { s.passBase g p with passFailed := true }) [.groups] (· ∈ [TD_FLAGS_CAL_ERR g, TD_CNT0_CAL_ERR g]) :=
    Frame.setTdc ..
  have count : (s.setTdc g p { s.passBase g p with passFailed := true }).get (TD_CNT0_CAL_ERR g) = s.get (TD_CNT0_CAL_ERR g) :=
    State.get_setChan ..
  rw [exec_calPassComplete g p counts edges due, ended]
  generalize s.setTdc g p { s.passBase g p with passFailed := true } = u at set moved count
  have whole : (settle s (u.flag (TD_FLAGS_CAL_ERR g) (TD_CNT0_CAL_ERR g))).tdc g p = { s.passBase g p with passFailed := true } := by
    rw [tdc_settle, State.tdc, State.chan_congr (State.flag_groups ..)]
    exact set
  refine runsTo_done _ _ _ ?_
  rw [whole]
  refine ⟨rfl, rfl, rfl, ?_, ?_, (moved.trans (Frame.flag _ _ _ _ _ (Fld.inWord_of _ rfl) (Fld.inWord_of _ rfl) (by simp) (by simp))).trans
    (Frame.settle ..)⟩
  · rw [get_settle _ _ _ (TG_DSK_notPba (a := 0x7000) rfl),
      State.get_flag _ _ _ (Fld.inWord_of _ rfl) (Fld.inWord_of _ rfl) split_ rfl]
  · rw [get_settle _ _ _ (TG_DSK_notPba (a := 0x7004) rfl),
      State.get_flag_count _ _ _ (Fld.inWord_of _ rfl) (Fld.inWord_of _ rfl) (Fld.apart_symm split_), count]
    rfl

/-! ### Lines swap -/

/-- What the swap instant changes. -/
def swapField (g : Nat) (y : Fld) : Prop := y.reg = TD_CAL_STAT g ∨ (∃ q, y.reg = TD_ALIGN g q) ∨ y.reg = TD_SWAP_TLO g ∨
  y.reg = TD_SWAP_THI g ∨ y = TD_FLAGS_SWAP_SKIP g ∨ y = TD_CNT0_SWAP_SKIP g

/-- The TIME of the last swap. -/
def State.swapTime (s : State) (g : Nat) : Time := s.getTime (TD_SWAP_TLO_T_LO g) (TD_SWAP_THI_T_HI g)

/-- A channel has swapped its lines. -/
structure Swapped (s t : State) (g p : Nat) : Prop where
  line : t.lineB g p = !s.lineB g p
  live : t.bit (TD_CAL_STAT_LIVEMAP g) p
  pass : (t.tdc g p).passDone = false
  align : (t.get (TD_ALIGN_A g p) : Int) = (if s.lineB g p then (s.tdc g p).shiftA else (s.tdc g p).shiftB) % 2 ^ 16
  time : t.swapTime g = s.time

/-- What one channel does at a swap instant, and leaves of the others. -/
structure SwapStep (s t : State) (g p : Nat) : Prop where
  chans : ∀ q, p ≠ q → t.chan g q = s.chan g q
  lines : ∀ q < 16, p ≠ q → t.lineB g q = s.lineB g q
  lives : ∀ q < 16, s.bit (TD_CAL_STAT_LIVEMAP g) q → t.bit (TD_CAL_STAT_LIVEMAP g) q
  aligns : ∀ q < 16, p ≠ q → t.get (TD_ALIGN_A g q) = s.get (TD_ALIGN_A g q)
  time : s.swapTime g = s.time → t.swapTime g = s.time
  flag : s.get (TD_FLAGS_SWAP_SKIP g) = 1 → t.get (TD_FLAGS_SWAP_SKIP g) = 1
  frame : Frame s t [.groups] (swapField g)
  swap : (s.tdc g p).passDone → Swapped s t g p
  skip : (s.tdc g p).passDone = false → (s.tdc g p).passFailed → t.lineB g p = s.lineB g p ∧ t.get (TD_FLAGS_SWAP_SKIP g) = 1

/-- The registers of a swap. -/
def State.swapRegs (s : State) (g p : Nat) (line : Bool) (new old : Int) (now : Time) : State :=
  ((((s.setBit (TD_CAL_STAT_ACTIVE g) p line).setBit (TD_CAL_STAT_LIVEMAP g) p true).setInt (TD_ALIGN_A g p) new).setInt (TD_ALIGN_DA g p)
    (new - old)).setTime (TD_SWAP_TLO_T_LO g) (TD_SWAP_THI_T_HI g) now

theorem Frame.swapRegs (s : State) (g p : Nat) (line : Bool) (new old : Int) (now : Time) :
    Frame s (s.swapRegs g p line new old now) [] (swapField g) :=
  ((((Frame.setBit _ _ _ _ _ _ (Fld.inWord_of _ rfl) (.inl rfl)).trans (Frame.setBit _ _ _ _ _ _ (Fld.inWord_of _ rfl) (.inl rfl))).trans
    (Frame.setInt _ _ _ _ _ (Fld.inWord_of _ rfl) (.inr (.inl ⟨p, rfl⟩)))).trans
    (Frame.setInt _ _ _ _ _ (Fld.inWord_of _ rfl) (.inr (.inl ⟨p, rfl⟩)))).trans
    (Frame.setTime _ _ _ _ _ _ (Fld.inWord_of _ rfl) (Fld.inWord_of _ rfl) (.inr (.inr (.inl rfl))) (.inr (.inr (.inr (.inl rfl)))))

/-- A register of TD_CAL_STAT after a swap. -/
theorem State.get_stat_swapRegs (s : State) (g p : Nat) (line : Bool) (new old : Int) (now : Time) {x : Fld} (hx : x.reg = TD_CAL_STAT g) :
    (s.swapRegs g p line new old now).get x =
      ((s.setBit (TD_CAL_STAT_ACTIVE g) p line).setBit (TD_CAL_STAT_LIVEMAP g) p true).get x := by
  have align {y : Fld} (hy : y.reg = TD_ALIGN g p) : y.apart x := .inl (by rw [hx, hy]; simp only [TD_ALIGN, TD_CAL_STAT]; omega)
  have lo : (TD_SWAP_TLO_T_LO g).apart x := .inl (by rw [hx]; simp only [TD_SWAP_TLO_T_LO, TD_SWAP_TLO, TD_CAL_STAT]; omega)
  have hi : (TD_SWAP_THI_T_HI g).apart x := .inl (by rw [hx]; simp only [TD_SWAP_THI_T_HI, TD_SWAP_THI, TD_CAL_STAT]; omega)
  rw [State.swapRegs, State.setTime, State.get_set_apart _ _ _ _ (Fld.inWord_of _ rfl) hi,
    State.get_set_apart _ _ _ _ (Fld.inWord_of _ rfl) lo, State.setInt, State.get_set_apart _ _ _ _ (Fld.inWord_of _ rfl) (align rfl),
    State.setInt, State.get_set_apart _ _ _ _ (Fld.inWord_of _ rfl) (align rfl)]

theorem State.line_swapRegs (s : State) (g p : Nat) (line : Bool) (new old : Int) (now : Time) {q : Nat} (hq : q < 16) :
    (s.swapRegs g p line new old now).lineB g q = (if p = q then line else s.lineB g q) ∧
    (s.swapRegs g p line new old now).bit (TD_CAL_STAT_LIVEMAP g) q = (if p = q then true else s.bit (TD_CAL_STAT_LIVEMAP g) q) := by
  have apart : (TD_CAL_STAT_ACTIVE g).apart (TD_CAL_STAT_LIVEMAP g) := Fld.apart_of _ _ rfl rfl
  rw [State.lineB, State.bit_of_get (s.get_stat_swapRegs g p line new old now rfl), State.bit_of_get (s.get_stat_swapRegs g p line new old now rfl),
    State.bit_setBit_apart _ _ _ _ _ _ (Fld.inWord_of _ rfl) (Fld.apart_symm apart), State.bit_setBit _ _ _ _ _ (Fld.inWord_of _ rfl) hq,
    State.bit_setBit _ _ _ _ _ (Fld.inWord_of _ rfl) hq, State.bit_setBit_apart _ _ _ _ _ _ (Fld.inWord_of _ rfl) apart]
  exact ⟨rfl, rfl⟩

theorem State.align_swapRegs (s : State) (g p : Nat) (line : Bool) (new old : Int) (now : Time) {q : Nat} (hq : q < 16) :
    (s.swapRegs g p line new old now).get (TD_ALIGN_A g q) = if p = q then (new % (2 ^ 16 : Int)).toNat else s.get (TD_ALIGN_A g q) := by
  have stat {y : Fld} (hy : y.reg = TD_CAL_STAT g) : y.apart (TD_ALIGN_A g q) :=
    .inl (by rw [hy]; simp only [TD_ALIGN_A, TD_ALIGN, TD_CAL_STAT]; omega)
  have lo : (TD_SWAP_TLO_T_LO g).apart (TD_ALIGN_A g q) := .inl (by simp only [TD_SWAP_TLO_T_LO, TD_SWAP_TLO, TD_ALIGN_A, TD_ALIGN]; omega)
  have hi : (TD_SWAP_THI_T_HI g).apart (TD_ALIGN_A g q) := .inl (by simp only [TD_SWAP_THI_T_HI, TD_SWAP_THI, TD_ALIGN_A, TD_ALIGN]; omega)
  rw [State.swapRegs, State.setTime, State.get_set_apart _ _ _ _ (Fld.inWord_of _ rfl) hi,
    State.get_set_apart _ _ _ _ (Fld.inWord_of _ rfl) lo, State.setInt]
  by_cases e : p = q
  · subst e
    rw [State.get_set_apart _ _ (TD_ALIGN_A g p) _ (Fld.inWord_of _ rfl) (Fld.apart_of (TD_ALIGN_DA g p) _ rfl rfl), State.setInt,
      State.get_set _ _ _ (Fld.inWord_of _ rfl), if_pos rfl]
    refine Nat.mod_eq_of_lt ?_
    simp only [TD_ALIGN_A]
    omega
  · have other {y : Fld} (hy : y.reg = TD_ALIGN g p) : y.apart (TD_ALIGN_A g q) :=
      .inl (by rw [hy]; simp only [TD_ALIGN_A, TD_ALIGN]; omega)
    rw [State.get_set_apart _ _ _ _ (Fld.inWord_of _ rfl) (other rfl), State.setInt,
      State.get_set_apart _ _ _ _ (Fld.inWord_of _ rfl) (other rfl), State.setBit,
      State.get_set_apart _ _ _ _ (Fld.inWord_of _ rfl) (stat rfl), State.setBit,
      State.get_set_apart _ _ _ _ (Fld.inWord_of _ rfl) (stat rfl), if_neg e]

theorem State.swapTime_swapRegs (s : State) (g p : Nat) (line : Bool) (new old : Int) (now : Time) :
    (s.swapRegs g p line new old now).swapTime g = now :=
  State.getTime_setTime _ _ _ _ (Fld.inWord_of _ rfl) (Fld.inWord_of _ rfl)
    (.inl (by simp only [TD_SWAP_TLO_T_LO, TD_SWAP_TLO, TD_SWAP_THI_T_HI, TD_SWAP_THI]; omega)) rfl rfl

theorem State.skip_swapRegs (s : State) (g p : Nat) (line : Bool) (new old : Int) (now : Time) :
    (s.swapRegs g p line new old now).get (TD_FLAGS_SWAP_SKIP g) = s.get (TD_FLAGS_SWAP_SKIP g) := by
  have away {y : Fld} {a : Nat} (hy : y.reg.addr = groupBase g + a) (h : 0x7000 < a) : y.apart (TD_FLAGS_SWAP_SKIP g) :=
    .inl (by rw [hy]; simp only [TD_FLAGS_SWAP_SKIP, TD_FLAGS]; omega)
  have align {y : Fld} (hy : y.reg = TD_ALIGN g p) : y.apart (TD_FLAGS_SWAP_SKIP g) :=
    away (a := 0x7180 + 4 * p) (by rw [hy]; exact Nat.add_assoc ..) (by omega)
  rw [State.swapRegs, State.setTime, State.get_set_apart _ _ _ _ (Fld.inWord_of _ rfl) (away (a := 0x701C) rfl (by decide)),
    State.get_set_apart _ _ _ _ (Fld.inWord_of _ rfl) (away (a := 0x7018) rfl (by decide)), State.setInt,
    State.get_set_apart _ _ _ _ (Fld.inWord_of _ rfl) (align rfl), State.setInt,
    State.get_set_apart _ _ _ _ (Fld.inWord_of _ rfl) (align rfl), State.setBit,
    State.get_set_apart _ _ _ _ (Fld.inWord_of _ rfl) (away (a := 0x7014) rfl (by decide)), State.setBit,
    State.get_set_apart _ _ _ _ (Fld.inWord_of _ rfl) (away (a := 0x7014) rfl (by decide))]

theorem State.chan_swapRegs (s : State) (g p : Nat) (line : Bool) (new old : Int) (now : Time) (k q : Nat) :
    (s.swapRegs g p line new old now).chan k q = s.chan k q :=
  State.chan_congr ((Frame.swapRegs s g p line new old now).part .groups (by simp)) k q

/-- The TDC of a channel after a swap. -/
def State.swappedTdc (s : State) (g p : Nat) : Tdc :=
  { s.passBase g p with passDone := false, passFailed := false, swapAt := some s.time }

theorem State.swapLine_of_done {s : State} {g p : Nat} (h : (s.tdc g p).passDone) : ∃ x u old,
    x.passDone = false ∧ u = s.setTdc g p x ∧ s.swapLine g p =
      u.swapRegs g p (!u.lineB g p) (if s.lineB g p then (s.tdc g p).shiftA else (s.tdc g p).shiftB) old u.time := by
  refine ⟨s.swappedTdc g p, _, if s.lineB g p then (s.tdc g p).shiftB else (s.tdc g p).shiftA, rfl, rfl, ?_⟩
  unfold State.swapLine State.swapRegs State.swappedTdc State.passBase
  dsimp only
  rw [if_pos h]
  rw [State.setBit_time, State.setBit_time]

theorem State.swapLine_step (s : State) {g p : Nat} (hg : g < 32) (hp : p < 16) : SwapStep s (s.swapLine g p) g p := by
  by_cases pass : (s.tdc g p).passDone
  · obtain ⟨x, u, old, off, hu, whole⟩ := State.swapLine_of_done pass
    have moved : Frame s u [.groups] (swapField g) := hu ▸ Frame.setTdc ..
    have gets (y : Fld) : u.get y = s.get y := hu ▸ State.get_setChan ..
    have lines (q : Nat) : u.lineB g q = s.lineB g q := State.bit_of_get (gets _) q
    have chans (q : Nat) (h : p ≠ q) : u.chan g q = s.chan g q := hu ▸ State.chan_setChan_ne s _ fun e => h e.2
    have here : u.tdc g p = x := hu ▸ State.tdc_setTdc s x hg hp
    have time : u.time = s.time := moved.part .time (by simp)
    rw [whole, lines, time]
    refine ⟨fun q h => ?_, fun q hq h => ?_, fun q hq h => ?_, fun q hq h => ?_, fun _ => State.swapTime_swapRegs .., fun h => ?_,
      moved.trans ((Frame.swapRegs ..).mono (by simp) fun _ => id), fun _ => ⟨?_, ?_, ?_, ?_, State.swapTime_swapRegs ..⟩,
      fun h => absurd pass (by rw [h]; decide)⟩
    · rw [State.chan_swapRegs, chans q h]
    · rw [(u.line_swapRegs g p _ _ _ _ hq).1, if_neg h, lines]
    · rw [(u.line_swapRegs g p _ _ _ _ hq).2, State.bit_of_get (gets _)]
      split
      · rfl
      · exact h
    · rw [u.align_swapRegs g p _ _ _ _ hq, if_neg h, gets]
    · rw [State.skip_swapRegs, gets, h]
    · rw [(u.line_swapRegs g p _ _ _ _ hp).1, if_pos rfl]
    · rw [(u.line_swapRegs g p _ _ _ _ hp).2, if_pos rfl]
    · rw [State.tdc, State.chan_swapRegs]
      exact (congrArg Tdc.passDone here).trans off
    · rw [u.align_swapRegs g p _ _ _ _ hp, if_pos rfl]
      exact Int.toNat_of_nonneg (Int.emod_nonneg _ (by decide))
  · by_cases failed : (s.tdc g p).passFailed
    · have whole : s.swapLine g p = s.flag (TD_FLAGS_SWAP_SKIP g) (TD_CNT0_SWAP_SKIP g) := by
        unfold State.swapLine
        dsimp only
        rw [if_neg pass, if_pos failed]
      have split_ : (TD_CNT0_SWAP_SKIP g).apart (TD_FLAGS_SWAP_SKIP g) :=
        .inl (by simp only [TD_CNT0_SWAP_SKIP, TD_CNT0, TD_FLAGS_SWAP_SKIP, TD_FLAGS]; omega)
      have away {x : Fld} {a : Nat} (hx : x.reg.addr = groupBase g + a) (h : 0x7004 < a) :
          (s.flag (TD_FLAGS_SWAP_SKIP g) (TD_CNT0_SWAP_SKIP g)).get x = s.get x :=
        State.get_flag_apart _ _ _ _ (Fld.inWord_of _ rfl) (Fld.inWord_of _ rfl)
          (.inl (by rw [hx]; simp only [TD_FLAGS_SWAP_SKIP, TD_FLAGS]; omega)) (.inl (by rw [hx]; simp only [TD_CNT0_SWAP_SKIP, TD_CNT0]; omega))
      have raised : (s.flag (TD_FLAGS_SWAP_SKIP g) (TD_CNT0_SWAP_SKIP g)).get (TD_FLAGS_SWAP_SKIP g) = 1 :=
        State.get_flag _ _ _ (Fld.inWord_of _ rfl) (Fld.inWord_of _ rfl) split_ rfl
      have lines (q : Nat) : (s.flag (TD_FLAGS_SWAP_SKIP g) (TD_CNT0_SWAP_SKIP g)).lineB g q = s.lineB g q :=
        State.bit_of_get (away (a := 0x7014) rfl (by decide)) q
      rw [whole]
      refine ⟨fun q _ => State.chan_congr (State.flag_groups ..) g q, fun q _ _ => lines q,
        fun q _ h => (State.bit_of_get (away (a := 0x7014) rfl (by decide)) q).trans h,
        fun q _ _ => away (a := 0x7180 + 4 * q) (Nat.add_assoc ..) (by omega),
        fun h => (State.getTime_congr (away (a := 0x7018) rfl (by decide)) (away (a := 0x701C) rfl (by decide))).trans h, fun _ => raised,
        Frame.flag _ _ _ _ _ (Fld.inWord_of _ rfl) (Fld.inWord_of _ rfl) (.inr (.inr (.inr (.inr (.inl rfl)))))
          (.inr (.inr (.inr (.inr (.inr rfl))))), fun h => absurd h pass, fun _ _ => ⟨lines p, raised⟩⟩
    · have whole : s.swapLine g p = s := by
        unfold State.swapLine
        dsimp only
        rw [if_neg pass, if_neg failed]
      rw [whole]
      exact ⟨fun _ _ => rfl, fun _ _ _ => rfl, fun _ _ h => h, fun _ _ _ => rfl, fun h => h, fun h => h, Frame.refl .., fun h => absurd h pass,
        fun _ h => absurd h failed⟩

/-- What the swap instant establishes of a channel. -/
def SwapSet (s t : State) (g p : Nat) : Prop :=
  ((s.tdc g p).passDone → Swapped s t g p) ∧
  ((s.tdc g p).passDone = false → (s.tdc g p).passFailed → t.lineB g p = s.lineB g p ∧ t.get (TD_FLAGS_SWAP_SKIP g) = 1)

theorem State.swapAll_sets (s : State) {g : Nat} (hg : g < 32) :
    Frame s (s.forEach (List.range 16) fun s p => s.swapLine g p) [.groups] (swapField g) ∧
    ∀ p ∈ List.range 16, SwapSet s (s.forEach (List.range 16) fun s p => s.swapLine g p) g p := by
  refine foldl_each (fun u p => State.swapLine u g p) (fun u => Frame s u [.groups] (swapField g))
    (fun p u => u.chan g p = s.chan g p ∧ u.lineB g p = s.lineB g p) (fun p u => SwapSet s u g p) _ List.nodup_range
    (fun u hu p hp ⟨same, line⟩ => ?_) (fun u hu p hp _ q hq ne => ?_) s (Frame.refl ..) fun _ _ => ⟨rfl, rfl⟩
  · have step := u.swapLine_step hg (List.mem_range.1 hp)
    have tdc : u.tdc g p = s.tdc g p := congrArg Chan.tdc same
    refine ⟨hu.trans step.frame, fun pass => ?_, fun pass failed => ?_⟩
    · obtain ⟨one, two, three, four, five⟩ := step.swap (by rw [tdc]; exact pass)
      rw [line] at one four
      rw [tdc] at four
      exact ⟨one, two, three, four, five.trans (hu.part .time (by simp))⟩
    · obtain ⟨kept, flag⟩ := step.skip (by rw [tdc]; exact pass) (by rw [tdc]; exact failed)
      exact ⟨kept.trans line, flag⟩
  · have step := u.swapLine_step hg (List.mem_range.1 hp)
    have small := List.mem_range.1 hq
    refine ⟨fun ⟨same, line⟩ => ⟨(step.chans q ne).trans same, (step.lines q small ne).trans line⟩, fun ⟨swap, skip⟩ =>
      ⟨fun pass => ?_, fun pass failed => ?_⟩⟩
    · obtain ⟨one, two, three, four, five⟩ := swap pass
      have now : u.time = s.time := hu.part .time (by simp)
      refine ⟨(step.lines q small ne).trans one, step.lives q small two, ?_, (congrArg Int.ofNat (step.aligns q small ne)).trans four, ?_⟩
      · rw [State.tdc, step.chans q ne]
        exact three
      · rw [step.time (five.trans now.symm), now]
    · obtain ⟨kept, flag⟩ := skip pass failed
      exact ⟨(step.lines q small ne).trans kept, step.flag flag⟩

theorem State.tdcSwap_runs {s : State} (g : GroupIx) (p : Pos) (due : s.time.toNat % 2 ^ (30 + s.get (TD_CAL_CTL_SWSH g)) = 0)
    (open_ : s.on (TD_CAL_CTL_FREEZE g) = false) : RunsTo (exec (.tdcSwap g) s) fun t =>
      ((s.tdc g p).passDone →
        t.lineB g p = !s.lineB g p ∧ t.bit (TD_CAL_STAT_LIVEMAP g) p ∧ (t.tdc g p).passDone = false ∧
        (t.get (TD_ALIGN_A g p) : Int) = (if s.lineB g p then (s.tdc g p).shiftA else (s.tdc g p).shiftB) % 2 ^ 16 ∧
        t.getTime (TD_SWAP_TLO_T_LO g) (TD_SWAP_THI_T_HI g) = s.time) ∧
      ((s.tdc g p).passDone = false → (s.tdc g p).passFailed →
        t.lineB g p = s.lineB g p ∧ t.get (TD_FLAGS_SWAP_SKIP g) = 1) ∧
      Frame s t [.groups] (fun y => y.reg = TD_CAL_STAT g ∨ (∃ q, y.reg = TD_ALIGN g q) ∨ y.reg = TD_SWAP_TLO g ∨
        y.reg = TD_SWAP_THI g ∨ y = TD_FLAGS_SWAP_SKIP g ∨ y = TD_CNT0_SWAP_SKIP g) := by
  have acts : s.swapInstant g s.time = true := by
    rw [State.swapInstant, decide_eq_true due, open_]
    rfl
  have ran : exec (.tdcSwap g) s = done s (s.forEach (List.range 16) fun s p => s.swapLine g p) := doneIf_pos acts ..
  obtain ⟨frame, each⟩ := s.swapAll_sets g.isLt
  obtain ⟨swap, skip⟩ := each p (List.mem_range.2 p.isLt)
  rw [ran]
  generalize (s.forEach (List.range 16) fun s p => s.swapLine g p) = u at frame swap skip
  have stat {x : Fld} (h : x.reg = TD_CAL_STAT g) : x.reg.notPba := TG_DSK_notPba (a := 0x7014) (by rw [h]; rfl)
  have line : (settle s u).lineB g p = u.lineB g p := State.bit_of_get (get_settle _ _ _ (stat rfl)) p
  refine runsTo_done _ _ _ ⟨fun pass => ?_, fun pass failed => ?_, frame.trans (Frame.settle ..)⟩
  · obtain ⟨one, two, three, four, five⟩ := swap pass
    rw [line, State.bit_of_get (get_settle _ _ _ (stat rfl)), tdc_settle,
      get_settle _ _ _ (TG_DSK_notPba (a := 0x7180 + 4 * p) (Nat.add_assoc ..)),
      getTime_settle _ _ _ _ (TG_DSK_notPba (a := 0x7018) rfl) (TG_DSK_notPba (a := 0x701C) rfl)]
    exact ⟨one, two, three, four, five⟩
  · rw [line, get_settle _ _ _ (TG_DSK_notPba (a := 0x7000) rfl)]
    exact skip pass failed

/-- Settles O18: a pass gives the standby line its table and shift (`State.refMean_near`) or fails, and a swap instant swaps
the lines that have passed. -/
theorem tdcCalibration : Obligations.TdcCalibration := by
  unfold Obligations.TdcCalibration
  exact ⟨fun _ g p _ _ => State.calPassed_runs g p, fun _ g p _ _ => State.calFailed_runs g p, fun _ g p => State.tdcSwap_runs g p⟩

end Sys2Proof.Machine
end

section
/-! Frequency gates and their results (R169, R170). -/

namespace Sys2Proof.Machine

/-! ### Gates begin and end -/

/-- What a gate changes. -/
def gateField (g : Nat) (y : Fld) : Prop := y.reg = FQ_STAT g ∨ y.reg = FQ_GSTART_LO g ∨ y.reg = FQ_GSTART_HI g

/-- A gate that begins at t. -/
def Gate.fresh (t : Time) (gseq : Nat) : Gate :=
  { start := t, stop := none, acc := Vector.replicate 17 .empty, divs := [], abort := false, gseq := gseq, left := [] }

theorem State.gate_settle (s t : State) (g : Nat) : (settle s t).gate g = t.gate g := by rw [State.gate, State.gate, group_settle]

theorem gstart_apart (g : Nat) : (FQ_GSTART_HI_T_HI g).apart (FQ_GSTART_LO_T_LO g) :=
  .inl (by simp only [FQ_GSTART_HI_T_HI, FQ_GSTART_HI, FQ_GSTART_LO_T_LO, FQ_GSTART_LO]; omega)

theorem stat_apart_gstart (g : Nat) {x : Fld} (h : x.reg = FQ_STAT g) :
    (FQ_GSTART_HI_T_HI g).apart x ∧ (FQ_GSTART_LO_T_LO g).apart x :=
  ⟨.inl (by rw [h]; simp only [FQ_GSTART_HI_T_HI, FQ_GSTART_HI, FQ_STAT]; omega),
    .inl (by rw [h]; simp only [FQ_GSTART_LO_T_LO, FQ_GSTART_LO, FQ_STAT]; omega)⟩

/-- What the start of a gate at t establishes. -/
structure GateStarted (s u : State) (g : Nat) (t : Time) : Prop where
  gates : (u.group g).gates = Gate.fresh t ((s.get (FQ_STAT_GSEQ g) + 1) % 65536) :: (s.group g).gates
  isOpen : u.get (FQ_STAT_OPEN g) = 1
  gseq : u.get (FQ_STAT_GSEQ g) = (s.get (FQ_STAT_GSEQ g) + 1) % 65536
  start : u.getTime (FQ_GSTART_LO_T_LO g) (FQ_GSTART_HI_T_HI g) = t
  frame : Frame s u [.groups] (gateField g)

theorem GateStarted.gate {s u : State} {g : Nat} {t : Time} (h : GateStarted s u g t) :
    u.gate g = some (Gate.fresh t ((s.get (FQ_STAT_GSEQ g) + 1) % 65536)) := by
  rw [State.gate, h.gates]
  rfl

theorem State.gateStartAt_sets {s : State} {g : Nat} (t : Time) (hg : g < 32) (none_ : s.gate g = none) :
    GateStarted s (s.gateStartAt g t) g t := by
  have gseq : ((s.set (FQ_STAT_OPEN g) 1).incr (FQ_STAT_GSEQ g)).get (FQ_STAT_GSEQ g) = (s.get (FQ_STAT_GSEQ g) + 1) % 65536 := by
    rw [State.incr, State.get_set _ _ _ (Fld.inWord_of _ rfl),
      State.get_set_apart _ _ (FQ_STAT_GSEQ g) _ (Fld.inWord_of _ rfl) (Fld.apart_of (FQ_STAT_OPEN g) _ rfl rfl)]
    rfl
  have isOpen : ((s.set (FQ_STAT_OPEN g) 1).incr (FQ_STAT_GSEQ g)).get (FQ_STAT_OPEN g) = 1 := by
    rw [State.incr, State.get_set_apart _ _ (FQ_STAT_OPEN g) _ (Fld.inWord_of _ rfl) (Fld.apart_of (FQ_STAT_GSEQ g) _ rfl rfl),
      State.get_set _ _ _ (Fld.inWord_of _ rfl)]
    rfl
  have counted : Frame s ((s.set (FQ_STAT_OPEN g) 1).incr (FQ_STAT_GSEQ g)) [] (gateField g) :=
    (Frame.set _ _ _ _ _ (Fld.inWord_of _ rfl) (.inl rfl)).trans (Frame.incr _ _ _ _ (Fld.inWord_of _ rfl) (.inl rfl))
  have same : ((s.set (FQ_STAT_OPEN g) 1).incr (FQ_STAT_GSEQ g)).group g = s.group g :=
    State.group_congr (counted.part .groups (by simp)) g
  rw [State.gateStartAt, none_]
  dsimp only
  rw [if_neg (by decide), gseq]
  generalize (s.set (FQ_STAT_OPEN g) 1).incr (FQ_STAT_GSEQ g) = u at *
  obtain ⟨hi, lo⟩ := stat_apart_gstart g (x := FQ_STAT_OPEN g) rfl
  obtain ⟨hi', lo'⟩ := stat_apart_gstart g (x := FQ_STAT_GSEQ g) rfl
  have timed (v : State) : Frame v (v.setTime (FQ_GSTART_LO_T_LO g) (FQ_GSTART_HI_T_HI g) t) [] (gateField g) :=
    Frame.setTime _ _ _ _ _ _ (Fld.inWord_of _ rfl) (Fld.inWord_of _ rfl) (.inr (.inl rfl)) (.inr (.inr rfl))
  refine ⟨?_, ?_, ?_, State.getTime_setTime _ _ _ _ (Fld.inWord_of _ rfl) (Fld.inWord_of _ rfl) (gstart_apart g) rfl rfl,
    ((counted.mono (by simp) fun _ => id).trans (Frame.setGroup _ _ _ _ _ (by simp))).trans ((timed _).mono (by simp) fun _ => id)⟩
  · rw [State.group_congr ((timed _).part .groups (by simp)), State.group_setGroup _ _ _ hg, same]
    rfl
  · rw [State.setTime, State.get_set_apart _ _ _ _ (Fld.inWord_of _ rfl) hi, State.get_set_apart _ _ _ _ (Fld.inWord_of _ rfl) lo,
      State.get_setGroup, isOpen]
  · rw [State.setTime, State.get_set_apart _ _ _ _ (Fld.inWord_of _ rfl) hi', State.get_set_apart _ _ _ _ (Fld.inWord_of _ rfl) lo',
      State.get_setGroup, gseq]

/-- An open gate as it ends. -/
def Gate.ended (x : Gate) (divs : List Nat) (abort : Bool) (t : Time) : Gate :=
  if x.stop.isNone then { x with stop := some t, divs := divs, abort := abort, left := List.range 17 } else x

/-- The state with the open gate ended. -/
def State.gateClosed (s : State) (g : Nat) (abort : Bool) (t : Time) : State :=
  (s.setGroup g { s.group g with gates := (s.group g).gates.map fun x => x.ended (s.fqDivisors g) abort t }).set (FQ_STAT_OPEN g) 0

theorem State.gateStopAt_of_open {s : State} {g : Nat} {x : Gate} (abort : Bool) (t : Time) (open_ : s.gate g = some x) :
    s.gateStopAt g abort t = if (s.gateClosed g abort t).on (FQ_CTL_REPEAT g) then (s.gateClosed g abort t).gateStartAt g t
      else s.gateClosed g abort t := by
  rw [State.gateStopAt, open_]
  rfl

/-- What the end of a gate at t establishes, whether or not the next one begins there. -/
structure GateStopped (s u : State) (g : Nat) (x : Gate) (abort : Bool) (t : Time) : Prop where
  next : (u.gate g).map (·.start) = if s.on (FQ_CTL_REPEAT g) then some t else none
  isOpen : u.get (FQ_STAT_OPEN g) = s.get (FQ_CTL_REPEAT g)
  past : ∃ d ∈ (u.group g).gates, d.abort = abort ∧ d.stop = some t ∧ d.start = x.start ∧ d.gseq = x.gseq ∧ d.acc = x.acc
  frame : Frame s u [.groups] (gateField g)

theorem State.gateClosed_sets {s : State} {g : Nat} (abort : Bool) (t : Time) (hg : g < 32) :
    (s.gateClosed g abort t).gate g = none ∧ ((s.gateClosed g abort t).group g).gates =
      (s.group g).gates.map (fun x => x.ended (s.fqDivisors g) abort t) ∧ (s.gateClosed g abort t).get (FQ_STAT_OPEN g) = 0 ∧
    (s.gateClosed g abort t).get (FQ_CTL_REPEAT g) = s.get (FQ_CTL_REPEAT g) ∧ Frame s (s.gateClosed g abort t) [.groups] (gateField g) := by
  have gates : ((s.gateClosed g abort t).group g).gates = (s.group g).gates.map (fun x => x.ended (s.fqDivisors g) abort t) :=
    congrArg Group.gates (State.group_setGroup _ _ _ hg)
  refine ⟨?_, gates, ?_, ?_, (Frame.setGroup _ _ _ _ _ (by simp)).trans (Frame.set _ _ _ _ _ (Fld.inWord_of _ rfl) (.inl rfl))⟩
  · rw [State.gate, gates, List.find?_eq_none]
    intro d hd
    obtain ⟨x, -, rfl⟩ := List.mem_map.1 hd
    unfold Gate.ended
    split
    · exact Bool.false_ne_true
    · next h => exact h
  · rw [State.gateClosed, State.get_set _ _ _ (Fld.inWord_of _ rfl), Nat.zero_mod]
  · rw [State.gateClosed, State.get_set_apart _ _ _ _ (Fld.inWord_of _ rfl)
      (.inl (by simp only [FQ_STAT_OPEN, FQ_STAT, FQ_CTL_REPEAT, FQ_CTL]; omega)), State.get_setGroup]

theorem State.gateStopAt_sets {s : State} {g : Nat} {x : Gate} (abort : Bool) (t : Time) (hg : g < 32) (open_ : s.gate g = some x) :
    GateStopped s (s.gateStopAt g abort t) g x abort t := by
  have mem : x ∈ (s.group g).gates := List.mem_of_find?_eq_some open_
  have running : x.stop.isNone = true := List.find?_some (p := fun d : Gate => d.stop.isNone) open_
  obtain ⟨none_, gates, closed, repeat_, frame⟩ := s.gateClosed_sets abort t hg
  have past : ∃ d ∈ ((s.gateClosed g abort t).group g).gates,
      d.abort = abort ∧ d.stop = some t ∧ d.start = x.start ∧ d.gseq = x.gseq ∧ d.acc = x.acc := by
    rw [gates]
    refine ⟨_, List.mem_map_of_mem mem, ?_⟩
    rw [Gate.ended, if_pos running]
    exact ⟨rfl, rfl, rfl, rfl, rfl⟩
  have same : (s.gateClosed g abort t).on (FQ_CTL_REPEAT g) = s.on (FQ_CTL_REPEAT g) := State.on_of_get repeat_
  rw [State.gateStopAt_of_open abort t open_, same]
  generalize s.gateClosed g abort t = u at *
  have bit : s.get (FQ_CTL_REPEAT g) < 2 := s.get_lt _
  by_cases on : s.on (FQ_CTL_REPEAT g)
  · have started := State.gateStartAt_sets t hg none_
    have one : s.get (FQ_CTL_REPEAT g) = 1 := by
      have nonzero : s.get (FQ_CTL_REPEAT g) ≠ 0 := by simpa [State.on] using on
      omega
    rw [if_pos on]
    refine ⟨?_, started.isOpen.trans one.symm, ?_, frame.trans started.frame⟩
    · rw [started.gate, if_pos on]
      rfl
    · rw [started.gates]
      obtain ⟨d, hd, rest⟩ := past
      exact ⟨d, List.mem_cons_of_mem _ hd, rest⟩
  · have zero : s.get (FQ_CTL_REPEAT g) = 0 := by
      by_contra nonzero
      exact on (by simpa [State.on] using nonzero)
    rw [if_neg on]
    refine ⟨?_, closed.trans zero.symm, past, frame⟩
    rw [none_, if_neg on]
    rfl

/-! ### Writes of FQ_CTL, and the end of a gate -/

theorem State.gateNow_of_gate_none {s : State} {g : Nat} (h : s.gate g = none) : s.gateNow g = s := by rw [State.gateNow, h]

theorem State.gateNow_of_running {s : State} {g : Nat} {x : Gate} (open_ : s.gate g = some x)
    (early : reached s.time (later x.start (usTclk (s.get (FQ_GATE_GATE g)))) = false) : s.gateNow g = s := by
  rw [State.gateNow, open_]
  dsimp only
  rw [State.gateDue, open_]
  dsimp only
  rw [early]
  rfl

/-- REPEAT stored. -/
def State.fqStored (s : State) (g : Nat) (v : Word) : State := s.set (FQ_CTL_REPEAT g) (fieldOf v 0 0)

/-- What a write of FQ_CTL changes. -/
def gateWriteField (g : Nat) (y : Fld) : Prop :=
  y.reg = FQ_STAT g ∨ y.reg = FQ_GSTART_LO g ∨ y.reg = FQ_GSTART_HI g ∨ y = FQ_CTL_REPEAT g

theorem gateWriteField_of {g : Nat} {y : Fld} (h : gateField g y) : gateWriteField g y := h.imp id (.imp id .inl)

theorem State.fqStored_sets (s : State) (g : Nat) (v : Word) : (s.fqStored g v).get (FQ_CTL_REPEAT g) = v.toNat % 2 ∧
    (∀ x : Fld, (FQ_CTL_REPEAT g).apart x → (s.fqStored g v).get x = s.get x) ∧ (s.fqStored g v).gate g = s.gate g ∧
    Frame s (s.fqStored g v) [.groups] (gateWriteField g) := by
  refine ⟨?_, fun x h => State.get_set_apart _ _ _ _ (Fld.inWord_of _ rfl) h, rfl,
    Frame.set _ _ _ _ _ (Fld.inWord_of _ rfl) (.inr (.inr (.inr rfl)))⟩
  rw [State.fqStored, State.get_set _ _ _ (Fld.inWord_of _ rfl), fieldOf, Nat.pow_zero, Nat.div_one]
  exact Nat.mod_mod _ 2

theorem exec_gateStartWrite {s : State} (g : GroupIx) {v : Word} (now : s.actsNow) (start : v.getLsbD 31) :
    exec (.gateStartWrite g v) s = done s (s.writeFqCtl g v) := by
  have acts : (fieldOf v 31 31 == 1) = true := by rw [fieldOf_of_bit start]; rfl
  rw [← State.mirrored_actsNow s (FQ_CTL g).addr v (fun s => s.writeFqCtl g v) now]
  exact doneIf_pos acts ..

theorem exec_gateStopWrite {s : State} (g : GroupIx) {v : Word} (now : s.actsNow) (stop : v.getLsbD 30) :
    exec (.gateStopWrite g v) s = done s (s.writeFqCtl g v) := by
  have acts : (fieldOf v 30 30 == 1) = true := by rw [fieldOf_of_bit stop]; rfl
  rw [← State.mirrored_actsNow s (FQ_CTL g).addr v (fun s => s.writeFqCtl g v) now]
  exact doneIf_pos acts ..

theorem State.writeFqCtl_start {s : State} {g : Nat} {v : Word} (start : v.getLsbD 31) (still : v.getLsbD 30 = false) :
    s.writeFqCtl g v = (s.fqStored g v).gateStart g := by
  unfold State.writeFqCtl
  dsimp only
  rw [fieldOf_of_bit start, fieldOf_of_not_bit still]
  rfl

theorem State.writeFqCtl_stop {s : State} {g : Nat} {v : Word} (stop : v.getLsbD 30) (only : v.getLsbD 31 = false) :
    s.writeFqCtl g v = (s.fqStored g v).gateStop g true := by
  unfold State.writeFqCtl
  dsimp only
  rw [fieldOf_of_bit stop, fieldOf_of_not_bit only]
  rfl

theorem State.gateStart_runs {s : State} (g : GroupIx) {v : Word} (now : s.actsNow) (start : v.getLsbD 31)
    (still : v.getLsbD 30 = false) (none_ : s.gate g = none) : RunsTo (exec (.gateStartWrite g v) s) fun t =>
      (∃ x, t.gate g = some x ∧ x.start = s.time ∧ x.gseq = (s.get (FQ_STAT_GSEQ g) + 1) % 65536 ∧
        x.acc = Vector.replicate 17 .empty) ∧ t.get (FQ_STAT_OPEN g) = 1 ∧
      t.get (FQ_STAT_GSEQ g) = (s.get (FQ_STAT_GSEQ g) + 1) % 65536 ∧ t.get (FQ_CTL_REPEAT g) = v.toNat % 2 ∧
      t.getTime (FQ_GSTART_LO_T_LO g) (FQ_GSTART_HI_T_HI g) = s.time ∧
      Frame s t [.groups] (fun y => y.reg = FQ_STAT g ∨ y.reg = FQ_GSTART_LO g ∨ y.reg = FQ_GSTART_HI g
        ∨ y = FQ_CTL_REPEAT g) := by
  obtain ⟨repeat_, gets, gate, stored⟩ := s.fqStored_sets g v
  rw [exec_gateStartWrite g now start, State.writeFqCtl_start start still, State.gateStart,
    State.gateNow_of_gate_none (gate.trans none_), show (s.fqStored g v).time = s.time from stored.part .time (by simp)]
  have gseq : (s.fqStored g v).get (FQ_STAT_GSEQ g) = s.get (FQ_STAT_GSEQ g) :=
    gets _ (.inl (by simp only [FQ_STAT_GSEQ, FQ_STAT, FQ_CTL_REPEAT, FQ_CTL]; omega))
  generalize s.fqStored g v = u at *
  have started := State.gateStartAt_sets s.time g.isLt (gate.trans none_)
  rw [← gseq]
  have kept : (u.gateStartAt g s.time).get (FQ_CTL_REPEAT g) = u.get (FQ_CTL_REPEAT g) := by
    refine started.frame.reg _ (TG_DSK_notPba (a := 0x800C) rfl) fun y hy => .inl ?_
    rcases hy with h | h | h
    · rw [h]; simp only [FQ_STAT, FQ_CTL_REPEAT, FQ_CTL]; omega
    · rw [h]; simp only [FQ_GSTART_LO, FQ_CTL_REPEAT, FQ_CTL]; omega
    · rw [h]; simp only [FQ_GSTART_HI, FQ_CTL_REPEAT, FQ_CTL]; omega
  generalize u.gateStartAt g s.time = w at started kept
  refine runsTo_done _ _ _ ⟨⟨Gate.fresh s.time ((u.get (FQ_STAT_GSEQ g) + 1) % 65536), ?_, rfl, rfl, rfl⟩, ?_, ?_, ?_, ?_,
    (stored.trans (started.frame.mono (fun _ => id) fun _ => gateWriteField_of)).trans (Frame.settle ..)⟩
  · rw [State.gate_settle, started.gate]
  · rw [get_settle _ _ _ (TG_DSK_notPba (a := 0x8014) rfl), started.isOpen]
  · rw [get_settle _ _ _ (TG_DSK_notPba (a := 0x8014) rfl), started.gseq]
  · rw [get_settle _ _ _ (TG_DSK_notPba (a := 0x800C) rfl), kept, repeat_]
  · rw [getTime_settle _ _ _ _ (TG_DSK_notPba (a := 0x8018) rfl) (TG_DSK_notPba (a := 0x801C) rfl), started.start]

theorem State.gateStop_runs {s : State} (g : GroupIx) {v : Word} {x : Gate} (now : s.actsNow) (stop : v.getLsbD 30)
    (only : v.getLsbD 31 = false) (open_ : s.gate g = some x)
    (early : reached s.time (later x.start (usTclk (s.get (FQ_GATE_GATE g)))) = false) :
    RunsTo (exec (.gateStopWrite g v) s) fun t =>
      ((t.gate g).map (·.start)) = (if v.getLsbD 0 then some s.time else none) ∧
      t.get (FQ_STAT_OPEN g) = v.toNat % 2 ∧
      (∃ d ∈ (t.group g).gates, d.abort ∧ d.stop = some s.time ∧ d.start = x.start ∧ d.gseq = x.gseq ∧ d.acc = x.acc) ∧
      Frame s t [.groups] (fun y => y.reg = FQ_STAT g ∨ y.reg = FQ_GSTART_LO g ∨ y.reg = FQ_GSTART_HI g
        ∨ y = FQ_CTL_REPEAT g) := by
  obtain ⟨repeat_, gets, gate, stored⟩ := s.fqStored_sets g v
  have time : (s.fqStored g v).time = s.time := stored.part .time (by simp)
  have length : (s.fqStored g v).get (FQ_GATE_GATE g) = s.get (FQ_GATE_GATE g) :=
    gets _ (.inl (by simp only [FQ_GATE_GATE, FQ_GATE, FQ_CTL_REPEAT, FQ_CTL]; omega))
  have on : (s.fqStored g v).on (FQ_CTL_REPEAT g) = v.getLsbD 0 := by
    rw [State.on, repeat_, BitVec.getLsbD, Nat.testBit_zero, bne, Bool.eq_iff_iff]
    simp
  rw [exec_gateStopWrite g now stop, State.writeFqCtl_stop stop only, State.gateStop,
    State.gateNow_of_running (gate.trans open_) (by rw [time, length]; exact early), time]
  generalize s.fqStored g v = u at *
  have stopped := State.gateStopAt_sets true s.time g.isLt (gate.trans open_)
  generalize u.gateStopAt g true s.time = w at stopped
  refine runsTo_done _ _ _ ⟨?_, ?_, ?_, (stored.trans (stopped.frame.mono (fun _ => id) fun _ => gateWriteField_of)).trans (Frame.settle ..)⟩
  · rw [State.gate_settle, stopped.next, on]
  · rw [get_settle _ _ _ (TG_DSK_notPba (a := 0x8014) rfl), stopped.isOpen, repeat_]
  · rw [group_settle]
    exact stopped.past

/-- A TCLK less than n before is not reached n later. -/
theorem reached_later_of_since {now e : Time} {n : Nat} (soon : (now - e).toNat < n) (small : n < 2 ^ 55) :
    reached now (later e n) = false := by
  unfold reached later
  have wide : (now - (e + BitVec.ofNat 56 n)).toNat = (now - e).toNat + 2 ^ 56 - n := by
    rw [sub_add_eq_sub_sub, BitVec.toNat_sub, BitVec.toNat_ofNat, Nat.mod_eq_of_lt (by omega : n < 2 ^ 56)]
    omega
  rw [wide]
  exact decide_eq_false (by omega)

theorem State.gateNow_of_due {s : State} {g : Nat} {x : Gate} (hg : g < 32) (open_ : s.gate g = some x)
    (due : reached s.time (later x.start (usTclk (s.get (FQ_GATE_GATE g)))))
    (soon : s.since (later x.start (usTclk (s.get (FQ_GATE_GATE g)))) < usTclk (s.get (FQ_GATE_GATE g))) :
    s.gateNow g = s.gateStopAt g false (later x.start (usTclk (s.get (FQ_GATE_GATE g)))) := by
  have stopped := State.gateStopAt_sets false (later x.start (usTclk (s.get (FQ_GATE_GATE g)))) hg open_
  have length : (s.gateStopAt g false (later x.start (usTclk (s.get (FQ_GATE_GATE g))))).get (FQ_GATE_GATE g) = s.get (FQ_GATE_GATE g) := by
    refine stopped.frame.reg _ (TG_DSK_notPba (a := 0x8010) rfl) fun y hy => .inl ?_
    rcases hy with h | h | h
    · rw [h]; simp only [FQ_STAT, FQ_GATE_GATE, FQ_GATE]; omega
    · rw [h]; simp only [FQ_GSTART_LO, FQ_GATE_GATE, FQ_GATE]; omega
    · rw [h]; simp only [FQ_GSTART_HI, FQ_GATE_GATE, FQ_GATE]; omega
  have time : (s.gateStopAt g false (later x.start (usTclk (s.get (FQ_GATE_GATE g))))).time = s.time := stopped.frame.part .time (by simp)
  have small : usTclk (s.get (FQ_GATE_GATE g)) < 2 ^ 55 := by
    have bound : s.get (FQ_GATE_GATE g) < 2 ^ 32 := s.get_lt _
    unfold usTclk
    omega
  have next := stopped.next
  rw [State.gateNow, open_]
  dsimp only
  rw [State.gateDue, open_]
  dsimp only
  rw [if_pos due]
  generalize later x.start (usTclk (s.get (FQ_GATE_GATE g))) = e at *
  generalize s.gateStopAt g false e = u at *
  generalize s.since x.start / 1600 = n
  cases n with
  | zero => rfl
  | succ n =>
    rw [State.gateDue]
    cases hu : u.gate g with
    | none => rfl
    | some y =>
      have starts : y.start = e := by
        rw [hu] at next
        split at next
        · exact Option.some.inj next
        · exact nomatch next
      dsimp only
      rw [length, time, starts, if_neg]
      rw [reached_later_of_since soon small]
      exact Bool.false_ne_true

theorem State.gateEnd_runs {s : State} (g : GroupIx) {x : Gate} (open_ : s.gate g = some x)
    (due : reached s.time (later x.start (usTclk (s.get (FQ_GATE_GATE g)))))
    (soon : s.since (later x.start (usTclk (s.get (FQ_GATE_GATE g)))) < usTclk (s.get (FQ_GATE_GATE g))) :
    RunsTo (exec (.gateEnd g) s) fun t =>
      ((t.gate g).map (·.start)) =
        (if s.on (FQ_CTL_REPEAT g) then some (later x.start (usTclk (s.get (FQ_GATE_GATE g)))) else none) ∧
      (∃ d ∈ (t.group g).gates, d.abort = false ∧ d.stop = some (later x.start (usTclk (s.get (FQ_GATE_GATE g)))) ∧
        d.start = x.start ∧ d.gseq = x.gseq ∧ d.acc = x.acc) ∧
      Frame s t [.groups] (fun y => y.reg = FQ_STAT g ∨ y.reg = FQ_GSTART_LO g ∨ y.reg = FQ_GSTART_HI g) := by
  have ran : exec (.gateEnd g) s = done s (s.gateNow g) := rfl
  rw [ran, State.gateNow_of_due g.isLt open_ due soon]
  have stopped := State.gateStopAt_sets false (later x.start (usTclk (s.get (FQ_GATE_GATE g)))) g.isLt open_
  generalize s.gateStopAt g false (later x.start (usTclk (s.get (FQ_GATE_GATE g)))) = w at stopped
  refine runsTo_done _ _ _ ⟨?_, ?_, stopped.frame.trans (Frame.settle ..)⟩
  · rw [State.gate_settle, stopped.next]
  · rw [group_settle]
    exact stopped.past

/-! ### Results -/

/-- The result registers of a source. -/
def State.fqStore (s : State) (g src n gseq stat freq : Nat) : State :=
  ((((s.set (FQ_RF_LO_F_LO g src) (freq % 2 ^ 32)).set (FQ_RF_HI_F_HI g src) (freq / 2 ^ 32)).set (FQ_RN_N g src) n).set
    (FQ_RSTAT_SEQ g src) gseq).set (FQ_RSTAT_STAT g src) stat

/-- The flag of a status. -/
def State.fqMark (s : State) (g stat : Nat) : State :=
  match stat with
  | 3 => s.flag (FQ_FLAGS_FEW g) (FQ_CNT0_FEW g)
  | 2 => s.flag (FQ_FLAGS_ABORT g) (FQ_CNT1_ABORT g)
  | 1 => s.flag (FQ_FLAGS_LOSS g) (FQ_CNT0_LOSS g)
  | _ => s

/-- The records of a result enter ring 3 where its source asks for it. -/
def State.fqSend (s : State) (g src : Nat) (ws : List Native) : State :=
  if (if src = 16 then s.on (FQ_AGE_RING g) else s.on (FQ_CH_RING g src)) then s.ringRecord 3 ws else s

theorem State.fqResult_of {s : State} (g src : Nat) {d : Gate} {a : FqAcc} {div stat freq : Nat} (status : fqStatus a d.abort = stat)
    (value : stat = 3 ∧ freq = 0 ∨ stat ≠ 3 ∧ fqFreq a div = some freq) :
    s.fqResult g src d a div = ((s.fqStore g src (min a.n (2 ^ 32 - 1)) d.gseq stat freq).fqMark g stat).fqSend g src
      (frPair g src stat (d.stop.getD 0) d.gseq freq) := by
  unfold State.fqResult
  dsimp only
  rw [status]
  rcases value with ⟨few, rfl⟩ | ⟨many, slope⟩
  · rw [if_pos few]
    rfl
  · rw [if_neg many, slope]
    rfl

/-- What the records may change. -/
def dropField (y : Fld) : Prop := y = HI_FLAGS_RDROP ∨ y = HI_CNT2_RDROP ∨ y = HI_RING_DROP_DROP 3

theorem Frame.fqSend (s : State) (g src : Nat) (ws : List Native) : Frame s (s.fqSend g src ws) [.hi] dropField := by
  unfold State.fqSend
  generalize (if src = 16 then s.on (FQ_AGE_RING g) else s.on (FQ_CH_RING g src)) = b
  exact Frame.ite _ _ _ _ _ _ (Frame.ringRecord _ _ _ _ _ (by simp) (.inr (.inr rfl)) (.inl rfl) (.inr (.inl rfl))) (Frame.refl ..)

theorem State.get_fqSend (s : State) (g src : Nat) (ws : List Native) {x : Fld} {a : Nat} (hx : x.reg.addr = groupBase g + a) :
    (s.fqSend g src ws).get x = s.get x := by
  refine (Frame.fqSend s g src ws).reg x (TG_DSK_notPba hx) fun y hy => .inl ?_
  rw [hx]
  rcases hy with e | e | e <;> subst e
  · simp only [HI_FLAGS_RDROP, HI_FLAGS, groupBase]; omega
  · simp only [HI_CNT2_RDROP, HI_CNT2, groupBase]; omega
  · simp only [HI_RING_DROP_DROP, HI_RING_DROP, groupBase]; omega

theorem State.get_fqMark (s : State) (g stat : Nat) {x : Fld} {a : Nat} (hx : x.reg.addr = groupBase g + a) (high : 0x8100 ≤ a) :
    (s.fqMark g stat).get x = s.get x := by
  have away {y : Fld} {b : Nat} (hy : y.reg.addr = groupBase g + b) (low : b < 0x8100) : y.apart x := .inl (by rw [hx, hy]; omega)
  unfold State.fqMark
  split
  · exact State.get_flag_apart _ _ _ _ (Fld.inWord_of _ rfl) (Fld.inWord_of _ rfl) (away (b := 0x8000) rfl (by decide))
      (away (b := 0x8004) rfl (by decide))
  · exact State.get_flag_apart _ _ _ _ (Fld.inWord_of _ rfl) (Fld.inWord_of _ rfl) (away (b := 0x8000) rfl (by decide))
      (away (b := 0x8008) rfl (by decide))
  · exact State.get_flag_apart _ _ _ _ (Fld.inWord_of _ rfl) (Fld.inWord_of _ rfl) (away (b := 0x8000) rfl (by decide))
      (away (b := 0x8004) rfl (by decide))
  · rfl

/-- The result registers of a source. -/
def resultReg (g src : Nat) (y : Fld) : Prop :=
  y.reg = FQ_RF_LO g src ∨ y.reg = FQ_RF_HI g src ∨ y.reg = FQ_RN g src ∨ y.reg = FQ_RSTAT g src

/-- What storing a result establishes. -/
structure FqStored (s t : State) (g src n gseq stat freq : Nat) : Prop where
  lo : t.get (FQ_RF_LO_F_LO g src) = freq % 2 ^ 32
  hi : t.get (FQ_RF_HI_F_HI g src) = freq / 2 ^ 32
  count : t.get (FQ_RN_N g src) = n
  seq : t.get (FQ_RSTAT_SEQ g src) = gseq % 16
  stat : t.get (FQ_RSTAT_STAT g src) = stat
  frame : Frame s t [] (resultReg g src)

theorem State.fqStore_sets (s : State) (g src : Nat) {n gseq stat freq : Nat} (hn : n < 2 ^ 32) (hs : stat < 4) (hf : freq < 2 ^ 64) :
    FqStored s (s.fqStore g src n gseq stat freq) g src n gseq stat freq := by
  have apart {x y : Fld} {a b : Nat} (hx : x.reg.addr = groupBase g + a + 0x10 * src) (hy : y.reg.addr = groupBase g + b + 0x10 * src)
      (ne : a ≠ b) : x.apart y := .inl (by rw [hx, hy]; omega)
  have rn {x : Fld} (h : x.reg = FQ_RSTAT g src) {y : Fld} {b : Nat} (hy : y.reg.addr = groupBase g + b + 0x10 * src)
      (ne : 0x810C ≠ b) : x.apart y := apart (by rw [h]; rfl) hy ne
  have seqStat : (FQ_RSTAT_STAT g src).apart (FQ_RSTAT_SEQ g src) := Fld.apart_of _ _ rfl rfl
  unfold State.fqStore
  refine ⟨?_, ?_, ?_, ?_, ?_, ?_⟩
  · rw [State.get_set_apart _ _ _ _ (Fld.inWord_of _ rfl) (rn rfl (b := 0x8100) rfl (by decide)),
      State.get_set_apart _ _ _ _ (Fld.inWord_of _ rfl) (rn rfl (b := 0x8100) rfl (by decide)),
      State.get_set_apart _ _ _ _ (Fld.inWord_of _ rfl) (apart (a := 0x8108) (b := 0x8100) rfl rfl (by decide)),
      State.get_set_apart _ _ _ _ (Fld.inWord_of _ rfl) (apart (a := 0x8104) (b := 0x8100) rfl rfl (by decide)),
      State.get_set _ _ _ (Fld.inWord_of _ rfl)]
    exact Nat.mod_mod _ _
  · rw [State.get_set_apart _ _ _ _ (Fld.inWord_of _ rfl) (rn rfl (b := 0x8104) rfl (by decide)),
      State.get_set_apart _ _ _ _ (Fld.inWord_of _ rfl) (rn rfl (b := 0x8104) rfl (by decide)),
      State.get_set_apart _ _ _ _ (Fld.inWord_of _ rfl) (apart (a := 0x8108) (b := 0x8104) rfl rfl (by decide)),
      State.get_set _ _ _ (Fld.inWord_of _ rfl)]
    exact Nat.mod_eq_of_lt (by simp only [FQ_RF_HI_F_HI]; omega)
  · rw [State.get_set_apart _ _ _ _ (Fld.inWord_of _ rfl) (rn rfl (b := 0x8108) rfl (by decide)),
      State.get_set_apart _ _ _ _ (Fld.inWord_of _ rfl) (rn rfl (b := 0x8108) rfl (by decide)),
      State.get_set _ _ _ (Fld.inWord_of _ rfl)]
    exact Nat.mod_eq_of_lt hn
  · rw [State.get_set_apart _ _ _ _ (Fld.inWord_of _ rfl) seqStat, State.get_set _ _ _ (Fld.inWord_of _ rfl)]
    rfl
  · rw [State.get_set _ _ _ (Fld.inWord_of _ rfl)]
    exact Nat.mod_eq_of_lt hs
  · exact ((((Frame.set _ _ _ _ _ (Fld.inWord_of _ rfl) (.inl rfl)).trans (Frame.set _ _ _ _ _ (Fld.inWord_of _ rfl) (.inr (.inl rfl)))).trans
      (Frame.set _ _ _ _ _ (Fld.inWord_of _ rfl) (.inr (.inr (.inl rfl))))).trans
      (Frame.set _ _ _ _ _ (Fld.inWord_of _ rfl) (.inr (.inr (.inr rfl))))).trans
      (Frame.set _ _ _ _ _ (Fld.inWord_of _ rfl) (.inr (.inr (.inr rfl))))

/-- The gates with the result of a source taken. -/
def State.fqTaken (s : State) (g src i : Nat) : State :=
  s.setGroup g { s.group g with
    gates := ((s.group g).gates.modify i fun x => { x with left := x.left.filter (· != src) }).filter fun x =>
      x.stop.isNone || !x.left.isEmpty }

theorem exec_freqResult {s : State} (g : GroupIx) (src : Fin 17) {i : Nat} {d : Gate} (now : s.gateNow g = s)
    (due : s.fqDue g src = some i) (gate : (s.group g).gates[i]? = some d) :
    exec (.freqResult g src) s = done s ((s.fqTaken g src i).fqResult g src d (vget d.acc src .empty) (d.divs.getD src 1)) := by
  change execFreqResult g src s = _
  unfold execFreqResult
  dsimp only
  rw [now, due]
  dsimp only
  rw [gate]
  rfl

theorem resultReg_apart {g src a : Nat} {x y : Fld} (h : resultReg g src y) (hx : x.reg.addr = groupBase g + a) (low : a < 0x8100) :
    y.apart x := by
  refine .inl ?_
  rw [hx]
  rcases h with e | e | e | e <;> rw [e]
  · simp only [FQ_RF_LO]; omega
  · simp only [FQ_RF_HI]; omega
  · simp only [FQ_RN]; omega
  · simp only [FQ_RSTAT]; omega

theorem State.freqFew_runs {s : State} (g : GroupIx) (src : Fin 17) {i : Nat} {d : Gate} (now : s.gateNow g = s)
    (due : s.fqDue g src = some i) (gate : (s.group g).gates[i]? = some d) (few : (vget d.acc src .empty).n < 3) :
    RunsTo (exec (.freqResult g src) s) fun t =>
      t.get (FQ_RSTAT_STAT g src) = 3 ∧ t.get (FQ_RF_LO_F_LO g src) = 0 ∧ t.get (FQ_RF_HI_F_HI g src) = 0 ∧
      t.get (FQ_RN_N g src) = (vget d.acc src .empty).n ∧ t.get (FQ_RSTAT_SEQ g src) = d.gseq % 16 ∧
      t.get (FQ_FLAGS_FEW g) = 1 ∧ t.get (FQ_CNT0_FEW g) = min (s.get (FQ_CNT0_FEW g) + 1) 65535 ∧
      Frame s t [.groups, .hi] (fun y => y.reg = FQ_RF_LO g src ∨ y.reg = FQ_RF_HI g src ∨ y.reg = FQ_RN g src ∨
        y.reg = FQ_RSTAT g src ∨ y = FQ_FLAGS_FEW g ∨ y = FQ_CNT0_FEW g ∨ y = HI_FLAGS_RDROP ∨ y = HI_CNT2_RDROP ∨
        y = HI_RING_DROP_DROP 3) := by
  have status : fqStatus (vget d.acc src .empty) d.abort = 3 := if_pos few
  rw [exec_freqResult g src now due gate, State.fqResult_of g src status (.inl ⟨rfl, rfl⟩)]
  have taken : Frame s (s.fqTaken g src i) [.groups] (fun _ => False) := Frame.setGroup _ _ _ _ _ (by simp)
  generalize s.fqTaken g src i = v at taken
  generalize vget d.acc src .empty = a at *
  have small : min a.n (2 ^ 32 - 1) = a.n := Nat.min_eq_left (by omega)
  rw [small]
  have stored := v.fqStore_sets g src (n := a.n) (gseq := d.gseq) (stat := 3) (freq := 0) (by omega) (by decide) (by decide)
  generalize v.fqStore g src a.n d.gseq 3 0 = u at stored
  have split_ : (FQ_CNT0_FEW g).apart (FQ_FLAGS_FEW g) := .inl (by simp only [FQ_CNT0_FEW, FQ_CNT0, FQ_FLAGS_FEW, FQ_FLAGS]; omega)
  have result (x : Fld) (a : Nat) (hx : x.reg.addr = groupBase g + a) (high : 0x8100 ≤ a) :
      (settle s ((u.fqMark g 3).fqSend g src (frPair g src 3 (d.stop.getD 0) d.gseq 0))).get x = u.get x := by
    rw [get_settle _ _ _ (TG_DSK_notPba hx), State.get_fqSend _ g src _ hx, State.get_fqMark _ g 3 hx high]
  refine runsTo_done _ _ _ ⟨?_, ?_, ?_, ?_, ?_, ?_, ?_, ?_⟩
  · rw [result _ (0x810C + 0x10 * src) (Nat.add_assoc ..) (by omega), stored.stat]
  · rw [result _ (0x8100 + 0x10 * src) (Nat.add_assoc ..) (by omega), stored.lo, Nat.zero_mod]
  · rw [result _ (0x8104 + 0x10 * src) (Nat.add_assoc ..) (by omega), stored.hi, Nat.zero_div]
  · rw [result _ (0x8108 + 0x10 * src) (Nat.add_assoc ..) (by omega), stored.count]
  · rw [result _ (0x810C + 0x10 * src) (Nat.add_assoc ..) (by omega), stored.seq]
  · rw [get_settle _ _ _ (TG_DSK_notPba (a := 0x8000) rfl), State.get_fqSend _ g src _ (a := 0x8000) rfl]
    exact State.get_flag _ _ _ (Fld.inWord_of _ rfl) (Fld.inWord_of _ rfl) split_ rfl
  · rw [get_settle _ _ _ (TG_DSK_notPba (a := 0x8004) rfl), State.get_fqSend _ g src _ (a := 0x8004) rfl]
    refine (State.get_flag_count _ _ _ (Fld.inWord_of _ rfl) (Fld.inWord_of _ rfl) (Fld.apart_symm split_)).trans ?_
    rw [stored.frame.reg _ (TG_DSK_notPba (a := 0x8004) rfl) fun _ hy => resultReg_apart hy (a := 0x8004) rfl (by decide),
      taken.reg _ (TG_DSK_notPba (a := 0x8004) rfl) fun _ => False.elim]
    rfl
  · have marked : Frame u (u.fqMark g 3) [.groups, .hi] (fun y => y = FQ_FLAGS_FEW g ∨ y = FQ_CNT0_FEW g) :=
      Frame.flag _ _ _ _ _ (Fld.inWord_of _ rfl) (Fld.inWord_of _ rfl) (.inl rfl) (.inr rfl)
    refine ((((taken.mono (by simp) fun _ => False.elim).trans (stored.frame.mono (by simp) fun y hy => ?_)).trans
      (marked.mono (fun _ => id) fun y hy => ?_)).trans ((Frame.fqSend ..).mono (by simp) fun y hy => ?_)).trans (Frame.settle ..)
    · exact hy.imp id (.imp id (.imp id .inl))
    · exact .inr (.inr (.inr (.inr (hy.imp id .inl))))
    · exact .inr (.inr (.inr (.inr (.inr (.inr hy)))))

/-- The slope to the nearest unit, half up. -/
theorem fqFreq_of {a : FqAcc} {div f : Nat} (num : 0 < a.n * a.sit - a.si * a.st) (den : 0 < a.n * a.sii - a.si * a.si)
    (le : 2 * (a.n * a.sit - a.si * a.st) * f ≤ 2 * (div : Int) * 1638400000000 * (a.n * a.sii - a.si * a.si) * 2 ^ 24
      + (a.n * a.sit - a.si * a.st))
    (lt : 2 * (div : Int) * 1638400000000 * (a.n * a.sii - a.si * a.si) * 2 ^ 24 + (a.n * a.sit - a.si * a.st)
      < 2 * (a.n * a.sit - a.si * a.st) * (f + 1)) : fqFreq a div = some f := by
  unfold fqFreq
  dsimp only
  rw [if_pos ⟨num, den⟩]
  generalize a.n * a.sit - a.si * a.st = p at *
  generalize a.n * a.sii - a.si * a.si = q at *
  have doubled : 2 * ((div : Int) * 1638400000000 * q * 2 ^ 24) + p = 2 * (div : Int) * 1638400000000 * q * 2 ^ 24 + p := by ring
  have whole : (2 * ((div : Int) * 1638400000000 * q * 2 ^ 24) + p) / (2 * p) = f := by
    rw [doubled, Int.ediv_eq_iff_of_pos (by omega)]
    have next : (f : Int) * (2 * p) + 2 * p = 2 * p * (f + 1) := by ring
    exact ⟨by rw [mul_comm]; exact le, by rw [next]; exact lt⟩
  rw [whole, Int.toNat_natCast]

/-- The flag registers of results. -/
def fqFlagReg (g : Nat) (y : Fld) : Prop := y.reg = FQ_FLAGS g ∨ y.reg = FQ_CNT0 g ∨ y.reg = FQ_CNT1 g

theorem Frame.fqMark (s : State) (g stat : Nat) : Frame s (s.fqMark g stat) [] (fqFlagReg g) := by
  unfold State.fqMark
  split
  · exact Frame.flag _ _ _ _ _ (Fld.inWord_of _ rfl) (Fld.inWord_of _ rfl) (.inl rfl) (.inr (.inl rfl))
  · exact Frame.flag _ _ _ _ _ (Fld.inWord_of _ rfl) (Fld.inWord_of _ rfl) (.inl rfl) (.inr (.inr rfl))
  · exact Frame.flag _ _ _ _ _ (Fld.inWord_of _ rfl) (Fld.inWord_of _ rfl) (.inl rfl) (.inr (.inl rfl))
  · exact Frame.refl ..

theorem State.freqSlope_runs {s : State} (g : GroupIx) (src : Fin 17) {i f : Nat} {d : Gate} {a : FqAcc} (now : s.gateNow g = s)
    (due : s.fqDue g src = some i) (gate : (s.group g).gates[i]? = some d) (acc : vget d.acc src .empty = a) (many : 3 ≤ a.n)
    (slope : fqFreq a (d.divs.getD src.val 1) = some f) (fits : f < 2 ^ 64) :
    RunsTo (exec (.freqResult g src) s) fun t =>
      t.get (FQ_RF_HI_F_HI g src) * 2 ^ 32 + t.get (FQ_RF_LO_F_LO g src) = f ∧
      t.get (FQ_RSTAT_STAT g src) = (if d.abort then 2 else if a.loss then 1 else 0) ∧
      t.get (FQ_RSTAT_SEQ g src) = d.gseq % 16 ∧ t.get (FQ_RN_N g src) = min a.n (2 ^ 32 - 1) ∧
      (d.abort → t.get (FQ_FLAGS_ABORT g) = 1) ∧ (d.abort = false → a.loss → t.get (FQ_FLAGS_LOSS g) = 1) ∧
      Frame s t [.groups, .hi] (fun y => y.reg = FQ_RF_LO g src ∨ y.reg = FQ_RF_HI g src ∨ y.reg = FQ_RN g src ∨
        y.reg = FQ_RSTAT g src ∨ y.reg = FQ_FLAGS g ∨ y.reg = FQ_CNT0 g ∨ y.reg = FQ_CNT1 g ∨ y = HI_FLAGS_RDROP ∨
        y = HI_CNT2_RDROP ∨ y = HI_RING_DROP_DROP 3) := by
  have status : fqStatus a d.abort = if d.abort then 2 else if a.loss then 1 else 0 := if_neg (Nat.not_lt.2 many)
  have range : (if d.abort then 2 else if a.loss then 1 else 0) < 3 := by
    split
    · decide
    · split <;> decide
  rw [exec_freqResult g src now due gate, acc, State.fqResult_of g src status (.inr ⟨Nat.ne_of_lt range, slope⟩)]
  have taken : Frame s (s.fqTaken g src i) [.groups] (fun _ => False) := Frame.setGroup _ _ _ _ _ (by simp)
  generalize s.fqTaken g src i = v at taken
  have stored := v.fqStore_sets g src (n := min a.n (2 ^ 32 - 1)) (gseq := d.gseq) (stat := if d.abort then 2 else if a.loss then 1 else 0)
    (freq := f) (by omega) (by omega) fits
  have result (u : State) (n : Nat) (ws : List Native) (x : Fld) (a : Nat) (hx : x.reg.addr = groupBase g + a) (high : 0x8100 ≤ a) :
      (settle s ((u.fqMark g n).fqSend g src ws)).get x = u.get x := by
    rw [get_settle _ _ _ (TG_DSK_notPba hx), State.get_fqSend _ g src _ hx, State.get_fqMark _ g n hx high]
  generalize v.fqStore g src (min a.n (2 ^ 32 - 1)) d.gseq (if d.abort then 2 else if a.loss then 1 else 0) f = u at stored
  refine runsTo_done _ _ _ ⟨?_, ?_, ?_, ?_, fun abort => ?_, fun whole loss => ?_, ?_⟩
  · rw [result _ _ _ _ (0x8104 + 0x10 * src) (Nat.add_assoc ..) (by omega), result _ _ _ _ (0x8100 + 0x10 * src) (Nat.add_assoc ..) (by omega),
      stored.hi, stored.lo]
    omega
  · rw [result _ _ _ _ (0x810C + 0x10 * src) (Nat.add_assoc ..) (by omega), stored.stat]
  · rw [result _ _ _ _ (0x810C + 0x10 * src) (Nat.add_assoc ..) (by omega), stored.seq]
  · rw [result _ _ _ _ (0x8108 + 0x10 * src) (Nat.add_assoc ..) (by omega), stored.count]
  · rw [get_settle _ _ _ (TG_DSK_notPba (a := 0x8000) rfl), State.get_fqSend _ g src _ (a := 0x8000) rfl, if_pos abort]
    exact State.get_flag _ _ _ (Fld.inWord_of _ rfl) (Fld.inWord_of _ rfl)
      (.inl (by simp only [FQ_CNT1_ABORT, FQ_CNT1, FQ_FLAGS_ABORT, FQ_FLAGS]; omega)) rfl
  · rw [get_settle _ _ _ (TG_DSK_notPba (a := 0x8000) rfl), State.get_fqSend _ g src _ (a := 0x8000) rfl,
      if_neg (by rw [whole]; decide), if_pos loss]
    exact State.get_flag _ _ _ (Fld.inWord_of _ rfl) (Fld.inWord_of _ rfl)
      (.inl (by simp only [FQ_CNT0_LOSS, FQ_CNT0, FQ_FLAGS_LOSS, FQ_FLAGS]; omega)) rfl
  · refine ((((taken.mono (by simp) fun _ => False.elim).trans (stored.frame.mono (by simp) fun y hy => ?_)).trans
      ((Frame.fqMark u g _).mono (by simp) fun y hy => ?_)).trans ((Frame.fqSend ..).mono (by simp) fun y hy => ?_)).trans (Frame.settle ..)
    · exact hy.imp id (.imp id (.imp id .inl))
    · exact .inr (.inr (.inr (.inr (hy.imp id (.imp id .inl)))))
    · exact .inr (.inr (.inr (.inr (.inr (.inr (.inr hy))))))

/-- Settles O19: gates begin, end and follow one another, and a source's result is FEW or the slope (`fqFreq_of`). -/
theorem frequencyGates : Obligations.FrequencyGates := by
  unfold Obligations.FrequencyGates
  exact ⟨fun _ g _ => State.gateStart_runs g, fun _ g _ _ => State.gateStop_runs g, fun _ g _ => State.gateEnd_runs g,
    fun _ g src _ _ => State.freqFew_runs g src,
    fun _ g src _ _ _ _ now due gate acc many num den le lt => State.freqSlope_runs g src now due gate acc many (fqFreq_of num den le lt)⟩

end Sys2Proof.Machine
end

section
/-! Outcomes, observations and fails of vectors (R82, R175, R176). -/

namespace Sys2Proof.Machine

/-! ### Lanes and observations -/

theorem laneWindow_of_still {l : List LaneEntry} {a b : Tick} (coin : Bool) (still : laneIn l a b = []) :
    laneWindow l a b coin = ⟨(laneAt l a).lane, (laneAt l b).lane, true, false, false,
      if (laneAt l a).valid then 2 else 0, (laneAt l b).check⟩ := by
  unfold laneWindow
  rw [still]
  cases valid : (laneAt l a).valid with
  | true => simp [excursions, valid]
  | false => simp [excursions, valid]

theorem laneSeen_of_invalid {l : LaneSummary} (h : l.valid = 0) :
    laneSeen l = { l with atT3 := .mid, atT4 := .mid, held := true, rise := false, fall := false } := if_pos h

theorem laneSeen_of_valid {l : LaneSummary} (h : l.valid ≠ 0) : laneSeen l = l := if_neg h

theorem observed_of_invalid {l : LaneSummary} (h : l.valid = 0) : observation l false = 1 ∧ passes 4 l false = true ∧
    passes 2 l false = false ∧ passes 3 l false = false ∧ passes 7 l false = false := by
  simp only [observation, passes, laneSeen_of_invalid h]
  decide

theorem observed_of_valid {l : LaneSummary} (h : l.valid ≠ 0) : observation l true = l.atT3.code ∧
    observation l false = (if l.rise || l.fall then 3 else l.atT4.code) ∧
    passes 2 l false = (l.atT3 == .low && l.held) ∧ passes 3 l false = (l.atT3 == .high && l.held) ∧
    passes 4 l false = (l.atT3 == .mid && l.held) ∧ passes 7 l false = (l.rise || l.fall) ∧ passes 7 l true = false := by
  simp only [observation, passes, laneSeen_of_valid h]
  exact ⟨rfl, rfl, rfl, rfl, rfl, rfl, rfl⟩

/-! ### What the sinks of an outcome leave -/

/-- The queue of outcomes and the observations of every group are as they were. -/
def SameOut (s t : State) : Prop := ∀ k, (t.group k).outq = (s.group k).outq ∧ (t.group k).obs = (s.group k).obs

theorem SameOut.of_groups {s t : State} (h : t.groups = s.groups) : SameOut s t := fun k => by
  rw [State.group_congr h]
  exact ⟨rfl, rfl⟩

theorem SameOut.setGroup (s : State) (g : Nat) {x : Group} (h : x.outq = (s.group g).outq ∧ x.obs = (s.group g).obs) :
    SameOut s (s.setGroup g x) := fun k => by
  by_cases e : g = k
  · subst e
    by_cases hg : g < 32
    · rw [State.group_setGroup _ _ _ hg]
      exact h
    · rw [State.setGroup, dif_neg hg]
      exact ⟨rfl, rfl⟩
  · rw [State.group_setGroup_ne _ _ _ _ e]
    exact ⟨rfl, rfl⟩

/-- A sink: the parts that it may change, and registers of w. -/
structure Sinks (w : Fld → Prop) (s t : State) : Prop where
  out : SameOut s t
  frame : Frame s t [.groups, .engines, .mem, .hi, .trigs, .free] w

theorem Sinks.refl (w : Fld → Prop) (s : State) : Sinks w s s := ⟨fun _ => ⟨rfl, rfl⟩, Frame.refl ..⟩

theorem Sinks.trans {w : Fld → Prop} {s t u : State} (h : Sinks w s t) (k : Sinks w t u) : Sinks w s u :=
  ⟨fun g => ⟨(k.out g).1.trans (h.out g).1, (k.out g).2.trans (h.out g).2⟩, h.frame.trans k.frame⟩

theorem Sinks.mono {w v : Fld → Prop} {s t : State} (h : Sinks w s t) (k : ∀ y, w y → v y) : Sinks v s t :=
  ⟨h.out, h.frame.mono (fun _ => id) k⟩

theorem Sinks.foldl {α : Type} (w : Fld → Prop) (s : State) (l : List α) (f : State → α → State) (h : ∀ t a, Sinks w t (f t a)) :
    Sinks w s (l.foldl f s) := by
  induction l generalizing s with
  | nil => exact .refl ..
  | cons a l ih => exact (h s a).trans (ih _)

theorem Sinks.of_frame {w : Fld → Prop} {s t : State} (h : Frame s t [.engines, .mem, .hi, .trigs, .free] w) : Sinks w s t :=
  ⟨.of_groups (h.part .groups (by simp)), h.mono (by simp) fun _ => id⟩

theorem Sinks.setGroup (w : Fld → Prop) (s : State) (g : Nat) {x : Group} (h : x.outq = (s.group g).outq ∧ x.obs = (s.group g).obs) :
    Sinks w s (s.setGroup g x) := ⟨.setGroup s g h, Frame.setGroup _ _ _ _ _ (by simp)⟩

theorem Sinks.setChan (w : Fld → Prop) (s : State) (g p : Nat) (x : Chan) : Sinks w s (s.setChan g p x) := by
  refine ⟨fun k => ?_, Frame.setChan _ _ _ _ _ _ (by simp)⟩
  have same := SameRest.setChan s g p x
  exact ⟨same.field Group.outq (fun _ _ => rfl) k, same.field Group.obs (fun _ _ => rfl) k⟩

theorem Sinks.mapIv (w : Fld → Prop) (s : State) (g id : Nat) (f : Interval → Interval) : Sinks w s (s.mapIv g id f) :=
  .setGroup w s g ⟨rfl, rfl⟩

theorem Sinks.setCap (w : Fld → Prop) (s : State) (g : Nat) (c : Capture) : Sinks w s (s.setCap g c) := .setGroup w s g ⟨rfl, rfl⟩

theorem Sinks.sumVector (w : Fld → Prop) (s : State) (g p : Nat) (v : VecOut) (l : LaneSummary) (failed : Bool) :
    Sinks w s (s.sumVector g p v l failed) := .mapIv ..

theorem Sinks.logged (s : State) (ev : Bool) (g n : Nat) (x : Native) : Sinks logField s ((s.logWrite ev g x).logDrain ev g n) :=
  .of_frame (((Frame.logWrite s ev g x).trans (Frame.logDrain _ ev g n)).mono (by simp) fun _ => id)

theorem Sinks.logFail (s : State) (g : Nat) (v : VecOut) (fails : BitVec 16) : Sinks logField s (s.logFail g v fails) := by
  unfold State.logFail
  dsimp only
  split
  · exact (Sinks.mapIv logField s g v.iv _).trans (.logged ..)
  · refine (Sinks.of_frame ((Frame.count _ _ _ _ 1 (Fld.inWord_of _ rfl) ?_).trans (Frame.raise _ _ _ _ (Fld.inWord_of _ rfl) ?_))).trans
      (.foldl _ _ _ _ fun _ _ => .mapIv ..)
    · exact logField_fc 0x903C rfl (by decide) (by decide)
    · exact logField_fc 0x9000 rfl (by decide) (by decide)

/-! ### The capture as a sink -/

theorem Sinks.setReg {w : Fld → Prop} (s : State) (x : Fld) (v : Nat) (h : x.inWord) (k : w x) : Sinks w s (s.set x v) :=
  .of_frame (Frame.set _ _ _ _ _ h k)

theorem Sinks.storeCap (s : State) (g n : Nat) (v : CapVec) : Sinks logField s (s.storeCap g n v) :=
  .of_frame (Frame.setMemWord _ _ _ _ _ (by simp))

theorem Sinks.capFire (s : State) (g : Nat) : Sinks logField s (s.capFire g) :=
  .of_frame ((Frame.set _ _ _ _ _ (Fld.inWord_of _ rfl) (logField_fc 0x904C rfl (by decide) (by decide))).trans
    (Frame.flag _ _ _ _ _ (Fld.inWord_of _ rfl) (Fld.inWord_of _ rfl) (logField_fc 0x9000 rfl (by decide) (by decide))
      (logField_fc 0x900C rfl (by decide) (by decide))))

theorem Sinks.capTrigger (s : State) (g k : Nat) : Sinks logField s (s.capTrigger g k) := by
  unfold State.capTrigger
  extract_lets c moved a b d e
  have restored : Sinks logField s a := .foldl _ _ _ _ fun t r => .of_frame (Frame.setMemWord _ _ _ _ _ (by simp))
  have set : Sinks logField a b := .setCap ..
  have stored : Sinks logField b d := .foldl _ _ _ _ fun t r => .storeCap ..
  have timed : Sinks logField d e := by
    change Sinks logField d (match moved.find? fun r => r.1 == k with
      | some (_, v) => ((d.set (FC_CAP_TVC_LO_V_LO g) (v.vcnt % 2 ^ 32)).set (FC_CAP_TVC_HI_V_HI g) (v.vcnt / 2 ^ 32)).setTime
          (FC_CAP_TT_LO_T_LO g) (FC_CAP_TT_HI_T_HI g) (tclkOf v.b)
      | none => d)
    split
    · exact .of_frame (((Frame.set _ _ _ _ _ (Fld.inWord_of _ rfl) (logField_fc 0x9058 rfl (by decide) (by decide))).trans
        (Frame.set _ _ _ _ _ (Fld.inWord_of _ rfl) (logField_fc 0x905C rfl (by decide) (by decide)))).trans
        (Frame.setTime _ _ _ _ _ _ (Fld.inWord_of _ rfl) (Fld.inWord_of _ rfl) (logField_fc 0x9060 rfl (by decide) (by decide))
          (logField_fc 0x9064 rfl (by decide) (by decide))))
    · exact .refl ..
  have all := ((restored.trans set).trans stored).trans timed
  clear_value e
  split
  · exact all.trans (.capFire ..)
  · exact all

theorem Sinks.capture (s : State) (g : Nat) (v : CapVec) (trgm : Bool) : Sinks logField s (s.capture g v trgm) := by
  unfold State.capture
  split
  · exact .refl ..
  · extract_lets c n x u hit
    have stored : Sinks logField s u := (Sinks.setCap ..).trans (.storeCap ..)
    clear_value u hit
    split
    · exact stored.trans (.capTrigger ..)
    · exact stored

theorem Sinks.pushInstant (s : State) (g : Nat) (stop : Tick) (trgm : Bool) : Sinks logField s (s.pushInstant g stop trgm) := by
  refine .foldl _ _ _ _ fun t n => ?_
  dsimp only
  split
  · exact .of_frame (Frame.parts _ (fun p hp => by cases p <;> simp [State.samePart] at *) rfl)
  · exact .refl ..

theorem Sinks.pruneLanes (s : State) (g : Nat) (b : Tick) : Sinks logField s (s.pruneLanes g b) :=
  .foldl _ _ _ _ fun _ _ => .setChan ..

/-! ### The fail flag of a vector's context (R184) -/

/-- A field of the log and capture registers, or the count of masked vectors. -/
def sinkField (y : Fld) : Prop := logField y ∨ groupRegs 0x6008 0x6009 y

/-- The registers of the sinks are none of the SQ page. -/
theorem sinkField_addr {l a : Nat} {y : Fld} (h : sinkField y) (lo : 0xA000 ≤ a) (hi : a < 0x10000) : y.reg.addr ≠ groupBase l + a := by
  unfold groupBase
  rcases h with (⟨g, glo, ghi⟩ | h) | ⟨g, glo, ghi⟩
  · unfold groupBase at glo ghi
    omega
  · omega
  · unfold groupBase at glo ghi
    omega

theorem causeOf_apart_fail {l c m d : Nat} (hc : c < 32) (hd : d < 32) {y : Fld} (h : causeOf m d y) : y.apart (SQ_CTX_FLAGS_FAIL l c) := by
  rcases h with (e | e) | e | e | e | e
  · exact .inl (by rw [e]; simp only [SQ_CTX_STAT, SQ_CTX_FLAGS_FAIL, SQ_CTX_FLAGS, groupBase]; omega)
  · subst e
    exact .inl (by simp only [SQ_ELIG_ELIG, SQ_ELIG, SQ_CTX_FLAGS_FAIL, SQ_CTX_FLAGS, groupBase]; omega)
  · subst e
    by_cases same : m = l ∧ d = c
    · obtain ⟨rfl, rfl⟩ := same
      exact Fld.apart_of _ _ rfl rfl
    · exact .inl (by simp only [SQ_CTX_FLAGS_PHR, SQ_CTX_FLAGS_FAIL, SQ_CTX_FLAGS, groupBase]; omega)
  · subst e
    exact .inl (by simp only [SQ_STAT_RUNPRIO, SQ_STAT, SQ_CTX_FLAGS_FAIL, SQ_CTX_FLAGS, groupBase]; omega)
  · subst e
    exact .inl (by simp only [SQ_FLAGS_CAUSEDROP, SQ_FLAGS, SQ_CTX_FLAGS_FAIL, SQ_CTX_FLAGS, groupBase]; omega)
  · subst e
    exact .inl (by simp only [SQ_CNT0_CAUSEDROP, SQ_CNT0, SQ_CTX_FLAGS_FAIL, SQ_CTX_FLAGS, groupBase]; omega)

theorem Frame.leader_of_sinks {s t : State} {ps : List Part} (h : Frame s t ps sinkField) (g : Nat) : t.leader g = s.leader g := by
  have same : t.get (SQ_GANG_M g) = s.get (SQ_GANG_M g) :=
    h.reg _ (.inr (by simp only [SQ_GANG_M, SQ_GANG, groupBase]; omega)) fun y hy =>
      .inl (sinkField_addr hy (by decide : 0xA000 ≤ 0xB020) (by decide))
  unfold State.leader
  rw [same]

theorem Sinks.fail_kept {s t : State} (h : Sinks logField s t) {l c : Nat} (hc : c < 32) :
    t.get (SQ_CTX_FLAGS_FAIL l c) = s.get (SQ_CTX_FLAGS_FAIL l c) :=
  h.frame.reg _ (.inr (by simp only [SQ_CTX_FLAGS_FAIL, SQ_CTX_FLAGS, groupBase]; omega)) fun y hy =>
    .inl (by
      have addr : (SQ_CTX_FLAGS_FAIL l c).reg.addr = groupBase l + (0xB408 + 0x60 * c) := by
        simp only [SQ_CTX_FLAGS_FAIL, SQ_CTX_FLAGS]
        omega
      rw [addr]
      exact sinkField_addr (.inl hy) (by omega) (by omega))

theorem Sinks.causeRouted (s : State) (en ctx prio : Fld) (e : Nat) (k : CauseKind) :
    Sinks (causeOf (s.leader e) (s.get ctx)) s (s.causeRouted en ctx prio e k) :=
  .of_frame (Frame.causeRouted _ _ _ _ _ _ _ _ (by simp) fun _ => id)

theorem Sinks.failCause (s : State) (g : Nat) (v : VecOut) : Sinks (fun _ => True) s (s.failCause g v) := by
  unfold State.failCause
  extract_lets l before u
  have raised : Sinks (fun _ => True) s u :=
    (Sinks.of_frame (Frame.raise _ _ _ _ (Fld.inWord_of _ rfl) trivial)).trans (.mapIv ..)
  clear_value u
  split
  · exact raised.trans ((Sinks.causeRouted ..).mono fun _ _ => trivial)
  · exact raised

/-- The flag stands when its cause has gone to the engine. -/
theorem State.failCause_sets (s : State) (g : Nat) (v : VecOut) (hc : v.ctx < 32) :
    (s.failCause g v).get (SQ_CTX_FLAGS_FAIL (s.leader g) v.ctx) = 1 := by
  unfold State.failCause
  extract_lets l before u
  have set : u.get (SQ_CTX_FLAGS_FAIL l v.ctx) = 1 := by
    refine ((Sinks.mapIv (fun _ => False) (s.raise (SQ_CTX_FLAGS_FAIL l v.ctx)) g v.iv _).frame.reg _ ?_ fun _ => False.elim).trans ?_
    · exact .inr (by simp only [SQ_CTX_FLAGS_FAIL, SQ_CTX_FLAGS, groupBase]; omega)
    · rw [State.get_raise, State.get_set _ _ _ (Fld.inWord_of _ rfl)]
      rfl
  have flag : l = s.leader g := rfl
  clear_value u l
  subst flag
  split
  · have caused := Sinks.causeRouted u (FC_CAUSE_EN g) (FC_CAUSE_CTX g) (FC_CAUSE_PRIO g) (s.leader g) .fail
    rw [← set]
    exact caused.frame.reg _ (.inr (by simp only [SQ_CTX_FLAGS_FAIL, SQ_CTX_FLAGS, groupBase]; omega)) fun y =>
      causeOf_apart_fail hc (State.get_lt _ (FC_CAUSE_CTX g))
  · exact set

/-! ### The outcome of a vector (R175) -/

/-- The last sinks: the capture and the trigger engines, and the logs of the lanes. -/
theorem Sinks.observed (s : State) (g : Nat) (x : CapVec) (trgm : Bool) (stop b : Tick) :
    Sinks logField s (((s.capture g x trgm).pushInstant g stop trgm).pruneLanes g b) :=
  ((Sinks.capture ..).trans (.pushInstant ..)).trans (.pruneLanes ..)

/-- The vector has left the queue, and its observation stands first. -/
def State.outcomeTaken (s : State) (g : Nat) (v : VecOut) (o : ObsRec) : State :=
  let u := { s with free := s.free + 16 }
  let u := u.setGroup g { u.group g with outq := (u.group g).outq.tail, obs := (o :: (u.group g).obs).take 64 }
  if (List.range 16).any fun p => u.checkedIn g p v then u.count (CP_CNT1_SCMASK g) 1 else u

theorem State.outcomeTaken_sets (s : State) (g : GroupIx) (v : VecOut) (o : ObsRec) :
    ((s.outcomeTaken g v o).group g).outq = (s.group g).outq.tail ∧ ((s.outcomeTaken g v o).group g).obs.head? = some o ∧
    Frame s (s.outcomeTaken g v o) [.groups, .free] (groupRegs 0x6008 0x6009) ∧ (s.outcomeTaken g v o).leader g = s.leader g := by
  unfold State.outcomeTaken
  extract_lets a x b
  have burnt : Frame s a [.groups, .free] (groupRegs 0x6008 0x6009) :=
    Frame.parts _ (fun p hp => by cases p <;> simp [a, State.samePart] at *) rfl
  have group : b.group g = { s.group g with outq := (s.group g).outq.tail, obs := (o :: (s.group g).obs).take 64 } :=
    State.group_setGroup a _ _ g.isLt
  have taken : Frame s b [.groups, .free] (groupRegs 0x6008 0x6009) := burnt.trans (Frame.setGroup _ _ _ _ _ (by simp))
  clear_value b
  have led : ∀ t, Frame s t [.groups, .free] (groupRegs 0x6008 0x6009) → t.leader g = s.leader g := fun t h =>
    (h.mono (fun _ => id) fun _ => .inr).leader_of_sinks g
  split
  · have counted : Frame b (b.count (CP_CNT1_SCMASK g) 1) [.groups, .free] (groupRegs 0x6008 0x6009) :=
      Frame.count _ _ _ _ _ (Fld.inWord_of _ rfl) ⟨g, by simp only [CP_CNT1_SCMASK, CP_CNT1]; omega⟩
    have same : (b.count (CP_CNT1_SCMASK g) 1).group g = b.group g := by simp [State.group, State.count_groups]
    rw [same, group]
    exact ⟨rfl, rfl, taken.trans counted, led _ (taken.trans counted)⟩
  · rw [group]
    exact ⟨rfl, rfl, taken, led _ taken⟩

/-- The sinks of a vector that an engine reset has not withdrawn (R228). -/
def State.outcomeSunk (s : State) (g : Nat) (v : VecOut) (lanes : List LaneSummary) (fails : BitVec 16) : State :=
  let u := s.forEach (List.range 16) fun s p => s.sumVector g p v (lanes.getD p laneQuiet) (fails.getLsbD p)
  if fails != 0 then (u.logFail g v fails).failCause g v else u

theorem State.outcomeSunk_fails (s : State) (g : Nat) (v : VecOut) (lanes : List LaneSummary) {fails : BitVec 16} (hc : v.ctx < 32)
    (failed : fails ≠ 0) : (s.outcomeSunk g v lanes fails).get (SQ_CTX_FLAGS_FAIL (s.leader g) v.ctx) = 1 := by
  unfold State.outcomeSunk
  extract_lets u
  have before : Sinks sinkField s (u.logFail g v fails) :=
    (Sinks.foldl sinkField s _ _ fun _ _ => .sumVector ..).trans ((Sinks.logFail ..).mono fun _ => .inl)
  rw [if_pos (by simpa using failed), ← before.frame.leader_of_sinks g]
  exact State.failCause_sets _ g v hc

theorem Sinks.outcomeSunk (s : State) (g : Nat) (v : VecOut) (lanes : List LaneSummary) (fails : BitVec 16) :
    Sinks (fun _ => True) s (s.outcomeSunk g v lanes fails) := by
  unfold State.outcomeSunk
  dsimp only
  have sums : Sinks (fun _ => True) s (s.forEach (List.range 16) fun s p => s.sumVector g p v (lanes.getD p laneQuiet) (fails.getLsbD p)) :=
    .foldl _ _ _ _ fun _ _ => .sumVector ..
  split
  · refine sums.trans (((Sinks.logFail ..).mono fun _ _ => trivial).trans (.failCause ..))
  · exact sums

theorem State.outcome_sets (s : State) (g : GroupIx) (v : VecOut) (lanes : List LaneSummary)
    (summed : lanes = (List.range 16).map (s.laneSummary g v)) :
    ((s.outcome g v).group g).outq = (s.group g).outq.tail ∧ ((s.outcome g v).group g).obs.head? = some (v.observe lanes) ∧
    (v.dead = false → v.ctx < 32 → (v.observe lanes).fails ≠ 0 → (s.outcome g v).get (SQ_CTX_FLAGS_FAIL (s.leader g) v.ctx) = 1) ∧
    Frame s (s.outcome g v) [.groups, .engines, .mem, .hi, .trigs, .free] (fun _ => True) := by
  unfold State.outcome
  rw [← summed]
  extract_lets _ o failed a x b c sums d
  obtain ⟨outq, obs, taken, leader⟩ := s.outcomeTaken_sets g v o
  have first : c = s.outcomeTaken g v o := rfl
  have second : d = if v.dead then c else c.outcomeSunk g v lanes o.fails := rfl
  clear_value d sums c
  subst first
  have last := Sinks.observed d g ⟨o.obs, failed, capmOf v.word, v.switched, v.b, o.stop, v.vcnt, 0⟩ (trgmOf v.word) o.stop v.b
  have sunk : Sinks (fun _ => True) (s.outcomeTaken g v o) d := by
    rw [second]
    split
    · exact .refl ..
    · exact .outcomeSunk ..
  have all := sunk.trans (last.mono fun _ _ => trivial)
  refine ⟨(all.out g).1.trans outq, (congrArg List.head? (all.out g).2).trans obs, fun alive hc fails => ?_,
    (taken.mono (by simp) fun _ _ => trivial).trans all.frame⟩
  rw [last.fail_kept hc, second, alive, ← leader]
  exact (s.outcomeTaken g v o).outcomeSunk_fails g v lanes hc fails

theorem vectorOutcome_runs (s : State) (g : GroupIx) (v : VecOut) (rest : List VecOut) (front : (s.group g).outq = v :: rest)
    (due : reached s.time (tclkOf (v.b + BitVec.ofNat 66 (51200 + v.extent)))) : RunsTo (exec (.vectorOutcome g v.b) s) fun t =>
      (t.group g).outq = rest ∧ (t.group g).obs.head? = some (v.observe ((List.range 16).map (s.laneSummary g v))) ∧
      (v.dead = false → v.ctx < 32 → (v.observe ((List.range 16).map (s.laneSummary g v))).fails ≠ 0 →
        t.get (SQ_CTX_FLAGS_FAIL (s.leader g) v.ctx) = 1) ∧
      t.time = s.time ∧ t.staged = s.staged ∧ t.die = s.die := by
  have run : exec (.vectorOutcome g v.b) s = done s (s.outcome g v) := by
    change execVectorOutcome g v.b s = _
    unfold execVectorOutcome
    rw [front]
    exact congrArg (done s) (if_pos ⟨rfl, due⟩)
  obtain ⟨outq, obs, fail, frame⟩ := s.outcome_sets g v _ rfl
  rw [run]
  generalize s.outcome g v = u at *
  have settled := frame.trans (Frame.settle s u _ _)
  refine runsTo_done _ _ _ ⟨?_, ?_, fun alive hc fails => ?_, settled.part .time (by simp), settled.part .staged (by simp),
    settled.part .die (by simp)⟩
  · rw [group_settle, outq, front]
    rfl
  · rw [group_settle, obs]
  · rw [get_settle _ _ _ (.inr (by simp only [SQ_CTX_FLAGS_FAIL, SQ_CTX_FLAGS, groupBase]; omega))]
    exact fail alive hc fails

/-- Settles O20: what the sinks of an outcome leave is one frame, and the fail flag is set after the fail log and kept by the rest. -/
theorem vectorOutcomes : Obligations.VectorOutcomes :=
  ⟨vectorOutcome_runs, fun _ _ _ coin => laneWindow_of_still coin, fun _ => observed_of_invalid, fun _ => observed_of_valid⟩

end Sys2Proof.Machine
end

section
/-! Summary intervals and their record sets (R178, R180, R119). -/

namespace Sys2Proof.Machine

/-! ### An interval ends (R178, R180) -/

/-- From `s` to `t` only group parts have changed, and the newest interval of group `e` is still `iv` by its number and its end. -/
structure Counting (e : Nat) (iv : Interval) (s t : State) : Prop where
  frame : Frame s t [.groups] (fun _ => False)
  front : ∃ i rest, (t.group e).ivs = i :: rest ∧ i.id = iv.id ∧ i.iseq = iv.iseq ∧ i.full = iv.full

theorem Counting.refl {e : Nat} {iv : Interval} {s : State} {rest : List Interval} (h : (s.group e).ivs = iv :: rest) :
    Counting e iv s s := ⟨.refl .., iv, rest, h, rfl, rfl, rfl⟩

theorem Counting.of_ivs {e : Nat} {iv : Interval} {s t u : State} (h : Counting e iv s t) (k : Frame t u [.groups] (fun _ => False))
    (same : (u.group e).ivs = (t.group e).ivs) : Counting e iv s u := by
  obtain ⟨i, rest, list, rest⟩ := h.front
  exact ⟨h.frame.trans k, i, _, same.trans list, rest⟩

theorem Counting.mapIv {e : GroupIx} {iv : Interval} {s t : State} (h : Counting e iv s t) (id : Nat) (f : Interval → Interval)
    (hf : ∀ i, (f i).id = i.id ∧ (f i).iseq = i.iseq ∧ (f i).full = i.full) : Counting e iv s (t.mapIv e id f) := by
  obtain ⟨i, rest, list, number, iseq, full⟩ := h.front
  refine ⟨h.frame.trans (Frame.setGroup _ _ _ _ _ (by simp)), if i.id = id then f i else i, rest.map fun j => if j.id = id then f j else j, ?_⟩
  have mapped : ((t.mapIv e id f).group e).ivs = (t.group e).ivs.map fun j => if j.id = id then f j else j := by
    rw [State.mapIv, State.group_setGroup _ _ _ e.isLt]
  rw [mapped, list]
  refine ⟨rfl, ?_⟩
  split
  · exact ⟨(hf i).1.trans number, (hf i).2.1.trans iseq, (hf i).2.2.trans full⟩
  · exact ⟨number, iseq, full⟩

theorem Counting.foldl {α : Type} {e : Nat} {iv : Interval} {s t : State} (l : List α) (f : State → α → State) (h : Counting e iv s t)
    (step : ∀ u a, Counting e iv s u → Counting e iv s (f u a)) : Counting e iv s (l.foldl f t) := by
  induction l generalizing t with
  | nil => exact h
  | cons a l ih => exact ih (step _ a h)

theorem Counting.takeTrips {e : GroupIx} {iv : Interval} {s t : State} (h : Counting e iv s t) : Counting e iv s (t.takeTrips e iv) := by
  unfold State.takeTrips
  extract_lets now u
  have flagged : Counting e iv s u :=
    .foldl _ _ h fun u x hu => .foldl _ _ hu fun v p hv => hv.mapIv _ _ fun _ => ⟨rfl, rfl, rfl⟩
  clear_value u
  exact flagged.of_ivs (Frame.setGroup _ _ _ _ _ (by simp)) (by rw [State.group_setGroup _ _ _ e.isLt])

theorem State.clearMeas_sets (s : State) (e : GroupIx) : ((s.clearMeas e).group e).ivs = (s.group e).ivs ∧
    Frame s (s.clearMeas e) [.groups] (fun _ => False) ∧ ∀ p, p < 16 → ((s.clearMeas e).chan e p).measSum = .empty := by
  have walk := foldl_establishes (fun (s : State) p => s.setChan e p { s.chan e p with measSum := .empty })
    (fun t => (t.group e).ivs = (s.group e).ivs ∧ Frame s t [.groups] (fun _ => False)) (fun p t => (t.chan e p).measSum = .empty) (List.range 16)
    (fun t ht p _ => ⟨((SameRest.setChan t e p _).field Group.ivs (fun _ _ => rfl) e).trans ht.1,
      ht.2.trans (Frame.setChan _ _ _ _ _ _ (by simp))⟩)
    (fun t _ p hp => by rw [State.chan_setChan t _ e.isLt (List.mem_range.1 hp)])
    (fun t _ p hp q _ hq => by
      by_cases same : p = q
      · subst same
        rw [State.chan_setChan t _ e.isLt (List.mem_range.1 hp)]
      · rw [State.chan_setChan_ne _ _ fun h => same h.2, hq])
    s ⟨rfl, .refl ..⟩
  exact ⟨walk.1.1, walk.1.2, fun p hp => walk.2 p (List.mem_range.2 hp)⟩

theorem State.showIv_groups (s : State) (g : Nat) : (s.showIv g).groups = s.groups := by simp [State.showIv]

theorem Frame.showIv (s : State) (ps : List Part) (g : Nat) : Frame s (s.showIv g) ps (fun y => y.reg = FC_SUM_STAT g) := by
  have number : Frame s (s.set (FC_SUM_STAT_ISEQ g) (s.group g).iv.iseq) ps (fun y => y.reg = FC_SUM_STAT g) :=
    .set _ _ _ _ _ (Fld.inWord_of _ rfl) rfl
  exact number.trans (.set _ _ _ _ _ (Fld.inWord_of _ rfl) rfl)

theorem State.openNext_sets (s : State) (e : GroupIx) {i : Interval} {rest : List Interval} (front : (s.group e).ivs = i :: rest)
    (full : i.full) : ((s.openNext e).group e) = { s.group e with ivs := .empty (i.id + 1) (i.iseq + 1) :: i :: rest } ∧
    Frame s (s.openNext e) [.groups] (fun y => y.reg = FC_SUM_STAT e) := by
  have newest : (s.group e).iv = i := by rw [Group.iv, front]; rfl
  unfold State.openNext
  rw [newest]
  dsimp only
  rw [if_pos full, front]
  exact ⟨(State.group_congr (State.showIv_groups _ e) e).trans (State.group_setGroup _ _ _ e.isLt),
    (Frame.setGroup _ _ _ _ _ (by simp)).trans (.showIv ..)⟩

/-- R178, R180: the interval has ended, and the next one is open. -/
theorem State.endInterval_sets (s : State) (e : GroupIx) {iv : Interval} {rest : List Interval} (front : (s.group e).ivs = iv :: rest)
    (full : iv.full) : ((s.endInterval e iv).group e).iv = .empty (iv.id + 1) (iv.iseq + 1) ∧
    (∃ i ∈ ((s.endInterval e iv).group e).ivs, i.id = iv.id ∧
      ∃ words, i.ended = some (tclkOf iv.stop, s.stepAt (tclkOf iv.stop), s.on (FC_SUM_CTL_EN e), words)) ∧
    (∀ p, p < 16 → ((s.endInterval e iv).chan e p).measSum = .empty) ∧
    Frame s (s.endInterval e iv) [.groups] (fun y => y.reg = FC_SUM_STAT e) := by
  unfold State.endInterval
  extract_lets u words
  have tripped : Counting e iv s u := (Counting.refl front).takeTrips
  clear_value u words
  have step : u.stepAt (tclkOf iv.stop) = s.stepAt (tclkOf iv.stop) :=
    State.stepAt_congr (by rw [tripped.frame.part .tp (by simp)]) (tripped.frame.reg _ (by decide) fun _ => False.elim) _
  have en : u.on (FC_SUM_CTL_EN e) = s.on (FC_SUM_CTL_EN e) :=
    State.on_congr (tripped.frame.reg _ (TG_DSK_notPba (a := 0x9010) rfl) fun _ => False.elim)
  rw [step, en]
  generalize s.stepAt (tclkOf iv.stop) = n
  generalize s.on (FC_SUM_CTL_EN e) = b
  obtain ⟨i, rest, list, number, iseq, last⟩ := tripped.front
  have mapped : ∃ rest, ((u.mapIv e iv.id fun i => { i with ended := some (tclkOf iv.stop, n, b, words) }).group e).ivs =
      { i with ended := some (tclkOf iv.stop, n, b, words) } :: rest := by
    rw [State.mapIv, State.group_setGroup _ _ _ e.isLt, list]
    exact ⟨_, congrArg (· :: _) (if_pos number)⟩
  have ended : Frame u (u.mapIv e iv.id fun i => { i with ended := some (tclkOf iv.stop, n, b, words) }) [.groups] (fun _ => False) :=
    Frame.setGroup _ _ _ _ _ (by simp)
  generalize (u.mapIv e iv.id fun i => { i with ended := some (tclkOf iv.stop, n, b, words) }) = v at mapped ended
  obtain ⟨tail, mapped⟩ := mapped
  obtain ⟨ivs, cleared, empty⟩ := v.clearMeas_sets e
  obtain ⟨opened, shown⟩ := (v.clearMeas e).openNext_sets e (ivs.trans mapped) (last.trans full)
  have frame := ((tripped.frame.trans ended).trans cleared).mono (v := fun y => y.reg = FC_SUM_STAT e) (fun _ => id) fun _ => False.elim
  generalize (v.clearMeas e).openNext e = t at opened shown
  refine ⟨?_, ?_, fun p hp => ?_, frame.trans shown⟩
  · rw [opened, ← number, ← iseq]
    rfl
  · rw [opened]
    exact ⟨_, List.mem_cons_of_mem _ (List.mem_cons_self ..), number, words, rfl⟩
  · rw [State.chan_eq, opened]
    exact empty p hp

/-- The newest interval is the one that ends, for every older one has ended. -/
theorem Group.ending_of_front {x : Group} {iv : Interval} {rest : List Interval} (front : x.ivs = iv :: rest) (full : iv.full)
    (runs : iv.ended = none) (old : ∀ i ∈ rest, i.ended.isSome ∧ i.id ≠ iv.id) : x.ending = some iv := by
  have none_old : rest.reverse.find? (fun i => i.full && i.ended.isNone) = none := by
    rw [List.find?_eq_none]
    intro i hi open_
    have ended := (old i (List.mem_reverse.1 hi)).1
    simp only [Bool.and_eq_true, Option.isNone_iff_eq_none] at open_
    simp [open_.2] at ended
  rw [Group.ending, front, List.reverse_cons, List.find?_append, none_old, Option.none_or, List.find?_cons, full, runs]
  rfl

theorem summaryIntervalEnd_runs (s : State) (e : EngineIx) (iv : Interval) (rest : List Interval) (front : (s.group e).ivs = iv :: rest)
    (full : iv.full) (runs : iv.ended = none) (old : ∀ i ∈ rest, i.ended.isSome ∧ i.id ≠ iv.id)
    (due : reached s.time (tclkOf iv.stop)) : RunsTo (exec (.summaryIntervalEnd e) s) fun t =>
      (t.group e).iv = .empty (iv.id + 1) (iv.iseq + 1) ∧
      (∃ i ∈ (t.group e).ivs, i.id = iv.id ∧
        ∃ words, i.ended = some (tclkOf iv.stop, s.stepAt (tclkOf iv.stop), s.on (FC_SUM_CTL_EN e), words)) ∧
      (∀ p, p < 16 → (t.chan e p).measSum = .empty) ∧
      Frame s t [.groups] (fun y => y.reg = FC_SUM_STAT e) := by
  have run : exec (.summaryIntervalEnd e) s = done s (s.endInterval e iv) := by
    change execSummaryIntervalEnd e s = _
    unfold execSummaryIntervalEnd
    rw [Group.ending_of_front front full runs old]
    exact congrArg (done s) (if_pos due)
  obtain ⟨newest, ended, empty, frame⟩ := s.endInterval_sets e front full
  rw [run]
  refine runsTo_done _ _ _ ⟨?_, ?_, fun p hp => ?_, frame.trans (Frame.settle ..)⟩
  · rw [group_settle, newest]
  · rw [group_settle]
    exact ended
  · rw [chan_settle, empty p hp]

/-! ### A record set leaves (R180) -/

/-- The fields by which a ring that is full counts what it loses. -/
def ringDrops (y : Fld) : Prop := y = HI_FLAGS_RDROP ∨ y = HI_CNT2_RDROP ∨ ∃ r, y = HI_RING_DROP_DROP r

theorem Frame.ringRecord_drops (s : State) (r : Nat) (ws : List Native) : Frame s (s.ringRecord r ws) [.hi] ringDrops :=
  Frame.ringRecord _ _ _ _ _ (by simp) (.inr (.inr ⟨r, rfl⟩)) (.inl rfl) (.inr (.inl rfl))

theorem Frame.ringRecords (s : State) (meas : List Native) : Frame s (meas.foldl (fun s w => s.ringRecord 3 [w]) s) [.hi] ringDrops := by
  induction meas generalizing s with
  | nil => exact .refl ..
  | cons w meas ih => exact (Frame.ringRecord_drops ..).trans (ih _)

theorem length_recordSet (e : Nat) (iv : Interval) (at_ : Time) (step : Nat) : (recordSet e iv at_ step).length = 34 := by
  simp [recordSet, List.length_flatMap]

theorem State.sendAgreement_sets (s : State) (e id : Nat) (set : List Native) : (s.sendAgreement e id set).groups = s.groups ∧
    (s.sendAgreement e id set).tw = s.tw ∧ Frame s (s.sendAgreement e id set) [] (fun _ => False) := by
  unfold State.sendAgreement
  split
  · exact ⟨rfl, rfl, Frame.emit ..⟩
  · exact ⟨rfl, rfl, .refl ..⟩

theorem State.emitSet_sets (s : State) (e : GroupIx) (iv : Interval) (at_ : Time) (step : Nat) (en : Bool) (meas : List Native) :
    ((s.emitSet e iv at_ step en meas).group e).ivs = (s.group e).ivs.filter (fun i => i.id != iv.id) ∧
    vget (s.emitSet e iv at_ step en meas).tw.sets e (0, []) = (iv.id, recordSet e iv at_ step) ∧
    Frame s (s.emitSet e iv at_ step en meas) [.groups, .tw, .hi] ringDrops := by
  unfold State.emitSet
  extract_lets set x u y v w
  have taken : (u.group e).ivs = (s.group e).ivs.filter (fun i => i.id != iv.id) :=
    congrArg Group.ivs (State.group_setGroup s e _ e.isLt)
  have first : Frame s u [.groups, .tw, .hi] ringDrops := Frame.setGroup _ _ _ _ _ (by simp)
  have kept : v.groups = u.groups ∧ v.tw.sets = vset u.tw.sets e (iv.id, set) ∧ Frame u v [.groups, .tw, .hi] ringDrops := by
    obtain ⟨groups, tw, frame⟩ := State.sendAgreement_sets { u with tw := { u.tw with sets := vset u.tw.sets e (iv.id, set) } } e iv.id set
    exact ⟨groups, congrArg TwState.sets tw, (Frame.setTw u _ _ _ (by simp)).trans (frame.mono (by simp) fun _ => False.elim)⟩
  have sent : Frame v w [.hi] ringDrops := by
    change Frame v (if en then v.ringRecord 0 set else v) _ _
    split
    · exact .ringRecord_drops ..
    · exact .refl ..
  clear_value u v w
  obtain ⟨groups, sets, stored⟩ := kept
  have all := sent.trans (.ringRecords w meas)
  refine ⟨?_, ?_, (first.trans stored).trans (all.mono (by simp) fun _ => id)⟩
  · rw [State.group_congr (all.part .groups (by simp)), State.group_congr groups, taken]
  · rw [all.part .tw (by simp), sets, vget_vset _ _ _ _ e.isLt]

theorem summarySetEmit_runs (s : State) (e : EngineIx) (iv : Interval) (at_ : Time) (step : Nat) (en : Bool) (meas : List Native)
    (oldest : (s.group e).ivs.getLast? = some iv) (ended : iv.ended = some (at_, step, en, meas)) (settled : (s.group e).settled iv.id) :
    RunsTo (exec (.summarySetEmit e) s) fun t =>
      (t.group e).ivs = (s.group e).ivs.filter (fun i => i.id != iv.id) ∧
      vget t.tw.sets e (0, []) = (iv.id, recordSet e iv at_ step) ∧ (recordSet e iv at_ step).length = 34 ∧
      Frame s t [.groups, .tw, .hi] ringDrops := by
  have run : exec (.summarySetEmit e) s = done s (s.emitSet e iv at_ step en meas) := by
    change execSummarySetEmit e s = _
    unfold execSummarySetEmit
    rw [oldest]
    dsimp only
    rw [ended]
    exact congrArg (done s) (if_pos settled)
  obtain ⟨ivs, sets, frame⟩ := s.emitSet_sets e iv at_ step en meas
  rw [run]
  refine runsTo_done _ _ _ ⟨?_, ?_, length_recordSet .., frame.trans (Frame.settle ..)⟩
  · rw [group_settle, ivs]
  · rw [settle_tw, sets]

/-- Settles O21: the end of an interval keeps its number on the newest interval of the group until the next one opens. -/
theorem summaryIntervals : Obligations.SummaryIntervals := ⟨summaryIntervalEnd_runs, summarySetEmit_runs⟩

end Sys2Proof.Machine
end

section
/-! Capture and the host read pointers (R186, R188 to R191). -/

namespace Sys2Proof.Machine

/-! ### The capture (R188 to R190) -/

theorem capFld_notPba {x : Fld} {g : Nat} (a : Nat) (h : x.reg.addr = groupBase g + a) : x.reg.notPba := TG_DSK_notPba (a := a) h

theorem State.group_setCap (s : State) (g : GroupIx) (c : Capture) : ((s.setCap g c).group g) = { s.group g with cap := c } :=
  State.group_setGroup _ _ _ g.isLt

theorem State.get_setCap (s : State) (g : Nat) (c : Capture) (x : Fld) : (s.setCap g c).get x = s.get x := State.get_setGroup ..

/-- The capture armed with its trigger source, its POST and this TCLK. -/
def State.capArm (s : State) (g : Nat) : State :=
  (s.setCap g { Capture.reset with tsrc := s.get (FC_CAP_CFG_TSRC g), post := s.get (FC_CAP_POST_POST g), armAt := s.time }).set
    (FC_CAP_STAT_STATE g) capArmed

theorem State.writeCapArm_arm {s : State} (g : Nat) (en : s.on (FC_CAP_CFG_EN g)) : s.writeCapArm g 1 = s.capArm g := by
  unfold State.writeCapArm
  extract_lets st c u
  have armed : u = s.capArm g := if_pos ⟨rfl, en⟩
  rw [if_neg (by decide), if_neg (fun h => absurd h.1 (by decide)), armed]

theorem captureArm_runs (s : State) (g : GroupIx) (acts : s.actsNow) (en : s.on (FC_CAP_CFG_EN g)) :
    RunsTo (exec (.captureArm g 1) s) fun t =>
      t.get (FC_CAP_STAT_STATE g) = capArmed ∧ (t.group g).cap.tsrc = s.get (FC_CAP_CFG_TSRC g) ∧
      (t.group g).cap.post = s.get (FC_CAP_POST_POST g) ∧ (t.group g).cap.armAt = s.time ∧ (t.group g).cap.n = 0 ∧
      (t.group g).cap.trig = none ∧ Frame s t [.groups] (· ∈ [FC_CAP_STAT_STATE g]) := by
  have run : exec (.captureArm g 1) s = done s (s.capArm g) := by
    change done s (s.mirrored _ 1 fun s => s.writeCapArm g 1) = _
    rw [State.mirrored_actsNow _ _ _ _ acts, State.writeCapArm_arm g en]
  have state : (s.capArm g).get (FC_CAP_STAT_STATE g) = capArmed := State.get_set _ _ _ (Fld.inWord_of _ rfl)
  have cap : ((s.capArm g).group g).cap =
      { Capture.reset with tsrc := s.get (FC_CAP_CFG_TSRC g), post := s.get (FC_CAP_POST_POST g), armAt := s.time } := by
    rw [State.capArm, State.group_congr (State.set_groups ..), State.group_setCap]
  have frame : Frame s (s.capArm g) [.groups] (· ∈ [FC_CAP_STAT_STATE g]) :=
    (Frame.setGroup _ _ _ _ _ (by simp)).trans (Frame.set _ _ _ _ _ (Fld.inWord_of _ rfl) (by simp))
  rw [run]
  generalize s.capArm g = u at state cap frame
  refine runsTo_done _ _ _ ⟨?_, ?_, ?_, ?_, ?_, ?_, frame.trans (Frame.settle ..)⟩
  · rw [get_settle _ _ _ (capFld_notPba 0x904C rfl), state]
  all_goals rw [group_settle, cap]
  all_goals rfl

theorem State.writeCapArm_force {s : State} (g : Nat) (armed : s.get (FC_CAP_STAT_STATE g) = capArmed) :
    s.writeCapArm g 2 = s.capAwait g (tickOf (s.time + 1)) := by
  unfold State.writeCapArm
  extract_lets st c u
  have same : u = s := if_neg fun h => absurd h.1 (by decide)
  rw [if_neg (by decide), same, if_pos ⟨by decide, armed⟩]
  rfl

theorem State.capFire_sets (s : State) (g : Nat) : (s.capFire g).get (FC_CAP_STAT_STATE g) = capTriggered ∧
    (s.capFire g).get (FC_FLAGS_CAPTRIG g) = 1 ∧
    (s.capFire g).get (FC_CNT2_CAPTRIG g) = min (s.get (FC_CNT2_CAPTRIG g) + 1) 65535 ∧ (s.capFire g).groups = s.groups ∧
    Frame s (s.capFire g) [] (· ∈ [FC_CAP_STAT_STATE g, FC_FLAGS_CAPTRIG g, FC_CNT2_CAPTRIG g]) := by
  have state : (FC_FLAGS_CAPTRIG g).apart (FC_CAP_STAT_STATE g) ∧ (FC_CNT2_CAPTRIG g).apart (FC_CAP_STAT_STATE g) :=
    ⟨.inl (by simp only [FC_FLAGS_CAPTRIG, FC_FLAGS, FC_CAP_STAT_STATE, FC_CAP_STAT]; omega),
      .inl (by simp only [FC_CNT2_CAPTRIG, FC_CNT2, FC_CAP_STAT_STATE, FC_CAP_STAT]; omega)⟩
  have count : (FC_CNT2_CAPTRIG g).apart (FC_FLAGS_CAPTRIG g) := .inl (by simp only [FC_CNT2_CAPTRIG, FC_CNT2, FC_FLAGS_CAPTRIG, FC_FLAGS]; omega)
  unfold State.capFire
  refine ⟨?_, ?_, ?_, ?_, ?_⟩
  · rw [State.get_flag_apart _ _ _ _ (Fld.inWord_of _ rfl) (Fld.inWord_of _ rfl) state.1 state.2, State.get_set _ _ _ (Fld.inWord_of _ rfl)]
    rfl
  · exact State.get_flag _ _ _ (Fld.inWord_of _ rfl) (Fld.inWord_of _ rfl) count rfl
  · rw [State.get_flag_count _ _ _ (Fld.inWord_of _ rfl) (Fld.inWord_of _ rfl) (Fld.apart_symm count),
      State.get_set_apart _ _ _ _ (Fld.inWord_of _ rfl) (Fld.apart_symm state.2)]
    rfl
  · rw [State.flag_groups, State.set_groups]
  · exact (Frame.set _ _ _ _ _ (Fld.inWord_of _ rfl) (by simp)).trans
      (Frame.flag _ _ _ _ _ (Fld.inWord_of _ rfl) (Fld.inWord_of _ rfl) (by simp) (by simp))

theorem captureForce_runs (s : State) (g : GroupIx) (acts : s.actsNow) (armed : s.get (FC_CAP_STAT_STATE g) = capArmed) :
    RunsTo (exec (.captureForce g 2) s) fun t =>
      (t.group g).cap.thr = some (tickOf (s.time + 1)) ∧ t.get (FC_CAP_STAT_STATE g) = capTriggered ∧
      t.get (FC_FLAGS_CAPTRIG g) = 1 ∧ t.get (FC_CNT2_CAPTRIG g) = min (s.get (FC_CNT2_CAPTRIG g) + 1) 65535 ∧
      Frame s t [.groups] (· ∈ [FC_CAP_STAT_STATE g, FC_FLAGS_CAPTRIG g, FC_CNT2_CAPTRIG g]) := by
  have run : exec (.captureForce g 2) s = done s (s.capAwait g (tickOf (s.time + 1))) := by
    change doneIf _ s (s.mirrored _ 2 fun s => s.writeCapArm g 2) = _
    rw [doneIf_pos (by decide), State.mirrored_actsNow _ _ _ _ acts, State.writeCapArm_force g armed]
  obtain ⟨state, flag, count, groups, frame⟩ := (s.setCap g { (s.group g).cap with thr := some (tickOf (s.time + 1)) }).capFire_sets g
  rw [State.get_setCap] at count
  have taken : Frame s (s.setCap g { (s.group g).cap with thr := some (tickOf (s.time + 1)) }) [.groups]
      (· ∈ [FC_CAP_STAT_STATE g, FC_FLAGS_CAPTRIG g, FC_CNT2_CAPTRIG g]) := Frame.setGroup _ _ _ _ _ (by simp)
  rw [run, State.capAwait]
  refine runsTo_done _ _ _ ⟨?_, ?_, ?_, ?_, (taken.trans (frame.mono (by simp) fun _ => id)).trans (Frame.settle ..)⟩
  · rw [group_settle, State.group_congr groups, State.group_setCap]
  · rw [get_settle _ _ _ (capFld_notPba 0x904C rfl), state]
  · rw [get_settle _ _ _ (capFld_notPba 0x9000 rfl), flag]
  · rw [get_settle _ _ _ (capFld_notPba 0x900C rfl), count]

/-- The capture has reached DONE with its counts (R190). -/
def State.capClose (s : State) (g pre postn first : Nat) : State :=
  let c := (s.group g).cap
  let s := ((s.set (FC_CAP_STAT_PRE g) pre).set (FC_CAP_CNT_POSTN g) postn).set (FC_CAP_FIRST_ADDR g) first
  ((s.setCap g { c with thr := none }).set (FC_CAP_STAT_STATE g) capDone).flag (FC_FLAGS_CAPDONE g) (FC_CNT2_CAPDONE g)

theorem State.capEnd_of_trig {s : State} {g k w : Nat} (trig : (s.group g).cap.trig = some (k, w)) :
    ∃ pre first, s.capEnd g = s.capClose g pre ((s.group g).cap.n - k) first := by
  refine ⟨preFit k (capWords - ((s.group g).cap.n - k + 1) / 2),
    (w - min w (capWords - ((s.group g).cap.n - k + 1) / 2)) % capWords, ?_⟩
  unfold State.capEnd State.capClose
  dsimp only
  rw [trig]

theorem State.capEnd_closes (s : State) (g : Nat) : ∃ pre postn first, s.capEnd g = s.capClose g pre postn first := by
  rcases trig : (s.group g).cap.trig with _ | ⟨k, w⟩
  · refine ⟨preFit (s.group g).cap.n capWords, 0,
      (((s.group g).cap.n + 1) / 2 - min (((s.group g).cap.n + 1) / 2) capWords) % capWords, ?_⟩
    unfold State.capEnd State.capClose
    dsimp only
    rw [trig]
  · obtain ⟨pre, first, h⟩ := State.capEnd_of_trig trig
    exact ⟨pre, _, first, h⟩

/-- What the end of a capture may change beside its status register. -/
def capEndField (g : Nat) (y : Fld) : Prop :=
  y.reg = FC_CAP_STAT g ∨ y = FC_CAP_CNT_POSTN g ∨ y = FC_CAP_FIRST_ADDR g ∨ y = FC_FLAGS_CAPDONE g ∨ y = FC_CNT2_CAPDONE g

theorem State.capClose_sets (s : State) (g pre postn first : Nat) :
    (s.capClose g pre postn first).get (FC_CAP_STAT_STATE g) = capDone ∧ (s.capClose g pre postn first).get (FC_FLAGS_CAPDONE g) = 1 ∧
    (s.capClose g pre postn first).get (FC_CNT2_CAPDONE g) = min (s.get (FC_CNT2_CAPDONE g) + 1) 65535 ∧
    (s.capClose g pre postn first).get (FC_CAP_CNT_POSTN g) = postn % 2 ^ 19 ∧
    Frame s (s.capClose g pre postn first) [.groups] (capEndField g) := by
  unfold State.capClose
  extract_lets c u
  have counts : u.get (FC_CAP_CNT_POSTN g) = postn % 2 ^ 19 ∧ u.get (FC_CNT2_CAPDONE g) = s.get (FC_CNT2_CAPDONE g) ∧
      Frame s u [.groups] (capEndField g) := by
    refine ⟨?_, ?_, ((Frame.set _ _ _ _ _ (Fld.inWord_of _ rfl) (.inl rfl)).trans
      (Frame.set _ _ _ _ _ (Fld.inWord_of _ rfl) (.inr (.inl rfl)))).trans
      (Frame.set _ _ _ _ _ (Fld.inWord_of _ rfl) (.inr (.inr (.inl rfl))))⟩
    · rw [State.get_set_apart _ _ _ _ (Fld.inWord_of _ rfl)
        (.inl (by simp only [FC_CAP_FIRST_ADDR, FC_CAP_FIRST, FC_CAP_CNT_POSTN, FC_CAP_CNT]; omega)), State.get_set _ _ _ (Fld.inWord_of _ rfl)]
      rfl
    · rw [State.get_set_apart _ _ _ _ (Fld.inWord_of _ rfl)
          (.inl (by simp only [FC_CAP_FIRST_ADDR, FC_CAP_FIRST, FC_CNT2_CAPDONE, FC_CNT2]; omega)),
        State.get_set_apart _ _ _ _ (Fld.inWord_of _ rfl)
          (.inl (by simp only [FC_CAP_CNT_POSTN, FC_CAP_CNT, FC_CNT2_CAPDONE, FC_CNT2]; omega)),
        State.get_set_apart _ _ _ _ (Fld.inWord_of _ rfl)
          (.inl (by simp only [FC_CAP_STAT_PRE, FC_CAP_STAT, FC_CNT2_CAPDONE, FC_CNT2]; omega))]
  obtain ⟨number, before, frame⟩ := counts
  clear_value u
  have state : (FC_FLAGS_CAPDONE g).apart (FC_CAP_STAT_STATE g) ∧ (FC_CNT2_CAPDONE g).apart (FC_CAP_STAT_STATE g) :=
    ⟨.inl (by simp only [FC_FLAGS_CAPDONE, FC_FLAGS, FC_CAP_STAT_STATE, FC_CAP_STAT]; omega),
      .inl (by simp only [FC_CNT2_CAPDONE, FC_CNT2, FC_CAP_STAT_STATE, FC_CAP_STAT]; omega)⟩
  have count : (FC_CNT2_CAPDONE g).apart (FC_FLAGS_CAPDONE g) := .inl (by simp only [FC_CNT2_CAPDONE, FC_CNT2, FC_FLAGS_CAPDONE, FC_FLAGS]; omega)
  refine ⟨?_, State.get_flag _ _ _ (Fld.inWord_of _ rfl) (Fld.inWord_of _ rfl) count rfl, ?_, ?_, frame.trans ?_⟩
  · rw [State.get_flag_apart _ _ _ _ (Fld.inWord_of _ rfl) (Fld.inWord_of _ rfl) state.1 state.2, State.get_set _ _ _ (Fld.inWord_of _ rfl)]
    rfl
  · rw [State.get_flag_count _ _ _ (Fld.inWord_of _ rfl) (Fld.inWord_of _ rfl) (Fld.apart_symm count),
      State.get_set_apart _ _ _ _ (Fld.inWord_of _ rfl) (Fld.apart_symm state.2), State.get_setCap, before]
    rfl
  · rw [State.get_flag_apart _ _ _ _ (Fld.inWord_of _ rfl) (Fld.inWord_of _ rfl)
        (.inl (by simp only [FC_FLAGS_CAPDONE, FC_FLAGS, FC_CAP_CNT_POSTN, FC_CAP_CNT]; omega))
        (.inl (by simp only [FC_CNT2_CAPDONE, FC_CNT2, FC_CAP_CNT_POSTN, FC_CAP_CNT]; omega)),
      State.get_set_apart _ _ _ _ (Fld.inWord_of _ rfl)
        (.inl (by simp only [FC_CAP_STAT_STATE, FC_CAP_STAT, FC_CAP_CNT_POSTN, FC_CAP_CNT]; omega)), State.get_setCap, number]
  · exact ((Frame.setGroup _ _ _ _ _ (by simp)).trans (Frame.set _ _ _ _ _ (Fld.inWord_of _ rfl) (.inl rfl))).trans
      (Frame.flag _ _ _ _ _ (Fld.inWord_of _ rfl) (Fld.inWord_of _ rfl) (.inr (.inr (.inr (.inl rfl)))) (.inr (.inr (.inr (.inr rfl)))))

theorem State.writeCapArm_stop {s : State} (g : Nat) {v : Word} (stop : v.getLsbD 2)
    (runs : s.get (FC_CAP_STAT_STATE g) = capArmed ∨ s.get (FC_CAP_STAT_STATE g) = capTriggered) : s.writeCapArm g v = s.capEnd g := by
  unfold State.writeCapArm
  dsimp only
  rw [if_pos (fieldOf_of_bit stop), if_pos runs]

theorem captureStop_runs (s : State) (g : GroupIx) (v : Word) (acts : s.actsNow) (stop : v.getLsbD 2)
    (runs : s.get (FC_CAP_STAT_STATE g) = capArmed ∨ s.get (FC_CAP_STAT_STATE g) = capTriggered) :
    RunsTo (exec (.captureStop g v) s) fun t =>
      t.get (FC_CAP_STAT_STATE g) = capDone ∧ t.get (FC_FLAGS_CAPDONE g) = 1 ∧
      t.get (FC_CNT2_CAPDONE g) = min (s.get (FC_CNT2_CAPDONE g) + 1) 65535 ∧ Frame s t [.groups] (capEndField g) := by
  obtain ⟨pre, postn, first, close⟩ := s.capEnd_closes g
  have run : exec (.captureStop g v) s = done s (s.capClose g pre postn first) := by
    change doneIf _ s (s.mirrored _ v fun s => s.writeCapArm g v) = _
    rw [doneIf_pos (by rw [fieldOf_of_bit stop]; rfl), State.mirrored_actsNow _ _ _ _ acts, State.writeCapArm_stop g stop runs, close]
  obtain ⟨state, flag, count, _, frame⟩ := s.capClose_sets g pre postn first
  rw [run]
  refine runsTo_done _ _ _ ⟨?_, ?_, ?_, frame.trans (Frame.settle ..)⟩
  · rw [get_settle _ _ _ (capFld_notPba 0x904C rfl), state]
  · rw [get_settle _ _ _ (capFld_notPba 0x9000 rfl), flag]
  · rw [get_settle _ _ _ (capFld_notPba 0x900C rfl), count]

theorem captureDone_runs (s : State) (g : GroupIx) (k w : Nat) (trig : (s.group g).cap.trig = some (k, w))
    (runs : s.get (FC_CAP_STAT_STATE g) = capTriggered) (full : (s.group g).cap.n = k + (s.group g).cap.post)
    (post : (s.group g).cap.post ≤ 262144) : RunsTo (exec (.captureDone g) s) fun t =>
      t.get (FC_CAP_STAT_STATE g) = capDone ∧ t.get (FC_CAP_CNT_POSTN g) = (s.group g).cap.post ∧
      t.get (FC_FLAGS_CAPDONE g) = 1 ∧ t.mem = s.mem := by
  obtain ⟨pre, first, close⟩ := State.capEnd_of_trig trig
  have run : exec (.captureDone g) s = done s (s.capClose g pre ((s.group g).cap.n - k) first) := by
    change execCaptureDone g s = _
    unfold execCaptureDone
    rw [trig, ← close]
    exact congrArg (done s) (if_pos ⟨runs, full.ge⟩)
  obtain ⟨state, flag, _, number, frame⟩ := s.capClose_sets g pre ((s.group g).cap.n - k) first
  rw [run]
  refine runsTo_done _ _ _ ⟨?_, ?_, ?_, (frame.trans (Frame.settle s _ _ _)).part .mem (by simp)⟩
  · rw [get_settle _ _ _ (capFld_notPba 0x904C rfl), state]
  · rw [get_settle _ _ _ (capFld_notPba 0x9050 rfl), number, full]
    omega
  · rw [get_settle _ _ _ (capFld_notPba 0x9000 rfl), flag]

/-! ### The host read pointers (R186, R191) -/

/-- A pointer within the unread words is stored. -/
theorem State.writeRptr_within {s : State} {ev : Bool} {g r : Nat} (still : s.logDrains ev g = false)
    (within : (s.get (logWptr ev g) + 2 * logSize ev - r) % (2 * logSize ev) ≤ logSize ev) :
    s.writeRptr ev g r = s.set (logRptr ev g) r := by
  unfold State.writeRptr
  dsimp only
  rw [still, if_neg (by decide), if_pos within]

theorem fieldOf_rptr (v : Word) : fieldOf v 28 16 = v.toNat / 65536 % 8192 ∧ fieldOf v 29 16 = v.toNat / 65536 % 16384 := by
  simp only [fieldOf]
  norm_num

theorem logRptrWrite_runs (s : State) (g : GroupIx) (v : Word) (ready : s.ready) (still : s.on (FC_LOG_CTL_HOST g) = false)
    (within : (s.get (FC_LOG_PTR_WPTR g) + 8192 - v.toNat / 65536 % 8192) % 8192 ≤ 4096) :
    RunsTo (exec (.logRptrWrite g v) s) fun t =>
      t.get (FC_LOG_PTR_RPTR g) = v.toNat / 65536 % 8192 ∧ Frame s t [] (· ∈ [FC_LOG_PTR_RPTR g]) := by
  have inside : (s.get (logWptr false g) + 2 * logSize false - v.toNat / 65536 % 8192) % (2 * logSize false) ≤ logSize false := by
    simpa [logSize, logWptr] using within
  have run : exec (.logRptrWrite g v) s = done s (s.set (FC_LOG_PTR_RPTR g) (v.toNat / 65536 % 8192)) := by
    change hostDone s (s.writeRptr false g (fieldOf v 28 16)) = _
    rw [hostDone_ready _ ready, (fieldOf_rptr v).1, State.writeRptr_within (ev := false) still inside]
    rfl
  rw [run]
  refine runsTo_done _ _ _ ⟨?_, (Frame.set _ _ _ _ _ (Fld.inWord_of _ rfl) (by simp)).trans (Frame.settle ..)⟩
  rw [get_settle _ _ _ (capFld_notPba 0x9034 rfl), State.get_set _ _ _ (Fld.inWord_of _ rfl)]
  exact Nat.mod_mod ..

theorem evRptrWrite_runs (s : State) (g : GroupIx) (v : Word) (ready : s.ready) (still : s.on (FC_EV_CTL_DMA g) = false)
    (within : (s.get (FC_EV_PTR_WPTR g) + 16384 - v.toNat / 65536 % 16384) % 16384 ≤ 8192) :
    RunsTo (exec (.evRptrWrite g v) s) fun t =>
      t.get (FC_EV_PTR_RPTR g) = v.toNat / 65536 % 16384 ∧ Frame s t [] (· ∈ [FC_EV_PTR_RPTR g]) := by
  have inside : (s.get (logWptr true g) + 2 * logSize true - v.toNat / 65536 % 16384) % (2 * logSize true) ≤ logSize true := by
    simpa [logSize, logWptr] using within
  have run : exec (.evRptrWrite g v) s = done s (s.set (FC_EV_PTR_RPTR g) (v.toNat / 65536 % 16384)) := by
    change hostDone s (s.writeRptr true g (fieldOf v 29 16)) = _
    rw [hostDone_ready _ ready, (fieldOf_rptr v).2, State.writeRptr_within (ev := true) still inside]
    rfl
  rw [run]
  refine runsTo_done _ _ _ ⟨?_, (Frame.set _ _ _ _ _ (Fld.inWord_of _ rfl) (by simp)).trans (Frame.settle ..)⟩
  rw [get_settle _ _ _ (capFld_notPba 0x9074 rfl), State.get_set _ _ _ (Fld.inWord_of _ rfl)]
  exact Nat.mod_mod ..

/-- Settles O22: ARM and FORCE by their branches of the write, STOP and the last vector by what the end of a capture sets. -/
theorem captureAndPointers : Obligations.CaptureAndPointers :=
  ⟨captureArm_runs, captureForce_runs, captureStop_runs, captureDone_runs, logRptrWrite_runs, evRptrWrite_runs⟩

end Sys2Proof.Machine
end

section
/-! An edge of TRIG_IN that wakes the sample oscillator (R131, R204). -/

namespace Sys2Proof.Machine

/-! ### An edge of TRIG_IN before the wake -/

/-- The fields by which an armed capture shows its trigger. -/
def capTrigField (y : Fld) : Prop := ∃ g, y = FC_CAP_STAT_STATE g ∨ y = FC_FLAGS_CAPTRIG g ∨ y = FC_CNT2_CAPTRIG g

/-- From `s` to `t` only captures, players and trigger engines have acted, and no sample tick waits. -/
structure Edged (s t : State) : Prop where
  frame : Frame s t [.groups, .trigs] capTrigField
  due : ∀ g, (t.wp g).due = []

theorem State.wp_setGroup_due (s : State) (g : Nat) (x : Group) (still : ∀ k, (s.wp k).due = []) (same : x.wp.due = []) (k : Nat) :
    ((s.setGroup g x).wp k).due = [] := by
  rw [State.wp]
  by_cases e : g = k
  · subst e
    by_cases hg : g < 32
    · rw [State.group_setGroup _ _ _ hg, same]
    · rw [State.setGroup, dif_neg hg]
      exact still g
  · rw [State.group_setGroup_ne _ _ _ _ e]
    exact still k

theorem Edged.setGroup {s t : State} (h : Edged s t) (g : Nat) (x : Group) (same : x.wp.due = []) : Edged s (t.setGroup g x) :=
  ⟨h.frame.trans (Frame.setGroup _ _ _ _ _ (by simp)), State.wp_setGroup_due t g x h.due same⟩

theorem Edged.capAwait {s t : State} (h : Edged s t) (g : Nat) (b : Tick) : Edged s (t.capAwait g b) := by
  have taken : Edged s (t.setCap g { (t.group g).cap with thr := some b }) := h.setGroup g _ (h.due g)
  obtain ⟨_, _, _, groups, frame⟩ := (t.setCap g { (t.group g).cap with thr := some b }).capFire_sets g
  refine ⟨taken.frame.trans (frame.mono (by simp) fun y hy => ⟨g, by simpa using hy⟩), fun k => ?_⟩
  rw [State.wp, State.capAwait, State.group_congr groups]
  exact taken.due k

theorem Edged.trigInCapture {s t : State} (h : Edged s t) (k : Nat) : Edged s (t.trigInCapture k) := by
  refine State.forEach_holds (Edged s) _ (fun u g hu => ?_) t _ h
  dsimp only
  split
  · exact hu.capAwait ..
  · exact hu

/-- A player without a waiting tick has nothing to catch up. -/
theorem State.wpCatch_of_still {s : State} {g : Nat} (still : (s.wp g).due = []) : s.wpCatch g = s := by
  rw [State.wpCatch, still]
  rfl

theorem Edged.wpTrig {s t : State} (h : Edged s t) (k : Nat) : Edged s (t.wpTrig k) := by
  refine State.forEach_holds (Edged s) _ (fun u g hu => ?_) t _ h
  dsimp only
  rw [State.wpCatch_of_still (hu.due g)]
  exact hu.setGroup g _ (hu.due g)

theorem Edged.teExternal {s t : State} (h : Edged s t) (n i : Nat) : Edged s (t.teExternal n i) :=
  ⟨h.frame.trans (Frame.parts _ (fun p hp => by cases p <;> simp [State.samePart, State.teExternal, State.setTe] at *) rfl), h.due⟩

/-- What an edge of TRIG_IN does before the wake of the sample oscillator. -/
def State.trigInSeen (s : State) (k : Nat) : State :=
  ((s.trigInCapture k).wpTrig k).forEach (List.range 4) fun s n => s.teExternal n k

theorem State.trigInSeen_edged {s : State} (still : ∀ g, (s.wp g).due = []) (k : Nat) : Edged s (s.trigInSeen k) :=
  State.forEach_holds (Edged s) _ (fun _ _ hu => hu.teExternal ..) _ _
    ((Edged.trigInCapture ⟨.refl .., still⟩ k).wpTrig k)

theorem Edged.kept {s t : State} (h : Edged s t) {x : Fld} (pba : x.reg.notPba) (off : ∀ g, x.reg.addr ≠ groupBase g + 0x904C ∧
    x.reg.addr ≠ groupBase g + 0x9000 ∧ x.reg.addr ≠ groupBase g + 0x900C) : t.get x = s.get x :=
  h.frame.reg x pba fun y hy => by
    obtain ⟨g, rfl | rfl | rfl⟩ := hy
    · exact .inl (off g).1.symm
    · exact .inl (off g).2.1.symm
    · exact .inl (off g).2.2.symm

/-- R131: an edge that wakes the stopped oscillator takes one free value of the model. -/
theorem trigInRise_wakes {s : State} (still : ∀ g, (s.wp g).due = []) (run : s.on (CP_SM_CTL_RUN 0)) (stopped : s.on smRunning = false)
    (wakes : s.bit (CP_SM_CTL_WSRC 0) 1) : RunsTo (exec (.trigInRise 0) s) fun t => t.free = s.free + 1 := by
  have edged := State.trigInSeen_edged still 0
  have ctl : ∀ x : Fld, x.reg = CP_SM_CTL 0 ∨ x.reg = CP_SM_STAT 0 → (s.trigInSeen 0).get x = s.get x := fun x hx => by
    have addr : x.reg.addr = groupBase 0 + 0x6040 ∨ x.reg.addr = groupBase 0 + 0x6044 := by
      rcases hx with h | h
      · exact .inl (by rw [h]; rfl)
      · exact .inr (by rw [h]; rfl)
    refine edged.kept ?_ fun g => ?_
    · rcases addr with h | h
      · exact TG_DSK_notPba h
      · exact TG_DSK_notPba h
    · simp only [groupBase] at *
      omega
  have run' : (s.trigInSeen 0).on (CP_SM_CTL_RUN 0) = true := (State.on_congr (ctl _ (.inl rfl))).trans run
  have stopped' : (s.trigInSeen 0).on smRunning = false := (State.on_congr (ctl _ (.inr rfl))).trans stopped
  have wakes' : (s.trigInSeen 0).bit (CP_SM_CTL_WSRC 0) 1 = true := by
    rw [State.bit, ctl _ (.inl rfl)]
    exact wakes
  have exec_eq : exec (.trigInRise 0) s = done s ((s.trigInSeen 0).smStart.count (CP_SM_STAT_WAKES 0) 1) := by
    change done s (if (s.trigInSeen 0).bit (CP_SM_CTL_WSRC 0) 1 then (s.trigInSeen 0).smWake else s.trigInSeen 0) = _
    rw [if_pos wakes', State.smWake_of_run run' stopped']
  obtain ⟨next, start⟩ := (s.trigInSeen 0).smStart_eq
  have free : (s.trigInSeen 0).free = s.free := edged.frame.part .free (by simp)
  rw [exec_eq]
  refine runsTo_done _ _ _ ?_
  rw [settle_free, start, ← free]
  rfl

/-- At READY with the oscillator stopped and TRIG_IN0 as its wake source. -/
def stoppedSampler : State := (State.reset.set smRunning 0).set (CP_SM_CTL_WSRC 0) 2

theorem stoppedSampler_still (g : Nat) : (stoppedSampler.wp g).due = [] := by
  have groups : stoppedSampler.groups = State.reset.groups := by rw [stoppedSampler, State.set_groups, State.set_groups]
  rw [State.wp, State.group_congr groups, State.group]
  split
  · rw [State.reset, Vector.getElem_replicate]
    rfl
  · rfl

theorem stoppedSampler_wakes : stoppedSampler.on (CP_SM_CTL_RUN 0) = true ∧ stoppedSampler.on smRunning = false ∧
    stoppedSampler.bit (CP_SM_CTL_WSRC 0) 1 = true := by
  have run : stoppedSampler.get (CP_SM_CTL_RUN 0) = 1 := by
    rw [stoppedSampler, State.get_set_apart _ (CP_SM_CTL_WSRC 0) (CP_SM_CTL_RUN 0) _ (Fld.inWord_of _ rfl) (Fld.apart_of _ _ rfl rfl),
      State.get_set_apart _ _ _ _ (Fld.inWord_of _ rfl) (.inl (by decide)), State.get_reset]
    rfl
  have stopped : stoppedSampler.get smRunning = 0 := by
    rw [stoppedSampler, State.get_set_apart _ _ _ _ (Fld.inWord_of _ rfl) (.inl (by decide)), State.get_set _ _ _ (Fld.inWord_of _ rfl)]
    rfl
  have source : stoppedSampler.get (CP_SM_CTL_WSRC 0) = 2 := by
    rw [stoppedSampler, State.get_set _ _ _ (Fld.inWord_of _ rfl)]
    rfl
  rw [State.on, State.on, State.bit, run, stopped, source]
  exact ⟨rfl, rfl, rfl⟩

/-- Refutes O23: where an edge of TRIG_IN0 wakes the stopped oscillator (R131), the next state has taken a free value of
the model, which the frame of that clause leaves out. -/
theorem not_triggerEngines : ¬ Obligations.TriggerEngines := by
  intro h
  obtain ⟨_, _, _, trigIn, _⟩ := h
  obtain ⟨run, stopped, wakes⟩ := stoppedSampler_wakes
  obtain ⟨t, next, _, _, _, frame⟩ := trigIn stoppedSampler 0 fun g _ => stoppedSampler_still g
  obtain ⟨u, next', free⟩ := trigInRise_wakes stoppedSampler_still run stopped wakes
  rw [next] at next'
  injection next' with same
  subst same
  have kept : t.free = stoppedSampler.free := frame.part .free (by simp)
  omega

end Sys2Proof.Machine
end

section
/-! Waveform players (R205, R209 to R214). -/

namespace Sys2Proof.Machine

/-! ### Starts and stops of a player (R205, R210, R211) -/

theorem levelField_apart_wp {g k a : Nat} {x y : Fld} (h : levelField g y) (hx : x.reg.addr = groupBase k + a) (lo : 0xA000 ≤ a)
    (hi : a < 0x10000) : y.apart x := by
  refine .inl ?_
  rw [hx]
  rcases h with ⟨p, hp, d, hd, rfl⟩ | h
  · simp only [LS_OUT_CODE, LS_OUT, groupBase]
    omega
  · obtain ⟨j, jlo, jhi⟩ := groupRegs_viol h
    unfold groupBase at *
    omega

/-- What the walk over the outputs leaves of the WP registers. -/
theorem Walk.get_wp {g k a : Nat} {s t : State} (h : Walk (levelField g) s t) {x : Fld} (hx : x.reg.addr = groupBase k + a)
    (lo : 0xA000 ≤ a) (hi : a < 0x10000) : t.get x = s.get x :=
  h.frame.reg x (TG_DSK_notPba hx) fun _ hy => levelField_apart_wp hy hx lo hi

theorem State.wp_setWp (s : State) (g : GroupIx) (x : Player) : (s.setWp g x).wp g = x := by
  rw [State.wp, State.setWp, State.group_setGroup _ _ _ g.isLt]

theorem Frame.setWp (s : State) (w : Fld → Prop) (g : Nat) (x : Player) : Frame s (s.setWp g x) [.groups, .sys] w :=
  .setGroup _ _ _ _ _ (by simp)

theorem State.wpLoadUnder_eq (s : State) (g : Nat) :
    ∃ n r a l, s.wpLoadUnder g = s.setWp g { s.wp g with uSeg := n, resume := r, uStart := a, uLen := l } := ⟨_, _, _, _, rfl⟩

theorem State.wpLoadSeg_eq (s : State) (g : Nat) : ∃ n a l m, s.wpLoadSeg g =
    ((s.wpLoadUnder g).setWp g { (s.wpLoadUnder g).wp g with pos := 0, start := a, len := l, strm := m }).set (WP_STAT_SEG g) n :=
  ⟨_, _, _, _, rfl⟩

/-- A segment starts at its first sample; beside the player the group is the same. -/
theorem State.wpLoadSeg_sets (s : State) (g : GroupIx) : ((s.wpLoadSeg g).wp g).pos = 0 ∧
    ((s.wpLoadSeg g).wp g).armed = (s.wp g).armed ∧ ((s.wpLoadSeg g).group g).wpOwn = (s.group g).wpOwn ∧
    Frame s (s.wpLoadSeg g) [.groups, .sys] (fun y => y = WP_STAT_SEG g) := by
  obtain ⟨n, a, l, m, seg⟩ := s.wpLoadSeg_eq g
  obtain ⟨k, r, b, j, under⟩ := s.wpLoadUnder_eq g
  rw [seg]
  have first : ((s.wpLoadUnder g).group g) = { s.group g with wp := { s.wp g with uSeg := k, resume := r, uStart := b, uLen := j } } := by
    rw [under]
    exact State.group_setGroup _ _ _ g.isLt
  have load : Frame s (s.wpLoadUnder g) [.groups, .sys] (fun y => y = WP_STAT_SEG g) := by
    rw [under]
    exact .setWp ..
  generalize s.wpLoadUnder g = u at first load
  have second : ((u.setWp g { u.wp g with pos := 0, start := a, len := l, strm := m }).group g) =
      { u.group g with wp := { u.wp g with pos := 0, start := a, len := l, strm := m } } := State.group_setGroup _ _ _ g.isLt
  have all : Frame s ((u.setWp g { u.wp g with pos := 0, start := a, len := l, strm := m }).set (WP_STAT_SEG g) n) [.groups, .sys]
      (fun y => y = WP_STAT_SEG g) := (load.trans (.setWp ..)).trans (.set _ _ _ _ _ (Fld.inWord_of _ rfl) rfl)
  refine ⟨?_, ?_, ?_, all⟩
  · rw [State.wp, State.group_congr (State.set_groups ..), second]
  · rw [State.wp, State.group_congr (State.set_groups ..), second, State.wp, first]
  · rw [State.group_congr (State.set_groups ..), second, first]

/-- The registers that the start of a player writes before ownership. -/
def wpStatField (g : Nat) (y : Fld) : Prop := y.reg = WP_STAT g ∨ y = WP_REP_REP g

theorem wpStat_notPba (g : Nat) : (WP_STAT g).notPba := TG_DSK_notPba (a := 0xA050) rfl

/-- R212: an entry is entered at its first segment. -/
theorem State.wpEnter_sets (s : State) (g : GroupIx) {e : Nat} (he : e < 64) : (s.wpEnter g e).get (WP_STAT_ENTRY g) = e ∧
    (s.wpEnter g e).get (WP_REP_REP g) = 0 ∧ (s.wpEnter g e).wpState g = s.wpState g ∧ ((s.wpEnter g e).wp g).pos = 0 ∧
    ((s.wpEnter g e).wp g).armed = (s.wp g).armed ∧ ((s.wpEnter g e).group g).wpOwn = (s.group g).wpOwn ∧
    Frame s (s.wpEnter g e) [.groups, .sys] (wpStatField g) := by
  unfold State.wpEnter
  extract_lets x u
  have rep : (WP_REP_REP g).reg.addr ≠ (WP_STAT g).addr := by simp only [WP_REP_REP, WP_REP, WP_STAT]; omega
  have plain : ∀ y, u.get y = ((s.set (WP_STAT_ENTRY g) e).set (WP_REP_REP g) 0).get y := State.get_setGroup _ _ _
  have entry : u.get (WP_STAT_ENTRY g) = e := by
    rw [plain, State.get_set_apart _ (WP_REP_REP g) (WP_STAT_ENTRY g) _ (Fld.inWord_of _ rfl) (.inl rep),
      State.get_set _ _ _ (Fld.inWord_of _ rfl)]
    exact Nat.mod_eq_of_lt he
  have zero : u.get (WP_REP_REP g) = 0 := by
    rw [plain, State.get_set _ _ _ (Fld.inWord_of _ rfl)]
    rfl
  have state : u.wpState g = s.wpState g := by
    rw [State.wpState, plain, State.get_set_apart _ (WP_REP_REP g) (WP_STAT_STATE g) _ (Fld.inWord_of _ rfl) (.inl rep),
      State.get_set_apart _ (WP_STAT_ENTRY g) (WP_STAT_STATE g) _ (Fld.inWord_of _ rfl) (Fld.apart_of _ _ rfl rfl)]
    rfl
  have groups : u.group g = { s.group g with wp := { s.wp g with trig := 0, fires := 0 } } := State.group_setGroup _ _ _ g.isLt
  have frame : Frame s u [.groups, .sys] (wpStatField g) :=
    ((Frame.set _ _ _ _ _ (Fld.inWord_of _ rfl) (.inl rfl)).trans (.set _ _ _ _ _ (Fld.inWord_of _ rfl) (.inr rfl))).trans (.setWp ..)
  clear_value u
  obtain ⟨pos, armed, own, seg⟩ := u.wpLoadSeg_sets g
  have kept : ∀ x : Fld, x.reg.notPba → (WP_STAT_SEG g).apart x → (u.wpLoadSeg g).get x = u.get x := fun x pba h =>
    seg.reg x pba fun y hy => hy ▸ h
  refine ⟨?_, ?_, ?_, pos, armed.trans (by rw [State.wp, groups]), own.trans (by rw [groups]), frame.trans (seg.mono (fun _ => id) ?_)⟩
  · rw [kept (WP_STAT_ENTRY g) (wpStat_notPba g) (Fld.apart_of _ _ rfl rfl), entry]
  · rw [kept (WP_REP_REP g) (TG_DSK_notPba (a := 0xA054) rfl) (.inl rep.symm), zero]
  · rw [State.wpState, kept (WP_STAT_STATE g) (wpStat_notPba g) (Fld.apart_of _ _ rfl rfl)]
    exact state
  · rintro y rfl
    exact .inl rfl

/-- R205: ownership of the DACs of CHMASK. -/
theorem State.wpOwned_owns (s : State) (g : Nat) {p : Nat} (hp : p < 16) (mask : s.bit (WP_CHMASK_MASK g) p) :
    ∃ o ∈ s.wpOwned g, o.1 = p ∧ o.2.1 = s.get (WP_CTL_DAC g) := by
  unfold State.wpOwned
  dsimp only
  refine ⟨_, List.mem_map_of_mem (mem_bitsOf.2 ⟨hp, mask⟩), ?_⟩
  split
  · next o found =>
    simpa using List.find?_some found
  · exact ⟨rfl, rfl⟩

theorem State.wpReown_sets (s : State) (g : GroupIx) : ((s.wpReown g).wp g) = s.wp g ∧
    (∀ p, p < 16 → s.bit (WP_CHMASK_MASK g) p → ∃ o ∈ ((s.wpReown g).group g).wpOwn, o.1 = p ∧ o.2.1 = s.get (WP_CTL_DAC g)) ∧
    (∀ {x : Fld} {a : Nat}, x.reg.addr = groupBase g + a → 0xA000 ≤ a → a < 0x10000 → (s.wpReown g).get x = s.get x) ∧
    Frame s (s.wpReown g) [.groups, .sys] (outField g) := by
  unfold State.wpReown
  have owned : (s.setGroup g { s.group g with wpOwn := s.wpOwned g }).group g = { s.group g with wpOwn := s.wpOwned g } :=
    State.group_setGroup _ _ _ g.isLt
  have given : Frame s (s.setGroup g { s.group g with wpOwn := s.wpOwned g }) [.groups, .sys] (outField g) :=
    .setGroup _ _ _ _ _ (by simp)
  have same : ∀ x, (s.setGroup g { s.group g with wpOwn := s.wpOwned g }).get x = s.get x := State.get_setGroup _ _ _
  generalize s.setGroup g { s.group g with wpOwn := s.wpOwned g } = u at owned given same
  have walk := Walk.retargetGroup u g
  refine ⟨?_, fun p hp mask => ?_, fun hx lo hi => (walk.get_wp hx lo hi).trans (same _), given.trans (walk.frame.mono (fun _ => id) ?_)⟩
  · rw [State.wp, walk.rest.field Group.wp (fun _ _ => rfl), owned]
    rfl
  · rw [walk.rest.field Group.wpOwn (fun _ _ => rfl), owned]
    exact s.wpOwned_owns g hp mask
  · exact fun y hy => hy.imp (fun ⟨p, _, d, _, e⟩ => ⟨p, d, e⟩) id

/-- R210: the player plays from an entry. -/
theorem State.wpBegin_sets (s : State) (g : GroupIx) {e : Nat} (he : e < 64) (en : s.on (WP_CTL_EN g)) (stopped : s.wpRuns g = false) :
    (s.wpBegin g e).wpState g = wpPlaying ∧ (s.wpBegin g e).get (WP_STAT_ENTRY g) = e ∧ (s.wpBegin g e).get (WP_REP_REP g) = 0 ∧
    ((s.wpBegin g e).wp g).pos = 0 ∧ ((s.wpBegin g e).wp g).armed = none ∧
    (∀ p, p < 16 → s.bit (WP_CHMASK_MASK g) p → ∃ o ∈ ((s.wpBegin g e).group g).wpOwn, o.1 = p ∧ o.2.1 = s.get (WP_CTL_DAC g)) ∧
    Frame s (s.wpBegin g e) [.groups, .sys] (fun y => y.reg = WP_STAT g ∨ y = WP_REP_REP g ∨ outField g y) := by
  unfold State.wpBegin
  rw [en, stopped, if_neg (by decide)]
  extract_lets u
  have playing : u.wpState g = wpPlaying := by
    rw [State.wpState, State.get_set_apart _ (WP_STAT_JPEND g) (WP_STAT_STATE g) _ (Fld.inWord_of _ rfl) (Fld.apart_of _ _ rfl rfl),
      State.get_set _ _ _ (Fld.inWord_of _ rfl)]
    rfl
  have frame : Frame s u [.groups, .sys] (wpStatField g) :=
    (Frame.set _ _ _ _ _ (Fld.inWord_of _ rfl) (.inl rfl)).trans (.set _ _ _ _ _ (Fld.inWord_of _ rfl) (.inl rfl))
  clear_value u
  have begun : ((u.setWp g { u.wp g with armed := none, due := [], high := u.phase }).wp g).armed = none ∧
      (u.setWp g { u.wp g with armed := none, due := [], high := u.phase }).wpState g = wpPlaying := by
    rw [State.wp_setWp, State.wpState, State.setWp, State.get_setGroup]
    exact ⟨rfl, playing⟩
  have frame' := frame.trans (.setWp u _ g { u.wp g with armed := none, due := [], high := u.phase })
  generalize u.setWp g { u.wp g with armed := none, due := [], high := u.phase } = v at begun frame'
  obtain ⟨entry, rep, state, pos, armed, _, enter⟩ := v.wpEnter_sets g he
  have all := frame'.trans enter
  generalize v.wpEnter g e = w at *
  obtain ⟨wp, owns, kept, reown⟩ := w.wpReown_sets g
  have ctl : w.get (WP_CTL_DAC g) = s.get (WP_CTL_DAC g) ∧ w.get (WP_CHMASK_MASK g) = s.get (WP_CHMASK_MASK g) := by
    refine ⟨all.reg _ (TG_DSK_notPba (a := 0xA014) rfl) fun y hy => .inl ?_, all.reg _ (TG_DSK_notPba (a := 0xA018) rfl) fun y hy => .inl ?_⟩
    all_goals
      rcases hy with e | e
      · rw [e]
        simp only [WP_STAT, WP_CTL_DAC, WP_CTL, WP_CHMASK_MASK, WP_CHMASK]
        omega
      · rw [e]
        simp only [WP_REP_REP, WP_REP, WP_CTL_DAC, WP_CTL, WP_CHMASK_MASK, WP_CHMASK]
        omega
  refine ⟨?_, ?_, ?_, ?_, ?_, fun p hp mask => ?_, (all.mono (fun _ => id) fun y h => h.imp id .inl).trans
    (reown.mono (fun _ => id) fun y h => .inr (.inr h))⟩
  · rw [State.wpState, kept (a := 0xA050) rfl (by decide) (by decide)]
    exact state.trans begun.2
  · rw [kept (a := 0xA050) rfl (by decide) (by decide), entry]
  · rw [kept (a := 0xA054) rfl (by decide) (by decide), rep]
  · rw [wp, pos]
  · rw [wp, armed, begun.1]
  · rw [← ctl.1]
    exact owns p hp (by rw [State.bit, ctl.2]; exact mask)

theorem fieldOf_jent (v : Word) : fieldOf v 5 0 = v.toNat % 64 := by
  rw [fieldOf, Nat.pow_zero, Nat.div_one]
  rfl

theorem wpStart_runs (s : State) (g : GroupIx) (v : Word) (acts : s.actsNow) (start : v.getLsbD 31) (on : v.getLsbD 30 = false)
    (en : s.on (WP_CTL_EN g)) (stopped : s.wpRuns g = false) (still : (s.wp g).due = []) : RunsTo (exec (.wpStart g v) s) fun t =>
      t.wpState g = wpPlaying ∧
      t.get (WP_STAT_ENTRY g) = (if v.getLsbD 29 then v.toNat % 64 else s.get (WP_CTL_ENTRY0 g)) ∧
      t.get (WP_REP_REP g) = 0 ∧ (t.wp g).pos = 0 ∧ (t.wp g).armed = none ∧
      (∀ p, p < 16 → s.bit (WP_CHMASK_MASK g) p → ∃ o ∈ (t.group g).wpOwn, o.1 = p ∧ o.2.1 = s.get (WP_CTL_DAC g)) ∧
      Frame s t [.groups, .sys] (fun y => y.reg = WP_STAT g ∨ y = WP_REP_REP g ∨ outField g y) := by
  have he : (if v.getLsbD 29 then v.toNat % 64 else s.get (WP_CTL_ENTRY0 g)) < 64 := by
    split
    · exact Nat.mod_lt _ (by decide)
    · exact State.get_lt s (WP_CTL_ENTRY0 g)
  have run : exec (.wpStart g v) s = done s (s.wpBegin g (if v.getLsbD 29 then v.toNat % 64 else s.get (WP_CTL_ENTRY0 g))) := by
    change doneIf _ s (s.mirrored _ v fun s => s.writeWpCmd g v) = _
    rw [doneIf_pos (by rw [fieldOf_of_bit start]; rfl), State.mirrored_actsNow _ _ _ _ acts]
    unfold State.writeWpCmd
    dsimp only
    rw [State.wpCatch_of_still still, if_neg (by rw [fieldOf_of_not_bit on]; decide), fieldOf_of_bit start, stopped, if_pos (by rfl)]
    have entry : (if fieldOf v 29 29 == 1 then fieldOf v 5 0 else s.get (WP_CTL_ENTRY0 g)) =
        if v.getLsbD 29 then v.toNat % 64 else s.get (WP_CTL_ENTRY0 g) := by
      cases jump : v.getLsbD 29 with
      | true =>
        rw [fieldOf_of_bit jump]
        exact fieldOf_jent v
      | false =>
        rw [fieldOf_of_not_bit jump]
        rfl
    rw [entry]
  obtain ⟨state, entry, rep, pos, armed, own, frame⟩ := s.wpBegin_sets g he en stopped
  rw [run]
  generalize s.wpBegin g _ = u at *
  refine runsTo_done _ _ _ ⟨?_, ?_, ?_, ?_, ?_, ?_, frame.trans (Frame.settle ..)⟩
  · rw [State.wpState, get_settle _ _ _ (wpStat_notPba g)]
    exact state
  · rw [get_settle _ _ _ (wpStat_notPba g), entry]
  · rw [get_settle _ _ _ (TG_DSK_notPba (a := 0xA054) rfl), rep]
  · rw [State.wp, group_settle]
    exact pos
  · rw [State.wp, group_settle]
    exact armed
  · rw [group_settle]
    exact own

/-! ### STOP, JUMP and ARM -/

/-- R211: a player that plays is IDLE, and its DACs return to the level set in force. -/
theorem State.wpHalt_sets (s : State) (g : GroupIx) (plays : s.wpState g = wpPlaying) : (s.wpHalt g).wpState g = wpIdle ∧
    (s.wpHalt g).get (WP_STAT_JPEND g) = 0 ∧ ((s.wpHalt g).group g).wpOwn = [] ∧ ((s.wpHalt g).wp g).armed = none ∧
    ((s.wpHalt g).wp g).flight = [] ∧ Frame s (s.wpHalt g) [.groups, .sys] (fun y => y.reg = WP_STAT g ∨ outField g y) := by
  have written : s.wpHalt g = (((s.set (WP_STAT_STATE g) wpIdle).set (WP_STAT_JPEND g) 0).setWp g
      { (s.wp g) with armed := none, due := [] }).wpRelease g := by
    unfold State.wpHalt
    rw [if_neg (by rw [plays]; decide)]
  rw [written]
  have state : ((s.set (WP_STAT_STATE g) wpIdle).set (WP_STAT_JPEND g) 0).get (WP_STAT_STATE g) = wpIdle := by
    rw [State.get_set_apart _ (WP_STAT_JPEND g) (WP_STAT_STATE g) _ (Fld.inWord_of _ rfl) (Fld.apart_of _ _ rfl rfl),
      State.get_set _ _ _ (Fld.inWord_of _ rfl)]
    rfl
  have jpend : ((s.set (WP_STAT_STATE g) wpIdle).set (WP_STAT_JPEND g) 0).get (WP_STAT_JPEND g) = 0 := by
    rw [State.get_set _ _ _ (Fld.inWord_of _ rfl)]
    rfl
  have frame : Frame s ((s.set (WP_STAT_STATE g) wpIdle).set (WP_STAT_JPEND g) 0) [.groups, .sys] (fun y => y.reg = WP_STAT g ∨ outField g y) :=
    (Frame.set _ _ _ _ _ (Fld.inWord_of _ rfl) (.inl rfl)).trans (.set _ _ _ _ _ (Fld.inWord_of _ rfl) (.inl rfl))
  generalize (s.set (WP_STAT_STATE g) wpIdle).set (WP_STAT_JPEND g) 0 = u at state jpend frame
  generalize stopped : { (s.wp g) with armed := none, due := [] } = x
  have none_armed : x.armed = none := by rw [← stopped]
  unfold State.wpRelease
  have plain : ∀ y, ((u.setWp g x).setGroup g { (u.setWp g x).group g with wpOwn := [], wp := { (u.setWp g x).wp g with flight := [] } }).get y
      = u.get y := fun y => (State.get_setGroup ..).trans (State.get_setGroup ..)
  have group : ((u.setWp g x).setGroup g { (u.setWp g x).group g with wpOwn := [], wp := { (u.setWp g x).wp g with flight := [] } }).group g =
      { (u.setWp g x).group g with wpOwn := [], wp := { x with flight := [] } } := by
    rw [State.group_setGroup _ _ _ g.isLt, State.wp_setWp]
  have all := (frame.trans (.setWp u _ g x)).trans (.setGroup _ _ _ g
    { (u.setWp g x).group g with wpOwn := [], wp := { (u.setWp g x).wp g with flight := [] } } (by simp))
  generalize (u.setWp g x).setGroup g _ = v at plain group all
  have walk := Walk.retargetGroup v g
  refine ⟨?_, ?_, ?_, ?_, ?_, all.trans (walk.frame.mono (fun _ => id) fun y hy => .inr (hy.imp (fun ⟨p, _, d, _, e⟩ => ⟨p, d, e⟩) id))⟩
  · rw [State.wpState, walk.get_wp (a := 0xA050) rfl (by decide) (by decide), plain, state]
  · rw [walk.get_wp (a := 0xA050) rfl (by decide) (by decide), plain, jpend]
  · rw [walk.rest.field Group.wpOwn (fun _ _ => rfl), group]
  · rw [State.wp, walk.rest.field Group.wp (fun _ _ => rfl), group]
    exact none_armed
  · rw [State.wp, walk.rest.field Group.wp (fun _ _ => rfl), group]

theorem wpStop_runs (s : State) (g : GroupIx) (v : Word) (acts : s.actsNow) (stop : v.getLsbD 30) (plays : s.wpState g = wpPlaying)
    (still : (s.wp g).due = []) : RunsTo (exec (.wpStop g v) s) fun t =>
      t.wpState g = wpIdle ∧ t.get (WP_STAT_JPEND g) = 0 ∧ (t.group g).wpOwn = [] ∧ (t.wp g).armed = none ∧
      (t.wp g).flight = [] ∧
      Frame s t [.groups, .sys] (fun y => y.reg = WP_STAT g ∨ outField g y) := by
  have run : exec (.wpStop g v) s = done s (s.wpHalt g) := by
    change doneIf _ s (s.mirrored _ v fun s => s.writeWpCmd g v) = _
    rw [doneIf_pos (by rw [fieldOf_of_bit stop]; rfl), State.mirrored_actsNow _ _ _ _ acts]
    unfold State.writeWpCmd
    dsimp only
    rw [State.wpCatch_of_still still, if_pos (fieldOf_of_bit stop)]
  obtain ⟨state, jpend, own, armed, flight, frame⟩ := s.wpHalt_sets g plays
  rw [run]
  generalize s.wpHalt g = u at *
  refine runsTo_done _ _ _ ⟨?_, ?_, ?_, ?_, ?_, frame.trans (Frame.settle ..)⟩
  · rw [State.wpState, get_settle _ _ _ (wpStat_notPba g)]
    exact state
  · rw [get_settle _ _ _ (wpStat_notPba g), jpend]
  · rw [group_settle, own]
  · rw [State.wp, group_settle]
    exact armed
  · rw [State.wp, group_settle]
    exact flight

theorem wpJump_runs (s : State) (g : GroupIx) (v : Word) (acts : s.actsNow) (jump : v.getLsbD 29) (on : v.getLsbD 30 = false)
    (runs : s.wpRuns g) (still : (s.wp g).due = []) : RunsTo (exec (.wpJump g v) s) fun t =>
      t.get (WP_STAT_JPEND g) = 1 ∧ (t.wp g).jent = v.toNat % 64 ∧ t.wpState g = s.wpState g ∧
      Frame s t [.groups] (· ∈ [WP_STAT_JPEND g]) := by
  have run : exec (.wpJump g v) s = done s ((s.set (WP_STAT_JPEND g) 1).setWp g
      { (s.wp g) with jent := v.toNat % 64 }) := by
    change doneIf _ s (s.mirrored _ v fun s => s.writeWpCmd g v) = _
    rw [doneIf_pos (by rw [fieldOf_of_bit jump]; rfl), State.mirrored_actsNow _ _ _ _ acts]
    unfold State.writeWpCmd
    dsimp only
    rw [State.wpCatch_of_still still, if_neg (by rw [fieldOf_of_not_bit on]; decide), runs, Bool.not_true, Bool.and_false,
      if_neg (by decide), if_pos (by rw [fieldOf_of_bit jump]; rfl), State.wpRequest, if_pos runs, fieldOf_jent]
  have asked : (s.set (WP_STAT_JPEND g) 1).get (WP_STAT_JPEND g) = 1 := by
    rw [State.get_set _ _ _ (Fld.inWord_of _ rfl)]
    rfl
  have state : (s.set (WP_STAT_JPEND g) 1).get (WP_STAT_STATE g) = s.get (WP_STAT_STATE g) :=
    State.get_set_apart _ (WP_STAT_JPEND g) (WP_STAT_STATE g) _ (Fld.inWord_of _ rfl) (Fld.apart_of _ _ rfl rfl)
  have frame : Frame s (s.set (WP_STAT_JPEND g) 1) [.groups] (· ∈ [WP_STAT_JPEND g]) := .set _ _ _ _ _ (Fld.inWord_of _ rfl) (by simp)
  rw [run]
  generalize s.set (WP_STAT_JPEND g) 1 = u at asked state frame
  refine runsTo_done _ _ _ ⟨?_, ?_, ?_, (frame.trans (.setGroup _ _ _ _ _ (by simp))).trans (Frame.settle ..)⟩
  · rw [get_settle _ _ _ (wpStat_notPba g), State.setWp, State.get_setGroup, asked]
  · rw [State.wp, group_settle]
    exact congrArg Player.jent (u.wp_setWp g _)
  · rw [State.wpState, get_settle _ _ _ (wpStat_notPba g), State.setWp, State.get_setGroup]
    exact state

theorem wpSctlArm_runs (s : State) (g : GroupIx) (v : Word) (acts : s.actsNow) (arm : v.getLsbD 31) (stopped : s.wpRuns g = false) :
    RunsTo (exec (.wpSctlArm g v) s) fun t =>
      t.wpState g = wpArmed ∧ t.get (WP_SCTL_KIND g) = v.toNat % 8 ∧
      ((t.wp g).armed.map fun a => (a.1, a.2.2)) = some (v.toNat % 8, s.time) ∧
      Frame s t [.groups] (· ∈ [WP_STAT_STATE g, WP_SCTL_KIND g]) := by
  have apart : (WP_SCTL_KIND g).apart (WP_STAT_STATE g) := .inl (by simp only [WP_SCTL_KIND, WP_SCTL, WP_STAT_STATE, WP_STAT]; omega)
  have kind : (s.set (WP_SCTL_KIND g) (v.toNat % 8)).get (WP_SCTL_KIND g) = v.toNat % 8 := by
    rw [State.get_set _ _ _ (Fld.inWord_of _ rfl)]
    exact Nat.mod_mod ..
  have state : (s.set (WP_SCTL_KIND g) (v.toNat % 8)).wpRuns g = false := by
    rw [State.wpRuns, State.wpState, State.get_set_apart _ _ _ _ (Fld.inWord_of _ rfl) apart]
    exact stopped
  have time : (s.set (WP_SCTL_KIND g) (v.toNat % 8)).time = s.time := State.set_time ..
  have frame : Frame s (s.set (WP_SCTL_KIND g) (v.toNat % 8)) [.groups] (· ∈ [WP_STAT_STATE g, WP_SCTL_KIND g]) :=
    .set _ _ _ _ _ (Fld.inWord_of _ rfl) (by simp)
  have low : fieldOf v 2 0 = v.toNat % 8 := by
    rw [fieldOf, Nat.pow_zero, Nat.div_one]
    rfl
  have run : exec (.wpSctlArm g v) s = done s (s.writeWpSctl g v) := by
    change done s (s.mirrored _ v fun s => s.writeWpSctl g v) = _
    rw [State.mirrored_actsNow _ _ _ _ acts]
  rw [run]
  unfold State.writeWpSctl
  rw [low]
  generalize s.set (WP_SCTL_KIND g) (v.toNat % 8) = u at *
  rw [if_pos ⟨fieldOf_of_bit arm, by rw [state]; rfl⟩, kind, time]
  generalize u.wpEpochTarget g = target
  have armed : (u.set (WP_STAT_STATE g) wpArmed).get (WP_STAT_STATE g) = wpArmed := by
    rw [State.get_set _ _ _ (Fld.inWord_of _ rfl)]
    rfl
  have kept : (u.set (WP_STAT_STATE g) wpArmed).get (WP_SCTL_KIND g) = v.toNat % 8 := by
    rw [State.get_set_apart _ _ _ _ (Fld.inWord_of _ rfl) (Fld.apart_symm apart), kind]
  have all := frame.trans (Frame.set u _ _ (WP_STAT_STATE g) wpArmed (Fld.inWord_of _ rfl) (by simp))
  generalize u.set (WP_STAT_STATE g) wpArmed = w at armed kept all
  refine runsTo_done _ _ _ ⟨?_, ?_, ?_, (all.trans (.setGroup _ _ _ _ _ (by simp))).trans (Frame.settle ..)⟩
  · rw [State.wpState, get_settle _ _ _ (wpStat_notPba g), State.setWp, State.get_setGroup, armed]
  · rw [get_settle _ _ _ (TG_DSK_notPba (a := 0xA044) rfl), State.setWp, State.get_setGroup, kept]
  · rw [State.wp, group_settle]
    exact congrArg (fun x : Player => x.armed.map fun a => (a.1, a.2.2)) (w.wp_setWp g _)

/-! ### Sample ticks (R212, R214, R205) -/

/-- The ticks of the front update are taken from the wait. -/
def State.wpTaken (s : State) (g : Nat) (at_ : Time) (rest : List (Time × Nat)) : State :=
  { s.setWp g { s.wp g with due := rest } with time := at_ }

theorem exec_wpSampleTick {s : State} {g : GroupIx} {at_ : Time} {n : Nat} {rest : List (Time × Nat)} (ecc : EccResult)
    (front : (s.wp g).due = (at_, n) :: rest) (due : reached s.time (at_ + 1)) : exec (.wpSampleTick ⟨g, ecc⟩) s =
      done s { (s.wpTaken g at_ rest).wpTicks g at_ ecc n with time := s.time } := by
  change done s (s.wpTick g ecc) = _
  unfold State.wpTick
  rw [front]
  have time : (s.setWp g { s.wp g with due := rest }).time = s.time := State.setGroup_time ..
  refine congrArg (done s) ((if_pos due).trans ?_)
  rw [State.asOf, time]
  rfl

theorem State.wpTaken_sets (s : State) (g : GroupIx) (at_ : Time) (rest : List (Time × Nat)) :
    (s.wpTaken g at_ rest).wp g = { s.wp g with due := rest } ∧ (∀ x, (s.wpTaken g at_ rest).get x = s.get x) ∧
    (s.wpTaken g at_ rest).mem = s.mem :=
  ⟨s.wp_setWp g _, fun _ => State.get_setGroup .., State.setGroup_mem ..⟩

/-- The ticks of a player that does not run. -/
theorem State.wpTicks_of_stopped {s : State} {g : Nat} (t : Time) (ecc : EccResult) (stopped : s.wpRuns g = false) (n : Nat) :
    s.wpTicks g t ecc n = s := by
  induction n with
  | zero => rfl
  | succ n ih =>
    have one : ∀ last e, s.wpSample g t last e = s := fun last e => by
      unfold State.wpSample
      rw [stopped]
      rfl
    rw [State.wpTicks, one, ih]

theorem wpSampleTick_stopped_runs (s : State) (g : GroupIx) (ecc : EccResult) (at_ : Time) (n : Nat) (rest : List (Time × Nat))
    (front : (s.wp g).due = (at_, n) :: rest) (due : reached s.time (at_ + 1)) (stopped : s.wpRuns g = false) :
    RunsTo (exec (.wpSampleTick ⟨g, ecc⟩) s) fun t => (t.wp g).due = rest ∧ Frame s t [.groups] (fun _ => False) := by
  obtain ⟨wp, gets, _⟩ := s.wpTaken_sets g at_ rest
  have still : (s.wpTaken g at_ rest).wpRuns g = false := by
    rw [State.wpRuns, State.wpState, gets]
    exact stopped
  rw [exec_wpSampleTick ecc front due, State.wpTicks_of_stopped at_ ecc still n]
  refine runsTo_done _ _ _ ⟨?_, .trans ?_ (Frame.settle ..)⟩
  · rw [State.wp, group_settle]
    exact congrArg Player.due wp
  · exact (Frame.setGroup s [.groups] (fun _ => False) g { s.group g with wp := { s.wp g with due := rest } } (by simp)).trans
      (.parts _ (fun p _ => by cases p <;> simp [State.samePart, State.wpTaken, State.setWp]) rfl)

theorem State.wpWord_congr {s t : State} (h : t.mem = s.mem) (g a : Nat) : t.wpWord g a = s.wpWord g a := by
  unfold State.wpWord State.memWord
  rw [h]

theorem State.sramRead_sets (s : State) (m : Nat) (ecc : EccResult) : (s.sramRead m ecc).groups = s.groups ∧ (s.sramRead m ecc).live = s.live ∧
    (s.sramRead m ecc).mem = s.mem := by
  cases ecc with
  | good => exact ⟨rfl, rfl, rfl⟩
  | corrected => exact ⟨rfl, rfl, rfl⟩
  | uncorrectable => exact ⟨rfl, rfl, rfl⟩

/-- R214: the marks of a sample act at their registers, the engine and the snapshots. -/
theorem Frame.wpMarks (s : State) (g x : Nat) (t : Time) : Frame s (s.wpMarks g x t) [.engines, .sn] (groupRegs 0xA060 0xC000) := by
  unfold State.wpMarks
  extract_lets u v
  have timed : Frame s u [.engines, .sn] (groupRegs 0xA060 0xC000) :=
    Frame.setTime _ _ _ _ _ _ (Fld.inWord_of _ rfl) (Fld.inWord_of _ rfl) ⟨g, by simp only [WP_MARKT_LO_T_LO, WP_MARKT_LO]; omega⟩
      ⟨g, by simp only [WP_MARKT_HI_T_HI, WP_MARKT_HI]; omega⟩
  have marked : Frame s v [.engines, .sn] (groupRegs 0xA060 0xC000) := by
    change Frame s (if x.testBit 16 then u.causeRouted (WP_CTL_MCAUSE g) (WP_CTL_CTX g) (WP_CTL_PRIO g) g .event else s) _ _
    split
    · refine timed.trans (Frame.causeRouted _ _ _ _ _ _ _ _ (by simp) fun y hy => ?_)
      obtain ⟨k, lo, hi⟩ := causeField_of (State.get_lt _ (WP_CTL_CTX g)) hy
      exact ⟨k, by omega⟩
    · exact .refl ..
  clear_value v
  split
  · exact marked.trans (Frame.snapRequestAt _ _ _ _ _ _ (by simp))
  · exact marked

/-- A plain segment with samples left gives its next one. -/
theorem State.wpNext_of_plain {s : State} {g : Nat} (t : Time) (plays : s.wpState g = wpPlaying) (plain : (s.wp g).strm = false)
    (more : (s.wp g).pos < (s.wp g).len) :
    s.wpNext g t = (s.setWp g { s.wp g with pos := (s.wp g).pos + 1 }, some (((s.wp g).start + (s.wp g).pos) % 65536)) := by
  unfold State.wpNext
  dsimp only
  rw [if_neg (by rw [plays]; decide), if_neg more.ne]
  have take : s.wpTake g t = (s.setWp g { s.wp g with pos := (s.wp g).pos + 1 }, ((s.wp g).start + (s.wp g).pos) % 65536) :=
    if_neg (by rw [plain]; decide)
  rw [take]

/-- What a sample that issues leaves (R205). -/
theorem State.wpIssue_sets (s : State) (g : GroupIx) (addr code : Nat) (t : Time)
    (small : max (s.get (WP_LIM_LO g)) (min (s.get (WP_LIM_HI g)) code) < 65536)
    (ha : addr < 65536) :
    (s.wpIssue g addr code t).get (WP_POS_ADDR g) = addr ∧
    (s.wpIssue g addr code t).get (WP_POS_CODE g) = max (s.get (WP_LIM_LO g)) (min (s.get (WP_LIM_HI g)) code) ∧
    ∃ x, (s.wpIssue g addr code t).wp g = { s.wp g with lastIssue := some t, flight := (s.wp g).flight ++ [x] } ∧ x.1 = t + 64 ∧
      x.2.1.toNat = max (s.get (WP_LIM_LO g)) (min (s.get (WP_LIM_HI g)) code) := by
  unfold State.wpIssue
  extract_lets c u v mask
  have groups : v.groups = s.groups := by
    change (u.set _ _ |>.set _ _).groups = _
    rw [State.set_groups, State.set_groups]
    change (if c = code then s else s.flag (WP_FLAGS_SCLAMP g) (WP_CNT0_SCLAMP g)).groups = s.groups
    split
    · rfl
    · exact State.flag_groups ..
  have pos : v.get (WP_POS_ADDR g) = addr ∧ v.get (WP_POS_CODE g) = c := by
    refine ⟨?_, ?_⟩
    · rw [State.get_set _ _ _ (Fld.inWord_of _ rfl)]
      exact Nat.mod_eq_of_lt ha
    · rw [State.get_set_apart _ (WP_POS_ADDR g) (WP_POS_CODE g) _ (Fld.inWord_of _ rfl) (Fld.apart_of _ _ rfl rfl),
        State.get_set _ _ _ (Fld.inWord_of _ rfl)]
      exact Nat.mod_eq_of_lt small
  clear_value v
  have wp : v.wp g = s.wp g := congrArg Group.wp (State.group_congr groups g)
  refine ⟨?_, ?_, (later t 64, BitVec.ofNat 16 c, v.get (WP_CTL_DAC g), mask), ?_, ?_, ?_⟩
  · rw [State.setWp, State.get_setGroup, pos.1]
  · rw [State.setWp, State.get_setGroup, pos.2]
  · rw [State.wp_setWp]
    exact congrArg (fun y : Player => { y with lastIssue := some t,
                                               flight := y.flight ++ [(later t 64, BitVec.ofNat 16 c, v.get (WP_CTL_DAC g), mask)] }) wp
  · rfl
  · exact (BitVec.toNat_ofNat ..).trans (Nat.mod_eq_of_lt small)

/-- One due sample of a plain segment: issued within LIM, or, where its word is lost, taken without an output (R19). -/
theorem State.wpSample_of_plain {s : State} {g : GroupIx} (t : Time) (ecc : EccResult) (plays : s.wpState g = wpPlaying)
    (plain : (s.wp g).strm = false) (more : (s.wp g).pos < (s.wp g).len) (first : (s.wp g).lastIssue = none)
    (limits : s.get (WP_LIM_LO g) ≤ s.get (WP_LIM_HI g)) (hi : s.get (WP_LIM_HI g) < 65536) :
    ((s.wpSample g t true ecc).wp g).pos = (s.wp g).pos + 1 ∧ ((s.wpSample g t true ecc).wp g).due = (s.wp g).due ∧
    (ecc ≠ .uncorrectable → (s.wpSample g t true ecc).get (WP_POS_ADDR g) = ((s.wp g).start + (s.wp g).pos) % 65536 ∧
      (s.wpSample g t true ecc).get (WP_POS_CODE g) = max (s.get (WP_LIM_LO g)) (min (s.get (WP_LIM_HI g))
        (s.wpWord g (((s.wp g).start + (s.wp g).pos) % 65536) % 65536)) ∧ ((s.wpSample g t true ecc).wp g).lastIssue = some t ∧
      ∃ x, ((s.wpSample g t true ecc).wp g).flight = (s.wp g).flight ++ [x] ∧ x.1 = t + 64 ∧
        x.2.1.toNat = (s.wpSample g t true ecc).get (WP_POS_CODE g)) ∧
    (ecc = .uncorrectable → (s.wpSample g t true ecc).get (WP_POS_CODE g) = s.get (WP_POS_CODE g) ∧
      ((s.wpSample g t true ecc).wp g).flight = (s.wp g).flight) := by
  have runs : (!s.wpRuns g) = false := by
    rw [State.wpRuns, plays]
    rfl
  unfold State.wpSample
  rw [runs, if_neg (by decide), State.wpNext_of_plain t plays plain more]
  dsimp only
  have wp := s.wp_setWp g { s.wp g with pos := (s.wp g).pos + 1 }
  have gets : ∀ x, (s.setWp g { s.wp g with pos := (s.wp g).pos + 1 }).get x = s.get x := fun x => State.get_setGroup ..
  have mem : (s.setWp g { s.wp g with pos := (s.wp g).pos + 1 }).mem = s.mem := State.setGroup_mem ..
  generalize s.setWp g { s.wp g with pos := (s.wp g).pos + 1 } = u at wp gets mem
  obtain ⟨groups', live', mem'⟩ := u.sramRead_sets (waveMem g) ecc
  have wp' : (u.sramRead (waveMem g) ecc).wp g = { s.wp g with pos := (s.wp g).pos + 1 } :=
    (congrArg Group.wp (State.group_congr groups' g)).trans wp
  have gets' : ∀ x, (u.sramRead (waveMem g) ecc).get x = s.get x := fun x => (State.get_congr live' x).trans (gets x)
  have word := State.wpWord_congr (mem'.trans mem) g (((s.wp g).start + (s.wp g).pos) % 65536)
  generalize u.sramRead (waveMem g) ecc = v at wp' gets' word
  rw [word]
  by_cases lost : ecc = .uncorrectable
  · rw [if_pos lost, wp']
    exact ⟨rfl, rfl, fun h => absurd lost h, fun _ => ⟨gets' _, rfl⟩⟩
  · rw [if_neg lost]
    generalize s.wpWord g (((s.wp g).start + (s.wp g).pos) % 65536) = x
    have marks := Frame.wpMarks v g x t
    have wp'' : (v.wpMarks g x t).wp g = { s.wp g with pos := (s.wp g).pos + 1 } :=
      (congrArg Group.wp (State.group_congr (marks.part .groups (by simp)) g)).trans wp'
    have lim : ∀ y : Fld, y.reg = WP_LIM g → (v.wpMarks g x t).get y = s.get y := fun y hy => by
      have addr : y.reg.addr = groupBase g + 0xA028 := by rw [hy]; rfl
      refine (marks.reg y (TG_DSK_notPba addr) fun z ⟨k, lo, hi⟩ => .inl ?_).trans (gets' y)
      rw [addr]
      unfold groupBase at *
      omega
    generalize v.wpMarks g x t = w at wp'' lim
    have never : (w.wp g).lastIssue = none := (congrArg Player.lastIssue wp'').trans first
    rw [never]
    dsimp only
    rw [if_pos (by rfl)]
    obtain ⟨addr, code, y, issued, at_, out⟩ := w.wpIssue_sets g (((s.wp g).start + (s.wp g).pos) % 65536) (x % 65536) t
      (by rw [lim (WP_LIM_LO g) rfl, lim (WP_LIM_HI g) rfl]; omega) (Nat.mod_lt _ (by decide))
    rw [lim (WP_LIM_LO g) rfl, lim (WP_LIM_HI g) rfl] at code out
    rw [issued, wp'']
    exact ⟨rfl, rfl, fun _ => ⟨addr, code, rfl, y, rfl, at_, out.trans code.symm⟩, fun h => absurd h lost⟩

theorem wpSampleTick_runs (s : State) (g : GroupIx) (ecc : EccResult) (at_ : Time) (rest : List (Time × Nat))
    (front : (s.wp g).due = (at_, 1) :: rest) (due : reached s.time (at_ + 1)) (plays : s.wpState g = wpPlaying)
    (plain : (s.wp g).strm = false) (more : (s.wp g).pos < (s.wp g).len) (first : (s.wp g).lastIssue = none)
    (limits : s.get (WP_LIM_LO g) ≤ s.get (WP_LIM_HI g)) (hi : s.get (WP_LIM_HI g) < 65536) :
    RunsTo (exec (.wpSampleTick ⟨g, ecc⟩) s) fun t =>
      (t.wp g).pos = (s.wp g).pos + 1 ∧ (t.wp g).due = rest ∧ t.time = s.time ∧
      (ecc ≠ .uncorrectable → t.get (WP_POS_ADDR g) = ((s.wp g).start + (s.wp g).pos) % 65536 ∧
        t.get (WP_POS_CODE g) = max (s.get (WP_LIM_LO g)) (min (s.get (WP_LIM_HI g))
          (s.wpWord g (((s.wp g).start + (s.wp g).pos) % 65536) % 65536)) ∧ (t.wp g).lastIssue = some at_ ∧
        ∃ x, (t.wp g).flight = (s.wp g).flight ++ [x] ∧ x.1 = at_ + 64 ∧ x.2.1.toNat = t.get (WP_POS_CODE g)) ∧
      (ecc = .uncorrectable → t.get (WP_POS_CODE g) = s.get (WP_POS_CODE g) ∧ (t.wp g).flight = (s.wp g).flight) := by
  obtain ⟨wp, gets, mem⟩ := s.wpTaken_sets g at_ rest
  have word := State.wpWord_congr mem g (((s.wp g).start + (s.wp g).pos) % 65536)
  rw [exec_wpSampleTick ecc front due]
  generalize s.wpTaken g at_ rest = u at wp gets mem word
  have one : u.wpTicks g at_ ecc 1 = u.wpSample g at_ true ecc := rfl
  obtain ⟨pos, left, issued, lost⟩ := State.wpSample_of_plain (s := u) (g := g) at_ ecc ((gets _).trans plays) (by rw [wp]; exact plain)
    (by rw [wp]; exact more) (by rw [wp]; exact first) (by rw [gets, gets]; exact limits) (by rw [gets]; exact hi)
  rw [wp] at pos left issued lost
  rw [gets, gets] at issued
  rw [gets] at lost
  rw [one]
  generalize u.wpSample g at_ true ecc = v at pos left issued lost
  have same : ∀ k, (settle s { v with time := s.time }).wp k = v.wp k := fun k => congrArg Group.wp (group_settle ..)
  have reads : ∀ x : Fld, x.reg.notPba → (settle s { v with time := s.time }).get x = v.get x := fun x hx => get_settle _ _ _ hx
  refine runsTo_done _ _ _ ⟨?_, ?_, ?_, fun good => ?_, fun bad => ?_⟩
  · rw [same, pos]
  · rw [same, left]
  · rw [settle_time]
  · rw [same, reads _ (TG_DSK_notPba (a := 0xA058) rfl), reads (WP_POS_CODE g) (TG_DSK_notPba (a := 0xA058) rfl), ← word]
    exact issued good
  · rw [same, reads _ (TG_DSK_notPba (a := 0xA058) rfl)]
    exact lost bad

/-! ### A sample reaches the die (R205) -/

theorem SameRest.wpFollow (s : State) (g p d : Nat) : SameRest s (s.wpFollow g p d) := by
  unfold State.wpFollow State.retarget
  split
  · split
    · exact SameRest.refl _
    · exact SameRest.follow s g p d
  · exact SameRest.follow s g p d

theorem Walk.wpFollow (s : State) (g p d : Nat) : Walk (outField g) s (s.wpFollow g p d) := by
  refine ⟨.wpFollow s g p d, ?_⟩
  unfold State.wpFollow
  split
  · exact Frame.retarget _ _ _ _ _ _ (by simp) (.inl ⟨p, d, rfl⟩) fun _ => ⟨by simp, fun _ => .inr⟩
  · exact Frame.follow _ _ _ _ _ _ (by simp) (.inl ⟨p, d, rfl⟩) fun _ => ⟨by simp, fun _ => .inr⟩

theorem Walk.wpFollows (s : State) (g d : Nat) (l : List Nat) : Walk (outField g) s (l.foldl (fun s p => s.wpFollow g p d) s) := by
  induction l generalizing s with
  | nil => exact .refl ..
  | cons p l ih => exact (Walk.wpFollow ..).trans (ih _)

theorem wpSampleTarget_runs (s : State) (g : GroupIx) (at_ : Time) (code mask : BitVec 16) (d : Nat)
    (rest : List (Time × BitVec 16 × Nat × BitVec 16)) (front : (s.wp g).flight = (at_, code, d, mask) :: rest)
    (due : reached s.time at_) : RunsTo (exec (.wpSampleTarget g) s) fun t =>
      (t.wp g).flight = rest ∧
      (t.group g).wpOwn = (s.group g).wpOwn.map (fun o => if o.2.1 = d ∧ mask.getLsbD o.1 then (o.1, d, code) else o) ∧
      Frame s t [.groups, .sys] (outField g) := by
  have run : exec (.wpSampleTarget g) s = done s ((s.setWp g { s.wp g with flight := rest }).wpTarget g code d mask) := by
    change execWpSampleTarget g s = _
    unfold execWpSampleTarget
    rw [front]
    exact congrArg (done s) (if_pos due)
  rw [run]
  generalize flown : { s.wp g with flight := rest } = x
  have left : x.flight = rest := by rw [← flown]
  unfold State.wpTarget
  extract_lets hit own
  have owned : own = (s.group g).wpOwn.map (fun o => if o.2.1 = d ∧ mask.getLsbD o.1 then (o.1, d, code) else o) := by
    have same : ((s.setWp g x).group g).wpOwn = (s.group g).wpOwn := by
      rw [State.setWp, State.group_setGroup _ _ _ g.isLt]
    rw [← same]
    refine List.map_congr_left fun o _ => ?_
    by_cases taken : o.2.1 = d ∧ mask.getLsbD o.1
    · have hits : hit o = true := by
        change (o.2.1 == d && mask.getLsbD o.1) = true
        rw [Bool.and_eq_true, beq_iff_eq]
        exact taken
      rw [if_pos hits, if_pos taken, taken.1]
    · have leaves : ¬ hit o = true := by
        change ¬ (o.2.1 == d && mask.getLsbD o.1) = true
        rw [Bool.and_eq_true, beq_iff_eq]
        exact taken
      rw [if_neg leaves, if_neg taken]
  have group : ((s.setWp g x).setGroup g { (s.setWp g x).group g with wpOwn := own }).group g = { s.group g with wp := x, wpOwn := own } := by
    rw [State.group_setGroup _ _ _ g.isLt, State.setWp, State.group_setGroup _ _ _ g.isLt]
  have taken : Frame s ((s.setWp g x).setGroup g { (s.setWp g x).group g with wpOwn := own }) [.groups, .sys] (outField g) :=
    (Frame.setWp ..).trans (.setGroup _ _ _ _ _ (by simp))
  generalize (s.setWp g x).setGroup g { (s.setWp g x).group g with wpOwn := own } = u at group taken
  have walk := Walk.wpFollows u g d ((own.filter hit).map (·.1))
  refine runsTo_done _ _ _ ⟨?_, ?_, (taken.trans walk.frame).trans (Frame.settle ..)⟩
  · rw [State.wp, group_settle]
    refine (congrArg Player.flight ((walk.rest.field Group.wp (fun _ _ => rfl) g).trans (congrArg Group.wp group))).trans left
  · rw [group_settle]
    exact ((walk.rest.field Group.wpOwn (fun _ _ => rfl) g).trans (congrArg Group.wpOwn group)).trans owned

/-- Settles O24: each command by its branch; the outputs are walked over by one frame that leaves the WP registers. -/
theorem waveformPlayer : Obligations.WaveformPlayer :=
  ⟨wpStart_runs, wpStop_runs, wpJump_runs, wpSctlArm_runs, wpSampleTick_stopped_runs, wpSampleTick_runs, wpSampleTarget_runs⟩

end Sys2Proof.Machine
end

section
/-! One microword of the vendor's image: issue, final fields and the end of an instruction (R300 to R309). -/

namespace Sys2Proof.Machine

/-! ### The vendor's image (R309) -/

/-- The microword of the vendor's image at a micro-address. -/
def vendorMicro (k : Nat) : Micro := Micro.of (vendorEntries.getD k 0)

/-- ISSUE, NAM = DISPATCH, PCOP 1 and nothing else. -/
def plainMicro : Micro :=
  { na := 0, nam := 1, tsel := 0, issue := true, vsrc := 0, vainc := false, cntdec := false, vforce := 0, hold := 0, pcop := 1, stkop := 0,
    flagw := false, clrt := false, ctxop := 0, clampev := false, trap := false, trace := 0, aluf := 0, asel := 0, bsel := 0, dsel := 0,
    xreq := 0, imm := 0 }

theorem vendorMicro_nop : vendorMicro 0x00 = plainMicro := by decide
theorem vendorMicro_undefined : vendorMicro 0x3F = { plainMicro with clampev := true } := by decide
theorem vendorMicro_jmp : vendorMicro 0x0A = { plainMicro with pcop := 2 } := by decide
theorem vendorMicro_movq : vendorMicro 0x23 = { plainMicro with aluf := 4, asel := 1, dsel := 2, flagw := true } := by decide

theorem vendorRoutine_undefined {op : Nat} (h : op ∉ definedOps) : vendorRoutine op = none := by
  unfold vendorRoutine
  split
  case h_32 => rfl
  all_goals exact absurd (by decide) h

/-- An undefined opcode has the routine at 0x3F. -/
theorem vendorDispatch_undefined {op : Nat} (small : op < 256) (h : op ∉ definedOps) : vendorDispatch.getD op 0 = 0x3F := by
  rw [vendorDispatch, List.getD_eq_getElem _ _ (by simpa using small), List.getElem_map, List.getElem_range, vendorRoutine_undefined h]
  rfl

theorem opOf_lt (i : Native) : opOf i < 256 := Nat.mod_lt _ (by decide)

theorem CsEntry.badSlices_make (w : BitVec 144) : (CsEntry.make w).badSlices = 0 := BitVec.xor_self

theorem DispEntry.bad_make (w : BitVec 16) : (DispEntry.make w).bad = false := by
  simp [DispEntry.bad, DispEntry.make]

/-! ### A context that stands at its instruction -/

section
variable {s : State} {l c : Nat} {i : Native} (h : s.Stands l c i)
include h

theorem State.Stands.fetchEntry {k : Nat} (hk : k < 64) : s.fetchEntry l k = s := by
  unfold State.fetchEntry
  split
  · exact if_pos (by rw [h.store k hk, CsEntry.badSlices_make])
  · rfl

theorem State.Stands.fetchDisp_of {t : State} (same : t.disp = s.disp) (img : t.imgDisp = s.imgDisp) {op : Nat} (hop : op < 256) :
    t.fetchDisp l op = t ∧ t.dispEntry l op = DispEntry.make (vendorDispatch.getD op 0) := by
  have entry : t.dispEntry l op = DispEntry.make (vendorDispatch.getD op 0) := by
    rw [← h.image op hop]
    unfold State.dispEntry
    rw [same, img]
  refine ⟨?_, entry⟩
  unfold State.fetchDisp
  split
  · exact if_pos (by rw [entry, DispEntry.bad_make]; rfl)
  · rfl

/-- What dispatch enters of an instruction (R304, R305). -/
theorem State.Stands.dispatch_of {t : State} (same : t.disp = s.disp) (img : t.imgDisp = s.imgDisp) :
    ∃ x : Engine, t.dispatch l c = t.setEngine l x ∧ x.dispatched = true ∧ x.instr = t.iStore l (t.ctxPc l c) ∧
      x.msgs = (t.engine l).msgs ∧ x.refill = (t.engine l).refill ∧ x.timers = (t.engine l).timers ∧ x.waits = (t.engine l).waits ∧
      x.arrived = (t.engine l).arrived := by
  obtain ⟨fetch, entry⟩ := h.fetchDisp_of same img (opOf_lt (t.iStore l (t.ctxPc l c)))
  unfold State.dispatch
  dsimp only
  rw [fetch, entry, DispEntry.bad_make, if_neg (by decide)]
  exact ⟨_, rfl, rfl, rfl, rfl, rfl, rfl, rfl, rfl⟩

/-- What dispatch entered of the instruction (R304, R305): its count and its first vector go on where RES stands, by the load mode. -/
theorem State.Stands.engine_eq : { s.engine l with fresh := true } =
    let d := DispEntry.make (vendorDispatch.getD (opOf i) 0)
    let resume := decide (s.ctxRes l c ≠ 0) && d.ldm != 0
    { s.engine l with
      dispatched := true, instr := i, upc := d.maddr, clampEv := false, ipc := s.ctxPc l c, fresh := true
      va := if resume && d.ldm == 2 then clampVaddr (aOf i) + bOf i + 1 - s.ctxRes l c else clampVaddr (aOf i)
      cnt := if d.ldm = 0 then 1 else if resume then s.ctxRes l c else bOf i + 1 } := by
  obtain ⟨fetch, entry⟩ := h.fetchDisp_of rfl rfl (opOf_lt i)
  have same := congrArg (fun t => State.engine t l) h.dispatched.2
  dsimp only at same
  rw [State.engine_setEngine _ _ _ h.engine, State.dispatch] at same
  dsimp only at same
  rw [h.instr, fetch, entry, DispEntry.bad_make, if_neg (by decide), State.engine_setEngine _ _ _ h.engine] at same
  exact same.symm

/-- The routine of the instruction is entered. -/
theorem State.Stands.entered : (s.engine l).instr = i ∧ (s.engine l).ipc = s.ctxPc l c ∧ (s.engine l).clampEv = false ∧
    (s.engine l).upc = (DispEntry.make (vendorDispatch.getD (opOf i) 0)).maddr ∧
    ((DispEntry.make (vendorDispatch.getD (opOf i) 0)).ldm = 0 → (s.engine l).va = clampVaddr (aOf i)) := by
  have same := h.engine_eq
  refine ⟨congrArg Engine.instr same, congrArg Engine.ipc same, congrArg Engine.clampEv same, congrArg Engine.upc same, fun ldm => ?_⟩
  refine (congrArg Engine.va same).trans ?_
  dsimp only
  rw [ldm]
  simp

theorem State.Stands.microAt {k : Nat} (at_ : (s.engine l).upc = k) (hk : k < 64) :
    Micro.of (s.csEntry l (s.engine l).upc).word = vendorMicro k := by
  rw [at_, h.store k hk]
  rfl

theorem State.Stands.micro_eq {k : Nat} (at_ : (s.engine l).upc = k) (hk : k < 64) (noTrap : (vendorMicro k).trap = false)
    (noHold : (vendorMicro k).hold = 0) : s.micro l = s.runMicro l c (vendorMicro k) := by
  have word := h.microAt at_ hk
  unfold State.micro
  rw [h.runs]
  dsimp only
  rw [at_] at word ⊢
  rw [h.fetchEntry hk, word, noTrap, noHold, h.store k hk, CsEntry.badSlices_make]
  rfl

theorem State.Stands.atMicro {k : Nat} (at_ : (s.engine l).upc = k) (hk : k < 64)
    (slot : (vendorMicro k).issue || (vendorMicro k).hold != 0) : s.atMicro l = true := by
  have time : s.microTime l (vendorMicro k) = s.slotTime l := if_pos slot
  unfold State.atMicro
  rw [h.microAt at_ hk, time, h.slot, h.mayRun, h.dispatched.1, h.runs]
  dsimp only
  rw [h.noWait]
  rfl

/-- A row of one microword. -/
theorem State.Stands.runRow_eq {k : Nat} (at_ : (s.engine l).upc = k) (hk : k < 64)
    (slot : (vendorMicro k).issue || (vendorMicro k).hold != 0) {p : Native → Bool} (kind : p i = true) {n : Nat}
    (one : n = 0 ∨ (s.micro l).2 = false) : s.runRow l (n + 1) p = (s.micro l).1 := by
  unfold State.runRow
  rw [h.alone]
  dsimp only
  rw [h.atMicro at_ hk slot, h.entered.1, kind, if_pos (by rfl)]
  unfold State.runMicros
  dsimp only
  refine if_neg fun more => ?_
  rcases one with zero | last
  · rw [zero] at more
    simp at more
  · rw [last] at more
    simp at more

end

theorem State.issueTime (s : State) (l : Nat) {m : Micro} (issue : m.issue = true) : s.microTime l m = s.slotTime l := by
  rw [State.microTime, issue]
  rfl

/-! ### The groups of a gang -/

theorem State.mem_members {s : State} {l g : Nat} : g ∈ s.members l ↔ ∃ k < 2 ^ s.get (SQ_GANG_M l), s.leader l + k = g := by
  simp [State.members]

theorem State.members_nodup (s : State) (l : Nat) : (s.members l).Nodup :=
  List.nodup_range.map fun _ _ e => Nat.add_left_cancel e

theorem State.members_head {s : State} {l : Nat} (lead : s.leader l = l) : ∃ rest, s.members l = l :: rest := by
  have pos := Nat.two_pow_pos (s.get (SQ_GANG_M l))
  refine ⟨(List.range' 1 (2 ^ s.get (SQ_GANG_M l) - 1)).map (s.leader l + ·), ?_⟩
  rw [State.members, List.range_eq_range']
  obtain ⟨n, hn⟩ := Nat.exists_eq_succ_of_ne_zero pos.ne'
  rw [hn, List.range'_succ, List.map_cons, lead]
  rfl

/-- A gang ends where the next one begins. -/
theorem State.members_lt {s : State} {l g : Nat} (hl : l < 32) (gang : s.get (SQ_GANG_M l) ≤ 5) (hg : g ∈ s.members l) : g < 32 := by
  obtain ⟨k, hk, rfl⟩ := State.mem_members.1 hg
  unfold State.leader
  generalize s.get (SQ_GANG_M l) = m at *
  have whole : 2 ^ (5 - m) * 2 ^ m = 32 := by rw [← Nat.pow_add, Nat.sub_add_cancel gang]
  have below : l / 2 ^ m < 2 ^ (5 - m) := by
    rw [Nat.div_lt_iff_lt_mul (Nat.two_pow_pos m), whole]
    exact hl
  calc l / 2 ^ m * 2 ^ m + k < (l / 2 ^ m + 1) * 2 ^ m := by rw [Nat.add_mul, Nat.one_mul]; omega
    _ ≤ 2 ^ (5 - m) * 2 ^ m := Nat.mul_le_mul_right _ below
    _ = 32 := whole

/-! ### Vectors issued to groups -/

/-- Each word is the next vector that its group has to issue. -/
def State.issueTo (s : State) (words : List (Nat × Native)) (item : Native → Issued) : State :=
  words.foldl (fun s w => s.setGroup w.1 { s.group w.1 with issue := (s.group w.1).issue ++ [item w.2] }) s

theorem Frame.issueTo (s : State) (words : List (Nat × Native)) (item : Native → Issued) (w : Fld → Prop) :
    Frame s (s.issueTo words item) [.groups] w := by
  unfold State.issueTo
  induction words generalizing s with
  | nil => exact .refl ..
  | cons x words ih => exact (Frame.setGroup _ _ _ _ _ (by simp)).trans (ih _)

theorem State.issueTo_raised (s : State) (words : List (Nat × Native)) (item : Native → Issued) : (s.issueTo words item).raised = s.raised := by
  unfold State.issueTo
  induction words generalizing s with
  | nil => rfl
  | cons x words ih => exact (ih _).trans (State.setGroup_raised ..)

theorem State.group_issueTo_of_not_mem (s : State) (words : List (Nat × Native)) (item : Native → Issued) {g : Nat}
    (h : g ∉ words.map (·.1)) : (s.issueTo words item).group g = s.group g := by
  unfold State.issueTo
  induction words generalizing s with
  | nil => rfl
  | cons x words ih =>
    rw [List.map_cons, List.mem_cons, not_or] at h
    exact (ih _ h.2).trans (State.group_setGroup_ne _ _ _ _ (Ne.symm h.1))

theorem State.group_issueTo (s : State) (words : List (Nat × Native)) (item : Native → Issued) (each : (words.map (·.1)).Nodup)
    {g : Nat} {w : Native} (h : (g, w) ∈ words) (hg : g < 32) :
    (s.issueTo words item).group g = { s.group g with issue := (s.group g).issue ++ [item w] } := by
  unfold State.issueTo
  induction words generalizing s with
  | nil => nomatch h
  | cons x words ih =>
    rw [List.map_cons, List.nodup_cons] at each
    rcases List.mem_cons.1 h with rfl | later_
    · exact (State.group_issueTo_of_not_mem _ words item each.1).trans (State.group_setGroup _ _ _ hg)
    · have other : x.1 ≠ g := fun e => each.1 (e ▸ List.mem_map_of_mem (f := (·.1)) later_)
      refine (ih _ each.2 later_).trans ?_
      rw [State.group_setGroup_ne _ _ _ _ other]

theorem sqField_notPba {g : Nat} {r : Reg} (a : Nat) (h : r.addr = groupBase g + a) : r.notPba := TG_DSK_notPba h

/-- A vector that has issued stays so while the groups, the queues and the settings do. -/
theorem Issues.keep {s t u : State} {l c : Nat} {word : Nat → Native} {x : Option XReq} {turn : Option TurnEnd} {q : List Native}
    (h : Issues s t l c word x turn q) (groups : u.groups = t.groups) (engines : ∀ m, m ≠ l → u.engine m = t.engine m)
    (queues : (u.engine l).msgs = (t.engine l).msgs ∧ (u.engine l).refill = (t.engine l).refill ∧
      (u.engine l).timers = (t.engine l).timers ∧ (u.engine l).waits = (t.engine l).waits ∧ (u.engine l).arrived = (t.engine l).arrived)
    (lsel : u.get (SQ_CTX_CFG_LSEL l c) = t.get (SQ_CTX_CFG_LSEL l c)) (tsb : u.get (SQ_CTX_CFG_TSB l c) = t.get (SQ_CTX_CFG_TSB l c)) :
    Issues s u l c word x turn q where
  member g hg := by
    rw [State.group_congr groups, lsel, tsb]
    exact h.member g hg
  other g hg off := by
    rw [State.group_congr groups]
    exact h.other g hg off
  engines m hm off := (engines m off).trans (h.engines m hm off)
  queues := by
    obtain ⟨msgs, refill, timers, waits, arrived⟩ := queues
    rw [msgs, refill, timers, waits, arrived]
    exact h.queues

/-- From `u` to `v` only the fields of `w` have been written. -/
structure Writes (w : List Fld) (u v : State) : Prop where
  groups : v.groups = u.groups
  engines : v.engines = u.engines
  frame : Frame u v [] (· ∈ w)

theorem Writes.refl (w : List Fld) (u : State) : Writes w u u := ⟨rfl, rfl, .refl ..⟩

theorem Writes.trans {w : List Fld} {s t u : State} (h : Writes w s t) (k : Writes w t u) : Writes w s u :=
  ⟨k.groups.trans h.groups, k.engines.trans h.engines, h.frame.trans k.frame⟩

theorem Writes.mono {w w' : List Fld} {s t : State} (h : Writes w s t) (k : w ⊆ w') : Writes w' s t :=
  ⟨h.groups, h.engines, h.frame.mono (fun _ => id) fun _ hy => k hy⟩

theorem Writes.set {w : List Fld} (u : State) (x : Fld) (v : Nat) (h : x.inWord) (hx : x ∈ w) : Writes w u (u.set x v) :=
  ⟨State.set_groups .., State.set_engines .., .set _ _ _ _ _ h hx⟩

theorem Issues.writes {s t u : State} {l c : Nat} {word : Nat → Native} {x : Option XReq} {turn : Option TurnEnd} {q : List Native}
    (h : Issues s t l c word x turn q) {w : List Fld} (k : Writes w t u) (apart : ∀ y ∈ w, y.reg.addr ≠ (SQ_CTX_CFG l c).addr) :
    Issues s u l c word x turn q := by
  have cfg : ∀ y : Fld, y.reg = SQ_CTX_CFG l c → u.get y = t.get y := fun y hy =>
    k.frame.reg y (sqField_notPba (g := l) (0xB404 + 0x60 * c) (by rw [hy]; simp only [SQ_CTX_CFG]; omega)) fun z hz => .inl (by
      rw [hy]
      exact apart z hz)
  have engine : ∀ m, u.engine m = t.engine m := State.engine_congr k.engines
  refine h.keep k.groups (fun m _ => engine m) ?_ (cfg _ rfl) (cfg _ rfl)
  rw [engine]
  exact ⟨rfl, rfl, rfl, rfl, rfl⟩

/-- The vectors that an engine issues to its gang with one instruction. -/
structure Items (s : State) (l c : Nat) (first : Native) (x : Option XReq) (turn : Option TurnEnd) (item : Native → Issued) : Prop where
  word : ∀ w, (item w).word = w
  eng : ∀ w, (item w).eng = l
  ctx : ∀ w, (item w).ctx = c
  request : ∀ w, (item w).xreq = x
  ends : ∀ w, (item w).turnEnd = turn
  sumr : ∀ w, (item w).sumr = sumrOf first
  lsel : ∀ w, (item w).lsel = s.get (SQ_CTX_CFG_LSEL l c)
  ts : ∀ w, (item w).ts = (tsOf first + s.get (SQ_CTX_CFG_TSB l c)) % 32

/-- The vectors of an instruction are issued to every group of the gang (R230, R261). -/
theorem Items.issues {s : State} {l c : Nat} {x : Option XReq} {turn : Option TurnEnd} {item : Native → Issued} {word : Nat → Native}
    (h : Items s l c (word l) x turn item) (hl : l < 32) (gang : s.get (SQ_GANG_M l) ≤ 5) :
    Issues s (s.issueTo ((s.members l).map fun g => (g, word g)) item) l c word x turn (s.engine l).msgs := by
  have keys : ((s.members l).map fun g => (g, word g)).map (·.1) = s.members l := by
    rw [List.map_map]
    exact List.map_id _
  have engine : ∀ k, (s.issueTo ((s.members l).map fun g => (g, word g)) item).engine k = s.engine k :=
    State.engine_congr ((Frame.issueTo s _ item (fun _ => False)).part .engines (by simp))
  have setting : ∀ y : Fld, y.reg = SQ_CTX_CFG l c → (s.issueTo ((s.members l).map fun g => (g, word g)) item).get y = s.get y := fun y hy =>
    (Frame.issueTo s _ item (fun _ => False)).reg y (sqField_notPba (g := l) (0xB404 + 0x60 * c) (by
      rw [hy]
      simp only [SQ_CTX_CFG]
      omega)) fun _ hz => hz.elim
  refine ⟨fun g hg => ?_, fun g _ off => ?_, fun k _ _ => engine k, ?_⟩
  · refine ⟨item (word g), ?_, h.word _, h.eng _, h.ctx _, h.request _, h.ends _, h.sumr _, (h.lsel _).trans ?_, (h.ts _).trans ?_⟩
    · exact State.group_issueTo s _ item (by rw [keys]; exact s.members_nodup l) (List.mem_map.2 ⟨g, hg, rfl⟩) (State.members_lt hl gang hg)
    · rw [setting _ rfl]
    · rw [setting _ rfl]
  · exact State.group_issueTo_of_not_mem _ _ _ (by rw [keys]; exact off)
  · rw [engine]
    exact ⟨rfl, rfl, rfl, rfl, rfl⟩

/-- A plain microword issues the vector at `va` to every group of the gang (R230, R261). -/
theorem State.issueVector_plain (s : State) {l : Nat} (c : Nat) {m : Micro} (i : Native) (va : Nat) (x : Option XReq) (turn : Option TurnEnd)
    (hl : l < 32) (gang : s.get (SQ_GANG_M l) ≤ 5) (lead : s.leader l = l) (plain : m.vsrc = 0) :
    Issues s (s.issueVector l c m i va x turn) l c (fun g => forced m i (s.vStore g va)) x turn (s.engine l).msgs ∧
    (s.issueVector l c m i va x turn).get (SQ_STAT_ENG l) = engIssue ∧
    Frame s (s.issueVector l c m i va x turn) [.groups, .engines] (· ∈ [SQ_STAT_ENG l]) ∧
    (s.issueVector l c m i va x turn).raised = s.raised := by
  unfold State.issueVector
  rw [plain]
  extract_lets e b under stream va' words first item issued kept noted
  have wordsAre : words = (s.members l).map fun g => (g, forced m i (s.vStore g va)) := rfl
  have firstIs : first = forced m i (s.vStore l va) := by
    obtain ⟨rest, head⟩ := State.members_head lead
    change (words.headD (l, 0)).2 = _
    rw [wordsAre, head]
    rfl
  have issuedIs : issued = s.issueTo words item := rfl
  have notedIs : noted = issued.set (SQ_STAT_ENG l) engIssue := rfl
  have items : Items s l c first x turn item :=
    ⟨fun _ => rfl, fun _ => rfl, fun _ => rfl, fun _ => rfl, fun _ => rfl, fun _ => rfl, fun _ => rfl, fun _ => rfl⟩
  rw [firstIs] at items
  have issues := items.issues (word := fun g => forced m i (s.vStore g va)) hl gang
  rw [← wordsAre, ← issuedIs] at issues
  have step : Writes [SQ_STAT_ENG l] issued noted := by
    rw [notedIs]
    exact .set _ _ _ (Fld.inWord_of _ rfl) (by simp)
  have eng : noted.get (SQ_STAT_ENG l) = engIssue := by
    rw [notedIs, State.get_set _ _ _ (Fld.inWord_of _ rfl)]
    rfl
  have issuing : Frame s issued [.groups] (· ∈ [SQ_STAT_ENG l]) := by
    rw [issuedIs]
    exact .issueTo ..
  have frame : Frame s noted [.groups, .engines] (· ∈ [SQ_STAT_ENG l]) :=
    (issuing.mono (by simp) fun _ => id).trans (step.frame.mono (by simp) fun _ => id)
  have raised : noted.raised = s.raised := by rw [notedIs, State.set_raised, issuedIs, State.issueTo_raised]
  clear_value item noted
  have written : Issues s noted l c (fun g => forced m i (s.vStore g va)) x turn (s.engine l).msgs := issues.writes step fun y hy => by
    rw [List.mem_singleton.1 hy]
    simp only [SQ_STAT_ENG, SQ_STAT, SQ_CTX_CFG]
    omega
  refine ⟨written.keep (State.setEngine_groups ..) (fun k hk => State.engine_setEngine_ne _ _ _ _ (Ne.symm hk)) ?_ (State.get_setEngine ..)
    (State.get_setEngine ..), ?_, frame.trans (.setEngine _ _ _ _ _ (by simp)), (State.setEngine_raised ..).trans raised⟩
  · rw [State.engine_setEngine _ _ _ hl]
    exact ⟨rfl, rfl, rfl, rfl, rfl⟩
  · rw [State.get_setEngine, eng]

/-! ### Writes of an instruction to its own context -/

/-- The registers of a context that its instructions write, beside its settings. -/
def bodyField (l c : Nat) (y : Fld) : Prop :=
  ∃ a, y.reg.addr = groupBase l + 0x60 * c + a ∧ (a = 0xB400 ∨ 0xB408 ≤ a ∧ a < 0xB460)

/-- The vector of an instruction has issued, with its settings. -/
structure Sent (s u : State) (l c : Nat) (word : Nat → Native) (x : Option XReq) (turn : Option TurnEnd) (q : List Native)
    (w : List Fld) : Prop where
  issues : Issues s u l c word x turn q
  eng : u.get (SQ_STAT_ENG l) = engIssue
  frame : Frame s u [.groups, .engines] (· ∈ SQ_STAT_ENG l :: w)
  raised : u.raised = s.raised

theorem bodyField_apart {l c : Nat} {y : Fld} (h : bodyField l c y) (hc : c < 32) {r : Reg} {a : Nat} (hr : r.addr = groupBase l + a)
    (out : a < 0xB400 ∨ a = 0xB404 + 0x60 * c) : y.reg.addr ≠ r.addr := by
  obtain ⟨b, addr, range⟩ := h
  rw [addr, hr]
  omega

/-! ### The end of an instruction (R253, R305, R308) -/

/-- What the completion of an instruction may write. -/
def ownFields (l c : Nat) : List Fld :=
  [SQ_CTX_STAT_PC l c, SQ_CTX_RES_RES l c, SQ_STAT_ENG l, SQ_CLAMP_COUNT_COUNT l, SQ_FLAGS_CLAMP l, SQ_CLAMP_LAST_PC l]

/-- A clamp of the program, where there is one. -/
def State.noteClamp (s : State) (l pc : Nat) (clamp : Bool) : State := if clamp then s.programClamp l pc else s

theorem State.noteClamp_sets (s : State) {l pc : Nat} (hpc : pc < 16384) (clamp : Bool) :
    (s.noteClamp l pc clamp).get (SQ_CLAMP_COUNT_COUNT l) =
      (if clamp then min (s.get (SQ_CLAMP_COUNT_COUNT l) + 1) 65535 else s.get (SQ_CLAMP_COUNT_COUNT l)) ∧
    (s.noteClamp l pc clamp).get (SQ_FLAGS_CLAMP l) = (if clamp then 1 else s.get (SQ_FLAGS_CLAMP l)) ∧
    (s.noteClamp l pc clamp).get (SQ_CLAMP_LAST_PC l) = (if clamp then pc else s.get (SQ_CLAMP_LAST_PC l)) ∧
    Writes [SQ_CLAMP_COUNT_COUNT l, SQ_FLAGS_CLAMP l, SQ_CLAMP_LAST_PC l] s (s.noteClamp l pc clamp) := by
  cases clamp with
  | false => exact ⟨rfl, rfl, rfl, .refl ..⟩
  | true =>
    have count : (SQ_FLAGS_CLAMP l).apart (SQ_CLAMP_COUNT_COUNT l) :=
      .inl (by simp only [SQ_FLAGS_CLAMP, SQ_FLAGS, SQ_CLAMP_COUNT_COUNT, SQ_CLAMP_COUNT]; omega)
    have last : (SQ_CLAMP_LAST_PC l).apart (SQ_CLAMP_COUNT_COUNT l) ∧ (SQ_CLAMP_LAST_PC l).apart (SQ_FLAGS_CLAMP l) :=
      ⟨.inl (by simp only [SQ_CLAMP_LAST_PC, SQ_CLAMP_LAST, SQ_CLAMP_COUNT_COUNT, SQ_CLAMP_COUNT]; omega),
        .inl (by simp only [SQ_CLAMP_LAST_PC, SQ_CLAMP_LAST, SQ_FLAGS_CLAMP, SQ_FLAGS]; omega)⟩
    change (s.programClamp l pc).get _ = _ ∧ (s.programClamp l pc).get _ = _ ∧ (s.programClamp l pc).get _ = _ ∧
      Writes _ s (s.programClamp l pc)
    unfold State.programClamp
    refine ⟨?_, ?_, ?_, ?_, ?_, ?_⟩
    · rw [State.get_set_apart _ _ _ _ (Fld.inWord_of _ rfl) last.1, State.get_raise, State.get_set_apart _ _ _ _ (Fld.inWord_of _ rfl) count,
        State.get_count _ _ _ (Fld.inWord_of _ rfl)]
      rfl
    · rw [State.get_set_apart _ _ _ _ (Fld.inWord_of _ rfl) last.2, State.get_raise, State.get_set _ _ _ (Fld.inWord_of _ rfl)]
      rfl
    · rw [State.get_set _ _ _ (Fld.inWord_of _ rfl)]
      exact Nat.mod_eq_of_lt hpc
    · rw [State.set_groups, State.raise_groups, State.count_groups]
    · simp
    · exact ((Frame.count _ _ _ _ _ (Fld.inWord_of _ rfl) (by simp)).trans (.raise _ _ _ _ (Fld.inWord_of _ rfl) (by simp))).trans
        (.set _ _ _ _ _ (Fld.inWord_of _ rfl) (by simp))

/-- The field is none of the clamp registers of engine l. -/
def offClamp (l : Nat) (y : Fld) : Prop := ∀ a ∈ [0xB000, 0xB004, 0xB008], y.reg.addr ≠ groupBase l + a

/-- The instruction has ended: what `Completes` says of the registers. -/
structure Ended (s t : State) (l c pc : Nat) (clamp : Bool) (w : List Fld) : Prop where
  place : t.ctxPc l c = pc
  res : t.get (SQ_CTX_RES_RES l c) = 0
  eng : t.get (SQ_STAT_ENG l) = engIssue
  count : t.get (SQ_CLAMP_COUNT_COUNT l) = if clamp then min (s.get (SQ_CLAMP_COUNT_COUNT l) + 1) 65535
    else s.get (SQ_CLAMP_COUNT_COUNT l)
  flag : t.get (SQ_FLAGS_CLAMP l) = if clamp then 1 else s.get (SQ_FLAGS_CLAMP l)
  last : t.get (SQ_CLAMP_LAST_PC l) = if clamp then s.ctxPc l c else s.get (SQ_CLAMP_LAST_PC l)
  frame : Frame s t [.groups, .engines] (· ∈ ownFields l c ++ w)

/-- The registers after the last microword: RES is 0, and the clamps of the instruction are noted. -/
def State.ended (s : State) (l c ipc : Nat) (clamp : Bool) : State := (s.set (SQ_CTX_RES_RES l c) 0).noteClamp l ipc clamp

theorem State.ended_writes (s : State) {l c ipc : Nat} (h : ipc < 16384) (clamp : Bool) :
    Writes (SQ_CTX_RES_RES l c :: [SQ_CLAMP_COUNT_COUNT l, SQ_FLAGS_CLAMP l, SQ_CLAMP_LAST_PC l]) s (s.ended l c ipc clamp) :=
  (Writes.set _ _ _ (Fld.inWord_of _ rfl) (by simp)).trans ((State.noteClamp_sets _ h clamp).2.2.2.mono (by simp))

/-- A field of a context, but for RES, is kept to the end. -/
theorem State.get_ended (s : State) {l c ipc : Nat} (h : ipc < 16384) (clamp : Bool) {x : Fld} {a : Nat}
    (hx : x.reg.addr = groupBase l + a) (lo : 0xB00C ≤ a) (res : a ≠ 0xB40C + 0x60 * c) :
    (s.ended l c ipc clamp).get x = s.get x := by
  refine (s.ended_writes h clamp).frame.reg x (sqField_notPba _ hx) fun y hy => .inl ?_
  rw [hx]
  simp only [List.mem_cons, List.not_mem_nil, or_false] at hy
  rcases hy with rfl | rfl | rfl | rfl
  · simp only [SQ_CTX_RES_RES, SQ_CTX_RES]
    omega
  · simp only [SQ_CLAMP_COUNT_COUNT, SQ_CLAMP_COUNT]
    omega
  · simp only [SQ_FLAGS_CLAMP, SQ_FLAGS]
    omega
  · simp only [SQ_CLAMP_LAST_PC, SQ_CLAMP_LAST]
    omega

theorem Sent.ended {s u v : State} {l c : Nat} {word : Nat → Native} {x : Option XReq} {turn : Option TurnEnd} {q : List Native}
    {w w' W : List Fld} (sent : Sent s u l c word x turn q w) (step : Writes (SQ_CTX_STAT_PC l c :: w') u v)
    (sub : w ⊆ W) (sub' : w' ⊆ W) (off : ∀ y ∈ W, offClamp l y) (away : ∀ y ∈ w', y.reg.addr ≠ (SQ_STAT l).addr)
    {pc : Nat} (place : v.ctxPc l c = pc) (clamp : Bool) : Ended s (v.ended l c (s.ctxPc l c) clamp) l c pc clamp W := by
  have small : s.ctxPc l c < 16384 := State.get_lt s (SQ_CTX_STAT_PC l c)
  have reach : Frame s v [.groups, .engines] (· ∈ SQ_CTX_STAT_PC l c :: SQ_STAT_ENG l :: W) :=
    (sent.frame.mono (fun _ => id) fun y hy => by
      rcases List.mem_cons.1 hy with rfl | hy
      · simp
      · exact List.mem_cons_of_mem _ (List.mem_cons_of_mem _ (sub hy))).trans
    (step.frame.mono (by simp) fun y hy => by
      rcases List.mem_cons.1 hy with rfl | hy
      · simp
      · exact List.mem_cons_of_mem _ (List.mem_cons_of_mem _ (sub' hy)))
  have kept : ∀ {y : Fld} {a : Nat}, a ∈ [0xB000, 0xB004, 0xB008] → y.reg.addr = groupBase l + a → v.get y = s.get y := fun {y a} ha hy => by
    refine reach.reg y (sqField_notPba a hy) fun z hz => .inl ?_
    rw [hy]
    rcases List.mem_cons.1 hz with rfl | hz
    · simp only [SQ_CTX_STAT_PC, SQ_CTX_STAT]
      simp only [List.mem_cons, List.not_mem_nil, or_false] at ha
      omega
    rcases List.mem_cons.1 hz with rfl | hz
    · simp only [SQ_STAT_ENG, SQ_STAT]
      simp only [List.mem_cons, List.not_mem_nil, or_false] at ha
      omega
    · exact off z hz a ha
  have zeroed : ∀ {y : Fld} {a : Nat}, a ∈ [0xB000, 0xB004, 0xB008] → y.reg.addr = groupBase l + a →
      (v.set (SQ_CTX_RES_RES l c) 0).get y = s.get y := fun {y a} ha hy => by
    refine (State.get_set_apart _ _ _ _ (Fld.inWord_of _ rfl) (.inl ?_)).trans (kept ha hy)
    rw [hy]
    simp only [SQ_CTX_RES_RES, SQ_CTX_RES]
    simp only [List.mem_cons, List.not_mem_nil, or_false] at ha
    omega
  obtain ⟨count, flag, last, noted⟩ := (v.set (SQ_CTX_RES_RES l c) 0).noteClamp_sets (l := l) small clamp
  refine ⟨?_, ?_, ?_, ?_, ?_, ?_, ?_⟩
  · rw [State.ctxPc, v.get_ended small clamp (a := 0xB400 + 0x60 * c) (by simp only [SQ_CTX_STAT_PC, SQ_CTX_STAT]; omega) (by omega) (by omega)]
    exact place
  · have res : (v.set (SQ_CTX_RES_RES l c) 0).get (SQ_CTX_RES_RES l c) = 0 := by
      rw [State.get_set _ _ _ (Fld.inWord_of _ rfl)]
      rfl
    refine (noted.frame.reg _ (sqField_notPba (g := l) (0xB40C + 0x60 * c) (by simp only [SQ_CTX_RES_RES, SQ_CTX_RES]; omega))
      fun y hy => .inl ?_).trans res
    simp only [List.mem_cons, List.not_mem_nil, or_false] at hy
    rcases hy with rfl | rfl | rfl
    · simp only [SQ_CLAMP_COUNT_COUNT, SQ_CLAMP_COUNT, SQ_CTX_RES_RES, SQ_CTX_RES]
      omega
    · simp only [SQ_FLAGS_CLAMP, SQ_FLAGS, SQ_CTX_RES_RES, SQ_CTX_RES]
      omega
    · simp only [SQ_CLAMP_LAST_PC, SQ_CLAMP_LAST, SQ_CTX_RES_RES, SQ_CTX_RES]
      omega
  · rw [v.get_ended small clamp (a := 0xB030) rfl (by decide) (by omega), ← sent.eng]
    refine step.frame.reg _ (sqField_notPba 0xB030 rfl) fun y hy => .inl ?_
    rcases List.mem_cons.1 hy with rfl | hy
    · simp only [SQ_CTX_STAT_PC, SQ_CTX_STAT, SQ_STAT_ENG, SQ_STAT]
      omega
    · exact away y hy
  · rw [State.ended, count, zeroed (a := 0xB004) (by simp) rfl]
  · rw [State.ended, flag, zeroed (a := 0xB000) (by simp) rfl]
  · rw [State.ended, last, zeroed (a := 0xB008) (by simp) rfl]
  · refine (reach.mono (fun _ => id) fun y hy => ?_).trans ((v.ended_writes small clamp).frame.mono (by simp) fun y hy => ?_)
    · simp only [ownFields, List.mem_cons, List.mem_append, List.not_mem_nil, or_false] at hy ⊢
      tauto
    · simp only [ownFields, List.mem_cons, List.mem_append, List.not_mem_nil, or_false] at hy ⊢
      tauto

/-! ### One microword of one vector -/

/-- A microword that issues the vector at A and ends its instruction by dispatch. -/
structure Micro.Plain (m : Micro) : Prop where
  issue : m.issue = true
  vsrc : m.vsrc = 0
  nam : m.nam = 1
  tsel : m.tsel = 0
  hold : m.hold = 0
  trap : m.trap = false
  vainc : m.vainc = false
  cntdec : m.cntdec = false

/-- The vector has issued and the engine counts on. -/
def State.vectored (s : State) (l c : Nat) (m : Micro) (x : Exec) (clamp : Bool) : State :=
  let u := s.issueVector l c m x.instr x.va (s.requestOf l c m.xreq x.instr) (turnOf m x.instr)
  let u := if m.xreq == 6 && modOf x.instr % 2 == 1 then u.recvMsg l c x.instr else u
  u.setEngine l { u.engine l with cnt := x.cnt, va := x.va, clampEv := clamp }

theorem State.execute_plain (s : State) (l c : Nat) {m : Micro} (plain : m.Plain) (x : Exec) (held : x.held = false) (runs : x.runs = true)
    (clr : x.clr = true) : ∃ vc, s.execute l c m x =
      let clamp := x.clampEv || (s.settings l c m x.instr).2 || decide (0xFFFF < aOf x.instr) || m.clampev
      let f := ((s.settings l c m x.instr).1.vectored l c m x clamp).finalFields l c m x.instr (s.condTrue l c x.instr) true vc x.w
      (f.1.set (SQ_CTX_RES_RES l c) 0).afterFinal l c m x (s.condTrue l c x.instr) (clamp || f.2) := by
  obtain ⟨issue, vsrc, nam, tsel, hold, trap, vainc, cntdec⟩ := plain
  refine ⟨s.vcnt l + (s.group l).issue.length, ?_⟩
  unfold State.execute State.vectored State.microTest
  simp [issue, vsrc, nam, tsel, vainc, cntdec, held, runs, clr]

/-- The queues of an engine, which the issue of a vector leaves. -/
def SameQueues (x y : Engine) : Prop :=
  y.msgs = x.msgs ∧ y.refill = x.refill ∧ y.timers = x.timers ∧ y.waits = x.waits ∧ y.arrived = x.arrived

/-- A state from which a vector issues as from `s`. -/
structure Begins (s u : State) (l : Nat) (w : List Fld) : Prop where
  groups : u.groups = s.groups
  engines : ∀ m, m ≠ l → u.engine m = s.engine m
  queues : SameQueues (s.engine l) (u.engine l)
  frame : Frame s u [.engines] (· ∈ w)

theorem Begins.members {s u : State} {l c : Nat} {w : List Fld} (h : Begins s u l w) (set : ∀ y ∈ w, y.reg = SQ_CTX_CFG l c) :
    u.get (SQ_GANG_M l) = s.get (SQ_GANG_M l) ∧ u.leader l = s.leader l ∧ u.members l = s.members l := by
  have gang : u.get (SQ_GANG_M l) = s.get (SQ_GANG_M l) :=
    h.frame.reg _ (sqField_notPba 0xB020 rfl) fun y hy => .inl (by
      rw [set y hy]
      simp only [SQ_CTX_CFG, SQ_GANG_M, SQ_GANG]
      omega)
  have lead : u.leader l = s.leader l := by rw [State.leader, State.leader, gang]
  exact ⟨gang, lead, by rw [State.members, State.members, gang, lead]⟩

theorem State.vStore_congr {s t : State} (h : t.mem = s.mem) (g a : Nat) : t.vStore g a = s.vStore g a := by
  unfold State.vStore State.memWord
  rw [h]

theorem State.iStore_congr {s t : State} (h : t.mem = s.mem) (e a : Nat) : t.iStore e a = s.iStore e a := by
  unfold State.iStore State.memWord
  rw [h]

theorem Issues.begins {s u t : State} {l c : Nat} {word : Nat → Native} {x : Option XReq} {turn : Option TurnEnd} {q : List Native}
    {w : List Fld} (h : Issues u t l c word x turn q) (k : Begins s u l w) (set : ∀ y ∈ w, y.reg = SQ_CTX_CFG l c) :
    Issues s t l c word x turn q := by
  obtain ⟨_, _, members⟩ := k.members set
  obtain ⟨_, refill, timers, waits, arrived⟩ := k.queues
  refine ⟨?_, ?_, fun m hm off => (h.engines m hm off).trans (k.engines m off), ?_⟩
  · rw [← members]
    intro g hg
    rw [← State.group_congr k.groups]
    exact h.member g hg
  · rw [← members]
    intro g hg off
    rw [← State.group_congr k.groups]
    exact h.other g hg off
  · rw [← refill, ← timers, ← waits, ← arrived]
    exact h.queues

section
variable {s : State} {l c : Nat} {i : Native} (h : s.Stands l c i)
include h

theorem State.Stands.leads : s.leader l = l := by
  have runs := h.mayRun
  unfold State.mayRun State.isLeader at runs
  simp only [Bool.and_eq_true, beq_iff_eq] at runs
  exact runs.1.1.1

/-- The vector of a plain microword, issued from a state that begins as `s`. -/
theorem State.Stands.issued {u : State} {w : List Fld} (begins : Begins s u l w) (set : ∀ y ∈ w, y.reg = SQ_CTX_CFG l c)
    (raised : u.raised = s.raised) {m : Micro} (vsrc : m.vsrc = 0) (va : Nat) (x : Option XReq) (turn : Option TurnEnd) :
    Sent s (u.issueVector l c m i va x turn) l c (fun g => forced m i (s.vStore g va)) x turn (s.engine l).msgs w ∧
      Frame u (u.issueVector l c m i va x turn) [.groups, .engines] (· ∈ [SQ_STAT_ENG l]) := by
  obtain ⟨gang, lead, members⟩ := begins.members set
  have words : (fun g => forced m i (u.vStore g va)) = fun g => forced m i (s.vStore g va) := by
    funext g
    rw [State.vStore_congr (begins.frame.part .mem (by simp))]
  obtain ⟨issues, eng, frame, noted⟩ := u.issueVector_plain c i va x turn h.engine
    (gang ▸ h.gang) (lead.trans h.leads) vsrc
  rw [words, begins.queues.1] at issues
  refine ⟨⟨issues.begins begins set, eng, ?_, noted.trans raised⟩, frame⟩
  exact (begins.frame.mono (by simp) fun _ hy => List.mem_cons_of_mem _ hy).trans (frame.mono (fun _ => id) fun y hy => by
    rw [List.mem_singleton.1 hy]
    exact List.mem_cons_self)

omit h in
theorem Sent.setEngine {v : State} {word : Nat → Native} {x : Option XReq} {turn : Option TurnEnd} {q : List Native} {w : List Fld}
    (sent : Sent s v l c word x turn q w) (hl : l < 32) {y : Engine} (same : SameQueues (v.engine l) y) :
    Sent s (v.setEngine l y) l c word x turn q w := by
  refine ⟨sent.issues.keep (State.setEngine_groups ..) (fun k hk => State.engine_setEngine_ne _ _ _ _ hk.symm) ?_ (State.get_setEngine ..)
    (State.get_setEngine ..), ?_, sent.frame.trans (.setEngine _ _ _ _ _ (by simp)), (State.setEngine_raised ..).trans sent.raised⟩
  · rw [State.engine_setEngine _ _ _ hl]
    exact same
  · rw [State.get_setEngine, sent.eng]

/-- The microword of an instruction that takes no message has issued. -/
theorem State.Stands.sends {u : State} {w : List Fld} (begins : Begins s u l w) (set : ∀ y ∈ w, y.reg = SQ_CTX_CFG l c)
    (raised : u.raised = s.raised) {m : Micro} (plain : m.Plain) {x : Exec} (hi : x.instr = i) (va : x.va = clampVaddr (aOf i))
    (keeps : (m.xreq == 6 && modOf i % 2 == 1) = false)
    (clamp : Bool) : Sent s (u.vectored l c m x clamp) l c (s.wordAt i (forced m i)) (u.requestOf l c m.xreq i) (turnOf m i)
      (s.engine l).msgs w ∧ Frame u (u.vectored l c m x clamp) [.groups, .engines] (· ∈ [SQ_STAT_ENG l]) := by
  obtain ⟨sent, frame⟩ := h.issued begins set raised plain.vsrc (clampVaddr (aOf i)) (u.requestOf l c m.xreq i) (turnOf m i)
  unfold State.vectored
  rw [hi, va, keeps]
  exact ⟨sent.setEngine h.engine ⟨rfl, rfl, rfl, rfl, rfl⟩, frame.trans (.setEngine _ _ _ _ _ (by simp))⟩

end

/-- The engine as its microword finds it (R305, R320). -/
def State.entering (s : State) (l : Nat) (m : Micro) : State :=
  s.setEngine l { s.engine l with trace := m.trace, nextAt := later (s.slotTime l) 2, fresh := false }

theorem State.entering_begins (s : State) {l : Nat} (hl : l < 32) (m : Micro) : Begins s (s.entering l m) l [] := by
  refine ⟨State.setEngine_groups .., fun k hk => State.engine_setEngine_ne _ _ _ _ hk.symm, ?_, .setEngine _ _ _ _ _ (by simp)⟩
  rw [State.entering, State.engine_setEngine _ _ _ hl]
  exact ⟨rfl, rfl, rfl, rfl, rfl⟩

theorem State.condTrue_entering (s : State) {l : Nat} (hl : l < 32) (m : Micro) (c : Nat) (i : Native) :
    (s.entering l m).condTrue l c i = s.condTrue l c i := by
  have gets : ∀ x, (s.entering l m).get x = s.get x := State.get_setEngine _ _ _
  have msgs := (s.entering_begins hl m).queues.1
  have die : ∀ x, (s.entering l m).dieGet x = s.dieGet x := fun x => by
    unfold State.dieGet
    rw [(s.entering_begins hl m).frame.part .die (by simp)]
  unfold State.condTrue State.condInput State.members State.leader
  simp only [State.on, State.bit, gets, msgs, die]

theorem Begins.writes {s u v : State} {l : Nat} {w : List Fld} (h : Begins s u l []) (k : Writes w u v) : Begins s v l w := by
  have engine : ∀ m, v.engine m = u.engine m := State.engine_congr k.engines
  refine ⟨k.groups.trans h.groups, fun m hm => (engine m).trans (h.engines m hm), ?_,
    (h.frame.mono (fun _ => id) fun _ hy => nomatch hy).trans (k.frame.mono (by simp) fun _ => id)⟩
  rw [engine]
  exact h.queues

section
variable {s : State} {l c : Nat} {i : Native} (h : s.Stands l c i)
include h

/-- The microword of the row runs to its final execution. -/
theorem State.Stands.execute_eq {k : Nat} (at_ : (DispEntry.make (vendorDispatch.getD (opOf i) 0)).maddr = k) (hk : k < 64)
    (plain : (vendorMicro k).Plain) : ∃ vc, s.micro l =
      let m := vendorMicro k
      let x := (s.engine l).exec (s.slotTime l)
      let r := (s.entering l m).settings l c m i
      let clamp := r.2 || decide (0xFFFF < aOf i) || m.clampev
      let f := (r.1.vectored l c m x clamp).finalFields l c m i (s.condTrue l c i) true vc (s.slotTime l)
      (f.1.set (SQ_CTX_RES_RES l c) 0).afterFinal l c m x (s.condTrue l c i) (clamp || f.2) := by
  obtain ⟨instr, ipc, clampEv, upc, _⟩ := h.entered
  obtain ⟨vc, run⟩ := (s.entering l (vendorMicro k)).execute_plain l c plain ((s.engine l).exec (s.slotTime l)) rfl rfl rfl
  have xi : ((s.engine l).exec (s.slotTime l)).instr = i := instr
  have xc : ((s.engine l).exec (s.slotTime l)).clampEv = false := clampEv
  rw [xi, xc, s.condTrue_entering h.engine, Bool.false_or] at run
  refine ⟨vc, ?_⟩
  rw [h.micro_eq (upc.trans at_) hk plain.trap plain.hold, State.runMicro, s.issueTime l plain.issue]
  exact run

end

/-- R301, R305: an instruction that ends no turn is followed by the dispatch of the next one. -/
theorem State.afterFinal_next (s : State) (l c : Nat) {m : Micro} {test : Bool} (nam : m.nam = 1 ∨ m.nam = 3 ∧ test = true) (x : Exec)
    (clamp : Bool) (turn : turnOf m x.instr = none) :
    s.afterFinal l c m x test clamp = ((s.noteClamp l x.ipc clamp).dispatch l c, false) := by
  unfold State.afterFinal State.goOn
  rw [turn]
  rcases nam with nam | ⟨nam, rfl⟩ <;> rw [nam] <;> rfl

/-- R301, R305: an instruction that ends its turn with its vector dispatches nothing. -/
theorem State.afterFinal_turn (s : State) (l c : Nat) {m : Micro} (issue : m.issue = true) (x : Exec) (test clamp : Bool) {t : TurnEnd}
    (turn : turnOf m x.instr = some t) (stays : ∀ d, t ≠ .swc d) : s.afterFinal l c m x test clamp =
      ((s.noteClamp l x.ipc clamp).setEngine l { (s.noteClamp l x.ipc clamp).engine l with dispatched := false, turnEnding := true }, false) := by
  unfold State.afterFinal
  rw [turn]
  cases t with
  | swc d => exact absurd rfl (stays d)
  | halt => exact if_pos issue
  | yield => exact if_pos issue

/-- What the final fields of an instruction write: its PC and the fields of `w`, each of the context or its settings. -/
structure Finals (s u v : State) (l c pc : Nat) (w W : List Fld) : Prop where
  step : Writes (SQ_CTX_STAT_PC l c :: w) u v
  place : v.ctxPc l c = pc
  sub : w ⊆ W
  body : ∀ y ∈ w, bodyField l c y
  off : ∀ y ∈ W, offClamp l y

theorem bodyField.offClamp {l c : Nat} {y : Fld} (h : bodyField l c y) : offClamp l y := fun a ha => by
  obtain ⟨b, addr, range⟩ := h
  simp only [List.mem_cons, List.not_mem_nil, or_false] at ha
  omega

theorem Finals.issues {s u v : State} {l c pc : Nat} {w W : List Fld} (h : Finals s u v l c pc w W) {s0 : State} {word : Nat → Native}
    {x : Option XReq} {turn : Option TurnEnd} {q : List Native} (k : Issues s0 u l c word x turn q) : Issues s0 v l c word x turn q := by
  refine k.writes h.step fun y hy => ?_
  rcases List.mem_cons.1 hy with rfl | hy
  · simp only [SQ_CTX_STAT_PC, SQ_CTX_STAT, SQ_CTX_CFG]
    omega
  · obtain ⟨b, addr, range⟩ := h.body y hy
    rw [addr]
    simp only [SQ_CTX_CFG]
    omega

theorem Sent.finals {s u v : State} {l c pc : Nat} {word : Nat → Native} {x : Option XReq} {turn : Option TurnEnd} {q : List Native}
    {w w' W : List Fld} (sent : Sent s u l c word x turn q w) (sub : w ⊆ W) (fin : Finals s u v l c pc w' W) (clamp : Bool) :
    Issues s (v.ended l c (s.ctxPc l c) clamp) l c word x turn q ∧ Ended s (v.ended l c (s.ctxPc l c) clamp) l c pc clamp W := by
  have small : s.ctxPc l c < 16384 := State.get_lt s (SQ_CTX_STAT_PC l c)
  refine ⟨(fin.issues sent.issues).writes (v.ended_writes small clamp) fun y hy => ?_, sent.ended fin.step sub fin.sub fin.off
    (fun y hy => ?_) fin.place clamp⟩
  · simp only [List.mem_cons, List.not_mem_nil, or_false] at hy
    rcases hy with rfl | rfl | rfl | rfl
    · simp only [SQ_CTX_RES_RES, SQ_CTX_RES, SQ_CTX_CFG]
      omega
    · simp only [SQ_CLAMP_COUNT_COUNT, SQ_CLAMP_COUNT, SQ_CTX_CFG]
      omega
    · simp only [SQ_FLAGS_CLAMP, SQ_FLAGS, SQ_CTX_CFG]
      omega
    · simp only [SQ_CLAMP_LAST_PC, SQ_CLAMP_LAST, SQ_CTX_CFG]
      omega
  · obtain ⟨b, addr, range⟩ := fin.body y hy
    rw [addr]
    simp only [SQ_STAT]
    omega

/-- An end of an instruction that changes only the engine beside its queues, and what settling leaves of it. -/
theorem Ended.completes {s t : State} {l c pc : Nat} {clamp : Bool} {w : List Fld} (h : Ended s t l c pc clamp w) (hl : l < 32)
    {x : Engine} {turn : Option TurnEnd} (next : turn = none → x.dispatched ∧ x.instr = s.iStore l pc)
    (ends : turn ≠ none → x.turnEnding) : Completes s (settle s (t.setEngine l x)) l c pc turn clamp w := by
  have gets : ∀ {y : Fld} (a : Nat), y.reg.addr = groupBase l + a → (settle s (t.setEngine l x)).get y = t.get y := fun a hy =>
    (get_settle _ _ _ (sqField_notPba a hy)).trans (State.get_setEngine ..)
  have engine : (settle s (t.setEngine l x)).engine l = x := (engine_settle ..).trans (State.engine_setEngine _ _ _ hl)
  refine ⟨?_, ?_, ?_, ?_, ?_, ?_, ?_, ?_, (h.frame.trans (.setEngine _ _ _ _ _ (by simp))).trans (Frame.settle ..)⟩
  · rw [State.ctxPc, gets (0xB400 + 0x60 * c) (by simp only [SQ_CTX_STAT_PC, SQ_CTX_STAT]; omega)]
    exact h.place
  · rw [gets (0xB40C + 0x60 * c) (by simp only [SQ_CTX_RES_RES, SQ_CTX_RES]; omega), h.res]
  · rw [gets 0xB030 rfl, h.eng]
  · rw [gets 0xB004 rfl, h.count]
  · rw [gets 0xB000 rfl, h.flag]
  · rw [gets 0xB008 rfl, h.last]
  · rw [engine]
    exact next
  · rw [engine]
    exact ends

theorem Issues.settled {s t : State} {l c : Nat} {word : Nat → Native} {x : Option XReq} {turn : Option TurnEnd} {q : List Native}
    (h : Issues s t l c word x turn q) (hl : l < 32) {y : Engine} (same : SameQueues (t.engine l) y) :
    Issues s (settle s (t.setEngine l y)) l c word x turn q := by
  refine h.keep ((settle_groups ..).trans (State.setEngine_groups ..)) (fun k hk => ?_) ?_ ?_ ?_
  · rw [engine_settle, State.engine_setEngine_ne _ _ _ _ hk.symm]
  · rw [engine_settle, State.engine_setEngine _ _ _ hl]
    exact same
  · rw [get_settle _ _ _ (sqField_notPba (g := l) (0xB404 + 0x60 * c) (by simp only [SQ_CTX_CFG_LSEL, SQ_CTX_CFG]; omega)), State.get_setEngine]
  · rw [get_settle _ _ _ (sqField_notPba (g := l) (0xB404 + 0x60 * c) (by simp only [SQ_CTX_CFG_TSB, SQ_CTX_CFG]; omega)), State.get_setEngine]

section
variable {s : State} {l c : Nat} {i : Native} (h : s.Stands l c i)
include h

/-- The microword of the row has issued and done its final fields: its instruction ends. -/
theorem State.Stands.ends_at {k : Nat} (at_ : (DispEntry.make (vendorDispatch.getD (opOf i) 0)).maddr = k) (hk : k < 64)
    (issue : (vendorMicro k).issue = true) {test clamp : Bool} (nam : (vendorMicro k).nam = 1 ∨ (vendorMicro k).nam = 3 ∧ test = true)
    {turn : Option TurnEnd} (turns : turnOf (vendorMicro k) i = turn) (stays : ∀ d, turn ≠ some (.swc d))
    {p : Native → Bool} (kind : p i = true) {n : Nat} {pc : Nat} {w w' W : List Fld} {xr : Option XReq} {word : Nat → Native}
    {q : List Native} {u v : State} (sent : Sent s u l c word xr turn q w) (sub : w ⊆ W) (fin : Finals s u v l c pc w' W) {x : Exec}
    (instr : x.instr = i) (ipc : x.ipc = s.ctxPc l c)
    (run : s.micro l = (v.set (SQ_CTX_RES_RES l c) 0).afterFinal l c (vendorMicro k) x test clamp) :
    RunsTo (done s (s.runRow l (n + 1) p)) fun t => (Issues s t l c word xr turn q ∧ Completes s t l c pc turn clamp W) ∧
      ∀ (y : Fld) (a : Nat), y.reg.addr = groupBase l + a → 0xB00C ≤ a → a ≠ 0xB40C + 0x60 * c → t.get y = v.get y := by
  obtain ⟨_, _, _, upc, _⟩ := h.entered
  have small : s.ctxPc l c < 16384 := State.get_lt s (SQ_CTX_STAT_PC l c)
  obtain ⟨issues, ended⟩ := sent.finals sub fin clamp
  have kept := fun (y : Fld) (a : Nat) (hy : y.reg.addr = groupBase l + a) lo res => v.get_ended (c := c) small clamp hy lo res
  have last : ∃ x : Engine, s.micro l = ((v.ended l c (s.ctxPc l c) clamp).setEngine l x, false) ∧
      SameQueues ((v.ended l c (s.ctxPc l c) clamp).engine l) x ∧ (turn = none → x.dispatched ∧ x.instr = s.iStore l pc) ∧
      (turn ≠ none → x.turnEnding) := by
    have turnIs : turnOf (vendorMicro k) x.instr = turn := (congrArg (turnOf (vendorMicro k)) instr).trans turns
    cases turn with
    | none =>
      rw [State.afterFinal_next _ _ _ nam _ _ turnIs, ipc] at run
      change s.micro l = ((v.ended l c (s.ctxPc l c) clamp).dispatch l c, false) at run
      have store : (v.ended l c (s.ctxPc l c) clamp).disp = s.disp ∧ (v.ended l c (s.ctxPc l c) clamp).imgDisp = s.imgDisp ∧
          (v.ended l c (s.ctxPc l c) clamp).mem = s.mem :=
        ⟨(ended.frame.part .store (by simp)).2, (ended.frame.part .image (by simp)).2, ended.frame.part .mem (by simp)⟩
      obtain ⟨x, dispatched, on, word, queues⟩ := h.dispatch_of store.1 store.2.1
      rw [ended.place, State.iStore_congr store.2.2] at word
      rw [dispatched] at run
      exact ⟨x, run, queues, fun _ => ⟨on, word⟩, fun e => absurd rfl e⟩
    | some t =>
      rw [State.afterFinal_turn _ _ _ issue _ _ _ turnIs fun d e => stays d (congrArg some e), ipc] at run
      exact ⟨_, run, ⟨rfl, rfl, rfl, rfl, rfl⟩, fun e => (nomatch e), fun _ => rfl⟩
  obtain ⟨x, micro, queues, next, ends⟩ := last
  have slot : ((vendorMicro k).issue || (vendorMicro k).hold != 0) = true := by rw [issue, Bool.true_or]
  rw [h.runRow_eq (upc.trans at_) hk slot kind (.inr (by rw [micro])), micro]
  generalize v.ended l c (s.ctxPc l c) clamp = z at issues ended kept queues
  refine runsTo_done _ _ _ ⟨⟨issues.settled h.engine queues, ended.completes h.engine next ends⟩, fun y a hy lo res => ?_⟩
  rw [get_settle _ _ _ (sqField_notPba a hy), State.get_setEngine, kept y a hy lo res]

/-- An instruction of one plain microword whose vector has issued: what its final fields leave is what its context reads after it. -/
theorem State.Stands.ends_sent {k : Nat} (at_ : (DispEntry.make (vendorDispatch.getD (opOf i) 0)).maddr = k) (hk : k < 64)
    (plain : (vendorMicro k).Plain) {turn : Option TurnEnd} (turns : turnOf (vendorMicro k) i = turn) (stays : ∀ d, turn ≠ some (.swc d))
    {p : Native → Bool} (kind : p i = true) (n : Nat) {v0 : State} {k0 kf : Bool} {pc : Nat} {w w' W : List Fld} {xr : Option XReq}
    {word : Nat → Native} {q : List Native}
    (settings : (s.entering l (vendorMicro k)).settings l c (vendorMicro k) i = (v0, k0)) (sub : w ⊆ W)
    (sent : Sent s (v0.vectored l c (vendorMicro k) ((s.engine l).exec (s.slotTime l)) (k0 || decide (0xFFFF < aOf i) || (vendorMicro k).clampev))
      l c word xr turn q w) {P Q : State → Prop}
    (read : P (v0.vectored l c (vendorMicro k) ((s.engine l).exec (s.slotTime l)) (k0 || decide (0xFFFF < aOf i) || (vendorMicro k).clampev)))
    (fin : ∀ u vc, Sent s u l c word xr turn q w → P u →
      ∃ v, u.finalFields l c (vendorMicro k) i (s.condTrue l c i) true vc (s.slotTime l) = (v, kf) ∧ Finals s u v l c pc w' W ∧ Q v) :
    RunsTo (done s (s.runRow l (n + 1) p)) fun t => (Issues s t l c word xr turn q ∧
        Completes s t l c pc turn (k0 || decide (0xFFFF < aOf i) || (vendorMicro k).clampev || kf) W) ∧
      ∃ v, Q v ∧ ∀ (y : Fld) (a : Nat), y.reg.addr = groupBase l + a → 0xB00C ≤ a → a ≠ 0xB40C + 0x60 * c → t.get y = v.get y := by
  obtain ⟨vc, run⟩ := h.execute_eq at_ hk plain
  obtain ⟨instr, ipc, _⟩ := h.entered
  dsimp only at run
  rw [settings] at run
  obtain ⟨v, finals, fin, hQ⟩ := fin _ vc sent read
  rw [finals] at run
  exact (h.ends_at at_ hk plain.issue (.inl plain.nam) turns stays kind sent sub fin instr ipc run).mono
    fun t ⟨ends, reads⟩ => ⟨ends, v, hQ, reads⟩

/-- An instruction of one plain microword that ends no turn: what its final fields leave is what its context reads after it. -/
theorem State.Stands.executes {k : Nat} (at_ : (DispEntry.make (vendorDispatch.getD (opOf i) 0)).maddr = k)
    (ldm : (DispEntry.make (vendorDispatch.getD (opOf i) 0)).ldm = 0) (hk : k < 64) (plain : (vendorMicro k).Plain)
    (keeps : ((vendorMicro k).xreq == 6 && modOf i % 2 == 1) = false) (turn : turnOf (vendorMicro k) i = none)
    {p : Native → Bool} (kind : p i = true) (n : Nat) {v0 : State} {k0 kf : Bool} {pc : Nat} {w w' W : List Fld} {xr : Option XReq}
    (settings : (s.entering l (vendorMicro k)).settings l c (vendorMicro k) i = (v0, k0)) (set : Writes w (s.entering l (vendorMicro k)) v0)
    (cfg : ∀ y ∈ w, y.reg = SQ_CTX_CFG l c) (raised : v0.raised = s.raised) (sub : w ⊆ W)
    (request : v0.requestOf l c (vendorMicro k).xreq i = xr) {Q : State → Prop}
    (fin : ∀ u vc, Sent s u l c (s.wordAt i (forced (vendorMicro k) i)) xr none (s.engine l).msgs w →
      ∃ v, u.finalFields l c (vendorMicro k) i (s.condTrue l c i) true vc (s.slotTime l) = (v, kf) ∧ Finals s u v l c pc w' W ∧ Q v) :
    RunsTo (done s (s.runRow l (n + 1) p)) fun t =>
      (Issues s t l c (s.wordAt i (forced (vendorMicro k) i)) xr none (s.engine l).msgs ∧
        Completes s t l c pc none (k0 || decide (0xFFFF < aOf i) || (vendorMicro k).clampev || kf) W) ∧
      ∃ v, Q v ∧ ∀ (y : Fld) (a : Nat), y.reg.addr = groupBase l + a → 0xB00C ≤ a → a ≠ 0xB40C + 0x60 * c → t.get y = v.get y := by
  obtain ⟨instr, _, _, _, va⟩ := h.entered
  have sent := (h.sends ((s.entering_begins h.engine _).writes set) cfg raised plain (x := (s.engine l).exec (s.slotTime l)) instr (va ldm) keeps
    (k0 || decide (0xFFFF < aOf i) || (vendorMicro k).clampev)).1
  rw [request, turn] at sent
  exact h.ends_sent at_ hk plain turn (fun _ => nofun) kind n settings sub sent (P := fun _ => True) trivial fun u vc sent _ => fin u vc sent

end

end Sys2Proof.Machine
end

section
/-! Quesel control flow (R259, R267, R271 to R276). -/

namespace Sys2Proof.Machine

/-! ### Instructions that only move the PC and the stack -/

/-- R303: the final fields without the ALU and the CLR modifier. -/
theorem State.finalFields_stack (u : State) (l c : Nat) {m : Micro} (i : Native) (test : Bool) (vc : Nat) (w : Time) (alu : m.aluf = 0)
    (clr : (m.clrt && clrOf i) = false) : u.finalFields l c m i test true vc w =
      ((u.stackUnit l c m.stkop i).state.set (SQ_CTX_STAT_PC l c)
        (pcUnit m.pcop (u.ctxPc l c) (u.stackUnit l c m.stkop i).pc (u.stackUnit l c m.stkop i).next test i).1,
       (u.stackUnit l c m.stkop i).clamp ||
        (pcUnit m.pcop (u.ctxPc l c) (u.stackUnit l c m.stkop i).pc (u.stackUnit l c m.stkop i).next test i).2) := by
  have same : u.aluUnit l c m i vc w = u := by
    unfold State.aluUnit
    rw [if_pos alu]
  unfold State.finalFields
  rw [same]
  have tested : ∀ v : State, (if m.clrt && true then v.clearTested l c i else v) = v := fun v => by
    unfold State.clearTested
    cases hc : m.clrt with
    | false => rfl
    | true =>
      rw [hc, Bool.true_and] at clr
      rw [clr]
      rfl
  dsimp only
  rw [tested]

/-- The contexts of engine l read as before. -/
def SameContexts (l : Nat) (s u : State) : Prop :=
  ∀ (y : Fld) (a : Nat), y.reg.addr = groupBase l + a → 0xB400 ≤ a → u.get y = s.get y

theorem Sent.contexts {s u : State} {l c : Nat} {word : Nat → Native} {x : Option XReq} {turn : Option TurnEnd} {q : List Native}
    (h : Sent s u l c word x turn q []) : SameContexts l s u := fun y a hy lo =>
  h.frame.reg y (sqField_notPba a hy) fun z hz => .inl (by
    rw [List.mem_singleton.1 hz, hy]
    simp only [SQ_STAT_ENG, SQ_STAT]
    omega)

theorem State.ctxPc_of_contexts {s u : State} {l : Nat} (h : SameContexts l s u) (c : Nat) : u.ctxPc l c = s.ctxPc l c :=
  h _ (0xB400 + 0x60 * c) (by simp only [SQ_CTX_STAT_PC, SQ_CTX_STAT]; omega) (by omega)

theorem State.depth_of_contexts {s u : State} {l : Nat} (h : SameContexts l s u) (c : Nat) :
    u.get (SQ_CTX_STAT_DEPTH l c) = s.get (SQ_CTX_STAT_DEPTH l c) :=
  h _ (0xB400 + 0x60 * c) (by simp only [SQ_CTX_STAT_DEPTH, SQ_CTX_STAT]; omega) (by omega)

/-- The routine of an opcode in the vendor's image. -/
structure Routine (op : Nat) (m : Micro) : Prop where
  entry : (DispEntry.make (vendorDispatch.getD op 0)).maddr < 64
  ldm : (DispEntry.make (vendorDispatch.getD op 0)).ldm = 0
  micro : vendorMicro (DispEntry.make (vendorDispatch.getD op 0)).maddr = m
  plain : m.Plain

theorem Micro.plain_of {m : Micro} (h : m = { plainMicro with
    vforce := m.vforce, pcop := m.pcop, stkop := m.stkop, flagw := m.flagw, clrt := m.clrt, ctxop := m.ctxop, clampev := m.clampev,
    aluf := m.aluf, asel := m.asel, bsel := m.bsel, dsel := m.dsel, xreq := m.xreq }) : m.Plain := by
  rw [h]
  exact ⟨rfl, rfl, rfl, rfl, rfl, rfl, rfl, rfl⟩

theorem forced_of_none {m : Micro} (h : m.vforce = 0) (i : Native) : forced m i = id := by
  funext w
  unfold forced
  rw [h]
  rfl

theorem turnOf_of_none {m : Micro} (h : m.ctxop = 0) (i : Native) : turnOf m i = none := by
  unfold turnOf
  rw [h]
  rfl

theorem State.settings_of_none (s : State) (l c : Nat) {m : Micro} (h : m.ctxop = 0) (i : Native) : s.settings l c m i = (s, false) := by
  unfold State.settings
  rw [h]
  rfl

theorem State.requestOf_of_none (s : State) (l c : Nat) (i : Native) : s.requestOf l c 0 i = none := rfl

section
variable {s : State} {l c : Nat} {i : Native} (h : s.Stands l c i)
include h

/-- An instruction without settings, request and turn: its final fields say what it does. -/
theorem State.Stands.body_runs {op : Nat} {m : Micro} (code : opOf i = op) (routine : Routine op m) (noSet : m.ctxop = 0)
    (noReq : m.xreq = 0) (noForce : m.vforce = 0) {p : Native → Bool} (kind : p i = true) (n : Nat) {kf : Bool} {pc : Nat} {w : List Fld}
    {Q : State → Prop}
    (fin : ∀ u vc, SameContexts l s u → u.raised = s.raised →
      ∃ v, u.finalFields l c m i (s.condTrue l c i) true vc (s.slotTime l) = (v, kf) ∧ Finals s u v l c pc w w ∧ Q v) :
    RunsTo (done s (s.runRow l (n + 1) p)) fun t => Executes s t l c i pc (m.clampev || kf) w ∧
      ∃ v, Q v ∧ ∀ (y : Fld) (a : Nat), y.reg.addr = groupBase l + a → 0xB00C ≤ a → a ≠ 0xB40C + 0x60 * c → t.get y = v.get y := by
  obtain ⟨entry, ldm, micro, plain⟩ := routine
  subst code
  subst micro
  have keeps : ((vendorMicro (DispEntry.make (vendorDispatch.getD (opOf i) 0)).maddr).xreq == 6 && modOf i % 2 == 1) = false := by
    rw [noReq]
    rfl
  have run := h.executes rfl ldm entry plain keeps (turnOf_of_none noSet i) kind n (State.settings_of_none _ l c noSet i) (.refl [] _)
    (fun _ hy => nomatch hy) (State.setEngine_raised ..) (W := w) (List.nil_subset _) (by rw [noReq]; rfl) (xr := none)
    (Q := Q) fun u vc sent => fin u vc sent.contexts sent.raised
  refine run.mono fun t ⟨⟨issues, completes⟩, rest⟩ => ⟨⟨?_, ?_⟩, rest⟩
  · rw [forced_of_none noForce] at issues
    exact issues
  · rw [Bool.false_or, Bool.or_assoc] at completes
    exact completes

end

/-! ### NOP, jumps and the stack (R267, R271 to R276) -/

theorem routine_nop : Routine 0x00 plainMicro := ⟨by decide, by decide, by decide, Micro.plain_of rfl⟩
theorem routine_jmp : Routine 0x0A { plainMicro with pcop := 2 } := ⟨by decide, by decide, by decide, Micro.plain_of rfl⟩
theorem routine_jmpc : Routine 0x0B { plainMicro with pcop := 4, clrt := true } := ⟨by decide, by decide, by decide, Micro.plain_of rfl⟩
theorem routine_call : Routine 0x0C { plainMicro with pcop := 2, stkop := 1 } := ⟨by decide, by decide, by decide, Micro.plain_of rfl⟩
theorem routine_loop : Routine 0x08 { plainMicro with stkop := 2 } := ⟨by decide, by decide, by decide, Micro.plain_of rfl⟩
theorem routine_ret : Routine 0x0D { plainMicro with pcop := 3, stkop := 3 } := ⟨by decide, by decide, by decide, Micro.plain_of rfl⟩
theorem routine_endl : Routine 0x09 { plainMicro with pcop := 3, stkop := 4 } := ⟨by decide, by decide, by decide, Micro.plain_of rfl⟩

theorem routine_undefined {op : Nat} (small : op < 256) (h : op ∉ definedOps) : Routine op { plainMicro with clampev := true } := by
  have entry : DispEntry.make (vendorDispatch.getD op 0) = DispEntry.make 0x3F := by rw [vendorDispatch_undefined small h]
  exact ⟨by rw [entry]; decide, by rw [entry]; decide, by rw [entry]; decide, Micro.plain_of rfl⟩

theorem pcNext_lt (pc : Nat) : pcNext pc < 16384 := Nat.mod_lt _ (by decide)

/-- The PC is the last that an instruction writes. -/
theorem Finals.of_stack {s u r : State} {l c pc : Nat} {w : List Fld} (stack : Writes w u r) (body : ∀ y ∈ w, bodyField l c y)
    (small : pc < 16384) : Finals s u (r.set (SQ_CTX_STAT_PC l c) pc) l c pc w w where
  step := (stack.mono (List.subset_cons_self ..)).trans (.set _ _ _ (Fld.inWord_of _ rfl) List.mem_cons_self)
  place := (State.get_set _ _ _ (Fld.inWord_of _ rfl)).trans (Nat.mod_eq_of_lt small)
  sub := fun _ => id
  body := body
  off := fun y hy => (body y hy).offClamp

section
variable {s : State} {l c : Nat} {i : Native} (h : s.Stands l c i)
include h

/-- An instruction of the stack unit and the PC. -/
theorem State.Stands.stack_runs {op : Nat} {m : Micro} (code : opOf i = op) (routine : Routine op m) (noSet : m.ctxop = 0)
    (noReq : m.xreq = 0) (noForce : m.vforce = 0) (noAlu : m.aluf = 0) (noClr : (m.clrt && clrOf i) = false) {p : Native → Bool}
    (kind : p i = true) (n : Nat) {prop pc : Nat} {next k k2 : Bool} {w : List Fld} {R : State → Prop}
    (stack : ∀ u, SameContexts l s u → ∃ r, u.stackUnit l c m.stkop i = ⟨r, prop, next, k⟩ ∧ Writes w u r ∧ R r)
    (body : ∀ y ∈ w, bodyField l c y) (goes : pcUnit m.pcop (s.ctxPc l c) prop next (s.condTrue l c i) i = (pc, k2)) (small : pc < 16384) :
    RunsTo (done s (s.runRow l (n + 1) p)) fun t => Executes s t l c i pc (m.clampev || (k || k2)) w ∧
      ∃ r, R r ∧ ∀ (y : Fld) (a : Nat), y.reg.addr = groupBase l + a → 0xB00C ≤ a → a ≠ 0xB40C + 0x60 * c →
        (SQ_CTX_STAT_PC l c).apart y → t.get y = r.get y := by
  have run := h.body_runs code routine noSet noReq noForce kind n (pc := pc) (kf := k || k2) (w := w)
    (Q := fun v => ∃ r, R r ∧ v = r.set (SQ_CTX_STAT_PC l c) pc) fun u vc same _ => by
      obtain ⟨r, unit, writes, hR⟩ := stack u same
      refine ⟨r.set (SQ_CTX_STAT_PC l c) pc, ?_, .of_stack writes body small, r, hR, rfl⟩
      rw [u.finalFields_stack l c i _ vc _ noAlu noClr, unit, State.ctxPc_of_contexts same, goes]
  refine run.mono fun t ⟨executes, v, ⟨r, hR, eq⟩, reads⟩ => ⟨executes, r, hR, fun y a hy lo res apart => ?_⟩
  rw [reads y a hy lo res, eq, State.get_set_apart _ _ _ _ (Fld.inWord_of _ rfl) apart]

/-- An instruction without a stack operation. -/
theorem State.Stands.pc_runs {op : Nat} {m : Micro} (code : opOf i = op) (routine : Routine op m) (noSet : m.ctxop = 0)
    (noReq : m.xreq = 0) (noForce : m.vforce = 0) (noAlu : m.aluf = 0) (noStack : m.stkop = 0) (noClr : (m.clrt && clrOf i) = false)
    {p : Native → Bool} (kind : p i = true) (n : Nat) {pc : Nat} {k : Bool}
    (goes : pcUnit m.pcop (s.ctxPc l c) (pcNext (s.ctxPc l c)) true (s.condTrue l c i) i = (pc, k)) (small : pc < 16384) :
    RunsTo (done s (s.runRow l (n + 1) p)) fun t => Executes s t l c i pc (m.clampev || k) [] := by
  refine (h.stack_runs code routine noSet noReq noForce noAlu noClr kind n (k := false) (k2 := k) (w := []) (R := fun _ => True)
    (fun u same => ⟨u, ?_, .refl .., trivial⟩) (fun _ hy => nomatch hy) goes small).mono fun t ht => ?_
  · rw [noStack, ← State.ctxPc_of_contexts same]
    rfl
  · exact ht.1

end

theorem nop_runs {s : State} {e : EngineIx} {c : Fin 32} {i : Native} (h : s.Stands e c i) (code : opOf i = 0x00) :
    RunsTo (exec (.nop e) s) fun t => Advances s t e c i [] := by
  have run := h.pc_runs code routine_nop rfl rfl rfl rfl rfl rfl (p := fun i => opOf i == 0x00) (beq_iff_eq.2 code) 2047 rfl (pcNext_lt _)
  refine run.mono fun t ht => ?_
  unfold Advances
  rw [Bool.or_false]
  exact ht

theorem undefinedOpcode_runs {s : State} {e : EngineIx} {c : Fin 32} {i : Native} (h : s.Stands e c i) (code : opOf i ∉ definedOps) :
    RunsTo (exec (.undefinedOpcode e) s) fun t => Advances s t e c i [] (clamp := true) := by
  have run := h.pc_runs rfl (routine_undefined (opOf_lt i) code) rfl rfl rfl rfl rfl rfl (p := fun i => !definedOps.contains (opOf i))
    (by simpa using code) 2047 rfl (pcNext_lt _)
  refine run.mono fun t ht => ?_
  unfold Advances
  rw [Bool.or_true]
  exact ht

theorem clampTarget_lt (b : Nat) : clampTarget b < 16384 := Nat.lt_succ_of_le (Nat.min_le_right ..)

theorem jmp_runs {s : State} {e : EngineIx} {c : Fin 32} {i : Native} (h : s.Stands e c i) (code : opOf i = 0x0A) :
    RunsTo (exec (.jmp e) s) fun t => Executes s t e c i (min (bOf i) 16383) (decide (16383 < bOf i)) [] := by
  have run := h.pc_runs code routine_jmp rfl rfl rfl rfl rfl rfl (p := fun i => opOf i == 0x0A) (beq_iff_eq.2 code) 2047 rfl (clampTarget_lt _)
  exact run.mono fun t ht => ht

/-! ### JMPC (R263, R264, R274) -/

theorem jmpc_taken_runs {s : State} {e : EngineIx} {c : Fin 32} {i : Native} (h : s.Stands e c i) (code : opOf i = 0x0B)
    (clr : clrOf i = false) (cond : s.condTrue e c i) :
    RunsTo (exec (.jmpc e) s) fun t => Executes s t e c i (min (bOf i) 16383) (decide (16383 < bOf i)) [] := by
  have run := h.pc_runs code routine_jmpc rfl rfl rfl rfl rfl clr (p := fun i => opOf i == 0x0B) (beq_iff_eq.2 code) 2047
    (pc := clampTarget (bOf i)) (k := decide (16383 < bOf i)) (by rw [cond]; rfl) (clampTarget_lt _)
  exact run.mono fun t ht => ht

theorem jmpc_not_taken_runs {s : State} {e : EngineIx} {c : Fin 32} {i : Native} (h : s.Stands e c i) (code : opOf i = 0x0B)
    (clr : clrOf i = false) (cond : s.condTrue e c i = false) : RunsTo (exec (.jmpc e) s) fun t => Advances s t e c i [] := by
  have run := h.pc_runs code routine_jmpc rfl rfl rfl rfl rfl clr (p := fun i => opOf i == 0x0B) (beq_iff_eq.2 code) 2047
    (pc := pcNext (s.ctxPc e c)) (k := s.ctxPc e c == 16383) (by rw [cond]; rfl) (pcNext_lt _)
  refine run.mono fun t ht => ?_
  unfold Advances
  rw [Bool.or_false]
  exact ht

/-- R264: the CLR modifier of a jump on the fail flag. -/
theorem State.clearTested_fail (s : State) (l c : Nat) {i : Native} (clr : clrOf i) (cond : condOf i = 2) :
    s.clearTested l c i = s.lower (SQ_CTX_FLAGS_FAIL l c) := by
  unfold State.clearTested
  rw [clr, cond]
  rfl

theorem State.lower_sets (s : State) {x : Fld} (h : x.inWord) (one : s.get x = 1) : Writes [x] s (s.lower x) ∧
    (s.lower x).get x = if s.raised.contains (x.reg.addr, x.lo) then 1 else 0 := by
  unfold State.lower
  split
  · exact ⟨.refl .., one⟩
  · refine ⟨.set _ _ _ h (by simp), ?_⟩
    rw [State.get_set _ _ _ h, Nat.zero_mod]

theorem condTrue_fail {s : State} {l c : Nat} {i : Native} (cond : condOf i = 2) (fail : s.on (SQ_CTX_FLAGS_FAIL l c)) :
    s.condTrue l c i = false := by
  have input : (s.condInput l c).fail = true := fail
  unfold State.condTrue
  rw [cond]
  simp [condHolds, input]

/-- R303: the final fields without the ALU, where the instruction has the CLR modifier. -/
theorem State.finalFields_clear (u : State) (l c : Nat) {m : Micro} (i : Native) (test : Bool) (vc : Nat) (w : Time) (alu : m.aluf = 0)
    (stack : m.stkop = 0) (clr : m.clrt = true) : u.finalFields l c m i test true vc w =
      ((u.set (SQ_CTX_STAT_PC l c) (pcUnit m.pcop (u.ctxPc l c) (pcNext (u.ctxPc l c)) true test i).1).clearTested l c i,
       (pcUnit m.pcop (u.ctxPc l c) (pcNext (u.ctxPc l c)) true test i).2) := by
  have same : u.aluUnit l c m i vc w = u := by
    unfold State.aluUnit
    rw [if_pos alu]
  unfold State.finalFields
  rw [same, stack, clr]
  rfl

theorem jmpc_clear_runs {s : State} {e : EngineIx} {c : Fin 32} {i : Native} (h : s.Stands e c i) (code : opOf i = 0x0B)
    (clr : clrOf i) (cond : condOf i = 2) (fail : s.on (SQ_CTX_FLAGS_FAIL e c)) : RunsTo (exec (.jmpc e) s) fun t =>
      Advances s t e c i [SQ_CTX_FLAGS_FAIL e c] ∧
      t.get (SQ_CTX_FLAGS_FAIL e c) = (if s.raised.contains ((SQ_CTX_FLAGS_FAIL e c).reg.addr, (SQ_CTX_FLAGS_FAIL e c).lo)
        then 1 else 0) := by
  have flagAt : (SQ_CTX_FLAGS_FAIL e c).reg.addr = groupBase e + (0xB408 + 0x60 * c.val) := by
    simp only [SQ_CTX_FLAGS_FAIL, SQ_CTX_FLAGS]
    omega
  have apart : (SQ_CTX_STAT_PC e c).apart (SQ_CTX_FLAGS_FAIL e c) :=
    .inl (by simp only [SQ_CTX_STAT_PC, SQ_CTX_STAT, SQ_CTX_FLAGS_FAIL, SQ_CTX_FLAGS]; omega)
  have run := h.body_runs code routine_jmpc rfl rfl rfl (p := fun i => opOf i == 0x0B) (beq_iff_eq.2 code) 2047
    (pc := pcNext (s.ctxPc e c)) (kf := s.ctxPc e c == 16383) (w := [SQ_CTX_FLAGS_FAIL e c])
    (Q := fun v => v.get (SQ_CTX_FLAGS_FAIL e c) = if s.raised.contains ((SQ_CTX_FLAGS_FAIL e c).reg.addr, (SQ_CTX_FLAGS_FAIL e c).lo)
        then 1 else 0) fun u vc same notes => by
      rw [u.finalFields_clear e c i _ vc _ rfl rfl rfl, State.ctxPc_of_contexts same, condTrue_fail cond fail, State.clearTested_fail _ _ _ clr cond]
      have one : u.get (SQ_CTX_FLAGS_FAIL e c) = 1 := by
        have here : u.get (SQ_CTX_FLAGS_FAIL e c) = s.get (SQ_CTX_FLAGS_FAIL e c) := same _ _ flagAt (by omega)
        have small : s.get (SQ_CTX_FLAGS_FAIL e c) < 2 := State.get_lt s (SQ_CTX_FLAGS_FAIL e c)
        have set : s.get (SQ_CTX_FLAGS_FAIL e c) ≠ 0 := bne_iff_ne.1 fail
        omega
      have kept : (u.set (SQ_CTX_STAT_PC e c) (pcNext (s.ctxPc e c))).get (SQ_CTX_FLAGS_FAIL e c) = 1 := by
        rw [State.get_set_apart _ _ _ _ (Fld.inWord_of _ rfl) apart, one]
      obtain ⟨writes, lowered⟩ := State.lower_sets _ (Fld.inWord_of (SQ_CTX_FLAGS_FAIL e c) rfl) kept
      have bodies : ∀ y ∈ [SQ_CTX_FLAGS_FAIL e c], bodyField e c y := fun y hy => by
        rw [List.mem_singleton.1 hy]
        exact ⟨0xB408, by rw [flagAt]; omega, by omega⟩
      refine ⟨_, rfl, ⟨?_, ?_, fun _ => id, bodies, fun y hy => (bodies y hy).offClamp⟩, ?_⟩
      · exact (Writes.set _ _ _ (Fld.inWord_of _ rfl) List.mem_cons_self).trans (writes.mono (by simp))
      · have pc : (u.set (SQ_CTX_STAT_PC e c) (pcNext (s.ctxPc e c))).get (SQ_CTX_STAT_PC e c) = pcNext (s.ctxPc e c) :=
          (State.get_set _ _ _ (Fld.inWord_of _ rfl)).trans (Nat.mod_eq_of_lt (pcNext_lt _))
        refine (writes.frame.reg _ (sqField_notPba (g := e) (0xB400 + 0x60 * c.val) ?_) fun z hz => ?_).trans pc
        · simp only [SQ_CTX_STAT_PC, SQ_CTX_STAT]
          omega
        · rw [List.mem_singleton.1 hz]
          exact Fld.apart_symm apart
      · exact lowered.trans (by rw [State.set_raised, notes])
  refine run.mono fun t ⟨executes, v, cleared, reads⟩ => ⟨?_, ?_⟩
  · unfold Advances
    rw [Bool.or_false]
    exact executes
  · rw [reads _ _ flagAt (by omega) (by omega), cleared]

/-! ### The stack (R253, R271 to R276) -/

/-- R253: the registers of the stack of a context. -/
def stackReg (l c : Nat) (y : Fld) : Prop := ∃ a, y.reg.addr = groupBase l + 0x60 * c + a ∧ 0xB410 ≤ a ∧ a < 0xB428

theorem stackReg.bodyField {l c : Nat} {y : Fld} (h : stackReg l c y) : bodyField l c y := by
  obtain ⟨a, hy, lo, hi⟩ := h
  exact ⟨a, hy, .inr ⟨by omega, by omega⟩⟩

/-- A field of the register that holds PC and DEPTH lies outside the stack. -/
theorem stackReg.apart {l c : Nat} {x y : Fld} (h : stackReg l c y) (hx : x.reg = SQ_CTX_STAT l c) : x.apart y := by
  obtain ⟨a, hy, lo, hi⟩ := h
  refine .inl ?_
  rw [hx, hy]
  simp only [SQ_CTX_STAT]
  omega

theorem stackReg_kind (l c d : Nat) : stackReg l c (stackKind l c d) ∧ (stackKind l c d).inWord := by
  unfold stackKind
  split <;> refine ⟨?_, Fld.inWord_of _ rfl⟩
  · exact ⟨0xB410, by simp only [SQ_CTX_STK01_K0, SQ_CTX_STK01]; omega, by omega, by omega⟩
  · exact ⟨0xB410, by simp only [SQ_CTX_STK01_K1, SQ_CTX_STK01]; omega, by omega, by omega⟩
  · exact ⟨0xB414, by simp only [SQ_CTX_STK23_K2, SQ_CTX_STK23]; omega, by omega, by omega⟩
  · exact ⟨0xB414, by simp only [SQ_CTX_STK23_K3, SQ_CTX_STK23]; omega, by omega, by omega⟩

theorem stackReg_addr (l c d : Nat) : stackReg l c (stackAddr l c d) ∧ (stackAddr l c d).inWord := by
  unfold stackAddr
  split <;> refine ⟨?_, Fld.inWord_of _ rfl⟩
  · exact ⟨0xB410, by simp only [SQ_CTX_STK01_A0, SQ_CTX_STK01]; omega, by omega, by omega⟩
  · exact ⟨0xB410, by simp only [SQ_CTX_STK01_A1, SQ_CTX_STK01]; omega, by omega, by omega⟩
  · exact ⟨0xB414, by simp only [SQ_CTX_STK23_A2, SQ_CTX_STK23]; omega, by omega, by omega⟩
  · exact ⟨0xB414, by simp only [SQ_CTX_STK23_A3, SQ_CTX_STK23]; omega, by omega, by omega⟩

theorem stackReg_count (l c : Nat) {d : Nat} (h : d < 4) : stackReg l c (SQ_CTX_L_L l c d) :=
  ⟨0xB418 + 4 * d, by simp only [SQ_CTX_L_L, SQ_CTX_L]; omega, by omega, by omega⟩

theorem stackAddr_apart_stackKind (l c d : Nat) : (stackAddr l c d).apart (stackKind l c d) := by
  unfold stackAddr stackKind
  split <;> exact Fld.apart_of _ _ rfl rfl

theorem count_apart_stackKind (l c d : Nat) : (SQ_CTX_L_L l c d).apart (stackKind l c d) := by
  refine .inl ?_
  unfold stackKind
  split <;> simp only [SQ_CTX_L_L, SQ_CTX_L, SQ_CTX_STK01_K0, SQ_CTX_STK01_K1, SQ_CTX_STK01, SQ_CTX_STK23_K2, SQ_CTX_STK23_K3, SQ_CTX_STK23] <;> omega

theorem count_apart_stackAddr (l c d : Nat) : (SQ_CTX_L_L l c d).apart (stackAddr l c d) := by
  refine .inl ?_
  unfold stackAddr
  split <;> simp only [SQ_CTX_L_L, SQ_CTX_L, SQ_CTX_STK01_A0, SQ_CTX_STK01_A1, SQ_CTX_STK01, SQ_CTX_STK23_A2, SQ_CTX_STK23_A3, SQ_CTX_STK23] <;> omega

theorem get_stackKind_lt (s : State) (l c d : Nat) : s.get (stackKind l c d) < 2 := by
  unfold stackKind
  split <;> exact State.get_lt s _

theorem get_stackAddr_lt (s : State) (l c d : Nat) : s.get (stackAddr l c d) < 16384 := by
  unfold stackAddr
  split <;> exact State.get_lt s _

theorem State.get_set_stackKind (s : State) (l c d : Nat) {v : Nat} (h : v < 2) : (s.set (stackKind l c d) v).get (stackKind l c d) = v := by
  unfold stackKind
  split <;> exact (State.get_set _ _ _ (Fld.inWord_of _ rfl)).trans (Nat.mod_eq_of_lt h)

theorem State.get_set_stackAddr (s : State) (l c d : Nat) {v : Nat} (h : v < 16384) :
    (s.set (stackAddr l c d) v).get (stackAddr l c d) = v := by
  unfold stackAddr
  split <;> exact (State.get_set _ _ _ (Fld.inWord_of _ rfl)).trans (Nat.mod_eq_of_lt h)

theorem SameContexts.stack {s u : State} {l c : Nat} (h : SameContexts l s u) {y : Fld} (hy : stackReg l c y) : u.get y = s.get y := by
  obtain ⟨a, at_, lo, hi⟩ := hy
  exact h y (0x60 * c + a) (at_.trans (Nat.add_assoc ..)) (by omega)

/-- R253: the entry that CALL and LOOP push. -/
def State.pushed (s : State) (l c kind : Nat) : State :=
  ((s.set (stackKind l c (s.get (SQ_CTX_STAT_DEPTH l c))) kind).set (stackAddr l c (s.get (SQ_CTX_STAT_DEPTH l c)))
    (pcNext (s.ctxPc l c))).set (SQ_CTX_STAT_DEPTH l c) (s.get (SQ_CTX_STAT_DEPTH l c) + 1)

/-- What stands in the registers of a context once an entry is pushed. -/
structure Pushed (r : State) (l c d kind pc : Nat) : Prop where
  depth : r.get (SQ_CTX_STAT_DEPTH l c) = d + 1
  kind : r.get (stackKind l c d) = kind
  place : r.get (stackAddr l c d) = pc

theorem State.pushed_holds (s : State) (l c : Nat) {d kind : Nat} (depth : s.get (SQ_CTX_STAT_DEPTH l c) = d) (room : d < 4) (small : kind < 2) :
    Writes [stackKind l c d, stackAddr l c d, SQ_CTX_STAT_DEPTH l c] s (s.pushed l c kind) ∧
      Pushed (s.pushed l c kind) l c d kind (pcNext (s.ctxPc l c)) := by
  unfold State.pushed
  rw [depth]
  obtain ⟨inKind, kindWord⟩ := stackReg_kind l c d
  obtain ⟨inAddr, addrWord⟩ := stackReg_addr l c d
  have depthWord : (SQ_CTX_STAT_DEPTH l c).inWord := Fld.inWord_of _ rfl
  refine ⟨?_, ?_, ?_, ?_⟩
  · exact ((Writes.set _ _ _ kindWord (by simp)).trans (.set _ _ _ addrWord (by simp))).trans (.set _ _ _ depthWord (by simp))
  · exact (State.get_set _ _ _ depthWord).trans (Nat.mod_eq_of_lt (show d + 1 < 8 by omega))
  · rw [State.get_set_apart _ _ _ _ depthWord (inKind.apart rfl),
      State.get_set_apart _ _ _ _ addrWord (stackAddr_apart_stackKind ..), State.get_set_stackKind _ _ _ _ small]
  · rw [State.get_set_apart _ _ _ _ depthWord (inAddr.apart rfl), State.get_set_stackAddr _ _ _ _ (pcNext_lt _)]

/-- The stack of a context reads the same. -/
def SameStack (l c : Nat) (r t : State) : Prop := ∀ y, stackReg l c y ∨ y = SQ_CTX_STAT_DEPTH l c → t.get y = r.get y

theorem Pushed.same {r t : State} {l c d kind pc : Nat} (h : Pushed r l c d kind pc) (k : SameStack l c r t) : Pushed t l c d kind pc where
  depth := (k _ (.inr rfl)).trans h.depth
  kind := (k _ (.inl (stackReg_kind l c d).1)).trans h.kind
  place := (k _ (.inl (stackReg_addr l c d).1)).trans h.place

theorem bodyField_depth (l c : Nat) : bodyField l c (SQ_CTX_STAT_DEPTH l c) :=
  ⟨0xB400, by simp only [SQ_CTX_STAT_DEPTH, SQ_CTX_STAT]; omega, .inl rfl⟩

/-- The fields that a push writes. -/
theorem bodyField_pushed (l c d : Nat) : ∀ y ∈ [stackKind l c d, stackAddr l c d, SQ_CTX_STAT_DEPTH l c], bodyField l c y := by
  intro y hy
  simp only [List.mem_cons, List.not_mem_nil, or_false] at hy
  obtain rfl | rfl | rfl := hy
  · exact (stackReg_kind l c d).1.bodyField
  · exact (stackReg_addr l c d).1.bodyField
  · exact bodyField_depth l c

section
variable {s : State} {e : EngineIx} {c : Fin 32} {i : Native} (h : s.Stands e c i)
include h

/-- An instruction of the stack: what the stack then holds. -/
theorem State.Stands.stack_reads {op : Nat} {m : Micro} (code : opOf i = op) (routine : Routine op m) (noSet : m.ctxop = 0)
    (noReq : m.xreq = 0) (noForce : m.vforce = 0) (noAlu : m.aluf = 0) (noClr : (m.clrt && clrOf i) = false) {p : Native → Bool}
    (kind : p i = true) (n : Nat) {prop pc : Nat} {next k k2 : Bool} {w : List Fld} {R : State → Prop}
    (stack : ∀ u, SameContexts e s u → ∃ r, u.stackUnit e c m.stkop i = ⟨r, prop, next, k⟩ ∧ Writes w u r ∧ R r)
    (body : ∀ y ∈ w, bodyField e c y) (goes : pcUnit m.pcop (s.ctxPc e c) prop next (s.condTrue e c i) i = (pc, k2)) (small : pc < 16384) :
    RunsTo (done s (s.runRow e (n + 1) p)) fun t => Executes s t e c i pc (m.clampev || (k || k2)) w ∧ ∃ r, R r ∧ SameStack e c r t := by
  refine (h.stack_runs code routine noSet noReq noForce noAlu noClr kind n stack body goes small).mono
    fun t ⟨executes, r, hR, reads⟩ => ⟨executes, r, hR, fun y hy => ?_⟩
  obtain inStack | rfl := hy
  · obtain ⟨a, at_, lo, hi⟩ := id inStack
    exact reads y (0x60 * c + a) (at_.trans (Nat.add_assoc ..)) (by omega) (by omega) (inStack.apart rfl)
  · refine reads _ (0xB400 + 0x60 * c) ?_ (by omega) (by omega) (Fld.apart_of _ _ rfl rfl)
    simp only [SQ_CTX_STAT_DEPTH, SQ_CTX_STAT]
    omega

theorem callOp_push_runs (code : opOf i = 0x0C) {d : Nat} (depth : s.get (SQ_CTX_STAT_DEPTH e c) = d) (room : d < 4) :
    RunsTo (exec (.callOp e) s) fun t =>
      Executes s t e c i (min (bOf i) 16383) (decide (16383 < bOf i)) [stackKind e c d, stackAddr e c d, SQ_CTX_STAT_DEPTH e c] ∧
      Pushed t e c d 0 (pcNext (s.ctxPc e c)) := by
  have run := h.stack_reads code routine_call rfl rfl rfl rfl rfl (p := fun i => opOf i == 0x0C) (beq_iff_eq.2 code) 2047
    (prop := pcNext (s.ctxPc e c)) (next := true) (k := false) (pc := clampTarget (bOf i)) (k2 := decide (16383 < bOf i))
    (R := fun r => Pushed r e c d 0 (pcNext (s.ctxPc e c)))
    (fun u same => by
      have here := (State.depth_of_contexts same c).trans depth
      obtain ⟨writes, holds⟩ := u.pushed_holds e c here room (kind := 0) (by decide)
      have fits : u.get (SQ_CTX_STAT_DEPTH e c) < 4 := by rw [here]; exact room
      rw [← State.ctxPc_of_contexts same]
      exact ⟨u.pushed e c 0, if_pos fits, writes, holds⟩)
    (bodyField_pushed e c d) rfl (clampTarget_lt _)
  exact run.mono fun t ⟨executes, r, pushed, same⟩ => ⟨executes, pushed.same same⟩

/-- CALL at the full depth only jumps, as a clamp. -/
theorem callOp_full_runs (code : opOf i = 0x0C) (depth : s.get (SQ_CTX_STAT_DEPTH e c) = 4) :
    RunsTo (exec (.callOp e) s) fun t => Executes s t e c i (min (bOf i) 16383) true [] := by
  have run := h.stack_reads code routine_call rfl rfl rfl rfl rfl (p := fun i => opOf i == 0x0C) (beq_iff_eq.2 code) 2047
    (prop := pcNext (s.ctxPc e c)) (next := true) (k := true) (pc := clampTarget (bOf i)) (k2 := decide (16383 < bOf i)) (w := [])
    (R := fun _ => True)
    (fun u same => by
      have full : ¬ u.get (SQ_CTX_STAT_DEPTH e c) < 4 := by rw [State.depth_of_contexts same c, depth]; decide
      rw [← State.ctxPc_of_contexts same]
      exact ⟨u, if_neg full, .refl .., trivial⟩)
    (fun _ hy => nomatch hy) rfl (clampTarget_lt _)
  exact run.mono fun t ht => ht.1

theorem loopOp_push_runs (code : opOf i = 0x08) {d : Nat} (depth : s.get (SQ_CTX_STAT_DEPTH e c) = d) (room : d < 4) :
    RunsTo (exec (.loopOp e) s) fun t =>
      Advances s t e c i [stackKind e c d, stackAddr e c d, SQ_CTX_STAT_DEPTH e c, SQ_CTX_L_L e c d] ∧
      Pushed t e c d 1 (pcNext (s.ctxPc e c)) ∧ t.get (SQ_CTX_L_L e c d) = bOf i := by
  have countWord : (SQ_CTX_L_L e c d).inWord := Fld.inWord_of _ rfl
  have run := h.stack_reads code routine_loop rfl rfl rfl rfl rfl (p := fun i => opOf i == 0x08) (beq_iff_eq.2 code) 2047
    (prop := pcNext (s.ctxPc e c)) (next := true) (k := false) (pc := pcNext (s.ctxPc e c)) (k2 := s.ctxPc e c == 16383)
    (w := [stackKind e c d, stackAddr e c d, SQ_CTX_STAT_DEPTH e c, SQ_CTX_L_L e c d])
    (R := fun r => Pushed r e c d 1 (pcNext (s.ctxPc e c)) ∧ r.get (SQ_CTX_L_L e c d) = bOf i)
    (fun u same => by
      have here := (State.depth_of_contexts same c).trans depth
      obtain ⟨writes, holds⟩ := u.pushed_holds e c here room (kind := 1) (by decide)
      have fits : u.get (SQ_CTX_STAT_DEPTH e c) < 4 := by rw [here]; exact room
      rw [← State.ctxPc_of_contexts same]
      refine ⟨(u.pushed e c 1).set (SQ_CTX_L_L e c d) (bOf i), ?_, (writes.mono fun y hy => ?_).trans (.set _ _ _ countWord (by simp)),
        ⟨?_, ?_, ?_⟩, ?_⟩
      · rw [← here]
        exact if_pos fits
      · simp only [List.mem_cons, List.not_mem_nil, or_false] at hy ⊢
        tauto
      · rw [State.get_set_apart _ _ _ _ countWord (Fld.apart_symm ((stackReg_count e c room).apart rfl)), holds.depth]
      · rw [State.get_set_apart _ _ _ _ countWord (count_apart_stackKind ..), holds.kind]
      · rw [State.get_set_apart _ _ _ _ countWord (count_apart_stackAddr ..), holds.place]
      · exact (State.get_set _ _ _ countWord).trans (Nat.mod_eq_of_lt (Nat.mod_lt _ (by decide))))
    (fun y hy => by
      simp only [List.mem_cons, List.not_mem_nil, or_false] at hy
      obtain rfl | rfl | rfl | rfl := hy
      · exact (stackReg_kind e c d).1.bodyField
      · exact (stackReg_addr e c d).1.bodyField
      · exact bodyField_depth e c
      · exact (stackReg_count e c room).bodyField) rfl (pcNext_lt _)
  refine run.mono fun t ⟨executes, r, ⟨pushed, count⟩, same⟩ =>
    ⟨?_, pushed.same same, (same _ (.inl (stackReg_count e c room))).trans count⟩
  unfold Advances
  rw [Bool.or_false]
  exact executes

/-- An instruction whose stack operation finds no entry, or no room, advances as a clamp. -/
theorem State.Stands.stack_fails {op : Nat} {m : Micro} (code : opOf i = op) (routine : Routine op m) (noSet : m.ctxop = 0)
    (noReq : m.xreq = 0) (noForce : m.vforce = 0) (noAlu : m.aluf = 0) (noClr : (m.clrt && clrOf i) = false) (noClamp : m.clampev = false)
    {p : Native → Bool} (kind : p i = true) (n : Nat)
    (stack : ∀ u, SameContexts e s u → u.stackUnit e c m.stkop i = ⟨u, pcNext (u.ctxPc e c), true, true⟩)
    (goes : ∃ k, pcUnit m.pcop (s.ctxPc e c) (pcNext (s.ctxPc e c)) true (s.condTrue e c i) i = (pcNext (s.ctxPc e c), k)) :
    RunsTo (done s (s.runRow e (n + 1) p)) fun t => Advances s t e c i [] (clamp := true) := by
  obtain ⟨k, goes⟩ := goes
  have run := h.stack_reads code routine noSet noReq noForce noAlu noClr kind n (k := true) (w := []) (R := fun _ => True)
    (fun u same => ⟨u, by rw [stack u same, State.ctxPc_of_contexts same], .refl .., trivial⟩) (fun _ hy => nomatch hy) goes (pcNext_lt _)
  refine run.mono fun t ⟨executes, _⟩ => ?_
  unfold Advances
  rw [Bool.or_true]
  rw [noClamp] at executes
  exact executes

theorem loopOp_full_runs (code : opOf i = 0x08) (depth : s.get (SQ_CTX_STAT_DEPTH e c) = 4) :
    RunsTo (exec (.loopOp e) s) fun t => Advances s t e c i [] (clamp := true) :=
  h.stack_fails code routine_loop rfl rfl rfl rfl rfl rfl (p := fun i => opOf i == 0x08) (beq_iff_eq.2 code) 2047
    (fun u same => if_neg (by rw [State.depth_of_contexts same c, depth]; decide)) ⟨_, rfl⟩

theorem ret_empty_runs (code : opOf i = 0x0D) (depth : s.get (SQ_CTX_STAT_DEPTH e c) = 0) :
    RunsTo (exec (.ret e) s) fun t => Advances s t e c i [] (clamp := true) :=
  h.stack_fails code routine_ret rfl rfl rfl rfl rfl rfl (p := fun i => opOf i == 0x0D) (beq_iff_eq.2 code) 2047
    (fun u same => if_neg fun hd => absurd hd.1 (by rw [State.depth_of_contexts same c, depth]; decide)) ⟨_, rfl⟩

theorem endl_empty_runs (code : opOf i = 0x09) (depth : s.get (SQ_CTX_STAT_DEPTH e c) = 0) :
    RunsTo (exec (.endl e) s) fun t => Advances s t e c i [] (clamp := true) :=
  h.stack_fails code routine_endl rfl rfl rfl rfl rfl rfl (p := fun i => opOf i == 0x09) (beq_iff_eq.2 code) 2047
    (fun u same => if_neg fun hd => absurd hd.1 (by rw [State.depth_of_contexts same c, depth]; decide)) ⟨_, rfl⟩

theorem ret_runs (code : opOf i = 0x0D) {d : Nat} (room : d < 4) (depth : s.get (SQ_CTX_STAT_DEPTH e c) = d + 1)
    (isCall : s.get (stackKind e c d) = 0) : RunsTo (exec (.ret e) s) fun t =>
      Executes s t e c i (s.get (stackAddr e c d)) false [SQ_CTX_STAT_DEPTH e c] ∧ t.get (SQ_CTX_STAT_DEPTH e c) = d := by
  have depthWord : (SQ_CTX_STAT_DEPTH e c).inWord := Fld.inWord_of _ rfl
  have run := h.stack_reads code routine_ret rfl rfl rfl rfl rfl (p := fun i => opOf i == 0x0D) (beq_iff_eq.2 code) 2047
    (prop := s.get (stackAddr e c d)) (next := false) (k := false) (k2 := false) (w := [SQ_CTX_STAT_DEPTH e c])
    (R := fun r => r.get (SQ_CTX_STAT_DEPTH e c) = d)
    (fun u same => by
      have here := (State.depth_of_contexts same c).trans depth
      have top : 0 < u.get (SQ_CTX_STAT_DEPTH e c) ∧ u.get (stackKind e c (u.get (SQ_CTX_STAT_DEPTH e c) - 1)) = 0 := by
        rw [here, Nat.add_sub_cancel, same.stack (stackReg_kind e c d).1]
        exact ⟨by omega, isCall⟩
      refine ⟨u.set (SQ_CTX_STAT_DEPTH e c) d, (if_pos top).trans ?_, .set _ _ _ depthWord (by simp), ?_⟩
      · rw [here, Nat.add_sub_cancel, same.stack (stackReg_addr e c d).1]
      · exact (State.get_set _ _ _ depthWord).trans (Nat.mod_eq_of_lt (show d < 8 by omega)))
    (fun y hy => by rw [List.mem_singleton.1 hy]; exact bodyField_depth e c) rfl (get_stackAddr_lt ..)
  exact run.mono fun t ⟨executes, r, pop, same⟩ => ⟨executes, (same _ (.inr rfl)).trans pop⟩

/-- ENDL inside its loop goes back. -/
theorem endl_back_runs (code : opOf i = 0x09) {d : Nat} (room : d < 4) (depth : s.get (SQ_CTX_STAT_DEPTH e c) = d + 1)
    (isLoop : s.get (stackKind e c d) = 1) (more : s.get (SQ_CTX_L_L e c d) ≠ 0) : RunsTo (exec (.endl e) s) fun t =>
      Executes s t e c i (s.get (stackAddr e c d)) false [SQ_CTX_L_L e c d] ∧
      t.get (SQ_CTX_L_L e c d) = s.get (SQ_CTX_L_L e c d) - 1 := by
  have countWord : (SQ_CTX_L_L e c d).inWord := Fld.inWord_of _ rfl
  have run := h.stack_reads code routine_endl rfl rfl rfl rfl rfl (p := fun i => opOf i == 0x09) (beq_iff_eq.2 code) 2047
    (prop := s.get (stackAddr e c d)) (next := false) (k := false) (k2 := false) (w := [SQ_CTX_L_L e c d])
    (R := fun r => r.get (SQ_CTX_L_L e c d) = s.get (SQ_CTX_L_L e c d) - 1)
    (fun u same => by
      have here := (State.depth_of_contexts same c).trans depth
      have top : 0 < u.get (SQ_CTX_STAT_DEPTH e c) ∧ u.get (stackKind e c (u.get (SQ_CTX_STAT_DEPTH e c) - 1)) = 1 := by
        rw [here, Nat.add_sub_cancel, same.stack (stackReg_kind e c d).1]
        exact ⟨by omega, isLoop⟩
      have count := same.stack (stackReg_count e c room)
      refine ⟨u.set (SQ_CTX_L_L e c d) (s.get (SQ_CTX_L_L e c d) - 1), (if_pos top).trans ?_, .set _ _ _ countWord (by simp), ?_⟩
      · rw [here, Nat.add_sub_cancel, same.stack (stackReg_addr e c d).1, count]
        exact if_pos more
      · have small : s.get (SQ_CTX_L_L e c d) < 2 ^ 24 := State.get_lt s _
        exact (State.get_set _ _ _ countWord).trans (Nat.mod_eq_of_lt (show s.get (SQ_CTX_L_L e c d) - 1 < 2 ^ 24 by omega)))
    (fun y hy => by rw [List.mem_singleton.1 hy]; exact (stackReg_count e c room).bodyField) rfl (get_stackAddr_lt ..)
  exact run.mono fun t ⟨executes, r, count, same⟩ => ⟨executes, (same _ (.inl (stackReg_count e c room))).trans count⟩

/-- ENDL at the end of its loop pops the entry. -/
theorem endl_pop_runs (code : opOf i = 0x09) {d : Nat} (room : d < 4) (depth : s.get (SQ_CTX_STAT_DEPTH e c) = d + 1)
    (isLoop : s.get (stackKind e c d) = 1) (last : s.get (SQ_CTX_L_L e c d) = 0) : RunsTo (exec (.endl e) s) fun t =>
      Advances s t e c i [SQ_CTX_STAT_DEPTH e c] ∧ t.get (SQ_CTX_STAT_DEPTH e c) = d := by
  have depthWord : (SQ_CTX_STAT_DEPTH e c).inWord := Fld.inWord_of _ rfl
  have run := h.stack_reads code routine_endl rfl rfl rfl rfl rfl (p := fun i => opOf i == 0x09) (beq_iff_eq.2 code) 2047
    (prop := pcNext (s.ctxPc e c)) (next := true) (k := false) (k2 := s.ctxPc e c == 16383) (w := [SQ_CTX_STAT_DEPTH e c])
    (R := fun r => r.get (SQ_CTX_STAT_DEPTH e c) = d)
    (fun u same => by
      have here := (State.depth_of_contexts same c).trans depth
      have top : 0 < u.get (SQ_CTX_STAT_DEPTH e c) ∧ u.get (stackKind e c (u.get (SQ_CTX_STAT_DEPTH e c) - 1)) = 1 := by
        rw [here, Nat.add_sub_cancel, same.stack (stackReg_kind e c d).1]
        exact ⟨by omega, isLoop⟩
      have count := same.stack (stackReg_count e c room)
      refine ⟨u.set (SQ_CTX_STAT_DEPTH e c) d, (if_pos top).trans ?_, .set _ _ _ depthWord (by simp), ?_⟩
      · rw [here, Nat.add_sub_cancel, count, ← State.ctxPc_of_contexts same]
        exact if_neg (not_not.2 last)
      · exact (State.get_set _ _ _ depthWord).trans (Nat.mod_eq_of_lt (show d < 8 by omega)))
    (fun y hy => by rw [List.mem_singleton.1 hy]; exact bodyField_depth e c) rfl (pcNext_lt _)
  refine run.mono fun t ⟨executes, r, pop, same⟩ => ⟨?_, (same _ (.inr rfl)).trans pop⟩
  unfold Advances
  rw [Bool.or_false]
  exact executes

end

/-- Settles O25: each instruction issues its vector and ends by its routine of the vendor's image, which only moves the PC and
the stack. -/
theorem queselControlFlow : Obligations.QueselControlFlow := by
  unfold Obligations.QueselControlFlow
  intro s e c i h
  refine ⟨nop_runs h, undefinedOpcode_runs h, jmp_runs h, jmpc_taken_runs h, jmpc_not_taken_runs h, jmpc_clear_runs h, ?_,
    callOp_full_runs h, ?_, loopOp_full_runs h, fun d room code => ret_runs h code room, ret_empty_runs h,
    fun d room code => endl_back_runs h code room, fun d room code => endl_pop_runs h code room, endl_empty_runs h⟩
  · exact fun code room => (callOp_push_runs h code rfl room).mono fun t ⟨executes, pushed⟩ =>
      ⟨executes, pushed.depth, pushed.kind, pushed.place⟩
  · exact fun code room => (loopOp_push_runs h code rfl room).mono fun t ⟨advances, pushed, count⟩ =>
      ⟨advances, pushed.depth, pushed.kind, pushed.place, count⟩

end Sys2Proof.Machine
end

section
/-! Quesel arithmetic (R265, R284 to R287). -/

namespace Sys2Proof.Machine

/-! ### Arithmetic of the Q registers (R265, R284 to R287) -/

theorem routine_ldq : Routine 0x20 { plainMicro with aluf := 1, dsel := 1, flagw := true } :=
  ⟨by decide, by decide, by decide, Micro.plain_of rfl⟩
theorem routine_addq : Routine 0x21 { plainMicro with aluf := 2, bsel := 2, dsel := 1, flagw := true } :=
  ⟨by decide, by decide, by decide, Micro.plain_of rfl⟩
theorem routine_cmpq : Routine 0x22 { plainMicro with aluf := 3, bsel := 2, flagw := true } :=
  ⟨by decide, by decide, by decide, Micro.plain_of rfl⟩
theorem routine_movq : Routine 0x23 { plainMicro with aluf := 4, asel := 1, dsel := 2, flagw := true } :=
  ⟨by decide, by decide, by decide, Micro.plain_of rfl⟩

/-- R265: the flags of a result x with C as given. -/
def cnzOf (x : Nat) (c : Bool) : Nat := (if c then 4 else 0) + (if 2 ^ 23 ≤ x then 2 else 0) + (if x = 0 then 1 else 0)

theorem cnzOf_lt (x : Nat) (c : Bool) : cnzOf x c < 8 := by
  unfold cnzOf
  split <;> split <;> split <;> decide

theorem AluResult.cnz_eq {x : Nat} (c : Bool) (h : x < 2 ^ 24) : (AluResult.mk x c).cnz = cnzOf x c := by
  have sign : x.testBit 23 = decide (2 ^ 23 ≤ x) := by
    rw [Nat.testBit_eq_decide_div_mod_eq]
    exact decide_eq_decide.2 (by omega)
  unfold AluResult.cnz cnzOf
  simp only [sign, decide_eq_true_eq]

/-- What the ALU leaves of a context: the result where it goes, and the flags. -/
def State.computed (u : State) (l c : Nat) (dest : Option Fld) (r : AluResult) : State :=
  ((dest.map fun y => u.set y r.x).getD u).set (SQ_CTX_FLAGS_CNZ l c) r.cnz

/-- A register of a context that the ALU writes: a Q or an L register. -/
def aluDest (l c : Nat) (y : Fld) : Prop := y.hi = 23 ∧ y.lo = 0 ∧ ∃ a, y.reg.addr = groupBase l + 0x60 * c + a ∧ 0xB418 ≤ a ∧ a < 0xB460

theorem aluDest_q (l c k : Nat) : aluDest l c (SQ_CTX_Q_Q l c (k % 8)) :=
  ⟨rfl, rfl, 0xB428 + 4 * (k % 8), by simp only [SQ_CTX_Q_Q, SQ_CTX_Q]; omega, by omega, by omega⟩

theorem aluDest_l (l c : Nat) (k : Fin 4) : aluDest l c (SQ_CTX_L_L l c k) :=
  ⟨rfl, rfl, 0xB418 + 4 * k.val, by simp only [SQ_CTX_L_L, SQ_CTX_L]; omega, by omega, by omega⟩

theorem bodyField_cnz (l c : Nat) : bodyField l c (SQ_CTX_FLAGS_CNZ l c) :=
  ⟨0xB408, by simp only [SQ_CTX_FLAGS_CNZ, SQ_CTX_FLAGS]; omega, by omega⟩

theorem aluDest.bodyField {l c : Nat} {y : Fld} (h : aluDest l c y) : bodyField l c y := by
  obtain ⟨_, _, a, hy, lo, hi⟩ := h
  exact ⟨a, hy, .inr ⟨by omega, hi⟩⟩

theorem aluDest.apart_cnz {l c : Nat} {y : Fld} (h : aluDest l c y) : (SQ_CTX_FLAGS_CNZ l c).apart y := by
  obtain ⟨_, _, a, hy, lo, hi⟩ := h
  refine .inl ?_
  rw [hy]
  simp only [SQ_CTX_FLAGS_CNZ, SQ_CTX_FLAGS]
  omega

theorem aluDest.get_set {l c : Nat} {y : Fld} (h : aluDest l c y) (u : State) {x : Nat} (small : x < 2 ^ 24) : (u.set y x).get y = x := by
  obtain ⟨hi, lo, _⟩ := h
  have word : y.inWord := Fld.inWord_of _ (by rw [hi, lo]; rfl)
  rw [State.get_set _ _ _ word, hi, lo]
  exact Nat.mod_eq_of_lt small

theorem State.computed_writes (u : State) (l c : Nat) {dest : Option Fld} (hd : ∀ y ∈ dest, aluDest l c y) (r : AluResult) :
    Writes (dest.toList ++ [SQ_CTX_FLAGS_CNZ l c]) u (u.computed l c dest r) := by
  refine Writes.trans ?_ (.set _ _ _ (Fld.inWord_of _ rfl) (by simp))
  cases dest with
  | none => exact .refl ..
  | some y =>
    obtain ⟨hi, lo, _⟩ := hd y rfl
    exact .set _ _ _ (Fld.inWord_of _ (by rw [hi, lo]; rfl)) (by simp)

theorem State.get_computed_cnz (u : State) (l c : Nat) (dest : Option Fld) {x : Nat} (small : x < 2 ^ 24) (carry : Bool) :
    (u.computed l c dest ⟨x, carry⟩).get (SQ_CTX_FLAGS_CNZ l c) = cnzOf x carry := by
  unfold State.computed
  rw [AluResult.cnz_eq carry small, State.get_set _ _ _ (Fld.inWord_of _ rfl)]
  exact Nat.mod_eq_of_lt (cnzOf_lt x carry)

theorem State.get_computed_dest (u : State) (l c : Nat) {y : Fld} (hy : aluDest l c y) {x : Nat} (small : x < 2 ^ 24) (carry : Bool) :
    (u.computed l c (some y) ⟨x, carry⟩).get y = x :=
  (State.get_set_apart _ _ _ _ (Fld.inWord_of _ rfl) hy.apart_cnz).trans (hy.get_set u small)

/-- R303: the final fields of an ALU instruction. -/
theorem State.finalFields_alu (u : State) (l c : Nat) {m : Micro} (i : Native) (test : Bool) (vc : Nat) (w : Time) (stack : m.stkop = 0)
    (clr : m.clrt = false) (pc : m.pcop = 1) : u.finalFields l c m i test true vc w =
      ((u.aluUnit l c m i vc w).set (SQ_CTX_STAT_PC l c) (pcNext (u.ctxPc l c)), u.ctxPc l c == 16383) := by
  unfold State.finalFields
  rw [stack, clr, pc]
  rfl

theorem SameContexts.q {s u : State} {l c : Nat} (h : SameContexts l s u) (k : Nat) : u.ctxQ l c k = s.ctxQ l c k :=
  h _ (0xB428 + 0x60 * c + 4 * (k % 8)) (by simp only [SQ_CTX_Q_Q, SQ_CTX_Q]; omega) (by omega)

theorem State.ctxQ_lt (s : State) (l c k : Nat) : s.ctxQ l c k < 2 ^ 24 := State.get_lt s _

/-- A result and its flags stand in the context. -/
structure Result (t : State) (l c : Nat) (dest : Option Fld) (x : Nat) (carry : Bool) : Prop where
  stored : ∀ y ∈ dest, t.get y = x
  flags : t.get (SQ_CTX_FLAGS_CNZ l c) = cnzOf x carry

section
variable {s : State} {e : EngineIx} {c : Fin 32} {i : Native} (h : s.Stands e c i)
include h

theorem State.Stands.alu_runs {op : Nat} {m : Micro} (code : opOf i = op) (routine : Routine op m) (noSet : m.ctxop = 0)
    (noReq : m.xreq = 0) (noForce : m.vforce = 0) (noStack : m.stkop = 0) (noClr : m.clrt = false) (advance : m.pcop = 1)
    (noClamp : m.clampev = false) {p : Native → Bool} (kind : p i = true) (n : Nat) {dest : Option Fld} (hd : ∀ y ∈ dest, aluDest e c y)
    {x : Nat} (small : x < 2 ^ 24) {carry : Bool}
    (unit : ∀ u vc, SameContexts e s u → u.aluUnit e c m i vc (s.slotTime e) = u.computed e c dest ⟨x, carry⟩) :
    RunsTo (done s (s.runRow e (n + 1) p)) fun t =>
      Advances s t e c i (dest.toList ++ [SQ_CTX_FLAGS_CNZ e c]) ∧ Result t e c dest x carry := by
  have bodies : ∀ y ∈ dest.toList ++ [SQ_CTX_FLAGS_CNZ e c], bodyField e c y := fun y hy => by
    rcases List.mem_append.1 hy with hy | hy
    · exact (hd y (Option.mem_toList.1 hy)).bodyField
    · rw [List.mem_singleton.1 hy]
      exact bodyField_cnz e c
  have run := h.body_runs code routine noSet noReq noForce kind n (pc := pcNext (s.ctxPc e c)) (kf := s.ctxPc e c == 16383)
    (w := dest.toList ++ [SQ_CTX_FLAGS_CNZ e c])
    (Q := fun v => ∃ u : State, v = (u.computed e c dest ⟨x, carry⟩).set (SQ_CTX_STAT_PC e c) (pcNext (s.ctxPc e c))) fun u vc same _ => by
      refine ⟨(u.computed e c dest ⟨x, carry⟩).set (SQ_CTX_STAT_PC e c) (pcNext (s.ctxPc e c)), ?_,
        .of_stack (u.computed_writes e c hd ⟨x, carry⟩) bodies (pcNext_lt _), u, rfl⟩
      rw [u.finalFields_alu e c i _ vc _ noStack noClr advance, unit u vc same, State.ctxPc_of_contexts same]
  refine run.mono fun t ⟨executes, v, ⟨u, eq⟩, reads⟩ => ⟨?_, ?_⟩
  · unfold Advances
    rw [noClamp] at executes
    rw [Bool.or_false]
    exact executes
  · subst eq
    refine ⟨fun y hy => ?_, ?_⟩
    · obtain ⟨hi, lo, a, hya, low, high⟩ := id (hd y hy)
      rw [reads y (0x60 * c + a) (hya.trans (Nat.add_assoc ..)) (by omega) (by omega), State.get_set_apart _ _ _ _ (Fld.inWord_of _ rfl), hy]
      · exact u.get_computed_dest e c (hd y hy) small carry
      · refine .inl ?_
        rw [hya]
        simp only [SQ_CTX_STAT_PC, SQ_CTX_STAT]
        omega
    · rw [reads _ (0xB408 + 0x60 * c) (by simp only [SQ_CTX_FLAGS_CNZ, SQ_CTX_FLAGS]; omega) (by omega) (by omega),
        State.get_set_apart _ (SQ_CTX_STAT_PC e c) (SQ_CTX_FLAGS_CNZ e c) _ (Fld.inWord_of _ rfl)
          (.inl (by simp only [SQ_CTX_STAT_PC, SQ_CTX_STAT, SQ_CTX_FLAGS_CNZ, SQ_CTX_FLAGS]; omega)), u.get_computed_cnz _ _ _ small]

theorem ldq_runs (code : opOf i = 0x20) : RunsTo (exec (.ldq e) s) fun t =>
    Advances s t e c i [SQ_CTX_Q_Q e c (cOf i % 8), SQ_CTX_FLAGS_CNZ e c] ∧ Result t e c (some (SQ_CTX_Q_Q e c (cOf i % 8))) (bOf i) false := by
  have small : bOf i < 2 ^ 24 := Nat.mod_lt _ (by decide)
  refine h.alu_runs code routine_ldq rfl rfl rfl rfl rfl rfl rfl (p := fun i => opOf i == 0x20) (beq_iff_eq.2 code) 2047
    (dest := some (SQ_CTX_Q_Q e c (cOf i % 8))) (fun y hy => (Option.mem_some.1 hy) ▸ aluDest_q ..) small fun u vc same => ?_
  have result : alu 1 (u.ctxQ e c (cOf i)) (bOf i) = ⟨bOf i, false⟩ := congrArg (AluResult.mk · false) (Nat.mod_eq_of_lt small)
  exact congrArg (u.computed e c (some (SQ_CTX_Q_Q e c (cOf i % 8)))) result

/-- R284: the second operand of ADDQ and CMPQ. -/
def State.operand (s : State) (l c : Nat) (i : Native) : Nat := if modOf i % 2 = 0 then bOf i else s.ctxQ l c (cOf i / 16)

omit h in
theorem SameContexts.operand {u : State} (same : SameContexts e s u) : u.operand e c i = s.operand e c i := by
  unfold State.operand
  rw [same.q]

theorem addq_runs (code : opOf i = 0x21) : RunsTo (exec (.addq e) s) fun t =>
    Advances s t e c i [SQ_CTX_Q_Q e c (cOf i % 8), SQ_CTX_FLAGS_CNZ e c] ∧
    Result t e c (some (SQ_CTX_Q_Q e c (cOf i % 8))) ((s.ctxQ e c (cOf i) + s.operand e c i) % 2 ^ 24)
      (decide (2 ^ 24 ≤ s.ctxQ e c (cOf i) + s.operand e c i)) := by
  refine h.alu_runs code routine_addq rfl rfl rfl rfl rfl rfl rfl (p := fun i => opOf i == 0x21) (beq_iff_eq.2 code) 2047
    (dest := some (SQ_CTX_Q_Q e c (cOf i % 8))) (fun y hy => (Option.mem_some.1 hy) ▸ aluDest_q ..) (Nat.mod_lt _ (by decide)) fun u vc same => ?_
  have result : alu 2 (u.ctxQ e c (cOf i)) (u.operand e c i) = alu 2 (s.ctxQ e c (cOf i)) (s.operand e c i) := by
    rw [same.q, same.operand]
  exact congrArg (u.computed e c (some (SQ_CTX_Q_Q e c (cOf i % 8)))) result

theorem cmpq_runs (code : opOf i = 0x22) : RunsTo (exec (.cmpq e) s) fun t =>
    Advances s t e c i [SQ_CTX_FLAGS_CNZ e c] ∧
    Result t e c none ((s.ctxQ e c (cOf i) + 2 ^ 24 - s.operand e c i) % 2 ^ 24) (decide (s.ctxQ e c (cOf i) < s.operand e c i)) := by
  refine h.alu_runs code routine_cmpq rfl rfl rfl rfl rfl rfl rfl (p := fun i => opOf i == 0x22) (beq_iff_eq.2 code) 2047
    (dest := none) (fun _ hy => nomatch hy) (Nat.mod_lt _ (by decide)) fun u vc same => ?_
  have result : alu 3 (u.ctxQ e c (cOf i)) (u.operand e c i) = alu 3 (s.ctxQ e c (cOf i)) (s.operand e c i) := by
    rw [same.q, same.operand]
  exact congrArg (u.computed e c none) result

/-- R287: where MOVQ puts its result. -/
def moveDest (l c d : Nat) : Option Fld :=
  if d < 8 then some (SQ_CTX_Q_Q l c d) else if d < 12 then some (SQ_CTX_L_L l c (d - 8)) else none

omit h in
theorem State.store_moveDest (u : State) (l c d x : Nat) : ((moveDest l c d).map fun y => u.set y x).getD u =
    if d < 8 then u.set (SQ_CTX_Q_Q l c d) x else if d < 12 then u.set (SQ_CTX_L_L l c (d - 8)) x else u := by
  unfold moveDest
  split
  · rfl
  · split <;> rfl

omit h in
theorem State.moved (u : State) (l c vc : Nat) (i : Native) (w : Time) :
    u.aluUnit l c { plainMicro with aluf := 4, asel := 1, dsel := 2, flagw := true } i vc w =
      u.computed l c (moveDest l c (cOf i % 16)) (alu 4 (u.moveSource l c (cOf i / 16) vc w) (bOf i)) :=
  congrArg (fun v : State => v.set (SQ_CTX_FLAGS_CNZ l c) (alu 4 (u.moveSource l c (cOf i / 16) vc w) (bOf i)).cnz)
    (u.store_moveDest l c (cOf i % 16) _).symm

theorem movq_runs (code : opOf i = 0x23) {dest : Option Fld} (goes : moveDest e c (cOf i % 16) = dest) (hd : ∀ y ∈ dest, aluDest e c y) {x : Nat}
    (small : x < 2 ^ 24) (source : ∀ u vc, SameContexts e s u → u.moveSource e c (cOf i / 16) vc (s.slotTime e) = x) :
    RunsTo (exec (.movq e) s) fun t => Advances s t e c i (dest.toList ++ [SQ_CTX_FLAGS_CNZ e c]) ∧ Result t e c dest x false := by
  refine h.alu_runs code routine_movq rfl rfl rfl rfl rfl rfl rfl (p := fun i => opOf i == 0x23) (beq_iff_eq.2 code) 2047
    hd small fun u vc same => ?_
  rw [u.moved, goes, source u vc same]
  exact congrArg (u.computed e c dest) (congrArg (AluResult.mk · false) (Nat.mod_eq_of_lt small))

theorem movq_q_runs (k d : Fin 8) (code : opOf i = 0x23) (hc : cOf i = 16 * k.val + d.val) : RunsTo (exec (.movq e) s) fun t =>
    Advances s t e c i [SQ_CTX_Q_Q e c d, SQ_CTX_FLAGS_CNZ e c] ∧
    Result t e c (some (SQ_CTX_Q_Q e c d)) (s.get (SQ_CTX_Q_Q e c k)) false := by
  have from_ : cOf i / 16 = k := by omega
  have into : cOf i % 16 = d := by omega
  have qk : s.ctxQ e c k = s.get (SQ_CTX_Q_Q e c k) := by
    unfold State.ctxQ
    rw [Nat.mod_eq_of_lt k.isLt]
  have dest : aluDest e c (SQ_CTX_Q_Q e c d) := by
    rw [← Nat.mod_eq_of_lt d.isLt]
    exact aluDest_q e c d
  refine movq_runs h code (dest := some (SQ_CTX_Q_Q e c d)) (by rw [into]; exact if_pos d.isLt) (fun y hy => (Option.mem_some.1 hy) ▸ dest)
    (State.get_lt s _) fun u vc same => ?_
  rw [from_, ← qk, ← same.q]
  exact if_pos k.isLt

theorem movq_l_runs (k d : Fin 4) (code : opOf i = 0x23) (hc : cOf i = 16 * (8 + k.val) + (8 + d.val)) : RunsTo (exec (.movq e) s) fun t =>
    Advances s t e c i [SQ_CTX_L_L e c d, SQ_CTX_FLAGS_CNZ e c] ∧
    Result t e c (some (SQ_CTX_L_L e c d)) (s.get (SQ_CTX_L_L e c k)) false := by
  have from_ : cOf i / 16 = 8 + k := by omega
  have into : cOf i % 16 = 8 + d := by omega
  refine movq_runs h code (dest := some (SQ_CTX_L_L e c d)) ?_ (fun y hy => (Option.mem_some.1 hy) ▸ aluDest_l e c d)
    (State.get_lt s _) fun u vc same => ?_
  · rw [into]
    refine (if_neg (by omega)).trans ((if_pos (by omega)).trans ?_)
    rw [Nat.add_sub_cancel_left]
  · rw [from_, ← same.stack (stackReg_count e c k.isLt)]
    refine (if_neg (by omega)).trans ((if_pos (by omega)).trans ?_)
    rw [Nat.add_sub_cancel_left]

theorem movq_time_runs (code : opOf i = 0x23) (hc : cOf i = 0xDF) : RunsTo (exec (.movq e) s) fun t =>
    Advances s t e c i [SQ_CTX_FLAGS_CNZ e c] ∧ Result t e c none ((s.slotTime e).toNat % 2 ^ 24) false := by
  refine movq_runs h code (dest := none) (by rw [hc]; rfl) (fun _ hy => nomatch hy) (Nat.mod_lt _ (by decide)) fun u vc same => ?_
  rw [hc]
  rfl

end

/-- Settles O27: each instruction issues its vector and leaves the result of the ALU with its flags. -/
theorem queselArithmetic : Obligations.QueselArithmetic := by
  unfold Obligations.QueselArithmetic
  intro s e c i h
  refine ⟨fun code => ?_, fun code => ?_, fun code => ?_, fun k d code hc => ?_, fun k d code hc => ?_, fun code hc => ?_⟩
  · exact (ldq_runs h code).mono fun t ⟨advances, result⟩ => ⟨advances, result.stored _ rfl, result.flags⟩
  · exact (addq_runs h code).mono fun t ⟨advances, result⟩ => ⟨advances, result.stored _ rfl, result.flags⟩
  · exact (cmpq_runs h code).mono fun t ⟨advances, result⟩ => ⟨advances, result.flags⟩
  · exact (movq_q_runs h k d code hc).mono fun t ⟨advances, result⟩ => ⟨advances, result.stored _ rfl, result.flags⟩
  · exact (movq_l_runs h k d code hc).mono fun t ⟨advances, result⟩ => ⟨advances, result.stored _ rfl, result.flags⟩
  · exact (movq_time_runs h code hc).mono fun t ⟨advances, result⟩ => ⟨advances, result.flags⟩

end Sys2Proof.Machine
end

section
/-! Quesel instructions that act with their vector (R261, R282, R283, R288 to R297). -/

namespace Sys2Proof.Machine

/-! ### Requests and the end of a turn (R282, R283, R288 to R297) -/

/-- A routine that advances the PC and computes nothing. -/
structure Micro.Advancing (m : Micro) : Prop where
  alu : m.aluf = 0
  stack : m.stkop = 0
  clr : m.clrt = false
  pc : m.pcop = 1
  clamp : m.clampev = false

theorem SameContexts.requestOf {s u : State} {l c : Nat} (h : SameContexts l s u) (r : Nat) (i : Native) :
    u.requestOf l c r i = s.requestOf l c r i := by
  unfold State.requestOf
  simp only [h.q]

theorem SameContexts.entering (s : State) (l : Nat) (m : Micro) : SameContexts l s (s.entering l m) := fun _ _ _ _ => State.get_setEngine ..

theorem State.finalFields_advancing (u : State) (l c : Nat) {m : Micro} (adv : m.Advancing) (i : Native) (test : Bool) (vc : Nat) (w : Time) :
    u.finalFields l c m i test true vc w = (u.set (SQ_CTX_STAT_PC l c) (pcNext (u.ctxPc l c)), u.ctxPc l c == 16383) := by
  have same : u.aluUnit l c m i vc w = u := if_pos adv.alu
  rw [u.finalFields_alu l c i test vc w adv.stack adv.clr adv.pc, same]

section
variable {s : State} {l c : Nat} {i : Native} (h : s.Stands l c i)
include h

/-- A routine that only advances, whose vector has issued. -/
theorem State.Stands.advance_ends {k : Nat} (at_ : (DispEntry.make (vendorDispatch.getD (opOf i) 0)).maddr = k) (hk : k < 64)
    (plain : (vendorMicro k).Plain) (adv : (vendorMicro k).Advancing) {turn : Option TurnEnd} (turns : turnOf (vendorMicro k) i = turn)
    (stays : ∀ d, turn ≠ some (.swc d)) {p : Native → Bool} (kind : p i = true) (n : Nat) {v0 : State} {k0 : Bool} {w : List Fld}
    {xr : Option XReq} {word : Nat → Native} {q : List Native}
    (settings : (s.entering l (vendorMicro k)).settings l c (vendorMicro k) i = (v0, k0))
    (away : ∀ y ∈ w, y.apart (SQ_CTX_STAT_PC l c)) (off : ∀ y ∈ w, offClamp l y)
    (sent : Sent s (v0.vectored l c (vendorMicro k) ((s.engine l).exec (s.slotTime l)) (k0 || decide (0xFFFF < aOf i) || (vendorMicro k).clampev))
      l c word xr turn q w) {P : State → Prop}
    (read : P (v0.vectored l c (vendorMicro k) ((s.engine l).exec (s.slotTime l)) (k0 || decide (0xFFFF < aOf i) || (vendorMicro k).clampev))) :
    RunsTo (done s (s.runRow l (n + 1) p)) fun t => (Issues s t l c word xr turn q ∧
        Completes s t l c (pcNext (s.ctxPc l c)) turn (k0 || decide (0xFFFF < aOf i) || s.ctxPc l c == 16383) w) ∧
      ∃ u, P u ∧ ∀ (y : Fld) (a : Nat), y.reg.addr = groupBase l + a → 0xB00C ≤ a → a ≠ 0xB40C + 0x60 * c →
        (SQ_CTX_STAT_PC l c).apart y → t.get y = u.get y := by
  have pcAt : (SQ_CTX_STAT_PC l c).reg.addr = groupBase l + (0xB400 + 0x60 * c) := by
    simp only [SQ_CTX_STAT_PC, SQ_CTX_STAT]
    omega
  have run := h.ends_sent at_ hk plain turns stays kind n settings (List.Subset.refl w) sent read
    (Q := fun v => ∃ u, P u ∧ v = u.set (SQ_CTX_STAT_PC l c) (pcNext (s.ctxPc l c)))
    (w' := []) (pc := pcNext (s.ctxPc l c)) (kf := s.ctxPc l c == 16383) fun u vc sent hP => by
      have place : u.ctxPc l c = s.ctxPc l c := sent.frame.reg _ (sqField_notPba _ pcAt) fun z hz => by
        rcases List.mem_cons.1 hz with rfl | hz
        · refine .inl ?_
          rw [pcAt]
          simp only [SQ_STAT_ENG, SQ_STAT]
          omega
        · exact away z hz
      rw [u.finalFields_advancing l c adv, place]
      refine ⟨_, rfl, ⟨.set _ _ _ (Fld.inWord_of _ rfl) List.mem_cons_self, ?_, List.nil_subset _, (fun _ hy => nomatch hy), off⟩, u, hP, rfl⟩
      exact (State.get_set _ _ _ (Fld.inWord_of _ rfl)).trans (Nat.mod_eq_of_lt (pcNext_lt _))
  rw [adv.clamp, Bool.or_false] at run
  refine run.mono fun t ⟨done, v, ⟨u, hP, eq⟩, reads⟩ => ⟨done, u, hP, fun y a hy lo res apart => ?_⟩
  rw [reads y a hy lo res, eq, State.get_set_apart _ _ _ _ (Fld.inWord_of _ rfl) apart]

/-- An instruction that carries its request, or the end of its turn, to the start of its vector. -/
theorem State.Stands.action_runs {op : Nat} {m : Micro} (code : opOf i = op) (routine : Routine op m) (adv : m.Advancing)
    (noSet : ∀ u, State.settings u l c m i = (u, false)) {turn : Option TurnEnd} (turns : turnOf m i = turn) (stays : ∀ d, turn ≠ some (.swc d))
    (keeps : (m.xreq == 6 && modOf i % 2 == 1) = false) {p : Native → Bool} (kind : p i = true) (n : Nat) :
    RunsTo (done s (s.runRow l (n + 1) p)) fun t =>
      Advances s t l c i [] (x := s.requestOf l c m.xreq i) (turn := turn) (force := forced m i) := by
  obtain ⟨entry, ldm, micro, plain⟩ := routine
  subst code
  subst micro
  obtain ⟨instr, _, _, _, va⟩ := h.entered
  have sent := (h.sends (s.entering_begins h.engine (vendorMicro (DispEntry.make (vendorDispatch.getD (opOf i) 0)).maddr)) (w := [])
    (fun _ hy => nomatch hy) (State.setEngine_raised ..) plain
    (x := (s.engine l).exec (s.slotTime l)) instr (va ldm) keeps
    (false || decide (0xFFFF < aOf i) || (vendorMicro (DispEntry.make (vendorDispatch.getD (opOf i) 0)).maddr).clampev)).1
  rw [SameContexts.requestOf (SameContexts.entering s l _), turns] at sent
  have run := h.advance_ends rfl entry plain adv turns stays kind n (noSet _) (w := []) (fun _ hy => nomatch hy) (fun _ hy => nomatch hy) sent
    (P := fun _ => True) trivial
  refine run.mono fun t ⟨⟨issues, completes⟩, _⟩ => ?_
  unfold Advances
  rw [Bool.false_or] at completes
  rw [Bool.or_false]
  exact ⟨issues, completes⟩

/-- R282, R283: an instruction that sets a field of its context's settings from its vector on. -/
theorem State.Stands.setting_runs {op : Nat} {m : Micro} (code : opOf i = op) (routine : Routine op m) (adv : m.Advancing) {x : Fld}
    {v : Nat} {k : Bool} (sets : ∀ u, State.settings u l c m i = (u.set x v, k)) (hx : x.reg = SQ_CTX_CFG l c) (word : x.inWord)
    (fits : v < 2 ^ (x.hi + 1 - x.lo)) (noReq : m.xreq = 0) (noTurn : turnOf m i = none) (noForce : m.vforce = 0) {p : Native → Bool}
    (kind : p i = true) (n : Nat) :
    RunsTo (done s (s.runRow l (n + 1) p)) fun t => Advances s t l c i [x] (clamp := k) ∧ t.get x = v := by
  obtain ⟨entry, ldm, micro, plain⟩ := routine
  subst code
  subst micro
  obtain ⟨instr, _, _, _, va⟩ := h.entered
  have at_ : x.reg.addr = groupBase l + (0xB404 + 0x60 * c) := by
    rw [hx]
    simp only [SQ_CTX_CFG]
    omega
  have apart : (SQ_CTX_STAT_PC l c).apart x := .inl (by
    rw [at_]
    simp only [SQ_CTX_STAT_PC, SQ_CTX_STAT]
    omega)
  have sets := sets (s.entering l (vendorMicro (DispEntry.make (vendorDispatch.getD (opOf i) 0)).maddr))
  have cfg : ∀ y ∈ [x], y.reg = SQ_CTX_CFG l c := fun y hy => (List.mem_singleton.1 hy) ▸ hx
  have begins := (s.entering_begins h.engine (vendorMicro (DispEntry.make (vendorDispatch.getD (opOf i) 0)).maddr)).writes
    (.set (w := [x]) _ x v word List.mem_cons_self)
  obtain ⟨sent, frame⟩ := h.sends begins cfg ((State.set_raised ..).trans (State.setEngine_raised ..)) plain
    (x := (s.engine l).exec (s.slotTime l)) instr (va ldm) (by rw [noReq]; rfl)
    (k || decide (0xFFFF < aOf i) || (vendorMicro (DispEntry.make (vendorDispatch.getD (opOf i) 0)).maddr).clampev)
  rw [noReq, State.requestOf_of_none, noTurn, forced_of_none noForce] at sent
  have run := h.advance_ends rfl entry plain adv noTurn (fun _ => nofun) kind n sets
    (fun y hy => (List.mem_singleton.1 hy) ▸ Fld.apart_symm apart) (fun y hy a ha => by
      rw [List.mem_singleton.1 hy, at_]
      simp only [List.mem_cons, List.not_mem_nil, or_false] at ha
      omega) sent (P := fun u => u.get x = v) (by
      rw [frame.reg x (sqField_notPba _ at_) fun z hz => .inl (by
        rw [List.mem_singleton.1 hz, at_]
        simp only [SQ_STAT_ENG, SQ_STAT]
        omega), State.get_set _ _ _ word]
      exact Nat.mod_eq_of_lt fits)
  refine run.mono fun t ⟨⟨issues, completes⟩, u, is, reads⟩ => ⟨?_, (reads x _ at_ (by omega) (by omega) apart).trans is⟩
  unfold Advances
  rw [Bool.or_comm k, Bool.or_assoc, Bool.or_comm k] at completes
  exact ⟨issues, completes⟩

end

theorem routine_setts : Routine 0x28 { plainMicro with ctxop := 4 } := ⟨by decide, by decide, by decide, Micro.plain_of rfl⟩
theorem routine_setls : Routine 0x29 { plainMicro with ctxop := 5 } := ⟨by decide, by decide, by decide, Micro.plain_of rfl⟩
theorem routine_sumb : Routine 0x32 { plainMicro with vforce := 1 } := ⟨by decide, by decide, by decide, Micro.plain_of rfl⟩
theorem routine_yield : Routine 0x19 { plainMicro with ctxop := 1 } := ⟨by decide, by decide, by decide, Micro.plain_of rfl⟩
theorem routine_halt : Routine 0x1A { plainMicro with ctxop := 2 } := ⟨by decide, by decide, by decide, Micro.plain_of rfl⟩
theorem routine_wpc : Routine 0x2A { plainMicro with xreq := 1 } := ⟨by decide, by decide, by decide, Micro.plain_of rfl⟩
theorem routine_meas : Routine 0x30 { plainMicro with xreq := 2 } := ⟨by decide, by decide, by decide, Micro.plain_of rfl⟩
theorem routine_freq : Routine 0x31 { plainMicro with xreq := 3 } := ⟨by decide, by decide, by decide, Micro.plain_of rfl⟩
theorem routine_snap : Routine 0x33 { plainMicro with xreq := 4 } := ⟨by decide, by decide, by decide, Micro.plain_of rfl⟩
theorem routine_trig : Routine 0x34 { plainMicro with vforce := 3, xreq := 5 } := ⟨by decide, by decide, by decide, Micro.plain_of rfl⟩
theorem routine_msg : Routine 0x35 { plainMicro with xreq := 6 } := ⟨by decide, by decide, by decide, Micro.plain_of rfl⟩
theorem routine_armt : Routine 0x36 { plainMicro with xreq := 7 } := ⟨by decide, by decide, by decide, Micro.plain_of rfl⟩

section
variable {s : State} {e : EngineIx} {c : Fin 32} {i : Native} (h : s.Stands e c i)
include h

theorem setts_runs (code : opOf i = 0x28) : RunsTo (exec (.setts e) s) fun t =>
    Advances s t e c i [SQ_CTX_CFG_TSB e c] (clamp := decide (31 < cOf i)) ∧ t.get (SQ_CTX_CFG_TSB e c) = min (cOf i) 31 :=
  h.setting_runs code routine_setts ⟨rfl, rfl, rfl, rfl, rfl⟩ (fun _ => rfl) rfl (Fld.inWord_of _ rfl)
    (show min (cOf i) 31 < 32 by omega) rfl rfl rfl (p := fun i => opOf i == 0x28) (beq_iff_eq.2 code) 2047

theorem setls_runs (code : opOf i = 0x29) : RunsTo (exec (.setls e) s) fun t =>
    Advances s t e c i [SQ_CTX_CFG_LSEL e c] (clamp := decide (7 < cOf i)) ∧ t.get (SQ_CTX_CFG_LSEL e c) = min (cOf i) 7 :=
  h.setting_runs code routine_setls ⟨rfl, rfl, rfl, rfl, rfl⟩ (fun _ => rfl) rfl (Fld.inWord_of _ rfl)
    (show min (cOf i) 7 < 8 by omega) rfl rfl rfl (p := fun i => opOf i == 0x29) (beq_iff_eq.2 code) 2047

theorem sumb_runs (code : opOf i = 0x32) : RunsTo (exec (.sumb e) s) fun t => Advances s t e c i [] (force := fun w => nset w 70) :=
  h.action_runs code routine_sumb ⟨rfl, rfl, rfl, rfl, rfl⟩ (fun _ => rfl) rfl (fun _ => nofun) rfl
    (p := fun i => opOf i == 0x32) (beq_iff_eq.2 code) 2047

theorem yield_runs (code : opOf i = 0x19) : RunsTo (exec (.yield e) s) fun t => Advances s t e c i [] (turn := some .yield) :=
  h.action_runs code routine_yield ⟨rfl, rfl, rfl, rfl, rfl⟩ (fun _ => rfl) rfl (fun _ => nofun) rfl
    (p := fun i => opOf i == 0x19) (beq_iff_eq.2 code) 2047

theorem halt_runs (code : opOf i = 0x1A) : RunsTo (exec (.halt e) s) fun t => Advances s t e c i [] (turn := some .halt) :=
  h.action_runs code routine_halt ⟨rfl, rfl, rfl, rfl, rfl⟩ (fun _ => rfl) rfl (fun _ => nofun) rfl
    (p := fun i => opOf i == 0x1A) (beq_iff_eq.2 code) 2047

/-- An instruction of the routine that only requests `r` (R288 to R297). -/
theorem State.Stands.request_runs {op r : Nat} (code : opOf i = op) (routine : Routine op { plainMicro with xreq := r })
    (keeps : (r == 6 && modOf i % 2 == 1) = false) {p : Native → Bool} (kind : p i = true) :
    RunsTo (done s (s.runRow e 2048 p)) fun t => Advances s t e c i [] (x := s.requestOf e c r i) :=
  h.action_runs code routine ⟨rfl, rfl, rfl, rfl, rfl⟩ (fun _ => rfl) rfl (fun _ => nofun) keeps kind 2047


omit h in
theorem State.recvMsg_empty (v : State) (l c : Nat) (i : Native) (none_ : (v.engine l).msgs = []) : v.recvMsg l c i = v := by
  unfold State.recvMsg
  rw [none_]

/-- R295: the head of the message queue leaves for the three registers of MSG RECV. -/
def State.received (v : State) (l c : Nat) (i : Native) (w : Native) (rest : List Native) : State :=
  ((((v.setEngine l { v.engine l with msgs := rest }).set (SQ_MSGSTAT_DEPTH l) rest.length).set (SQ_CTX_Q_Q l c ((cOf i + 0) % 8))
    (nbits w 23 0)).set (SQ_CTX_Q_Q l c ((cOf i + 1) % 8)) (nbits w 47 24)).set (SQ_CTX_Q_Q l c ((cOf i + 2) % 8)) (nbits w 71 48)

omit h in
theorem State.recvMsg_cons (v : State) (l c : Nat) (i : Native) {w : Native} {rest : List Native} (msgs : (v.engine l).msgs = w :: rest) :
    v.recvMsg l c i = v.received l c i w rest := by
  unfold State.recvMsg
  rw [msgs]
  rfl

/-- The fields that MSG RECV writes. -/
def recvFields (l c : Nat) (i : Native) : List Fld :=
  [SQ_CTX_Q_Q l c ((cOf i + 0) % 8), SQ_CTX_Q_Q l c ((cOf i + 1) % 8), SQ_CTX_Q_Q l c ((cOf i + 2) % 8), SQ_MSGSTAT_DEPTH l]

/-- What the registers hold once a message is received. -/
structure Received (u : State) (l c : Nat) (i w : Native) (rest : List Native) : Prop where
  low : u.get (SQ_CTX_Q_Q l c ((cOf i + 0) % 8)) = nbits w 23 0
  mid : u.get (SQ_CTX_Q_Q l c ((cOf i + 1) % 8)) = nbits w 47 24
  high : u.get (SQ_CTX_Q_Q l c ((cOf i + 2) % 8)) = nbits w 71 48
  depth : u.get (SQ_MSGSTAT_DEPTH l) = rest.length

omit h in
theorem q_apart_q (l c : Nat) {j k : Nat} (h : j ≠ k) : (SQ_CTX_Q_Q l c j).apart (SQ_CTX_Q_Q l c k) := .inl (by
  simp only [SQ_CTX_Q_Q, SQ_CTX_Q]
  omega)

omit h in
theorem q_apart_depth (l c k : Nat) : (SQ_CTX_Q_Q l c k).apart (SQ_MSGSTAT_DEPTH l) := .inl (by
  simp only [SQ_CTX_Q_Q, SQ_CTX_Q, SQ_MSGSTAT_DEPTH, SQ_MSGSTAT]
  omega)

omit h in
theorem State.get_set_q (u : State) (l c k : Nat) {v : Nat} (small : v < 2 ^ 24) : (u.set (SQ_CTX_Q_Q l c k) v).get (SQ_CTX_Q_Q l c k) = v :=
  (State.get_set _ _ _ (Fld.inWord_of _ rfl)).trans (Nat.mod_eq_of_lt small)

omit h in
theorem State.received_holds (v : State) (l c : Nat) (i w : Native) {rest : List Native} (room : rest.length < 32) :
    Received (v.received l c i w rest) l c i w rest := by
  have word : ∀ k, (SQ_CTX_Q_Q l c k).inWord := fun _ => Fld.inWord_of _ rfl
  have small : ∀ hi lo, hi + 1 - lo = 24 → nbits w hi lo < 2 ^ 24 := fun hi lo wide => by
    rw [← wide]
    exact Nat.mod_lt _ (Nat.two_pow_pos _)
  unfold State.received
  refine ⟨?_, ?_, ?_, ?_⟩
  · rw [State.get_set_apart _ _ _ _ (word _) (q_apart_q l c (by omega)), State.get_set_apart _ _ _ _ (word _) (q_apart_q l c (by omega)),
      State.get_set_q _ _ _ _ (small 23 0 rfl)]
  · rw [State.get_set_apart _ _ _ _ (word _) (q_apart_q l c (by omega)), State.get_set_q _ _ _ _ (small 47 24 rfl)]
  · rw [State.get_set_q _ _ _ _ (small 71 48 rfl)]
  · rw [State.get_set_apart _ _ _ _ (word _) (q_apart_depth ..), State.get_set_apart _ _ _ _ (word _) (q_apart_depth ..),
      State.get_set_apart _ _ _ _ (word _) (q_apart_depth ..), State.get_set _ _ _ (Fld.inWord_of _ rfl)]
    exact Nat.mod_eq_of_lt room

omit h in
theorem recvFields_place {l c : Nat} {i : Native} {y : Fld} (hy : y ∈ recvFields l c i) :
    ∃ a, y.reg.addr = groupBase l + a ∧ (0xB428 + 0x60 * c ≤ a ∧ a < 0xB448 + 0x60 * c ∨ a = 0xB0AC) := by
  unfold recvFields at hy
  simp only [List.mem_cons, List.not_mem_nil, or_false] at hy
  obtain rfl | rfl | rfl | rfl := hy
  · exact ⟨0xB428 + 0x60 * c + 4 * ((cOf i + 0) % 8), by simp only [SQ_CTX_Q_Q, SQ_CTX_Q]; omega, by omega⟩
  · exact ⟨0xB428 + 0x60 * c + 4 * ((cOf i + 1) % 8), by simp only [SQ_CTX_Q_Q, SQ_CTX_Q]; omega, by omega⟩
  · exact ⟨0xB428 + 0x60 * c + 4 * ((cOf i + 2) % 8), by simp only [SQ_CTX_Q_Q, SQ_CTX_Q]; omega, by omega⟩
  · exact ⟨0xB0AC, rfl, .inr rfl⟩

omit h in
/-- A vector that has issued, and the message that leaves with its instruction. -/
theorem Sent.received {v : State} {l c : Nat} {word : Nat → Native} {x : Option XReq} {turn : Option TurnEnd} {w : Native} {rest : List Native}
    (sent : Sent s v l c word x turn (w :: rest) []) (hl : l < 32) : Sent s (v.received l c i w rest) l c word x turn rest (recvFields l c i) := by
  have writes : Writes (recvFields l c i) (v.setEngine l { v.engine l with msgs := rest }) (v.received l c i w rest) := by
    unfold State.received
    refine (((Writes.set _ _ _ (Fld.inWord_of _ rfl) ?_).trans (.set _ _ _ (Fld.inWord_of _ rfl) ?_)).trans
      (.set _ _ _ (Fld.inWord_of _ rfl) ?_)).trans (.set _ _ _ (Fld.inWord_of _ rfl) ?_) <;> simp [recvFields]
  obtain ⟨⟨member, other, engines, queues⟩, eng, frame, raised⟩ := sent
  have popped : Issues s (v.setEngine l { v.engine l with msgs := rest }) l c word x turn rest := by
    have groups : ∀ g, (v.setEngine l { v.engine l with msgs := rest }).group g = v.group g := State.group_congr (State.setEngine_groups ..)
    refine ⟨fun g hg => ?_, fun g hg off => ?_, fun m hm ne => ?_, ?_⟩
    · rw [groups, State.get_setEngine, State.get_setEngine]
      exact member g hg
    · rw [groups]
      exact other g hg off
    · rw [State.engine_setEngine_ne _ _ _ _ ne.symm]
      exact engines m hm ne
    · rw [State.engine_setEngine _ _ _ hl]
      exact ⟨rfl, queues.2⟩
  refine ⟨popped.writes writes fun y hy => ?_, ?_, ?_, ?_⟩
  · obtain ⟨a, hy, range⟩ := recvFields_place hy
    rw [hy]
    simp only [SQ_CTX_CFG]
    omega
  · rw [writes.frame.reg _ (sqField_notPba (g := l) 0xB030 rfl) fun z hz => ?_, State.get_setEngine, eng]
    obtain ⟨a, hz, range⟩ := recvFields_place hz
    refine .inl ?_
    rw [hz]
    simp only [SQ_STAT_ENG, SQ_STAT]
    omega
  · exact ((frame.mono (fun _ => id) fun y hy => by
      rw [List.mem_singleton.1 hy]
      exact List.mem_cons_self).trans (.setEngine _ _ _ _ _ (by simp))).trans (writes.frame.mono (by simp) fun y hy => List.mem_cons_of_mem _ hy)
  · unfold State.received
    rw [State.set_raised, State.set_raised, State.set_raised, State.set_raised, State.setEngine_raised, raised]

omit h in
theorem State.vectored_recv (u : State) (l : Nat) {m : Micro} (x : Exec) (clamp : Bool) (req : m.xreq = 6) (odd : modOf x.instr % 2 = 1) :
    ∃ y, SameQueues (((u.issueVector l c m x.instr x.va (u.requestOf l c m.xreq x.instr) (turnOf m x.instr)).recvMsg l c x.instr).engine l) y ∧
      u.vectored l c m x clamp =
        ((u.issueVector l c m x.instr x.va (u.requestOf l c m.xreq x.instr) (turnOf m x.instr)).recvMsg l c x.instr).setEngine l y := by
  unfold State.vectored
  extract_lets v v'
  have took : v' = v.recvMsg l c x.instr := if_pos (by rw [req, odd]; rfl)
  clear_value v'
  subst took
  refine ⟨_, ?_, rfl⟩
  exact ⟨rfl, rfl, rfl, rfl, rfl⟩

/-- R295: the microword of MSG RECV issues its vector, and takes a message then. -/
theorem State.Stands.recv_vectored {m : Micro} (plain : m.Plain) (req : m.xreq = 6) (noTurn : turnOf m i = none) (noForce : m.vforce = 0)
    (odd : modOf i % 2 = 1) (x : Exec) (hi : x.instr = i) (va : x.va = clampVaddr (aOf i)) (clamp : Bool) :
    ∃ v, Sent s v e c (s.wordAt i id) none none (s.engine e).msgs [] ∧
      ∃ y, SameQueues ((v.recvMsg e c i).engine e) y ∧ (s.entering e m).vectored e c m x clamp = (v.recvMsg e c i).setEngine e y := by
  have noReq : (s.entering e m).requestOf e c m.xreq i = none := by
    rw [req]
    exact if_neg (by rw [odd]; decide)
  have sent := (h.issued (s.entering_begins h.engine m) (w := []) (fun _ hy => nomatch hy) (State.setEngine_raised ..) plain.vsrc
    (clampVaddr (aOf i)) none none).1
  have took := (s.entering e m).vectored_recv (c := c) e x clamp req (by rw [hi, odd])
  rw [hi, va, noReq, noTurn] at took
  rw [forced_of_none noForce] at sent
  exact ⟨_, sent, took⟩

/-- MSG RECV, with what its microword does to the message queue. -/
theorem State.Stands.recv_runs (code : opOf i = 0x35) (odd : modOf i % 2 = 1) {q : List Native} {w : List Fld}
    (away : ∀ y ∈ w, y.apart (SQ_CTX_STAT_PC e c)) (off : ∀ y ∈ w, offClamp e y) {P : State → Prop}
    (engine : ∀ v y, P v → P (v.setEngine e y))
    (takes : ∀ v, Sent s v e c (s.wordAt i id) none none (s.engine e).msgs [] →
      Sent s (v.recvMsg e c i) e c (s.wordAt i id) none none q w ∧ P (v.recvMsg e c i)) :
    RunsTo (exec (.msgRecv e) s) fun t => (Issues s t e c (s.wordAt i id) none none q ∧
        Completes s t e c (pcNext (s.ctxPc e c)) none (decide (0xFFFF < aOf i) || s.ctxPc e c == 16383) w) ∧
      ∃ u, P u ∧ ∀ (y : Fld) (a : Nat), y.reg.addr = groupBase e + a → 0xB00C ≤ a → a ≠ 0xB40C + 0x60 * c →
        (SQ_CTX_STAT_PC e c).apart y → t.get y = u.get y := by
  obtain ⟨entry, ldm, micro, plain⟩ := routine_msg
  rw [← micro] at plain
  have adv : (vendorMicro (DispEntry.make (vendorDispatch.getD 0x35 0)).maddr).Advancing := by
    rw [micro]
    exact ⟨rfl, rfl, rfl, rfl, rfl⟩
  have at_ : (DispEntry.make (vendorDispatch.getD (opOf i) 0)).maddr = (DispEntry.make (vendorDispatch.getD 0x35 0)).maddr := by rw [code]
  have noTurn : turnOf (vendorMicro (DispEntry.make (vendorDispatch.getD 0x35 0)).maddr) i = none := by
    rw [micro]
    rfl
  obtain ⟨instr, _, _, _, va⟩ := h.entered
  obtain ⟨v, sent, y, queues, eq⟩ := h.recv_vectored plain (by rw [micro]) noTurn (by rw [micro]; rfl) odd
    ((s.engine e).exec (s.slotTime e)) instr (va (by rw [code]; exact ldm))
    (false || decide (0xFFFF < aOf i) || (vendorMicro (DispEntry.make (vendorDispatch.getD 0x35 0)).maddr).clampev)
  obtain ⟨took, hP⟩ := takes v sent
  have set : (s.entering e (vendorMicro (DispEntry.make (vendorDispatch.getD 0x35 0)).maddr)).settings e c
      (vendorMicro (DispEntry.make (vendorDispatch.getD 0x35 0)).maddr) i =
      (s.entering e (vendorMicro (DispEntry.make (vendorDispatch.getD 0x35 0)).maddr), false) :=
    State.settings_of_none _ _ _ (by rw [micro]; rfl) i
  have run := h.advance_ends at_ entry plain adv noTurn (fun _ => nofun) (p := fun i => opOf i == 0x35 && modOf i % 2 == 1)
    (by rw [code, odd]; rfl) 2047 set away off (by rw [eq]; exact took.setEngine h.engine queues) (P := P)
    (by rw [eq]; exact engine _ _ hP)
  rw [Bool.false_or] at run
  exact run

theorem msgRecv_empty_runs (code : opOf i = 0x35) (odd : modOf i % 2 = 1) (none_ : (s.engine e).msgs = []) :
    RunsTo (exec (.msgRecv e) s) fun t => Advances s t e c i [] := by
  refine (h.recv_runs code odd (w := []) (fun _ hy => nomatch hy) (fun _ hy => nomatch hy) (q := (s.engine e).msgs) (P := fun _ => True)
    (fun _ _ => id) fun v sent => ?_).mono fun t ht => ?_
  · rw [v.recvMsg_empty e c i (sent.issues.queues.1.trans none_)]
    exact ⟨sent, trivial⟩
  · unfold Advances
    rw [Bool.or_false]
    exact ht.1

theorem msgRecv_runs (code : opOf i = 0x35) (odd : modOf i % 2 = 1) {w : Native} {rest : List Native} (msgs : (s.engine e).msgs = w :: rest)
    (room : rest.length < 32) : RunsTo (exec (.msgRecv e) s) fun t => (Issues s t e c (s.wordAt i id) none none rest ∧
      Completes s t e c (pcNext (s.ctxPc e c)) none (decide (0xFFFF < aOf i) || s.ctxPc e c == 16383) (recvFields e c i)) ∧
      Received t e c i w rest := by
  have apart : ∀ y ∈ recvFields e c i, (SQ_CTX_STAT_PC e c).apart y := fun y hy => .inl (by
    obtain ⟨a, hy, range⟩ := recvFields_place hy
    rw [hy]
    simp only [SQ_CTX_STAT_PC, SQ_CTX_STAT]
    omega)
  refine (h.recv_runs code odd (w := recvFields e c i) (fun y hy => Fld.apart_symm (apart y hy)) (fun y hy a ha => ?_)
    (P := fun u => Received u e c i w rest) (fun v y hv => ?_) fun v sent => ?_).mono fun t ⟨issued, u, got, reads⟩ => ⟨issued, ?_⟩
  · obtain ⟨b, hy, range⟩ := recvFields_place hy
    rw [hy]
    simp only [List.mem_cons, List.not_mem_nil, or_false] at ha
    omega
  · obtain ⟨low, mid, high, depth⟩ := hv
    exact ⟨(State.get_setEngine ..).trans low, (State.get_setEngine ..).trans mid, (State.get_setEngine ..).trans high,
      (State.get_setEngine ..).trans depth⟩
  · rw [v.recvMsg_cons e c i (sent.issues.queues.1.trans msgs)]
    rw [msgs] at sent
    exact ⟨sent.received h.engine, v.received_holds e c i w room⟩
  · have same : ∀ y ∈ recvFields e c i, t.get y = u.get y := fun y hy => by
      obtain ⟨a, at_, range⟩ := recvFields_place hy
      exact reads y a at_ (by omega) (by omega) (apart y hy)
    obtain ⟨low, mid, high, depth⟩ := got
    exact ⟨(same _ (by simp [recvFields])).trans low, (same _ (by simp [recvFields])).trans mid, (same _ (by simp [recvFields])).trans high,
      (same _ (by simp [recvFields])).trans depth⟩

end

/-- Settles O28: each instruction issues its vector and advances; its settings act from that vector on, and its request goes with it. -/
theorem queselActions : Obligations.QueselActions := by
  unfold Obligations.QueselActions
  intro s e c i h
  have kind : ∀ {op n r : Nat}, opOf i = op → modOf i % n = r → (opOf i == op && modOf i % n == r) = true := fun code rest => by
    rw [code, rest, beq_self_eq_true, beq_self_eq_true]
    rfl
  have wpc : ∀ {r : Nat}, r < 4 → opOf i = 0x2A → modOf i % 4 = r → RunsTo (done s (s.rowMod e 0x2A 4 r)) fun t =>
      Advances s t e c i [] (x := some (.wpc r (cOf i % 64))) := fun _ code rest => by
    have run := h.request_runs code routine_wpc rfl (p := fun i => opOf i == 0x2A && modOf i % 4 == _) (kind code rest)
    rw [← rest] at run ⊢
    exact run
  have freq : ∀ {r : Nat}, opOf i = 0x31 → modOf i % 2 = r → RunsTo (done s (s.rowMod e 0x31 2 r)) fun t =>
      Advances s t e c i [] (x := some (.freq (r == 1))) := fun code rest => by
    have run := h.request_runs code routine_freq rfl (p := fun i => opOf i == 0x31 && modOf i % 2 == _) (kind code rest)
    rw [← rest] at run ⊢
    exact run
  refine ⟨setts_runs h, setls_runs h, sumb_runs h, yield_runs h, halt_runs h, wpc (by decide), wpc (by decide), wpc (by decide),
    wpc (by decide), fun code => ?_, freq, freq, fun code => ?_, fun code => ?_, fun code even => ?_, ?_, msgRecv_empty_runs h, fun code => ?_⟩
  · exact h.request_runs code routine_meas rfl (p := fun i => opOf i == 0x30) (beq_iff_eq.2 code)
  · exact h.request_runs code routine_snap rfl (p := fun i => opOf i == 0x33) (beq_iff_eq.2 code)
  · have trig : (cOf i / 16 % 2 == 1) = (cOf i).testBit 4 := by
      rw [Nat.testBit_eq_decide_div_mod_eq]
      rfl
    have run := h.action_runs code routine_trig ⟨rfl, rfl, rfl, rfl, rfl⟩ (fun _ => rfl) rfl (fun _ => nofun) rfl
      (p := fun i => opOf i == 0x34) (beq_iff_eq.2 code) 2047
    rw [← trig]
    exact run
  · have send : s.requestOf e c 6 i = some _ := if_pos even
    have run := h.request_runs code routine_msg (by rw [even]; rfl) (p := fun i => opOf i == 0x35 && modOf i % 2 == 0) (kind code even)
    rw [send] at run
    exact run
  · exact fun w rest code odd msgs room => (msgRecv_runs h code odd msgs room).mono fun t ⟨⟨issues, completes⟩, got⟩ =>
      ⟨issues, completes, got.low, got.mid, got.high, got.depth⟩
  · exact h.request_runs code routine_armt rfl (p := fun i => opOf i == 0x36) (beq_iff_eq.2 code)

end Sys2Proof.Machine
end

section
/-! The slots of VEC, RPT and STREAM (R235, R236, R242, R268 to R270). -/

namespace Sys2Proof.Machine

/-! ### The slots of VEC, RPT and STREAM (R268 to R270) -/

/-- The microword of VEC, RPT and STREAM: it repeats until its count is done. -/
def repeatMicro (vsrc : Nat) (vainc : Bool) : Micro :=
  { plainMicro with nam := 3, tsel := 1, cntdec := true, vsrc := vsrc, vainc := vainc }

/-- A routine that repeats, with its load mode. -/
structure Repeats (op ldm vsrc : Nat) (vainc : Bool) : Prop where
  entry : (DispEntry.make (vendorDispatch.getD op 0)).maddr < 64
  ldm : (DispEntry.make (vendorDispatch.getD op 0)).ldm = ldm
  micro : vendorMicro (DispEntry.make (vendorDispatch.getD op 0)).maddr = repeatMicro vsrc vainc

theorem repeats_vec : Repeats 0x01 2 0 true := ⟨by decide, by decide, by decide⟩
theorem repeats_rpt : Repeats 0x02 1 0 false := ⟨by decide, by decide, by decide⟩
theorem repeats_stream : Repeats 0x03 3 1 false := ⟨by decide, by decide, by decide⟩

/-- One slot that leaves more to come. -/
theorem State.execute_more (s : State) (l c : Nat) {vsrc : Nat} {vainc : Bool} (x : Exec) (held : x.held = false) (runs : x.runs = true)
    (counts : (vsrc == 1 && s.underrun l && s.on (SQ_STRM_EN l)) = false) (more : x.cnt ≠ 1) (room : (vainc && x.va == 0xFFFF) = false) :
    ∃ y, let v := s.issueVector l c (repeatMicro vsrc vainc) x.instr x.va none none
      s.execute l c (repeatMicro vsrc vainc) x = ((v.setEngine l y).set (SQ_CTX_RES_RES l c) (x.cnt - 1), true) ∧
      SameQueues (v.engine l) y ∧ y.va = if vainc then (x.va + 1) % 65536 else x.va := by
  have last : (x.cnt == 1) = false := beq_false_of_ne more
  unfold State.execute State.microTest
  simp only [repeatMicro, plainMicro, held, runs, counts, last, room, Bool.not_false, Bool.not_true, Bool.true_and, Bool.and_true,
    Bool.or_false, Bool.and_false, Bool.false_and, beq_self_eq_true, if_true, if_false, Bool.false_eq_true]
  refine ⟨_, rfl, ?_, rfl⟩
  exact ⟨rfl, rfl, rfl, rfl, rfl⟩

/-- The last slot of VEC or RPT. -/
theorem State.execute_last (s : State) (l c : Nat) {vainc : Bool} (x : Exec) (held : x.held = false) (runs : x.runs = true) (clr : x.clr = true)
    (fresh : x.clampEv = false) (last : (x.cnt == 1 || (vainc && x.va == 0xFFFF)) = true) :
    ∃ y vc, let v := s.issueVector l c (repeatMicro 0 vainc) x.instr x.va none none
      let f := (v.setEngine l y).finalFields l c (repeatMicro 0 vainc) x.instr true true vc x.w
      s.execute l c (repeatMicro 0 vainc) x = (f.1.set (SQ_CTX_RES_RES l c) 0).afterFinal l c (repeatMicro 0 vainc) x true
        (decide (0xFFFF < aOf x.instr) || f.2 || (vainc && x.va == 0xFFFF && decide (1 < x.cnt))) ∧ SameQueues (v.engine l) y := by
  have memory : ((0 : Nat) == 1) = false := rfl
  have noReq : ((0 : Nat) == 6) = false := rfl
  unfold State.execute State.microTest
  simp only [repeatMicro, plainMicro, held, runs, clr, last, fresh, memory, noReq, Bool.not_false, Bool.not_true, Bool.true_and, Bool.and_true,
    Bool.false_or, Bool.or_false, Bool.and_false, Bool.false_and, beq_self_eq_true, if_true, if_false, Bool.false_eq_true]
  refine ⟨_, s.vcnt l + (s.group l).issue.length, rfl, ?_⟩
  exact ⟨rfl, rfl, rfl, rfl, rfl⟩

theorem State.underrun_entering (s : State) {l : Nat} (hl : l < 32) (m : Micro) : (s.entering l m).underrun l = s.underrun l := by
  have refill : ∀ k, ((s.entering l m).engine k).refill = (s.engine k).refill := fun k => by
    have begins := s.entering_begins hl m
    by_cases hk : k = l
    · rw [hk]
      exact begins.queues.2.1
    · rw [begins.engines k hk]
  have gets : ∀ x, (s.entering l m).get x = s.get x := State.get_setEngine _ _ _
  unfold State.underrun State.members State.leader State.on
  simp only [refill, gets]

theorem Issues.settle {s t : State} {l c : Nat} {word : Nat → Native} {x : Option XReq} {turn : Option TurnEnd} {q : List Native}
    (h : Issues s t l c word x turn q) : Issues s (settle s t) l c word x turn q := by
  refine h.keep (settle_groups ..) (fun k _ => engine_settle ..) ?_ ?_ ?_
  · rw [engine_settle]
    exact ⟨rfl, rfl, rfl, rfl, rfl⟩
  · exact get_settle _ _ _ (sqField_notPba (g := l) (0xB404 + 0x60 * c) (by simp only [SQ_CTX_CFG_LSEL, SQ_CTX_CFG]; omega))
  · exact get_settle _ _ _ (sqField_notPba (g := l) (0xB404 + 0x60 * c) (by simp only [SQ_CTX_CFG_TSB, SQ_CTX_CFG]; omega))

theorem resField (l c : Nat) : (SQ_CTX_RES_RES l c).reg.addr = groupBase l + (0xB40C + 0x60 * c) := by
  simp only [SQ_CTX_RES_RES, SQ_CTX_RES]
  omega

theorem Issues.setEngine {s t : State} {l c : Nat} {word : Nat → Native} {x : Option XReq} {turn : Option TurnEnd} {q : List Native}
    (h : Issues s t l c word x turn q) (hl : l < 32) {y : Engine} (same : SameQueues (t.engine l) y) :
    Issues s (t.setEngine l y) l c word x turn q := by
  refine h.keep (State.setEngine_groups ..) (fun k hk => State.engine_setEngine_ne _ _ _ _ hk.symm) ?_ (State.get_setEngine ..)
    (State.get_setEngine ..)
  rw [State.engine_setEngine _ _ _ hl]
  exact same

/-- The slot of an instruction with more to come has issued: RES holds what it still has to issue. -/
theorem Sent.counted {s v : State} {l c : Nat} {word : Nat → Native} {q : List Native} (h : Sent s v l c word none none q []) {cnt va : Nat}
    (small : cnt ≤ 2 ^ 24) (goes : (v.engine l).va = va) :
    let t := settle s (v.set (SQ_CTX_RES_RES l c) (cnt - 1))
    Issues s t l c word none none q ∧ t.ctxPc l c = s.ctxPc l c ∧ t.get (SQ_CTX_RES_RES l c) = cnt - 1 ∧ (t.engine l).va = va ∧
      Frame s t [.groups, .engines] (· ∈ [SQ_CTX_RES_RES l c, SQ_STAT_ENG l]) := by
  have frame : Frame s (settle s (v.set (SQ_CTX_RES_RES l c) (cnt - 1))) [.groups, .engines] (· ∈ [SQ_CTX_RES_RES l c, SQ_STAT_ENG l]) :=
    ((h.frame.mono (fun _ => id) fun y hy => by
      rw [List.mem_singleton.1 hy]
      simp).trans (.set _ _ _ _ _ (Fld.inWord_of _ rfl) (by simp))).trans (Frame.settle ..)
  refine ⟨(h.issues.writes (w := [SQ_CTX_RES_RES l c]) (.set _ _ _ (Fld.inWord_of _ rfl) (by simp)) fun y hy => ?_).settle, ?_, ?_, ?_, frame⟩
  · rw [List.mem_singleton.1 hy, resField]
    simp only [SQ_CTX_CFG]
    omega
  · refine frame.reg _ (sqField_notPba (g := l) (0xB400 + 0x60 * c) (by simp only [SQ_CTX_STAT_PC, SQ_CTX_STAT]; omega)) fun z hz => .inl ?_
    simp only [List.mem_cons, List.not_mem_nil, or_false] at hz
    obtain rfl | rfl := hz
    · rw [resField]
      simp only [SQ_CTX_STAT_PC, SQ_CTX_STAT]
      omega
    · simp only [SQ_CTX_STAT_PC, SQ_CTX_STAT, SQ_STAT_ENG, SQ_STAT]
      omega
  · rw [get_settle _ _ _ (sqField_notPba _ (resField l c)), State.get_set _ _ _ (Fld.inWord_of _ rfl)]
    exact Nat.mod_eq_of_lt (show cnt - 1 < 2 ^ 24 by omega)
  · rw [engine_settle, State.engine_congr (State.set_engines ..), goes]

section
variable {s : State} {l c : Nat} {i : Native} (h : s.Stands l c i)
include h

/-- The row of a repeating microword runs it once. -/
theorem State.Stands.repeat_eq {op ldm vsrc : Nat} {vainc : Bool} (code : opOf i = op) (routine : Repeats op ldm vsrc vainc)
    {p : Native → Bool} (kind : p i = true) : s.runRow l 1 p = (s.micro l).1 ∧
      s.micro l = (s.entering l (repeatMicro vsrc vainc)).execute l c (repeatMicro vsrc vainc) ((s.engine l).exec (s.slotTime l)) := by
  obtain ⟨entry, _, micro⟩ := routine
  obtain ⟨_, _, _, upc, _⟩ := h.entered
  rw [code] at upc
  have issue : (vendorMicro (DispEntry.make (vendorDispatch.getD op 0)).maddr).issue = true := by rw [micro]; rfl
  refine ⟨h.runRow_eq upc entry (by rw [issue, Bool.true_or]) kind (.inl rfl), ?_⟩
  rw [h.micro_eq upc entry (by rw [micro]; rfl) (by rw [micro]; rfl), State.runMicro, s.issueTime l issue, micro]
  rfl

/-- The first vector of the instruction, and where it goes on from RES (R304). -/
theorem State.Stands.starts {op ldm vsrc : Nat} {vainc : Bool} (code : opOf i = op) (routine : Repeats op ldm vsrc vainc) (repeats : ldm ≠ 0) :
    (s.engine l).cnt = (if s.ctxRes l c ≠ 0 then s.ctxRes l c else bOf i + 1) ∧
    (s.engine l).va = (if s.ctxRes l c ≠ 0 ∧ ldm = 2 then clampVaddr (aOf i) + bOf i + 1 - s.ctxRes l c else clampVaddr (aOf i)) := by
  have eq := h.engine_eq
  rw [code] at eq
  have cnt := congrArg Engine.cnt eq
  have va := congrArg Engine.va eq
  dsimp only at cnt va
  rw [routine.ldm] at cnt va
  refine ⟨cnt.trans ((if_neg repeats).trans ?_), va.trans ?_⟩
  · simp [repeats]
  · simp [repeats]

theorem State.Stands.starts_fresh {op ldm vsrc : Nat} {vainc : Bool} (code : opOf i = op) (routine : Repeats op ldm vsrc vainc) (repeats : ldm ≠ 0)
    (res : s.get (SQ_CTX_RES_RES l c) = 0) : (s.engine l).cnt = bOf i + 1 ∧ (s.engine l).va = clampVaddr (aOf i) := by
  obtain ⟨cnt, va⟩ := h.starts code routine repeats
  have none_ : s.ctxRes l c = 0 := res
  exact ⟨cnt.trans (if_neg (not_not.2 none_)), va.trans (if_neg fun both => both.1 none_)⟩

/-- A slot of VEC or RPT that leaves more to come (R268, R269). -/
theorem State.Stands.more_runs {op ldm : Nat} {vainc : Bool} (code : opOf i = op) (routine : Repeats op ldm 0 vainc)
    (more : (s.engine l).cnt ≠ 1) (room : (vainc && (s.engine l).va == 0xFFFF) = false) (small : (s.engine l).cnt ≤ 2 ^ 24)
    {p : Native → Bool} (kind : p i = true) : RunsTo (done s (s.runRow l 1 p)) fun t =>
      Issues s t l c (fun g => s.vStore g (s.engine l).va) none none (s.engine l).msgs ∧ t.ctxPc l c = s.ctxPc l c ∧
      t.get (SQ_CTX_RES_RES l c) = (s.engine l).cnt - 1 ∧
      (t.engine l).va = (if vainc then ((s.engine l).va + 1) % 65536 else (s.engine l).va) ∧
      Frame s t [.groups, .engines] (· ∈ [SQ_CTX_RES_RES l c, SQ_STAT_ENG l]) := by
  obtain ⟨row, micro⟩ := h.repeat_eq code routine kind
  obtain ⟨instr, _⟩ := h.entered
  have xi : ((s.engine l).exec (s.slotTime l)).instr = i := instr
  have slot := (s.entering l (repeatMicro 0 vainc)).execute_more l c (vsrc := 0) (vainc := vainc)
    ((s.engine l).exec (s.slotTime l)) rfl rfl rfl more room
  have sent := (h.issued (s.entering_begins h.engine (repeatMicro 0 vainc)) (w := []) (fun _ hy => nomatch hy) (State.setEngine_raised ..)
    (m := repeatMicro 0 vainc) rfl ((s.engine l).exec (s.slotTime l)).va none none).1
  rw [forced_of_none (by rfl)] at sent
  rw [xi] at slot
  rw [row, micro]
  generalize (s.entering l (repeatMicro 0 vainc)).execute l c (repeatMicro 0 vainc) ((s.engine l).exec (s.slotTime l)) = r at slot
  generalize (s.entering l (repeatMicro 0 vainc)).issueVector l c (repeatMicro 0 vainc) i ((s.engine l).exec (s.slotTime l)).va none none = v
    at slot sent
  obtain ⟨y, run, queues, va⟩ := slot
  rw [run]
  exact runsTo_done _ _ _ ((sent.setEngine h.engine queues).counted small ((congrArg Engine.va (State.engine_setEngine _ _ _ h.engine)).trans va))

/-- The last slot of VEC or RPT. -/
theorem State.Stands.last_runs {op ldm : Nat} {vainc : Bool} (code : opOf i = op) (routine : Repeats op ldm 0 vainc)
    (va : (s.engine l).va = clampVaddr (aOf i)) (last : ((s.engine l).cnt == 1 || (vainc && (s.engine l).va == 0xFFFF)) = true)
    {k : Bool} (early : (vainc && clampVaddr (aOf i) == 0xFFFF && decide (1 < (s.engine l).cnt)) = k)
    {p : Native → Bool} (kind : p i = true) : RunsTo (done s (s.runRow l 1 p)) fun t => Advances s t l c i [] (clamp := k) := by
  obtain ⟨row, micro⟩ := h.repeat_eq code routine kind
  obtain ⟨instr, ipc, fresh, _⟩ := h.entered
  have xi : ((s.engine l).exec (s.slotTime l)).instr = i := instr
  have xva : ((s.engine l).exec (s.slotTime l)).va = clampVaddr (aOf i) := va
  have slot := (s.entering l (repeatMicro 0 vainc)).execute_last l c (vainc := vainc) ((s.engine l).exec (s.slotTime l)) rfl rfl rfl fresh last
  have sent := (h.issued (s.entering_begins h.engine (repeatMicro 0 vainc)) (w := []) (fun _ hy => nomatch hy) (State.setEngine_raised ..)
    (m := repeatMicro 0 vainc) rfl (clampVaddr (aOf i)) none none).1
  rw [forced_of_none (by rfl)] at sent
  rw [xi, xva] at slot
  generalize (s.entering l (repeatMicro 0 vainc)).issueVector l c (repeatMicro 0 vainc) i (clampVaddr (aOf i)) none none = u
    at slot sent
  obtain ⟨y, vc, run, queues⟩ := slot
  have sent := sent.setEngine h.engine queues
  generalize u.setEngine l y = v at run sent
  rw [v.finalFields_advancing l c ⟨rfl, rfl, rfl, rfl, rfl⟩, State.ctxPc_of_contexts sent.contexts] at run
  have early : (vainc && clampVaddr (aOf i) == 0xFFFF && decide (1 < ((s.engine l).exec (s.slotTime l)).cnt)) = k := early
  rw [early] at run
  have run := micro.trans run
  rw [← routine.micro] at run
  refine (h.ends_at (by rw [code]) routine.entry (by rw [routine.micro]; rfl) (.inr ⟨by rw [routine.micro]; rfl, rfl⟩) (turn := none)
    (by rw [routine.micro]; rfl) (fun _ => nofun) kind sent (List.nil_subset _)
    (Finals.of_stack (.refl [] v) (fun _ hy => nomatch hy) (pcNext_lt _)) instr ipc run).mono
      fun t ⟨⟨issues, completes⟩, _⟩ => ⟨issues, ?_⟩
  rw [Bool.or_assoc] at completes
  exact completes

end

section
variable {s : State} {e : EngineIx} {c : Fin 32} {i : Native} (h : s.Stands e c i)
include h

theorem vec_more_runs (code : opOf i = 0x01) (res : s.get (SQ_CTX_RES_RES e c) = 0) (more : 0 < bOf i) (room : aOf i < 0xFFFF) :
    RunsTo (exec (.vec e 1) s) fun t =>
      Issues s t e c (s.wordAt i id) none none (s.engine e).msgs ∧ t.ctxPc e c = s.ctxPc e c ∧
      t.get (SQ_CTX_RES_RES e c) = bOf i ∧ (t.engine e).va = aOf i + 1 ∧
      Frame s t [.groups, .engines] (· ∈ [SQ_CTX_RES_RES e c, SQ_STAT_ENG e]) := by
  obtain ⟨cnt, va⟩ := h.starts_fresh code repeats_vec (by decide) res
  have first : clampVaddr (aOf i) = aOf i := Nat.min_eq_left (by omega)
  have small : bOf i < 2 ^ 24 := Nat.mod_lt _ (by decide)
  have run := h.more_runs code repeats_vec (by omega) (by rw [va, first, Bool.true_and]; exact beq_false_of_ne (by omega)) (by omega)
    (p := fun i => opOf i == 0x01) (beq_iff_eq.2 code)
  rw [cnt, va, Nat.add_sub_cancel, if_pos rfl] at run
  refine run.mono fun t ⟨issues, place, rest, next, frame⟩ => ⟨issues, place, rest, next.trans ?_, frame⟩
  rw [first]
  exact Nat.mod_eq_of_lt (by omega)

theorem vec_one_runs (code : opOf i = 0x01) (res : s.get (SQ_CTX_RES_RES e c) = 0) (one : bOf i = 0) :
    RunsTo (exec (.vec e 1) s) fun t => Advances s t e c i [] := by
  obtain ⟨cnt, va⟩ := h.starts_fresh code repeats_vec (by decide) res
  rw [one] at cnt
  exact h.last_runs code repeats_vec va (by rw [cnt]; rfl) (by rw [cnt]; exact Bool.and_false _) (p := fun i => opOf i == 0x01) (beq_iff_eq.2 code)

/-- VEC ends as a clamp where its next vector would lie after 0xFFFF (R268). -/
theorem vec_full_runs (code : opOf i = 0x01) (res : s.get (SQ_CTX_RES_RES e c) = 0) (more : 0 < bOf i) (full : 0xFFFF ≤ aOf i) :
    RunsTo (exec (.vec e 1) s) fun t => Advances s t e c i [] (clamp := true) := by
  obtain ⟨cnt, va⟩ := h.starts_fresh code repeats_vec (by decide) res
  have top : clampVaddr (aOf i) = 0xFFFF := Nat.min_eq_right full
  refine h.last_runs code repeats_vec va (by rw [va, top]; exact Bool.or_true _) ?_ (p := fun i => opOf i == 0x01) (beq_iff_eq.2 code)
  rw [top, cnt]
  exact decide_eq_true (by omega)

theorem vec_resumed_runs {r : Nat} (code : opOf i = 0x01) (res : s.get (SQ_CTX_RES_RES e c) = r) (more : 1 < r) (le : r ≤ bOf i)
    (room : aOf i + bOf i + 1 - r < 0xFFFF) : RunsTo (exec (.vec e 1) s) fun t =>
      Issues s t e c (fun g => s.vStore g (aOf i + bOf i + 1 - r)) none none (s.engine e).msgs ∧
      t.ctxPc e c = s.ctxPc e c ∧ t.get (SQ_CTX_RES_RES e c) = r - 1 := by
  obtain ⟨cnt, va⟩ := h.starts code repeats_vec (by decide)
  have left : s.ctxRes e c = r := res
  have some_ : r ≠ 0 := by omega
  have first : clampVaddr (aOf i) = aOf i := Nat.min_eq_left (by omega)
  have small : bOf i < 2 ^ 24 := Nat.mod_lt _ (by decide)
  rw [left, if_pos some_] at cnt
  rw [left, if_pos ⟨some_, rfl⟩, first] at va
  have run := h.more_runs code repeats_vec (by omega) (by rw [va, Bool.true_and]; exact beq_false_of_ne (by omega)) (by omega)
    (p := fun i => opOf i == 0x01) (beq_iff_eq.2 code)
  rw [cnt, va] at run
  exact run.mono fun t ⟨issues, place, rest, _⟩ => ⟨issues, place, rest⟩

theorem rpt_more_runs (code : opOf i = 0x02) (res : s.get (SQ_CTX_RES_RES e c) = 0) (more : 0 < bOf i) :
    RunsTo (exec (.rpt e 1) s) fun t =>
      Issues s t e c (s.wordAt i id) none none (s.engine e).msgs ∧ t.ctxPc e c = s.ctxPc e c ∧
      t.get (SQ_CTX_RES_RES e c) = bOf i ∧ (t.engine e).va = (s.engine e).va ∧
      Frame s t [.groups, .engines] (· ∈ [SQ_CTX_RES_RES e c, SQ_STAT_ENG e]) := by
  obtain ⟨cnt, va⟩ := h.starts_fresh code repeats_rpt (by decide) res
  have small : bOf i < 2 ^ 24 := Nat.mod_lt _ (by decide)
  have run := h.more_runs code repeats_rpt (by omega) rfl (by omega) (p := fun i => opOf i == 0x02) (beq_iff_eq.2 code)
  rw [cnt, va, Nat.add_sub_cancel] at run
  refine run.mono fun t ⟨issues, place, rest, next, frame⟩ => ⟨issues, place, rest, next.trans ?_, frame⟩
  rw [va]
  rfl

theorem rpt_last_runs (code : opOf i = 0x02) (res : s.get (SQ_CTX_RES_RES e c) = 1) :
    RunsTo (exec (.rpt e 1) s) fun t => Advances s t e c i [] := by
  obtain ⟨cnt, va⟩ := h.starts code repeats_rpt (by decide)
  have left : s.ctxRes e c = 1 := res
  rw [left] at cnt
  rw [if_neg fun both => absurd both.2 (by decide)] at va
  exact h.last_runs code repeats_rpt va (by rw [cnt]; rfl) rfl (p := fun i => opOf i == 0x02) (beq_iff_eq.2 code)

end

/-! ### Underruns (R235, R236) -/

theorem Writes.of_frame {w : List Fld} {u v : State} (h : Frame u v [] (· ∈ w)) : Writes w u v :=
  ⟨h.part .groups (by simp), h.part .engines (by simp), h⟩

/-- The fields of an underrun vector that opens an episode. -/
def underrunFields (l c : Nat) : List Fld :=
  [SQ_UNDRCNT_VEC l, SQ_STAT_ENG l, SQ_FLAGS_UNDR l, SQ_CNT1_UNDR l, SQ_CTX_FLAGS_UNDR l c, SQ_UH_SLO_S_LO l, SQ_UH_SHI_S_HI l,
    SQ_UH_ELO_E_LO l, SQ_UH_EHI_E_HI l, SQ_UH_EHI_OPEN l]

theorem underrunFields_place {l c : Nat} {y : Fld} (hy : y ∈ underrunFields l c) :
    ∃ a, y.reg.addr = groupBase l + a ∧ (a < 0xB400 ∨ a = 0xB408 + 0x60 * c) := by
  unfold underrunFields at hy
  simp only [List.mem_cons, List.not_mem_nil, or_false] at hy
  obtain rfl | rfl | rfl | rfl | rfl | rfl | rfl | rfl | rfl | rfl := hy
  · exact ⟨0xB014, rfl, by omega⟩
  · exact ⟨0xB030, rfl, by omega⟩
  · exact ⟨0xB000, rfl, by omega⟩
  · exact ⟨0xB010, rfl, by omega⟩
  · exact ⟨0xB408 + 0x60 * c, by simp only [SQ_CTX_FLAGS_UNDR, SQ_CTX_FLAGS]; omega, .inr rfl⟩
  · exact ⟨0xB088, rfl, by omega⟩
  · exact ⟨0xB08C, rfl, by omega⟩
  · exact ⟨0xB090, rfl, by omega⟩
  · exact ⟨0xB094, rfl, by omega⟩
  · exact ⟨0xB094, rfl, by omega⟩

/-- What an underrun that opens an episode leaves in the registers. -/
structure Opened (u v : State) (l c : Nat) (b : Tick) : Prop where
  flag : v.get (SQ_CTX_FLAGS_UNDR l c) = 1
  noted : v.get (SQ_FLAGS_UNDR l) = 1
  count : v.get (SQ_UNDRCNT_VEC l) = min (u.get (SQ_UNDRCNT_VEC l) + 1) (2 ^ 32 - 1)
  open_ : v.get (SQ_UH_EHI_OPEN l) = 1
  since : v.getTime (SQ_UH_SLO_S_LO l) (SQ_UH_SHI_S_HI l) = tclkOf b

/-- The registers of an episode (R236). -/
def State.episodeBegun (u : State) (l : Nat) (b : Tick) : State :=
  ((u.setTime (SQ_UH_SLO_S_LO l) (SQ_UH_SHI_S_HI l) (tclkOf b)).setTime (SQ_UH_ELO_E_LO l) (SQ_UH_EHI_E_HI l) 0).set (SQ_UH_EHI_OPEN l) 1

theorem State.get_episodeBegun (u : State) (l : Nat) (b : Tick) {y : Fld} {a : Nat} (hy : y.reg.addr = groupBase l + a)
    (out : a < 0xB088 ∨ 0xB098 ≤ a) : (u.episodeBegun l b).get y = u.get y := by
  have frame : Frame u (u.episodeBegun l b) [] (· ∈ [SQ_UH_SLO_S_LO l, SQ_UH_SHI_S_HI l, SQ_UH_ELO_E_LO l, SQ_UH_EHI_E_HI l,
      SQ_UH_EHI_OPEN l]) :=
    ((Frame.setTime _ _ _ _ _ _ (Fld.inWord_of _ rfl) (Fld.inWord_of _ rfl) (by simp) (by simp)).trans
      (.setTime _ _ _ _ _ _ (Fld.inWord_of _ rfl) (Fld.inWord_of _ rfl) (by simp) (by simp))).trans (.set _ _ _ _ _ (Fld.inWord_of _ rfl) (by simp))
  refine frame.reg y (sqField_notPba a hy) fun z hz => .inl ?_
  rw [hy]
  simp only [List.mem_cons, List.not_mem_nil, or_false] at hz
  obtain rfl | rfl | rfl | rfl | rfl := hz <;>
    simp only [SQ_UH_SLO_S_LO, SQ_UH_SLO, SQ_UH_SHI_S_HI, SQ_UH_SHI, SQ_UH_ELO_E_LO, SQ_UH_ELO, SQ_UH_EHI_E_HI, SQ_UH_EHI_OPEN, SQ_UH_EHI] <;>
    omega

theorem State.getTime_episodeBegun (u : State) (l : Nat) (b : Tick) :
    (u.episodeBegun l b).getTime (SQ_UH_SLO_S_LO l) (SQ_UH_SHI_S_HI l) = tclkOf b := by
  have kept : ∀ {y : Fld} (v : State), y = SQ_UH_SLO_S_LO l ∨ y = SQ_UH_SHI_S_HI l →
      ((v.setTime (SQ_UH_ELO_E_LO l) (SQ_UH_EHI_E_HI l) 0).set (SQ_UH_EHI_OPEN l) 1).get y = v.get y := fun {y} v hy => by
    have frame : Frame v ((v.setTime (SQ_UH_ELO_E_LO l) (SQ_UH_EHI_E_HI l) 0).set (SQ_UH_EHI_OPEN l) 1) []
        (· ∈ [SQ_UH_ELO_E_LO l, SQ_UH_EHI_E_HI l, SQ_UH_EHI_OPEN l]) :=
      (Frame.setTime _ _ _ _ _ _ (Fld.inWord_of _ rfl) (Fld.inWord_of _ rfl) (by simp) (by simp)).trans
        (.set _ _ _ _ _ (Fld.inWord_of _ rfl) (by simp))
    obtain rfl | rfl := hy
    · refine frame.reg _ (sqField_notPba (g := l) 0xB088 rfl) fun z hz => .inl ?_
      simp only [List.mem_cons, List.not_mem_nil, or_false] at hz
      obtain rfl | rfl | rfl := hz <;> simp [SQ_UH_SLO_S_LO, SQ_UH_SLO, SQ_UH_ELO_E_LO, SQ_UH_ELO, SQ_UH_EHI_E_HI, SQ_UH_EHI_OPEN, SQ_UH_EHI]
    · refine frame.reg _ (sqField_notPba (g := l) 0xB08C rfl) fun z hz => .inl ?_
      simp only [List.mem_cons, List.not_mem_nil, or_false] at hz
      obtain rfl | rfl | rfl := hz <;> simp [SQ_UH_SHI_S_HI, SQ_UH_SHI, SQ_UH_ELO_E_LO, SQ_UH_ELO, SQ_UH_EHI_E_HI, SQ_UH_EHI_OPEN, SQ_UH_EHI]
  exact (State.getTime_congr (kept _ (.inl rfl)) (kept _ (.inr rfl))).trans
    (State.getTime_setTime _ _ _ _ (Fld.inWord_of _ rfl) (Fld.inWord_of _ rfl)
      (.inl (by simp [SQ_UH_SHI_S_HI, SQ_UH_SHI, SQ_UH_SLO_S_LO, SQ_UH_SLO])) rfl rfl)

theorem State.noteUnderrun_eq (u : State) (l c : Nat) (b : Tick) (closed : u.on (SQ_UH_EHI_OPEN l) = false) : u.noteUnderrun l c b =
    (((((u.count (SQ_UNDRCNT_VEC l) 1).set (SQ_STAT_ENG l) engUnderrun).flag (SQ_FLAGS_UNDR l) (SQ_CNT1_UNDR l)).raise
      (SQ_CTX_FLAGS_UNDR l c)).episodeBegun l b) := by
  have still : ((u.count (SQ_UNDRCNT_VEC l) 1).set (SQ_STAT_ENG l) engUnderrun).on (SQ_UH_EHI_OPEN l) = false := by
    refine (on_congr ?_).trans closed
    rw [State.get_set_apart _ (SQ_STAT_ENG l) (SQ_UH_EHI_OPEN l) _ (Fld.inWord_of _ rfl)
        (.inl (by simp [SQ_STAT_ENG, SQ_STAT, SQ_UH_EHI_OPEN, SQ_UH_EHI])),
      State.get_count_apart _ (SQ_UNDRCNT_VEC l) (SQ_UH_EHI_OPEN l) _ (Fld.inWord_of _ rfl)
        (.inl (by simp [SQ_UNDRCNT_VEC, SQ_UNDRCNT, SQ_UH_EHI_OPEN, SQ_UH_EHI]))]
  exact if_neg (by rw [still]; decide)

theorem State.noteUnderrun_opens (u : State) (l c : Nat) (b : Tick) (closed : u.on (SQ_UH_EHI_OPEN l) = false) :
    Writes (underrunFields l c) u (u.noteUnderrun l c b) ∧ Opened u (u.noteUnderrun l c b) l c b := by
  rw [u.noteUnderrun_eq l c b closed]
  refine ⟨.of_frame ?_, ?_, ?_, ?_, ?_, State.getTime_episodeBegun ..⟩
  · unfold State.episodeBegun
    refine ((((((Frame.count _ _ _ _ _ (Fld.inWord_of _ rfl) ?_).trans (.set _ _ _ _ _ (Fld.inWord_of _ rfl) ?_)).trans
      (.flag _ _ _ _ _ (Fld.inWord_of _ rfl) (Fld.inWord_of _ rfl) ?_ ?_)).trans (.raise _ _ _ _ (Fld.inWord_of _ rfl) ?_)).trans
      (.setTime _ _ _ _ _ _ (Fld.inWord_of _ rfl) (Fld.inWord_of _ rfl) ?_ ?_)).trans
      (.setTime _ _ _ _ _ _ (Fld.inWord_of _ rfl) (Fld.inWord_of _ rfl) ?_ ?_)).trans (.set _ _ _ _ _ (Fld.inWord_of _ rfl) ?_) <;>
      simp [underrunFields]
  · rw [State.get_episodeBegun (a := 0xB408 + 0x60 * c) _ _ _ (by simp only [SQ_CTX_FLAGS_UNDR, SQ_CTX_FLAGS]; omega) (by omega), State.get_raise,
      State.get_set _ _ _ (Fld.inWord_of _ rfl)]
    rfl
  · rw [State.get_episodeBegun (a := 0xB000) _ _ _ rfl (by omega), State.get_raise, State.get_set_apart _ (SQ_CTX_FLAGS_UNDR l c)
      (SQ_FLAGS_UNDR l) _ (Fld.inWord_of _ rfl) (.inl (by simp only [SQ_CTX_FLAGS_UNDR, SQ_CTX_FLAGS, SQ_FLAGS_UNDR, SQ_FLAGS]; omega)),
      State.get_flag _ _ _ (Fld.inWord_of _ rfl) (Fld.inWord_of _ rfl) (.inl (by simp [SQ_CNT1_UNDR, SQ_CNT1, SQ_FLAGS_UNDR, SQ_FLAGS])) rfl]
  · rw [State.get_episodeBegun (a := 0xB014) _ _ _ rfl (by omega), State.get_raise, State.get_set_apart _ (SQ_CTX_FLAGS_UNDR l c)
      (SQ_UNDRCNT_VEC l) _ (Fld.inWord_of _ rfl) (.inl (by simp only [SQ_CTX_FLAGS_UNDR, SQ_CTX_FLAGS, SQ_UNDRCNT_VEC, SQ_UNDRCNT]; omega)),
      State.get_flag_apart _ _ _ (SQ_UNDRCNT_VEC l) (Fld.inWord_of _ rfl) (Fld.inWord_of _ rfl)
        (.inl (by simp [SQ_UNDRCNT_VEC, SQ_UNDRCNT, SQ_FLAGS_UNDR, SQ_FLAGS])) (.inl (by simp [SQ_UNDRCNT_VEC, SQ_UNDRCNT, SQ_CNT1_UNDR, SQ_CNT1])),
      State.get_set_apart _ (SQ_STAT_ENG l) (SQ_UNDRCNT_VEC l) _ (Fld.inWord_of _ rfl)
        (.inl (by simp [SQ_STAT_ENG, SQ_STAT, SQ_UNDRCNT_VEC, SQ_UNDRCNT])), State.get_count _ _ _ (Fld.inWord_of _ rfl)]
    rfl
  · exact (State.get_set _ _ _ (Fld.inWord_of _ rfl)).trans rfl

theorem Opened.of_writes {s u v : State} {l c : Nat} {b : Tick} (h : Opened u v l c b) (k : u.get (SQ_UNDRCNT_VEC l) = s.get (SQ_UNDRCNT_VEC l)) :
    Opened s v l c b := ⟨h.flag, h.noted, by rw [← k]; exact h.count, h.open_, h.since⟩

theorem Opened.same {s v t : State} {l c : Nat} {b : Tick} (h : Opened s v l c b) (k : ∀ y ∈ underrunFields l c, t.get y = v.get y) :
    Opened s t l c b where
  flag := (k _ (by simp [underrunFields])).trans h.flag
  noted := (k _ (by simp [underrunFields])).trans h.noted
  count := (k _ (by simp [underrunFields])).trans h.count
  open_ := (k _ (by simp [underrunFields])).trans h.open_
  since := (State.getTime_congr (k _ (by simp [underrunFields])) (k _ (by simp [underrunFields]))).trans h.since

theorem State.nextSlot_entering (s : State) {l : Nat} (hl : l < 32) (m : Micro) : (s.entering l m).nextSlot l = s.nextSlot l := by
  have gets : ∀ x, (s.entering l m).get x = s.get x := State.get_setEngine _ _ _
  have period : (s.entering l m).tsPeriod = s.tsPeriod := by
    unfold State.tsPeriod State.tsInUse State.bit
    simp only [gets]
  have engine : ((s.entering l m).engine l).afterHold = (s.engine l).afterHold ∧ ((s.entering l m).engine l).slotB = (s.engine l).slotB := by
    rw [State.entering, State.engine_setEngine _ _ _ hl]
    exact ⟨rfl, rfl⟩
  unfold State.nextSlot State.periodEnd
  rw [engine.1, engine.2, period, State.group_congr (s.entering_begins hl m).groups]

/-- R235: an underrun vector issues the vector at UVA to every group of the gang. -/
theorem State.issueVector_under (s : State) {l : Nat} (c : Nat) (i : Native) (va : Nat) (hl : l < 32) (gang : s.get (SQ_GANG_M l) ≤ 5)
    (lead : s.leader l = l) (runsDry : s.underrun l = true) (closed : s.on (SQ_UH_EHI_OPEN l) = false) :
    ∃ v y, s.issueVector l c (repeatMicro 1 false) i va none none = v.setEngine l y ∧ SameQueues (v.engine l) y ∧
      Issues s v l c (fun g => s.vStore g (s.get (SQ_CTX_CFG_UVA l c))) none none (s.engine l).msgs ∧ Opened s v l c (s.nextSlot l) := by
  unfold State.issueVector
  extract_lets e b under stream va' words first item issued kept noted
  have underIs : under = true := runsDry
  have dry : stream = false := by
    change (_ && !under) = false
    rw [underIs]
    rfl
  have vaIs : va' = s.get (SQ_CTX_CFG_UVA l c) := if_pos underIs
  have wordsAre : words = (s.members l).map fun g => (g, s.vStore g (s.get (SQ_CTX_CFG_UVA l c))) := by
    refine List.map_congr_left fun g _ => ?_
    rw [forced_of_none (by rfl), vaIs, dry]
    rfl
  have firstIs : first = s.vStore l (s.get (SQ_CTX_CFG_UVA l c)) := by
    obtain ⟨rest, head⟩ := State.members_head lead
    change (words.headD (l, 0)).2 = _
    rw [wordsAre, head]
    rfl
  have items : Items s l c first none none item :=
    ⟨fun _ => rfl, fun _ => rfl, fun _ => rfl, fun _ => rfl, fun _ => rfl, fun _ => rfl, fun _ => rfl, fun _ => rfl⟩
  have issuedIs : issued = s.issueTo words item := rfl
  have keptIs : kept = issued := if_neg (by rw [dry]; decide)
  have notedIs : noted = issued.noteUnderrun l c b := (if_pos underIs).trans (by rw [keptIs])
  rw [firstIs] at items
  have issues := items.issues (word := fun g => s.vStore g (s.get (SQ_CTX_CFG_UVA l c))) hl gang
  rw [← wordsAre, ← issuedIs] at issues
  have same : ∀ {y : Fld} {a : Nat}, y.reg.addr = groupBase l + a → issued.get y = s.get y := fun hy => by
    rw [issuedIs]
    exact (Frame.issueTo s words item (fun _ => False)).reg _ (sqField_notPba _ hy) fun _ hz => hz.elim
  have slot : b = s.nextSlot l := rfl
  clear_value noted kept issued item first words va' stream under b
  obtain ⟨writes, opened⟩ := issued.noteUnderrun_opens l c b ((on_congr (same (y := SQ_UH_EHI_OPEN l) (a := 0xB094) rfl)).trans closed)
  rw [← notedIs] at writes opened
  refine ⟨noted, _, rfl, ?_, issues.writes writes fun y hy => ?_, ?_⟩
  · exact ⟨rfl, rfl, rfl, rfl, rfl⟩
  · obtain ⟨a, hy, range⟩ := underrunFields_place hy
    rw [hy]
    simp only [SQ_CTX_CFG]
    omega
  · rw [← slot]
    exact opened.of_writes (same (y := SQ_UNDRCNT_VEC l) (a := 0xB014) rfl)

section
variable {s : State} {e : EngineIx} {c : Fin 32} {i : Native} (h : s.Stands e c i)
include h

theorem stream_under_runs (code : opOf i = 0x03) (res : s.get (SQ_CTX_RES_RES e c) = 0) (more : 0 < bOf i) (off : s.on (SQ_STRM_EN e) = false)
    (closed : s.on (SQ_UH_EHI_OPEN e) = false) : RunsTo (exec (.stream e 1) s) fun t =>
      Issues s t e c (fun g => s.vStore g (s.get (SQ_CTX_CFG_UVA e c))) none none (s.engine e).msgs ∧
      t.get (SQ_CTX_RES_RES e c) = bOf i ∧ Opened s t e c (s.nextSlot e) := by
  have small : bOf i < 2 ^ 24 := Nat.mod_lt _ (by decide)
  obtain ⟨row, micro⟩ := h.repeat_eq code repeats_stream (p := fun i => opOf i == 0x03) (beq_iff_eq.2 code)
  obtain ⟨instr, _⟩ := h.entered
  obtain ⟨cnt, va⟩ := h.starts_fresh code repeats_stream (by decide) res
  have begins := s.entering_begins h.engine (repeatMicro 1 false)
  have gets : ∀ x, (s.entering e (repeatMicro 1 false)).get x = s.get x := State.get_setEngine _ _ _
  have dry : s.underrun e = true := by
    unfold State.underrun
    rw [off]
    rfl
  have slot := (s.entering e (repeatMicro 1 false)).execute_more e c (vsrc := 1) (vainc := false) ((s.engine e).exec (s.slotTime e)) rfl rfl
    (by rw [State.on_congr (gets _), off]; exact Bool.and_false _) (show (s.engine e).cnt ≠ 1 by omega) rfl
  obtain ⟨gang, lead, _⟩ := begins.members (c := c) fun _ hy => nomatch hy
  have under := (s.entering e (repeatMicro 1 false)).issueVector_under c i ((s.engine e).exec (s.slotTime e)).va h.engine
    (gang ▸ h.gang) (lead.trans h.leads) ((s.underrun_entering h.engine _).trans dry) ((State.on_congr (gets _)).trans closed)
  rw [s.nextSlot_entering h.engine, gets, begins.queues.1] at under
  have xi : ((s.engine e).exec (s.slotTime e)).instr = i := instr
  rw [xi] at slot
  change RunsTo (done s (s.runRow e 1 fun i => opOf i == 0x03)) _
  rw [row, micro]
  have mem : (s.entering e (repeatMicro 1 false)).mem = s.mem := begins.frame.part .mem (by simp)
  generalize (s.entering e (repeatMicro 1 false)).execute e c (repeatMicro 1 false) ((s.engine e).exec (s.slotTime e)) = r at slot
  generalize (s.entering e (repeatMicro 1 false)).issueVector e c (repeatMicro 1 false) i ((s.engine e).exec (s.slotTime e)).va none none = z
    at slot under
  generalize s.entering e (repeatMicro 1 false) = u at *
  obtain ⟨v, y, rfl, queues, issues, opened⟩ := under
  obtain ⟨y', run, queues', _⟩ := slot
  rw [run]
  have word : (fun g => u.vStore g (s.get (SQ_CTX_CFG_UVA e c))) = fun g => s.vStore g (s.get (SQ_CTX_CFG_UVA e c)) := by
    funext g
    rw [State.vStore_congr mem]
  rw [word] at issues
  have xcnt : ((s.engine e).exec (s.slotTime e)).cnt - 1 = bOf i := by
    change (s.engine e).cnt - 1 = bOf i
    omega
  have issues := ((issues.begins begins (fun _ hy => nomatch hy)).setEngine h.engine queues).setEngine h.engine queues'
  have opened : Opened s ((v.setEngine e y).setEngine e y') e c (s.nextSlot e) := (opened.of_writes (gets _)).same fun _ _ => by
    rw [State.get_setEngine, State.get_setEngine]
  generalize (v.setEngine e y).setEngine e y' = w at issues opened
  rw [xcnt]
  refine runsTo_done _ _ _ ⟨(issues.writes (w := [SQ_CTX_RES_RES e c]) (.set _ _ _ (Fld.inWord_of _ rfl) (by simp)) fun y hy => ?_).settle, ?_,
    opened.same fun y hy => ?_⟩
  · rw [List.mem_singleton.1 hy, resField]
    simp only [SQ_CTX_CFG]
    omega
  · rw [get_settle _ _ _ (sqField_notPba _ (resField e c)), State.get_set _ _ _ (Fld.inWord_of _ rfl)]
    exact Nat.mod_eq_of_lt small
  · obtain ⟨a, hy, range⟩ := underrunFields_place hy
    rw [get_settle _ _ _ (sqField_notPba _ hy), State.get_set_apart _ _ _ _ (Fld.inWord_of _ rfl)]
    refine .inl ?_
    rw [resField, hy]
    omega

end

/-! ### The refill buffers (R242, R270) -/

theorem State.group_popStream (s : State) (m : Nat) : (s.popStream m).groups = s.groups := by
  unfold State.popStream
  rw [State.set_groups, State.setEngine_groups]

theorem State.refill_popStream (s : State) {m : Nat} (hm : m < 32) (k : Nat) :
    ((s.popStream m).engine k).refill = if k = m then (s.engine m).refill.tail else (s.engine k).refill := by
  unfold State.popStream
  dsimp only
  rw [State.engine_congr (State.set_engines ..)]
  by_cases hk : k = m
  · rw [if_pos hk, hk, State.engine_setEngine _ _ _ hm]
  · rw [if_neg hk, State.engine_setEngine_ne _ _ _ _ (Ne.symm hk)]

/-- Every member of the gang has taken the head of its buffer. -/
theorem State.popStream_all (s : State) {ms : List Nat} (each : ms.Nodup) (small : ∀ m ∈ ms, m < 32) :
    (s.forEach ms State.popStream).groups = s.groups ∧
      ∀ m ∈ ms, ((s.forEach ms State.popStream).engine m).refill = (s.engine m).refill.tail := by
  refine foldl_each State.popStream (fun b => b.groups = s.groups) (fun m b => (b.engine m).refill = (s.engine m).refill)
    (fun m b => (b.engine m).refill = (s.engine m).refill.tail) ms each (fun b hb m hm hp => ?_) (fun b _ m hm _ k _ ne => ?_) s rfl fun _ _ => rfl
  · refine ⟨(b.group_popStream m).trans hb, ?_⟩
    rw [b.refill_popStream (small m hm), if_pos rfl, hp]
  · rw [b.refill_popStream (small m hm), if_neg (Ne.symm ne)]
    exact ⟨id, id⟩

theorem Frame.popStream (s : State) (m : Nat) : Frame s (s.popStream m) [.engines] (fun y => ∃ g, y = SQ_STRM_STAT_FILL g) :=
  (Frame.setEngine _ _ _ _ _ (by simp)).trans (.set _ _ _ _ _ (Fld.inWord_of _ rfl) ⟨m, rfl⟩)

/-- The head of each member's buffer has issued (R270). -/
structure Streamed (s v : State) (l c : Nat) : Prop where
  member : ∀ g ∈ s.members l, ∃ x : Issued, v.group g = { s.group g with issue := (s.group g).issue ++ [x] } ∧
    x.word = (s.engine g).refill.headD 0 ∧ x.ctx = c ∧ (v.engine g).refill = (s.engine g).refill.tail
  frame : Frame s v [.groups, .engines] (fun y => y = SQ_STAT_ENG l ∨ ∃ g, y = SQ_STRM_STAT_FILL g)

theorem Streamed.keep {s v t : State} {l c : Nat} (h : Streamed s v l c) (groups : t.groups = v.groups)
    (engines : ∀ g, (t.engine g).refill = (v.engine g).refill) (frame : Frame v t [.groups, .engines] (fun _ => False)) : Streamed s t l c where
  member g hg := by
    rw [State.group_congr groups, engines]
    exact h.member g hg
  frame := h.frame.trans (frame.mono (fun _ => id) fun _ => False.elim)

theorem State.refill_setEngine {v : State} {l : Nat} (hl : l < 32) {y : Engine} (same : y.refill = (v.engine l).refill) (g : Nat) :
    ((v.setEngine l y).engine g).refill = (v.engine g).refill := by
  by_cases hg : g = l
  · rw [hg, State.engine_setEngine _ _ _ hl, same]
  · rw [State.engine_setEngine_ne _ _ _ _ (Ne.symm hg)]

theorem Streamed.setEngine {s v : State} {l c : Nat} (h : Streamed s v l c) (hl : l < 32) {y : Engine} (same : y.refill = (v.engine l).refill) :
    Streamed s (v.setEngine l y) l c :=
  h.keep (State.setEngine_groups ..) (State.refill_setEngine hl same) (.setEngine _ _ _ _ _ (by simp))

theorem State.issueVector_stream (s : State) {l : Nat} (c : Nat) (i : Native) (va : Nat) (hl : l < 32) (gang : s.get (SQ_GANG_M l) ≤ 5)
    (flows : s.underrun l = false) (closed : s.on (SQ_UH_EHI_OPEN l) = false) :
    Streamed s (s.issueVector l c (repeatMicro 1 false) i va none none) l c := by
  unfold State.issueVector
  extract_lets e b under stream va' words first item issued kept noted
  have underIs : under = false := flows
  have flowing : stream = true := by
    change (_ && !under) = true
    rw [underIs]
    rfl
  have wordsAre : words = (s.members l).map fun g => (g, (s.engine g).refill.headD 0) := by
    refine List.map_congr_left fun g _ => ?_
    rw [forced_of_none (by rfl), flowing]
    rfl
  have itemIs : ∀ w, (item w).word = w ∧ (item w).ctx = c := fun _ => ⟨rfl, rfl⟩
  have issuedIs : issued = s.issueTo words item := rfl
  have issuing : Frame s issued [.groups] (fun _ => False) := by
    rw [issuedIs]
    exact .issueTo ..
  have gets : ∀ {y : Fld} {a : Nat}, y.reg.addr = groupBase l + a → issued.get y = s.get y := fun hy =>
    issuing.reg _ (sqField_notPba _ hy) fun _ hz => hz.elim
  have members : issued.members l = s.members l := by
    unfold State.members State.leader
    rw [gets (y := SQ_GANG_M l) (a := 0xB020) rfl]
  have keptIs : kept = issued.forEach (s.members l) State.popStream := (if_pos flowing).trans (by rw [members])
  have notedIs : noted = kept.noteStream l b := (if_neg (by rw [underIs]; decide)).trans (if_pos flowing)
  clear_value noted kept issued item first words va' stream under b e
  have keys : words.map (·.1) = s.members l := by
    rw [wordsAre, List.map_map]
    exact List.map_id _
  have small : ∀ m ∈ s.members l, m < 32 := fun m => State.members_lt hl gang
  obtain ⟨groups, refills⟩ := issued.popStream_all (s.members_nodup l) small
  rw [← keptIs] at groups refills
  have engine : ∀ m, issued.engine m = s.engine m := State.engine_congr (issuing.part .engines (by simp))
  have keeping : Frame issued kept [.engines] (fun y => ∃ g, y = SQ_STRM_STAT_FILL g) := by
    rw [keptIs]
    exact Frame.forEach _ _ _ _ _ fun s m _ => .popStream s m
  have still : (kept.set (SQ_STAT_ENG l) engIssue).on (SQ_UH_EHI_OPEN l) = false := by
    refine (State.on_congr ?_).trans closed
    rw [State.get_set_apart _ (SQ_STAT_ENG l) (SQ_UH_EHI_OPEN l) _ (Fld.inWord_of _ rfl)
        (.inl (by simp [SQ_STAT_ENG, SQ_STAT, SQ_UH_EHI_OPEN, SQ_UH_EHI])),
      keeping.reg (SQ_UH_EHI_OPEN l) (sqField_notPba (g := l) 0xB094 rfl) fun z hz => ?_, gets (y := SQ_UH_EHI_OPEN l) (a := 0xB094) rfl]
    obtain ⟨g, rfl⟩ := hz
    exact .inl (by simp only [SQ_STRM_STAT_FILL, SQ_STRM_STAT, SQ_UH_EHI_OPEN, SQ_UH_EHI, groupBase]; omega)
  have set : noted = kept.set (SQ_STAT_ENG l) engIssue := by
    rw [notedIs]
    exact if_neg (by rw [still]; decide)
  have streamed : Streamed s noted l c := by
    refine ⟨fun g hg => ⟨item ((s.engine g).refill.headD 0), ?_, (itemIs _).1, (itemIs _).2, ?_⟩, ?_⟩
    · rw [set, State.group_congr (State.set_groups ..), State.group_congr groups, issuedIs]
      refine State.group_issueTo s words item (keys ▸ s.members_nodup l) ?_ (small g hg)
      rw [wordsAre]
      exact List.mem_map.2 ⟨g, hg, rfl⟩
    · rw [set, State.engine_congr (State.set_engines ..), refills g hg, engine]
    · rw [set]
      exact ((issuing.mono (by simp) fun _ => False.elim).trans (keeping.mono (by simp) fun _ => .inr)).trans
        (.set _ _ _ _ _ (Fld.inWord_of _ rfl) (.inl rfl))
  exact streamed.setEngine hl rfl

theorem Streamed.entered {s v : State} {l c : Nat} {m : Micro} (h : Streamed (s.entering l m) v l c) (hl : l < 32) : Streamed s v l c where
  member g hg := by
    have begins := s.entering_begins hl m
    obtain ⟨_, _, members⟩ := begins.members (c := c) fun _ hy => nomatch hy
    have refill : ((s.entering l m).engine g).refill = (s.engine g).refill := State.refill_setEngine (v := s) hl (by rfl) g
    rw [← refill, ← State.group_congr begins.groups]
    exact h.member g (members ▸ hg)
  frame := ((s.entering_begins hl m).frame.mono (by simp) fun _ hy => nomatch hy).trans h.frame

section
variable {s : State} {e : EngineIx} {c : Fin 32} {i : Native} (h : s.Stands e c i)
include h

theorem stream_runs (code : opOf i = 0x03) (res : s.get (SQ_CTX_RES_RES e c) = 0) (more : 0 < bOf i) (on : s.on (SQ_STRM_EN e))
    (closed : s.on (SQ_UH_EHI_OPEN e) = false) (filled : ∀ g ∈ s.members e, (s.engine g).refill ≠ []) : RunsTo (exec (.stream e 1) s) fun t =>
      (∀ g ∈ s.members e, ∃ x : Issued, t.group g = { s.group g with issue := (s.group g).issue ++ [x] } ∧
        x.word = (s.engine g).refill.headD 0 ∧ x.ctx = c ∧ (t.engine g).refill = (s.engine g).refill.tail) ∧
      t.ctxPc e c = s.ctxPc e c ∧ t.get (SQ_CTX_RES_RES e c) = bOf i ∧
      Frame s t [.groups, .engines] (fun y => y = SQ_CTX_RES_RES e c ∨ y = SQ_STAT_ENG e ∨ ∃ g, y = SQ_STRM_STAT_FILL g) := by
  have small : bOf i < 2 ^ 24 := Nat.mod_lt _ (by decide)
  obtain ⟨row, micro⟩ := h.repeat_eq code repeats_stream (p := fun i => opOf i == 0x03) (beq_iff_eq.2 code)
  obtain ⟨instr, _⟩ := h.entered
  obtain ⟨cnt, va⟩ := h.starts_fresh code repeats_stream (by decide) res
  have begins := s.entering_begins h.engine (repeatMicro 1 false)
  have gets : ∀ x, (s.entering e (repeatMicro 1 false)).get x = s.get x := State.get_setEngine _ _ _
  have flows : s.underrun e = false := by
    unfold State.underrun
    rw [on, closed]
    simpa using filled
  have flows := (s.underrun_entering h.engine (repeatMicro 1 false)).trans flows
  have slot := (s.entering e (repeatMicro 1 false)).execute_more e c (vsrc := 1) (vainc := false) ((s.engine e).exec (s.slotTime e)) rfl rfl
    (by rw [flows]; rfl) (show (s.engine e).cnt ≠ 1 by omega) rfl
  obtain ⟨gang, _, members⟩ := begins.members (c := c) fun _ hy => nomatch hy
  have streamed := (s.entering e (repeatMicro 1 false)).issueVector_stream c i ((s.engine e).exec (s.slotTime e)).va h.engine
    (gang ▸ h.gang) flows ((State.on_congr (gets _)).trans closed)
  have xi : ((s.engine e).exec (s.slotTime e)).instr = i := instr
  rw [xi] at slot
  change RunsTo (done s (s.runRow e 1 fun i => opOf i == 0x03)) _
  rw [row, micro]
  generalize (s.entering e (repeatMicro 1 false)).execute e c (repeatMicro 1 false) ((s.engine e).exec (s.slotTime e)) = r at slot
  generalize (s.entering e (repeatMicro 1 false)).issueVector e c (repeatMicro 1 false) i ((s.engine e).exec (s.slotTime e)).va none none = v
    at slot streamed
  obtain ⟨y, run, queues, _⟩ := slot
  have streamed := (streamed.entered h.engine).setEngine h.engine queues.2.1
  have xcnt : ((s.engine e).exec (s.slotTime e)).cnt - 1 = bOf i := by
    change (s.engine e).cnt - 1 = bOf i
    omega
  rw [run, xcnt]
  generalize v.setEngine e y = w at streamed
  have frame : Frame s (settle s (w.set (SQ_CTX_RES_RES e c) (bOf i))) [.groups, .engines]
      (fun y => y = SQ_CTX_RES_RES e c ∨ y = SQ_STAT_ENG e ∨ ∃ g, y = SQ_STRM_STAT_FILL g) :=
    ((streamed.frame.mono (fun _ => id) fun _ => .inr).trans (.set _ _ _ _ _ (Fld.inWord_of _ rfl) (.inl rfl))).trans (Frame.settle ..)
  refine runsTo_done _ _ _ ⟨fun g hg => ?_, ?_, ?_, frame⟩
  · rw [group_settle, engine_settle, State.group_congr (State.set_groups ..), State.engine_congr (State.set_engines ..)]
    exact streamed.member g hg
  · refine frame.reg _ (sqField_notPba (g := e) (0xB400 + 0x60 * c) (by simp only [SQ_CTX_STAT_PC, SQ_CTX_STAT]; omega)) fun z hz => .inl ?_
    obtain rfl | rfl | ⟨g, rfl⟩ := hz
    · simp only [SQ_CTX_RES_RES, SQ_CTX_RES, SQ_CTX_STAT_PC, SQ_CTX_STAT]
      omega
    · simp only [SQ_STAT_ENG, SQ_STAT, SQ_CTX_STAT_PC, SQ_CTX_STAT]
      omega
    · simp only [SQ_STRM_STAT_FILL, SQ_STRM_STAT, SQ_CTX_STAT_PC, SQ_CTX_STAT, groupBase]
      omega
  · rw [get_settle _ _ _ (sqField_notPba _ (resField e c)), State.get_set _ _ _ (Fld.inWord_of _ rfl)]
    exact Nat.mod_eq_of_lt small

end

/-- Settles O26: the slots of VEC and RPT, and those of STREAM with a vector in each buffer and without. -/
theorem queselVectors : Obligations.QueselVectors := by
  unfold Obligations.QueselVectors
  intro s e c i h
  refine ⟨vec_more_runs h, vec_one_runs h, vec_full_runs h, fun r => vec_resumed_runs h, rpt_more_runs h, rpt_last_runs h, stream_runs h,
    fun code res more off closed => ?_⟩
  exact (stream_under_runs h code res more off closed).mono fun t ⟨issues, rest, opened⟩ =>
    ⟨issues, rest, opened.flag, opened.noted, opened.count, opened.open_, opened.since⟩

end Sys2Proof.Machine
end

section
/-! Holds and releases (R57, R232, R277 to R281, R303, R306). -/

namespace Sys2Proof.Machine

/-! ### A hold begins (R277 to R281, R303, R306) -/

/-- The routine of a wait in the vendor's image: it holds, and its PC advances at the release. -/
structure HoldRoutine (op hold : Nat) : Prop where
  entry : (DispEntry.make (vendorDispatch.getD op 0)).maddr < 64
  hold : (vendorMicro (DispEntry.make (vendorDispatch.getD op 0)).maddr).hold = hold
  noTrap : (vendorMicro (DispEntry.make (vendorDispatch.getD op 0)).maddr).trap = false

theorem holds_waitph : HoldRoutine 0x10 1 := ⟨by decide, by decide, by decide⟩
theorem holds_waitt : HoldRoutine 0x11 2 := ⟨by decide, by decide, by decide⟩
theorem holds_waitev : HoldRoutine 0x12 3 := ⟨by decide, by decide, by decide⟩
theorem holds_sync : HoldRoutine 0x13 4 := ⟨by decide, by decide, by decide⟩
theorem holds_swc : HoldRoutine 0x18 5 := ⟨by decide, by decide, by decide⟩

/-- The wait that the microword at hand begins. -/
def State.waitBegun (s : State) (l c : Nat) (word : BitVec 144) (m : Micro) : Wait :=
  let x := s.engine l
  { kind := s.holdKind l c m.hold x.instr (s.slotTime l), since := s.slotTime l, released := none, instr := x.instr, micro := word,
    upc := x.upc, va := x.va, cnt := x.cnt, ipc := x.ipc, clampEv := x.clampEv }

/-- R303, R306: the context waits, and its engine holds. -/
def State.waiting (s : State) (l c : Nat) (word : BitVec 144) (m : Micro) : State :=
  let s1 := s.setWait l c (some (s.waitBegun l c word m))
  (s1.setEngine l { s1.engine l with trace := m.trace, dispatched := false, fresh := false }).set (SQ_STAT_ENG l) engHold

theorem State.startHold_eq (s : State) (l c : Nat) (word : BitVec 144) (m : Micro) : s.startHold l c word m =
    match s.holdKind l c m.hold (s.engine l).instr (s.slotTime l) with
    | .barrier n => (s.waiting l c word m).arrive l c n (s.slotTime l)
    | .swc _ => (s.waiting l c word m).holdTo l (s.nextSlot l + 2048)
    | _ => s.waiting l c word m := rfl

theorem Holds.settle {s t : State} {l c : Nat} {i : Native} {kind : WaitKind} {w : Fld → Prop} (h : Holds s t l c i kind w) :
    Holds s (settle s t) l c i kind w where
  wait := by
    unfold State.ctxWait
    rw [engine_settle]
    exact h.wait
  place := (get_settle _ _ _ (sqField_notPba (g := l) (0xB400 + 0x60 * c) (by simp only [SQ_CTX_STAT_PC, SQ_CTX_STAT]; omega))).trans h.place
  eng := (get_settle _ _ _ (sqField_notPba (g := l) 0xB030 rfl)).trans h.eng
  groups := (settle_groups ..).trans h.groups
  frame := h.frame.trans (Frame.settle ..)

/-- What leaves the waits of an engine leaves its hold. -/
theorem Holds.setEngine {s t : State} {l c : Nat} {i : Native} {kind : WaitKind} {w : Fld → Prop} (h : Holds s t l c i kind w) (hl : l < 32)
    {y : Engine} (same : y.waits = (t.engine l).waits) : Holds s (t.setEngine l y) l c i kind w where
  wait := by
    unfold State.ctxWait
    rw [State.engine_setEngine _ _ _ hl, same]
    exact h.wait
  place := (State.get_setEngine ..).trans h.place
  eng := (State.get_setEngine ..).trans h.eng
  groups := (State.setEngine_groups ..).trans h.groups
  frame := h.frame.trans (.setEngine _ _ _ _ _ (by simp))

section
variable {s : State} {l c : Nat} {i : Native} (h : s.Stands l c i)
include h

theorem State.Stands.waiting_holds (word : BitVec 144) (m : Micro) :
    Holds s (s.waiting l c word m) l c i (s.holdKind l c m.hold i (s.slotTime l)) (fun _ => False) := by
  obtain ⟨instr, _⟩ := h.entered
  unfold State.waiting
  extract_lets s1
  have waits : vget (s1.engine l).waits c none = some (s.waitBegun l c word m) := by
    have own : s1.engine l = _ := State.engine_setEngine _ _ _ h.engine
    rw [own]
    exact vget_vset _ _ _ _ h.ctx
  have gets : ∀ y, s1.get y = s.get y := State.get_setEngine _ _ _
  have groups : s1.groups = s.groups := State.setEngine_groups ..
  have frame : Frame s s1 [.engines] (fun y => y = SQ_STAT_ENG l ∨ False) := .setEngine _ _ _ _ _ (by simp)
  clear_value s1
  refine ⟨⟨s.waitBegun l c word m, ?_, congrArg (s.holdKind l c m.hold · (s.slotTime l)) instr, instr, rfl⟩, ?_, ?_, ?_, ?_⟩
  · unfold State.ctxWait
    rw [State.engine_congr (State.set_engines ..), State.engine_setEngine _ _ _ h.engine]
    exact waits
  · unfold State.ctxPc
    rw [State.get_set_apart _ (SQ_STAT_ENG l) (SQ_CTX_STAT_PC l c) _ (Fld.inWord_of _ rfl)
      (.inl (by simp only [SQ_STAT_ENG, SQ_STAT, SQ_CTX_STAT_PC, SQ_CTX_STAT]; omega)), State.get_setEngine, gets]
  · rw [State.get_set _ _ _ (Fld.inWord_of _ rfl)]
    rfl
  · rw [State.set_groups, State.setEngine_groups, groups]
  · exact (frame.trans (.setEngine _ _ _ _ _ (by simp))).trans (.set _ _ _ _ _ (Fld.inWord_of _ rfl) (.inl rfl))

theorem State.Stands.hold_runs {op hold : Nat} (code : opOf i = op) (routine : HoldRoutine op hold) (holds : hold ≠ 0) {p : Native → Bool}
    (kind : p i = true) (n : Nat) : ∃ word m, m.hold = hold ∧ s.runRow l (n + 1) p = s.startHold l c word m := by
  obtain ⟨entry, hold_, noTrap⟩ := routine
  obtain ⟨_, _, _, upc, _⟩ := h.entered
  rw [code] at upc
  have on : ((vendorMicro (DispEntry.make (vendorDispatch.getD op 0)).maddr).hold != 0) = true := by
    rw [hold_]
    exact bne_iff_ne.2 holds
  have micro : ∃ word, s.micro l = (s.startHold l c word (vendorMicro (DispEntry.make (vendorDispatch.getD op 0)).maddr), false) := by
    have word := h.microAt upc entry
    unfold State.micro
    rw [h.runs]
    dsimp only
    rw [upc] at word ⊢
    rw [h.fetchEntry entry, word, noTrap, hold_, h.store _ entry, CsEntry.badSlices_make, if_neg (by decide), if_neg (by decide), if_pos holds]
    exact ⟨_, rfl⟩
  obtain ⟨word, micro⟩ := micro
  refine ⟨word, _, hold_, ?_⟩
  rw [h.runRow_eq upc entry (by rw [on, Bool.or_true]) kind (.inr (by rw [micro])), micro]

end

/-- A wait that neither arrives nor ends its turn (R277 to R279). -/
theorem State.Stands.wait_runs {s : State} {l c : Nat} {i : Native} (h : s.Stands l c i) {op hold : Nat} (code : opOf i = op)
    (routine : HoldRoutine op hold) (holds : hold ≠ 0) {p : Native → Bool} (kind : p i = true) (n : Nat) {k : WaitKind}
    (is : s.holdKind l c hold i (s.slotTime l) = k) (plain : (∀ b, k ≠ .barrier b) ∧ ∀ d, k ≠ .swc d) :
    RunsTo (done s (s.runRow l (n + 1) p)) fun t => Holds s t l c i k (fun _ => False) := by
  obtain ⟨word, m, hold_, row⟩ := h.hold_runs code routine holds kind n
  have started := h.waiting_holds word m
  rw [hold_, is] at started
  rw [row, State.startHold_eq, hold_, h.entered.1, is]
  refine runsTo_done _ _ _ ?_
  obtain ⟨noBarrier, noSwc⟩ := plain
  cases k with
  | barrier b => exact absurd rfl (noBarrier b)
  | swc d => exact absurd rfl (noSwc d)
  | angle | phase | time | event => exact started.settle

theorem State.barrierSet_congr {s u : State} {b : Nat} (mask : u.get (SQ_BAR_MASK_MASK 0 b) = s.get (SQ_BAR_MASK_MASK 0 b))
    (gang : ∀ l, u.get (SQ_GANG_M l) = s.get (SQ_GANG_M l)) : u.barrierSet b = s.barrierSet b := by
  unfold State.barrierSet State.leadersOf State.isLeader State.members State.leader
  simp only [mask, gang]

theorem State.barrierSelf_of_local (s : State) {b : Nat} (here : s.on (SQ_BAR_CTL_DOM 0 b) = false) : s.barrierSelf b = s := by
  unfold State.barrierSelf
  rw [here]
  rfl

/-- R250: the arrival of a wait at a local barrier is recorded. -/
theorem Holds.arrives {s u : State} {e : Nat} {c : Nat} {i : Native} {b : Fin 8} (h : Holds s u e c i (.barrier b) (fun _ => False)) (he : e < 32)
    (hc : c < 32) (takesPart : (s.barrierSet b).contains e = true) (here : s.on (SQ_BAR_CTL_DOM 0 b) = false) {w : Time} :
    let t := u.arrive e c b w
    Holds s t e c i (.barrier b) (fun y => y = SQ_BAR_ARR_ARR 0 b) ∧ t.bit (SQ_BAR_ARR_ARR 0 b) e ∧
      vget (t.engine e).arrived b none = some w := by
  have hb := b.isLt
  have gets : ∀ {y : Fld} (g a : Nat), y.reg.addr = groupBase g + a → 0xB020 ≤ a → a < 0xB160 → a ≠ 0xB030 → u.get y = s.get y :=
    fun {y} g a hy lo hi ne => h.frame.reg y (sqField_notPba a hy) fun z hz => .inl (by
      obtain rfl | hz := hz
      · rw [hy]
        simp only [SQ_STAT_ENG, SQ_STAT, groupBase]
        omega
      · exact hz.elim)
  have set : u.barrierSet b = s.barrierSet b := State.barrierSet_congr
    (gets 0 (0xB100 + 8 * b) (by simp only [SQ_BAR_MASK_MASK, SQ_BAR_MASK]; omega) (by omega) (by omega) (by omega))
    fun l => gets l 0xB020 rfl (by omega) (by omega) (by omega)
  have still : u.on (SQ_BAR_CTL_DOM 0 b) = false := (State.on_congr
    (gets 0 (0xB104 + 8 * b) (by simp only [SQ_BAR_CTL_DOM, SQ_BAR_CTL]; omega) (by omega) (by omega) (by omega))).trans here
  have arrAt : (SQ_BAR_ARR_ARR 0 b).reg.addr = groupBase 0 + (0xB140 + 4 * b) := by
    simp only [SQ_BAR_ARR_ARR, SQ_BAR_ARR]
    omega
  have arr : (SQ_BAR_ARR_ARR 0 b).inWord := Fld.inWord_of _ rfl
  have apart : ∀ {y : Fld} (g a : Nat), y.reg.addr = groupBase g + a → a < 0xB140 ∨ 0xB160 ≤ a → a < 0x10000 → (SQ_BAR_ARR_ARR 0 b).apart y :=
    fun g a hy out small => .inl (by
      rw [arrAt, hy]
      simp only [groupBase]
      omega)
  have arrives : u.arrive e c b w =
      (u.setBit (SQ_BAR_ARR_ARR 0 b) e true).setEngine e
        { (u.setBit (SQ_BAR_ARR_ARR 0 b) e true).engine e with
          arrived := vset ((u.setBit (SQ_BAR_ARR_ARR 0 b) e true).engine e).arrived b (some w) } := by
    unfold State.arrive
    rw [set, takesPart, if_pos rfl]
    refine State.barrierSelf_of_local _ ((State.on_congr ?_).trans still)
    rw [State.get_setEngine]
    exact State.get_set_apart _ _ _ _ arr (apart 0 (0xB104 + 8 * b) (by simp only [SQ_BAR_CTL_DOM, SQ_BAR_CTL]; omega) (by omega) (by omega))
  intro t
  have is : t = _ := arrives
  clear_value t
  subst is
  obtain ⟨wait, place, eng, groups, frame⟩ := h
  refine ⟨⟨?_, ?_, ?_, ?_, ?_⟩, ?_, ?_⟩
  · unfold State.ctxWait
    rw [State.engine_setEngine _ _ _ he]
    have same : (u.setBit (SQ_BAR_ARR_ARR 0 b) e true).engine e = u.engine e := State.engine_congr (State.set_engines ..) e
    dsimp only
    rw [same]
    exact wait
  · unfold State.ctxPc
    rw [State.get_setEngine]
    exact (State.get_set_apart _ _ _ _ arr (apart e (0xB400 + 0x60 * c) (by simp only [SQ_CTX_STAT_PC, SQ_CTX_STAT]; omega) (by omega)
      (by omega))).trans place
  · rw [State.get_setEngine]
    exact (State.get_set_apart _ _ _ _ arr (apart e 0xB030 rfl (by omega) (by omega))).trans eng
  · rw [State.setEngine_groups]
    exact (State.set_groups ..).trans groups
  · exact ((frame.mono (fun _ => id) fun y hy => hy.imp_right False.elim).trans (.setBit _ _ (fun y => y = SQ_STAT_ENG e ∨ y = SQ_BAR_ARR_ARR 0 b) _ _ _ arr
      (.inr rfl))).trans
      (.setEngine _ _ _ _ _ (by simp))
  · unfold State.bit
    rw [State.get_setEngine]
    refine (State.bit_setBit _ _ _ _ _ arr he).trans (if_pos rfl)
  · rw [State.engine_setEngine _ _ _ he]
    exact vget_vset _ _ _ _ hb

section
variable {s : State} {e : EngineIx} {c : Fin 32} {i : Native} (h : s.Stands e c i)
include h

theorem waitph_angle_runs (code : opOf i = 0x10) (mode : modOf i % 4 ≠ 1) : RunsTo (exec (.waitph e) s) fun t =>
    Holds s t e c i (.angle (BitVec.ofNat 32 (aOf i * 256 + cOf i))) (fun _ => False) :=
  h.wait_runs code holds_waitph (by decide) (p := fun i => opOf i == 0x10) (beq_iff_eq.2 code) 2047 (if_neg mode) ⟨fun _ => nofun, fun _ => nofun⟩

theorem waitph_phase_runs (code : opOf i = 0x10) (mode : modOf i % 4 = 1) : RunsTo (exec (.waitph e) s) fun t =>
    Holds s t e c i (.phase (s.phase + BitVec.ofNat 64 (bOf i * 2 ^ 32 + aOf i * 256 + cOf i))) (fun _ => False) := by
  rw [Nat.add_assoc]
  exact h.wait_runs code holds_waitph (by decide) (p := fun i => opOf i == 0x10) (beq_iff_eq.2 code) 2047 (if_pos mode)
    ⟨fun _ => nofun, fun _ => nofun⟩

theorem waitt_delay_runs (code : opOf i = 0x11) (mode : modOf i % 4 ≠ 1) : RunsTo (exec (.waitt e) s) fun t =>
    Holds s t e c i (.time (later (s.slotTime e) (bOf i * 2 ^ 24 + aOf i))) (fun _ => False) :=
  h.wait_runs code holds_waitt (by decide) (p := fun i => opOf i == 0x11) (beq_iff_eq.2 code) 2047 (if_neg mode) ⟨fun _ => nofun, fun _ => nofun⟩

theorem waitt_time_runs (code : opOf i = 0x11) (mode : modOf i % 4 = 1) : RunsTo (exec (.waitt e) s) fun t =>
    Holds s t e c i (.time (BitVec.ofNat 56 (s.ctxQ e c (cOf i + 0) + s.ctxQ e c (cOf i + 1) * 2 ^ 24 +
      s.ctxQ e c (cOf i + 2) % 2 ^ 8 * 2 ^ 48))) (fun _ => False) :=
  h.wait_runs code holds_waitt (by decide) (p := fun i => opOf i == 0x11) (beq_iff_eq.2 code) 2047 (if_pos mode) ⟨fun _ => nofun, fun _ => nofun⟩

theorem waitev_runs (code : opOf i = 0x12) : RunsTo (exec (.waitev e) s) fun t =>
    Holds s t e c i (.event (BitVec.ofNat 8 (modOf i)) (if bOf i = 0 then none else some (later (s.slotTime e) (1600 * bOf i))))
      (fun _ => False) :=
  h.wait_runs code holds_waitev (by decide) (p := fun i => opOf i == 0x12) (beq_iff_eq.2 code) 2047 rfl ⟨fun _ => nofun, fun _ => nofun⟩

/-- R250: an engine that barrier b names is among those that arrive at it. -/
theorem State.Stands.mem_barrierSet {b : Nat} (bit : s.bit (SQ_BAR_MASK_MASK 0 b) e) : (s.barrierSet b).contains e = true := by
  obtain ⟨rest, head⟩ := State.members_head h.leads
  have own : (s.members e).any (s.get (SQ_BAR_MASK_MASK 0 b)).testBit = true := by
    rw [head]
    exact List.any_eq_true.2 ⟨e, List.mem_cons_self, bit⟩
  have lead : s.isLeader e = true := beq_iff_eq.2 h.leads
  refine List.contains_iff_mem.2 (List.mem_filter.2 ⟨List.mem_range.2 e.isLt, ?_⟩)
  rw [lead, own]
  rfl

theorem sync_runs (b : Fin 8) (code : opOf i = 0x13) (operand : cOf i % 8 = b) (bit : s.bit (SQ_BAR_MASK_MASK 0 b) e)
    (here : s.on (SQ_BAR_CTL_DOM 0 b) = false) : RunsTo (exec (.sync e) s) fun t =>
      Holds s t e c i (.barrier b) (fun y => y = SQ_BAR_ARR_ARR 0 b) ∧ t.bit (SQ_BAR_ARR_ARR 0 b) e ∧
      vget (t.engine e).arrived b none = some (s.slotTime e) := by
  obtain ⟨word, m, hold_, row⟩ := h.hold_runs code holds_sync (by decide) (p := fun i => opOf i == 0x13) (beq_iff_eq.2 code) 2047
  have kind : s.holdKind e c 4 i (s.slotTime e) = .barrier b := congrArg WaitKind.barrier operand
  have started := h.waiting_holds word m
  rw [hold_, kind] at started
  change RunsTo (done s (s.runRow e 2048 fun i => opOf i == 0x13)) _
  rw [row, State.startHold_eq, hold_, h.entered.1, kind]
  generalize s.waiting e c word m = u at started
  obtain ⟨held, bit, arrived⟩ := started.arrives h.engine h.ctx (h.mem_barrierSet bit) here (w := s.slotTime e)
  refine runsTo_done _ _ _ ⟨held.settle, ?_, ?_⟩
  · unfold State.bit
    rw [get_settle _ _ _ (sqField_notPba (g := 0) (0xB140 + 4 * b) (by simp only [SQ_BAR_ARR_ARR, SQ_BAR_ARR]; omega))]
    exact bit
  · rw [engine_settle]
    exact arrived

theorem swc_runs (code : opOf i = 0x18) : RunsTo (exec (.swc e) s) fun t =>
    Holds s t e c i (.swc (cOf i % 32)) (fun _ => False) ∧ t.nextSlot e = s.nextSlot e + 2048 := by
  obtain ⟨word, m, hold_, row⟩ := h.hold_runs code holds_swc (by decide) (p := fun i => opOf i == 0x18) (beq_iff_eq.2 code) 2047
  have started := h.waiting_holds word m
  rw [hold_] at started
  change RunsTo (done s (s.runRow e 2048 fun i => opOf i == 0x18)) _
  rw [row, State.startHold_eq, hold_, h.entered.1]
  change RunsTo (done s ((s.waiting e c word m).holdTo e (s.nextSlot e + 2048))) _
  generalize s.waiting e c word m = u at started
  have held : Holds s (u.holdTo e (s.nextSlot e + 2048)) e c i (.swc (cOf i % 32)) (fun _ => False) := started.setEngine h.engine (by rfl)
  refine runsTo_done _ _ _ ⟨held.settle, ?_⟩
  unfold State.holdTo State.nextSlot
  rw [engine_settle, State.engine_setEngine _ _ _ h.engine]
  rfl

end
/-! ### A wait is released (R232, R303, R306) -/

/-- A repetition of which one element acts. -/
theorem State.forEach_one {f : State → Nat → State} {s t : State} {ns : List Nat} {k : Nat} (mem : k ∈ ns) (each : ns.Nodup) (acts : f s k = t)
    (before : ∀ n ∈ ns, n ≠ k → f s n = s) (after : ∀ n ∈ ns, n ≠ k → f t n = t) : s.forEach ns f = t := by
  have idle : ∀ {u : State} (l : List Nat), (∀ n ∈ l, f u n = u) → l.foldl f u = u := fun {u} l h => by
    induction l with
    | nil => rfl
    | cons n l ih => rw [List.foldl_cons, h n List.mem_cons_self, ih fun m hm => h m (List.mem_cons_of_mem _ hm)]
  obtain ⟨l, r, rfl⟩ := List.append_of_mem mem
  obtain ⟨_, right, apart⟩ := List.nodup_append.1 each
  have notLeft : ∀ n ∈ l, n ≠ k := fun n hn e => apart n hn k List.mem_cons_self e
  have notRight : ∀ n ∈ r, n ≠ k := fun n hn e => (List.nodup_cons.1 right).1 (e ▸ hn)
  unfold State.forEach
  rw [List.foldl_append, List.foldl_cons, idle l fun n hn => before n (List.mem_append_left _ hn) (notLeft n hn), acts]
  exact idle r fun n hn => after n (List.mem_append_right _ (List.mem_cons_of_mem _ hn)) (notRight n hn)

/-- Where no dispatch entry of the engine is bad, dispatch enters the instruction at the PC (R304, R305). -/
theorem State.dispatch_good (s : State) (l c : Nat) (good : ∀ op < 256, (s.dispEntry l op).bad = false) :
    ∃ y : Engine, s.dispatch l c = s.setEngine l y ∧ y.dispatched = true ∧ y.instr = s.iStore l (s.ctxPc l c) ∧
      y.waits = (s.engine l).waits ∧ y.afterHold = (s.engine l).afterHold ∧ y.slotB = (s.engine l).slotB ∧
      y.arrived = (s.engine l).arrived := by
  have fine := good _ (opOf_lt (s.iStore l (s.ctxPc l c)))
  have fetch : s.fetchDisp l (opOf (s.iStore l (s.ctxPc l c))) = s := by
    unfold State.fetchDisp
    split
    · exact if_pos (by rw [fine]; rfl)
    · rfl
  unfold State.dispatch
  dsimp only
  rw [fetch, fine, if_neg (by decide)]
  exact ⟨_, rfl, rfl, rfl, rfl, rfl, rfl, rfl⟩

/-- The microword of a wait. -/
def holdMicro (hold : Nat) (clrt : Bool) (ctxop : Nat) : Micro := { plainMicro with issue := false, hold := hold, clrt := clrt, ctxop := ctxop }

theorem micro_waitt : Micro.of (vendorHold 2 []) = holdMicro 2 false 0 := by decide
theorem micro_waitev : Micro.of (vendorHold 3 [(40, 1)]) = holdMicro 3 true 0 := by decide
theorem micro_swc : Micro.of (vendorHold 5 [(41, 3)]) = holdMicro 5 false 3 := by decide

/-- The fields of a wait's microword act at its release: the PC advances and RES is 0. -/
def State.advanced (s : State) (l c : Nat) : State :=
  (s.set (SQ_CTX_STAT_PC l c) (pcNext (s.ctxPc l c))).set (SQ_CTX_RES_RES l c) 0

theorem State.settings_hold (s : State) (l c : Nat) {hold ctxop : Nat} {clrt : Bool} (op : ctxop = 0 ∨ ctxop = 3) (i : Native) :
    s.settings l c (holdMicro hold clrt ctxop) i = (s, false) := by
  rcases op with rfl | rfl <;> rfl

theorem State.finalFields_hold (u : State) (l c : Nat) {hold ctxop : Nat} {clrt : Bool} (i : Native) {test clr : Bool} (vc : Nat) (w : Time)
    (noClr : (clrt && clr) = false) : u.finalFields l c (holdMicro hold clrt ctxop) i test clr vc w =
      (u.set (SQ_CTX_STAT_PC l c) (pcNext (u.ctxPc l c)), u.ctxPc l c == 16383) := by
  have same : u.aluUnit l c (holdMicro hold clrt ctxop) i vc w = u := if_pos rfl
  unfold State.finalFields
  rw [same]
  change (if (clrt && clr) = true then _ else _, _) = _
  rw [noClr]
  rfl

theorem State.execute_held (s : State) (l c : Nat) {hold ctxop : Nat} {clrt : Bool} (op : ctxop = 0 ∨ ctxop = 3) (x : Exec) (held : x.held = true)
    (runs : x.runs = true) (clr : (clrt && x.clr) = false) :
    ∃ test, s.execute l c (holdMicro hold clrt ctxop) x =
      ((s.setEngine l { s.engine l with cnt := x.cnt, va := x.va, clampEv := x.clampEv }).advanced l c).afterFinal l c
        (holdMicro hold clrt ctxop) x test (x.clampEv || s.ctxPc l c == 16383) := by
  refine ⟨s.condTrue l c x.instr, ?_⟩
  have issue : (holdMicro hold clrt ctxop).issue = false := rfl
  have noReq : ((holdMicro hold clrt ctxop).xreq == 6) = false := rfl
  have count : (holdMicro hold clrt ctxop).cntdec = false := rfl
  have next : (holdMicro hold clrt ctxop).vainc = false := rfl
  have quiet : (holdMicro hold clrt ctxop).clampev = false := rfl
  have tsel : (holdMicro hold clrt ctxop).tsel = 0 := rfl
  have noLast : ((0 : Nat) == 1) = false := rfl
  unfold State.execute State.microTest
  simp only [issue, noReq, count, next, quiet, tsel, noLast, held, runs, State.settings_hold _ _ _ op, State.finalFields_hold _ _ _ _ _ _ clr,
    Bool.true_or, Bool.true_and, Bool.false_and, Bool.and_false, Bool.or_false, Bool.not_true, if_true, if_false, Bool.false_eq_true]
  have place : ∀ y, (s.setEngine l y).ctxPc l c = s.ctxPc l c := fun _ => State.get_setEngine ..
  unfold State.advanced
  simp only [place]

/-- What the release of a running context's wait leaves, before its next instruction: the PC advances and the clamps are noted. -/
structure Released (s u : State) (l c : Nat) : Prop where
  place : u.ctxPc l c = pcNext (s.ctxPc l c)
  eng : u.get (SQ_STAT_ENG l) = engIssue
  waits : (u.engine l).waits = vset (s.engine l).waits c none
  frame : Frame s u [.engines] (· ∈ [SQ_CTX_STAT_PC l c, SQ_CTX_RES_RES l c, SQ_STAT_ENG l, SQ_CLAMP_COUNT_COUNT l, SQ_FLAGS_CLAMP l,
    SQ_CLAMP_LAST_PC l])

theorem Frame.advanced (s : State) (l c : Nat) : Frame s (s.advanced l c) [] (· ∈ [SQ_CTX_STAT_PC l c, SQ_CTX_RES_RES l c]) :=
  (Frame.set _ _ _ _ _ (Fld.inWord_of _ rfl) (by simp)).trans (.set _ _ _ _ _ (Fld.inWord_of _ rfl) (by simp))

theorem State.engine_advanced (s : State) (l c e : Nat) : (s.advanced l c).engine e = s.engine e :=
  State.engine_congr ((Frame.advanced s l c).part .engines (by simp)) e

theorem Frame.noteClamp (s : State) (l pc : Nat) (k : Bool) : Frame s (s.noteClamp l pc k) []
    (· ∈ [SQ_CLAMP_COUNT_COUNT l, SQ_FLAGS_CLAMP l, SQ_CLAMP_LAST_PC l]) := by
  unfold State.noteClamp State.programClamp
  split
  · exact ((Frame.count _ _ _ _ _ (Fld.inWord_of _ rfl) (by simp)).trans (.raise _ _ _ _ (Fld.inWord_of _ rfl) (by simp))).trans
      (.set _ _ _ _ _ (Fld.inWord_of _ rfl) (by simp))
  · exact .refl ..

theorem State.engine_noteClamp (s : State) (l pc : Nat) (k : Bool) (e : Nat) : (s.noteClamp l pc k).engine e = s.engine e :=
  State.engine_congr ((Frame.noteClamp s l pc k).part .engines (by simp)) e

theorem State.ctxPc_advanced (s : State) {l c : Nat} : (s.advanced l c).ctxPc l c = pcNext (s.ctxPc l c) := by
  unfold State.advanced State.ctxPc
  rw [State.get_set_apart _ (SQ_CTX_RES_RES l c) (SQ_CTX_STAT_PC l c) _ (Fld.inWord_of _ rfl)
    (.inl (by simp only [SQ_CTX_RES_RES, SQ_CTX_RES, SQ_CTX_STAT_PC, SQ_CTX_STAT]; omega)), State.get_set _ _ _ (Fld.inWord_of _ rfl)]
  exact Nat.mod_eq_of_lt (pcNext_lt _)

/-- R303: a released context that runs is about to complete its microword. -/
def State.resumed (s : State) (l : Nat) (x : Wait) (n : Time) : State :=
  let u := match x.kind with
    | .swc _ => s
    | _ => s.holdTo l (tickOf (later n 8))
  (u.setEngine l { u.engine l with dispatched := true, instr := x.instr, ipc := x.ipc, fresh := false }).set (SQ_STAT_ENG l) engIssue

/-- What an engine does leaves the other engines, and its own arrivals at barriers. -/
structure OwnEngine (s t : State) (l : Nat) : Prop where
  others : ∀ k, k ≠ l → t.engine k = s.engine k
  arrived : (t.engine l).arrived = (s.engine l).arrived

theorem OwnEngine.trans {s t u : State} {l : Nat} (h : OwnEngine s t l) (k : OwnEngine t u l) : OwnEngine s u l :=
  ⟨fun x hx => (k.others x hx).trans (h.others x hx), k.arrived.trans h.arrived⟩

theorem OwnEngine.of_engines {s t : State} (l : Nat) (h : t.engines = s.engines) : OwnEngine s t l :=
  ⟨fun k _ => State.engine_congr h k, congrArg Engine.arrived (State.engine_congr h l)⟩

theorem OwnEngine.setEngine (s : State) {l : Nat} (hl : l < 32) {y : Engine} (h : y.arrived = (s.engine l).arrived) :
    OwnEngine s (s.setEngine l y) l :=
  ⟨fun _ hk => State.engine_setEngine_ne _ _ _ _ (Ne.symm hk), by rw [State.engine_setEngine _ _ _ hl, h]⟩

theorem resumed_own (s : State) {l : Nat} (hl : l < 32) (b : Tick) (i : Native) (ipc : Nat) :
    OwnEngine s ((s.holdTo l b).setEngine l { (s.holdTo l b).engine l with dispatched := true, instr := i, ipc := ipc, fresh := false }) l :=
  have held : OwnEngine s (s.holdTo l b) l := .setEngine _ hl rfl
  held.trans (OwnEngine.setEngine (s.holdTo l b)
    (y := { (s.holdTo l b).engine l with dispatched := true, instr := i, ipc := ipc, fresh := false }) hl rfl)

/-- A state that a setting of the engine and of ENG leaves. -/
theorem State.resumed_eq (s : State) {l : Nat} (hl : l < 32) (x : Wait) (n : Time) : ∃ u, s.resumed l x n = u.set (SQ_STAT_ENG l) engIssue ∧
    (u.engine l).waits = (s.engine l).waits ∧ (u.engine l).halting = (s.engine l).halting ∧
    ((∀ d, x.kind ≠ .swc d) → (u.engine l).afterHold = true ∧ (u.engine l).slotB = tickOf (later n 8)) ∧
    (∀ y, u.get y = s.get y) ∧ OwnEngine s u l ∧ ∀ w, Frame s u [.engines] w := by
  unfold State.resumed State.holdTo
  cases x.kind with
  | swc d =>
    refine ⟨_, rfl, ?_, ?_, fun h => absurd rfl (h d), State.get_setEngine _ _ _,
      OwnEngine.setEngine s (y := { s.engine l with dispatched := true, instr := x.instr, ipc := x.ipc, fresh := false }) hl rfl,
      fun w => .setEngine _ _ _ _ _ (by simp)⟩ <;>
      rw [State.engine_setEngine _ _ _ hl]
  | angle | phase | time | event | barrier =>
    refine ⟨_, rfl, ?_, ?_, fun _ => ?_, fun y => (State.get_setEngine ..).trans (State.get_setEngine ..),
      resumed_own _ hl _ _ _, fun w => (Frame.setEngine _ _ _ _ _ (by simp)).trans (.setEngine _ _ _ _ _ (by simp))⟩
    iterate 2
      · rw [State.engine_setEngine _ _ _ hl]
        dsimp only
        rw [State.engine_setEngine _ _ _ hl]
    · rw [State.engine_setEngine _ _ _ hl]
      dsimp only
      rw [State.engine_setEngine _ _ _ hl]
      exact ⟨rfl, rfl⟩

/-- The release of the wait of a running context, up to the end of its instruction (R303). -/
theorem State.release_eq (s : State) {l c : Nat} (hl : l < 32) {x : Wait} (wait : s.ctxWait l c = some x)
    (runs : s.running l = some c) {hold ctxop : Nat} {clrt clr : Bool} (op : ctxop = 0 ∨ ctxop = 3) (micro : Micro.of x.micro = holdMicro hold clrt ctxop)
    (noClr : (clrt && clr) = false) (n : Time) : ∃ u test k, s.releaseWait l c n clr =
      (u.afterFinal l c (holdMicro hold clrt ctxop) (x.exec n true clr) test k).1 ∧
      (∀ pc k, Released s (u.noteClamp l pc k) l c) ∧
      (u.engine l).halting = (s.engine l).halting ∧
      ((∀ d, x.kind ≠ .swc d) → (u.engine l).afterHold = true ∧ (u.engine l).slotB = tickOf (later n 8)) ∧
      OwnEngine s u l ∧ Frame s u [.engines] (· ∈ [SQ_CTX_STAT_PC l c, SQ_CTX_RES_RES l c, SQ_STAT_ENG l]) := by
  have eq : s.releaseWait l c n clr =
      (((s.setWait l c none).resumed l x n).execute l c (holdMicro hold clrt ctxop) (x.exec n true clr)).1 := by
    have still : (s.setWait l c none).running l = some c := by
      unfold State.running State.setWait
      rw [State.get_setEngine, State.get_setEngine]
      exact runs
    unfold State.releaseWait
    rw [wait]
    dsimp only
    rw [if_pos still, micro]
    rfl
  obtain ⟨u, resumed, waits, halting, slot, gets, alone, frame⟩ := (s.setWait l c none).resumed_eq hl x n
  obtain ⟨test, run⟩ := ((s.setWait l c none).resumed l x n).execute_held l c (hold := hold) op (x.exec n true clr) rfl rfl noClr
  rw [run, resumed] at eq
  refine ⟨_, test, _, eq, ?_⟩
  have own : ∀ y, (u.set (SQ_STAT_ENG l) engIssue).engine y = u.engine y := State.engine_congr (State.set_engines ..)
  rw [own]
  have start : Frame s u [.engines] (fun _ => False) := (Frame.setEngine _ _ _ _ _ (by simp)).trans (frame _)
  have waitsGone : (u.engine l).waits = vset (s.engine l).waits c none := by
    rw [waits, State.setWait, State.engine_setEngine _ _ _ hl]
  generalize hy : { u.engine l with cnt := (x.exec n true clr).cnt, va := (x.exec n true clr).va, clampEv := (x.exec n true clr).clampEv } = y
  have same : y.waits = (u.engine l).waits ∧ y.halting = (u.engine l).halting ∧ y.afterHold = (u.engine l).afterHold ∧
      y.slotB = (u.engine l).slotB ∧ y.arrived = (u.engine l).arrived := by
    subst hy
    exact ⟨rfl, rfl, rfl, rfl, rfl⟩
  have engine : ((((u.set (SQ_STAT_ENG l) engIssue).setEngine l y).advanced l c).engine l) = y := by
    rw [State.engine_advanced, State.engine_setEngine _ _ _ hl]
  have reach : Frame s (((u.set (SQ_STAT_ENG l) engIssue).setEngine l y).advanced l c) [.engines]
      (· ∈ [SQ_CTX_STAT_PC l c, SQ_CTX_RES_RES l c, SQ_STAT_ENG l]) :=
    (((start.mono (fun _ => id) fun _ => False.elim).trans (.set _ _ _ _ _ (Fld.inWord_of _ rfl) (by simp))).trans
      (.setEngine _ _ _ _ _ (by simp))).trans ((Frame.advanced _ l c).mono (by simp) fun z hz => by
        simp only [List.mem_cons, List.not_mem_nil, or_false] at hz ⊢
        tauto)
  have gets : ∀ z, z = SQ_CTX_STAT_PC l c → ((u.set (SQ_STAT_ENG l) engIssue).setEngine l y).get z = s.get z := fun z hz => by
    rw [State.get_setEngine, State.get_set_apart _ _ _ _ (Fld.inWord_of _ rfl), gets, State.setWait, State.get_setEngine]
    rw [hz]
    exact .inl (by simp only [SQ_STAT_ENG, SQ_STAT, SQ_CTX_STAT_PC, SQ_CTX_STAT]; omega)
  have own : OwnEngine s (((u.set (SQ_STAT_ENG l) engIssue).setEngine l y).advanced l c) l :=
    ((((OwnEngine.setEngine s (y := { s.engine l with waits := vset (s.engine l).waits c none }) hl rfl).trans alone).trans (.of_engines l (State.set_engines ..))).trans
      (.setEngine _ hl (by rw [same.2.2.2.2, own]))).trans (.of_engines l ((Frame.advanced _ l c).part .engines (by simp)))
  refine ⟨fun pc k => ?_, ?_, fun plain => ?_, own, reach⟩
  · have noted := Frame.noteClamp (((u.set (SQ_STAT_ENG l) engIssue).setEngine l y).advanced l c) l pc k
    refine ⟨?_, ?_, ?_, ?_⟩
    · have kept := noted.reg (SQ_CTX_STAT_PC l c) (sqField_notPba (g := l) (0xB400 + 0x60 * c) (by simp only [SQ_CTX_STAT_PC, SQ_CTX_STAT]; omega))
        fun z hz => .inl (by
          simp only [List.mem_cons, List.not_mem_nil, or_false] at hz
          obtain rfl | rfl | rfl := hz <;>
            simp only [SQ_CTX_STAT_PC, SQ_CTX_STAT, SQ_CLAMP_COUNT_COUNT, SQ_CLAMP_COUNT, SQ_FLAGS_CLAMP, SQ_FLAGS, SQ_CLAMP_LAST_PC, SQ_CLAMP_LAST] <;>
            omega)
      refine Eq.trans kept (State.ctxPc_advanced _ |>.trans (congrArg pcNext (gets _ rfl)))
    · have kept := noted.reg (SQ_STAT_ENG l) (sqField_notPba (g := l) 0xB030 rfl) fun z hz => .inl (by
          simp only [List.mem_cons, List.not_mem_nil, or_false] at hz
          obtain rfl | rfl | rfl := hz <;> simp [SQ_STAT_ENG, SQ_STAT, SQ_CLAMP_COUNT_COUNT, SQ_CLAMP_COUNT, SQ_FLAGS_CLAMP, SQ_FLAGS,
            SQ_CLAMP_LAST_PC, SQ_CLAMP_LAST])
      have moved := (Frame.advanced ((u.set (SQ_STAT_ENG l) engIssue).setEngine l y) l c).reg (SQ_STAT_ENG l) (sqField_notPba (g := l) 0xB030 rfl)
        fun z hz => .inl (by
          simp only [List.mem_cons, List.not_mem_nil, or_false] at hz
          obtain rfl | rfl := hz <;> simp only [SQ_STAT_ENG, SQ_STAT, SQ_CTX_STAT_PC, SQ_CTX_STAT, SQ_CTX_RES_RES, SQ_CTX_RES] <;> omega)
      rw [kept, moved, State.get_setEngine, State.get_set _ _ _ (Fld.inWord_of _ rfl)]
      rfl
    · rw [State.engine_noteClamp, engine, same.1, waitsGone]
    · exact (reach.mono (fun _ => id) fun z hz => by
        simp only [List.mem_cons, List.not_mem_nil, or_false] at hz ⊢
        tauto).trans (noted.mono (by simp) fun z hz => by
        simp only [List.mem_cons, List.not_mem_nil, or_false] at hz ⊢
        tauto)
  · rw [engine, same.2.1, halting, State.setWait, State.engine_setEngine _ _ _ hl]
  · rw [engine, same.2.2.1, same.2.2.2.1]
    exact slot plain

/-- The wait of a running context is over: its next instruction is dispatched. -/
structure Continues (s t : State) (l c : Nat) (n : Time) : Prop where
  place : t.ctxPc l c = pcNext (s.ctxPc l c)
  waits : (t.engine l).waits = vset (s.engine l).waits c none
  eng : t.get (SQ_STAT_ENG l) = engIssue
  slot : (t.engine l).afterHold = true ∧ (t.engine l).slotB = tickOf (later n 8)
  dispatched : (t.engine l).dispatched
  instr : (t.engine l).instr = s.iStore l (t.ctxPc l c)
  alone : OwnEngine s t l
  frame : Frame s t [.engines] (· ∈ [SQ_CTX_STAT_PC l c, SQ_CTX_RES_RES l c, SQ_STAT_ENG l, SQ_CLAMP_COUNT_COUNT l, SQ_FLAGS_CLAMP l,
    SQ_CLAMP_LAST_PC l])

theorem Continues.nextSlot {s t : State} {l c : Nat} {n : Time} (h : Continues s t l c n) : t.nextSlot l = tickOf (later n 8) := by
  unfold State.nextSlot
  rw [h.slot.1, if_pos rfl, h.slot.2]

theorem Continues.settle {s t : State} {l c : Nat} {n : Time} (h : Continues s t l c n) : Continues s (settle s t) l c n := by
  have place : (Machine.settle s t).ctxPc l c = t.ctxPc l c :=
    get_settle _ _ _ (sqField_notPba (g := l) (0xB400 + 0x60 * c) (by simp only [SQ_CTX_STAT_PC, SQ_CTX_STAT]; omega))
  have engine := engine_settle s t l
  refine ⟨place.trans h.place, ?_, (get_settle _ _ _ (sqField_notPba (g := l) 0xB030 rfl)).trans h.eng, ?_, ?_, ?_,
    h.alone.trans ⟨fun k _ => engine_settle s t k, congrArg Engine.arrived (engine_settle s t l)⟩, h.frame.trans (Frame.settle ..)⟩
  · rw [engine, h.waits]
  · rw [engine]
    exact h.slot
  · rw [engine]
    exact h.dispatched
  · rw [engine, place]
    exact h.instr

theorem State.releaseWait_continues (s : State) {l c : Nat} (hl : l < 32) {x : Wait} (wait : s.ctxWait l c = some x)
    (runs : s.running l = some c) (good : ∀ op < 256, (s.dispEntry l op).bad = false) (plain : ∀ d, x.kind ≠ .swc d) {hold : Nat} {clrt clr : Bool}
    (micro : Micro.of x.micro = holdMicro hold clrt 0) (noClr : (clrt && clr) = false) (n : Time) :
    Continues s (s.releaseWait l c n clr) l c n := by
  obtain ⟨u, test, k, eq, released, -, slot, alone, reach⟩ := s.release_eq hl wait runs (.inl rfl) micro noClr n
  rw [State.afterFinal_next _ _ _ (.inl rfl) _ _ rfl] at eq
  obtain ⟨place, eng, waits, frame⟩ := released (x.exec n true clr).ipc k
  have noted := State.engine_noteClamp u l (x.exec n true clr).ipc k
  generalize u.noteClamp l (x.exec n true clr).ipc k = v at eq place eng waits frame noted
  have entries : ∀ op < 256, (v.dispEntry l op).bad = false := fun op hop => by
    rw [← good op hop]
    unfold State.dispEntry
    rw [(frame.part .store (by simp)).2, (frame.part .image (by simp)).2]
  obtain ⟨y, dispatched, on, instr, waits', hold_, slot', arrived⟩ := v.dispatch_good l c entries
  rw [eq, dispatched]
  have own : (v.setEngine l y).engine l = y := State.engine_setEngine _ _ _ hl
  refine ⟨(State.get_setEngine ..).trans place, ?_, (State.get_setEngine ..).trans eng, ?_, ?_, ?_, ?_, frame.trans (.setEngine _ _ _ _ _ (by simp))⟩
  · rw [own, waits', waits]
  · rw [own, hold_, slot', noted l]
    exact slot plain
  · rw [own]
    exact on
  · have same : (v.setEngine l y).ctxPc l c = v.ctxPc l c := State.get_setEngine ..
    rw [own, instr, same, State.iStore_congr (frame.part .mem (by simp))]
  · exact (alone.trans ⟨fun j _ => noted j, congrArg Engine.arrived (noted l)⟩).trans (.setEngine _ hl arrived)

/-- A context of which the engine's only wait is: what follows its release finds no other. -/
theorem State.ctxWait_of_waits {s t : State} {l c d : Nat} (h : (t.engine l).waits = vset (s.engine l).waits c none) (ne : d ≠ c) :
    t.ctxWait l d = s.ctxWait l d := by
  unfold State.ctxWait
  rw [h, vget_vset_ne _ _ _ _ _ (Ne.symm ne)]

theorem waitRelease_runs {s : State} {e : EngineIx} {c : Fin 32} {x : Wait} {n : Time} (lead : s.isLeader e) (ok : s.inMchk e = false)
    (good : ∀ op < 256, (s.dispEntry e op).bad = false) (runs : s.running e = some c.val) (wait : s.ctxWait e c = some x) (kind : x.kind = .time n)
    (open_ : x.released = none) (micro : x.micro = vendorHold 2 []) (after : reached n (later x.since 1)) (due : reached s.time n)
    (alone : ∀ d < 32, d ≠ c.val → s.ctxWait e d = none) : RunsTo (exec (.waitRelease e) s) fun t => Continues s t e c n := by
  have ends : s.waitOver e c = some n := by
    unfold State.waitOver
    rw [wait]
    dsimp only
    rw [open_, kind]
    dsimp only
    rw [if_pos after, if_pos due]
  have continues := s.releaseWait_continues e.isLt wait runs good (by rw [kind]; exact fun _ => nofun) (clr := true)
    (by rw [micro]; exact micro_waitt) rfl n
  have none_ : ∀ {t : State} {d : Nat}, t.ctxWait e d = none → t.waitOver e d = none := fun h => by
    unfold State.waitOver
    rw [h]
  have releases : s.releaseOver e = s.releaseWait e c n true := by
    refine State.forEach_one (k := c.val) (List.mem_range.2 c.isLt) List.nodup_range ?_ (fun d hd ne => ?_) fun d hd ne => ?_
    · rw [ends]
    · rw [none_ (alone d (List.mem_range.1 hd) ne)]
    · rw [none_ ((State.ctxWait_of_waits continues.waits ne).trans (alone d (List.mem_range.1 hd) ne))]
  change RunsTo (doneIf (s.isLeader e && !s.inMchk e) s (s.releaseOver e)) _
  rw [doneIf_pos (by rw [lead, ok]; rfl), releases]
  exact runsTo_done _ _ _ continues.settle

theorem waitevTimeout_runs {s : State} {e : EngineIx} {c : Fin 32} {x : Wait} {n : Time} {m : BitVec 8} (lead : s.isLeader e)
    (ok : s.inMchk e = false) (good : ∀ op < 256, (s.dispEntry e op).bad = false) (runs : s.running e = some c.val)
    (wait : s.ctxWait e c = some x) (kind : x.kind = .event m (some n)) (open_ : x.released = none) (micro : x.micro = vendorHold 3 [(40, 1)])
    (cond : s.condTrue e c x.instr = false) (due : reached s.time n) (alone : ∀ d < 32, d ≠ c.val → s.ctxWait e d = none) :
    RunsTo (exec (.waitevTimeout e) s) fun t => Continues s t e c n := by
  have still : s.waitOver e c = none := by
    unfold State.waitOver
    rw [wait]
    dsimp only
    rw [open_, kind]
    dsimp only
    rw [cond, Bool.and_false]
    rfl
  have ends : s.timedOut e c = some n := by
    obtain ⟨kind', since, released, instr, micro', upc, va, cnt, ipc, clampEv⟩ := x
    dsimp only at kind
    subst kind
    unfold State.timedOut
    rw [wait]
    dsimp only
    rw [due, still]
    rfl
  have continues := s.releaseWait_continues e.isLt wait runs good (by rw [kind]; exact fun _ => nofun) (clr := false)
    (by rw [micro]; exact micro_waitev) rfl n
  have none_ : ∀ {t : State} {d : Nat}, t.ctxWait e d = none → t.timedOut e d = none := fun h => by
    unfold State.timedOut
    rw [h]
  change RunsTo (execWaitevTimeout e s) _
  unfold execWaitevTimeout
  rw [doneIf_pos (by rw [lead, ok]; rfl), State.forEach_one (t := s.releaseWait e c n false) (List.mem_range.2 c.isLt) List.nodup_range]
  · exact runsTo_done _ _ _ continues.settle
  · rw [ends]
  · intro d hd ne
    rw [none_ (alone d (List.mem_range.1 hd) ne)]
  · intro d hd ne
    rw [none_ ((State.ctxWait_of_waits continues.waits ne).trans (alone d (List.mem_range.1 hd) ne))]

end Sys2Proof.Machine
end

section
/-! SWC and the turn it passes (R244, R281). -/

namespace Sys2Proof.Machine

/-! ### The state of a context (R225, R238) -/

theorem State.get_setCtx (s : State) (e c : Nat) (x : CtxState) (p : Nat) (y : Fld) : (s.setCtx e c x p).get y =
    (((s.set (SQ_CTX_STAT_STATE e c) x.code).set (SQ_CTX_STAT_PRIO e c) p).setBit (SQ_ELIG_ELIG e) c (x == .eligible)).get y := by
  unfold State.setCtx
  dsimp only
  split
  · exact State.get_setEngine ..
  · rfl

theorem ctxStat_addr {l k : Nat} {y : Fld} (h : y.reg = SQ_CTX_STAT l k) : y.reg.addr = groupBase l + (0xB400 + 0x60 * k) := by
  rw [h]
  simp only [SQ_CTX_STAT]
  omega

/-- A field of SQ_CTXc_STAT lies apart from the registers of the engine. -/
theorem ctxStat_apart {l c : Nat} {x y : Fld} (hx : x.reg = SQ_CTX_STAT l c) {a : Nat} (hy : y.reg.addr = groupBase l + a) (low : a < 0xB400) :
    x.apart y := .inl (by
  rw [hx, hy]
  simp only [SQ_CTX_STAT]
  omega)

theorem ctxStat_apart_ctxStat {l c d : Nat} {x y : Fld} (hx : x.reg = SQ_CTX_STAT l c) (hy : y.reg = SQ_CTX_STAT l d) (ne : c ≠ d) :
    x.apart y := .inl (by
  rw [hx, hy]
  simp only [SQ_CTX_STAT]
  omega)

theorem State.get_setCtx_apart (s : State) (e c : Nat) (x : CtxState) (p : Nat) {y : Fld} (state : (SQ_CTX_STAT_STATE e c).apart y)
    (prio : (SQ_CTX_STAT_PRIO e c).apart y) (elig : (SQ_ELIG_ELIG e).apart y) : (s.setCtx e c x p).get y = s.get y := by
  rw [State.get_setCtx, State.setBit, State.get_set_apart _ _ _ _ (Fld.inWord_of _ rfl) elig, State.get_set_apart _ _ _ _ (Fld.inWord_of _ rfl) prio,
    State.get_set_apart _ _ _ _ (Fld.inWord_of _ rfl) state]

theorem State.ctxState_of_code {s : State} {e c : Nat} {x : CtxState} (h : s.get (SQ_CTX_STAT_STATE e c) = x.code) : s.ctxState e c = x := by
  unfold State.ctxState
  rw [h]
  cases x <;> rfl

theorem State.ctxState_congr {s t : State} {e c : Nat} (h : t.get (SQ_CTX_STAT_STATE e c) = s.get (SQ_CTX_STAT_STATE e c)) :
    t.ctxState e c = s.ctxState e c := by
  unfold State.ctxState
  rw [h]

theorem State.ctxState_setCtx (s : State) (e c : Nat) (x : CtxState) (p : Nat) : (s.setCtx e c x p).ctxState e c = x := by
  refine State.ctxState_of_code ?_
  rw [State.get_setCtx, State.setBit, State.get_set_apart _ (SQ_ELIG_ELIG e) (SQ_CTX_STAT_STATE e c) _ (Fld.inWord_of _ rfl)
      (Fld.apart_symm (ctxStat_apart (a := 0xB034) rfl rfl (by omega))),
    State.get_set_apart _ (SQ_CTX_STAT_PRIO e c) (SQ_CTX_STAT_STATE e c) _ (Fld.inWord_of _ rfl) (Fld.apart_of _ _ rfl rfl),
    State.get_set _ _ _ (Fld.inWord_of _ rfl)]
  cases x <;> rfl

theorem State.ctxPrio_setCtx (s : State) (e c : Nat) (x : CtxState) {p : Nat} (small : p < 8) : (s.setCtx e c x p).ctxPrio e c = p := by
  unfold State.ctxPrio
  rw [State.get_setCtx, State.setBit, State.get_set_apart _ (SQ_ELIG_ELIG e) (SQ_CTX_STAT_PRIO e c) _ (Fld.inWord_of _ rfl)
      (Fld.apart_symm (ctxStat_apart (a := 0xB034) rfl rfl (by omega))), State.get_set _ _ _ (Fld.inWord_of _ rfl)]
  exact Nat.mod_eq_of_lt small

theorem State.ctxState_setCtx_ne (s : State) (e : Nat) {c d : Nat} (x : CtxState) (p : Nat) (ne : d ≠ c) :
    (s.setCtx e c x p).ctxState e d = s.ctxState e d :=
  State.ctxState_congr (State.get_setCtx_apart _ _ _ _ _ (ctxStat_apart_ctxStat rfl rfl (Ne.symm ne)) (ctxStat_apart_ctxStat rfl rfl (Ne.symm ne))
    (Fld.apart_symm (ctxStat_apart (a := 0xB034) rfl rfl (by omega))))

/-- A context that does not become ELIGIBLE notes nothing with its engine. -/
theorem State.setCtx_engines (s : State) (e c : Nat) {x : CtxState} (p : Nat) (h : x ≠ .eligible) : (s.setCtx e c x p).engines = s.engines := by
  have off : (x == .eligible) = false := beq_false_of_ne h
  unfold State.setCtx
  dsimp only
  rw [off]
  exact (State.set_engines ..).trans ((State.set_engines ..).trans (State.set_engines ..))

theorem Frame.setCtx_fields (s : State) (e c : Nat) (x : CtxState) (p : Nat) : Frame s (s.setCtx e c x p) [.engines]
    (· ∈ [SQ_CTX_STAT_STATE e c, SQ_CTX_STAT_PRIO e c, SQ_ELIG_ELIG e]) := by
  have sets : Frame s (((s.set (SQ_CTX_STAT_STATE e c) x.code).set (SQ_CTX_STAT_PRIO e c) p).setBit (SQ_ELIG_ELIG e) c (x == .eligible)) [.engines]
      (· ∈ [SQ_CTX_STAT_STATE e c, SQ_CTX_STAT_PRIO e c, SQ_ELIG_ELIG e]) :=
    ((Frame.set _ _ _ _ _ (Fld.inWord_of _ rfl) (by simp)).trans (.set _ _ _ _ _ (Fld.inWord_of _ rfl) (by simp))).trans
      (.setBit _ _ _ _ _ _ (Fld.inWord_of _ rfl) (by simp))
  unfold State.setCtx
  dsimp only
  split
  · exact sets.trans (.setEngine _ _ _ _ _ (by simp))
  · exact sets

/-- No context of an idle engine runs. -/
theorem State.running_none {s : State} {e : Nat} (h : s.get (SQ_STAT_ENG e) = engIdle) : s.running e = none := by
  unfold State.running
  rw [h]
  rfl

theorem State.engGoIdle_eng (s : State) (l : Nat) : (s.engGoIdle l).get (SQ_STAT_ENG l) = engIdle := by
  unfold State.engGoIdle
  rw [State.get_setEngine, State.get_set_apart _ (SQ_STAT_RUNPRIO l) (SQ_STAT_ENG l) _ (Fld.inWord_of _ rfl) (Fld.apart_of _ _ rfl rfl),
    State.get_set _ _ _ (Fld.inWord_of _ rfl)]
  rfl

theorem Frame.engGoIdle (s : State) (l : Nat) : Frame s (s.engGoIdle l) [.engines] (fun y => y.reg = SQ_STAT l) := by
  have sets := (Frame.set s [.engines] (fun y => y.reg = SQ_STAT l) (SQ_STAT_ENG l) engIdle (Fld.inWord_of _ rfl) rfl).trans
    (.set _ _ _ (SQ_STAT_RUNPRIO l) 0 (Fld.inWord_of _ rfl) rfl)
  unfold State.engGoIdle
  exact sets.trans (.setEngine _ _ _ _ _ (by simp))

theorem State.engGoIdle_waits (s : State) {l : Nat} (hl : l < 32) : ((s.engGoIdle l).engine l).waits = (s.engine l).waits := by
  unfold State.engGoIdle
  generalize (s.set (SQ_STAT_ENG l) engIdle).set (SQ_STAT_RUNPRIO l) 0 = u
  rw [State.engine_setEngine u l _ hl]

/-- R244: a context takes its turn on an idle engine. -/
structure TurnTaken (s t : State) (l d : Nat) (p : Nat) : Prop where
  runs : t.ctxState l d = .running
  ctx : t.get (SQ_STAT_RUNCTX l) = d
  prio : t.get (SQ_STAT_RUNPRIO l) = p
  eng : t.get (SQ_STAT_ENG l) = engIssue
  instr : (t.engine l).instr = s.iStore l (s.ctxPc l d)
  frame : Frame s t [.engines] (fun y => y = SQ_CTX_STAT_STATE l d ∨ y = SQ_CTX_STAT_PRIO l d ∨ y = SQ_ELIG_ELIG l ∨ y.reg = SQ_STAT l)

theorem State.switchTo_idle (s : State) {l d p : Nat} (hl : l < 32) (hd : d < 32) (idle : s.get (SQ_STAT_ENG l) = engIdle)
    (prio : s.ctxPrio l d = p) (noWait : s.ctxWait l d = none) (good : ∀ op < 256, (s.dispEntry l op).bad = false) (w : Time) :
    TurnTaken s (s.switchTo l d w) l d p := by
  have small : p < 8 := prio ▸ State.get_lt s (SQ_CTX_STAT_PRIO l d)
  unfold State.switchTo
  rw [State.running_none idle]
  dsimp only
  rw [prio]
  generalize hu : ((s.setCtx l d .running p).set (SQ_STAT_RUNCTX l) d).set (SQ_STAT_RUNPRIO l) p = u
  generalize hy : { u.engine l with dispatched := false, incoming := true, turnEnding := false, halting := none } = y
  have state : u.ctxState l d = .running := by
    rw [← hu]
    refine (State.ctxState_congr ?_).trans (State.ctxState_setCtx s l d .running p)
    rw [State.get_set_apart _ (SQ_STAT_RUNPRIO l) (SQ_CTX_STAT_STATE l d) _ (Fld.inWord_of _ rfl)
        (Fld.apart_symm (ctxStat_apart (a := 0xB030) rfl rfl (by omega))),
      State.get_set_apart _ (SQ_STAT_RUNCTX l) (SQ_CTX_STAT_STATE l d) _ (Fld.inWord_of _ rfl)
        (Fld.apart_symm (ctxStat_apart (a := 0xB030) rfl rfl (by omega)))]
  have ctx : u.get (SQ_STAT_RUNCTX l) = d := by
    rw [← hu, State.get_set_apart _ (SQ_STAT_RUNPRIO l) (SQ_STAT_RUNCTX l) _ (Fld.inWord_of _ rfl) (Fld.apart_of _ _ rfl rfl),
      State.get_set _ _ _ (Fld.inWord_of _ rfl)]
    exact Nat.mod_eq_of_lt hd
  have runprio : u.get (SQ_STAT_RUNPRIO l) = p := by
    rw [← hu, State.get_set _ _ _ (Fld.inWord_of _ rfl)]
    exact Nat.mod_eq_of_lt small
  have engines : u.engines = s.engines := by
    rw [← hu, State.set_engines, State.set_engines, State.setCtx_engines _ _ _ _ (by decide)]
  have frame : Frame s u [.engines] (fun y => y = SQ_CTX_STAT_STATE l d ∨ y = SQ_CTX_STAT_PRIO l d ∨ y = SQ_ELIG_ELIG l ∨
      y.reg = SQ_STAT l) := by
    rw [← hu]
    refine ((Frame.setCtx_fields s l d .running p).mono (fun _ => id) fun y hy => ?_).trans
      ((Frame.set _ _ _ _ _ (Fld.inWord_of _ rfl) (.inr (.inr (.inr rfl)))).trans
        (.set _ _ _ _ _ (Fld.inWord_of _ rfl) (.inr (.inr (.inr rfl)))))
    simp only [List.mem_cons, List.not_mem_nil, or_false] at hy
    tauto
  have waits : (u.setEngine l y).ctxWait l d = none := by
    unfold State.ctxWait
    rw [State.engine_setEngine _ _ _ hl, ← hy]
    dsimp only
    rw [State.engine_congr engines]
    exact noWait
  rw [waits]
  clear hu hy
  rw [if_neg (by decide)]
  have gets : ∀ z : Fld, (SQ_STAT_ENG l).apart z → ((u.setEngine l y).set (SQ_STAT_ENG l) engIssue).get z = u.get z := fun z apart => by
    rw [State.get_set_apart _ _ _ _ (Fld.inWord_of _ rfl) apart, State.get_setEngine]
  have issues : ((u.setEngine l y).set (SQ_STAT_ENG l) engIssue).get (SQ_STAT_ENG l) = engIssue := by
    rw [State.get_set _ _ _ (Fld.inWord_of _ rfl)]
    rfl
  have whole := (frame.trans (.setEngine _ _ _ l y (by simp))).trans (.set _ _ _ (SQ_STAT_ENG l) engIssue (Fld.inWord_of _ rfl)
    (.inr (.inr (.inr rfl))))
  generalize (u.setEngine l y).set (SQ_STAT_ENG l) engIssue = v at gets issues whole
  have entries : ∀ op < 256, (v.dispEntry l op).bad = false := fun op hop => by
    rw [← good op hop]
    unfold State.dispEntry
    rw [(whole.part .store (by simp)).2, (whole.part .image (by simp)).2]
  obtain ⟨z, dispatched, _, instr, _⟩ := v.dispatch_good l d entries
  rw [dispatched]
  have pc : v.ctxPc l d = s.ctxPc l d := whole.reg _ (sqField_notPba (g := l) (0xB400 + 0x60 * d) (by simp only [SQ_CTX_STAT_PC, SQ_CTX_STAT]; omega))
    fun z hz => by
      obtain rfl | rfl | rfl | hz := hz
      · exact Fld.apart_of _ _ rfl rfl
      · exact Fld.apart_of _ _ rfl rfl
      · exact Fld.apart_symm (ctxStat_apart (a := 0xB034) rfl rfl (by omega))
      · exact Fld.apart_symm (ctxStat_apart (a := 0xB030) rfl (by rw [hz]; rfl) (by omega))
  refine ⟨?_, ?_, ?_, ?_, ?_, whole.trans (.setEngine _ _ _ _ _ (by simp))⟩
  · exact (State.ctxState_congr ((State.get_setEngine ..).trans
      (gets _ (Fld.apart_symm (ctxStat_apart (a := 0xB030) rfl rfl (by omega)))))).trans state
  · rw [State.get_setEngine, gets (SQ_STAT_RUNCTX l) (Fld.apart_of _ _ rfl rfl), ctx]
  · rw [State.get_setEngine, gets (SQ_STAT_RUNPRIO l) (Fld.apart_of _ _ rfl rfl), runprio]
  · rw [State.get_setEngine, issues]
  · rw [State.engine_setEngine _ _ _ hl, instr, pc, State.iStore_congr (whole.part .mem (by simp))]

/-! ### SWC (R244, R281) -/

theorem State.cutClamp_frame (s : State) {l : Nat} (hl : l < 32) (c : Nat) : Frame s (s.cutClamp l c) [.engines]
    (· ∈ [SQ_CLAMP_COUNT_COUNT l, SQ_FLAGS_CLAMP l, SQ_CLAMP_LAST_PC l]) ∧
    ((s.cutClamp l c).engine l).waits = (s.engine l).waits := by
  unfold State.cutClamp
  split
  · have noted := Frame.noteClamp s l (s.engine l).ipc true
    have engine := State.engine_noteClamp s l (s.engine l).ipc true l
    change Frame s (State.setEngine (s.noteClamp l (s.engine l).ipc true) l _) _ _ ∧
      ((State.setEngine (s.noteClamp l (s.engine l).ipc true) l _).engine l).waits = _
    generalize s.noteClamp l (s.engine l).ipc true = u at noted engine
    refine ⟨(noted.mono (by simp) fun _ => id).trans (.setEngine _ _ _ _ _ (by simp)), ?_⟩
    rw [State.engine_setEngine _ _ _ hl]
  · exact ⟨.refl .., rfl⟩

/-- R244: the turn passes from context c to context d. -/
structure TurnPassed (s t : State) (l c d : Nat) : Prop where
  outgoing : t.ctxState l c = .ready
  incoming : t.ctxState l d = .running
  ctx : t.get (SQ_STAT_RUNCTX l) = d
  prio : t.get (SQ_STAT_RUNPRIO l) = s.get (SQ_STAT_RUNPRIO l)
  cause : (t.get (SQ_CTX_STAT_CAUSE l d)).testBit 8
  place : t.ctxPc l c = s.ctxPc l c
  eng : t.get (SQ_STAT_ENG l) = engIssue
  instr : (t.engine l).instr = s.iStore l (s.ctxPc l d)
  frame : Frame s t [.engines] (fun y => y.reg = SQ_CTX_STAT l c ∨ y.reg = SQ_CTX_STAT l d ∨ y.reg = SQ_STAT l ∨ y = SQ_ELIG_ELIG l ∨
    y ∈ [SQ_CLAMP_COUNT_COUNT l, SQ_FLAGS_CLAMP l, SQ_CLAMP_LAST_PC l])

theorem State.swcTurn_passes (s : State) {l c d : Nat} (hl : l < 32) (hd : d < 32) (ne : d ≠ c) (ready : s.ctxState l d = .ready)
    (noWait : s.ctxWait l d = none) (goesOn : (s.engine l).halting = none) (good : ∀ op < 256, (s.dispEntry l op).bad = false) (w : Time) :
    ∃ t, s.swcTurn l c d w = (t, true) ∧ TurnPassed s t l c d := by
  unfold State.swcTurn
  dsimp only
  rw [if_neg ne, ready, goesOn]
  dsimp only
  refine ⟨_, rfl, ?_⟩
  have small : s.get (SQ_STAT_RUNPRIO l) < 8 := State.get_lt s _
  obtain ⟨cut, cutWaits⟩ := s.cutClamp_frame hl c
  generalize s.cutClamp l c = u0 at cut cutWaits
  have causeWord : (SQ_CTX_STAT_CAUSE l d).inWord := Fld.inWord_of _ rfl
  have raised : (u0.raiseBit (SQ_CTX_STAT_CAUSE l d) CauseKind.swc.bit).bit (SQ_CTX_STAT_CAUSE l d) 8 = true :=
    by
    rw [State.bit_raiseBit _ _ _ _ causeWord (show 8 < 9 by decide)]
    exact Bool.or_true _
  have raising : Frame u0 (u0.raiseBit (SQ_CTX_STAT_CAUSE l d) CauseKind.swc.bit) [] (· = SQ_CTX_STAT_CAUSE l d) :=
    .raiseBit _ _ _ _ _ causeWord rfl
  generalize u0.raiseBit (SQ_CTX_STAT_CAUSE l d) CauseKind.swc.bit = u1 at raised raising
  have idle := u1.engGoIdle_eng l
  have idling := Frame.engGoIdle u1 l
  have idleWaits := u1.engGoIdle_waits hl
  generalize u1.engGoIdle l = u2 at idle idling idleWaits
  change TurnPassed s (((u2.setCtx l c .ready (s.ctxPrio l c)).setPrio l d (s.get (SQ_STAT_RUNPRIO l))).switchTo l d w) l c d
  have yields := State.ctxState_setCtx u2 l c .ready (s.ctxPrio l c)
  have yielding := Frame.setCtx_fields u2 l c .ready (s.ctxPrio l c)
  have sameEngines := State.setCtx_engines u2 l c (x := .ready) (s.ctxPrio l c) (by decide)
  generalize u2.setCtx l c .ready (s.ctxPrio l c) = u3 at yields yielding sameEngines
  have u3idle : u3.get (SQ_STAT_ENG l) = engIdle := by
    rw [yielding.reg (SQ_STAT_ENG l) (sqField_notPba (g := l) 0xB030 rfl) fun z hz => ?_, idle]
    simp only [List.mem_cons, List.not_mem_nil, or_false] at hz
    obtain rfl | rfl | rfl := hz
    · exact ctxStat_apart (a := 0xB030) rfl rfl (by omega)
    · exact ctxStat_apart (a := 0xB030) rfl rfl (by omega)
    · exact .inl (by simp [SQ_ELIG_ELIG, SQ_ELIG, SQ_STAT_ENG, SQ_STAT])
  have toU3 : Frame s u3 [.engines] (fun y => (y = SQ_CTX_STAT_STATE l c ∨ y = SQ_CTX_STAT_PRIO l c) ∨
      y = SQ_CTX_STAT_CAUSE l d ∨ y.reg = SQ_STAT l ∨ y = SQ_ELIG_ELIG l ∨
      y ∈ [SQ_CLAMP_COUNT_COUNT l, SQ_FLAGS_CLAMP l, SQ_CLAMP_LAST_PC l]) :=
    (((cut.mono (fun _ => id) fun y hy => .inr (.inr (.inr (.inr hy)))).trans (raising.mono (by simp) fun y hy => .inr (.inl hy))).trans
      (idling.mono (fun _ => id) fun y hy => .inr (.inr (.inl hy)))).trans (yielding.mono (fun _ => id) fun y hy => by
        simp only [List.mem_cons, List.not_mem_nil, or_false] at hy
        obtain rfl | rfl | rfl := hy
        · exact .inl (.inl rfl)
        · exact .inl (.inr rfl)
        · exact .inr (.inr (.inr (.inl rfl))))
  have waits3 : u3.ctxWait l d = none := by
    unfold State.ctxWait
    rw [State.engine_congr sameEngines, idleWaits, State.engine_congr (raising.part .engines (by simp)), cutWaits]
    exact noWait
  have state3 : u3.ctxState l d = .ready :=
    (State.ctxState_congr (toU3.reg (SQ_CTX_STAT_STATE l d) (sqField_notPba _ (ctxStat_addr rfl)) fun z hz => by
    obtain hz | rfl | hz | rfl | hz := hz
    · exact ctxStat_apart_ctxStat (by rcases hz with rfl | rfl <;> rfl) rfl (Ne.symm ne)
    · exact Fld.apart_of _ _ rfl rfl
    · exact Fld.apart_symm (ctxStat_apart (a := 0xB030) rfl (by rw [hz]; rfl) (by omega))
    · exact Fld.apart_symm (ctxStat_apart (a := 0xB034) rfl rfl (by omega))
    · simp only [List.mem_cons, List.not_mem_nil, or_false] at hz
      obtain rfl | rfl | rfl := hz
      · exact Fld.apart_symm (ctxStat_apart (a := 0xB004) rfl rfl (by omega))
      · exact Fld.apart_symm (ctxStat_apart (a := 0xB000) rfl rfl (by omega))
      · exact Fld.apart_symm (ctxStat_apart (a := 0xB008) rfl rfl (by omega)))).trans ready
  have setPrio : u3.setPrio l d (s.get (SQ_STAT_RUNPRIO l)) = u3.set (SQ_CTX_STAT_PRIO l d) (s.get (SQ_STAT_RUNPRIO l)) := by
    unfold State.setPrio
    rw [State.running_none u3idle, state3]
    rfl
  have cause3 : u3.bit (SQ_CTX_STAT_CAUSE l d) 8 = true := by
    unfold State.bit
    rw [yielding.reg (SQ_CTX_STAT_CAUSE l d) (sqField_notPba _ (ctxStat_addr rfl)) fun z hz => ?_,
      idling.reg (SQ_CTX_STAT_CAUSE l d) (sqField_notPba _ (ctxStat_addr rfl)) fun z hz => ?_]
    · exact raised
    · exact Fld.apart_symm (ctxStat_apart (a := 0xB030) rfl (by rw [hz]; rfl) (by omega))
    · simp only [List.mem_cons, List.not_mem_nil, or_false] at hz
      obtain rfl | rfl | rfl := hz
      · exact ctxStat_apart_ctxStat rfl rfl (Ne.symm ne)
      · exact ctxStat_apart_ctxStat rfl rfl (Ne.symm ne)
      · exact Fld.apart_symm (ctxStat_apart (a := 0xB034) rfl rfl (by omega))
  have away : ∀ {k : Nat} {y z : Fld}, y.reg = SQ_CTX_STAT l k → (z.reg = SQ_STAT l ∨ z = SQ_ELIG_ELIG l ∨
      z ∈ [SQ_CLAMP_COUNT_COUNT l, SQ_FLAGS_CLAMP l, SQ_CLAMP_LAST_PC l]) → z.apart y := fun {k y z} hy hz => by
    obtain hz | rfl | hz := hz
    · exact Fld.apart_symm (ctxStat_apart (a := 0xB030) hy (by rw [hz]; rfl) (by omega))
    · exact Fld.apart_symm (ctxStat_apart (a := 0xB034) hy rfl (by omega))
    · simp only [List.mem_cons, List.not_mem_nil, or_false] at hz
      obtain rfl | rfl | rfl := hz
      · exact Fld.apart_symm (ctxStat_apart (a := 0xB004) hy rfl (by omega))
      · exact Fld.apart_symm (ctxStat_apart (a := 0xB000) hy rfl (by omega))
      · exact Fld.apart_symm (ctxStat_apart (a := 0xB008) hy rfl (by omega))
  have pcs3 : ∀ k, u3.ctxPc l k = s.ctxPc l k := fun k => toU3.reg _ (sqField_notPba _ (ctxStat_addr (k := k) rfl)) fun z hz => by
    obtain hz | rfl | hz := hz
    · by_cases hk : k = c
      · subst hk
        rcases hz with rfl | rfl <;> exact Fld.apart_of _ _ rfl rfl
      · exact ctxStat_apart_ctxStat (by rcases hz with rfl | rfl <;> rfl) rfl (Ne.symm hk)
    · by_cases hk : k = d
      · subst hk
        exact Fld.apart_of _ _ rfl rfl
      · exact ctxStat_apart_ctxStat rfl rfl (Ne.symm hk)
    · exact away rfl hz
  rw [setPrio]
  have prioWord : (SQ_CTX_STAT_PRIO l d).inWord := Fld.inWord_of _ rfl
  have prio4 : (u3.set (SQ_CTX_STAT_PRIO l d) (s.get (SQ_STAT_RUNPRIO l))).ctxPrio l d = s.get (SQ_STAT_RUNPRIO l) :=
    (State.get_set _ _ _ prioWord).trans (Nat.mod_eq_of_lt small)
  have gets4 : ∀ z, (SQ_CTX_STAT_PRIO l d).apart z → (u3.set (SQ_CTX_STAT_PRIO l d) (s.get (SQ_STAT_RUNPRIO l))).get z = u3.get z :=
    fun z apart => State.get_set_apart _ _ _ _ prioWord apart
  have waits4 : (u3.set (SQ_CTX_STAT_PRIO l d) (s.get (SQ_STAT_RUNPRIO l))).ctxWait l d = none := by
    unfold State.ctxWait
    rw [State.engine_congr (State.set_engines ..)]
    exact waits3
  have toU4 : Frame s (u3.set (SQ_CTX_STAT_PRIO l d) (s.get (SQ_STAT_RUNPRIO l))) [.engines] (fun y => y.reg = SQ_CTX_STAT l c ∨
      y.reg = SQ_CTX_STAT l d ∨ y.reg = SQ_STAT l ∨ y = SQ_ELIG_ELIG l ∨
      y ∈ [SQ_CLAMP_COUNT_COUNT l, SQ_FLAGS_CLAMP l, SQ_CLAMP_LAST_PC l]) :=
    (toU3.mono (fun _ => id) fun y hy => by
      obtain hy | rfl | hy := hy
      · exact .inl (by rcases hy with rfl | rfl <;> rfl)
      · exact .inr (.inl rfl)
      · exact .inr (.inr hy)).trans (.set _ _ _ _ _ prioWord (.inr (.inl rfl)))
  generalize u3.set (SQ_CTX_STAT_PRIO l d) (s.get (SQ_STAT_RUNPRIO l)) = u4 at prio4 gets4 waits4 toU4
  have good4 : ∀ op < 256, (u4.dispEntry l op).bad = false := fun op hop => by
    rw [← good op hop]
    unfold State.dispEntry
    rw [(toU4.part .store (by simp)).2, (toU4.part .image (by simp)).2]
  obtain ⟨runs, ctx, prio, eng, instr, frame⟩ := u4.switchTo_idle hl hd
    ((gets4 _ (ctxStat_apart (a := 0xB030) rfl rfl (by omega))).trans u3idle) prio4 waits4 good4 w
  generalize u4.switchTo l d w = t at runs ctx prio eng instr frame
  have kept : ∀ {k : Nat} {y : Fld}, y.reg = SQ_CTX_STAT l k → (SQ_CTX_STAT_STATE l d).apart y → (SQ_CTX_STAT_PRIO l d).apart y →
      t.get y = u3.get y := fun {k y} hy state prio => by
    rw [frame.reg y (sqField_notPba _ (ctxStat_addr hy)) fun z hz => ?_, gets4 y prio]
    obtain rfl | rfl | hz := hz
    · exact state
    · exact prio
    · exact away hy (hz.elim (fun e => .inr (.inl e)) .inl)
  refine ⟨?_, runs, ctx, prio, ?_, ?_, eng, ?_, toU4.trans (frame.mono (fun _ => id) fun y hy => ?_)⟩
  · exact (State.ctxState_congr (kept rfl (ctxStat_apart_ctxStat rfl rfl ne) (ctxStat_apart_ctxStat rfl rfl ne))).trans yields
  · rw [kept (k := d) (y := SQ_CTX_STAT_CAUSE l d) rfl (Fld.apart_of _ _ rfl rfl) (Fld.apart_of _ _ rfl rfl)]
    exact cause3
  · exact (kept rfl (ctxStat_apart_ctxStat rfl rfl ne) (ctxStat_apart_ctxStat rfl rfl ne)).trans (pcs3 c)
  · rw [instr, State.iStore_congr (toU4.part .mem (by simp))]
    exact congrArg (s.iStore l) ((gets4 (SQ_CTX_STAT_PC l d) (Fld.apart_of _ _ rfl rfl)).trans (pcs3 d))
  · obtain rfl | rfl | rfl | hy := hy
    · exact .inr (.inl rfl)
    · exact .inr (.inl rfl)
    · exact .inr (.inr (.inr (.inl rfl)))
    · exact .inr (.inr (.inl hy))

theorem Continues.gone {s t : State} {l c : Nat} {n : Time} (h : Continues s t l c n) (hc : c < 32) : t.ctxWait l c = none := by
  unfold State.ctxWait
  rw [h.waits, vget_vset _ _ _ _ hc]

theorem State.swcEnd_eq {s : State} {l c d : Nat} {x : Wait} (may : s.mayRun l) (due : reached s.time (s.slotTime l))
    (runs : s.running l = some c) (wait : s.ctxWait l c = some x) (kind : x.kind = .swc d) :
    s.swcEnd l = s.releaseWait l c (s.slotTime l) true := by
  obtain ⟨k, _⟩ := x
  obtain rfl : k = .swc d := kind
  unfold State.swcEnd
  rw [runs]
  dsimp only
  rw [wait]
  dsimp only
  rw [if_pos (by rw [may, due]; rfl)]

/-- What the end of a hold of SWC leaves: the outgoing context past its SWC, the turn with the incoming one. -/
structure SwcEnded (s t : State) (l c d : Nat) : Prop where
  outgoing : t.ctxState l c = .ready
  incoming : t.ctxState l d = .running
  ctx : t.get (SQ_STAT_RUNCTX l) = d
  prio : t.get (SQ_STAT_RUNPRIO l) = s.get (SQ_STAT_RUNPRIO l)
  cause : (t.get (SQ_CTX_STAT_CAUSE l d)).testBit 8
  place : t.ctxPc l c = pcNext (s.ctxPc l c)
  eng : t.get (SQ_STAT_ENG l) = engIssue
  instr : (t.engine l).instr = s.iStore l (s.ctxPc l d)
  frame : Frame s t [.engines] (fun y => y.reg = SQ_CTX_STAT l c ∨ y.reg = SQ_CTX_STAT l d ∨ y.reg = SQ_STAT l ∨
    y = SQ_CTX_RES_RES l c ∨ y = SQ_ELIG_ELIG l ∨ y = SQ_CLAMP_COUNT_COUNT l ∨ y = SQ_FLAGS_CLAMP l ∨ y = SQ_CLAMP_LAST_PC l)

theorem SwcEnded.settle {s t : State} {l c d : Nat} (h : SwcEnded s t l c d) : SwcEnded s (Machine.settle s t) l c d := by
  obtain ⟨outgoing, incoming, ctx, prio, cause, place, eng, instr, frame⟩ := h
  have gets : ∀ a {y : Fld}, y.reg.addr = groupBase l + a → (Machine.settle s t).get y = t.get y := fun a y hy =>
    get_settle _ _ _ (sqField_notPba a hy)
  refine ⟨(State.ctxState_congr (gets _ (ctxStat_addr rfl))).trans outgoing, (State.ctxState_congr (gets _ (ctxStat_addr rfl))).trans incoming,
    (gets 0xB030 rfl).trans ctx, (gets 0xB030 rfl).trans prio, ?_, (gets _ (ctxStat_addr rfl)).trans place, (gets 0xB030 rfl).trans eng, ?_,
    frame.trans (.settle _ _ _ _)⟩
  · rw [gets _ (ctxStat_addr rfl)]
    exact cause
  · rw [engine_settle]
    exact instr

theorem swcHoldEnd_runs {s : State} {e : EngineIx} {c d : Fin 32} {x : Wait} (may : s.mayRun e)
    (good : ∀ op < 256, (s.dispEntry e op).bad = false) (due : reached s.time (s.slotTime e)) (runs : s.running e = some c.val)
    (wait : s.ctxWait e c = some x) (kind : x.kind = .swc d) (names : cOf x.instr % 32 = d.val) (goesOn : (s.engine e).halting = none)
    (micro : x.micro = vendorHold 5 [(41, 3)]) (ne : d ≠ c) (ready : s.ctxState e d = .ready) (noWait : s.ctxWait e d = none) :
    RunsTo (exec (.swcHoldEnd e) s) fun t => SwcEnded s t e c d := by
  have apart : d.val ≠ c.val := fun h => ne (Fin.ext h)
  obtain ⟨u, test, k, eq, released, halting, -, -, reach⟩ := s.release_eq e.isLt wait runs (.inr rfl) (by rw [micro]; exact micro_swc)
    (clr := true) rfl (s.slotTime e)
  have turn : turnOf (holdMicro 5 false 3) (x.exec (s.slotTime e) true true).instr = some (.swc d.val) :=
    congrArg (fun n => some (TurnEnd.swc n)) names
  have away : ∀ {k : Nat} {y : Fld}, y.reg = SQ_CTX_STAT e k → (k = c → (SQ_CTX_STAT_PC e c).apart y) →
      ∀ z ∈ [SQ_CTX_STAT_PC e c, SQ_CTX_RES_RES e c, SQ_STAT_ENG e], z.apart y := fun {k y} hy own z hz => by
    simp only [List.mem_cons, List.not_mem_nil, or_false] at hz
    obtain rfl | rfl | rfl := hz
    · by_cases h : k = c
      · exact own h
      · exact ctxStat_apart_ctxStat rfl hy (Ne.symm h)
    · refine .inl ?_
      rw [hy]
      simp only [SQ_CTX_RES_RES, SQ_CTX_RES, SQ_CTX_STAT]
      omega
    · exact Fld.apart_symm (ctxStat_apart (a := 0xB030) hy rfl (by omega))
  have ofD : ∀ {y : Fld}, y.reg = SQ_CTX_STAT e d → u.get y = s.get y := fun hy =>
    reach.reg _ (sqField_notPba _ (ctxStat_addr hy)) (away hy fun h => absurd h apart)
  have runPrio : u.get (SQ_STAT_RUNPRIO e) = s.get (SQ_STAT_RUNPRIO e) := reach.reg _ (sqField_notPba (g := e) 0xB030 rfl) fun z hz => by
    simp only [List.mem_cons, List.not_mem_nil, or_false] at hz
    obtain rfl | rfl | rfl := hz
    · exact ctxStat_apart (a := 0xB030) rfl rfl (by omega)
    · exact .inl (by simp only [SQ_CTX_RES_RES, SQ_CTX_RES, SQ_STAT_RUNPRIO, SQ_STAT]; omega)
    · exact Fld.apart_of _ _ rfl rfl
  obtain ⟨place, -, waits, -⟩ := released 0 false
  obtain ⟨v, hv⟩ : ∃ v, v = u.setEngine e { u.engine e with clampEv := k } := ⟨_, rfl⟩
  have eng : v.engine e = { u.engine e with clampEv := k } := by rw [hv, State.engine_setEngine _ _ _ e.isLt]
  have gets : ∀ y, v.get y = u.get y := fun y => by rw [hv, State.get_setEngine]
  have toV : Frame s v [.engines] (· ∈ [SQ_CTX_STAT_PC e c, SQ_CTX_RES_RES e c, SQ_STAT_ENG e]) := by
    rw [hv]
    exact reach.trans (.setEngine _ _ _ _ _ (by simp))
  have waitsD : v.ctxWait e d = none := by
    refine (State.ctxWait_of_waits (c := c.val) ?_ apart).trans noWait
    rw [eng]
    exact waits
  obtain ⟨t, passes, outgoing, incoming, ctx, prio, cause, place', issue, instr, frame⟩ := v.swcTurn_passes e.isLt d.isLt apart
    ((State.ctxState_congr ((gets _).trans (ofD rfl))).trans ready) waitsD (by rw [eng]; exact halting.trans goesOn)
    (fun op hop => by
      rw [← good op hop]
      unfold State.dispEntry
      rw [(toV.part .store (by simp)).2, (toV.part .image (by simp)).2]) (s.slotTime e)
  have ends : s.swcEnd e = t := by
    rw [State.swcEnd_eq may due runs wait kind, eq]
    unfold State.afterFinal
    rw [turn]
    dsimp only
    rw [if_neg (by exact Bool.false_ne_true), ← hv]
    exact congrArg Prod.fst (congrArg (fun r : State × Bool => if r.2 then (r.1, false) else _) passes)
  change RunsTo (done s (s.swcEnd e)) _
  rw [ends]
  refine runsTo_done _ _ _ (SwcEnded.settle ⟨outgoing, incoming, ctx, prio.trans ((gets _).trans runPrio), cause, ?_, issue, ?_, ?_⟩)
  · exact place'.trans ((gets _).trans place)
  · rw [instr, State.iStore_congr (toV.part .mem (by simp))]
    exact congrArg (s.iStore e) ((gets _).trans (ofD rfl))
  · refine (toV.mono (fun _ => id) fun y hy => ?_).trans (frame.mono (fun _ => id) fun y hy => ?_)
    · simp only [List.mem_cons, List.not_mem_nil, or_false] at hy
      obtain rfl | rfl | rfl := hy
      · exact .inl rfl
      · exact .inr (.inr (.inr (.inl rfl)))
      · exact .inr (.inr (.inl rfl))
    · simp only [List.mem_cons, List.not_mem_nil, or_false] at hy
      tauto

/-- Settles O29: each wait holds the engine with its kind and operands; its release, the timeout of WAITEV and the end of the hold of SWC
run the wait's last microword. -/
theorem queselWaits : Obligations.QueselWaits := by
  refine ⟨fun s e c i stands => ?_, fun s e c x n lead ok good runs wait kind open_ micro after due alone => ?_,
    fun s e c x n m lead ok good runs wait kind open_ micro not_ due alone => ?_,
    fun s e c d x may good due runs wait kind names goesOn micro ne ready noWait => ?_⟩
  · exact ⟨waitph_angle_runs stands, waitph_phase_runs stands, waitt_delay_runs stands, waitt_time_runs stands, waitev_runs stands,
      fun b => sync_runs stands b, swc_runs stands⟩
  · exact (waitRelease_runs lead ok good runs wait kind open_ micro after due alone).mono fun t h =>
      ⟨h.place, h.gone c.isLt, h.eng, h.nextSlot, h.dispatched, h.instr, h.frame⟩
  · exact (waitevTimeout_runs lead ok good runs wait kind open_ micro not_ due alone).mono fun t h =>
      ⟨h.place, h.gone c.isLt, h.nextSlot, h.frame⟩
  · exact (swcHoldEnd_runs may good due runs wait kind names goesOn micro ne ready noWait).mono fun t h =>
      ⟨h.outgoing, h.incoming, h.ctx, h.prio, h.cause, h.place, h.eng, h.instr, h.frame⟩

end Sys2Proof.Machine
end

section
/-! Barriers (R250, R252, R280). -/

namespace Sys2Proof.Machine

/-! ### A wait that passes, of a context that runs or not (R250, R303) -/

theorem micro_sync : Micro.of (vendorHold 4 []) = holdMicro 4 false 0 := by decide

/-- The fields that the release of the wait of context c may change. -/
def passField (l c : Nat) (y : Fld) : Prop :=
  (y = SQ_CTX_STAT_PC l c ∨ y = SQ_CTX_RES_RES l c) ∨ y = SQ_STAT_ENG l ∨ y ∈ [SQ_CLAMP_COUNT_COUNT l, SQ_FLAGS_CLAMP l, SQ_CLAMP_LAST_PC l]

/-- What the release of a wait leaves: its context past it, and the engine's next vector moved where the context runs. -/
structure Passes (s t : State) (l c : Nat) (n : Time) (w : Fld → Prop) : Prop where
  place : t.ctxPc l c = pcNext (s.ctxPc l c)
  waits : (t.engine l).waits = vset (s.engine l).waits c none
  slot : s.running l = some c → (t.engine l).afterHold = true ∧ (t.engine l).slotB = tickOf (later n 8)
  keeps : s.running l ≠ some c → (t.engine l).afterHold = (s.engine l).afterHold ∧ (t.engine l).slotB = (s.engine l).slotB
  runs : t.running l = s.running l
  alone : OwnEngine s t l
  frame : Frame s t [.engines] w

theorem State.running_congr {s t : State} {l : Nat} (eng : t.get (SQ_STAT_ENG l) = s.get (SQ_STAT_ENG l))
    (ctx : t.get (SQ_STAT_RUNCTX l) = s.get (SQ_STAT_RUNCTX l)) : t.running l = s.running l := by
  unfold State.running
  rw [eng, ctx]

theorem State.running_of_issue {s : State} {l : Nat} (eng : s.get (SQ_STAT_ENG l) = engIssue) : s.running l = some (s.get (SQ_STAT_RUNCTX l)) := by
  unfold State.running
  rw [eng]
  exact if_pos (by decide)

theorem State.runctx_of_running {s : State} {l c : Nat} (h : s.running l = some c) : s.get (SQ_STAT_RUNCTX l) = c := by
  unfold State.running at h
  dsimp only at h
  split at h
  · exact Option.some.inj h
  · exact nomatch h

theorem Continues.passes {s t : State} {l c : Nat} {n : Time} (h : Continues s t l c n) (runs : s.running l = some c) :
    Passes s t l c n (passField l c) := by
  refine ⟨h.place, h.waits, fun _ => h.slot, fun idle => absurd runs idle, ?_, h.alone, h.frame.mono (fun _ => id) fun y hy => ?_⟩
  · rw [State.running_of_issue h.eng, runs, h.frame.reg (SQ_STAT_RUNCTX l) (sqField_notPba (g := l) 0xB030 rfl) fun z hz => ?_,
      State.runctx_of_running runs]
    simp only [List.mem_cons, List.not_mem_nil, or_false] at hz
    obtain rfl | rfl | rfl | rfl | rfl | rfl := hz
    · exact ctxStat_apart (a := 0xB030) rfl rfl (by omega)
    · exact .inl (by simp only [SQ_CTX_RES_RES, SQ_CTX_RES, SQ_STAT_RUNCTX, SQ_STAT]; omega)
    · exact Fld.apart_of _ _ rfl rfl
    all_goals exact .inl (by simp [SQ_CLAMP_COUNT_COUNT, SQ_CLAMP_COUNT, SQ_FLAGS_CLAMP, SQ_FLAGS, SQ_CLAMP_LAST_PC, SQ_CLAMP_LAST,
      SQ_STAT_RUNCTX, SQ_STAT])
  · simp only [List.mem_cons, List.not_mem_nil, or_false] at hy
    simp only [passField, List.mem_cons, List.not_mem_nil, or_false]
    tauto

/-- R303: the release of a wait of a context that does not run lets its microword act, with no vector and no dispatch. -/
theorem State.execute_idle (s : State) (l c : Nat) (x : Exec) (held : x.held = true) (idle : x.runs = false) :
    ∃ k, (s.execute l c (holdMicro 4 false 0) x).1 = (s.advanced l c).noteClamp l x.ipc k := by
  refine ⟨x.clampEv || s.ctxPc l c == 16383, ?_⟩
  have issue : (holdMicro 4 false 0).issue = false := rfl
  have noReq : ((holdMicro 4 false 0).xreq == 6) = false := rfl
  have count : (holdMicro 4 false 0).cntdec = false := rfl
  have next : (holdMicro 4 false 0).vainc = false := rfl
  have quiet : (holdMicro 4 false 0).clampev = false := rfl
  have tsel : (holdMicro 4 false 0).tsel = 0 := rfl
  have noLast : ((0 : Nat) == 1) = false := rfl
  unfold State.execute State.microTest
  simp only [issue, noReq, count, next, quiet, tsel, noLast, held, idle, State.settings_hold _ _ _ (.inl rfl),
    State.finalFields_hold _ _ _ _ _ _ (clrt := false) rfl,
    Bool.true_or, Bool.false_and, Bool.and_false, Bool.or_false, Bool.not_true, if_true, if_false, Bool.false_eq_true]
  rfl

theorem State.releaseWait_idle (s : State) {l c : Nat} (hl : l < 32) {x : Wait} (wait : s.ctxWait l c = some x) (idle : s.running l ≠ some c)
    (micro : x.micro = vendorHold 4 []) (n : Time) : Passes s (s.releaseWait l c n true) l c n (passField l c) := by
  have still : (s.setWait l c none).running l = s.running l := State.running_congr (State.get_setEngine ..) (State.get_setEngine ..)
  obtain ⟨k, run⟩ := (s.setWait l c none).execute_idle l c (x.exec n false true) rfl rfl
  have eq : s.releaseWait l c n true = ((s.setWait l c none).advanced l c).noteClamp l (x.exec n false true).ipc k := by
    unfold State.releaseWait
    rw [wait]
    dsimp only
    rw [if_neg (by rw [still]; exact idle), micro, micro_sync]
    exact run
  rw [eq]
  have advance := Frame.advanced (s.setWait l c none) l c
  have noted := Frame.noteClamp ((s.setWait l c none).advanced l c) l (x.exec n false true).ipc k
  have eng : ∀ j, (((s.setWait l c none).advanced l c).noteClamp l (x.exec n false true).ipc k).engine j = (s.setWait l c none).engine j :=
    fun j => (State.engine_noteClamp ..).trans (State.engine_advanced ..)
  have removed : Frame s (s.setWait l c none) [.engines] (passField l c) := .setEngine _ _ _ _ _ (by simp)
  have frame : Frame s (((s.setWait l c none).advanced l c).noteClamp l (x.exec n false true).ipc k) [.engines] (passField l c) :=
    (removed.trans (advance.mono (by simp) fun y hy => .inl (by simpa using hy))).trans (noted.mono (by simp) fun y hy => .inr (.inr hy))
  have kept : ∀ {y : Fld}, y.reg = SQ_STAT l →
      (((s.setWait l c none).advanced l c).noteClamp l (x.exec n false true).ipc k).get y = s.get y := fun {y} hy => by
    have addr : y.reg.addr = groupBase l + 0xB030 := by rw [hy]; rfl
    rw [noted.reg y (sqField_notPba _ addr) fun z hz => .inl ?_, advance.reg y (sqField_notPba _ addr) fun z hz => .inl ?_,
      State.setWait, State.get_setEngine]
    · rw [addr]
      simp only [List.mem_cons, List.not_mem_nil, or_false] at hz
      obtain rfl | rfl := hz <;> simp only [SQ_CTX_STAT_PC, SQ_CTX_STAT, SQ_CTX_RES_RES, SQ_CTX_RES] <;> omega
    · rw [addr]
      simp only [List.mem_cons, List.not_mem_nil, or_false] at hz
      obtain rfl | rfl | rfl := hz <;>
        simp [SQ_CLAMP_COUNT_COUNT, SQ_CLAMP_COUNT, SQ_FLAGS_CLAMP, SQ_FLAGS, SQ_CLAMP_LAST_PC, SQ_CLAMP_LAST]
  refine ⟨?_, ?_, fun runs => absurd runs idle, fun _ => ?_, State.running_congr (kept rfl) (kept rfl), ⟨fun j hj => ?_, ?_⟩, frame⟩
  · have place : (s.setWait l c none).ctxPc l c = s.ctxPc l c := State.get_setEngine ..
    refine Eq.trans (noted.reg (SQ_CTX_STAT_PC l c) (sqField_notPba _ (ctxStat_addr rfl)) fun z hz => ?_)
      (State.ctxPc_advanced _ |>.trans (congrArg pcNext place))
    simp only [List.mem_cons, List.not_mem_nil, or_false] at hz
    obtain rfl | rfl | rfl := hz
    · exact Fld.apart_symm (ctxStat_apart (a := 0xB004) rfl rfl (by omega))
    · exact Fld.apart_symm (ctxStat_apart (a := 0xB000) rfl rfl (by omega))
    · exact Fld.apart_symm (ctxStat_apart (a := 0xB008) rfl rfl (by omega))
  · rw [eng, State.setWait, State.engine_setEngine _ _ _ hl]
  · rw [eng, State.setWait, State.engine_setEngine _ _ _ hl]
    exact ⟨rfl, rfl⟩
  · rw [eng, State.setWait, State.engine_setEngine_ne _ _ _ _ (Ne.symm hj)]
  · rw [eng, State.setWait, State.engine_setEngine _ _ _ hl]

theorem State.releaseWait_passes (s : State) {l c : Nat} (hl : l < 32) {x : Wait} (wait : s.ctxWait l c = some x)
    (good : ∀ op < 256, (s.dispEntry l op).bad = false) (plain : ∀ d, x.kind ≠ .swc d) (micro : x.micro = vendorHold 4 []) (n : Time) :
    Passes s (s.releaseWait l c n true) l c n (passField l c) := by
  by_cases runs : s.running l = some c
  · exact (s.releaseWait_continues hl wait runs good plain (clrt := false) (by rw [micro]; exact micro_sync) rfl n).passes runs
  · exact s.releaseWait_idle hl wait runs micro n

/-! ### The waits of a barrier pass one after the other (R250, R252) -/

/-- The fields that the release of the wait of context c, at a timeout of its barrier, may change. -/
def lateField (l c : Nat) (y : Fld) : Prop :=
  passField l c y ∨ y = SQ_CTX_FLAGS_SYNCTO l c ∨ y = SQ_FLAGS_SYNCTO l ∨ y = SQ_CNT1_SYNCTO l

theorem State.barrierWaits_nodup (s : State) (b : Nat) : (s.barrierWaits b).Nodup := by
  unfold State.barrierWaits
  refine List.nodup_flatMap.2 ⟨fun l _ => ?_, ?_⟩
  · exact (List.nodup_range.filter _).map fun _ _ h => (Prod.mk.inj h).2
  · refine List.Nodup.pairwise_of_forall_ne ((List.nodup_range.filter _).filter _) fun l _ m _ ne x hx hy => ne ?_
    obtain ⟨_, -, rfl⟩ := List.mem_map.1 hx
    obtain ⟨_, -, h⟩ := List.mem_map.1 hy
    exact (Prod.mk.inj h).1.symm

theorem State.mem_barrierWaits {s : State} {b : Nat} {x : Nat × Nat} (h : x ∈ s.barrierWaits b) :
    x.1 < 32 ∧ x.2 < 32 ∧ ∃ y, s.ctxWait x.1 x.2 = some y ∧ y.kind = .barrier b := by
  unfold State.barrierWaits at h
  obtain ⟨l, hl, h⟩ := List.mem_flatMap.1 h
  obtain ⟨c, hc, rfl⟩ := List.mem_map.1 h
  obtain ⟨hc, waits⟩ := List.mem_filter.1 hc
  refine ⟨List.mem_range.1 (List.mem_filter.1 (List.mem_filter.1 hl).1).1, List.mem_range.1 hc, ?_⟩
  split at waits
  · next k _ _ _ _ _ _ _ _ wait =>
    exact ⟨_, wait, congrArg WaitKind.barrier (beq_iff_eq.1 waits)⟩
  · exact nomatch waits

theorem lateField_addr {l c : Nat} {y : Fld} (h : lateField l c y) : ∃ a, y.reg.addr = groupBase l + a ∧
    (a ≤ 0xB010 ∨ y = SQ_STAT_ENG l ∨ y = SQ_CTX_STAT_PC l c ∨ ∃ k < 0x60, 0 < k ∧ a = 0xB400 + 0x60 * c + k) := by
  obtain ((rfl | rfl) | rfl | h) | rfl | rfl | rfl := h
  · exact ⟨_, ctxStat_addr rfl, .inr (.inr (.inl rfl))⟩
  · exact ⟨0xB40C + 0x60 * c, by simp only [SQ_CTX_RES_RES, SQ_CTX_RES]; omega, .inr (.inr (.inr ⟨0xC, by omega, by omega, by omega⟩))⟩
  · exact ⟨0xB030, rfl, .inr (.inl rfl)⟩
  · simp only [List.mem_cons, List.not_mem_nil, or_false] at h
    obtain rfl | rfl | rfl := h
    · exact ⟨0xB004, rfl, .inl (by omega)⟩
    · exact ⟨0xB000, rfl, .inl (by omega)⟩
    · exact ⟨0xB008, rfl, .inl (by omega)⟩
  · exact ⟨0xB408 + 0x60 * c, by simp only [SQ_CTX_FLAGS_SYNCTO, SQ_CTX_FLAGS]; omega, .inr (.inr (.inr ⟨8, by omega, by omega, by omega⟩))⟩
  · exact ⟨0xB000, rfl, .inl (by omega)⟩
  · exact ⟨0xB010, rfl, .inl (by omega)⟩

theorem lateField_apart_pc {l c k d : Nat} (hc : c < 32) (hd : d < 32) (ne : (l, c) ≠ (k, d)) {y : Fld} (h : lateField l c y) :
    y.apart (SQ_CTX_STAT_PC k d) := by
  refine .inl ?_
  obtain ⟨a, at_, place⟩ := lateField_addr h
  have apart : l ≠ k ∨ c ≠ d := by
    by_contra both
    exact ne (by rw [not_not.1 fun h => both (.inl h), not_not.1 fun h => both (.inr h)])
  rw [at_, ctxStat_addr (k := d) (y := SQ_CTX_STAT_PC k d) rfl]
  obtain low | rfl | rfl | ⟨j, hj, pos, rfl⟩ := place
  · simp only [groupBase]
    obtain lt | rfl | gt := Nat.lt_trichotomy l k <;> omega
  · have : groupBase l + 0xB030 = groupBase l + a := at_
    simp only [groupBase] at this ⊢
    omega
  · have := (ctxStat_addr (k := c) (y := SQ_CTX_STAT_PC l c) rfl).symm.trans at_
    simp only [groupBase] at this ⊢
    omega
  · simp only [groupBase]
    obtain lt | rfl | gt := Nat.lt_trichotomy l k <;> omega

theorem lateField_apart_stat {l c k : Nat} (hc : c < 32) (ne : l ≠ k) {x y : Fld} (h : lateField l c y) (hx : x.reg = SQ_STAT k) : y.apart x := by
  refine .inl ?_
  obtain ⟨a, at_, place⟩ := lateField_addr h
  rw [at_, hx]
  simp only [SQ_STAT]
  obtain low | rfl | rfl | ⟨j, hj, pos, rfl⟩ := place
  · simp only [groupBase]
    obtain lt | rfl | gt := Nat.lt_trichotomy l k <;> omega
  · have : groupBase l + 0xB030 = groupBase l + a := at_
    simp only [groupBase] at this ⊢
    omega
  · have := (ctxStat_addr (k := c) (y := SQ_CTX_STAT_PC l c) rfl).symm.trans at_
    simp only [groupBase] at this ⊢
    omega
  · simp only [groupBase]
    obtain lt | rfl | gt := Nat.lt_trichotomy l k <;> omega

/-- The same control store, image and TIME. -/
structure SameStore (s t : State) : Prop where
  entries : ∀ l op, t.dispEntry l op = s.dispEntry l op
  time : t.time = s.time

theorem SameStore.of_frame {s t : State} {w : Fld → Prop} (h : Frame s t [.engines] w) : SameStore s t := by
  refine ⟨fun l op => ?_, h.part .time (by simp)⟩
  unfold State.dispEntry
  rw [(h.part .store (by simp)).2, (h.part .image (by simp)).2]

theorem SameStore.trans {s t u : State} (h : SameStore s t) (k : SameStore t u) : SameStore s u :=
  ⟨fun l op => (k.entries l op).trans (h.entries l op), k.time.trans h.time⟩

/-- Each wait in a list of distinct contexts passes, one after the other, and what one leaves of another's state stays. -/
theorem passes_each {s : State} (f : State → Nat × Nat → State) {xs : List (Nat × Nat)} (distinct : xs.Nodup)
    (bounds : ∀ x ∈ xs, x.1 < 32 ∧ x.2 < 32) {n : Time} {w : Nat → Nat → Fld → Prop} (late : ∀ l c y, w l c y → lateField l c y)
    (Q : Nat × Nat → State → Prop)
    (step : ∀ u : State, SameStore s u → ∀ x ∈ xs, u.ctxWait x.1 x.2 = s.ctxWait x.1 x.2 →
      Passes u (f u x) x.1 x.2 n (w x.1 x.2) ∧ Q x (f u x))
    (hold : ∀ u : State, SameStore s u → ∀ x ∈ xs, u.ctxWait x.1 x.2 = s.ctxWait x.1 x.2 →
      ∀ c ∈ xs, x ≠ c → Q c u → Q c (f u x)) :
    (∀ x ∈ xs, (xs.foldl f s).ctxWait x.1 x.2 = none ∧ (xs.foldl f s).ctxPc x.1 x.2 = pcNext (s.ctxPc x.1 x.2) ∧
      (s.running x.1 = some x.2 → ((xs.foldl f s).engine x.1).afterHold = true ∧ ((xs.foldl f s).engine x.1).slotB = tickOf (later n 8)) ∧
      Q x (xs.foldl f s)) ∧
    (∀ k, ((xs.foldl f s).engine k).arrived = (s.engine k).arrived) ∧
    Frame s (xs.foldl f s) [.engines] (fun y => ∃ x ∈ xs, w x.1 x.2 y) := by
  have runs : ∀ {u : State} {x : Nat × Nat}, x ∈ xs → Passes u (f u x) x.1 x.2 n (w x.1 x.2) → ∀ k, (f u x).running k = u.running k :=
    fun {u x} hx passes k => by
      by_cases h : k = x.1
      · subst h
        exact passes.runs
      · refine State.running_congr ?_ ?_ <;>
          exact passes.frame.reg _ (sqField_notPba (g := k) 0xB030 rfl) fun z hz =>
            lateField_apart_stat (bounds x hx).2 (Ne.symm h) (late _ _ _ hz) rfl
  have engines : ∀ {u : State} {x c : Nat × Nat}, Passes u (f u x) x.1 x.2 n (w x.1 x.2) → x ≠ c →
      (f u x).ctxWait c.1 c.2 = u.ctxWait c.1 c.2 :=
    fun {u x c} passes ne => by
      by_cases h : c.1 = x.1
      · rw [h]
        exact State.ctxWait_of_waits passes.waits fun k => ne (Prod.ext h.symm k.symm)
      · unfold State.ctxWait
        rw [passes.alone.others _ h]
  have place : ∀ {u : State} {x c : Nat × Nat}, x ∈ xs → c ∈ xs → Passes u (f u x) x.1 x.2 n (w x.1 x.2) → x ≠ c →
      (f u x).ctxPc c.1 c.2 = u.ctxPc c.1 c.2 := fun {u x c} hx hc passes ne =>
    passes.frame.reg _ (sqField_notPba _ (ctxStat_addr rfl)) fun z hz =>
      lateField_apart_pc (bounds x hx).2 (bounds c hc).2 (fun h => ne h) (late _ _ _ hz)
  have all := foldl_each f (fun u => (∀ k, u.running k = s.running k) ∧ (∀ k, (u.engine k).arrived = (s.engine k).arrived) ∧
      Frame s u [.engines] (fun y => ∃ x ∈ xs, w x.1 x.2 y))
    (fun x u => u.ctxWait x.1 x.2 = s.ctxWait x.1 x.2 ∧ u.ctxPc x.1 x.2 = s.ctxPc x.1 x.2)
    (fun x u => u.ctxWait x.1 x.2 = none ∧ u.ctxPc x.1 x.2 = pcNext (s.ctxPc x.1 x.2) ∧
      (s.running x.1 = some x.2 → (u.engine x.1).afterHold = true ∧ (u.engine x.1).slotB = tickOf (later n 8)) ∧ Q x u)
    xs distinct ?_ ?_ s ⟨fun _ => rfl, fun _ => rfl, .refl _ _ _⟩ fun _ _ => ⟨rfl, rfl⟩
  · obtain ⟨⟨-, arrived, frame⟩, each⟩ := all
    exact ⟨each, arrived, frame⟩
  · intro u ⟨run, arrived, frame⟩ x hx ⟨wait, past⟩
    obtain ⟨passes, extra⟩ := step u (.of_frame frame) x hx wait
    refine ⟨⟨fun k => (runs hx passes k).trans (run k), fun k => ?_, frame.trans (passes.frame.mono (fun _ => id) fun y hy => ⟨x, hx, hy⟩)⟩,
      ?_, passes.place.trans (congrArg pcNext past), fun h => passes.slot ((run _).trans h), extra⟩
    · by_cases h : k = x.1
      · subst h
        exact passes.alone.arrived.trans (arrived _)
      · rw [passes.alone.others _ h]
        exact arrived k
    · unfold State.ctxWait
      rw [passes.waits, vget_vset _ _ _ _ (bounds x hx).2]
  · intro u ⟨run, arrived, frame⟩ x hx ⟨wait, past⟩ c hc ne
    obtain ⟨passes, -⟩ := step u (.of_frame frame) x hx wait
    refine ⟨fun ⟨wait', past'⟩ => ⟨(engines passes ne).trans wait', (place hx hc passes ne).trans past'⟩,
      fun ⟨gone, past', slot, extra⟩ => ⟨(engines passes ne).trans gone, (place hx hc passes ne).trans past', fun h => ?_,
        hold u (.of_frame frame) x hx wait c hc ne extra⟩⟩
    by_cases same : c.1 = x.1
    · have idle : u.running x.1 ≠ some x.2 := fun k => ne (Prod.ext same.symm (by
        rw [run, ← same, h] at k
        exact (Option.some.inj k).symm))
      rw [same, (passes.keeps idle).1, (passes.keeps idle).2, ← same]
      exact slot h
    · rw [passes.alone.others _ same]
      exact slot h

/-! ### The clauses (R250, R252, R280) -/

theorem lateField_apart_mid {l c k a : Nat} (hc : c < 32) {x y : Fld} (h : lateField l c y) (hx : x.reg.addr = groupBase k + a)
    (low : 0xB010 < a) (high : a < 0xB400) (eng : a ≠ 0xB030) : y.apart x := by
  refine .inl ?_
  obtain ⟨d, at_, place⟩ := lateField_addr h
  rw [at_, hx]
  have reach : d ≤ 0xB010 ∨ d = 0xB030 ∨ 0xB400 ≤ d ∧ d < 0xC000 := by
    obtain low | rfl | rfl | ⟨j, hj, pos, rfl⟩ := place
    · exact .inl low
    · exact .inr (.inl (Nat.add_left_cancel (at_ : groupBase l + 0xB030 = groupBase l + d)).symm)
    · have := (ctxStat_addr (k := c) (y := SQ_CTX_STAT_PC l c) rfl).symm.trans at_
      exact .inr (.inr (by omega))
    · exact .inr (.inr (by omega))
  simp only [groupBase]
  obtain lt | rfl | gt := Nat.lt_trichotomy l k <;> omega

theorem State.withdraw_leaves (s : State) {b : Nat} (hb : b < 8) : (s.withdraw b).get (SQ_BAR_ARR_ARR 0 b) = 0 ∧
    (∀ l ∈ s.leaders, vget ((s.withdraw b).engine l).arrived b none = none) ∧
    (∀ l, ((s.withdraw b).engine l).waits = (s.engine l).waits) ∧ Frame s (s.withdraw b) [.engines] (· = SQ_BAR_ARR_ARR 0 b) := by
  have word : (SQ_BAR_ARR_ARR 0 b).inWord := Fld.inWord_of _ rfl
  have all := foldl_establishes (fun (s : State) l => s.setEngine l { s.engine l with arrived := vset (s.engine l).arrived b none })
    (fun u => (∀ l, (u.engine l).waits = (s.engine l).waits) ∧ Frame (s.set (SQ_BAR_ARR_ARR 0 b) 0) u [.engines] (fun _ => False))
    (fun l u => vget (u.engine l).arrived b none = none) s.leaders ?_ ?_ ?_ (s.set (SQ_BAR_ARR_ARR 0 b) 0)
    ⟨fun l => by rw [State.engine_congr (State.set_engines ..)], .refl _ _ _⟩
  · obtain ⟨⟨waits, frame⟩, none_⟩ := all
    refine ⟨?_, none_, waits,
      (Frame.set s [.engines] (· = SQ_BAR_ARR_ARR 0 b) _ _ word rfl).trans (frame.mono (fun _ => id) fun _ => False.elim)⟩
    have at_ : (SQ_BAR_ARR_ARR 0 b).reg.addr = groupBase 0 + (0xB140 + 4 * b) := by
      simp only [SQ_BAR_ARR_ARR, SQ_BAR_ARR]
      omega
    exact (frame.reg _ (sqField_notPba _ at_) fun _ => False.elim).trans ((State.get_set _ _ _ word).trans (Nat.zero_mod _))
  · intro u ⟨waits, frame⟩ l hl
    refine ⟨fun k => ?_, frame.trans (.setEngine _ _ _ _ _ (by simp))⟩
    have bound : l < 32 := List.mem_range.1 (List.mem_filter.1 hl).1
    by_cases h : l = k
    · subst h
      rw [State.engine_setEngine _ _ _ bound]
      exact waits l
    · rw [State.engine_setEngine_ne _ _ _ _ h]
      exact waits k
  · intro u _ l hl
    rw [State.engine_setEngine _ _ _ (List.mem_range.1 (List.mem_filter.1 hl).1)]
    exact vget_vset _ _ _ _ hb
  · intro u _ l hl k _ h
    by_cases e : l = k
    · subst e
      rw [State.engine_setEngine _ _ _ (List.mem_range.1 (List.mem_filter.1 hl).1)]
      exact vget_vset _ _ _ _ hb
    · rw [State.engine_setEngine_ne _ _ _ _ e]
      exact h

/-- What the waits of barrier b leave once each has passed after the arrivals were withdrawn. -/
structure BarrierPassed (s t : State) (b : Nat) (n : Time) (w : Nat → Nat → Fld → Prop) (Q : Nat × Nat → State → Prop) : Prop where
  withdrawn : t.get (SQ_BAR_ARR_ARR 0 b) = 0
  arrivals : t.arrivals b = []
  each : ∀ x ∈ s.barrierWaits b, t.ctxWait x.1 x.2 = none ∧ t.ctxPc x.1 x.2 = pcNext (s.ctxPc x.1 x.2) ∧
    (s.running x.1 = some x.2 → (t.engine x.1).afterHold = true ∧ (t.engine x.1).slotB = tickOf (later n 8)) ∧ Q x t
  frame : Frame s t [.engines] (fun y => y = SQ_BAR_ARR_ARR 0 b ∨ ∃ x ∈ s.barrierWaits b, w x.1 x.2 y)

theorem State.leaders_congr {s t : State} (gang : ∀ l, t.get (SQ_GANG_M l) = s.get (SQ_GANG_M l)) : t.leaders = s.leaders := by
  unfold State.leaders State.isLeader State.leader
  simp only [gang]

theorem barrier_passes {s : State} {b : Nat} (hb : b < 8) (f : State → Nat × Nat → State) {n : Time} {w : Nat → Nat → Fld → Prop}
    (late : ∀ l c y, w l c y → lateField l c y) (Q : Nat × Nat → State → Prop)
    (step : ∀ u : State, SameStore s u → ∀ x ∈ s.barrierWaits b, u.ctxWait x.1 x.2 = s.ctxWait x.1 x.2 →
      Passes u (f u x) x.1 x.2 n (w x.1 x.2) ∧ Q x (f u x))
    (hold : ∀ u : State, SameStore s u → ∀ x ∈ s.barrierWaits b, u.ctxWait x.1 x.2 = s.ctxWait x.1 x.2 →
      ∀ c ∈ s.barrierWaits b, x ≠ c → Q c u → Q c (f u x)) :
    BarrierPassed s ((s.barrierWaits b).foldl f (s.withdraw b)) b n w Q := by
  obtain ⟨zero, none_, waits, frame⟩ := s.withdraw_leaves hb
  have store : SameStore s (s.withdraw b) := .of_frame frame
  have wait : ∀ l c, (s.withdraw b).ctxWait l c = s.ctxWait l c := fun l c => by
    unfold State.ctxWait
    rw [waits]
  have arrAt : (SQ_BAR_ARR_ARR 0 b).reg.addr = groupBase 0 + (0xB140 + 4 * b) := by
    simp only [SQ_BAR_ARR_ARR, SQ_BAR_ARR]
    omega
  have running : ∀ k, (s.withdraw b).running k = s.running k := fun k => by
    refine State.running_congr ?_ ?_ <;>
      exact frame.reg _ (sqField_notPba (g := k) 0xB030 rfl) fun z hz => by
        rw [hz]
        refine .inl ?_
        rw [arrAt]
        simp only [groupBase, SQ_STAT_ENG, SQ_STAT_RUNCTX, SQ_STAT]
        omega
  have place : ∀ l c, c < 32 → (s.withdraw b).ctxPc l c = s.ctxPc l c := fun l c hc =>
    frame.reg (SQ_CTX_STAT_PC l c) (sqField_notPba _ (ctxStat_addr rfl)) fun z hz => by
      rw [hz]
      refine .inl ?_
      rw [arrAt, ctxStat_addr (k := c) (y := SQ_CTX_STAT_PC l c) rfl]
      simp only [groupBase]
      omega
  obtain ⟨each, arrived, reach⟩ := passes_each f (s := s.withdraw b) (s.barrierWaits_nodup b)
    (fun x hx => ⟨(State.mem_barrierWaits hx).1, (State.mem_barrierWaits hx).2.1⟩) late Q
    (fun u hu x hx same => step u (store.trans hu) x hx (same.trans (wait _ _)))
    (fun u hu x hx same => hold u (store.trans hu) x hx (same.trans (wait _ _)))
  generalize (s.barrierWaits b).foldl f (s.withdraw b) = t at each arrived reach ⊢
  have keeps : ∀ k a {y : Fld}, y.reg.addr = groupBase k + a → 0xB010 < a → a < 0xB400 → a ≠ 0xB030 → t.get y = (s.withdraw b).get y :=
    fun k a y hy low high eng => reach.reg y (sqField_notPba a hy) fun z ⟨x, hx, hz⟩ =>
      lateField_apart_mid (State.mem_barrierWaits hx).2.1 (late _ _ _ hz) hy low high eng
  have leaders : t.leaders = s.leaders := State.leaders_congr fun l => by
    rw [keeps l 0xB020 rfl (by omega) (by omega) (by omega), frame.reg (SQ_GANG_M l) (sqField_notPba (g := l) 0xB020 rfl) fun z hz => ?_]
    rw [hz]
    refine .inl ?_
    rw [arrAt]
    simp only [groupBase, SQ_GANG_M, SQ_GANG]
    omega
  refine ⟨(keeps 0 _ arrAt (by omega) (by omega) (by omega)).trans zero, ?_, fun x hx => ?_,
    (frame.mono (fun _ => id) fun y hy => .inl hy).trans (reach.mono (fun _ => id) fun y hy => .inr hy)⟩
  · unfold State.arrivals
    rw [leaders]
    exact List.filterMap_eq_nil_iff.2 fun l hl => by rw [arrived, none_ l hl]
  · obtain ⟨gone, past, slot, extra⟩ := each x hx
    exact ⟨gone, past.trans (congrArg pcNext (place _ _ (State.mem_barrierWaits hx).2.1)), fun h => slot ((running _).trans h), extra⟩

theorem BarrierPassed.settle {s t : State} {b : Nat} {n : Time} {w : Nat → Nat → Fld → Prop} {Q : Nat × Nat → State → Prop}
    (h : BarrierPassed s t b n w Q) (stays : ∀ x, Q x t → Q x (Machine.settle s t)) :
    BarrierPassed s (Machine.settle s t) b n w Q := by
  have arrAt : (SQ_BAR_ARR_ARR 0 b).reg.addr = groupBase 0 + (0xB140 + 4 * b) := by
    simp only [SQ_BAR_ARR_ARR, SQ_BAR_ARR]
    omega
  refine ⟨(get_settle _ _ _ (sqField_notPba _ arrAt)).trans h.withdrawn, ?_, fun x hx => ?_, h.frame.trans (.settle _ _ _ _)⟩
  · have leaders : (Machine.settle s t).leaders = t.leaders := State.leaders_congr fun l => get_settle _ _ _ (sqField_notPba (g := l) 0xB020 rfl)
    have eq : (Machine.settle s t).arrivals b = t.arrivals b := by
      unfold State.arrivals
      simp only [leaders, engine_settle]
    exact eq.trans h.arrivals
  · obtain ⟨gone, past, slot, extra⟩ := h.each x hx
    refine ⟨?_, (get_settle _ _ _ (sqField_notPba _ (ctxStat_addr rfl))).trans past, fun runs => ?_, stays x extra⟩
    · unfold State.ctxWait
      rw [engine_settle]
      exact gone
    · rw [engine_settle]
      exact slot runs

theorem later_later (a : Time) (m n : Nat) : later (later a m) n = later a (m + n) := by
  unfold later
  rw [BitVec.add_assoc, BitVec.ofNat_add]

/-- R252: the contexts that wait on a barrier which all have reached. -/
theorem barrierRelease_runs {s : State} {b : Fin 8} {a : Time} (here : s.on (SQ_BAR_CTL_DOM 0 b) = false) (full : s.barrierFull b)
    (some_ : s.barrierSet b ≠ []) (last : lastOf (s.arrivals b) = some a) (due : reached s.time (later a 4))
    (good : ∀ l < 32, ∀ op < 256, (s.dispEntry l op).bad = false)
    (micro : ∀ x ∈ s.barrierWaits b, (s.ctxWait x.1 x.2).map (·.micro) = some (vendorHold 4 [])) :
    RunsTo (exec (.barrierRelease b) s) fun t => BarrierPassed s t b (later a 4) passField fun _ _ => True := by
  have passed : BarrierPassed s (s.releaseBarrier b (later a 4)) b (later a 4) passField fun _ _ => True :=
    barrier_passes b.isLt _ (fun _ _ _ => .inl) _ (fun u store x hx same => by
      obtain ⟨low, -, y, wait, kind⟩ := State.mem_barrierWaits hx
      have plain := micro x hx
      rw [wait] at plain
      exact ⟨u.releaseWait_passes low (same.trans wait) (fun op hop => (congrArg DispEntry.bad (store.entries _ op)).trans (good _ low op hop))
        (by rw [kind]; exact fun _ => nofun) (Option.some.inj plain) _, trivial⟩) fun _ _ _ _ _ _ _ _ _ => trivial
  have dueNow : s.barrierDue b = some (later a 4) := by
    unfold State.barrierDue
    rw [here, if_neg (by decide), full, if_pos (by simpa using some_), last]
    exact Option.filter_some_pos due
  have still : (s.releaseBarrier b (later a 4)).on (SQ_BAR_CTL_DOM 0 b) = false := by
    refine (State.on_congr ?_).trans here
    have at_ : (SQ_BAR_CTL_DOM 0 b).reg.addr = groupBase 0 + (0xB104 + 8 * b) := by
      simp only [SQ_BAR_CTL_DOM, SQ_BAR_CTL]
      omega
    refine passed.frame.reg _ (sqField_notPba _ at_) fun z hz => ?_
    obtain rfl | ⟨x, hx, hz⟩ := hz
    · refine .inl ?_
      rw [at_]
      simp only [SQ_BAR_ARR_ARR, SQ_BAR_ARR]
      omega
    · exact lateField_apart_mid (State.mem_barrierWaits hx).2.1 (.inl hz) at_ (by omega) (by omega) (by omega)
  change RunsTo (done s (s.barrierNow b)) _
  have now : s.barrierNow b = s.releaseBarrier b (later a 4) := by
    unfold State.barrierNow
    rw [dueNow]
    dsimp only
    rw [still, if_neg (by decide)]
  rw [now]
  exact runsTo_done _ _ _ (passed.settle fun _ h => h)

/-- The flags of a context whose barrier timed out (R280). -/
def State.timedOutAt (u : State) (x : Nat × Nat) : State := (u.raise (SQ_CTX_FLAGS_SYNCTO x.1 x.2)).flag (SQ_FLAGS_SYNCTO x.1) (SQ_CNT1_SYNCTO x.1)

/-- SYNCTO stands in the context's flags and in the engine's. -/
def SynctoSet (x : Nat × Nat) (u : State) : Prop := u.get (SQ_CTX_FLAGS_SYNCTO x.1 x.2) = 1 ∧ u.get (SQ_FLAGS_SYNCTO x.1) = 1

theorem ctxFlags_addr (l c : Nat) : (SQ_CTX_FLAGS_SYNCTO l c).reg.addr = groupBase l + (0xB408 + 0x60 * c) := by
  simp only [SQ_CTX_FLAGS_SYNCTO, SQ_CTX_FLAGS]
  omega

theorem ctxFlags_apart {l c k a : Nat} {y : Fld} (hy : y.reg.addr = groupBase k + a) (hc : c < 32) (low : a ≤ 0xB030) :
    y.apart (SQ_CTX_FLAGS_SYNCTO l c) := by
  refine .inl ?_
  rw [hy, ctxFlags_addr]
  simp only [groupBase]
  obtain lt | rfl | gt := Nat.lt_trichotomy l k <;> omega

theorem State.timedOutAt_set (u : State) {x : Nat × Nat} (hx : x.2 < 32) : SynctoSet x (u.timedOutAt x) := by
  constructor
  · refine (State.get_flag_apart _ _ _ _ (Fld.inWord_of _ rfl) (Fld.inWord_of _ rfl) (ctxFlags_apart (k := x.1) (a := 0xB000) rfl hx (by omega))
      (ctxFlags_apart (k := x.1) (a := 0xB010) rfl hx (by omega))).trans ?_
    exact (State.get_raise ..).trans (State.get_set _ _ _ (Fld.inWord_of _ rfl))
  · exact State.get_flag _ _ _ (Fld.inWord_of _ rfl) (Fld.inWord_of _ rfl)
      (.inl (by simp only [SQ_CNT1_SYNCTO, SQ_CNT1, SQ_FLAGS_SYNCTO, SQ_FLAGS]; omega)) rfl

theorem State.timedOutAt_keeps (u : State) {x c : Nat × Nat} (hx : x.2 < 32) (hc : c.2 < 32) (ne : x ≠ c) (h : SynctoSet c u) :
    SynctoSet c (u.timedOutAt x) := by
  have word : ∀ l k, (SQ_CTX_FLAGS_SYNCTO l k).inWord := fun l k => Fld.inWord_of _ rfl
  constructor
  · refine (State.get_flag_apart _ _ _ _ (Fld.inWord_of _ rfl) (Fld.inWord_of _ rfl) (ctxFlags_apart (k := x.1) (a := 0xB000) rfl hc (by omega))
      (ctxFlags_apart (k := x.1) (a := 0xB010) rfl hc (by omega))).trans ?_
    refine (State.get_raise ..).trans ((State.get_set_apart _ _ _ _ (word _ _) (.inl fun same => ne ?_)).trans h.1)
    rw [ctxFlags_addr, ctxFlags_addr] at same
    simp only [groupBase] at same
    exact Prod.ext (by omega) (by omega)
  · by_cases same : x.1 = c.1
    · rw [← same]
      exact (u.timedOutAt_set hx).2
    · refine (State.get_flag_apart _ _ _ _ (Fld.inWord_of _ rfl) (Fld.inWord_of _ rfl) ?_ ?_).trans ?_
      · exact .inl (by simp only [SQ_FLAGS_SYNCTO, SQ_FLAGS, groupBase]; omega)
      · exact .inl (by simp only [SQ_CNT1_SYNCTO, SQ_CNT1, SQ_FLAGS_SYNCTO, SQ_FLAGS, groupBase]; omega)
      · refine (State.get_raise ..).trans ((State.get_set_apart _ _ _ _ (word _ _) (Fld.apart_symm ?_)).trans h.2)
        exact ctxFlags_apart (k := c.1) (a := 0xB000) rfl hx (by omega)

theorem Frame.timedOutAt (u : State) (x : Nat × Nat) : Frame u (u.timedOutAt x) [] (fun y => y = SQ_CTX_FLAGS_SYNCTO x.1 x.2 ∨
    y = SQ_FLAGS_SYNCTO x.1 ∨ y = SQ_CNT1_SYNCTO x.1) :=
  (Frame.raise _ _ _ _ (Fld.inWord_of _ rfl) (.inl rfl)).trans
    (.flag _ _ _ _ _ (Fld.inWord_of _ rfl) (Fld.inWord_of _ rfl) (.inr (.inl rfl)) (.inr (.inr rfl)))

/-- The release of a wait leaves the SYNCTO flags of every context. -/
theorem Passes.keeps_syncto {s t : State} {l c : Nat} {n : Time} (h : Passes s t l c n (passField l c)) (hc : c < 32) {x : Nat × Nat} (hx : x.2 < 32)
    (flags : SynctoSet x s) : SynctoSet x t := by
  have low : ∀ z, passField l c z → z.apart (SQ_CTX_FLAGS_SYNCTO x.1 x.2) ∧ z.apart (SQ_FLAGS_SYNCTO x.1) := fun z hz => by
    obtain (rfl | rfl) | rfl | hz := hz
    · refine ⟨.inl ?_, .inl ?_⟩
      · rw [ctxFlags_addr, ctxStat_addr (k := c) (y := SQ_CTX_STAT_PC l c) rfl]
        simp only [groupBase]
        obtain lt | rfl | gt := Nat.lt_trichotomy l x.1 <;> omega
      · rw [ctxStat_addr (k := c) (y := SQ_CTX_STAT_PC l c) rfl]
        simp only [groupBase, SQ_FLAGS_SYNCTO, SQ_FLAGS]
        omega
    · refine ⟨.inl ?_, .inl ?_⟩
      · rw [ctxFlags_addr]
        simp only [groupBase, SQ_CTX_RES_RES, SQ_CTX_RES]
        obtain lt | rfl | gt := Nat.lt_trichotomy l x.1 <;> omega
      · simp only [groupBase, SQ_CTX_RES_RES, SQ_CTX_RES, SQ_FLAGS_SYNCTO, SQ_FLAGS]
        omega
    · exact ⟨ctxFlags_apart (k := l) (a := 0xB030) rfl hx (by omega),
        .inl (by simp only [SQ_STAT_ENG, SQ_STAT, SQ_FLAGS_SYNCTO, SQ_FLAGS, groupBase]; omega)⟩
    · simp only [List.mem_cons, List.not_mem_nil, or_false] at hz
      obtain rfl | rfl | rfl := hz
      · exact ⟨ctxFlags_apart (k := l) (a := 0xB004) rfl hx (by omega),
          .inl (by simp only [SQ_CLAMP_COUNT_COUNT, SQ_CLAMP_COUNT, SQ_FLAGS_SYNCTO, SQ_FLAGS, groupBase]; omega)⟩
      · refine ⟨ctxFlags_apart (k := l) (a := 0xB000) rfl hx (by omega), ?_⟩
        by_cases same : l = x.1
        · subst same
          exact Fld.apart_of _ _ rfl rfl
        · exact .inl (by simp only [SQ_FLAGS_CLAMP, SQ_FLAGS_SYNCTO, SQ_FLAGS, groupBase]; omega)
      · exact ⟨ctxFlags_apart (k := l) (a := 0xB008) rfl hx (by omega),
          .inl (by simp only [SQ_CLAMP_LAST_PC, SQ_CLAMP_LAST, SQ_FLAGS_SYNCTO, SQ_FLAGS, groupBase]; omega)⟩
  exact ⟨(h.frame.reg _ (sqField_notPba _ (ctxFlags_addr ..)) fun z hz => (low z hz).1).trans flags.1,
    (h.frame.reg _ (sqField_notPba (g := x.1) 0xB000 rfl) fun z hz => (low z hz).2).trans flags.2⟩

/-- R280: a wait whose barrier timed out passes with the flags of the timeout. -/
theorem State.timedOutAt_passes (u : State) {x : Nat × Nat} (low : x.1 < 32) {y : Wait} (wait : u.ctxWait x.1 x.2 = some y)
    (good : ∀ op < 256, (u.dispEntry x.1 op).bad = false) (plain : ∀ d, y.kind ≠ .swc d) (micro : y.micro = vendorHold 4 []) (n : Time) :
    Passes (u.timedOutAt x) ((u.timedOutAt x).releaseWait x.1 x.2 n true) x.1 x.2 n (passField x.1 x.2) ∧
    Passes u ((u.timedOutAt x).releaseWait x.1 x.2 n true) x.1 x.2 n (lateField x.1 x.2) := by
  have flags := Frame.timedOutAt u x
  have engine := State.engine_congr (flags.part .engines (by simp))
  have entries : ∀ op, (u.timedOutAt x).dispEntry x.1 op = u.dispEntry x.1 op := (SameStore.of_frame (flags.mono (by simp) fun _ => id)).entries x.1
  have passes := (u.timedOutAt x).releaseWait_passes low (x := y) (by unfold State.ctxWait; rw [engine]; exact wait)
    (fun op hop => (congrArg DispEntry.bad (entries op)).trans (good op hop)) plain micro n
  have apart : ∀ {z v : Fld} {a : Nat}, (z = SQ_CTX_FLAGS_SYNCTO x.1 x.2 ∨ z = SQ_FLAGS_SYNCTO x.1 ∨ z = SQ_CNT1_SYNCTO x.1) →
      v.reg.addr = groupBase x.1 + a → a = 0xB030 ∨ a = 0xB400 + 0x60 * x.2 → z.apart v := fun {z v a} hz hv ha => by
    refine .inl ?_
    rw [hv]
    obtain rfl | rfl | rfl := hz
    · rw [ctxFlags_addr]; omega
    · simp only [SQ_FLAGS_SYNCTO, SQ_FLAGS]; omega
    · simp only [SQ_CNT1_SYNCTO, SQ_CNT1]; omega
  have runs : (u.timedOutAt x).running x.1 = u.running x.1 := State.running_congr
    (flags.reg (SQ_STAT_ENG x.1) (sqField_notPba (g := x.1) 0xB030 rfl) fun z hz => apart hz rfl (.inl rfl))
    (flags.reg (SQ_STAT_RUNCTX x.1) (sqField_notPba (g := x.1) 0xB030 rfl) fun z hz => apart hz rfl (.inl rfl))
  have place : (u.timedOutAt x).ctxPc x.1 x.2 = u.ctxPc x.1 x.2 :=
    flags.reg _ (sqField_notPba _ (ctxStat_addr rfl)) fun z hz => apart hz (ctxStat_addr rfl) (.inr rfl)
  generalize u.timedOutAt x = v at *
  refine ⟨passes, passes.place.trans (congrArg pcNext place), ?_, fun h => passes.slot (runs.trans h), fun h => ?_, passes.runs.trans runs,
    ⟨fun k hk => (passes.alone.others k hk).trans (engine k), passes.alone.arrived.trans (congrArg Engine.arrived (engine _))⟩,
    (flags.mono (by simp) fun z hz => .inr hz).trans (passes.frame.mono (fun _ => id) fun z hz => .inl hz)⟩
  · rw [passes.waits, engine]
  · rw [← engine]
    exact passes.keeps (by rw [runs]; exact h)

/-- R250, R280: TMO microseconds after the first arrival at a barrier. -/
theorem barrierTimeout_runs {s : State} {b : Fin 8} {a : Time} (first_ : earliestOf (s.arrivals b) = some a)
    (bounded : 0 < s.get (SQ_BAR_CTL_TMO 0 b)) (due : reached s.time (later a (1600 * s.get (SQ_BAR_CTL_TMO 0 b))))
    (good : ∀ l < 32, ∀ op < 256, (s.dispEntry l op).bad = false)
    (micro : ∀ x ∈ s.barrierWaits b, (s.ctxWait x.1 x.2).map (·.micro) = some (vendorHold 4 [])) :
    RunsTo (exec (.barrierTimeout b) s) fun t => BarrierPassed s t b s.time lateField SynctoSet := by
  have late : s.barrierLate b = true := by
    unfold State.barrierLate
    rw [first_]
    exact (Bool.and_eq_true _ _).mpr ⟨decide_eq_true bounded, due⟩
  have ready : ∀ u : State, SameStore s u → ∀ x ∈ s.barrierWaits b, u.ctxWait x.1 x.2 = s.ctxWait x.1 x.2 →
      Passes (u.timedOutAt x) ((u.timedOutAt x).releaseWait x.1 x.2 s.time true) x.1 x.2 s.time (passField x.1 x.2) ∧
      Passes u ((u.timedOutAt x).releaseWait x.1 x.2 s.time true) x.1 x.2 s.time (lateField x.1 x.2) := fun u store x hx same => by
    obtain ⟨low, -, y, wait, kind⟩ := State.mem_barrierWaits hx
    have plain := micro x hx
    rw [wait] at plain
    exact u.timedOutAt_passes low (same.trans wait) (fun op hop => (congrArg DispEntry.bad (store.entries _ op)).trans (good _ low op hop))
      (by rw [kind]; exact fun _ => nofun) (Option.some.inj plain) _
  have own : ∀ {u : State} {x : Nat × Nat}, SameStore s u → (u.timedOutAt x).releaseWait x.1 x.2 u.time true =
      (u.timedOutAt x).releaseWait x.1 x.2 s.time true := fun store => by rw [store.time]
  have passed := barrier_passes (s := s) b.isLt (fun u x => (u.timedOutAt x).releaseWait x.1 x.2 u.time true) (n := s.time) (w := lateField)
    (fun _ _ _ => id) SynctoSet
    (fun u store x hx same => by
      obtain ⟨inner, outer⟩ := ready u store x hx same
      have bound := (State.mem_barrierWaits hx).2.1
      rw [own store]
      exact ⟨outer, inner.keeps_syncto bound bound (u.timedOutAt_set bound)⟩)
    (fun u store x hx same c hc ne flags => by
      have bound := (State.mem_barrierWaits hx).2.1
      have other := (State.mem_barrierWaits hc).2.1
      rw [own store]
      exact (ready u store x hx same).1.keeps_syncto bound other (u.timedOutAt_keeps bound other ne flags))
  change RunsTo (execBarrierTimeout b s) _
  unfold execBarrierTimeout
  rw [doneIf_pos late]
  exact runsTo_done _ _ _ (passed.settle fun x flags => ⟨(get_settle _ _ _ (sqField_notPba _ (ctxFlags_addr ..))).trans flags.1,
    (get_settle _ _ _ (sqField_notPba (g := x.1) 0xB000 rfl)).trans flags.2⟩)

/-- Settles O30: both withdraw the arrivals and release each wait in turn. -/
theorem barriers : Obligations.Barriers := by
  refine ⟨fun s b a here full some_ last due good micro => ?_, fun s b a first_ bounded due good micro => ?_⟩
  · refine (barrierRelease_runs here full some_ last due good micro).mono fun t h =>
      ⟨h.withdrawn, h.arrivals, fun x hx => ⟨(h.each x hx).1, (h.each x hx).2.1⟩, fun x hx runs => ?_,
        h.frame.mono (fun _ => id) fun y hy => ?_⟩
    · obtain ⟨held, slot⟩ := (h.each x hx).2.2.1 runs
      unfold State.nextSlot
      rw [held, if_pos rfl, slot, later_later]
    · obtain rfl | ⟨x, -, hy⟩ := hy
      · exact .inl rfl
      · simp only [passField, List.mem_cons, List.not_mem_nil, or_false] at hy
        exact .inr ⟨x.1, hy.imp (fun h => ⟨x.2, h⟩) id⟩
  · refine (barrierTimeout_runs first_ bounded due good micro).mono fun t h =>
      ⟨h.withdrawn, h.arrivals, fun x hx => ?_, h.frame.mono (fun _ => id) fun y hy => ?_⟩
    · obtain ⟨gone, past, -, flags⟩ := h.each x hx
      exact ⟨gone, past, flags⟩
    · obtain rfl | ⟨x, -, hy⟩ := hy
      · exact .inl rfl
      · simp only [lateField, passField, List.mem_cons, List.not_mem_nil, or_false] at hy
        refine .inr ⟨x.1, ?_⟩
        obtain (((rfl | rfl) | hy) | rfl | hy) := hy
        · exact .inl ⟨x.2, .inl rfl⟩
        · exact .inl ⟨x.2, .inr (.inl rfl)⟩
        · tauto
        · exact .inl ⟨x.2, .inr (.inr rfl)⟩
        · tauto

end Sys2Proof.Machine
end

section
/-! The engine reset and the map of machine checks (R227, R228). -/

namespace Sys2Proof.Machine

/-! ### A plane that stores a word at its Reset value -/

/-- At READY, with the map of machine checks stored as a word of its own although it reads its Reset value. -/
def storedMap : State := { State.reset with live := [(MC_MCHKMAP.addr, 0)] }

/-- Bit 0 at the address of MC_MCHKMAP, of a register whose Reset word sets it. -/
def oddMap : Fld := ⟨⟨MC_MCHKMAP.addr, 1⟩, 0, 0⟩

/-- R227, R228: the engine reset stores the map anew, and a word at its Reset value is not kept. -/
theorem engineReset_drops_map : RunsTo (exec (.sqCmdEngreset 0) storedMap) fun t => t.get oddMap = 1 := by
  have acts : storedMap.actsNow := ⟨by decide +kernel, by decide +kernel, by decide +kernel⟩
  have read : (storedMap.engineReset 0).get oddMap = 1 := by decide +kernel
  change RunsTo (done storedMap (storedMap.sqCmdWrite 0 4 0)) _
  unfold State.sqCmdWrite
  rw [State.mirrored_actsNow _ _ _ _ acts]
  exact runsTo_done _ _ _ ((get_settle _ _ _ (.inr (by decide))).trans read)

/-- Refutes O31: the engine reset writes MC_MCHKMAP, with the value it has, and its frame does not name that register. In
a plane that stores the Reset word of the register the write removes it, which a register of the same address and another
Reset word reads. -/
theorem not_engineCommands : ¬ Obligations.EngineCommands := by
  intro h
  obtain ⟨-, reset, -⟩ := h
  have read : storedMap.get oddMap = 0 := by decide +kernel
  obtain ⟨t, next, -, -, -, -, -, -, -, -, -, -, -, -, frame⟩ :=
    reset storedMap 0 ⟨by decide +kernel, by decide +kernel, by decide +kernel⟩ (by decide +kernel) (by decide +kernel)
  obtain ⟨u, next', now⟩ := engineReset_drops_map
  rw [next] at next'
  injection next' with same
  subst same
  have kept : t.get oddMap = storedMap.get oddMap := frame.reg oddMap (.inr (by decide)) fun y hy => .inl (by
    have at_ : oddMap.reg.addr = 0x070050 := rfl
    rw [at_]
    obtain ⟨low, -⟩ | ⟨b, rfl⟩ := hy
    · simp only [groupBase] at low
      omega
    · simp only [SQ_BAR_ARR_ARR, SQ_BAR_ARR, groupBase]
      omega)
  rw [now, read] at kept
  exact absurd kept (by decide)

end Sys2Proof.Machine
end

section
/-! Doorbells, timers and messages (R238, R247, R248). -/

namespace Sys2Proof.Machine

/-! ### Causes (R238, R248) -/

/-- A cause recorded in a context's CAUSE bits leaves the other fields of its state and of the engine. -/
theorem State.raiseCause_keeps (s : State) (e c i : Nat) {y : Fld} (hy : (SQ_CTX_STAT_CAUSE e c).apart y) :
    (s.raiseBit (SQ_CTX_STAT_CAUSE e c) i).get y = s.get y :=
  (State.get_raiseBit ..).trans (State.get_set_apart _ _ _ _ (Fld.inWord_of _ rfl) hy)

theorem State.cause_ready {s : State} {e c : Nat} (lead : s.isLeader e) (ok : s.inMchk e = false) (here : s.ctxState e c = .ready) (p : Nat) :
    s.cause e c p .doorbell = (s.raiseBit (SQ_CTX_STAT_CAUSE e c) 6).setCtx e c .eligible p := by
  have own : s.leader e = e := beq_iff_eq.1 lead
  unfold State.cause
  rw [own]
  dsimp only
  rw [ok, here, if_neg (by decide)]
  rfl

theorem State.cause_eligible {s : State} {e c : Nat} (lead : s.isLeader e) (ok : s.inMchk e = false) (here : s.ctxState e c = .eligible) (p : Nat) :
    s.cause e c p .doorbell = (s.raiseBit (SQ_CTX_STAT_CAUSE e c) 6).setPrio e c (max (s.ctxPrio e c) p) := by
  have own : s.leader e = e := beq_iff_eq.1 lead
  have prio : (s.raiseBit (SQ_CTX_STAT_CAUSE e c) 6).ctxPrio e c = s.ctxPrio e c := s.raiseCause_keeps _ _ _ (Fld.apart_of _ _ rfl rfl)
  rw [← prio]
  unfold State.cause
  rw [own]
  dsimp only
  rw [ok, here, if_neg (by decide)]
  rfl

theorem State.cause_idle {s : State} {e c : Nat} (lead : s.isLeader e) (here : s.ctxState e c = .idle) (p : Nat) (k : CauseKind) :
    s.cause e c p k = s.dropCause e := by
  have own : s.leader e = e := beq_iff_eq.1 lead
  unfold State.cause
  rw [own]
  dsimp only
  rw [here, if_pos (by simp)]

/-- A context that becomes ELIGIBLE notes this TCLK and its priority. -/
theorem State.setCtx_eligible (s : State) {e c p : Nat} (he : e < 32) (hc : c < 32) (small : p < 8) (was : s.ctxState e c ≠ .eligible) :
    (s.setCtx e c .eligible p).ctxState e c = .eligible ∧ (s.setCtx e c .eligible p).ctxPrio e c = p ∧
    (s.setCtx e c .eligible p).bit (SQ_ELIG_ELIG e) c ∧ vget ((s.setCtx e c .eligible p).engine e).eligAt c [] = [(s.time, p)] := by
  refine ⟨s.ctxState_setCtx .., s.ctxPrio_setCtx _ _ _ small, ?_, ?_⟩
  · have get : (s.setCtx e c .eligible p).get (SQ_ELIG_ELIG e) = _ := s.get_setCtx e c .eligible p _
    have bit := State.bit_setBit ((s.set (SQ_CTX_STAT_STATE e c) CtxState.eligible.code).set (SQ_CTX_STAT_PRIO e c) p) (SQ_ELIG_ELIG e) c c true
      (Fld.inWord_of _ rfl) (show c < 32 from hc)
    rw [if_pos rfl] at bit
    rw [State.bit, get]
    exact bit
  · unfold State.setCtx
    dsimp only
    rw [beq_self_eq_true, bne_iff_ne.2 was, Bool.and_self, if_pos rfl, State.noteElig, State.engine_setEngine _ _ _ he, vget_vset _ _ _ _ hc]
    rw [State.setBit_time, State.set_time, State.set_time]

/-- The fields by which a context's priority and causes show. -/
theorem State.setPrio_eligible (s : State) {e c p : Nat} (he : e < 32) (hc : c < 32) (small : p < 8) (idle : s.running e ≠ some c)
    (was : s.ctxState e c = .eligible) : (s.setPrio e c p).ctxState e c = .eligible ∧ (s.setPrio e c p).ctxPrio e c = p ∧
    (p ≠ s.ctxPrio e c → (vget ((s.setPrio e c p).engine e).eligAt c []).head? = some (s.time, p)) ∧
    Frame s (s.setPrio e c p) [.engines] (· = SQ_CTX_STAT_PRIO e c) := by
  have word : (SQ_CTX_STAT_PRIO e c).inWord := Fld.inWord_of _ rfl
  have state : (s.set (SQ_CTX_STAT_PRIO e c) p).ctxState e c = .eligible :=
    (State.ctxState_congr (State.get_set_apart _ _ _ _ word (Fld.apart_of _ _ rfl rfl))).trans was
  have prio : (s.set (SQ_CTX_STAT_PRIO e c) p).ctxPrio e c = p := (State.get_set _ _ _ word).trans (Nat.mod_eq_of_lt small)
  have set : Frame s (s.set (SQ_CTX_STAT_PRIO e c) p) [.engines] (· = SQ_CTX_STAT_PRIO e c) := .set _ _ _ _ _ word rfl
  have noted : ∀ l, Frame s ((s.set (SQ_CTX_STAT_PRIO e c) p).noteElig e c l) [.engines] (· = SQ_CTX_STAT_PRIO e c) :=
    fun _ => set.trans (.setEngine _ _ _ _ _ (by simp))
  have noteState : ∀ l, ((s.set (SQ_CTX_STAT_PRIO e c) p).noteElig e c l).ctxState e c = .eligible := fun _ =>
    (State.ctxState_congr (State.get_setEngine ..)).trans state
  have notePrio : ∀ l, ((s.set (SQ_CTX_STAT_PRIO e c) p).noteElig e c l).ctxPrio e c = p := fun _ => (State.get_setEngine ..).trans prio
  by_cases same : p = s.ctxPrio e c
  · have eq : s.setPrio e c p = s.set (SQ_CTX_STAT_PRIO e c) p := by
      unfold State.setPrio
      dsimp only
      rw [if_neg idle, was, bne_eq_false_iff_eq.2 same, if_neg (by decide)]
    rw [eq]
    exact ⟨state, prio, fun h => absurd same h, set⟩
  · have eq : s.setPrio e c p = (s.set (SQ_CTX_STAT_PRIO e c) p).noteElig e c ((s.time, p) :: vget (s.engine e).eligAt c []) := by
      unfold State.setPrio
      dsimp only
      rw [if_neg idle, was, bne_iff_ne.2 same, if_pos (by decide)]
    rw [eq]
    refine ⟨noteState _, notePrio _, fun _ => ?_, noted _⟩
    rw [State.noteElig, State.engine_setEngine _ _ _ he, vget_vset _ _ _ _ hc]
    rfl

theorem get_settle_group (s t : State) {g a : Nat} {y : Fld} (h : y.reg.addr = groupBase g + a) : (settle s t).get y = t.get y :=
  get_settle _ _ _ (sqField_notPba a h)

/-! ### Doorbells (R248) -/

theorem State.ringDoorbell_eq {s : State} {v : Word} {c : Fin 32} (go : v.getLsbD 0) (names : v.toNat / 2 % 32 = c) (e : Nat) :
    s.ringDoorbell e v = s.cause e c (v.toNat / 64 % 8) .doorbell := by
  have ctx : fieldOf v 5 1 = c.val := names
  unfold State.ringDoorbell
  rw [fieldOf_bit_one go, if_pos rfl, ctx]
  rfl

section
variable {s : State} {e : EngineIx} {v : Word} {c : Fin 32} (acts : s.actsNow) (go : v.getLsbD 0) (names : v.toNat / 2 % 32 = c)
  (lead : s.isLeader e)
include acts go names lead

omit lead in
theorem doorbell_eq : exec (.doorbell e v) s = done s (s.cause e c (v.toNat / 64 % 8) .doorbell) := by
  change done s (s.mirrored _ _ _) = _
  rw [State.mirrored_actsNow _ _ _ _ acts, State.ringDoorbell_eq go names]

theorem doorbell_ready_runs (ok : s.inMchk e = false) (here : s.ctxState e c = .ready) : RunsTo (exec (.doorbell e v) s) fun t =>
    t.ctxState e c = .eligible ∧ t.ctxPrio e c = v.toNat / 64 % 8 ∧ t.bit (SQ_ELIG_ELIG e) c ∧
    (t.get (SQ_CTX_STAT_CAUSE e c)).testBit 6 ∧ vget (t.engine e).eligAt c [] = [(s.time, v.toNat / 64 % 8)] ∧
    Frame s t [.engines] (· ∈ [SQ_CTX_STAT_STATE e c, SQ_CTX_STAT_PRIO e c, SQ_CTX_STAT_CAUSE e c, SQ_ELIG_ELIG e]) := by
  have small : v.toNat / 64 % 8 < 8 := Nat.mod_lt _ (by decide)
  rw [doorbell_eq acts go names, State.cause_ready lead ok here]
  have raising : Frame s (s.raiseBit (SQ_CTX_STAT_CAUSE e c) 6) [.engines]
      (· ∈ [SQ_CTX_STAT_STATE e c, SQ_CTX_STAT_PRIO e c, SQ_CTX_STAT_CAUSE e c, SQ_ELIG_ELIG e]) :=
    .raiseBit _ _ _ _ _ (Fld.inWord_of _ rfl) (by simp)
  have cause : (s.raiseBit (SQ_CTX_STAT_CAUSE e c) 6).bit (SQ_CTX_STAT_CAUSE e c) 6 = true := by
    rw [State.bit_raiseBit _ _ _ _ (Fld.inWord_of _ rfl) (show 6 < 22 + 1 - 14 by decide), decide_eq_true rfl, Bool.or_true]
  have was : (s.raiseBit (SQ_CTX_STAT_CAUSE e c) 6).ctxState e c ≠ .eligible := by
    rw [State.ctxState_congr (s.raiseCause_keeps e c 6 (y := SQ_CTX_STAT_STATE e c) (Fld.apart_of _ _ rfl rfl)), here]
    decide
  have time : (s.raiseBit (SQ_CTX_STAT_CAUSE e c) 6).time = s.time := State.raiseBit_time ..
  generalize s.raiseBit (SQ_CTX_STAT_CAUSE e c) 6 = u at *
  obtain ⟨state, prio, elig, noted⟩ := u.setCtx_eligible e.isLt c.isLt small was
  have kept := u.get_setCtx_apart e c .eligible (v.toNat / 64 % 8) (y := SQ_CTX_STAT_CAUSE e c) (Fld.apart_of _ _ rfl rfl)
    (Fld.apart_of _ _ rfl rfl) (Fld.apart_symm (ctxStat_apart (a := 0xB034) rfl rfl (by omega)))
  have frame := Frame.setCtx_fields u e c .eligible (v.toNat / 64 % 8)
  refine runsTo_done _ _ _ ⟨(State.ctxState_congr (get_settle_group _ _ (ctxStat_addr rfl))).trans state,
    (get_settle_group _ _ (ctxStat_addr rfl)).trans prio, ?_, ?_, ?_,
    (raising.trans (frame.mono (fun _ => id) fun y hy => ?_)).trans (.settle _ _ _ _)⟩
  · rw [State.bit, get_settle_group _ _ (g := e) (a := 0xB034) rfl]
    exact elig
  · rw [get_settle_group _ _ (ctxStat_addr rfl), kept]
    exact cause
  · rw [engine_settle, noted, time]
  · simp only [List.mem_cons, List.not_mem_nil, or_false] at hy ⊢
    tauto

theorem doorbell_eligible_runs (ok : s.inMchk e = false) (here : s.ctxState e c = .eligible) (idle : s.running e = none) :
    RunsTo (exec (.doorbell e v) s) fun t =>
      t.ctxState e c = .eligible ∧ t.ctxPrio e c = max (s.ctxPrio e c) (v.toNat / 64 % 8) ∧
      (s.ctxPrio e c < v.toNat / 64 % 8 → (vget (t.engine e).eligAt c []).head? = some (s.time, v.toNat / 64 % 8)) ∧
      Frame s t [.engines] (· ∈ [SQ_CTX_STAT_PRIO e c, SQ_CTX_STAT_CAUSE e c]) := by
  have small : max (s.ctxPrio e c) (v.toNat / 64 % 8) < 8 := max_lt (State.get_lt s (SQ_CTX_STAT_PRIO e c)) (Nat.mod_lt _ (by decide))
  rw [doorbell_eq acts go names, State.cause_eligible lead ok here]
  have raising : Frame s (s.raiseBit (SQ_CTX_STAT_CAUSE e c) 6) [.engines] (· ∈ [SQ_CTX_STAT_PRIO e c, SQ_CTX_STAT_CAUSE e c]) :=
    .raiseBit _ _ _ _ _ (Fld.inWord_of _ rfl) (by simp)
  have state : (s.raiseBit (SQ_CTX_STAT_CAUSE e c) 6).ctxState e c = .eligible :=
    (State.ctxState_congr (s.raiseCause_keeps e c 6 (Fld.apart_of _ _ rfl rfl))).trans here
  have prio : (s.raiseBit (SQ_CTX_STAT_CAUSE e c) 6).ctxPrio e c = s.ctxPrio e c := s.raiseCause_keeps e c 6 (Fld.apart_of _ _ rfl rfl)
  have apart : ∀ y : Fld, y.reg = SQ_STAT e → (SQ_CTX_STAT_CAUSE e c).apart y := fun y hy =>
    ctxStat_apart (a := 0xB030) rfl (by rw [hy]; rfl) (by omega)
  have runs : (s.raiseBit (SQ_CTX_STAT_CAUSE e c) 6).running e = none :=
    (State.running_congr (s.raiseCause_keeps e c 6 (apart _ rfl)) (s.raiseCause_keeps e c 6 (apart _ rfl))).trans idle
  have time : (s.raiseBit (SQ_CTX_STAT_CAUSE e c) 6).time = s.time := State.raiseBit_time ..
  generalize s.raiseBit (SQ_CTX_STAT_CAUSE e c) 6 = u at *
  obtain ⟨state', prio', noted, frame⟩ := u.setPrio_eligible e.isLt c.isLt small (by rw [runs]; exact nofun) state
  refine runsTo_done _ _ _ ⟨(State.ctxState_congr (get_settle_group _ _ (ctxStat_addr rfl))).trans state',
    (get_settle_group _ _ (ctxStat_addr rfl)).trans prio', fun higher => ?_,
    (raising.trans (frame.mono (fun _ => id) fun y hy => ?_)).trans (.settle _ _ _ _)⟩
  · rw [engine_settle, noted (by rw [prio]; omega), time, Nat.max_eq_right higher.le]
  · rw [hy]
    exact List.mem_cons_self

theorem doorbell_idle_runs (here : s.ctxState e c = .idle) : RunsTo (exec (.doorbell e v) s) fun t =>
    t.get (SQ_FLAGS_CAUSEDROP e) = 1 ∧ t.get (SQ_CNT0_CAUSEDROP e) = min (s.get (SQ_CNT0_CAUSEDROP e) + 1) 65535 ∧
    Frame s t [] (· ∈ [SQ_FLAGS_CAUSEDROP e, SQ_CNT0_CAUSEDROP e]) := by
  have flag : (SQ_FLAGS_CAUSEDROP e).inWord := Fld.inWord_of _ rfl
  have count : (SQ_CNT0_CAUSEDROP e).inWord := Fld.inWord_of _ rfl
  have apart : (SQ_FLAGS_CAUSEDROP e).apart (SQ_CNT0_CAUSEDROP e) :=
    .inl (by simp only [SQ_FLAGS_CAUSEDROP, SQ_FLAGS, SQ_CNT0_CAUSEDROP, SQ_CNT0]; omega)
  rw [doorbell_eq acts go names, State.cause_idle lead here]
  refine runsTo_done _ _ _ ⟨(get_settle_group _ _ (g := e) (a := 0xB000) rfl).trans (State.get_flag _ _ _ flag count (Fld.apart_symm apart) rfl),
    (get_settle_group _ _ (g := e) (a := 0xB00C) rfl).trans (State.get_flag_count _ _ _ flag count apart),
    (Frame.flag _ _ _ _ _ flag count (by simp) (by simp)).trans (.settle _ _ _ _)⟩

end

/-! ### Timers (R248) -/

theorem timerArm_runs {s : State} (e : EngineIx) (j : Fin 2) {v : Word} (acts : s.actsNow) (arm : v.getLsbD 31) :
    RunsTo (exec (.timerArm e j v) s) fun t =>
      t.get (SQ_TMR_CTL_ARMED e j) = 1 ∧ t.get (SQ_TMR_CTL_EN e j) = v.toNat % 2 ∧
      t.get (SQ_TMR_CTL_CTX e j) = v.toNat / 2 % 32 ∧ t.get (SQ_TMR_CTL_PRIO e j) = v.toNat / 64 % 8 ∧
      vget (t.engine e).timers j 0 = s.getTime (SQ_TMR_LO_T_LO e j) (SQ_TMR_HI_T_HI e j) ∧
      Frame s t [.engines] (fun y => y.reg = SQ_TMR_CTL e j) := by
  have at_ : ∀ y : Fld, y.reg = SQ_TMR_CTL e j → y.reg.addr = groupBase e + (0xB06C + 0x10 * j) := fun y hy => by
    rw [hy]
    simp only [SQ_TMR_CTL]
    omega
  obtain ⟨u, hu⟩ : ∃ u, u = ((s.set (SQ_TMR_CTL_PRIO e j) (fieldOf v 8 6)).set (SQ_TMR_CTL_CTX e j) (fieldOf v 5 1)).set
    (SQ_TMR_CTL_EN e j) (fieldOf v 0 0) := ⟨_, rfl⟩
  have prioW : (SQ_TMR_CTL_PRIO e j).inWord := Fld.inWord_of _ rfl
  have ctxW : (SQ_TMR_CTL_CTX e j).inWord := Fld.inWord_of _ rfl
  have enW : (SQ_TMR_CTL_EN e j).inWord := Fld.inWord_of _ rfl
  have armedW : (SQ_TMR_CTL_ARMED e j).inWord := Fld.inWord_of _ rfl
  have setting : Frame s u [.engines] (fun y => y.reg = SQ_TMR_CTL e j) := by
    rw [hu]
    exact ((Frame.set s [.engines] (fun y => y.reg = SQ_TMR_CTL e j) (SQ_TMR_CTL_PRIO e j) _ prioW rfl).trans
      (.set _ _ _ (SQ_TMR_CTL_CTX e j) _ ctxW rfl)).trans (.set _ _ _ (SQ_TMR_CTL_EN e j) _ enW rfl)
  have en : (u.set (SQ_TMR_CTL_ARMED e j) 1).get (SQ_TMR_CTL_EN e j) = v.toNat % 2 := by
    rw [State.get_set_apart _ (SQ_TMR_CTL_ARMED e j) (SQ_TMR_CTL_EN e j) _ armedW (Fld.apart_of _ _ rfl rfl), hu, State.get_set _ _ _ enW]
    exact Nat.mod_eq_of_lt (fieldOf_lt ..) |>.trans (by unfold fieldOf; rw [pow_zero, Nat.div_one]; rfl)
  have ctx : (u.set (SQ_TMR_CTL_ARMED e j) 1).get (SQ_TMR_CTL_CTX e j) = v.toNat / 2 % 32 := by
    rw [State.get_set_apart _ (SQ_TMR_CTL_ARMED e j) (SQ_TMR_CTL_CTX e j) _ armedW (Fld.apart_of _ _ rfl rfl), hu,
      State.get_set_apart _ (SQ_TMR_CTL_EN e j) (SQ_TMR_CTL_CTX e j) _ enW (Fld.apart_of _ _ rfl rfl), State.get_set _ _ _ ctxW]
    exact Nat.mod_eq_of_lt (fieldOf_lt ..)
  have prio : (u.set (SQ_TMR_CTL_ARMED e j) 1).get (SQ_TMR_CTL_PRIO e j) = v.toNat / 64 % 8 := by
    rw [State.get_set_apart _ (SQ_TMR_CTL_ARMED e j) (SQ_TMR_CTL_PRIO e j) _ armedW (Fld.apart_of _ _ rfl rfl), hu,
      State.get_set_apart _ (SQ_TMR_CTL_EN e j) (SQ_TMR_CTL_PRIO e j) _ enW (Fld.apart_of _ _ rfl rfl),
      State.get_set_apart _ (SQ_TMR_CTL_CTX e j) (SQ_TMR_CTL_PRIO e j) _ ctxW (Fld.apart_of _ _ rfl rfl), State.get_set _ _ _ prioW]
    exact Nat.mod_eq_of_lt (fieldOf_lt ..)
  have armed : (u.set (SQ_TMR_CTL_ARMED e j) 1).get (SQ_TMR_CTL_ARMED e j) = 1 := State.get_set _ _ _ armedW
  have target : u.getTime (SQ_TMR_LO_T_LO e j) (SQ_TMR_HI_T_HI e j) = s.getTime (SQ_TMR_LO_T_LO e j) (SQ_TMR_HI_T_HI e j) := by
    have other : ∀ (y : Fld) (a : Nat), y.reg.addr = groupBase e + a → a ≠ 0xB06C + 0x10 * j → u.get y = s.get y :=
      fun y a hy ne => setting.reg y (sqField_notPba a hy) fun z hz => .inl (by rw [at_ z hz, hy]; omega)
    exact State.getTime_congr (other _ (0xB060 + 0x10 * j) (by simp only [SQ_TMR_LO_T_LO, SQ_TMR_LO]; omega) (by omega))
      (other _ (0xB064 + 0x10 * j) (by simp only [SQ_TMR_HI_T_HI, SQ_TMR_HI]; omega) (by omega))
  have eq : s.writeTimer e j v = (u.set (SQ_TMR_CTL_ARMED e j) 1).setEngine e { u.engine e with
      timers := vset (u.engine e).timers j (u.getTime (SQ_TMR_LO_T_LO e j) (SQ_TMR_HI_T_HI e j)) } := by
    unfold State.writeTimer
    rw [hu]
    dsimp only
    rw [fieldOf_of_bit arm, if_pos rfl]
  change RunsTo (done s (s.mirrored _ _ _)) _
  rw [State.mirrored_actsNow _ _ _ _ acts, eq]
  have gets : ∀ y : Fld, y.reg = SQ_TMR_CTL e j → ∀ x, (settle s ((u.set (SQ_TMR_CTL_ARMED e j) 1).setEngine e x)).get y =
      (u.set (SQ_TMR_CTL_ARMED e j) 1).get y := fun y hy x => (get_settle_group _ _ (at_ y hy)).trans (State.get_setEngine ..)
  refine runsTo_done _ _ _ ⟨(gets _ rfl _).trans armed, (gets _ rfl _).trans en, (gets _ rfl _).trans ctx, (gets _ rfl _).trans prio, ?_, ?_⟩
  · rw [engine_settle, State.engine_setEngine _ _ _ e.isLt, ← target]
    exact vget_vset _ _ _ _ j.isLt
  · exact ((setting.trans (.set _ _ _ (SQ_TMR_CTL_ARMED e j) _ armedW rfl)).trans (.setEngine _ _ _ _ _ (by simp))).trans (.settle _ _ _ _)

theorem timerExpire_runs {s : State} (e : EngineIx) (j : Fin 2) (armed : s.on (SQ_TMR_CTL_ARMED e j))
    (due : reached s.time (vget (s.engine e).timers j 0)) {P : State → Prop} (fires : P (settle s (s.timerFires e j))) :
    RunsTo (exec (.timerExpire e j) s) P := by
  change RunsTo (execTimerExpire e j s) P
  unfold execTimerExpire
  rw [doneIf_pos (by rw [armed, due]; rfl)]
  exact runsTo_done _ _ _ fires

theorem oneShot_fires {s : State} (e : EngineIx) (j : Fin 2) (once : s.timerPeriod e j = 0) :
    (settle s (s.timerFires e j)).get (SQ_TMR_CTL_ARMED e j) = 0 ∧
    Frame s (settle s (s.timerFires e j)) [.engines] (fun y => y = SQ_TMR_CTL_ARMED e j ∨ causeField y) := by
  have eq : s.timerFires e j = (s.causeRouted (SQ_TMR_CTL_EN e j) (SQ_TMR_CTL_CTX e j) (SQ_TMR_CTL_PRIO e j) e .timer).set (SQ_TMR_CTL_ARMED e j) 0 :=
    if_pos once
  have word : (SQ_TMR_CTL_ARMED e j).inWord := Fld.inWord_of _ rfl
  rw [eq]
  refine ⟨(get_settle_group _ _ (g := e) (a := 0xB06C + 0x10 * j) (by simp only [SQ_TMR_CTL_ARMED, SQ_TMR_CTL]; omega)).trans
    ((State.get_set _ _ _ word).trans (Nat.zero_mod _)), ?_⟩
  refine ((Frame.causeRouted s _ _ _ _ _ _ _ (by simp) fun y hy => .inr (causeField_of (s.get_lt (SQ_TMR_CTL_CTX e j)) hy)).trans
    (.set _ _ _ _ _ word (.inl rfl))).trans
    (.settle _ _ _ _)

theorem periodic_fires {s : State} (e : EngineIx) (j : Fin 2) (again : 0 < s.timerPeriod e j) (quiet : s.on (SQ_TMR_CTL_EN e j) = false) :
    vget ((settle s (s.timerFires e j)).engine e).timers j 0 = later (vget (s.engine e).timers j 0) (s.timerPeriod e j) ∧
    Frame s (settle s (s.timerFires e j)) [.engines] (fun _ => False) := by
  have routed : s.causeRouted (SQ_TMR_CTL_EN e j) (SQ_TMR_CTL_CTX e j) (SQ_TMR_CTL_PRIO e j) e .timer = s := by
    unfold State.causeRouted
    rw [quiet]
    exact if_neg (by decide)
  have eq : s.timerFires e j = s.setEngine e { s.engine e with
      timers := vset (s.engine e).timers j (later (vget (s.engine e).timers j 0) (s.timerPeriod e j)) } := by
    unfold State.timerFires
    rw [routed]
    exact if_neg again.ne'
  rw [eq]
  refine ⟨?_, (Frame.setEngine _ _ _ _ _ (by simp)).trans (.settle _ _ _ _)⟩
  rw [engine_settle, State.engine_setEngine _ _ _ e.isLt]
  exact vget_vset _ _ _ _ j.isLt

/-! ### Messages (R247) -/

theorem State.writeMsgin2_eq (s : State) (e : Nat) (v : Word) : s.writeMsgin2 e v = (s.set (SQ_MSGIN2_W2 e) (v.toNat % 256)).pushMsg e
    (BitVec.ofNat 72 (v.toNat % 256 * 2 ^ 64 + s.get (SQ_MSGIN1_W1 e) * 2 ^ 32 + s.get (SQ_MSGIN0_W0 e))) := by
  have word : (SQ_MSGIN2_W2 e).inWord := Fld.inWord_of _ rfl
  have low : fieldOf v 7 0 = v.toNat % 256 := by
    unfold fieldOf
    rw [pow_zero, Nat.div_one]
    rfl
  unfold State.writeMsgin2
  dsimp only
  rw [low, State.get_set_apart _ (SQ_MSGIN2_W2 e) (SQ_MSGIN1_W1 e) _ word
      (.inl (by simp only [SQ_MSGIN2_W2, SQ_MSGIN2, SQ_MSGIN1_W1, SQ_MSGIN1]; omega)),
    State.get_set_apart _ (SQ_MSGIN2_W2 e) (SQ_MSGIN0_W0 e) _ word (.inl (by simp only [SQ_MSGIN2_W2, SQ_MSGIN2, SQ_MSGIN0_W0, SQ_MSGIN0]; omega))]

theorem msginPush_eq {s : State} (e : EngineIx) (v : Word) (acts : s.actsNow) : exec (.msginPush e v) s = done s (s.writeMsgin2 e v) := by
  change done s (s.mirrored _ _ _) = _
  rw [State.mirrored_actsNow _ _ _ _ acts]

/-- R247: a message that no cause is routed for enters a queue with room. -/
theorem State.pushMsg_room (s : State) (e : EngineIx) (w : Native) (quiet : s.on (SQ_RT_MSG_EN e) = false) (room : (s.engine e).msgs.length < 16) :
    ((s.pushMsg e w).engine e).msgs = (s.engine e).msgs ++ [w] ∧ (s.pushMsg e w).get (SQ_MSGSTAT_DEPTH e) = (s.engine e).msgs.length + 1 ∧
    Frame s (s.pushMsg e w) [.engines] (· = SQ_MSGSTAT_DEPTH e) := by
  have word : (SQ_MSGSTAT_DEPTH e).inWord := Fld.inWord_of _ rfl
  have eq : s.pushMsg e w = (s.setEngine e { s.engine e with msgs := (s.engine e).msgs ++ [w] }).set (SQ_MSGSTAT_DEPTH e)
      ((s.engine e).msgs.length + 1) := by
    have off : ((s.setEngine e { s.engine e with msgs := (s.engine e).msgs ++ [w] }).set (SQ_MSGSTAT_DEPTH e)
        ((s.engine e).msgs.length + 1)).on (SQ_RT_MSG_EN e) = false :=
      (State.on_congr ((State.get_set_apart _ _ _ _ word
        (.inl (by simp only [SQ_MSGSTAT_DEPTH, SQ_MSGSTAT, SQ_RT_MSG_EN, SQ_RT_MSG]; omega))).trans (State.get_setEngine ..))).trans quiet
    unfold State.pushMsg State.causeRouted
    dsimp only
    rw [if_neg (by omega), off, if_neg (by decide)]
  rw [eq]
  refine ⟨?_, ?_, (Frame.setEngine _ _ _ _ _ (by simp)).trans (.set _ _ _ _ _ word rfl)⟩
  · rw [State.engine_congr (State.set_engines ..), State.engine_setEngine _ _ _ e.isLt]
  · exact (State.get_set _ _ _ word).trans (Nat.mod_eq_of_lt (by show _ < 2 ^ 5; omega))

section
variable {s : State} (e : EngineIx) (v : Word) (acts : s.actsNow) (quiet : s.on (SQ_RT_MSG_EN e) = false)
include acts

include quiet in
theorem msginPush_room_runs (room : (s.engine e).msgs.length < 16) : RunsTo (exec (.msginPush e v) s) fun t =>
    (t.engine e).msgs = (s.engine e).msgs ++
      [BitVec.ofNat 72 (v.toNat % 256 * 2 ^ 64 + s.get (SQ_MSGIN1_W1 e) * 2 ^ 32 + s.get (SQ_MSGIN0_W0 e))] ∧
    t.get (SQ_MSGSTAT_DEPTH e) = (s.engine e).msgs.length + 1 ∧ Frame s t [.engines] (· ∈ [SQ_MSGIN2_W2 e, SQ_MSGSTAT_DEPTH e]) := by
  have word : (SQ_MSGIN2_W2 e).inWord := Fld.inWord_of _ rfl
  have engines : ∀ k, (s.set (SQ_MSGIN2_W2 e) (v.toNat % 256)).engine k = s.engine k := State.engine_congr (State.set_engines ..)
  have setting : Frame s (s.set (SQ_MSGIN2_W2 e) (v.toNat % 256)) [.engines] (· ∈ [SQ_MSGIN2_W2 e, SQ_MSGSTAT_DEPTH e]) :=
    .set _ _ _ _ _ word (by simp)
  have off : (s.set (SQ_MSGIN2_W2 e) (v.toNat % 256)).on (SQ_RT_MSG_EN e) = false :=
    (State.on_congr (State.get_set_apart _ _ _ _ word
      (.inl (by simp only [SQ_MSGIN2_W2, SQ_MSGIN2, SQ_RT_MSG_EN, SQ_RT_MSG]; omega)))).trans quiet
  rw [msginPush_eq e v acts, State.writeMsgin2_eq]
  generalize s.set (SQ_MSGIN2_W2 e) (v.toNat % 256) = u at *
  obtain ⟨msgs, depth, frame⟩ := u.pushMsg_room e
    (BitVec.ofNat 72 (v.toNat % 256 * 2 ^ 64 + s.get (SQ_MSGIN1_W1 e) * 2 ^ 32 + s.get (SQ_MSGIN0_W0 e)))
    off (by rw [engines]; exact room)
  refine runsTo_done _ _ _ ⟨?_, ?_, (setting.trans (frame.mono (fun _ => id) fun y hy => ?_)).trans (.settle _ _ _ _)⟩
  · rw [engine_settle, msgs, engines]
  · rw [get_settle_group _ _ (g := e) (a := 0xB0AC) rfl, depth, engines]
  · rw [hy]
    exact List.mem_cons_of_mem _ List.mem_cons_self

theorem msginPush_full_runs (full : 16 ≤ (s.engine e).msgs.length) : RunsTo (exec (.msginPush e v) s) fun t =>
    t.get (SQ_FLAGS_MSGDROP e) = 1 ∧ t.engines = s.engines ∧
    Frame s t [] (· ∈ [SQ_MSGIN2_W2 e, SQ_FLAGS_MSGDROP e, SQ_CNT0_MSGDROP e]) := by
  have flag : (SQ_FLAGS_MSGDROP e).inWord := Fld.inWord_of _ rfl
  have count : (SQ_CNT0_MSGDROP e).inWord := Fld.inWord_of _ rfl
  have engine : (s.set (SQ_MSGIN2_W2 e) (v.toNat % 256)).engine e = s.engine e := State.engine_congr (State.set_engines ..) _
  have frame : Frame s ((s.set (SQ_MSGIN2_W2 e) (v.toNat % 256)).flag (SQ_FLAGS_MSGDROP e) (SQ_CNT0_MSGDROP e)) []
      (· ∈ [SQ_MSGIN2_W2 e, SQ_FLAGS_MSGDROP e, SQ_CNT0_MSGDROP e]) :=
    (Frame.set _ _ _ _ _ (Fld.inWord_of _ rfl) (by simp)).trans (.flag _ _ _ _ _ flag count (by simp) (by simp))
  have drops : s.writeMsgin2 e v = (s.set (SQ_MSGIN2_W2 e) (v.toNat % 256)).flag (SQ_FLAGS_MSGDROP e) (SQ_CNT0_MSGDROP e) := by
    rw [State.writeMsgin2_eq]
    unfold State.pushMsg
    dsimp only
    rw [engine, if_pos full]
  rw [msginPush_eq e v acts, drops]
  have all := frame.trans (.settle s _ _ _)
  exact runsTo_done _ _ _ ⟨(get_settle_group _ _ (g := e) (a := 0xB000) rfl).trans (State.get_flag _ _ _ flag count
    (.inl (by simp only [SQ_CNT0_MSGDROP, SQ_CNT0, SQ_FLAGS_MSGDROP, SQ_FLAGS]; omega)) rfl), all.part .engines (by simp), all⟩

end

/-- Settles O32: a doorbell is one cause, a timer and a message word act on their engine alone. -/
theorem causesTimersAndMessages : Obligations.CausesTimersAndMessages := by
  refine ⟨fun s e v c acts go names lead ok => ⟨?_, ?_, ?_⟩, fun s e j v acts arm => timerArm_runs e j acts arm,
    fun s e j armed due => ⟨fun once => ?_, fun again quiet => ?_⟩, fun s e v acts quiet => ⟨?_, ?_⟩⟩
  · exact doorbell_ready_runs acts go names lead ok
  · exact doorbell_eligible_runs acts go names lead ok
  · exact doorbell_idle_runs acts go names lead
  · exact timerExpire_runs e j armed due (oneShot_fires e j once)
  · exact timerExpire_runs e j armed due (periodic_fires e j again quiet)
  · exact msginPush_room_runs e v acts quiet
  · exact msginPush_full_runs e v acts

end Sys2Proof.Machine
end

section
/-! The start of a vector and epochs (R56, R67, R68, R177, R231, R232). -/

namespace Sys2Proof.Machine

/-! ### What a vector's start leaves of the group's run (R67, R68, R177) -/

/-- The vectors issued and begun stay, with the end of the period, and so do the other groups. -/
structure SameRun (s t : State) (g : Nat) : Prop where
  issue : (t.group g).issue = (s.group g).issue
  begun : (t.group g).begun = (s.group g).begun
  nextB : (t.group g).nextB = (s.group g).nextB
  others : ∀ m, m ≠ g → t.group m = s.group m

theorem SameRun.trans {s t u : State} {g : Nat} (h : SameRun s t g) (k : SameRun t u g) : SameRun s u g :=
  ⟨k.issue.trans h.issue, k.begun.trans h.begun, k.nextB.trans h.nextB, fun m hm => (k.others m hm).trans (h.others m hm)⟩

theorem SameRun.of_groups {s t : State} (g : Nat) (h : t.groups = s.groups) : SameRun s t g := by
  have same := State.group_congr h
  exact ⟨by rw [same], by rw [same], by rw [same], fun m _ => same m⟩

theorem SameRun.setGroup (s : State) {g : Nat} (hg : g < 32) {x : Group} (issue : x.issue = (s.group g).issue) (begun : x.begun = (s.group g).begun)
    (nextB : x.nextB = (s.group g).nextB) : SameRun s (s.setGroup g x) g := by
  refine ⟨?_, ?_, ?_, fun m hm => State.group_setGroup_ne _ _ _ _ (Ne.symm hm)⟩ <;> rw [State.group_setGroup _ _ _ hg] <;> assumption

theorem SameRun.setChan (s : State) {g : Nat} (hg : g < 32) (p : Nat) (x : Chan) : SameRun s (s.setChan g p x) g := by
  unfold State.setChan
  split
  · exact .setGroup _ hg rfl rfl rfl
  · exact .of_groups g rfl

theorem SameRun.forEach {g : Nat} (s : State) (l : List Nat) (f : State → Nat → State) (step : ∀ u k, SameRun u (f u k) g) :
    SameRun s (s.forEach l f) g :=
  State.forEach_holds (SameRun s · g) f (fun u k h => h.trans (step u k)) s l (.of_groups g rfl)

theorem SameRun.flag (s : State) (g : Nat) (x c : Fld) : SameRun s (s.flag x c) g := .of_groups g (State.flag_groups ..)

/-- The flags and counters of the formation of a vector (R67, R70, R72). -/
def formField (g : Nat) (y : Fld) : Prop := y.reg = TG_FLAGS g ∨ y.reg = TG_CNT0 g ∨ y.reg = TG_CNT1 g

theorem State.formChannel_leaves (s : State) {g : Nat} (hg : g < 32) (p : Nat) (b : Tick) (f : ChanForm) :
    SameRun s (s.formChannel g p b f) g ∧ Frame s (s.formChannel g p b f) [.groups] (formField g) := by
  unfold State.formChannel
  dsimp only
  split
  · exact ⟨(SameRun.setChan s hg p _).trans (.flag _ _ _ _),
      (Frame.setChan _ _ _ _ _ _ (by simp)).trans (.flag _ _ _ _ _ (Fld.inWord_of _ rfl) (Fld.inWord_of _ rfl) (.inl rfl) (.inr (.inr rfl)))⟩
  · exact ⟨SameRun.setChan s hg p _, Frame.setChan _ _ _ _ _ _ (by simp)⟩

theorem formField_apart {g a : Nat} {y : Fld} (hy : y.reg.addr = groupBase g + a) (far : a = 0 ∨ 0x10 < a) : ∀ z, formField g z → z.apart y :=
  fun z hz => .inl (by
    obtain h | h | h := hz <;> rw [h, hy] <;> simp only [TG_FLAGS, TG_CNT0, TG_CNT1] <;> omega)

theorem State.tsInUse_congr {s t : State} {g : Nat} (h : t.get (TG_TS_USE_USE g) = s.get (TG_TS_USE_USE g)) (ts : Nat) :
    t.tsInUse g ts = s.tsInUse g ts := by
  unfold State.tsInUse State.bit
  rw [h]

/-- The registers of a group but for the flags and counters of TG read the same. -/
structure SameForms (s t : State) (g : Nat) : Prop where
  get : ∀ {y : Fld} (a : Nat), y.reg.addr = groupBase g + a → a = 0 ∨ 0x10 < a → t.get y = s.get y

theorem SameForms.of_frame {s t : State} {g : Nat} {ps : List Part} (h : Frame s t ps (formField g)) : SameForms s t g :=
  ⟨fun a hy far => h.reg _ (sqField_notPba a hy) (formField_apart hy far)⟩

theorem SameForms.tsInUse {s t : State} {g : Nat} (h : SameForms s t g) (ts : Nat) : t.tsInUse g ts = s.tsInUse g ts :=
  State.tsInUse_congr (h.get 0 rfl (.inl rfl)) ts

theorem SameForms.chanForm {s t : State} {g : Nat} (h : SameForms s t g) (ts : Nat) (w : Native) (p : Nat) :
    t.chanForm g ts w p = s.chanForm g ts w p := by
  have at_ : ∀ {y : Fld} {o : Nat}, y.reg.addr = groupBase g + (0x2000 + 0x100 * ts + 0x10 * p + o) → t.get y = s.get y :=
    fun hy => h.get _ hy (.inr (by omega))
  have t1 : t.get (TG_T1_T1 g ts p) = s.get (TG_T1_T1 g ts p) := at_ (o := 0) (by simp only [TG_T1_T1, TG_T1]; omega)
  have fmt : t.get (TG_T1_FMT g ts p) = s.get (TG_T1_FMT g ts p) := at_ (o := 0) (by simp only [TG_T1_FMT, TG_T1]; omega)
  have t2 : t.get (TG_T2_T2 g ts p) = s.get (TG_T2_T2 g ts p) := at_ (o := 4) (by simp only [TG_T2_T2, TG_T2]; omega)
  have t3 : t.get (TG_T3_T3 g ts p) = s.get (TG_T3_T3 g ts p) := at_ (o := 8) (by simp only [TG_T3_T3, TG_T3]; omega)
  have t4 : t.get (TG_T4_T4 g ts p) = s.get (TG_T4_T4 g ts p) := at_ (o := 12) (by simp only [TG_T4_T4, TG_T4]; omega)
  have dd : t.get (TG_DSKI_DD_INT g p) = s.get (TG_DSKI_DD_INT g p) :=
    h.get (0x200 + 4 * p) (by simp only [TG_DSKI_DD_INT, TG_DSKI]; omega) (.inr (by omega))
  have dc : t.get (TG_DSKI_DC_INT g p) = s.get (TG_DSKI_DC_INT g p) :=
    h.get (0x200 + 4 * p) (by simp only [TG_DSKI_DC_INT, TG_DSKI]; omega) (.inr (by omega))
  have board : t.get (TG_DSKB_BOARD g p) = s.get (TG_DSKB_BOARD g p) :=
    h.get (0x240 + 4 * p) (by simp only [TG_DSKB_BOARD, TG_DSKB]; omega) (.inr (by omega))
  unfold State.chanForm State.deskewDrive State.deskewCompare
  rw [t1, fmt, t2, t3, t4, dd, dc, board]

/-- R67, R70, R72: a vector begins with the period, timing set and forms of its group. -/
structure VectorFormed (s t : State) (g : Nat) (i : Issued) (b : Tick) : Prop where
  issue : (t.group g).issue = (s.group g).issue
  nextB : (t.group g).nextB = b + BitVec.ofNat 66 (s.tsPeriod g i.ts)
  cur : ∃ v, (t.group g).cur = some v ∧ v.b = b ∧ v.period = s.tsPeriod g i.ts ∧ v.word = i.word ∧
    v.ts = s.tsInUse g i.ts ∧ v.ctx = i.ctx ∧
    v.forms = (List.range 16).map (s.chanForm g (s.tsInUse g i.ts) i.word)
  others : ∀ m, m ≠ g → t.group m = s.group m

theorem VectorFormed.trans {s t u : State} {g : Nat} {i : Issued} {b : Tick} (h : VectorFormed s t g i b) (k : SameRun t u g) :
    VectorFormed s u g i b := by
  obtain ⟨v, cur, rest⟩ := h.cur
  refine ⟨k.issue.trans h.issue, k.nextB.trans h.nextB, ⟨v, ?_, rest⟩, fun m hm => (k.others m hm).trans (h.others m hm)⟩
  unfold Group.cur at *
  rw [k.begun, cur]

theorem State.formVector_forms (s : State) {g : Nat} (hg : g < 32) (i : Issued) (b : Tick) :
    VectorFormed s (s.formVector g i b) g i b ∧ Frame s (s.formVector g i b) [.groups] (formField g) := by
  unfold State.formVector
  extract_lets ts period u w v y z
  have unused : u.groups = s.groups ∧ Frame s u [.groups] (formField g) := by
    by_cases used : ts = i.ts
    · rw [show u = s from if_pos used]
      exact ⟨rfl, .refl _ _ _⟩
    · rw [show u = s.flag (TG_FLAGS_TS_UNUSED g) (TG_CNT0_TS_UNUSED g) from if_neg used]
      exact ⟨State.flag_groups .., .flag _ _ _ _ _ (Fld.inWord_of _ rfl) (Fld.inWord_of _ rfl) (.inl rfl) (.inr (.inl rfl))⟩
  have flagged : w.groups = s.groups ∧ Frame s w [.groups] (formField g) := by
    by_cases odd : ((List.range 16).any fun p => reservedCode (pinCode i.word p)) = true
    · rw [show w = u.flag (TG_FLAGS_RSVD_CODE g) (TG_CNT0_RSVD_CODE g) from if_pos odd]
      exact ⟨(State.flag_groups ..).trans unused.1,
        unused.2.trans (.flag _ _ _ _ _ (Fld.inWord_of _ rfl) (Fld.inWord_of _ rfl) (.inl rfl) (.inr (.inl rfl)))⟩
    · rw [show w = u from if_neg odd]
      exact unused
  have groups := State.group_congr flagged.1
  have forms : ∀ p, w.chanForm g ts i.word p = s.chanForm g ts i.word p := (SameForms.of_frame flagged.2).chanForm ts i.word
  have own : z.group g = { y with begun := (v :: y.begun).take 64, nextB := b + BitVec.ofNat 66 period } := State.group_setGroup _ _ _ hg
  have set : VectorFormed s z g i b := by
    refine ⟨?_, ?_, ⟨v, ?_, rfl, rfl, rfl, rfl, rfl, List.map_congr_left fun p _ => forms p⟩, fun m hm => ?_⟩
    · exact (congrArg Group.issue own).trans (show y.issue = (s.group g).issue from congrArg Group.issue (groups g))
    · exact congrArg Group.nextB own
    · exact congrArg Group.cur own
    · exact (State.group_setGroup_ne _ _ _ _ (Ne.symm hm)).trans (groups m)
  have start : Frame w z [.groups] (formField g) := .setGroup _ _ _ _ _ (by simp)
  refine ⟨set.trans (.forEach _ _ _ fun r p => (r.formChannel_leaves hg p b _).1), (flagged.2.trans start).trans ?_⟩
  exact State.forEach_holds (Frame z · [.groups] (formField g)) _ (fun r p h => h.trans (r.formChannel_leaves hg p b _).2) _ _ (.refl _ _ _)

/-- The registers that the start of a vector may change (R67, R70, R72, R151, R177, R178). -/
def startField (g : Nat) (y : Fld) : Prop := y.reg = TG_FLAGS g ∨ y.reg = TG_CNT0 g ∨ y.reg = TG_CNT1 g ∨ y.reg = TD_FLAGS g ∨
  y.reg = TD_CNT1 g ∨ y.reg = FC_VCNT_LO g ∨ y.reg = FC_VCNT_HI g ∨ y.reg = FC_SUM_STAT g

theorem State.openNext_leaves (s : State) {g : Nat} (hg : g < 32) :
    SameRun s (s.openNext g) g ∧ Frame s (s.openNext g) [.groups] (fun y => y.reg = FC_SUM_STAT g) := by
  unfold State.openNext
  dsimp only
  split
  · refine ⟨SameRun.trans ?_ (.of_groups g (State.showIv_groups ..)), (Frame.setGroup _ _ _ _ _ (by simp)).trans (.showIv _ _ _)⟩
    exact .setGroup s hg rfl rfl rfl
  · exact ⟨.of_groups g rfl, .refl _ _ _⟩

theorem State.vectorWindows_leaves (s : State) {g : Nat} (hg : g < 32) (iv ctx : Nat) (b : Tick) (forms : List ChanForm) (w : Fld → Prop) :
    SameRun s (s.vectorWindows g iv ctx b forms) g ∧ Frame s (s.vectorWindows g iv ctx b forms) [.groups] w := by
  have each : ∀ (u : State) (p : Nat), SameRun s u g ∧ Frame s u [.groups] w →
      ∀ x, SameRun s (u.setChan g p x) g ∧ Frame s (u.setChan g p x) [.groups] w :=
    fun u p h x => ⟨h.1.trans (.setChan _ hg _ _), h.2.trans (.setChan _ _ _ _ _ _ (by simp))⟩
  refine State.forEach_holds (fun u => SameRun s u g ∧ Frame s u [.groups] w) _ (fun u p h => ?_) _ _ ⟨.of_groups g rfl, .refl _ _ _⟩
  dsimp only
  split
  · exact each u p h _
  · exact h

theorem State.vcnt_setVcnt (s : State) (g n : Nat) (small : n < 2 ^ 41) : (s.setVcnt g n).vcnt g = n := by
  have low : (FC_VCNT_LO_V_LO g).inWord := Fld.inWord_of _ rfl
  have high : (FC_VCNT_HI_V_HI g).inWord := Fld.inWord_of _ rfl
  unfold State.vcnt State.setVcnt
  rw [State.get_set _ _ _ high, State.get_set_apart _ (FC_VCNT_HI_V_HI g) (FC_VCNT_LO_V_LO g) _ high
    (.inl (by simp only [FC_VCNT_HI_V_HI, FC_VCNT_HI, FC_VCNT_LO_V_LO, FC_VCNT_LO]; omega)), State.get_set _ _ _ low]
  show n / 2 ^ 32 % 2 ^ 9 * 2 ^ 32 + n % 2 ^ 32 % 2 ^ 32 = n
  omega

/-- R67, R68, R177: the vector formed, its outcome awaited, its windows and its number. -/
theorem State.beginVector_starts (s : State) {g : Nat} (hg : g < 32) (i : Issued) (b : Tick) : VectorFormed s (s.beginVector g i b) g i b ∧
    (s.beginVector g i b).vcnt g = (s.vcnt g + 1) % 2 ^ 41 ∧ Frame s (s.beginVector g i b) [.groups] (startField g) := by
  obtain ⟨formed, forming⟩ := s.formVector_forms hg i b
  obtain ⟨next, opening⟩ := (s.formVector g i b).openNext_leaves hg
  have toU : Frame s ((s.formVector g i b).openNext g) [.groups] (startField g) := (forming.mono (fun _ => id) fun y hy => by
      obtain h | h | h := hy
      · exact .inl h
      · exact .inr (.inl h)
      · exact .inr (.inr (.inl h))).trans
    (opening.mono (fun _ => id) fun y hy => .inr (.inr (.inr (.inr (.inr (.inr (.inr hy)))))))
  have count : ((s.formVector g i b).openNext g).vcnt g = s.vcnt g := by
    have at_ : ∀ {y : Fld}, y.reg = FC_VCNT_LO g ∨ y.reg = FC_VCNT_HI g → ((s.formVector g i b).openNext g).get y = s.get y := fun {y} hy => by
      have addr : ∃ a, y.reg.addr = groupBase g + a ∧ (a = 0x9018 ∨ a = 0x901C) := by
        obtain h | h := hy <;> rw [h]
        · exact ⟨0x9018, rfl, .inl rfl⟩
        · exact ⟨0x901C, rfl, .inr rfl⟩
      obtain ⟨a, ha, place⟩ := addr
      rw [opening.reg y (sqField_notPba a ha) fun z hz => .inl (by rw [hz, ha]; simp only [FC_SUM_STAT]; omega),
        (SameForms.of_frame forming).get a ha (.inr (by omega))]
    unfold State.vcnt
    rw [at_ (.inr rfl), at_ (.inl rfl)]
  unfold State.beginVector
  extract_lets u iv ts period forms v full iv' x w
  have set : SameRun u w g := .setGroup _ hg rfl rfl rfl
  have setting : Frame u w [.groups] (startField g) := .setGroup _ _ _ _ _ (by simp)
  obtain ⟨same, windows⟩ := w.vectorWindows_leaves hg iv.id i.ctx b forms (startField g)
  have number : v.vcnt = s.vcnt g := count
  have small : (v.vcnt + 1) % 2 ^ 41 < 2 ^ 41 := Nat.mod_lt _ (by decide)
  have shown : ∀ t : State, SameRun t (t.showIv g) g := fun t => .of_groups g (State.showIv_groups ..)
  have counted : ∀ (t : State) n, SameRun t (t.setVcnt g n) g := fun t n => .of_groups g ((State.set_groups ..).trans (State.set_groups ..))
  have counting : ∀ (t : State) n, Frame t (t.setVcnt g n) [.groups] (startField g) := fun t n =>
    (Frame.set _ _ _ _ _ (Fld.inWord_of _ rfl) (by simp [startField, FC_VCNT_LO_V_LO])).trans
      (.set _ _ _ _ _ (Fld.inWord_of _ rfl) (by simp [startField, FC_VCNT_HI_V_HI]))
  refine ⟨((((formed.trans next).trans set).trans same).trans (counted _ _)).trans (shown _), ?_,
    (((toU.trans setting).trans windows).trans (counting _ _)).trans
      ((Frame.showIv _ _ _).mono (fun _ => id) fun y hy => ?_)⟩
  · have vcnt := (w.vectorWindows g iv.id i.ctx b forms).vcnt_setVcnt g _ small
    generalize (w.vectorWindows g iv.id i.ctx b forms).setVcnt g ((v.vcnt + 1) % 2 ^ 41) = t at vcnt
    have at_ : ∀ {y : Fld} {a : Nat}, y.reg.addr = groupBase g + a → a = 0x9018 ∨ a = 0x901C →
        (t.showIv g).get y = t.get y := fun {y a} ha place =>
      (Frame.showIv t [] g).reg y (sqField_notPba a ha) fun z hz => .inl (by rw [hz, ha]; simp only [FC_SUM_STAT]; omega)
    rw [← number, ← vcnt]
    unfold State.vcnt
    rw [at_ (y := FC_VCNT_LO_V_LO g) (a := 0x9018) rfl (.inl rfl), at_ (y := FC_VCNT_HI_V_HI g) (a := 0x901C) rfl (.inr rfl)]
  · exact .inr (.inr (.inr (.inr (.inr (.inr (.inr hy))))))

/-! ### VECTOR_BOUNDARY (R68, R177, R231) -/

/-- R93 to R95: the level selects and commits of a boundary are the group's own. -/
theorem State.selectAt_leaves (s : State) {g : Nat} (hg : g < 32) (lsel : Nat) (b : Tick) (w : Fld → Prop) :
    SameRun s ((s.selectAt g lsel b).commitAt g b) g ∧ Frame s ((s.selectAt g lsel b).commitAt g b) [.groups] w := by
  have select : SameRun s (s.selectAt g lsel b) g ∧ Frame s (s.selectAt g lsel b) [.groups] w := by
    unfold State.selectAt
    dsimp only
    split
    · exact ⟨.of_groups g rfl, .refl _ _ _⟩
    · exact ⟨.setGroup _ hg rfl rfl rfl, .setGroup _ _ _ _ _ (by simp)⟩
  exact ⟨select.1.trans (.setGroup _ hg rfl rfl rfl), select.2.trans (.setGroup _ _ _ _ _ (by simp))⟩

theorem State.ochBoundary_leaves (s : State) {g : Nat} (hg : g < 32) (b : Tick) (w : Fld → Prop) :
    SameRun s (s.ochBoundary g b) g ∧ Frame s (s.ochBoundary g b) [.groups] w := by
  unfold State.ochBoundary
  split
  · exact ⟨.setGroup _ hg rfl rfl rfl, .setGroup _ _ _ _ _ (by simp)⟩
  · exact ⟨.of_groups g rfl, .refl _ _ _⟩

theorem VectorFormed.of_run {s t u : State} {g : Nat} {i : Issued} {b : Tick} (forms : SameForms s t g)
    (others : ∀ m, m ≠ g → t.group m = s.group m)
    (h : VectorFormed t u g i b) : (u.group g).issue = (t.group g).issue ∧ (u.group g).nextB = b + BitVec.ofNat 66 (s.tsPeriod g i.ts) ∧
    (∃ v, (u.group g).cur = some v ∧ v.b = b ∧ v.period = s.tsPeriod g i.ts ∧ v.word = i.word ∧
      v.ts = s.tsInUse g i.ts ∧ v.ctx = i.ctx ∧
      v.forms = (List.range 16).map (s.chanForm g (s.tsInUse g i.ts) i.word)) ∧ ∀ m, m ≠ g → u.group m = s.group m := by
  have use := forms.tsInUse i.ts
  have period : t.tsPeriod g i.ts = s.tsPeriod g i.ts := by
    unfold State.tsPeriod
    rw [use]
    exact forms.get (0x100 + 4 * s.tsInUse g i.ts) (by simp only [TG_TS_PER_PER, TG_TS_PER]; omega) (.inr (by omega))
  obtain ⟨issue, nextB, ⟨v, cur, start, len, word, set, ctx, made⟩, rest⟩ := h
  refine ⟨issue, by rw [nextB, period], ⟨v, cur, start, len.trans period, word, set.trans use, ctx, ?_⟩,
    fun m hm => (rest m hm).trans (others m hm)⟩
  rw [made, use]
  exact List.map_congr_left fun p _ => forms.chanForm _ _ p

theorem State.vcnt_congr {s t : State} {g : Nat} (h : ∀ (a : Nat) (y : Fld), y.reg.addr = groupBase g + a → t.get y = s.get y) :
    t.vcnt g = s.vcnt g := by
  unfold State.vcnt
  rw [h 0x901C _ rfl, h 0x9018 _ rfl]

theorem vectorBoundary_runs {s : State} {g : GroupIx} {i : Issued} {rest : List Issued} {b : Tick} (front : (s.group g).issue = i :: rest)
    (start : i.startAt.getD (s.group g).nextB = b) (due : reached s.time (tclkOf b)) (noReq : i.xreq = none) (noTurn : i.turnEnd = none)
    (quiet : s.cm = none) (still : (s.wp g).armed = none) : RunsTo (exec (.vectorBoundary g) s) fun t =>
      (t.group g).issue = rest ∧ (t.group g).nextB = b + BitVec.ofNat 66 (s.tsPeriod g i.ts) ∧
      (∃ v, (t.group g).cur = some v ∧ v.b = b ∧ v.period = s.tsPeriod g i.ts ∧ v.word = i.word ∧
        v.ts = s.tsInUse g i.ts ∧ v.ctx = i.ctx ∧ v.forms = (List.range 16).map (s.chanForm g (s.tsInUse g i.ts) i.word)) ∧
      t.vcnt g = (s.vcnt g + 1) % 2 ^ 41 ∧ (∀ m < 32, m ≠ g.val → t.group m = s.group m) ∧ Frame s t [.groups] (startField g) := by
  have hg : g.val < 32 := g.isLt
  have due' : s.nextDue g = some b := by
    unfold State.nextDue
    rw [front]
    dsimp only
    rw [start, if_pos due]
  have noCommit : s.commitBy b = s := by
    unfold State.commitBy State.commitDue
    rw [quiet]
  have noPlay : s.wpArmedNow g = s := by
    unfold State.wpArmedNow State.wpArmedDue
    rw [still]
    rfl
  have boundary : s.boundary g i b =
      (((s.setGroup g { s.group g with issue := (s.group g).issue.tail }).selectAt g i.lsel b).commitAt g b).beginVector g i b := by
    unfold State.boundary
    rw [noReq, noTurn]
  have runs : exec (.vectorBoundary g) s = done s ((s.boundary g i b).ochBoundary g b) := by
    change execVectorBoundary g s = _
    unfold execVectorBoundary
    rw [due']
    dsimp only
    rw [noCommit, noPlay, front]
  rw [runs, boundary]
  have popped : (s.setGroup g { s.group g with issue := (s.group g).issue.tail }).group g = _ := State.group_setGroup _ _ _ hg
  have others : ∀ m, m ≠ g.val → (s.setGroup g { s.group g with issue := (s.group g).issue.tail }).group m = s.group m := fun m hm =>
    State.group_setGroup_ne _ _ _ _ (Ne.symm hm)
  have pop : Frame s (s.setGroup g { s.group g with issue := (s.group g).issue.tail }) [.groups] (fun _ => False) := .setGroup _ _ _ _ _ (by simp)
  generalize s.setGroup g { s.group g with issue := (s.group g).issue.tail } = u at popped others pop
  obtain ⟨select, selecting⟩ := u.selectAt_leaves hg i.lsel b (fun _ => False)
  generalize (u.selectAt g i.lsel b).commitAt g b = v at select selecting
  have toV := pop.trans selecting
  obtain ⟨formed, count, frame⟩ := v.beginVector_starts hg i b
  obtain ⟨och, oching⟩ := (v.beginVector g i b).ochBoundary_leaves hg b (fun _ => False)
  generalize v.beginVector g i b = w at formed count frame och oching
  have forms : SameForms s v g := ⟨fun a hy _ => toV.reg _ (sqField_notPba a hy) fun _ => False.elim⟩
  obtain ⟨issue, nextB, cur, rest'⟩ := (formed.trans och).of_run forms fun m hm => (select.others m hm).trans (others m hm)
  have same := State.group_congr (settle_groups s (w.ochBoundary g b))
  have before : v.vcnt g = s.vcnt g := State.vcnt_congr fun a y hy => toV.reg y (sqField_notPba a hy) fun _ => False.elim
  have after : (settle s (w.ochBoundary g b)).vcnt g = w.vcnt g := State.vcnt_congr fun a y hy =>
    (get_settle_group _ _ hy).trans (oching.reg y (sqField_notPba a hy) fun _ => False.elim)
  refine runsTo_done _ _ _ ⟨?_, ?_, ?_, ?_, fun m _ hm => (same m).trans (rest' m hm),
    (((toV.mono (fun _ => id) fun _ => False.elim).trans frame).trans (oching.mono (fun _ => id) fun _ => False.elim)).trans (.settle _ _ _ _)⟩
  · rw [same, issue, select.issue, popped]
    exact congrArg List.tail front
  · rw [same, nextB]
  · rw [same]
    exact cur
  · rw [after, count, before]

/-! ### An epoch reached (R232) -/

theorem State.forEach_idle {f : State → Nat → State} {s : State} {l : List Nat} (h : ∀ n ∈ l, f s n = s) : s.forEach l f = s := by
  unfold State.forEach
  induction l with
  | nil => rfl
  | cons n l ih => rw [List.foldl_cons, h n List.mem_cons_self, ih fun m hm => h m (List.mem_cons_of_mem _ hm)]

theorem State.epochWaits_idle {s : State} {l : Nat} (none_ : ∀ d < 32, s.ctxWait l d = none) (k : Nat) : s.epochWaits k l = s := by
  unfold State.epochWaits
  split
  · rfl
  · refine State.forEach_idle fun d hd => ?_
    rw [none_ d (List.mem_range.1 hd)]

theorem epochReached_runs {s : State} (f : EngineIx) {e : EngineIx} {c : Fin 32} {x : Wait} {n : Time} (quiet : s.cm = none)
    (noSnap : s.snapDue = none) (still : ∀ g < 32, (s.wp g).armed = none) (lead : s.isLeader e) (ok : s.inMchk e = false)
    (good : ∀ op < 256, (s.dispEntry e op).bad = false) (runs : s.running e = some c.val) (wait : s.ctxWait e c = some x) (kind : x.kind = .time n)
    (open_ : x.released = none) (micro : x.micro = vendorHold 2 []) (after : reached n (later x.since 1)) (due : reached s.time n)
    (alone : ∀ l < 32, ∀ d < 32, (l, d) ≠ (e.val, c.val) → s.ctxWait l d = none) :
    RunsTo (exec (.epochReached 1 f) s) fun t => Continues s t e c n := by
  have ends : s.waitOver e c = some n := by
    unfold State.waitOver
    rw [wait]
    dsimp only
    rw [open_, kind]
    dsimp only
    rw [if_pos after, if_pos due]
  have continues := s.releaseWait_continues e.isLt wait runs good (by rw [kind]; exact fun _ => nofun) (clr := true)
    (by rw [micro]; exact micro_waitt) rfl n
  have releases : s.epochWaits 1 e = s.releaseWait e c n true := by
    have holds : (!s.isLeader e || s.inMchk e) = false := by
      rw [lead, ok]
      rfl
    unfold State.epochWaits
    rw [holds, if_neg (by decide)]
    refine State.forEach_one (k := c.val) (List.mem_range.2 c.isLt) List.nodup_range ?_ (fun d hd ne => ?_) fun d hd ne => ?_
    · rw [wait, ends]
      dsimp only
      rw [kind]
      rfl
    · rw [alone e e.isLt d (List.mem_range.1 hd) fun h => ne (Prod.mk.inj h).2]
    · rw [(State.ctxWait_of_waits continues.waits ne).trans (alone e e.isLt d (List.mem_range.1 hd) fun h => ne (Prod.mk.inj h).2)]
  have others : ∀ l < 32, l ≠ e.val → ∀ d < 32, s.ctxWait l d = none := fun l hl ne d hd => alone l hl d hd fun h => ne (Prod.mk.inj h).1
  have eq : s.epochNow 1 f = s.releaseWait e c n true := by
    have snaps : s.snapNow = s := by
      unfold State.snapNow
      rw [noSnap]
    have commits : s.commitAwaits 1 f = false := by
      unfold State.commitAwaits
      rw [quiet]
    have plays : (s.forEach (List.range 32) fun s g => if s.wpAwaits 1 f g then s.wpArmedNow g else s) = s :=
      State.forEach_idle fun g hg => by
        have none_ : s.wpAwaits 1 f g = false := by
          unfold State.wpAwaits
          rw [still g (List.mem_range.1 hg)]
        rw [none_]
        exact if_neg (by decide)
    unfold State.epochNow
    rw [if_pos (.inl rfl), snaps]
    dsimp only
    rw [commits, if_neg (by decide : ¬ (1 = 4)), if_neg (by decide : ¬ (false = true)), plays]
    refine State.forEach_one (k := e.val) (List.mem_range.2 e.isLt) List.nodup_range releases (fun l hl ne => ?_) fun l hl ne => ?_
    · exact State.epochWaits_idle (others l (List.mem_range.1 hl) ne) 1
    · refine State.epochWaits_idle (fun d hd => ?_) 1
      unfold State.ctxWait
      rw [continues.alone.others l ne]
      exact others l (List.mem_range.1 hl) ne d hd
  change RunsTo (done s (s.epochNow 1 f)) _
  rw [eq]
  exact runsTo_done _ _ _ continues.settle

/-- Settles O33: a boundary forms the group's next vector; an epoch releases the one wait of its kind. -/
theorem vectorBoundariesAndEpochs : Obligations.VectorBoundariesAndEpochs := by
  refine ⟨fun s g i rest b front start due noReq noTurn quiet still => vectorBoundary_runs front start due noReq noTurn quiet still,
    fun s f e c x n quiet noSnap still lead ok good runs wait kind open_ micro after due alone => ?_⟩
  exact (epochReached_runs f quiet noSnap still lead ok good runs wait kind open_ micro after due alone).mono fun t h =>
    ⟨h.place, h.gone c.isLt, h.nextSlot, h.frame⟩

end Sys2Proof.Machine
end

section
/-! Parity errors, injection and the scrubber (R319 to R322). -/

namespace Sys2Proof.Machine

/-! ### The exceptions of the control store (R319 to R322) -/

theorem find_put {α : Type} (l : List (Nat × α)) (k j : Nat) (x : α) :
    (l.filter (·.1 < k) ++ (k, x) :: l.filter (k < ·.1)).find? (·.1 == j) = if j = k then some (k, x) else l.find? (·.1 == j) := by
  have low : ∀ m, (l.filter (·.1 < m)).find? (·.1 == j) = if j < m then l.find? (·.1 == j) else none := fun m => by
    rw [List.find?_filter]
    split
    · next h =>
      congr 1
      funext a
      by_cases e : a.1 = j
      · simp [e, h]
      · simp [e]
    · next h => exact List.find?_eq_none.2 fun a _ => by simp; omega
  have high : (l.filter (k < ·.1)).find? (·.1 == j) = if k < j then l.find? (·.1 == j) else none := by
    rw [List.find?_filter]
    split
    · next h =>
      congr 1
      funext a
      by_cases e : a.1 = j
      · simp [e, h]
      · simp [e]
    · next h => exact List.find?_eq_none.2 fun a _ => by simp; omega
  rw [List.find?_append, List.find?_cons, low, high]
  obtain lt | rfl | gt := Nat.lt_trichotomy j k
  · rw [if_pos lt, if_neg (by omega), if_neg (by omega), beq_false_of_ne (by omega : k ≠ j)]
    exact Option.or_none
  · rw [if_neg (by omega), if_pos rfl, beq_self_eq_true]
    rfl
  · rw [if_neg (by omega : ¬ j < k), if_neg (by omega : ¬ j = k), if_pos gt, beq_false_of_ne (by omega : k ≠ j)]
    exact Option.none_or

theorem State.csEntry_setCsEntry (s : State) (e i : Nat) (x : CsEntry) : (s.setCsEntry e i x).csEntry e i = x := by
  unfold State.csEntry State.setCsEntry
  dsimp only
  rw [find_put, if_pos rfl]
  rfl

theorem State.csEntry_setCsEntry_ne (s : State) {e i f j : Nat} (x : CsEntry) (hi : i < 2048) (hj : j < 2048) (ne : (f, j) ≠ (e, i)) :
    (s.setCsEntry e i x).csEntry f j = s.csEntry f j := by
  have key : 2048 * f + j ≠ 2048 * e + i := fun h => ne (Prod.ext (by simp only; omega) (by simp only; omega))
  unfold State.csEntry State.setCsEntry
  dsimp only
  rw [find_put, if_neg key]

theorem State.dispEntry_setDispEntry (s : State) (e i : Nat) (x : DispEntry) : (s.setDispEntry e i x).dispEntry e i = x := by
  unfold State.dispEntry State.setDispEntry
  dsimp only
  rw [find_put, if_pos rfl]
  rfl

theorem State.dispEntry_setDispEntry_ne (s : State) {e i f j : Nat} (x : DispEntry) (hi : i < 256) (hj : j < 256) (ne : (f, j) ≠ (e, i)) :
    (s.setDispEntry e i x).dispEntry f j = s.dispEntry f j := by
  have key : 256 * f + j ≠ 256 * e + i := fun h => ne (Prod.ext (by simp only; omega) (by simp only; omega))
  unfold State.dispEntry State.setDispEntry
  dsimp only
  rw [find_put, if_neg key]

/-- The exceptions of the store are a part of their own. -/
theorem Frame.setCsEntry (s : State) (e i : Nat) (x : CsEntry) (w : Fld → Prop) : Frame s (s.setCsEntry e i x) [.store] w :=
  Frame.parts _ (fun p hp => by cases p <;> simp [State.samePart, State.setCsEntry] at *) rfl

theorem Frame.setDispEntry (s : State) (e i : Nat) (x : DispEntry) (w : Fld → Prop) : Frame s (s.setDispEntry e i x) [.store] w :=
  Frame.parts _ (fun p hp => by cases p <;> simp [State.samePart, State.setDispEntry] at *) rfl

theorem State.csEntry_congr {s t : State} (store : t.cs = s.cs) (image : t.imgEntries = s.imgEntries) (e i : Nat) :
    t.csEntry e i = s.csEntry e i := by
  unfold State.csEntry
  rw [store, image]

theorem Frame.csEntry {s t : State} {ps : List Part} {w : Fld → Prop} (h : Frame s t ps w) (store : .store ∉ ps) (image : .image ∉ ps)
    (e i : Nat) :
    t.csEntry e i = s.csEntry e i := State.csEntry_congr (h.part .store store).1 (h.part .image image).1 e i

/-! ### Injection and the scrubber (R321, R322) -/

theorem csEntry_settle (s t : State) (e i : Nat) : (settle s t).csEntry e i = t.csEntry e i :=
  State.csEntry_congr (settle_cs ..) (settle_imgEntries ..) e i

/-- R322: MC_INJ with ARM inverts one parity bit of one stored entry. -/
theorem parityInject_runs {s : State} {v : Word} (ready : s.ready) (arm : v.getLsbD 31) : RunsTo (exec (.parityInject v) s) fun t =>
    let e := v.toNat % 32
    let i := v.toNat / 2 ^ 16 % 2048
    t.csEntry e i = { s.csEntry e i with
      parity := (s.csEntry e i).parity ^^^ BitVec.ofNat 8 (2 ^ (v.toNat / 2 ^ 8 % 8)) } ∧
    (∀ f < 32, ∀ j < 2048, (f, j) ≠ (e, i) → t.csEntry f j = s.csEntry f j) ∧ t.disp = s.disp ∧ Frame s t [.store] (fun _ => False) := by
  have engine : fieldOf v 4 0 = v.toNat % 32 := by
    unfold fieldOf
    rw [pow_zero, Nat.div_one]
    rfl
  have eq : s.inject v = s.setCsEntry (v.toNat % 32) (v.toNat / 2 ^ 16 % 2048)
      { s.csEntry (v.toNat % 32) (v.toNat / 2 ^ 16 % 2048) with
        parity := (s.csEntry (v.toNat % 32) (v.toNat / 2 ^ 16 % 2048)).parity ^^^ BitVec.ofNat 8 (2 ^ (v.toNat / 2 ^ 8 % 8)) } := by
    unfold State.inject
    rw [fieldOf_of_bit arm, if_pos rfl, engine]
    rfl
  change RunsTo (hostDone s (s.inject v)) _
  rw [eq]
  refine runsTo_hostDone _ _ _ ready ⟨?_, fun f _ j hj ne => ?_, settle_disp .., (Frame.setCsEntry _ _ _ _ _).trans (.settle _ _ _ _)⟩
  · rw [csEntry_settle, State.csEntry_setCsEntry]
  · rw [csEntry_settle]
    exact s.csEntry_setCsEntry_ne _ (Nat.mod_lt _ (by decide)) hj ne

/-- R321: the scrubber is at entry i of every engine in this TCLK. -/
theorem State.scrub_at {s : State} {i : Fin 2048} (now : s.time.toNat % 2 ^ 28 = i * 2 ^ 17) (e : Nat) :
    s.scrub e = if s.mcState = mcLoaded then s.scrubEntry e i else s := by
  unfold State.scrub
  dsimp only
  rw [now, Nat.mul_mod_left, Nat.mul_div_cancel _ (by decide), ite_not]
  rfl

theorem scrub_fixes {s : State} {e : EngineIx} {i : Fin 2048} {x : CsEntry} (loaded : s.mcState = mcLoaded)
    (now : s.time.toNat % 2 ^ 28 = i * 2 ^ 17) (fails : (s.csEntry e i).badSlices ≠ 0) (good : s.goodEntry e i = some x) :
    RunsTo (exec (.scrubRead e) s) fun t =>
      t.csEntry e i = x ∧ t.get MC_FLAGS_SCRUBFIX = 1 ∧ t.get MC_CNT2_SCRUBFIX = min (s.get MC_CNT2_SCRUBFIX + 1) 65535 ∧
      (∀ f < 32, ∀ j < 2048, (f, j) ≠ (e.val, i.val) → t.csEntry f j = s.csEntry f j) ∧
      Frame s t [.store] (· ∈ [MC_FLAGS_SCRUBFIX, MC_CNT2_SCRUBFIX]) := by
  have flagW : MC_FLAGS_SCRUBFIX.inWord := Fld.inWord_of _ rfl
  have countW : MC_CNT2_SCRUBFIX.inWord := Fld.inWord_of _ rfl
  have eq : s.scrub e = (s.setCsEntry e i x).flag MC_FLAGS_SCRUBFIX MC_CNT2_SCRUBFIX := by
    rw [State.scrub_at now, if_pos loaded]
    unfold State.scrubEntry
    rw [if_neg fails, good]
  have same : ∀ f j, (settle s ((s.setCsEntry e i x).flag MC_FLAGS_SCRUBFIX MC_CNT2_SCRUBFIX)).csEntry f j = (s.setCsEntry e i x).csEntry f j :=
    fun f j => (csEntry_settle ..).trans ((Frame.flag _ [] (· ∈ [MC_FLAGS_SCRUBFIX, MC_CNT2_SCRUBFIX]) _ _ flagW countW (by simp)
      (by simp)).csEntry (by simp) (by simp) f j)
  change RunsTo (done s (s.scrub e)) _
  rw [eq]
  refine runsTo_done _ _ _ ⟨?_, ?_, ?_, fun f _ j hj ne => ?_, ?_⟩
  · rw [same, State.csEntry_setCsEntry]
  · rw [get_settle _ _ _ (.inr (by decide))]
    exact State.get_flag _ _ _ flagW countW (.inl (by decide)) rfl
  · rw [get_settle _ _ _ (.inr (by decide)), State.get_flag_count _ _ _ flagW countW (.inl (by decide))]
    rfl
  · rw [same]
    exact s.csEntry_setCsEntry_ne _ i.isLt hj ne
  · exact ((Frame.setCsEntry _ _ _ _ _).trans (.flag _ _ _ _ _ flagW countW (by simp) (by simp))).trans (.settle _ _ _ _)

theorem scrub_fails {s : State} {e : EngineIx} {i : Fin 2048} (loaded : s.mcState = mcLoaded)
    (now : s.time.toNat % 2 ^ 28 = i * 2 ^ 17) (fails : (s.csEntry e i).badSlices ≠ 0) (none_ : s.goodEntry e i = none) :
    RunsTo (exec (.scrubRead e) s) fun t =>
      t.get MC_FLAGS_SCRUBERR = 1 ∧ t.get MC_CNT2_SCRUBERR = min (s.get MC_CNT2_SCRUBERR + 1) 65535 ∧
      Frame s t [] (· ∈ [MC_FLAGS_SCRUBERR, MC_CNT2_SCRUBERR]) := by
  have flagW : MC_FLAGS_SCRUBERR.inWord := Fld.inWord_of _ rfl
  have countW : MC_CNT2_SCRUBERR.inWord := Fld.inWord_of _ rfl
  have eq : s.scrub e = s.flag MC_FLAGS_SCRUBERR MC_CNT2_SCRUBERR := by
    rw [State.scrub_at now, if_pos loaded]
    unfold State.scrubEntry
    rw [if_neg fails, none_]
  change RunsTo (done s (s.scrub e)) _
  rw [eq]
  refine runsTo_done _ _ _ ⟨?_, ?_, (Frame.flag _ _ _ _ _ flagW countW (by simp) (by simp)).trans (.settle _ _ _ _)⟩
  · rw [get_settle _ _ _ (.inr (by decide))]
    exact State.get_flag _ _ _ flagW countW (.inl (by decide)) rfl
  · rw [get_settle _ _ _ (.inr (by decide)), State.get_flag_count _ _ _ flagW countW (.inl (by decide))]
    rfl

theorem scrub_passes {s : State} {e : EngineIx} {i : Fin 2048} (now : s.time.toNat % 2 ^ 28 = i * 2 ^ 17) (fine : (s.csEntry e i).badSlices = 0) :
    RunsTo (exec (.scrubRead e) s) fun t => Frame s t [] (fun _ => False) := by
  have eq : s.scrub e = s := by
    rw [State.scrub_at now]
    unfold State.scrubEntry
    rw [if_pos fine, ite_self]
  change RunsTo (done s (s.scrub e)) _
  rw [eq]
  exact runsTo_done _ _ _ (.settle _ _ _ _)

/-! ### A machine check (R245, R319) -/

/-- An interval's end leaves the group's run and changes FC_SUM_STAT alone. -/
structure Ends (g : Nat) (s t : State) : Prop where
  same : SameRun s t g
  frame : Frame s t [.groups] (fun y => y.reg = FC_SUM_STAT g)

theorem Ends.refl (g : Nat) (s : State) : Ends g s s := ⟨.of_groups g rfl, .refl _ _ _⟩

theorem Ends.trans {g : Nat} {s t u : State} (h : Ends g s t) (k : Ends g t u) : Ends g s u := ⟨h.same.trans k.same, h.frame.trans k.frame⟩

theorem Ends.foldl {α : Type} {g : Nat} {s : State} (l : List α) (f : State → α → State) (step : ∀ u a, Ends g u (f u a)) :
    Ends g s (l.foldl f s) := by
  induction l generalizing s with
  | nil => exact .refl g s
  | cons a l ih => exact (step s a).trans ih

section
variable {g : Nat} (hg : g < 32) (s : State)
include hg

theorem Ends.setGroup {x : Group} (issue : x.issue = (s.group g).issue) (begun : x.begun = (s.group g).begun)
    (nextB : x.nextB = (s.group g).nextB) : Ends g s (s.setGroup g x) :=
  ⟨.setGroup _ hg issue begun nextB, .setGroup _ _ _ _ _ (by simp)⟩

theorem Ends.setChan (p : Nat) (x : Chan) : Ends g s (s.setChan g p x) := ⟨.setChan _ hg _ _, .setChan _ _ _ _ _ _ (by simp)⟩

theorem Ends.takeTrips (iv : Interval) : Ends g s (s.takeTrips g iv) := by
  unfold State.takeTrips
  extract_lets now u
  have flagged : Ends g s u := .foldl _ _ fun u x => .foldl _ _ fun v p => .setGroup hg v rfl rfl rfl
  exact flagged.trans (.setGroup hg u rfl rfl rfl)

theorem Ends.endInterval (iv : Interval) : Ends g s (s.endInterval g iv) := by
  unfold State.endInterval
  extract_lets u words
  have cleared : ∀ v : State, Ends g v (v.clearMeas g) := fun v => .foldl _ _ fun w p => .setChan hg w p _
  have opened : ∀ v : State, Ends g v (v.openNext g) := fun v => ⟨(v.openNext_leaves hg).1, (v.openNext_leaves hg).2⟩
  have mapped : ∀ f, Ends g u (u.mapIv g iv.id f) := fun f => .setGroup hg u rfl rfl rfl
  exact (((Ends.takeTrips hg s iv).trans (mapped _)).trans (cleared _)).trans (opened _)

theorem Ends.endPast : Ends g s (s.endPast g) := by
  unfold State.endPast
  refine .foldl _ _ fun u _ => ?_
  split
  · split
    · exact .endInterval hg u _
    · exact .refl g u
  · exact .refl g u

theorem Ends.endEarly : Ends g s (s.endEarly g) := by
  unfold State.endEarly
  dsimp only
  split
  · split
    · exact .refl g s
    · refine Ends.trans ?_ (.endPast hg _)
      exact .setGroup hg s rfl rfl rfl
  · exact .refl g s

end

theorem SameRun.parkGroup {g : Nat} (hg : g < 32) (s : State) : SameRun s (s.parkGroup g) g := by
  refine .forEach _ _ _ fun u p => ?_
  unfold State.parkUpdate
  dsimp only
  split
  · split
    · exact .setChan _ hg _ _
    · exact (SameRun.setChan _ hg _ _).trans (.of_groups g (State.setBit_groups ..))
  · split
    · exact .setChan _ hg _ _
    · exact .of_groups g rfl

/-- The fields that the stop of engine m may change. -/
def stopField (m : Nat) (y : Fld) : Prop := y = MC_MCHKMAP_MAP ∨ y = SQ_STAT_ENG m ∨ y = LS_PARKSTAT_PARKED m ∨ y.reg = FC_SUM_STAT m

/-- R245: an engine in machine check issues nothing more. -/
structure Stopped (s t : State) (m : Nat) : Prop where
  mchk : ∀ k < 32, t.inMchk k = (s.inMchk k || decide (k = m))
  eng : t.get (SQ_STAT_ENG m) = engMchk
  issue : (t.group m).issue = []
  others : ∀ k, k ≠ m → t.group k = s.group k
  frame : Frame s t [.groups] (stopField m)

theorem State.stopEngine_stops (s : State) {m : Nat} (hm : m < 32) : Stopped s (s.stopEngine m) m := by
  have mapW : MC_MCHKMAP_MAP.inWord := Fld.inWord_of _ rfl
  have engW : (SQ_STAT_ENG m).inWord := Fld.inWord_of _ rfl
  obtain ⟨u, hu⟩ : ∃ u, u = (s.setBit MC_MCHKMAP_MAP m true).set (SQ_STAT_ENG m) engMchk := ⟨_, rfl⟩
  have apart : (SQ_STAT_ENG m).apart MC_MCHKMAP_MAP := .inl (by simp only [SQ_STAT_ENG, SQ_STAT, MC_MCHKMAP_MAP, MC_MCHKMAP, groupBase]; omega)
  have map : ∀ k < 32, u.inMchk k = (s.inMchk k || decide (k = m)) := fun k hk => by
    unfold State.inMchk
    rw [hu, State.bit_set_apart _ _ _ _ _ engW apart, State.bit_setBit _ _ _ _ _ mapW hk]
    by_cases h : m = k
    · rw [if_pos h, decide_eq_true h.symm, Bool.or_true]
    · rw [if_neg h, decide_eq_false (Ne.symm h), Bool.or_false]
  have eng : u.get (SQ_STAT_ENG m) = engMchk := by
    rw [hu, State.get_set _ _ _ engW]
    rfl
  have setting : Frame s u [.groups] (stopField m) := by
    rw [hu]
    exact (Frame.setBit s [.groups] (stopField m) _ _ _ mapW (.inl rfl)).trans (.set _ _ _ _ _ engW (.inr (.inl rfl)))
  have groups := State.group_congr (show u.groups = s.groups by rw [hu]; exact (State.set_groups ..).trans (State.setBit_groups ..))
  have eq : s.stopEngine m = ((u.setGroup m { u.group m with issue := [] }).endEarly m).parkGroup m := by
    rw [hu]
    rfl
  rw [eq]
  have none_ : ((u.setGroup m { u.group m with issue := [] }).group m).issue = [] := congrArg Group.issue (State.group_setGroup _ _ _ hm)
  have rest : ∀ k, k ≠ m → (u.setGroup m { u.group m with issue := [] }).group k = s.group k := fun k hk =>
    (State.group_setGroup_ne _ _ _ _ (Ne.symm hk)).trans (groups k)
  have clearing : Frame u (u.setGroup m { u.group m with issue := [] }) [.groups] (fun _ => False) := .setGroup _ _ _ _ _ (by simp)
  generalize u.setGroup m { u.group m with issue := [] } = v at *
  have early := Ends.endEarly hm v
  have park := SameRun.parkGroup hm (v.endEarly m)
  have parking := Frame.parkGroup (v.endEarly m) [.groups] (· = LS_PARKSTAT_PARKED m) m (by simp) rfl
  have tail : Frame u ((v.endEarly m).parkGroup m) [.groups] (fun y => y = LS_PARKSTAT_PARKED m ∨ y.reg = FC_SUM_STAT m) :=
    ((clearing.mono (fun _ => id) fun _ => False.elim).trans (early.frame.mono (fun _ => id) fun _ => .inr)).trans
      (parking.mono (fun _ => id) fun _ => .inl)
  refine ⟨fun k hk => ?_, ?_, (park.issue.trans early.same.issue).trans none_, fun k hk => ?_,
    setting.trans (tail.mono (fun _ => id) fun y hy => .inr (.inr hy))⟩
  · rw [← map k hk]
    unfold State.inMchk State.bit
    rw [tail.reg MC_MCHKMAP_MAP (.inr (by decide)) fun y hy => .inl ?_]
    obtain rfl | hy := hy
    · simp only [LS_PARKSTAT_PARKED, LS_PARKSTAT, MC_MCHKMAP_MAP, MC_MCHKMAP, groupBase]; omega
    · rw [hy]
      simp only [FC_SUM_STAT, MC_MCHKMAP_MAP, MC_MCHKMAP, groupBase]; omega
  · rw [tail.reg (SQ_STAT_ENG m) (sqField_notPba (g := m) 0xB030 rfl) fun y hy => .inl ?_, eng]
    obtain rfl | hy := hy
    · simp only [LS_PARKSTAT_PARKED, LS_PARKSTAT, SQ_STAT_ENG, SQ_STAT]; omega
    · rw [hy]
      simp only [FC_SUM_STAT, SQ_STAT_ENG, SQ_STAT]; omega
  · exact (park.others k hk).trans ((early.same.others k hk).trans (rest k hk))

/-- R319: the registers that a machine check of engine e may change. -/
def mchkField (e : Nat) (y : Fld) : Prop := y.reg = MC_MCHK e ∨ y = MC_MCHKMAP_MAP ∨ y = MC_FLAGS_PARITY ∨ y = MC_CNT0_PARITY ∨
  ∃ m, y = SQ_STAT_ENG m ∨ y = LS_PARKSTAT_PARKED m ∨ y.reg = FC_SUM_STAT m

theorem State.stopEngines (s : State) {ms : List Nat} (low : ∀ m ∈ ms, m < 32) :
    (∀ m ∈ ms, (s.forEach ms State.stopEngine).inMchk m ∧ (s.forEach ms State.stopEngine).get (SQ_STAT_ENG m) = engMchk ∧
      ((s.forEach ms State.stopEngine).group m).issue = []) ∧
    Frame s (s.forEach ms State.stopEngine) [.groups] (fun y => y = MC_MCHKMAP_MAP ∨
      ∃ m, y = SQ_STAT_ENG m ∨ y = LS_PARKSTAT_PARKED m ∨ y.reg = FC_SUM_STAT m) := by
  have all := foldl_establishes State.stopEngine (fun u => Frame s u [.groups] (fun y => y = MC_MCHKMAP_MAP ∨
      ∃ m, y = SQ_STAT_ENG m ∨ y = LS_PARKSTAT_PARKED m ∨ y.reg = FC_SUM_STAT m))
    (fun m u => u.inMchk m ∧ u.get (SQ_STAT_ENG m) = engMchk ∧ (u.group m).issue = []) ms
    (fun u hu m hm => hu.trans ((u.stopEngine_stops (low m hm)).frame.mono (fun _ => id) fun y hy => ?_)) (fun u _ m hm => ?_)
    (fun u _ m hm k hk h => ?_) s (.refl _ _ _)
  · exact ⟨all.2, all.1⟩
  · exact hy.imp id fun h => ⟨m, h⟩
  · have stops := u.stopEngine_stops (low m hm)
    refine ⟨?_, stops.eng, stops.issue⟩
    rw [stops.mchk m (low m hm), decide_eq_true rfl, Bool.or_true]
  · have stops := u.stopEngine_stops (low m hm)
    by_cases same : k = m
    · subst same
      refine ⟨?_, stops.eng, stops.issue⟩
      rw [stops.mchk k (low k hk), decide_eq_true rfl, Bool.or_true]
    · obtain ⟨mchk, eng, issue⟩ := h
      refine ⟨?_, ?_, ?_⟩
      · rw [stops.mchk k (low k hk), mchk, Bool.true_or]
      · rw [stops.frame.reg (SQ_STAT_ENG k) (sqField_notPba (g := k) 0xB030 rfl) fun y hy => .inl ?_, eng]
        obtain rfl | rfl | rfl | hy := hy
        · simp only [MC_MCHKMAP_MAP, MC_MCHKMAP, SQ_STAT_ENG, SQ_STAT, groupBase]; omega
        · simp only [SQ_STAT_ENG, SQ_STAT, groupBase]; omega
        · simp only [LS_PARKSTAT_PARKED, LS_PARKSTAT, SQ_STAT_ENG, SQ_STAT, groupBase]; omega
        · rw [hy]
          simp only [FC_SUM_STAT, SQ_STAT_ENG, SQ_STAT, groupBase]; omega
      · rw [stops.others k same]
        exact issue

/-- R319: what a parity error of the microword leaves. -/
structure Checked (s t : State) (e entry : Nat) (bad : BitVec 8) : Prop where
  stopped : ∀ m ∈ s.members e, t.inMchk m ∧ t.get (SQ_STAT_ENG m) = engMchk ∧ (t.group m).issue = []
  cause : t.get (MC_MCHK_CAUSE e) = mchkParity
  slices : t.get (MC_MCHK_SLICES e) = bad.toNat
  entry : t.get (MC_MCHK_ENTRY e) = entry
  trace : t.get (MC_MCHK_TRACE e) = (s.engine e).trace % 64
  flag : t.get MC_FLAGS_PARITY = 1
  count : t.get MC_CNT0_PARITY = min (s.get MC_CNT0_PARITY + 1) 65535
  snap : s.bit SN_CTL_EN 1 → ∃ r ∈ t.sn.reqs, r.1 = s.time + 1 ∧ r.2.1.testBit 4
  frame : Frame s t [.groups, .sn] (mchkField e)

theorem addReq_names (l : List (Time × Nat × Bool)) (t : Time) (src : Nat) (late : Bool) :
    ∃ r ∈ addReq l t src late, r.1 = t ∧ r.2.1.testBit src := by
  unfold addReq
  split
  · next h =>
    obtain ⟨r, hr, at_⟩ := List.any_eq_true.1 h
    refine ⟨_, List.mem_map.2 ⟨r, hr, rfl⟩, ?_⟩
    rw [at_, if_pos rfl]
    exact ⟨beq_iff_eq.1 at_, by rw [Nat.testBit_or, Nat.one_shiftLeft, Nat.testBit_two_pow_self, Bool.or_true]⟩
  · exact ⟨_, List.mem_append_right _ List.mem_cons_self, rfl, by rw [Nat.one_shiftLeft]; exact Nat.testBit_two_pow_self⟩

/-- R319: the record of a machine check of engine e. -/
def State.mchkRecord (s : State) (e cause slices entry : Nat) : State :=
  (((s.set (MC_MCHK_CAUSE e) cause).set (MC_MCHK_SLICES e) slices).set (MC_MCHK_TRACE e) (s.engine e).trace).set (MC_MCHK_ENTRY e) entry

theorem State.mchkRecord_sets (s : State) (e : Nat) {cause slices entry : Nat} (hc : cause < 8) (hs : slices < 256) (he : entry < 2048) :
    (s.mchkRecord e cause slices entry).get (MC_MCHK_CAUSE e) = cause ∧ (s.mchkRecord e cause slices entry).get (MC_MCHK_SLICES e) = slices ∧
    (s.mchkRecord e cause slices entry).get (MC_MCHK_ENTRY e) = entry ∧
    (s.mchkRecord e cause slices entry).get (MC_MCHK_TRACE e) = (s.engine e).trace % 64 ∧
    Frame s (s.mchkRecord e cause slices entry) [] (fun y => y.reg = MC_MCHK e) := by
  have causeW : (MC_MCHK_CAUSE e).inWord := Fld.inWord_of _ rfl
  have slicesW : (MC_MCHK_SLICES e).inWord := Fld.inWord_of _ rfl
  have traceW : (MC_MCHK_TRACE e).inWord := Fld.inWord_of _ rfl
  have entryW : (MC_MCHK_ENTRY e).inWord := Fld.inWord_of _ rfl
  unfold State.mchkRecord
  refine ⟨?_, ?_, ?_, ?_, ?_⟩
  · rw [State.get_set_apart _ (MC_MCHK_ENTRY e) (MC_MCHK_CAUSE e) _ entryW (Fld.apart_of _ _ rfl rfl),
      State.get_set_apart _ (MC_MCHK_TRACE e) (MC_MCHK_CAUSE e) _ traceW (Fld.apart_of _ _ rfl rfl),
      State.get_set_apart _ (MC_MCHK_SLICES e) (MC_MCHK_CAUSE e) _ slicesW (Fld.apart_of _ _ rfl rfl), State.get_set _ _ _ causeW]
    exact Nat.mod_eq_of_lt hc
  · rw [State.get_set_apart _ (MC_MCHK_ENTRY e) (MC_MCHK_SLICES e) _ entryW (Fld.apart_of _ _ rfl rfl),
      State.get_set_apart _ (MC_MCHK_TRACE e) (MC_MCHK_SLICES e) _ traceW (Fld.apart_of _ _ rfl rfl), State.get_set _ _ _ slicesW]
    exact Nat.mod_eq_of_lt hs
  · rw [State.get_set _ _ _ entryW]
    exact Nat.mod_eq_of_lt he
  · rw [State.get_set_apart _ (MC_MCHK_ENTRY e) (MC_MCHK_TRACE e) _ entryW (Fld.apart_of _ _ rfl rfl), State.get_set _ _ _ traceW]
    rfl
  · exact (((Frame.set s [] (fun y => y.reg = MC_MCHK e) (MC_MCHK_CAUSE e) _ causeW rfl).trans (.set _ _ _ (MC_MCHK_SLICES e) _ slicesW rfl)).trans
      (.set _ _ _ (MC_MCHK_TRACE e) _ traceW rfl)).trans (.set _ _ _ (MC_MCHK_ENTRY e) _ entryW rfl)

theorem State.members_congr {s t : State} {e : Nat} (h : t.get (SQ_GANG_M e) = s.get (SQ_GANG_M e)) : t.members e = s.members e := by
  unfold State.members State.leader
  rw [h]

theorem State.mchkCount_parity (s : State) : s.mchkCount mchkParity = s.flag MC_FLAGS_PARITY MC_CNT0_PARITY := by
  unfold State.mchkCount
  rw [if_neg (by decide), if_pos (.inl rfl)]

theorem State.get_snapRequest (s : State) (src : Nat) (y : Fld) : (s.snapRequest src).get y = s.get y := by
  unfold State.snapRequest State.snapRequestAt
  split
  · rfl
  · rfl

theorem State.machineCheck_checks (s : State) {e entry : Nat} (he : e < 32) (gang : s.get (SQ_GANG_M e) ≤ 5) (alone : s.role = roleNone)
    (bad : BitVec 8) (small : entry < 2048) : Checked s (s.machineCheck e mchkParity bad.toNat entry) e entry bad := by
  obtain ⟨cause, slices, place, trace, recording⟩ := s.mchkRecord_sets e (cause := mchkParity) (by decide) bad.isLt small
  have flagW : MC_FLAGS_PARITY.inWord := Fld.inWord_of _ rfl
  have countW : MC_CNT0_PARITY.inWord := Fld.inWord_of _ rfl
  have apart : MC_FLAGS_PARITY.apart MC_CNT0_PARITY := .inl (by decide)
  have eq : s.machineCheck e mchkParity bad.toNat entry = State.selfPark (State.snapRequest
      (((s.mchkRecord e mchkParity bad.toNat entry).flag MC_FLAGS_PARITY MC_CNT0_PARITY).forEach
        ((s.mchkRecord e mchkParity bad.toNat entry).members e) State.stopEngine) 4) := by
    unfold State.machineCheck
    dsimp only
    rw [State.mchkCount_parity]
    rfl
  rw [eq]
  have members : (s.mchkRecord e mchkParity bad.toNat entry).members e = s.members e :=
    State.members_congr (recording.reg (SQ_GANG_M e) (sqField_notPba (g := e) 0xB020 rfl) fun z hz => .inl (by
      rw [hz]
      simp only [MC_MCHK, SQ_GANG_M, SQ_GANG, groupBase]
      omega))
  rw [members]
  generalize s.mchkRecord e mchkParity bad.toNat entry = u at *
  have flagging : Frame u (u.flag MC_FLAGS_PARITY MC_CNT0_PARITY) [] (fun y => y = MC_FLAGS_PARITY ∨ y = MC_CNT0_PARITY) :=
    .flag _ _ _ _ _ flagW countW (.inl rfl) (.inr rfl)
  have flag : (u.flag MC_FLAGS_PARITY MC_CNT0_PARITY).get MC_FLAGS_PARITY = 1 := State.get_flag _ _ _ flagW countW (Fld.apart_symm apart) rfl
  have count : (u.flag MC_FLAGS_PARITY MC_CNT0_PARITY).get MC_CNT0_PARITY = min (u.get MC_CNT0_PARITY + 1) 65535 :=
    State.get_flag_count _ _ _ flagW countW apart
  generalize u.flag MC_FLAGS_PARITY MC_CNT0_PARITY = v at *
  have own : ∀ y : Fld, y.reg = MC_MCHK e → v.get y = u.get y := fun y hy =>
    flagging.reg y (.inr (by rw [hy]; simp only [MC_MCHK]; omega)) fun z hz => .inl (by
      rw [hy]
      obtain rfl | rfl := hz <;> simp only [MC_FLAGS_PARITY, MC_FLAGS, MC_CNT0_PARITY, MC_CNT0, MC_MCHK] <;> omega)
  have toV : Frame s v [] (fun y => y.reg = MC_MCHK e ∨ y = MC_FLAGS_PARITY ∨ y = MC_CNT0_PARITY) :=
    (recording.mono (fun _ => id) fun _ => .inl).trans (flagging.mono (fun _ => id) fun _ => .inr)
  have far : ∀ {y : Fld}, y.reg.notPba → y.reg.addr < 0x70000 ∨ 0x70200 ≤ y.reg.addr → v.get y = s.get y := fun {y} pba hy =>
    toV.reg y pba fun z hz => .inl (by
      obtain h | rfl | rfl := hz
      · rw [h]
        simp only [MC_MCHK]
        omega
      all_goals simp only [MC_FLAGS_PARITY, MC_FLAGS, MC_CNT0_PARITY, MC_CNT0]; omega)
  have low : ∀ m ∈ s.members e, m < 32 := fun m hm => State.members_lt he gang hm
  obtain ⟨stopped, stopping⟩ := v.stopEngines low
  generalize v.forEach (s.members e) State.stopEngine = x at *
  have kept : ∀ {y : Fld}, y.reg.notPba → y.reg.addr < 0x100000 → y.reg.addr ≠ 0x70050 → x.get y = v.get y := fun {y} pba below map =>
    stopping.reg y pba fun z hz => .inl (by
      obtain rfl | ⟨m, rfl | rfl | hz⟩ := hz
      · exact fun h => map h.symm
      · simp only [SQ_STAT_ENG, SQ_STAT, groupBase]; omega
      · simp only [LS_PARKSTAT_PARKED, LS_PARKSTAT, groupBase]; omega
      · rw [hz]
        simp only [FC_SUM_STAT, groupBase]; omega)
  have snapping := Frame.snapRequest x [.sn] (fun _ => False) 4 (by simp)
  have regs : ∀ y : Fld, (x.snapRequest 4).get y = x.get y := fun y => State.get_snapRequest x 4 y
  have groups : (x.snapRequest 4).groups = x.groups := snapping.part .groups (by simp)
  have snapped : s.bit SN_CTL_EN 1 → ∃ r ∈ (x.snapRequest 4).sn.reqs, r.1 = s.time + 1 ∧ r.2.1.testBit 4 := fun on => by
    have on' : x.snapEnabled 4 = true := by
      have same : x.get SN_CTL_EN = s.get SN_CTL_EN :=
        (kept (.inl (by decide)) (by decide) (by decide)).trans (far (.inl (by decide)) (.inl (by decide)))
      show (x.get SN_CTL_EN).testBit 1 = true
      rw [same]
      exact on
    have time : x.time = s.time := (stopping.part .time (by simp)).trans (toV.part .time (by simp))
    unfold State.snapRequest State.snapRequestAt
    rw [on', if_pos rfl, time]
    exact addReq_names _ _ _ _
  have role : (x.snapRequest 4).role = roleNone := by
    unfold State.role
    rw [regs, kept (.inl (by decide)) (by decide) (by decide), far (.inl (by decide)) (.inl (by decide))]
    exact alone
  have stays : (x.snapRequest 4).selfPark = x.snapRequest 4 := by
    unfold State.selfPark
    rw [role]
    exact if_neg (by decide)
  rw [stays]
  generalize x.snapRequest 4 = t at *
  have mine : ∀ y : Fld, y.reg = MC_MCHK e → t.get y = u.get y := fun y hy =>
    (regs y).trans ((kept (.inr (by rw [hy]; simp only [MC_MCHK]; omega)) (by rw [hy]; simp only [MC_MCHK]; omega)
      (by rw [hy]; simp only [MC_MCHK]; omega)).trans (own y hy))
  refine ⟨fun m hm => ?_, (mine _ rfl).trans cause, (mine _ rfl).trans slices, (mine _ rfl).trans place, (mine _ rfl).trans trace,
    ?_, ?_, snapped, ?_⟩
  · obtain ⟨mchk, eng, issue⟩ := stopped m hm
    refine ⟨?_, (regs _).trans eng, (congrArg Group.issue (State.group_congr groups m)).trans issue⟩
    unfold State.inMchk State.bit
    rw [regs]
    exact mchk
  · rw [regs, kept (.inr (by decide)) (by decide) (by decide), flag]
  · rw [regs, kept (.inr (by decide)) (by decide) (by decide), count,
      recording.reg MC_CNT0_PARITY (.inr (by decide)) fun z hz => .inl (by rw [hz]; simp only [MC_MCHK, MC_CNT0_PARITY, MC_CNT0]; omega)]
  · refine ((toV.mono (by simp) fun y hy => ?_).trans (stopping.mono (fun p hp => ?_) fun y hy => ?_)).trans
      (snapping.mono (fun p hp => ?_) fun _ => False.elim)
    · obtain h | h | h := hy
      · exact .inl h
      · exact .inr (.inr (.inl h))
      · exact .inr (.inr (.inr (.inl h)))
    · simp only [List.mem_cons, List.not_mem_nil, or_false] at hp ⊢
      exact .inl hp
    · exact hy.elim (fun h => .inr (.inl h)) fun h => .inr (.inr (.inr (.inr h)))
    · simp only [List.mem_cons, List.not_mem_nil, or_false] at hp ⊢
      exact .inr hp

theorem parityError_runs {s : State} {e : EngineIx} (decided : s.takeDecision e = s) (at_ : s.atMicro e) (gang : s.get (SQ_GANG_M e) ≤ 5)
    (alone : s.role = roleNone) (small : (s.engine e).upc < 2048) (noScrub : s.scrubSclk ((s.engine e).upc * 2 ^ 17) = false)
    (fails : (s.csEntry e (s.engine e).upc).badSlices ≠ 0) : RunsTo (exec (.controlStoreParityError e .control) s) fun t =>
      Checked s t e (s.engine e).upc (s.csEntry e (s.engine e).upc).badSlices := by
  have checked := s.machineCheck_checks e.isLt gang alone (s.csEntry e (s.engine e).upc).badSlices small
  have fetched : s.fetchEntry e (s.engine e).upc = s := by
    unfold State.fetchEntry
    rw [noScrub, Bool.false_and]
    rfl
  obtain ⟨c, runs⟩ : ∃ c, s.running e = some c := by
    unfold State.atMicro at at_
    cases h : s.running e with
    | some c => exact ⟨c, rfl⟩
    | none => rw [h, Bool.and_false] at at_; exact nomatch at_
  have micro : s.micro e = (s.machineCheck e mchkParity (s.csEntry e (s.engine e).upc).badSlices.toNat (s.engine e).upc, false) := by
    unfold State.micro
    rw [runs]
    dsimp only
    rw [fetched, if_pos fails]
  have eq : s.fetchError e .control = s.machineCheck e mchkParity (s.csEntry e (s.engine e).upc).badSlices.toNat (s.engine e).upc := by
    unfold State.fetchError
    dsimp only
    rw [decided, at_, bne_iff_ne.2 fails, Bool.and_self, if_pos rfl, micro]
  change RunsTo (done s (s.fetchError e .control)) _
  rw [eq]
  generalize s.machineCheck e mchkParity (s.csEntry e (s.engine e).upc).badSlices.toNat (s.engine e).upc = t at checked
  have mc : ∀ {y : Fld}, 0x70000 ≤ y.reg.addr → (settle s t).get y = t.get y := fun h => get_settle _ _ _ (.inr (by omega))
  refine runsTo_done _ _ _ ⟨fun m hm => ?_, (mc ?_).trans checked.cause, (mc ?_).trans checked.slices, (mc ?_).trans checked.entry,
    (mc ?_).trans checked.trace, (mc (by decide)).trans checked.flag, (mc (by decide)).trans checked.count, ?_,
    checked.frame.trans (.settle _ _ _ _)⟩
  · obtain ⟨mchk, eng, issue⟩ := checked.stopped m hm
    refine ⟨?_, (get_settle_group _ _ (g := m) (a := 0xB030) rfl).trans eng, (congrArg Group.issue (group_settle ..)).trans issue⟩
    unfold State.inMchk State.bit
    rw [mc (by decide)]
    exact mchk
  iterate 4 show 0x70000 ≤ 0x070100 + 0x4 * e.val; omega
  · rw [settle_sn]
    exact checked.snap

/-- Settles O35: injection, a machine check and the scrubber, each through the entry it names. -/
theorem parityAndScrub : Obligations.ParityAndScrub := by
  refine ⟨fun s v ready arm => parityInject_runs ready arm, fun s e decided at_ gang alone small noScrub fails => ?_,
    fun s e i x loaded now fails good => scrub_fixes loaded now fails good, fun s e i loaded now fails none_ => scrub_fails loaded now fails none_,
    fun s e i now fine => scrub_passes now fine⟩
  exact (parityError_runs decided at_ gang alone small noScrub fails).mono fun t h =>
    ⟨h.stopped, h.cause, h.slices, h.entry, h.trace, h.flag, h.count, h.snap, h.frame⟩

end Sys2Proof.Machine
end

section
/-! The reset of the engines (R228, R312). -/

namespace Sys2Proof.Machine

/-! ### The reset of one engine (R228) -/

/-- The registers of group m below those of its contexts, but for SQ_GANG, and the engine's bits of the map of machine checks and of the arrivals. -/
def lowField (m : Nat) (y : Fld) : Prop := (∃ a, (a < 0xB400 ∧ a ≠ 0xB020) ∧ y.reg.addr = groupBase m + a) ∨ y = MC_MCHKMAP_MAP ∨
  ∃ b < 8, y = SQ_BAR_ARR_ARR 0 b

/-- The registers of the contexts of engine m read their Reset words. -/
def State.contextsCleared (s : State) (m : Nat) : State :=
  { s with live := s.live.clearRange (groupBase m + 0xB400) (groupBase m + 0xB400 + 0xC00) }

theorem RegFile.find_clearRange (f : RegFile) (a b c : Nat) : (f.clearRange a b).find c = if c < a ∨ b ≤ c then f.find c else none := by
  split
  · next far => exact RegFile.find_filter_of f (fun c => c < a || b ≤ c) _ (by simpa using far)
  · next near => exact RegFile.find_filter_none f (fun c => c < a || b ≤ c) _ (by simpa using near)

theorem State.get_contextsCleared (s : State) (m : Nat) (y : Fld) : (s.contextsCleared m).get y =
    if y.reg.addr < groupBase m + 0xB400 ∨ groupBase m + 0xC000 ≤ y.reg.addr then s.get y else fieldOf (BitVec.ofNat 32 y.reg.rst) y.hi y.lo := by
  unfold State.get RegFile.get RegFile.word State.contextsCleared
  dsimp only
  rw [RegFile.find_clearRange]
  split
  · rfl
  · rfl

theorem lowField_at {m a : Nat} {y : Fld} (h : y.reg.addr = groupBase m + a) (low : a < 0xB400 ∧ a ≠ 0xB020) : lowField m y :=
  .inl ⟨a, low, h⟩

theorem Frame.foldl {α : Type} {ps : List Part} {w : Fld → Prop} {s : State} (l : List α) (f : State → α → State)
    (step : ∀ u a, Frame u (f u a) ps w) : Frame s (l.foldl f s) ps w := by
  induction l generalizing s with
  | nil => exact .refl _ _ _
  | cons a l ih => exact (step s a).trans ih

section
variable (s : State) (m : Nat) {ps : List Part}

theorem Frame.closeUnderrun (free : Part.free ∈ ps) : Frame s (s.closeUnderrun m) ps (lowField m) := by
  unfold State.closeUnderrun
  split
  · exact ((Frame.setTime _ _ _ _ _ _ (Fld.inWord_of _ rfl) (Fld.inWord_of _ rfl) (lowField_at (a := 0xB090) rfl (by omega))
      (lowField_at (a := 0xB094) rfl (by omega))).trans (.set _ _ _ _ _ (Fld.inWord_of _ rfl) (lowField_at (a := 0xB094) rfl (by omega)))).trans
      (.burn _ _ _ free)
  · exact .refl _ _ _

theorem Frame.releaseLanes (groups : Part.groups ∈ ps) (w : Fld → Prop) : Frame s (s.releaseLanes m) ps w := by
  unfold State.releaseLanes
  split
  · exact .forEach _ _ _ _ _ fun t p _ => .setChan _ _ _ _ _ _ groups
  · exact .forEach _ _ _ _ _ fun t p _ => .setChan _ _ _ _ _ _ groups

theorem Frame.setVcnt (n : Nat) : Frame s (s.setVcnt m n) ps (lowField m) :=
  (Frame.set _ _ _ _ _ (Fld.inWord_of _ rfl) (lowField_at (a := 0x9018) rfl (by omega))).trans
    (.set _ _ _ _ _ (Fld.inWord_of _ rfl) (lowField_at (a := 0x901C) rfl (by omega)))

theorem Frame.takeTrips_groups (iv : Interval) (groups : Part.groups ∈ ps) (w : Fld → Prop) : Frame s (s.takeTrips m iv) ps w := by
  unfold State.takeTrips
  extract_lets now u
  have flagged : Frame s u ps w := .foldl _ _ fun t x => .forEach _ _ _ _ _ fun v p _ => .setGroup _ _ _ _ _ groups
  exact flagged.trans (.setGroup _ _ _ _ _ groups)

theorem Frame.discardInterval (groups : Part.groups ∈ ps) : Frame s (s.discardInterval m) ps (lowField m) := by
  unfold State.discardInterval
  extract_lets u x iv old v w
  have taken : Frame s u ps (lowField m) := .foldl _ _ fun t i => .takeTrips_groups t m i groups _
  have opened : Frame u v ps (lowField m) := .setGroup _ _ _ _ _ groups
  have counted : Frame v w ps (lowField m) := by
    by_cases empty : (iv.full || iv.n == 0) = true
    · rw [show w = v from if_pos empty]
      exact .refl _ _ _
    · rw [show w = v.flag (FC_FLAGS_SUMDISC m) (FC_CNT1_SUMDISC m) from if_neg empty]
      exact .flag _ _ _ _ _ (Fld.inWord_of _ rfl) (Fld.inWord_of _ rfl) (lowField_at (a := 0x9000) rfl (by omega))
        (lowField_at (a := 0x9008) rfl (by omega))
  exact ((taken.trans opened).trans counted).trans ((Frame.showIv _ _ _).mono (fun _ => id) fun y hy =>
    lowField_at (a := 0x9014) (by rw [hy]; rfl) (by omega))

/-- R228: what follows the contexts' registers in the reset of an engine. -/
theorem Frame.resetEngine_cleared (keep : Bool) (engines : Part.engines ∈ ps) (groups : Part.groups ∈ ps) (free : Part.free ∈ ps) :
    Frame (s.contextsCleared m) (s.resetEngine keep m) ps (lowField m) := by
  have start : ∀ t : State, Frame t (((((t.set (SQ_ELIG_ELIG m) 0).set (SQ_STRM_STAT_FILL m) 0).set (SQ_MSGSTAT_DEPTH m) 0).set
      (SQ_STAT_RUNPRIO m) 0).set (SQ_STAT_RUNCTX m) 0) ps (lowField m) := fun t =>
    ((((Frame.set _ _ _ _ _ (Fld.inWord_of _ rfl) (lowField_at (a := 0xB034) rfl (by omega))).trans
      (.set _ _ _ _ _ (Fld.inWord_of _ rfl) (lowField_at (a := 0xB084) rfl (by omega)))).trans
      (.set _ _ _ _ _ (Fld.inWord_of _ rfl) (lowField_at (a := 0xB0AC) rfl (by omega)))).trans
      (.set _ _ _ _ _ (Fld.inWord_of _ rfl) (lowField_at (a := 0xB030) rfl (by omega)))).trans
      (.set _ _ _ _ _ (Fld.inWord_of _ rfl) (lowField_at (a := 0xB030) rfl (by omega)))
  have eng : ∀ (t : State) n, Frame t (t.set (SQ_STAT_ENG m) n) ps (lowField m) := fun t n =>
    .set _ _ _ _ _ (Fld.inWord_of _ rfl) (lowField_at (a := 0xB030) rfl (by omega))
  have map : ∀ t : State, Frame t (if keep then t else t.setBit MC_MCHKMAP_MAP m false) ps (lowField m) := fun t => by
    split
    · exact .refl _ _ _
    · exact .setBit _ _ _ _ _ _ (Fld.inWord_of _ rfl) (.inr (.inl rfl))
  have arrivals : ∀ t : State, Frame t (t.forEach (List.range 8) fun s b => s.setBit (SQ_BAR_ARR_ARR 0 b) m false) ps (lowField m) := fun t =>
    .forEach _ _ _ _ _ fun u b hb => .setBit _ _ _ _ _ _ (Fld.inWord_of _ rfl) (.inr (.inr ⟨b, List.mem_range.1 hb, rfl⟩))
  have killed : ∀ t : State, Frame t (t.killOutcomes m) ps (lowField m) := fun t => .setGroup _ _ _ _ _ groups
  have parked : ∀ t : State, Frame t (t.parkGroup m) ps (lowField m) := fun t =>
    .parkGroup _ _ _ _ groups (lowField_at (a := 0x4014) rfl (by omega))
  unfold State.resetEngine
  extract_lets a u v w x old y z was p
  have toU : Frame (s.contextsCleared m) u ps (lowField m) := .closeUnderrun _ _ free
  have toW : Frame u w ps (lowField m) := (start u).trans (eng _ _)
  have toX : Frame w x ps (lowField m) := map w
  have toY : Frame x y ps (lowField m) := .setEngine _ _ _ _ _ engines
  have toZ : Frame y z ps (lowField m) := arrivals y
  have toP : Frame z p ps (lowField m) := Frame.trans (.setGroup _ _ _ _ _ groups) (.releaseLanes _ _ groups _)
  exact ((((((((toU.trans toW).trans toX).trans toY).trans toZ).trans toP).trans (.setVcnt _ _ _)).trans (.discardInterval _ _ groups)).trans
    (killed _)).trans (parked _)

end

/-- The registers of the groups, and those that the reset of engines changes outside them. -/
def engineField (y : Fld) : Prop := 0x100000 ≤ y.reg.addr ∨ y = MC_MCHKMAP_MAP

theorem lowField.engineField {m : Nat} {y : Fld} (h : lowField m y) : engineField y := by
  obtain ⟨a, -, h⟩ | h | ⟨b, -, rfl⟩ := h
  · refine .inl ?_
    rw [h]
    simp only [groupBase]
    omega
  · exact .inr h
  · refine .inl ?_
    simp only [SQ_BAR_ARR_ARR, SQ_BAR_ARR, groupBase]
    omega

theorem Frame.contextsCleared (s : State) (m : Nat) (ps : List Part) : Frame s (s.contextsCleared m) ps
    (fun y => groupBase m + 0xB400 ≤ y.reg.addr ∧ y.reg.addr < groupBase m + 0xC000) := by
  refine ⟨fun p _ => by cases p <;> simp [State.samePart, State.contextsCleared], fun x _ apart => ?_⟩
  rw [State.get_contextsCleared]
  split
  · rfl
  · next near =>
    obtain h | ⟨-, h⟩ := apart x (by omega)
    · exact absurd rfl h
    · unfold State.get RegFile.get fieldOf
      rw [show x.hi + 1 - x.lo = 0 by omega, pow_zero, Nat.mod_one, Nat.mod_one]

/-- R228: the contexts of a reset engine are IDLE. -/
theorem State.resetEngine_idle (s : State) (keep : Bool) {m c : Nat} (hc : c < 32) : (s.resetEngine keep m).ctxState m c = .idle := by
  have frame := Frame.resetEngine_cleared s m keep (ps := [.engines, .groups, .free]) (by simp) (by simp) (by simp)
  refine State.ctxState_of_code ?_
  rw [frame.reg (SQ_CTX_STAT_STATE m c) (sqField_notPba _ (ctxStat_addr rfl)) fun y hy => .inl ?_, State.get_contextsCleared, if_neg ?_]
  · show fieldOf (BitVec.ofNat 32 0) 31 30 = 0
    decide
  · rw [ctxStat_addr (k := c) (y := SQ_CTX_STAT_STATE m c) rfl]
    omega
  · rw [ctxStat_addr (k := c) (y := SQ_CTX_STAT_STATE m c) rfl]
    obtain ⟨a, ⟨low, -⟩, h⟩ | rfl | ⟨b, hb, rfl⟩ := hy
    · rw [h]; omega
    · simp only [MC_MCHKMAP_MAP, MC_MCHKMAP, groupBase]; omega
    · simp only [SQ_BAR_ARR_ARR, SQ_BAR_ARR, groupBase]
      omega

theorem Frame.resetEngine (s : State) (keep : Bool) (m : Nat) : Frame s (s.resetEngine keep m) [.engines, .groups, .free] engineField :=
  ((Frame.contextsCleared s m _).mono (fun _ => id) fun y hy => .inl (by simp only [groupBase] at hy; omega)).trans
    ((Frame.resetEngine_cleared s m keep (by simp) (by simp) (by simp)).mono (fun _ => id) fun _ => lowField.engineField)

/-- The reset of engine m leaves the gangs, and the contexts of the other engines. -/
theorem State.resetEngine_keeps (s : State) (keep : Bool) {m k a : Nat} {y : Fld} (hy : y.reg.addr = groupBase k + a)
    (at_ : a = 0xB020 ∨ k ≠ m ∧ 0xB400 ≤ a ∧ a < 0xC000) : (s.resetEngine keep m).get y = s.get y := by
  rw [(Frame.resetEngine_cleared s m keep (ps := [.engines, .groups, .free]) (by simp) (by simp) (by simp)).reg y (sqField_notPba a hy)
    fun z hz => .inl ?_, State.get_contextsCleared, if_pos ?_]
  · rw [hy]
    simp only [groupBase]
    obtain rfl | ⟨ne, low, high⟩ := at_
    · obtain lt | rfl | gt := Nat.lt_trichotomy k m <;> omega
    · obtain lt | rfl | gt := Nat.lt_trichotomy k m <;> omega
  · rw [hy]
    obtain ⟨b, ⟨low, other⟩, h⟩ | rfl | ⟨b, hb, rfl⟩ := hz
    · rw [h]
      simp only [groupBase]
      obtain rfl | ⟨ne, above, high⟩ := at_
      · obtain lt | rfl | gt := Nat.lt_trichotomy k m <;> omega
      · obtain lt | rfl | gt := Nat.lt_trichotomy k m <;> omega
    · simp only [MC_MCHKMAP_MAP, MC_MCHKMAP, groupBase]
      omega
    · simp only [SQ_BAR_ARR_ARR, SQ_BAR_ARR, groupBase]
      omega

/-! ### The reset of the engines (R228, R312) -/

/-- The flags and counters of the scrubber. -/
def scrubField (y : Fld) : Prop := y ∈ [MC_FLAGS_SCRUBFIX, MC_CNT2_SCRUBFIX, MC_FLAGS_SCRUBERR, MC_CNT2_SCRUBERR]

theorem Frame.scrubEntry (s : State) (e i : Nat) : Frame s (s.scrubEntry e i) [.store] scrubField := by
  unfold State.scrubEntry
  split
  · exact .refl _ _ _
  · split
    · exact (Frame.setCsEntry _ _ _ _ _).trans
        (.flag _ _ _ _ _ (Fld.inWord_of _ rfl) (Fld.inWord_of _ rfl) (by simp [scrubField]) (by simp [scrubField]))
    · exact .flag _ _ _ _ _ (Fld.inWord_of _ rfl) (Fld.inWord_of _ rfl) (by simp [scrubField]) (by simp [scrubField])

theorem Frame.scrubDisp (s : State) (e op : Nat) : Frame s (s.scrubDisp e op) [.store] scrubField := by
  unfold State.scrubDisp
  split
  · exact .refl _ _ _
  · split
    · exact (Frame.setDispEntry _ _ _ _ _).trans
        (.flag _ _ _ _ _ (Fld.inWord_of _ rfl) (Fld.inWord_of _ rfl) (by simp [scrubField]) (by simp [scrubField]))
    · exact .flag _ _ _ _ _ (Fld.inWord_of _ rfl) (Fld.inWord_of _ rfl) (by simp [scrubField]) (by simp [scrubField])

theorem Frame.mchkRepair (s : State) (l : Nat) : Frame s (s.mchkRepair l) [.store] scrubField := by
  unfold State.mchkRepair
  dsimp only
  split
  · exact .refl _ _ _
  · split
    · exact .scrubEntry ..
    · split
      · exact .scrubDisp ..
      · exact .refl _ _ _

/-- No entry of the control store or of the dispatch table fails its check. -/
structure State.StoreGood (s : State) : Prop where
  entry : ∀ e i, (s.csEntry e i).badSlices = 0
  disp : ∀ e op, (s.dispEntry e op).bad = false

theorem State.StoreGood.mchkRepair {s : State} (h : s.StoreGood) (l : Nat) : s.mchkRepair l = s := by
  have entry : ∀ i, s.scrubEntry l i = s := fun i => if_pos (h.entry l i)
  have disp : ∀ i, s.scrubDisp l i = s := fun i => by
    unfold State.scrubDisp
    rw [h.disp]
    rfl
  unfold State.mchkRepair
  dsimp only
  rw [entry, disp, ite_self, ite_self, ite_self]

theorem State.StoreGood.of_frame {s t : State} {ps : List Part} {w : Fld → Prop} (h : s.StoreGood) (frame : Frame s t ps w) (store : .store ∉ ps)
    (image : .image ∉ ps) : t.StoreGood := by
  refine ⟨fun e i => (congrArg CsEntry.badSlices (frame.csEntry store image e i)).trans (h.entry e i), fun e op => ?_⟩
  have same : t.dispEntry e op = s.dispEntry e op := by
    unfold State.dispEntry
    rw [(frame.part .store store).2, (frame.part .image image).2]
  rw [same]
  exact h.disp e op

theorem Frame.engineReset (s : State) (l : Nat) : Frame s (s.engineReset l) [.engines, .groups, .store, .free]
    (fun y => engineField y ∨ scrubField y) := by
  unfold State.engineReset
  exact ((Frame.mchkRepair _ _).mono (by simp) fun _ => .inr).trans (.forEach _ _ _ _ _ fun t m _ =>
    (Frame.resetEngine t _ m).mono (fun p hp => by simp at *; tauto) fun _ => .inl)

theorem Frame.resetAllEngines (s : State) : Frame s s.resetAllEngines [.engines, .groups, .store, .free]
    (fun y => engineField y ∨ scrubField y) :=
  .forEach _ _ _ _ _ fun t l _ => .engineReset t l

/-- While no entry fails, the reset of the engines leaves the store and the scrubber's counters. -/
theorem State.StoreGood.resetAllEngines {s : State} (h : s.StoreGood) : Frame s s.resetAllEngines [.engines, .groups, .free] engineField := by
  have keeps : ∀ u : State, Frame s u [.engines, .groups, .free] engineField →
      ∀ l, Frame s (u.engineReset l) [.engines, .groups, .free] engineField :=
    fun u hu l => by
      unfold State.engineReset
      dsimp only
      rw [(h.of_frame hu (by simp) (by simp)).mchkRepair]
      exact hu.trans (.forEach _ _ _ _ _ fun t m _ => .resetEngine t _ m)
  exact State.forEach_holds (Frame s · [.engines, .groups, .free] engineField) _ (fun u l hu => keeps u hu l) _ _ (.refl _ _ _)

/-- The registers that the reset of engines without a gang changes. -/
def singleField (y : Fld) : Prop := regsIn 0x70000 0x71000 y ∨ regsIn 0x100000 0x300000 y

theorem scrubField.addr {y : Fld} (h : scrubField y) : regsIn 0x70000 0x71000 y := by
  simp only [scrubField, List.mem_cons, List.not_mem_nil, or_false] at h
  obtain rfl | rfl | rfl | rfl := h <;> exact ⟨by decide, by decide⟩

theorem lowField.single {m : Nat} (hm : m < 32) {y : Fld} (h : lowField m y) : singleField y := by
  obtain ⟨a, ⟨low, -⟩, h⟩ | rfl | ⟨b, hb, rfl⟩ := h
  · refine .inr ⟨?_, ?_⟩ <;> rw [h] <;> simp only [groupBase] <;> omega
  · exact .inl ⟨by decide, by decide⟩
  · refine .inr ⟨?_, ?_⟩ <;> simp only [SQ_BAR_ARR_ARR, SQ_BAR_ARR, groupBase] <;> omega

theorem Frame.resetEngine_single (s : State) (keep : Bool) {m : Nat} (hm : m < 32) :
    Frame s (s.resetEngine keep m) [.engines, .groups, .store, .free] singleField :=
  ((Frame.contextsCleared s m _).mono (fun _ => id) fun y hy => .inr (by simp only [groupBase] at hy; exact ⟨by omega, by omega⟩)).trans
    ((Frame.resetEngine_cleared s m keep (by simp) (by simp) (by simp)).mono (fun _ => id) fun _ => lowField.single hm)

/-- While no engines are ganged, the reset of all of them leaves each context IDLE. -/
theorem State.resetAllEngines_single {s : State} (single : ∀ e < 32, s.get (SQ_GANG_M e) = 0) :
    (∀ e < 32, ∀ c < 32, s.resetAllEngines.ctxState e c = .idle) ∧
    Frame s s.resetAllEngines [.engines, .groups, .store, .free] singleField := by
  have own : ∀ (u : State) {l}, u.get (SQ_GANG_M l) = 0 → u.leader l = l ∧ u.members l = [l] := fun u l h => by
    have lead : u.leader l = l := by
      unfold State.leader
      rw [h, pow_zero, Nat.div_one, Nat.mul_one]
    refine ⟨lead, ?_⟩
    unfold State.members
    rw [h, lead]
    rfl
  have low : ∀ l ∈ s.leaders, l < 32 := fun l hl => List.mem_range.1 (List.mem_filter.1 hl).1
  have repaired : ∀ (u : State) l {y : Fld}, 0x100000 ≤ y.reg.addr → (u.mchkRepair l).get y = u.get y := fun u l y hy =>
    (Frame.mchkRepair u l).reg y (.inr (by omega)) fun z hz => .inl (by
      simp only [scrubField, List.mem_cons, List.not_mem_nil, or_false] at hz
      obtain rfl | rfl | rfl | rfl := hz <;>
        simp only [MC_FLAGS_SCRUBFIX, MC_FLAGS_SCRUBERR, MC_FLAGS, MC_CNT2_SCRUBFIX, MC_CNT2_SCRUBERR, MC_CNT2] <;> omega)
  have inGroup : ∀ {k a : Nat} {y : Fld}, y.reg.addr = groupBase k + a → 0x100000 ≤ y.reg.addr := fun h => by
    rw [h]
    simp only [groupBase]
    omega
  have reset : ∀ (u : State) l, u.get (SQ_GANG_M l) = 0 → u.engineReset l = (u.mchkRepair l).resetEngine ((u.mchkRepair l).mchkStays l) l :=
    fun u l h => by
      have again : (u.mchkRepair l).get (SQ_GANG_M l) = 0 := (repaired u l (inGroup (k := l) (a := 0xB020) rfl)).trans h
      unfold State.engineReset
      dsimp only
      rw [(own u h).1, (own _ again).2]
      rfl
  have all := foldl_establishes State.engineReset (fun u => (∀ l < 32, u.get (SQ_GANG_M l) = 0) ∧
      Frame s u [.engines, .groups, .store, .free] singleField) (fun l u => ∀ c < 32, u.ctxState l c = .idle) s.leaders
    (fun u ⟨hu, frame⟩ l hl => ⟨fun k hk => ?_, ?_⟩) (fun u ⟨hu, _⟩ l hl c hc => ?_) (fun u ⟨hu, _⟩ l hl k _ h c hc => ?_) s
    ⟨single, .refl _ _ _⟩
  · refine ⟨fun e he c hc => all.2 e (List.mem_filter.2 ⟨List.mem_range.2 he, ?_⟩) c hc, all.1.2⟩
    unfold State.isLeader
    rw [(own s (single e he)).1]
    exact beq_self_eq_true e
  · rw [reset u l (hu l (low l hl)), State.resetEngine_keeps _ _ (k := k) (a := 0xB020) rfl (.inl rfl),
      repaired u l (inGroup (k := k) (a := 0xB020) rfl)]
    exact hu k hk
  · rw [reset u l (hu l (low l hl))]
    exact (frame.trans ((Frame.mchkRepair _ _).mono (by simp) fun _ h => .inl h.addr)).trans (.resetEngine_single _ _ (low l hl))
  · rw [reset u l (hu l (low l hl))]
    exact State.resetEngine_idle _ _ hc
  · rw [reset u l (hu l (low l hl))]
    by_cases same : k = l
    · subst same
      exact State.resetEngine_idle _ _ hc
    · refine (State.ctxState_congr ?_).trans (h c hc)
      rw [State.resetEngine_keeps _ _ (k := k) (a := 0xB400 + 0x60 * c) (ctxStat_addr rfl) (.inr ⟨same, by omega, by omega⟩),
        repaired u l (inGroup (ctxStat_addr rfl))]

end Sys2Proof.Machine
end

section
/-! The images of the control store: loads, windows, checks and reloads (R312 to R318, R324). -/

namespace Sys2Proof.Machine

/-! ### HOSTLOAD and its windows (R315, R324) -/

theorem get_settle_mc (s t : State) {y : Fld} (h : 0x70000 ≤ y.reg.addr) : (settle s t).get y = t.get y := get_settle _ _ _ (.inr (by omega))

theorem hostload_runs {s : State} (ready : s.ready) (free : s.mcState ≠ mcLoading) (idle : s.mcState ≠ mcReload)
    (single : ∀ e < 32, s.get (SQ_GANG_M e) = 0) : RunsTo (exec .hostload s) fun t =>
      t.mcState = mcHostload ∧ (∀ e < 32, ∀ c < 32, t.ctxState e c = .idle) ∧
      Frame s t [.engines, .groups, .store, .free, .sys] (fun y => regsIn 0x70000 0x71000 y ∨ regsIn 0x100000 0x300000 y) := by
  have word : MC_STAT_STATE.inWord := Fld.inWord_of _ rfl
  obtain ⟨idles, frame⟩ := State.resetAllEngines_single single
  have eq : s.mcHostloadCmd = { s.resetAllEngines.set MC_STAT_STATE mcHostload with
      sys := { (s.resetAllEngines.set MC_STAT_STATE mcHostload).sys with mcImage := none } } := by
    unfold State.mcHostloadCmd
    rw [if_neg (by simp [free, idle])]
  change RunsTo (hostDone s s.mcHostloadCmd) _
  rw [eq]
  generalize s.resetAllEngines = u at idles frame
  have set : Frame u (u.set MC_STAT_STATE mcHostload) [.sys] (· = MC_STAT_STATE) := .set _ _ _ _ _ word rfl
  have get : (u.set MC_STAT_STATE mcHostload).get MC_STAT_STATE = mcHostload := State.get_set _ _ _ word
  generalize u.set MC_STAT_STATE mcHostload = v at set get
  have sys : Frame v { v with sys := { v.sys with mcImage := none } } [.sys] (fun _ => False) := .setSys _ _ _ _ (by simp)
  refine runsTo_hostDone _ _ _ ready ⟨(get_settle_mc _ _ (by decide)).trans ((sys.reg _ (.inr (by decide)) fun _ => False.elim).trans get),
    fun e he c hc => ?_, ?_⟩
  · refine (State.ctxState_congr ?_).trans (idles e he c hc)
    rw [get_settle_group _ _ (ctxStat_addr rfl), sys.reg _ (sqField_notPba _ (ctxStat_addr rfl)) fun _ => False.elim,
      set.reg _ (sqField_notPba _ (ctxStat_addr rfl)) fun z hz => .inl ?_]
    rw [hz, ctxStat_addr (k := c) (y := SQ_CTX_STAT_STATE e c) rfl]
    simp only [MC_STAT_STATE, MC_STAT, groupBase]
    omega
  · refine (((frame.mono (fun p hp => ?_) fun _ => id).trans (set.mono (by simp) fun y hy => ?_)).trans
      (sys.mono (by simp) fun _ => False.elim)).trans (.settle _ _ _ _)
    · simp only [List.mem_cons, List.not_mem_nil, or_false] at hp ⊢
      tauto
    · rw [hy]
      exact .inl ⟨by decide, by decide⟩

/-- R315: a word written to the window reaches the same entry of every engine. -/
theorem State.forEngines_put {s : State} (f : State → Nat → CsEntry) {i : Nat} (hi : i < 2048)
    (own : ∀ u e, u.csEntry e i = s.csEntry e i → f u e = f s e) :
    (∀ e < 32, (s.forEach (List.range 32) fun s e => s.setCsEntry e i (f s e)).csEntry e i = f s e) ∧
    (∀ e < 32, ∀ j < 2048, j ≠ i → (s.forEach (List.range 32) fun s e => s.setCsEntry e i (f s e)).csEntry e j = s.csEntry e j) ∧
    (s.forEach (List.range 32) fun s e => s.setCsEntry e i (f s e)).disp = s.disp ∧
    Frame s (s.forEach (List.range 32) fun s e => s.setCsEntry e i (f s e)) [.store] (fun _ => False) := by
  have all := foldl_each (fun (s : State) e => s.setCsEntry e i (f s e))
    (fun u => (∀ e < 32, ∀ j < 2048, j ≠ i → u.csEntry e j = s.csEntry e j) ∧
      u.disp = s.disp ∧ Frame s u [.store] (fun _ => False)) (fun e u => u.csEntry e i = s.csEntry e i) (fun e u => u.csEntry e i = f s e)
    (List.range 32) List.nodup_range (fun u ⟨others, disp, frame⟩ e _ same => ?_) (fun u _ e _ _ k _ ne => ?_) s
    ⟨fun _ _ _ _ _ => rfl, rfl, .refl _ _ _⟩ fun _ _ => rfl
  · obtain ⟨⟨others, disp, frame⟩, each⟩ := all
    exact ⟨fun e he => each e (List.mem_range.2 he), others, disp, frame⟩
  · refine ⟨⟨fun k hk j hj ne => ?_, disp, frame.trans (.setCsEntry _ _ _ _ _)⟩, ?_⟩
    · rw [State.csEntry_setCsEntry_ne _ _ hi hj fun h => ne (Prod.mk.inj h).2]
      exact others k hk j hj ne
    · rw [State.csEntry_setCsEntry]
      exact own u e same
  · have apart : ∀ x, (u.setCsEntry e i x).csEntry k i = u.csEntry k i := fun x =>
      State.csEntry_setCsEntry_ne _ _ hi hi fun h => ne (Prod.mk.inj h).1.symm
    exact ⟨(apart _).trans, (apart _).trans⟩

theorem windowWrite_runs {s : State} {off : BitVec 16} {w : Native} (ready : s.ready) (host : s.mcState = mcHostload)
    (low : off.toNat / 16 % 2 = 0) : RunsTo (exec (.controlStoreWindowWrite off w) s) fun t =>
      (∀ e < 32, t.csEntry e (off.toNat / 32) =
        CsEntry.make (BitVec.ofNat 144 ((s.csEntry e (off.toNat / 32)).word.toNat / 2 ^ 72 * 2 ^ 72 + w.toNat))) ∧
      (∀ e < 32, ∀ i < 2048, i ≠ off.toNat / 32 → t.csEntry e i = s.csEntry e i) ∧ t.disp = s.disp ∧
      Frame s t [.store] (fun _ => False) := by
  have place : off.toNat / 32 % 2048 = off.toNat / 32 := Nat.mod_eq_of_lt (by omega)
  have eq : s.writeStoreWindow off.toNat w = s.forEach (List.range 32) fun s e => s.setCsEntry e (off.toNat / 32)
      (CsEntry.make (BitVec.ofNat 144 ((s.csEntry e (off.toNat / 32)).word.toNat / 2 ^ 72 * 2 ^ 72 + w.toNat))) := by
    unfold State.writeStoreWindow
    rw [if_neg (not_not.2 host)]
    dsimp only
    simp only [place, low, if_true]
  obtain ⟨put, others, disp, frame⟩ := State.forEngines_put (s := s) (fun s e =>
    CsEntry.make (BitVec.ofNat 144 ((s.csEntry e (off.toNat / 32)).word.toNat / 2 ^ 72 * 2 ^ 72 + w.toNat))) (i := off.toNat / 32) (by omega)
    fun u e same => by rw [same]
  change RunsTo (hostDone s (s.writeStoreWindow off.toNat w)) _
  rw [eq]
  exact runsTo_hostDone _ _ _ ready ⟨fun e he => (csEntry_settle ..).trans (put e he),
    fun e he j hj ne => (csEntry_settle ..).trans (others e he j hj ne), (settle_disp ..).trans disp, frame.trans (.settle _ _ _ _)⟩

theorem windowWrite_closed_runs {s : State} (off : BitVec 16) (w : Native) (ready : s.ready) (closed : s.mcState ≠ mcHostload) :
    RunsTo (exec (.controlStoreWindowWrite off w) s) fun t => Frame s t [] (fun _ => False) := by
  change RunsTo (hostDone s (s.writeStoreWindow off.toNat w)) _
  unfold State.writeStoreWindow
  rw [if_pos closed]
  exact runsTo_hostDone _ _ _ ready (.settle _ _ _ _)

theorem Sends.settle {s u : State} {o : Output} (h : u.out = o :: s.out) (v : State) : Sends s (settle v u) o := by
  obtain ⟨pre, out, msix⟩ := settle_out v u
  exact ⟨pre, by rw [out, h], msix⟩

/-- R324: an access of MC_DISP_DATA increments IDX. -/
theorem State.dispStep_frame (u : State) : u.dispStep.get MC_DISP_ADDR_IDX = (u.get MC_DISP_ADDR_IDX + 1) % 256 ∧
    Frame u u.dispStep [] (· ∈ [MC_DISP_ADDR_IDX]) :=
  ⟨State.get_set _ MC_DISP_ADDR_IDX _ (Fld.inWord_of _ rfl), .set _ _ _ _ _ (Fld.inWord_of _ rfl) (by simp)⟩

/-- R315: a word written to the dispatch table reaches the same entry of every engine. -/
theorem State.forEngines_putDisp {s : State} {i : Nat} (x : DispEntry) (hi : i < 256) :
    (∀ e < 32, (s.forEach (List.range 32) fun s e => s.setDispEntry e i x).dispEntry e i = x) ∧
    (s.forEach (List.range 32) fun s e => s.setDispEntry e i x).cs = s.cs ∧
    Frame s (s.forEach (List.range 32) fun s e => s.setDispEntry e i x) [.store] (fun _ => False) := by
  have all := foldl_establishes (fun (s : State) e => s.setDispEntry e i x) (fun u => u.cs = s.cs ∧ Frame s u [.store] (fun _ => False))
    (fun e u => u.dispEntry e i = x) (List.range 32) (fun u ⟨cs, frame⟩ e _ => ⟨cs, frame.trans (.setDispEntry _ _ _ _ _)⟩)
    (fun u _ e _ => State.dispEntry_setDispEntry _ _ _ _) (fun u _ e _ k _ h => ?_) s ⟨rfl, .refl _ _ _⟩
  · exact ⟨fun e he => all.2 e (List.mem_range.2 he), all.1⟩
  · by_cases same : (k, i) = (e, i)
    · rw [(Prod.mk.inj same).1]
      exact State.dispEntry_setDispEntry _ _ _ _
    · exact (State.dispEntry_setDispEntry_ne _ _ hi hi same).trans h

theorem dispatchWrite_runs {s : State} (v : Word) (ready : s.ready) (host : s.mcState = mcHostload) :
    RunsTo (exec (.dispatchDataAccess (some v)) s) fun t =>
      (∀ e < 32, t.dispEntry e (s.get MC_DISP_ADDR_IDX) = DispEntry.make (v.setWidth 16)) ∧
      t.get MC_DISP_ADDR_IDX = (s.get MC_DISP_ADDR_IDX + 1) % 256 ∧ t.cs = s.cs ∧ Frame s t [.store] (· ∈ [MC_DISP_ADDR_IDX]) := by
  have word : BitVec.ofNat 16 (fieldOf v 15 0) = v.setWidth 16 := BitVec.eq_of_toNat_eq (by simp [fieldOf])
  obtain ⟨put, cs, frame⟩ := State.forEngines_putDisp (s := s) (i := s.get MC_DISP_ADDR_IDX) (DispEntry.make (v.setWidth 16))
    (State.get_lt s MC_DISP_ADDR_IDX)
  change RunsTo (hostDone s (s.writeDispData v)) _
  unfold State.writeDispData
  dsimp only
  rw [if_pos host, word]
  generalize s.forEach (List.range 32) _ = u at put cs frame ⊢
  obtain ⟨idx, step⟩ := State.dispStep_frame u
  obtain ⟨storeCs, storeDisp⟩ := step.part .store (by simp)
  refine runsTo_hostDone _ _ _ ready ⟨fun e he => ?_, (get_settle_mc _ _ (by decide)).trans ?_, (settle_cs ..).trans (storeCs.trans cs),
    ((frame.mono (by simp) fun _ => False.elim).trans (step.mono (by simp) fun _ => id)).trans (.settle _ _ _ _)⟩
  · unfold State.dispEntry at put ⊢
    rw [settle_disp, settle_imgDisp, storeDisp, (step.part .image (by simp)).2]
    exact put e he
  · rw [idx, frame.reg _ (.inr (by decide)) fun _ => False.elim]

theorem dispatchRead_runs {s : State} (ready : s.ready) : RunsTo (exec (.dispatchDataAccess none) s) fun t =>
      Sends s t (.readData ((s.dispEntry (s.get MC_WIN_ENG) (s.get MC_DISP_ADDR_IDX)).word.setWidth 64)) ∧
      t.get MC_DISP_ADDR_IDX = (s.get MC_DISP_ADDR_IDX + 1) % 256 ∧ Frame s t [] (· ∈ [MC_DISP_ADDR_IDX]) := by
  have data : s.dispData.setWidth 64 = (s.dispEntry (s.get MC_WIN_ENG) (s.get MC_DISP_ADDR_IDX)).word.setWidth 64 := by
    unfold State.dispData
    bv_omega
  change RunsTo (hostDone s (s.emit (.readData (s.dispData.setWidth 64))).dispStep) _
  obtain ⟨idx, step⟩ := State.dispStep_frame (s.emit (.readData (s.dispData.setWidth 64)))
  refine runsTo_hostDone _ _ _ ready ⟨?_, (get_settle_mc _ _ (by decide)).trans idx, Frame.trans (.emit _ _ _ _) (step.trans (.settle _ _ _ _))⟩
  · rw [← data]
    exact .settle rfl _

theorem finish_runs {s : State} (ready : s.ready) (host : s.mcState = mcHostload) : RunsTo (exec .finish s) fun t =>
      t.sys.mcImage = some s.hostImage ∧ t.mcState = mcHostload ∧ Frame s t [.sys] (fun _ => False) := by
  have eq : s.mcFinish = { s with sys := { s.sys with mcImage := some s.hostImage } } := if_pos host
  have frame : Frame s { s with sys := { s.sys with mcImage := some s.hostImage } } [.sys] (fun _ => False) := .setSys _ _ _ _ (by simp)
  change RunsTo (hostDone s s.mcFinish) _
  rw [eq]
  exact runsTo_hostDone _ _ _ ready ⟨(congrArg (·.mcImage) (settle_sys _ _)).trans rfl,
    (get_settle_mc _ _ (by decide)).trans ((frame.reg _ (.inr (by decide)) fun _ => False.elim).trans host), frame.trans (.settle _ _ _ _)⟩

/-! ### Images that pass (R312, R317) -/

/-- The registers of the digest (R347). -/
def digestField (y : Fld) : Prop := regsIn 0x28000 0x29000 y

/-- From `s` to `t` an image of words `l` from source `src` has been written. -/
structure Written (s t : State) (l : List Native) (src : Nat) : Prop where
  source : t.get MC_STAT_SRC = src
  crc : t.get MC_IMAGE_CRC_CRC = imgCrcField l
  entries : t.imgEntries = imgEntriesOf l
  table : t.imgDisp = imgDispatchOf l
  cs : t.cs = []
  disp : t.disp = []
  frame : Frame s t [.image, .store, .engines, .groups, .free] (fun y => y.reg = MC_VERSION ∨ y.reg = MC_IMAGE_CRC ∨ y = MC_STAT_SRC ∨ engineField y)

theorem engineField.apart_mc {x z : Fld} (hz : engineField z) (hx : x.reg.addr < 0x70020) : z.apart x := by
  obtain h | rfl := hz
  · exact .inl (by omega)
  · exact .inl (by simp only [MC_MCHKMAP_MAP, MC_MCHKMAP]; omega)

theorem State.writeImage_written (s : State) (l : List Native) {src : Nat} (small : src < 4) : Written s (s.writeImage l src) l src := by
  have start : Frame s { s with imgEntries := imgEntriesOf l, imgDisp := imgDispatchOf l, cs := [], disp := [] } [.image, .store]
      (fun _ => False) := .parts _ (fun p hp => by cases p <;> simp_all [State.samePart]) rfl
  have good : StoreGood { s with imgEntries := imgEntriesOf l, imgDisp := imgDispatchOf l, cs := [], disp := [] } :=
    ⟨fun _ _ => CsEntry.badSlices_make _, fun _ _ => by simp [State.dispEntry, DispEntry.bad, DispEntry.make]⟩
  unfold State.writeImage
  extract_lets u v
  have sets : Frame u v [] (fun y => y.reg = MC_VERSION ∨ y.reg = MC_IMAGE_CRC ∨ y = MC_STAT_SRC) :=
    ((Frame.set _ _ _ _ _ (Fld.inWord_of _ rfl) (.inl rfl)).trans (.set _ _ _ _ _ (Fld.inWord_of _ rfl) (.inr (.inl rfl)))).trans
      (.set _ _ _ _ _ (Fld.inWord_of _ rfl) (.inr (.inr rfl)))
  have reset := StoreGood.resetAllEngines (StoreGood.of_frame good sets (by simp) (by simp))
  have image := sets.part .image (by simp)
  have store := sets.part .store (by simp)
  have image' := reset.part .image (by simp)
  have store' := reset.part .store (by simp)
  refine ⟨?_, ?_, image'.1.trans image.1, image'.2.trans image.2, store'.1.trans store.1, store'.2.trans store.2,
    ((start.mono (by simp) fun _ => False.elim).trans (sets.mono (by simp) fun y hy => ?_)).trans (reset.mono (by simp) fun _ h => .inr (.inr
        (.inr h)))⟩
  · rw [reset.reg _ (.inr (by decide)) fun z hz => hz.apart_mc (by decide)]
    exact (State.get_set _ MC_STAT_SRC _ (Fld.inWord_of _ rfl)).trans (Nat.mod_eq_of_lt small)
  · rw [reset.reg _ (.inr (by decide)) fun z hz => hz.apart_mc (by decide)]
    refine (State.get_set_apart _ MC_STAT_SRC MC_IMAGE_CRC_CRC _ (Fld.inWord_of _ rfl) (.inl (by decide))).trans ?_
    exact (State.get_set _ MC_IMAGE_CRC_CRC _ (Fld.inWord_of _ rfl)).trans (Nat.mod_eq_of_lt (Nat.mod_lt _ (by decide)))
  · obtain h | h | h := hy
    exacts [.inl h, .inr (.inl h), .inr (.inr (.inl h))]

theorem Written.setState {s t : State} {l : List Native} {src : Nat} (h : Written s t l src) (n : Nat) :
    (t.set MC_STAT_STATE n).get MC_STAT_SRC = src :=
  (State.get_set_apart _ MC_STAT_STATE MC_STAT_SRC _ (Fld.inWord_of _ rfl) (Fld.apart_of _ _ rfl rfl)).trans h.source

theorem finishDone_runs {s : State} {l : List Native} (host : s.mcState = mcHostload) (image : s.sys.mcImage = some l) :
    RunsTo (exec (.imageCheckComplete .host) s) fun t =>
      t.sys.mcImage = none ∧ t.mem = s.mem ∧ t.time = s.time ∧ t.staged = s.staged ∧
      (imgCheck l = 0 → t.mcState = mcLoaded ∧ t.get MC_STAT_SRC = 3 ∧ t.imgEntries = imgEntriesOf l ∧
        t.imgDisp = imgDispatchOf l ∧ t.cs = [] ∧ t.disp = [] ∧ t.get MC_IMAGE_CRC_CRC = imgCrcField l) ∧
      (imgCheck l ≠ 0 → t.mcState = mcNoImage ∧ t.get MC_STAT_ERR = imgCheck l % 16 ∧
        Frame s t [.sys] (· ∈ [MC_STAT_STATE, MC_STAT_ERR])) := by
  have eq : s.imageChecked .host = s.finishDone l := by
    unfold State.imageChecked
    simp only [image, if_pos host]
  change RunsTo (done s (s.imageChecked .host)) _
  rw [eq]
  unfold State.finishDone State.loadImage
  have start : Frame s { s with sys := { s.sys with mcImage := none } } [.sys] (fun _ => False) := .setSys _ _ _ _ (by simp)
  have none_ : ({ s with sys := { s.sys with mcImage := none } } : State).sys.mcImage = none := rfl
  generalize ({ s with sys := { s.sys with mcImage := none } } : State) = u at start none_
  dsimp only
  have set : ∀ (v : State) n, Frame v (v.set MC_STAT_STATE n) [] (· = MC_STAT_STATE) := fun v n => .set _ _ _ _ _ (Fld.inWord_of _ rfl) rfl
  have kept : ∀ {v w : State} {a b}, Frame u v a b → .sys ∉ a → Frame v w [] (· = MC_STAT_STATE) → w.sys.mcImage = none := fun h ha h' =>
    (congrArg (·.mcImage) ((h'.part .sys (by simp)).trans (h.part .sys ha))).trans none_
  by_cases passes : imgCheck l = 0
  · rw [if_pos passes]
    have written := State.writeImage_written u l (src := 3) (by decide)
    dsimp only
    have source := written.setState mcLoaded
    have step := set (u.writeImage l 3) mcLoaded
    have loaded : ((u.writeImage l 3).set MC_STAT_STATE mcLoaded).mcState = mcLoaded := State.get_set _ _ _ (Fld.inWord_of _ rfl)
    generalize (u.writeImage l 3).set MC_STAT_STATE mcLoaded = t at source step loaded
    generalize u.writeImage l 3 = v at written step
    refine runsTo_done _ _ _ ⟨?_, ?_, ?_, ?_, fun _ => ⟨(get_settle_mc _ _ (by decide)).trans loaded,
      (get_settle_mc _ _ (by decide)).trans source, (settle_imgEntries ..).trans ((step.part .image (by simp)).1.trans written.entries),
      (settle_imgDisp ..).trans ((step.part .image (by simp)).2.trans written.table), (settle_cs ..).trans ((step.part .store
          (by simp)).1.trans written.cs),
      (settle_disp ..).trans ((step.part .store (by simp)).2.trans written.disp), ?_⟩, fun h => absurd passes h⟩
    · rw [settle_sys]
      exact kept written.frame (by simp) step
    · exact (settle_mem ..).trans ((step.part .mem (by simp)).trans ((written.frame.part .mem (by simp)).trans (start.part .mem (by simp))))
    · exact (settle_time ..).trans ((step.part .time (by simp)).trans ((written.frame.part .time (by simp)).trans (start.part .time (by simp))))
    · exact (settle_staged ..).trans ((step.part .staged (by simp)).trans ((written.frame.part .staged (by simp)).trans (start.part .staged
        (by simp))))
    · rw [get_settle_mc _ _ (by decide), step.reg _ (.inr (by decide)) fun z hz => .inl (by rw [hz]; decide)]
      exact written.crc
  · rw [if_neg passes]
    dsimp only
    have err : Frame u (u.set MC_STAT_ERR (imgCheck l)) [] (· = MC_STAT_ERR) := .set _ _ _ _ _ (Fld.inWord_of _ rfl) rfl
    have get : (u.set MC_STAT_ERR (imgCheck l)).get MC_STAT_ERR = imgCheck l % 16 := State.get_set _ _ _ (Fld.inWord_of _ rfl)
    generalize u.set MC_STAT_ERR (imgCheck l) = v at err get
    have step := set v mcNoImage
    have state : (v.set MC_STAT_STATE mcNoImage).mcState = mcNoImage := State.get_set _ _ _ (Fld.inWord_of _ rfl)
    generalize v.set MC_STAT_STATE mcNoImage = t at step state
    have frame : Frame s t [.sys] (· ∈ [MC_STAT_STATE, MC_STAT_ERR]) := ((start.mono (by simp) fun _ => False.elim).trans
      (err.mono (by simp) fun y hy => by simp [hy])).trans (step.mono (by simp) fun y hy => by simp [hy])
    refine runsTo_done _ _ _ ⟨?_, (settle_mem ..).trans (frame.part .mem (by simp)), (settle_time ..).trans (frame.part .time (by simp)),
      (settle_staged ..).trans (frame.part .staged (by simp)), fun h => absurd h passes, fun _ => ⟨(get_settle_mc _ _ (by decide)).trans state,
      ?_, frame.trans (.settle _ _ _ _)⟩⟩
    · rw [settle_sys]
      exact kept err (by simp) step
    · rw [get_settle_mc _ _ (by decide), step.reg _ (.inr (by decide)) fun z hz => by rw [hz]; exact Fld.apart_of _ _ rfl rfl]
      exact get

theorem verify_runs {s : State} {n : Fin 2} (ready : s.ready) (free : s.on MC_VSTAT_BUSY = false) : RunsTo (exec (.verify n) s) fun t =>
      t.get MC_VSTAT_BUSY = 1 ∧ t.sys.mcVerify = some n ∧ Frame s t [.sys] (· ∈ [MC_VSTAT_BUSY]) := by
  have eq : s.mcVerifyCmd n = { s.set MC_VSTAT_BUSY 1 with sys := { (s.set MC_VSTAT_BUSY 1).sys with mcVerify := some n } } := by
    unfold State.mcVerifyCmd
    rw [free]
    rfl
  change RunsTo (hostDone s (s.mcVerifyCmd n)) _
  rw [eq]
  have set : Frame s (s.set MC_VSTAT_BUSY 1) [.sys] (· ∈ [MC_VSTAT_BUSY]) := .set _ _ _ _ _ (Fld.inWord_of _ rfl) (by simp)
  have get : (s.set MC_VSTAT_BUSY 1).get MC_VSTAT_BUSY = 1 := State.get_set _ _ _ (Fld.inWord_of _ rfl)
  generalize s.set MC_VSTAT_BUSY 1 = u at set get
  have sys : Frame u { u with sys := { u.sys with mcVerify := some n } } [.sys] (fun _ => False) := .setSys _ _ _ _ (by simp)
  exact runsTo_hostDone _ _ _ ready ⟨(get_settle_mc _ _ (by decide)).trans ((sys.reg _ (.inr (by decide)) fun _ => False.elim).trans get),
    (congrArg (·.mcVerify) (settle_sys _ _)).trans rfl, (set.trans (sys.mono (by simp) fun _ => False.elim)).trans (.settle _ _ _ _)⟩

/-- R313, R316: slot n has been checked. -/
structure SlotChecked (s t : State) (n : Nat) : Prop where
  valid : t.bit MC_VSTAT_VALID n = (imgCheck (s.slotWords n) == 0)
  version : t.get (MC_SLOT_VER_VER n) = imgVersion (s.slotWords n)
  crc : t.get (MC_SLOT_CRC_CRC n) = imgCrcField (s.slotWords n)
  frame : Frame s t [] (· ∈ [MC_VSTAT_VALID, MC_SLOT_VER_VER n, MC_SLOT_CRC_CRC n])

theorem State.checkSlot_checked (s : State) {n : Nat} (hn : n < 2) : SlotChecked s (s.checkSlot n) n := by
  unfold State.checkSlot
  extract_lets l
  have setBit : Frame s (s.setBit MC_VSTAT_VALID n (imgCheck l == 0)) [] (· = MC_VSTAT_VALID) := .setBit _ _ _ _ _ _ (Fld.inWord_of _ rfl) rfl
  have bit : (s.setBit MC_VSTAT_VALID n (imgCheck l == 0)).bit MC_VSTAT_VALID n = (imgCheck l == 0) :=
    (State.bit_setBit _ MC_VSTAT_VALID _ n _ (Fld.inWord_of _ rfl) hn).trans (if_pos rfl)
  generalize s.setBit MC_VSTAT_VALID n (imgCheck l == 0) = u at setBit bit
  have setVer : Frame u (u.set (MC_SLOT_VER_VER n) (imgVersion l)) [] (· = MC_SLOT_VER_VER n) := .set _ _ _ _ _ (Fld.inWord_of _ rfl) rfl
  have ver : (u.set (MC_SLOT_VER_VER n) (imgVersion l)).get (MC_SLOT_VER_VER n) = imgVersion l :=
    (State.get_set _ (MC_SLOT_VER_VER n) _ (Fld.inWord_of _ rfl)).trans (Nat.mod_eq_of_lt (Nat.mod_lt _ (by decide)))
  generalize u.set (MC_SLOT_VER_VER n) (imgVersion l) = v at setVer ver
  have setCrc : Frame v (v.set (MC_SLOT_CRC_CRC n) (imgCrcField l)) [] (· = MC_SLOT_CRC_CRC n) := .set _ _ _ _ _ (Fld.inWord_of _ rfl) rfl
  have crc : (v.set (MC_SLOT_CRC_CRC n) (imgCrcField l)).get (MC_SLOT_CRC_CRC n) = imgCrcField l :=
    (State.get_set _ (MC_SLOT_CRC_CRC n) _ (Fld.inWord_of _ rfl)).trans (Nat.mod_eq_of_lt (Nat.mod_lt _ (by decide)))
  generalize v.set (MC_SLOT_CRC_CRC n) (imgCrcField l) = t at setCrc crc
  have apart : MC_SLOT_VER_VER n ∈ [MC_SLOT_VER_VER n] → (MC_SLOT_CRC_CRC n).apart (MC_SLOT_VER_VER n) := fun _ => .inl (by
    simp only [MC_SLOT_VER_VER, MC_SLOT_VER, MC_SLOT_CRC_CRC, MC_SLOT_CRC]; omega)
  refine ⟨?_, ?_, crc, ((setBit.mono (by simp) fun y hy => by simp [hy]).trans (setVer.mono (by simp) fun y hy => by simp [hy])).trans
    (setCrc.mono (by simp) fun y hy => by simp [hy])⟩
  · refine Eq.trans ?_ bit
    unfold State.bit
    rw [setCrc.reg _ (.inr (by decide)) fun z hz => .inl ?_, setVer.reg _ (.inr (by decide)) fun z hz => .inl ?_]
    · rw [hz]; simp only [MC_VSTAT_VALID, MC_VSTAT, MC_SLOT_VER_VER, MC_SLOT_VER]; omega
    · rw [hz]; simp only [MC_VSTAT_VALID, MC_VSTAT, MC_SLOT_CRC_CRC, MC_SLOT_CRC]; omega
  · rw [setCrc.reg _ (.inr (by simp only [MC_SLOT_VER_VER, MC_SLOT_VER]; omega)) fun z hz => by rw [hz]; exact apart (by simp)]
    exact ver

theorem State.slotWords_congr {s t : State} (h : t.mem = s.mem) (n : Nat) : t.slotWords n = s.slotWords n := by
  unfold State.slotWords State.memWord
  rw [h]

theorem verifyDone_runs {s : State} {n : Fin 2} (verify : s.sys.mcVerify = some n) : RunsTo (exec (.imageCheckComplete (.slot n)) s) fun t =>
      t.get MC_VSTAT_BUSY = 0 ∧ t.bit MC_VSTAT_VALID n = (imgCheck (s.slotWords n) == 0) ∧
      t.get (MC_SLOT_VER_VER n) = imgVersion (s.slotWords n) ∧ t.get (MC_SLOT_CRC_CRC n) = imgCrcField (s.slotWords n) ∧
      Frame s t [.sys] (· ∈ [MC_VSTAT_BUSY, MC_VSTAT_VALID, MC_SLOT_VER_VER n, MC_SLOT_CRC_CRC n]) := by
  have eq : s.imageChecked (.slot n) = s.verifyDone n := by
    unfold State.imageChecked
    simp only [if_pos verify]
  change RunsTo (done s (s.imageChecked (.slot n))) _
  rw [eq]
  unfold State.verifyDone
  have start : Frame s { s with sys := { s.sys with mcVerify := none } } [.sys] (fun _ => False) := .setSys _ _ _ _ (by simp)
  generalize ({ s with sys := { s.sys with mcVerify := none } } : State) = u at start
  have busy : Frame u (u.set MC_VSTAT_BUSY 0) [] (· = MC_VSTAT_BUSY) := .set _ _ _ _ _ (Fld.inWord_of _ rfl) rfl
  have get : (u.set MC_VSTAT_BUSY 0).get MC_VSTAT_BUSY = 0 := State.get_set _ _ _ (Fld.inWord_of _ rfl)
  generalize u.set MC_VSTAT_BUSY 0 = v at busy get
  have words : v.slotWords n = s.slotWords n := State.slotWords_congr ((busy.part .mem (by simp)).trans (start.part .mem (by simp))) _
  obtain ⟨valid, version, crc, frame⟩ := v.checkSlot_checked n.isLt
  rw [words] at valid version crc
  have apart : ∀ z, z ∈ [MC_VSTAT_VALID, MC_SLOT_VER_VER n, MC_SLOT_CRC_CRC n] → z.apart MC_VSTAT_BUSY := fun z hz => by
    simp only [List.mem_cons, List.not_mem_nil, or_false] at hz
    obtain rfl | rfl | rfl := hz
    · exact Fld.apart_of _ _ rfl rfl
    · exact .inl (by simp only [MC_VSTAT_BUSY, MC_VSTAT, MC_SLOT_VER_VER, MC_SLOT_VER]; omega)
    · exact .inl (by simp only [MC_VSTAT_BUSY, MC_VSTAT, MC_SLOT_CRC_CRC, MC_SLOT_CRC]; omega)
  refine runsTo_done _ _ _ ⟨(get_settle_mc _ _ (by decide)).trans ((frame.reg _ (.inr (by decide)) apart).trans get), ?_,
    (get_settle_mc _ _ (by simp only [MC_SLOT_VER_VER, MC_SLOT_VER]; omega)).trans version,
    (get_settle_mc _ _ (by simp only [MC_SLOT_CRC_CRC, MC_SLOT_CRC]; omega)).trans crc, (((start.mono (by simp) fun _ => False.elim).trans
      (busy.mono (by simp) fun y hy => by simp [hy])).trans (frame.mono (by simp) fun y hy => List.mem_cons_of_mem _ hy)).trans (.settle _ _ _ _)⟩
  unfold State.bit at valid ⊢
  rw [get_settle_mc _ _ (by decide)]
  exact valid

/-! ### Reloads (R317, R318) -/

theorem digestField_at {y : Fld} (low : 0x28000 ≤ y.reg.addr) (high : y.reg.addr < 0x29000) : digestField y := ⟨low, high⟩

theorem Frame.dgCompare (s : State) (ps : List Part) : Frame s s.dgCompare ps digestField := by
  unfold State.dgCompare
  extract_lets c v mis was u
  have sets : Frame s u ps digestField := (Frame.set _ _ _ _ _ (Fld.inWord_of _ rfl) (digestField_at (by decide) (by decide))).trans
    (.set _ _ _ _ _ (Fld.inWord_of _ rfl) (digestField_at (by decide) (by decide)))
  exact .ite _ _ _ _ _ _ (sets.trans (.flag _ _ _ DG_FLAGS_DIGEST_MISMATCH DG_CNT_MISMATCH (Fld.inWord_of _ rfl) (Fld.inWord_of _ rfl)
      (digestField_at (by decide) (by decide))
    (digestField_at (by decide) (by decide)))) sets

theorem State.setDigest_owes (s : State) (p : RegFile) : ((s.setDigest p).digest ≠ s.digest → (s.setDigest p).dg.owed) ∧
    Frame s (s.setDigest p) [.dg] digestField := by
  have same : (s.setDigest p).dg = { s.dg with plane := p, owed := s.dg.owed || p.digest != s.digest } := (Frame.dgCompare _ []).part .dg (by simp)
  refine ⟨fun ne => ?_, Frame.trans (.setDg _ _ _ _ (by simp)) (.dgCompare _ _)⟩
  unfold State.digest at ne
  rw [same] at ne ⊢
  dsimp only at ne ⊢
  rw [Bool.or_eq_true, bne_iff_ne]
  exact .inr ne

/-- R317: a slot that passes is loaded, and a report is owed where the digest changes. -/
theorem State.reload_passes (s : State) (l : List Native) {src : Nat} (small : src < 4) {t : State} (eq : t = ((s.writeImage l src).set MC_STAT_STATE
    mcLoaded).setDigest ((s.writeImage l src).set MC_STAT_STATE mcLoaded).live) :
    t.mcState = mcLoaded ∧ t.get MC_STAT_SRC = src ∧ t.imgEntries = imgEntriesOf l ∧ (t.digest ≠ s.digest → t.dg.owed) ∧
    ∀ y : Fld, 0x70020 ≤ y.reg.addr → y.reg.addr < 0x70100 → MC_MCHKMAP_MAP.apart y → t.get y = s.get y := by
  have written := s.writeImage_written l small
  have source := written.setState mcLoaded
  have step : Frame (s.writeImage l src) ((s.writeImage l src).set MC_STAT_STATE mcLoaded) [] (· = MC_STAT_STATE) :=
    .set _ _ _ _ _ (Fld.inWord_of _ rfl) rfl
  have loaded : ((s.writeImage l src).set MC_STAT_STATE mcLoaded).mcState = mcLoaded := State.get_set _ _ _ (Fld.inWord_of _ rfl)
  generalize (s.writeImage l src).set MC_STAT_STATE mcLoaded = v at source step loaded eq
  generalize s.writeImage l src = u at written step
  obtain ⟨owes, digest⟩ := v.setDigest_owes v.live
  rw [← eq] at owes digest
  have apart : ∀ {y z : Fld}, 0x70000 ≤ y.reg.addr → digestField z → z.apart y := fun hy hz => .inl (by have := hz.2; omega)
  have plane : v.digest = s.digest := by
    unfold State.digest
    rw [step.part .dg (by simp), written.frame.part .dg (by simp)]
  refine ⟨(digest.reg _ (.inr (by decide)) fun z => apart (by decide)).trans loaded, (digest.reg _ (.inr (by decide)) fun z => apart
      (by decide)).trans
    source, ?_, fun ne => owes fun same => ne (same.trans plane), fun y low high map => ?_⟩
  · exact (digest.part .image (by simp)).1.trans ((step.part .image (by simp)).1.trans written.entries)
  · rw [digest.reg y (.inr (by omega)) fun z => apart (by omega), step.reg y (.inr (by omega)) fun z hz => .inl ?_,
      written.frame.reg y (.inr (by omega)) fun z hz => ?_]
    · obtain h | h | h | h | rfl := hz
      · exact .inl (by rw [h]; simp only [MC_VERSION]; omega)
      · exact .inl (by rw [h]; simp only [MC_IMAGE_CRC]; omega)
      · exact .inl (by rw [h]; simp only [MC_STAT_SRC, MC_STAT]; omega)
      · exact .inl (by omega)
      · exact map
    · rw [hz]; simp only [MC_STAT_STATE, MC_STAT]; omega

/-- R318: a slot that fails is noted, and the other one is named. -/
theorem State.fallBack_notes {s : State} (n : Fin 2) {l : Nat} {r : Reg} {w : Word} {u : State}
    (eq : (((s.set MC_STAT_ERR l).flag MC_FLAGS_LOADERR MC_CNT1_LOADERR).set MC_IMGSEL_SLOT (1 - n)).setStagedWord r w = u) :
    u.get MC_FLAGS_LOADERR = 1 ∧ u.get MC_IMGSEL_SLOT = 1 - n.val ∧ u.mem = s.mem := by
  have err : Frame s (s.set MC_STAT_ERR l) [] (fun _ => True) := .set _ _ _ _ _ (Fld.inWord_of _ rfl) trivial
  generalize s.set MC_STAT_ERR l = v at err eq
  have raised : Frame v (v.flag MC_FLAGS_LOADERR MC_CNT1_LOADERR) [] (fun _ => True) :=
    .flag _ _ _ _ _ (Fld.inWord_of _ rfl) (Fld.inWord_of _ rfl) trivial trivial
  have flag : (v.flag MC_FLAGS_LOADERR MC_CNT1_LOADERR).get MC_FLAGS_LOADERR = 1 :=
    State.get_flag _ _ _ (Fld.inWord_of _ rfl) (Fld.inWord_of _ rfl) (.inl (by decide)) rfl
  generalize v.flag MC_FLAGS_LOADERR MC_CNT1_LOADERR = x at raised flag eq
  have set : Frame x (x.set MC_IMGSEL_SLOT (1 - n)) [] (· = MC_IMGSEL_SLOT) := .set _ _ _ _ _ (Fld.inWord_of _ rfl) rfl
  have named : (x.set MC_IMGSEL_SLOT (1 - n)).get MC_IMGSEL_SLOT = 1 - n.val :=
    (State.get_set _ MC_IMGSEL_SLOT _ (Fld.inWord_of _ rfl)).trans (Nat.mod_eq_of_lt (by simp only [MC_IMGSEL_SLOT]; omega))
  generalize x.set MC_IMGSEL_SLOT (1 - n) = y at set named eq
  have same : ∀ z, u.get z = y.get z := fun z => State.get_congr (eq ▸ State.setStagedWord_live ..) z
  exact ⟨(same _).trans ((set.reg _ (.inr (by decide)) fun z hz => .inl (by rw [hz]; decide)).trans flag), (same _).trans named,
    ((congrArg State.mem eq).symm.trans (State.setStagedWord_mem ..)).trans <| (set.part .mem (by simp)).trans ((raised.part .mem
        (by simp)).trans (err.part .mem (by simp)))⟩

theorem reload_runs {s : State} {n : Fin 2} (reload : s.mcState = mcReload) (slot : s.get MC_IMGSEL_SLOT = n) :
    RunsTo (exec .reloadComplete s) fun t =>
      (imgCheck (s.slotWords n) = 0 → t.mcState = mcLoaded ∧ t.get MC_STAT_SRC = n ∧
        t.imgEntries = imgEntriesOf (s.slotWords n) ∧ (t.digest ≠ s.digest → t.dg.owed)) ∧
      (imgCheck (s.slotWords n) ≠ 0 → t.get MC_FLAGS_LOADERR = 1 ∧ t.get MC_IMGSEL_SLOT = 1 - n.val ∧
        t.mcState = (if imgCheck (s.slotWords (1 - n.val)) = 0 then mcLoaded else mcNoImage)) := by
  change RunsTo (doneIf _ s s.reloadDone) _
  rw [doneIf_pos (by rw [reload]; rfl)]
  unfold State.reloadDone
  dsimp only
  rw [slot]
  by_cases passes : imgCheck (s.slotWords n) = 0
  · have load : s.loadImage (s.slotWords n) n = (s.writeImage (s.slotWords n) n, true) := if_pos passes
    rw [load]
    dsimp only
    generalize eq : State.setDigest _ _ = t
    obtain ⟨loaded, source, entries, owes, -⟩ := s.reload_passes (s.slotWords n) (Nat.lt_trans n.isLt (by decide)) eq.symm
    refine runsTo_done _ _ _ ⟨fun _ => ⟨(get_settle_mc _ _ (by decide)).trans loaded, (get_settle_mc _ _ (by decide)).trans source,
      (settle_imgEntries ..).trans entries, ?_⟩, fun h => absurd passes h⟩
    unfold State.digest at owes ⊢
    rw [settle_dg]
    exact owes
  · have load : s.loadImage (s.slotWords n) n = (s.set MC_STAT_ERR (imgCheck (s.slotWords n)), false) := if_neg passes
    rw [load]
    dsimp only
    generalize eq : State.setStagedWord _ _ _ = u
    obtain ⟨flag, named, mem⟩ := State.fallBack_notes n eq
    rw [State.slotWords_congr mem]
    by_cases again : imgCheck (s.slotWords (1 - n.val)) = 0
    · rw [show u.loadImage (s.slotWords (1 - n)) (1 - n) = (u.writeImage (s.slotWords (1 - n.val)) (1 - n.val), true) from if_pos again]
      dsimp only
      generalize eq' : State.setDigest _ _ = t
      obtain ⟨loaded, -, -, -, others⟩ := u.reload_passes (s.slotWords (1 - n)) (by omega) eq'.symm
      exact runsTo_done _ _ _ ⟨fun h => absurd h passes, fun _ => ⟨
        (get_settle_mc _ _ (by decide)).trans ((others _ (by decide) (by decide) (.inl (by decide))).trans flag),
        (get_settle_mc _ _ (by decide)).trans ((others _ (by decide) (by decide) (.inl (by decide))).trans named),
        ((get_settle_mc _ _ (by decide)).trans loaded).trans (if_pos again).symm⟩⟩
    · rw [show u.loadImage (s.slotWords (1 - n)) (1 - n) = (u.set MC_STAT_ERR (imgCheck (s.slotWords (1 - n.val))), false) from if_neg again]
      dsimp only
      have err : Frame u (u.set MC_STAT_ERR (imgCheck (s.slotWords (1 - n)))) [] (fun y => y.reg = MC_STAT ∨ y.reg = DG_STAT) :=
        .set _ _ _ _ _ (Fld.inWord_of _ rfl) (.inl rfl)
      generalize u.set MC_STAT_ERR (imgCheck (s.slotWords (1 - n))) = v at err
      have set : Frame v (v.set MC_STAT_STATE mcNoImage) [] (fun y => y.reg = MC_STAT ∨ y.reg = DG_STAT) :=
        .set _ _ _ _ _ (Fld.inWord_of _ rfl) (.inl rfl)
      have state : (v.set MC_STAT_STATE mcNoImage).get MC_STAT_STATE = mcNoImage := State.get_set _ _ _ (Fld.inWord_of _ rfl)
      generalize v.set MC_STAT_STATE mcNoImage = w at set state
      have stale : Frame w w.dgStale [] (· = DG_STAT_STALE) := .dgStale _ _ _ rfl
      have frame : Frame u w.dgStale [] (fun y => y.reg = MC_STAT ∨ y.reg = DG_STAT) := (err.trans set).trans (stale.mono (by simp) fun y hy => .inr
        (by rw [hy]; rfl))
      have apart : ∀ {x z : Fld}, 0x70030 ≤ x.reg.addr → z.reg = MC_STAT ∨ z.reg = DG_STAT → z.apart x := fun hx hz => by
        obtain h | h := hz
        · exact .inl (by rw [h]; simp only [MC_STAT]; omega)
        · exact .inl (by rw [h]; simp only [DG_STAT]; omega)
      refine runsTo_done _ _ _ ⟨fun h => absurd h passes, fun _ => ⟨
        (get_settle_mc _ _ (by decide)).trans ((frame.reg _ (.inr (by decide)) fun z => apart (by decide)).trans flag),
        (get_settle_mc _ _ (by decide)).trans ((frame.reg _ (.inr (by decide)) fun z => apart (by decide)).trans named), ?_⟩⟩
      rw [if_neg again]
      exact (get_settle_mc _ _ (by decide)).trans ((stale.reg _ (.inr (by decide)) fun z hz => .inl (by rw [hz]; decide)).trans state)

/-- Settles O34, one lemma for each clause. -/
theorem controlStoreLoads : Obligations.ControlStoreLoads :=
  ⟨fun _ => hostload_runs, fun _ _ _ => windowWrite_runs, fun _ off w => windowWrite_closed_runs off w, fun _ v => dispatchWrite_runs v,
    fun _ => dispatchRead_runs, fun _ => finish_runs, fun _ _ => finishDone_runs, fun _ _ => verify_runs, fun _ _ => verifyDone_runs,
    fun _ _ => reload_runs⟩

end Sys2Proof.Machine
end

section
/-! The loss of REFCLK (R421). -/

namespace Sys2Proof.Machine

/-- At READY, with the error of TBREF stored as a word of its own although it reads its Reset value. -/
def storedError : State := { State.reset with live := [(TP_TBREF_ERR.addr, 0)] }

/-- Bit 0 at the address of TP_TBREF_ERR, of a register whose Reset word sets it. -/
def oddError : Fld := ⟨⟨TP_TBREF_ERR.addr, 1⟩, 0, 0⟩

/-- R421: the loss of REFCLK stores the error that it holds anew, and a word at its Reset value is not kept. -/
theorem refclkLoss_drops_error : RunsTo (exec .refclkLoss storedError) fun t => t.get oddError = 1 := by
  have lost : (!storedError.on CK_STAT_HOLDOVER) = true := by decide +kernel
  have read : (((((storedError.tbLose.set TP_TBREF_ERR_ERR (storedError.get TP_TBREF_ERR_ERR)).set CK_STAT_HOLDOVER 1).set
      CK_STAT_REFOK 0).set CK_STAT_LOCK 0).flag CK_FLAGS_REFLOSS CK_CNT0_REFLOSS).get oddError = 1 := by decide +kernel
  change RunsTo (doneIf (!storedError.on CK_STAT_HOLDOVER) storedError _) _
  rw [doneIf_pos lost]
  exact runsTo_done _ _ _ ((get_settle _ _ _ (.inl (by decide))).trans read)

/-- Refutes O50: the loss of REFCLK writes TP_TBREF_ERR, with the value it has, and its frame does not name that register.
In a plane that stores the Reset word of the register the write removes it, which a register of the same address and
another Reset word reads. -/
theorem not_scopedResets : ¬ Obligations.ScopedResets := by
  intro h
  obtain ⟨-, -, -, -, loss, -⟩ := h
  have read : storedError.get oddError = 0 := by decide +kernel
  obtain ⟨t, next, -, -, -, -, -, frame⟩ := loss storedError (by decide +kernel)
  obtain ⟨u, next', now⟩ := refclkLoss_drops_error
  rw [next] at next'
  injection next' with same
  subst same
  have kept : t.get oddError = storedError.get oddError := frame.reg oddError (.inl (by decide)) fun y hy => .inl (by
    simp only [List.mem_cons, List.not_mem_nil, or_false] at hy
    obtain rfl | rfl | rfl | rfl | rfl | rfl | rfl := hy <;> decide)
  rw [now, read] at kept
  exact absurd kept (by decide)

end Sys2Proof.Machine
end

section
/-! Snapshot requests, latches and reads (R340, R341, R343, R349) -/

namespace Sys2Proof.Machine

/-! ### Requests (R340, R343) -/

theorem snapshotHost_runs {s : State} (ready : s.ready) (free : s.sn.reqs = []) : RunsTo (exec .snapshotHost s) fun t =>
      t.sn.reqs = [(s.time + 1, 1, false)] ∧ Frame s t [.sn] (fun _ => False) := by
  have reqs : s.snapHost.sn.reqs = [(s.time + 1, 1, false)] := by
    show addReq s.sn.reqs (later s.time 1) 0 false = _
    rw [free]
    rfl
  exact runsTo_hostDone _ _ _ ready ⟨(congrArg (·.reqs) (settle_sn _ _)).trans reqs,
    Frame.trans (.snapRequest _ _ _ _ (by simp)) (.settle _ _ _ _)⟩

theorem snapshotSched_runs {s : State} (ready : s.ready) (free : s.sn.reqs = [])
    (ahead : reached s.time (s.getTime SN_TT_LO_T_LO SN_TT_HI_T_HI) = false) : RunsTo (exec .snapshotSched s) fun t =>
      t.sn.reqs = [(s.getTime SN_TT_LO_T_LO SN_TT_HI_T_HI, 256, false)] ∧ t.get SN_STAT_ARMED = 1 ∧
      Frame s t [.sn] (· ∈ [SN_STAT_ARMED]) := by
  change RunsTo (hostDone s s.snapSched) _
  unfold State.snapSched
  dsimp only
  rw [ahead, free]
  have sn : Frame s { s with sn := { s.sn with reqs := [(s.getTime SN_TT_LO_T_LO SN_TT_HI_T_HI, 256, false)] } } [.sn] (fun _ => False) :=
    .setSn _ _ _ _ (by simp)
  change RunsTo (hostDone s (State.set { s with sn := { s.sn with reqs := [(s.getTime SN_TT_LO_T_LO SN_TT_HI_T_HI, 256, false)] } } _ _)) _
  have reqs : ({ s with sn := { s.sn with reqs := [(s.getTime SN_TT_LO_T_LO SN_TT_HI_T_HI, 256, false)] } } : State).sn.reqs =
    [(s.getTime SN_TT_LO_T_LO SN_TT_HI_T_HI, 256, false)] := rfl
  generalize ({ s with sn := { s.sn with reqs := [(s.getTime SN_TT_LO_T_LO SN_TT_HI_T_HI, 256, false)] } } : State) = u at sn reqs
  have set : Frame u (u.set SN_STAT_ARMED 1) [] (· = SN_STAT_ARMED) := .set _ _ _ _ _ (Fld.inWord_of _ rfl) rfl
  exact runsTo_hostDone _ _ _ ready ⟨(congrArg (·.reqs) ((settle_sn _ _).trans (set.part .sn (by simp)))).trans reqs,
    (get_settle _ _ _ (.inl (by decide))).trans (State.get_set _ SN_STAT_ARMED _ (Fld.inWord_of _ rfl)),
    ((sn.mono (by simp) fun _ => False.elim).trans (set.mono (by simp) fun y hy => by simp [hy])).trans (.settle _ _ _ _)⟩

/-- R343: a domain snapshot whose TIME has not passed waits for it. -/
theorem State.domainSnap_waits {u : State} {a : Time} (ahead : reached u.time a = false ∨ u.time = a) (on : u.bit SN_CTL_EN 3)
    (free : u.sn.reqs = []) : (u.domainSnap a).sn.reqs = [(a, 128, false)] ∧ Frame u (u.domainSnap a) [.sn] (fun _ => False) := by
  have wait : (reached u.time a && u.time != a) = false := by
    obtain h | h := ahead
    · rw [h, Bool.false_and]
    · rw [h, bne_self_eq_false, Bool.and_false]
  have eq : u.domainSnap a = { u with sn := { u.sn with reqs := [(a, 128, false)] } } := by
    unfold State.domainSnap State.snapAt State.snapEnabled
    simp only [wait, on, free, if_true]
    rfl
  rw [eq]
  exact ⟨rfl, .setSn _ _ _ _ (by simp)⟩

theorem timeFlit_eq (t : Time) : timeFlit t = t.setWidth 72 := BitVec.ofNat_toNat 72 t

theorem snapshotDomsched_runs {s : State} (ready : s.ready) (root : s.isRoot) (on : s.bit SN_CTL_EN 3) (free : s.sn.reqs = [])
    (empty : (s.port 1).queue = []) (ahead : reached s.time (s.getTime SN_TT_LO_T_LO SN_TT_HI_T_HI) = false) :
    RunsTo (exec .snapshotDomsched s) fun t =>
      t.sn.reqs = [(s.getTime SN_TT_LO_T_LO SN_TT_HI_T_HI, 128, false)] ∧
      (t.port 1).queue = [Packet.make 3 0 0 4 0 [(s.getTime SN_TT_LO_T_LO SN_TT_HI_T_HI).setWidth 72]] ∧
      Frame s t [.sn, .cl] (fun y => y = CL_FLAGS_FWDDROP ∨ ∃ x, y = CL_P_DROP_DROP x) := by
  have eq : s.snapDomSched = (s.broadcast 4 0 [timeFlit (s.getTime SN_TT_LO_T_LO SN_TT_HI_T_HI)]).domainSnap
      (s.getTime SN_TT_LO_T_LO SN_TT_HI_T_HI) := if_pos root
  have number : s.devNum = 0 := if_pos root
  change RunsTo (hostDone s s.snapDomSched) _
  rw [eq]
  have port := s.port_broadcast 4 0 [timeFlit (s.getTime SN_TT_LO_T_LO SN_TT_HI_T_HI)] empty (by simp)
  have frame : Frame s (s.broadcast 4 0 [timeFlit (s.getTime SN_TT_LO_T_LO SN_TT_HI_T_HI)]) [.cl]
      (fun y => y = CL_FLAGS_FWDDROP ∨ ∃ x, y = CL_P_DROP_DROP x) := .broadcast _ _ _ _ _ _ (by simp) (fun x => .inr ⟨x, rfl⟩) (.inl rfl)
  generalize s.broadcast 4 0 [timeFlit (s.getTime SN_TT_LO_T_LO SN_TT_HI_T_HI)] = u at port frame
  have on' : u.bit SN_CTL_EN 3 := by
    unfold State.bit at on ⊢
    rw [frame.reg _ (.inl (by decide)) fun z hz => ?_]
    · exact on
    · obtain rfl | ⟨x, rfl⟩ := hz
      · exact .inl (by decide)
      · exact .inl (by simp only [CL_P_DROP_DROP, CL_P_DROP, SN_CTL_EN, SN_CTL]; omega)
  obtain ⟨reqs, snap⟩ := State.domainSnap_waits (u := u) (a := s.getTime SN_TT_LO_T_LO SN_TT_HI_T_HI)
    (.inl (by rw [frame.part .time (by simp)]; exact ahead)) on' (by rw [frame.part .sn (by simp)]; exact free)
  refine runsTo_hostDone _ _ _ ready ⟨(congrArg (·.reqs) (settle_sn _ _)).trans reqs, ?_,
    ((frame.mono (by simp) fun _ => id).trans (snap.mono (by simp) fun _ => False.elim)).trans (.settle _ _ _ _)⟩
  rw [port_settle, State.port, snap.part .cl (by simp)]
  refine port.trans ?_
  rw [State.broadcastPacket, number, timeFlit_eq]

theorem domainSnap_waits_runs {s : State} {a : Time} (member : s.isMember) (below : s.isRoot = false) (on : s.bit SN_CTL_EN 3)
    (free : s.sn.reqs = []) (ahead : reached s.time a = false ∨ s.time = a) : RunsTo (exec (.domainSnapReceive a) s) fun t =>
      t.sn.reqs = [(a, 128, false)] ∧ Frame s t [.sn] (fun _ => False) := by
  have eq : s.snapReceived a = s.domainSnap a := if_pos (by rw [member, below]; rfl)
  obtain ⟨reqs, snap⟩ := State.domainSnap_waits ahead on free
  change RunsTo (done s (s.snapReceived a)) _
  rw [eq]
  exact runsTo_done _ _ _ ⟨(congrArg (·.reqs) (settle_sn _ _)).trans reqs, snap.trans (.settle _ _ _ _)⟩

/-- R343: a domain snapshot whose TIME has passed is late, and latches in the next TCLK where it is enabled. -/
theorem domainSnap_late_runs {s : State} {a : Time} (member : s.isMember) (below : s.isRoot = false) (past : reached s.time a) (ne : s.time ≠ a) :
    RunsTo (exec (.domainSnapReceive a) s) fun t => t.sn = (s.snapRequestAt s.time 7 true).sn ∧ t.get TP_FLAGS_EPOCH_LATE = 1 ∧
      ∀ ps, Frame s (s.snapRequestAt s.time 7 true) ps (fun _ => False) → Frame s t ps (· ∈ [TP_FLAGS_EPOCH_LATE, TP_CNT2_EPOCH_LATE]) := by
  have eq : s.snapReceived a = (s.snapRequestAt s.time 7 true).flag TP_FLAGS_EPOCH_LATE TP_CNT2_EPOCH_LATE := by
    unfold State.snapReceived State.domainSnap
    rw [member, below, past, if_pos (by rfl), if_pos (by rw [Bool.true_and]; exact bne_iff_ne.2 ne)]
  change RunsTo (done s (s.snapReceived a)) _
  rw [eq]
  generalize s.snapRequestAt s.time 7 true = u
  have flag : Frame u (u.flag TP_FLAGS_EPOCH_LATE TP_CNT2_EPOCH_LATE) [] (· ∈ [TP_FLAGS_EPOCH_LATE, TP_CNT2_EPOCH_LATE]) :=
    .flag _ _ _ _ _ (Fld.inWord_of _ rfl) (Fld.inWord_of _ rfl) (by simp) (by simp)
  exact runsTo_done _ _ _ ⟨(settle_sn _ _).trans (flag.part .sn (by simp)), (get_settle _ _ _ (.inl (by decide))).trans
    (State.get_flag _ _ _ (Fld.inWord_of _ rfl) (Fld.inWord_of _ rfl) (.inl (by decide)) rfl), fun ps frame =>
    ((frame.mono (fun _ => id) fun _ => False.elim).trans (flag.mono (by simp) fun _ => id)).trans (.settle _ _ _ _)⟩

theorem domainSnap_latches_late_runs {s : State} {a : Time} (member : s.isMember) (below : s.isRoot = false) (on : s.bit SN_CTL_EN 3)
    (free : s.sn.reqs = []) (past : reached s.time a) (ne : s.time ≠ a) : RunsTo (exec (.domainSnapReceive a) s) fun t =>
      t.sn.reqs = [(s.time + 1, 128, true)] ∧ t.get TP_FLAGS_EPOCH_LATE = 1 ∧
      Frame s t [.sn] (· ∈ [TP_FLAGS_EPOCH_LATE, TP_CNT2_EPOCH_LATE]) := by
  have reqs : (s.snapRequestAt s.time 7 true).sn.reqs = [(s.time + 1, 128, true)] := by
    unfold State.snapRequestAt State.snapEnabled
    simp only [on, if_true, free]
    rfl
  refine (domainSnap_late_runs member below past ne).mono fun t ⟨sn, late, frame⟩ => ⟨by rw [sn, reqs], late, frame _ ?_⟩
  exact .snapRequestAt _ _ _ _ _ _ (by simp)

theorem domainSnap_disabled_runs {s : State} {a : Time} (member : s.isMember) (below : s.isRoot = false) (off : s.bit SN_CTL_EN 3 = false)
    (past : reached s.time a) (ne : s.time ≠ a) : RunsTo (exec (.domainSnapReceive a) s) fun t =>
      t.sn = s.sn ∧ t.get TP_FLAGS_EPOCH_LATE = 1 ∧ Frame s t [] (· ∈ [TP_FLAGS_EPOCH_LATE, TP_CNT2_EPOCH_LATE]) := by
  have same : s.snapRequestAt s.time 7 true = s := by
    unfold State.snapRequestAt State.snapEnabled
    simp only [off, Bool.false_eq_true, if_false]
  refine (domainSnap_late_runs member below past ne).mono fun t ⟨sn, late, frame⟩ => ⟨by rw [sn, same], late, frame _ ?_⟩
  rw [same]
  exact .refl _ _ _

/-! ### Latches and their reads (R340, R341, R349) -/

/-- R54: the registers of a latch, but for the phase and STEP, are those that the device holds. -/
theorem State.snapRegs_word (s : State) (x : Time) {r : Reg}
    (other : r.addr ∉ [TP_PH_ANGLE.addr, TP_PH_CYCLE.addr, TP_PH_VEL.addr, TP_STEP.addr]) : (s.snapRegs x).word r = s.word r := by
  simp only [List.mem_cons, List.not_mem_nil, or_false, not_or] at other
  obtain ⟨angle, cycle, vel, step⟩ := other
  unfold State.snapRegs
  dsimp only
  rw [RegFile.word_setWord_ne _ _ _ _ (Ne.symm vel), RegFile.word_setWord_ne _ _ _ _ (Ne.symm cycle),
    RegFile.word_setWord_ne _ _ _ _ (Ne.symm angle), RegFile.word_setWord_ne _ _ _ _ (Ne.symm step)]
  rfl

theorem State.snapRegs_step (s : State) (x : Time) : (s.snapRegs x).get TP_STEP_STEP = s.stepAt x % 65536 := by
  unfold State.snapRegs RegFile.get
  dsimp only
  rw [show TP_STEP_STEP.reg = TP_STEP from rfl, RegFile.word_setWord_ne _ TP_PH_VEL _ _ (by decide),
    RegFile.word_setWord_ne _ TP_PH_CYCLE _ _ (by decide), RegFile.word_setWord_ne _ TP_PH_ANGLE _ _ (by decide), RegFile.word_setWord,
    fieldOf_withField _ _ _ _ (by decide) (by decide)]
  rfl

theorem State.snapDue_single {s : State} {r : Time × Nat × Bool} (one : s.sn.reqs = [r]) (due : reached s.time r.1) : s.snapDue = some r := by
  unfold State.snapDue
  rw [one, List.filter_cons_of_pos (by exact due)]
  rfl

/-- R341: SN_STAT after a latch into bank b. -/
theorem State.shownLatch (w : State) (seq : Nat) {b : Nat} (small : b < 4) :
    let x := ((w.set SN_STAT_SEQ seq).setBit SN_STAT_FULL b true).set SN_STAT_NEXT (b + 1)
    x.get SN_STAT_SEQ = seq % 65536 ∧ x.bit SN_STAT_FULL b ∧ x.get SN_STAT_NEXT = (b + 1) % 4 ∧ Frame w x [] (fun y => y.reg = SN_STAT) := by
  have seqIs : (w.set SN_STAT_SEQ seq).get SN_STAT_SEQ = seq % 65536 := State.get_set _ _ _ (Fld.inWord_of _ rfl)
  have first : Frame w (w.set SN_STAT_SEQ seq) [] (fun y => y.reg = SN_STAT) := .set _ _ _ _ _ (Fld.inWord_of _ rfl) rfl
  dsimp only
  generalize w.set SN_STAT_SEQ seq = u at seqIs first ⊢
  have full : (u.setBit SN_STAT_FULL b true).bit SN_STAT_FULL b = true :=
    (State.bit_setBit _ SN_STAT_FULL _ b _ (Fld.inWord_of _ rfl) small).trans (if_pos rfl)
  have second : Frame u (u.setBit SN_STAT_FULL b true) [] (· = SN_STAT_FULL) := .setBit _ _ _ _ _ _ (Fld.inWord_of _ rfl) rfl
  generalize u.setBit SN_STAT_FULL b true = v at full second ⊢
  have third : Frame v (v.set SN_STAT_NEXT (b + 1)) [] (· = SN_STAT_NEXT) := .set _ _ _ _ _ (Fld.inWord_of _ rfl) rfl
  refine ⟨?_, ?_, State.get_set _ SN_STAT_NEXT _ (Fld.inWord_of _ rfl),
    (first.trans (second.mono (by simp) fun y hy => by rw [hy]; rfl)).trans (third.mono (by simp) fun y hy => by rw [hy]; rfl)⟩
  · rw [third.reg _ (.inl (by decide)) fun z hz => by rw [hz]; exact Fld.apart_of _ _ rfl rfl,
      second.reg _ (.inl (by decide)) fun z hz => by rw [hz]; exact Fld.apart_of _ _ rfl rfl]
    exact seqIs
  · unfold State.bit at full ⊢
    rw [third.reg _ (.inl (by decide)) fun z hz => by rw [hz]; exact Fld.apart_of _ _ rfl rfl]
    exact full

theorem snapshotLatch_runs {s : State} {a : Time} {src : Nat} (one : s.sn.reqs = [(a, src, false)]) (due : reached s.time a)
    (run : s.on SN_CTL_MODE = false) (unsched : src.testBit 8 = false) : RunsTo (exec .snapshotLatch s) fun t =>
      (∃ b, vget t.sn.banks (s.get SN_STAT_NEXT) none = some b ∧ b.time = a ∧ b.src = src ∧ b.late = false ∧
        b.seq = (s.get SN_STAT_SEQ + 1) % 65536 ∧ b.plane = s.dg.plane ∧
        b.regs.get TP_STEP_STEP = s.stepAt (if src % 128 = 0 then a else a - 1) % 65536 ∧
        ∀ r : Reg, r.addr ∉ [TP_PH_ANGLE.addr, TP_PH_CYCLE.addr, TP_PH_VEL.addr, TP_STEP.addr] → b.regs.word r = s.word r) ∧
      t.sn.reqs = [] ∧ t.bit SN_STAT_FULL (s.get SN_STAT_NEXT) ∧ t.get SN_STAT_NEXT = (s.get SN_STAT_NEXT + 1) % 4 ∧
      t.get SN_STAT_SEQ = (s.get SN_STAT_SEQ + 1) % 65536 ∧ Frame s t [.sn] (fun y => y.reg = SN_STAT) := by
  have next : s.get SN_STAT_NEXT < 4 := State.get_lt s SN_STAT_NEXT
  have trigger : triggerOf (a, src, false) = if src % 128 = 0 then a else a - 1 := by
    unfold triggerOf
    dsimp only
    split <;> simp_all
  have none_ : s.sn.reqs.filter (fun r => r.1 != a) = [] := by
    rw [one]
    simp
  change RunsTo (done s s.snapNow) _
  unfold State.snapNow
  rw [State.snapDue_single one due]
  change RunsTo (done s (s.snapLatch (a, src, false))) _
  unfold State.snapLatch
  extract_lets _ u v seq snap _
  have dropped : Frame s u [.sn] (fun _ => False) := .setSn _ _ _ _ (by simp)
  have same : v = u := if_neg (by rw [unsched]; decide)
  have live : ∀ x, u.get x = s.get x := fun _ => rfl
  have bank : v.snapBank = some (s.get SN_STAT_NEXT) := by
    rw [same, ← live]
    exact if_neg (by rw [show u.on SN_CTL_MODE = s.on SN_CTL_MODE from rfl, run]; decide)
  rw [bank]
  dsimp -zeta only
  extract_lets w x
  rw [if_neg (by decide)]
  have filled : Frame v w [.sn] (fun _ => False) := .setSn _ _ _ _ (by simp)
  have frame : Frame s w [.sn] (fun _ => False) := (same ▸ dropped).trans filled
  have taken : vget w.sn.banks (s.get SN_STAT_NEXT) none = some snap := vget_vset _ _ _ _ next
  have left : w.sn.reqs = [] := by
    show v.sn.reqs = []
    rw [same]
    exact none_
  have seqIs : seq = s.get SN_STAT_SEQ + 1 := by
    show v.get SN_STAT_SEQ + 1 = _
    rw [same, live]
  obtain ⟨numbered, full, pointed, shown⟩ := w.shownLatch seq next
  have sn : x.sn = w.sn := shown.part .sn (by simp)
  refine runsTo_done _ _ _ ⟨⟨snap, by rw [settle_sn, sn]; exact taken, rfl, rfl, rfl, ?_, ?_, ?_, ?_⟩, by rw [settle_sn, sn]; exact left, ?_, ?_, ?_,
    ((frame.mono (fun _ => id) fun _ => False.elim).trans (shown.mono (by simp) fun _ => id)).trans (.settle _ _ _ _)⟩
  · show seq % 65536 = _
    rw [seqIs]
  · show v.dg.plane = _
    rw [same]
  · show (v.snapRegs (triggerOf (a, src, false))).get TP_STEP_STEP = _
    rw [State.snapRegs_step, trigger, same]
    rfl
  · intro r other
    show (v.snapRegs (triggerOf (a, src, false))).word r = _
    rw [State.snapRegs_word _ _ other, same]
    rfl
  · unfold State.bit
    rw [get_settle _ _ _ (.inl (by decide))]
    exact full
  · exact (get_settle _ _ _ (.inl (by decide))).trans pointed
  · refine (get_settle _ _ _ (.inl (by decide))).trans (numbered.trans ?_)
    rw [seqIs]

/-- R341: no bank is free while every bank is FULL. -/
theorem State.snapBank_full {s : State} (stop : s.on SN_CTL_MODE) (all : s.get SN_STAT_FULL = 15) : s.snapBank = none := by
  unfold State.snapBank State.bit
  rw [if_pos stop, all]
  rfl

theorem snapshotRefused_runs {s : State} {r : Time × Nat × Bool} (one : s.sn.reqs = [r]) (due : reached s.time r.1)
    (stop : s.on SN_CTL_MODE) (all : s.get SN_STAT_FULL = 15) : RunsTo (exec .snapshotLatch s) fun t =>
      t.sn.banks = s.sn.banks ∧ t.sn.reqs = [] ∧ t.get SN_FLAGS_REFUSED = 1 ∧
      t.get SN_CNT_REFUSED = min (s.get SN_CNT_REFUSED + 1) 65535 ∧
      Frame s t [.sn] (· ∈ [SN_STAT_ARMED, SN_FLAGS_REFUSED, SN_CNT_REFUSED]) := by
  have none_ : s.sn.reqs.filter (fun x => x.1 != r.1) = [] := by
    rw [one]
    simp
  change RunsTo (done s s.snapNow) _
  unfold State.snapNow
  rw [State.snapDue_single one due]
  change RunsTo (done s (s.snapLatch r)) _
  unfold State.snapLatch
  extract_lets _ u v seq snap _
  have dropped : Frame s u [.sn] (fun _ => False) := .setSn _ _ _ _ (by simp)
  have disarmed : Frame u v [] (· = SN_STAT_ARMED) :=
    .ite _ _ _ _ _ _ (.set _ _ _ _ _ (Fld.inWord_of _ rfl) rfl) (.refl _ _ _)
  have frame := (dropped.mono (fun _ => id) fun _ => False.elim).trans (disarmed.mono (v := (· = SN_STAT_ARMED)) (by simp) fun _ => id)
  have kept : ∀ x : Fld, x.reg.notPba → SN_STAT_ARMED.apart x → v.get x = s.get x := fun x notPba apart =>
    frame.reg x notPba fun y hy => hy ▸ apart
  have sn : v.sn = u.sn := disarmed.part .sn (by simp)
  have full : v.snapBank = none := State.snapBank_full
    (by rw [State.on_congr (kept SN_CTL_MODE (.inl (by decide)) (.inl (by decide)))]; exact stop)
    (by rw [kept SN_STAT_FULL (.inl (by decide)) (Fld.apart_of _ _ rfl rfl)]; exact all)
  rw [full]
  change RunsTo (done s (v.flag SN_FLAGS_REFUSED SN_CNT_REFUSED)) _
  have flag : Frame v (v.flag SN_FLAGS_REFUSED SN_CNT_REFUSED) [] (· ∈ [SN_STAT_ARMED, SN_FLAGS_REFUSED, SN_CNT_REFUSED]) :=
    .flag _ _ _ _ _ (Fld.inWord_of _ rfl) (Fld.inWord_of _ rfl) (by simp) (by simp)
  have flagged : (v.flag SN_FLAGS_REFUSED SN_CNT_REFUSED).sn = u.sn := (flag.part .sn (by simp)).trans sn
  refine runsTo_done _ _ _ ⟨by rw [settle_sn, flagged], by rw [settle_sn, flagged]; exact none_,
    (get_settle _ _ _ (.inl (by decide))).trans (State.get_flag _ _ _ (Fld.inWord_of _ rfl) (Fld.inWord_of _ rfl) (.inl (by decide)) rfl),
    (get_settle _ _ _ (.inl (by decide))).trans ((State.get_flag_count _ _ _ (Fld.inWord_of _ rfl) (Fld.inWord_of _ rfl) (.inl
        (by decide))).trans ?_),
    ((frame.mono (fun _ => id) fun y hy => by simp [hy]).trans (flag.mono (by simp) fun _ => id)).trans (.settle _ _ _ _)⟩
  rw [kept SN_CNT_REFUSED (.inl (by decide)) (.inl (by decide))]
  rfl

/-- R341: the banks of SN_REL are FULL no longer. -/
theorem State.freeBanks (s : State) (bs : List Nat) :
    (∀ b < 4, (s.forEach bs fun s b => s.setBit SN_STAT_FULL b false).bit SN_STAT_FULL b = (s.bit SN_STAT_FULL b && !decide (b ∈ bs))) ∧
    Frame s (s.forEach bs fun s b => s.setBit SN_STAT_FULL b false) [] (· ∈ [SN_STAT_FULL]) := by
  unfold State.forEach
  induction bs generalizing s with
  | nil => exact ⟨by simp, .refl _ _ _⟩
  | cons c bs ih =>
    obtain ⟨freed, frame⟩ := ih (s.setBit SN_STAT_FULL c false)
    refine ⟨fun b hb => ?_, .trans (.setBit _ _ _ _ _ _ (Fld.inWord_of _ rfl) (by simp)) frame⟩
    rw [List.foldl_cons, freed b hb, State.bit_setBit _ _ _ _ _ (Fld.inWord_of _ rfl) hb]
    by_cases same : c = b
    · simp [same]
    · simp [same, Ne.symm same]

theorem bankRelease_runs {s : State} (v : Word) (ready : s.ready) : RunsTo (exec (.bankRelease v) s) fun t =>
      (∀ b < 4, t.bit SN_STAT_FULL b = (s.bit SN_STAT_FULL b && !v.getLsbD b)) ∧ Frame s t [] (· ∈ [SN_STAT_FULL]) := by
  obtain ⟨freed, frame⟩ := s.freeBanks (bitsOf (fieldOf v 3 0) 4)
  change RunsTo (hostDone s (s.snapRelease v)) _
  unfold State.snapRelease
  refine runsTo_hostDone _ _ _ ready ⟨fun b hb => ?_, frame.trans (.settle _ _ _ _)⟩
  have named : decide (b ∈ bitsOf (fieldOf v 3 0) 4) = v.getLsbD b := by
    rw [Bool.eq_iff_iff, decide_eq_true_iff, mem_bitsOf, fieldOf, Nat.testBit_mod_two_pow]
    simp [hb, BitVec.getLsbD]
  unfold State.bit at freed ⊢
  rw [get_settle _ _ _ (.inl (by decide)), freed b hb, named]

theorem snapshotItemRead_runs {s : State} {b : Snap} (ready : s.ready) (held : vget s.sn.banks (s.get SN_RADDR_BANK) none = some b) :
    RunsTo (exec .snapshotItemRead s) fun t =>
      Sends s t (.readData ((b.item (s.get SN_RADDR_ITEM)).setWidth 64)) ∧
      t.get SN_RADDR_ITEM = (s.get SN_RADDR_ITEM + 1) % 65536 ∧ Frame s t [] (· ∈ [SN_RADDR_ITEM]) := by
  have data : s.snapData = b.item (s.get SN_RADDR_ITEM) := by
    unfold State.snapData
    rw [held]
  change RunsTo (hostDone s ((s.emit (.readData (s.snapData.setWidth 64))).incr SN_RADDR_ITEM)) _
  rw [data]
  have next : ((s.emit (.readData ((b.item (s.get SN_RADDR_ITEM)).setWidth 64))).incr SN_RADDR_ITEM).get SN_RADDR_ITEM =
      (s.get SN_RADDR_ITEM + 1) % 65536 := State.get_set _ SN_RADDR_ITEM _ (Fld.inWord_of _ rfl)
  have frame : Frame s ((s.emit (.readData ((b.item (s.get SN_RADDR_ITEM)).setWidth 64))).incr SN_RADDR_ITEM) [] (· ∈ [SN_RADDR_ITEM]) :=
    (Frame.emit _ _ _ _).trans (.set _ _ _ _ _ (Fld.inWord_of _ rfl) (by simp))
  exact runsTo_hostDone _ _ _ ready ⟨Sends.settle rfl _, (get_settle _ _ _ (.inl (by decide))).trans next, frame.trans (.settle _ _ _ _)⟩

/-- Settles O38: a request waits for its TCLK or latches late; a latch fills the bank NEXT, or is refused. -/
theorem snapshots : Obligations.Snapshots := by
  unfold Obligations.Snapshots
  exact ⟨fun _ => snapshotHost_runs, fun _ => snapshotSched_runs, fun _ => snapshotDomsched_runs,
    fun _ _ member below on free => ⟨domainSnap_waits_runs member below on free, domainSnap_latches_late_runs member below on free⟩,
    fun _ _ => domainSnap_disabled_runs, fun _ _ _ => snapshotLatch_runs, fun _ _ => snapshotRefused_runs, fun _ v => bankRelease_runs v,
    fun _ _ => snapshotItemRead_runs⟩

end Sys2Proof.Machine
end

section
/-! Digests, reports and references (R344 to R347) -/

namespace Sys2Proof.Machine

/-! ### The comparison with the reference of the class (R347) -/

/-- What a comparison shows. -/
def compareField (y : Fld) : Prop :=
  y ∈ [DG_STAT_REFV, DG_STAT_DIGEST_MISMATCH, DG_FLAGS_DIGEST_MISMATCH, DG_CNT_MISMATCH]

theorem compareField.shown {y : Fld} (hy : compareField y) : y.reg = DG_STAT ∨ y = DG_FLAGS_DIGEST_MISMATCH ∨ y = DG_CNT_MISMATCH := by
  simp only [compareField, List.mem_cons, List.not_mem_nil, or_false] at hy
  obtain rfl | rfl | rfl | rfl := hy
  · exact .inl rfl
  · exact .inl rfl
  · exact .inr (.inl rfl)
  · exact .inr (.inr rfl)

theorem compareField.range {y : Fld} (hy : compareField y) : 0x2801C ≤ y.reg.addr ∧ y.reg.addr < 0x28200 := by
  simp only [compareField, List.mem_cons, List.not_mem_nil, or_false] at hy
  obtain rfl | rfl | rfl | rfl := hy <;> decide

theorem compareField.apart_cref {y z : Fld} (hy : compareField y) (hz : 0x28200 ≤ z.reg.addr) : y.apart z :=
  .inl (Nat.ne_of_lt (hy.range.2.trans_le hz))

theorem compareField.apart_low {y z : Fld} (hy : compareField y) (hz : z.reg.addr < 0x2801C) : y.apart z :=
  .inl (Nat.ne_of_gt (hz.trans_le hy.range.1))

theorem compareField.apart_stale {y : Fld} (hy : compareField y) : y.apart DG_STAT_STALE := by
  simp only [compareField, List.mem_cons, List.not_mem_nil, or_false] at hy
  obtain rfl | rfl | rfl | rfl := hy
  · exact Fld.apart_of _ _ rfl rfl
  · exact Fld.apart_of _ _ rfl rfl
  · exact .inl (by decide)
  · exact .inl (by decide)

theorem State.creference_congr {s t : State} {c : Nat} (lo : t.get (DG_CREF_LO_R_LO c) = s.get (DG_CREF_LO_R_LO c))
    (hi : t.get (DG_CREF_HI_R_HI c) = s.get (DG_CREF_HI_R_HI c)) : t.creference c = s.creference c := by
  unfold State.creference
  rw [lo, hi]

theorem State.crefValid_congr {s t : State} {c : Nat} (h : t.get (DG_CVALID_VALID (c / 32)) = s.get (DG_CVALID_VALID (c / 32))) :
    t.crefValid c = s.crefValid c := by
  unfold State.crefValid State.bit
  rw [h]

/-- A run of steps that leaves the registers of the references leaves the references. -/
theorem Frame.references {s t : State} {ps : List Part} {w : Fld → Prop} (h : Frame s t ps w) {c : Nat} (small : c < 256)
    (apart : ∀ y z : Fld, w y → 0x28200 ≤ z.reg.addr → z.reg.addr < 0x28C00 → y.apart z) :
    t.creference c = s.creference c ∧ t.crefValid c = s.crefValid c := by
  have keeps : ∀ z : Fld, 0x28200 ≤ z.reg.addr → z.reg.addr < 0x28C00 → t.get z = s.get z :=
    fun z low high => h.reg z (.inl (by omega)) fun y hy => apart y z hy low high
  exact ⟨State.creference_congr (keeps (DG_CREF_LO_R_LO c) (by simp only [DG_CREF_LO_R_LO, DG_CREF_LO]; omega)
      (by simp only [DG_CREF_LO_R_LO, DG_CREF_LO]; omega))
    (keeps (DG_CREF_HI_R_HI c) (by simp only [DG_CREF_HI_R_HI, DG_CREF_HI]; omega) (by simp only [DG_CREF_HI_R_HI, DG_CREF_HI]; omega)),
    State.crefValid_congr (keeps (DG_CVALID_VALID (c / 32)) (by simp only [DG_CVALID_VALID, DG_CVALID]; omega)
      (by simp only [DG_CVALID_VALID, DG_CVALID]; omega))⟩

/-- R347: the comparison shows whether the digest differs from a valid reference, and flags a difference that is new. -/
theorem State.dgCompare_shows (s : State) :
    s.dgCompare.on DG_STAT_DIGEST_MISMATCH = (s.on DG_CTL_CMPEN && s.crefValid (s.get DG_CLASS_CLASS) &&
      s.digest != s.creference (s.get DG_CLASS_CLASS)) ∧
    (s.on DG_STAT_DIGEST_MISMATCH = false → s.dgCompare.on DG_STAT_DIGEST_MISMATCH → s.dgCompare.get DG_FLAGS_DIGEST_MISMATCH = 1) ∧
    Frame s s.dgCompare [] compareField := by
  unfold State.dgCompare
  extract_lets c v mis was u
  have sets : Frame s u [] compareField := (Frame.set _ _ _ _ _ (Fld.inWord_of _ rfl) (by simp [compareField])).trans
    (.set _ _ _ _ _ (Fld.inWord_of _ rfl) (by simp [compareField]))
  have shown : u.on DG_STAT_DIGEST_MISMATCH = mis := by
    rw [State.on_of_get (State.get_set _ _ _ (Fld.inWord_of _ rfl))]
    cases mis <;> rfl
  have flagged : Frame u (u.flag DG_FLAGS_DIGEST_MISMATCH DG_CNT_MISMATCH) [] compareField :=
    .flag _ _ _ _ _ (Fld.inWord_of _ rfl) (Fld.inWord_of _ rfl) (by simp [compareField]) (by simp [compareField])
  have still : (u.flag DG_FLAGS_DIGEST_MISMATCH DG_CNT_MISMATCH).on DG_STAT_DIGEST_MISMATCH = mis := by
    rw [State.on_congr (State.get_flag_apart _ _ _ _ (Fld.inWord_of _ rfl) (Fld.inWord_of _ rfl) (.inl (by decide)) (.inl (by decide)))]
    exact shown
  clear_value u
  split
  · exact ⟨still, fun _ _ => State.get_flag _ _ _ (Fld.inWord_of _ rfl) (Fld.inWord_of _ rfl) (.inl (by decide)) rfl, sets.trans flagged⟩
  next unflagged =>
    refine ⟨shown, fun before now => absurd ?_ unflagged, sets⟩
    rw [show was = false from before, ← shown, now]
    rfl

/-! ### Digests of the planes (R345, R346) -/

theorem scalc_runs {s : State} (ready : s.ready) (idle : s.cm = none) : RunsTo (exec .scalc s) fun t =>
      t.dg = { s.dg with staged := some s.stagedPlane } ∧ Frame s t [.dg] (fun _ => False) := by
  have eq : s.scalc = { s with dg := { s.dg with staged := some s.stagedPlane } } := if_neg (by rw [idle]; decide)
  change RunsTo (hostDone s s.scalc) _
  rw [eq]
  exact runsTo_hostDone _ _ _ ready ⟨settle_dg _ _, (Frame.setDg _ _ _ _ (by simp)).trans (.settle _ _ _ _)⟩

theorem digestRecompute_runs {s : State} (stale : s.on DG_STAT_STALE) : RunsTo (exec .digestRecompute s) fun t =>
      t.get DG_STAT_STALE = 0 ∧ (s.live.digest ≠ s.digest → t.dg.owed) ∧ t.dg.plane = s.live ∧
      (t.on DG_STAT_DIGEST_MISMATCH = (s.on DG_CTL_CMPEN && s.crefValid (s.get DG_CLASS_CLASS) &&
        t.digest != s.creference (s.get DG_CLASS_CLASS))) ∧
      (s.on DG_STAT_DIGEST_MISMATCH = false → t.on DG_STAT_DIGEST_MISMATCH → t.get DG_FLAGS_DIGEST_MISMATCH = 1) ∧
      Frame s t [.dg] (fun y => y.reg = DG_STAT ∨ y = DG_FLAGS_DIGEST_MISMATCH ∨ y = DG_CNT_MISMATCH) := by
  change RunsTo (doneIf (s.on DG_STAT_STALE) s ((s.set DG_STAT_STALE 0).setDigest s.live)) _
  rw [doneIf_pos stale]
  have class_ : s.get DG_CLASS_CLASS < 256 := State.get_lt s DG_CLASS_CLASS
  have fresh : (s.set DG_STAT_STALE 0).get DG_STAT_STALE = 0 := State.get_set _ _ _ (Fld.inWord_of _ rfl)
  have first : Frame s (s.set DG_STAT_STALE 0) [] (· = DG_STAT_STALE) := .set _ _ _ _ _ (Fld.inWord_of _ rfl) rfl
  have dg : (s.set DG_STAT_STALE 0).dg = s.dg := rfl
  generalize s.set DG_STAT_STALE 0 = u at fresh first dg ⊢
  change RunsTo (done s (State.dgCompare { u with dg := { u.dg with plane := s.live, owed := u.dg.owed || s.live.digest != u.digest } })) _
  have second : Frame u { u with dg := { u.dg with plane := s.live, owed := u.dg.owed || s.live.digest != u.digest } } [.dg] (fun _ => False) :=
    .setDg _ _ _ _ (by simp)
  have owed : s.live.digest ≠ s.digest → (u.dg.owed || s.live.digest != u.digest) = true := fun ne => by
    rw [show u.digest = s.digest from congrArg (·.plane.digest) dg, bne_iff_ne.2 ne, Bool.or_true]
  have frame : Frame s { u with dg := { u.dg with plane := s.live, owed := u.dg.owed || s.live.digest != u.digest } } [.dg] (· = DG_STAT_STALE) :=
    (first.mono (by simp) fun _ => id).trans (second.mono (fun _ => id) fun _ => False.elim)
  have kept : ∀ x : Fld, x.reg.notPba → DG_STAT_STALE.apart x → _ := fun x notPba apart => frame.reg x notPba fun y hy => hy ▸ apart
  obtain ⟨reference, valid⟩ := frame.references class_ fun y z hy low _ => hy ▸ .inl (Nat.ne_of_lt (Nat.lt_of_lt_of_le (by decide) low))
  have plane : State.digest { u with dg := { u.dg with plane := s.live, owed := u.dg.owed || s.live.digest != u.digest } } = s.live.digest := rfl
  have stale0 : State.get { u with dg := { u.dg with plane := s.live, owed := u.dg.owed || s.live.digest != u.digest } } DG_STAT_STALE = 0 := fresh
  have newDg : State.dg { u with dg := { u.dg with plane := s.live, owed := u.dg.owed || s.live.digest != u.digest } } =
    { u.dg with plane := s.live, owed := u.dg.owed || s.live.digest != u.digest } := rfl
  generalize ({ u with dg := { u.dg with plane := s.live, owed := u.dg.owed || s.live.digest != u.digest } } : State) = v
    at frame reference valid kept plane stale0 newDg ⊢
  obtain ⟨shown, flagged, compared⟩ := v.dgCompare_shows
  have dgKept : v.dgCompare.dg = v.dg := compared.part .dg (by simp)
  refine runsTo_done _ _ _ ⟨?_, ?_, ?_, ?_, ?_, ?_⟩
  · rw [get_settle _ _ _ (.inl (by decide)), compared.reg _ (.inl (by decide)) fun y hy => hy.apart_stale]
    exact stale0
  · rw [settle_dg, dgKept, newDg]
    exact owed
  · rw [settle_dg, dgKept, newDg]
  · rw [on_settle _ _ _ (.inl (by decide)), shown, State.on_congr (kept DG_CTL_CMPEN (.inl (by decide)) (.inl (by decide))),
      kept DG_CLASS_CLASS (.inl (by decide)) (.inl (by decide)), reference, valid]
    unfold State.digest
    rw [settle_dg, dgKept]
  · rw [on_settle _ _ _ (.inl (by decide)), get_settle _ _ _ (.inl (by decide)),
      ← State.on_congr (kept DG_STAT_DIGEST_MISMATCH (.inl (by decide)) (Fld.apart_of _ _ rfl rfl))]
    exact flagged
  · exact ((frame.mono (by simp) fun y hy => .inl (hy ▸ rfl)).trans (compared.mono (by simp) fun y hy => hy.shown)).trans (.settle _ _ _ _)

/-! ### Reports (R347) -/

/-- A packet that meets an empty queue of its port touches no register. -/
theorem State.sendPacket_empty (s : State) {x : Nat} {p : Packet} (empty : (s.port x).queue = []) (small : p.flits ≤ 384) :
    s.sendPacket x p = s.setPort x { s.port x with queue := [p] } := by
  have none : flitsIn [] + p.flits = p.flits := Nat.zero_add _
  have room : (if p.reserved then decide (p.flits ≤ 512) else decide (p.flits ≤ 512) && decide (p.flits ≤ 384)) = true := by
    split <;> simp [small, small.trans]
  rw [State.sendPacket]
  simp only [empty, List.filter_nil, List.nil_append, none]
  rw [if_pos room]

theorem Frame.setPort (s : State) (ps : List Part) (w : Fld → Prop) (x : Nat) (p : Port) (h : Part.cl ∈ ps) : Frame s (s.setPort x p) ps w :=
  .setCl _ _ _ _ h

theorem digestReport_runs {s : State} (member : s.isMember) (below : s.isRoot = false) (owed : s.dg.owed) (empty : (s.port 0).queue = []) :
    RunsTo (exec .digestReport s) fun t =>
      t.dg.owed = false ∧ t.dg.reportAt = s.time ∧
      (t.port 0).queue = [Packet.make 4 0 s.devNum 1
        (s.get DG_CLASS_CLASS + if s.on DG_STAT_DIGEST_MISMATCH then 256 else 0) [s.digest.setWidth 72]] ∧
      Frame s t [.dg, .cl] (fun _ => False) := by
  change RunsTo (doneIf ((s.isRoot || s.isMember) && (s.dg.owed || decide (usTclk (1000 * s.get DG_CTL_PER) ≤ s.since s.dg.reportAt))) s
    s.dgReport) _
  rw [doneIf_pos (by rw [member, owed]; simp)]
  have eq : s.dgReport = State.sendUp { s with dg := { s.dg with owed := false, reportAt := s.time } } 1
      (s.get DG_CLASS_CLASS + if s.on DG_STAT_DIGEST_MISMATCH then 256 else 0) [s.digest.setWidth 72] := if_neg (by
    rw [show State.isRoot { s with dg := { s.dg with owed := false, reportAt := s.time } } = s.isRoot from rfl, below]
    decide)
  have first : Frame s { s with dg := { s.dg with owed := false, reportAt := s.time } } [.dg] (fun _ => False) := .setDg _ _ _ _ (by simp)
  have dg : State.dg { s with dg := { s.dg with owed := false, reportAt := s.time } } = { s.dg with owed := false, reportAt := s.time } := rfl
  have port : State.port { s with dg := { s.dg with owed := false, reportAt := s.time } } 0 = s.port 0 := rfl
  have number : State.devNum { s with dg := { s.dg with owed := false, reportAt := s.time } } = s.devNum := rfl
  rw [eq]
  generalize ({ s with dg := { s.dg with owed := false, reportAt := s.time } } : State) = u at first dg port number ⊢
  unfold State.sendUp
  rw [number]
  generalize packet : Packet.make 4 0 s.devNum 1 (s.get DG_CLASS_CLASS + if s.on DG_STAT_DIGEST_MISMATCH then 256 else 0)
    [s.digest.setWidth 72] = p
  rw [State.sendPacket_empty u (port ▸ empty) (by rw [← packet, Packet.flits_make]; simp)]
  have second := Frame.setPort u [.cl] (fun _ => False) 0 { u.port 0 with queue := [p] } (by simp)
  have sent := State.port_setPort u 0 { u.port 0 with queue := [p] } (by decide)
  generalize u.setPort 0 _ = v at second sent ⊢
  have same : v.dg = u.dg := second.part .dg (by simp)
  refine runsTo_done _ _ _ ⟨?_, ?_, ?_, ((first.mono (by simp) fun _ => id).trans (second.mono (by simp) fun _ => id)).trans (.settle _ _ _ _)⟩
  · rw [settle_dg, same, dg]
  · rw [settle_dg, same, dg]
  · rw [port_settle, sent]

/-- R347: the first device that reports a mismatch is the lowest one and is flagged. -/
theorem State.dgTally_one {s : State} {dev cls : Nat} {d : BitVec 64} (one : s.dg.reports = [(dev, cls, d, true)]) (small : dev < 1024)
    (before : s.get DG_DOMSTAT_NMIS = 0) :
    s.dgTally.get DG_DOMSTAT_NMIS = 1 ∧ s.dgTally.get DG_DOMSTAT_FIRSTDEV = dev ∧ s.dgTally.get DG_FLAGS_DOM_MISMATCH = 1 ∧
    Frame s s.dgTally [] (· ∈ [DG_DOMSTAT_NMIS, DG_DOMSTAT_FIRSTDEV, DG_FLAGS_DOM_MISMATCH, DG_CNT_DOMMIS]) := by
  have eq : s.dgTally = ((s.set DG_DOMSTAT_NMIS 1).set DG_DOMSTAT_FIRSTDEV dev).flag DG_FLAGS_DOM_MISMATCH DG_CNT_DOMMIS := by
    unfold State.dgTally
    rw [one]
    exact if_pos ⟨before, List.cons_ne_nil _ _⟩
  rw [eq]
  have numbered : (s.set DG_DOMSTAT_NMIS 1).get DG_DOMSTAT_NMIS = 1 := State.get_set _ _ _ (Fld.inWord_of _ rfl)
  have first : Frame s (s.set DG_DOMSTAT_NMIS 1) [] (· ∈ [DG_DOMSTAT_NMIS, DG_DOMSTAT_FIRSTDEV, DG_FLAGS_DOM_MISMATCH, DG_CNT_DOMMIS]) :=
    .set _ _ _ _ _ (Fld.inWord_of _ rfl) (by simp)
  generalize s.set DG_DOMSTAT_NMIS 1 = u at numbered first ⊢
  have lowest : (u.set DG_DOMSTAT_FIRSTDEV dev).get DG_DOMSTAT_FIRSTDEV = dev % 1024 := State.get_set _ _ _ (Fld.inWord_of _ rfl)
  rw [Nat.mod_eq_of_lt small] at lowest
  have kept : (u.set DG_DOMSTAT_FIRSTDEV dev).get DG_DOMSTAT_NMIS = u.get DG_DOMSTAT_NMIS :=
    State.get_set_apart _ _ _ _ (Fld.inWord_of _ rfl) (Fld.apart_of _ _ rfl rfl)
  have second : Frame u (u.set DG_DOMSTAT_FIRSTDEV dev) [] (· ∈ [DG_DOMSTAT_NMIS, DG_DOMSTAT_FIRSTDEV, DG_FLAGS_DOM_MISMATCH, DG_CNT_DOMMIS]) :=
    .set _ _ _ _ _ (Fld.inWord_of _ rfl) (by simp)
  generalize u.set DG_DOMSTAT_FIRSTDEV dev = v at lowest kept second ⊢
  have third := Frame.flag v [] (· ∈ [DG_DOMSTAT_NMIS, DG_DOMSTAT_FIRSTDEV, DG_FLAGS_DOM_MISMATCH, DG_CNT_DOMMIS]) DG_FLAGS_DOM_MISMATCH
    DG_CNT_DOMMIS (Fld.inWord_of _ rfl) (Fld.inWord_of _ rfl) (by simp) (by simp)
  have others : ∀ x : Fld, x.reg.addr = DG_DOMSTAT.addr → (v.flag DG_FLAGS_DOM_MISMATCH DG_CNT_DOMMIS).get x = v.get x := fun x hx =>
    State.get_flag_apart _ _ _ _ (Fld.inWord_of _ rfl) (Fld.inWord_of _ rfl) (.inl (by rw [hx]; decide)) (.inl (by rw [hx]; decide))
  exact ⟨(others _ rfl).trans (kept.trans numbered), (others _ rfl).trans lowest,
    State.get_flag _ _ _ (Fld.inWord_of _ rfl) (Fld.inWord_of _ rfl) (.inl (by decide)) rfl, (first.trans second).trans third⟩

theorem digestReportReceive_runs {s : State} (dev : BitVec 10) (cls : BitVec 8) (d : BitVec 64) (root : s.isRoot) (none : s.dg.reports = [])
    (before : s.get DG_DOMSTAT_NMIS = 0) : RunsTo (exec (.digestReportReceive dev cls d true) s) fun t =>
      t.dg.reports = [(dev.toNat, cls.toNat, d, true)] ∧ t.get DG_DOMSTAT_NMIS = 1 ∧
      t.get DG_DOMSTAT_FIRSTDEV = dev.toNat ∧ t.get DG_FLAGS_DOM_MISMATCH = 1 ∧
      Frame s t [.dg] (· ∈ [DG_DOMSTAT_NMIS, DG_DOMSTAT_FIRSTDEV, DG_FLAGS_DOM_MISMATCH, DG_CNT_DOMMIS]) := by
  change RunsTo (doneIf s.isRoot s (s.dgReported dev.toNat cls.toNat d true)) _
  rw [doneIf_pos root]
  have eq : s.dgReported dev.toNat cls.toNat d true =
      State.dgTally { s with dg := { s.dg with reports := [(dev.toNat, cls.toNat, d, true)] } } := by
    unfold State.dgReported
    rw [none]
    rfl
  rw [eq]
  have stored : Frame s { s with dg := { s.dg with reports := [(dev.toNat, cls.toNat, d, true)] } } [.dg] (fun _ => False) :=
    .setDg _ _ _ _ (by simp)
  have one : State.dg { s with dg := { s.dg with reports := [(dev.toNat, cls.toNat, d, true)] } } =
    { s.dg with reports := [(dev.toNat, cls.toNat, d, true)] } := rfl
  have still : State.get { s with dg := { s.dg with reports := [(dev.toNat, cls.toNat, d, true)] } } DG_DOMSTAT_NMIS = 0 := before
  generalize ({ s with dg := { s.dg with reports := [(dev.toNat, cls.toNat, d, true)] } } : State) = u at stored one still ⊢
  obtain ⟨number, lowest, flagged, frame⟩ := State.dgTally_one (s := u) (congrArg (·.reports) one) dev.isLt still
  have same : u.dgTally.dg = u.dg := frame.part .dg (by simp)
  exact runsTo_done _ _ _ ⟨by rw [settle_dg, same, one], (get_settle _ _ _ (.inl (by decide))).trans number,
    (get_settle _ _ _ (.inl (by decide))).trans lowest, (get_settle _ _ _ (.inl (by decide))).trans flagged,
    ((stored.mono (fun _ => id) fun _ => False.elim).trans (frame.mono (by simp) fun _ => id)).trans (.settle _ _ _ _)⟩

/-! ### References (R347) -/

/-- The reference of a class and its valid bit after they are stored. -/
theorem State.putCref_stored (s : State) {c : Nat} (valid : Bool) (d : BitVec 64) :
    (s.putCref c valid d).creference c = d ∧ (s.putCref c valid d).crefValid c = valid ∧
    Frame s (s.putCref c valid d) [] (fun y => y.reg = DG_CREF_LO c ∨ y.reg = DG_CREF_HI c ∨ y = DG_CVALID_VALID (c / 32)) := by
  have lowWidth : d.toNat % 2 ^ 32 % 2 ^ 32 = d.toNat % 2 ^ 32 := Nat.mod_mod _ _
  have highWidth : d.toNat / 2 ^ 32 % 2 ^ 32 = d.toNat / 2 ^ 32 := Nat.mod_eq_of_lt (by omega)
  unfold State.putCref
  have low : (s.set (DG_CREF_LO_R_LO c) (d.toNat % 2 ^ 32)).get (DG_CREF_LO_R_LO c) = d.toNat % 2 ^ 32 :=
    (State.get_set _ _ _ (Fld.inWord_of _ rfl)).trans lowWidth
  have first := Frame.set s [] (fun y => y.reg = DG_CREF_LO c ∨ y.reg = DG_CREF_HI c ∨ y = DG_CVALID_VALID (c / 32)) (DG_CREF_LO_R_LO c)
    (d.toNat % 2 ^ 32) (Fld.inWord_of _ rfl) (.inl rfl)
  generalize s.set (DG_CREF_LO_R_LO c) _ = u at low first ⊢
  have high : (u.set (DG_CREF_HI_R_HI c) (d.toNat / 2 ^ 32)).get (DG_CREF_HI_R_HI c) = d.toNat / 2 ^ 32 :=
    (State.get_set _ _ _ (Fld.inWord_of _ rfl)).trans highWidth
  have low' : (u.set (DG_CREF_HI_R_HI c) (d.toNat / 2 ^ 32)).get (DG_CREF_LO_R_LO c) = d.toNat % 2 ^ 32 :=
    (State.get_set_apart _ _ _ _ (Fld.inWord_of _ rfl) (.inl (by
      simp only [DG_CREF_HI_R_HI, DG_CREF_HI, DG_CREF_LO_R_LO, DG_CREF_LO]
      omega))).trans low
  have second := Frame.set u [] (fun y => y.reg = DG_CREF_LO c ∨ y.reg = DG_CREF_HI c ∨ y = DG_CVALID_VALID (c / 32)) (DG_CREF_HI_R_HI c)
    (d.toNat / 2 ^ 32) (Fld.inWord_of _ rfl) (.inr (.inl rfl))
  generalize u.set (DG_CREF_HI_R_HI c) _ = v at high low' second ⊢
  have third := Frame.setBit v [] (fun y => y.reg = DG_CREF_LO c ∨ y.reg = DG_CREF_HI c ∨ y = DG_CVALID_VALID (c / 32)) (DG_CVALID_VALID (c / 32))
    (c % 32) valid (Fld.inWord_of _ rfl) (.inr (.inr rfl))
  refine ⟨?_, ?_, (first.trans second).trans third⟩
  · unfold State.creference State.setBit
    rw [State.get_set_apart _ _ _ _ (Fld.inWord_of _ rfl) (.inl (by simp only [DG_CVALID_VALID, DG_CVALID, DG_CREF_HI_R_HI, DG_CREF_HI]; omega)),
      State.get_set_apart _ _ _ _ (Fld.inWord_of _ rfl) (.inl (by simp only [DG_CVALID_VALID, DG_CVALID, DG_CREF_LO_R_LO, DG_CREF_LO]; omega)),
      high, low', Nat.div_add_mod', BitVec.ofNat_toNat, BitVec.setWidth_eq]
  · exact (State.bit_setBit v (DG_CVALID_VALID (c / 32)) _ _ _ (Fld.inWord_of _ rfl) (Nat.mod_lt c (show 0 < 32 by decide))).trans (if_pos rfl)

theorem compareField.references {s t : State} (h : Frame s t [] compareField) {c : Nat} (small : c < 256) :
    t.creference c = s.creference c ∧ t.crefValid c = s.crefValid c :=
  h.references small fun _ _ hy low _ => hy.apart_cref low

/-- References and their valid bits lie above the interrupts' registers. -/
theorem State.creference_settle (s t : State) {c : Nat} (small : c < 256) :
    (settle s t).creference c = t.creference c ∧ (settle s t).crefValid c = t.crefValid c :=
  (Frame.settle s t [] (fun _ => False)).references small fun _ _ => False.elim

/-- R347: the class of the only report takes its digest. -/
theorem State.learn_one {s : State} {dev cls : Nat} {d : BitVec 64} {mis : Bool} (root : s.isRoot) (one : s.dg.reports = [(dev, cls, d, mis)]) :
    s.learn = ((s.putCref cls true d).sendCref cls).dgCompare := by
  have once : (s.dg.reports.map fun r => r.2.1).eraseDups = [cls] := by
    rw [one]
    rfl
  unfold State.learn
  rw [if_pos root, once, List.foldl_cons, List.foldl_nil, one, List.find?_cons_of_pos (by simp)]

theorem learn_runs {s : State} {dev cls : Nat} {d : BitVec 64} {mis : Bool} (ready : s.ready) (root : s.isRoot) (small : cls < 256)
    (one : s.dg.reports = [(dev, cls, d, mis)]) : RunsTo (exec .learn s) fun t =>
      t.creference cls = d ∧ t.crefValid cls ∧ t.dg = s.dg ∧
      Frame s t [.cl] (fun y => y.reg = DG_CREF_LO cls ∨ y.reg = DG_CREF_HI cls ∨ y.reg = DG_CVALID (cls / 32) ∨
        y.reg = DG_STAT ∨ y = DG_FLAGS_DIGEST_MISMATCH ∨ y = DG_CNT_MISMATCH ∨ y = CL_FLAGS_FWDDROP ∨
        ∃ x, y = CL_P_DROP_DROP x) := by
  change RunsTo (hostDone s s.learn) _
  rw [State.learn_one root one]
  obtain ⟨stored, valid, first⟩ := s.putCref_stored (c := cls) true d
  generalize s.putCref cls true d = u at stored valid first ⊢
  have second : Frame u (u.sendCref cls) [.cl] (fun y => y = CL_FLAGS_FWDDROP ∨ ∃ x, y = CL_P_DROP_DROP x) :=
    .ite _ _ _ _ _ _ (.broadcast _ _ _ _ _ _ (by simp) (fun x => .inr ⟨x, rfl⟩) (.inl rfl)) (.refl _ _ _)
  obtain ⟨sent, sentValid⟩ := second.references small fun y z hy low high => by
    obtain rfl | ⟨x, rfl⟩ := hy
    · exact .inl (Nat.ne_of_gt (high.trans_le (by decide)))
    · exact .inl (by simp only [CL_P_DROP_DROP, CL_P_DROP]; omega)
  generalize u.sendCref cls = v at second sent sentValid ⊢
  obtain ⟨-, -, third⟩ := v.dgCompare_shows
  obtain ⟨compared, comparedValid⟩ := compareField.references third small
  refine runsTo_hostDone _ _ _ ready ⟨?_, ?_, ?_, .trans ?_ (.settle _ _ _ _)⟩
  · rw [(State.creference_settle _ _ small).1, compared, sent, stored]
  · rw [(State.creference_settle _ _ small).2, comparedValid, sentValid, valid]
  · rw [settle_dg, third.part .dg (by simp), second.part .dg (by simp), first.part .dg (by simp)]
  · refine ((first.mono (by simp) ?_).trans (second.mono (fun _ => id) ?_)).trans (third.mono (by simp) ?_)
    · rintro y (h | h | rfl)
      · exact .inl h
      · exact .inr (.inl h)
      · exact .inr (.inr (.inl rfl))
    · exact fun y h => .inr (.inr (.inr (.inr (.inr (.inr h)))))
    · intro y hy
      obtain h | h | h := hy.shown
      · exact .inr (.inr (.inr (.inl h)))
      · exact .inr (.inr (.inr (.inr (.inl h))))
      · exact .inr (.inr (.inr (.inr (.inr (.inl h)))))

theorem crefReceive_stores_runs {s : State} (cls : BitVec 8) (valid : Bool) (d : BitVec 64) (member : s.isMember) (below : s.isRoot = false) :
    RunsTo (exec (.crefReceive cls valid d) s) fun t =>
      t.creference cls.toNat = d ∧ t.crefValid cls.toNat = valid ∧
      Frame s t [] (fun y => y.reg = DG_CREF_LO cls.toNat ∨ y.reg = DG_CREF_HI cls.toNat ∨
        y = DG_CVALID_VALID (cls.toNat / 32) ∨ y.reg = DG_STAT ∨ y = DG_FLAGS_DIGEST_MISMATCH ∨ y = DG_CNT_MISMATCH) := by
  have eq : s.crefReceived cls.toNat valid d = (s.putCref cls.toNat valid d).dgCompare := if_pos (by rw [member, below]; rfl)
  have small : cls.toNat < 256 := cls.isLt
  change RunsTo (done s (s.crefReceived cls.toNat valid d)) _
  rw [eq]
  obtain ⟨stored, shown, first⟩ := s.putCref_stored (c := cls.toNat) valid d
  generalize s.putCref cls.toNat valid d = u at stored shown first ⊢
  obtain ⟨-, -, second⟩ := u.dgCompare_shows
  obtain ⟨compared, comparedValid⟩ := compareField.references second small
  refine runsTo_done _ _ _ ⟨?_, ?_, .trans ?_ (.settle _ _ _ _)⟩
  · rw [(State.creference_settle _ _ small).1, compared, stored]
  · rw [(State.creference_settle _ _ small).2, comparedValid, shown]
  · refine (first.mono (fun _ => id) ?_).trans (second.mono (fun _ => id) fun y hy => .inr (.inr (.inr hy.shown)))
    rintro y (h | h | h)
    · exact .inl h
    · exact .inr (.inl h)
    · exact .inr (.inr (.inl h))

theorem crefReceive_ignored_runs {s : State} (cls : BitVec 8) (valid : Bool) (d : BitVec 64) (outside : s.isMember = false) :
    RunsTo (exec (.crefReceive cls valid d) s) fun t => Frame s t [] (fun _ => False) := by
  have eq : s.crefReceived cls.toNat valid d = s := if_neg (by rw [outside]; exact Bool.false_ne_true)
  change RunsTo (done s (s.crefReceived cls.toNat valid d)) _
  rw [eq]
  exact runsTo_done _ _ _ (.settle _ _ _ _)

/-- Settles O39: digests follow their planes, differences are shown and reported, and references are stored where they arrive. -/
theorem digests : Obligations.Digests := by
  unfold Obligations.Digests
  exact ⟨fun _ => scalc_runs, fun _ => digestRecompute_runs, fun _ => digestReport_runs, fun _ dev cls d => digestReportReceive_runs dev cls d,
    fun _ _ _ _ _ => learn_runs, fun _ cls valid d => crefReceive_stores_runs cls valid d, fun _ cls valid d => crefReceive_ignored_runs cls valid d⟩

end Sys2Proof.Machine
end

section
/-! Heartbeats, takeover and agreement of a twin pair (R377 to R381) -/

namespace Sys2Proof.Machine

/-! ### Roles and failures of a twin pair (R380, R381, R383) -/

theorem Frame.sendLink (s : State) (ps : List Part) (w : Fld → Prop) (x : Nat) (m : LinkMsg) : Frame s (s.sendLink x m) ps w := .emit _ _ _ _

theorem State.port_withTw (s : State) (x : TwState) (n : Nat) : ({ s with tw := x } : State).port n = s.port n := rfl

/-- R381: every group takes the same hold, its terminations following it. -/
theorem State.holdAll_holds (s : State) (on : Bool) :
    (∀ g < 32, ((s.holdAll on).group g).shadowHold = on) ∧ Frame s (s.holdAll on) [.groups] (fun _ => False) := by
  have all := foldl_establishes (fun (s : State) g => s.setGroup g { s.group g with shadowHold := on, termOnly := false })
    (fun u => Frame s u [.groups] (fun _ => False)) (fun g u => (u.group g).shadowHold = on) (List.range 32)
    (fun u frame g _ => frame.trans (.setGroup _ _ _ _ _ (by simp)))
    (fun u _ g hg => by rw [State.group_setGroup _ _ _ (List.mem_range.1 hg)])
    (fun u _ g hg k _ h => by
      by_cases same : g = k
      · rw [same, State.group_setGroup _ _ _ (same ▸ List.mem_range.1 hg)]
      · rwa [State.group_setGroup_ne _ _ _ _ same]) s (.refl _ _ _)
  exact ⟨fun g hg => all.2 g (List.mem_range.2 hg), all.1⟩

/-- What a member that stops may change. -/
def stoppedField (y : Fld) : Prop := y = TW_STAT_ROLE ∨ ∃ g, y = LS_PARKSTAT_PARKED g

theorem stoppedField.apart_twin {y z : Fld} (hy : stoppedField y) (ne : z.reg.addr ≠ TW_STAT.addr) (low : z.reg.addr < 0x100000) : y.apart z := by
  obtain rfl | ⟨g, rfl⟩ := hy
  · exact .inl (Ne.symm ne)
  · exact .inl (by simp only [LS_PARKSTAT_PARKED, LS_PARKSTAT, groupBase]; omega)

/-- R380, R383: a member that stops takes its role, watches nothing and holds no group. -/
theorem State.twinStop_stops (s : State) {r : Nat} (small : r < 8) :
    (s.twinStop r).role = r ∧ (s.twinStop r).tw = { s.tw with takeD := none, swapAt := none, attachAt := none } ∧
    (∀ g < 32, ((s.twinStop r).group g).shadowHold = false) ∧ Frame s (s.twinStop r) [.tw, .groups] stoppedField := by
  unfold State.twinStop
  have first : Frame s { s with tw := { s.tw with takeD := none, swapAt := none, attachAt := none } } [.tw, .groups] stoppedField :=
    .setTw _ _ _ _ (by simp)
  have tw : State.tw { s with tw := { s.tw with takeD := none, swapAt := none, attachAt := none } } =
    { s.tw with takeD := none, swapAt := none, attachAt := none } := rfl
  generalize ({ s with tw := { s.tw with takeD := none, swapAt := none, attachAt := none } } : State) = u at first tw ⊢
  have role : (u.set TW_STAT_ROLE r).get TW_STAT_ROLE = r % 8 := State.get_set _ _ _ (Fld.inWord_of _ rfl)
  have second := Frame.set u [] stoppedField TW_STAT_ROLE r (Fld.inWord_of _ rfl) (.inl rfl)
  generalize u.set TW_STAT_ROLE r = v at role second ⊢
  have third := Frame.parkAll v [.groups] (fun y => ∃ g, y = LS_PARKSTAT_PARKED g) (by simp) fun g _ => ⟨g, rfl⟩
  generalize v.parkAll = w at third ⊢
  obtain ⟨held, fourth⟩ := w.holdAll_holds false
  refine ⟨?_, ?_, held, ((first.trans (second.mono (by simp) fun _ => id)).trans (third.mono (by simp) fun _ => .inr)).trans
    (fourth.mono (by simp) fun _ => False.elim)⟩
  · unfold State.role
    rw [fourth.reg _ (.inl (by decide)) fun _ => False.elim, third.reg _ (.inl (by decide)) ?_, role, Nat.mod_eq_of_lt small]
    rintro _ ⟨g, rfl⟩
    exact .inl (by simp only [LS_PARKSTAT_PARKED, LS_PARKSTAT, groupBase, TW_STAT_ROLE, TW_STAT]; omega)
  · rw [fourth.part .tw (by simp), third.part .tw (by simp), second.part .tw (by simp), tw]

/-- What the failure of the partner may change at a SHADOW. -/
def takeField (y : Fld) : Prop :=
  y = TW_STAT_ROLE ∨ y.reg = TW_TAKE_LO ∨ y.reg = TW_TAKE_HI ∨ y = TW_FLAGS_TAKEOVER ∨ y = TW_CNT0_TAKEOVER

/-- R381: TW_TAKE holds D and the cause. -/
theorem State.twTake_shows (s : State) (d : Time) {cause : Nat} (small : cause < 16) :
    (s.twTake d cause).get TW_TAKE_HI_CAUSE = cause ∧ (s.twTake d cause).getTime TW_TAKE_LO_T_LO TW_TAKE_HI_T_HI = d ∧
    Frame s (s.twTake d cause) [] takeField := by
  unfold State.twTake
  have taken : (s.setTime TW_TAKE_LO_T_LO TW_TAKE_HI_T_HI d).getTime TW_TAKE_LO_T_LO TW_TAKE_HI_T_HI = d :=
    State.getTime_setTime _ _ _ _ (Fld.inWord_of _ rfl) (Fld.inWord_of _ rfl) (.inl (by decide)) rfl rfl
  have first := Frame.setTime s [] takeField TW_TAKE_LO_T_LO TW_TAKE_HI_T_HI d (Fld.inWord_of _ rfl) (Fld.inWord_of _ rfl) (.inr (.inl rfl))
    (.inr (.inr (.inl rfl)))
  generalize s.setTime TW_TAKE_LO_T_LO TW_TAKE_HI_T_HI d = u at taken first ⊢
  have shown : (u.set TW_TAKE_HI_CAUSE cause).get TW_TAKE_HI_CAUSE = cause % 16 := State.get_set _ _ _ (Fld.inWord_of _ rfl)
  refine ⟨shown.trans (Nat.mod_eq_of_lt small), ?_, first.trans (.set _ _ _ _ _ (Fld.inWord_of _ rfl) (.inr (.inr (.inl rfl))))⟩
  have low := State.get_set_apart u TW_TAKE_HI_CAUSE TW_TAKE_LO_T_LO cause (Fld.inWord_of _ rfl) (.inl (by decide))
  have high := State.get_set_apart u TW_TAKE_HI_CAUSE TW_TAKE_HI_T_HI cause (Fld.inWord_of _ rfl) (Fld.apart_of _ _ rfl rfl)
  exact (State.getTime_congr low high).trans taken

/-- R376: with no block that awaits the partner, none is delivered. -/
theorem State.refillAlone_none {s : State} (none : s.tw.refill = []) : s.refillAlone = { s with tw := { s.tw with refill := [] } } := by
  unfold State.refillAlone
  rw [none]
  rfl

/-- R379: the member drives alone, and nothing that it arranged with its partner stands. -/
theorem State.single_drives {u : State} (idle : u.tw.refill = []) :
    let v := (({ u with tw := { u.tw with swapAt := none, attachAt := none } }).setRole roleSingle).refillAlone
    v.role = roleSingle ∧ v.out = u.out ∧ Frame u v [.tw] (· = TW_STAT_ROLE) := by
  dsimp only
  have first : Frame u { u with tw := { u.tw with swapAt := none, attachAt := none } } [.tw] (· = TW_STAT_ROLE) := .setTw _ _ _ _ (by simp)
  have refill : State.tw { u with tw := { u.tw with swapAt := none, attachAt := none } } = { u.tw with swapAt := none, attachAt := none } := rfl
  have out : State.out { u with tw := { u.tw with swapAt := none, attachAt := none } } = u.out := rfl
  generalize ({ u with tw := { u.tw with swapAt := none, attachAt := none } } : State) = v at first refill out ⊢
  have role : (v.setRole roleSingle).get TW_STAT_ROLE = roleSingle := State.get_set _ _ _ (Fld.inWord_of _ rfl)
  have second : Frame v (v.setRole roleSingle) [] (· = TW_STAT_ROLE) := .set _ _ _ _ _ (Fld.inWord_of _ rfl) rfl
  have sent : (v.setRole roleSingle).out = v.out := State.set_out _ _ _
  generalize v.setRole roleSingle = w at role second sent ⊢
  have noRefill : w.tw.refill = [] := by rw [second.part .tw (by simp), refill, idle]
  rw [State.refillAlone_none noRefill]
  exact ⟨role, sent.trans out, (first.trans (second.mono (by simp) fun _ => id)).trans (.setTw _ _ _ _ (by simp))⟩

/-- R379 to R381: a SHADOW whose partner fails at `d` sends PARKCMD and takes over. -/
theorem State.partnerFailed_shadow {s : State} {d : Time} {cause : Nat} (shadow : s.role = roleShadow) (none_ : s.tw.refill = [])
    (small : cause < 16) : (s.partnerFailed d cause).role = roleSingle ∧ (s.partnerFailed d cause).tw.takeD = some d ∧
      (s.partnerFailed d cause).get TW_FLAGS_TAKEOVER = 1 ∧ (s.partnerFailed d cause).get TW_TAKE_HI_CAUSE = cause ∧
      (s.partnerFailed d cause).getTime TW_TAKE_LO_T_LO TW_TAKE_HI_T_HI = d ∧ (s.partnerFailed d cause).out = .link 3 .parkcmd :: s.out ∧
      Frame s (s.partnerFailed d cause) [.tw] takeField := by
  unfold State.partnerFailed
  extract_lets was u _ v
  have shown : was := shadow
  obtain ⟨causeIs, timeIs, taken⟩ := (s.sendLink 3 .parkcmd).twTake_shows d small
  have out : u.out = .link 3 .parkcmd :: s.out := by
    show ((s.sendLink 3 .parkcmd).twTake d cause).out = _
    unfold State.twTake
    rw [State.set_out, State.setTime_out]
    rfl
  have first : Frame s u [.tw] takeField := (Frame.sendLink s [.tw] takeField 3 .parkcmd).trans (taken.mono (by simp) fun _ => id)
  have noRefill : u.tw.refill = [] := by
    rw [show u.tw = (s.sendLink 3 .parkcmd).tw from taken.part .tw (by simp)]
    exact none_
  change u.get TW_TAKE_HI_CAUSE = cause at causeIs
  change u.getTime TW_TAKE_LO_T_LO TW_TAKE_HI_T_HI = d at timeIs
  obtain ⟨role, silent, single⟩ := State.single_drives noRefill
  change v.role = roleSingle at role
  change v.out = u.out at silent
  change Frame u v [.tw] (· = TW_STAT_ROLE) at single
  clear_value u v
  rw [if_pos shown]
  have third : Frame v { v with tw := { v.tw with takeD := some d } } [.tw] (fun _ => False) := .setTw _ _ _ _ (by simp)
  have takeD : State.tw { v with tw := { v.tw with takeD := some d } } = { v.tw with takeD := some d } := rfl
  have quiet : State.out { v with tw := { v.tw with takeD := some d } } = v.out := rfl
  generalize ({ v with tw := { v.tw with takeD := some d } } : State) = w at third takeD quiet ⊢
  have fourth := Frame.flag w [] (· ∈ [TW_FLAGS_TAKEOVER, TW_CNT0_TAKEOVER]) TW_FLAGS_TAKEOVER TW_CNT0_TAKEOVER (Fld.inWord_of _ rfl)
    (Fld.inWord_of _ rfl) (by simp) (by simp)
  have kept : ∀ x : Fld, x.reg = TW_TAKE_HI ∨ x.reg = TW_TAKE_LO → (w.flag TW_FLAGS_TAKEOVER TW_CNT0_TAKEOVER).get x = u.get x := fun x hx => by
    have notPba : x.reg.notPba := by obtain h | h := hx <;> rw [h] <;> exact .inl (by decide)
    have apart : ∀ y : Fld, y.reg.addr < TW_TAKE_LO.addr → y.apart x := fun y hy => by
      obtain h | h := hx <;> exact .inl (by rw [h]; simp only [TW_TAKE_LO, TW_TAKE_HI] at hy ⊢; omega)
    rw [fourth.reg x notPba fun y hy => ?_, third.reg x notPba fun _ => False.elim, single.reg x notPba fun y hy => hy ▸ apart _ (by decide)]
    simp only [List.mem_cons, List.not_mem_nil, or_false] at hy
    obtain rfl | rfl := hy
    · exact apart _ (by decide)
    · exact apart _ (by decide)
  refine ⟨?_, ?_, State.get_flag _ _ _ (Fld.inWord_of _ rfl) (Fld.inWord_of _ rfl) (.inl (by decide)) rfl, (kept _ (.inl rfl)).trans causeIs,
    (State.getTime_congr (kept _ (.inr rfl)) (kept _ (.inl rfl))).trans timeIs, ?_, ?_⟩
  · refine Eq.trans ?_ role
    unfold State.role
    rw [State.get_flag_apart _ _ _ _ (Fld.inWord_of _ rfl) (Fld.inWord_of _ rfl) (.inl (by decide)) (.inl (by decide)),
      third.reg _ (.inl (by decide)) fun _ => False.elim]
  · rw [fourth.part .tw (by simp), takeD]
  · rw [State.flag_out, quiet, silent, out]
  · refine ((first.trans (single.mono (fun _ => id) fun y hy => .inl hy)).trans (third.mono (fun _ => id) fun _ => False.elim)).trans
      (fourth.mono (by simp) fun y hy => ?_)
    simp only [List.mem_cons, List.not_mem_nil, or_false] at hy
    exact .inr (.inr (.inr hy))

/-! ### Heartbeats (R377, R379) -/

/-- R379: the first health bit is MCHK. -/
theorem State.health_mchk (s : State) : s.health.getLsbD 0 = s.on MC_MCHKMAP_MAP := by
  unfold State.health
  rw [BitVec.getLsbD_ofNat]
  cases s.on MC_MCHKMAP_MAP <;> cases s.on TH_STAT_OEXH <;> cases s.on TH_STAT_TRIP <;> cases s.twinPark <;> rfl

theorem heartbeatSend_runs {s : State} (pair : s.on TW_CTL_PAIR) (up : s.portUp 3) (grid : s.time.toNat % 1600 = 0) :
    RunsTo (exec .heartbeatSend s) fun t =>
      t.tw.crcs = ((s.time, s.lockstepCrc) :: s.tw.crcs).take 8 ∧ t.tw.hbSeq = s.tw.hbSeq + 1 ∧
      (∃ hb, Sends s t (.link 3 (.heartbeat hb)) ∧ hb.seq = s.tw.hbSeq ∧ hb.role = BitVec.ofNat 3 s.role ∧
        hb.time = s.time ∧ hb.crc = s.lockstepCrc ∧ hb.mchk = s.on MC_MCHKMAP_MAP) ∧ Frame s t [.tw] (fun _ => False) := by
  change RunsTo (doneIf (s.on TW_CTL_PAIR && s.portUp 3 && (decide (s.time.toNat % 1600 = 0) || s.health != s.tw.hbHealth)) s
    (s.heartbeat (decide (s.time.toNat % 1600 = 0)))) _
  rw [doneIf_pos (by rw [pair, up, grid]; rfl), decide_eq_true grid]
  unfold State.heartbeat
  rw [if_pos rfl]
  generalize s.lockstepCrc = c
  extract_lets _ u h x hb
  have first : Frame s u [.tw] (fun _ => False) := .setTw _ _ _ _ (by simp)
  have tw : u.tw = { s.tw with crcs := ((s.time, c) :: s.tw.crcs).take 8 } := rfl
  have mchk : u.on MC_MCHKMAP_MAP = s.on MC_MCHKMAP_MAP := rfl
  have role : u.role = s.role := rfl
  have out : u.out = s.out := rfl
  have newest : x = (s.time, c) := by
    show u.tw.crcs.headD (0, 0) = _
    rw [tw]
    rfl
  have second : Frame u (State.sendLink { u with tw := { u.tw with hbSeq := u.tw.hbSeq + 1, hbHealth := h } } 3 (.heartbeat hb)) [.tw]
      (fun _ => False) :=
    Frame.trans (.setTw _ _ _ _ (by simp)) (.sendLink _ _ _ _ _)
  have sent : (State.sendLink { u with tw := { u.tw with hbSeq := u.tw.hbSeq + 1, hbHealth := h } } 3 (.heartbeat hb)).out =
      .link 3 (.heartbeat hb) :: s.out := by
    rw [← out]
    rfl
  have tw' : (State.sendLink { u with tw := { u.tw with hbSeq := u.tw.hbSeq + 1, hbHealth := h } } 3 (.heartbeat hb)).tw =
    { u.tw with hbSeq := u.tw.hbSeq + 1, hbHealth := h } := rfl
  generalize State.sendLink _ 3 (.heartbeat hb) = v at second sent tw' ⊢
  refine runsTo_done _ _ _ ⟨?_, ?_, ⟨hb, Sends.settle sent _, ?_, ?_, ?_, ?_, ?_⟩, (first.trans second).trans (.settle _ _ _ _)⟩
  · rw [settle_tw, tw', tw]
  · rw [settle_tw, tw', tw]
  · show u.tw.hbSeq = _
    rw [tw]
  · show BitVec.ofNat 3 u.role = _
    rw [role]
  · show x.1 = _
    rw [newest]
  · show x.2 = _
    rw [newest]
  · show h.getLsbD 0 = _
    rw [← mchk]
    exact u.health_mchk

/-- R379: what a heartbeat shows of the partner as it arrives. -/
def State.heartbeatShown (s : State) (hb : Heartbeat) : State :=
  ({ s with tw := { s.tw with lastHb := some s.time } }.set TW_STAT_HBOK 1).set TW_STAT_PEER hb.role.toNat

/-- R377: the lockstep CRC of a heartbeat is checked. -/
def State.lockstepChecked (s : State) (hb : Heartbeat) : State :=
  if s.lockstepLost hb then (s.flag TW_FLAGS_LOCKSTEP TW_CNT1_LOCKSTEP).dispol else s

/-- R379: what a member does with the health of its partner. -/
def State.healthChecked (s : State) (hb : Heartbeat) : State :=
  if !s.watches then s
  else if hb.mchk then s.partnerFailed s.time takeMchk
  else if hb.ochre then s.partnerFailed s.time takeOchre
  else if hb.therm then s.partnerFailed s.time takeTherm
  else s

theorem State.heartbeatArrives_eq (s : State) (hb : Heartbeat) :
    s.heartbeatArrives hb = ((s.heartbeatShown hb).lockstepChecked hb).healthChecked hb := rfl

theorem State.healthChecked_healthy (s : State) {hb : Heartbeat} (mchk : hb.mchk = false) (ochre : hb.ochre = false) (therm : hb.therm = false) :
    s.healthChecked hb = s := by
  unfold State.healthChecked
  rw [mchk, ochre, therm]
  simp only [Bool.false_eq_true, if_false, ite_self]

theorem State.heartbeatShown_seen (s : State) (hb : Heartbeat) :
    let u := s.heartbeatShown hb
    u.get TW_STAT_HBOK = 1 ∧ u.get TW_STAT_PEER = hb.role.toNat ∧ u.role = s.role ∧ u.tw = { s.tw with lastHb := some s.time } ∧ u.out = s.out ∧
    Frame s u [.tw] (· ∈ [TW_STAT_HBOK, TW_STAT_PEER]) := by
  unfold State.heartbeatShown
  dsimp only
  have first : Frame s { s with tw := { s.tw with lastHb := some s.time } } [.tw] (· ∈ [TW_STAT_HBOK, TW_STAT_PEER]) := .setTw _ _ _ _ (by simp)
  have tw : State.tw { s with tw := { s.tw with lastHb := some s.time } } = { s.tw with lastHb := some s.time } := rfl
  have role : State.role { s with tw := { s.tw with lastHb := some s.time } } = s.role := rfl
  have out : State.out { s with tw := { s.tw with lastHb := some s.time } } = s.out := rfl
  generalize ({ s with tw := { s.tw with lastHb := some s.time } } : State) = u at first tw role out ⊢
  have ok : (u.set TW_STAT_HBOK 1).get TW_STAT_HBOK = 1 := State.get_set _ _ _ (Fld.inWord_of _ rfl)
  have role' : (u.set TW_STAT_HBOK 1).role = u.role := State.get_set_apart _ _ _ _ (Fld.inWord_of _ rfl) (Fld.apart_of _ _ rfl rfl)
  have second : Frame u (u.set TW_STAT_HBOK 1) [] (· ∈ [TW_STAT_HBOK, TW_STAT_PEER]) := .set _ _ _ _ _ (Fld.inWord_of _ rfl) (by simp)
  have out' : (u.set TW_STAT_HBOK 1).out = u.out := State.set_out _ _ _
  generalize u.set TW_STAT_HBOK 1 = v at ok role' second out' ⊢
  have peer : (v.set TW_STAT_PEER hb.role.toNat).get TW_STAT_PEER = hb.role.toNat % 8 := State.get_set _ _ _ (Fld.inWord_of _ rfl)
  have third : Frame v (v.set TW_STAT_PEER hb.role.toNat) [] (· ∈ [TW_STAT_HBOK, TW_STAT_PEER]) := .set _ _ _ _ _ (Fld.inWord_of _ rfl) (by simp)
  have ok' := State.get_set_apart v TW_STAT_PEER TW_STAT_HBOK hb.role.toNat (Fld.inWord_of _ rfl) (Fld.apart_of _ _ rfl rfl)
  have role'' : (v.set TW_STAT_PEER hb.role.toNat).role = v.role :=
    State.get_set_apart _ _ _ _ (Fld.inWord_of _ rfl) (Fld.apart_of _ _ rfl rfl)
  exact ⟨ok'.trans ok, peer.trans (Nat.mod_eq_of_lt hb.role.isLt), (role''.trans role').trans role,
    by rw [third.part .tw (by simp), second.part .tw (by simp), tw], by rw [State.set_out, out', out],
    (first.trans (second.mono (by simp) fun _ => id)).trans (third.mono (by simp) fun _ => id)⟩

theorem State.lockstepLost_congr {s t : State} {hb : Heartbeat} (role : t.role = s.role) (attach : t.tw.attachAt = s.tw.attachAt)
    (crcs : t.tw.crcs = s.tw.crcs) : t.lockstepLost hb = s.lockstepLost hb := by
  unfold State.lockstepLost State.inPair
  rw [role, attach, crcs]

theorem heartbeatFailure_runs {s : State} {hb : Heartbeat} (pair : s.on TW_CTL_PAIR) (lockstep : s.lockstepLost hb = false)
    (shadow : s.role = roleShadow) (mchk : hb.mchk) (none_ : s.tw.refill = []) : RunsTo (exec (.heartbeatReceive hb) s) fun t =>
      t.role = roleSingle ∧ t.tw.takeD = some s.time ∧ t.get TW_FLAGS_TAKEOVER = 1 ∧ t.get TW_TAKE_HI_CAUSE = takeMchk ∧
      t.getTime TW_TAKE_LO_T_LO TW_TAKE_HI_T_HI = s.time ∧ Sends s t (.link 3 .parkcmd) ∧
      Frame s t [.tw] (fun y => y.reg = TW_STAT ∨ y.reg = TW_TAKE_LO ∨ y.reg = TW_TAKE_HI ∨ y = TW_FLAGS_TAKEOVER ∨
        y = TW_CNT0_TAKEOVER) := by
  change RunsTo (doneIf (s.on TW_CTL_PAIR) s (s.heartbeatArrives hb)) _
  rw [doneIf_pos pair]
  obtain ⟨-, -, role, tw, out, seen⟩ := s.heartbeatShown_seen hb
  rw [State.heartbeatArrives_eq]
  generalize s.heartbeatShown hb = u at *
  have same : u.lockstepChecked hb = u := if_neg (by
    rw [State.lockstepLost_congr role (by rw [tw]) (by rw [tw]), lockstep]
    exact Bool.false_ne_true)
  have watches : u.watches = true := by
    unfold State.watches
    rw [role, shadow]
    rfl
  have fails : u.healthChecked hb = u.partnerFailed u.time takeMchk := by
    unfold State.healthChecked
    rw [watches, mchk, if_neg (by decide), if_pos rfl]
  rw [same, fails, show u.time = s.time from seen.part .time (by simp)]
  obtain ⟨single, takeD, flagged, cause, time, sent, frame⟩ := State.partnerFailed_shadow (s := u) (d := s.time) (cause := takeMchk)
    (role.trans shadow) (by rw [tw, none_]) (by decide)
  refine runsTo_done _ _ _ ⟨(get_settle _ _ _ (.inl (by decide))).trans single, by rw [settle_tw, takeD],
    (get_settle _ _ _ (.inl (by decide))).trans flagged, (get_settle _ _ _ (.inl (by decide))).trans cause,
    (getTime_settle _ _ _ _ (.inl (by decide)) (.inl (by decide))).trans time, Sends.settle (sent.trans (by rw [out])) _,
    ((seen.mono (fun _ => id) fun y hy => ?_).trans (frame.mono (fun _ => id) fun y hy => ?_)).trans (.settle _ _ _ _)⟩
  · simp only [List.mem_cons, List.not_mem_nil, or_false] at hy
    obtain rfl | rfl := hy <;> exact .inl rfl
  · obtain rfl | h := hy
    · exact .inl rfl
    · exact .inr h

theorem heartbeatHealthy_runs {s : State} {hb : Heartbeat} (pair : s.on TW_CTL_PAIR) (lockstep : s.lockstepLost hb = false)
    (mchk : hb.mchk = false) (ochre : hb.ochre = false) (therm : hb.therm = false) : RunsTo (exec (.heartbeatReceive hb) s) fun t =>
      t.tw.lastHb = some s.time ∧ t.get TW_STAT_HBOK = 1 ∧ t.get TW_STAT_PEER = hb.role.toNat ∧ t.role = s.role ∧
      Frame s t [.tw] (· ∈ [TW_STAT_HBOK, TW_STAT_PEER]) := by
  change RunsTo (doneIf (s.on TW_CTL_PAIR) s (s.heartbeatArrives hb)) _
  rw [doneIf_pos pair]
  obtain ⟨ok, peer, role, tw, -, seen⟩ := s.heartbeatShown_seen hb
  rw [State.heartbeatArrives_eq]
  generalize s.heartbeatShown hb = u at *
  have same : u.lockstepChecked hb = u := if_neg (by
    rw [State.lockstepLost_congr role (by rw [tw]) (by rw [tw]), lockstep]
    exact Bool.false_ne_true)
  rw [same, State.healthChecked_healthy _ mchk ochre therm]
  exact runsTo_done _ _ _ ⟨by rw [settle_tw, tw], (get_settle _ _ _ (.inl (by decide))).trans ok, (get_settle _ _ _ (.inl (by decide))).trans peer,
    (get_settle _ _ _ (.inl (by decide))).trans role, seen.trans (.settle _ _ _ _)⟩

theorem heartbeatLockstep_runs {s : State} {hb : Heartbeat} (pair : s.on TW_CTL_PAIR) (lockstep : s.lockstepLost hb)
    (stays : s.on TW_CTL_DISPOL = false) (mchk : hb.mchk = false) (ochre : hb.ochre = false) (therm : hb.therm = false) :
    RunsTo (exec (.heartbeatReceive hb) s) fun t =>
      t.get TW_FLAGS_LOCKSTEP = 1 ∧ t.get TW_CNT1_LOCKSTEP = min (s.get TW_CNT1_LOCKSTEP + 1) 65535 ∧ t.role = s.role := by
  change RunsTo (doneIf (s.on TW_CTL_PAIR) s (s.heartbeatArrives hb)) _
  rw [doneIf_pos pair]
  obtain ⟨-, -, role, tw, -, seen⟩ := s.heartbeatShown_seen hb
  rw [State.heartbeatArrives_eq]
  generalize s.heartbeatShown hb = u at *
  have kept : ∀ x : Fld, x.reg.notPba → x.reg.addr ≠ TW_STAT.addr → u.get x = s.get x := fun x notPba ne => seen.reg x notPba fun y hy => by
    simp only [List.mem_cons, List.not_mem_nil, or_false] at hy
    obtain rfl | rfl := hy <;> exact .inl (Ne.symm ne)
  have flagKept : ∀ x : Fld, TW_FLAGS_LOCKSTEP.apart x → TW_CNT1_LOCKSTEP.apart x → (u.flag TW_FLAGS_LOCKSTEP TW_CNT1_LOCKSTEP).get x = u.get x :=
    fun x => State.get_flag_apart _ _ _ _ (Fld.inWord_of _ rfl) (Fld.inWord_of _ rfl)
  have policy : (u.flag TW_FLAGS_LOCKSTEP TW_CNT1_LOCKSTEP).on TW_CTL_DISPOL = false := by
    rw [State.on_congr (flagKept _ (.inl (by decide)) (.inl (by decide))), State.on_congr (kept _ (.inl (by decide)) (by decide))]
    exact stays
  have same : u.lockstepChecked hb = u.flag TW_FLAGS_LOCKSTEP TW_CNT1_LOCKSTEP := (if_pos (by
    rw [State.lockstepLost_congr role (by rw [tw]) (by rw [tw]), lockstep])).trans (if_neg (by
    rw [policy]
    exact Bool.false_ne_true))
  rw [same, State.healthChecked_healthy _ mchk ochre therm]
  refine runsTo_done _ _ _ ⟨(get_settle _ _ _ (.inl (by decide))).trans (State.get_flag _ _ _ (Fld.inWord_of _ rfl) (Fld.inWord_of _ rfl)
      (.inl (by decide)) rfl), (get_settle _ _ _ (.inl (by decide))).trans ((State.get_flag_count _ _ _ (Fld.inWord_of _ rfl)
      (Fld.inWord_of _ rfl) (.inl (by decide))).trans ?_),
    (get_settle _ _ _ (.inl (by decide))).trans ((flagKept _ (.inl (by decide)) (.inl (by decide))).trans role)⟩
  rw [kept _ (.inl (by decide)) (by decide)]
  rfl

/-! ### The loss of the heartbeat and takeover (R379 to R381) -/

theorem State.hbLossAt_last {s : State} {h : Time} (last : s.tw.lastHb = some h) : s.hbLossAt = later h 5600 := by
  unfold State.hbLossAt
  rw [last]

theorem State.hbLossAt_congr {s t : State} (tw : t.tw = s.tw) (time : t.time = s.time) : t.hbLossAt = s.hbLossAt := by
  unfold State.hbLossAt
  rw [tw, time]

theorem State.heartbeatLate_last {s : State} {h : Time} (last : s.tw.lastHb = some h) (late : 5600 ≤ s.since h) : s.heartbeatLate = true := by
  unfold State.heartbeatLate
  rw [last]
  exact decide_eq_true late

/-- R379: the loss of the heartbeat shows in HBOK. -/
theorem State.hbLost_shown (s : State) : (s.set TW_STAT_HBOK 0).get TW_STAT_HBOK = 0 ∧ (s.set TW_STAT_HBOK 0).role = s.role ∧
    (s.set TW_STAT_HBOK 0).out = s.out ∧ Frame s (s.set TW_STAT_HBOK 0) [] (· = TW_STAT_HBOK) :=
  ⟨State.get_set _ _ _ (Fld.inWord_of _ rfl), State.get_set_apart _ _ _ _ (Fld.inWord_of _ rfl) (Fld.apart_of _ _ rfl rfl), State.set_out _ _ _,
    .set _ _ _ _ _ (Fld.inWord_of _ rfl) rfl⟩

theorem State.watches_shadow {s : State} (shadow : s.role = roleShadow) : s.watches = true := by
  unfold State.watches
  rw [shadow]
  rfl

theorem portState_notPba (x : Nat) (small : x < 4) : (CL_P_STAT_STATE x).reg.notPba :=
  .inl (by simp only [CL_P_STAT_STATE, CL_P_STAT]; omega)

theorem State.portUp_congr {s t : State} {x : Nat} (h : t.get (CL_P_STAT_STATE x) = s.get (CL_P_STAT_STATE x)) : t.portUp x = s.portUp x := by
  unfold State.portUp
  rw [h]

/-- The field of what a takeover leaves. -/
theorem takeField.apart_hb {y : Fld} (hy : takeField y) : y.apart TW_STAT_HBOK ∧ y.apart TW_FLAGS_HBLOSS := by
  obtain rfl | h | h | rfl | rfl := hy
  · exact ⟨Fld.apart_of _ _ rfl rfl, .inl (by decide)⟩
  · exact ⟨.inl (by rw [h]; decide), .inl (by rw [h]; decide)⟩
  · exact ⟨.inl (by rw [h]; decide), .inl (by rw [h]; decide)⟩
  · exact ⟨.inl (by decide), Fld.apart_of _ _ rfl rfl⟩
  · exact ⟨.inl (by decide), .inl (by decide)⟩

section Loss
variable {s : State} {h : Time} (last : s.tw.lastHb = some h) (late : 5600 ≤ s.since h) (shadow : s.role = roleShadow)
include last late shadow

theorem heartbeatLoss_up_runs (up : s.portUp 3) (idle : s.tw.refill = []) : RunsTo (exec .heartbeatLoss s) fun t =>
      t.role = roleSingle ∧ t.tw.takeD = some (later h 5600) ∧ t.get TW_FLAGS_HBLOSS = 1 ∧ t.get TW_STAT_HBOK = 0 ∧
      t.get TW_TAKE_HI_CAUSE = takeHbloss ∧ Sends s t (.link 3 .parkcmd) := by
  change RunsTo (doneIf s.heartbeatLate s s.heartbeatLost) _
  rw [doneIf_pos (State.heartbeatLate_last last late)]
  unfold State.heartbeatLost
  obtain ⟨shown, role, out, frame⟩ := s.hbLost_shown
  generalize s.set TW_STAT_HBOK 0 = u at shown role out frame ⊢
  dsimp only
  rw [State.watches_shadow (role.trans shadow), State.portUp_congr (frame.reg _ (portState_notPba 3 (by decide)) fun y hy => hy ▸ .inl
      (by decide)), up,
    if_neg (by decide), if_pos rfl]
  have flagged := State.get_flag u TW_FLAGS_HBLOSS TW_CNT0_HBLOSS (Fld.inWord_of _ rfl) (Fld.inWord_of _ rfl) (.inl (by decide)) rfl
  have kept : ∀ x : Fld, TW_FLAGS_HBLOSS.apart x → TW_CNT0_HBLOSS.apart x → (u.flag TW_FLAGS_HBLOSS TW_CNT0_HBLOSS).get x = u.get x :=
    fun x => State.get_flag_apart _ _ _ _ (Fld.inWord_of _ rfl) (Fld.inWord_of _ rfl)
  have role' : (u.flag TW_FLAGS_HBLOSS TW_CNT0_HBLOSS).role = u.role := kept _ (.inl (by decide)) (.inl (by decide))
  have shown' := kept TW_STAT_HBOK (.inl (by decide)) (.inl (by decide))
  have out' : (u.flag TW_FLAGS_HBLOSS TW_CNT0_HBLOSS).out = u.out := State.flag_out _ _ _
  have second := Frame.flag u [] (fun _ => True) TW_FLAGS_HBLOSS TW_CNT0_HBLOSS (Fld.inWord_of _ rfl) (Fld.inWord_of _ rfl) trivial trivial
  generalize u.flag TW_FLAGS_HBLOSS TW_CNT0_HBLOSS = v at flagged role' shown' out' second ⊢
  have tw : v.tw = s.tw := (second.part .tw (by simp)).trans (frame.part .tw (by simp))
  rw [State.hbLossAt_congr (frame.part .tw (by simp)) (frame.part .time (by simp)), State.hbLossAt_last last]
  obtain ⟨single, takeD, -, cause, -, sent, third⟩ := State.partnerFailed_shadow (s := v) (d := later h 5600) (cause := takeHbloss)
    ((role'.trans role).trans shadow) (by rw [tw, idle]) (by decide)
  exact runsTo_done _ _ _ ⟨(get_settle _ _ _ (.inl (by decide))).trans single, by rw [settle_tw, takeD],
    (get_settle _ _ _ (.inl (by decide))).trans ((third.reg _ (.inl (by decide)) fun _ hy => hy.apart_hb.2).trans flagged),
    (get_settle _ _ _ (.inl (by decide))).trans ((third.reg _ (.inl (by decide)) fun _ hy => hy.apart_hb.1).trans (shown'.trans shown)),
    (get_settle _ _ _ (.inl (by decide))).trans cause, Sends.settle (sent.trans (by rw [out', out])) _⟩

theorem heartbeatLoss_detach_runs (down : s.portUp 3 = false) (policy : s.on TW_CTL_LOSPOL = false) : RunsTo (exec .heartbeatLoss s) fun t =>
      t.role = roleDetached ∧ t.get TW_STAT_HBOK = 0 ∧ t.get TW_FLAGS_HBLOSS = s.get TW_FLAGS_HBLOSS ∧
      ∀ g < 32, (t.group g).shadowHold = false := by
  change RunsTo (doneIf s.heartbeatLate s s.heartbeatLost) _
  rw [doneIf_pos (State.heartbeatLate_last last late)]
  unfold State.heartbeatLost
  obtain ⟨shown, role, -, frame⟩ := s.hbLost_shown
  generalize s.set TW_STAT_HBOK 0 = u at shown role frame ⊢
  have role' : u.role = roleShadow := role.trans shadow
  dsimp only
  rw [State.watches_shadow role', State.portUp_congr (frame.reg _ (portState_notPba 3 (by decide)) fun y hy => hy ▸ .inl (by decide)), down,
    State.on_congr (frame.reg TW_CTL_LOSPOL (.inl (by decide)) fun y hy => hy ▸ .inl (by decide)), policy, role', if_neg (by decide),
    if_neg (by decide), if_neg (by decide)]
  have stops : u.twinDetach = u.twinStop roleDetached := if_pos (.inl role')
  rw [stops]
  obtain ⟨detached, -, held, second⟩ := u.twinStop_stops (r := roleDetached) (by decide)
  refine runsTo_done _ _ _ ⟨(get_settle _ _ _ (.inl (by decide))).trans detached, ?_, ?_, fun g hg => by rw [group_settle, held g hg]⟩
  · rw [get_settle _ _ _ (.inl (by decide)), second.reg _ (.inl (by decide)) fun y hy => ?_, shown]
    obtain rfl | ⟨g, rfl⟩ := hy
    · exact Fld.apart_of _ _ rfl rfl
    · exact .inl (by simp only [LS_PARKSTAT_PARKED, LS_PARKSTAT, groupBase, TW_STAT_HBOK, TW_STAT]; omega)
  · rw [get_settle _ _ _ (.inl (by decide)), second.reg _ (.inl (by decide)) fun y hy => hy.apart_twin (by decide) (by decide),
      frame.reg _ (.inl (by decide)) fun y hy => hy ▸ .inl (by decide)]

theorem heartbeatLoss_link_runs (down : s.portUp 3 = false) (policy : s.on TW_CTL_LOSPOL) (idle : s.tw.refill = []) :
    RunsTo (exec .heartbeatLoss s) fun t =>
      t.role = roleSingle ∧ t.tw.takeD = some (later h 5600) ∧ t.get TW_TAKE_HI_CAUSE = takeLinkloss ∧ Sends s t (.link 3 .parkcmd) := by
  change RunsTo (doneIf s.heartbeatLate s s.heartbeatLost) _
  rw [doneIf_pos (State.heartbeatLate_last last late)]
  unfold State.heartbeatLost
  obtain ⟨-, role, out, frame⟩ := s.hbLost_shown
  generalize s.set TW_STAT_HBOK 0 = u at role out frame ⊢
  have role' : u.role = roleShadow := role.trans shadow
  have tw : u.tw = s.tw := frame.part .tw (by simp)
  dsimp only
  rw [State.watches_shadow role', State.portUp_congr (frame.reg _ (portState_notPba 3 (by decide)) fun y hy => hy ▸ .inl (by decide)), down,
    State.on_congr (frame.reg TW_CTL_LOSPOL (.inl (by decide)) fun y hy => hy ▸ .inl (by decide)), policy, if_neg (by decide),
    if_neg (by decide), if_pos (.inr rfl), State.hbLossAt_congr tw (frame.part .time (by simp)), State.hbLossAt_last last]
  obtain ⟨single, takeD, -, cause, -, sent, -⟩ := State.partnerFailed_shadow (s := u) (d := later h 5600) (cause := takeLinkloss)
    role' (by rw [tw, idle]) (by decide)
  exact runsTo_done _ _ _ ⟨(get_settle _ _ _ (.inl (by decide))).trans single, by rw [settle_tw, takeD],
    (get_settle _ _ _ (.inl (by decide))).trans cause, Sends.settle (sent.trans (by rw [out])) _⟩

end Loss

theorem groupTakeover_runs {s : State} (g : GroupIx) (due : s.takeoverDue g) : RunsTo (exec (.groupTakeover g) s) fun t =>
      (t.group g).shadowHold = false ∧ (t.group g).termOnly = false ∧ Frame s t [.groups] (fun _ => False) := by
  change RunsTo (doneIf (s.takeoverDue g) s (s.groupTakeover g)) _
  rw [doneIf_pos due]
  unfold State.groupTakeover
  refine runsTo_done _ _ _ ⟨?_, ?_, (Frame.setGroup _ _ _ _ _ (by simp)).trans (.settle _ _ _ _)⟩
  · rw [group_settle, State.group_setGroup _ _ _ g.isLt]
  · rw [group_settle, State.group_setGroup _ _ _ g.isLt]

theorem takeoverTermConnect_runs {s : State} (g : GroupIx) {d : Time} (takeD : s.tw.takeD = some d) (held : (s.group g).shadowHold)
    (due : reached s.time (later d 160)) : RunsTo (exec (.takeoverTermConnect g) s) fun t =>
      (t.group g).termOnly ∧ (t.group g).shadowHold ∧ Frame s t [.groups] (fun _ => False) := by
  change RunsTo (execTakeoverTermConnect g s) _
  unfold execTakeoverTermConnect
  rw [takeD]
  dsimp only
  rw [if_pos (by rw [held, due]; rfl)]
  refine runsTo_done _ _ _ ⟨?_, ?_, (Frame.setGroup _ _ _ _ _ (by simp)).trans (.settle _ _ _ _)⟩
  · rw [group_settle, State.group_setGroup _ _ _ g.isLt]
  · rw [group_settle, State.group_setGroup _ _ _ g.isLt]
    exact held

theorem parkcmdReceive_runs {s : State} (active : s.role = roleActive) : RunsTo (exec .parkcmdReceive s) fun t =>
      t.role = roleFailed ∧ Frame s t [.tw, .groups] (fun y => y = TW_STAT_ROLE ∨ ∃ g, y = LS_PARKSTAT_PARKED g) := by
  have stops : s.selfPark = s.twinStop roleFailed := if_pos (.inl active)
  obtain ⟨failed, -, -, frame⟩ := s.twinStop_stops (r := roleFailed) (by decide)
  change RunsTo (done s s.selfPark) _
  rw [stops]
  exact runsTo_done _ _ _ ⟨(get_settle _ _ _ (.inl (by decide))).trans failed, frame.trans (.settle _ _ _ _)⟩

/-! ### Agreement (R378) -/

theorem isEmpty_of_ne_nil {l : List Native} (some_ : l ≠ []) : l.isEmpty = false := by
  cases l with
  | nil => exact absurd rfl some_
  | cons x xs => rfl

/-- R378: a strict disagreement is flagged and shown. -/
theorem State.disagreed {s : State} (e isq map : Nat) (small : e < 32) (width : map < 65536) :
    let t := (((s.flag TW_FLAGS_DISAGREE TW_CNT1_DISAGREE).set TW_DIS_ENGINE e).set TW_DIS_ISEQ isq).set TW_DIS_CHMAP map
    t.get TW_FLAGS_DISAGREE = 1 ∧ t.get TW_DIS_ENGINE = e ∧ t.get TW_DIS_CHMAP = map ∧
    Frame s t [] (fun y => y = TW_FLAGS_DISAGREE ∨ y = TW_CNT1_DISAGREE ∨ y.reg = TW_DIS) := by
  dsimp only
  have flagged := State.get_flag s TW_FLAGS_DISAGREE TW_CNT1_DISAGREE (Fld.inWord_of _ rfl) (Fld.inWord_of _ rfl) (.inl (by decide)) rfl
  have first := Frame.flag s [] (fun y => y = TW_FLAGS_DISAGREE ∨ y = TW_CNT1_DISAGREE ∨ y.reg = TW_DIS) TW_FLAGS_DISAGREE TW_CNT1_DISAGREE
    (Fld.inWord_of _ rfl) (Fld.inWord_of _ rfl) (.inl rfl) (.inr (.inl rfl))
  generalize s.flag TW_FLAGS_DISAGREE TW_CNT1_DISAGREE = u at flagged first ⊢
  have engine : (u.set TW_DIS_ENGINE e).get TW_DIS_ENGINE = e % 32 := State.get_set _ _ _ (Fld.inWord_of _ rfl)
  have flagged1 := State.get_set_apart u TW_DIS_ENGINE TW_FLAGS_DISAGREE e (Fld.inWord_of _ rfl) (.inl (by decide))
  have second := Frame.set u [] (fun y => y = TW_FLAGS_DISAGREE ∨ y = TW_CNT1_DISAGREE ∨ y.reg = TW_DIS) TW_DIS_ENGINE e (Fld.inWord_of _ rfl)
    (.inr (.inr rfl))
  generalize u.set TW_DIS_ENGINE e = v at engine flagged1 second ⊢
  have engine2 := State.get_set_apart v TW_DIS_ISEQ TW_DIS_ENGINE isq (Fld.inWord_of _ rfl) (Fld.apart_of _ _ rfl rfl)
  have flagged2 := State.get_set_apart v TW_DIS_ISEQ TW_FLAGS_DISAGREE isq (Fld.inWord_of _ rfl) (.inl (by decide))
  have third := Frame.set v [] (fun y => y = TW_FLAGS_DISAGREE ∨ y = TW_CNT1_DISAGREE ∨ y.reg = TW_DIS) TW_DIS_ISEQ isq (Fld.inWord_of _ rfl)
    (.inr (.inr rfl))
  generalize v.set TW_DIS_ISEQ isq = w at engine2 flagged2 third ⊢
  have shown : (w.set TW_DIS_CHMAP map).get TW_DIS_CHMAP = map % 65536 := State.get_set _ _ _ (Fld.inWord_of _ rfl)
  have engine3 := State.get_set_apart w TW_DIS_CHMAP TW_DIS_ENGINE map (Fld.inWord_of _ rfl) (Fld.apart_of _ _ rfl rfl)
  have flagged3 := State.get_set_apart w TW_DIS_CHMAP TW_FLAGS_DISAGREE map (Fld.inWord_of _ rfl) (.inl (by decide))
  exact ⟨flagged3.trans (flagged2.trans (flagged1.trans flagged)), engine3.trans (engine2.trans (engine.trans (Nat.mod_eq_of_lt small))),
    shown.trans (Nat.mod_eq_of_lt width), ((first.trans second).trans third).trans (.set _ _ _ _ _ (Fld.inWord_of _ rfl) (.inr (.inr rfl)))⟩

section Agreement
variable {s : State} {e : EngineIx} {set own : List Native} {k n : Nat} (active : s.role = roleActive) (idle : s.tw.attachAt = none)
  (checked : vget s.tw.checkFrom e none = some k) (held : vget s.tw.sets e (0, []) = (n, own)) (some_ : own ≠ []) (covers : k ≤ n)
include active idle checked covers

theorem State.agrees_active : s.agrees e n = true := by
  unfold State.agrees State.inPair
  rw [active, idle, checked]
  exact decide_eq_true covers

include held some_

theorem agreementReceive_differs_runs (stays : s.on TW_CTL_DISPOL = false) (differs : crc32c (wordBytes own) ≠ crc32c (wordBytes set))
    (strict : s.on TW_AGREE_MODE = false) : RunsTo (exec (.agreementReceive e set) s) fun t =>
        t.get TW_FLAGS_DISAGREE = 1 ∧ t.get TW_DIS_ENGINE = e.val ∧ t.get TW_DIS_CHMAP = 0xFFFF ∧
        Frame s t [] (fun y => y = TW_FLAGS_DISAGREE ∨ y = TW_CNT1_DISAGREE ∨ y.reg = TW_DIS) := by
  have map : s.disagreement own set = some 0xFFFF := by
    unfold State.disagreement
    rw [if_neg differs, strict]
    rfl
  change RunsTo (done s (s.agreement e set)) _
  unfold State.agreement
  rw [held]
  dsimp only
  rw [isEmpty_of_ne_nil some_, State.agrees_active active idle checked covers, if_neg (by decide), strict, Bool.false_and, if_neg (by decide), map]
  obtain ⟨flagged, engine, shown, frame⟩ := State.disagreed (s := s) e (nbits (own.headD 0) 66 61) 0xFFFF e.isLt (by decide)
  dsimp only at flagged engine shown frame ⊢
  generalize State.set _ TW_DIS_CHMAP 0xFFFF = u at flagged engine shown frame ⊢
  have kept : u.dispol = u := if_neg (by
    rw [State.on_congr (frame.reg TW_CTL_DISPOL (.inl (by decide)) fun y hy => ?_), stays]
    · exact Bool.false_ne_true
    · obtain rfl | rfl | h := hy
      · exact .inl (by decide)
      · exact .inl (by decide)
      · exact .inl (by rw [h]; decide))
  rw [kept]
  exact runsTo_done _ _ _ ⟨(get_settle _ _ _ (.inl (by decide))).trans flagged, (get_settle _ _ _ (.inl (by decide))).trans engine,
    (get_settle _ _ _ (.inl (by decide))).trans shown, frame.trans (.settle _ _ _ _)⟩

theorem agreementReceive_equal_runs (equal : crc32c (wordBytes own) = crc32c (wordBytes set)) :
    RunsTo (exec (.agreementReceive e set) s) fun t => Frame s t [] (fun _ => False) := by
  have map : s.disagreement own set = none := if_pos equal
  change RunsTo (done s (s.agreement e set)) _
  unfold State.agreement
  rw [held]
  dsimp only
  rw [isEmpty_of_ne_nil some_, State.agrees_active active idle checked covers, if_neg (by decide), equal, bne_self_eq_false, Bool.and_false,
    if_neg (by decide), map]
  exact runsTo_done _ _ _ (.settle _ _ _ _)

end Agreement

/-- Settles O44: heartbeats, takeover and agreement of a twin pair. -/
theorem twinWatch : Obligations.TwinWatch := by
  unfold Obligations.TwinWatch
  refine ⟨fun _ => heartbeatSend_runs, fun _ _ pair lockstep => ⟨heartbeatFailure_runs pair lockstep, heartbeatHealthy_runs pair lockstep⟩,
    fun _ _ => heartbeatLockstep_runs, fun _ _ last late shadow => ⟨heartbeatLoss_up_runs last late shadow,
      heartbeatLoss_detach_runs last late shadow, heartbeatLoss_link_runs last late shadow⟩, fun _ g => groupTakeover_runs g,
    fun _ g _ => takeoverTermConnect_runs g, fun _ => parkcmdReceive_runs,
    fun _ _ _ _ _ _ active idle checked held some_ covers stays => ⟨agreementReceive_differs_runs active idle checked held some_ covers stays,
      agreementReceive_equal_runs active idle checked held some_ covers⟩⟩

end Sys2Proof.Machine
end

section
/-! SMBus, SPI and the test access port (R411, R413, R457 to R460) -/

namespace Sys2Proof.Machine

/-! ### Messages and ALERT_N after a command that leaves the flags (R408, R411) -/

/-- The flags of the device that HI_CAUSE shows, beside those of the groups. -/
def deviceFlagRegs : List Reg :=
  [HI_RDONE, GL_FLAGS, TP_FLAGS, AQ_FLAGS, MC_FLAGS, CM_FLAGS, SN_FLAGS, DG_FLAGS, CL_FLAGS, TW_FLAGS, HI_FLAGS, CK_FLAGS, TH_FLAGS, NV_FLAGS,
    CP_PFLAGS 0]

section Causes
variable {P : Reg → Prop} {s t : State} (h : ∀ r, P r → t.word r = s.word r) (device : ∀ r ∈ deviceFlagRegs, P r)
  (groups : ∀ r : Reg, 0x100000 ≤ r.addr → P r)
include h device groups

theorem State.groupFlags_of_words (b g : Nat) : t.groupFlags b g = s.groupFlags b g := by
  have group (r : Reg) (hr : groupBase g ≤ r.addr) : t.word r = s.word r := h r (groups r (by simp only [groupBase] at hr; omega))
  unfold State.groupFlags
  dsimp only
  split
  · rw [group (TG_FLAGS g) (Nat.le_add_right ..)]
  · rw [group (LS_FLAGS g) (Nat.le_add_right ..)]
  · rw [group (CP_FLAGS g) (Nat.le_add_right ..), group (CP_TFLAGS g) (Nat.le_add_right ..),
      h (CP_PFLAGS 0) (device _ (by decide))]
  · rw [group (TD_FLAGS g) (Nat.le_add_right ..)]
  · rw [group (FQ_FLAGS g) (Nat.le_add_right ..)]
  · rw [group (FC_FLAGS g) (Nat.le_add_right ..)]
  · rw [group (WP_FLAGS g) (Nat.le_add_right ..)]
  · rw [group (SQ_FLAGS g) (Nat.le_add_right ..)]
  · rfl

/-- R408: the causes follow the registers of flags. -/
theorem State.causeBit_of_words (b : Nat) : t.causeBit b = s.causeBit b := by
  have rdone : t.get HI_RDONE_DONE = s.get HI_RDONE_DONE := by
    rw [State.get_eq, State.get_eq, ← State.word, ← State.word, h _ (device _ (by decide))]
  unfold State.causeBit
  simp only [State.bit, rdone]
  split
  · rfl
  · split
    case h_14 => rw [funext (State.groupFlags_of_words h device groups b)]
    all_goals rw [h _ (device _ (by decide))]

end Causes

/-- R411: what STATUS shows. -/
def statusFields : List Fld := [GL_STATUS_READY, MC_MCHKMAP_MAP, TH_STAT_WARN, TH_STAT_TRIP, TH_STAT_OEXH]

theorem statusFields_notPba : ∀ x ∈ statusFields, x.reg.notPba := by decide

theorem State.smbStatus_congr {s t : State} (h : ∀ x ∈ statusFields, t.get x = s.get x) : t.smbStatus = s.smbStatus := by
  unfold State.smbStatus
  rw [State.on_congr (h GL_STATUS_READY (by decide)), State.on_congr (h MC_MCHKMAP_MAP (by decide)), State.on_congr (h TH_STAT_WARN (by decide)),
    State.on_congr (h TH_STAT_TRIP (by decide)), State.on_congr (h TH_STAT_OEXH (by decide))]

/-- Steps that leave the fields of STATUS leave STATUS. -/
theorem Frame.smbStatus {s t : State} {ps : List Part} {w : Fld → Prop} (h : Frame s t ps w) (apart : ∀ y, w y → ∀ x ∈ statusFields, y.apart x) :
    t.smbStatus = s.smbStatus :=
  State.smbStatus_congr fun x hx => h.reg x (statusFields_notPba x hx) fun y hy => apart y hy x hx

/-- R411: ALERT_N stays where STATUS does. -/
theorem settle_hi_of_status {s t : State} (same : t.smbStatus = s.smbStatus) : (settle s t).hi = t.hi := by
  have stays : (settle s t).hi.alertN = t.hi.alertN := by
    rw [alertN_settle, same]
    simp
  have others := settle_hi s t
  rwa [← stays] at others

/-! ### SMBus (R411) -/

theorem smbAnswer_runs {s : State} (answers : 2 ≤ s.get GL_STATUS_BOOT) (w : Bool) (v : Nat) : RunsTo (done s (s.smbRead w v)) fun t =>
    Sends s t (.smbus (some (BitVec.ofNat 16 (if w then v else v % 256)))) ∧ Frame s t [] (fun _ => False) := by
  have eq : s.smbRead w v = s.emit (.smbus (some (BitVec.ofNat 16 (if w then v else v % 256)))) := by
    unfold State.smbRead State.smbReady
    rw [decide_eq_true answers, if_pos rfl]
  rw [eq]
  exact runsTo_done _ _ _ ⟨Sends.settle rfl _, (Frame.emit _ _ _ _).trans (.settle _ _ _ _)⟩

theorem smbSilent_runs {s : State} (early : s.get GL_STATUS_BOOT < 2) (w : Bool) (v : Nat) : RunsTo (done s (s.smbRead w v)) fun t =>
    Sends s t (.smbus none) ∧ Frame s t [] (fun _ => False) := by
  have eq : s.smbRead w v = s.emit (.smbus none) := by
    unfold State.smbRead State.smbReady
    rw [decide_eq_false (Nat.not_le.2 early), if_neg (by decide)]
  rw [eq]
  exact runsTo_done _ _ _ ⟨Sends.settle rfl _, (Frame.emit _ _ _ _).trans (.settle _ _ _ _)⟩

/-- R411: an answer that releases ALERT_N. -/
theorem smbRelease_runs {s : State} (answers : 2 ≤ s.get GL_STATUS_BOOT) (w : Bool) (v : Nat) :
    RunsTo (done s (s.smbRead w v).alertRelease) fun t =>
    Sends s t (.smbus (some (BitVec.ofNat 16 (if w then v else v % 256)))) ∧ t.hi.alertN ∧ Frame s t [] (fun _ => False) := by
  have eq : s.smbRead w v = s.emit (.smbus (some (BitVec.ofNat 16 (if w then v else v % 256)))) := by
    unfold State.smbRead State.smbReady
    rw [decide_eq_true answers, if_pos rfl]
  have released : (s.emit (.smbus (some (BitVec.ofNat 16 (if w then v else v % 256))))).alertRelease =
      { s.emit (.smbus (some (BitVec.ofNat 16 (if w then v else v % 256)))) with hi := { s.hi with alertN := true } } :=
    if_pos (decide_eq_true answers)
  rw [eq, released]
  generalize BitVec.ofNat 16 (if w then v else v % 256) = answer
  have out : State.out { s.emit (.smbus (some answer)) with hi := { s.hi with alertN := true } } = .smbus (some answer) :: s.out := rfl
  have live : State.live { s.emit (.smbus (some answer)) with hi := { s.hi with alertN := true } } = s.live := rfl
  have hi : State.hi { s.emit (.smbus (some answer)) with hi := { s.hi with alertN := true } } = { s.hi with alertN := true } := rfl
  have frame : Frame s { s.emit (.smbus (some answer)) with hi := { s.hi with alertN := true } } [] (fun _ => False) :=
    .parts _ (fun p _ => by cases p <;> simp [State.samePart, State.emit]) rfl
  generalize ({ s.emit (.smbus (some answer)) with hi := { s.hi with alertN := true } } : State) = u at out live hi frame ⊢
  have quiet : (settle s u).hi = u.hi := settle_hi_of_status (State.smbStatus_congr fun x _ => State.get_congr live x)
  exact runsTo_done _ _ _ ⟨Sends.settle out _, by rw [quiet, hi], frame.trans (.settle _ _ _ _)⟩

/-! ### SPI (R413) -/

/-- What a write of HI_SPI_CTL stores before it begins a transaction. -/
structure SpiStored (s u : State) (v : Word) : Prop where
  ndata : u.get HI_SPI_CTL_NDATA = fieldOf v 27 24
  addren : u.get HI_SPI_CTL_ADDREN = fieldOf v 9 9
  read : u.get HI_SPI_CTL_READ = fieldOf v 8 8
  cmd : u.get HI_SPI_CTL_CMD = fieldOf v 7 0
  hi : u.hi = s.hi
  out : u.out = s.out
  word : ∀ r : Reg, r.addr ≠ HI_SPI_CTL.addr → u.word r = s.word r
  frame : Frame s u [] (· ∈ [HI_SPI_CTL_NDATA, HI_SPI_CTL_ADDREN, HI_SPI_CTL_READ, HI_SPI_CTL_CMD])

theorem State.get_set_fieldOf (s : State) (x : Fld) (v : Word) (h : x.inWord) : (s.set x (fieldOf v x.hi x.lo)).get x = fieldOf v x.hi x.lo :=
  (State.get_set _ _ _ h).trans (Nat.mod_eq_of_lt (fieldOf_lt _ _ _))

/-- A further field of HI_SPI_CTL. -/
theorem spiField_step (u : State) {x : Fld} (n : Nat) (reg : x.reg = HI_SPI_CTL) (h : x.inWord) :
    (∀ y : Fld, x.apart y → (u.set x n).get y = u.get y) ∧ (u.set x n).hi = u.hi ∧ (u.set x n).out = u.out ∧
    ∀ r : Reg, r.addr ≠ HI_SPI_CTL.addr → (u.set x n).word r = u.word r :=
  ⟨fun _ => State.get_set_apart _ _ _ _ h, State.set_hi _ _ _, State.set_out _ _ _, fun _ hr => State.word_set_ne _ _ _ _ (reg ▸ Ne.symm hr)⟩

theorem State.setClamped_within (s : State) (x : Fld) {v lo hi : Nat} (low : lo ≤ v) (high : v ≤ hi) : s.setClamped x v lo hi = s.set x v := by
  unfold State.setClamped
  dsimp only
  rw [if_neg (by omega), Nat.min_eq_right high, Nat.max_eq_right low]

theorem State.spiStored (s : State) (v : Word) (few : fieldOf v 27 24 ≤ 8) : SpiStored s ((((s.setClamped HI_SPI_CTL_NDATA (fieldOf v 27 24) 0 8).set
    HI_SPI_CTL_ADDREN (fieldOf v 9 9)).set HI_SPI_CTL_READ (fieldOf v 8 8)).set HI_SPI_CTL_CMD (fieldOf v 7 0)) v := by
  rw [s.setClamped_within _ (Nat.zero_le _) few]
  have ndata := s.get_set_fieldOf HI_SPI_CTL_NDATA v (Fld.inWord_of _ rfl)
  have first := Frame.set s [] (· ∈ [HI_SPI_CTL_NDATA, HI_SPI_CTL_ADDREN, HI_SPI_CTL_READ, HI_SPI_CTL_CMD]) HI_SPI_CTL_NDATA (fieldOf v 27 24)
    (Fld.inWord_of _ rfl) (by simp)
  obtain ⟨-, hi1, out1, word1⟩ := spiField_step s (x := HI_SPI_CTL_NDATA) (fieldOf v 27 24) rfl (Fld.inWord_of _ rfl)
  change (s.set HI_SPI_CTL_NDATA (fieldOf v 27 24)).get HI_SPI_CTL_NDATA = fieldOf v 27 24 at ndata
  generalize s.set HI_SPI_CTL_NDATA (fieldOf v 27 24) = a at *
  have addren := a.get_set_fieldOf HI_SPI_CTL_ADDREN v (Fld.inWord_of _ rfl)
  have second := Frame.set a [] (· ∈ [HI_SPI_CTL_NDATA, HI_SPI_CTL_ADDREN, HI_SPI_CTL_READ, HI_SPI_CTL_CMD]) HI_SPI_CTL_ADDREN (fieldOf v 9 9)
    (Fld.inWord_of _ rfl) (by simp)
  obtain ⟨kept2, hi2, out2, word2⟩ := spiField_step a (x := HI_SPI_CTL_ADDREN) (fieldOf v 9 9) rfl (Fld.inWord_of _ rfl)
  change (a.set HI_SPI_CTL_ADDREN (fieldOf v 9 9)).get HI_SPI_CTL_ADDREN = fieldOf v 9 9 at addren
  generalize a.set HI_SPI_CTL_ADDREN (fieldOf v 9 9) = b at *
  have read := b.get_set_fieldOf HI_SPI_CTL_READ v (Fld.inWord_of _ rfl)
  have third := Frame.set b [] (· ∈ [HI_SPI_CTL_NDATA, HI_SPI_CTL_ADDREN, HI_SPI_CTL_READ, HI_SPI_CTL_CMD]) HI_SPI_CTL_READ (fieldOf v 8 8)
    (Fld.inWord_of _ rfl) (by simp)
  obtain ⟨kept3, hi3, out3, word3⟩ := spiField_step b (x := HI_SPI_CTL_READ) (fieldOf v 8 8) rfl (Fld.inWord_of _ rfl)
  change (b.set HI_SPI_CTL_READ (fieldOf v 8 8)).get HI_SPI_CTL_READ = fieldOf v 8 8 at read
  generalize b.set HI_SPI_CTL_READ (fieldOf v 8 8) = c at *
  have cmd := c.get_set_fieldOf HI_SPI_CTL_CMD v (Fld.inWord_of _ rfl)
  have fourth := Frame.set c [] (· ∈ [HI_SPI_CTL_NDATA, HI_SPI_CTL_ADDREN, HI_SPI_CTL_READ, HI_SPI_CTL_CMD]) HI_SPI_CTL_CMD (fieldOf v 7 0)
    (Fld.inWord_of _ rfl) (by simp)
  obtain ⟨kept4, hi4, out4, word4⟩ := spiField_step c (x := HI_SPI_CTL_CMD) (fieldOf v 7 0) rfl (Fld.inWord_of _ rfl)
  exact {
    ndata := (kept4 HI_SPI_CTL_NDATA (Fld.apart_of _ _ rfl rfl)).trans ((kept3 HI_SPI_CTL_NDATA (Fld.apart_of _ _ rfl rfl)).trans
      ((kept2 HI_SPI_CTL_NDATA (Fld.apart_of _ _ rfl rfl)).trans ndata))
    addren := (kept4 HI_SPI_CTL_ADDREN (Fld.apart_of _ _ rfl rfl)).trans ((kept3 HI_SPI_CTL_ADDREN (Fld.apart_of _ _ rfl rfl)).trans addren)
    read := (kept4 HI_SPI_CTL_READ (Fld.apart_of _ _ rfl rfl)).trans read
    cmd := cmd
    hi := ((hi4.trans hi3).trans hi2).trans hi1
    out := ((out4.trans out3).trans out2).trans out1
    word := fun r hr => (((word4 r hr).trans (word3 r hr)).trans (word2 r hr)).trans (word1 r hr)
    frame := ((first.trans second).trans third).trans fourth }

theorem SpiStored.apart {y z : Fld} (hy : y ∈ [HI_SPI_CTL_NDATA, HI_SPI_CTL_ADDREN, HI_SPI_CTL_READ, HI_SPI_CTL_CMD])
    (hz : z.reg.addr ≠ HI_SPI_CTL.addr ∨ z = HI_SPI_CTL_BUSY) : y.apart z := by
  simp only [List.mem_cons, List.not_mem_nil, or_false] at hy
  obtain ne | rfl := hz
  · obtain rfl | rfl | rfl | rfl := hy <;> exact .inl (Ne.symm ne)
  · obtain rfl | rfl | rfl | rfl := hy <;> exact Fld.apart_of _ _ rfl rfl

theorem SpiStored.get {s u : State} {v : Word} (h : SpiStored s u v) {x : Fld} (notPba : x.reg.notPba)
    (hx : x.reg.addr ≠ HI_SPI_CTL.addr ∨ x = HI_SPI_CTL_BUSY) : u.get x = s.get x :=
  h.frame.reg x notPba fun _ hy => SpiStored.apart hy hx

theorem fieldOf_bit (v : Word) (i : Nat) : fieldOf v i i = if v.getLsbD i then 1 else 0 := by
  unfold fieldOf
  rw [show i + 1 - i = 1 by omega, BitVec.getLsbD, Nat.testBit_eq_decide_div_mod_eq]
  split <;> simp_all

theorem State.on_of_bit {u : State} {x : Fld} {v : Word} {i : Nat} (h : u.get x = fieldOf v i i) : u.on x = v.getLsbD i := by
  rw [State.on_of_get h, fieldOf_bit]
  cases v.getLsbD i <;> rfl

theorem State.spiByte_congr {s t : State} (low : t.get HI_SPI_D0_D0 = s.get HI_SPI_D0_D0) (high : t.get HI_SPI_D1_D1 = s.get HI_SPI_D1_D1) :
    t.spiByte = s.spiByte := by
  funext k
  unfold State.spiByte
  rw [low, high]

/-- R413: the bytes of a transaction. -/
def State.spiSent (s : State) (v : Word) : List (BitVec 8) :=
  [v.setWidth 8] ++
    (if v.getLsbD 9 then [BitVec.ofNat 8 (s.get HI_SPI_ADDR_ADDR / 65536), BitVec.ofNat 8 (s.get HI_SPI_ADDR_ADDR / 256),
      BitVec.ofNat 8 (s.get HI_SPI_ADDR_ADDR)] else []) ++
    (if v.getLsbD 8 then [] else (List.range (fieldOf v 27 24)).map s.spiByte)

theorem spiGo_starts_runs {s : State} {v : Word} (ready : s.ready) (go : v.getLsbD 31) (few : fieldOf v 27 24 ≤ 8) (free : s.get MC_STAT_STATE ≠ 1)
    (idle : s.on HI_SPI_CTL_BUSY = false) : RunsTo (exec (.spiGo v) s) fun t =>
      t.get HI_SPI_CTL_BUSY = 1 ∧ t.hi.spi = some (fieldOf v 27 24, v.getLsbD 8) ∧
      { t.hi with spi := s.hi.spi } = s.hi ∧ Sends s t (.spi (s.spiSent v)) ∧ Frame s t [.hi] (fun y => y.reg = HI_SPI_CTL) := by
  have stored := s.spiStored v few
  change RunsTo (hostDone s (s.writeSpiCtl v)) _
  unfold State.writeSpiCtl
  dsimp only
  generalize State.set _ HI_SPI_CTL_CMD (fieldOf v 7 0) = u at stored ⊢
  have busy : u.on HI_SPI_CTL_BUSY = false := (State.on_congr (stored.get (.inl (by decide)) (.inr rfl))).trans idle
  have bytes : u.spiByte = s.spiByte := State.spiByte_congr (stored.get (.inl (by decide)) (.inl (by decide)))
    (stored.get (.inl (by decide)) (.inl (by decide)))
  have addr : u.get HI_SPI_ADDR_ADDR = s.get HI_SPI_ADDR_ADDR := stored.get (.inl (by decide)) (.inl (by decide))
  have cmd : BitVec.ofNat 8 (fieldOf v 7 0) = v.setWidth 8 := BitVec.eq_of_toNat_eq (by simp [fieldOf])
  rw [if_pos ⟨by rw [fieldOf_bit, go]; rfl, by rw [busy]; rfl, by rw [stored.get (.inr (by decide)) (.inl (by decide))]; exact free⟩,
    stored.ndata, State.on_of_bit stored.read, State.on_of_bit stored.addren, stored.cmd, addr, bytes, cmd]
  change RunsTo (hostDone s { (u.set HI_SPI_CTL_BUSY 1).emit (.spi (s.spiSent v)) with
    hi := { u.hi with spi := some (fieldOf v 27 24, v.getLsbD 8) } }) _
  have started : (u.set HI_SPI_CTL_BUSY 1).get HI_SPI_CTL_BUSY = 1 := State.get_set _ _ _ (Fld.inWord_of _ rfl)
  have out : (u.set HI_SPI_CTL_BUSY 1).out = s.out := (State.set_out _ _ _).trans stored.out
  have second : Frame u (u.set HI_SPI_CTL_BUSY 1) [] (· = HI_SPI_CTL_BUSY) := .set _ _ _ _ _ (Fld.inWord_of _ rfl) rfl
  generalize u.set HI_SPI_CTL_BUSY 1 = w at started out second ⊢
  have frame : Frame s w [.hi] (fun y => y.reg = HI_SPI_CTL) := (stored.frame.mono (by simp) fun y hy => by
      simp only [List.mem_cons, List.not_mem_nil, or_false] at hy
      obtain rfl | rfl | rfl | rfl := hy <;> rfl).trans (second.mono (by simp) fun y hy => hy ▸ rfl)
  have third : Frame w { w.emit (.spi (s.spiSent v)) with hi := { u.hi with spi := some (fieldOf v 27 24, v.getLsbD 8) } } [.hi] (fun _ => False) :=
    (Frame.emit _ _ _ _).trans (.setHi _ _ _ _ (by simp))
  have sent : State.out { w.emit (.spi (s.spiSent v)) with hi := { u.hi with spi := some (fieldOf v 27 24, v.getLsbD 8) } } =
      .spi (s.spiSent v) :: s.out := by
    rw [← out]
    rfl
  have hi : State.hi { w.emit (.spi (s.spiSent v)) with hi := { u.hi with spi := some (fieldOf v 27 24, v.getLsbD 8) } } =
    { u.hi with spi := some (fieldOf v 27 24, v.getLsbD 8) } := rfl
  generalize ({ w.emit (.spi (s.spiSent v)) with hi := { u.hi with spi := some (fieldOf v 27 24, v.getLsbD 8) } } : State) = x at third sent hi ⊢
  have all := frame.trans (third.mono (fun _ => id) fun _ => False.elim)
  have spi : ∀ x ∈ statusFields, HI_SPI_CTL.addr ≠ x.reg.addr := by decide
  have quiet : (settle s x).hi = x.hi := settle_hi_of_status (all.smbStatus fun y hy x hx => .inl (hy ▸ spi x hx))
  refine runsTo_hostDone _ _ _ ready ⟨?_, by rw [quiet, hi], by rw [quiet, hi, stored.hi], Sends.settle sent _, all.trans (.settle _ _ _ _)⟩
  rw [get_settle _ _ _ (.inl (by decide)), third.reg _ (.inl (by decide)) fun _ => False.elim, started]

theorem spiGo_busy_runs {s : State} {v : Word} (ready : s.ready) (few : fieldOf v 27 24 ≤ 8) (busy : s.on HI_SPI_CTL_BUSY) :
    RunsTo (exec (.spiGo v) s) fun t =>
      t.out = s.out ∧ Frame s t [] (· ∈ [HI_SPI_CTL_NDATA, HI_SPI_CTL_ADDREN, HI_SPI_CTL_READ, HI_SPI_CTL_CMD]) := by
  have stored := s.spiStored v few
  change RunsTo (hostDone s (s.writeSpiCtl v)) _
  unfold State.writeSpiCtl
  dsimp only
  generalize State.set _ HI_SPI_CTL_CMD (fieldOf v 7 0) = u at stored ⊢
  have still : u.on HI_SPI_CTL_BUSY = true := (State.on_congr (stored.get (.inl (by decide)) (.inr rfl))).trans busy
  rw [still, if_neg (fun h => absurd h.2.1 (by decide))]
  have causes : ∀ b, u.causeBit b = s.causeBit b := State.causeBit_of_words stored.word (by decide) fun r high => by
    simp only [HI_SPI_CTL]
    omega
  exact runsTo_hostDone _ _ _ ready ⟨(settle_out_of_quiet s u fun b h => causes b ▸ h).trans stored.out, stored.frame.trans (.settle _ _ _ _)⟩

/-- R413: the bits that hold byte k of a transaction. -/
def spiField (k : Nat) : Fld := ⟨if k < 4 then HI_SPI_D0 else HI_SPI_D1, 8 * (k % 4) + 7, 8 * (k % 4)⟩

theorem spiField_inWord (k : Nat) : (spiField k).inWord := ⟨Nat.le_add_right _ _, by
  simp only [spiField]
  omega⟩

theorem spiField_reg (k : Nat) : (spiField k).reg = HI_SPI_D0 ∨ (spiField k).reg = HI_SPI_D1 := by
  unfold spiField
  dsimp only
  split
  · exact .inl rfl
  · exact .inr rfl

theorem spiField_apart {j k : Nat} (hj : j < 8) (hk : k < 8) (ne : j ≠ k) : (spiField j).apart (spiField k) := by
  unfold spiField
  by_cases lj : j < 4 <;> by_cases lk : k < 4
  · exact .inr ⟨by simp only [lj, lk, if_true], by dsimp only; omega⟩
  · exact .inl (by simp only [lj, lk, if_true, if_false]; decide)
  · exact .inl (by simp only [lj, lk, if_true, if_false]; decide)
  · exact .inr ⟨by simp only [lj, lk, if_false], by dsimp only; omega⟩

theorem State.spiByte_eq (s : State) (k : Nat) : s.spiByte k = BitVec.ofNat 8 (s.get (spiField k)) := by
  have width : 8 * (k % 4) + 7 + 1 - 8 * (k % 4) = 8 := by omega
  have whole (w : Word) : w.toNat % 2 ^ 32 = w.toNat := Nat.mod_eq_of_lt w.isLt
  apply BitVec.eq_of_toNat_eq
  unfold State.spiByte spiField
  by_cases low : k < 4
  · simp only [low, if_true, State.get_eq, fieldOf, HI_SPI_D0_D0, BitVec.toNat_ofNat, width, pow_zero, Nat.div_one, Nat.sub_zero, Nat.mod_mod, whole]
  · simp only [low, if_false, State.get_eq, fieldOf, HI_SPI_D1_D1, BitVec.toNat_ofNat, width, pow_zero, Nat.div_one, Nat.sub_zero, Nat.mod_mod, whole]

theorem State.setSpiByte_eq (s : State) (k : Nat) (b : Byte) : s.setSpiByte k b = s.set (spiField k) b.toNat := rfl

/-- R413: the bytes read are stored one after the other. -/
theorem State.setSpiBytes (s : State) (b : Nat → Byte) {n : Nat} (few : n ≤ 8) :
    (∀ k < n, (s.forEach (List.range n) fun s k => s.setSpiByte k (b k)).spiByte k = b k) ∧
    (s.forEach (List.range n) fun s k => s.setSpiByte k (b k)).hi = s.hi ∧
    Frame s (s.forEach (List.range n) fun s k => s.setSpiByte k (b k)) [] (fun y => y.reg = HI_SPI_D0 ∨ y.reg = HI_SPI_D1) := by
  have all := foldl_establishes (fun (s : State) k => s.setSpiByte k (b k))
    (fun u => u.hi = s.hi ∧ Frame s u [] (fun y => y.reg = HI_SPI_D0 ∨ y.reg = HI_SPI_D1))
    (fun k u => u.get (spiField k) = (b k).toNat) (List.range n)
    (fun u ⟨hi, frame⟩ k _ => ⟨(State.set_hi _ _ _).trans hi, frame.trans (.set _ _ _ _ _ (spiField_inWord k) (spiField_reg k))⟩)
    (fun u _ k _ => by
      rw [State.setSpiByte_eq, State.get_set _ _ _ (spiField_inWord k)]
      exact Nat.mod_eq_of_lt ((b k).isLt.trans_eq (by
        simp only [spiField]
        rw [show 8 * (k % 4) + 7 + 1 - 8 * (k % 4) = 8 by omega])))
    (fun u _ j hj k hk h => by
      by_cases same : j = k
      · subst same
        rw [State.setSpiByte_eq, State.get_set _ _ _ (spiField_inWord j)]
        exact Nat.mod_eq_of_lt ((b j).isLt.trans_eq (by
          simp only [spiField]
          rw [show 8 * (j % 4) + 7 + 1 - 8 * (j % 4) = 8 by omega]))
      · rw [State.setSpiByte_eq, State.get_set_apart _ _ _ _ (spiField_inWord j)
          (spiField_apart ((List.mem_range.1 hj).trans_le few) ((List.mem_range.1 hk).trans_le few) same)]
        exact h) s ⟨rfl, .refl _ _ _⟩
  refine ⟨fun k hk => ?_, all.1.1, all.1.2⟩
  rw [State.spiByte_eq]
  unfold State.forEach
  rw [all.2 k (List.mem_range.2 hk)]
  exact BitVec.ofNat_toNat 8 (b k)

theorem spiDone_runs {s : State} {rd : List (BitVec 8)} {n : Nat} (transaction : s.hi.spi = some (n, true)) (few : n ≤ 8) (len : rd.length = n) :
    RunsTo (exec (.spiDone rd) s) fun t =>
      t.get HI_SPI_CTL_BUSY = 0 ∧ t.hi = { s.hi with spi := none } ∧ (∀ k < n, t.spiByte k = rd.getD k 0) ∧
      Frame s t [.hi] (fun y => y = HI_SPI_CTL_BUSY ∨ y.reg = HI_SPI_D0 ∨ y.reg = HI_SPI_D1) := by
  obtain ⟨bytes, hi, first⟩ := s.setSpiBytes (fun k => rd.getD k 0xFF) few
  change RunsTo (execSpiDone rd s) _
  unfold execSpiDone
  rw [transaction]
  dsimp only
  rw [if_pos rfl]
  generalize s.forEach (List.range n) _ = u at bytes hi first ⊢
  have ended : (u.set HI_SPI_CTL_BUSY 0).get HI_SPI_CTL_BUSY = 0 := State.get_set _ _ _ (Fld.inWord_of _ rfl)
  have second : Frame u (u.set HI_SPI_CTL_BUSY 0) [] (· = HI_SPI_CTL_BUSY) := .set _ _ _ _ _ (Fld.inWord_of _ rfl) rfl
  generalize u.set HI_SPI_CTL_BUSY 0 = v at ended second ⊢
  have third : Frame v { v with hi := { u.hi with spi := none } } [.hi] (fun _ => False) := .setHi _ _ _ _ (by simp)
  have hi' : State.hi { v with hi := { u.hi with spi := none } } = { u.hi with spi := none } := rfl
  generalize ({ v with hi := { u.hi with spi := none } } : State) = w at third hi' ⊢
  have all : Frame s w [.hi] (fun y => y = HI_SPI_CTL_BUSY ∨ y.reg = HI_SPI_D0 ∨ y.reg = HI_SPI_D1) :=
    ((first.mono (by simp) fun _ => .inr).trans (second.mono (by simp) fun _ => .inl)).trans (third.mono (fun _ => id) fun _ => False.elim)
  have apart : ∀ x ∈ statusFields, HI_SPI_CTL.addr ≠ x.reg.addr ∧ HI_SPI_D0.addr ≠ x.reg.addr ∧ HI_SPI_D1.addr ≠ x.reg.addr := by decide
  have quiet : (settle s w).hi = w.hi := settle_hi_of_status (all.smbStatus fun y hy x hx => by
    obtain ⟨ctl, low, high⟩ := apart x hx
    obtain rfl | h | h := hy
    · exact .inl ctl
    · exact .inl (h ▸ low)
    · exact .inl (h ▸ high))
  refine runsTo_done _ _ _ ⟨?_, by rw [quiet, hi', hi], fun k hk => ?_, all.trans (.settle _ _ _ _)⟩
  · rw [get_settle _ _ _ (.inl (by decide)), third.reg _ (.inl (by decide)) fun _ => False.elim, ended]
  · have kept : ∀ x : Fld, x.reg.notPba → HI_SPI_CTL.addr ≠ x.reg.addr → (settle s w).get x = u.get x := fun x notPba ne => by
      rw [get_settle _ _ _ notPba, third.reg _ notPba fun _ => False.elim, second.reg _ notPba fun y hy => hy ▸ .inl ne]
    rw [State.spiByte_congr (kept HI_SPI_D0_D0 (.inl (by decide)) (by decide)) (kept HI_SPI_D1_D1 (.inl (by decide)) (by decide)), bytes k hk,
      List.getD_eq_getElem _ _ (len ▸ hk), List.getD_eq_getElem _ _ (len ▸ hk)]

/-! ### The test access port (R457 to R460) -/

/-- R460: the instructions that leave the function of the outputs. -/
theorem State.tapLoad_function (s : State) {i : TapInstr} (keeps : i.drives = false) : s.tapLoad i = { s with sys := { s.sys with tap := i } } := by
  unfold State.tapLoad
  dsimp only
  rw [if_neg (by rw [keeps]; exact Bool.false_ne_true)]

theorem tapSelect_runs (s : State) {i : TapInstr} (keeps : i.drives = false) : RunsTo (done s (s.tapLoad i)) fun t =>
    t.sys = { s.sys with tap := i } ∧ t.scanOutputs = none ∧ Frame s t [.sys] (fun _ => False) := by
  rw [s.tapLoad_function keeps]
  refine runsTo_done _ _ _ ⟨settle_sys _ _, ?_, (Frame.setSys _ _ _ _ (by simp)).trans (.settle _ _ _ _)⟩
  unfold State.scanOutputs
  rw [settle_sys]
  exact if_pos (by
    dsimp only
    rw [keeps]
    rfl)

theorem idcode_runs {s : State} (v : BitVec 89) (is : s.idcode.setWidth 89 = v) : RunsTo (exec .idcode s) fun t =>
    t.sys = { s.sys with tap := .idcode } ∧ Sends s t (.tdo v) ∧ Frame s t [.sys] (fun _ => False) := by
  change RunsTo (done s ((s.tapLoad .idcode).emit (.tdo (s.idcode.setWidth 89)))) _
  rw [is, s.tapLoad_function rfl]
  exact runsTo_done _ _ _ ⟨settle_sys _ _, Sends.settle rfl _, ((Frame.setSys s [.sys] _ _ (by simp)).trans (.emit _ _ _ _)).trans (.settle _ _ _ _)⟩

/-- R458: the identification word with the manufacturer that the NVS holds. -/
theorem State.idcode_known {s : State} (answers : 2 ≤ s.get GL_STATUS_BOOT) :
    s.idcode.setWidth 89 = BitVec.ofNat 89 (0x17512001 + 2 * s.sys.manuf.toNat) := by
  have small := s.sys.manuf.isLt
  apply BitVec.eq_of_toNat_eq
  unfold State.idcode
  rw [if_pos answers]
  simp only [BitVec.toNat_setWidth, BitVec.toNat_ofNat]
  omega

theorem State.idcode_early {s : State} (early : s.get GL_STATUS_BOOT < 2) : s.idcode.setWidth 89 = 0x17512001 := by
  unfold State.idcode
  rw [if_neg (Nat.not_le.2 early)]
  rfl

theorem samplePreload_runs (s : State) (pins load : BitVec 89) : RunsTo (exec (.samplePreload pins load) s) fun t =>
      t.sys = { s.sys with tap := .sample, bsr := load } ∧ Sends s t (.tdo pins) ∧ t.scanOutputs = none ∧
      Frame s t [.sys] (fun _ => False) := by
  change RunsTo (done s ((s.tapLoad .sample).scanData pins load)) _
  rw [s.tapLoad_function rfl]
  refine runsTo_done _ _ _ ⟨settle_sys _ _, Sends.settle rfl _, ?_,
    (((Frame.setSys s [.sys] _ _ (by simp)).trans (.setSys _ _ _ _ (by simp))).trans (.emit _ _ _ _)).trans (.settle _ _ _ _)⟩
  unfold State.scanOutputs
  rw [settle_sys]
  rfl

/-! ### Outputs that leave their function (R460) -/

theorem Frame.swapCancel (s : State) (ps : List Part) (w : Fld → Prop) (x : Nat) (h : Part.tw ∈ ps) : Frame s (s.swapCancel x) ps w := by
  unfold State.swapCancel
  split
  · split
    · exact .setTw _ _ _ _ h
    · exact .refl _ _ _
  · exact .refl _ _ _

/-- R355: a port that retrains. -/
theorem State.portRetrains_shows (s : State) {x : Nat} (small : x < 4) : (s.portRetrains x).portState x = portRetrain ∧
    Frame s (s.portRetrains x) [.cl, .tw] (fun y => y = CL_P_STAT_STATE x ∨ y = CL_P_TRAIN_RETRAIN x) := by
  unfold State.portRetrains
  have first : Frame s (s.setPort x { s.port x with fails := 0, keep := true, tryAt := s.time, downAt := s.time, resend := none }) [.cl, .tw]
    (fun y => y = CL_P_STAT_STATE x ∨ y = CL_P_TRAIN_RETRAIN x) := .setPort _ _ _ _ _ (by simp)
  generalize s.setPort x _ = u at first ⊢
  have state : (u.set (CL_P_STAT_STATE x) portRetrain).get (CL_P_STAT_STATE x) = portRetrain := State.get_set _ _ _ (Fld.inWord_of _ rfl)
  have second : Frame u (u.set (CL_P_STAT_STATE x) portRetrain) [.cl, .tw] (fun y => y = CL_P_STAT_STATE x ∨ y = CL_P_TRAIN_RETRAIN x) :=
    .set _ _ _ _ _ (Fld.inWord_of _ rfl) (.inl rfl)
  generalize u.set (CL_P_STAT_STATE x) portRetrain = v at state second ⊢
  have counted : (v.count (CL_P_TRAIN_RETRAIN x) 1).get (CL_P_STAT_STATE x) = v.get (CL_P_STAT_STATE x) :=
    State.get_count_apart _ _ _ _ (Fld.inWord_of _ rfl) (.inl (by simp only [CL_P_TRAIN_RETRAIN, CL_P_TRAIN, CL_P_STAT_STATE, CL_P_STAT]; omega))
  have third : Frame v (v.count (CL_P_TRAIN_RETRAIN x) 1) [.cl, .tw] (fun y => y = CL_P_STAT_STATE x ∨ y = CL_P_TRAIN_RETRAIN x) :=
    .count _ _ _ _ _ (Fld.inWord_of _ rfl) (.inr rfl)
  generalize v.count (CL_P_TRAIN_RETRAIN x) 1 = w at counted third ⊢
  have fourth : Frame w (w.swapCancel x) [.cl, .tw] (fun _ => False) := .swapCancel _ _ _ _ (by simp)
  refine ⟨?_, ((first.trans second).trans third).trans (fourth.mono (fun _ => id) fun _ => False.elim)⟩
  unfold State.portState
  rw [fourth.reg _ (portState_notPba x small) fun _ => False.elim, counted, state]

theorem State.swapCancel_out (s : State) (x : Nat) : (s.swapCancel x).out = s.out := by
  unfold State.swapCancel
  split
  · split <;> rfl
  · rfl

theorem State.portRetrains_out (s : State) (x : Nat) : (s.portRetrains x).out = s.out := by
  unfold State.portRetrains
  rw [State.swapCancel_out, State.count_out, State.set_out]
  rfl

/-- What the loss of the links may change. -/
def scanField (y : Fld) : Prop := y.reg = HI_LINK ∨ ∃ x, y.reg = CL_P_STAT x ∨ y = CL_P_TRAIN_RETRAIN x

/-- R460: the PCIe link is down, and the ports that were UP retrain. -/
theorem State.scanLinks_shows (s : State) : s.scanLinks.get HI_LINK_WIDTH = 0 ∧ (∀ x < 4, s.portUp x → s.scanLinks.portState x = portRetrain) ∧
    s.scanLinks.out = s.out ∧ Frame s s.scanLinks [.cl, .tw] scanField := by
  unfold State.scanLinks
  dsimp only
  have width : (s.set HI_LINK_WIDTH 0).get HI_LINK_WIDTH = 0 := State.get_set _ _ _ (Fld.inWord_of _ rfl)
  have first : Frame s (s.set HI_LINK_WIDTH 0) [.cl, .tw] (·.reg = HI_LINK) := .set _ _ _ _ _ (Fld.inWord_of _ rfl) rfl
  have out : (s.set HI_LINK_WIDTH 0).out = s.out := State.set_out _ _ _
  generalize s.set HI_LINK_WIDTH 0 = u at width first out ⊢
  have width' := State.get_set_apart u HI_LINK_GEN HI_LINK_WIDTH 0 (Fld.inWord_of _ rfl) (Fld.apart_of _ _ rfl rfl)
  have second : Frame u (u.set HI_LINK_GEN 0) [.cl, .tw] (·.reg = HI_LINK) := .set _ _ _ _ _ (Fld.inWord_of _ rfl) rfl
  have silent : (u.set HI_LINK_GEN 0).out = s.out := (State.set_out _ _ _).trans out
  generalize u.set HI_LINK_GEN 0 = v at width' second silent ⊢
  have down := first.trans second
  have up : ∀ x < 4, v.portUp x = s.portUp x := fun x hx => State.portUp_congr (down.reg _ (portState_notPba x hx) fun y hy => .inl (by
    rw [hy]
    simp only [HI_LINK, CL_P_STAT_STATE, CL_P_STAT]
    omega))
  have named : ∀ x ∈ (List.range 4).filter v.portUp, x < 4 := fun x hx => List.mem_range.1 (List.mem_filter.1 hx).1
  have all := foldl_establishes State.portRetrains
    (fun w => w.get HI_LINK_WIDTH = 0 ∧ w.out = v.out ∧ Frame v w [.cl, .tw] (fun y => ∃ x, y.reg = CL_P_STAT x ∨ y = CL_P_TRAIN_RETRAIN x))
    (fun x w => w.portState x = portRetrain) ((List.range 4).filter v.portUp)
    (fun w ⟨link, out, frame⟩ x hx => by
      obtain ⟨-, step⟩ := w.portRetrains_shows (named x hx)
      refine ⟨(step.reg _ (.inl (by decide)) fun y hy => ?_).trans link, (w.portRetrains_out x).trans out, frame.trans (step.mono
          (fun _ => id) fun y hy => ⟨x, ?_⟩)⟩
      · obtain rfl | rfl := hy
        · exact .inl (by simp only [HI_LINK_WIDTH, HI_LINK, CL_P_STAT_STATE, CL_P_STAT]; have := named x hx; omega)
        · exact .inl (by simp only [HI_LINK_WIDTH, HI_LINK, CL_P_TRAIN_RETRAIN, CL_P_TRAIN]; have := named x hx; omega)
      · obtain rfl | rfl := hy
        · exact .inl rfl
        · exact .inr rfl)
    (fun w _ x hx => (w.portRetrains_shows (named x hx)).1)
    (fun w _ j hj x hx h => by
      by_cases same : j = x
      · exact same ▸ (w.portRetrains_shows (named j hj)).1
      · refine ((w.portRetrains_shows (named j hj)).2.reg _ (portState_notPba x (named x hx)) fun y hy => ?_).trans h
        obtain rfl | rfl := hy
        · exact .inl (by simp only [CL_P_STAT_STATE, CL_P_STAT]; omega)
        · exact .inl (by simp only [CL_P_STAT_STATE, CL_P_STAT, CL_P_TRAIN_RETRAIN, CL_P_TRAIN]; omega)) v ⟨width'.trans width, rfl, .refl _ _ _⟩
  exact ⟨all.1.1, fun x hx h => all.2 x (List.mem_filter.2 ⟨List.mem_range.2 hx, by rw [up x hx, h]⟩),
    all.1.2.1.trans silent, (down.mono (fun _ => id) fun _ => .inl).trans (all.1.2.2.mono (fun _ => id) fun _ => .inr)⟩

/-- R460: from `s` to `t` an instruction that drives the outputs has been selected. -/
structure Driven (s t : State) (i : TapInstr) : Prop where
  sys : t.sys = { s.sys with tap := i }
  width : t.get HI_LINK_WIDTH = 0
  retrain : ∀ x < 4, s.portUp x → t.portState x = portRetrain
  out : t.out = s.out
  frame : Frame s t [.sys, .cl, .tw] scanField

theorem State.tapLoad_drives (s : State) {i : TapInstr} (drives : i.drives) : Driven s (s.tapLoad i) i := by
  have eq : s.tapLoad i = State.scanLinks { s with sys := { s.sys with tap := i } } := if_pos drives
  rw [eq]
  have first : Frame s { s with sys := { s.sys with tap := i } } [.sys] (fun _ => False) := .setSys _ _ _ _ (by simp)
  have sys : State.sys { s with sys := { s.sys with tap := i } } = { s.sys with tap := i } := rfl
  have up : ∀ x, State.portUp { s with sys := { s.sys with tap := i } } x = s.portUp x := fun _ => rfl
  have out : State.out { s with sys := { s.sys with tap := i } } = s.out := rfl
  generalize ({ s with sys := { s.sys with tap := i } } : State) = u at first sys up out ⊢
  obtain ⟨width, retrain, silent, second⟩ := u.scanLinks_shows
  exact {
    sys := (second.part .sys (by simp)).trans sys
    width := width
    retrain := fun x hx h => retrain x hx ((up x).trans h)
    out := silent.trans out
    frame := (first.mono (by simp) fun _ => False.elim).trans (second.mono (by simp) fun _ => id) }

theorem Driven.settled {s t : State} {i : TapInstr} (h : Driven s t i) (v : State) : Frame s (settle v t) [.sys, .cl, .tw] scanField ∧
    (settle v t).sys = { s.sys with tap := i } ∧ (settle v t).get HI_LINK_WIDTH = 0 ∧
    ∀ x < 4, s.portUp x → (settle v t).portState x = portRetrain :=
  ⟨h.frame.trans (.settle _ _ _ _), (settle_sys _ _).trans h.sys, (get_settle _ _ _ (.inl (by decide))).trans h.width,
    fun x hx up => (get_settle _ _ _ (portState_notPba x hx)).trans (h.retrain x hx up)⟩

/-- R460: what a driven register presents. -/
theorem State.scanOutputs_register {s : State} (drives : s.sys.tap.drives) (function : s.sys.tap ≠ .highz) :
    s.scanOutputs = some (some s.sys.bsr) := by
  unfold State.scanOutputs
  rw [drives, if_neg (by decide), if_neg function]

theorem State.outputBall_register {s : State} {v : BitVec 89} (register : s.scanOutputs = some (some v)) (row col : Nat) (f : Option Bool) :
    s.outputBall row col f = if scanBit v row col .control = Config.scanDrive then some (scanBit v row col .data) else none := by
  unfold State.outputBall
  rw [register]

theorem State.outputBall_none {s : State} (off : s.scanOutputs = some none) (row col : Nat) (f : Option Bool) : s.outputBall row col f = none := by
  unfold State.outputBall
  rw [off]

/-- R457, R460: the instructions that shift the pins out and drive the outputs from the register. -/
theorem extest_runs (s : State) (pins load : BitVec 89) {i : TapInstr} (drives : i.drives) (register : i ≠ .highz) :
    RunsTo (done s ((s.tapLoad i).scanData pins load)) fun t =>
      t.sys.bsr = load ∧ t.sys.tap.drives ∧ Sends s t (.tdo pins) ∧ t.scanOutputs = some (some load) ∧
      (∀ row col f, t.outputBall row col f = if scanBit load row col .control = Config.scanDrive then
        some (scanBit load row col .data) else none) ∧
      t.get HI_LINK_WIDTH = 0 ∧ (∀ x < 4, s.portUp x → t.portState x = portRetrain) ∧ Frame s t [.sys, .cl, .tw] scanField := by
  have driven := s.tapLoad_drives drives
  generalize s.tapLoad i = u at driven ⊢
  have sys : (u.scanData pins load).sys = { s.sys with tap := i, bsr := load } := by
    show ({ u.sys with bsr := load } : SysState) = _
    rw [driven.sys]
  have out : (u.scanData pins load).out = .tdo pins :: s.out := by
    show Output.tdo pins :: u.out = _
    rw [driven.out]
  have second : Frame u (u.scanData pins load) [.sys, .cl, .tw] (fun _ => False) := (Frame.setSys _ _ _ _ (by simp)).trans (.emit _ _ _ _)
  generalize u.scanData pins load = v at sys out second ⊢
  have shown : (settle s v).scanOutputs = some (some load) := by
    have outputs := State.scanOutputs_register (s := settle s v) (by rw [settle_sys, sys]; exact drives) (by rw [settle_sys, sys]; exact register)
    rw [outputs, settle_sys, sys]
  refine runsTo_done _ _ _ ⟨by rw [settle_sys, sys], by rw [settle_sys, sys]; exact drives, Sends.settle out _, shown,
    State.outputBall_register shown, ?_, fun x hx up => ?_, (driven.frame.trans (second.mono (fun _ => id) fun _ => False.elim)).trans
        (.settle _ _ _ _)⟩
  · rw [get_settle _ _ _ (.inl (by decide)), second.reg _ (.inl (by decide)) fun _ => False.elim, driven.width]
  · unfold State.portState
    rw [get_settle _ _ _ (portState_notPba x hx), second.reg _ (portState_notPba x hx) fun _ => False.elim]
    exact driven.retrain x hx up

theorem highz_runs (s : State) : RunsTo (exec .highz s) fun t =>
      t.sys = { s.sys with tap := .highz } ∧ t.scanOutputs = some none ∧ (∀ row col f, t.outputBall row col f = none) ∧
      t.get HI_LINK_WIDTH = 0 ∧ (∀ x < 4, s.portUp x → t.portState x = portRetrain) ∧ Frame s t [.sys, .cl, .tw] scanField := by
  obtain ⟨frame, sys, width, retrain⟩ := (s.tapLoad_drives (i := .highz) rfl).settled s
  have off : (settle s (s.tapLoad .highz)).scanOutputs = some none := by
    unfold State.scanOutputs
    rw [sys]
    rfl
  exact runsTo_done _ _ _ ⟨sys, off, State.outputBall_none off, width, retrain, frame⟩

theorem clampTap_runs (s : State) : RunsTo (exec .clampTap s) fun t =>
      t.sys = { s.sys with tap := .clamp } ∧ t.scanOutputs = some (some s.sys.bsr) ∧ t.get HI_LINK_WIDTH = 0 ∧
      (∀ x < 4, s.portUp x → t.portState x = portRetrain) ∧ Frame s t [.sys, .cl, .tw] scanField := by
  obtain ⟨frame, sys, width, retrain⟩ := (s.tapLoad_drives (i := .clamp) rfl).settled s
  have register : (settle s (s.tapLoad .clamp)).scanOutputs = some (some s.sys.bsr) := by
    have outputs := State.scanOutputs_register (s := settle s (s.tapLoad .clamp)) (by rw [sys]; rfl) (by
      rw [sys]
      exact TapInstr.noConfusion)
    rw [outputs, sys]
  exact runsTo_done _ _ _ ⟨sys, register, width, retrain, frame⟩

/-! ### The commands of the board -/

section Smb
variable {s : State} (answers : 2 ≤ s.get GL_STATUS_BOOT) (w : Bool)
include answers

theorem smbByte_runs {v : Nat} (small : v < 256) : RunsTo (done s (s.smbRead w v)) fun t =>
    Sends s t (.smbus (some (BitVec.ofNat 16 v))) ∧ Frame s t [] (fun _ => False) := by
  have run := smbAnswer_runs answers w v
  rwa [Nat.mod_eq_of_lt small, ite_self] at run

omit answers in
/-- R411: STATUS has five bits. -/
theorem State.smbStatus_lt (s : State) : s.smbStatus < 32 := by
  unfold State.smbStatus
  split <;> split <;> split <;> split <;> split <;> decide

theorem smbStatus_runs : RunsTo (exec (.smbStatus w) s) fun t =>
    Sends s t (.smbus (some (BitVec.ofNat 16 s.smbStatus))) ∧ Frame s t [] (fun _ => False) :=
  smbByte_runs answers w (s.smbStatus_lt.trans (by decide))

theorem smbAlertclr_runs : RunsTo (exec (.smbAlertclr w) s) fun t =>
    Sends s t (.smbus (some (BitVec.ofNat 16 s.smbStatus))) ∧ t.hi.alertN ∧ Frame s t [] (fun _ => False) := by
  have run := smbRelease_runs answers w s.smbStatus
  rwa [Nat.mod_eq_of_lt (s.smbStatus_lt.trans (by decide)), ite_self] at run

theorem smbSerial_runs (k : Fin 4) : RunsTo (exec (.smbSerial k w) s) fun t =>
    Sends s t (.smbus (some (if w then s.sys.serial.extractLsb' (16 * k.val) 16
      else (s.sys.serial.extractLsb' (16 * k.val) 8).setWidth 16))) ∧ Frame s t [] (fun _ => False) := by
  have run := smbAnswer_runs answers w (s.sys.serial.toNat / 2 ^ (16 * k.val) % 65536)
  have same : BitVec.ofNat 16 (if w then s.sys.serial.toNat / 2 ^ (16 * k.val) % 65536 else s.sys.serial.toNat / 2 ^ (16 * k.val) % 65536 % 256) =
      if w then s.sys.serial.extractLsb' (16 * k.val) 16 else (s.sys.serial.extractLsb' (16 * k.val) 8).setWidth 16 := by
    apply BitVec.eq_of_toNat_eq
    cases w
    · simp [BitVec.extractLsb'_toNat, Nat.shiftRight_eq_div_pow]
    · simp [BitVec.extractLsb'_toNat, Nat.shiftRight_eq_div_pow]
  rw [same] at run
  exact run

theorem smbUnlisted_runs (c : BitVec 8)
    (unlisted : ¬(c.toNat ≤ 4 ∨ c.toNat ∈ [8, 9, 0x10, 0x11, 0x12, 0x13, 0x14] ∨ 0x18 ≤ c.toNat ∧ c.toNat ≤ 0x1B)) :
    RunsTo (exec (.smbUnlisted c w) s) fun t =>
      Sends s t (.smbus (some (if w then 0xFFFF else 0xFF))) ∧ Frame s t [] (fun _ => False) := by
  have run := smbAnswer_runs answers w 0xFFFF
  have same : BitVec.ofNat 16 (if w then 0xFFFF else 0xFFFF % 256) = if w then 0xFFFF else 0xFF := by cases w <;> rfl
  rw [same] at run
  have listed : (decide (c.toNat ≤ 4) || [0x08, 0x09, 0x10, 0x11, 0x12, 0x13, 0x14].contains c.toNat ||
      decide (0x18 ≤ c.toNat ∧ c.toNat ≤ 0x1B)) = false := by
    rw [← Bool.not_eq_true]
    refine fun h => unlisted ?_
    simp only [Bool.or_eq_true, decide_eq_true_eq, List.contains_iff_mem, or_assoc] at h
    exact h
  change RunsTo (execSmbUnlisted c w s) _
  unfold execSmbUnlisted
  dsimp only
  rw [listed, doneIf_pos (by decide)]
  exact run

theorem smbAlertResponse_runs (low : s.hi.alertN = false) : RunsTo (exec .smbAlertResponse s) fun t =>
    Sends s t (.smbus (some (BitVec.ofNat 16 (2 * s.get HI_SMB_ADDR)))) ∧ t.hi.alertN ∧ Frame s t [] (fun _ => False) := by
  have small : s.get HI_SMB_ADDR < 128 := State.get_lt s HI_SMB_ADDR
  have run := smbRelease_runs answers false (2 * s.get HI_SMB_ADDR)
  rw [Nat.mod_eq_of_lt (show 2 * s.get HI_SMB_ADDR < 256 by omega), ite_self] at run
  change RunsTo (doneIf (!s.hi.alertN) s ((s.smbRead false (2 * s.get HI_SMB_ADDR)).alertRelease)) _
  rw [doneIf_pos (by rw [low]; rfl)]
  exact run

end Smb

/-- R413: a write with GO begins a transaction, unless one is in progress. -/
theorem spiGo_runs {s : State} {v : Word} (ready : s.ready) (go : v.getLsbD 31) (few : fieldOf v 27 24 ≤ 8) (free : s.get MC_STAT_STATE ≠ 1) :
    (s.on HI_SPI_CTL_BUSY = false → RunsTo (exec (.spiGo v) s) fun t =>
      t.get HI_SPI_CTL_BUSY = 1 ∧ t.hi.spi = some (fieldOf v 27 24, v.getLsbD 8) ∧
      { t.hi with spi := s.hi.spi } = s.hi ∧ Sends s t (.spi (s.spiSent v)) ∧ Frame s t [.hi] (fun y => y.reg = HI_SPI_CTL)) ∧
    (s.on HI_SPI_CTL_BUSY → RunsTo (exec (.spiGo v) s) fun t =>
      t.out = s.out ∧ Frame s t [] (· ∈ [HI_SPI_CTL_NDATA, HI_SPI_CTL_ADDREN, HI_SPI_CTL_READ, HI_SPI_CTL_CMD])) :=
  ⟨spiGo_starts_runs ready go few free, spiGo_busy_runs ready few⟩

/-- Settles O52: SMBus, SPI and the test access port, each answer formed from the state and the covered outputs taken from function. -/
theorem boardPorts : Obligations.BoardPorts := by
  unfold Obligations.BoardPorts
  refine ⟨fun s w answers => ⟨fun k => smbAnswer_runs answers w _, smbStatus_runs answers w, smbAlertclr_runs answers w,
      smbAnswer_runs answers w _, smbAnswer_runs answers w _, smbAnswer_runs answers w _, smbAnswer_runs answers w _,
      smbByte_runs answers w (by decide), smbSerial_runs answers w, smbUnlisted_runs answers w, smbAlertResponse_runs answers⟩,
    fun s k w early => smbSilent_runs early w _, fun s v ready go few free => spiGo_runs ready go few free,
    fun s rd n => spiDone_runs, fun s => ⟨tapSelect_runs s rfl, tapSelect_runs s rfl, fun answers => idcode_runs _ (State.idcode_known answers),
      fun early => (idcode_runs _ (State.idcode_early early)).mono fun _ h => h.2.1⟩, samplePreload_runs, fun s pins load c hc => ?_,
    fun s => ⟨highz_runs s, clampTap_runs s⟩⟩
  simp only [List.mem_cons, List.not_mem_nil, or_false] at hc
  obtain rfl | rfl | rfl := hc
  · exact extest_runs s pins load (i := .extest) rfl TapInstr.noConfusion
  · exact extest_runs s pins load (i := .extestPulse) rfl TapInstr.noConfusion
  · exact extest_runs s pins load (i := .extestTrain) rfl TapInstr.noConfusion

end Sys2Proof.Machine
end

section
/-! Training, blocks and re-sends of the link ports (R352 to R355, R357) -/

namespace Sys2Proof.Machine

/-! ### The fields of a port -/

theorem State.get_setPort (s : State) (x : Nat) (p : Port) (y : Fld) : (s.setPort x p).get y = s.get y := State.get_congr rfl y

theorem Frame.port {s t : State} {ps : List Part} {w : Fld → Prop} (h : Frame s t ps w) (cl : .cl ∉ ps) (x : Nat) : t.port x = s.port x := by
  unfold State.port
  rw [h.part .cl cl]

theorem State.port_of_cl {s t : State} (h : t.cl = s.cl) (x : Nat) : t.port x = s.port x := by
  unfold State.port
  rw [h]

/-- The registers of a port lie below those of MSI-X. -/
theorem portReg_notPba {x a : Nat} (hx : x < 4) {r : Reg} (h : r.addr = 0x030100 + a + 0x20 * x) (ha : a < 0x20) : r.notPba :=
  .inl (by omega)

/-- R352: where a port stands shows in CL_Px_STAT. -/
theorem State.shownPort (s : State) (x : Nat) (y : Fld) (n : Nat) (reg : y.reg = CL_P_STAT x) (h : y.inWord) :
    (s.set y n).get y = n % 2 ^ (y.hi + 1 - y.lo) ∧ (∀ z, y.apart z → (s.set y n).get z = s.get z) ∧ (s.set y n).cl = s.cl ∧
    (s.set y n).time = s.time ∧ Frame s (s.set y n) [.cl] (fun y => y.reg = CL_P_STAT x) :=
  ⟨State.get_set _ _ _ h, fun _ => State.get_set_apart _ _ _ _ h, State.set_cl _ _ _, State.set_time _ _ _, .set _ _ _ _ _ h reg⟩

theorem portStat_notPba (x : Nat) (hx : x < 4) : (CL_P_STAT x).notPba := .inl (by simp only [CL_P_STAT]; omega)

theorem portTrain_begins_runs {s : State} (x : Fin 4) (nbr : BitVec 10) (may : s.mayTrain x) (down : s.portState x = portDown) :
    RunsTo (exec (.portTrain x 0 nbr) s) fun t =>
      t.portState x = portTraining ∧ (t.port x).tryAt = s.time ∧ t.get (CL_P_STAT_LOCK x) = 0 ∧
      Frame s t [.cl] (fun y => y.reg = CL_P_STAT x) := by
  have no : widthOf x 0 = 0 := if_neg fun h => absurd h.2 (by decide)
  change RunsTo (execPortTrain x 0 nbr s) _
  unfold execPortTrain
  rw [doneIf_pos (by rw [may, down]; rfl)]
  dsimp only
  rw [if_pos no, if_pos down]
  have port := State.port_setPort s x { s.port x with tryAt := s.time } x.isLt
  have first := Frame.setPort s [.cl] (fun y => y.reg = CL_P_STAT x) x { s.port x with tryAt := s.time } (by simp)
  generalize s.setPort x { s.port x with tryAt := s.time } = u at port first ⊢
  obtain ⟨state, -, cl, -, second⟩ := u.shownPort x (CL_P_STAT_STATE x) portTraining rfl (Fld.inWord_of _ rfl)
  generalize u.set (CL_P_STAT_STATE x) portTraining = v at state cl second ⊢
  obtain ⟨lock, kept, cl', -, third⟩ := v.shownPort x (CL_P_STAT_LOCK x) ((0 : BitVec 4).toNat % 2 ^ lanesOf x) rfl (Fld.inWord_of _ rfl)
  generalize v.set (CL_P_STAT_LOCK x) _ = w at lock kept cl' third ⊢
  have notPba := portStat_notPba x x.isLt
  refine runsTo_done _ _ _ ⟨(get_settle _ _ _ notPba).trans ((kept (CL_P_STAT_STATE x) (Fld.apart_of _ _ rfl rfl)).trans state), ?_,
    (get_settle _ _ _ notPba).trans (lock.trans (by simp)), ((first.trans second).trans third).trans (.settle _ _ _ _)⟩
  rw [port_settle, State.port_of_cl (cl'.trans cl), port]

/-! ### Ports that come UP (R352) -/

theorem widthOf_lt (x : Nat) (lock : BitVec 4) : widthOf x lock < 4 := by
  unfold widthOf
  split
  · decide
  · split
    · decide
    · split <;> decide

/-- R352: from `u` to `t` port x has come UP at width `n` with neighbour `nbr`. -/
theorem State.portComesUp_shows (u : State) {x n nbr : Nat} (hn : n < 4) (hnbr : nbr < 1024) (fresh : (u.port x).keep = false)
    (alone : x = 0 → u.on CL_DOM_CTL_JOIN = false ∧ u.taState ≠ taHoldover) :
    (u.portComesUp x n nbr).portState x = portUpState ∧ (u.portComesUp x n nbr).get (CL_P_STAT_WIDTH x) = n ∧
    (u.portComesUp x n nbr).get (CL_P_STAT_NBR x) = nbr ∧ (u.portComesUp x n nbr).get (CL_P_STAT_LOCK x) = u.get (CL_P_STAT_LOCK x) ∧
    Frame u (u.portComesUp x n nbr) [.cl] (fun y => y.reg = CL_P_STAT x) := by
  unfold State.portComesUp
  dsimp only
  rw [fresh]
  have zeroth := Frame.setPort u [.cl] (fun y => y.reg = CL_P_STAT x) x { u.port x with keep := false, fails := 0 } (by simp)
  have lock0 : (u.setPort x { u.port x with keep := false, fails := 0 }).get (CL_P_STAT_LOCK x) = u.get (CL_P_STAT_LOCK x) := rfl
  generalize u.setPort x { u.port x with keep := false, fails := 0 } = a at zeroth lock0 ⊢
  obtain ⟨state, kept1, -, -, first⟩ := a.shownPort x (CL_P_STAT_STATE x) portUpState rfl (Fld.inWord_of _ rfl)
  generalize a.set (CL_P_STAT_STATE x) portUpState = b at state kept1 first ⊢
  obtain ⟨width, kept2, -, -, second⟩ := b.shownPort x (CL_P_STAT_WIDTH x) n rfl (Fld.inWord_of _ rfl)
  generalize b.set (CL_P_STAT_WIDTH x) n = c at width kept2 second ⊢
  obtain ⟨-, kept3, -, -, third⟩ := c.shownPort x (CL_P_STAT_NBRV x) 1 rfl (Fld.inWord_of _ rfl)
  generalize c.set (CL_P_STAT_NBRV x) 1 = d at kept3 third ⊢
  obtain ⟨number, kept4, -, -, fourth⟩ := d.shownPort x (CL_P_STAT_NBR x) nbr rfl (Fld.inWord_of _ rfl)
  generalize d.set (CL_P_STAT_NBR x) nbr = e at number kept4 fourth ⊢
  have frame := (((zeroth.trans first).trans second).trans third).trans fourth
  have settled : (if x = 0 then (if e.taState = taHoldover then e.taRestart.set CL_TA_STAT_STATE
      (if e.isMember then taTrack else taFree) else e).tryJoin
      else e) = e := by
    split
    next zero =>
      have far : ∀ z : Fld, z.reg.addr < 0x30100 → e.get z = u.get z := fun z hz => frame.reg z (.inl (by omega)) fun y hy =>
        .inl (by rw [hy]; simp only [CL_P_STAT]; omega)
      have idle : e.taState ≠ taHoldover := by
        rw [State.taState, far _ (by decide)]
        exact (alone zero).2
      rw [if_neg idle]
      unfold State.tryJoin
      rw [State.on_congr (far CL_DOM_CTL_JOIN (by decide)), (alone zero).1]
      rfl
    next => rfl
  simp only [Bool.false_eq_true, if_false]
  rw [settled]
  have lock : e.get (CL_P_STAT_LOCK x) = u.get (CL_P_STAT_LOCK x) := by
    rw [kept4 (CL_P_STAT_LOCK x) (Fld.apart_of _ _ rfl rfl), kept3 (CL_P_STAT_LOCK x) (Fld.apart_of _ _ rfl rfl),
      kept2 (CL_P_STAT_LOCK x) (Fld.apart_of _ _ rfl rfl), kept1 (CL_P_STAT_LOCK x) (Fld.apart_of _ _ rfl rfl), lock0]
  refine ⟨?_, ?_, number.trans (Nat.mod_eq_of_lt hnbr), lock, frame⟩
  · unfold State.portState
    rw [kept4 (CL_P_STAT_STATE x) (Fld.apart_of _ _ rfl rfl), kept3 (CL_P_STAT_STATE x) (Fld.apart_of _ _ rfl rfl),
      kept2 (CL_P_STAT_STATE x) (Fld.apart_of _ _ rfl rfl), state]
    rfl
  · rw [kept4 (CL_P_STAT_WIDTH x) (Fld.apart_of _ _ rfl rfl), kept3 (CL_P_STAT_WIDTH x) (Fld.apart_of _ _ rfl rfl), width]
    exact Nat.mod_eq_of_lt hn

theorem portTrain_up_runs {s : State} (x : Fin 4) {lock : BitVec 4} (nbr : BitVec 10) (may : s.mayTrain x) (training : s.portState x = portTraining)
    (alone : x = 0 → s.on CL_DOM_CTL_JOIN = false ∧ s.taState ≠ taHoldover) (locked : widthOf x lock ≠ 0) (fresh : (s.port x).keep = false) :
    RunsTo (exec (.portTrain x lock nbr) s) fun t =>
      t.portState x = portUpState ∧ t.get (CL_P_STAT_WIDTH x) = widthOf x lock ∧ t.get (CL_P_STAT_NBR x) = nbr.toNat ∧
      t.get (CL_P_STAT_LOCK x) = lock.toNat % 2 ^ lanesOf x ∧ Frame s t [.cl] (fun y => y.reg = CL_P_STAT x) := by
  change RunsTo (execPortTrain x lock nbr s) _
  unfold execPortTrain
  rw [doneIf_pos (by rw [may, training]; rfl)]
  dsimp only
  rw [if_neg locked, if_neg (by rw [training]; decide)]
  obtain ⟨lockIs, kept, cl, -, first⟩ := s.shownPort x (CL_P_STAT_LOCK x) (lock.toNat % 2 ^ lanesOf x) rfl (Fld.inWord_of _ rfl)
  generalize s.set (CL_P_STAT_LOCK x) (lock.toNat % 2 ^ lanesOf x) = u at lockIs kept cl first ⊢
  have far : ∀ z : Fld, z.reg.addr < 0x30100 → u.get z = s.get z := fun z hz => first.reg z (.inl (by omega)) fun y hy =>
    .inl (by rw [hy]; simp only [CL_P_STAT]; omega)
  obtain ⟨up, width, number, lockKept, second⟩ := u.portComesUp_shows (widthOf_lt x lock) nbr.isLt (by rw [State.port_of_cl cl]; exact fresh)
    fun zero => by
      obtain ⟨join, idle⟩ := alone (Fin.ext zero)
      exact ⟨by rw [State.on_congr (far CL_DOM_CTL_JOIN (by decide)), join], by rw [State.taState, far _ (by decide)]; exact idle⟩
  have lanes : lock.toNat % 2 ^ lanesOf x % 16 = lock.toNat % 2 ^ lanesOf x :=
    Nat.mod_eq_of_lt ((Nat.mod_le _ _).trans_lt lock.isLt)
  have notPba := portStat_notPba x x.isLt
  exact runsTo_done _ _ _ ⟨(get_settle _ _ _ notPba).trans up, (get_settle _ _ _ notPba).trans width, (get_settle _ _ _ notPba).trans number,
    (get_settle _ _ _ notPba).trans (lockKept.trans (lockIs.trans lanes)), (first.trans second).trans (.settle _ _ _ _)⟩

/-- R352: an attempt of one millisecond is over. -/
theorem State.tryOver_of {s : State} {x : Nat} (over_ : reached s.time (later (s.port x).tryAt 1600000)) : s.tryOver x = true := over_

theorem portTrainTimeout_runs {s : State} (x : Fin 4) (training : s.portState x = portTraining)
    (over_ : reached s.time (later (s.port x).tryAt 1600000)) : RunsTo (exec (.portTrainTimeout x) s) fun t =>
      t.portState x = portDown ∧ t.get (CL_P_STAT_LOCK x) = 0 ∧ (t.port x).tryAt = s.time ∧
      Frame s t [.cl] (fun y => y.reg = CL_P_STAT x) := by
  change RunsTo (execPortTrainTimeout x s) _
  unfold execPortTrainTimeout
  rw [doneIf_pos (by rw [training, State.tryOver_of over_]; rfl)]
  have port := State.port_setPort s x { s.port x with tryAt := s.time } x.isLt
  have first := Frame.setPort s [.cl] (fun y => y.reg = CL_P_STAT x) x { s.port x with tryAt := s.time } (by simp)
  generalize s.setPort x { s.port x with tryAt := s.time } = u at port first ⊢
  obtain ⟨state, -, cl, -, second⟩ := u.shownPort x (CL_P_STAT_STATE x) portDown rfl (Fld.inWord_of _ rfl)
  generalize u.set (CL_P_STAT_STATE x) portDown = v at state cl second ⊢
  obtain ⟨lock, kept, cl', -, third⟩ := v.shownPort x (CL_P_STAT_LOCK x) 0 rfl (Fld.inWord_of _ rfl)
  generalize v.set (CL_P_STAT_LOCK x) 0 = w at lock kept cl' third ⊢
  have notPba := portStat_notPba x x.isLt
  refine runsTo_done _ _ _ ⟨(get_settle _ _ _ notPba).trans ((kept (CL_P_STAT_STATE x) (Fld.apart_of _ _ rfl rfl)).trans state),
    (get_settle _ _ _ notPba).trans (lock.trans (Nat.zero_mod _)), ?_, ((first.trans second).trans third).trans (.settle _ _ _ _)⟩
  rw [port_settle, State.port_of_cl (cl'.trans cl), port]

/-! ### Ports that go DOWN (R355, R364) -/

/-- What the loss of the routes through a port may change. -/
def routeField (y : Fld) : Prop := y.reg.addr < 0x30100 ∨ 0x30200 ≤ y.reg.addr ∨ y = CL_P_DROP_DROP 0

theorem routeField.apart {y z : Fld} (hy : routeField y) {x a : Nat} (hx : x < 4) (hz : z.reg.addr = 0x30100 + a + 0x20 * x) (ha : a < 0x10) :
    y.apart z := by
  obtain h | h | rfl := hy
  · exact .inl (by omega)
  · exact .inl (by omega)
  · exact .inl (by simp only [CL_P_DROP_DROP, CL_P_DROP]; omega)

theorem Frame.pruned (s : State) (d : Nat) : Frame s (s.pruned d) [] routeField := by
  have member : Frame s (s.putMember d false) [] routeField := by
    unfold State.putMember
    split
    · exact .refl _ _ _
    · exact .trans (.setBit _ _ _ _ _ _ (Fld.inWord_of _ rfl) (.inr (.inl (by simp only [CL_MEM_MEM, CL_MEM]; omega))))
        (.set _ _ _ _ _ (Fld.inWord_of _ rfl) (.inl (by decide)))
  unfold State.pruned
  split
  · exact member.trans (.flag _ _ _ _ _ (Fld.inWord_of _ rfl) (Fld.inWord_of _ rfl) (.inl (by decide)) (.inl (by decide)))
  · exact .refl _ _ _

/-- R363, R364: the routes through a port end, and the ports below A stay as they are. -/
theorem State.dropRoutes_keeps (s : State) {x : Nat} (y : Nat) (below : y ≠ 0) :
    (s.dropRoutes x).port y = s.port y ∧ Frame s (s.dropRoutes x) [.cl] routeField := by
  unfold State.dropRoutes
  extract_lets ds _ u
  have port : u.port y = s.port y := rfl
  have first : Frame s u [.cl] routeField := .setCl _ _ _ _ (by simp)
  clear_value u
  split
  · have pruned : Frame u (u.forEach ds State.pruned) [] routeField := .forEach _ _ _ _ _ fun t d _ => .pruned t d
    exact ⟨(pruned.port (by simp) y).trans port, first.trans (pruned.mono (by simp) fun _ => id)⟩
  · split
    · have sent := State.forEach_holds (fun t => t.port y = u.port y ∧ Frame u t [.cl] routeField) (fun s d => s.sendUp 4 d [])
        (fun t d ⟨same, frame⟩ => ⟨(State.port_sendPacket_ne _ _ (Ne.symm below)).trans same, frame.trans (.sendUp _ _ _ _ _ _ (by simp)
          (.inr (.inr rfl)) (.inl (by decide)))⟩) u ds ⟨rfl, .refl _ _ _⟩
      exact ⟨sent.1.trans port, first.trans sent.2⟩
    · exact ⟨port, first⟩

/-- R355: the numbers of a port that goes DOWN are discarded and it shows no lane. -/
theorem State.portCleared (s : State) {x st : Nat} (p : Port) (lost : Nat) (hx : x < 4) (hst : st < 8) :
    let t := (((((s.setPort x p).count (CL_P_DROP_DROP x) lost).set (CL_P_STAT_STATE x) st).set (CL_P_STAT_LOCK x) 0).set (CL_P_STAT_WIDTH x) 0).set
      (CL_P_STAT_NBRV x) 0
    t.portState x = st ∧ t.port x = p ∧ Frame s t [.cl] (fun y => y.reg = CL_P_STAT x ∨ y = CL_P_DROP_DROP x) := by
  dsimp only
  have port := State.port_setPort s x p hx
  have first := Frame.setPort s [.cl] (fun y => y.reg = CL_P_STAT x ∨ y = CL_P_DROP_DROP x) x p (by simp)
  generalize s.setPort x p = a at port first ⊢
  have second := Frame.count a [] (fun y => y.reg = CL_P_STAT x ∨ y = CL_P_DROP_DROP x) (CL_P_DROP_DROP x) lost (Fld.inWord_of _ rfl) (.inr rfl)
  generalize a.count (CL_P_DROP_DROP x) lost = b at second ⊢
  obtain ⟨state, -, cl3, -, third⟩ := b.shownPort x (CL_P_STAT_STATE x) st rfl (Fld.inWord_of _ rfl)
  generalize b.set (CL_P_STAT_STATE x) st = c at state cl3 third ⊢
  obtain ⟨-, kept4, cl4, -, fourth⟩ := c.shownPort x (CL_P_STAT_LOCK x) 0 rfl (Fld.inWord_of _ rfl)
  generalize c.set (CL_P_STAT_LOCK x) 0 = d at kept4 cl4 fourth ⊢
  obtain ⟨-, kept5, cl5, -, fifth⟩ := d.shownPort x (CL_P_STAT_WIDTH x) 0 rfl (Fld.inWord_of _ rfl)
  generalize d.set (CL_P_STAT_WIDTH x) 0 = e at kept5 cl5 fifth ⊢
  obtain ⟨-, kept6, cl6, -, sixth⟩ := e.shownPort x (CL_P_STAT_NBRV x) 0 rfl (Fld.inWord_of _ rfl)
  generalize e.set (CL_P_STAT_NBRV x) 0 = f at kept6 cl6 sixth ⊢
  refine ⟨?_, ?_, first.trans ((second.mono (by simp) fun _ => id).trans ((((third.trans fourth).trans fifth).trans sixth).mono (fun _ => id)
    fun _ => .inl))⟩
  · unfold State.portState
    rw [kept6 (CL_P_STAT_STATE x) (Fld.apart_of _ _ rfl rfl), kept5 (CL_P_STAT_STATE x) (Fld.apart_of _ _ rfl rfl),
      kept4 (CL_P_STAT_STATE x) (Fld.apart_of _ _ rfl rfl), state]
    exact Nat.mod_eq_of_lt hst
  · rw [State.port_of_cl (((cl6.trans cl5).trans cl4).trans cl3), second.port (by simp), port]

/-- What a port that goes DOWN may change. -/
def downField (x : Nat) (y : Fld) : Prop := y.reg = CL_P_STAT x ∨ y = CL_P_DROP_DROP x ∨ x ≠ 3 ∧ routeField y

/-- R355: both ends of a port start from SEQ 0, with nothing to send again. -/
def Port.renumbered (p : Port) : Port :=
  { p with seq := 0, expect := 0, nak := false, retry := [], resend := none, fails := 0, keep := false }

/-- R355: a port whose retraining ends goes DOWN and starts from SEQ 0. -/
theorem State.portGoesDown_shows {s : State} {x st : Nat} (hx : x < 4) (hst : st < 8) (was : s.portState x = portRetrain) :
    (s.portGoesDown x st).portState x = st ∧ (s.portGoesDown x st).port x = (s.port x).renumbered ∧
    Frame s (s.portGoesDown x st) [.cl, .tw, .sys] (downField x) := by
  unfold State.portGoesDown
  extract_lets p lost was_ q u v w z
  have cleared : q = (s.port x).renumbered := by
    show ({ (s.port x).renumbered with downAt := if s.portState x = portUpState then s.time else (s.port x).downAt } : Port) = _
    rw [was, if_neg (by decide)]
    rfl
  obtain ⟨state, port, first⟩ := s.portCleared q lost hx hst
  have second : Frame s v [.cl, .tw, .sys] (downField x) := (first.mono (by simp) fun y hy => hy.elim .inl fun h => .inr (.inl h)).trans
    (.swapCancel _ _ _ _ (by simp))
  have state2 : v.portState x = st :=
    ((Frame.swapCancel _ [.tw] (fun _ => False) x (by simp)).reg _ (portState_notPba x hx) fun _ => False.elim).trans state
  have port2 : v.port x = q := ((Frame.swapCancel _ [.tw] (fun _ => False) x (by simp)).port (by simp) x).trans port
  clear_value v
  have third : Frame v w [] (fun y => x ≠ 3 ∧ y = CL_TA_STAT_STATE) := by
    show Frame v (if x = 0 ∧ v.taState = taAligned then v.set CL_TA_STAT_STATE taHoldover else v) _ _
    split
    next h => exact .set _ _ _ _ _ (Fld.inWord_of _ rfl) ⟨by omega, rfl⟩
    · exact .refl _ _ _
  clear_value w
  have fourth : Frame w z [.sys] (fun _ => False) := by
    show Frame w (if was_ = portUpState ∨ was_ = portRetrain then w.crossingEnters (x + 1) else w) _ _
    split
    · exact .setSys _ _ _ _ (by simp)
    · exact .refl _ _ _
  clear_value z
  have frame : Frame s z [.cl, .tw, .sys] (downField x) := (second.trans (third.mono (by simp) fun y hy => .inr (.inr ⟨hy.1, .inl (by
    rw [hy.2]
    decide)⟩))).trans (fourth.mono (by simp) fun _ => False.elim)
  have state4 : z.portState x = st := by
    refine (fourth.reg _ (portState_notPba x hx) fun _ => False.elim).trans ((third.reg _ (portState_notPba x hx) fun y hy => ?_).trans state2)
    rw [hy.2]
    exact .inl (by simp only [CL_TA_STAT_STATE, CL_TA_STAT, CL_P_STAT_STATE, CL_P_STAT]; omega)
  have port4 : z.port x = q := (fourth.port (by simp) x).trans ((third.port (by simp) x).trans port2)
  split
  next inner =>
    obtain ⟨same, dropped⟩ := z.dropRoutes_keeps (x := x) x (by omega)
    refine ⟨(dropped.reg _ (portState_notPba x hx) fun y hy => hy.apart hx (a := 4) ?_ (by decide)).trans state4, (same.trans port4).trans cleared,
      frame.trans (dropped.mono (by simp) fun y hy => .inr (.inr ⟨by omega, hy⟩))⟩
    simp only [CL_P_STAT_STATE, CL_P_STAT]
  · exact ⟨state4, port4.trans cleared, frame⟩

theorem downField.apart_train {x : Nat} (hx : x < 4) {y : Fld} (hy : downField x y) : y.apart (CL_P_TRAIN_DOWN x) := by
  obtain h | rfl | ⟨-, h⟩ := hy
  · exact .inl (by rw [h]; simp only [CL_P_STAT, CL_P_TRAIN_DOWN, CL_P_TRAIN]; omega)
  · exact .inl (by simp only [CL_P_DROP_DROP, CL_P_DROP, CL_P_TRAIN_DOWN, CL_P_TRAIN]; omega)
  · exact h.apart hx (a := 0xC) (by simp only [CL_P_TRAIN_DOWN, CL_P_TRAIN]) (by decide)

theorem retrainTimeout_runs {s : State} (x : Fin 4) (retraining : s.portState x = portRetrain)
    (over_ : reached s.time (later (s.port x).tryAt 1600000)) : RunsTo (exec (.retrainTimeout x) s) fun t =>
      t.portState x = portDown ∧ (t.port x).seq = 0 ∧ (t.port x).expect = 0 ∧ (t.port x).retry = [] ∧
      (t.port x).queue = (s.port x).queue ∧
      t.get (CL_P_TRAIN_DOWN x) = min (s.get (CL_P_TRAIN_DOWN x) + 1) 65535 ∧
      (x = 3 → Frame s t [.cl, .tw, .sys] (fun y => y.reg = CL_P_STAT 3 ∨ y = CL_P_TRAIN_DOWN 3 ∨ y = CL_P_DROP_DROP 3)) := by
  obtain ⟨state, port, first⟩ := State.portGoesDown_shows (st := portDown) x.isLt (by decide) retraining
  change RunsTo (execRetrainTimeout x s) _
  unfold execRetrainTimeout
  rw [doneIf_pos (by rw [retraining, State.tryOver_of over_]; rfl)]
  generalize s.portGoesDown x portDown = u at state port first ⊢
  have notPba : (CL_P_TRAIN_DOWN x).reg.notPba := .inl (by simp only [CL_P_TRAIN_DOWN, CL_P_TRAIN]; omega)
  have apart : (CL_P_TRAIN_DOWN x).apart (CL_P_STAT_STATE x) :=
    .inl (by simp only [CL_P_TRAIN_DOWN, CL_P_TRAIN, CL_P_STAT_STATE, CL_P_STAT]; omega)
  have second : Frame u (u.count (CL_P_TRAIN_DOWN x) 1) [] (· = CL_P_TRAIN_DOWN x) := .count _ _ _ _ _ (Fld.inWord_of _ rfl) rfl
  have counted : (u.count (CL_P_TRAIN_DOWN x) 1).get (CL_P_TRAIN_DOWN x) = min (u.get (CL_P_TRAIN_DOWN x) + 1) 65535 :=
    State.get_count _ _ _ (Fld.inWord_of _ rfl)
  have state' := State.get_count_apart u (CL_P_TRAIN_DOWN x) (CL_P_STAT_STATE x) 1 (Fld.inWord_of _ rfl) apart
  generalize u.count (CL_P_TRAIN_DOWN x) 1 = v at second counted state' ⊢
  have portIs : (settle s v).port x = (s.port x).renumbered := (port_settle _ _ _).trans ((second.port (by simp) x).trans port)
  refine runsTo_done _ _ _ ⟨(get_settle _ _ _ (portState_notPba x x.isLt)).trans (state'.trans state), by rw [portIs]; rfl, by rw [portIs]; rfl,
    by rw [portIs]; rfl, by rw [portIs]; rfl, ?_, fun three => ?_⟩
  · rw [get_settle _ _ _ notPba, counted, first.reg _ notPba fun y hy => hy.apart_train x.isLt]
  · subst three
    refine ((first.mono (fun _ => id) fun y hy => ?_).trans (second.mono (by simp) fun y hy => .inr (.inl hy))).trans (.settle _ _ _ _)
    obtain h | h | ⟨h, -⟩ := hy
    · exact .inl h
    · exact .inr (.inr h)
    · exact absurd rfl h

/-! ### Blocks (R354, R355, R357) -/

/-- R354: a port that has sent a DATA block keeps it until an ACK covers it. -/
def Port.sent (p : Port) (flits : BitVec 576) (now : Time) : Port :=
  { p with resend := none, queue := [], seq := nextSeq p.seq, retry := p.retry ++ [(p.seq, flits, now)] }

theorem packBlock_one {p : Packet} (fits : p.flits ≤ 8) : packBlock [p] 8 = ([p], []) := by
  unfold packBlock
  rw [if_pos fits]
  rfl

/-- R354: a packet that waits alone leaves in a DATA block. -/
theorem State.blockSend_data {s : State} {x : Nat} {p : Packet} (fresh : (s.port x).resend = none) (one : (s.port x).queue = [p]) (fits : p.flits ≤ 8)
    (room : (s.port x).retry.length < 64) : s.blockSend x = (s.setPort x ((s.port x).sent (flitWord [p]) s.time)).emit
      (.block x (blockOf (flitWord [p]) (s.port x).seq 0 (s.port x).ack (s.port x).nak)) := by
  unfold State.blockSend
  dsimp only
  rw [fresh, one, Option.bind_none]
  dsimp only
  rw [packBlock_one fits]
  dsimp only
  rw [if_neg (by simpa using room)]
  rfl

/-- R354: an idle port sends EMPTY. -/
theorem State.blockSend_empty {s : State} {x : Nat} (fresh : (s.port x).resend = none) (idle : (s.port x).queue = []) :
    s.blockSend x = (s.setPort x { s.port x with resend := none }).emit (.block x (blockOf 0 (s.port x).seq 1 (s.port x).ack (s.port x).nak)) := by
  unfold State.blockSend
  dsimp only
  rw [fresh, idle, Option.bind_none]
  exact if_pos rfl

theorem blockSend_data_runs {s : State} (x : Fin 4) {p : Packet} (up : s.portUp x) (fresh : (s.port x).resend = none)
    (one : (s.port x).queue = [p]) (fits : p.flits ≤ 8) (room : (s.port x).retry.length < 64) : RunsTo (exec (.blockSend x) s) fun t =>
      Sends s t (.block x (blockOf (flitWord [p]) (s.port x).seq 0 (s.port x).ack (s.port x).nak)) ∧
      t.port x = { s.port x with queue := [], seq := nextSeq (s.port x).seq, retry := (t.port x).retry } ∧
      (t.port x).retry = (s.port x).retry ++ [((s.port x).seq, flitWord [p], s.time)] ∧ Frame s t [.cl] (fun _ => False) := by
  change RunsTo (doneIf (s.portUp x) s (s.blockSend x)) _
  rw [doneIf_pos up, State.blockSend_data fresh one fits room]
  have port := State.port_setPort s x ((s.port x).sent (flitWord [p]) s.time) x.isLt
  have frame := Frame.setPort s [.cl] (fun _ => False) x ((s.port x).sent (flitWord [p]) s.time) (by simp)
  have out : (s.setPort x ((s.port x).sent (flitWord [p]) s.time)).out = s.out := rfl
  generalize s.setPort x ((s.port x).sent (flitWord [p]) s.time) = u at port frame out ⊢
  have portIs (o : Output) : (settle s (u.emit o)).port x = (s.port x).sent (flitWord [p]) s.time := (port_settle _ _ _).trans port
  refine runsTo_done _ _ _ ⟨Sends.settle (congrArg _ out) _, ?_, ?_, (frame.trans (.emit _ _ _ _)).trans (.settle _ _ _ _)⟩
  · rw [portIs]
    unfold Port.sent
    dsimp only
    rw [fresh]
  · rw [portIs]
    rfl

theorem blockSend_empty_runs {s : State} (x : Fin 4) (up : s.portUp x) (fresh : (s.port x).resend = none) (idle : (s.port x).queue = []) :
    RunsTo (exec (.blockSend x) s) fun t =>
      Sends s t (.block x (blockOf 0 (s.port x).seq 1 (s.port x).ack (s.port x).nak)) ∧ t.port x = s.port x ∧
      Frame s t [.cl] (fun _ => False) := by
  have same : ({ s.port x with resend := none } : Port) = s.port x := by rw [← fresh]
  change RunsTo (doneIf (s.portUp x) s (s.blockSend x)) _
  rw [doneIf_pos up, State.blockSend_empty fresh idle, same]
  have port := State.port_setPort s x (s.port x) x.isLt
  have frame := Frame.setPort s [.cl] (fun _ => False) x (s.port x) (by simp)
  have out : (s.setPort x (s.port x)).out = s.out := rfl
  generalize s.setPort x (s.port x) = u at port frame out ⊢
  exact runsTo_done _ _ _ ⟨Sends.settle (congrArg _ out) _, (port_settle _ _ _).trans port, (frame.trans (.emit _ _ _ _)).trans (.settle _ _ _ _)⟩

/-! ### Failures and acknowledgements (R354, R355) -/

/-- R355: fewer than sixteen failures in a row are counted. -/
theorem State.linkFailure_counts {s : State} {x : Nat} (few : (s.port x).fails < 15) :
    s.linkFailure x = s.setPort x { s.port x with fails := (s.port x).fails + 1 } := by
  unfold State.linkFailure
  dsimp only
  rw [if_pos (by omega)]

theorem State.linkFailure_retrains {s : State} {x : Nat} (many : (s.port x).fails = 15) : s.linkFailure x = s.portRetrains x := by
  unfold State.linkFailure
  dsimp only
  rw [if_neg (by omega)]

theorem portErr_notPba (x : Nat) (hx : x < 4) : (CL_P_ERR x).notPba := .inl (by simp only [CL_P_ERR]; omega)

/-- R354: a block that delivers no packet. -/
theorem blockReceive_silent {s u : State} {x : Fin 4} {b : BitVec 640} (up : s.portUp x) (arrives : s.blockArrives x b = (u, [])) :
    exec (.blockReceive x b) s = done s u := by
  change execBlockReceive x b s = _
  unfold execBlockReceive
  rw [doneIf_pos up, arrives]
  rfl

theorem State.blockArrives_bad {s : State} {x : Nat} {b : BitVec 640} (bad : blockGood b = false) :
    s.blockArrives x b = (((s.setPort x { s.port x with nak := true }).count (CL_P_ERR_CRCERR x) 1).linkFailure x, []) :=
  if_pos (by rw [bad]; rfl)

theorem blockReceive_bad_runs {s : State} (x : Fin 4) {b : BitVec 640} (up : s.portUp x) (bad : blockGood b = false) (few : (s.port x).fails < 15) :
    RunsTo (exec (.blockReceive x b) s) fun t =>
      t.port x = { s.port x with nak := true, fails := (s.port x).fails + 1 } ∧
      t.get (CL_P_ERR_CRCERR x) = min (s.get (CL_P_ERR_CRCERR x) + 1) 65535 ∧ Frame s t [.cl] (· ∈ [CL_P_ERR_CRCERR x]) := by
  rw [blockReceive_silent up (State.blockArrives_bad bad)]
  have port := State.port_setPort s x { s.port x with nak := true } x.isLt
  have first := Frame.setPort s [.cl] (· ∈ [CL_P_ERR_CRCERR x]) x { s.port x with nak := true } (by simp)
  have before : (s.setPort x { s.port x with nak := true }).get (CL_P_ERR_CRCERR x) = s.get (CL_P_ERR_CRCERR x) :=
    State.get_setPort _ _ _ _
  generalize s.setPort x { s.port x with nak := true } = u at port first before ⊢
  have counted : (u.count (CL_P_ERR_CRCERR x) 1).get (CL_P_ERR_CRCERR x) = min (u.get (CL_P_ERR_CRCERR x) + 1) 65535 :=
    State.get_count _ _ _ (Fld.inWord_of _ rfl)
  have second : Frame u (u.count (CL_P_ERR_CRCERR x) 1) [] (· ∈ [CL_P_ERR_CRCERR x]) := .count _ _ _ _ _ (Fld.inWord_of _ rfl) (by simp)
  generalize u.count (CL_P_ERR_CRCERR x) 1 = v at counted second ⊢
  have port' : v.port x = { s.port x with nak := true } := (second.port (by simp) x).trans port
  rw [State.linkFailure_counts (s := v) (x := x) (by rw [port']; exact few), port']
  have port'' := State.port_setPort v x { s.port x with nak := true, fails := (s.port x).fails + 1 } x.isLt
  have third := Frame.setPort v [.cl] (· ∈ [CL_P_ERR_CRCERR x]) x { s.port x with nak := true, fails := (s.port x).fails + 1 } (by simp)
  have still : (v.setPort x { s.port x with nak := true, fails := (s.port x).fails + 1 }).get (CL_P_ERR_CRCERR x) = v.get (CL_P_ERR_CRCERR x) :=
    State.get_setPort _ _ _ _
  generalize v.setPort x { s.port x with nak := true, fails := (s.port x).fails + 1 } = w at port'' third still ⊢
  refine runsTo_done _ _ _ ⟨(port_settle _ _ _).trans port'', ?_, ((first.trans (second.mono (by simp) fun _ => id)).trans third).trans
      (.settle _ _ _ _)⟩
  rw [get_settle _ _ _ (portErr_notPba x x.isLt), still, counted, before]

/-- R354: the acknowledgement of a good block that asks for no re-send. -/
theorem State.blockAck_covers {u : State} {x ack : Nat} {nak : Bool} (hx : x < 4) (fresh : (u.port x).resend = none)
    (quiet : nak = false ∨ (u.port x).retry = []) :
    u.blockAck x ack nak = u.setPort x { u.port x with retry := (u.port x).retry.filter fun r => !decide ((ack + 16384 - r.1) % 16384 < 8192) } := by
  unfold State.blockAck
  dsimp only
  rw [fresh, Option.map_none]
  have port := State.port_setPort u x { u.port x with retry := (u.port x).retry.filter fun r => !decide ((ack + 16384 - r.1) % 16384 < 8192) } hx
  have same : ({ u.port x with retry := (u.port x).retry.filter fun r => !decide ((ack + 16384 - r.1) % 16384 < 8192), resend := none } : Port) =
      { u.port x with retry := (u.port x).retry.filter fun r => !decide ((ack + 16384 - r.1) % 16384 < 8192) } := by rw [← fresh]
  rw [same]
  refine if_neg ?_
  rw [port]
  obtain no | no := quiet
  · rw [no]
    exact Bool.false_ne_true
  · dsimp only
    rw [no]
    simp

/-- R354: the blocks that an acknowledgement leaves to be sent again. -/
def Port.uncovered (p : Port) (ack : Nat) : List (Nat × BitVec 576 × Time) := p.retry.filter fun r => !decide ((ack + 16384 - r.1) % 16384 < 8192)

/-- R354: the port after a good block, before what the block itself asks for. -/
def State.goodBlock (s : State) (x : Nat) (b : BitVec 640) : State :=
  (s.setPort x { s.port x with fails := 0 }).blockAck x (blockBits b 605 592) (blockBits b 606 606 == 1)

theorem State.goodBlock_shows {s : State} {x : Nat} {b : BitVec 640} (hx : x < 4) (fresh : (s.port x).resend = none)
    (quiet : blockBits b 606 606 = 0 ∨ (s.port x).retry = []) :
    (s.goodBlock x b).port x = { s.port x with fails := 0, retry := (s.port x).uncovered (blockBits b 605 592) } ∧
    Frame s (s.goodBlock x b) [.cl] (fun _ => False) := by
  unfold State.goodBlock
  have port := State.port_setPort s x { s.port x with fails := 0 } hx
  have first := Frame.setPort s [.cl] (fun _ => False) x { s.port x with fails := 0 } (by simp)
  generalize s.setPort x { s.port x with fails := 0 } = u at port first ⊢
  rw [State.blockAck_covers hx (by rw [port]; exact fresh) (quiet.imp (fun h => by rw [h]; rfl) fun h => by rw [port]; exact h)]
  exact ⟨(State.port_setPort _ _ _ hx).trans (by rw [port]; rfl), first.trans (.setPort _ _ _ _ _ (by simp))⟩

/-- R353: how far a block's SEQ lies ahead of the one expected. -/
def Port.ahead (p : Port) (b : BitVec 640) : Nat := (blockBits b 589 576 + 16384 - p.expect) % 16384

section Good
variable {s : State} {x : Nat} {b : BitVec 640} (good : blockGood b)
include good

theorem State.blockArrives_empty (kind : blockBits b 591 590 = 1) : s.blockArrives x b = (s.goodBlock x b, []) := by
  unfold State.blockArrives
  rw [good, if_neg (by decide)]
  exact if_pos (by rw [kind]; decide)

theorem State.blockArrives_next (kind : blockBits b 591 590 = 0) (next : ((s.goodBlock x b).port x).ahead b = 0) :
    s.blockArrives x b = ((s.goodBlock x b).setPort x { (s.goodBlock x b).port x with
      expect := nextSeq ((s.goodBlock x b).port x).expect, nak := false }, blockPackets (BitVec.ofNat 576 b.toNat)) := by
  unfold State.blockArrives
  rw [good, if_neg (by decide)]
  exact (if_neg (by rw [kind]; decide)).trans (if_pos next)

theorem State.blockArrives_early (kind : blockBits b 591 590 = 0) (ahead : 0 < ((s.goodBlock x b).port x).ahead b)
    (early : ((s.goodBlock x b).port x).ahead b < 8192) :
    s.blockArrives x b = ((s.goodBlock x b).setPort x { (s.goodBlock x b).port x with nak := true }, []) := by
  unfold State.blockArrives
  rw [good, if_neg (by decide)]
  exact ((if_neg (by rw [kind]; decide)).trans (if_neg (Nat.ne_of_gt ahead))).trans (if_pos early)

end Good

theorem Port.uncovered_nil {p : Port} (none_ : p.retry = []) (ack : Nat) : p.uncovered ack = [] := by
  unfold Port.uncovered
  rw [none_]
  rfl

/-- R354: a good block at a port that keeps nothing to send again. -/
theorem State.goodBlock_kept {s : State} (x : Fin 4) (b : BitVec 640) (fresh : (s.port x).resend = none) (none_ : (s.port x).retry = []) :
    (s.goodBlock x b).port x = { s.port x with fails := 0 } ∧ Frame s (s.goodBlock x b) [.cl] (fun _ => False) := by
  obtain ⟨port, frame⟩ := State.goodBlock_shows (s := s) (b := b) x.isLt fresh (.inr none_)
  refine ⟨port.trans ?_, frame⟩
  rw [Port.uncovered_nil none_, ← none_]

section Received
variable {s : State} (x : Fin 4) {b : BitVec 640} (up : s.portUp x) (good : blockGood b) (fresh : (s.port x).resend = none)
include up good fresh

theorem blockReceive_next_runs (none_ : (s.port x).retry = []) (kind : blockBits b 591 590 = 0) (next : blockBits b 589 576 = (s.port x).expect)
    (empty : blockPackets (BitVec.ofNat 576 b.toNat) = []) : RunsTo (exec (.blockReceive x b) s) fun t =>
        t.port x = { s.port x with expect := nextSeq (s.port x).expect, nak := false, fails := 0 } ∧ Frame s t [.cl] (fun _ => False) := by
  obtain ⟨port, frame⟩ := State.goodBlock_kept x b fresh none_
  have distance : ((s.goodBlock x b).port x).ahead b = 0 := by
    rw [port, Port.ahead, next]
    dsimp only
    rw [Nat.add_sub_cancel_left]
  have arrives := State.blockArrives_next good kind distance
  rw [empty] at arrives
  rw [blockReceive_silent up arrives, port]
  exact runsTo_done _ _ _ ⟨(port_settle _ _ _).trans (State.port_setPort _ _ _ x.isLt),
    (frame.trans (.setPort _ _ _ _ _ (by simp))).trans (.settle _ _ _ _)⟩

theorem blockReceive_early_runs (none_ : (s.port x).retry = []) (kind : blockBits b 591 590 = 0)
    (ahead : 0 < (blockBits b 589 576 + 16384 - (s.port x).expect) % 16384)
    (early : (blockBits b 589 576 + 16384 - (s.port x).expect) % 16384 < 8192) : RunsTo (exec (.blockReceive x b) s) fun t =>
        t.port x = { s.port x with nak := true, fails := 0 } ∧ Frame s t [.cl] (fun _ => False) := by
  obtain ⟨port, frame⟩ := State.goodBlock_kept x b fresh none_
  rw [blockReceive_silent up (State.blockArrives_early good kind (by rw [port]; exact ahead) (by rw [port]; exact early)), port]
  exact runsTo_done _ _ _ ⟨(port_settle _ _ _).trans (State.port_setPort _ _ _ x.isLt),
    (frame.trans (.setPort _ _ _ _ _ (by simp))).trans (.settle _ _ _ _)⟩

theorem blockReceive_empty_runs (kind : blockBits b 591 590 = 1) (quiet : blockBits b 606 606 = 0) :
    RunsTo (exec (.blockReceive x b) s) fun t =>
        (t.port x).retry = (s.port x).retry.filter (fun r => 8192 ≤ (blockBits b 605 592 + 16384 - r.1) % 16384) ∧
        (t.port x).fails = 0 ∧ Frame s t [.cl] (fun _ => False) := by
  obtain ⟨port, frame⟩ := State.goodBlock_shows (s := s) (b := b) x.isLt fresh (.inl quiet)
  rw [blockReceive_silent up (State.blockArrives_empty good kind)]
  refine runsTo_done _ _ _ ⟨?_, by rw [port_settle, port], frame.trans (.settle _ _ _ _)⟩
  rw [port_settle, port]
  refine List.filter_congr fun r _ => ?_
  rw [← decide_not]
  exact decide_eq_decide.2 Nat.not_lt

end Received

/-! ### Re-sends (R355) -/

/-- R355: from `s` to `u` the oldest block is to be sent again. -/
theorem State.resendsOldest {s : State} {x : Nat} (hx : x < 4) (r : Nat × BitVec 576 × Time) (rest : List (Nat × BitVec 576 × Time)) :
    let u := (s.setPort x { s.port x with retry := r :: rest }).resendFrom x r.1
    u.port x = { s.port x with retry := r :: rest, resend := some r.1 } ∧
    u.get (CL_P_ERR_RESEND x) = min (s.get (CL_P_ERR_RESEND x) + 1) 65535 ∧ Frame s u [.cl] (· ∈ [CL_P_ERR_RESEND x]) := by
  dsimp only
  have port := State.port_setPort s x { s.port x with retry := r :: rest } hx
  have first := Frame.setPort s [.cl] (· ∈ [CL_P_ERR_RESEND x]) x { s.port x with retry := r :: rest } (by simp)
  have before := State.get_setPort s x { s.port x with retry := r :: rest } (CL_P_ERR_RESEND x)
  generalize s.setPort x { s.port x with retry := r :: rest } = u at port first before ⊢
  have eq : u.resendFrom x r.1 = (u.setPort x { u.port x with resend := some r.1 }).count (CL_P_ERR_RESEND x) 1 := if_neg (by
    rw [port]
    exact Bool.false_ne_true)
  rw [eq, port]
  have port' := State.port_setPort u x { s.port x with retry := r :: rest, resend := some r.1 } hx
  have second := Frame.setPort u [.cl] (· ∈ [CL_P_ERR_RESEND x]) x { s.port x with retry := r :: rest, resend := some r.1 } (by simp)
  have before' := State.get_setPort u x { s.port x with retry := r :: rest, resend := some r.1 } (CL_P_ERR_RESEND x)
  dsimp only
  generalize u.setPort x { s.port x with retry := r :: rest, resend := some r.1 } = v at port' second before' ⊢
  have third : Frame v (v.count (CL_P_ERR_RESEND x) 1) [] (· ∈ [CL_P_ERR_RESEND x]) := .count _ _ _ _ _ (Fld.inWord_of _ rfl) (by simp)
  have counted : (v.count (CL_P_ERR_RESEND x) 1).get (CL_P_ERR_RESEND x) = min (v.get (CL_P_ERR_RESEND x) + 1) 65535 :=
    State.get_count _ _ _ (Fld.inWord_of _ rfl)
  exact ⟨(third.port (by simp) x).trans port', by rw [counted, before', before],
    (first.trans second).trans (third.mono (by simp) fun _ => id)⟩

/-- R355: a port that retrains keeps its numbers and counts the retraining. -/
theorem State.portRetrains_keeps (s : State) {x : Nat} (hx : x < 4) : ((s.portRetrains x).port x).seq = (s.port x).seq ∧
    ((s.portRetrains x).port x).keep ∧ (s.portRetrains x).get (CL_P_TRAIN_RETRAIN x) = min (s.get (CL_P_TRAIN_RETRAIN x) + 1) 65535 := by
  unfold State.portRetrains
  generalize eq : ({ s.port x with fails := 0, keep := true, tryAt := s.time, downAt := s.time, resend := none } : Port) = q
  have seq : q.seq = (s.port x).seq := by rw [← eq]
  have keep : q.keep = true := by rw [← eq]
  have port := State.port_setPort s x q hx
  have before := State.get_setPort s x q (CL_P_TRAIN_RETRAIN x)
  generalize s.setPort x q = u at port before ⊢
  have apart : (CL_P_STAT_STATE x).apart (CL_P_TRAIN_RETRAIN x) :=
    .inl (by simp only [CL_P_TRAIN_RETRAIN, CL_P_TRAIN, CL_P_STAT_STATE, CL_P_STAT]; omega)
  obtain ⟨-, kept, cl, -, -⟩ := u.shownPort x (CL_P_STAT_STATE x) portRetrain rfl (Fld.inWord_of _ rfl)
  generalize u.set (CL_P_STAT_STATE x) portRetrain = v at kept cl ⊢
  have counted : (v.count (CL_P_TRAIN_RETRAIN x) 1).get (CL_P_TRAIN_RETRAIN x) = min (v.get (CL_P_TRAIN_RETRAIN x) + 1) 65535 :=
    State.get_count _ _ _ (Fld.inWord_of _ rfl)
  have cl' : (v.count (CL_P_TRAIN_RETRAIN x) 1).cl = v.cl := State.count_cl _ _ _
  generalize v.count (CL_P_TRAIN_RETRAIN x) 1 = w at counted cl' ⊢
  have last : Frame w (w.swapCancel x) [.tw] (fun _ => False) := .swapCancel _ _ _ _ (by simp)
  have portIs : (w.swapCancel x).port x = q := (last.port (by simp) x).trans ((State.port_of_cl (cl'.trans cl) x).trans port)
  refine ⟨by rw [portIs, seq], by rw [portIs, keep], ?_⟩
  rw [last.reg _ (.inl (by simp only [CL_P_TRAIN_RETRAIN, CL_P_TRAIN]; omega)) fun _ => False.elim, counted, kept _ apart, before]

section Resend
variable {s : State} (x : Fin 4) {r : Nat × BitVec 576 × Time} {rest : List (Nat × BitVec 576 × Time)} (up : s.portUp x)
  (kept : (s.port x).retry = r :: rest) (due : reached s.time (later r.2.2 3200))
include up kept due

theorem resendTimeout_eq : exec (.resendTimeout x) s = done s
    (((s.setPort x { s.port x with retry := (r.1, r.2.1, s.time) :: rest }).resendFrom x r.1).linkFailure x) := by
  change execResendTimeout x s = _
  unfold execResendTimeout
  rw [kept]
  exact congrArg (done s) (if_pos (by rw [up, Bool.true_and]; exact due))

theorem resendTimeout_resends_runs (few : (s.port x).fails < 15) : RunsTo (exec (.resendTimeout x) s) fun t =>
      (t.port x).resend = some r.1 ∧ (t.port x).fails = (s.port x).fails + 1 ∧
      (t.port x).retry = (r.1, r.2.1, s.time) :: rest ∧
      t.get (CL_P_ERR_RESEND x) = min (s.get (CL_P_ERR_RESEND x) + 1) 65535 ∧ Frame s t [.cl] (· ∈ [CL_P_ERR_RESEND x]) := by
  rw [resendTimeout_eq x up kept due]
  obtain ⟨port, counted, frame⟩ := State.resendsOldest (s := s) x.isLt (r.1, r.2.1, s.time) rest
  dsimp only at port counted frame
  generalize State.resendFrom _ x r.1 = u at port counted frame ⊢
  rw [State.linkFailure_counts (s := u) (x := x) (by rw [port]; exact few), port]
  refine runsTo_done _ _ _ ⟨?_, ?_, ?_, (get_settle _ _ _ (portErr_notPba x x.isLt)).trans ((State.get_setPort _ _ _ _).trans counted),
    (frame.trans (.setPort _ _ _ _ _ (by simp))).trans (.settle _ _ _ _)⟩
  · rw [port_settle, State.port_setPort _ _ _ x.isLt]
  · rw [port_settle, State.port_setPort _ _ _ x.isLt]
  · rw [port_settle, State.port_setPort _ _ _ x.isLt]

theorem resendTimeout_retrains_runs (many : (s.port x).fails = 15) : RunsTo (exec (.resendTimeout x) s) fun t =>
      t.portState x = portRetrain ∧ (t.port x).seq = (s.port x).seq ∧ (t.port x).keep ∧
      t.get (CL_P_TRAIN_RETRAIN x) = min (s.get (CL_P_TRAIN_RETRAIN x) + 1) 65535 := by
  rw [resendTimeout_eq x up kept due]
  obtain ⟨port, -, frame⟩ := State.resendsOldest (s := s) x.isLt (r.1, r.2.1, s.time) rest
  dsimp only at port frame
  generalize State.resendFrom _ x r.1 = u at port frame ⊢
  rw [State.linkFailure_retrains (s := u) (x := x) (by rw [port]; exact many)]
  obtain ⟨state, -⟩ := u.portRetrains_shows x.isLt
  obtain ⟨seq, keep, counted⟩ := u.portRetrains_keeps x.isLt
  have notPba : (CL_P_TRAIN_RETRAIN x).reg.notPba := .inl (by simp only [CL_P_TRAIN_RETRAIN, CL_P_TRAIN]; omega)
  refine runsTo_done _ _ _ ⟨(get_settle _ _ _ (portState_notPba x x.isLt)).trans state, by rw [port_settle, seq, port], by rw [port_settle, keep],
    (get_settle _ _ _ notPba).trans ?_⟩
  rw [counted, frame.reg _ notPba fun y hy => ?_]
  simp only [List.mem_cons, List.not_mem_nil, or_false] at hy
  exact hy ▸ .inl (by simp only [CL_P_ERR_RESEND, CL_P_ERR, CL_P_TRAIN_RETRAIN, CL_P_TRAIN]; omega)

end Resend

/-- Settles O40: training, blocks, acknowledgements and re-sends of the link ports. -/
theorem linkPorts : Obligations.LinkPorts := by
  unfold Obligations.LinkPorts
  exact ⟨fun _ x nbr => portTrain_begins_runs x nbr, fun _ x _ nbr => portTrain_up_runs x nbr, fun _ x => portTrainTimeout_runs x,
    fun _ x => retrainTimeout_runs x, fun _ x _ => blockSend_data_runs x, fun _ x => blockSend_empty_runs x,
    fun _ x _ up => ⟨blockReceive_bad_runs x up, fun good none_ fresh => blockReceive_next_runs x up good fresh none_,
      fun good none_ fresh => blockReceive_early_runs x up good fresh none_, fun good fresh => blockReceive_empty_runs x up good fresh⟩,
    fun _ x _ _ up kept due => ⟨resendTimeout_resends_runs x up kept due, resendTimeout_retrains_runs x up kept due⟩⟩

end Sys2Proof.Machine
end

section
/-! Joining, leaving and resetting a domain (R359, R361 to R364, R371) -/

namespace Sys2Proof.Machine

/-! ### Joining (R362, R363) -/

theorem State.devNum_congr {s t : State} (root : t.get CL_DOM_CTL_ROOT = s.get CL_DOM_CTL_ROOT) (number : t.get CL_DEVNUM_NUM = s.get CL_DEVNUM_NUM) :
    t.devNum = s.devNum := by
  unfold State.devNum
  rw [State.on_congr root, number]

/-- R357: a packet that meets an empty queue of port A goes up alone. -/
theorem State.sendUp_empty {s : State} {sub arg : Nat} {l : List Native} (empty : (s.port 0).queue = []) (small : l.length < 8) :
    ((s.sendUp sub arg l).port 0).queue = [Packet.make 4 0 s.devNum sub arg l] ∧ Frame s (s.sendUp sub arg l) [.cl] (fun _ => False) := by
  unfold State.sendUp
  rw [State.sendPacket_empty s empty (by rw [Packet.flits_make]; omega)]
  exact ⟨by rw [State.port_setPort _ _ _ (by decide)], .setPort _ _ _ _ _ (by simp)⟩

theorem joinOp_runs {s : State} (depth : BitVec 4) (join : s.on CL_DOM_CTL_JOIN) (aligning : s.domState = domAligning)
    (aligned : s.taState = taAligned)
    (up : s.portUp 0) (empty : (s.port 0).queue = []) : RunsTo (exec (.joinOp depth) s) fun t =>
      t.domState = domJoining ∧ t.get CL_DOM_STAT_DEPTH = depth.toNat ∧
      (t.port 0).queue = [Packet.make 4 0 s.devNum 3 depth.toNat []] ∧
      Frame s t [.cl] (· ∈ [CL_DOM_STAT_STATE, CL_DOM_STAT_DEPTH]) := by
  change RunsTo (doneIf (s.on CL_DOM_CTL_JOIN && s.domState == domAligning && s.taState == taAligned && s.portUp 0) s
    (((s.set CL_DOM_STAT_STATE domJoining).set CL_DOM_STAT_DEPTH depth.toNat).sendUp 3 depth.toNat [])) _
  rw [doneIf_pos (by rw [join, aligning, aligned, up]; rfl)]
  have state : (s.set CL_DOM_STAT_STATE domJoining).get CL_DOM_STAT_STATE = domJoining := State.get_set _ _ _ (Fld.inWord_of _ rfl)
  have first : Frame s (s.set CL_DOM_STAT_STATE domJoining) [] (· ∈ [CL_DOM_STAT_STATE, CL_DOM_STAT_DEPTH]) :=
    .set _ _ _ _ _ (Fld.inWord_of _ rfl) (by simp)
  generalize s.set CL_DOM_STAT_STATE domJoining = u at state first ⊢
  have distance : (u.set CL_DOM_STAT_DEPTH depth.toNat).get CL_DOM_STAT_DEPTH = depth.toNat % 16 := State.get_set _ _ _ (Fld.inWord_of _ rfl)
  have state' := State.get_set_apart u CL_DOM_STAT_DEPTH CL_DOM_STAT_STATE depth.toNat (Fld.inWord_of _ rfl) (Fld.apart_of _ _ rfl rfl)
  have second : Frame u (u.set CL_DOM_STAT_DEPTH depth.toNat) [] (· ∈ [CL_DOM_STAT_STATE, CL_DOM_STAT_DEPTH]) :=
    .set _ _ _ _ _ (Fld.inWord_of _ rfl) (by simp)
  generalize u.set CL_DOM_STAT_DEPTH depth.toNat = v at distance state' second ⊢
  have both := first.trans second
  have number : v.devNum = s.devNum := State.devNum_congr (both.reg _ (.inl (by decide)) fun y hy => ?_) (both.reg _ (.inl
      (by decide)) fun y hy => ?_)
  · obtain ⟨queue, third⟩ := State.sendUp_empty (s := v) (sub := 3) (arg := depth.toNat) (l := []) (by rw [both.port (by simp), empty]) (by decide)
    refine runsTo_done _ _ _ ⟨?_, ?_, by rw [port_settle, queue, number],
      ((both.mono (by simp) fun _ => id).trans (third.mono (by simp) fun _ => False.elim)).trans (.settle _ _ _ _)⟩
    · exact (get_settle _ _ _ (.inl (by decide))).trans ((third.reg _ (.inl (by decide)) fun _ => False.elim).trans (state'.trans state))
    · rw [get_settle _ _ _ (.inl (by decide)), third.reg _ (.inl (by decide)) fun _ => False.elim, distance, Nat.mod_eq_of_lt depth.isLt]
  all_goals
    simp only [List.mem_cons, List.not_mem_nil, or_false] at hy
    obtain rfl | rfl := hy <;> exact .inl (by decide)

/-- R363: the routes with the one through port x for device d. -/
def routesWith (l : List (Nat × Nat)) (d x : Nat) : List (Nat × Nat) :=
  (l.filter fun r => decide (r.1 < d)) ++ (d, x) :: l.filter fun r => decide (d < r.1)

theorem find_routesWith (l : List (Nat × Nat)) (d x : Nat) : (routesWith l d x).find? (·.1 == d) = some (d, x) := by
  unfold routesWith
  rw [List.find?_append, List.find?_eq_none.2 fun r hr => ?_, Option.none_or, List.find?_cons_of_pos (by simp)]
  have := of_decide_eq_true (List.mem_filter.1 hr).2
  simp only [beq_iff_eq]
  omega

/-- R363: the route learned is the one that a packet for the device takes. -/
theorem State.learnRoute_routes (s : State) (d : Nat) {x : Nat} (below : x = 1 ∨ x = 2) :
    (d, x) ∈ (s.learnRoute d x).cl.routes ∧ (s.learnRoute d x).routeTo d = some x ∧ (∀ y, (s.learnRoute d x).port y = s.port y) ∧
    Frame s (s.learnRoute d x) [.cl] (fun _ => False) := by
  have eq : s.learnRoute d x = { s with cl := { s.cl with routes := routesWith s.cl.routes d x } } := if_pos below
  rw [eq]
  refine ⟨by simp [routesWith], ?_, fun _ => rfl, .setCl _ _ _ _ (by simp)⟩
  unfold State.routeTo
  dsimp only
  rw [find_routesWith]

/-- R357: a packet for a device with a route waits alone at its port. -/
theorem State.routePacket_empty {s : State} {p : Packet} {x : Nat} (hx : x < 4) (route : s.routeTo p.dst = some x) (empty : (s.port x).queue = [])
    (small : p.flits ≤ 384) : ((s.routePacket p).port x).queue = [p] ∧ (s.routePacket p).cl.routes = s.cl.routes ∧
    Frame s (s.routePacket p) [.cl] (fun _ => False) := by
  unfold State.routePacket
  rw [route]
  dsimp only
  rw [State.sendPacket_empty s empty small]
  exact ⟨by rw [State.port_setPort _ _ _ hx], rfl, .setPort _ _ _ _ _ (by simp)⟩

theorem State.routeTo_congr {s t : State} (routes : t.cl.routes = s.cl.routes) (root : t.get CL_DOM_CTL_ROOT = s.get CL_DOM_CTL_ROOT) (d : Nat) :
    t.routeTo d = s.routeTo d := by
  unfold State.routeTo State.isRoot
  rw [routes, State.on_congr root]

theorem State.memberBit_congr {s t : State} {d : Nat} (h : t.get (CL_MEM_MEM (d / 32)) = s.get (CL_MEM_MEM
    (d / 32))) : t.memberBit d = s.memberBit d := by
  unfold State.memberBit State.bit
  rw [h]

theorem mem_notPba {d : Nat} (hd : d < 1024) : (CL_MEM_MEM (d / 32)).reg.notPba := .inl (by simp only [CL_MEM_MEM, CL_MEM]; omega)

/-- R362, R364: a device joins or leaves the list of members. -/
theorem State.putMember_changes {s : State} {d : Nat} {is : Bool} (change : s.memberBit d = !is) :
    (s.putMember d is).memberBit d = is ∧ (s.putMember d is).get CL_DOM_STAT_NMEM =
      (if is then s.get CL_DOM_STAT_NMEM + 1 else s.get CL_DOM_STAT_NMEM - 1) % 2048 ∧
    Frame s (s.putMember d is) [] (· ∈ [CL_MEM_MEM (d / 32), CL_DOM_STAT_NMEM]) := by
  have eq : s.putMember d is = (s.setBit (CL_MEM_MEM (d / 32)) (d % 32) is).set CL_DOM_STAT_NMEM
      (if is then s.get CL_DOM_STAT_NMEM + 1 else s.get CL_DOM_STAT_NMEM - 1) := if_neg (by
    rw [change]
    cases is <;> decide)
  rw [eq]
  generalize (if is then s.get CL_DOM_STAT_NMEM + 1 else s.get CL_DOM_STAT_NMEM - 1) = n
  have named : (s.setBit (CL_MEM_MEM (d / 32)) (d % 32) is).memberBit d = is :=
    (State.bit_setBit s (CL_MEM_MEM (d / 32)) _ _ _ (Fld.inWord_of _ rfl) (Nat.mod_lt d (show 0 < 32 by decide))).trans (if_pos rfl)
  have first : Frame s (s.setBit (CL_MEM_MEM (d / 32)) (d % 32) is) [] (· ∈ [CL_MEM_MEM (d / 32), CL_DOM_STAT_NMEM]) :=
    .setBit _ _ _ _ _ _ (Fld.inWord_of _ rfl) (by simp)
  generalize s.setBit (CL_MEM_MEM (d / 32)) (d % 32) is = u at named first ⊢
  exact ⟨(State.memberBit_congr (State.get_set_apart _ _ _ _ (Fld.inWord_of _ rfl)
      (.inl (by simp only [CL_DOM_STAT_NMEM, CL_DOM_STAT, CL_MEM_MEM, CL_MEM]; omega)))).trans named,
    State.get_set _ _ _ (Fld.inWord_of _ rfl), first.trans (.set _ _ _ _ _ (Fld.inWord_of _ rfl) (by simp))⟩

theorem memberField.apart {d : Nat} {y z : Fld} (hy : y ∈ [CL_MEM_MEM (d / 32), CL_DOM_STAT_NMEM]) (low : z.reg.addr < 0x30200)
    (ne : z.reg.addr ≠ CL_DOM_STAT.addr) : y.apart z := by
  simp only [List.mem_cons, List.not_mem_nil, or_false] at hy
  obtain rfl | rfl := hy
  · exact .inl (by simp only [CL_MEM_MEM, CL_MEM]; omega)
  · exact .inl (Ne.symm ne)

theorem State.joinReceived_accepts {s : State} {d depth : Nat} (ok : s.joinReason d depth = 0) :
    s.joinReceived d depth = (s.putMember d true).routePacket (Packet.make 6 d 0 0 0 []) := by
  unfold State.joinReceived
  simp only [ok]

theorem State.joinReceived_duplicate {s : State} {d depth : Nat} (taken : s.joinReason d depth = 1) :
    s.joinReceived d depth = (s.flag CL_FLAGS_DUPNUM CL_CNT1_DUPNUM).routePacket (Packet.make 6 d 0 1 1 []) := by
  unfold State.joinReceived
  simp only [taken, if_true]

section Join
variable {s : State} (dev : BitVec 10) (depth : BitVec 4) (x : Fin 4) (root : s.isRoot) (below : x = 1 ∨ x = 2) (empty : (s.port x).queue = [])
include root below empty

theorem joinReceive_accepts_runs (new : s.memberBit dev.toNat = false) (room : s.get CL_DOM_STAT_NMEM < 1024) (near : depth.toNat ≤ 10) :
    RunsTo (exec (.joinReceive dev depth x) s) fun t =>
        t.memberBit dev.toNat ∧ t.get CL_DOM_STAT_NMEM = s.get CL_DOM_STAT_NMEM + 1 ∧ (dev.toNat, x.val) ∈ t.cl.routes ∧
        (t.port x).queue = [Packet.make 6 dev.toNat 0 0 0 []] ∧
        Frame s t [.cl] (· ∈ [CL_MEM_MEM (dev.toNat / 32), CL_DOM_STAT_NMEM]) := by
  have port12 : x.val = 1 ∨ x.val = 2 := below.imp (congrArg Fin.val) (congrArg Fin.val)
  change RunsTo (doneIf s.isRoot s ((s.learnRoute dev.toNat x).joinReceived dev.toNat depth.toNat)) _
  rw [doneIf_pos root]
  obtain ⟨known, route, ports, first⟩ := s.learnRoute_routes dev.toNat port12
  have get : ∀ y : Fld, y.reg.notPba → (s.learnRoute dev.toNat x).get y = s.get y := fun y hy => first.reg y hy fun _ => False.elim
  generalize s.learnRoute dev.toNat x = u at known route ports first get ⊢
  have absent : u.memberBit dev.toNat = false := (State.memberBit_congr (get _ (mem_notPba dev.isLt))).trans new
  have count := get CL_DOM_STAT_NMEM (.inl (by decide))
  have accepted : u.joinReason dev.toNat depth.toNat = 0 := by
    unfold State.joinReason
    rw [absent, count, if_neg (by decide), if_neg (by omega), if_neg (by omega)]
  rw [State.joinReceived_accepts accepted]
  obtain ⟨member, number, second⟩ := State.putMember_changes (s := u) (d := dev.toNat) (is := true) absent
  have routes : (u.putMember dev.toNat true).cl = u.cl := second.part .cl (by simp)
  have rootKept := second.reg CL_DOM_CTL_ROOT (.inl (by decide)) fun y hy => memberField.apart hy (by decide) (by decide)
  generalize u.putMember dev.toNat true = v at member number second routes rootKept ⊢
  obtain ⟨queue, last, third⟩ := State.routePacket_empty (s := v) (p := Packet.make 6 dev.toNat 0 0 0 []) x.isLt (by
      rw [Packet.dst_make _ _ _ _ _ (by decide) dev.isLt, State.routeTo_congr (by rw [routes]) rootKept, route])
    (by rw [State.port_of_cl routes, ports, empty]) (by rw [Packet.flits_make]; decide)
  refine runsTo_done _ _ _ ⟨?_, ?_, ?_, by rw [port_settle, queue], ((first.mono (by simp) fun _ => False.elim).trans
    ((second.mono (by simp) fun _ => id).trans (third.mono (by simp) fun _ => False.elim))).trans (.settle _ _ _ _)⟩
  · rw [State.memberBit_congr ((get_settle _ _ _ (mem_notPba dev.isLt)).trans (third.reg _ (mem_notPba dev.isLt) fun _ => False.elim)), member]
  · rw [get_settle _ _ _ (.inl (by decide)), third.reg _ (.inl (by decide)) fun _ => False.elim, number, if_pos rfl, count]
    omega
  · rw [settle_cl, last, routes]
    exact known

theorem joinReceive_duplicate_runs (taken : s.memberBit dev.toNat) : RunsTo (exec (.joinReceive dev depth x) s) fun t =>
        t.get CL_FLAGS_DUPNUM = 1 ∧ t.memberBit dev.toNat ∧ (t.port x).queue = [Packet.make 6 dev.toNat 0 1 1 []] ∧
        Frame s t [.cl] (· ∈ [CL_FLAGS_DUPNUM, CL_CNT1_DUPNUM]) := by
  have port12 : x.val = 1 ∨ x.val = 2 := below.imp (congrArg Fin.val) (congrArg Fin.val)
  change RunsTo (doneIf s.isRoot s ((s.learnRoute dev.toNat x).joinReceived dev.toNat depth.toNat)) _
  rw [doneIf_pos root]
  obtain ⟨known, route, ports, first⟩ := s.learnRoute_routes dev.toNat port12
  have get : ∀ y : Fld, y.reg.notPba → (s.learnRoute dev.toNat x).get y = s.get y := fun y hy => first.reg y hy fun _ => False.elim
  generalize s.learnRoute dev.toNat x = u at known route ports first get ⊢
  have present : u.memberBit dev.toNat = true := (State.memberBit_congr (get _ (mem_notPba dev.isLt))).trans taken
  have refused : u.joinReason dev.toNat depth.toNat = 1 := if_pos present
  rw [State.joinReceived_duplicate refused]
  have flagged := State.get_flag u CL_FLAGS_DUPNUM CL_CNT1_DUPNUM (Fld.inWord_of _ rfl) (Fld.inWord_of _ rfl) (.inl (by decide)) rfl
  have second := Frame.flag u [] (· ∈ [CL_FLAGS_DUPNUM, CL_CNT1_DUPNUM]) CL_FLAGS_DUPNUM CL_CNT1_DUPNUM (Fld.inWord_of _ rfl) (Fld.inWord_of _ rfl)
    (by simp) (by simp)
  have routes : (u.flag CL_FLAGS_DUPNUM CL_CNT1_DUPNUM).cl = u.cl := second.part .cl (by simp)
  have kept : ∀ z : Fld, z.reg.notPba → CL_FLAGS.addr ≠ z.reg.addr → CL_CNT1.addr ≠ z.reg.addr →
      (u.flag CL_FLAGS_DUPNUM CL_CNT1_DUPNUM).get z = u.get z := fun z notPba f c => second.reg z notPba fun y hy => by
    simp only [List.mem_cons, List.not_mem_nil, or_false] at hy
    obtain rfl | rfl := hy
    · exact .inl f
    · exact .inl c
  generalize u.flag CL_FLAGS_DUPNUM CL_CNT1_DUPNUM = v at flagged second routes kept ⊢
  obtain ⟨queue, -, third⟩ := State.routePacket_empty (s := v) (p := Packet.make 6 dev.toNat 0 1 1 []) x.isLt (by
      rw [Packet.dst_make _ _ _ _ _ (by decide) dev.isLt, State.routeTo_congr (by rw [routes]) (kept _ (.inl (by decide)) (by decide)
          (by decide)), route])
    (by rw [State.port_of_cl routes, ports, empty]) (by rw [Packet.flits_make]; decide)
  refine runsTo_done _ _ _ ⟨?_, ?_, by rw [port_settle, queue], ((first.mono (by simp) fun _ => False.elim).trans
    ((second.mono (by simp) fun _ => id).trans (third.mono (by simp) fun _ => False.elim))).trans (.settle _ _ _ _)⟩
  · rw [get_settle _ _ _ (.inl (by decide)), third.reg _ (.inl (by decide)) fun _ => False.elim, flagged]
  · rw [State.memberBit_congr ((get_settle _ _ _ (mem_notPba dev.isLt)).trans ((third.reg _ (mem_notPba dev.isLt) fun _ => False.elim).trans
      (kept _ (mem_notPba dev.isLt) (by simp only [CL_FLAGS, CL_MEM_MEM, CL_MEM]; omega) (by simp only [CL_CNT1, CL_MEM_MEM, CL_MEM]; omega)))),
          present]

end Join

/-! ### Members (R362, R364) -/

/-- R251: no barrier is of the domain, so none is reported. -/
theorem State.barrierSelf_idle {s : State} {b : Nat} (own : s.on (SQ_BAR_CTL_DOM 0 b) = false) : s.barrierSelf b = s :=
  if_neg (by rw [own]; exact Bool.false_ne_true)

theorem joinReply_accepted_runs {s : State} (reason : BitVec 4) (joining : s.domState = domJoining)
    (own : ∀ b < 8, s.on (SQ_BAR_CTL_DOM 0 b) = false) : RunsTo (exec (.joinReplyReceive true reason) s) fun t =>
      t.domState = domMember ∧ t.get CL_DEVNUM_MEMBER = 1 ∧ t.dg.owed ∧
      Frame s t [.dg] (· ∈ [CL_DOM_STAT_STATE, CL_DEVNUM_MEMBER]) := by
  change RunsTo (done s (s.joinReplied true)) _
  unfold State.joinReplied
  rw [if_neg (fun h => h joining), if_pos rfl]
  dsimp only
  have state : (s.set CL_DOM_STAT_STATE domMember).get CL_DOM_STAT_STATE = domMember := State.get_set _ _ _ (Fld.inWord_of _ rfl)
  have first : Frame s (s.set CL_DOM_STAT_STATE domMember) [] (· ∈ [CL_DOM_STAT_STATE, CL_DEVNUM_MEMBER]) :=
    .set _ _ _ _ _ (Fld.inWord_of _ rfl) (by simp)
  generalize s.set CL_DOM_STAT_STATE domMember = u at state first ⊢
  have member : (u.set CL_DEVNUM_MEMBER 1).get CL_DEVNUM_MEMBER = 1 := State.get_set _ _ _ (Fld.inWord_of _ rfl)
  have state' := State.get_set_apart u CL_DEVNUM_MEMBER CL_DOM_STAT_STATE 1 (Fld.inWord_of _ rfl) (.inl (by decide))
  have second : Frame u (u.set CL_DEVNUM_MEMBER 1) [] (· ∈ [CL_DOM_STAT_STATE, CL_DEVNUM_MEMBER]) :=
    .set _ _ _ _ _ (Fld.inWord_of _ rfl) (by simp)
  generalize u.set CL_DEVNUM_MEMBER 1 = v at member state' second ⊢
  have third : Frame v { v with dg := { v.dg with owed := true } } [.dg] (fun _ => False) := .setDg _ _ _ _ (by simp)
  have owed : (State.dg { v with dg := { v.dg with owed := true } }).owed = true := rfl
  generalize ({ v with dg := { v.dg with owed := true } } : State) = w at third owed ⊢
  have all := ((first.trans second).mono (by simp) fun _ => id).trans (third.mono (fun _ => id) fun _ => False.elim)
  have idle : w.forEach (List.range 8) State.barrierSelf = w := State.forEach_idle fun b hb => State.barrierSelf_idle (by
    have low := List.mem_range.1 hb
    have notPba : (SQ_BAR_CTL_DOM 0 b).reg.notPba := .inr (by simp only [SQ_BAR_CTL_DOM, SQ_BAR_CTL, groupBase]; omega)
    rw [State.on_congr (all.reg _ notPba fun y hy => ?_), own b low]
    simp only [List.mem_cons, List.not_mem_nil, or_false] at hy
    obtain rfl | rfl := hy
    · exact .inl (by simp only [CL_DOM_STAT_STATE, CL_DOM_STAT, SQ_BAR_CTL_DOM, SQ_BAR_CTL, groupBase]; omega)
    · exact .inl (by simp only [CL_DEVNUM_MEMBER, CL_DEVNUM, SQ_BAR_CTL_DOM, SQ_BAR_CTL, groupBase]; omega))
  rw [idle]
  exact runsTo_done _ _ _ ⟨(get_settle _ _ _ (.inl (by decide))).trans ((third.reg _ (.inl (by decide)) fun _ => False.elim).trans
      (state'.trans state)),
    (get_settle _ _ _ (.inl (by decide))).trans ((third.reg _ (.inl (by decide)) fun _ => False.elim).trans member),
    by rw [settle_dg, owed], all.trans (.settle _ _ _ _)⟩

theorem joinReply_refused_runs {s : State} (reason : BitVec 4) (joining : s.domState = domJoining) :
    RunsTo (exec (.joinReplyReceive false reason) s) fun t =>
      t.domState = domRefused ∧ t.get CL_FLAGS_JOINREF = 1 ∧
      t.get CL_CNT0_JOINREF = min (s.get CL_CNT0_JOINREF + 1) 65535 ∧
      Frame s t [] (· ∈ [CL_DOM_STAT_STATE, CL_FLAGS_JOINREF, CL_CNT0_JOINREF]) := by
  change RunsTo (done s (s.joinReplied false)) _
  unfold State.joinReplied
  rw [if_neg (fun h => h joining), if_neg (by decide)]
  have state : (s.set CL_DOM_STAT_STATE domRefused).get CL_DOM_STAT_STATE = domRefused := State.get_set _ _ _ (Fld.inWord_of _ rfl)
  have count := State.get_set_apart s CL_DOM_STAT_STATE CL_CNT0_JOINREF domRefused (Fld.inWord_of _ rfl) (.inl (by decide))
  have first : Frame s (s.set CL_DOM_STAT_STATE domRefused) [] (· ∈ [CL_DOM_STAT_STATE, CL_FLAGS_JOINREF, CL_CNT0_JOINREF]) :=
    .set _ _ _ _ _ (Fld.inWord_of _ rfl) (by simp)
  generalize s.set CL_DOM_STAT_STATE domRefused = u at state count first ⊢
  have state' := State.get_flag_apart u CL_FLAGS_JOINREF CL_CNT0_JOINREF CL_DOM_STAT_STATE (Fld.inWord_of _ rfl) (Fld.inWord_of _ rfl)
    (.inl (by decide)) (.inl (by decide))
  refine runsTo_done _ _ _ ⟨(get_settle _ _ _ (.inl (by decide))).trans (state'.trans state),
    (get_settle _ _ _ (.inl (by decide))).trans (State.get_flag _ _ _ (Fld.inWord_of _ rfl) (Fld.inWord_of _ rfl) (.inl (by decide)) rfl),
    (get_settle _ _ _ (.inl (by decide))).trans ((State.get_flag_count _ _ _ (Fld.inWord_of _ rfl) (Fld.inWord_of _ rfl) (.inl
        (by decide))).trans ?_),
    (first.trans (.flag _ _ _ _ _ (Fld.inWord_of _ rfl) (Fld.inWord_of _ rfl) (by simp) (by simp))).trans (.settle _ _ _ _)⟩
  rw [count]
  rfl

theorem rejoin_runs {s : State} (ready : s.ready) (refused : s.domState = domRefused) (join : s.on CL_DOM_CTL_JOIN) (below : s.isRoot = false)
    (up : s.portUp 0) : RunsTo (exec .rejoin s) fun t => t.domState = domAligning ∧ Frame s t [] (· ∈ [CL_DOM_STAT_STATE]) := by
  have eq : s.rejoin = s.set CL_DOM_STAT_STATE domAligning := by
    unfold State.rejoin State.tryJoin
    rw [if_pos refused, join, below, up, refused]
    rfl
  have aligning : (s.set CL_DOM_STAT_STATE domAligning).get CL_DOM_STAT_STATE = domAligning := State.get_set _ _ _ (Fld.inWord_of _ rfl)
  change RunsTo (hostDone s s.rejoin) _
  rw [eq]
  exact runsTo_hostDone _ _ _ ready ⟨(get_settle _ _ _ (.inl (by decide))).trans aligning,
    (Frame.set _ _ _ _ _ (Fld.inWord_of _ rfl) (by simp)).trans (.settle _ _ _ _)⟩

/-- What a device that leaves may change. -/
def leaveField (y : Fld) : Prop :=
  y ∈ [CL_DOM_STAT_STATE, CL_DEVNUM_MEMBER, CL_FLAGS_LEFT, CL_CNT0_LEFT, CL_TA_STAT_STATE, CL_FLAGS_FWDDROP] ∨ ∃ x, y = CL_P_DROP_DROP x

/-- R364: a member leaves the domain and says so down the tree. -/
theorem State.leave_leaves {s : State} (member : s.isMember) (below : s.isRoot = false) (empty : (s.port 1).queue = []) :
    s.leave.domState = domLeft ∧ s.leave.isMember = false ∧ s.leave.taState = taHoldover ∧ s.leave.get CL_FLAGS_LEFT = 1 ∧
    (s.leave.port 1).queue = [Packet.make 3 0 s.devNum 9 0 []] ∧ Frame s s.leave [.cl] leaveField := by
  have eq : s.leave = ((((s.set CL_DOM_STAT_STATE domLeft).set CL_DEVNUM_MEMBER 0).flag CL_FLAGS_LEFT CL_CNT0_LEFT).set CL_TA_STAT_STATE
      taHoldover).broadcast 9 0 [] := if_pos (by rw [member, below]; rfl)
  rw [eq]
  have left : (s.set CL_DOM_STAT_STATE domLeft).get CL_DOM_STAT_STATE = domLeft := State.get_set _ _ _ (Fld.inWord_of _ rfl)
  have first : Frame s (s.set CL_DOM_STAT_STATE domLeft) [.cl] leaveField := .set _ _ _ _ _ (Fld.inWord_of _ rfl) (.inl (by simp))
  have far1 : ∀ z : Fld, CL_DOM_STAT_STATE.apart z → (s.set CL_DOM_STAT_STATE domLeft).get z = s.get z := fun z =>
    State.get_set_apart _ _ _ _ (Fld.inWord_of _ rfl)
  have cl1 : (s.set CL_DOM_STAT_STATE domLeft).cl = s.cl := State.set_cl _ _ _
  generalize s.set CL_DOM_STAT_STATE domLeft = a at left first far1 cl1 ⊢
  have outside : (a.set CL_DEVNUM_MEMBER 0).get CL_DEVNUM_MEMBER = 0 := State.get_set _ _ _ (Fld.inWord_of _ rfl)
  have second : Frame a (a.set CL_DEVNUM_MEMBER 0) [.cl] leaveField := .set _ _ _ _ _ (Fld.inWord_of _ rfl) (.inl (by simp))
  have far2 : ∀ z : Fld, CL_DEVNUM_MEMBER.apart z → (a.set CL_DEVNUM_MEMBER 0).get z = a.get z := fun z =>
    State.get_set_apart _ _ _ _ (Fld.inWord_of _ rfl)
  have cl2 : (a.set CL_DEVNUM_MEMBER 0).cl = a.cl := State.set_cl _ _ _
  generalize a.set CL_DEVNUM_MEMBER 0 = b at outside second far2 cl2 ⊢
  have flagged := State.get_flag b CL_FLAGS_LEFT CL_CNT0_LEFT (Fld.inWord_of _ rfl) (Fld.inWord_of _ rfl) (.inl (by decide)) rfl
  have third : Frame b (b.flag CL_FLAGS_LEFT CL_CNT0_LEFT) [.cl] leaveField :=
    .flag _ _ _ _ _ (Fld.inWord_of _ rfl) (Fld.inWord_of _ rfl) (.inl (by simp)) (.inl (by simp))
  have far3 : ∀ z : Fld, CL_FLAGS_LEFT.apart z → CL_CNT0_LEFT.apart z → (b.flag CL_FLAGS_LEFT CL_CNT0_LEFT).get z = b.get z := fun z =>
    State.get_flag_apart _ _ _ _ (Fld.inWord_of _ rfl) (Fld.inWord_of _ rfl)
  have cl3 : (b.flag CL_FLAGS_LEFT CL_CNT0_LEFT).cl = b.cl := State.flag_cl _ _ _
  generalize b.flag CL_FLAGS_LEFT CL_CNT0_LEFT = c at flagged third far3 cl3 ⊢
  have holds : (c.set CL_TA_STAT_STATE taHoldover).get CL_TA_STAT_STATE = taHoldover := State.get_set _ _ _ (Fld.inWord_of _ rfl)
  have fourth : Frame c (c.set CL_TA_STAT_STATE taHoldover) [.cl] leaveField := .set _ _ _ _ _ (Fld.inWord_of _ rfl) (.inl (by simp))
  have far4 : ∀ z : Fld, CL_TA_STAT_STATE.apart z → (c.set CL_TA_STAT_STATE taHoldover).get z = c.get z := fun z =>
    State.get_set_apart _ _ _ _ (Fld.inWord_of _ rfl)
  have cl4 : (c.set CL_TA_STAT_STATE taHoldover).cl = c.cl := State.set_cl _ _ _
  generalize c.set CL_TA_STAT_STATE taHoldover = d at holds fourth far4 cl4 ⊢
  have number : d.devNum = s.devNum := State.devNum_congr
    ((far4 _ (.inl (by decide))).trans ((far3 _ (.inl (by decide)) (.inl (by decide))).trans ((far2 _ (.inl (by decide))).trans (far1 _ (.inl
        (by decide))))))
    ((far4 _ (.inl (by decide))).trans ((far3 _ (.inl (by decide)) (.inl (by decide))).trans
      ((far2 CL_DEVNUM_NUM (Fld.apart_of _ _ rfl rfl)).trans (far1 _ (.inl (by decide))))))
  have queue := d.port_broadcast 9 0 [] (by rw [State.port_of_cl (((cl4.trans cl3).trans cl2).trans cl1), empty]) (by decide)
  have fifth : Frame d (d.broadcast 9 0 []) [.cl] (fun y => y = CL_FLAGS_FWDDROP ∨ ∃ x, y = CL_P_DROP_DROP x) :=
    .broadcast _ _ _ _ _ _ (by simp) (fun x => .inr ⟨x, rfl⟩) (.inl rfl)
  have far5 : ∀ z : Fld, z.reg.addr < 0x30100 → CL_FLAGS_FWDDROP.apart z → (d.broadcast 9 0 []).get z = d.get z := fun z low apart =>
    fifth.reg z (.inl (by omega)) fun y hy => by
      obtain rfl | ⟨x, rfl⟩ := hy
      · exact apart
      · exact .inl (by simp only [CL_P_DROP_DROP, CL_P_DROP]; omega)
  rw [State.broadcastPacket, number] at queue
  refine ⟨?_, ?_, ?_, ?_, queue, (((first.trans second).trans third).trans fourth).trans (fifth.mono (fun _ => id) fun y hy =>
    hy.elim (fun h => .inl (by simp [h])) .inr)⟩
  · exact (far5 _ (by decide) (.inl (by decide))).trans ((far4 _ (.inl (by decide))).trans ((far3 _ (.inl (by decide)) (.inl (by decide))).trans
      ((far2 _ (.inl (by decide))).trans left)))
  · exact State.on_of_get ((far5 CL_DEVNUM_MEMBER (by decide) (.inl (by decide))).trans ((far4 _ (.inl (by decide))).trans
      ((far3 _ (.inl (by decide)) (.inl (by decide))).trans outside)))
  · exact (far5 _ (by decide) (.inl (by decide))).trans holds
  · exact (far5 CL_FLAGS_LEFT (by decide) (Fld.apart_of _ _ rfl rfl)).trans ((far4 _ (.inl (by decide))).trans flagged)

/-- R364: a departure as the interrupts leave it. -/
theorem leave_runs {s : State} (member : s.isMember) (below : s.isRoot = false) (empty : (s.port 1).queue = []) :
    RunsTo (done s s.leave) fun t => t.domState = domLeft ∧ t.isMember = false ∧ t.taState = taHoldover ∧ t.get CL_FLAGS_LEFT = 1 ∧
      (t.port 1).queue = [Packet.make 3 0 s.devNum 9 0 []] ∧ Frame s t [.cl] leaveField := by
  obtain ⟨left, outside, holds, flagged, queue, frame⟩ := State.leave_leaves member below empty
  exact runsTo_done _ _ _ ⟨(get_settle _ _ _ (.inl (by decide))).trans left, (on_settle _ _ _ (.inl (by decide))).trans outside,
    (get_settle _ _ _ (.inl (by decide))).trans holds, (get_settle _ _ _ (.inl (by decide))).trans flagged, by rw [port_settle, queue],
    frame.trans (.settle _ _ _ _)⟩

theorem leaveTimeout_runs {s : State} (member : s.isMember) (below : s.isRoot = false) (empty : (s.port 1).queue = []) (down : s.portUp 0 = false)
    (late : 1600 * s.get CL_DOM_CTL_LEAVE ≤ s.since (s.port 0).downAt) : RunsTo (exec .leaveTimeout s) fun t =>
        t.domState = domLeft ∧ t.isMember = false ∧ t.taState = taHoldover ∧ t.get CL_FLAGS_LEFT = 1 ∧
        (t.port 1).queue = [Packet.make 3 0 s.devNum 9 0 []] := by
  have due : usTclk (s.get CL_DOM_CTL_LEAVE) ≤ s.since (s.port 0).downAt := by
    unfold usTclk
    omega
  change RunsTo (doneIf (!s.portUp 0 && decide (usTclk (s.get CL_DOM_CTL_LEAVE) ≤ s.since (s.port 0).downAt)) s s.leave) _
  rw [doneIf_pos (by rw [down, decide_eq_true due]; rfl)]
  exact (leave_runs member below empty).mono fun t ⟨left, outside, holds, flagged, queue, _⟩ => ⟨left, outside, holds, flagged, queue⟩

theorem pruneReceive_runs {s : State} (dev : BitVec 10) (root : s.isRoot) (member : s.memberBit dev.toNat) (some_ : 0 < s.get CL_DOM_STAT_NMEM) :
    RunsTo (exec (.pruneReceive dev) s) fun t =>
      t.memberBit dev.toNat = false ∧ t.get CL_DOM_STAT_NMEM = s.get CL_DOM_STAT_NMEM - 1 ∧ t.get CL_FLAGS_MEMLOST = 1 ∧
      Frame s t [] (· ∈ [CL_MEM_MEM (dev.toNat / 32), CL_DOM_STAT_NMEM, CL_FLAGS_MEMLOST, CL_CNT1_MEMLOST]) := by
  have eq : s.pruned dev.toNat = (s.putMember dev.toNat false).flag CL_FLAGS_MEMLOST CL_CNT1_MEMLOST := if_pos member
  have width : s.get CL_DOM_STAT_NMEM < 2048 := State.get_lt s CL_DOM_STAT_NMEM
  change RunsTo (doneIf s.isRoot s (s.pruned dev.toNat)) _
  rw [doneIf_pos root, eq]
  obtain ⟨gone, number, first⟩ := State.putMember_changes (s := s) (d := dev.toNat) (is := false) member
  generalize s.putMember dev.toNat false = u at gone number first ⊢
  have kept : ∀ z : Fld, CL_FLAGS_MEMLOST.apart z → CL_CNT1_MEMLOST.apart z → (u.flag CL_FLAGS_MEMLOST CL_CNT1_MEMLOST).get z = u.get z := fun z =>
    State.get_flag_apart _ _ _ _ (Fld.inWord_of _ rfl) (Fld.inWord_of _ rfl)
  refine runsTo_done _ _ _ ⟨?_, ?_, (get_settle _ _ _ (.inl (by decide))).trans (State.get_flag _ _ _ (Fld.inWord_of _ rfl) (Fld.inWord_of _ rfl)
      (.inl (by decide)) rfl),
    ((first.mono (fun _ => id) fun y hy => ?_).trans (.flag _ _ _ _ _ (Fld.inWord_of _ rfl) (Fld.inWord_of _ rfl) (by simp) (by simp))).trans
      (.settle _ _ _ _)⟩
  · rw [State.memberBit_congr ((get_settle _ _ _ (mem_notPba dev.isLt)).trans (kept _
      (.inl (by simp only [CL_FLAGS_MEMLOST, CL_FLAGS, CL_MEM_MEM, CL_MEM]; omega))
      (.inl (by simp only [CL_CNT1_MEMLOST, CL_CNT1, CL_MEM_MEM, CL_MEM]; omega)))), gone]
  · rw [get_settle _ _ _ (.inl (by decide)), kept _ (.inl (by decide)) (.inl (by decide)), number, if_neg (by decide)]
    exact Nat.mod_eq_of_lt (by omega)
  · simp only [List.mem_cons, List.not_mem_nil, or_false] at hy ⊢
    tauto

/-! ### Resets of a domain (R371) -/

theorem gang_notPba {e : Nat} (he : e < 32) : (SQ_GANG_M e).reg.notPba := .inr (by simp only [SQ_GANG_M, SQ_GANG, groupBase]; omega)

/-- R357: a broadcast leaves by ports B and C. -/
theorem Frame.broadcast_ports (s : State) (sub arg : Nat) (l : List Native) : Frame s (s.broadcast sub arg l) [.cl]
    (fun y => y.reg.addr < 0x30200) := by
  rw [State.broadcast_eq]
  exact .trans (.sendPacket _ _ _ _ _ (by simp) (by decide) (by decide)) (.sendPacket _ _ _ _ _ (by simp) (by decide) (by decide))

theorem dreset_runs {s : State} (single : ∀ e < 32, s.get (SQ_GANG_M e) = 0) (ready : s.ready) (root : s.isRoot) (empty : (s.port 1).queue = []) :
    RunsTo (exec .dreset s) fun t =>
      (∀ e < 32, ∀ c < 32, t.ctxState e c = .idle) ∧ (t.port 1).queue = [Packet.make 3 0 0 8 0 []] := by
  have eq : s.dreset = (s.broadcast 8 0 []).resetAllEngines := if_pos root
  have number : s.devNum = 0 := if_pos root
  change RunsTo (hostDone s s.dreset) _
  rw [eq]
  have queue := s.port_broadcast 8 0 [] empty (by decide)
  rw [State.broadcastPacket, number] at queue
  have still : ∀ e < 32, (s.broadcast 8 0 []).get (SQ_GANG_M e) = 0 := fun e he =>
    ((Frame.broadcast_ports s 8 0 []).reg _ (gang_notPba he) fun y hy => .inl (by simp only [SQ_GANG_M, SQ_GANG, groupBase]; omega)).trans
        (single e he)
  generalize s.broadcast 8 0 [] = u at queue still ⊢
  obtain ⟨idles, second⟩ := State.resetAllEngines_single still
  refine runsTo_hostDone _ _ _ ready ⟨fun e he c hc => ?_, by rw [port_settle, second.port (by simp), queue]⟩
  exact (State.ctxState_congr (get_settle_group _ _ (ctxStat_addr rfl))).trans (idles e he c hc)

theorem dresetReceive_runs {s : State} (single : ∀ e < 32, s.get (SQ_GANG_M e) = 0) (member : s.isMember) (below : s.isRoot = false) :
    RunsTo (exec .dresetReceive s) fun t =>
      (∀ e < 32, ∀ c < 32, t.ctxState e c = .idle) ∧
      Frame s t [.engines, .groups, .store, .free] (fun y => regsIn 0x70000 0x71000 y ∨ regsIn 0x100000 0x300000 y) := by
  have eq : s.dresetReceived = s.resetAllEngines := if_pos (by rw [member, below]; rfl)
  obtain ⟨idles, frame⟩ := State.resetAllEngines_single single
  change RunsTo (done s s.dresetReceived) _
  rw [eq]
  exact runsTo_done _ _ _ ⟨fun e he c hc => (State.ctxState_congr (get_settle_group _ _ (ctxStat_addr rfl))).trans (idles e he c hc),
    frame.trans (.settle _ _ _ _)⟩

/-- Settles O41: joining, leaving and resetting a domain. -/
theorem domainMembership : Obligations.DomainMembership := by
  unfold Obligations.DomainMembership
  exact ⟨fun _ depth => joinOp_runs depth, fun _ dev depth x root below empty => ⟨joinReceive_accepts_runs dev depth x root below empty,
      joinReceive_duplicate_runs dev depth x root below empty⟩, fun _ reason joining own => ⟨joinReply_accepted_runs reason joining own,
      joinReply_refused_runs reason joining⟩, fun _ => rejoin_runs, fun _ member below empty => ⟨leaveTimeout_runs member below empty,
      leave_runs member below empty⟩, fun _ dev => pruneReceive_runs dev, fun _ single => ⟨dreset_runs single, dresetReceive_runs single⟩⟩

end Sys2Proof.Machine
end
